-- ==== Sys2Proof/Word.lean ====
section
/-! DEFINITION. The word types of the package and the sparse map every table of the state is kept in.

Everything is little-endian (R8). A `Map` is a list of (key, value) pairs with strictly rising keys; what an
unlisted key reads as is named by each reader (Machine/Map.lean). -/

namespace Sys2Proof

abbrev Byte := BitVec 8

/-- A sparse table: pairs with strictly rising keys. -/
abbrev Map (α : Type) := List (Nat × α)

end Sys2Proof
end

