-- ==== Sys2Proof/Types.lean ====
section
/-! DEFINITION. What the commands carry: the packets, cells and requests of the spec's links, and the physical outcomes
(a trained module, a bit error, a self-test result, a sensor) that the block senses but does not compute. -/

namespace Sys2Proof

/-- A die-to-die module: link index of Table 1.2 and module number on it. -/
structure D2dId where
  link : Fin 8
  module : Fin 16
deriving DecidableEq, Repr

/-- What the sender of a die-to-die cell asks for (Table 1.3); SEQ, ACK, credits and CRC are the link's own. -/
structure CellRequest where
  cls : BitVec 4
  stream : BitVec 12
  ctx : BitVec 6
  last : Bool
  err : Bool
  payload : BitVec 512
deriving DecidableEq, Repr

/-- The HBM stacks (bit s) that train at 8.0 Gb/s, and those that train only at 6.4 Gb/s (Table 6.2). -/
structure StackOutcome where
  fast : BitVec 16
  slow : BitVec 16
deriving DecidableEq, Repr, Inhabited

/-- One sample of the temperature sensors in °C (R468): the hottest sensor of each compute die, each I/O die, each stack. -/
structure Temps where
  compute : Vector (BitVec 8) 4
  io : Vector (BitVec 8) 2
  hbm : Vector (BitVec 8) 16
deriving DecidableEq, Repr

/-- The physical outcome of die, link and stack bring-up (Tables 1.11 and 16.8) that the package senses.
`trained` and `half` give per link the modules trained and those at x32; `sideband` says whether the mirror brought
the IA-IB sideband up by step 3; `exchange` whether the DISCOVER exchange completed. -/
structure BringUpOutcome where
  idMode : Bool
  trained : Vector (BitVec 16) 8
  half : Vector (BitVec 16) 8
  sideband : Bool
  exchange : Bool
  /-- Columns that fail the array self-test, by tile (R71). -/
  colsBad : Map (BitVec 32)
  /-- Columns fused out in production, by tile (R71). -/
  colsFused : Map (BitVec 32)
  /-- Scratchpad spare rows fused in use, by tile (64 * tile + bank) (R187). -/
  sparesFused : Map Nat
  /-- The known-answer tests of the Obsidian ROM passed (R435). -/
  selfTest : Bool
  /-- How the HBM stacks train. -/
  hbmTrain : StackOutcome
deriving DecidableEq, Repr, Inhabited

/-- How link 7 came up when a late mirror brought the sideband up during the wait (R40). -/
structure MirrorOutcome where
  trained : BitVec 16
  half : BitVec 16
  exchange : Bool
deriving DecidableEq, Repr

/-- What the scratchpad's check code found while one command read (R186): word addresses (8-byte units within the tile)
corrected, and words found uncorrectable. -/
structure WordErrors where
  corrected : List Nat
  bad : List Nat
deriving DecidableEq, Repr

/-- A fabric packet (Table 7.10): its 32-byte header and its DLEN data bytes. -/
structure Packet where
  hdr : BitVec 256
  data : List Byte
deriving DecidableEq, Repr

/-- A Pequa packet (Table 11.5): its 16-byte header and its data bytes. -/
structure HPacket where
  hdr : BitVec 128
  data : List Byte
deriving DecidableEq, Repr

/-- What FEC decoding made of a received codeword (R205): its 5,140 data bits and the receive lanes on which a symbol
was corrected, or nothing. -/
inductive FecOutcome where
  | uncorrectable
  | data (bits : BitVec 5140) (corrected : List (Fin 18))
deriving DecidableEq, Repr

/-- A received Pequa flit: its 256 bytes (byte 0 lowest) and whether the PCIe flit CRC and FEC accept it (R327). -/
structure FlitIn where
  bits : BitVec 2048
  crcOk : Bool
deriving DecidableEq, Repr

/-- Who makes a register access (R411, R415, R418): context 0's management window, a host port through a context's
window (the number in the packet), or the management bus. -/
inductive Requester where
  | mgmt
  | host (port : Fin 4)
  | i3c
deriving DecidableEq, Repr

end Sys2Proof
end

