-- ==== Sys2Proof/Syntax.lean ====
section
/-! DEFINITION. The commands the package takes: one constructor per row of spec/opcode_table.json, in the table's order.

Operands are what a command carries from outside: who writes a register and the value, the packet, cell or flit received,
the unit whose event it is, and the physical outcomes (WordErrors, BringUpOutcome, ...) the block senses and does not
compute. Unit numbers are bounded by their types, so a command can name only units the package has. -/

namespace Sys2Proof

/-- A command of the block. Each docstring cites the rule the row of the table names. -/
inductive Instr where
  /-- COLD_START (R471): Release of PKG_RESET_N after the rails are up starts the cold-start sequence of Table 16.8. -/
  | coldStart (o : BringUpOutcome)
  /-- PKG_RESET_LOW (R460): PKG_RESET_N held low for 10 µs or longer at any time forces a cold start. -/
  | pkgResetLow
  /-- MIRROR_WAIT_EXPIRY (R27): At 200 ms after reset release, a mirror that has not trained or exchanged is treated as absent and steps 5 and 6 run. -/
  | mirrorWaitExpiry
  /-- D2D_CELL_RECEIVE (R15): A die-to-die cell is received, checked by CRC and sequence, and either accepted or discarded until replay. -/
  | d2dCellReceive (m : D2dId) (atHigh : Bool) (cell : BitVec 640)
  /-- D2D_CELL_SEND (R15): A sender transmits a cell once its replay buffer and the stream credits allow it, replaying go-back-N where required. -/
  | d2dCellSend (m : D2dId) (fromHigh : Bool) (q : CellRequest)
  /-- D2D_LANE_PARITY_ERROR (R357): A per-lane parity error or loss of lane lock is charged to the lane's D2D_LANE bucket. -/
  | d2dLaneParityError (m : D2dId) (up : Bool) (lane : Fin 68) (lockLost : Bool)
  /-- D2D_HEARTBEAT_TIMEOUT (R22): Four consecutive missed sideband heartbeats declare the neighbour die absent. -/
  | d2dHeartbeatTimeout (link : Fin 8) (d : Fin 6)
  /-- D2D_FORWARDED_CLOCK_LOSS (R22): Loss of the forwarded clock on every module of a link declares the neighbour die absent. -/
  | d2dForwardedClockLoss (link : Fin 8) (d : Fin 6)
  /-- REF_CLOCK_INTERRUPT (R38): A reference interruption starts holdover: the PLLs hold frequency and HOLDOVER is set. -/
  | refClockInterrupt (d : Fin 6)
  /-- REF_CLOCK_RESTORE (R38): The reference returns within 10 µs; the PLLs relock and an event record is written. -/
  | refClockRestore (d : Fin 6) (ns : BitVec 32)
  /-- CLOCK_LOST (R38): An interruption longer than 10 µs puts the die in the clock-lost state. -/
  | clockLost (d : Fin 6)
  /-- PLL_LOCK_LOSS (R38): Loss of lock on any PLL puts its die in the clock-lost state. -/
  | pllLockLoss (d : Fin 6)
  /-- DESC_LOAD_B (R44): A LOAD_B descriptor fills a B bank from scratchpad, stalling while the bank is in use. -/
  | descLoadB (t : Fin 64)
  /-- DESC_PASS (R48): A PASS descriptor issues 1 to 16 A blocks against one bank into consecutive accumulator sets. -/
  | descPass (t : Fin 64)
  /-- DESC_OUTPUT (R478): An OUTPUT descriptor sets the destination that governs later drain-pending sets. -/
  | descOutput (t : Fin 64)
  /-- DESC_NOP (R478): A NOP descriptor is dropped as it is taken. -/
  | descNop (t : Fin 64)
  /-- BANK_LOAD_COMPLETE (R46): A B-bank load ends, the bank becomes valid, and a pass waiting on it may issue. -/
  | bankLoadComplete (t : Fin 64) (e : WordErrors)
  /-- BLOCK_BROADCAST (R43): One A block is broadcast to the array and the B columns of its tagged bank are latched. -/
  | blockBroadcast (t : Fin 64) (e : WordErrors)
  /-- SET_WRITE (R54): Stage W adds the window sum to the set value with one rounding and writes the set. -/
  | setWrite (t : Fin 64)
  /-- RESIDUE_MISMATCH (R58): A mod-3 residue mismatch suppresses the writes and replays the failing block and the younger blocks. -/
  | residueMismatch (t : Fin 64) (block : Nat) (dpus : List (Fin 32 × Fin 32))
  /-- RESIDUE_REPLAY_FAIL (R59): A replayed block mismatches again: the set is marked and the work ends with the array-residue error. -/
  | residueReplayFail (t : Fin 64) (block : Nat) (dpus : List (Fin 32 × Fin 32))
  /-- SET_DRAIN (R50): The output stage begins draining a drain-pending set, checking its value type and zero point against the OUTPUT descriptor. -/
  | setDrain (t : Fin 64)
  /-- SET_DRAIN_COMPLETE (R49): The last element of a set is read and the set is released to waiting blocks. -/
  | setDrainComplete (t : Fin 64)
  /-- TILE_COL_FORCE_WRITE (R71): A write to TILE_COL_FORCE takes columns out of service, at once inside the start-up window or through Table 2.5 after it. -/
  | tileColForceWrite (r : Requester) (t : Fin 64) (v : BitVec 32)
  /-- KEEPER_DUMMY_BROADCAST (R72): The keeper issues a dummy broadcast when its FILL or DECAY accumulator reaches 64. -/
  | keeperDummyBroadcast (t : Fin 64)
  /-- KEEPER_FILL_MAX_EXPIRY (R72): A gap longer than FILL_MAX moves the keeper to DECAY. -/
  | keeperFillMaxExpiry (t : Fin 64)
  /-- KEEPER_RAMP_INTERVAL_END (R72): At the end of each RAMP_INTERVAL the keeper level L falls (DECAY) or rises (RAMP), changing state at the limits. -/
  | keeperRampIntervalEnd (t : Fin 64)
  /-- TILE_KEEPER_WRITE (R73): A guarded write of TILE_KEEPER is range-checked and applies to each tile at its next state change. -/
  | tileKeeperWrite (r : Requester) (q : Fin 4) (v : BitVec 32)
  /-- TILE_CONV_CTRL_WRITE (R104): A write to TILE_CONV_CTRL takes effect at the first set whose drain begins after it. -/
  | tileConvCtrlWrite (r : Requester) (c : Fin 64) (t : Fin 64) (v : BitVec 32)
  /-- VEC_NOP (R106): A vector NOP instruction has no effect. -/
  | vecNop (t : Fin 64)
  /-- VEC_LD (R106): LD loads a strip from scratchpad, expands its codes and places them in TYPE. -/
  | vecLd (t : Fin 64) (e : WordErrors)
  /-- VEC_ST (R106): ST converts a strip to FMT, with scale forge or stochastic rounding where selected, and writes it to scratchpad. -/
  | vecSt (t : Fin 64)
  /-- VEC_LAYOUT (R112): LAYOUT loads the 16-byte layout descriptor. -/
  | vecLayout (t : Fin 64)
  /-- VEC_KEY (R127): KEY loads the 16-byte generator key descriptor. -/
  | vecKey (t : Fin 64)
  /-- VEC_SIG (R106): SIG sets a tile semaphore once every earlier ST has completed. -/
  | vecSig (t : Fin 64)
  /-- VEC_WAIT (R106): WAIT holds the sequencer until the semaphore is set, then clears it. -/
  | vecWait (t : Fin 64)
  /-- VEC_ADD (R107): ADD computes VA plus VB per lane. -/
  | vecAdd (t : Fin 64)
  /-- VEC_SUB (R107): SUB computes VA minus VB per lane. -/
  | vecSub (t : Fin 64)
  /-- VEC_MUL (R107): MUL computes VA times VB per lane. -/
  | vecMul (t : Fin 64)
  /-- VEC_FMA (R107): FMA computes VA times VB plus VC with one rounding. -/
  | vecFma (t : Fin 64)
  /-- VEC_MAX (R107): MAX takes the lane-wise maximum. -/
  | vecMax (t : Fin 64)
  /-- VEC_MIN (R107): MIN takes the lane-wise minimum. -/
  | vecMin (t : Fin 64)
  /-- VEC_SEL (R107): SEL selects VA or VB according to VC by value. -/
  | vecSel (t : Fin 64)
  /-- VEC_CMPLT (R107): CMPLT writes 1 of TYPE where VA is less than VB, and zero otherwise. -/
  | vecCmplt (t : Fin 64)
  /-- VEC_EXP2 (R108): EXP2 computes a correctly rounded base-2 exponential. -/
  | vecExp2 (t : Fin 64)
  /-- VEC_LOG2 (R108): LOG2 computes a correctly rounded base-2 logarithm. -/
  | vecLog2 (t : Fin 64)
  /-- VEC_RCP (R108): RCP computes a correctly rounded reciprocal. -/
  | vecRcp (t : Fin 64)
  /-- VEC_RSQRT (R108): RSQRT computes a correctly rounded reciprocal square root. -/
  | vecRsqrt (t : Fin 64)
  /-- VEC_RSUM (R109): RSUM adds the counted lanes into the row accumulator as a sum. -/
  | vecRsum (t : Fin 64)
  /-- VEC_RSSQ (R109): RSSQ adds the squares of the counted lanes into the row accumulator. -/
  | vecRssq (t : Fin 64)
  /-- VEC_RMAX (R109): RMAX takes the counted lanes into a row maximum. -/
  | vecRmax (t : Fin 64)
  /-- VEC_RFIN (R109): RFIN finishes the row, broadcasts the result and clears the accumulator. -/
  | vecRfin (t : Fin 64)
  /-- VEC_BCAST (R107): BCAST writes a 32-bit scratchpad word into every lane. -/
  | vecBcast (t : Fin 64)
  /-- VEC_TPOSE (R112): TPOSE transposes a 32 by 32 register pair. -/
  | vecTpose (t : Fin 64)
  /-- VEC_GORD (R121): GORD waits until the order word equals MB_ID. -/
  | vecGord (t : Fin 64)
  /-- VEC_GADV (R121): GADV writes MB_ID plus 1 to the order word. -/
  | vecGadv (t : Fin 64)
  /-- CTX_SHARE_CONS_WRITE (R132): The host acknowledges share records by advancing CONS; a write past PROD is ignored. -/
  | ctxShareConsWrite (r : Requester) (c : Fin 64) (v : BitVec 32)
  /-- STRATA_LOAD (R153): The LOAD command fetches an image into INCOMING. -/
  | strataLoad (r : Requester) (mgmtBus : Bool)
  /-- STRATA_DISCARD (R153): The DISCARD command empties INCOMING and ends any fetch or validation. -/
  | strataDiscard (r : Requester)
  /-- STRATA_ACTIVATE (R154): The ACTIVATE command files an activation at STRATA_ARM_LT in a cairn slot of context 0. -/
  | strataActivate (r : Requester)
  /-- STRATA_REVERT (R156): The REVERT command files a revert to PREVIOUS at STRATA_ARM_LT. -/
  | strataRevert (r : Requester)
  /-- STRATA_GROUP_APPLY (R154): The GROUP_APPLY command files a group update at STRATA_ARM_LT. -/
  | strataGroupApply (r : Requester)
  /-- STRATA_FW_COMMIT (R157): The FW_COMMIT command raises each anti-rollback counter to its running SVN. -/
  | strataFwCommit (r : Requester)
  /-- STRATA_CANCEL (R154): The CANCEL command removes the armed strata action. -/
  | strataCancel (r : Requester)
  /-- STRATA_FETCH_COMPLETE (R153): The fetch ends and the header checks begin. -/
  | strataFetchComplete (img : Option (List Byte))
  /-- STRATA_VALIDATION_COMPLETE (R153): Signature, section and semantic checks end, and IN_STATE becomes VALID or FAILED. -/
  | strataValidationComplete
  /-- ACTIVATION_SWAP (R155): Once the changed tiles are ready, the areas rotate and the payloads, planes, routes, map and groups load. -/
  | activationSwap (bad : Option (BitVec 40))
  /-- FIRMWARE_LOAD (R150): Changed firmware sections load per kind after an activation or revert. -/
  | firmwareLoad (kind : Fin 5)
  /-- SHADOW_LOAD_COMPLETE (R162): The shadow planes for a pending switch are loaded, and SHADOW_READY is set. -/
  | shadowLoadComplete (c : Fin 64)
  /-- PHASE_SWAP (R163): Once every unit is ready and the routes are drained, every plane of the context swaps in 64 CCLK. -/
  | phaseSwap (c : Fin 64)
  /-- PHASE_SWITCH_LATE (R163): At N plus 2 µs an unswapped switch is marked LATE and counted. -/
  | phaseSwitchLate (c : Fin 64)
  /-- HBM_READ (R193): An HBM burst read completes, corrected or uncorrectable, under the controller code. -/
  | hbmRead (c : Fin 64) (off : BitVec 40) (err : BitVec 304)
  /-- HBM_WRITE (R194): An HBM write is performed, with read-modify-write for partial bursts. -/
  | hbmWrite (c : Fin 64) (off : BitVec 40) (data : List Byte) (err : BitVec 304)
  /-- GATHER_COMPLETE (R183): The gather engine finishes a descriptor, and the mover entry completes, with the gather-fault error where a slice faulted. -/
  | gatherComplete (t : Fin 64) (n : BitVec 32)
  /-- SCRATCHPAD_SCRUB (R186): Patrol scrub reads one row of each bank every 1,024 tclk. -/
  | scratchpadScrub (t : Fin 64) (row : Fin 8192) (e : WordErrors)
  /-- SCRATCHPAD_CLEAR_COMPLETE (R188): The clear ends, CLEARING drops and waiting requesters proceed. -/
  | scratchpadClearComplete (t : Fin 64)
  /-- MOVER_WAKE (R190): A write to ring header bytes 0 to 3 wakes the mover, which checks PROD. -/
  | moverWake (t : Fin 64)
  /-- MOVE_COPY (R191): A COPY entry starts, in ring order and under FENCE, copying rows between addresses. -/
  | moveCopy (t : Fin 64)
  /-- MOVE_FILL (R191): A FILL entry starts writing zeros to DST. -/
  | moveFill (t : Fin 64)
  /-- MOVE_GATHER (R182): A GATHER entry submits a gather descriptor to the die's gather engine. -/
  | moveGather (t : Fin 64)
  /-- MOVE_ENTRY_COMPLETE (R191): An entry's writes become visible; SEM is set if enabled and CONS advances. -/
  | moveEntryComplete (t : Fin 64) (n : BitVec 32)
  /-- SOFT_REPAIR (R195): A row whose fault is lasting, and holds no unreplaced uncorrectable burst, is soft-repaired in the order of Table 6.10. -/
  | softRepair (off : BitVec 40) (resource : Bool)
  /-- HBM_SCRUB (R198): Patrol scrub reads the next HBM burst at class 3. -/
  | hbmScrub (off : BitVec 40) (err : BitVec 304)
  /-- MEM_RETIRE_FORCE_WRITE (R197): A write to MEM_RETIRE_FORCE retires a FREE page at once, or sets PEND_RETIRE on an OWNED one. -/
  | memRetireForceWrite (r : Requester) (q : Fin 4) (v : BitVec 32)
  /-- PAGE_ZEROED (R199): Zeroing of a released page ends, ZEROING clears and waiting accesses proceed. -/
  | pageZeroed (page : Fin 524288)
  /-- CODEWORD_RECEIVE (R205): A fabric codeword is FEC-decoded and its block is taken, or it is discarded as uncorrectable. -/
  | codewordReceive (p : Fin 8) (o : FecOutcome)
  /-- FLIT_ACK_TIMEOUT (R208): A flit unacknowledged for 10 µs retrains the port with REPLAY_LIMIT. -/
  | flitAckTimeout (p : Fin 8)
  /-- TS_PARAM (R212): A received TS_PARAM is checked against the torus wiring, encryption and node validity. -/
  | tsParam (p : Fin 8) (body : BitVec 512)
  /-- TS_RTT (R213): A TS_RTT message is answered or closes a round-trip exchange. -/
  | tsRtt (p : Fin 8) (body : BitVec 512) (recv : BitVec 64)
  /-- LANE_SWAP (R216): A LANE_SWAP message schedules a spare lane to replace a logical lane at AT_CW. -/
  | laneSwap (p : Fin 8) (body : BitVec 512)
  /-- NARROW (R216): A NARROW message schedules the direction to fall to x8 at AT_CW. -/
  | narrow (p : Fin 8) (body : BitVec 512)
  /-- CREDIT_INIT (R230): A CREDIT_INIT message sets the free units offered per VC. -/
  | creditInit (p : Fin 8) (body : BitVec 512)
  /-- LINK_RETRAIN (R217): A RETRAIN message from the far end takes the port down for retraining. -/
  | linkRetrain (p : Fin 8) (body : BitVec 512)
  /-- KEY_READY (R243): A KEY_READY message lets the transmitter change key slot at its next sequenced flit. -/
  | keyReady (p : Fin 8) (body : BitVec 512)
  /-- LINK_DOWN (R217): A DOWN message from the far end takes the port DOWN. -/
  | linkDown (p : Fin 8) (body : BitVec 512)
  /-- PORT_ENABLE (R211): An enabled port on a die in service leaves DOWN for DETECT. -/
  | portEnable (p : Fin 8)
  /-- PORT_RETRY_TIMER (R211): After 1 ms, or 1 s after three failures, a DOWN port tries training again. -/
  | portRetryTimer (p : Fin 8)
  /-- PORT_STATE_TIMEOUT (R211): A training state exceeds its bound and the port returns to DOWN. -/
  | portStateTimeout (p : Fin 8)
  /-- PMA_TRAIN_DONE (R211): Per-lane 802.3dj training ends and the port enters LANE_LOCK. -/
  | pmaTrainDone (p : Fin 8) (rxLanes : BitVec 18) (txLanes : BitVec 18)
  /-- LANE_LOCK_DONE (R215): Codeword lock held for 4,096 codewords fixes the width and enters PARAM. -/
  | laneLockDone (p : Fin 8) (reversed : Bool)
  /-- LANE_LOCK_LOSS (R216): An ACTIVE lane loses lock and the receiver chooses a swap, a narrowing or DOWN. -/
  | laneLockLoss (p : Fin 8) (lane : Fin 18)
  /-- LANE_SET_CHANGE (R216): At CW_SEQ equal to AT_CW both ends change the lane set and the port enters REPAIR. -/
  | laneSetChange (p : Fin 8)
  /-- CODEWORD_LOCK_LOSS (R217): Codeword lock lost for 1 µs takes the port DOWN. -/
  | codewordLockLoss (p : Fin 8)
  /-- FLIT_CTR_EXHAUSTED (R243): FLIT_CTR reaches 2^48 − 1 and the port goes DOWN with KEY_EXPIRED. -/
  | flitCtrExhausted (p : Fin 8)
  /-- PACKET_ROUTE (R233): A router delivers, forwards by dimension order or adaptively, or uses the spur table for a packet. -/
  | packetRoute (inPort : Option (Fin 8)) (k : Packet)
  /-- FAB_RD (R224): A remote RD request is checked and performed, and answered with RD_RSP. -/
  | fabRd (k : Packet)
  /-- FAB_WR (R224): A remote WR is performed at HCLASS and answered with WR_ACK once visible. -/
  | fabWr (k : Packet)
  /-- ATOM_ADD32 (R225): An atomic ADD32 adds modulo 2^32 and returns the old value. -/
  | atomAdd32 (k : Packet)
  /-- ATOM_ADD64 (R225): An atomic ADD64 adds modulo 2^64 and returns the old value. -/
  | atomAdd64 (k : Packet)
  /-- ATOM_SWAP64 (R225): An atomic SWAP64 replaces the target and returns the old value. -/
  | atomSwap64 (k : Packet)
  /-- ATOM_CAS64 (R225): An atomic CAS64 replaces the target only on equality and returns the old value. -/
  | atomCas64 (k : Packet)
  /-- ATOM_AND64 (R225): An atomic AND64 takes a bitwise AND and returns the old value. -/
  | atomAnd64 (k : Packet)
  /-- ATOM_OR64 (R225): An atomic OR64 takes a bitwise OR and returns the old value. -/
  | atomOr64 (k : Packet)
  /-- ATOM_MAXU64 (R225): An atomic MAXU64 takes the unsigned maximum and returns the old value. -/
  | atomMaxu64 (k : Packet)
  /-- ATOM_GADD128 (R225): An atomic GADD128 adds 128-bit reduction words, with status OVERFLOW on signed overflow. -/
  | atomGadd128 (k : Packet)
  /-- FAB_BWR (R226): A BWR segment is written on arrival and tracked in its bulk group, or answered BUSY when the table is full. -/
  | fabBwr (k : Packet)
  /-- FAB_BGET (R226): A BGET makes the destination push LENGTH bytes as bulk groups of its own. -/
  | fabBget (k : Packet)
  /-- RD_RSP (R227): A read response is matched by TAG and GEN and delivered, or dropped as stale. -/
  | rdRsp (k : Packet)
  /-- WR_ACK (R240): A write acknowledgement completes the fabric write. -/
  | wrAck (k : Packet)
  /-- ATOM_RSP (R225): An atomic response returns the old value to the requester. -/
  | atomRsp (k : Packet)
  /-- BW_ACK (R226): A bulk-group acknowledgement completes the group, advancing BGET pushes, bridges and the log engine. -/
  | bwAck (k : Packet)
  /-- BGET_DONE (R226): A BGET completion, or its failing status, reaches the requester. -/
  | bgetDone (k : Packet)
  /-- WPROBE (R368): A wait probe is followed locally and forwarded, answered with CYCLE, or dropped. -/
  | wprobe (k : Packet)
  /-- WPROBE_RSP (R368): A wait-probe acknowledgement reaches the sender. -/
  | wprobeRsp (k : Packet)
  /-- FAB_REQUEST_TIMEOUT (R227): A request with no response after REQ_TIMEOUT completes with the timeout error and its TAG is reserved. -/
  | fabRequestTimeout (tag : BitVec 16)
  /-- TAG_RESERVE_EXPIRY (R227): A retired fabric TAG becomes reusable REQ_TIMEOUT after its retirement. -/
  | tagReserveExpiry (tag : BitVec 16)
  /-- BWR_GROUP_RETRY (R226): A group answered BUSY is sent again whole after 10 µs. -/
  | bwrGroupRetry (bulk : BitVec 16)
  /-- BARRIER_CHECK (R264): At N plus BARRIER_K a barrier slot becomes BARRIER_OK or BARRIER_MISS. -/
  | barrierCheck (c : Fin 64) (slot : Fin 64)
  /-- BRIDGE_CELL (R244): A stream bridge accepts a cell into its ring when room allows and gathers cells into BWR groups. -/
  | bridgeCell (b : Fin 32) (cell : BitVec 512) (last : Bool)
  /-- BRIDGE_CONS_POLL (R244): A bridge that lacks room reads CONS every 1 µs. -/
  | bridgeConsPoll (b : Fin 32)
  /-- FAB_PORT_RETRAIN (R245): The RETRAIN command of FAB_PORT_CTRL retrains the port. -/
  | fabPortRetrain (r : Requester) (p : Fin 8)
  /-- FAB_PORT_DISABLE (R245): The DISABLE command of FAB_PORT_CTRL holds the port DISABLED. -/
  | fabPortDisable (r : Requester) (p : Fin 8)
  /-- FAB_PORT_ENABLE (R245): The ENABLE command of FAB_PORT_CTRL releases a DISABLED port. -/
  | fabPortEnable (r : Requester) (p : Fin 8)
  /-- FAB_NODE_WRITE (R219): A write of FAB_NODE sets the node ID unless a port is active, and reruns PARAM on MISWIRED ports. -/
  | fabNodeWrite (r : Requester) (v : BitVec 32)
  /-- FAB_TORUS_WRITE (R219): A write of FAB_TORUS sets the torus size within its limits unless a port is active. -/
  | fabTorusWrite (r : Requester) (v : BitVec 32)
  /-- LODESTONE_TICK (R246): At the tick edge the Lodestone count rises by 1 and the cairns due at that count are taken. -/
  | lodestoneTick
  /-- SOURCE_CLAIM (R249): A candidate that heard no valid block for CLAIM_WAIT ticks claims the source role. -/
  | sourceClaim
  /-- PARENT_SILENCE_TIMEOUT (R251): No tick-marking block on the parent port for 8 ticks loses the parent. -/
  | parentSilenceTimeout
  /-- HOLDOVER_INVALID_END (R251): After 8 ticks of LODE_VALID 0 the package may take a new parent. -/
  | holdoverInvalidEnd
  /-- LODE_REBASE (R254): At the next tick edge the count and phase are re-based onto the parent's. -/
  | lodeRebase
  /-- LODE_RESYNC (R254): The RESYNC command returns the time base to FREE_RUN, which reselects a parent. -/
  | lodeResync (r : Requester)
  /-- LODE_REBASE_ANY (R254): The REBASE_ANY command allows the next acquisition to re-base backward. -/
  | lodeRebaseAny (r : Requester)
  /-- LODE_CTRL_WRITE (R247): A write of TICK, CANDIDATE or CLAIM_WAIT is accepted only under R247 and R249. -/
  | lodeCtrlWrite (r : Requester) (v : BitVec 32)
  /-- CAIRN_ARM (R257): The ARM command arms a slot, or refuses it or handles it as past under R258 and R261. -/
  | cairnArm (r : Requester) (c : Fin 64) (slot : Fin 64) (v : BitVec 32)
  /-- CAIRN_CANCEL (R262): The CANCEL command cancels an ARMED slot if it is accepted before the edge of N. -/
  | cairnCancel (r : Requester) (c : Fin 64) (slot : Fin 64)
  /-- HEALTH_WINDOW_END (R362): At N plus ARG the window's record with peak score and lasting faults is written. -/
  | healthWindowEnd (c : Fin 64)
  /-- READY_POLL (R271): Every 0.5 µs an open bucket that is not ready reads its ready array. -/
  | readyPoll (c : Fin 64) (id : BitVec 16)
  /-- BUCKET_SCAN_COMPLETE (R272): The scan of SRC ends and a REPORT with EXPCODE and NONFIN is sent to the root. -/
  | bucketScanComplete (c : Fin 64) (id : BitVec 16)
  /-- BUCKET_CLOSE (R273): At N − LEAD the root forms the mask, E_b and close status and sends CLOSE. -/
  | bucketClose (c : Fin 64) (id : BitVec 16)
  /-- COLL_REPORT (R273): The root records a member's report, or counts it as late; the last report closes the bucket early. -/
  | collReport (k : Packet)
  /-- COLL_CLOSE (R274): A CLOSE segment is stored and forwarded down the tree; with all segments held the member writes the mask. -/
  | collClose (k : Packet)
  /-- COLL_DATA (R280): An owner quantises a DATA chunk onto the grid and accumulates it. -/
  | collData (k : Packet)
  /-- COLL_RESULT (R282): A RESULT chunk is written to its place in DST. -/
  | collResult (k : Packet)
  /-- COLL_SHARD_DONE (R283): A SHARD_DONE is recorded, and a member holding every shard completes the bucket. -/
  | collShardDone (k : Packet)
  /-- COLL_RESEND (R281): A RESEND request is answered from SRC or from the owner's words. -/
  | collResend (k : Packet)
  /-- COLL_GO (R296): A GO for a round lets the member write its OUT pieces once it holds GO from every PEER. -/
  | collGo (k : Packet)
  /-- COLL_PDONE (R296): A PDONE for a round is recorded, completing the re-shard once every round is done. -/
  | collPdone (k : Packet)
  /-- COLL_ABORT (R291): An ABORT ends the opening or use with its status. -/
  | collAbort (k : Packet)
  /-- TOKX_COUNT (R291): A COUNT is recorded and its placement CRC checked; with every COUNT held the offsets are sent. -/
  | tokxCount (k : Packet)
  /-- TOKX_OFFSET (R291): With its offsets received, the source sends its rows and tags, dropping rows beyond CAP. -/
  | tokxOffset (k : Packet)
  /-- TOKX_DONE (R292): A DONE is recorded, and with DONE from every member the use completes. -/
  | tokxDone (k : Packet)
  /-- TOKX_USE_START (R291): A token-exchange use begins when its ready array is complete and sends COUNT. -/
  | tokxUseStart (c : Fin 64) (id : BitVec 16)
  /-- PERMUTE_ROUND_READ_COMPLETE (R296): The read of a round's OUT sources ends and GO is sent to the IN peers. -/
  | permuteRoundReadComplete (c : Fin 64) (id : BitVec 16)
  /-- RESEND_TIMER (R281): After RESEND_LT lt without traffic for missing chunks, a RESEND is sent. -/
  | resendTimer (c : Fin 64) (id : BitVec 16)
  /-- DATA_LIMIT_EXPIRY (R281): At DATA_LIMIT the shard, use or re-share ends DATA_INCOMPLETE. -/
  | dataLimitExpiry (c : Fin 64) (id : BitVec 16)
  /-- WORD_FREE (R280): A shard's words are freed DATA_LIMIT lt after its SHARD_DONE. -/
  | wordFree (c : Fin 64) (id : BitVec 16) (seq : BitVec 16)
  /-- CONTROL_PACKET_REPEAT (R289): A control packet is sent again at t plus 1 and t plus 2 lt. -/
  | controlPacketRepeat
  /-- RING_POLL (R305): Every 0.25 µs the controller reads the ring headers for newly filled slots. -/
  | ringPoll (c : Fin 64) (vs : Fin 8)
  /-- FORWARD_ITEM (R308): A ready FORWARD item binds its versions, chooses a stash and is dispatched. -/
  | forwardItem (c : Fin 64) (vs : Fin 8)
  /-- BACKWARD_ITEM (R308): The BACKWARD item at the head of the backward ring is dispatched. -/
  | backwardItem (c : Fin 64) (vs : Fin 8)
  /-- RECOMPUTE_ITEM (R316): The lowest DROPPED micro-batch is recomputed once a stash place frees. -/
  | recomputeItem (c : Fin 64) (vs : Fin 8)
  /-- UPDATE_ITEM (R317): Once the previous version is retired, the update sets UPDATING and is dispatched. -/
  | updateItem (c : Fin 64) (vs : Fin 8)
  /-- MIRROR_ITEM (R386): A MIRROR item updates the mirror records one step behind, or marks them STALE_GRAD. -/
  | mirrorItem (c : Fin 64) (vs : Fin 8)
  /-- ITEM_DONE (R309): A unit's DONE clears, the record and references update, and slots free and outputs queue. -/
  | itemDone (c : Fin 64) (vs : Fin 8) (unit : Fin 3)
  /-- OUTPUT_DELIVERY (R307): A held output is delivered once the target ring has credit. -/
  | outputDelivery (c : Fin 64) (vs : Fin 8) (bwd : Bool)
  /-- VERSION_RETIRE (R314): After PREV_REFS has been 0 for RETIRE_HOLD lt, the previous version is retired. -/
  | versionRetire (c : Fin 64) (vs : Fin 8)
  /-- PIPE_ENABLE (R322): Setting ENABLE validates the stage table and runs the pipeline, or sets FAULT. -/
  | pipeEnable (r : Requester) (c : Fin 64) (v : BitVec 32)
  /-- PIPE_FLUSH (R323): The FLUSH command empties the rings, frees stashes, zeroes references and retires versions. -/
  | pipeFlush (r : Requester) (c : Fin 64)
  /-- PIPE_RETIRE_NOW (R314): The RETIRE_NOW command retires previous versions without the hold. -/
  | pipeRetireNow (r : Requester) (c : Fin 64)
  /-- PEQUA_FLIT_RECEIVE (R328): A Pequa flit is accepted in FSEQ order, or discarded with NAK; NAKs replay and retrain at the limit. -/
  | pequaFlitReceive (p : Fin 4) (f : FlitIn)
  /-- PEQUA_ACK_TIMEOUT (R328): A flit unacknowledged for 20 µs puts the port in RETRAIN. -/
  | pequaAckTimeout (p : Fin 4)
  /-- PEQUA_PARAM (R338): PARAM sets HOST_ID and coherence, and a changed HOST_ID tears down the contexts bound to the port. -/
  | pequaParam (p : Fin 4) (hostId : BitVec 64) (cohReq : Bool) (tags : BitVec 16)
  /-- PEQUA_CREDIT_INIT (R329): CREDIT_INIT sets the class credits and the port becomes ACTIVE. -/
  | pequaCreditInit (p : Fin 4) (req snp rsp : BitVec 16)
  /-- PEQUA_DOWN (R329): A DOWN message takes the port down, discarding unacknowledged flits. -/
  | pequaDown (p : Fin 4) (reason : BitVec 8)
  /-- PEQUA_PHY_TRAIN_DONE (R329): PCIe training reaches L0 in Flit Mode, or the port is FAILED with too few lanes. -/
  | pequaPhyTrainDone (p : Fin 4) (lanes : Fin 17) (rate : BitVec 2)
  /-- PEQUA_STATE_TIMEOUT (R329): A Pequa training state exceeds its bound and the port returns to DOWN. -/
  | pequaStateTimeout (p : Fin 4)
  /-- PEQUA_RETRY_TIMER (R329): A DOWN port tries training again after 1 ms. -/
  | pequaRetryTimer (p : Fin 4)
  /-- PEQUA_LINK_LOSS (R347): Loss of L0 takes the port DOWN, and outstanding package requests complete with the link-down error. -/
  | pequaLinkLoss (p : Fin 4)
  /-- DRD (R333): An uncached host read of device memory is checked and answered with DRSP. -/
  | drd (p : Fin 4) (k : HPacket)
  /-- DWR (R333): A host write of device memory is checked, performed and answered with DCMP once visible. -/
  | dwr (p : Fin 4) (k : HPacket)
  /-- DRD_S (R334): A coherent shared read of a device line updates the directory and grants S. -/
  | drdS (p : Fin 4) (k : HPacket)
  /-- DRD_E (R334): A coherent exclusive read of a device line snoops other holders and grants E. -/
  | drdE (p : Fin 4) (k : HPacket)
  /-- DEVICT (R334): A host gives up a device line, writing it back when modified. -/
  | devict (p : Fin 4) (k : HPacket)
  /-- RRD (R407): A host register read of the control region is checked and answered. -/
  | rrd (p : Fin 4) (k : HPacket)
  /-- RWR (R407): A host register write of the control region is checked and performed. -/
  | rwr (p : Fin 4) (k : HPacket)
  /-- HSRSP (R334): A host snoop response releases the waiting access, with write-back of modified data. -/
  | hsrsp (p : Fin 4) (k : HPacket)
  /-- HSNP_I (R335): The host invalidates the package's copy of a host line; a watched line is given up. -/
  | hsnpI (p : Fin 4) (k : HPacket)
  /-- HSNP_S (R335): The host downgrades the package's copy of a host line to shared. -/
  | hsnpS (p : Fin 4) (k : HPacket)
  /-- HDATA (R347): Host read data is matched by TAG and GEN and used, or dropped as stale. -/
  | hdata (p : Fin 4) (k : HPacket)
  /-- HCMP (R342): A host write completion lets the completion writer set VALID. -/
  | hcmp (p : Fin 4) (k : HPacket)
  /-- DSNP_TIMEOUT (R335): A DSNP unanswered for 1 ms fences the port's coherence. -/
  | dsnpTimeout (p : Fin 4)
  /-- WATCH_POLL (R335): On a non-coherent port the watched lines are read with HRD every 1 µs. -/
  | watchPoll (c : Fin 64) (line : Fin 64)
  /-- RUN_LINE_REACQUIRE (R339): After REACQ the watched line is taken back and a posted record with the expected SEQ is checked. -/
  | runLineReacquire (c : Fin 64) (line : Fin 64)
  /-- RUN (R341): A RUN record copies its input and sets START_SEM on its tiles. -/
  | run (c : Fin 64) (seq : BitVec 32)
  /-- COPY (R341): A COPY record starts moving bytes between host and package. -/
  | copy (c : Fin 64) (seq : BitVec 32)
  /-- ABORT (R345): An ABORT record ends its target as ignored, not started, running RUN or running COPY. -/
  | abort (c : Fin 64) (seq : BitVec 32)
  /-- FENCE (R341): A FENCE record completes when every earlier run has completed. -/
  | fence (c : Fin 64) (seq : BitVec 32)
  /-- RUN_NOP (R341): A NOP record completes at once. -/
  | runNop (c : Fin 64) (seq : BitVec 32)
  /-- RUN_COMPLETE (R341): DONE_SEM on the lead tile completes the RUN and its completion record is written. -/
  | runComplete (c : Fin 64) (seq : BitVec 32)
  /-- COPY_COMPLETE (R341): A COPY completes once every write is visible. -/
  | copyComplete (c : Fin 64) (seq : BitVec 32)
  /-- RUN_DEADLINE (R348): At DEADLINE_LT the run completes with DEADLINE and its reads are retired. -/
  | runDeadline (c : Fin 64) (seq : BitVec 32)
  /-- CTX_CPL_CONS_WRITE (R342): Advancing CTX_CPL_CONS rewrites the consumed slots with VALID 0b0. -/
  | ctxCplConsWrite (r : Requester) (c : Fin 64) (v : BitVec 32)
  /-- CTX_CPL_ENABLE (R342): Enabling the completion ring writes every slot with the previous SEQ and VALID 0b0. -/
  | ctxCplEnable (r : Requester) (c : Fin 64) (v : BitVec 32)
  /-- CTX_EVT_CONS_WRITE (R344): Advancing the event-ring CONS frees slots for withheld records. -/
  | ctxEvtConsWrite (r : Requester) (c : Fin 64) (v : BitVec 32)
  /-- DEV_HP_BIND_WRITE (R337): A bind write on port p binds a FREE permitted context, or reports why not. -/
  | devHpBindWrite (r : Requester) (p : Fin 4) (v : BitVec 32)
  /-- LOSS_LIMIT_EXPIRY (R338): A port not ACTIVE for LOSS_LIMIT seconds tears down its bound contexts. -/
  | lossLimitExpiry (p : Fin 4)
  /-- CTX_TEARDOWN (R346): The TEARDOWN command runs Table 11.11 up to QUARANTINE. -/
  | ctxTeardown (r : Requester) (c : Fin 64)
  /-- QUARANTINE_END (R346): After DEV_CTX_QUAR, with no TAG outstanding or reserved, the context becomes FREE. -/
  | quarantineEnd (c : Fin 64)
  /-- DEV_HP_RETRAIN (R350): The RETRAIN command of DEV_HP_CTRL retrains the host port. -/
  | devHpRetrain (r : Requester) (p : Fin 4)
  /-- DEV_HP_DISABLE (R350): The DISABLE command of DEV_HP_CTRL holds the host port DISABLED. -/
  | devHpDisable (r : Requester) (p : Fin 4)
  /-- DEV_HP_ENABLE (R350): The ENABLE command of DEV_HP_CTRL releases the host port. -/
  | devHpEnable (r : Requester) (p : Fin 4)
  /-- BUCKET_LEAK (R353): Each LEAK interval a leaky bucket's level falls by 1. -/
  | bucketLeak (cls : Fin 7) (unit : BitVec 32)
  /-- RAS_LB_CFG_WRITE (R356): New N and W apply to each bucket at its next event. -/
  | rasLbCfgWrite (r : Requester) (cls : Fin 7) (v : BitVec 32)
  /-- HEALTH_SCORE (R360): Every 1,024 lt the risk score is recomputed. -/
  | healthScore
  /-- SECURE_NOW (R361): The SECURE_NOW command of RAS_HEALTH_CTRL issues secure now. -/
  | secureNow (r : Requester)
  /-- WAIT_GRAPH_SAMPLE (R363): Every 1 µs the monitor samples all target words and follows the chains. -/
  | waitGraphSample
  /-- WPROBE_PERIOD (R368): A persisting remote chain sends another probe every PROBE_PERIOD. -/
  | wprobePeriod (u : Fin 284)
  /-- SAMPLE_CUTOFF (R371): A tile copy not ended after 50 µs is cut off as PARTIAL. -/
  | sampleCutoff (t : Fin 64)
  /-- SAMPLE_COMPLETE (R372): When the last tile ends, LT and SAMPLE_TAKEN are written. -/
  | sampleComplete
  /-- SAMPLE_RELEASE (R372): The RELEASE command returns every sample slot to NONE. -/
  | sampleRelease (r : Requester)
  /-- CONTEXT_RESET (R374): The CONTEXT command of RAS_RESET_CTRL resets context c as Table 12.10. -/
  | contextReset (r : Requester) (c : Fin 64)
  /-- COMPUTE_RESET (R374): The COMPUTE command runs the package compute reset of Table 12.11. -/
  | computeReset (r : Requester)
  /-- FULL_RECOVERY (R374): The FULL command runs the package full recovery of Table 12.12. -/
  | fullRecovery (r : Requester) (o : BringUpOutcome)
  /-- RECOVER_N_LOW (R460): RECOVER_N low for at least 1 µs after start-up requests a package full recovery. -/
  | recoverNLow (o : BringUpOutcome)
  /-- PROT_ENABLE (R383): Setting ENABLE validates the protection table and initialises the entries. -/
  | protEnable (r : Requester) (c : Fin 64)
  /-- SECURE (R389): The SECURE command flushes the log and verifies every mirror against its counterpart. -/
  | secure (r : Requester) (c : Fin 64)
  /-- SECURE_REREAD (R389): Every 10 µs a counterpart showing APPLYING or DIG_BUSY is read again. -/
  | secureReread (c : Fin 64) (entry : Fin 4096)
  /-- RESTORE (R398): The RESTORE command completes WRITTEN updates and repairs TORN entries from the mirror. -/
  | restore (r : Requester) (c : Fin 64)
  /-- APPLY (R399): The APPLY command runs an update from the partner's retained block and slots. -/
  | apply (r : Requester) (c : Fin 64)
  /-- PROT_RESYNC (R390): The RESYNC command refetches every mirror of a stage from its counterpart. -/
  | protResync (r : Requester) (c : Fin 64)
  /-- PROMOTE (R400): The PROMOTE command brings the mirrors to step t and makes them OWN. -/
  | promote (r : Requester) (c : Fin 64)
  /-- FETCH (R401): The FETCH command copies every counterpart record to a replacement. -/
  | fetch (r : Requester) (c : Fin 64)
  /-- DEMOTE (R401): The DEMOTE command returns PROMOTED entries to MIRROR. -/
  | demote (r : Requester) (c : Fin 64)
  /-- RETAIN_WRITE (R385): After MIRROR(t − 2) ends, RETAIN for step t is written, with NORM_SQ once the norm bucket is done. -/
  | retainWrite (c : Fin 64)
  /-- SLOT_COPY (R387): Once the bucket is done and the slot is free, the gradient slice is copied into a retained slot. -/
  | slotCopy (c : Fin 64) (entry : Fin 4096)
  /-- DIGEST_COMPLETE (R388): The CRC digest of a new version ends, and CUR_DIG and PREV_DIG update. -/
  | digestComplete (c : Fin 64) (entry : Fin 4096)
  /-- LOG_APPEND (R393): The log engine appends the next record to the remote log when space allows. -/
  | logAppend (c : Fin 64)
  /-- CTX_LOG_PROD_WRITE (R394): Staged log bytes are published, or the write is ignored when too far ahead. -/
  | ctxLogProdWrite (r : Requester) (c : Fin 64) (v : BitVec 32)
  /-- REGISTER_WRITE (R408): A write to a register with no row of its own takes effect under its access code and range rules. -/
  | registerWrite (r : Requester) (c : Fin 64) (addr : BitVec 39) (v : BitVec 32)
  /-- GUARDED_WRITE_FIRST (R411): The first word of a guarded pair is held pending. -/
  | guardedWriteFirst (r : Requester) (c : Fin 64) (addr : BitVec 39) (v : BitVec 32)
  /-- GUARDED_WRITE_SECOND (R411): A matching complement accepts the pending value; otherwise the guard fails. -/
  | guardedWriteSecond (r : Requester) (c : Fin 64) (addr : BitVec 39) (v : BitVec 32)
  /-- GUARD_TIMEOUT (R411): A pending guarded value without its complement after 1 µs is dropped. -/
  | guardTimeout (r : Requester)
  /-- COUNTER_LOW_READ (R410): A read of a lower word latches the upper word for that requester. -/
  | counterLowRead (r : Requester) (c : Fin 64) (addr : BitVec 39)
  /-- IND_DATA_ACCESS (R419): An IND_DATA access reaches the word at BLOCK and OFFSET and advances OFFSET. -/
  | indDataAccess (r : Requester) (window : Option (Fin 64)) (w : Option (BitVec 32))
  /-- DEV_ADMIN_WRITE (R418): A guarded write of DEV_ADMIN by context 0 sets the administrator ports. -/
  | devAdminWrite (r : Requester) (v : BitVec 32)
  /-- DEV_EVT_CONS_WRITE (R426): Advancing the package event-ring CONS frees slots. -/
  | devEvtConsWrite (r : Requester) (v : BitVec 32)
  /-- BUNDLE_RECEIVED (R435): The last byte of the PLDM bundle transfer arrives and verification begins. -/
  | bundleReceived (bytes : List Byte)
  /-- BUNDLE_VERIFIED (R436): Bundle verification ends: the firmware is loaded and the controller released, or the bundle is discarded. -/
  | bundleVerified (o : StackOutcome)
  /-- RSA_KEY_READY (R438): Derivation of the RSA identity key ends. -/
  | rsaKeyReady
  /-- GET_VERSION (R442): An SPDM GET_VERSION is answered. -/
  | getVersion (ch : Fin 6) (msg : List Byte)
  /-- GET_CAPABILITIES (R442): An SPDM GET_CAPABILITIES is answered. -/
  | getCapabilities (ch : Fin 6) (msg : List Byte)
  /-- NEGOTIATE_ALGORITHMS (R442): An SPDM NEGOTIATE_ALGORITHMS is answered. -/
  | negotiateAlgorithms (ch : Fin 6) (msg : List Byte)
  /-- GET_DIGESTS (R442): An SPDM GET_DIGESTS returns the digests of the certificate slots. -/
  | getDigests (ch : Fin 6) (msg : List Byte)
  /-- GET_CERTIFICATE (R442): An SPDM GET_CERTIFICATE returns a certificate chain. -/
  | getCertificate (ch : Fin 6) (msg : List Byte)
  /-- SET_CERTIFICATE (R439): An SPDM SET_CERTIFICATE stores a chain whose leaf matches the derived key. -/
  | setCertificate (ch : Fin 6) (msg : List Byte)
  /-- CHALLENGE (R442): An SPDM CHALLENGE is answered with a signed response. -/
  | challenge (ch : Fin 6) (msg : List Byte)
  /-- GET_MEASUREMENTS (R443): An SPDM GET_MEASUREMENTS returns the measurement blocks. -/
  | getMeasurements (ch : Fin 6) (msg : List Byte)
  /-- KEY_EXCHANGE (R442): An SPDM KEY_EXCHANGE opens a session, or is answered Busy beyond 8 sessions. -/
  | keyExchange (ch : Fin 6) (msg : List Byte)
  /-- FINISH (R442): An SPDM FINISH completes session establishment. -/
  | finish (ch : Fin 6) (msg : List Byte)
  /-- END_SESSION (R442): An SPDM END_SESSION closes a session. -/
  | endSession (ch : Fin 6) (msg : List Byte)
  /-- QUOTE (R446): A QUOTE request returns an ML-DSA-signed digest over the nonce and measurements. -/
  | quote (ch : Fin 6) (nonce : BitVec 256)
  /-- SEC_MBOX_SEND (R445): The SEND command of a mailbox has Obsidian fetch the request and write the response. -/
  | secMboxSend (r : Requester) (m : Fin 5)
  /-- SEC_MBOX_ABANDON (R445): The ABANDON command ends a BUSY mailbox request. -/
  | secMboxAbandon (r : Requester) (m : Fin 5)
  /-- LINK_KEY_RECORD (R447): A link-key record in a session installs keys in a port's idle slot. -/
  | linkKeyRecord (session : Fin 8) (record : BitVec 768)
  /-- UNLOCK_NONCE_READ (R451): A read of the UNLOCK register returns a fresh nonce. -/
  | unlockNonceRead
  /-- UNLOCK_RECORD (R451): A signed unlock record is verified and sets UNLOCK_PENDING. -/
  | unlockRecord (record : BitVec 512) (sig : List Byte)
  /-- TAP_IDCODE (R450): The IDCODE instruction selects the IDCODE register. -/
  | tapIdcode (d : Fin 6)
  /-- TAP_SAMPLE_PRELOAD (R450): The SAMPLE/PRELOAD instruction selects the boundary register. -/
  | tapSamplePreload (d : Fin 6)
  /-- TAP_EXTEST (R450): The EXTEST instruction drives the boundary, or acts as BYPASS while locked. -/
  | tapExtest (d : Fin 6)
  /-- TAP_CLAMP (R450): The CLAMP instruction, or BYPASS while locked. -/
  | tapClamp (d : Fin 6)
  /-- TAP_HIGHZ (R450): The HIGHZ instruction, or BYPASS while locked. -/
  | tapHighz (d : Fin 6)
  /-- TAP_IJTAG_ACCESS (R450): The IJTAG_ACCESS instruction opens the 1687 network, with status instruments only while locked. -/
  | tapIjtagAccess (d : Fin 6)
  /-- TAP_UNLOCK (R450): The UNLOCK instruction on IA selects the UNLOCK register. -/
  | tapUnlock (d : Fin 6)
  /-- TAP_BYPASS (R450): The BYPASS instruction selects the one-bit bypass register. -/
  | tapBypass (d : Fin 6)
  /-- PWR_QUIESCE (R467): The QUIESCE command stops TCLK when every context is free and every pipeline off. -/
  | pwrQuiesce (r : Requester)
  /-- PWR_FORWARD (R467): The FORWARD command from QUIESCE stops the compute dies and puts HBM in self-refresh. -/
  | pwrForward (r : Requester)
  /-- PWR_RUN (R467): The RUN command returns the package to RUN. -/
  | pwrRun (r : Requester)
  /-- PWR_BOOT_GO (R471): The GO command ends step 7 of cold start. -/
  | pwrBootGo (r : Requester)
  /-- BOOT_WINDOW_EXPIRY (R471): Two seconds after step 6 without GO, start-up continues with step 8. -/
  | bootWindowExpiry
  /-- DVFS_LEVEL_REQ_WRITE (R463): A guarded write of LEVEL_REQ changes the requested level of a die. -/
  | dvfsLevelReqWrite (r : Requester) (q : Fin 4) (v : BitVec 32)
  /-- DVFS_STEP (R463): A level change moves VCORE and TCLK in order once the die's pipelines are empty. -/
  | dvfsStep (q : Fin 4) (mv : BitVec 10)
  /-- LIMIT_LOOP (R464): Every 1 ms the limit loop lowers or raises the limit-loop level against LIMIT. -/
  | limitLoop (watts : BitVec 12)
  /-- PWR_CAP_ASSERT (R465): PWR_CAP_N going low drops every compute die to level 0 within 20 µs. -/
  | pwrCapAssert
  /-- PWR_CAP_DEASSERT (R465): PWR_CAP_N returning high restores the limit-loop level in force before. -/
  | pwrCapDeassert
  /-- THERMAL_SAMPLE (R468): Every 10 µs the sensors are sampled and throttle and trip thresholds are checked. -/
  | thermalSample (temps : Temps)
  /-- THERMAL_LEVEL_STEP (R470): Each millisecond the thermal level falls under throttle or rises below warning. -/
  | thermalLevelStep
  /-- SIGNAL_DETECT (R211): Signal detected on at least 8 lanes moves a fabric port from DETECT to PMA_TRAIN. -/
  | signalDetect (p : Fin 8) (lanes : BitVec 18)
  /-- CODEWORD_LOCK_REGAINED (R216): After a lane swap or narrowing the receiver regains codeword lock, the replay completes and the port returns from REPAIR to ACTIVE. -/
  | codewordLockRegained (p : Fin 8)
  /-- L0_REGAINED (R329): PCIe Recovery regains L0, the unacknowledged flits are replayed and the Pequa port returns from RETRAIN to ACTIVE. -/
  | l0Regained (p : Fin 4)
  /-- MIRROR_SIDEBAND_UP (R40): A late mirror brings the IA–IB sideband up during the 200 ms wait, link 7 trains, and steps 5 and 6 of bring-up run once its modules have trained or left service. -/
  | mirrorSidebandUp (o : MirrorOutcome)
  /-- EMPTY_BROADCAST_SLOT (R65): A tclk in which the feeder has no A block ready is an empty broadcast slot: it counts in TILE_FEED_STALL and moves the keeper from RUN to FILL. -/
  | emptyBroadcastSlot (t : Fin 64)
  /-- CODEWORD_SEND (R206): At each codeword boundary a fabric transmitter sends a DATA, NULL, IDLE or LINK block, including the IDLE block due in every 1,024 codewords. -/
  | codewordSend (p : Fin 8)
  /-- PEQUA_FLIT_SEND (R328): A Pequa transmitter sends its next DATA, NULL, IDLE or CTRL flit, within its 1,024-flit replay window and its class credits. -/
  | pequaFlitSend (p : Fin 4)
  /-- TAP_RESET (R449): TRST_N low, or the IEEE 1149.1 reset sequence on TMS, returns the TAP controllers of every die to Test-Logic-Reset. -/
  | tapReset
  /-- SLOT_COPY_END (R387): The copy of GBYTES into a retained slot ends and GSTEP for that slot is written. -/
  | slotCopyEnd (c : Fin 64) (entry : Fin 4096)
  /-- UPDATE_SUM_COMPLETE (R317): The CRC of a shard's WF_SCALE, at 64 B per CCLK, ends after an UPDATE or MIRROR item, and STEP, VERSION, T_SEL, CHECK and the ledger are written. -/
  | updateSumComplete (c : Fin 64) (vs : Fin 8) (shard : Fin 1024)
deriving DecidableEq, Repr

end Sys2Proof
end

