-- ==== Sys2Proof/Machine/StateLinks.lean ====
section
/-! DEFINITION. The state of the links: die-to-die modules (chapter 1), Linepol ports and requests (chapter 7), the Lodestone
time base and cairn slots (chapter 8), Pequa ports (chapter 11). -/

namespace Sys2Proof.Machine

/-- One end of a die-to-die module (R14 to R20). -/
structure D2dEnd where
  /-- SEQ of the next new cell this end sends. -/
  txSeq : BitVec 16 := 0
  /-- The replay buffer: cells sent and not acknowledged, oldest first, at most 256 (R15). -/
  unacked : List (BitVec 640) := []
  /-- Cells at the end of `unacked` still to be sent again by a go-back-N replay. -/
  toReplay : Nat := 0
  /-- Highest SEQ received in order. -/
  rxSeq : BitVec 16 := 0xFFFF
  /-- A CRC error was found: later cells are discarded until the sender replays. -/
  discarding : Bool := false
  /-- Raw cells sent whose credit has not come back, by stream (R18, R19). -/
  outstanding : Map Nat := []
  /-- Raw cells acknowledged to this end, by stream (R20). -/
  ackedRaw : Map Nat := []
  /-- Raw cells received in order by this end, by stream (R20). -/
  rxRaw : Map Nat := []
  /-- Raw cells received for a stream bridge that has not taken them yet, by stream (R244). -/
  held : Map Nat := []
  /-- Credits this end owes the far end, by stream. -/
  owed : Map Nat := []
  /-- Cells sent since the last CTL cell (R16). -/
  sinceCtl : Nat := 15
deriving DecidableEq, Repr

/-- A die-to-die module (Table 1.2). `low` is the end on the lower-numbered die. -/
structure D2dModule where
  inService : Bool := false
  half : Bool := false
  /-- Failed lanes by direction, and data repair lanes used, at most 4 each (R357, R358). -/
  failedUp : List Nat := []
  failedDown : List Nat := []
  repairsUp : Nat := 0
  repairsDown : Nat := 0
  /-- Credit limit of each raw stream on the module (R18, R19). -/
  limit : Map Nat := []
  low : D2dEnd := {}
  high : D2dEnd := {}
deriving DecidableEq, Repr

/-- A raw stream whose module left service (R20, R145): the cells it had sent and not had acknowledged, oldest first, and the
cells acknowledged. -/
structure StoppedStream where
  link : Nat
  module : Nat
  stream : Nat
  fromHigh : Bool
  acked : Nat
  cells : List (BitVec 640)
deriving DecidableEq, Repr

/-- A die (R22, R38, R41, R376). -/
structure Die where
  locked : Bool := false
  holdover : Bool := false
  clockLost : Bool := false
  absent : Bool := false
  isolated : Bool := false
  /-- Its tile clock is stopped (R467, R470). -/
  tclkStopped : Bool := false
deriving DecidableEq, Repr

/-- DEV_ROLE.STATE (Table 1.5). -/
inductive RoleState where
  | reset | training | ready | degraded | roleConflict | genIncompatible
deriving DecidableEq, Repr

/-- Where start-up stands (Tables 1.11 and 16.8). -/
inductive BringUp where
  | off | waitMirror | waitBundle | verifying | window | links | done | stopped
deriving DecidableEq, Repr

/-- The fuses and the substrate ties (Tables 1.7 and 1.8, R10): no reset changes them. Dies are numbered as R33 numbers
them; `halfId` and `posId` are the ties each die reads. -/
structure Fuses where
  dieId : Vector (BitVec 256) 6
  pkgIdA : BitVec 128
  pkgIdB : BitVec 128
  halfId : Vector Bool 6
  posId : Vector Bool 6
  /-- REVOKE and the anti-rollback banks as they are programmed, by FW_KIND, values in bank order (Table 15.1). -/
  revoke : BitVec 8
  banks : Map (List (BitVec 16))
  /-- The unique device secret, and KEY_HASH of RSA slots 0 to 3 and ML-DSA slots 0 to 3 (first hash byte most significant). -/
  uds : BitVec 256
  keyHash : Vector (BitVec 512) 8
  /-- VOFFSET of each compute die, signed mV (R462). -/
  vOffset : Vector (BitVec 8) 4
deriving DecidableEq, Repr, Inhabited

/-- Linepol port states (Table 7.7), in the order of FAB_PORT_STATUS.STATE. -/
inductive PortState where
  | down | detect | pmaTrain | laneLock | param | rtt | active | repair | miswired | failed | disabled
deriving DecidableEq, Repr

/-- An installed link key (R242, R447): the 256-bit keys and the salts of the two directions, byte 0 lowest. -/
structure LinkKey where
  keyTx : BitVec 256
  saltTx : BitVec 32
  keyRx : BitVec 256
  saltRx : BitVec 32
deriving DecidableEq, Repr

/-- A lane change scheduled by LANE_SWAP or NARROW (Table 7.8): the codeword it happens at, the lanes that carry traffic
from then on, and whether it narrows. `rx` says whether this end receives the direction. -/
structure LaneChange where
  atCw : BitVec 14
  lanes : BitVec 18
  narrow : Bool
  logical : Nat
  newPhys : Nat
  rx : Bool
deriving DecidableEq, Repr

/-- One Linepol port (chapter 7). Credit and queue tables are keyed `2 * VC + share` (share 0 escape, 1 adaptive). -/
structure FabPort where
  state : PortState := .down
  failures : Nat := 0
  detects : Nat := 0
  reversed : Bool := false
  /-- Receive and transmit lanes in service, and those carrying traffic (R214 to R216). -/
  rxService : BitVec 18 := 0
  txService : BitVec 18 := 0
  rxUse : BitVec 18 := 0
  txUse : BitVec 18 := 0
  /-- Lane changes scheduled and not reached, and those made that await codeword lock. -/
  changes : List LaneChange := []
  repairing : List LaneChange := []
  peerPort : BitVec 3 := 0
  peerNode : BitVec 23 := 0x7FFFFF
  peerPorts : BitVec 8 := 0
  peerNeigh : BitVec 48 := 0
  peerEncReq : Bool := false
  peerKeyReady : Bool := false
  rtt : BitVec 24 := 0
  /-- Exchanges done in RTT, the T_SEND of the one under way, and whether CREDIT_INIT has been exchanged (R213). -/
  rttCount : Nat := 0
  rttSent : Option (BitVec 64) := none
  creditsIn : Bool := false
  /-- Transmit side: FSEQ of the next flit, unacknowledged flits oldest first, how many of them to replay, CW_SEQ,
  codewords since the last IDLE block and since the last LINK block, an IDLE block due for a tick, and due for FACK. -/
  txSeq : BitVec 16 := 0
  unacked : List (BitVec 2560) := []
  toReplay : Nat := 0
  cwSeq : BitVec 14 := 0
  sinceIdle : Nat := 0
  sinceLink : Nat := 0
  tickDue : Bool := false
  ackDue : Bool := false
  linkQueue : List (BitVec 4 × List Byte) := []
  /-- NAKs received for one FSEQ (R208). -/
  nakSeq : BitVec 16 := 0
  nakCount : Nat := 0
  /-- Units of the packet being sent that no flit has taken yet, and the packets queued by VC and share. -/
  txUnits : List (BitVec 128) := []
  queues : Map (List Packet) := []
  /-- The packet being sent is of low priority; flits since one was given to low priority; the queue last served, by priority
  (R231). -/
  txLow : Bool := false
  lowGap : Nat := 0
  lastLow : Nat := 7
  lastHigh : Nat := 15
  /-- Free units at the far end, by VC and share. -/
  credits : Map Nat := []
  /-- CW_SEQ of the last codeword received. -/
  rxCw : BitVec 14 := 0
  /-- Receive side: highest FSEQ accepted, NAK owed or already sent in this episode, units of a packet not complete,
  complete packets not yet routed, units to return. -/
  rxSeq : BitVec 16 := 0xFFFF
  nakDue : Bool := false
  nakSent : Bool := false
  rxUnits : List (BitVec 128) := []
  rx : List Packet := []
  owed : Map Nat := []
  /-- Encryption (R242, R243): slots 0 and 1, the phases in use, FLIT_CTR sent, FLIT_CTRs accepted by slot, KEY_READY
  received, counts at which tags failed. The event of an encryption wait has been written. -/
  keys0 : Option LinkKey := none
  keys1 : Option LinkKey := none
  encOn : Bool := false
  txPhase : Bool := false
  rxPhase : Bool := false
  txCtr : Nat := 0
  rxCtr0 : Nat := 0
  rxCtr1 : Nat := 0
  keyReady : Option Bool := none
  authFails : List (BitVec 64) := []
  encWait : Bool := false
  /-- The LODE fields last heard (Table 7.5), and whether an IDLE block has been heard since the port came up. -/
  heardSrc : BitVec 23 := 0x7FFFFF
  heardHops : BitVec 8 := 0
  heardValid : Bool := false
  heardCount : BitVec 64 := 0
  heardTick : Bool := false
deriving DecidableEq, Repr

/-- What an outstanding request serves: who asked (by number) and up to three numbers the asker needs. -/
inductive Purpose where
  | mover | gatherLedger | gatherData | gatherRecheck | delivery | credit
  | logRecord | logHeader | secureRead | resyncRead | resyncData | resyncRecheck
  | restoreRead | restoreData | applyRead | applySlots | fetchRead | fetchData | fetchRecheck
  | bridgeData | bridgeProd | bridgeCons | tokx | permute | bgetPush | probe
  | runLine | runState | runInput | copyRead | copyWrite | cplBody | cplValid | cplInit | cplClear
  | evtBody | evtValid | evtClear | strata | mailbox | mailboxReply | evict
deriving DecidableEq, Repr

/-- A request of the package to another node or to a host (R226, R227, R347): its TAG, the context and generation it
carries, what it serves, and whether it has been retired and only holds its TAG. -/
structure Tag where
  tag : Nat
  port : Nat
  ctx : Nat
  gen : BitVec 8
  purpose : Purpose
  /-- OPC of a fabric request. -/
  op : Nat := 0
  a : Nat := 0
  b : Nat := 0
  c : Nat := 0
  addr : BitVec 64 := 0
  reserved : Bool := false
  /-- A request to a host as it was sent (R338). -/
  sent : Option HPacket := none
deriving DecidableEq, Repr

/-- A bulk group open at this destination (R226): keyed by source and BULK_ID, held at an I/O die; its first failing status
and where. -/
structure InGroup where
  src : BitVec 23
  bulk : BitVec 16
  die : Nat
  segs : List Nat
  last : Option Nat
  status : BitVec 4
  failAt : Nat
deriving DecidableEq, Repr

/-- A bulk group this package sends (R226): its packets, kept for a BUSY retry, and what it serves. -/
structure OutGroup where
  bulk : BitVec 16
  pkts : List Packet
  busy : Bool := false
  tag : Tag
deriving DecidableEq, Repr

/-- A BGET this package serves (R226): the request's header, under a number that its own groups carry. -/
structure Push where
  id : Nat
  hdr : BitVec 256
deriving DecidableEq, Repr

/-- A stream bridge (R244): ring, route, byte counts and state. `prodWritten` is the PROD last written to the ring. -/
structure Bridge where
  route : Option Nat := none
  ring : BitVec 64 := 0
  bytes : Nat := 0
  ctx : Nat := 0
  tile : Nat := 0
  prod : Nat := 0
  acked : Nat := 0
  prodWritten : Nat := 0
  consSeen : Nat := 0
  cells : List (BitVec 512) := []
  stopped : Bool := false
  needCons : Bool := false
deriving DecidableEq, Repr

/-- Time-base states (Table 8.2), in the order of LODE_STATUS.STATE. -/
inductive LodeState where
  | freeRun | source | acquire | locked | holdover | conflict
deriving DecidableEq, Repr

/-- The Lodestone time base (chapter 8). Times are in units of 62.5 ps. -/
structure Lode where
  state : LodeState := .freeRun
  count : BitVec 64 := 0
  /-- Phase at the last tick edge or re-base. -/
  phase : BitVec 18 := 0
  /-- TICK in force for the tick in progress (R247). -/
  tick : Nat := 256
  upPort : Option Nat := none
  hops : Nat := 0
  src : BitVec 23 := 0x7FFFFF
  theta : Int := 0
  /-- Ticks since a valid tick-marking block was heard on any ACTIVE port (R249), and on the parent port (R251). -/
  silent : Nat := 0
  parentSilent : Nat := 0
  mismatches : Nat := 0
  /-- Ticks of LODE_VALID 0 still owed after a parent was lost (R251). -/
  invalid : Nat := 0
  /-- The last 8 exchanges (round trip, offset), exchanges since ACQUIRE, good exchanges in a row (R253, R254). -/
  window : List (Int × Int) := []
  exchanges : Nat := 0
  good : Nat := 0
  rebase : Option (BitVec 64 × BitVec 18) := none
  rebased : Bool := false
  rebaseAny : Bool := false
  lockedTicks : Nat := 0
deriving DecidableEq, Repr

/-- Cairn slot states (R257). -/
inductive CairnState where
  | idle | armed | taken | cancelled
deriving DecidableEq, Repr

/-- A cairn slot (Table 8.7). RESULT holds the codes of Table 8.5; `late` marks a past LATE slot to be taken at the next
edge; a pending barrier keeps the tags of the writes it recorded and the count of its check (R264). -/
structure Cairn where
  lt : BitVec 64 := 0
  arg : BitVec 32 := 0
  action : BitVec 8 := 0
  policy : Bool := false
  evt : Bool := false
  state : CairnState := .idle
  result : BitVec 4 := 0
  late : Bool := false
  barrierAt : Option (BitVec 64) := none
  barrierTags : List Nat := []
deriving DecidableEq, Repr

/-- Pequa port states (Table 11.4), in the order of DEV_HP_STATUS.STATE. -/
inductive HostState where
  | down | phyTrain | param | credit | active | retrain | disabled | failed
deriving DecidableEq, Repr

/-- One Pequa port (chapter 11). Classes: 0 REQ, 1 SNP, 2 RSP. -/
structure HostPort where
  state : HostState := .down
  /-- DEV_HP_STATUS.WIDTH and RATE codes. -/
  width : BitVec 2 := 0
  rate : BitVec 2 := 0
  /-- COH_REQ of the host's PARAM (R335). -/
  cohReq : Bool := false
  cohFenced : Bool := false
  hostId : BitVec 64 := 0
  /-- The HOST_ID last recorded for DEV_ADMIN (R418). -/
  lastHostId : BitVec 64 := 0
  /-- Outstanding requests the host accepts (TAGS of its PARAM). -/
  tags : Nat := 0
  txSeq : BitVec 12 := 0
  unacked : List (BitVec 1936) := []
  toReplay : Nat := 0
  rxSeq : BitVec 12 := 0xFFF
  nakDue : Bool := false
  nakSent : Bool := false
  ackDue : Bool := false
  nakSeq : BitVec 12 := 0
  nakCount : Nat := 0
  ctrlQueue : List (List Byte) := []
  /-- Packets waiting to be sent, oldest first, and the units of the one being sent. -/
  tx : List HPacket := []
  txUnits : List (BitVec 128) := []
  rxUnits : List (BitVec 128) := []
  rx : List HPacket := []
  credits : Map Nat := []
  owed : Map Nat := []
  /-- Package requests that wait for a free TAG (R332, R347). -/
  waiting : List (HPacket × Tag) := []
deriving DecidableEq, Repr

end Sys2Proof.Machine
end

