-- ==== Sys2Proof/Config.lean ====
section
/-! DEFINITION. What one package fixes and the spec leaves to it, and the free values: constants with no body, so that a
claim holds whatever they are. -/

namespace Sys2Proof.Config

/-- The fuses and substrate ties of this package (Tables 1.7, 1.8 and 15.1, R10, R462). -/
opaque fuses : Sys2Proof.Machine.Fuses

/-- The bank of an HBM pseudo-channel that holds a 1 KiB row (R173: consecutive rows move on to the next bank; the count of
banks is not given). -/
opaque hbmBank : Nat → Nat

/-- Time since the tick edge when a command runs, in units of 62.5 ps: no command carries it (log entry 31). -/
opaque phase : Nat → Nat

/-- The known internal asymmetry of a port's paths, in units of 62.5 ps, and the rounding of a half unit (R253). -/
opaque lodeAsymmetry : Nat → Int
opaque lodeRoundUp : Int → Bool

/-- Whether the tick-marking blocks of the parent arrive at intervals that differ from the own tick by more than 1 % (R247). -/
opaque tickDiffers : Nat → Bool

/-- CLOSE_LT and EXCL_NONFIN of a bucket as its root fixed them, at a member that is not the root (R287). -/
opaque collClose : Nat → Nat
opaque collExcluded : Nat → Nat

/-- How many codewords beyond 256 ahead a lane change is set (Table 7.8, step 2). -/
opaque laneLead : Nat

/-- The directory set of a 64-byte line at its home (R334: 16-way sets; the index is not given). -/
opaque dirSet : Nat → Nat

/-- Flit CRC and FEC bytes of a Pequa flit, as PCIe 6.0 defines them (R327). -/
opaque pcieCheck : BitVec 1936 → BitVec 112

/-- TAGS of the package's PARAM, less 1 (Table 11.3), and the units it offers by class (R332). -/
opaque hostTags : Nat
opaque hostUnits : Nat → Nat

/-- HashML-DSA-87 verification as FIPS 204 defines it, with SHA-512 and an empty context: public key, digest, signature (R138). -/
opaque mldsaVerify : List Byte → List Byte → List Byte → Bool

/-- How dies, links and stacks come up in a recovery that a register write starts (Table 12.12): it carries no outcome. -/
opaque bringUp : Nat → BringUpOutcome

/-- Rows of a core sample written when its copy is cut off (R371), by the number of a free value. -/
opaque rowsCopied : Nat → Nat

/-- SHA-512 of the Obsidian ROM (Table 15.5, index 1), and what a measurement of firmware or a stratum that is not there holds. -/
opaque romDigest : BitVec 512
opaque noMeasurement : BitVec 512

/-- The public keys that FIPS 204 and FIPS 186-5 derive from a seed (R438), and the subject public key of a chain's leaf (R439). -/
opaque mldsaKeyGen : List Byte → List Byte
opaque rsaKeyGen : List Byte → List Byte
opaque leafKey : List Byte → List Byte

/-- What Obsidian draws at random, its signatures and the values of an SPDM key exchange, by the number of a free value. -/
opaque random : Nat → BitVec 256
opaque rsaSignature : Nat → BitVec 4096
opaque mldsaSignature : Nat → List Byte → BitVec 37016
opaque exchangeData : Nat → BitVec 768
opaque verifyData : Nat → BitVec 512
opaque sessionId : Nat → BitVec 16
opaque finishHolds : Nat → List Byte → Bool

/-- Secured SPDM records: the message in one that was received, and the record of one that is sent. -/
opaque unsealed : List Byte → List Byte
opaque sealed : Nat → List Byte → List Byte

/-- The error code of a request that a host answers with a STATUS for which Table 12.1 has no code. -/
opaque hostError : Nat → BitVec 16

end Sys2Proof.Config
end

