-- ==== Sys2Proof/Machine/StateArray.lean ====
section
/-! DEFINITION. The state of one tile: its array (R42 to R60), keeper (R72), output stage (R66, R99), configuration planes
(R161), vector engine (R105 to R128), semaphores, mover (R190) and scratchpad condition (R186 to R188).
Registers that software reads or writes as words lie in the register file (State.regs), not here. -/

namespace Sys2Proof.Machine

/-- One of the two B banks (R44, R46, R51): the LOAD_B descriptor it was loaded with and the bytes it holds. -/
structure Bank where
  valid : Bool := false
  desc : BitVec 128 := 0
  codes : List Byte := []
  scales : List Byte := []
  /-- Loads completed into this bank, so that a replay can tell whether it was overwritten (R58). -/
  loads : Nat := 0
deriving DecidableEq, Repr

/-- The LOAD_B the sequencer holds (R478) and how many of the passes held were issued before it (R46). -/
structure Loader where
  desc : BitVec 128
  before : Nat
deriving DecidableEq, Repr

/-- An OUTPUT descriptor in force (R478) and how many sets it has governed so far. -/
structure Output where
  desc : BitVec 128
  /-- Scratchpad address of the descriptor. -/
  addr : Nat
  governed : Nat := 0
deriving DecidableEq, Repr

/-- A pass the sequencer holds (R478): its descriptor, the next block to broadcast, and the OUTPUT (by issue number)
that was last issued before it. -/
structure Pass where
  desc : BitVec 128
  next : Nat := 0
  output : Nat := 0
deriving DecidableEq, Repr

/-- What one DPU computed for one block (R52 to R56): `sum` in units of `2^lsb` on the float path, the exact sum on the
integer path; `zero` when no product is nonzero. -/
structure DpuResult where
  zero : Bool := true
  nan : Bool := false
  posInf : Bool := false
  negInf : Bool := false
  sum : Int := 0
  lsb : Int := 0
  sticky : Bool := false
deriving DecidableEq, Repr

/-- A block in the array pipeline (Table 2.2), with its tag (R45) and the results of its 32 x ARRAY_WIDTH DPUs, row by row. -/
structure Block where
  desc : BitVec 128
  index : Nat
  output : Nat
  loadDesc : BitVec 128
  bankLoads : Nat
  replayed : Bool := false
  results : List DpuResult
deriving DecidableEq, Repr

inductive DrainState where
  | none | pending | draining
deriving DecidableEq, Repr

/-- One accumulator set across the array (R48 to R50, R53, R56, R59, R100): elements at key `32 * row + column`. -/
structure AccSet where
  values : Map (BitVec 32) := []
  /-- The value type it holds: none, some false (float) or some true (integer). -/
  vtype : Option Bool := none
  sticky : Map Bool := []
  saturated : Map Bool := []
  drain : DrainState := .none
  /-- The OUTPUT (issue number) that governs the drain and the set's number n under it (R478). -/
  output : Nat := 0
  order : Nat := 0
  marked : Bool := false
  /-- A formats and signednesses of the blocks written since the last ZERO block (R100). -/
  aFormats : List (BitVec 4 × Bool) := []
deriving DecidableEq, Repr

/-- Keeper states (Table 2.6). -/
inductive KeeperState where
  | run | fill | decay | idle | ramp
deriving DecidableEq, Repr

/-- The current keeper (R72): level L, dummies D, the FILL accumulator, the gap, the interval clock and the broadcasts of
the interval, the broadcasts of the last 64 tclk (bit 0 newest) and the TILE_KEEPER value in force (R73). -/
structure Keeper where
  state : KeeperState := .idle
  level : Nat := 0
  dummies : Nat := 0
  acc : Nat := 0
  gap : Nat := 0
  clock : Nat := 0
  issued : Nat := 0
  history : BitVec 64 := 0
  config : BitVec 32 := 0x81000801
deriving DecidableEq, Repr

/-- TILE_ARRAY_STATUS.STATE (Table 2.9). -/
inductive TileState where
  | idle | running | halted | retired
deriving DecidableEq, Repr

/-- A mover entry in flight (R191): its ring number, the entry, the fabric requests it still waits for, whether all its
local work is done, and the error it ended with (0: none). -/
structure MoveEntry where
  number : BitVec 32
  entry : BitVec 512
  tags : List Nat := []
  done : Bool := false
  error : BitVec 16 := 0
  detail : Nat := 0
deriving DecidableEq, Repr

/-- One tile. -/
structure Tile where
  state : TileState := .idle
  /-- Columns out of service (TILE_COL_MAP.BYPASS, R67). -/
  bypass : BitVec 32 := 0
  /-- A column narrowing has happened and no plane of the new width is active (R69, R164). -/
  narrowed : Bool := false
  /-- Columns taken out by TILE_COL_FORCE (R71, R359). -/
  forced : BitVec 32 := 0
  bank0 : Bank := {}
  bank1 : Bank := {}
  loader : Option Loader := none
  passes : List Pass := []
  pipe : List Block := []
  /-- The 16 accumulator sets; an unlisted set is empty. -/
  sets : Map AccSet := []
  /-- OUTPUT descriptors issued since the last tile reset, by issue number from 1 (R478). -/
  outputs : Map Output := []
  outputCount : Nat := 0
  /-- The channel-slot block in force (R99); none is the identity values. -/
  channel : Option (BitVec 4352) := none
  chPending : Option (BitVec 128) := none
  keeper : Keeper := {}
  /-- The active plane record (Table 5.7), none before the first plane is loaded, and the shadow plane. -/
  plane : Option (BitVec 512) := none
  shadow : Option (BitVec 512) := none
  /-- Progress of the two sequencers through their lists (R141). -/
  descIdx : Nat := 0
  descPass : Nat := 0
  vecIdx : Nat := 0
  vecPass : Nat := 0
  vecWaiting : Bool := false
  /-- The current work ended with an error: nothing issues until the plane is loaded again (R477). -/
  stopped : Bool := false
  /-- Vector registers V0 to V31, 2 KiB each (R105). -/
  vregs : Map (BitVec 16384) := []
  /-- The row accumulator's stack, top first, and its kind: none, some false (sum), some true (maximum) (R109). -/
  rowStack : List (Nat × BitVec 32) := []
  rowKind : Option Bool := none
  layout : BitVec 128 := 0
  key : BitVec 128 := 0
  /-- TILE_VEC_MB.MB_ID. -/
  mbId : BitVec 16 := 0
  /-- The 16 tile semaphores and the unit that last set each (Table 12.6). -/
  sems : BitVec 16 := 0
  semSetter : Map Nat := []
  /-- SEED and STEP an update item gives the generator in place of the context's (R384). -/
  updKey : Option (BitVec 64 × BitVec 32) := none
  /-- The mover: next entry to start, entries in flight, and whether it stopped on an error (R190, R191). -/
  moveNext : BitVec 32 := 0
  /-- PROD as the mover last read it from the ring header. -/
  moveProd : BitVec 32 := 0
  moves : List MoveEntry := []
  moverStopped : Bool := false
  moverAwake : Bool := false
  /-- Scratchpad words (8-byte word numbers) that hold an uncorrectable error (R186). -/
  badWords : List Nat := []
  /-- Rows remapped to a spare in service: bank * 8192 + row (R187), and spares fused in use, by bank. -/
  remaps : List Nat := []
  sparesFused : Map Nat := []
  clearing : Bool := false
  /-- The unit that last ran GADV on an order word, by the word's scratchpad address (R364). -/
  gadvUnit : Map Nat := []
deriving DecidableEq, Repr

/-- A tile at cold start, before its map is built. -/
def Tile.reset : Tile := {}

end Sys2Proof.Machine
end

