-- ==== Sys2Proof/Machine/StateWork.lean ====
section
/-! DEFINITION. The state of contexts and their work: collective openings (chapter 9), pipelines (chapter 10), runs, rings and
watched lines (chapter 11), protection commands (chapter 13). What these chapters keep in memory (rings, records,
ledgers, tables, logs) stays in memory. -/

namespace Sys2Proof.Machine

/-- An applied collective group (Table 5.11): members in rank order. -/
structure Group where
  id : Nat
  ctx : Nat
  ver : BitVec 32
  selfRank : Nat
  members : List (BitVec 23)
deriving DecidableEq, Repr

/-- A REPORT held by a root (R272, R273). -/
structure Report where
  rank : Nat
  expcode : Nat
  nonfin : Bool
deriving DecidableEq, Repr

/-- A CLOSE as fixed by the root or received (R273, R274): EXPCODE of E_b, close status, P, the root's count. -/
structure Close where
  expcode : Nat
  status : Nat
  pop : Nat
  lt : BitVec 64
deriving DecidableEq, Repr

/-- A SHARD_DONE received (R282, R283). -/
structure ShardDone where
  rank : Nat
  status : Nat
  ssqC : Nat
  ssqR : Nat
  nonfinite : Nat
  resInf : Nat
deriving DecidableEq, Repr

/-- A COUNT received for a use of a token exchange (R291): 64 slot counts, the sender's RET, its placement CRC. -/
structure CountIn where
  use : Nat
  rank : Nat
  counts : List Nat
  ret : BitVec 64
  crc : BitVec 32
deriving DecidableEq, Repr

/-- A control packet to be sent again (R289): the count of the next copy and the copies left. -/
structure Repeat where
  pkt : Packet
  at_ : BitVec 64
  left : Nat
deriving DecidableEq, Repr

/-- An open collective descriptor (R270): BUCKET, TOKX or PERMUTE. One that has ended is kept while it holds words (R280), and
a token exchange until its descriptor opens again (R293). -/
structure Opening where
  ctx : Nat
  id : Nat
  /-- KIND of the descriptor: 1 BUCKET, 2 TOKX, 3 PERMUTE. -/
  kind : Nat
  desc : BitVec 1024
  seq : BitVec 16
  groupVer : BitVec 32
  selfRank : Nat
  members : List (BitVec 23)
  /-- EVT of the cairn slot that opened it. -/
  evt : Bool := false
  ended : Bool := false
  /-- The record has been written (CLOSE_MISSING comes before the end, R274). -/
  recorded : Bool := false
  /-- Bucket: the ready array is complete; the report is sent; the deadline is past. -/
  ready : Bool := false
  reported : Bool := false
  deadline : Bool := false
  /-- Root: reports in time, and the ranks whose reports came late. -/
  reports : List Report := []
  late : List Nat := []
  exclNonfin : Nat := 0
  /-- CLOSE segments received, by INDEX; the close once all are held, and when; the root's own close. -/
  segs : Map (List Byte) := []
  rootClosed : Bool := false
  close : Option Close := none
  mask : List Byte := []
  closeLt : BitVec 64 := 0
  /-- Owner: words allocated, and how many; the engines that hold a run of them, and whether one of those has been lost; own
  chunks accumulated. -/
  hasWords : Bool := false
  allocated : Nat := 0
  engines : List Nat := []
  engineLost : Bool := false
  ownDone : Bool := false
  /-- Reduction words and sums of squares by element of the bucket; an element that is NaN; receipt bits
  (rank * 2^18 + chunk). -/
  words : Map Int := []
  sqs : Map Nat := []
  nans : List Nat := []
  receipts : List Nat := []
  shardSent : Bool := false
  shardSentLt : BitVec 64 := 0
  /-- Member: RESULT chunks written, SHARD_DONEs held; count of the last DATA and of the last RESULT or SHARD_DONE. -/
  results : List Nat := []
  shards : List ShardDone := []
  lastData : BitVec 64 := 0
  lastResult : BitVec 64 := 0
  /-- Exchange: use number, whether it has begun and when; what has been received for it (DONE as use * 65,536 + rank). -/
  use : Nat := 0
  begun : Bool := false
  useLt : BitVec 64 := 0
  counts : List CountIn := []
  offsetsSent : Bool := false
  offsets : Map (List Nat) := []
  recvBase : Map Nat := []
  /-- Ranks whose rows have been sent; DONE sent; a group was not written. -/
  rowsTo : List Nat := []
  doneSent : Bool := false
  ackFailed : Bool := false
  dones : List Nat := []
  sent : Nat := 0
  dropped : Nat := 0
  /-- Rows placed by the finished uses of a DISPATCH, by use number (R293). -/
  pastUses : Map Nat := []
  /-- Re-shard: round; its OUT bytes by piece, once read; whether they have been written; GO and PDONE held
  (round * 65,536 + rank). -/
  round : Nat := 0
  readDone : Bool := false
  staged : Map (List Byte) := []
  written : Bool := false
  goes : List Nat := []
  pdones : List Nat := []
deriving DecidableEq, Repr

/-- Work items of a stage unit (Table 10.7). -/
inductive ItemKind where
  | forward | backward | recompute | update | mirror | apply
deriving DecidableEq, Repr

/-- A remote shard still to be gathered for an item (Table 10.10), by shard-list index: 1 its L1 is read, 2 the span is fetched,
3 its L2 is read; the tag it must have (none: any of the item's VSTEP), and what step 2 took. -/
structure Gather where
  shard : Nat
  phase : Nat
  want : Option (BitVec 64)
  tag : BitVec 64 := 0
  prev : Bool := false
deriving DecidableEq, Repr

/-- A work item that a unit runs or is being gathered for. `stash` is STASH_KIND, the local offset and the scree blocks;
`tags` and `binds` hold the bound tag and BIND_i by shard-list index; `owners` the stages that hold a reference for it, and
whether on their previous version. -/
structure Item where
  kind : ItemKind
  slot : Nat
  mb : BitVec 16
  step : BitVec 32
  stash : Nat × Nat × Nat
  gathers : List Gather
  tags : Map (BitVec 64)
  binds : Map Nat
  owners : List (Nat × Bool)
  /-- START has been set. -/
  started : Bool
  /-- Positions whose SUM is still to be computed after DONE (R317 step 5, R386). -/
  sums : List Nat
deriving DecidableEq, Repr

/-- An output held in a unit's OUT buffer (R307): 0 forward output to the downstream ring, 1 to the own backward ring,
2 backward output to the upstream ring; the record it carries, its slot number in the target ring, and how far a remote delivery
stands: 1 payload, 2 record, 3 PROD being written. -/
structure Delivery where
  target : Nat
  rec_ : BitVec 256
  phase : Nat := 0
  slot : Nat := 0
deriving DecidableEq, Repr

/-- One virtual stage of a context (chapter 10). Slot numbers are those of the ring header, modulo 2^32. -/
structure Stage where
  curStep : BitVec 32 := 0
  prevStep : BitVec 32 := 0
  curRefs : Nat := 0
  prevRefs : Nat := 0
  /-- Bit of PREV_LIVE: the stage holds a previous version; the count since which PREV_REFS has been 0. -/
  prevLive : Bool := false
  prevIdleLt : BitVec 64 := 0
  retireNow : Bool := false
  /-- UPDATE, MIRROR and APPLY items queued, oldest first. -/
  queue : List (ItemKind × BitVec 32) := []
  fwdItem : Option Item := none
  bwdItem : Option Item := none
  updItem : Option Item := none
  fwdOut : Option Delivery := none
  bwdOut : Option Delivery := none
  /-- Forward-ring and backward-ring PROD last read, and the next forward slot to run. -/
  fwdProd : BitVec 32 := 0
  bwdProd : BitVec 32 := 0
  fwdNext : BitVec 32 := 0
  /-- Forward slots that are done and not yet freed in order (R306). -/
  fwdDone : List Nat := []
  stashUsed : List Nat := []
  screeBlocks : Nat := 0
  /-- MB_ID and STEP last admitted (R304). -/
  lastMb : Option (BitVec 16 × BitVec 32) := none
  orderStep : Option (BitVec 32) := none
  /-- PROD of the downstream forward ring and of the upstream backward ring, as this stage has written them. -/
  dnSent : BitVec 32 := 0
  upSent : BitVec 32 := 0
  /-- Tag last gathered into FDST and BDST, by shard-list index (R318). -/
  gatheredF : Map (BitVec 64) := []
  gatheredB : Map (BitVec 64) := []
deriving DecidableEq, Repr

/-- CTX_PIPE_STATUS.STATE (Table 10.12). -/
inductive PipeState where
  | off | running | stopped | fault
deriving DecidableEq, Repr

/-- The pipeline of a context: its state, the validated stage table (R322) and its stages. -/
structure Pipe where
  state : PipeState := .off
  table : List Byte := []
  stages : Map Stage := []
deriving DecidableEq, Repr

/-- Where an accepted run stands (R341). -/
inductive RunState where
  | waiting | running | ending
deriving DecidableEq, Repr

/-- A run record accepted or refused and not yet completed (R340 to R342). `issued` and `moved` are the bytes of a COPY or of
a RUN input requested and moved so far; `status`, `code`, `unit`, `detail` and `addr` are the completion's, once ending. -/
structure Run where
  seq : BitVec 32
  record : BitVec 512
  state : RunState := .waiting
  startLt : BitVec 64 := 0
  issued : Nat := 0
  moved : Nat := 0
  started : Bool := false
  status : BitVec 8 := 0
  code : BitVec 16 := 0
  unit : BitVec 8 := 0
  detail : BitVec 32 := 0
  addr : BitVec 64 := 0
  endLt : BitVec 64 := 0
  /-- Completion bytes 8 to 63 have been sent; their HCMP has come. -/
  bodySent : Bool := false
  bodyDone : Bool := false
deriving DecidableEq, Repr

/-- CTX_STATE.STATE (Table 11.13). -/
inductive CtxState where
  | free | bound | teardown | quarantine | unavailable
deriving DecidableEq, Repr

/-- An event record (Table 11.10) before its ring gives it ESEQ, VALID and LOST. -/
structure Event where
  code : BitVec 16
  sev : BitVec 8
  lt : BitVec 64
  d0 : BitVec 64
  d1 : BitVec 32
  unit : BitVec 8
  ctx : BitVec 8
deriving DecidableEq, Repr

/-- An event ring (R344, R426): ESEQ of the next record, records withheld since the last one written, the first 8 bytes of
records whose other bytes are being written, and the records whose VALID is 1, by ESEQ. -/
structure EventRing where
  next : BitVec 32 := 0
  withheld : Nat := 0
  heads : Map (BitVec 64) := []
  valid : List Nat := []
deriving DecidableEq, Repr

/-- A watched host line (R335, R339): whether the package holds it, and in S or as modified (neither: E), its contents;
whether HRD_E or HRD for it is outstanding. -/
structure Watched where
  held : Bool := false
  shared : Bool := false
  dirty : Bool := false
  taking : Bool := false
  data : BitVec 512 := 0
deriving DecidableEq, Repr

/-- A slot copy (R387): protection entry, step, and whether the copy has started. -/
structure SlotCopy where
  entry : Nat
  step : BitVec 32
  running : Bool
deriving DecidableEq, Repr

/-- What a commit mark latched for RETAIN (R385). -/
structure Retain where
  step : BitVec 32
  seed : BitVec 64
  hyper : List (BitVec 32)
deriving DecidableEq, Repr

/-- Protection state of a context (Table 13.13). Its table, entries and retained blocks lie in memory. -/
structure Prot where
  fault : Bool := false
  /-- The command that runs: CMD and ARG. -/
  cmd : Option (Nat × BitVec 32) := none
  result : BitVec 8 := 0
  /-- SECURE: the flush has ended. Entries of the command still to do, and those whose counterpart is to be read again. -/
  flushed : Bool := false
  todo : List Nat := []
  reread : List Nat := []
  /-- Counterpart entries as last read; the counterpart of some entry could not be read; the partner's RETAIN (R399). -/
  peers : Map (BitVec 1024) := []
  unreachable : Bool := false
  peerRetain : Option (BitVec 512) := none
  /-- APPLY: counterpart slots by entry, as global addresses. -/
  applyGrad : Map Nat := []
  slotCopies : List SlotCopy := []
  /-- RETAIN writes that wait (R385), oldest first, and steps whose NORM_SQ is not filled. -/
  retain : List Retain := []
  normWait : List (BitVec 32) := []
deriving DecidableEq, Repr

/-- A DROPPED_INPUT record that waits to be appended (R393): its stage, micro-batch and bytes. -/
structure DroppedInput where
  vs : Nat
  mb : BitVec 16
  bytes : List Byte
deriving DecidableEq, Repr

/-- The append under way (R393): bytes of the ring it takes, records appended, staged bytes it ships, whether the header is being
written, a group has failed. -/
structure LogAppend where
  size : Nat
  records : List (Nat × Option (BitVec 32))
  staged : Nat
  dropped : Bool
  header : Bool
  failed : Bool
deriving DecidableEq, Repr

/-- The input log of a context (R391 to R394): the remote header once it has been read, and the records kept in the remote log
(size and STEP; none for PAD), oldest first. -/
structure Log where
  known : Bool := false
  shipped : BitVec 32 := 0
  head : Nat := 0
  tail : Nat := 0
  size : Nat := 0
  nextSeq : Nat := 0
  pending : List DroppedInput := []
  busy : Option LogAppend := none
  kept : List (Nat × Option (BitVec 32)) := []
deriving DecidableEq, Repr

/-- A phase switch (R162, R163). -/
structure Switch where
  target : Nat
  shadowReady : Bool
  /-- Taken at N, and whether N + 2 µs has passed. -/
  taken : Option (BitVec 64)
  late : Bool
deriving DecidableEq, Repr

/-- A context (chapters 5, 9 to 13). -/
structure Ctx where
  state : CtxState := .unavailable
  gen : BitVec 32 := 0
  /-- Its PARTITION entry in the active image (Table 5.10): tiles, ports that may bind it, first phase. -/
  tileMask : BitVec 64 := 0
  hostMask : BitVec 4 := 0
  initPhase : Nat := 0
  /-- Bound port and its HOST_ID (R337). -/
  port : Nat := 0
  hostId : BitVec 64 := 0
  tdCause : Nat := 0
  phase : Nat := 0
  switch : Option Switch := none
  /-- Tiles still awaited at phase end by an activation that changes the context (R155). -/
  changing : Bool := false
  /-- Runs not completed, in SEQ order, and the next SEQ (CTX_RUN_NEXT). -/
  runs : List Run := []
  runNext : BitVec 32 := 0
  lines : Map Watched := []
  cplValid : List Nat := []
  evt : EventRing := {}
  /-- Share baselines by (tile, counter) and marks since the last record (R131 to R133). -/
  shareBase : Map Nat := []
  shareCarry : Map Nat := []
  shareSpan : Nat := 0
  collClosed : BitVec 64 := 0
  collDone : BitVec 64 := 0
  /-- Close status by STEP_BIT for buckets not closed COMPLETE (R285). -/
  collFail : Map Nat := []
  pipe : Pipe := {}
  prot : Prot := {}
  log : Log := {}
  /-- An open HEALTH_WINDOW: its end, the peak score and the lasting faults so far (R362). -/
  window : Option (BitVec 64 × Nat × Nat) := none
deriving DecidableEq, Repr

/-- A context not valid in the active image (R336). -/
def Ctx.reset : Ctx := {}

/-- A directory entry of a coherent line (R334): exclusive or shared, the ports that hold it, its age. -/
structure DirEntry where
  exclusive : Bool
  sharers : BitVec 4
  age : Nat
deriving DecidableEq, Repr

/-- An access that waits for snoop responses (R334): a host's request on a port, or a fabric request. -/
inductive HeldAccess where
  | host (port : Nat) (pkt : HPacket)
  | fabric (pkt : Packet)
deriving DecidableEq, Repr

/-- A held access and the (port, line) pairs it waits for. -/
structure Waiting where
  access : HeldAccess
  lines : List (Nat × Nat)
deriving DecidableEq, Repr

/-- A DSNP_S or DSNP_I a host has not answered (R335). -/
structure Snoop where
  port : Nat
  tag : Nat
  line : Nat
  inval : Bool
deriving DecidableEq, Repr

end Sys2Proof.Machine
end

