-- ==== Sys2Proof/Machine/StateSystem.lean ====
section
/-! DEFINITION. The state of the package-wide services: requesters (chapter 14), strata (chapter 5), fault handling (chapter 12),
Obsidian (chapter 15) and power (chapter 16). -/

namespace Sys2Proof.Machine

/-- What each requester keeps for itself (R415): the pending half of a guarded pair (key of A and value, R411), the
latched upper words (R410) and the IND_ADDR of every window (key 64: the requester block). `failed` is the key A of a pair whose guard has failed and
been counted while its second write is still to come. A latch of a word at key k read through IND pair w is at k + 2^32 * (w + 1). -/
structure ReqState where
  pending : Option (Nat × BitVec 32) := none
  failed : Option Nat := none
  latches : Map (BitVec 32) := []
  indAddr : Map (BitVec 32) := []
  guardFaults : BitVec 48 := 0
  rsvFaults : BitVec 48 := 0
deriving DecidableEq, Repr

/-- STRATA_STATUS.IN_STATE (Table 5.20). -/
inductive InState where
  | empty | fetching | validating | valid | failed
deriving DecidableEq, Repr

/-- An activation or revert whose count has come (Table 5.16, steps 2 to 4): whether it reverts, its count and the contexts it
changes. -/
structure Activation where
  revert : Bool
  lt : BitVec 64
  changed : List Nat
deriving DecidableEq, Repr

/-- The strata service (chapter 5). Areas are numbered by quarter (Table 6.3). -/
structure Strata where
  cur : Nat := 0
  prev : Nat := 1
  inc : Nat := 2
  curValid : Bool := false
  prevValid : Bool := false
  inState : InState := .empty
  valResult : BitVec 8 := 0
  /-- The fetch under way: requester, SOURCE, bytes asked for. -/
  fetch : Option (Requester × Bool × Nat) := none
  /-- Bytes of a host source fetched so far. -/
  fetched : Nat := 0
  /-- Armed action (Table 5.20), its cairn slot of context 0 and the requester that armed it. -/
  armed : Nat := 0
  armedSlot : Nat := 0
  activating : Option Activation := none
  reverted : Bool := false
  /-- An activation has swapped images since cold start: the start-up window of R71 is over. -/
  activated : Bool := false
  genCur : BitVec 32 := 0
  genPrev : BitVec 32 := 0
  genIn : BitVec 32 := 0
  groupGen : BitVec 32 := 0
  /-- The applied groups, as the GROUP area keeps them (R160). -/
  groups : List Group := []
  /-- Running firmware by FW_KIND (R150): SHA-512 of its code, and its SVN. -/
  firmware : Map (BitVec 512 × BitVec 16) := []
  /-- Kinds whose section in CURRENT is still to be loaded (Table 5.13). -/
  toLoad : List Nat := []
  /-- GRANULE of the map in force (Table 5.9); 4 KiB before the first activation (R174). -/
  granule : BitVec 3 := 4
deriving DecidableEq, Repr

/-- A leaky bucket (R353): level, the count from which the next leak is counted, the order in which it was taken. -/
structure Bucket where
  level : Nat := 0
  clock : BitVec 64 := 0
  age : Nat := 0
deriving DecidableEq, Repr

/-- Core-sample slot of a tile (R369 to R372): 0 NONE, 1 COMPLETE, 2 PARTIAL, 3 SKIPPED; copying now, from its first row. -/
structure Sample where
  state : BitVec 2 := 0
  copying : Bool := false
  rows : Nat := 0
  ue : Nat := 0
  lt : BitVec 64 := 0
deriving DecidableEq, Repr

/-- A reset under way (R373): its scope as RAS_RESET_CTRL.CMD, the contexts it covers, its t0, whether it stands at the core
sample or at the scratchpad clear. A full recovery keeps its bring-up outcome for step 4. -/
structure ResetRun where
  scope : BitVec 2
  ctxs : List Nat
  t0 : BitVec 64
  sampling : Bool
  outcome : Option BringUpOutcome
deriving DecidableEq, Repr

/-- What the monitor knows of a unit (R363 to R368): its latest sample (a target word), how many samples in a row it has stood,
what tells the wait from an earlier one on the same target, and whether its STALL has been given and its first probe sent. -/
structure UnitWait where
  word : BitVec 64 := 0
  same : Nat := 0
  ident : Nat := 0
  stalled : Bool := false
  probed : Bool := false
deriving DecidableEq, Repr

/-- Fault handling (chapter 12). Buckets are keyed `class * 2^32 + unit` with the units of Table 12.3. -/
structure Ras where
  buckets : Map Bucket := []
  nextAge : Nat := 0
  /-- Counts of the lasting faults and of the link events of the last 4,194,304 lt (R360), newest first. -/
  lasting : List (BitVec 64) := []
  linkEvents : List (BitVec 64) := []
  score : Nat := 0
  armed : Bool := true
  critical : Bool := false
  waits : Map UnitWait := []
  /-- Lowest unit of a local cycle held, and the initiator of a cross-package cycle held (RAS_HANG_STATUS). -/
  localCycle : Option Nat := none
  remoteCycle : Option Nat := none
  probeId : BitVec 16 := 0
  samples : Map Sample := []
  resets : List ResetRun := []
  lastUs : BitVec 22 := 0
  /-- RAS_DEGRADED when DEGRADED was last written (R377). -/
  degraded : BitVec 32 := 0
  /-- Lasting actions that wait for a reset to end (R356): class and unit. -/
  deferred : List (Nat × Nat) := []
  /-- A secure-now request that waits for a reset to end (Table 12.14). -/
  secureDue : Bool := false
deriving DecidableEq, Repr

/-- SEC_STATUS.STATE (Table 15.8). -/
inductive SecState where
  | selfTest | waitBundle | verifying | running | failed
deriving DecidableEq, Repr

/-- A SEC mailbox request (R445): its length, the bytes read so far, the response and how much of it has been written, whether it is being
written, whether ABANDON has come meanwhile. -/
structure Mailbox where
  want : Nat := 0
  request : List Byte := []
  response : List Byte := []
  sent : Nat := 0
  writing : Bool := false
  abandoned : Bool := false
deriving DecidableEq, Repr

/-- An SPDM session (R442): its number of Table 15.4's eight, its channel (mailbox 0 to 4, or 5 for I3C), the SessionID,
whether FINISH has completed it. -/
structure Session where
  number : Nat
  channel : Nat
  id : BitVec 32
  ready : Bool
  /-- Opened through a SEC mailbox by context 0 or by an ADMIN port (R447). -/
  mayKey : Bool
deriving DecidableEq, Repr

/-- What a channel's SPDM connection has agreed (R442): VERSION, CAPABILITIES and ALGORITHMS exchanged, and the version in use. -/
structure Spdm where
  version : Bool := false
  inUse : Nat := 0
  capabilities : Bool := false
  algorithms : Bool := false
deriving DecidableEq, Repr

/-- Obsidian (chapter 15). Key slots 0 to 3 are RSA and 4 to 7 ML-DSA, as the REVOKE fuse lays them out. -/
structure Sec where
  state : SecState := .selfTest
  rsaReady : Bool := false
  mldsaReady : Bool := false
  testLock : Bool := true
  unlockPending : Bool := false
  bundleResult : BitVec 8 := 0
  /-- Accepted public keys by slot: the bytes that are hashed (R432). -/
  keys : Map (List Byte) := []
  /-- The bundle under verification. -/
  bundle : List Byte := []
  /-- Measurement 2 (Table 15.5). -/
  bundleDigest : BitVec 512 := 0
  /-- The certificate chains that SET_CERTIFICATE stored, by key (R439). -/
  certs : Map (List Byte) := []
  sessions : List Session := []
  spdm : Map Spdm := []
  mailboxes : Map Mailbox := []
  nonce : Option (BitVec 256) := none
  /-- The test lock was released before this cold start, so L of R438 is 0x00 (R451). -/
  wasUnlocked : Bool := false
  /-- TAP instruction of each die (R449). -/
  tap : Map (BitVec 8) := []
deriving DecidableEq, Repr

/-- PWR_STATUS.STATE (Table 16.6, R470). -/
inductive PowerState where
  | run | quiesce | forward | tripped
deriving DecidableEq, Repr

/-- Clock and voltage of a compute die (R463): the level TCLK runs at, VCORE in mV, limit-loop and thermal levels. -/
structure DiePower where
  level : Nat := 7
  mv : BitVec 10 := 0
  limit : Nat := 8
  thermal : Nat := 8
deriving DecidableEq, Repr

/-- Power and thermal state (chapter 16). `phase` is PWR_STATUS.START_PHASE. -/
structure Pwr where
  state : PowerState := .run
  phase : Nat := 0
  dies : Map DiePower := []
  capLow : Bool := false
  /-- Limit-loop levels in force when PWR_CAP_N went low (R465). -/
  savedLimit : List Nat := []
  /-- Runs of the limit loop in a row below 98 % of LIMIT (R464). -/
  lowRuns : Nat := 0
  watts : BitVec 12 := 0
  temps : Option Temps := none
  goHeld : Bool := false
  /-- The count at which START_PHASE became LINKS (Table 16.8, step 8). -/
  linksAt : BitVec 64 := 0
deriving DecidableEq, Repr

/-- Training state of an HBM stack (Table 6.2, MEM_STACK_STATUS.STATE) and its soft repairs, as rows (Table 12.3 unit). -/
structure Stack where
  state : BitVec 2 := 0
  rate : Bool := false
  soft : List Nat := []
  /-- Rows whose fault is lasting and which wait for soft repair (R195). -/
  due : List Nat := []
deriving DecidableEq, Repr

/-- What a command sent or showed outside the package, oldest first (the command's outputs). -/
inductive Out where
  | d2dCell (link module : Nat) (fromHigh : Bool) (cell : BitVec 640)
  | d2dDelivered (link module : Nat) (atHigh : Bool) (cell : BitVec 640)
  | stream (tile port route : Nat) (bytes : List Byte)
  | meshLost (link module : Nat) (cell : BitVec 640)
  | codeword (port : Nat) (data : BitVec 5140)
  | flit (port : Nat) (bits : BitVec 2048)
  | readData (data : List Byte)
  | error (code addr : Nat)
  | regRead (r : Requester) (v : BitVec 64) (status : BitVec 8)
  | regDone (r : Requester) (status : BitVec 8)
  | spdm (channel : Nat) (bytes : List Byte)
  | nonce (v : BitVec 256)
  | event (ctx : Option Nat) (e : Event)
  | tdr (die : Nat) (instruction : BitVec 8)
  | idcode (die : Nat) (v : BitVec 32)
  | avs (die : Nat) (mv : BitVec 10)
deriving DecidableEq, Repr

end Sys2Proof.Machine
end

