-- ==== Sys2Proof/Machine/State.lean ====
section
/-! DEFINITION. The state of the package. `Dev` is everything but memory and the queue: registers, links, tiles, contexts and
services. `mem` is memory; `pending` is the queue of commands.

A command's own writes to memory are collected in `Dev.stores`, newest first, read back through it, and put into `mem` by
`State.commit` (Ops.lean) when the command ends. -/

namespace Sys2Proof.Machine

/-- Memory: the HBM and scratchpad bytes at their device-local offset (Table 6.1), and the 8 MiB management SRAM of R435
from 0x0300_0000_0000, an address of the model. An unlisted byte reads 0 (log entry 2). -/
abbrev Mem := Map Byte

structure Dev where
  /-- Words of RW, RWG and RSV bits and of RO and LIVE fields that no typed state holds, by register key (RegMap.lean); an
  unlisted word holds its reset value. -/
  regs : Map (BitVec 32) := []
  /-- CNT counters by register key (R410); an unlisted counter is 0. -/
  counters : Map (BitVec 48) := []
  /-- Requester copies (R415): host ports 0 to 3, and 4 for the management controller. -/
  reqs : Map ReqState := []
  -- dies and die-to-die links (chapter 1)
  fuses : Fuses
  bringUp : BringUp := .off
  /-- The outcome of bring-up that is still to be used by later start-up steps. -/
  outcome : Option BringUpOutcome := none
  role : RoleState := .reset
  iaPresent : Bool := false
  ibPresent : Bool := false
  fenced : Bool := false
  fenceCause : Nat := 0
  /-- ID_MODE_NOW, and ID_MODE_NEXT once something has set it (Table 1.5). -/
  idModeNow : Bool := false
  idModeNext : Option Bool := none
  negGen : BitVec 8 := 0
  iodGen : BitVec 8 := 0
  cmpGen : BitVec 8 := 0
  negCaps : BitVec 32 := 0
  dies : Map Die := []
  /-- Modules keyed `16 * link + module`. -/
  modules : Map D2dModule := []
  /-- DEV_D2D_STATUS.CTL_MODULE by link. -/
  ctlModule : Map Nat := []
  stopped : List StoppedStream := []
  /-- Link an alternate route has taken the place of (TRIGGER), by ROUTE_ID, until the next swap (R145). -/
  onAlternate : Map Nat := []
  -- tiles and memory (chapters 2 to 6)
  tiles : Map Tile := []
  hbm : Map Stack := []
  /-- Page-table entries that differ from their cold-start value (Table 6.4), by 2 MiB page. -/
  pages : Map (BitVec 16) := []
  /-- HBM bursts (offset div 32) that hold an uncorrectable error (R194). -/
  badBursts : List Nat := []
  /-- Images, their areas and firmware (chapter 5). -/
  strata : Strata := {}
  -- fabric, time, collectives (chapters 7 to 9)
  ports : Map FabPort := []
  nextTag : Nat := 0
  nextBulk : Nat := 0
  tags : List Tag := []
  /-- Packets of this package that its router has accepted and not yet routed, in order (R239), and packets delivered to this
  node and not yet performed (R220). -/
  localOut : List Packet := []
  inbox : List Packet := []
  inGroups : List InGroup := []
  outGroups : List OutGroup := []
  pushes : List Push := []
  bridges : Map Bridge := []
  lode : Lode := {}
  /-- Cairn slots keyed `64 * context + slot`. -/
  cairns : Map Cairn := []
  openings : List Opening := []
  repeats : List Repeat := []
  -- hosts and contexts (chapters 10, 11, 13)
  hosts : Map HostPort := []
  /-- DEV_ADMIN.PORTS. -/
  admin : BitVec 4 := 0
  ctxs : Map Ctx := []
  pkgEvents : EventRing := {}
  /-- The directory of coherent lines, by local offset div 64 (R334). -/
  directory : Map DirEntry := []
  waiting : List Waiting := []
  snoops : List Snoop := []
  -- services (chapters 12, 15, 16)
  ras : Ras := {}
  sec : Sec := {}
  pwr : Pwr := {}
  /-- The model's own: free values taken so far (log entry 3). -/
  free : Nat := 0
  /-- The model's own: memory writes of the command that runs, newest first; empty between commands. -/
  stores : List (Nat × Byte) := []
  /-- The model's own: ranges (address, length) that the command that runs has zeroed before its stores; empty between commands. -/
  wipes : List (Nat × Nat) := []
  /-- The model's own: what the last command sent or showed outside the package. -/
  out : List Out := []
deriving DecidableEq, Repr

structure State where
  mem : Mem
  dev : Dev
  pending : List Instr
deriving DecidableEq, Repr

/-- The spec gives the package no condition in which it stops taking commands; no meaning faults. -/
inductive Fault where
deriving DecidableEq, Repr

inductive Refusal where
  /-- Raised by no meaning: an arm of `exec` that has none. Safe. -/
  | notModelled (mnemonic : String)
  /-- Raised by a register write that changes reserved bits while the test lock is released: R409 says that they are live
  test controls and that the manual does not describe their effect. Safe: the model stops. -/
  | testControl
deriving DecidableEq, Repr

/-- The package before the release of PKG_RESET_N (R471, R412): every field at its cold-start value, its fuses as made. -/
def State.reset : State :=
  { mem := [], dev := { fuses := Sys2Proof.Config.fuses }, pending := [] }

end Sys2Proof.Machine
end

