-- ==== Sys2Proof/Machine/Map.lean ====
section
/-! DEFINITION. Sparse tables: lists of (key, value) pairs with strictly rising keys. -/

namespace Sys2Proof.Machine

/-- The value listed at `k`, if any. -/
def mfind {α : Type} : Map α → Nat → Option α
  | [], _ => none
  | (k', v) :: r, k => if k' = k then some v else mfind r k

/-- The value at `k`, `e` when none is listed. -/
def mget {α : Type} (e : α) (m : Map α) (k : Nat) : α := (mfind m k).getD e

/-- `m` with `v` at `k`, in its place by key. -/
def mset {α : Type} : Map α → Nat → α → Map α
  | [], k, v => [(k, v)]
  | (k', v') :: r, k, v =>
    if k < k' then (k, v) :: (k', v') :: r
    else if k = k' then (k, v) :: r
    else (k', v') :: mset r k v

/-- `m` without an entry at `k`. -/
def mdel {α : Type} : Map α → Nat → Map α
  | [], _ => []
  | (k', v') :: r, k => if k = k' then mdel r k else (k', v') :: mdel r k

/-- Change the value at `k`, `e` when none is listed. -/
def mupd {α : Type} (e : α) (m : Map α) (k : Nat) (f : α → α) : Map α := mset m k (f (mget e m k))

/-- Memory keeps its form (Memory.wf): writing the value an unlisted byte reads as removes the entry. -/
def mput (m : Mem) (a : Nat) (b : Byte) : Mem := if b = 0 then mdel m a else mset m a b

/-- Strictly rising keys, all above `lo`. -/
def Memory.sortedFrom : Nat → Mem → Bool
  | _, [] => true
  | lo, (k, _) :: r => decide (lo ≤ k) && Memory.sortedFrom (k + 1) r

/-- The canonical form of memory: strictly rising addresses, and no entry that equals what an unlisted byte reads as. -/
def Memory.wf (m : Mem) : Bool := Memory.sortedFrom 0 m && m.all (fun c => c.2 != 0)

/-- Whether an address lies in one of some ranges. -/
def inRanges (l : List (Nat × Nat)) (a : Nat) : Bool := l.any (fun p => p.1 ≤ a && a < p.1 + p.2)

/-- Zero some ranges. -/
def Memory.wipe (m : Mem) (l : List (Nat × Nat)) : Mem := if l.isEmpty then m else m.filter (fun c => !inRanges l c.1)

/-- Write the collected stores, newest first, oldest last. -/
def Memory.write (m : Mem) : List (Nat × Byte) → Mem
  | [] => m
  | (a, b) :: r => mput (Memory.write m r) a b

end Sys2Proof.Machine
end

