-- ==== Sys2Proof/Machine/RegMap.lean ====
section
/-! DEFINITION. The register map (chapter 14): the address of every register and the fields of every register's word.

A register's key is its control-region offset (R406), or, for an indirect register, 0x1000_0000 + BLOCK * 65,536 +
OFFSET (R419). The tables are those of the owning chapters; bits that a table does not list are reserved. A reset
value that is not one number (fuses, Table 12.2, ID_MODE_S) is written 0 here and given by `resetWord` (Ops.lean). -/

namespace Sys2Proof.Machine

/-- Access codes (Table 14.1). CNT registers are `RegKind.counter`. -/
inductive Access where
  | ro | rw | rwg | live | rsv
deriving DecidableEq, Repr

structure RegField where
  name : String
  hi : Nat
  lo : Nat
  access : Access
  reset : Nat
deriving DecidableEq, Repr

inductive RegKind where
  | word | pair | counter
deriving DecidableEq, Repr

/-- Where a register lies: package window, context window (R414), or an indirect block (Table 14.7). -/
inductive RegSpace where
  | pkg | ctx | tile | cdie | iodie | die
deriving DecidableEq, Repr

/-- A register: its offset in its space, and the count and stride of each index. -/
structure RegDef where
  name : String
  space : RegSpace
  off : Nat
  dims : List (Nat × Nat)
  kind : RegKind
  fields : List RegField
deriving DecidableEq, Repr

/-- First key of the window of context `c` (R414). -/
def ctxWindow (c : Nat) : Nat := 0x100000 + c * 0x10000

/-- First key of indirect block `b` (R419). -/
def indBlock (b : Nat) : Nat := 0x10000000 + b * 0x10000

/-- First key of the block of die `d` (R33): compute dies 0 to 3, IA 4, IB 5. -/
def dieBlock (d : Nat) : Nat := indBlock (0x40 + d)

namespace Reg

/-- DEV_D2D_STATUS: [31:24] MODULE_COUNT, [23:16] IN_SERVICE, [15:8] HALF_WIDTH, [5] RATE, [4] LANE_REVERSED, [3:0] CTL_MODULE. -/
def devD2dStatus (i : Nat) : Nat := 0x60 + 4 * i

/-- DEV_ROLE: [19:16] STATE, [11] MIRROR_FENCED, [10] IB_PRESENT, [9] IA_PRESENT, [8] ID_MODE_NEXT, [7] ID_MODE_NOW, [3:2] PORT_DIE. -/
def devRole : Nat := 0x40

/-- DEV_GEN: [23:16] NEG_GEN, [15:8] IOD_GEN, [7:0] CMP_GEN. -/
def devGen : Nat := 0x48

/-- DEV_CAPS: [31:0] NEG_CAPS. -/
def devCaps : Nat := 0x4c

/-- DEV_CLK_STATUS: [21:16] HOLDOVER, [13:8] CLK_LOST, [5:0] LOCKED. -/
def devClkStatus : Nat := 0x50

/-- TILE_ARRAY_STATUS: [31:30] STATE, [21:16] ARRAY_WIDTH, [10] RESIDUE_UC, [9] KEEPER_FILL, [8] RAMP_LIMIT, [4] DRAIN_BUSY, [3] PIPE_BUSY, [2] LOADING, [1] BANK1_VALID, [0] BANK0_VALID. -/
def tileArrayStatus (t : Nat) : Nat := indBlock t + 0x0

/-- TILE_COL_MAP: [31:0] BYPASS. -/
def tileColMap (t : Nat) : Nat := indBlock t + 0x4

/-- TILE_COL_FORCE: [31:0] FORCE. -/
def tileColForce (t : Nat) : Nat := indBlock t + 0x8

/-- TILE_KEEPER: [31] ENABLE, [25:16] FILL_MAX, [12:8] RAMP_INTERVAL, [3:0] RAMP_STEP. -/
def tileKeeper (d : Nat) : Nat := dieBlock d + 0x10

/-- TILE_BLOCKS: 48-bit counter. -/
def tileBlocks (t : Nat) : Nat := indBlock t + 0x40

/-- TILE_DUMMY: 48-bit counter. -/
def tileDummy (t : Nat) : Nat := indBlock t + 0x48

/-- TILE_B_WAIT: 48-bit counter. -/
def tileBWait (t : Nat) : Nat := indBlock t + 0x50

/-- TILE_LOADER_STALL: 48-bit counter. -/
def tileLoaderStall (t : Nat) : Nat := indBlock t + 0x58

/-- TILE_SET_WAIT: 48-bit counter. -/
def tileSetWait (t : Nat) : Nat := indBlock t + 0x60

/-- TILE_FEED_STALL: 48-bit counter. -/
def tileFeedStall (t : Nat) : Nat := indBlock t + 0x68

/-- TILE_RAMP_STALL: 48-bit counter. -/
def tileRampStall (t : Nat) : Nat := indBlock t + 0x70

/-- TILE_RESIDUE_REPLAY: 48-bit counter. -/
def tileResidueReplay (t : Nat) : Nat := indBlock t + 0x78

/-- TILE_RESIDUE_UC: 48-bit counter. -/
def tileResidueUc (t : Nat) : Nat := indBlock t + 0x80

/-- TILE_STICKY: 48-bit counter. -/
def tileSticky (t : Nat) : Nat := indBlock t + 0x88

/-- TILE_INT_SAT: 48-bit counter. -/
def tileIntSat (t : Nat) : Nat := indBlock t + 0x90

/-- TILE_DESC_REJECT: 48-bit counter. -/
def tileDescReject (t : Nat) : Nat := indBlock t + 0x98

/-- TILE_COL_RESIDUE: 48-bit counter. -/
def tileColResidue (t i : Nat) : Nat := indBlock t + 0xa0 + 8 * i

/-- TILE_CONV_CTRL: [5:4] DST_SCALE, [0] INF_MODE. -/
def tileConvCtrl (t : Nat) : Nat := indBlock t + 0x10

/-- TILE_VEC_STATUS: [1] WAITING, [0] BUSY. -/
def tileVecStatus (t : Nat) : Nat := indBlock t + 0x200

/-- TILE_VEC_MB: [15:0] MB_ID. -/
def tileVecMb (t : Nat) : Nat := indBlock t + 0x204

/-- TILE_SHARE_MAP_LO: [31:0] KIND_0_7. -/
def tileShareMapLo (t : Nat) : Nat := indBlock t + 0x208

/-- TILE_SHARE_MAP_HI: [31:0] KIND_8_F. -/
def tileShareMapHi (t : Nat) : Nat := indBlock t + 0x20c

/-- TILE_VEC_INSTR: 48-bit counter. -/
def tileVecInstr (t : Nat) : Nat := indBlock t + 0x300

/-- TILE_VEC_REJECT: 48-bit counter. -/
def tileVecReject (t : Nat) : Nat := indBlock t + 0x308

/-- TILE_SFU_RESULTS: 48-bit counter. -/
def tileSfuResults (t : Nat) : Nat := indBlock t + 0x310

/-- TILE_VEC_ORDER_WAIT: 48-bit counter. -/
def tileVecOrderWait (t : Nat) : Nat := indBlock t + 0x318

/-- CTX_RNG_SEED_LO: [31:0] SEED_LO. -/
def ctxRngSeedLo (c : Nat) : Nat := ctxWindow c + 0x100

/-- CTX_RNG_SEED_HI: [31:0] SEED_HI. -/
def ctxRngSeedHi (c : Nat) : Nat := ctxWindow c + 0x108

/-- CTX_RNG_SEED_ACT_LO: [31:0] SEED_LO. -/
def ctxRngSeedActLo (c : Nat) : Nat := ctxWindow c + 0x110

/-- CTX_RNG_SEED_ACT_HI: [31:0] SEED_HI. -/
def ctxRngSeedActHi (c : Nat) : Nat := ctxWindow c + 0x114

/-- CTX_UPD_STEP: [31:0] STEP. -/
def ctxUpdStep (c : Nat) : Nat := ctxWindow c + 0x118

/-- CTX_SHARE_BASE_LO: [31:11] BASE. -/
def ctxShareBaseLo (c : Nat) : Nat := ctxWindow c + 0x120

/-- CTX_SHARE_BASE_HI: [8:0] BASE. -/
def ctxShareBaseHi (c : Nat) : Nat := ctxWindow c + 0x124

/-- CTX_SHARE_CTRL: [31] ENABLE, [8:0] SIZE. -/
def ctxShareCtrl (c : Nat) : Nat := ctxWindow c + 0x128

/-- CTX_SHARE_PROD: [15:0] PROD. -/
def ctxShareProd (c : Nat) : Nat := ctxWindow c + 0x12c

/-- CTX_SHARE_CONS: [15:0] CONS. -/
def ctxShareCons (c : Nat) : Nat := ctxWindow c + 0x130

/-- CTX_SHARE_LOST: 48-bit counter. -/
def ctxShareLost (c : Nat) : Nat := ctxWindow c + 0x138

/-- CTX_RETIRE_WAIT: 48-bit counter. -/
def ctxRetireWait (c : Nat) : Nat := ctxWindow c + 0x140

/-- STRATA_CTRL: [4] SOURCE, [3:0] CMD. -/
def strataCtrl : Nat := 0x2000

/-- STRATA_STATUS: [31:24] VAL_RESULT, [23:21] IN_STATE, [20] PREV_VALID, [19] CUR_VALID, [18:16] ARMED, [15] FW_UNCOMMITTED, [14] ACTIVATING, [13] REVERTED. -/
def strataStatus : Nat := 0x2008

/-- STRATA_SRC_LO: [31:0] ADDR. -/
def strataSrcLo : Nat := 0x2010

/-- STRATA_SRC_HI: [31:0] ADDR. -/
def strataSrcHi : Nat := 0x2014

/-- STRATA_SRC_LEN: [31:0] LEN. -/
def strataSrcLen : Nat := 0x2018

/-- STRATA_ARM_LT_LO: [31:0] LT. -/
def strataArmLtLo : Nat := 0x2020

/-- STRATA_ARM_LT_HI: [31:0] LT. -/
def strataArmLtHi : Nat := 0x2024

/-- STRATA_GEN_CUR: [31:0] GEN. -/
def strataGenCur : Nat := 0x2028

/-- STRATA_GEN_PREV: [31:0] GEN. -/
def strataGenPrev : Nat := 0x202c

/-- STRATA_GEN_IN: [31:0] GEN. -/
def strataGenIn : Nat := 0x2030

/-- STRATA_GROUP_GEN: [31:0] GEN. -/
def strataGroupGen : Nat := 0x2034

/-- STRATA_LOADS: 48-bit counter. -/
def strataLoads : Nat := 0x2040

/-- STRATA_VAL_FAIL: 48-bit counter. -/
def strataValFail : Nat := 0x2048

/-- STRATA_ACTIVATIONS: 48-bit counter. -/
def strataActivations : Nat := 0x2050

/-- STRATA_CMD_REFUSED: 48-bit counter. -/
def strataCmdRefused : Nat := 0x2058

/-- STRATA_SWITCHES: 48-bit counter. -/
def strataSwitches : Nat := 0x2060

/-- STRATA_SWITCH_LATE: 48-bit counter. -/
def strataSwitchLate : Nat := 0x2068

/-- STRATA_CTX_PHASE: [10] SHADOW_READY, [9] LATE, [8] SWAPPING, [7] PEND_VALID, [6:4] PENDING, [2:0] ACTIVE. -/
def strataCtxPhase (c : Nat) : Nat := ctxWindow c + 0x400

/-- TILE_SCR_STATUS: [23:16] BANKS_NO_SPARE, [15:8] SPARES_USED, [0] CLEARING. -/
def tileScrStatus (t : Nat) : Nat := indBlock t + 0xa00

/-- TILE_MOVE_CTRL: [31] ENABLE, [23:20] SIZE_LOG2, [19:0] BASE. -/
def tileMoveCtrl (t : Nat) : Nat := indBlock t + 0xa04

/-- TILE_MOVE_CONS: [31:0] CONS. -/
def tileMoveCons (t : Nat) : Nat := indBlock t + 0xa08

/-- TILE_SCR_CE: 48-bit counter. -/
def tileScrCe (t : Nat) : Nat := indBlock t + 0xa40

/-- TILE_SCR_UE: 48-bit counter. -/
def tileScrUe (t : Nat) : Nat := indBlock t + 0xa48

/-- TILE_SCR_AGED: 48-bit counter. -/
def tileScrAged (t : Nat) : Nat := indBlock t + 0xa50

/-- TILE_MOVE_BYTES: 48-bit counter. -/
def tileMoveBytes (t : Nat) : Nat := indBlock t + 0xa58

/-- MEM_STACK_STATUS: [31:30] STATE, [29] RATE, [19:12] TEMP, [11:0] SOFT_PENDING. -/
def memStackStatus (d i : Nat) : Nat := dieBlock d + 0x1000 + 256 * i

/-- MEM_CE: 48-bit counter. -/
def memCe (d i : Nat) : Nat := dieBlock d + 0x1008 + 256 * i

/-- MEM_UE: 48-bit counter. -/
def memUe (d i : Nat) : Nat := dieBlock d + 0x1010 + 256 * i

/-- MEM_PPR_SOFT: 48-bit counter. -/
def memPprSoft (d i : Nat) : Nat := dieBlock d + 0x1018 + 256 * i

/-- MEM_PPR_HARD: 48-bit counter. -/
def memPprHard (d i : Nat) : Nat := dieBlock d + 0x1020 + 256 * i

/-- MEM_SCRUB_PASSES: 48-bit counter. -/
def memScrubPasses (d i : Nat) : Nat := dieBlock d + 0x1028 + 256 * i

/-- MEM_LAT_MISS: 48-bit counter. -/
def memLatMiss (d i : Nat) : Nat := dieBlock d + 0x1030 + 256 * i

/-- MEM_QUARRY_READS: 48-bit counter. -/
def memQuarryReads (d i : Nat) : Nat := dieBlock d + 0x1038 + 256 * i

/-- MEM_PRIO_CTRL: [23:16] AGE, [15:12] W1, [11:8] W2, [7:4] W3. -/
def memPrioCtrl (d : Nat) : Nat := dieBlock d + 0x1400

/-- MEM_SCRUB_CTRL: [31] ENABLE, [7:0] PASS_HOURS. -/
def memScrubCtrl (d : Nat) : Nat := dieBlock d + 0x1408

/-- MEM_RETIRE_FORCE: [16:0] PAGE. -/
def memRetireForce (d : Nat) : Nat := dieBlock d + 0x1410

/-- MEM_RETIRED: [12:0] COUNT. -/
def memRetired (d : Nat) : Nat := dieBlock d + 0x1420

/-- MEM_ACCESS_VIOL: 48-bit counter. -/
def memAccessViol (d : Nat) : Nat := dieBlock d + 0x1440

/-- MEM_ZERO_BYTES: 48-bit counter. -/
def memZeroBytes (d : Nat) : Nat := dieBlock d + 0x1448

/-- FAB_NODE: [31] VALID, [22:0] NODE_ID. -/
def fabNode : Nat := 0x3000

/-- FAB_TORUS: [22:16] DZ_M1, [15:8] DY_M1, [7:0] DX_M1. -/
def fabTorus : Nat := 0x3008

/-- FAB_CTRL: [31] ADAPT_EN, [23:12] BARRIER_K, [11:0] REQ_TIMEOUT. -/
def fabCtrl : Nat := 0x3010

/-- FAB_ARB: [3:0] LOW_SHARE. -/
def fabArb : Nat := 0x3018

/-- FAB_VC_CREDIT: [31:16] ADP, [15:0] ESC. -/
def fabVcCredit (i : Nat) : Nat := 0x3040 + 8 * i

/-- FAB_SPUR_MATCH: [31] VALID, [22:0] MATCH. -/
def fabSpurMatch (i : Nat) : Nat := 0x3100 + 32 * i

/-- FAB_SPUR_MASK: [22:0] MASK. -/
def fabSpurMask (i : Nat) : Nat := 0x3108 + 32 * i

/-- FAB_SPUR_GW: [24] PORT, [22:0] GATEWAY. -/
def fabSpurGw (i : Nat) : Nat := 0x3110 + 32 * i

/-- FAB_PORT_STATUS: [31:28] STATE, [27:26] TX_WIDTH, [25:24] RX_WIDTH, [23:19] LANES_FAILED, [18] REVERSED, [17] ENC_ON, [15:8] PEER_PORTS. -/
def fabPortStatus (i : Nat) : Nat := 0x3400 + 32 * i

/-- FAB_PORT_PEER: [25:23] PEER_PORT, [22:0] PEER_NODE. -/
def fabPortPeer (i : Nat) : Nat := 0x3404 + 32 * i

/-- FAB_PORT_CTRL: [2] ENC_REQ, [1:0] CMD. -/
def fabPortCtrl (i : Nat) : Nat := 0x3408 + 32 * i

/-- FAB_LANE_USE: [17:0] IN_USE. -/
def fabLaneUse (i : Nat) : Nat := 0x3410 + 32 * i

/-- FAB_LANE_FAIL: [17:0] FAILED. -/
def fabLaneFail (i : Nat) : Nat := 0x3414 + 32 * i

/-- FAB_PORT_RTT: [23:0] RTT. -/
def fabPortRtt (i : Nat) : Nat := 0x3418 + 32 * i

/-- FAB_STALE_DROP: 48-bit counter. -/
def fabStaleDrop : Nat := 0x3600

/-- FAB_TIMEOUT: 48-bit counter. -/
def fabTimeout : Nat := 0x3608

/-- FAB_UNREACH: 48-bit counter. -/
def fabUnreach : Nat := 0x3610

/-- FAB_DETOURS: 48-bit counter. -/
def fabDetours : Nat := 0x3618

/-- FAB_BARRIER_MISS: 48-bit counter. -/
def fabBarrierMiss : Nat := 0x3620

/-- FAB_ECRC_ERR: 48-bit counter. -/
def fabEcrcErr : Nat := 0x3628

/-- FAB_XDIE_STALL: 48-bit counter. -/
def fabXdieStall : Nat := 0x3630

/-- FAB_FWD_PKTS: 48-bit counter. -/
def fabFwdPkts : Nat := 0x3638

/-- FAB_BRIDGE_BYTES: 48-bit counter. -/
def fabBridgeBytes : Nat := 0x3640

/-- FAB_TX_FLITS: 48-bit counter. -/
def fabTxFlits (d i : Nat) : Nat := dieBlock d + 0x2000 + 64 * i

/-- FAB_RX_FLITS: 48-bit counter. -/
def fabRxFlits (d i : Nat) : Nat := dieBlock d + 0x2008 + 64 * i

/-- FAB_REPLAYS: 48-bit counter. -/
def fabReplays (d i : Nat) : Nat := dieBlock d + 0x2010 + 64 * i

/-- FAB_FEC_CORR: 48-bit counter. -/
def fabFecCorr (d i : Nat) : Nat := dieBlock d + 0x2018 + 64 * i

/-- FAB_FEC_UNCORR: 48-bit counter. -/
def fabFecUncorr (d i : Nat) : Nat := dieBlock d + 0x2020 + 64 * i

/-- FAB_LANE_SWAPS: 48-bit counter. -/
def fabLaneSwaps (d i : Nat) : Nat := dieBlock d + 0x2028 + 64 * i

/-- FAB_AUTH_FAIL: 48-bit counter. -/
def fabAuthFail (d i : Nat) : Nat := dieBlock d + 0x2030 + 64 * i

/-- FAB_RETRAINS: 48-bit counter. -/
def fabRetrains (d i : Nat) : Nat := dieBlock d + 0x2038 + 64 * i

/-- FAB_LANE_SYM: 48-bit counter. -/
def fabLaneSym (d i j : Nat) : Nat := dieBlock d + 0x2400 + 256 * i + 8 * j

/-- CTX_CAIRN_LT_LO: [31:0] LT. -/
def ctxCairnLtLo (c i : Nat) : Nat := ctxWindow c + 0x1000 + 32 * i

/-- CTX_CAIRN_LT_HI: [31:0] LT. -/
def ctxCairnLtHi (c i : Nat) : Nat := ctxWindow c + 0x1004 + 32 * i

/-- CTX_CAIRN_ARG: [31:0] ARG. -/
def ctxCairnArg (c i : Nat) : Nat := ctxWindow c + 0x1008 + 32 * i

/-- CTX_CAIRN_CTRL: [31:30] CMD, [25:24] STATE, [19:16] RESULT, [9] EVT, [8] POLICY, [7:0] ACTION. -/
def ctxCairnCtrl (c i : Nat) : Nat := ctxWindow c + 0x100c + 32 * i

/-- CTX_CAIRN_ARMED_LO: [31:0] ARMED. -/
def ctxCairnArmedLo (c : Nat) : Nat := ctxWindow c + 0x1800

/-- CTX_CAIRN_ARMED_HI: [31:0] ARMED. -/
def ctxCairnArmedHi (c : Nat) : Nat := ctxWindow c + 0x1804

/-- LODE_CTRL: [31] CANDIDATE, [30:29] CMD, [23:12] TICK, [11:0] CLAIM_WAIT. -/
def lodeCtrl : Nat := 0x4000

/-- LODE_STATUS: [31:28] STATE, [27:24] UP_PORT, [23:16] HOPS, [12] TIMING_DIE, [11] STEADY, [10] FINE. -/
def lodeStatus : Nat := 0x4010

/-- LODE_SRC: [22:0] SRC. -/
def lodeSrc : Nat := 0x4014

/-- LODE_NOW_LO: [31:0] COUNT. -/
def lodeNowLo : Nat := 0x4018

/-- LODE_NOW_HI: [31:0] COUNT. -/
def lodeNowHi : Nat := 0x401c

/-- LODE_PHASE: [17:0] PHASE. -/
def lodePhase : Nat := 0x4020

/-- LODE_OFFSET: [31:0] THETA. -/
def lodeOffset : Nat := 0x4024

/-- LODE_REBASES: 48-bit counter. -/
def lodeRebases : Nat := 0x4040

/-- LODE_PARENT_CHANGES: 48-bit counter. -/
def lodeParentChanges : Nat := 0x4048

/-- LODE_HOLDOVERS: 48-bit counter. -/
def lodeHoldovers : Nat := 0x4050

/-- LODE_CAIRN_TAKEN: 48-bit counter. -/
def lodeCairnTaken : Nat := 0x4058

/-- LODE_CAIRN_LATE: 48-bit counter. -/
def lodeCairnLate : Nat := 0x4060

/-- LODE_CAIRN_DROPPED: 48-bit counter. -/
def lodeCairnDropped : Nat := 0x4068

/-- CTX_COLL_BASE_LO: [31:7] BASE. -/
def ctxCollBaseLo (c : Nat) : Nat := ctxWindow c + 0x200

/-- CTX_COLL_BASE_HI: [8:0] BASE. -/
def ctxCollBaseHi (c : Nat) : Nat := ctxWindow c + 0x204

/-- CTX_COLL_SIZE: [16:0] ENTRIES. -/
def ctxCollSize (c : Nat) : Nat := ctxWindow c + 0x208

/-- CTX_COLL_CTRL: [31:28] COMMIT_SEM, [27] COMMIT_SEM_EN, [26:19] RESEND_LT, [18:3] DATA_LIMIT. -/
def ctxCollCtrl (c : Nat) : Nat := ctxWindow c + 0x20c

/-- CTX_COLL_REQ_LO: [31:0] REQ. -/
def ctxCollReqLo (c : Nat) : Nat := ctxWindow c + 0x210

/-- CTX_COLL_REQ_HI: [31:0] REQ. -/
def ctxCollReqHi (c : Nat) : Nat := ctxWindow c + 0x214

/-- CTX_COLL_CLOSED_LO: [31:0] CLOSED. -/
def ctxCollClosedLo (c : Nat) : Nat := ctxWindow c + 0x218

/-- CTX_COLL_CLOSED_HI: [31:0] CLOSED. -/
def ctxCollClosedHi (c : Nat) : Nat := ctxWindow c + 0x21c

/-- CTX_COLL_DONE_LO: [31:0] DONE. -/
def ctxCollDoneLo (c : Nat) : Nat := ctxWindow c + 0x220

/-- CTX_COLL_DONE_HI: [31:0] DONE. -/
def ctxCollDoneHi (c : Nat) : Nat := ctxWindow c + 0x224

/-- CTX_COMMIT: [31:28] STATUS, [27:22] BIT. -/
def ctxCommit (c : Nat) : Nat := ctxWindow c + 0x228

/-- CTX_COMMIT_STEP: [31:0] STEP. -/
def ctxCommitStep (c : Nat) : Nat := ctxWindow c + 0x22c

/-- COLL_STATUS: [7:4] BUSY, [3:0] IN_SERVICE. -/
def collStatus : Nat := 0x5000

/-- COLL_OPENINGS: 48-bit counter. -/
def collOpenings : Nat := 0x5040

/-- COLL_REPORTS_LATE: 48-bit counter. -/
def collReportsLate : Nat := 0x5048

/-- COLL_INCOMPLETE: 48-bit counter. -/
def collIncomplete : Nat := 0x5050

/-- COLL_NONFINITE: 48-bit counter. -/
def collNonfinite : Nat := 0x5058

/-- COLL_RESENDS: 48-bit counter. -/
def collResends : Nat := 0x5060

/-- COLL_STALE_DROP: 48-bit counter. -/
def collStaleDrop : Nat := 0x5068

/-- COLL_WORD_WAIT: 48-bit counter. -/
def collWordWait : Nat := 0x5070

/-- COLL_TOKX_DROPPED: 48-bit counter. -/
def collTokxDropped : Nat := 0x5078

/-- COLL_RESHARD_BYTES: 48-bit counter. -/
def collReshardBytes : Nat := 0x5080

/-- CTX_PIPE_BASE_LO: [31:8] BASE. -/
def ctxPipeBaseLo (c : Nat) : Nat := ctxWindow c + 0x800

/-- CTX_PIPE_BASE_HI: [8:0] BASE. -/
def ctxPipeBaseHi (c : Nat) : Nat := ctxWindow c + 0x804

/-- CTX_PIPE_CTRL: [31] ENABLE, [30:28] CMD, [19:0] RETIRE_HOLD. -/
def ctxPipeCtrl (c : Nat) : Nat := ctxWindow c + 0x808

/-- CTX_PIPE_STATUS: [31:30] STATE, [23:16] PREV_LIVE, [15:8] UPDATING, [7:0] VS_VALID. -/
def ctxPipeStatus (c : Nat) : Nat := ctxWindow c + 0x80c

/-- CTX_PIPE_DIVERGED: [31:0] STEP. -/
def ctxPipeDiverged (c : Nat) : Nat := ctxWindow c + 0x810

/-- CTX_PIPE_CUR_STEP: [31:0] STEP. -/
def ctxPipeCurStep (c i : Nat) : Nat := ctxWindow c + 0x840 + 16 * i

/-- CTX_PIPE_PREV_STEP: [31:0] STEP. -/
def ctxPipePrevStep (c i : Nat) : Nat := ctxWindow c + 0x844 + 16 * i

/-- CTX_PIPE_REFS: [31:16] PREV_REFS, [15:0] CUR_REFS. -/
def ctxPipeRefs (c i : Nat) : Nat := ctxWindow c + 0x848 + 16 * i

/-- CTX_PIPE_STASH: [31:24] SLOTS_USED, [23:0] SCREE_BLOCKS. -/
def ctxPipeStash (c i : Nat) : Nat := ctxWindow c + 0x84c + 16 * i

/-- CTX_PIPE_FWD_BUSY: 48-bit counter. -/
def ctxPipeFwdBusy (c i : Nat) : Nat := ctxWindow c + 0xa00 + 128 * i

/-- CTX_PIPE_FWD_STARVE: 48-bit counter. -/
def ctxPipeFwdStarve (c i : Nat) : Nat := ctxWindow c + 0xa08 + 128 * i

/-- CTX_PIPE_FWD_OUT_STALL: 48-bit counter. -/
def ctxPipeFwdOutStall (c i : Nat) : Nat := ctxWindow c + 0xa10 + 128 * i

/-- CTX_PIPE_BWD_BUSY: 48-bit counter. -/
def ctxPipeBwdBusy (c i : Nat) : Nat := ctxWindow c + 0xa18 + 128 * i

/-- CTX_PIPE_BWD_STARVE: 48-bit counter. -/
def ctxPipeBwdStarve (c i : Nat) : Nat := ctxWindow c + 0xa20 + 128 * i

/-- CTX_PIPE_BWD_OUT_STALL: 48-bit counter. -/
def ctxPipeBwdOutStall (c i : Nat) : Nat := ctxWindow c + 0xa28 + 128 * i

/-- CTX_PIPE_VERSION_WAIT: 48-bit counter. -/
def ctxPipeVersionWait (c i : Nat) : Nat := ctxWindow c + 0xa30 + 128 * i

/-- CTX_PIPE_GATHER_LT: 48-bit counter. -/
def ctxPipeGatherLt (c i : Nat) : Nat := ctxWindow c + 0xa38 + 128 * i

/-- CTX_PIPE_SPILLS: 48-bit counter. -/
def ctxPipeSpills (c i : Nat) : Nat := ctxWindow c + 0xa40 + 128 * i

/-- CTX_PIPE_DROPS: 48-bit counter. -/
def ctxPipeDrops (c i : Nat) : Nat := ctxWindow c + 0xa48 + 128 * i

/-- CTX_PIPE_RECOMPUTES: 48-bit counter. -/
def ctxPipeRecomputes (c i : Nat) : Nat := ctxWindow c + 0xa50 + 128 * i

/-- CTX_PIPE_PREV_USED: 48-bit counter. -/
def ctxPipePrevUsed (c i : Nat) : Nat := ctxWindow c + 0xa58 + 128 * i

/-- CTX_PIPE_RESTARTS: 48-bit counter. -/
def ctxPipeRestarts (c i : Nat) : Nat := ctxWindow c + 0xa60 + 128 * i

/-- CTX_PIPE_UPDATES: 48-bit counter. -/
def ctxPipeUpdates (c i : Nat) : Nat := ctxWindow c + 0xa68 + 128 * i

/-- CTX_STATE: [31:29] STATE, [28:27] PORT, [26] PORT_UP. -/
def ctxState (c : Nat) : Nat := ctxWindow c + 0x0

/-- CTX_GEN: [31:0] GEN. -/
def ctxGen (c : Nat) : Nat := ctxWindow c + 0x4

/-- CTX_CTRL: [31:30] CMD. -/
def ctxCtrl (c : Nat) : Nat := ctxWindow c + 0x8

/-- CTX_RUN_BASE_LO: [31:6] BASE. -/
def ctxRunBaseLo (c : Nat) : Nat := ctxWindow c + 0x10

/-- CTX_RUN_BASE_HI: [31:0] BASE. -/
def ctxRunBaseHi (c : Nat) : Nat := ctxWindow c + 0x14

/-- CTX_RUN_CTRL: [31] ENABLE, [23:16] REACQ, [6:0] LINES. -/
def ctxRunCtrl (c : Nat) : Nat := ctxWindow c + 0x18

/-- CTX_RUN_NEXT: [31:0] SEQ. -/
def ctxRunNext (c : Nat) : Nat := ctxWindow c + 0x1c

/-- CTX_CPL_BASE_LO: [31:6] BASE. -/
def ctxCplBaseLo (c : Nat) : Nat := ctxWindow c + 0x20

/-- CTX_CPL_BASE_HI: [31:0] BASE. -/
def ctxCplBaseHi (c : Nat) : Nat := ctxWindow c + 0x24

/-- CTX_CPL_CTRL: [31] ENABLE, [4:0] SIZE_LOG2. -/
def ctxCplCtrl (c : Nat) : Nat := ctxWindow c + 0x28

/-- CTX_CPL_CONS: [31:0] CONS. -/
def ctxCplCons (c : Nat) : Nat := ctxWindow c + 0x2c

/-- CTX_EVT_BASE_LO: [31:5] BASE. -/
def ctxEvtBaseLo (c : Nat) : Nat := ctxWindow c + 0x30

/-- CTX_EVT_BASE_HI: [31:0] BASE. -/
def ctxEvtBaseHi (c : Nat) : Nat := ctxWindow c + 0x34

/-- CTX_EVT_CTRL: [31] ENABLE, [4:0] SIZE_LOG2. -/
def ctxEvtCtrl (c : Nat) : Nat := ctxWindow c + 0x38

/-- CTX_EVT_CONS: [31:0] CONS. -/
def ctxEvtCons (c : Nat) : Nat := ctxWindow c + 0x3c

/-- CTX_EVT_PROD: [31:0] PROD. -/
def ctxEvtProd (c : Nat) : Nat := ctxWindow c + 0x40

/-- CTX_HCOH: [31] ENABLE, [30:20] SIZE, [18:0] BASE. -/
def ctxHcoh (c : Nat) : Nat := ctxWindow c + 0x44

/-- CTX_RUNS_DONE: 48-bit counter. -/
def ctxRunsDone (c : Nat) : Nat := ctxWindow c + 0x80

/-- CTX_RUN_REFUSED: 48-bit counter. -/
def ctxRunRefused (c : Nat) : Nat := ctxWindow c + 0x88

/-- CTX_EVT_LOST: 48-bit counter. -/
def ctxEvtLost (c : Nat) : Nat := ctxWindow c + 0x90

/-- CTX_STALE_DROP: 48-bit counter. -/
def ctxStaleDrop (c : Nat) : Nat := ctxWindow c + 0x98

/-- DEV_HP_STATUS: [31:28] STATE, [27:26] WIDTH, [25:24] RATE, [23] COH, [22] COH_FENCED. -/
def devHpStatus (i : Nat) : Nat := 0x1000 + 64 * i

/-- DEV_HP_HOSTID_LO: [31:0] ID. -/
def devHpHostidLo (i : Nat) : Nat := 0x1008 + 64 * i

/-- DEV_HP_HOSTID_HI: [31:0] ID. -/
def devHpHostidHi (i : Nat) : Nat := 0x100c + 64 * i

/-- DEV_HP_CTRL: [31:30] CMD, [29] COH_EN, [11:0] LOSS_LIMIT. -/
def devHpCtrl (i : Nat) : Nat := 0x1010 + 64 * i

/-- DEV_HP_BIND: [15:8] RESULT, [5:0] CTX. -/
def devHpBind (i : Nat) : Nat := 0x1018 + 64 * i

/-- DEV_HP_RETRAINS: 48-bit counter. -/
def devHpRetrains (i : Nat) : Nat := 0x1020 + 64 * i

/-- DEV_HP_REPLAYS: 48-bit counter. -/
def devHpReplays (i : Nat) : Nat := 0x1028 + 64 * i

/-- DEV_HP_SNOOPS: 48-bit counter. -/
def devHpSnoops (i : Nat) : Nat := 0x1030 + 64 * i

/-- DEV_CTX_QUAR: [15:0] QUAR. -/
def devCtxQuar : Nat := 0x1100

/-- RAS_LB_CFG: [31:24] N, [23:0] W. -/
def rasLbCfg (i : Nat) : Nat := 0x6000 + 8 * i

/-- RAS_HEALTH: [31:24] SCORE, [23] ARMED, [22] CRITICAL. -/
def rasHealth : Nat := 0x6040

/-- RAS_HEALTH_CTRL: [31:24] SECURE_AT, [23:16] CRITICAL_AT, [15:8] HYST, [1:0] CMD. -/
def rasHealthCtrl : Nat := 0x6048

/-- RAS_HANG_CTRL: [31:30] ACTION, [29] PROBE_EN, [19:12] PROBE_PERIOD, [11:0] STALL_LIMIT. -/
def rasHangCtrl : Nat := 0x6050

/-- RAS_HANG_STATUS: [31] LOCAL_CYCLE, [30] REMOTE_CYCLE, [8:0] UNIT. -/
def rasHangStatus : Nat := 0x6058

/-- RAS_SAMPLE_CTRL: [31] ENABLE, [30] ON_CTX, [29] OVERWRITE, [1:0] CMD. -/
def rasSampleCtrl : Nat := 0x6060

/-- RAS_RESET_CTRL: [31:30] CMD, [5:0] CTX. -/
def rasResetCtrl : Nat := 0x6068

/-- RAS_RESET_STATUS: [31:30] ACTIVE, [21:0] LAST_US. -/
def rasResetStatus : Nat := 0x6070

/-- RAS_DEGRADED: [9] HOST_NARROW, [8] ENGINE_OUT, [7] PRINCIPAL_LOST, [6] FAB_PORT, [5] COLUMN, [4] TILE_RETIRED, [3] QUARTER_OUT, [2] MIRROR_FENCED, [1] DIE_LOST, [0] D2D_SHORT. -/
def rasDegraded : Nat := 0x6074

/-- RAS_LASTING: 48-bit counter. -/
def rasLasting (i : Nat) : Nat := 0x6100 + 8 * i

/-- RAS_HANGS: 48-bit counter. -/
def rasHangs : Nat := 0x6140

/-- RAS_STALLS: 48-bit counter. -/
def rasStalls : Nat := 0x6148

/-- RAS_SECURE_NOW: 48-bit counter. -/
def rasSecureNow : Nat := 0x6150

/-- RAS_CTX_RESETS: 48-bit counter. -/
def rasCtxResets : Nat := 0x6158

/-- RAS_COMPUTE_RESETS: 48-bit counter. -/
def rasComputeResets : Nat := 0x6160

/-- RAS_FULL_RECOVERIES: 48-bit counter. -/
def rasFullRecoveries : Nat := 0x6168

/-- RAS_SAMPLES_PARTIAL: 48-bit counter. -/
def rasSamplesPartial : Nat := 0x6170

/-- RAS_LB_EVICT: 48-bit counter. -/
def rasLbEvict : Nat := 0x6178

/-- RAS_SAMPLE_STAT: [31:30] STATE, [16:0] ROWS. -/
def rasSampleStat (i : Nat) : Nat := 0x6400 + 16 * i

/-- RAS_SAMPLE_UE: [15:0] UE_WORDS. -/
def rasSampleUe (i : Nat) : Nat := 0x6404 + 16 * i

/-- RAS_SAMPLE_LT_LO: [31:0] LT. -/
def rasSampleLtLo (i : Nat) : Nat := 0x6408 + 16 * i

/-- RAS_SAMPLE_LT_HI: [31:0] LT. -/
def rasSampleLtHi (i : Nat) : Nat := 0x640c + 16 * i

/-- RAS_SAMPLE_WIN: [31:19] BASE, [10:0] LENGTH. -/
def rasSampleWin (i j : Nat) : Nat := 0x6800 + 32 * i + 8 * j

/-- CTX_PROT_BASE_LO: [31:8] BASE. -/
def ctxProtBaseLo (c : Nat) : Nat := ctxWindow c + 0x300

/-- CTX_PROT_BASE_HI: [8:0] BASE. -/
def ctxProtBaseHi (c : Nat) : Nat := ctxWindow c + 0x304

/-- CTX_PROT_CTRL: [31] ENABLE, [30:27] CMD. -/
def ctxProtCtrl (c : Nat) : Nat := ctxWindow c + 0x308

/-- CTX_PROT_ARG: [31:0] ARG. -/
def ctxProtArg (c : Nat) : Nat := ctxWindow c + 0x310

/-- CTX_PROT_STATUS: [31:29] STATE, [23:16] RESULT, [12:0] TORN. -/
def ctxProtStatus (c : Nat) : Nat := ctxWindow c + 0x314

/-- CTX_PROT_MSTEP: [31:0] STEP. -/
def ctxProtMstep (c : Nat) : Nat := ctxWindow c + 0x318

/-- CTX_PROT_UNSAFE: [12:0] COUNT. -/
def ctxProtUnsafe (c : Nat) : Nat := ctxWindow c + 0x31c

/-- CTX_PROT_HYPER: [31:0] VALUE. -/
def ctxProtHyper (c i : Nat) : Nat := ctxWindow c + 0x320 + 4 * i

/-- CTX_LOG_PROD: [31:0] PROD. -/
def ctxLogProd (c : Nat) : Nat := ctxWindow c + 0x340

/-- CTX_LOG_SHIPPED: [31:0] SHIPPED. -/
def ctxLogShipped (c : Nat) : Nat := ctxWindow c + 0x344

/-- CTX_PROT_MIRROR_ITEMS: 48-bit counter. -/
def ctxProtMirrorItems (c : Nat) : Nat := ctxWindow c + 0x380

/-- CTX_PROT_SLOT_COPIES: 48-bit counter. -/
def ctxProtSlotCopies (c : Nat) : Nat := ctxWindow c + 0x388

/-- CTX_PROT_STALE: 48-bit counter. -/
def ctxProtStale (c : Nat) : Nat := ctxWindow c + 0x390

/-- CTX_PROT_VERIFY_FAIL: 48-bit counter. -/
def ctxProtVerifyFail (c : Nat) : Nat := ctxWindow c + 0x398

/-- CTX_PROT_FETCH_BYTES: 48-bit counter. -/
def ctxProtFetchBytes (c : Nat) : Nat := ctxWindow c + 0x3a0

/-- CTX_LOG_BYTES: 48-bit counter. -/
def ctxLogBytes (c : Nat) : Nat := ctxWindow c + 0x3a8

/-- CTX_LOG_STALL: 48-bit counter. -/
def ctxLogStall (c : Nat) : Nat := ctxWindow c + 0x3b0

/-- CTX_LOG_DISCARDED: 48-bit counter. -/
def ctxLogDiscarded (c : Nat) : Nat := ctxWindow c + 0x3b8

/-- IND_ADDR: [31:24] BLOCK, [15:0] OFFSET. -/
def indAddr : Nat := 0x7000

/-- IND_DATA: [31:0] DATA. -/
def indData : Nat := 0x7004

/-- DEV_PORT_SELF: [4] MGMT, [3:2] DIE, [1:0] PORT. -/
def devPortSelf : Nat := 0x7008

/-- DEV_GUARD_FAULT: 48-bit counter. -/
def devGuardFault : Nat := 0x7010

/-- DEV_RSV_FAULT: 48-bit counter. -/
def devRsvFault : Nat := 0x7018

/-- DEV_SIGNATURE: [31:0] SIG. -/
def devSignature : Nat := 0x0

/-- DEV_IDENT_STATUS: [15:8] STEPPING, [7] PKG_ID_VALID, [5:0] DIE_ID_VALID. -/
def devIdentStatus : Nat := 0x4

/-- DEV_ORDER_CODE: [31:0] CODE. -/
def devOrderCode (i : Nat) : Nat := 0x10 + 4 * i

/-- DEV_PKG_ID: [31:0] ID. -/
def devPkgId (i : Nat) : Nat := 0x20 + 4 * i

/-- DEV_DIE_ID: [31:0] ID. -/
def devDieId (i j : Nat) : Nat := 0x80 + 32 * i + 4 * j

/-- DEV_ADMIN: [3:0] PORTS. -/
def devAdmin : Nat := 0x200

/-- DEV_EVT_BASE_LO: [31:5] BASE. -/
def devEvtBaseLo : Nat := 0x210

/-- DEV_EVT_BASE_HI: [31:0] BASE. -/
def devEvtBaseHi : Nat := 0x214

/-- DEV_EVT_CTRL: [31] ENABLE, [30:29] PORT, [4:0] SIZE_LOG2. -/
def devEvtCtrl : Nat := 0x218

/-- DEV_EVT_CONS: [31:0] CONS. -/
def devEvtCons : Nat := 0x21c

/-- DEV_EVT_PROD: [31:0] PROD. -/
def devEvtProd : Nat := 0x220

/-- DEV_EVT_LOST: 48-bit counter. -/
def devEvtLost : Nat := 0x300

/-- DEV_REG_REFUSED: 48-bit counter. -/
def devRegRefused : Nat := 0x308

/-- SEC_STATUS: [31:28] STATE, [27] RSA_KEY_READY, [26] MLDSA_KEY_READY, [25] TEST_LOCK, [24] UNLOCK_PENDING, [19:15] ARB_FULL, [7:0] BUNDLE_RESULT. -/
def secStatus : Nat := 0x8000

/-- SEC_KEY_SLOTS: [15:8] REVOKED, [7:0] LOADED. -/
def secKeySlots : Nat := 0x8004

/-- SEC_ARB: [21:16] BANKS_USED, [15:0] COUNTER. -/
def secArb (i : Nat) : Nat := 0x8010 + 4 * i

/-- SEC_MBOX_REQ_LO: [31:0] ADDR. -/
def secMboxReqLo (i : Nat) : Nat := 0x8100 + 64 * i

/-- SEC_MBOX_REQ_HI: [31:0] ADDR. -/
def secMboxReqHi (i : Nat) : Nat := 0x8104 + 64 * i

/-- SEC_MBOX_RSP_LO: [31:0] ADDR. -/
def secMboxRspLo (i : Nat) : Nat := 0x8108 + 64 * i

/-- SEC_MBOX_RSP_HI: [31:0] ADDR. -/
def secMboxRspHi (i : Nat) : Nat := 0x810c + 64 * i

/-- SEC_MBOX_LEN: [31:16] RSP_MAX, [15:0] REQ_LEN. -/
def secMboxLen (i : Nat) : Nat := 0x8110 + 64 * i

/-- SEC_MBOX_CTRL: [31:30] CMD, [29:28] STATE, [21:14] ERR, [13:0] RSP_LEN. -/
def secMboxCtrl (i : Nat) : Nat := 0x8114 + 64 * i

/-- SEC_SIG_FAIL: 48-bit counter. -/
def secSigFail : Nat := 0x8300

/-- SEC_SPDM_MSGS: 48-bit counter. -/
def secSpdmMsgs : Nat := 0x8308

/-- SEC_UNLOCKS: 48-bit counter. -/
def secUnlocks : Nat := 0x8310

/-- SEC_LINK_KEYS: 48-bit counter. -/
def secLinkKeys : Nat := 0x8318

/-- PWR_STATUS: [31:30] STATE, [29:26] START_PHASE, [25] LIMIT, [24] CAP_LAND, [23] THERMAL. -/
def pwrStatus : Nat := 0x9000

/-- PWR_CTRL: [31:30] CMD. -/
def pwrCtrl : Nat := 0x9008

/-- PWR_LIMIT: [31] ENABLE, [11:0] LIMIT. -/
def pwrLimit : Nat := 0x9010

/-- PWR_BOOT_CTRL: [31:30] CMD. -/
def pwrBootCtrl : Nat := 0x9018

/-- PWR_DVFS_CTRL: [3:0] LEVEL_REQ. -/
def pwrDvfsCtrl (i : Nat) : Nat := 0x9020 + 8 * i

/-- PWR_DVFS_STATUS: [25:18] VOFFSET, [17:8] VCORE_MV, [3:0] LEVEL. -/
def pwrDvfsStatus (i : Nat) : Nat := 0x9040 + 4 * i

/-- PWR_PKG_POWER: [11:0] WATTS. -/
def pwrPkgPower : Nat := 0x9050

/-- PWR_TEMP_MAX: [31:24] HBM, [23:16] IOD, [15:8] COMPUTE. -/
def pwrTempMax : Nat := 0x9054

/-- PWR_THROTTLE_MS: 48-bit counter. -/
def pwrThrottleMs : Nat := 0x9100

/-- PWR_DVFS_STEPS: 48-bit counter. -/
def pwrDvfsSteps : Nat := 0x9108

/-- PWR_CAP_ASSERTS: 48-bit counter. -/
def pwrCapAsserts : Nat := 0x9110

/-- TILE_SHARE: 48-bit counter. -/
def tileShare (t i : Nat) : Nat := indBlock t + 0x400 + 8 * i

/-- DEV_D2D_CNT: 48-bit counter. -/
def devD2dCnt (d i j k : Nat) : Nat := dieBlock d + 0x4000 + 512 * i + 16 * j + 8 * k

/-- WAIT_SAMPLE: [31:0] SAMPLE. -/
def waitSample (d i j : Nat) : Nat := dieBlock d + 0x3000 + 8 * i + 4 * j

/-- CTX_IND_ADDR: [31:24] BLOCK, [15:0] OFFSET. -/
def ctxIndAddr (c : Nat) : Nat := ctxWindow c + 0x410

/-- CTX_IND_DATA: [31:0] DATA. -/
def ctxIndData (c : Nat) : Nat := ctxWindow c + 0x414

end Reg

/-- Table 14.5. -/
def regsDev : List RegDef := [
  ⟨"DEV_D2D_STATUS", .pkg, 0x60, [(8, 4)], .word, [⟨"MODULE_COUNT", 31, 24, .ro, 0⟩, ⟨"IN_SERVICE", 23, 16, .live, 0⟩, ⟨"HALF_WIDTH", 15, 8, .live, 0⟩, ⟨"RSV", 7, 6, .rsv, 0⟩, ⟨"RATE", 5, 5, .live, 0⟩, ⟨"LANE_REVERSED", 4, 4, .ro, 0⟩, ⟨"CTL_MODULE", 3, 0, .live, 0⟩]⟩,
  ⟨"DEV_ROLE", .pkg, 0x40, [], .pair, [⟨"RSV", 31, 20, .rsv, 0⟩, ⟨"STATE", 19, 16, .live, 0⟩, ⟨"RSV", 15, 12, .rsv, 0⟩, ⟨"MIRROR_FENCED", 11, 11, .live, 0⟩, ⟨"IB_PRESENT", 10, 10, .live, 0⟩, ⟨"IA_PRESENT", 9, 9, .live, 0⟩, ⟨"ID_MODE_NEXT", 8, 8, .rwg, 0⟩, ⟨"ID_MODE_NOW", 7, 7, .ro, 0⟩, ⟨"RSV", 6, 4, .rsv, 0⟩, ⟨"PORT_DIE", 3, 2, .ro, 0⟩, ⟨"RSV", 1, 0, .rsv, 0⟩]⟩,
  ⟨"DEV_GEN", .pkg, 0x48, [], .word, [⟨"RSV", 31, 24, .rsv, 0⟩, ⟨"NEG_GEN", 23, 16, .ro, 0⟩, ⟨"IOD_GEN", 15, 8, .ro, 0⟩, ⟨"CMP_GEN", 7, 0, .ro, 0⟩]⟩,
  ⟨"DEV_CAPS", .pkg, 0x4c, [], .word, [⟨"NEG_CAPS", 31, 0, .ro, 0⟩]⟩,
  ⟨"DEV_CLK_STATUS", .pkg, 0x50, [], .word, [⟨"RSV", 31, 22, .rsv, 0⟩, ⟨"HOLDOVER", 21, 16, .live, 0⟩, ⟨"RSV", 15, 14, .rsv, 0⟩, ⟨"CLK_LOST", 13, 8, .live, 0⟩, ⟨"RSV", 7, 6, .rsv, 0⟩, ⟨"LOCKED", 5, 0, .live, 0⟩]⟩,
  ⟨"DEV_SIGNATURE", .pkg, 0x0, [], .word, [⟨"SIG", 31, 0, .ro, 1397508929⟩]⟩,
  ⟨"DEV_IDENT_STATUS", .pkg, 0x4, [], .word, [⟨"RSV", 31, 16, .rsv, 0⟩, ⟨"STEPPING", 15, 8, .ro, 0⟩, ⟨"PKG_ID_VALID", 7, 7, .ro, 0⟩, ⟨"RSV", 6, 6, .rsv, 0⟩, ⟨"DIE_ID_VALID", 5, 0, .ro, 0⟩]⟩,
  ⟨"DEV_ORDER_CODE", .pkg, 0x10, [(4, 4)], .word, [⟨"CODE", 31, 0, .ro, 0⟩]⟩,
  ⟨"DEV_PKG_ID", .pkg, 0x20, [(4, 4)], .word, [⟨"ID", 31, 0, .ro, 0⟩]⟩,
  ⟨"DEV_DIE_ID", .pkg, 0x80, [(6, 32), (8, 4)], .word, [⟨"ID", 31, 0, .ro, 0⟩]⟩,
  ⟨"DEV_ADMIN", .pkg, 0x200, [], .pair, [⟨"RSV", 31, 4, .rsv, 0⟩, ⟨"PORTS", 3, 0, .rwg, 0⟩]⟩,
  ⟨"DEV_EVT_BASE_LO", .pkg, 0x210, [], .word, [⟨"BASE", 31, 5, .rw, 0⟩, ⟨"RSV", 4, 0, .rsv, 0⟩]⟩,
  ⟨"DEV_EVT_BASE_HI", .pkg, 0x214, [], .word, [⟨"BASE", 31, 0, .rw, 0⟩]⟩,
  ⟨"DEV_EVT_CTRL", .pkg, 0x218, [], .word, [⟨"ENABLE", 31, 31, .rw, 0⟩, ⟨"PORT", 30, 29, .rw, 0⟩, ⟨"RSV", 28, 5, .rsv, 0⟩, ⟨"SIZE_LOG2", 4, 0, .rw, 8⟩]⟩,
  ⟨"DEV_EVT_CONS", .pkg, 0x21c, [], .word, [⟨"CONS", 31, 0, .rw, 0⟩]⟩,
  ⟨"DEV_EVT_PROD", .pkg, 0x220, [], .word, [⟨"PROD", 31, 0, .ro, 0⟩]⟩,
  ⟨"DEV_EVT_LOST", .pkg, 0x300, [], .counter, []⟩,
  ⟨"DEV_REG_REFUSED", .pkg, 0x308, [], .counter, []⟩]

/-- Tables 2.9 to 2.13, 3.11, 4.9, 6.12. -/
def regsTile1 : List RegDef := [
  ⟨"TILE_ARRAY_STATUS", .tile, 0x0, [], .word, [⟨"STATE", 31, 30, .live, 0⟩, ⟨"RSV", 29, 22, .rsv, 0⟩, ⟨"ARRAY_WIDTH", 21, 16, .ro, 0⟩, ⟨"RSV", 15, 11, .rsv, 0⟩, ⟨"RESIDUE_UC", 10, 10, .live, 0⟩, ⟨"KEEPER_FILL", 9, 9, .live, 0⟩, ⟨"RAMP_LIMIT", 8, 8, .live, 0⟩, ⟨"RSV", 7, 5, .rsv, 0⟩, ⟨"DRAIN_BUSY", 4, 4, .live, 0⟩, ⟨"PIPE_BUSY", 3, 3, .live, 0⟩, ⟨"LOADING", 2, 2, .live, 0⟩, ⟨"BANK1_VALID", 1, 1, .live, 0⟩, ⟨"BANK0_VALID", 0, 0, .live, 0⟩]⟩,
  ⟨"TILE_COL_MAP", .tile, 0x4, [], .word, [⟨"BYPASS", 31, 0, .ro, 0⟩]⟩,
  ⟨"TILE_COL_FORCE", .tile, 0x8, [], .pair, [⟨"FORCE", 31, 0, .rwg, 0⟩]⟩,
  ⟨"TILE_BLOCKS", .tile, 0x40, [], .counter, []⟩,
  ⟨"TILE_DUMMY", .tile, 0x48, [], .counter, []⟩,
  ⟨"TILE_B_WAIT", .tile, 0x50, [], .counter, []⟩,
  ⟨"TILE_LOADER_STALL", .tile, 0x58, [], .counter, []⟩,
  ⟨"TILE_SET_WAIT", .tile, 0x60, [], .counter, []⟩,
  ⟨"TILE_FEED_STALL", .tile, 0x68, [], .counter, []⟩,
  ⟨"TILE_RAMP_STALL", .tile, 0x70, [], .counter, []⟩,
  ⟨"TILE_RESIDUE_REPLAY", .tile, 0x78, [], .counter, []⟩,
  ⟨"TILE_RESIDUE_UC", .tile, 0x80, [], .counter, []⟩,
  ⟨"TILE_STICKY", .tile, 0x88, [], .counter, []⟩,
  ⟨"TILE_INT_SAT", .tile, 0x90, [], .counter, []⟩,
  ⟨"TILE_DESC_REJECT", .tile, 0x98, [], .counter, []⟩,
  ⟨"TILE_COL_RESIDUE", .tile, 0xa0, [(32, 8)], .counter, []⟩,
  ⟨"TILE_CONV_CTRL", .tile, 0x10, [], .word, [⟨"RSV", 31, 6, .rsv, 0⟩, ⟨"DST_SCALE", 5, 4, .rw, 0⟩, ⟨"RSV", 3, 1, .rsv, 0⟩, ⟨"INF_MODE", 0, 0, .rw, 0⟩]⟩,
  ⟨"TILE_VEC_STATUS", .tile, 0x200, [], .word, [⟨"RSV", 31, 2, .rsv, 0⟩, ⟨"WAITING", 1, 1, .live, 0⟩, ⟨"BUSY", 0, 0, .live, 0⟩]⟩,
  ⟨"TILE_VEC_MB", .tile, 0x204, [], .word, [⟨"RSV", 31, 16, .rsv, 0⟩, ⟨"MB_ID", 15, 0, .ro, 0⟩]⟩,
  ⟨"TILE_SHARE_MAP_LO", .tile, 0x208, [], .word, [⟨"KIND_0_7", 31, 0, .rw, 290592085⟩]⟩]

/-- Tables 2.9 to 2.13, 3.11, 4.9, 6.12. -/
def regsTile2 : List RegDef := [
  ⟨"TILE_SHARE_MAP_HI", .tile, 0x20c, [], .word, [⟨"KIND_8_F", 31, 0, .rw, 1431655697⟩]⟩,
  ⟨"TILE_VEC_INSTR", .tile, 0x300, [], .counter, []⟩,
  ⟨"TILE_VEC_REJECT", .tile, 0x308, [], .counter, []⟩,
  ⟨"TILE_SFU_RESULTS", .tile, 0x310, [], .counter, []⟩,
  ⟨"TILE_VEC_ORDER_WAIT", .tile, 0x318, [], .counter, []⟩,
  ⟨"TILE_SCR_STATUS", .tile, 0xa00, [], .word, [⟨"RSV", 31, 24, .rsv, 0⟩, ⟨"BANKS_NO_SPARE", 23, 16, .live, 0⟩, ⟨"SPARES_USED", 15, 8, .live, 0⟩, ⟨"RSV", 7, 1, .rsv, 0⟩, ⟨"CLEARING", 0, 0, .live, 0⟩]⟩,
  ⟨"TILE_MOVE_CTRL", .tile, 0xa04, [], .word, [⟨"ENABLE", 31, 31, .rw, 0⟩, ⟨"RSV", 30, 24, .rsv, 0⟩, ⟨"SIZE_LOG2", 23, 20, .rw, 4⟩, ⟨"BASE", 19, 0, .rw, 0⟩]⟩,
  ⟨"TILE_MOVE_CONS", .tile, 0xa08, [], .word, [⟨"CONS", 31, 0, .ro, 0⟩]⟩,
  ⟨"TILE_SCR_CE", .tile, 0xa40, [], .counter, []⟩,
  ⟨"TILE_SCR_UE", .tile, 0xa48, [], .counter, []⟩,
  ⟨"TILE_SCR_AGED", .tile, 0xa50, [], .counter, []⟩,
  ⟨"TILE_MOVE_BYTES", .tile, 0xa58, [], .counter, []⟩,
  ⟨"TILE_SHARE", .tile, 0x400, [(192, 8)], .counter, []⟩]

/-- Tables 2.12 and 6.13. -/
def regsCdie : List RegDef := [
  ⟨"TILE_KEEPER", .cdie, 0x10, [], .pair, [⟨"ENABLE", 31, 31, .rwg, 1⟩, ⟨"RSV", 30, 26, .rsv, 0⟩, ⟨"FILL_MAX", 25, 16, .rwg, 256⟩, ⟨"RSV", 15, 13, .rsv, 0⟩, ⟨"RAMP_INTERVAL", 12, 8, .rwg, 8⟩, ⟨"RSV", 7, 4, .rsv, 0⟩, ⟨"RAMP_STEP", 3, 0, .rwg, 1⟩]⟩,
  ⟨"MEM_STACK_STATUS", .cdie, 0x1000, [(4, 256)], .word, [⟨"STATE", 31, 30, .live, 0⟩, ⟨"RATE", 29, 29, .live, 0⟩, ⟨"RSV", 28, 20, .rsv, 0⟩, ⟨"TEMP", 19, 12, .live, 0⟩, ⟨"SOFT_PENDING", 11, 0, .live, 0⟩]⟩,
  ⟨"MEM_CE", .cdie, 0x1008, [(4, 256)], .counter, []⟩,
  ⟨"MEM_UE", .cdie, 0x1010, [(4, 256)], .counter, []⟩,
  ⟨"MEM_PPR_SOFT", .cdie, 0x1018, [(4, 256)], .counter, []⟩,
  ⟨"MEM_PPR_HARD", .cdie, 0x1020, [(4, 256)], .counter, []⟩,
  ⟨"MEM_SCRUB_PASSES", .cdie, 0x1028, [(4, 256)], .counter, []⟩,
  ⟨"MEM_LAT_MISS", .cdie, 0x1030, [(4, 256)], .counter, []⟩,
  ⟨"MEM_QUARRY_READS", .cdie, 0x1038, [(4, 256)], .counter, []⟩,
  ⟨"MEM_PRIO_CTRL", .cdie, 0x1400, [], .pair, [⟨"RSV", 31, 24, .rsv, 0⟩, ⟨"AGE", 23, 16, .rwg, 100⟩, ⟨"W1", 15, 12, .rwg, 8⟩, ⟨"W2", 11, 8, .rwg, 4⟩, ⟨"W3", 7, 4, .rwg, 1⟩, ⟨"RSV", 3, 0, .rsv, 0⟩]⟩,
  ⟨"MEM_SCRUB_CTRL", .cdie, 0x1408, [], .pair, [⟨"ENABLE", 31, 31, .rwg, 1⟩, ⟨"RSV", 30, 8, .rsv, 0⟩, ⟨"PASS_HOURS", 7, 0, .rwg, 8⟩]⟩,
  ⟨"MEM_RETIRE_FORCE", .cdie, 0x1410, [], .pair, [⟨"RSV", 31, 17, .rsv, 0⟩, ⟨"PAGE", 16, 0, .rwg, 0⟩]⟩,
  ⟨"MEM_RETIRED", .cdie, 0x1420, [], .word, [⟨"RSV", 31, 13, .rsv, 0⟩, ⟨"COUNT", 12, 0, .ro, 0⟩]⟩,
  ⟨"MEM_ACCESS_VIOL", .cdie, 0x1440, [], .counter, []⟩,
  ⟨"MEM_ZERO_BYTES", .cdie, 0x1448, [], .counter, []⟩]

/-- Table 4.11. -/
def regsCNum : List RegDef := [
  ⟨"CTX_RNG_SEED_LO", .ctx, 0x100, [], .pair, [⟨"SEED_LO", 31, 0, .rwg, 0⟩]⟩,
  ⟨"CTX_RNG_SEED_HI", .ctx, 0x108, [], .pair, [⟨"SEED_HI", 31, 0, .rwg, 0⟩]⟩,
  ⟨"CTX_RNG_SEED_ACT_LO", .ctx, 0x110, [], .word, [⟨"SEED_LO", 31, 0, .ro, 0⟩]⟩,
  ⟨"CTX_RNG_SEED_ACT_HI", .ctx, 0x114, [], .word, [⟨"SEED_HI", 31, 0, .ro, 0⟩]⟩,
  ⟨"CTX_UPD_STEP", .ctx, 0x118, [], .word, [⟨"STEP", 31, 0, .ro, 0⟩]⟩,
  ⟨"CTX_SHARE_BASE_LO", .ctx, 0x120, [], .word, [⟨"BASE", 31, 11, .rw, 0⟩, ⟨"RSV", 10, 0, .rsv, 0⟩]⟩,
  ⟨"CTX_SHARE_BASE_HI", .ctx, 0x124, [], .word, [⟨"RSV", 31, 9, .rsv, 0⟩, ⟨"BASE", 8, 0, .rw, 0⟩]⟩,
  ⟨"CTX_SHARE_CTRL", .ctx, 0x128, [], .word, [⟨"ENABLE", 31, 31, .rw, 0⟩, ⟨"RSV", 30, 9, .rsv, 0⟩, ⟨"SIZE", 8, 0, .rw, 16⟩]⟩,
  ⟨"CTX_SHARE_PROD", .ctx, 0x12c, [], .word, [⟨"RSV", 31, 16, .rsv, 0⟩, ⟨"PROD", 15, 0, .ro, 0⟩]⟩,
  ⟨"CTX_SHARE_CONS", .ctx, 0x130, [], .word, [⟨"RSV", 31, 16, .rsv, 0⟩, ⟨"CONS", 15, 0, .rw, 0⟩]⟩,
  ⟨"CTX_SHARE_LOST", .ctx, 0x138, [], .counter, []⟩,
  ⟨"CTX_RETIRE_WAIT", .ctx, 0x140, [], .counter, []⟩]

/-- Tables 5.19 to 5.21. -/
def regsStrata : List RegDef := [
  ⟨"STRATA_CTRL", .pkg, 0x2000, [], .pair, [⟨"RSV", 31, 5, .rsv, 0⟩, ⟨"SOURCE", 4, 4, .rwg, 0⟩, ⟨"CMD", 3, 0, .rwg, 0⟩]⟩,
  ⟨"STRATA_STATUS", .pkg, 0x2008, [], .word, [⟨"VAL_RESULT", 31, 24, .ro, 0⟩, ⟨"IN_STATE", 23, 21, .live, 0⟩, ⟨"PREV_VALID", 20, 20, .live, 0⟩, ⟨"CUR_VALID", 19, 19, .live, 0⟩, ⟨"ARMED", 18, 16, .live, 0⟩, ⟨"FW_UNCOMMITTED", 15, 15, .live, 0⟩, ⟨"ACTIVATING", 14, 14, .live, 0⟩, ⟨"REVERTED", 13, 13, .live, 0⟩, ⟨"RSV", 12, 0, .rsv, 0⟩]⟩,
  ⟨"STRATA_SRC_LO", .pkg, 0x2010, [], .word, [⟨"ADDR", 31, 0, .rw, 0⟩]⟩,
  ⟨"STRATA_SRC_HI", .pkg, 0x2014, [], .word, [⟨"ADDR", 31, 0, .rw, 0⟩]⟩,
  ⟨"STRATA_SRC_LEN", .pkg, 0x2018, [], .word, [⟨"LEN", 31, 0, .rw, 0⟩]⟩,
  ⟨"STRATA_ARM_LT_LO", .pkg, 0x2020, [], .word, [⟨"LT", 31, 0, .rw, 0⟩]⟩,
  ⟨"STRATA_ARM_LT_HI", .pkg, 0x2024, [], .word, [⟨"LT", 31, 0, .rw, 0⟩]⟩,
  ⟨"STRATA_GEN_CUR", .pkg, 0x2028, [], .word, [⟨"GEN", 31, 0, .ro, 0⟩]⟩,
  ⟨"STRATA_GEN_PREV", .pkg, 0x202c, [], .word, [⟨"GEN", 31, 0, .ro, 0⟩]⟩,
  ⟨"STRATA_GEN_IN", .pkg, 0x2030, [], .word, [⟨"GEN", 31, 0, .ro, 0⟩]⟩,
  ⟨"STRATA_GROUP_GEN", .pkg, 0x2034, [], .word, [⟨"GEN", 31, 0, .ro, 0⟩]⟩,
  ⟨"STRATA_LOADS", .pkg, 0x2040, [], .counter, []⟩,
  ⟨"STRATA_VAL_FAIL", .pkg, 0x2048, [], .counter, []⟩,
  ⟨"STRATA_ACTIVATIONS", .pkg, 0x2050, [], .counter, []⟩,
  ⟨"STRATA_CMD_REFUSED", .pkg, 0x2058, [], .counter, []⟩,
  ⟨"STRATA_SWITCHES", .pkg, 0x2060, [], .counter, []⟩,
  ⟨"STRATA_SWITCH_LATE", .pkg, 0x2068, [], .counter, []⟩]

/-- Table 5.22. -/
def regsCPhase : List RegDef := [
  ⟨"STRATA_CTX_PHASE", .ctx, 0x400, [], .word, [⟨"RSV", 31, 11, .rsv, 0⟩, ⟨"SHADOW_READY", 10, 10, .live, 0⟩, ⟨"LATE", 9, 9, .live, 0⟩, ⟨"SWAPPING", 8, 8, .live, 0⟩, ⟨"PEND_VALID", 7, 7, .live, 0⟩, ⟨"PENDING", 6, 4, .ro, 0⟩, ⟨"RSV", 3, 3, .rsv, 0⟩, ⟨"ACTIVE", 2, 0, .ro, 0⟩]⟩]

/-- Table 7.17. -/
def regsFab1 : List RegDef := [
  ⟨"FAB_NODE", .pkg, 0x3000, [], .pair, [⟨"VALID", 31, 31, .rwg, 0⟩, ⟨"RSV", 30, 23, .rsv, 0⟩, ⟨"NODE_ID", 22, 0, .rwg, 8388607⟩]⟩,
  ⟨"FAB_TORUS", .pkg, 0x3008, [], .pair, [⟨"RSV", 31, 23, .rsv, 0⟩, ⟨"DZ_M1", 22, 16, .rwg, 0⟩, ⟨"DY_M1", 15, 8, .rwg, 0⟩, ⟨"DX_M1", 7, 0, .rwg, 0⟩]⟩,
  ⟨"FAB_CTRL", .pkg, 0x3010, [], .pair, [⟨"ADAPT_EN", 31, 31, .rwg, 1⟩, ⟨"RSV", 30, 24, .rsv, 0⟩, ⟨"BARRIER_K", 23, 12, .rwg, 32⟩, ⟨"REQ_TIMEOUT", 11, 0, .rwg, 1000⟩]⟩,
  ⟨"FAB_ARB", .pkg, 0x3018, [], .pair, [⟨"RSV", 31, 4, .rsv, 0⟩, ⟨"LOW_SHARE", 3, 0, .rwg, 8⟩]⟩,
  ⟨"FAB_VC_CREDIT", .pkg, 0x3040, [(8, 8)], .pair, [⟨"ADP", 31, 16, .rwg, 2048⟩, ⟨"ESC", 15, 0, .rwg, 2048⟩]⟩,
  ⟨"FAB_SPUR_MATCH", .pkg, 0x3100, [(16, 32)], .pair, [⟨"VALID", 31, 31, .rwg, 0⟩, ⟨"RSV", 30, 23, .rsv, 0⟩, ⟨"MATCH", 22, 0, .rwg, 0⟩]⟩,
  ⟨"FAB_SPUR_MASK", .pkg, 0x3108, [(16, 32)], .pair, [⟨"RSV", 31, 23, .rsv, 0⟩, ⟨"MASK", 22, 0, .rwg, 0⟩]⟩,
  ⟨"FAB_SPUR_GW", .pkg, 0x3110, [(16, 32)], .pair, [⟨"RSV", 31, 25, .rsv, 0⟩, ⟨"PORT", 24, 24, .rwg, 0⟩, ⟨"RSV", 23, 23, .rsv, 0⟩, ⟨"GATEWAY", 22, 0, .rwg, 0⟩]⟩,
  ⟨"FAB_PORT_STATUS", .pkg, 0x3400, [(8, 32)], .word, [⟨"STATE", 31, 28, .live, 0⟩, ⟨"TX_WIDTH", 27, 26, .live, 0⟩, ⟨"RX_WIDTH", 25, 24, .live, 0⟩, ⟨"LANES_FAILED", 23, 19, .live, 0⟩, ⟨"REVERSED", 18, 18, .live, 0⟩, ⟨"ENC_ON", 17, 17, .live, 0⟩, ⟨"RSV", 16, 16, .rsv, 0⟩, ⟨"PEER_PORTS", 15, 8, .live, 0⟩, ⟨"RSV", 7, 0, .rsv, 0⟩]⟩,
  ⟨"FAB_PORT_PEER", .pkg, 0x3404, [(8, 32)], .word, [⟨"RSV", 31, 26, .rsv, 0⟩, ⟨"PEER_PORT", 25, 23, .live, 0⟩, ⟨"PEER_NODE", 22, 0, .live, 8388607⟩]⟩,
  ⟨"FAB_PORT_CTRL", .pkg, 0x3408, [(8, 32)], .pair, [⟨"RSV", 31, 3, .rsv, 0⟩, ⟨"ENC_REQ", 2, 2, .rwg, 0⟩, ⟨"CMD", 1, 0, .rwg, 0⟩]⟩,
  ⟨"FAB_LANE_USE", .pkg, 0x3410, [(8, 32)], .word, [⟨"RSV", 31, 18, .rsv, 0⟩, ⟨"IN_USE", 17, 0, .live, 0⟩]⟩,
  ⟨"FAB_LANE_FAIL", .pkg, 0x3414, [(8, 32)], .word, [⟨"RSV", 31, 18, .rsv, 0⟩, ⟨"FAILED", 17, 0, .live, 0⟩]⟩,
  ⟨"FAB_PORT_RTT", .pkg, 0x3418, [(8, 32)], .word, [⟨"RSV", 31, 24, .rsv, 0⟩, ⟨"RTT", 23, 0, .live, 0⟩]⟩,
  ⟨"FAB_STALE_DROP", .pkg, 0x3600, [], .counter, []⟩,
  ⟨"FAB_TIMEOUT", .pkg, 0x3608, [], .counter, []⟩,
  ⟨"FAB_UNREACH", .pkg, 0x3610, [], .counter, []⟩,
  ⟨"FAB_DETOURS", .pkg, 0x3618, [], .counter, []⟩,
  ⟨"FAB_BARRIER_MISS", .pkg, 0x3620, [], .counter, []⟩,
  ⟨"FAB_ECRC_ERR", .pkg, 0x3628, [], .counter, []⟩]

/-- Table 7.17. -/
def regsFab2 : List RegDef := [
  ⟨"FAB_XDIE_STALL", .pkg, 0x3630, [], .counter, []⟩,
  ⟨"FAB_FWD_PKTS", .pkg, 0x3638, [], .counter, []⟩,
  ⟨"FAB_BRIDGE_BYTES", .pkg, 0x3640, [], .counter, []⟩]

/-- Table 7.18, R363. -/
def regsIodie : List RegDef := [
  ⟨"FAB_TX_FLITS", .iodie, 0x2000, [(4, 64)], .counter, []⟩,
  ⟨"FAB_RX_FLITS", .iodie, 0x2008, [(4, 64)], .counter, []⟩,
  ⟨"FAB_REPLAYS", .iodie, 0x2010, [(4, 64)], .counter, []⟩,
  ⟨"FAB_FEC_CORR", .iodie, 0x2018, [(4, 64)], .counter, []⟩,
  ⟨"FAB_FEC_UNCORR", .iodie, 0x2020, [(4, 64)], .counter, []⟩,
  ⟨"FAB_LANE_SWAPS", .iodie, 0x2028, [(4, 64)], .counter, []⟩,
  ⟨"FAB_AUTH_FAIL", .iodie, 0x2030, [(4, 64)], .counter, []⟩,
  ⟨"FAB_RETRAINS", .iodie, 0x2038, [(4, 64)], .counter, []⟩,
  ⟨"FAB_LANE_SYM", .iodie, 0x2400, [(4, 256), (32, 8)], .counter, []⟩,
  ⟨"WAIT_SAMPLE", .iodie, 0x3000, [(284, 8), (2, 4)], .word, [⟨"SAMPLE", 31, 0, .live, 0⟩]⟩]

/-- Table 8.7. -/
def regsCCairn : List RegDef := [
  ⟨"CTX_CAIRN_LT_LO", .ctx, 0x1000, [(64, 32)], .word, [⟨"LT", 31, 0, .rw, 0⟩]⟩,
  ⟨"CTX_CAIRN_LT_HI", .ctx, 0x1004, [(64, 32)], .word, [⟨"LT", 31, 0, .rw, 0⟩]⟩,
  ⟨"CTX_CAIRN_ARG", .ctx, 0x1008, [(64, 32)], .word, [⟨"ARG", 31, 0, .rw, 0⟩]⟩,
  ⟨"CTX_CAIRN_CTRL", .ctx, 0x100c, [(64, 32)], .word, [⟨"CMD", 31, 30, .rw, 0⟩, ⟨"RSV", 29, 26, .rsv, 0⟩, ⟨"STATE", 25, 24, .live, 0⟩, ⟨"RSV", 23, 20, .rsv, 0⟩, ⟨"RESULT", 19, 16, .live, 0⟩, ⟨"RSV", 15, 10, .rsv, 0⟩, ⟨"EVT", 9, 9, .rw, 0⟩, ⟨"POLICY", 8, 8, .rw, 0⟩, ⟨"ACTION", 7, 0, .rw, 0⟩]⟩,
  ⟨"CTX_CAIRN_ARMED_LO", .ctx, 0x1800, [], .word, [⟨"ARMED", 31, 0, .live, 0⟩]⟩,
  ⟨"CTX_CAIRN_ARMED_HI", .ctx, 0x1804, [], .word, [⟨"ARMED", 31, 0, .live, 0⟩]⟩]

/-- Table 8.8. -/
def regsLode : List RegDef := [
  ⟨"LODE_CTRL", .pkg, 0x4000, [], .pair, [⟨"CANDIDATE", 31, 31, .rwg, 0⟩, ⟨"CMD", 30, 29, .rwg, 0⟩, ⟨"RSV", 28, 24, .rsv, 0⟩, ⟨"TICK", 23, 12, .rwg, 256⟩, ⟨"CLAIM_WAIT", 11, 0, .rwg, 64⟩]⟩,
  ⟨"LODE_STATUS", .pkg, 0x4010, [], .word, [⟨"STATE", 31, 28, .live, 0⟩, ⟨"UP_PORT", 27, 24, .live, 15⟩, ⟨"HOPS", 23, 16, .live, 0⟩, ⟨"RSV", 15, 13, .rsv, 0⟩, ⟨"TIMING_DIE", 12, 12, .live, 0⟩, ⟨"STEADY", 11, 11, .live, 0⟩, ⟨"FINE", 10, 10, .live, 0⟩, ⟨"RSV", 9, 0, .rsv, 0⟩]⟩,
  ⟨"LODE_SRC", .pkg, 0x4014, [], .word, [⟨"RSV", 31, 23, .rsv, 0⟩, ⟨"SRC", 22, 0, .live, 8388607⟩]⟩,
  ⟨"LODE_NOW_LO", .pkg, 0x4018, [], .word, [⟨"COUNT", 31, 0, .ro, 0⟩]⟩,
  ⟨"LODE_NOW_HI", .pkg, 0x401c, [], .word, [⟨"COUNT", 31, 0, .ro, 0⟩]⟩,
  ⟨"LODE_PHASE", .pkg, 0x4020, [], .word, [⟨"RSV", 31, 18, .rsv, 0⟩, ⟨"PHASE", 17, 0, .ro, 0⟩]⟩,
  ⟨"LODE_OFFSET", .pkg, 0x4024, [], .word, [⟨"THETA", 31, 0, .live, 0⟩]⟩,
  ⟨"LODE_REBASES", .pkg, 0x4040, [], .counter, []⟩,
  ⟨"LODE_PARENT_CHANGES", .pkg, 0x4048, [], .counter, []⟩,
  ⟨"LODE_HOLDOVERS", .pkg, 0x4050, [], .counter, []⟩,
  ⟨"LODE_CAIRN_TAKEN", .pkg, 0x4058, [], .counter, []⟩,
  ⟨"LODE_CAIRN_LATE", .pkg, 0x4060, [], .counter, []⟩,
  ⟨"LODE_CAIRN_DROPPED", .pkg, 0x4068, [], .counter, []⟩]

/-- Table 9.13. -/
def regsCColl : List RegDef := [
  ⟨"CTX_COLL_BASE_LO", .ctx, 0x200, [], .word, [⟨"BASE", 31, 7, .rw, 0⟩, ⟨"RSV", 6, 0, .rsv, 0⟩]⟩,
  ⟨"CTX_COLL_BASE_HI", .ctx, 0x204, [], .word, [⟨"RSV", 31, 9, .rsv, 0⟩, ⟨"BASE", 8, 0, .rw, 0⟩]⟩,
  ⟨"CTX_COLL_SIZE", .ctx, 0x208, [], .word, [⟨"RSV", 31, 17, .rsv, 0⟩, ⟨"ENTRIES", 16, 0, .rw, 0⟩]⟩,
  ⟨"CTX_COLL_CTRL", .ctx, 0x20c, [], .word, [⟨"COMMIT_SEM", 31, 28, .rw, 0⟩, ⟨"COMMIT_SEM_EN", 27, 27, .rw, 0⟩, ⟨"RESEND_LT", 26, 19, .rw, 32⟩, ⟨"DATA_LIMIT", 18, 3, .rw, 4096⟩, ⟨"RSV", 2, 0, .rsv, 0⟩]⟩,
  ⟨"CTX_COLL_REQ_LO", .ctx, 0x210, [], .word, [⟨"REQ", 31, 0, .rw, 0⟩]⟩,
  ⟨"CTX_COLL_REQ_HI", .ctx, 0x214, [], .word, [⟨"REQ", 31, 0, .rw, 0⟩]⟩,
  ⟨"CTX_COLL_CLOSED_LO", .ctx, 0x218, [], .word, [⟨"CLOSED", 31, 0, .live, 0⟩]⟩,
  ⟨"CTX_COLL_CLOSED_HI", .ctx, 0x21c, [], .word, [⟨"CLOSED", 31, 0, .live, 0⟩]⟩,
  ⟨"CTX_COLL_DONE_LO", .ctx, 0x220, [], .word, [⟨"DONE", 31, 0, .live, 0⟩]⟩,
  ⟨"CTX_COLL_DONE_HI", .ctx, 0x224, [], .word, [⟨"DONE", 31, 0, .live, 0⟩]⟩,
  ⟨"CTX_COMMIT", .ctx, 0x228, [], .word, [⟨"STATUS", 31, 28, .ro, 0⟩, ⟨"BIT", 27, 22, .ro, 0⟩, ⟨"RSV", 21, 0, .rsv, 0⟩]⟩,
  ⟨"CTX_COMMIT_STEP", .ctx, 0x22c, [], .word, [⟨"STEP", 31, 0, .ro, 0⟩]⟩]

/-- Table 9.14. -/
def regsColl : List RegDef := [
  ⟨"COLL_STATUS", .pkg, 0x5000, [], .word, [⟨"RSV", 31, 8, .rsv, 0⟩, ⟨"BUSY", 7, 4, .live, 0⟩, ⟨"IN_SERVICE", 3, 0, .live, 0⟩]⟩,
  ⟨"COLL_OPENINGS", .pkg, 0x5040, [], .counter, []⟩,
  ⟨"COLL_REPORTS_LATE", .pkg, 0x5048, [], .counter, []⟩,
  ⟨"COLL_INCOMPLETE", .pkg, 0x5050, [], .counter, []⟩,
  ⟨"COLL_NONFINITE", .pkg, 0x5058, [], .counter, []⟩,
  ⟨"COLL_RESENDS", .pkg, 0x5060, [], .counter, []⟩,
  ⟨"COLL_STALE_DROP", .pkg, 0x5068, [], .counter, []⟩,
  ⟨"COLL_WORD_WAIT", .pkg, 0x5070, [], .counter, []⟩,
  ⟨"COLL_TOKX_DROPPED", .pkg, 0x5078, [], .counter, []⟩,
  ⟨"COLL_RESHARD_BYTES", .pkg, 0x5080, [], .counter, []⟩]

/-- Tables 10.12 and 10.13. -/
def regsCPipe1 : List RegDef := [
  ⟨"CTX_PIPE_BASE_LO", .ctx, 0x800, [], .word, [⟨"BASE", 31, 8, .rw, 0⟩, ⟨"RSV", 7, 0, .rsv, 0⟩]⟩,
  ⟨"CTX_PIPE_BASE_HI", .ctx, 0x804, [], .word, [⟨"RSV", 31, 9, .rsv, 0⟩, ⟨"BASE", 8, 0, .rw, 0⟩]⟩,
  ⟨"CTX_PIPE_CTRL", .ctx, 0x808, [], .word, [⟨"ENABLE", 31, 31, .rw, 0⟩, ⟨"CMD", 30, 28, .rw, 0⟩, ⟨"RSV", 27, 20, .rsv, 0⟩, ⟨"RETIRE_HOLD", 19, 0, .rw, 64⟩]⟩,
  ⟨"CTX_PIPE_STATUS", .ctx, 0x80c, [], .word, [⟨"STATE", 31, 30, .live, 0⟩, ⟨"RSV", 29, 24, .rsv, 0⟩, ⟨"PREV_LIVE", 23, 16, .live, 0⟩, ⟨"UPDATING", 15, 8, .live, 0⟩, ⟨"VS_VALID", 7, 0, .ro, 0⟩]⟩,
  ⟨"CTX_PIPE_DIVERGED", .ctx, 0x810, [], .word, [⟨"STEP", 31, 0, .ro, 4294967295⟩]⟩,
  ⟨"CTX_PIPE_CUR_STEP", .ctx, 0x840, [(8, 16)], .word, [⟨"STEP", 31, 0, .ro, 0⟩]⟩,
  ⟨"CTX_PIPE_PREV_STEP", .ctx, 0x844, [(8, 16)], .word, [⟨"STEP", 31, 0, .ro, 0⟩]⟩,
  ⟨"CTX_PIPE_REFS", .ctx, 0x848, [(8, 16)], .word, [⟨"PREV_REFS", 31, 16, .live, 0⟩, ⟨"CUR_REFS", 15, 0, .live, 0⟩]⟩,
  ⟨"CTX_PIPE_STASH", .ctx, 0x84c, [(8, 16)], .word, [⟨"SLOTS_USED", 31, 24, .live, 0⟩, ⟨"SCREE_BLOCKS", 23, 0, .live, 0⟩]⟩,
  ⟨"CTX_PIPE_FWD_BUSY", .ctx, 0xa00, [(8, 128)], .counter, []⟩,
  ⟨"CTX_PIPE_FWD_STARVE", .ctx, 0xa08, [(8, 128)], .counter, []⟩,
  ⟨"CTX_PIPE_FWD_OUT_STALL", .ctx, 0xa10, [(8, 128)], .counter, []⟩,
  ⟨"CTX_PIPE_BWD_BUSY", .ctx, 0xa18, [(8, 128)], .counter, []⟩,
  ⟨"CTX_PIPE_BWD_STARVE", .ctx, 0xa20, [(8, 128)], .counter, []⟩,
  ⟨"CTX_PIPE_BWD_OUT_STALL", .ctx, 0xa28, [(8, 128)], .counter, []⟩,
  ⟨"CTX_PIPE_VERSION_WAIT", .ctx, 0xa30, [(8, 128)], .counter, []⟩,
  ⟨"CTX_PIPE_GATHER_LT", .ctx, 0xa38, [(8, 128)], .counter, []⟩,
  ⟨"CTX_PIPE_SPILLS", .ctx, 0xa40, [(8, 128)], .counter, []⟩,
  ⟨"CTX_PIPE_DROPS", .ctx, 0xa48, [(8, 128)], .counter, []⟩,
  ⟨"CTX_PIPE_RECOMPUTES", .ctx, 0xa50, [(8, 128)], .counter, []⟩]

/-- Tables 10.12 and 10.13. -/
def regsCPipe2 : List RegDef := [
  ⟨"CTX_PIPE_PREV_USED", .ctx, 0xa58, [(8, 128)], .counter, []⟩,
  ⟨"CTX_PIPE_RESTARTS", .ctx, 0xa60, [(8, 128)], .counter, []⟩,
  ⟨"CTX_PIPE_UPDATES", .ctx, 0xa68, [(8, 128)], .counter, []⟩]

/-- Table 11.13. -/
def regsCHost1 : List RegDef := [
  ⟨"CTX_STATE", .ctx, 0x0, [], .word, [⟨"STATE", 31, 29, .live, 0⟩, ⟨"PORT", 28, 27, .live, 0⟩, ⟨"PORT_UP", 26, 26, .live, 0⟩, ⟨"RSV", 25, 0, .rsv, 0⟩]⟩,
  ⟨"CTX_GEN", .ctx, 0x4, [], .word, [⟨"GEN", 31, 0, .ro, 0⟩]⟩,
  ⟨"CTX_CTRL", .ctx, 0x8, [], .pair, [⟨"CMD", 31, 30, .rwg, 0⟩, ⟨"RSV", 29, 0, .rsv, 0⟩]⟩,
  ⟨"CTX_RUN_BASE_LO", .ctx, 0x10, [], .word, [⟨"BASE", 31, 6, .rw, 0⟩, ⟨"RSV", 5, 0, .rsv, 0⟩]⟩,
  ⟨"CTX_RUN_BASE_HI", .ctx, 0x14, [], .word, [⟨"BASE", 31, 0, .rw, 0⟩]⟩,
  ⟨"CTX_RUN_CTRL", .ctx, 0x18, [], .word, [⟨"ENABLE", 31, 31, .rw, 0⟩, ⟨"RSV", 30, 24, .rsv, 0⟩, ⟨"REACQ", 23, 16, .rw, 20⟩, ⟨"RSV", 15, 7, .rsv, 0⟩, ⟨"LINES", 6, 0, .rw, 16⟩]⟩,
  ⟨"CTX_RUN_NEXT", .ctx, 0x1c, [], .word, [⟨"SEQ", 31, 0, .ro, 0⟩]⟩,
  ⟨"CTX_CPL_BASE_LO", .ctx, 0x20, [], .word, [⟨"BASE", 31, 6, .rw, 0⟩, ⟨"RSV", 5, 0, .rsv, 0⟩]⟩,
  ⟨"CTX_CPL_BASE_HI", .ctx, 0x24, [], .word, [⟨"BASE", 31, 0, .rw, 0⟩]⟩,
  ⟨"CTX_CPL_CTRL", .ctx, 0x28, [], .word, [⟨"ENABLE", 31, 31, .rw, 0⟩, ⟨"RSV", 30, 5, .rsv, 0⟩, ⟨"SIZE_LOG2", 4, 0, .rw, 8⟩]⟩,
  ⟨"CTX_CPL_CONS", .ctx, 0x2c, [], .word, [⟨"CONS", 31, 0, .rw, 0⟩]⟩,
  ⟨"CTX_EVT_BASE_LO", .ctx, 0x30, [], .word, [⟨"BASE", 31, 5, .rw, 0⟩, ⟨"RSV", 4, 0, .rsv, 0⟩]⟩,
  ⟨"CTX_EVT_BASE_HI", .ctx, 0x34, [], .word, [⟨"BASE", 31, 0, .rw, 0⟩]⟩,
  ⟨"CTX_EVT_CTRL", .ctx, 0x38, [], .word, [⟨"ENABLE", 31, 31, .rw, 0⟩, ⟨"RSV", 30, 5, .rsv, 0⟩, ⟨"SIZE_LOG2", 4, 0, .rw, 8⟩]⟩,
  ⟨"CTX_EVT_CONS", .ctx, 0x3c, [], .word, [⟨"CONS", 31, 0, .rw, 0⟩]⟩,
  ⟨"CTX_EVT_PROD", .ctx, 0x40, [], .word, [⟨"PROD", 31, 0, .ro, 0⟩]⟩,
  ⟨"CTX_HCOH", .ctx, 0x44, [], .word, [⟨"ENABLE", 31, 31, .rw, 0⟩, ⟨"SIZE", 30, 20, .rw, 0⟩, ⟨"RSV", 19, 19, .rsv, 0⟩, ⟨"BASE", 18, 0, .rw, 0⟩]⟩,
  ⟨"CTX_RUNS_DONE", .ctx, 0x80, [], .counter, []⟩,
  ⟨"CTX_RUN_REFUSED", .ctx, 0x88, [], .counter, []⟩,
  ⟨"CTX_EVT_LOST", .ctx, 0x90, [], .counter, []⟩]

/-- Table 11.13. -/
def regsCHost2 : List RegDef := [
  ⟨"CTX_STALE_DROP", .ctx, 0x98, [], .counter, []⟩]

/-- Table 11.14. -/
def regsHp : List RegDef := [
  ⟨"DEV_HP_STATUS", .pkg, 0x1000, [(4, 64)], .word, [⟨"STATE", 31, 28, .live, 0⟩, ⟨"WIDTH", 27, 26, .live, 0⟩, ⟨"RATE", 25, 24, .live, 0⟩, ⟨"COH", 23, 23, .live, 0⟩, ⟨"COH_FENCED", 22, 22, .live, 0⟩, ⟨"RSV", 21, 0, .rsv, 0⟩]⟩,
  ⟨"DEV_HP_HOSTID_LO", .pkg, 0x1008, [(4, 64)], .word, [⟨"ID", 31, 0, .live, 0⟩]⟩,
  ⟨"DEV_HP_HOSTID_HI", .pkg, 0x100c, [(4, 64)], .word, [⟨"ID", 31, 0, .live, 0⟩]⟩,
  ⟨"DEV_HP_CTRL", .pkg, 0x1010, [(4, 64)], .pair, [⟨"CMD", 31, 30, .rwg, 0⟩, ⟨"COH_EN", 29, 29, .rwg, 1⟩, ⟨"RSV", 28, 12, .rsv, 0⟩, ⟨"LOSS_LIMIT", 11, 0, .rwg, 10⟩]⟩,
  ⟨"DEV_HP_BIND", .pkg, 0x1018, [(4, 64)], .word, [⟨"RSV", 31, 16, .rsv, 0⟩, ⟨"RESULT", 15, 8, .ro, 0⟩, ⟨"RSV", 7, 6, .rsv, 0⟩, ⟨"CTX", 5, 0, .rw, 0⟩]⟩,
  ⟨"DEV_HP_RETRAINS", .pkg, 0x1020, [(4, 64)], .counter, []⟩,
  ⟨"DEV_HP_REPLAYS", .pkg, 0x1028, [(4, 64)], .counter, []⟩,
  ⟨"DEV_HP_SNOOPS", .pkg, 0x1030, [(4, 64)], .counter, []⟩,
  ⟨"DEV_CTX_QUAR", .pkg, 0x1100, [], .pair, [⟨"RSV", 31, 16, .rsv, 0⟩, ⟨"QUAR", 15, 0, .rwg, 2000⟩]⟩]

/-- Table 12.15. -/
def regsRas1 : List RegDef := [
  ⟨"RAS_LB_CFG", .pkg, 0x6000, [(7, 8)], .pair, [⟨"N", 31, 24, .rwg, 0⟩, ⟨"W", 23, 0, .rwg, 0⟩]⟩,
  ⟨"RAS_HEALTH", .pkg, 0x6040, [], .word, [⟨"SCORE", 31, 24, .live, 0⟩, ⟨"ARMED", 23, 23, .live, 1⟩, ⟨"CRITICAL", 22, 22, .live, 0⟩, ⟨"RSV", 21, 0, .rsv, 0⟩]⟩,
  ⟨"RAS_HEALTH_CTRL", .pkg, 0x6048, [], .pair, [⟨"SECURE_AT", 31, 24, .rwg, 96⟩, ⟨"CRITICAL_AT", 23, 16, .rwg, 192⟩, ⟨"HYST", 15, 8, .rwg, 32⟩, ⟨"RSV", 7, 2, .rsv, 0⟩, ⟨"CMD", 1, 0, .rwg, 0⟩]⟩,
  ⟨"RAS_HANG_CTRL", .pkg, 0x6050, [], .pair, [⟨"ACTION", 31, 30, .rwg, 1⟩, ⟨"PROBE_EN", 29, 29, .rwg, 1⟩, ⟨"RSV", 28, 20, .rsv, 0⟩, ⟨"PROBE_PERIOD", 19, 12, .rwg, 10⟩, ⟨"STALL_LIMIT", 11, 0, .rwg, 100⟩]⟩,
  ⟨"RAS_HANG_STATUS", .pkg, 0x6058, [], .word, [⟨"LOCAL_CYCLE", 31, 31, .live, 0⟩, ⟨"REMOTE_CYCLE", 30, 30, .live, 0⟩, ⟨"RSV", 29, 9, .rsv, 0⟩, ⟨"UNIT", 8, 0, .live, 0⟩]⟩,
  ⟨"RAS_SAMPLE_CTRL", .pkg, 0x6060, [], .pair, [⟨"ENABLE", 31, 31, .rwg, 1⟩, ⟨"ON_CTX", 30, 30, .rwg, 0⟩, ⟨"OVERWRITE", 29, 29, .rwg, 0⟩, ⟨"RSV", 28, 2, .rsv, 0⟩, ⟨"CMD", 1, 0, .rwg, 0⟩]⟩,
  ⟨"RAS_RESET_CTRL", .pkg, 0x6068, [], .pair, [⟨"CMD", 31, 30, .rwg, 0⟩, ⟨"RSV", 29, 6, .rsv, 0⟩, ⟨"CTX", 5, 0, .rwg, 0⟩]⟩,
  ⟨"RAS_RESET_STATUS", .pkg, 0x6070, [], .word, [⟨"ACTIVE", 31, 30, .live, 0⟩, ⟨"RSV", 29, 22, .rsv, 0⟩, ⟨"LAST_US", 21, 0, .ro, 0⟩]⟩,
  ⟨"RAS_DEGRADED", .pkg, 0x6074, [], .word, [⟨"RSV", 31, 10, .rsv, 0⟩, ⟨"HOST_NARROW", 9, 9, .live, 0⟩, ⟨"ENGINE_OUT", 8, 8, .live, 0⟩, ⟨"PRINCIPAL_LOST", 7, 7, .live, 0⟩, ⟨"FAB_PORT", 6, 6, .live, 0⟩, ⟨"COLUMN", 5, 5, .live, 0⟩, ⟨"TILE_RETIRED", 4, 4, .live, 0⟩, ⟨"QUARTER_OUT", 3, 3, .live, 0⟩, ⟨"MIRROR_FENCED", 2, 2, .live, 0⟩, ⟨"DIE_LOST", 1, 1, .live, 0⟩, ⟨"D2D_SHORT", 0, 0, .live, 0⟩]⟩,
  ⟨"RAS_LASTING", .pkg, 0x6100, [(7, 8)], .counter, []⟩,
  ⟨"RAS_HANGS", .pkg, 0x6140, [], .counter, []⟩,
  ⟨"RAS_STALLS", .pkg, 0x6148, [], .counter, []⟩,
  ⟨"RAS_SECURE_NOW", .pkg, 0x6150, [], .counter, []⟩,
  ⟨"RAS_CTX_RESETS", .pkg, 0x6158, [], .counter, []⟩,
  ⟨"RAS_COMPUTE_RESETS", .pkg, 0x6160, [], .counter, []⟩,
  ⟨"RAS_FULL_RECOVERIES", .pkg, 0x6168, [], .counter, []⟩,
  ⟨"RAS_SAMPLES_PARTIAL", .pkg, 0x6170, [], .counter, []⟩,
  ⟨"RAS_LB_EVICT", .pkg, 0x6178, [], .counter, []⟩,
  ⟨"RAS_SAMPLE_STAT", .pkg, 0x6400, [(64, 16)], .word, [⟨"STATE", 31, 30, .live, 0⟩, ⟨"RSV", 29, 17, .rsv, 0⟩, ⟨"ROWS", 16, 0, .ro, 0⟩]⟩,
  ⟨"RAS_SAMPLE_UE", .pkg, 0x6404, [(64, 16)], .word, [⟨"RSV", 31, 16, .rsv, 0⟩, ⟨"UE_WORDS", 15, 0, .ro, 0⟩]⟩]

/-- Table 12.15. -/
def regsRas2 : List RegDef := [
  ⟨"RAS_SAMPLE_LT_LO", .pkg, 0x6408, [(64, 16)], .word, [⟨"LT", 31, 0, .ro, 0⟩]⟩,
  ⟨"RAS_SAMPLE_LT_HI", .pkg, 0x640c, [(64, 16)], .word, [⟨"LT", 31, 0, .ro, 0⟩]⟩,
  ⟨"RAS_SAMPLE_WIN", .pkg, 0x6800, [(64, 32), (4, 8)], .pair, [⟨"BASE", 31, 19, .rwg, 0⟩, ⟨"RSV", 18, 11, .rsv, 0⟩, ⟨"LENGTH", 10, 0, .rwg, 0⟩]⟩]

/-- Table 13.13. -/
def regsCProt : List RegDef := [
  ⟨"CTX_PROT_BASE_LO", .ctx, 0x300, [], .word, [⟨"BASE", 31, 8, .rw, 0⟩, ⟨"RSV", 7, 0, .rsv, 0⟩]⟩,
  ⟨"CTX_PROT_BASE_HI", .ctx, 0x304, [], .word, [⟨"RSV", 31, 9, .rsv, 0⟩, ⟨"BASE", 8, 0, .rw, 0⟩]⟩,
  ⟨"CTX_PROT_CTRL", .ctx, 0x308, [], .pair, [⟨"ENABLE", 31, 31, .rwg, 0⟩, ⟨"CMD", 30, 27, .rwg, 0⟩, ⟨"RSV", 26, 0, .rsv, 0⟩]⟩,
  ⟨"CTX_PROT_ARG", .ctx, 0x310, [], .word, [⟨"ARG", 31, 0, .rw, 0⟩]⟩,
  ⟨"CTX_PROT_STATUS", .ctx, 0x314, [], .word, [⟨"STATE", 31, 29, .live, 0⟩, ⟨"RSV", 28, 24, .rsv, 0⟩, ⟨"RESULT", 23, 16, .ro, 0⟩, ⟨"RSV", 15, 13, .rsv, 0⟩, ⟨"TORN", 12, 0, .live, 0⟩]⟩,
  ⟨"CTX_PROT_MSTEP", .ctx, 0x318, [], .word, [⟨"STEP", 31, 0, .ro, 4294967295⟩]⟩,
  ⟨"CTX_PROT_UNSAFE", .ctx, 0x31c, [], .word, [⟨"RSV", 31, 13, .rsv, 0⟩, ⟨"COUNT", 12, 0, .live, 0⟩]⟩,
  ⟨"CTX_PROT_HYPER", .ctx, 0x320, [(8, 4)], .word, [⟨"VALUE", 31, 0, .rw, 0⟩]⟩,
  ⟨"CTX_LOG_PROD", .ctx, 0x340, [], .word, [⟨"PROD", 31, 0, .rw, 0⟩]⟩,
  ⟨"CTX_LOG_SHIPPED", .ctx, 0x344, [], .word, [⟨"SHIPPED", 31, 0, .ro, 0⟩]⟩,
  ⟨"CTX_PROT_MIRROR_ITEMS", .ctx, 0x380, [], .counter, []⟩,
  ⟨"CTX_PROT_SLOT_COPIES", .ctx, 0x388, [], .counter, []⟩,
  ⟨"CTX_PROT_STALE", .ctx, 0x390, [], .counter, []⟩,
  ⟨"CTX_PROT_VERIFY_FAIL", .ctx, 0x398, [], .counter, []⟩,
  ⟨"CTX_PROT_FETCH_BYTES", .ctx, 0x3a0, [], .counter, []⟩,
  ⟨"CTX_LOG_BYTES", .ctx, 0x3a8, [], .counter, []⟩,
  ⟨"CTX_LOG_STALL", .ctx, 0x3b0, [], .counter, []⟩,
  ⟨"CTX_LOG_DISCARDED", .ctx, 0x3b8, [], .counter, []⟩]

/-- Table 14.6. -/
def regsReq : List RegDef := [
  ⟨"IND_ADDR", .pkg, 0x7000, [], .word, [⟨"BLOCK", 31, 24, .rw, 0⟩, ⟨"RSV", 23, 16, .rsv, 0⟩, ⟨"OFFSET", 15, 0, .rw, 0⟩]⟩,
  ⟨"IND_DATA", .pkg, 0x7004, [], .word, [⟨"DATA", 31, 0, .rw, 0⟩]⟩,
  ⟨"DEV_PORT_SELF", .pkg, 0x7008, [], .word, [⟨"RSV", 31, 5, .rsv, 0⟩, ⟨"MGMT", 4, 4, .ro, 0⟩, ⟨"DIE", 3, 2, .ro, 0⟩, ⟨"PORT", 1, 0, .ro, 0⟩]⟩,
  ⟨"DEV_GUARD_FAULT", .pkg, 0x7010, [], .counter, []⟩,
  ⟨"DEV_RSV_FAULT", .pkg, 0x7018, [], .counter, []⟩]

/-- Table 15.8. -/
def regsSec : List RegDef := [
  ⟨"SEC_STATUS", .pkg, 0x8000, [], .word, [⟨"STATE", 31, 28, .live, 0⟩, ⟨"RSA_KEY_READY", 27, 27, .live, 0⟩, ⟨"MLDSA_KEY_READY", 26, 26, .live, 0⟩, ⟨"TEST_LOCK", 25, 25, .live, 1⟩, ⟨"UNLOCK_PENDING", 24, 24, .live, 0⟩, ⟨"RSV", 23, 20, .rsv, 0⟩, ⟨"ARB_FULL", 19, 15, .live, 0⟩, ⟨"RSV", 14, 8, .rsv, 0⟩, ⟨"BUNDLE_RESULT", 7, 0, .ro, 0⟩]⟩,
  ⟨"SEC_KEY_SLOTS", .pkg, 0x8004, [], .word, [⟨"RSV", 31, 16, .rsv, 0⟩, ⟨"REVOKED", 15, 8, .ro, 0⟩, ⟨"LOADED", 7, 0, .live, 0⟩]⟩,
  ⟨"SEC_ARB", .pkg, 0x8010, [(5, 4)], .word, [⟨"RSV", 31, 22, .rsv, 0⟩, ⟨"BANKS_USED", 21, 16, .ro, 0⟩, ⟨"COUNTER", 15, 0, .ro, 0⟩]⟩,
  ⟨"SEC_MBOX_REQ_LO", .pkg, 0x8100, [(5, 64)], .word, [⟨"ADDR", 31, 0, .rw, 0⟩]⟩,
  ⟨"SEC_MBOX_REQ_HI", .pkg, 0x8104, [(5, 64)], .word, [⟨"ADDR", 31, 0, .rw, 0⟩]⟩,
  ⟨"SEC_MBOX_RSP_LO", .pkg, 0x8108, [(5, 64)], .word, [⟨"ADDR", 31, 0, .rw, 0⟩]⟩,
  ⟨"SEC_MBOX_RSP_HI", .pkg, 0x810c, [(5, 64)], .word, [⟨"ADDR", 31, 0, .rw, 0⟩]⟩,
  ⟨"SEC_MBOX_LEN", .pkg, 0x8110, [(5, 64)], .word, [⟨"RSP_MAX", 31, 16, .rw, 8192⟩, ⟨"REQ_LEN", 15, 0, .rw, 0⟩]⟩,
  ⟨"SEC_MBOX_CTRL", .pkg, 0x8114, [(5, 64)], .word, [⟨"CMD", 31, 30, .rw, 0⟩, ⟨"STATE", 29, 28, .ro, 0⟩, ⟨"RSV", 27, 22, .rsv, 0⟩, ⟨"ERR", 21, 14, .ro, 0⟩, ⟨"RSP_LEN", 13, 0, .ro, 0⟩]⟩,
  ⟨"SEC_SIG_FAIL", .pkg, 0x8300, [], .counter, []⟩,
  ⟨"SEC_SPDM_MSGS", .pkg, 0x8308, [], .counter, []⟩,
  ⟨"SEC_UNLOCKS", .pkg, 0x8310, [], .counter, []⟩,
  ⟨"SEC_LINK_KEYS", .pkg, 0x8318, [], .counter, []⟩]

/-- Table 16.10. -/
def regsPwr : List RegDef := [
  ⟨"PWR_STATUS", .pkg, 0x9000, [], .word, [⟨"STATE", 31, 30, .live, 0⟩, ⟨"START_PHASE", 29, 26, .live, 0⟩, ⟨"LIMIT", 25, 25, .live, 0⟩, ⟨"CAP_LAND", 24, 24, .live, 0⟩, ⟨"THERMAL", 23, 23, .live, 0⟩, ⟨"RSV", 22, 0, .rsv, 0⟩]⟩,
  ⟨"PWR_CTRL", .pkg, 0x9008, [], .pair, [⟨"CMD", 31, 30, .rwg, 0⟩, ⟨"RSV", 29, 0, .rsv, 0⟩]⟩,
  ⟨"PWR_LIMIT", .pkg, 0x9010, [], .pair, [⟨"ENABLE", 31, 31, .rwg, 1⟩, ⟨"RSV", 30, 12, .rsv, 0⟩, ⟨"LIMIT", 11, 0, .rwg, 3600⟩]⟩,
  ⟨"PWR_BOOT_CTRL", .pkg, 0x9018, [], .pair, [⟨"CMD", 31, 30, .rwg, 0⟩, ⟨"RSV", 29, 0, .rsv, 0⟩]⟩,
  ⟨"PWR_DVFS_CTRL", .pkg, 0x9020, [(4, 8)], .pair, [⟨"RSV", 31, 4, .rsv, 0⟩, ⟨"LEVEL_REQ", 3, 0, .rwg, 7⟩]⟩,
  ⟨"PWR_DVFS_STATUS", .pkg, 0x9040, [(4, 4)], .word, [⟨"RSV", 31, 26, .rsv, 0⟩, ⟨"VOFFSET", 25, 18, .ro, 0⟩, ⟨"VCORE_MV", 17, 8, .live, 0⟩, ⟨"RSV", 7, 4, .rsv, 0⟩, ⟨"LEVEL", 3, 0, .live, 7⟩]⟩,
  ⟨"PWR_PKG_POWER", .pkg, 0x9050, [], .word, [⟨"RSV", 31, 12, .rsv, 0⟩, ⟨"WATTS", 11, 0, .live, 0⟩]⟩,
  ⟨"PWR_TEMP_MAX", .pkg, 0x9054, [], .word, [⟨"HBM", 31, 24, .live, 0⟩, ⟨"IOD", 23, 16, .live, 0⟩, ⟨"COMPUTE", 15, 8, .live, 0⟩, ⟨"RSV", 7, 0, .rsv, 0⟩]⟩,
  ⟨"PWR_THROTTLE_MS", .pkg, 0x9100, [], .counter, []⟩,
  ⟨"PWR_DVFS_STEPS", .pkg, 0x9108, [], .counter, []⟩,
  ⟨"PWR_CAP_ASSERTS", .pkg, 0x9110, [], .counter, []⟩]

/-- R423. -/
def regsDiecom : List RegDef := [
  ⟨"DEV_D2D_CNT", .die, 0x4000, [(240, 16), (2, 8)], .counter, []⟩]

/-- Table 14.6, R419. -/
def regsCInd : List RegDef := [
  ⟨"CTX_IND_ADDR", .ctx, 0x410, [], .word, [⟨"BLOCK", 31, 24, .rw, 0⟩, ⟨"RSV", 23, 16, .rsv, 0⟩, ⟨"OFFSET", 15, 0, .rw, 0⟩]⟩,
  ⟨"CTX_IND_DATA", .ctx, 0x414, [], .word, [⟨"DATA", 31, 0, .rw, 0⟩]⟩]

/-- Every register of the package (Tables 14.2, 14.3 and 14.7). -/
def regTable : List RegDef :=
  regsDev ++ regsTile1 ++ regsTile2 ++ regsCdie ++ regsCNum ++ regsStrata ++ regsCPhase ++ regsFab1 ++ regsFab2 ++ regsIodie ++ regsCCairn ++ regsLode ++ regsCColl ++ regsColl ++ regsCPipe1 ++ regsCPipe2 ++ regsCHost1 ++ regsCHost2 ++ regsHp ++ regsRas1 ++ regsRas2 ++ regsCProt ++ regsReq ++ regsSec ++ regsPwr ++ regsDiecom ++ regsCInd

end Sys2Proof.Machine
end

