-- ==== Sys2Proof/Machine/Ops.lean ====
section
/-! DEFINITION. The named operations over registers, counters, memory, tiles and contexts, and the end of a command. -/

namespace Sys2Proof.Machine

/-! Bit fields and little-endian bytes (R8). -/

/-- Bits [hi:lo] of a number. -/
def fld (v hi lo : Nat) : Nat := (v >>> lo) % 2 ^ (hi + 1 - lo)

/-- Bits [hi:lo] of a word. -/
def fb {w : Nat} (v : BitVec w) (hi lo : Nat) : Nat := fld v.toNat hi lo

/-- `v` with bits [hi:lo] replaced by `x`. -/
def setFld (v hi lo x : Nat) : Nat :=
  v - (fld v hi lo) * 2 ^ lo + (x % 2 ^ (hi + 1 - lo)) * 2 ^ lo

/-- The number a list of bytes holds, lowest byte first. -/
def leOf : List Byte → Nat
  | [] => 0
  | b :: r => b.toNat + 256 * leOf r

/-- The low `n` bytes of a number, lowest first. -/
def toLE : Nat → Nat → List Byte
  | 0, _ => []
  | n + 1, v => BitVec.ofNat 8 v :: toLE n (v / 256)

/-- A two's-complement number of `w` bits. -/
def signed (w v : Nat) : Int := if v % 2 ^ w < 2 ^ (w - 1) then (v % 2 ^ w : Nat) else ((v % 2 ^ w : Nat) : Int) - 2 ^ w

/-- The `w`-bit pattern of an integer. -/
def unsigned (w : Nat) (v : Int) : Nat := (v % 2 ^ w).toNat

/-- ⌈a ÷ b⌉. -/
def ceilDiv (a b : Nat) : Nat := (a + b - 1) / b

/-- Pairs of consecutive addresses from `a` and bytes. -/
def cellsAt : Nat → List Byte → List (Nat × Byte)
  | _, [] => []
  | a, b :: r => (a, b) :: cellsAt (a + 1) r

/-! Memory, seen through the writes of the command that runs. -/

def storedByte : List (Nat × Byte) → Nat → Option Byte
  | [], _ => none
  | (a', b) :: r, a => if a' = a then some b else storedByte r a

/-- One byte as the running command sees it. -/
def peek (m : Mem) (d : Dev) (a : Nat) : Byte :=
  (storedByte d.stores a).getD (if inRanges d.wipes a then 0 else mget 0 m a)

def peekN (m : Mem) (d : Dev) (a : Nat) : Nat → List Byte
  | 0 => []
  | n + 1 => peek m d a :: peekN m d (a + 1) n

/-- `n` bytes as a number. -/
def peekLE (m : Mem) (d : Dev) (a n : Nat) : Nat := leOf (peekN m d a n)

def Dev.poke (d : Dev) (a : Nat) (b : Byte) : Dev := { d with stores := (a, b) :: d.stores }

def Dev.pokeN (d : Dev) (a : Nat) (bs : List Byte) : Dev := { d with stores := (cellsAt a bs).reverse ++ d.stores }

/-- Zero `n` bytes from `a`. -/
def Dev.wipe (d : Dev) (a n : Nat) : Dev :=
  { d with stores := d.stores.filter (fun c => !(a ≤ c.1 && c.1 < a + n)), wipes := (a, n) :: d.wipes }

def Dev.pokeLE (d : Dev) (a n v : Nat) : Dev := d.pokeN a (toLE n v)

/-- Where a tile's scratchpad lies (Table 6.1). -/
def scrBase (t : Nat) : Nat := 0x010000000000 + t * 0x2000000

/-- Where the management SRAM lies in the model's memory (R435). -/
def sramBase : Nat := 0x030000000000

/-- A byte of memory between commands (`Sys2Proof.Machine.State.mem`). -/
def State.read (s : State) (a : Nat) : Byte := mget 0 s.mem a

/-! Registers and counters. -/

/-- The index arithmetic of a register's offset: whether `off` is one of its words, `w` bytes wide. -/
def dimsMatch : List (Nat × Nat) → Nat → Nat → Bool
  | [], w, off => decide (off < w)
  | (n, s) :: r, w, off => decide (off / s < n) && dimsMatch r w (off % s)

/-- The space and offset of a key. -/
def keySpaces (k : Nat) : List RegSpace × Nat :=
  if k < 0x100000 then ([.pkg], k)
  else if k < 0x500000 then ([.ctx], (k - 0x100000) % 0x10000)
  else if k < 0x10000000 then ([], 0)
  else
    let b := (k - 0x10000000) / 0x10000
    let o := (k - 0x10000000) % 0x10000
    if b < 0x40 then ([.tile], o)
    else if b < 0x44 then ([.cdie, .die], o)
    else if b = 0x44 then ([.iodie, .die], o)
    else if b = 0x45 then (if o < 0x3000 || 0x4000 ≤ o then [.iodie, .die] else [], o)
    else ([], 0)

def RegDef.width (r : RegDef) : Nat := match r.kind with | .word => 4 | .pair => 8 | .counter => 8

/-- Whether the word at `off` of space `sp` belongs to register `r`. -/
def RegDef.holds (r : RegDef) (sp : List RegSpace) (off : Nat) : Bool :=
  sp.contains r.space && decide (r.off ≤ off) && dimsMatch r.dims r.width (off - r.off)

/-- The register that holds the word at key `k` (Tables 14.2, 14.3 and 14.7). -/
def regAt (k : Nat) : Option RegDef :=
  let (sp, off) := keySpaces k
  regTable.find? (fun r => r.holds sp off)

/-- The word that the fields' reset values make. -/
def resetFields : List RegField → Nat
  | [] => 0
  | f :: r => f.reset * 2 ^ f.lo + resetFields r

/-- RAS_LB_CFG_k at reset: N in [31:24], W in 64-lt units in [23:0] (Table 12.2). -/
def lbCfgReset (k : Nat) : Nat :=
  match k with
  | 0 => 3 * 2 ^ 24 + 16384
  | 1 => 2 * 2 ^ 24 + 16384
  | 2 => 8 * 2 ^ 24 + 65536
  | 3 => 8 * 2 ^ 24 + 262144
  | 4 => 16 * 2 ^ 24 + 16384
  | 5 => 16 * 2 ^ 24 + 16384
  | _ => 8 * 2 ^ 24 + 16384

/-- The value of the word at `k` at cold start (R412). -/
def resetWord (k : Nat) : BitVec 32 :=
  if Reg.rasLbCfg 0 ≤ k && k < Reg.rasHealth - 8 then BitVec.ofNat 32 (lbCfgReset ((k - Reg.rasLbCfg 0) / 8))
  else match regAt k with
    | some r => BitVec.ofNat 32 (resetFields r.fields)
    | none => 0

def Dev.reg (d : Dev) (k : Nat) : BitVec 32 := mget (resetWord k) d.regs k

/-- Bits [hi:lo] of a register. -/
def Dev.rf (d : Dev) (k hi lo : Nat) : Nat := fb (d.reg k) hi lo

/-- Bit `i` of a register. -/
def Dev.rb (d : Dev) (k i : Nat) : Bool := (d.reg k).getLsbD i

def Dev.setReg (d : Dev) (k : Nat) (v : BitVec 32) : Dev := { d with regs := mset d.regs k v }

def Dev.setRegN (d : Dev) (k v : Nat) : Dev := d.setReg k (BitVec.ofNat 32 v)

def Dev.setRf (d : Dev) (k hi lo x : Nat) : Dev := d.setRegN k (setFld (d.reg k).toNat hi lo x)

/-- A 64-bit value in two words, low word first. -/
def Dev.reg64 (d : Dev) (k : Nat) : Nat := (d.reg k).toNat + (d.reg (k + 4)).toNat * 2 ^ 32

def Dev.setReg64 (d : Dev) (k v : Nat) : Dev := (d.setRegN k (v % 2 ^ 32)).setRegN (k + 4) (v / 2 ^ 32)

def Dev.count (d : Dev) (k : Nat) : BitVec 48 := mget 0 d.counters k

/-- A CNT counter counts `n`, wrapping from 2^48 - 1 to 0 (R410). -/
def Dev.bumpN (d : Dev) (k n : Nat) : Dev := { d with counters := mset d.counters k (d.count k + BitVec.ofNat 48 n) }

def Dev.bump (d : Dev) (k : Nat) : Dev := d.bumpN k 1

/-- Count where the flag holds. -/
def Dev.bumpIf (d : Dev) (b : Bool) (k : Nat) : Dev := if b then d.bump k else d

/-! Units. -/

def Dev.tile (d : Dev) (t : Nat) : Tile := mget Tile.reset d.tiles t
def Dev.setTile (d : Dev) (t : Nat) (x : Tile) : Dev := { d with tiles := mset d.tiles t x }
def Dev.ctx (d : Dev) (c : Nat) : Ctx := mget Ctx.reset d.ctxs c
def Dev.setCtx (d : Dev) (c : Nat) (x : Ctx) : Dev := { d with ctxs := mset d.ctxs c x }
def Dev.die (d : Dev) (i : Nat) : Die := mget {} d.dies i
def Dev.setDie (d : Dev) (i : Nat) (x : Die) : Dev := { d with dies := mset d.dies i x }
def Dev.module (d : Dev) (n m : Nat) : D2dModule := mget {} d.modules (16 * n + m)
def Dev.setModule (d : Dev) (n m : Nat) (x : D2dModule) : Dev := { d with modules := mset d.modules (16 * n + m) x }
def Dev.port (d : Dev) (p : Nat) : FabPort := mget {} d.ports p
def Dev.setPort (d : Dev) (p : Nat) (x : FabPort) : Dev := { d with ports := mset d.ports p x }
def Dev.host (d : Dev) (p : Nat) : HostPort := mget {} d.hosts p
def Dev.setHost (d : Dev) (p : Nat) (x : HostPort) : Dev := { d with hosts := mset d.hosts p x }
def Dev.cairn (d : Dev) (c s : Nat) : Cairn := mget {} d.cairns (64 * c + s)
def Dev.setCairn (d : Dev) (c s : Nat) (x : Cairn) : Dev := { d with cairns := mset d.cairns (64 * c + s) x }
def Dev.req (d : Dev) (i : Nat) : ReqState := mget {} d.reqs i
def Dev.setReq (d : Dev) (i : Nat) (x : ReqState) : Dev := { d with reqs := mset d.reqs i x }
def Dev.stack (d : Dev) (i : Nat) : Stack := mget {} d.hbm i
def Dev.setStack (d : Dev) (i : Nat) (x : Stack) : Dev := { d with hbm := mset d.hbm i x }
def Dev.diePower (d : Dev) (i : Nat) : DiePower := mget {} d.pwr.dies i
def Dev.setDiePower (d : Dev) (i : Nat) (x : DiePower) : Dev := { d with pwr := { d.pwr with dies := mset d.pwr.dies i x } }

/-- The Lodestone count. -/
def Dev.now (d : Dev) : Nat := d.lode.count.toNat

/-- Show something outside the package. -/
def Dev.emit (d : Dev) (o : Out) : Dev := { d with out := d.out ++ [o] }

/-- A number for the next free value (log entry 3), and the state that has taken it. -/
def Dev.takeFree (d : Dev) : Nat × Dev := (d.free, { d with free := d.free + 1 })

/-- The die of a tile (16 tiles to a compute die). -/
def dieOf (t : Nat) : Nat := t / 16

/-- The tiles of a context (Table 5.10), in rising order. -/
def Dev.tilesOf (d : Dev) (c : Nat) : List Nat := (List.range 64).filter (fun t => (d.ctx c).tileMask.getLsbD t)

/-- The context that owns a tile. -/
def Dev.ownerOf (d : Dev) (t : Nat) : Option Nat := (List.range 64).find? (fun c => (d.ctx c).tileMask.getLsbD t)

/-- Run `f` over a list of numbers. -/
def Dev.each {α : Type} (d : Dev) (l : List α) (f : Dev → α → Dev) : Dev := l.foldl f d

/-- A die is kept down because IB is fenced (R27). -/
def Dev.keptDown (d : Dev) (i : Nat) : Bool := d.fenced && (i == 2 || i == 3 || i == 5)

/-- A die is out of reach: lost (R376), isolated (R41), or kept down with a fenced IB. -/
def Dev.lost (d : Dev) (i : Nat) : Bool := (d.die i).absent || (d.die i).clockLost || (d.die i).isolated || d.keptDown i

/-! The end of a command. -/

/-- What a command did to everything but memory and the queue. -/
abbrev Effect := Mem → Dev → Dev

/-- The state after a command whose effect on `Dev` is `d`: its stores go to memory, the queue is as it was. -/
def State.commit (s : State) (d : Dev) : State :=
  { mem := Memory.write (Memory.wipe s.mem d.wipes) d.stores, dev := { d with stores := [], wipes := [] }, pending := s.pending }

/-- The device as a command begins: no output yet. -/
def State.begin (s : State) : Dev := { s.dev with stores := [], wipes := [], out := [] }

/-- A command whose effect is `x`. -/
def State.run (s : State) (x : Effect) : Host.Outcome State Fault Refusal := .next (s.commit (x s.mem s.begin))

/-- The RSV bits of the word at `k`. -/
def rsvMask (k : Nat) : Nat :=
  match regAt k with
  | some r => (r.fields.filter (fun f => f.access == .rsv)).foldl (fun a f => a + (2 ^ (f.hi + 1 - f.lo) - 1) * 2 ^ f.lo) 0
  | none => 0

/-- A write of `v` to the word at `k` changes RSV bits (R409). -/
def Dev.changesRsv (d : Dev) (k : Nat) (v : BitVec 32) : Bool :=
  (v ^^^ d.reg k) &&& BitVec.ofNat 32 (rsvMask k) != 0

end Sys2Proof.Machine
end

