-- ==== Sys2Proof/Machine/HostOut.lean ====
section
/-! DEFINITION. What the package sends to a host (R330, R331, R347): packets, requests under a TAG, and event records (R344, R352,
R426). -/

namespace Sys2Proof

open Sys2Proof.Machine

/-- The fields of Table 11.5. -/
def HPacket.opc (k : HPacket) : Nat := fb k.hdr 127 122
def HPacket.cls (k : HPacket) : Nat := fb k.hdr 121 120
def HPacket.tag (k : HPacket) : Nat := fb k.hdr 119 108
def HPacket.status (k : HPacket) : Nat := fb k.hdr 107 104
def HPacket.ctx (k : HPacket) : Nat := fb k.hdr 103 98
def HPacket.gen (k : HPacket) : Nat := fb k.hdr 97 90
def HPacket.len (k : HPacket) : Nat := fb k.hdr 89 81
def HPacket.grant (k : HPacket) : Nat := fb k.hdr 80 79
def HPacket.addr (k : HPacket) : Nat := fb k.hdr 63 0

end Sys2Proof

namespace Sys2Proof.Machine

/-- A Pequa packet header (Table 11.5). -/
def hpHdr (opc cls tag status ctx gen len grant addr : Nat) : BitVec 128 :=
  BitVec.ofNat 128 (opc % 64 * 2 ^ 122 + cls % 4 * 2 ^ 120 + tag % 4096 * 2 ^ 108 + status % 16 * 2 ^ 104
    + ctx % 64 * 2 ^ 98 + gen % 256 * 2 ^ 90 + len % 512 * 2 ^ 81 + grant % 4 * 2 ^ 79 + addr % 2 ^ 64)

/-- Opcodes of Table 11.6 that the package sends as requests. -/
def opcHRD : Nat := 0x10
def opcHWR : Nat := 0x11
def opcHRDS : Nat := 0x12
def opcHRDE : Nat := 0x13
def opcHEVICT : Nat := 0x14

/-- A port that may carry packets: ACTIVE, or RETRAIN, which loses nothing (R329). -/
def HostPort.up (h : HostPort) : Bool := h.state == .active || h.state == .retrain

/-- Queue a packet for transmission on port `p`; a port that is not up carries none. -/
def Dev.sendHost (d : Dev) (p : Nat) (k : HPacket) : Dev :=
  if (d.host p).up then d.setHost p { d.host p with tx := (d.host p).tx ++ [k] } else d

/-- The TAG table's port number of the fabric; Pequa port `p` is `p`. -/
def fabricPort : Nat := 16

/-- The lowest TAG of Pequa port `p` that no request holds, reserved ones included (R347), below the host's TAGS. -/
def Dev.freeHostTag (d : Dev) (p : Nat) : Option Nat :=
  (List.range (d.host p).tags).find? (fun t => !(d.tags.any (fun x => x.port == p && x.tag == t)))

/-- Put TAG `t` into a header. -/
def withTag (h : BitVec 128) (t : Nat) : BitVec 128 := BitVec.ofNat 128 (setFld h.toNat 119 108 t)

/-- Issue a package request now under a free TAG, or keep it waiting for one, or for its port (R332, R338, R347). -/
def Dev.hostRequest (d : Dev) (p : Nat) (k : HPacket) (t : Tag) : Dev :=
  let wait := d.setHost p { d.host p with waiting := (d.host p).waiting ++ [(k, t)] }
  if !(d.host p).up then wait
  else match d.freeHostTag p with
    | none => wait
    | some n =>
      let k := { k with hdr := withTag k.hdr n }
      let d := { d with tags := d.tags ++ [{ t with tag := n, port := p, sent := some k }] }
      d.sendHost p k

/-- Issue the waiting requests of port `p` while it is up and has free TAGs. -/
def Dev.hostRetry (d : Dev) (p : Nat) : Dev :=
  let w := (d.host p).waiting
  let d := d.setHost p { d.host p with waiting := [] }
  d.each w (fun d x => d.hostRequest p x.1 x.2)

/-- The generation a request of context `c` carries. -/
def Dev.genOf (d : Dev) (c : Nat) : Nat := (d.ctx c).gen.toNat % 256

/-- Write host memory on behalf of context `c` (HWR). -/
def Dev.hwr (d : Dev) (p c addr : Nat) (bs : List Byte) (u : Purpose) (a b : Nat) : Dev :=
  d.hostRequest p { hdr := hpHdr opcHWR 0 0 0 c (d.genOf c) bs.length 0 addr, data := bs }
    { tag := 0, port := p, ctx := c, gen := BitVec.ofNat 8 (d.genOf c), purpose := u, a := a, b := b,
      addr := BitVec.ofNat 64 addr }

/-- Read host memory on behalf of context `c`: HRD, HRD_S or HRD_E. -/
def Dev.hrd (d : Dev) (p c opc addr len : Nat) (u : Purpose) (a b : Nat) : Dev :=
  d.hostRequest p { hdr := hpHdr opc 0 0 0 c (d.genOf c) len 0 addr, data := [] }
    { tag := 0, port := p, ctx := c, gen := BitVec.ofNat 8 (d.genOf c), purpose := u, a := a, b := b, c := len,
      addr := BitVec.ofNat 64 addr }

/-! Event records. -/

/-- Where a ring lies: enabled, port, base address, slots, CONS; ring 64 is the package event ring (R426). -/
structure RingAt where
  on : Bool
  port : Nat
  base : Nat
  size : Nat
  cons : Nat

def Dev.eventRingAt (d : Dev) (c : Nat) : RingAt :=
  if c = 64 then
    { on := d.rb Reg.devEvtCtrl 31, port := d.rf Reg.devEvtCtrl 30 29,
      base := d.reg64 Reg.devEvtBaseLo / 32 * 32, size := 2 ^ d.rf Reg.devEvtCtrl 4 0,
      cons := (d.reg Reg.devEvtCons).toNat }
  else
    { on := d.rb (Reg.ctxEvtCtrl c) 31, port := (d.ctx c).port,
      base := d.reg64 (Reg.ctxEvtBaseLo c) / 32 * 32, size := 2 ^ d.rf (Reg.ctxEvtCtrl c) 4 0,
      cons := (d.reg (Reg.ctxEvtCons c)).toNat }

def Dev.eventRing (d : Dev) (c : Nat) : EventRing := if c = 64 then d.pkgEvents else (d.ctx c).evt

def Dev.setEventRing (d : Dev) (c : Nat) (r : EventRing) : Dev :=
  if c = 64 then { d with pkgEvents := r } else d.setCtx c { d.ctx c with evt := r }

/-- Bytes 0 to 7 of an event record with VALID `v`, and its bytes 8 to 31 (Table 11.10). -/
def eventHead (e : Event) (eseq : Nat) (v : Bool) : List Byte :=
  toLE 2 e.code.toNat ++ [e.sev] ++ [if v then 1 else 0] ++ toLE 4 eseq

def eventBody (e : Event) (lost : Nat) : List Byte :=
  toLE 8 e.lt.toNat ++ toLE 8 e.d0.toNat ++ toLE 4 e.d1.toNat ++ [e.unit] ++ [e.ctx] ++ toLE 2 (min lost 65535)

/-- Write a record into ring `c`, or withhold and count it (R344, R426). Its bytes 8 to 31 go first; bytes 0 to 7 with
VALID 0b1 follow their HCMP. -/
def Dev.ringPut (d : Dev) (c : Nat) (e : Event) : Dev :=
  let r := d.eventRing c
  let at_ := d.eventRingAt c
  let used := (r.next.toNat + 2 ^ 32 - at_.cons) % 2 ^ 32
  if !at_.on || at_.size ≤ used then
    (d.setEventRing c { r with withheld := r.withheld + 1 }).bump (if c = 64 then Reg.devEvtLost else Reg.ctxEvtLost c)
  else
    let n := r.next.toNat
    let d := d.setEventRing c { r with next := r.next + 1, withheld := 0,
                                       heads := mset r.heads n (BitVec.ofNat 64 (leOf (eventHead e n true))) }
    d.hwr at_.port (if c = 64 then 0 else c) (at_.base + n % at_.size * 32 + 8) (eventBody e r.withheld) .evtBody c n

/-- Whether a context is BOUND (R336). -/
def Dev.bound (d : Dev) (c : Nat) : Bool := (d.ctx c).state == .bound

/-- Write an event record (R352): to the ring of every bound context it concerns, and to the package ring where none is
bound, and always for areas 0x04 and 0x0B and for SEV 3. -/
def Dev.event (d : Dev) (cs : List Nat) (code sev d0 d1 unit : Nat) : Dev :=
  let bound := cs.filter d.bound
  let pkg := bound.isEmpty || code / 256 == 4 || code / 256 == 0x0B || sev == 3
  let e := fun c => ({ code := BitVec.ofNat 16 code, sev := BitVec.ofNat 8 sev, lt := d.lode.count,
                       d0 := BitVec.ofNat 64 d0, d1 := BitVec.ofNat 32 d1, unit := BitVec.ofNat 8 unit,
                       ctx := BitVec.ofNat 8 c } : Event)
  let d := d.each bound (fun d c => (d.emit (.event (some c) (e c))).ringPut c (e c))
  let c0 := cs.headD 0
  if pkg then (d.emit (.event none (e c0))).ringPut 64 (e c0) else d

/-- An event of a tile: it concerns the context that owns the tile. -/
def Dev.tileEvent (d : Dev) (t code sev d0 d1 : Nat) : Dev := d.event (d.ownerOf t).toList code sev d0 d1 t

/-- An event of a die. -/
def Dev.dieEvent (d : Dev) (i code sev d0 d1 : Nat) : Dev := d.event [] code sev d0 d1 (0x40 + i)

/-- An event of the package. -/
def Dev.pkgEvent (d : Dev) (code sev d0 d1 : Nat) : Dev := d.event [] code sev d0 d1 0

end Sys2Proof.Machine
end

