-- ==== Sys2Proof/Machine/Access.lean ====
section
/-! DEFINITION. The front of every register write: who may write (R416, R417), the guard a new access breaks (R411), reserved bits
(R409), the status the write completes with (R407). -/

namespace Sys2Proof.Machine

/-- Status codes of a Pequa response (Table 11.5). -/
def stOK : Nat := 0
def stADDR : Nat := 1
def stACCESS : Nat := 2
def stMEMUE : Nat := 3
def stUNSUPPORTED : Nat := 4
def stCLOSED : Nat := 5
def stNOTCOH : Nat := 6
def stABSENT : Nat := 7

/-- The requester's own copy of registers (R415). -/
def reqIndex (r : Requester) : Nat := match r with | .host p => p.val | _ => 4

/-- CTX0: the management controller, and the board through it (R406, R416). -/
def isCtx0 (r : Requester) : Bool := match r with | .host _ => false | _ => true

/-- ADMIN: a host port whose bit is set in DEV_ADMIN.PORTS. -/
def Dev.isAdmin (d : Dev) (r : Requester) : Bool := match r with | .host p => d.admin.getLsbD p.val | _ => false

/-- OWNER of context `c`: the port it is BOUND to. -/
def Dev.isOwner (d : Dev) (r : Requester) (c : Nat) : Bool :=
  match r with | .host p => (d.ctx c).state == .bound && (d.ctx c).port == p.val | _ => false

/-- Context 0 or package administrator. -/
def Dev.ctx0OrAdmin (d : Dev) (r : Requester) : Bool := isCtx0 r || d.isAdmin r

/-- The writers of a context window when its chapter names none (Table 14.4). -/
def Dev.mayWriteCtx (d : Dev) (r : Requester) (c : Nat) : Bool := isCtx0 r || (c != 0 && d.isOwner r c)

/-- A request of `r` can arrive: its port carries packets, or the management controller runs. -/
def Dev.mayAsk (d : Dev) (r : Requester) : Bool :=
  match r with
  | .host p => (d.host p.val).up
  | _ => d.sec.state == .running && !d.lost 4

/-- A guard failure of the requester (R411). -/
def Dev.guardFault (d : Dev) (r : Requester) : Dev :=
  let q := d.req (reqIndex r)
  d.setReq (reqIndex r) { q with pending := none, failed := q.pending.map (·.1), guardFaults := q.guardFaults + 1 }

/-- Any other access of the requester drops its pending half of a guarded pair (R411). -/
def Dev.breakGuard (d : Dev) (r : Requester) : Dev := if (d.req (reqIndex r)).pending.isSome then d.guardFault r else d

/-- The access completes with a status. -/
def Dev.answer (d : Dev) (r : Requester) (st : Nat) : Dev := d.emit (.regDone r (BitVec.ofNat 8 st))

/-- A request that is not permitted (R417). -/
def Dev.regRefuse (d : Dev) (r : Requester) : Dev := (d.bump Reg.devRegRefused).answer r stACCESS

/-- A write ignored for its RSV bits (R409). -/
def Dev.rsvFault (d : Dev) (r : Requester) : Dev :=
  let q := d.req (reqIndex r)
  d.setReq (reqIndex r) { q with rsvFaults := q.rsvFaults + 1 }

/-- The bits of the word at `k` that a write changes: RW and RWG. -/
def writeMask (k : Nat) : Nat :=
  match regAt k with
  | some r => (r.fields.filter (fun f => f.access == .rw || f.access == .rwg)).foldl
      (fun a f => a + (2 ^ (f.hi + 1 - f.lo) - 1) * 2 ^ f.lo) 0
  | none => 0

/-- Write the RW and RWG bits of the word at `k` (R408). -/
def Dev.putReg (d : Dev) (k : Nat) (v : BitVec 32) : Dev :=
  let w := BitVec.ofNat 32 (writeMask k)
  d.setReg k ((d.reg k &&& ~~~w) ||| (v &&& w))

/-- A write of `v` to the word at `k` by `r`, permitted when `perm` holds, whose effect and completion status are `x`. With
IA lost no package-wide write commits (R23, Table 12.13). -/
def Dev.regFront (d : Dev) (r : Requester) (k : Nat) (v : BitVec 32) (perm : Dev → Bool) (x : Dev → Dev × Nat) : Dev :=
  if !d.mayAsk r then d
  else
    let d := d.breakGuard r
    if d.lost 4 && k < 0x10000000 then d.answer r stABSENT
    else if !perm d then d.regRefuse r
    else if d.changesRsv k v then (d.rsvFault r).answer r stOK
    else
      let y := x d
      y.1.answer r y.2

/-- A register write as a command. With the test lock released, RSV bits are live test controls whose effect the spec does not
describe (R409): a permitted write that changes them is refused. -/
def State.runReg (s : State) (r : Requester) (k : Nat) (v : BitVec 32) (perm : Dev → Bool) (x : Mem → Dev → Dev × Nat) :
    Host.Outcome State Fault Refusal :=
  if !s.dev.sec.testLock && s.dev.mayAsk r && perm s.dev && s.dev.changesRsv k v then .refused .testControl
  else s.run (fun m d => d.regFront r k v perm (x m))

/-- A word of a tile's block through an IND pair: DEST_ABSENT when its die is lost, ignored when the tile is RETIRED (R421). -/
def Dev.tileWord (d : Dev) (t : Nat) (x : Dev → Dev) : Dev × Nat :=
  if d.lost (dieOf t) then (d, stABSENT)
  else if (d.tile t).state == .retired then (d, stOK)
  else (x d, stOK)

/-- A word of a die's block. -/
def Dev.dieWord (d : Dev) (q : Nat) (x : Dev → Dev) : Dev × Nat := if d.lost q then (d, stABSENT) else (x d, stOK)

/-- Who may write the registers of a tile that its owner may write, through the window of context `c` (Table 14.4, R420). -/
def Dev.mayWriteTile (d : Dev) (r : Requester) (c t : Nat) : Bool :=
  isCtx0 r || (c != 0 && d.isOwner r c && (d.ctx c).tileMask.getLsbD t)

end Sys2Proof.Machine
end

