-- ==== Sys2Proof/Machine/Num.lean ====
section
/-! DEFINITION. Number formats (chapter 3): exact values, the eleven formats, rounding and conversion, block scales and the scale
forge. -/

namespace Sys2Proof.Machine

/-- An exact value: NaN, an infinity, or (-1)^neg * m * 2^e. -/
inductive Val where
  | nan
  | inf (neg : Bool)
  | fin (neg : Bool) (m : Nat) (e : Int)
deriving DecidableEq, Repr

/-- A floating-point format (Tables 3.2 and 3.3): mantissa bits, exponent bits, bias, whether it has infinities, its canonical
NaN, and the code of MAXF. -/
structure Fmt where
  mant : Nat
  expo : Nat
  bias : Nat
  hasInf : Bool
  nan : Nat
  maxf : Nat
deriving DecidableEq, Repr

def fp32 : Fmt := ⟨23, 8, 127, true, 0x7FC00000, 0x7F7FFFFF⟩
def bf16 : Fmt := ⟨7, 8, 127, true, 0x7FC0, 0x7F7F⟩
def fp16 : Fmt := ⟨10, 5, 15, true, 0x7E00, 0x7BFF⟩
def e4m3 : Fmt := ⟨3, 4, 7, false, 0x7F, 0x7E⟩
def e5m2 : Fmt := ⟨2, 5, 15, true, 0x7E, 0x7B⟩
def e2m1 : Fmt := ⟨1, 2, 1, false, 0, 7⟩

/-- Format codes (Table 3.1). -/
def fmtOf (c : Nat) : Option Fmt :=
  match c with
  | 0 => some fp32 | 1 => some bf16 | 2 => some fp16 | 3 => some e4m3 | 4 => some e5m2 | 5 => some e2m1 | _ => none

/-- Width in bits of a format code; 0 for a reserved one. -/
def codeWidth (c : Nat) : Nat :=
  match c with
  | 0 => 32 | 1 => 16 | 2 => 16 | 3 => 8 | 4 => 8 | 5 => 4 | 6 => 8 | 7 => 8 | 8 => 4 | 9 => 4 | 10 => 32 | _ => 0

/-- Integer formats: signed, width (Table 3.5). -/
def intOf (c : Nat) : Option (Bool × Nat) :=
  match c with
  | 6 => some (true, 8) | 7 => some (false, 8) | 8 => some (true, 4) | 9 => some (false, 4) | 10 => some (true, 32) | _ => none

def intMin (s : Bool) (w : Nat) : Int := if s then -(2 ^ (w - 1) : Nat) else 0
def intMax (s : Bool) (w : Nat) : Int := if s then (2 ^ (w - 1) : Nat) - 1 else (2 ^ w : Nat) - 1

def Fmt.width (f : Fmt) : Nat := 1 + f.expo + f.mant

/-- A code is a NaN code of its format (Table 3.3). -/
def Fmt.isNan (f : Fmt) (e m : Nat) : Bool :=
  if f.hasInf then e == 2 ^ f.expo - 1 && m != 0 else f.expo == 4 && e == 15 && m == 7

/-- The value of a code (R79, R80). -/
def Fmt.decode (f : Fmt) (c : Nat) : Val :=
  let s := c.testBit (f.expo + f.mant)
  let e := fld c (f.expo + f.mant - 1) f.mant
  let m := c % 2 ^ f.mant
  if f.isNan e m then .nan
  else if f.hasInf && e == 2 ^ f.expo - 1 then .inf s
  else if e = 0 then .fin s m (1 - (f.bias : Int) - f.mant)
  else .fin s (2 ^ f.mant + m) ((e : Int) - f.bias - f.mant)

/-- ⌊log2⌋ of a nonzero magnitude m * 2^e. -/
def log2Floor (m : Nat) (e : Int) : Int := Nat.log2 m + e

/-- m * 2^e < m' * 2^e'. -/
def magLt (m : Nat) (e : Int) (m' : Nat) (e' : Int) : Bool :=
  if e' ≤ e then decide (m * 2 ^ (e - e').toNat < m') else decide (m < m' * 2 ^ (e' - e).toNat)

/-- How a magnitude is rounded: to nearest even, or stochastically with a 16-bit random value (R92). -/
inductive Rounding where
  | nearest
  | stochastic (u : Nat)
deriving DecidableEq, Repr

/-- m div 2^k rounded to an integer. -/
def roundShift (r : Rounding) (m k : Nat) : Nat :=
  let q := m / 2 ^ k
  let rem := m % 2 ^ k
  match r with
  | .nearest => if 2 ^ k < 2 * rem || (2 * rem == 2 ^ k && q % 2 == 1 && k != 0) then q + 1 else q
  | .stochastic u => if u < rem * 65536 / 2 ^ k then q + 1 else q

/-- Round a nonzero magnitude to `mant + 1` significant bits with the format's subnormal spacing and no upper bound: significand
and exponent of its unit (R89 step 1). -/
def roundMag (f : Fmt) (r : Rounding) (m : Nat) (e : Int) : Nat × Int :=
  let u := max (log2Floor m e - f.mant) (1 - (f.bias : Int) - f.mant)
  if u ≤ e then (m * 2 ^ (e - u).toNat, u) else (roundShift r m (u - e).toNat, u)

/-- The code of a magnitude q * 2^u that the format holds. -/
def Fmt.encodeMag (f : Fmt) (q : Nat) (u : Int) : Nat :=
  let (q, u) := if 2 ^ (f.mant + 1) ≤ q then (q / 2, u + 1) else (q, u)
  if q < 2 ^ f.mant then q else (u + f.mant + f.bias).toNat * 2 ^ f.mant + (q - 2 ^ f.mant)

def Fmt.signCode (f : Fmt) (s : Bool) (c : Nat) : Nat := if s then c + 2 ^ (f.expo + f.mant) else c

/-- Conversion events (Table 3.8). -/
inductive Event3 where
  | none | over | flush | sub
deriving DecidableEq, Repr

/-- Convert to a floating-point destination (R89 to R92, R94): the code and the event. `scaled`: the destination is MX-scaled. -/
def convertF (f : Fmt) (infMode scaled : Bool) (r : Rounding) (v : Val) : Nat × Event3 :=
  match v with
  | .nan => (f.nan, .none)
  | .inf s =>
    if f.hasInf then (f.signCode s ((2 ^ f.expo - 1) * 2 ^ f.mant), .none) else (f.signCode s f.maxf, .over)
  | .fin s m e =>
    if m = 0 then (f.signCode s 0, .none)
    else
      let (q, u) := roundMag f r m e
      let (mm, me) := match f.decode f.maxf with | .fin _ a b => (a, b) | _ => (0, 0)
      let inf := f.signCode s ((2 ^ f.expo - 1) * 2 ^ f.mant)
      let code := f.encodeMag q u
      if f.width = 32 then (if magLt mm me q u then inf else f.signCode s code, .none)
      else if magLt mm me m e then
        if scaled || !f.hasInf || !infMode then (f.signCode s f.maxf, .over)
        else if magLt mm me q u then (inf, .over) else (f.signCode s code, .over)
      else (f.signCode s code, if q = 0 then .flush else if code < 2 ^ f.mant then .sub else .none)

/-- Round to an integer, nearest even. -/
def Val.toInt (s : Bool) (m : Nat) (e : Int) : Int :=
  let a := if 0 ≤ e then m * 2 ^ e.toNat else roundShift .nearest m (-e).toNat
  if s then -(a : Int) else a

/-- Convert to an integer destination (R474): the pattern and the event. -/
def convertI (sg : Bool) (w : Nat) (v : Val) : Nat × Event3 :=
  match v with
  | .nan => (0, .over)
  | .inf s => (unsigned w (if s then intMin sg w else intMax sg w), .over)
  | .fin s m e =>
    let x := Val.toInt s m e
    let y := max (intMin sg w) (min (intMax sg w) x)
    (unsigned w y, if y == x then .none else .over)

/-- Convert to any format code. -/
def convertTo (c : Nat) (infMode scaled : Bool) (r : Rounding) (v : Val) : Nat × Event3 :=
  match fmtOf c, intOf c with
  | some f, _ => convertF f infMode scaled r v
  | none, some (s, w) => convertI s w v
  | none, none => (0, .none)

/-- The value of an integer. -/
def Val.ofInt (x : Int) : Val := .fin (x < 0) x.natAbs 0

/-- The value of a code of any format, `sg` giving the signedness of integer operands. -/
def decodeCode (c : Nat) (sg : Bool) (code : Nat) : Val :=
  match fmtOf c with
  | some f => f.decode code
  | none =>
    let w := codeWidth c
    Val.ofInt (if sg then signed w code else (code % 2 ^ w : Nat))

/-! Exact arithmetic. -/

/-- The signed integer of a finite value in units of 2^u, u ≤ e. -/
def scaledInt (s : Bool) (m : Nat) (e u : Int) : Int :=
  let a : Int := (m * 2 ^ (e - u).toNat : Nat)
  if s then -a else a

def Val.neg : Val → Val
  | .nan => .nan
  | .inf s => .inf (!s)
  | .fin s m e => .fin (!s) m e

/-- Exact sum under IEEE 754 rules; a zero sum of opposite signs is +0. -/
def Val.add (a b : Val) : Val :=
  match a, b with
  | .nan, _ => .nan
  | _, .nan => .nan
  | .inf s, .inf t => if s == t then .inf s else .nan
  | .inf s, _ => .inf s
  | _, .inf s => .inf s
  | .fin s m e, .fin t n f =>
    let u := min e f
    let x := scaledInt s m e u + scaledInt t n f u
    if x = 0 then .fin (s && t && m == 0 && n == 0) 0 0 else .fin (x < 0) x.natAbs u

/-- Exact product under IEEE 754 rules. -/
def Val.mul (a b : Val) : Val :=
  match a, b with
  | .nan, _ => .nan
  | _, .nan => .nan
  | .inf s, .inf t => .inf (s != t)
  | .inf s, .fin t m _ => if m = 0 then .nan else .inf (s != t)
  | .fin s m _, .inf t => if m = 0 then .nan else .inf (s != t)
  | .fin s m e, .fin t n f => .fin (s != t) (m * n) (e + f)

/-- Multiply by a power of two. -/
def Val.scale (v : Val) (k : Int) : Val :=
  match v with
  | .fin s m e => .fin s m (e + k)
  | v => v

def Val.isNan : Val → Bool
  | .nan => true
  | _ => false

def Val.isZero : Val → Bool
  | .fin _ m _ => m == 0
  | _ => false

/-- IEEE comparison of values that are not NaN. -/
def Val.lt (a b : Val) : Bool :=
  match a, b with
  | .nan, _ => false
  | _, .nan => false
  | .inf s, .inf t => s && !t
  | .inf s, _ => s
  | _, .inf t => !t
  | .fin s m e, .fin t n f =>
    let u := min e f
    decide (scaledInt s m e u < scaledInt t n f u)

/-! Scales. -/

/-- A value under an E8M0 block scale (R82, R83, R88). -/
def underBlockScale (v : Val) (c : Nat) : Val := if c = 255 then .nan else v.scale ((c : Int) - 127)

/-- An integer code under a BF16 group scale (R84, R88). -/
def underGroupScale (v : Val) (c : Nat) : Val :=
  match bf16.decode c with
  | .nan => .nan
  | .inf _ => .nan
  | .fin s m e => Val.mul v (.fin s m e)

/-- emax of a scaled format (R95). -/
def forgeEmax (c : Nat) : Int := if c = 3 then 8 else if c = 4 then 15 else 2

/-- The largest magnitude among the nonzero finite values: its ⌊log2⌋. -/
def blockLog2 : List Val → Option Int
  | [] => none
  | v :: r =>
    match v, blockLog2 r with
    | .fin _ m e, none => if m = 0 then none else some (log2Floor m e)
    | .fin _ m e, some x => if m = 0 then some x else some (max x (log2Floor m e))
    | _, x => x

/-- The scale forge (R95, R96): scale code, and the code and event of each element. -/
def forge (c : Nat) (r : Nat → Rounding) (vs : List Val) : Nat × List (Nat × Event3) :=
  let f := (fmtOf c).getD e4m3
  if c = 5 && vs.any Val.isNan then (255, vs.map (fun _ => (0, .none)))
  else
    let x : Int := match blockLog2 vs with
      | none => 0
      | some l => max (-127) (min 127 (l - forgeEmax c))
    ((127 + x).toNat, vs.zipIdx.map (fun p => convertF f false true (r p.2) (p.1.scale (-x))))

/-- Bits of an element code at position `i` of a run of codes of width `w` (R61): 4-bit codes two to a byte, low first. -/
def codeAt (get : Nat → Byte) (w i : Nat) : Nat :=
  if w = 4 then fld (get (i / 2)).toNat (4 * (i % 2) + 3) (4 * (i % 2))
  else leOf ((List.range (w / 8)).map (fun b => get (i * (w / 8) + b)))

/-- Pack codes of a width into bytes (R61). -/
def packCodes (w : Nat) : List Nat → List Byte
  | [] => []
  | a :: r =>
    if w = 4 then
      match r with
      | [] => [BitVec.ofNat 8 (a % 16)]
      | b :: r' => BitVec.ofNat 8 (a % 16 + 16 * (b % 16)) :: packCodes w r'
    else toLE (w / 8) a ++ packCodes w r

end Sys2Proof.Machine
end

