-- ==== Sys2Proof/Machine/Image.lean ====
section
/-! DEFINITION. Reading a stratum image where it lies (R136, R137, R140, R142) and loading a tile from it (R140, R161, R164). -/

namespace Sys2Proof.Machine

/-- Reads `n` bytes at an offset as a number, least significant byte first. -/
abbrev Reader := Nat → Nat → Nat

/-- The reserved area of quarter `q` (R175), which begins with image area `q`. -/
def areaBase (q : Nat) : Nat := q * 0x4000000000 + 0x3FE0000000

/-- The image in area `q`. -/
def areaReader (m : Mem) (d : Dev) (q : Nat) : Reader := fun off n => peekLE m d (areaBase q + off) n

/-- An image held as bytes. -/
def listReader (bs : List Byte) : Reader := fun off n => leOf ((bs.drop off).take n)

/-- Header fields (Table 5.1). -/
def imgMagic (r : Reader) : Nat := r 0 4
def imgGeneration (r : Reader) : Nat := r 4 4
def imgKind (r : Reader) : Nat := r 11 1
def imgFormat (r : Reader) : Nat := r 12 2
def imgSections (r : Reader) : Nat := r 14 2
def imgIdMode (r : Reader) : Bool := r 16 1 % 2 == 1
def imgMinGen (r : Reader) : Nat := r 17 1
def imgReqCaps (r : Reader) : Nat := r 18 4
def imgBindSerial (r : Reader) : Nat := r 22 10
def imgSize (r : Reader) : Nat := r 32 4
def imgSigOffset (r : Reader) : Nat := r 36 4
def imgBaseGen (r : Reader) : Nat := r 40 4

/-- A section-table entry (Table 5.2). -/
structure Section where
  type : Nat
  index : Nat
  width : Nat
  svn : Nat
  off : Nat
  len : Nat
  crc : Nat
  rsv : Nat
deriving DecidableEq, Repr

def readSection (r : Reader) (i : Nat) : Section :=
  let v := r (256 + 32 * i) 32
  { type := fld v 7 0, index := fld v 23 16, width := fld v 31 24, svn := fld v 159 144, off := fld v 191 160,
    len := fld v 223 192, crc := fld v 255 224, rsv := fld v 15 8 + fld v 143 32 }

def imgSectionList (r : Reader) : List Section := (List.range (imgSections r)).map (readSection r)

/-- The section of a type that occurs once. -/
def findSection (r : Reader) (ty : Nat) : Option Section := (imgSectionList r).find? (fun s => s.type == ty)

/-- The TILE section of a tile at a width (R164). -/
def tileSection (r : Reader) (t w : Nat) : Option Section :=
  (imgSectionList r).find? (fun s => s.type == 4 && s.index == t && s.width == w)

/-- PHASE_COUNT (R139). -/
def imgPhases (r : Reader) : Nat := match findSection r 1 with | some s => r s.off 1 % 16 | none => 0

/-- The PARTITION entry of context `c` (Table 5.10), 0 when the image has none. -/
def imgPartition (r : Reader) (c : Nat) : Nat :=
  match findSection r 2 with
  | some s => if 1 ≤ c then r (s.off + 32 * (c - 1)) 32 else 0
  | none => 0

/-- MEMMAP regions (Table 5.9). -/
def imgRegions (r : Reader) : List Nat :=
  match findSection r 3 with
  | some s => (List.range (r (s.off + 2) 2)).map (fun i => r (s.off + 32 + 32 * i) 32)
  | none => []

def imgGranule (r : Reader) : Nat := match findSection r 3 with | some s => r s.off 1 % 8 | none => 0

/-- ROUTE entries, and ALT_ROUTE entries, in section order (Table 5.8). -/
def imgRoutes (r : Reader) : List Nat :=
  match findSection r 5 with
  | some s => (List.range (r s.off 2)).map (fun i => r (s.off + 16 + 64 * i) 64)
  | none => []

def imgAlternates (r : Reader) : List Nat :=
  match findSection r 6 with
  | some s => (List.range (r s.off 2)).map (fun i => r (s.off + 16 + 32 * i) 32)
  | none => []

/-- Route fields (Table 5.8). -/
def routeId (v : Nat) : Nat := fld v 15 0
def routeStream (v : Nat) : Nat := fld v 27 16
def routeSrc (v : Nat) : Nat := fld v 41 32
def routeDst (v : Nat) : Nat := fld v 57 48
def routePhases (v : Nat) : Nat := fld v 71 64
def routePersist (v : Nat) : Bool := v.testBit 72
def routeHops (v : Nat) : Nat := fld v 78 76
def routeLink (v h : Nat) : Nat := fld v (96 + 4 * h + 2) (96 + 4 * h)
def routeCredit (v : Nat) : Nat := fld v 119 112
def routeMods (v h : Nat) : Nat := fld v (128 + 16 * h + 15) (128 + 16 * h)
def routeRing (v : Nat) : Nat := fld v 255 192
def routeBytes (v : Nat) : Nat := fld v 287 256
def altId (v : Nat) : Nat := fld v 15 0
def altTrigger (v : Nat) : Nat := fld v 18 16
def altHops (v : Nat) : Nat := fld v 22 20
def altLink (v h : Nat) : Nat := fld v (32 + 4 * h + 2) (32 + 4 * h)
def altMods (v h : Nat) : Nat := fld v (64 + 16 * h + 15) (64 + 16 * h)

/-- The tiles an endpoint pair touches (R143). -/
def endpointTile (e : Nat) : Option Nat := if e / 256 = 0 then some (fld e 7 2) else none

/-- ARRAY_WIDTH: logical columns in service (R67). -/
def popcount (v : Nat) (w : Nat) : Nat := ((List.range w).filter v.testBit).length
def Tile.width (x : Tile) : Nat := 32 - popcount x.bypass.toNat 32

/-- Plane fields (Table 5.7). -/
def planeRepeat (p : BitVec 512) : Nat := fb p 415 384
def planeVecLen (p : BitVec 512) : Nat := fb p 383 352
def planeVecBase (p : BitVec 512) : Nat := fb p 351 332
def planeDescCount (p : BitVec 512) : Nat := fb p 319 288
def planeDescBase (p : BitVec 512) : Nat := fb p 287 271
def planeOutRoute (p : BitVec 512) (i : Nat) : Nat := fb p (128 + 32 * i + 31) (128 + 32 * i)
def planeInRoute (p : BitVec 512) (i : Nat) : Nat := fb p (32 * i + 31) (32 * i)

/-- The plane record for a phase, of a TILE section. -/
def sectionPlane (r : Reader) (s : Section) (phase : Nat) : BitVec 512 := BitVec.ofNat 512 (r (s.off + 64 + 64 * phase) 64)

/-- Copy the payload records of a TILE section into the tile's scratchpad (R140): `n` records from offset `o`. -/
def loadRecords (r : Reader) (t : Nat) : Nat → Nat → Dev → Dev
  | 0, _, d => d
  | n + 1, o, d =>
    let a := r o 4 % 2 ^ 20 * 32
    let len := r (o + 4) 4
    let bytes := toLE len (r (o + 32) len)
    loadRecords r t n (o + 32 + ceilDiv len 32 * 32) (d.pokeN (scrBase t + a) bytes)

def loadPayload (r : Reader) (s : Section) (t : Nat) (d : Dev) : Dev := loadRecords r t (r (s.off + 4) 2) (s.off + 576) d

/-- Make a plane active on a tile (R161): the conversion and share maps load, both sequencers start pass 1, and work that an
error had stopped may go on (R477). A tile that narrowing had halted becomes IDLE, its keeper from IDLE (Table 2.5). -/
def Dev.activatePlane (d : Dev) (t : Nat) (p : BitVec 512) : Dev :=
  let x := d.tile t
  let d := d.setTile t { x with plane := some p, shadow := none, descIdx := 0, descPass := 0, vecIdx := 0, vecPass := 0,
                                vecWaiting := false, stopped := false, moverStopped := false, narrowed := false,
                                state := if x.state == .halted then .idle else x.state,
                                keeper := if x.state == .halted then { config := x.keeper.config } else x.keeper }
  let d := d.setRf (Reg.tileConvCtrl t) 7 0 (fb p 447 440)
  let d := d.setRegN (Reg.tileShareMapLo t) (fb p 479 448)
  d.setRegN (Reg.tileShareMapHi t) (fb p 511 480)

/-- Load a tile's payload and plane for `phase` from the image `r`, from the section of its width (R164). A RETIRED tile, and a
tile without such a section, is left as it is; the latter stays or becomes HALTED only by narrowing. -/
def Dev.loadTile (d : Dev) (r : Reader) (t phase : Nat) : Dev :=
  if (d.tile t).state == .retired then d
  else match tileSection r t (d.tile t).width with
    | none => d
    | some s => (loadPayload r s t d).activatePlane t (sectionPlane r s phase)

/-- Reload tiles from CURRENT in a phase (R166, R324). -/
def Dev.reloadTiles (d : Dev) (m : Mem) (ts : List Nat) (phase : Nat) : Dev :=
  if d.strata.curValid then d.each ts (fun d t => d.loadTile (areaReader m d d.strata.cur) t phase) else d

end Sys2Proof.Machine
end

