-- ==== Sys2Proof/Machine/Work.lean ====
section
/-! DEFINITION. How work ends: completion records (R342), the end of a tile's work with an error (R477), what a stage unit does
then (R324), and the reset of a tile (R74, R475). -/

namespace Sys2Proof.Machine

/-! Run records (Table 11.7) and completions (Table 11.8). -/

def Run.op (x : Run) : Nat := fb x.record 39 32
def Run.flags (x : Run) : Nat := fb x.record 47 40
def Run.fenced (x : Run) : Bool := x.record.getLsbD 40
def Run.deadlineEn (x : Run) : Bool := x.record.getLsbD 41
def Run.evt (x : Run) : Bool := x.record.getLsbD 42
def Run.deadline (x : Run) : Nat := fb x.record 127 64
/-- RUN: TILE_MASK; COPY: HOST_ADDR; ABORT: TARGET in the low 32 bits. -/
def Run.word16 (x : Run) : Nat := fb x.record 191 128
def Run.tileMask (x : Run) : Nat := x.word16
def Run.target (x : Run) : Nat := x.word16 % 2 ^ 32
def Run.hostAddr (x : Run) : Nat := x.word16
def Run.startSem (x : Run) : Nat := fb x.record 195 192
def Run.doneSem (x : Run) : Nat := fb x.record 203 200
def Run.localAddr (x : Run) : Nat := fb x.record 255 192
def Run.inHost (x : Run) : Nat := fb x.record 319 256
def Run.inBytes (x : Run) : Nat := fb x.record 351 320
def Run.inScr (x : Run) : Nat := fb x.record 383 352 * 32
def Run.length (x : Run) : Nat := fb x.record 287 256
def Run.toHost (x : Run) : Bool := x.record.getLsbD 288

/-- The tiles of a mask, lowest first. -/
def maskTiles (v : Nat) : List Nat := (List.range 64).filter v.testBit

/-- The lead tile: the lowest of the mask (R341). -/
def leadTile (v : Nat) : Nat := (maskTiles v).headD 0

def Dev.findRun (d : Dev) (c : Nat) (seq : BitVec 32) : Option Run := (d.ctx c).runs.find? (fun x => x.seq == seq)

def Dev.putRun (d : Dev) (c : Nat) (x : Run) : Dev :=
  d.setCtx c { d.ctx c with runs := (d.ctx c).runs.map (fun y => if y.seq == x.seq then x else y) }

def Dev.dropRun (d : Dev) (c : Nat) (seq : BitVec 32) : Dev :=
  d.setCtx c { d.ctx c with runs := (d.ctx c).runs.filter (fun y => y.seq != seq) }

/-- The host address of a run's completion slot (R342). -/
def Dev.cplSlot (d : Dev) (c : Nat) (seq : BitVec 32) : Nat :=
  d.reg64 (Reg.ctxCplBaseLo c) / 64 * 64 + seq.toNat % 2 ^ d.rf (Reg.ctxCplCtrl c) 4 0 * 64

/-- Bytes 8 to 63 of a completion record. -/
def Dev.cplBody (d : Dev) (c : Nat) (x : Run) : List Byte :=
  toLE 8 x.startLt.toNat ++ toLE 8 x.endLt.toNat ++ toLE 2 x.code.toNat ++ [x.unit] ++ [0] ++ toLE 4 x.detail.toNat
    ++ toLE 8 x.addr.toNat ++ toLE 4 x.moved ++ toLE 4 (d.ctx c).gen.toNat ++ toLE 16 0

/-- Once bytes 8 to 63 and every write the run made have their HCMP, write bytes 0 to 7 with VALID 0b1: the run is completed
(R342). -/
def Dev.cplFinish (d : Dev) (c : Nat) (seq : BitVec 32) : Dev :=
  match d.findRun c seq with
  | none => d
  | some x =>
    if x.state == .ending && x.bodyDone &&
        !(d.tags.any (fun t => t.purpose == .copyWrite && t.ctx == c && t.b == seq.toNat && !t.reserved)) then
      let head := toLE 4 seq.toNat ++ [1] ++ [x.status] ++ [BitVec.ofNat 8 x.op] ++ [0]
      let d := d.dropRun c seq
      let d := d.setCtx c { d.ctx c with cplValid := seq.toNat :: (d.ctx c).cplValid }
      let d := d.bump (Reg.ctxRunsDone c)
      let d := d.hwr (d.ctx c).port c (d.cplSlot c seq) head .cplValid c seq.toNat
      if x.evt then d.event [c] x.code.toNat (if x.status == 0 then 0 else 2) seq.toNat 0 x.unit.toNat else d
    else d

/-- A run ends: its completion's bytes 8 to 63 are written (R341, R342). -/
def Dev.endRun (d : Dev) (c : Nat) (seq : BitVec 32) (status code unit detail addr : Nat) : Dev :=
  match d.findRun c seq with
  | none => d
  | some x =>
    if x.state == .ending then d
    else
      let x := { x with state := .ending, status := BitVec.ofNat 8 status, code := BitVec.ofNat 16 code,
                        unit := BitVec.ofNat 8 unit, detail := BitVec.ofNat 32 detail, addr := BitVec.ofNat 64 addr,
                        endLt := d.lode.count, bodySent := true }
      let d := d.putRun c x
      d.hwr (d.ctx c).port c (d.cplSlot c seq + 8) (d.cplBody c x) .cplBody c seq.toNat

/-- A RUN that is running and holds tile `t` (R341). -/
def Dev.runOn (d : Dev) (c t : Nat) : Option Run :=
  (d.ctx c).runs.find? (fun x => x.op == 1 && x.state == .running && x.tileMask.testBit t)

/-! Stage units (Table 10.5). -/

/-- Bytes of the validated stage table of context `c`: stage `v`, offset, length. -/
def Ctx.stageField (x : Ctx) (v off n : Nat) : Nat := leOf (((x.pipe.table.drop (64 + 256 * v + off)).take n))

def Ctx.vsMask (x : Ctx) : Nat := leOf ((x.pipe.table.drop 2).take 1)

/-- FWD_MASK, BWD_MASK, UPD_MASK of a stage. -/
def Ctx.unitMask (x : Ctx) (v u : Nat) : Nat := x.stageField v (4 + 8 * u) 8

def Ctx.stage (x : Ctx) (v : Nat) : Stage := mget {} x.pipe.stages v

def Dev.setStage (d : Dev) (c v : Nat) (s : Stage) : Dev :=
  let x := d.ctx c
  d.setCtx c { x with pipe := { x.pipe with stages := mset x.pipe.stages v s } }

/-- The stage and unit (0 forward, 1 backward, 2 update) that a tile serves. -/
def Ctx.unitOf (x : Ctx) (t : Nat) : Option (Nat × Nat) :=
  if x.pipe.state == .off then none
  else ((List.range 8).flatMap (fun v => (List.range 3).map (fun u => (v, u)))).find?
    (fun p => x.vsMask.testBit p.1 && (x.unitMask p.1 p.2).testBit t)

/-- A unit tile went HALTED or its work ended with an error (R324). A forward or recompute item will be dispatched again;
after an error the unit's tiles are reloaded from CURRENT. A backward or update item cannot be repeated: FAULT. -/
def Dev.unitFault (d : Dev) (m : Mem) (c t : Nat) (halted : Bool) : Dev :=
  let x := d.ctx c
  match x.unitOf t with
  | none => d
  | some (v, u) =>
    let s := x.stage v
    if u = 0 then
      match s.fwdItem with
      | none => d
      | some i =>
        let d := d.setStage c v { s with fwdItem := some { i with started := false } }
        if halted then d else d.reloadTiles m (maskTiles (x.unitMask v 0)) x.phase
    else
      match (if u = 1 then s.bwdItem else s.updItem) with
      | none => d
      | some i =>
        let d := d.setCtx c { x with pipe := { x.pipe with state := .fault } }
        d.event [c] 0x0804 2 v i.mb.toNat 0

/-- The tile's current work ends with an error (R477): both sequencers stop and nothing further starts. The record is written
when the code is one that is (Table 12.1); a RUN that holds the tile completes with ERROR, `detail` and `addr`, and a stage
unit follows R324. -/
def Dev.tileErrorAt (d : Dev) (m : Mem) (t code d0 d1 : Nat) (record : Bool) (detail addr : Nat) : Dev :=
  let x := d.tile t
  let d := d.setTile t { x with stopped := true, vecWaiting := false, moverStopped := true }
  let d := if record then d.tileEvent t code (if code == 0x0106 then 3 else 2) d0 d1 else d
  match d.ownerOf t with
  | none => d
  | some c =>
    let d := match d.runOn c t with
      | some r => d.endRun c r.seq 3 code t (detail % 2 ^ 32) addr
      | none => d
    d.unitFault m c t (code == 0x0102 || code == 0x0106)

/-- The same, where DETAIL and ERR_ADDR are D0. -/
def Dev.tileError (d : Dev) (m : Mem) (t code d0 d1 : Nat) (record : Bool) : Dev := d.tileErrorAt m t code d0 d1 record d0 d0

/-- The state of a tile after a context or compute reset (R74, R475): map, keeper settings and scratchpad faults stay. -/
def Tile.afterReset (x : Tile) : Tile :=
  { state := x.state, bypass := x.bypass, narrowed := x.narrowed, forced := x.forced, plane := x.plane, shadow := none,
    keeper := { config := x.keeper.config }, badWords := x.badWords, remaps := x.remaps, sparesFused := x.sparesFused,
    clearing := x.clearing, stopped := x.stopped, mbId := x.mbId, gadvUnit := x.gadvUnit,
    semSetter := [] }

/-- A tile reset; the mover starts again with an empty ring (log entry 24). -/
def Dev.resetTile (d : Dev) (t : Nat) : Dev := (d.setTile t (d.tile t).afterReset).setReg (Reg.tileMoveCons t) 0

/-- Set a tile semaphore on behalf of unit `u` (Table 12.6). -/
def Dev.setSem (d : Dev) (t n u : Nat) : Dev :=
  let x := d.tile t
  d.setTile t { x with sems := x.sems ||| BitVec.ofNat 16 (2 ^ n), semSetter := mset x.semSetter n u }

def Dev.clearSem (d : Dev) (t n : Nat) : Dev :=
  let x := d.tile t
  d.setTile t { x with sems := x.sems &&& ~~~(BitVec.ofNat 16 (2 ^ n)) }

def Tile.sem (x : Tile) (n : Nat) : Bool := x.sems.getLsbD n

end Sys2Proof.Machine
end

