-- ==== Sys2Proof/Machine/Buckets.lean ====
section
/-! DEFINITION. The leaky buckets (R353, R354, R356) and what the risk score counts (R360). -/

namespace Sys2Proof.Machine

def bucketKey (cls unit : Nat) : Nat := cls * 2 ^ 32 + unit

/-- N and W of a class (RAS_LB_CFG_k) and LEAK := ⌈W ÷ N⌉. -/
def Dev.lbN (d : Dev) (cls : Nat) : Nat := d.rf (Reg.rasLbCfg cls) 31 24
def Dev.lbW (d : Dev) (cls : Nat) : Nat := d.rf (Reg.rasLbCfg cls) 23 0 * 64
def Dev.lbLeak (d : Dev) (cls : Nat) : Nat := ceilDiv (d.lbW cls) (d.lbN cls)

/-- Units of Table 12.3. -/
def columnUnit (t col : Nat) : Nat := t * 256 + col
def scrRowUnit (t bank row : Nat) : Nat := t * 2 ^ 24 + bank * 2 ^ 16 + row
def d2dLaneUnit (link module lane die : Nat) : Nat := link + module * 2 ^ 8 + lane * 2 ^ 16 + die * 2 ^ 24
def fabLaneUnit (port lane : Nat) : Nat := port + lane * 256

/-- The table a row bucket belongs to (R354): per tile for SCR_ROW, per compute die for HBM_ROW; its size. -/
def bucketTable (cls unit : Nat) : Option (Nat × Nat) :=
  if cls = 2 then some (unit / 2 ^ 24, 64) else if cls = 3 then some (unit / 2 ^ 28 / 4, 1024) else none

/-- Of the buckets of a table that are above level 0, the one with the lowest level, the oldest among equals. -/
def victim (l : List (Nat × Bucket)) : Option Nat :=
  (l.foldl (fun (acc : Option (Nat × Bucket)) x =>
    match acc with
    | none => some x
    | some y => if x.2.level < y.2.level || (x.2.level == y.2.level && x.2.age < y.2.age) then some x else some y)
    none).map (·.1)

/-- Make room for a row bucket that is not held yet (R354). -/
def Dev.bucketRoom (d : Dev) (cls unit : Nat) : Dev :=
  match bucketTable cls unit with
  | none => d
  | some (g, size) =>
    let same := d.ras.buckets.filter (fun x => x.1 / 2 ^ 32 == cls && (bucketTable cls (x.1 % 2 ^ 32)).map (·.1) == some g)
    if same.length < size then d
    else match victim same with
      | none => d
      | some k => ({ d with ras := { d.ras with buckets := mdel d.ras.buckets k } }).bump Reg.rasLbEvict

/-- Whether a reset that covers a unit is running, so that its lasting action waits (R356). -/
def Dev.resetCovers (d : Dev) (cls unit : Nat) : Bool :=
  d.ras.resets.any (fun r =>
    if r.scope != 1 then cls < 3 || r.scope == 3
    else cls < 3 && (match d.ownerOf (if cls = 2 then unit / 2 ^ 24 else unit / 256) with
                     | some c => r.ctxs.contains c
                     | none => false))

/-- One event on a bucket: the state, and whether the fault became lasting. The lasting action is the caller's. -/
def Dev.charge (d : Dev) (cls unit : Nat) (uncorrectable : Bool) (cs : List Nat) (u : Nat) : Dev × Bool :=
  let k := bucketKey cls unit
  let d := if (mfind d.ras.buckets k).isNone then d.bucketRoom cls unit else d
  let b := mget { age := d.ras.nextAge, level := 0, clock := d.lode.count } d.ras.buckets k
  let n := d.lbN cls
  let l := if uncorrectable then n else b.level + 1
  let clock := if b.level = 0 then d.lode.count else b.clock
  if n ≤ l then
    let d := { d with ras := { d.ras with buckets := mdel d.ras.buckets k, nextAge := d.ras.nextAge + 1,
                                          lasting := d.lode.count :: d.ras.lasting } }
    ((d.bump (Reg.rasLasting cls)).event cs 0x0B01 1 cls unit u, true)
  else
    ({ d with ras := { d.ras with buckets := mset d.ras.buckets k { b with level := l, clock := clock },
                                  nextAge := d.ras.nextAge + 1 } }, false)

/-- REPAIR_EXHAUSTED: the action found no resource left (R353). -/
def Dev.exhausted (d : Dev) (cls unit : Nat) (cs : List Nat) (u : Nat) : Dev := d.event cs 0x0B02 2 cls unit u

/-- A fabric retrain, Pequa retrain, or module narrowing or loss, for the term L of R360. -/
def Dev.noteLink (d : Dev) : Dev := { d with ras := { d.ras with linkEvents := d.lode.count :: d.ras.linkEvents } }

/-- Keep a lasting action for the end of the reset that covers its unit (R356). -/
def Dev.defer (d : Dev) (cls unit : Nat) : Dev :=
  { d with ras := { d.ras with deferred := d.ras.deferred ++ [(cls, unit)] } }

end Sys2Proof.Machine
end

