-- ==== Sys2Proof/Machine/LinkOps.lean ====
section
/-! DEFINITION. Die-to-die modules: cells, sequence and replay (R14, R15), raw-stream credits (R18, R19), lane repair and narrowing
(R357, R358), a module that leaves service (R16, R20, R21, R145). -/

namespace Sys2Proof.Machine

/-! CRC-32 (IEEE 802.3): reflected, initial value and final inversion all ones. -/

def crcBit : Nat → Nat → Nat
  | 0, c => c
  | n + 1, c => crcBit n (if c % 2 = 1 then (c / 2) ^^^ 0xEDB88320 else c / 2)

def crcByte (c : Nat) (b : Byte) : Nat := crcBit 8 (c ^^^ b.toNat)

def crc32 (bs : List Byte) : Nat := bs.foldl crcByte 0xFFFFFFFF ^^^ 0xFFFFFFFF

/-! Links (Table 1.2). -/

def linkModules (n : Nat) : Nat := [16, 16, 8, 8, 8, 8, 8, 4].getD n 0

/-- The dies at the ends of a link, lower number first (R33). -/
def linkEnds (n : Nat) : Nat × Nat := [(0, 1), (2, 3), (1, 2), (0, 4), (1, 4), (2, 5), (3, 5), (4, 5)].getD n (0, 0)

def linksOf (die : Nat) : List Nat := (List.range 8).filter (fun n => (linkEnds n).1 == die || (linkEnds n).2 == die)

def otherEnd (n die : Nat) : Nat := if (linkEnds n).1 = die then (linkEnds n).2 else (linkEnds n).1

/-- Cell classes a link carries (Table 1.2). -/
def linkCarries (n cls : Nat) : Bool :=
  if n < 3 then cls ≤ 4 else if n < 7 then cls ≤ 7 else cls ≤ 7 && cls != 4

/-- Modules of a link in service. -/
def Dev.serving (d : Dev) (n : Nat) : List Nat := (List.range (linkModules n)).filter (fun m => (d.module n m).inService)

/-- A capability of the negotiated set (Table 1.6). -/
def Dev.cap (d : Dev) (i : Nat) : Bool := d.negCaps.getLsbD i

/-- Quarter `q` is out of service (R172). -/
def Dev.quarterOut (d : Dev) (q : Nat) : Bool := d.lost q || (List.range 4).any (fun s => (d.stack (4 * q + s)).state == 3)

/-- Collective engines in service (R267): their die and their quarter are. -/
def Dev.enginesIn (d : Dev) : List Nat :=
  (List.range 4).filter (fun e => !d.lost (if e < 2 then 4 else 5) && !d.quarterOut e)

/-- RAS_DEGRADED as its causes stand (Table 12.15); 0 until roles are taken. -/
def Dev.degradedWord (d : Dev) : Nat :=
  if d.role == .reset || d.role == .training then 0
  else
    let b := fun (x : Bool) (i : Nat) => if x then 2 ^ i else 0
    let short := (List.range 8).any (fun n => ((d.serving n).filter (fun m => !(d.module n m).half)).length < linkModules n)
    let quarter := (List.range 4).any d.quarterOut
    let ports := (List.range 8).any (fun p =>
      let x := d.port p
      x.state == .failed || x.state == .miswired ||
      ((x.state == .active || x.state == .repair) && (popcount x.rxUse.toNat 18 < 16 || popcount x.txUse.toNat 18 < 16)))
    let hosts := (List.range 4).any (fun p => (d.host p).up && ((d.host p).width != 3 || (d.host p).rate != 3))
    b hosts 9 + b (d.enginesIn.length < 4) 8 + b (d.lost 4) 7 + b ports 6
      + b ((List.range 64).any (fun t => (d.tile t).state != .retired && (d.tile t).width < 32)) 5
      + b ((List.range 64).any (fun t => (d.tile t).state == .retired)) 4
      + b quarter 3 + b d.fenced 2 + b ((List.range 6).any (fun i => (d.die i).absent || (d.die i).clockLost)) 1 + b short 0

/-- Write DEGRADED when RAS_DEGRADED has changed, and bring DEV_ROLE.STATE into line (R377). -/
def Dev.noteDegraded (d : Dev) : Dev :=
  let w := d.degradedWord
  if BitVec.ofNat 32 w == d.ras.degraded then d
  else
    let d := { d with ras := { d.ras with degraded := BitVec.ofNat 32 w } }
    let bad := w % 16 != 0 || w.testBit 7 || w.testBit 8
    let d := if d.role == .ready || d.role == .degraded then { d with role := if bad then .degraded else .ready } else d
    d.pkgEvent 0x0B0B 2 w 0

/-! Cells (Table 1.3). -/

def cellClass (c : BitVec 640) : Nat := fb c 639 636
def cellStream (c : BitVec 640) : Nat := fb c 635 624
def cellSeq (c : BitVec 640) : Nat := fb c 623 608
def cellAck (c : BitVec 640) : Nat := fb c 607 592
def cellCrStream (c : BitVec 640) : Nat := fb c 591 580
def cellCrCount (c : BitVec 640) : Nat := fb c 579 576

/-- The CRC-32 of bits [639:32] (R14). -/
def cellCrc (c : BitVec 640) : Nat := crc32 (toLE 76 (fb c 639 32))

def cellCrcOk (c : BitVec 640) : Bool := cellCrc c == fb c 31 0

/-- A cell as a sender builds it. -/
def makeCell (q : CellRequest) (seq ack crStream crCount : Nat) : BitVec 640 :=
  let body := q.cls.toNat * 2 ^ 636 + q.stream.toNat * 2 ^ 624 + seq % 65536 * 2 ^ 608 + ack % 65536 * 2 ^ 592
    + crStream % 4096 * 2 ^ 580 + crCount % 16 * 2 ^ 576 + q.ctx.toNat * 2 ^ 570 + (if q.last then 2 ^ 569 else 0)
    + (if q.err then 2 ^ 568 else 0) + q.payload.toNat * 2 ^ 32
  BitVec.ofNat 640 (body + crc32 (toLE 76 (body / 2 ^ 32)))

/-- The request a cell carries, to send its contents again under a new SEQ. -/
def cellRequest (c : BitVec 640) : CellRequest :=
  { cls := BitVec.ofNat 4 (cellClass c), stream := BitVec.ofNat 12 (cellStream c), ctx := BitVec.ofNat 6 (fb c 575 570),
    last := c.getLsbD 569, err := c.getLsbD 568, payload := BitVec.ofNat 512 (fb c 543 32) }

def D2dModule.endAt (x : D2dModule) (high : Bool) : D2dEnd := if high then x.high else x.low

def D2dModule.withEnd (x : D2dModule) (high : Bool) (e : D2dEnd) : D2dModule :=
  if high then { x with high := e } else { x with low := e }

/-- Credits an end owes go back with its next cell: one stream, at most 15 cells. -/
def D2dEnd.takeCredit (e : D2dEnd) : Nat × Nat × D2dEnd :=
  match e.owed with
  | [] => (0, 0, e)
  | (s, n) :: r => if n ≤ 15 then (s, n, { e with owed := r }) else (s, 15, { e with owed := (s, n - 15) :: r })

/-- A new cell may be sent by an end now: replay buffer (R15), RAW credits (R18, R19), CTL on the control module at most one
cell in 16 (R16). -/
def Dev.maySend (d : Dev) (n m : Nat) (high : Bool) (q : CellRequest) : Bool :=
  let x := d.module n m
  let e := x.endAt high
  x.inService && linkCarries n q.cls.toNat && e.unacked.length < 256
    && (q.cls != 4 || mget 0 e.outstanding q.stream.toNat < mget 0 x.limit q.stream.toNat)
    && (q.cls != 1 || (mget 0 d.ctlModule n == m && 15 ≤ e.sinceCtl))
    && (q.cls == 1 || q.cls == 0 || d.role == .ready || d.role == .degraded)

/-- Send a new cell. IDLE cells carry acknowledgements and credits only and take no SEQ (log entry 5). -/
def Dev.sendCell (d : Dev) (n m : Nat) (high : Bool) (q : CellRequest) : Dev :=
  let x := d.module n m
  let (cs, cn, e) := (x.endAt high).takeCredit
  let cell := makeCell q e.txSeq.toNat e.rxSeq.toNat cs cn
  let e := if q.cls == 0 then e
    else { e with txSeq := e.txSeq + 1, unacked := e.unacked ++ [cell],
                  outstanding := if q.cls == 4 then mupd 0 e.outstanding q.stream.toNat (· + 1) else e.outstanding,
                  sinceCtl := if q.cls == 1 then 0 else min 15 (e.sinceCtl + 1) }
  (d.setModule n m (x.withEnd high e)).emit (.d2dCell n m high cell)

/-- Send the oldest cell still to be replayed (R15), with the acknowledgement as it now stands. -/
def Dev.replayCell (d : Dev) (n m : Nat) (high : Bool) : Dev :=
  let x := d.module n m
  let e := x.endAt high
  match (e.unacked.drop (e.unacked.length - e.toReplay)).head? with
  | none => d
  | some old =>
    let cell := makeCell (cellRequest old) (cellSeq old) e.rxSeq.toNat 0 0
    let d := d.setModule n m (x.withEnd high { e with toReplay := e.toReplay - 1 })
    let die := if high then (linkEnds n).2 else (linkEnds n).1
    (d.bump (Reg.devD2dCnt die n m 0)).emit (.d2dCell n m high cell)

/-- Cells an ACK takes out of the replay buffer: those up to `ack`, modulo 65,536. -/
def ackedCells (l : List (BitVec 640)) (ack : Nat) : List (BitVec 640) :=
  l.takeWhile (fun c => (ack + 65536 - cellSeq c) % 65536 < 32768)

/-- What ACK and credit fields of an accepted cell do to the end that receives it. -/
def D2dEnd.acknowledge (e : D2dEnd) (cell : BitVec 640) : D2dEnd :=
  let gone := ackedCells e.unacked (cellAck cell)
  let raw := gone.filter (fun c => cellClass c == 4)
  { e with
    unacked := e.unacked.drop gone.length
    toReplay := min e.toReplay (e.unacked.length - gone.length)
    ackedRaw := raw.foldl (fun a c => mupd 0 a (cellStream c) (· + 1)) e.ackedRaw
    outstanding := if cellCrCount cell = 0 then e.outstanding
      else mupd 0 e.outstanding (cellCrStream cell) (· - cellCrCount cell) }

/-! Routes over a link. -/

/-- The context a route belongs to: the owner of its source tile. -/
def Dev.routeCtx (d : Dev) (v : Nat) : Option Nat := (endpointTile (routeSrc v)).bind d.ownerOf

/-- Routes of CURRENT present in the active phase of their context. -/
def Dev.liveRoutes (d : Dev) (m : Mem) : List Nat :=
  if d.strata.curValid then
    (imgRoutes (areaReader m d d.strata.cur)).filter (fun v =>
      match d.routeCtx v with
      | some c => (routePhases v).testBit (d.ctx c).phase
      | none => false)
  else []

/-- The hop of a route that crosses a link. -/
def routeHopOn (v n : Nat) : Option Nat := (List.range (routeHops v)).find? (fun h => routeLink v h == n)

/-- Contexts with a route over link `n`. -/
def Dev.linkCtxs (d : Dev) (m : Mem) (n : Nat) : List Nat :=
  (((d.liveRoutes m).filter (fun v => (routeHopOn v n).isSome)).filterMap d.routeCtx).dedup

/-- The first alternate that qualifies for a route whose hop on link `n` has no module left (R145). -/
def Dev.chooseAlternate (d : Dev) (m : Mem) (v n : Nat) : Option Nat :=
  (imgAlternates (areaReader m d d.strata.cur)).find? (fun a =>
    altId a == routeId v && altTrigger a == n &&
    (List.range (altHops a)).all (fun h => (d.serving (altLink a h)).any (fun i => (altMods a h).testBit i)))

/-- The hops a route takes now: its own, or those of the alternate that stands in for it (R145). -/
def Dev.hopsNow (d : Dev) (m : Mem) (v : Nat) : List (Nat × Nat) :=
  match (mfind d.onAlternate (routeId v)).bind (d.chooseAlternate m v) with
  | some a => (List.range (altHops a)).map (fun h => (altLink a h, altMods a h))
  | none => (List.range (routeHops v)).map (fun h => (routeLink v h, routeMods v h))

/-- Load the credit limits of the routes in force into every module, halved where it runs at x32 (R18, R19); link 7 carries streams in
MESH_REQ cells (R144). -/
def Dev.loadLimits (d : Dev) (m : Mem) : Dev :=
  let routes := (d.liveRoutes m).map (fun v => (v, d.hopsNow m v))
  { d with modules := d.modules.map (fun (x : Nat × D2dModule) =>
      let n := x.1 / 16
      let mine := routes.filter (fun v => n != 7 && v.2.any (fun h => h.1 == n && h.2.testBit (x.1 % 16)))
      let credit := fun v => if x.2.half then max 1 (routeCredit v / 2) else routeCredit v
      (x.1, { x.2 with limit := mine.foldl (fun l v => mset l (routeStream v.1) (credit v.1)) [] })) }

/-! A module leaves service. -/

/-- Whether a route's hop on link `n` still has a module in service within its MODS. -/
def Dev.hopServed (d : Dev) (v n : Nat) : Bool :=
  match routeHopOn v n with
  | none => true
  | some h => (d.serving n).any (fun i => (routeMods v h).testBit i)

/-- A raw stream without a route completes its transfers with STREAM_NO_ROUTE: the work of its source tile ends (R20). -/
def Dev.noRoute (d : Dev) (m : Mem) (v : Nat) : Dev :=
  match endpointTile (routeSrc v) with
  | some t => d.tileError m t 0x0403 (routeId v) 0 false
  | none => d

/-- Each route whose hop on `n` lost its last module takes its first qualifying alternate, or ends its transfers (R20, R145). -/
def Dev.reroute (d : Dev) (m : Mem) (n : Nat) : Dev :=
  let d := d.each ((d.liveRoutes m).filter (fun v => !d.hopServed v n && (mfind d.onAlternate (routeId v)).isNone)) (fun d v =>
    match d.chooseAlternate m v n with
    | some _ => { d with onAlternate := mset d.onAlternate (routeId v) n }
    | none => d.noRoute m v)
  d.loadLimits m

/-- What one end of a lost module holds back: raw cells by stream, to be resumed (R20). -/
def stoppedOf (n m : Nat) (high : Bool) (e : D2dEnd) : List StoppedStream :=
  let raw := e.unacked.filter (fun c => cellClass c == 4)
  ((raw.map cellStream).dedup).map (fun s =>
    { link := n, module := m, stream := s, fromHigh := high, acked := mget 0 e.ackedRaw s,
      cells := raw.filter (fun c => cellStream c == s) })

/-- Send again, on the next module in service of the link, the cells of a lost module that are not RAW and not MESH_REQ: CTL by
R16; the other classes likewise (log entry 6). -/
def Dev.carryOver (d : Dev) (n : Nat) (high : Bool) (cells : List (BitVec 640)) : Dev :=
  match (d.serving n).head? with
  | none => d
  | some m => d.each (cells.filter (fun c => cellClass c != 4 && cellClass c != 2)) (fun d c => d.sendCell n m high (cellRequest c))

/-- A module leaves service (R16, R20, R21, R358). `record` is false where the die itself is lost. -/
def Dev.moduleDown (d : Dev) (m : Mem) (n i : Nat) (record : Bool) : Dev :=
  let x := d.module n i
  if !x.inService then d
  else
    let d := d.setModule n i { x with inService := false, half := false, low := { rxRaw := x.low.rxRaw }, high := { rxRaw := x.high.rxRaw } }
    let d := if mget 0 d.ctlModule n == i then { d with ctlModule := mset d.ctlModule n ((d.serving n).headD 0) } else d
    let d := { d with stopped := d.stopped ++ stoppedOf n i false x.low ++ stoppedOf n i true x.high }
    let lost := (x.low.unacked ++ x.high.unacked).filter (fun c => cellClass c == 2)
    let d := d.each lost (fun d c => d.emit (.meshLost n i c))
    let d := (d.carryOver n false x.low.unacked).carryOver n true x.high.unacked
    let d := d.reroute m n
    let d := d.noteLink
    let d := if record then d.event (d.linkCtxs m n) 0x0406 2 (n + i * 256) 0 0 else d
    d.noteDegraded

/-- The receiver's count has come in a CTL cell: streams stopped at this sender resume from the next cell, on a module of the
link still in service, or on the first hop of the alternate route (R20, R145). -/
def Dev.resumeStream (d : Dev) (m : Mem) (s : StoppedStream) : Dev :=
  let got := mget 0 ((d.module s.link s.module).endAt (!s.fromHigh)).rxRaw s.stream
  let cells := s.cells.drop (got - s.acked)
  let target : Option (Nat × Nat) :=
    match (d.serving s.link).find? (fun i => s.stream < 4096 && (mfind (d.module s.link i).limit s.stream).isSome) with
    | some i => some (s.link, i)
    | none =>
      match (d.liveRoutes m).find? (fun v => routeStream v == s.stream && (routeHopOn v s.link).isSome) with
      | none => none
      | some v =>
        match d.chooseAlternate m v s.link with
        | none => none
        | some a => ((d.serving (altLink a 0)).find? (fun i => (altMods a 0).testBit i)).map (fun i => (altLink a 0, i))
  match target with
  | none => d
  | some (n, i) =>
    let sender := if s.fromHigh then (linkEnds s.link).2 else (linkEnds s.link).1
    d.each cells (fun d c => d.sendCell n i ((linkEnds n).2 == sender) (cellRequest c))

/-! Lanes. -/

/-- A half of a direction that holds no failed lane, lanes 0 to 31 first (R358). -/
def goodHalf (failed : List Nat) : Option Nat :=
  if failed.all (fun l => 32 ≤ l) then some 0 else if failed.all (fun l => l < 32) then some 1 else none

/-- Halve a stream limit, to no fewer than 1 cell (R19). -/
def halveLimits (l : Map Nat) : Map Nat := l.map (fun p => (p.1, max 1 (p.2 / 2)))

/-- Both ends replay from ACK (R15). -/
def D2dModule.replayAll (x : D2dModule) : D2dModule :=
  { x with low := { x.low with toReplay := x.low.unacked.length }, high := { x.high with toReplay := x.high.unacked.length } }

/-- A lane's fault has become lasting (R357, R358). `up`: the direction towards the higher-numbered die. -/
def Dev.laneFault (d : Dev) (m : Mem) (n i : Nat) (up : Bool) (lane : Nat) : Dev :=
  let x := d.module n i
  let die := if up then (linkEnds n).2 else (linkEnds n).1
  let used := if up then x.repairsUp else x.repairsDown
  let cs := d.linkCtxs m n
  if !x.inService then d
  else if used < 4 then
    let x := if up then { x with repairsUp := used + 1 } else { x with repairsDown := used + 1 }
    let d := (d.setModule n i x.replayAll).bump (Reg.devD2dCnt die n i 1)
    d.event cs 0x0404 1 (n + i * 256 + lane * 65536) 0 0
  else
    let d := d.exhausted 4 (d2dLaneUnit n i lane die) cs 0
    let kept := goodHalf (if up then x.failedUp else x.failedDown)
    let inUse := !x.half || (kept == some 0 && lane < 32) || (kept == some 1 && 32 ≤ lane && lane < 64)
    let x := if up then { x with failedUp := lane :: x.failedUp } else { x with failedDown := lane :: x.failedDown }
    match goodHalf x.failedUp, goodHalf x.failedDown with
    | some hu, some hd =>
      if x.half then (if inUse then (d.setModule n i x).moduleDown m n i true else d.setModule n i x)
      else if !d.cap 2 then (d.setModule n i x).moduleDown m n i true
      else
        let d := d.setModule n i { x with half := true, limit := halveLimits x.limit }.replayAll
        let d := d.noteLink
        let d := d.event cs 0x0405 2 (n + i * 256) (if up then hu else hd) 0
        d.noteDegraded
    | _, _ => (d.setModule n i x).moduleDown m n i true

end Sys2Proof.Machine
end

