-- ==== Sys2Proof/Machine/TileOps.lean ====
section
/-! DEFINITION. Memory faults and repairs: scratchpad words and spare rows (R186, R187), HBM bursts (R173, R193, R194), and the
narrowing and retirement of a tile (R68, R69, R359). -/

namespace Sys2Proof.Machine

/-! Narrowing and retirement. -/

/-- The array of a tile after sets and banks are zeroed (R69 step 2): no value type, no bank loaded, no mark. -/
def Tile.zeroed (x : Tile) : Tile :=
  { x with bank0 := {}, bank1 := {}, loader := none, passes := [], pipe := [], sets := [] }

/-- Retire a tile (R359): stopped as by a reset, its work ended with TILE_RETIRED, STATE RETIRED; scratchpad kept. -/
def Dev.retireTile (d : Dev) (m : Mem) (t d0 : Nat) : Dev :=
  if (d.tile t).state == .retired then d
  else
    let d := d.resetTile t
    let d := d.setTile t { d.tile t with state := .retired }
    (d.tileError m t 0x0106 d0 0 true).noteDegraded

/-- What a ninth column reports as D0 (Table 12.1): 0xFF when a forced column is among those out of service. -/
def ninthCode (forced : BitVec 32) (k : Nat) : Nat := if forced != 0 then 0xFF else k

/-- Take physical column `col` out of service by Table 2.5; a ninth column retires the tile (R68). -/
def Dev.narrowTile (d : Dev) (m : Mem) (t col : Nat) : Dev :=
  let x := d.tile t
  if x.state == .retired || x.bypass.getLsbD col then d
  else if x.width ≤ 24 then
    (d.exhausted 0 (columnUnit t col) (d.ownerOf t).toList t).retireTile m t (ninthCode x.forced 0)
  else
    let x := { x.zeroed with bypass := x.bypass ||| BitVec.ofNat 32 (2 ^ col), narrowed := true, state := .halted }
    ((d.setTile t x).tileError m t 0x0102 col x.width true).noteDegraded

/-! Scratchpad words. -/

def wordBank (w : Nat) : Nat := w / 8 % 64
def wordRow (w : Nat) : Nat := w / 512

/-- Spare rows of a bank in use: fused ones and remaps made in service (R187). -/
def Tile.sparesIn (x : Tile) (bank : Nat) : Nat :=
  mget 0 x.sparesFused bank + (x.remaps.filter (fun r => r / 8192 == bank)).length

/-- A row's fault has become lasting (R187): a spare takes it, or the tile is retired. -/
def Dev.spareRow (d : Dev) (m : Mem) (t bank row : Nat) : Dev :=
  let x := d.tile t
  if x.sparesIn bank < 2 then
    (d.setTile t { x with remaps := (bank * 8192 + row) :: x.remaps }).tileEvent t 0x0308 1 bank row
  else (d.exhausted 2 (scrRowUnit t bank row) (d.ownerOf t).toList t).retireTile m t 2

/-- Charge a scratchpad row's bucket; the action waits while a reset covers the tile (R356). -/
def Dev.chargeRow (d : Dev) (m : Mem) (t w : Nat) (unc : Bool) : Dev :=
  let u := scrRowUnit t (wordBank w) (wordRow w)
  let (d, lasting) := d.charge 2 u unc (d.ownerOf t).toList t
  if !lasting then d
  else if d.resetCovers 2 u then d.defer 2 u
  else d.spareRow m t (wordBank w) (wordRow w)

/-- One corrected word: counted, written back, charged (R186). -/
def Dev.wordCorrected (d : Dev) (m : Mem) (t w : Nat) : Dev := (d.bump (Reg.tileScrCe t)).chargeRow m t w false

/-- One uncorrectable word: counted, recorded, charged; it stays so until a full write (R186). -/
def Dev.wordBad (d : Dev) (m : Mem) (t w : Nat) : Dev :=
  let x := d.tile t
  let d := d.setTile t { x with badWords := if x.badWords.contains w then x.badWords else w :: x.badWords }
  ((d.bump (Reg.tileScrUe t)).tileEvent t 0x0303 2 (8 * w) 0).chargeRow m t w true

/-- Words of a tile known to be uncorrectable within bytes [a, a + n). -/
def Tile.badWithin (x : Tile) (a n : Nat) : List Nat := x.badWords.filter (fun w => 8 * w < a + n && a < 8 * w + 8)

/-- Bytes `r` of a tile's scratchpad are read, and the check code finds `e`: the state, and the first word without data.
Words of `e` outside the bytes read are no part of the read. -/
def Dev.scrRead (d : Dev) (m : Mem) (t : Nat) (r : List (Nat × Nat)) (e : WordErrors) : Dev × Option Nat :=
  let within := fun w => r.any (fun p => 8 * w < p.1 + p.2 && p.1 < 8 * w + 8)
  let bad := ((e.bad.filter within) ++ (d.tile t).badWords.filter within).dedup
  let fixed := (e.corrected.filter (fun w => within w && !bad.contains w)).dedup
  let d := d.each fixed (fun d w => d.wordCorrected m t w)
  (d.each bad (fun d w => d.wordBad m t w), bad.head?)

/-! HBM bursts. -/

/-- The page-table entry of an HBM offset (Table 6.4). Until an entry is written it is FREE, or RESERVED in a reserved area. -/
def reservedPage (pg : Nat) : Bool := 130816 ≤ pg % 131072

def Dev.page (d : Dev) (pg : Nat) : BitVec 16 := mget (if reservedPage pg then 0x8000 else 0) d.pages pg
def pageState (e : BitVec 16) : Nat := fb e 15 14
def pageZeroing (e : BitVec 16) : Bool := e.getLsbD 13
def pageOwner (e : BitVec 16) : Nat := fb e 5 0
def pageKind (e : BitVec 16) : Nat := fb e 10 7

/-- The granule of the page that holds an offset (R174): 256 B to 4 KiB by the code of Table 5.9. -/
def granuleBytes (code : Nat) : Nat := 256 * 2 ^ code

def Dev.granuleAt (d : Dev) (off : Nat) : Nat :=
  if pageState (d.page (off / 2 ^ 21)) ≤ 1 && !d.quarterOut (off / 2 ^ 38) then granuleBytes d.strata.granule.toNat else 4096

/-- Stack, channel, pseudo-channel and pseudo-channel byte address of an HBM offset (R173). -/
structure HbmPlace where
  stack : Nat
  channel : Nat
  pseudo : Nat
  local_ : Nat
deriving DecidableEq, Repr

def hbmPlace (a g : Nat) : HbmPlace :=
  let q := a >>> 38
  let r := a % 2 ^ 38
  let f := r >>> 20
  let b := r % 2 ^ 20
  let k := b / g
  let p := (k % 256) ^^^ (f % 256) ^^^ ((f >>> 8) % 256) ^^^ ((f >>> 16) <<< 6)
  { stack := 4 * q + p % 4, channel := (p >>> 2) % 32, pseudo := p >>> 7, local_ := f * 4096 + (k >>> 8) * g + b % g }

def Dev.placeOf (d : Dev) (off : Nat) : HbmPlace := hbmPlace off (d.granuleAt off)

/-- The HBM_ROW unit of an offset (Table 12.3). -/
def hbmRowUnit (p : HbmPlace) : Nat := p.stack * 2 ^ 28 + p.channel * 2 ^ 23 + p.pseudo * 2 ^ 22 + p.local_ / 1024 % 2 ^ 20

/-- The context that owns the page of an offset. -/
def Dev.pageCtx (d : Dev) (off : Nat) : List Nat :=
  let e := d.page (off / 2 ^ 21)
  if pageState e = 1 then [pageOwner e] else []

/-- Charge an HBM row; a lasting fault puts the row up for soft repair (R195). -/
def Dev.chargeHbm (d : Dev) (off : Nat) (unc : Bool) : Dev :=
  let p := d.placeOf off
  let u := hbmRowUnit p
  let (d, lasting) := d.charge 3 u unc (d.pageCtx off) 0
  if lasting then d.setStack p.stack { d.stack p.stack with due := (d.stack p.stack).due ++ [u] } else d

/-- A corrected burst (R193). -/
def Dev.burstCorrected (d : Dev) (off : Nat) : Dev :=
  let p := d.placeOf off
  (d.bump (Reg.memCe (p.stack / 4) (p.stack % 4))).chargeHbm off false

/-- An uncorrectable burst (R194): counted and recorded; it stays so until a full write. -/
def Dev.burstBad (d : Dev) (off : Nat) : Dev :=
  let p := d.placeOf off
  let b := off / 32
  let d := { d with badBursts := if d.badBursts.contains b then d.badBursts else b :: d.badBursts }
  let d := d.bump (Reg.memUe (p.stack / 4) (p.stack % 4))
  let d1 := p.stack + p.channel * 2 ^ 8 + p.pseudo * 2 ^ 16 + Config.hbmBank (p.local_ / 1024) % 256 * 2 ^ 24
  (d.event (d.pageCtx off) 0x0304 2 (b * 32) d1 0).chargeHbm off true

/-! Who may reach what (R170, R177). -/

/-- The control region and what lies beyond the scratchpads are no memory (Table 6.1). -/
def isHbm (a : Nat) : Bool := a < 0x010000000000

/-- [a, a + n) lies in HBM, or in one tile's scratchpad. -/
def inMemory (a n : Nat) : Bool :=
  a + n ≤ 0x010000000000 || (0x010000000000 ≤ a && a + n ≤ 0x010080000000)

/-- The pages of an HBM range. -/
def pagesOf (a n : Nat) : List Nat := (List.range ((a + (n - 1)) / 2 ^ 21 + 1 - a / 2 ^ 21)).map (· + a / 2 ^ 21)

/-- The tiles of a scratchpad range. -/
def tilesIn (a n : Nat) : List Nat :=
  let o := a - 0x010000000000
  (List.range ((o + (n - 1)) / 0x2000000 + 1 - o / 0x2000000)).map (· + o / 0x2000000)

/-- R177, for a range that lies in memory. -/
def Dev.admits (d : Dev) (c a n : Nat) : Bool :=
  c == 0 ||
  (if isHbm a then (pagesOf a n).all (fun p => pageState (d.page p) == 1 && pageOwner (d.page p) == c)
   else (tilesIn a n).all (fun t => (d.ctx c).tileMask.getLsbD t))

/-- The compute die that holds an address of memory. -/
def memDie (a : Nat) : Nat := if isHbm a then a / 2 ^ 38 else (a - 0x010000000000) / 0x2000000 / 16

/-- Check an access under context `c`: none when admitted, else the error code, after counting and recording a violation. -/
def Dev.accessCheck (d : Dev) (c a n : Nat) : Dev × Option Nat :=
  if 0x018000000000 ≤ a && c != 0 then ((d.bump (Reg.memAccessViol 0)).event [c] 0x0302 2 a c 0, some 0x0302)
  else if !inMemory a n then (d, some 0x0301)
  else if d.lost (memDie a) then (d, some 0x0401)
  else if d.admits c a n then (d, none)
  else ((d.bump (Reg.memAccessViol (memDie a))).event [c] 0x0302 2 a c 0, some 0x0302)

/-- A page of the range is being zeroed: the access waits (R199). -/
def Dev.zeroingIn (d : Dev) (a n : Nat) : Bool := isHbm a && (pagesOf a n).any (fun p => pageZeroing (d.page p))

/-- A scratchpad of the range is being cleared: the access waits (R188). -/
def Dev.clearingIn (d : Dev) (a n : Nat) : Bool := !isHbm a && (tilesIn a n).any (fun t => (d.tile t).clearing)

def Dev.mustWait (d : Dev) (a n : Nat) : Bool := d.zeroingIn a n || d.clearingIn a n

/-- Count the bursts a class-0 read takes from HBM (R181). -/
def Dev.quarry (d : Dev) (a n : Nat) : Dev :=
  if isHbm a && n != 0 then
    d.each (List.range ((a + n - 1) / 32 + 1 - a / 32)) (fun d i =>
      let p := d.placeOf (32 * (a / 32 + i))
      d.bump (Reg.memQuarryReads (p.stack / 4) (p.stack % 4)))
  else d

/-! Access to local memory by requesters other than the array and the vector engine. -/

/-- The tile whose scratchpad holds a local offset, and the address within it (Table 6.1). -/
def scrPlace (a : Nat) : Option (Nat × Nat) :=
  if 0x010000000000 ≤ a && a < 0x010080000000 then some ((a - 0x010000000000) / 0x2000000, (a - 0x010000000000) % 0x2000000)
  else none

/-- The first address in [a, a + n) of local memory that delivers no data. -/
def Dev.badAt (d : Dev) (a n : Nat) : Option Nat :=
  match (d.badBursts.filter (fun b => 32 * b < a + n && a < 32 * b + 32)).head? with
  | some b => some (32 * b)
  | none =>
    match scrPlace a with
    | none => none
    | some (t, o) => ((d.tile t).badWithin o n).head?.map (fun w => scrBase t + 8 * w)

/-- A read of [a, a + n): the bytes, or the error code and address after counting and recording it (R186, R194). -/
def Dev.load (d : Dev) (m : Mem) (a n : Nat) : Dev × (List Byte ⊕ Nat × Nat) :=
  match d.badAt a n with
  | none => (d, .inl (peekN m d a n))
  | some x =>
    match scrPlace x with
    | some (t, o) => (d.wordBad m t (o / 8), .inr (0x0303, o))
    | none => (d.burstBad x, .inr (0x0304, x))

/-- Bytes of a write that may be performed: those not in a bad unit which the write covers only in part. -/
def goodBytes (bad : List (Nat × Nat)) (a n : Nat) (l : List (Nat × Byte)) : List (Nat × Byte) :=
  l.filter (fun c => !(bad.any (fun u => u.1 ≤ c.1 && c.1 < u.1 + u.2 && !(a ≤ u.1 && u.1 + u.2 ≤ a + n))))

/-- A write of bytes at `a`: full units clear an uncorrectable error, and a write of part of a bad unit is not performed there
(R186, R194). The state, and the error of the first such unit. -/
def Dev.store (d : Dev) (m : Mem) (a : Nat) (bs : List Byte) : Dev × Option (Nat × Nat) :=
  let n := bs.length
  match scrPlace a with
  | none =>
    let bad := d.badBursts.filter (fun b => 32 * b < a + n && a < 32 * b + 32)
    if bad.isEmpty then (d.pokeN a bs, none)
    else
      let part := bad.filter (fun b => !(a ≤ 32 * b && 32 * b + 32 ≤ a + n))
      let d := { d with badBursts := d.badBursts.filter (fun b => !bad.contains b || part.contains b),
                        stores := (goodBytes (bad.map (fun b => (32 * b, 32))) a n (cellsAt a bs)).reverse ++ d.stores }
      (d.each part (fun d b => d.burstBad (32 * b)), part.head?.map (fun b => (0x0304, 32 * b)))
  | some (t, o) =>
    let bad := (d.tile t).badWithin o n
    if bad.isEmpty then (d.pokeN a bs, none)
    else
      let part := bad.filter (fun w => !(o ≤ 8 * w && 8 * w + 8 ≤ o + n))
      let x := d.tile t
      let d := d.setTile t { x with badWords := x.badWords.filter (fun w => !bad.contains w || part.contains w) }
      let d := { d with stores := (goodBytes (bad.map (fun w => (scrBase t + 8 * w, 8))) a n (cellsAt a bs)).reverse ++ d.stores }
      (d.each part (fun d w => d.wordBad m t w), part.head?.map (fun w => (0x0303, 8 * w)))

/-- A write of a vector ST, a stream or a mover that touches bytes 0 to 3 of a tile's mover ring wakes its mover (R190). -/
def Dev.wakeMover (d : Dev) (a n : Nat) : Dev :=
  match scrPlace a with
  | none => d
  | some (t, o) =>
    let base := d.rf (Reg.tileMoveCtrl t) 19 0 * 32
    if d.rb (Reg.tileMoveCtrl t) 31 && o < base + 4 && base < o + n then d.setTile t { d.tile t with moverAwake := true } else d

end Sys2Proof.Machine
end

