-- ==== Sys2Proof/Machine/ArrayOps.lean ====
section
/-! DEFINITION. The matrix array's operations (chapter 2): descriptors and their checks (R48, R51, R78), operand layouts (R61 to R63),
the dot-product unit (R52 to R56), the set write (R54), the output stage (R66, R95 to R102) and the keeper (R72). -/

namespace Sys2Proof.Machine

/-! When a tile's units run. -/

/-- The tile is clocked: its die is in service and its TCLK runs (R38, R467). -/
def Dev.tclk (d : Dev) (t : Nat) : Bool := !(d.die (dieOf t)).tclkStopped && !d.lost (dieOf t)

/-- The tile's units work: clocked, neither HALTED nor RETIRED, not being cleared. -/
def Dev.tileRuns (d : Dev) (t : Nat) : Bool :=
  let x := d.tile t
  d.tclk t && x.state != .retired && x.state != .halted && !x.clearing

/-- The tile's context waits for phase end: a switch has been taken, or an activation changes the context (R141, R155). -/
def Dev.switching (d : Dev) (t : Nat) : Bool :=
  match d.ownerOf t with
  | some c => (d.ctx c).changing || (match (d.ctx c).switch with | some w => w.taken.isSome | none => false)
  | none => false

/-- A sequencer may take entry `idx` of pass `pass` of a list of `n` (R141, R477). -/
def Dev.seqMay (d : Dev) (t : Nat) (p : BitVec 512) (n idx pass : Nat) : Bool :=
  let r := planeRepeat p
  d.tileRuns t && !(d.tile t).stopped && n != 0 && (r == 0 || pass < r) && !(r == 0 && idx == 0 && d.switching t)

/-- Scratchpad address of the descriptor the sequencer takes next. -/
def Dev.descAddr (d : Dev) (t : Nat) : Option Nat :=
  match (d.tile t).plane with
  | none => none
  | some p =>
    if d.seqMay t p (planeDescCount p) (d.tile t).descIdx (d.tile t).descPass then some (planeDescBase p * 256 + 16 * (d.tile t).descIdx)
    else none

/-- The next descriptor and its address, when its OP satisfies `op`. -/
def Dev.descDue (d : Dev) (m : Mem) (t : Nat) (op : Nat → Bool) : Option (Nat × BitVec 128) :=
  match d.descAddr t with
  | none => none
  | some a =>
    let v := BitVec.ofNat 128 (peekLE m d (scrBase t + a) 16)
    if op (fb v 127 124) then some (a, v) else none

/-- The sequencer has taken a descriptor (R141). -/
def Tile.descTaken (x : Tile) : Tile :=
  let n := match x.plane with | some p => planeDescCount p | none => 0
  if x.descIdx + 1 < n then { x with descIdx := x.descIdx + 1 } else { x with descIdx := 0, descPass := x.descPass + 1 }

/-! Descriptor fields (Table 2.4). -/

def dBank (v : BitVec 128) : Bool := v.getLsbD 123
def dPair (v : BitVec 128) : Nat := fb v 122 121
def dFmt (v : BitVec 128) : Nat := fb v 120 117
def dSigned (v : BitVec 128) : Bool := v.getLsbD 116
def dScale (v : BitVec 128) : Nat := fb v 115 114
def dAddr (v : BitVec 128) : Nat := fb v 113 97 * 256
def dScaleAddr (v : BitVec 128) : Nat := fb v 96 77 * 32
def dStride (v : BitVec 128) : Nat := fb v 76 60 * 256
def dCount (v : BitVec 128) : Nat := fb v 59 56 + 1
def dFirst (v : BitVec 128) : Nat := fb v 55 52
def dZero (v : BitVec 128) : Bool := v.getLsbD 51
def dDrain (v : BitVec 128) : Bool := v.getLsbD 50
def dInt (v : BitVec 128) : Bool := v.getLsbD 49
def oFmt (v : BitVec 128) : Nat := fb v 123 120
def oStream (v : BitVec 128) : Bool := v.getLsbD 119
def oPort (v : BitVec 128) : Nat := fb v 118 117
def oAddr (v : BitVec 128) : Nat := fb v 116 100 * 256
def oScaleAddr (v : BitVec 128) : Nat := fb v 99 80 * 32
def oChAddr (v : BitVec 128) : Nat := fb v 79 60 * 32
def oChLoad (v : BitVec 128) : Bool := v.getLsbD 59

/-- Bits of the wider operand of a pair, and K (R43). -/
def pairBits (p : Nat) : Nat := match p with | 0 => 16 | 1 => 8 | 2 => 4 | _ => 0
def pairK (p : Nat) : Nat := match p with | 0 => 32 | 1 => 64 | 2 => 128 | _ => 0

/-- Formats with their scale modes on a path (Table 3.7). -/
def operandOk (int : Bool) (fmt scale : Nat) : Bool :=
  if int then (fmt == 6 || fmt == 8) && scale == 0
  else match fmt with
    | 1 => scale == 0
    | 2 => scale == 0
    | 3 => scale != 3
    | 4 => scale != 3
    | 5 => scale == 1 || scale == 2
    | 8 => scale == 3
    | _ => false

/-- Scale bytes per row or column of K elements (Table 3.6), and of `n` of them, rounded up to 32 B (R63). -/
def rowScaleBytes (mode k : Nat) : Nat := match mode with | 1 => k / 32 | 2 => k / 16 | 3 => k / 32 * 2 | _ => 0
def roundUp (n u : Nat) : Nat := ceilDiv n u * u
def blockScaleBytes (mode k n : Nat) : Nat := roundUp (rowScaleBytes mode k * n) 32

/-- Bytes of an operand block of `n` rows or columns. -/
def blockBytes (fmt k n : Nat) : Nat := n * k * codeWidth fmt / 8

def scrSize : Nat := 0x2000000

/-! Checks (R48, R51, R78). -/

/-- A LOAD_B that is not rejected, on a tile of width `w`. -/
def loadOk (v : BitVec 128) (w : Nat) : Bool :=
  let k := pairK (dPair v)
  dPair v != 3 && (operandOk false (dFmt v) (dScale v) || operandOk true (dFmt v) (dScale v))
    && codeWidth (dFmt v) ≤ pairBits (dPair v)
    && dAddr v + blockBytes (dFmt v) k w ≤ scrSize
    && (dScale v == 0 || dScaleAddr v + rowScaleBytes (dScale v) k * w ≤ scrSize)

def Tile.bank (x : Tile) (b : Bool) : Bank := if b then x.bank1 else x.bank0
def Tile.setBank (x : Tile) (b : Bool) (v : Bank) : Tile := if b then { x with bank1 := v } else { x with bank0 := v }
def Tile.set (x : Tile) (n : Nat) : AccSet := mget {} x.sets n
def Tile.setSet (x : Tile) (n : Nat) (v : AccSet) : Tile := { x with sets := mset x.sets n v }

/-- The LOAD_B a pass on bank `b` runs against: the one held for it, or the one the bank holds. -/
def Tile.loadOf (x : Tile) (b : Bool) : Option (BitVec 128) :=
  match x.loader with
  | some l => if dBank l.desc == b then some l.desc else if (x.bank b).valid then some (x.bank b).desc else none
  | none => if (x.bank b).valid then some (x.bank b).desc else none

/-- How a block (ZERO, PATH) changes a set's value type (R48). -/
def nextType (zero int : Bool) (cur : Option Bool) : Option Bool :=
  if zero then some int else match cur with | none => some int | some p => some p

/-- The value type a set will hold once the blocks in flight and the passes held have been written. -/
def Tile.typeOf (x : Tile) (n : Nat) : Option Bool :=
  let a := x.pipe.foldl (fun c b => if dFirst b.desc + b.index == n then nextType (dZero b.desc) (dInt b.desc) c else c)
    (x.set n).vtype
  x.passes.foldl (fun c p =>
    if dFirst p.desc + p.next ≤ n && n < dFirst p.desc + dCount p.desc then nextType (dZero p.desc) (dInt p.desc) c else c) a

/-- A PASS that is not rejected. -/
def Tile.passOk (x : Tile) (v : BitVec 128) : Bool :=
  let k := pairK (dPair v)
  let last := (dCount v - 1) * dStride v
  let lastScale := if dStride v = 0 then 0 else (dCount v - 1) * blockScaleBytes (dScale v) k 32
  match x.loadOf (dBank v) with
  | none => false
  | some b =>
    dPair v != 3 && dFirst v + dCount v ≤ 16 && dPair v == dPair b
      && operandOk (dInt v) (dFmt v) (dScale v) && operandOk (dInt v) (dFmt b) (dScale b)
      && max (codeWidth (dFmt v)) (codeWidth (dFmt b)) == pairBits (dPair v)
      && dAddr v + last + blockBytes (dFmt v) k 32 ≤ scrSize
      && (dScale v == 0 || dScaleAddr v + lastScale + rowScaleBytes (dScale v) k * 32 ≤ scrSize)
      && (!dDrain v || x.outputCount != 0)
      && (dZero v || (List.range (dCount v)).all (fun i =>
            match x.typeOf (dFirst v + i) with | none => true | some p => p == dInt v))

/-- An OUTPUT that is not rejected under TILE_CONV_CTRL `cc`. -/
def outputOk (v : BitVec 128) (cc : Nat) : Bool :=
  oFmt v ≤ 0xA && !(oFmt v == 5 && fld cc 5 4 == 3) && (!oChLoad v || oChAddr v + 544 ≤ scrSize)

/-- A descriptor at `a` is rejected (R51, R477). -/
def Dev.descReject (d : Dev) (m : Mem) (t a : Nat) : Dev :=
  (d.bump (Reg.tileDescReject t)).tileError m t 0x0101 a 0 true

/-! Operands in scratchpad. -/

/-- The first `k` pieces of `n`. -/
def chunk {α : Type} (n : Nat) : Nat → List α → List (List α)
  | 0, _ => []
  | k + 1, l => l.take n :: chunk n k (l.drop n)

/-- The codes of width `w` that bytes hold (R61). -/
def unpackCodes (w : Nat) (bs : List Byte) : List Nat :=
  if w = 4 then bs.flatMap (fun b => [b.toNat % 16, b.toNat / 16])
  else (chunk (w / 8) (bs.length / (w / 8)) bs).map leOf

/-- A code under its scale (R87, R88). -/
def underScale (mode : Nat) (v : Val) (s : Nat) : Val :=
  match mode with
  | 0 => v
  | 3 => underGroupScale v s
  | _ => underBlockScale v s

def scaleSpan (mode : Nat) : Nat := if mode = 2 then 16 else 32

/-- The `n` rows (or columns) of K expanded values of an operand block (R61 to R63, R84, R87). -/
def operandRows (fmt : Nat) (sg : Bool) (mode k n : Nat) (codes scales : List Byte) : List (List Val) :=
  let cs := chunk k n (unpackCodes (codeWidth fmt) codes)
  let per := if mode = 0 then 0 else k / scaleSpan mode
  let ss := chunk per n (unpackCodes (if mode = 3 then 16 else 8) scales)
  (cs.zip ss).map (fun p => p.1.zipIdx.map (fun q =>
    underScale mode (decodeCode fmt sg q.1) (p.2.getD (q.2 / scaleSpan mode) 0)))

/-- The bytes of a LOAD_B's B block and its scales. -/
def readB (m : Mem) (d : Dev) (t : Nat) (v : BitVec 128) : List Byte × List Byte :=
  let w := (d.tile t).width
  let k := pairK (dPair v)
  (peekN m d (scrBase t + dAddr v) (blockBytes (dFmt v) k w),
   peekN m d (scrBase t + dScaleAddr v) (rowScaleBytes (dScale v) k * w))

/-- Where block `i` of a pass lies: codes and scales, address and length (R61, R63). -/
def blockRanges (v : BitVec 128) (i : Nat) : List (Nat × Nat) :=
  let k := pairK (dPair v)
  let s := if dStride v = 0 then 0 else i * blockScaleBytes (dScale v) k 32
  [(dAddr v + i * dStride v, blockBytes (dFmt v) k 32), (dScaleAddr v + s, rowScaleBytes (dScale v) k * 32)]

/-! The dot-product unit. -/

/-- A product with its exponent (R52): none for a zero or a special product. -/
def prodExp (a b : Val) : Option Int :=
  match a, b with
  | .fin _ m e, .fin _ n f => if m = 0 || n = 0 then none else some (log2Floor m e + log2Floor n f)
  | _, _ => none

/-- e_max over the nonzero finite products. -/
def expMax (l : List (Option Int)) : Option Int :=
  l.foldl (fun a x => match a, x with | none, x => x | some y, some z => some (max y z) | a, none => a) none

/-- One product into the window of unit 2^lsb (R53): truncated magnitude with its sign, and whether bits were dropped. -/
def intoWindow (lsb : Int) (v : Val) : Int × Bool :=
  match v with
  | .fin s m e =>
    let q := if lsb ≤ e then m * 2 ^ (e - lsb).toNat else m / 2 ^ (lsb - e).toNat
    (if s then -(q : Int) else q, !(lsb ≤ e) && m % 2 ^ (lsb - e).toNat != 0)
  | _ => (0, false)

/-- The float path of a DPU (R52, R53, R55). -/
def dpuFloat (a b : List Val) : DpuResult :=
  let ps := List.zipWith Val.mul a b
  match expMax (List.zipWith prodExp a b) with
  | none =>
    { zero := ps.all Val.isZero, nan := ps.any Val.isNan, posInf := ps.contains (.inf false), negInf := ps.contains (.inf true) }
  | some e =>
    let ws := ps.map (intoWindow (e - 86))
    { zero := false, nan := ps.any Val.isNan, posInf := ps.contains (.inf false), negInf := ps.contains (.inf true),
      sum := (ws.map (·.1)).sum, lsb := e - 86, sticky := ws.any (·.2) }

/-- An integer operand value. -/
def Val.int : Val → Int
  | .fin s m e => Val.toInt s m e
  | _ => 0

/-- The integer path of a DPU (R56). -/
def dpuInt (a b : List Val) : DpuResult :=
  { sum := (List.zipWith (fun x y => Val.int x * Val.int y) a b).sum }

/-- The results of all DPUs for block `i` of pass `v` against a bank's bytes, row by row. -/
def blockResults (m : Mem) (d : Dev) (t : Nat) (v : BitVec 128) (i : Nat) (load : BitVec 128) (codes scales : List Byte) :
    List DpuResult :=
  let k := pairK (dPair v)
  let rs := blockRanges v i
  let bytes := fun (j : Nat) => let r := rs.getD j (0, 0); peekN m d (scrBase t + r.1) r.2
  let a := operandRows (dFmt v) (dSigned v) (dScale v) k 32 (bytes 0) (bytes 1)
  let b := operandRows (dFmt load) (dSigned load) (dScale load) k (d.tile t).width codes scales
  a.flatMap (fun x => b.map (fun y => if dInt v then dpuInt x y else dpuFloat x y))

/-- The value of a float-path DPU result. -/
def DpuResult.val (r : DpuResult) : Val :=
  if r.nan || (r.posInf && r.negInf) then .nan
  else if r.posInf then .inf false
  else if r.negInf then .inf true
  else .fin (r.sum < 0) r.sum.natAbs r.lsb

/-- Stage W, float path (R54, R55): the new FP32 code. -/
def writeFloat (zero : Bool) (prev : BitVec 32) (r : DpuResult) : BitVec 32 :=
  if r.zero then (if zero then 0 else prev)
  else
    let v := if zero then r.val else Val.add (fp32.decode prev.toNat) r.val
    BitVec.ofNat 32 (convertF fp32 true false .nearest v).1

/-- Stage W, integer path (R56): the new INT32 pattern and whether it saturated. -/
def writeInt (zero : Bool) (prev : BitVec 32) (r : DpuResult) : BitVec 32 × Bool :=
  let s := (if zero then 0 else prev.toInt) + r.sum
  let y := max (intMin true 32) (min (intMax true 32) s)
  (BitVec.ofInt 32 y, y != s)

/-- Keys of the set elements in logical order (R50): 32 * row + column. -/
def setKeys (w : Nat) : List Nat := (List.range 32).flatMap (fun i => (List.range w).map (fun j => 32 * i + j))

/-- A set after a block with the given results (R48, R53, R56, R59, R100). -/
def AccSet.write (s : AccSet) (v : BitVec 128) (w : Nat) (rs : List DpuResult) : AccSet :=
  let z := dZero v
  let ks := (setKeys w).zip rs
  let a := (dFmt v, dSigned v)
  let fa : BitVec 4 × Bool := (BitVec.ofNat 4 a.1, a.2)
  { s with
    values := ks.map (fun p => (p.1, if dInt v then (writeInt z (mget 0 s.values p.1) p.2).1 else writeFloat z (mget 0 s.values p.1) p.2)),
    vtype := nextType z (dInt v) s.vtype,
    sticky := ks.map (fun p => (p.1, (!z && mget false s.sticky p.1) || p.2.sticky)),
    saturated := ks.map (fun p => (p.1, (!z && mget false s.saturated p.1) || (dInt v && (writeInt z (mget 0 s.values p.1) p.2).2))),
    marked := s.marked && !z,
    aFormats := if z then [fa] else if s.aFormats.contains fa then s.aFormats else s.aFormats ++ [fa] }

/-! The keeper (R72, R73). -/

def Keeper.enabled (c : BitVec 32) : Bool := c.getLsbD 31
def Keeper.fillMax (k : Keeper) : Nat := fb k.config 25 16
def Keeper.interval (k : Keeper) : Nat := fb k.config 12 8 * 16
def Keeper.step (k : Keeper) : Nat := fb k.config 3 0 * 8

/-- Enter a state, under the value that TILE_KEEPER now has (R73); disabled, the tile stays in RUN; a RAMP at full level is RUN. -/
def Keeper.enter (k : Keeper) (c : BitVec 32) (s : KeeperState) : Keeper :=
  let k := { k with config := c, clock := 0, issued := 0 }
  if !Keeper.enabled c then { k with state := .run }
  else if s == .ramp && 64 ≤ k.level then { k with state := .run }
  else if s == .decay && k.level == 0 then { k with state := .idle }
  else { k with state := s }

/-- A tclk with a real broadcast. -/
def Keeper.real (k : Keeper) (c : BitVec 32) : Keeper :=
  let k := { k with history := (k.history <<< 1) ||| 1, gap := 0 }
  match k.state with
  | .run => k
  | .fill => k.enter c .run
  | .decay => { (k.enter c .ramp) with clock := 1, issued := 1 }
  | .idle => { (({ k with level := min 64 (fb c 3 0 * 8) }).enter c .ramp) with clock := 1, issued := 1 }
  | .ramp => { k with clock := k.clock + 1, issued := k.issued + 1 }

/-- A tclk without one. -/
def Keeper.idleTick (k : Keeper) (c : BitVec 32) : Keeper :=
  let act := popcount k.history.toNat 64
  let h := k.history <<< 1
  match k.state with
  | .run =>
    if !Keeper.enabled c then { k with history := h, config := c }
    else { (k.enter c .fill) with history := h, dummies := act, acc := act, gap := 1 }
  | .fill => { k with history := h, acc := k.acc + k.dummies, gap := k.gap + 1 }
  | .decay => { k with history := h, acc := k.acc + k.level, clock := k.clock + 1 }
  | .idle => { k with history := h }
  | .ramp => { k with history := h, clock := k.clock + 1, gap := k.gap + 1 }

/-- A real broadcast may issue now (Table 2.6, RAMP). -/
def Keeper.mayIssue (k : Keeper) : Bool := k.state != .ramp || k.issued < k.level * k.interval / 64

def Keeper.dummyDue (k : Keeper) : Bool := (k.state == .fill || k.state == .decay) && 64 ≤ k.acc

def Keeper.dummy (k : Keeper) : Keeper := { k with acc := k.acc - 64, history := k.history ||| 1 }

def Keeper.fillMaxDue (k : Keeper) : Bool := (k.state == .fill || k.state == .ramp) && k.fillMax < k.gap

/-- FILL or RAMP to DECAY: L := D from FILL, kept from RAMP; this tclk is the first of the state. -/
def Keeper.toDecay (k : Keeper) (c : BitVec 32) : Keeper :=
  let k := if k.state == .fill then { k with level := k.dummies } else { k with acc := 0 }
  { (k.enter c .decay) with clock := 1 }

def Keeper.intervalDue (k : Keeper) : Bool := (k.state == .decay || k.state == .ramp) && k.interval ≤ k.clock

/-- The end of a RAMP_INTERVAL in DECAY or RAMP. -/
def Keeper.intervalEnd (k : Keeper) (c : BitVec 32) : Keeper :=
  if k.state == .decay then
    let k := { k with level := k.level - k.step, clock := 0 }
    if k.level = 0 then k.enter c .idle else k
  else
    let k := { k with level := min 64 (k.level + k.step), clock := 0, issued := 0 }
    if k.level = 64 then k.enter c .run else k

/-- TILE_KEEPER of the tile's die. -/
def Dev.keeperReg (d : Dev) (t : Nat) : BitVec 32 := d.reg (Reg.tileKeeper (dieOf t))

/-! The output stage. -/

/-- Channel slots (Tables 3.9 and 3.10); the identity values of R99 when none is loaded. -/
structure Slot where
  mult : Int := 1
  wsum : Int := 0
  bias : Int := 0
  shift : Nat := 0
deriving DecidableEq, Repr

def Tile.slot (x : Tile) (j : Nat) : Slot :=
  match x.channel with
  | none => {}
  | some v =>
    let o := 256 + 128 * j
    { mult := signed 32 (fb v (o + 31) o), wsum := signed 32 (fb v (o + 63) (o + 32)),
      bias := signed 32 (fb v (o + 95) (o + 64)), shift := fb v (o + 101) (o + 96) }

def Tile.aZp (x : Tile) : Int := match x.channel with | none => 0 | some v => signed 16 (fb v 15 0)
def Tile.outZp (x : Tile) : Int := match x.channel with | none => 0 | some v => signed 16 (fb v 31 16)

/-- p of R101, exactly. -/
def chanProduct (azp : Int) (s : Slot) (acc : Int) : Int := (acc - azp * s.wsum + s.bias) * s.mult

/-- The rounding shift of R101: nearest, ties away from zero. -/
def chanShift (s : Slot) (p : Int) : Int :=
  if s.shift = 0 then p
  else
    let q : Int := ((p.natAbs + 2 ^ (s.shift - 1)) / 2 ^ s.shift : Nat)
    if p < 0 then -q else q

/-- A drained element on its way to conversion: an exact value, or on the integer path to an integer destination y before
clamping (R101, R102). -/
def drainVal (x : Tile) (s : AccSet) (fmt col : Nat) (code : BitVec 32) : Val :=
  match s.vtype with
  | none => .fin false 0 0
  | some false => fp32.decode code.toNat
  | some true =>
    let sl := x.slot col
    let p := chanProduct x.aZp sl code.toInt
    if (intOf fmt).isSome then Val.ofInt (chanShift sl p + x.outZp) else (Val.ofInt p).scale (-(sl.shift : Int))

/-- Elements per scale block of a destination under DST_SCALE (R98); 0: unscaled. -/
def dstBlock (fmt cc : Nat) : Nat :=
  if fmt = 3 || fmt = 4 || fmt = 5 then
    match fld cc 5 4 with
    | 0 => if fmt = 5 then 16 else 32
    | 1 => 32
    | 2 => 16
    | _ => 0
  else 0

/-- What draining a row or a set makes: codes, scale bytes, events of the real elements. -/
structure Drained where
  codes : List Nat
  scales : List Byte
  events : List Event3
deriving DecidableEq, Repr

/-- One row of a drained set (R66, R95 to R97). -/
def drainRow (fmt cc : Nat) (vs : List Val) : Drained :=
  let b := dstBlock fmt cc
  if b = 0 then
    let r := vs.map (convertTo fmt (cc.testBit 0) false .nearest)
    { codes := r.map (·.1), scales := [], events := r.map (·.2) }
  else
    let blocks := chunk b (ceilDiv vs.length b) vs
    let r := blocks.map (fun l => forge fmt (fun _ => .nearest) l)
    { codes := (r.zip blocks).flatMap (fun p => p.1.2.map (·.1) ++ List.replicate (b - p.2.length) 0),
      scales := r.map (fun p => BitVec.ofNat 8 p.1), events := r.flatMap (fun p => p.2.map (·.2)) }

def drainSet (x : Tile) (s : AccSet) (fmt cc : Nat) : Drained :=
  let w := x.width
  let rows := (List.range 32).map (fun i => drainRow fmt cc ((List.range w).map (fun j =>
    drainVal x s fmt j (mget 0 s.values (32 * i + j)))))
  { codes := rows.flatMap (·.codes), scales := rows.flatMap (·.scales), events := rows.flatMap (·.events) }

/-- Format group of the share counters (R130); none: FP32, which counts nothing. -/
def shareGroup (fmt : Nat) : Option Nat :=
  match fmt with
  | 1 => some 0 | 2 => some 1 | 3 => some 2 | 4 => some 3 | 5 => some 4
  | 6 => some 5 | 7 => some 5 | 8 => some 6 | 9 => some 6 | 10 => some 7 | _ => none

/-- Kinds 6 and 7, and any value beyond them, count as OTHER (5) (R129, R134). -/
def shareKind (k : Nat) : Nat := if k < 6 then k else 5

/-- Count converted elements in the share counters of a format and kind (R94, R130). -/
def Dev.countShare (d : Dev) (t fmt kind : Nat) (evs : List Event3) : Dev :=
  match shareGroup fmt with
  | none => d
  | some g =>
    let i := 4 * (6 * g + shareKind kind)
    let n := fun e => (evs.filter (· == e)).length
    (((d.bumpN (Reg.tileShare t i) evs.length).bumpN (Reg.tileShare t (i + 1)) (n .over)).bumpN (Reg.tileShare t (i + 2)) (n .flush)).bumpN
      (Reg.tileShare t (i + 3)) (n .sub)

/-- The kind TILE_SHARE_MAP gives a format code. -/
def Dev.shareMap (d : Dev) (t fmt : Nat) : Nat :=
  let w := d.reg (if fmt < 8 then Reg.tileShareMapLo t else Reg.tileShareMapHi t)
  fb w (4 * (fmt % 8) + 3) (4 * (fmt % 8))

/-- The checks at the beginning of a drain (R93, R98, R100), and that what the set writes lies in scratchpad. -/
def drainOk (x : Tile) (s : AccSet) (v : BitVec 128) (cc n : Nat) (r : Drained) : Bool :=
  let bytes := ceilDiv (r.codes.length * codeWidth (oFmt v)) 8
  !((intOf (oFmt v)).isSome && s.vtype == some false)
    && !(oFmt v == 5 && fld cc 5 4 == 3)
    && !(s.vtype == some true && s.aFormats.any (fun f =>
          let w := codeWidth f.1.toNat
          x.aZp < intMin f.2 w || intMax f.2 w < x.aZp))
    && (oStream v || oAddr v + n * roundUp bytes 256 + bytes ≤ scrSize)
    && (r.scales.isEmpty || oScaleAddr v + n * roundUp r.scales.length 32 + r.scales.length ≤ scrSize)

/-- Load the channel slots that CH_LOAD asked for (R99); none when a word of the block delivers no data. -/
def Dev.loadChannel (d : Dev) (m : Mem) (t : Nat) : Dev × Option Nat :=
  let x := d.tile t
  match x.chPending with
  | none => (d, none)
  | some v =>
    let (d, bad) := d.scrRead m t [(oChAddr v, 544)] ⟨[], []⟩
    let x := d.tile t
    match bad with
    | some w => (d.setTile t { x with chPending := none }, some w)
    | none => (d.setTile t { x with chPending := none,
                                    channel := some (BitVec.ofNat 4352 (peekLE m d (scrBase t + oChAddr v) 544)) }, none)

/-- Set `n` releases its drain without having been written. -/
def Dev.dropDrain (d : Dev) (t n : Nat) : Dev :=
  d.setTile t ((d.tile t).setSet n { (d.tile t).set n with drain := .none })

/-- The OUTPUT that governs set `n` is rejected at the set's drain (R93): it governs nothing any more, and the set is not written. -/
def Dev.outputRejected (d : Dev) (m : Mem) (t n a : Nat) : Dev :=
  let x := d.tile t
  ((d.setTile t { x with outputs := mdel x.outputs (x.set n).output }).dropDrain t n).descReject m t a

/-- Drain set `n` under its OUTPUT (R66): convert, count, write, and lock until the last element is read. A set whose OUTPUT has been
rejected is released as it is (log entry 13). -/
def Dev.drain (d : Dev) (m : Mem) (t n : Nat) : Dev :=
  let s := (d.tile t).set n
  match mfind (d.tile t).outputs s.output with
  | none => d.dropDrain t n
  | some o =>
    let (d, bad) := d.loadChannel m t
    match bad with
    | some w => (d.dropDrain t n).tileError m t 0x0303 (8 * w) 0 false
    | none =>
      let x := d.tile t
      let v := o.desc
      let cc := (d.reg (Reg.tileConvCtrl t)).toNat
      let r := drainSet x s (oFmt v) cc
      if !drainOk x s v cc s.order r then d.outputRejected m t n o.addr
      else
        let bytes := packCodes (codeWidth (oFmt v)) r.codes
        let keys := setKeys x.width
        let d := d.setTile t (x.setSet n { s with drain := .draining })
        let d := d.bumpN (Reg.tileSticky t) (keys.filter (mget false s.sticky)).length
        let d := d.bumpN (Reg.tileIntSat t) (keys.filter (mget false s.saturated)).length
        let d := d.countShare t (oFmt v) (d.shareMap t (oFmt v)) r.events
        let route := match x.plane with | some p => planeOutRoute p (oPort v) | none => 0
        let (d, e1) := if oStream v then (d.emit (.stream t (oPort v) (route % 65536) bytes), none)
          else d.store m (scrBase t + oAddr v + s.order * roundUp bytes.length 256) bytes
        let (d, e2) := if r.scales.isEmpty then (d, none)
          else d.store m (scrBase t + oScaleAddr v + s.order * roundUp r.scales.length 32) r.scales
        match (match e1 with | some e => some e | none => e2) with
        | some e => d.tileError m t e.1 e.2 0 false
        | none => d

end Sys2Proof.Machine
end

