-- ==== Sys2Proof/Machine/Array.lean ====
section
/-! DEFINITION. The commands of the matrix array and its keeper (chapters 2 and 3). A command that is not due (the sequencer's
next entry is of another kind, the tile is stopped, nothing is in flight) changes nothing (log entry 10). -/

namespace Sys2Proof.Machine

/-! Descriptors. -/

/-- DESC_LOAD_B (R44, R46, R478): taken while no LOAD_B is held; a pass that holds the bank stalls the loader. -/
def xDescLoadB (t : Nat) : Effect := fun m d =>
  match d.descDue m t (· == 1) with
  | none => d
  | some (a, v) =>
    let x := d.tile t
    if x.loader.isSome then d
    else
      let d := d.setTile t x.descTaken
      if !loadOk v x.width then d.descReject m t a
      else d.setTile t { d.tile t with loader := some { desc := v, before := x.passes.length } }

/-- DESC_PASS (R48, R478): taken while fewer than two passes are held. -/
def xDescPass (t : Nat) : Effect := fun m d =>
  match d.descDue m t (· == 2) with
  | none => d
  | some (a, v) =>
    let x := d.tile t
    if 2 ≤ x.passes.length then d
    else
      let d := d.setTile t x.descTaken
      if !x.passOk v then d.descReject m t a
      else
        let y := d.tile t
        d.setTile t { y with passes := y.passes ++ [{ desc := v, output := x.outputCount }] }

/-- DESC_OUTPUT (R478): governs the sets of passes issued after it. -/
def xDescOutput (t : Nat) : Effect := fun m d =>
  match d.descDue m t (· == 3) with
  | none => d
  | some (a, v) =>
    let x := d.tile t
    let d := d.setTile t x.descTaken
    if !outputOk v (d.reg (Reg.tileConvCtrl t)).toNat then d.descReject m t a
    else
      let y := d.tile t
      let n := y.outputCount + 1
      d.setTile t { y with outputs := mset y.outputs n { desc := v, addr := a }, outputCount := n,
                           chPending := if oChLoad v then some v else y.chPending }

/-- DESC_NOP (R478): dropped as it is taken. A reserved OP is rejected in its turn (R51, log entry 11). -/
def xDescNop (t : Nat) : Effect := fun m d =>
  match d.descDue m t (fun op => op == 0 || 4 ≤ op) with
  | none => d
  | some (a, v) =>
    let d := d.setTile t (d.tile t).descTaken
    if fb v 127 124 = 0 then d else d.descReject m t a

/-! Banks and broadcasts. -/

/-- A held pass that was issued before the load still uses the bank (R46). -/
def Tile.loadStalled (x : Tile) (l : Loader) : Bool := (x.passes.take l.before).any (fun p => dBank p.desc == dBank l.desc)

/-- Passes the tile holds after a LOAD_B has failed: those waiting for it cannot run. -/
def Tile.loadLost (x : Tile) (l : Loader) : Tile :=
  { x with loader := none,
           passes := x.passes.take l.before ++ (x.passes.drop l.before).filter (fun p => dBank p.desc != dBank l.desc) }

/-- BANK_LOAD_COMPLETE (R46): the bank holds the block and is valid. -/
def xBankLoadComplete (t : Nat) (e : WordErrors) : Effect := fun m d =>
  let x := d.tile t
  match x.loader with
  | none => d
  | some l =>
    if !d.tileRuns t || x.loadStalled l then d
    else
      let k := pairK (dPair l.desc)
      let ranges := [(dAddr l.desc, blockBytes (dFmt l.desc) k x.width), (dScaleAddr l.desc, rowScaleBytes (dScale l.desc) k * x.width)]
      let (d, bad) := d.scrRead m t ranges e
      let x := d.tile t
      match bad with
      | some w => (d.setTile t (x.loadLost l)).tileError m t 0x0303 (8 * w) 0 false
      | none =>
        if x.loader.isNone then d
        else
          let bytes := readB m d t l.desc
          let b : Bank := { valid := true, desc := l.desc, codes := bytes.1, scales := bytes.2,
                            loads := (x.bank (dBank l.desc)).loads + 1 }
          d.setTile t { (x.setBank (dBank l.desc) b) with loader := none }

/-- What holds the head pass's next block back: its bank's load, a locked set, the ramp limit. -/
inductive Held where
  | no | bank | set | ramp
deriving DecidableEq, Repr

def Tile.holds (x : Tile) (p : Pass) : Held :=
  if (match x.loader with | some l => l.before == 0 && dBank l.desc == dBank p.desc | none => false) then .bank
  else if (x.set (dFirst p.desc + p.next)).drain != .none then .set
  else if !x.keeper.mayIssue then .ramp
  else .no

/-- The passes after the head pass has broadcast a block; a finished pass releases its bank. -/
def Tile.passAdvance (x : Tile) (p : Pass) : Tile :=
  if p.next + 1 < dCount p.desc then { x with passes := { p with next := p.next + 1 } :: x.passes.drop 1 }
  else { x with passes := x.passes.drop 1, loader := x.loader.map (fun l => { l with before := l.before - 1 }) }

/-- Drop the head pass. -/
def Tile.passDrop (x : Tile) : Tile :=
  { x with passes := x.passes.drop 1, loader := x.loader.map (fun l => { l with before := l.before - 1 }) }

/-- BLOCK_BROADCAST (R43, R45): the head pass's next block enters the pipeline, its B columns latched. -/
def xBlockBroadcast (t : Nat) (e : WordErrors) : Effect := fun m d =>
  let x := d.tile t
  match x.passes.head? with
  | none => d
  | some p =>
    if !d.tileRuns t || x.holds p != .no || 6 ≤ x.pipe.length then d
    else
      let (d, bad) := d.scrRead m t (blockRanges p.desc p.next) e
      let x := d.tile t
      match bad with
      | some w => (d.setTile t x.passDrop).tileError m t 0x0303 (8 * w) 0 false
      | none =>
        if x.passes.head? != some p then d
        else
          let b := x.bank (dBank p.desc)
          let rs := blockResults m d t p.desc p.next b.desc b.codes b.scales
          let blk : Block := { desc := p.desc, index := p.next, output := p.output, loadDesc := b.desc, bankLoads := b.loads,
                               results := rs }
          let x := { (x.passAdvance p) with pipe := x.pipe ++ [blk], keeper := x.keeper.real (d.keeperReg t) }
          (d.setTile t x).bump (Reg.tileBlocks t)

/-- EMPTY_BROADCAST_SLOT (R65): a tclk without a real broadcast, counted by what held the block back. -/
def xEmptyBroadcastSlot (t : Nat) : Effect := fun _ d =>
  let x := d.tile t
  if !d.tclk t || x.state == .retired then d
  else
    let k := match x.passes.head? with
      | none => Reg.tileFeedStall t
      | some p => match x.holds p with
        | .no => Reg.tileFeedStall t
        | .bank => Reg.tileBWait t
        | .set => Reg.tileSetWait t
        | .ramp => Reg.tileRampStall t
    let stalled := match x.loader with | some l => x.loadStalled l | none => false
    ((d.setTile t { x with keeper := x.keeper.idleTick (d.keeperReg t) }).bump k).bumpIf stalled (Reg.tileLoaderStall t)

/-- SET_WRITE (R54): stage W of the oldest block in flight; a DRAIN pass's set becomes drain-pending (R49). -/
def xSetWrite (t : Nat) : Effect := fun _ d =>
  let x := d.tile t
  match x.pipe with
  | [] => d
  | b :: rest =>
    if !d.tileRuns t then d
    else
      let n := dFirst b.desc + b.index
      let s := (x.set n).write b.desc x.width b.results
      let x := { x with pipe := rest }
      if dDrain b.desc then
        match mfind x.outputs b.output with
        | none => d.setTile t (x.setSet n s)
        | some o =>
          let x := { x with outputs := mset x.outputs b.output { o with governed := o.governed + 1 } }
          d.setTile t (x.setSet n { s with drain := .pending, output := b.output, order := o.governed })
      else d.setTile t (x.setSet n s)

/-! Residues. -/

/-- The mismatching DPUs that are clocked: (row, physical column). -/
def Tile.clocked (x : Tile) (l : List (Fin 32 × Fin 32)) : List (Nat × Nat) :=
  ((l.filter (fun p => !x.bypass.getLsbD p.2.val)).map (fun p => (p.1.val, p.2.val))).dedup

/-- Physical columns of a list of DPUs, and the rows charged to their ROW_LINE bucket (R355). -/
def dpuCols (l : List (Nat × Nat)) : List Nat := (l.map (·.2)).dedup
def lineRows (l : List (Nat × Nat)) : List Nat :=
  ((l.map (·.1)).dedup).filter (fun r => 4 ≤ (dpuCols (l.filter (fun p => p.1 == r))).length)

/-- Take or defer the lasting actions of a tile's columns and rows. -/
def Dev.columnLasting (d : Dev) (m : Mem) (t col : Nat) : Dev :=
  if d.resetCovers 0 (columnUnit t col) then d.defer 0 (columnUnit t col) else d.narrowTile m t col
def Dev.rowLasting (d : Dev) (m : Mem) (t row : Nat) : Dev :=
  if d.resetCovers 1 (columnUnit t row) then d.defer 1 (columnUnit t row)
  else d.retireTile m t 1

/-- Charge the buckets for one block's mismatches (R355); whether a fault became lasting. -/
def Dev.chargeBlock (d : Dev) (m : Mem) (t : Nat) (l : List (Nat × Nat)) (unc : Bool) : Dev × Bool :=
  let cs := (d.ownerOf t).toList
  let rows := lineRows l
  let cols := dpuCols (l.filter (fun p => !rows.contains p.1))
  let (d, a) := rows.foldl (fun (y : Dev × Bool) r =>
    let (e, lasting) := y.1.charge 1 (columnUnit t r) false cs t
    (if lasting then e.rowLasting m t r else e, y.2 || lasting)) (d, false)
  cols.foldl (fun (y : Dev × Bool) c =>
    let (e, lasting) := y.1.charge 0 (columnUnit t c) unc cs t
    (if lasting then e.columnLasting m t c else e, y.2 || lasting)) (d, a)

/-- The block as broadcast again (R58): B re-read when its bank has been written since, A re-read. -/
def Dev.replayed (d : Dev) (m : Mem) (t : Nat) (b : Block) : Block :=
  let k := (d.tile t).bank (dBank b.desc)
  let src := if k.loads = b.bankLoads then (k.codes, k.scales) else readB m d t b.loadDesc
  { b with replayed := true, results := blockResults m d t b.desc b.index b.loadDesc src.1 src.2 }

/-- RESIDUE_MISMATCH (R58): the failing block and the younger ones are broadcast again, unless a fault has become lasting. -/
def xResidueMismatch (t block : Nat) (dpus : List (Fin 32 × Fin 32)) : Effect := fun m d =>
  let x := d.tile t
  let l := x.clocked dpus
  match x.pipe[block]? with
  | none => d
  | some b =>
    if !d.tileRuns t || b.replayed || l.isEmpty then d
    else
      let d := d.each l (fun d p => d.bump (Reg.tileColResidue t p.2))
      let (d, lasting) := d.chargeBlock m t l false
      if lasting && !(d.tileRuns t && ((d.tile t).pipe.length == x.pipe.length)) then d
      else
        let y := d.tile t
        let again := (y.pipe.drop block).map (d.replayed m t)
        let kp := again.foldl (fun (k : Keeper) _ => k.real (d.keeperReg t)) y.keeper
        let d := d.setTile t { y with pipe := y.pipe.take block ++ again, keeper := kp }
        (d.bump (Reg.tileResidueReplay t)).bumpN (Reg.tileBlocks t) again.length

/-- Sets marked under R59, a bit per set. -/
def Tile.markedSets (x : Tile) : Nat := (x.sets.filter (fun p => p.2.marked)).foldl (fun a p => a + 2 ^ p.1) 0

/-- RESIDUE_REPLAY_FAIL (R59): the set is marked, nothing younger is written, the work ends. -/
def xResidueReplayFail (t block : Nat) (dpus : List (Fin 32 × Fin 32)) : Effect := fun m d =>
  let x := d.tile t
  let l := x.clocked dpus
  match x.pipe[block]? with
  | none => d
  | some b =>
    if !d.tileRuns t || !b.replayed || l.isEmpty then d
    else
      let n := dFirst b.desc + b.index
      let x := { x with pipe := x.pipe.take block, passes := [], loader := x.loader.map (fun (y : Loader) => { y with before := 0 }) }
      let x := x.setSet n { x.set n with marked := true }
      let d := (d.setTile t x).bump (Reg.tileResidueUc t)
      let d := d.each l (fun d p => d.bump (Reg.tileColResidue t p.2))
      let cols := (dpuCols l).foldl (fun a c => a + 2 ^ c) 0
      let d := d.tileError m t 0x0103 x.markedSets cols true
      (d.chargeBlock m t l true).1

/-! Draining. -/

/-- The lowest drain-pending set, when no set drains and no block is in flight towards it (R49). -/
def Tile.drainNext (x : Tile) : Option Nat :=
  if x.sets.any (fun p => p.2.drain == .draining) then none
  else
    match x.sets.find? (fun p => p.2.drain == .pending) with
    | none => none
    | some p => if x.pipe.any (fun b => dFirst b.desc + b.index == p.1) then none else some p.1

/-- SET_DRAIN (R50). -/
def xSetDrain (t : Nat) : Effect := fun m d =>
  if !d.tileRuns t then d
  else match (d.tile t).drainNext with
    | none => d
    | some n => d.drain m t n

/-- SET_DRAIN_COMPLETE (R49): the set is released. -/
def xSetDrainComplete (t : Nat) : Effect := fun _ d =>
  let x := d.tile t
  if !d.tclk t then d
  else match x.sets.find? (fun p => p.2.drain == .draining) with
    | none => d
    | some p => d.setTile t (x.setSet p.1 { p.2 with drain := .none })

/-! Columns by force, and the keeper. -/

/-- An accepted write of TILE_COL_FORCE (R71): at once inside the start-up window, by Table 2.5 after it. -/
def Dev.colForce (d : Dev) (m : Mem) (t : Nat) (v : BitVec 32) : Dev :=
  let d := d.putReg (Reg.tileColForce t) v
  let x := d.tile t
  let fresh := v &&& ~~~x.bypass
  if fresh = 0 then d
  else
    let d := d.setTile t { x with forced := x.forced ||| fresh }
    let x := d.tile t
    if !d.strata.activated then
      if 8 < popcount (x.bypass ||| fresh).toNat 32 then d.retireTile m t 0xFF
      else (d.setTile t { x with bypass := x.bypass ||| fresh }).noteDegraded
    else d.each ((List.range 32).filter fresh.getLsbD) (fun d c => d.narrowTile m t c)

/-- KEEPER_DUMMY_BROADCAST (R72). -/
def xKeeperDummyBroadcast (t : Nat) : Effect := fun _ d =>
  let x := d.tile t
  if !d.tclk t || x.state == .retired || !x.keeper.dummyDue then d
  else (d.setTile t { x with keeper := x.keeper.dummy }).bump (Reg.tileDummy t)

/-- KEEPER_FILL_MAX_EXPIRY (R72). -/
def xKeeperFillMaxExpiry (t : Nat) : Effect := fun _ d =>
  let x := d.tile t
  if !d.tclk t || x.state == .retired || !x.keeper.fillMaxDue then d
  else d.setTile t { x with keeper := x.keeper.toDecay (d.keeperReg t) }

/-- KEEPER_RAMP_INTERVAL_END (R72). -/
def xKeeperRampIntervalEnd (t : Nat) : Effect := fun _ d =>
  let x := d.tile t
  if !d.tclk t || x.state == .retired || !x.keeper.intervalDue then d
  else d.setTile t { x with keeper := x.keeper.intervalEnd (d.keeperReg t) }

/-- An accepted write of TILE_KEEPER (R73): ignored whole out of range. -/
def Dev.keeperWrite (d : Dev) (q : Nat) (v : BitVec 32) : Dev :=
  if fb v 3 0 = 0 || 8 < fb v 3 0 || fb v 12 8 = 0 then d else d.putReg (Reg.tileKeeper q) v

/-! One meaning per command. -/

def execDescLoadB (t : Fin 64) (s : State) : Host.Outcome State Fault Refusal := s.run (xDescLoadB t.val)
def execDescPass (t : Fin 64) (s : State) : Host.Outcome State Fault Refusal := s.run (xDescPass t.val)
def execDescOutput (t : Fin 64) (s : State) : Host.Outcome State Fault Refusal := s.run (xDescOutput t.val)
def execDescNop (t : Fin 64) (s : State) : Host.Outcome State Fault Refusal := s.run (xDescNop t.val)
def execBankLoadComplete (t : Fin 64) (e : WordErrors) (s : State) : Host.Outcome State Fault Refusal :=
  s.run (xBankLoadComplete t.val e)
def execBlockBroadcast (t : Fin 64) (e : WordErrors) (s : State) : Host.Outcome State Fault Refusal :=
  s.run (xBlockBroadcast t.val e)
def execSetWrite (t : Fin 64) (s : State) : Host.Outcome State Fault Refusal := s.run (xSetWrite t.val)
def execResidueMismatch (t : Fin 64) (block : Nat) (dpus : List (Fin 32 × Fin 32)) (s : State) :
    Host.Outcome State Fault Refusal := s.run (xResidueMismatch t.val block dpus)
def execResidueReplayFail (t : Fin 64) (block : Nat) (dpus : List (Fin 32 × Fin 32)) (s : State) :
    Host.Outcome State Fault Refusal := s.run (xResidueReplayFail t.val block dpus)
def execSetDrain (t : Fin 64) (s : State) : Host.Outcome State Fault Refusal := s.run (xSetDrain t.val)
def execSetDrainComplete (t : Fin 64) (s : State) : Host.Outcome State Fault Refusal := s.run (xSetDrainComplete t.val)

/-- TILE_COL_FORCE_WRITE (R71): context 0 only. -/
def execTileColForceWrite (r : Requester) (t : Fin 64) (v : BitVec 32) (s : State) : Host.Outcome State Fault Refusal :=
  s.runReg r (Reg.tileColForce t.val) v (fun _ => isCtx0 r) (fun m d => d.tileWord t.val (fun d => d.colForce m t.val v))

def execKeeperDummyBroadcast (t : Fin 64) (s : State) : Host.Outcome State Fault Refusal := s.run (xKeeperDummyBroadcast t.val)
def execKeeperFillMaxExpiry (t : Fin 64) (s : State) : Host.Outcome State Fault Refusal := s.run (xKeeperFillMaxExpiry t.val)
def execKeeperRampIntervalEnd (t : Fin 64) (s : State) : Host.Outcome State Fault Refusal :=
  s.run (xKeeperRampIntervalEnd t.val)

/-- TILE_KEEPER_WRITE (R73): context 0 only. -/
def execTileKeeperWrite (r : Requester) (q : Fin 4) (v : BitVec 32) (s : State) : Host.Outcome State Fault Refusal :=
  s.runReg r (Reg.tileKeeper q.val) v (fun _ => isCtx0 r) (fun _ d => d.dieWord q.val (fun d => d.keeperWrite q.val v))

/-- TILE_CONV_CTRL_WRITE (R103, R104): sets whose drain has begun keep their value. -/
def execTileConvCtrlWrite (r : Requester) (c t : Fin 64) (v : BitVec 32) (s : State) : Host.Outcome State Fault Refusal :=
  s.runReg r (Reg.tileConvCtrl t.val) v (fun d => d.mayWriteTile r c.val t.val)
    (fun _ d => d.tileWord t.val (fun d => d.putReg (Reg.tileConvCtrl t.val) v))

def execEmptyBroadcastSlot (t : Fin 64) (s : State) : Host.Outcome State Fault Refusal := s.run (xEmptyBroadcastSlot t.val)

end Sys2Proof.Machine
end

