-- ==== Sys2Proof/Machine/CohOps.lean ====
section
/-! DEFINITION. Coherence of device lines (R334, R335): the directory, snoops, and the accesses that wait for them. -/

namespace Sys2Proof.Machine

def opcDSNPI : Nat := 8
def opcDSNPS : Nat := 9

/-- The coherent range of context `c` (CTX_HCOH), in bytes: first and length; empty when not enabled. -/
def Dev.cohRange (d : Dev) (c : Nat) : Nat × Nat :=
  if d.rb (Reg.ctxHcoh c) 31 then (d.rf (Reg.ctxHcoh c) 18 0 * 2 ^ 21, d.rf (Reg.ctxHcoh c) 30 20 * 2 ^ 21) else (0, 0)

/-- The I/O die that homes a line (R334). -/
def lineHome (line : Nat) : Nat := if line * 64 / 2 ^ 38 < 2 then 4 else 5

/-- Ports of a sharer mask. -/
def portsOf (v : BitVec 4) : List Nat := (List.range 4).filter v.getLsbD

/-- Snoops that an access to [a, a + n) needs, but for the holder `except`: a read downgrades a line held in E, a write
invalidates every copy. -/
def Dev.snoopsFor (d : Dev) (a n : Nat) (write : Bool) (except : Option Nat) : List (Nat × Nat × Bool) :=
  (d.directory.filter (fun x => x.1 * 64 < a + n && a < x.1 * 64 + 64)).flatMap (fun x =>
    let ports := (portsOf x.2.sharers).filter (fun p => except != some p)
    if write then ports.map (fun p => (p, x.1, true)) else if x.2.exclusive then ports.map (fun p => (p, x.1, false)) else [])

/-- A TAG for a snoop on port `p`. -/
def Dev.freeSnoopTag (d : Dev) (p : Nat) : Nat :=
  ((List.range (d.snoops.length + 1)).find? (fun t => !(d.snoops.any (fun s => s.port == p && s.tag == t)))).getD 0

/-- Send a snoop, unless one for that port and line is unanswered. -/
def Dev.sendSnoop (d : Dev) (p line : Nat) (inval : Bool) : Dev :=
  if d.snoops.any (fun s => s.port == p && s.line == line) then d
  else
    let t := d.freeSnoopTag p
    let k : HPacket := { hdr := hpHdr (if inval then opcDSNPI else opcDSNPS) 1 t 0 0 0 0 0 (line * 64), data := [] }
    let d := { d with snoops := d.snoops ++ [({ port := p, tag := t, line := line, inval := inval } : Snoop)] }
    (d.bump (Reg.devHpSnoops p)).sendHost p k

/-- Issue the snoops an access needs; the pairs it then waits for. -/
def Dev.cohWait (d : Dev) (a n : Nat) (write : Bool) (except : Option Nat) : Dev × List (Nat × Nat) :=
  if !isHbm a || n = 0 then (d, [])
  else
    let l := d.snoopsFor a n write except
    (d.each l (fun d x => d.sendSnoop x.1 x.2.1 x.2.2), l.map (fun x => (x.1, x.2.1)))

/-- Take port `p` out of a directory entry. -/
def Dev.dropSharer (d : Dev) (p line : Nat) : Dev :=
  match mfind d.directory line with
  | none => d
  | some e =>
    let v := e.sharers &&& ~~~(BitVec.ofNat 4 (2 ^ p))
    { d with directory := if v = 0 then mdel d.directory line else mset d.directory line { e with sharers := v } }

/-- Record a grant of a line to port `p`. -/
def Dev.grantLine (d : Dev) (p line : Nat) (exclusive : Bool) : Dev :=
  let e := mget { exclusive := exclusive, sharers := 0, age := 0 } d.directory line
  let age := (d.directory.foldl (fun a x => max a x.2.age) 0) + 1
  let v := if exclusive then BitVec.ofNat 4 (2 ^ p) else e.sharers ||| BitVec.ofNat 4 (2 ^ p)
  { d with directory := mset d.directory line { exclusive := exclusive, sharers := v, age := age } }

/-- The oldest entry of the full set a new line falls in (R334). -/
def Dev.evictFor (d : Dev) (line : Nat) : Option Nat :=
  let same := d.directory.filter (fun x => lineHome x.1 == lineHome line && Config.dirSet x.1 == Config.dirSet line)
  if (mfind d.directory line).isSome || same.length < 16 then none
  else (same.foldl (fun (b : Option (Nat × DirEntry)) x =>
    match b with
    | none => some x
    | some y => if x.2.age < y.2.age then some x else b) none).map (·.1)

/-- An access of a package requester that asks again: it may not proceed while a host holds a line against it (log entry 41). -/
def Dev.cohBlocked (d : Dev) (a n : Nat) (write : Bool) : Dev × Bool :=
  let (d, l) := d.cohWait a n write none
  (d, !l.isEmpty)

end Sys2Proof.Machine
end

