-- ==== Sys2Proof/Machine/HbmCode.lean ====
section
/-! DEFINITION. The HBM burst code (R192): a Reed-Solomon code over GF(2^16) with 16 data symbols, 3 check symbols and the 3 symbols
of the burst's address, minimum distance 4. What the controller makes of a burst depends on the error pattern alone. -/

namespace Sys2Proof.Machine

/-- Multiply by α modulo x^16 + x^12 + x^3 + x + 1. -/
def gfX (a : Nat) : Nat := if 2 ^ 15 ≤ a then ((2 * a) ^^^ 0x1100B) % 2 ^ 17 else 2 * a

def gfMul : Nat → Nat → Nat → Nat
  | 0, _, _ => 0
  | n + 1, a, b => (if b % 2 = 1 then a else 0) ^^^ gfMul n (gfX a) (b / 2)

def gf (a b : Nat) : Nat := gfMul 16 a b

def alphaPow : Nat → Nat
  | 0 => 1
  | n + 1 => gfX (alphaPow n)

/-- The error symbol at code position `i`: 0 to 2 check, 3 to 18 data, 19 to 21 address, never stored (log entry 25). -/
def errSymbol (e : BitVec 304) (i : Nat) : Nat :=
  if i < 3 then fb e (256 + 16 * i + 15) (256 + 16 * i) else if i < 19 then fb e (16 * (i - 3) + 15) (16 * (i - 3)) else 0

/-- Syndrome j: the error polynomial at α^j. -/
def syndrome (e : BitVec 304) (j : Nat) : Nat :=
  (List.range 19).foldl (fun a i => a ^^^ gf (errSymbol e i) (alphaPow (i * j))) 0

/-- What the controller finds (R192, R193). -/
inductive BurstResult where
  | clean
  | corrected (position symbol : Nat)
  | uncorrectable
deriving DecidableEq, Repr

def burstDecode (e : BitVec 304) : BurstResult :=
  let s0 := syndrome e 0
  let s1 := syndrome e 1
  let s2 := syndrome e 2
  if s0 = 0 && s1 = 0 && s2 = 0 then .clean
  else match (List.range 22).find? (fun i => s0 != 0 && s1 == gf s0 (alphaPow i) && s2 == gf s0 (alphaPow (2 * i))) with
    | some i => if i < 19 then .corrected i s0 else .uncorrectable
    | none => .uncorrectable

/-- The 256-bit error left in the data after correction. -/
def residualError (e : BitVec 304) : BitVec 256 :=
  let raw := BitVec.ofNat 256 e.toNat
  match burstDecode e with
  | .corrected i s => if 3 ≤ i then raw ^^^ BitVec.ofNat 256 (s * 2 ^ (16 * (i - 3))) else raw
  | _ => raw

/-- Data bytes with an error pattern laid over them. -/
def overlay (bs : List Byte) (e : BitVec 256) : List Byte := toLE bs.length (leOf bs ^^^ e.toNat)

end Sys2Proof.Machine
end

