-- ==== Sys2Proof/Machine/Memory.lean ====
section
/-! DEFINITION. The commands of HBM, the scratchpad scrub, page release and the mover's wake (chapter 6). -/

namespace Sys2Proof.Machine

/-- The quarter of an offset is in service: its four stacks are trained (R172). -/
def Dev.hbmServes (d : Dev) (off : Nat) : Bool := (d.pwr.state == .run || d.pwr.state == .quiesce) && (List.range 4).all (fun s => (d.stack (4 * (off / 2 ^ 38) + s)).state == 2)

/-- What the check code made of the burst at `off` read with error pattern `e` (R193, R194): counted, recorded, charged. A burst
known to be uncorrectable stays so. -/
def Dev.burstRead (d : Dev) (off : Nat) (e : BitVec 304) : Dev × BurstResult :=
  if d.badBursts.contains (off / 32) then (d.burstBad off, .uncorrectable)
  else match burstDecode e with
    | .clean => (d, .clean)
    | .corrected i s => (d.burstCorrected off, .corrected i s)
    | .uncorrectable => (d.burstBad off, .uncorrectable)

/-- HBM_READ (R177, R193, R194): a 32-byte burst under context `c`. -/
def xHbmRead (c off : Nat) (e : BitVec 304) : Effect := fun m d =>
  let a := off / 32 * 32
  if !isHbm a || !d.hbmServes a then d.emit (.error 0x0301 off)
  else
    let (d, err) := d.accessCheck c a 32
    match err with
    | some code => d.emit (.error code off)
    | none =>
      let (d, held) := d.cohBlocked a 32 false
      if held || d.zeroingIn a 32 then d
      else
        let (d, r) := d.burstRead a e
        if r == .uncorrectable then d.emit (.error 0x0304 a) else d.emit (.readData (overlay (peekN m d a 32) (residualError e)))

/-- HBM_WRITE (R177, R194): within one burst; a partial write reads the burst first. -/
def xHbmWrite (c off : Nat) (data : List Byte) (e : BitVec 304) : Effect := fun m d =>
  let a := off / 32 * 32
  let n := data.length
  if n = 0 || 32 < off % 32 + n then d
  else if !isHbm a || !d.hbmServes a then d.emit (.error 0x0301 off)
  else
    let (d, err) := d.accessCheck c off n
    match err with
    | some code => d.emit (.error code off)
    | none =>
      let (d, held) := d.cohBlocked a 32 true
      if held || d.zeroingIn a 32 then d
      else if n = 32 then (d.store m off data).1
      else
        let (d, r) := d.burstRead a e
        if r == .uncorrectable then d.emit (.error 0x0304 a)
        else (d.pokeN a (overlay (peekN m d a 32) (residualError e))).pokeN off data

/-- SCRATCHPAD_SCRUB (R186): one row of each bank. -/
def xScratchpadScrub (t row : Nat) (e : WordErrors) : Effect := fun m d =>
  let x := d.tile t
  if !d.tclk t || x.state == .retired || x.clearing then d else (d.scrRead m t [(row * 4096, 4096)] e).1

/-- MOVER_WAKE (R190): PROD is checked; too far ahead, it ends the tile's work. -/
def xMoverWake (t : Nat) : Effect := fun m d =>
  let x := d.tile t
  if !d.tileRuns t || !x.moverAwake || !d.rb (Reg.tileMoveCtrl t) 31 then d
  else
    let d := d.setTile t { x with moverAwake := false }
    if x.stopped || x.moverStopped then d
    else
      let base := d.rf (Reg.tileMoveCtrl t) 19 0 * 32
      let prod := peekLE m d (scrBase t + base) 4
      let cons := (d.reg (Reg.tileMoveCons t)).toNat
      if 2 ^ d.rf (Reg.tileMoveCtrl t) 23 20 < (prod + 2 ^ 32 - cons) % 2 ^ 32 then d.tileError m t 0x0306 prod 0 false
      else d.setTile t { d.tile t with moveProd := BitVec.ofNat 32 prod }

/-- Set PEND_RETIRE on a page. -/
def Dev.pendRetire (d : Dev) (pg : Nat) : Dev := { d with pages := mset d.pages pg (d.page pg ||| 0x1000) }

/-- SOFT_REPAIR (R195, Table 6.10), or its fall-back when the bank has no repair resource left (R197). -/
def xSoftRepair (off : Nat) (resource : Bool) : Effect := fun _ d =>
  if !isHbm off then d
  else
    let p := d.placeOf off
    let u := hbmRowUnit p
    let st := d.stack p.stack
    let pg := off / 2 ^ 21
    let held := pageState (d.page pg) == 1 && d.badBursts.any (fun b => hbmRowUnit (d.placeOf (32 * b)) == u)
    if !st.due.contains u || held then d
    else
      let st := { st with due := st.due.filter (· != u) }
      if resource then
        let d := d.setStack p.stack { st with soft := st.soft ++ [u] }
        (d.bump (Reg.memPprSoft (p.stack / 4) (p.stack % 4))).event (d.pageCtx off) 0x0309 1 off 0 0
      else ((d.setStack p.stack st).exhausted 3 u (d.pageCtx off) 0).pendRetire pg

/-- The last burst of a patrol pass over a stack (log entry 26). -/
def lastOfPass (p : HbmPlace) : Bool := p.channel == 31 && p.pseudo == 1 && p.local_ / 32 == 2 ^ 25 - 1

/-- HBM_SCRUB (R198): a read with no requester. -/
def xHbmScrub (off : Nat) (e : BitVec 304) : Effect := fun _ d =>
  let a := off / 32 * 32
  if !isHbm a || !d.hbmServes a || d.lost (a / 2 ^ 38) || !d.rb (Reg.memScrubCtrl (a / 2 ^ 38)) 31 then d
  else
    let p := d.placeOf a
    let (d, _) := d.burstRead a e
    d.bumpIf (lastOfPass p) (Reg.memScrubPasses (p.stack / 4) (p.stack % 4))

/-- RETIRED pages of a quarter beyond its reserved areas: the retirement list (R197). -/
def Dev.retiredIn (d : Dev) (q : Nat) : Nat :=
  (d.pages.filter (fun p => p.1 / 131072 == q && pageState p.2 == 3)).length

/-- Retire a FREE page, unless the quarter's list is full (R197). -/
def Dev.retirePage (d : Dev) (pg : Nat) : Dev :=
  let q := pg / 131072
  if 4096 ≤ d.retiredIn q then ({ d with pages := mset d.pages pg 0 }).event [] 0x030B 3 q 0 0
  else ({ d with pages := mset d.pages pg 0xC000 }).event [] 0x030A 1 (pg * 2 ^ 21) 0 0

/-- An accepted write of MEM_RETIRE_FORCE (R197). A page being zeroed retires when that ends. -/
def Dev.retireForce (d : Dev) (q : Nat) (v : BitVec 32) : Dev :=
  let d := d.putReg (Reg.memRetireForce q) v
  let pg := q * 131072 + fb v 16 0
  let e := d.page pg
  if pageState e = 1 || (pageState e = 0 && pageZeroing e) then d.pendRetire pg
  else if pageState e = 0 then d.retirePage pg
  else d

/-- PAGE_ZEROED (R199): ZEROING clears; a PEND_RETIRE page retires (R197). -/
def xPageZeroed (pg : Nat) : Effect := fun _ d =>
  let e := d.page pg
  if !pageZeroing e then d
  else
    let d := (d.wipe (pg * 2 ^ 21) (2 ^ 21)).bumpN (Reg.memZeroBytes (pg / 131072)) (2 ^ 21)
    let d := { d with badBursts := d.badBursts.filter (fun b => b / 65536 != pg),
                      pages := mset d.pages pg (e &&& ~~~(0x2000 : BitVec 16)) }
    if pageState e = 0 && e.getLsbD 12 then d.retirePage pg else d

/-! One meaning per command. -/

def execHbmRead (c : Fin 64) (off : BitVec 40) (err : BitVec 304) (s : State) : Host.Outcome State Fault Refusal :=
  s.run (xHbmRead c.val off.toNat err)
def execHbmWrite (c : Fin 64) (off : BitVec 40) (data : List Byte) (err : BitVec 304) (s : State) :
    Host.Outcome State Fault Refusal := s.run (xHbmWrite c.val off.toNat data err)
def execScratchpadScrub (t : Fin 64) (row : Fin 8192) (e : WordErrors) (s : State) : Host.Outcome State Fault Refusal :=
  s.run (xScratchpadScrub t.val row.val e)
def execMoverWake (t : Fin 64) (s : State) : Host.Outcome State Fault Refusal := s.run (xMoverWake t.val)
def execSoftRepair (off : BitVec 40) (resource : Bool) (s : State) : Host.Outcome State Fault Refusal :=
  s.run (xSoftRepair off.toNat resource)
def execHbmScrub (off : BitVec 40) (err : BitVec 304) (s : State) : Host.Outcome State Fault Refusal :=
  s.run (xHbmScrub off.toNat err)

/-- MEM_RETIRE_FORCE_WRITE (R197): context 0 only. -/
def execMemRetireForceWrite (r : Requester) (q : Fin 4) (v : BitVec 32) (s : State) : Host.Outcome State Fault Refusal :=
  s.runReg r (Reg.memRetireForce q.val) v (fun _ => isCtx0 r) (fun _ d => d.dieWord q.val (fun d => d.retireForce q.val v))

def execPageZeroed (page : Fin 524288) (s : State) : Host.Outcome State Fault Refusal := s.run (xPageZeroed page.val)

end Sys2Proof.Machine
end

