-- ==== Sys2Proof/Machine/Crypto.lean ====
section
/-! DEFINITION. The cryptographic functions the spec names and other standards define: AES-256 and GCM (FIPS 197, NIST SP 800-38D),
SHA-512 (FIPS 180-4), HMAC (FIPS 198-1) and HKDF (RFC 5869). -/

namespace Sys2Proof.Machine

/-! AES-256. The state and the round keys are 16-byte lists, in the order of the input bytes. -/

/-- The S-box, value x in bits [8x + 7 : 8x]. -/
def sboxWord : Nat := 0x16bb54b00f2d99416842e6bf0d89a18cdf2855cee9871e9b948ed9691198f8e19e1dc186b95735610ef6034866b53e708a8bbd4b1f74dde8c6b4a61c2e2578ba08ae7a65eaf4566ca94ed58d6d37c8e779e4959162acd3c25c2406490a3a32e0db0b5ede14b8ee4688902a22dc4f816073195d643d7ea7c41744975fec130ccdd2f3ff1021dab6bcf5389d928f40a351a89f3c507f02f94585334d43fbaaefd0cf584c4a39becb6a5bb1fc20ed00d153842fe329b3d63b52a05a6e1b1a2c830975b227ebe28012079a059618c323c7041531d871f1e5a534ccf73f362693fdb7c072a49cafa2d4adf04759fa7dc982ca76abd7fe2b670130c56f6bf27b777c63

def sbox (x : Nat) : Nat := fld sboxWord (8 * x + 7) (8 * x)

/-- Multiply by x in GF(2^8). -/
def xtime (a : Nat) : Nat := if a < 128 then 2 * a else (2 * a) % 256 ^^^ 0x1B

/-- One column through MixColumns. -/
def mixColumn : List Nat → List Nat
  | [a, b, c, d] =>
    let f := fun (p q r s : Nat) => xtime p ^^^ (xtime q ^^^ q) ^^^ r ^^^ s
    [f a b c d, f b c d a, f c d a b, f d a b c]
  | l => l

def xorBytes : List Nat → List Nat → List Nat
  | a :: r, b :: s => (a ^^^ b) :: xorBytes r s
  | _, _ => []

/-- SubBytes and ShiftRows. -/
def subShift (s : List Nat) : List Nat := (List.range 16).map (fun i => sbox (s.getD ((i + 4 * (i % 4)) % 16) 0))

def mixColumns (s : List Nat) : List Nat :=
  mixColumn (s.take 4) ++ mixColumn ((s.drop 4).take 4) ++ mixColumn ((s.drop 8).take 4) ++ mixColumn (s.drop 12)

/-- One word of the key schedule from the eight before it, `i` its number, oldest first. -/
def nextKeyWord (i rcon : Nat) (w0 w7 : List Nat) : List Nat :=
  let t := if i % 8 = 0 then
      (match w7.map sbox with
       | [a, b, c, d] => [b ^^^ rcon, c, d, a]
       | l => l)
    else if i % 8 = 4 then w7.map sbox else w7
  xorBytes w0 t

/-- The key schedule: `n` more words after the last eight `w`. -/
def expandKey : Nat → Nat → Nat → List (List Nat) → List (List Nat)
  | 0, _, _, _ => []
  | n + 1, i, rcon, w =>
    let k := nextKeyWord i rcon (w.headD []) (w.getD 7 [])
    k :: expandKey n (i + 1) (if i % 8 = 0 then xtime rcon else rcon) (w.drop 1 ++ [k])

/-- Words of four of a list. -/
def inFours : Nat → List Nat → List (List Nat)
  | 0, _ => []
  | n + 1, l => l.take 4 :: inFours n (l.drop 4)

/-- The 15 round keys of a 32-byte key. -/
def roundKeys (key : List Nat) : List (List Nat) :=
  let w := inFours 8 key
  let all := w ++ expandKey 52 8 1 w
  (List.range 15).map (fun r => ((all.drop (4 * r)).take 4).flatten)

/-- Rounds on a state: the last has no MixColumns. -/
def aesRounds : List (List Nat) → List Nat → List Nat
  | [], s => s
  | [k], s => xorBytes (subShift s) k
  | k :: r, s => aesRounds r (xorBytes (mixColumns (subShift s)) k)

def aesBlock (keys : List (List Nat)) (s : List Nat) : List Nat := aesRounds (keys.drop 1) (xorBytes s (keys.headD []))

/-- A number of `n` bytes, most significant byte first. -/
def toBE (n v : Nat) : List Nat := ((toLE n v).map BitVec.toNat).reverse

/-- The number that bytes spell, most significant first. -/
def ofBE (l : List Nat) : Nat := l.foldl (fun a b => a * 256 + b) 0

/-! GCM. -/

/-- Multiplication in GF(2^128), bit 0 the most significant (SP 800-38D, 6.3). -/
def ghashMul : Nat → Nat → Nat → Nat → Nat
  | 0, _, _, z => z
  | n + 1, x, v, z =>
    ghashMul n x (if v % 2 = 1 then v / 2 ^^^ (0xE1 * 2 ^ 120) else v / 2) (if x.testBit n then z ^^^ v else z)

/-- Blocks of 16 bytes, the last padded with zeros, as numbers. -/
def gcmBlocks : Nat → List Nat → List Nat
  | 0, _ => []
  | n + 1, l => if l.isEmpty then [] else ofBE (l.take 16 ++ List.replicate (16 - l.length) 0) :: gcmBlocks n (l.drop 16)

def ghash (h : Nat) (blocks : List Nat) : Nat := blocks.foldl (fun y b => ghashMul 128 (y ^^^ b) h 0) 0

/-- The key stream from counter block `iv`, `c`. -/
def gcmStream (keys : List (List Nat)) (iv : List Nat) : Nat → Nat → List Nat
  | 0, _ => []
  | n + 1, c => aesBlock keys (iv ++ toBE 4 (c % 2 ^ 32)) ++ gcmStream keys iv n (c + 1)

def gcmTag (keys : List (List Nat)) (iv aad ct : List Nat) : List Nat :=
  let h := ofBE (aesBlock keys (List.replicate 16 0))
  let s := ghash h (gcmBlocks (aad.length + 1) aad ++ gcmBlocks (ct.length + 1) ct ++ [aad.length * 8 * 2 ^ 64 + ct.length * 8])
  xorBytes (toBE 16 s) (aesBlock keys (iv ++ [0, 0, 0, 1]))

/-- AES-256-GCM with a 96-bit IV: the ciphertext and the 16-byte tag. -/
def gcmSeal (key iv aad pt : List Nat) : List Nat × List Nat :=
  let keys := roundKeys key
  let ct := xorBytes pt (gcmStream keys iv (pt.length / 16 + 1) 2)
  (ct, gcmTag keys iv aad ct)

/-- The plaintext, where the tag is right. -/
def gcmOpen (key iv aad ct tag : List Nat) : Option (List Nat) :=
  let keys := roundKeys key
  if gcmTag keys iv aad ct == tag then some (xorBytes ct (gcmStream keys iv (ct.length / 16 + 1) 2)) else none

/-! SHA-512. -/

def sha512Constants : Nat := 0x6c44198c4a4758175fcb6fab3ad6faec597f299cfc657e2a4cc5d4becb3e42b6431d67c49c100d4c3c9ebe0a15c9bebc32caab7b40c7249328db77f523047d841b710b35131c471b113f9804bef90dae0a637dc5a2c898a606f067aa72176fbaf57d4f7fee6ed178eada7dd6cde0eb1ed186b8c721c0c207ca273eceea26619cc67178f2e372532bbef9a3f7b2c67915a4506cebde82bde990befffa23631e288cc702081a6439ec84c87814a1f0ab7278a5636f43172f60748f82ee5defb2fc682e6ff3d6b2b8a35b9cca4f7763e3734ed8aa4ae3418acb391c0cb3c5c95a6334b0bcb5e19b48a82748774cdf8eeb991e376c085141ab5319a4c116b8d2d0c8106aa07032bbd1b8f40e35855771202ad69906245565a910d192e819d6ef5218c76c51a30654be30c24b8b70d0f89791a81a664bbc423001a2bfe8a14cf1036492722c851482353b81c2c92e47edaee6766a0abb3c77b2a8650a73548baf63de53380d139d95b3df4d2c6dfc5ac42aed2e1b21385c26c92627b70a8546d22ffc142929670a0e6e7006ca6351e003826fd5a79147930aa725c6e00bf33da88fc2bf597fc7beef0ee4b00327c898fb213fa831c66d2db43210983e5152ee66dfab76f988da831153b55cb0a9dcbd41fbd44a7484aa6ea6e4832de92c6f592b0275240ca1cc77ac9c650fc19dc68b8cd5b5efbe4786384f25e3e49b69c19ef14ad2c19bf174cf6926949bdc06a725c7123580deb1fe3b1696b172be5d74f27b896f550c7dc3d5ffb4e2243185be4ee4b28c12835b0145706fbed807aa98a3030242ab1c5ed5da6d8118923f82a4af194f9b59f111f1b605d0193956c25bf348b538e9b5dba58189dbbcb5c0fbcfec4d3b2f7137449123ef65cd428a2f98d728ae22

def rotr64 (x n : Nat) : Nat := (x >>> n ||| x <<< (64 - n)) % 2 ^ 64

/-- The message schedule after its first 16 words: `n` more, the 16 before them oldest first. -/
def shaSchedule : Nat → List Nat → List Nat
  | 0, _ => []
  | n + 1, w =>
    let a := w.getD 1 0
    let b := w.getD 14 0
    let x := (w.getD 0 0 + (rotr64 a 1 ^^^ rotr64 a 8 ^^^ a >>> 7) + w.getD 9 0 + (rotr64 b 19 ^^^ rotr64 b 61 ^^^ b >>> 6)) % 2 ^ 64
    x :: shaSchedule n (w.drop 1 ++ [x])

/-- One round on the eight working variables. -/
def shaRound (h : List Nat) (k w : Nat) : List Nat :=
  match h with
  | [a, b, c, d, e, f, g, i] =>
    let t1 := i + (rotr64 e 14 ^^^ rotr64 e 18 ^^^ rotr64 e 41) + ((e &&& f) ^^^ ((2 ^ 64 - 1 - e) &&& g)) + k + w
    let t2 := (rotr64 a 28 ^^^ rotr64 a 34 ^^^ rotr64 a 39) + ((a &&& b) ^^^ (a &&& c) ^^^ (b &&& c))
    [(t1 + t2) % 2 ^ 64, a, b, c, (d + t1) % 2 ^ 64, e, f, g]
  | l => l

def shaWords : Nat → List Nat → List Nat
  | 0, _ => []
  | n + 1, l => ofBE (l.take 8) :: shaWords n (l.drop 8)

def addWords : List Nat → List Nat → List Nat
  | a :: r, b :: s => ((a + b) % 2 ^ 64) :: addWords r s
  | _, _ => []

def shaBlock (h block : List Nat) : List Nat :=
  let w := shaWords 16 block
  let all := w ++ shaSchedule 64 w
  addWords h (all.zipIdx.foldl (fun v x => shaRound v (fld sha512Constants (64 * x.2 + 63) (64 * x.2)) x.1) h)

def shaBlocks : Nat → List Nat → List Nat → List Nat
  | 0, _, h => h
  | n + 1, l, h => shaBlocks n (l.drop 128) (shaBlock h (l.take 128))

def sha512Init : List Nat := [0x6a09e667f3bcc908, 0xbb67ae8584caa73b, 0x3c6ef372fe94f82b, 0xa54ff53a5f1d36f1, 0x510e527fade682d1, 0x9b05688c2b3e6c1f, 0x1f83d9abfb41bd6b, 0x5be0cd19137e2179]

/-- SHA-512 of a byte list: 64 bytes, first byte first. -/
def sha512N (l : List Nat) : List Nat :=
  let pad := List.replicate ((239 - l.length % 128) % 128) 0
  let msg := l ++ [0x80] ++ pad ++ toBE 16 (8 * l.length)
  ((shaBlocks (msg.length / 128) msg sha512Init).map (toBE 8)).flatten

def natBytes (l : List Byte) : List Nat := l.map BitVec.toNat
def ofNatBytes (l : List Nat) : List Byte := l.map (BitVec.ofNat 8)

/-- SHA-512 of bytes, as bytes. -/
def sha512 (l : List Byte) : List Byte := ofNatBytes (sha512N (natBytes l))

/-- A digest as one number whose first byte is the most significant. -/
def digestNum (l : List Byte) : Nat := ofBE (natBytes l)

/-! HMAC and HKDF over SHA-512. -/

def hmac512 (key msg : List Byte) : List Byte :=
  let k := if 128 < key.length then sha512 key else key
  let k := natBytes k ++ List.replicate (128 - k.length) 0
  let inner := sha512N (k.map (· ^^^ 0x36) ++ natBytes msg)
  ofNatBytes (sha512N (k.map (· ^^^ 0x5C) ++ inner))

def hkdfExtract (salt ikm : List Byte) : List Byte := hmac512 salt ikm

def hkdfExpandFrom (prk info : List Byte) : Nat → Nat → List Byte → List Byte
  | 0, _, _ => []
  | n + 1, i, t =>
    let t' := hmac512 prk (t ++ info ++ [BitVec.ofNat 8 i])
    t' ++ hkdfExpandFrom prk info n (i + 1) t'

def hkdfExpand (prk info : List Byte) (len : Nat) : List Byte := (hkdfExpandFrom prk info (ceilDiv len 64) 1 []).take len

/-! RSASSA-PSS (RFC 8017) with SHA-512, MGF1 with SHA-512 and a 64-byte salt, for a 4,096-bit modulus (R138). -/

def modPow : Nat → Nat → Nat → Nat → Nat
  | 0, _, _, n => 1 % n
  | k + 1, b, e, n =>
    let h := modPow k (b * b % n) (e / 2) n
    if e % 2 = 1 then b * h % n else h

def mgf1 (seed : List Nat) (n : Nat) : List Nat := ((List.range (ceilDiv n 64)).flatMap (fun i => sha512N (seed ++ toBE 4 i))).take n

/-- Verify a signature of 512 bytes over a digest. -/
def pssVerify (e n : Nat) (digest sig : List Nat) : Bool :=
  let s := ofBE sig
  if sig.length != 512 || n ≤ s || n / 2 ^ 4095 != 1 then false
  else
    let em := toBE 512 (modPow 32 s e n)
    let masked := em.take 447
    let h := (em.drop 447).take 64
    let db := xorBytes masked (mgf1 h 447)
    let db := (db.headD 0 % 128) :: db.drop 1
    em.getLastD 0 == 0xBC && masked.headD 0 < 128 && (db.take 382).all (· == 0) && db.getD 382 0 == 1 &&
      sha512N (List.replicate 8 0 ++ digest ++ db.drop 383) == h

end Sys2Proof.Machine
end

