-- ==== Sys2Proof/Machine/FabPkt.lean ====
section
/-! DEFINITION. Fabric packets (R220 to R229), routing (R233 to R238), and the requests this package sends (R226, R227). -/

namespace Sys2Proof.Machine

/-- The data that ECRC covers, padded to whole units. -/
def padUnits (bs : List Byte) : List Byte := bs ++ List.replicate (ceilDiv bs.length 16 * 16 - bs.length) 0

end Sys2Proof.Machine

namespace Sys2Proof

open Sys2Proof.Machine

/-! Header fields (Table 7.10). -/

def Packet.arg (k : Packet) : Nat := fb k.hdr 223 160
def Packet.addr (k : Packet) : Nat := fb k.hdr 159 119
def Packet.src (k : Packet) : Nat := fb k.hdr 118 96
def Packet.dst (k : Packet) : Nat := fb k.hdr 95 73
def Packet.tag (k : Packet) : Nat := fb k.hdr 72 57
def Packet.gen (k : Packet) : Nat := fb k.hdr 56 49
def Packet.ctx (k : Packet) : Nat := fb k.hdr 48 43
def Packet.dlen (k : Packet) : Nat := fb k.hdr 42 34
def Packet.opc (k : Packet) : Nat := fb k.hdr 33 28
def Packet.vc (k : Packet) : Nat := fb k.hdr 27 25
def Packet.dlc (k : Packet) (d : Nat) : Bool := k.hdr.getLsbD (22 + d)
def Packet.rmode (k : Packet) : Nat := fb k.hdr 21 20
def Packet.hops (k : Packet) : Nat := fb k.hdr 19 12
def Packet.det (k : Packet) : Nat := fb k.hdr 11 10
def Packet.status (k : Packet) : Nat := fb k.hdr 9 6
def Packet.spurx (k : Packet) : Bool := k.hdr.getLsbD 5
def Packet.last (k : Packet) : Bool := k.hdr.getLsbD 4
def Packet.hclass (k : Packet) : Nat := fb k.hdr 3 2

/-- A header with bits [hi:lo] replaced. -/
def Packet.withField (k : Packet) (hi lo x : Nat) : Packet := { k with hdr := BitVec.ofNat 256 (setFld k.hdr.toNat hi lo x) }

/-- Units of 16 bytes (R207, R221). -/
def Packet.units (k : Packet) : Nat := 2 + ceilDiv k.dlen 16

/-- ECRC (R221): over the packet with ECRC and the fields that routers rewrite set to 0 (log entry 28). -/
def Packet.ecrc (k : Packet) : Nat :=
  let k := (((k.withField 255 224 0).withField 27 25 0).withField 24 22 0).withField 21 10 0
  let k := k.withField 5 5 0
  crc32 (toLE 32 k.hdr.toNat ++ padUnits k.data)

def Packet.ecrcOk (k : Packet) : Bool := fb k.hdr 255 224 == k.ecrc && k.data.length == k.dlen

end Sys2Proof

namespace Sys2Proof.Machine

/-! Opcodes (Table 7.11). -/

def opRD : Nat := 1
def opRDRSP : Nat := 2
def opWR : Nat := 3
def opWRACK : Nat := 4
def opATOM : Nat := 5
def opATOMRSP : Nat := 6
def opBWR : Nat := 7
def opBWACK : Nat := 8
def opBGET : Nat := 9
def opBGETDONE : Nat := 10
def opCOLL : Nat := 11
def opTOKX : Nat := 12
def opWPROBE : Nat := 13
def opWPROBERSP : Nat := 14

/-- The response to a request, if it has one. -/
def respOf (op : Nat) : Option Nat :=
  if op = 1 || op = 3 || op = 5 || op = 7 || op = 9 || op = 13 then some (op + 1) else none

/-- A reserved OPC that is taken as a request: an odd one (log entry 29). -/
def reservedRequest (op : Nat) : Bool := 15 ≤ op && op % 2 == 1

def isResponse (op : Nat) : Bool := op == 2 || op == 4 || op == 6 || op == 8 || op == 10 || op == 14

/-- Priority (1 high) of an opcode; a response has its request's. -/
def opHigh (op : Nat) : Bool := op == 1 || op == 2 || op == 5 || op == 6 || op == 9 || op == 10 || op == 13 || op == 14

/-- The virtual channel (R229). -/
def vcOf (op : Nat) (dateline : Bool) : Nat :=
  (if opHigh op then 4 else 0) + (if isResponse op then 2 else 0) + (if dateline then 1 else 0)

/-- Low-priority bulk requests are adaptive (Table 7.11). -/
def opAdaptive (op : Nat) : Bool := op == 7 || op == 11 || op == 12

/-- This package's node ID, and whether it holds a valid one. -/
def Dev.node (d : Dev) : Nat := d.rf Reg.fabNode 22 0
def Dev.nodeValid (d : Dev) : Bool := d.rb Reg.fabNode 31

/-- A packet of this package. -/
def Dev.makePacket (d : Dev) (op dst ctx addr arg : Nat) (data : List Byte) : Packet :=
  { hdr := BitVec.ofNat 256 (arg % 2 ^ 64 * 2 ^ 160 + addr % 2 ^ 41 * 2 ^ 119 + d.node * 2 ^ 96 + dst % 2 ^ 23 * 2 ^ 73
      + d.genOf ctx * 2 ^ 49 + ctx % 64 * 2 ^ 43 + data.length % 512 * 2 ^ 34 + op % 64 * 2 ^ 28 + vcOf op false * 2 ^ 25
      + (if opAdaptive op && d.rb Reg.fabCtrl 31 then 2 ^ 20 else 0)),
    data := data }

/-- Hand a packet to the router (R239): to this node at once, else in order of acceptance. -/
def Dev.sendPacket (d : Dev) (k : Packet) : Dev :=
  let k := k.withField 255 224 k.ecrc
  if k.dst == d.node then { d with inbox := d.inbox ++ [k] } else { d with localOut := d.localOut ++ [k] }

/-- Answer a request (R222, R223): TAG, GEN and CTX as in the request. -/
def Dev.respond (d : Dev) (k : Packet) (op status addr arg : Nat) (data : List Byte) : Dev :=
  let p := d.makePacket op k.src k.ctx addr arg data
  let p := ((p.withField 72 57 k.tag).withField 56 49 k.gen).withField 9 6 status
  d.sendPacket p

/-- Answer a request with a failing status, where it is answered at all. -/
def Dev.answerFail (d : Dev) (k : Packet) (status addr : Nat) : Dev :=
  match respOf k.opc with
  | some op => d.respond k op status addr (if k.opc = opBWR then k.arg % 65536 else 0) []
  | none => if reservedRequest k.opc then d.respond k (k.opc + 1) status addr 0 [] else d

/-! Routing. -/

/-- Coordinates of a node, and the torus size: 0 X, 1 Y, 2 Z. -/
def coord (n i : Nat) : Nat := match i with | 0 => fld n 7 0 | 1 => fld n 15 8 | _ => fld n 22 16
def Dev.torusSize (d : Dev) (i : Nat) : Nat :=
  match i with | 0 => d.rf Reg.fabTorus 7 0 + 1 | 1 => d.rf Reg.fabTorus 15 8 + 1 | _ => d.rf Reg.fabTorus 22 16 + 1

def Dev.inTorus (d : Dev) (n : Nat) : Bool := (List.range 3).all (fun i => coord n i < d.torusSize i)

/-- The torus port of a dimension and direction (Table 7.1), and the opposite port. -/
def torusPort (dim : Nat) (plus : Bool) : Nat := if plus then dim else dim + 4
def oppositePort (p : Nat) : Nat := (p + 4) % 8

/-- Distance in a dimension, and its minimal sign (R234). -/
def Dev.delta (d : Dev) (dst i : Nat) : Nat :=
  let s := d.torusSize i
  (coord dst i + s - coord d.node i % s) % s
def Dev.minimalPlus (d : Dev) (dst i : Nat) : Bool := 2 * d.delta dst i ≤ d.torusSize i

/-- A hop in dimension `i` crosses the wrap link. -/
def Dev.wraps (d : Dev) (i : Nat) (plus : Bool) : Bool :=
  let x := coord d.node i
  if plus then x == d.torusSize i - 1 else x == 0

def Dev.portActive (d : Dev) (p : Nat) : Bool := (d.port p).state == .active

/-- Units queued on a port for a share, and free at its far end. -/
def queuedUnits (l : List Packet) : Nat := (l.map Packet.units).sum
def FabPort.roomFor (x : FabPort) (key units : Nat) : Bool := queuedUnits (mget [] x.queues key) + units ≤ mget 0 x.credits key

/-- Queue a packet on a port in a share. -/
def Dev.enqueue (d : Dev) (p : Nat) (adaptive : Bool) (k : Packet) : Dev :=
  let x := d.port p
  let key := 2 * k.vc + (if adaptive then 1 else 0)
  d.setPort p { x with queues := mset x.queues key (mget [] x.queues key ++ [k]) }

/-- A packet about to travel in dimension `i`: DLC and the dateline bit of its VC (R229, R234). A packet that enters an escape
share is in dimension order from then on (log entry 30). -/
def Dev.hopPacket (d : Dev) (i : Nat) (plus adaptive : Bool) (k : Packet) : Packet :=
  let k := if d.wraps i plus then k.withField (22 + i) (22 + i) 1 else k
  let k := k.withField 27 25 (vcOf k.opc (k.dlc i))
  if adaptive then k else k.withField 21 20 0

/-- Discard a packet (R236 to R238). -/
def Dev.discard (d : Dev) (k : Packet) (status : Nat) : Dev := (d.bump Reg.fabUnreach).answerFail k status 0

/-- NEIGH_PORTS as a peer sends it: OWN_PORTS of its neighbour on port `q` (Table 7.5). -/
def neighPorts (v : BitVec 48) (q : Nat) : Nat :=
  match [0, 1, 2, 4, 5, 6].findIdx? (· == q) with
  | some i => fb v (8 * i + 7) (8 * i)
  | none => 0

/-- The sidestep around a blocked output (R236): the side output, preferring one whose return link is ACTIVE. -/
def Dev.sidestep (d : Dev) (dim : Nat) (plus : Bool) : Option (Nat × Bool) :=
  let out := torusPort dim plus
  let cands := ((List.range 3).filter (· != dim)).flatMap (fun i => [(i, true), (i, false)])
  let open_ := cands.filter (fun c =>
    let p := torusPort c.1 c.2
    d.portActive p && (d.port p).peerPorts.getLsbD out)
  match open_.find? (fun c =>
    let p := torusPort c.1 c.2
    (neighPorts (d.port p).peerNeigh out).testBit (oppositePort p)) with
  | some c => some c
  | none => open_.head?

/-- Send a packet one hop in a dimension, or around the blocked output. -/
def Dev.hopOrDetour (d : Dev) (dim : Nat) (plus : Bool) (k : Packet) : Dev :=
  let p := torusPort dim plus
  if d.portActive p then d.enqueue p false (d.hopPacket dim plus false (k.withField 11 10 0))
  else match d.sidestep dim plus with
    | some (i, s) => (d.bump Reg.fabDetours).enqueue (torusPort i s) false (d.hopPacket i s false (k.withField 11 10 (dim + 1)))
    | none => d.discard k 5

/-- Productive outputs of an adaptive packet whose adaptive share holds it (R235): (dimension, direction). -/
def Dev.adaptiveOuts (d : Dev) (dst : Nat) (k : Packet) : List (Nat × Bool) :=
  let outs := (List.range 3).flatMap (fun i =>
    let x := d.delta dst i
    if x = 0 then [] else if 2 * x = d.torusSize i then [(i, true), (i, false)] else [(i, d.minimalPlus dst i)])
  outs.filter (fun c =>
    let p := torusPort c.1 c.2
    d.portActive p && (d.port p).roomFor (2 * (d.hopPacket c.1 c.2 true k).vc + 1) k.units)

/-- Free adaptive units of an output for a packet. -/
def Dev.adaptiveFree (d : Dev) (k : Packet) (c : Nat × Bool) : Nat :=
  let x := d.port (torusPort c.1 c.2)
  let key := 2 * (d.hopPacket c.1 c.2 true k).vc + 1
  mget 0 x.credits key - queuedUnits (mget [] x.queues key)

/-- The one with the most free units, the first among equals. -/
def mostFree (f : Nat × Bool → Nat) : List (Nat × Bool) → Option (Nat × Bool)
  | [] => none
  | c :: r => match mostFree f r with
    | none => some c
    | some e => if f e ≤ f c then some c else some e

/-- Route towards a torus node (R234 to R236). -/
def Dev.torusRoute (d : Dev) (inPort : Option Nat) (dst : Nat) (k : Packet) : Dev :=
  if k.det != 0 && d.delta dst (k.det - 1) != 0 then d.hopOrDetour (k.det - 1) (d.minimalPlus dst (k.det - 1)) k
  else
    let k := k.withField 11 10 0
    match (List.range 3).find? (fun i => d.delta dst i != 0) with
    | none => d.discard k 5
    | some i =>
      let outs := if k.rmode = 1 && d.rb Reg.fabCtrl 31 then d.adaptiveOuts dst k else []
      let same := outs.filter (fun c => match inPort with | some p => torusPort c.1 c.2 / 4 == p / 4 | none => false)
      match mostFree (d.adaptiveFree k) (if same.isEmpty then outs else same) with
      | some c => d.enqueue (torusPort c.1 c.2) true (d.hopPacket c.1 c.2 true k)
      | none => d.hopOrDetour i (d.minimalPlus dst i) k

/-- The spur entry a destination uses (R237): gateway and port. -/
def Dev.spurEntry (d : Dev) (dst : Nat) : Option (Nat × Nat) :=
  ((List.range 16).find? (fun n =>
    d.rb (Reg.fabSpurMatch n) 31 &&
    dst &&& d.rf (Reg.fabSpurMask n) 22 0 == d.rf (Reg.fabSpurMatch n) 22 0 &&& d.rf (Reg.fabSpurMask n) 22 0 &&
    (d.rf (Reg.fabSpurGw n) 22 0 != d.node || d.portActive (if d.rb (Reg.fabSpurGw n) 24 then 7 else 3)))).map
  (fun n => (d.rf (Reg.fabSpurGw n) 22 0, if d.rb (Reg.fabSpurGw n) 24 then 7 else 3))

def Dev.spurRoute (d : Dev) (inPort : Option Nat) (k : Packet) : Dev :=
  match d.spurEntry k.dst with
  | none => d.discard k 5
  | some (gw, p) =>
    if gw != d.node then (if d.inTorus gw then d.torusRoute inPort gw k else d.discard k 5)
    else if k.spurx then d.discard k 5
    else
      let k := (k.withField 5 5 1).withField 27 25 (vcOf k.opc false)
      if k.rmode = 1 && (d.port p).roomFor (2 * k.vc + 1) k.units then d.enqueue p true k else d.enqueue p false (k.withField 21 20 0)

/-- One router's work on a packet (R233). -/
def Dev.route (d : Dev) (inPort : Option Nat) (k : Packet) : Dev :=
  let k := k.withField 19 12 (min 255 (k.hops + 1))
  let k := if inPort == some 3 || inPort == some 7 then k.withField 24 22 0 else k
  if k.dst == d.node then
    if reservedRequest k.opc || (k.opc == opATOM && 8 ≤ k.arg % 16) then
      (if k.ecrcOk then d.answerFail k 4 0 else (d.bump Reg.fabEcrcErr).answerFail k 9 0)
    else if 15 ≤ k.opc || k.opc = 0 then d
    else { d with inbox := d.inbox ++ [k] }
  else
    let d := d.bumpIf inPort.isSome Reg.fabFwdPkts
    if k.hops = 255 then d.discard k 10
    else if d.inTorus k.dst then d.torusRoute inPort k.dst k
    else d.spurRoute inPort k

/-- Remove the first occurrence. -/
def removeOne {α : Type} [DecidableEq α] (x : α) : List α → List α
  | [] => []
  | a :: r => if a = x then r else a :: removeOne x r

/-- A packet leaves the buffer of the port it came in by: its units go back to the far end, in the share its RMODE names (R230,
log entry 30). -/
def Dev.leaveBuffer (d : Dev) (p : Nat) (k : Packet) : Dev :=
  let x := d.port p
  if x.rx.contains k then
    let key := 2 * k.vc + (if k.rmode = 1 then 1 else 0)
    d.setPort p { x with rx := removeOne k x.rx, owed := mupd 0 x.owed key (· + k.units) }
  else d

/-- Take a packet out of the packets delivered to this node. -/
def Dev.taken (d : Dev) (k : Packet) : Dev := { d with inbox := removeOne k d.inbox }

/-! Requests this package sends. -/

/-- A fabric TAG that no request holds, reserved ones included (R227). -/
def Dev.freeFabTag (d : Dev) : Nat :=
  (((List.range (d.tags.length + 1)).map (fun i => (d.nextTag + i) % 65536)).find?
    (fun t => !(d.tags.any (fun x => x.port == fabricPort && x.tag == t)))).getD 0

/-- Issue a request under a TAG. -/
def Dev.fabRequest (d : Dev) (k : Packet) (t : Tag) : Dev :=
  let n := d.freeFabTag
  let t := { t with tag := n, port := fabricPort, op := k.opc, ctx := k.ctx, gen := BitVec.ofNat 8 k.gen }
  let d := { d with tags := d.tags ++ [t], nextTag := (n + 1) % 65536 }
  d.sendPacket (k.withField 72 57 n)

/-- A request with what it serves. -/
def newTag (u : Purpose) (a b c addr : Nat) : Tag :=
  { tag := 0, port := fabricPort, ctx := 0, gen := 0, purpose := u, a := a, b := b, c := c, addr := BitVec.ofNat 64 addr }

/-- Node and offset of a global address (Table 7.9). -/
def gNode (g : Nat) : Nat := g / 2 ^ 41 % 2 ^ 23
def gOffset (g : Nat) : Nat := g % 2 ^ 41
def Dev.isLocal (d : Dev) (g : Nat) : Bool := gNode g == d.node

/-- Read `n` ≤ 256 bytes at a global address within one 256-byte block. -/
def Dev.fabRead (d : Dev) (c g n : Nat) (u : Purpose) (a b e : Nat) : Dev :=
  d.fabRequest (d.makePacket opRD (gNode g) c (gOffset g) n []) (newTag u a b e g)

/-- Write at most 256 bytes within one block (R224), at HBM class 2. -/
def Dev.fabWr (d : Dev) (c g : Nat) (bs : List Byte) (u : Purpose) (a b e : Nat) : Dev :=
  d.fabRequest ((d.makePacket opWR (gNode g) c (gOffset g) 0 bs).withField 3 2 2) (newTag u a b e g)

/-- Ask the owner of `g` to push `n` bytes to the global address `target` (R226). -/
def Dev.fabBget (d : Dev) (c g n target : Nat) (u : Purpose) (a b e : Nat) : Dev :=
  let data := toLE 4 n ++ toLE 2 (d.nextBulk % 65536)
  let d' := { d with nextBulk := (d.nextBulk + 1) % 65536 }
  d'.fabRequest (d'.makePacket opBGET (gNode g) c (gOffset g) target data) (newTag u a b e g)

/-- Pieces of a byte list: one up to the first boundary of `n`, then of `n`. -/
def splitAtBlocks (n : Nat) : Nat → Nat → List Byte → List (Nat × List Byte)
  | 0, _, _ => []
  | k + 1, a, bs =>
    if bs.isEmpty then []
    else
      let m := n - a % n
      (a, bs.take m) :: splitAtBlocks n k (a + m) (bs.drop m)

/-- One bulk group: at most 16 segments from a 256-byte boundary (R226). -/
def Dev.bulkGroup (d : Dev) (c g : Nat) (bs : List Byte) (u : Purpose) (a b e : Nat) : Dev :=
  let id := d.nextBulk % 65536
  let segs := splitAtBlocks 256 17 0 bs
  let n := d.freeFabTag
  let mk := fun (p : (Nat × List Byte) × Nat) =>
    let k := d.makePacket opBWR (gNode g) c (gOffset g + p.1.1) (id + p.2 * 2 ^ 16) p.1.2
    (k.withField 72 57 n).withField 4 4 (if p.2 + 1 = segs.length then 1 else 0)
  let pkts := segs.zipIdx.map mk
  let t := { newTag u a b e g with tag := n, op := opBWR, ctx := c, gen := BitVec.ofNat 8 (d.genOf c) }
  let g := ({ bulk := BitVec.ofNat 16 id, pkts := pkts, tag := t } : OutGroup)
  let d := { d with tags := d.tags ++ [t], nextTag := (n + 1) % 65536, nextBulk := (d.nextBulk + 1) % 65536,
                    outGroups := d.outGroups ++ [g] }
  d.each pkts (fun d k => d.sendPacket k)

/-- Write bytes at a global address: an unaligned head, or what fits one block, as WR; the rest as bulk groups. -/
def Dev.fabWrite (d : Dev) (c g : Nat) (bs : List Byte) (u : Purpose) (a b e : Nat) : Dev :=
  if bs.isEmpty then d
  else
    let head := if g % 256 = 0 then (if bs.length ≤ 256 then bs.length else 0) else min bs.length (256 - g % 256)
    let d := if head = 0 then d else d.fabWr c g (bs.take head) u a b e
    d.each (splitAtBlocks 4096 (bs.length / 4096 + 2) 0 (bs.drop head)) (fun d p => d.bulkGroup c (g + head + p.1) p.2 u a b e)

/-- Requests outstanding for a purpose and its first two numbers. -/
def Dev.outstanding (d : Dev) (u : Purpose) (a b : Nat) : Bool :=
  d.tags.any (fun t => t.purpose == u && t.a == a && t.b == b && !t.reserved)

/-- Retire a request: its TAG stays reserved until TAG_RESERVE_EXPIRY (R227, R347). -/
def Dev.retireTags (d : Dev) (f : Tag → Bool) : Dev :=
  { d with tags := d.tags.map (fun t => if f t then { t with reserved := true } else t),
           outGroups := d.outGroups.filter (fun g => !f g.tag) }

/-- The response to a request releases its TAG. -/
def Dev.releaseTag (d : Dev) (t : Tag) : Dev := { d with tags := d.tags.filter (fun x => !(x.port == t.port && x.tag == t.tag)) }

end Sys2Proof.Machine
end

