-- ==== Sys2Proof/Machine/LodeOps.lean ====
section
/-! DEFINITION. The Lodestone time base (R246 to R254): what a port hears, the choice and loss of a parent, exchanges; and how a
cairn slot ends (R257, R263, R265). -/

namespace Sys2Proof.Machine

/-! Time (R248). -/

/-- Units of 62.5 ps in the tick in progress. -/
def Dev.tickUnits (d : Dev) : Nat := d.lode.tick * 64

/-- The timestamp of an instant within the tick in progress; its phase is a free value (log entry 31). -/
def Dev.stamp (d : Dev) : Nat × Dev :=
  let (n, d') := d.takeFree
  ((d.now * d.tickUnits + Config.phase n % d.tickUnits) % 2 ^ 64, d')

def noSource : BitVec 23 := 0x7FFFFF

/-- LODE_VALID as sent (R252). -/
def Lode.valid (x : Lode) : Bool :=
  match x.state with
  | .source | .locked => true
  | .acquire => 8 ≤ x.exchanges && !x.rebased
  | _ => false

/-- The timing die is IB (R256). -/
def Lode.timingIB (x : Lode) : Bool := match x.upPort with | some p => 4 ≤ p | none => false

/-- A state without a parent. -/
def Lode.leave (x : Lode) (st : LodeState) : Lode :=
  { x with state := st, upPort := none, hops := 0, src := noSource, rebase := none, rebased := false, lockedTicks := 0,
           mismatches := 0, parentSilent := 0, exchanges := 0, good := 0, window := [] }

/-- Into HOLDOVER, with LODE_VALID 0 for 8 ticks before a new parent (R251; for a source that clears its claim, log entry 32). -/
def Dev.toHoldover (d : Dev) : Dev :=
  let former := match d.lode.upPort with | some p => p | none => 0xF
  let d := { d with lode := { d.lode.leave .holdover with invalid := 8 } }
  (d.bump Reg.lodeHoldovers).event [] 0x0603 1 former 0 0

def Lode.hasParent (x : Lode) : Bool := x.upPort.isSome && (x.state == .acquire || x.state == .locked)

/-- The parent is lost (R251). -/
def Dev.loseParent (d : Dev) : Dev := if d.lode.hasParent then d.toHoldover else d

/-- Into CONFLICT; D0 is Δ. -/
def Dev.toConflict (d : Dev) (delta : Int) : Dev :=
  ({ d with lode := d.lode.leave .conflict }).event [] 0x0602 3 (unsigned 64 delta) 0 0

/-! Choosing a parent (R250). -/

/-- A port a parent may be taken from. -/
def Dev.offersTime (d : Dev) (p : Nat) : Bool :=
  let x := d.port p
  x.state == .active && x.heardTick && x.heardValid && x.heardHops.toNat < 200

/-- Lower source, then fewer hops. -/
def FabPort.before (x y : FabPort) : Bool :=
  x.heardSrc.toNat < y.heardSrc.toNat || (x.heardSrc == y.heardSrc && x.heardHops.toNat < y.heardHops.toNat)

def Dev.bestParent (d : Dev) : Option Nat :=
  ((List.range 8).filter d.offersTime).foldl (fun (b : Option Nat) p =>
    match b with
    | none => some p
    | some q => if (d.port p).before (d.port q) then some p else some q) none

/-- Take port `p` as the parent and enter ACQUIRE (R254): slew, re-base at the next tick edge, or CONFLICT. The parent's time is
the count it marked, half a round trip ago (log entry 33). -/
def Dev.acquire (d : Dev) (p : Nat) : Dev :=
  let x := d.port p
  let u := d.tickUnits
  let (own, d) := d.stamp
  let delta : Int := (x.heardCount.toNat * u + x.rtt.toNat / 2 : Nat) - (own : Int)
  let back := d.lode.rebaseAny
  let d := d.bump Reg.lodeParentChanges
  let l := { d.lode.leave .acquire with upPort := some p, hops := x.heardHops.toNat + 1, src := x.heardSrc, rebaseAny := false }
  if 2 * delta.natAbs ≤ u then { d with lode := l }
  else if 0 < delta || back then
    let t := (((d.now + 1) * u : Nat) + delta).toNat
    { d with lode := { l with rebase := some (BitVec.ofNat 64 (t / u), BitVec.ofNat 18 (t % u)) } }
  else ({ d with lode := l }).toConflict delta

/-- A package without a parent that may take one looks for it. -/
def Dev.seekParent (d : Dev) : Dev :=
  if d.lode.state == .freeRun || (d.lode.state == .holdover && d.lode.invalid == 0) then
    match d.bestParent with
    | some p => d.acquire p
    | none => d
  else d

/-! What an IDLE block says (Table 7.5). -/

/-- A tick-marking block on the parent port: the two ends' ticks differ (R247), or counts disagree twice in a row (R251). The
parent's edge of count n falls within half a tick of the own edge of n (log entry 34). -/
def Dev.parentMark (d : Dev) (heard : Nat) : Dev :=
  let (n, d) := d.takeFree
  let d := { d with lode := { d.lode with parentSilent := 0 } }
  if Config.tickDiffers n then { d with lode := d.lode.leave .conflict }
  else if d.lode.rebase.isSome || heard == d.now || heard == d.now + 1 then { d with lode := { d.lode with mismatches := 0 } }
  else if 1 ≤ d.lode.mismatches then d.loseParent
  else { d with lode := { d.lode with mismatches := 1 } }

/-- The Lodestone fields heard on ACTIVE port `p` (R249 to R251). -/
def Dev.hearLode (d : Dev) (p src hops count : Nat) (valid : Bool) : Dev :=
  let x := d.port p
  let mark := !x.heardTick || x.heardCount.toNat != count
  let d := d.setPort p { x with heardSrc := BitVec.ofNat 23 src, heardHops := BitVec.ofNat 8 hops, heardValid := valid,
                                heardCount := BitVec.ofNat 64 count, heardTick := true }
  let d := if mark && valid then { d with lode := { d.lode with silent := 0 } } else d
  if d.lode.hasParent && d.lode.upPort == some p then
    if !valid then d.loseParent
    else
      let d := if mark then d.parentMark count else d
      if d.lode.hasParent then { d with lode := { d.lode with src := BitVec.ofNat 23 src, hops := hops + 1 } } else d
  else if !(mark && valid) || 200 ≤ hops then d
  else match d.lode.state with
    | .source => if src < d.node then d.acquire p else d
    | .acquire | .locked => if src < d.lode.src.toNat then (match d.bestParent with | some q => d.acquire q | none => d) else d
    | _ => d.seekParent

/-! Exchanges (R253). -/

/-- An exchange on the parent port has ended: its round trip and twice its uncorrected offset. -/
def Dev.phaseCorrect (d : Dev) (p : Nat) (trip twice : Int) : Dev :=
  let theta := twice / 2 + (if twice % 2 = 1 && Config.lodeRoundUp twice then 1 else 0) - Config.lodeAsymmetry p
  let l := d.lode
  let w := ((trip, theta) :: l.window).take 8
  let best := w.foldl (fun (b : Int × Int) x => if x.1 < b.1 then x else b) (trip, theta)
  let good := if best.2.natAbs ≤ 32 then l.good + 1 else 0
  let l := { l with window := w, theta := best.2, exchanges := l.exchanges + 1, good := good }
  let l := if l.state == .acquire && 64 ≤ good then { l with state := .locked, lockedTicks := 0 } else l
  { d with lode := l }

/-! Cairn slots. -/

/-- SEV of a slot's record (Table 12.1). -/
def cairnSev (r : Nat) : Nat := if r = 1 || r = 9 then 0 else if r = 10 then 2 else 1

/-- Results that always write a record (R265). -/
def alwaysRecords (r : Nat) : Bool := r == 2 || r == 3 || r == 4 || r == 7 || r == 10 || r == 11

def Dev.cairnRecord (d : Dev) (c s r : Nat) : Dev :=
  let x := d.cairn c s
  d.event [c] (0x610 + r) (cairnSev r) x.lt.toNat (s + x.action.toNat * 256) 0

/-- A slot goes to a state with a result, counted when PAST or OVERRUN and recorded under R265; `evt` where its EVT bit asks. -/
def Dev.cairnSet (d : Dev) (c s : Nat) (st : CairnState) (r : Nat) (evt : Bool) : Dev :=
  let x := d.cairn c s
  let d := d.setCairn c s { x with state := st, result := BitVec.ofNat 4 r, late := false }
  let d := d.bumpIf (r == 3 || r == 4) Reg.lodeCairnDropped
  if alwaysRecords r || (evt && x.evt) then d.cairnRecord c s r else d

/-- Cancel an ARMED slot: a pending switch or a filed strata action goes with it (R154, R162). -/
def Dev.cairnCancel (d : Dev) (c s r : Nat) : Dev :=
  let x := d.cairn c s
  if x.state != .armed then d
  else
    let d := d.cairnSet c s .cancelled r false
    let act := x.action.toNat
    let d := if act == 1 then
        (match (d.ctx c).switch with
         | some w => if w.taken.isNone then d.setCtx c { d.ctx c with switch := none } else d
         | none => d)
      else d
    if act == 0x10 || act == 0x11 || act == 0x12 then { d with strata := { d.strata with armed := 0 } } else d

/-- Slots of context `c` that are listed. -/
def Dev.cairnsOf (d : Dev) (c : Nat) : List Nat := (d.cairns.filter (fun p => p.1 / 64 == c)).map (fun p => p.1 % 64)

/-- Context reset or teardown (R263): ARMED slots are cancelled, a pending barrier's check is not made. -/
def Dev.cairnsReset (d : Dev) (c : Nat) : Dev :=
  d.each (d.cairnsOf c) (fun d s =>
    let x := d.cairn c s
    if x.barrierAt.isSome then
      d.setCairn c s { x with barrierAt := none, barrierTags := [], result := 6 }
    else d.cairnCancel c s 6)

/-- Cancel the ARMED slots of every context with RESULT RESET. -/
def Dev.cairnsResetAll (d : Dev) : Dev :=
  d.each d.cairns (fun d p => if p.2.state == .armed then d.cairnCancel (p.1 / 64) (p.1 % 64) 6 else d)

end Sys2Proof.Machine
end

