-- ==== Sys2Proof/Machine/PortOps.lean ====
section
/-! DEFINITION. Linepol ports (R205 to R217, R230, R231, R242, R243): codewords, flits, a port that goes DOWN, lanes. -/

namespace Sys2Proof.Machine

/-! Counters and events of a port. -/

def portDie (p : Nat) : Nat := if p < 4 then 4 else 5

/-- A per-port counter of Table 7.18. -/
def Dev.bumpPort (d : Dev) (p : Nat) (k : Nat → Nat → Nat) : Dev := d.bump (k (portDie p) (p % 4))

/-- Codeword lock stands, so that blocks are taken. -/
def PortState.locked (s : PortState) : Bool :=
  s == .param || s == .rtt || s == .active || s == .repair || s == .miswired

/-- Flits move. -/
def PortState.carries (s : PortState) : Bool := s == .active || s == .repair

/-- The port may leave DOWN (Table 7.7, R203): its die is in service, IB is not fenced, its dimension is not of size 1, start-up
has reached its links (Table 16.8). -/
def Dev.portMayTrain (d : Dev) (p : Nat) : Bool :=
  4 ≤ d.pwr.phase && (d.role == .ready || d.role == .degraded) && !d.lost (portDie p) && (p % 4 == 3 || 1 < d.torusSize (p % 4))

/-- OWN_PORTS (Table 7.5). -/
def Dev.ownPorts (d : Dev) : Nat := ((List.range 8).filter d.portActive).foldl (fun a p => a + 2 ^ p) 0

/-- Physical lanes of a set, lowest first. -/
def lanesOf (v : BitVec 18) : List Nat := (List.range 18).filter v.getLsbD
def laneSet (l : List Nat) : BitVec 18 := BitVec.ofNat 18 (l.foldl (fun a i => a ||| 2 ^ i) 0)
def laneTotal (v : BitVec 18) : Nat := (lanesOf v).length

/-- Width code of FAB_PORT_STATUS: 0 none, 1 x8, 2 x16. -/
def widthCode (v : BitVec 18) : Nat := if 16 ≤ laneTotal v then 2 else if 8 ≤ laneTotal v then 1 else 0

/-! Sending blocks (Table 7.3). -/

/-- The data bits of a codeword: header and 640-byte body. -/
def blockBits (bt sub cw body : Nat) : BitVec 5140 := BitVec.ofNat 5140 (cw + sub * 2 ^ 14 + bt * 2 ^ 18 + body * 2 ^ 20)

/-- Send one block as the next codeword of port `p`. -/
def Dev.sendBlock (d : Dev) (p bt sub body : Nat) : Dev :=
  let x := d.port p
  let d := d.setPort p { x with cwSeq := x.cwSeq + 1,
                                sinceIdle := if bt = 1 then 0 else x.sinceIdle + 1,
                                sinceLink := if bt = 2 then 0 else x.sinceLink + 1 }
  d.emit (.codeword p (blockBits bt sub x.cwSeq.toNat body))

/-- Queue a LINK message. -/
def Dev.sendLink (d : Dev) (p sub : Nat) (bytes : List Byte) : Dev :=
  d.setPort p { d.port p with linkQueue := (d.port p).linkQueue ++ [(BitVec.ofNat 4 sub, bytes)] }

/-- Free units of the eight VCs: what the shares hold less what their packets occupy (R230). -/
def Dev.freeUnits (d : Dev) (p : Nat) : List Byte :=
  ((List.range 8).map (fun v =>
    let used := fun (adp : Bool) => queuedUnits ((d.port p).rx.filter (fun k => k.vc == v && (k.rmode == 1) == adp))
    toLE 2 (d.rf (Reg.fabVcCredit v) 15 0 - used false) ++ toLE 2 (d.rf (Reg.fabVcCredit v) 31 16 - used true))).flatten

/-- A key is installed in a slot. -/
def FabPort.key (x : FabPort) (slot : Bool) : Option LinkKey := if slot then x.keys1 else x.keys0
def FabPort.hasKey (x : FabPort) : Bool := x.keys0.isSome || x.keys1.isSome

/-- TS_PARAM (Table 7.6). -/
def Dev.paramBytes (d : Dev) (p : Nat) : List Byte :=
  let x := d.port p
  toLE 4 d.node ++ [BitVec.ofNat 8 p] ++ toLE 1 (d.rf Reg.fabTorus 7 0) ++ toLE 1 (d.rf Reg.fabTorus 15 8)
    ++ toLE 1 (d.rf Reg.fabTorus 22 16) ++ toLE 4 d.negCaps.toNat
    ++ toLE 4 ((if d.rb (Reg.fabPortCtrl p) 2 then 1 else 0) + (if x.hasKey then 2 else 0))
    ++ ((List.range 8).map (fun v => toLE 4 (d.reg (Reg.fabVcCredit v)).toNat)).flatten ++ toLE 4 x.txService.toNat

/-- The body of an IDLE block (Table 7.5). -/
def Dev.idleBody (d : Dev) : Nat :=
  let neigh := (([0, 1, 2, 4, 5, 6].map (fun q => (d.port q).peerPorts.toNat)).zipIdx).foldl (fun a x => a + x.1 * 2 ^ (8 * x.2)) 0
  d.node * 2 ^ 160 + neigh * 2 ^ 104 + d.ownPorts * 2 ^ 96 + d.lode.hops % 256 * 2 ^ 88
    + (if d.lode.valid then 2 ^ 87 else 0) + d.lode.src.toNat * 2 ^ 64 + d.now

/-! A port leaves service (R217). -/

/-- Fabric retrains, and the term L of the risk score, count entries to DETECT after the first (R211, Table 12.5). -/
def Dev.enterDetect (d : Dev) (p : Nat) : Dev :=
  let x := d.port p
  let d := d.setPort p { x with state := .detect, detects := x.detects + 1 }
  if 1 ≤ x.detects then (d.bumpPort p Reg.fabRetrains).noteLink else d

/-- What a port keeps when it stops: complete packets not yet routed, its counts of attempts, its lanes as last trained. -/
def FabPort.stoppedAs (x : FabPort) (st : PortState) (failures : Nat) : FabPort :=
  let keep := !(x.state == .active || x.state == .repair)
  { state := st, failures := failures, detects := x.detects, rxService := x.rxService, txService := x.txService, rx := x.rx,
    keys0 := if keep then x.keys0 else none, keys1 := if keep then x.keys1 else none }

/-- Packets queued for a port that no flit has taken, in queue order. -/
def FabPort.queued (x : FabPort) : List Packet := (x.queues.map (·.2)).flatten

/-- A port stops, for DOWN, DISABLED, FAILED or MISWIRED: its unacknowledged flits are lost, its queued packets are routed
again, the Lodestone parent on it is lost. -/
def Dev.stopPort (d : Dev) (p : Nat) (st : PortState) (failures : Nat) : Dev :=
  let x := d.port p
  let d := d.setPort p (x.stoppedAs st failures)
  let d := d.each x.queued (fun d k => d.route none k)
  let d := if d.lode.hasParent && d.lode.upPort == some p then d.loseParent else d
  d.noteDegraded

/-- Reasons (Table 7.6). -/
def rReplay : Nat := 1
def rCommand : Nat := 2
def rKeyExpired : Nat := 3
def rAuth : Nat := 4
def rDisabled : Nat := 5

/-- The port goes DOWN (R217), with the reason of the event (0: none of Table 7.6; log entry 36). -/
def Dev.portDown (d : Dev) (p reason : Nat) (failed : Bool) : Dev :=
  let x := d.port p
  let f := if failed then x.failures + 1 else 0
  if x.state.carries then (d.stopPort p .down f).event [] 0x0515 2 p reason 0 else d.stopPort p .down f

/-- The package retrains the port: RETRAIN goes to the far end as its last block (R208, R242). -/
def Dev.retrain (d : Dev) (p reason : Nat) : Dev :=
  if (d.port p).state.locked then (d.sendBlock p 2 5 reason).portDown p reason false
  else d.portDown p reason false

/-! Receiving flits. -/

def flitCrcOk (f : Nat) : Bool := crc32 (toLE 316 (f % 2 ^ 2528)) == fld f 2559 2528
def flitUnits (f : Nat) : List (BitVec 128) := (List.range 19).map (fun u => BitVec.ofNat 128 (f >>> (96 + 128 * u)))

/-- FACK: flits up to it leave the replay buffer, modulo 65,536. -/
def FabPort.acknowledge (x : FabPort) (ack : Nat) : FabPort :=
  let gone := (x.unacked.takeWhile (fun f => (ack + 65536 - fb f 95 80) % 65536 < 32768)).length
  { x with unacked := x.unacked.drop gone, toReplay := min x.toReplay (x.unacked.length - gone) }

/-- A credit return. -/
def FabPort.credit (x : FabPort) (vc adp units : Nat) : FabPort :=
  if units = 0 then x else { x with credits := mupd 0 x.credits (2 * vc + adp) (· + units) }

/-- The header of an accepted flit: acknowledgement, credits, NAK (R208). Eight NAKs for one FSEQ retrain the port. -/
def Dev.flitHeader (d : Dev) (p f : Nat) : Dev :=
  let x := (d.port p).acknowledge (fld f 79 64)
  let x := (x.credit (fld f 60 58) (fld f 57 57) (fld f 56 46)).credit (fld f 45 43) (fld f 42 42) (fld f 41 31)
  if f.testBit 62 then
    let seq := BitVec.ofNat 16 (fld f 79 64 + 1)
    let n := if x.nakSeq == seq then x.nakCount + 1 else 1
    let d := (d.setPort p { x with nakSeq := seq, nakCount := n, toReplay := x.unacked.length }).bumpPort p Reg.fabReplays
    if 8 ≤ n then d.retrain p rReplay else d
  else d.setPort p x

/-- IV of a flit (R242). -/
def flitIv (salt : BitVec 32) (ctr : Nat) : List Nat := natBytes (toLE 4 salt.toNat) ++ toBE 8 ctr

/-- The units a sequenced flit carries, decrypted where encryption is on; none when its tag fails (R242). -/
def FabPort.openFlit (x : FabPort) (f : Nat) : Option (List (BitVec 128)) :=
  if !x.encOn then some (flitUnits f)
  else
    let phase := f.testBit 61
    match x.key phase with
    | none => none
    | some k =>
      let ctr := if phase then x.rxCtr1 else x.rxCtr0
      let bytes := natBytes (toLE 304 (f / 2 ^ 96 % 2 ^ 2432))
      match gcmOpen (natBytes (toLE 32 k.keyRx.toNat)) (flitIv k.saltRx ctr) (natBytes (toLE 12 (f % 2 ^ 96)))
          (bytes.take 288) (bytes.drop 288) with
      | none => none
      | some pt =>
        let v := leOf (ofNatBytes pt)
        some ((List.range 18).map (fun u => BitVec.ofNat 128 (v >>> (128 * u))))

/-- Complete packets at the front of the received units; what is left begins a packet. `room` bounds the packets. -/
def takePackets : Nat → List (BitVec 128) → List Packet × List (BitVec 128)
  | 0, l => ([], l)
  | n + 1, l =>
    match l with
    | a :: b :: r =>
      let hdr := BitVec.ofNat 256 (a.toNat + b.toNat * 2 ^ 128)
      let len := fb hdr 42 34
      let u := ceilDiv len 16
      if r.length < u then ([], l)
      else
        let bytes := ((r.take u).map (fun (x : BitVec 128) => toLE 16 x.toNat)).flatten
        let (ps, rest) := takePackets n (r.drop u)
        ({ hdr := hdr, data := bytes.take len } :: ps, rest)
    | _ => ([], l)

/-- Units of one flit joined to those held: packets lie back to back, and a PAD where a packet would begin empties the rest of
the flit (R207). -/
def joinUnits : Nat → List (BitVec 128) → List (BitVec 128) → List Packet × List (BitVec 128)
  | 0, held, _ => ([], held)
  | n + 1, held, units =>
    match takePackets 1 (held ++ units) with
    | (ps, rest) =>
      match ps with
      | [] =>
        if held.isEmpty then
          (match units with
           | a :: _ => if fb a 33 28 = 0 then ([], []) else ([], units)
           | [] => ([], []))
        else ([], held ++ units)
      | k :: _ =>
        if held.isEmpty && k.opc = 0 then ([], [])
        else
          let (more, left) := joinUnits n [] rest
          (k :: more, left)

/-- One millisecond in ticks, for R242's window. -/
def Dev.msTicks (d : Dev) : Nat := 1000000 / (4 * d.lode.tick)

/-- A flit whose tag failed (R242): handled as a CRC error; 8 within 1 ms retrain the port. -/
def Dev.authFail (d : Dev) (p : Nat) : Dev :=
  let x := d.port p
  let times := d.lode.count :: x.authFails.filter (fun t => d.now - t.toNat ≤ d.msTicks)
  let d := (d.setPort p { x with authFails := times }).bumpPort p Reg.fabAuthFail
  if 8 ≤ times.length then (d.event [] 0x0516 3 p 0 0).retrain p rAuth else d

/-- A sequenced flit is discarded, and NAK is owed once in this episode. -/
def Dev.discardFlit (d : Dev) (p : Nat) : Dev :=
  let x := d.port p
  if x.nakSent then d else d.setPort p { x with nakDue := true }

/-- One received flit (R206, R208). -/
def Dev.takeFlit (d : Dev) (p f : Nat) : Dev :=
  let x := d.port p
  if !x.state.carries then d
  else if f.testBit 63 then (if flitCrcOk f then d.flitHeader p f else d)
  else if !flitCrcOk f || fld f 95 80 != (x.rxSeq + 1).toNat then d.discardFlit p
  else match x.openFlit f with
    | none => (d.discardFlit p).authFail p
    | some units =>
      let phase := f.testBit 61
      let (ps, rest) := joinUnits 40 x.rxUnits units
      let x := { x with rxSeq := x.rxSeq + 1, nakDue := false, nakSent := false, ackDue := true, rxUnits := rest,
                        rx := x.rx ++ ps, rxPhase := phase,
                        rxCtr0 := if x.encOn && !phase then x.rxCtr0 + 1 else x.rxCtr0,
                        rxCtr1 := if x.encOn && phase then x.rxCtr1 + 1 else x.rxCtr1 }
      ((d.setPort p x).bumpPort p Reg.fabRxFlits).flitHeader p f

/-! Building flits. -/

/-- Queues that could start a packet now: their head fits the far end's free units. -/
def FabPort.ready (x : FabPort) (high : Bool) : List Nat :=
  (List.range 16).filter (fun key => (8 ≤ key) == high &&
    (match mget [] x.queues key with
     | k :: _ => k.units ≤ mget 0 x.credits key
     | [] => false))

/-- The next queue after `last` in round robin. -/
def nextOf (last : Nat) (l : List Nat) : Option Nat :=
  match l.find? (fun k => last < k) with
  | some k => some k
  | none => l.head?

/-- The queue to serve next (R231): high before low, unless a flit is owed to low priority. -/
def FabPort.pick (x : FabPort) (lowShare : Nat) : Option Nat :=
  let hi := nextOf x.lastHigh (x.ready true)
  let lo := nextOf x.lastLow (x.ready false)
  if lowShare ≤ x.lowGap + 1 then (match lo with | some k => some k | none => hi)
  else match hi with | some k => some k | none => lo

/-- Header and data of a packet as units. -/
def packetUnits (k : Packet) : List (BitVec 128) :=
  [BitVec.ofNat 128 k.hdr.toNat, BitVec.ofNat 128 (k.hdr.toNat >>> 128)]
    ++ (List.range (ceilDiv k.data.length 16)).map (fun u => BitVec.ofNat 128 (leOf ((k.data.drop (16 * u)).take 16)))

/-- Start the packet at the head of queue `key`. -/
def FabPort.startPacket (x : FabPort) (key : Nat) : FabPort :=
  match mget [] x.queues key with
  | [] => x
  | k :: r =>
    { x with queues := mset x.queues key r, credits := mupd 0 x.credits key (· - k.units), txUnits := packetUnits k,
             txLow := key < 8, lastLow := if key < 8 then key else x.lastLow, lastHigh := if 8 ≤ key then key else x.lastHigh }

/-- Fill up to `n` units of a flit; whether low priority had a part. -/
def fillUnits (lowShare : Nat) : Nat → FabPort → Bool → List (BitVec 128) × FabPort × Bool
  | 0, x, low => ([], x, low)
  | n + 1, x, low =>
    let x := if x.txUnits.isEmpty then (match x.pick lowShare with | some key => x.startPacket key | none => x) else x
    match x.txUnits with
    | [] => ([], x, low)
    | u :: r =>
      let lowNow := low || x.txLow
      let (us, y, l) := fillUnits lowShare n { x with txUnits := r, lowGap := if x.txLow then 0 else x.lowGap } lowNow
      (u :: us, y, l)

/-- Up to two credit returns of at most 2,047 units, as header bits. -/
def FabPort.takeCredits (x : FabPort) : Nat × FabPort :=
  let due := (x.owed.filter (fun c => c.2 != 0)).take 2
  let bits := (due.zipIdx).foldl (fun a c =>
    let v := c.1.1 / 2 * 2 ^ 12 + c.1.1 % 2 * 2 ^ 11 + min 2047 c.1.2
    a + v * 2 ^ (if c.2 = 0 then 46 else 31)) 0
  (bits, { x with owed := due.foldl (fun o c => mset o c.1 (c.2 - min 2047 c.2)) x.owed })

/-- Header bits [95:0] common to every flit: FACK, NAK, credits; NAK is sent once per episode. -/
def FabPort.takeHeader (x : FabPort) : Nat × FabPort :=
  let (cr, x) := x.takeCredits
  let nak := x.nakDue && !x.nakSent
  (x.rxSeq.toNat * 2 ^ 64 + (if nak then 2 ^ 62 else 0) + cr,
    { x with ackDue := false, nakDue := false, nakSent := x.nakSent || nak })

def withCrc (f : Nat) : Nat := f + crc32 (toLE 316 f) * 2 ^ 2528

/-- A NULL flit. -/
def FabPort.nullFlit (x : FabPort) : Nat × FabPort :=
  let (h, x) := x.takeHeader
  (withCrc (h + 2 ^ 63), x)

/-- At its first sequenced flit after KEY_READY the transmitter changes slot, and FLIT_CTR restarts (R243). -/
def FabPort.changeKey (x : FabPort) : FabPort :=
  match x.keyReady with
  | some slot =>
    if !x.encOn || (x.key slot).isNone then x
    else if slot == x.txPhase then { x with keyReady := none }
    else { x with txPhase := slot, txCtr := 0, keyReady := none }
  | none => x

/-- FLIT_CTR has room for another flit. -/
def FabPort.ctrRoom (x : FabPort) : Bool := !x.encOn || x.txCtr < 2 ^ 48 - 1

/-- A new sequenced flit of the units `us`. -/
def FabPort.seqFlit (x : FabPort) (us : List (BitVec 128)) : Nat × FabPort :=
  let (h, x) := x.takeHeader
  let h := h + x.txSeq.toNat * 2 ^ 80 + (if x.encOn && x.txPhase then 2 ^ 61 else 0)
  let body := (us.zipIdx).foldl (fun a u => a + u.1.toNat * 2 ^ (128 * u.2)) 0
  let body := match (if x.encOn then x.key x.txPhase else none) with
    | some k =>
      let (ct, tag) := gcmSeal (natBytes (toLE 32 k.keyTx.toNat)) (flitIv k.saltTx x.txCtr) (natBytes (toLE 12 h))
        (natBytes (toLE 288 body))
      leOf (ofNatBytes (ct ++ tag))
    | none => body
  let f := withCrc (h + body * 2 ^ 96)
  (f, { x with txSeq := x.txSeq + 1, unacked := x.unacked ++ [BitVec.ofNat 2560 f], txCtr := if x.encOn then x.txCtr + 1 else 0 })

/-- A sequenced flit can be sent: a replay, or packet bytes with room in the replay buffer. -/
def FabPort.hasSequenced (x : FabPort) : Bool :=
  0 < x.toReplay ||
  (x.unacked.length < 512 && x.ctrRoom && (!x.txUnits.isEmpty || !(x.ready true).isEmpty || !(x.ready false).isEmpty))

/-- The next flit of a DATA block, and whether it is sequenced. -/
def FabPort.nextFlit (x : FabPort) (lowShare : Nat) : Nat × FabPort × Bool :=
  if 0 < x.toReplay then
    (((x.unacked.drop (x.unacked.length - x.toReplay)).headD 0).toNat, { x with toReplay := x.toReplay - 1 }, true)
  else if x.hasSequenced then
    let x := x.changeKey
    let waiting := !(x.ready false).isEmpty || (x.txLow && !x.txUnits.isEmpty)
    let (us, x, low) := fillUnits lowShare (if x.encOn then 18 else 19) x false
    let x := { x with lowGap := if low || !waiting then 0 else x.lowGap + 1 }
    let (f, x) := x.seqFlit us
    (f, x, true)
  else
    let (f, x) := x.nullFlit
    (f, x, false)

/-! Lanes (R214 to R216). -/

/-- The receiver sends a lane message; it is repeated in each LINK slot until AT_CW. -/
def laneMessage (c : LaneChange) : Nat × List Byte :=
  if c.narrow then (3, toLE 4 c.lanes.toNat ++ toLE 2 c.atCw.toNat)
  else (2, toLE 1 c.logical ++ toLE 1 c.newPhys ++ toLE 2 c.atCw.toNat)

/-- A receive lane goes out of service (R216). -/
def Dev.laneOut (d : Dev) (p lane : Nat) : Dev :=
  let x := d.port p
  if !x.rxService.getLsbD lane || !x.state.carries then d
  else
    let service := laneSet ((lanesOf x.rxService).filter (· != lane))
    let spares := (lanesOf service).filter (fun i => !x.rxUse.getLsbD i)
    let at_ := x.rxCw + BitVec.ofNat 14 (max 256 (Config.laneLead % 8192))
    let x := { x with rxService := service }
    if !x.rxUse.getLsbD lane then (d.setPort p x).noteDegraded
    else match spares with
      | s :: _ =>
        let logical := ((lanesOf x.rxUse).findIdx? (· == lane)).getD 0
        let lanes := laneSet (s :: (lanesOf x.rxUse).filter (· != lane))
        d.setPort p { x with changes := x.changes ++ [{ atCw := at_, lanes := lanes, narrow := false, logical := logical,
                                                        newPhys := s, rx := true }] }
      | [] =>
        if 8 ≤ laneTotal service then
          d.setPort p { x with changes := x.changes ++ [{ atCw := at_, lanes := laneSet ((lanesOf service).take 8), narrow := true,
                                                          logical := 0, newPhys := 0, rx := true }] }
        else (d.setPort p x).portDown p 0 true

/-- An event on a receive lane's bucket; a lasting fault takes the lane out of service. -/
def Dev.chargeLane (d : Dev) (p lane : Nat) (unc : Bool) : Dev :=
  let (d, lasting) := d.charge 5 (fabLaneUnit p lane) unc [] 0
  if lasting then d.laneOut p lane else d

/-- Corrected symbols on receive lanes; each 4,096 of a lane charge its bucket. -/
def Dev.symbols (d : Dev) (p : Nat) (lanes : List Nat) : Dev :=
  d.each lanes (fun d l =>
    let d := d.bump (Reg.fabLaneSym (portDie p) (p % 4) l)
    if (d.count (Reg.fabLaneSym (portDie p) (p % 4) l)).toNat % 4096 = 0 then d.chargeLane p l false else d)

/-- A codeword is discarded (R205): counted, and charged to the port's bucket, whose lasting action is a retrain. -/
def Dev.codewordLost (d : Dev) (p : Nat) : Dev :=
  let d := d.bumpPort p Reg.fabFecUncorr
  let (d, lasting) := d.charge 6 p false [] 0
  if lasting then d.retrain p rCommand else d

end Sys2Proof.Machine
end

