-- ==== Sys2Proof/Machine/Ports.lean ====
section
/-! DEFINITION. The commands of Linepol ports (R205 to R219, R233, R242, R243, R245). -/

namespace Sys2Proof.Machine

/-! Blocks. -/

/-- An IDLE block (R209): the neighbour's ports, and the Lodestone fields on an ACTIVE port. -/
def Dev.takeIdle (d : Dev) (p body : Nat) : Dev :=
  let x := d.port p
  if !x.state.carries then d
  else
    let d := d.setPort p { x with peerPorts := BitVec.ofNat 8 (fld body 103 96), peerNeigh := BitVec.ofNat 48 (fld body 151 104) }
    if x.state == .active then d.hearLode p (fld body 86 64) (fld body 95 88) (fld body 63 0) (body.testBit 87) else d

/-- CODEWORD_RECEIVE (R205 to R210). The message of a LINK block is the command of its own name (log entry 37). -/
def xCodewordReceive (p : Nat) (o : FecOutcome) : Effect := fun _ d =>
  if !(d.port p).state.locked then d
  else match o with
    | .uncorrectable => d.codewordLost p
    | .data bits corrected =>
      let h := fb bits 19 0
      let body := fb bits 5139 20
      if fld h 19 18 = 3 then d.codewordLost p
      else
        let d := d.setPort p { d.port p with rxCw := BitVec.ofNat 14 (fld h 13 0) }
        let d := if corrected.isEmpty then d else (d.bumpPort p Reg.fabFecCorr).symbols p (corrected.map (·.val))
        if fld h 19 18 = 0 then (d.takeFlit p (body % 2 ^ 2560)).takeFlit p (body / 2 ^ 2560)
        else if fld h 19 18 = 1 then d.takeIdle p body
        else d

/-- Send the message at the head of the LINK queue; a TS_RTT is stamped as it leaves (R213). -/
def Dev.sendQueuedLink (d : Dev) (p : Nat) : Dev :=
  let x := d.port p
  match x.linkQueue with
  | [] =>
    (match x.changes.find? (fun c => c.rx) with
     | some c => let m := laneMessage c
                 d.sendBlock p 2 m.1 (leOf m.2)
     | none => d)
  | (sub, bytes) :: r =>
    if sub = 1 then
      let (t, d) := d.stamp
      let x := d.port p
      let first := leOf (bytes.take 8) = 0
      let d := d.setPort p { x with linkQueue := r, rttSent := if first then some (BitVec.ofNat 64 t) else x.rttSent }
      d.sendBlock p 2 1 (leOf (toLE 8 t ++ bytes))
    else (d.setPort p { x with linkQueue := r }).sendBlock p 2 sub.toNat (leOf bytes)

/-- A LINK message waits, or a lane change of a received direction has not been reached. -/
def FabPort.linkDue (x : FabPort) : Bool := !x.linkQueue.isEmpty || x.changes.any (fun c => c.rx)

/-- A DATA block of two flits. -/
def Dev.sendData (d : Dev) (p : Nat) : Dev :=
  let share := d.rf Reg.fabArb 3 0
  let (f0, x, s0) := (d.port p).nextFlit share
  let (f1, x, s1) := x.nextFlit share
  let d := d.setPort p x
  let d := d.bumpIf s0 (Reg.fabTxFlits (portDie p) (p % 4))
  let d := d.bumpIf s1 (Reg.fabTxFlits (portDie p) (p % 4))
  d.sendBlock p 0 0 (f0 + f1 * 2 ^ 2560)

/-- CODEWORD_SEND (R206, R209, R210): the block of the next codeword boundary. -/
def xCodewordSend (p : Nat) : Effect := fun _ d =>
  let x := d.port p
  let idle := fun (d : Dev) => d.sendBlock p 1 0 d.idleBody
  match x.state with
  | .laneLock => idle d
  | .param => if x.linkQueue.isEmpty then d.sendBlock p 2 0 (leOf (d.paramBytes p)) else d.sendQueuedLink p
  | .miswired => d.sendBlock p 2 0 (leOf (d.paramBytes p))
  | .rtt => if x.linkQueue.isEmpty then idle d else d.sendQueuedLink p
  | .active | .repair =>
    if x.tickDue then idle (d.setPort p { x with tickDue := false })
    else if 1023 ≤ x.sinceIdle then idle d
    else if 63 ≤ x.sinceLink && x.linkDue then d.sendQueuedLink p
    else if x.hasSequenced || x.ackDue || x.nakDue || x.owed.any (fun c => c.2 != 0) then d.sendData p
    else idle d
  | _ => d

/-- FLIT_ACK_TIMEOUT (R208). -/
def xFlitAckTimeout (p : Nat) : Effect := fun _ d =>
  let x := d.port p
  if x.state.carries && !x.unacked.isEmpty then d.retrain p rReplay else d

/-! Training messages. -/

/-- The node that R203 requires at the far end of torus port `p`. -/
def Dev.neighbour (d : Dev) (p : Nat) : Nat :=
  let i := p % 4
  let s := d.torusSize i
  let c := fun j => if j = i then (if p < 4 then (coord d.node j + 1) % s else (coord d.node j + s - 1) % s) else coord d.node j
  c 0 + c 1 * 2 ^ 8 + c 2 * 2 ^ 16

/-- Byte `i` to `i + n - 1` of a message. -/
def msg (body : BitVec 512) (i n : Nat) : Nat := fb body (8 * (i + n) - 1) (8 * i)

/-- An initiating TS_RTT, or an answer: what follows T_SEND. -/
def rttBytes (echoSend echoRecv : Nat) : List Byte := toLE 8 echoSend ++ toLE 8 echoRecv

/-- The package initiates the exchanges of port `p`: it is the lower-numbered node (R213). -/
def Dev.initiates (d : Dev) (p : Nat) : Bool := d.node < (d.port p).peerNode.toNat

/-- TS_PARAM (R212). -/
def xTsParam (p : Nat) (body : BitVec 512) : Effect := fun _ d =>
  let x := d.port p
  if !(x.state == .param || x.state == .miswired) then d
  else
    let node := fld (msg body 0 4) 22 0
    let was := x.state
    let x := { x with peerNode := BitVec.ofNat 23 node, peerPort := BitVec.ofNat 3 (msg body 4 1),
                      peerEncReq := (msg body 12 1).testBit 0, peerKeyReady := (msg body 12 1).testBit 1 }
    let wired := p % 4 == 3 ||
      (msg body 4 1 == oppositePort p && node == d.neighbour p && msg body 5 1 == d.rf Reg.fabTorus 7 0
        && msg body 6 1 == d.rf Reg.fabTorus 15 8 && msg body 7 1 == d.rf Reg.fabTorus 22 16)
    let enc := d.rb (Reg.fabPortCtrl p) 2 || x.peerEncReq
    let can := d.cap 5 && (msg body 8 4).testBit 5 && x.hasKey && x.peerKeyReady
    if !d.nodeValid || node = 0x7FFFFF then d.setPort p { x with state := .param }
    else if !wired then
      let d := d.setPort p { x with state := .miswired }
      if was == .miswired then d else (d.event [] 0x0511 2 p node 0).noteDegraded
    else if enc && !can then
      let d := (d.setPort p { x with state := .param, encWait := true }).noteDegraded
      if x.encWait then d else d.event [] 0x0512 2 p 0 0
    else
      let d := d.setPort p { x with state := .rtt, rttCount := 0, rttSent := none, creditsIn := false, encWait := false,
                                    encOn := enc, txPhase := x.keys0.isNone && enc, rxPhase := x.keys0.isNone && enc }
      let d := (d.sendLink p 4 (d.freeUnits p)).noteDegraded
      if d.initiates p then d.sendLink p 1 (rttBytes 0 0) else d

/-- RTT ends: ACTIVE once the exchanges are done and CREDIT_INIT has come (Table 7.7). The answering end is done when the final
TS_RTT has come. -/
def Dev.rttDone (d : Dev) (p : Nat) : Dev :=
  let x := d.port p
  if x.state == .rtt && x.creditsIn && (if d.initiates p then 16 else 17) ≤ x.rttCount then
    (d.setPort p { x with state := .active, failures := 0, heardTick := false }).noteDegraded
  else d

/-- TS_RTT received at `recv` (R213, R253; the final message: log entry 38). -/
def xTsRtt (p : Nat) (body : BitVec 512) (recv : Nat) : Effect := fun _ d =>
  let x := d.port p
  let tSend := msg body 0 8
  let eSend := msg body 8 8
  let eRecv := msg body 16 8
  if !(x.state == .rtt || x.state.carries) then d
  else if eSend = 0 then
    let d := if x.state == .rtt then d.setPort p { x with rttCount := x.rttCount + 1 } else d
    d.sendLink p 1 (rttBytes tSend recv)
  else if x.state == .rtt && !d.initiates p then
    (d.setPort p { x with rtt := BitVec.ofNat 24 eRecv, rttCount := 17 }).rttDone p
  else if x.rttSent != some (BitVec.ofNat 64 eSend) then d
  else
    let diff := fun (a b : Nat) => signed 64 ((a + 2 ^ 64 - b) % 2 ^ 64)
    let trip := diff recv eSend - diff tSend eRecv
    let x := { x with rttSent := none }
    if x.state == .rtt then
      let best := if x.rttCount = 0 then trip.toNat else min x.rtt.toNat trip.toNat
      let x := { x with rtt := BitVec.ofNat 24 best, rttCount := x.rttCount + 1 }
      let d := d.setPort p x
      if 16 ≤ x.rttCount then (d.sendLink p 1 (rttBytes tSend best)).rttDone p else d.sendLink p 1 (rttBytes 0 0)
    else
      let d := d.setPort p x
      if d.lode.hasParent && d.lode.upPort == some p then d.phaseCorrect p trip (diff eRecv eSend - diff recv tSend) else d

/-- CREDIT_INIT (R230). -/
def xCreditInit (p : Nat) (body : BitVec 512) : Effect := fun _ d =>
  let x := d.port p
  if x.state != .rtt then d
  else
    let cs := (List.range 8).foldl (fun m v => mset (mset m (2 * v) (msg body (4 * v) 2)) (2 * v + 1) (msg body (4 * v + 2) 2)) []
    (d.setPort p { x with credits := cs, creditsIn := true }).rttDone p

/-- LINK_RETRAIN (R217). -/
def xLinkRetrain (p : Nat) (body : BitVec 512) : Effect := fun _ d =>
  if (d.port p).state.locked then d.portDown p (msg body 0 1) false else d

/-- LINK_DOWN (R217). -/
def xLinkDown (p : Nat) (body : BitVec 512) : Effect := fun _ d =>
  if (d.port p).state.locked then d.portDown p (msg body 0 1) true else d

/-- KEY_READY (R243). -/
def xKeyReady (p : Nat) (body : BitVec 512) : Effect := fun _ d =>
  let x := d.port p
  if x.state.carries then d.setPort p { x with keyReady := some (body.getLsbD 0) } else d

/-! Training. -/

/-- PORT_ENABLE (R211): the first attempt, or the one after a retrain. -/
def xPortEnable (p : Nat) : Effect := fun _ d =>
  let x := d.port p
  if x.state == .down && x.failures = 0 && d.portMayTrain p then d.enterDetect p else d

/-- PORT_RETRY_TIMER (R211): 1 ms, or 1 s after three failures in a row. -/
def xPortRetryTimer (p : Nat) : Effect := fun _ d =>
  let x := d.port p
  if x.state == .down && 1 ≤ x.failures && d.portMayTrain p then d.enterDetect p else d

/-- PORT_STATE_TIMEOUT (R211): the bound of PARAM runs once both ends hold a valid node ID. -/
def xPortStateTimeout (p : Nat) : Effect := fun _ d =>
  let x := d.port p
  match x.state with
  | .detect | .pmaTrain | .laneLock | .rtt | .repair => d.portDown p 0 true
  | .param => if d.nodeValid && x.peerNode != 0x7FFFFF then d.portDown p 0 true else d
  | _ => d

/-- SIGNAL_DETECT (R211). -/
def xSignalDetect (p : Nat) (lanes : BitVec 18) : Effect := fun _ d =>
  let x := d.port p
  if x.state == .detect && 8 ≤ laneTotal lanes then d.setPort p { x with state := .pmaTrain } else d

/-- PMA_TRAIN_DONE (R211): lanes that failed are out of service. -/
def xPmaTrainDone (p : Nat) (rx tx : BitVec 18) : Effect := fun _ d =>
  let x := d.port p
  if x.state == .pmaTrain then d.setPort p { x with state := .laneLock, rxService := rx, txService := tx } else d

/-- The lanes that carry traffic for the lanes in service (R215). -/
def chosenLanes (v : BitVec 18) : BitVec 18 := laneSet ((lanesOf v).take (if 16 ≤ laneTotal v then 16 else 8))

/-- LANE_LOCK_DONE (R215). -/
def xLaneLockDone (p : Nat) (reversed : Bool) : Effect := fun _ d =>
  let x := d.port p
  if x.state != .laneLock then d
  else if laneTotal x.rxService < 8 || laneTotal x.txService < 8 then d.stopPort p .failed x.failures
  else d.setPort p { x with state := .param, reversed := reversed, rxUse := chosenLanes x.rxService,
                            txUse := chosenLanes x.txService }

/-! Lanes (Table 7.8). -/

/-- LANE_SWAP: the transmitter schedules the spare in place of the logical lane. -/
def xLaneSwap (p : Nat) (body : BitVec 512) : Effect := fun _ d =>
  let x := d.port p
  let old := (lanesOf x.txUse).getD (msg body 0 1) 18
  let new := msg body 1 1
  if !x.state.carries || 18 ≤ old || 18 ≤ new then d
  else
    let lanes := laneSet (new :: (lanesOf x.txUse).filter (· != old))
    d.setPort p { x with txService := laneSet ((lanesOf x.txService).filter (· != old)),
                         changes := x.changes ++ [{ atCw := BitVec.ofNat 14 (msg body 2 2), lanes := lanes, narrow := false,
                                                    logical := msg body 0 1, newPhys := new, rx := false }] }

/-- NARROW: the transmitter schedules x8; a mask must have exactly 8 lanes. -/
def xNarrow (p : Nat) (body : BitVec 512) : Effect := fun _ d =>
  let x := d.port p
  let mask := BitVec.ofNat 18 (msg body 0 4)
  if !x.state.carries || laneTotal mask != 8 then d
  else d.setPort p { x with changes := x.changes ++ [{ atCw := BitVec.ofNat 14 (msg body 4 2), lanes := mask, narrow := true,
                                                       logical := 0, newPhys := 0, rx := false }] }

/-- LANE_LOCK_LOSS (R216): loss of lock is uncorrectable for the lane's bucket. -/
def xLaneLockLoss (p lane : Nat) : Effect := fun _ d =>
  let x := d.port p
  if x.state.carries && x.rxService.getLsbD lane then d.chargeLane p lane true else d

/-- LANE_SET_CHANGE (Table 7.8, step 3): the oldest change scheduled. -/
def xLaneSetChange (p : Nat) : Effect := fun _ d =>
  let x := d.port p
  match x.changes with
  | [] => d
  | c :: r =>
    if !x.state.carries then d
    else
      let x := { x with state := .repair, changes := r, repairing := x.repairing ++ [c] }
      d.setPort p (if c.rx then { x with rxUse := c.lanes } else { x with txUse := c.lanes })

/-- CODEWORD_LOCK_REGAINED (Table 7.8, step 4). -/
def xCodewordLockRegained (p : Nat) : Effect := fun _ d =>
  let x := d.port p
  if x.state != .repair then d
  else
    let d := d.setPort p { x with state := .active, repairing := [] }
    let d := d.each x.repairing (fun d c =>
      let d := d.bumpPort p Reg.fabLaneSwaps
      if c.narrow then d.event [] 0x0514 2 p 0 0 else d.event [] 0x0513 1 p (c.logical + c.newPhys * 256) 0)
    d.noteDegraded

/-- CODEWORD_LOCK_LOSS (R217). -/
def xCodewordLockLoss (p : Nat) : Effect := fun _ d =>
  if (d.port p).state.locked then d.portDown p 0 true else d

/-- FLIT_CTR_EXHAUSTED (R243). -/
def xFlitCtrExhausted (p : Nat) : Effect := fun _ d =>
  let x := d.port p
  if x.state.carries && x.encOn && (2 ^ 48 - 1 ≤ x.txCtr || 2 ^ 48 - 1 ≤ (if x.rxPhase then x.rxCtr1 else x.rxCtr0)) then
    ((d.event [] 0x0517 2 p 0 0).sendBlock p 2 7 rKeyExpired).portDown p rKeyExpired true
  else d

/-! Routing. -/

/-- PACKET_ROUTE (R233): a packet that has arrived on a port, or that this package sends. -/
def xPacketRoute (inPort : Option Nat) (k : Packet) : Effect := fun _ d =>
  match inPort with
  | some p => (d.leaveBuffer p k).route (some p) k
  | none => ({ d with localOut := removeOne k d.localOut }).route none k

/-! Registers. -/

/-- CMD of FAB_PORT_CTRL (R245): 1 RETRAIN, 2 DISABLE, 3 ENABLE. -/
def Dev.portCommand (d : Dev) (p cmd : Nat) : Dev :=
  let x := d.port p
  match cmd with
  | 1 => if x.state == .down || x.state == .failed || x.state == .disabled then d else d.retrain p rCommand
  | 2 =>
    if x.state == .failed || x.state == .disabled then d
    else
      let d := if x.state.locked then d.sendBlock p 2 7 rDisabled else d
      let d := d.stopPort p .disabled 0
      if x.state.carries then d.event [] 0x0515 2 p rDisabled 0 else d
  | 3 => if x.state == .disabled then d.setPort p { x with state := .down, failures := 0 } else d
  | _ => d

/-- A write of FAB_PORT_CTRL_p. -/
def Dev.portCtrlWrite (d : Dev) (p : Nat) (v : BitVec 32) : Dev := (d.putReg (Reg.fabPortCtrl p) v).portCommand p (fb v 1 0)

/-- A port is in RTT, ACTIVE or REPAIR (R219). -/
def Dev.anyPortUp (d : Dev) : Bool := (List.range 8).any (fun p =>
  let st := (d.port p).state
  st == .rtt || st.carries)

/-- A new FAB_NODE or FAB_TORUS reruns PARAM on MISWIRED ports (Table 7.7). -/
def Dev.rerunParam (d : Dev) : Dev :=
  (d.each (List.range 8) (fun d p => if (d.port p).state == .miswired then d.setPort p { d.port p with state := .param } else d)).noteDegraded

/-- A write of FAB_NODE (R219). -/
def Dev.nodeWrite (d : Dev) (v : BitVec 32) : Dev := if d.anyPortUp then d else (d.putReg Reg.fabNode v).rerunParam

/-- A write of FAB_TORUS (R219). -/
def Dev.torusWrite (d : Dev) (v : BitVec 32) : Dev :=
  if d.anyPortUp || 200 < (fb v 7 0 + 1) / 2 + (fb v 15 8 + 1) / 2 + (fb v 22 16 + 1) / 2 then d
  else (d.putReg Reg.fabTorus v).rerunParam

/-! One meaning per command. -/

def execCodewordReceive (p : Fin 8) (o : FecOutcome) (s : State) : Host.Outcome State Fault Refusal :=
  s.run (xCodewordReceive p.val o)
def execFlitAckTimeout (p : Fin 8) (s : State) : Host.Outcome State Fault Refusal := s.run (xFlitAckTimeout p.val)
def execTsParam (p : Fin 8) (body : BitVec 512) (s : State) : Host.Outcome State Fault Refusal := s.run (xTsParam p.val body)
def execTsRtt (p : Fin 8) (body : BitVec 512) (recv : BitVec 64) (s : State) : Host.Outcome State Fault Refusal :=
  s.run (xTsRtt p.val body recv.toNat)
def execLaneSwap (p : Fin 8) (body : BitVec 512) (s : State) : Host.Outcome State Fault Refusal := s.run (xLaneSwap p.val body)
def execNarrow (p : Fin 8) (body : BitVec 512) (s : State) : Host.Outcome State Fault Refusal := s.run (xNarrow p.val body)
def execCreditInit (p : Fin 8) (body : BitVec 512) (s : State) : Host.Outcome State Fault Refusal := s.run (xCreditInit p.val body)
def execLinkRetrain (p : Fin 8) (body : BitVec 512) (s : State) : Host.Outcome State Fault Refusal :=
  s.run (xLinkRetrain p.val body)
def execKeyReady (p : Fin 8) (body : BitVec 512) (s : State) : Host.Outcome State Fault Refusal := s.run (xKeyReady p.val body)
def execLinkDown (p : Fin 8) (body : BitVec 512) (s : State) : Host.Outcome State Fault Refusal := s.run (xLinkDown p.val body)
def execPortEnable (p : Fin 8) (s : State) : Host.Outcome State Fault Refusal := s.run (xPortEnable p.val)
def execPortRetryTimer (p : Fin 8) (s : State) : Host.Outcome State Fault Refusal := s.run (xPortRetryTimer p.val)
def execPortStateTimeout (p : Fin 8) (s : State) : Host.Outcome State Fault Refusal := s.run (xPortStateTimeout p.val)
def execPmaTrainDone (p : Fin 8) (rx tx : BitVec 18) (s : State) : Host.Outcome State Fault Refusal :=
  s.run (xPmaTrainDone p.val rx tx)
def execLaneLockDone (p : Fin 8) (reversed : Bool) (s : State) : Host.Outcome State Fault Refusal :=
  s.run (xLaneLockDone p.val reversed)
def execLaneLockLoss (p : Fin 8) (lane : Fin 18) (s : State) : Host.Outcome State Fault Refusal :=
  s.run (xLaneLockLoss p.val lane.val)
def execLaneSetChange (p : Fin 8) (s : State) : Host.Outcome State Fault Refusal := s.run (xLaneSetChange p.val)
def execCodewordLockLoss (p : Fin 8) (s : State) : Host.Outcome State Fault Refusal := s.run (xCodewordLockLoss p.val)
def execFlitCtrExhausted (p : Fin 8) (s : State) : Host.Outcome State Fault Refusal := s.run (xFlitCtrExhausted p.val)
def execPacketRoute (inPort : Option (Fin 8)) (k : Packet) (s : State) : Host.Outcome State Fault Refusal :=
  s.run (xPacketRoute (inPort.map (·.val)) k)
def execSignalDetect (p : Fin 8) (lanes : BitVec 18) (s : State) : Host.Outcome State Fault Refusal :=
  s.run (xSignalDetect p.val lanes)
def execCodewordLockRegained (p : Fin 8) (s : State) : Host.Outcome State Fault Refusal := s.run (xCodewordLockRegained p.val)
def execCodewordSend (p : Fin 8) (s : State) : Host.Outcome State Fault Refusal := s.run (xCodewordSend p.val)

/-- FAB_PORT_CTRL_p as it stands with a CMD in [1:0]. -/
def Dev.portCtrlWith (d : Dev) (p cmd : Nat) : BitVec 32 := (d.reg (Reg.fabPortCtrl p) &&& 0xFFFFFFFC) ||| BitVec.ofNat 32 cmd

def execFabPortRetrain (r : Requester) (p : Fin 8) (s : State) : Host.Outcome State Fault Refusal :=
  s.runReg r (Reg.fabPortCtrl p.val) (s.dev.portCtrlWith p.val 1) (fun _ => isCtx0 r)
    (fun _ d => (d.portCtrlWrite p.val (d.portCtrlWith p.val 1), stOK))
def execFabPortDisable (r : Requester) (p : Fin 8) (s : State) : Host.Outcome State Fault Refusal :=
  s.runReg r (Reg.fabPortCtrl p.val) (s.dev.portCtrlWith p.val 2) (fun _ => isCtx0 r)
    (fun _ d => (d.portCtrlWrite p.val (d.portCtrlWith p.val 2), stOK))
def execFabPortEnable (r : Requester) (p : Fin 8) (s : State) : Host.Outcome State Fault Refusal :=
  s.runReg r (Reg.fabPortCtrl p.val) (s.dev.portCtrlWith p.val 3) (fun _ => isCtx0 r)
    (fun _ d => (d.portCtrlWrite p.val (d.portCtrlWith p.val 3), stOK))

/-- FAB_NODE_WRITE (R219): context 0 only. -/
def execFabNodeWrite (r : Requester) (v : BitVec 32) (s : State) : Host.Outcome State Fault Refusal :=
  s.runReg r Reg.fabNode v (fun _ => isCtx0 r) (fun _ d => (d.nodeWrite v, stOK))

/-- FAB_TORUS_WRITE (R219): context 0 only. -/
def execFabTorusWrite (r : Requester) (v : BitVec 32) (s : State) : Host.Outcome State Fault Refusal :=
  s.runReg r Reg.fabTorus v (fun _ => isCtx0 r) (fun _ d => (d.torusWrite v, stOK))

end Sys2Proof.Machine
end

