-- ==== Sys2Proof/Machine/FabServe.lean ====
section
/-! DEFINITION. Fabric requests performed at this package (R220 to R226), and snoop responses that release them (R334). -/

namespace Sys2Proof.Machine

/-- Whether a request may be performed: it waits for a page or a scratchpad, it is held for snoops, it fails with a status at an
offset, or it goes ahead. -/
inductive Gate where
  | wait | held | fail (status off : Nat) | go
deriving DecidableEq, Repr

/-- The fabric status of an access error code. -/
def statusOf (code : Nat) : Nat := if code = 0x0302 then 2 else if code = 0x0401 then 6 else if code = 0x0301 then 1 else 3

/-- Checks of an access by request `acc` to [a, a + n) of local memory under context `c` (R177, R199, R220, R334, R467), for every
requester that is answered with a status. -/
def Dev.gate (d : Dev) (acc : HeldAccess) (c a n : Nat) (write : Bool) (except : Option Nat) : Dev × Gate :=
  if 0x018000000000 ≤ a then (d, .fail 2 a)
  else if n = 0 || !inMemory a n then (d, .fail 1 a)
  else if d.pwr.state == .forward then (d, .fail 6 a)
  else if d.pwr.state == .tripped && isHbm a then (d, .wait)
  else
    let (d, e) := d.accessCheck c a n
    match e with
    | some code => (d, .fail (statusOf code) a)
    | none =>
      if isHbm a && !d.hbmServes a then (d, .fail 1 a)
      else if d.mustWait a n then (d, .wait)
      else
        let (d, l) := d.cohWait a n write except
        if l.isEmpty then (d, .go) else ({ d with waiting := d.waiting ++ [({ access := acc, lines := l } : Waiting)] }, .held)

/-- The bytes lie within one 256-byte-aligned block (R224). -/
def inBlock (a n : Nat) : Bool := 1 ≤ n && n ≤ 256 && a / 256 == (a + n - 1) / 256

/-- A global offset of an address that `load` or `store` reports. -/
def fullOffset (a x : Nat) : Nat := match scrPlace a with | some (t, _) => scrBase t + x | none => x

/-- A request that passed its end-to-end check (R221) runs `f`; else it is discarded and answered ECRC. -/
def Dev.checked (d : Dev) (k : Packet) (f : Dev → Dev) : Dev :=
  if k.ecrcOk then f d else ((d.taken k).bump Reg.fabEcrcErr).answerFail k 9 0

/-! Reads and writes. -/

/-- RD (R224). -/
def Dev.serveRd (d : Dev) (m : Mem) (k : Packet) : Dev :=
  let a := k.addr
  let n := k.arg % 512
  if !inBlock a n then (d.taken k).answerFail k 1 a
  else
    let (d, g) := d.gate (.fabric k) k.ctx a n false none
    match g with
    | .wait => d
    | .held => d.taken k
    | .fail st off => (d.taken k).answerFail k st off
    | .go =>
      let (d, r) := ((d.taken k).quarry a n).load m a n
      match r with
      | .inl bs => d.respond k opRDRSP 0 0 0 bs
      | .inr (_, x) => d.answerFail k 3 (fullOffset a x)

/-- WR (R224): performed at HCLASS; acknowledged once visible. -/
def Dev.serveWr (d : Dev) (m : Mem) (k : Packet) : Dev :=
  let a := k.addr
  let n := k.data.length
  if !inBlock a n then (d.taken k).answerFail k 1 a
  else
    let (d, g) := d.gate (.fabric k) k.ctx a n true none
    match g with
    | .wait => d
    | .held => d.taken k
    | .fail st off => (d.taken k).answerFail k st off
    | .go =>
      let (d, r) := ((d.taken k).wakeMover a n).store m a k.data
      match r with
      | none => d.respond k opWRACK 0 0 0 []
      | some (_, x) => d.answerFail k 3 (fullOffset a x)

/-! Atomics (Table 7.14). -/

/-- Operand bytes of an AOP, and the bytes of its target. -/
def aopData (aop : Nat) : Nat := if aop = 0 then 4 else if aop = 3 || aop = 7 then 16 else 8
def aopWidth (aop : Nat) : Nat := if aop = 0 then 4 else if aop = 7 then 16 else 8

/-- The new value of the target, and signed overflow for GADD128. -/
def aopResult (aop old x y : Nat) : Nat × Bool :=
  match aop with
  | 0 => ((old + x) % 2 ^ 32, false)
  | 1 => ((old + x) % 2 ^ 64, false)
  | 2 => (x, false)
  | 3 => (if old = x then y else old, false)
  | 4 => (old &&& x, false)
  | 5 => (old ||| x, false)
  | 6 => (max old x, false)
  | _ =>
    let s := signed 128 old + signed 128 x
    (unsigned 128 s, s < -(2 ^ 127) || 2 ^ 127 ≤ s)

/-- ATOM (R225): at the memory controller, indivisible, HBM only, naturally aligned. -/
def Dev.serveAtom (d : Dev) (m : Mem) (k : Packet) : Dev :=
  let aop := k.arg % 16
  let a := k.addr
  let n := aopWidth aop
  if 0x010000000000 ≤ a && a < 0x010080000000 then (d.taken k).answerFail k 4 a
  else if a % n != 0 || k.data.length != aopData aop then (d.taken k).answerFail k 1 a
  else
    let (d, g) := d.gate (.fabric k) k.ctx a n true none
    match g with
    | .wait => d
    | .held => d.taken k
    | .fail st off => (d.taken k).answerFail k st off
    | .go =>
      let (d, r) := ((d.taken k).quarry a n).load m a n
      match r with
      | .inr (_, x) => d.answerFail k 3 x
      | .inl bs =>
        let x := leOf (k.data.take (if aop = 3 then 8 else 16))
        let (v, ovf) := aopResult aop (leOf bs) x (leOf (k.data.drop 8))
        (d.pokeLE a n v).respond k opATOMRSP (if ovf then 7 else 0) 0 0 bs

/-! Bulk groups (R226). -/

def groupDie (a : Nat) : Nat := if memDie a < 2 then 4 else 5

/-- Record a segment of a group with its outcome; answer the group once every segment up to the one marked LAST has come. -/
def Dev.segmentDone (d : Dev) (k : Packet) (status off : Nat) : Dev :=
  let bulk := BitVec.ofNat 16 (k.arg % 65536)
  let seg := fld k.arg 19 16
  let src := BitVec.ofNat 23 k.src
  let same := fun (g : InGroup) => g.src == src && g.bulk == bulk
  let d := d.taken k
  let old := d.inGroups.find? same
  if old.isNone && 4096 ≤ (d.inGroups.filter (fun g => g.die == groupDie k.addr)).length then
    d.respond k opBWACK 8 0 (k.arg % 65536) []
  else
    let g := old.getD { src := src, bulk := bulk, die := groupDie k.addr, segs := [], last := none, status := 0, failAt := 0 }
    let g := { g with segs := if g.segs.contains seg then g.segs else seg :: g.segs,
                      last := if k.last then some seg else g.last,
                      status := if g.status == 0 then BitVec.ofNat 4 status else g.status,
                      failAt := if g.status == 0 && status != 0 then off else g.failAt }
    let rest := d.inGroups.filter (fun x => !same x)
    match g.last with
    | some n =>
      if (List.range (n + 1)).all g.segs.contains then
        ({ d with inGroups := rest }).respond k opBWACK g.status.toNat g.failAt (k.arg % 65536) []
      else { d with inGroups := rest ++ [g] }
    | none => { d with inGroups := rest ++ [g] }

/-- The table has room for the group of a segment. -/
def Dev.groupFits (d : Dev) (k : Packet) : Bool :=
  d.inGroups.any (fun g => g.src == BitVec.ofNat 23 k.src && g.bulk == BitVec.ofNat 16 (k.arg % 65536)) ||
    (d.inGroups.filter (fun g => g.die == groupDie k.addr)).length < 4096

/-- BWR: a segment is written on arrival, at class 2. -/
def Dev.serveBwr (d : Dev) (m : Mem) (k : Packet) : Dev :=
  let a := k.addr
  let n := k.data.length
  if !d.groupFits k then (d.taken k).respond k opBWACK 8 0 (k.arg % 65536) []
  else if !inBlock a n then d.segmentDone k 1 a
  else
    let (d, g) := d.gate (.fabric k) k.ctx a n true none
    match g with
    | .wait => d
    | .held => d.taken k
    | .fail st off => d.segmentDone k st off
    | .go =>
      let (d, r) := (d.wakeMover a n).store m a k.data
      match r with
      | none => d.segmentDone k 0 0
      | some (_, x) => d.segmentDone k 3 (fullOffset a x)

/-- A number for a new push. -/
def Dev.freePush (d : Dev) : Nat :=
  ((List.range (d.pushes.length + 1)).find? (fun i => !(d.pushes.any (fun p => p.id == i)))).getD 0

/-- BGET: push LENGTH bytes from ADDR to the target as bulk groups of this node's own. -/
def Dev.serveBget (d : Dev) (m : Mem) (k : Packet) : Dev :=
  let a := k.addr
  let n := leOf (k.data.take 4)
  if n = 0 || 2 ^ 30 < n then (d.taken k).answerFail k 1 a
  else
    let (d, g) := d.gate (.fabric k) k.ctx a n false none
    match g with
    | .wait => d
    | .held => d.taken k
    | .fail st off => (d.taken k).answerFail k st off
    | .go =>
      let (d, r) := (d.taken k).load m a n
      match r with
      | .inr (_, x) => d.answerFail k 3 (fullOffset a x)
      | .inl bs =>
        let i := d.freePush
        let d := { d with pushes := d.pushes ++ [({ id := i, hdr := k.hdr } : Push)] }
        d.fabWrite k.ctx k.arg bs .bgetPush i 0 0

/-- Perform a fabric memory request by its opcode. -/
def Dev.serveFab (d : Dev) (m : Mem) (k : Packet) : Dev :=
  d.checked k (fun d =>
    if k.opc = opRD then d.serveRd m k
    else if k.opc = opWR then d.serveWr m k
    else if k.opc = opATOM then d.serveAtom m k
    else if k.opc = opBWR then d.serveBwr m k
    else if k.opc = opBGET then d.serveBget m k
    else d)

/-! The commands. -/

/-- A command whose packet has opcode `op`. -/
def xFab (op : Nat) (k : Packet) : Effect := fun m d => if k.opc = op then d.serveFab m k else d

/-- An atomic of operation `aop`. -/
def xAtom (aop : Nat) (k : Packet) : Effect := fun m d => if k.opc = opATOM && k.arg % 16 = aop then d.serveFab m k else d

def execFabRd (k : Packet) (s : State) : Host.Outcome State Fault Refusal := s.run (xFab opRD k)
def execFabWr (k : Packet) (s : State) : Host.Outcome State Fault Refusal := s.run (xFab opWR k)
def execAtomAdd32 (k : Packet) (s : State) : Host.Outcome State Fault Refusal := s.run (xAtom 0 k)
def execAtomAdd64 (k : Packet) (s : State) : Host.Outcome State Fault Refusal := s.run (xAtom 1 k)
def execAtomSwap64 (k : Packet) (s : State) : Host.Outcome State Fault Refusal := s.run (xAtom 2 k)
def execAtomCas64 (k : Packet) (s : State) : Host.Outcome State Fault Refusal := s.run (xAtom 3 k)
def execAtomAnd64 (k : Packet) (s : State) : Host.Outcome State Fault Refusal := s.run (xAtom 4 k)
def execAtomOr64 (k : Packet) (s : State) : Host.Outcome State Fault Refusal := s.run (xAtom 5 k)
def execAtomMaxu64 (k : Packet) (s : State) : Host.Outcome State Fault Refusal := s.run (xAtom 6 k)
def execAtomGadd128 (k : Packet) (s : State) : Host.Outcome State Fault Refusal := s.run (xAtom 7 k)
def execFabBwr (k : Packet) (s : State) : Host.Outcome State Fault Refusal := s.run (xFab opBWR k)
def execFabBget (k : Packet) (s : State) : Host.Outcome State Fault Refusal := s.run (xFab opBGET k)

end Sys2Proof.Machine
end

