-- ==== Sys2Proof/Machine/CollOps.lean ====
section
/-! DEFINITION. Collectives (chapter 9): the grid and its words (R275 to R279), openings and their descriptors (R269, R270), packets
(R288, R289), how an opening or a use ends (R283, R287, R297), the commit condition (R285). -/

namespace Sys2Proof.Machine

/-! The grid. -/

/-- ⌊log2 |x|⌋ + 150 of a finite nonzero FP32 value (R272). -/
def expCode (v : Val) : Option Nat :=
  match v with
  | .fin _ m e => if m = 0 then none else some (log2Floor m e + 150).toNat
  | _ => none

/-- EXPCODE and NONFIN of a contribution (R272). -/
def scanOf (vs : List Val) : Nat × Bool :=
  (vs.foldl (fun a v => match expCode v with | some c => max a c | none => a) 0,
   vs.any (fun v => match v with | .fin _ _ _ => false | _ => true))

/-- E_b of an EXPCODE (R273). -/
def gridExp (code : Nat) : Int := if code = 0 then 0 else (code : Int) - 150

/-- q of a finite value, to nearest with ties away from zero; none for a non-finite one (R276). -/
def quantise (eb : Int) (v : Val) : Option Int :=
  match v with
  | .fin s m e =>
    let k := e + 104 - eb
    let q := if 0 ≤ k then m * 2 ^ k.toNat else (2 * m / 2 ^ (-k).toNat + 1) / 2
    some (if s then -(q : Int) else q)
  | _ => none

/-- The FP32 result of a word (R278), P for a divided bucket else 1: rounded once from the exact quotient, whose odd last bit
stands for all that follows. -/
def gridResult (eb : Int) (p : Nat) (w : Int) : Nat :=
  if w = 0 then 0
  else
    let n := w.natAbs * 2 ^ 200
    let v := if p ≤ 1 then Val.fin (w < 0) w.natAbs (eb - 104)
      else Val.fin (w < 0) (2 * (n / p) + (if n % p = 0 then 0 else 1)) (eb - 104 - 201)
    (convertF fp32 true false .nearest v).1

/-- FP32 values of bytes, four bytes each. -/
def fp32s (bs : List Byte) : List Val := ((chunk 4 (bs.length / 4) bs).map leOf).map fp32.decode

/-! Descriptor fields (Tables 9.1, 9.8 and 9.10). -/

abbrev Desc := BitVec 1024

def cOff (x : Desc) (hi : Nat) : Nat := fb x hi (hi - 63) % 2 ^ 41
def bSrc (x : Desc) : Nat := cOff x 1023
def bDst (x : Desc) : Nat := cOff x 959
def bReady (x : Desc) : Nat := cOff x 895
def bRec (x : Desc) : Nat := cOff x 831
def bMask (x : Desc) : Nat := cOff x 767
def bElements (x : Desc) : Nat := fb x 127 103
def bQuorum (x : Desc) : Nat := fb x 102 86
def bRoot (x : Desc) : Nat := fb x 69 54
def bLead (x : Desc) : Nat := fb x 53 46
def bParts (x : Desc) : Nat := fb x 45 39
def bStepBit (x : Desc) : Nat := fb x 38 33
def bPolicy (x : Desc) : Nat := fb x 28 27
def bDiv (x : Desc) : Bool := x.getLsbD 26
def bStats (x : Desc) : Bool := x.getLsbD 25
def xList (x : Desc) : Nat := cOff x 1023
def xRows (x : Desc) : Nat := cOff x 959
def xRecv (x : Desc) : Nat := cOff x 895
def xTag (x : Desc) : Nat := cOff x 831
def xRet (x : Desc) : Nat := cOff x 767
def xPlace (x : Desc) : Nat := cOff x 703
def xReady (x : Desc) : Nat := cOff x 639
def xRec (x : Desc) : Nat := cOff x 575
def xDrop (x : Desc) : Nat := cOff x 511
def xEntries (x : Desc) : Nat := fb x 127 108
def xRowBytes (x : Desc) : Nat := fb x 107 92
def xExperts (x : Desc) : Nat := fb x 75 65
def xSlots (x : Desc) : Nat := fb x 64 59 + 1
def xCap (x : Desc) : Nat := fb x 58 39
def xPair (x : Desc) : Nat := fb x 38 23
def xParts (x : Desc) : Nat := fb x 22 16
def xUses (x : Desc) : Nat := fb x 11 4
def xCombine (x : Desc) : Bool := x.getLsbD 3
def pOut (x : Desc) : Nat := cOff x 1023
def pIn (x : Desc) : Nat := cOff x 959
def pRec (x : Desc) : Nat := cOff x 895
def pOutCount (x : Desc) : Nat := fb x 127 108
def pInCount (x : Desc) : Nat := fb x 107 88
def pRounds (x : Desc) : Nat := fb x 71 60 + 1

/-- KIND, GROUP_ID, REC, READY, its entries, NOTIFY_TILES and NOTIFY_SEM of a descriptor of each kind. -/
def descKind (x : Desc) : Nat := fb x 1 0
def descGroup (x : Desc) : Nat := match descKind x with | 1 => fb x 85 70 | 2 => fb x 91 76 | _ => fb x 87 72
def descRec (x : Desc) : Nat := match descKind x with | 1 => bRec x | 2 => xRec x | _ => pRec x
def descReady (x : Desc) : Nat := if descKind x = 1 then bReady x else xReady x
def descParts (x : Desc) : Nat := if descKind x = 1 then bParts x else xParts x
def descTiles (x : Desc) : Nat := match descKind x with | 1 => fb x 703 640 | 2 => fb x 447 384 | _ => fb x 831 768
def descSem (x : Desc) : Nat := match descKind x with | 1 => fb x 32 29 | 2 => fb x 15 12 | _ => fb x 59 56

/-- Piece fields (Table 9.10). -/
structure Piece where
  round : Nat
  peer : Nat
  len : Nat
  dst : Nat
  src : Nat
deriving DecidableEq, Repr

def pieceOf (v : Nat) : Piece :=
  { round := fld v 255 244, peer := fld v 243 228, len := fld v 227 198, dst := fld v 104 64, src := fld v 40 0 }

/-! Openings. -/

def Opening.group (o : Opening) : Nat := descGroup o.desc
def Opening.count (o : Opening) : Nat := o.members.length

/-- Chunks of a bucket, the first chunk of a shard, the owner of a chunk, and the elements of a chunk. -/
def Opening.chunks (o : Opening) : Nat := ceilDiv (bElements o.desc) 64
def Opening.shardAt (o : Opening) (k : Nat) : Nat := k * o.chunks / o.count
def Opening.ownerOf (o : Opening) (i : Nat) : Nat := ceilDiv ((i + 1) * o.count) o.chunks - 1
def Opening.chunkSize (o : Opening) (i : Nat) : Nat := min 64 (bElements o.desc - 64 * i)

/-- First chunk, and the chunk after the last, of the own shard; its elements. -/
def Opening.own (o : Opening) : Nat × Nat := (o.shardAt o.selfRank, o.shardAt (o.selfRank + 1))
def Opening.ownElements (o : Opening) : Nat := min (64 * o.own.2) (bElements o.desc) - min (64 * o.own.1) (bElements o.desc)

def Opening.inMask (o : Opening) (r : Nat) : Bool := ((o.mask.getD (r / 8) 0)).getLsbD (r % 8)
def Opening.maskRanks (o : Opening) : List Nat := (List.range o.count).filter o.inMask
def Opening.segCount (o : Opening) : Nat := ceilDiv o.count 2048
def Opening.complete (o : Opening) : Bool := match o.close with | some c => c.status == 1 | none => false

/-- SEQ of the use in progress (R270). -/
def Opening.useSeq (o : Opening) : Nat := (o.seq.toNat + o.use) % 65536

def Dev.openOf (d : Dev) (c id : Nat) : Option Opening := d.openings.find? (fun o => o.ctx == c && o.id == id && !o.ended)

def Opening.same (o x : Opening) : Bool := o.ctx == x.ctx && o.id == x.id && o.seq == x.seq

def Dev.putOpening (d : Dev) (o : Opening) : Dev := { d with openings := d.openings.map (fun x => if x.same o then o else x) }

/-- Forget an ended opening that holds nothing further. -/
def Dev.dropOpening (d : Dev) (o : Opening) : Dev :=
  { d with openings := d.openings.filter (fun x => !(x.same o && x.ended && !x.hasWords && x.kind != 2)) }

/-! Memory of an engine, on behalf of its context (R177). -/

/-- Read [a, a + n) of HBM; none where it is refused, waits, or delivers no data. -/
def Dev.engineRead (d : Dev) (m : Mem) (c a n : Nat) : Dev × Option (List Byte) :=
  if n = 0 then (d, some [])
  else if !isHbm (a + n - 1) then (d, none)
  else
    let (d, e) := d.accessCheck c a n
    if e.isSome || d.mustWait a n then (d, none)
    else
      let (d, held) := d.cohBlocked a n false
      if held then (d, none)
      else
        let (d, r) := d.load m a n
        match r with
        | .inl bs => (d, some bs)
        | .inr _ => (d, none)

/-- Write bytes to HBM; copies that hosts hold are invalidated (log entry 41). -/
def Dev.engineWrite (d : Dev) (m : Mem) (c a : Nat) (bs : List Byte) : Dev :=
  if bs.isEmpty || !isHbm (a + bs.length - 1) then d
  else
    let (d, e) := d.accessCheck c a bs.length
    if e.isSome then d
    else
      let (d, _) := d.cohWait a bs.length true none
      (d.store m a bs).1

/-- A range an engine may use: HBM of the context. -/
def Dev.engineMay (d : Dev) (c a n : Nat) : Bool := n == 0 || (isHbm a && isHbm (a + n - 1) && d.admits c a n)

/-! Packets (Table 9.7). -/

def kIndex (k : Packet) : Nat := fld k.arg 53 36
def kSeq (k : Packet) : Nat := fld k.arg 35 20
def kId (k : Packet) : Nat := fld k.arg 19 4
def kType (k : Packet) : Nat := fld k.arg 3 0
def kRank (k : Packet) : Nat := fld k.addr 40 25
def kAux (k : Packet) : Nat := fld k.addr 24 0

/-- A packet of opening `o` under `seq` to rank `r`. -/
def Dev.collPacket (d : Dev) (o : Opening) (op seq r ty index aux : Nat) (data : List Byte) : Packet :=
  d.makePacket op (o.members.getD r 0).toNat o.ctx (o.selfRank * 2 ^ 25 + aux % 2 ^ 25)
    (index % 2 ^ 18 * 2 ^ 36 + seq % 65536 * 2 ^ 20 + o.id % 65536 * 2 ^ 4 + ty) data

/-- Send a control packet now and twice more (R289). -/
def Dev.sendControl (d : Dev) (k : Packet) : Dev :=
  ({ d with repeats := d.repeats ++ [({ pkt := k, at_ := d.lode.count + 1, left := 2 } : Repeat)] }).sendPacket k

/-- A control packet to rank `r`. -/
def Dev.control (d : Dev) (o : Opening) (op seq r ty index aux : Nat) (data : List Byte) : Dev :=
  d.sendControl (d.collPacket o op seq r ty index aux data)

/-- Ranks other than the own one. -/
def Opening.others (o : Opening) : List Nat := (List.range o.count).filter (· != o.selfRank)

/-! Ends. -/

/-- The setter of a notification semaphore (Table 12.6). -/
def Dev.engineUnit (d : Dev) : Nat := 0x100 + d.enginesIn.headD 0

/-- Set a semaphore on tiles of a context. -/
def Dev.notify (d : Dev) (c tiles sem : Nat) : Dev :=
  d.each ((maskTiles tiles).filter (fun t => (d.ctx c).tileMask.getLsbD t && (d.tile t).state != .retired))
    (fun d t => d.setSem t sem d.engineUnit)

/-- A bucket's record (Table 9.5). CLOSE_LT and EXCL_NONFIN as fixed by the root: no packet carries them, so that elsewhere they
are free values (log entry 44). -/
def Dev.bucketRecord (d : Dev) (o : Opening) (status : Nat) : Dev × Nat :=
  let x := o.desc
  let done := status == 1
  let ssq := fun (f : ShardDone → Nat) => if done then (o.shards.map f).sum else 0
  let (n1, d) := d.takeFree
  let root := o.selfRank == bRoot x
  let closeLt := match o.close with | none => 0 | some c => if root then c.lt.toNat else Config.collClose n1
  let excl := if o.close.isNone || bPolicy x != 1 then 0 else if root then o.exclNonfin else Config.collExcluded n1
  let (pop, code) := match o.close with | none => (0, 0) | some c => (c.pop, c.expcode)
  (d, ssq (·.ssqR) % 2 ^ 320 * 2 ^ 704 + ssq (·.ssqC) % 2 ^ 320 * 2 ^ 384 + d.now * 2 ^ 320 + closeLt % 2 ^ 64 * 2 ^ 256
    + o.groupVer.toNat * 2 ^ 224 + ssq (·.nonfinite) % 2 ^ 32 * 2 ^ 192 + ssq (·.resInf) % 2 ^ 32 * 2 ^ 160
    + bElements x * 2 ^ 135 + excl % 2 ^ 17 * 2 ^ 118 + pop % 2 ^ 17 * 2 ^ 101 + code % 2 ^ 9 * 2 ^ 92 + o.group * 2 ^ 76
    + o.seq.toNat * 2 ^ 60 + o.id * 2 ^ 44 + bPolicy x * 2 ^ 8 + (if bDiv x then 2 ^ 7 else 0) + status * 2 + 1)

/-- Rows or units received (R297). -/
def Dev.received (d : Dev) (o : Opening) : Nat :=
  if o.kind = 2 then
    if xCombine o.desc then
      (match d.openings.find? (fun p => p.ctx == o.ctx && p.id == xPair o.desc) with
       | some p => mget 0 p.pastUses o.use
       | none => 0)
    else ((List.range (xSlots o.desc)).map (fun s =>
      min (xCap o.desc) (((o.counts.filter (fun y => y.use == o.use)).map (fun y => y.counts.getD s 0)).sum))).sum
  else 0

/-- An exchange record (Table 9.11). -/
def Dev.exchangeRecord (d : Dev) (o : Opening) (status received : Nat) : Nat :=
  received % 2 ^ 32 * 2 ^ 224 + o.sent % 2 ^ 32 * 2 ^ 192 + o.dropped % 2 ^ 32 * 2 ^ 160 + d.now * 2 ^ 64 + o.useSeq * 2 ^ 48
    + o.id * 2 ^ 32 + status * 2 + 1

/-- The event of a record, where the EVT bit of the slot that opened asks for it (R283, log entry 45). -/
def Dev.collEvent (d : Dev) (o : Opening) (status : Nat) : Dev :=
  if o.evt then d.event [o.ctx] (0x700 + status) (if status = 1 then 0 else 2) o.id o.useSeq 0 else d

/-- Write a bucket's record and what goes with it (R283); the opening's record is written once (R274). -/
def Dev.bucketEnds (d : Dev) (m : Mem) (o : Opening) (status : Nat) : Dev :=
  if o.recorded then d
  else
    let x := o.desc
    let (d, rec_) := d.bucketRecord o status
    let d := d.engineWrite m o.ctx (bRec x) (toLE 128 rec_)
    let d := d.engineWrite m o.ctx (bReady x) (List.replicate (8 * bParts x) 0)
    let d := d.putOpening { o with recorded := true }
    let d := if status = 1 then
        let z := d.ctx o.ctx
        let d := d.setCtx o.ctx { z with collDone := z.collDone ||| BitVec.ofNat 64 (2 ^ bStepBit x) }
        (d.notify o.ctx (descTiles x) (descSem x)).bumpN Reg.collNonfinite ((o.shards.map (·.nonfinite)).sum)
      else d.bump Reg.collIncomplete
    d.collEvent o status

/-- An opening of a bucket has ended; the words of a shard that was sent are kept (R280). -/
def Dev.closeOpening (d : Dev) (o : Opening) : Dev :=
  match d.openings.find? (fun x => x.same o) with
  | none => d
  | some x =>
    let y := if x.shardSent then { x with ended := true } else { x with ended := true, hasWords := false, allocated := 0, words := [] }
    (d.putOpening y).dropOpening y

/-- A bucket ends with a status (R283). -/
def Dev.endBucket (d : Dev) (m : Mem) (o : Opening) (status : Nat) : Dev := (d.bucketEnds m o status).closeOpening o

/-- A use of an exchange, or a re-shard, ends (R290, R292, R296): the record, the semaphore, the ready array; then the next use. -/
def Dev.endUse (d : Dev) (m : Mem) (o : Opening) (status received : Nat) : Dev :=
  let x := o.desc
  let d := d.retireTags (fun t => (t.purpose == .tokx || t.purpose == .permute) && t.a == o.ctx && t.b == o.id && !t.reserved)
  let d := d.engineWrite m o.ctx (descRec x) (toLE 32 (d.exchangeRecord o status received))
  let d := if status = 1 then d.notify o.ctx (descTiles x) (descSem x) else d.bump Reg.collIncomplete
  let d := if o.kind = 2 then d.engineWrite m o.ctx (xReady x) (List.replicate (8 * xParts x) 0) else d
  let d := d.collEvent o status
  let last := o.kind != 2 || xUses x ≤ o.use + 1
  let past := if o.kind = 2 && status = 1 then mset o.pastUses o.use (xEntries x - o.dropped) else o.pastUses
  let d := d.putOpening { o with use := if last then o.use else o.use + 1, ended := last, begun := false, ready := false,
                                 offsetsSent := false, offsets := [], recvBase := [], rowsTo := [], doneSent := false,
                                 ackFailed := false, sent := 0, dropped := 0, pastUses := past, staged := [] }
  d.dropOpening o

/-- End an opening of any kind. -/
def Dev.endOpening (d : Dev) (m : Mem) (o : Opening) (status : Nat) : Dev :=
  if o.kind = 1 then d.endBucket m o status
  else
    let d := d.endUse m o status 0
    match d.openings.find? (fun x => x.same o) with
    | none => d
    | some x => d.putOpening { x with ended := true }

/-- Send ABORT and end the use (R291, R295). -/
def Dev.abortUse (d : Dev) (m : Mem) (o : Opening) (status : Nat) : Dev :=
  (d.each o.others (fun d r => d.control o opCOLL o.useSeq r 9 0 status [])).endUse m o status 0

/-! Opening (R269, R270). -/

/-- Words held in all. -/
def Dev.wordsUsed (d : Dev) : Nat := (d.openings.map (·.allocated)).sum
def Dev.wordsTotal (d : Dev) : Nat := 3932160 * d.enginesIn.length

/-- Field ranges of Table 9.1, and that what it names lies in the context's HBM. -/
def Dev.bucketOk (d : Dev) (c : Nat) (x : Desc) (members : Nat) : Bool :=
  let n := 4 * bElements x
  fb x 639 128 == 0 && fb x 24 2 == 0 && 1 ≤ bElements x && bElements x ≤ 16777216 && 1 ≤ bQuorum x && bQuorum x ≤ 65536
    && 1 ≤ bLead x && 1 ≤ bParts x && bParts x ≤ 64 && bPolicy x != 3
    && bSrc x % 256 == 0 && bDst x % 256 == 0 && bReady x % 64 == 0 && bRec x % 128 == 0 && bMask x % 256 == 0
    && (bSrc x + n ≤ bDst x || bDst x + n ≤ bSrc x)
    && d.engineMay c (bSrc x) n && d.engineMay c (bDst x) n && d.engineMay c (bReady x) (8 * bParts x)
    && d.engineMay c (bRec x) 128 && d.engineMay c (bMask x) (ceilDiv members 2048 * 256)

/-- The same for Table 9.8. -/
def Dev.exchangeOk (d : Dev) (c : Nat) (x : Desc) : Bool :=
  let rows := xSlots x * xCap x
  fb x 383 128 == 0 && !x.getLsbD 2 && 32 ≤ xRowBytes x && xRowBytes x % 32 == 0 && xRowBytes x ≤ 65504
    && 1 ≤ xExperts x && xExperts x ≤ 1024 && 1 ≤ xParts x && xParts x ≤ 64 && 1 ≤ xUses x
    && d.engineMay c (xReady x) (8 * xParts x) && d.engineMay c (xRec x) 32
    && (if xCombine x then d.engineMay c (xRows x) (rows * xRowBytes x) && d.engineMay c (xTag x) (8 * rows)
        else d.engineMay c (xList x) (4 * xEntries x) && d.engineMay c (xPlace x) (4 * xExperts x)
          && d.engineMay c (xRecv x) (rows * xRowBytes x) && d.engineMay c (xTag x) (8 * rows)
          && d.engineMay c (xRet x) (xEntries x * xRowBytes x) && d.engineMay c (xDrop x) (ceilDiv (xEntries x) 8))

/-- The pieces of a list. -/
def Dev.pieces (d : Dev) (m : Mem) (a n : Nat) : List Piece := (List.range n).map (fun i => pieceOf (peekLE m d (a + 32 * i) 32))
def outPieces (m : Mem) (d : Dev) (x : Desc) : List Piece := d.pieces m (pOut x) (pOutCount x)
def inPieces (m : Mem) (d : Dev) (x : Desc) : List Piece := d.pieces m (pIn x) (pInCount x)

def spansMeet (a n b k : Nat) : Bool := a < b + k && b < a + n && n != 0 && k != 0

/-- No two of the pieces overlap. -/
def disjointIn : List Piece → Bool
  | [] => true
  | p :: l => l.all (fun q => !spansMeet p.dst p.len q.dst q.len) && disjointIn l

/-- R295, with the ranges of Table 9.10. -/
def Dev.permuteOk (d : Dev) (m : Mem) (c : Nat) (x : Desc) (members : Nat) : Bool :=
  let outs := outPieces m d x
  let ins := inPieces m d x
  let fits := fun (p : Piece) => p.round < pRounds x && p.peer < members && p.len % 256 == 0
  fb x 767 128 == 0 && fb x 55 2 == 0
    && outs.all fits && ins.all fits
    && outs.all (fun p => d.engineMay c p.src p.len) && ins.all (fun p => d.engineMay c p.dst p.len)
    && disjointIn ins
    && ins.all (fun p => outs.all (fun q => q.round ≤ p.round || !spansMeet p.dst p.len q.src q.len))
    && (List.range (pRounds x)).all (fun r => ((outs.filter (fun p => p.round == r)).map (·.len)).sum ≤ 32 * 2 ^ 20)

def Dev.collBase (d : Dev) (c : Nat) : Nat := d.reg64 (Reg.ctxCollBaseLo c) % 2 ^ 41 / 128 * 128

/-- The own shard needs more words than the engines in service hold, or none is (R267, R280). -/
def Dev.wordsFit (d : Dev) (o : Opening) : Bool := !d.enginesIn.isEmpty && o.ownElements ≤ d.wordsTotal

/-- COLL_START or RESHARD_START taken at N in a slot with `evt` (R270): `kinds` are those the action opens. -/
def Dev.collOpen (d : Dev) (m : Mem) (c id n : Nat) (evt reshard : Bool) : Dev :=
  let d := match d.openOf c id with | some o => d.endOpening m o 7 | none => d
  let d := { d with openings := d.openings.filter (fun o => !(o.ctx == c && o.id == id && o.kind == 2)) }
  let d := d.bump Reg.collOpenings
  let a := d.collBase c + 128 * id
  let none_ : Opening := { ctx := c, id := id, kind := 1, desc := 0, seq := BitVec.ofNat 16 n, groupVer := 0, selfRank := 0,
                           members := [], evt := evt }
  if (d.reg (Reg.ctxCollSize c)).toNat ≤ id || !d.engineMay c a 128 then (d.bump Reg.collIncomplete).collEvent none_ 9
  else
    let x : Desc := BitVec.ofNat 1024 (peekLE m d a 128)
    let g := d.strata.groups.find? (fun g => g.ctx == c && g.id == descGroup x)
    let o := { none_ with kind := if descKind x = 0 then 1 else descKind x, desc := x,
                          groupVer := (g.map (·.ver)).getD 0, selfRank := (g.map (·.selfRank)).getD 0,
                          members := (g.map (·.members)).getD [] }
    let d := { d with openings := d.openings ++ [o] }
    let suits := if reshard then descKind x == 3 else descKind x == 1 || descKind x == 2
    if !suits then (d.bump Reg.collIncomplete).collEvent o 9 |>.closeOpening { o with kind := 1 }
    else if g.isNone || o.count ≤ o.selfRank || (o.kind = 1 && o.count ≤ bRoot x) then d.endOpening m o 6
    else if o.kind = 1 then
      if !d.cap 7 || (bStats x && !d.cap 8) || !d.bucketOk c x o.count || !d.wordsFit o then d.endBucket m o 9
      else
        let z := d.ctx c
        let d := d.setCtx c { z with collDone := z.collDone &&& ~~~(BitVec.ofNat 64 (2 ^ bStepBit x)),
                                     collFail := mdel z.collFail (bStepBit x) }
        d.engineWrite m c (bRec x) [0]
    else if o.kind = 2 then
      if !d.cap 9 || !d.exchangeOk c x then d.endOpening m o 9 else d
    else if d.enginesIn.isEmpty || !d.engineMay c (pRec x) 32 || !d.engineMay c (pOut x) (32 * pOutCount x)
        || !d.engineMay c (pIn x) (32 * pInCount x) then d.endOpening m o 9
    else if !d.permuteOk m c x o.count then d.abortUse m o 9
    else d.putOpening { o with useLt := d.lode.count }

/-- Drop every opening of a context without a record (Table 9.12); its words are free. -/
def Dev.collReset (d : Dev) (c : Nat) : Dev :=
  let d := d.retireTags (fun t => (t.purpose == .tokx || t.purpose == .permute) && t.a == c && !t.reserved)
  { d with openings := d.openings.filter (fun o => o.ctx != c),
           repeats := d.repeats.filter (fun r => r.pkt.ctx != c || !(r.pkt.opc == opCOLL || r.pkt.opc == opTOKX)) }

/-! The commit (R285). -/

/-- The status the lowest failing bit records. -/
def commitCode (s : Nat) : Nat := if s = 2 then 2 else if s = 3 then 3 else 4

/-- Evaluate the commit condition for step `arg`; whether it is met. -/
def Dev.commitEval (d : Dev) (c arg : Nat) : Dev × Bool :=
  let z := d.ctx c
  let req := BitVec.ofNat 64 (d.reg64 (Reg.ctxCollReqLo c))
  let fail := req &&& ~~~z.collClosed
  match (List.range 64).find? fail.getLsbD with
  | none =>
    let d := (d.setRegN (Reg.ctxCommit c) (1 * 2 ^ 28)).setRegN (Reg.ctxCommitStep c) arg
    let d := if d.rb (Reg.ctxCollCtrl c) 27 then d.each (d.tilesOf c) (fun d t => d.setSem t (d.rf (Reg.ctxCollCtrl c) 31 28) 0x108) else d
    (d.setCtx c { d.ctx c with collClosed := 0, collFail := [] }, true)
  | some b =>
    let s := commitCode (mget 4 z.collFail b)
    ((d.setRegN (Reg.ctxCommit c) (s * 2 ^ 28 + b * 2 ^ 22)).event [c] 0x0710 2 arg (b + s * 256) 0, false)

end Sys2Proof.Machine
end

