-- ==== Sys2Proof/Machine/Coll.lean ====
section
/-! DEFINITION. The commands of collectives (R271 to R274, R280 to R283, R288 to R297). -/

namespace Sys2Proof.Machine

/-! Owners (R280, R282). -/

/-- The owner's SHARD_DONE to every member, itself included. -/
def Dev.sendShardDone (d : Dev) (o : Opening) (s : ShardDone) : Dev :=
  let data := toLE 40 s.ssqC ++ toLE 40 s.ssqR ++ toLE 4 s.nonfinite ++ toLE 4 s.resInf
  d.each o.others (fun d r => d.control o opCOLL o.seq.toNat r 5 0 s.status data)

/-- Result of element `i` of the bucket. -/
def Opening.result (o : Opening) (c : Close) (i : Nat) : Nat :=
  if o.nans.contains i then 0x7FC00000
  else gridResult (gridExp c.expcode) (if bDiv o.desc then c.pop else 1) (mget 0 o.words i)

def Opening.resultBytes (o : Opening) (c : Close) (i : Nat) : List Byte :=
  ((List.range (o.chunkSize i)).map (fun j => toLE 4 (o.result c (64 * i + j)))).flatten

/-- Statistics and counts of the own shard (R282, R286). -/
def Opening.shardDone (o : Opening) (c : Close) : ShardDone :=
  let es := (List.range o.ownElements).map (· + 64 * o.own.1)
  let real := es.filter (fun i => !o.nans.contains i)
  let sum := fun (f : Nat → Nat) => if bStats o.desc then (real.map f).sum else 0
  { rank := o.selfRank, status := 1, ssqC := sum (fun i => mget 0 o.sqs i), ssqR := sum (fun i => (mget 0 o.words i).natAbs ^ 2),
    nonfinite := es.length - real.length, resInf := (real.filter (fun i => o.result c i % 2 ^ 31 = 0x7F800000)).length }

/-- Everything a bucket needs is here (R283). -/
def Opening.whole (o : Opening) : Bool :=
  o.complete && (List.range o.chunks).all o.results.contains
    && (List.range o.count).all (fun r => o.shards.any (fun s => s.rank == r && s.status == 1))

/-- Complete the bucket where everything is here; a record that has been written keeps its status (R274). -/
def Dev.tryComplete (d : Dev) (m : Mem) (c id : Nat) : Dev :=
  match d.openOf c id with
  | none => d
  | some o => if o.whole then d.endBucket m o 1 else d

/-- A RESULT chunk goes to its place in DST, unless the record says that DST is not written. -/
def Dev.takeResult (d : Dev) (m : Mem) (o : Opening) (i : Nat) (bs : List Byte) : Dev :=
  let d := if o.recorded then d else d.engineWrite m o.ctx (bDst o.desc + 256 * i) bs
  d.putOpening { o with results := i :: o.results, lastResult := d.lode.count }

def Dev.takeShardDone (d : Dev) (o : Opening) (s : ShardDone) : Dev :=
  d.putOpening { o with shards := o.shards.filter (fun x => x.rank != s.rank) ++ [s], lastResult := d.lode.count }

/-- Own RESULT chunks and SHARD_DONE. -/
def Dev.ownResults (d : Dev) (m : Mem) (o : Opening) (c : Close) : Dev :=
  let chunks := (List.range (o.own.2 - o.own.1)).map (· + o.own.1)
  let d := d.each chunks (fun d i => match d.openOf o.ctx o.id with | some x => d.takeResult m x i (x.resultBytes c i) | none => d)
  match d.openOf o.ctx o.id with | some x => d.takeShardDone x (x.shardDone c) | none => d

/-- Convert and send the shard once every contributor in the mask has delivered it (R282). -/
def Dev.tryConvert (d : Dev) (m : Mem) (c id : Nat) : Dev :=
  match d.openOf c id with
  | none => d
  | some o =>
    match o.close with
    | none => d
    | some k =>
      let chunks := (List.range (o.own.2 - o.own.1)).map (· + o.own.1)
      if o.shardSent || k.status != 1 || !o.hasWords || o.engineLost
          || !(o.maskRanks.all (fun r => chunks.all (fun i => o.receipts.contains (r * 2 ^ 18 + i)))) then d
      else
        let o := { o with shardSent := true, shardSentLt := d.lode.count }
        let d := d.putOpening o
        let d := d.each chunks (fun d i =>
          d.each o.others (fun d r => d.sendPacket (d.collPacket o opCOLL o.seq.toNat r 4 i 0 (o.resultBytes k i))))
        let d := d.sendShardDone o (o.shardDone k)
        (d.ownResults m o k).tryComplete m c id

/-- Quantise chunk `i` of rank `r` under `code` onto the own words (R276, R279, R280). -/
def Opening.accumulate (o : Opening) (r i code : Nat) (vs : List Val) : Opening :=
  let eb := gridExp code
  let o := { o with receipts := (r * 2 ^ 18 + i) :: o.receipts }
  ((vs.take (o.chunkSize i)).zipIdx).foldl (fun (o : Opening) x =>
    let e := 64 * i + x.2
    match quantise eb x.1 with
    | none => { o with nans := if o.nans.contains e then o.nans else e :: o.nans }
    | some q => { o with words := mset o.words e (signed 128 (unsigned 128 (mget 0 o.words e + q))),
                         sqs := mset o.sqs e (mget 0 o.sqs e + q.natAbs ^ 2) }) o

/-- The engines that hold a run of the own shard: runs of chunks in engine order (R280). -/
def Opening.runEngines (o : Opening) (es : List Nat) : List Nat :=
  let n := o.own.2 - o.own.1
  (es.zipIdx).filterMap (fun x => if x.2 * n / es.length < (x.2 + 1) * n / es.length then some x.1 else none)

/-- Allocate the words of the own shard, whole; false: too few are free. -/
def Dev.allocate (d : Dev) (c id : Nat) : Dev × Bool :=
  match d.openOf c id with
  | none => (d, true)
  | some o =>
    if o.hasWords then (d, true)
    else if d.wordsTotal < d.wordsUsed + o.ownElements then (d.bump Reg.collWordWait, false)
    else (d.putOpening { o with hasWords := true, allocated := o.ownElements, engines := o.runEngines d.enginesIn }, true)

/-- Own chunks go straight to the own engines. -/
def Dev.ownChunks (d : Dev) (m : Mem) (c id : Nat) : Dev :=
  match d.openOf c id with
  | none => d
  | some o =>
    if o.ownDone || !o.hasWords || !o.complete || !o.inMask o.selfRank then d
    else
      let code := match o.close with | some k => k.expcode | none => 0
      let d := d.putOpening { o with ownDone := true }
      d.each ((List.range (o.own.2 - o.own.1)).map (· + o.own.1)) (fun d i =>
        let (d, bs) := d.engineRead m c (bSrc o.desc + 256 * i) (4 * o.chunkSize i)
        match bs, d.openOf c id with
        | some bs, some o => d.putOpening (o.accumulate o.selfRank i code (fp32s bs))
        | _, _ => d)

/-- Send chunk `i` of SRC to its owner; a chunk that cannot be read is not sent. -/
def Dev.sendChunk (d : Dev) (m : Mem) (o : Opening) (code i : Nat) : Dev :=
  let (d, bs) := d.engineRead m o.ctx (bSrc o.desc + 256 * i) (4 * o.chunkSize i)
  match bs with
  | some bs => d.sendPacket (d.collPacket o opCOLL o.seq.toNat (o.ownerOf i) 3 i code bs)
  | none => d

/-- CLOSE is held (R274): MASK, the CLOSED bit, the data pass; a status other than COMPLETE ends the bucket. -/
def Dev.holdClose (d : Dev) (m : Mem) (o : Opening) (k : Close) (mask : List Byte) : Dev :=
  let d := d.engineWrite m o.ctx (bMask o.desc) mask
  let o := { o with close := some k, mask := mask, closeLt := d.lode.count, lastData := d.lode.count, lastResult := d.lode.count }
  let d := d.putOpening o
  let z := d.ctx o.ctx
  let bit := bStepBit o.desc
  if k.status != 1 then
    let d := if o.recorded then d else d.setCtx o.ctx { z with collFail := mset z.collFail bit k.status }
    d.endBucket m o k.status
  else
    let d := d.setCtx o.ctx { z with collClosed := z.collClosed ||| BitVec.ofNat 64 (2 ^ bit) }
    let d := if o.inMask o.selfRank then
        d.each ((List.range o.chunks).filter (fun i => i < o.own.1 || o.own.2 ≤ i)) (fun d i => d.sendChunk m o k.expcode i)
      else d
    let (d, _) := d.allocate o.ctx o.id
    (d.ownChunks m o.ctx o.id).tryConvert m o.ctx o.id

/-! The root (R273). -/

/-- Ranks of the tree children. -/
def Opening.children (o : Opening) : List Nat :=
  let root := bRoot o.desc
  let i := (o.selfRank + o.count - root) % o.count
  ([2 * i + 1, 2 * i + 2].filter (· < o.count)).map (fun j => (root + j) % o.count)

/-- The bytes of a mask segment. -/
def maskSegment (ranks : List Nat) (i : Nat) : List Byte :=
  (List.range 256).map (fun b => BitVec.ofNat 8 ((List.range 8).foldl (fun a j =>
    a + if ranks.contains (2048 * i + 8 * b + j) then 2 ^ j else 0) 0))

/-- The root closes: mask, P, E_b, status; CLOSE to its children and itself. -/
def Dev.rootClose (d : Dev) (m : Mem) (o : Opening) : Dev :=
  let x := o.desc
  let kept := o.reports.filter (fun r => !(bPolicy x == 1 && r.nonfin))
  let ranks := kept.map (·.rank)
  let p := ranks.length
  let code := kept.foldl (fun a r => max a r.expcode) 0
  let status := if bPolicy x == 2 && o.reports.any (·.nonfin) then 3 else if p < bQuorum x || p = 0 then 2 else 1
  let o := { o with rootClosed := true, exclNonfin := o.reports.length - p }
  let d := d.putOpening o
  let segs := ((List.range o.segCount).map (fun i => (i, maskSegment ranks i))) ++ [(32, toLE 256 p)]
  let d := d.each o.children (fun d r => d.each segs (fun d s => d.control o opCOLL o.seq.toNat r 2 s.1 (code + status * 2 ^ 9) s.2))
  d.holdClose m o { expcode := code, status := status, pop := p, lt := d.lode.count }
    (((List.range o.segCount).map (maskSegment ranks)).flatten)

/-- N of the ARMED BUCKET_DEADLINE slot of a bucket, the earliest if several. -/
def Dev.deadlineOf (d : Dev) (c id : Nat) : Option Nat :=
  let ns := (d.cairns.filter (fun s => s.1 / 64 == c && s.2.state == .armed && s.2.action == 4 && s.2.arg.toNat == id)).map
    (fun s => s.2.lt.toNat)
  ns.foldl (fun (a : Option Nat) n => match a with | none => some n | some x => some (min x n)) none

/-- The edge of N − LEAD has come. -/
def Dev.closeDue (d : Dev) (o : Opening) : Bool :=
  o.deadline || (match d.deadlineOf o.ctx o.id with | some n => n ≤ d.now + bLead o.desc | none => false)

/-- A report reaches the root (R273). -/
def Dev.takeReport (d : Dev) (m : Mem) (o : Opening) (r : Report) : Dev :=
  if o.reports.any (fun x => x.rank == r.rank) || o.late.contains r.rank then d
  else if o.rootClosed || d.closeDue o then (d.putOpening { o with late := r.rank :: o.late }).bump Reg.collReportsLate
  else
    let o := { o with reports := o.reports ++ [r] }
    let d := d.putOpening o
    if o.reports.length = o.count then d.rootClose m o else d

/-! Bucket commands. -/

/-- READY_POLL (R271, R290): the ready array of an open bucket, or of the next use of a token exchange. -/
def xReadyPoll (c id : Nat) : Effect := fun m d =>
  match d.openOf c id with
  | none => d
  | some o =>
    if o.ready || o.kind = 3 then d
    else
      let n := 8 * descParts o.desc
      let (d, bs) := (d.quarry (descReady o.desc) n).engineRead m c (descReady o.desc) n
      match bs with
      | none => d
      | some bs => if (chunk 8 (descParts o.desc) bs).all (fun e => leOf e != 0) then d.putOpening { o with ready := true } else d

/-- BUCKET_SCAN_COMPLETE (R272): a source that cannot be read gives no report (log entry 46). -/
def xBucketScanComplete (c id : Nat) : Effect := fun m d =>
  match d.openOf c id with
  | none => d
  | some o =>
    if o.kind != 1 || !o.ready || o.reported then d
    else
      let (d, bs) := d.engineRead m c (bSrc o.desc) (4 * bElements o.desc)
      match bs with
      | none => d
      | some bs =>
        let (code, nonfin) := scanOf (fp32s bs)
        let o := { o with reported := true }
        let d := d.putOpening o
        if o.deadline then d
        else if o.selfRank == bRoot o.desc then d.takeReport m o { rank := o.selfRank, expcode := code, nonfin := nonfin }
        else d.control o opCOLL o.seq.toNat (bRoot o.desc) 1 0 (code + if nonfin then 2 ^ 9 else 0) []

/-- BUCKET_CLOSE (R273): the edge of N − LEAD at the root. -/
def xBucketClose (c id : Nat) : Effect := fun m d =>
  match d.openOf c id with
  | none => d
  | some o => if o.kind = 1 && o.selfRank == bRoot o.desc && !o.rootClosed && d.closeDue o then d.rootClose m o else d

/-- BUCKET_DEADLINE taken (R274): a member without CLOSE ends its record CLOSE_MISSING and still takes its part. -/
def Dev.bucketDeadline (d : Dev) (m : Mem) (c id : Nat) : Dev :=
  match d.openOf c id with
  | none => d
  | some o =>
    if o.kind != 1 then d
    else
      let o := { o with deadline := true }
      let d := d.putOpening o
      if o.close.isSome then d
      else
        let z := d.ctx c
        (d.setCtx c { z with collFail := mset z.collFail (bStepBit o.desc) 4 }).bucketEnds m o 4

/-- A collective packet of TYPE `ty` for the open opening, or discarded (R288). -/
def Dev.collTake (d : Dev) (k : Packet) (op ty : Nat) (f : Dev → Opening → Dev) : Dev :=
  if k.opc != op || kType k != ty then d
  else d.checked k (fun d =>
    match d.openOf k.ctx (kId k) with
    | some o =>
      if (if o.kind = 2 then o.useSeq else o.seq.toNat) == kSeq k && kRank k < o.count then f d o
      else (d.taken k).bump Reg.collStaleDrop
    | none => (d.taken k).bump Reg.collStaleDrop)

/-- COLL_REPORT (R273). -/
def xCollReport (k : Packet) : Effect := fun m d => d.collTake k opCOLL 1 (fun d o =>
  let d := d.taken k
  if o.kind = 1 && o.selfRank == bRoot o.desc then
    d.takeReport m o { rank := kRank k, expcode := kAux k % 512, nonfin := (kAux k).testBit 9 }
  else d)

/-- COLL_CLOSE (R273, R274): a segment is stored and forwarded; a CLOSE that finds too few words free waits (R280). -/
def xCollClose (k : Packet) : Effect := fun m d => d.collTake k opCOLL 2 (fun d o =>
  let i := kIndex k
  let status := fld (kAux k) 12 9
  if o.kind != 1 || (mfind o.segs i).isSome || o.rootClosed then d.taken k
  else
    let (d, room) := if status = 1 then d.allocate o.ctx o.id else (d, true)
    if !room then d
    else
      let d := d.taken k
      match d.openOf o.ctx o.id with
      | none => d
      | some o =>
        let o := { o with segs := mset o.segs i k.data }
        let d := d.putOpening o
        let d := d.each o.children (fun d r => d.control o opCOLL o.seq.toNat r 2 i (kAux k) k.data)
        match mfind o.segs 32 with
        | none => d
        | some p =>
          if o.close.isSome || !((List.range o.segCount).all (fun j => (mfind o.segs j).isSome)) then d
          else d.holdClose m o { expcode := kAux k % 512, status := status, pop := leOf (p.take 4), lt := 0 }
            (((List.range o.segCount).map (fun j => mget [] o.segs j)).flatten))

/-- COLL_DATA (R280). -/
def xCollData (k : Packet) : Effect := fun m d => d.collTake k opCOLL 3 (fun d o =>
  let i := kIndex k
  let r := kRank k
  if o.kind != 1 || i < o.own.1 || o.own.2 ≤ i || o.receipts.contains (r * 2 ^ 18 + i) || o.shardSent
      || (o.close.isSome && !o.inMask r) then d.taken k
  else
    let (d, room) := d.allocate o.ctx o.id
    if !room then d
    else
      let d := d.taken k
      match d.openOf o.ctx o.id with
      | none => d
      | some o =>
        let d := d.putOpening { (o.accumulate r i (kAux k % 512) (fp32s k.data)) with lastData := d.lode.count }
        d.tryConvert m o.ctx o.id)

/-- COLL_RESULT (R282). -/
def xCollResult (k : Packet) : Effect := fun m d => d.collTake k opCOLL 4 (fun d o =>
  let d := d.taken k
  if o.kind != 1 || !o.complete || o.chunks ≤ kIndex k || o.results.contains (kIndex k) then d
  else (d.takeResult m o (kIndex k) (k.data.take (4 * o.chunkSize (kIndex k)))).tryComplete m o.ctx o.id)

/-- COLL_SHARD_DONE (R283). -/
def xCollShardDone (k : Packet) : Effect := fun m d => d.collTake k opCOLL 5 (fun d o =>
  let d := d.taken k
  if o.kind != 1 || !o.complete || o.shards.any (fun s => s.rank == kRank k && s.status == 1) then d
  else
    let b := fun (i n : Nat) => leOf ((k.data.drop i).take n)
    (d.takeShardDone o { rank := kRank k, status := kAux k % 16, ssqC := b 0 40, ssqR := b 40 40, nonfinite := b 80 4,
                         resInf := b 84 4 }).tryComplete m o.ctx o.id)

/-- COLL_RESEND (R281): answered from SRC while the bucket is open, from the owner's words while they are held. A RESEND of
results brings SHARD_DONE as well (log entry 47). -/
def xCollResend (k : Packet) : Effect := fun m d =>
  if k.opc != opCOLL || kType k != 6 then d
  else d.checked k (fun d =>
    let d := d.taken k
    match d.openings.find? (fun o => o.ctx == k.ctx && o.id == kId k && o.seq.toNat == kSeq k && o.kind == 1 &&
        (!o.ended || o.hasWords) && kRank k < o.count) with
    | none => d.bump Reg.collStaleDrop
    | some o =>
      let n := fld (kAux k) 18 1
      let run := (List.range n).map (· + kIndex k)
      match o.close with
      | none => d
      | some c =>
        if c.status != 1 then d
        else if kAux k % 2 = 0 then
          if o.ended || !o.inMask o.selfRank then d
          else (d.each (run.filter (fun i => i < o.chunks && o.ownerOf i == kRank k)) (fun d i => d.sendChunk m o c.expcode i)).bump
            Reg.collResends
        else if !o.shardSent || !o.hasWords then d
        else
          let d := d.each (run.filter (fun i => o.own.1 ≤ i && i < o.own.2)) (fun d i =>
            d.sendPacket (d.collPacket o opCOLL o.seq.toNat (kRank k) 4 i 0 (o.resultBytes c i)))
          let s := o.shardDone c
          (d.control o opCOLL o.seq.toNat (kRank k) 5 0 1
            (toLE 40 s.ssqC ++ toLE 40 s.ssqR ++ toLE 4 s.nonfinite ++ toLE 4 s.resInf)).bump Reg.collResends)

/-- The first run of the numbers that are missing: where it begins and how long it is. -/
def firstRun (l : List Nat) : Option (Nat × Nat) :=
  match l with
  | [] => none
  | a :: _ => some (a, (l.zipIdx.takeWhile (fun x => x.1 == a + x.2)).length)

/-- RESEND_TIMER (R281): the missing run of each contributor, of each owner. -/
def xResendTimer (c id : Nat) : Effect := fun _ d =>
  match d.openOf c id with
  | none => d
  | some o =>
    let q := d.rf (Reg.ctxCollCtrl c) 26 19
    if o.kind != 1 || !o.complete then d
    else
      let own := (List.range (o.own.2 - o.own.1)).map (· + o.own.1)
      let d := if o.shardSent || o.engineLost || d.now < o.lastData.toNat + q then d
        else (d.each (o.maskRanks.filter (· != o.selfRank)) (fun d r =>
          match firstRun (own.filter (fun i => !o.receipts.contains (r * 2 ^ 18 + i))) with
          | some (a, n) => d.control o opCOLL o.seq.toNat r 6 a (2 * n) []
          | none => d)).putOpening { o with lastData := d.lode.count }
      if d.now < o.lastResult.toNat + q then d
      else
        let d := d.each o.others (fun d r =>
          let miss := ((List.range (o.shardAt (r + 1) - o.shardAt r)).map (· + o.shardAt r)).filter (fun i => !o.results.contains i)
          match firstRun miss with
          | some (a, n) => d.control o opCOLL o.seq.toNat r 6 a (2 * n + 1) []
          | none => if o.shards.any (fun s => s.rank == r) then d else d.control o opCOLL o.seq.toNat r 6 (o.shardAt r) 1 [])
        match d.openOf c id with
        | some o => d.putOpening { o with lastResult := d.lode.count }
        | none => d

/-- WORD_FREE (R280): DATA_LIMIT lt after the shard's SHARD_DONE; openings that waited for words take theirs. -/
def xWordFree (c id : Nat) (seq : BitVec 16) : Effect := fun m d =>
  match d.openings.find? (fun o => o.ctx == c && o.id == id && o.seq == seq && o.hasWords && o.shardSent) with
  | none => d
  | some o =>
    if d.now < o.shardSentLt.toNat + d.rf (Reg.ctxCollCtrl c) 18 3 then d
    else
      let o := { o with hasWords := false, allocated := 0, words := [], sqs := [] }
      let d := (d.putOpening o).dropOpening o
      d.each (d.openings.filter (fun x => x.kind == 1 && !x.ended && x.complete && !x.hasWords && !x.shardSent)) (fun d x =>
        let (d, _) := d.allocate x.ctx x.id
        (d.ownChunks m x.ctx x.id).tryConvert m x.ctx x.id)

/-- CONTROL_PACKET_REPEAT (R289). -/
def xControlPacketRepeat : Effect := fun _ d =>
  let due := d.repeats.filter (fun r => r.at_.toNat ≤ d.now)
  let rest := d.repeats.filter (fun r => d.now < r.at_.toNat)
  let again := (due.filter (fun r => 1 < r.left)).map (fun r => { r with at_ := r.at_ + 1, left := r.left - 1 })
  ({ d with repeats := rest ++ again }).each due (fun d r => d.sendPacket r.pkt)

/-! Token exchange. -/

/-- The route list: (row, expert) by entry. -/
def routeList (m : Mem) (d : Dev) (x : Desc) : List (Nat × Nat) :=
  (List.range (xEntries x)).map (fun j => let v := peekLE m d (xList x + 4 * j) 4; (fld v 31 10, fld v 9 0))

/-- Where an expert is placed: (rank, slot). -/
def expertPlace (m : Mem) (d : Dev) (o : Opening) (e : Nat) : Option (Nat × Nat) :=
  let v := peekLE m d (xPlace o.desc + 4 * e) 4
  if e < xExperts o.desc && v.testBit 31 && fld v 15 0 < o.count && fld v 21 16 < xSlots o.desc then some (fld v 15 0, fld v 21 16)
  else none

def placementCrc (m : Mem) (d : Dev) (x : Desc) : Nat := crc32 (peekN m d (xPlace x) (4 * xExperts x))

/-- The own entries for (rank, slot), by entry number, in order. -/
def entriesFor (l : List (Option (Nat × Nat) × Nat)) (r s : Nat) : List Nat := (l.filter (fun e => e.1 == some (r, s))).map (·.2)

/-- DONE to every member once all rows are sent and acknowledged; the use is complete with DONE from every member (R292). -/
def Dev.tokxAdvance (d : Dev) (m : Mem) (c id : Nat) : Dev :=
  match d.openOf c id with
  | none => d
  | some o =>
    if o.kind != 2 || !o.begun then d
    else
      let d := if o.doneSent || o.ackFailed || !((List.range o.count).all o.rowsTo.contains) || d.outstanding .tokx c id then d
        else (d.each o.others (fun d r => d.control o opTOKX o.useSeq r 3 0 0 [])).putOpening
          { o with doneSent := true, dones := (o.use * 65536 + o.selfRank) :: o.dones }
      match d.openOf c id with
      | none => d
      | some o =>
        if o.doneSent && (List.range o.count).all (fun r => o.dones.contains (o.use * 65536 + r)) then
          d.endUse m o 1 (d.received o)
        else d

/-- Write bytes at a local offset of member `r`. -/
def Dev.memberWrite (d : Dev) (m : Mem) (o : Opening) (r off : Nat) (bs : List Byte) (u : Purpose) : Dev :=
  let node := (o.members.getD r 0).toNat
  if node = d.node then d.engineWrite m o.ctx off bs else d.fabWrite o.ctx (node * 2 ^ 41 + off) bs u o.ctx o.id 0

/-- Rows and tags to rank `r`, once its offsets and its RECV are held (R291, R292). -/
def Dev.sendRows (d : Dev) (m : Mem) (o : Opening) (r : Nat) : Dev :=
  match mfind o.offsets r, mfind o.recvBase r with
  | some offs, some base =>
    if o.rowsTo.contains r then d
    else
      let x := o.desc
      let list := routeList m d x
      let placed := (list.zipIdx).map (fun e => (expertPlace m d o e.1.2, e.2))
      let d := d.putOpening { o with rowsTo := r :: o.rowsTo }
      d.each (List.range (xSlots x)) (fun d s =>
        d.each ((entriesFor placed r s).zipIdx) (fun d e =>
          let j := e.1
          let at_ := offs.getD s 0 + e.2
          let upd := fun (d : Dev) (f : Opening → Opening) => match d.openOf o.ctx o.id with | some o => d.putOpening (f o) | none => d
          if xCap x ≤ at_ then
            let b := xDrop x + j / 8
            let d := d.engineWrite m o.ctx b [peek m d b ||| BitVec.ofNat 8 (2 ^ (j % 8))]
            let d := d.engineWrite m o.ctx (xRet x + j * xRowBytes x) (List.replicate (xRowBytes x) 0)
            (upd d (fun o => { o with dropped := o.dropped + 1 })).bump Reg.collTokxDropped
          else
            let (d, bs) := d.engineRead m o.ctx (xRows x + (list.getD j (0, 0)).1 * xRowBytes x) (xRowBytes x)
            match bs with
            | none => upd d (fun o => { o with ackFailed := true })
            | some bs =>
              let d := d.memberWrite m o r (base + (s * xCap x + at_) * xRowBytes x) bs .tokx
              let d := d.memberWrite m o r (xTag x + 8 * (s * xCap x + at_)) (toLE 8 (o.selfRank * 2 ^ 32 + j)) .tokx
              upd d (fun o => { o with sent := o.sent + 1 })))
  | _, _ => d

/-- Offsets to every source once every COUNT is held, none of another placement (R291). -/
def Dev.countsHeld (d : Dev) (m : Mem) (c id : Nat) : Dev :=
  match d.openOf c id with
  | none => d
  | some o =>
    if o.kind != 2 || !o.begun || xCombine o.desc then d
    else
      let now := o.counts.filter (fun y => y.use == o.use)
      let crc := placementCrc m d o.desc
      if now.any (fun y => y.crc.toNat != crc) then d.abortUse m o 8
      else if o.offsetsSent || !((List.range o.count).all (fun r => now.any (fun y => y.rank == r))) then d
      else
        let offs := fun (r : Nat) => (List.range 64).map (fun s =>
          ((now.filter (fun y => y.rank < r)).map (fun y => y.counts.getD s 0)).sum)
        let d := d.each o.others (fun d r =>
          let d := d.control o opTOKX o.useSeq r 2 0 0 (((offs r).map (toLE 4)).flatten)
          d.control o opTOKX o.useSeq r 2 1 0 (toLE 8 (xRecv o.desc)))
        let o := { o with offsetsSent := true, offsets := mset o.offsets o.selfRank (offs o.selfRank),
                          recvBase := mset o.recvBase o.selfRank (xRecv o.desc) }
        ((d.putOpening o).sendRows m o o.selfRank).tokxAdvance m c id

/-- A COMBINE use (R293): each row goes back to the source and entry its tag names. -/
def Dev.combineStart (d : Dev) (m : Mem) (o : Opening) : Dev :=
  let x := o.desc
  match d.openings.find? (fun p => p.ctx == o.ctx && p.id == xPair x && p.kind == 2 && !xCombine p.desc &&
      (mfind p.pastUses o.use).isSome) with
  | none => d.endUse m o 9 0
  | some p =>
    let counts := p.counts.filter (fun y => y.use == o.use)
    let d := d.putOpening { o with rowsTo := List.range o.count }
    let d := d.each (List.range (xSlots x)) (fun d s =>
      d.each (List.range (min (xCap x) ((counts.map (fun y => y.counts.getD s 0)).sum))) (fun d i =>
        let n := s * xCap x + i
        let (d, tag) := d.engineRead m o.ctx (xTag x + 8 * n) 8
        let (d, bs) := d.engineRead m o.ctx (xRows x + n * xRowBytes x) (xRowBytes x)
        let upd := fun (d : Dev) (f : Opening → Opening) => match d.openOf o.ctx o.id with | some o => d.putOpening (f o) | none => d
        match tag, bs with
        | some tag, some bs =>
          let v := leOf tag
          let ret := match counts.find? (fun y => y.rank == fld v 47 32) with | some y => y.ret.toNat | none => 0
          upd (d.memberWrite m o (fld v 47 32) (ret + fld v 31 0 * xRowBytes x) bs .tokx) (fun o => { o with sent := o.sent + 1 })
        | _, _ => upd d (fun o => { o with ackFailed := true })))
    d.tokxAdvance m o.ctx o.id

/-- TOKX_USE_START (R290, R291, R293, R294). -/
def xTokxUseStart (c id : Nat) : Effect := fun m d =>
  match d.openOf c id with
  | none => d
  | some o =>
    if o.kind != 2 || !o.ready || o.begun then d
    else
      let o := { o with begun := true, useLt := d.lode.count }
      let d := (d.putOpening o).bump Reg.collOpenings
      let x := o.desc
      if xCombine x then d.combineStart m o
      else
        let placed := ((routeList m d x).zipIdx).map (fun e => (expertPlace m d o e.1.2, e.2))
        let counts := fun (r : Nat) => (List.range 64).map (fun s => (entriesFor placed r s).length)
        if placed.any (fun e => e.1.isNone) || (List.range o.count).any (fun r => (counts r).any (fun n => 65535 < n)) then
          d.endUse m o 9 0
        else
          let crc := placementCrc m d x
          let d := d.each o.others (fun d r =>
            d.control o opTOKX o.useSeq r 1 0 0 (((counts r).map (toLE 2)).flatten ++ toLE 8 (xRet x) ++ toLE 4 crc))
          let own : CountIn := { use := o.use, rank := o.selfRank, counts := counts o.selfRank, ret := BitVec.ofNat 64 (xRet x),
                                 crc := BitVec.ofNat 32 crc }
          (d.putOpening { o with counts := o.counts ++ [own] }).countsHeld m c id

/-- TOKX_COUNT (R291): a COUNT of a later use is held for it (log entry 48). -/
def xTokxCount (k : Packet) : Effect := fun m d =>
  if k.opc != opTOKX || kType k != 1 then d
  else d.checked k (fun d =>
    let d := d.taken k
    match d.openOf k.ctx (kId k) with
    | none => d.bump Reg.collStaleDrop
    | some o =>
      let u := (kSeq k + 65536 - o.seq.toNat) % 65536
      if o.kind != 2 || xUses o.desc ≤ u || u < o.use || o.count ≤ kRank k then d.bump Reg.collStaleDrop
      else if o.counts.any (fun y => y.use == u && y.rank == kRank k) then d
      else
        let y : CountIn := { use := u, rank := kRank k, counts := (List.range 64).map (fun s => leOf ((k.data.drop (2 * s)).take 2)),
                             ret := BitVec.ofNat 64 (leOf ((k.data.drop 128).take 8)),
                             crc := BitVec.ofNat 32 (leOf ((k.data.drop 136).take 4)) }
        (d.putOpening { o with counts := o.counts ++ [y] }).countsHeld m o.ctx o.id)

/-- TOKX_OFFSET (R291). -/
def xTokxOffset (k : Packet) : Effect := fun m d => d.collTake k opTOKX 2 (fun d o =>
  let d := d.taken k
  if o.kind != 2 || !o.begun then d
  else
    let r := kRank k
    let o := if kIndex k = 0 then { o with offsets := mset o.offsets r ((List.range 64).map (fun s => leOf ((k.data.drop (4 * s)).take 4))) }
      else { o with recvBase := mset o.recvBase r (leOf (k.data.take 8) % 2 ^ 41) }
    ((d.putOpening o).sendRows m o r).tokxAdvance m o.ctx o.id)

/-- TOKX_DONE (R292). -/
def xTokxDone (k : Packet) : Effect := fun m d => d.collTake k opTOKX 3 (fun d o =>
  let d := d.taken k
  let e := o.use * 65536 + kRank k
  if o.kind != 2 || o.dones.contains e then d
  else (d.putOpening { o with dones := e :: o.dones }).tokxAdvance m o.ctx o.id)

/-- COLL_ABORT (R291, R295): the opening or use ends with the status carried; PEER_ABORT for one Table 9.6 has not. -/
def xCollAbort (k : Packet) : Effect := fun m d => d.collTake k opCOLL 9 (fun d o =>
  let st := kAux k % 16
  let st := if 2 ≤ st && st ≤ 0xA then st else 0xA
  if o.kind = 1 then (d.taken k).endBucket m o st else (d.taken k).endUse m o st 0)

/-! Re-shard (R296). -/

/-- Distinct peers of the pieces of a round, itself left out. -/
def peersOf (l : List Piece) (r self : Nat) : List Nat :=
  (((l.filter (fun p => p.round == r)).map (·.peer)).dedup).filter (· != self)

/-- Write the round's pieces once every receiver has said GO; PDONE once they are acknowledged; then the next round. -/
def Dev.permuteAdvance (d : Dev) (m : Mem) (c id : Nat) : Dev :=
  match d.openOf c id with
  | none => d
  | some o =>
    if o.kind != 3 then d
    else
      let outs := outPieces m d o.desc
      let ins := inPieces m d o.desc
      let peers := peersOf outs o.round o.selfRank
      let d := if o.written || !o.readDone || !(peers.all (fun p => o.goes.contains (o.round * 65536 + p))) then d
        else
          let mine := (outs.zipIdx).filter (fun p => p.1.round == o.round)
          let d := d.putOpening { o with written := true, sent := o.sent + ((mine.map (fun p => p.1.len)).sum) / 256 }
          d.each mine (fun d p => (d.memberWrite m o p.1.peer p.1.dst (mget [] o.staged p.2) .permute).bumpN
            Reg.collReshardBytes p.1.len)
      match d.openOf c id with
      | none => d
      | some o =>
        if o.written && !o.ackFailed && !d.outstanding .permute c id then
          let d := d.each peers (fun d r => d.control o opCOLL o.seq.toNat r 8 o.round 0 [])
          let o := { o with round := o.round + 1, readDone := false, written := false, staged := [] }
          let d := d.putOpening o
          if pRounds o.desc ≤ o.round && ins.all (fun p => p.peer == o.selfRank || o.pdones.contains (p.round * 65536 + p.peer)) then
            d.endUse m o 1 (((ins.map (·.len)).sum) / 256)
          else d
        else d

/-- The re-shard is complete where every round is (R296). -/
def Dev.permuteDone (d : Dev) (m : Mem) (c id : Nat) : Dev :=
  match d.openOf c id with
  | none => d
  | some o =>
    let ins := inPieces m d o.desc
    if o.kind = 3 && pRounds o.desc ≤ o.round
        && ins.all (fun p => p.peer == o.selfRank || o.pdones.contains (p.round * 65536 + p.peer)) then
      d.endUse m o 1 (((ins.map (·.len)).sum) / 256)
    else d

/-- PERMUTE_ROUND_READ_COMPLETE (R296): the round's sources are read, GO goes to the senders of its IN pieces. -/
def xPermuteRoundReadComplete (c id : Nat) : Effect := fun m d =>
  match d.openOf c id with
  | none => d
  | some o =>
    if o.kind != 3 || o.readDone || pRounds o.desc ≤ o.round then d
    else
      let mine := ((outPieces m d o.desc).zipIdx).filter (fun p => p.1.round == o.round)
      let (d, staged) := mine.foldl (fun (acc : Dev × Option (Map (List Byte))) p =>
        match acc.2 with
        | none => acc
        | some st =>
          let (d, bs) := acc.1.engineRead m c p.1.src p.1.len
          (d, bs.map (fun b => mset st p.2 b))) (d, some [])
      match staged with
      | none => d
      | some st =>
        let d := d.putOpening { o with readDone := true, staged := st }
        let d := d.each (peersOf (inPieces m d o.desc) o.round o.selfRank) (fun d r => d.control o opCOLL o.seq.toNat r 7 o.round 0 [])
        d.permuteAdvance m c id

/-- COLL_GO (R296). -/
def xCollGo (k : Packet) : Effect := fun m d => d.collTake k opCOLL 7 (fun d o =>
  let d := d.taken k
  let e := kIndex k * 65536 + kRank k
  if o.kind != 3 || o.goes.contains e then d else (d.putOpening { o with goes := e :: o.goes }).permuteAdvance m o.ctx o.id)

/-- COLL_PDONE (R296). -/
def xCollPdone (k : Packet) : Effect := fun m d => d.collTake k opCOLL 8 (fun d o =>
  let d := d.taken k
  let e := kIndex k * 65536 + kRank k
  if o.kind != 3 || o.pdones.contains e then d else (d.putOpening { o with pdones := e :: o.pdones }).permuteDone m o.ctx o.id)

/-- DATA_LIMIT_EXPIRY (R281, R294, R296). -/
def xDataLimitExpiry (c id : Nat) : Effect := fun m d =>
  match d.openOf c id with
  | none => d
  | some o =>
    let n := d.rf (Reg.ctxCollCtrl c) 18 3
    if o.kind = 1 then
      if !o.complete || d.now < o.closeLt.toNat + n then d
      else
        let d := if o.shardSent then d
          else
            let s : ShardDone := { rank := o.selfRank, status := 5, ssqC := 0, ssqR := 0, nonfinite := 0, resInf := 0 }
            (d.putOpening { o with shardSent := true, shardSentLt := d.lode.count }).sendShardDone o s
        match d.openOf c id with
        | some o => d.endBucket m o 5
        | none => d
    else if (o.kind = 2 && !o.begun) || d.now < o.useLt.toNat + n then d
    else d.endUse m o 5 0

/-- A fabric write of an exchange or a re-shard has been answered. -/
def Dev.collWritten (d : Dev) (m : Mem) (t : Tag) (ok : Bool) : Dev :=
  let d := if ok then d else match d.openOf t.a t.b with | some o => d.putOpening { o with ackFailed := true } | none => d
  if t.purpose == .tokx then d.tokxAdvance m t.a t.b else d.permuteAdvance m t.a t.b

/-! One meaning per command. -/

def execReadyPoll (c : Fin 64) (id : BitVec 16) (s : State) : Host.Outcome State Fault Refusal := s.run (xReadyPoll c.val id.toNat)
def execBucketScanComplete (c : Fin 64) (id : BitVec 16) (s : State) : Host.Outcome State Fault Refusal :=
  s.run (xBucketScanComplete c.val id.toNat)
def execBucketClose (c : Fin 64) (id : BitVec 16) (s : State) : Host.Outcome State Fault Refusal :=
  s.run (xBucketClose c.val id.toNat)
def execCollReport (k : Packet) (s : State) : Host.Outcome State Fault Refusal := s.run (xCollReport k)
def execCollClose (k : Packet) (s : State) : Host.Outcome State Fault Refusal := s.run (xCollClose k)
def execCollData (k : Packet) (s : State) : Host.Outcome State Fault Refusal := s.run (xCollData k)
def execCollResult (k : Packet) (s : State) : Host.Outcome State Fault Refusal := s.run (xCollResult k)
def execCollShardDone (k : Packet) (s : State) : Host.Outcome State Fault Refusal := s.run (xCollShardDone k)
def execCollResend (k : Packet) (s : State) : Host.Outcome State Fault Refusal := s.run (xCollResend k)
def execCollGo (k : Packet) (s : State) : Host.Outcome State Fault Refusal := s.run (xCollGo k)
def execCollPdone (k : Packet) (s : State) : Host.Outcome State Fault Refusal := s.run (xCollPdone k)
def execCollAbort (k : Packet) (s : State) : Host.Outcome State Fault Refusal := s.run (xCollAbort k)
def execTokxCount (k : Packet) (s : State) : Host.Outcome State Fault Refusal := s.run (xTokxCount k)
def execTokxOffset (k : Packet) (s : State) : Host.Outcome State Fault Refusal := s.run (xTokxOffset k)
def execTokxDone (k : Packet) (s : State) : Host.Outcome State Fault Refusal := s.run (xTokxDone k)
def execTokxUseStart (c : Fin 64) (id : BitVec 16) (s : State) : Host.Outcome State Fault Refusal :=
  s.run (xTokxUseStart c.val id.toNat)
def execPermuteRoundReadComplete (c : Fin 64) (id : BitVec 16) (s : State) : Host.Outcome State Fault Refusal :=
  s.run (xPermuteRoundReadComplete c.val id.toNat)
def execResendTimer (c : Fin 64) (id : BitVec 16) (s : State) : Host.Outcome State Fault Refusal :=
  s.run (xResendTimer c.val id.toNat)
def execDataLimitExpiry (c : Fin 64) (id : BitVec 16) (s : State) : Host.Outcome State Fault Refusal :=
  s.run (xDataLimitExpiry c.val id.toNat)
def execWordFree (c : Fin 64) (id : BitVec 16) (seq : BitVec 16) (s : State) : Host.Outcome State Fault Refusal :=
  s.run (xWordFree c.val id.toNat seq)
def execControlPacketRepeat (s : State) : Host.Outcome State Fault Refusal := s.run xControlPacketRepeat

end Sys2Proof.Machine
end

