-- ==== Sys2Proof/Machine/PipeOps.lean ====
section
/-! DEFINITION. What the stage controller works with (chapter 10): the stage table, records, rings, ledgers and stashes; binding and
gathering (R311, R318, R319), dispatch (R302, R309), what ends an item (R313 to R317). The controller's own copies of table and
counts are `Pipe` and `Stage`; rings, records, ledgers and stashes lie in memory. -/

namespace Sys2Proof.Machine

/-! The stage table (Table 10.5). -/

def Ctx.loc (x : Ctx) (v off : Nat) : Nat := x.stageField v off 8 % 2 ^ 41
def Ctx.scr (x : Ctx) (v off : Nat) : Nat := x.stageField v off 4 % 2 ^ 20 * 32
def Ctx.phaseMask (x : Ctx) (v : Nat) : Nat := x.stageField v 1 1
def Ctx.isFirst (x : Ctx) (v : Nat) : Bool := (x.stageField v 2 1).testBit 1
def Ctx.isLast (x : Ctx) (v : Nat) : Bool := (x.stageField v 2 1).testBit 2
def Ctx.inAddr (x : Ctx) (v : Nat) : Nat := x.scr v 28
def Ctx.outAddr (x : Ctx) (v : Nat) : Nat := x.scr v 32
def Ctx.workAddr (x : Ctx) (v : Nat) : Nat := x.scr v 36
def Ctx.orderAddr (x : Ctx) (v : Nat) : Nat := x.scr v 40
def Ctx.inBytes (x : Ctx) (v : Nat) : Nat := x.stageField v 44 4
def Ctx.outBytes (x : Ctx) (v : Nat) : Nat := x.stageField v 48 4
def Ctx.fwdSlots (x : Ctx) (v : Nat) : Nat := x.stageField v 52 2
def Ctx.bwdSlots (x : Ctx) (v : Nat) : Nat := x.stageField v 54 2
def Ctx.fwdRing (x : Ctx) (v : Nat) : Nat := x.loc v 56
def Ctx.bwdRing (x : Ctx) (v : Nat) : Nat := x.loc v 64
def Ctx.dnRing (x : Ctx) (v : Nat) : Nat := x.stageField v 72 8
def Ctx.dnSlots (x : Ctx) (v : Nat) : Nat := x.stageField v 80 2
def Ctx.upSlots (x : Ctx) (v : Nat) : Nat := x.stageField v 82 2
def Ctx.upRing (x : Ctx) (v : Nat) : Nat := x.stageField v 88 8
def Ctx.creditBlock (x : Ctx) (v : Nat) : Nat := x.loc v 96
def Ctx.stashBase (x : Ctx) (v : Nat) : Nat := x.loc v 104
def Ctx.stashBytes (x : Ctx) (v : Nat) : Nat := x.stageField v 112 4
def Ctx.stashSlots (x : Ctx) (v : Nat) : Nat := x.stageField v 116 2
def Ctx.shardList (x : Ctx) (v : Nat) : Nat := x.loc v 120
def Ctx.shardCount (x : Ctx) (v : Nat) : Nat := x.stageField v 128 2
def Ctx.dropSink (x : Ctx) : Nat := leOf ((x.pipe.table.drop 8).take 8) % 2 ^ 41

/-- Whether stage `v` is VALID, and the VALID stages. -/
def Ctx.validStage (x : Ctx) (v : Nat) : Bool := x.vsMask.testBit v && v < 8
def Ctx.stageList (x : Ctx) : List Nat := (List.range 8).filter x.validStage

/-- Tag area and slot sizes of the rings (R305). -/
def Ctx.tagBytes (x : Ctx) (v : Nat) : Nat := roundUp (8 * x.shardCount v) 256
def Ctx.fwdSlotSize (x : Ctx) (v : Nat) : Nat := 256 + x.tagBytes v + roundUp (x.inBytes v) 256
def Ctx.bwdSlotSize (x : Ctx) (v : Nat) : Nat := 256 + roundUp (x.outBytes v) 256
def Ctx.fwdSlotAt (x : Ctx) (v n : Nat) : Nat := x.fwdRing v + 256 + n % x.fwdSlots v * x.fwdSlotSize v
def Ctx.bwdSlotAt (x : Ctx) (v n : Nat) : Nat := x.bwdRing v + 256 + n % x.bwdSlots v * x.bwdSlotSize v

/-- Where slot `i` of the stash lies (R315). -/
def Ctx.stashSlotAt (x : Ctx) (v i : Nat) : Nat := x.stashBase v + i * roundUp (x.stashBytes v) 256
def Ctx.stashScree (x : Ctx) (v : Nat) : Nat := ceilDiv (x.stashBytes v) 65536

/-! Micro-batch records (Table 10.1). -/

def rVtag (r : Nat) : Nat := fld r 255 192
def rStash (r : Nat) : Nat := fld r 191 128
def rStep (r : Nat) : Nat := fld r 127 96
def rVstep (r : Nat) : Nat := fld r 95 64
def rMb (r : Nat) : Nat := fld r 63 48
def rBlocks (r : Nat) : Nat := fld r 47 32
def rKind (r : Nat) : Nat := fld r 12 11
def rStashKind (r : Nat) : Nat := fld r 10 9
def rFirst (r : Nat) : Bool := r.testBit 8
def rRestarted (r : Nat) : Bool := r.testBit 7

/-- STASH_KIND. -/
def skSlot : Nat := 0
def skScree : Nat := 1
def skDropped : Nat := 2
def skNone : Nat := 3

/-! Ledger entries (Table 10.8) and shard-list entries (Table 10.4). -/

def lPrevTag (y : Nat) : Nat := fld y 255 192
def lCurTag (y : Nat) : Nat := fld y 191 128
def lRec (y : Nat) : Nat := fld y 127 87
def lPrevLive (y : Nat) : Bool := y.testBit 7
def lUpdating (y : Nat) : Bool := y.testBit 6
def lTsel (y : Nat) : Bool := y.testBit 5
def lVs (y : Nat) : Nat := fld y 2 0
def tagStep (t : Nat) : Nat := t / 2 ^ 32

/-- Shard-list entry `i` of stage `v`. -/
def Dev.shardEntry (m : Mem) (d : Dev) (c v i : Nat) : Nat := peekLE m d ((d.ctx c).shardList v + 64 * i) 64

def sLedger (x : Nat) : Nat := fld x 511 448
def sFdst (x : Nat) : Nat := fld x 447 384 % 2 ^ 41
def sBdst (x : Nat) : Nat := fld x 383 320 % 2 ^ 41
def sWfOff (x : Nat) : Nat := fld x 319 288
def sWfBytes (x : Nat) : Nat := fld x 287 256
def sTOff (x : Nat) (t1 : Bool) : Nat := if t1 then fld x 223 192 else fld x 255 224
def sTBytes (x : Nat) : Nat := fld x 191 160

/-- A local offset as a global address of this package. -/
def Dev.here (d : Dev) (off : Nat) : Nat := d.node * 2 ^ 41 + off

/-- The ledger entry of a local shard. -/
def Dev.ledger (m : Mem) (d : Dev) (x : Nat) : Nat := peekLE m d (gOffset (sLedger x)) 32

/-- Write a local ledger entry (R312). -/
def Dev.putLedger (d : Dev) (m : Mem) (c x y : Nat) : Dev := d.engineWrite m c (gOffset (sLedger x)) (toLE 32 y)

/-- Shards of a stage, those whose ledger is here, and those the stage owns (R311, Table 10.8). -/
def Dev.shards (d : Dev) (c v : Nat) : List Nat := List.range ((d.ctx c).shardCount v)
def Dev.localShards (m : Mem) (d : Dev) (c v : Nat) : List Nat :=
  (d.shards c v).filter (fun i => d.isLocal (sLedger (d.shardEntry m c v i)))
def Dev.ownedShards (m : Mem) (d : Dev) (c v : Nat) : List Nat :=
  (d.localShards m c v).filter (fun i => lVs (d.ledger m (d.shardEntry m c v i)) == v)
def Dev.remoteShards (m : Mem) (d : Dev) (c v : Nat) : List Nat :=
  (d.shards c v).filter (fun i => !d.isLocal (sLedger (d.shardEntry m c v i)))

/-! Rings (Table 10.3). -/

def Dev.ringProd (m : Mem) (d : Dev) (ring : Nat) : Nat := peekLE m d ring 4
def Dev.ringCons (m : Mem) (d : Dev) (ring : Nat) : Nat := peekLE m d (ring + 8) 4
def Dev.ringCredit (m : Mem) (d : Dev) (ring : Nat) : Nat := peekLE m d (ring + 16) 8

/-- a − b of slot numbers. -/
def slotsFrom (a b : Nat) : Nat := (a + 2 ^ 32 - b % 2 ^ 32) % 2 ^ 32

/-- Set CONS of a ring, and write it to CREDIT_TO (R306). -/
def Dev.setCons (d : Dev) (m : Mem) (c v ring n : Nat) : Dev :=
  let g := d.ringCredit m ring
  let d := d.engineWrite m c (ring + 8) (toLE 4 n)
  if g = 0 then d
  else if d.isLocal g then d.engineWrite m c (gOffset g) (toLE 4 n)
  else d.fabWr c g (toLE 4 n) .credit v 0 0

/-- Free forward slots in order (R306). -/
def Dev.freeSlots (m : Mem) (c v : Nat) : Nat → Dev → Dev
  | 0, d => d
  | k + 1, d =>
    let x := d.ctx c
    let n := d.ringCons m (x.fwdRing v)
    let s := x.stage v
    if s.fwdDone.contains n then
      let d := d.setStage c v { s with fwdDone := s.fwdDone.filter (· != n) }
      Dev.freeSlots m c v k (d.setCons m c v (x.fwdRing v) ((n + 1) % 2 ^ 32))
    else d

def Dev.doneSlot (d : Dev) (m : Mem) (c v n : Nat) : Dev :=
  let s := (d.ctx c).stage v
  Dev.freeSlots m c v 1025 (d.setStage c v { s with fwdDone := n :: s.fwdDone })

/-- Forward slots held at a stage: freed neither in order nor out of it, and started. -/
def Dev.heldSlots (m : Mem) (d : Dev) (c v : Nat) : List Nat :=
  let x := d.ctx c
  let s := x.stage v
  let n := d.ringCons m (x.fwdRing v)
  ((List.range (min 1024 (slotsFrom s.fwdNext.toNat n))).map (fun i => (n + i) % 2 ^ 32)).filter (fun i => !s.fwdDone.contains i)

/-- The stage's copy of a record, and a tag of its tag area. -/
def Dev.slotRec (m : Mem) (d : Dev) (c v n : Nat) : Nat := peekLE m d ((d.ctx c).fwdSlotAt v n) 32
def Dev.slotTag (m : Mem) (d : Dev) (c v n i : Nat) : Nat := peekLE m d ((d.ctx c).fwdSlotAt v n + 256 + 8 * i) 8
def Dev.putRec (d : Dev) (m : Mem) (c v n r : Nat) : Dev := d.engineWrite m c ((d.ctx c).fwdSlotAt v n) (toLE 32 r)
def Dev.putTag (d : Dev) (m : Mem) (c v n i t : Nat) : Dev :=
  let d := d.engineWrite m c ((d.ctx c).fwdSlotAt v n + 256 + 8 * i) (toLE 8 t)
  if i = 0 then d.putRec m c v n (setFld (d.slotRec m c v n) 255 192 t) else d

/-! Scree (R200): one bit per 64 KiB block in the map at the start of each region. -/

/-- SCREE regions of a context in CURRENT: base and blocks. -/
def Dev.screeRegions (m : Mem) (d : Dev) (c : Nat) : List (Nat × Nat) :=
  if !d.strata.curValid then []
  else ((imgRegions (areaReader m d d.strata.cur)).filter (fun v => fld v 11 8 == 1 && fld v 5 0 == c)).map
    (fun v => (fld v 63 32 * 2 ^ 21, fld v 95 64 * 32))

def Dev.blockUsed (m : Mem) (d : Dev) (base k : Nat) : Bool := (peek m d (base + k / 8)).getLsbD (k % 8)

/-- The lowest run of `n` free blocks of a region, from block `k`, with `run` free ones just before it. -/
def Dev.freeRun (m : Mem) (d : Dev) (base n : Nat) : Nat → Nat → Nat → Option Nat
  | 0, _, _ => none
  | left + 1, k, run =>
    if d.blockUsed m base k then Dev.freeRun m d base n left (k + 1) 0
    else if n ≤ run + 1 then some (k + 1 - n)
    else Dev.freeRun m d base n left (k + 1) (run + 1)

/-- The region and first block of an allocation of `n` blocks; regions in ascending BASE. -/
def Dev.screeFind (m : Mem) (d : Dev) (c n : Nat) : Option (Nat × Nat) :=
  if n = 0 then none
  else
    let l := (d.screeRegions m c).filterMap (fun r => (d.freeRun m r.1 n (r.2 - 32) 32 0).map (fun k => (r.1, k)))
    l.foldl (fun a p => match a with | none => some p | some q => if p.1 < q.1 then some p else some q) none

/-- Set or clear the bits of `n` blocks. -/
def Dev.screeMark (d : Dev) (m : Mem) (c base k n : Nat) (used : Bool) : Dev :=
  d.each (List.range n) (fun d i =>
    let j := k + i
    let b := peek m d (base + j / 8)
    let bit := BitVec.ofNat 8 (2 ^ (j % 8))
    d.engineWrite m c (base + j / 8) [if used then b ||| bit else b &&& ~~~bit])

/-- Free the blocks of a run at a local offset. -/
def Dev.screeFree (d : Dev) (m : Mem) (c off n : Nat) : Dev :=
  match (d.screeRegions m c).find? (fun r => r.1 ≤ off && off < r.1 + r.2 * 65536) with
  | none => d
  | some r => d.screeMark m c r.1 ((off - r.1) / 65536) n false

/-- Clear every map of a context (R200, R323). -/
def Dev.screeClear (d : Dev) (m : Mem) (c : Nat) : Dev :=
  d.each (d.screeRegions m c) (fun d r => d.engineWrite m c r.1 (List.replicate (ceilDiv r.2 8) 0))

/-! Stashes (R315, R316). -/

/-- A stash place: STASH_KIND, local offset, blocks. -/
def Dev.stashPlace (m : Mem) (d : Dev) (c v : Nat) (reserved : Bool) : Option (Nat × Nat × Nat) :=
  let x := d.ctx c
  let n := if reserved then x.stashSlots v else x.stashSlots v - 1
  match (List.range n).find? (fun i => !(x.stage v).stashUsed.contains i) with
  | some i => some (skSlot, x.stashSlotAt v i, 0)
  | none => (d.screeFind m c (x.stashScree v)).map (fun p => (skScree, p.1 + p.2 * 65536, x.stashScree v))

/-- Take a place found by `stashPlace`. -/
def Dev.takeStash (d : Dev) (m : Mem) (c v : Nat) (p : Nat × Nat × Nat) : Dev :=
  let x := d.ctx c
  let s := x.stage v
  if p.1 = skSlot then
    d.setStage c v { s with stashUsed := (p.2.1 - x.stashBase v) / roundUp (x.stashBytes v) 256 :: s.stashUsed }
  else if p.1 = skScree then
    let d := (d.setStage c v { s with screeBlocks := s.screeBlocks + p.2.2 }).bump (Reg.ctxPipeSpills c v)
    match (d.screeRegions m c).find? (fun r => r.1 ≤ p.2.1 && p.2.1 < r.1 + r.2 * 65536) with
    | none => d
    | some r => d.screeMark m c r.1 ((p.2.1 - r.1) / 65536) p.2.2 true
  else d

/-- Free a place. -/
def Dev.freeStash (d : Dev) (m : Mem) (c v : Nat) (p : Nat × Nat × Nat) : Dev :=
  let x := d.ctx c
  let s := x.stage v
  if p.1 = skSlot then
    d.setStage c v { s with stashUsed := s.stashUsed.filter (· != (p.2.1 - x.stashBase v) / roundUp (x.stashBytes v) 256) }
  else if p.1 = skScree then
    (d.setStage c v { s with screeBlocks := s.screeBlocks - p.2.2 }).screeFree m c p.2.1 p.2.2
  else d

def rPlace (r : Nat) : Nat × Nat × Nat := (rStashKind r, gOffset (rStash r), rBlocks r)

/-- A record with its stash. -/
def Dev.recWithStash (d : Dev) (r : Nat) (p : Nat × Nat × Nat) : Nat :=
  setFld (setFld (setFld r 191 128 (if p.1 = skNone then 0 else d.here p.2.1)) 47 32 p.2.2) 10 9 p.1

/-! Binding local shards (R311). -/

/-- BIND of a local shard for a forward pass: the WF span. -/
def Dev.bindF (m : Mem) (d : Dev) (x : Nat) : Nat := d.here (lRec (d.ledger m x) + sWfOff x)

/-- A local shard binds for FORWARD at VSTEP `vs`. -/
def Dev.localFwd (m : Mem) (d : Dev) (x vs : Nat) : Bool :=
  let y := d.ledger m x
  tagStep (lCurTag y) == vs && !lUpdating y

/-- A local shard binds for RECOMPUTE to tag `t`, or, restarted, to the current version (R316, R319). -/
def Dev.localRec (m : Mem) (d : Dev) (x t : Nat) (restarted : Bool) : Bool :=
  let y := d.ledger m x
  !lUpdating y && (lCurTag y == t || restarted)

/-- The array a BACKWARD binds for tag `t`: whether it is the previous version's, and whether it is T1. -/
def bwdArray (y t : Nat) : Option (Bool × Bool) :=
  if lCurTag y = t then some (false, lTsel y)
  else if lPrevLive y && lPrevTag y == t then some (true, !lTsel y)
  else none

/-- The stages that hold references for an item at `v` (R313): the stage itself, and those that own a local shard it uses
(log entry 51). -/
def Dev.ownersOf (m : Mem) (d : Dev) (c v : Nat) : List Nat :=
  (v :: (d.localShards m c v).map (fun i => lVs (d.ledger m (d.shardEntry m c v i)))).dedup

/-- Change a stage. -/
def Dev.updStage (d : Dev) (c v : Nat) (f : Stage → Stage) : Dev := d.setStage c v (f ((d.ctx c).stage v))

/-- PREV_REFS falls by 1; from 0 on the hold runs (R314). -/
def Stage.dropPrev (s : Stage) (now : BitVec 64) : Stage :=
  { s with prevRefs := s.prevRefs - 1, prevIdleLt := if s.prevRefs ≤ 1 then now else s.prevIdleLt }

/-- Retire the previous version of a stage (R314). -/
def Dev.retireVersion (d : Dev) (m : Mem) (c v : Nat) : Dev :=
  let d := d.updStage c v (fun s => { s with prevLive := false, retireNow := false })
  d.each (d.ownedShards m c v) (fun d i =>
    let x := d.shardEntry m c v i
    let y := d.ledger m x
    if lPrevLive y then d.putLedger m c x (setFld y 7 7 0) else d)

/-- After PREV_REFS has changed: a stage told to retire now does so at 0. -/
def Dev.retireDue (d : Dev) (m : Mem) (c v : Nat) : Dev :=
  let s := (d.ctx c).stage v
  if s.prevLive && s.retireNow && s.prevRefs = 0 then d.retireVersion m c v else d

/-! Dispatch (R302, R309). -/

/-- A phase switch or an activation of the context is pending (R320). -/
def Ctx.holdsItems (x : Ctx) : Bool := x.switch.isSome || x.changing

/-- The controller may dispatch new items to a stage. -/
def Ctx.mayDispatch (x : Ctx) (v : Nat) : Bool :=
  x.pipe.state == .running && x.validStage v && !x.holdsItems && (x.phaseMask v).testBit x.phase

/-- The tiles of a unit run (R324). -/
def Dev.unitRuns (d : Dev) (c v u : Nat) : Bool :=
  (maskTiles ((d.ctx c).unitMask v u)).all (fun t =>
    let x := d.tile t
    !x.stopped && x.state != .halted && x.state != .retired)

def Dev.unitTiles (d : Dev) (c v u : Nat) : List Nat := maskTiles ((d.ctx c).unitMask v u)

/-- The unit of an item. -/
def ItemKind.unit : ItemKind → Nat
  | .forward => 0 | .recompute => 0 | .backward => 1 | .update => 2 | .mirror => 2 | .apply => 2

/-- Write to the scratchpad of a tile. -/
def Dev.scrStore (d : Dev) (m : Mem) (t a : Nat) (bs : List Byte) : Dev := (d.store m (scrBase t + a) bs).1

/-- The record of a work block: the stage's copy with the item's KIND, or that of an update. -/
def Dev.itemRec (m : Mem) (d : Dev) (c v : Nat) (i : Item) : Nat :=
  match i.kind with
  | .forward => d.slotRec m c v i.slot
  | .recompute => setFld (d.recWithStash (d.slotRec m c v i.slot) i.stash) 12 11 2
  | .backward => setFld (d.slotRec m c v i.slot) 12 11 1
  | _ => i.step.toNat * 2 ^ 96 + v * 2 ^ 13 + 3 * 2 ^ 11

/-- The work block (Table 10.6). -/
def Dev.workBlock (m : Mem) (d : Dev) (c v : Nat) (i : Item) : List Byte :=
  toLE 32 (d.itemRec m c v i) ++ toLE 8 (if i.kind.unit = 2 then 0 else d.here i.stash.2.1) ++ toLE 24 0
    ++ (d.shards c v).flatMap (fun k => toLE 8 (mget 0 i.binds k))

def Dev.putItem (d : Dev) (c v : Nat) (i : Item) : Dev :=
  d.updStage c v (fun s => match i.kind.unit with
    | 0 => { s with fwdItem := some i } | 1 => { s with bwdItem := some i } | _ => { s with updItem := some i })

def Stage.item (s : Stage) (u : Nat) : Option Item := match u with | 0 => s.fwdItem | 1 => s.bwdItem | _ => s.updItem

/-- Where the input payload of an item lies, and its length. -/
def Dev.itemInput (m : Mem) (d : Dev) (c v : Nat) (i : Item) : Nat × Nat :=
  let x := d.ctx c
  match i.kind with
  | .forward => (x.fwdSlotAt v i.slot + 256 + x.tagBytes v, x.inBytes v)
  | .recompute => (x.fwdSlotAt v i.slot + 256 + x.tagBytes v, x.inBytes v)
  | .backward => (x.bwdSlotAt v (d.ringCons m (x.bwdRing v)) + 256, x.outBytes v)
  | _ => (0, 0)

/-- Steps 3 of Table 10.7: input, work block, MB_ID, START. Held while a unit tile does not run or the input cannot be read. -/
def Dev.startItem (d : Dev) (m : Mem) (c v : Nat) (i : Item) : Dev :=
  let u := i.kind.unit
  if i.started || !i.gathers.isEmpty || !d.unitRuns c v u then d
  else
    let x := d.ctx c
    let (a, n) := d.itemInput m c v i
    let (d, r) := d.engineRead m c a n
    match r with
    | none => d
    | some bs =>
      let ts := d.unitTiles c v u
      let d := d.scrStore m (leadTile (x.unitMask v u)) (x.inAddr v) bs
      let w := d.workBlock m c v i
      let d := d.each ts (fun d t =>
        let d := d.scrStore m t (x.workAddr v) w
        (d.setTile t { d.tile t with mbId := i.mb }).setSem t 14 0x108)
      d.putItem c v { i with started := true }

/-! Gathering (Table 10.10). -/

/-- Numbers that name a gather in its requests: stage and unit, and the shard. -/
def gatherKey (v u : Nat) : Nat := 2 * v + u

/-- Read the owner's ledger entry. -/
def Dev.gatherRead (d : Dev) (m : Mem) (c v u i : Nat) (p : Purpose) : Dev :=
  d.fabRead c (sLedger (d.shardEntry m c v i)) 32 p (gatherKey v u) i 0

/-- Fetch a span, at most 2^30 bytes per BGET. -/
def Dev.gatherFetch (c g dst : Nat) (u : Purpose) (a b : Nat) : Nat → Nat → Nat → Dev → Dev
  | 0, _, _, d => d
  | k + 1, o, n, d =>
    if n = 0 then d
    else
      let d := d.fabBget c (g + o) (min n (2 ^ 30)) (d.here (dst + o)) u a b 0
      Dev.gatherFetch c g dst u a b k (o + 2 ^ 30) (n - 2 ^ 30) d

/-- A gather of an item, by shard. -/
def Item.gather (i : Item) (k : Nat) : Option Gather := i.gathers.find? (fun g => g.shard == k)
def Item.withGather (i : Item) (g : Gather) : Item :=
  { i with gathers := i.gathers.map (fun h => if h.shard == g.shard then g else h) }
def Item.dropGather (i : Item) (k : Nat) : Item := { i with gathers := i.gathers.filter (fun h => h.shard != k) }

/-- The buffer of shard `k` holds tag `t`, which binds it. The tag goes to the tag area of a forward pass. -/
def Dev.gathered (d : Dev) (m : Mem) (c v : Nat) (i : Item) (k t : Nat) : Dev :=
  let u := i.kind.unit
  let x := d.shardEntry m c v k
  let i := { i.dropGather k with tags := mset i.tags k (BitVec.ofNat 64 t),
                                 binds := mset i.binds k (d.here (if u = 0 then sFdst x else sBdst x)) }
  let d := d.updStage c v (fun s => if u = 0 then { s with gatheredF := mset s.gatheredF k (BitVec.ofNat 64 t) }
                                    else { s with gatheredB := mset s.gatheredB k (BitVec.ofNat 64 t) })
  let d := d.putItem c v i
  let d := if i.kind == .forward then d.putTag m c v i.slot k t else d
  d.startItem m c v i

/-- The version that step 2 takes of ledger entry `y`: the previous one, and the offset and bytes of the span; nothing usable yet
(`.inl true`), or ever (`.inl false`). -/
def gatherTake (i : Item) (g : Gather) (vstep x y : Nat) : Bool ⊕ (Bool × Nat × Nat × Nat) :=
  let cur := lCurTag y
  if i.kind.unit = 0 then
    let ok := match g.want with | some t => cur == t.toNat | none => tagStep cur == vstep
    let wanted := match g.want with | some t => tagStep t.toNat | none => vstep
    if ok then (if lUpdating y then .inl true else .inr (false, lRec y + sWfOff x, sWfBytes x, cur))
    else if tagStep cur < wanted then .inl true
    else .inl false
  else
    let t := match g.want with | some t => t.toNat | none => 0
    match bwdArray y t with
    | some (prev, t1) => .inr (prev, lRec y + sTOff x t1, sTBytes x, t)
    | none => .inl false

/-- R319: the micro-batch is rebound at this stage to the owner's current version. A BACKWARD item gives way to a RECOMPUTE. -/
def Dev.rebind (d : Dev) (m : Mem) (c v : Nat) (i : Item) (g : Gather) (cur : Nat) : Dev :=
  let r := d.slotRec m c v i.slot
  let d := d.putRec m c v i.slot (setFld r 7 7 1)
  let d := d.putTag m c v i.slot g.shard cur
  let d := d.setRegN (Reg.ctxPipeDiverged c) (rStep r)
  let d := (d.bump (Reg.ctxPipeRestarts c v)).event [c] 0x0802 1 g.shard (rStep r) 0
  if i.kind == .backward then
    let d := d.retireTags (fun t => (t.purpose == .gatherLedger || t.purpose == .gatherData || t.purpose == .gatherRecheck)
      && t.ctx == c && t.a == gatherKey v 1 && !t.reserved)
    let d := d.freeStash m c v (rPlace r)
    let d := d.putRec m c v i.slot (d.recWithStash (d.slotRec m c v i.slot) (skDropped, (d.ctx c).dropSink, 0))
    d.updStage c v (fun s => { s with bwdItem := none })
  else
    let d := d.putItem c v (i.withGather { g with phase := 1, want := some (BitVec.ofNat 64 cur) })
    d.gatherRead m c v 0 g.shard .gatherLedger

/-- L1 of a gather has come (step 2). -/
def Dev.gatherL1 (d : Dev) (m : Mem) (c v u k y : Nat) : Dev :=
  match ((d.ctx c).stage v).item u with
  | none => d
  | some i =>
    match i.gather k with
    | none => d
    | some g =>
      if g.phase != 1 then d
      else
        let x := d.shardEntry m c v k
        match gatherTake i g (rVstep (d.slotRec m c v i.slot)) x y with
        | .inl true => d.gatherRead m c v u k .gatherLedger
        | .inl false => d.rebind m c v i g (lCurTag y)
        | .inr (prev, off, n, t) =>
          let d := d.bumpIf prev (Reg.ctxPipePrevUsed c v)
          let r := d.slotRec m c v i.slot
          let d := if prev then d.putRec m c v i.slot (setFld r 6 6 1) else d
          let last := if u = 0 then mfind ((d.ctx c).stage v).gatheredF k else mfind ((d.ctx c).stage v).gatheredB k
          if last == some (BitVec.ofNat 64 t) then d.gathered m c v i k t
          else
            let d := d.updStage c v (fun s => if u = 0 then { s with gatheredF := mdel s.gatheredF k }
                                              else { s with gatheredB := mdel s.gatheredB k })
            let d := d.putItem c v (i.withGather { g with phase := 2, tag := BitVec.ofNat 64 t, prev := prev })
            Dev.gatherFetch c (gNode (sLedger x) * 2 ^ 41 + off) (if u = 0 then sFdst x else sBdst x) .gatherData (gatherKey v u) k
              5 0 n d

/-- A BGET of a gather has ended (step 4); a failed one starts again from step 1. -/
def Dev.gatherDataDone (d : Dev) (m : Mem) (c v u k : Nat) (ok : Bool) : Dev :=
  match ((d.ctx c).stage v).item u with
  | none => d
  | some i =>
    match i.gather k with
    | none => d
    | some g =>
      if g.phase != 2 then d
      else if !ok then
        let d := d.retireTags (fun t => t.purpose == .gatherData && t.ctx == c && t.a == gatherKey v u && t.b == k && !t.reserved)
        (d.putItem c v (i.withGather { g with phase := 1 })).gatherRead m c v u k .gatherLedger
      else if d.tags.any (fun t => t.purpose == .gatherData && t.ctx == c && t.a == gatherKey v u && t.b == k && !t.reserved) then d
      else (d.putItem c v (i.withGather { g with phase := 3 })).gatherRead m c v u k .gatherRecheck

/-- L2 of a gather has come (step 5). -/
def Dev.gatherL2 (d : Dev) (m : Mem) (c v u k y : Nat) : Dev :=
  match ((d.ctx c).stage v).item u with
  | none => d
  | some i =>
    match i.gather k with
    | none => d
    | some g =>
      if g.phase != 3 then d
      else
        let t := g.tag.toNat
        let held := lCurTag y == t || (lPrevLive y && lPrevTag y == t)
        if held && (u = 1 || !lUpdating y) then d.gathered m c v i k t
        else (d.putItem c v (i.withGather { g with phase := 1 })).gatherRead m c v u k .gatherLedger

/-- A ledger read of a gather failed: it is read again. -/
def Dev.gatherFailed (d : Dev) (m : Mem) (c v u k : Nat) : Dev :=
  match ((d.ctx c).stage v).item u with
  | none => d
  | some i =>
    match i.gather k with
    | none => d
    | some g => (d.putItem c v (i.withGather { g with phase := 1 })).gatherRead m c v u k .gatherLedger

/-- An item starts: gathers that are needed begin, or it is dispatched at once. -/
def Dev.beginItem (d : Dev) (m : Mem) (c v : Nat) (i : Item) : Dev :=
  let d := d.putItem c v i
  let d := d.each i.gathers (fun d g => d.gatherRead m c v i.kind.unit g.shard .gatherLedger)
  d.startItem m c v i

/-- Gathers of a pass over the remote shards: those whose buffer does not hold the wanted tag already (R318). -/
def Dev.gathersFor (m : Mem) (d : Dev) (c v : Nat) (bwd : Bool) (want : Nat → Option Nat) : List Gather :=
  let s := (d.ctx c).stage v
  (d.remoteShards m c v).filterMap (fun k =>
    let held := mfind (if bwd then s.gatheredB else s.gatheredF) k
    match want k with
    | some t => if held == some (BitVec.ofNat 64 t) then none else some { shard := k, phase := 1, want := some (BitVec.ofNat 64 t) }
    | none => some { shard := k, phase := 1, want := none })

/-- Binds of remote shards whose buffer is not gathered again. -/
def Dev.heldBinds (m : Mem) (d : Dev) (c v : Nat) (bwd : Bool) (gs : List Gather) : Map Nat :=
  ((d.remoteShards m c v).filter (fun k => !gs.any (fun g => g.shard == k))).foldl (fun b k =>
    let x := d.shardEntry m c v k
    mset b k (d.here (if bwd then sBdst x else sFdst x))) []

/-! Deliveries (R307). -/

/-- The stage of the same context whose ring lies at a global address. -/
def Dev.stageOfRing (d : Dev) (c g : Nat) (bwd : Bool) : Option Nat :=
  let x := d.ctx c
  if d.isLocal g then x.stageList.find? (fun v => (if bwd then x.bwdRing v else x.fwdRing v) == gOffset g) else none

/-- Where an output goes: ring, slots, slot size, bytes before the payload, the count written so far, the receiver's CONS. -/
structure Target where
  ring : Nat
  slots : Nat
  size : Nat
  head : Nat
  sent : Nat
  cons : Nat

def Dev.targetOf (m : Mem) (d : Dev) (c v : Nat) (target : Nat) : Target :=
  let x := d.ctx c
  let s := x.stage v
  if target = 1 then
    { ring := d.here (x.bwdRing v), slots := x.bwdSlots v, size := x.bwdSlotSize v, head := 256,
      sent := d.ringProd m (x.bwdRing v), cons := d.ringCons m (x.bwdRing v) }
  else if target = 0 then
    let tags := match d.stageOfRing c (x.dnRing v) false with | some w => x.tagBytes w | none => x.tagBytes v
    { ring := x.dnRing v, slots := x.dnSlots v, size := 256 + tags + roundUp (x.outBytes v) 256, head := 256 + tags,
      sent := s.dnSent.toNat, cons := peekLE m d (x.creditBlock v) 4 }
  else
    { ring := x.upRing v, slots := x.upSlots v, size := 256 + roundUp (x.inBytes v) 256, head := 256,
      sent := s.upSent.toNat, cons := peekLE m d (x.creditBlock v + 8) 4 }

def Target.credit (t : Target) : Bool := decide (slotsFrom t.sent t.cons < t.slots)
def Target.slotAt (t : Target) (n : Nat) : Nat := t.ring + 256 + n % t.slots * t.size

/-- Payload bytes of an output, and where it lies on the lead tile. -/
def Dev.outPayload (m : Mem) (d : Dev) (c v : Nat) (bwd : Bool) : List Byte :=
  let x := d.ctx c
  let t := leadTile (x.unitMask v (if bwd then 1 else 0))
  peekN m d (scrBase t + x.outAddr v) (if bwd then x.inBytes v else x.outBytes v)

def Stage.out (s : Stage) (bwd : Bool) : Option Delivery := if bwd then s.bwdOut else s.fwdOut
def Dev.setOut (d : Dev) (c v : Nat) (bwd : Bool) (o : Option Delivery) : Dev :=
  d.updStage c v (fun s => if bwd then { s with bwdOut := o } else { s with fwdOut := o })

/-- Deliveries of a context in flight. -/
def Dev.deliveries (d : Dev) (c : Nat) : Nat :=
  ((d.ctx c).stageList.map (fun v =>
    let s := (d.ctx c).stage v
    ([s.fwdOut, s.bwdOut].filter (fun o => match o with | some y => y.phase != 0 | none => false)).length)).sum

/-- The slot has been handed over: the sender's count rises. -/
def Dev.deliveredOut (d : Dev) (c v : Nat) (bwd : Bool) (o : Delivery) : Dev :=
  let n := BitVec.ofNat 32 (o.slot + 1)
  let d := d.setOut c v bwd none
  d.updStage c v (fun s => if o.target = 0 then { s with dnSent := n } else if o.target = 2 then { s with upSent := n } else s)

/-- Deliver an output whose target has credit. -/
def Dev.deliver (d : Dev) (m : Mem) (c v : Nat) (bwd : Bool) (o : Delivery) : Dev :=
  let t := d.targetOf m c v o.target
  let slot := t.slotAt t.sent
  let bs := d.outPayload m c v bwd
  let o := { o with slot := t.sent }
  if d.isLocal t.ring then
    let d := d.engineWrite m c (gOffset slot + t.head) bs
    let d := d.engineWrite m c (gOffset slot) (toLE 32 o.rec_.toNat)
    (d.engineWrite m c (gOffset t.ring) (toLE 4 ((t.sent + 1) % 2 ^ 32))).deliveredOut c v bwd o
  else
    (d.setOut c v bwd (some { o with phase := 1 })).fabWrite c (slot + t.head) bs .delivery v (if bwd then 1 else 0) 1

/-- A write of a remote delivery has been acknowledged (R240): once all of its phase are, the next goes out. -/
def Dev.deliveryAck (d : Dev) (m : Mem) (c v : Nat) (bwd ok : Bool) (phase : Nat) : Dev :=
  match ((d.ctx c).stage v).out bwd with
  | none => d
  | some o =>
    let b := if bwd then 1 else 0
    let same := fun (t : Tag) => t.purpose == .delivery && t.ctx == c && t.a == v && t.b == b && !t.reserved
    if o.phase != phase then d
    else if !ok then (d.retireTags same).setOut c v bwd (some { o with phase := 0 })
    else if d.tags.any same then d
    else
      let t := d.targetOf m c v o.target
      let slot := t.slotAt o.slot
      if phase = 1 then
        (d.setOut c v bwd (some { o with phase := 2 })).fabWrite c slot (toLE 32 o.rec_.toNat) .delivery v b 2
      else if phase = 2 then
        (d.setOut c v bwd (some { o with phase := 3 })).fabWr c t.ring (toLE 4 ((o.slot + 1) % 2 ^ 32)) .delivery v b 3
      else d.deliveredOut c v bwd o

/-- The record an output carries: only MB_ID, STEP, VSTEP, STEP_FIRST go on; flags, tag and stash are the receiver's. -/
def outRecord (r kind vs : Nat) : BitVec 256 :=
  BitVec.ofNat 256 (rStep r * 2 ^ 96 + rVstep r * 2 ^ 64 + rMb r * 2 ^ 48 + vs * 2 ^ 13 + kind * 2 ^ 11 + skNone * 2 ^ 9
    + (if rFirst r then 2 ^ 8 else 0))

/-! Updates (R317). -/

/-- The stage's forward gate is closed: an UPDATE or APPLY is queued or not finished. -/
def Stage.gateClosed (s : Stage) : Bool :=
  s.queue.any (fun q => q.1 != .mirror) || (match s.updItem with | some i => i.kind != .mirror | none => false)

/-- A micro-batch bound to the current version of an owned shard is DROPPED. -/
def Dev.droppedAtCurrent (m : Mem) (d : Dev) (c v : Nat) : Bool :=
  (d.heldSlots m c v).any (fun n => rStashKind (d.slotRec m c v n) == skDropped &&
    (d.ownedShards m c v).any (fun i => d.slotTag m c v n i == lCurTag (d.ledger m (d.shardEntry m c v i))))

/-- Step 2 of Table 10.9. -/
def Dev.updateReady (m : Mem) (d : Dev) (c v : Nat) : Bool :=
  let s := (d.ctx c).stage v
  !s.prevLive && s.fwdItem.isNone && !d.droppedAtCurrent m c v

/-! Shard records (Tables 4.5 and 4.6). -/

/-- A shard header. -/
def Dev.header (m : Mem) (d : Dev) (rec_ : Nat) : Nat := peekLE m d rec_ 64
def hStep (h : Nat) : Nat := fld h 351 320
def hVersion (h : Nat) : Nat := fld h 415 352
def hCursor (h : Nat) : Nat := fld h 479 416
def hTsel (h : Nat) : Bool := h.testBit 256
def hKs (h : Nat) : Nat := fld h 127 96
def hNs (h : Nat) : Nat := fld h 95 64

/-- Offset and bytes of the arrays MASTER, M1, M2, WF, WF_SCALE, T0, T0_SCALE, T1, T1_SCALE. -/
def shardArrays (h : Nat) : List (Nat × Nat) :=
  let ks := hKs h
  let ns := hNs h
  let bs := if fld h 7 6 = 2 then 16 else 32
  let w := if fld h 11 8 = 5 then 4 else 8
  let kp := roundUp ks bs
  let np := roundUp ns bs
  let mom := fld h 5 4
  let sizes := [ks * ns * (if fld h 15 12 = 1 then 2 else 4), if 1 ≤ mom then ks * ns * 4 else 0, if mom = 2 then ks * ns * 4 else 0,
    ns * kp * w / 8, ns * kp / bs, ks * np * w / 8, ks * np / bs, ks * np * w / 8, ks * np / bs]
  (sizes.foldl (fun (a : Nat × List (Nat × Nat)) n => (a.1 + roundUp n 256, a.2 ++ [(a.1, n)])) (256, [])).2

def shardArray (h i : Nat) : Nat × Nat := (shardArrays h).getD i (256, 0)

/-- Bytes of a whole record. -/
def shardBytes (h : Nat) : Nat := let a := shardArray h 8; a.1 + a.2

/-- SUM of a record: the CRC of its WF_SCALE array (R310). -/
def Dev.sumOf (m : Mem) (d : Dev) (rec_ : Nat) : Nat :=
  let a := shardArray (d.header m rec_) 4
  crc32 (peekN m d (rec_ + a.1) a.2)

/-- The writes of R118 for step `s`: STEP and VERSION, T_SEL if it is still to flip, CHECK. -/
def Dev.finishRecord (d : Dev) (m : Mem) (c rec_ s sum : Nat) (flip : Bool) : Dev :=
  let h := d.header m rec_
  let h := setFld (setFld h 351 320 s) 415 352 (s * 2 ^ 32 + sum)
  let h := if flip then setFld h 256 256 (if hTsel h then 0 else 1) else h
  let h := setFld h 511 480 (crc32 (toLE 52 (h % 2 ^ 416)))
  d.engineWrite m c rec_ (toLE 64 h)

/-- The ledger write of step 5 of Table 10.9. -/
def Dev.finishLedger (d : Dev) (m : Mem) (c x s sum : Nat) : Dev :=
  let y := d.ledger m x
  let h := d.header m (lRec y)
  let y := setFld (setFld y 255 192 (lCurTag y)) 191 128 (s * 2 ^ 32 + sum)
  let y := setFld (setFld (setFld y 5 5 (if hTsel h then 1 else 0)) 7 7 1) 6 6 0
  d.putLedger m c x y

/-- Step 6 of Table 10.9. -/
def Dev.stepVersion (d : Dev) (m : Mem) (c v : Nat) (s : BitVec 32) : Dev :=
  let d := d.updStage c v (fun x => { x with prevStep := x.curStep, prevRefs := x.curRefs, curStep := s, curRefs := 0,
                                             prevLive := true, prevIdleLt := d.lode.count })
  let x := (d.ctx c).stage v
  let d := (d.setReg (Reg.ctxPipeCurStep c v) x.curStep).setReg (Reg.ctxPipePrevStep c v) x.prevStep
  (d.bump (Reg.ctxPipeUpdates c v)).retireDue m c v

end Sys2Proof.Machine
end

