-- ==== Sys2Proof/Machine/ProtOps.lean ====
section
/-! DEFINITION. The protection table and its entries (R383), the update block (R384), mirrors and digests (R386, R388), the flags a
reset leaves (R397), the input log (R391 to R394), and what an OK commit starts (R317, R385, R394). Table, entries, retained blocks
and slots lie in memory. -/

namespace Sys2Proof.Machine

/-! The table (Tables 13.2 and 13.3). -/

def Dev.protOn (d : Dev) (c : Nat) : Bool := d.rb (Reg.ctxProtCtrl c) 31
def Dev.protBase (d : Dev) (c : Nat) : Nat := d.reg64 (Reg.ctxProtBaseLo c) % 2 ^ 41 / 256 * 256
def Dev.protField (m : Mem) (d : Dev) (c off n : Nat) : Nat := peekLE m d (d.protBase c + off) n
def Dev.protEntries (m : Mem) (d : Dev) (c : Nat) : Nat := d.protField m c 2 2
def Dev.peerTable (m : Mem) (d : Dev) (c : Nat) : Nat := d.protField m c 8 8
def Dev.logRemote (m : Mem) (d : Dev) (c : Nat) : Nat := d.protField m c 16 8
def Dev.logLocal (m : Mem) (d : Dev) (c : Nat) : Nat := d.protField m c 24 8 % 2 ^ 41
def Dev.logLocalBytes (m : Mem) (d : Dev) (c : Nat) : Nat := d.protField m c 32 4
def Dev.normBucket (m : Mem) (d : Dev) (c : Nat) : Nat := d.protField m c 36 2
def Dev.upbAddr (m : Mem) (d : Dev) (c : Nat) : Nat := d.protField m c 40 4 % 2 ^ 20 * 32

/-- RETAIN of a step. -/
def Dev.retainAt (d : Dev) (c t : Nat) : Nat := d.protBase c + 128 + 64 * (t % 2)
def Dev.retainStep (m : Mem) (d : Dev) (c t : Nat) : Nat := peekLE m d (d.retainAt c t) 4

def Dev.entryAt (d : Dev) (c i : Nat) : Nat := d.protBase c + 256 + 128 * i

/-- Bytes [off, off + n) of an entry held as a number. -/
def pe (x off n : Nat) : Nat := fld x (8 * (off + n) - 1) (8 * off)
def Dev.entry (m : Mem) (d : Dev) (c i : Nat) : Nat := peekLE m d (d.entryAt c i) 128
def eRec (x : Nat) : Nat := pe x 0 8 % 2 ^ 41
def ePeerRec (x : Nat) : Nat := pe x 8 8
def ePeerEnt (x : Nat) : Nat := pe x 16 8
def eGsrc (x : Nat) : Nat := pe x 24 8 % 2 ^ 41
def eGrad (x : Nat) : Nat := pe x 32 8 % 2 ^ 41
def eGbytes (x : Nat) : Nat := pe x 40 4
def eBucket (x : Nat) : Nat := pe x 44 2
def eMirror (x : Nat) : Bool := (pe x 46 1).testBit 7
def eVs (x : Nat) : Nat := pe x 46 1 % 8
def eFlags (x : Nat) : Nat := pe x 48 2
def eVstep (x : Nat) : Nat := pe x 52 4
def eGstep (x j : Nat) : Nat := pe x (56 + 4 * j) 4
def eCurDig (x : Nat) : Nat := pe x 64 4
def ePrevDig (x : Nat) : Nat := pe x 68 4
def eSlot (x j : Nat) : Nat := eGrad x + j % 2 * roundUp (eGbytes x) 256

/-- Flag bits of an entry. -/
def fTORN : Nat := 0
def fAPPLYING : Nat := 1
def fWRITTEN : Nat := 2
def fEXPOSED : Nat := 3
def fVERIFYFAIL : Nat := 4
def fSTALE : Nat := 5
def fDIGBUSY : Nat := 6
def fPROMOTED : Nat := 7

def eFlag (x f : Nat) : Bool := (eFlags x).testBit f
def Dev.flag (m : Mem) (d : Dev) (c i f : Nat) : Bool := eFlag (d.entry m c i) f

/-- Set or clear a flag; entries newly STALE_GRAD or VERIFY_FAIL are counted (Table 13.13). -/
def Dev.setFlag (d : Dev) (m : Mem) (c i f : Nat) (b : Bool) : Dev :=
  let v := eFlags (d.entry m c i)
  if v.testBit f == b then d
  else
    let d := if b && f = fSTALE then d.bump (Reg.ctxProtStale c) else d
    let d := if b && f = fVERIFYFAIL then d.bump (Reg.ctxProtVerifyFail c) else d
    d.engineWrite m c (d.entryAt c i + 48) (toLE 2 (setFld v f f (if b then 1 else 0)))

def Dev.setFlags (d : Dev) (m : Mem) (c i : Nat) (fs : List Nat) (b : Bool) : Dev := d.each fs (fun d f => d.setFlag m c i f b)

/-- Write one 32-bit field of an entry. -/
def Dev.setEntry (d : Dev) (m : Mem) (c i off v : Nat) : Dev := d.engineWrite m c (d.entryAt c i + off) (toLE 4 v)

def Dev.entryList (m : Mem) (d : Dev) (c : Nat) : List Nat := List.range (min 4096 (d.protEntries m c))

/-- MIRROR, and OWN, entries of a stage, in table order. -/
def Dev.mirrorsOf (m : Mem) (d : Dev) (c v : Nat) : List Nat :=
  (d.entryList m c).filter (fun i => eMirror (d.entry m c i) && eVs (d.entry m c i) == v)
def Dev.ownsOf (m : Mem) (d : Dev) (c v : Nat) : List Nat :=
  (d.entryList m c).filter (fun i => !eMirror (d.entry m c i) && eVs (d.entry m c i) == v)

/-- The OWN entry of the record at a local offset. -/
def Dev.entryOfRec (m : Mem) (d : Dev) (c rec_ : Nat) : Option Nat :=
  (d.entryList m c).find? (fun i => !eMirror (d.entry m c i) && eRec (d.entry m c i) == rec_)

/-- A record has a new VSTEP: its digest begins (R388). -/
def Dev.newVstep (d : Dev) (m : Mem) (c i t : Nat) : Dev := (d.setEntry m c i 52 t).setFlag m c i fDIGBUSY true

/-- The digest of a record. -/
def Dev.digestOf (m : Mem) (d : Dev) (rec_ : Nat) : Nat :=
  let h := d.header m rec_
  crc32 ((List.range 3).flatMap (fun i => let a := shardArray h i; peekN m d (rec_ + a.1) a.2))

def Dev.updProt (d : Dev) (c : Nat) (f : Prot → Prot) : Dev := d.setCtx c { d.ctx c with prot := f (d.ctx c).prot }
def Dev.updLog (d : Dev) (c : Nat) (f : Log → Log) : Dev := d.setCtx c { d.ctx c with log := f (d.ctx c).log }

/-! The update block (R384). -/

/-- RETAIN of step `t` holds it, with NORM_SQ. -/
def Dev.retained (m : Mem) (d : Dev) (c t : Nat) : Bool :=
  d.retainStep m c t == t && !(d.ctx c).prot.retain.any (fun r => r.step.toNat == t)
    && !(d.ctx c).prot.normWait.contains (BitVec.ofNat 32 t)

/-- Write the update block of step `t` with ITEM and its gradient table on every tile of the update unit; their generators take its
SEED and STEP. -/
def Dev.putUpdateBlock (d : Dev) (m : Mem) (c v t item : Nat) (grads : List Nat) : Dev :=
  let b := peekLE m d (d.retainAt c t) 64
  let b := setFld (setFld b 71 64 item) 95 80 grads.length
  let bytes := toLE 64 b ++ grads.flatMap (toLE 8)
  d.each (d.unitTiles c v 2) (fun d x =>
    let d := d.scrStore m x (d.upbAddr m c) bytes
    d.setTile x { d.tile x with updKey := some (BitVec.ofNat 64 (fld b 191 128), BitVec.ofNat 32 (fld b 31 0)) })

/-- Positions at which the mirror entries of a stage are bound (R382; log entry 55): the k-th owned shard's, or k. -/
def Dev.mirrorPlaces (m : Mem) (d : Dev) (c v : Nat) : List (Nat × Nat) :=
  let p := d.ownedShards m c v
  (d.mirrorsOf m c v).zipIdx.map (fun e => (p.getD e.2 e.2, e.1))

/-- An item of the update unit over the given positions and records. -/
def updItemOf (k : ItemKind) (t : BitVec 32) (binds : List (Nat × Nat)) : Item :=
  { kind := k, slot := 0, mb := 0, step := t, stash := (skNone, 0, 0), gathers := [], tags := [],
    binds := binds.foldl (fun b p => mset b p.1 p.2) [], owners := [], started := false, sums := [] }

/-! Flags at a reset (R397). -/

/-- Every entry being applied and not written becomes TORN; a command that ran is gone (log entry 58). -/
def Dev.protReset (d : Dev) (m : Mem) (c : Nat) : Dev :=
  let d := d.updProt c (fun p => { p with cmd := none, flushed := false, todo := [], reread := [], peers := [], unreachable := false,
                                          peerRetain := none, applyGrad := [] })
  let d := d.retireTags (fun t => t.ctx == c && !t.reserved && [Purpose.secureRead, .resyncRead, .resyncData, .resyncRecheck, .restoreRead,
    .restoreData, .applyRead, .applySlots, .fetchRead, .fetchData, .fetchRecheck].contains t.purpose)
  if !d.protOn c then d
  else d.each (d.entryList m c) (fun d i =>
    if d.flag m c i fAPPLYING && !d.flag m c i fWRITTEN then d.setFlag m c i fTORN true else d)

/-! The input log. -/

/-- A record header (Table 13.7), SEQ and HCRC filled. -/
def logHeader (kind vs step mb len seq pcrc : Nat) : List Byte :=
  let b := toLE 2 kind ++ toLE 1 vs ++ toLE 1 0 ++ toLE 4 step ++ toLE 2 mb ++ toLE 2 0 ++ toLE 4 len ++ toLE 8 seq ++ toLE 4 pcrc
  b ++ toLE 4 (crc32 b)

def pad32 (bs : List Byte) : List Byte := bs ++ List.replicate (roundUp bs.length 32 - bs.length) 0

/-- A DROPPED_INPUT record that the stage controller creates (R315, R393), before its SEQ. -/
def Dev.logDropped (d : Dev) (c v : Nat) (r : Nat) (payload : List Byte) : Dev :=
  if !d.protOn c then d
  else
    let b := logHeader 1 v (rStep r) (rMb r) payload.length 0 (crc32 payload) ++ pad32 payload
    d.updLog c (fun l => { l with pending := l.pending ++ [{ vs := v, mb := BitVec.ofNat 16 (rMb r), bytes := b }] })

/-- Discard an unshipped DROPPED_INPUT record (R394). One whose append has begun is shipped. -/
def Dev.discardDropped (d : Dev) (c v : Nat) (mb : BitVec 16) : Dev :=
  let l := (d.ctx c).log
  let busy := match l.busy with | some b => b.dropped | none => false
  let drop := l.pending.zipIdx.any (fun p => p.1.vs == v && p.1.mb == mb && !(busy && p.2 == 0))
  let d := d.updLog c (fun l => { l with pending := (l.pending.zipIdx.filter (fun p =>
    !(p.1.vs == v && p.1.mb == mb && !(busy && p.2 == 0)))).map (·.1) })
  d.bumpIf drop (Reg.ctxLogDiscarded c)

/-- HEAD advances over leading PAD records and records of a step at most `t` − 2, and is written (R394). -/
def dropKept (t : Nat) : List (Nat × Option (BitVec 32)) → Nat × List (Nat × Option (BitVec 32))
  | [] => (0, [])
  | (n, s) :: r =>
    if (match s with | none => true | some s => s.toNat + 2 ≤ t) then
      let (k, l) := dropKept t r
      (n + k, l)
    else (0, (n, s) :: r)

def Dev.logHeadAdvance (d : Dev) (m : Mem) (c t : Nat) : Dev :=
  let l := (d.ctx c).log
  if !d.protOn c || !l.known then d
  else
    let (n, kept) := dropKept t l.kept
    if n = 0 then d
    else
      let h := (l.head + n) % 2 ^ 64
      (d.updLog c (fun l => { l with head := h, kept := kept })).fabWr c (d.logRemote m c) (toLE 8 h) .logHeader c 1 0

/-! What an OK commit starts. -/

/-- UPDATE items of step `t` are queued and the gates close (R317); with protection on, RETAIN, slot copies and MIRROR items follow
(R385), and the log's HEAD advances (R394). -/
def Dev.commitOk (d : Dev) (m : Mem) (c t : Nat) : Dev :=
  let x := d.ctx c
  let s := BitVec.ofNat 32 t
  let push := fun (d : Dev) v q => d.updStage c v (fun st => { st with queue := st.queue ++ [q] })
  let d := d.each x.stageList (fun d v =>
    if x.unitMask v 2 != 0 && !(d.ownedShards m c v).isEmpty then push d v (.update, s) else d)
  if !d.protOn c then d
  else
    let seed := BitVec.ofNat 64 (d.reg64 (Reg.ctxRngSeedActLo c))
    let hyper := (List.range 8).map (fun n => d.reg (Reg.ctxProtHyper c n))
    let copies := ((d.entryList m c).filter (fun i => eMirror (d.entry m c i))).map
      (fun i => ({ entry := i, step := s, running := false } : SlotCopy))
    let d := d.updProt c (fun p => { p with retain := p.retain ++ [{ step := s, seed := seed, hyper := hyper }],
                                            slotCopies := p.slotCopies ++ copies })
    let d := d.each x.stageList (fun d v => if (d.mirrorsOf m c v).isEmpty then d else push d v (.mirror, s - 1))
    d.logHeadAdvance m c t

/-- A bucket opens: slot copies from its DST that have not ended are void (R387). -/
def Dev.voidCopies (d : Dev) (m : Mem) (c bucket : Nat) : Dev :=
  let l := (d.ctx c).prot.slotCopies.filter (fun q => eBucket (d.entry m c q.entry) == bucket)
  let d := d.updProt c (fun p => { p with slotCopies := p.slotCopies.filter (fun q => !l.contains q) })
  d.each l (fun d q => (d.setEntry m c q.entry (56 + 4 * (q.step.toNat % 2)) (2 ^ 32 - 1)).setFlag m c q.entry fSTALE true)

end Sys2Proof.Machine
end

