-- ==== Sys2Proof/Machine/Pipe.lean ====
section
/-! DEFINITION. The pipeline commands of chapter 10. -/

namespace Sys2Proof.Machine

/-! RING_POLL (R304, R305). -/

/-- One newly filled slot of a FIRST stage: admitted, or freed unrun with an event record. -/
def Dev.admitSlot (d : Dev) (m : Mem) (c v n : Nat) : Dev :=
  let s := (d.ctx c).stage v
  let r := d.slotRec m c v n
  let next := match s.lastMb with | none => true | some (b, _) => rMb r == (b + 1).toNat
  let newStep := match s.lastMb with | none => true | some (_, t) => rStep r != t.toNat
  if rKind r = 0 && rStash r = 0 && rVtag r = 0 && rStashKind r = skNone && next && rFirst r == newStep then
    d.updStage c v (fun s => { s with lastMb := some (BitVec.ofNat 16 (rMb r), BitVec.ofNat 32 (rStep r)) })
  else (d.doneSlot m c v n).event [c] 0x0801 2 (rMb r) v 0

def xRingPoll (c v : Nat) : Effect := fun m d =>
  let x := d.ctx c
  if x.pipe.state != .running || !x.validStage v then d
  else
    let (d, f) := d.engineRead m c (x.fwdRing v) 32
    let (d, b) := d.engineRead m c (x.bwdRing v) 32
    match f, b with
    | some f, some b =>
      let old := (x.stage v).fwdProd.toNat
      let new := leOf (f.take 4)
      let d := d.updStage c v (fun s => { s with fwdProd := BitVec.ofNat 32 new, bwdProd := BitVec.ofNat 32 (leOf (b.take 4)) })
      if x.isFirst v then
        d.each (List.range (min (slotsFrom new old) (x.fwdSlots v))) (fun d i => d.admitSlot m c v ((old + i) % 2 ^ 32))
      else d
    | _, _ => d

/-! RECOMPUTE (R316). -/

/-- The lowest-numbered DROPPED micro-batch of a stage. -/
def Dev.droppedSlot (m : Mem) (d : Dev) (c v : Nat) : Option Nat :=
  (d.heldSlots m c v).find? (fun n => rStashKind (d.slotRec m c v n) == skDropped)

/-- The slot and the stash place of a RECOMPUTE that is ready. -/
def Dev.recomputeReady (m : Mem) (d : Dev) (c v : Nat) : Option (Nat × (Nat × Nat × Nat)) :=
  match d.droppedSlot m c v with
  | none => none
  | some n =>
    let restarted := rRestarted (d.slotRec m c v n)
    if (d.localShards m c v).all (fun i => d.localRec m (d.shardEntry m c v i) (d.slotTag m c v n i) restarted) then
      (d.stashPlace m c v true).map (fun p => (n, p))
    else none

/-- A restarted micro-batch takes the current version of every local shard (R319): new tags, and its references move. -/
def Dev.retag (d : Dev) (m : Mem) (c v n : Nat) : Dev :=
  let old := (d.localShards m c v).filter (fun i =>
    d.slotTag m c v n i != lCurTag (d.ledger m (d.shardEntry m c v i)))
  let owners := (old.map (fun i => lVs (d.ledger m (d.shardEntry m c v i)))).dedup
  let d := d.each old (fun d i => d.putTag m c v n i (lCurTag (d.ledger m (d.shardEntry m c v i))))
  d.each owners (fun d w => (d.updStage c w (fun s =>
    let s := s.dropPrev d.lode.count
    { s with curRefs := s.curRefs + 1 })).retireDue m c w)

/-- RECOMPUTE_ITEM (R316), or its dispatch again after a fault of a unit tile (R324). -/
def xRecomputeItem (c v : Nat) : Effect := fun m d =>
  let x := d.ctx c
  let s := x.stage v
  match s.fwdItem with
  | some i => if i.kind == .recompute then d.startItem m c v i else d
  | none =>
    if !x.mayDispatch v || s.fwdOut.isSome then d
    else match d.recomputeReady m c v with
      | none => d
      | some (n, p) =>
        let d := if rRestarted (d.slotRec m c v n) then d.retag m c v n else d
        let d := d.takeStash m c v p
        let r := d.slotRec m c v n
        let gs := d.gathersFor m c v false (fun i => some (d.slotTag m c v n i))
        let binds := (d.localShards m c v).foldl (fun b i => mset b i (d.bindF m (d.shardEntry m c v i))) (d.heldBinds m c v false gs)
        d.beginItem m c v
          { kind := .recompute, slot := n, mb := BitVec.ofNat 16 (rMb r), step := BitVec.ofNat 32 (rStep r), stash := p,
            gathers := gs, tags := [], binds := binds, owners := [], started := false, sums := [] }

/-! FORWARD (R308, R311, R315). -/

/-- The next forward slot that is to run, if it is filled. -/
def Dev.nextForward (d : Dev) (c v : Nat) : Option Nat :=
  let s := (d.ctx c).stage v
  ((List.range (slotsFrom s.fwdProd.toNat s.fwdNext.toNat)).map (fun i => (s.fwdNext.toNat + i) % 2 ^ 32)).find?
    (fun n => !s.fwdDone.contains n)

/-- Every local shard binds at VSTEP. -/
def Dev.forwardBinds (m : Mem) (d : Dev) (c v n : Nat) : Bool :=
  let vs := rVstep (d.slotRec m c v n)
  (d.localShards m c v).all (fun i => d.localFwd m (d.shardEntry m c v i) vs)

/-- The stash of a FORWARD item (R315). -/
def Dev.forwardStash (d : Dev) (m : Mem) (c v n : Nat) : Dev × (Nat × Nat × Nat) :=
  match d.stashPlace m c v false with
  | some p => (d.takeStash m c v p, p)
  | none =>
    let x := d.ctx c
    let d := d.bump (Reg.ctxPipeDrops c v)
    let a := x.fwdSlotAt v n + 256 + x.tagBytes v
    (d.logDropped c v (d.slotRec m c v n) (peekN m d a (x.inBytes v)), (skDropped, x.dropSink, 0))

/-- FORWARD_ITEM (R308), or its dispatch again (R324). -/
def xForwardItem (c v : Nat) : Effect := fun m d =>
  let x := d.ctx c
  let s := x.stage v
  match s.fwdItem with
  | some i => if i.kind == .forward then d.startItem m c v i else d
  | none =>
    if !x.mayDispatch v || s.fwdOut.isSome || s.gateClosed || (d.recomputeReady m c v).isSome then d
    else match d.nextForward c v with
      | none => d
      | some n =>
        let x := d.ctx c
        if !d.forwardBinds m c v n || !d.engineMay c (x.fwdSlotAt v n) (x.fwdSlotSize v) then d
        else
          let (d, p) := d.forwardStash m c v n
          let gs := d.gathersFor m c v false (fun _ => none)
          let locals := d.localShards m c v
          let r := setFld (setFld (d.recWithStash (d.slotRec m c v n) p) 15 13 v) 12 11 0
          let d := d.putRec m c v n r
          let d := d.each locals (fun d i => d.putTag m c v n i (lCurTag (d.ledger m (d.shardEntry m c v i))))
          let binds := locals.foldl (fun b i => mset b i (d.bindF m (d.shardEntry m c v i))) []
          let d := d.each (d.ownersOf m c v) (fun d w => d.updStage c w (fun s => { s with curRefs := s.curRefs + 1 }))
          let d := d.updStage c v (fun s => { s with fwdNext := BitVec.ofNat 32 (n + 1) })
          d.beginItem m c v
            { kind := .forward, slot := n, mb := BitVec.ofNat 16 (rMb r), step := BitVec.ofNat 32 (rStep r), stash := p,
              gathers := gs, tags := [], binds := binds, owners := [], started := false, sums := [] }

/-! BACKWARD (R308, R311). -/

/-- The forward slot of the micro-batch at the head of the backward ring, when the item is ready. -/
def Dev.backwardReady (m : Mem) (d : Dev) (c v : Nat) : Option Nat :=
  let x := d.ctx c
  let n := d.ringCons m (x.bwdRing v)
  if n = (x.stage v).bwdProd.toNat then none
  else
    let mb := rMb (peekLE m d (x.bwdSlotAt v n) 32)
    match (d.heldSlots m c v).find? (fun k => rMb (d.slotRec m c v k) == mb) with
    | none => none
    | some k =>
      let running := match (x.stage v).fwdItem with | some i => i.slot == k | none => false
      if running || rStashKind (d.slotRec m c v k) = skDropped then none
      else if (d.localShards m c v).all (fun i =>
        (bwdArray (d.ledger m (d.shardEntry m c v i)) (d.slotTag m c v k i)).isSome) then some k
      else none

/-- BACKWARD_ITEM (R308). -/
def xBackwardItem (c v : Nat) : Effect := fun m d =>
  let x := d.ctx c
  let s := x.stage v
  match s.bwdItem with
  | some i => d.startItem m c v i
  | none =>
    if !x.mayDispatch v || s.bwdOut.isSome then d
    else match d.backwardReady m c v with
      | none => d
      | some n =>
        let r := d.slotRec m c v n
        let tagOf := fun i => d.slotTag m c v n i
        let locals := d.localShards m c v
        let isPrev := fun i => match bwdArray (d.ledger m (d.shardEntry m c v i)) (tagOf i) with | some (b, _) => b | none => false
        let prevs := locals.filter isPrev
        let owners := (d.ownersOf m c v).map (fun w =>
          (w, prevs.any (fun i => lVs (d.ledger m (d.shardEntry m c v i)) == w)))
        let gs := d.gathersFor m c v true (fun i => some (tagOf i))
        let binds := locals.foldl (fun b i =>
          let z := d.shardEntry m c v i
          let y := d.ledger m z
          match bwdArray y (tagOf i) with
          | some (_, t1) => mset b i (d.here (lRec y + sTOff z t1))
          | none => b) (d.heldBinds m c v true gs)
        let d := d.bumpN (Reg.ctxPipePrevUsed c v) prevs.length
        let d := if prevs.isEmpty then d else d.putRec m c v n (setFld r 6 6 1)
        let first := s.orderStep != some (BitVec.ofNat 32 (rStep r))
        let d := if first then
            let d := d.updStage c v (fun s => { s with orderStep := some (BitVec.ofNat 32 (rStep r)) })
            d.each (d.unitTiles c v 1) (fun d t => d.scrStore m t (x.orderAddr v) (toLE 2 (rMb r)))
          else d
        d.beginItem m c v
          { kind := .backward, slot := n, mb := BitVec.ofNat 16 (rMb r), step := BitVec.ofNat 32 (rStep r), stash := rPlace r,
            gathers := gs, tags := [], binds := binds, owners := owners, started := false, sums := [] }

/-! UPDATE (R317, R384, R385). -/

/-- Gradient addresses of an UPDATE or APPLY by position of the shard list. -/
def Dev.gradTable (m : Mem) (d : Dev) (c v : Nat) (k : ItemKind) : List Nat :=
  let own := d.ownedShards m c v
  (d.shards c v).map (fun i =>
    if !own.contains i then 0
    else match d.entryOfRec m c (lRec (d.ledger m (d.shardEntry m c v i))) with
      | none => 0
      | some e => if k == .apply then mget 0 (d.ctx c).prot.applyGrad e else d.here (eGsrc (d.entry m c e)))

/-- UPDATE_ITEM (R317): an UPDATE or an APPLY at the head of the stage's queue. -/
def xUpdateItem (c v : Nat) : Effect := fun m d =>
  let x := d.ctx c
  let s := x.stage v
  match s.updItem, s.queue with
  | some i, _ => if i.kind != .mirror then d.startItem m c v i else d
  | none, [] => d
  | none, (k, t) :: rest =>
    if k == .mirror || !x.mayDispatch v || !d.updateReady m c v || (d.protOn c && !d.retained m c t.toNat) then d
    else
      let own := d.ownedShards m c v
      let d := d.updStage c v (fun s => { s with queue := rest })
      let d := d.each own (fun d i =>
        let z := d.shardEntry m c v i
        let d := d.putLedger m c z (setFld (d.ledger m z) 6 6 1)
        if d.protOn c then
          let rec_ := lRec (d.ledger m z)
          let d := d.engineWrite m c rec_ (toLE 64 (setFld (d.header m rec_) 479 416 0))
          match d.entryOfRec m c rec_ with
          | some e => d.setFlag m c e fAPPLYING true
          | none => d
        else d)
      let d := if d.protOn c then d.putUpdateBlock m c v t.toNat (if k == .apply then 2 else 0) (d.gradTable m c v k) else d
      d.beginItem m c v (updItemOf k t (own.map (fun i => (i, d.here (lRec (d.ledger m (d.shardEntry m c v i)))))))

/-! ITEM_DONE (R309, R313). -/

/-- A FORWARD or RECOMPUTE item is done. -/
def Dev.forwardDone (d : Dev) (m : Mem) (c v : Nat) (i : Item) : Dev :=
  let x := d.ctx c
  let d := d.updStage c v (fun s => { s with fwdItem := none })
  let r := d.slotRec m c v i.slot
  if i.kind == .recompute then
    (d.putRec m c v i.slot (setFld (d.recWithStash r i.stash) 5 5 1)).bump (Reg.ctxPipeRecomputes c v)
  else
    let last := x.isLast v
    let vs := if last then v else (d.stageOfRing c (x.dnRing v) false).getD v
    d.setOut c v false (some { target := if last then 1 else 0, rec_ := outRecord r (if last then 1 else 0) vs })

/-- A BACKWARD item is done: references fall, slots and stash are freed. -/
def Dev.backwardDone (d : Dev) (m : Mem) (c v : Nat) (i : Item) : Dev :=
  let x := d.ctx c
  let r := d.slotRec m c v i.slot
  let d := d.updStage c v (fun s => { s with bwdItem := none })
  let d := d.each i.owners (fun d w =>
    (d.updStage c w.1 (fun s => if w.2 then s.dropPrev d.lode.count else { s with curRefs := s.curRefs - 1 })).retireDue m c w.1)
  let d := d.discardDropped c v i.mb
  let d := d.freeStash m c v (rPlace r)
  let d := d.doneSlot m c v i.slot
  let n := d.ringCons m (x.bwdRing v)
  let d := d.setCons m c v (x.bwdRing v) ((n + 1) % 2 ^ 32)
  if x.isFirst v then d
  else d.setOut c v true (some { target := 2, rec_ := outRecord r 1 ((d.stageOfRing c (x.upRing v) true).getD v) })

/-- An item of the update unit is done: WRITTEN, then the SUM of every record (R317 step 5, R385, R386). -/
def Dev.updateDone (d : Dev) (m : Mem) (c v : Nat) (i : Item) : Dev :=
  let d := d.each (d.unitTiles c v 2) (fun d t => d.setTile t { d.tile t with updKey := none })
  let es := if i.kind == .mirror then d.mirrorsOf m c v
    else if d.protOn c then (d.ownedShards m c v).filterMap (fun k => d.entryOfRec m c (lRec (d.ledger m (d.shardEntry m c v k))))
    else []
  let d := d.each es (fun d e => d.setFlag m c e fWRITTEN true)
  d.updStage c v (fun s => { s with updItem := some { i with sums := i.binds.map (·.1) } })

def xItemDone (c v u : Nat) : Effect := fun m d =>
  let x := d.ctx c
  let lead := leadTile (x.unitMask v u)
  match (x.stage v).item u with
  | none => d
  | some i =>
    if x.pipe.state == .off || x.pipe.state == .fault || !i.started || !i.sums.isEmpty || !(d.tile lead).sem 15 then d
    else
      let d := d.clearSem lead 15
      if u = 0 then d.forwardDone m c v i else if u = 1 then d.backwardDone m c v i else d.updateDone m c v i

/-! UPDATE_SUM_COMPLETE (R317 step 5, R386). -/

/-- No item of the context is left of a command APPLY or PROMOTE (R399, R400). -/
def Dev.noneLeft (d : Dev) (c : Nat) (k : ItemKind) : Bool :=
  (d.ctx c).stageList.all (fun v =>
    let s := (d.ctx c).stage v
    !s.queue.any (fun q => q.1 == k) && (match s.updItem with | some i => i.kind != k | none => true))

/-- The record at a position is finished. -/
def Dev.sumDone (d : Dev) (m : Mem) (c v k : Nat) (i : Item) : Dev :=
  let t := i.step.toNat
  let z := d.shardEntry m c v k
  let e := if i.kind == .mirror then ((d.mirrorPlaces m c v).find? (fun p => p.1 == k)).map (·.2)
    else if d.protOn c then d.entryOfRec m c (lRec (d.ledger m z)) else none
  let rec_ := gOffset (mget 0 i.binds k)
  let sum := d.sumOf m rec_
  let d := d.finishRecord m c rec_ t sum true
  let d := if i.kind == .mirror then d else d.finishLedger m c z t sum
  match e with
  | none => d
  | some e => (d.newVstep m c e t).setFlags m c e [fAPPLYING, fWRITTEN] false

/-! OUTPUT_DELIVERY (R307). -/

def xOutputDelivery (c v : Nat) (bwd : Bool) : Effect := fun m d =>
  let x := d.ctx c
  if x.pipe.state == .off || x.pipe.state == .fault then d
  else match (x.stage v).out bwd with
    | none => d
    | some o => if o.phase != 0 || 4 ≤ d.deliveries c || !(d.targetOf m c v o.target).credit then d else d.deliver m c v bwd o

/-! Retirement (R314). -/

def xVersionRetire (c v : Nat) : Effect := fun m d =>
  let s := (d.ctx c).stage v
  let hold := d.rf (Reg.ctxPipeCtrl c) 19 0
  if s.prevLive && s.prevRefs = 0 && hold ≤ (d.lode.count - s.prevIdleLt).toNat then d.retireVersion m c v else d

def Dev.retireNow (d : Dev) (m : Mem) (c : Nat) : Dev :=
  d.each (d.ctx c).stageList (fun d v =>
    let s := (d.ctx c).stage v
    if !s.prevLive then d
    else if s.prevRefs = 0 then d.retireVersion m c v
    else d.updStage c v (fun s => { s with retireNow := true }))

/-! FLUSH (R323). -/

def Dev.flushStage (d : Dev) (m : Mem) (c v : Nat) : Dev :=
  let x := d.ctx c
  let held := d.heldSlots m c v
  let d := d.each held (fun d n => d.freeStash m c v (rPlace (d.slotRec m c v n)))
  let fp := d.ringProd m (x.fwdRing v)
  let bp := d.ringProd m (x.bwdRing v)
  let d := d.setCons m c v (x.fwdRing v) fp
  let d := d.setCons m c v (x.bwdRing v) bp
  let d := d.updStage c v (fun s => { s with curRefs := 0, prevRefs := 0, fwdProd := BitVec.ofNat 32 fp, bwdProd := BitVec.ofNat 32 bp,
                                             fwdNext := BitVec.ofNat 32 fp, fwdDone := [], stashUsed := [], screeBlocks := 0,
                                             lastMb := none, orderStep := none, fwdOut := none, bwdOut := none })
  let d := if ((d.ctx c).stage v).prevLive then d.retireVersion m c v else d
  d.each (d.ownedShards m c v) (fun d i =>
    let z := d.shardEntry m c v i
    d.putLedger m c z (setFld (d.ledger m z) 6 6 0))

def Dev.pipeFlush (d : Dev) (m : Mem) (c : Nat) : Dev :=
  let d := d.each (d.ctx c).stageList (fun d v => d.flushStage m c v)
  let n := (d.ctx c).log.pending.length
  let busy := match (d.ctx c).log.busy with | some b => b.dropped | none => false
  let keep := if busy then 1 else 0
  (d.updLog c (fun l => { l with pending := l.pending.take keep })).bumpN (Reg.ctxLogDiscarded c) (n - keep)

/-! Enabling (R322). -/

/-- A span of local HBM that must lie in the context's pages. -/
def Dev.spanOk (d : Dev) (c a n : Nat) : Bool := a + n ≤ 0x010000000000 && d.engineMay c a n

/-- Buffers of a unit do not overlap and end within 32 MiB. -/
def buffersOk (l : List (Nat × Nat)) : Bool :=
  l.all (fun p => p.1 + p.2 ≤ 0x2000000) &&
    l.zipIdx.all (fun p => l.zipIdx.all (fun q => p.2 ≥ q.2 || !spansMeet p.1.1 p.1.2 q.1.1 q.1.2))

/-- One entry of the stage table (R322). -/
def Dev.stageOk (m : Mem) (d : Dev) (x : Ctx) (c v : Nat) : Bool :=
  let f := fun off n => x.stageField v off n
  let work := 64 + 8 * x.shardCount v
  let units := [x.unitMask v 0, x.unitMask v 1, x.unitMask v 2]
  f 0 1 == v && f 2 1 % 2 == 1 && f 2 1 < 8 && f 3 1 == 0 && f 84 4 == 0 && f 118 2 == 0 && f 130 126 == 0
    && f 28 4 < 2 ^ 20 && f 32 4 < 2 ^ 20 && f 36 4 < 2 ^ 20 && f 40 4 < 2 ^ 20
    && 1 ≤ x.inBytes v && x.inBytes v ≤ 2 ^ 24 && 1 ≤ x.outBytes v && x.outBytes v ≤ 2 ^ 24
    && 2 ≤ x.fwdSlots v && x.fwdSlots v ≤ 1024 && 1 ≤ x.bwdSlots v && x.bwdSlots v ≤ 1024
    && 2 ≤ x.stashSlots v && x.stashSlots v ≤ 255 && x.shardCount v ≤ 1024
    && f 56 8 < 2 ^ 41 && f 64 8 < 2 ^ 41 && f 96 8 < 2 ^ 41 && f 104 8 < 2 ^ 41 && f 120 8 < 2 ^ 41
    && units.all (fun u => u &&& (2 ^ 64 - 1 - x.tileMask.toNat) == 0)
    && x.unitMask v 0 != 0 && x.unitMask v 1 != 0
    && (!x.isFirst v || x.upRing v == 0) && (!x.isLast v || x.dnRing v == 0)
    && (x.isLast v || 1 ≤ x.dnSlots v) && (x.isFirst v || 1 ≤ x.upSlots v)
    && buffersOk [(x.inAddr v, x.inBytes v), (x.outAddr v, x.outBytes v), (x.workAddr v, work)]
    && buffersOk [(x.inAddr v, x.outBytes v), (x.outAddr v, x.inBytes v), (x.workAddr v, work), (x.orderAddr v, 2)]
    && d.spanOk c (x.fwdRing v) (256 + x.fwdSlots v * x.fwdSlotSize v)
    && d.spanOk c (x.bwdRing v) (256 + x.bwdSlots v * x.bwdSlotSize v)
    && d.spanOk c (x.creditBlock v) 16
    && d.spanOk c (x.stashBase v) (x.stashSlots v * roundUp (x.stashBytes v) 256)
    && d.spanOk c x.dropSink (x.stashBytes v)
    && d.spanOk c (x.shardList v) (64 * x.shardCount v)
    && (List.range (x.shardCount v)).all (fun i =>
      let z := peekLE m d (x.shardList v + 64 * i) 64
      if d.isLocal (sLedger z) then d.spanOk c (gOffset (sLedger z)) 32
      else d.spanOk c (sFdst z) (sWfBytes z) && d.spanOk c (sBdst z) (sTBytes z))

/-- No two units of the context share a tile (R300). -/
def unitsDisjoint (x : Ctx) : Bool :=
  (List.range 64).all (fun t =>
    ((x.stageList.flatMap (fun v => [x.unitMask v 0, x.unitMask v 1, x.unitMask v 2])).filter (fun u => u.testBit t)).length ≤ 1)

/-- The first entry that fails, 0 for a failure of the whole table; none when the table is valid. -/
def Dev.tableFault (m : Mem) (d : Dev) (x : Ctx) (c : Nat) : Option Nat :=
  if leOf (x.pipe.table.take 2) != 1 || (x.pipe.table.drop 3).take 5 != List.replicate 5 0
      || (x.pipe.table.drop 16).take 48 != List.replicate 48 0 || !unitsDisjoint x then some 0
  else (List.range 8).find? (fun v =>
    if x.vsMask.testBit v then !d.stageOk m x c v else (x.stageField v 2 1).testBit 0)

/-- A stage as its ring headers and ledgers show it when the pipeline leaves OFF (log entry 52). -/
def Dev.initStage (m : Mem) (d : Dev) (c v : Nat) : Stage :=
  let x := d.ctx c
  let n := BitVec.ofNat 32 (d.ringCons m (x.fwdRing v))
  let base : Stage := { fwdProd := n, fwdNext := n, bwdProd := BitVec.ofNat 32 (d.ringCons m (x.bwdRing v)),
                        dnSent := BitVec.ofNat 32 (peekLE m d (x.creditBlock v) 4),
                        upSent := BitVec.ofNat 32 (peekLE m d (x.creditBlock v + 8) 4) }
  match d.ownedShards m c v with
  | [] => base
  | i :: _ =>
    let y := d.ledger m (d.shardEntry m c v i)
    { base with curStep := BitVec.ofNat 32 (tagStep (lCurTag y)), prevStep := BitVec.ofNat 32 (tagStep (lPrevTag y)),
                prevLive := lPrevLive y, prevIdleLt := d.lode.count }

/-- ENABLE 0 to 1: the table is read and validated; the pipeline runs, or is in FAULT with an event record. -/
def Dev.pipeStart (d : Dev) (m : Mem) (c : Nat) : Dev :=
  let base := d.reg64 (Reg.ctxPipeBaseLo c) % 2 ^ 41 / 256 * 256
  let (d, r) := if d.engineMay c base 2112 then d.engineRead m c base 2112 else (d, none)
  let x := d.ctx c
  let y := { x with pipe := { x.pipe with table := r.getD [] } }
  let bad := if r.isNone then some 0 else d.tableFault m y c
  match bad with
  | some v => (d.setCtx c { x with pipe := { x.pipe with state := .fault } }).event [c] 0x0803 2 v 0 0
  | none =>
    let fresh := x.pipe.state == .off
    let d := d.setCtx c { y with pipe := { y.pipe with state := .running } }
    let d := (d.setRf (Reg.ctxPipeStatus c) 7 0 y.vsMask).setRegN (Reg.ctxPipeDiverged c) 0xFFFFFFFF
    d.each y.stageList (fun d v =>
      let s := if fresh || (mfind x.pipe.stages v).isNone then d.initStage m c v
        else { (d.ctx c).stage v with gatheredF := [], gatheredB := [] }
      let d := d.setStage c v s
      (d.setReg (Reg.ctxPipeCurStep c v) s.curStep).setReg (Reg.ctxPipePrevStep c v) s.prevStep)

/-- A write of CTX_PIPE_CTRL (R325): CMD is taken in the state before the write's ENABLE. -/
def Dev.pipeCtrlWrite (d : Dev) (m : Mem) (c : Nat) (v : BitVec 32) : Dev :=
  let cmd := fb v 30 28
  if 3 ≤ cmd then d
  else
    let st := (d.ctx c).pipe.state
    let was := d.rb (Reg.ctxPipeCtrl c) 31
    let d := d.putReg (Reg.ctxPipeCtrl c) v
    let d := if cmd = 1 && (st == .off || st == .stopped) then d.pipeFlush m c else if cmd = 2 then d.retireNow m c else d
    if !was && v.getLsbD 31 then d.pipeStart m c
    else if was && !v.getLsbD 31 then
      let x := d.ctx c
      d.setCtx c { x with pipe := { x.pipe with state := .stopped } }
    else d

/-- CTX_PIPE_CTRL with another CMD and the rest as it stands. -/
def Dev.pipeCmd (d : Dev) (c cmd : Nat) : BitVec 32 := BitVec.ofNat 32 (setFld (d.reg (Reg.ctxPipeCtrl c)).toNat 30 28 cmd)

/-! Resets and teardown (R323). -/

/-- The pipeline of a context stops: items are lost, scree stashes become DROPPED (log entry 53). -/
def Dev.pipeReset (d : Dev) (m : Mem) (c : Nat) : Dev :=
  let x := d.ctx c
  if x.pipe.state == .off then d.screeClear m c
  else
    let d := d.retireTags (fun t => (t.purpose == .gatherLedger || t.purpose == .gatherData || t.purpose == .gatherRecheck
      || t.purpose == .delivery || t.purpose == .credit) && t.ctx == c && !t.reserved)
    let d := d.each x.stageList (fun d v =>
      let d := d.each (d.heldSlots m c v) (fun d n =>
        let r := d.slotRec m c v n
        if rStashKind r = skScree then d.putRec m c v n (d.recWithStash r (skDropped, x.dropSink, 0)) else d)
      d.updStage c v (fun s => { s with fwdItem := none, bwdItem := none, updItem := none, fwdOut := none, bwdOut := none,
                                        queue := [], screeBlocks := 0 }))
    let y := d.ctx c
    (d.setCtx c { y with pipe := { y.pipe with state := .stopped } }).screeClear m c

/-! Counters of Table 10.13 that count lt. -/

/-- A FORWARD whose only obstacle is its version or the gate (R311). -/
def Dev.versionWaits (m : Mem) (d : Dev) (c v : Nat) : Bool :=
  let s := (d.ctx c).stage v
  s.fwdItem.isNone && (match d.nextForward c v with | some n => s.gateClosed || !d.forwardBinds m c v n | none => false)

def Dev.forwardReady (m : Mem) (d : Dev) (c v : Nat) : Bool :=
  let s := (d.ctx c).stage v
  (d.recomputeReady m c v).isSome ||
    (!s.gateClosed && (match d.nextForward c v with | some n => d.forwardBinds m c v n | none => false))

/-- One lt of a stage's counters. -/
def Dev.stageTick (d : Dev) (m : Mem) (c v : Nat) : Dev :=
  let x := d.ctx c
  let s := x.stage v
  let run := fun (o : Option Item) => match o with | some i => i.started | none => false
  let gat := fun (o : Option Item) => match o with | some i => !i.gathers.isEmpty | none => false
  let stall := fun (o : Option Delivery) => match o with
    | some y => y.phase == 0 && !(d.targetOf m c v y.target).credit | none => false
  let d1 := d.bumpIf (run s.fwdItem) (Reg.ctxPipeFwdBusy c v)
  let d1 := d1.bumpIf (s.fwdItem.isNone && s.fwdOut.isNone && !d.forwardReady m c v) (Reg.ctxPipeFwdStarve c v)
  let d1 := d1.bumpIf (stall s.fwdOut) (Reg.ctxPipeFwdOutStall c v)
  let d1 := d1.bumpIf (run s.bwdItem) (Reg.ctxPipeBwdBusy c v)
  let d1 := d1.bumpIf (s.bwdItem.isNone && s.bwdOut.isNone && (d.backwardReady m c v).isNone) (Reg.ctxPipeBwdStarve c v)
  let d1 := d1.bumpIf (stall s.bwdOut) (Reg.ctxPipeBwdOutStall c v)
  let d1 := d1.bumpIf (d.versionWaits m c v) (Reg.ctxPipeVersionWait c v)
  let d1 := d1.bumpIf (gat s.fwdItem || gat s.bwdItem) (Reg.ctxPipeGatherLt c v)
  let waits := match s.queue with | (k, _) :: _ => k != .mirror && s.updItem.isNone && !d.updateReady m c v | [] => false
  d1.bumpIf waits (Reg.ctxRetireWait c)

/-- One lt of every running pipeline. -/
def Dev.pipeTick (d : Dev) (m : Mem) : Dev :=
  d.each (d.ctxs.filter (fun p => p.2.pipe.state == .running)) (fun d p => d.each p.2.stageList (fun d v => d.stageTick m p.1 v))

/-! One meaning per command. -/

def execRingPoll (c : Fin 64) (vs : Fin 8) (s : State) : Host.Outcome State Fault Refusal := s.run (xRingPoll c.val vs.val)
def execForwardItem (c : Fin 64) (vs : Fin 8) (s : State) : Host.Outcome State Fault Refusal := s.run (xForwardItem c.val vs.val)
def execBackwardItem (c : Fin 64) (vs : Fin 8) (s : State) : Host.Outcome State Fault Refusal := s.run (xBackwardItem c.val vs.val)
def execRecomputeItem (c : Fin 64) (vs : Fin 8) (s : State) : Host.Outcome State Fault Refusal :=
  s.run (xRecomputeItem c.val vs.val)
def execUpdateItem (c : Fin 64) (vs : Fin 8) (s : State) : Host.Outcome State Fault Refusal := s.run (xUpdateItem c.val vs.val)
def execItemDone (c : Fin 64) (vs : Fin 8) (unit : Fin 3) (s : State) : Host.Outcome State Fault Refusal :=
  s.run (xItemDone c.val vs.val unit.val)
def execOutputDelivery (c : Fin 64) (vs : Fin 8) (bwd : Bool) (s : State) : Host.Outcome State Fault Refusal :=
  s.run (xOutputDelivery c.val vs.val bwd)
def execVersionRetire (c : Fin 64) (vs : Fin 8) (s : State) : Host.Outcome State Fault Refusal :=
  s.run (xVersionRetire c.val vs.val)

/-- PIPE_ENABLE (R322, R325): a write of CTX_PIPE_CTRL by the owner. -/
def execPipeEnable (r : Requester) (c : Fin 64) (v : BitVec 32) (s : State) : Host.Outcome State Fault Refusal :=
  s.runReg r (Reg.ctxPipeCtrl c.val) v (fun d => d.mayWriteCtx r c.val) (fun m d => (d.pipeCtrlWrite m c.val v, stOK))

/-- PIPE_FLUSH (R323). -/
def execPipeFlush (r : Requester) (c : Fin 64) (s : State) : Host.Outcome State Fault Refusal :=
  s.runReg r (Reg.ctxPipeCtrl c.val) (s.dev.pipeCmd c.val 1) (fun d => d.mayWriteCtx r c.val)
    (fun m d => (d.pipeCtrlWrite m c.val (d.pipeCmd c.val 1), stOK))

/-- PIPE_RETIRE_NOW (R314). -/
def execPipeRetireNow (r : Requester) (c : Fin 64) (s : State) : Host.Outcome State Fault Refusal :=
  s.runReg r (Reg.ctxPipeCtrl c.val) (s.dev.pipeCmd c.val 2) (fun d => d.mayWriteCtx r c.val)
    (fun m d => (d.pipeCtrlWrite m c.val (d.pipeCmd c.val 2), stOK))

end Sys2Proof.Machine
end

