-- ==== Sys2Proof/Machine/HostOps.lean ====
section
/-! DEFINITION. Pequa ports (R326 to R332): flits, a port that goes DOWN, requests of the package that start again, and host memory
requests (R333, R334). -/

namespace Sys2Proof.Machine

/-! Flits (R327, Table 11.2). -/

/-- The I/O die of a host port (R326). -/
def hostDie (p : Nat) : Nat := if p < 2 then 4 else 5

/-- A host port may leave DOWN: its die is in service, IB is not fenced, start-up has reached its links (Table 16.8). -/
def Dev.hostMayTrain (d : Dev) (p : Nat) : Bool := 4 ≤ d.pwr.phase && (d.role == .ready || d.role == .degraded) && !d.lost (hostDie p)

/-- Read requests: LEN names bytes requested, and none are carried. -/
def isReadOpc (o : Nat) : Bool := o == 1 || o == 3 || o == 4 || o == 6 || o == 0x10 || o == 0x12 || o == 0x13

end Sys2Proof.Machine

namespace Sys2Proof

open Sys2Proof.Machine

/-- Data bytes a packet carries, and its units. -/
def HPacket.carried (k : HPacket) : Nat := if isReadOpc k.opc then 0 else k.len
def HPacket.units (k : HPacket) : Nat := 1 + ceilDiv k.carried 16

end Sys2Proof

namespace Sys2Proof.Machine

/-- Header and data of a packet as units. -/
def hpUnits (k : HPacket) : List (BitVec 128) :=
  k.hdr :: (List.range (ceilDiv k.data.length 16)).map (fun u => BitVec.ofNat 128 (leOf ((k.data.drop (16 * u)).take 16)))

/-- The complete packet at the front of some units, and what follows it. -/
def takeHostPacket (l : List (BitVec 128)) : Option (HPacket × List (BitVec 128)) :=
  match l with
  | [] => none
  | h :: r =>
    let n := ({ hdr := h, data := [] } : HPacket).carried
    let u := ceilDiv n 16
    if r.length < u then none
    else some ({ hdr := h, data := (((r.take u).map (fun (x : BitVec 128) => toLE 16 x.toNat)).flatten).take n }, r.drop u)

/-- Units of a DATA flit joined to those held; a PAD where a packet would begin empties the rest of the flit. -/
def joinHostUnits : Nat → List (BitVec 128) → List (BitVec 128) → List HPacket × List (BitVec 128)
  | 0, held, _ => ([], held)
  | n + 1, held, units =>
    let pad := held.isEmpty && (match units with | a :: _ => fb a 127 122 == 0 | [] => true)
    if pad then ([], [])
    else match takeHostPacket (held ++ units) with
      | none => ([], held ++ units)
      | some (k, rest) =>
        let (more, left) := joinHostUnits n [] rest
        (k :: more, left)

/-- FACK: flits up to it leave the replay buffer, modulo 4,096. -/
def HostPort.acknowledge (x : HostPort) (ack : Nat) : HostPort :=
  let gone := (x.unacked.takeWhile (fun f => (ack + 4096 - fb f 143 132) % 4096 < 2048)).length
  { x with unacked := x.unacked.drop gone, toReplay := min x.toReplay (x.unacked.length - gone) }

def HostPort.credit (x : HostPort) (cls units : Nat) : HostPort :=
  if units = 0 then x else { x with credits := mupd 0 x.credits cls (· + units) }

/-- The port enters RETRAIN (R329). -/
def Dev.hostRetrain (d : Dev) (p : Nat) : Dev :=
  ((d.setHost p { d.host p with state := .retrain }).bump (Reg.devHpRetrains p)).noteLink

/-- The header of a flit: acknowledgement, credits, NAK (R328). -/
def Dev.hostHeader (d : Dev) (p f : Nat) : Dev :=
  let x := (d.host p).acknowledge (fld f 131 120)
  let x := ((x.credit (fld f 117 116) (fld f 115 104)).credit (fld f 103 102) (fld f 101 90)).credit (fld f 89 88) (fld f 87 76)
  if f.testBit 118 then
    let seq := BitVec.ofNat 12 (fld f 131 120 + 1)
    let n := if x.nakSeq == seq then x.nakCount + 1 else 1
    let d := (d.setHost p { x with nakSeq := seq, nakCount := n, toReplay := x.unacked.length }).bump (Reg.devHpReplays p)
    if 8 ≤ n then d.hostRetrain p else d
  else d.setHost p x

/-- Answer a host's request: DRSP to a read, DCMP else (Table 11.6), echoing its TAG, CTX and GEN. -/
def Dev.hostAnswer (d : Dev) (p : Nat) (k : HPacket) (st grant : Nat) (data : List Byte) : Dev :=
  d.sendHost p { hdr := hpHdr (if isReadOpc k.opc then 0x0B else 0x0C) 2 k.tag st k.ctx k.gen data.length grant 0, data := data }

/-- Units of a packet that has left the receive buffer go back to the host. -/
def Dev.returnUnits (d : Dev) (p : Nat) (k : HPacket) : Dev :=
  d.setHost p { d.host p with owed := mupd 0 (d.host p).owed k.cls (· + k.units) }

/-- A packet is performed: it leaves the receive buffer. -/
def Dev.takenHost (d : Dev) (p : Nat) (k : HPacket) : Dev :=
  let x := d.host p
  if x.rx.contains k then (d.setHost p { x with rx := removeOne k x.rx }).returnUnits p k else d

/-- Opcodes a host may send (Table 11.6). -/
def fromHost (o : Nat) : Bool :=
  (1 ≤ o && o ≤ 7) || o == 0x0A || o == 0x15 || o == 0x16 || o == 0x18 || o == 0x19

/-- A packet arrives: it waits for its command; one with another OPC is answered UNSUPPORTED when it is a request (R331). -/
def Dev.hostArrive (d : Dev) (p : Nat) (k : HPacket) : Dev :=
  if fromHost k.opc then d.setHost p { d.host p with rx := (d.host p).rx ++ [k] }
  else
    let d := d.returnUnits p k
    if k.cls = 0 then d.hostAnswer p k stUNSUPPORTED 0 [] else d

/-- A sequenced flit is discarded, and NAK is owed once in this episode. -/
def Dev.hostDiscard (d : Dev) (p : Nat) : Dev :=
  let x := d.host p
  if x.nakSent then d else d.setHost p { x with nakDue := true }

/-- Flits are received: the port has L0. -/
def HostState.hasL0 (s : HostState) : Bool := s == .param || s == .credit || s == .active

/-- One received flit (R327, R328). The message of a CTRL flit is the command of its own name (log entry 61). -/
def Dev.takeHostFlit (d : Dev) (p : Nat) (crcOk : Bool) (f : Nat) : Dev :=
  let x := d.host p
  let ok := crcOk && fld f 75 74 != 3
  let sequenced := fld f 75 74 == 0 && !f.testBit 119
  if !x.state.hasL0 then d
  else if ok && !sequenced then d.hostHeader p f
  else if x.state != .active then d
  else if !ok || fld f 143 132 != (x.rxSeq + 1).toNat then d.hostDiscard p
  else
    let units := (List.range 14).map (fun u => BitVec.ofNat 128 (f >>> (144 + 128 * u)))
    let (ps, rest) := joinHostUnits 32 x.rxUnits units
    let d := d.setHost p { x with rxSeq := x.rxSeq + 1, nakDue := false, nakSent := false, ackDue := true, rxUnits := rest }
    (d.each ps (fun d k => d.hostArrive p k)).hostHeader p f

/-! Building flits. -/

/-- Header bits common to every flit: FACK, NAK once per episode, up to three credit returns. -/
def HostPort.takeHeader (x : HostPort) : Nat × HostPort :=
  let due := (x.owed.filter (fun c => c.2 != 0)).take 3
  let bits := (due.zipIdx).foldl (fun a c =>
    let v := c.1.1 * 2 ^ 12 + min 4095 c.1.2
    a + v * 2 ^ (if c.2 = 0 then 104 else if c.2 = 1 then 90 else 76)) 0
  let nak := x.nakDue && !x.nakSent
  (x.rxSeq.toNat * 2 ^ 120 + (if nak then 2 ^ 118 else 0) + bits,
    { x with owed := due.foldl (fun o c => mset o c.1 (c.2 - min 4095 c.2)) x.owed,
             ackDue := false, nakDue := false, nakSent := x.nakSent || nak })

/-- A flit on the wire: bytes 0 to 241, and the flit CRC and FEC that PCIe 6.0 defines (Config.pcieCheck). -/
def Dev.emitFlit (d : Dev) (p f : Nat) : Dev :=
  let b := BitVec.ofNat 1936 f
  d.emit (.flit p (BitVec.ofNat 2048 (b.toNat + (Config.pcieCheck b).toNat * 2 ^ 1936)))

/-- A CTRL flit with one message in its units (Table 11.3). -/
def Dev.sendCtrl (d : Dev) (p : Nat) (msg : List Byte) : Dev :=
  let (h, x) := (d.host p).takeHeader
  (d.setHost p x).emitFlit p (h + 2 * 2 ^ 74 + leOf msg * 2 ^ 144)

/-- PARAM of the package; TAGS is a value of Config from 1 to 4,096. -/
def Dev.hostParam (d : Dev) (p : Nat) : List Byte :=
  [1, BitVec.ofNat 8 p, if d.cap 6 && d.rb (Reg.devHpCtrl p) 29 then 1 else 0] ++ toLE 5 0 ++ toLE 8 0
    ++ toLE 8 (crc32 (toLE 10 d.fuses.pkgIdA.toNat)) ++ toLE 2 (1 + Config.hostTags % 4096)

/-- CREDIT_INIT of the package: at least 512, 64 and 512 units (R332). -/
def hostCreditInit : List Byte :=
  [2] ++ toLE 2 (max 512 (Config.hostUnits 0 % 65536)) ++ toLE 2 (max 64 (Config.hostUnits 1 % 65536))
    ++ toLE 2 (max 512 (Config.hostUnits 2 % 65536))

/-- DOWN with a reason of Table 11.3. -/
def hostDownMsg (reason : Nat) : List Byte := [3, BitVec.ofNat 8 reason]

/-- The oldest packet of a class whose head the host has units for; classes are served SNP, RSP, REQ (log entry 61). -/
def HostPort.pickTx (x : HostPort) : Option HPacket :=
  [1, 2, 0].findSome? (fun c =>
    match x.tx.find? (fun k => k.cls == c) with
    | some k => if k.units ≤ mget 0 x.credits c then some k else none
    | none => none)

/-- Fill up to `n` units of a DATA flit. -/
def fillHostUnits : Nat → HostPort → List (BitVec 128) × HostPort
  | 0, x => ([], x)
  | n + 1, x =>
    let x := if x.txUnits.isEmpty then
        (match x.pickTx with
         | some k => { x with tx := removeOne k x.tx, txUnits := hpUnits k, credits := mupd 0 x.credits k.cls (· - k.units) }
         | none => x)
      else x
    match x.txUnits with
    | [] => ([], x)
    | u :: r =>
      let (us, y) := fillHostUnits n { x with txUnits := r }
      (u :: us, y)

/-- A new DATA flit; units beyond the last packet are PAD. -/
def HostPort.dataFlit (x : HostPort) : Nat × HostPort :=
  let (us, x) := fillHostUnits 14 x
  let (h, x) := x.takeHeader
  let body := (us.zipIdx).foldl (fun a u => a + u.1.toNat * 2 ^ (128 * u.2)) 0
  let f := h + x.txSeq.toNat * 2 ^ 132 + body * 2 ^ 144
  (f, { x with txSeq := x.txSeq + 1, unacked := x.unacked ++ [BitVec.ofNat 1936 f] })

/-- The next flit of a port that carries packets: a replay, DATA, NULL when something is owed, IDLE. -/
def HostPort.nextFlit (x : HostPort) : Nat × HostPort :=
  if 0 < x.toReplay then
    (((x.unacked.drop (x.unacked.length - x.toReplay)).headD 0).toNat, { x with toReplay := x.toReplay - 1 })
  else if x.unacked.length < 1024 && (!x.txUnits.isEmpty || x.pickTx.isSome) then x.dataFlit
  else
    let null := x.ackDue || x.nakDue || x.owed.any (fun c => c.2 != 0)
    let (h, x) := x.takeHeader
    (h + (if null then 2 ^ 119 else 2 ^ 74), x)

/-! Requests of the package that start again (R338, R347). -/

/-- Requests that a new generation or a port that comes back has sent again: completion and event records, watched lines. -/
def Purpose.lasting (u : Purpose) : Bool :=
  u == .cplBody || u == .cplValid || u == .cplInit || u == .cplClear || u == .evtBody || u == .evtValid || u == .evtClear
    || u == .runLine || u == .runState

/-- A packet under the present generation of context `c`. -/
def Dev.regen (d : Dev) (c : Nat) (k : HPacket) : HPacket :=
  { k with hdr := BitVec.ofNat 128 (setFld k.hdr.toNat 97 90 (d.genOf c)) }

/-- A request of the package itself, which carries CTX 0: a fetch of an image, a SEC mailbox, the package event ring. -/
def Tag.ofPackage (t : Tag) : Bool :=
  t.purpose == .strata || t.purpose == .mailbox || t.purpose == .mailboxReply
    || (t.a == 64 && (t.purpose == .evtBody || t.purpose == .evtValid || t.purpose == .evtClear))

/-- After CTX_GEN has advanced: responses to requests of the old generation are dropped, so lasting requests of context `c`, and those
of the package, are sent again; the others are retired (log entry 62). -/
def Dev.renewHost (d : Dev) (c : Nat) (keep : Bool) : Dev :=
  let g := BitVec.ofNat 8 (d.genOf c)
  let again := fun (t : Tag) => t.ofPackage || (keep && t.purpose.lasting)
  let old := d.tags.filter (fun t => t.port < 4 && t.ctx == c && !t.reserved && again t)
  let d := d.retireTags (fun t => t.port < 4 && t.ctx == c)
  let d := d.each (List.range 4) (fun d p =>
    let w := (d.host p).waiting
    if w.all (fun x => x.2.ctx != c) then d
    else d.setHost p { d.host p with waiting := w.filterMap (fun x =>
      if x.2.ctx != c then some x
      else if again x.2 then some (d.regen c x.1, { x.2 with gen := g })
      else none) })
  d.each old (fun d t =>
    match t.sent with
    | some k => d.hostRequest t.port (d.regen c k) { t with gen := g }
    | none => d)

/-- A run's outstanding reads are retired, and the run ends (R345, R348). -/
def Dev.stopRun (d : Dev) (c : Nat) (seq : BitVec 32) (status code unit detail addr : Nat) : Dev :=
  let mine := fun (t : Tag) => (t.purpose == .runInput || t.purpose == .copyRead) && t.ctx == c && t.b == seq.toNat
  let d := d.retireTags mine
  let d := d.each (List.range 4) (fun d p =>
    let w := (d.host p).waiting
    if w.any (fun x => mine x.2) then d.setHost p { d.host p with waiting := w.filter (fun x => !mine x.2) } else d)
  d.endRun c seq status code unit detail addr

/-- A fetch of an image ends with FETCH (Table 5.15), or a validation with another code. -/
def Dev.strataFail (d : Dev) (code : Nat) : Dev :=
  let d := { d with strata := { d.strata with inState := .failed, valResult := BitVec.ofNat 8 code, fetch := none } }
  (d.bump Reg.strataValFail).pkgEvent 0x0A01 2 code d.strata.genIn.toNat

/-- A SEC mailbox request ends with STATE ERROR and ERR (R445). -/
def Dev.mailboxError (d : Dev) (m err : Nat) : Dev :=
  let d := { d with sec := { d.sec with mailboxes := mdel d.sec.mailboxes m } }
  (d.setRf (Reg.secMboxCtrl m) 29 28 3).setRf (Reg.secMboxCtrl m) 21 14 err

/-- A request that was outstanding on a port that went DOWN completes with the link-down error (R347). Completion and event
records and watched lines are not lost (R338): they wait for the port. -/
def Dev.linkDownError (d : Dev) (t : Tag) : Dev :=
  if t.reserved then d
  else if t.purpose.lasting then
    (match t.sent with
     | some k => if t.ctx == 0 || d.bound t.ctx then
         d.setHost t.port { d.host t.port with waiting := (d.host t.port).waiting ++ [(k, t)] }
       else d
     | none => d)
  else if t.purpose == .runInput || t.purpose == .copyRead || t.purpose == .copyWrite then
    d.stopRun t.ctx (BitVec.ofNat 32 t.b) 3 0x0901 0 t.port t.addr.toNat
  else if t.purpose == .strata then d.strataFail 1
  else if t.purpose == .mailbox then d.mailboxError t.a 1
  else if t.purpose == .mailboxReply then d.mailboxError t.a 3
  else d

/-- The port leaves ACTIVE, RETRAIN or training for `st` (R329, R347): unacknowledged flits, packets queued and partly received are
discarded, and its requests complete with the link-down error. -/
def Dev.hostDown (d : Dev) (p : Nat) (st : HostState) : Dev :=
  let x := d.host p
  let was := x.up
  let tags := d.tags.filter (fun t => t.port == p)
  let d := d.setHost p { state := st, cohReq := x.cohReq, cohFenced := x.cohFenced, hostId := x.hostId, lastHostId := x.lastHostId,
                         waiting := x.waiting }
  let d := { d with tags := d.tags.filter (fun t => t.port != p),
                    waiting := d.waiting.filter (fun w => match w.access with | .host q _ => q != p | .fabric _ => true) }
  let d := d.breakGuard (.host (Fin.ofNat 4 p))
  let d := d.each tags (fun d t => d.linkDownError t)
  let d := d.each ((List.range 64).filter (fun c => d.bound c && (d.ctx c).port == p)) (fun d c =>
    d.each (d.ctx c).runs (fun d r => d.cplFinish c r.seq))
  let d := if was then d.event [] 0x0901 2 p 0 0 else d
  d.noteDegraded

/-! Host memory requests (R332 to R334). -/

/-- An earlier request of the port addresses the same line and has not been performed (R332). -/
def Dev.hostBehind (d : Dev) (p : Nat) (k : HPacket) : Bool :=
  let same := fun (j : HPacket) => j.cls == 0 && j.opc != 6 && j.opc != 7 && j.addr / 64 ≤ (k.addr + (k.len - 1)) / 64
    && k.addr / 64 ≤ (j.addr + (j.len - 1)) / 64
  ((d.host p).rx.takeWhile (fun j => j != k)).any same
    && (d.host p).rx.contains k
  || d.waiting.any (fun w => match w.access with | .host q j => q == p && j != k && same j | .fabric _ => false)

/-- Pequa STATUS of a fabric status. -/
def hostStatus (st : Nat) : Nat := if st = 6 then stABSENT else st

/-- A port is coherent (R335). -/
def Dev.coherent (d : Dev) (p : Nat) : Bool := d.cap 6 && d.rb (Reg.devHpCtrl p) 29 && (d.host p).cohReq

/-- The context is BOUND to the port (R333). -/
def Dev.boundTo (d : Dev) (c p : Nat) : Bool := d.bound c && (d.ctx c).port == p

/-- DRD: an uncached read. -/
def Dev.hostRead (d : Dev) (m : Mem) (p : Nat) (k : HPacket) : Dev :=
  let a := k.addr % 2 ^ 41
  let n := k.len
  if !d.boundTo k.ctx p then (d.takenHost p k).hostAnswer p k stCLOSED 0 []
  else if !inBlock a n then (d.takenHost p k).hostAnswer p k stADDR 0 []
  else
    let (d, g) := d.gate (.host p k) k.ctx a n false none
    match g with
    | .wait => d
    | .held => d.takenHost p k
    | .fail st _ => (d.takenHost p k).hostAnswer p k (hostStatus st) 0 []
    | .go =>
      let (d, r) := ((d.takenHost p k).quarry a n).load m a n
      match r with
      | .inl bs => d.hostAnswer p k stOK 0 bs
      | .inr _ => d.hostAnswer p k stMEMUE 0 []

/-- DWR: a write, complete once visible. -/
def Dev.hostWrite (d : Dev) (m : Mem) (p : Nat) (k : HPacket) : Dev :=
  let a := k.addr % 2 ^ 41
  let n := k.len
  if !d.boundTo k.ctx p then (d.takenHost p k).hostAnswer p k stCLOSED 0 []
  else if !inBlock a n || k.data.length != n then (d.takenHost p k).hostAnswer p k stADDR 0 []
  else
    let (d, g) := d.gate (.host p k) k.ctx a n true none
    match g with
    | .wait => d
    | .held => d.takenHost p k
    | .fail st _ => (d.takenHost p k).hostAnswer p k (hostStatus st) 0 []
    | .go =>
      let (d, r) := ((d.takenHost p k).wakeMover a n).store m a k.data
      d.hostAnswer p k (if r.isSome then stMEMUE else stOK) 0 []

/-- The line lies in the coherent range of context `c`. -/
def Dev.inCohRange (d : Dev) (c a : Nat) : Bool :=
  let r := d.cohRange c
  r.1 ≤ a && a + 64 ≤ r.1 + r.2

/-- Invalidate every copy of the entry a full set gives up; the pairs to wait for (R334). -/
def Dev.evictLine (d : Dev) (line : Nat) : Dev × List (Nat × Nat) :=
  match d.evictFor line with
  | none => (d, [])
  | some e =>
    let ports := portsOf (mget { exclusive := false, sharers := 0, age := 0 } d.directory e).sharers
    (d.each ports (fun d q => d.sendSnoop q e true), ports.map (fun q => (q, e)))

/-- DRD_S and DRD_E: a line is granted (R334). -/
def Dev.hostGrant (d : Dev) (m : Mem) (p : Nat) (k : HPacket) (excl : Bool) : Dev :=
  let a := k.addr % 2 ^ 41
  if !d.boundTo k.ctx p then (d.takenHost p k).hostAnswer p k stCLOSED 0 []
  else if !d.coherent p || (d.host p).cohFenced then (d.takenHost p k).hostAnswer p k stNOTCOH 0 []
  else if a % 64 != 0 || k.len != 64 then (d.takenHost p k).hostAnswer p k stADDR 0 []
  else if !d.inCohRange k.ctx a then (d.takenHost p k).hostAnswer p k stNOTCOH 0 []
  else
    let (d, g) := d.gate (.host p k) k.ctx a 64 excl (some p)
    match g with
    | .wait => d
    | .held => d.takenHost p k
    | .fail st _ => (d.takenHost p k).hostAnswer p k (hostStatus st) 0 []
    | .go =>
      let d := d.takenHost p k
      let (d, l) := d.evictLine (a / 64)
      if !l.isEmpty then { d with waiting := d.waiting ++ [({ access := .host p k, lines := l } : Waiting)] }
      else
        let (d, r) := (d.quarry a 64).load m a 64
        match r with
        | .inl bs => (d.grantLine p (a / 64) excl).hostAnswer p k stOK (if excl then 2 else 1) bs
        | .inr _ => d.hostAnswer p k stMEMUE 0 []

/-- DEVICT: a host gives up a line, writing it back when modified. -/
def Dev.hostEvict (d : Dev) (m : Mem) (p : Nat) (k : HPacket) : Dev :=
  let a := k.addr % 2 ^ 41
  let d := d.takenHost p k
  if !d.boundTo k.ctx p then d.hostAnswer p k stCLOSED 0 []
  else if !d.coherent p || (d.host p).cohFenced || !d.inCohRange k.ctx a then d.hostAnswer p k stNOTCOH 0 []
  else if a % 64 != 0 || !(k.len = 0 || (k.len = 64 && k.data.length = 64)) then d.hostAnswer p k stADDR 0 []
  else
    let mine := match mfind d.directory (a / 64) with | some e => e.sharers.getLsbD p | none => false
    let d := if mine && k.len = 64 then (d.store m a k.data).1 else d
    (if mine then d.dropSharer p (a / 64) else d).hostAnswer p k stOK 0 []

/-- Perform a host memory request by its opcode. -/
def Dev.serveHost (d : Dev) (m : Mem) (p : Nat) (k : HPacket) : Dev :=
  if k.opc = 1 then d.hostRead m p k
  else if k.opc = 2 then d.hostWrite m p k
  else if k.opc = 3 then d.hostGrant m p k false
  else if k.opc = 4 then d.hostGrant m p k true
  else if k.opc = 5 then d.hostEvict m p k
  else d

/-- Run the accesses that waited only for (port, line) pairs that `gone` holds of. -/
def Dev.release (d : Dev) (m : Mem) (gone : Nat × Nat → Bool) : Dev :=
  let w := d.waiting.map (fun x => { x with lines := x.lines.filter (fun l => !gone l) })
  let d := { d with waiting := w.filter (fun x => !x.lines.isEmpty) }
  d.each (w.filter (fun x => x.lines.isEmpty)) (fun d x =>
    match x.access with
    | .host p k => d.serveHost m p k
    | .fabric k => d.serveFab m k)

/-- A snoop is answered: modified data goes to HBM before the access proceeds (R334). -/
def Dev.snoopDone (d : Dev) (m : Mem) (s : Snoop) (data : List Byte) : Dev :=
  let d := { d with snoops := d.snoops.filter (fun x => x != s) }
  let d := if data.length = 64 then (d.store m (s.line * 64) data).1 else d
  let d := if s.inval then d.dropSharer s.port s.line
    else match mfind d.directory s.line with
      | some e => { d with directory := mset d.directory s.line { e with exclusive := false } }
      | none => d
  d.release m (fun l => l == (s.port, s.line))

/-- Every directory entry and unanswered snoop of a port is dropped; HBM keeps what it held (R335). -/
def Dev.dropPort (d : Dev) (m : Mem) (p : Nat) : Dev :=
  let d := d.each (d.directory.map (·.1)) (fun d l => d.dropSharer p l)
  let d := { d with snoops := d.snoops.filter (fun s => s.port != p) }
  d.release m (fun l => l.1 == p)

end Sys2Proof.Machine
end

