-- ==== Sys2Proof/Machine/Prot.lean ====
section
/-! DEFINITION. The protection and input-log commands of chapter 13. -/

namespace Sys2Proof.Machine

def resOK : Nat := 0
def resREFUSED : Nat := 1
def resTABLE : Nat := 2
def resVERIFYFAIL : Nat := 3
def resPEER : Nat := 4
def resSTEP : Nat := 5
def resNORETAINED : Nat := 6

def Dev.setResult (d : Dev) (c r : Nat) : Dev :=
  (d.setRf (Reg.ctxProtStatus c) 23 16 r).updProt c (fun p => { p with result := BitVec.ofNat 8 r })

/-- A failure while a command runs: the first one is RESULT. -/
def Dev.firstFailure (d : Dev) (c r : Nat) : Dev := if (d.ctx c).prot.result = 0 then d.setResult c r else d

/-- The command has ended. -/
def Dev.endCmd (d : Dev) (c : Nat) : Dev :=
  d.updProt c (fun p => { p with cmd := none, flushed := false, todo := [], reread := [], peers := [], unreachable := false,
                                 peerRetain := none })

def Dev.protCmd (d : Dev) (c : Nat) : Nat := match (d.ctx c).prot.cmd with | some (k, _) => k | none => 0
def Dev.protArg (d : Dev) (c : Nat) : Nat := match (d.ctx c).prot.cmd with | some (_, a) => a.toNat | none => 0

/-- Read the counterpart entry of entry `i` (128 bytes at PEER_ENT). -/
def Dev.peerRead (d : Dev) (m : Mem) (c i : Nat) (u : Purpose) : Dev := d.fabRead c (ePeerEnt (d.entry m c i)) 128 u c i 0

/-- Entry `i` has been dealt with by the command that runs. -/
def Dev.entryDone (d : Dev) (c i : Nat) : Dev :=
  d.updProt c (fun p => { p with todo := p.todo.filter (· != i), reread := p.reread.filter (· != i) })

/-- Copy from the partner, at most 2^30 bytes per BGET; the bytes count as fetched. -/
def Dev.fetchSpan (d : Dev) (c g dst n : Nat) (u : Purpose) (i : Nat) : Dev :=
  (Dev.gatherFetch c g dst u c i 5 0 n d).bumpN (Reg.ctxProtFetchBytes c) n

/-- Requests of purpose `u` for entry `i` are outstanding. -/
def Dev.fetching (d : Dev) (u : Purpose) (c i : Nat) : Bool := d.outstanding u c i

/-! SECURE (R389). -/

/-- The flush of a SECURE has ended. -/
def Dev.flushEnded (m : Mem) (d : Dev) (c : Nat) : Bool :=
  let x := d.ctx c
  x.log.shipped == d.reg (Reg.ctxLogProd c) && !x.prot.slotCopies.any (·.running)
    && (d.entryList m c).all (fun i => !d.flag m c i fAPPLYING && !d.flag m c i fDIGBUSY)

/-- RESULT of a verification once every entry is done. -/
def Dev.secureEnds (d : Dev) (m : Mem) (c : Nat) : Dev :=
  if !(d.ctx c).prot.todo.isEmpty then d
  else
    let any := fun f => (d.entryList m c).any (fun i => d.flag m c i f)
    (d.setResult c (if any fEXPOSED then resPEER else if any fVERIFYFAIL then resVERIFYFAIL else resOK)).endCmd c

/-- A SECURE goes on: from the flush to the reads of every counterpart. -/
def Dev.secureAdvance (d : Dev) (m : Mem) (c : Nat) : Dev :=
  if d.protCmd c != 1 || (d.ctx c).prot.flushed || !d.flushEnded m c then d
  else
    let l := d.entryList m c
    let d := d.updProt c (fun p => { p with flushed := true, todo := l })
    (d.each l (fun d i => d.peerRead m c i .secureRead)).secureEnds m c

/-- A counterpart entry has been read: the checks of R389, or a later read again. -/
def Dev.secureChecked (d : Dev) (m : Mem) (c i : Nat) (y : Option Nat) : Dev :=
  if d.protCmd c != 1 || !(d.ctx c).prot.todo.contains i then d
  else
    let x := d.entry m c i
    match y with
    | none => ((d.setFlag m c i fEXPOSED true).entryDone c i).secureEnds m c
    | some y =>
      if eFlag y fAPPLYING || eFlag y fDIGBUSY || eFlag x fAPPLYING || eFlag x fDIGBUSY then
        d.updProt c (fun p => { p with reread := p.reread ++ [i] })
      else
        let d := if eMirror y == eMirror x then d.setFlag m c i fEXPOSED true
          else if !eMirror x then d.setFlags m c i [fEXPOSED, fVERIFYFAIL] false
          else
            let mv := eVstep x
            let v := eVstep y
            let pass := (v == mv && eCurDig y == eCurDig x) ||
              (v == mv + 1 && ePrevDig y == eCurDig x && eGstep x ((mv + 1) % 2) == mv + 1)
            if pass then d.setFlags m c i [fEXPOSED, fVERIFYFAIL] false
            else d.setFlag m c i fVERIFYFAIL true
        (d.entryDone c i).secureEnds m c

/-- SECURE starts; one that runs absorbs it (R389). -/
def Dev.secureStart (d : Dev) (m : Mem) (c : Nat) : Dev :=
  if d.protCmd c = 1 then d
  else (d.updProt c (fun p => { p with cmd := some (1, 0), flushed := false, todo := [], reread := [] })).secureAdvance m c

/-- SECURE_REREAD (R389). -/
def xSecureReread (c i : Nat) : Effect := fun m d =>
  let d := d.secureAdvance m c
  if (d.ctx c).prot.reread.contains i then
    (d.updProt c (fun p => { p with reread := p.reread.filter (· != i) })).peerRead m c i .secureRead
  else d

/-! RESTORE (R398). -/

/-- The stages with an OWN entry that is WRITTEN: the writes of R118 that are left, then steps 5 and 6 of Table 10.9. -/
def Dev.completeWritten (d : Dev) (m : Mem) (c v : Nat) : Dev :=
  let es := (d.ownsOf m c v).filter (fun i => d.flag m c i fWRITTEN)
  match es with
  | [] => d
  | e :: _ =>
    let t := eVstep (d.entry m c e) + 1
    let d := d.each (d.ownedShards m c v) (fun d k =>
      let z := d.shardEntry m c v k
      let y := d.ledger m z
      if tagStep (lCurTag y) == t then d
      else
        let rec_ := lRec y
        let sum := d.sumOf m rec_
        let d := d.finishRecord m c rec_ t sum (hTsel (d.header m rec_) == lTsel y)
        d.finishLedger m c z t sum)
    let d := d.each es (fun d i => (d.newVstep m c i t).setFlags m c i [fAPPLYING, fWRITTEN] false)
    d.stepVersion m c v (BitVec.ofNat 32 t)

def Dev.restoreEnds (d : Dev) (c : Nat) : Dev := if (d.ctx c).prot.todo.isEmpty then d.endCmd c else d

def Dev.restoreStart (d : Dev) (m : Mem) (c : Nat) : Dev :=
  let torn := (d.entryList m c).filter (fun i => d.flag m c i fTORN && !eMirror (d.entry m c i))
  let d := (d.setResult c resOK).updProt c (fun p => { p with cmd := some (2, 0), todo := torn })
  let d := d.each (d.ctx c).stageList (fun d v => d.completeWritten m c v)
  (d.each torn (fun d i => d.peerRead m c i .restoreRead)).restoreEnds c

/-- Columns that an interrupted update may have written (R398). -/
def tornColumns (h : Nat) : Nat := min (hNs h) (32 * ((hCursor h + 7) / max 1 (ceilDiv (hKs h) 32) + 1))

/-- The counterpart of a TORN entry has been read (R398; log entry 57). -/
def Dev.restoreRead (d : Dev) (m : Mem) (c i : Nat) (y : Option Nat) : Dev :=
  if d.protCmd c != 2 || !(d.ctx c).prot.todo.contains i then d
  else
    let x := d.entry m c i
    match y with
    | none => ((d.firstFailure c resPEER).entryDone c i).restoreEnds c
    | some y =>
      if eVstep y = eVstep x && !eFlag y fAPPLYING then
        let h := d.header m (eRec x)
        let n := tornColumns h
        let ks := hKs h
        let bytes := [ks * n * (if fld h 15 12 = 1 then 2 else 4), if 1 ≤ fld h 5 4 then ks * n * 4 else 0,
          if fld h 5 4 = 2 then ks * n * 4 else 0]
        d.each bytes.zipIdx (fun d p =>
          let o := (shardArray h p.2).1
          d.fetchSpan c (ePeerRec x + o) (eRec x + o) p.1 .restoreData i)
      else if eVstep y < eVstep x && !eFlag y fSTALE then d.peerRead m c i .restoreRead
      else ((d.firstFailure c resSTEP).entryDone c i).restoreEnds c

/-- A fetch for a TORN entry has ended. -/
def Dev.restoreData (d : Dev) (m : Mem) (c i : Nat) (ok : Bool) : Dev :=
  if d.protCmd c != 2 || !(d.ctx c).prot.todo.contains i then d
  else if !ok then
    let d := d.retireTags (fun t => t.purpose == .restoreData && t.a == c && t.b == i && !t.reserved)
    ((d.firstFailure c resPEER).entryDone c i).restoreEnds c
  else if d.fetching .restoreData c i then d
  else
    let r := eRec (d.entry m c i)
    let d := d.engineWrite m c r (toLE 64 (setFld (d.header m r) 479 416 0))
    ((d.setFlags m c i [fTORN, fAPPLYING] false).entryDone c i).restoreEnds c

/-! APPLY (R399). -/

/-- Every answer of an APPLY has come: each stage takes its case. -/
def Dev.applyDecide (d : Dev) (m : Mem) (c : Nat) : Dev :=
  let p := (d.ctx c).prot
  if !p.todo.isEmpty || d.outstanding .applyRead c 0 then d
  else
    let t := d.protArg c
    let block := match p.peerRetain with | some b => b.toNat | none => 0
    let kept := p.peerRetain.isSome && fld block 31 0 == t
    let d := d.each (d.ctx c).stageList (fun d v =>
      let es := d.ownsOf m c v
      if es.isEmpty || es.all (fun i => eVstep (d.entry m c i) == t) then d
      else if !es.all (fun i => eVstep (d.entry m c i) + 1 == t) then d.firstFailure c resSTEP
      else if kept && es.all (fun i => match mfind p.peers i with | some y => eGstep y.toNat (t % 2) == t | none => false) then
        let d := d.engineWrite m c (d.retainAt c t) (toLE 64 block)
        let grads := es.foldl (fun g i => match mfind p.peers i with
          | some y => mset g i (gNode (ePeerEnt (d.entry m c i)) * 2 ^ 41 + eSlot y.toNat t)
          | none => g) (d.ctx c).prot.applyGrad
        let d := d.updProt c (fun p => { p with applyGrad := grads, normWait := p.normWait.filter (· != BitVec.ofNat 32 t) })
        d.updStage c v (fun s => { s with queue := s.queue ++ [(.apply, BitVec.ofNat 32 t)] })
      else d.firstFailure c resNORETAINED)
    if d.noneLeft c .apply then d.endCmd c else d

def Dev.applyStart (d : Dev) (m : Mem) (c : Nat) : Dev :=
  let t := (d.reg (Reg.ctxProtArg c)).toNat
  let es := ((d.entryList m c).filter (fun i => !eMirror (d.entry m c i) && eVstep (d.entry m c i) + 1 == t))
  let d := (d.setResult c resOK).updProt c (fun p =>
    { p with cmd := some (3, BitVec.ofNat 32 t), todo := es, peers := [], peerRetain := none, applyGrad := [] })
  if es.isEmpty then d.applyDecide m c
  else
    let d := d.fabRead c (d.peerTable m c + 128 + 64 * (t % 2)) 64 .applyRead c 0 0
    d.each es (fun d i => d.peerRead m c i .applySlots)

/-- The partner's RETAIN has come. -/
def Dev.applyRetain (d : Dev) (m : Mem) (c : Nat) (y : Option Nat) : Dev :=
  if d.protCmd c != 3 then d
  else (d.updProt c (fun p => { p with peerRetain := y.map (BitVec.ofNat 512) })).applyDecide m c

/-- A counterpart entry has come. -/
def Dev.applySlot (d : Dev) (m : Mem) (c i : Nat) (y : Option Nat) : Dev :=
  if d.protCmd c != 3 || !(d.ctx c).prot.todo.contains i then d
  else
    let d := match y with
      | some y => d.updProt c (fun p => { p with peers := mset p.peers i (BitVec.ofNat 1024 y) })
      | none => d
    (d.entryDone c i).applyDecide m c

/-! RESYNC (R390), FETCH and DEMOTE (R401). -/

def Dev.copyEnds (d : Dev) (c : Nat) : Dev := if (d.ctx c).prot.todo.isEmpty then d.endCmd c else d

/-- Copy the whole counterpart record of an entry whose counterpart entry was `y`. -/
def Dev.copyRecord (d : Dev) (m : Mem) (c i y : Nat) (u : Purpose) : Dev :=
  let x := d.entry m c i
  let d := d.updProt c (fun p => { p with peers := mset p.peers i (BitVec.ofNat 1024 y) })
  d.fetchSpan c (ePeerRec x) (eRec x) (shardBytes (d.header m (eRec x))) u i

def Dev.copyFailed (d : Dev) (c i : Nat) : Dev := ((d.firstFailure c resPEER).entryDone c i).copyEnds c

/-- A copy of a record has ended: the counterpart entry is read again. -/
def Dev.copyData (d : Dev) (m : Mem) (c i : Nat) (u next : Purpose) (ok : Bool) : Dev :=
  if !(d.ctx c).prot.todo.contains i then d
  else if !ok then
    (d.retireTags (fun t => t.purpose == u && t.a == c && t.b == i && !t.reserved)).copyFailed c i
  else if d.fetching u c i then d
  else d.peerRead m c i next

/-- The counterpart entry after a copy: done if its VSTEP has not changed, else once more. -/
def Dev.copyRecheck (d : Dev) (m : Mem) (c i : Nat) (y : Option Nat) (again : Purpose) (clear : List Nat) : Dev :=
  if !(d.ctx c).prot.todo.contains i then d
  else match y, mfind (d.ctx c).prot.peers i with
    | some y, some z =>
      if eVstep y != eVstep z.toNat then d.peerRead m c i again
      else (((d.newVstep m c i (eVstep y)).setFlags m c i clear false).entryDone c i).copyEnds c
    | _, _ => d.copyFailed c i

def Dev.resyncStart (d : Dev) (m : Mem) (c : Nat) : Dev :=
  let v := d.rf (Reg.ctxProtArg c) 2 0
  let es := d.mirrorsOf m c v
  let d := (d.setResult c resOK).updProt c (fun p => { p with cmd := some (4, BitVec.ofNat 32 v), todo := es, peers := [] })
  (d.each es (fun d i => d.peerRead m c i .resyncRead)).copyEnds c

def Dev.resyncRead (d : Dev) (m : Mem) (c i : Nat) (y : Option Nat) : Dev :=
  if d.protCmd c != 4 || !(d.ctx c).prot.todo.contains i then d
  else match y with
    | none => d.copyFailed c i
    | some y =>
      if eFlag y fAPPLYING || eFlag y fWRITTEN || eFlag y fDIGBUSY then d.peerRead m c i .resyncRead
      else d.copyRecord m c i y .resyncData

/-- FETCH and DEMOTE read every counterpart first: both are refused while one shows APPLYING or WRITTEN. -/
def Dev.fetchStart (d : Dev) (m : Mem) (c k : Nat) : Dev :=
  let l := d.entryList m c
  let d := (d.setResult c resOK).updProt c (fun p => { p with cmd := some (k, 0), todo := l, peers := [], flushed := false })
  (d.each l (fun d i => d.peerRead m c i .fetchRead)).copyEnds c

/-- Every counterpart has been read. -/
def Dev.fetchDecide (d : Dev) (m : Mem) (c : Nat) : Dev :=
  let p := (d.ctx c).prot
  if !p.todo.isEmpty then d
  else
    let busy := p.peers.any (fun y => eFlag y.2.toNat fAPPLYING || eFlag y.2.toNat fWRITTEN)
    if p.unreachable then (d.setResult c resPEER).endCmd c
    else if busy then (d.setResult c resREFUSED).endCmd c
    else if d.protCmd c = 7 then
      let es := (d.entryList m c).filter (fun i => d.flag m c i fPROMOTED)
      let d := d.each es (fun d i =>
        let b := pe (d.entry m c i) 46 1
        (d.engineWrite m c (d.entryAt c i + 46) (toLE 1 (setFld b 7 7 1))).setFlags m c i [fPROMOTED, fEXPOSED] false)
      d.endCmd c
    else
      let l := d.entryList m c
      let d := d.updProt c (fun p => { p with todo := l, flushed := true })
      d.each l (fun d i => match mfind p.peers i with | some y => d.copyRecord m c i y.toNat .fetchData | none => d)

/-- A counterpart entry has come, first for all, later for one whose VSTEP had changed. -/
def Dev.fetchRead (d : Dev) (m : Mem) (c i : Nat) (y : Option Nat) : Dev :=
  if (d.protCmd c != 6 && d.protCmd c != 7) || !(d.ctx c).prot.todo.contains i then d
  else if (d.ctx c).prot.flushed then
    match y with
    | none => d.copyFailed c i
    | some y => if eFlag y fAPPLYING || eFlag y fWRITTEN || eFlag y fDIGBUSY then d.peerRead m c i .fetchRead
        else d.copyRecord m c i y .fetchData
  else
    let d := match y with
      | some y => d.updProt c (fun p => { p with peers := mset p.peers i (BitVec.ofNat 1024 y) })
      | none => d.updProt c (fun p => { p with unreachable := true })
    (d.entryDone c i).fetchDecide m c

/-! PROMOTE (R400). -/

/-- A stage whose mirrors have reached `t` becomes OWN. -/
def Dev.promoteStage (d : Dev) (m : Mem) (c v t : Nat) : Dev :=
  let es := d.mirrorsOf m c v
  if es.isEmpty || !es.all (fun i => eVstep (d.entry m c i) == t) then d
  else d.each es (fun d i =>
    let b := pe (d.entry m c i) 46 1
    (d.engineWrite m c (d.entryAt c i + 46) (toLE 1 (setFld b 7 7 0))).setFlags m c i [fPROMOTED, fEXPOSED] true)

/-- No MIRROR item of a PROMOTE is left: it ends. -/
def Dev.promoteEnds (d : Dev) (m : Mem) (c : Nat) : Dev :=
  if d.protCmd c != 5 || !d.noneLeft c .mirror then d
  else
    let t := d.protArg c
    (d.each (List.range 8) (fun d v => d.promoteStage m c v t)).endCmd c

/-- Every mirror of the stage holds `g` in its slot, and RETAIN does (R386). -/
def Dev.mirrorReady (m : Mem) (d : Dev) (c v g : Nat) : Bool :=
  let es := d.mirrorsOf m c v
  es.all (fun i => eVstep (d.entry m c i) + 1 == g && eGstep (d.entry m c i) (g % 2) == g) && d.retained m c g

def Dev.promoteStart (d : Dev) (m : Mem) (c : Nat) : Dev :=
  let t := d.reg (Reg.ctxProtArg c)
  let d := (d.setResult c resOK).updProt c (fun p => { p with cmd := some (5, t) })
  let d := d.each (List.range 8) (fun d v =>
    let es := d.mirrorsOf m c v
    if es.isEmpty || es.all (fun i => eVstep (d.entry m c i) == t.toNat) then d
    else if (d.ctx c).validStage v && d.mirrorReady m c v t.toNat then
      d.updStage c v (fun s => { s with queue := s.queue ++ [(.mirror, t)] })
    else d.firstFailure c resNORETAINED)
  d.promoteEnds m c

/-- MIRROR_ITEM (R386): the item at the head of the stage's queue; a PROMOTE runs it while the pipeline is stopped. -/
def xMirrorItem (c v : Nat) : Effect := fun m d =>
  let x := d.ctx c
  let s := x.stage v
  match s.updItem, s.queue with
  | some i, _ => if i.kind == .mirror then d.startItem m c v i else d
  | none, [] => d
  | none, (k, t) :: rest =>
    let promoting := d.protCmd c = 5 && x.pipe.state == .stopped && x.validStage v
    if k != .mirror || !(x.mayDispatch v || promoting) then d
    else
      let g := t.toNat
      let es := d.mirrorsOf m c v
      let d := d.updStage c v (fun s => { s with queue := rest })
      if es.all (fun i => g ≤ eVstep (d.entry m c i)) then d.promoteEnds m c
      else if d.mirrorReady m c v g then
        let places := d.mirrorPlaces m c v
        let d := d.each es (fun d i => d.setFlag m c i fAPPLYING true)
        let n := max (x.shardCount v) (places.foldl (fun a p => max a (p.1 + 1)) 0)
        let grads := (List.range n).map (fun k => match places.find? (fun p => p.1 == k) with
          | some p => d.here (eSlot (d.entry m c p.2) g) | none => 0)
        let d := d.putUpdateBlock m c v g 1 grads
        d.beginItem m c v (updItemOf .mirror t (places.map (fun p => (p.1, d.here (eRec (d.entry m c p.2))))))
      else (d.each es (fun d i => d.setFlag m c i fSTALE true)).promoteEnds m c

/-- UPDATE_SUM_COMPLETE (R317 step 5, R386): one record is finished; after the last, the item is. -/
def xUpdateSumComplete (c v k : Nat) : Effect := fun m d =>
  let x := d.ctx c
  match (x.stage v).updItem with
  | none => d
  | some i =>
    if x.pipe.state == .off || x.pipe.state == .fault || !i.sums.contains k then d
    else
      let d := d.sumDone m c v k i
      let left := i.sums.filter (· != k)
      if !left.isEmpty then d.updStage c v (fun s => { s with updItem := some { i with sums := left } })
      else
        let d := d.updStage c v (fun s => { s with updItem := none })
        let d := if i.kind == .mirror then d.bump (Reg.ctxProtMirrorItems c) else d.stepVersion m c v i.step
        if i.kind == .apply && d.noneLeft c .apply then
          d.updProt c (fun p => match p.cmd with | some (3, _) => { p with cmd := none, applyGrad := [] } | _ => p)
        else if i.kind == .mirror then d.promoteEnds m c
        else d

/-! RETAIN, slot copies, digests. -/

/-- A MIRROR item of a step for which `f` holds is queued or runs on a stage. -/
def Dev.mirrorPending (d : Dev) (c v : Nat) (f : Nat → Bool) : Bool :=
  let s := (d.ctx c).stage v
  s.queue.any (fun q => q.1 == .mirror && f q.2.toNat) ||
    (match s.updItem with | some i => i.kind == .mirror && f i.step.toNat | none => false)

/-- The descriptor of a bucket, and whether its DONE bit is set. -/
def Dev.bucketDone (m : Mem) (d : Dev) (c id : Nat) : Desc × Bool :=
  let x : Desc := BitVec.ofNat 1024 (peekLE m d (d.collBase c + 128 * id) 128)
  (x, (d.ctx c).collDone.getLsbD (bStepBit x))

/-- NORM_SQ of a step that waits for the norm bucket. -/
def Dev.fillNorm (d : Dev) (m : Mem) (c : Nat) : Dev :=
  let (x, done) := d.bucketDone m c (d.normBucket m c)
  if !done then d
  else
    let w := (d.ctx c).prot.normWait
    let d := d.each w (fun d t =>
      if d.retainStep m c t.toNat == t.toNat then
        d.engineWrite m c (d.retainAt c t.toNat + 4) (toLE 4 (peekLE m d (bDst x) 4))
      else d)
    d.updProt c (fun p => { p with normWait := [] })

/-- RETAIN_WRITE (R385): the oldest one due, and NORM_SQ where the bucket is done. -/
def xRetainWrite (c : Nat) : Effect := fun m d =>
  if !d.protOn c then d
  else match (d.ctx c).prot.retain with
    | [] => d.fillNorm m c
    | r :: rest =>
      let t := r.step.toNat
      if (List.range 8).any (fun v => d.mirrorPending c v (fun g => g + 2 ≤ t)) then d
      else
        let b := t + r.seed.toNat * 2 ^ 128 + leOf (r.hyper.flatMap (fun h => toLE 4 h.toNat)) * 2 ^ 192
        let d := d.engineWrite m c (d.retainAt c t) (toLE 64 b)
        (d.updProt c (fun p => { p with retain := rest, normWait := p.normWait ++ [r.step] })).fillNorm m c

/-- SLOT_COPY (R387): the oldest copy of the entry starts. -/
def xSlotCopy (c i : Nat) : Effect := fun m d =>
  match (d.ctx c).prot.slotCopies.find? (fun q => q.entry == i) with
  | none => d
  | some q =>
    let x := d.entry m c i
    let j := q.step.toNat % 2
    if q.running || !(d.bucketDone m c (eBucket x)).2 || d.mirrorPending c (eVs x) (fun g => g % 2 == j) then d
    else d.updProt c (fun p => { p with slotCopies := p.slotCopies.map (fun r => if r == q then { r with running := true } else r) })

/-- SLOT_COPY_END (R387). -/
def xSlotCopyEnd (c i : Nat) : Effect := fun m d =>
  match (d.ctx c).prot.slotCopies.find? (fun q => q.entry == i && q.running) with
  | none => d
  | some q =>
    let x := d.entry m c i
    let j := q.step.toNat % 2
    let (d, r) := d.engineRead m c (eGsrc x) (eGbytes x)
    match r with
    | none => d
    | some bs =>
      let d := d.engineWrite m c (eSlot x j) bs
      let d := (d.setEntry m c i (56 + 4 * j) q.step.toNat).bump (Reg.ctxProtSlotCopies c)
      (d.updProt c (fun p => { p with slotCopies := removeOne q p.slotCopies })).secureAdvance m c

/-- DIGEST_COMPLETE (R388). -/
def xDigestComplete (c i : Nat) : Effect := fun m d =>
  if !d.protOn c || !(d.entryList m c).contains i || !d.flag m c i fDIGBUSY then d
  else
    let x := d.entry m c i
    let d := d.setEntry m c i 68 (eCurDig x)
    let d := d.setEntry m c i 64 (d.digestOf m (eRec x))
    (d.setFlag m c i fDIGBUSY false).secureAdvance m c

/-! The log engine (R393). -/

/-- The next record: bytes without SEQ and HCRC, its STEP, staged bytes it ships, whether it is a DROPPED_INPUT. -/
def Dev.logNext (m : Mem) (d : Dev) (c : Nat) : Option (List Byte × BitVec 32 × Nat × Bool) :=
  let l := (d.ctx c).log
  match l.pending with
  | p :: _ => some (p.bytes, BitVec.ofNat 32 (leOf ((p.bytes.drop 4).take 4)), 0, true)
  | [] =>
    let size := d.logLocalBytes m c
    let left := ((d.reg (Reg.ctxLogProd c)).toNat + 2 ^ 32 - l.shipped.toNat) % 2 ^ 32
    if left < 32 || size = 0 then none
    else
      let a := d.logLocal m c + l.shipped.toNat % size
      let n := 32 + roundUp (peekLE m d (a + 12) 4) 32
      some (peekN m d a n, BitVec.ofNat 32 (peekLE m d (a + 4) 4), n, false)

/-- A record with SEQ and HCRC. -/
def stampRecord (bs : List Byte) (seq : Nat) : List Byte :=
  let h := bs.take 16 ++ toLE 8 seq ++ (bs.drop 24).take 4
  h ++ toLE 4 (crc32 h) ++ bs.drop 32

/-- Ring bytes the next append takes, PAD included; none where there is no space. -/
def Log.room (l : Log) (n : Nat) : Option (Nat × Nat) :=
  let left := l.size - l.tail % max 1 l.size
  let pad := if left < n then left else 0
  if l.tail - l.head + pad + n ≤ l.size then some (pad, pad + n) else none

/-- LOG_APPEND (R393, R394). A staged PAD record is passed over; the ring's end is filled with one PAD record. -/
def xLogAppend (c : Nat) : Effect := fun m d =>
  let l := (d.ctx c).log
  if !d.protOn c || !l.known || l.busy.isSome then d
  else match d.logNext m c with
    | none => d
    | some (bs, step, staged, dropped) =>
      if !dropped && leOf (bs.take 2) = 0 then
        let n := l.shipped + BitVec.ofNat 32 staged
        ((d.updLog c (fun l => { l with shipped := n })).setReg (Reg.ctxLogShipped c) n).secureAdvance m c
      else match l.room bs.length with
        | none => d
        | some (pad, size) =>
          let g := d.logRemote m c + 4096
          let padRec := if pad = 0 then [] else logHeader 0 0 step.toNat 0 (pad - 32) l.nextSeq (crc32 [])
          let seq := l.nextSeq + (if pad = 0 then 0 else 1)
          let records := (if pad = 0 then [] else [(pad, none)]) ++ [(bs.length, some step)]
          let d := d.updLog c (fun l => { l with busy := some { size := size, records := records, staged := staged, dropped := dropped,
                                                                header := false, failed := false } })
          let d := d.fabWrite c (g + l.tail % max 1 l.size) padRec .logRecord c 0 0
          d.fabWrite c (g + (l.tail + pad) % max 1 l.size) (stampRecord bs seq) .logRecord c 0 0

/-- A write of the log engine has been acknowledged: after the groups, TAIL and NEXT_SEQ with one WR; after that, SHIPPED. -/
def Dev.logAck (d : Dev) (m : Mem) (c : Nat) (ok : Bool) : Dev :=
  let l := (d.ctx c).log
  match l.busy with
  | none => d
  | some b =>
    let b := { b with failed := b.failed || !ok }
    let d := d.updLog c (fun l => { l with busy := some b })
    if d.outstanding .logRecord c 0 || d.outstanding .logHeader c 0 then d
    else if b.failed then d.updLog c (fun l => { l with busy := none })
    else if !b.header then
      let tail := l.tail + b.size
      let body := toLE 8 tail ++ toLE 8 l.size ++ toLE 4 d.node ++ toLE 4 0 ++ toLE 8 (l.nextSeq + b.records.length)
      (d.updLog c (fun l => { l with busy := some { b with header := true } })).fabWr c (d.logRemote m c + 8) body .logHeader c 0 0
    else
      let n := l.shipped + BitVec.ofNat 32 b.staged
      let d := d.updLog c (fun l => { l with busy := none, tail := l.tail + b.size, nextSeq := l.nextSeq + b.records.length, shipped := n,
                                             kept := l.kept ++ b.records,
                                             pending := if b.dropped then l.pending.drop 1 else l.pending })
      ((d.setReg (Reg.ctxLogShipped c) n).bumpN (Reg.ctxLogBytes c) b.size).secureAdvance m c

/-- The remote header has been read (at ENABLE; log entry 56). -/
def Dev.logHeaderRead (d : Dev) (c : Nat) (bs : List Byte) : Dev :=
  let f := fun o => leOf ((bs.drop o).take 8)
  d.updLog c (fun l => { l with known := true, head := f 0, tail := f 8, size := f 16, nextSeq := f 32,
                                kept := if l.head == f 0 && l.tail == f 8 then l.kept else [] })

/-- CTX_LOG_PROD_WRITE (R394). -/
def Dev.logProdWrite (d : Dev) (m : Mem) (c : Nat) (v : BitVec 32) : Dev :=
  let ahead := (v - (d.ctx c).log.shipped).toNat
  if d.protOn c && d.logLocalBytes m c < ahead then d else d.putReg (Reg.ctxLogProd c) v

/-- One lt of an append that waits for space (R394). -/
def Dev.logTick (d : Dev) (m : Mem) : Dev :=
  d.each (d.ctxs.filter (fun p => p.2.log.known)) (fun d p =>
    let waits := d.protOn p.1 && p.2.log.busy.isNone &&
      (match d.logNext m p.1 with | some (bs, _, _, _) => (p.2.log.room bs.length).isNone | none => false)
    d.bumpIf waits (Reg.ctxLogStall p.1))

/-! Enabling (R383) and commands (R405). -/

/-- One entry is as R383 and R382 ask. -/
def Dev.entryOk (m : Mem) (d : Dev) (c i : Nat) : Bool :=
  let x := d.entry m c i
  let h := d.header m (eRec x)
  pe x 46 1 % 128 < 8 && d.spanOk c (eRec x) (shardBytes h) && d.spanOk c (eGsrc x) (eGbytes x)
    && eGbytes x == hKs h * hNs h * 4
    && (!eMirror x || d.spanOk c (eGrad x) (2 * roundUp (eGbytes x) 256))

/-- TENSOR entries of CURRENT with PROTECT partner copy, by context: their IDs (Table 5.12). -/
def Dev.partnerTensors (m : Mem) (d : Dev) (c : Nat) : List Nat :=
  if !d.strata.curValid then []
  else
    let r := areaReader m d d.strata.cur
    match findSection r 8 with
    | none => []
    | some s => ((List.range (r s.off 4)).map (fun i => r (s.off + 16 + 16 * i) 16)).filterMap (fun v =>
        if fld v 46 45 = 1 && fld v 37 32 = c then some (fld v 31 0) else none)

/-- Every owned shard of a stage that owns a partner-copy tensor has exactly one OWN entry. -/
def Dev.ownsCovered (m : Mem) (d : Dev) (c : Nat) : Bool :=
  let ids := d.partnerTensors m c
  (d.ctx c).stageList.all (fun v =>
    let recs := (d.ownedShards m c v).map (fun k => lRec (d.ledger m (d.shardEntry m c v k)))
    !recs.any (fun r => ids.contains (fld (d.header m r) 255 224)) ||
      recs.all (fun r => ((d.ownsOf m c v).filter (fun i => eRec (d.entry m c i) == r)).length == 1))

/-- The protection table is valid (R383). -/
def Dev.protTableOk (m : Mem) (d : Dev) (c : Nat) : Bool :=
  let n := d.protEntries m c
  let base := d.protBase c
  let upb := d.upbAddr m c + 64 + 8 * (((d.ctx c).stageList.map (fun v => (d.ctx c).shardCount v)).foldl max 0)
  d.spanOk c base 256 && d.protField m c 0 2 == 1 && n ≤ 4096 && d.spanOk c base (256 + 128 * n)
    && d.protField m c 40 4 < 2 ^ 20 && upb ≤ 0x2000000 && d.protField m c 4 4 < 2 ^ 23
    && (let b := d.logLocalBytes m c; b == 0 || (b % 65536 == 0 && 65536 ≤ b && b ≤ 2 ^ 28 && d.spanOk c (d.logLocal m c) b))
    && (d.entryList m c).all (fun i => d.entryOk m c i)
    && (List.range 8).all (fun v => match d.mirrorsOf m c v with
      | [] => true
      | e :: es => es.all (fun i => hStep (d.header m (eRec (d.entry m c i))) == hStep (d.header m (eRec (d.entry m c e)))))
    && d.ownsCovered m c

/-- ENABLE 0 to 1. -/
def Dev.protStart (d : Dev) (m : Mem) (c : Nat) : Dev :=
  if !d.protTableOk m c then (d.updProt c (fun p => { p with fault := true })).setResult c resTABLE
  else
    let d := d.updProt c (fun p => { p with fault := false })
    let d := d.each (d.entryList m c) (fun d i =>
      let x := d.entry m c i
      (d.setEntry m c i 52 (hStep (d.header m (eRec x)))).engineWrite m c (d.entryAt c i + 48) (toLE 2 0))
    if d.logRemote m c = 0 then d else d.fabRead c (d.logRemote m c) 40 .logHeader c 2 0

/-- A command is accepted (R405) in the pipeline states its rule names. -/
def Dev.protAccepts (m : Mem) (d : Dev) (c cmd : Nat) : Bool :=
  let st := (d.ctx c).pipe.state
  let still := st == .off || st == .stopped
  let torn := (d.entryList m c).any (fun i => !eMirror (d.entry m c i) && d.flag m c i fTORN)
  d.protOn c && !(d.ctx c).prot.fault && (d.ctx c).prot.cmd.isNone &&
    (cmd == 1 || cmd == 4 || ((cmd == 2 || cmd == 5 || cmd == 6 || cmd == 7) && still) || (cmd == 3 && st == .running && !torn))

/-- A command of CTX_PROT_CTRL (R405). -/
def Dev.protCommand (d : Dev) (m : Mem) (c cmd : Nat) : Dev :=
  if cmd = 0 then d
  else if !d.protAccepts m c cmd then d.setResult c resREFUSED
  else match cmd with
    | 1 => d.secureStart m c
    | 2 => d.restoreStart m c
    | 3 => d.applyStart m c
    | 4 => d.resyncStart m c
    | 5 => d.promoteStart m c
    | _ => d.fetchStart m c cmd

/-- An accepted guarded write of CTX_PROT_CTRL. A change of ENABLE to 1 while the pipeline is neither OFF nor STOPPED is not made. -/
def Dev.protCtrlWrite (d : Dev) (m : Mem) (c : Nat) (v : BitVec 32) : Dev :=
  let was := d.protOn c
  let st := (d.ctx c).pipe.state
  let on := v.getLsbD 31 && (was || st == .off || st == .stopped)
  let d := d.setRegN (Reg.ctxProtCtrl c) (setFld (setFld 0 30 27 (fb v 30 27)) 31 31 (if on then 1 else 0))
  let d := if !was && on then d.protStart m c
    else if was && !on then
      let d := d.endCmd c
      d.updProt c (fun p => { p with fault := false, slotCopies := [], retain := [], normWait := [] })
    else d
  d.protCommand m c (fb v 30 27)

/-- CTX_PROT_CTRL with a CMD and ENABLE as it stands, or with ENABLE set. -/
def Dev.protCmdWord (d : Dev) (c cmd : Nat) : BitVec 32 := BitVec.ofNat 32 (setFld (d.reg (Reg.ctxProtCtrl c)).toNat 30 27 cmd)

/-- "Secure now" (R361): a SECURE for every context whose protection is enabled. -/
def Dev.secureAll (d : Dev) (m : Mem) : Dev :=
  d.each (d.ctxs.filter (fun p => d.protOn p.1 && !p.2.prot.fault)) (fun d p =>
    if d.protCmd p.1 = 0 then d.secureStart m p.1 else d)

/-! One meaning per command. Each command of CTX_PROT_CTRL is the accepted pair of guarded writes (R411) that carries it. -/

def execMirrorItem (c : Fin 64) (vs : Fin 8) (s : State) : Host.Outcome State Fault Refusal :=
  s.run (xMirrorItem c.val vs.val)
def execUpdateSumComplete (c : Fin 64) (vs : Fin 8) (shard : Fin 1024) (s : State) : Host.Outcome State Fault Refusal :=
  s.run (xUpdateSumComplete c.val vs.val shard.val)
def execRetainWrite (c : Fin 64) (s : State) : Host.Outcome State Fault Refusal := s.run (xRetainWrite c.val)
def execSlotCopy (c : Fin 64) (entry : Fin 4096) (s : State) : Host.Outcome State Fault Refusal := s.run (xSlotCopy c.val entry.val)
def execSlotCopyEnd (c : Fin 64) (entry : Fin 4096) (s : State) : Host.Outcome State Fault Refusal :=
  s.run (xSlotCopyEnd c.val entry.val)
def execDigestComplete (c : Fin 64) (entry : Fin 4096) (s : State) : Host.Outcome State Fault Refusal :=
  s.run (xDigestComplete c.val entry.val)
def execSecureReread (c : Fin 64) (entry : Fin 4096) (s : State) : Host.Outcome State Fault Refusal :=
  s.run (xSecureReread c.val entry.val)
def execLogAppend (c : Fin 64) (s : State) : Host.Outcome State Fault Refusal := s.run (xLogAppend c.val)

/-- A guarded write of CTX_PROT_CTRL with a word made from the register as it stands. -/
def State.protWrite (s : State) (r : Requester) (c : Nat) (w : Dev → BitVec 32) : Host.Outcome State Fault Refusal :=
  s.runReg r (Reg.ctxProtCtrl c) (w s.dev) (fun d => d.mayWriteCtx r c) (fun m d => (d.protCtrlWrite m c (w d), stOK))

def execProtEnable (r : Requester) (c : Fin 64) (s : State) : Host.Outcome State Fault Refusal :=
  s.protWrite r c.val (fun _ => 0x80000000)
def execSecure (r : Requester) (c : Fin 64) (s : State) : Host.Outcome State Fault Refusal :=
  s.protWrite r c.val (fun d => d.protCmdWord c.val 1)
def execRestore (r : Requester) (c : Fin 64) (s : State) : Host.Outcome State Fault Refusal :=
  s.protWrite r c.val (fun d => d.protCmdWord c.val 2)
def execApply (r : Requester) (c : Fin 64) (s : State) : Host.Outcome State Fault Refusal :=
  s.protWrite r c.val (fun d => d.protCmdWord c.val 3)
def execProtResync (r : Requester) (c : Fin 64) (s : State) : Host.Outcome State Fault Refusal :=
  s.protWrite r c.val (fun d => d.protCmdWord c.val 4)
def execPromote (r : Requester) (c : Fin 64) (s : State) : Host.Outcome State Fault Refusal :=
  s.protWrite r c.val (fun d => d.protCmdWord c.val 5)
def execFetch (r : Requester) (c : Fin 64) (s : State) : Host.Outcome State Fault Refusal :=
  s.protWrite r c.val (fun d => d.protCmdWord c.val 6)
def execDemote (r : Requester) (c : Fin 64) (s : State) : Host.Outcome State Fault Refusal :=
  s.protWrite r c.val (fun d => d.protCmdWord c.val 7)

/-- CTX_LOG_PROD_WRITE (R394). -/
def execCtxLogProdWrite (r : Requester) (c : Fin 64) (v : BitVec 32) (s : State) : Host.Outcome State Fault Refusal :=
  s.runReg r (Reg.ctxLogProd c.val) v (fun d => d.mayWriteCtx r c.val) (fun m d => (d.logProdWrite m c.val v, stOK))

end Sys2Proof.Machine
end

