-- ==== Sys2Proof/Machine/ResetOps.lean ====
section
/-! DEFINITION. What resets and teardown share (Tables 11.11, 12.10, 12.11): the end of a context's work, the core sample, the
scratchpad clear, the reload. -/

namespace Sys2Proof.Machine

/-! A context's work ends. -/

/-- The stream bridges of a context stop and discard the cells they hold (R244). -/
def Dev.bridgesReset (d : Dev) (c : Nat) : Dev :=
  { d with bridges := d.bridges.map (fun b =>
      if b.2.route.isSome && b.2.ctx == c then (b.1, { b.2 with cells := [], stopped := true, needCons := false }) else b) }

/-- Step 1: the pipeline, the cairn slots and a pending switch, the collective openings, the HEALTH_WINDOW. -/
def Dev.endServices (d : Dev) (m : Mem) (c : Nat) : Dev :=
  let d := (((d.pipeReset m c).cairnsReset c).collReset c).bridgesReset c
  d.setCtx c { d.ctx c with switch := none, window := none }

/-- Tiles of a context are reset and issue nothing until they are reloaded (R74, R475). -/
def Dev.resetTiles (d : Dev) (ts : List Nat) : Dev :=
  d.each (ts.filter (fun t => (d.tile t).state != .retired)) (fun d t =>
    let d := d.resetTile t
    d.setTile t { d.tile t with stopped := true })

/-- CTX_GEN advances (R347): fabric requests of the old generation are retired, host requests renewed or retired. -/
def Dev.nextGen (d : Dev) (c : Nat) (keep : Bool) : Dev :=
  let d := d.setCtx c { d.ctx c with gen := (d.ctx c).gen + 1 }
  let d := d.retireTags (fun t => t.port == fabricPort && t.ctx == c)
  let d := { d with pushes := d.pushes.filter (fun p => fb p.hdr 48 43 != c) }
  d.renewHost c keep

/-- Runs under way complete with CTX_RESET (Table 12.10). -/
def Dev.resetRuns (d : Dev) (c : Nat) : Dev :=
  d.each ((d.ctx c).runs.filter (fun x => x.state == .running)) (fun d x => d.stopRun c x.seq 6 0 0 0 0)

/-- Steps 1 and 2 of Table 12.10. -/
def Dev.resetCtx (d : Dev) (m : Mem) (c : Nat) : Dev :=
  let d := ((d.protReset m c).endServices m c).resetTiles (d.tilesOf c)
  let d := d.updLog c (fun l => { l with busy := none })
  (d.resetRuns c).nextGen c true

/-! The core sample (R369 to R372). -/

/-- A tile's sample windows: scratchpad byte address and length. -/
def Dev.sampleWindows (d : Dev) (t : Nat) : List (Nat × Nat) :=
  ((List.range 4).map (fun w => (d.rf (Reg.rasSampleWin t w) 31 19 * 4096, d.rf (Reg.rasSampleWin t w) 10 0 * 4096))).filter
    (fun p => p.2 != 0)

/-- The tile's slot of its die's core-sample area (Table 6.3). -/
def sampleSlot (t : Nat) : Nat := areaBase (t / 16) + 0x10000000 + t % 16 * 0x400000

/-- A tile is skipped (R370). -/
def Dev.sampleSkips (d : Dev) (t : Nat) : Bool :=
  let s := mget {} d.ras.samples t
  d.lost (dieOf t) || d.quarterOut (dieOf t) || ((s.state == 1 || s.state == 2) && !d.rb Reg.rasSampleCtrl 29)
    || (d.sampleWindows t).isEmpty

def Dev.setSample (d : Dev) (t : Nat) (s : Sample) : Dev := { d with ras := { d.ras with samples := mset d.ras.samples t s } }

/-- A core sample begins on some tiles. A slot that is held keeps its sample, its STATE too (log entry 63). -/
def Dev.sampleBegin (d : Dev) (ts : List Nat) : Dev :=
  d.each ts (fun d t =>
    let s := mget {} d.ras.samples t
    if d.sampleSkips t then
      (if s.state == 1 || s.state == 2 then d else d.setSample t { state := 3 })
    else d.setSample t { copying := true })

/-- The rows of a sample: 64-byte pieces of the windows, back to back. -/
def sampleRows (ws : List (Nat × Nat)) : List Nat := ws.flatMap (fun w => (List.range (w.2 / 64)).map (fun i => w.1 + 64 * i))

/-- A tile's copy ends after `n` rows, in STATE `st`; raw uncorrectable words are counted (R371). -/
def Dev.sampleEnd (d : Dev) (m : Mem) (t n : Nat) (st : BitVec 2) : Dev :=
  let rows := (sampleRows (d.sampleWindows t)).take n
  let bytes := (rows.map (fun a => peekN m d (scrBase t + a) 64)).flatten
  let ue := ((rows.map (fun a => ((d.tile t).badWithin a 64).length)).sum)
  (d.pokeN (sampleSlot t) bytes).setSample t { state := st, rows := rows.length, ue := ue, lt := d.lode.count }

/-- A copy is cut off as PARTIAL before its last row; how many rows were written is a free value (R371). -/
def Dev.cutSample (d : Dev) (m : Mem) (t : Nat) : Dev :=
  let total := (sampleRows (d.sampleWindows t)).length
  let (f, d) := d.takeFree
  d.sampleEnd m t (Config.rowsCopied f % total) 2

/-! The scratchpad clear and the reload. -/

/-- The clears of R188 begin: zeros with valid check bits in every row. -/
def Dev.beginClear (d : Dev) (ts : List Nat) : Dev :=
  d.each (ts.filter (fun t => (d.tile t).state != .retired && !d.lost (dieOf t))) (fun d t =>
    (d.setTile t { d.tile t with clearing := true, badWords := [] }).wipe (scrBase t) 0x2000000)

/-- The tiles a reset covers. -/
def Dev.coveredTiles (d : Dev) (r : ResetRun) : List Nat :=
  if r.scope == 1 then r.ctxs.flatMap d.tilesOf else List.range 64

/-- Microseconds since a count: one lt is four times TICK in ns. -/
def Dev.usSince (d : Dev) (t0 : BitVec 64) : Nat := (d.lode.count - t0).toNat * (4 * d.lode.tick) / 1000

/-- A lasting action that a reset had put off (R356). -/
def Dev.lastingAct (d : Dev) (m : Mem) (cls unit : Nat) : Dev :=
  match cls with
  | 0 => d.narrowTile m (unit / 256) (unit % 256)
  | 1 => d.retireTile m (unit / 256) 1
  | 2 => d.spareRow m (unit / 2 ^ 24) (unit / 2 ^ 16 % 256) (unit % 2 ^ 16)
  | 4 => d.laneFault m (unit % 256) (unit / 2 ^ 8 % 256) (unit / 2 ^ 24 == (linkEnds (unit % 256)).2) (unit / 2 ^ 16 % 256)
  | _ => d

/-- Put-off lasting actions whose unit no reset covers any more. -/
def Dev.takeDeferred (d : Dev) (m : Mem) : Dev :=
  let (wait, due) := d.ras.deferred.partition (fun x => d.resetCovers x.1 x.2)
  let d := { d with ras := { d.ras with deferred := wait } }
  d.each due (fun d x => d.lastingAct m x.1 x.2)

/-- RESET_DONE, LAST_US and the counter of a scope (Table 12.1). -/
def Dev.resetRecord (d : Dev) (cs : List Nat) (scope us : Nat) : Dev :=
  let d := { d with ras := { d.ras with lastUs := BitVec.ofNat 22 us } }
  let d := match scope with
    | 1 => d.bump Reg.rasCtxResets
    | 2 => d.bump Reg.rasComputeResets
    | 3 => d.bump Reg.rasFullRecoveries
    | _ => d
  d.event cs 0x0B0A 1 scope us 0

/-- Back to RUN from QUIESCE or FORWARD (R467): every compute die is clocked again. -/
def Dev.powerRun (d : Dev) : Dev :=
  if d.pwr.state == .quiesce || d.pwr.state == .forward then
    let d := { d with pwr := { d.pwr with state := .run } }
    d.each (List.range 4) (fun d q => d.setDie q { d.die q with tclkStopped := false, locked := !d.lost q })
  else d

/-- A context reset or a compute reset ends (Tables 12.10 and 12.11): tiles reload in the phase that was active; what waited
for the end follows. -/
def Dev.resetEnds (d : Dev) (m : Mem) (r : ResetRun) : Dev :=
  let d := { d with ras := { d.ras with resets := removeOne r d.ras.resets } }
  let d := d.each r.ctxs (fun d c => d.reloadTiles m (d.tilesOf c) (d.ctx c).phase)
  let d := (d.powerRun.takeDeferred m).resetRecord (if r.scope == 1 then r.ctxs else []) r.scope.toNat (d.usSince r.t0)
  if d.ras.secureDue && d.ras.resets.isEmpty then ({ d with ras := { d.ras with secureDue := false } }).secureAll m else d

/-- A tile on which a core sample or a clear still runs. -/
def Dev.tileBusy (d : Dev) (t : Nat) : Bool := (mget {} d.ras.samples t).copying || (d.tile t).clearing

/-- Resets whose clears have ended, but for a full recovery, which goes on (Table 12.12). -/
def Dev.endResets (d : Dev) (m : Mem) : Dev :=
  d.each (d.ras.resets.filter (fun r => r.scope != 3 && !r.sampling && (d.coveredTiles r).all (fun t => !d.tileBusy t)))
    (fun d r => d.resetEnds m r)

/-- The core sample of a reset is over: its clears begin, and its scree maps clear (R188, R200). -/
def Dev.resetClears (d : Dev) (m : Mem) (r : ResetRun) : Dev :=
  let d := { d with ras := { d.ras with resets := d.ras.resets.map (fun x => if x == r then { x with sampling := false } else x) } }
  (d.beginClear (d.coveredTiles r)).each r.ctxs (fun d c => d.screeClear m c)

/-- Once no tile copies, LT stands and SAMPLE_TAKEN is written, and the resets that sampled go on to their clears (R372). -/
def Dev.sampleDone (d : Dev) (m : Mem) : Dev :=
  let runs := d.ras.resets.filter (fun r => r.sampling)
  let of := fun (s : BitVec 2) => ((runs.flatMap d.coveredTiles).dedup.filter (fun t => (mget {} d.ras.samples t).state == s)).length
  let d := (d.event [] 0x0B09 1 (of 1) (of 2) 0).bumpN Reg.rasSamplesPartial (of 2)
  d.each runs (fun d r => d.resetClears m r)

/-- A reset whose steps 1 and 2 are done goes on to its core sample, or to its clears. -/
def Dev.resetGoes (d : Dev) (m : Mem) (r : ResetRun) (sample : Bool) : Dev :=
  let r := { r with sampling := sample }
  let d := { d with ras := { d.ras with resets := d.ras.resets ++ [r] } }
  if sample then
    let d := d.sampleBegin (d.coveredTiles r)
    if (d.ras.samples).any (fun s => s.2.copying) then d else d.sampleDone m
  else d.resetClears m r

/-- A reset of this context, or a larger one, is running. -/
def Dev.resetting (d : Dev) (c : Nat) : Bool := d.ras.resets.any (fun r => r.scope != 1 || r.ctxs.contains c)

/-- Start the context reset of `c` (Table 12.10); one that meets a reset which covers it is absorbed (Table 12.14). -/
def Dev.contextReset (d : Dev) (m : Mem) (c : Nat) : Dev :=
  if d.resetting c then d
  else
    let d := d.resetCtx m c
    (d.resetGoes m { scope := 1, ctxs := [c], t0 := d.lode.count, sampling := false, outcome := none }
      (d.rb Reg.rasSampleCtrl 31 && d.rb Reg.rasSampleCtrl 30)).endResets m

/-- Contexts 1 to 63 of the active image. -/
def Dev.liveCtxs (d : Dev) : List Nat := (List.range 64).filter (fun c => c != 0 && (d.ctx c).state != .unavailable)

/-- Start a package compute reset, or steps 1 to 4 of a full recovery (Tables 12.11 and 12.12): it takes over from smaller resets.
Tiles that no context owns are reset with the others. -/
def Dev.computeReset (d : Dev) (m : Mem) (scope : BitVec 2) (o : Option BringUpOutcome) : Dev :=
  let d := { d with ras := { d.ras with resets := [], samples := d.ras.samples.map (fun (s : Nat × Sample) =>
    if s.2.copying then (s.1, ({} : Sample)) else s) } }
  let d := d.each d.liveCtxs (fun d c => d.resetCtx m c)
  let d := d.resetTiles (List.range 64)
  d.resetGoes m { scope := scope, ctxs := d.liveCtxs, t0 := d.lode.count, sampling := false, outcome := o }
    (d.rb Reg.rasSampleCtrl 31)

/-- A compute reset is requested (Table 12.14). -/
def Dev.computeRequest (d : Dev) (m : Mem) : Dev :=
  if d.ras.resets.any (fun r => r.scope != 1) then d else (d.computeReset m 2 none).endResets m

/-! Pages of a context (R176, R199, R337). -/

/-- The page-table entry of an owned page of a MEMMAP region (Tables 5.9 and 6.4): STATE OWNED, ZEROING and PEND_RETIRE as
they were. -/
def ownedEntry (old : BitVec 16) (region : Nat) : BitVec 16 :=
  BitVec.ofNat 16 (2 ^ 14 + fb old 13 12 * 2 ^ 12 + fld region 12 12 * 2 ^ 11 + fld region 11 8 * 2 ^ 7 + fld region 5 0)

/-- Every page of a region that is not of the reserved set becomes OWNED. -/
def Dev.ownRegion (d : Dev) (region : Nat) : Dev :=
  let base := fld region 63 32
  d.each ((List.range (fld region 95 64)).map (· + base)) (fun d pg =>
    if 2 ≤ pageState (d.page pg) then d else { d with pages := mset d.pages pg (ownedEntry (d.page pg) region) })

/-- The pages of a context's regions in CURRENT become OWNED. -/
def Dev.ownPages (d : Dev) (m : Mem) (c : Nat) : Dev :=
  d.each ((imgRegions (areaReader m d d.strata.cur)).filter (fun r => fld r 5 0 == c)) (fun d r => d.ownRegion r)

/-- An owned page is released: FREE with ZEROING. -/
def releasedEntry (e : BitVec 16) : BitVec 16 := BitVec.ofNat 16 (2 ^ 13 + fb e 12 12 * 2 ^ 12)

/-- Release every page that a context owns. -/
def Dev.releasePages (d : Dev) (c : Nat) : Dev :=
  { d with pages := d.pages.map (fun p => if pageState p.2 == 1 && pageOwner p.2 == c then (p.1, releasedEntry p.2) else p) }

/-! Teardown (Table 11.11). -/

/-- A host still owes an answer about the coherent range of context `c`. -/
def Dev.snoopsIn (d : Dev) (c : Nat) : Bool :=
  let r := d.cohRange c
  d.snoops.any (fun s => r.1 ≤ s.line * 64 && s.line * 64 < r.1 + r.2)

/-- Step 4: the scratchpads clear, the pages are FREE with ZEROING, STATE QUARANTINE. -/
def Dev.teardownStep4 (d : Dev) (c : Nat) : Dev :=
  if (d.ctx c).state != .teardown || d.snoopsIn c then d
  else
    let d := (d.beginClear ((d.tilesOf c).filter (fun t => !(mget {} d.ras.samples t).copying))).releasePages c
    d.setCtx c { d.ctx c with state := .quarantine }

/-- The watched lines are given up by HEVICT, with their data where modified (R346). -/
def Dev.evictLines (d : Dev) (c : Nat) : Dev :=
  let p := (d.ctx c).port
  let base := d.reg64 (Reg.ctxRunBaseLo c) / 64 * 64
  let d := if !(d.host p).up then d
    else d.each ((d.ctx c).lines.filter (fun l => l.2.held)) (fun d l =>
      let data := if l.2.dirty then toLE 64 l.2.data.toNat else []
      d.hostRequest p { hdr := hpHdr opcHEVICT 0 0 0 c (d.genOf c) data.length 0 (base + 64 * l.1), data := data }
        { tag := 0, port := p, ctx := c, gen := BitVec.ofNat 8 (d.genOf c), purpose := .evict })
  d.setCtx c { d.ctx c with lines := [] }

/-- Steps 1 to 3, and step 4 once every snoop is answered. `cause` is D1 of CTX_TEARDOWN. -/
def Dev.teardown (d : Dev) (m : Mem) (c cause : Nat) : Dev :=
  if !d.bound c then d
  else
    let p := (d.ctx c).port
    let up := (d.host p).up
    let d := d.setCtx c { d.ctx c with state := .teardown, tdCause := cause }
    let d := d.event [c] 0x0904 1 c cause 0
    let d := (d.endServices m c).resetTiles (d.tilesOf c)
    let d := d.setCtx c { d.ctx c with prot := {}, log := {} }
    let d := if up then d.each ((d.ctx c).runs.filter (fun x => x.state != .ending)) (fun d x => d.stopRun c x.seq 6 0 0 0 0)
      else d.setCtx c { d.ctx c with runs := [] }
    let d := (d.nextGen c up).evictLines c
    let r := d.cohRange c
    let d := d.each (d.snoopsFor r.1 r.2 true none) (fun d s => d.sendSnoop s.1 s.2.1 true)
    d.teardownStep4 c

/-- Contexts whose teardown waited for snoops. -/
def Dev.teardownsGoOn (d : Dev) : Dev :=
  d.each ((List.range 64).filter (fun c => (d.ctx c).state == .teardown)) (fun d c => d.teardownStep4 c)

/-- The tiles of a context whose teardown has cleared them load INIT_PHASE from CURRENT (log entry 64). -/
def Dev.reloadFreed (d : Dev) (m : Mem) (c : Nat) : Dev :=
  let x := d.ctx c
  if (x.state == .quarantine || x.state == .free) && !d.resetting c && (d.tilesOf c).all (fun t => !d.tileBusy t) then
    (d.setCtx c { x with phase := x.initPhase }).reloadTiles m (d.tilesOf c) x.initPhase
  else d

end Sys2Proof.Machine
end

