-- ==== Sys2Proof/Machine/Runs.lean ====
section
/-! DEFINITION. Watched lines, run records, runs, aborts, completion and event rings (R339 to R345, R348). -/

namespace Sys2Proof.Machine

/-! Watched lines (R339). -/

def Dev.runOn? (d : Dev) (c : Nat) : Bool := d.bound c && d.rb (Reg.ctxRunCtrl c) 31
def Dev.runLines (d : Dev) (c : Nat) : Nat := d.rf (Reg.ctxRunCtrl c) 6 0
def Dev.lineAddr (d : Dev) (c i : Nat) : Nat := d.reg64 (Reg.ctxRunBaseLo c) / 64 * 64 + 64 * i
def Dev.watched (d : Dev) (c i : Nat) : Watched := mget {} (d.ctx c).lines i
def Dev.setWatched (d : Dev) (c i : Nat) (w : Watched) : Dev := d.setCtx c { d.ctx c with lines := mset (d.ctx c).lines i w }

/-- Take a line with HRD_E, or read it with HRD on a non-coherent port (R335). -/
def Dev.takeLine (d : Dev) (c i : Nat) : Dev :=
  let p := (d.ctx c).port
  let d := d.setWatched c i { d.watched c i with taking := true }
  d.hrd p c (if d.coherent p then opcHRDE else opcHRD) (d.lineAddr c i) 64 .runLine c i

/-- ENABLE 0 to 1: every line is taken, and CTX_RUN_NEXT starts at 0. -/
def Dev.runEnable (d : Dev) (c : Nat) : Dev :=
  let d := d.setCtx c { d.ctx c with lines := [], runNext := 0 }
  if d.coherent (d.ctx c).port then d.each (List.range (d.runLines c)) (fun d i => d.takeLine c i) else d

/-- ENABLE 1 to 0: the lines are no longer watched; those held are given up. -/
def Dev.runDisable (d : Dev) (c : Nat) : Dev :=
  (d.retireTags (fun t => t.purpose == .runLine && t.ctx == c)).evictLines c

/-! Accepting records (R340). -/

/-- A range of local memory that context `c` may reach (R177). -/
def Dev.mayReach (d : Dev) (c a n : Nat) : Bool := a < 0x018000000000 && inMemory a n && d.admits c a n

/-- COPY's LOCAL: a local offset when its node field is 0 or this node's (log entry 66). -/
def Dev.copyLocal (d : Dev) (g : Nat) : Option Nat := if gNode g = 0 || d.isLocal g then some (gOffset g) else none

/-- `a` comes after `b` or is `b`, modulo 2^32. -/
def seqFrom (a b : BitVec 32) : Bool := (a - b).toNat < 2 ^ 31

/-- A record fails the checks of R340 (and, for an ABORT of a later SEQ, R345). -/
def Dev.refuses (d : Dev) (c : Nat) (x : Run) : Bool :=
  let r := x.record
  fb r 47 43 != 0 ||
  (match x.op with
   | 0 => false
   | 1 =>
     x.tileMask = 0 || (maskTiles x.tileMask).any (fun t => !(d.ctx c).tileMask.getLsbD t)
       || 2 ^ 22 < x.inBytes || 0x2000000 < x.inScr + x.inBytes
       || ((14 ≤ x.startSem || 14 ≤ x.doneSem) && (d.ctx c).pipe.state != .off)
   | 2 =>
     x.length = 0 || 2 ^ 30 < x.length || fb r 295 289 != 0
       || (match d.copyLocal x.localAddr with | some a => !d.mayReach c a x.length | none => false)
   | 3 => seqFrom (BitVec.ofNat 32 x.target) x.seq
   | 4 => false
   | _ => true)

/-- Write STATE into a line: into the one held, or with HWR on a non-coherent port (log entry 67). -/
def Dev.writeState (d : Dev) (c i st : Nat) : Dev :=
  let w := d.watched c i
  let d := d.setWatched c i { w with data := BitVec.ofNat 512 (setFld w.data.toNat 63 56 st), dirty := w.held }
  if w.held then d else d.hwr (d.ctx c).port c (d.lineAddr c i + 7) [BitVec.ofNat 8 st] .runState c i

/-- The completion slot of run `s` is free: its ring is enabled and holds less than 2^SIZE_LOG2 unconsumed runs. -/
def Dev.cplFree (d : Dev) (c : Nat) (s : BitVec 32) : Bool :=
  d.rb (Reg.ctxCplCtrl c) 31 && (s - d.reg (Reg.ctxCplCons c)).toNat < 2 ^ d.rf (Reg.ctxCplCtrl c) 4 0

/-- Accept or refuse the record that line `i` holds, where it is the next and POSTED; whether it did. -/
def Dev.acceptLine (d : Dev) (c i : Nat) : Dev × Bool :=
  let w := d.watched c i
  let s := (d.ctx c).runNext
  if fb w.data 31 0 != s.toNat || fb w.data 63 56 != 0 || !d.cplFree c s then (d, false)
  else
    let x : Run := { seq := s, record := w.data }
    let bad := d.refuses c x
    let d := d.writeState c i (if bad then 2 else 1)
    let d := d.setCtx c { d.ctx c with runs := (d.ctx c).runs ++ [x], runNext := s + 1 }
    if bad then ((d.bump (Reg.ctxRunRefused c)).endRun c s 5 0 0 0 0, true) else (d, true)

/-- Accept records while the line of the next one is held and holds it. -/
def acceptFrom (c : Nat) : Nat → Dev → Dev
  | 0, d => d
  | n + 1, d =>
    let i := (d.ctx c).runNext.toNat % d.runLines c
    if d.runOn? c && (d.watched c i).held then
      let (d, more) := d.acceptLine c i
      if more then acceptFrom c n d else d
    else d

def Dev.acceptRecords (d : Dev) (c : Nat) : Dev := acceptFrom c 64 d

/-- A line's contents have come (R339): held in E on a coherent port; the record is dispatched when it is the next one. -/
def Dev.lineData (d : Dev) (c i : Nat) (data : List Byte) (exclusive : Bool) : Dev :=
  let d := d.setWatched c i { held := exclusive, data := BitVec.ofNat 512 (leOf data) }
  if !d.runOn? c || d.runLines c ≤ i then d
  else if exclusive then d.acceptRecords c
  else if (d.ctx c).runNext.toNat % d.runLines c = i then (d.acceptLine c i).1
  else d

/-- A line could not be read: it is asked for again by a later take-back or poll. -/
def Dev.lineFailed (d : Dev) (c i : Nat) : Dev := d.setWatched c i { d.watched c i with taking := false }

/-- RUN_LINE_REACQUIRE (R339). -/
def xRunLineReacquire (c i : Nat) : Effect := fun _ d =>
  let w := d.watched c i
  if d.runOn? c && i < d.runLines c && d.coherent (d.ctx c).port && (!w.held || w.shared) && !w.taking then d.takeLine c i else d

/-- WATCH_POLL (R335): a watched line of a non-coherent port. -/
def xWatchPoll (c i : Nat) : Effect := fun _ d =>
  let w := d.watched c i
  if d.runOn? c && i < d.runLines c && !d.coherent (d.ctx c).port && (d.host (d.ctx c).port).up && !w.taking then d.takeLine c i
  else d

/-- The lines of contexts bound to port `p` that lie at a host address: context and line. -/
def Dev.linesAt (d : Dev) (p a : Nat) : List (Nat × Nat) :=
  (List.range 64).flatMap (fun c =>
    if d.bound c && (d.ctx c).port == p then
      ((d.ctx c).lines.filter (fun l => l.2.held && d.lineAddr c l.1 == a / 64 * 64)).map (fun l => (c, l.1))
    else [])

/-- HSNP_I and HSNP_S (R335): answered with data when the line is modified; an invalidated line is given up, a downgraded one
is held in S. -/
def xHostSnoop (p : Nat) (k : HPacket) (inval : Bool) : Effect := fun _ d =>
  if !(d.host p).up || k.opc != (if inval then 0x15 else 0x16) then d
  else
    let d := d.takenHost p k
    let l := d.linesAt p k.addr
    let data := match l.find? (fun x => (d.watched x.1 x.2).dirty) with
      | some x => toLE 64 (d.watched x.1 x.2).data.toNat
      | none => []
    let d := d.each l (fun d x =>
      let w := d.watched x.1 x.2
      d.setWatched x.1 x.2 (if inval then { taking := w.taking } else { w with shared := true, dirty := false }))
    d.sendHost p { hdr := hpHdr 0x17 2 k.tag stOK k.ctx k.gen data.length 0 k.addr, data := data }

/-! Starting runs (R341). -/

/-- Runs of the list before `x`. -/
def earlier (l : List Run) (seq : BitVec 32) : List Run := l.takeWhile (fun y => y.seq != seq)

/-- A record may start: those before it have started, but for an ABORT, which does not wait its turn; its FENCE and its tiles
allow it; no reset of its context runs. -/
def Dev.mayStart (d : Dev) (c : Nat) (x : Run) : Bool :=
  let before := earlier (d.ctx c).runs x.seq
  d.bound c && !d.resetting c && x.state == .waiting
    && before.all (fun y => y.state != .waiting || y.op == 3)
    && (!x.fenced || before.isEmpty)
    && (x.op != 1 || before.all (fun y => y.op != 1 || y.state != .running || y.tileMask &&& x.tileMask == 0))

/-- The run has started. -/
def Dev.startRun (d : Dev) (c : Nat) (x : Run) : Dev := d.putRun c { x with state := .running, startLt := d.lode.count }

/-- START_SEM is set on every tile of the mask. -/
def Dev.setStart (d : Dev) (c : Nat) (x : Run) : Dev :=
  let d := d.putRun c { x with started := true }
  d.each ((maskTiles x.tileMask).filter (fun t => (d.tile t).state != .retired))
    (fun d t => d.setSem t x.startSem (0x10C + (d.ctx c).port))

/-- Bytes of the next request at host address `h`, within one 256-byte block (R331). -/
def pieceAt (h left : Nat) : Nat := min (256 - h % 256) left

/-- Read the next piece of a RUN's input. -/
def Dev.readInput (d : Dev) (c : Nat) (x : Run) : Dev :=
  let n := pieceAt (x.inHost + x.issued) (x.inBytes - x.issued)
  let d := d.putRun c { x with issued := x.issued + n }
  d.hrd (d.ctx c).port c opcHRD (x.inHost + x.issued) n .runInput 0 x.seq.toNat

/-- RUN. A tile on a lost die ends it with DIE_ABSENT (Table 12.13). -/
def xRun (c : Nat) (seq : BitVec 32) : Effect := fun _ d =>
  match d.findRun c seq with
  | none => d
  | some x =>
    if x.op != 1 || !d.mayStart c x then d
    else
      let d := d.startRun c x
      let x := { x with state := .running, startLt := d.lode.count }
      match (maskTiles x.tileMask).find? (fun t => d.lost (dieOf t)) with
      | some t => d.endRun c seq 3 0x0401 (0x40 + dieOf t) (dieOf t) 0
      | none => if x.inBytes = 0 then d.setStart c x else d.readInput c x

/-- A piece of a RUN's input has come: written to the lead tile; after the last, START_SEM. -/
def Dev.inputData (d : Dev) (m : Mem) (c : Nat) (seq : BitVec 32) (data : List Byte) : Dev :=
  match d.findRun c seq with
  | none => d
  | some x =>
    if x.state != .running then d
    else
      let lead := leadTile x.tileMask
      let a := scrBase lead + x.inScr + x.moved
      let (d, e) := d.store m a data
      match e with
      | some (code, off) => d.endRun c seq 3 code lead (off % 2 ^ 32) off
      | none =>
        let x := { x with moved := x.moved + data.length }
        let d := d.putRun c x
        if x.inBytes ≤ x.moved then d.setStart c x else d.readInput c x

/-! COPY. -/

/-- Requests of a COPY that are outstanding. -/
def Dev.copyOut (d : Dev) (c : Nat) (seq : BitVec 32) : Bool :=
  let mine := fun (t : Tag) => (t.purpose == .copyRead || t.purpose == .copyWrite) && t.ctx == c && t.b == seq.toNat && !t.reserved
  d.tags.any mine || (List.range 4).any (fun p => (d.host p).waiting.any (fun x => mine x.2))

/-- A COPY ends with an error of its local side. -/
def Dev.copyFails (d : Dev) (c : Nat) (seq : BitVec 32) (code off : Nat) : Dev :=
  d.stopRun c seq 3 code (0x40 + memDie off) (off % 2 ^ 32) off

/-- A local access of a COPY at `a`: none when it must ask again (R199, R334), else the error code, if any. -/
def Dev.copyMay (d : Dev) (c a n : Nat) (write : Bool) : Dev × Option (Option Nat) :=
  let (d, e) := d.accessCheck c a n
  match e with
  | some code => (d, some (some code))
  | none =>
    if d.mustWait a n then (d, none)
    else
      let (d, held) := d.cohBlocked a n write
      if held then (d, none) else (d, some none)

/-- The next piece of a running COPY: HRD, or the local bytes and HWR. A piece that must wait is asked for again by COPY. -/
def Dev.copyNext (d : Dev) (m : Mem) (c : Nat) (x : Run) : Dev :=
  let h := x.hostAddr + x.issued
  let n := pieceAt h (x.length - x.issued)
  let p := (d.ctx c).port
  let y := { x with issued := x.issued + n }
  if x.length ≤ x.issued then d
  else if !x.toHost then (d.putRun c y).hrd p c opcHRD h n .copyRead 0 x.seq.toNat
  else match d.copyLocal x.localAddr with
    | none =>
      let g := x.localAddr + x.issued
      let n := min n (256 - g % 256)
      (d.putRun c { x with issued := x.issued + n }).fabRead c g n .copyRead 0 x.seq.toNat n
    | some a =>
      let (d, r) := d.copyMay c (a + x.issued) n false
      match r with
      | none => d
      | some (some code) => d.copyFails c x.seq code (a + x.issued)
      | some none =>
        let (d, b) := d.load m (a + x.issued) n
        match b with
        | .inr (code, off) => d.copyFails c x.seq code off
        | .inl bs => (d.putRun c y).hwr p c h bs .copyWrite 0 x.seq.toNat

/-- COPY: starts, or goes on where it had to wait. -/
def xCopy (c : Nat) (seq : BitVec 32) : Effect := fun m d =>
  match d.findRun c seq with
  | none => d
  | some x =>
    if x.op != 2 then d
    else if d.mayStart c x then (d.startRun c x).copyNext m c { x with state := .running, startLt := d.lode.count }
    else if x.state == .running && d.bound c && !d.copyOut c seq then d.copyNext m c { x with issued := x.moved }
    else d

/-- Host bytes of a COPY have come: written to local memory, or to another package. None when the local access must wait. -/
def Dev.copyArrives (d : Dev) (m : Mem) (c : Nat) (seq : BitVec 32) (data : List Byte) : Dev × Bool :=
  match d.findRun c seq with
  | none => (d, true)
  | some x =>
    if x.state != .running then (d, true)
    else match d.copyLocal x.localAddr with
      | none => (d.fabWrite c (x.localAddr + x.moved) data .copyWrite 0 seq.toNat 0, true)
      | some a =>
        let at_ := a + x.moved
        let (d, r) := d.copyMay c at_ data.length true
        match r with
        | none => (d, false)
        | some (some code) => (d.copyFails c seq code at_, true)
        | some none =>
          let (d, e) := (d.wakeMover at_ data.length).store m at_ data
          match e with
          | some (code, off) => (d.copyFails c seq code off, true)
          | none =>
            let x := { x with moved := x.moved + data.length }
            ((d.putRun c x).copyNext m c x, true)

/-- Bytes read from another package by a COPY: written to the host. -/
def Dev.copyRemote (d : Dev) (c : Nat) (seq : BitVec 32) (data : List Byte) : Dev :=
  match d.findRun c seq with
  | none => d
  | some x =>
    if x.state != .running then d
    else d.hwr (d.ctx c).port c (x.hostAddr + x.moved) data .copyWrite 0 seq.toNat

/-- A write of a COPY is acknowledged: once none is outstanding its bytes are moved, and the next piece follows. -/
def Dev.copyAck (d : Dev) (m : Mem) (c : Nat) (seq : BitVec 32) : Dev :=
  match d.findRun c seq with
  | none => d
  | some x =>
    if x.state == .ending then d.cplFinish c seq
    else if x.state != .running || d.copyOut c seq then d
    else
      let x := { x with moved := x.issued }
      (d.putRun c x).copyNext m c x

/-- A read or write of a run failed at its far end. -/
def Dev.runFails (d : Dev) (c : Nat) (seq : BitVec 32) (code addr : Nat) : Dev := d.stopRun c seq 3 code 0 (addr % 2 ^ 32) addr

/-- COPY_COMPLETE (R341): every byte is moved and every write visible. -/
def xCopyComplete (c : Nat) (seq : BitVec 32) : Effect := fun _ d =>
  match d.findRun c seq with
  | none => d
  | some x => if x.op == 2 && x.state == .running && x.length ≤ x.moved && !d.copyOut c seq then d.endRun c seq 0 0 0 0 0 else d

/-! The other runs. -/

/-- RUN_COMPLETE (R341): DONE_SEM is set on the lead tile; the package clears it. -/
def xRunComplete (c : Nat) (seq : BitVec 32) : Effect := fun _ d =>
  match d.findRun c seq with
  | none => d
  | some x =>
    let lead := leadTile x.tileMask
    if x.op == 1 && x.state == .running && x.started && (d.tile lead).sem x.doneSem then
      (d.clearSem lead x.doneSem).endRun c seq 0 0 0 0 0
    else d

/-- FENCE (R341): it starts in its turn and completes when every earlier run has completed. -/
def xFence (c : Nat) (seq : BitVec 32) : Effect := fun _ d =>
  match d.findRun c seq with
  | none => d
  | some x =>
    if x.op != 4 then d
    else
      let go := d.mayStart c x
      let d := if go then d.startRun c x else d
      if (go || x.state == .running) && d.bound c && (earlier (d.ctx c).runs seq).isEmpty then d.endRun c seq 0 0 0 0 0 else d

/-- NOP (R341): it completes at once. -/
def xRunNop (c : Nat) (seq : BitVec 32) : Effect := fun _ d =>
  match d.findRun c seq with
  | none => d
  | some x => if x.op == 0 && d.mayStart c x then (d.startRun c x).endRun c seq 0 0 0 0 0 else d

/-- ABORT (R345): an ABORT may overtake records that wait. -/
def xAbort (c : Nat) (seq : BitVec 32) : Effect := fun m d =>
  match d.findRun c seq with
  | none => d
  | some x =>
    if x.op != 3 || x.state != .waiting || !d.bound c then d
    else
      let d := d.startRun c x
      let target := BitVec.ofNat 32 x.target
      match (earlier (d.ctx c).runs seq).find? (fun y => y.seq == target) with
      | none => d.endRun c seq 2 0 0 0 0
      | some y =>
        if y.state == .ending then d.endRun c seq 2 0 0 0 0
        else if y.state == .running && y.op == 1 then
          ((d.stopRun c target 1 0 0 0 0).endRun c seq 0 0 0 0 0).contextReset m c
        else if y.state == .running && y.op == 2 then
          let d := if y.toHost then d.putRun c { y with moved := y.issued } else d
          (d.stopRun c target 1 0 0 0 0).endRun c seq 0 0 0 0 0
        else (d.endRun c target 1 0 0 0 0).endRun c seq 0 0 0 0 0

/-- RUN_DEADLINE (R348): reads are retired; bytes written stay written. -/
def xRunDeadline (c : Nat) (seq : BitVec 32) : Effect := fun _ d =>
  match d.findRun c seq with
  | none => d
  | some x =>
    if x.deadlineEn && x.deadline ≤ d.now && x.state != .ending then
      let d := if x.op == 2 && x.toHost && x.state == .running then d.putRun c { x with moved := x.issued } else d
      d.stopRun c seq 4 0 0 0 0
    else d

/-! Rings (R342, R344). -/

/-- Sequence numbers from `a` up to, not including, `b`. -/
def seqRange (a b : BitVec 32) (most : Nat) : Option (List Nat) :=
  let n := (b - a).toNat
  if most < n then none else some ((List.range n).map (fun i => (a + BitVec.ofNat 32 i).toNat))

/-- A write of CTX_CPL_CONS: ignored whole where it would pass a slot whose VALID is 0. Waiting records may now be accepted. -/
def Dev.cplConsWrite (d : Dev) (c : Nat) (v : BitVec 32) : Dev :=
  let old := d.reg (Reg.ctxCplCons c)
  match seqRange old v (2 ^ d.rf (Reg.ctxCplCtrl c) 4 0) with
  | none => d
  | some l =>
    if l.any (fun s => !(d.ctx c).cplValid.contains s) then d
    else
      let d := d.each l (fun d s => d.hwr (d.ctx c).port c (d.cplSlot c (BitVec.ofNat 32 s) + 4) [0] .cplClear c s)
      let d := d.setCtx c { d.ctx c with cplValid := (d.ctx c).cplValid.filter (fun s => !l.contains s) }
      (d.setReg (Reg.ctxCplCons c) v).acceptRecords c

/-- A ring's control word after a write: out of range it is ignored whole; SIZE_LOG2 holds while the ring is enabled. -/
def ringCtrl (old v : BitVec 32) : BitVec 32 :=
  if fb v 4 0 < 4 || 16 < fb v 4 0 then old
  else if old.getLsbD 31 then BitVec.ofNat 32 (setFld old.toNat 31 31 (fb v 31 31))
  else BitVec.ofNat 32 (setFld (setFld old.toNat 31 31 (fb v 31 31)) 4 0 (fb v 4 0))

/-- Every slot of a ring that is enabled: its sequence number is k - 2^SIZE_LOG2, its VALID 0. -/
def Dev.initRing (d : Dev) (p c base size bytes : Nat) (at_ : Nat) (u : Purpose) (a : Nat) : Dev :=
  d.each (List.range size) (fun d k =>
    d.hwr p c (base + bytes * k) (toLE at_ 0 ++ toLE 4 (k + 2 ^ 32 - size) ++ toLE (bytes - 4 - at_) 0) u a k)

/-- A write of CTX_CPL_CTRL. -/
def Dev.cplCtrlWrite (d : Dev) (c : Nat) (v : BitVec 32) : Dev :=
  let old := d.reg (Reg.ctxCplCtrl c)
  let new := ringCtrl old v
  let d := d.setReg (Reg.ctxCplCtrl c) new
  if new.getLsbD 31 && !old.getLsbD 31 && d.bound c then
    let d := d.setCtx c { d.ctx c with cplValid := [] }
    (d.initRing (d.ctx c).port c (d.reg64 (Reg.ctxCplBaseLo c) / 64 * 64) (2 ^ fb new 4 0) 64 0 .cplInit c).acceptRecords c
  else d

/-- A write of the CTRL word of event ring `c` (64: the package ring). -/
def Dev.evtCtrlWrite (d : Dev) (c key : Nat) (old new : BitVec 32) : Dev :=
  let d := d.setReg key new
  if new.getLsbD 31 && !old.getLsbD 31 && (c == 64 || d.bound c) then
    let d := d.setEventRing c { d.eventRing c with valid := [] }
    let r := d.eventRingAt c
    d.initRing r.port (if c = 64 then 0 else c) r.base r.size 32 4 .evtClear c
  else d

/-- A write of an event ring's CONS. -/
def Dev.evtConsWrite (d : Dev) (c key : Nat) (v : BitVec 32) : Dev :=
  let r := d.eventRingAt c
  match seqRange (d.reg key) v r.size with
  | none => d
  | some l =>
    let e := d.eventRing c
    if l.any (fun s => !e.valid.contains s) then d
    else
      let d := d.each l (fun d s =>
        d.hwr r.port (if c = 64 then 0 else c) (r.base + s % r.size * 32 + 3) [0] .evtClear c s)
      (d.setEventRing c { d.eventRing c with valid := e.valid.filter (fun s => !l.contains s) }).setReg key v

/-- Bytes 8 to 31 of an event record are written: bytes 0 to 7 with VALID 1 follow (log entry 8). -/
def Dev.evtBodyDone (d : Dev) (c n : Nat) : Dev :=
  let e := d.eventRing c
  match mfind e.heads n with
  | none => d
  | some h =>
    let r := d.eventRingAt c
    let d := d.setEventRing c { e with heads := mdel e.heads n, valid := n :: e.valid }
    d.hwr r.port (if c = 64 then 0 else c) (r.base + n % r.size * 32) (toLE 8 h.toNat) .evtValid c n

/-- Bytes 8 to 63 of a completion are written (R342). -/
def Dev.cplBodyDone (d : Dev) (c : Nat) (seq : BitVec 32) : Dev :=
  match d.findRun c seq with
  | none => d
  | some x => (d.putRun c { x with bodyDone := true }).cplFinish c seq

/-! One meaning per command. -/

def execWatchPoll (c line : Fin 64) (s : State) : Host.Outcome State Fault Refusal := s.run (xWatchPoll c.val line.val)
def execRunLineReacquire (c line : Fin 64) (s : State) : Host.Outcome State Fault Refusal :=
  s.run (xRunLineReacquire c.val line.val)
def execHsnpI (p : Fin 4) (k : HPacket) (s : State) : Host.Outcome State Fault Refusal := s.run (xHostSnoop p.val k true)
def execHsnpS (p : Fin 4) (k : HPacket) (s : State) : Host.Outcome State Fault Refusal := s.run (xHostSnoop p.val k false)
def execRun (c : Fin 64) (seq : BitVec 32) (s : State) : Host.Outcome State Fault Refusal := s.run (xRun c.val seq)
def execCopy (c : Fin 64) (seq : BitVec 32) (s : State) : Host.Outcome State Fault Refusal := s.run (xCopy c.val seq)
def execAbort (c : Fin 64) (seq : BitVec 32) (s : State) : Host.Outcome State Fault Refusal := s.run (xAbort c.val seq)
def execFence (c : Fin 64) (seq : BitVec 32) (s : State) : Host.Outcome State Fault Refusal := s.run (xFence c.val seq)
def execRunNop (c : Fin 64) (seq : BitVec 32) (s : State) : Host.Outcome State Fault Refusal := s.run (xRunNop c.val seq)
def execRunComplete (c : Fin 64) (seq : BitVec 32) (s : State) : Host.Outcome State Fault Refusal := s.run (xRunComplete c.val seq)
def execCopyComplete (c : Fin 64) (seq : BitVec 32) (s : State) : Host.Outcome State Fault Refusal := s.run (xCopyComplete c.val seq)
def execRunDeadline (c : Fin 64) (seq : BitVec 32) (s : State) : Host.Outcome State Fault Refusal := s.run (xRunDeadline c.val seq)

/-- CTX_CPL_CONS_WRITE (R342). -/
def execCtxCplConsWrite (r : Requester) (c : Fin 64) (v : BitVec 32) (s : State) : Host.Outcome State Fault Refusal :=
  s.runReg r (Reg.ctxCplCons c.val) v (fun d => d.mayWriteCtx r c.val) (fun _ d => (d.cplConsWrite c.val v, stOK))

/-- CTX_CPL_ENABLE (R342). -/
def execCtxCplEnable (r : Requester) (c : Fin 64) (v : BitVec 32) (s : State) : Host.Outcome State Fault Refusal :=
  s.runReg r (Reg.ctxCplCtrl c.val) v (fun d => d.mayWriteCtx r c.val) (fun _ d => (d.cplCtrlWrite c.val v, stOK))

/-- CTX_EVT_CONS_WRITE (R344). -/
def execCtxEvtConsWrite (r : Requester) (c : Fin 64) (v : BitVec 32) (s : State) : Host.Outcome State Fault Refusal :=
  s.runReg r (Reg.ctxEvtCons c.val) v (fun d => d.mayWriteCtx r c.val)
    (fun _ d => (d.evtConsWrite c.val (Reg.ctxEvtCons c.val) v, stOK))

end Sys2Proof.Machine
end

