-- ==== Sys2Proof/Machine/Host.lean ====
section
/-! DEFINITION. The commands of Pequa ports, of host memory requests, and of binding, teardown and quarantine (R326 to R338,
R346, R350). -/

namespace Sys2Proof.Machine

/-! Links (R328, R329). -/

/-- PEQUA_FLIT_RECEIVE. -/
def xPequaFlitReceive (p : Nat) (f : FlitIn) : Effect := fun _ d => d.takeHostFlit p f.crcOk (f.bits.toNat % 2 ^ 1936)

/-- PEQUA_FLIT_SEND. -/
def xPequaFlitSend (p : Nat) : Effect := fun _ d =>
  let x := d.host p
  match x.state with
  | .param => d.sendCtrl p (d.hostParam p)
  | .credit =>
    (match x.ctrlQueue with
     | m :: r => (d.setHost p { x with ctrlQueue := r }).sendCtrl p m
     | [] => d.sendCtrl p hostCreditInit)
  | .active =>
    (match x.ctrlQueue with
     | m :: r => (d.setHost p { x with ctrlQueue := r }).sendCtrl p m
     | [] =>
       let (f, x) := x.nextFlit
       (d.setHost p x).emitFlit p f)
  | _ => d

/-- PEQUA_ACK_TIMEOUT: a flit has stayed unacknowledged for 20 µs. -/
def xPequaAckTimeout (p : Nat) : Effect := fun _ d =>
  let x := d.host p
  if x.state == .active && !x.unacked.isEmpty then d.hostRetrain p else d

/-- PEQUA_RETRY_TIMER: a DOWN port trains. -/
def xPequaRetryTimer (p : Nat) : Effect := fun _ d =>
  let x := d.host p
  if x.state == .down && d.hostMayTrain p then d.setHost p { x with state := .phyTrain } else d

/-- WIDTH code of a number of lanes. -/
def hostWidth (lanes : Nat) : BitVec 2 := if 16 ≤ lanes then 3 else if 8 ≤ lanes then 2 else if 4 ≤ lanes then 1 else 0

/-- PEQUA_PHY_TRAIN_DONE: L0 with some lanes at a rate code, or too few lanes. -/
def xPequaPhyTrainDone (p lanes : Nat) (rate : BitVec 2) : Effect := fun _ d =>
  let x := d.host p
  if x.state != .phyTrain then d
  else if lanes < 4 then (d.setHost p { x with state := .failed }).noteDegraded
  else (d.setHost p { x with state := .param, width := hostWidth lanes, rate := rate }).noteDegraded

/-- PEQUA_PARAM (R329, R338, R418): a HOST_ID other than the one last recorded tears down the contexts bound to the port. -/
def xPequaParam (p : Nat) (hostId : BitVec 64) (cohReq : Bool) (tags : Nat) : Effect := fun m d =>
  let x := d.host p
  if x.state != .param || hostId == 0 || tags = 0 || 4096 < tags then d
  else
    let changed := x.lastHostId != 0 && x.lastHostId != hostId
    let d := d.setHost p { x with state := .credit, hostId := hostId, lastHostId := hostId, cohReq := cohReq, cohFenced := false,
                                  tags := tags, ctrlQueue := [hostCreditInit] }
    if !changed then d
    else
      let d := { d with admin := d.admin &&& ~~~(BitVec.ofNat 4 (2 ^ p)) }
      let d := (d.event [] 0x0903 1 p 0 0).dropPort m p
      d.each ((List.range 64).filter (fun c => d.boundTo c p)) (fun d c => d.teardown m c 2)

/-- PEQUA_CREDIT_INIT: the port becomes ACTIVE; a teardown of R338 comes first. -/
def xPequaCreditInit (p req snp rsp : Nat) : Effect := fun _ d =>
  let x := d.host p
  if x.state != .credit || (List.range 64).any (fun c => (d.ctx c).state == .teardown && (d.ctx c).port == p) then d
  else
    let d := d.setHost p { x with state := .active, credits := [(0, req), (1, snp), (2, rsp)] }
    d.noteDegraded.hostRetry p

/-- PEQUA_DOWN. -/
def xPequaDown (p : Nat) : Effect := fun _ d => if (d.host p).state.hasL0 then d.hostDown p .down else d

/-- PEQUA_STATE_TIMEOUT: a training state, or RETRAIN, has passed its bound. -/
def xPequaStateTimeout (p : Nat) : Effect := fun _ d =>
  match (d.host p).state with
  | .phyTrain | .param | .credit | .retrain => d.hostDown p .down
  | _ => d

/-- PEQUA_LINK_LOSS. -/
def xPequaLinkLoss (p : Nat) : Effect := fun _ d =>
  if (d.host p).state.hasL0 || (d.host p).state == .retrain then d.hostDown p .down else d

/-- L0_REGAINED: the unacknowledged flits are replayed. -/
def xL0Regained (p : Nat) : Effect := fun _ d =>
  let x := d.host p
  if x.state == .retrain then
    (d.setHost p { x with state := .active, toReplay := x.unacked.length, nakDue := false, nakSent := false, nakCount := 0 }).hostRetry p
  else d

/-! Host memory requests. -/

/-- DRD, DWR, DRD_S, DRD_E and DEVICT: performed in arrival order on one line (R332). -/
def xHostRequest (op p : Nat) (k : HPacket) : Effect := fun m d =>
  if !(d.host p).up || k.opc != op || d.hostBehind p k then d else d.serveHost m p k

/-- HSRSP (R334). -/
def xHsrsp (p : Nat) (k : HPacket) : Effect := fun m d =>
  if !(d.host p).up || k.opc != 0x0A then d
  else
    let d := d.takenHost p k
    match d.snoops.find? (fun s => s.port == p && s.tag == k.tag) with
    | none => d
    | some s => (d.snoopDone m s k.data).teardownsGoOn

/-- DSNP_TIMEOUT (R335). -/
def xDsnpTimeout (p : Nat) : Effect := fun m d =>
  if !d.snoops.any (fun s => s.port == p) then d
  else
    let d := d.setHost p { d.host p with cohFenced := true }
    ((d.event [] 0x0902 2 p 0 0).dropPort m p).teardownsGoOn

/-! Contexts. -/

/-- The result of a bind on port `p` that arrived on port `q` (R337): codes of Table 11.14. -/
def Dev.bindResult (d : Dev) (p q c : Nat) : Nat :=
  if c = 0 || (d.ctx c).state == .unavailable then 3
  else if (d.ctx c).state != .free then 2
  else if !(d.ctx c).hostMask.getLsbD p then 1
  else if p != q then 4
  else 0

/-- Bind context `c` to port `p`. -/
def Dev.bindCtx (d : Dev) (m : Mem) (p c : Nat) : Dev :=
  let d := d.setCtx c { d.ctx c with state := .bound, port := p, hostId := (d.host p).hostId }
  let d := ((d.setRf (Reg.ctxRunCtrl c) 31 31 0).setRf (Reg.ctxCplCtrl c) 31 31 0).setRf (Reg.ctxEvtCtrl c) 31 31 0
  d.ownPages m c

/-- A write of DEV_HP_BIND_p by host port `q`. -/
def Dev.bindWrite (d : Dev) (m : Mem) (p q : Nat) (v : BitVec 32) : Dev :=
  let c := fb v 5 0
  let res := d.bindResult p q c
  let d := d.setRf (Reg.devHpBind p) 15 8 res
  if res = 0 then (d.setRf (Reg.devHpBind p) 5 0 c).bindCtx m p c else d

/-- LOSS_LIMIT_EXPIRY (R338). -/
def xLossLimitExpiry (p : Nat) : Effect := fun m d =>
  if (d.host p).state == .active then d
  else d.each ((List.range 64).filter (fun c => d.boundTo c p)) (fun d c => d.teardown m c 1)

/-- A write of CTX_CTRL: CMDs above 1 are refused. -/
def Dev.ctxCtrlWrite (d : Dev) (m : Mem) (c : Nat) (v : BitVec 32) : Dev :=
  if 2 ≤ fb v 31 30 then d
  else
    let d := d.putReg (Reg.ctxCtrl c) v
    if fb v 31 30 = 1 then d.teardown m c 0 else d

/-- The window registers of a context return to their reset values (R412), but for counters and CTX_GEN. -/
def Dev.resetWindow (d : Dev) (c : Nat) : Dev :=
  let lo := ctxWindow c
  { d with regs := d.regs.filter (fun r => !(lo ≤ r.1 && r.1 < lo + 0x10000)),
           cairns := d.cairns.filter (fun x => x.1 / 64 != c),
           reqs := d.reqs.map (fun q => (q.1, { q.2 with indAddr := mdel q.2.indAddr c })) }

/-- A context that is FREE, with what a later owner finds of an earlier one's window at reset. -/
def Ctx.freed (x : Ctx) : Ctx :=
  { state := .free, gen := x.gen, tileMask := x.tileMask, hostMask := x.hostMask, initPhase := x.initPhase, phase := x.phase,
    changing := x.changing }

/-- A request of context `c` is outstanding, reserved, or waits to be sent. -/
def Dev.hasTags (d : Dev) (c : Nat) : Bool :=
  d.tags.any (fun t => t.ctx == c) || (List.range 4).any (fun p => (d.host p).waiting.any (fun x => x.2.ctx == c))

/-- QUARANTINE_END (R346, R347). -/
def xQuarantineEnd (c : Nat) : Effect := fun _ d =>
  if (d.ctx c).state != .quarantine || d.hasTags c then d
  else ((d.resetWindow c).setCtx c (d.ctx c).freed).event [] 0x0905 0 c 0 0

/-! Registers (R350). -/

/-- CMD of DEV_HP_CTRL: 1 RETRAIN, 2 DISABLE, 3 ENABLE. -/
def Dev.hostCommand (d : Dev) (p cmd : Nat) : Dev :=
  let x := d.host p
  match cmd with
  | 1 => if x.state == .active then d.hostRetrain p else d
  | 2 =>
    if x.state == .disabled || x.state == .failed then d
    else (if x.state.hasL0 then d.sendCtrl p (hostDownMsg 2) else d).hostDown p .disabled
  | 3 => if x.state == .disabled then d.setHost p { x with state := .down } else d
  | _ => d

/-- A write of DEV_HP_CTRL_p: LOSS_LIMIT is 1 to 3,600. -/
def Dev.hpCtrlWrite (d : Dev) (p : Nat) (v : BitVec 32) : Dev :=
  if fb v 11 0 = 0 || 3600 < fb v 11 0 then d else (d.putReg (Reg.devHpCtrl p) v).hostCommand p (fb v 31 30)

/-- DEV_HP_CTRL_p as it stands with a CMD. -/
def Dev.hpCtrlWith (d : Dev) (p cmd : Nat) : BitVec 32 :=
  BitVec.ofNat 32 (setFld (d.reg (Reg.devHpCtrl p)).toNat 31 30 cmd)

/-- CTX_CTRL as it stands with CMD TEARDOWN. -/
def Dev.teardownCmd (d : Dev) (c : Nat) : BitVec 32 := BitVec.ofNat 32 (setFld (d.reg (Reg.ctxCtrl c)).toNat 31 30 1)

/-! One meaning per command. -/

def execPequaFlitReceive (p : Fin 4) (f : FlitIn) (s : State) : Host.Outcome State Fault Refusal :=
  s.run (xPequaFlitReceive p.val f)
def execPequaFlitSend (p : Fin 4) (s : State) : Host.Outcome State Fault Refusal := s.run (xPequaFlitSend p.val)
def execPequaAckTimeout (p : Fin 4) (s : State) : Host.Outcome State Fault Refusal := s.run (xPequaAckTimeout p.val)
def execPequaParam (p : Fin 4) (hostId : BitVec 64) (cohReq : Bool) (tags : BitVec 16) (s : State) :
    Host.Outcome State Fault Refusal := s.run (xPequaParam p.val hostId cohReq tags.toNat)
def execPequaCreditInit (p : Fin 4) (req snp rsp : BitVec 16) (s : State) : Host.Outcome State Fault Refusal :=
  s.run (xPequaCreditInit p.val req.toNat snp.toNat rsp.toNat)
def execPequaDown (p : Fin 4) (_reason : BitVec 8) (s : State) : Host.Outcome State Fault Refusal := s.run (xPequaDown p.val)
def execPequaPhyTrainDone (p : Fin 4) (lanes : Fin 17) (rate : BitVec 2) (s : State) : Host.Outcome State Fault Refusal :=
  s.run (xPequaPhyTrainDone p.val lanes.val rate)
def execPequaStateTimeout (p : Fin 4) (s : State) : Host.Outcome State Fault Refusal := s.run (xPequaStateTimeout p.val)
def execPequaRetryTimer (p : Fin 4) (s : State) : Host.Outcome State Fault Refusal := s.run (xPequaRetryTimer p.val)
def execPequaLinkLoss (p : Fin 4) (s : State) : Host.Outcome State Fault Refusal := s.run (xPequaLinkLoss p.val)
def execL0Regained (p : Fin 4) (s : State) : Host.Outcome State Fault Refusal := s.run (xL0Regained p.val)
def execDrd (p : Fin 4) (k : HPacket) (s : State) : Host.Outcome State Fault Refusal := s.run (xHostRequest 1 p.val k)
def execDwr (p : Fin 4) (k : HPacket) (s : State) : Host.Outcome State Fault Refusal := s.run (xHostRequest 2 p.val k)
def execDrdS (p : Fin 4) (k : HPacket) (s : State) : Host.Outcome State Fault Refusal := s.run (xHostRequest 3 p.val k)
def execDrdE (p : Fin 4) (k : HPacket) (s : State) : Host.Outcome State Fault Refusal := s.run (xHostRequest 4 p.val k)
def execDevict (p : Fin 4) (k : HPacket) (s : State) : Host.Outcome State Fault Refusal := s.run (xHostRequest 5 p.val k)
def execHsrsp (p : Fin 4) (k : HPacket) (s : State) : Host.Outcome State Fault Refusal := s.run (xHsrsp p.val k)
def execDsnpTimeout (p : Fin 4) (s : State) : Host.Outcome State Fault Refusal := s.run (xDsnpTimeout p.val)
def execLossLimitExpiry (p : Fin 4) (s : State) : Host.Outcome State Fault Refusal := s.run (xLossLimitExpiry p.val)
def execQuarantineEnd (c : Fin 64) (s : State) : Host.Outcome State Fault Refusal := s.run (xQuarantineEnd c.val)

/-- DEV_HP_BIND_WRITE (R337): by a host port. -/
def execDevHpBindWrite (r : Requester) (p : Fin 4) (v : BitVec 32) (s : State) : Host.Outcome State Fault Refusal :=
  s.runReg r (Reg.devHpBind p.val) v (fun _ => !isCtx0 r) (fun m d => (d.bindWrite m p.val (reqIndex r) v, stOK))

/-- CTX_TEARDOWN (R346): through the context's own window, or by context 0. -/
def execCtxTeardown (r : Requester) (c : Fin 64) (s : State) : Host.Outcome State Fault Refusal :=
  s.runReg r (Reg.ctxCtrl c.val) (s.dev.teardownCmd c.val) (fun d => d.mayWriteCtx r c.val)
    (fun m d => (d.ctxCtrlWrite m c.val (d.teardownCmd c.val), stOK))

def execDevHpRetrain (r : Requester) (p : Fin 4) (s : State) : Host.Outcome State Fault Refusal :=
  s.runReg r (Reg.devHpCtrl p.val) (s.dev.hpCtrlWith p.val 1) (fun _ => isCtx0 r)
    (fun _ d => (d.hpCtrlWrite p.val (d.hpCtrlWith p.val 1), stOK))
def execDevHpDisable (r : Requester) (p : Fin 4) (s : State) : Host.Outcome State Fault Refusal :=
  s.runReg r (Reg.devHpCtrl p.val) (s.dev.hpCtrlWith p.val 2) (fun _ => isCtx0 r)
    (fun _ d => (d.hpCtrlWrite p.val (d.hpCtrlWith p.val 2), stOK))
def execDevHpEnable (r : Requester) (p : Fin 4) (s : State) : Host.Outcome State Fault Refusal :=
  s.runReg r (Reg.devHpCtrl p.val) (s.dev.hpCtrlWith p.val 3) (fun _ => isCtx0 r)
    (fun _ d => (d.hpCtrlWrite p.val (d.hpCtrlWith p.val 3), stOK))

end Sys2Proof.Machine
end

