-- ==== Sys2Proof/Machine/Transcend.lean ====
section
/-! DEFINITION. The special functions (R108, Table 4.4) on exact values: EXP2, LOG2, RCP, RSQRT. A result that is not exact is given
to well over the precision of any lane, with its last bit set when anything was dropped, so that one rounding is right. -/

namespace Sys2Proof.Machine

/-- Fractional bits of the fixed-point series (log entry 22). -/
def fixBits : Nat := 256

/-- ln 2 in units of 2^-fixBits: the sum of 1 / (k 2^k). -/
def ln2Sum : Nat → Nat → Nat
  | 0, _ => 0
  | n + 1, k => 2 ^ fixBits / (k * 2 ^ k) + ln2Sum n (k + 1)
def ln2Fixed : Nat := ln2Sum 300 1

/-- Terms of exp: `term` is z^k / k!. -/
def expSum : Nat → Nat → Nat → Nat → Nat
  | 0, _, _, _ => 0
  | n + 1, k, z, term => term + expSum n (k + 1) z (term * z / 2 ^ fixBits / (k + 1))

/-- 2^f for a fraction f in units of 2^-fixBits. -/
def exp2Fixed (f : Nat) : Nat := expSum 80 0 (f * ln2Fixed / 2 ^ fixBits) (2 ^ fixBits)

/-- A fraction num / 2^k cut to fixBits, with whether bits were lost. -/
def toFixed (m : Nat) (e : Int) : Nat :=
  if -(fixBits : Int) ≤ e then m * 2 ^ (e + fixBits).toNat else m / 2 ^ (-e - fixBits).toNat

def exp2Val (v : Val) : Val :=
  match v with
  | .nan => .nan
  | .inf s => if s then .fin false 0 0 else .inf false
  | .fin s m e =>
    if m = 0 then .fin false 1 0
    else if 12 ≤ log2Floor m e then (if s then .fin false 1 (-4096) else .inf false)
    else if 0 ≤ e then .fin false 1 (if s then -(m * 2 ^ e.toNat : Nat) else (m * 2 ^ e.toNat : Nat))
    else
      let k := (-e).toNat
      let whole := m / 2 ^ k
      let part := m % 2 ^ k
      if part = 0 then .fin false 1 (if s then -(whole : Int) else whole)
      else
        let f := toFixed part e
        let i : Int := if s then -(whole : Int) - 1 else whole
        let g := if s then 2 ^ fixBits - f else f
        .fin false (2 * exp2Fixed g + 1) (i - fixBits - 1)

/-- Terms of atanh: `p` is z^(2k+1). -/
def atanhSum : Nat → Nat → Nat → Nat → Nat
  | 0, _, _, _ => 0
  | n + 1, k, z2, p => p / (2 * k + 1) + atanhSum n (k + 1) z2 (p * z2 / 2 ^ fixBits)

/-- log2 s for s = m / 2^b in [1, 2), in units of 2^-fixBits. -/
def log2Fixed (m b : Nat) : Nat :=
  let z := (m - 2 ^ b) * 2 ^ fixBits / (m + 2 ^ b)
  2 * atanhSum 170 0 (z * z / 2 ^ fixBits) z * 2 ^ fixBits / ln2Fixed

def log2Val (v : Val) : Val :=
  match v with
  | .nan => .nan
  | .inf s => if s then .nan else .inf false
  | .fin s m e =>
    if m = 0 then .inf true
    else if s then .nan
    else
      let b := Nat.log2 m
      let i : Int := b + e
      if m = 2 ^ b then .fin (i < 0) i.natAbs 0
      else
        let x : Int := i * 2 ^ fixBits + log2Fixed m b
        .fin (x < 0) (2 * x.natAbs + 1) (-(fixBits : Int) - 1)

def rcpVal (v : Val) : Val :=
  match v with
  | .nan => .nan
  | .inf s => .fin s 0 0
  | .fin s m e =>
    if m = 0 then .inf s
    else
      let n := 2 ^ 96
      .fin s (2 * (n / m) + (if n % m = 0 then 0 else 1)) (-e - 97)

/-- ⌊√n⌋, one bit at a time from bit `k` down. -/
def isqrt (n : Nat) : Nat → Nat → Nat
  | 0, r => r
  | k + 1, r => let q := r + 2 ^ k; isqrt n k (if q * q ≤ n then q else r)

def rsqrtVal (v : Val) : Val :=
  match v with
  | .nan => .nan
  | .inf s => if s then .nan else .fin false 0 0
  | .fin s m e =>
    if m = 0 then .inf s
    else if s then .nan
    else
      let (m, e) := if e % 2 = 0 then (m, e) else (2 * m, e - 1)
      let n := 2 ^ 160
      let r := isqrt (n / m) 81 0
      .fin false (2 * r + (if r * r * m = n then 0 else 1)) (-(e / 2) - 81)

end Sys2Proof.Machine
end

