-- ==== Sys2Proof/Machine/VectorOps.lean ====
section
/-! DEFINITION. The vector engine's operations (chapter 4): lanes, the sequencer's front (R105, R111), arithmetic (R107), row reductions
(R109), the layout of strips (R112) and the keyed generator (R125 to R128). -/

namespace Sys2Proof.Machine

/-! Instruction fields (Table 4.1). -/

def vOp (v : BitVec 64) : Nat := fb v 63 56
def vVd (v : BitVec 64) : Nat := fb v 55 51
def vVa (v : BitVec 64) : Nat := fb v 50 46
def vVb (v : BitVec 64) : Nat := fb v 45 41
def vVc (v : BitVec 64) : Nat := fb v 40 36
def vType (v : BitVec 64) : Nat := fb v 35 34
def vFmt (v : BitVec 64) : Nat := fb v 33 30
def vSr (v : BitVec 64) : Bool := v.getLsbD 29
def vInf (v : BitVec 64) : Bool := v.getLsbD 28
def vKind (v : BitVec 64) : Nat := fb v 27 25
def vScale (v : BitVec 64) : Nat := fb v 24 23
def vAddr (v : BitVec 64) : Nat := fb v 19 0

/-- OP values that Table 4.2 lists. -/
def vOpListed (op : Nat) : Bool :=
  op ≤ 6 || (8 ≤ op && op ≤ 0x13) || (0x18 ≤ op && op ≤ 0x1D) || op == 0x20 || op == 0x21

/-! Lanes. -/

/-- The first `n` words of `w` bits of a number, lowest first. -/
def splitWords (w : Nat) : Nat → Nat → List Nat
  | 0, _ => []
  | n + 1, v => v % 2 ^ w :: splitWords w n (v / 2 ^ w)

def joinWords (w : Nat) : List Nat → Nat
  | [] => 0
  | a :: r => a % 2 ^ w + 2 ^ w * joinWords w r

/-- Lane width and count of a TYPE. -/
def laneWidth (ty : Nat) : Nat := if ty = 1 then 16 else 32
def laneCount (ty : Nat) : Nat := if ty = 1 then 1024 else 512

def Tile.vreg (x : Tile) (r : Nat) : BitVec 16384 := mget 0 x.vregs r
def Tile.lanes (x : Tile) (ty r : Nat) : List Nat := splitWords (laneWidth ty) (laneCount ty) (x.vreg r).toNat
def Tile.setLanes (x : Tile) (ty r : Nat) (l : List Nat) : Tile :=
  { x with vregs := mset x.vregs r (BitVec.ofNat 16384 (joinWords (laneWidth ty) l)) }

/-- The value of a lane. -/
def laneVal (ty c : Nat) : Val :=
  match ty with
  | 0 => fp32.decode c
  | 1 => bf16.decode c
  | _ => Val.ofInt (signed 32 c)

/-- A value placed in a lane: rounded once to TYPE, infinity beyond its range, R474 into INT32 (R106, R107). -/
def toLane (ty : Nat) (v : Val) : Nat :=
  match ty with
  | 0 => (convertF fp32 true false .nearest v).1
  | 1 => (convertF bf16 true false .nearest v).1
  | _ => (convertI true 32 v).1

/-! The sequencer. -/

/-- Scratchpad address of the instruction the vector sequencer takes next. -/
def Dev.vecAddr (d : Dev) (t : Nat) : Option Nat :=
  match (d.tile t).plane with
  | none => none
  | some p =>
    if d.seqMay t p (planeVecLen p) (d.tile t).vecIdx (d.tile t).vecPass then some (planeVecBase p * 32 + 8 * (d.tile t).vecIdx)
    else none

def Dev.vecDue (d : Dev) (m : Mem) (t : Nat) (op : Nat → Bool) : Option (Nat × BitVec 64) :=
  match d.vecAddr t with
  | none => none
  | some a =>
    let v := BitVec.ofNat 64 (peekLE m d (scrBase t + a) 8)
    if op (vOp v) then some (a, v) else none

/-- The sequencer has taken an instruction. -/
def Tile.vecTaken (x : Tile) : Tile :=
  let n := match x.plane with | some p => planeVecLen p | none => 0
  let x := { x with vecWaiting := false }
  if x.vecIdx + 1 < n then { x with vecIdx := x.vecIdx + 1 } else { x with vecIdx := 0, vecPass := x.vecPass + 1 }

/-- An instruction at `a` is rejected (R111). -/
def Dev.vecReject (d : Dev) (m : Mem) (t a : Nat) : Dev := (d.bump (Reg.tileVecReject t)).tileError m t 0x0104 a 0 true

/-- Take the next instruction when it is `op`: rejected with a reserved TYPE or where `ok` fails, else counted and done. -/
def vecFront (op : Nat) (ok : Tile → BitVec 64 → Bool) (x : Mem → Nat → BitVec 64 → Dev → Dev) (t : Nat) : Effect := fun m d =>
  match d.vecDue m t (· == op) with
  | none => d
  | some (a, v) =>
    let good := vType v != 3 && ok (d.tile t) v
    let d := d.setTile t (d.tile t).vecTaken
    if good then x m t v (d.bump (Reg.tileVecInstr t)) else d.vecReject m t a

/-- An instruction that changes only its tile's registers. -/
def vecTile (op : Nat) (ok : Tile → BitVec 64 → Bool) (f : BitVec 64 → Tile → Tile) (t : Nat) : Effect :=
  vecFront op ok (fun _ t v d => d.setTile t (f v (d.tile t))) t

/-! Lane arithmetic (R107). -/

def laneAdd (ty a b : Nat) : Nat := if ty = 2 then (a + b) % 2 ^ 32 else toLane ty (Val.add (laneVal ty a) (laneVal ty b))
def laneSub (ty a b : Nat) : Nat :=
  if ty = 2 then unsigned 32 ((a : Int) - b) else toLane ty (Val.add (laneVal ty a) (Val.neg (laneVal ty b)))
def laneMul (ty a b : Nat) : Nat := if ty = 2 then a * b % 2 ^ 32 else toLane ty (Val.mul (laneVal ty a) (laneVal ty b))
def laneFma (ty a b c : Nat) : Nat :=
  if ty = 2 then (a * b + c) % 2 ^ 32 else toLane ty (Val.add (Val.mul (laneVal ty a) (laneVal ty b)) (laneVal ty c))

/-- A code is a negative zero of its TYPE. -/
def laneNegZero (ty c : Nat) : Bool := ty != 2 && c == 2 ^ (laneWidth ty - 1)

def laneMax (ty a b : Nat) : Nat :=
  let x := laneVal ty a
  let y := laneVal ty b
  if x.isNan || y.isNan then toLane ty .nan else if x.lt y || (!y.lt x && laneNegZero ty a) then b else a

def laneMin (ty a b : Nat) : Nat :=
  let x := laneVal ty a
  let y := laneVal ty b
  if x.isNan || y.isNan then toLane ty .nan else if y.lt x || (!x.lt y && laneNegZero ty b) then b else a

/-- SEL: the selected value, a NaN as the canonical one. -/
def laneSel (ty a b c : Nat) : Nat := toLane ty (laneVal ty (if (laneVal ty c).isZero then b else a))

/-- The value 1 of a TYPE. -/
def laneOne (ty : Nat) : Nat := match ty with | 0 => 0x3F800000 | 1 => 0x3F80 | _ => 1
def laneLt (ty a b : Nat) : Nat := if (laneVal ty a).lt (laneVal ty b) then laneOne ty else 0

/-- A lane-wise operation of two sources. -/
def lane2 (f : Nat → Nat → Nat → Nat) (v : BitVec 64) (x : Tile) : Tile :=
  let ty := vType v
  x.setLanes ty (vVd v) (List.zipWith (f ty) (x.lanes ty (vVa v)) (x.lanes ty (vVb v)))

/-- A lane-wise operation of three sources. -/
def lane3 (f : Nat → Nat → Nat → Nat → Nat) (v : BitVec 64) (x : Tile) : Tile :=
  let ty := vType v
  x.setLanes ty (vVd v) (List.zipWith (fun (p : Nat × Nat) c => f ty p.1 p.2 c)
    ((x.lanes ty (vVa v)).zip (x.lanes ty (vVb v))) (x.lanes ty (vVc v)))

/-- A special function on FP32 or BF16 lanes (R108). -/
def lane1 (f : Val → Val) (v : BitVec 64) (x : Tile) : Tile :=
  let ty := vType v
  x.setLanes ty (vVd v) ((x.lanes ty (vVa v)).map (fun c => toLane ty (f (laneVal ty c))))

/-! Row reductions (R109). -/

/-- Combine neighbours: one level of the tree. -/
def pairUp (f : Nat → Nat → Nat) : List Nat → List Nat
  | a :: b :: r => f a b :: pairUp f r
  | l => l

/-- The balanced tree over a strip of 2^n lanes. -/
def treeFold (f : Nat → Nat → Nat) : Nat → List Nat → Nat
  | 0, l => l.headD 0
  | n + 1, l => treeFold f n (pairUp f l)

/-- Row addition and row maximum, in FP32. -/
def rowOp (mx : Bool) (a b : Nat) : Nat := if mx then laneMax 0 a b else laneAdd 0 a b
def rowIdentity (mx : Bool) : Nat := if mx then 0xFF800000 else 0

/-- Push a strip's value, merging equal levels: earlier elements on the left. -/
def rowPush (mx : Bool) : Nat × Nat → List (Nat × BitVec 32) → List (Nat × BitVec 32)
  | e, [] => [(e.1, BitVec.ofNat 32 e.2)]
  | e, (l, v) :: r =>
    if l = e.1 then rowPush mx (l + 1, rowOp mx v.toNat e.2) r else (e.1, BitVec.ofNat 32 e.2) :: (l, v) :: r

/-- The counted lanes of a register, widened to FP32, identity beyond COUNT. -/
def rowLanes (mx square : Bool) (ty count : Nat) (l : List Nat) : List Nat :=
  l.zipIdx.map (fun p =>
    if p.2 < count then
      let c := toLane 0 (laneVal ty p.1)
      if square then laneMul 0 c c else c
    else rowIdentity mx)

/-- COUNT of a row instruction; 0 means the whole register. -/
def rowCount (v : BitVec 64) : Nat := if vAddr v % 2048 = 0 then laneCount (vType v) else vAddr v % 2048

/-- RSUM, RSSQ and RMAX. -/
def rowEnter (mx square : Bool) (v : BitVec 64) (x : Tile) : Tile :=
  let ty := vType v
  let n := rowCount v
  let l := rowLanes mx square ty n (x.lanes ty (vVa v))
  let strips := if ty = 1 && 512 < n then [l.take 512, l.drop 512] else [l.take 512]
  { x with rowKind := some mx, rowStack := strips.foldl (fun st s => rowPush mx (0, treeFold (rowOp mx) 9 s) st) x.rowStack }

/-- Checks of RSUM, RSSQ and RMAX. -/
def rowOk (mx : Bool) (x : Tile) (v : BitVec 64) : Bool := rowCount v ≤ laneCount (vType v) && x.rowKind != some (!mx)

/-- The row result: the stack folded from the newest entry. -/
def rowResult (mx : Bool) : List (Nat × BitVec 32) → Nat
  | [] => rowIdentity mx
  | (_, v) :: r => r.foldl (fun acc p => rowOp mx p.2.toNat acc) v.toNat

/-! Strips in scratchpad (R112). -/

/-- Lines of a strip, bytes of a line's codes and scales, strides. -/
def stripLines (ty : Nat) : Nat := laneCount ty / 32
def lineBytes (fmt : Nat) : Nat := 32 * codeWidth fmt / 8
def lineScaleBytes (mode : Nat) : Nat := match mode with | 1 => 1 | 2 => 2 | _ => 0
def Tile.codeStride (x : Tile) (fmt : Nat) : Nat := if fb x.layout 31 0 = 0 then lineBytes fmt else fb x.layout 31 0
def Tile.scaleBase (x : Tile) : Nat := fb x.layout 63 44 * 32
def Tile.scaleStride (x : Tile) : Nat := fb x.layout 95 64

/-- LD and ST fields that are not rejected (R111), but for stochastic rounding. -/
def stripOk (x : Tile) (v : BitVec 64) : Bool :=
  let n := stripLines (vType v)
  let f := vFmt v
  f ≤ 0xA && vScale v != 3 && !(vScale v != 0 && !(f == 3 || f == 4 || f == 5)) && !(f == 5 && vScale v == 0)
    && vAddr v * 32 + (n - 1) * x.codeStride f + lineBytes f ≤ scrSize
    && (vScale v == 0 || x.scaleBase + (n - 1) * x.scaleStride + lineScaleBytes (vScale v) ≤ scrSize)

/-- What R128 allows an ST with SR to be. -/
def srOk (v : BitVec 64) : Bool :=
  !vSr v || (vKind v == 0 && ((vFmt v == 3 && vScale v == 1) || (vFmt v == 5 && vScale v == 2)))
    || (vKind v == 4 && vFmt v == 1 && vScale v == 0)

/-- Bytes of a strip: address and length of each line's codes, and of each line's scales. -/
def Tile.codeRanges (x : Tile) (v : BitVec 64) : List (Nat × Nat) :=
  (List.range (stripLines (vType v))).map (fun i => (vAddr v * 32 + i * x.codeStride (vFmt v), lineBytes (vFmt v)))
def Tile.scaleRanges (x : Tile) (v : BitVec 64) : List (Nat × Nat) :=
  if vScale v = 0 then []
  else (List.range (stripLines (vType v))).map (fun i => (x.scaleBase + i * x.scaleStride, lineScaleBytes (vScale v)))

/-- The lanes that LD places (R106, R87, R88). -/
def loadLanes (m : Mem) (d : Dev) (t : Nat) (v : BitVec 64) : List Nat :=
  let x := d.tile t
  let read := fun (r : Nat × Nat) => peekN m d (scrBase t + r.1) r.2
  let lines := (x.codeRanges v).map (fun r => unpackCodes (codeWidth (vFmt v)) (read r))
  let scales := (x.scaleRanges v).map (fun r => (read r).map BitVec.toNat)
  let sg := match intOf (vFmt v) with | some (s, _) => s | none => false
  lines.zipIdx.flatMap (fun p => p.1.zipIdx.map (fun q =>
    toLane (vType v) (underScale (vScale v) (decodeCode (vFmt v) sg q.1)
      ((scales.getD p.2 []).getD (q.2 / scaleSpan (vScale v)) 0))))

/-! The keyed generator (R125 to R127). -/

def rotl (v n : Nat) : Nat := (v * 2 ^ n) % 2 ^ 32 + v / 2 ^ (32 - n)
def add32 (a b : Nat) : Nat := (a + b) % 2 ^ 32

/-- The state x0 to x3 after rounds `r` and later. -/
def genRounds (k : List Nat) : Nat → Nat → List Nat → List Nat
  | 0, _, x => x
  | n + 1, r, x =>
    let x0 := add32 (x.getD 0 0) (x.getD 1 0)
    let x3 := rotl (x.getD 3 0 ^^^ x0) 11
    let x2 := add32 (x.getD 2 0) x3
    let x1 := rotl (x.getD 1 0 ^^^ x2) 19
    let x0 := add32 x0 x1
    let x3 := rotl (x3 ^^^ x0) 6
    let x2 := add32 x2 x3
    let x1 := rotl (x1 ^^^ x2) 23
    genRounds k n (r + 1)
      [add32 x0 (k.getD (r % 3) 0), add32 x1 (k.getD ((r + 1) % 3) 0), add32 x2 (k.getD ((r + 2) % 3) 0), add32 x3 (r + 1)]

/-- u for a canonical index (R126). -/
def genU (seed step tensor stream index : Nat) : Nat :=
  let k0 := seed % 2 ^ 32
  let k1 := seed / 2 ^ 32 % 2 ^ 32
  let b := index / 8
  let x := genRounds [k0, k1, k0 ^^^ k1 ^^^ 0xA5C31E67] 10 0 [b % 2 ^ 32, stream * 2 ^ 30 + b / 2 ^ 32 % 2 ^ 13, tensor, step]
  let j := index % 8
  let w := x.getD (j / 2) 0
  if j % 2 = 0 then w % 65536 else w / 65536

/-- The canonical index of a lane (R127), 48 bits. -/
def laneIndex (key : BitVec 128) (l : Nat) : Nat :=
  let b := fb key 79 32
  let s := fb key 111 80
  (if key.getLsbD 112 then b + l % 32 * s + l / 32 else b + l / 32 * s + l % 32) % 2 ^ 48

/-- SEED and STEP of the generator for a tile: those an update item gave it, else its context's (R125, R384). -/
def Dev.genKey (d : Dev) (t : Nat) : Nat × Nat :=
  match (d.tile t).updKey with
  | some (s, n) => (s.toNat, n.toNat)
  | none => match d.ownerOf t with
    | some c => (d.reg64 (Reg.ctxRngSeedActLo c), (d.reg (Reg.ctxUpdStep c)).toNat)
    | none => (0, 0)

/-- The rounding of each lane of an ST. -/
def Dev.stRounding (d : Dev) (t : Nat) (v : BitVec 64) : Nat → Rounding :=
  if vSr v then
    let k := d.genKey t
    let key := (d.tile t).key
    fun l => .stochastic (genU k.1 k.2 (fb key 31 0) (if vKind v = 4 then 1 else 0) (laneIndex key l))
  else fun _ => .nearest

/-- What an ST writes, line by line: codes, scale bytes, events (R89 to R97, R474). -/
def stLine (v : BitVec 64) (r : Nat → Rounding) (line : List Val) (first : Nat) : Drained :=
  if vScale v = 0 then
    let e := line.zipIdx.map (fun p => convertTo (vFmt v) (vInf v) false (r (first + p.2)) p.1)
    { codes := e.map (·.1), scales := [], events := e.map (·.2) }
  else
    let b := scaleSpan (vScale v)
    let e := (chunk b (32 / b) line).zipIdx.map (fun p => forge (vFmt v) (fun i => r (first + p.2 * b + i)) p.1)
    { codes := e.flatMap (fun p => p.2.map (·.1)), scales := e.map (fun p => BitVec.ofNat 8 p.1),
      events := e.flatMap (fun p => p.2.map (·.2)) }

def Dev.stLines (d : Dev) (t : Nat) (v : BitVec 64) : List Drained :=
  let x := d.tile t
  let vals := (x.lanes (vType v) (vVa v)).map (laneVal (vType v))
  let r := d.stRounding t v
  (chunk 32 (stripLines (vType v)) vals).zipIdx.map (fun p => stLine v r p.1 (32 * p.2))

/-- An ST counts its elements unless FMT is FP32 or the format of its lanes (R130). -/
def stCounts (v : BitVec 64) : Bool :=
  !(vFmt v == 0 || (vType v == 1 && vFmt v == 1) || (vType v == 2 && vFmt v == 0xA))

/-- Write pieces of bytes into a tile's scratchpad on behalf of the tile's current work, and the first error met. -/
def Dev.storeAll (d : Dev) (m : Mem) (t : Nat) (l : List (Nat × List Byte)) : Dev × Option (Nat × Nat) :=
  l.foldl (fun (y : Dev × Option (Nat × Nat)) p =>
    let (e, err) := y.1.store m (scrBase t + p.1) p.2
    (e.wakeMover (scrBase t + p.1) p.2.length, match y.2 with | some e => some e | none => err)) (d, none)

end Sys2Proof.Machine
end

