-- ==== Sys2Proof/Machine/Vector.lean ====
section
/-! DEFINITION. The vector instructions (Table 4.2) and the acknowledgement of share records (R132). -/

namespace Sys2Proof.Machine

def vecAny (_ : Tile) (_ : BitVec 64) : Bool := true

/-- VEC_NOP. A reserved OP is rejected in its turn (R111, log entry 11). -/
def xVecNop (t : Nat) : Effect := fun m d =>
  match d.vecDue m t (fun op => op == 0 || !vOpListed op) with
  | none => d
  | some (a, v) =>
    let d := d.setTile t (d.tile t).vecTaken
    if vOp v = 0 && vType v != 3 then d.bump (Reg.tileVecInstr t) else d.vecReject m t a

/-- VEC_LD (R106): an uncorrectable word ends the tile's work, and VD keeps its value (R186). -/
def xVecLd (t : Nat) (e : WordErrors) : Effect :=
  vecFront 1 stripOk (fun m t v d =>
    let x := d.tile t
    let (d, bad) := d.scrRead m t (x.codeRanges v ++ x.scaleRanges v) e
    match bad with
    | some w => d.tileError m t 0x0303 (8 * w) 0 false
    | none => d.setTile t ((d.tile t).setLanes (vType v) (vVd v) (loadLanes m d t v))) t

/-- VEC_ST (R106): converted, counted, written. -/
def xVecSt (t : Nat) : Effect :=
  vecFront 2 (fun x v => stripOk x v && srOk v) (fun m t v d =>
    let x := d.tile t
    let lines := d.stLines t v
    let codes := ((x.codeRanges v).zip lines).map (fun p => (p.1.1, packCodes (codeWidth (vFmt v)) p.2.codes))
    let scales := ((x.scaleRanges v).zip lines).map (fun p => (p.1.1, p.2.scales))
    let d := if stCounts v then d.countShare t (vFmt v) (vKind v) (lines.flatMap (·.events)) else d
    let (d, err) := d.storeAll m t (codes ++ scales)
    match err with
    | some p => d.tileError m t p.1 p.2 0 false
    | none => d) t

/-- Load 16 bytes at ADDR into a descriptor register. -/
def vecDescriptor (op : Nat) (f : Tile → BitVec 128 → Tile) (t : Nat) : Effect :=
  vecFront op (fun _ v => vAddr v * 32 + 16 ≤ scrSize) (fun m t v d =>
    let (d, bad) := d.scrRead m t [(vAddr v * 32, 16)] ⟨[], []⟩
    match bad with
    | some w => d.tileError m t 0x0303 (8 * w) 0 false
    | none => d.setTile t (f (d.tile t) (BitVec.ofNat 128 (peekLE m d (scrBase t + vAddr v * 32) 16)))) t

/-- VEC_LAYOUT (R112) and VEC_KEY (R127). -/
def xVecLayout (t : Nat) : Effect := vecDescriptor 3 (fun x v => { x with layout := v }) t
def xVecKey (t : Nat) : Effect := vecDescriptor 4 (fun x v => { x with key := v }) t

/-- VEC_SIG: every earlier ST has completed, since each completes within its own command. -/
def xVecSig (t : Nat) : Effect := vecFront 5 vecAny (fun _ t v d => d.setSem t (vAddr v % 16) (4 * t + 1)) t

/-- VEC_WAIT: held until the semaphore is set. -/
def xVecWait (t : Nat) : Effect := fun m d =>
  match d.vecDue m t (· == 6) with
  | none => d
  | some (a, v) =>
    let x := d.tile t
    if vType v = 3 then (d.setTile t x.vecTaken).vecReject m t a
    else if x.sem (vAddr v % 16) then ((d.setTile t x.vecTaken).clearSem t (vAddr v % 16)).bump (Reg.tileVecInstr t)
    else d.setTile t { x with vecWaiting := true }

def xVecAdd (t : Nat) : Effect := vecTile 0x08 vecAny (lane2 laneAdd) t
def xVecSub (t : Nat) : Effect := vecTile 0x09 vecAny (lane2 laneSub) t
def xVecMul (t : Nat) : Effect := vecTile 0x0A vecAny (lane2 laneMul) t
def xVecFma (t : Nat) : Effect := vecTile 0x0B vecAny (lane3 laneFma) t
def xVecMax (t : Nat) : Effect := vecTile 0x0C vecAny (lane2 laneMax) t
def xVecMin (t : Nat) : Effect := vecTile 0x0D vecAny (lane2 laneMin) t
def xVecSel (t : Nat) : Effect := vecTile 0x0E vecAny (lane3 laneSel) t
def xVecCmplt (t : Nat) : Effect := vecTile 0x0F vecAny (lane2 laneLt) t

/-- A special function: FP32 or BF16 lanes only; its strip is counted. -/
def vecSpecial (op : Nat) (f : Val → Val) (t : Nat) : Effect :=
  vecFront op (fun _ v => vType v != 2) (fun _ t v d => (d.setTile t (lane1 f v (d.tile t))).bump (Reg.tileSfuResults t)) t

def xVecExp2 (t : Nat) : Effect := vecSpecial 0x10 exp2Val t
def xVecLog2 (t : Nat) : Effect := vecSpecial 0x11 log2Val t
def xVecRcp (t : Nat) : Effect := vecSpecial 0x12 rcpVal t
def xVecRsqrt (t : Nat) : Effect := vecSpecial 0x13 rsqrtVal t

def xVecRsum (t : Nat) : Effect := vecTile 0x18 (rowOk false) (rowEnter false false) t
def xVecRssq (t : Nat) : Effect := vecTile 0x19 (rowOk false) (rowEnter false true) t
def xVecRmax (t : Nat) : Effect := vecTile 0x1A (rowOk true) (rowEnter true false) t

/-- VEC_RFIN (R109): ADDR[0] names the kind. -/
def xVecRfin (t : Nat) : Effect :=
  vecTile 0x1B (fun x v => x.rowKind != some (vAddr v % 2 == 0)) (fun v x =>
    let r := rowResult (vAddr v % 2 == 1) x.rowStack
    let c := toLane (vType v) (fp32.decode r)
    { x.setLanes (vType v) (vVd v) (List.replicate (laneCount (vType v)) c) with rowStack := [], rowKind := none }) t

/-- VEC_BCAST (R107). -/
def xVecBcast (t : Nat) : Effect :=
  vecFront 0x1C (fun _ v => vAddr v * 32 + 4 ≤ scrSize) (fun m t v d =>
    let (d, bad) := d.scrRead m t [(vAddr v * 32, 4)] ⟨[], []⟩
    match bad with
    | some w => d.tileError m t 0x0303 (8 * w) 0 false
    | none =>
      let w := peekLE m d (scrBase t + vAddr v * 32) 4
      let c := if vType v = 1 then toLane 1 (fp32.decode w) else w
      d.setTile t ((d.tile t).setLanes (vType v) (vVd v) (List.replicate (laneCount (vType v)) c))) t

/-- Element (a, b) of the 32 x 32 pair starting at register `r`, as 32-bit lanes. -/
def pairLanes (x : Tile) (r : Nat) : List Nat := x.lanes 0 r ++ x.lanes 0 (r + 1)

/-- The transpose of a 32 x 32 list. -/
def transpose32 (l : List Nat) : List Nat :=
  let rows := chunk 32 32 l
  (List.range 32).flatMap (fun a => rows.map (fun r => r.getD a 0))

/-- VEC_TPOSE (R112). -/
def xVecTpose (t : Nat) : Effect :=
  vecTile 0x1D (fun _ v => vVd v % 2 == 0 && vVa v != 31) (fun v x =>
    let l := transpose32 (pairLanes x (vVa v))
    (x.setLanes 0 (vVd v) (l.take 512)).setLanes 0 (vVd v + 1) (l.drop 512)) t

/-- VEC_GORD (R121): held until the order word equals MB_ID. -/
def xVecGord (t : Nat) : Effect := fun m d =>
  match d.vecDue m t (· == 0x20) with
  | none => d
  | some (a, v) =>
    if vType v = 3 || scrSize < vAddr v * 32 + 2 then (d.setTile t (d.tile t).vecTaken).vecReject m t a
    else
      let (d, bad) := d.scrRead m t [(vAddr v * 32, 2)] ⟨[], []⟩
      match bad with
      | some w => d.tileError m t 0x0303 (8 * w) 0 false
      | none =>
        let x := d.tile t
        if peekLE m d (scrBase t + vAddr v * 32) 2 = x.mbId.toNat then (d.setTile t x.vecTaken).bump (Reg.tileVecInstr t)
        else (d.setTile t { x with vecWaiting := true }).bump (Reg.tileVecOrderWait t)

/-- VEC_GADV (R121). -/
def xVecGadv (t : Nat) : Effect :=
  vecFront 0x21 (fun _ v => vAddr v * 32 + 2 ≤ scrSize) (fun m t v d =>
    let x := d.tile t
    let d := d.setTile t { x with gadvUnit := mset x.gadvUnit (vAddr v * 32) (4 * t + 1) }
    let (d, err) := d.storeAll m t [(vAddr v * 32, toLE 2 ((x.mbId.toNat + 1) % 65536))]
    match err with
    | some p => d.tileError m t p.1 p.2 0 false
    | none => d) t

/-- A write of CTX_SHARE_CONS (R132): ignored when it would move CONS past PROD. -/
def Dev.shareCons (d : Dev) (c : Nat) (v : BitVec 32) : Dev :=
  let prod := d.rf (Reg.ctxShareProd c) 15 0
  let cons := d.rf (Reg.ctxShareCons c) 15 0
  if (prod + 65536 - cons) % 65536 < (v.toNat % 65536 + 65536 - cons) % 65536 then d else d.putReg (Reg.ctxShareCons c) v

/-! One meaning per command. -/

def execVecNop (t : Fin 64) (s : State) : Host.Outcome State Fault Refusal := s.run (xVecNop t.val)
def execVecLd (t : Fin 64) (e : WordErrors) (s : State) : Host.Outcome State Fault Refusal := s.run (xVecLd t.val e)
def execVecSt (t : Fin 64) (s : State) : Host.Outcome State Fault Refusal := s.run (xVecSt t.val)
def execVecLayout (t : Fin 64) (s : State) : Host.Outcome State Fault Refusal := s.run (xVecLayout t.val)
def execVecKey (t : Fin 64) (s : State) : Host.Outcome State Fault Refusal := s.run (xVecKey t.val)
def execVecSig (t : Fin 64) (s : State) : Host.Outcome State Fault Refusal := s.run (xVecSig t.val)
def execVecWait (t : Fin 64) (s : State) : Host.Outcome State Fault Refusal := s.run (xVecWait t.val)
def execVecAdd (t : Fin 64) (s : State) : Host.Outcome State Fault Refusal := s.run (xVecAdd t.val)
def execVecSub (t : Fin 64) (s : State) : Host.Outcome State Fault Refusal := s.run (xVecSub t.val)
def execVecMul (t : Fin 64) (s : State) : Host.Outcome State Fault Refusal := s.run (xVecMul t.val)
def execVecFma (t : Fin 64) (s : State) : Host.Outcome State Fault Refusal := s.run (xVecFma t.val)
def execVecMax (t : Fin 64) (s : State) : Host.Outcome State Fault Refusal := s.run (xVecMax t.val)
def execVecMin (t : Fin 64) (s : State) : Host.Outcome State Fault Refusal := s.run (xVecMin t.val)
def execVecSel (t : Fin 64) (s : State) : Host.Outcome State Fault Refusal := s.run (xVecSel t.val)
def execVecCmplt (t : Fin 64) (s : State) : Host.Outcome State Fault Refusal := s.run (xVecCmplt t.val)
def execVecExp2 (t : Fin 64) (s : State) : Host.Outcome State Fault Refusal := s.run (xVecExp2 t.val)
def execVecLog2 (t : Fin 64) (s : State) : Host.Outcome State Fault Refusal := s.run (xVecLog2 t.val)
def execVecRcp (t : Fin 64) (s : State) : Host.Outcome State Fault Refusal := s.run (xVecRcp t.val)
def execVecRsqrt (t : Fin 64) (s : State) : Host.Outcome State Fault Refusal := s.run (xVecRsqrt t.val)
def execVecRsum (t : Fin 64) (s : State) : Host.Outcome State Fault Refusal := s.run (xVecRsum t.val)
def execVecRssq (t : Fin 64) (s : State) : Host.Outcome State Fault Refusal := s.run (xVecRssq t.val)
def execVecRmax (t : Fin 64) (s : State) : Host.Outcome State Fault Refusal := s.run (xVecRmax t.val)
def execVecRfin (t : Fin 64) (s : State) : Host.Outcome State Fault Refusal := s.run (xVecRfin t.val)
def execVecBcast (t : Fin 64) (s : State) : Host.Outcome State Fault Refusal := s.run (xVecBcast t.val)
def execVecTpose (t : Fin 64) (s : State) : Host.Outcome State Fault Refusal := s.run (xVecTpose t.val)
def execVecGord (t : Fin 64) (s : State) : Host.Outcome State Fault Refusal := s.run (xVecGord t.val)
def execVecGadv (t : Fin 64) (s : State) : Host.Outcome State Fault Refusal := s.run (xVecGadv t.val)

/-- CTX_SHARE_CONS_WRITE (R132). -/
def execCtxShareConsWrite (r : Requester) (c : Fin 64) (v : BitVec 32) (s : State) : Host.Outcome State Fault Refusal :=
  s.runReg r (Reg.ctxShareCons c.val) v (fun d => d.mayWriteCtx r c.val) (fun _ d => (d.shareCons c.val v, stOK))

end Sys2Proof.Machine
end

