-- ==== Sys2Proof/Machine/Ras.lean ====
section
/-! DEFINITION. Buckets and their settings, the risk score (R353 to R362), the wait-graph monitor (R363 to R368), and the commands
that start context and compute resets (R374). -/

namespace Sys2Proof.Machine

/-! Leaky buckets. -/

/-- BUCKET_LEAK (R353): a LEAK interval of lt has passed since the last leak, or since the event that raised the bucket from 0. -/
def xBucketLeak (cls unit : Nat) : Effect := fun _ d =>
  let k := bucketKey cls unit
  match mfind d.ras.buckets k with
  | none => d
  | some b =>
    let since := (d.lode.count - b.clock).toNat
    if d.lbLeak cls ≤ since && since < 2 ^ 63 then
      let b' : Bucket := { b with level := b.level - 1, clock := b.clock + BitVec.ofNat 64 (d.lbLeak cls) }
      let bs := if b.level ≤ 1 then mdel d.ras.buckets k else mset d.ras.buckets k b'
      { d with ras := { d.ras with buckets := bs } }
    else d

/-- A write of RAS_LB_CFG_k: N is 1 to 255, W at least N. -/
def Dev.lbCfgWrite (d : Dev) (cls : Nat) (v : BitVec 32) : Dev :=
  if fb v 31 24 = 0 || fb v 23 0 < fb v 31 24 then d else d.putReg (Reg.rasLbCfg cls) v

/-! The risk score (Table 12.5). -/

/-- Counts of a list that lie within the last 4,194,304 lt. -/
def Dev.recent (d : Dev) (l : List (BitVec 64)) : List (BitVec 64) := l.filter (fun t => (d.lode.count - t).toNat ≤ 4194304)

/-- Directions of fabric ports in use and of die-to-die modules in service that have no spare (log entry 68). -/
def Dev.noSpare (d : Dev) : Nat :=
  let lanes := fun (service use : BitVec 18) => if (lanesOf service).all use.getLsbD then 1 else 0
  let ports := (List.range 8).map (fun p =>
    let x := d.port p
    if x.state.carries then lanes x.rxService x.rxUse + lanes x.txService x.txUse else 0)
  let mods := d.modules.map (fun (m : Nat × D2dModule) =>
    if m.2.inService then (if 4 ≤ m.2.repairsUp then 1 else 0) + (if 4 ≤ m.2.repairsDown then 1 else 0) else 0)
  ports.sum + mods.sum

/-- Degrees by which the hottest sensor exceeds its warning temperature (Table 16.7). -/
def Dev.overWarning (d : Dev) : Nat :=
  match d.pwr.temps with
  | none => 0
  | some t =>
    let above := fun (w : Nat) (l : List (BitVec 8)) => (l.map (fun x => x.toNat - w)).foldl max 0
    max (above 95 t.compute.toList) (max (above 90 t.io.toList) (above 85 t.hbm.toList))

/-- S (R360). -/
def Dev.riskScore (d : Dev) : Nat :=
  let c := 4 * (d.ras.buckets.filter (fun (b : Nat × Bucket) => ceilDiv (d.lbN (b.1 / 2 ^ 32)) 2 ≤ b.2.level)).length
  let f := 16 * (d.recent d.ras.lasting).length
  let l := 16 * (d.recent d.ras.linkEvents).length
  min 255 (min 64 c + min 64 f + min 64 l + min 64 (16 * d.noSpare) + min 128 (8 * d.overWarning))

/-- "Secure now" (R361): recorded, counted and signalled; during a compute reset or full recovery it is signalled at the end
(Table 12.14). -/
def Dev.issueSecureNow (d : Dev) (m : Mem) : Dev :=
  let d := (d.event [] 0x0B03 2 d.ras.score 0 0).bump Reg.rasSecureNow
  if d.ras.resets.any (fun r => r.scope != 1) then { d with ras := { d.ras with secureDue := true } } else d.secureAll m

/-- HEALTH_SCORE (R360, R361). -/
def xHealthScore : Effect := fun m d =>
  let old := d.ras.score
  let s := d.riskScore
  let at_ := d.rf Reg.rasHealthCtrl 31 24
  let crit := d.rf Reg.rasHealthCtrl 23 16
  let hyst := d.rf Reg.rasHealthCtrl 15 8
  let fires := d.ras.armed && at_ ≤ s
  let critical := crit ≤ s && old < crit
  let d := { d with ras := { d.ras with
    score := s, critical := crit ≤ s,
    armed := if fires then false else d.ras.armed || s < at_ - hyst,
    lasting := d.recent d.ras.lasting, linkEvents := d.recent d.ras.linkEvents } }
  let d := { d with ctxs := d.ctxs.map (fun (c : Nat × Ctx) =>
    match c.2.window with
    | some (e, peak, n) => (c.1, { c.2 with window := some (e, max peak s, n) })
    | none => c) }
  let d := if critical then d.event [] 0x0B04 3 s 0 0 else d
  if fires || critical then d.issueSecureNow m else d

/-- Lasting faults of every class since cold start. -/
def Dev.lastingTotal (d : Dev) : Nat := ((List.range 7).map (fun k => (d.count (Reg.rasLasting k)).toNat)).sum

/-- End a HEALTH_WINDOW with its record (R362). -/
def Dev.windowEnds (d : Dev) (c : Nat) : Dev :=
  match (d.ctx c).window with
  | none => d
  | some (_, peak, n) =>
    (d.setCtx c { d.ctx c with window := none }).event [c] 0x0B05 0 peak (d.lastingTotal - n) 0

/-- HEALTH_WINDOW_END (R362): N + ARG has come. -/
def xHealthWindowEnd (c : Nat) : Effect := fun _ d =>
  match (d.ctx c).window with
  | some (e, _, _) => if e.toNat ≤ d.now then d.windowEnds c else d
  | none => d

/-- A write of RAS_HEALTH_CTRL. -/
def Dev.healthCtrlWrite (d : Dev) (m : Mem) (v : BitVec 32) : Dev :=
  if fb v 31 24 = 0 || fb v 23 16 < fb v 31 24 || fb v 31 24 ≤ fb v 15 8 || 2 ≤ fb v 1 0 then d
  else
    let d := d.putReg Reg.rasHealthCtrl v
    if fb v 1 0 = 1 then d.issueSecureNow m else d

/-! The wait graph. -/

/-- A target word without its serial: KIND, NODE, UNIT (Table 12.7). -/
structure WaitOn where
  kind : Nat
  node : Nat := 0
  unit : Nat := 0
  ident : Nat := 0
deriving DecidableEq, Repr

def noWait : WaitOn := { kind := 0 }

/-- The unit an OFFSET selects at its node (R220): the HBM controller of its quarter, or the tile's vector sequencer (log entry
68). -/
def offsetUnit (off : Nat) : Nat := if isHbm off then 0x118 + off / 2 ^ 38 else 4 * ((off - 0x010000000000) / 0x2000000) + 1

/-- A wait on an outstanding fabric request. -/
def tagWait (t : Tag) : WaitOn :=
  { kind := 2, node := gNode t.addr.toNat, unit := offsetUnit (gOffset t.addr.toNat) % 512, ident := t.tag }

/-- The lead tile of the stage unit a tile serves, if any. -/
def Dev.unitLead (d : Dev) (t : Nat) : Nat :=
  match d.ownerOf t with
  | some c => (match (d.ctx c).unitOf t with
    | some (v, u) => leadTile ((d.ctx c).unitMask v u)
    | none => t)
  | none => t

/-- What a vector sequencer waits for (R364): the setter of the semaphore of its WAIT, or the last GADV of its order word. -/
def Dev.vecWaitOn (m : Mem) (d : Dev) (t : Nat) : WaitOn :=
  let x := d.tile t
  if !x.vecWaiting then noWait
  else match d.vecAddr t with
    | none => noWait
    | some a =>
      let v := BitVec.ofNat 64 (peekLE m d (scrBase t + a) 8)
      let n := (d.count (Reg.tileVecInstr t)).toNat
      if vOp v = 6 then
        let s := vAddr v % 16
        if s = 14 then { kind := 1, unit := 0x108, ident := n }
        else if s = 15 then { kind := 1, unit := 4 * d.unitLead t + 1, ident := n }
        else match mfind x.semSetter s with
          | some u => { kind := 1, unit := u, ident := n }
          | none => { kind := 5, ident := n }
      else match mfind x.gadvUnit (vAddr v * 32) with
        | some u => { kind := 1, unit := u, ident := n }
        | none => { kind := 5, ident := n }

/-- What a mover waits for: the first fabric request of its oldest entry in flight. -/
def Dev.moverWaitOn (d : Dev) (t : Nat) : WaitOn :=
  match d.tags.find? (fun g => g.purpose == .mover && g.a == t && !g.reserved) with
  | some g => tagWait g
  | none => noWait

/-- What the stage controller waits for: an outstanding request of a pipeline, else the first unit that runs an item. -/
def Dev.controllerWaitOn (d : Dev) : WaitOn :=
  let ask := fun (t : Tag) => !t.reserved && (t.purpose == .gatherLedger || t.purpose == .gatherData || t.purpose == .gatherRecheck
    || t.purpose == .delivery)
  match d.tags.find? ask with
  | some t => tagWait t
  | none =>
    let items := d.ctxs.flatMap (fun (c : Nat × Ctx) => c.2.pipe.stages.flatMap (fun (s : Nat × Stage) =>
      [(s.2.fwdItem, 0), (s.2.bwdItem, 1), (s.2.updItem, 2)].filterMap (fun p =>
        match p.1 with
        | some i => if i.started then some (leadTile (c.2.unitMask s.1 p.2), i.slot) else none
        | none => none)))
    match items.head? with
    | some (t, n) => { kind := 1, unit := 4 * t + 1, ident := n }
    | none => noWait

/-- What a Pequa port waits for: host data, or the rest of a packet (R348). -/
def Dev.hostWaitOn (d : Dev) (p : Nat) : WaitOn :=
  match d.tags.find? (fun t => t.port == p && !t.reserved && (t.purpose == .runInput || t.purpose == .copyRead || t.purpose == .runLine)) with
  | some t => { kind := 3, unit := 0x10C + p, ident := t.tag }
  | none => if (d.host p).rxUnits.isEmpty then noWait else { kind := 3, unit := 0x10C + p }

/-- What unit `u` of Table 12.6 waits for. A unit whose context is being reset waits for nothing (Table 12.14). -/
def Dev.waitOn (m : Mem) (d : Dev) (u : Nat) : WaitOn :=
  if u < 0x100 then
    let t := u / 4
    let resetting := match d.ownerOf t with | some c => d.resetting c | none => d.resetting 64
    if resetting || d.lost (dieOf t) || (d.tile t).state == .retired then noWait
    else if u % 4 = 1 then d.vecWaitOn m t
    else if u % 4 = 2 then d.moverWaitOn t
    else noWait
  else if u < 0x104 then (if d.openings.any (fun o => !o.ended) then { kind := 4 } else noWait)
  else if u = 0x108 then d.controllerWaitOn
  else if 0x10C ≤ u && u < 0x110 then d.hostWaitOn (u - 0x10C)
  else noWait

/-- A target word (Table 12.7). -/
def waitWord (w : WaitOn) (serial : Nat) : BitVec 64 :=
  BitVec.ofNat 64 (w.kind * 2 ^ 61 + serial % 2 ^ 16 * 2 ^ 32 + w.node * 2 ^ 9 + w.unit)

def wKind (v : BitVec 64) : Nat := fb v 63 61
def wSerial (v : BitVec 64) : Nat := fb v 47 32
def wNode (v : BitVec 64) : Nat := fb v 31 9
def wUnit (v : BitVec 64) : Nat := fb v 8 0

def waitUnits : Nat := 0x11C

/-- The next sample of a unit: SERIAL advances with each new wait. -/
def UnitWait.next (x : UnitWait) (w : WaitOn) : UnitWait :=
  if w.kind = 0 then { word := waitWord noWait (wSerial x.word), same := 0, ident := w.ident }
  else if x.ident == w.ident && waitWord w (wSerial x.word) == x.word then { x with same := x.same + 1 }
  else { word := waitWord w (wSerial x.word + 1), same := 1, ident := w.ident }

def Dev.unitWait (d : Dev) (u : Nat) : UnitWait := mget {} d.ras.waits u

/-- The chain from a unit through LOCAL targets (R365): the units passed, in order, and the unit at which it closes on itself. -/
def chainFrom (f : Nat → BitVec 64) : Nat → List Nat → Nat → List Nat × Option Nat
  | 0, seen, _ => (seen, none)
  | n + 1, seen, u =>
    if seen.contains u then (seen, some u)
    else if wKind (f u) = 1 then chainFrom f n (seen ++ [u]) (wUnit (f u))
    else (seen ++ [u], none)

def Dev.chain (d : Dev) (u : Nat) : List Nat × Option Nat := chainFrom (fun u => (d.unitWait u).word) (waitUnits + 1) [] u

/-- The local cycle a unit is the lowest of, if any. -/
def Dev.cycleAt (d : Dev) (u : Nat) : Option (List Nat) :=
  match d.chain u with
  | (l, some v) => if v = u && l.all (fun x => u ≤ x) then some l else none
  | _ => none

/-- How long every unit of a list has stood. -/
def Dev.stood (d : Dev) (l : List Nat) : Nat := (l.map (fun u => (d.unitWait u).same)).foldl min (10 ^ 9)

/-- The contexts that own tile units of a list. -/
def Dev.unitOwners (d : Dev) (l : List Nat) : List Nat := ((l.filter (· < 0x100)).filterMap (fun u => d.ownerOf (u / 4))).dedup

/-- UNIT of a record about unit `u`: its tile. -/
def tileOfUnit (u : Nat) : Nat := if u < 0x100 then u / 4 else 0

/-- Act on a hang as RAS_HANG_CTRL.ACTION directs (R366); a cycle that belongs to no context is only reported. -/
def Dev.hangAction (d : Dev) (m : Mem) (l : List Nat) : Dev :=
  let cs := d.unitOwners l
  match d.rf Reg.rasHangCtrl 31 30 with
  | 1 => d.each cs (fun d c => d.contextReset m c)
  | 2 => if cs.isEmpty then d else d.computeRequest m
  | _ => d

/-- HANG (R366). -/
def Dev.reportHang (d : Dev) (m : Mem) (u : Nat) (l : List Nat) : Dev :=
  let d := { d with ras := { d.ras with localCycle := some u } }
  let d := (d.event (d.unitOwners l) 0x0B06 3 (d.unitWait u).word.toNat l.length (tileOfUnit u)).bump Reg.rasHangs
  d.hangAction m l

/-- WPROBE data (Table 12.8). -/
def probeData (node unit serial id path kind target : Nat) : List Byte :=
  toLE 4 node ++ toLE 2 unit ++ toLE 2 serial ++ toLE 2 id ++ [BitVec.ofNat 8 path] ++ [BitVec.ofNat 8 kind] ++ toLE 2 target
    ++ toLE 18 0

def Dev.sendProbe (d : Dev) (dst : Nat) (data : List Byte) : Dev :=
  d.fabRequest (d.makePacket opWPROBE dst 0 0 0 data) (newTag .probe 0 0 0 (dst * 2 ^ 41))

/-- The REMOTE edge at which the chain of unit `u` ends, once the whole chain has stood for 8 samples: node and unit. -/
def Dev.remoteEnd (d : Dev) (u : Nat) : Option (Nat × Nat) :=
  match d.chain u with
  | (l, none) =>
    let w := (d.unitWait (l.getLastD u)).word
    if wKind w = 2 && 8 ≤ d.stood l then some (wNode w, wUnit w) else none
  | _ => none

/-- Send a probe along the chain of unit `u` (R368). -/
def Dev.probeFrom (d : Dev) (u : Nat) : Dev :=
  match d.remoteEnd u with
  | none => d
  | some (n, t) =>
    let id := d.ras.probeId
    let d := { d with ras := { d.ras with probeId := id + 1, waits := mset d.ras.waits u { d.unitWait u with probed := true } } }
    d.sendProbe n (probeData d.node u (wSerial (d.unitWait u).word) id.toNat 0 0 t)

/-- STALL (R367): the chain ends at UNKNOWN, or at a unit that does not wait, and has stood for STALL_LIMIT ms of samples. -/
def Dev.stallCheck (d : Dev) (u : Nat) : Dev :=
  let x := d.unitWait u
  if x.stalled || wKind x.word = 0 || x.same < 1000 * d.rf Reg.rasHangCtrl 11 0 then d
  else match d.chain u with
    | (l, none) =>
      let k := wKind (d.unitWait (l.getLastD u)).word
      if k = 5 || k = 0 then
        let d := { d with ras := { d.ras with waits := mset d.ras.waits u { x with stalled := true } } }
        (d.event (d.unitOwners [u]) 0x0B08 1 x.word.toNat u (tileOfUnit u)).bump Reg.rasStalls
      else d
    | _ => d

/-- WAIT_GRAPH_SAMPLE (R363 to R368). -/
def xWaitGraphSample : Effect := fun m d =>
  if d.lost 4 then d
  else
    let d := { d with ras := { d.ras with waits := (List.range waitUnits).map (fun u => (u, (d.unitWait u).next (d.waitOn m u))) } }
    let cycles := (List.range waitUnits).filterMap (fun u => (d.cycleAt u).map (fun l => (u, l)))
    let held := (cycles.filter (fun c => 8 ≤ d.stood c.2)).map (·.1)
    let remote := match d.ras.remoteCycle with | some u => if (d.unitWait u).same < 8 then none else some u | none => none
    let d := { d with ras := { d.ras with localCycle := held.head?, remoteCycle := remote } }
    let d := d.each (List.range waitUnits) (fun d u => d.stallCheck u)
    let d := if d.rb Reg.rasHangCtrl 29 then
        d.each (List.range waitUnits) (fun d u => if (d.unitWait u).probed then d else d.probeFrom u)
      else d
    d.each (cycles.filter (fun c => d.stood c.2 = 8)) (fun d c => d.reportHang m c.1 c.2)

/-- WPROBE_PERIOD (R368). -/
def xWprobePeriod (u : Nat) : Effect := fun _ d =>
  if !d.lost 4 && d.rb Reg.rasHangCtrl 29 && (d.unitWait u).probed then d.probeFrom u else d

/-- WPROBE (R368): acknowledged; a PROBE is followed on, a CYCLE of an own wait that still stands is a hang. -/
def xWprobe (k : Packet) : Effect := fun m d =>
  if k.opc != opWPROBE then d
  else d.checked k (fun d =>
    let d := (d.taken k).respond k opWPROBERSP 0 0 0 []
    let w := fun (i n : Nat) => leOf ((k.data.drop i).take n)
    let node := w 0 4 % 2 ^ 23
    let unit := w 4 2 % 512
    let path := w 10 1
    let target := w 12 2 % 512
    if d.lost 4 || k.data.length != 32 then d
    else if w 11 1 = 1 then
      let x := d.unitWait unit
      if node = d.node && wKind x.word != 0 && wSerial x.word = w 6 2 then
        let d := { d with ras := { d.ras with remoteCycle := some unit } }
        let l := (d.chain unit).1
        let d := (d.event (d.unitOwners l) 0x0B07 3 (node + unit * 2 ^ 32) path (tileOfUnit unit)).bump Reg.rasHangs
        d.hangAction m l
      else d
    else if w 11 1 != 0 || path = 64 then d
    else match d.remoteEnd target with
      | none => d
      | some (n, t) =>
        if n = node && t = unit then d.sendProbe node (probeData node unit (w 6 2) (w 8 2) path 1 0)
        else d.sendProbe n (probeData node unit (w 6 2) (w 8 2) (path + 1) 0 t))

/-! Resets and samples. -/

/-- CMD of RAS_RESET_CTRL but for FULL: 1 CONTEXT, for a bound context; 2 COMPUTE. -/
def Dev.resetCommand (d : Dev) (m : Mem) (cmd c : Nat) : Dev :=
  match cmd with
  | 1 => if c != 0 && d.bound c then d.contextReset m c else d
  | 2 => d.computeRequest m
  | _ => d

/-- SAMPLE_RELEASE (R372): every slot that no copy is filling returns to NONE. -/
def Dev.sampleRelease (d : Dev) : Dev :=
  { d with ras := { d.ras with samples := d.ras.samples.filter (fun (s : Nat × Sample) => s.2.copying) } }

/-- A write of RAS_SAMPLE_CTRL; CMDs above 1 are refused. -/
def Dev.sampleCtrlWrite (d : Dev) (v : BitVec 32) : Dev :=
  if 2 ≤ fb v 1 0 then d
  else
    let d := d.putReg Reg.rasSampleCtrl v
    if fb v 1 0 = 1 then d.sampleRelease else d

/-- A register as it stands with a field replaced. -/
def Dev.regWith (d : Dev) (k hi lo x : Nat) : BitVec 32 := BitVec.ofNat 32 (setFld (d.reg k).toNat hi lo x)

/-! One meaning per command. -/

def execBucketLeak (cls : Fin 7) (unit : BitVec 32) (s : State) : Host.Outcome State Fault Refusal :=
  s.run (xBucketLeak cls.val unit.toNat)
def execHealthScore (s : State) : Host.Outcome State Fault Refusal := s.run xHealthScore
def execHealthWindowEnd (c : Fin 64) (s : State) : Host.Outcome State Fault Refusal := s.run (xHealthWindowEnd c.val)
def execWaitGraphSample (s : State) : Host.Outcome State Fault Refusal := s.run xWaitGraphSample
def execWprobePeriod (u : Fin 284) (s : State) : Host.Outcome State Fault Refusal := s.run (xWprobePeriod u.val)
def execWprobe (k : Packet) (s : State) : Host.Outcome State Fault Refusal := s.run (xWprobe k)

/-- RAS_LB_CFG_WRITE (R356, R379): by context 0 or an administrator. -/
def execRasLbCfgWrite (r : Requester) (cls : Fin 7) (v : BitVec 32) (s : State) : Host.Outcome State Fault Refusal :=
  s.runReg r (Reg.rasLbCfg cls.val) v (fun d => d.ctx0OrAdmin r) (fun _ d => (d.lbCfgWrite cls.val v, stOK))

/-- SECURE_NOW (R361): CMD of RAS_HEALTH_CTRL. -/
def execSecureNow (r : Requester) (s : State) : Host.Outcome State Fault Refusal :=
  s.runReg r Reg.rasHealthCtrl (s.dev.regWith Reg.rasHealthCtrl 1 0 1) (fun d => d.ctx0OrAdmin r)
    (fun m d => (d.healthCtrlWrite m (d.regWith Reg.rasHealthCtrl 1 0 1), stOK))

/-- SAMPLE_RELEASE (R372): CMD of RAS_SAMPLE_CTRL. -/
def execSampleRelease (r : Requester) (s : State) : Host.Outcome State Fault Refusal :=
  s.runReg r Reg.rasSampleCtrl (s.dev.regWith Reg.rasSampleCtrl 1 0 1) (fun d => d.ctx0OrAdmin r)
    (fun _ d => (d.sampleCtrlWrite (d.regWith Reg.rasSampleCtrl 1 0 1), stOK))

/-- CONTEXT_RESET (R374): CMD CONTEXT of RAS_RESET_CTRL. -/
def execContextReset (r : Requester) (c : Fin 64) (s : State) : Host.Outcome State Fault Refusal :=
  s.runReg r Reg.rasResetCtrl (BitVec.ofNat 32 (2 ^ 30 + c.val)) (fun d => d.ctx0OrAdmin r)
    (fun m d => ((d.putReg Reg.rasResetCtrl (BitVec.ofNat 32 (2 ^ 30 + c.val))).resetCommand m 1 c.val, stOK))

/-- COMPUTE_RESET (R374): CMD COMPUTE of RAS_RESET_CTRL. -/
def execComputeReset (r : Requester) (s : State) : Host.Outcome State Fault Refusal :=
  s.runReg r Reg.rasResetCtrl (s.dev.regWith Reg.rasResetCtrl 31 30 2) (fun d => d.ctx0OrAdmin r)
    (fun m d => ((d.putReg Reg.rasResetCtrl (d.regWith Reg.rasResetCtrl 31 30 2)).resetCommand m 2 0, stOK))

end Sys2Proof.Machine
end

