-- ==== Sys2Proof/Machine/Share.lean ====
section
/-! DEFINITION. The share snapshot and its ring (R131 to R133). -/

namespace Sys2Proof.Machine

/-- Counter `i` of tile `t` in a context's baseline: its key. -/
def shareKey (t i : Nat) : Nat := 256 * t + i

/-- What share counter `i` of a tile has counted since the context's baseline, modulo 2^48. -/
def Dev.shareDiff (d : Dev) (c t i : Nat) : Nat :=
  ((d.count (Reg.tileShare t i)).toNat + 2 ^ 48 - mget 0 (d.ctx c).shareBase (shareKey t i)) % 2 ^ 48

/-- A tile joins a context: its counters are the baseline (R133). -/
def Dev.shareJoin (d : Dev) (c t : Nat) : Dev :=
  let x := d.ctx c
  d.setCtx c { x with shareBase := (List.range 192).foldl (fun b i => mset b (shareKey t i) (d.count (Reg.tileShare t i)).toNat) x.shareBase }

/-- A tile leaves a context: what it has counted goes into the next record (R133). -/
def Dev.shareLeave (d : Dev) (c t : Nat) : Dev :=
  let x := d.ctx c
  let carry := (List.range 192).foldl (fun b i => mset b i ((mget 0 b i + d.shareDiff c t i) % 2 ^ 48)) x.shareCarry
  d.setCtx c { x with shareCarry := carry, shareBase := (List.range 192).foldl (fun b i => mdel b (shareKey t i)) x.shareBase }

/-- The header of a share record (Table 4.8). -/
def shareHeader (lt step span seq c : Nat) : List Byte :=
  toLE 64 (lt * 2 ^ 448 + step % 2 ^ 32 * 2 ^ 416 + span % 2 ^ 16 * 2 ^ 400 + seq % 2 ^ 16 * 2 ^ 384 + c * 2 ^ 378)

/-- The snapshot of a commit mark (R131, R132): its record, or its differences carried into the next. -/
def Dev.shareSnapshot (d : Dev) (m : Mem) (c step : Nat) : Dev :=
  let x := d.ctx c
  let tiles := d.tilesOf c
  let diffs := (List.range 192).map (fun i => (mget 0 x.shareCarry i + (tiles.map (fun t => d.shareDiff c t i)).sum) % 2 ^ 48)
  let d := d.each tiles (fun d t => d.shareJoin c t)
  let size := d.rf (Reg.ctxShareCtrl c) 8 0
  let prod := d.rf (Reg.ctxShareProd c) 15 0
  let full := (prod + 65536 - d.rf (Reg.ctxShareCons c) 15 0) % 65536 == size
  let on := d.rb (Reg.ctxShareCtrl c) 31
  if on && !full then
    let a := (d.rf (Reg.ctxShareBaseHi c) 8 0) * 2 ^ 32 + (d.rf (Reg.ctxShareBaseLo c) 31 11) * 2048
    let d := d.setCtx c { d.ctx c with shareCarry := [], shareSpan := 0 }
    let rec_ := shareHeader d.now step (x.shareSpan + 1) prod c ++ diffs.flatMap (toLE 8)
    (d.engineWrite m c (a + prod % size * 2048) rec_).setRf (Reg.ctxShareProd c) 15 0 (prod + 1)
  else
    let carry := diffs.zipIdx.foldl (fun b (p : Nat × Nat) => if p.1 = 0 then b else mset b p.2 p.1) []
    (d.setCtx c { d.ctx c with shareCarry := carry, shareSpan := x.shareSpan + 1 }).bumpIf on (Reg.ctxShareLost c)

end Sys2Proof.Machine
end

