-- ==== Sys2Proof/Machine/Verify.lean ====
section
/-! DEFINITION. What an image or a bundle is checked for (R136 to R150, R153, R165, R431 to R434): header, signatures, sections and
their content. Every check is a Bool; a list of them gives the first code of Table 5.15 that fails. -/

namespace Sys2Proof.Machine

/-- The code of the first check that fails, 0 where none does. -/
def firstFail : List (Nat × Bool) → Nat
  | [] => 0
  | (c, ok) :: r => if ok then firstFail r else c

/-- Reserved bits are 0. -/
def rsvZero (v : Nat) (l : List (Nat × Nat)) : Bool := l.all (fun p => fld v p.1 p.2 == 0)

/-- Ranges (start, length) do not overlap. -/
def disjointRanges : List (Nat × Nat) → Bool
  | [] => true
  | x :: r => r.all (fun y => x.1 + x.2 ≤ y.1 || y.1 + y.2 ≤ x.1) && disjointRanges r

def distinct (l : List Nat) : Bool := l.dedup.length == l.length

def readBytes (r : Reader) (off n : Nat) : List Byte := toLE n (r off n)

/-! The header (Table 5.14, step 3). -/

/-- SERIAL of IA's package identity record (Table 1.8). -/
def Dev.serial (d : Dev) : Nat := fb d.fuses.pkgIdA 79 0

/-- MAGIC, FORMAT, KIND, sizes and alignment, HDR_CRC: `n` bytes were fetched, at most `most`. IMAGE_SIZE is what was fetched (log
entry 69). -/
def headerOk (r : Reader) (n most magic : Nat) (kinds : List Nat) : Bool :=
  imgMagic r == magic && imgFormat r == 1 && kinds.contains (imgKind r) && imgSize r == imgSigOffset r + 8192
    && imgSize r == n && n ≤ most && imgSigOffset r % 4096 == 0 && 1 ≤ imgSections r && imgSections r ≤ 1024
    && 256 + 32 * imgSections r ≤ imgSigOffset r && r 252 4 == crc32 (readBytes r 0 252)

def Dev.bindOk (d : Dev) (r : Reader) : Bool := imgBindSerial r == 0 || imgBindSerial r == d.serial

/-- Header checks of an image of `n` bytes, in order. -/
def Dev.headerResult (d : Dev) (r : Reader) (n : Nat) : Nat :=
  firstFail [
    (0x02, headerOk r n (2 ^ 28) 0x52545348 [1, 2]),
    (0x03, d.bindOk r),
    (0x04, (if imgKind r = 1 then d.strata.genCur else d.strata.groupGen).toNat < imgGeneration r),
    (0x05, imgKind r == 1 || imgBaseGen r == d.strata.genCur.toNat),
    (0x06, imgMinGen r ≤ d.negGen.toNat),
    (0x07, imgReqCaps r &&& d.negCaps.toNat == imgReqCaps r)]

/-! Signatures (R138, R431). -/

/-- The identifier of a public key: bytes 0 to 15 of its SHA-512. -/
def keyId (key : List Byte) : Nat := leOf ((sha512 key).take 16)

/-- The accepted key of some slots that an identifier names. -/
def keyFor (keys : Map (List Byte)) (slots : List Nat) (id : Nat) : Option (List Byte) :=
  ((keys.filter (fun (k : Nat × List Byte) => slots.contains k.1)).find? (fun (k : Nat × List Byte) => keyId k.2 == id)).map (·.2)

/-- RSA_SIG verifies over a digest; its bytes come in the order of RFC 8017, the key's as R432 lays them out. -/
def rsaSigned (keys : Map (List Byte)) (digest sig : List Byte) : Bool :=
  match keyFor keys [0, 1, 2, 3] (leOf (sig.take 16)) with
  | none => false
  | some k => pssVerify (leOf (k.take 4)) (leOf ((k.drop 4).take 512)) (natBytes digest) (natBytes ((sig.drop 64).take 512))

/-- MLDSA_SIG verifies: HashML-DSA-87 of FIPS 204, a constant of Config (log entry 70). -/
def mldsaSigned (keys : Map (List Byte)) (digest sig : List Byte) : Bool :=
  match keyFor keys [4, 5, 6, 7] (leOf ((sig.drop 16).take 16)) with
  | none => false
  | some k => Config.mldsaVerify k digest ((sig.drop 576).take 4627)

/-- The codes SIG_RSA and SIG_MLDSA for a signature block of 8,192 bytes over a message. -/
def sigResult (keys : Map (List Byte)) (digest sig : List Byte) : Nat :=
  firstFail [(0x08, rsaSigned keys digest sig), (0x09, mldsaSigned keys digest sig)]

/-- SHA-512 of bytes 0 to SIG_OFFSET - 1. -/
def imageDigest (r : Reader) : List Byte := sha512 (readBytes r 0 (imgSigOffset r))

def imageSigResult (keys : Map (List Byte)) (r : Reader) : Nat :=
  sigResult keys (imageDigest r) (readBytes r (imgSigOffset r) 8192)

/-! The section table and the section contents' reserved fields. -/

/-- Sections in ascending order, aligned, apart, with zeros between them and before the signature block. -/
def layoutOk (r : Reader) : Nat → List Section → Bool
  | e, [] => e ≤ imgSigOffset r && r e (imgSigOffset r - e) == 0
  | e, s :: l => s.off % 4096 == 0 && e ≤ s.off && r e (s.off - e) == 0 && layoutOk r (s.off + s.len) l

def sectionsOf (r : Reader) (ty : Nat) : List Section := (imgSectionList r).filter (fun s => s.type == ty)

/-- Fields of Table 5.2 that a type does not use are 0, and the section's CRC is right. -/
def sectionOk (r : Reader) (s : Section) : Bool :=
  s.rsv == 0 && (s.type == 9 || s.svn == 0) && (s.type == 4 || s.width == 0) && (s.type == 4 || s.type == 9 || s.index == 0)
    && s.crc == crc32 (readBytes r s.off s.len)

/-- Numbers of copies (Table 5.3). -/
def countsOk (r : Reader) : Bool :=
  let l := imgSectionList r
  let n := fun ty => (sectionsOf r ty).length
  if imgKind r = 2 then l.length == 1 && n 7 == 1
  else
    n 1 == 1 && n 2 == 1 && n 3 == 1 && n 5 == 1 && n 6 ≤ 1 && n 7 ≤ 1 && n 8 ≤ 1 && n 4 ≤ 576
      && l.all (fun s => 1 ≤ s.type && s.type ≤ 9)
      && distinct ((sectionsOf r 4).map (fun s => s.index * 256 + s.width)) && distinct ((sectionsOf r 9).map (·.index))
      && (sectionsOf r 9).all (fun s => 1 ≤ s.index && s.index ≤ 5)

/-- A section of a header of `h` bytes and `n` records of `w` bytes: its length, and reserved bits of its header and records. -/
def recordsOk (r : Reader) (s : Section) (h n w : Nat) (hrsv wrsv : List (Nat × Nat)) : Bool :=
  s.len == h + n * w && rsvZero (r s.off h) hrsv && (List.range n).all (fun i => rsvZero (r (s.off + h + i * w) w) wrsv)

/-- PHASE (Table 5.5). -/
def phaseOk (r : Reader) (s : Section) : Bool :=
  let n := r s.off 1 % 16
  1 ≤ n && n ≤ 8 && recordsOk r s 16 n 16 [(127, 4)] [(127, 64), (31, 16), (7, 3)]
    && (List.range n).all (fun i => r (s.off + 16 + 16 * i) 1 % 8 == i)

/-- Payload records of a TILE section: where each head lies, SCR_ADDR in bytes, LENGTH. -/
def payloadOf (r : Reader) : Nat → Nat → List (Nat × Nat × Nat)
  | 0, _ => []
  | n + 1, o =>
    let len := r (o + 4) 4
    (o, r o 4 % 2 ^ 20 * 32, len) :: payloadOf r n (o + 32 + ceilDiv len 32 * 32)

def tilePayload (r : Reader) (s : Section) : List (Nat × Nat × Nat) := payloadOf r (r (s.off + 4) 2) (s.off + 576)

/-- Reserved bits, padding and length of a TILE section (R140). -/
def tileRsvOk (r : Reader) (s : Section) : Bool :=
  let l := tilePayload r s
  let e := l.foldl (fun _ x => x.1 + 32 + ceilDiv x.2.2 32 * 32) (s.off + 576)
  rsvZero (r s.off 64) [(511, 96), (63, 48), (23, 22), (15, 14), (7, 6)] && e == s.off + s.len
    && l.all (fun x => rsvZero (r x.1 32) [(255, 64), (31, 20)] && r (x.1 + 32 + x.2.2) (ceilDiv x.2.2 32 * 32 - x.2.2) == 0)
    && (List.range 8).all (fun p =>
      let v := r (s.off + 64 + 64 * p) 64
      if (r (s.off + 3) 1).testBit p then
        rsvZero v [(439, 416), (331, 320), (270, 256)] &&
          (List.range 8).all (fun i => rsvZero v [(32 * i + 30, 32 * i + 16)])
      else v == 0)

/-- GROUP descriptors (Table 5.11). -/
def groupCount (r : Reader) (s : Section) : Nat := r s.off 2
def groupDescs (r : Reader) (s : Section) : List Nat := (List.range (groupCount r s)).map (fun i => r (s.off + 32 + 32 * i) 32)
def gdId (v : Nat) : Nat := fld v 15 0
def gdCtx (v : Nat) : Nat := fld v 21 16
def gdVer (v : Nat) : Nat := fld v 63 32
def gdMembers (v : Nat) : Nat := fld v 80 64
def gdSelf (v : Nat) : Nat := fld v 112 96
def gdOffset (v : Nat) : Nat := fld v 159 128
def gdMember (r : Reader) (s : Section) (v i : Nat) : Nat := r (s.off + gdOffset v + 4 * i) 4

def readGroup (r : Reader) (s : Section) (v : Nat) : Group :=
  { id := gdId v, ctx := gdCtx v, ver := BitVec.ofNat 32 (gdVer v), selfRank := gdSelf v,
    members := (List.range (gdMembers v)).map (fun i => BitVec.ofNat 23 (gdMember r s v i)) }

/-- The groups of a GROUP section. -/
def imgGroups (r : Reader) : List Group :=
  match findSection r 7 with
  | some s => (groupDescs r s).map (readGroup r s)
  | none => []

def groupRsvOk (r : Reader) (s : Section) : Bool :=
  32 + 32 * groupCount r s ≤ s.len && rsvZero (r s.off 32) [(255, 16)]
    && (groupDescs r s).all (fun v => rsvZero v [(255, 160), (127, 113), (95, 81), (31, 22)]
      && gdOffset v + 4 * gdMembers v ≤ s.len
      && (List.range (gdMembers v)).all (fun i => gdMember r s v i < 2 ^ 23))

/-- FIRMWARE (R150): CODE_BYTES, and the code. -/
def fwBytes (r : Reader) (s : Section) : Nat := r (s.off + 4) 4
def fwDigest (r : Reader) (s : Section) : BitVec 512 := BitVec.ofNat 512 (digestNum (sha512 (readBytes r (s.off + 64) (fwBytes r s))))
def fwOk (r : Reader) (s : Section) : Bool := s.len == 64 + fwBytes r s && rsvZero (r s.off 64) [(511, 96)] && r (s.off + 8) 4 < fwBytes r s

/-- Reserved bits and lengths of a section by its type. -/
def contentOk (r : Reader) (s : Section) : Bool :=
  match s.type with
  | 1 => phaseOk r s
  | 2 => recordsOk r s 0 63 32 [] [(255, 96), (31, 14)]
  | 3 => recordsOk r s 32 (r (s.off + 2) 2) 32 [(255, 32), (15, 3)] [(255, 96), (31, 13), (7, 6)]
  | 4 => tileRsvOk r s
  | 5 => recordsOk r s 16 (r s.off 2) 64 [(127, 16)]
      [(511, 288), (127, 120), (111, 111), (107, 107), (103, 103), (99, 99), (95, 79), (75, 73), (63, 58), (47, 42), (31, 28)]
  | 6 => recordsOk r s 16 (r s.off 2) 32 [(127, 16)] [(255, 128), (63, 47), (43, 43), (39, 39), (35, 35), (31, 23), (19, 19)]
  | 7 => groupRsvOk r s
  | 8 => recordsOk r s 16 (r s.off 4) 16 [(127, 32)] [(127, 47)]
  | 9 => fwOk r s
  | _ => true

/-- The code SECTION (Table 5.15), for an image. -/
def sectionsOk (r : Reader) : Bool :=
  let l := imgSectionList r
  countsOk r && layoutOk r (256 + 32 * imgSections r) l && l.all (fun s => sectionOk r s && contentOk r s)
    && rsvZero (r 0 256) [(2015, 352), (135, 129), (87, 64)] && (imgKind r != 1 || imgBaseGen r == 0)
    && r (imgSigOffset r + 32) 32 == 0 && r (imgSigOffset r + 5203) 2989 == 0

/-! Partition and memory map (R146, R147). -/

def partValid (v : Nat) : Bool := v.testBit 0
def partPhase (v : Nat) : Nat := fld v 3 1
def partHosts (v : Nat) : Nat := fld v 7 4
def partCtx (v : Nat) : Nat := fld v 13 8
def partTiles (v : Nat) : Nat := fld v 95 32

/-- Contexts that exist in an image. -/
def imgCtxs (r : Reader) : List Nat := (List.range 64).filter (fun c => c != 0 && partValid (imgPartition r c))

/-- TILE_MASK of a context, 0 where VALID is 0. -/
def imgTiles (r : Reader) (c : Nat) : Nat := if partValid (imgPartition r c) then partTiles (imgPartition r c) else 0

def tileCtx (r : Reader) (s : Section) : Nat := r (s.off + 2) 1 % 64

def partitionOk (r : Reader) : Bool :=
  let l := imgCtxs r
  (List.range 64).all (fun c => c == 0 || partCtx (imgPartition r c) == c)
    && (List.range 64).all (fun t => (l.filter (fun c => (imgTiles r c).testBit t)).length ≤ 1)
    && l.all (fun c => partPhase (imgPartition r c) < imgPhases r)
    && (imgRegions r).all (fun v => l.contains (fld v 5 0)) && (sectionsOf r 4).all (fun s => l.contains (tileCtx r s))

def regionBase (v : Nat) : Nat := fld v 63 32
def regionSize (v : Nat) : Nat := fld v 95 64

/-- A page of the reserved set (R175). -/
def Dev.pageReserved (d : Dev) (pg : Nat) : Bool := 2 ≤ pageState (d.page pg) || d.quarterOut (pg / 131072)

def Dev.memmapOk (d : Dev) (r : Reader) : Bool :=
  let l := imgRegions r
  imgGranule r ≤ 4 && 1 ≤ l.length && l.length ≤ 512
    && disjointRanges (l.map (fun v => (regionBase v, regionSize v)))
    && l.all (fun v => regionSize v != 0 && regionBase v + regionSize v ≤ 524288 && fld v 11 8 ≤ 4 && fld v 5 0 != 0
      && (!v.testBit 12 || (regionBase v % 512 == 0 && regionSize v % 512 == 0))
      && (List.range (regionSize v)).all (fun i => !d.pageReserved (regionBase v + i)))

/-! Tiles (R140, R164, R167). -/

/-- The fields of a TILE section agree, and its payload lies in 32 MiB, apart, at most 4 MiB in all. -/
def tileFieldsOk (r : Reader) (s : Section) : Bool :=
  let l := tilePayload r s
  s.index < 64 && r s.off 1 % 64 == s.index && r (s.off + 1) 1 % 64 == s.width && 24 ≤ s.width && s.width ≤ 32
    && (imgTiles r (tileCtx r s)).testBit s.index
    && (l.map (·.2.2)).sum == r (s.off + 8) 4 && r (s.off + 8) 4 ≤ 2 ^ 22
    && disjointRanges (l.map (·.2)) && l.all (fun x => x.2.1 + x.2.2 ≤ 2 ^ 25)

/-- Tiles that some context owns in an image. -/
def ownedTiles (r : Reader) : List Nat := (List.range 64).filter (fun t => (imgCtxs r).any (fun c => (imgTiles r c).testBit t))

def Dev.tilesAvailable (d : Dev) (r : Reader) : Bool :=
  (ownedTiles r).all (fun t => (d.tile t).state != .retired && !d.lost (dieOf t))

def Dev.widthsOk (d : Dev) (r : Reader) : Bool :=
  (sectionsOf r 4).all (tileFieldsOk r) && (ownedTiles r).all (fun t => (tileSection r t (d.tile t).width).isSome)

/-! Routes (R142 to R145, R165, R244). -/

/-- A path as (link, MODS) hops. -/
def routeHopList (v : Nat) : List (Nat × Nat) := (List.range (routeHops v)).map (fun h => (routeLink v h, routeMods v h))
def altHopList (v : Nat) : List (Nat × Nat) := (List.range (altHops v)).map (fun h => (altLink v h, altMods v h))

/-- Where a path from a die ends, if every hop leaves the die it stands at. -/
def walk : Nat → List (Nat × Nat) → Option Nat
  | die, [] => some die
  | die, (n, _) :: r =>
    if (linkEnds n).1 = die then walk (linkEnds n).2 r else if (linkEnds n).2 = die then walk (linkEnds n).1 r else none

/-- The die of an endpoint (R143). -/
def endpointDie (e : Nat) : Nat := if e / 256 = 0 then fld e 7 2 / 16 else 4 + fld e 7 7

def isBridge (e : Nat) : Bool := e / 256 == 1 && 0x40 ≤ e % 128 && e % 128 < 0x50

def modsOk (l : List (Nat × Nat)) : Bool := l.all (fun h => h.2 != 0 && h.2 < 2 ^ linkModules h.1)

def routeOk (v : Nat) : Bool :=
  let src := routeSrc v
  let dst := routeDst v
  src / 256 == 0 && (dst / 256 == 0 || isBridge dst) && routeHops v ≤ 4
    && walk (endpointDie src) (routeHopList v) == some (endpointDie dst) && modsOk (routeHopList v)
    && (if isBridge dst then routeRing v % 256 == 0 && routeBytes v % 4096 == 0 && 4096 ≤ routeBytes v && routeBytes v ≤ 2 ^ 30
        else routeRing v == 0 && routeBytes v == 0)

def altOk (routes : List Nat) (a : Nat) : Bool :=
  match routes.find? (fun v => routeId v == altId a) with
  | none => false
  | some v => 1 ≤ altHops a && altHops a ≤ 4 && (routeHopOn v (altTrigger a)).isSome && modsOk (altHopList a)
      && walk (endpointDie (routeSrc v)) (altHopList a) == some (endpointDie (routeDst v))

/-- The hops of a route when link `l` is lost: its first alternate that `l` triggers stands in (R165). -/
def hopsWithout (alts : List Nat) (l : Option Nat) (v : Nat) : List (Nat × Nat) :=
  match l with
  | none => routeHopList v
  | some n => match alts.find? (fun a => altId a == routeId v && altTrigger a == n) with
    | some a => altHopList a
    | none => routeHopList v

/-- The cases of R165: every phase, with no link lost and with each. -/
def routeCases : List (Nat × Option Nat) := (List.range 8).flatMap (fun p => (p, none) :: (List.range 8).map (fun n => (p, some n)))

/-- Routes of a phase over link `n`, each with the MODS of that hop. -/
def overLink (routes alts : List Nat) (p : Nat) (l : Option Nat) (n : Nat) : List (Nat × Nat) :=
  (routes.filter (fun v => (routePhases v).testBit p)).filterMap (fun v =>
    ((hopsWithout alts l v).find? (fun h => h.1 == n)).map (fun h => (v, h.2)))

def Dev.routesOk (d : Dev) (r : Reader) : Bool :=
  let l := imgRoutes r
  let alts := imgAlternates r
  distinct (l.map routeId) && l.all routeOk && alts.all (altOk l) && (d.cap 3 || l.all (fun v => routeStream v < 1024))
    && (List.range 8).all (fun p =>
      let here := l.filter (fun v => (routePhases v).testBit p)
      distinct (here.map routeSrc) && distinct (here.map routeDst))
    && routeCases.all (fun c => (List.range 8).all (fun n => distinct ((overLink l alts c.1 c.2 n).map (fun x => routeStream x.1))))

/-- R18 on every module in service; link 7 carries streams in MESH_REQ cells, outside their credits (R144). -/
def Dev.creditsOk (d : Dev) (r : Reader) : Bool :=
  let l := imgRoutes r
  let alts := imgAlternates r
  l.all (fun v => routeCredit v != 0) && routeCases.all (fun c => (List.range 7).all (fun n =>
    let here := overLink l alts c.1 c.2 n
    (d.serving n).all (fun i =>
      let used := here.filter (fun x => x.2.testBit i)
      used.length ≤ 64 && (used.map (fun x => routeCredit x.1)).sum ≤ 1024)))

/-! Groups, tensors, firmware. -/

/-- R148, and R160 for an update: `update` allows MEMBERS 0 and asks for a higher GROUP_VER. -/
def Dev.groupsOk (d : Dev) (r : Reader) (update : Bool) : Bool :=
  match findSection r 7 with
  | none => true
  | some s =>
    let l := groupDescs r s
    l.length ≤ 1024 && s.len ≤ 2 ^ 25 && distinct (l.map gdId) && l.all (fun v =>
      let n := gdMembers v
      gdOffset v % 4 == 0 && n ≤ 65536 &&
      (if n = 0 then update
       else gdSelf v < n && distinct ((List.range n).map (gdMember r s v)) && gdMember r s v (gdSelf v) == d.node) &&
      (!update || d.strata.groups.all (fun g => g.id != gdId v || g.ver.toNat < gdVer v)))

def imgTensors (r : Reader) : List Nat :=
  match findSection r 8 with
  | some s => (List.range (r s.off 4)).map (fun i => r (s.off + 16 + 16 * i) 16)
  | none => []

/-- R149, and of R380 what the entry shows: only WEIGHT and STATE have a partner copy. -/
def tensorsOk (r : Reader) : Bool :=
  let l := imgTensors r
  l.all (fun v => 1 ≤ fld v 44 41 && fld v 44 41 ≤ 8 && fld v 46 45 != 3 && (fld v 46 45 != 1 || fld v 40 38 == 0 || fld v 40 38 == 4)) && distinct (l.map (fun v => fld v 37 0))

/-- An anti-rollback counter: the highest programmed bank (R437). -/
def Dev.arb (d : Dev) (k : Nat) : Nat := ((mget [] d.fuses.banks k).getLastD 0).toNat

def Dev.firmwareOk (d : Dev) (r : Reader) : Bool := (sectionsOf r 9).all (fun s => d.arb s.index ≤ s.svn)

/-! Results. -/

/-- Table 5.14, steps 4 and 5. -/
def Dev.contentResult (d : Dev) (r : Reader) : Nat :=
  let sig := imageSigResult d.sec.keys r
  if sig != 0 then sig
  else if !sectionsOk r then 0x0A
  else if imgKind r = 2 then (if d.groupsOk r true then 0 else 0x11)
  else firstFail [
    (0x0B, partitionOk r), (0x0C, d.memmapOk r), (0x0E, d.tilesAvailable r), (0x0D, d.widthsOk r), (0x0F, d.routesOk r),
    (0x10, d.creditsOk r), (0x11, d.groupsOk r false), (0x12, tensorsOk r), (0x13, d.firmwareOk r)]

/-- What R158 checks of an area again: section CRCs and both signatures. -/
def Dev.imageHolds (d : Dev) (r : Reader) : Bool :=
  imgMagic r == 0x52545348 && imageSigResult d.sec.keys r == 0
    && (imgSectionList r).all (fun s => s.crc == crc32 (readBytes r s.off s.len))

end Sys2Proof.Machine
end

