-- ==== Sys2Proof/Machine/Strata.lean ====
section
/-! DEFINITION. Strata (chapter 5): loading and validation, activation and revert, group updates, firmware, phase switches. -/

namespace Sys2Proof.Machine

/-! Commands of STRATA_CTRL (R152). -/

/-- A command that is refused (R152, R417). -/
def Dev.strataRefuse (d : Dev) (cmd : Nat) : Dev × Nat :=
  ((((d.bump Reg.devRegRefused).bump Reg.strataCmdRefused).event [] 0x0A04 1 cmd 0 0), stACCESS)

def Dev.setStrata (d : Dev) (f : Strata → Strata) : Dev := { d with strata := f d.strata }

/-- Image areas in service (R175): fewer than three refuse a LOAD. -/
def Dev.areasIn (d : Dev) : List Nat := (List.range 4).filter (fun q => !d.quarterOut q)

/-- Area 3 stands in for an area whose quarter is out of service; what that area held is lost (R175). -/
def Dev.standIn (d : Dev) : Dev :=
  let s := d.strata
  if d.quarterOut 3 || s.cur == 3 || s.prev == 3 || s.inc == 3 then d
  else if d.quarterOut s.cur then d.setStrata (fun s => { s with cur := 3, curValid := false, genCur := 0 })
  else if d.quarterOut s.prev then d.setStrata (fun s => { s with prev := 3, prevValid := false, genPrev := 0 })
  else if d.quarterOut s.inc then d.setStrata (fun s => { s with inc := 3, inState := .empty, genIn := 0 })
  else d

/-- An activation that will take INCOMING has come to its count: INCOMING is not given up (log entry 69). -/
def Dev.incomingHeld (d : Dev) : Bool := match d.strata.activating with | some a => !a.revert | none => false

/-- Fetch the next block of a host image: at most 256 bytes, one request at a time (Table 11.5). -/
def Dev.strataNext (d : Dev) : Dev :=
  match d.strata.fetch with
  | some (.host p, false, len) =>
    let n := min 256 (len - d.strata.fetched)
    let src := d.reg64 Reg.strataSrcLo
    if n = 0 || 2 ^ 28 < len || src % 4096 != 0 then d
    else d.hrd p.val 0 opcHRD (src + d.strata.fetched) n .strata 0 0
  | _ => d

/-- A block of a host image has come. -/
def Dev.strataBlock (d : Dev) (bytes : List Byte) : Dev :=
  if d.strata.inState != .fetching then d
  else
    let d := d.pokeN (areaBase d.strata.inc + d.strata.fetched) bytes
    (d.setStrata (fun s => { s with fetched := s.fetched + bytes.length })).strataNext

/-- Requests of a fetch are given up. -/
def Dev.strataQuit (d : Dev) : Dev :=
  let d := d.retireTags (fun t => t.purpose == .strata)
  d.each (List.range 4) (fun d p =>
    let w := (d.host p).waiting
    if w.any (fun x => x.2.purpose == .strata) then d.setHost p { d.host p with waiting := w.filter (fun x => x.2.purpose != .strata) }
    else d)

/-- LOAD (R153). -/
def Dev.strataLoad (d : Dev) (r : Requester) (mgmtBus : Bool) : Dev × Nat :=
  if d.strata.inState == .fetching || d.strata.inState == .validating || d.incomingHeld || d.areasIn.length < 3 then d.strataRefuse 1
  else
    let d := d.standIn.bump Reg.strataLoads
    let d := d.setStrata (fun s => { s with inState := .fetching, genIn := 0, fetched := 0,
                                            fetch := some (r, mgmtBus, (d.reg Reg.strataSrcLen).toNat) })
    (d.strataNext, stOK)

/-- DISCARD (R153, Table 5.15): the validation it ends has its event record (log entry 69). -/
def Dev.strataDiscard (d : Dev) : Dev × Nat :=
  if d.incomingHeld then d.strataRefuse 2
  else
    let busy := d.strata.inState == .fetching || d.strata.inState == .validating
    let d := d.strataQuit.setStrata (fun s => { s with inState := .empty, genIn := 0, fetch := none,
                                                       valResult := if busy then 0x14 else s.valResult })
    (if busy then d.pkgEvent 0x0A01 2 0x14 0 else d, stOK)

/-! Images as they stand. -/

def Dev.curReader (m : Mem) (d : Dev) : Reader := if d.strata.curValid then areaReader m d d.strata.cur else fun _ _ => 0
def Dev.prevReader (m : Mem) (d : Dev) : Reader := areaReader m d d.strata.prev
def Dev.incReader (m : Mem) (d : Dev) : Reader := areaReader m d d.strata.inc

def regionsOf (r : Reader) (c : Nat) : List Nat := (imgRegions r).filter (fun v => fld v 5 0 == c)

/-- The partition entry or the regions of a context differ (R155). -/
def mapChanged (a b : Reader) (c : Nat) : Bool := imgPartition a c != imgPartition b c || regionsOf a c != regionsOf b c

def routesOf (r : Reader) (mask : Nat) : List Nat :=
  (imgRoutes r).filter (fun v => [routeSrc v, routeDst v].any (fun e => (endpointTile e).any mask.testBit))

def tileContent (r : Reader) (mask : Nat) : List (Nat × Nat × Nat) :=
  ((sectionsOf r 4).filter (fun s => mask.testBit s.index)).map (fun s => (s.index, s.width, r s.off s.len))

/-- An activation of `b` in place of `a` changes a context (R155). -/
def ctxChanged (a b : Reader) (c : Nat) : Bool :=
  mapChanged a b c || tileContent a (imgTiles a c) != tileContent b (imgTiles b c) || routesOf a (imgTiles a c) != routesOf b (imgTiles b c)

def changedCtxs (a b : Reader) : List Nat := (List.range 64).filter (fun c => c != 0 && ctxChanged a b c)

/-- Bound contexts stand against the new map (R155; for REVERT likewise, log entry 69). -/
def Dev.mapBarred (d : Dev) (m : Mem) (b : Reader) : Bool :=
  let a := d.curReader m
  let bound := (List.range 64).filter (fun c => c != 0 && d.bound c)
  bound.any (mapChanged a b) || (!bound.isEmpty && imgGranule b != d.strata.granule.toNat)

/-- Whether an action may be armed, and again be taken at its count (R154 to R156, R159): 1 ACTIVATE, 2 REVERT, 3 GROUP_APPLY. Inside
the start-up window the widths are checked again (R71). -/
def Dev.actionOk (d : Dev) (m : Mem) (action : Nat) : Bool :=
  let inc := d.incReader m
  match action with
  | 1 => d.strata.inState == .valid && imgKind inc == 1 && !d.mapBarred m inc
      && (d.strata.activated || (d.tilesAvailable inc && d.widthsOk inc))
  | 2 => d.strata.prevValid && !d.mapBarred m (d.prevReader m)
  | 3 => d.strata.inState == .valid && imgKind inc == 2 && imgBaseGen inc == d.strata.genCur.toNat && d.groupsOk inc true
  | _ => false

/-- Arm a cairn slot whose checks have passed, or handle it as past (R257, R261). -/
def Dev.armCairn (d : Dev) (c s lt arg action : Nat) (policy evt : Bool) : Dev :=
  let past := lt ≤ d.now
  let d := d.setCairn c s { lt := BitVec.ofNat 64 lt, arg := BitVec.ofNat 32 arg, action := BitVec.ofNat 8 action, policy := policy,
                            evt := evt, state := .armed, late := past && policy }
  if past && !policy then d.cairnSet c s .cancelled 3 false else d

/-- The lowest slot of context 0 that is neither ARMED nor has a barrier pending. -/
def Dev.freeCairn (d : Dev) : Option Nat :=
  (List.range 64).find? (fun s => (d.cairn 0 s).state != .armed && (d.cairn 0 s).barrierAt.isNone)

/-- ACTIVATE, REVERT, GROUP_APPLY: file the action at STRATA_ARM_LT, with POLICY LATE (R154, R261). -/
def Dev.strataArm (d : Dev) (m : Mem) (action : Nat) : Dev × Nat :=
  match d.freeCairn with
  | none => d.strataRefuse (action + 2)
  | some s =>
    if d.strata.armed != 0 || d.strata.activating.isSome || !d.actionOk m action then d.strataRefuse (action + 2)
    else
      let lt := d.reg64 Reg.strataArmLtLo
      let d := d.setStrata (fun x => { x with armed := action, armedSlot := s })
      let d := (d.setReg64 (Reg.ctxCairnLtLo 0 s) lt).setRegN (Reg.ctxCairnArg 0 s) 0
      (d.armCairn 0 s lt 0 (0x0F + action) true false, stOK)

/-- FW_COMMIT (R157, R437). -/
def Dev.fwCommit (d : Dev) : Dev :=
  d.each d.strata.firmware (fun d k =>
    let banks := mget [] d.fuses.banks k.1
    if d.arb k.1 < k.2.2.toNat && banks.length < 32 then
      { d with fuses := { d.fuses with banks := mset d.fuses.banks k.1 (banks ++ [k.2.2]) } }
    else d)

/-- CANCEL (R154). -/
def Dev.strataCancel (d : Dev) : Dev × Nat :=
  if d.strata.armed = 0 then d.strataRefuse 7
  else (d.cairnCancel 0 d.strata.armedSlot 5, stOK)

/-- A write of STRATA_CTRL. -/
def Dev.strataCtrlWrite (d : Dev) (m : Mem) (r : Requester) (v : BitVec 32) : Dev × Nat :=
  let cmd := fb v 3 0
  let y := if !d.ctx0OrAdmin r then d.strataRefuse cmd
    else match cmd with
      | 0 => (d, stOK)
      | 1 => d.strataLoad r (v.getLsbD 4)
      | 2 => d.strataDiscard
      | 3 => d.strataArm m 1
      | 4 => d.strataArm m 2
      | 5 => d.strataArm m 3
      | 6 => (d.fwCommit, stOK)
      | 7 => d.strataCancel
      | _ => d.strataRefuse cmd
  if y.2 = stOK then (y.1.putReg Reg.strataCtrl v, stOK) else y

/-! Loading and validation (Table 5.14). -/

/-- STRATA_GEN_IN is set at the end of validation (Table 5.14, step 6). -/
def Dev.setGenIn (d : Dev) (r : Reader) : Dev := d.setStrata (fun s => { s with genIn := BitVec.ofNat 32 (imgGeneration r) })

/-- The fetch has brought INCOMING: the header checks. -/
def Dev.headerChecks (d : Dev) (m : Mem) (len : Nat) : Dev :=
  let r := d.incReader m
  let code := d.headerResult r len
  if code = 0 then d.setStrata (fun s => { s with inState := .validating, fetch := none }) else (d.setGenIn r).strataFail code

/-- STRATA_FETCH_COMPLETE (R153): `img` is what the management-bus staging held (none: a read error). A host image has come in blocks. -/
def xStrataFetchComplete (img : Option (List Byte)) : Effect := fun m d =>
  if d.strata.inState != .fetching then d
  else match d.strata.fetch with
    | none => d
    | some (r, staged, len) =>
      if 2 ^ 28 < len then d.strataFail 1
      else if staged then
        (match img with
         | none => d.strataFail 1
         | some bs => if bs.length != len then d.strataFail 1 else (d.pokeN (areaBase d.strata.inc) bs).headerChecks m len)
      else match r with
        | .host _ =>
          if d.reg64 Reg.strataSrcLo % 4096 != 0 then d.strataFail 1
          else if d.strata.fetched < len then d
          else d.headerChecks m len
        | _ => d.strataFail 1

/-- STRATA_VALIDATION_COMPLETE (R153). -/
def xStrataValidationComplete : Effect := fun m d =>
  if d.strata.inState != .validating || d.lost 4 then d
  else
    let code := d.contentResult (d.incReader m)
    let d := d.setGenIn (d.incReader m)
    if code = 0 then
      let d := d.setStrata (fun s => { s with inState := .valid, valResult := 0 })
      d.event [] 0x0A01 0 0 d.strata.genIn.toNat 0
    else (d.bumpIf (code == 8 || code == 9) Reg.secSigFail).strataFail code

/-! Phase end (R141, R477). -/

/-- A sequencer has finished: its last entry of pass REPEAT, or between passes where REPEAT is 0. -/
def seqDone (r n idx pass : Nat) : Bool := n == 0 || (if r = 0 then idx == 0 else r ≤ pass)

def Dev.phaseEnd (d : Dev) (t : Nat) : Bool :=
  let x := d.tile t
  if x.stopped then x.pipe.isEmpty && x.sets.all (fun s => s.2.drain != .draining)
  else
    let done := match x.plane with
      | none => true
      | some p => seqDone (planeRepeat p) (planeDescCount p) x.descIdx x.descPass && seqDone (planeRepeat p) (planeVecLen p) x.vecIdx x.vecPass
    done && x.pipe.isEmpty && x.passes.isEmpty && x.loader.isNone && !x.vecWaiting && x.sets.all (fun s => s.2.drain == .none)

/-- HALTED and RETIRED tiles, and tiles of an isolated or absent die, are left out (R163). -/
def Dev.leftOut (d : Dev) (t : Nat) : Bool :=
  (d.tile t).state == .halted || (d.tile t).state == .retired || d.lost (dieOf t)

/-! Routes and bridges of a phase. -/

/-- The number of a stream bridge endpoint: 16 to an I/O die. -/
def bridgeNumber (e : Nat) : Nat := fld e 7 7 * 16 + e % 16

/-- Bind a bridge to a route of its context's phase (R244). A ring it wrote before goes on from the PROD last written (log entry 71). -/
def Bridge.bindTo (b : Bridge) (v c : Nat) : Bridge :=
  let tile := (endpointTile (routeSrc v)).getD 0
  if b.ring.toNat == routeRing v && b.bytes == routeBytes v then
    (if b.stopped then { b with route := some (routeId v), ctx := c, tile := tile, stopped := false, prod := b.prodWritten,
                                acked := b.prodWritten, cells := [], needCons := false }
     else { b with route := some (routeId v), ctx := c, tile := tile })
  else { route := some (routeId v), ring := BitVec.ofNat 64 (routeRing v), bytes := routeBytes v, ctx := c, tile := tile }

/-- Load the routes of some contexts: alternates, bridges, credit limits (R145, R161, R244). -/
def Dev.loadRoutes (d : Dev) (m : Mem) (cs : List Nat) : Dev :=
  let live := (d.liveRoutes m).filter (fun v => match d.routeCtx v with | some c => cs.contains c | none => false)
  let ids := ((imgRoutes (d.curReader m)).filter (fun v => match d.routeCtx v with | some c => !cs.contains c | none => false)).map routeId
  let d := { d with onAlternate := d.onAlternate.filter (fun (p : Nat × Nat) => ids.contains p.1) }
  let d := d.each live (fun d v =>
    match (List.range (routeHops v)).find? (fun h => !d.hopServed v (routeLink v h)) with
    | none => d
    | some h => if (d.chooseAlternate m v (routeLink v h)).isSome then
        { d with onAlternate := mset d.onAlternate (routeId v) (routeLink v h) }
      else d)
  let bridges := d.bridges.map (fun (b : Nat × Bridge) => if cs.contains b.2.ctx then (b.1, { b.2 with route := none }) else b)
  let bridges := (live.filter (fun v => isBridge (routeDst v))).foldl (fun bs v =>
    let n := bridgeNumber (routeDst v)
    mset bs n (Bridge.bindTo (mget ({} : Bridge) bs n) v ((d.routeCtx v).getD 0))) bridges
  ({ d with bridges := bridges }).loadLimits m

/-! Activation and revert (Table 5.16). -/

/-- A pending phase switch of a context, and ARMED slots at `n`, give way to an activation that changes it (R155, R260). -/
def Dev.supersede (d : Dev) (c n : Nat) : Dev :=
  let had := (d.ctx c).switch.isSome
  let d := d.each (d.cairnsOf c) (fun d s =>
    let x := d.cairn c s
    if x.state == .armed && (x.lt.toNat == n || x.action == 1) then d.cairnCancel c s 7 else d)
  let d := d.setCtx c { d.ctx c with switch := none }
  if had then d.event [c] 0x0A0B 1 c 0 0 else d

/-- ACTIVATE or REVERT comes to its count (R154; Table 5.16, step 2). -/
def Dev.activateAt (d : Dev) (m : Mem) (revert : Bool) (n : Nat) : Dev :=
  let action := if revert then 2 else 1
  let ok := d.actionOk m action
  let d := d.setStrata (fun s => { s with armed := 0 })
  if !ok then d.event [] 0x0A05 2 action 0 0
  else
    let cs := changedCtxs (d.curReader m) (if revert then d.prevReader m else d.incReader m)
    let d := d.each cs (fun d c => d.supersede c n)
    let d := d.each cs (fun d c => d.setCtx c { d.ctx c with changing := true })
    d.setStrata (fun s => { s with activating := some { revert := revert, lt := BitVec.ofNat 64 n, changed := cs } })

/-- GROUP_APPLY comes to its count (R159). -/
def Dev.groupApplyAt (d : Dev) (m : Mem) : Dev :=
  let r := d.incReader m
  let ok := d.actionOk m 3
  let d := d.setStrata (fun s => { s with armed := 0 })
  if !ok then d.event [] 0x0A05 2 3 0 0
  else
    let news := imgGroups r
    let kept := d.strata.groups.filter (fun g => news.all (fun n => n.id != g.id))
    d.setStrata (fun s => { s with groups := kept ++ news.filter (fun n => !n.members.isEmpty), groupGen := BitVec.ofNat 32 (imgGeneration r),
                                   inState := .empty, genIn := 0 })

/-- Areas rotate, or CURRENT and PREVIOUS swap (R151, R156). -/
def Strata.rotate (s : Strata) (revert : Bool) : Strata :=
  if revert then
    { s with cur := s.prev, prev := s.cur, curValid := true, prevValid := s.curValid, genCur := s.genPrev, genPrev := s.genCur, reverted := true }
  else
    { s with prev := s.cur, cur := s.inc, inc := s.prev, prevValid := s.curValid, curValid := true, genPrev := s.genCur,
             genCur := s.genIn, genIn := 0, inState := .empty, reverted := false }

/-- The page table as MEMMAP and PARTITION of CURRENT make it (R176): pages that leave their owner are released (R199). -/
def Dev.writePages (d : Dev) (r : Reader) : Dev :=
  let rs := imgRegions r
  let stays := fun (pg c : Nat) => rs.any (fun v => fld v 5 0 == c && regionBase v ≤ pg && pg < regionBase v + regionSize v)
  let d := { d with pages := d.pages.map (fun (p : Nat × BitVec 16) =>
    if pageState p.2 == 1 && !stays p.1 (pageOwner p.2) then (p.1, releasedEntry p.2) else p) }
  d.each rs (fun d v => d.ownRegion v)

/-- A context as PARTITION of CURRENT has it (R147). -/
def Ctx.fromPartition (x : Ctx) (v : Nat) : Ctx :=
  if partValid v then
    { x with tileMask := BitVec.ofNat 64 (partTiles v), hostMask := BitVec.ofNat 4 (partHosts v), initPhase := partPhase v,
             phase := partPhase v, changing := false, state := if x.state == .unavailable then .free else x.state }
  else { x with tileMask := 0, hostMask := 0, initPhase := 0, phase := 0, changing := false, state := .unavailable }

/-- Firmware of CURRENT whose digest differs from what runs; after a revert, only where its SVN is not below the counter (R150,
R156). -/
def Dev.newFirmware (d : Dev) (r : Reader) (revert : Bool) : List Nat :=
  ((sectionsOf r 9).filter (fun s => (!revert || d.arb s.index ≤ s.svn) && ((mfind d.strata.firmware s.index).map (·.1)) != some (fwDigest r s))).map
    (·.index)

/-- Load what CURRENT gives, for the contexts it changes (Table 5.16, step 3). -/
def Dev.loadCurrent (d : Dev) (m : Mem) (cs : List Nat) (revert : Bool) : Dev :=
  let r := d.curReader m
  let was := cs.flatMap (fun c => (d.tilesOf c).map (fun t => (c, t)))
  let will := cs.flatMap (fun c => (maskTiles (imgTiles r c)).map (fun t => (c, t)))
  let d := d.each (was.filter (fun x => !will.contains x)) (fun d x => d.shareLeave x.1 x.2)
  let d := d.each (will.filter (fun x => !was.contains x)) (fun d x => d.shareJoin x.1 x.2)
  let was := was.map (·.2)
  let d := d.each cs (fun d c => d.setCtx c ((d.ctx c).fromPartition (imgPartition r c)))
  let d := d.each (was.filter (fun t => (d.ownerOf t).isNone)) (fun d t => d.setTile t { d.tile t with plane := none, shadow := none })
  let d := d.writePages r
  let d := d.each cs (fun d c => d.reloadTiles m (d.tilesOf c) (d.ctx c).phase)
  let d := { d with idModeNext := some (imgIdMode r) }
  let d := d.setStrata (fun s => { s with granule := BitVec.ofNat 3 (imgGranule r), groups := imgGroups r, groupGen := 0,
                                          activated := true, toLoad := d.newFirmware r revert })
  (d.each cs (fun d c => d.screeClear m c)).loadRoutes m cs

/-- An uncorrectable burst of the new CURRENT, as the operand or an earlier access gives it. -/
def Dev.badImage (d : Dev) (area : Nat) (bad : Option (BitVec 40)) : Option Nat :=
  let inArea := fun off => areaBase area ≤ off && off < areaBase area + 2 ^ 28
  match bad with
  | some off => if inArea off.toNat then some off.toNat else (d.badBursts.find? (fun b => inArea (32 * b))).map (32 * ·)
  | none => (d.badBursts.find? (fun b => inArea (32 * b))).map (32 * ·)

/-- ACTIVATION_SWAP (R155; Table 5.16, steps 3 and 4), or the abandonment of R158. -/
def xActivationSwap (bad : Option (BitVec 40)) : Effect := fun m d =>
  match d.strata.activating with
  | none => d
  | some a =>
    if !(a.changed.flatMap d.tilesOf).all (fun t => d.leftOut t || d.phaseEnd t) then d
    else
      let d := d.setStrata (fun s => { s with activating := none })
      match d.badImage (if a.revert then d.strata.prev else d.strata.inc) bad with
      | some off =>
        let d := (d.burstBad off).event [] 0x0A06 2 off 0 0
        let d := d.each a.changed (fun d c => d.setCtx c { d.ctx c with changing := false })
        d.each a.changed (fun d c => d.reloadTiles m (d.tilesOf c) (d.ctx c).phase)
      | none =>
        let d := (d.setStrata (fun s => s.rotate a.revert)).bump Reg.strataActivations
        let d := d.loadCurrent m a.changed a.revert
        d.event a.changed (if a.revert then 0x0A03 else 0x0A02) (if a.revert then 1 else 0) 0 d.strata.genCur.toNat 0

/-- A kind may load now (Table 5.13); HBM_TRAIN and PEQUA wait for a full recovery. -/
def Dev.mayLoadFirmware (d : Dev) (k : Nat) : Bool :=
  match k with
  | 1 => true
  | 2 => d.openings.all (fun o => o.ended || o.kind != 1)
  | 3 => (List.range 8).any (fun p => let s := (d.port p).state
      s == .detect || s == .pmaTrain || s == .laneLock || s == .param || s == .rtt || s == .repair)
  | _ => false

/-- A kind of CURRENT's firmware runs from now on. -/
def Dev.runFirmware (d : Dev) (m : Mem) (k : Nat) : Dev :=
  let r := d.curReader m
  let d := d.setStrata (fun s => { s with toLoad := s.toLoad.filter (· != k) })
  match (sectionsOf r 9).find? (fun s => s.index == k) with
  | none => d
  | some s => d.setStrata (fun x => { x with firmware := mset x.firmware k (fwDigest r s, BitVec.ofNat 16 s.svn) })

/-- FIRMWARE_LOAD (R150). -/
def xFirmwareLoad (k : Nat) : Effect := fun m d =>
  if d.strata.toLoad.contains k && d.mayLoadFirmware k then d.runFirmware m k else d

/-! Phase switches (Table 5.17). -/

/-- SHADOW_LOAD_COMPLETE (R162): every shadow plane of the context holds the target phase, from the section of its width (R164). -/
def xShadowLoadComplete (c : Nat) : Effect := fun m d =>
  match (d.ctx c).switch with
  | none => d
  | some w =>
    if w.shadowReady || !d.strata.curValid then d
    else
      let r := d.curReader m
      let d := d.each ((d.tilesOf c).filter (fun t => !d.leftOut t)) (fun d t =>
        match tileSection r t (d.tile t).width with
        | some s => d.setTile t { d.tile t with shadow := some (sectionPlane r s w.target) }
        | none => d)
      d.setCtx c { d.ctx c with switch := some { w with shadowReady := true } }

/-- The route stays through a switch: PERSIST, and present in the target phase (Table 5.17, step 3). -/
def routeStays (v target : Nat) : Bool := routePersist v && (routePhases v).testBit target

/-- Every cell of a route has been delivered and its credits are back; its bridge has written PROD for all of them (R163, R244). -/
def Dev.routeDrained (d : Dev) (m : Mem) (v : Nat) : Bool :=
  let s := routeStream v
  let hops := d.hopsNow m v
  hops.all (fun h => (d.serving h.1).all (fun i =>
      let x := d.module h.1 i
      mget 0 x.low.outstanding s == 0 && mget 0 x.high.outstanding s == 0))
    && d.stopped.all (fun x => x.stream != s || x.cells.isEmpty || hops.all (fun h => h.1 != x.link))
    && (!isBridge (routeDst v) ||
      (let b := mget {} d.bridges (bridgeNumber (routeDst v))
       b.stopped || (b.cells.isEmpty && b.prod == b.prodWritten)))

/-- Lateness in lt of a switch taken at `n` that ends now (R163): what lies beyond N + 2 µs, rounded up. -/
def Dev.lateness (d : Dev) (n : BitVec 64) : Nat := ceilDiv ((d.lode.count - n).toNat * (4 * d.lode.tick) - 2000) (4 * d.lode.tick)

/-- One tile at the swap: its shadow plane becomes active; a narrowed tile reloads, or stays HALTED (R164). -/
def Dev.swapTile (d : Dev) (m : Mem) (t target : Nat) : Dev :=
  let x := d.tile t
  if x.state == .retired || d.lost (dieOf t) then d
  else match x.shadow with
    | some p => if x.state == .halted then d.loadTile (d.curReader m) t target else d.activatePlane t p
    | none => d.loadTile (d.curReader m) t target

/-- PHASE_SWAP (R163): once taken, every unit is ready and the routes are drained. -/
def xPhaseSwap (c : Nat) : Effect := fun m d =>
  match (d.ctx c).switch with
  | none => d
  | some w =>
    match w.taken with
    | none => d
    | some n =>
      let ready := w.shadowReady && (d.tilesOf c).all (fun t => d.leftOut t || d.phaseEnd t)
      let routes := (d.liveRoutes m).filter (fun v => d.routeCtx v == some c && !routeStays v w.target)
      if !ready || !routes.all (d.routeDrained m) then d
      else
        let d := d.each (d.tilesOf c) (fun d t => d.swapTile m t w.target)
        let d := d.setCtx c { d.ctx c with phase := w.target, switch := none }
        let d := ((d.loadRoutes m [c]).bump Reg.strataSwitches).event [c] 0x0A09 0 c w.target 0
        if w.late then d.event [c] 0x0A0A 1 c (d.lateness n) 0 else d

/-- PHASE_SWITCH_LATE (R163): N + 2 µs has come. -/
def xPhaseSwitchLate (c : Nat) : Effect := fun _ d =>
  match (d.ctx c).switch with
  | none => d
  | some w =>
    match w.taken with
    | none => d
    | some n =>
      if w.late || (d.lode.count - n).toNat < 2000 / (4 * d.lode.tick) then d
      else (d.setCtx c { d.ctx c with switch := some { w with late := true } }).bump Reg.strataSwitchLate

/-! One meaning per command. -/

/-- STRATA_CTRL as a command of its register: CMD `cmd`, and SOURCE as it stands. -/
def strataWord (d : Dev) (cmd : Nat) : BitVec 32 := BitVec.ofNat 32 (setFld (d.reg Reg.strataCtrl).toNat 3 0 cmd)

def execStrataLoad (r : Requester) (mgmtBus : Bool) (s : State) : Host.Outcome State Fault Refusal :=
  let v := BitVec.ofNat 32 (setFld (strataWord s.dev 1).toNat 4 4 (if mgmtBus then 1 else 0))
  s.runReg r Reg.strataCtrl v (fun _ => true) (fun m d => d.strataCtrlWrite m r v)
def execStrataDiscard (r : Requester) (s : State) : Host.Outcome State Fault Refusal :=
  s.runReg r Reg.strataCtrl (strataWord s.dev 2) (fun _ => true) (fun m d => d.strataCtrlWrite m r (strataWord d 2))
def execStrataActivate (r : Requester) (s : State) : Host.Outcome State Fault Refusal :=
  s.runReg r Reg.strataCtrl (strataWord s.dev 3) (fun _ => true) (fun m d => d.strataCtrlWrite m r (strataWord d 3))
def execStrataRevert (r : Requester) (s : State) : Host.Outcome State Fault Refusal :=
  s.runReg r Reg.strataCtrl (strataWord s.dev 4) (fun _ => true) (fun m d => d.strataCtrlWrite m r (strataWord d 4))
def execStrataGroupApply (r : Requester) (s : State) : Host.Outcome State Fault Refusal :=
  s.runReg r Reg.strataCtrl (strataWord s.dev 5) (fun _ => true) (fun m d => d.strataCtrlWrite m r (strataWord d 5))
def execStrataFwCommit (r : Requester) (s : State) : Host.Outcome State Fault Refusal :=
  s.runReg r Reg.strataCtrl (strataWord s.dev 6) (fun _ => true) (fun m d => d.strataCtrlWrite m r (strataWord d 6))
def execStrataCancel (r : Requester) (s : State) : Host.Outcome State Fault Refusal :=
  s.runReg r Reg.strataCtrl (strataWord s.dev 7) (fun _ => true) (fun m d => d.strataCtrlWrite m r (strataWord d 7))
def execStrataFetchComplete (img : Option (List Byte)) (s : State) : Host.Outcome State Fault Refusal :=
  s.run (xStrataFetchComplete img)
def execStrataValidationComplete (s : State) : Host.Outcome State Fault Refusal := s.run xStrataValidationComplete
def execActivationSwap (bad : Option (BitVec 40)) (s : State) : Host.Outcome State Fault Refusal := s.run (xActivationSwap bad)
def execFirmwareLoad (kind : Fin 5) (s : State) : Host.Outcome State Fault Refusal := s.run (xFirmwareLoad (kind.val + 1))
def execShadowLoadComplete (c : Fin 64) (s : State) : Host.Outcome State Fault Refusal := s.run (xShadowLoadComplete c.val)
def execPhaseSwap (c : Fin 64) (s : State) : Host.Outcome State Fault Refusal := s.run (xPhaseSwap c.val)
def execPhaseSwitchLate (c : Fin 64) (s : State) : Host.Outcome State Fault Refusal := s.run (xPhaseSwitchLate c.val)

end Sys2Proof.Machine
end

