-- ==== Sys2Proof/Machine/Lodestone.lean ====
section
/-! DEFINITION. Lodestone commands (R246 to R256) and cairns (R257 to R265): arming, the tick edge, the actions of Table 8.4. -/

namespace Sys2Proof.Machine

/-! The control register (R247, R249, R254). -/

/-- Back to FREE_RUN, which reselects (R254, Table 8.2). A source keeps its role (log entry 74). -/
def Dev.resync (d : Dev) : Dev :=
  if d.lode.state == .source then d else Dev.seekParent { d with lode := { d.lode.leave .freeRun with invalid := 0 } }

/-- REBASE_ANY: the next acquisition may re-base backward; a package in CONFLICT returns to FREE_RUN. -/
def Dev.allowRebase (d : Dev) : Dev :=
  let d := { d with lode := { d.lode with rebaseAny := true } }
  if d.lode.state == .conflict then d.resync else d

def Dev.anyArmed (d : Dev) : Bool := d.cairns.any (fun x => x.2.state == .armed)

/-- A write of LODE_CTRL: TICK a multiple of 64 from 64 to 4,032, changed only in FREE_RUN with no slot ARMED; CLAIM_WAIT at least 8;
CMD not 0b11 (R247, R266). -/
def Dev.lodeCtrlWrite (d : Dev) (v : BitVec 32) : Dev :=
  let tick := fb v 23 12
  let cmd := fb v 30 29
  if cmd = 3 || tick % 64 != 0 || tick = 0 || fb v 11 0 < 8 then d
  else if tick != d.rf Reg.lodeCtrl 23 12 && (d.lode.state != .freeRun || d.anyArmed) then d
  else
    let d := d.putReg Reg.lodeCtrl v
    match cmd with
    | 1 => d.resync
    | 2 => d.allowRebase
    | _ => d

/-! Arming (R257, R258, R261). -/

/-- ARG of an action within its rule (Table 8.4); reserved actions, and those the package files itself, have none. -/
def argOk (action arg : Nat) : Bool :=
  match action with
  | 1 => arg < 8
  | 2 | 3 | 4 => arg < 65536
  | 5 | 9 => true
  | 6 => 1 ≤ arg && arg ≤ 2 ^ 20
  | 8 => arg == 0
  | _ => false

/-- A slot of the context is ARMED with an action at a count. -/
def Dev.armedAt (d : Dev) (c action n : Nat) : Bool :=
  (d.cairnsOf c).any (fun s => let x := d.cairn c s; x.state == .armed && x.action.toNat == action && x.lt.toNat == n)

/-- An ARM is refused (R258, R162). -/
def Dev.armRefused (d : Dev) (m : Mem) (c n arg action : Nat) : Bool :=
  !argOk action arg || (action == 5 && d.armedAt c 5 n) || (action == 1 && (d.armedAt c 1 n || (d.ctx c).switch.isSome
    || arg == (d.ctx c).phase || imgPhases (d.curReader m) ≤ arg))

/-- ARM of a slot that is not ARMED and has no barrier pending. -/
def Dev.cairnArm (d : Dev) (m : Mem) (c s : Nat) (v : BitVec 32) : Dev :=
  let n := d.reg64 (Reg.ctxCairnLtLo c s)
  let arg := (d.reg (Reg.ctxCairnArg c s)).toNat
  let action := fb v 7 0
  if d.armRefused m c n arg action then
    (d.setCairn c s { lt := BitVec.ofNat 64 n, arg := BitVec.ofNat 32 arg, action := BitVec.ofNat 8 action, policy := v.getLsbD 8,
                      evt := v.getLsbD 9 }).cairnSet c s .cancelled 0xB false
  else
    let d := d.armCairn c s n arg action (v.getLsbD 8) (v.getLsbD 9)
    if action == 1 && (d.cairn c s).state == .armed then
      d.setCtx c { d.ctx c with switch := some { target := arg, shadowReady := false, taken := none, late := false } }
    else d

/-- A write of CTX_CAIRN_CTRL_s (R257, R262). -/
def Dev.cairnCtrlWrite (d : Dev) (m : Mem) (c s : Nat) (v : BitVec 32) : Dev :=
  let x := d.cairn c s
  let cmd := fb v 31 30
  if cmd = 3 then d
  else if x.state == .armed then
    let d := d.setRf (Reg.ctxCairnCtrl c s) 31 30 cmd
    if cmd = 2 then d.cairnCancel c s 5 else d
  else if cmd = 1 && x.barrierAt.isSome then d
  else
    let d := d.putReg (Reg.ctxCairnCtrl c s) v
    if cmd = 1 then d.cairnArm m c s v
    else d.setCairn c s { x with action := BitVec.ofNat 8 (fb v 7 0), policy := v.getLsbD 8, evt := v.getLsbD 9 }

/-! Actions (Table 8.4). -/

/-- The step commit mark (R259). -/
def Dev.stepCommit (d : Dev) (m : Mem) (c arg : Nat) : Dev :=
  let d := d.setReg64 (Reg.ctxRngSeedActLo c) ((d.reg (Reg.ctxRngSeedLo c)).toNat + (d.reg (Reg.ctxRngSeedHi c)).toNat * 2 ^ 32)
  let d := d.setRegN (Reg.ctxUpdStep c) arg
  let d := d.shareSnapshot m c arg
  let (d, met) := d.commitEval c arg
  if met then d.commitOk m c arg else d

/-- COLL_START: a BUCKET that opens voids the slot copies of its gradients (R387). -/
def Dev.collStart (d : Dev) (m : Mem) (c id n : Nat) (evt : Bool) : Dev :=
  let d := d.collOpen m c id n evt false
  match d.openOf c id with
  | some o => if o.kind = 1 && o.seq == BitVec.ofNat 16 n then d.voidCopies m c id else d
  | none => d

/-- The fabric writes of a context that its router has accepted and that are not acknowledged (R264). -/
def Dev.writesOut (d : Dev) (c : Nat) : List Nat :=
  (d.tags.filter (fun t => t.port == fabricPort && t.ctx == c && (t.op == opWR || t.op == opBWR || t.op == opATOM))).map (·.tag)

/-- A BARRIER is taken (R264). -/
def Dev.barrierTaken (d : Dev) (c s n : Nat) : Dev :=
  let x := d.cairn c s
  d.setCairn c s { x with result := 8, barrierAt := some (BitVec.ofNat 64 (max (n + d.rf Reg.fabCtrl 23 12) d.now)), barrierTags := d.writesOut c }

/-- What a slot's action does at N. -/
def Dev.cairnAction (d : Dev) (m : Mem) (c s : Nat) : Dev :=
  let x := d.cairn c s
  let n := x.lt.toNat
  let arg := x.arg.toNat
  match x.action.toNat with
  | 0x10 => d.activateAt m false n
  | 0x11 => d.activateAt m true n
  | 0x12 => d.groupApplyAt m
  | 4 => d.bucketDeadline m c arg
  | 5 => d.stepCommit m c arg
  | 8 => d.barrierTaken c s n
  | 1 => (match (d.ctx c).switch with
      | some w => d.setCtx c { d.ctx c with switch := some { w with taken := some x.lt } }
      | none => d)
  | 2 => d.collOpen m c arg n x.evt true
  | 3 => d.collStart m c arg n x.evt
  | 6 => let d := d.windowEnds c
      d.setCtx c { d.ctx c with window := some (BitVec.ofNat 64 (n + arg), d.ras.score, d.lastingTotal) }
  | 9 => d.event [c] 0x0620 0 n arg 0
  | _ => d

/-- A slot is taken, ON_TIME or LATE, and its action begins (R260, R261). A slot that an earlier action has cancelled is not. -/
def Dev.cairnTake (d : Dev) (m : Mem) (c s : Nat) (late : Bool) : Dev :=
  if (d.cairn c s).state != .armed then d
  else
    let d := (d.bump Reg.lodeCairnTaken).bumpIf late Reg.lodeCairnLate
    (d.cairnSet c s .taken (if late then 2 else 1) true).cairnAction m c s

/-- The rank of an action (Table 8.4). -/
def cairnRank (action : Nat) : Nat :=
  match action with
  | 0x10 | 0x11 => 1
  | 0x12 => 2
  | 4 => 3
  | 5 => 4
  | 8 => 5
  | 1 => 6
  | 2 => 7
  | 3 => 8
  | 6 => 9
  | _ => 10

/-- The order in which slots are taken: N, rank, context, slot (R260, R261). -/
def cairnOrder (k : Nat) (x : Cairn) : Nat := ((x.lt.toNat * 16 + cairnRank x.action.toNat) * 64 + k / 64) * 64 + k % 64

def insertSlot (x : Nat × Cairn) : List (Nat × Cairn) → List (Nat × Cairn)
  | [] => [x]
  | y :: r => if cairnOrder x.1 x.2 ≤ cairnOrder y.1 y.2 then x :: y :: r else y :: insertSlot x r

def sortSlots : List (Nat × Cairn) → List (Nat × Cairn)
  | [] => []
  | x :: r => insertSlot x (sortSlots r)

/-- Take the slots due at an edge that moves the count from `a` to `b`: those at `b`, and LATE ones of before. Where the edge is a
re-base, every slot it passes is past (R261). -/
def Dev.takeCairns (d : Dev) (m : Mem) (a b : Nat) (rebase : Bool) : Dev :=
  let due := d.cairns.filter (fun x => x.2.state == .armed && (x.2.late || (a < x.2.lt.toNat && x.2.lt.toNat ≤ b)))
  d.each (sortSlots due) (fun d x =>
    let c := x.1 / 64
    let s := x.1 % 64
    if rebase && !x.2.late && !x.2.policy then (if (d.cairn c s).state == .armed then d.cairnSet c s .cancelled 4 false else d)
    else d.cairnTake m c s (x.2.late || rebase))

/-! The tick edge. -/

/-- What the time base does at every edge (R247, R249, R251, R253): counters of ticks, the new TICK, a source that gives up its claim,
the tick-marking IDLE blocks, an exchange every 4 ticks. -/
def Dev.edge (d : Dev) : Dev :=
  let l := d.lode
  let l := { l with silent := l.silent + 1, invalid := l.invalid - 1, tick := d.rf Reg.lodeCtrl 23 12,
                    parentSilent := if l.hasParent then l.parentSilent + 1 else 0,
                    lockedTicks := if l.state == .locked then l.lockedTicks + 1 else 0 }
  let d := { d with lode := l }
  let d := if d.lode.state == .source && !d.rb Reg.lodeCtrl 31 then d.toHoldover else d
  let d := { d with ports := d.ports.map (fun (p : Nat × FabPort) => if p.2.state.carries then (p.1, { p.2 with tickDue := true }) else p) }
  match d.lode.upPort with
  | some p => if d.lode.hasParent && d.now % 4 = 0 then d.sendLink p 1 (rttBytes 0 0) else d
  | none => d

/-- A re-base at the edge (R254): count and phase equal the parent's. A backward one cancels every ARMED slot. -/
def Dev.rebaseNow (d : Dev) (m : Mem) (count : BitVec 64) (phase : BitVec 18) : Dev :=
  let a := d.now
  let l := { d.lode with count := count, phase := phase, rebase := none, rebased := d.lode.rebased || decide (d.lode.exchanges < 8) }
  let d := (({ d with lode := l }).bump Reg.lodeRebases).event [] 0x0601 1 count.toNat 0 0
  if count.toNat < a then d.cairnsResetAll else d.takeCairns m a count.toNat true

/-- A port has come up or has failed its first attempt (Table 16.8, step 9); one that may not train is not waited for. -/
def Dev.portSettled (d : Dev) (p : Nat) : Bool :=
  let x := d.port p
  !d.portMayTrain p || x.state.carries || 1 ≤ x.failures || x.state == .failed || x.state == .miswired || x.state == .disabled

def Dev.hostSettled (d : Dev) (p : Nat) : Bool :=
  let x := d.host p
  !d.hostMayTrain p || x.up || x.state == .failed || x.state == .disabled

/-- START_PHASE becomes DONE once every port has settled, at the latest 1.5 s after LINKS (Table 16.8, steps 8 and 9). -/
def Dev.startDone (d : Dev) : Dev :=
  let late := 1500000000 ≤ (d.lode.count - d.pwr.linksAt).toNat * (4 * d.lode.tick)
  if d.bringUp == .links && (late || ((List.range 8).all d.portSettled && (List.range 4).all d.hostSettled)) then
    ({ d with bringUp := .done, pwr := { d.pwr with phase := 5 } }).resetRecord [] 4 (d.usSince 0)
  else d

/-- The tick edge (R246, R260). -/
def Dev.tickEdge (d : Dev) (m : Mem) : Dev :=
  if d.bringUp == .off then d
  else
    let d := match d.lode.rebase with
      | some (c, p) => d.rebaseNow m c p
      | none =>
        let a := d.now
        let d := { d with lode := { d.lode with count := d.lode.count + 1, phase := 0 } }
        d.takeCairns m a d.now false
    ((d.edge.pipeTick m).logTick m).startDone

/-- LODESTONE_TICK (R246). -/
def xLodestoneTick : Effect := fun m d => d.tickEdge m

/-- LODE_REBASE (R254): the edge at which a re-base is due. -/
def xLodeRebase : Effect := fun m d => if d.lode.rebase.isSome then d.tickEdge m else d

/-- SOURCE_CLAIM (R249). -/
def xSourceClaim : Effect := fun _ d =>
  if d.rb Reg.lodeCtrl 31 && d.rf Reg.lodeCtrl 11 0 ≤ d.lode.silent && (d.lode.state == .freeRun || d.lode.state == .holdover) then
    { d with lode := { d.lode.leave .source with src := BitVec.ofNat 23 d.node } }
  else d

/-- PARENT_SILENCE_TIMEOUT (R251). -/
def xParentSilenceTimeout : Effect := fun _ d => if 8 ≤ d.lode.parentSilent then d.loseParent else d

/-- HOLDOVER_INVALID_END (R251): the 8 ticks of LODE_VALID 0 are over. -/
def xHoldoverInvalidEnd : Effect := fun _ d => if d.lode.state == .holdover then d.seekParent else d

/-- BARRIER_CHECK (R264, R241). -/
def xBarrierCheck (c s : Nat) : Effect := fun _ d =>
  let x := d.cairn c s
  match x.barrierAt with
  | none => d
  | some n =>
    if d.now < n.toNat then d
    else
      let ok := x.barrierTags.isEmpty
      let d := d.setCairn c s { x with barrierAt := none, barrierTags := [] }
      (d.bumpIf (!ok) Reg.fabBarrierMiss).cairnSet c s .taken (if ok then 9 else 10) true

/-! One meaning per command. -/

def lodeWord (d : Dev) (cmd : Nat) : BitVec 32 := BitVec.ofNat 32 (setFld (d.reg Reg.lodeCtrl).toNat 30 29 cmd)

def execLodestoneTick (s : State) : Host.Outcome State Fault Refusal := s.run xLodestoneTick
def execSourceClaim (s : State) : Host.Outcome State Fault Refusal := s.run xSourceClaim
def execParentSilenceTimeout (s : State) : Host.Outcome State Fault Refusal := s.run xParentSilenceTimeout
def execHoldoverInvalidEnd (s : State) : Host.Outcome State Fault Refusal := s.run xHoldoverInvalidEnd
def execLodeRebase (s : State) : Host.Outcome State Fault Refusal := s.run xLodeRebase
def execLodeResync (r : Requester) (s : State) : Host.Outcome State Fault Refusal :=
  s.runReg r Reg.lodeCtrl (lodeWord s.dev 1) (fun _ => isCtx0 r) (fun _ d => (d.lodeCtrlWrite (lodeWord d 1), stOK))
def execLodeRebaseAny (r : Requester) (s : State) : Host.Outcome State Fault Refusal :=
  s.runReg r Reg.lodeCtrl (lodeWord s.dev 2) (fun _ => isCtx0 r) (fun _ d => (d.lodeCtrlWrite (lodeWord d 2), stOK))
def execLodeCtrlWrite (r : Requester) (v : BitVec 32) (s : State) : Host.Outcome State Fault Refusal :=
  s.runReg r Reg.lodeCtrl v (fun _ => isCtx0 r) (fun _ d => (d.lodeCtrlWrite v, stOK))

/-- CAIRN_ARM (R257): the write of CTX_CAIRN_CTRL_s with CMD ARM and the ACTION, POLICY and EVT of `v`. -/
def execCairnArm (r : Requester) (c slot : Fin 64) (v : BitVec 32) (s : State) : Host.Outcome State Fault Refusal :=
  let v := BitVec.ofNat 32 (setFld v.toNat 31 30 1)
  s.runReg r (Reg.ctxCairnCtrl c.val slot.val) v (fun d => d.mayWriteCtx r c.val) (fun m d => (d.cairnCtrlWrite m c.val slot.val v, stOK))

/-- CAIRN_CANCEL (R262): CMD CANCEL, the other fields as they stand. -/
def execCairnCancel (r : Requester) (c slot : Fin 64) (s : State) : Host.Outcome State Fault Refusal :=
  let v := BitVec.ofNat 32 (setFld (s.dev.reg (Reg.ctxCairnCtrl c.val slot.val)).toNat 31 30 2)
  s.runReg r (Reg.ctxCairnCtrl c.val slot.val) v (fun d => d.mayWriteCtx r c.val) (fun m d => (d.cairnCtrlWrite m c.val slot.val v, stOK))

def execBarrierCheck (c slot : Fin 64) (s : State) : Host.Outcome State Fault Refusal := s.run (xBarrierCheck c.val slot.val)

end Sys2Proof.Machine
end

