-- ==== Sys2Proof/Machine/Startup.lean ====
section
/-! DEFINITION. The bring-up of dies, links and roles (R26 to R41), cold start up to the wait for the bundle (Table 16.8), and the steps
of a package full recovery (Table 12.12). -/

namespace Sys2Proof.Machine

/-! Identity (R10, R33 to R35). -/

def Fuses.record (f : Fuses) (i : Nat) : BitVec 256 := f.dieId.toList.getD i 0

/-- CHECK of a die's identity record is right. -/
def Fuses.dieOk (f : Fuses) (i : Nat) : Bool := crc32 (toLE 24 (fb (f.record i) 191 0)) == fb (f.record i) 223 192

/-- CHECK of a package identity record is right. -/
def pkgIdOk (v : BitVec 128) : Bool := crc32 (toLE 14 (fb v 111 0)) % 65536 == fb v 127 112

/-- A field of a die's record as training takes it: 0 where its CHECK fails (R35). -/
def Fuses.field (f : Fuses) (i hi lo : Nat) : Nat := if f.dieOk i then fb (f.record i) hi lo else 0

def Fuses.dieType (f : Fuses) (i : Nat) : Nat := f.field i 123 120
def Fuses.archGen (f : Fuses) (i : Nat) : Nat := f.field i 135 128
def Fuses.minPeer (f : Fuses) (i : Nat) : Nat := f.field i 151 144
def Fuses.caps (f : Fuses) (i : Nat) : Nat := f.field i 191 160
def Fuses.half (f : Fuses) (i : Nat) : Bool := f.halfId.toList.getD i false
def Fuses.pos (f : Fuses) (i : Nat) : Bool := f.posId.toList.getD i false

/-- The number a compute die takes (R10). -/
def Fuses.dieNumber (f : Fuses) (i : Nat) : Nat := (if f.half i then 2 else 0) + (if f.pos i != f.half i then 1 else 0)

/-- The checks of R26 in the order of R27: 0 where all pass, else the number MIRROR_FENCED reports. -/
def Fuses.mirrorCheck (f : Fuses) : Nat :=
  firstFail [
    (3, f.dieOk 4 && f.dieOk 5), (1, f.dieType 4 == 2 && f.dieType 5 == 2), (2, f.half 4 != f.half 5),
    (4, fb f.pkgIdA 79 0 == fb f.pkgIdB 79 0), (5, f.minPeer 5 ≤ f.archGen 4 && f.minPeer 4 ≤ f.archGen 5)]

/-! Training (Table 1.11, steps 1 to 4). -/

/-- The modules of a link that trained enter service; CTL takes the lowest (R16). -/
def Dev.trainLink (d : Dev) (n : Nat) (trained half : BitVec 16) : Dev :=
  let d := d.each ((List.range (linkModules n)).filter (fun i => trained.getLsbD i && !(d.module n i).inService)) (fun d i =>
    d.setModule n i { inService := true, half := half.getLsbD i })
  { d with ctlModule := mset d.ctlModule n ((d.serving n).headD 0) }

def Dev.trainFrom (d : Dev) (o : BringUpOutcome) (n : Nat) : Dev := d.trainLink n (o.trained.toList.getD n 0) (o.half.toList.getD n 0)

/-- Bring-up stops for good (R28, R30, R476): no context, no port, no reset goes on. -/
def Dev.stopBringUp (d : Dev) (st : RoleState) : Dev :=
  { d with role := st, bringUp := .stopped, ctxs := [], hosts := [], ports := [], tags := [], ras := { d.ras with resets := [] } }

/-- Steps 1 to 4, in the mode `discover`: every die answers again, its PLLs lock, modules train. -/
def Dev.beginBringUp (d : Dev) (o : BringUpOutcome) (discover : Bool) : Dev :=
  let d := { d with outcome := some o, role := .training, idModeNow := discover, iaPresent := false, ibPresent := false, fenced := false,
                    fenceCause := 0, negGen := 0, iodGen := 0, cmpGen := 0, negCaps := 0, modules := [], ctlModule := [], stopped := [],
                    onAlternate := [], dies := (List.range 6).map (fun i => (i, ({ locked := true } : Die))) }
  if d.fuses.half 4 == d.fuses.half 5 then d.stopBringUp .roleConflict
  else
    let d := d.each (List.range 7) (fun d n => d.trainFrom o n)
    if o.sideband then d.trainFrom o 7 else d

/-- The mirror brought the sideband up by step 3 and, in DISCOVER mode, made the exchange (R26, R40). -/
def Dev.mirrorHere (d : Dev) (o : BringUpOutcome) : Bool := o.sideband && (!d.idModeNow || o.exchange)

/-! Roles and the negotiated set (Table 1.11, steps 5 and 6). -/

/-- IB is fenced (R27): C2, C3 and IB are kept down, no module to them stays in service. -/
def Dev.fence (d : Dev) (cause : Nat) : Dev :=
  let keep := fun (k : Nat) => (linkEnds (k / 16)).1 != 2 && (linkEnds (k / 16)).2 != 2 && (linkEnds (k / 16)).2 != 3 && (linkEnds (k / 16)).2 != 5
  let d := { d with fenced := true, fenceCause := cause, modules := d.modules.filter (fun (x : Nat × D2dModule) => keep x.1) }
  let d := { d with ctlModule := d.ctlModule.filter (fun (x : Nat × Nat) => keep (16 * x.1)) }
  d.event [] 0x0409 3 cause 0 0x45

/-- Dies that take part in training (R29). -/
def Dev.parts (d : Dev) : List Nat := if d.fenced then [0, 1, 4] else List.range 6

/-- The AND of the CAPS of the dies that take part. -/
def Dev.capsOf (d : Dev) : Nat := d.parts.foldl (fun a i => a &&& d.fuses.caps i) 0xFFFFFFFF

/-- The lowest ARCH_GEN among some dies. -/
def Dev.lowGen (d : Dev) (l : List Nat) : BitVec 8 := BitVec.ofNat 8 ((l.map d.fuses.archGen).foldl min 255)

/-- R30: BASE is missing, or a die is older than another accepts. -/
def Dev.incompatible (d : Dev) : Bool :=
  !d.capsOf.testBit 0 || d.parts.any (fun i => d.parts.any (fun j => i != j && d.fuses.archGen i < d.fuses.minPeer j))

/-- A compute die's links to its neighbour compute die and to its I/O die (R41). -/
def ownLinks (i : Nat) : List Nat := if i = 0 then [0, 3] else if i = 1 then [0, 4] else if i = 2 then [1, 5] else [1, 6]

/-- Publish the negotiation; modules at x32 leave service without HALF_WIDTH; dies without links are isolated (R29, R41). -/
def Dev.publish (d : Dev) : Dev :=
  let caps := BitVec.ofNat 32 d.capsOf
  let d := { d with negCaps := caps, negGen := d.lowGen d.parts, iodGen := d.lowGen (d.parts.filter (4 ≤ ·)),
                    cmpGen := d.lowGen (d.parts.filter (· < 4)) }
  let d := if d.cap 2 then d else { d with modules := d.modules.map (fun (x : Nat × D2dModule) =>
    if x.2.half then (x.1, ({} : D2dModule)) else x) }
  let d := { d with ctlModule := d.ctlModule.map (fun (x : Nat × Nat) => (x.1, (d.serving x.1).headD 0)) }
  d.each ((d.parts.filter (· < 4)).filter (fun i => (ownLinks i).all (fun n => (d.serving n).isEmpty)))
    (fun d i => d.setDie i { d.die i with isolated := true })

/-- DEV_ROLE.STATE as RAS_DEGRADED has it (R377). -/
def Dev.settleRole (d : Dev) : Dev :=
  let d := ({ d with role := .ready }).noteDegraded
  let w := d.degradedWord
  { d with role := if w % 16 != 0 || w.testBit 7 || w.testBit 8 then .degraded else .ready }

/-- Steps 5 and 6. -/
def Dev.takeRoles (d : Dev) : Dev :=
  let trained := !(d.serving 7).isEmpty
  let d := { d with iaPresent := trained, ibPresent := trained }
  let d := match d.outcome with
    | none => d
    | some o =>
      if !trained || (d.idModeNow && !o.exchange) then d.fence 0
      else if d.idModeNow && d.fuses.mirrorCheck != 0 then d.fence d.fuses.mirrorCheck
      else d
  if (d.parts.filter (· < 4)).any (fun i => d.fuses.dieNumber i != i) then d.stopBringUp .roleConflict
  else if d.incompatible then d.stopBringUp .genIncompatible
  else d.publish.settleRole

/-! Cold start after the roles (Table 16.8, steps 3 and 4; Table 15.2, steps 1 to 3). -/

/-- The array map of R71 and the spare rows of R187, as the self-test finds them. -/
def Dev.selfTest (d : Dev) (m : Mem) (o : BringUpOutcome) (t : Nat) : Dev :=
  let bad := mget 0 o.colsFused t ||| mget 0 o.colsBad t
  let x := d.tile t
  let spares := (o.sparesFused.filter (fun (s : Nat × Nat) => s.1 / 64 == t)).map (fun (s : Nat × Nat) => (s.1 % 64, min 2 s.2))
  let d := d.setTile t { x with sparesFused := spares }
  if 8 < popcount bad.toNat 32 then d.retireTile m t 0xFE
  else if bad = 0 then d
  else d.setTile t { d.tile t with bypass := bad }

def Dev.coldOn (d : Dev) (m : Mem) (o : BringUpOutcome) : Dev :=
  let d := d.each ((List.range 64).filter (fun t => !d.lost (dieOf t))) (fun d t => d.selfTest m o t)
  let d := (d.beginClear (List.range 64)).noteDegraded
  if !o.selfTest then { d with bringUp := .stopped, sec := { d.sec with state := .failed } }
  else { d with bringUp := .waitBundle, pwr := { d.pwr with phase := 1 },
                sec := { d.sec with state := .waitBundle, mldsaReady := pkgIdOk d.fuses.pkgIdA } }

/-! Full recovery (Table 12.12). -/

/-- Step 2 on a fabric port; its keys are discarded (R448), a FAILED port tries again (Table 7.7). -/
def Dev.recoverPort (d : Dev) (p : Nat) : Dev :=
  let d := d.setPort p { d.port p with queues := [], rx := [] }
  let x := d.port p
  let d := if x.state.locked then d.sendBlock p 2 7 rCommand else d
  let d := d.stopPort p .down 0
  let d := d.setPort p { state := if x.state == .disabled then .disabled else .down, detects := x.detects }
  if x.state.carries then d.event [] 0x0515 2 p rCommand 0 else d

/-- Step 2 on a host port. -/
def Dev.recoverHost (d : Dev) (p : Nat) : Dev :=
  let x := d.host p
  if x.state == .disabled || x.state == .down then d
  else (if x.state.hasL0 then d.sendCtrl p (hostDownMsg 2) else d).hostDown p .down

/-- Step 1 is over: steps 2 to 4, as far as the mirror lets them go. -/
def Dev.recoverLinks (d : Dev) (r : ResetRun) : Dev :=
  let d := d.each (List.range 8) (fun d p => d.recoverPort p)
  let d := d.each (List.range 4) (fun d p => d.recoverHost p)
  let d := { d.retireTags (fun t => t.port == fabricPort) with localOut := [], inbox := [], inGroups := [], outGroups := [], pushes := [] }
  let d := d.each (d.sec.mailboxes.map (·.1)) (fun d m => d.mailboxError m 4)
  let d := { d with bringUp := .waitMirror, pwr := { d.pwr with state := .run } }
  match r.outcome with
  | none => d
  | some o => d.beginBringUp o (d.idModeNext.getD d.idModeNow)

/-- Step 5: stacks retrain, soft repairs become hard (R171, R196). -/
def Dev.trainStacks (d : Dev) (o : StackOutcome) : Dev :=
  d.each ((List.range 16).filter (fun i => !d.lost (i / 4))) (fun d i =>
    let x := d.stack i
    if o.fast.getLsbD i then d.setStack i { x with state := 2, rate := false }
    else if o.slow.getLsbD i then d.setStack i { x with state := 2, rate := true }
    else d.setStack i { x with state := 3, rate := false })

def Dev.hardenRepairs (d : Dev) : Dev :=
  d.each (List.range 16) (fun d i =>
    let x := d.stack i
    if x.soft.isEmpty then d else (d.bumpN (Reg.memPprHard (i / 4) (i % 4)) x.soft.length).setStack i { x with soft := [] })

/-- A burst of [a, a + n) is uncorrectable. -/
def Dev.badIn (d : Dev) (a n : Nat) : Bool := d.badBursts.any (fun b => 32 * b < a + n && a < 32 * b + 32)

/-- An image area reads and its CRCs and signatures hold. -/
def Dev.areaHolds (d : Dev) (m : Mem) (q : Nat) : Bool :=
  !d.quarterOut q && !d.badIn (areaBase q) (2 ^ 28) && d.imageHolds (areaReader m d q)

/-- The GROUP area of the lowest quarter in service cannot be read (R160). -/
def Dev.groupBad (d : Dev) : Bool := match d.areasIn.head? with | some q => d.badIn (areaBase q + 0x14000000) 0x2000000 | none => false

/-- Step 6: CURRENT is checked again (R158), and the GROUP area (R160). -/
def Dev.recheck (d : Dev) (m : Mem) : Dev :=
  let s := d.strata
  if !s.curValid then d
  else if d.areaHolds m s.cur then
    if d.groupBad then (d.setStrata (fun s => { s with groups := imgGroups (d.curReader m), groupGen := 0 })).pkgEvent 0x0A08 2 0 0 else d
  else if s.prevValid && d.areaHolds m s.prev then
    let cs := changedCtxs (d.curReader m) (d.prevReader m)
    let d := (d.setStrata (fun s => s.rotate true)).loadCurrent m cs true
    d.event cs 0x0A03 1 0 d.strata.genCur.toNat 0
  else
    let d := d.setStrata (fun s => { s with curValid := false, genCur := 0, groups := [], groupGen := 0 })
    let d := d.each d.liveCtxs (fun d c => d.setCtx c { (d.ctx c).fromPartition 0 with runs := [] })
    let d := d.each (List.range 64) (fun d t => d.setTile t { d.tile t with plane := none, shadow := none })
    d.pkgEvent 0x0A07 3 0 0

/-- The test lock is released at the full recovery after an unlock (R451). -/
def Dev.releaseLock (d : Dev) : Dev :=
  if d.sec.unlockPending then { d with sec := { d.sec with testLock := false, unlockPending := false } } else d

/-- Steps 5 to 8, once the links stand. -/
def Dev.recoverEnd (d : Dev) (m : Mem) (r : ResetRun) (o : BringUpOutcome) : Dev :=
  let d := (d.trainStacks o.hbmTrain).hardenRepairs
  let d := d.each (d.strata.toLoad.filter (fun k => k == 4 || k == 5)) (fun d k => d.runFirmware m k)
  let d := d.recheck m
  let d := if d.strata.curValid then (d.writePages (d.curReader m)).loadRoutes m d.liveCtxs else d
  let d := { d.releaseLock with bringUp := .done }
  (d.resetEnds m r).settleRole

/-- A full recovery whose step 1 has ended goes on. -/
def Dev.recoveryGoes (d : Dev) (m : Mem) : Dev :=
  match d.ras.resets.find? (fun r => r.scope == 3) with
  | none => d
  | some r =>
    if r.sampling || d.bringUp != .done || (d.coveredTiles r).any d.tileBusy then d
    else
      let d := d.recoverLinks r
      match r.outcome with
      | none => d
      | some o => if d.bringUp == .stopped || !d.mirrorHere o then d
        else
          let d := d.takeRoles
          if d.bringUp == .stopped then d else d.recoverEnd m r o

/-- A full recovery is requested (R376, Tables 12.14 and 16.9). -/
def Dev.recoverRequest (d : Dev) (m : Mem) (o : BringUpOutcome) : Dev :=
  if d.lost 4 || d.bringUp != .done || d.pwr.state == .tripped || d.ras.resets.any (fun r => r.scope == 3) then d
  else ((d.computeReset m 3 (some o)).cairnsResetAll).recoveryGoes m

/-! Cold start. -/

/-- Steps 5 and 6 after the wait for the mirror, and what follows them. -/
def Dev.finishBringUp (d : Dev) (m : Mem) : Dev :=
  let d := d.takeRoles
  if d.bringUp == .stopped then d
  else match d.outcome with
    | none => d
    | some o =>
      match d.ras.resets.find? (fun r => r.scope == 3) with
      | some r => d.recoverEnd m r o
      | none => d.coldOn m o

/-- COLD_START (R471): the release of PKG_RESET_N. -/
def xColdStart (o : BringUpOutcome) : Effect := fun m d =>
  if d.bringUp != .off then d
  else
    let d := { d.beginBringUp o o.idMode with idModeNext := none }
    if d.bringUp == .stopped then d
    else
      let d := { d with bringUp := .waitMirror }
      if d.mirrorHere o then d.finishBringUp m else d

/-- MIRROR_SIDEBAND_UP (R40): link 7 trains, and in DISCOVER mode the exchange is made. -/
def xMirrorSidebandUp (x : MirrorOutcome) : Effect := fun m d =>
  if d.bringUp != .waitMirror then d
  else match d.outcome with
    | none => d
    | some o =>
      let o := { o with sideband := true, exchange := o.exchange || x.exchange }
      let d := ({ d with outcome := some o }).trainLink 7 x.trained x.half
      if d.mirrorHere o then d.finishBringUp m else d

/-- MIRROR_WAIT_EXPIRY (R27): 200 ms have passed. -/
def xMirrorWaitExpiry : Effect := fun m d => if d.bringUp == .waitMirror then d.finishBringUp m else d

/-- PKG_RESET_LOW (R460, Table 16.9): everything but the fuses and their blown bits is lost; what L of R438 will be (R451). -/
def execPkgResetLow (s : State) : Host.Outcome State Fault Refusal :=
  .next { State.reset with
    dev := { State.reset.dev with fuses := s.dev.fuses, sec := { State.reset.dev.sec with wasUnlocked := !s.dev.sec.testLock } }
    pending := s.pending }

def execColdStart (o : BringUpOutcome) (s : State) : Host.Outcome State Fault Refusal := s.run (xColdStart o)
def execMirrorSidebandUp (o : MirrorOutcome) (s : State) : Host.Outcome State Fault Refusal := s.run (xMirrorSidebandUp o)
def execMirrorWaitExpiry (s : State) : Host.Outcome State Fault Refusal := s.run xMirrorWaitExpiry

end Sys2Proof.Machine
end

