-- ==== Sys2Proof/Machine/Dies.lean ====
section
/-! DEFINITION. The commands of dies and die-to-die links after start-up: cells received and sent (R14 to R21), lane errors (R357,
R358), the reference clock (R38), a die lost while the others run (R22, R376, Table 12.13). -/

namespace Sys2Proof.Machine

/-! Cells. -/

/-- Roles are taken: every cell class is open (Table 1.11, step 6). -/
def Dev.open_ (d : Dev) : Bool := d.role == .ready || d.role == .degraded

/-- A module passes cells: in FORWARD links 0 to 6 keep only the sideband (Table 16.6). -/
def Dev.cellsPass (d : Dev) (n m : Nat) : Bool := (d.module n m).inService && !(d.pwr.state == .forward && n != 7)

/-- A cell that fails its check, or does not follow in order: it and every later one are discarded until the sender replays, go-back-N
from the cell after ACK (R15). -/
def Dev.refuseCell (d : Dev) (n m : Nat) (high : Bool) : Dev :=
  let x := d.module n m
  let here := x.endAt high
  if here.discarding then d
  else
    let far := x.endAt (!high)
    let x := x.withEnd high { here with discarding := true }
    d.setModule n m (x.withEnd (!high) { far with toReplay := far.unacked.length })

/-- A raw stream that ends at a stream bridge on the far side of link `n` (R244). -/
def Dev.toBridge (d : Dev) (m : Mem) (n s : Nat) : Bool :=
  (d.liveRoutes m).any (fun v => routeStream v == s && isBridge (routeDst v) && (d.hopsNow m v).getLast?.any (fun h => h.1 == n))

/-- A cell in order is accepted and delivered. A RAW cell's credit is owed to its sender (R18), for a bridge once it takes the cell; a CTL cell carries the counts that
let the streams stopped at this end go on (R20, log entry 9). -/
def Dev.acceptCell (d : Dev) (m : Mem) (n i : Nat) (high : Bool) (cell : BitVec 640) : Dev :=
  let x := d.module n i
  let e := (x.endAt high).acknowledge cell
  let s := cellStream cell
  let raw := cellClass cell == 4
  let bridge := raw && d.toBridge m n s
  let e := { e with rxSeq := BitVec.ofNat 16 (cellSeq cell), discarding := false,
                    rxRaw := if raw then mupd 0 e.rxRaw s (· + 1) else e.rxRaw,
                    held := if bridge then mupd 0 e.held s (· + 1) else e.held,
                    owed := if raw && !bridge then mupd 0 e.owed s (· + 1) else e.owed }
  let d := (d.setModule n i (x.withEnd high e)).emit (.d2dDelivered n i high cell)
  if cellClass cell != 1 then d
  else
    let (mine, rest) := d.stopped.partition (fun s => s.link == n && s.fromHigh == high)
    ({ d with stopped := rest }).each mine (fun d s => d.resumeStream m s)

/-- D2D_CELL_RECEIVE (R14, R15): the end of a module at `high` receives a cell. -/
def xD2dCellReceive (n i : Nat) (high : Bool) (cell : BitVec 640) : Effect := fun m d =>
  let x := d.module n i
  let e := x.endAt high
  let cls := cellClass cell
  if !d.cellsPass n i then d
  else if !cellCrcOk cell || 8 ≤ cls then d.refuseCell n i high
  else if !linkCarries n cls || (2 ≤ cls && !d.open_) then d
  else if cls = 0 then
    (if e.discarding then d else d.setModule n i (x.withEnd high (e.acknowledge cell)))
  else if cellSeq cell = (e.rxSeq + 1).toNat then d.acceptCell m n i high cell
  else if e.discarding then d
  else if (e.rxSeq.toNat + 65536 - cellSeq cell) % 65536 < 32768 then d.setModule n i (x.withEnd high (e.acknowledge cell))
  else d.refuseCell n i high

/-- D2D_CELL_SEND (R15): the next cell of a replay, or a new cell when the replay buffer and the credits allow it. -/
def xD2dCellSend (n i : Nat) (high : Bool) (q : CellRequest) : Effect := fun _ d =>
  if !d.cellsPass n i then d
  else if 0 < ((d.module n i).endAt high).toReplay then d.replayCell n i high
  else if d.maySend n i high q then d.sendCell n i high q
  else d

/-- D2D_LANE_PARITY_ERROR (R357): charged to the lane's bucket; loss of lane lock is uncorrectable (Table 12.2). -/
def xD2dLaneParityError (n i : Nat) (up : Bool) (lane : Nat) (lockLost : Bool) : Effect := fun m d =>
  if !(d.module n i).inService then d
  else
    let die := if up then (linkEnds n).2 else (linkEnds n).1
    let u := d2dLaneUnit n i lane die
    let (d, lasting) := d.charge 4 u lockLost (d.linkCtxs m n) 0
    if !lasting then d
    else if d.resetCovers 4 u then d.defer 4 u
    else d.laneFault m n i up lane

/-! A die lost (Table 12.13). -/

/-- Every module of a link to a lost die leaves service (R16, R20, R21). -/
def Dev.linkLost (d : Dev) (m : Mem) (n : Nat) : Dev :=
  let mods := d.serving n
  let d := d.each mods (fun d i =>
    let x := d.module n i
    let d := d.setModule n i { x with inService := false, half := false, low := { rxRaw := x.low.rxRaw }, high := { rxRaw := x.high.rxRaw } }
    let d := { d with stopped := d.stopped ++ stoppedOf n i false x.low ++ stoppedOf n i true x.high }
    let d := d.each ((x.low.unacked ++ x.high.unacked).filter (fun c => cellClass c == 2)) (fun d c => d.emit (.meshLost n i c))
    d.noteLink)
  if mods.isEmpty then d else ({ d with ctlModule := mset d.ctlModule n 0 }).reroute m n

/-- Engines that go with a die (R267). -/
def enginesOf (i : Nat) : List Nat := if i < 4 then [i] else if i = 4 then [0, 1] else [2, 3]

/-- Collective engines leave service: the openings that hold words there have lost them (Table 9.12). -/
def Dev.enginesLost (d : Dev) (i : Nat) : Dev :=
  { d with openings := d.openings.map (fun o => if o.engines.any (enginesOf i).contains then { o with engineLost := true } else o) }

/-- A unit of a pipeline that lies on a lost die: its stage and unit. -/
def Ctx.unitsOn (x : Ctx) (i : Nat) : Option (Nat × Nat) :=
  ((List.range 16).findSome? (fun k => x.unitOf (16 * i + k)))

/-- A pipeline with a unit on the die goes to FAULT (R324). -/
def Dev.pipeOnDie (d : Dev) (i c : Nat) : Dev :=
  let x := d.ctx c
  match x.unitsOn i with
  | none => d
  | some (v, u) =>
    if x.pipe.state == .fault then d
    else
      let s := x.stage v
      let item := if u = 0 then s.fwdItem else if u = 1 then s.bwdItem else s.updItem
      let d := d.setCtx c { x with pipe := { x.pipe with state := .fault } }
      d.event [c] 0x0804 2 v (match item with | some k => k.mb.toNat | none => 0) 0

/-- Runs that hold a tile of the die complete with ERROR DIE_ABSENT. -/
def Dev.runsOnDie (d : Dev) (i c : Nat) : Dev :=
  d.each ((d.ctx c).runs.filter (fun r => r.op == 1 && r.state == .running && (maskTiles r.tileMask).any (fun t => dieOf t == i)))
    (fun d r => d.stopRun c r.seq 3 0x0401 (0x40 + i) i 0)

/-- A compute die is gone: its tiles' copies end PARTIAL and its clears are over (Table 12.14), runs and pipelines end. -/
def Dev.computeDieLost (d : Dev) (m : Mem) (i : Nat) : Dev :=
  let ts := (List.range 16).map (16 * i + ·)
  let d := d.each (List.range 64) (fun d c => (d.runsOnDie i c).pipeOnDie i c)
  let d := d.each ts (fun d t => if (d.tile t).clearing then d.setTile t { d.tile t with clearing := false } else d)
  let copies := ts.filter (fun t => (mget {} d.ras.samples t).copying)
  let d := d.each copies (fun d t => d.cutSample m t)
  if copies.isEmpty || d.ras.samples.any (fun (s : Nat × Sample) => s.2.copying) then d else d.sampleDone m

/-- An I/O die is gone: its fabric and host ports go down, and what its routers held is lost; with IA every pipeline stops. -/
def Dev.ioDieLost (d : Dev) (i : Nat) : Dev :=
  let h := i - 4
  let d := d.each ((List.range 4).map (4 * h + ·)) (fun d p =>
    if (d.port p).state == .disabled then d
    else (d.setPort p { d.port p with queues := [], rx := [] }).portDown p 0 false)
  let d := d.each ((List.range 2).map (2 * h + ·)) (fun d p =>
    let x := d.host p
    if x.state == .disabled || x.state == .down then d else d.hostDown p .down)
  let d := { d with inGroups := d.inGroups.filter (fun g => g.die != i) }
  if i != 4 then d
  else d.each (List.range 64) (fun d c =>
    let x := d.ctx c
    if x.pipe.state == .running then d.setCtx c { x with pipe := { x.pipe with state := .stopped } } else d)

/-- The consequences of losing die `i`, which is marked lost already (Table 12.13). -/
def Dev.dieLost (d : Dev) (m : Mem) (i : Nat) : Dev :=
  let d := d.each (linksOf i) (fun d n => d.linkLost m n)
  let d := if i < 4 then d.computeDieLost m i else d.ioDieLost i
  let d := (d.enginesLost i).noteDegraded
  (d.endResets m).recoveryGoes m

/-- Mark a die lost by `f`, record it, and follow Table 12.13 unless the die was out of reach already. -/
def Dev.loseDie (d : Dev) (m : Mem) (i code : Nat) (f : Die → Die) : Dev :=
  let was := d.lost i
  let d := (d.setDie i (f (d.die i))).dieEvent i code 3 i 0
  if was then d.noteDegraded else d.dieLost m i

/-- A neighbour on a link is declared absent (R22). -/
def Dev.declareAbsent (d : Dev) (m : Mem) (n i : Nat) : Dev :=
  if !d.open_ || !(linksOf i).contains n || (d.serving n).isEmpty || (d.die i).absent || d.lost (otherEnd n i) then d
  else d.loseDie m i 0x0401 (fun x => { x with absent := true })

/-- D2D_HEARTBEAT_TIMEOUT (R22): four sideband heartbeats in a row have been missed. -/
def xD2dHeartbeatTimeout (n i : Nat) : Effect := fun m d => d.declareAbsent m n i

/-- D2D_FORWARDED_CLOCK_LOSS (R22): the forwarded clock is lost on every module of the link. In FORWARD links 0 to 6 run none. -/
def xD2dForwardedClockLoss (n i : Nat) : Effect := fun m d =>
  if d.pwr.state == .forward && n != 7 then d else d.declareAbsent m n i

/-! The reference clock (R38). -/

/-- A die whose PLLs run. -/
def Dev.clocked (d : Dev) (i : Nat) : Bool := d.bringUp != .off && (d.die i).locked && !(d.die i).clockLost

/-- The clock-lost state. -/
def clockLostDie (x : Die) : Die := { x with clockLost := true, locked := false, holdover := false }

/-- REF_CLOCK_INTERRUPT: holdover begins. -/
def xRefClockInterrupt (i : Nat) : Effect := fun _ d => if d.clocked i then d.setDie i { d.die i with holdover := true } else d

/-- REF_CLOCK_RESTORE: the interruption of `ns` ns, at most 10 µs, is over and recorded. -/
def xRefClockRestore (i ns : Nat) : Effect := fun _ d =>
  if !(d.die i).holdover || 10000 < ns then d
  else (d.setDie i { d.die i with holdover := false }).dieEvent i 0x0407 1 i ns

/-- CLOCK_LOST: the interruption has lasted longer than 10 µs. -/
def xClockLost (i : Nat) : Effect := fun m d => if (d.die i).holdover then d.loseDie m i 0x0408 clockLostDie else d

/-- PLL_LOCK_LOSS: some PLL of the die has lost lock. -/
def xPllLockLoss (i : Nat) : Effect := fun m d => if d.clocked i then d.loseDie m i 0x0408 clockLostDie else d

def execD2dCellReceive (x : D2dId) (atHigh : Bool) (cell : BitVec 640) (s : State) : Host.Outcome State Fault Refusal :=
  s.run (xD2dCellReceive x.link x.module atHigh cell)
def execD2dCellSend (x : D2dId) (fromHigh : Bool) (q : CellRequest) (s : State) : Host.Outcome State Fault Refusal :=
  s.run (xD2dCellSend x.link x.module fromHigh q)
def execD2dLaneParityError (x : D2dId) (up : Bool) (lane : Fin 68) (lockLost : Bool) (s : State) : Host.Outcome State Fault Refusal :=
  s.run (xD2dLaneParityError x.link x.module up lane lockLost)
def execD2dHeartbeatTimeout (n : Fin 8) (i : Fin 6) (s : State) : Host.Outcome State Fault Refusal := s.run (xD2dHeartbeatTimeout n i)
def execD2dForwardedClockLoss (n : Fin 8) (i : Fin 6) (s : State) : Host.Outcome State Fault Refusal := s.run (xD2dForwardedClockLoss n i)
def execRefClockInterrupt (i : Fin 6) (s : State) : Host.Outcome State Fault Refusal := s.run (xRefClockInterrupt i)
def execRefClockRestore (i : Fin 6) (ns : BitVec 32) (s : State) : Host.Outcome State Fault Refusal := s.run (xRefClockRestore i ns.toNat)
def execClockLost (i : Fin 6) (s : State) : Host.Outcome State Fault Refusal := s.run (xClockLost i)
def execPllLockLoss (i : Fin 6) (s : State) : Host.Outcome State Fault Refusal := s.run (xPllLockLoss i)

end Sys2Proof.Machine
end

