-- ==== Sys2Proof/Machine/Power.lean ====
section
/-! DEFINITION. Power and thermal management (R462 to R473): tile-clock levels, the limit loop, the fast cap, throttle and trip, power
states, the start-up window's end. -/

namespace Sys2Proof.Machine

/-! Levels (R462, R463). -/

/-- VCORE of a level in mV (Table 16.5). -/
def levelMv (l : Nat) : Nat := [580, 600, 620, 640, 660, 680, 690, 700, 740].getD l 740

/-- The voltage set for a level of die `q`: its fused offset adds (R462). -/
def Dev.setPoint (d : Dev) (q l : Nat) : Nat := ((levelMv l : Int) + signed 8 (d.fuses.vOffset.toList.getD q 0).toNat).toNat

def Dev.levelReq (d : Dev) (q : Nat) : Nat := d.rf (Reg.pwrDvfsCtrl q) 3 0

/-- The effective level of a die: the lowest of the four (R463). -/
def Dev.effectiveLevel (d : Dev) (q : Nat) : Nat :=
  min (min (d.levelReq q) (d.diePower q).limit) (min (if d.pwr.capLow then 0 else 8) (d.diePower q).thermal)

/-- Every array pipeline of a die is empty. -/
def Dev.pipesEmpty (d : Dev) (q : Nat) : Bool := (List.range 16).all (fun i => (d.tile (16 * q + i)).pipe.isEmpty)

def Dev.avs (d : Dev) (q mv : Nat) : Dev := d.emit (.avs q (BitVec.ofNat 10 mv))

/-- TCLK of a die changes to level `l`. -/
def Dev.setLevel (d : Dev) (q l : Nat) : Dev := (d.setDiePower q { d.diePower q with level := l }).bump Reg.pwrDvfsSteps

/-- DVFS_STEP (R463), with VCORE as the regulator reads it back: up, VCORE is raised first and TCLK follows the read-back; down, TCLK
changes first. -/
def xDvfsStep (q mv : Nat) : Effect := fun _ d =>
  let d := d.setDiePower q { d.diePower q with mv := BitVec.ofNat 10 mv }
  let l := d.effectiveLevel q
  let x := d.diePower q
  if d.pwr.state != .run || d.lost q || d.bringUp == .off || l == x.level then d
  else if x.level < l then
    if mv < d.setPoint q l then d.avs q (d.setPoint q l)
    else if d.pipesEmpty q then d.setLevel q l else d
  else if d.pipesEmpty q then (d.setLevel q l).avs q (d.setPoint q l) else d

/-- A write of PWR_DVFS_CTRL_c: LEVEL_REQ is 0 to 8. -/
def Dev.dvfsWrite (d : Dev) (q : Nat) (v : BitVec 32) : Dev := if fb v 3 0 ≤ 8 then d.putReg (Reg.pwrDvfsCtrl q) v else d

/-! The limit loop and the fast cap (R464, R465). -/

def Dev.eachLimit (d : Dev) (f : Nat → Nat) : Dev :=
  d.each (List.range 4) (fun d q => d.setDiePower q { d.diePower q with limit := f (d.diePower q).limit })

/-- LIMIT_LOOP (R464), with the 1 ms average of PWR_PKG_POWER. -/
def xLimitLoop (watts : BitVec 12) : Effect := fun _ d =>
  let d := { d with pwr := { d.pwr with watts := watts } }
  let limit := d.rf Reg.pwrLimit 11 0
  if !d.rb Reg.pwrLimit 31 then d
  else if limit < watts.toNat then ({ d with pwr := { d.pwr with lowRuns := 0 } }).eachLimit (· - 1)
  else if watts.toNat * 100 < limit * 98 then
    if 10 ≤ d.pwr.lowRuns + 1 then ({ d with pwr := { d.pwr with lowRuns := 0 } }).eachLimit (fun l => min 8 (l + 1))
    else { d with pwr := { d.pwr with lowRuns := d.pwr.lowRuns + 1 } }
  else { d with pwr := { d.pwr with lowRuns := 0 } }

/-- A write of PWR_LIMIT: LIMIT is 1,000 to 3,600. -/
def Dev.limitWrite (d : Dev) (v : BitVec 32) : Dev := if 1000 ≤ fb v 11 0 && fb v 11 0 ≤ 3600 then d.putReg Reg.pwrLimit v else d

/-- PWR_CAP_ASSERT (R465). -/
def xPwrCapAssert : Effect := fun _ d =>
  if d.pwr.capLow then d
  else ({ d with pwr := { d.pwr with capLow := true, savedLimit := (List.range 4).map (fun q => (d.diePower q).limit) } }).bump Reg.pwrCapAsserts

/-- PWR_CAP_DEASSERT (R465). -/
def xPwrCapDeassert : Effect := fun _ d =>
  if !d.pwr.capLow then d
  else
    let saved := d.pwr.savedLimit
    let d := { d with pwr := { d.pwr with capLow := false, savedLimit := [] } }
    d.each (List.range 4) (fun d q => d.setDiePower q { d.diePower q with limit := saved.getD q (d.diePower q).limit })

/-! Temperature (R468 to R470, Table 16.7). -/

/-- A sample reaches the trip temperature of some sensor. -/
def tempsTrip (t : Temps) : Bool :=
  t.compute.toList.any (115 ≤ ·.toNat) || t.io.toList.any (110 ≤ ·.toNat) || t.hbm.toList.any (105 ≤ ·.toNat)

def tempsStacks (t : Temps) (q : Nat) : List (BitVec 8) := (t.hbm.toList.drop (4 * q)).take 4

/-- A sensor that throttles die `q` is at or above its throttle temperature; every sensor of the die and its stacks, and of the I/O
dies, is below warning. -/
def tempsThrottle (t : Temps) (q : Nat) : Bool :=
  100 ≤ (t.compute.toList.getD q 0).toNat || (tempsStacks t q).any (92 ≤ ·.toNat) || t.io.toList.any (95 ≤ ·.toNat)
def tempsCool (t : Temps) (q : Nat) : Bool :=
  (t.compute.toList.getD q 0).toNat < 95 && (tempsStacks t q).all (·.toNat < 85) && t.io.toList.all (·.toNat < 90)

/-- Trip: TCLK stops everywhere, every stack is in self-refresh, THERMTRIP_N is low; a start-up stops (R470, Table 16.9). -/
def Dev.trip (d : Dev) : Dev :=
  let d := { d with pwr := { d.pwr with state := .tripped }, bringUp := if d.bringUp == BringUp.done then BringUp.done else BringUp.stopped }
  d.each (List.range 6) (fun d i => d.setDie i { d.die i with tclkStopped := true })

/-- THERMAL_SAMPLE (R468, R470). -/
def xThermalSample (t : Temps) : Effect := fun _ d =>
  if d.bringUp == .off then d
  else
    let d := { d with pwr := { d.pwr with temps := some t } }
    if tempsTrip t && d.pwr.state != .tripped then d.trip else d

/-- A throttle lowers the level of some die below what is asked for (R465). -/
def Dev.throttled (d : Dev) : Bool := (List.range 4).any (fun q => d.effectiveLevel q < d.levelReq q)

/-- THERMAL_LEVEL_STEP (R470), once a millisecond; PWR_THROTTLE_MS counts here. -/
def xThermalLevelStep : Effect := fun _ d =>
  match d.pwr.temps with
  | none => d.bumpIf d.throttled Reg.pwrThrottleMs
  | some t =>
    let d := d.each (List.range 4) (fun d q =>
      let x := d.diePower q
      if tempsThrottle t q then d.setDiePower q { x with thermal := x.thermal - 1 }
      else if tempsCool t q then d.setDiePower q { x with thermal := min 8 (x.thermal + 1) }
      else d)
    d.bumpIf d.throttled Reg.pwrThrottleMs

/-! Power states (R466, R467). -/

def Dev.pwrIdle (d : Dev) : Bool :=
  (List.range 64).all (fun c => let x := d.ctx c
    (c == 0 || x.state == .free || x.state == .unavailable) && x.pipe.state == .off)

/-- TCLK of the compute dies stops; VCORE goes to `mv`. -/
def Dev.stopTclk (d : Dev) (st : PowerState) (mv : Nat → Nat) : Dev :=
  let d := { d with pwr := { d.pwr with state := st } }
  d.each (List.range 4) (fun d q =>
    (d.setDie q { d.die q with tclkStopped := true, locked := (d.die q).locked && st != .forward }).avs q (mv q))

/-- A command that is not accepted (R467, R417). -/
def Dev.pwrRefuse (d : Dev) : Dev × Nat := (d.bump Reg.devRegRefused, stACCESS)

/-- CMD of PWR_CTRL. -/
def Dev.pwrCommand (d : Dev) (cmd : Nat) : Dev × Nat :=
  if d.pwr.state == .tripped && cmd != 0 then d.pwrRefuse
  else match cmd with
    | 1 => if !d.pwrIdle then d.pwrRefuse
           else if d.pwr.state == .quiesce then (d, stOK)
           else (d.stopTclk .quiesce (fun q => d.setPoint q 0), stOK)
    | 2 => if d.pwr.state != .quiesce then d.pwrRefuse else (d.stopTclk .forward (fun _ => 500), stOK)
    | 3 => if d.pwr.state == .run then (d, stOK)
           else (d.powerRun.each (List.range 4) (fun d q => d.avs q (d.setPoint q (d.diePower q).level)), stOK)
    | _ => (d, stOK)

/-- A write of PWR_CTRL. -/
def Dev.pwrCtrlWrite (d : Dev) (v : BitVec 32) : Dev × Nat :=
  let y := d.pwrCommand (fb v 31 30)
  if y.2 = stOK then (y.1.putReg Reg.pwrCtrl v, stOK) else y

/-! The end of the start-up's step 7 (Table 16.8). -/

/-- START_PHASE LINKS. -/
def Dev.toLinks (d : Dev) : Dev :=
  if d.bringUp == .window then { d with bringUp := .links, pwr := { d.pwr with phase := 4, linksAt := d.lode.count, goHeld := false } } else d

/-- GO: it ends step 7, is held before it, and has no effect after it (Table 16.9). -/
def Dev.bootGo (d : Dev) : Dev :=
  if d.bringUp == .window then d.toLinks
  else if d.pwr.phase < 3 then { d with pwr := { d.pwr with goHeld := true } } else d

/-- A write of PWR_BOOT_CTRL: CMD 0b10 and 0b11 are refused. -/
def Dev.bootCtrlWrite (d : Dev) (v : BitVec 32) : Dev × Nat :=
  match fb v 31 30 with
  | 0 => (d.putReg Reg.pwrBootCtrl v, stOK)
  | 1 => (d.bootGo.putReg Reg.pwrBootCtrl v, stOK)
  | _ => d.pwrRefuse

/-- BOOT_WINDOW_EXPIRY: 2 s without GO. -/
def xBootWindowExpiry : Effect := fun _ d => d.toLinks

/-! One meaning per command. -/

def pwrWord (d : Dev) (k cmd : Nat) : BitVec 32 := BitVec.ofNat 32 (setFld (d.reg k).toNat 31 30 cmd)

def execPwrQuiesce (r : Requester) (s : State) : Host.Outcome State Fault Refusal :=
  s.runReg r Reg.pwrCtrl (pwrWord s.dev Reg.pwrCtrl 1) (fun d => d.ctx0OrAdmin r) (fun _ d => d.pwrCtrlWrite (pwrWord d Reg.pwrCtrl 1))
def execPwrForward (r : Requester) (s : State) : Host.Outcome State Fault Refusal :=
  s.runReg r Reg.pwrCtrl (pwrWord s.dev Reg.pwrCtrl 2) (fun d => d.ctx0OrAdmin r) (fun _ d => d.pwrCtrlWrite (pwrWord d Reg.pwrCtrl 2))
def execPwrRun (r : Requester) (s : State) : Host.Outcome State Fault Refusal :=
  s.runReg r Reg.pwrCtrl (pwrWord s.dev Reg.pwrCtrl 3) (fun d => d.ctx0OrAdmin r) (fun _ d => d.pwrCtrlWrite (pwrWord d Reg.pwrCtrl 3))
def execPwrBootGo (r : Requester) (s : State) : Host.Outcome State Fault Refusal :=
  s.runReg r Reg.pwrBootCtrl (pwrWord s.dev Reg.pwrBootCtrl 1) (fun d => d.ctx0OrAdmin r)
    (fun _ d => d.bootCtrlWrite (pwrWord d Reg.pwrBootCtrl 1))
def execBootWindowExpiry (s : State) : Host.Outcome State Fault Refusal := s.run xBootWindowExpiry
def execDvfsLevelReqWrite (r : Requester) (q : Fin 4) (v : BitVec 32) (s : State) : Host.Outcome State Fault Refusal :=
  s.runReg r (Reg.pwrDvfsCtrl q.val) v (fun d => d.ctx0OrAdmin r) (fun _ d => (d.dvfsWrite q.val v, stOK))
def execDvfsStep (q : Fin 4) (mv : BitVec 10) (s : State) : Host.Outcome State Fault Refusal := s.run (xDvfsStep q.val mv.toNat)
def execLimitLoop (watts : BitVec 12) (s : State) : Host.Outcome State Fault Refusal := s.run (xLimitLoop watts)
def execPwrCapAssert (s : State) : Host.Outcome State Fault Refusal := s.run xPwrCapAssert
def execPwrCapDeassert (s : State) : Host.Outcome State Fault Refusal := s.run xPwrCapDeassert
def execThermalSample (temps : Temps) (s : State) : Host.Outcome State Fault Refusal := s.run (xThermalSample temps)
def execThermalLevelStep (s : State) : Host.Outcome State Fault Refusal := s.run xThermalLevelStep

end Sys2Proof.Machine
end

