-- ==== Sys2Proof/Machine/SecOps.lean ====
section
/-! DEFINITION. Obsidian's own operations: the boot bundle (R431 to R437), identity (R438), measurements (R443), the SEC mailboxes (R445)
and the frame of an SPDM request (R442). The byte layouts of SPDM are those of DSP0274 (log entry 80). -/

namespace Sys2Proof.Machine

def Dev.setSec (d : Dev) (f : Sec → Sec) : Dev := { d with sec := f d.sec }

def bytesOf (l : List Nat) : List Byte := l.map (BitVec.ofNat 8)

/-! The boot bundle (R432 to R436). -/

/-- Entries of a KEYS section: slots of their algorithm, and the bytes that are hashed. -/
def keyEntries (r : Reader) (s : Section) : List (List Nat × List Byte) :=
  let rsa := r s.off 1
  let at1 := s.off + 64
  let at2 := at1 + 1024 * rsa
  (List.range rsa).map (fun i => ([0, 1, 2, 3], readBytes r (at1 + 1024 * i) 516))
    ++ (List.range (r (s.off + 1) 1)).map (fun i => ([4, 5, 6, 7], readBytes r (at2 + 3072 * i) 2592))

/-- One KEYS section, laid out as R432 has it. -/
def keysOk (r : Reader) : Bool :=
  match sectionsOf r 0x0A with
  | [s] =>
    let rsa := r s.off 1
    let mldsa := r (s.off + 1) 1
    rsa ≤ 4 && mldsa ≤ 4 && s.len == 64 + 1024 * rsa + 3072 * mldsa && rsvZero (r s.off 64) [(511, 16)]
      && (List.range rsa).all (fun i => r (s.off + 64 + 1024 * i + 516) 508 == 0)
      && (List.range mldsa).all (fun i => r (s.off + 64 + 1024 * rsa + 3072 * i + 2592) 480 == 0)
  | _ => false

/-- The slot whose fused hash and REVOKE bit accept a key (R431). -/
def Fuses.slotFor (f : Fuses) (slots : List Nat) (key : List Byte) : Option Nat :=
  slots.find? (fun i => !f.revoke.getLsbD i && (f.keyHash.toList.getD i 0).toNat == digestNum (sha512 key))

/-- The keys of a bundle that are accepted, by slot. -/
def Fuses.acceptedKeys (f : Fuses) (r : Reader) : Map (List Byte) :=
  ((sectionsOf r 0x0A).flatMap (keyEntries r)).foldl (fun k e =>
    match f.slotFor e.1 e.2 with
    | some i => mset k i e.2
    | none => k) []

/-- Sections of a bundle (R434): their numbers, places, CRCs and content. -/
def bundleSectionsOk (r : Reader) : Bool :=
  let l := imgSectionList r
  let fw := sectionsOf r 9
  layoutOk r (256 + 32 * imgSections r) l && l.all (fun s => sectionOk r s && (s.type == 9 || s.type == 0x0A || s.type == 0x0B))
    && fw.all (fwOk r) && distinct (fw.map (·.index)) && fw.all (fun s => 1 ≤ s.index && s.index ≤ 5)
    && [1, 4, 5].all (fun k => fw.any (fun s => s.index == k))
    && (sectionsOf r 0x0B).length ≤ 1 && (sectionsOf r 0x0B).all (fun s => s.len == 1)
    && rsvZero (r 0 256) [(2015, 352), (135, 129), (87, 64)] && r (imgSigOffset r + 32) 32 == 0 && r (imgSigOffset r + 5203) 2989 == 0

/-- Table 15.2, step 4, with the codes of Table 5.15. -/
def Dev.bundleResult (d : Dev) (bs : List Byte) : Nat :=
  let r := listReader bs
  let header := headerOk r bs.length (2 ^ 22) 0x42545348 [3] && imgGeneration r != 0 && imgReqCaps r == 0 && imgMinGen r == 0
    && imgBaseGen r == 0 && !imgIdMode r
  if !header then 0x02
  else if !d.bindOk r then 0x03
  else if !keysOk r then 0x0A
  else
    let sig := imageSigResult (d.fuses.acceptedKeys r) r
    if sig != 0 then sig else firstFail [(0x0A, bundleSectionsOk r), (0x13, d.firmwareOk r)]

/-- Slots of the keys that signed a bundle. -/
def signingSlots (keys : Map (List Byte)) (r : Reader) : List Nat :=
  let rsa := r (imgSigOffset r) 16
  let mldsa := r (imgSigOffset r + 16) 16
  (keys.filter (fun (k : Nat × List Byte) => keyId k.2 == (if k.1 < 4 then rsa else mldsa))).map (·.1)

/-- REVOKE (R433): bits of signing keys stay; a request that leaves an algorithm without a slot is refused whole. -/
def Fuses.blowRevoke (f : Fuses) (keys : Map (List Byte)) (r : Reader) : Fuses :=
  match sectionsOf r 0x0B with
  | [] => f
  | s :: _ =>
    let want := r s.off 1
    let kept := (signingSlots keys r).foldl (fun a i => if want.testBit i && a.testBit i then a - 2 ^ i else a) want
    let v := f.revoke.toNat ||| kept
    if v % 16 = 15 || v / 16 = 15 then f else { f with revoke := BitVec.ofNat 8 v }

/-- BUNDLE_VERIFIED with every check passed (Tables 15.2 and 16.8, steps 5 and 6). -/
def Dev.bundleTaken (d : Dev) (o : StackOutcome) : Dev :=
  let r := listReader d.sec.bundle
  let keys := d.fuses.acceptedKeys r
  let d := { d with fuses := d.fuses.blowRevoke keys r, bringUp := .window, pwr := { d.pwr with phase := 3 } }
  let d := d.setSec (fun s => { s with state := .running, bundleResult := 0, keys := keys, bundle := [],
                                       bundleDigest := BitVec.ofNat 512 (digestNum (imageDigest r)) })
  let d := d.setStrata (fun s => { s with firmware := (sectionsOf r 9).foldl (fun f x =>
    mset f x.index (fwDigest r x, BitVec.ofNat 16 x.svn)) [] })
  let d := (d.trainStacks o).noteDegraded
  if d.pwr.goHeld then d.toLinks else d

/-! Identity (R438). -/

def asciiBytes (s : String) : List Byte := s.toList.map (fun c => BitVec.ofNat 8 c.toNat)

/-- The seed of a derivation: HMAC-SHA-512 of the UDS over the label and L. -/
def Dev.identitySeed (d : Dev) (label : String) : List Byte :=
  hmac512 (toLE 32 d.fuses.uds.toNat) (asciiBytes label ++ [if d.sec.wasUnlocked then 0 else 1])

/-- The identity public key of certificate slot 0 (RSA) or 1 (ML-DSA). -/
def Dev.identityKey (d : Dev) (slot : Nat) : List Byte :=
  if slot = 0 then Config.rsaKeyGen (d.identitySeed "AK4T DEVID RSA")
  else Config.mldsaKeyGen ((d.identitySeed "AK4T DEVID MLDSA").take 32)

def Dev.keyReady (d : Dev) (slot : Nat) : Bool := if slot = 0 then d.sec.rsaReady else d.sec.mldsaReady

/-! Status words that measurements and registers share. -/

/-- DEV_IDENT_STATUS (Table 14.5). -/
def Dev.identStatus (d : Dev) : Nat :=
  fb (d.fuses.record 4) 143 136 * 256 + (if pkgIdOk d.fuses.pkgIdA then 128 else 0)
    + ((List.range 6).filter d.fuses.dieOk).foldl (fun a i => a + 2 ^ i) 0

def Dev.genWord (d : Dev) : Nat := d.negGen.toNat * 65536 + d.iodGen.toNat * 256 + d.cmpGen.toNat

/-- SEC_STATUS bits [25:24]. -/
def Dev.testBits (d : Dev) : Nat := (if d.sec.testLock then 2 else 0) + (if d.sec.unlockPending then 1 else 0)

/-! Measurements (Table 15.5). -/

/-- The content of an index: whether it is raw, its DMTF value type, its bytes. -/
def Dev.measurement (d : Dev) (m : Mem) (i : Nat) : Bool × Nat × List Byte :=
  let digest := fun (v : BitVec 512) => (toLE 64 v.toNat).reverse
  if i = 1 then (false, 0, digest Config.romDigest)
  else if i = 2 then (false, 1, digest d.sec.bundleDigest)
  else if i ≤ 7 then (false, 1, digest (match mfind d.strata.firmware (i - 2) with | some x => x.1 | none => Config.noMeasurement))
  else if i = 8 then (true, 3, (List.range 5).flatMap (fun k =>
    toLE 2 (d.arb (k + 1)) ++ toLE 2 (match mfind d.strata.firmware (k + 1) with | some x => x.2.toNat | none => 0)))
  else if i = 9 then
    (false, 3, (if d.strata.curValid then imageDigest (d.curReader m) else digest Config.noMeasurement) ++ toLE 4 d.strata.genCur.toNat)
  else if i = 10 then (true, 2, toLE 4 d.negCaps.toNat ++ toLE 4 d.genWord ++ [d.fuses.revoke] ++ [if d.idModeNow then 1 else 0]
    ++ toLE 4 d.identStatus)
  else (true, 2, toLE 1 d.testBits)

/-- The digest of an index, for QUOTE: of a raw one, of its bytes. -/
def Dev.measurementDigest (d : Dev) (m : Mem) (i : Nat) : List Byte :=
  let x := d.measurement m i
  if x.1 then sha512 x.2.2 else x.2.2.take 64

/-- A measurement block (R443). -/
def Dev.measurementBlock (d : Dev) (m : Mem) (i : Nat) : List Byte :=
  let x := d.measurement m i
  bytesOf [i, 1] ++ toLE 2 (x.2.2.length + 3) ++ bytesOf [x.2.1 + (if x.1 then 128 else 0)] ++ toLE 2 x.2.2.length ++ x.2.2

/-! The SEC mailboxes (R445). Mailbox 4 is context 0's, with buffers in the management SRAM. -/

def Dev.mailbox (d : Dev) (m : Nat) : Mailbox := mget {} d.sec.mailboxes m
def Dev.setMailbox (d : Dev) (m : Nat) (x : Mailbox) : Dev := d.setSec (fun s => { s with mailboxes := mset s.mailboxes m x })

def Dev.mboxReq (d : Dev) (m : Nat) : Nat := d.reg64 (Reg.secMboxReqLo m)
def Dev.mboxRsp (d : Dev) (m : Nat) : Nat := d.reg64 (Reg.secMboxRspLo m)

/-- A buffer of the management SRAM, 8 MiB (R435). -/
def inSram (a n : Nat) : Bool := a + n ≤ 0x800000

/-- The whole request is there: its type and, for QUOTE, its length are checked. -/
def Dev.mboxArrived (d : Dev) (m : Nat) : Dev :=
  let q := (d.mailbox m).request
  let ty := (q.headD 0).toNat
  if ty != 0x05 && ty != 0x06 && ty != 0x80 then d.mailboxError m 5
  else if ty == 0x80 && q.length != 36 then d.mailboxError m 2
  else d

/-- Read the next part of a request: at most 256 bytes within one 256-byte block. -/
def Dev.mboxFetch (d : Dev) (m : Nat) : Dev :=
  let x := d.mailbox m
  let a := d.mboxReq m + x.request.length
  d.hrd m 0 opcHRD a (min (x.want - x.request.length) (256 - a % 256)) .mailbox m 0

/-- Part of a request has come from the host. -/
def Dev.mboxData (d : Dev) (m : Nat) (bs : List Byte) : Dev :=
  let x := d.mailbox m
  let d := d.setMailbox m { x with request := x.request ++ bs }
  if (x.request ++ bs).length < x.want then d.mboxFetch m else d.mboxArrived m

/-- CMD SEND. -/
def Dev.mboxSend (d : Dev) (mem : Mem) (m : Nat) : Dev × Nat :=
  if d.rf (Reg.secMboxCtrl m) 29 28 = 1 then (d.bump Reg.devRegRefused, stACCESS)
  else
    let n := d.rf (Reg.secMboxLen m) 15 0
    let d := ((d.setRf (Reg.secMboxCtrl m) 29 28 1).setRf (Reg.secMboxCtrl m) 21 14 0).setRf (Reg.secMboxCtrl m) 13 0 0
    let d := d.setMailbox m { want := n }
    if n = 0 then (d.mailboxError m 2, stOK)
    else if m < 4 then (d.mboxFetch m, stOK)
    else if !inSram (d.mboxReq m) n then (d.mailboxError m 1, stOK)
    else ((d.setMailbox m { want := n, request := peekN mem d (sramBase + d.mboxReq m) n }).mboxArrived m, stOK)

/-- A mailbox's requests that are still out are given up. -/
def Dev.mboxQuit (d : Dev) (m : Nat) : Dev :=
  let mine := fun (t : Tag) => t.purpose == .mailbox && t.a == m
  let d := d.retireTags mine
  d.setHost m { d.host m with waiting := (d.host m).waiting.filter (fun x => !mine x.2) }

/-- CMD ABANDON: a response that is being written completes first. -/
def Dev.mboxAbandon (d : Dev) (m : Nat) : Dev :=
  if d.rf (Reg.secMboxCtrl m) 29 28 != 1 then d
  else if (d.mailbox m).writing then d.setMailbox m { d.mailbox m with abandoned := true }
  else (if m < 4 then d.mboxQuit m else d).mailboxError m 4

/-- A write of SEC_MBOX_CTRL_m; CMD 0b11 is refused. -/
def Dev.mboxCtrlWrite (d : Dev) (mem : Mem) (m : Nat) (v : BitVec 32) : Dev × Nat :=
  let y := match fb v 31 30 with
    | 0 => (d, stOK)
    | 1 => d.mboxSend mem m
    | 2 => (d.mboxAbandon m, stOK)
    | _ => (d.bump Reg.devRegRefused, stACCESS)
  if y.2 = stOK then (y.1.putReg (Reg.secMboxCtrl m) v, stOK) else y

/-- The response is written: RSP_LEN, then STATE DONE. -/
def Dev.mboxDone (d : Dev) (m : Nat) : Dev :=
  let x := d.mailbox m
  if x.abandoned then d.mailboxError m 4
  else
    let d := d.setSec (fun s => { s with mailboxes := mdel s.mailboxes m })
    (d.setRf (Reg.secMboxCtrl m) 13 0 x.response.length).setRf (Reg.secMboxCtrl m) 29 28 2

/-- Write the next part of a response. -/
def Dev.mboxPut (d : Dev) (m : Nat) : Dev :=
  let x := d.mailbox m
  let a := d.mboxRsp m + x.sent
  d.hwr m 0 a ((x.response.drop x.sent).take (256 - a % 256)) .mailboxReply m 0

/-- Part of a response has been acknowledged. -/
def Dev.mboxAck (d : Dev) (m : Nat) : Dev :=
  let x := d.mailbox m
  let x := { x with sent := x.sent + min (x.response.length - x.sent) (256 - (d.mboxRsp m + x.sent) % 256) }
  let d := d.setMailbox m x
  if x.sent < x.response.length then d.mboxPut m else d.mboxDone m

/-- Answer mailbox `m`. -/
def Dev.mboxReply (d : Dev) (m : Nat) (bs : List Byte) : Dev :=
  let x := d.mailbox m
  if d.rf (Reg.secMboxLen m) 31 16 < bs.length then d.mailboxError m 2
  else
    let d := d.setMailbox m { x with response := bs, sent := 0, writing := true }
    if m < 4 then d.mboxPut m
    else if !inSram (d.mboxRsp m) bs.length then d.mailboxError m 3
    else (d.pokeN (sramBase + d.mboxRsp m) bs).mboxDone m

/-! SPDM (R441, R442). Channel 0 to 4 is a mailbox, 5 the management bus. -/

/-- The message a mailbox holds, once all of it has come; `secured` tells its type. -/
def Dev.mboxMessage (d : Dev) (m : Nat) (secured : Bool) : Option (List Byte) :=
  let x := d.mailbox m
  if x.want = 0 || x.writing || x.request.length != x.want then none
  else match x.request with
    | [] => none
    | ty :: r => if ty.toNat = 0x05 && !secured then some r else if ty.toNat = 0x06 && secured then some (Config.unsealed r) else none

/-- The channel holds this message now; a secured one, where `secured`. -/
def Dev.messageDue (d : Dev) (ch : Nat) (msg : List Byte) (secured : Bool) : Bool :=
  if ch = 5 then !secured else d.mboxMessage ch secured == some msg

/-- Obsidian answers: it runs, and IA is there (Table 15.7). -/
def Dev.obsidian (d : Dev) : Bool := d.sec.state == .running && !d.lost 4

/-- Send a response, and count it (SEC_SPDM_MSGS). -/
def Dev.spdmAnswer (d : Dev) (ch : Nat) (secured : Bool) (bs : List Byte) : Dev :=
  let d := d.bump Reg.secSpdmMsgs
  if ch = 5 then d.emit (.spdm ch bs)
  else if secured then
    let (n, d) := d.takeFree
    d.mboxReply ch (bytesOf [6] ++ Config.sealed n bs)
  else d.mboxReply ch (bytesOf [5] ++ bs)

def Dev.spdm (d : Dev) (ch : Nat) : Spdm := mget {} d.sec.spdm ch
def Dev.setSpdm (d : Dev) (ch : Nat) (x : Spdm) : Dev := d.setSec (fun s => { s with spdm := mset s.spdm ch x })

/-- An ERROR response. -/
def spdmError (ver code : Nat) : List Byte := bytesOf [ver, 0x7F, code, 0]

/-- ResponseNotReady, with its extended data. -/
def notReady (ver req : Nat) : List Byte := bytesOf [ver, 0x7F, 0x42, 0, 17, req, 0, 1]

def errInvalid : Nat := 0x01
def errBusy : Nat := 0x03
def errUnexpected : Nat := 0x04
def errUnspecified : Nat := 0x05
def errDecrypt : Nat := 0x06
def errVersion : Nat := 0x41

/-- An SPDM request with code `code` arrives; `open_` holds of those an invalid package identity does not bar (R441); `f` is asked with
the version in use. -/
def Dev.spdmRequest (d : Dev) (ch : Nat) (msg : List Byte) (code : Nat) (open_ : Bool) (f : Dev → Nat → Dev × List Byte) : Dev :=
  let b := fun i => (msg.getD i 0).toNat
  let secured := d.messageDue ch msg true
  if !d.obsidian || b 1 != code || msg.length < 4 || !(secured || d.messageDue ch msg false) then d
  else
    let x := d.spdm ch
    let ver := b 0
    let y : Dev × List Byte :=
      if !pkgIdOk d.fuses.pkgIdA && !open_ then (d, spdmError ver errUnspecified)
      else if code != 0x84 && ver != 0x12 && ver != 0x13 then (d, spdmError 0x13 errVersion)
      else if code != 0x84 && !x.version then (d, spdmError ver errUnexpected)
      else if code != 0x84 && code != 0xE1 && !x.capabilities then (d, spdmError ver errUnexpected)
      else if code != 0x84 && code != 0xE1 && ver != x.inUse then (d, spdmError x.inUse errVersion)
      else if code != 0x84 && code != 0xE1 && code != 0xE3 && !x.algorithms then (d, spdmError ver errUnexpected)
      else f d ver
    y.1.spdmAnswer ch secured y.2

end Sys2Proof.Machine
end

