-- ==== Sys2Proof/Machine/Security.lean ====
section
/-! DEFINITION. Obsidian's commands (chapter 15): the boot bundle, SPDM and QUOTE, mailboxes, link keys, test access. -/

namespace Sys2Proof.Machine

/-! Secure boot (R435, R436, R438). -/

/-- BUNDLE_RECEIVED: the last byte of a bundle has come. One offered while another is VERIFYING is not taken (Table 15.7). -/
def xBundleReceived (bytes : List Byte) : Effect := fun _ d =>
  if d.sec.state != .waitBundle || d.bringUp != .waitBundle then d
  else ({ d with bringUp := .verifying }).setSec (fun s => { s with state := .verifying, bundle := bytes })

/-- BUNDLE_VERIFIED: the checks end. -/
def xBundleVerified (o : StackOutcome) : Effect := fun _ d =>
  if d.sec.state != .verifying || d.bringUp != .verifying then d
  else
    let code := d.bundleResult d.sec.bundle
    if code = 0 then d.bundleTaken o
    else (({ d with bringUp := .waitBundle }).setSec (fun s =>
      { s with state := .waitBundle, bundle := [], bundleResult := BitVec.ofNat 8 code })).bump Reg.secSigFail

/-- RSA_KEY_READY; no key is derived without a valid package identity (R441). -/
def xRsaKeyReady : Effect := fun _ d =>
  if d.bringUp == .off || d.sec.state == .failed || d.sec.state == .selfTest || !pkgIdOk d.fuses.pkgIdA then d
  else d.setSec (fun s => { s with rsaReady := true })

/-! SPDM (R442; layouts of DSP0274). -/

/-- GET_VERSION: a new connection; versions 1.2 and 1.3. -/
def xGetVersion (ch : Nat) (msg : List Byte) : Effect := fun _ d =>
  d.spdmRequest ch msg 0x84 true (fun d _ =>
    (d.setSpdm ch { version := true }, bytesOf [0x10, 0x04, 0, 0, 0, 2, 0, 0x12, 0, 0x13]))

/-- CAPABILITIES flags of Table 15.4: CERT, CHAL, MEAS with signature, MEAS_FRESH, ENCRYPT, MAC, KEY_EX, SET_CERT. -/
def spdmFlags : Nat := 2 + 4 + 0x10 + 0x20 + 0x40 + 0x80 + 0x200 + 0x80000

/-- GET_CAPABILITIES: the version of the request is in use from now on. -/
def xGetCapabilities (ch : Nat) (msg : List Byte) : Effect := fun _ d =>
  d.spdmRequest ch msg 0xE1 true (fun d ver =>
    (d.setSpdm ch { version := true, inUse := ver, capabilities := true },
     bytesOf [ver, 0x61, 0, 0, 0, 17, 0, 0] ++ toLE 4 spdmFlags ++ toLE 4 8192 ++ toLE 4 8192))

/-- The algorithm structures of a request that are supported: DHE secp384r1, AEAD AES-256-GCM, the SPDM key schedule. -/
def algStructs : Nat → List Byte → List (Nat × Nat)
  | 0, _ => []
  | n + 1, l =>
    let ty := (l.getD 0 0).toNat
    let bits := leOf ((l.drop 2).take 2)
    let sel := if ty = 2 then bits &&& 0x10 else if ty = 3 then bits &&& 0x02 else if ty = 5 then bits &&& 0x01 else 0
    (ty, sel) :: algStructs n (l.drop 4)

/-- NEGOTIATE_ALGORITHMS: what Table 15.4 names of what is offered. -/
def xNegotiateAlgorithms (ch : Nat) (msg : List Byte) : Effect := fun _ d =>
  d.spdmRequest ch msg 0xE3 true (fun d ver =>
    if msg.length < 32 then (d, spdmError ver errInvalid)
    else
      let meas := (msg.getD 6 0).toNat &&& 1
      let asym := leOf ((msg.drop 8).take 4) &&& 0x40
      let hash := leOf ((msg.drop 12).take 4) &&& 0x04
      let algs := algStructs (msg.getD 2 0).toNat (msg.drop 32)
      let body := bytesOf [meas, (msg.getD 7 0).toNat &&& 2] ++ toLE 4 (if meas = 1 then 8 else 0) ++ toLE 4 asym ++ toLE 4 hash
        ++ bytesOf (List.replicate 16 0) ++ (algs.map (fun a => bytesOf [a.1, 0x20] ++ toLE 2 a.2)).flatten
      (d.setSpdm ch { d.spdm ch with algorithms := true },
       bytesOf [ver, 0x63, algs.length, 0] ++ toLE 2 (6 + body.length) ++ body))

/-- Certificate slots that hold a chain. -/
def Dev.certMask (d : Dev) : Nat := ([0, 1].filter (fun i => (mfind d.sec.certs i).isSome)).foldl (fun a i => a + 2 ^ i) 0

/-- GET_DIGESTS. -/
def xGetDigests (ch : Nat) (msg : List Byte) : Effect := fun _ d =>
  d.spdmRequest ch msg 0x81 false (fun d ver =>
    (d, bytesOf [ver, 0x01, if ver = 0x13 then 3 else 0, d.certMask] ++ (d.sec.certs.map (fun (c : Nat × List Byte) => sha512 c.2)).flatten))

/-- GET_CERTIFICATE. -/
def xGetCertificate (ch : Nat) (msg : List Byte) : Effect := fun _ d =>
  d.spdmRequest ch msg 0x82 false (fun d ver =>
    let off := leOf ((msg.drop 4).take 2)
    let n := leOf ((msg.drop 6).take 2)
    match mfind d.sec.certs ((msg.getD 2 0).toNat % 16) with
    | none => (d, spdmError ver errInvalid)
    | some c =>
      if msg.length < 8 || c.length ≤ off then (d, spdmError ver errInvalid)
      else
        let part := (c.drop off).take (min n 8184)
        (d, bytesOf [ver, 0x02, (msg.getD 2 0).toNat % 16, 0] ++ toLE 2 part.length ++ toLE 2 (c.length - off - part.length) ++ part))

/-- SET_CERTIFICATE (R439): slots 0 and 1, 32 KiB; the leaf's key is the derived key. -/
def xSetCertificate (ch : Nat) (msg : List Byte) : Effect := fun _ d =>
  d.spdmRequest ch msg 0xEE false (fun d ver =>
    let slot := (msg.getD 2 0).toNat % 16
    let chain := msg.drop 4
    if 1 < slot then (d, spdmError ver errInvalid)
    else if !d.keyReady slot then (d, notReady ver 0xEE)
    else if 32768 < chain.length || Config.leafKey chain != d.identityKey slot then (d, spdmError ver errInvalid)
    else (d.setSec (fun s => { s with certs := mset s.certs slot chain }), bytesOf [ver, 0x6E, slot, 0]))

/-- The summary of all measurements, where it is asked for. -/
def Dev.measurementSummary (d : Dev) (m : Mem) (type : Nat) : List Byte :=
  if type = 0 then []
  else sha512 (((List.range 11).map (fun i => d.measurementBlock m (i + 1))).flatten)

/-- The hash of slot 0's chain; where it is empty nothing can be signed for it. -/
def Dev.chainHash (d : Dev) : List Byte := sha512 (mget [] d.sec.certs 0)

/-- A signature of the RSA identity key, and a nonce. -/
def Dev.signature (d : Dev) : List Byte × Dev :=
  let (n, d) := d.takeFree
  (toLE 512 (Config.rsaSignature n).toNat, d)
def Dev.nonce (d : Dev) : BitVec 256 × Dev :=
  let (n, d) := d.takeFree
  (Config.random n, d)

/-- RequesterContext of SPDM 1.3. -/
def reqContext (ver : Nat) (l : List Byte) : List Byte := if ver = 0x13 then l.take 8 else []

/-- CHALLENGE: signing is from slot 0. -/
def xChallenge (ch : Nat) (msg : List Byte) : Effect := fun m d =>
  d.spdmRequest ch msg 0x83 false (fun d ver =>
    if (msg.getD 2 0).toNat != 0 || msg.length < 36 || (mfind d.sec.certs 0).isNone then (d, spdmError ver errInvalid)
    else if !d.sec.rsaReady then (d, notReady ver 0x83)
    else
      let (nonce, d) := d.nonce
      let (sig, d) := d.signature
      (d, bytesOf [ver, 0x03, 0, d.certMask] ++ d.chainHash ++ toLE 32 nonce.toNat ++ d.measurementSummary m (msg.getD 3 0).toNat
        ++ toLE 2 0 ++ reqContext ver (msg.drop 36) ++ sig))

/-- The request asks for a signature. -/
def wantsSignature (msg : List Byte) : Bool := (msg.getD 2 0).getLsbD 0

/-- GET_MEASUREMENTS (R443). -/
def xGetMeasurements (ch : Nat) (msg : List Byte) : Effect := fun m d =>
  d.spdmRequest ch msg 0xE0 (!wantsSignature msg) (fun d ver =>
    let i := (msg.getD 3 0).toNat
    let signed := wantsSignature msg
    let blocks := if i = 0 then [] else if i = 255 then (List.range 11).map (· + 1) else [i]
    if 11 < i && i != 255 then (d, spdmError ver errInvalid)
    else if signed && ((msg.getD 36 0).toNat % 16 != 0 || msg.length < 37) then (d, spdmError ver errInvalid)
    else if signed && !d.sec.rsaReady then (d, notReady ver 0xE0)
    else
      let record := (blocks.map (d.measurementBlock m)).flatten
      let head := bytesOf [ver, 0x60, if i = 0 then 11 else 0, 0, blocks.length] ++ toLE 3 record.length ++ record
      let ctx := reqContext ver (msg.drop (if signed then 37 else 4))
      let (nonce, d) := d.nonce
      let body := head ++ toLE 32 nonce.toNat ++ toLE 2 0 ++ ctx
      if signed then
        let (sig, d) := d.signature
        (d, body ++ sig)
      else (d, body))

/-- The lowest session number not in use. -/
def Dev.freeSession (d : Dev) : Option Nat := (List.range 8).find? (fun i => d.sec.sessions.all (fun s => s.number != i))

/-- KEY_EXCHANGE (R442, R447): at most 8 sessions. -/
def xKeyExchange (ch : Nat) (msg : List Byte) : Effect := fun m d =>
  d.spdmRequest ch msg 0xE4 false (fun d ver =>
    if (msg.getD 3 0).toNat != 0 || msg.length < 138 then (d, spdmError ver errInvalid)
    else if !d.sec.rsaReady then (d, notReady ver 0xE4)
    else match d.freeSession with
      | none => (d, spdmError ver errBusy)
      | some i =>
        let (random, d) := d.nonce
        let (sig, d) := d.signature
        let (n, d) := d.takeFree
        let id := Config.sessionId n
        let s : Session := { number := i, channel := ch, ready := false, mayKey := ch == 4 || (ch < 4 && d.admin.getLsbD ch),
                             id := BitVec.ofNat 32 (leOf ((msg.drop 4).take 2) + id.toNat * 65536) }
        (d.setSec (fun x => { x with sessions := x.sessions ++ [s] }),
         bytesOf [ver, 0x64, 0, 0] ++ toLE 2 id.toNat ++ bytesOf [0, 0] ++ toLE 32 random.toNat
           ++ toLE 96 (Config.exchangeData n).toNat ++ d.measurementSummary m (msg.getD 2 0).toNat ++ toLE 2 0 ++ sig
           ++ toLE 64 (Config.verifyData n).toNat))

/-- The session of a channel that FINISH or END_SESSION is about: the first that fits. -/
def Dev.sessionOf (d : Dev) (ch : Nat) (ready : Bool) : Option Session := d.sec.sessions.find? (fun s => s.channel == ch && s.ready == ready)

def Dev.dropSession (d : Dev) (i : Nat) : Dev := d.setSec (fun x => { x with sessions := x.sessions.filter (fun s => s.number != i) })

/-- FINISH: the session stands where the requester's verify data are right. -/
def xFinish (ch : Nat) (msg : List Byte) : Effect := fun _ d =>
  d.spdmRequest ch msg 0xE5 false (fun d ver =>
    match d.sessionOf ch false with
    | none => (d, spdmError ver errUnexpected)
    | some s =>
      let (n, d) := d.takeFree
      if Config.finishHolds n msg then
        (d.setSec (fun x => { x with sessions := x.sessions.map (fun y => if y.number == s.number then { y with ready := true } else y) }),
         bytesOf [ver, 0x65, 0, 0])
      else (d.dropSession s.number, spdmError ver errDecrypt))

/-- END_SESSION. -/
def xEndSession (ch : Nat) (msg : List Byte) : Effect := fun _ d =>
  d.spdmRequest ch msg 0xEC false (fun d ver =>
    match d.sessionOf ch true with
    | none => (d, spdmError ver errUnexpected)
    | some s => (d.dropSession s.number, bytesOf [ver, 0x6C, 0, 0]))

/-- The QUOTE request a mailbox holds (R446). -/
def quoteRequest (nonce : BitVec 256) : List Byte := bytesOf [0x80, 0, 0, 0] ++ toLE 32 nonce.toNat

/-- QUOTE (R446); without a valid package identity it is answered as every request but four (R441). -/
def xQuote (ch : Nat) (nonce : BitVec 256) : Effect := fun m d =>
  let x := d.mailbox ch
  let due := ch == 5 || (x.want == 36 && !x.writing && x.request == quoteRequest nonce)
  if !d.obsidian || !due then d
  else
    let digest := sha512 (toLE 32 nonce.toNat ++ ((List.range 11).map (fun i => d.measurementDigest m (i + 1))).flatten)
    let (n, d) := d.takeFree
    let resp := if !pkgIdOk d.fuses.pkgIdA then spdmError 0x13 errUnspecified
      else bytesOf [0x80, if d.sec.mldsaReady then 0 else 1, 0, 0] ++ digest ++ toLE 4627 (Config.mldsaSignature n digest).toNat ++ bytesOf [0]
    let d := d.bump Reg.secSpdmMsgs
    if ch = 5 then d.emit (.spdm ch resp) else d.mboxReply ch resp

/-! Fabric link keys (R447). -/

/-- The key slot of a port that carries no traffic. -/
def FabPort.idleSlot (x : FabPort) : Bool := if x.encOn then !x.txPhase else x.keys0.isSome

/-- A link-key record of a session that context 0 or an ADMIN port opened: the keys go to the idle slot, KEY_READY to the far end. Keys
for F4 to F7 need IB. -/
def xLinkKeyRecord (session : Nat) (record : BitVec 768) : Effect := fun _ d =>
  let p := fb record 7 0
  let s := d.sec.sessions.find? (fun s => s.number == session)
  let may := match s with | some s => s.ready && s.mayKey | none => false
  if !d.obsidian || !may || 8 ≤ p || fb record 31 8 != 0 || fb record 767 608 != 0 || d.lost (portDie p) then d
  else
    let key : LinkKey := { keyTx := BitVec.ofNat 256 (fb record 287 32), saltTx := BitVec.ofNat 32 (fb record 319 288),
                           keyRx := BitVec.ofNat 256 (fb record 575 320), saltRx := BitVec.ofNat 32 (fb record 607 576) }
    let x := d.port p
    let slot := x.idleSlot
    let d := d.setPort p (if slot then { x with keys1 := some key, rxCtr1 := 0 } else { x with keys0 := some key, rxCtr0 := 0 })
    let d := if x.state.locked then d.sendLink p 6 (bytesOf [if slot then 1 else 0]) else d
    d.bump Reg.secLinkKeys

/-! Test access (R449 to R451). -/

def Dev.selectTap (d : Dev) (i code : Nat) : Dev :=
  (d.setSec (fun s => { s with tap := mset s.tap i (BitVec.ofNat 8 code) })).emit (.tdr i (BitVec.ofNat 8 code))

/-- An instruction that the engaged test lock turns into BYPASS (Table 15.6). -/
def Dev.selectLocked (d : Dev) (i code : Nat) : Dev := d.selectTap i (if d.sec.testLock then 0xFF else code)

/-- IDCODE of a die of stepping B0 (R449). -/
def idcodeOf (i : Nat) : BitVec 32 := if i < 4 then 0x14A01B8B else 0x14A02B8B

def xTapIdcode (i : Nat) : Effect := fun _ d => (d.selectTap i 0x01).emit (.idcode i (idcodeOf i))
def xTapSamplePreload (i : Nat) : Effect := fun _ d => d.selectTap i 0x02
def xTapExtest (i : Nat) : Effect := fun _ d => d.selectLocked i 0x03
def xTapClamp (i : Nat) : Effect := fun _ d => d.selectLocked i 0x04
def xTapHighz (i : Nat) : Effect := fun _ d => d.selectLocked i 0x05
/-- IJTAG_ACCESS: while the lock is engaged the network exposes its status instruments only. -/
def xTapIjtagAccess (i : Nat) : Effect := fun _ d => d.selectTap i 0x10
/-- UNLOCK is an instruction of IA only; elsewhere its code acts as BYPASS. -/
def xTapUnlock (i : Nat) : Effect := fun _ d => d.selectTap i (if i = 4 then 0x20 else 0xFF)
def xTapBypass (i : Nat) : Effect := fun _ d => d.selectTap i 0xFF
/-- Test-Logic-Reset selects IDCODE on every die (IEEE 1149.1). -/
def xTapReset : Effect := fun _ d => d.each (List.range 6) (fun d i => d.selectTap i 0x01)

/-- The UNLOCK register is selected on IA, and Obsidian runs. -/
def Dev.unlockSelected (d : Dev) : Bool := mget 0 d.sec.tap 4 == 0x20 && d.obsidian

/-- UNLOCK_NONCE_READ (R451). -/
def xUnlockNonceRead : Effect := fun _ d =>
  if !d.unlockSelected then d
  else
    let (v, d) := d.nonce
    (d.setSec (fun s => { s with nonce := some v })).emit (.nonce v)

/-- The unlock record for a nonce (R451). -/
def Dev.unlockOk (d : Dev) (record : BitVec 512) (sig : List Byte) (nonce : BitVec 256) : Bool :=
  fb record 31 0 == 0x4C4E5548 && fb record 111 32 == d.serial && fb record 383 128 == nonce.toNat && rsvZero record.toNat [(511, 384), (127, 112)]
    && sig.length == 8192 && sigResult d.sec.keys (sha512 (toLE 64 record.toNat)) sig == 0

/-- UNLOCK_RECORD (R451). -/
def xUnlockRecord (record : BitVec 512) (sig : List Byte) : Effect := fun _ d =>
  if !d.unlockSelected then d
  else match d.sec.nonce with
    | none => d
    | some n =>
      if d.unlockOk record sig n then (d.setSec (fun s => { s with unlockPending := true })).bump Reg.secUnlocks else d

/-! One meaning per command. -/

def execBundleReceived (bytes : List Byte) (s : State) : Host.Outcome State Fault Refusal := s.run (xBundleReceived bytes)
def execBundleVerified (o : StackOutcome) (s : State) : Host.Outcome State Fault Refusal := s.run (xBundleVerified o)
def execRsaKeyReady (s : State) : Host.Outcome State Fault Refusal := s.run xRsaKeyReady
def execGetVersion (ch : Fin 6) (msg : List Byte) (s : State) : Host.Outcome State Fault Refusal := s.run (xGetVersion ch.val msg)
def execGetCapabilities (ch : Fin 6) (msg : List Byte) (s : State) : Host.Outcome State Fault Refusal := s.run (xGetCapabilities ch.val msg)
def execNegotiateAlgorithms (ch : Fin 6) (msg : List Byte) (s : State) : Host.Outcome State Fault Refusal :=
  s.run (xNegotiateAlgorithms ch.val msg)
def execGetDigests (ch : Fin 6) (msg : List Byte) (s : State) : Host.Outcome State Fault Refusal := s.run (xGetDigests ch.val msg)
def execGetCertificate (ch : Fin 6) (msg : List Byte) (s : State) : Host.Outcome State Fault Refusal := s.run (xGetCertificate ch.val msg)
def execSetCertificate (ch : Fin 6) (msg : List Byte) (s : State) : Host.Outcome State Fault Refusal := s.run (xSetCertificate ch.val msg)
def execChallenge (ch : Fin 6) (msg : List Byte) (s : State) : Host.Outcome State Fault Refusal := s.run (xChallenge ch.val msg)
def execGetMeasurements (ch : Fin 6) (msg : List Byte) (s : State) : Host.Outcome State Fault Refusal := s.run (xGetMeasurements ch.val msg)
def execKeyExchange (ch : Fin 6) (msg : List Byte) (s : State) : Host.Outcome State Fault Refusal := s.run (xKeyExchange ch.val msg)
def execFinish (ch : Fin 6) (msg : List Byte) (s : State) : Host.Outcome State Fault Refusal := s.run (xFinish ch.val msg)
def execEndSession (ch : Fin 6) (msg : List Byte) (s : State) : Host.Outcome State Fault Refusal := s.run (xEndSession ch.val msg)
def execQuote (ch : Fin 6) (nonce : BitVec 256) (s : State) : Host.Outcome State Fault Refusal := s.run (xQuote ch.val nonce)

/-- Who writes the registers of mailbox `m`: port m, or context 0 for m = 4 (R453). -/
def mayMailbox (r : Requester) (m : Nat) : Bool := match r with | .host p => p.val == m | _ => m == 4

def mboxWord (d : Dev) (m cmd : Nat) : BitVec 32 := BitVec.ofNat 32 (setFld (d.reg (Reg.secMboxCtrl m)).toNat 31 30 cmd)

def execSecMboxSend (r : Requester) (m : Fin 5) (s : State) : Host.Outcome State Fault Refusal :=
  s.runReg r (Reg.secMboxCtrl m.val) (mboxWord s.dev m.val 1) (fun _ => mayMailbox r m.val)
    (fun mem d => d.mboxCtrlWrite mem m.val (mboxWord d m.val 1))
def execSecMboxAbandon (r : Requester) (m : Fin 5) (s : State) : Host.Outcome State Fault Refusal :=
  s.runReg r (Reg.secMboxCtrl m.val) (mboxWord s.dev m.val 2) (fun _ => mayMailbox r m.val)
    (fun mem d => d.mboxCtrlWrite mem m.val (mboxWord d m.val 2))
def execLinkKeyRecord (session : Fin 8) (record : BitVec 768) (s : State) : Host.Outcome State Fault Refusal :=
  s.run (xLinkKeyRecord session.val record)
def execUnlockNonceRead (s : State) : Host.Outcome State Fault Refusal := s.run xUnlockNonceRead
def execUnlockRecord (record : BitVec 512) (sig : List Byte) (s : State) : Host.Outcome State Fault Refusal := s.run (xUnlockRecord record sig)
def execTapIdcode (d : Fin 6) (s : State) : Host.Outcome State Fault Refusal := s.run (xTapIdcode d.val)
def execTapSamplePreload (d : Fin 6) (s : State) : Host.Outcome State Fault Refusal := s.run (xTapSamplePreload d.val)
def execTapExtest (d : Fin 6) (s : State) : Host.Outcome State Fault Refusal := s.run (xTapExtest d.val)
def execTapClamp (d : Fin 6) (s : State) : Host.Outcome State Fault Refusal := s.run (xTapClamp d.val)
def execTapHighz (d : Fin 6) (s : State) : Host.Outcome State Fault Refusal := s.run (xTapHighz d.val)
def execTapIjtagAccess (d : Fin 6) (s : State) : Host.Outcome State Fault Refusal := s.run (xTapIjtagAccess d.val)
def execTapUnlock (d : Fin 6) (s : State) : Host.Outcome State Fault Refusal := s.run (xTapUnlock d.val)
def execTapBypass (d : Fin 6) (s : State) : Host.Outcome State Fault Refusal := s.run (xTapBypass d.val)
def execTapReset (s : State) : Host.Outcome State Fault Refusal := s.run xTapReset

end Sys2Proof.Machine
end

