-- ==== Sys2Proof/Machine/HostResp.lean ====
section
/-! DEFINITION. Responses from hosts (R331, R342, R347). -/

namespace Sys2Proof.Machine

/-- The error code of a failing Pequa STATUS: the code of Table 12.1 of that name; for the others a free value (log entry 89). -/
def hostCode (st : Nat) : Nat :=
  if st = stADDR then 0x0301 else if st = stACCESS then 0x0302 else if st = stMEMUE then 0x0304 else if st = stABSENT then 0x0401
  else (Config.hostError st).toNat

/-- A request to a host has ended with a failing STATUS. -/
def Dev.hostFailed (d : Dev) (t : Tag) (st : Nat) : Dev :=
  match t.purpose with
  | .runLine => d.lineFailed t.a t.b
  | .runInput | .copyRead | .copyWrite => d.runFails t.ctx (BitVec.ofNat 32 t.b) (hostCode st) t.addr.toNat
  | .strata => d.strataFail 1
  | .mailbox => d.mailboxError t.a 1
  | .mailboxReply => d.mailboxError t.a 3
  | .cplBody => d.cplBodyDone t.a (BitVec.ofNat 32 t.b)
  | .evtBody => d.evtBodyDone t.a t.b
  | _ => d

/-- A request to a host has been performed. -/
def Dev.hostPerformed (d : Dev) (m : Mem) (t : Tag) (k : HPacket) : Dev :=
  match t.purpose with
  | .runLine =>
    let p := (d.ctx t.a).port
    if d.coherent p && k.grant != 2 then d.lineFailed t.a t.b else d.lineData t.a t.b k.data (d.coherent p)
  | .runInput => d.inputData m t.ctx (BitVec.ofNat 32 t.b) k.data
  | .copyRead => (d.copyArrives m t.ctx (BitVec.ofNat 32 t.b) k.data).1
  | .copyWrite => d.copyAck m t.ctx (BitVec.ofNat 32 t.b)
  | .cplBody => d.cplBodyDone t.a (BitVec.ofNat 32 t.b)
  | .evtBody => d.evtBodyDone t.a t.b
  | .strata => d.strataBlock k.data
  | .mailbox => d.mboxData t.a k.data
  | .mailboxReply => d.mboxAck t.a
  | _ => d

/-- The bytes of a COPY must wait for their place in local memory. -/
def Dev.copyWaits (d : Dev) (m : Mem) (t : Tag) (k : HPacket) : Dev × Bool :=
  if t.purpose == .copyRead && k.status = 0 then
    let (d, taken) := d.copyArrives m t.ctx (BitVec.ofNat 32 t.b) k.data
    (d, !taken)
  else (d, false)

/-- The request of port `p` that a response answers. -/
def Dev.hostAnswered (d : Dev) (p : Nat) (k : HPacket) : Option Tag :=
  d.tags.find? (fun t => t.port == p && t.tag == k.tag &&
    (match t.sent with | some s => isReadOpc s.opc == (k.opc == 0x18) | none => false))

/-- HDATA and HCMP (R347): matched by TAG and GEN. The response to a retired request frees its TAG and is dropped. -/
def xHostResponse (op p : Nat) (k : HPacket) : Effect := fun m d =>
  if k.opc != op || !(d.host p).up then d
  else match d.hostAnswered p k with
    | none => (d.takenHost p k).bump (Reg.ctxStaleDrop k.ctx)
    | some t =>
      if t.reserved then ((((d.takenHost p k).releaseTag t).bump (Reg.ctxStaleDrop k.ctx))).hostRetry p
      else if k.gen != d.genOf t.ctx then (d.takenHost p k).bump (Reg.ctxStaleDrop k.ctx)
      else
        let (d', wait) := d.copyWaits m t k
        if wait then d'
        else
          let d := (d.takenHost p k).releaseTag t
          (if k.status = 0 then d.hostPerformed m t k else d.hostFailed t k.status).hostRetry p

def execHdata (p : Fin 4) (k : HPacket) (s : State) : Host.Outcome State Fault Refusal := s.run (xHostResponse 0x18 p.val k)
def execHcmp (p : Fin 4) (k : HPacket) (s : State) : Host.Outcome State Fault Refusal := s.run (xHostResponse 0x19 p.val k)

end Sys2Proof.Machine
end

