-- ==== Sys2Proof/Machine/Mover.lean ====
section
/-! DEFINITION. Tile movers and the gather engine (R182, R183, R190, R191). -/

namespace Sys2Proof.Machine

/-! Reads and writes that skip what delivers no data (R194). -/

/-- Units (address, length) within [a, a + n) of local memory that deliver no data. -/
def Dev.badUnits (d : Dev) (a n : Nat) : List (Nat × Nat) :=
  match scrPlace a with
  | none => (d.badBursts.filter (fun b => 32 * b < a + n && a < 32 * b + 32)).map (fun b => (32 * b, 32))
  | some (t, o) => ((d.tile t).badWithin o n).map (fun w => (scrBase t + 8 * w, 8))

/-- Read [a, a + n): nothing for the bytes of a bad unit, each of which is counted and recorded; the error of the first. -/
def Dev.loadSparse (d : Dev) (m : Mem) (a n : Nat) : Dev × List (Option Byte) × Option (Nat × Nat) :=
  let bad := d.badUnits a n
  let bytes := (peekN m d a n).zipIdx.map (fun x =>
    if bad.any (fun u => u.1 ≤ a + x.2 && a + x.2 < u.1 + u.2) then none else some x.1)
  let d := d.each bad (fun d u =>
    match scrPlace u.1 with
    | some (t, o) => d.wordBad m t (o / 8)
    | none => d.burstBad u.1)
  (d, bytes, bad.head?.map (fun u => (if isHbm u.1 then 0x0304 else 0x0303, u.1)))

/-- The runs of bytes that are there, with their offsets. -/
def runsFrom : Nat → List (Option Byte) → Option (Nat × List Byte) → List (Nat × List Byte)
  | _, [], none => []
  | _, [], some r => [(r.1, r.2.reverse)]
  | i, none :: l, none => runsFrom (i + 1) l none
  | i, none :: l, some r => (r.1, r.2.reverse) :: runsFrom (i + 1) l none
  | i, some b :: l, none => runsFrom (i + 1) l (some (i, [b]))
  | i, some b :: l, some r => runsFrom (i + 1) l (some (r.1, b :: r.2))

/-- Write the runs at `a`; the error of the first write that is not performed. -/
def Dev.storeSparse (d : Dev) (m : Mem) (a : Nat) (l : List (Option Byte)) : Dev × Option (Nat × Nat) :=
  (runsFrom 0 l none).foldl (fun (acc : Dev × Option (Nat × Nat)) r =>
    let (d, e) := acc.1.store m (a + r.1) r.2
    (d, match acc.2 with | some x => some x | none => e)) (d, none)

/-! Entries (Table 6.9). -/

def moveSrc (e : BitVec 512) : Nat := fb e 511 448
def moveDst (e : BitVec 512) : Nat := fb e 447 384
def moveLen (e : BitVec 512) : Nat := fb e 383 352
def moveRows (e : BitVec 512) : Nat := fb e 351 336 + 1
def moveSrcStride (e : BitVec 512) : Nat := fb e 335 304
def moveDstStride (e : BitVec 512) : Nat := fb e 303 272
def moveOp (e : BitVec 512) : Nat := fb e 255 252
def movePrio (e : BitVec 512) : Nat := fb e 251 250
def moveFence (e : BitVec 512) : Bool := e.getLsbD 249
def moveSemEn (e : BitVec 512) : Bool := e.getLsbD 248
def moveSem (e : BitVec 512) : Nat := fb e 247 244

/-- Rows as (source, destination) global addresses. -/
def moveRowList (e : BitVec 512) : List (Nat × Nat) :=
  (List.range (moveRows e)).map (fun i => ((moveSrc e + i * moveSrcStride e) % 2 ^ 64, (moveDst e + i * moveDstStride e) % 2 ^ 64))

def Dev.ringSlots (d : Dev) (t : Nat) : Nat := 2 ^ d.rf (Reg.tileMoveCtrl t) 23 20

/-- The next entry can start: the mover runs, an entry is posted, fewer than four are in flight (R191). -/
def Dev.moverReady (d : Dev) (t : Nat) : Bool :=
  let x := d.tile t
  d.tileRuns t && d.rb (Reg.tileMoveCtrl t) 31 && !x.stopped && !x.moverStopped && x.moveNext != x.moveProd
    && (x.moves.filter (fun e => !e.done)).length < 4 && !x.clearing

def Dev.moveSlotAt (d : Dev) (t : Nat) : Nat := (d.tile t).moveNext.toNat % d.ringSlots t
def Dev.moveEntryAt (d : Dev) (t : Nat) : Nat := d.rf (Reg.tileMoveCtrl t) 19 0 * 32 + 2048 + d.moveSlotAt t * 64

/-- The entry ends the tile's work (R191). -/
def Dev.moveFail (d : Dev) (m : Mem) (t : Nat) (number : BitVec 32) (code addr : Nat) (record : Bool) : Dev :=
  let slot := number.toNat % d.ringSlots t
  let x := d.tile t
  let d := d.setTile t { x with moves := x.moves.map (fun e =>
    if e.number == number then { e with error := BitVec.ofNat 16 code, detail := slot } else e) }
  d.tileErrorAt m t code (if code = 0x0307 then slot else addr) 0 record slot addr

/-- Start the next entry, of operation `op`, once FENCE allows it: its number and its bits. Reserved OP and PRIO end the tile's
work (taken by COPY where OP is reserved); an entry that cannot be read ends it with that error. -/
def Dev.moveTake (d : Dev) (m : Mem) (t op : Nat) : Dev × Option (BitVec 32 × BitVec 512) :=
  let x := d.tile t
  if !d.moverReady t then (d, none)
  else
    let a := d.moveEntryAt t
    let e := BitVec.ofNat 512 (peekLE m d (scrBase t + a) 64)
    let n := x.moveNext
    if moveOp e != op && !(op = 0 && 3 ≤ moveOp e) then (d, none)
    else if moveFence e && !(x.moves.all (fun y => y.done)) then (d, none)
    else
      let (d', bad) := d.scrRead m t [(a, 64)] { corrected := [], bad := [] }
      let started := fun (d : Dev) =>
        let x := d.tile t
        d.setTile t { x with moveNext := x.moveNext + 1, moves := x.moves ++ [({ number := n, entry := e } : MoveEntry)] }
      match bad with
      | some w => (d'.moveFail m t n 0x0303 (8 * w) false, none)
      | none =>
        if 3 ≤ moveOp e || (op != 2 && movePrio e = 0) || (op != 2 && (moveLen e = 0 || 2 ^ 30 < moveLen e)) then
          ((started d').moveFail m t n 0x0307 0 false, none)
        else (started d', some (n, e))

/-- Local addresses of a row. -/
def Dev.localAt (d : Dev) (g : Nat) : Option Nat := if d.isLocal g then some (gOffset g) else none

/-- Check one end of a row. -/
def Dev.rowCheck (d : Dev) (c : Nat) (g : Nat) (n : Nat) : Dev × Option (Nat × Nat) :=
  match d.localAt g with
  | none => (d, none)
  | some a =>
    let (d, e) := d.accessCheck c a n
    (d, e.map (fun code => (code, a)))

/-- Copy one row for entry `number` of tile `t`: locally at once, or by requests (R191, R226). -/
def Dev.copyRow (d : Dev) (m : Mem) (c t : Nat) (number : BitVec 32) (len : Nat) (row : Nat × Nat) : Dev × Option (Nat × Nat) :=
  let (d, e1) := d.rowCheck c row.1 len
  let (d, e2) := if e1.isSome then (d, none) else d.rowCheck c row.2 len
  match e1, e2 with
  | some e, _ => (d, some e)
  | none, some e => (d, some e)
  | none, none =>
    let d := d.bumpN (Reg.tileMoveBytes t) len
    match d.localAt row.1, d.localAt row.2 with
    | some a, some b =>
      let (d, bytes, e) := d.loadSparse m a len
      let (d, e') := (d.wakeMover b len).storeSparse m b bytes
      (d, match e with | some x => some x | none => e')
    | some a, none =>
      let (d, bytes, e) := d.loadSparse m a len
      (d.each (runsFrom 0 bytes none) (fun d r => d.fabWrite c (row.2 + r.1) r.2 .mover t number.toNat 0), e)
    | none, some b =>
      if inBlock (gOffset row.1) len then (d.fabRead c row.1 len .mover t number.toNat b, none)
      else (d.fabBget c row.1 len row.2 .mover t number.toNat 0, none)
    | none, none => (d.fabBget c row.1 len row.2 .mover t number.toNat 0, none)

/-- Rows in order, up to the first error. -/
def Dev.overRows (f : Dev → Nat × Nat → Dev × Option (Nat × Nat)) : List (Nat × Nat) → Dev → Dev × Option (Nat × Nat)
  | [], d => (d, none)
  | r :: l, d =>
    let (d, e) := f d r
    match e with
    | some x => (d, some x)
    | none => Dev.overRows f l d

/-- Some row must wait for zeroing, a clear, or a host's copy. -/
def Dev.rowsWait (d : Dev) (l : List (Nat × Nat)) (len : Nat) (read : Bool) : Dev × Bool :=
  l.foldl (fun (acc : Dev × Bool) r =>
    let one := fun (acc : Dev × Bool) (g : Nat) (write : Bool) =>
      match acc.1.localAt g with
      | none => acc
      | some a =>
        if !inMemory a len then acc
        else
          let (d, b) := acc.1.cohBlocked a len write
          (d, acc.2 || b || d.mustWait a len)
    let acc := if read then one acc r.1 false else acc
    one acc r.2 true) (d, false)

/-- An entry's work is done: SEM is set, CONS moves over the completed prefix (R191). -/
def Dev.moveFinish (d : Dev) (t : Nat) (number : BitVec 32) : Dev :=
  let x := d.tile t
  match x.moves.find? (fun e => e.number == number) with
  | none => d
  | some e =>
    let l := x.moves.map (fun y => if y.number == number then { y with done := true } else y)
    let prefix_ := l.takeWhile (fun y => y.done)
    let d := d.setTile t { x with moves := l.drop prefix_.length }
    let d := d.setRegN (Reg.tileMoveCons t) (((d.reg (Reg.tileMoveCons t)).toNat + prefix_.length) % 2 ^ 32)
    if moveSemEn e.entry then d.setSem t (moveSem e.entry) (4 * t + 2) else d

/-- The context whose work a mover does. -/
def Dev.moverCtx (d : Dev) (t : Nat) : Nat := (d.ownerOf t).getD 0

/-! The commands. -/

/-- MOVE_COPY (R191). -/
def xMoveCopy (t : Nat) : Effect := fun m d =>
  let (d', got) := d.moveTake m t 0
  match got with
  | none => d'
  | some (n, e) =>
    let rows := moveRowList e
    let (d0, wait) := d.rowsWait rows (moveLen e) true
    if wait then d0
    else
      let (d', err) := Dev.overRows (fun d r => d.copyRow m (d.moverCtx t) t n (moveLen e) r) rows d'
      match err with
      | some (code, a) => d'.moveFail m t n code a false
      | none => d'

/-- Zero one row. -/
def Dev.fillRow (d : Dev) (m : Mem) (c t : Nat) (number : BitVec 32) (len : Nat) (row : Nat × Nat) : Dev × Option (Nat × Nat) :=
  let (d, e) := d.rowCheck c row.2 len
  match e with
  | some x => (d, some x)
  | none =>
    let d := d.bumpN (Reg.tileMoveBytes t) len
    match d.localAt row.2 with
    | some b => (d.wakeMover b len).store m b (List.replicate len 0)
    | none => (d.fabWrite c row.2 (List.replicate len 0) .mover t number.toNat 0, none)

/-- MOVE_FILL (R191): zeros to DST. -/
def xMoveFill (t : Nat) : Effect := fun m d =>
  let (d', got) := d.moveTake m t 1
  match got with
  | none => d'
  | some (n, e) =>
    let rows := moveRowList e
    let (d0, wait) := d.rowsWait rows (moveLen e) false
    if wait then d0
    else
      let (d', err) := Dev.overRows (fun d r => d.fillRow m (d.moverCtx t) t n (moveLen e) r) rows d'
      match err with
      | some (code, a) => d'.moveFail m t n code a false
      | none => d'

/-- MOVE_GATHER (R182): the descriptor is submitted to the die's gather engine. -/
def xMoveGather (t : Nat) : Effect := fun m d => (d.moveTake m t 2).1

/-- MOVE_ENTRY_COMPLETE (R191): every write of the entry is visible. -/
def xMoveEntryComplete (t : Nat) (n : BitVec 32) : Effect := fun _ d =>
  match (d.tile t).moves.find? (fun e => e.number == n) with
  | none => d
  | some e =>
    if e.done || e.error != 0 || moveOp e.entry = 2 || !d.tclk t || d.outstanding .mover t n.toNat then d else d.moveFinish t n

/-! The gather engine. -/

/-- Descriptor fields (Table 6.6). -/
def gDstStride (g : BitVec 256) : Nat := fb g 255 236 * 32
def gDstAddr (g : BitVec 256) : Nat := fb g 235 216 * 32
def gColBytes (g : BitVec 256) : Nat := fb g 215 196
def gColOff (g : BitVec 256) : Nat := fb g 195 176
def gRowBytes (g : BitVec 256) : Nat := fb g 175 156
def gCount (g : BitVec 256) : Nat := fb g 155 140
def gList (g : BitVec 256) : Nat := fb g 139 120 * 32
def gTableLen (g : BitVec 256) : Nat := fb g 119 96
def gTable (g : BitVec 256) : Nat := fb g 95 62 * 64

/-- Where slice `i` goes. -/
def gSlice (g : BitVec 256) (i : Nat) : Nat := gDstAddr g + i * (if gDstStride g = 0 then gColBytes g else gDstStride g)

/-- The fields keep Table 6.6, and list and slices lie in the scratchpad. -/
def gatherOk (g : BitVec 256) : Bool :=
  1 ≤ gColBytes g && gColBytes g % 32 == 0 && gColOff g % 32 == 0 && gColOff g < gRowBytes g && gRowBytes g % 32 == 0
    && 32 ≤ gRowBytes g && gRowBytes g ≤ 1048544 && 1 ≤ gCount g && fb g 61 0 == 0
    && gList g + 4 * gCount g ≤ 0x2000000 && gSlice g (gCount g - 1) + gColBytes g ≤ 0x2000000

/-- Pieces of [x, x + n) of the logical stream between 64 KiB boundaries. -/
def pagePieces : Nat → Nat → Nat → List (Nat × Nat)
  | 0, _, _ => []
  | k + 1, x, n =>
    if n = 0 then []
    else
      let len := min n (65536 - x % 65536)
      (x, len) :: pagePieces k (x + len) (n - len)

/-- The HBM offset of a piece, where its logical page is mapped and admitted (R177, R183). -/
def Dev.gatherPlace (d : Dev) (m : Mem) (c : Nat) (g : BitVec 256) (p : Nat × Nat) : Dev × Option Nat :=
  let lp := p.1 / 65536
  let ta := gTable g + 4 * lp
  if gTableLen g ≤ lp || !isHbm (ta + 3) || !d.admits c ta 4 then (d, none)
  else
    let e := peekLE m d ta 4
    let a := e % 2 ^ 24 * 65536 + p.1 % 65536
    if !e.testBit 31 then (d, none)
    else
      let (d, err) := d.accessCheck c a p.2
      if err.isSome || !isHbm (a + p.2 - 1) || (c != 0 && !((pagesOf a p.2).all (fun pg => pageKind (d.page pg) == 4))) then (d, none)
      else (d, some a)

/-- Places of all pieces, or nothing when one is faulted. -/
def Dev.gatherPlaces (m : Mem) (c : Nat) (g : BitVec 256) : List (Nat × Nat) → Dev → Dev × Option (List (Nat × Nat × Nat))
  | [], d => (d, some [])
  | p :: l, d =>
    let (d, a) := d.gatherPlace m c g p
    match a with
    | none => (d, none)
    | some a =>
      let (d, r) := Dev.gatherPlaces m c g l d
      (d, r.map (fun r => (p.1, a, p.2) :: r))

/-- One slice: fetched and written, or faulted. The error of an uncorrectable read. -/
def Dev.gatherSlice (d : Dev) (m : Mem) (c t : Nat) (g : BitVec 256) (i pos : Nat) : Dev × Bool × Option (Nat × Nat) :=
  let start := pos * gRowBytes g + gColOff g
  let pieces := pagePieces (gColBytes g / 65536 + 2) start (gColBytes g)
  let (d, places) := Dev.gatherPlaces m c g pieces d
  match places with
  | none => (d, true, none)
  | some l =>
    let (d, e) := l.foldl (fun (acc : Dev × Option (Nat × Nat)) q =>
      let (d, bytes, e) := (acc.1.quarry q.2.1 q.2.2).loadSparse m q.2.1 q.2.2
      let a := scrBase t + gSlice g i + (q.1 - start)
      let (d, e') := (d.wakeMover a q.2.2).storeSparse m a bytes
      (d, match acc.2, e with
          | some x, _ => some x
          | none, some x => some x
          | none, none => e')) (d, none)
    (d, false, e)

/-- All slices: index of the first faulted one, first uncorrectable error. -/
def Dev.gatherAll (m : Mem) (c t : Nat) (g : BitVec 256) : List (Nat × Nat) → Dev → Dev × Option Nat × Option (Nat × Nat)
  | [], d => (d, none, none)
  | p :: l, d =>
    let (d, faulted, e) := d.gatherSlice m c t g p.1 p.2
    let (d, f', e') := Dev.gatherAll m c t g l d
    (d, if faulted then some p.1 else f', match e with | some x => some x | none => e')

/-- GATHER_COMPLETE (R183). -/
def xGatherComplete (t : Nat) (n : BitVec 32) : Effect := fun m d =>
  match (d.tile t).moves.find? (fun e => e.number == n) with
  | none => d
  | some e =>
    if e.done || e.error != 0 || moveOp e.entry != 2 || !d.tclk t || (d.tile t).clearing then d
    else
      let c := d.moverCtx t
      let src := moveSrc e.entry % 0x2000000
      let g := BitVec.ofNat 256 (peekLE m d (scrBase t + src) 32)
      let ranges := (src, 32) :: (if gatherOk g then [(gList g, 4 * gCount g)] else [])
      let (d, bad) := d.scrRead m t ranges { corrected := [], bad := [] }
      match bad with
      | some w => d.moveFail m t n 0x0303 (8 * w) false
      | none =>
        if !gatherOk g then d.tileErrorAt m t 0x0305 0 0 false 0 0
        else
          let list := (List.range (gCount g)).map (fun i => (i, peekLE m d (scrBase t + gList g + 4 * i) 4))
          let (d, fault, err) := Dev.gatherAll m c t g list d
          match fault, err with
          | some i, _ => ((d.moveFinish t n)).tileErrorAt m t 0x0305 i 0 false i 0
          | none, some (code, a) => d.moveFail m t n code a false
          | none, none => d.moveFinish t n

def execMoveCopy (t : Fin 64) (s : State) : Host.Outcome State Fault Refusal := s.run (xMoveCopy t.val)
def execMoveFill (t : Fin 64) (s : State) : Host.Outcome State Fault Refusal := s.run (xMoveFill t.val)
def execMoveGather (t : Fin 64) (s : State) : Host.Outcome State Fault Refusal := s.run (xMoveGather t.val)
def execMoveEntryComplete (t : Fin 64) (n : BitVec 32) (s : State) : Host.Outcome State Fault Refusal :=
  s.run (xMoveEntryComplete t.val n)
def execGatherComplete (t : Fin 64) (n : BitVec 32) (s : State) : Host.Outcome State Fault Refusal := s.run (xGatherComplete t.val n)

end Sys2Proof.Machine
end

