-- ==== Sys2Proof/Machine/Recovery.lean ====
section
/-! DEFINITION. The commands that carry a reset on: the core sample (R371, R372), the scratchpad clear (R188), and the package full
recovery (R374, R460, Table 12.12). -/

namespace Sys2Proof.Machine

/-- Every copy and clear that a reset waits for may have ended: it goes on. -/
def Dev.resetsGoOn (d : Dev) (m : Mem) : Dev := (d.endResets m).recoveryGoes m

/-- A tile's sample is being copied. -/
def Dev.copying (d : Dev) (t : Nat) : Bool := (mget {} d.ras.samples t).copying

/-- The last copy has ended: LT stands, SAMPLE_TAKEN is written, the clears begin (R372). -/
def Dev.copiesOver (d : Dev) (m : Mem) : Dev :=
  if (List.range 64).any d.copying then d else (d.sampleDone m).resetsGoOn m

/-- SAMPLE_CUTOFF (R371): the copy of tile `t` has not ended 50 µs after its sample began. -/
def xSampleCutoff (t : Nat) : Effect := fun m d => if d.copying t then (d.cutSample m t).copiesOver m else d

/-- SAMPLE_COMPLETE (R372): every copy under way has written all its rows; the last tile ends. -/
def xSampleComplete : Effect := fun m d =>
  let ts := (List.range 64).filter d.copying
  if ts.isEmpty then d
  else (d.each ts (fun d t => d.sampleEnd m t (sampleRows (d.sampleWindows t)).length 1)).copiesOver m

/-- SCRATCHPAD_CLEAR_COMPLETE (R188): CLEARING drops; what waited for it goes on. -/
def xScratchpadClearComplete (t : Nat) : Effect := fun m d =>
  if !(d.tile t).clearing then d
  else
    let d := d.setTile t { d.tile t with clearing := false }
    let d := match d.ownerOf t with
      | some c => d.reloadFreed m c
      | none => d
    d.resetsGoOn m

/-- RECOVER_N_LOW (R460): the board asks for a package full recovery; ignored until start-up ends. -/
def xRecoverNLow (o : BringUpOutcome) : Effect := fun m d => d.recoverRequest m o

def execSampleCutoff (t : Fin 64) (s : State) : Host.Outcome State Fault Refusal := s.run (xSampleCutoff t)
def execSampleComplete (s : State) : Host.Outcome State Fault Refusal := s.run xSampleComplete
def execScratchpadClearComplete (t : Fin 64) (s : State) : Host.Outcome State Fault Refusal := s.run (xScratchpadClearComplete t)
def execRecoverNLow (o : BringUpOutcome) (s : State) : Host.Outcome State Fault Refusal := s.run (xRecoverNLow o)

/-- FULL_RECOVERY (R374): CMD FULL of RAS_RESET_CTRL, with how dies, links and stacks will come up. -/
def execFullRecovery (r : Requester) (o : BringUpOutcome) (s : State) : Host.Outcome State Fault Refusal :=
  s.runReg r Reg.rasResetCtrl (s.dev.regWith Reg.rasResetCtrl 31 30 3) (fun d => d.ctx0OrAdmin r)
    (fun m d => ((d.putReg Reg.rasResetCtrl (d.regWith Reg.rasResetCtrl 31 30 3)).recoverRequest m o, stOK))

end Sys2Proof.Machine
end

