-- ==== Sys2Proof/Machine/RegRead.lean ====
section
/-! DEFINITION. What a read of a register returns (R408, R410): the words of RO and LIVE fields that typed state holds, the
requester's own words (R415), counters and their latches. -/

namespace Sys2Proof.Machine

/-- Bit `i` of a word. -/
def bitAt (b : Bool) (i : Nat) : Nat := if b then 2 ^ i else 0

/-- Bits of a word, one per number that `f` holds of. -/
def bitsOf (n : Nat) (f : Nat → Bool) : Nat := (List.range n).foldl (fun a i => a + bitAt (f i) i) 0

/-- Bits [31:0] or [63:32]. -/
def halfOf (v : Nat) (hi : Bool) : Nat := if hi then v / 2 ^ 32 % 2 ^ 32 else v % 2 ^ 32

/-! Codes of the state fields. -/

def RoleState.code : RoleState → Nat
  | .reset => 0 | .training => 1 | .ready => 2 | .degraded => 3 | .roleConflict => 4 | .genIncompatible => 5

def TileState.code : TileState → Nat
  | .idle => 0 | .running => 1 | .halted => 2 | .retired => 3

def PortState.code : PortState → Nat
  | .down => 0 | .detect => 1 | .pmaTrain => 2 | .laneLock => 3 | .param => 4 | .rtt => 5 | .active => 6 | .repair => 7
  | .miswired => 8 | .failed => 9 | .disabled => 10

def LodeState.code : LodeState → Nat
  | .freeRun => 0 | .source => 1 | .acquire => 2 | .locked => 3 | .holdover => 4 | .conflict => 5

def CairnState.code : CairnState → Nat
  | .idle => 0 | .armed => 1 | .taken => 2 | .cancelled => 3

def HostState.code : HostState → Nat
  | .down => 0 | .phyTrain => 1 | .param => 2 | .credit => 3 | .active => 4 | .retrain => 5 | .disabled => 6 | .failed => 7

def CtxState.code : CtxState → Nat
  | .free => 0 | .bound => 1 | .teardown => 2 | .quarantine => 3 | .unavailable => 4

def PipeState.code : PipeState → Nat
  | .off => 0 | .running => 1 | .stopped => 2 | .fault => 3

def InState.code : InState → Nat
  | .empty => 0 | .fetching => 1 | .validating => 2 | .valid => 3 | .failed => 4

def SecState.code : SecState → Nat
  | .selfTest => 0 | .waitBundle => 1 | .verifying => 2 | .running => 3 | .failed => 4

def PowerState.code : PowerState → Nat
  | .run => 0 | .quiesce => 1 | .forward => 2 | .tripped => 3

/-! Package window. -/

/-- Records written (CTX_EVT_PROD, DEV_EVT_PROD): the ESEQ of the first record whose body is still being written (log entry 87). -/
def EventRing.prod (e : EventRing) : Nat :=
  e.heads.foldl (fun b x => if (e.next - BitVec.ofNat 32 b).toNat < (e.next - BitVec.ofNat 32 x.1).toNat then x.1 else b) e.next.toNat

/-- A word of the DEV block (Tables 1.4, 1.5, 1.10, 14.5) by register name and index. -/
def Dev.devWord (d : Dev) (r : Requester) (name : String) (i j : Nat) : Option Nat :=
  match name with
  | "DEV_IDENT_STATUS" => some d.identStatus
  | "DEV_ORDER_CODE" => some ([0x54344B41, 0x2D54312D, 0x4C, 0].getD i 0)
  | "DEV_PKG_ID" => some (fb d.fuses.pkgIdA (32 * i + 31) (32 * i))
  | "DEV_DIE_ID" => some (fb (d.fuses.record i) (32 * j + 31) (32 * j))
  | "DEV_GEN" => some d.genWord
  | "DEV_CAPS" => some d.negCaps.toNat
  | "DEV_ROLE" => some (d.role.code * 65536 + bitAt d.fenced 11 + bitAt d.ibPresent 10 + bitAt d.iaPresent 9
      + bitAt (d.idModeNext.getD d.idModeNow) 8 + bitAt d.idModeNow 7 + (match r with | .host p => p.val / 2 * 4 | _ => 0))
  | "DEV_CLK_STATUS" => some (bitsOf 6 (fun q => (d.die q).holdover) * 65536 + bitsOf 6 (fun q => (d.die q).clockLost) * 256
      + bitsOf 6 (fun q => (d.die q).locked))
  | "DEV_D2D_STATUS" => some (linkModules i * 2 ^ 24 + (d.serving i).length * 65536
      + ((d.serving i).filter (fun m => (d.module i m).half)).length * 256 + bitAt (d.cap 0 && !d.cap 1) 5
      + bitAt (i == 2 || i == 7) 4 + mget 0 d.ctlModule i)
  | "DEV_ADMIN" => some d.admin.toNat
  | "DEV_EVT_PROD" => some d.pkgEvents.prod
  | "DEV_HP_STATUS" =>
    let x := d.host i
    some (x.state.code * 2 ^ 28 + x.width.toNat * 2 ^ 26 + x.rate.toNat * 2 ^ 24 + bitAt (x.up && d.coherent i) 23 + bitAt x.cohFenced 22)
  | "DEV_HP_HOSTID_LO" => some (halfOf (d.host i).hostId.toNat false)
  | "DEV_HP_HOSTID_HI" => some (halfOf (d.host i).hostId.toNat true)
  | "DEV_PORT_SELF" => some (match r with | .host p => p.val / 2 * 4 + p.val % 2 | _ => 16)
  | _ => none

/-- A word of the strata and fabric blocks (Tables 5.20, 5.21, 7.17). -/
def Dev.fabWord (d : Dev) (name : String) (p : Nat) : Option Nat :=
  let s := d.strata
  let x := d.port p
  match name with
  | "STRATA_STATUS" => some (s.valResult.toNat * 2 ^ 24 + s.inState.code * 2 ^ 21 + bitAt s.prevValid 20 + bitAt s.curValid 19
      + s.armed * 2 ^ 16 + bitAt (s.firmware.any (fun f => d.arb f.1 < f.2.2.toNat)) 15 + bitAt s.activating.isSome 14
      + bitAt s.reverted 13)
  | "STRATA_GEN_CUR" => some s.genCur.toNat
  | "STRATA_GEN_PREV" => some s.genPrev.toNat
  | "STRATA_GEN_IN" => some s.genIn.toNat
  | "STRATA_GROUP_GEN" => some s.groupGen.toNat
  | "FAB_PORT_STATUS" => some (x.state.code * 2 ^ 28 + widthCode x.txUse * 2 ^ 26 + widthCode x.rxUse * 2 ^ 24
      + (if x.state.locked then (18 - laneTotal x.rxService) * 2 ^ 19 else 0) + bitAt x.reversed 18 + bitAt x.encOn 17
      + x.peerPorts.toNat * 256)
  | "FAB_PORT_PEER" => some (x.peerPort.toNat * 2 ^ 23 + x.peerNode.toNat)
  | "FAB_LANE_USE" => some x.rxUse.toNat
  | "FAB_LANE_FAIL" => some (if x.state.locked then 2 ^ 18 - 1 - x.rxService.toNat else 0)
  | "FAB_PORT_RTT" => some x.rtt.toNat
  | _ => none

/-- LODE_PHASE as free value `n` gives it (log entry 31). -/
def Dev.phaseAt (d : Dev) (n : Nat) : Nat := Config.phase n % d.tickUnits

/-- A word of the Lodestone, collective and RAS blocks (Tables 8.8, 9.14, 12.15); `n` is the read's free value. -/
def Dev.rasWord (d : Dev) (name : String) (i n : Nat) : Option Nat :=
  let l := d.lode
  let s : Sample := mget {} d.ras.samples i
  match name with
  | "LODE_STATUS" => some (l.state.code * 2 ^ 28 + (match l.upPort with | some p => p | none => 15) * 2 ^ 24 + l.hops % 256 * 2 ^ 16
      + bitAt l.timingIB 12 + bitAt (l.state == .locked && 1024 ≤ l.lockedTicks) 11 + bitAt (d.cap 4) 10)
  | "LODE_SRC" => some l.src.toNat
  | "LODE_NOW_LO" => some (halfOf d.now false)
  | "LODE_NOW_HI" => some (halfOf d.now true)
  | "LODE_PHASE" => some (d.phaseAt n)
  | "LODE_OFFSET" => some (unsigned 32 l.theta)
  | "COLL_STATUS" => some (bitsOf 4 (fun e => d.openings.any (fun o => !o.ended && o.engines.contains e)) * 16
      + bitsOf 4 (fun e => d.enginesIn.contains e))
  | "RAS_HEALTH" => some (d.ras.score * 2 ^ 24 + bitAt d.ras.armed 23 + bitAt d.ras.critical 22)
  | "RAS_HANG_STATUS" => some (bitAt d.ras.localCycle.isSome 31 + bitAt d.ras.remoteCycle.isSome 30
      + (match d.ras.localCycle, d.ras.remoteCycle with | some u, _ => u | none, some u => u | none, none => 0))
  | "RAS_RESET_STATUS" => some ((d.ras.resets.map (fun x => x.scope.toNat)).foldl max 0 * 2 ^ 30 + d.ras.lastUs.toNat)
  | "RAS_DEGRADED" => some d.degradedWord
  | "RAS_SAMPLE_STAT" => some (s.state.toNat * 2 ^ 30 + s.rows)
  | "RAS_SAMPLE_UE" => some s.ue
  | "RAS_SAMPLE_LT_LO" => some (halfOf s.lt.toNat false)
  | "RAS_SAMPLE_LT_HI" => some (halfOf s.lt.toNat true)
  | _ => none

/-- The hottest of some sensors. -/
def hottest (l : List (BitVec 8)) : Nat := (l.map (·.toNat)).foldl max 0

/-- A word of the SEC and PWR blocks (Tables 15.8, 16.10). -/
def Dev.secWord (d : Dev) (name : String) (i : Nat) : Option Nat :=
  let s := d.sec
  match name with
  | "SEC_STATUS" => some (s.state.code * 2 ^ 28 + bitAt s.rsaReady 27 + bitAt s.mldsaReady 26 + d.testBits * 2 ^ 24
      + bitsOf 5 (fun k => 32 ≤ (mget [] d.fuses.banks (k + 1)).length) * 2 ^ 15 + s.bundleResult.toNat)
  | "SEC_KEY_SLOTS" => some (d.fuses.revoke.toNat * 256 + bitsOf 8 (fun k => (mfind s.keys k).isSome))
  | "SEC_ARB" => some ((mget [] d.fuses.banks (i + 1)).length * 65536 + d.arb (i + 1))
  | "PWR_STATUS" => some (d.pwr.state.code * 2 ^ 30 + d.pwr.phase * 2 ^ 26 + bitAt ((List.range 4).any (fun q => (d.diePower q).limit < 8)) 25
      + bitAt d.pwr.capLow 24 + bitAt ((List.range 4).any (fun q => (d.diePower q).thermal < 8)) 23)
  | "PWR_DVFS_STATUS" => some ((d.fuses.vOffset.toList.getD i 0).toNat * 2 ^ 18 + (d.diePower i).mv.toNat * 256 + d.effectiveLevel i)
  | "PWR_PKG_POWER" => some d.pwr.watts.toNat
  | "PWR_TEMP_MAX" => some (match d.pwr.temps with
      | some t => hottest t.hbm.toList * 2 ^ 24 + hottest t.io.toList * 2 ^ 16 + hottest t.compute.toList * 256
      | none => 0)
  | _ => none

/-! Context windows. -/

/-- Entries of a protection table with one of some flags set. -/
def Dev.flagged (d : Dev) (m : Mem) (c : Nat) (fs : List Nat) : Nat :=
  ((d.entryList m c).filter (fun i => fs.any (fun f => d.flag m c i f))).length

/-- The protection table of `c` is in use. -/
def Dev.protRuns (d : Dev) (c : Nat) : Bool := d.protOn c && !(d.ctx c).prot.fault

/-- CTX_PROT_STATUS.STATE (Table 13.13). -/
def Dev.protStateCode (d : Dev) (m : Mem) (c : Nat) : Nat :=
  if !d.protOn c then 0
  else if (d.ctx c).prot.fault then 4
  else if (d.ctx c).prot.cmd.isSome then 3
  else if d.flagged m c [fTORN, fEXPOSED, fVERIFYFAIL, fSTALE] = 0 then 1
  else 2

/-- CTX_PROT_MSTEP: the lowest VSTEP of a MIRROR entry. -/
def Dev.mirrorStep (d : Dev) (m : Mem) (c : Nat) : Nat :=
  if d.protRuns c then
    (((d.entryList m c).map (fun i => d.entry m c i)).filter eMirror).foldl (fun a x => min a (eVstep x)) 0xFFFFFFFF
  else 0xFFFFFFFF

/-- A word of a context window but for the cairn block (Tables 4.11, 5.22, 9.13, 10.12, 11.13, 13.13). -/
def Dev.ctxWord (d : Dev) (m : Mem) (c : Nat) (name : String) (v : Nat) : Option Nat :=
  let x := d.ctx c
  match name with
  | "CTX_STATE" => some (x.state.code * 2 ^ 29 + x.port % 4 * 2 ^ 27 + bitAt (x.state == .bound && (d.host x.port).state == .active) 26)
  | "CTX_GEN" => some x.gen.toNat
  | "CTX_RUN_NEXT" => some x.runNext.toNat
  | "CTX_EVT_PROD" => some x.evt.prod
  | "STRATA_CTX_PHASE" => some (x.phase % 8 + (match x.switch with
      | some w => bitAt w.shadowReady 10 + bitAt w.late 9 + 2 ^ 7 + w.target % 8 * 16
      | none => 0))
  | "CTX_COLL_CLOSED_LO" => some (halfOf x.collClosed.toNat false)
  | "CTX_COLL_CLOSED_HI" => some (halfOf x.collClosed.toNat true)
  | "CTX_COLL_DONE_LO" => some (halfOf x.collDone.toNat false)
  | "CTX_COLL_DONE_HI" => some (halfOf x.collDone.toNat true)
  | "CTX_PIPE_STATUS" => some (x.pipe.state.code * 2 ^ 30 + bitsOf 8 (fun v => (x.stage v).prevLive) * 2 ^ 16
      + bitsOf 8 (fun v => (x.stage v).gateClosed) * 256 + d.rf (Reg.ctxPipeStatus c) 7 0)
  | "CTX_PIPE_REFS" => some ((x.stage v).prevRefs % 65536 * 65536 + (x.stage v).curRefs % 65536)
  | "CTX_PIPE_STASH" => some ((x.stage v).stashUsed.length * 2 ^ 24 + (x.stage v).screeBlocks)
  | "CTX_PROT_STATUS" => some (d.protStateCode m c * 2 ^ 29 + d.rf (Reg.ctxProtStatus c) 23 16 * 65536
      + (if d.protRuns c then d.flagged m c [fTORN] else 0))
  | "CTX_PROT_MSTEP" => some (d.mirrorStep m c)
  | "CTX_PROT_UNSAFE" => some (if d.protRuns c then d.flagged m c [fEXPOSED, fVERIFYFAIL, fSTALE] else 0)
  | "CTX_CAIRN_CTRL" =>
    let s := d.cairn c v
    some (d.rf (Reg.ctxCairnCtrl c v) 31 30 * 2 ^ 30 + s.state.code * 2 ^ 24 + s.result.toNat * 2 ^ 16 + bitAt s.evt 9 + bitAt s.policy 8
      + s.action.toNat)
  | "CTX_CAIRN_ARMED_LO" => some (bitsOf 32 (fun s => (d.cairn c s).state == .armed))
  | "CTX_CAIRN_ARMED_HI" => some (bitsOf 32 (fun s => (d.cairn c (32 + s)).state == .armed))
  | _ => none

/-! Tiles and dies. -/

/-- TILE_ARRAY_STATUS.STATE: RUNNING while the array holds work (log entry 87). -/
def Tile.shown (x : Tile) : TileState :=
  if x.state == .idle && (x.loader.isSome || !x.passes.isEmpty || !x.pipe.isEmpty || x.sets.any (fun s => s.2.drain != .none)) then .running
  else x.state

/-- A word of a tile's block (Tables 2.9, 2.10, 4.9, 6.12). -/
def Dev.tileWordRead (d : Dev) (t : Nat) (name : String) : Option Nat :=
  let x := d.tile t
  match name with
  | "TILE_ARRAY_STATUS" => some (x.shown.code * 2 ^ 30 + x.width * 65536 + bitAt (x.sets.any (fun s => s.2.marked)) 10
      + bitAt (x.keeper.state == .fill || x.keeper.state == .decay) 9 + bitAt (x.keeper.state == .ramp) 8
      + bitAt (x.sets.any (fun s => s.2.drain != .none)) 4 + bitAt (!x.pipe.isEmpty) 3 + bitAt x.loader.isSome 2
      + bitAt x.bank1.valid 1 + bitAt x.bank0.valid 0)
  | "TILE_COL_MAP" => some x.bypass.toNat
  | "TILE_VEC_STATUS" => some (bitAt x.vecWaiting 1)
  | "TILE_VEC_MB" => some x.mbId.toNat
  | "TILE_SCR_STATUS" => some (((List.range 64).filter (fun b => 2 ≤ x.sparesIn b)).length * 65536
      + ((List.range 64).map x.sparesIn).sum * 256 + bitAt x.clearing 0)
  | _ => none

/-- A word of a die's block (Table 6.13, R363). -/
def Dev.dieWordRead (d : Dev) (q : Nat) (name : String) (i j : Nat) : Option Nat :=
  match name with
  | "MEM_STACK_STATUS" =>
    let s := d.stack (4 * q + i)
    let t := match d.pwr.temps with | some t => (t.hbm.toList.getD (4 * q + i) 0).toNat | none => 0
    some (s.state.toNat * 2 ^ 30 + bitAt s.rate 29 + t * 2 ^ 12 + s.soft.length)
  | "MEM_RETIRED" => some (d.retiredIn q)
  | "WAIT_SAMPLE" => some (halfOf (d.unitWait i).word.toNat (j == 1))
  | _ => none

/-! One word. -/

/-- The indices of an array register at an offset from its start, and the offset within one element. -/
def dimsIndex : List (Nat × Nat) → Nat → List Nat × Nat
  | [], off => ([], off)
  | (_, s) :: r, off =>
    let y := dimsIndex r (off % s)
    (off / s :: y.1, y.2)

/-- Indices of the word at `k` of register `x`, and its offset within the register. -/
def RegDef.place (x : RegDef) (k : Nat) : List Nat × Nat := dimsIndex x.dims ((keySpaces k).2 - x.off)

/-- The tile or die of an indirect key. -/
def keyBlock (k : Nat) : Nat := (k - 0x10000000) / 0x10000

/-- The context of a window key. -/
def keyCtx (k : Nat) : Nat := (k - 0x100000) / 0x10000

/-- The first word of register `x` that holds key `k`: what typed state says, else the register file. -/
def Dev.plainWord (d : Dev) (m : Mem) (r : Requester) (x : RegDef) (k n : Nat) : BitVec 32 :=
  let p := x.place k
  let i := p.1.getD 0 0
  let j := p.1.getD 1 0
  let v : Option Nat := match x.space with
    | .pkg => if x.off < 0x2000 || (0x7000 ≤ x.off && x.off < 0x8000) then d.devWord r x.name i j
      else if x.off < 0x4000 then d.fabWord x.name i
      else if x.off < 0x7000 then d.rasWord x.name i n
      else d.secWord x.name i
    | .ctx => d.ctxWord m (keyCtx k) x.name i
    | .tile => d.tileWordRead (keyBlock k) x.name
    | .cdie | .iodie | .die => d.dieWordRead (keyBlock k - 0x40) x.name i j
  match v with
  | some w => BitVec.ofNat 32 w
  | none => d.reg (k - (if x.kind == .pair && p.2 == 4 then 4 else 0))

/-- A counter as the requester reads it: its own guard and RSV counters, else the counter at the key (R410, R415). -/
def Dev.counterAt (d : Dev) (r : Requester) (x : RegDef) (k : Nat) : Nat :=
  match x.name with
  | "DEV_GUARD_FAULT" => (d.req (reqIndex r)).guardFaults.toNat
  | "DEV_RSV_FAULT" => (d.req (reqIndex r)).rsvFaults.toNat
  | _ => (d.count (k - (x.place k).2)).toNat

/-- The value a word holds now: a counter's half, a register's word, the complement at the second address of a pair (R408). -/
def Dev.wordNow (d : Dev) (m : Mem) (r : Requester) (x : RegDef) (k n : Nat) : BitVec 32 :=
  let second := (x.place k).2 == 4
  match x.kind with
  | .counter => BitVec.ofNat 32 (halfOf (d.counterAt r x k) second)
  | .pair => if second then ~~~(d.plainWord m r x k n) else d.plainWord m r x k n
  | .word => d.plainWord m r x k n

/-- Registers whose lower word latches the upper one at the next address (R410); LODE_NOW_LO latches LODE_PHASE as well (R266). -/
def latchedLo (x : RegDef) : Bool :=
  ["LODE_NOW_LO", "DEV_HP_HOSTID_LO", "RAS_SAMPLE_LT_LO", "CTX_RNG_SEED_ACT_LO", "CTX_COLL_CLOSED_LO", "CTX_COLL_DONE_LO",
   "CTX_CAIRN_ARMED_LO"].contains x.name

/-- The word latches others when it is read. -/
def latches (x : RegDef) (k : Nat) : Bool := (x.kind == .counter && (x.place k).2 == 0) || latchedLo x

/-- A latched word and its value as of this read. -/
def Dev.latch (d : Dev) (m : Mem) (r : Requester) (via k n : Nat) : Dev :=
  match regAt k with
  | none => d
  | some x =>
    let q := d.req (reqIndex r)
    d.setReq (reqIndex r) { q with latches := mset q.latches (k + 2 ^ 32 * via) (d.wordNow m r x k n) }

/-- A tile's words that a RETIRED tile still gives (R421). -/
def keptWhenRetired (x : RegDef) : Bool := x.kind == .counter || x.name == "TILE_ARRAY_STATUS" || x.name == "TILE_COL_MAP"

/-- A 4-byte read of the word at `k` of register `x`, directly (`via` 0) or through IND pair `via - 1`: a latched word if there is one,
else the word as it stands, which may latch others. -/
def Dev.readWord (d : Dev) (m : Mem) (r : Requester) (via : Nat) (x : RegDef) (k : Nat) : Dev × BitVec 32 :=
  if x.space == .tile && (d.tile (keyBlock k)).state == .retired && !keptWhenRetired x then (d, 0)
  else match mfind (d.req (reqIndex r)).latches (k + 2 ^ 32 * via) with
    | some v => (d, v)
    | none =>
      let (n, d) := if x.name == "LODE_NOW_LO" || x.name == "LODE_PHASE" then d.takeFree else (0, d)
      let v := d.wordNow m r x k n
      let d := if latches x k then d.latch m r via (k + 4) n else d
      (if x.name == "LODE_NOW_LO" then d.latch m r via Reg.lodePhase n else d, v)

end Sys2Proof.Machine
end

