-- ==== Sys2Proof/Machine/RegWrite.lean ====
section
/-! DEFINITION. What an accepted write of a register does (R408, R412): the range rules and effects of the owning chapters, in one
dispatch by register name. -/

namespace Sys2Proof.Machine

/-- Write the register unless a condition bars it. -/
def Dev.putIf (d : Dev) (b : Bool) (k : Nat) (v : BitVec 32) : Dev := if b then d.putReg k v else d

/-! Tiles and compute dies. -/

/-- TILE_MOVE_CTRL (R201, Table 6.12): ignored while the mover is enabled and has entries to complete. -/
def Dev.moveCtrlWrite (d : Dev) (m : Mem) (t : Nat) (v : BitVec 32) : Dev :=
  let k := Reg.tileMoveCtrl t
  let prod := peekLE m d (scrBase t + d.rf k 19 0 * 32) 4
  let busy := d.rb k 31 && prod != (d.reg (Reg.tileMoveCons t)).toNat
  d.putIf (!busy && 4 ≤ fb v 23 20 && fb v 23 20 ≤ 10 && fb v 19 0 % 64 == 0) k v

def prioOk (v : BitVec 32) : Bool := fb v 23 16 != 0 && fb v 15 12 != 0 && fb v 11 8 != 0 && fb v 7 4 != 0

/-! Context windows. -/

/-- CTX_SHARE_CTRL (R135): SIZE holds while ENABLE is set. -/
def Dev.shareCtrlWrite (d : Dev) (c : Nat) (v : BitVec 32) : Dev :=
  let k := Reg.ctxShareCtrl c
  if !([4, 8, 16, 32, 64, 128, 256].contains (fb v 8 0)) then d
  else if d.rb k 31 then d.setRf k 31 31 (fb v 31 31)
  else d.putReg k v

/-- CTX_RUN_CTRL (R339, R350): LINES holds while ENABLE is set. -/
def Dev.runCtrlWrite (d : Dev) (c : Nat) (v : BitVec 32) : Dev :=
  let k := Reg.ctxRunCtrl c
  let was := d.rb k 31
  if !([4, 8, 16, 32, 64].contains (fb v 6 0)) || fb v 23 16 = 0 then d
  else
    let d := if was then (d.setRf k 31 31 (fb v 31 31)).setRf k 23 16 (fb v 23 16) else d.putReg k v
    if !was && v.getLsbD 31 && d.bound c then d.runEnable c
    else if was && !v.getLsbD 31 then d.runDisable c
    else d

/-- A host holds a line of the context's coherent range (Table 11.13). -/
def Dev.hcohHeld (d : Dev) (c : Nat) : Bool :=
  let r := d.cohRange c
  d.directory.any (fun x => r.1 ≤ x.1 * 64 && x.1 * 64 < r.1 + r.2)

def Dev.hcohWrite (d : Dev) (c : Nat) (v : BitVec 32) : Dev :=
  d.putIf (1 ≤ fb v 30 20 && fb v 30 20 ≤ 512 && !d.hcohHeld c) (Reg.ctxHcoh c) v

/-- A descriptor of the context is open (R299). -/
def Dev.collBusy (d : Dev) (c : Nat) : Bool := d.openings.any (fun o => o.ctx == c && !o.ended)

/-- A word of context window `c` (Tables 4.11, 8.7, 9.13, 10.12, 11.13, 13.13). -/
def Dev.ctxRegWrite (d : Dev) (m : Mem) (c : Nat) (name : String) (i k : Nat) (v : BitVec 32) : Dev :=
  match name with
  | "CTX_SHARE_BASE_LO" | "CTX_SHARE_BASE_HI" => d.putIf (!d.rb (Reg.ctxShareCtrl c) 31) k v
  | "CTX_SHARE_CTRL" => d.shareCtrlWrite c v
  | "CTX_SHARE_CONS" => d.shareCons c v
  | "CTX_COLL_BASE_LO" | "CTX_COLL_BASE_HI" => d.putIf (!d.collBusy c) k v
  | "CTX_COLL_SIZE" => d.putIf (!d.collBusy c && fb v 16 0 ≤ 65536) k v
  | "CTX_COLL_CTRL" => d.putIf (fb v 26 19 != 0 && 64 ≤ fb v 18 3) k v
  | "CTX_PIPE_BASE_LO" | "CTX_PIPE_BASE_HI" => d.putIf (!d.rb (Reg.ctxPipeCtrl c) 31) k v
  | "CTX_PIPE_CTRL" => d.pipeCtrlWrite m c v
  | "CTX_PROT_BASE_LO" | "CTX_PROT_BASE_HI" => d.putIf (!d.protOn c) k v
  | "CTX_PROT_CTRL" => d.protCtrlWrite m c v
  | "CTX_LOG_PROD" => d.logProdWrite m c v
  | "CTX_CAIRN_LT_LO" | "CTX_CAIRN_LT_HI" | "CTX_CAIRN_ARG" => d.putIf ((d.cairn c i).state != .armed) k v
  | "CTX_CAIRN_CTRL" => d.cairnCtrlWrite m c i v
  | "CTX_CTRL" => d.ctxCtrlWrite m c v
  | "CTX_RUN_BASE_LO" | "CTX_RUN_BASE_HI" => d.putIf (!d.rb (Reg.ctxRunCtrl c) 31) k v
  | "CTX_RUN_CTRL" => d.runCtrlWrite c v
  | "CTX_CPL_BASE_LO" | "CTX_CPL_BASE_HI" => d.putIf (!d.rb (Reg.ctxCplCtrl c) 31) k v
  | "CTX_CPL_CTRL" => d.cplCtrlWrite c v
  | "CTX_CPL_CONS" => d.cplConsWrite c v
  | "CTX_EVT_BASE_LO" | "CTX_EVT_BASE_HI" => d.putIf (!d.rb (Reg.ctxEvtCtrl c) 31) k v
  | "CTX_EVT_CTRL" => d.evtCtrlWrite c k (d.reg k) (ringCtrl (d.reg k) v)
  | "CTX_EVT_CONS" => d.evtConsWrite c k v
  | "CTX_HCOH" => d.hcohWrite c v
  | _ => d.putReg k v

/-! The package window. -/

/-- DEV_EVT_CTRL (R426): SIZE_LOG2 and PORT hold while ENABLE is set (log entry 88). -/
def Dev.devEvtCtrlWrite (d : Dev) (v : BitVec 32) : Dev :=
  let old := d.reg Reg.devEvtCtrl
  let ring := ringCtrl old v
  let inRange := 4 ≤ fb v 4 0 && fb v 4 0 ≤ 16
  let new := if inRange && !old.getLsbD 31 then BitVec.ofNat 32 (setFld ring.toNat 30 29 (fb v 30 29)) else ring
  d.evtCtrlWrite 64 Reg.devEvtCtrl old new

/-- The sum of the 16 credit fields once FAB_VC_CREDIT_i is `v` (Table 7.17). -/
def Dev.creditSum (d : Dev) (i : Nat) (v : BitVec 32) : Nat :=
  ((List.range 8).map (fun j =>
    let w := if j = i then v else d.reg (Reg.fabVcCredit j)
    fb w 31 16 + fb w 15 0)).sum

/-- RAS_SAMPLE_WIN_t_w (R369). -/
def Dev.sampleWinWrite (d : Dev) (t w : Nat) (v : BitVec 32) : Dev :=
  let total := ((List.range 4).map (fun j => if j = w then fb v 10 0 else d.rf (Reg.rasSampleWin t j) 10 0)).sum
  d.putIf (fb v 31 19 + fb v 10 0 ≤ 8192 && total ≤ 1024) (Reg.rasSampleWin t w) v

/-- RAS_RESET_CTRL (Table 12.15). How dies and links come up in a recovery that this write starts is a free value. -/
def Dev.resetCtrlWrite (d : Dev) (m : Mem) (v : BitVec 32) : Dev :=
  let d := d.putReg Reg.rasResetCtrl v
  if fb v 31 30 = 3 then
    let (n, d) := d.takeFree
    d.recoverRequest m (Config.bringUp n)
  else d.resetCommand m (fb v 31 30) (fb v 5 0)

def mboxLenOk (v : BitVec 32) : Bool := 1 ≤ fb v 15 0 && fb v 15 0 ≤ 8192 && 64 ≤ fb v 31 16 && fb v 31 16 ≤ 8192

/-- A word of the package window; with the status it completes with. -/
def Dev.pkgRegWrite (d : Dev) (m : Mem) (r : Requester) (name : String) (i j k : Nat) (v : BitVec 32) : Dev × Nat :=
  match name with
  | "DEV_ROLE" => ({ d with idModeNext := some (v.getLsbD 8) }, stOK)
  | "DEV_ADMIN" => ({ d with admin := BitVec.ofNat 4 v.toNat }, stOK)
  | "DEV_EVT_BASE_LO" | "DEV_EVT_BASE_HI" => (d.putIf (!d.rb Reg.devEvtCtrl 31) k v, stOK)
  | "DEV_EVT_CTRL" => (d.devEvtCtrlWrite v, stOK)
  | "DEV_EVT_CONS" => (d.evtConsWrite 64 k v, stOK)
  | "DEV_HP_CTRL" => (d.hpCtrlWrite i v, stOK)
  | "DEV_HP_BIND" => (d.bindWrite m i (reqIndex r) v, stOK)
  | "DEV_CTX_QUAR" => (d.putIf (10 ≤ fb v 15 0 && d.rf Reg.fabCtrl 11 0 ≤ fb v 15 0) k v, stOK)
  | "STRATA_CTRL" => d.strataCtrlWrite m r v
  | "FAB_NODE" => (d.nodeWrite v, stOK)
  | "FAB_TORUS" => (d.torusWrite v, stOK)
  | "FAB_CTRL" => (d.putIf (fb v 23 12 != 0 && 10 ≤ fb v 11 0 && fb v 11 0 ≤ d.rf Reg.devCtxQuar 15 0) k v, stOK)
  | "FAB_ARB" => (d.putIf (2 ≤ fb v 3 0) k v, stOK)
  | "FAB_VC_CREDIT" => (d.putIf (18 ≤ fb v 15 0 && d.creditSum i v ≤ 32768) k v, stOK)
  | "FAB_PORT_CTRL" => (d.portCtrlWrite i v, stOK)
  | "LODE_CTRL" => (d.lodeCtrlWrite v, stOK)
  | "RAS_LB_CFG" => (d.lbCfgWrite i v, stOK)
  | "RAS_HEALTH_CTRL" => (d.healthCtrlWrite m v, stOK)
  | "RAS_HANG_CTRL" => (d.putIf (fb v 31 30 != 3 && fb v 19 12 != 0 && fb v 11 0 != 0) k v, stOK)
  | "RAS_SAMPLE_CTRL" => (d.sampleCtrlWrite v, stOK)
  | "RAS_RESET_CTRL" => (d.resetCtrlWrite m v, stOK)
  | "RAS_SAMPLE_WIN" => (d.sampleWinWrite i j v, stOK)
  | "SEC_MBOX_LEN" => (d.putIf (mboxLenOk v) k v, stOK)
  | "SEC_MBOX_CTRL" => d.mboxCtrlWrite m i v
  | "PWR_CTRL" => d.pwrCtrlWrite v
  | "PWR_LIMIT" => (d.limitWrite v, stOK)
  | "PWR_BOOT_CTRL" => d.bootCtrlWrite v
  | "PWR_DVFS_CTRL" => (d.dvfsWrite i v, stOK)
  | _ => (d.putReg k v, stOK)

/-- A word of a tile's block. -/
def Dev.tileRegWrite (d : Dev) (m : Mem) (t : Nat) (name : String) (k : Nat) (v : BitVec 32) : Dev :=
  match name with
  | "TILE_COL_FORCE" => d.colForce m t v
  | "TILE_MOVE_CTRL" => d.moveCtrlWrite m t v
  | _ => d.putReg k v

/-- A word of a die's block. -/
def Dev.dieRegWrite (d : Dev) (q : Nat) (name : String) (k : Nat) (v : BitVec 32) : Dev :=
  match name with
  | "TILE_KEEPER" => d.keeperWrite q v
  | "MEM_PRIO_CTRL" => d.putIf (prioOk v) k v
  | "MEM_SCRUB_CTRL" => d.putIf (fb v 7 0 != 0) k v
  | "MEM_RETIRE_FORCE" => d.retireForce q v
  | _ => d.putReg k v

/-- An accepted write of register `x` at its (first) word `k`, and the status it completes with. -/
def Dev.regWrite (d : Dev) (m : Mem) (r : Requester) (x : RegDef) (k : Nat) (v : BitVec 32) : Dev × Nat :=
  let p := x.place k
  let i := p.1.getD 0 0
  match x.space with
  | .pkg => d.pkgRegWrite m r x.name i (p.1.getD 1 0) k v
  | .ctx => (d.ctxRegWrite m (keyCtx k) x.name i k v, stOK)
  | .tile => d.tileWord (keyBlock k) (fun d => d.tileRegWrite m (keyBlock k) x.name k v)
  | .cdie | .iodie | .die => d.dieWord (keyBlock k - 0x40) (fun d => d.dieRegWrite (keyBlock k - 0x40) x.name k v)

end Sys2Proof.Machine
end

