-- ==== Sys2Proof/Machine/Regs.lean ====
section
/-! DEFINITION. Register accesses (R406 to R423): size and alignment, windows, permissions, guarded pairs, IND pairs; and the
commands of chapter 14. A result `none` is a write that changes RSV bits while the test lock is released (R409): its effect is not
described. -/

namespace Sys2Proof.Machine

/-! Permissions (R416, Table 14.4). `via` is 0 for a direct access, w + 1 for one through the IND pair of window w (64: the
requester block). -/

/-- The port that context `c` is being torn down from: its former owner may still read the window. -/
def Dev.wasOwner (d : Dev) (r : Requester) (c : Nat) : Bool :=
  match r with
  | .host p => ((d.ctx c).state == .teardown || (d.ctx c).state == .quarantine) && (d.ctx c).port == p.val
  | _ => false

/-- Who may read the window of context `c`. -/
def Dev.mayReadCtx (d : Dev) (r : Requester) (c : Nat) : Bool :=
  isCtx0 r || (c != 0 && (d.isOwner r c || d.isAdmin r || d.wasOwner r c))

/-- A register that only context 0 writes (R201, R245, R266, R350, R418). -/
def onlyCtx0 (x : RegDef) : Bool :=
  x.name == "DEV_ADMIN" || x.name == "LODE_CTRL" || x.name == "DEV_HP_CTRL" || x.name == "DEV_CTX_QUAR"
    || (0x3000 ≤ x.off && x.off < 0x4000)

/-- Registers of a tile that its owner may write. -/
def ownerWrites (x : RegDef) : Bool :=
  ["TILE_CONV_CTRL", "TILE_SHARE_MAP_LO", "TILE_SHARE_MAP_HI", "TILE_MOVE_CTRL"].contains x.name

/-- A tile or die through a pair may be reached at all: the pair of a window reaches the tiles of its context (R420). -/
def Dev.pairReaches (d : Dev) (via k : Nat) : Bool :=
  via == 65 || via == 0 || (keyBlock k < 64 && (d.ctx (via - 1)).tileMask.getLsbD (keyBlock k))

def Dev.mayReadReg (d : Dev) (r : Requester) (via k : Nat) (x : RegDef) : Bool :=
  match x.space with
  | .pkg => true
  | .ctx => d.mayReadCtx r (keyCtx k)
  | .tile => if via = 65 then d.ctx0OrAdmin r else d.mayReadCtx r (via - 1) && d.pairReaches via k
  | .cdie | .iodie | .die => via == 65

def Dev.mayWriteReg (d : Dev) (r : Requester) (via k : Nat) (x : RegDef) : Bool :=
  match x.space with
  | .pkg =>
    if 0x7000 ≤ x.off && x.off < 0x8000 then true
    else if x.name == "DEV_HP_BIND" then !isCtx0 r
    else if 0x8100 ≤ x.off && x.off < 0x8300 then mayMailbox r ((x.place k).1.getD 0 0)
    else if x.name == "STRATA_CTRL" then true
    else if onlyCtx0 x then isCtx0 r
    else d.ctx0OrAdmin r
  | .ctx => if x.name == "CTX_IND_ADDR" then d.mayReadCtx r (keyCtx k) && !d.wasOwner r (keyCtx k) else d.mayWriteCtx r (keyCtx k)
  | .tile =>
    if via = 65 then isCtx0 r
    else d.pairReaches via k && (isCtx0 r || (ownerWrites x && d.mayWriteTile r (via - 1) (keyBlock k)))
  | .cdie | .iodie | .die => via == 65 && isCtx0 r

/-! One word written. -/

/-- The write of an accepted value: with IA lost no package-wide write commits (R23, Table 12.13); RSV bits (R409); the effect. -/
def Dev.commitReg (d : Dev) (m : Mem) (r : Requester) (x : RegDef) (k : Nat) (v : BitVec 32) : Option (Dev × Nat) :=
  if d.lost 4 && k < 0x10000000 && !(0x7000 ≤ k && k < 0x8000) then some (d, stABSENT)
  else if d.changesRsv k v then (if d.sec.testLock then some (d.rsvFault r, stOK) else none)
  else some (d.regWrite m r x k v)

/-- A refused write (R417); a strata command has its counter and record as well. -/
def Dev.refuseWrite (d : Dev) (x : RegDef) (v : BitVec 32) : Dev × Nat :=
  if x.name == "STRATA_CTRL" then d.strataRefuse (fb v 3 0) else (d.bump Reg.devRegRefused, stACCESS)

/-- The write is one the requester may not make. -/
def Dev.writeBarred (d : Dev) (r : Requester) (via k : Nat) (x : RegDef) : Bool :=
  !d.mayWriteReg r via k x || (x.name == "STRATA_CTRL" && !d.ctx0OrAdmin r)

/-- What the requester holds pending, and whose failed guard it has not yet met, are gone. -/
def Dev.setPending (d : Dev) (r : Requester) (p : Option (Nat × BitVec 32)) : Dev :=
  d.setReq (reqIndex r) { d.req (reqIndex r) with pending := p, failed := none }

/-- The first word of a guarded pair at `a`: held pending; one that was pending is dropped as a failure (R411). -/
def Dev.guardFirst (d : Dev) (r : Requester) (via a : Nat) (x : RegDef) (v : BitVec 32) : Dev × Nat :=
  let d := d.breakGuard r
  if d.writeBarred r via a x then d.refuseWrite x v else (d.setPending r (some (a, v)), stOK)

/-- The second word of a guarded pair at `a` (R411). -/
def Dev.guardSecond (d : Dev) (m : Mem) (r : Requester) (via a : Nat) (x : RegDef) (v : BitVec 32) : Option (Dev × Nat) :=
  let q := d.req (reqIndex r)
  if d.writeBarred r via a x then
    let mine := match q.pending with | some (b, _) => b == a | none => true
    some (((if mine then d else d.breakGuard r).setPending r none).refuseWrite x (~~~v))
  else match q.pending with
    | none => if q.failed == some a then some (d.setPending r none, stACCESS) else some (d.guardFault r, stACCESS)
    | some (b, w) =>
      if b != a then some (((d.guardFault r).guardFault r).setPending r none, stACCESS)
      else if v != ~~~w then some ((d.guardFault r).setPending r none, stACCESS)
      else (d.setPending r none).commitReg m r x a w

/-- A 4-byte write of the word at `k` of register `x`. -/
def Dev.writeWord (d : Dev) (m : Mem) (r : Requester) (via k : Nat) (x : RegDef) (v : BitVec 32) : Option (Dev × Nat) :=
  match x.kind with
  | .pair => if (x.place k).2 = 0 then some (d.guardFirst r via k x v) else d.guardSecond m r via (k - 4) x v
  | _ =>
    let d := d.breakGuard r
    if d.writeBarred r via k x then some (d.refuseWrite x v)
    else if x.kind == .counter then some (d, stOK)
    else d.commitReg m r x k v

/-! The IND pairs (R419 to R421). -/

/-- The window whose IND_ADDR or IND_DATA lies at a direct key: 64 for the requester block. -/
def indWindow (k : Nat) : Nat := if k < 0x100000 then 64 else keyCtx k

def isIndAddr (x : RegDef) : Bool := x.name == "IND_ADDR" || x.name == "CTX_IND_ADDR"
def isIndData (x : RegDef) : Bool := x.name == "IND_DATA" || x.name == "CTX_IND_DATA"

def Dev.indAddr (d : Dev) (r : Requester) (w : Nat) : BitVec 32 := mget 0 (d.req (reqIndex r)).indAddr w

def Dev.setIndAddr (d : Dev) (r : Requester) (w : Nat) (v : BitVec 32) : Dev :=
  d.setReq (reqIndex r) { d.req (reqIndex r) with indAddr := mset (d.req (reqIndex r)).indAddr w v }

/-- OFFSET advances by 4, modulo 65,536. -/
def Dev.advance (d : Dev) (r : Requester) (w : Nat) : Dev :=
  let v := d.indAddr r w
  d.setIndAddr r w (BitVec.ofNat 32 (setFld v.toNat 15 0 (fb v 15 0 + 4)))

/-- The die of an indirect block. -/
def blockDie (b : Nat) : Nat := if b < 64 then dieOf b else b - 64

/-- Its target die does not answer: lost or isolated, or not yet up again in a full recovery. -/
def Dev.dieSilent (d : Dev) (b : Nat) : Bool :=
  d.lost (blockDie b) || (d.bringUp != .done && d.ras.resets.any (fun x => x.scope == 3))

/-- Where an IND pair points: the register and its key, or the status that stops the access. -/
def Dev.indTarget (d : Dev) (r : Requester) (w : Nat) : (RegDef × Nat) ⊕ Nat :=
  let v := d.indAddr r w
  let b := fb v 31 24
  let k := indBlock b + fb v 15 0
  if 0x46 ≤ b then .inr stADDR
  else if w < 64 && !d.pairReaches (w + 1) k then .inr stACCESS
  else if d.dieSilent b then .inr stABSENT
  else match regAt k with
    | some x => if fb v 15 0 % 4 = 0 then .inl (x, k) else .inr stADDR
    | none => .inr stADDR

/-- Count a refusal. -/
def Dev.noteRefused (d : Dev) (st : Nat) : Dev := d.bumpIf (st == stACCESS) Reg.devRegRefused

/-- One word written through IND_DATA. -/
def Dev.indWrite (d : Dev) (m : Mem) (r : Requester) (w : Nat) (v : BitVec 32) : Option (Dev × Nat) :=
  match d.indTarget r w with
  | .inr st => some (((d.breakGuard r).noteRefused st).advance r w, st)
  | .inl (x, k) => (d.writeWord m r (w + 1) k x v).map (fun y => (y.1.advance r w, y.2))

/-- One word read through IND_DATA. -/
def Dev.indRead (d : Dev) (m : Mem) (r : Requester) (w : Nat) : Dev × Nat × BitVec 32 :=
  let d := d.breakGuard r
  match d.indTarget r w with
  | .inr st => ((d.noteRefused st).advance r w, st, 0)
  | .inl (x, k) =>
    if d.mayReadReg r (w + 1) k x then
      let y := d.readWord m r (w + 1) x k
      (y.1.advance r w, stOK, y.2)
    else ((d.noteRefused stACCESS).advance r w, stACCESS, 0)

/-! Whole accesses (R407). -/

/-- The register of an address of the control region, when the access's size and alignment allow it: 4 or 8 bytes, naturally aligned but
for 8 bytes at IND_DATA, every word assigned. -/
def accessAt (addr len : Nat) : Option RegDef :=
  if 0x500000 ≤ addr then none
  else match regAt addr with
    | none => none
    | some x =>
      if len = 4 && addr % 4 = 0 then some x
      else if len = 8 && addr % 4 = 0 && isIndData x then some x
      else if len = 8 && addr % 8 = 0 && (regAt (addr + 4)).isSome then some x
      else none

/-- The context number a host's packet must carry (R415). -/
def windowCtx (addr : Nat) : Nat := if addr < 0x100000 then 0 else keyCtx addr

/-- The CTX of a host's access names the window of its address. -/
def ctxMatches (r : Requester) (c addr : Nat) : Bool := isCtx0 r || c == windowCtx addr

/-- One direct word written; IND_ADDR and IND_DATA are the requester's own. -/
def Dev.directWrite (d : Dev) (m : Mem) (r : Requester) (k : Nat) (v : BitVec 32) : Option (Dev × Nat) :=
  match regAt k with
  | none => some (d.breakGuard r, stADDR)
  | some x =>
    if isIndData x then
      if k < 0x100000 || d.mayReadCtx r (indWindow k) then d.indWrite m r (indWindow k) v
      else some ((d.breakGuard r).noteRefused stACCESS, stACCESS)
    else if isIndAddr x then
      let d := d.breakGuard r
      if !d.mayWriteReg r 0 k x then some (d.noteRefused stACCESS, stACCESS)
      else if fb v 23 16 != 0 then (if d.sec.testLock then some (d.rsvFault r, stOK) else none)
      else some (d.setIndAddr r (indWindow k) v, stOK)
    else d.writeWord m r 0 k x v

/-- One direct word read. -/
def Dev.directRead (d : Dev) (m : Mem) (r : Requester) (k : Nat) : Dev × Nat × BitVec 32 :=
  match regAt k with
  | none => (d.breakGuard r, stADDR, 0)
  | some x =>
    if !d.mayReadReg r 0 k x then ((d.breakGuard r).noteRefused stACCESS, stACCESS, 0)
    else if isIndData x then d.indRead m r (indWindow k)
    else
      let d := d.breakGuard r
      if isIndAddr x then (d, stOK, d.indAddr r (indWindow k))
      else
        let y := d.readWord m r 0 x k
        (y.1, stOK, y.2)

/-- The second word of a request after its first, which ended in `b` from `a`: one request counts one refusal (R417). -/
def refusedOnce (a b d : Dev) : Dev :=
  if b.count Reg.devRegRefused == a.count Reg.devRegRefused then d
  else { d with counters := mset d.counters Reg.devRegRefused (b.count Reg.devRegRefused) }

/-- A write of `vs`, one word or two from `addr`: the lower word first. An 8-byte write one of whose words the requester may not write is
refused whole. -/
def Dev.access (d : Dev) (m : Mem) (r : Requester) (c addr : Nat) (vs : List (BitVec 32)) : Option (Dev × Nat) :=
  match accessAt addr (4 * vs.length), vs with
  | none, _ => some (d.breakGuard r, stADDR)
  | some _, [v] => if ctxMatches r c addr then d.directWrite m r addr v else some ((d.breakGuard r).noteRefused stACCESS, stACCESS)
  | some x, [v, w] =>
    if !ctxMatches r c addr then some ((d.breakGuard r).noteRefused stACCESS, stACCESS)
    else
      let second := if isIndData x then addr else addr + 4
      let barred := fun k => match regAt k with | some y => !isIndData y && d.writeBarred r 0 k y | none => true
      if barred addr || barred second then some ((d.breakGuard r).refuseWrite x v)
      else match d.directWrite m r addr v with
        | none => none
        | some y => (y.1.directWrite m r second w).map (fun z => (refusedOnce d y.1 z.1, if y.2 = stOK then z.2 else y.2))
  | some _, _ => some (d.breakGuard r, stADDR)

/-- A read of `len` bytes from `addr`. Both words of a counter are of one instant. -/
def Dev.readAccess (d : Dev) (m : Mem) (r : Requester) (c addr len : Nat) : Dev × Nat × Nat :=
  match accessAt addr len with
  | none => (d.breakGuard r, stADDR, 0)
  | some x =>
    if !ctxMatches r c addr then ((d.breakGuard r).noteRefused stACCESS, stACCESS, 0)
    else if len = 4 then
      let y := d.directRead m r addr
      (y.1, y.2.1, y.2.2.toNat)
    else
      let second := if isIndData x then addr else addr + 4
      let y := d.directRead m r addr
      let z := y.1.directRead m r second
      let e := refusedOnce d y.1 z.1
      if y.2.1 != stOK then (e, y.2.1, 0)
      else if z.2.1 != stOK then (e, z.2.1, 0)
      else (e, stOK, y.2.2.toNat + z.2.2.toNat * 2 ^ 32)

/-! The end of an access. -/

/-- A command that is a register access: its effect, or the refusal of R409. -/
def State.access (s : State) (x : Mem → Dev → Option Dev) : Host.Outcome State Fault Refusal :=
  match x s.mem s.begin with
  | some d => .next (s.commit d)
  | none => .refused .testControl

/-- A write as a command: when the requester's link or controller is up. -/
def xWrite (r : Requester) (c addr : Nat) (vs : List (BitVec 32)) (m : Mem) (d : Dev) : Option Dev :=
  if !d.mayAsk r then some d else (d.access m r c addr vs).map (fun y => y.1.answer r y.2)

/-- A read as a command. -/
def xRead (r : Requester) (c addr len : Nat) (m : Mem) (d : Dev) : Dev :=
  if !d.mayAsk r then d
  else
    let y := d.readAccess m r c addr len
    y.1.emit (.regRead r (BitVec.ofNat 64 y.2.2) (BitVec.ofNat 8 y.2.1))

/-- The offset of an address within the guarded pair it lies in. -/
def pairWord (addr : Nat) : Option Nat :=
  if 0x500000 ≤ addr || addr % 4 != 0 then none
  else match regAt addr with
    | some x => if x.kind == .pair then some (x.place addr).2 else none
    | none => none

/-- The address of a word that latches others when it is read. -/
def isLatchWord (addr : Nat) : Bool :=
  addr < 0x500000 && addr % 4 == 0 && (match regAt addr with | some x => latches x addr | none => false)

/-- A host's register request (R331, R407): the words it carries. -/
def hostWords (k : HPacket) : List (BitVec 32) :=
  (List.range (k.data.length / 4)).map (fun i => BitVec.ofNat 32 (leOf ((k.data.drop (4 * i)).take 4)))

/-- An earlier register request of the port waits (R332). -/
def Dev.regBehind (d : Dev) (p : Nat) (k : HPacket) : Bool :=
  (d.host p).rx.contains k && ((d.host p).rx.takeWhile (fun j => j != k)).any (fun j => j.opc == 6 || j.opc == 7)

/-- RRD (R407). -/
def xRrd (p : Fin 4) (k : HPacket) : Effect := fun m d =>
  if !(d.host p.val).up || k.opc != 6 || d.regBehind p.val k then d
  else
    let d := d.takenHost p.val k
    let y := d.readAccess m (.host p) k.ctx k.addr k.len
    y.1.hostAnswer p.val k y.2.1 0 (if y.2.1 = stOK then toLE k.len y.2.2 else [])

/-- RWR (R407). -/
def xRwr (p : Fin 4) (k : HPacket) (m : Mem) (d : Dev) : Option Dev :=
  if !(d.host p.val).up || k.opc != 7 || d.regBehind p.val k then some d
  else
    let d := d.takenHost p.val k
    if k.data.length % 4 != 0 || k.data.length != k.len then some ((d.breakGuard (.host p)).hostAnswer p.val k stADDR 0 [])
    else (d.access m (.host p) k.ctx k.addr (hostWords k)).map (fun y => y.1.hostAnswer p.val k y.2 0 [])

/-- IND_DATA_ACCESS (R419): a read, or a write of a word, through a pair. -/
def xIndData (r : Requester) (w : Option (Fin 64)) (v : Option (BitVec 32)) (m : Mem) (d : Dev) : Option Dev :=
  let k := match w with | some c => Reg.ctxIndData c.val | none => Reg.indData
  match v with
  | some v => xWrite r (windowCtx k) k [v] m d
  | none => some (xRead r (windowCtx k) k 4 m d)

/-! One meaning per command. -/

def execRrd (p : Fin 4) (k : HPacket) (s : State) : Host.Outcome State Fault Refusal := s.run (xRrd p k)

def execRwr (p : Fin 4) (k : HPacket) (s : State) : Host.Outcome State Fault Refusal := s.access (xRwr p k)

/-- REGISTER_WRITE (R408): at the first address of a pair, the 8-byte write that is a guarded pair on its own (R411). -/
def execRegisterWrite (r : Requester) (c : Fin 64) (addr : BitVec 39) (v : BitVec 32) (s : State) : Host.Outcome State Fault Refusal :=
  s.access (xWrite r c.val addr.toNat (if pairWord addr.toNat = some 0 then [v, ~~~v] else [v]))

/-- GUARDED_WRITE_FIRST (R411). -/
def execGuardedWriteFirst (r : Requester) (c : Fin 64) (addr : BitVec 39) (v : BitVec 32) (s : State) : Host.Outcome State Fault Refusal :=
  s.access (fun m d => if pairWord addr.toNat = some 0 then xWrite r c.val addr.toNat [v] m d else some d)

/-- GUARDED_WRITE_SECOND (R411). -/
def execGuardedWriteSecond (r : Requester) (c : Fin 64) (addr : BitVec 39) (v : BitVec 32) (s : State) : Host.Outcome State Fault Refusal :=
  s.access (fun m d => if pairWord addr.toNat = some 4 then xWrite r c.val addr.toNat [v] m d else some d)

/-- GUARD_TIMEOUT (R411). -/
def execGuardTimeout (r : Requester) (s : State) : Host.Outcome State Fault Refusal := s.run (fun _ d => d.breakGuard r)

/-- COUNTER_LOW_READ (R410). -/
def execCounterLowRead (r : Requester) (c : Fin 64) (addr : BitVec 39) (s : State) : Host.Outcome State Fault Refusal :=
  s.run (fun m d => if isLatchWord addr.toNat then xRead r c.val addr.toNat 4 m d else d)

def execIndDataAccess (r : Requester) (w : Option (Fin 64)) (v : Option (BitVec 32)) (s : State) : Host.Outcome State Fault Refusal :=
  s.access (xIndData r w v)

/-- DEV_ADMIN_WRITE (R418). -/
def execDevAdminWrite (r : Requester) (v : BitVec 32) (s : State) : Host.Outcome State Fault Refusal :=
  s.runReg r Reg.devAdmin v (fun _ => isCtx0 r) (fun _ d => ({ d with admin := BitVec.ofNat 4 v.toNat }, stOK))

/-- DEV_EVT_CONS_WRITE (R426). -/
def execDevEvtConsWrite (r : Requester) (v : BitVec 32) (s : State) : Host.Outcome State Fault Refusal :=
  s.runReg r Reg.devEvtCons v (fun d => d.ctx0OrAdmin r) (fun _ d => (d.evtConsWrite 64 Reg.devEvtCons v, stOK))

end Sys2Proof.Machine
end

