-- ==== Sys2Proof/Machine/Responses.lean ====
section
/-! DEFINITION. Responses from the fabric (R222, R223, R226, R227, R240), their timeouts, and stream bridges (R244). -/

namespace Sys2Proof.Machine

/-! How a request ends. -/

/-- What a request's requester learns: OK with the response's data, or an error code and its address. -/
inductive Ended where
  | ok (data : List Byte)
  | failed (code addr : Nat)
deriving DecidableEq, Repr

def Ended.isOk (r : Ended) : Bool := match r with | .ok _ => true | .failed .. => false

/-- The data as one little-endian number, if the request succeeded. -/
def Ended.word (r : Ended) : Option Nat := match r with | .ok bs => some (leOf bs) | .failed .. => none

/-- A request of a mover entry has ended (R191, R240): data read goes to the destination that its request names. -/
def Dev.moverEnded (d : Dev) (m : Mem) (t : Tag) (r : Ended) : Dev :=
  let n := BitVec.ofNat 32 t.b
  let live := (d.tile t.a).moves.any (fun e => e.number == n && e.error == 0)
  if !live then d
  else match r with
    | .failed code addr => d.moveFail m t.a n code addr false
    | .ok bs =>
      if t.op != opRD then d
      else
        let (d, e) := (d.wakeMover t.c bs.length).store m t.c bs
        match e with
        | some (code, a) => d.moveFail m t.a n code a false
        | none => d

/-- The destination of a mover's read must wait for zeroing, a clear or a host's copy (R199, R334). -/
def Dev.moverWaits (d : Dev) (t : Tag) (n : Nat) : Dev × Bool :=
  if t.purpose == .mover && t.op == opRD && 0 < n then
    (if d.mustWait t.c n then (d, true) else d.cohBlocked t.c n true)
  else (d, false)

/-- A push that this node serves (R226): BGET_DONE after the last group, or with the first failing status. -/
def Dev.pushEnded (d : Dev) (i status addr : Nat) (timeout : Bool) : Dev :=
  match d.pushes.find? (fun p => p.id == i) with
  | none => d
  | some p =>
    let gone : Dev := { d with pushes := d.pushes.filter (fun q => q.id != i) }
    let k : Packet := { hdr := p.hdr, data := [] }
    if timeout then gone.retireTags (fun t => t.purpose == .bgetPush && t.a == i && !t.reserved)
    else if status != 0 then
      (gone.retireTags (fun t => t.purpose == .bgetPush && t.a == i && !t.reserved)).respond k opBGETDONE status addr 0 []
    else if d.outstanding .bgetPush i 0 then d
    else gone.respond k opBGETDONE 0 0 0 []

/-! Stream bridges (R244). -/

def Dev.bridge (d : Dev) (b : Nat) : Bridge := mget {} d.bridges b
def Dev.setBridge (d : Dev) (b : Nat) (x : Bridge) : Dev := { d with bridges := mset d.bridges b x }

/-- Requests of bridge `b` under way. -/
def ofBridge (b : Nat) (t : Tag) : Bool :=
  (t.purpose == .bridgeData || t.purpose == .bridgeProd || t.purpose == .bridgeCons) && t.a == b && !t.reserved

/-- PROD + 256 − CONS ≤ BR_BYTES. -/
def Bridge.room (x : Bridge) : Bool := (x.prod + 2 ^ 64 - x.consSeen % 2 ^ 64) % 2 ^ 64 + 256 ≤ x.bytes

/-- The ring's address of byte `p` of the stream. -/
def Bridge.place (x : Bridge) (p : Nat) : Nat := x.ring.toNat + 256 + p % max 1 x.bytes

/-- Bytes below this count are in groups that have been sent. -/
def Bridge.sent (x : Bridge) : Nat := x.prod - 64 * x.cells.length

/-- Send the cells gathered, and `gap` zeros, as one group. -/
def Dev.bridgeFlush (d : Dev) (b gap : Nat) : Dev :=
  let x := d.bridge b
  let bs := x.cells.flatMap (fun (c : BitVec 512) => toLE 64 c.toNat) ++ List.replicate gap 0
  let d := d.setBridge b { x with cells := [], prod := x.prod + gap }
  (d.bulkGroup x.ctx (x.place x.sent) bs .bridgeData b 0 x.sent).bumpN Reg.fabBridgeBytes bs.length

/-- Once every group below a count has been acknowledged, the new PROD is written with one WR. -/
def Dev.bridgeProd (d : Dev) (b : Nat) : Dev :=
  let x := d.bridge b
  let open_ := (d.tags.filter (fun t => t.purpose == .bridgeData && t.a == b && !t.reserved)).map (·.c)
  let acked := open_.foldl min x.sent
  let d := d.setBridge b { x with acked := acked }
  if acked ≤ x.prodWritten || d.outstanding .bridgeProd b 0 then d
  else (d.fabWr x.ctx x.ring.toNat (toLE 8 (acked % 2 ^ 64)) .bridgeProd b 0 acked).bumpN Reg.fabBridgeBytes 8

/-- A bridge stops: its source tile's work ends with the error. -/
def Dev.bridgeStops (d : Dev) (m : Mem) (b code addr : Nat) : Dev :=
  let x := d.bridge b
  let d := (d.retireTags (ofBridge b)).setBridge b { x with cells := [], stopped := true, needCons := false }
  d.tileErrorAt m x.tile code addr 0 false addr addr

/-- A request of a bridge has ended. -/
def Dev.bridgeEnded (d : Dev) (m : Mem) (t : Tag) (r : Ended) : Dev :=
  let b := t.a
  let x := d.bridge b
  if x.stopped then d
  else match r with
    | .failed code addr => d.bridgeStops m b code addr
    | .ok bs =>
      if t.purpose == .bridgeCons then
        let y := { x with consSeen := leOf bs % 2 ^ 64 }
        d.setBridge b { y with needCons := !y.room }
      else if t.purpose == .bridgeProd then (d.setBridge b { x with prodWritten := t.c }).bridgeProd b
      else d.bridgeProd b

/-- The bridge has taken a cell, or discarded it: the credit held for it goes back on the last hop of its route. -/
def Dev.bridgeCredit (d : Dev) (m : Mem) (b : Nat) : Dev :=
  match (d.liveRoutes m).find? (fun v => isBridge (routeDst v) && bridgeNumber (routeDst v) == b) with
  | none => d
  | some v =>
    match (d.hopsNow m v).getLast? with
    | none => d
    | some h =>
      let high := (linkEnds h.1).2 == 4 + b / 16
      let s := routeStream v
      match (d.serving h.1).find? (fun i => 0 < mget 0 ((d.module h.1 i).endAt high).held s) with
      | none => d
      | some i =>
        let x := d.module h.1 i
        let e := x.endAt high
        d.setModule h.1 i (x.withEnd high { e with held := mupd 0 e.held s (· - 1), owed := mupd 0 e.owed s (· + 1) })

/-- BRIDGE_CELL (R244): accepted while there is room; else CONS is wanted. A stopped bridge discards its route's cells. -/
def xBridgeCell (b : Nat) (cell : BitVec 512) (last : Bool) : Effect := fun m d =>
  let x := d.bridge b
  if x.route.isNone || d.lost (4 + b / 16) then d
  else if x.stopped then d.bridgeCredit m b
  else if !x.room then d.setBridge b { x with needCons := true }
  else
    let x := { x with cells := x.cells ++ [cell], prod := x.prod + 64 }
    let d := (d.setBridge b x).bridgeCredit m b
    if last then d.bridgeFlush b (roundUp x.prod 256 - x.prod)
    else if x.prod % 4096 = 0 then d.bridgeFlush b 0
    else d

/-- BRIDGE_CONS_POLL (R244). -/
def xBridgeConsPoll (b : Nat) : Effect := fun _ d =>
  let x := d.bridge b
  if x.route.isNone || d.lost (4 + b / 16) || x.stopped || !x.needCons || d.outstanding .bridgeCons b 0 then d
  else d.fabRead x.ctx (x.ring.toNat + 8) 8 .bridgeCons b 0 0

/-! Delivery to the requester. -/

/-- A request of the stage controller or of state protection has ended. -/
def Dev.pipeEnded (d : Dev) (m : Mem) (t : Tag) (r : Ended) : Dev :=
  let c := t.ctx
  match t.purpose, r.word with
  | .gatherLedger, some y => d.gatherL1 m c (t.a / 2) (t.a % 2) t.b y
  | .gatherLedger, none => d.gatherFailed m c (t.a / 2) (t.a % 2) t.b
  | .gatherRecheck, some y => d.gatherL2 m c (t.a / 2) (t.a % 2) t.b y
  | .gatherRecheck, none => d.gatherFailed m c (t.a / 2) (t.a % 2) t.b
  | .gatherData, y => d.gatherDataDone m c (t.a / 2) (t.a % 2) t.b y.isSome
  | .delivery, y => d.deliveryAck m c t.a (t.b == 1) y.isSome t.c
  | .logRecord, y => d.logAck m t.a y.isSome
  | .logHeader, y =>
    if t.b = 0 then d.logAck m t.a y.isSome
    else if t.b = 1 then d
    else (match r with
      | .ok bs => d.logHeaderRead t.a bs
      | .failed .. => if d.protOn t.a then d.fabRead t.a (d.logRemote m t.a) 40 .logHeader t.a 2 0 else d)
  | .secureRead, y => d.secureChecked m t.a t.b y
  | .restoreRead, y => d.restoreRead m t.a t.b y
  | .restoreData, y => d.restoreData m t.a t.b y.isSome
  | .applyRead, y => d.applyRetain m t.a y
  | .applySlots, y => d.applySlot m t.a t.b y
  | .resyncRead, y => d.resyncRead m t.a t.b y
  | .resyncData, y => d.copyData m t.a t.b .resyncData .resyncRecheck y.isSome
  | .resyncRecheck, y => d.copyRecheck m t.a t.b y .resyncRead [fTORN, fSTALE, fVERIFYFAIL]
  | .fetchRead, y => d.fetchRead m t.a t.b y
  | .fetchData, y => d.copyData m t.a t.b .fetchData .fetchRecheck y.isSome
  | .fetchRecheck, y => d.copyRecheck m t.a t.b y .fetchRead []
  | _, _ => d

/-- A fabric request has ended, with the STATUS of its response, or by timeout. -/
def Dev.fabEnded (d : Dev) (m : Mem) (t : Tag) (r : Ended) (status : Nat) (timeout : Bool) : Dev :=
  match t.purpose with
  | .mover => d.moverEnded m t r
  | .bridgeData | .bridgeProd | .bridgeCons => d.bridgeEnded m t r
  | .tokx | .permute => d.collWritten m t r.isOk
  | .bgetPush => d.pushEnded t.a status (match r with | .failed _ a => a | .ok _ => 0) timeout
  | .copyRead => (match r with
    | .ok bs => d.copyRemote t.ctx (BitVec.ofNat 32 t.b) bs
    | .failed code a => d.runFails t.ctx (BitVec.ofNat 32 t.b) code a)
  | .copyWrite => (match r with
    | .ok _ => d.copyAck m t.ctx (BitVec.ofNat 32 t.b)
    | .failed code a => d.runFails t.ctx (BitVec.ofNat 32 t.b) code a)
  | _ => d.pipeEnded m t r

/-! The commands. -/

/-- A response that finds no outstanding request, a retired one, or another generation (R227, R347). -/
def Dev.dropStale (d : Dev) (c : Nat) : Dev := (d.bump Reg.fabStaleDrop).bump (Reg.ctxStaleDrop c)

/-- The request a response answers. -/
def Dev.answered (d : Dev) (k : Packet) : Option Tag :=
  d.tags.find? (fun t => t.port == fabricPort && t.tag == k.tag && respOf t.op == some k.opc)

/-- The request is over: its TAG is free, and barriers that recorded it no longer wait for it. -/
def Dev.settle (d : Dev) (t : Tag) : Dev :=
  let d := { d.releaseTag t with outGroups := d.outGroups.filter (fun g => g.tag.tag != t.tag) }
  { d with cairns := d.cairns.map (fun (x : Nat × Cairn) => (x.1, { x.2 with barrierTags := x.2.barrierTags.filter (· != t.tag) })) }

/-- A response with opcode `op` (R222, R227): discarded when its end-to-end check fails (R221), dropped when stale; a group answered
BUSY is kept to be sent again (R226). -/
def xResponse (op : Nat) (k : Packet) : Effect := fun m d =>
  if k.opc != op then d
  else if !k.ecrcOk then (d.taken k).bump Reg.fabEcrcErr
  else match d.answered k with
    | none => (d.taken k).dropStale k.ctx
    | some t =>
      if t.reserved || k.gen != d.genOf t.ctx then (d.taken k).dropStale k.ctx
      else if k.opc = opBWACK && k.status = 8 then
        let d := d.taken k
        { d with outGroups := d.outGroups.map (fun g => if g.tag.tag == t.tag then { g with busy := true } else g) }
      else
        let (d', wait) := if k.status = 0 then d.moverWaits t k.data.length else (d, false)
        if wait then d'
        else
          let r := if k.status = 0 then Ended.ok k.data else Ended.failed (0x0500 + k.status) k.addr
          ((d.taken k).settle t).fabEnded m t r k.status false

/-- FAB_REQUEST_TIMEOUT (R227): the timeout error, D0 the global address; the TAG stays reserved. -/
def xFabRequestTimeout (tag : Nat) : Effect := fun m d =>
  match d.tags.find? (fun t => t.port == fabricPort && t.tag == tag && !t.reserved) with
  | none => d
  | some t =>
    let d := (d.retireTags (fun x => x.port == fabricPort && x.tag == tag)).bump Reg.fabTimeout
    d.fabEnded m t (.failed 0x0510 t.addr.toNat) 0 true

/-- TAG_RESERVE_EXPIRY (R227). A barrier that recorded the request still counts it as not acknowledged. -/
def xTagReserveExpiry (tag : Nat) : Effect := fun _ d =>
  match d.tags.find? (fun t => t.port == fabricPort && t.tag == tag && t.reserved) with
  | none => d
  | some t =>
    let d := d.releaseTag t
    { d with cairns := d.cairns.map (fun (x : Nat × Cairn) =>
        (x.1, { x.2 with barrierTags := x.2.barrierTags.map (fun n => if n = tag then n + 65536 else n) })) }

/-- BWR_GROUP_RETRY (R226): a group answered BUSY is sent again whole. -/
def xBwrGroupRetry (bulk : BitVec 16) : Effect := fun _ d =>
  match d.outGroups.find? (fun g => g.bulk == bulk && g.busy) with
  | none => d
  | some g =>
    let d := { d with outGroups := d.outGroups.map (fun (x : OutGroup) => if x.bulk == bulk && x.busy then { x with busy := false } else x) }
    d.each g.pkts (fun d k => d.sendPacket k)

def execRdRsp (k : Packet) (s : State) : Host.Outcome State Fault Refusal := s.run (xResponse opRDRSP k)
def execWrAck (k : Packet) (s : State) : Host.Outcome State Fault Refusal := s.run (xResponse opWRACK k)
def execAtomRsp (k : Packet) (s : State) : Host.Outcome State Fault Refusal := s.run (xResponse opATOMRSP k)
def execBwAck (k : Packet) (s : State) : Host.Outcome State Fault Refusal := s.run (xResponse opBWACK k)
def execBgetDone (k : Packet) (s : State) : Host.Outcome State Fault Refusal := s.run (xResponse opBGETDONE k)
def execWprobeRsp (k : Packet) (s : State) : Host.Outcome State Fault Refusal := s.run (xResponse opWPROBERSP k)
def execFabRequestTimeout (tag : BitVec 16) (s : State) : Host.Outcome State Fault Refusal := s.run (xFabRequestTimeout tag.toNat)
def execTagReserveExpiry (tag : BitVec 16) (s : State) : Host.Outcome State Fault Refusal := s.run (xTagReserveExpiry tag.toNat)
def execBwrGroupRetry (bulk : BitVec 16) (s : State) : Host.Outcome State Fault Refusal := s.run (xBwrGroupRetry bulk)
def execBridgeCell (b : Fin 32) (cell : BitVec 512) (last : Bool) (s : State) : Host.Outcome State Fault Refusal :=
  s.run (xBridgeCell b.val cell last)
def execBridgeConsPoll (b : Fin 32) (s : State) : Host.Outcome State Fault Refusal := s.run (xBridgeConsPoll b.val)

end Sys2Proof.Machine
end

