-- ==== Sys2Proof/Machine/Dispatch.lean ====
section
/-! DEFINITION. One arm per command: its meaning, or its refusal by name. -/

namespace Sys2Proof.Machine

def exec (i : Instr) (s : State) : Host.Outcome State Fault Refusal :=
  match i with
  | .coldStart o => Sys2Proof.Machine.execColdStart o s
  | .pkgResetLow => Sys2Proof.Machine.execPkgResetLow s
  | .mirrorWaitExpiry => Sys2Proof.Machine.execMirrorWaitExpiry s
  | .d2dCellReceive m atHigh cell => Sys2Proof.Machine.execD2dCellReceive m atHigh cell s
  | .d2dCellSend m fromHigh q => Sys2Proof.Machine.execD2dCellSend m fromHigh q s
  | .d2dLaneParityError m up lane lockLost => Sys2Proof.Machine.execD2dLaneParityError m up lane lockLost s
  | .d2dHeartbeatTimeout link d => Sys2Proof.Machine.execD2dHeartbeatTimeout link d s
  | .d2dForwardedClockLoss link d => Sys2Proof.Machine.execD2dForwardedClockLoss link d s
  | .refClockInterrupt d => Sys2Proof.Machine.execRefClockInterrupt d s
  | .refClockRestore d ns => Sys2Proof.Machine.execRefClockRestore d ns s
  | .clockLost d => Sys2Proof.Machine.execClockLost d s
  | .pllLockLoss d => Sys2Proof.Machine.execPllLockLoss d s
  | .descLoadB t => Sys2Proof.Machine.execDescLoadB t s
  | .descPass t => Sys2Proof.Machine.execDescPass t s
  | .descOutput t => Sys2Proof.Machine.execDescOutput t s
  | .descNop t => Sys2Proof.Machine.execDescNop t s
  | .bankLoadComplete t e => Sys2Proof.Machine.execBankLoadComplete t e s
  | .blockBroadcast t e => Sys2Proof.Machine.execBlockBroadcast t e s
  | .setWrite t => Sys2Proof.Machine.execSetWrite t s
  | .residueMismatch t block dpus => Sys2Proof.Machine.execResidueMismatch t block dpus s
  | .residueReplayFail t block dpus => Sys2Proof.Machine.execResidueReplayFail t block dpus s
  | .setDrain t => Sys2Proof.Machine.execSetDrain t s
  | .setDrainComplete t => Sys2Proof.Machine.execSetDrainComplete t s
  | .tileColForceWrite r t v => Sys2Proof.Machine.execTileColForceWrite r t v s
  | .keeperDummyBroadcast t => Sys2Proof.Machine.execKeeperDummyBroadcast t s
  | .keeperFillMaxExpiry t => Sys2Proof.Machine.execKeeperFillMaxExpiry t s
  | .keeperRampIntervalEnd t => Sys2Proof.Machine.execKeeperRampIntervalEnd t s
  | .tileKeeperWrite r q v => Sys2Proof.Machine.execTileKeeperWrite r q v s
  | .tileConvCtrlWrite r c t v => Sys2Proof.Machine.execTileConvCtrlWrite r c t v s
  | .vecNop t => Sys2Proof.Machine.execVecNop t s
  | .vecLd t e => Sys2Proof.Machine.execVecLd t e s
  | .vecSt t => Sys2Proof.Machine.execVecSt t s
  | .vecLayout t => Sys2Proof.Machine.execVecLayout t s
  | .vecKey t => Sys2Proof.Machine.execVecKey t s
  | .vecSig t => Sys2Proof.Machine.execVecSig t s
  | .vecWait t => Sys2Proof.Machine.execVecWait t s
  | .vecAdd t => Sys2Proof.Machine.execVecAdd t s
  | .vecSub t => Sys2Proof.Machine.execVecSub t s
  | .vecMul t => Sys2Proof.Machine.execVecMul t s
  | .vecFma t => Sys2Proof.Machine.execVecFma t s
  | .vecMax t => Sys2Proof.Machine.execVecMax t s
  | .vecMin t => Sys2Proof.Machine.execVecMin t s
  | .vecSel t => Sys2Proof.Machine.execVecSel t s
  | .vecCmplt t => Sys2Proof.Machine.execVecCmplt t s
  | .vecExp2 t => Sys2Proof.Machine.execVecExp2 t s
  | .vecLog2 t => Sys2Proof.Machine.execVecLog2 t s
  | .vecRcp t => Sys2Proof.Machine.execVecRcp t s
  | .vecRsqrt t => Sys2Proof.Machine.execVecRsqrt t s
  | .vecRsum t => Sys2Proof.Machine.execVecRsum t s
  | .vecRssq t => Sys2Proof.Machine.execVecRssq t s
  | .vecRmax t => Sys2Proof.Machine.execVecRmax t s
  | .vecRfin t => Sys2Proof.Machine.execVecRfin t s
  | .vecBcast t => Sys2Proof.Machine.execVecBcast t s
  | .vecTpose t => Sys2Proof.Machine.execVecTpose t s
  | .vecGord t => Sys2Proof.Machine.execVecGord t s
  | .vecGadv t => Sys2Proof.Machine.execVecGadv t s
  | .ctxShareConsWrite r c v => Sys2Proof.Machine.execCtxShareConsWrite r c v s
  | .strataLoad r mgmtBus => Sys2Proof.Machine.execStrataLoad r mgmtBus s
  | .strataDiscard r => Sys2Proof.Machine.execStrataDiscard r s
  | .strataActivate r => Sys2Proof.Machine.execStrataActivate r s
  | .strataRevert r => Sys2Proof.Machine.execStrataRevert r s
  | .strataGroupApply r => Sys2Proof.Machine.execStrataGroupApply r s
  | .strataFwCommit r => Sys2Proof.Machine.execStrataFwCommit r s
  | .strataCancel r => Sys2Proof.Machine.execStrataCancel r s
  | .strataFetchComplete img => Sys2Proof.Machine.execStrataFetchComplete img s
  | .strataValidationComplete => Sys2Proof.Machine.execStrataValidationComplete s
  | .activationSwap bad => Sys2Proof.Machine.execActivationSwap bad s
  | .firmwareLoad kind => Sys2Proof.Machine.execFirmwareLoad kind s
  | .shadowLoadComplete c => Sys2Proof.Machine.execShadowLoadComplete c s
  | .phaseSwap c => Sys2Proof.Machine.execPhaseSwap c s
  | .phaseSwitchLate c => Sys2Proof.Machine.execPhaseSwitchLate c s
  | .hbmRead c off err => Sys2Proof.Machine.execHbmRead c off err s
  | .hbmWrite c off data err => Sys2Proof.Machine.execHbmWrite c off data err s
  | .gatherComplete t n => Sys2Proof.Machine.execGatherComplete t n s
  | .scratchpadScrub t row e => Sys2Proof.Machine.execScratchpadScrub t row e s
  | .scratchpadClearComplete t => Sys2Proof.Machine.execScratchpadClearComplete t s
  | .moverWake t => Sys2Proof.Machine.execMoverWake t s
  | .moveCopy t => Sys2Proof.Machine.execMoveCopy t s
  | .moveFill t => Sys2Proof.Machine.execMoveFill t s
  | .moveGather t => Sys2Proof.Machine.execMoveGather t s
  | .moveEntryComplete t n => Sys2Proof.Machine.execMoveEntryComplete t n s
  | .softRepair off resource => Sys2Proof.Machine.execSoftRepair off resource s
  | .hbmScrub off err => Sys2Proof.Machine.execHbmScrub off err s
  | .memRetireForceWrite r q v => Sys2Proof.Machine.execMemRetireForceWrite r q v s
  | .pageZeroed page => Sys2Proof.Machine.execPageZeroed page s
  | .codewordReceive p o => Sys2Proof.Machine.execCodewordReceive p o s
  | .flitAckTimeout p => Sys2Proof.Machine.execFlitAckTimeout p s
  | .tsParam p body => Sys2Proof.Machine.execTsParam p body s
  | .tsRtt p body recv => Sys2Proof.Machine.execTsRtt p body recv s
  | .laneSwap p body => Sys2Proof.Machine.execLaneSwap p body s
  | .narrow p body => Sys2Proof.Machine.execNarrow p body s
  | .creditInit p body => Sys2Proof.Machine.execCreditInit p body s
  | .linkRetrain p body => Sys2Proof.Machine.execLinkRetrain p body s
  | .keyReady p body => Sys2Proof.Machine.execKeyReady p body s
  | .linkDown p body => Sys2Proof.Machine.execLinkDown p body s
  | .portEnable p => Sys2Proof.Machine.execPortEnable p s
  | .portRetryTimer p => Sys2Proof.Machine.execPortRetryTimer p s
  | .portStateTimeout p => Sys2Proof.Machine.execPortStateTimeout p s
  | .pmaTrainDone p rxLanes txLanes => Sys2Proof.Machine.execPmaTrainDone p rxLanes txLanes s
  | .laneLockDone p reversed => Sys2Proof.Machine.execLaneLockDone p reversed s
  | .laneLockLoss p lane => Sys2Proof.Machine.execLaneLockLoss p lane s
  | .laneSetChange p => Sys2Proof.Machine.execLaneSetChange p s
  | .codewordLockLoss p => Sys2Proof.Machine.execCodewordLockLoss p s
  | .flitCtrExhausted p => Sys2Proof.Machine.execFlitCtrExhausted p s
  | .packetRoute inPort k => Sys2Proof.Machine.execPacketRoute inPort k s
  | .fabRd k => Sys2Proof.Machine.execFabRd k s
  | .fabWr k => Sys2Proof.Machine.execFabWr k s
  | .atomAdd32 k => Sys2Proof.Machine.execAtomAdd32 k s
  | .atomAdd64 k => Sys2Proof.Machine.execAtomAdd64 k s
  | .atomSwap64 k => Sys2Proof.Machine.execAtomSwap64 k s
  | .atomCas64 k => Sys2Proof.Machine.execAtomCas64 k s
  | .atomAnd64 k => Sys2Proof.Machine.execAtomAnd64 k s
  | .atomOr64 k => Sys2Proof.Machine.execAtomOr64 k s
  | .atomMaxu64 k => Sys2Proof.Machine.execAtomMaxu64 k s
  | .atomGadd128 k => Sys2Proof.Machine.execAtomGadd128 k s
  | .fabBwr k => Sys2Proof.Machine.execFabBwr k s
  | .fabBget k => Sys2Proof.Machine.execFabBget k s
  | .rdRsp k => Sys2Proof.Machine.execRdRsp k s
  | .wrAck k => Sys2Proof.Machine.execWrAck k s
  | .atomRsp k => Sys2Proof.Machine.execAtomRsp k s
  | .bwAck k => Sys2Proof.Machine.execBwAck k s
  | .bgetDone k => Sys2Proof.Machine.execBgetDone k s
  | .wprobe k => Sys2Proof.Machine.execWprobe k s
  | .wprobeRsp k => Sys2Proof.Machine.execWprobeRsp k s
  | .fabRequestTimeout tag => Sys2Proof.Machine.execFabRequestTimeout tag s
  | .tagReserveExpiry tag => Sys2Proof.Machine.execTagReserveExpiry tag s
  | .bwrGroupRetry bulk => Sys2Proof.Machine.execBwrGroupRetry bulk s
  | .barrierCheck c slot => Sys2Proof.Machine.execBarrierCheck c slot s
  | .bridgeCell b cell last => Sys2Proof.Machine.execBridgeCell b cell last s
  | .bridgeConsPoll b => Sys2Proof.Machine.execBridgeConsPoll b s
  | .fabPortRetrain r p => Sys2Proof.Machine.execFabPortRetrain r p s
  | .fabPortDisable r p => Sys2Proof.Machine.execFabPortDisable r p s
  | .fabPortEnable r p => Sys2Proof.Machine.execFabPortEnable r p s
  | .fabNodeWrite r v => Sys2Proof.Machine.execFabNodeWrite r v s
  | .fabTorusWrite r v => Sys2Proof.Machine.execFabTorusWrite r v s
  | .lodestoneTick => Sys2Proof.Machine.execLodestoneTick s
  | .sourceClaim => Sys2Proof.Machine.execSourceClaim s
  | .parentSilenceTimeout => Sys2Proof.Machine.execParentSilenceTimeout s
  | .holdoverInvalidEnd => Sys2Proof.Machine.execHoldoverInvalidEnd s
  | .lodeRebase => Sys2Proof.Machine.execLodeRebase s
  | .lodeResync r => Sys2Proof.Machine.execLodeResync r s
  | .lodeRebaseAny r => Sys2Proof.Machine.execLodeRebaseAny r s
  | .lodeCtrlWrite r v => Sys2Proof.Machine.execLodeCtrlWrite r v s
  | .cairnArm r c slot v => Sys2Proof.Machine.execCairnArm r c slot v s
  | .cairnCancel r c slot => Sys2Proof.Machine.execCairnCancel r c slot s
  | .healthWindowEnd c => Sys2Proof.Machine.execHealthWindowEnd c s
  | .readyPoll c id => Sys2Proof.Machine.execReadyPoll c id s
  | .bucketScanComplete c id => Sys2Proof.Machine.execBucketScanComplete c id s
  | .bucketClose c id => Sys2Proof.Machine.execBucketClose c id s
  | .collReport k => Sys2Proof.Machine.execCollReport k s
  | .collClose k => Sys2Proof.Machine.execCollClose k s
  | .collData k => Sys2Proof.Machine.execCollData k s
  | .collResult k => Sys2Proof.Machine.execCollResult k s
  | .collShardDone k => Sys2Proof.Machine.execCollShardDone k s
  | .collResend k => Sys2Proof.Machine.execCollResend k s
  | .collGo k => Sys2Proof.Machine.execCollGo k s
  | .collPdone k => Sys2Proof.Machine.execCollPdone k s
  | .collAbort k => Sys2Proof.Machine.execCollAbort k s
  | .tokxCount k => Sys2Proof.Machine.execTokxCount k s
  | .tokxOffset k => Sys2Proof.Machine.execTokxOffset k s
  | .tokxDone k => Sys2Proof.Machine.execTokxDone k s
  | .tokxUseStart c id => Sys2Proof.Machine.execTokxUseStart c id s
  | .permuteRoundReadComplete c id => Sys2Proof.Machine.execPermuteRoundReadComplete c id s
  | .resendTimer c id => Sys2Proof.Machine.execResendTimer c id s
  | .dataLimitExpiry c id => Sys2Proof.Machine.execDataLimitExpiry c id s
  | .wordFree c id seq => Sys2Proof.Machine.execWordFree c id seq s
  | .controlPacketRepeat => Sys2Proof.Machine.execControlPacketRepeat s
  | .ringPoll c vs => Sys2Proof.Machine.execRingPoll c vs s
  | .forwardItem c vs => Sys2Proof.Machine.execForwardItem c vs s
  | .backwardItem c vs => Sys2Proof.Machine.execBackwardItem c vs s
  | .recomputeItem c vs => Sys2Proof.Machine.execRecomputeItem c vs s
  | .updateItem c vs => Sys2Proof.Machine.execUpdateItem c vs s
  | .mirrorItem c vs => Sys2Proof.Machine.execMirrorItem c vs s
  | .itemDone c vs unit => Sys2Proof.Machine.execItemDone c vs unit s
  | .outputDelivery c vs bwd => Sys2Proof.Machine.execOutputDelivery c vs bwd s
  | .versionRetire c vs => Sys2Proof.Machine.execVersionRetire c vs s
  | .pipeEnable r c v => Sys2Proof.Machine.execPipeEnable r c v s
  | .pipeFlush r c => Sys2Proof.Machine.execPipeFlush r c s
  | .pipeRetireNow r c => Sys2Proof.Machine.execPipeRetireNow r c s
  | .pequaFlitReceive p f => Sys2Proof.Machine.execPequaFlitReceive p f s
  | .pequaAckTimeout p => Sys2Proof.Machine.execPequaAckTimeout p s
  | .pequaParam p hostId cohReq tags => Sys2Proof.Machine.execPequaParam p hostId cohReq tags s
  | .pequaCreditInit p req snp rsp => Sys2Proof.Machine.execPequaCreditInit p req snp rsp s
  | .pequaDown p reason => Sys2Proof.Machine.execPequaDown p reason s
  | .pequaPhyTrainDone p lanes rate => Sys2Proof.Machine.execPequaPhyTrainDone p lanes rate s
  | .pequaStateTimeout p => Sys2Proof.Machine.execPequaStateTimeout p s
  | .pequaRetryTimer p => Sys2Proof.Machine.execPequaRetryTimer p s
  | .pequaLinkLoss p => Sys2Proof.Machine.execPequaLinkLoss p s
  | .drd p k => Sys2Proof.Machine.execDrd p k s
  | .dwr p k => Sys2Proof.Machine.execDwr p k s
  | .drdS p k => Sys2Proof.Machine.execDrdS p k s
  | .drdE p k => Sys2Proof.Machine.execDrdE p k s
  | .devict p k => Sys2Proof.Machine.execDevict p k s
  | .rrd p k => Sys2Proof.Machine.execRrd p k s
  | .rwr p k => Sys2Proof.Machine.execRwr p k s
  | .hsrsp p k => Sys2Proof.Machine.execHsrsp p k s
  | .hsnpI p k => Sys2Proof.Machine.execHsnpI p k s
  | .hsnpS p k => Sys2Proof.Machine.execHsnpS p k s
  | .hdata p k => Sys2Proof.Machine.execHdata p k s
  | .hcmp p k => Sys2Proof.Machine.execHcmp p k s
  | .dsnpTimeout p => Sys2Proof.Machine.execDsnpTimeout p s
  | .watchPoll c line => Sys2Proof.Machine.execWatchPoll c line s
  | .runLineReacquire c line => Sys2Proof.Machine.execRunLineReacquire c line s
  | .run c seq => Sys2Proof.Machine.execRun c seq s
  | .copy c seq => Sys2Proof.Machine.execCopy c seq s
  | .abort c seq => Sys2Proof.Machine.execAbort c seq s
  | .fence c seq => Sys2Proof.Machine.execFence c seq s
  | .runNop c seq => Sys2Proof.Machine.execRunNop c seq s
  | .runComplete c seq => Sys2Proof.Machine.execRunComplete c seq s
  | .copyComplete c seq => Sys2Proof.Machine.execCopyComplete c seq s
  | .runDeadline c seq => Sys2Proof.Machine.execRunDeadline c seq s
  | .ctxCplConsWrite r c v => Sys2Proof.Machine.execCtxCplConsWrite r c v s
  | .ctxCplEnable r c v => Sys2Proof.Machine.execCtxCplEnable r c v s
  | .ctxEvtConsWrite r c v => Sys2Proof.Machine.execCtxEvtConsWrite r c v s
  | .devHpBindWrite r p v => Sys2Proof.Machine.execDevHpBindWrite r p v s
  | .lossLimitExpiry p => Sys2Proof.Machine.execLossLimitExpiry p s
  | .ctxTeardown r c => Sys2Proof.Machine.execCtxTeardown r c s
  | .quarantineEnd c => Sys2Proof.Machine.execQuarantineEnd c s
  | .devHpRetrain r p => Sys2Proof.Machine.execDevHpRetrain r p s
  | .devHpDisable r p => Sys2Proof.Machine.execDevHpDisable r p s
  | .devHpEnable r p => Sys2Proof.Machine.execDevHpEnable r p s
  | .bucketLeak cls unit => Sys2Proof.Machine.execBucketLeak cls unit s
  | .rasLbCfgWrite r cls v => Sys2Proof.Machine.execRasLbCfgWrite r cls v s
  | .healthScore => Sys2Proof.Machine.execHealthScore s
  | .secureNow r => Sys2Proof.Machine.execSecureNow r s
  | .waitGraphSample => Sys2Proof.Machine.execWaitGraphSample s
  | .wprobePeriod u => Sys2Proof.Machine.execWprobePeriod u s
  | .sampleCutoff t => Sys2Proof.Machine.execSampleCutoff t s
  | .sampleComplete => Sys2Proof.Machine.execSampleComplete s
  | .sampleRelease r => Sys2Proof.Machine.execSampleRelease r s
  | .contextReset r c => Sys2Proof.Machine.execContextReset r c s
  | .computeReset r => Sys2Proof.Machine.execComputeReset r s
  | .fullRecovery r o => Sys2Proof.Machine.execFullRecovery r o s
  | .recoverNLow o => Sys2Proof.Machine.execRecoverNLow o s
  | .protEnable r c => Sys2Proof.Machine.execProtEnable r c s
  | .secure r c => Sys2Proof.Machine.execSecure r c s
  | .secureReread c entry => Sys2Proof.Machine.execSecureReread c entry s
  | .restore r c => Sys2Proof.Machine.execRestore r c s
  | .apply r c => Sys2Proof.Machine.execApply r c s
  | .protResync r c => Sys2Proof.Machine.execProtResync r c s
  | .promote r c => Sys2Proof.Machine.execPromote r c s
  | .fetch r c => Sys2Proof.Machine.execFetch r c s
  | .demote r c => Sys2Proof.Machine.execDemote r c s
  | .retainWrite c => Sys2Proof.Machine.execRetainWrite c s
  | .slotCopy c entry => Sys2Proof.Machine.execSlotCopy c entry s
  | .digestComplete c entry => Sys2Proof.Machine.execDigestComplete c entry s
  | .logAppend c => Sys2Proof.Machine.execLogAppend c s
  | .ctxLogProdWrite r c v => Sys2Proof.Machine.execCtxLogProdWrite r c v s
  | .registerWrite r c addr v => Sys2Proof.Machine.execRegisterWrite r c addr v s
  | .guardedWriteFirst r c addr v => Sys2Proof.Machine.execGuardedWriteFirst r c addr v s
  | .guardedWriteSecond r c addr v => Sys2Proof.Machine.execGuardedWriteSecond r c addr v s
  | .guardTimeout r => Sys2Proof.Machine.execGuardTimeout r s
  | .counterLowRead r c addr => Sys2Proof.Machine.execCounterLowRead r c addr s
  | .indDataAccess r window w => Sys2Proof.Machine.execIndDataAccess r window w s
  | .devAdminWrite r v => Sys2Proof.Machine.execDevAdminWrite r v s
  | .devEvtConsWrite r v => Sys2Proof.Machine.execDevEvtConsWrite r v s
  | .bundleReceived bytes => Sys2Proof.Machine.execBundleReceived bytes s
  | .bundleVerified o => Sys2Proof.Machine.execBundleVerified o s
  | .rsaKeyReady => Sys2Proof.Machine.execRsaKeyReady s
  | .getVersion ch msg => Sys2Proof.Machine.execGetVersion ch msg s
  | .getCapabilities ch msg => Sys2Proof.Machine.execGetCapabilities ch msg s
  | .negotiateAlgorithms ch msg => Sys2Proof.Machine.execNegotiateAlgorithms ch msg s
  | .getDigests ch msg => Sys2Proof.Machine.execGetDigests ch msg s
  | .getCertificate ch msg => Sys2Proof.Machine.execGetCertificate ch msg s
  | .setCertificate ch msg => Sys2Proof.Machine.execSetCertificate ch msg s
  | .challenge ch msg => Sys2Proof.Machine.execChallenge ch msg s
  | .getMeasurements ch msg => Sys2Proof.Machine.execGetMeasurements ch msg s
  | .keyExchange ch msg => Sys2Proof.Machine.execKeyExchange ch msg s
  | .finish ch msg => Sys2Proof.Machine.execFinish ch msg s
  | .endSession ch msg => Sys2Proof.Machine.execEndSession ch msg s
  | .quote ch nonce => Sys2Proof.Machine.execQuote ch nonce s
  | .secMboxSend r m => Sys2Proof.Machine.execSecMboxSend r m s
  | .secMboxAbandon r m => Sys2Proof.Machine.execSecMboxAbandon r m s
  | .linkKeyRecord session record => Sys2Proof.Machine.execLinkKeyRecord session record s
  | .unlockNonceRead => Sys2Proof.Machine.execUnlockNonceRead s
  | .unlockRecord record sig => Sys2Proof.Machine.execUnlockRecord record sig s
  | .tapIdcode d => Sys2Proof.Machine.execTapIdcode d s
  | .tapSamplePreload d => Sys2Proof.Machine.execTapSamplePreload d s
  | .tapExtest d => Sys2Proof.Machine.execTapExtest d s
  | .tapClamp d => Sys2Proof.Machine.execTapClamp d s
  | .tapHighz d => Sys2Proof.Machine.execTapHighz d s
  | .tapIjtagAccess d => Sys2Proof.Machine.execTapIjtagAccess d s
  | .tapUnlock d => Sys2Proof.Machine.execTapUnlock d s
  | .tapBypass d => Sys2Proof.Machine.execTapBypass d s
  | .pwrQuiesce r => Sys2Proof.Machine.execPwrQuiesce r s
  | .pwrForward r => Sys2Proof.Machine.execPwrForward r s
  | .pwrRun r => Sys2Proof.Machine.execPwrRun r s
  | .pwrBootGo r => Sys2Proof.Machine.execPwrBootGo r s
  | .bootWindowExpiry => Sys2Proof.Machine.execBootWindowExpiry s
  | .dvfsLevelReqWrite r q v => Sys2Proof.Machine.execDvfsLevelReqWrite r q v s
  | .dvfsStep q mv => Sys2Proof.Machine.execDvfsStep q mv s
  | .limitLoop watts => Sys2Proof.Machine.execLimitLoop watts s
  | .pwrCapAssert => Sys2Proof.Machine.execPwrCapAssert s
  | .pwrCapDeassert => Sys2Proof.Machine.execPwrCapDeassert s
  | .thermalSample temps => Sys2Proof.Machine.execThermalSample temps s
  | .thermalLevelStep => Sys2Proof.Machine.execThermalLevelStep s
  | .signalDetect p lanes => Sys2Proof.Machine.execSignalDetect p lanes s
  | .codewordLockRegained p => Sys2Proof.Machine.execCodewordLockRegained p s
  | .l0Regained p => Sys2Proof.Machine.execL0Regained p s
  | .mirrorSidebandUp o => Sys2Proof.Machine.execMirrorSidebandUp o s
  | .emptyBroadcastSlot t => Sys2Proof.Machine.execEmptyBroadcastSlot t s
  | .codewordSend p => Sys2Proof.Machine.execCodewordSend p s
  | .pequaFlitSend p => Sys2Proof.Machine.execPequaFlitSend p s
  | .tapReset => Sys2Proof.Machine.execTapReset s
  | .slotCopyEnd c entry => Sys2Proof.Machine.execSlotCopyEnd c entry s
  | .updateSumComplete c vs shard => Sys2Proof.Machine.execUpdateSumComplete c vs shard s

end Sys2Proof.Machine
end

