-- ==== Sys2Proof/Safety.lean ====
section
/-! DEFINITION. What a sound state of the model is, and when a run is safe. -/

namespace Sys2Proof.Machine

/-- Memory is canonical, and no command's stores are left outside it. -/
def State.Sound (s : State) : Prop := Memory.wf s.mem = true ∧ s.dev.stores = [] ∧ s.dev.wipes = []

/-- `n` steps from `s` end in a next state. -/
def runs : Nat → State → Option State
  | 0, s => some s
  | n + 1, s =>
    match step s with
    | .next s' => runs n s'
    | .fault _ => none
    | .refused _ => none

/-- A run of `n` steps is safe: it is neither refused nor stopped. -/
def Safe (n : Nat) (s : State) : Prop := (runs n s).isSome = true

end Sys2Proof.Machine
end

