-- ==== Sys2Proof/Certificates/Slice0/Obligations.lean ====
section
/-! DEFINITION. The statements for the provers. Each completion statement has one clause for a command: under hypotheses on the state and
the operands alone, exec answers a next state, and what it holds. -/

namespace Sys2Proof.Claims

open Sys2Proof.Machine

/-- The command completes, with the device as `d` and every byte of memory and the queue as they were. -/
def Quiet (i : Instr) (s : State) (d : Dev) : Prop := exec i s = .next { s with dev := d }

/-- The command completes, leaves the queue as it was, and the next state is as `P` says. -/
def Ends (i : Instr) (s : State) (P : State → Prop) : Prop := ∃ t, exec i s = .next t ∧ t.pending = s.pending ∧ P t

/-- Every byte of memory reads as before. -/
def SameMem (s t : State) : Prop := ∀ a, t.read a = s.read a

/-- Every byte of memory outside [a, a + n) reads as before. -/
def SameMemBut (s t : State) (a n : Nat) : Prop := ∀ x, (x < a ∨ a + n ≤ x) → t.read x = s.read x

/-- Bytes `bs` stand in memory from `a`. -/
def Holds (t : State) (a : Nat) (bs : List Byte) : Prop := ∀ i, i < bs.length → t.read (a + i) = bs.getD i 0

/-- A register write of `v` to the word at `k` by `r` is heard and leaves RSV bits as they are: the requester's port carries packets or
the management controller runs, no half of a guarded pair is pending, and IA is there for a package-wide word (R406, R407, R409,
R411). -/
def Heard (s : State) (r : Requester) (k : Nat) (v : BitVec 32) : Prop :=
  s.dev.mayAsk r = true ∧ (s.dev.req (reqIndex r)).pending = none ∧ (s.dev.lost 4 = false ∨ 0x10000000 ≤ k)
    ∧ s.dev.changesRsv k v = false

/-- The word at `k` with bits 31 to 30 replaced by a command. -/
def cmdWord (s : State) (k cmd : Nat) : BitVec 32 := BitVec.ofNat 32 (setFld (s.dev.reg k).toNat 31 30 cmd)

/-- A vector instruction `v` that has run on tile `t` changes nothing but that tile, its instruction counter and the counters `ks`; the
sequencer stands at the next instruction. -/
def VecFrame (s u : State) (t : Fin 64) (ks : List Nat) : Prop :=
  u.dev.count (Reg.tileVecInstr t) = s.dev.count (Reg.tileVecInstr t) + 1 ∧
  (∀ k, k ≠ Reg.tileVecInstr t → ¬ k ∈ ks → u.dev.count k = s.dev.count k) ∧ u.mem = s.mem ∧ u.dev.regs = s.dev.regs ∧
  (∀ j, j ≠ t.val → u.dev.tile j = s.dev.tile j) ∧ (u.dev.tile t).vecIdx = (s.dev.tile t).vecTaken.vecIdx ∧
  (u.dev.tile t).vecPass = (s.dev.tile t).vecTaken.vecPass ∧ (u.dev.tile t).sets = (s.dev.tile t).sets ∧
  (u.dev.tile t).pipe = (s.dev.tile t).pipe

/-- The lanes of VD after an instruction hold `l`, and every other vector register is as it was. -/
def LanesBecome (s u : State) (t : Fin 64) (v : BitVec 64) (l : List Nat) : Prop :=
  (u.dev.tile t).lanes (vType v) (vVd v) = l.map (· % 2 ^ laneWidth (vType v)) ∧
  (∀ r, r ≠ vVd v → (u.dev.tile t).vreg r = (s.dev.tile t).vreg r)

/-- Instruction `i` with operation code `op` completes and writes `f` of its TYPE and its lanes of VA and VB to each lane of VD. -/
def LaneWise2 (i : Fin 64 → Instr) (op : Nat) (f : Nat → Nat → Nat → Nat) : Prop :=
  ∀ (s : State) (t : Fin 64) (a : Nat) (v : BitVec 64), s.begin.vecDue s.mem t (· == op) = some (a, v) → vType v ≠ 3 →
    Ends (i t) s (fun u => VecFrame s u t [] ∧ (u.dev.tile t).rowStack = (s.dev.tile t).rowStack ∧
      LanesBecome s u t v (List.zipWith (f (vType v)) ((s.dev.tile t).lanes (vType v) (vVa v)) ((s.dev.tile t).lanes (vType v) (vVb v))))

/-- The same with a third source VC. -/
def LaneWise3 (i : Fin 64 → Instr) (op : Nat) (f : Nat → Nat → Nat → Nat → Nat) : Prop :=
  ∀ (s : State) (t : Fin 64) (a : Nat) (v : BitVec 64), s.begin.vecDue s.mem t (· == op) = some (a, v) → vType v ≠ 3 →
    Ends (i t) s (fun u => VecFrame s u t [] ∧ (u.dev.tile t).rowStack = (s.dev.tile t).rowStack ∧
      LanesBecome s u t v (List.zipWith (fun (p : Nat × Nat) c => f (vType v) p.1 p.2 c)
        (((s.dev.tile t).lanes (vType v) (vVa v)).zip ((s.dev.tile t).lanes (vType v) (vVb v))) ((s.dev.tile t).lanes (vType v) (vVc v))))

/-- A special function: FP32 or BF16 lanes, each rounded once to TYPE; its strip is counted. -/
def SpecialLanes (i : Fin 64 → Instr) (op : Nat) (f : Val → Val) : Prop :=
  ∀ (s : State) (t : Fin 64) (a : Nat) (v : BitVec 64), s.begin.vecDue s.mem t (· == op) = some (a, v) → vType v < 2 →
    Ends (i t) s (fun u => VecFrame s u t [Reg.tileSfuResults t] ∧ (u.dev.tile t).rowStack = (s.dev.tile t).rowStack ∧
      u.dev.count (Reg.tileSfuResults t) = s.dev.count (Reg.tileSfuResults t) + 1 ∧
      LanesBecome s u t v (((s.dev.tile t).lanes (vType v) (vVa v)).map (fun c => toLane (vType v) (f (laneVal (vType v) c)))))

/-- An instruction that the rules reject is counted and ends the tile's work (R111, R477). -/
def VecRejected (i : Instr) (s : State) (t : Fin 64) : Prop :=
  Ends i s (fun u => (u.dev.tile t).stopped = true ∧ (u.dev.tile t).vregs = (s.dev.tile t).vregs ∧
    u.dev.count (Reg.tileVecReject t) = s.dev.count (Reg.tileVecReject t) + 1 ∧
    u.dev.count (Reg.tileVecInstr t) = s.dev.count (Reg.tileVecInstr t) ∧ u.mem = s.mem ∧ u.dev.regs = s.dev.regs)

/-- STRATA_CTRL command `i` (code `action` + 2), permitted with nothing armed and its checks passed, files the action in the lowest free
cairn slot of context 0 at STRATA_ARM_LT (R154). -/
def StrataArms (i : Requester → Instr) (action : Nat) : Prop :=
  ∀ (s : State) (r : Requester) (n : Nat), Heard s r Reg.strataCtrl (strataWord s.dev (action + 2)) → s.dev.ctx0OrAdmin r = true →
    s.dev.freeCairn = some n → s.dev.strata.armed = 0 → s.dev.strata.activating = none → s.begin.actionOk s.mem action = true →
    s.dev.now < s.dev.reg64 Reg.strataArmLtLo →
    Ends (i r) s (fun u => u.dev.strata = { s.dev.strata with armed := action, armedSlot := n } ∧ (u.dev.cairn 0 n).state = .armed ∧
      (u.dev.cairn 0 n).lt = BitVec.ofNat 64 (s.dev.reg64 Reg.strataArmLtLo) ∧ (u.dev.cairn 0 n).action = BitVec.ofNat 8 (0x0F + action) ∧
      u.mem = s.mem ∧ u.dev.tiles = s.dev.tiles ∧ u.dev.ctxs = s.dev.ctxs ∧ u.dev.counters = s.dev.counters)

/-- A refused STRATA_CTRL command is counted twice and changes nothing of Strata (R152, R417). -/
def StrataRefused (i : Instr) (s : State) : Prop :=
  Ends i s (fun u => u.dev.strata = s.dev.strata ∧ u.dev.count Reg.strataCmdRefused = s.dev.count Reg.strataCmdRefused + 1 ∧
    u.dev.count Reg.devRegRefused = s.dev.count Reg.devRegRefused + 1 ∧ u.mem = s.mem ∧ u.dev.tiles = s.dev.tiles ∧
    u.dev.regs = s.dev.regs ∧ u.dev.cairns = s.dev.cairns)

/-- Nothing but port `p` of the fabric, counters, time, events and outputs may differ. -/
def PortFrame (s u : State) (p : Fin 8) : Prop :=
  (∀ q, q ≠ p.val → u.dev.port q = s.dev.port q) ∧ u.mem = s.mem ∧ u.dev.regs = s.dev.regs ∧ u.dev.tiles = s.dev.tiles ∧
  u.dev.modules = s.dev.modules ∧ u.dev.pages = s.dev.pages

/-- Command `i` takes port `p`, which has no packet queued, out of service: it stands in DOWN after `failures` failed attempts, its
unacknowledged flits are lost, its keys kept only if it was not ACTIVE or in REPAIR. -/
def TakesDown (i : Instr) (s : State) (p : Fin 8) (failures : Nat) : Prop :=
  Ends i s (fun u => u.dev.port p = (s.dev.port p).stoppedAs .down failures ∧ (u.dev.port p).unacked = [] ∧ PortFrame s u p)

/-- No unit of memory is known to be uncorrectable. -/
def NoBad (s : State) : Prop := s.dev.badBursts = [] ∧ ∀ j, (s.dev.tile j).badWords = []

/-- A request under context `c` may reach [a, a + n) of local memory now (R177, R199, R220, R334, R467). -/
def Reaches (s : State) (c a n : Nat) : Prop :=
  n ≠ 0 ∧ inMemory a n = true ∧ s.dev.pwr.state = .run ∧ s.dev.lost (memDie a) = false ∧ s.dev.admits c a n = true ∧
  (isHbm a = true → s.dev.hbmServes a = true) ∧ s.dev.mustWait a n = false ∧ s.dev.directory = [] ∧ NoBad s

/-- Request `k` of another node has been answered: one packet to its source with its TAG, GEN and CTX (R222, R223). -/
def Answers (s u : State) (k : Packet) (op status : Nat) (data : List Byte) : Prop :=
  ∃ p : Packet, u.dev.localOut = s.dev.localOut ++ [p] ∧ p.opc = op ∧ p.dst = k.src ∧ p.src = s.dev.node ∧ p.tag = k.tag ∧ p.gen = k.gen ∧
    p.ctx = k.ctx ∧ p.status = status ∧ p.data = data ∧ u.dev.inbox = removeOne k s.dev.inbox

/-- The ATOM of operation `aop` replaces its target by `f` of the old value and the operand (the low 8 bytes of the data, or all 16)
and `g` of its upper 8 bytes, and answers with the old value (R225). -/
def AtomDoes (i : Packet → Instr) (aop : Nat) (f : Nat → Nat → Nat → Nat) : Prop :=
  ∀ (s : State) (k : Packet), k.opc = opATOM → k.arg % 16 = aop → k.ecrcOk = true → isHbm k.addr = true → k.addr % aopWidth aop = 0 →
    k.data.length = aopData aop → Reaches s k.ctx k.addr (aopWidth aop) → k.src ≠ s.dev.node →
    Ends (i k) s (fun u =>
      Holds u k.addr (toLE (aopWidth aop) (f (peekLE s.mem s.begin k.addr (aopWidth aop)) (leOf (k.data.take (if aop = 3 then 8 else 16))) (leOf (k.data.drop 8)))) ∧
      SameMemBut s u k.addr (aopWidth aop) ∧ Answers s u k opATOMRSP 0 (peekN s.mem s.begin k.addr (aopWidth aop)) ∧ u.dev.regs = s.dev.regs ∧
      u.dev.tiles = s.dev.tiles)

/-- A response that finds its request, with nothing further to do for it, settles it: its TAG is free, no barrier waits for it. -/
def Settles (i : Packet → Instr) (rsp : Nat) (u : Purpose) : Prop :=
  ∀ (s : State) (k : Packet) (t : Tag), k.opc = rsp → k.ecrcOk = true → s.dev.answered k = some t → t.reserved = false → k.gen = s.dev.genOf t.ctx →
    k.status = 0 → t.purpose = u → t.op ≠ opRD →
    Quiet (i k) s ((s.begin.taken k).settle t) ∧
    (∀ x, x ∈ ((s.begin.taken k).settle t).tags ↔ x ∈ s.dev.tags ∧ ¬ (x.port = t.port ∧ x.tag = t.tag))

/-- A response to no outstanding request is counted and dropped (R227). -/
def DropsStale (i : Packet → Instr) (rsp : Nat) : Prop :=
  ∀ (s : State) (k : Packet), k.opc = rsp → k.ecrcOk = true → s.dev.answered k = none →
    Quiet (i k) s (((s.begin.taken k).bump Reg.fabStaleDrop).bump (Reg.ctxStaleDrop k.ctx))

/-- A collective packet of operation `op` and TYPE `ty` reaches the open opening `o` it names, whose SEQ is `seq` (R288). -/
def Finds (s : State) (k : Packet) (op ty : Nat) (o : Opening) (seq : Nat) : Prop :=
  k.opc = op ∧ kType k = ty ∧ k.ecrcOk = true ∧ s.dev.openOf k.ctx (kId k) = some o ∧ kSeq k = seq ∧ kRank k < o.count

/-- The engines may read or write [a, a + n) for context `c` now. -/
def EngineReaches (s : State) (c a n : Nat) : Prop := Reaches s c a n ∧ isHbm a = true ∧ isHbm (a + n - 1) = true

/-- Nothing of memory but the record, the ready array and MASK of bucket `o` may differ (R271, R274, R283). -/
def BucketMem (s u : State) (o : Opening) : Prop :=
  ∀ a, (a < bRec o.desc ∨ bRec o.desc + 128 ≤ a) → (a < bReady o.desc ∨ bReady o.desc + 8 * bParts o.desc ≤ a) →
    (a < bMask o.desc ∨ bMask o.desc + 256 * o.segCount ≤ a) → u.read a = s.read a

/-- A packet of opening `o` to rank `r`: TYPE, INDEX, data (R288). -/
def IsPacketOf (o : Opening) (k : Packet) (op r ty i : Nat) (data : List Byte) : Prop :=
  k.opc = op ∧ k.dst = (o.members.getD r 0).toNat ∧ kType k = ty ∧ kIndex k = i % 2 ^ 18 ∧ kId k = o.id % 65536 ∧ k.data = data

/-- Item command `i` of unit `u` dispatches again an item of a kind in `ks` whose tiles run once more: input and work block are on the
unit's tiles, their micro-batch number and START are set (R309, R324, Table 10.7). -/
def DispatchesAgain (i : Fin 64 → Fin 8 → Instr) (u : Nat) (ks : List ItemKind) : Prop :=
  ∀ (s : State) (c : Fin 64) (v : Fin 8) (x : Item), ((s.dev.ctx c).stage v).item u = some x → x.kind ∈ ks → x.kind.unit = u →
    x.gathers = [] → x.started = false → s.dev.unitRuns c v u = true → NoBad s →
    ((s.begin.itemInput s.mem c v x).2 = 0 ∨ EngineReaches s c (s.begin.itemInput s.mem c v x).1 (s.begin.itemInput s.mem c v x).2) →
    Ends (i c v) s (fun t => ((t.dev.ctx c).stage v).item u = some { x with started := true } ∧
      (∀ j, j ∈ s.dev.unitTiles c v u → (t.dev.tile j).mbId = x.mb ∧ (t.dev.tile j).sem 14 = true) ∧
      (∀ j, ¬ j ∈ s.dev.unitTiles c v u → t.dev.tile j = s.dev.tile j) ∧ (∀ a, isHbm a = true → t.read a = s.read a) ∧
      t.dev.regs = s.dev.regs ∧ t.dev.counters = s.dev.counters)

/-- Protection command `i` with code `cmd` is refused where R405 does not accept it: RESULT is REFUSED, nothing else is done. -/
def ProtRefused (i : Requester → Fin 64 → Instr) (cmd : Nat) : Prop :=
  ∀ (s : State) (r : Requester) (c : Fin 64), Heard s r (Reg.ctxProtCtrl c) (s.dev.protCmdWord c cmd) → s.dev.mayWriteCtx r c = true →
    s.dev.protOn c = true → s.begin.protAccepts s.mem c cmd = false →
    Ends (i r c) s (fun u => (u.dev.ctx c).prot = { (s.dev.ctx c).prot with result := 1 } ∧ u.dev.rf (Reg.ctxProtStatus c) 23 16 = 1 ∧
      (u.dev.ctx c).pipe = (s.dev.ctx c).pipe ∧ u.mem = s.mem ∧ u.dev.tiles = s.dev.tiles ∧ u.dev.counters = s.dev.counters ∧ u.dev.tags = s.dev.tags)

/-- Protection command `i` with code `cmd` is accepted (R405). -/
def ProtHeard (s : State) (r : Requester) (c : Fin 64) (cmd : Nat) : Prop :=
  Heard s r (Reg.ctxProtCtrl c) (s.dev.protCmdWord c cmd) ∧ s.dev.mayWriteCtx r c = true ∧ s.begin.protAccepts s.mem c cmd = true

/-- Command `i` takes host port `p` down to `st` (R329, R347): its flits and packets are gone, no request is outstanding on it. -/
def TakesHostDown (i : Instr) (s : State) (p : Fin 4) (st : HostState) : Prop :=
  Ends i s (fun u => (u.dev.host p).state = st ∧ (u.dev.host p).unacked = [] ∧ (u.dev.host p).tx = [] ∧ (u.dev.host p).rx = [] ∧
    (∀ t, t ∈ u.dev.tags → t.port ≠ p.val) ∧ (∀ q : Nat, q ≠ p.val → (u.dev.host q).state = (s.dev.host q).state) ∧ u.mem = s.mem ∧
    u.dev.tiles = s.dev.tiles)

/-- Request `k` of host port `p` has been answered: its TAG, CTX and GEN come back with a STATUS and data (Table 11.6). -/
def HostAnswers (s u : State) (p : Nat) (k : HPacket) (opc st : Nat) (data : List Byte) : Prop :=
  ∃ a : HPacket, (u.dev.host p).tx = (s.dev.host p).tx ++ [a] ∧ a.opc = opc ∧ a.tag = k.tag ∧ a.status = st ∧ a.ctx = k.ctx ∧ a.gen = k.gen ∧
    a.data = data

/-- A host request `k` of opcode `opc` on port `p` may be performed now: the port carries packets, no earlier request of the port
addresses its line, and its context is bound to the port (R332, R333). -/
def HostMay (s : State) (p : Nat) (k : HPacket) (opc : Nat) : Prop :=
  (s.dev.host p).up = true ∧ k.opc = opc ∧ s.dev.hostBehind p k = false ∧ s.dev.boundTo k.ctx p = true

/-- Watched line `l` of context `c` has been asked for on port `p` with opcode `opc` under TAG `n` (R339). -/
def AsksLine (s u : State) (c l : Fin 64) (p opc n : Nat) : Prop :=
  (u.dev.watched c l).taking = true ∧ (∃ t : Tag, u.dev.tags = s.dev.tags ++ [t] ∧ t.tag = n ∧ t.port = p ∧ t.purpose = .runLine ∧ t.a = c.val ∧ t.b = l.val) ∧
  (∃ k : HPacket, (u.dev.host p).tx = (s.dev.host p).tx ++ [k] ∧ k.opc = opc ∧ k.tag = n ∧ k.len = 64 ∧ k.addr = s.dev.lineAddr c l % 2 ^ 64) ∧
  u.mem = s.mem ∧ u.dev.regs = s.dev.regs ∧ u.dev.counters = s.dev.counters ∧ u.dev.tiles = s.dev.tiles

/-- Run `seq` of context `c` has ended with status `st`: bytes 8 to 63 of its completion have been sent (R341, R342). -/
def Completes (s u : State) (c : Nat) (seq : BitVec 32) (st : Nat) : Prop :=
  ∃ y : Run, u.dev.findRun c seq = some y ∧ y.state = .ending ∧ y.status = BitVec.ofNat 8 st ∧ y.endLt = s.dev.lode.count ∧ y.bodySent = true

/-- The device with every unit's wait sampled once more (R363, R364). -/
def sampled (s : State) : Dev :=
  { s.begin with ras := { s.begin.ras with waits := (List.range waitUnits).map (fun u => (u, (s.dev.unitWait u).next (s.begin.waitOn s.mem u))) } }

/-- The tiles of `ts` are reset: those in use are stopped and, on dies in reach, their scratchpads clear and read as zeros (R74, R188). -/
def TilesReset (s u : State) (ts : List Nat) : Prop :=
  (∀ t, t ∈ ts → (s.dev.tile t).state ≠ .retired → (u.dev.tile t).stopped = true ∧ (u.dev.tile t).state = (s.dev.tile t).state) ∧
  (∀ t, t ∈ ts → (s.dev.tile t).state ≠ .retired → s.dev.lost (dieOf t) = false → (u.dev.tile t).clearing = true ∧
    ∀ a, a < 0x2000000 → u.read (scrBase t + a) = 0)

/-- Some tile of `ts` is in use on a die in reach. -/
def SomeTile (s : State) (ts : List Nat) : Prop := ∃ t, t ∈ ts ∧ (s.dev.tile t).state ≠ .retired ∧ s.dev.lost (dieOf t) = false

/-- Bytes `bs` are the answer of mailbox `m`: written to the buffer of its requester, or the request ends in an error (R445). -/
def MailboxGets (s u : State) (m : Nat) (bs : List Byte) : Prop :=
  (s.dev.rf (Reg.secMboxLen m) 31 16 < bs.length → u.dev.rf (Reg.secMboxCtrl m) 29 28 = 3 ∧ u.dev.rf (Reg.secMboxCtrl m) 21 14 = 2 ∧ u.mem = s.mem) ∧
  (bs.length ≤ s.dev.rf (Reg.secMboxLen m) 31 16 → m < 4 →
    u.dev.mailbox m = { s.dev.mailbox m with response := bs, sent := 0, writing := true } ∧ u.mem = s.mem) ∧
  (bs.length ≤ s.dev.rf (Reg.secMboxLen m) 31 16 → m = 4 → s.dev.mboxRsp 4 + bs.length ≤ 0x800000 → (s.dev.mailbox 4).abandoned = false →
    Holds u (sramBase + s.dev.mboxRsp 4) bs ∧ SameMemBut s u (sramBase + s.dev.mboxRsp 4) bs.length ∧
    u.dev.rf (Reg.secMboxCtrl 4) 29 28 = 2 ∧ u.dev.rf (Reg.secMboxCtrl 4) 13 0 = bs.length % 2 ^ 14)

/-- Channel `ch` has been answered with message `bs`: on the management bus, or in a mailbox behind its type byte, sealed if the request was. -/
def Says (s u : State) (ch : Nat) (secured : Bool) (bs : List Byte) : Prop :=
  (ch = 5 → u.dev.out = [.spdm 5 bs] ∧ u.mem = s.mem) ∧
  (ch < 5 → ∃ n, MailboxGets s u ch (if secured then bytesOf [6] ++ Config.sealed n bs else bytesOf [5] ++ bs))

/-- Message `msg` with request code `code` waits on channel `ch`, and Obsidian runs. -/
def Asks (s : State) (ch : Fin 6) (msg : List Byte) (code : Nat) (secured : Bool) : Prop :=
  s.dev.sec.state = .running ∧ s.dev.lost 4 = false ∧ (msg.getD 1 0).toNat = code ∧ 4 ≤ msg.length ∧ s.dev.messageDue ch msg secured = true

/-- The package identity is valid, the connection of channel `ch` is made, and `msg` has its version `ver`. -/
def Connected (s : State) (ch : Fin 6) (msg : List Byte) (ver : Nat) : Prop :=
  pkgIdOk s.dev.fuses.pkgIdA = true ∧ (ver = 0x12 ∨ ver = 0x13) ∧ (msg.getD 0 0).toNat = ver ∧
  s.dev.spdm ch = { version := true, inUse := ver, capabilities := true, algorithms := true }

/-- Request `i` on channel `ch` is answered with `bs`, is counted, and leaves Obsidian as `P` says. -/
def Replies (i : Instr) (s : State) (ch : Fin 6) (secured : Bool) (bs : List Byte) (P : Sec → Prop) : Prop :=
  Ends i s (fun u => Says s u ch secured bs ∧ P u.dev.sec ∧ u.dev.count Reg.secSpdmMsgs = s.dev.count Reg.secSpdmMsgs + 1 ∧
    u.dev.sec.keys = s.dev.sec.keys ∧ u.dev.tiles = s.dev.tiles ∧ u.dev.ctxs = s.dev.ctxs ∧ u.dev.strata = s.dev.strata ∧ u.dev.ports = s.dev.ports)

/-- What Obsidian keeps of connections, certificates and sessions is as in `a`. -/
def SameSpdm (a b : Sec) : Prop := b.spdm = a.spdm ∧ b.certs = a.certs ∧ b.sessions = a.sessions

/-- Without a valid package identity request `i` with code `code` is answered with the error Unspecified (R441). -/
def Barred (i : Fin 6 → List Byte → Instr) (code : Nat) : Prop :=
  ∀ (s : State) (ch : Fin 6) (msg : List Byte) (x : Bool), Asks s ch msg code x → pkgIdOk s.dev.fuses.pkgIdA = false →
    Replies (i ch msg) s ch x (bytesOf [(msg.getD 0 0).toNat, 0x7F, 5, 0]) (SameSpdm s.dev.sec)

/-- A TAP instruction of die `i` selects the instruction `code` there and on no other die (R449, R450). -/
def Selects (c : Instr) (s : State) (i : Fin 6) (code : BitVec 8) : Prop :=
  Quiet c s { s.begin with sec := { s.dev.sec with tap := mset s.dev.sec.tap i code }, out := [.tdr i code] }

/-- Indices a GET_MEASUREMENTS operation `i` returns: none for 0, all for 255 (R443). -/
def measured (i : Nat) : List Nat := if i = 0 then [] else if i = 255 then (List.range 11).map (· + 1) else [i]

/-- Nothing but the copies of requester `r` (R415) and what is shown outside may differ. -/
def OnlyReq (s u : State) (r : Requester) : Prop :=
  u.mem = s.mem ∧ (∀ j : Nat, j ≠ reqIndex r → u.dev.req j = s.dev.req j) ∧ u.dev = { s.begin with reqs := u.dev.reqs, out := u.dev.out }

/-- Address `a` is the word of register `x` in the control region, and the access of `r` names its window. -/
def Names (r : Requester) (c a : Nat) (x : RegDef) : Prop :=
  a % 4 = 0 ∧ a < 0x500000 ∧ regAt a = some x ∧ isIndData x = false ∧ isIndAddr x = false ∧ ctxMatches r c a = true

/-- Addresses `a` and `a + 4` are the words of a guarded pair of register `x` that `r` may write. -/
def NamesPair (s : State) (r : Requester) (c a : Nat) (x : RegDef) : Prop :=
  Names r c a x ∧ regAt (a + 4) = some x ∧ x.kind = .pair ∧ (x.place a).2 = 0 ∧ (x.place (a + 4)).2 = 4 ∧ s.dev.mayAsk r = true ∧
  s.dev.writeBarred r 0 a x = false

/-- Addresses `a` and `a + 4` are the words of a counter that `r` may read, none of them latched (R410). -/
def NamesCounter (s : State) (r : Requester) (c a : Nat) (x : RegDef) : Prop :=
  Names r c a x ∧ regAt (a + 4) = some x ∧ x.kind = .counter ∧ (x.place a).2 = 0 ∧ (x.place (a + 4)).2 = 4 ∧ x.name ≠ "LODE_NOW_LO" ∧
  x.name ≠ "LODE_PHASE" ∧ s.dev.mayReadReg r 0 a x = true ∧ mfind (s.dev.req (reqIndex r)).latches a = none

/-- The pair of the requester block after one access: OFFSET has advanced by 4 (R419). -/
def advanced (v : BitVec 32) : BitVec 32 := BitVec.ofNat 32 (setFld v.toNat 15 0 (fb v 15 0 + 4))

end Sys2Proof.Claims

open Sys2Proof Sys2Proof.Machine Sys2Proof.Claims

/-- A step takes the command at the front of the queue and runs it with the rest; on an empty queue the block idles (log entry 1). -/
def Obligations.StepRunsFrontCommand : Prop :=
  (∀ (c : Instr) (rest : List Instr) (s : State), s.pending = c :: rest → step s = exec c { s with pending := rest }) ∧
  (∀ (s : State), s.pending = [] → step s = .next s)

/-- State.reset is sound: every register word at its Reset value, every counter 0, the test lock engaged, no die up, no context valid (R409, R410,
R336, R412, R471). That memory reads 0 is the model's choice (log entry 2). -/
def Obligations.ResetStateIsSound : Prop :=
  (∀ k : Nat, State.reset.dev.reg k = resetWord k) ∧ (∀ k : Nat, State.reset.dev.count k = 0) ∧ State.reset.dev.sec.testLock = true ∧
  State.reset.dev.sec.state = .selfTest ∧ State.reset.dev.bringUp = .off ∧ (∀ c : Nat, (State.reset.dev.ctx c).state = .unavailable) ∧
  State.reset.dev.admin = 0 ∧ State.reset.dev.tags = [] ∧ State.reset.dev.openings = [] ∧ (∀ p : Nat, (State.reset.dev.host p).state = .down) ∧
  (∀ p : Nat, (State.reset.dev.port p).keys0 = none ∧ (State.reset.dev.port p).keys1 = none) ∧ State.reset.pending = [] ∧
  (∀ a : Nat, State.reset.read a = 0) ∧ State.reset.Sound

/-- Every step keeps memory in its canonical form and leaves no store outside it. -/
def Obligations.StepKeepsSound : Prop := ∀ (s t : State), s.Sound → step s = .next t → t.Sound

/-- No command changes the queue, none faults, and only a register write with the test lock released is refused (R409). -/
def Obligations.CommandsKeepTheQueue : Prop :=
  (∀ (i : Instr) (s t : State), exec i s = .next t → t.pending = s.pending) ∧
  (∀ (i : Instr) (s : State), (∀ p k, i ≠ .rwr p k) → s.dev.sec.testLock = true → ∃ t, exec i s = .next t) ∧
  (∀ (i : Instr) (s : State), (∃ t, exec i s = .next t) ∨ exec i s = .refused .testControl)

/-- What HBM_WRITE has written to a burst, HBM_READ of the same context reads (R177, R194). -/
def Obligations.HbmReadsWhatWasWritten : Prop :=
  ∀ (s : State) (c : Fin 64) (off : BitVec 40) (bs : List Byte) (e : BitVec 304), off.toNat % 32 = 0 → bs.length = 32 →
    s.dev.hbmServes off.toNat = true → s.dev.lost (memDie off.toNat) = false → s.dev.admits c off.toNat 32 = true → s.dev.directory = [] →
    s.dev.zeroingIn off.toNat 32 = false → s.dev.badBursts = [] →
    ∃ t u, exec (.hbmWrite c off bs e) s = .next t ∧ exec (.hbmRead c off 0) t = .next u ∧ u.dev.out = [.readData bs] ∧ u.mem = t.mem

/-- A register request that is not permitted gets ACCESS, changes nothing and is counted; one to no register gets ADDR; a write that changes RSV
bits is ignored and counted, and with the test lock released refused by the model (R407, R409, R415 to R417). -/
def Obligations.BarredWritesChangeNothing : Prop :=
  (∀ (s : State) (r : Requester) (c : Fin 64) (a : BitVec 39) (v : BitVec 32) (x : RegDef), Names r c a.toNat x → x.kind ≠ .pair → x.name ≠ "STRATA_CTRL" →
    s.dev.mayAsk r = true → (s.dev.req (reqIndex r)).pending = none → s.dev.mayWriteReg r 0 a.toNat x = false →
    Quiet (.registerWrite r c a v) s ((s.begin.bump Reg.devRegRefused).emit (.regDone r 2))) ∧
  (∀ (s : State) (r : Requester) (c : Fin 64) (a : BitVec 39) (v : BitVec 32) (x : RegDef), Names r c a.toNat x → x.kind = .pair → (x.place a.toNat).2 = 0 →
    x.name ≠ "STRATA_CTRL" → s.dev.mayAsk r = true → (s.dev.req (reqIndex r)).pending = none → s.dev.mayWriteReg r 0 a.toNat x = false →
    Quiet (.guardedWriteFirst r c a v) s ((s.begin.bump Reg.devRegRefused).emit (.regDone r 2))) ∧
  (∀ (s : State) (p : Fin 4) (c : Fin 64) (a : BitVec 39) (v : BitVec 32) (x : RegDef), a.toNat % 4 = 0 → a.toNat < 0x500000 → regAt a.toNat = some x →
    x.kind ≠ .pair → c.val ≠ windowCtx a.toNat → s.dev.mayAsk (.host p) = true → (s.dev.req p).pending = none →
    Quiet (.registerWrite (.host p) c a v) s ((s.begin.bump Reg.devRegRefused).emit (.regDone (.host p) 2))) ∧
  (∀ (s : State) (r : Requester) (c : Fin 64) (a : BitVec 39) (v : BitVec 32), s.dev.mayAsk r = true → (s.dev.req (reqIndex r)).pending = none →
    (a.toNat % 4 ≠ 0 ∨ 0x500000 ≤ a.toNat ∨ regAt a.toNat = none) → Quiet (.registerWrite r c a v) s (s.begin.emit (.regDone r 1))) ∧
  (∀ (s : State) (r : Requester) (c : Fin 64) (a : BitVec 39) (x : RegDef), Names r c a.toNat x → latches x a.toNat = true → s.dev.mayAsk r = true →
    (s.dev.req (reqIndex r)).pending = none → s.dev.mayReadReg r 0 a.toNat x = false →
    Quiet (.counterLowRead r c a) s ((s.begin.bump Reg.devRegRefused).emit (.regRead r 0 2))) ∧
  (∀ (s : State) (p : Fin 4) (v : BitVec 32), s.dev.mayAsk (.host p) = true → (s.dev.req p).pending = none → s.dev.lost 4 = false →
    Quiet (.devAdminWrite (.host p) v) s ((s.begin.bump Reg.devRegRefused).emit (.regDone (.host p) 2))) ∧
  (∀ (s : State) (r : Requester) (v : BitVec 32), s.dev.mayAsk r = true → (s.dev.req (reqIndex r)).pending = none → s.dev.lost 4 = false →
    s.dev.ctx0OrAdmin r = false → Quiet (.devEvtConsWrite r v) s ((s.begin.bump Reg.devRegRefused).emit (.regDone r 2))) ∧
  (∀ (s : State) (r : Requester) (c : Fin 64) (a : BitVec 39) (v : BitVec 32) (x : RegDef), Names r c a.toNat x → x.kind = .word → s.dev.mayAsk r = true →
    (s.dev.req (reqIndex r)).pending = none → s.dev.writeBarred r 0 a.toNat x = false → s.dev.lost 4 = false → s.dev.changesRsv a.toNat v = true →
    s.dev.sec.testLock = true →
    Ends (.registerWrite r c a v) s (fun u => OnlyReq s u r ∧ u.dev.out = [.regDone r 0] ∧
      u.dev.req (reqIndex r) = { s.dev.req (reqIndex r) with rsvFaults := (s.dev.req (reqIndex r)).rsvFaults + 1 })) ∧
  (∀ (s : State) (r : Requester) (c : Fin 64) (a : BitVec 39) (v : BitVec 32) (x : RegDef), Names r c a.toNat x → x.kind = .word → s.dev.mayAsk r = true →
    (s.dev.req (reqIndex r)).pending = none → s.dev.writeBarred r 0 a.toNat x = false → s.dev.lost 4 = false → s.dev.changesRsv a.toNat v = true →
    s.dev.sec.testLock = false → exec (.registerWrite r c a v) s = .refused .testControl)

/-- Guarded pairs (R411): the first write is held pending, its complement at the next address commits it, and each failure counts once. -/
def Obligations.GuardedPairsCommitOrFail : Prop :=
  (∀ (s : State) (r : Requester) (c : Fin 64) (a : BitVec 39) (v : BitVec 32) (x : RegDef), NamesPair s r c a.toNat x →
    Ends (.guardedWriteFirst r c a v) s (fun u => OnlyReq s u r ∧ u.dev.out = [.regDone r 0] ∧
      u.dev.req (reqIndex r) = { s.dev.req (reqIndex r) with pending := some (a.toNat, v), failed := none, guardFaults := (s.dev.req (reqIndex r)).guardFaults + (if (s.dev.req (reqIndex r)).pending.isSome then 1 else 0) })) ∧
  (∀ (s : State) (r : Requester) (c : Fin 64) (a : BitVec 39) (v w : BitVec 32) (x : RegDef) (b : Nat), b + 4 = a.toNat → NamesPair s r c b x →
    ctxMatches r c a.toNat = true → a.toNat < 0x500000 → (s.dev.req (reqIndex r)).pending = some (b, w) → v ≠ ~~~w →
    Ends (.guardedWriteSecond r c a v) s (fun u => OnlyReq s u r ∧ u.dev.out = [.regDone r 2] ∧
      u.dev.req (reqIndex r) = { s.dev.req (reqIndex r) with pending := none, failed := none, guardFaults := (s.dev.req (reqIndex r)).guardFaults + 1 })) ∧
  (∀ (s : State) (r : Requester) (c : Fin 64) (a : BitVec 39) (v : BitVec 32) (x : RegDef) (b : Nat), b + 4 = a.toNat → NamesPair s r c b x →
    ctxMatches r c a.toNat = true → a.toNat < 0x500000 → (s.dev.req (reqIndex r)).pending = none → (s.dev.req (reqIndex r)).failed ≠ some b →
    Ends (.guardedWriteSecond r c a v) s (fun u => OnlyReq s u r ∧ u.dev.out = [.regDone r 2] ∧
      u.dev.req (reqIndex r) = { s.dev.req (reqIndex r) with failed := none, guardFaults := (s.dev.req (reqIndex r)).guardFaults + 1 })) ∧
  (∀ (s : State) (r : Requester) (c : Fin 64) (v : BitVec 32), s.dev.mayAsk r = true → ctxMatches r c (Reg.ctxRngSeedLo c) = true → s.dev.lost 4 = false →
    (s.dev.req (reqIndex r)).pending = some (Reg.ctxRngSeedLo c, v) → s.dev.mayWriteCtx r c = true →
    Ends (.guardedWriteSecond r c (BitVec.ofNat 39 (Reg.ctxRngSeedLo c + 4)) (~~~v)) s (fun u => u.dev.reg (Reg.ctxRngSeedLo c) = v ∧
      (∀ k, k ≠ Reg.ctxRngSeedLo c → u.dev.reg k = s.dev.reg k) ∧ (u.dev.req (reqIndex r)).pending = none ∧
      (u.dev.req (reqIndex r)).guardFaults = (s.dev.req (reqIndex r)).guardFaults ∧ u.dev.out = [.regDone r 0] ∧ u.mem = s.mem ∧
      u.dev.tiles = s.dev.tiles ∧ u.dev.ctxs = s.dev.ctxs ∧ u.dev.counters = s.dev.counters)) ∧
  (∀ (s : State) (r : Requester) (c : Fin 64) (v : BitVec 32), s.dev.mayAsk r = true → s.dev.lost 4 = false → s.dev.mayWriteCtx r c = true →
    (s.dev.req (reqIndex r)).pending = none →
    Ends (.registerWrite r c (BitVec.ofNat 39 (Reg.ctxRngSeedHi c)) v) s (fun u => u.dev.reg (Reg.ctxRngSeedHi c) = v ∧
      (∀ k, k ≠ Reg.ctxRngSeedHi c → u.dev.reg k = s.dev.reg k) ∧ (u.dev.req (reqIndex r)).pending = none ∧ u.dev.out = [.regDone r 0] ∧ u.mem = s.mem ∧
      u.dev.tiles = s.dev.tiles ∧ u.dev.ctxs = s.dev.ctxs ∧ u.dev.counters = s.dev.counters)) ∧
  (∀ (s : State) (r : Requester) (b : Nat) (v : BitVec 32), (s.dev.req (reqIndex r)).pending = some (b, v) →
    Ends (.guardTimeout r) s (fun u => OnlyReq s u r ∧ u.dev.out = [] ∧
      u.dev.req (reqIndex r) = { s.dev.req (reqIndex r) with pending := none, failed := some b, guardFaults := (s.dev.req (reqIndex r)).guardFaults + 1 })) ∧
  (∀ (s : State) (r : Requester), (s.dev.req (reqIndex r)).pending = none → Quiet (.guardTimeout r) s s.begin)

/-- Register reads (R407, R410, R419): a counter is read whole at one instant, or low word first with its upper word latched; an IND pair reads
the word it points at and advances. -/
def Obligations.RegistersAreRead : Prop :=
  (∀ (s : State) (r : Requester) (c : Fin 64) (a : BitVec 39) (x : RegDef), NamesCounter s r c a.toNat x → s.dev.mayAsk r = true →
    (s.dev.req (reqIndex r)).pending = none →
    Ends (.counterLowRead r c a) s (fun u => OnlyReq s u r ∧ u.dev.out = [.regRead r (BitVec.ofNat 64 (s.dev.counterAt r x a.toNat % 2 ^ 32)) 0] ∧
      u.dev.req (reqIndex r) = { s.dev.req (reqIndex r) with latches := mset (s.dev.req (reqIndex r)).latches (a.toNat + 4) (BitVec.ofNat 32 (s.dev.counterAt r x a.toNat / 2 ^ 32)) })) ∧
  (∀ (s : State) (p : Fin 4) (k : HPacket) (x : RegDef), (s.dev.host p).up = true → k.opc = 6 → s.dev.regBehind p k = false → k.len = 8 → k.addr % 8 = 0 →
    NamesCounter s (.host p) k.ctx k.addr x →
    Ends (.rrd p k) s (fun u => HostAnswers s u p k 0x0B 0 (toLE 8 (s.dev.counterAt (.host p) x k.addr)) ∧ u.mem = s.mem ∧ u.dev.regs = s.dev.regs ∧
      u.dev.counters = s.dev.counters ∧ u.dev.tiles = s.dev.tiles ∧ u.dev.ctxs = s.dev.ctxs)) ∧
  (∀ (s : State) (p : Fin 4) (k : HPacket) (x : RegDef) (v : BitVec 32), (s.dev.host p).up = true → k.opc = 6 → s.dev.regBehind p k = false → k.len = 4 →
    Names (.host p) k.ctx k.addr x → s.dev.mayReadReg (.host p) 0 k.addr x = true → x.space ≠ .tile → mfind (s.dev.req p).latches k.addr = some v →
    Ends (.rrd p k) s (fun u => HostAnswers s u p k 0x0B 0 (toLE 4 v.toNat) ∧ u.mem = s.mem ∧ u.dev.regs = s.dev.regs ∧ u.dev.counters = s.dev.counters ∧
      u.dev.tiles = s.dev.tiles ∧ u.dev.ctxs = s.dev.ctxs)) ∧
  (∀ (s : State) (p : Fin 4) (k : HPacket), (s.dev.host p).up = true → k.opc = 6 → s.dev.regBehind p k = false → (0x500000 ≤ k.addr ∨ regAt k.addr = none) →
    Ends (.rrd p k) s (fun u => HostAnswers s u p k 0x0B 1 [] ∧ u.mem = s.mem ∧ u.dev.regs = s.dev.regs ∧ u.dev.counters = s.dev.counters ∧
      u.dev.tiles = s.dev.tiles ∧ u.dev.ctxs = s.dev.ctxs)) ∧
  (∀ (s : State) (r : Requester) (x : RegDef) (k : Nat), s.dev.mayAsk r = true → (s.dev.req (reqIndex r)).pending = none →
    s.dev.indTarget r 64 = .inl (x, k) → s.dev.mayReadReg r 65 k x = true → x.kind = .word → latches x k = false → x.name ≠ "LODE_NOW_LO" →
    x.name ≠ "LODE_PHASE" → (x.space = .tile → (s.dev.tile (keyBlock k)).state ≠ .retired) →
    mfind (s.dev.req (reqIndex r)).latches (k + 2 ^ 32 * 65) = none →
    Ends (.indDataAccess r none none) s (fun u => OnlyReq s u r ∧
      u.dev.out = [.regRead r (BitVec.ofNat 64 (s.begin.plainWord s.mem r x k 0).toNat) 0] ∧
      u.dev.req (reqIndex r) = { s.dev.req (reqIndex r) with indAddr := mset (s.dev.req (reqIndex r)).indAddr 64 (advanced (s.dev.indAddr r 64)) })) ∧
  (∀ (s : State) (r : Requester) (st : Nat), s.dev.mayAsk r = true → (s.dev.req (reqIndex r)).pending = none → s.dev.indTarget r 64 = .inr st → st ≠ 2 →
    Ends (.indDataAccess r none none) s (fun u => OnlyReq s u r ∧ u.dev.out = [.regRead r 0 (BitVec.ofNat 8 st)] ∧
      u.dev.req (reqIndex r) = { s.dev.req (reqIndex r) with indAddr := mset (s.dev.req (reqIndex r)).indAddr 64 (advanced (s.dev.indAddr r 64)) }))

/-- Register writes (R262, R331, R407, R408, R418 to R420, R426): a permitted value is taken, an armed slot's words and a CONS that would pass
a record not yet valid are held. -/
def Obligations.RegistersAreWritten : Prop :=
  (∀ (s : State) (r : Requester) (c : Fin 64) (n : Fin 64) (v : BitVec 32), s.dev.mayAsk r = true → (s.dev.req (reqIndex r)).pending = none → s.dev.lost 4 = false →
    s.dev.mayWriteCtx r c = true → (s.dev.cairn c n).state ≠ .armed →
    Ends (.registerWrite r c (BitVec.ofNat 39 (Reg.ctxCairnArg c n)) v) s (fun u => u.dev.reg (Reg.ctxCairnArg c n) = v ∧
      (∀ k, k ≠ Reg.ctxCairnArg c n → u.dev.reg k = s.dev.reg k) ∧ u.dev.out = [.regDone r 0] ∧ u.mem = s.mem ∧ u.dev.cairns = s.dev.cairns ∧
      u.dev.tiles = s.dev.tiles ∧ u.dev.ctxs = s.dev.ctxs ∧ u.dev.counters = s.dev.counters ∧ u.dev.reqs = s.dev.reqs)) ∧
  (∀ (s : State) (r : Requester) (c : Fin 64) (n : Fin 64) (v : BitVec 32), s.dev.mayAsk r = true → (s.dev.req (reqIndex r)).pending = none → s.dev.lost 4 = false →
    s.dev.mayWriteCtx r c = true → (s.dev.cairn c n).state = .armed →
    Quiet (.registerWrite r c (BitVec.ofNat 39 (Reg.ctxCairnArg c n)) v) s (s.begin.emit (.regDone r 0))) ∧
  (∀ (s : State) (p : Fin 4) (c : Fin 64) (n : Fin 64) (k : HPacket), (s.dev.host p).up = true → k.opc = 7 → s.dev.regBehind p k = false → k.ctx = c.val →
    k.addr = Reg.ctxCairnArg c n → k.data.length = 4 → k.len = 4 → (s.dev.req p).pending = none → s.dev.lost 4 = false → s.dev.mayWriteCtx (.host p) c = true →
    (s.dev.cairn c n).state ≠ .armed →
    Ends (.rwr p k) s (fun u => HostAnswers s u p k 0x0C 0 [] ∧ u.dev.reg (Reg.ctxCairnArg c n) = BitVec.ofNat 32 (leOf k.data) ∧
      (∀ j, j ≠ Reg.ctxCairnArg c n → u.dev.reg j = s.dev.reg j) ∧ u.mem = s.mem ∧ u.dev.tiles = s.dev.tiles ∧ u.dev.ctxs = s.dev.ctxs ∧
      u.dev.counters = s.dev.counters ∧ u.dev.cairns = s.dev.cairns)) ∧
  (∀ (s : State) (r : Requester) (v : BitVec 32), Heard s r Reg.devAdmin v → isCtx0 r = true →
    Quiet (.devAdminWrite r v) s ({ s.begin with admin := BitVec.ofNat 4 v.toNat }.emit (.regDone r 0))) ∧
  (∀ (s : State) (r : Requester) (v : BitVec 32) (l : List Nat), Heard s r Reg.devEvtCons v → s.dev.ctx0OrAdmin r = true →
    seqRange (s.dev.reg Reg.devEvtCons) v (s.dev.eventRingAt 64).size = some l → (∀ n, n ∈ l → n ∈ s.dev.pkgEvents.valid) →
    Ends (.devEvtConsWrite r v) s (fun u => u.dev.reg Reg.devEvtCons = v ∧ (∀ n, n ∈ u.dev.pkgEvents.valid ↔ n ∈ s.dev.pkgEvents.valid ∧ ¬ n ∈ l) ∧
      u.dev.pkgEvents.next = s.dev.pkgEvents.next ∧ (∀ k, k ≠ Reg.devEvtCons → u.dev.reg k = s.dev.reg k) ∧ u.mem = s.mem ∧ u.dev.tiles = s.dev.tiles ∧
      u.dev.counters = s.dev.counters)) ∧
  (∀ (s : State) (r : Requester) (v : BitVec 32), Heard s r Reg.devEvtCons v → s.dev.ctx0OrAdmin r = true →
    (∀ l, seqRange (s.dev.reg Reg.devEvtCons) v (s.dev.eventRingAt 64).size = some l → ∃ n, n ∈ l ∧ ¬ n ∈ s.dev.pkgEvents.valid) →
    Quiet (.devEvtConsWrite r v) s (s.begin.emit (.regDone r 0))) ∧
  (∀ (s : State) (r : Requester) (t : Fin 64) (v : BitVec 32) (x : RegDef), s.dev.mayAsk r = true → (s.dev.req (reqIndex r)).pending = none → isCtx0 r = true →
    s.dev.indTarget r 64 = .inl (x, Reg.tileShareMapLo t) → (s.dev.tile t).state ≠ .retired →
    Ends (.indDataAccess r none (some v)) s (fun u => u.dev.reg (Reg.tileShareMapLo t) = v ∧ (∀ k, k ≠ Reg.tileShareMapLo t → u.dev.reg k = s.dev.reg k) ∧
      (u.dev.req (reqIndex r)) = { s.dev.req (reqIndex r) with indAddr := mset (s.dev.req (reqIndex r)).indAddr 64 (advanced (s.dev.indAddr r 64)) } ∧
      u.dev.out = [.regDone r 0] ∧ u.mem = s.mem ∧ u.dev.tiles = s.dev.tiles ∧ u.dev.counters = s.dev.counters))

/-- StartUp (R471, R27, R40, R460): the die bring-up begins, waits for the mirror, and a low reset pin makes the cold-start state again. -/
def Obligations.StartUpBeginsAndWaitsForTheMirror : Prop :=
  (∀ (s : State) (o : BringUpOutcome), s.dev.bringUp = .off → s.dev.fuses.half 4 ≠ s.dev.fuses.half 5 → o.sideband = false →
    Ends (.coldStart o) s (fun t => t.dev.bringUp = .waitMirror ∧ t.dev.role = .training ∧ t.dev.idModeNow = o.idMode ∧
      t.dev.idModeNext = none ∧ t.dev.outcome = some o ∧ t.dev.fenced = false ∧ t.mem = s.mem ∧ t.dev.regs = s.dev.regs ∧
      t.dev.counters = s.dev.counters ∧ t.dev.tiles = s.dev.tiles)) ∧
  (∀ (s : State) (o : BringUpOutcome), s.dev.bringUp = .off → s.dev.fuses.half 4 = s.dev.fuses.half 5 →
    Ends (.coldStart o) s (fun t => t.dev.bringUp = .stopped ∧ t.dev.role = .roleConflict ∧ t.mem = s.mem)) ∧
  (∀ (s : State) (o : BringUpOutcome) (x : MirrorOutcome), s.dev.bringUp = .waitMirror → s.dev.outcome = some o →
    s.dev.idModeNow = true → o.exchange = false → x.exchange = false →
    Ends (.mirrorSidebandUp x) s (fun t => t.dev.bringUp = .waitMirror ∧ t.dev.outcome = some { o with sideband := true, exchange := false } ∧
      (∀ i, i < 16 → x.trained.getLsbD i = true → (s.dev.module 7 i).inService = false →
        (t.dev.module 7 i).inService = true ∧ (t.dev.module 7 i).half = x.half.getLsbD i) ∧
      t.mem = s.mem ∧ t.dev.regs = s.dev.regs ∧ t.dev.tiles = s.dev.tiles)) ∧
  (∀ (s : State), s.dev.bringUp = .waitMirror → s.dev.outcome.isSome = true → s.dev.serving 7 = [] → s.dev.fuses.dieNumber 0 ≠ 0 →
    Ends .mirrorWaitExpiry s (fun t => t.dev.fenced = true ∧ t.dev.fenceCause = 0 ∧ t.dev.iaPresent = false ∧ t.dev.ibPresent = false ∧
      t.dev.bringUp = .stopped ∧ t.dev.role = .roleConflict ∧ t.mem = s.mem)) ∧
  (∀ (s : State), exec .pkgResetLow s = .next { mem := [], pending := s.pending, dev := { State.reset.dev with fuses := s.dev.fuses, sec := { State.reset.dev.sec with wasUnlocked := !s.dev.sec.testLock } } })
/-- Die-to-die cells (R14, R15). The clauses for a lane (R357): the bucket of the lane rises by 1 below its limit. -/
def Obligations.DieToDieCellsKeepTheirOrder : Prop :=
  (∀ (s : State) (x : D2dId) (high : Bool) (q : CellRequest), s.dev.cellsPass x.link x.module = true →
    ((s.dev.module x.link x.module).endAt high).toReplay = 0 → s.dev.maySend x.link x.module high q = true → q.cls ≠ 0 →
    Ends (.d2dCellSend x high q) s (fun t =>
      let e := (s.dev.module x.link x.module).endAt high
      let cell := makeCell q e.txSeq.toNat e.rxSeq.toNat e.takeCredit.1 e.takeCredit.2.1
      let e' := (t.dev.module x.link x.module).endAt high
      t.dev.out = [.d2dCell x.link x.module high cell] ∧ e'.unacked = e.unacked ++ [cell] ∧ e'.txSeq = e.txSeq + 1 ∧ e'.rxSeq = e.rxSeq ∧
      (t.dev.module x.link x.module).endAt (!high) = (s.dev.module x.link x.module).endAt (!high) ∧
      t.mem = s.mem ∧ t.dev.regs = s.dev.regs ∧ t.dev.counters = s.dev.counters ∧ t.dev.tiles = s.dev.tiles)) ∧
  (∀ (s : State) (x : D2dId) (high : Bool) (cell : BitVec 640), s.dev.cellsPass x.link x.module = true → cellCrcOk cell = true →
    cellClass cell = 3 → linkCarries x.link 3 = true → s.dev.open_ = true →
    cellSeq cell = (((s.dev.module x.link x.module).endAt high).rxSeq + 1).toNat →
    Ends (.d2dCellReceive x high cell) s (fun t =>
      t.dev.out = [.d2dDelivered x.link x.module high cell] ∧
      ((t.dev.module x.link x.module).endAt high).rxSeq = BitVec.ofNat 16 (cellSeq cell) ∧
      ((t.dev.module x.link x.module).endAt high).discarding = false ∧
      (t.dev.module x.link x.module).endAt (!high) = (s.dev.module x.link x.module).endAt (!high) ∧
      t.mem = s.mem ∧ t.dev.regs = s.dev.regs ∧ t.dev.counters = s.dev.counters ∧ t.dev.tiles = s.dev.tiles)) ∧
  (∀ (s : State) (x : D2dId) (high : Bool) (cell : BitVec 640), s.dev.cellsPass x.link x.module = true → cellCrcOk cell = false →
    ((s.dev.module x.link x.module).endAt high).discarding = false →
    Ends (.d2dCellReceive x high cell) s (fun t =>
      ((t.dev.module x.link x.module).endAt high).discarding = true ∧
      ((t.dev.module x.link x.module).endAt high).rxSeq = ((s.dev.module x.link x.module).endAt high).rxSeq ∧
      ((t.dev.module x.link x.module).endAt (!high)).toReplay = ((s.dev.module x.link x.module).endAt (!high)).unacked.length ∧
      t.dev.out = [] ∧ t.mem = s.mem ∧ t.dev.regs = s.dev.regs ∧ t.dev.counters = s.dev.counters ∧ t.dev.tiles = s.dev.tiles)) ∧
  (∀ (s : State) (x : D2dId) (up : Bool) (lane : Fin 68) (b : Bucket), (s.dev.module x.link x.module).inService = true →
    mfind s.dev.ras.buckets (bucketKey 4 (d2dLaneUnit x.link x.module lane (if up then (linkEnds x.link).2 else (linkEnds x.link).1))) = some b →
    b.level + 1 < s.dev.lbN 4 →
    Ends (.d2dLaneParityError x up lane false) s (fun t =>
      (∃ b', mfind t.dev.ras.buckets (bucketKey 4 (d2dLaneUnit x.link x.module lane (if up then (linkEnds x.link).2 else (linkEnds x.link).1)))
          = some b' ∧ b'.level = b.level + 1) ∧
      t.dev.modules = s.dev.modules ∧ t.mem = s.mem ∧ t.dev.regs = s.dev.regs ∧ t.dev.counters = s.dev.counters))
/-- Clocks and dies (R22, R38): holdover, its end, the loss of a die's clock, a neighbour declared absent. -/
def Obligations.ClocksAndDiesAreLostAndHeld : Prop :=
  (∀ (s : State) (i : Fin 6), s.dev.clocked i = true →
    Quiet (.refClockInterrupt i) s (s.begin.setDie i { s.dev.die i with holdover := true })) ∧
  (∀ (s : State) (i : Fin 6) (ns : BitVec 32), (s.dev.die i).holdover = true → ns.toNat ≤ 10000 →
    Ends (.refClockRestore i ns) s (fun t => t.dev.die i = { s.dev.die i with holdover := false } ∧
      t.mem = s.mem ∧ t.dev.regs = s.dev.regs ∧ t.dev.tiles = s.dev.tiles ∧ t.dev.modules = s.dev.modules)) ∧
  (∀ (s : State) (i : Fin 6), (s.dev.die i).holdover = true → s.dev.ras.resets = [] →
    Ends (.clockLost i) s (fun t => (t.dev.die i).clockLost = true ∧ (t.dev.die i).locked = false ∧ (t.dev.die i).holdover = false ∧
      t.dev.fuses = s.dev.fuses ∧ t.dev.hbm = s.dev.hbm)) ∧
  (∀ (s : State) (i : Fin 6), s.dev.clocked i = true → s.dev.ras.resets = [] →
    Ends (.pllLockLoss i) s (fun t => (t.dev.die i).clockLost = true ∧ (t.dev.die i).locked = false ∧
      t.dev.fuses = s.dev.fuses ∧ t.dev.hbm = s.dev.hbm)) ∧
  (∀ (s : State) (n : Fin 8) (i : Fin 6), s.dev.open_ = true → (linksOf i).contains n.val = true → s.dev.serving n ≠ [] →
    (s.dev.die i).absent = false → s.dev.lost (otherEnd n i) = false → s.dev.ras.resets = [] →
    Ends (.d2dHeartbeatTimeout n i) s (fun t => (t.dev.die i).absent = true ∧ t.dev.fuses = s.dev.fuses ∧ t.dev.hbm = s.dev.hbm)) ∧
  (∀ (s : State) (n : Fin 8) (i : Fin 6), s.dev.pwr.state ≠ .forward → s.dev.open_ = true → (linksOf i).contains n.val = true →
    s.dev.serving n ≠ [] → (s.dev.die i).absent = false → s.dev.lost (otherEnd n i) = false → s.dev.ras.resets = [] →
    Ends (.d2dForwardedClockLoss n i) s (fun t => (t.dev.die i).absent = true ∧ t.dev.fuses = s.dev.fuses ∧ t.dev.hbm = s.dev.hbm))
/-- PowerStates (R467): QUIESCE from RUN with every context idle, FORWARD from QUIESCE, RUN from both. -/
def Obligations.PowerStatesFollowTheirCommands : Prop :=
  (∀ (s : State) (r : Requester), Heard s r Reg.pwrCtrl (cmdWord s Reg.pwrCtrl 1) → s.dev.ctx0OrAdmin r = true →
    s.dev.pwr.state = .run → s.dev.pwrIdle = true →
    Ends (.pwrQuiesce r) s (fun t => t.dev.pwr.state = .quiesce ∧ (∀ q, q < 4 → (t.dev.die q).tclkStopped = true) ∧
      t.mem = s.mem ∧ t.dev.tiles = s.dev.tiles ∧ t.dev.ctxs = s.dev.ctxs ∧ t.dev.counters = s.dev.counters)) ∧
  (∀ (s : State) (r : Requester), Heard s r Reg.pwrCtrl (cmdWord s Reg.pwrCtrl 2) → s.dev.ctx0OrAdmin r = true →
    s.dev.pwr.state = .quiesce →
    Ends (.pwrForward r) s (fun t => t.dev.pwr.state = .forward ∧ (∀ q, q < 4 → (t.dev.die q).tclkStopped = true ∧ (t.dev.die q).locked = false) ∧
      t.mem = s.mem ∧ t.dev.tiles = s.dev.tiles ∧ t.dev.ctxs = s.dev.ctxs ∧ t.dev.counters = s.dev.counters)) ∧
  (∀ (s : State) (r : Requester), Heard s r Reg.pwrCtrl (cmdWord s Reg.pwrCtrl 3) → s.dev.ctx0OrAdmin r = true →
    s.dev.pwr.state = .quiesce →
    Ends (.pwrRun r) s (fun t => t.dev.pwr.state = .run ∧ (∀ q, q < 4 → (t.dev.die q).tclkStopped = false) ∧
      t.mem = s.mem ∧ t.dev.tiles = s.dev.tiles ∧ t.dev.ctxs = s.dev.ctxs)) 

/-- PowerLimits (R463 to R465, R468, R470). -/
def Obligations.PowerLimitsMoveLevels : Prop :=
  (∀ (s : State) (r : Requester) (q : Fin 4) (v : BitVec 32), Heard s r (Reg.pwrDvfsCtrl q) v → s.dev.ctx0OrAdmin r = true →
    fb v 3 0 ≤ 8 → Quiet (.dvfsLevelReqWrite r q v) s ((s.begin.putReg (Reg.pwrDvfsCtrl q) v).answer r stOK)) ∧
  (∀ (s : State) (r : Requester) (q : Fin 4) (v : BitVec 32), Heard s r (Reg.pwrDvfsCtrl q) v → s.dev.ctx0OrAdmin r = true →
    8 < fb v 3 0 → Quiet (.dvfsLevelReqWrite r q v) s (s.begin.answer r stOK)) ∧
  (∀ (s : State) (q : Fin 4) (mv : BitVec 10), s.dev.pwr.state = .run → s.dev.lost q = false → s.dev.bringUp ≠ .off →
    s.dev.pipesEmpty q = true → (s.dev.diePower q).level < s.dev.effectiveLevel q → s.dev.setPoint q (s.dev.effectiveLevel q) ≤ mv.toNat →
    Ends (.dvfsStep q mv) s (fun t => (t.dev.diePower q).level = s.dev.effectiveLevel q ∧ (t.dev.diePower q).mv = mv ∧
      t.dev.count Reg.pwrDvfsSteps = s.dev.count Reg.pwrDvfsSteps + 1 ∧ t.mem = s.mem ∧ t.dev.regs = s.dev.regs ∧
      t.dev.tiles = s.dev.tiles)) ∧
  (∀ (s : State) (w : BitVec 12), s.dev.rb Reg.pwrLimit 31 = true → s.dev.rf Reg.pwrLimit 11 0 < w.toNat →
    Ends (.limitLoop w) s (fun t => (∀ q, q < 4 → (t.dev.diePower q).limit = (s.dev.diePower q).limit - 1) ∧ t.dev.pwr.lowRuns = 0 ∧
      t.dev.pwr.watts = w ∧ t.mem = s.mem ∧ t.dev.regs = s.dev.regs ∧ t.dev.counters = s.dev.counters)) ∧
  (∀ (s : State), s.dev.pwr.capLow = false →
    Quiet .pwrCapAssert s (({ s.begin with pwr := { s.dev.pwr with capLow := true, savedLimit := (List.range 4).map (fun q => (s.dev.diePower q).limit) } } : Dev).bump Reg.pwrCapAsserts)) ∧
  (∀ (s : State), s.dev.pwr.capLow = true → s.dev.pwr.savedLimit.length = 4 →
    Ends .pwrCapDeassert s (fun t => t.dev.pwr.capLow = false ∧
      (∀ q, q < 4 → (t.dev.diePower q).limit = s.dev.pwr.savedLimit.getD q 0) ∧ t.mem = s.mem ∧ t.dev.regs = s.dev.regs ∧
      t.dev.counters = s.dev.counters)) ∧
  (∀ (s : State) (x : Temps), s.dev.bringUp ≠ .off → tempsTrip x = false →
    Quiet (.thermalSample x) s { s.begin with pwr := { s.dev.pwr with temps := some x } }) ∧
  (∀ (s : State) (x : Temps), s.dev.bringUp = .done → tempsTrip x = true → s.dev.pwr.state ≠ .tripped →
    Ends (.thermalSample x) s (fun t => t.dev.pwr.state = .tripped ∧ t.dev.bringUp = .done ∧
      (∀ i, i < 6 → (t.dev.die i).tclkStopped = true) ∧ t.mem = s.mem ∧ t.dev.regs = s.dev.regs ∧ t.dev.tiles = s.dev.tiles)) ∧
  (∀ (s : State) (x : Temps), s.dev.pwr.temps = some x → tempsThrottle x 0 = true →
    Ends .thermalLevelStep s (fun t => (t.dev.diePower 0).thermal = (s.dev.diePower 0).thermal - 1 ∧ t.mem = s.mem ∧
      t.dev.regs = s.dev.regs ∧ t.dev.tiles = s.dev.tiles))

/-- StartUpEnds (Table 16.8, Table 16.9): GO or 2 s without it end step 7. -/
def Obligations.StartUpWindowEnds : Prop :=
  (∀ (s : State), s.dev.bringUp = .window →
    Quiet .bootWindowExpiry s { s.begin with bringUp := .links, pwr := { s.dev.pwr with phase := 4, linksAt := s.dev.lode.count, goHeld := false } }) ∧
  (∀ (s : State) (r : Requester), Heard s r Reg.pwrBootCtrl (cmdWord s Reg.pwrBootCtrl 1) → s.dev.ctx0OrAdmin r = true →
    s.dev.bringUp = .window →
    Ends (.pwrBootGo r) s (fun t => t.dev.bringUp = .links ∧ t.dev.pwr.phase = 4 ∧ t.dev.pwr.linksAt = s.dev.lode.count ∧
      t.mem = s.mem ∧ t.dev.counters = s.dev.counters ∧ t.dev.tiles = s.dev.tiles))
/-- Descriptors (R44, R46, R48, R51, R478): the sequencer takes the next descriptor of its list when what it needs is free. A LOAD_B is
held until its bank is loaded, a PASS joins the two passes held, an OUTPUT governs the sets that follow, a NOP is dropped; a descriptor
that the rules reject is counted and ends the tile's work. -/
def Obligations.ArrayDescriptorsAreTakenInTurn : Prop :=
  (∀ (s : State) (t : Fin 64) (a : Nat) (v : BitVec 128), s.begin.descDue s.mem t (· == 1) = some (a, v) → (s.dev.tile t).loader = none →
    loadOk v (s.dev.tile t).width = true →
    Quiet (.descLoadB t) s ((s.begin.setTile t (s.dev.tile t).descTaken).setTile t
      { (s.dev.tile t).descTaken with loader := some { desc := v, before := (s.dev.tile t).passes.length } })) ∧
  (∀ (s : State) (t : Fin 64) (a : Nat) (v : BitVec 128), s.begin.descDue s.mem t (· == 2) = some (a, v) → (s.dev.tile t).passes.length < 2 →
    (s.dev.tile t).descTaken.passOk v = true →
    Quiet (.descPass t) s ((s.begin.setTile t (s.dev.tile t).descTaken).setTile t
      { (s.dev.tile t).descTaken with passes := (s.dev.tile t).passes ++ [{ desc := v, output := (s.dev.tile t).outputCount }] })) ∧
  (∀ (s : State) (t : Fin 64) (a : Nat) (v : BitVec 128), s.begin.descDue s.mem t (· == 3) = some (a, v) →
    outputOk v (s.dev.reg (Reg.tileConvCtrl t)).toNat = true →
    Ends (.descOutput t) s (fun u => mfind (u.dev.tile t).outputs ((s.dev.tile t).outputCount + 1) = some { desc := v, addr := a } ∧
      (u.dev.tile t).outputCount = (s.dev.tile t).outputCount + 1 ∧ (u.dev.tile t).passes = (s.dev.tile t).passes ∧
      (oChLoad v = true → (u.dev.tile t).chPending = some v) ∧ (oChLoad v = false → (u.dev.tile t).chPending = (s.dev.tile t).chPending) ∧
      u.mem = s.mem ∧ u.dev.regs = s.dev.regs ∧ u.dev.counters = s.dev.counters ∧
      (∀ j, j ≠ t.val → u.dev.tile j = s.dev.tile j))) ∧
  (∀ (s : State) (t : Fin 64) (a : Nat) (v : BitVec 128), s.begin.descDue s.mem t (fun op => op == 0 || 4 ≤ op) = some (a, v) →
    fb v 127 124 = 0 → Quiet (.descNop t) s (s.begin.setTile t (s.dev.tile t).descTaken)) ∧
  (∀ (s : State) (t : Fin 64) (a : Nat) (v : BitVec 128), s.begin.descDue s.mem t (· == 1) = some (a, v) → (s.dev.tile t).loader = none →
    loadOk v (s.dev.tile t).width = false → s.dev.ownerOf t = none →
    Ends (.descLoadB t) s (fun u => (u.dev.tile t).stopped = true ∧ (u.dev.tile t).loader = none ∧
      u.dev.count (Reg.tileDescReject t) = s.dev.count (Reg.tileDescReject t) + 1 ∧ u.mem = s.mem ∧ u.dev.regs = s.dev.regs)) ∧
  (∀ (s : State) (t : Fin 64) (a : Nat) (v : BitVec 128), s.begin.descDue s.mem t (fun op => op == 0 || 4 ≤ op) = some (a, v) →
    4 ≤ fb v 127 124 → s.dev.ownerOf t = none →
    Ends (.descNop t) s (fun u => (u.dev.tile t).stopped = true ∧
      u.dev.count (Reg.tileDescReject t) = s.dev.count (Reg.tileDescReject t) + 1 ∧ u.mem = s.mem ∧ u.dev.regs = s.dev.regs))
/-- The array pipeline (R43, R45, R46, R49, R50, R54, R65, R66): a bank load ends and the bank is valid; the head pass broadcasts its
next block, or the slot stays empty and is counted; the oldest block writes its set; a drain-pending set drains and is released. -/
def Obligations.ArrayPipelineAdvances : Prop :=
  (∀ (s : State) (t : Fin 64) (l : Loader), (s.dev.tile t).loader = some l → s.dev.tileRuns t = true → (s.dev.tile t).loadStalled l = false →
    (s.dev.tile t).badWords = [] →
    Ends (.bankLoadComplete t ⟨[], []⟩) s (fun u => (u.dev.tile t).loader = none ∧ ((u.dev.tile t).bank (dBank l.desc)).valid = true ∧
      ((u.dev.tile t).bank (dBank l.desc)).desc = l.desc ∧
      ((u.dev.tile t).bank (dBank l.desc)).codes = (readB s.mem s.begin t l.desc).1 ∧
      ((u.dev.tile t).bank (dBank l.desc)).scales = (readB s.mem s.begin t l.desc).2 ∧
      (u.dev.tile t).bank (!dBank l.desc) = (s.dev.tile t).bank (!dBank l.desc) ∧
      (u.dev.tile t).sets = (s.dev.tile t).sets ∧ u.mem = s.mem ∧ u.dev.regs = s.dev.regs ∧ u.dev.counters = s.dev.counters)) ∧
  (∀ (s : State) (t : Fin 64) (p : Pass), (s.dev.tile t).passes.head? = some p → s.dev.tileRuns t = true → (s.dev.tile t).holds p = .no →
    (s.dev.tile t).pipe.length < 6 → (s.dev.tile t).badWords = [] →
    Ends (.blockBroadcast t ⟨[], []⟩) s (fun u =>
      (u.dev.tile t).pipe = (s.dev.tile t).pipe ++ [{ desc := p.desc, index := p.next, output := p.output, loadDesc := ((s.dev.tile t).bank (dBank p.desc)).desc, bankLoads := ((s.dev.tile t).bank (dBank p.desc)).loads, results := blockResults s.mem s.begin t p.desc p.next ((s.dev.tile t).bank (dBank p.desc)).desc ((s.dev.tile t).bank (dBank p.desc)).codes ((s.dev.tile t).bank (dBank p.desc)).scales }] ∧
      (p.next + 1 < dCount p.desc → (u.dev.tile t).passes = { p with next := p.next + 1 } :: (s.dev.tile t).passes.drop 1) ∧
      (dCount p.desc ≤ p.next + 1 → (u.dev.tile t).passes = (s.dev.tile t).passes.drop 1) ∧
      (u.dev.tile t).sets = (s.dev.tile t).sets ∧ u.dev.count (Reg.tileBlocks t) = s.dev.count (Reg.tileBlocks t) + 1 ∧
      u.mem = s.mem ∧ u.dev.regs = s.dev.regs)) ∧
  (∀ (s : State) (t : Fin 64), s.dev.tclk t = true → (s.dev.tile t).state ≠ .retired → (s.dev.tile t).passes = [] →
    Ends (.emptyBroadcastSlot t) s (fun u => u.dev.count (Reg.tileFeedStall t) = s.dev.count (Reg.tileFeedStall t) + 1 ∧
      (u.dev.tile t).keeper = (s.dev.tile t).keeper.idleTick (s.dev.keeperReg t) ∧ (u.dev.tile t).pipe = (s.dev.tile t).pipe ∧
      (u.dev.tile t).sets = (s.dev.tile t).sets ∧ u.mem = s.mem ∧ u.dev.regs = s.dev.regs)) ∧
  (∀ (s : State) (t : Fin 64) (b : Block) (rest : List Block), (s.dev.tile t).pipe = b :: rest → s.dev.tileRuns t = true → dDrain b.desc = false →
    Quiet (.setWrite t) s (s.begin.setTile t (({ s.dev.tile t with pipe := rest } : Tile).setSet (dFirst b.desc + b.index)
      (((s.dev.tile t).set (dFirst b.desc + b.index)).write b.desc (s.dev.tile t).width b.results)))) ∧
  (∀ (s : State) (t : Fin 64) (b : Block) (rest : List Block) (o : Output), (s.dev.tile t).pipe = b :: rest → s.dev.tileRuns t = true →
    dDrain b.desc = true → mfind (s.dev.tile t).outputs b.output = some o →
    Ends (.setWrite t) s (fun u =>
      (u.dev.tile t).set (dFirst b.desc + b.index) = { ((s.dev.tile t).set (dFirst b.desc + b.index)).write b.desc (s.dev.tile t).width b.results with drain := .pending, output := b.output, order := o.governed } ∧
      mfind (u.dev.tile t).outputs b.output = some { o with governed := o.governed + 1 } ∧ (u.dev.tile t).pipe = rest ∧
      u.mem = s.mem ∧ u.dev.regs = s.dev.regs ∧ u.dev.counters = s.dev.counters)) ∧
  (∀ (s : State) (t : Fin 64) (n a : Nat) (o : Output) (r : Drained) (bs : List Byte), s.dev.tileRuns t = true →
    (s.dev.tile t).drainNext = some n → (s.dev.tile t).chPending = none → mfind (s.dev.tile t).outputs ((s.dev.tile t).set n).output = some o →
    r = drainSet (s.dev.tile t) ((s.dev.tile t).set n) (oFmt o.desc) (s.dev.reg (Reg.tileConvCtrl t)).toNat →
    drainOk (s.dev.tile t) ((s.dev.tile t).set n) o.desc (s.dev.reg (Reg.tileConvCtrl t)).toNat ((s.dev.tile t).set n).order r = true →
    bs = packCodes (codeWidth (oFmt o.desc)) r.codes → a = scrBase t + oAddr o.desc + ((s.dev.tile t).set n).order * roundUp bs.length 256 →
    oStream o.desc = false → r.scales = [] → (s.dev.tile t).badWords = [] →
    Ends (.setDrain t) s (fun u => Holds u a bs ∧ SameMemBut s u a bs.length ∧
      (u.dev.tile t).set n = { (s.dev.tile t).set n with drain := .draining } ∧ (u.dev.tile t).pipe = (s.dev.tile t).pipe ∧
      u.dev.regs = s.dev.regs ∧ (∀ j, j ≠ t.val → u.dev.tile j = s.dev.tile j))) ∧
  (∀ (s : State) (t : Fin 64) (p : Nat × AccSet), s.dev.tclk t = true → (s.dev.tile t).sets.find? (fun p => p.2.drain == .draining) = some p →
    Quiet (.setDrainComplete t) s (s.begin.setTile t ((s.dev.tile t).setSet p.1 { p.2 with drain := .none })))
/-- Residues (R58, R59, R68, R69, R71): a mismatch replays the failing block and the younger ones and changes no set; a second mismatch
ends the work and takes the column out of service; TILE_COL_FORCE takes columns out at once inside the start-up window. -/
def Obligations.ResidueFailuresReplayAndNarrow : Prop :=
  (∀ (s : State) (t : Fin 64) (n : Nat) (dpus : List (Fin 32 × Fin 32)) (b : Block), (s.dev.tile t).pipe[n]? = some b →
    s.dev.tileRuns t = true → b.replayed = false → (s.dev.tile t).clocked dpus ≠ [] →
    ((s.begin.each ((s.dev.tile t).clocked dpus) (fun d p => d.bump (Reg.tileColResidue t p.2))).chargeBlock s.mem t
      ((s.dev.tile t).clocked dpus) false).2 = false →
    Ends (.residueMismatch t n dpus) s (fun u => (u.dev.tile t).pipe.take n = (s.dev.tile t).pipe.take n ∧
      (u.dev.tile t).pipe.length = (s.dev.tile t).pipe.length ∧ (∀ x, x ∈ (u.dev.tile t).pipe.drop n → x.replayed = true) ∧
      (u.dev.tile t).sets = (s.dev.tile t).sets ∧ (u.dev.tile t).passes = (s.dev.tile t).passes ∧
      u.dev.count (Reg.tileResidueReplay t) = s.dev.count (Reg.tileResidueReplay t) + 1 ∧
      u.dev.count (Reg.tileBlocks t) = s.dev.count (Reg.tileBlocks t) + BitVec.ofNat 48 ((s.dev.tile t).pipe.length - n) ∧
      u.mem = s.mem ∧ u.dev.regs = s.dev.regs ∧ (∀ j, j ≠ t.val → u.dev.tile j = s.dev.tile j))) ∧
  (∀ (s : State) (t : Fin 64) (n : Nat) (row col : Fin 32) (b : Block), (s.dev.tile t).pipe[n]? = some b → s.dev.tileRuns t = true →
    b.replayed = true → (s.dev.tile t).bypass.getLsbD col = false → 24 < (s.dev.tile t).width → s.dev.ras.resets = [] →
    s.dev.ownerOf t = none →
    Ends (.residueReplayFail t n [(row, col)]) s (fun u => (u.dev.tile t).state = .halted ∧ (u.dev.tile t).stopped = true ∧
      (u.dev.tile t).bypass = (s.dev.tile t).bypass ||| BitVec.ofNat 32 (2 ^ col.val) ∧ (u.dev.tile t).sets = [] ∧ (u.dev.tile t).pipe = [] ∧
      (u.dev.tile t).narrowed = true ∧ u.dev.count (Reg.tileResidueUc t) = s.dev.count (Reg.tileResidueUc t) + 1 ∧
      u.dev.count (Reg.tileColResidue t col) = s.dev.count (Reg.tileColResidue t col) + 1 ∧
      u.mem = s.mem ∧ u.dev.regs = s.dev.regs ∧ (∀ j, j ≠ t.val → u.dev.tile j = s.dev.tile j))) ∧
  (∀ (s : State) (r : Requester) (t : Fin 64) (v : BitVec 32), Heard s r (Reg.tileColForce t) v → isCtx0 r = true →
    s.dev.lost (dieOf t) = false → (s.dev.tile t).state ≠ .retired → s.dev.strata.activated = false →
    popcount ((s.dev.tile t).bypass ||| v).toNat 32 ≤ 8 →
    Ends (.tileColForceWrite r t v) s (fun u => (u.dev.tile t).bypass = (s.dev.tile t).bypass ||| v ∧
      (u.dev.tile t).forced = (s.dev.tile t).forced ||| (v &&& ~~~(s.dev.tile t).bypass) ∧ (u.dev.tile t).state = (s.dev.tile t).state ∧
      (u.dev.tile t).sets = (s.dev.tile t).sets ∧ u.dev.reg (Reg.tileColForce t) = v ∧ u.mem = s.mem ∧
      (∀ j, j ≠ t.val → u.dev.tile j = s.dev.tile j) ∧ (∀ k, k ≠ Reg.tileColForce t → u.dev.reg k = s.dev.reg k)))

/-- The keeper (R72, R73, R104): dummies, FILL_MAX and RAMP_INTERVAL move a tile between its keeper states; TILE_KEEPER is range-checked;
TILE_CONV_CTRL is written by the tile's owner or context 0. -/
def Obligations.KeeperAndConversionControl : Prop :=
  (∀ (s : State) (t : Fin 64), s.dev.tclk t = true → (s.dev.tile t).state ≠ .retired → (s.dev.tile t).keeper.dummyDue = true →
    Ends (.keeperDummyBroadcast t) s (fun u => (u.dev.tile t).keeper.acc = (s.dev.tile t).keeper.acc - 64 ∧
      (u.dev.tile t).keeper.state = (s.dev.tile t).keeper.state ∧ (u.dev.tile t).pipe = (s.dev.tile t).pipe ∧
      (u.dev.tile t).sets = (s.dev.tile t).sets ∧ u.dev.count (Reg.tileDummy t) = s.dev.count (Reg.tileDummy t) + 1 ∧
      (∀ k, k ≠ Reg.tileDummy t → u.dev.count k = s.dev.count k) ∧ u.mem = s.mem ∧ u.dev.regs = s.dev.regs)) ∧
  (∀ (s : State) (t : Fin 64), s.dev.tclk t = true → (s.dev.tile t).state ≠ .retired → (s.dev.tile t).keeper.state = .fill →
    (s.dev.tile t).keeper.fillMax < (s.dev.tile t).keeper.gap →
    Quiet (.keeperFillMaxExpiry t) s (s.begin.setTile t { s.dev.tile t with keeper := (s.dev.tile t).keeper.toDecay (s.dev.keeperReg t) }) ∧
    (Keeper.enabled (s.dev.keeperReg t) = true → (s.dev.tile t).keeper.dummies ≠ 0 →
      ((s.dev.tile t).keeper.toDecay (s.dev.keeperReg t)).state = .decay ∧
      ((s.dev.tile t).keeper.toDecay (s.dev.keeperReg t)).level = (s.dev.tile t).keeper.dummies)) ∧
  (∀ (s : State) (t : Fin 64), s.dev.tclk t = true → (s.dev.tile t).state ≠ .retired → (s.dev.tile t).keeper.state = .decay →
    (s.dev.tile t).keeper.interval ≤ (s.dev.tile t).keeper.clock →
    Quiet (.keeperRampIntervalEnd t) s (s.begin.setTile t { s.dev.tile t with keeper := (s.dev.tile t).keeper.intervalEnd (s.dev.keeperReg t) }) ∧
    ((s.dev.tile t).keeper.intervalEnd (s.dev.keeperReg t)).level = (s.dev.tile t).keeper.level - (s.dev.tile t).keeper.step ∧
    ((s.dev.tile t).keeper.step < (s.dev.tile t).keeper.level → ((s.dev.tile t).keeper.intervalEnd (s.dev.keeperReg t)).state = .decay)) ∧
  (∀ (s : State) (t : Fin 64), s.dev.tclk t = true → (s.dev.tile t).state ≠ .retired → (s.dev.tile t).keeper.state = .ramp →
    (s.dev.tile t).keeper.interval ≤ (s.dev.tile t).keeper.clock →
    Ends (.keeperRampIntervalEnd t) s (fun u =>
      (u.dev.tile t).keeper.level = min 64 ((s.dev.tile t).keeper.level + (s.dev.tile t).keeper.step) ∧
      (64 ≤ (s.dev.tile t).keeper.level + (s.dev.tile t).keeper.step → (u.dev.tile t).keeper.state = .run) ∧
      ((s.dev.tile t).keeper.level + (s.dev.tile t).keeper.step < 64 → (u.dev.tile t).keeper.state = .ramp) ∧
      u.mem = s.mem ∧ u.dev.regs = s.dev.regs ∧ u.dev.counters = s.dev.counters)) ∧
  (∀ (s : State) (r : Requester) (q : Fin 4) (v : BitVec 32), Heard s r (Reg.tileKeeper q) v → isCtx0 r = true → s.dev.lost q = false →
    ((fb v 3 0 = 0 ∨ 8 < fb v 3 0 ∨ fb v 12 8 = 0) → Quiet (.tileKeeperWrite r q v) s (s.begin.answer r stOK)) ∧
    ((fb v 3 0 ≠ 0 ∧ fb v 3 0 ≤ 8 ∧ fb v 12 8 ≠ 0) →
      Quiet (.tileKeeperWrite r q v) s ((s.begin.putReg (Reg.tileKeeper q) v).answer r stOK))) ∧
  (∀ (s : State) (r : Requester) (c t : Fin 64) (v : BitVec 32), Heard s r (Reg.tileConvCtrl t) v → s.dev.mayWriteTile r c t = true →
    s.dev.lost (dieOf t) = false → (s.dev.tile t).state ≠ .retired →
    Quiet (.tileConvCtrlWrite r c t v) s ((s.begin.putReg (Reg.tileConvCtrl t) v).answer r stOK) ∧
    (s.begin.putReg (Reg.tileConvCtrl t) v).rf (Reg.tileConvCtrl t) 5 4 = fb v 5 4)

/-- Lane arithmetic (R107): each instruction writes its function of the source lanes to every lane of VD, in TYPE. -/
def Obligations.LaneArithmeticIsLaneWise : Prop :=
  LaneWise2 .vecAdd 0x08 laneAdd ∧ LaneWise2 .vecSub 0x09 laneSub ∧ LaneWise2 .vecMul 0x0A laneMul ∧ LaneWise3 .vecFma 0x0B laneFma ∧
  LaneWise2 .vecMax 0x0C laneMax ∧ LaneWise2 .vecMin 0x0D laneMin ∧ LaneWise3 .vecSel 0x0E laneSel ∧ LaneWise2 .vecCmplt 0x0F laneLt ∧
  (∀ a b, laneAdd 2 a b = (a + b) % 2 ^ 32) ∧ (∀ a b, b < 2 ^ 32 → laneSub 2 a b = (a + 2 ^ 32 - b) % 2 ^ 32) ∧
  (∀ a b, laneMul 2 a b = a * b % 2 ^ 32) ∧ (∀ a b c, laneFma 2 a b c = (a * b + c) % 2 ^ 32) ∧
  (∀ (s : State) (t : Fin 64) (a : Nat) (v : BitVec 64), s.begin.vecDue s.mem t (· == 0x08) = some (a, v) → vType v = 3 →
    s.dev.ownerOf t = none → VecRejected (.vecAdd t) s t)

/-- Special functions (R108): correctly rounded lanes of FP32 or BF16; INT32 is rejected (R111). -/
def Obligations.SpecialFunctionsRoundEachLaneOnce : Prop :=
  SpecialLanes .vecExp2 0x10 exp2Val ∧ SpecialLanes .vecLog2 0x11 log2Val ∧ SpecialLanes .vecRcp 0x12 rcpVal ∧
  SpecialLanes .vecRsqrt 0x13 rsqrtVal ∧
  (∀ (s : State) (t : Fin 64) (a : Nat) (v : BitVec 64), s.begin.vecDue s.mem t (· == 0x10) = some (a, v) → vType v = 2 →
    s.dev.ownerOf t = none → VecRejected (.vecExp2 t) s t)

/-- Row reductions and whole-register moves (R107, R109, R112): RSUM, RSSQ and RMAX enter a strip into the row accumulator and write no
register; RFIN writes the row's result to every lane and empties it; BCAST writes one word to every lane; TPOSE transposes a pair. -/
def Obligations.RowsAndTransposes : Prop :=
  (∀ (s : State) (t : Fin 64) (a : Nat) (v : BitVec 64), s.begin.vecDue s.mem t (· == 0x18) = some (a, v) → vType v ≠ 3 →
    rowCount v ≤ laneCount (vType v) → (s.dev.tile t).rowKind ≠ some true →
    Ends (.vecRsum t) s (fun u => VecFrame s u t [] ∧ (u.dev.tile t).vregs = (s.dev.tile t).vregs ∧ (u.dev.tile t).rowKind = some false ∧
      (u.dev.tile t).rowStack = (rowEnter false false v (s.dev.tile t)).rowStack)) ∧
  (∀ (s : State) (t : Fin 64) (a : Nat) (v : BitVec 64), s.begin.vecDue s.mem t (· == 0x19) = some (a, v) → vType v ≠ 3 →
    rowCount v ≤ laneCount (vType v) → (s.dev.tile t).rowKind ≠ some true →
    Ends (.vecRssq t) s (fun u => VecFrame s u t [] ∧ (u.dev.tile t).vregs = (s.dev.tile t).vregs ∧ (u.dev.tile t).rowKind = some false ∧
      (u.dev.tile t).rowStack = (rowEnter false true v (s.dev.tile t)).rowStack)) ∧
  (∀ (s : State) (t : Fin 64) (a : Nat) (v : BitVec 64), s.begin.vecDue s.mem t (· == 0x1A) = some (a, v) → vType v ≠ 3 →
    rowCount v ≤ laneCount (vType v) → (s.dev.tile t).rowKind ≠ some false →
    Ends (.vecRmax t) s (fun u => VecFrame s u t [] ∧ (u.dev.tile t).vregs = (s.dev.tile t).vregs ∧ (u.dev.tile t).rowKind = some true ∧
      (u.dev.tile t).rowStack = (rowEnter true false v (s.dev.tile t)).rowStack)) ∧
  (∀ (s : State) (t : Fin 64) (a : Nat) (v : BitVec 64), s.begin.vecDue s.mem t (· == 0x1B) = some (a, v) → vType v ≠ 3 →
    (s.dev.tile t).rowKind ≠ some (vAddr v % 2 == 0) →
    Ends (.vecRfin t) s (fun u => VecFrame s u t [] ∧ (u.dev.tile t).rowStack = [] ∧ (u.dev.tile t).rowKind = none ∧
      LanesBecome s u t v (List.replicate (laneCount (vType v))
        (toLane (vType v) (fp32.decode (rowResult (vAddr v % 2 == 1) (s.dev.tile t).rowStack)))))) ∧
  (∀ (s : State) (t : Fin 64) (a : Nat) (v : BitVec 64), s.begin.vecDue s.mem t (· == 0x1C) = some (a, v) → vType v ≠ 3 →
    vAddr v * 32 + 4 ≤ scrSize → (s.dev.tile t).badWords = [] →
    Ends (.vecBcast t) s (fun u => VecFrame s u t [] ∧ LanesBecome s u t v (List.replicate (laneCount (vType v))
      (if vType v = 1 then toLane 1 (fp32.decode (peekLE s.mem s.begin (scrBase t + vAddr v * 32) 4))
       else peekLE s.mem s.begin (scrBase t + vAddr v * 32) 4)))) ∧
  (∀ (s : State) (t : Fin 64) (a : Nat) (v : BitVec 64), s.begin.vecDue s.mem t (· == 0x1D) = some (a, v) → vType v ≠ 3 →
    vVd v % 2 = 0 → vVa v ≠ 31 →
    Ends (.vecTpose t) s (fun u => VecFrame s u t [] ∧
      (∀ i j, i < 32 → j < 32 → (pairLanes (u.dev.tile t) (vVd v)).getD (32 * i + j) 0 = (pairLanes (s.dev.tile t) (vVa v)).getD (32 * j + i) 0) ∧
      (∀ r, r ≠ vVd v → r ≠ vVd v + 1 → (u.dev.tile t).vreg r = (s.dev.tile t).vreg r)))

/-- Strips, descriptors, semaphores and the order word (R106, R112, R121, R127): LD and ST move a strip, LAYOUT and KEY load a descriptor,
SIG and WAIT set and consume a semaphore, GORD waits for MB_ID and GADV writes MB_ID + 1. -/
def Obligations.StripsSemaphoresAndOrder : Prop :=
  (∀ (s : State) (t : Fin 64) (a : Nat) (v : BitVec 64), s.begin.vecDue s.mem t (fun op => op == 0 || !vOpListed op) = some (a, v) →
    vOp v = 0 → vType v ≠ 3 → Ends (.vecNop t) s (fun u => VecFrame s u t [] ∧ (u.dev.tile t).vregs = (s.dev.tile t).vregs)) ∧
  (∀ (s : State) (t : Fin 64) (a : Nat) (v : BitVec 64), s.begin.vecDue s.mem t (fun op => op == 0 || !vOpListed op) = some (a, v) →
    vOpListed (vOp v) = false → s.dev.ownerOf t = none → VecRejected (.vecNop t) s t) ∧
  (∀ (s : State) (t : Fin 64) (a : Nat) (v : BitVec 64), s.begin.vecDue s.mem t (· == 1) = some (a, v) → vType v ≠ 3 →
    stripOk (s.dev.tile t) v = true → (s.dev.tile t).badWords = [] →
    Ends (.vecLd t ⟨[], []⟩) s (fun u => VecFrame s u t [] ∧ LanesBecome s u t v (loadLanes s.mem s.begin t v))) ∧
  (∀ (s : State) (t : Fin 64) (a : Nat) (v : BitVec 64), s.begin.vecDue s.mem t (· == 2) = some (a, v) → vType v ≠ 3 →
    stripOk (s.dev.tile t) v = true → srOk v = true → vScale v = 0 → (s.dev.tile t).badWords = [] → fb (s.dev.tile t).layout 31 0 = 0 →
    Ends (.vecSt t) s (fun u =>
      Holds u (scrBase t + vAddr v * 32) ((s.dev.stLines t v).flatMap (fun l => packCodes (codeWidth (vFmt v)) l.codes)) ∧
      SameMemBut s u (scrBase t + vAddr v * 32) (stripLines (vType v) * lineBytes (vFmt v)) ∧
      (u.dev.tile t).vregs = (s.dev.tile t).vregs ∧ u.dev.regs = s.dev.regs ∧
      u.dev.count (Reg.tileVecInstr t) = s.dev.count (Reg.tileVecInstr t) + 1)) ∧
  (∀ (s : State) (t : Fin 64) (a : Nat) (v : BitVec 64), s.begin.vecDue s.mem t (· == 3) = some (a, v) → vType v ≠ 3 →
    vAddr v * 32 + 16 ≤ scrSize → (s.dev.tile t).badWords = [] →
    Ends (.vecLayout t) s (fun u => VecFrame s u t [] ∧ (u.dev.tile t).vregs = (s.dev.tile t).vregs ∧
      (u.dev.tile t).key = (s.dev.tile t).key ∧
      (u.dev.tile t).layout = BitVec.ofNat 128 (peekLE s.mem s.begin (scrBase t + vAddr v * 32) 16))) ∧
  (∀ (s : State) (t : Fin 64) (a : Nat) (v : BitVec 64), s.begin.vecDue s.mem t (· == 4) = some (a, v) → vType v ≠ 3 →
    vAddr v * 32 + 16 ≤ scrSize → (s.dev.tile t).badWords = [] →
    Ends (.vecKey t) s (fun u => VecFrame s u t [] ∧ (u.dev.tile t).vregs = (s.dev.tile t).vregs ∧
      (u.dev.tile t).layout = (s.dev.tile t).layout ∧
      (u.dev.tile t).key = BitVec.ofNat 128 (peekLE s.mem s.begin (scrBase t + vAddr v * 32) 16))) ∧
  (∀ (s : State) (t : Fin 64) (a : Nat) (v : BitVec 64), s.begin.vecDue s.mem t (· == 5) = some (a, v) → vType v ≠ 3 →
    Ends (.vecSig t) s (fun u => VecFrame s u t [] ∧ (u.dev.tile t).vregs = (s.dev.tile t).vregs ∧
      (∀ n, n < 16 → (u.dev.tile t).sem n = ((s.dev.tile t).sem n || n == vAddr v % 16)))) ∧
  (∀ (s : State) (t : Fin 64) (a : Nat) (v : BitVec 64), s.begin.vecDue s.mem t (· == 6) = some (a, v) → vType v ≠ 3 →
    (s.dev.tile t).sem (vAddr v % 16) = true →
    Ends (.vecWait t) s (fun u => VecFrame s u t [] ∧ (u.dev.tile t).vregs = (s.dev.tile t).vregs ∧
      (∀ n, n < 16 → (u.dev.tile t).sem n = ((s.dev.tile t).sem n && n != vAddr v % 16)))) ∧
  (∀ (s : State) (t : Fin 64) (a : Nat) (v : BitVec 64), s.begin.vecDue s.mem t (· == 6) = some (a, v) → vType v ≠ 3 →
    (s.dev.tile t).sem (vAddr v % 16) = false →
    Quiet (.vecWait t) s (s.begin.setTile t { s.dev.tile t with vecWaiting := true })) ∧
  (∀ (s : State) (t : Fin 64) (a : Nat) (v : BitVec 64), s.begin.vecDue s.mem t (· == 0x20) = some (a, v) → vType v ≠ 3 →
    vAddr v * 32 + 2 ≤ scrSize → (s.dev.tile t).badWords = [] →
    peekLE s.mem s.begin (scrBase t + vAddr v * 32) 2 = (s.dev.tile t).mbId.toNat →
    Ends (.vecGord t) s (fun u => VecFrame s u t [] ∧ (u.dev.tile t).vregs = (s.dev.tile t).vregs)) ∧
  (∀ (s : State) (t : Fin 64) (a : Nat) (v : BitVec 64), s.begin.vecDue s.mem t (· == 0x20) = some (a, v) → vType v ≠ 3 →
    vAddr v * 32 + 2 ≤ scrSize → (s.dev.tile t).badWords = [] →
    peekLE s.mem s.begin (scrBase t + vAddr v * 32) 2 ≠ (s.dev.tile t).mbId.toNat →
    Quiet (.vecGord t) s ((s.begin.setTile t { s.dev.tile t with vecWaiting := true }).bump (Reg.tileVecOrderWait t))) ∧
  (∀ (s : State) (t : Fin 64) (a : Nat) (v : BitVec 64), s.begin.vecDue s.mem t (· == 0x21) = some (a, v) → vType v ≠ 3 →
    vAddr v * 32 + 2 ≤ scrSize → (s.dev.tile t).badWords = [] →
    Ends (.vecGadv t) s (fun u => Holds u (scrBase t + vAddr v * 32) (toLE 2 (((s.dev.tile t).mbId.toNat + 1) % 65536)) ∧
      SameMemBut s u (scrBase t + vAddr v * 32) 2 ∧ (u.dev.tile t).vregs = (s.dev.tile t).vregs ∧ u.dev.regs = s.dev.regs ∧
      u.dev.count (Reg.tileVecInstr t) = s.dev.count (Reg.tileVecInstr t) + 1))

/-- Commands of STRATA_CTRL (R152 to R154, R157): LOAD, DISCARD, the armed actions, FW_COMMIT and CANCEL, and their refusals. -/
def Obligations.StrataCommandsAreTakenOrRefused : Prop :=
  (∀ (s : State) (r : Requester), Heard s r Reg.strataCtrl (BitVec.ofNat 32 (setFld (strataWord s.dev 1).toNat 4 4 1)) →
    s.dev.ctx0OrAdmin r = true → s.dev.strata.inState ≠ .fetching → s.dev.strata.inState ≠ .validating → s.dev.incomingHeld = false →
    (∀ q, q < 4 → s.dev.quarterOut q = false) → s.dev.strata.cur < 4 → s.dev.strata.prev < 4 → s.dev.strata.inc < 4 →
    Ends (.strataLoad r true) s (fun u => u.dev.strata.inState = .fetching ∧ u.dev.strata.genIn = 0 ∧ u.dev.strata.fetched = 0 ∧
      u.dev.strata.fetch = some (r, true, (s.dev.reg Reg.strataSrcLen).toNat) ∧
      u.dev.strata.cur = s.dev.strata.cur ∧ u.dev.strata.inc = s.dev.strata.inc ∧ u.dev.strata.armed = s.dev.strata.armed ∧
      u.dev.count Reg.strataLoads = s.dev.count Reg.strataLoads + 1 ∧ u.mem = s.mem ∧ u.dev.tiles = s.dev.tiles)) ∧
  (∀ (s : State) (r : Requester) (b : Bool), Heard s r Reg.strataCtrl (BitVec.ofNat 32 (setFld (strataWord s.dev 1).toNat 4 4 (if b then 1 else 0))) →
    s.dev.strata.inState = .fetching ∨ s.dev.ctx0OrAdmin r = false → StrataRefused (.strataLoad r b) s) ∧
  (∀ (s : State) (r : Requester), Heard s r Reg.strataCtrl (strataWord s.dev 2) → s.dev.ctx0OrAdmin r = true → s.dev.incomingHeld = false →
    Ends (.strataDiscard r) s (fun u => u.dev.strata.inState = .empty ∧ u.dev.strata.genIn = 0 ∧ u.dev.strata.fetch = none ∧
      (s.dev.strata.inState = .fetching ∨ s.dev.strata.inState = .validating → u.dev.strata.valResult = 0x14) ∧
      u.dev.strata.cur = s.dev.strata.cur ∧ u.mem = s.mem ∧ u.dev.tiles = s.dev.tiles)) ∧
  StrataArms .strataActivate 1 ∧ StrataArms .strataRevert 2 ∧ StrataArms .strataGroupApply 3 ∧
  (∀ (s : State) (r : Requester), Heard s r Reg.strataCtrl (strataWord s.dev 3) → s.dev.strata.armed ≠ 0 → StrataRefused (.strataActivate r) s) ∧
  (∀ (s : State) (r : Requester), Heard s r Reg.strataCtrl (strataWord s.dev 4) → s.dev.strata.armed ≠ 0 → StrataRefused (.strataRevert r) s) ∧
  (∀ (s : State) (r : Requester), Heard s r Reg.strataCtrl (strataWord s.dev 5) → s.dev.strata.armed ≠ 0 → StrataRefused (.strataGroupApply r) s) ∧
  (∀ (s : State) (r : Requester) (k : Nat) (dig : BitVec 512) (svn : BitVec 16), Heard s r Reg.strataCtrl (strataWord s.dev 6) →
    s.dev.ctx0OrAdmin r = true → s.dev.strata.firmware = [(k, dig, svn)] → s.dev.arb k < svn.toNat → (mget [] s.dev.fuses.banks k).length < 32 →
    Ends (.strataFwCommit r) s (fun u => u.dev.arb k = svn.toNat ∧ (∀ j, j ≠ k → u.dev.arb j = s.dev.arb j) ∧
      u.dev.strata = s.dev.strata ∧ u.mem = s.mem ∧ u.dev.counters = s.dev.counters)) ∧
  (∀ (s : State) (r : Requester), Heard s r Reg.strataCtrl (strataWord s.dev 7) → s.dev.ctx0OrAdmin r = true → s.dev.strata.armed ≠ 0 →
    (s.dev.cairn 0 s.dev.strata.armedSlot).state = .armed → (s.dev.cairn 0 s.dev.strata.armedSlot).action = 0x10 →
    Ends (.strataCancel r) s (fun u => u.dev.strata = { s.dev.strata with armed := 0 } ∧
      (u.dev.cairn 0 s.dev.strata.armedSlot).state = .cancelled ∧ (u.dev.cairn 0 s.dev.strata.armedSlot).result = 5 ∧
      u.mem = s.mem ∧ u.dev.tiles = s.dev.tiles ∧ u.dev.ctxs = s.dev.ctxs)) ∧
  (∀ (s : State) (r : Requester), Heard s r Reg.strataCtrl (strataWord s.dev 7) → s.dev.strata.armed = 0 → StrataRefused (.strataCancel r) s)

/-- Strata's work (R150, R151, R153, R155, R156, R158): a fetched image is checked, validated, and swapped in; firmware starts to run. -/
def Obligations.StrataImagesAreCheckedAndSwapped : Prop :=
  (∀ (s : State) (r : Requester) (len : Nat), s.dev.strata.inState = .fetching → s.dev.strata.fetch = some (r, true, len) →
    Ends (.strataFetchComplete none) s (fun u => u.dev.strata.inState = .failed ∧ u.dev.strata.valResult = 1 ∧ u.dev.strata.fetch = none ∧
      u.dev.strata.cur = s.dev.strata.cur ∧ u.dev.count Reg.strataValFail = s.dev.count Reg.strataValFail + 1 ∧ u.mem = s.mem ∧
      u.dev.tiles = s.dev.tiles)) ∧
  (∀ (s : State) (r : Requester) (bs : List Byte), s.dev.strata.inState = .fetching → s.dev.strata.fetch = some (r, true, bs.length) →
    bs.length ≤ 2 ^ 28 →
    Ends (.strataFetchComplete (some bs)) s (fun u => Holds u (areaBase s.dev.strata.inc) bs ∧ SameMemBut s u (areaBase s.dev.strata.inc) bs.length ∧
      (u.dev.strata.inState = .validating ∨ u.dev.strata.inState = .failed) ∧ u.dev.strata.fetch = none ∧
      u.dev.strata.cur = s.dev.strata.cur ∧ u.dev.tiles = s.dev.tiles)) ∧
  (∀ (s : State) (code : Nat), s.dev.strata.inState = .validating → s.dev.lost 4 = false →
    s.begin.contentResult (s.begin.incReader s.mem) = code →
    Ends .strataValidationComplete s (fun u =>
      (code = 0 → u.dev.strata = { s.dev.strata with inState := .valid, valResult := 0 } ∧ u.dev.counters = s.dev.counters) ∧
      (code ≠ 0 → u.dev.strata = { s.dev.strata with inState := .failed, valResult := BitVec.ofNat 8 code, fetch := none } ∧
        u.dev.count Reg.strataValFail = s.dev.count Reg.strataValFail + 1) ∧
      u.mem = s.mem ∧ u.dev.tiles = s.dev.tiles ∧ u.dev.regs = s.dev.regs)) ∧
  (∀ (s : State) (a : Activation) (bad : Option (BitVec 40)), s.dev.strata.activating = some a → a.revert = false →
    (∀ c t, c ∈ a.changed → t ∈ s.dev.tilesOf c → s.dev.leftOut t = true ∨ s.dev.phaseEnd t = true) →
    s.dev.badImage s.dev.strata.inc bad = none →
    Ends (.activationSwap bad) s (fun u => u.dev.strata.activating = none ∧ u.dev.strata.cur = s.dev.strata.inc ∧
      u.dev.strata.prev = s.dev.strata.cur ∧ u.dev.strata.inc = s.dev.strata.prev ∧ u.dev.strata.genCur = s.dev.strata.genIn ∧
      u.dev.strata.genPrev = s.dev.strata.genCur ∧ u.dev.strata.curValid = true ∧ u.dev.strata.prevValid = s.dev.strata.curValid ∧
      u.dev.strata.inState = .empty ∧ u.dev.strata.activated = true)) ∧
  (∀ (s : State) (a : Activation) (bad : Option (BitVec 40)), s.dev.strata.activating = some a → a.revert = true →
    (∀ c t, c ∈ a.changed → t ∈ s.dev.tilesOf c → s.dev.leftOut t = true ∨ s.dev.phaseEnd t = true) →
    s.dev.badImage s.dev.strata.prev bad = none →
    Ends (.activationSwap bad) s (fun u => u.dev.strata.activating = none ∧ u.dev.strata.cur = s.dev.strata.prev ∧
      u.dev.strata.prev = s.dev.strata.cur ∧ u.dev.strata.inc = s.dev.strata.inc ∧ u.dev.strata.genCur = s.dev.strata.genPrev ∧
      u.dev.strata.genPrev = s.dev.strata.genCur ∧ u.dev.strata.curValid = true ∧ u.dev.strata.inState = s.dev.strata.inState ∧
      u.dev.strata.reverted = true)) ∧
  (∀ (s : State) (k : Fin 5) (x : Section), (k.val + 1) ∈ s.dev.strata.toLoad → s.dev.mayLoadFirmware (k.val + 1) = true →
    (sectionsOf (s.begin.curReader s.mem) 9).find? (fun y => y.index == k.val + 1) = some x →
    Ends (.firmwareLoad k) s (fun u => mfind u.dev.strata.firmware (k.val + 1) = some (fwDigest (s.begin.curReader s.mem) x, BitVec.ofNat 16 x.svn) ∧
      ¬ (k.val + 1) ∈ u.dev.strata.toLoad ∧ (∀ j, j ≠ k.val + 1 → mfind u.dev.strata.firmware j = mfind s.dev.strata.firmware j) ∧
      u.mem = s.mem ∧ u.dev.tiles = s.dev.tiles ∧ u.dev.counters = s.dev.counters ∧ u.dev.regs = s.dev.regs))

/-- Phase switches and share acknowledgement (R132, R161 to R164): shadow planes load, the swap makes the target phase active, lateness is
counted, and CONS never passes PROD. -/
def Obligations.PhasesSwitchAndSharesAreAcknowledged : Prop :=
  (∀ (s : State) (c : Fin 64) (w : Switch), (s.dev.ctx c).switch = some w → w.shadowReady = false → s.dev.strata.curValid = true →
    Ends (.shadowLoadComplete c) s (fun u => (u.dev.ctx c).switch = some { w with shadowReady := true } ∧
      (u.dev.ctx c).phase = (s.dev.ctx c).phase ∧
      (∀ t x, t ∈ s.dev.tilesOf c → s.dev.leftOut t = false → tileSection (s.begin.curReader s.mem) t (s.dev.tile t).width = some x →
        (u.dev.tile t).shadow = some (sectionPlane (s.begin.curReader s.mem) x w.target) ∧ (u.dev.tile t).plane = (s.dev.tile t).plane) ∧
      (∀ t, ¬ t ∈ s.dev.tilesOf c → u.dev.tile t = s.dev.tile t) ∧ u.mem = s.mem ∧ u.dev.regs = s.dev.regs ∧
      u.dev.counters = s.dev.counters)) ∧
  (∀ (s : State) (c : Fin 64) (w : Switch) (n : BitVec 64), (s.dev.ctx c).switch = some w → w.taken = some n → w.shadowReady = true →
    (∀ t, t ∈ s.dev.tilesOf c → s.dev.leftOut t = true ∨ s.dev.phaseEnd t = true) →
    (∀ v, v ∈ s.begin.liveRoutes s.mem → s.dev.routeCtx v = some c.val → routeStays v w.target = false → s.begin.routeDrained s.mem v = true) →
    Ends (.phaseSwap c) s (fun u => (u.dev.ctx c).phase = w.target ∧ (u.dev.ctx c).switch = none ∧
      u.dev.count Reg.strataSwitches = s.dev.count Reg.strataSwitches + 1 ∧ u.dev.strata = s.dev.strata ∧
      (∀ t, ¬ t ∈ s.dev.tilesOf c → u.dev.tile t = s.dev.tile t))) ∧
  (∀ (s : State) (c : Fin 64) (w : Switch) (n : BitVec 64), (s.dev.ctx c).switch = some w → w.taken = some n → w.late = false →
    2000 / (4 * s.dev.lode.tick) ≤ (s.dev.lode.count - n).toNat →
    Quiet (.phaseSwitchLate c) s ((s.begin.setCtx c { s.dev.ctx c with switch := some { w with late := true } }).bump Reg.strataSwitchLate)) ∧
  (∀ (s : State) (r : Requester) (c : Fin 64) (v : BitVec 32), Heard s r (Reg.ctxShareCons c) v → s.dev.mayWriteCtx r c = true →
    ((s.dev.rf (Reg.ctxShareProd c) 15 0 + 65536 - s.dev.rf (Reg.ctxShareCons c) 15 0) % 65536 <
        (v.toNat % 65536 + 65536 - s.dev.rf (Reg.ctxShareCons c) 15 0) % 65536 →
      Quiet (.ctxShareConsWrite r c v) s (s.begin.answer r stOK)) ∧
    ((v.toNat % 65536 + 65536 - s.dev.rf (Reg.ctxShareCons c) 15 0) % 65536 ≤
        (s.dev.rf (Reg.ctxShareProd c) 15 0 + 65536 - s.dev.rf (Reg.ctxShareCons c) 15 0) % 65536 →
      Quiet (.ctxShareConsWrite r c v) s ((s.begin.putReg (Reg.ctxShareCons c) v).answer r stOK)))

/-- HBM (R177, R192 to R199): a burst reads as it stands, a write changes exactly its bytes, an access outside the context's pages is
refused and counted, the patrol scrub and the repairs of a row and a page. -/
def Obligations.HbmAccessesAndRepairs : Prop :=
  (∀ (s : State) (c : Fin 64) (off : BitVec 40), s.dev.hbmServes (off.toNat / 32 * 32) = true → s.dev.lost (memDie (off.toNat / 32 * 32)) = false →
    s.dev.admits c (off.toNat / 32 * 32) 32 = true → s.dev.directory = [] → s.dev.zeroingIn (off.toNat / 32 * 32) 32 = false →
    s.dev.badBursts = [] →
    Quiet (.hbmRead c off 0) s (s.begin.emit (.readData ((List.range 32).map (fun i => s.read (off.toNat / 32 * 32 + i)))))) ∧
  (∀ (s : State) (c : Fin 64) (off : BitVec 40) (e : BitVec 304), s.dev.hbmServes (off.toNat / 32 * 32) = true →
    s.dev.lost (memDie (off.toNat / 32 * 32)) = false → s.dev.admits c (off.toNat / 32 * 32) 32 = false →
    Ends (.hbmRead c off e) s (fun u => .error 0x0302 off.toNat ∈ u.dev.out ∧
      u.dev.count (Reg.memAccessViol (memDie (off.toNat / 32 * 32))) = s.dev.count (Reg.memAccessViol (memDie (off.toNat / 32 * 32))) + 1 ∧
      u.mem = s.mem ∧ u.dev.regs = s.dev.regs ∧ u.dev.tiles = s.dev.tiles)) ∧
  (∀ (s : State) (c : Fin 64) (off : BitVec 40) (bs : List Byte) (e : BitVec 304), off.toNat % 32 = 0 → bs.length = 32 →
    s.dev.hbmServes off.toNat = true → s.dev.lost (memDie off.toNat) = false → s.dev.admits c off.toNat 32 = true → s.dev.directory = [] →
    s.dev.zeroingIn off.toNat 32 = false →
    Ends (.hbmWrite c off bs e) s (fun u => Holds u off.toNat bs ∧ SameMemBut s u off.toNat 32 ∧ ¬ (off.toNat / 32) ∈ u.dev.badBursts ∧
      u.dev.regs = s.dev.regs ∧ u.dev.counters = s.dev.counters ∧ u.dev.tiles = s.dev.tiles)) ∧
  (∀ (s : State) (c : Fin 64) (off : BitVec 40) (bs : List Byte), 0 < bs.length → bs.length < 32 → off.toNat % 32 + bs.length ≤ 32 →
    s.dev.hbmServes (off.toNat / 32 * 32) = true → s.dev.lost (memDie off.toNat) = false → s.dev.admits c off.toNat bs.length = true →
    s.dev.directory = [] → s.dev.zeroingIn (off.toNat / 32 * 32) 32 = false → s.dev.badBursts = [] →
    Ends (.hbmWrite c off bs 0) s (fun u => Holds u off.toNat bs ∧ SameMemBut s u off.toNat bs.length ∧
      u.dev.regs = s.dev.regs ∧ u.dev.counters = s.dev.counters ∧ u.dev.tiles = s.dev.tiles)) ∧
  (∀ (s : State) (off : BitVec 40), s.dev.hbmServes (off.toNat / 32 * 32) = true → s.dev.lost (off.toNat / 32 * 32 / 2 ^ 38) = false →
    s.dev.rb (Reg.memScrubCtrl (off.toNat / 32 * 32 / 2 ^ 38)) 31 = true → s.dev.badBursts = [] →
    Quiet (.hbmScrub off 0) s (s.begin.bumpIf (lastOfPass (s.dev.placeOf (off.toNat / 32 * 32)))
      (Reg.memScrubPasses ((s.dev.placeOf (off.toNat / 32 * 32)).stack / 4) ((s.dev.placeOf (off.toNat / 32 * 32)).stack % 4)))) ∧
  (∀ (s : State) (off : BitVec 40), (s.dev.stack (s.dev.placeOf off.toNat).stack).due.contains (hbmRowUnit (s.dev.placeOf off.toNat)) = true →
    s.dev.badBursts = [] →
    Ends (.softRepair off true) s (fun u => hbmRowUnit (s.dev.placeOf off.toNat) ∈ (u.dev.stack (s.dev.placeOf off.toNat).stack).soft ∧
      ¬ hbmRowUnit (s.dev.placeOf off.toNat) ∈ (u.dev.stack (s.dev.placeOf off.toNat).stack).due ∧
      u.dev.pages = s.dev.pages ∧ u.mem = s.mem ∧ u.dev.regs = s.dev.regs)) ∧
  (∀ (s : State) (off : BitVec 40), (s.dev.stack (s.dev.placeOf off.toNat).stack).due.contains (hbmRowUnit (s.dev.placeOf off.toNat)) = true →
    s.dev.badBursts = [] →
    Ends (.softRepair off false) s (fun u => u.dev.page (off.toNat / 2 ^ 21) = s.dev.page (off.toNat / 2 ^ 21) ||| 0x1000 ∧
      (u.dev.stack (s.dev.placeOf off.toNat).stack).soft = (s.dev.stack (s.dev.placeOf off.toNat).stack).soft ∧ u.mem = s.mem ∧
      u.dev.regs = s.dev.regs)) ∧
  (∀ (s : State) (r : Requester) (q : Fin 4) (v : BitVec 32), Heard s r (Reg.memRetireForce q) v → isCtx0 r = true → s.dev.lost q = false →
    (pageState (s.dev.page (q * 131072 + fb v 16 0)) = 1 →
      Ends (.memRetireForceWrite r q v) s (fun u => u.dev.page (q * 131072 + fb v 16 0) = s.dev.page (q * 131072 + fb v 16 0) ||| 0x1000 ∧
        u.mem = s.mem ∧ u.dev.counters = s.dev.counters)) ∧
    (pageState (s.dev.page (q * 131072 + fb v 16 0)) = 0 → pageZeroing (s.dev.page (q * 131072 + fb v 16 0)) = false →
      s.dev.retiredIn q < 4096 →
      Ends (.memRetireForceWrite r q v) s (fun u => u.dev.page (q * 131072 + fb v 16 0) = 0xC000 ∧ u.mem = s.mem))) ∧
  (∀ (s : State) (pg : Fin 524288), pageZeroing (s.dev.page pg) = true → (s.dev.page pg).getLsbD 12 = false →
    Ends (.pageZeroed pg) s (fun u => (∀ a : Nat, pg * 2 ^ 21 ≤ a → a < (pg + 1) * 2 ^ 21 → u.read a = 0) ∧ SameMemBut s u (pg * 2 ^ 21) (2 ^ 21) ∧
      pageZeroing (u.dev.page pg) = false ∧ pageState (u.dev.page pg) = pageState (s.dev.page pg) ∧
      (∀ b, b ∈ u.dev.badBursts → b / 65536 ≠ pg.val) ∧
      u.dev.count (Reg.memZeroBytes (pg / 131072)) = s.dev.count (Reg.memZeroBytes (pg / 131072)) + 2097152 ∧ u.dev.regs = s.dev.regs))

/-- Scratchpads, movers and the gather engine (R182, R183, R186, R190, R191). -/
def Obligations.ScratchpadsMoversAndGather : Prop :=
  (∀ (s : State) (t : Fin 64) (row : Fin 8192), s.dev.tclk t = true → (s.dev.tile t).state ≠ .retired → (s.dev.tile t).clearing = false →
    (s.dev.tile t).badWords = [] → Quiet (.scratchpadScrub t row ⟨[], []⟩) s s.begin) ∧
  (∀ (s : State) (t : Fin 64) (row : Fin 8192) (w : Nat), s.dev.tclk t = true → (s.dev.tile t).state ≠ .retired → (s.dev.tile t).clearing = false →
    (s.dev.tile t).badWords = [] → w / 512 = row → s.dev.ownerOf t = none →
    Ends (.scratchpadScrub t row ⟨[w], []⟩) s (fun u => u.dev.count (Reg.tileScrCe t) = s.dev.count (Reg.tileScrCe t) + 1 ∧
      u.dev.count (Reg.tileScrUe t) = s.dev.count (Reg.tileScrUe t) ∧ (u.dev.tile t).badWords = [] ∧ u.mem = s.mem)) ∧
  (∀ (s : State) (t : Fin 64) (row : Fin 8192) (w : Nat), s.dev.tclk t = true → (s.dev.tile t).state ≠ .retired → (s.dev.tile t).clearing = false →
    (s.dev.tile t).badWords = [] → w / 512 = row → s.dev.ownerOf t = none →
    Ends (.scratchpadScrub t row ⟨[], [w]⟩) s (fun u => u.dev.count (Reg.tileScrUe t) = s.dev.count (Reg.tileScrUe t) + 1 ∧
      u.dev.count (Reg.tileScrCe t) = s.dev.count (Reg.tileScrCe t) ∧ (u.dev.tile t).badWords = [w] ∧ u.mem = s.mem)) ∧
  (∀ (s : State) (t : Fin 64) (prod : Nat), s.dev.tileRuns t = true → (s.dev.tile t).moverAwake = true → s.dev.rb (Reg.tileMoveCtrl t) 31 = true →
    (s.dev.tile t).stopped = false → (s.dev.tile t).moverStopped = false →
    prod = peekLE s.mem s.begin (scrBase t + s.dev.rf (Reg.tileMoveCtrl t) 19 0 * 32) 4 →
    (prod + 2 ^ 32 - (s.dev.reg (Reg.tileMoveCons t)).toNat) % 2 ^ 32 ≤ s.dev.ringSlots t →
    Ends (.moverWake t) s (fun u => u.dev.tile t = { s.dev.tile t with moverAwake := false, moveProd := BitVec.ofNat 32 prod } ∧
      (∀ j, j ≠ t.val → u.dev.tile j = s.dev.tile j) ∧ u.mem = s.mem ∧ u.dev.regs = s.dev.regs ∧ u.dev.counters = s.dev.counters)) ∧
  (∀ (s : State) (t : Fin 64) (e : BitVec 512), s.dev.moverReady t = true → e = BitVec.ofNat 512 (peekLE s.mem s.begin (scrBase t + s.dev.moveEntryAt t) 64) →
    moveOp e = 0 → moveFence e = false → movePrio e ≠ 0 → 1 ≤ moveLen e → moveLen e ≤ 2 ^ 30 → moveRows e = 1 →
    s.dev.isLocal (moveSrc e) = true → s.dev.isLocal (moveDst e) = true →
    inMemory (gOffset (moveSrc e)) (moveLen e) = true → inMemory (gOffset (moveDst e)) (moveLen e) = true →
    s.dev.lost (memDie (gOffset (moveSrc e))) = false → s.dev.lost (memDie (gOffset (moveDst e))) = false →
    s.dev.admits (s.dev.moverCtx t) (gOffset (moveSrc e)) (moveLen e) = true → s.dev.admits (s.dev.moverCtx t) (gOffset (moveDst e)) (moveLen e) = true →
    s.dev.mustWait (gOffset (moveSrc e)) (moveLen e) = false → s.dev.mustWait (gOffset (moveDst e)) (moveLen e) = false →
    s.dev.directory = [] → s.dev.badBursts = [] → (∀ j, (s.dev.tile j).badWords = []) →
    Ends (.moveCopy t) s (fun u => (∀ i, i < moveLen e → u.read (gOffset (moveDst e) + i) = s.read (gOffset (moveSrc e) + i)) ∧
      SameMemBut s u (gOffset (moveDst e)) (moveLen e) ∧
      (u.dev.tile t).moves = (s.dev.tile t).moves ++ [{ number := (s.dev.tile t).moveNext, entry := e }] ∧
      (u.dev.tile t).moveNext = (s.dev.tile t).moveNext + 1 ∧
      u.dev.count (Reg.tileMoveBytes t) = s.dev.count (Reg.tileMoveBytes t) + BitVec.ofNat 48 (moveLen e) ∧ u.dev.regs = s.dev.regs)) ∧
  (∀ (s : State) (t : Fin 64) (e : BitVec 512), s.dev.moverReady t = true → e = BitVec.ofNat 512 (peekLE s.mem s.begin (scrBase t + s.dev.moveEntryAt t) 64) →
    moveOp e = 1 → moveFence e = false → movePrio e ≠ 0 → 1 ≤ moveLen e → moveLen e ≤ 2 ^ 30 → moveRows e = 1 →
    s.dev.isLocal (moveDst e) = true → inMemory (gOffset (moveDst e)) (moveLen e) = true → s.dev.lost (memDie (gOffset (moveDst e))) = false →
    s.dev.admits (s.dev.moverCtx t) (gOffset (moveDst e)) (moveLen e) = true → s.dev.mustWait (gOffset (moveDst e)) (moveLen e) = false →
    s.dev.directory = [] → s.dev.badBursts = [] → (∀ j, (s.dev.tile j).badWords = []) →
    Ends (.moveFill t) s (fun u => (∀ i, i < moveLen e → u.read (gOffset (moveDst e) + i) = 0) ∧
      SameMemBut s u (gOffset (moveDst e)) (moveLen e) ∧
      (u.dev.tile t).moves = (s.dev.tile t).moves ++ [{ number := (s.dev.tile t).moveNext, entry := e }] ∧
      u.dev.count (Reg.tileMoveBytes t) = s.dev.count (Reg.tileMoveBytes t) + BitVec.ofNat 48 (moveLen e) ∧ u.dev.regs = s.dev.regs)) ∧
  (∀ (s : State) (t : Fin 64) (e : BitVec 512), s.dev.moverReady t = true → e = BitVec.ofNat 512 (peekLE s.mem s.begin (scrBase t + s.dev.moveEntryAt t) 64) →
    moveOp e = 2 → moveFence e = false → (s.dev.tile t).badWords = [] →
    Quiet (.moveGather t) s (s.begin.setTile t { s.dev.tile t with moveNext := (s.dev.tile t).moveNext + 1, moves := (s.dev.tile t).moves ++ [{ number := (s.dev.tile t).moveNext, entry := e }] })) ∧
  (∀ (s : State) (t : Fin 64) (n : BitVec 32) (e : MoveEntry), (s.dev.tile t).moves.find? (fun e => e.number == n) = some e → e.done = false →
    e.error = 0 → moveOp e.entry ≠ 2 → s.dev.tclk t = true → s.dev.outstanding .mover t n.toNat = false →
    Ends (.moveEntryComplete t n) s (fun u =>
      (u.dev.tile t).moves = ((s.dev.tile t).moves.map (fun y => if y.number == n then { y with done := true } else y)).dropWhile (·.done) ∧
      (u.dev.reg (Reg.tileMoveCons t)).toNat = ((s.dev.reg (Reg.tileMoveCons t)).toNat +
        (((s.dev.tile t).moves.map (fun y => if y.number == n then { y with done := true } else y)).takeWhile (·.done)).length) % 2 ^ 32 ∧
      (moveSemEn e.entry = true → (u.dev.tile t).sem (moveSem e.entry) = true) ∧ u.mem = s.mem ∧ u.dev.counters = s.dev.counters ∧
      (∀ k, k ≠ Reg.tileMoveCons t → u.dev.reg k = s.dev.reg k))) ∧
  (∀ (s : State) (t : Fin 64) (n : BitVec 32) (e : MoveEntry) (g : BitVec 256) (start a : Nat),
    (s.dev.tile t).moves.find? (fun e => e.number == n) = some e → e.done = false → e.error = 0 → moveOp e.entry = 2 → s.dev.tclk t = true →
    (s.dev.tile t).clearing = false → g = BitVec.ofNat 256 (peekLE s.mem s.begin (scrBase t + moveSrc e.entry % 0x2000000) 32) →
    gatherOk g = true → gCount g = 1 → s.dev.badBursts = [] → (∀ j, (s.dev.tile j).badWords = []) →
    start = peekLE s.mem s.begin (scrBase t + gList g) 4 * gRowBytes g + gColOff g → start % 65536 + gColBytes g ≤ 65536 →
    s.begin.gatherPlace s.mem (s.dev.moverCtx t) g (start, gColBytes g) = (s.begin, some a) →
    Ends (.gatherComplete t n) s (fun u => (∀ i, i < gColBytes g → u.read (scrBase t + gDstAddr g + i) = s.read (a + i)) ∧
      SameMemBut s u (scrBase t + gDstAddr g) (gColBytes g) ∧
      (∀ y, y ∈ (u.dev.tile t).moves → y.number = n → y.done = true)))

/-- Port training (R211 to R215, R217, R219, R230): each state of Table 7.7 is entered on its event, PARAM checks the wiring, RTT counts
exchanges, and an attempt that exceeds its bound fails. -/
def Obligations.FabricPortsTrain : Prop :=
  (∀ (s : State) (p : Fin 8), (s.dev.port p).state = .down → (s.dev.port p).failures = 0 → s.dev.portMayTrain p = true →
    Ends (.portEnable p) s (fun u => u.dev.port p = { s.dev.port p with state := .detect, detects := (s.dev.port p).detects + 1 } ∧ PortFrame s u p)) ∧
  (∀ (s : State) (p : Fin 8), (s.dev.port p).state = .down → 1 ≤ (s.dev.port p).failures → s.dev.portMayTrain p = true →
    Ends (.portRetryTimer p) s (fun u => u.dev.port p = { s.dev.port p with state := .detect, detects := (s.dev.port p).detects + 1 } ∧ PortFrame s u p)) ∧
  (∀ (s : State) (p : Fin 8) (lanes : BitVec 18), (s.dev.port p).state = .detect → 8 ≤ laneTotal lanes →
    Quiet (.signalDetect p lanes) s (s.begin.setPort p { s.dev.port p with state := .pmaTrain })) ∧
  (∀ (s : State) (p : Fin 8) (rx tx : BitVec 18), (s.dev.port p).state = .pmaTrain →
    Quiet (.pmaTrainDone p rx tx) s (s.begin.setPort p { s.dev.port p with state := .laneLock, rxService := rx, txService := tx })) ∧
  (∀ (s : State) (p : Fin 8) (b : Bool), (s.dev.port p).state = .laneLock → 8 ≤ laneTotal (s.dev.port p).rxService →
    8 ≤ laneTotal (s.dev.port p).txService →
    Quiet (.laneLockDone p b) s (s.begin.setPort p { s.dev.port p with state := .param, reversed := b, rxUse := chosenLanes (s.dev.port p).rxService, txUse := chosenLanes (s.dev.port p).txService })) ∧
  (∀ (s : State) (p : Fin 8) (b : Bool), (s.dev.port p).state = .laneLock → laneTotal (s.dev.port p).rxService < 8 → (s.dev.port p).queues = [] →
    Ends (.laneLockDone p b) s (fun u => (u.dev.port p).state = .failed ∧ PortFrame s u p)) ∧
  (∀ (s : State) (p : Fin 8) (body : BitVec 512), (s.dev.port p).state = .param → p.val % 4 = 3 → s.dev.nodeValid = true →
    fld (msg body 0 4) 22 0 ≠ 0x7FFFFF → s.dev.rb (Reg.fabPortCtrl p) 2 = false → (msg body 12 1).testBit 0 = false →
    Ends (.tsParam p body) s (fun u => (u.dev.port p).state = .rtt ∧ (u.dev.port p).peerNode.toNat = fld (msg body 0 4) 22 0 ∧
      (u.dev.port p).rttCount = 0 ∧ (u.dev.port p).creditsIn = false ∧ (u.dev.port p).encOn = false ∧
      (s.dev.node < fld (msg body 0 4) 22 0 →
        (u.dev.port p).linkQueue = (s.dev.port p).linkQueue ++ [(4, s.dev.freeUnits p), (1, rttBytes 0 0)]) ∧
      (fld (msg body 0 4) 22 0 ≤ s.dev.node → (u.dev.port p).linkQueue = (s.dev.port p).linkQueue ++ [(4, s.dev.freeUnits p)]) ∧ PortFrame s u p)) ∧
  (∀ (s : State) (p : Fin 8) (body : BitVec 512), (s.dev.port p).state = .param → p.val % 4 ≠ 3 → s.dev.nodeValid = true →
    fld (msg body 0 4) 22 0 ≠ 0x7FFFFF → msg body 4 1 ≠ oppositePort p →
    Ends (.tsParam p body) s (fun u => (u.dev.port p).state = .miswired ∧ PortFrame s u p)) ∧
  (∀ (s : State) (p : Fin 8) (body : BitVec 512) (recv : BitVec 64), (s.dev.port p).state = .rtt → msg body 8 8 = 0 →
    Ends (.tsRtt p body recv) s (fun u => u.dev.port p = { s.dev.port p with rttCount := (s.dev.port p).rttCount + 1, linkQueue := (s.dev.port p).linkQueue ++ [(1, rttBytes (msg body 0 8) recv.toNat)] } ∧ PortFrame s u p)) ∧
  (∀ (s : State) (p : Fin 8) (body : BitVec 512) (recv : BitVec 64), (s.dev.port p).state = .rtt → msg body 8 8 ≠ 0 → s.dev.initiates p = false →
    (s.dev.port p).creditsIn = true →
    Ends (.tsRtt p body recv) s (fun u => (u.dev.port p).state = .active ∧ (u.dev.port p).rtt = BitVec.ofNat 24 (msg body 16 8) ∧
      (u.dev.port p).failures = 0 ∧ PortFrame s u p)) ∧
  (∀ (s : State) (p : Fin 8) (body : BitVec 512), (s.dev.port p).state = .rtt → (s.dev.port p).rttCount < 16 →
    Ends (.creditInit p body) s (fun u => (u.dev.port p).state = .rtt ∧ (u.dev.port p).creditsIn = true ∧
      (∀ v, v < 8 → mget 0 (u.dev.port p).credits (2 * v) = msg body (4 * v) 2 ∧ mget 0 (u.dev.port p).credits (2 * v + 1) = msg body (4 * v + 2) 2) ∧
      PortFrame s u p)) ∧
  (∀ (s : State) (p : Fin 8), (s.dev.port p).queues = [] → (s.dev.port p).state = .pmaTrain →
    TakesDown (.portStateTimeout p) s p ((s.dev.port p).failures + 1))

/-- Ports in service (R205, R208 to R210, R214 to R217, R243, R245): codewords received and sent, lane changes, keys, and the ways a port
goes DOWN. -/
def Obligations.FabricPortsRun : Prop :=
  (∀ (s : State) (p : Fin 8), (s.dev.port p).state.locked = true → ((s.begin.bumpPort p Reg.fabFecUncorr).charge 6 p false [] 0).2 = false →
    Ends (.codewordReceive p .uncorrectable) s (fun u => u.dev.port p = s.dev.port p ∧
      u.dev.count (Reg.fabFecUncorr (portDie p) (p % 4)) = s.dev.count (Reg.fabFecUncorr (portDie p) (p % 4)) + 1 ∧ PortFrame s u p)) ∧
  (∀ (s : State) (p : Fin 8) (bits : BitVec 5140), (s.dev.port p).state = .repair → fb bits 19 18 = 1 →
    Ends (.codewordReceive p (.data bits [])) s (fun u => u.dev.port p = { s.dev.port p with rxCw := BitVec.ofNat 14 (fb bits 13 0), peerPorts := BitVec.ofNat 8 (fb bits 123 116), peerNeigh := BitVec.ofNat 48 (fb bits 171 124) } ∧
      PortFrame s u p ∧ u.dev.counters = s.dev.counters)) ∧
  (∀ (s : State) (p : Fin 8), (s.dev.port p).state = .laneLock ∨ ((s.dev.port p).state = .rtt ∧ (s.dev.port p).linkQueue = []) →
    Quiet (.codewordSend p) s (s.begin.sendBlock p 1 0 s.dev.idleBody)) ∧
  (∀ (s : State) (p : Fin 8), (s.dev.port p).state = .param → (s.dev.port p).linkQueue = [] →
    Quiet (.codewordSend p) s (s.begin.sendBlock p 2 0 (leOf (s.dev.paramBytes p)))) ∧
  (∀ (s : State) (p : Fin 8), (s.dev.port p).state = .active → (s.dev.port p).tickDue = true →
    Ends (.codewordSend p) s (fun u => (u.dev.port p).tickDue = false ∧ (u.dev.port p).sinceIdle = 0 ∧
      (u.dev.port p).cwSeq = (s.dev.port p).cwSeq + 1 ∧
      u.dev.out = [.codeword p (blockBits 1 0 (s.dev.port p).cwSeq.toNat s.dev.idleBody)] ∧ PortFrame s u p ∧ u.dev.counters = s.dev.counters)) ∧
  (∀ (s : State) (p : Fin 8), (s.dev.port p).state.carries = true → (s.dev.port p).unacked ≠ [] → (s.dev.port p).queues = [] →
    Ends (.flitAckTimeout p) s (fun u => (u.dev.port p).state = .down ∧ (u.dev.port p).failures = 0 ∧ (u.dev.port p).unacked = [] ∧
      .codeword p (blockBits 2 5 (s.dev.port p).cwSeq.toNat 1) ∈ u.dev.out ∧ PortFrame s u p)) ∧
  (∀ (s : State) (p : Fin 8) (body : BitVec 512), (s.dev.port p).state.locked = true → (s.dev.port p).queues = [] →
    TakesDown (.linkRetrain p body) s p 0 ∧ TakesDown (.linkDown p body) s p ((s.dev.port p).failures + 1) ∧
    TakesDown (.codewordLockLoss p) s p ((s.dev.port p).failures + 1)) ∧
  (∀ (s : State) (p : Fin 8) (body : BitVec 512), (s.dev.port p).state.carries = true →
    Quiet (.keyReady p body) s (s.begin.setPort p { s.dev.port p with keyReady := some (body.getLsbD 0) })) ∧
  (∀ (s : State) (p : Fin 8), (s.dev.port p).state.carries = true → (s.dev.port p).encOn = true → 2 ^ 48 - 1 ≤ (s.dev.port p).txCtr →
    (s.dev.port p).queues = [] →
    Ends (.flitCtrExhausted p) s (fun u => (u.dev.port p).state = .down ∧ (u.dev.port p).keys0 = none ∧ (u.dev.port p).keys1 = none ∧
      (u.dev.port p).failures = (s.dev.port p).failures + 1 ∧ PortFrame s u p)) ∧
  (∀ (s : State) (p : Fin 8) (body : BitVec 512) (old : Nat), (s.dev.port p).state.carries = true → old < 18 → msg body 1 1 < 18 →
    (lanesOf (s.dev.port p).txUse)[msg body 0 1]? = some old →
    Ends (.laneSwap p body) s (fun u => (u.dev.port p).changes.length = (s.dev.port p).changes.length + 1 ∧
      (u.dev.port p).txUse = (s.dev.port p).txUse ∧ (u.dev.port p).txService.getLsbD old = false ∧
      (u.dev.port p).state = (s.dev.port p).state ∧ PortFrame s u p ∧ u.dev.counters = s.dev.counters)) ∧
  (∀ (s : State) (p : Fin 8) (body : BitVec 512), (s.dev.port p).state.carries = true → laneTotal (BitVec.ofNat 18 (msg body 0 4)) = 8 →
    Quiet (.narrow p body) s (s.begin.setPort p { s.dev.port p with changes := (s.dev.port p).changes ++ [{ atCw := BitVec.ofNat 14 (msg body 4 2), lanes := BitVec.ofNat 18 (msg body 0 4), narrow := true, logical := 0, newPhys := 0, rx := false }] })) ∧
  (∀ (s : State) (p : Fin 8) (body : BitVec 512), (s.dev.port p).state.carries = true → laneTotal (BitVec.ofNat 18 (msg body 0 4)) ≠ 8 →
    Quiet (.narrow p body) s s.begin) ∧
  (∀ (s : State) (p : Fin 8) (lane : Fin 18), (s.dev.port p).state.carries = true → (s.dev.port p).rxService.getLsbD lane = true →
    (s.dev.port p).rxUse.getLsbD lane = false →
    Ends (.laneLockLoss p lane) s (fun u => (u.dev.port p).rxService.getLsbD lane = false ∧
      (∀ j, j < 18 → j ≠ lane.val → (u.dev.port p).rxService.getLsbD j = (s.dev.port p).rxService.getLsbD j) ∧
      (u.dev.port p).rxUse = (s.dev.port p).rxUse ∧ (u.dev.port p).state = (s.dev.port p).state ∧ PortFrame s u p)) ∧
  (∀ (s : State) (p : Fin 8) (c : LaneChange) (r : List LaneChange), (s.dev.port p).state.carries = true → (s.dev.port p).changes = c :: r →
    Ends (.laneSetChange p) s (fun u => (u.dev.port p).state = .repair ∧ (u.dev.port p).changes = r ∧
      (u.dev.port p).repairing = (s.dev.port p).repairing ++ [c] ∧
      (c.rx = true → (u.dev.port p).rxUse = c.lanes ∧ (u.dev.port p).txUse = (s.dev.port p).txUse) ∧
      (c.rx = false → (u.dev.port p).txUse = c.lanes ∧ (u.dev.port p).rxUse = (s.dev.port p).rxUse) ∧
      PortFrame s u p ∧ u.dev.counters = s.dev.counters)) ∧
  (∀ (s : State) (p : Fin 8), (s.dev.port p).state = .repair →
    Ends (.codewordLockRegained p) s (fun u => u.dev.port p = { s.dev.port p with state := .active, repairing := [] } ∧
      u.dev.count (Reg.fabLaneSwaps (portDie p) (p % 4)) = s.dev.count (Reg.fabLaneSwaps (portDie p) (p % 4)) +
        BitVec.ofNat 48 (s.dev.port p).repairing.length ∧ PortFrame s u p))

/-- Commands of a port, and routing (R219, R233, R236, R245): RETRAIN, DISABLE and ENABLE; FAB_NODE and FAB_TORUS; a packet for this node
is delivered, one that no router can send on is discarded. -/
def Obligations.PortCommandsAndRouting : Prop :=
  (∀ (s : State) (r : Requester) (p : Fin 8), Heard s r (Reg.fabPortCtrl p) (s.dev.portCtrlWith p 1) → isCtx0 r = true →
    (s.dev.port p).state.locked = true → (s.dev.port p).queues = [] →
    Ends (.fabPortRetrain r p) s (fun u => (u.dev.port p).state = .down ∧ (u.dev.port p).failures = 0 ∧
      (∀ q, q ≠ p.val → u.dev.port q = s.dev.port q) ∧ u.mem = s.mem ∧ u.dev.tiles = s.dev.tiles)) ∧
  (∀ (s : State) (r : Requester) (p : Fin 8), Heard s r (Reg.fabPortCtrl p) (s.dev.portCtrlWith p 2) → isCtx0 r = true →
    (s.dev.port p).state ≠ .failed → (s.dev.port p).state ≠ .disabled → (s.dev.port p).queues = [] →
    Ends (.fabPortDisable r p) s (fun u => (u.dev.port p).state = .disabled ∧ (∀ q, q ≠ p.val → u.dev.port q = s.dev.port q) ∧
      u.mem = s.mem ∧ u.dev.tiles = s.dev.tiles)) ∧
  (∀ (s : State) (r : Requester) (p : Fin 8), Heard s r (Reg.fabPortCtrl p) (s.dev.portCtrlWith p 3) → isCtx0 r = true →
    (s.dev.port p).state = .disabled →
    Ends (.fabPortEnable r p) s (fun u => u.dev.port p = { s.dev.port p with state := .down, failures := 0 } ∧
      (∀ q, q ≠ p.val → u.dev.port q = s.dev.port q) ∧ u.mem = s.mem ∧ u.dev.tiles = s.dev.tiles ∧ u.dev.counters = s.dev.counters)) ∧
  (∀ (s : State) (r : Requester) (v : BitVec 32), Heard s r Reg.fabNode v → isCtx0 r = true →
    (s.dev.anyPortUp = true → Quiet (.fabNodeWrite r v) s (s.begin.answer r stOK)) ∧
    (s.dev.anyPortUp = false → Ends (.fabNodeWrite r v) s (fun u => u.dev.node = fb v 22 0 ∧ u.dev.nodeValid = v.getLsbD 31 ∧
      (∀ q, q < 8 → (s.dev.port q).state ≠ .miswired → u.dev.port q = s.dev.port q) ∧
      (∀ q, q < 8 → (s.dev.port q).state = .miswired → (u.dev.port q).state = .param) ∧ u.mem = s.mem))) ∧
  (∀ (s : State) (r : Requester) (v : BitVec 32), Heard s r Reg.fabTorus v → isCtx0 r = true →
    ((s.dev.anyPortUp = true ∨ 200 < (fb v 7 0 + 1) / 2 + (fb v 15 8 + 1) / 2 + (fb v 22 16 + 1) / 2) →
      Quiet (.fabTorusWrite r v) s (s.begin.answer r stOK)) ∧
    (s.dev.anyPortUp = false → (fb v 7 0 + 1) / 2 + (fb v 15 8 + 1) / 2 + (fb v 22 16 + 1) / 2 ≤ 200 →
      Ends (.fabTorusWrite r v) s (fun u => u.dev.torusSize 0 = fb v 7 0 + 1 ∧ u.dev.torusSize 1 = fb v 15 8 + 1 ∧
        u.dev.torusSize 2 = fb v 22 16 + 1 ∧ u.mem = s.mem))) ∧
  (∀ (s : State) (k : Packet), k.dst = s.dev.node → k.opc = opWR ∨ k.opc = opRD ∨ k.opc = opBWR → k.hops < 255 →
    Quiet (.packetRoute none k) s { s.begin with localOut := removeOne k s.dev.localOut, inbox := s.dev.inbox ++ [k.withField 19 12 (k.hops + 1)] }) ∧
  (∀ (s : State) (p : Fin 8) (k : Packet), k.dst ≠ s.dev.node → k.hops = 254 →
    Ends (.packetRoute (some p) k) s (fun u => u.dev.count Reg.fabUnreach = s.dev.count Reg.fabUnreach + 1 ∧
      u.dev.count Reg.fabFwdPkts = s.dev.count Reg.fabFwdPkts + 1 ∧ u.dev.inbox.length ≤ s.dev.inbox.length + 1 ∧ u.mem = s.mem ∧
      u.dev.regs = s.dev.regs ∧ u.dev.tiles = s.dev.tiles))

/-- Fabric requests at this node (R177, R221 to R224, R226): RD, WR, BWR and BGET are performed and answered; a request that fails its
check, or reaches beyond its context's memory, is answered with a failing status and changes no memory. -/
def Obligations.FabricRequestsArePerformedAndAnswered : Prop :=
  (∀ (s : State) (k : Packet), k.opc = opRD → k.ecrcOk = true → inBlock k.addr (k.arg % 512) = true → Reaches s k.ctx k.addr (k.arg % 512) →
    k.src ≠ s.dev.node →
    Ends (.fabRd k) s (fun u => Answers s u k opRDRSP 0 ((List.range (k.arg % 512)).map (fun i => s.read (k.addr + i))) ∧ u.mem = s.mem ∧
      u.dev.regs = s.dev.regs ∧ u.dev.tiles = s.dev.tiles)) ∧
  (∀ (s : State) (k : Packet), k.opc = opWR → k.ecrcOk = true → inBlock k.addr k.data.length = true → Reaches s k.ctx k.addr k.data.length →
    k.src ≠ s.dev.node →
    Ends (.fabWr k) s (fun u => Holds u k.addr k.data ∧ SameMemBut s u k.addr k.data.length ∧ Answers s u k opWRACK 0 [] ∧
      u.dev.regs = s.dev.regs ∧ u.dev.counters = s.dev.counters)) ∧
  (∀ (s : State) (k : Packet), k.opc = opBWR → k.ecrcOk = true → inBlock k.addr k.data.length = true → Reaches s k.ctx k.addr k.data.length →
    k.src ≠ s.dev.node → s.dev.inGroups = [] → k.last = true → fld k.arg 19 16 = 0 →
    Ends (.fabBwr k) s (fun u => Holds u k.addr k.data ∧ SameMemBut s u k.addr k.data.length ∧ Answers s u k opBWACK 0 [] ∧
      u.dev.inGroups = [] ∧ u.dev.regs = s.dev.regs)) ∧
  (∀ (s : State) (k : Packet), k.opc = opBWR → k.ecrcOk = true → inBlock k.addr k.data.length = true → Reaches s k.ctx k.addr k.data.length →
    s.dev.inGroups = [] → k.last = false →
    Ends (.fabBwr k) s (fun u => Holds u k.addr k.data ∧ SameMemBut s u k.addr k.data.length ∧ u.dev.localOut = s.dev.localOut ∧
      u.dev.inGroups.length = 1 ∧ u.dev.regs = s.dev.regs)) ∧
  (∀ (s : State) (k : Packet), k.opc = opBWR → k.ecrcOk = true → s.dev.groupFits k = false → k.src ≠ s.dev.node →
    Ends (.fabBwr k) s (fun u => Answers s u k opBWACK 8 [] ∧ u.mem = s.mem ∧ u.dev.inGroups = s.dev.inGroups ∧ u.dev.regs = s.dev.regs ∧
      u.dev.counters = s.dev.counters)) ∧
  (∀ (s : State) (k : Packet), k.opc = opBGET → k.ecrcOk = true → 1 ≤ leOf (k.data.take 4) → leOf (k.data.take 4) ≤ 2 ^ 30 →
    Reaches s k.ctx k.addr (leOf (k.data.take 4)) →
    Ends (.fabBget k) s (fun u => (∃ x : Push, u.dev.pushes = s.dev.pushes ++ [x] ∧ x.hdr = k.hdr ∧
        (∃ t, t ∈ u.dev.tags ∧ t.purpose = .bgetPush ∧ t.a = x.id ∧ t.reserved = false)) ∧
      s.dev.tags.length < u.dev.tags.length ∧ u.mem = s.mem ∧ u.dev.regs = s.dev.regs ∧ u.dev.tiles = s.dev.tiles)) ∧
  (∀ (s : State) (k : Packet), k.opc = opRD → k.ecrcOk = false → k.src ≠ s.dev.node →
    Ends (.fabRd k) s (fun u => Answers s u k opRDRSP 9 [] ∧ u.dev.count Reg.fabEcrcErr = s.dev.count Reg.fabEcrcErr + 1 ∧ u.mem = s.mem ∧
      u.dev.regs = s.dev.regs)) ∧
  (∀ (s : State) (k : Packet), k.opc = opWR → k.ecrcOk = true → inBlock k.addr k.data.length = true → inMemory k.addr k.data.length = true →
    s.dev.pwr.state = .run → s.dev.lost (memDie k.addr) = false → s.dev.admits k.ctx k.addr k.data.length = false → k.src ≠ s.dev.node →
    Ends (.fabWr k) s (fun u => Answers s u k opWRACK 2 [] ∧ u.mem = s.mem ∧ u.dev.regs = s.dev.regs ∧ u.dev.tiles = s.dev.tiles ∧
      u.dev.count (Reg.memAccessViol (memDie k.addr)) = s.dev.count (Reg.memAccessViol (memDie k.addr)) + 1))

/-- Atomics (R225): each replaces its target in HBM by its function of the old value and the operand, and returns the old value. -/
def Obligations.AtomicsReplaceAndReturnTheOldValue : Prop :=
  AtomDoes .atomAdd32 0 (fun o x _ => (o + x) % 2 ^ 32) ∧ AtomDoes .atomAdd64 1 (fun o x _ => (o + x) % 2 ^ 64) ∧
  AtomDoes .atomSwap64 2 (fun _ x _ => x) ∧ AtomDoes .atomCas64 3 (fun o x y => if o = x then y else o) ∧
  AtomDoes .atomAnd64 4 (fun o x _ => o &&& x) ∧ AtomDoes .atomOr64 5 (fun o x _ => o ||| x) ∧ AtomDoes .atomMaxu64 6 (fun o x _ => max o x) ∧
  (∀ (s : State) (k : Packet), k.opc = opATOM → k.arg % 16 = 7 → k.ecrcOk = true → isHbm k.addr = true → k.addr % 16 = 0 → k.data.length = 16 →
    Reaches s k.ctx k.addr 16 → k.src ≠ s.dev.node →
    Ends (.atomGadd128 k) s (fun u =>
      Holds u k.addr (toLE 16 ((peekLE s.mem s.begin k.addr 16 + leOf k.data) % 2 ^ 128)) ∧ SameMemBut s u k.addr 16 ∧
      Answers s u k opATOMRSP (if signed 128 (peekLE s.mem s.begin k.addr 16) + signed 128 (leOf k.data) < -(2 ^ 127) ∨
        2 ^ 127 ≤ signed 128 (peekLE s.mem s.begin k.addr 16) + signed 128 (leOf k.data) then 7 else 0) (peekN s.mem s.begin k.addr 16) ∧
      u.dev.regs = s.dev.regs ∧ u.dev.tiles = s.dev.tiles))

/-- Responses (R221, R222, R226, R227, R240): a response settles the request it answers, or is dropped as stale; read data goes where the
request names; a request times out and its TAG stays reserved for a while; a BUSY group is sent again. -/
def Obligations.ResponsesSettleRequests : Prop :=
  (∀ (s : State) (k : Packet) (t : Tag), k.opc = opRDRSP → k.ecrcOk = true → s.dev.answered k = some t → t.reserved = false →
    k.gen = s.dev.genOf t.ctx → k.status = 0 → t.purpose = .mover → t.op = opRD → k.data ≠ [] → s.dev.mustWait t.c k.data.length = false →
    s.dev.directory = [] → NoBad s → (s.dev.tile t.a).moves.any (fun e => e.number == BitVec.ofNat 32 t.b && e.error == 0) = true →
    Ends (.rdRsp k) s (fun u => Holds u t.c k.data ∧ SameMemBut s u t.c k.data.length ∧ (∀ x, x ∈ u.dev.tags → x.port = t.port → x.tag ≠ t.tag) ∧
      u.dev.regs = s.dev.regs ∧ u.dev.counters = s.dev.counters)) ∧
  Settles .wrAck opWRACK .mover ∧ Settles .atomRsp opATOMRSP .mover ∧ Settles .bwAck opBWACK .mover ∧ Settles .bgetDone opBGETDONE .mover ∧
  Settles .wprobeRsp opWPROBERSP .probe ∧
  DropsStale .rdRsp opRDRSP ∧ DropsStale .wrAck opWRACK ∧ DropsStale .atomRsp opATOMRSP ∧ DropsStale .bwAck opBWACK ∧
  DropsStale .bgetDone opBGETDONE ∧ DropsStale .wprobeRsp opWPROBERSP ∧
  (∀ (s : State) (k : Packet), k.opc = opRDRSP → k.ecrcOk = false → Quiet (.rdRsp k) s ((s.begin.taken k).bump Reg.fabEcrcErr)) ∧
  (∀ (s : State) (k : Packet) (t : Tag), k.opc = opBWACK → k.ecrcOk = true → s.dev.answered k = some t → t.reserved = false →
    k.gen = s.dev.genOf t.ctx → k.status = 8 →
    Ends (.bwAck k) s (fun u => u.dev.tags = s.dev.tags ∧ (∀ g, g ∈ u.dev.outGroups → g.tag.tag = t.tag → g.busy = true) ∧
      u.dev.outGroups.length = s.dev.outGroups.length ∧ u.mem = s.mem ∧ u.dev.regs = s.dev.regs ∧ u.dev.counters = s.dev.counters)) ∧
  (∀ (s : State) (n : BitVec 16) (t : Tag), s.dev.tags.find? (fun t => t.port == fabricPort && t.tag == n.toNat && !t.reserved) = some t →
    t.purpose = .probe →
    Ends (.fabRequestTimeout n) s (fun u => u.dev.count Reg.fabTimeout = s.dev.count Reg.fabTimeout + 1 ∧
      (∀ x, x ∈ u.dev.tags → x.port = fabricPort → x.tag = n.toNat → x.reserved = true) ∧ u.dev.tags.length = s.dev.tags.length ∧
      u.mem = s.mem ∧ u.dev.regs = s.dev.regs ∧ u.dev.tiles = s.dev.tiles)) ∧
  (∀ (s : State) (n : BitVec 16) (t : Tag), s.dev.tags.find? (fun t => t.port == fabricPort && t.tag == n.toNat && !t.reserved) = some t →
    t.purpose = .mover → (s.dev.tile t.a).moves.any (fun e => e.number == BitVec.ofNat 32 t.b && e.error == 0) = true → s.dev.ownerOf t.a = none →
    Ends (.fabRequestTimeout n) s (fun u => (u.dev.tile t.a).stopped = true ∧ (u.dev.tile t.a).moverStopped = true ∧
      u.dev.count Reg.fabTimeout = s.dev.count Reg.fabTimeout + 1 ∧ u.mem = s.mem ∧ u.dev.regs = s.dev.regs)) ∧
  (∀ (s : State) (n : BitVec 16) (t : Tag), s.dev.tags.find? (fun t => t.port == fabricPort && t.tag == n.toNat && t.reserved) = some t →
    Ends (.tagReserveExpiry n) s (fun u => (∀ x, x ∈ u.dev.tags ↔ x ∈ s.dev.tags ∧ ¬ (x.port = fabricPort ∧ x.tag = n.toNat)) ∧
      u.mem = s.mem ∧ u.dev.regs = s.dev.regs ∧ u.dev.tiles = s.dev.tiles ∧ u.dev.counters = s.dev.counters)) ∧
  (∀ (s : State) (b : BitVec 16) (g : OutGroup), s.dev.outGroups.find? (fun g => g.bulk == b && g.busy) = some g →
    (∀ k, k ∈ g.pkts → k.dst ≠ s.dev.node) →
    Ends (.bwrGroupRetry b) s (fun u => u.dev.localOut = s.dev.localOut ++ g.pkts.map (fun k => k.withField 255 224 k.ecrc) ∧
      (∀ x, x ∈ u.dev.outGroups → x.bulk = b → x.busy = false) ∧ u.dev.tags = s.dev.tags ∧ u.mem = s.mem ∧ u.dev.regs = s.dev.regs))

/-- Stream bridges (R244): a cell is taken while PROD + 256 - CONS fits the ring, gathered, and sent as a group at LAST; without room the
bridge reads CONS; a stopped bridge takes nothing. -/
def Obligations.BridgesGatherCells : Prop :=
  (∀ (s : State) (b : Fin 32) (cell : BitVec 512), (s.dev.bridge b).route.isSome = true → s.dev.lost (4 + b / 16) = false →
    (s.dev.bridge b).stopped = false → (s.dev.bridge b).room = true → ((s.dev.bridge b).prod + 64) % 4096 ≠ 0 →
    Ends (.bridgeCell b cell false) s (fun u => u.dev.bridge b = { s.dev.bridge b with cells := (s.dev.bridge b).cells ++ [cell], prod := (s.dev.bridge b).prod + 64 } ∧
      (∀ j, j ≠ b.val → u.dev.bridge j = s.dev.bridge j) ∧ u.dev.localOut = s.dev.localOut ∧ u.dev.tags = s.dev.tags ∧ u.mem = s.mem ∧
      u.dev.regs = s.dev.regs ∧ u.dev.counters = s.dev.counters)) ∧
  (∀ (s : State) (b : Fin 32) (cell : BitVec 512), (s.dev.bridge b).route.isSome = true → s.dev.lost (4 + b / 16) = false →
    (s.dev.bridge b).stopped = false → (s.dev.bridge b).room = true →
    Ends (.bridgeCell b cell true) s (fun u => (u.dev.bridge b).cells = [] ∧ (u.dev.bridge b).prod = roundUp ((s.dev.bridge b).prod + 64) 256 ∧
      u.dev.outGroups.length = s.dev.outGroups.length + 1 ∧ u.dev.tags.length = s.dev.tags.length + 1 ∧ u.mem = s.mem ∧ u.dev.regs = s.dev.regs)) ∧
  (∀ (s : State) (b : Fin 32) (cell : BitVec 512) (last : Bool), (s.dev.bridge b).route.isSome = true → s.dev.lost (4 + b / 16) = false →
    (s.dev.bridge b).stopped = false → (s.dev.bridge b).room = false →
    Quiet (.bridgeCell b cell last) s (s.begin.setBridge b { s.dev.bridge b with needCons := true })) ∧
  (∀ (s : State) (b : Fin 32), (s.dev.bridge b).route.isSome = true → s.dev.lost (4 + b / 16) = false → (s.dev.bridge b).stopped = false →
    (s.dev.bridge b).needCons = true → s.dev.outstanding .bridgeCons b 0 = false →
    Ends (.bridgeConsPoll b) s (fun u => u.dev.outstanding .bridgeCons b 0 = true ∧ u.dev.tags.length = s.dev.tags.length + 1 ∧
      u.dev.localOut.length + u.dev.inbox.length = s.dev.localOut.length + s.dev.inbox.length + 1 ∧ u.dev.bridges = s.dev.bridges ∧
      u.mem = s.mem ∧ u.dev.regs = s.dev.regs ∧ u.dev.counters = s.dev.counters))

/-- The Lodestone (R246, R247, R249 to R251, R254, R260): the count rises by 1 at an edge, or takes the parent's at a re-base; a claim, a
lost parent and the choice of a new one; the commands and fields of LODE_CTRL. -/
def Obligations.LodestoneKeepsTime : Prop :=
  (∀ (s : State), s.dev.bringUp ≠ .off → s.dev.lode.rebase = none → s.dev.cairns = [] →
    (∀ p, p ∈ s.dev.ctxs → p.2.pipe.state ≠ .running ∧ p.2.log.known = false) →
    Ends .lodestoneTick s (fun u => u.dev.lode.count = s.dev.lode.count + 1 ∧ u.dev.lode.phase = 0 ∧ u.dev.lode.tick = s.dev.rf Reg.lodeCtrl 23 12 ∧
      u.mem = s.mem ∧ u.dev.tiles = s.dev.tiles ∧ u.dev.modules = s.dev.modules ∧ u.dev.pages = s.dev.pages)) ∧
  (∀ (s : State) (n : BitVec 64) (ph : BitVec 18), s.dev.bringUp ≠ .off → s.dev.lode.rebase = some (n, ph) → s.dev.cairns = [] →
    (∀ p, p ∈ s.dev.ctxs → p.2.pipe.state ≠ .running ∧ p.2.log.known = false) →
    Ends .lodeRebase s (fun u => u.dev.lode.count = n ∧ u.dev.lode.phase = ph ∧ u.dev.lode.rebase = none ∧
      u.dev.count Reg.lodeRebases = s.dev.count Reg.lodeRebases + 1 ∧ u.mem = s.mem ∧ u.dev.tiles = s.dev.tiles)) ∧
  (∀ (s : State), s.dev.rb Reg.lodeCtrl 31 = true → s.dev.rf Reg.lodeCtrl 11 0 ≤ s.dev.lode.silent →
    s.dev.lode.state = .freeRun ∨ s.dev.lode.state = .holdover →
    Ends .sourceClaim s (fun u => u.dev.lode.state = .source ∧ u.dev.lode.src.toNat = s.dev.node ∧ u.dev.lode.hops = 0 ∧
      u.dev.lode.upPort = none ∧ u.dev.lode.count = s.dev.lode.count ∧ u.mem = s.mem ∧ u.dev.regs = s.dev.regs ∧ u.dev.ports = s.dev.ports ∧
      u.dev.counters = s.dev.counters)) ∧
  (∀ (s : State), 8 ≤ s.dev.lode.parentSilent → s.dev.lode.hasParent = true →
    Ends .parentSilenceTimeout s (fun u => u.dev.lode.state = .holdover ∧ u.dev.lode.upPort = none ∧ u.dev.lode.invalid = 8 ∧
      u.dev.lode.count = s.dev.lode.count ∧ u.dev.count Reg.lodeHoldovers = s.dev.count Reg.lodeHoldovers + 1 ∧ u.mem = s.mem ∧
      u.dev.regs = s.dev.regs)) ∧
  (∀ (s : State) (p : Nat), s.dev.lode.state = .holdover → s.dev.lode.invalid = 0 → s.dev.bestParent = some p →
    Ends .holdoverInvalidEnd s (fun u => (u.dev.lode.state = .acquire ∧ u.dev.lode.upPort = some p ∧ u.dev.lode.src = (s.dev.port p).heardSrc ∧
        u.dev.lode.hops = (s.dev.port p).heardHops.toNat + 1 ∨ u.dev.lode.state = .conflict) ∧
      u.dev.count Reg.lodeParentChanges = s.dev.count Reg.lodeParentChanges + 1 ∧ u.mem = s.mem ∧ u.dev.regs = s.dev.regs)) ∧
  (∀ (s : State) (r : Requester), Heard s r Reg.lodeCtrl (lodeWord s.dev 1) → isCtx0 r = true → s.dev.rf Reg.lodeCtrl 23 12 % 64 = 0 →
    s.dev.rf Reg.lodeCtrl 23 12 ≠ 0 → 8 ≤ s.dev.rf Reg.lodeCtrl 11 0 → s.dev.lode.state ≠ .source → s.dev.bestParent = none →
    Ends (.lodeResync r) s (fun u => u.dev.lode = { s.dev.lode.leave .freeRun with invalid := 0 } ∧ u.mem = s.mem ∧ u.dev.counters = s.dev.counters ∧
      u.dev.tiles = s.dev.tiles)) ∧
  (∀ (s : State) (r : Requester), Heard s r Reg.lodeCtrl (lodeWord s.dev 2) → isCtx0 r = true → s.dev.rf Reg.lodeCtrl 23 12 % 64 = 0 →
    s.dev.rf Reg.lodeCtrl 23 12 ≠ 0 → 8 ≤ s.dev.rf Reg.lodeCtrl 11 0 →
    (s.dev.lode.state ≠ .conflict → Ends (.lodeRebaseAny r) s (fun u => u.dev.lode = { s.dev.lode with rebaseAny := true } ∧ u.mem = s.mem ∧
      u.dev.counters = s.dev.counters ∧ u.dev.tiles = s.dev.tiles)) ∧
    (s.dev.lode.state = .conflict → s.dev.bestParent = none → Ends (.lodeRebaseAny r) s (fun u => u.dev.lode.state = .freeRun ∧
      u.dev.lode.rebaseAny = true ∧ u.mem = s.mem))) ∧
  (∀ (s : State) (r : Requester) (v : BitVec 32), Heard s r Reg.lodeCtrl v → isCtx0 r = true →
    ((fb v 30 29 = 3 ∨ fb v 23 12 % 64 ≠ 0 ∨ fb v 23 12 = 0 ∨ fb v 11 0 < 8 ∨ (fb v 23 12 ≠ s.dev.rf Reg.lodeCtrl 23 12 ∧ s.dev.lode.state ≠ .freeRun)) →
      Quiet (.lodeCtrlWrite r v) s (s.begin.answer r stOK)) ∧
    ((fb v 30 29 = 0 ∧ fb v 23 12 % 64 = 0 ∧ fb v 23 12 ≠ 0 ∧ 8 ≤ fb v 11 0 ∧ fb v 23 12 = s.dev.rf Reg.lodeCtrl 23 12) →
      Quiet (.lodeCtrlWrite r v) s ((s.begin.putReg Reg.lodeCtrl v).answer r stOK)))

/-- Cairns (R257 to R264, R362): ARM, its refusal, CANCEL, the taking of a slot at its count, the barrier's check, a health window's end. -/
def Obligations.CairnsAreArmedTakenAndCancelled : Prop :=
  (∀ (s : State) (r : Requester) (c n : Fin 64) (v : BitVec 32), Heard s r (Reg.ctxCairnCtrl c n) (BitVec.ofNat 32 (setFld v.toNat 31 30 1)) →
    s.dev.mayWriteCtx r c = true → (s.dev.cairn c n).state ≠ .armed → (s.dev.cairn c n).barrierAt = none → fb v 7 0 ≠ 1 →
    s.begin.armRefused s.mem c (s.dev.reg64 (Reg.ctxCairnLtLo c n)) (s.dev.reg (Reg.ctxCairnArg c n)).toNat (fb v 7 0) = false →
    s.dev.now < s.dev.reg64 (Reg.ctxCairnLtLo c n) →
    Ends (.cairnArm r c n v) s (fun u => u.dev.cairn c n = { lt := BitVec.ofNat 64 (s.dev.reg64 (Reg.ctxCairnLtLo c n)), arg := s.dev.reg (Reg.ctxCairnArg c n), action := BitVec.ofNat 8 (fb v 7 0), policy := v.getLsbD 8, evt := v.getLsbD 9, state := .armed } ∧
      u.mem = s.mem ∧ u.dev.ctxs = s.dev.ctxs ∧ u.dev.counters = s.dev.counters ∧ u.dev.tiles = s.dev.tiles)) ∧
  (∀ (s : State) (r : Requester) (c n : Fin 64) (v : BitVec 32), Heard s r (Reg.ctxCairnCtrl c n) (BitVec.ofNat 32 (setFld v.toNat 31 30 1)) →
    s.dev.mayWriteCtx r c = true → (s.dev.cairn c n).state ≠ .armed → (s.dev.cairn c n).barrierAt = none →
    argOk (fb v 7 0) (s.dev.reg (Reg.ctxCairnArg c n)).toNat = false →
    Ends (.cairnArm r c n v) s (fun u => (u.dev.cairn c n).state = .cancelled ∧ (u.dev.cairn c n).result = 0xB ∧ u.mem = s.mem ∧
      u.dev.tiles = s.dev.tiles)) ∧
  (∀ (s : State) (r : Requester) (c n : Fin 64), Heard s r (Reg.ctxCairnCtrl c n) (BitVec.ofNat 32 (setFld (s.dev.reg (Reg.ctxCairnCtrl c n)).toNat 31 30 2)) →
    s.dev.mayWriteCtx r c = true → (s.dev.cairn c n).state = .armed →
    Ends (.cairnCancel r c n) s (fun u => (u.dev.cairn c n).state = .cancelled ∧ (u.dev.cairn c n).result = 5 ∧
      (u.dev.cairn c n).lt = (s.dev.cairn c n).lt ∧ u.mem = s.mem ∧ u.dev.counters = s.dev.counters ∧ u.dev.tiles = s.dev.tiles)) ∧
  (∀ (s : State) (c n : Fin 64) (x : Cairn), s.dev.bringUp ≠ .off → s.dev.lode.rebase = none → s.dev.cairns = [(64 * c.val + n.val, x)] →
    x.state = .armed → x.action = 9 → x.lt.toNat = s.dev.lode.count.toNat + 1 →
    (∀ p, p ∈ s.dev.ctxs → p.2.pipe.state ≠ .running ∧ p.2.log.known = false) → x.late = false →
    Ends .lodestoneTick s (fun u => (u.dev.cairn c n).state = .taken ∧ (u.dev.cairn c n).result = 1 ∧
      u.dev.count Reg.lodeCairnTaken = s.dev.count Reg.lodeCairnTaken + 1 ∧ u.dev.lode.count = x.lt ∧ u.mem = s.mem)) ∧
  (∀ (s : State) (c n : Fin 64) (x : BitVec 64), (s.dev.cairn c n).barrierAt = some x → x.toNat ≤ s.dev.now → (s.dev.cairn c n).barrierTags = [] →
    Ends (.barrierCheck c n) s (fun u => (u.dev.cairn c n).result = 9 ∧ (u.dev.cairn c n).barrierAt = none ∧ (u.dev.cairn c n).state = .taken ∧
      u.dev.count Reg.fabBarrierMiss = s.dev.count Reg.fabBarrierMiss ∧ u.mem = s.mem ∧ u.dev.regs = s.dev.regs)) ∧
  (∀ (s : State) (c n : Fin 64) (x : BitVec 64), (s.dev.cairn c n).barrierAt = some x → x.toNat ≤ s.dev.now → (s.dev.cairn c n).barrierTags ≠ [] →
    Ends (.barrierCheck c n) s (fun u => (u.dev.cairn c n).result = 10 ∧ (u.dev.cairn c n).barrierAt = none ∧
      u.dev.count Reg.fabBarrierMiss = s.dev.count Reg.fabBarrierMiss + 1 ∧ u.mem = s.mem ∧ u.dev.regs = s.dev.regs)) ∧
  (∀ (s : State) (c : Fin 64) (e : BitVec 64) (peak n : Nat), (s.dev.ctx c).window = some (e, peak, n) → e.toNat ≤ s.dev.now →
    Ends (.healthWindowEnd c) s (fun u => (u.dev.ctx c).window = none ∧ u.mem = s.mem ∧ u.dev.regs = s.dev.regs ∧ u.dev.tiles = s.dev.tiles))

/-- CMD CANCEL (R262): an ARMED slot becomes CANCELLED with RESULT CANCELLED, and its count no longer takes it; on any other slot, a TAKEN
one among them, the cancel is ignored. -/
def Obligations.CancelAppliesToAnArmedSlot : Prop :=
  (∀ (s : State) (r : Requester) (c n : Fin 64), Heard s r (Reg.ctxCairnCtrl c n) (BitVec.ofNat 32 (setFld (s.dev.reg (Reg.ctxCairnCtrl c n)).toNat 31 30 2)) →
    s.dev.mayWriteCtx r c = true →
    Ends (.cairnCancel r c n) s (fun u =>
      ((s.dev.cairn c n).state = .armed → (u.dev.cairn c n).state = .cancelled ∧ (u.dev.cairn c n).result = 5) ∧
      ((s.dev.cairn c n).state ≠ .armed → (u.dev.cairn c n).state = (s.dev.cairn c n).state ∧ (u.dev.cairn c n).result = (s.dev.cairn c n).result) ∧
      (∀ j, j ≠ 64 * c.val + n.val → mfind u.dev.cairns j = mfind s.dev.cairns j) ∧ u.mem = s.mem ∧ u.dev.counters = s.dev.counters)) ∧
  (∀ (s : State) (c n : Fin 64) (x : Cairn), s.dev.bringUp ≠ .off → s.dev.lode.rebase = none → s.dev.cairns = [(64 * c.val + n.val, x)] → x.state = .cancelled →
    (∀ p, p ∈ s.dev.ctxs → p.2.pipe.state ≠ .running ∧ p.2.log.known = false) →
    Ends .lodestoneTick s (fun u => (u.dev.cairn c n).state = .cancelled ∧ u.dev.lode.count = s.dev.lode.count + 1 ∧ u.mem = s.mem))

/-- Reduction buckets (R271 to R274, R280 to R283, R289): readiness, the report, the close, DATA into words, RESULT and SHARD_DONE to the
member, the repeats, the limits, and a word's release. -/
def Obligations.BucketsAreReportedClosedAndReduced : Prop :=
  (∀ (s : State) (c : Fin 64) (id : BitVec 16) (o : Opening), s.dev.openOf c id.toNat = some o → o.kind = 1 → descKind o.desc = 1 → o.ready = false →
    EngineReaches s c (bReady o.desc) (8 * bParts o.desc) →
    Ends (.readyPoll c id) s (fun u => u.dev.openings = (if (chunk 8 (bParts o.desc) (peekN s.mem s.begin (bReady o.desc) (8 * bParts o.desc))).all (fun e => leOf e != 0) then (s.dev.putOpening { o with ready := true }).openings else s.dev.openings) ∧
      u.mem = s.mem ∧ u.dev.regs = s.dev.regs ∧ u.dev.tiles = s.dev.tiles ∧ u.dev.ctxs = s.dev.ctxs)) ∧
  (∀ (s : State) (c : Fin 64) (id : BitVec 16) (o : Opening), s.dev.openOf c id.toNat = some o → o.kind = 1 → o.ready = true → o.reported = false →
    o.deadline = false → o.selfRank ≠ bRoot o.desc → EngineReaches s c (bSrc o.desc) (4 * bElements o.desc) →
    (o.members.getD (bRoot o.desc) 0).toNat ≠ s.dev.node →
    Ends (.bucketScanComplete c id) s (fun u => u.dev.openings = (s.dev.putOpening { o with reported := true }).openings ∧
      (∃ k : Packet, u.dev.localOut = s.dev.localOut ++ [k] ∧ IsPacketOf o k opCOLL (bRoot o.desc) 1 0 [] ∧
        kAux k % 512 = (scanOf (fp32s (peekN s.mem s.begin (bSrc o.desc) (4 * bElements o.desc)))).1 % 512 ∧
        u.dev.repeats.length = s.dev.repeats.length + 1) ∧ u.mem = s.mem ∧ u.dev.regs = s.dev.regs ∧ u.dev.counters = s.dev.counters)) ∧
  (∀ (s : State) (c : Fin 64) (id : BitVec 16) (o : Opening), s.dev.openings = [o] → s.dev.openOf c id.toNat = some o → o.kind = 1 →
    o.selfRank = bRoot o.desc → o.rootClosed = false → s.dev.closeDue o = true → o.reports = [] → o.recorded = false → o.shardSent = false → NoBad s →
    Ends (.bucketClose c id) s (fun u => u.dev.openings = [] ∧ mget 0 (u.dev.ctx c).collFail (bStepBit o.desc) = 2 ∧
      u.dev.count Reg.collIncomplete = s.dev.count Reg.collIncomplete + 1 ∧ BucketMem s u o ∧ u.dev.regs = s.dev.regs ∧ u.dev.tiles = s.dev.tiles)) ∧
  (∀ (s : State) (k : Packet) (o : Opening), Finds s k opCOLL 1 o o.seq.toNat → o.kind = 1 → o.selfRank = bRoot o.desc → o.rootClosed = false →
    s.dev.closeDue o = false → o.reports.any (fun x => x.rank == kRank k) = false → o.late.contains (kRank k) = false →
    o.reports.length + 1 ≠ o.count →
    Quiet (.collReport k) s ((s.begin.taken k).putOpening { o with reports := o.reports ++ [{ rank := kRank k, expcode := kAux k % 512, nonfin := (kAux k).testBit 9 }] })) ∧
  (∀ (s : State) (k : Packet) (o : Opening), Finds s k opCOLL 1 o o.seq.toNat → o.kind = 1 → o.selfRank = bRoot o.desc → o.rootClosed = true →
    o.reports.any (fun x => x.rank == kRank k) = false → o.late.contains (kRank k) = false →
    Quiet (.collReport k) s (((s.begin.taken k).putOpening { o with late := kRank k :: o.late }).bump Reg.collReportsLate)) ∧
  (∀ (s : State) (k : Packet), k.opc = opCOLL → kType k = 1 → k.ecrcOk = true → s.dev.openOf k.ctx (kId k) = none →
    Quiet (.collReport k) s ((s.begin.taken k).bump Reg.collStaleDrop)) ∧
  (∀ (s : State) (k : Packet) (o : Opening), Finds s k opCOLL 2 o o.seq.toNat → o.kind = 1 → mfind o.segs (kIndex k) = none → o.rootClosed = false →
    fld (kAux k) 12 9 ≠ 1 → o.children = [] → kIndex k ≠ 32 → mfind o.segs 32 = none →
    Quiet (.collClose k) s ((s.begin.taken k).putOpening { o with segs := mset o.segs (kIndex k) k.data })) ∧
  (∀ (s : State) (k : Packet) (o : Opening), s.dev.openings = [o] → Finds s k opCOLL 2 o o.seq.toNat → o.kind = 1 → o.recorded = false →
    mfind o.segs (kIndex k) = none → o.rootClosed = false → o.shardSent = false → o.close = none → 2 ≤ fld (kAux k) 12 9 → o.children = [] → kIndex k = 32 →
    (List.range o.segCount).all (fun j => (mfind (mset o.segs 32 k.data) j).isSome) = true →
    (∀ j, j < o.segCount → (mget [] (mset o.segs 32 k.data) j).length = 256) → NoBad s →
    Ends (.collClose k) s (fun u => u.dev.openings = [] ∧ mget 0 (u.dev.ctx o.ctx).collFail (bStepBit o.desc) = fld (kAux k) 12 9 ∧
      u.dev.count Reg.collIncomplete = s.dev.count Reg.collIncomplete + 1 ∧ BucketMem s u o ∧ u.dev.regs = s.dev.regs ∧ u.dev.tiles = s.dev.tiles)) ∧
  (∀ (s : State) (k : Packet) (o : Opening), Finds s k opCOLL 3 o o.seq.toNat → o.kind = 1 → o.own.1 ≤ kIndex k → kIndex k < o.own.2 →
    o.receipts.contains (kRank k * 2 ^ 18 + kIndex k) = false → o.shardSent = false → o.close = none → o.hasWords = true →
    Ends (.collData k) s (fun u => ∃ x, u.dev.openOf k.ctx (kId k) = some x ∧ x.receipts = (kRank k * 2 ^ 18 + kIndex k) :: o.receipts ∧
      x.lastData = s.dev.lode.count ∧
      (∀ j q, j < o.chunkSize (kIndex k) → 4 * j + 4 ≤ k.data.length →
        quantise (gridExp (kAux k % 512)) (fp32.decode (leOf ((k.data.drop (4 * j)).take 4))) = some q →
        mget 0 x.words (64 * kIndex k + j) = signed 128 (unsigned 128 (mget 0 o.words (64 * kIndex k + j) + q))) ∧
      (∀ e, (e < 64 * kIndex k ∨ 64 * kIndex k + 64 ≤ e) → mget 0 x.words e = mget 0 o.words e) ∧
      u.mem = s.mem ∧ u.dev.regs = s.dev.regs ∧ u.dev.counters = s.dev.counters ∧ u.dev.ctxs = s.dev.ctxs ∧ u.dev.tiles = s.dev.tiles)) ∧
  (∀ (s : State) (k : Packet) (o : Opening), Finds s k opCOLL 4 o o.seq.toNat → o.kind = 1 → o.complete = true → kIndex k < o.chunks →
    o.results.contains (kIndex k) = false → o.shards = [] → o.recorded = false →
    EngineReaches s k.ctx (bDst o.desc + 256 * kIndex k) (k.data.take (4 * o.chunkSize (kIndex k))).length →
    Ends (.collResult k) s (fun u => Holds u (bDst o.desc + 256 * kIndex k) (k.data.take (4 * o.chunkSize (kIndex k))) ∧
      SameMemBut s u (bDst o.desc + 256 * kIndex k) (k.data.take (4 * o.chunkSize (kIndex k))).length ∧
      u.dev.openings = (s.dev.putOpening { o with results := kIndex k :: o.results, lastResult := s.dev.lode.count }).openings ∧
      u.dev.regs = s.dev.regs ∧ u.dev.counters = s.dev.counters ∧ u.dev.ctxs = s.dev.ctxs)) ∧
  (∀ (s : State) (k : Packet) (o : Opening), s.dev.openings = [o] → Finds s k opCOLL 5 o o.seq.toNat → o.kind = 1 → o.complete = true →
    o.shards.any (fun s => s.rank == kRank k && s.status == 1) = false → o.recorded = false → kAux k % 16 = 1 → NoBad s →
    (List.range o.chunks).all o.results.contains = true →
    (∀ r, r < o.count → r ≠ kRank k → o.shards.any (fun s => s.rank == r && s.status == 1) = true) →
    Ends (.collShardDone k) s (fun u => (u.dev.ctx k.ctx).collDone.getLsbD (bStepBit o.desc) = true ∧ u.dev.openOf k.ctx (kId k) = none ∧
      u.dev.count Reg.collIncomplete = s.dev.count Reg.collIncomplete ∧ BucketMem s u o ∧ u.dev.regs = s.dev.regs)) ∧
  (∀ (s : State) (k : Packet) (o : Opening), s.dev.openings = [o] → o.ctx = k.ctx → o.id = kId k → o.seq.toNat = kSeq k → k.opc = opCOLL → kType k = 6 →
    k.ecrcOk = true → o.kind = 1 → o.ended = false → kRank k < o.count → o.complete = true → kAux k = 2 → o.inMask o.selfRank = true →
    kIndex k < o.chunks → o.ownerOf (kIndex k) = kRank k → (o.members.getD (kRank k) 0).toNat ≠ s.dev.node →
    EngineReaches s o.ctx (bSrc o.desc + 256 * kIndex k) (4 * o.chunkSize (kIndex k)) →
    Ends (.collResend k) s (fun u => ∃ p : Packet, u.dev.localOut = s.dev.localOut ++ [p] ∧
      IsPacketOf o p opCOLL (kRank k) 3 (kIndex k) (peekN s.mem s.begin (bSrc o.desc + 256 * kIndex k) (4 * o.chunkSize (kIndex k))) ∧
      u.dev.openings = s.dev.openings ∧ u.dev.count Reg.collResends = s.dev.count Reg.collResends + 1 ∧ u.mem = s.mem ∧ u.dev.regs = s.dev.regs)) ∧
  (∀ (s : State) (c : Fin 64) (id : BitVec 16) (o : Opening), s.dev.openings = [o] → s.dev.openOf c id.toNat = some o → o.kind = 1 → o.complete = true →
    o.shardSent = true → o.lastResult.toNat + s.dev.rf (Reg.ctxCollCtrl c) 26 19 ≤ s.dev.now →
    Ends (.resendTimer c id) s (fun u => u.dev.openings = [{ o with lastResult := s.dev.lode.count }] ∧
      u.dev.repeats.length = s.dev.repeats.length + (o.others.filter (fun r => (List.range (o.shardAt (r + 1) - o.shardAt r)).any (fun i => !o.results.contains (i + o.shardAt r)) || !o.shards.any (fun s => s.rank == r))).length ∧
      u.mem = s.mem ∧ u.dev.regs = s.dev.regs ∧ u.dev.counters = s.dev.counters)) ∧
  (∀ (s : State) (c : Fin 64) (id : BitVec 16) (o : Opening), s.dev.openings = [o] → s.dev.openOf c id.toNat = some o → o.kind = 1 → o.complete = true →
    o.closeLt.toNat + s.dev.rf (Reg.ctxCollCtrl c) 18 3 ≤ s.dev.now → o.recorded = false → NoBad s →
    Ends (.dataLimitExpiry c id) s (fun u => u.dev.openOf c id.toNat = none ∧
      u.dev.count Reg.collIncomplete = s.dev.count Reg.collIncomplete + 1 ∧ BucketMem s u o ∧ u.dev.regs = s.dev.regs ∧ u.dev.tiles = s.dev.tiles)) ∧
  (∀ (s : State) (c : Fin 64) (id seq : BitVec 16) (o : Opening), s.dev.openings = [o] → o.ctx = c.val → o.id = id.toNat → o.seq = seq → o.hasWords = true →
    o.shardSent = true → o.shardSentLt.toNat + s.dev.rf (Reg.ctxCollCtrl c) 18 3 ≤ s.dev.now →
    Ends (.wordFree c id seq) s (fun u => u.dev.wordsUsed = 0 ∧ (o.ended = true → o.kind ≠ 2 → u.dev.openings = []) ∧
      (o.ended = false → u.dev.openings = [{ o with hasWords := false, allocated := 0, words := [], sqs := [] }]) ∧
      u.mem = s.mem ∧ u.dev.regs = s.dev.regs ∧ u.dev.counters = s.dev.counters ∧ u.dev.ctxs = s.dev.ctxs)) ∧
  (∀ (s : State) (r : Repeat), s.dev.repeats = [r] → r.at_.toNat ≤ s.dev.now → 1 < r.left →
    Quiet .controlPacketRepeat s (({ s.begin with repeats := [{ r with at_ := r.at_ + 1, left := r.left - 1 }] }).sendPacket r.pkt)) ∧
  (∀ (s : State) (r : Repeat), s.dev.repeats = [r] → r.at_.toNat ≤ s.dev.now → r.left ≤ 1 →
    Quiet .controlPacketRepeat s (({ s.begin with repeats := [] }).sendPacket r.pkt))

/-- Token exchanges and re-shards (R290 to R296): COUNT, OFFSET and DONE are held, a use begins, GO and PDONE are held, a round's sources are
read, an ABORT ends what it names. -/
def Obligations.ExchangesAreCountedPlacedAndEnded : Prop :=
  (∀ (s : State) (k : Packet) (o : Opening) (n : Nat), k.opc = opTOKX → kType k = 1 → k.ecrcOk = true → s.dev.openOf k.ctx (kId k) = some o → o.kind = 2 →
    n = (kSeq k + 65536 - o.seq.toNat) % 65536 → n < xUses o.desc → o.use ≤ n → kRank k < o.count → o.begun = false →
    o.counts.any (fun y => y.use == n && y.rank == kRank k) = false →
    Ends (.tokxCount k) s (fun u => ∃ y : CountIn, u.dev.openings = (s.dev.putOpening { o with counts := o.counts ++ [y] }).openings ∧ y.use = n ∧
      y.rank = kRank k ∧ (∀ j, j < 64 → y.counts.getD j 0 = leOf ((k.data.drop (2 * j)).take 2)) ∧ y.ret.toNat = leOf ((k.data.drop 128).take 8) ∧
      u.mem = s.mem ∧ u.dev.regs = s.dev.regs ∧ u.dev.counters = s.dev.counters)) ∧
  (∀ (s : State) (k : Packet) (o : Opening), k.opc = opTOKX → kType k = 1 → k.ecrcOk = true → s.dev.openOf k.ctx (kId k) = some o → o.kind = 2 →
    (kSeq k + 65536 - o.seq.toNat) % 65536 < o.use → Quiet (.tokxCount k) s ((s.begin.taken k).bump Reg.collStaleDrop)) ∧
  (∀ (s : State) (k : Packet) (o : Opening), Finds s k opTOKX 2 o o.useSeq → o.kind = 2 → o.begun = true → kIndex k = 0 →
    mfind o.recvBase (kRank k) = none → o.doneSent = false → o.rowsTo.contains (kRank k) = false →
    Quiet (.tokxOffset k) s ((s.begin.taken k).putOpening { o with offsets := mset o.offsets (kRank k) ((List.range 64).map (fun j => leOf ((k.data.drop (4 * j)).take 4))) })) ∧
  (∀ (s : State) (k : Packet) (o : Opening), Finds s k opTOKX 2 o o.useSeq → o.kind = 2 → o.begun = true → kIndex k ≠ 0 →
    mfind o.offsets (kRank k) = none → o.doneSent = false → o.rowsTo.contains (kRank k) = false →
    Quiet (.tokxOffset k) s ((s.begin.taken k).putOpening { o with recvBase := mset o.recvBase (kRank k) (leOf (k.data.take 8) % 2 ^ 41) })) ∧
  (∀ (s : State) (k : Packet) (o : Opening), Finds s k opTOKX 3 o o.useSeq → o.kind = 2 → o.dones.contains (o.use * 65536 + kRank k) = false →
    o.doneSent = false → o.ackFailed = true →
    Quiet (.tokxDone k) s ((s.begin.taken k).putOpening { o with dones := (o.use * 65536 + kRank k) :: o.dones })) ∧
  (∀ (s : State) (k : Packet) (o : Opening), s.dev.openings = [o] → Finds s k opTOKX 3 o o.useSeq → o.kind = 2 → o.begun = true →
    o.dones.contains (o.use * 65536 + kRank k) = false → o.doneSent = true → NoBad s →
    (∀ r, r < o.count → r ≠ kRank k → o.dones.contains (o.use * 65536 + r) = true) →
    Ends (.tokxDone k) s (fun u => (∀ x, x ∈ u.dev.openings → x.begun = false ∧ x.dropped = 0 ∧ (x.use = o.use + 1 ∨ x.ended = true)) ∧
      u.dev.count Reg.collIncomplete = s.dev.count Reg.collIncomplete ∧ u.dev.regs = s.dev.regs ∧
      (∀ a, (a < descRec o.desc ∨ descRec o.desc + 32 ≤ a) → (a < xReady o.desc ∨ xReady o.desc + 8 * xParts o.desc ≤ a) → u.read a = s.read a))) ∧
  (∀ (s : State) (c : Fin 64) (id : BitVec 16) (o : Opening), s.dev.openOf c id.toNat = some o → o.kind = 2 → o.ready = true → o.begun = false →
    xCombine o.desc = false → xEntries o.desc = 0 → o.counts = [] → 2 ≤ o.count → o.offsetsSent = false →
    Ends (.tokxUseStart c id) s (fun u => (∃ y : CountIn, u.dev.openings = (s.dev.putOpening { o with begun := true, useLt := s.dev.lode.count, counts := [y] }).openings ∧
        y.use = o.use ∧ y.rank = o.selfRank ∧ y.counts = List.replicate 64 0 ∧ y.ret.toNat = xRet o.desc) ∧
      u.dev.count Reg.collOpenings = s.dev.count Reg.collOpenings + 1 ∧ u.dev.repeats.length = s.dev.repeats.length + o.others.length ∧
      u.mem = s.mem ∧ u.dev.regs = s.dev.regs ∧ u.dev.ctxs = s.dev.ctxs)) ∧
  (∀ (s : State) (k : Packet) (o : Opening), Finds s k opCOLL 7 o o.seq.toNat → o.kind = 3 → o.goes.contains (kIndex k * 65536 + kRank k) = false →
    o.readDone = false → o.written = false →
    Quiet (.collGo k) s ((s.begin.taken k).putOpening { o with goes := (kIndex k * 65536 + kRank k) :: o.goes })) ∧
  (∀ (s : State) (k : Packet) (o : Opening), Finds s k opCOLL 8 o o.seq.toNat → o.kind = 3 → o.pdones.contains (kIndex k * 65536 + kRank k) = false →
    o.round < pRounds o.desc →
    Quiet (.collPdone k) s ((s.begin.taken k).putOpening { o with pdones := (kIndex k * 65536 + kRank k) :: o.pdones })) ∧
  (∀ (s : State) (k : Packet) (o : Opening), s.dev.openings = [o] → Finds s k opCOLL 9 o o.seq.toNat → o.kind = 3 → NoBad s →
    Ends (.collAbort k) s (fun u => u.dev.openings = (if o.hasWords then u.dev.openings else []) ∧ u.dev.openOf k.ctx (kId k) = none ∧
      u.dev.count Reg.collIncomplete = s.dev.count Reg.collIncomplete + 1 ∧ SameMemBut s u (descRec o.desc) 32 ∧ u.dev.regs = s.dev.regs ∧
      u.dev.tiles = s.dev.tiles)) ∧
  (∀ (s : State) (k : Packet) (o : Opening), s.dev.openings = [o] → Finds s k opCOLL 9 o o.seq.toNat → o.kind = 1 → o.recorded = false → NoBad s →
    Ends (.collAbort k) s (fun u => u.dev.openOf k.ctx (kId k) = none ∧ u.dev.count Reg.collIncomplete = s.dev.count Reg.collIncomplete + 1 ∧
      BucketMem s u o ∧ u.dev.regs = s.dev.regs ∧ u.dev.tiles = s.dev.tiles)) ∧
  (∀ (s : State) (c : Fin 64) (id : BitVec 16) (o : Opening) (p : Piece) (i : Nat), s.dev.openOf c id.toNat = some o → o.kind = 3 → o.readDone = false →
    o.written = false → o.round < pRounds o.desc → ((outPieces s.mem s.begin o.desc).zipIdx).filter (fun p => p.1.round == o.round) = [(p, i)] →
    EngineReaches s c p.src p.len → p.peer ≠ o.selfRank → o.goes.contains (o.round * 65536 + p.peer) = false →
    Ends (.permuteRoundReadComplete c id) s (fun u => u.dev.openings = (s.dev.putOpening { o with readDone := true, staged := [(i, peekN s.mem s.begin p.src p.len)] }).openings ∧
      u.dev.repeats.length = s.dev.repeats.length + (peersOf (inPieces s.mem s.begin o.desc) o.round o.selfRank).length ∧ u.mem = s.mem ∧
      u.dev.regs = s.dev.regs ∧ u.dev.counters = s.dev.counters ∧ u.dev.ctxs = s.dev.ctxs))

/-- Items of a stage are dispatched (R304, R308, R309, R311, R315, R316, R317, R324, R386): a ring poll, FORWARD, RECOMPUTE, BACKWARD, UPDATE and
MIRROR. -/
def Obligations.ItemsAreDispatched : Prop :=
  (∀ (s : State) (c : Fin 64) (v : Fin 8), (s.dev.ctx c).pipe.state = .running → (s.dev.ctx c).validStage v = true → (s.dev.ctx c).isFirst v = false →
    EngineReaches s c ((s.dev.ctx c).fwdRing v) 32 → EngineReaches s c ((s.dev.ctx c).bwdRing v) 32 →
    Ends (.ringPoll c v) s (fun u => (u.dev.ctx c).stage v = { (s.dev.ctx c).stage v with fwdProd := BitVec.ofNat 32 (s.begin.ringProd s.mem ((s.dev.ctx c).fwdRing v)), bwdProd := BitVec.ofNat 32 (s.begin.ringProd s.mem ((s.dev.ctx c).bwdRing v)) } ∧
      (∀ w, w ≠ v.val → (u.dev.ctx c).stage w = (s.dev.ctx c).stage w) ∧ u.mem = s.mem ∧ u.dev.regs = s.dev.regs ∧ u.dev.counters = s.dev.counters ∧
      u.dev.tiles = s.dev.tiles)) ∧
  (∀ (s : State) (c : Fin 64) (v : Fin 8) (n : Nat) (p : Nat × Nat × Nat), ((s.dev.ctx c).stage v).fwdItem = none → (s.dev.ctx c).mayDispatch v = true →
    ((s.dev.ctx c).stage v).fwdOut = none → ((s.dev.ctx c).stage v).gateClosed = false → s.begin.recomputeReady s.mem c v = none →
    s.dev.nextForward c v = some n → s.begin.forwardBinds s.mem c v n = true →
    s.dev.engineMay c ((s.dev.ctx c).fwdSlotAt v n) ((s.dev.ctx c).fwdSlotSize v) = true → s.begin.stashPlace s.mem c v false = some p → p.1 = skSlot → NoBad s →
    Ends (.forwardItem c v) s (fun u => (∃ i : Item, ((u.dev.ctx c).stage v).fwdItem = some i ∧ i.kind = .forward ∧ i.slot = n ∧ i.stash = p ∧
        i.mb = BitVec.ofNat 16 (rMb (s.begin.slotRec s.mem c v n))) ∧ ((u.dev.ctx c).stage v).fwdNext = BitVec.ofNat 32 (n + 1) ∧
      ((u.dev.ctx c).stage v).curRefs = ((s.dev.ctx c).stage v).curRefs + 1 ∧
      (∀ a, isHbm a = true → (a < (s.dev.ctx c).fwdSlotAt v n ∨ (s.dev.ctx c).fwdSlotAt v n + (s.dev.ctx c).fwdSlotSize v ≤ a) → u.read a = s.read a) ∧
      (∀ j, ¬ j ∈ s.dev.unitTiles c v 0 → u.dev.tile j = s.dev.tile j) ∧ u.dev.regs = s.dev.regs)) ∧
  (∀ (s : State) (c : Fin 64) (v : Fin 8) (n : Nat) (p : Nat × Nat × Nat), ((s.dev.ctx c).stage v).fwdItem = none → (s.dev.ctx c).mayDispatch v = true →
    ((s.dev.ctx c).stage v).fwdOut = none → s.begin.recomputeReady s.mem c v = some (n, p) → rRestarted (s.begin.slotRec s.mem c v n) = false →
    p.1 = skSlot → NoBad s →
    Ends (.recomputeItem c v) s (fun u => (∃ i : Item, ((u.dev.ctx c).stage v).fwdItem = some i ∧ i.kind = .recompute ∧ i.slot = n ∧ i.stash = p ∧
        i.mb = BitVec.ofNat 16 (rMb (s.begin.slotRec s.mem c v n))) ∧ ((u.dev.ctx c).stage v).curRefs = ((s.dev.ctx c).stage v).curRefs ∧
      (∀ a, isHbm a = true → u.read a = s.read a) ∧ (∀ j, ¬ j ∈ s.dev.unitTiles c v 0 → u.dev.tile j = s.dev.tile j) ∧ u.dev.regs = s.dev.regs)) ∧
  (∀ (s : State) (c : Fin 64) (v : Fin 8) (n : Nat), ((s.dev.ctx c).stage v).bwdItem = none → (s.dev.ctx c).mayDispatch v = true →
    ((s.dev.ctx c).stage v).bwdOut = none → s.begin.backwardReady s.mem c v = some n → NoBad s →
    Ends (.backwardItem c v) s (fun u => (∃ i : Item, ((u.dev.ctx c).stage v).bwdItem = some i ∧ i.kind = .backward ∧ i.slot = n ∧
        i.mb = BitVec.ofNat 16 (rMb (s.begin.slotRec s.mem c v n))) ∧
      ((u.dev.ctx c).stage v).orderStep = some (BitVec.ofNat 32 (rStep (s.begin.slotRec s.mem c v n))) ∧
      (∀ a, isHbm a = true → (a < (s.dev.ctx c).fwdSlotAt v n ∨ (s.dev.ctx c).fwdSlotAt v n + 32 ≤ a) → u.read a = s.read a) ∧
      (∀ j, ¬ j ∈ s.dev.unitTiles c v 1 → u.dev.tile j = s.dev.tile j) ∧ u.dev.regs = s.dev.regs)) ∧
  (∀ (s : State) (c : Fin 64) (v : Fin 8) (k : ItemKind) (t : BitVec 32) (q : List (ItemKind × BitVec 32)), ((s.dev.ctx c).stage v).updItem = none →
    ((s.dev.ctx c).stage v).queue = (k, t) :: q → k = .update ∨ k = .apply → (s.dev.ctx c).mayDispatch v = true → s.begin.updateReady s.mem c v = true →
    (s.dev.protOn c = true → s.begin.retained s.mem c t.toNat = true) → NoBad s →
    Ends (.updateItem c v) s (fun u => (∃ i : Item, ((u.dev.ctx c).stage v).updItem = some i ∧ i.kind = k ∧ i.step = t) ∧
      ((u.dev.ctx c).stage v).queue = q ∧ (s.begin.ownedShards s.mem c v = [] → ∀ a, isHbm a = true → u.read a = s.read a) ∧
      (∀ j, ¬ j ∈ s.dev.unitTiles c v 2 → u.dev.tile j = s.dev.tile j) ∧ u.dev.regs = s.dev.regs)) ∧
  (∀ (s : State) (c : Fin 64) (v : Fin 8) (t : BitVec 32) (q : List (ItemKind × BitVec 32)), ((s.dev.ctx c).stage v).updItem = none →
    ((s.dev.ctx c).stage v).queue = (.mirror, t) :: q → (s.dev.ctx c).mayDispatch v = true →
    (s.begin.mirrorsOf s.mem c v).all (fun i => decide (t.toNat ≤ eVstep (s.begin.entry s.mem c i))) = false → s.begin.mirrorReady s.mem c v t.toNat = true → NoBad s →
    Ends (.mirrorItem c v) s (fun u => (∃ i : Item, ((u.dev.ctx c).stage v).updItem = some i ∧ i.kind = .mirror ∧ i.step = t) ∧
      ((u.dev.ctx c).stage v).queue = q ∧ (∀ j, ¬ j ∈ s.dev.unitTiles c v 2 → u.dev.tile j = s.dev.tile j) ∧ u.dev.regs = s.dev.regs)) ∧
  (∀ (s : State) (c : Fin 64) (v : Fin 8) (t : BitVec 32) (q : List (ItemKind × BitVec 32)), ((s.dev.ctx c).stage v).updItem = none →
    ((s.dev.ctx c).stage v).queue = (.mirror, t) :: q → (s.dev.ctx c).mayDispatch v = true → s.dev.protCmd c ≠ 5 →
    (s.begin.mirrorsOf s.mem c v).all (fun i => decide (t.toNat ≤ eVstep (s.begin.entry s.mem c i))) = true →
    Quiet (.mirrorItem c v) s (s.begin.setStage c v { (s.dev.ctx c).stage v with queue := q })) ∧
  DispatchesAgain .forwardItem 0 [.forward] ∧ DispatchesAgain .recomputeItem 0 [.recompute] ∧ DispatchesAgain .backwardItem 1 [.backward] ∧
  DispatchesAgain .updateItem 2 [.update, .apply] ∧ DispatchesAgain .mirrorItem 2 [.mirror]

/-- Items end and outputs are delivered (R307, R309, R313, R314, R317, R322, R323): DONE of each unit, the SUM of a record, a delivery to the own
backward ring, retirement of a version, and the commands of the pipeline's control word. -/
def Obligations.ItemsEndAndPipelinesRunAndStop : Prop :=
  (∀ (s : State) (c : Fin 64) (v : Fin 8) (i : Item), ((s.dev.ctx c).stage v).fwdItem = some i → i.kind = .forward → (s.dev.ctx c).pipe.state = .running →
    i.started = true → i.sums = [] → (s.dev.tile (leadTile ((s.dev.ctx c).unitMask v 0))).sem 15 = true →
    Ends (.itemDone c v 0) s (fun u => ((u.dev.ctx c).stage v).fwdItem = none ∧
      (∃ o : Delivery, ((u.dev.ctx c).stage v).fwdOut = some o ∧ o.phase = 0 ∧ o.target = (if (s.dev.ctx c).isLast v then 1 else 0) ∧
        rMb o.rec_.toNat = rMb (s.begin.slotRec s.mem c v i.slot) ∧ rStep o.rec_.toNat = rStep (s.begin.slotRec s.mem c v i.slot)) ∧
      (u.dev.tile (leadTile ((s.dev.ctx c).unitMask v 0))).sem 15 = false ∧
      (∀ j, j ≠ leadTile ((s.dev.ctx c).unitMask v 0) → u.dev.tile j = s.dev.tile j) ∧ u.mem = s.mem ∧ u.dev.regs = s.dev.regs ∧
      u.dev.counters = s.dev.counters)) ∧
  (∀ (s : State) (c : Fin 64) (v : Fin 8) (i : Item), ((s.dev.ctx c).stage v).fwdItem = some i → i.kind = .recompute → (s.dev.ctx c).pipe.state = .running →
    i.started = true → i.sums = [] → (s.dev.tile (leadTile ((s.dev.ctx c).unitMask v 0))).sem 15 = true → NoBad s →
    Ends (.itemDone c v 0) s (fun u => ((u.dev.ctx c).stage v).fwdItem = none ∧ ((u.dev.ctx c).stage v).fwdOut = ((s.dev.ctx c).stage v).fwdOut ∧
      u.dev.count (Reg.ctxPipeRecomputes c v) = s.dev.count (Reg.ctxPipeRecomputes c v) + 1 ∧
      SameMemBut s u ((s.dev.ctx c).fwdSlotAt v i.slot) 32 ∧ u.dev.regs = s.dev.regs)) ∧
  (∀ (s : State) (c : Fin 64) (v : Fin 8) (i : Item), ((s.dev.ctx c).stage v).bwdItem = some i → (s.dev.ctx c).pipe.state = .running →
    i.started = true → i.sums = [] → (s.dev.tile (leadTile ((s.dev.ctx c).unitMask v 1))).sem 15 = true → i.owners = [(v.val, false)] →
    ((s.dev.ctx c).stage v).retireNow = false → NoBad s →
    Ends (.itemDone c v 1) s (fun u => ((u.dev.ctx c).stage v).bwdItem = none ∧ ((u.dev.ctx c).stage v).curRefs = ((s.dev.ctx c).stage v).curRefs - 1 ∧
      ((s.dev.ctx c).isFirst v = true → ((u.dev.ctx c).stage v).bwdOut = ((s.dev.ctx c).stage v).bwdOut) ∧
      ((s.dev.ctx c).isFirst v = false → ∃ o : Delivery, ((u.dev.ctx c).stage v).bwdOut = some o ∧ o.target = 2 ∧ o.phase = 0) ∧
      (u.dev.tile (leadTile ((s.dev.ctx c).unitMask v 1))).sem 15 = false ∧ u.dev.regs = s.dev.regs)) ∧
  (∀ (s : State) (c : Fin 64) (v : Fin 8) (i : Item), ((s.dev.ctx c).stage v).updItem = some i → i.kind = .update → s.dev.protOn c = false →
    (s.dev.ctx c).pipe.state = .running → i.started = true → i.sums = [] → (s.dev.tile (leadTile ((s.dev.ctx c).unitMask v 2))).sem 15 = true →
    Ends (.itemDone c v 2) s (fun u => ((u.dev.ctx c).stage v).updItem = some { i with sums := i.binds.map (·.1) } ∧
      (∀ j, j ∈ s.dev.unitTiles c v 2 → (u.dev.tile j).updKey = none) ∧ u.mem = s.mem ∧ u.dev.regs = s.dev.regs ∧ u.dev.counters = s.dev.counters)) ∧
  (∀ (s : State) (c : Fin 64) (v : Fin 8) (k : Fin 1024) (i : Item), ((s.dev.ctx c).stage v).updItem = some i → i.kind = .update → i.sums = [k.val] →
    (s.dev.ctx c).pipe.state = .running → ((s.dev.ctx c).stage v).retireNow = false → NoBad s →
    Ends (.updateSumComplete c v k) s (fun u => ((u.dev.ctx c).stage v).updItem = none ∧ ((u.dev.ctx c).stage v).curStep = i.step ∧
      ((u.dev.ctx c).stage v).prevStep = ((s.dev.ctx c).stage v).curStep ∧ ((u.dev.ctx c).stage v).prevRefs = ((s.dev.ctx c).stage v).curRefs ∧
      ((u.dev.ctx c).stage v).curRefs = 0 ∧ ((u.dev.ctx c).stage v).prevLive = true ∧
      u.dev.count (Reg.ctxPipeUpdates c v) = s.dev.count (Reg.ctxPipeUpdates c v) + 1 ∧ u.dev.reg (Reg.ctxPipeCurStep c v) = i.step ∧
      u.dev.tiles = s.dev.tiles)) ∧
  (∀ (s : State) (c : Fin 64) (v : Fin 8) (o : Delivery), ((s.dev.ctx c).stage v).fwdOut = some o → o.phase = 0 → o.target = 1 →
    (s.dev.ctx c).pipe.state = .running → s.dev.deliveries c < 4 →
    slotsFrom (s.begin.ringProd s.mem ((s.dev.ctx c).bwdRing v)) (s.begin.ringCons s.mem ((s.dev.ctx c).bwdRing v)) < (s.dev.ctx c).bwdSlots v →
    EngineReaches s c ((s.dev.ctx c).bwdSlotAt v (s.begin.ringProd s.mem ((s.dev.ctx c).bwdRing v)) + 256) ((s.dev.ctx c).outBytes v) →
    EngineReaches s c ((s.dev.ctx c).bwdSlotAt v (s.begin.ringProd s.mem ((s.dev.ctx c).bwdRing v))) 32 → EngineReaches s c ((s.dev.ctx c).bwdRing v) 4 →
    Ends (.outputDelivery c v false) s (fun u => ((u.dev.ctx c).stage v).fwdOut = none ∧
      Holds u ((s.dev.ctx c).bwdSlotAt v (s.begin.ringProd s.mem ((s.dev.ctx c).bwdRing v)) + 256) (s.begin.outPayload s.mem c v false) ∧
      Holds u ((s.dev.ctx c).bwdSlotAt v (s.begin.ringProd s.mem ((s.dev.ctx c).bwdRing v))) (toLE 32 o.rec_.toNat) ∧
      Holds u ((s.dev.ctx c).bwdRing v) (toLE 4 ((s.begin.ringProd s.mem ((s.dev.ctx c).bwdRing v) + 1) % 2 ^ 32)) ∧
      (∀ a, (a < (s.dev.ctx c).bwdRing v ∨ (s.dev.ctx c).bwdRing v + 4 ≤ a) →
        (a < (s.dev.ctx c).bwdSlotAt v (s.begin.ringProd s.mem ((s.dev.ctx c).bwdRing v)) ∨
          (s.dev.ctx c).bwdSlotAt v (s.begin.ringProd s.mem ((s.dev.ctx c).bwdRing v)) + 256 + (s.dev.ctx c).outBytes v ≤ a) → u.read a = s.read a) ∧
      u.dev.regs = s.dev.regs ∧ u.dev.counters = s.dev.counters ∧ u.dev.tiles = s.dev.tiles)) ∧
  (∀ (s : State) (c : Fin 64) (v : Fin 8), ((s.dev.ctx c).stage v).prevLive = true → ((s.dev.ctx c).stage v).prevRefs = 0 →
    s.dev.rf (Reg.ctxPipeCtrl c) 19 0 ≤ (s.dev.lode.count - ((s.dev.ctx c).stage v).prevIdleLt).toNat → NoBad s →
    Ends (.versionRetire c v) s (fun u => (u.dev.ctx c).stage v = { (s.dev.ctx c).stage v with prevLive := false, retireNow := false } ∧
      (s.begin.ownedShards s.mem c v = [] → u.mem = s.mem) ∧ u.dev.regs = s.dev.regs ∧ u.dev.tiles = s.dev.tiles)) ∧
  (∀ (s : State) (c : Fin 64) (v : Fin 8), ((s.dev.ctx c).stage v).prevRefs ≠ 0 → Quiet (.versionRetire c v) s s.begin) ∧
  (∀ (s : State) (r : Requester) (c : Fin 64) (v : BitVec 32) (b : Nat), Heard s r (Reg.ctxPipeCtrl c) v → s.dev.mayWriteCtx r c = true →
    fb v 30 28 = 0 → s.dev.rb (Reg.ctxPipeCtrl c) 31 = false → v.getLsbD 31 = true → b = s.dev.reg64 (Reg.ctxPipeBaseLo c) % 2 ^ 41 / 256 * 256 →
    EngineReaches s c b 2112 →
    s.begin.tableFault s.mem { s.dev.ctx c with pipe := { (s.dev.ctx c).pipe with table := peekN s.mem s.begin b 2112 } } c = none →
    Ends (.pipeEnable r c v) s (fun u => (u.dev.ctx c).pipe.state = .running ∧ (u.dev.ctx c).pipe.table = peekN s.mem s.begin b 2112 ∧
      u.dev.rf (Reg.ctxPipeStatus c) 7 0 = (u.dev.ctx c).vsMask % 256 ∧ u.dev.reg (Reg.ctxPipeDiverged c) = 0xFFFFFFFF ∧ u.mem = s.mem ∧
      u.dev.tiles = s.dev.tiles ∧ u.dev.counters = s.dev.counters)) ∧
  (∀ (s : State) (r : Requester) (c : Fin 64) (v : BitVec 32) (b e : Nat), Heard s r (Reg.ctxPipeCtrl c) v → s.dev.mayWriteCtx r c = true →
    fb v 30 28 = 0 → s.dev.rb (Reg.ctxPipeCtrl c) 31 = false → v.getLsbD 31 = true → b = s.dev.reg64 (Reg.ctxPipeBaseLo c) % 2 ^ 41 / 256 * 256 →
    EngineReaches s c b 2112 →
    s.begin.tableFault s.mem { s.dev.ctx c with pipe := { (s.dev.ctx c).pipe with table := peekN s.mem s.begin b 2112 } } c = some e →
    Ends (.pipeEnable r c v) s (fun u => (u.dev.ctx c).pipe.state = .fault ∧ (u.dev.ctx c).pipe.stages = (s.dev.ctx c).pipe.stages ∧ u.mem = s.mem ∧
      u.dev.tiles = s.dev.tiles)) ∧
  (∀ (s : State) (r : Requester) (c : Fin 64) (v : BitVec 32), Heard s r (Reg.ctxPipeCtrl c) v → s.dev.mayWriteCtx r c = true →
    fb v 30 28 = 0 → s.dev.rb (Reg.ctxPipeCtrl c) 31 = true → v.getLsbD 31 = false →
    Ends (.pipeEnable r c v) s (fun u => (u.dev.ctx c).pipe = { (s.dev.ctx c).pipe with state := .stopped } ∧ u.mem = s.mem ∧
      u.dev.tiles = s.dev.tiles ∧ u.dev.counters = s.dev.counters)) ∧
  (∀ (s : State) (r : Requester) (c : Fin 64), Heard s r (Reg.ctxPipeCtrl c) (s.dev.pipeCmd c 1) → s.dev.mayWriteCtx r c = true →
    (s.dev.ctx c).pipe.state = .stopped → NoBad s →
    Ends (.pipeFlush r c) s (fun u => (u.dev.ctx c).pipe.state = .stopped ∧
      (∀ v, v ∈ (s.dev.ctx c).stageList → ((u.dev.ctx c).stage v).curRefs = 0 ∧ ((u.dev.ctx c).stage v).prevRefs = 0 ∧
        ((u.dev.ctx c).stage v).prevLive = false ∧ ((u.dev.ctx c).stage v).stashUsed = [] ∧ ((u.dev.ctx c).stage v).fwdOut = none) ∧
      u.dev.tiles = s.dev.tiles)) ∧
  (∀ (s : State) (r : Requester) (c : Fin 64), Heard s r (Reg.ctxPipeCtrl c) (s.dev.pipeCmd c 2) → s.dev.mayWriteCtx r c = true → NoBad s →
    Ends (.pipeRetireNow r c) s (fun u =>
      (∀ v, v ∈ (s.dev.ctx c).stageList → ((s.dev.ctx c).stage v).prevLive = true →
        (((s.dev.ctx c).stage v).prevRefs = 0 → ((u.dev.ctx c).stage v).prevLive = false) ∧
        (((s.dev.ctx c).stage v).prevRefs ≠ 0 → (u.dev.ctx c).stage v = { (s.dev.ctx c).stage v with retireNow := true })) ∧
      (u.dev.ctx c).pipe.state = (s.dev.ctx c).pipe.state ∧ u.dev.tiles = s.dev.tiles))

/-- Pequa ports (R327 to R329, R338, R350): flits in and out, training, PARAM and CREDIT_INIT, retraining, going down, and the port's commands. -/
def Obligations.PequaPortsTrainRunAndGoDown : Prop :=
  (∀ (s : State) (p : Fin 4) (f : FlitIn), (s.dev.host p).state = .active → f.crcOk = true → fb f.bits 75 74 = 0 → f.bits.getLsbD 119 = false →
    f.bits.getLsbD 118 = false → fb f.bits 143 132 = ((s.dev.host p).rxSeq + 1).toNat →
    Ends (.pequaFlitReceive p f) s (fun u => (u.dev.host p).rxSeq = (s.dev.host p).rxSeq + 1 ∧ (u.dev.host p).ackDue = true ∧ (u.dev.host p).nakDue = false ∧
      (u.dev.host p).nakSent = false ∧ (u.dev.host p).state = .active ∧ (∀ q : Nat, q ≠ p.val → u.dev.host q = s.dev.host q) ∧ u.mem = s.mem ∧
      u.dev.regs = s.dev.regs ∧ u.dev.counters = s.dev.counters)) ∧
  (∀ (s : State) (p : Fin 4) (f : FlitIn), (s.dev.host p).state = .active → f.crcOk = false →
    Quiet (.pequaFlitReceive p f) s (if (s.dev.host p).nakSent then s.begin else s.begin.setHost p { s.dev.host p with nakDue := true })) ∧
  (∀ (s : State) (p : Fin 4), (s.dev.host p).state = .param → (s.dev.host p).owed = [] →
    Ends (.pequaFlitSend p) s (fun u => (∃ b : BitVec 2048, u.dev.out = [.flit p.val b] ∧ fb b 75 74 = 2 ∧ fb b 151 144 = 1 ∧ fb b 159 152 = p.val) ∧
      (u.dev.host p).state = .param ∧ u.mem = s.mem ∧ u.dev.regs = s.dev.regs ∧ u.dev.counters = s.dev.counters)) ∧
  (∀ (s : State) (p : Fin 4) (k : HPacket), (s.dev.host p).state = .active → (s.dev.host p).ctrlQueue = [] → (s.dev.host p).toReplay = 0 →
    (s.dev.host p).txUnits = [] → (s.dev.host p).tx = [k] → k.units ≤ mget 0 (s.dev.host p).credits k.cls → k.cls < 3 → (hpUnits k).length ≤ 14 →
    (s.dev.host p).unacked.length < 1024 →
    Ends (.pequaFlitSend p) s (fun u => (u.dev.host p).tx = [] ∧ (u.dev.host p).txSeq = (s.dev.host p).txSeq + 1 ∧
      (u.dev.host p).unacked.length = (s.dev.host p).unacked.length + 1 ∧
      mget 0 (u.dev.host p).credits k.cls = mget 0 (s.dev.host p).credits k.cls - k.units ∧ u.dev.out.length = 1 ∧
      (∀ q : Nat, q ≠ p.val → u.dev.host q = s.dev.host q) ∧ u.mem = s.mem ∧ u.dev.regs = s.dev.regs ∧ u.dev.counters = s.dev.counters)) ∧
  (∀ (s : State) (p : Fin 4), (s.dev.host p).state = .active → (s.dev.host p).unacked ≠ [] →
    Ends (.pequaAckTimeout p) s (fun u => (u.dev.host p).state = .retrain ∧ (u.dev.host p).unacked = (s.dev.host p).unacked ∧
      u.dev.count (Reg.devHpRetrains p) = s.dev.count (Reg.devHpRetrains p) + 1 ∧ u.dev.tags = s.dev.tags ∧ u.mem = s.mem ∧ u.dev.regs = s.dev.regs)) ∧
  (∀ (s : State) (p : Fin 4) (h : BitVec 64) (coh : Bool) (n : BitVec 16), (s.dev.host p).state = .param → h ≠ 0 → n ≠ 0 → n.toNat ≤ 4096 →
    (s.dev.host p).lastHostId = 0 ∨ (s.dev.host p).lastHostId = h →
    Quiet (.pequaParam p h coh n) s (s.begin.setHost p { s.dev.host p with state := .credit, hostId := h, lastHostId := h, cohReq := coh, cohFenced := false, tags := n.toNat, ctrlQueue := [hostCreditInit] })) ∧
  (∀ (s : State) (p : Fin 4) (h : BitVec 64) (coh : Bool) (n : BitVec 16), (s.dev.host p).state = .param → h ≠ 0 → n ≠ 0 → n.toNat ≤ 4096 →
    (s.dev.host p).lastHostId ≠ 0 → (s.dev.host p).lastHostId ≠ h →
    Ends (.pequaParam p h coh n) s (fun u => u.dev.admin.getLsbD p.val = false ∧ (u.dev.host p).hostId = h ∧ (u.dev.host p).state = .credit ∧
      (∀ c, c < 64 → s.dev.boundTo c p = true → (u.dev.ctx c).state = .teardown ∨ (u.dev.ctx c).state = .quarantine))) ∧
  (∀ (s : State) (p : Fin 4) (a b c : BitVec 16), (s.dev.host p).state = .credit →
    (∀ x, x < 64 → (s.dev.ctx x).state = .teardown → (s.dev.ctx x).port ≠ p.val) →
    Ends (.pequaCreditInit p a b c) s (fun u => (u.dev.host p).state = .active ∧ (u.dev.host p).credits = [(0, a.toNat), (1, b.toNat), (2, c.toNat)] ∧
      u.mem = s.mem ∧ u.dev.regs = s.dev.regs ∧ u.dev.tiles = s.dev.tiles)) ∧
  (∀ (s : State) (p : Fin 4) (n : Fin 17) (r : BitVec 2), (s.dev.host p).state = .phyTrain → 4 ≤ n.val →
    Ends (.pequaPhyTrainDone p n r) s (fun u => (u.dev.host p).state = .param ∧ (u.dev.host p).rate = r ∧
      (u.dev.host p).width = (if n.val = 16 then 3 else if 8 ≤ n.val then 2 else 1) ∧ u.mem = s.mem ∧ u.dev.regs = s.dev.regs ∧ u.dev.tiles = s.dev.tiles)) ∧
  (∀ (s : State) (p : Fin 4) (n : Fin 17) (r : BitVec 2), (s.dev.host p).state = .phyTrain → n.val < 4 →
    Ends (.pequaPhyTrainDone p n r) s (fun u => (u.dev.host p).state = .failed ∧ u.mem = s.mem ∧ u.dev.regs = s.dev.regs ∧ u.dev.tiles = s.dev.tiles)) ∧
  (∀ (s : State) (p : Fin 4), (s.dev.host p).state = .down → s.dev.hostMayTrain p = true →
    Quiet (.pequaRetryTimer p) s (s.begin.setHost p { s.dev.host p with state := .phyTrain })) ∧
  (∀ (s : State) (p : Fin 4), (s.dev.host p).state = .retrain →
    Ends (.l0Regained p) s (fun u => (u.dev.host p).state = .active ∧ (u.dev.host p).toReplay = (s.dev.host p).unacked.length ∧
      (u.dev.host p).unacked = (s.dev.host p).unacked ∧ (u.dev.host p).nakCount = 0 ∧ u.mem = s.mem ∧ u.dev.regs = s.dev.regs ∧
      u.dev.counters = s.dev.counters)) ∧
  (∀ (s : State) (p : Fin 4) (x : BitVec 8), (s.dev.host p).state = .active → TakesHostDown (.pequaDown p x) s p .down) ∧
  (∀ (s : State) (p : Fin 4), (s.dev.host p).state = .param ∨ (s.dev.host p).state = .credit ∨ (s.dev.host p).state = .retrain ∨ (s.dev.host p).state = .phyTrain →
    TakesHostDown (.pequaStateTimeout p) s p .down) ∧
  (∀ (s : State) (p : Fin 4), (s.dev.host p).state = .active ∨ (s.dev.host p).state = .retrain → TakesHostDown (.pequaLinkLoss p) s p .down) ∧
  (∀ (s : State) (r : Requester) (p : Fin 4), Heard s r (Reg.devHpCtrl p) (s.dev.hpCtrlWith p 1) → isCtx0 r = true → (s.dev.host p).state = .active →
    1 ≤ s.dev.rf (Reg.devHpCtrl p) 11 0 → s.dev.rf (Reg.devHpCtrl p) 11 0 ≤ 3600 →
    Ends (.devHpRetrain r p) s (fun u => (u.dev.host p).state = .retrain ∧
      u.dev.count (Reg.devHpRetrains p) = s.dev.count (Reg.devHpRetrains p) + 1 ∧ u.dev.tags = s.dev.tags ∧ u.mem = s.mem)) ∧
  (∀ (s : State) (r : Requester) (p : Fin 4), Heard s r (Reg.devHpCtrl p) (s.dev.hpCtrlWith p 2) → isCtx0 r = true → (s.dev.host p).state ≠ .disabled →
    (s.dev.host p).state ≠ .failed → 1 ≤ s.dev.rf (Reg.devHpCtrl p) 11 0 → s.dev.rf (Reg.devHpCtrl p) 11 0 ≤ 3600 →
    TakesHostDown (.devHpDisable r p) s p .disabled) ∧
  (∀ (s : State) (r : Requester) (p : Fin 4), Heard s r (Reg.devHpCtrl p) (s.dev.hpCtrlWith p 3) → isCtx0 r = true → (s.dev.host p).state = .disabled →
    1 ≤ s.dev.rf (Reg.devHpCtrl p) 11 0 → s.dev.rf (Reg.devHpCtrl p) 11 0 ≤ 3600 →
    Ends (.devHpEnable r p) s (fun u => (u.dev.host p).state = .down ∧ (∀ q : Nat, q ≠ p.val → u.dev.host q = s.dev.host q) ∧ u.mem = s.mem ∧
      u.dev.counters = s.dev.counters ∧ u.dev.tiles = s.dev.tiles))

/-- Host memory (R332 to R335): DRD, DWR, the grants of DRD_S and DRD_E, DEVICT, the answer to a snoop, snoops of the host, and a snoop that
stays unanswered. -/
def Obligations.HostMemoryRequestsArePerformed : Prop :=
  (∀ (s : State) (p : Fin 4) (k : HPacket), HostMay s p k 1 → inBlock (k.addr % 2 ^ 41) k.len = true → Reaches s k.ctx (k.addr % 2 ^ 41) k.len →
    Ends (.drd p k) s (fun u => HostAnswers s u p k 0x0B 0 (peekN s.mem s.begin (k.addr % 2 ^ 41) k.len) ∧ u.mem = s.mem ∧ u.dev.regs = s.dev.regs ∧
      u.dev.tiles = s.dev.tiles ∧ u.dev.directory = s.dev.directory)) ∧
  (∀ (s : State) (p : Fin 4) (k : HPacket), (s.dev.host p).up = true → k.opc = 1 → s.dev.hostBehind p k = false → s.dev.boundTo k.ctx p = false →
    Ends (.drd p k) s (fun u => HostAnswers s u p k 0x0B 5 [] ∧ u.mem = s.mem ∧ u.dev.regs = s.dev.regs ∧ u.dev.tiles = s.dev.tiles ∧
      u.dev.counters = s.dev.counters)) ∧
  (∀ (s : State) (p : Fin 4) (k : HPacket), HostMay s p k 2 → inBlock (k.addr % 2 ^ 41) k.len = true → k.data.length = k.len →
    Reaches s k.ctx (k.addr % 2 ^ 41) k.len →
    Ends (.dwr p k) s (fun u => HostAnswers s u p k 0x0C 0 [] ∧ Holds u (k.addr % 2 ^ 41) k.data ∧ SameMemBut s u (k.addr % 2 ^ 41) k.len ∧
      u.dev.regs = s.dev.regs ∧ u.dev.counters = s.dev.counters ∧ u.dev.directory = s.dev.directory)) ∧
  (∀ (s : State) (p : Fin 4) (k : HPacket) (a : Nat), HostMay s p k 3 → a = k.addr % 2 ^ 41 → s.dev.coherent p = true → (s.dev.host p).cohFenced = false →
    a % 64 = 0 → k.len = 64 → s.dev.inCohRange k.ctx a = true → Reaches s k.ctx a 64 →
    Ends (.drdS p k) s (fun u => HostAnswers s u p k 0x0B 0 (peekN s.mem s.begin a 64) ∧
      (∃ e : DirEntry, u.dev.directory = [(a / 64, e)] ∧ e.exclusive = false ∧ e.sharers = BitVec.ofNat 4 (2 ^ p.val)) ∧ u.mem = s.mem ∧ u.dev.regs = s.dev.regs ∧
      u.dev.tiles = s.dev.tiles)) ∧
  (∀ (s : State) (p : Fin 4) (k : HPacket) (a : Nat), HostMay s p k 4 → a = k.addr % 2 ^ 41 → s.dev.coherent p = true → (s.dev.host p).cohFenced = false →
    a % 64 = 0 → k.len = 64 → s.dev.inCohRange k.ctx a = true → Reaches s k.ctx a 64 →
    Ends (.drdE p k) s (fun u => HostAnswers s u p k 0x0B 0 (peekN s.mem s.begin a 64) ∧
      (∃ e : DirEntry, u.dev.directory = [(a / 64, e)] ∧ e.exclusive = true ∧ e.sharers = BitVec.ofNat 4 (2 ^ p.val)) ∧ u.mem = s.mem ∧ u.dev.regs = s.dev.regs ∧
      u.dev.tiles = s.dev.tiles)) ∧
  (∀ (s : State) (p : Fin 4) (k : HPacket), HostMay s p k 3 → s.dev.coherent p = false →
    Ends (.drdS p k) s (fun u => HostAnswers s u p k 0x0B 6 [] ∧ u.dev.directory = s.dev.directory ∧ u.mem = s.mem ∧ u.dev.regs = s.dev.regs ∧
      u.dev.counters = s.dev.counters)) ∧
  (∀ (s : State) (p : Fin 4) (k : HPacket) (a : Nat) (e : DirEntry), HostMay s p k 5 → a = k.addr % 2 ^ 41 → s.dev.coherent p = true →
    (s.dev.host p).cohFenced = false → s.dev.inCohRange k.ctx a = true → a % 64 = 0 → k.len = 0 → s.dev.directory = [(a / 64, e)] →
    e.sharers = BitVec.ofNat 4 (2 ^ p.val) →
    Ends (.devict p k) s (fun u => HostAnswers s u p k 0x0C 0 [] ∧ u.dev.directory = [] ∧ u.mem = s.mem ∧ u.dev.regs = s.dev.regs ∧
      u.dev.counters = s.dev.counters)) ∧
  (∀ (s : State) (p : Fin 4) (k : HPacket) (a : Nat) (e : DirEntry), HostMay s p k 5 → a = k.addr % 2 ^ 41 → s.dev.coherent p = true →
    (s.dev.host p).cohFenced = false → s.dev.inCohRange k.ctx a = true → a % 64 = 0 → k.len = 64 → k.data.length = 64 → isHbm a = true → NoBad s →
    s.dev.directory = [(a / 64, e)] → e.sharers = BitVec.ofNat 4 (2 ^ p.val) →
    Ends (.devict p k) s (fun u => HostAnswers s u p k 0x0C 0 [] ∧ u.dev.directory = [] ∧ Holds u a k.data ∧ SameMemBut s u a 64 ∧
      u.dev.regs = s.dev.regs ∧ u.dev.counters = s.dev.counters)) ∧
  (∀ (s : State) (p : Fin 4) (k : HPacket) (x : Snoop) (e : DirEntry), (s.dev.host p).up = true → k.opc = 0x0A → s.dev.snoops = [x] → x.port = p.val → x.tag = k.tag →
    x.inval = true → k.data.length = 64 → isHbm (64 * x.line) = true → NoBad s → s.dev.waiting = [] → s.dev.directory = [(x.line, e)] →
    e.sharers = BitVec.ofNat 4 (2 ^ p.val) → (∀ c, c < 64 → (s.dev.ctx c).state ≠ .teardown) →
    Ends (.hsrsp p k) s (fun u => u.dev.snoops = [] ∧ u.dev.directory = [] ∧ Holds u (64 * x.line) k.data ∧ SameMemBut s u (64 * x.line) 64 ∧
      u.dev.regs = s.dev.regs ∧ u.dev.counters = s.dev.counters ∧ u.dev.tiles = s.dev.tiles)) ∧
  (∀ (s : State) (p : Fin 4) (k : HPacket) (c i : Nat), (s.dev.host p).up = true → k.opc = 0x15 → s.dev.linesAt p k.addr = [(c, i)] →
    Ends (.hsnpI p k) s (fun u => HostAnswers s u p k 0x17 0 (if (s.dev.watched c i).dirty then toLE 64 (s.dev.watched c i).data.toNat else []) ∧
      u.dev.watched c i = { taking := (s.dev.watched c i).taking } ∧ u.mem = s.mem ∧ u.dev.regs = s.dev.regs ∧ u.dev.counters = s.dev.counters)) ∧
  (∀ (s : State) (p : Fin 4) (k : HPacket) (c i : Nat), (s.dev.host p).up = true → k.opc = 0x16 → s.dev.linesAt p k.addr = [(c, i)] →
    Ends (.hsnpS p k) s (fun u => HostAnswers s u p k 0x17 0 (if (s.dev.watched c i).dirty then toLE 64 (s.dev.watched c i).data.toNat else []) ∧
      u.dev.watched c i = { s.dev.watched c i with shared := true, dirty := false } ∧ u.mem = s.mem ∧ u.dev.regs = s.dev.regs ∧
      u.dev.counters = s.dev.counters)) ∧
  (∀ (s : State) (p : Fin 4), s.dev.snoops.any (fun x => x.port == p.val) = true → s.dev.waiting = [] → (∀ c, c < 64 → (s.dev.ctx c).state ≠ .teardown) →
    Ends (.dsnpTimeout p) s (fun u => (u.dev.host p).cohFenced = true ∧ (∀ x, x ∈ u.dev.snoops → x.port ≠ p.val) ∧
      (∀ l e, mfind u.dev.directory l = some e → e.sharers.getLsbD p.val = false) ∧ u.mem = s.mem ∧ u.dev.regs = s.dev.regs ∧ u.dev.tiles = s.dev.tiles))

/-- Watched lines and host responses (R335, R339, R340, R347): a line is asked for, comes, and holds the next record, which is accepted; a
response to nothing, or to a retired request, is dropped. -/
def Obligations.WatchedLinesBringRunRecords : Prop :=
  (∀ (s : State) (c l : Fin 64) (n : Nat), s.dev.runOn? c = true → l.val < s.dev.runLines c → s.dev.coherent (s.dev.ctx c).port = false →
    (s.dev.host (s.dev.ctx c).port).up = true → (s.dev.watched c l).taking = false → s.dev.freeHostTag (s.dev.ctx c).port = some n → n < 4096 →
    Ends (.watchPoll c l) s (fun u => AsksLine s u c l (s.dev.ctx c).port 0x10 n)) ∧
  (∀ (s : State) (c l : Fin 64) (n : Nat), s.dev.runOn? c = true → l.val < s.dev.runLines c → s.dev.coherent (s.dev.ctx c).port = true →
    (s.dev.host (s.dev.ctx c).port).up = true → (s.dev.watched c l).held = false → (s.dev.watched c l).taking = false →
    s.dev.freeHostTag (s.dev.ctx c).port = some n → n < 4096 →
    Ends (.runLineReacquire c l) s (fun u => AsksLine s u c l (s.dev.ctx c).port 0x13 n)) ∧
  (∀ (s : State) (c l : Fin 64), (s.dev.watched c l).held = true → (s.dev.watched c l).shared = false → Quiet (.runLineReacquire c l) s s.begin) ∧
  (∀ (s : State) (p : Fin 4) (k : HPacket) (t : Tag) (l : Nat), (s.dev.host p).up = true → k.opc = 0x18 → s.dev.hostAnswered p k = some t → t.reserved = false →
    k.gen = s.dev.genOf t.ctx → k.status = 0 → t.purpose = .runLine → t.b = l → (s.dev.ctx t.a).port = p.val → s.dev.coherent p = true → k.grant = 2 →
    s.dev.runOn? t.a = true → l < s.dev.runLines t.a → (s.dev.ctx t.a).runNext.toNat % s.dev.runLines t.a = l →
    fb (BitVec.ofNat 512 (leOf k.data)) 31 0 ≠ (s.dev.ctx t.a).runNext.toNat → (s.dev.host p).waiting = [] →
    Ends (.hdata p k) s (fun u => u.dev.watched t.a l = { held := true, data := BitVec.ofNat 512 (leOf k.data) } ∧
      (u.dev.ctx t.a).runs = (s.dev.ctx t.a).runs ∧ (u.dev.ctx t.a).runNext = (s.dev.ctx t.a).runNext ∧ (∀ x, x ∈ u.dev.tags → x.port = t.port → x.tag ≠ t.tag) ∧
      u.mem = s.mem ∧ u.dev.regs = s.dev.regs ∧ u.dev.counters = s.dev.counters ∧ u.dev.tiles = s.dev.tiles)) ∧
  (∀ (s : State) (p : Fin 4) (k : HPacket) (t : Tag) (l : Nat) (x : Run), (s.dev.host p).up = true → k.opc = 0x18 → s.dev.hostAnswered p k = some t → t.reserved = false →
    k.gen = s.dev.genOf t.ctx → k.status = 0 → t.purpose = .runLine → t.b = l → (s.dev.ctx t.a).port = p.val → s.dev.coherent p = true → k.grant = 2 →
    s.dev.runOn? t.a = true → l < s.dev.runLines t.a → (s.dev.ctx t.a).runNext.toNat % s.dev.runLines t.a = l →
    x = { seq := (s.dev.ctx t.a).runNext, record := BitVec.ofNat 512 (leOf k.data) } → fb x.record 31 0 = x.seq.toNat → fb x.record 63 56 = 0 →
    s.dev.cplFree t.a x.seq = true → s.dev.refuses t.a x = false → (x.seq + 1).toNat % s.dev.runLines t.a ≠ l →
    (s.dev.watched t.a ((x.seq + 1).toNat % s.dev.runLines t.a)).held = false →
    Ends (.hdata p k) s (fun u => (u.dev.ctx t.a).runs = (s.dev.ctx t.a).runs ++ [x] ∧ (u.dev.ctx t.a).runNext = x.seq + 1 ∧
      fb (u.dev.watched t.a l).data 63 56 = 1 ∧ (u.dev.watched t.a l).dirty = true ∧ u.mem = s.mem ∧ u.dev.regs = s.dev.regs ∧
      u.dev.counters = s.dev.counters ∧ u.dev.tiles = s.dev.tiles)) ∧
  (∀ (s : State) (p : Fin 4) (k : HPacket), (s.dev.host p).up = true → k.opc = 0x18 → s.dev.hostAnswered p k = none →
    Quiet (.hdata p k) s ((s.begin.takenHost p k).bump (Reg.ctxStaleDrop k.ctx))) ∧
  (∀ (s : State) (p : Fin 4) (k : HPacket), (s.dev.host p).up = true → k.opc = 0x19 → s.dev.hostAnswered p k = none →
    Quiet (.hcmp p k) s ((s.begin.takenHost p k).bump (Reg.ctxStaleDrop k.ctx))) ∧
  (∀ (s : State) (p : Fin 4) (k : HPacket) (t : Tag), (s.dev.host p).up = true → k.opc = 0x19 → s.dev.hostAnswered p k = some t → t.reserved = false →
    k.gen = s.dev.genOf t.ctx → k.status = 0 → t.purpose = .evtValid → (s.dev.host p).waiting = [] →
    Ends (.hcmp p k) s (fun u => (∀ x, x ∈ u.dev.tags → x.port = t.port → x.tag ≠ t.tag) ∧ u.dev.ctxs = s.dev.ctxs ∧ u.mem = s.mem ∧
      u.dev.regs = s.dev.regs ∧ u.dev.counters = s.dev.counters ∧ u.dev.tiles = s.dev.tiles)) ∧
  (∀ (s : State) (p : Fin 4) (k : HPacket) (t : Tag), (s.dev.host p).up = true → k.opc = 0x19 → s.dev.hostAnswered p k = some t → t.reserved = true →
    Ends (.hcmp p k) s (fun u => u.dev.count (Reg.ctxStaleDrop k.ctx) = s.dev.count (Reg.ctxStaleDrop k.ctx) + 1 ∧ u.dev.ctxs = s.dev.ctxs ∧
      u.mem = s.mem ∧ u.dev.regs = s.dev.regs ∧ u.dev.tiles = s.dev.tiles)) ∧
  (∀ (s : State) (p : Fin 4) (k : HPacket) (t : Tag) (y : Run), (s.dev.host p).up = true → k.opc = 0x19 → s.dev.hostAnswered p k = some t → t.reserved = false →
    k.gen = s.dev.genOf t.ctx → k.status = 0 → t.purpose = .cplBody → s.dev.findRun t.a (BitVec.ofNat 32 t.b) = some y → y.state = .ending → y.evt = false →
    s.dev.tags.any (fun z => z.purpose == .copyWrite) = false →
    Ends (.hcmp p k) s (fun u => u.dev.findRun t.a (BitVec.ofNat 32 t.b) = none ∧ (t.b % 2 ^ 32) ∈ (u.dev.ctx t.a).cplValid ∧
      u.dev.count (Reg.ctxRunsDone t.a) = s.dev.count (Reg.ctxRunsDone t.a) + 1 ∧ u.mem = s.mem ∧ u.dev.regs = s.dev.regs ∧ u.dev.tiles = s.dev.tiles))

/-- Runs (R341, R345, R348): RUN starts its tiles, COPY its reads, a NOP and a FENCE complete, an ABORT finds its target or not, DONE_SEM and
a deadline end a run. -/
def Obligations.RunsStartAndComplete : Prop :=
  (∀ (s : State) (c : Fin 64) (q : BitVec 32) (x : Run), s.dev.findRun c q = some x → x.op = 1 → s.dev.mayStart c x = true →
    (maskTiles x.tileMask).find? (fun t => s.dev.lost (dieOf t)) = none → x.inBytes = 0 →
    Ends (.run c q) s (fun u => u.dev.findRun c q = some { x with state := .running, startLt := s.dev.lode.count, started := true } ∧
      (∀ t, t ∈ maskTiles x.tileMask → (s.dev.tile t).state ≠ .retired → (u.dev.tile t).sem x.startSem = true) ∧
      (∀ t, ¬ t ∈ maskTiles x.tileMask → u.dev.tile t = s.dev.tile t) ∧ u.mem = s.mem ∧ u.dev.regs = s.dev.regs ∧ u.dev.counters = s.dev.counters ∧
      u.dev.tags = s.dev.tags)) ∧
  (∀ (s : State) (c : Fin 64) (q : BitVec 32) (x : Run), s.dev.findRun c q = some x → x.op = 2 → s.dev.mayStart c x = true → x.toHost = false →
    x.issued < x.length →
    Ends (.copy c q) s (fun u => u.dev.findRun c q = some { x with state := .running, startLt := s.dev.lode.count, issued := x.issued + pieceAt (x.hostAddr + x.issued) (x.length - x.issued) } ∧
      u.mem = s.mem ∧ u.dev.regs = s.dev.regs ∧ u.dev.counters = s.dev.counters ∧ u.dev.tiles = s.dev.tiles)) ∧
  (∀ (s : State) (c : Fin 64) (q : BitVec 32) (x : Run), s.dev.findRun c q = some x → x.op = 0 → s.dev.mayStart c x = true →
    Ends (.runNop c q) s (fun u => Completes s u c q 0 ∧ u.mem = s.mem ∧ u.dev.regs = s.dev.regs ∧ u.dev.counters = s.dev.counters ∧
      u.dev.tiles = s.dev.tiles)) ∧
  (∀ (s : State) (c : Fin 64) (q : BitVec 32) (x : Run), s.dev.findRun c q = some x → x.op = 4 → s.dev.mayStart c x = true →
    earlier (s.dev.ctx c).runs q = [] →
    Ends (.fence c q) s (fun u => Completes s u c q 0 ∧ u.mem = s.mem ∧ u.dev.regs = s.dev.regs ∧ u.dev.counters = s.dev.counters ∧
      u.dev.tiles = s.dev.tiles)) ∧
  (∀ (s : State) (c : Fin 64) (q : BitVec 32) (x : Run), s.dev.findRun c q = some x → x.op = 4 → s.dev.mayStart c x = true →
    earlier (s.dev.ctx c).runs q ≠ [] →
    Ends (.fence c q) s (fun u => u.dev.findRun c q = some { x with state := .running, startLt := s.dev.lode.count } ∧ u.dev.tags = s.dev.tags ∧ u.mem = s.mem ∧
      u.dev.regs = s.dev.regs ∧ u.dev.counters = s.dev.counters ∧ u.dev.tiles = s.dev.tiles)) ∧
  (∀ (s : State) (c : Fin 64) (q : BitVec 32) (x : Run), s.dev.findRun c q = some x → x.op = 1 → x.state = .running → x.started = true →
    (s.dev.tile (leadTile x.tileMask)).sem x.doneSem = true →
    Ends (.runComplete c q) s (fun u => Completes s u c q 0 ∧ (u.dev.tile (leadTile x.tileMask)).sem x.doneSem = false ∧
      (∀ t, t ≠ leadTile x.tileMask → u.dev.tile t = s.dev.tile t) ∧ u.mem = s.mem ∧ u.dev.regs = s.dev.regs ∧ u.dev.counters = s.dev.counters)) ∧
  (∀ (s : State) (c : Fin 64) (q : BitVec 32) (x : Run), s.dev.findRun c q = some x → x.op = 2 → x.state = .running → x.length ≤ x.moved →
    s.dev.copyOut c q = false →
    Ends (.copyComplete c q) s (fun u => Completes s u c q 0 ∧ u.mem = s.mem ∧ u.dev.regs = s.dev.regs ∧ u.dev.counters = s.dev.counters ∧
      u.dev.tiles = s.dev.tiles)) ∧
  (∀ (s : State) (c : Fin 64) (q : BitVec 32) (x : Run), s.dev.findRun c q = some x → x.op = 3 → x.state = .waiting → s.dev.bound c = true →
    (earlier (s.dev.ctx c).runs q).find? (fun y => y.seq == BitVec.ofNat 32 x.target) = none →
    Ends (.abort c q) s (fun u => Completes s u c q 2 ∧ u.mem = s.mem ∧ u.dev.regs = s.dev.regs ∧ u.dev.counters = s.dev.counters ∧
      u.dev.tiles = s.dev.tiles)) ∧
  (∀ (s : State) (c : Fin 64) (q : BitVec 32) (x y : Run), s.dev.findRun c q = some x → x.op = 3 → x.state = .waiting → s.dev.bound c = true →
    (earlier (s.dev.ctx c).runs q).find? (fun y => y.seq == BitVec.ofNat 32 x.target) = some y → y.state = .waiting →
    Ends (.abort c q) s (fun u => Completes s u c q 0 ∧ Completes s u c (BitVec.ofNat 32 x.target) 1 ∧ u.mem = s.mem ∧ u.dev.regs = s.dev.regs ∧
      u.dev.counters = s.dev.counters ∧ u.dev.tiles = s.dev.tiles)) ∧
  (∀ (s : State) (c : Fin 64) (q : BitVec 32) (x : Run), s.dev.findRun c q = some x → x.deadlineEn = true → x.deadline ≤ s.dev.now → x.state ≠ .ending →
    Ends (.runDeadline c q) s (fun u => Completes s u c q 4 ∧ u.mem = s.mem ∧ u.dev.regs = s.dev.regs ∧ u.dev.counters = s.dev.counters ∧
      u.dev.tiles = s.dev.tiles)) ∧
  (∀ (s : State) (c : Fin 64) (q : BitVec 32) (x : Run), s.dev.findRun c q = some x → x.deadlineEn = false → Quiet (.runDeadline c q) s s.begin)

/-- Rings and contexts (R337, R338, R342, R344, R346): the completion ring is enabled and consumed, the event ring is consumed, a bind gives its
result, a teardown and its quarantine end. -/
def Obligations.RingsAndContextsAreBoundAndTornDown : Prop :=
  (∀ (s : State) (r : Requester) (c : Fin 64) (v : BitVec 32), Heard s r (Reg.ctxCplCtrl c) v → s.dev.mayWriteCtx r c = true →
    s.dev.rb (Reg.ctxCplCtrl c) 31 = false → v.getLsbD 31 = true → 4 ≤ fb v 4 0 → fb v 4 0 ≤ 16 → s.dev.bound c = true →
    (s.dev.watched c ((s.dev.ctx c).runNext.toNat % s.dev.runLines c)).held = false →
    Ends (.ctxCplEnable r c v) s (fun u => u.dev.rb (Reg.ctxCplCtrl c) 31 = true ∧ u.dev.rf (Reg.ctxCplCtrl c) 4 0 = fb v 4 0 ∧
      (u.dev.ctx c).cplValid = [] ∧ (u.dev.ctx c).runs = (s.dev.ctx c).runs ∧ u.mem = s.mem ∧ u.dev.counters = s.dev.counters ∧ u.dev.tiles = s.dev.tiles)) ∧
  (∀ (s : State) (r : Requester) (c : Fin 64) (v : BitVec 32), Heard s r (Reg.ctxCplCtrl c) v → s.dev.mayWriteCtx r c = true → 16 < fb v 4 0 →
    Ends (.ctxCplEnable r c v) s (fun u => u.dev.reg (Reg.ctxCplCtrl c) = s.dev.reg (Reg.ctxCplCtrl c) ∧ u.dev.ctxs = s.dev.ctxs ∧ u.mem = s.mem ∧
      u.dev.counters = s.dev.counters)) ∧
  (∀ (s : State) (r : Requester) (c : Fin 64) (v : BitVec 32) (l : List Nat), Heard s r (Reg.ctxCplCons c) v → s.dev.mayWriteCtx r c = true →
    seqRange (s.dev.reg (Reg.ctxCplCons c)) v (2 ^ s.dev.rf (Reg.ctxCplCtrl c) 4 0) = some l → (∀ x, x ∈ l → x ∈ (s.dev.ctx c).cplValid) →
    (s.dev.watched c ((s.dev.ctx c).runNext.toNat % s.dev.runLines c)).held = false →
    Ends (.ctxCplConsWrite r c v) s (fun u => u.dev.reg (Reg.ctxCplCons c) = v ∧
      (u.dev.ctx c).cplValid = (s.dev.ctx c).cplValid.filter (fun x => !l.contains x) ∧ (u.dev.ctx c).runs = (s.dev.ctx c).runs ∧ u.mem = s.mem ∧
      u.dev.counters = s.dev.counters ∧ u.dev.tiles = s.dev.tiles)) ∧
  (∀ (s : State) (r : Requester) (c : Fin 64) (v : BitVec 32) (l : List Nat) (x : Nat), Heard s r (Reg.ctxCplCons c) v → s.dev.mayWriteCtx r c = true →
    seqRange (s.dev.reg (Reg.ctxCplCons c)) v (2 ^ s.dev.rf (Reg.ctxCplCtrl c) 4 0) = some l → x ∈ l → ¬ x ∈ (s.dev.ctx c).cplValid →
    Ends (.ctxCplConsWrite r c v) s (fun u => u.dev.regs = s.dev.regs ∧ u.dev.ctxs = s.dev.ctxs ∧ u.dev.tags = s.dev.tags ∧ u.mem = s.mem ∧
      u.dev.counters = s.dev.counters)) ∧
  (∀ (s : State) (r : Requester) (c : Fin 64) (v : BitVec 32) (l : List Nat), Heard s r (Reg.ctxEvtCons c) v → s.dev.mayWriteCtx r c = true →
    seqRange (s.dev.reg (Reg.ctxEvtCons c)) v (2 ^ s.dev.rf (Reg.ctxEvtCtrl c) 4 0) = some l → (∀ x, x ∈ l → x ∈ (s.dev.ctx c).evt.valid) →
    Ends (.ctxEvtConsWrite r c v) s (fun u => u.dev.reg (Reg.ctxEvtCons c) = v ∧
      (u.dev.ctx c).evt.valid = (s.dev.ctx c).evt.valid.filter (fun x => !l.contains x) ∧ (u.dev.ctx c).evt.next = (s.dev.ctx c).evt.next ∧ u.mem = s.mem ∧
      u.dev.counters = s.dev.counters ∧ u.dev.tiles = s.dev.tiles)) ∧
  (∀ (s : State) (q p : Fin 4) (v : BitVec 32) (c : Nat), Heard s (.host q) (Reg.devHpBind p) v → c = fb v 5 0 → c ≠ 0 → (s.dev.ctx c).state = .free →
    (s.dev.ctx c).hostMask.getLsbD p.val = true → q = p →
    Ends (.devHpBindWrite (.host q) p v) s (fun u => (u.dev.ctx c).state = .bound ∧ (u.dev.ctx c).port = p.val ∧ (u.dev.ctx c).hostId = (s.dev.host p).hostId ∧
      u.dev.rf (Reg.devHpBind p) 15 8 = 0 ∧ u.dev.rf (Reg.devHpBind p) 5 0 = c ∧ u.dev.rb (Reg.ctxRunCtrl c) 31 = false ∧
      u.dev.rb (Reg.ctxCplCtrl c) 31 = false ∧ u.dev.rb (Reg.ctxEvtCtrl c) 31 = false ∧
      (∀ x : Nat, x ≠ c → u.dev.ctx x = s.dev.ctx x) ∧ u.mem = s.mem ∧ u.dev.counters = s.dev.counters ∧ u.dev.tiles = s.dev.tiles)) ∧
  (∀ (s : State) (q p : Fin 4) (v : BitVec 32) (n : Nat), Heard s (.host q) (Reg.devHpBind p) v → n = s.dev.bindResult p q (fb v 5 0) → n ≠ 0 →
    Ends (.devHpBindWrite (.host q) p v) s (fun u => u.dev.rf (Reg.devHpBind p) 15 8 = n ∧ u.dev.ctxs = s.dev.ctxs ∧ u.dev.pages = s.dev.pages ∧ u.mem = s.mem ∧
      u.dev.counters = s.dev.counters ∧ u.dev.tiles = s.dev.tiles)) ∧
  (∀ (s : State) (p : Fin 4), (s.dev.host p).state ≠ .active →
    Ends (.lossLimitExpiry p) s (fun u => (∀ c, c < 64 → s.dev.boundTo c p = true → (u.dev.ctx c).state = .teardown ∨ (u.dev.ctx c).state = .quarantine) ∧
      (∀ c, c < 64 → s.dev.boundTo c p = false → (u.dev.ctx c).state = (s.dev.ctx c).state) ∧ (u.dev.host p).state = (s.dev.host p).state)) ∧
  (∀ (s : State) (p : Fin 4), (s.dev.host p).state = .active → Quiet (.lossLimitExpiry p) s s.begin) ∧
  (∀ (s : State) (r : Requester) (c : Fin 64), Heard s r (Reg.ctxCtrl c) (s.dev.teardownCmd c) → s.dev.mayWriteCtx r c = true → s.dev.bound c = true →
    Ends (.ctxTeardown r c) s (fun u => ((u.dev.ctx c).state = .teardown ∨ (u.dev.ctx c).state = .quarantine) ∧ (u.dev.ctx c).gen = (s.dev.ctx c).gen + 1 ∧
      (u.dev.ctx c).tdCause = 0 ∧ (u.dev.ctx c).lines = [] ∧ (u.dev.ctx c).prot = {} ∧
      (∀ x : Nat, x ≠ c.val → (u.dev.ctx x).state = (s.dev.ctx x).state))) ∧
  (∀ (s : State) (c : Fin 64), (s.dev.ctx c).state = .quarantine → s.dev.hasTags c = false →
    Ends (.quarantineEnd c) s (fun u => u.dev.ctx c = (s.dev.ctx c).freed ∧ (u.dev.ctx c).state = .free ∧
      (∀ k, ctxWindow c ≤ k → k < ctxWindow c + 0x10000 → mfind u.dev.regs k = none) ∧
      (∀ k, (k < ctxWindow c ∨ ctxWindow c + 0x10000 ≤ k) → mfind u.dev.regs k = mfind s.dev.regs k) ∧ u.mem = s.mem ∧ u.dev.tiles = s.dev.tiles)) ∧
  (∀ (s : State) (c : Fin 64), s.dev.hasTags c = true → Quiet (.quarantineEnd c) s s.begin)

/-- Reliability (R353, R356, R360, R361, R363 to R368, R379): leaks, bucket settings, the score, "secure now", the wait graph, its cycles and its
probes. -/
def Obligations.ScoresWaitsAndProbes : Prop :=
  (∀ (s : State) (k : Fin 7) (n : BitVec 32) (b : Bucket), mfind s.dev.ras.buckets (bucketKey k n.toNat) = some b →
    s.dev.lbLeak k ≤ (s.dev.lode.count - b.clock).toNat → (s.dev.lode.count - b.clock).toNat < 2 ^ 63 →
    Ends (.bucketLeak k n) s (fun u => (b.level ≤ 1 → mfind u.dev.ras.buckets (bucketKey k n.toNat) = none) ∧
      (1 < b.level → mfind u.dev.ras.buckets (bucketKey k n.toNat) = some { b with level := b.level - 1, clock := b.clock + BitVec.ofNat 64 (s.dev.lbLeak k) }) ∧
      (∀ j, j ≠ bucketKey k n.toNat → mfind u.dev.ras.buckets j = mfind s.dev.ras.buckets j) ∧ u.mem = s.mem ∧ u.dev.regs = s.dev.regs ∧
      u.dev.counters = s.dev.counters ∧ u.dev.tiles = s.dev.tiles)) ∧
  (∀ (s : State) (k : Fin 7) (n : BitVec 32) (b : Bucket), mfind s.dev.ras.buckets (bucketKey k n.toNat) = some b →
    (s.dev.lode.count - b.clock).toNat < s.dev.lbLeak k → Quiet (.bucketLeak k n) s s.begin) ∧
  (∀ (s : State) (r : Requester) (k : Fin 7) (v : BitVec 32), Heard s r (Reg.rasLbCfg k) v → s.dev.ctx0OrAdmin r = true → 1 ≤ fb v 31 24 →
    fb v 31 24 ≤ fb v 23 0 →
    Ends (.rasLbCfgWrite r k v) s (fun u => u.dev.regs = (s.dev.putReg (Reg.rasLbCfg k) v).regs ∧ u.dev.ras = s.dev.ras ∧ u.mem = s.mem ∧
      u.dev.counters = s.dev.counters ∧ u.dev.tiles = s.dev.tiles)) ∧
  (∀ (s : State) (r : Requester) (k : Fin 7) (v : BitVec 32), Heard s r (Reg.rasLbCfg k) v → s.dev.ctx0OrAdmin r = true → fb v 23 0 < fb v 31 24 →
    Ends (.rasLbCfgWrite r k v) s (fun u => u.dev.regs = s.dev.regs ∧ u.dev.ras = s.dev.ras ∧ u.mem = s.mem ∧ u.dev.counters = s.dev.counters)) ∧
  (∀ (s : State), s.dev.ras.armed = false ∨ s.dev.riskScore < s.dev.rf Reg.rasHealthCtrl 31 24 → s.dev.riskScore < s.dev.rf Reg.rasHealthCtrl 23 16 →
    Ends .healthScore s (fun u => u.dev.ras.score = s.dev.riskScore ∧ u.dev.ras.critical = false ∧
      (u.dev.ras.armed = true ↔ s.dev.ras.armed = true ∨ s.dev.riskScore < s.dev.rf Reg.rasHealthCtrl 31 24 - s.dev.rf Reg.rasHealthCtrl 15 8) ∧
      u.mem = s.mem ∧ u.dev.regs = s.dev.regs ∧ u.dev.counters = s.dev.counters ∧ u.dev.tiles = s.dev.tiles)) ∧
  (∀ (s : State), s.dev.ras.armed = true → s.dev.rf Reg.rasHealthCtrl 31 24 ≤ s.dev.riskScore → s.dev.ras.resets = [] →
    Ends .healthScore s (fun u => u.dev.ras.score = s.dev.riskScore ∧ u.dev.ras.armed = false ∧
      u.dev.count Reg.rasSecureNow = s.dev.count Reg.rasSecureNow + 1 ∧ u.dev.tiles = s.dev.tiles)) ∧
  (∀ (s : State) (r : Requester), Heard s r Reg.rasHealthCtrl (s.dev.regWith Reg.rasHealthCtrl 1 0 1) → s.dev.ctx0OrAdmin r = true →
    1 ≤ s.dev.rf Reg.rasHealthCtrl 31 24 → s.dev.rf Reg.rasHealthCtrl 31 24 ≤ s.dev.rf Reg.rasHealthCtrl 23 16 →
    s.dev.rf Reg.rasHealthCtrl 15 8 < s.dev.rf Reg.rasHealthCtrl 31 24 →
    Ends (.secureNow r) s (fun u => u.dev.count Reg.rasSecureNow = s.dev.count Reg.rasSecureNow + 1 ∧ u.dev.ras.score = s.dev.ras.score ∧
      (s.dev.ras.resets.any (fun x => x.scope != 1) = true → u.dev.ras.secureDue = true) ∧ u.dev.tiles = s.dev.tiles)) ∧
  (∀ (s : State), s.dev.lost 4 = false → s.dev.rf Reg.rasHangCtrl 31 30 = 0 →
    Ends .waitGraphSample s (fun u => (∀ x, x < waitUnits → (u.dev.unitWait x).word = ((sampled s).unitWait x).word ∧
        (u.dev.unitWait x).same = ((sampled s).unitWait x).same) ∧ u.mem = s.mem ∧ u.dev.regs = s.dev.regs ∧ u.dev.tiles = s.dev.tiles)) ∧
  (∀ (s : State), s.dev.lost 4 = false → (∀ x, x < waitUnits → (s.begin.waitOn s.mem x).kind = 0) →
    Ends .waitGraphSample s (fun u => u.dev.ras.localCycle = none ∧ u.dev.ras.remoteCycle = none ∧ (∀ x, x < waitUnits → (u.dev.unitWait x).same = 0) ∧
      u.mem = s.mem ∧ u.dev.counters = s.dev.counters ∧ u.dev.tags = s.dev.tags)) ∧
  (∀ (s : State) (x : Nat) (l : List Nat), s.dev.lost 4 = false → s.dev.rf Reg.rasHangCtrl 31 30 = 0 →
    ((List.range waitUnits).filterMap (fun u => ((sampled s).cycleAt u).map (fun l => (u, l)))).filter (fun c => (sampled s).stood c.2 = 8) = [(x, l)] →
    Ends .waitGraphSample s (fun u => u.dev.count Reg.rasHangs = s.dev.count Reg.rasHangs + 1 ∧ u.dev.ras.localCycle = some x)) ∧
  (∀ (s : State) (x : Fin 284) (n t : Nat), s.dev.lost 4 = false → s.dev.rb Reg.rasHangCtrl 29 = true → (s.dev.unitWait x).probed = true →
    s.dev.remoteEnd x = some (n, t) →
    Ends (.wprobePeriod x) s (fun u => u.dev.ras.probeId = s.dev.ras.probeId + 1 ∧
      (∃ g : Tag, u.dev.tags = s.dev.tags ++ [g] ∧ g.purpose = .probe ∧ g.op = opWPROBE) ∧ u.mem = s.mem ∧ u.dev.regs = s.dev.regs ∧
      u.dev.counters = s.dev.counters ∧ u.dev.tiles = s.dev.tiles)) ∧
  (∀ (s : State) (k : Packet), k.opc = opWPROBE → k.ecrcOk = true → k.src ≠ s.dev.node → s.dev.lost 4 = false → k.data.length = 32 →
    leOf ((k.data.drop 11).take 1) = 0 → s.dev.remoteEnd (leOf ((k.data.drop 12).take 2) % 512) = none →
    Ends (.wprobe k) s (fun u => Answers s u k opWPROBERSP 0 [] ∧ u.dev.ras = s.dev.ras ∧ u.dev.tags = s.dev.tags ∧ u.mem = s.mem ∧
      u.dev.regs = s.dev.regs ∧ u.dev.counters = s.dev.counters)) ∧
  (∀ (s : State) (k : Packet), k.opc = opWPROBE → k.ecrcOk = true → k.src ≠ s.dev.node → s.dev.lost 4 = false → k.data.length = 32 →
    leOf ((k.data.drop 11).take 1) = 1 → leOf ((k.data.drop 0).take 4) % 2 ^ 23 = s.dev.node →
    wKind (s.dev.unitWait (leOf ((k.data.drop 4).take 2) % 512)).word ≠ 0 →
    wSerial (s.dev.unitWait (leOf ((k.data.drop 4).take 2) % 512)).word = leOf ((k.data.drop 6).take 2) → s.dev.rf Reg.rasHangCtrl 31 30 = 0 →
    Ends (.wprobe k) s (fun u => Answers s u k opWPROBERSP 0 [] ∧ u.dev.ras.remoteCycle = some (leOf ((k.data.drop 4).take 2) % 512) ∧
      u.dev.count Reg.rasHangs = s.dev.count Reg.rasHangs + 1 ∧ u.mem = s.mem ∧ u.dev.regs = s.dev.regs ∧ u.dev.tiles = s.dev.tiles))

/-- Resets and core samples (R188, R369 to R376, R460): a context reset, a compute reset, a full recovery, the end of a copy and its cut, the
release of the samples, the end of a clear. -/
def Obligations.ResetsClearAndSamplesAreTaken : Prop :=
  (∀ (s : State) (r : Requester) (c : Fin 64), Heard s r Reg.rasResetCtrl (BitVec.ofNat 32 (2 ^ 30 + c.val)) → s.dev.ctx0OrAdmin r = true → c ≠ 0 →
    s.dev.bound c = true → s.dev.ras.resets = [] → SomeTile s (s.dev.tilesOf c) → s.dev.rb Reg.rasSampleCtrl 31 = false →
    Ends (.contextReset r c) s (fun u => u.dev.ras.resets = [{ scope := 1, ctxs := [c.val], t0 := s.dev.lode.count, sampling := false, outcome := none }] ∧
      (u.dev.ctx c).gen = (s.dev.ctx c).gen + 1 ∧ (∀ x : Nat, x ≠ c.val → (u.dev.ctx x).gen = (s.dev.ctx x).gen) ∧ TilesReset s u (s.dev.tilesOf c) ∧
      (∀ t, ¬ t ∈ s.dev.tilesOf c → u.dev.tile t = s.dev.tile t))) ∧
  (∀ (s : State) (r : Requester) (c : Fin 64), Heard s r Reg.rasResetCtrl (BitVec.ofNat 32 (2 ^ 30 + c.val)) → s.dev.ctx0OrAdmin r = true →
    s.dev.bound c = false →
    Ends (.contextReset r c) s (fun u => u.dev.ctxs = s.dev.ctxs ∧ u.dev.ras = s.dev.ras ∧ u.dev.tiles = s.dev.tiles ∧ u.mem = s.mem ∧
      u.dev.counters = s.dev.counters)) ∧
  (∀ (s : State) (r : Requester), Heard s r Reg.rasResetCtrl (s.dev.regWith Reg.rasResetCtrl 31 30 2) → s.dev.ctx0OrAdmin r = true →
    s.dev.ras.resets.any (fun x => x.scope != 1) = false → SomeTile s (List.range 64) → s.dev.rb Reg.rasSampleCtrl 31 = false →
    Ends (.computeReset r) s (fun u => (∃ x, u.dev.ras.resets = [x] ∧ x.scope = 2 ∧ x.ctxs = s.dev.liveCtxs ∧ x.t0 = s.dev.lode.count) ∧
      (∀ c, c ∈ s.dev.liveCtxs → (u.dev.ctx c).gen = (s.dev.ctx c).gen + 1) ∧ TilesReset s u (List.range 64))) ∧
  (∀ (s : State) (r : Requester), Heard s r Reg.rasResetCtrl (s.dev.regWith Reg.rasResetCtrl 31 30 2) → s.dev.ctx0OrAdmin r = true →
    s.dev.ras.resets.any (fun x => x.scope != 1) = true →
    Ends (.computeReset r) s (fun u => u.dev.ras = s.dev.ras ∧ u.dev.ctxs = s.dev.ctxs ∧ u.dev.tiles = s.dev.tiles ∧ u.mem = s.mem)) ∧
  (∀ (s : State) (r : Requester) (o : BringUpOutcome), Heard s r Reg.rasResetCtrl (s.dev.regWith Reg.rasResetCtrl 31 30 3) → s.dev.ctx0OrAdmin r = true →
    s.dev.lost 4 = false → s.dev.bringUp = .done → s.dev.pwr.state ≠ .tripped → s.dev.ras.resets = [] → SomeTile s (List.range 64) →
    s.dev.rb Reg.rasSampleCtrl 31 = false →
    Ends (.fullRecovery r o) s (fun u => (∃ x, u.dev.ras.resets = [x] ∧ x.scope = 3 ∧ x.outcome = some o ∧ x.t0 = s.dev.lode.count) ∧
      (∀ c, c ∈ s.dev.liveCtxs → (u.dev.ctx c).gen = (s.dev.ctx c).gen + 1) ∧ u.dev.bringUp = .done ∧ TilesReset s u (List.range 64))) ∧
  (∀ (s : State) (o : BringUpOutcome), s.dev.lost 4 = false → s.dev.bringUp = .done → s.dev.pwr.state ≠ .tripped → s.dev.ras.resets = [] →
    SomeTile s (List.range 64) → s.dev.rb Reg.rasSampleCtrl 31 = false →
    Ends (.recoverNLow o) s (fun u => (∃ x, u.dev.ras.resets = [x] ∧ x.scope = 3 ∧ x.outcome = some o ∧ x.t0 = s.dev.lode.count) ∧
      (∀ c, c ∈ s.dev.liveCtxs → (u.dev.ctx c).gen = (s.dev.ctx c).gen + 1) ∧ TilesReset s u (List.range 64))) ∧
  (∀ (s : State) (o : BringUpOutcome), s.dev.bringUp ≠ .done → Quiet (.recoverNLow o) s s.begin) ∧
  (∀ (s : State) (t j : Fin 64), s.dev.copying t = true → s.dev.copying j = true → j ≠ t →
    Ends (.sampleCutoff t) s (fun u => (mget {} u.dev.ras.samples t).state = 2 ∧ u.dev.copying t = false ∧
      (∀ i : Nat, i ≠ t.val → mget {} u.dev.ras.samples i = mget {} s.dev.ras.samples i) ∧
      SameMemBut s u (sampleSlot t) (64 * (sampleRows (s.dev.sampleWindows t)).length) ∧ u.dev.regs = s.dev.regs ∧ u.dev.tiles = s.dev.tiles ∧
      u.dev.counters = s.dev.counters)) ∧
  (∀ (s : State) (t : Nat), (List.range 64).filter s.dev.copying = [t] → s.dev.ras.resets = [] →
    Ends .sampleComplete s (fun u => (mget {} u.dev.ras.samples t).state = 1 ∧ u.dev.copying t = false ∧
      (mget {} u.dev.ras.samples t).rows = (sampleRows (s.dev.sampleWindows t)).length ∧ (mget {} u.dev.ras.samples t).lt = s.dev.lode.count ∧
      Holds u (sampleSlot t) (((sampleRows (s.dev.sampleWindows t)).map (fun a => peekN s.mem s.begin (scrBase t + a) 64)).flatten) ∧
      SameMemBut s u (sampleSlot t) (64 * (sampleRows (s.dev.sampleWindows t)).length) ∧ u.dev.regs = s.dev.regs ∧ u.dev.tiles = s.dev.tiles)) ∧
  (∀ (s : State) (r : Requester), Heard s r Reg.rasSampleCtrl (s.dev.regWith Reg.rasSampleCtrl 1 0 1) → s.dev.ctx0OrAdmin r = true →
    Ends (.sampleRelease r) s (fun u => u.dev.ras = { s.dev.ras with samples := s.dev.ras.samples.filter (fun (x : Nat × Sample) => x.2.copying) } ∧ u.mem = s.mem ∧
      u.dev.tiles = s.dev.tiles ∧ u.dev.counters = s.dev.counters)) ∧
  (∀ (s : State) (t : Fin 64), (s.dev.tile t).clearing = true → s.dev.ownerOf t = none → s.dev.ras.resets = [] →
    Quiet (.scratchpadClearComplete t) s (s.begin.setTile t { s.dev.tile t with clearing := false })) ∧
  (∀ (s : State) (t : Fin 64), (s.dev.tile t).clearing = false → Quiet (.scratchpadClearComplete t) s s.begin)

/-- Protection commands (R383, R389, R390, R398 to R401, R405): enabling, the start of each command, and its refusal. -/
def Obligations.ProtectionCommandsAreTakenOrRefused : Prop :=
  (∀ (s : State) (r : Requester) (c : Fin 64), Heard s r (Reg.ctxProtCtrl c) 0x80000000 → s.dev.mayWriteCtx r c = true → s.dev.protOn c = false →
    (s.dev.ctx c).pipe.state = .off → s.begin.protTableOk s.mem c = true → s.begin.logRemote s.mem c = 0 → NoBad s →
    Ends (.protEnable r c) s (fun u => u.dev.protOn c = true ∧ (u.dev.ctx c).prot = { (s.dev.ctx c).prot with fault := false } ∧
      (∀ a, (a < s.dev.entryAt c 0 ∨ s.dev.entryAt c (s.begin.protEntries s.mem c) ≤ a) → u.read a = s.read a) ∧
      u.dev.tiles = s.dev.tiles ∧ (u.dev.ctx c).pipe = (s.dev.ctx c).pipe)) ∧
  (∀ (s : State) (r : Requester) (c : Fin 64), Heard s r (Reg.ctxProtCtrl c) 0x80000000 → s.dev.mayWriteCtx r c = true → s.dev.protOn c = false →
    (s.dev.ctx c).pipe.state = .off → s.begin.protTableOk s.mem c = false →
    Ends (.protEnable r c) s (fun u => (u.dev.ctx c).prot = { (s.dev.ctx c).prot with fault := true, result := 2 } ∧
      u.dev.rf (Reg.ctxProtStatus c) 23 16 = 2 ∧ u.mem = s.mem ∧ u.dev.tiles = s.dev.tiles ∧ u.dev.counters = s.dev.counters)) ∧
  (∀ (s : State) (r : Requester) (c : Fin 64), ProtHeard s r c 1 → s.begin.flushEnded s.mem c = false →
    Ends (.secure r c) s (fun u => (u.dev.ctx c).prot = { (s.dev.ctx c).prot with cmd := some (1, 0), flushed := false, todo := [], reread := [] } ∧
      u.mem = s.mem ∧ u.dev.tags = s.dev.tags ∧ u.dev.tiles = s.dev.tiles ∧ u.dev.counters = s.dev.counters)) ∧
  (∀ (s : State) (r : Requester) (c : Fin 64), ProtHeard s r c 1 → s.begin.flushEnded s.mem c = true →
    Ends (.secure r c) s (fun u => (s.begin.entryList s.mem c = [] → (u.dev.ctx c).prot.cmd = none ∧ (u.dev.ctx c).prot.result = 0) ∧
      (s.begin.entryList s.mem c ≠ [] → (u.dev.ctx c).prot.cmd = some (1, 0) ∧ (u.dev.ctx c).prot.flushed = true) ∧
      (u.dev.ctx c).prot.todo = s.begin.entryList s.mem c ∧ u.dev.tags.length = s.dev.tags.length + (s.begin.entryList s.mem c).length ∧
      u.mem = s.mem ∧ u.dev.tiles = s.dev.tiles ∧ u.dev.counters = s.dev.counters)) ∧
  (∀ (s : State) (r : Requester) (c : Fin 64) (l : List Nat), ProtHeard s r c 2 →
    l = (s.begin.entryList s.mem c).filter (fun i => s.begin.flag s.mem c i fTORN && !eMirror (s.begin.entry s.mem c i)) → NoBad s →
    Ends (.restore r c) s (fun u => (u.dev.ctx c).prot.todo = l ∧ (u.dev.ctx c).prot.result = 0 ∧ (l ≠ [] → (u.dev.ctx c).prot.cmd = some (2, 0)) ∧
      (l = [] → (u.dev.ctx c).prot.cmd = none) ∧ (u.dev.ctx c).pipe.state = (s.dev.ctx c).pipe.state ∧ u.dev.tiles = s.dev.tiles)) ∧
  (∀ (s : State) (r : Requester) (c : Fin 64) (l : List Nat), ProtHeard s r c 3 →
    l = (s.begin.entryList s.mem c).filter (fun i => !eMirror (s.begin.entry s.mem c i) && eVstep (s.begin.entry s.mem c i) + 1 == (s.dev.reg (Reg.ctxProtArg c)).toNat) →
    l ≠ [] →
    Ends (.apply r c) s (fun u => (u.dev.ctx c).prot.todo = l ∧ (u.dev.ctx c).prot.cmd = some (3, s.dev.reg (Reg.ctxProtArg c)) ∧
      (u.dev.ctx c).prot.result = 0 ∧ u.dev.tags.length = s.dev.tags.length + 1 + l.length ∧ u.mem = s.mem ∧ u.dev.tiles = s.dev.tiles ∧
      u.dev.counters = s.dev.counters ∧ (u.dev.ctx c).pipe = (s.dev.ctx c).pipe)) ∧
  (∀ (s : State) (r : Requester) (c : Fin 64) (l : List Nat), ProtHeard s r c 4 → l = s.begin.mirrorsOf s.mem c (s.dev.rf (Reg.ctxProtArg c) 2 0) →
    Ends (.protResync r c) s (fun u => (u.dev.ctx c).prot.todo = l ∧ (u.dev.ctx c).prot.result = 0 ∧ (l = [] → (u.dev.ctx c).prot.cmd = none) ∧
      (l ≠ [] → (u.dev.ctx c).prot.cmd = some (4, BitVec.ofNat 32 (s.dev.rf (Reg.ctxProtArg c) 2 0))) ∧
      u.dev.tags.length = s.dev.tags.length + l.length ∧ u.mem = s.mem ∧ u.dev.tiles = s.dev.tiles ∧ u.dev.counters = s.dev.counters)) ∧
  (∀ (s : State) (r : Requester) (c : Fin 64), ProtHeard s r c 5 → (∀ v, v < 8 → (s.begin.mirrorsOf s.mem c v).all (fun i =>
      eVstep (s.begin.entry s.mem c i) == (s.dev.reg (Reg.ctxProtArg c)).toNat) = true) → s.dev.noneLeft c .mirror = true →
    (∀ i, i < s.begin.protEntries s.mem c → EngineReaches s c (s.dev.entryAt c i + 46) 1 ∧ EngineReaches s c (s.dev.entryAt c i + 48) 2) →
    Ends (.promote r c) s (fun u => (u.dev.ctx c).prot.cmd = none ∧ (u.dev.ctx c).prot.result = 0 ∧
      (∀ v i, v < 8 → i ∈ s.begin.mirrorsOf s.mem c v → (u.read (s.dev.entryAt c i + 46)).getLsbD 7 = false) ∧
      (∀ a, (a < s.dev.entryAt c 0 ∨ s.dev.entryAt c (s.begin.protEntries s.mem c) ≤ a) → u.read a = s.read a) ∧ u.dev.tiles = s.dev.tiles)) ∧
  (∀ (s : State) (r : Requester) (c : Fin 64), ProtHeard s r c 6 →
    Ends (.fetch r c) s (fun u => (u.dev.ctx c).prot.todo = s.begin.entryList s.mem c ∧ (u.dev.ctx c).prot.result = 0 ∧
      (s.begin.entryList s.mem c ≠ [] → (u.dev.ctx c).prot.cmd = some (6, 0)) ∧
      u.dev.tags.length = s.dev.tags.length + (s.begin.entryList s.mem c).length ∧ u.mem = s.mem ∧ u.dev.tiles = s.dev.tiles ∧ u.dev.counters = s.dev.counters)) ∧
  (∀ (s : State) (r : Requester) (c : Fin 64), ProtHeard s r c 7 →
    Ends (.demote r c) s (fun u => (u.dev.ctx c).prot.todo = s.begin.entryList s.mem c ∧ (u.dev.ctx c).prot.result = 0 ∧
      (s.begin.entryList s.mem c ≠ [] → (u.dev.ctx c).prot.cmd = some (7, 0)) ∧
      u.dev.tags.length = s.dev.tags.length + (s.begin.entryList s.mem c).length ∧ u.mem = s.mem ∧ u.dev.tiles = s.dev.tiles ∧ u.dev.counters = s.dev.counters)) ∧
  ProtRefused .secure 1 ∧ ProtRefused .restore 2 ∧ ProtRefused .apply 3 ∧ ProtRefused .protResync 4 ∧ ProtRefused .promote 5 ∧
  ProtRefused .fetch 6 ∧ ProtRefused .demote 7

/-- Protection's background work and the input log (R385, R387 to R389, R393, R394): a counterpart read again, RETAIN, a slot copy, a digest, an
append, CTX_LOG_PROD. -/
def Obligations.CopiesDigestsAndLogsAdvance : Prop :=
  (∀ (s : State) (c : Fin 64) (i : Fin 4096), s.dev.protCmd c = 1 → (s.dev.ctx c).prot.flushed = true → (s.dev.ctx c).prot.reread.contains i.val = true →
    Ends (.secureReread c i) s (fun u => (u.dev.ctx c).prot = { (s.dev.ctx c).prot with reread := (s.dev.ctx c).prot.reread.filter (· != i.val) } ∧
      (∃ t : Tag, u.dev.tags = s.dev.tags ++ [t] ∧ t.purpose = .secureRead ∧ t.a = c.val ∧ t.b = i.val ∧ t.op = opRD) ∧ u.mem = s.mem ∧
      u.dev.regs = s.dev.regs ∧ u.dev.counters = s.dev.counters ∧ u.dev.tiles = s.dev.tiles)) ∧
  (∀ (s : State) (c : Fin 64) (r : Retain) (l : List Retain), s.dev.protOn c = true → (s.dev.ctx c).prot.retain = r :: l →
    (∀ v, v < 8 → s.dev.mirrorPending c v (fun g => decide (g + 2 ≤ r.step.toNat)) = false) → (s.dev.ctx c).collDone = 0 →
    EngineReaches s c (s.dev.retainAt c r.step.toNat) 64 →
    Ends (.retainWrite c) s (fun u => Holds u (s.dev.retainAt c r.step.toNat)
        (toLE 64 (r.step.toNat + r.seed.toNat * 2 ^ 128 + leOf (r.hyper.flatMap (fun h => toLE 4 h.toNat)) * 2 ^ 192)) ∧
      SameMemBut s u (s.dev.retainAt c r.step.toNat) 64 ∧
      (u.dev.ctx c).prot = { (s.dev.ctx c).prot with retain := l, normWait := (s.dev.ctx c).prot.normWait ++ [r.step] } ∧
      u.dev.regs = s.dev.regs ∧ u.dev.counters = s.dev.counters ∧ u.dev.tiles = s.dev.tiles)) ∧
  (∀ (s : State) (c : Fin 64) (i : Fin 4096) (q : SlotCopy), (s.dev.ctx c).prot.slotCopies.find? (fun q => q.entry == i.val) = some q → q.running = false →
    (s.begin.bucketDone s.mem c (eBucket (s.begin.entry s.mem c i))).2 = true →
    s.dev.mirrorPending c (eVs (s.begin.entry s.mem c i)) (fun g => g % 2 == q.step.toNat % 2) = false →
    Ends (.slotCopy c i) s (fun u => ({ q with running := true } : SlotCopy) ∈ (u.dev.ctx c).prot.slotCopies ∧ ¬ q ∈ (u.dev.ctx c).prot.slotCopies ∧
      (u.dev.ctx c).prot.slotCopies.length = (s.dev.ctx c).prot.slotCopies.length ∧ u.mem = s.mem ∧ u.dev.regs = s.dev.regs ∧
      u.dev.counters = s.dev.counters ∧ u.dev.tiles = s.dev.tiles)) ∧
  (∀ (s : State) (c : Fin 64) (i : Fin 4096) (q : SlotCopy) (x j n : Nat), (s.dev.ctx c).prot.slotCopies.find? (fun q => q.entry == i.val && q.running) = some q →
    x = s.begin.entry s.mem c i → j = q.step.toNat % 2 → n = eGbytes x → EngineReaches s c (eGsrc x) n → EngineReaches s c (eSlot x j) n →
    EngineReaches s c (s.dev.entryAt c i + 56 + 4 * j) 4 → (eSlot x j + n ≤ s.dev.entryAt c i + 56 + 4 * j ∨ s.dev.entryAt c i + 60 + 4 * j ≤ eSlot x j) →
    s.dev.protCmd c ≠ 1 →
    Ends (.slotCopyEnd c i) s (fun u => Holds u (eSlot x j) (peekN s.mem s.begin (eGsrc x) n) ∧
      Holds u (s.dev.entryAt c i + 56 + 4 * j) (toLE 4 q.step.toNat) ∧
      (∀ a, (a < eSlot x j ∨ eSlot x j + n ≤ a) → (a < s.dev.entryAt c i + 56 + 4 * j ∨ s.dev.entryAt c i + 60 + 4 * j ≤ a) → u.read a = s.read a) ∧
      u.dev.count (Reg.ctxProtSlotCopies c) = s.dev.count (Reg.ctxProtSlotCopies c) + 1 ∧
      (u.dev.ctx c).prot.slotCopies = removeOne q (s.dev.ctx c).prot.slotCopies ∧ u.dev.regs = s.dev.regs ∧ u.dev.tiles = s.dev.tiles)) ∧
  (∀ (s : State) (c : Fin 64) (i : Fin 4096) (x : Nat), s.dev.protOn c = true → (s.begin.entryList s.mem c).contains i.val = true → x = s.begin.entry s.mem c i →
    eFlag x fDIGBUSY = true → s.dev.protCmd c ≠ 1 → EngineReaches s c (s.dev.entryAt c i + 64) 4 → EngineReaches s c (s.dev.entryAt c i + 68) 4 →
    EngineReaches s c (s.dev.entryAt c i + 48) 2 →
    (eRec x + shardBytes (s.begin.header s.mem (eRec x)) ≤ s.dev.entryAt c i ∨ s.dev.entryAt c i + 128 ≤ eRec x) → eRec x + 64 ≤ s.dev.entryAt c i ∨ s.dev.entryAt c i + 128 ≤ eRec x →
    Ends (.digestComplete c i) s (fun u => Holds u (s.dev.entryAt c i + 68) (toLE 4 (eCurDig x)) ∧
      Holds u (s.dev.entryAt c i + 64) (toLE 4 (s.begin.digestOf s.mem (eRec x))) ∧
      Holds u (s.dev.entryAt c i + 48) (toLE 2 (setFld (eFlags x) 6 6 0)) ∧
      (∀ a, (a < s.dev.entryAt c i + 48 ∨ s.dev.entryAt c i + 50 ≤ a) → (a < s.dev.entryAt c i + 64 ∨ s.dev.entryAt c i + 72 ≤ a) → u.read a = s.read a) ∧
      u.dev.regs = s.dev.regs ∧ u.dev.counters = s.dev.counters ∧ u.dev.tiles = s.dev.tiles)) ∧
  (∀ (s : State) (c : Fin 64) (bs : List Byte) (t : BitVec 32) (n : Nat), s.dev.protOn c = true → (s.dev.ctx c).log.known = true →
    (s.dev.ctx c).log.busy = none → s.begin.logNext s.mem c = some (bs, t, n, false) → leOf (bs.take 2) = 0 → s.dev.protCmd c ≠ 1 →
    Ends (.logAppend c) s (fun u => (u.dev.ctx c).log = { (s.dev.ctx c).log with shipped := (s.dev.ctx c).log.shipped + BitVec.ofNat 32 n } ∧
      u.dev.reg (Reg.ctxLogShipped c) = (s.dev.ctx c).log.shipped + BitVec.ofNat 32 n ∧ u.mem = s.mem ∧ u.dev.tags = s.dev.tags ∧
      u.dev.counters = s.dev.counters ∧ u.dev.tiles = s.dev.tiles)) ∧
  (∀ (s : State) (c : Fin 64) (bs : List Byte) (t : BitVec 32) (n z : Nat) (w : Bool), s.dev.protOn c = true → (s.dev.ctx c).log.known = true →
    (s.dev.ctx c).log.busy = none → s.begin.logNext s.mem c = some (bs, t, n, w) → leOf (bs.take 2) ≠ 0 → (s.dev.ctx c).log.room bs.length = some (0, z) →
    Ends (.logAppend c) s (fun u => (u.dev.ctx c).log = { (s.dev.ctx c).log with busy := some { size := z, records := [(bs.length, some t)], staged := n, dropped := w, header := false, failed := false } } ∧
      u.mem = s.mem ∧ u.dev.regs = s.dev.regs ∧ u.dev.counters = s.dev.counters ∧ u.dev.tiles = s.dev.tiles)) ∧
  (∀ (s : State) (r : Requester) (c : Fin 64) (v : BitVec 32), Heard s r (Reg.ctxLogProd c) v → s.dev.mayWriteCtx r c = true →
    (s.dev.protOn c = true → (v - (s.dev.ctx c).log.shipped).toNat ≤ s.begin.logLocalBytes s.mem c) →
    Ends (.ctxLogProdWrite r c v) s (fun u => u.dev.regs = (s.dev.putReg (Reg.ctxLogProd c) v).regs ∧ u.mem = s.mem ∧ u.dev.ctxs = s.dev.ctxs ∧
      u.dev.counters = s.dev.counters ∧ u.dev.tiles = s.dev.tiles)) ∧
  (∀ (s : State) (r : Requester) (c : Fin 64) (v : BitVec 32), Heard s r (Reg.ctxLogProd c) v → s.dev.mayWriteCtx r c = true →
    s.dev.protOn c = true → s.begin.logLocalBytes s.mem c < (v - (s.dev.ctx c).log.shipped).toNat →
    Ends (.ctxLogProdWrite r c v) s (fun u => u.dev.regs = s.dev.regs ∧ u.mem = s.mem ∧ u.dev.ctxs = s.dev.ctxs ∧ u.dev.counters = s.dev.counters))

/-- Secure boot and the test lock (R434, R436, R438, R441, R451): a bundle is kept or discarded, keys become ready, an unlock record is checked. -/
def Obligations.BundlesAndUnlockRecordsAreChecked : Prop :=
  (∀ (s : State) (bs : List Byte), s.dev.sec.state = .waitBundle → s.dev.bringUp = .waitBundle →
    Quiet (.bundleReceived bs) s { s.begin with bringUp := .verifying, sec := { s.dev.sec with state := .verifying, bundle := bs } }) ∧
  (∀ (s : State) (bs : List Byte), s.dev.sec.state = .verifying → Quiet (.bundleReceived bs) s s.begin) ∧
  (∀ (s : State) (o : StackOutcome) (code : Nat), s.dev.sec.state = .verifying → s.dev.bringUp = .verifying → code = s.dev.bundleResult s.dev.sec.bundle →
    Ends (.bundleVerified o) s (fun u => u.mem = s.mem ∧ u.dev.tiles = s.dev.tiles ∧ u.dev.ctxs = s.dev.ctxs ∧
      (code ≠ 0 → u.dev.sec = { s.dev.sec with state := .waitBundle, bundle := [], bundleResult := BitVec.ofNat 8 code } ∧
        u.dev.bringUp = .waitBundle ∧ u.dev.count Reg.secSigFail = s.dev.count Reg.secSigFail + 1 ∧ u.dev.fuses = s.dev.fuses ∧
        u.dev.regs = s.dev.regs ∧ u.dev.strata = s.dev.strata ∧ u.dev.hbm = s.dev.hbm) ∧
      (code = 0 → u.dev.sec.state = .running ∧ u.dev.sec.bundleResult = 0 ∧
        u.dev.sec.keys = s.dev.fuses.acceptedKeys (listReader s.dev.sec.bundle) ∧ u.dev.bringUp = (if s.dev.pwr.goHeld then .links else .window) ∧
        u.dev.pwr.phase = (if s.dev.pwr.goHeld then 4 else 3) ∧
        (∀ i, i < 8 → s.dev.fuses.revoke.getLsbD i = true → u.dev.fuses.revoke.getLsbD i = true)))) ∧
  (∀ (s : State), s.dev.bringUp ≠ .off → s.dev.sec.state ≠ .failed → s.dev.sec.state ≠ .selfTest → pkgIdOk s.dev.fuses.pkgIdA = true →
    Quiet .rsaKeyReady s { s.begin with sec := { s.dev.sec with rsaReady := true } }) ∧
  (∀ (s : State), pkgIdOk s.dev.fuses.pkgIdA = false → Quiet .rsaKeyReady s s.begin) ∧
  (∀ (s : State), mget 0 s.dev.sec.tap 4 = 0x20 → s.dev.sec.state = .running → s.dev.lost 4 = false →
    Quiet .unlockNonceRead s { s.begin with free := s.dev.free + 1, sec := { s.dev.sec with nonce := some (Config.random s.dev.free) }, out := [.nonce (Config.random s.dev.free)] }) ∧
  (∀ (s : State) (r : BitVec 512) (sig : List Byte) (n : BitVec 256), mget 0 s.dev.sec.tap 4 = 0x20 → s.dev.sec.state = .running →
    s.dev.lost 4 = false → s.dev.sec.nonce = some n →
    Quiet (.unlockRecord r sig) s (if s.dev.unlockOk r sig n then { s.begin with sec := { s.dev.sec with unlockPending := true }, counters := mset s.dev.counters Reg.secUnlocks (s.dev.count Reg.secUnlocks + 1) } else s.begin)) ∧
  (∀ (s : State) (r : BitVec 512) (sig : List Byte), mget 0 s.dev.sec.tap 4 ≠ 0x20 → Quiet (.unlockRecord r sig) s s.begin ∧ Quiet .unlockNonceRead s s.begin)

/-- SPDM requests (R441, R442, R443): what each is answered with, and what connection, certificates and sessions become. -/
def Obligations.SpdmRequestsAreAnswered : Prop :=
  (∀ (s : State) (ch : Fin 6) (msg : List Byte) (x : Bool), Asks s ch msg 0x84 x →
    Replies (.getVersion ch msg) s ch x (bytesOf [0x10, 0x04, 0, 0, 0, 2, 0, 0x12, 0, 0x13]) (fun y =>
      mget {} y.spdm ch = { version := true } ∧ y.certs = s.dev.sec.certs ∧ y.sessions = s.dev.sec.sessions)) ∧
  (∀ (s : State) (ch : Fin 6) (msg : List Byte) (x : Bool) (v : Nat), Asks s ch msg 0xE1 x → (v = 0x12 ∨ v = 0x13) → (msg.getD 0 0).toNat = v →
    (s.dev.spdm ch).version = true →
    Replies (.getCapabilities ch msg) s ch x (bytesOf [v, 0x61, 0, 0, 0, 17, 0, 0] ++ toLE 4 0x802F6 ++ toLE 4 8192 ++ toLE 4 8192) (fun y =>
      mget {} y.spdm ch = { version := true, inUse := v, capabilities := true } ∧ y.certs = s.dev.sec.certs ∧ y.sessions = s.dev.sec.sessions)) ∧
  (∀ (s : State) (ch : Fin 6) (msg : List Byte) (x : Bool) (v : Nat) (body : List Byte), Asks s ch msg 0xE3 x → 32 ≤ msg.length →
    (v = 0x12 ∨ v = 0x13) → (msg.getD 0 0).toNat = v → (s.dev.spdm ch).version = true → (s.dev.spdm ch).capabilities = true → (s.dev.spdm ch).inUse = v →
    body = bytesOf [(msg.getD 6 0).toNat &&& 1, (msg.getD 7 0).toNat &&& 2] ++ toLE 4 (if (msg.getD 6 0).toNat &&& 1 = 1 then 8 else 0)
      ++ toLE 4 (leOf ((msg.drop 8).take 4) &&& 0x40) ++ toLE 4 (leOf ((msg.drop 12).take 4) &&& 4) ++ bytesOf (List.replicate 16 0)
      ++ ((algStructs (msg.getD 2 0).toNat (msg.drop 32)).map (fun a => bytesOf [a.1, 0x20] ++ toLE 2 a.2)).flatten →
    Replies (.negotiateAlgorithms ch msg) s ch x (bytesOf [v, 0x63, (msg.getD 2 0).toNat, 0] ++ toLE 2 (36 + 4 * (msg.getD 2 0).toNat) ++ body) (fun y =>
      mget {} y.spdm ch = { version := true, inUse := v, capabilities := true, algorithms := true } ∧ y.certs = s.dev.sec.certs ∧ y.sessions = s.dev.sec.sessions)) ∧
  (∀ (s : State) (ch : Fin 6) (msg : List Byte) (x : Bool) (v : Nat), Asks s ch msg 0x81 x → Connected s ch msg v →
    Replies (.getDigests ch msg) s ch x (bytesOf [v, 1, if v = 0x13 then 3 else 0, s.dev.certMask] ++
      (s.dev.sec.certs.map (fun (c : Nat × List Byte) => sha512 c.2)).flatten) (SameSpdm s.dev.sec)) ∧
  (∀ (s : State) (ch : Fin 6) (msg : List Byte) (x : Bool) (v o n : Nat) (c : List Byte), Asks s ch msg 0x82 x → Connected s ch msg v →
    8 ≤ msg.length → o = leOf ((msg.drop 4).take 2) → n = min (min (leOf ((msg.drop 6).take 2)) 8184) (c.length - o) →
    mfind s.dev.sec.certs ((msg.getD 2 0).toNat % 16) = some c → o < c.length →
    Replies (.getCertificate ch msg) s ch x (bytesOf [v, 2, (msg.getD 2 0).toNat % 16, 0] ++ toLE 2 n ++ toLE 2 (c.length - o - n) ++ (c.drop o).take n)
      (SameSpdm s.dev.sec)) ∧
  (∀ (s : State) (ch : Fin 6) (msg : List Byte) (x : Bool) (v k : Nat), Asks s ch msg 0xEE x → Connected s ch msg v → k = (msg.getD 2 0).toNat % 16 →
    k < 2 → s.dev.keyReady k = true → msg.length ≤ 32772 →
    Replies (.setCertificate ch msg) s ch x
      (if Config.leafKey (msg.drop 4) = s.dev.identityKey k then bytesOf [v, 0x6E, k, 0] else bytesOf [v, 0x7F, 1, 0]) (fun y =>
      y.certs = (if Config.leafKey (msg.drop 4) = s.dev.identityKey k then mset s.dev.sec.certs k (msg.drop 4) else s.dev.sec.certs) ∧
      y.spdm = s.dev.sec.spdm ∧ y.sessions = s.dev.sec.sessions)) ∧
  (∀ (s : State) (ch : Fin 6) (msg : List Byte) (x : Bool) (v k : Nat), Asks s ch msg 0xEE x → Connected s ch msg v → k = (msg.getD 2 0).toNat % 16 →
    k < 2 → s.dev.keyReady k = false → Replies (.setCertificate ch msg) s ch x (notReady v 0xEE) (SameSpdm s.dev.sec)) ∧
  (∀ (s : State) (ch : Fin 6) (msg : List Byte) (x : Bool) (v : Nat) (c : List Byte), Asks s ch msg 0x83 x → Connected s ch msg v → (msg.getD 2 0).toNat = 0 →
    36 ≤ msg.length → mfind s.dev.sec.certs 0 = some c → s.dev.sec.rsaReady = true →
    Replies (.challenge ch msg) s ch x (bytesOf [v, 3, 0, s.dev.certMask] ++ sha512 c ++ toLE 32 (Config.random s.dev.free).toNat ++
      s.begin.measurementSummary s.mem (msg.getD 3 0).toNat ++ toLE 2 0 ++ reqContext v (msg.drop 36) ++ toLE 512 (Config.rsaSignature (s.dev.free + 1)).toNat)
      (SameSpdm s.dev.sec)) ∧
  (∀ (s : State) (ch : Fin 6) (msg : List Byte) (x : Bool) (v : Nat) (c : List Byte), Asks s ch msg 0x83 x → Connected s ch msg v → (msg.getD 2 0).toNat = 0 →
    36 ≤ msg.length → mfind s.dev.sec.certs 0 = some c → s.dev.sec.rsaReady = false → Replies (.challenge ch msg) s ch x (notReady v 0x83) (SameSpdm s.dev.sec)) ∧
  (∀ (s : State) (ch : Fin 6) (msg : List Byte) (x : Bool) (v i : Nat) (bs : List Byte), Asks s ch msg 0xE0 x → (v = 0x12 ∨ v = 0x13) → (msg.getD 0 0).toNat = v →
    s.dev.spdm ch = { version := true, inUse := v, capabilities := true, algorithms := true } → wantsSignature msg = false → i = (msg.getD 3 0).toNat →
    i ≤ 11 ∨ i = 255 → bs = ((measured i).map (s.begin.measurementBlock s.mem)).flatten →
    Replies (.getMeasurements ch msg) s ch x (bytesOf [v, 0x60, if i = 0 then 11 else 0, 0, (measured i).length] ++ toLE 3 bs.length ++ bs ++
      toLE 32 (Config.random s.dev.free).toNat ++ toLE 2 0 ++ reqContext v (msg.drop 4)) (SameSpdm s.dev.sec)) ∧
  (∀ (s : State) (ch : Fin 6) (msg : List Byte) (x : Bool) (v i : Nat) (bs : List Byte), Asks s ch msg 0xE0 x → Connected s ch msg v → wantsSignature msg = true →
    i = (msg.getD 3 0).toNat → i ≤ 11 ∨ i = 255 → bs = ((measured i).map (s.begin.measurementBlock s.mem)).flatten → (msg.getD 36 0).toNat % 16 = 0 →
    37 ≤ msg.length → s.dev.sec.rsaReady = true →
    Replies (.getMeasurements ch msg) s ch x (bytesOf [v, 0x60, if i = 0 then 11 else 0, 0, (measured i).length] ++ toLE 3 bs.length ++ bs ++
      toLE 32 (Config.random s.dev.free).toNat ++ toLE 2 0 ++ reqContext v (msg.drop 37) ++ toLE 512 (Config.rsaSignature (s.dev.free + 1)).toNat) (SameSpdm s.dev.sec)) ∧
  (∀ (s : State) (ch : Fin 6) (msg : List Byte) (x : Bool) (v i : Nat), Asks s ch msg 0xE4 x → Connected s ch msg v → (msg.getD 3 0).toNat = 0 → 138 ≤ msg.length →
    s.dev.sec.rsaReady = true → s.dev.freeSession = some i →
    ∃ bs, Replies (.keyExchange ch msg) s ch x (bytesOf [v, 0x64, 0, 0] ++ bs) (fun y => y.certs = s.dev.sec.certs ∧ y.spdm = s.dev.sec.spdm ∧
      ∃ z : Session, y.sessions = s.dev.sec.sessions ++ [z] ∧ z.number = i ∧ z.channel = ch ∧ z.ready = false ∧
        (z.mayKey = true ↔ ch.val = 4 ∨ (ch.val < 4 ∧ s.dev.admin.getLsbD ch = true)))) ∧
  (∀ (s : State) (ch : Fin 6) (msg : List Byte) (x : Bool) (v : Nat), Asks s ch msg 0xE4 x → Connected s ch msg v → (msg.getD 3 0).toNat = 0 → 138 ≤ msg.length →
    s.dev.sec.rsaReady = true → s.dev.freeSession = none → Replies (.keyExchange ch msg) s ch x (bytesOf [v, 0x7F, 3, 0]) (SameSpdm s.dev.sec)) ∧
  (∀ (s : State) (ch : Fin 6) (msg : List Byte) (x : Bool) (v : Nat) (z : Session), Asks s ch msg 0xE5 x → Connected s ch msg v → s.dev.sessionOf ch false = some z →
    Replies (.finish ch msg) s ch x (if Config.finishHolds s.dev.free msg then bytesOf [v, 0x65, 0, 0] else bytesOf [v, 0x7F, 6, 0]) (fun y =>
      y.certs = s.dev.sec.certs ∧ y.spdm = s.dev.sec.spdm ∧
      (Config.finishHolds s.dev.free msg = true →
        y.sessions = s.dev.sec.sessions.map (fun w => if w.number = z.number then { w with ready := true } else w)) ∧
      (Config.finishHolds s.dev.free msg = false → ∀ w, w ∈ y.sessions ↔ w ∈ s.dev.sec.sessions ∧ w.number ≠ z.number))) ∧
  (∀ (s : State) (ch : Fin 6) (msg : List Byte) (x : Bool) (v : Nat) (z : Session), Asks s ch msg 0xEC x → Connected s ch msg v → s.dev.sessionOf ch true = some z →
    Replies (.endSession ch msg) s ch x (bytesOf [v, 0x6C, 0, 0]) (fun y => y.certs = s.dev.sec.certs ∧ y.spdm = s.dev.sec.spdm ∧
      (∀ w, w ∈ y.sessions ↔ w ∈ s.dev.sec.sessions ∧ w.number ≠ z.number)))

/-- Without a valid package identity no key becomes ready, and every request but GET_VERSION, GET_CAPABILITIES, NEGOTIATE_ALGORITHMS and an unsigned
GET_MEASUREMENTS is answered Unspecified (R441). -/
def Obligations.WithoutIdentityFourRequestsAreAnswered : Prop :=
  Barred .getDigests 0x81 ∧ Barred .getCertificate 0x82 ∧ Barred .setCertificate 0xEE ∧ Barred .challenge 0x83 ∧ Barred .keyExchange 0xE4 ∧
  Barred .finish 0xE5 ∧ Barred .endSession 0xEC ∧
  (∀ (s : State) (ch : Fin 6) (msg : List Byte) (x : Bool), Asks s ch msg 0xE0 x → pkgIdOk s.dev.fuses.pkgIdA = false → wantsSignature msg = true →
    Replies (.getMeasurements ch msg) s ch x (bytesOf [(msg.getD 0 0).toNat, 0x7F, 5, 0]) (SameSpdm s.dev.sec)) ∧
  (∀ (s : State) (ch : Fin 6) (n : BitVec 256), s.dev.sec.state = .running → s.dev.lost 4 = false → pkgIdOk s.dev.fuses.pkgIdA = false →
    (ch.val = 5 ∨ ((s.dev.mailbox ch).want = 36 ∧ (s.dev.mailbox ch).writing = false ∧ (s.dev.mailbox ch).request = quoteRequest n)) →
    Ends (.quote ch n) s (fun u => (ch.val = 5 → u.dev.out = [.spdm 5 (bytesOf [0x13, 0x7F, 5, 0])] ∧ u.mem = s.mem) ∧
      (ch.val < 5 → MailboxGets s u ch (bytesOf [0x13, 0x7F, 5, 0])) ∧ SameSpdm s.dev.sec u.dev.sec)) ∧
  (∀ (s : State), pkgIdOk s.dev.fuses.pkgIdA = false → Quiet .rsaKeyReady s s.begin) ∧
  (∀ (s : State) (ch : Fin 6) (msg : List Byte) (x : Bool), Asks s ch msg 0x84 x → pkgIdOk s.dev.fuses.pkgIdA = false →
    Replies (.getVersion ch msg) s ch x (bytesOf [0x10, 0x04, 0, 0, 0, 2, 0, 0x12, 0, 0x13]) (fun y => (mget {} y.spdm ch).version = true)) ∧
  (∀ (s : State) (ch : Fin 6) (msg : List Byte) (x : Bool) (v : Nat), Asks s ch msg 0xE1 x → pkgIdOk s.dev.fuses.pkgIdA = false → (v = 0x12 ∨ v = 0x13) →
    (msg.getD 0 0).toNat = v → (s.dev.spdm ch).version = true → ∃ bs, Replies (.getCapabilities ch msg) s ch x (bytesOf [v, 0x61] ++ bs) (fun _ => True)) ∧
  (∀ (s : State) (ch : Fin 6) (msg : List Byte) (x : Bool) (v : Nat), Asks s ch msg 0xE3 x → pkgIdOk s.dev.fuses.pkgIdA = false → 32 ≤ msg.length →
    (v = 0x12 ∨ v = 0x13) → (msg.getD 0 0).toNat = v → (s.dev.spdm ch).version = true → (s.dev.spdm ch).capabilities = true → (s.dev.spdm ch).inUse = v →
    ∃ bs, Replies (.negotiateAlgorithms ch msg) s ch x (bytesOf [v, 0x63] ++ bs) (fun _ => True)) ∧
  (∀ (s : State) (ch : Fin 6) (msg : List Byte) (x : Bool) (v : Nat), Asks s ch msg 0xE0 x → pkgIdOk s.dev.fuses.pkgIdA = false → (v = 0x12 ∨ v = 0x13) →
    (msg.getD 0 0).toNat = v → s.dev.spdm ch = { version := true, inUse := v, capabilities := true, algorithms := true } → wantsSignature msg = false →
    ((msg.getD 3 0).toNat ≤ 11 ∨ (msg.getD 3 0).toNat = 255) →
    ∃ bs, Replies (.getMeasurements ch msg) s ch x (bytesOf [v, 0x60] ++ bs) (fun _ => True))

/-- Quotes, mailboxes and link keys (R243, R441, R445 to R447): what QUOTE signs, how a mailbox request starts and ends, where a key goes. -/
def Obligations.QuotesMailboxesAndLinkKeys : Prop :=
  (∀ (s : State) (ch : Fin 6) (n : BitVec 256) (dg : List Byte), s.dev.sec.state = .running → s.dev.lost 4 = false → pkgIdOk s.dev.fuses.pkgIdA = true →
    (ch.val = 5 ∨ ((s.dev.mailbox ch).want = 36 ∧ (s.dev.mailbox ch).writing = false ∧ (s.dev.mailbox ch).request = quoteRequest n)) →
    dg = sha512 (toLE 32 n.toNat ++ ((List.range 11).map (fun i => s.begin.measurementDigest s.mem (i + 1))).flatten) →
    Ends (.quote ch n) s (fun u => u.dev.count Reg.secSpdmMsgs = s.dev.count Reg.secSpdmMsgs + 1 ∧
      (ch.val = 5 → u.dev.out = [.spdm 5 (bytesOf [0x80, if s.dev.sec.mldsaReady then 0 else 1, 0, 0] ++ dg ++ toLE 4627 (Config.mldsaSignature s.dev.free dg).toNat ++ bytesOf [0])] ∧ u.mem = s.mem) ∧
      (ch.val < 5 → MailboxGets s u ch (bytesOf [0x80, if s.dev.sec.mldsaReady then 0 else 1, 0, 0] ++ dg ++ toLE 4627 (Config.mldsaSignature s.dev.free dg).toNat ++ bytesOf [0])) ∧
      SameSpdm s.dev.sec u.dev.sec ∧ u.dev.tiles = s.dev.tiles ∧ u.dev.ctxs = s.dev.ctxs)) ∧
  (∀ (s : State) (n : BitVec 256), s.dev.sec.state = .running → s.dev.lost 4 = false → pkgIdOk s.dev.fuses.pkgIdA = false →
    Ends (.quote 5 n) s (fun u => u.dev.out = [.spdm 5 (bytesOf [0x13, 0x7F, 5, 0])] ∧ u.dev.sec = s.dev.sec ∧ u.mem = s.mem)) ∧
  (∀ (s : State) (r : Requester) (m : Fin 5), Heard s r (Reg.secMboxCtrl m) (mboxWord s.dev m 1) → mayMailbox r m = true →
    s.dev.rf (Reg.secMboxCtrl m) 29 28 = 1 →
    Ends (.secMboxSend r m) s (fun u => u.dev.count Reg.devRegRefused = s.dev.count Reg.devRegRefused + 1 ∧ u.dev.sec = s.dev.sec ∧ u.dev.regs = s.dev.regs ∧
      u.mem = s.mem ∧ u.dev.hosts = s.dev.hosts)) ∧
  (∀ (s : State) (r : Requester) (m : Fin 4), Heard s r (Reg.secMboxCtrl m) (mboxWord s.dev m 1) → mayMailbox r m = true →
    s.dev.rf (Reg.secMboxCtrl m) 29 28 ≠ 1 → s.dev.rf (Reg.secMboxLen m) 15 0 ≠ 0 →
    Ends (.secMboxSend r ⟨m.val, by omega⟩) s (fun u => u.dev.mailbox m = { want := s.dev.rf (Reg.secMboxLen m) 15 0 } ∧ SameSpdm s.dev.sec u.dev.sec ∧
      (∃ k : HPacket, k.opc = opcHRD ∧ k.addr = s.dev.mboxReq m % 2 ^ 64 ∧ (k ∈ (u.dev.host m).tx ∨ ∃ t, (k, t) ∈ (u.dev.host m).waiting)) ∧
      u.mem = s.mem ∧ u.dev.tiles = s.dev.tiles ∧ u.dev.counters = s.dev.counters)) ∧
  (∀ (s : State) (r : Requester) (bs : List Byte), Heard s r (Reg.secMboxCtrl 4) (mboxWord s.dev 4 1) → mayMailbox r 4 = true → s.dev.rf (Reg.secMboxCtrl 4) 29 28 ≠ 1 →
    bs = peekN s.mem s.begin (sramBase + s.dev.mboxReq 4) (s.dev.rf (Reg.secMboxLen 4) 15 0) → bs ≠ [] → s.dev.mboxReq 4 + bs.length ≤ 0x800000 →
    ((bs.headD 0).toNat = 5 ∨ (bs.headD 0).toNat = 6 ∨ ((bs.headD 0).toNat = 0x80 ∧ bs.length = 36)) →
    Ends (.secMboxSend r 4) s (fun u => u.dev.mailbox 4 = { want := bs.length, request := bs } ∧ SameSpdm s.dev.sec u.dev.sec ∧ u.mem = s.mem ∧
      u.dev.tiles = s.dev.tiles ∧ u.dev.counters = s.dev.counters ∧ u.dev.hosts = s.dev.hosts)) ∧
  (∀ (s : State) (r : Requester) (m : Fin 5), Heard s r (Reg.secMboxCtrl m) (mboxWord s.dev m 2) → mayMailbox r m = true → s.dev.rf (Reg.secMboxCtrl m) 29 28 = 1 →
    (s.dev.mailbox m).writing = false →
    Ends (.secMboxAbandon r m) s (fun u => u.dev.mailbox m = {} ∧ u.dev.rf (Reg.secMboxCtrl m) 29 28 = 3 ∧ u.dev.rf (Reg.secMboxCtrl m) 21 14 = 4 ∧
      SameSpdm s.dev.sec u.dev.sec ∧ (m.val < 4 → ∀ t : Tag, t ∈ u.dev.tags → t.purpose = .mailbox → t.a = m.val → t.reserved = true) ∧ u.mem = s.mem ∧
      u.dev.tiles = s.dev.tiles ∧ u.dev.counters = s.dev.counters)) ∧
  (∀ (s : State) (r : Requester) (m : Fin 5), Heard s r (Reg.secMboxCtrl m) (mboxWord s.dev m 2) → mayMailbox r m = true → s.dev.rf (Reg.secMboxCtrl m) 29 28 = 1 →
    (s.dev.mailbox m).writing = true →
    Ends (.secMboxAbandon r m) s (fun u => u.dev.mailbox m = { s.dev.mailbox m with abandoned := true } ∧ SameSpdm s.dev.sec u.dev.sec ∧ u.mem = s.mem ∧
      u.dev.tags = s.dev.tags ∧ u.dev.counters = s.dev.counters)) ∧
  (∀ (s : State) (k : Fin 8) (p : Fin 8) (rec : BitVec 768) (z : Session) (key : LinkKey), s.dev.sec.state = .running → s.dev.lost 4 = false →
    s.dev.sec.sessions.find? (fun x => x.number == k.val) = some z → z.ready = true → z.mayKey = true → fb rec 7 0 = p.val → fb rec 31 8 = 0 →
    fb rec 767 608 = 0 → s.dev.lost (portDie p) = false →
    key = { keyTx := BitVec.ofNat 256 (fb rec 287 32), saltTx := BitVec.ofNat 32 (fb rec 319 288), keyRx := BitVec.ofNat 256 (fb rec 575 320), saltRx := BitVec.ofNat 32 (fb rec 607 576) } →
    Ends (.linkKeyRecord k rec) s (fun u => u.dev.count Reg.secLinkKeys = s.dev.count Reg.secLinkKeys + 1 ∧
      ((s.dev.port p).idleSlot = true → (u.dev.port p).keys1 = some key ∧ (u.dev.port p).keys0 = (s.dev.port p).keys0) ∧
      ((s.dev.port p).idleSlot = false → (u.dev.port p).keys0 = some key ∧ (u.dev.port p).keys1 = (s.dev.port p).keys1) ∧
      ((s.dev.port p).state.locked = true → (u.dev.port p).linkQueue = (s.dev.port p).linkQueue ++ [(6, bytesOf [if (s.dev.port p).idleSlot then 1 else 0])]) ∧
      (u.dev.port p).state = (s.dev.port p).state ∧ (∀ q : Nat, q ≠ p.val → u.dev.port q = s.dev.port q) ∧ u.dev.regs = s.dev.regs ∧ u.dev.sec = s.dev.sec ∧
      u.mem = s.mem ∧ u.dev.tiles = s.dev.tiles))

/-- Test access (R449, R450): each TAP instruction selects its code on its die; a locked one selects BYPASS while the test lock is engaged. -/
def Obligations.TapInstructionsAreSelected : Prop :=
  (∀ (s : State) (i : Fin 6), Quiet (.tapIdcode i) s { s.begin with sec := { s.dev.sec with tap := mset s.dev.sec.tap i 1 }, out := [.tdr i 1, .idcode i (if i.val < 4 then 0x14A01B8B else 0x14A02B8B)] }) ∧
  (∀ (s : State) (i : Fin 6), Selects (.tapSamplePreload i) s i 0x02 ∧ Selects (.tapIjtagAccess i) s i 0x10 ∧ Selects (.tapBypass i) s i 0xFF) ∧
  (∀ (s : State) (i : Fin 6), s.dev.sec.testLock = true → Selects (.tapExtest i) s i 0xFF ∧ Selects (.tapClamp i) s i 0xFF ∧ Selects (.tapHighz i) s i 0xFF) ∧
  (∀ (s : State) (i : Fin 6), s.dev.sec.testLock = false → Selects (.tapExtest i) s i 0x03 ∧ Selects (.tapClamp i) s i 0x04 ∧ Selects (.tapHighz i) s i 0x05) ∧
  (∀ (s : State), Selects (.tapUnlock 4) s 4 0x20) ∧
  (∀ (s : State) (i : Fin 6), i ≠ 4 → Selects (.tapUnlock i) s i 0xFF) ∧
  (∀ (s : State), Ends .tapReset s (fun u => (∀ i, i < 6 → mget 0 u.dev.sec.tap i = 1) ∧ u.mem = s.mem ∧ u.dev.regs = s.dev.regs ∧ u.dev.counters = s.dev.counters ∧
    u.dev.sec = { s.dev.sec with tap := u.dev.sec.tap } ∧ u.dev.tiles = s.dev.tiles))

/-- A cell is read as it was built, with its CRC right, and a Pequa header keeps each of its fields (Tables 1.3 and 11.5). -/
def Obligations.CellsAndHeadersAreReadAsBuilt : Prop :=
  (∀ (q : CellRequest) (seq ack cs cc : Nat), seq < 2 ^ 16 → ack < 2 ^ 16 → cs < 2 ^ 12 → cc < 2 ^ 4 →
    cellRequest (makeCell q seq ack cs cc) = q ∧ cellSeq (makeCell q seq ack cs cc) = seq ∧ cellAck (makeCell q seq ack cs cc) = ack ∧
    fb (makeCell q seq ack cs cc) 591 580 = cs ∧ fb (makeCell q seq ack cs cc) 579 576 = cc ∧ cellCrcOk (makeCell q seq ack cs cc) = true) ∧
  (∀ (opc cls tag st ctx gen len grant addr : Nat) (bs : List Byte), opc < 64 → cls < 4 → tag < 4096 → st < 16 → ctx < 64 → gen < 256 → len < 512 →
    grant < 4 → addr < 2 ^ 64 → ∀ k : HPacket, k = { hdr := hpHdr opc cls tag st ctx gen len grant addr, data := bs } →
    k.opc = opc ∧ k.cls = cls ∧ k.tag = tag ∧ k.status = st ∧ k.ctx = ctx ∧ k.gen = gen ∧ k.len = len ∧ k.grant = grant ∧ k.addr = addr)

/-- A value that a format holds converts to its own code, whatever the rounding, and an integer to its own pattern (R79, R89, R92, R474). -/
def Obligations.CodesConvertToThemselves : Prop :=
  (∀ (f : Fmt) (infMode : Bool) (r : Rounding) (c : Nat), f ∈ [fp32, bf16, fp16, e4m3, e5m2, e2m1] → c < 2 ^ f.width → f.decode c ≠ .nan →
    (convertF f infMode false r (f.decode c)).1 = c ∧ (convertF f infMode false r (f.decode c)).2 ≠ .over ∧ (convertF f infMode false r (f.decode c)).2 ≠ .flush) ∧
  (∀ (sg : Bool) (w n c : Nat), intOf n = some (sg, w) → c < 2 ^ w → convertI sg w (decodeCode n sg c) = (c, .none))

/-- The block scale E8M0 (R82): code c from 0 to 254 multiplies an element's value by 2^(c - 127), code 0xFF gives NaN; it has no sign, no
zero and no infinity. -/
def Obligations.BlockScalesAreE8M0 : Prop :=
  (∀ (s : Bool) (m : Nat) (e : Int) (c : Nat), c < 255 → underBlockScale (.fin s m e) c = .fin s m (e + ((c : Int) - 127))) ∧
  (∀ (v : Val), underBlockScale v 255 = .nan) ∧
  (∀ (s : Bool) (c : Nat), c < 255 → underBlockScale (.inf s) c = .inf s ∧ underBlockScale .nan c = .nan)

/-- No register write of a host port to the window of a context it does not own changes anything but the port's own copies and
DEV_REG_REFUSED (R415, R416, R417, R420, Table 14.4). -/
def Obligations.NonOwnersChangeNothingInAWindow : Prop :=
  ∀ (s : State) (p : Fin 4) (c : Fin 64) (a : BitVec 39) (v : BitVec 32), 0x100000 ≤ a.toNat → a.toNat < 0x500000 → s.dev.isOwner (.host p) (keyCtx a.toNat) = false →
    s.dev.sec.testLock = true →
    Ends (.registerWrite (.host p) c a v) s (fun u => u.mem = s.mem ∧ (∀ k, k ≠ Reg.devRegRefused → u.dev.count k = s.dev.count k) ∧
      (∀ j : Nat, j ≠ p.val → u.dev.req j = s.dev.req j) ∧ u.dev = { s.begin with reqs := u.dev.reqs, counters := u.dev.counters, out := u.dev.out })
end

