-- ==== Sys2Proof/Laws/State.lean ====
section
/-! SUPPORT. What each named update of the device leaves as it was: one lemma per field and update, so that no later proof unfolds
a record update; what a table, a register, a counter and a unit read after an update. -/

namespace Sys2Proof.Machine

@[simp] theorem Dev.setReg_counters (d : Dev) (k : Nat) (v : BitVec 32) : (d.setReg k v).counters = d.counters := rfl
@[simp] theorem Dev.setReg_reqs (d : Dev) (k : Nat) (v : BitVec 32) : (d.setReg k v).reqs = d.reqs := rfl
@[simp] theorem Dev.setReg_fuses (d : Dev) (k : Nat) (v : BitVec 32) : (d.setReg k v).fuses = d.fuses := rfl
@[simp] theorem Dev.setReg_bringUp (d : Dev) (k : Nat) (v : BitVec 32) : (d.setReg k v).bringUp = d.bringUp := rfl
@[simp] theorem Dev.setReg_outcome (d : Dev) (k : Nat) (v : BitVec 32) : (d.setReg k v).outcome = d.outcome := rfl
@[simp] theorem Dev.setReg_role (d : Dev) (k : Nat) (v : BitVec 32) : (d.setReg k v).role = d.role := rfl
@[simp] theorem Dev.setReg_iaPresent (d : Dev) (k : Nat) (v : BitVec 32) : (d.setReg k v).iaPresent = d.iaPresent := rfl
@[simp] theorem Dev.setReg_ibPresent (d : Dev) (k : Nat) (v : BitVec 32) : (d.setReg k v).ibPresent = d.ibPresent := rfl
@[simp] theorem Dev.setReg_fenced (d : Dev) (k : Nat) (v : BitVec 32) : (d.setReg k v).fenced = d.fenced := rfl
@[simp] theorem Dev.setReg_fenceCause (d : Dev) (k : Nat) (v : BitVec 32) : (d.setReg k v).fenceCause = d.fenceCause := rfl
@[simp] theorem Dev.setReg_idModeNow (d : Dev) (k : Nat) (v : BitVec 32) : (d.setReg k v).idModeNow = d.idModeNow := rfl
@[simp] theorem Dev.setReg_idModeNext (d : Dev) (k : Nat) (v : BitVec 32) : (d.setReg k v).idModeNext = d.idModeNext := rfl
@[simp] theorem Dev.setReg_negGen (d : Dev) (k : Nat) (v : BitVec 32) : (d.setReg k v).negGen = d.negGen := rfl
@[simp] theorem Dev.setReg_iodGen (d : Dev) (k : Nat) (v : BitVec 32) : (d.setReg k v).iodGen = d.iodGen := rfl
@[simp] theorem Dev.setReg_cmpGen (d : Dev) (k : Nat) (v : BitVec 32) : (d.setReg k v).cmpGen = d.cmpGen := rfl
@[simp] theorem Dev.setReg_negCaps (d : Dev) (k : Nat) (v : BitVec 32) : (d.setReg k v).negCaps = d.negCaps := rfl
@[simp] theorem Dev.setReg_dies (d : Dev) (k : Nat) (v : BitVec 32) : (d.setReg k v).dies = d.dies := rfl
@[simp] theorem Dev.setReg_modules (d : Dev) (k : Nat) (v : BitVec 32) : (d.setReg k v).modules = d.modules := rfl
@[simp] theorem Dev.setReg_ctlModule (d : Dev) (k : Nat) (v : BitVec 32) : (d.setReg k v).ctlModule = d.ctlModule := rfl
@[simp] theorem Dev.setReg_stopped (d : Dev) (k : Nat) (v : BitVec 32) : (d.setReg k v).stopped = d.stopped := rfl
@[simp] theorem Dev.setReg_onAlternate (d : Dev) (k : Nat) (v : BitVec 32) : (d.setReg k v).onAlternate = d.onAlternate := rfl
@[simp] theorem Dev.setReg_tiles (d : Dev) (k : Nat) (v : BitVec 32) : (d.setReg k v).tiles = d.tiles := rfl
@[simp] theorem Dev.setReg_hbm (d : Dev) (k : Nat) (v : BitVec 32) : (d.setReg k v).hbm = d.hbm := rfl
@[simp] theorem Dev.setReg_pages (d : Dev) (k : Nat) (v : BitVec 32) : (d.setReg k v).pages = d.pages := rfl
@[simp] theorem Dev.setReg_badBursts (d : Dev) (k : Nat) (v : BitVec 32) : (d.setReg k v).badBursts = d.badBursts := rfl
@[simp] theorem Dev.setReg_strata (d : Dev) (k : Nat) (v : BitVec 32) : (d.setReg k v).strata = d.strata := rfl
@[simp] theorem Dev.setReg_ports (d : Dev) (k : Nat) (v : BitVec 32) : (d.setReg k v).ports = d.ports := rfl
@[simp] theorem Dev.setReg_nextTag (d : Dev) (k : Nat) (v : BitVec 32) : (d.setReg k v).nextTag = d.nextTag := rfl
@[simp] theorem Dev.setReg_nextBulk (d : Dev) (k : Nat) (v : BitVec 32) : (d.setReg k v).nextBulk = d.nextBulk := rfl
@[simp] theorem Dev.setReg_tags (d : Dev) (k : Nat) (v : BitVec 32) : (d.setReg k v).tags = d.tags := rfl
@[simp] theorem Dev.setReg_localOut (d : Dev) (k : Nat) (v : BitVec 32) : (d.setReg k v).localOut = d.localOut := rfl
@[simp] theorem Dev.setReg_inbox (d : Dev) (k : Nat) (v : BitVec 32) : (d.setReg k v).inbox = d.inbox := rfl
@[simp] theorem Dev.setReg_inGroups (d : Dev) (k : Nat) (v : BitVec 32) : (d.setReg k v).inGroups = d.inGroups := rfl
@[simp] theorem Dev.setReg_outGroups (d : Dev) (k : Nat) (v : BitVec 32) : (d.setReg k v).outGroups = d.outGroups := rfl
@[simp] theorem Dev.setReg_pushes (d : Dev) (k : Nat) (v : BitVec 32) : (d.setReg k v).pushes = d.pushes := rfl
@[simp] theorem Dev.setReg_bridges (d : Dev) (k : Nat) (v : BitVec 32) : (d.setReg k v).bridges = d.bridges := rfl
@[simp] theorem Dev.setReg_lode (d : Dev) (k : Nat) (v : BitVec 32) : (d.setReg k v).lode = d.lode := rfl
@[simp] theorem Dev.setReg_cairns (d : Dev) (k : Nat) (v : BitVec 32) : (d.setReg k v).cairns = d.cairns := rfl
@[simp] theorem Dev.setReg_openings (d : Dev) (k : Nat) (v : BitVec 32) : (d.setReg k v).openings = d.openings := rfl
@[simp] theorem Dev.setReg_repeats (d : Dev) (k : Nat) (v : BitVec 32) : (d.setReg k v).repeats = d.repeats := rfl
@[simp] theorem Dev.setReg_hosts (d : Dev) (k : Nat) (v : BitVec 32) : (d.setReg k v).hosts = d.hosts := rfl
@[simp] theorem Dev.setReg_admin (d : Dev) (k : Nat) (v : BitVec 32) : (d.setReg k v).admin = d.admin := rfl
@[simp] theorem Dev.setReg_ctxs (d : Dev) (k : Nat) (v : BitVec 32) : (d.setReg k v).ctxs = d.ctxs := rfl
@[simp] theorem Dev.setReg_pkgEvents (d : Dev) (k : Nat) (v : BitVec 32) : (d.setReg k v).pkgEvents = d.pkgEvents := rfl
@[simp] theorem Dev.setReg_directory (d : Dev) (k : Nat) (v : BitVec 32) : (d.setReg k v).directory = d.directory := rfl
@[simp] theorem Dev.setReg_waiting (d : Dev) (k : Nat) (v : BitVec 32) : (d.setReg k v).waiting = d.waiting := rfl
@[simp] theorem Dev.setReg_snoops (d : Dev) (k : Nat) (v : BitVec 32) : (d.setReg k v).snoops = d.snoops := rfl
@[simp] theorem Dev.setReg_ras (d : Dev) (k : Nat) (v : BitVec 32) : (d.setReg k v).ras = d.ras := rfl
@[simp] theorem Dev.setReg_sec (d : Dev) (k : Nat) (v : BitVec 32) : (d.setReg k v).sec = d.sec := rfl
@[simp] theorem Dev.setReg_pwr (d : Dev) (k : Nat) (v : BitVec 32) : (d.setReg k v).pwr = d.pwr := rfl
@[simp] theorem Dev.setReg_free (d : Dev) (k : Nat) (v : BitVec 32) : (d.setReg k v).free = d.free := rfl
@[simp] theorem Dev.setReg_stores (d : Dev) (k : Nat) (v : BitVec 32) : (d.setReg k v).stores = d.stores := rfl
@[simp] theorem Dev.setReg_wipes (d : Dev) (k : Nat) (v : BitVec 32) : (d.setReg k v).wipes = d.wipes := rfl
@[simp] theorem Dev.setReg_out (d : Dev) (k : Nat) (v : BitVec 32) : (d.setReg k v).out = d.out := rfl

@[simp] theorem Dev.setRegN_counters (d : Dev) (k v : Nat) : (d.setRegN k v).counters = d.counters := rfl
@[simp] theorem Dev.setRegN_reqs (d : Dev) (k v : Nat) : (d.setRegN k v).reqs = d.reqs := rfl
@[simp] theorem Dev.setRegN_fuses (d : Dev) (k v : Nat) : (d.setRegN k v).fuses = d.fuses := rfl
@[simp] theorem Dev.setRegN_bringUp (d : Dev) (k v : Nat) : (d.setRegN k v).bringUp = d.bringUp := rfl
@[simp] theorem Dev.setRegN_outcome (d : Dev) (k v : Nat) : (d.setRegN k v).outcome = d.outcome := rfl
@[simp] theorem Dev.setRegN_role (d : Dev) (k v : Nat) : (d.setRegN k v).role = d.role := rfl
@[simp] theorem Dev.setRegN_iaPresent (d : Dev) (k v : Nat) : (d.setRegN k v).iaPresent = d.iaPresent := rfl
@[simp] theorem Dev.setRegN_ibPresent (d : Dev) (k v : Nat) : (d.setRegN k v).ibPresent = d.ibPresent := rfl
@[simp] theorem Dev.setRegN_fenced (d : Dev) (k v : Nat) : (d.setRegN k v).fenced = d.fenced := rfl
@[simp] theorem Dev.setRegN_fenceCause (d : Dev) (k v : Nat) : (d.setRegN k v).fenceCause = d.fenceCause := rfl
@[simp] theorem Dev.setRegN_idModeNow (d : Dev) (k v : Nat) : (d.setRegN k v).idModeNow = d.idModeNow := rfl
@[simp] theorem Dev.setRegN_idModeNext (d : Dev) (k v : Nat) : (d.setRegN k v).idModeNext = d.idModeNext := rfl
@[simp] theorem Dev.setRegN_negGen (d : Dev) (k v : Nat) : (d.setRegN k v).negGen = d.negGen := rfl
@[simp] theorem Dev.setRegN_iodGen (d : Dev) (k v : Nat) : (d.setRegN k v).iodGen = d.iodGen := rfl
@[simp] theorem Dev.setRegN_cmpGen (d : Dev) (k v : Nat) : (d.setRegN k v).cmpGen = d.cmpGen := rfl
@[simp] theorem Dev.setRegN_negCaps (d : Dev) (k v : Nat) : (d.setRegN k v).negCaps = d.negCaps := rfl
@[simp] theorem Dev.setRegN_dies (d : Dev) (k v : Nat) : (d.setRegN k v).dies = d.dies := rfl
@[simp] theorem Dev.setRegN_modules (d : Dev) (k v : Nat) : (d.setRegN k v).modules = d.modules := rfl
@[simp] theorem Dev.setRegN_ctlModule (d : Dev) (k v : Nat) : (d.setRegN k v).ctlModule = d.ctlModule := rfl
@[simp] theorem Dev.setRegN_stopped (d : Dev) (k v : Nat) : (d.setRegN k v).stopped = d.stopped := rfl
@[simp] theorem Dev.setRegN_onAlternate (d : Dev) (k v : Nat) : (d.setRegN k v).onAlternate = d.onAlternate := rfl
@[simp] theorem Dev.setRegN_tiles (d : Dev) (k v : Nat) : (d.setRegN k v).tiles = d.tiles := rfl
@[simp] theorem Dev.setRegN_hbm (d : Dev) (k v : Nat) : (d.setRegN k v).hbm = d.hbm := rfl
@[simp] theorem Dev.setRegN_pages (d : Dev) (k v : Nat) : (d.setRegN k v).pages = d.pages := rfl
@[simp] theorem Dev.setRegN_badBursts (d : Dev) (k v : Nat) : (d.setRegN k v).badBursts = d.badBursts := rfl
@[simp] theorem Dev.setRegN_strata (d : Dev) (k v : Nat) : (d.setRegN k v).strata = d.strata := rfl
@[simp] theorem Dev.setRegN_ports (d : Dev) (k v : Nat) : (d.setRegN k v).ports = d.ports := rfl
@[simp] theorem Dev.setRegN_nextTag (d : Dev) (k v : Nat) : (d.setRegN k v).nextTag = d.nextTag := rfl
@[simp] theorem Dev.setRegN_nextBulk (d : Dev) (k v : Nat) : (d.setRegN k v).nextBulk = d.nextBulk := rfl
@[simp] theorem Dev.setRegN_tags (d : Dev) (k v : Nat) : (d.setRegN k v).tags = d.tags := rfl
@[simp] theorem Dev.setRegN_localOut (d : Dev) (k v : Nat) : (d.setRegN k v).localOut = d.localOut := rfl
@[simp] theorem Dev.setRegN_inbox (d : Dev) (k v : Nat) : (d.setRegN k v).inbox = d.inbox := rfl
@[simp] theorem Dev.setRegN_inGroups (d : Dev) (k v : Nat) : (d.setRegN k v).inGroups = d.inGroups := rfl
@[simp] theorem Dev.setRegN_outGroups (d : Dev) (k v : Nat) : (d.setRegN k v).outGroups = d.outGroups := rfl
@[simp] theorem Dev.setRegN_pushes (d : Dev) (k v : Nat) : (d.setRegN k v).pushes = d.pushes := rfl
@[simp] theorem Dev.setRegN_bridges (d : Dev) (k v : Nat) : (d.setRegN k v).bridges = d.bridges := rfl
@[simp] theorem Dev.setRegN_lode (d : Dev) (k v : Nat) : (d.setRegN k v).lode = d.lode := rfl
@[simp] theorem Dev.setRegN_cairns (d : Dev) (k v : Nat) : (d.setRegN k v).cairns = d.cairns := rfl
@[simp] theorem Dev.setRegN_openings (d : Dev) (k v : Nat) : (d.setRegN k v).openings = d.openings := rfl
@[simp] theorem Dev.setRegN_repeats (d : Dev) (k v : Nat) : (d.setRegN k v).repeats = d.repeats := rfl
@[simp] theorem Dev.setRegN_hosts (d : Dev) (k v : Nat) : (d.setRegN k v).hosts = d.hosts := rfl
@[simp] theorem Dev.setRegN_admin (d : Dev) (k v : Nat) : (d.setRegN k v).admin = d.admin := rfl
@[simp] theorem Dev.setRegN_ctxs (d : Dev) (k v : Nat) : (d.setRegN k v).ctxs = d.ctxs := rfl
@[simp] theorem Dev.setRegN_pkgEvents (d : Dev) (k v : Nat) : (d.setRegN k v).pkgEvents = d.pkgEvents := rfl
@[simp] theorem Dev.setRegN_directory (d : Dev) (k v : Nat) : (d.setRegN k v).directory = d.directory := rfl
@[simp] theorem Dev.setRegN_waiting (d : Dev) (k v : Nat) : (d.setRegN k v).waiting = d.waiting := rfl
@[simp] theorem Dev.setRegN_snoops (d : Dev) (k v : Nat) : (d.setRegN k v).snoops = d.snoops := rfl
@[simp] theorem Dev.setRegN_ras (d : Dev) (k v : Nat) : (d.setRegN k v).ras = d.ras := rfl
@[simp] theorem Dev.setRegN_sec (d : Dev) (k v : Nat) : (d.setRegN k v).sec = d.sec := rfl
@[simp] theorem Dev.setRegN_pwr (d : Dev) (k v : Nat) : (d.setRegN k v).pwr = d.pwr := rfl
@[simp] theorem Dev.setRegN_free (d : Dev) (k v : Nat) : (d.setRegN k v).free = d.free := rfl
@[simp] theorem Dev.setRegN_stores (d : Dev) (k v : Nat) : (d.setRegN k v).stores = d.stores := rfl
@[simp] theorem Dev.setRegN_wipes (d : Dev) (k v : Nat) : (d.setRegN k v).wipes = d.wipes := rfl
@[simp] theorem Dev.setRegN_out (d : Dev) (k v : Nat) : (d.setRegN k v).out = d.out := rfl

@[simp] theorem Dev.setRf_counters (d : Dev) (k hi lo x : Nat) : (d.setRf k hi lo x).counters = d.counters := rfl
@[simp] theorem Dev.setRf_reqs (d : Dev) (k hi lo x : Nat) : (d.setRf k hi lo x).reqs = d.reqs := rfl
@[simp] theorem Dev.setRf_fuses (d : Dev) (k hi lo x : Nat) : (d.setRf k hi lo x).fuses = d.fuses := rfl
@[simp] theorem Dev.setRf_bringUp (d : Dev) (k hi lo x : Nat) : (d.setRf k hi lo x).bringUp = d.bringUp := rfl
@[simp] theorem Dev.setRf_outcome (d : Dev) (k hi lo x : Nat) : (d.setRf k hi lo x).outcome = d.outcome := rfl
@[simp] theorem Dev.setRf_role (d : Dev) (k hi lo x : Nat) : (d.setRf k hi lo x).role = d.role := rfl
@[simp] theorem Dev.setRf_iaPresent (d : Dev) (k hi lo x : Nat) : (d.setRf k hi lo x).iaPresent = d.iaPresent := rfl
@[simp] theorem Dev.setRf_ibPresent (d : Dev) (k hi lo x : Nat) : (d.setRf k hi lo x).ibPresent = d.ibPresent := rfl
@[simp] theorem Dev.setRf_fenced (d : Dev) (k hi lo x : Nat) : (d.setRf k hi lo x).fenced = d.fenced := rfl
@[simp] theorem Dev.setRf_fenceCause (d : Dev) (k hi lo x : Nat) : (d.setRf k hi lo x).fenceCause = d.fenceCause := rfl
@[simp] theorem Dev.setRf_idModeNow (d : Dev) (k hi lo x : Nat) : (d.setRf k hi lo x).idModeNow = d.idModeNow := rfl
@[simp] theorem Dev.setRf_idModeNext (d : Dev) (k hi lo x : Nat) : (d.setRf k hi lo x).idModeNext = d.idModeNext := rfl
@[simp] theorem Dev.setRf_negGen (d : Dev) (k hi lo x : Nat) : (d.setRf k hi lo x).negGen = d.negGen := rfl
@[simp] theorem Dev.setRf_iodGen (d : Dev) (k hi lo x : Nat) : (d.setRf k hi lo x).iodGen = d.iodGen := rfl
@[simp] theorem Dev.setRf_cmpGen (d : Dev) (k hi lo x : Nat) : (d.setRf k hi lo x).cmpGen = d.cmpGen := rfl
@[simp] theorem Dev.setRf_negCaps (d : Dev) (k hi lo x : Nat) : (d.setRf k hi lo x).negCaps = d.negCaps := rfl
@[simp] theorem Dev.setRf_dies (d : Dev) (k hi lo x : Nat) : (d.setRf k hi lo x).dies = d.dies := rfl
@[simp] theorem Dev.setRf_modules (d : Dev) (k hi lo x : Nat) : (d.setRf k hi lo x).modules = d.modules := rfl
@[simp] theorem Dev.setRf_ctlModule (d : Dev) (k hi lo x : Nat) : (d.setRf k hi lo x).ctlModule = d.ctlModule := rfl
@[simp] theorem Dev.setRf_stopped (d : Dev) (k hi lo x : Nat) : (d.setRf k hi lo x).stopped = d.stopped := rfl
@[simp] theorem Dev.setRf_onAlternate (d : Dev) (k hi lo x : Nat) : (d.setRf k hi lo x).onAlternate = d.onAlternate := rfl
@[simp] theorem Dev.setRf_tiles (d : Dev) (k hi lo x : Nat) : (d.setRf k hi lo x).tiles = d.tiles := rfl
@[simp] theorem Dev.setRf_hbm (d : Dev) (k hi lo x : Nat) : (d.setRf k hi lo x).hbm = d.hbm := rfl
@[simp] theorem Dev.setRf_pages (d : Dev) (k hi lo x : Nat) : (d.setRf k hi lo x).pages = d.pages := rfl
@[simp] theorem Dev.setRf_badBursts (d : Dev) (k hi lo x : Nat) : (d.setRf k hi lo x).badBursts = d.badBursts := rfl
@[simp] theorem Dev.setRf_strata (d : Dev) (k hi lo x : Nat) : (d.setRf k hi lo x).strata = d.strata := rfl
@[simp] theorem Dev.setRf_ports (d : Dev) (k hi lo x : Nat) : (d.setRf k hi lo x).ports = d.ports := rfl
@[simp] theorem Dev.setRf_nextTag (d : Dev) (k hi lo x : Nat) : (d.setRf k hi lo x).nextTag = d.nextTag := rfl
@[simp] theorem Dev.setRf_nextBulk (d : Dev) (k hi lo x : Nat) : (d.setRf k hi lo x).nextBulk = d.nextBulk := rfl
@[simp] theorem Dev.setRf_tags (d : Dev) (k hi lo x : Nat) : (d.setRf k hi lo x).tags = d.tags := rfl
@[simp] theorem Dev.setRf_localOut (d : Dev) (k hi lo x : Nat) : (d.setRf k hi lo x).localOut = d.localOut := rfl
@[simp] theorem Dev.setRf_inbox (d : Dev) (k hi lo x : Nat) : (d.setRf k hi lo x).inbox = d.inbox := rfl
@[simp] theorem Dev.setRf_inGroups (d : Dev) (k hi lo x : Nat) : (d.setRf k hi lo x).inGroups = d.inGroups := rfl
@[simp] theorem Dev.setRf_outGroups (d : Dev) (k hi lo x : Nat) : (d.setRf k hi lo x).outGroups = d.outGroups := rfl
@[simp] theorem Dev.setRf_pushes (d : Dev) (k hi lo x : Nat) : (d.setRf k hi lo x).pushes = d.pushes := rfl
@[simp] theorem Dev.setRf_bridges (d : Dev) (k hi lo x : Nat) : (d.setRf k hi lo x).bridges = d.bridges := rfl
@[simp] theorem Dev.setRf_lode (d : Dev) (k hi lo x : Nat) : (d.setRf k hi lo x).lode = d.lode := rfl
@[simp] theorem Dev.setRf_cairns (d : Dev) (k hi lo x : Nat) : (d.setRf k hi lo x).cairns = d.cairns := rfl
@[simp] theorem Dev.setRf_openings (d : Dev) (k hi lo x : Nat) : (d.setRf k hi lo x).openings = d.openings := rfl
@[simp] theorem Dev.setRf_repeats (d : Dev) (k hi lo x : Nat) : (d.setRf k hi lo x).repeats = d.repeats := rfl
@[simp] theorem Dev.setRf_hosts (d : Dev) (k hi lo x : Nat) : (d.setRf k hi lo x).hosts = d.hosts := rfl
@[simp] theorem Dev.setRf_admin (d : Dev) (k hi lo x : Nat) : (d.setRf k hi lo x).admin = d.admin := rfl
@[simp] theorem Dev.setRf_ctxs (d : Dev) (k hi lo x : Nat) : (d.setRf k hi lo x).ctxs = d.ctxs := rfl
@[simp] theorem Dev.setRf_pkgEvents (d : Dev) (k hi lo x : Nat) : (d.setRf k hi lo x).pkgEvents = d.pkgEvents := rfl
@[simp] theorem Dev.setRf_directory (d : Dev) (k hi lo x : Nat) : (d.setRf k hi lo x).directory = d.directory := rfl
@[simp] theorem Dev.setRf_waiting (d : Dev) (k hi lo x : Nat) : (d.setRf k hi lo x).waiting = d.waiting := rfl
@[simp] theorem Dev.setRf_snoops (d : Dev) (k hi lo x : Nat) : (d.setRf k hi lo x).snoops = d.snoops := rfl
@[simp] theorem Dev.setRf_ras (d : Dev) (k hi lo x : Nat) : (d.setRf k hi lo x).ras = d.ras := rfl
@[simp] theorem Dev.setRf_sec (d : Dev) (k hi lo x : Nat) : (d.setRf k hi lo x).sec = d.sec := rfl
@[simp] theorem Dev.setRf_pwr (d : Dev) (k hi lo x : Nat) : (d.setRf k hi lo x).pwr = d.pwr := rfl
@[simp] theorem Dev.setRf_free (d : Dev) (k hi lo x : Nat) : (d.setRf k hi lo x).free = d.free := rfl
@[simp] theorem Dev.setRf_stores (d : Dev) (k hi lo x : Nat) : (d.setRf k hi lo x).stores = d.stores := rfl
@[simp] theorem Dev.setRf_wipes (d : Dev) (k hi lo x : Nat) : (d.setRf k hi lo x).wipes = d.wipes := rfl
@[simp] theorem Dev.setRf_out (d : Dev) (k hi lo x : Nat) : (d.setRf k hi lo x).out = d.out := rfl

@[simp] theorem Dev.setReg64_counters (d : Dev) (k v : Nat) : (d.setReg64 k v).counters = d.counters := rfl
@[simp] theorem Dev.setReg64_reqs (d : Dev) (k v : Nat) : (d.setReg64 k v).reqs = d.reqs := rfl
@[simp] theorem Dev.setReg64_fuses (d : Dev) (k v : Nat) : (d.setReg64 k v).fuses = d.fuses := rfl
@[simp] theorem Dev.setReg64_bringUp (d : Dev) (k v : Nat) : (d.setReg64 k v).bringUp = d.bringUp := rfl
@[simp] theorem Dev.setReg64_outcome (d : Dev) (k v : Nat) : (d.setReg64 k v).outcome = d.outcome := rfl
@[simp] theorem Dev.setReg64_role (d : Dev) (k v : Nat) : (d.setReg64 k v).role = d.role := rfl
@[simp] theorem Dev.setReg64_iaPresent (d : Dev) (k v : Nat) : (d.setReg64 k v).iaPresent = d.iaPresent := rfl
@[simp] theorem Dev.setReg64_ibPresent (d : Dev) (k v : Nat) : (d.setReg64 k v).ibPresent = d.ibPresent := rfl
@[simp] theorem Dev.setReg64_fenced (d : Dev) (k v : Nat) : (d.setReg64 k v).fenced = d.fenced := rfl
@[simp] theorem Dev.setReg64_fenceCause (d : Dev) (k v : Nat) : (d.setReg64 k v).fenceCause = d.fenceCause := rfl
@[simp] theorem Dev.setReg64_idModeNow (d : Dev) (k v : Nat) : (d.setReg64 k v).idModeNow = d.idModeNow := rfl
@[simp] theorem Dev.setReg64_idModeNext (d : Dev) (k v : Nat) : (d.setReg64 k v).idModeNext = d.idModeNext := rfl
@[simp] theorem Dev.setReg64_negGen (d : Dev) (k v : Nat) : (d.setReg64 k v).negGen = d.negGen := rfl
@[simp] theorem Dev.setReg64_iodGen (d : Dev) (k v : Nat) : (d.setReg64 k v).iodGen = d.iodGen := rfl
@[simp] theorem Dev.setReg64_cmpGen (d : Dev) (k v : Nat) : (d.setReg64 k v).cmpGen = d.cmpGen := rfl
@[simp] theorem Dev.setReg64_negCaps (d : Dev) (k v : Nat) : (d.setReg64 k v).negCaps = d.negCaps := rfl
@[simp] theorem Dev.setReg64_dies (d : Dev) (k v : Nat) : (d.setReg64 k v).dies = d.dies := rfl
@[simp] theorem Dev.setReg64_modules (d : Dev) (k v : Nat) : (d.setReg64 k v).modules = d.modules := rfl
@[simp] theorem Dev.setReg64_ctlModule (d : Dev) (k v : Nat) : (d.setReg64 k v).ctlModule = d.ctlModule := rfl
@[simp] theorem Dev.setReg64_stopped (d : Dev) (k v : Nat) : (d.setReg64 k v).stopped = d.stopped := rfl
@[simp] theorem Dev.setReg64_onAlternate (d : Dev) (k v : Nat) : (d.setReg64 k v).onAlternate = d.onAlternate := rfl
@[simp] theorem Dev.setReg64_tiles (d : Dev) (k v : Nat) : (d.setReg64 k v).tiles = d.tiles := rfl
@[simp] theorem Dev.setReg64_hbm (d : Dev) (k v : Nat) : (d.setReg64 k v).hbm = d.hbm := rfl
@[simp] theorem Dev.setReg64_pages (d : Dev) (k v : Nat) : (d.setReg64 k v).pages = d.pages := rfl
@[simp] theorem Dev.setReg64_badBursts (d : Dev) (k v : Nat) : (d.setReg64 k v).badBursts = d.badBursts := rfl
@[simp] theorem Dev.setReg64_strata (d : Dev) (k v : Nat) : (d.setReg64 k v).strata = d.strata := rfl
@[simp] theorem Dev.setReg64_ports (d : Dev) (k v : Nat) : (d.setReg64 k v).ports = d.ports := rfl
@[simp] theorem Dev.setReg64_nextTag (d : Dev) (k v : Nat) : (d.setReg64 k v).nextTag = d.nextTag := rfl
@[simp] theorem Dev.setReg64_nextBulk (d : Dev) (k v : Nat) : (d.setReg64 k v).nextBulk = d.nextBulk := rfl
@[simp] theorem Dev.setReg64_tags (d : Dev) (k v : Nat) : (d.setReg64 k v).tags = d.tags := rfl
@[simp] theorem Dev.setReg64_localOut (d : Dev) (k v : Nat) : (d.setReg64 k v).localOut = d.localOut := rfl
@[simp] theorem Dev.setReg64_inbox (d : Dev) (k v : Nat) : (d.setReg64 k v).inbox = d.inbox := rfl
@[simp] theorem Dev.setReg64_inGroups (d : Dev) (k v : Nat) : (d.setReg64 k v).inGroups = d.inGroups := rfl
@[simp] theorem Dev.setReg64_outGroups (d : Dev) (k v : Nat) : (d.setReg64 k v).outGroups = d.outGroups := rfl
@[simp] theorem Dev.setReg64_pushes (d : Dev) (k v : Nat) : (d.setReg64 k v).pushes = d.pushes := rfl
@[simp] theorem Dev.setReg64_bridges (d : Dev) (k v : Nat) : (d.setReg64 k v).bridges = d.bridges := rfl
@[simp] theorem Dev.setReg64_lode (d : Dev) (k v : Nat) : (d.setReg64 k v).lode = d.lode := rfl
@[simp] theorem Dev.setReg64_cairns (d : Dev) (k v : Nat) : (d.setReg64 k v).cairns = d.cairns := rfl
@[simp] theorem Dev.setReg64_openings (d : Dev) (k v : Nat) : (d.setReg64 k v).openings = d.openings := rfl
@[simp] theorem Dev.setReg64_repeats (d : Dev) (k v : Nat) : (d.setReg64 k v).repeats = d.repeats := rfl
@[simp] theorem Dev.setReg64_hosts (d : Dev) (k v : Nat) : (d.setReg64 k v).hosts = d.hosts := rfl
@[simp] theorem Dev.setReg64_admin (d : Dev) (k v : Nat) : (d.setReg64 k v).admin = d.admin := rfl
@[simp] theorem Dev.setReg64_ctxs (d : Dev) (k v : Nat) : (d.setReg64 k v).ctxs = d.ctxs := rfl
@[simp] theorem Dev.setReg64_pkgEvents (d : Dev) (k v : Nat) : (d.setReg64 k v).pkgEvents = d.pkgEvents := rfl
@[simp] theorem Dev.setReg64_directory (d : Dev) (k v : Nat) : (d.setReg64 k v).directory = d.directory := rfl
@[simp] theorem Dev.setReg64_waiting (d : Dev) (k v : Nat) : (d.setReg64 k v).waiting = d.waiting := rfl
@[simp] theorem Dev.setReg64_snoops (d : Dev) (k v : Nat) : (d.setReg64 k v).snoops = d.snoops := rfl
@[simp] theorem Dev.setReg64_ras (d : Dev) (k v : Nat) : (d.setReg64 k v).ras = d.ras := rfl
@[simp] theorem Dev.setReg64_sec (d : Dev) (k v : Nat) : (d.setReg64 k v).sec = d.sec := rfl
@[simp] theorem Dev.setReg64_pwr (d : Dev) (k v : Nat) : (d.setReg64 k v).pwr = d.pwr := rfl
@[simp] theorem Dev.setReg64_free (d : Dev) (k v : Nat) : (d.setReg64 k v).free = d.free := rfl
@[simp] theorem Dev.setReg64_stores (d : Dev) (k v : Nat) : (d.setReg64 k v).stores = d.stores := rfl
@[simp] theorem Dev.setReg64_wipes (d : Dev) (k v : Nat) : (d.setReg64 k v).wipes = d.wipes := rfl
@[simp] theorem Dev.setReg64_out (d : Dev) (k v : Nat) : (d.setReg64 k v).out = d.out := rfl

@[simp] theorem Dev.bumpN_regs (d : Dev) (k n : Nat) : (d.bumpN k n).regs = d.regs := rfl
@[simp] theorem Dev.bumpN_reqs (d : Dev) (k n : Nat) : (d.bumpN k n).reqs = d.reqs := rfl
@[simp] theorem Dev.bumpN_fuses (d : Dev) (k n : Nat) : (d.bumpN k n).fuses = d.fuses := rfl
@[simp] theorem Dev.bumpN_bringUp (d : Dev) (k n : Nat) : (d.bumpN k n).bringUp = d.bringUp := rfl
@[simp] theorem Dev.bumpN_outcome (d : Dev) (k n : Nat) : (d.bumpN k n).outcome = d.outcome := rfl
@[simp] theorem Dev.bumpN_role (d : Dev) (k n : Nat) : (d.bumpN k n).role = d.role := rfl
@[simp] theorem Dev.bumpN_iaPresent (d : Dev) (k n : Nat) : (d.bumpN k n).iaPresent = d.iaPresent := rfl
@[simp] theorem Dev.bumpN_ibPresent (d : Dev) (k n : Nat) : (d.bumpN k n).ibPresent = d.ibPresent := rfl
@[simp] theorem Dev.bumpN_fenced (d : Dev) (k n : Nat) : (d.bumpN k n).fenced = d.fenced := rfl
@[simp] theorem Dev.bumpN_fenceCause (d : Dev) (k n : Nat) : (d.bumpN k n).fenceCause = d.fenceCause := rfl
@[simp] theorem Dev.bumpN_idModeNow (d : Dev) (k n : Nat) : (d.bumpN k n).idModeNow = d.idModeNow := rfl
@[simp] theorem Dev.bumpN_idModeNext (d : Dev) (k n : Nat) : (d.bumpN k n).idModeNext = d.idModeNext := rfl
@[simp] theorem Dev.bumpN_negGen (d : Dev) (k n : Nat) : (d.bumpN k n).negGen = d.negGen := rfl
@[simp] theorem Dev.bumpN_iodGen (d : Dev) (k n : Nat) : (d.bumpN k n).iodGen = d.iodGen := rfl
@[simp] theorem Dev.bumpN_cmpGen (d : Dev) (k n : Nat) : (d.bumpN k n).cmpGen = d.cmpGen := rfl
@[simp] theorem Dev.bumpN_negCaps (d : Dev) (k n : Nat) : (d.bumpN k n).negCaps = d.negCaps := rfl
@[simp] theorem Dev.bumpN_dies (d : Dev) (k n : Nat) : (d.bumpN k n).dies = d.dies := rfl
@[simp] theorem Dev.bumpN_modules (d : Dev) (k n : Nat) : (d.bumpN k n).modules = d.modules := rfl
@[simp] theorem Dev.bumpN_ctlModule (d : Dev) (k n : Nat) : (d.bumpN k n).ctlModule = d.ctlModule := rfl
@[simp] theorem Dev.bumpN_stopped (d : Dev) (k n : Nat) : (d.bumpN k n).stopped = d.stopped := rfl
@[simp] theorem Dev.bumpN_onAlternate (d : Dev) (k n : Nat) : (d.bumpN k n).onAlternate = d.onAlternate := rfl
@[simp] theorem Dev.bumpN_tiles (d : Dev) (k n : Nat) : (d.bumpN k n).tiles = d.tiles := rfl
@[simp] theorem Dev.bumpN_hbm (d : Dev) (k n : Nat) : (d.bumpN k n).hbm = d.hbm := rfl
@[simp] theorem Dev.bumpN_pages (d : Dev) (k n : Nat) : (d.bumpN k n).pages = d.pages := rfl
@[simp] theorem Dev.bumpN_badBursts (d : Dev) (k n : Nat) : (d.bumpN k n).badBursts = d.badBursts := rfl
@[simp] theorem Dev.bumpN_strata (d : Dev) (k n : Nat) : (d.bumpN k n).strata = d.strata := rfl
@[simp] theorem Dev.bumpN_ports (d : Dev) (k n : Nat) : (d.bumpN k n).ports = d.ports := rfl
@[simp] theorem Dev.bumpN_nextTag (d : Dev) (k n : Nat) : (d.bumpN k n).nextTag = d.nextTag := rfl
@[simp] theorem Dev.bumpN_nextBulk (d : Dev) (k n : Nat) : (d.bumpN k n).nextBulk = d.nextBulk := rfl
@[simp] theorem Dev.bumpN_tags (d : Dev) (k n : Nat) : (d.bumpN k n).tags = d.tags := rfl
@[simp] theorem Dev.bumpN_localOut (d : Dev) (k n : Nat) : (d.bumpN k n).localOut = d.localOut := rfl
@[simp] theorem Dev.bumpN_inbox (d : Dev) (k n : Nat) : (d.bumpN k n).inbox = d.inbox := rfl
@[simp] theorem Dev.bumpN_inGroups (d : Dev) (k n : Nat) : (d.bumpN k n).inGroups = d.inGroups := rfl
@[simp] theorem Dev.bumpN_outGroups (d : Dev) (k n : Nat) : (d.bumpN k n).outGroups = d.outGroups := rfl
@[simp] theorem Dev.bumpN_pushes (d : Dev) (k n : Nat) : (d.bumpN k n).pushes = d.pushes := rfl
@[simp] theorem Dev.bumpN_bridges (d : Dev) (k n : Nat) : (d.bumpN k n).bridges = d.bridges := rfl
@[simp] theorem Dev.bumpN_lode (d : Dev) (k n : Nat) : (d.bumpN k n).lode = d.lode := rfl
@[simp] theorem Dev.bumpN_cairns (d : Dev) (k n : Nat) : (d.bumpN k n).cairns = d.cairns := rfl
@[simp] theorem Dev.bumpN_openings (d : Dev) (k n : Nat) : (d.bumpN k n).openings = d.openings := rfl
@[simp] theorem Dev.bumpN_repeats (d : Dev) (k n : Nat) : (d.bumpN k n).repeats = d.repeats := rfl
@[simp] theorem Dev.bumpN_hosts (d : Dev) (k n : Nat) : (d.bumpN k n).hosts = d.hosts := rfl
@[simp] theorem Dev.bumpN_admin (d : Dev) (k n : Nat) : (d.bumpN k n).admin = d.admin := rfl
@[simp] theorem Dev.bumpN_ctxs (d : Dev) (k n : Nat) : (d.bumpN k n).ctxs = d.ctxs := rfl
@[simp] theorem Dev.bumpN_pkgEvents (d : Dev) (k n : Nat) : (d.bumpN k n).pkgEvents = d.pkgEvents := rfl
@[simp] theorem Dev.bumpN_directory (d : Dev) (k n : Nat) : (d.bumpN k n).directory = d.directory := rfl
@[simp] theorem Dev.bumpN_waiting (d : Dev) (k n : Nat) : (d.bumpN k n).waiting = d.waiting := rfl
@[simp] theorem Dev.bumpN_snoops (d : Dev) (k n : Nat) : (d.bumpN k n).snoops = d.snoops := rfl
@[simp] theorem Dev.bumpN_ras (d : Dev) (k n : Nat) : (d.bumpN k n).ras = d.ras := rfl
@[simp] theorem Dev.bumpN_sec (d : Dev) (k n : Nat) : (d.bumpN k n).sec = d.sec := rfl
@[simp] theorem Dev.bumpN_pwr (d : Dev) (k n : Nat) : (d.bumpN k n).pwr = d.pwr := rfl
@[simp] theorem Dev.bumpN_free (d : Dev) (k n : Nat) : (d.bumpN k n).free = d.free := rfl
@[simp] theorem Dev.bumpN_stores (d : Dev) (k n : Nat) : (d.bumpN k n).stores = d.stores := rfl
@[simp] theorem Dev.bumpN_wipes (d : Dev) (k n : Nat) : (d.bumpN k n).wipes = d.wipes := rfl
@[simp] theorem Dev.bumpN_out (d : Dev) (k n : Nat) : (d.bumpN k n).out = d.out := rfl

@[simp] theorem Dev.bump_regs (d : Dev) (k : Nat) : (d.bump k).regs = d.regs := rfl
@[simp] theorem Dev.bump_reqs (d : Dev) (k : Nat) : (d.bump k).reqs = d.reqs := rfl
@[simp] theorem Dev.bump_fuses (d : Dev) (k : Nat) : (d.bump k).fuses = d.fuses := rfl
@[simp] theorem Dev.bump_bringUp (d : Dev) (k : Nat) : (d.bump k).bringUp = d.bringUp := rfl
@[simp] theorem Dev.bump_outcome (d : Dev) (k : Nat) : (d.bump k).outcome = d.outcome := rfl
@[simp] theorem Dev.bump_role (d : Dev) (k : Nat) : (d.bump k).role = d.role := rfl
@[simp] theorem Dev.bump_iaPresent (d : Dev) (k : Nat) : (d.bump k).iaPresent = d.iaPresent := rfl
@[simp] theorem Dev.bump_ibPresent (d : Dev) (k : Nat) : (d.bump k).ibPresent = d.ibPresent := rfl
@[simp] theorem Dev.bump_fenced (d : Dev) (k : Nat) : (d.bump k).fenced = d.fenced := rfl
@[simp] theorem Dev.bump_fenceCause (d : Dev) (k : Nat) : (d.bump k).fenceCause = d.fenceCause := rfl
@[simp] theorem Dev.bump_idModeNow (d : Dev) (k : Nat) : (d.bump k).idModeNow = d.idModeNow := rfl
@[simp] theorem Dev.bump_idModeNext (d : Dev) (k : Nat) : (d.bump k).idModeNext = d.idModeNext := rfl
@[simp] theorem Dev.bump_negGen (d : Dev) (k : Nat) : (d.bump k).negGen = d.negGen := rfl
@[simp] theorem Dev.bump_iodGen (d : Dev) (k : Nat) : (d.bump k).iodGen = d.iodGen := rfl
@[simp] theorem Dev.bump_cmpGen (d : Dev) (k : Nat) : (d.bump k).cmpGen = d.cmpGen := rfl
@[simp] theorem Dev.bump_negCaps (d : Dev) (k : Nat) : (d.bump k).negCaps = d.negCaps := rfl
@[simp] theorem Dev.bump_dies (d : Dev) (k : Nat) : (d.bump k).dies = d.dies := rfl
@[simp] theorem Dev.bump_modules (d : Dev) (k : Nat) : (d.bump k).modules = d.modules := rfl
@[simp] theorem Dev.bump_ctlModule (d : Dev) (k : Nat) : (d.bump k).ctlModule = d.ctlModule := rfl
@[simp] theorem Dev.bump_stopped (d : Dev) (k : Nat) : (d.bump k).stopped = d.stopped := rfl
@[simp] theorem Dev.bump_onAlternate (d : Dev) (k : Nat) : (d.bump k).onAlternate = d.onAlternate := rfl
@[simp] theorem Dev.bump_tiles (d : Dev) (k : Nat) : (d.bump k).tiles = d.tiles := rfl
@[simp] theorem Dev.bump_hbm (d : Dev) (k : Nat) : (d.bump k).hbm = d.hbm := rfl
@[simp] theorem Dev.bump_pages (d : Dev) (k : Nat) : (d.bump k).pages = d.pages := rfl
@[simp] theorem Dev.bump_badBursts (d : Dev) (k : Nat) : (d.bump k).badBursts = d.badBursts := rfl
@[simp] theorem Dev.bump_strata (d : Dev) (k : Nat) : (d.bump k).strata = d.strata := rfl
@[simp] theorem Dev.bump_ports (d : Dev) (k : Nat) : (d.bump k).ports = d.ports := rfl
@[simp] theorem Dev.bump_nextTag (d : Dev) (k : Nat) : (d.bump k).nextTag = d.nextTag := rfl
@[simp] theorem Dev.bump_nextBulk (d : Dev) (k : Nat) : (d.bump k).nextBulk = d.nextBulk := rfl
@[simp] theorem Dev.bump_tags (d : Dev) (k : Nat) : (d.bump k).tags = d.tags := rfl
@[simp] theorem Dev.bump_localOut (d : Dev) (k : Nat) : (d.bump k).localOut = d.localOut := rfl
@[simp] theorem Dev.bump_inbox (d : Dev) (k : Nat) : (d.bump k).inbox = d.inbox := rfl
@[simp] theorem Dev.bump_inGroups (d : Dev) (k : Nat) : (d.bump k).inGroups = d.inGroups := rfl
@[simp] theorem Dev.bump_outGroups (d : Dev) (k : Nat) : (d.bump k).outGroups = d.outGroups := rfl
@[simp] theorem Dev.bump_pushes (d : Dev) (k : Nat) : (d.bump k).pushes = d.pushes := rfl
@[simp] theorem Dev.bump_bridges (d : Dev) (k : Nat) : (d.bump k).bridges = d.bridges := rfl
@[simp] theorem Dev.bump_lode (d : Dev) (k : Nat) : (d.bump k).lode = d.lode := rfl
@[simp] theorem Dev.bump_cairns (d : Dev) (k : Nat) : (d.bump k).cairns = d.cairns := rfl
@[simp] theorem Dev.bump_openings (d : Dev) (k : Nat) : (d.bump k).openings = d.openings := rfl
@[simp] theorem Dev.bump_repeats (d : Dev) (k : Nat) : (d.bump k).repeats = d.repeats := rfl
@[simp] theorem Dev.bump_hosts (d : Dev) (k : Nat) : (d.bump k).hosts = d.hosts := rfl
@[simp] theorem Dev.bump_admin (d : Dev) (k : Nat) : (d.bump k).admin = d.admin := rfl
@[simp] theorem Dev.bump_ctxs (d : Dev) (k : Nat) : (d.bump k).ctxs = d.ctxs := rfl
@[simp] theorem Dev.bump_pkgEvents (d : Dev) (k : Nat) : (d.bump k).pkgEvents = d.pkgEvents := rfl
@[simp] theorem Dev.bump_directory (d : Dev) (k : Nat) : (d.bump k).directory = d.directory := rfl
@[simp] theorem Dev.bump_waiting (d : Dev) (k : Nat) : (d.bump k).waiting = d.waiting := rfl
@[simp] theorem Dev.bump_snoops (d : Dev) (k : Nat) : (d.bump k).snoops = d.snoops := rfl
@[simp] theorem Dev.bump_ras (d : Dev) (k : Nat) : (d.bump k).ras = d.ras := rfl
@[simp] theorem Dev.bump_sec (d : Dev) (k : Nat) : (d.bump k).sec = d.sec := rfl
@[simp] theorem Dev.bump_pwr (d : Dev) (k : Nat) : (d.bump k).pwr = d.pwr := rfl
@[simp] theorem Dev.bump_free (d : Dev) (k : Nat) : (d.bump k).free = d.free := rfl
@[simp] theorem Dev.bump_stores (d : Dev) (k : Nat) : (d.bump k).stores = d.stores := rfl
@[simp] theorem Dev.bump_wipes (d : Dev) (k : Nat) : (d.bump k).wipes = d.wipes := rfl
@[simp] theorem Dev.bump_out (d : Dev) (k : Nat) : (d.bump k).out = d.out := rfl

@[simp] theorem Dev.setTile_regs (d : Dev) (t : Nat) (x : Tile) : (d.setTile t x).regs = d.regs := rfl
@[simp] theorem Dev.setTile_counters (d : Dev) (t : Nat) (x : Tile) : (d.setTile t x).counters = d.counters := rfl
@[simp] theorem Dev.setTile_reqs (d : Dev) (t : Nat) (x : Tile) : (d.setTile t x).reqs = d.reqs := rfl
@[simp] theorem Dev.setTile_fuses (d : Dev) (t : Nat) (x : Tile) : (d.setTile t x).fuses = d.fuses := rfl
@[simp] theorem Dev.setTile_bringUp (d : Dev) (t : Nat) (x : Tile) : (d.setTile t x).bringUp = d.bringUp := rfl
@[simp] theorem Dev.setTile_outcome (d : Dev) (t : Nat) (x : Tile) : (d.setTile t x).outcome = d.outcome := rfl
@[simp] theorem Dev.setTile_role (d : Dev) (t : Nat) (x : Tile) : (d.setTile t x).role = d.role := rfl
@[simp] theorem Dev.setTile_iaPresent (d : Dev) (t : Nat) (x : Tile) : (d.setTile t x).iaPresent = d.iaPresent := rfl
@[simp] theorem Dev.setTile_ibPresent (d : Dev) (t : Nat) (x : Tile) : (d.setTile t x).ibPresent = d.ibPresent := rfl
@[simp] theorem Dev.setTile_fenced (d : Dev) (t : Nat) (x : Tile) : (d.setTile t x).fenced = d.fenced := rfl
@[simp] theorem Dev.setTile_fenceCause (d : Dev) (t : Nat) (x : Tile) : (d.setTile t x).fenceCause = d.fenceCause := rfl
@[simp] theorem Dev.setTile_idModeNow (d : Dev) (t : Nat) (x : Tile) : (d.setTile t x).idModeNow = d.idModeNow := rfl
@[simp] theorem Dev.setTile_idModeNext (d : Dev) (t : Nat) (x : Tile) : (d.setTile t x).idModeNext = d.idModeNext := rfl
@[simp] theorem Dev.setTile_negGen (d : Dev) (t : Nat) (x : Tile) : (d.setTile t x).negGen = d.negGen := rfl
@[simp] theorem Dev.setTile_iodGen (d : Dev) (t : Nat) (x : Tile) : (d.setTile t x).iodGen = d.iodGen := rfl
@[simp] theorem Dev.setTile_cmpGen (d : Dev) (t : Nat) (x : Tile) : (d.setTile t x).cmpGen = d.cmpGen := rfl
@[simp] theorem Dev.setTile_negCaps (d : Dev) (t : Nat) (x : Tile) : (d.setTile t x).negCaps = d.negCaps := rfl
@[simp] theorem Dev.setTile_dies (d : Dev) (t : Nat) (x : Tile) : (d.setTile t x).dies = d.dies := rfl
@[simp] theorem Dev.setTile_modules (d : Dev) (t : Nat) (x : Tile) : (d.setTile t x).modules = d.modules := rfl
@[simp] theorem Dev.setTile_ctlModule (d : Dev) (t : Nat) (x : Tile) : (d.setTile t x).ctlModule = d.ctlModule := rfl
@[simp] theorem Dev.setTile_stopped (d : Dev) (t : Nat) (x : Tile) : (d.setTile t x).stopped = d.stopped := rfl
@[simp] theorem Dev.setTile_onAlternate (d : Dev) (t : Nat) (x : Tile) : (d.setTile t x).onAlternate = d.onAlternate := rfl
@[simp] theorem Dev.setTile_hbm (d : Dev) (t : Nat) (x : Tile) : (d.setTile t x).hbm = d.hbm := rfl
@[simp] theorem Dev.setTile_pages (d : Dev) (t : Nat) (x : Tile) : (d.setTile t x).pages = d.pages := rfl
@[simp] theorem Dev.setTile_badBursts (d : Dev) (t : Nat) (x : Tile) : (d.setTile t x).badBursts = d.badBursts := rfl
@[simp] theorem Dev.setTile_strata (d : Dev) (t : Nat) (x : Tile) : (d.setTile t x).strata = d.strata := rfl
@[simp] theorem Dev.setTile_ports (d : Dev) (t : Nat) (x : Tile) : (d.setTile t x).ports = d.ports := rfl
@[simp] theorem Dev.setTile_nextTag (d : Dev) (t : Nat) (x : Tile) : (d.setTile t x).nextTag = d.nextTag := rfl
@[simp] theorem Dev.setTile_nextBulk (d : Dev) (t : Nat) (x : Tile) : (d.setTile t x).nextBulk = d.nextBulk := rfl
@[simp] theorem Dev.setTile_tags (d : Dev) (t : Nat) (x : Tile) : (d.setTile t x).tags = d.tags := rfl
@[simp] theorem Dev.setTile_localOut (d : Dev) (t : Nat) (x : Tile) : (d.setTile t x).localOut = d.localOut := rfl
@[simp] theorem Dev.setTile_inbox (d : Dev) (t : Nat) (x : Tile) : (d.setTile t x).inbox = d.inbox := rfl
@[simp] theorem Dev.setTile_inGroups (d : Dev) (t : Nat) (x : Tile) : (d.setTile t x).inGroups = d.inGroups := rfl
@[simp] theorem Dev.setTile_outGroups (d : Dev) (t : Nat) (x : Tile) : (d.setTile t x).outGroups = d.outGroups := rfl
@[simp] theorem Dev.setTile_pushes (d : Dev) (t : Nat) (x : Tile) : (d.setTile t x).pushes = d.pushes := rfl
@[simp] theorem Dev.setTile_bridges (d : Dev) (t : Nat) (x : Tile) : (d.setTile t x).bridges = d.bridges := rfl
@[simp] theorem Dev.setTile_lode (d : Dev) (t : Nat) (x : Tile) : (d.setTile t x).lode = d.lode := rfl
@[simp] theorem Dev.setTile_cairns (d : Dev) (t : Nat) (x : Tile) : (d.setTile t x).cairns = d.cairns := rfl
@[simp] theorem Dev.setTile_openings (d : Dev) (t : Nat) (x : Tile) : (d.setTile t x).openings = d.openings := rfl
@[simp] theorem Dev.setTile_repeats (d : Dev) (t : Nat) (x : Tile) : (d.setTile t x).repeats = d.repeats := rfl
@[simp] theorem Dev.setTile_hosts (d : Dev) (t : Nat) (x : Tile) : (d.setTile t x).hosts = d.hosts := rfl
@[simp] theorem Dev.setTile_admin (d : Dev) (t : Nat) (x : Tile) : (d.setTile t x).admin = d.admin := rfl
@[simp] theorem Dev.setTile_ctxs (d : Dev) (t : Nat) (x : Tile) : (d.setTile t x).ctxs = d.ctxs := rfl
@[simp] theorem Dev.setTile_pkgEvents (d : Dev) (t : Nat) (x : Tile) : (d.setTile t x).pkgEvents = d.pkgEvents := rfl
@[simp] theorem Dev.setTile_directory (d : Dev) (t : Nat) (x : Tile) : (d.setTile t x).directory = d.directory := rfl
@[simp] theorem Dev.setTile_waiting (d : Dev) (t : Nat) (x : Tile) : (d.setTile t x).waiting = d.waiting := rfl
@[simp] theorem Dev.setTile_snoops (d : Dev) (t : Nat) (x : Tile) : (d.setTile t x).snoops = d.snoops := rfl
@[simp] theorem Dev.setTile_ras (d : Dev) (t : Nat) (x : Tile) : (d.setTile t x).ras = d.ras := rfl
@[simp] theorem Dev.setTile_sec (d : Dev) (t : Nat) (x : Tile) : (d.setTile t x).sec = d.sec := rfl
@[simp] theorem Dev.setTile_pwr (d : Dev) (t : Nat) (x : Tile) : (d.setTile t x).pwr = d.pwr := rfl
@[simp] theorem Dev.setTile_free (d : Dev) (t : Nat) (x : Tile) : (d.setTile t x).free = d.free := rfl
@[simp] theorem Dev.setTile_stores (d : Dev) (t : Nat) (x : Tile) : (d.setTile t x).stores = d.stores := rfl
@[simp] theorem Dev.setTile_wipes (d : Dev) (t : Nat) (x : Tile) : (d.setTile t x).wipes = d.wipes := rfl
@[simp] theorem Dev.setTile_out (d : Dev) (t : Nat) (x : Tile) : (d.setTile t x).out = d.out := rfl

@[simp] theorem Dev.setCtx_regs (d : Dev) (c : Nat) (x : Ctx) : (d.setCtx c x).regs = d.regs := rfl
@[simp] theorem Dev.setCtx_counters (d : Dev) (c : Nat) (x : Ctx) : (d.setCtx c x).counters = d.counters := rfl
@[simp] theorem Dev.setCtx_reqs (d : Dev) (c : Nat) (x : Ctx) : (d.setCtx c x).reqs = d.reqs := rfl
@[simp] theorem Dev.setCtx_fuses (d : Dev) (c : Nat) (x : Ctx) : (d.setCtx c x).fuses = d.fuses := rfl
@[simp] theorem Dev.setCtx_bringUp (d : Dev) (c : Nat) (x : Ctx) : (d.setCtx c x).bringUp = d.bringUp := rfl
@[simp] theorem Dev.setCtx_outcome (d : Dev) (c : Nat) (x : Ctx) : (d.setCtx c x).outcome = d.outcome := rfl
@[simp] theorem Dev.setCtx_role (d : Dev) (c : Nat) (x : Ctx) : (d.setCtx c x).role = d.role := rfl
@[simp] theorem Dev.setCtx_iaPresent (d : Dev) (c : Nat) (x : Ctx) : (d.setCtx c x).iaPresent = d.iaPresent := rfl
@[simp] theorem Dev.setCtx_ibPresent (d : Dev) (c : Nat) (x : Ctx) : (d.setCtx c x).ibPresent = d.ibPresent := rfl
@[simp] theorem Dev.setCtx_fenced (d : Dev) (c : Nat) (x : Ctx) : (d.setCtx c x).fenced = d.fenced := rfl
@[simp] theorem Dev.setCtx_fenceCause (d : Dev) (c : Nat) (x : Ctx) : (d.setCtx c x).fenceCause = d.fenceCause := rfl
@[simp] theorem Dev.setCtx_idModeNow (d : Dev) (c : Nat) (x : Ctx) : (d.setCtx c x).idModeNow = d.idModeNow := rfl
@[simp] theorem Dev.setCtx_idModeNext (d : Dev) (c : Nat) (x : Ctx) : (d.setCtx c x).idModeNext = d.idModeNext := rfl
@[simp] theorem Dev.setCtx_negGen (d : Dev) (c : Nat) (x : Ctx) : (d.setCtx c x).negGen = d.negGen := rfl
@[simp] theorem Dev.setCtx_iodGen (d : Dev) (c : Nat) (x : Ctx) : (d.setCtx c x).iodGen = d.iodGen := rfl
@[simp] theorem Dev.setCtx_cmpGen (d : Dev) (c : Nat) (x : Ctx) : (d.setCtx c x).cmpGen = d.cmpGen := rfl
@[simp] theorem Dev.setCtx_negCaps (d : Dev) (c : Nat) (x : Ctx) : (d.setCtx c x).negCaps = d.negCaps := rfl
@[simp] theorem Dev.setCtx_dies (d : Dev) (c : Nat) (x : Ctx) : (d.setCtx c x).dies = d.dies := rfl
@[simp] theorem Dev.setCtx_modules (d : Dev) (c : Nat) (x : Ctx) : (d.setCtx c x).modules = d.modules := rfl
@[simp] theorem Dev.setCtx_ctlModule (d : Dev) (c : Nat) (x : Ctx) : (d.setCtx c x).ctlModule = d.ctlModule := rfl
@[simp] theorem Dev.setCtx_stopped (d : Dev) (c : Nat) (x : Ctx) : (d.setCtx c x).stopped = d.stopped := rfl
@[simp] theorem Dev.setCtx_onAlternate (d : Dev) (c : Nat) (x : Ctx) : (d.setCtx c x).onAlternate = d.onAlternate := rfl
@[simp] theorem Dev.setCtx_tiles (d : Dev) (c : Nat) (x : Ctx) : (d.setCtx c x).tiles = d.tiles := rfl
@[simp] theorem Dev.setCtx_hbm (d : Dev) (c : Nat) (x : Ctx) : (d.setCtx c x).hbm = d.hbm := rfl
@[simp] theorem Dev.setCtx_pages (d : Dev) (c : Nat) (x : Ctx) : (d.setCtx c x).pages = d.pages := rfl
@[simp] theorem Dev.setCtx_badBursts (d : Dev) (c : Nat) (x : Ctx) : (d.setCtx c x).badBursts = d.badBursts := rfl
@[simp] theorem Dev.setCtx_strata (d : Dev) (c : Nat) (x : Ctx) : (d.setCtx c x).strata = d.strata := rfl
@[simp] theorem Dev.setCtx_ports (d : Dev) (c : Nat) (x : Ctx) : (d.setCtx c x).ports = d.ports := rfl
@[simp] theorem Dev.setCtx_nextTag (d : Dev) (c : Nat) (x : Ctx) : (d.setCtx c x).nextTag = d.nextTag := rfl
@[simp] theorem Dev.setCtx_nextBulk (d : Dev) (c : Nat) (x : Ctx) : (d.setCtx c x).nextBulk = d.nextBulk := rfl
@[simp] theorem Dev.setCtx_tags (d : Dev) (c : Nat) (x : Ctx) : (d.setCtx c x).tags = d.tags := rfl
@[simp] theorem Dev.setCtx_localOut (d : Dev) (c : Nat) (x : Ctx) : (d.setCtx c x).localOut = d.localOut := rfl
@[simp] theorem Dev.setCtx_inbox (d : Dev) (c : Nat) (x : Ctx) : (d.setCtx c x).inbox = d.inbox := rfl
@[simp] theorem Dev.setCtx_inGroups (d : Dev) (c : Nat) (x : Ctx) : (d.setCtx c x).inGroups = d.inGroups := rfl
@[simp] theorem Dev.setCtx_outGroups (d : Dev) (c : Nat) (x : Ctx) : (d.setCtx c x).outGroups = d.outGroups := rfl
@[simp] theorem Dev.setCtx_pushes (d : Dev) (c : Nat) (x : Ctx) : (d.setCtx c x).pushes = d.pushes := rfl
@[simp] theorem Dev.setCtx_bridges (d : Dev) (c : Nat) (x : Ctx) : (d.setCtx c x).bridges = d.bridges := rfl
@[simp] theorem Dev.setCtx_lode (d : Dev) (c : Nat) (x : Ctx) : (d.setCtx c x).lode = d.lode := rfl
@[simp] theorem Dev.setCtx_cairns (d : Dev) (c : Nat) (x : Ctx) : (d.setCtx c x).cairns = d.cairns := rfl
@[simp] theorem Dev.setCtx_openings (d : Dev) (c : Nat) (x : Ctx) : (d.setCtx c x).openings = d.openings := rfl
@[simp] theorem Dev.setCtx_repeats (d : Dev) (c : Nat) (x : Ctx) : (d.setCtx c x).repeats = d.repeats := rfl
@[simp] theorem Dev.setCtx_hosts (d : Dev) (c : Nat) (x : Ctx) : (d.setCtx c x).hosts = d.hosts := rfl
@[simp] theorem Dev.setCtx_admin (d : Dev) (c : Nat) (x : Ctx) : (d.setCtx c x).admin = d.admin := rfl
@[simp] theorem Dev.setCtx_pkgEvents (d : Dev) (c : Nat) (x : Ctx) : (d.setCtx c x).pkgEvents = d.pkgEvents := rfl
@[simp] theorem Dev.setCtx_directory (d : Dev) (c : Nat) (x : Ctx) : (d.setCtx c x).directory = d.directory := rfl
@[simp] theorem Dev.setCtx_waiting (d : Dev) (c : Nat) (x : Ctx) : (d.setCtx c x).waiting = d.waiting := rfl
@[simp] theorem Dev.setCtx_snoops (d : Dev) (c : Nat) (x : Ctx) : (d.setCtx c x).snoops = d.snoops := rfl
@[simp] theorem Dev.setCtx_ras (d : Dev) (c : Nat) (x : Ctx) : (d.setCtx c x).ras = d.ras := rfl
@[simp] theorem Dev.setCtx_sec (d : Dev) (c : Nat) (x : Ctx) : (d.setCtx c x).sec = d.sec := rfl
@[simp] theorem Dev.setCtx_pwr (d : Dev) (c : Nat) (x : Ctx) : (d.setCtx c x).pwr = d.pwr := rfl
@[simp] theorem Dev.setCtx_free (d : Dev) (c : Nat) (x : Ctx) : (d.setCtx c x).free = d.free := rfl
@[simp] theorem Dev.setCtx_stores (d : Dev) (c : Nat) (x : Ctx) : (d.setCtx c x).stores = d.stores := rfl
@[simp] theorem Dev.setCtx_wipes (d : Dev) (c : Nat) (x : Ctx) : (d.setCtx c x).wipes = d.wipes := rfl
@[simp] theorem Dev.setCtx_out (d : Dev) (c : Nat) (x : Ctx) : (d.setCtx c x).out = d.out := rfl

@[simp] theorem Dev.setDie_regs (d : Dev) (i : Nat) (x : Die) : (d.setDie i x).regs = d.regs := rfl
@[simp] theorem Dev.setDie_counters (d : Dev) (i : Nat) (x : Die) : (d.setDie i x).counters = d.counters := rfl
@[simp] theorem Dev.setDie_reqs (d : Dev) (i : Nat) (x : Die) : (d.setDie i x).reqs = d.reqs := rfl
@[simp] theorem Dev.setDie_fuses (d : Dev) (i : Nat) (x : Die) : (d.setDie i x).fuses = d.fuses := rfl
@[simp] theorem Dev.setDie_bringUp (d : Dev) (i : Nat) (x : Die) : (d.setDie i x).bringUp = d.bringUp := rfl
@[simp] theorem Dev.setDie_outcome (d : Dev) (i : Nat) (x : Die) : (d.setDie i x).outcome = d.outcome := rfl
@[simp] theorem Dev.setDie_role (d : Dev) (i : Nat) (x : Die) : (d.setDie i x).role = d.role := rfl
@[simp] theorem Dev.setDie_iaPresent (d : Dev) (i : Nat) (x : Die) : (d.setDie i x).iaPresent = d.iaPresent := rfl
@[simp] theorem Dev.setDie_ibPresent (d : Dev) (i : Nat) (x : Die) : (d.setDie i x).ibPresent = d.ibPresent := rfl
@[simp] theorem Dev.setDie_fenced (d : Dev) (i : Nat) (x : Die) : (d.setDie i x).fenced = d.fenced := rfl
@[simp] theorem Dev.setDie_fenceCause (d : Dev) (i : Nat) (x : Die) : (d.setDie i x).fenceCause = d.fenceCause := rfl
@[simp] theorem Dev.setDie_idModeNow (d : Dev) (i : Nat) (x : Die) : (d.setDie i x).idModeNow = d.idModeNow := rfl
@[simp] theorem Dev.setDie_idModeNext (d : Dev) (i : Nat) (x : Die) : (d.setDie i x).idModeNext = d.idModeNext := rfl
@[simp] theorem Dev.setDie_negGen (d : Dev) (i : Nat) (x : Die) : (d.setDie i x).negGen = d.negGen := rfl
@[simp] theorem Dev.setDie_iodGen (d : Dev) (i : Nat) (x : Die) : (d.setDie i x).iodGen = d.iodGen := rfl
@[simp] theorem Dev.setDie_cmpGen (d : Dev) (i : Nat) (x : Die) : (d.setDie i x).cmpGen = d.cmpGen := rfl
@[simp] theorem Dev.setDie_negCaps (d : Dev) (i : Nat) (x : Die) : (d.setDie i x).negCaps = d.negCaps := rfl
@[simp] theorem Dev.setDie_modules (d : Dev) (i : Nat) (x : Die) : (d.setDie i x).modules = d.modules := rfl
@[simp] theorem Dev.setDie_ctlModule (d : Dev) (i : Nat) (x : Die) : (d.setDie i x).ctlModule = d.ctlModule := rfl
@[simp] theorem Dev.setDie_stopped (d : Dev) (i : Nat) (x : Die) : (d.setDie i x).stopped = d.stopped := rfl
@[simp] theorem Dev.setDie_onAlternate (d : Dev) (i : Nat) (x : Die) : (d.setDie i x).onAlternate = d.onAlternate := rfl
@[simp] theorem Dev.setDie_tiles (d : Dev) (i : Nat) (x : Die) : (d.setDie i x).tiles = d.tiles := rfl
@[simp] theorem Dev.setDie_hbm (d : Dev) (i : Nat) (x : Die) : (d.setDie i x).hbm = d.hbm := rfl
@[simp] theorem Dev.setDie_pages (d : Dev) (i : Nat) (x : Die) : (d.setDie i x).pages = d.pages := rfl
@[simp] theorem Dev.setDie_badBursts (d : Dev) (i : Nat) (x : Die) : (d.setDie i x).badBursts = d.badBursts := rfl
@[simp] theorem Dev.setDie_strata (d : Dev) (i : Nat) (x : Die) : (d.setDie i x).strata = d.strata := rfl
@[simp] theorem Dev.setDie_ports (d : Dev) (i : Nat) (x : Die) : (d.setDie i x).ports = d.ports := rfl
@[simp] theorem Dev.setDie_nextTag (d : Dev) (i : Nat) (x : Die) : (d.setDie i x).nextTag = d.nextTag := rfl
@[simp] theorem Dev.setDie_nextBulk (d : Dev) (i : Nat) (x : Die) : (d.setDie i x).nextBulk = d.nextBulk := rfl
@[simp] theorem Dev.setDie_tags (d : Dev) (i : Nat) (x : Die) : (d.setDie i x).tags = d.tags := rfl
@[simp] theorem Dev.setDie_localOut (d : Dev) (i : Nat) (x : Die) : (d.setDie i x).localOut = d.localOut := rfl
@[simp] theorem Dev.setDie_inbox (d : Dev) (i : Nat) (x : Die) : (d.setDie i x).inbox = d.inbox := rfl
@[simp] theorem Dev.setDie_inGroups (d : Dev) (i : Nat) (x : Die) : (d.setDie i x).inGroups = d.inGroups := rfl
@[simp] theorem Dev.setDie_outGroups (d : Dev) (i : Nat) (x : Die) : (d.setDie i x).outGroups = d.outGroups := rfl
@[simp] theorem Dev.setDie_pushes (d : Dev) (i : Nat) (x : Die) : (d.setDie i x).pushes = d.pushes := rfl
@[simp] theorem Dev.setDie_bridges (d : Dev) (i : Nat) (x : Die) : (d.setDie i x).bridges = d.bridges := rfl
@[simp] theorem Dev.setDie_lode (d : Dev) (i : Nat) (x : Die) : (d.setDie i x).lode = d.lode := rfl
@[simp] theorem Dev.setDie_cairns (d : Dev) (i : Nat) (x : Die) : (d.setDie i x).cairns = d.cairns := rfl
@[simp] theorem Dev.setDie_openings (d : Dev) (i : Nat) (x : Die) : (d.setDie i x).openings = d.openings := rfl
@[simp] theorem Dev.setDie_repeats (d : Dev) (i : Nat) (x : Die) : (d.setDie i x).repeats = d.repeats := rfl
@[simp] theorem Dev.setDie_hosts (d : Dev) (i : Nat) (x : Die) : (d.setDie i x).hosts = d.hosts := rfl
@[simp] theorem Dev.setDie_admin (d : Dev) (i : Nat) (x : Die) : (d.setDie i x).admin = d.admin := rfl
@[simp] theorem Dev.setDie_ctxs (d : Dev) (i : Nat) (x : Die) : (d.setDie i x).ctxs = d.ctxs := rfl
@[simp] theorem Dev.setDie_pkgEvents (d : Dev) (i : Nat) (x : Die) : (d.setDie i x).pkgEvents = d.pkgEvents := rfl
@[simp] theorem Dev.setDie_directory (d : Dev) (i : Nat) (x : Die) : (d.setDie i x).directory = d.directory := rfl
@[simp] theorem Dev.setDie_waiting (d : Dev) (i : Nat) (x : Die) : (d.setDie i x).waiting = d.waiting := rfl
@[simp] theorem Dev.setDie_snoops (d : Dev) (i : Nat) (x : Die) : (d.setDie i x).snoops = d.snoops := rfl
@[simp] theorem Dev.setDie_ras (d : Dev) (i : Nat) (x : Die) : (d.setDie i x).ras = d.ras := rfl
@[simp] theorem Dev.setDie_sec (d : Dev) (i : Nat) (x : Die) : (d.setDie i x).sec = d.sec := rfl
@[simp] theorem Dev.setDie_pwr (d : Dev) (i : Nat) (x : Die) : (d.setDie i x).pwr = d.pwr := rfl
@[simp] theorem Dev.setDie_free (d : Dev) (i : Nat) (x : Die) : (d.setDie i x).free = d.free := rfl
@[simp] theorem Dev.setDie_stores (d : Dev) (i : Nat) (x : Die) : (d.setDie i x).stores = d.stores := rfl
@[simp] theorem Dev.setDie_wipes (d : Dev) (i : Nat) (x : Die) : (d.setDie i x).wipes = d.wipes := rfl
@[simp] theorem Dev.setDie_out (d : Dev) (i : Nat) (x : Die) : (d.setDie i x).out = d.out := rfl

@[simp] theorem Dev.setModule_regs (d : Dev) (n i : Nat) (x : D2dModule) : (d.setModule n i x).regs = d.regs := rfl
@[simp] theorem Dev.setModule_counters (d : Dev) (n i : Nat) (x : D2dModule) : (d.setModule n i x).counters = d.counters := rfl
@[simp] theorem Dev.setModule_reqs (d : Dev) (n i : Nat) (x : D2dModule) : (d.setModule n i x).reqs = d.reqs := rfl
@[simp] theorem Dev.setModule_fuses (d : Dev) (n i : Nat) (x : D2dModule) : (d.setModule n i x).fuses = d.fuses := rfl
@[simp] theorem Dev.setModule_bringUp (d : Dev) (n i : Nat) (x : D2dModule) : (d.setModule n i x).bringUp = d.bringUp := rfl
@[simp] theorem Dev.setModule_outcome (d : Dev) (n i : Nat) (x : D2dModule) : (d.setModule n i x).outcome = d.outcome := rfl
@[simp] theorem Dev.setModule_role (d : Dev) (n i : Nat) (x : D2dModule) : (d.setModule n i x).role = d.role := rfl
@[simp] theorem Dev.setModule_iaPresent (d : Dev) (n i : Nat) (x : D2dModule) : (d.setModule n i x).iaPresent = d.iaPresent := rfl
@[simp] theorem Dev.setModule_ibPresent (d : Dev) (n i : Nat) (x : D2dModule) : (d.setModule n i x).ibPresent = d.ibPresent := rfl
@[simp] theorem Dev.setModule_fenced (d : Dev) (n i : Nat) (x : D2dModule) : (d.setModule n i x).fenced = d.fenced := rfl
@[simp] theorem Dev.setModule_fenceCause (d : Dev) (n i : Nat) (x : D2dModule) : (d.setModule n i x).fenceCause = d.fenceCause := rfl
@[simp] theorem Dev.setModule_idModeNow (d : Dev) (n i : Nat) (x : D2dModule) : (d.setModule n i x).idModeNow = d.idModeNow := rfl
@[simp] theorem Dev.setModule_idModeNext (d : Dev) (n i : Nat) (x : D2dModule) : (d.setModule n i x).idModeNext = d.idModeNext := rfl
@[simp] theorem Dev.setModule_negGen (d : Dev) (n i : Nat) (x : D2dModule) : (d.setModule n i x).negGen = d.negGen := rfl
@[simp] theorem Dev.setModule_iodGen (d : Dev) (n i : Nat) (x : D2dModule) : (d.setModule n i x).iodGen = d.iodGen := rfl
@[simp] theorem Dev.setModule_cmpGen (d : Dev) (n i : Nat) (x : D2dModule) : (d.setModule n i x).cmpGen = d.cmpGen := rfl
@[simp] theorem Dev.setModule_negCaps (d : Dev) (n i : Nat) (x : D2dModule) : (d.setModule n i x).negCaps = d.negCaps := rfl
@[simp] theorem Dev.setModule_dies (d : Dev) (n i : Nat) (x : D2dModule) : (d.setModule n i x).dies = d.dies := rfl
@[simp] theorem Dev.setModule_ctlModule (d : Dev) (n i : Nat) (x : D2dModule) : (d.setModule n i x).ctlModule = d.ctlModule := rfl
@[simp] theorem Dev.setModule_stopped (d : Dev) (n i : Nat) (x : D2dModule) : (d.setModule n i x).stopped = d.stopped := rfl
@[simp] theorem Dev.setModule_onAlternate (d : Dev) (n i : Nat) (x : D2dModule) : (d.setModule n i x).onAlternate = d.onAlternate := rfl
@[simp] theorem Dev.setModule_tiles (d : Dev) (n i : Nat) (x : D2dModule) : (d.setModule n i x).tiles = d.tiles := rfl
@[simp] theorem Dev.setModule_hbm (d : Dev) (n i : Nat) (x : D2dModule) : (d.setModule n i x).hbm = d.hbm := rfl
@[simp] theorem Dev.setModule_pages (d : Dev) (n i : Nat) (x : D2dModule) : (d.setModule n i x).pages = d.pages := rfl
@[simp] theorem Dev.setModule_badBursts (d : Dev) (n i : Nat) (x : D2dModule) : (d.setModule n i x).badBursts = d.badBursts := rfl
@[simp] theorem Dev.setModule_strata (d : Dev) (n i : Nat) (x : D2dModule) : (d.setModule n i x).strata = d.strata := rfl
@[simp] theorem Dev.setModule_ports (d : Dev) (n i : Nat) (x : D2dModule) : (d.setModule n i x).ports = d.ports := rfl
@[simp] theorem Dev.setModule_nextTag (d : Dev) (n i : Nat) (x : D2dModule) : (d.setModule n i x).nextTag = d.nextTag := rfl
@[simp] theorem Dev.setModule_nextBulk (d : Dev) (n i : Nat) (x : D2dModule) : (d.setModule n i x).nextBulk = d.nextBulk := rfl
@[simp] theorem Dev.setModule_tags (d : Dev) (n i : Nat) (x : D2dModule) : (d.setModule n i x).tags = d.tags := rfl
@[simp] theorem Dev.setModule_localOut (d : Dev) (n i : Nat) (x : D2dModule) : (d.setModule n i x).localOut = d.localOut := rfl
@[simp] theorem Dev.setModule_inbox (d : Dev) (n i : Nat) (x : D2dModule) : (d.setModule n i x).inbox = d.inbox := rfl
@[simp] theorem Dev.setModule_inGroups (d : Dev) (n i : Nat) (x : D2dModule) : (d.setModule n i x).inGroups = d.inGroups := rfl
@[simp] theorem Dev.setModule_outGroups (d : Dev) (n i : Nat) (x : D2dModule) : (d.setModule n i x).outGroups = d.outGroups := rfl
@[simp] theorem Dev.setModule_pushes (d : Dev) (n i : Nat) (x : D2dModule) : (d.setModule n i x).pushes = d.pushes := rfl
@[simp] theorem Dev.setModule_bridges (d : Dev) (n i : Nat) (x : D2dModule) : (d.setModule n i x).bridges = d.bridges := rfl
@[simp] theorem Dev.setModule_lode (d : Dev) (n i : Nat) (x : D2dModule) : (d.setModule n i x).lode = d.lode := rfl
@[simp] theorem Dev.setModule_cairns (d : Dev) (n i : Nat) (x : D2dModule) : (d.setModule n i x).cairns = d.cairns := rfl
@[simp] theorem Dev.setModule_openings (d : Dev) (n i : Nat) (x : D2dModule) : (d.setModule n i x).openings = d.openings := rfl
@[simp] theorem Dev.setModule_repeats (d : Dev) (n i : Nat) (x : D2dModule) : (d.setModule n i x).repeats = d.repeats := rfl
@[simp] theorem Dev.setModule_hosts (d : Dev) (n i : Nat) (x : D2dModule) : (d.setModule n i x).hosts = d.hosts := rfl
@[simp] theorem Dev.setModule_admin (d : Dev) (n i : Nat) (x : D2dModule) : (d.setModule n i x).admin = d.admin := rfl
@[simp] theorem Dev.setModule_ctxs (d : Dev) (n i : Nat) (x : D2dModule) : (d.setModule n i x).ctxs = d.ctxs := rfl
@[simp] theorem Dev.setModule_pkgEvents (d : Dev) (n i : Nat) (x : D2dModule) : (d.setModule n i x).pkgEvents = d.pkgEvents := rfl
@[simp] theorem Dev.setModule_directory (d : Dev) (n i : Nat) (x : D2dModule) : (d.setModule n i x).directory = d.directory := rfl
@[simp] theorem Dev.setModule_waiting (d : Dev) (n i : Nat) (x : D2dModule) : (d.setModule n i x).waiting = d.waiting := rfl
@[simp] theorem Dev.setModule_snoops (d : Dev) (n i : Nat) (x : D2dModule) : (d.setModule n i x).snoops = d.snoops := rfl
@[simp] theorem Dev.setModule_ras (d : Dev) (n i : Nat) (x : D2dModule) : (d.setModule n i x).ras = d.ras := rfl
@[simp] theorem Dev.setModule_sec (d : Dev) (n i : Nat) (x : D2dModule) : (d.setModule n i x).sec = d.sec := rfl
@[simp] theorem Dev.setModule_pwr (d : Dev) (n i : Nat) (x : D2dModule) : (d.setModule n i x).pwr = d.pwr := rfl
@[simp] theorem Dev.setModule_free (d : Dev) (n i : Nat) (x : D2dModule) : (d.setModule n i x).free = d.free := rfl
@[simp] theorem Dev.setModule_stores (d : Dev) (n i : Nat) (x : D2dModule) : (d.setModule n i x).stores = d.stores := rfl
@[simp] theorem Dev.setModule_wipes (d : Dev) (n i : Nat) (x : D2dModule) : (d.setModule n i x).wipes = d.wipes := rfl
@[simp] theorem Dev.setModule_out (d : Dev) (n i : Nat) (x : D2dModule) : (d.setModule n i x).out = d.out := rfl

@[simp] theorem Dev.setPort_regs (d : Dev) (p : Nat) (x : FabPort) : (d.setPort p x).regs = d.regs := rfl
@[simp] theorem Dev.setPort_counters (d : Dev) (p : Nat) (x : FabPort) : (d.setPort p x).counters = d.counters := rfl
@[simp] theorem Dev.setPort_reqs (d : Dev) (p : Nat) (x : FabPort) : (d.setPort p x).reqs = d.reqs := rfl
@[simp] theorem Dev.setPort_fuses (d : Dev) (p : Nat) (x : FabPort) : (d.setPort p x).fuses = d.fuses := rfl
@[simp] theorem Dev.setPort_bringUp (d : Dev) (p : Nat) (x : FabPort) : (d.setPort p x).bringUp = d.bringUp := rfl
@[simp] theorem Dev.setPort_outcome (d : Dev) (p : Nat) (x : FabPort) : (d.setPort p x).outcome = d.outcome := rfl
@[simp] theorem Dev.setPort_role (d : Dev) (p : Nat) (x : FabPort) : (d.setPort p x).role = d.role := rfl
@[simp] theorem Dev.setPort_iaPresent (d : Dev) (p : Nat) (x : FabPort) : (d.setPort p x).iaPresent = d.iaPresent := rfl
@[simp] theorem Dev.setPort_ibPresent (d : Dev) (p : Nat) (x : FabPort) : (d.setPort p x).ibPresent = d.ibPresent := rfl
@[simp] theorem Dev.setPort_fenced (d : Dev) (p : Nat) (x : FabPort) : (d.setPort p x).fenced = d.fenced := rfl
@[simp] theorem Dev.setPort_fenceCause (d : Dev) (p : Nat) (x : FabPort) : (d.setPort p x).fenceCause = d.fenceCause := rfl
@[simp] theorem Dev.setPort_idModeNow (d : Dev) (p : Nat) (x : FabPort) : (d.setPort p x).idModeNow = d.idModeNow := rfl
@[simp] theorem Dev.setPort_idModeNext (d : Dev) (p : Nat) (x : FabPort) : (d.setPort p x).idModeNext = d.idModeNext := rfl
@[simp] theorem Dev.setPort_negGen (d : Dev) (p : Nat) (x : FabPort) : (d.setPort p x).negGen = d.negGen := rfl
@[simp] theorem Dev.setPort_iodGen (d : Dev) (p : Nat) (x : FabPort) : (d.setPort p x).iodGen = d.iodGen := rfl
@[simp] theorem Dev.setPort_cmpGen (d : Dev) (p : Nat) (x : FabPort) : (d.setPort p x).cmpGen = d.cmpGen := rfl
@[simp] theorem Dev.setPort_negCaps (d : Dev) (p : Nat) (x : FabPort) : (d.setPort p x).negCaps = d.negCaps := rfl
@[simp] theorem Dev.setPort_dies (d : Dev) (p : Nat) (x : FabPort) : (d.setPort p x).dies = d.dies := rfl
@[simp] theorem Dev.setPort_modules (d : Dev) (p : Nat) (x : FabPort) : (d.setPort p x).modules = d.modules := rfl
@[simp] theorem Dev.setPort_ctlModule (d : Dev) (p : Nat) (x : FabPort) : (d.setPort p x).ctlModule = d.ctlModule := rfl
@[simp] theorem Dev.setPort_stopped (d : Dev) (p : Nat) (x : FabPort) : (d.setPort p x).stopped = d.stopped := rfl
@[simp] theorem Dev.setPort_onAlternate (d : Dev) (p : Nat) (x : FabPort) : (d.setPort p x).onAlternate = d.onAlternate := rfl
@[simp] theorem Dev.setPort_tiles (d : Dev) (p : Nat) (x : FabPort) : (d.setPort p x).tiles = d.tiles := rfl
@[simp] theorem Dev.setPort_hbm (d : Dev) (p : Nat) (x : FabPort) : (d.setPort p x).hbm = d.hbm := rfl
@[simp] theorem Dev.setPort_pages (d : Dev) (p : Nat) (x : FabPort) : (d.setPort p x).pages = d.pages := rfl
@[simp] theorem Dev.setPort_badBursts (d : Dev) (p : Nat) (x : FabPort) : (d.setPort p x).badBursts = d.badBursts := rfl
@[simp] theorem Dev.setPort_strata (d : Dev) (p : Nat) (x : FabPort) : (d.setPort p x).strata = d.strata := rfl
@[simp] theorem Dev.setPort_nextTag (d : Dev) (p : Nat) (x : FabPort) : (d.setPort p x).nextTag = d.nextTag := rfl
@[simp] theorem Dev.setPort_nextBulk (d : Dev) (p : Nat) (x : FabPort) : (d.setPort p x).nextBulk = d.nextBulk := rfl
@[simp] theorem Dev.setPort_tags (d : Dev) (p : Nat) (x : FabPort) : (d.setPort p x).tags = d.tags := rfl
@[simp] theorem Dev.setPort_localOut (d : Dev) (p : Nat) (x : FabPort) : (d.setPort p x).localOut = d.localOut := rfl
@[simp] theorem Dev.setPort_inbox (d : Dev) (p : Nat) (x : FabPort) : (d.setPort p x).inbox = d.inbox := rfl
@[simp] theorem Dev.setPort_inGroups (d : Dev) (p : Nat) (x : FabPort) : (d.setPort p x).inGroups = d.inGroups := rfl
@[simp] theorem Dev.setPort_outGroups (d : Dev) (p : Nat) (x : FabPort) : (d.setPort p x).outGroups = d.outGroups := rfl
@[simp] theorem Dev.setPort_pushes (d : Dev) (p : Nat) (x : FabPort) : (d.setPort p x).pushes = d.pushes := rfl
@[simp] theorem Dev.setPort_bridges (d : Dev) (p : Nat) (x : FabPort) : (d.setPort p x).bridges = d.bridges := rfl
@[simp] theorem Dev.setPort_lode (d : Dev) (p : Nat) (x : FabPort) : (d.setPort p x).lode = d.lode := rfl
@[simp] theorem Dev.setPort_cairns (d : Dev) (p : Nat) (x : FabPort) : (d.setPort p x).cairns = d.cairns := rfl
@[simp] theorem Dev.setPort_openings (d : Dev) (p : Nat) (x : FabPort) : (d.setPort p x).openings = d.openings := rfl
@[simp] theorem Dev.setPort_repeats (d : Dev) (p : Nat) (x : FabPort) : (d.setPort p x).repeats = d.repeats := rfl
@[simp] theorem Dev.setPort_hosts (d : Dev) (p : Nat) (x : FabPort) : (d.setPort p x).hosts = d.hosts := rfl
@[simp] theorem Dev.setPort_admin (d : Dev) (p : Nat) (x : FabPort) : (d.setPort p x).admin = d.admin := rfl
@[simp] theorem Dev.setPort_ctxs (d : Dev) (p : Nat) (x : FabPort) : (d.setPort p x).ctxs = d.ctxs := rfl
@[simp] theorem Dev.setPort_pkgEvents (d : Dev) (p : Nat) (x : FabPort) : (d.setPort p x).pkgEvents = d.pkgEvents := rfl
@[simp] theorem Dev.setPort_directory (d : Dev) (p : Nat) (x : FabPort) : (d.setPort p x).directory = d.directory := rfl
@[simp] theorem Dev.setPort_waiting (d : Dev) (p : Nat) (x : FabPort) : (d.setPort p x).waiting = d.waiting := rfl
@[simp] theorem Dev.setPort_snoops (d : Dev) (p : Nat) (x : FabPort) : (d.setPort p x).snoops = d.snoops := rfl
@[simp] theorem Dev.setPort_ras (d : Dev) (p : Nat) (x : FabPort) : (d.setPort p x).ras = d.ras := rfl
@[simp] theorem Dev.setPort_sec (d : Dev) (p : Nat) (x : FabPort) : (d.setPort p x).sec = d.sec := rfl
@[simp] theorem Dev.setPort_pwr (d : Dev) (p : Nat) (x : FabPort) : (d.setPort p x).pwr = d.pwr := rfl
@[simp] theorem Dev.setPort_free (d : Dev) (p : Nat) (x : FabPort) : (d.setPort p x).free = d.free := rfl
@[simp] theorem Dev.setPort_stores (d : Dev) (p : Nat) (x : FabPort) : (d.setPort p x).stores = d.stores := rfl
@[simp] theorem Dev.setPort_wipes (d : Dev) (p : Nat) (x : FabPort) : (d.setPort p x).wipes = d.wipes := rfl
@[simp] theorem Dev.setPort_out (d : Dev) (p : Nat) (x : FabPort) : (d.setPort p x).out = d.out := rfl

@[simp] theorem Dev.setHost_regs (d : Dev) (p : Nat) (x : HostPort) : (d.setHost p x).regs = d.regs := rfl
@[simp] theorem Dev.setHost_counters (d : Dev) (p : Nat) (x : HostPort) : (d.setHost p x).counters = d.counters := rfl
@[simp] theorem Dev.setHost_reqs (d : Dev) (p : Nat) (x : HostPort) : (d.setHost p x).reqs = d.reqs := rfl
@[simp] theorem Dev.setHost_fuses (d : Dev) (p : Nat) (x : HostPort) : (d.setHost p x).fuses = d.fuses := rfl
@[simp] theorem Dev.setHost_bringUp (d : Dev) (p : Nat) (x : HostPort) : (d.setHost p x).bringUp = d.bringUp := rfl
@[simp] theorem Dev.setHost_outcome (d : Dev) (p : Nat) (x : HostPort) : (d.setHost p x).outcome = d.outcome := rfl
@[simp] theorem Dev.setHost_role (d : Dev) (p : Nat) (x : HostPort) : (d.setHost p x).role = d.role := rfl
@[simp] theorem Dev.setHost_iaPresent (d : Dev) (p : Nat) (x : HostPort) : (d.setHost p x).iaPresent = d.iaPresent := rfl
@[simp] theorem Dev.setHost_ibPresent (d : Dev) (p : Nat) (x : HostPort) : (d.setHost p x).ibPresent = d.ibPresent := rfl
@[simp] theorem Dev.setHost_fenced (d : Dev) (p : Nat) (x : HostPort) : (d.setHost p x).fenced = d.fenced := rfl
@[simp] theorem Dev.setHost_fenceCause (d : Dev) (p : Nat) (x : HostPort) : (d.setHost p x).fenceCause = d.fenceCause := rfl
@[simp] theorem Dev.setHost_idModeNow (d : Dev) (p : Nat) (x : HostPort) : (d.setHost p x).idModeNow = d.idModeNow := rfl
@[simp] theorem Dev.setHost_idModeNext (d : Dev) (p : Nat) (x : HostPort) : (d.setHost p x).idModeNext = d.idModeNext := rfl
@[simp] theorem Dev.setHost_negGen (d : Dev) (p : Nat) (x : HostPort) : (d.setHost p x).negGen = d.negGen := rfl
@[simp] theorem Dev.setHost_iodGen (d : Dev) (p : Nat) (x : HostPort) : (d.setHost p x).iodGen = d.iodGen := rfl
@[simp] theorem Dev.setHost_cmpGen (d : Dev) (p : Nat) (x : HostPort) : (d.setHost p x).cmpGen = d.cmpGen := rfl
@[simp] theorem Dev.setHost_negCaps (d : Dev) (p : Nat) (x : HostPort) : (d.setHost p x).negCaps = d.negCaps := rfl
@[simp] theorem Dev.setHost_dies (d : Dev) (p : Nat) (x : HostPort) : (d.setHost p x).dies = d.dies := rfl
@[simp] theorem Dev.setHost_modules (d : Dev) (p : Nat) (x : HostPort) : (d.setHost p x).modules = d.modules := rfl
@[simp] theorem Dev.setHost_ctlModule (d : Dev) (p : Nat) (x : HostPort) : (d.setHost p x).ctlModule = d.ctlModule := rfl
@[simp] theorem Dev.setHost_stopped (d : Dev) (p : Nat) (x : HostPort) : (d.setHost p x).stopped = d.stopped := rfl
@[simp] theorem Dev.setHost_onAlternate (d : Dev) (p : Nat) (x : HostPort) : (d.setHost p x).onAlternate = d.onAlternate := rfl
@[simp] theorem Dev.setHost_tiles (d : Dev) (p : Nat) (x : HostPort) : (d.setHost p x).tiles = d.tiles := rfl
@[simp] theorem Dev.setHost_hbm (d : Dev) (p : Nat) (x : HostPort) : (d.setHost p x).hbm = d.hbm := rfl
@[simp] theorem Dev.setHost_pages (d : Dev) (p : Nat) (x : HostPort) : (d.setHost p x).pages = d.pages := rfl
@[simp] theorem Dev.setHost_badBursts (d : Dev) (p : Nat) (x : HostPort) : (d.setHost p x).badBursts = d.badBursts := rfl
@[simp] theorem Dev.setHost_strata (d : Dev) (p : Nat) (x : HostPort) : (d.setHost p x).strata = d.strata := rfl
@[simp] theorem Dev.setHost_ports (d : Dev) (p : Nat) (x : HostPort) : (d.setHost p x).ports = d.ports := rfl
@[simp] theorem Dev.setHost_nextTag (d : Dev) (p : Nat) (x : HostPort) : (d.setHost p x).nextTag = d.nextTag := rfl
@[simp] theorem Dev.setHost_nextBulk (d : Dev) (p : Nat) (x : HostPort) : (d.setHost p x).nextBulk = d.nextBulk := rfl
@[simp] theorem Dev.setHost_tags (d : Dev) (p : Nat) (x : HostPort) : (d.setHost p x).tags = d.tags := rfl
@[simp] theorem Dev.setHost_localOut (d : Dev) (p : Nat) (x : HostPort) : (d.setHost p x).localOut = d.localOut := rfl
@[simp] theorem Dev.setHost_inbox (d : Dev) (p : Nat) (x : HostPort) : (d.setHost p x).inbox = d.inbox := rfl
@[simp] theorem Dev.setHost_inGroups (d : Dev) (p : Nat) (x : HostPort) : (d.setHost p x).inGroups = d.inGroups := rfl
@[simp] theorem Dev.setHost_outGroups (d : Dev) (p : Nat) (x : HostPort) : (d.setHost p x).outGroups = d.outGroups := rfl
@[simp] theorem Dev.setHost_pushes (d : Dev) (p : Nat) (x : HostPort) : (d.setHost p x).pushes = d.pushes := rfl
@[simp] theorem Dev.setHost_bridges (d : Dev) (p : Nat) (x : HostPort) : (d.setHost p x).bridges = d.bridges := rfl
@[simp] theorem Dev.setHost_lode (d : Dev) (p : Nat) (x : HostPort) : (d.setHost p x).lode = d.lode := rfl
@[simp] theorem Dev.setHost_cairns (d : Dev) (p : Nat) (x : HostPort) : (d.setHost p x).cairns = d.cairns := rfl
@[simp] theorem Dev.setHost_openings (d : Dev) (p : Nat) (x : HostPort) : (d.setHost p x).openings = d.openings := rfl
@[simp] theorem Dev.setHost_repeats (d : Dev) (p : Nat) (x : HostPort) : (d.setHost p x).repeats = d.repeats := rfl
@[simp] theorem Dev.setHost_admin (d : Dev) (p : Nat) (x : HostPort) : (d.setHost p x).admin = d.admin := rfl
@[simp] theorem Dev.setHost_ctxs (d : Dev) (p : Nat) (x : HostPort) : (d.setHost p x).ctxs = d.ctxs := rfl
@[simp] theorem Dev.setHost_pkgEvents (d : Dev) (p : Nat) (x : HostPort) : (d.setHost p x).pkgEvents = d.pkgEvents := rfl
@[simp] theorem Dev.setHost_directory (d : Dev) (p : Nat) (x : HostPort) : (d.setHost p x).directory = d.directory := rfl
@[simp] theorem Dev.setHost_waiting (d : Dev) (p : Nat) (x : HostPort) : (d.setHost p x).waiting = d.waiting := rfl
@[simp] theorem Dev.setHost_snoops (d : Dev) (p : Nat) (x : HostPort) : (d.setHost p x).snoops = d.snoops := rfl
@[simp] theorem Dev.setHost_ras (d : Dev) (p : Nat) (x : HostPort) : (d.setHost p x).ras = d.ras := rfl
@[simp] theorem Dev.setHost_sec (d : Dev) (p : Nat) (x : HostPort) : (d.setHost p x).sec = d.sec := rfl
@[simp] theorem Dev.setHost_pwr (d : Dev) (p : Nat) (x : HostPort) : (d.setHost p x).pwr = d.pwr := rfl
@[simp] theorem Dev.setHost_free (d : Dev) (p : Nat) (x : HostPort) : (d.setHost p x).free = d.free := rfl
@[simp] theorem Dev.setHost_stores (d : Dev) (p : Nat) (x : HostPort) : (d.setHost p x).stores = d.stores := rfl
@[simp] theorem Dev.setHost_wipes (d : Dev) (p : Nat) (x : HostPort) : (d.setHost p x).wipes = d.wipes := rfl
@[simp] theorem Dev.setHost_out (d : Dev) (p : Nat) (x : HostPort) : (d.setHost p x).out = d.out := rfl

@[simp] theorem Dev.setCairn_regs (d : Dev) (c n : Nat) (x : Cairn) : (d.setCairn c n x).regs = d.regs := rfl
@[simp] theorem Dev.setCairn_counters (d : Dev) (c n : Nat) (x : Cairn) : (d.setCairn c n x).counters = d.counters := rfl
@[simp] theorem Dev.setCairn_reqs (d : Dev) (c n : Nat) (x : Cairn) : (d.setCairn c n x).reqs = d.reqs := rfl
@[simp] theorem Dev.setCairn_fuses (d : Dev) (c n : Nat) (x : Cairn) : (d.setCairn c n x).fuses = d.fuses := rfl
@[simp] theorem Dev.setCairn_bringUp (d : Dev) (c n : Nat) (x : Cairn) : (d.setCairn c n x).bringUp = d.bringUp := rfl
@[simp] theorem Dev.setCairn_outcome (d : Dev) (c n : Nat) (x : Cairn) : (d.setCairn c n x).outcome = d.outcome := rfl
@[simp] theorem Dev.setCairn_role (d : Dev) (c n : Nat) (x : Cairn) : (d.setCairn c n x).role = d.role := rfl
@[simp] theorem Dev.setCairn_iaPresent (d : Dev) (c n : Nat) (x : Cairn) : (d.setCairn c n x).iaPresent = d.iaPresent := rfl
@[simp] theorem Dev.setCairn_ibPresent (d : Dev) (c n : Nat) (x : Cairn) : (d.setCairn c n x).ibPresent = d.ibPresent := rfl
@[simp] theorem Dev.setCairn_fenced (d : Dev) (c n : Nat) (x : Cairn) : (d.setCairn c n x).fenced = d.fenced := rfl
@[simp] theorem Dev.setCairn_fenceCause (d : Dev) (c n : Nat) (x : Cairn) : (d.setCairn c n x).fenceCause = d.fenceCause := rfl
@[simp] theorem Dev.setCairn_idModeNow (d : Dev) (c n : Nat) (x : Cairn) : (d.setCairn c n x).idModeNow = d.idModeNow := rfl
@[simp] theorem Dev.setCairn_idModeNext (d : Dev) (c n : Nat) (x : Cairn) : (d.setCairn c n x).idModeNext = d.idModeNext := rfl
@[simp] theorem Dev.setCairn_negGen (d : Dev) (c n : Nat) (x : Cairn) : (d.setCairn c n x).negGen = d.negGen := rfl
@[simp] theorem Dev.setCairn_iodGen (d : Dev) (c n : Nat) (x : Cairn) : (d.setCairn c n x).iodGen = d.iodGen := rfl
@[simp] theorem Dev.setCairn_cmpGen (d : Dev) (c n : Nat) (x : Cairn) : (d.setCairn c n x).cmpGen = d.cmpGen := rfl
@[simp] theorem Dev.setCairn_negCaps (d : Dev) (c n : Nat) (x : Cairn) : (d.setCairn c n x).negCaps = d.negCaps := rfl
@[simp] theorem Dev.setCairn_dies (d : Dev) (c n : Nat) (x : Cairn) : (d.setCairn c n x).dies = d.dies := rfl
@[simp] theorem Dev.setCairn_modules (d : Dev) (c n : Nat) (x : Cairn) : (d.setCairn c n x).modules = d.modules := rfl
@[simp] theorem Dev.setCairn_ctlModule (d : Dev) (c n : Nat) (x : Cairn) : (d.setCairn c n x).ctlModule = d.ctlModule := rfl
@[simp] theorem Dev.setCairn_stopped (d : Dev) (c n : Nat) (x : Cairn) : (d.setCairn c n x).stopped = d.stopped := rfl
@[simp] theorem Dev.setCairn_onAlternate (d : Dev) (c n : Nat) (x : Cairn) : (d.setCairn c n x).onAlternate = d.onAlternate := rfl
@[simp] theorem Dev.setCairn_tiles (d : Dev) (c n : Nat) (x : Cairn) : (d.setCairn c n x).tiles = d.tiles := rfl
@[simp] theorem Dev.setCairn_hbm (d : Dev) (c n : Nat) (x : Cairn) : (d.setCairn c n x).hbm = d.hbm := rfl
@[simp] theorem Dev.setCairn_pages (d : Dev) (c n : Nat) (x : Cairn) : (d.setCairn c n x).pages = d.pages := rfl
@[simp] theorem Dev.setCairn_badBursts (d : Dev) (c n : Nat) (x : Cairn) : (d.setCairn c n x).badBursts = d.badBursts := rfl
@[simp] theorem Dev.setCairn_strata (d : Dev) (c n : Nat) (x : Cairn) : (d.setCairn c n x).strata = d.strata := rfl
@[simp] theorem Dev.setCairn_ports (d : Dev) (c n : Nat) (x : Cairn) : (d.setCairn c n x).ports = d.ports := rfl
@[simp] theorem Dev.setCairn_nextTag (d : Dev) (c n : Nat) (x : Cairn) : (d.setCairn c n x).nextTag = d.nextTag := rfl
@[simp] theorem Dev.setCairn_nextBulk (d : Dev) (c n : Nat) (x : Cairn) : (d.setCairn c n x).nextBulk = d.nextBulk := rfl
@[simp] theorem Dev.setCairn_tags (d : Dev) (c n : Nat) (x : Cairn) : (d.setCairn c n x).tags = d.tags := rfl
@[simp] theorem Dev.setCairn_localOut (d : Dev) (c n : Nat) (x : Cairn) : (d.setCairn c n x).localOut = d.localOut := rfl
@[simp] theorem Dev.setCairn_inbox (d : Dev) (c n : Nat) (x : Cairn) : (d.setCairn c n x).inbox = d.inbox := rfl
@[simp] theorem Dev.setCairn_inGroups (d : Dev) (c n : Nat) (x : Cairn) : (d.setCairn c n x).inGroups = d.inGroups := rfl
@[simp] theorem Dev.setCairn_outGroups (d : Dev) (c n : Nat) (x : Cairn) : (d.setCairn c n x).outGroups = d.outGroups := rfl
@[simp] theorem Dev.setCairn_pushes (d : Dev) (c n : Nat) (x : Cairn) : (d.setCairn c n x).pushes = d.pushes := rfl
@[simp] theorem Dev.setCairn_bridges (d : Dev) (c n : Nat) (x : Cairn) : (d.setCairn c n x).bridges = d.bridges := rfl
@[simp] theorem Dev.setCairn_lode (d : Dev) (c n : Nat) (x : Cairn) : (d.setCairn c n x).lode = d.lode := rfl
@[simp] theorem Dev.setCairn_openings (d : Dev) (c n : Nat) (x : Cairn) : (d.setCairn c n x).openings = d.openings := rfl
@[simp] theorem Dev.setCairn_repeats (d : Dev) (c n : Nat) (x : Cairn) : (d.setCairn c n x).repeats = d.repeats := rfl
@[simp] theorem Dev.setCairn_hosts (d : Dev) (c n : Nat) (x : Cairn) : (d.setCairn c n x).hosts = d.hosts := rfl
@[simp] theorem Dev.setCairn_admin (d : Dev) (c n : Nat) (x : Cairn) : (d.setCairn c n x).admin = d.admin := rfl
@[simp] theorem Dev.setCairn_ctxs (d : Dev) (c n : Nat) (x : Cairn) : (d.setCairn c n x).ctxs = d.ctxs := rfl
@[simp] theorem Dev.setCairn_pkgEvents (d : Dev) (c n : Nat) (x : Cairn) : (d.setCairn c n x).pkgEvents = d.pkgEvents := rfl
@[simp] theorem Dev.setCairn_directory (d : Dev) (c n : Nat) (x : Cairn) : (d.setCairn c n x).directory = d.directory := rfl
@[simp] theorem Dev.setCairn_waiting (d : Dev) (c n : Nat) (x : Cairn) : (d.setCairn c n x).waiting = d.waiting := rfl
@[simp] theorem Dev.setCairn_snoops (d : Dev) (c n : Nat) (x : Cairn) : (d.setCairn c n x).snoops = d.snoops := rfl
@[simp] theorem Dev.setCairn_ras (d : Dev) (c n : Nat) (x : Cairn) : (d.setCairn c n x).ras = d.ras := rfl
@[simp] theorem Dev.setCairn_sec (d : Dev) (c n : Nat) (x : Cairn) : (d.setCairn c n x).sec = d.sec := rfl
@[simp] theorem Dev.setCairn_pwr (d : Dev) (c n : Nat) (x : Cairn) : (d.setCairn c n x).pwr = d.pwr := rfl
@[simp] theorem Dev.setCairn_free (d : Dev) (c n : Nat) (x : Cairn) : (d.setCairn c n x).free = d.free := rfl
@[simp] theorem Dev.setCairn_stores (d : Dev) (c n : Nat) (x : Cairn) : (d.setCairn c n x).stores = d.stores := rfl
@[simp] theorem Dev.setCairn_wipes (d : Dev) (c n : Nat) (x : Cairn) : (d.setCairn c n x).wipes = d.wipes := rfl
@[simp] theorem Dev.setCairn_out (d : Dev) (c n : Nat) (x : Cairn) : (d.setCairn c n x).out = d.out := rfl

@[simp] theorem Dev.setReq_regs (d : Dev) (i : Nat) (x : ReqState) : (d.setReq i x).regs = d.regs := rfl
@[simp] theorem Dev.setReq_counters (d : Dev) (i : Nat) (x : ReqState) : (d.setReq i x).counters = d.counters := rfl
@[simp] theorem Dev.setReq_fuses (d : Dev) (i : Nat) (x : ReqState) : (d.setReq i x).fuses = d.fuses := rfl
@[simp] theorem Dev.setReq_bringUp (d : Dev) (i : Nat) (x : ReqState) : (d.setReq i x).bringUp = d.bringUp := rfl
@[simp] theorem Dev.setReq_outcome (d : Dev) (i : Nat) (x : ReqState) : (d.setReq i x).outcome = d.outcome := rfl
@[simp] theorem Dev.setReq_role (d : Dev) (i : Nat) (x : ReqState) : (d.setReq i x).role = d.role := rfl
@[simp] theorem Dev.setReq_iaPresent (d : Dev) (i : Nat) (x : ReqState) : (d.setReq i x).iaPresent = d.iaPresent := rfl
@[simp] theorem Dev.setReq_ibPresent (d : Dev) (i : Nat) (x : ReqState) : (d.setReq i x).ibPresent = d.ibPresent := rfl
@[simp] theorem Dev.setReq_fenced (d : Dev) (i : Nat) (x : ReqState) : (d.setReq i x).fenced = d.fenced := rfl
@[simp] theorem Dev.setReq_fenceCause (d : Dev) (i : Nat) (x : ReqState) : (d.setReq i x).fenceCause = d.fenceCause := rfl
@[simp] theorem Dev.setReq_idModeNow (d : Dev) (i : Nat) (x : ReqState) : (d.setReq i x).idModeNow = d.idModeNow := rfl
@[simp] theorem Dev.setReq_idModeNext (d : Dev) (i : Nat) (x : ReqState) : (d.setReq i x).idModeNext = d.idModeNext := rfl
@[simp] theorem Dev.setReq_negGen (d : Dev) (i : Nat) (x : ReqState) : (d.setReq i x).negGen = d.negGen := rfl
@[simp] theorem Dev.setReq_iodGen (d : Dev) (i : Nat) (x : ReqState) : (d.setReq i x).iodGen = d.iodGen := rfl
@[simp] theorem Dev.setReq_cmpGen (d : Dev) (i : Nat) (x : ReqState) : (d.setReq i x).cmpGen = d.cmpGen := rfl
@[simp] theorem Dev.setReq_negCaps (d : Dev) (i : Nat) (x : ReqState) : (d.setReq i x).negCaps = d.negCaps := rfl
@[simp] theorem Dev.setReq_dies (d : Dev) (i : Nat) (x : ReqState) : (d.setReq i x).dies = d.dies := rfl
@[simp] theorem Dev.setReq_modules (d : Dev) (i : Nat) (x : ReqState) : (d.setReq i x).modules = d.modules := rfl
@[simp] theorem Dev.setReq_ctlModule (d : Dev) (i : Nat) (x : ReqState) : (d.setReq i x).ctlModule = d.ctlModule := rfl
@[simp] theorem Dev.setReq_stopped (d : Dev) (i : Nat) (x : ReqState) : (d.setReq i x).stopped = d.stopped := rfl
@[simp] theorem Dev.setReq_onAlternate (d : Dev) (i : Nat) (x : ReqState) : (d.setReq i x).onAlternate = d.onAlternate := rfl
@[simp] theorem Dev.setReq_tiles (d : Dev) (i : Nat) (x : ReqState) : (d.setReq i x).tiles = d.tiles := rfl
@[simp] theorem Dev.setReq_hbm (d : Dev) (i : Nat) (x : ReqState) : (d.setReq i x).hbm = d.hbm := rfl
@[simp] theorem Dev.setReq_pages (d : Dev) (i : Nat) (x : ReqState) : (d.setReq i x).pages = d.pages := rfl
@[simp] theorem Dev.setReq_badBursts (d : Dev) (i : Nat) (x : ReqState) : (d.setReq i x).badBursts = d.badBursts := rfl
@[simp] theorem Dev.setReq_strata (d : Dev) (i : Nat) (x : ReqState) : (d.setReq i x).strata = d.strata := rfl
@[simp] theorem Dev.setReq_ports (d : Dev) (i : Nat) (x : ReqState) : (d.setReq i x).ports = d.ports := rfl
@[simp] theorem Dev.setReq_nextTag (d : Dev) (i : Nat) (x : ReqState) : (d.setReq i x).nextTag = d.nextTag := rfl
@[simp] theorem Dev.setReq_nextBulk (d : Dev) (i : Nat) (x : ReqState) : (d.setReq i x).nextBulk = d.nextBulk := rfl
@[simp] theorem Dev.setReq_tags (d : Dev) (i : Nat) (x : ReqState) : (d.setReq i x).tags = d.tags := rfl
@[simp] theorem Dev.setReq_localOut (d : Dev) (i : Nat) (x : ReqState) : (d.setReq i x).localOut = d.localOut := rfl
@[simp] theorem Dev.setReq_inbox (d : Dev) (i : Nat) (x : ReqState) : (d.setReq i x).inbox = d.inbox := rfl
@[simp] theorem Dev.setReq_inGroups (d : Dev) (i : Nat) (x : ReqState) : (d.setReq i x).inGroups = d.inGroups := rfl
@[simp] theorem Dev.setReq_outGroups (d : Dev) (i : Nat) (x : ReqState) : (d.setReq i x).outGroups = d.outGroups := rfl
@[simp] theorem Dev.setReq_pushes (d : Dev) (i : Nat) (x : ReqState) : (d.setReq i x).pushes = d.pushes := rfl
@[simp] theorem Dev.setReq_bridges (d : Dev) (i : Nat) (x : ReqState) : (d.setReq i x).bridges = d.bridges := rfl
@[simp] theorem Dev.setReq_lode (d : Dev) (i : Nat) (x : ReqState) : (d.setReq i x).lode = d.lode := rfl
@[simp] theorem Dev.setReq_cairns (d : Dev) (i : Nat) (x : ReqState) : (d.setReq i x).cairns = d.cairns := rfl
@[simp] theorem Dev.setReq_openings (d : Dev) (i : Nat) (x : ReqState) : (d.setReq i x).openings = d.openings := rfl
@[simp] theorem Dev.setReq_repeats (d : Dev) (i : Nat) (x : ReqState) : (d.setReq i x).repeats = d.repeats := rfl
@[simp] theorem Dev.setReq_hosts (d : Dev) (i : Nat) (x : ReqState) : (d.setReq i x).hosts = d.hosts := rfl
@[simp] theorem Dev.setReq_admin (d : Dev) (i : Nat) (x : ReqState) : (d.setReq i x).admin = d.admin := rfl
@[simp] theorem Dev.setReq_ctxs (d : Dev) (i : Nat) (x : ReqState) : (d.setReq i x).ctxs = d.ctxs := rfl
@[simp] theorem Dev.setReq_pkgEvents (d : Dev) (i : Nat) (x : ReqState) : (d.setReq i x).pkgEvents = d.pkgEvents := rfl
@[simp] theorem Dev.setReq_directory (d : Dev) (i : Nat) (x : ReqState) : (d.setReq i x).directory = d.directory := rfl
@[simp] theorem Dev.setReq_waiting (d : Dev) (i : Nat) (x : ReqState) : (d.setReq i x).waiting = d.waiting := rfl
@[simp] theorem Dev.setReq_snoops (d : Dev) (i : Nat) (x : ReqState) : (d.setReq i x).snoops = d.snoops := rfl
@[simp] theorem Dev.setReq_ras (d : Dev) (i : Nat) (x : ReqState) : (d.setReq i x).ras = d.ras := rfl
@[simp] theorem Dev.setReq_sec (d : Dev) (i : Nat) (x : ReqState) : (d.setReq i x).sec = d.sec := rfl
@[simp] theorem Dev.setReq_pwr (d : Dev) (i : Nat) (x : ReqState) : (d.setReq i x).pwr = d.pwr := rfl
@[simp] theorem Dev.setReq_free (d : Dev) (i : Nat) (x : ReqState) : (d.setReq i x).free = d.free := rfl
@[simp] theorem Dev.setReq_stores (d : Dev) (i : Nat) (x : ReqState) : (d.setReq i x).stores = d.stores := rfl
@[simp] theorem Dev.setReq_wipes (d : Dev) (i : Nat) (x : ReqState) : (d.setReq i x).wipes = d.wipes := rfl
@[simp] theorem Dev.setReq_out (d : Dev) (i : Nat) (x : ReqState) : (d.setReq i x).out = d.out := rfl

@[simp] theorem Dev.setStack_regs (d : Dev) (i : Nat) (x : Stack) : (d.setStack i x).regs = d.regs := rfl
@[simp] theorem Dev.setStack_counters (d : Dev) (i : Nat) (x : Stack) : (d.setStack i x).counters = d.counters := rfl
@[simp] theorem Dev.setStack_reqs (d : Dev) (i : Nat) (x : Stack) : (d.setStack i x).reqs = d.reqs := rfl
@[simp] theorem Dev.setStack_fuses (d : Dev) (i : Nat) (x : Stack) : (d.setStack i x).fuses = d.fuses := rfl
@[simp] theorem Dev.setStack_bringUp (d : Dev) (i : Nat) (x : Stack) : (d.setStack i x).bringUp = d.bringUp := rfl
@[simp] theorem Dev.setStack_outcome (d : Dev) (i : Nat) (x : Stack) : (d.setStack i x).outcome = d.outcome := rfl
@[simp] theorem Dev.setStack_role (d : Dev) (i : Nat) (x : Stack) : (d.setStack i x).role = d.role := rfl
@[simp] theorem Dev.setStack_iaPresent (d : Dev) (i : Nat) (x : Stack) : (d.setStack i x).iaPresent = d.iaPresent := rfl
@[simp] theorem Dev.setStack_ibPresent (d : Dev) (i : Nat) (x : Stack) : (d.setStack i x).ibPresent = d.ibPresent := rfl
@[simp] theorem Dev.setStack_fenced (d : Dev) (i : Nat) (x : Stack) : (d.setStack i x).fenced = d.fenced := rfl
@[simp] theorem Dev.setStack_fenceCause (d : Dev) (i : Nat) (x : Stack) : (d.setStack i x).fenceCause = d.fenceCause := rfl
@[simp] theorem Dev.setStack_idModeNow (d : Dev) (i : Nat) (x : Stack) : (d.setStack i x).idModeNow = d.idModeNow := rfl
@[simp] theorem Dev.setStack_idModeNext (d : Dev) (i : Nat) (x : Stack) : (d.setStack i x).idModeNext = d.idModeNext := rfl
@[simp] theorem Dev.setStack_negGen (d : Dev) (i : Nat) (x : Stack) : (d.setStack i x).negGen = d.negGen := rfl
@[simp] theorem Dev.setStack_iodGen (d : Dev) (i : Nat) (x : Stack) : (d.setStack i x).iodGen = d.iodGen := rfl
@[simp] theorem Dev.setStack_cmpGen (d : Dev) (i : Nat) (x : Stack) : (d.setStack i x).cmpGen = d.cmpGen := rfl
@[simp] theorem Dev.setStack_negCaps (d : Dev) (i : Nat) (x : Stack) : (d.setStack i x).negCaps = d.negCaps := rfl
@[simp] theorem Dev.setStack_dies (d : Dev) (i : Nat) (x : Stack) : (d.setStack i x).dies = d.dies := rfl
@[simp] theorem Dev.setStack_modules (d : Dev) (i : Nat) (x : Stack) : (d.setStack i x).modules = d.modules := rfl
@[simp] theorem Dev.setStack_ctlModule (d : Dev) (i : Nat) (x : Stack) : (d.setStack i x).ctlModule = d.ctlModule := rfl
@[simp] theorem Dev.setStack_stopped (d : Dev) (i : Nat) (x : Stack) : (d.setStack i x).stopped = d.stopped := rfl
@[simp] theorem Dev.setStack_onAlternate (d : Dev) (i : Nat) (x : Stack) : (d.setStack i x).onAlternate = d.onAlternate := rfl
@[simp] theorem Dev.setStack_tiles (d : Dev) (i : Nat) (x : Stack) : (d.setStack i x).tiles = d.tiles := rfl
@[simp] theorem Dev.setStack_pages (d : Dev) (i : Nat) (x : Stack) : (d.setStack i x).pages = d.pages := rfl
@[simp] theorem Dev.setStack_badBursts (d : Dev) (i : Nat) (x : Stack) : (d.setStack i x).badBursts = d.badBursts := rfl
@[simp] theorem Dev.setStack_strata (d : Dev) (i : Nat) (x : Stack) : (d.setStack i x).strata = d.strata := rfl
@[simp] theorem Dev.setStack_ports (d : Dev) (i : Nat) (x : Stack) : (d.setStack i x).ports = d.ports := rfl
@[simp] theorem Dev.setStack_nextTag (d : Dev) (i : Nat) (x : Stack) : (d.setStack i x).nextTag = d.nextTag := rfl
@[simp] theorem Dev.setStack_nextBulk (d : Dev) (i : Nat) (x : Stack) : (d.setStack i x).nextBulk = d.nextBulk := rfl
@[simp] theorem Dev.setStack_tags (d : Dev) (i : Nat) (x : Stack) : (d.setStack i x).tags = d.tags := rfl
@[simp] theorem Dev.setStack_localOut (d : Dev) (i : Nat) (x : Stack) : (d.setStack i x).localOut = d.localOut := rfl
@[simp] theorem Dev.setStack_inbox (d : Dev) (i : Nat) (x : Stack) : (d.setStack i x).inbox = d.inbox := rfl
@[simp] theorem Dev.setStack_inGroups (d : Dev) (i : Nat) (x : Stack) : (d.setStack i x).inGroups = d.inGroups := rfl
@[simp] theorem Dev.setStack_outGroups (d : Dev) (i : Nat) (x : Stack) : (d.setStack i x).outGroups = d.outGroups := rfl
@[simp] theorem Dev.setStack_pushes (d : Dev) (i : Nat) (x : Stack) : (d.setStack i x).pushes = d.pushes := rfl
@[simp] theorem Dev.setStack_bridges (d : Dev) (i : Nat) (x : Stack) : (d.setStack i x).bridges = d.bridges := rfl
@[simp] theorem Dev.setStack_lode (d : Dev) (i : Nat) (x : Stack) : (d.setStack i x).lode = d.lode := rfl
@[simp] theorem Dev.setStack_cairns (d : Dev) (i : Nat) (x : Stack) : (d.setStack i x).cairns = d.cairns := rfl
@[simp] theorem Dev.setStack_openings (d : Dev) (i : Nat) (x : Stack) : (d.setStack i x).openings = d.openings := rfl
@[simp] theorem Dev.setStack_repeats (d : Dev) (i : Nat) (x : Stack) : (d.setStack i x).repeats = d.repeats := rfl
@[simp] theorem Dev.setStack_hosts (d : Dev) (i : Nat) (x : Stack) : (d.setStack i x).hosts = d.hosts := rfl
@[simp] theorem Dev.setStack_admin (d : Dev) (i : Nat) (x : Stack) : (d.setStack i x).admin = d.admin := rfl
@[simp] theorem Dev.setStack_ctxs (d : Dev) (i : Nat) (x : Stack) : (d.setStack i x).ctxs = d.ctxs := rfl
@[simp] theorem Dev.setStack_pkgEvents (d : Dev) (i : Nat) (x : Stack) : (d.setStack i x).pkgEvents = d.pkgEvents := rfl
@[simp] theorem Dev.setStack_directory (d : Dev) (i : Nat) (x : Stack) : (d.setStack i x).directory = d.directory := rfl
@[simp] theorem Dev.setStack_waiting (d : Dev) (i : Nat) (x : Stack) : (d.setStack i x).waiting = d.waiting := rfl
@[simp] theorem Dev.setStack_snoops (d : Dev) (i : Nat) (x : Stack) : (d.setStack i x).snoops = d.snoops := rfl
@[simp] theorem Dev.setStack_ras (d : Dev) (i : Nat) (x : Stack) : (d.setStack i x).ras = d.ras := rfl
@[simp] theorem Dev.setStack_sec (d : Dev) (i : Nat) (x : Stack) : (d.setStack i x).sec = d.sec := rfl
@[simp] theorem Dev.setStack_pwr (d : Dev) (i : Nat) (x : Stack) : (d.setStack i x).pwr = d.pwr := rfl
@[simp] theorem Dev.setStack_free (d : Dev) (i : Nat) (x : Stack) : (d.setStack i x).free = d.free := rfl
@[simp] theorem Dev.setStack_stores (d : Dev) (i : Nat) (x : Stack) : (d.setStack i x).stores = d.stores := rfl
@[simp] theorem Dev.setStack_wipes (d : Dev) (i : Nat) (x : Stack) : (d.setStack i x).wipes = d.wipes := rfl
@[simp] theorem Dev.setStack_out (d : Dev) (i : Nat) (x : Stack) : (d.setStack i x).out = d.out := rfl

@[simp] theorem Dev.setDiePower_regs (d : Dev) (i : Nat) (x : DiePower) : (d.setDiePower i x).regs = d.regs := rfl
@[simp] theorem Dev.setDiePower_counters (d : Dev) (i : Nat) (x : DiePower) : (d.setDiePower i x).counters = d.counters := rfl
@[simp] theorem Dev.setDiePower_reqs (d : Dev) (i : Nat) (x : DiePower) : (d.setDiePower i x).reqs = d.reqs := rfl
@[simp] theorem Dev.setDiePower_fuses (d : Dev) (i : Nat) (x : DiePower) : (d.setDiePower i x).fuses = d.fuses := rfl
@[simp] theorem Dev.setDiePower_bringUp (d : Dev) (i : Nat) (x : DiePower) : (d.setDiePower i x).bringUp = d.bringUp := rfl
@[simp] theorem Dev.setDiePower_outcome (d : Dev) (i : Nat) (x : DiePower) : (d.setDiePower i x).outcome = d.outcome := rfl
@[simp] theorem Dev.setDiePower_role (d : Dev) (i : Nat) (x : DiePower) : (d.setDiePower i x).role = d.role := rfl
@[simp] theorem Dev.setDiePower_iaPresent (d : Dev) (i : Nat) (x : DiePower) : (d.setDiePower i x).iaPresent = d.iaPresent := rfl
@[simp] theorem Dev.setDiePower_ibPresent (d : Dev) (i : Nat) (x : DiePower) : (d.setDiePower i x).ibPresent = d.ibPresent := rfl
@[simp] theorem Dev.setDiePower_fenced (d : Dev) (i : Nat) (x : DiePower) : (d.setDiePower i x).fenced = d.fenced := rfl
@[simp] theorem Dev.setDiePower_fenceCause (d : Dev) (i : Nat) (x : DiePower) : (d.setDiePower i x).fenceCause = d.fenceCause := rfl
@[simp] theorem Dev.setDiePower_idModeNow (d : Dev) (i : Nat) (x : DiePower) : (d.setDiePower i x).idModeNow = d.idModeNow := rfl
@[simp] theorem Dev.setDiePower_idModeNext (d : Dev) (i : Nat) (x : DiePower) : (d.setDiePower i x).idModeNext = d.idModeNext := rfl
@[simp] theorem Dev.setDiePower_negGen (d : Dev) (i : Nat) (x : DiePower) : (d.setDiePower i x).negGen = d.negGen := rfl
@[simp] theorem Dev.setDiePower_iodGen (d : Dev) (i : Nat) (x : DiePower) : (d.setDiePower i x).iodGen = d.iodGen := rfl
@[simp] theorem Dev.setDiePower_cmpGen (d : Dev) (i : Nat) (x : DiePower) : (d.setDiePower i x).cmpGen = d.cmpGen := rfl
@[simp] theorem Dev.setDiePower_negCaps (d : Dev) (i : Nat) (x : DiePower) : (d.setDiePower i x).negCaps = d.negCaps := rfl
@[simp] theorem Dev.setDiePower_dies (d : Dev) (i : Nat) (x : DiePower) : (d.setDiePower i x).dies = d.dies := rfl
@[simp] theorem Dev.setDiePower_modules (d : Dev) (i : Nat) (x : DiePower) : (d.setDiePower i x).modules = d.modules := rfl
@[simp] theorem Dev.setDiePower_ctlModule (d : Dev) (i : Nat) (x : DiePower) : (d.setDiePower i x).ctlModule = d.ctlModule := rfl
@[simp] theorem Dev.setDiePower_stopped (d : Dev) (i : Nat) (x : DiePower) : (d.setDiePower i x).stopped = d.stopped := rfl
@[simp] theorem Dev.setDiePower_onAlternate (d : Dev) (i : Nat) (x : DiePower) : (d.setDiePower i x).onAlternate = d.onAlternate := rfl
@[simp] theorem Dev.setDiePower_tiles (d : Dev) (i : Nat) (x : DiePower) : (d.setDiePower i x).tiles = d.tiles := rfl
@[simp] theorem Dev.setDiePower_hbm (d : Dev) (i : Nat) (x : DiePower) : (d.setDiePower i x).hbm = d.hbm := rfl
@[simp] theorem Dev.setDiePower_pages (d : Dev) (i : Nat) (x : DiePower) : (d.setDiePower i x).pages = d.pages := rfl
@[simp] theorem Dev.setDiePower_badBursts (d : Dev) (i : Nat) (x : DiePower) : (d.setDiePower i x).badBursts = d.badBursts := rfl
@[simp] theorem Dev.setDiePower_strata (d : Dev) (i : Nat) (x : DiePower) : (d.setDiePower i x).strata = d.strata := rfl
@[simp] theorem Dev.setDiePower_ports (d : Dev) (i : Nat) (x : DiePower) : (d.setDiePower i x).ports = d.ports := rfl
@[simp] theorem Dev.setDiePower_nextTag (d : Dev) (i : Nat) (x : DiePower) : (d.setDiePower i x).nextTag = d.nextTag := rfl
@[simp] theorem Dev.setDiePower_nextBulk (d : Dev) (i : Nat) (x : DiePower) : (d.setDiePower i x).nextBulk = d.nextBulk := rfl
@[simp] theorem Dev.setDiePower_tags (d : Dev) (i : Nat) (x : DiePower) : (d.setDiePower i x).tags = d.tags := rfl
@[simp] theorem Dev.setDiePower_localOut (d : Dev) (i : Nat) (x : DiePower) : (d.setDiePower i x).localOut = d.localOut := rfl
@[simp] theorem Dev.setDiePower_inbox (d : Dev) (i : Nat) (x : DiePower) : (d.setDiePower i x).inbox = d.inbox := rfl
@[simp] theorem Dev.setDiePower_inGroups (d : Dev) (i : Nat) (x : DiePower) : (d.setDiePower i x).inGroups = d.inGroups := rfl
@[simp] theorem Dev.setDiePower_outGroups (d : Dev) (i : Nat) (x : DiePower) : (d.setDiePower i x).outGroups = d.outGroups := rfl
@[simp] theorem Dev.setDiePower_pushes (d : Dev) (i : Nat) (x : DiePower) : (d.setDiePower i x).pushes = d.pushes := rfl
@[simp] theorem Dev.setDiePower_bridges (d : Dev) (i : Nat) (x : DiePower) : (d.setDiePower i x).bridges = d.bridges := rfl
@[simp] theorem Dev.setDiePower_lode (d : Dev) (i : Nat) (x : DiePower) : (d.setDiePower i x).lode = d.lode := rfl
@[simp] theorem Dev.setDiePower_cairns (d : Dev) (i : Nat) (x : DiePower) : (d.setDiePower i x).cairns = d.cairns := rfl
@[simp] theorem Dev.setDiePower_openings (d : Dev) (i : Nat) (x : DiePower) : (d.setDiePower i x).openings = d.openings := rfl
@[simp] theorem Dev.setDiePower_repeats (d : Dev) (i : Nat) (x : DiePower) : (d.setDiePower i x).repeats = d.repeats := rfl
@[simp] theorem Dev.setDiePower_hosts (d : Dev) (i : Nat) (x : DiePower) : (d.setDiePower i x).hosts = d.hosts := rfl
@[simp] theorem Dev.setDiePower_admin (d : Dev) (i : Nat) (x : DiePower) : (d.setDiePower i x).admin = d.admin := rfl
@[simp] theorem Dev.setDiePower_ctxs (d : Dev) (i : Nat) (x : DiePower) : (d.setDiePower i x).ctxs = d.ctxs := rfl
@[simp] theorem Dev.setDiePower_pkgEvents (d : Dev) (i : Nat) (x : DiePower) : (d.setDiePower i x).pkgEvents = d.pkgEvents := rfl
@[simp] theorem Dev.setDiePower_directory (d : Dev) (i : Nat) (x : DiePower) : (d.setDiePower i x).directory = d.directory := rfl
@[simp] theorem Dev.setDiePower_waiting (d : Dev) (i : Nat) (x : DiePower) : (d.setDiePower i x).waiting = d.waiting := rfl
@[simp] theorem Dev.setDiePower_snoops (d : Dev) (i : Nat) (x : DiePower) : (d.setDiePower i x).snoops = d.snoops := rfl
@[simp] theorem Dev.setDiePower_ras (d : Dev) (i : Nat) (x : DiePower) : (d.setDiePower i x).ras = d.ras := rfl
@[simp] theorem Dev.setDiePower_sec (d : Dev) (i : Nat) (x : DiePower) : (d.setDiePower i x).sec = d.sec := rfl
@[simp] theorem Dev.setDiePower_free (d : Dev) (i : Nat) (x : DiePower) : (d.setDiePower i x).free = d.free := rfl
@[simp] theorem Dev.setDiePower_stores (d : Dev) (i : Nat) (x : DiePower) : (d.setDiePower i x).stores = d.stores := rfl
@[simp] theorem Dev.setDiePower_wipes (d : Dev) (i : Nat) (x : DiePower) : (d.setDiePower i x).wipes = d.wipes := rfl
@[simp] theorem Dev.setDiePower_out (d : Dev) (i : Nat) (x : DiePower) : (d.setDiePower i x).out = d.out := rfl

@[simp] theorem Dev.poke_regs (d : Dev) (a : Nat) (b : Byte) : (d.poke a b).regs = d.regs := rfl
@[simp] theorem Dev.poke_counters (d : Dev) (a : Nat) (b : Byte) : (d.poke a b).counters = d.counters := rfl
@[simp] theorem Dev.poke_reqs (d : Dev) (a : Nat) (b : Byte) : (d.poke a b).reqs = d.reqs := rfl
@[simp] theorem Dev.poke_fuses (d : Dev) (a : Nat) (b : Byte) : (d.poke a b).fuses = d.fuses := rfl
@[simp] theorem Dev.poke_bringUp (d : Dev) (a : Nat) (b : Byte) : (d.poke a b).bringUp = d.bringUp := rfl
@[simp] theorem Dev.poke_outcome (d : Dev) (a : Nat) (b : Byte) : (d.poke a b).outcome = d.outcome := rfl
@[simp] theorem Dev.poke_role (d : Dev) (a : Nat) (b : Byte) : (d.poke a b).role = d.role := rfl
@[simp] theorem Dev.poke_iaPresent (d : Dev) (a : Nat) (b : Byte) : (d.poke a b).iaPresent = d.iaPresent := rfl
@[simp] theorem Dev.poke_ibPresent (d : Dev) (a : Nat) (b : Byte) : (d.poke a b).ibPresent = d.ibPresent := rfl
@[simp] theorem Dev.poke_fenced (d : Dev) (a : Nat) (b : Byte) : (d.poke a b).fenced = d.fenced := rfl
@[simp] theorem Dev.poke_fenceCause (d : Dev) (a : Nat) (b : Byte) : (d.poke a b).fenceCause = d.fenceCause := rfl
@[simp] theorem Dev.poke_idModeNow (d : Dev) (a : Nat) (b : Byte) : (d.poke a b).idModeNow = d.idModeNow := rfl
@[simp] theorem Dev.poke_idModeNext (d : Dev) (a : Nat) (b : Byte) : (d.poke a b).idModeNext = d.idModeNext := rfl
@[simp] theorem Dev.poke_negGen (d : Dev) (a : Nat) (b : Byte) : (d.poke a b).negGen = d.negGen := rfl
@[simp] theorem Dev.poke_iodGen (d : Dev) (a : Nat) (b : Byte) : (d.poke a b).iodGen = d.iodGen := rfl
@[simp] theorem Dev.poke_cmpGen (d : Dev) (a : Nat) (b : Byte) : (d.poke a b).cmpGen = d.cmpGen := rfl
@[simp] theorem Dev.poke_negCaps (d : Dev) (a : Nat) (b : Byte) : (d.poke a b).negCaps = d.negCaps := rfl
@[simp] theorem Dev.poke_dies (d : Dev) (a : Nat) (b : Byte) : (d.poke a b).dies = d.dies := rfl
@[simp] theorem Dev.poke_modules (d : Dev) (a : Nat) (b : Byte) : (d.poke a b).modules = d.modules := rfl
@[simp] theorem Dev.poke_ctlModule (d : Dev) (a : Nat) (b : Byte) : (d.poke a b).ctlModule = d.ctlModule := rfl
@[simp] theorem Dev.poke_stopped (d : Dev) (a : Nat) (b : Byte) : (d.poke a b).stopped = d.stopped := rfl
@[simp] theorem Dev.poke_onAlternate (d : Dev) (a : Nat) (b : Byte) : (d.poke a b).onAlternate = d.onAlternate := rfl
@[simp] theorem Dev.poke_tiles (d : Dev) (a : Nat) (b : Byte) : (d.poke a b).tiles = d.tiles := rfl
@[simp] theorem Dev.poke_hbm (d : Dev) (a : Nat) (b : Byte) : (d.poke a b).hbm = d.hbm := rfl
@[simp] theorem Dev.poke_pages (d : Dev) (a : Nat) (b : Byte) : (d.poke a b).pages = d.pages := rfl
@[simp] theorem Dev.poke_badBursts (d : Dev) (a : Nat) (b : Byte) : (d.poke a b).badBursts = d.badBursts := rfl
@[simp] theorem Dev.poke_strata (d : Dev) (a : Nat) (b : Byte) : (d.poke a b).strata = d.strata := rfl
@[simp] theorem Dev.poke_ports (d : Dev) (a : Nat) (b : Byte) : (d.poke a b).ports = d.ports := rfl
@[simp] theorem Dev.poke_nextTag (d : Dev) (a : Nat) (b : Byte) : (d.poke a b).nextTag = d.nextTag := rfl
@[simp] theorem Dev.poke_nextBulk (d : Dev) (a : Nat) (b : Byte) : (d.poke a b).nextBulk = d.nextBulk := rfl
@[simp] theorem Dev.poke_tags (d : Dev) (a : Nat) (b : Byte) : (d.poke a b).tags = d.tags := rfl
@[simp] theorem Dev.poke_localOut (d : Dev) (a : Nat) (b : Byte) : (d.poke a b).localOut = d.localOut := rfl
@[simp] theorem Dev.poke_inbox (d : Dev) (a : Nat) (b : Byte) : (d.poke a b).inbox = d.inbox := rfl
@[simp] theorem Dev.poke_inGroups (d : Dev) (a : Nat) (b : Byte) : (d.poke a b).inGroups = d.inGroups := rfl
@[simp] theorem Dev.poke_outGroups (d : Dev) (a : Nat) (b : Byte) : (d.poke a b).outGroups = d.outGroups := rfl
@[simp] theorem Dev.poke_pushes (d : Dev) (a : Nat) (b : Byte) : (d.poke a b).pushes = d.pushes := rfl
@[simp] theorem Dev.poke_bridges (d : Dev) (a : Nat) (b : Byte) : (d.poke a b).bridges = d.bridges := rfl
@[simp] theorem Dev.poke_lode (d : Dev) (a : Nat) (b : Byte) : (d.poke a b).lode = d.lode := rfl
@[simp] theorem Dev.poke_cairns (d : Dev) (a : Nat) (b : Byte) : (d.poke a b).cairns = d.cairns := rfl
@[simp] theorem Dev.poke_openings (d : Dev) (a : Nat) (b : Byte) : (d.poke a b).openings = d.openings := rfl
@[simp] theorem Dev.poke_repeats (d : Dev) (a : Nat) (b : Byte) : (d.poke a b).repeats = d.repeats := rfl
@[simp] theorem Dev.poke_hosts (d : Dev) (a : Nat) (b : Byte) : (d.poke a b).hosts = d.hosts := rfl
@[simp] theorem Dev.poke_admin (d : Dev) (a : Nat) (b : Byte) : (d.poke a b).admin = d.admin := rfl
@[simp] theorem Dev.poke_ctxs (d : Dev) (a : Nat) (b : Byte) : (d.poke a b).ctxs = d.ctxs := rfl
@[simp] theorem Dev.poke_pkgEvents (d : Dev) (a : Nat) (b : Byte) : (d.poke a b).pkgEvents = d.pkgEvents := rfl
@[simp] theorem Dev.poke_directory (d : Dev) (a : Nat) (b : Byte) : (d.poke a b).directory = d.directory := rfl
@[simp] theorem Dev.poke_waiting (d : Dev) (a : Nat) (b : Byte) : (d.poke a b).waiting = d.waiting := rfl
@[simp] theorem Dev.poke_snoops (d : Dev) (a : Nat) (b : Byte) : (d.poke a b).snoops = d.snoops := rfl
@[simp] theorem Dev.poke_ras (d : Dev) (a : Nat) (b : Byte) : (d.poke a b).ras = d.ras := rfl
@[simp] theorem Dev.poke_sec (d : Dev) (a : Nat) (b : Byte) : (d.poke a b).sec = d.sec := rfl
@[simp] theorem Dev.poke_pwr (d : Dev) (a : Nat) (b : Byte) : (d.poke a b).pwr = d.pwr := rfl
@[simp] theorem Dev.poke_free (d : Dev) (a : Nat) (b : Byte) : (d.poke a b).free = d.free := rfl
@[simp] theorem Dev.poke_wipes (d : Dev) (a : Nat) (b : Byte) : (d.poke a b).wipes = d.wipes := rfl
@[simp] theorem Dev.poke_out (d : Dev) (a : Nat) (b : Byte) : (d.poke a b).out = d.out := rfl

@[simp] theorem Dev.pokeN_regs (d : Dev) (a : Nat) (bs : List Byte) : (d.pokeN a bs).regs = d.regs := rfl
@[simp] theorem Dev.pokeN_counters (d : Dev) (a : Nat) (bs : List Byte) : (d.pokeN a bs).counters = d.counters := rfl
@[simp] theorem Dev.pokeN_reqs (d : Dev) (a : Nat) (bs : List Byte) : (d.pokeN a bs).reqs = d.reqs := rfl
@[simp] theorem Dev.pokeN_fuses (d : Dev) (a : Nat) (bs : List Byte) : (d.pokeN a bs).fuses = d.fuses := rfl
@[simp] theorem Dev.pokeN_bringUp (d : Dev) (a : Nat) (bs : List Byte) : (d.pokeN a bs).bringUp = d.bringUp := rfl
@[simp] theorem Dev.pokeN_outcome (d : Dev) (a : Nat) (bs : List Byte) : (d.pokeN a bs).outcome = d.outcome := rfl
@[simp] theorem Dev.pokeN_role (d : Dev) (a : Nat) (bs : List Byte) : (d.pokeN a bs).role = d.role := rfl
@[simp] theorem Dev.pokeN_iaPresent (d : Dev) (a : Nat) (bs : List Byte) : (d.pokeN a bs).iaPresent = d.iaPresent := rfl
@[simp] theorem Dev.pokeN_ibPresent (d : Dev) (a : Nat) (bs : List Byte) : (d.pokeN a bs).ibPresent = d.ibPresent := rfl
@[simp] theorem Dev.pokeN_fenced (d : Dev) (a : Nat) (bs : List Byte) : (d.pokeN a bs).fenced = d.fenced := rfl
@[simp] theorem Dev.pokeN_fenceCause (d : Dev) (a : Nat) (bs : List Byte) : (d.pokeN a bs).fenceCause = d.fenceCause := rfl
@[simp] theorem Dev.pokeN_idModeNow (d : Dev) (a : Nat) (bs : List Byte) : (d.pokeN a bs).idModeNow = d.idModeNow := rfl
@[simp] theorem Dev.pokeN_idModeNext (d : Dev) (a : Nat) (bs : List Byte) : (d.pokeN a bs).idModeNext = d.idModeNext := rfl
@[simp] theorem Dev.pokeN_negGen (d : Dev) (a : Nat) (bs : List Byte) : (d.pokeN a bs).negGen = d.negGen := rfl
@[simp] theorem Dev.pokeN_iodGen (d : Dev) (a : Nat) (bs : List Byte) : (d.pokeN a bs).iodGen = d.iodGen := rfl
@[simp] theorem Dev.pokeN_cmpGen (d : Dev) (a : Nat) (bs : List Byte) : (d.pokeN a bs).cmpGen = d.cmpGen := rfl
@[simp] theorem Dev.pokeN_negCaps (d : Dev) (a : Nat) (bs : List Byte) : (d.pokeN a bs).negCaps = d.negCaps := rfl
@[simp] theorem Dev.pokeN_dies (d : Dev) (a : Nat) (bs : List Byte) : (d.pokeN a bs).dies = d.dies := rfl
@[simp] theorem Dev.pokeN_modules (d : Dev) (a : Nat) (bs : List Byte) : (d.pokeN a bs).modules = d.modules := rfl
@[simp] theorem Dev.pokeN_ctlModule (d : Dev) (a : Nat) (bs : List Byte) : (d.pokeN a bs).ctlModule = d.ctlModule := rfl
@[simp] theorem Dev.pokeN_stopped (d : Dev) (a : Nat) (bs : List Byte) : (d.pokeN a bs).stopped = d.stopped := rfl
@[simp] theorem Dev.pokeN_onAlternate (d : Dev) (a : Nat) (bs : List Byte) : (d.pokeN a bs).onAlternate = d.onAlternate := rfl
@[simp] theorem Dev.pokeN_tiles (d : Dev) (a : Nat) (bs : List Byte) : (d.pokeN a bs).tiles = d.tiles := rfl
@[simp] theorem Dev.pokeN_hbm (d : Dev) (a : Nat) (bs : List Byte) : (d.pokeN a bs).hbm = d.hbm := rfl
@[simp] theorem Dev.pokeN_pages (d : Dev) (a : Nat) (bs : List Byte) : (d.pokeN a bs).pages = d.pages := rfl
@[simp] theorem Dev.pokeN_badBursts (d : Dev) (a : Nat) (bs : List Byte) : (d.pokeN a bs).badBursts = d.badBursts := rfl
@[simp] theorem Dev.pokeN_strata (d : Dev) (a : Nat) (bs : List Byte) : (d.pokeN a bs).strata = d.strata := rfl
@[simp] theorem Dev.pokeN_ports (d : Dev) (a : Nat) (bs : List Byte) : (d.pokeN a bs).ports = d.ports := rfl
@[simp] theorem Dev.pokeN_nextTag (d : Dev) (a : Nat) (bs : List Byte) : (d.pokeN a bs).nextTag = d.nextTag := rfl
@[simp] theorem Dev.pokeN_nextBulk (d : Dev) (a : Nat) (bs : List Byte) : (d.pokeN a bs).nextBulk = d.nextBulk := rfl
@[simp] theorem Dev.pokeN_tags (d : Dev) (a : Nat) (bs : List Byte) : (d.pokeN a bs).tags = d.tags := rfl
@[simp] theorem Dev.pokeN_localOut (d : Dev) (a : Nat) (bs : List Byte) : (d.pokeN a bs).localOut = d.localOut := rfl
@[simp] theorem Dev.pokeN_inbox (d : Dev) (a : Nat) (bs : List Byte) : (d.pokeN a bs).inbox = d.inbox := rfl
@[simp] theorem Dev.pokeN_inGroups (d : Dev) (a : Nat) (bs : List Byte) : (d.pokeN a bs).inGroups = d.inGroups := rfl
@[simp] theorem Dev.pokeN_outGroups (d : Dev) (a : Nat) (bs : List Byte) : (d.pokeN a bs).outGroups = d.outGroups := rfl
@[simp] theorem Dev.pokeN_pushes (d : Dev) (a : Nat) (bs : List Byte) : (d.pokeN a bs).pushes = d.pushes := rfl
@[simp] theorem Dev.pokeN_bridges (d : Dev) (a : Nat) (bs : List Byte) : (d.pokeN a bs).bridges = d.bridges := rfl
@[simp] theorem Dev.pokeN_lode (d : Dev) (a : Nat) (bs : List Byte) : (d.pokeN a bs).lode = d.lode := rfl
@[simp] theorem Dev.pokeN_cairns (d : Dev) (a : Nat) (bs : List Byte) : (d.pokeN a bs).cairns = d.cairns := rfl
@[simp] theorem Dev.pokeN_openings (d : Dev) (a : Nat) (bs : List Byte) : (d.pokeN a bs).openings = d.openings := rfl
@[simp] theorem Dev.pokeN_repeats (d : Dev) (a : Nat) (bs : List Byte) : (d.pokeN a bs).repeats = d.repeats := rfl
@[simp] theorem Dev.pokeN_hosts (d : Dev) (a : Nat) (bs : List Byte) : (d.pokeN a bs).hosts = d.hosts := rfl
@[simp] theorem Dev.pokeN_admin (d : Dev) (a : Nat) (bs : List Byte) : (d.pokeN a bs).admin = d.admin := rfl
@[simp] theorem Dev.pokeN_ctxs (d : Dev) (a : Nat) (bs : List Byte) : (d.pokeN a bs).ctxs = d.ctxs := rfl
@[simp] theorem Dev.pokeN_pkgEvents (d : Dev) (a : Nat) (bs : List Byte) : (d.pokeN a bs).pkgEvents = d.pkgEvents := rfl
@[simp] theorem Dev.pokeN_directory (d : Dev) (a : Nat) (bs : List Byte) : (d.pokeN a bs).directory = d.directory := rfl
@[simp] theorem Dev.pokeN_waiting (d : Dev) (a : Nat) (bs : List Byte) : (d.pokeN a bs).waiting = d.waiting := rfl
@[simp] theorem Dev.pokeN_snoops (d : Dev) (a : Nat) (bs : List Byte) : (d.pokeN a bs).snoops = d.snoops := rfl
@[simp] theorem Dev.pokeN_ras (d : Dev) (a : Nat) (bs : List Byte) : (d.pokeN a bs).ras = d.ras := rfl
@[simp] theorem Dev.pokeN_sec (d : Dev) (a : Nat) (bs : List Byte) : (d.pokeN a bs).sec = d.sec := rfl
@[simp] theorem Dev.pokeN_pwr (d : Dev) (a : Nat) (bs : List Byte) : (d.pokeN a bs).pwr = d.pwr := rfl
@[simp] theorem Dev.pokeN_free (d : Dev) (a : Nat) (bs : List Byte) : (d.pokeN a bs).free = d.free := rfl
@[simp] theorem Dev.pokeN_wipes (d : Dev) (a : Nat) (bs : List Byte) : (d.pokeN a bs).wipes = d.wipes := rfl
@[simp] theorem Dev.pokeN_out (d : Dev) (a : Nat) (bs : List Byte) : (d.pokeN a bs).out = d.out := rfl

@[simp] theorem Dev.pokeLE_regs (d : Dev) (a n v : Nat) : (d.pokeLE a n v).regs = d.regs := rfl
@[simp] theorem Dev.pokeLE_counters (d : Dev) (a n v : Nat) : (d.pokeLE a n v).counters = d.counters := rfl
@[simp] theorem Dev.pokeLE_reqs (d : Dev) (a n v : Nat) : (d.pokeLE a n v).reqs = d.reqs := rfl
@[simp] theorem Dev.pokeLE_fuses (d : Dev) (a n v : Nat) : (d.pokeLE a n v).fuses = d.fuses := rfl
@[simp] theorem Dev.pokeLE_bringUp (d : Dev) (a n v : Nat) : (d.pokeLE a n v).bringUp = d.bringUp := rfl
@[simp] theorem Dev.pokeLE_outcome (d : Dev) (a n v : Nat) : (d.pokeLE a n v).outcome = d.outcome := rfl
@[simp] theorem Dev.pokeLE_role (d : Dev) (a n v : Nat) : (d.pokeLE a n v).role = d.role := rfl
@[simp] theorem Dev.pokeLE_iaPresent (d : Dev) (a n v : Nat) : (d.pokeLE a n v).iaPresent = d.iaPresent := rfl
@[simp] theorem Dev.pokeLE_ibPresent (d : Dev) (a n v : Nat) : (d.pokeLE a n v).ibPresent = d.ibPresent := rfl
@[simp] theorem Dev.pokeLE_fenced (d : Dev) (a n v : Nat) : (d.pokeLE a n v).fenced = d.fenced := rfl
@[simp] theorem Dev.pokeLE_fenceCause (d : Dev) (a n v : Nat) : (d.pokeLE a n v).fenceCause = d.fenceCause := rfl
@[simp] theorem Dev.pokeLE_idModeNow (d : Dev) (a n v : Nat) : (d.pokeLE a n v).idModeNow = d.idModeNow := rfl
@[simp] theorem Dev.pokeLE_idModeNext (d : Dev) (a n v : Nat) : (d.pokeLE a n v).idModeNext = d.idModeNext := rfl
@[simp] theorem Dev.pokeLE_negGen (d : Dev) (a n v : Nat) : (d.pokeLE a n v).negGen = d.negGen := rfl
@[simp] theorem Dev.pokeLE_iodGen (d : Dev) (a n v : Nat) : (d.pokeLE a n v).iodGen = d.iodGen := rfl
@[simp] theorem Dev.pokeLE_cmpGen (d : Dev) (a n v : Nat) : (d.pokeLE a n v).cmpGen = d.cmpGen := rfl
@[simp] theorem Dev.pokeLE_negCaps (d : Dev) (a n v : Nat) : (d.pokeLE a n v).negCaps = d.negCaps := rfl
@[simp] theorem Dev.pokeLE_dies (d : Dev) (a n v : Nat) : (d.pokeLE a n v).dies = d.dies := rfl
@[simp] theorem Dev.pokeLE_modules (d : Dev) (a n v : Nat) : (d.pokeLE a n v).modules = d.modules := rfl
@[simp] theorem Dev.pokeLE_ctlModule (d : Dev) (a n v : Nat) : (d.pokeLE a n v).ctlModule = d.ctlModule := rfl
@[simp] theorem Dev.pokeLE_stopped (d : Dev) (a n v : Nat) : (d.pokeLE a n v).stopped = d.stopped := rfl
@[simp] theorem Dev.pokeLE_onAlternate (d : Dev) (a n v : Nat) : (d.pokeLE a n v).onAlternate = d.onAlternate := rfl
@[simp] theorem Dev.pokeLE_tiles (d : Dev) (a n v : Nat) : (d.pokeLE a n v).tiles = d.tiles := rfl
@[simp] theorem Dev.pokeLE_hbm (d : Dev) (a n v : Nat) : (d.pokeLE a n v).hbm = d.hbm := rfl
@[simp] theorem Dev.pokeLE_pages (d : Dev) (a n v : Nat) : (d.pokeLE a n v).pages = d.pages := rfl
@[simp] theorem Dev.pokeLE_badBursts (d : Dev) (a n v : Nat) : (d.pokeLE a n v).badBursts = d.badBursts := rfl
@[simp] theorem Dev.pokeLE_strata (d : Dev) (a n v : Nat) : (d.pokeLE a n v).strata = d.strata := rfl
@[simp] theorem Dev.pokeLE_ports (d : Dev) (a n v : Nat) : (d.pokeLE a n v).ports = d.ports := rfl
@[simp] theorem Dev.pokeLE_nextTag (d : Dev) (a n v : Nat) : (d.pokeLE a n v).nextTag = d.nextTag := rfl
@[simp] theorem Dev.pokeLE_nextBulk (d : Dev) (a n v : Nat) : (d.pokeLE a n v).nextBulk = d.nextBulk := rfl
@[simp] theorem Dev.pokeLE_tags (d : Dev) (a n v : Nat) : (d.pokeLE a n v).tags = d.tags := rfl
@[simp] theorem Dev.pokeLE_localOut (d : Dev) (a n v : Nat) : (d.pokeLE a n v).localOut = d.localOut := rfl
@[simp] theorem Dev.pokeLE_inbox (d : Dev) (a n v : Nat) : (d.pokeLE a n v).inbox = d.inbox := rfl
@[simp] theorem Dev.pokeLE_inGroups (d : Dev) (a n v : Nat) : (d.pokeLE a n v).inGroups = d.inGroups := rfl
@[simp] theorem Dev.pokeLE_outGroups (d : Dev) (a n v : Nat) : (d.pokeLE a n v).outGroups = d.outGroups := rfl
@[simp] theorem Dev.pokeLE_pushes (d : Dev) (a n v : Nat) : (d.pokeLE a n v).pushes = d.pushes := rfl
@[simp] theorem Dev.pokeLE_bridges (d : Dev) (a n v : Nat) : (d.pokeLE a n v).bridges = d.bridges := rfl
@[simp] theorem Dev.pokeLE_lode (d : Dev) (a n v : Nat) : (d.pokeLE a n v).lode = d.lode := rfl
@[simp] theorem Dev.pokeLE_cairns (d : Dev) (a n v : Nat) : (d.pokeLE a n v).cairns = d.cairns := rfl
@[simp] theorem Dev.pokeLE_openings (d : Dev) (a n v : Nat) : (d.pokeLE a n v).openings = d.openings := rfl
@[simp] theorem Dev.pokeLE_repeats (d : Dev) (a n v : Nat) : (d.pokeLE a n v).repeats = d.repeats := rfl
@[simp] theorem Dev.pokeLE_hosts (d : Dev) (a n v : Nat) : (d.pokeLE a n v).hosts = d.hosts := rfl
@[simp] theorem Dev.pokeLE_admin (d : Dev) (a n v : Nat) : (d.pokeLE a n v).admin = d.admin := rfl
@[simp] theorem Dev.pokeLE_ctxs (d : Dev) (a n v : Nat) : (d.pokeLE a n v).ctxs = d.ctxs := rfl
@[simp] theorem Dev.pokeLE_pkgEvents (d : Dev) (a n v : Nat) : (d.pokeLE a n v).pkgEvents = d.pkgEvents := rfl
@[simp] theorem Dev.pokeLE_directory (d : Dev) (a n v : Nat) : (d.pokeLE a n v).directory = d.directory := rfl
@[simp] theorem Dev.pokeLE_waiting (d : Dev) (a n v : Nat) : (d.pokeLE a n v).waiting = d.waiting := rfl
@[simp] theorem Dev.pokeLE_snoops (d : Dev) (a n v : Nat) : (d.pokeLE a n v).snoops = d.snoops := rfl
@[simp] theorem Dev.pokeLE_ras (d : Dev) (a n v : Nat) : (d.pokeLE a n v).ras = d.ras := rfl
@[simp] theorem Dev.pokeLE_sec (d : Dev) (a n v : Nat) : (d.pokeLE a n v).sec = d.sec := rfl
@[simp] theorem Dev.pokeLE_pwr (d : Dev) (a n v : Nat) : (d.pokeLE a n v).pwr = d.pwr := rfl
@[simp] theorem Dev.pokeLE_free (d : Dev) (a n v : Nat) : (d.pokeLE a n v).free = d.free := rfl
@[simp] theorem Dev.pokeLE_wipes (d : Dev) (a n v : Nat) : (d.pokeLE a n v).wipes = d.wipes := rfl
@[simp] theorem Dev.pokeLE_out (d : Dev) (a n v : Nat) : (d.pokeLE a n v).out = d.out := rfl

@[simp] theorem Dev.wipe_regs (d : Dev) (a n : Nat) : (d.wipe a n).regs = d.regs := rfl
@[simp] theorem Dev.wipe_counters (d : Dev) (a n : Nat) : (d.wipe a n).counters = d.counters := rfl
@[simp] theorem Dev.wipe_reqs (d : Dev) (a n : Nat) : (d.wipe a n).reqs = d.reqs := rfl
@[simp] theorem Dev.wipe_fuses (d : Dev) (a n : Nat) : (d.wipe a n).fuses = d.fuses := rfl
@[simp] theorem Dev.wipe_bringUp (d : Dev) (a n : Nat) : (d.wipe a n).bringUp = d.bringUp := rfl
@[simp] theorem Dev.wipe_outcome (d : Dev) (a n : Nat) : (d.wipe a n).outcome = d.outcome := rfl
@[simp] theorem Dev.wipe_role (d : Dev) (a n : Nat) : (d.wipe a n).role = d.role := rfl
@[simp] theorem Dev.wipe_iaPresent (d : Dev) (a n : Nat) : (d.wipe a n).iaPresent = d.iaPresent := rfl
@[simp] theorem Dev.wipe_ibPresent (d : Dev) (a n : Nat) : (d.wipe a n).ibPresent = d.ibPresent := rfl
@[simp] theorem Dev.wipe_fenced (d : Dev) (a n : Nat) : (d.wipe a n).fenced = d.fenced := rfl
@[simp] theorem Dev.wipe_fenceCause (d : Dev) (a n : Nat) : (d.wipe a n).fenceCause = d.fenceCause := rfl
@[simp] theorem Dev.wipe_idModeNow (d : Dev) (a n : Nat) : (d.wipe a n).idModeNow = d.idModeNow := rfl
@[simp] theorem Dev.wipe_idModeNext (d : Dev) (a n : Nat) : (d.wipe a n).idModeNext = d.idModeNext := rfl
@[simp] theorem Dev.wipe_negGen (d : Dev) (a n : Nat) : (d.wipe a n).negGen = d.negGen := rfl
@[simp] theorem Dev.wipe_iodGen (d : Dev) (a n : Nat) : (d.wipe a n).iodGen = d.iodGen := rfl
@[simp] theorem Dev.wipe_cmpGen (d : Dev) (a n : Nat) : (d.wipe a n).cmpGen = d.cmpGen := rfl
@[simp] theorem Dev.wipe_negCaps (d : Dev) (a n : Nat) : (d.wipe a n).negCaps = d.negCaps := rfl
@[simp] theorem Dev.wipe_dies (d : Dev) (a n : Nat) : (d.wipe a n).dies = d.dies := rfl
@[simp] theorem Dev.wipe_modules (d : Dev) (a n : Nat) : (d.wipe a n).modules = d.modules := rfl
@[simp] theorem Dev.wipe_ctlModule (d : Dev) (a n : Nat) : (d.wipe a n).ctlModule = d.ctlModule := rfl
@[simp] theorem Dev.wipe_stopped (d : Dev) (a n : Nat) : (d.wipe a n).stopped = d.stopped := rfl
@[simp] theorem Dev.wipe_onAlternate (d : Dev) (a n : Nat) : (d.wipe a n).onAlternate = d.onAlternate := rfl
@[simp] theorem Dev.wipe_tiles (d : Dev) (a n : Nat) : (d.wipe a n).tiles = d.tiles := rfl
@[simp] theorem Dev.wipe_hbm (d : Dev) (a n : Nat) : (d.wipe a n).hbm = d.hbm := rfl
@[simp] theorem Dev.wipe_pages (d : Dev) (a n : Nat) : (d.wipe a n).pages = d.pages := rfl
@[simp] theorem Dev.wipe_badBursts (d : Dev) (a n : Nat) : (d.wipe a n).badBursts = d.badBursts := rfl
@[simp] theorem Dev.wipe_strata (d : Dev) (a n : Nat) : (d.wipe a n).strata = d.strata := rfl
@[simp] theorem Dev.wipe_ports (d : Dev) (a n : Nat) : (d.wipe a n).ports = d.ports := rfl
@[simp] theorem Dev.wipe_nextTag (d : Dev) (a n : Nat) : (d.wipe a n).nextTag = d.nextTag := rfl
@[simp] theorem Dev.wipe_nextBulk (d : Dev) (a n : Nat) : (d.wipe a n).nextBulk = d.nextBulk := rfl
@[simp] theorem Dev.wipe_tags (d : Dev) (a n : Nat) : (d.wipe a n).tags = d.tags := rfl
@[simp] theorem Dev.wipe_localOut (d : Dev) (a n : Nat) : (d.wipe a n).localOut = d.localOut := rfl
@[simp] theorem Dev.wipe_inbox (d : Dev) (a n : Nat) : (d.wipe a n).inbox = d.inbox := rfl
@[simp] theorem Dev.wipe_inGroups (d : Dev) (a n : Nat) : (d.wipe a n).inGroups = d.inGroups := rfl
@[simp] theorem Dev.wipe_outGroups (d : Dev) (a n : Nat) : (d.wipe a n).outGroups = d.outGroups := rfl
@[simp] theorem Dev.wipe_pushes (d : Dev) (a n : Nat) : (d.wipe a n).pushes = d.pushes := rfl
@[simp] theorem Dev.wipe_bridges (d : Dev) (a n : Nat) : (d.wipe a n).bridges = d.bridges := rfl
@[simp] theorem Dev.wipe_lode (d : Dev) (a n : Nat) : (d.wipe a n).lode = d.lode := rfl
@[simp] theorem Dev.wipe_cairns (d : Dev) (a n : Nat) : (d.wipe a n).cairns = d.cairns := rfl
@[simp] theorem Dev.wipe_openings (d : Dev) (a n : Nat) : (d.wipe a n).openings = d.openings := rfl
@[simp] theorem Dev.wipe_repeats (d : Dev) (a n : Nat) : (d.wipe a n).repeats = d.repeats := rfl
@[simp] theorem Dev.wipe_hosts (d : Dev) (a n : Nat) : (d.wipe a n).hosts = d.hosts := rfl
@[simp] theorem Dev.wipe_admin (d : Dev) (a n : Nat) : (d.wipe a n).admin = d.admin := rfl
@[simp] theorem Dev.wipe_ctxs (d : Dev) (a n : Nat) : (d.wipe a n).ctxs = d.ctxs := rfl
@[simp] theorem Dev.wipe_pkgEvents (d : Dev) (a n : Nat) : (d.wipe a n).pkgEvents = d.pkgEvents := rfl
@[simp] theorem Dev.wipe_directory (d : Dev) (a n : Nat) : (d.wipe a n).directory = d.directory := rfl
@[simp] theorem Dev.wipe_waiting (d : Dev) (a n : Nat) : (d.wipe a n).waiting = d.waiting := rfl
@[simp] theorem Dev.wipe_snoops (d : Dev) (a n : Nat) : (d.wipe a n).snoops = d.snoops := rfl
@[simp] theorem Dev.wipe_ras (d : Dev) (a n : Nat) : (d.wipe a n).ras = d.ras := rfl
@[simp] theorem Dev.wipe_sec (d : Dev) (a n : Nat) : (d.wipe a n).sec = d.sec := rfl
@[simp] theorem Dev.wipe_pwr (d : Dev) (a n : Nat) : (d.wipe a n).pwr = d.pwr := rfl
@[simp] theorem Dev.wipe_free (d : Dev) (a n : Nat) : (d.wipe a n).free = d.free := rfl
@[simp] theorem Dev.wipe_out (d : Dev) (a n : Nat) : (d.wipe a n).out = d.out := rfl

@[simp] theorem Dev.emit_regs (d : Dev) (o : Out) : (d.emit o).regs = d.regs := rfl
@[simp] theorem Dev.emit_counters (d : Dev) (o : Out) : (d.emit o).counters = d.counters := rfl
@[simp] theorem Dev.emit_reqs (d : Dev) (o : Out) : (d.emit o).reqs = d.reqs := rfl
@[simp] theorem Dev.emit_fuses (d : Dev) (o : Out) : (d.emit o).fuses = d.fuses := rfl
@[simp] theorem Dev.emit_bringUp (d : Dev) (o : Out) : (d.emit o).bringUp = d.bringUp := rfl
@[simp] theorem Dev.emit_outcome (d : Dev) (o : Out) : (d.emit o).outcome = d.outcome := rfl
@[simp] theorem Dev.emit_role (d : Dev) (o : Out) : (d.emit o).role = d.role := rfl
@[simp] theorem Dev.emit_iaPresent (d : Dev) (o : Out) : (d.emit o).iaPresent = d.iaPresent := rfl
@[simp] theorem Dev.emit_ibPresent (d : Dev) (o : Out) : (d.emit o).ibPresent = d.ibPresent := rfl
@[simp] theorem Dev.emit_fenced (d : Dev) (o : Out) : (d.emit o).fenced = d.fenced := rfl
@[simp] theorem Dev.emit_fenceCause (d : Dev) (o : Out) : (d.emit o).fenceCause = d.fenceCause := rfl
@[simp] theorem Dev.emit_idModeNow (d : Dev) (o : Out) : (d.emit o).idModeNow = d.idModeNow := rfl
@[simp] theorem Dev.emit_idModeNext (d : Dev) (o : Out) : (d.emit o).idModeNext = d.idModeNext := rfl
@[simp] theorem Dev.emit_negGen (d : Dev) (o : Out) : (d.emit o).negGen = d.negGen := rfl
@[simp] theorem Dev.emit_iodGen (d : Dev) (o : Out) : (d.emit o).iodGen = d.iodGen := rfl
@[simp] theorem Dev.emit_cmpGen (d : Dev) (o : Out) : (d.emit o).cmpGen = d.cmpGen := rfl
@[simp] theorem Dev.emit_negCaps (d : Dev) (o : Out) : (d.emit o).negCaps = d.negCaps := rfl
@[simp] theorem Dev.emit_dies (d : Dev) (o : Out) : (d.emit o).dies = d.dies := rfl
@[simp] theorem Dev.emit_modules (d : Dev) (o : Out) : (d.emit o).modules = d.modules := rfl
@[simp] theorem Dev.emit_ctlModule (d : Dev) (o : Out) : (d.emit o).ctlModule = d.ctlModule := rfl
@[simp] theorem Dev.emit_stopped (d : Dev) (o : Out) : (d.emit o).stopped = d.stopped := rfl
@[simp] theorem Dev.emit_onAlternate (d : Dev) (o : Out) : (d.emit o).onAlternate = d.onAlternate := rfl
@[simp] theorem Dev.emit_tiles (d : Dev) (o : Out) : (d.emit o).tiles = d.tiles := rfl
@[simp] theorem Dev.emit_hbm (d : Dev) (o : Out) : (d.emit o).hbm = d.hbm := rfl
@[simp] theorem Dev.emit_pages (d : Dev) (o : Out) : (d.emit o).pages = d.pages := rfl
@[simp] theorem Dev.emit_badBursts (d : Dev) (o : Out) : (d.emit o).badBursts = d.badBursts := rfl
@[simp] theorem Dev.emit_strata (d : Dev) (o : Out) : (d.emit o).strata = d.strata := rfl
@[simp] theorem Dev.emit_ports (d : Dev) (o : Out) : (d.emit o).ports = d.ports := rfl
@[simp] theorem Dev.emit_nextTag (d : Dev) (o : Out) : (d.emit o).nextTag = d.nextTag := rfl
@[simp] theorem Dev.emit_nextBulk (d : Dev) (o : Out) : (d.emit o).nextBulk = d.nextBulk := rfl
@[simp] theorem Dev.emit_tags (d : Dev) (o : Out) : (d.emit o).tags = d.tags := rfl
@[simp] theorem Dev.emit_localOut (d : Dev) (o : Out) : (d.emit o).localOut = d.localOut := rfl
@[simp] theorem Dev.emit_inbox (d : Dev) (o : Out) : (d.emit o).inbox = d.inbox := rfl
@[simp] theorem Dev.emit_inGroups (d : Dev) (o : Out) : (d.emit o).inGroups = d.inGroups := rfl
@[simp] theorem Dev.emit_outGroups (d : Dev) (o : Out) : (d.emit o).outGroups = d.outGroups := rfl
@[simp] theorem Dev.emit_pushes (d : Dev) (o : Out) : (d.emit o).pushes = d.pushes := rfl
@[simp] theorem Dev.emit_bridges (d : Dev) (o : Out) : (d.emit o).bridges = d.bridges := rfl
@[simp] theorem Dev.emit_lode (d : Dev) (o : Out) : (d.emit o).lode = d.lode := rfl
@[simp] theorem Dev.emit_cairns (d : Dev) (o : Out) : (d.emit o).cairns = d.cairns := rfl
@[simp] theorem Dev.emit_openings (d : Dev) (o : Out) : (d.emit o).openings = d.openings := rfl
@[simp] theorem Dev.emit_repeats (d : Dev) (o : Out) : (d.emit o).repeats = d.repeats := rfl
@[simp] theorem Dev.emit_hosts (d : Dev) (o : Out) : (d.emit o).hosts = d.hosts := rfl
@[simp] theorem Dev.emit_admin (d : Dev) (o : Out) : (d.emit o).admin = d.admin := rfl
@[simp] theorem Dev.emit_ctxs (d : Dev) (o : Out) : (d.emit o).ctxs = d.ctxs := rfl
@[simp] theorem Dev.emit_pkgEvents (d : Dev) (o : Out) : (d.emit o).pkgEvents = d.pkgEvents := rfl
@[simp] theorem Dev.emit_directory (d : Dev) (o : Out) : (d.emit o).directory = d.directory := rfl
@[simp] theorem Dev.emit_waiting (d : Dev) (o : Out) : (d.emit o).waiting = d.waiting := rfl
@[simp] theorem Dev.emit_snoops (d : Dev) (o : Out) : (d.emit o).snoops = d.snoops := rfl
@[simp] theorem Dev.emit_ras (d : Dev) (o : Out) : (d.emit o).ras = d.ras := rfl
@[simp] theorem Dev.emit_sec (d : Dev) (o : Out) : (d.emit o).sec = d.sec := rfl
@[simp] theorem Dev.emit_pwr (d : Dev) (o : Out) : (d.emit o).pwr = d.pwr := rfl
@[simp] theorem Dev.emit_free (d : Dev) (o : Out) : (d.emit o).free = d.free := rfl
@[simp] theorem Dev.emit_stores (d : Dev) (o : Out) : (d.emit o).stores = d.stores := rfl
@[simp] theorem Dev.emit_wipes (d : Dev) (o : Out) : (d.emit o).wipes = d.wipes := rfl

/-! Readers after updates of other fields. -/

@[simp] theorem Dev.count_setReg (d : Dev) (k : Nat) (v : BitVec 32) (j : Nat) : (d.setReg k v).count j = d.count j := rfl
@[simp] theorem Dev.tile_setReg (d : Dev) (k : Nat) (v : BitVec 32) (j : Nat) : (d.setReg k v).tile j = d.tile j := rfl
@[simp] theorem Dev.ctx_setReg (d : Dev) (k : Nat) (v : BitVec 32) (j : Nat) : (d.setReg k v).ctx j = d.ctx j := rfl
@[simp] theorem Dev.port_setReg (d : Dev) (k : Nat) (v : BitVec 32) (j : Nat) : (d.setReg k v).port j = d.port j := rfl
@[simp] theorem Dev.host_setReg (d : Dev) (k : Nat) (v : BitVec 32) (j : Nat) : (d.setReg k v).host j = d.host j := rfl
@[simp] theorem Dev.die_setReg (d : Dev) (k : Nat) (v : BitVec 32) (j : Nat) : (d.setReg k v).die j = d.die j := rfl
@[simp] theorem Dev.module_setReg (d : Dev) (k : Nat) (v : BitVec 32) (j l : Nat) : (d.setReg k v).module j l = d.module j l := rfl
@[simp] theorem Dev.stack_setReg (d : Dev) (k : Nat) (v : BitVec 32) (j : Nat) : (d.setReg k v).stack j = d.stack j := rfl
@[simp] theorem Dev.req_setReg (d : Dev) (k : Nat) (v : BitVec 32) (j : Nat) : (d.setReg k v).req j = d.req j := rfl
@[simp] theorem Dev.cairn_setReg (d : Dev) (k : Nat) (v : BitVec 32) (j l : Nat) : (d.setReg k v).cairn j l = d.cairn j l := rfl
@[simp] theorem Dev.diePower_setReg (d : Dev) (k : Nat) (v : BitVec 32) (j : Nat) : (d.setReg k v).diePower j = d.diePower j := rfl
@[simp] theorem Dev.now_setReg (d : Dev) (k : Nat) (v : BitVec 32) : (d.setReg k v).now = d.now := rfl

@[simp] theorem Dev.count_setRegN (d : Dev) (k v : Nat) (j : Nat) : (d.setRegN k v).count j = d.count j := rfl
@[simp] theorem Dev.tile_setRegN (d : Dev) (k v : Nat) (j : Nat) : (d.setRegN k v).tile j = d.tile j := rfl
@[simp] theorem Dev.ctx_setRegN (d : Dev) (k v : Nat) (j : Nat) : (d.setRegN k v).ctx j = d.ctx j := rfl
@[simp] theorem Dev.port_setRegN (d : Dev) (k v : Nat) (j : Nat) : (d.setRegN k v).port j = d.port j := rfl
@[simp] theorem Dev.host_setRegN (d : Dev) (k v : Nat) (j : Nat) : (d.setRegN k v).host j = d.host j := rfl
@[simp] theorem Dev.die_setRegN (d : Dev) (k v : Nat) (j : Nat) : (d.setRegN k v).die j = d.die j := rfl
@[simp] theorem Dev.module_setRegN (d : Dev) (k v : Nat) (j l : Nat) : (d.setRegN k v).module j l = d.module j l := rfl
@[simp] theorem Dev.stack_setRegN (d : Dev) (k v : Nat) (j : Nat) : (d.setRegN k v).stack j = d.stack j := rfl
@[simp] theorem Dev.req_setRegN (d : Dev) (k v : Nat) (j : Nat) : (d.setRegN k v).req j = d.req j := rfl
@[simp] theorem Dev.cairn_setRegN (d : Dev) (k v : Nat) (j l : Nat) : (d.setRegN k v).cairn j l = d.cairn j l := rfl
@[simp] theorem Dev.diePower_setRegN (d : Dev) (k v : Nat) (j : Nat) : (d.setRegN k v).diePower j = d.diePower j := rfl
@[simp] theorem Dev.now_setRegN (d : Dev) (k v : Nat) : (d.setRegN k v).now = d.now := rfl

@[simp] theorem Dev.count_setRf (d : Dev) (k hi lo x : Nat) (j : Nat) : (d.setRf k hi lo x).count j = d.count j := rfl
@[simp] theorem Dev.tile_setRf (d : Dev) (k hi lo x : Nat) (j : Nat) : (d.setRf k hi lo x).tile j = d.tile j := rfl
@[simp] theorem Dev.ctx_setRf (d : Dev) (k hi lo x : Nat) (j : Nat) : (d.setRf k hi lo x).ctx j = d.ctx j := rfl
@[simp] theorem Dev.port_setRf (d : Dev) (k hi lo x : Nat) (j : Nat) : (d.setRf k hi lo x).port j = d.port j := rfl
@[simp] theorem Dev.host_setRf (d : Dev) (k hi lo x : Nat) (j : Nat) : (d.setRf k hi lo x).host j = d.host j := rfl
@[simp] theorem Dev.die_setRf (d : Dev) (k hi lo x : Nat) (j : Nat) : (d.setRf k hi lo x).die j = d.die j := rfl
@[simp] theorem Dev.module_setRf (d : Dev) (k hi lo x : Nat) (j l : Nat) : (d.setRf k hi lo x).module j l = d.module j l := rfl
@[simp] theorem Dev.stack_setRf (d : Dev) (k hi lo x : Nat) (j : Nat) : (d.setRf k hi lo x).stack j = d.stack j := rfl
@[simp] theorem Dev.req_setRf (d : Dev) (k hi lo x : Nat) (j : Nat) : (d.setRf k hi lo x).req j = d.req j := rfl
@[simp] theorem Dev.cairn_setRf (d : Dev) (k hi lo x : Nat) (j l : Nat) : (d.setRf k hi lo x).cairn j l = d.cairn j l := rfl
@[simp] theorem Dev.diePower_setRf (d : Dev) (k hi lo x : Nat) (j : Nat) : (d.setRf k hi lo x).diePower j = d.diePower j := rfl
@[simp] theorem Dev.now_setRf (d : Dev) (k hi lo x : Nat) : (d.setRf k hi lo x).now = d.now := rfl

@[simp] theorem Dev.count_setReg64 (d : Dev) (k v : Nat) (j : Nat) : (d.setReg64 k v).count j = d.count j := rfl
@[simp] theorem Dev.tile_setReg64 (d : Dev) (k v : Nat) (j : Nat) : (d.setReg64 k v).tile j = d.tile j := rfl
@[simp] theorem Dev.ctx_setReg64 (d : Dev) (k v : Nat) (j : Nat) : (d.setReg64 k v).ctx j = d.ctx j := rfl
@[simp] theorem Dev.port_setReg64 (d : Dev) (k v : Nat) (j : Nat) : (d.setReg64 k v).port j = d.port j := rfl
@[simp] theorem Dev.host_setReg64 (d : Dev) (k v : Nat) (j : Nat) : (d.setReg64 k v).host j = d.host j := rfl
@[simp] theorem Dev.die_setReg64 (d : Dev) (k v : Nat) (j : Nat) : (d.setReg64 k v).die j = d.die j := rfl
@[simp] theorem Dev.module_setReg64 (d : Dev) (k v : Nat) (j l : Nat) : (d.setReg64 k v).module j l = d.module j l := rfl
@[simp] theorem Dev.stack_setReg64 (d : Dev) (k v : Nat) (j : Nat) : (d.setReg64 k v).stack j = d.stack j := rfl
@[simp] theorem Dev.req_setReg64 (d : Dev) (k v : Nat) (j : Nat) : (d.setReg64 k v).req j = d.req j := rfl
@[simp] theorem Dev.cairn_setReg64 (d : Dev) (k v : Nat) (j l : Nat) : (d.setReg64 k v).cairn j l = d.cairn j l := rfl
@[simp] theorem Dev.diePower_setReg64 (d : Dev) (k v : Nat) (j : Nat) : (d.setReg64 k v).diePower j = d.diePower j := rfl
@[simp] theorem Dev.now_setReg64 (d : Dev) (k v : Nat) : (d.setReg64 k v).now = d.now := rfl

@[simp] theorem Dev.reg_bumpN (d : Dev) (k n : Nat) (j : Nat) : (d.bumpN k n).reg j = d.reg j := rfl
@[simp] theorem Dev.rf_bumpN (d : Dev) (k n : Nat) (j hj lj : Nat) : (d.bumpN k n).rf j hj lj = d.rf j hj lj := rfl
@[simp] theorem Dev.rb_bumpN (d : Dev) (k n : Nat) (j i_ : Nat) : (d.bumpN k n).rb j i_ = d.rb j i_ := rfl
@[simp] theorem Dev.reg64_bumpN (d : Dev) (k n : Nat) (j : Nat) : (d.bumpN k n).reg64 j = d.reg64 j := rfl
@[simp] theorem Dev.tile_bumpN (d : Dev) (k n : Nat) (j : Nat) : (d.bumpN k n).tile j = d.tile j := rfl
@[simp] theorem Dev.ctx_bumpN (d : Dev) (k n : Nat) (j : Nat) : (d.bumpN k n).ctx j = d.ctx j := rfl
@[simp] theorem Dev.port_bumpN (d : Dev) (k n : Nat) (j : Nat) : (d.bumpN k n).port j = d.port j := rfl
@[simp] theorem Dev.host_bumpN (d : Dev) (k n : Nat) (j : Nat) : (d.bumpN k n).host j = d.host j := rfl
@[simp] theorem Dev.die_bumpN (d : Dev) (k n : Nat) (j : Nat) : (d.bumpN k n).die j = d.die j := rfl
@[simp] theorem Dev.module_bumpN (d : Dev) (k n : Nat) (j l : Nat) : (d.bumpN k n).module j l = d.module j l := rfl
@[simp] theorem Dev.stack_bumpN (d : Dev) (k n : Nat) (j : Nat) : (d.bumpN k n).stack j = d.stack j := rfl
@[simp] theorem Dev.req_bumpN (d : Dev) (k n : Nat) (j : Nat) : (d.bumpN k n).req j = d.req j := rfl
@[simp] theorem Dev.cairn_bumpN (d : Dev) (k n : Nat) (j l : Nat) : (d.bumpN k n).cairn j l = d.cairn j l := rfl
@[simp] theorem Dev.diePower_bumpN (d : Dev) (k n : Nat) (j : Nat) : (d.bumpN k n).diePower j = d.diePower j := rfl
@[simp] theorem Dev.now_bumpN (d : Dev) (k n : Nat) : (d.bumpN k n).now = d.now := rfl

@[simp] theorem Dev.reg_bump (d : Dev) (k : Nat) (j : Nat) : (d.bump k).reg j = d.reg j := rfl
@[simp] theorem Dev.rf_bump (d : Dev) (k : Nat) (j hj lj : Nat) : (d.bump k).rf j hj lj = d.rf j hj lj := rfl
@[simp] theorem Dev.rb_bump (d : Dev) (k : Nat) (j i_ : Nat) : (d.bump k).rb j i_ = d.rb j i_ := rfl
@[simp] theorem Dev.reg64_bump (d : Dev) (k : Nat) (j : Nat) : (d.bump k).reg64 j = d.reg64 j := rfl
@[simp] theorem Dev.tile_bump (d : Dev) (k : Nat) (j : Nat) : (d.bump k).tile j = d.tile j := rfl
@[simp] theorem Dev.ctx_bump (d : Dev) (k : Nat) (j : Nat) : (d.bump k).ctx j = d.ctx j := rfl
@[simp] theorem Dev.port_bump (d : Dev) (k : Nat) (j : Nat) : (d.bump k).port j = d.port j := rfl
@[simp] theorem Dev.host_bump (d : Dev) (k : Nat) (j : Nat) : (d.bump k).host j = d.host j := rfl
@[simp] theorem Dev.die_bump (d : Dev) (k : Nat) (j : Nat) : (d.bump k).die j = d.die j := rfl
@[simp] theorem Dev.module_bump (d : Dev) (k : Nat) (j l : Nat) : (d.bump k).module j l = d.module j l := rfl
@[simp] theorem Dev.stack_bump (d : Dev) (k : Nat) (j : Nat) : (d.bump k).stack j = d.stack j := rfl
@[simp] theorem Dev.req_bump (d : Dev) (k : Nat) (j : Nat) : (d.bump k).req j = d.req j := rfl
@[simp] theorem Dev.cairn_bump (d : Dev) (k : Nat) (j l : Nat) : (d.bump k).cairn j l = d.cairn j l := rfl
@[simp] theorem Dev.diePower_bump (d : Dev) (k : Nat) (j : Nat) : (d.bump k).diePower j = d.diePower j := rfl
@[simp] theorem Dev.now_bump (d : Dev) (k : Nat) : (d.bump k).now = d.now := rfl

@[simp] theorem Dev.reg_setTile (d : Dev) (t : Nat) (x : Tile) (j : Nat) : (d.setTile t x).reg j = d.reg j := rfl
@[simp] theorem Dev.rf_setTile (d : Dev) (t : Nat) (x : Tile) (j hj lj : Nat) : (d.setTile t x).rf j hj lj = d.rf j hj lj := rfl
@[simp] theorem Dev.rb_setTile (d : Dev) (t : Nat) (x : Tile) (j i_ : Nat) : (d.setTile t x).rb j i_ = d.rb j i_ := rfl
@[simp] theorem Dev.reg64_setTile (d : Dev) (t : Nat) (x : Tile) (j : Nat) : (d.setTile t x).reg64 j = d.reg64 j := rfl
@[simp] theorem Dev.count_setTile (d : Dev) (t : Nat) (x : Tile) (j : Nat) : (d.setTile t x).count j = d.count j := rfl
@[simp] theorem Dev.ctx_setTile (d : Dev) (t : Nat) (x : Tile) (j : Nat) : (d.setTile t x).ctx j = d.ctx j := rfl
@[simp] theorem Dev.port_setTile (d : Dev) (t : Nat) (x : Tile) (j : Nat) : (d.setTile t x).port j = d.port j := rfl
@[simp] theorem Dev.host_setTile (d : Dev) (t : Nat) (x : Tile) (j : Nat) : (d.setTile t x).host j = d.host j := rfl
@[simp] theorem Dev.die_setTile (d : Dev) (t : Nat) (x : Tile) (j : Nat) : (d.setTile t x).die j = d.die j := rfl
@[simp] theorem Dev.module_setTile (d : Dev) (t : Nat) (x : Tile) (j l : Nat) : (d.setTile t x).module j l = d.module j l := rfl
@[simp] theorem Dev.stack_setTile (d : Dev) (t : Nat) (x : Tile) (j : Nat) : (d.setTile t x).stack j = d.stack j := rfl
@[simp] theorem Dev.req_setTile (d : Dev) (t : Nat) (x : Tile) (j : Nat) : (d.setTile t x).req j = d.req j := rfl
@[simp] theorem Dev.cairn_setTile (d : Dev) (t : Nat) (x : Tile) (j l : Nat) : (d.setTile t x).cairn j l = d.cairn j l := rfl
@[simp] theorem Dev.diePower_setTile (d : Dev) (t : Nat) (x : Tile) (j : Nat) : (d.setTile t x).diePower j = d.diePower j := rfl
@[simp] theorem Dev.now_setTile (d : Dev) (t : Nat) (x : Tile) : (d.setTile t x).now = d.now := rfl

@[simp] theorem Dev.reg_setCtx (d : Dev) (c : Nat) (x : Ctx) (j : Nat) : (d.setCtx c x).reg j = d.reg j := rfl
@[simp] theorem Dev.rf_setCtx (d : Dev) (c : Nat) (x : Ctx) (j hj lj : Nat) : (d.setCtx c x).rf j hj lj = d.rf j hj lj := rfl
@[simp] theorem Dev.rb_setCtx (d : Dev) (c : Nat) (x : Ctx) (j i_ : Nat) : (d.setCtx c x).rb j i_ = d.rb j i_ := rfl
@[simp] theorem Dev.reg64_setCtx (d : Dev) (c : Nat) (x : Ctx) (j : Nat) : (d.setCtx c x).reg64 j = d.reg64 j := rfl
@[simp] theorem Dev.count_setCtx (d : Dev) (c : Nat) (x : Ctx) (j : Nat) : (d.setCtx c x).count j = d.count j := rfl
@[simp] theorem Dev.tile_setCtx (d : Dev) (c : Nat) (x : Ctx) (j : Nat) : (d.setCtx c x).tile j = d.tile j := rfl
@[simp] theorem Dev.port_setCtx (d : Dev) (c : Nat) (x : Ctx) (j : Nat) : (d.setCtx c x).port j = d.port j := rfl
@[simp] theorem Dev.host_setCtx (d : Dev) (c : Nat) (x : Ctx) (j : Nat) : (d.setCtx c x).host j = d.host j := rfl
@[simp] theorem Dev.die_setCtx (d : Dev) (c : Nat) (x : Ctx) (j : Nat) : (d.setCtx c x).die j = d.die j := rfl
@[simp] theorem Dev.module_setCtx (d : Dev) (c : Nat) (x : Ctx) (j l : Nat) : (d.setCtx c x).module j l = d.module j l := rfl
@[simp] theorem Dev.stack_setCtx (d : Dev) (c : Nat) (x : Ctx) (j : Nat) : (d.setCtx c x).stack j = d.stack j := rfl
@[simp] theorem Dev.req_setCtx (d : Dev) (c : Nat) (x : Ctx) (j : Nat) : (d.setCtx c x).req j = d.req j := rfl
@[simp] theorem Dev.cairn_setCtx (d : Dev) (c : Nat) (x : Ctx) (j l : Nat) : (d.setCtx c x).cairn j l = d.cairn j l := rfl
@[simp] theorem Dev.diePower_setCtx (d : Dev) (c : Nat) (x : Ctx) (j : Nat) : (d.setCtx c x).diePower j = d.diePower j := rfl
@[simp] theorem Dev.now_setCtx (d : Dev) (c : Nat) (x : Ctx) : (d.setCtx c x).now = d.now := rfl

@[simp] theorem Dev.reg_setDie (d : Dev) (i : Nat) (x : Die) (j : Nat) : (d.setDie i x).reg j = d.reg j := rfl
@[simp] theorem Dev.rf_setDie (d : Dev) (i : Nat) (x : Die) (j hj lj : Nat) : (d.setDie i x).rf j hj lj = d.rf j hj lj := rfl
@[simp] theorem Dev.rb_setDie (d : Dev) (i : Nat) (x : Die) (j i_ : Nat) : (d.setDie i x).rb j i_ = d.rb j i_ := rfl
@[simp] theorem Dev.reg64_setDie (d : Dev) (i : Nat) (x : Die) (j : Nat) : (d.setDie i x).reg64 j = d.reg64 j := rfl
@[simp] theorem Dev.count_setDie (d : Dev) (i : Nat) (x : Die) (j : Nat) : (d.setDie i x).count j = d.count j := rfl
@[simp] theorem Dev.tile_setDie (d : Dev) (i : Nat) (x : Die) (j : Nat) : (d.setDie i x).tile j = d.tile j := rfl
@[simp] theorem Dev.ctx_setDie (d : Dev) (i : Nat) (x : Die) (j : Nat) : (d.setDie i x).ctx j = d.ctx j := rfl
@[simp] theorem Dev.port_setDie (d : Dev) (i : Nat) (x : Die) (j : Nat) : (d.setDie i x).port j = d.port j := rfl
@[simp] theorem Dev.host_setDie (d : Dev) (i : Nat) (x : Die) (j : Nat) : (d.setDie i x).host j = d.host j := rfl
@[simp] theorem Dev.module_setDie (d : Dev) (i : Nat) (x : Die) (j l : Nat) : (d.setDie i x).module j l = d.module j l := rfl
@[simp] theorem Dev.stack_setDie (d : Dev) (i : Nat) (x : Die) (j : Nat) : (d.setDie i x).stack j = d.stack j := rfl
@[simp] theorem Dev.req_setDie (d : Dev) (i : Nat) (x : Die) (j : Nat) : (d.setDie i x).req j = d.req j := rfl
@[simp] theorem Dev.cairn_setDie (d : Dev) (i : Nat) (x : Die) (j l : Nat) : (d.setDie i x).cairn j l = d.cairn j l := rfl
@[simp] theorem Dev.diePower_setDie (d : Dev) (i : Nat) (x : Die) (j : Nat) : (d.setDie i x).diePower j = d.diePower j := rfl
@[simp] theorem Dev.now_setDie (d : Dev) (i : Nat) (x : Die) : (d.setDie i x).now = d.now := rfl

@[simp] theorem Dev.reg_setModule (d : Dev) (n i : Nat) (x : D2dModule) (j : Nat) : (d.setModule n i x).reg j = d.reg j := rfl
@[simp] theorem Dev.rf_setModule (d : Dev) (n i : Nat) (x : D2dModule) (j hj lj : Nat) : (d.setModule n i x).rf j hj lj = d.rf j hj lj := rfl
@[simp] theorem Dev.rb_setModule (d : Dev) (n i : Nat) (x : D2dModule) (j i_ : Nat) : (d.setModule n i x).rb j i_ = d.rb j i_ := rfl
@[simp] theorem Dev.reg64_setModule (d : Dev) (n i : Nat) (x : D2dModule) (j : Nat) : (d.setModule n i x).reg64 j = d.reg64 j := rfl
@[simp] theorem Dev.count_setModule (d : Dev) (n i : Nat) (x : D2dModule) (j : Nat) : (d.setModule n i x).count j = d.count j := rfl
@[simp] theorem Dev.tile_setModule (d : Dev) (n i : Nat) (x : D2dModule) (j : Nat) : (d.setModule n i x).tile j = d.tile j := rfl
@[simp] theorem Dev.ctx_setModule (d : Dev) (n i : Nat) (x : D2dModule) (j : Nat) : (d.setModule n i x).ctx j = d.ctx j := rfl
@[simp] theorem Dev.port_setModule (d : Dev) (n i : Nat) (x : D2dModule) (j : Nat) : (d.setModule n i x).port j = d.port j := rfl
@[simp] theorem Dev.host_setModule (d : Dev) (n i : Nat) (x : D2dModule) (j : Nat) : (d.setModule n i x).host j = d.host j := rfl
@[simp] theorem Dev.die_setModule (d : Dev) (n i : Nat) (x : D2dModule) (j : Nat) : (d.setModule n i x).die j = d.die j := rfl
@[simp] theorem Dev.stack_setModule (d : Dev) (n i : Nat) (x : D2dModule) (j : Nat) : (d.setModule n i x).stack j = d.stack j := rfl
@[simp] theorem Dev.req_setModule (d : Dev) (n i : Nat) (x : D2dModule) (j : Nat) : (d.setModule n i x).req j = d.req j := rfl
@[simp] theorem Dev.cairn_setModule (d : Dev) (n i : Nat) (x : D2dModule) (j l : Nat) : (d.setModule n i x).cairn j l = d.cairn j l := rfl
@[simp] theorem Dev.diePower_setModule (d : Dev) (n i : Nat) (x : D2dModule) (j : Nat) : (d.setModule n i x).diePower j = d.diePower j := rfl
@[simp] theorem Dev.now_setModule (d : Dev) (n i : Nat) (x : D2dModule) : (d.setModule n i x).now = d.now := rfl

@[simp] theorem Dev.reg_setPort (d : Dev) (p : Nat) (x : FabPort) (j : Nat) : (d.setPort p x).reg j = d.reg j := rfl
@[simp] theorem Dev.rf_setPort (d : Dev) (p : Nat) (x : FabPort) (j hj lj : Nat) : (d.setPort p x).rf j hj lj = d.rf j hj lj := rfl
@[simp] theorem Dev.rb_setPort (d : Dev) (p : Nat) (x : FabPort) (j i_ : Nat) : (d.setPort p x).rb j i_ = d.rb j i_ := rfl
@[simp] theorem Dev.reg64_setPort (d : Dev) (p : Nat) (x : FabPort) (j : Nat) : (d.setPort p x).reg64 j = d.reg64 j := rfl
@[simp] theorem Dev.count_setPort (d : Dev) (p : Nat) (x : FabPort) (j : Nat) : (d.setPort p x).count j = d.count j := rfl
@[simp] theorem Dev.tile_setPort (d : Dev) (p : Nat) (x : FabPort) (j : Nat) : (d.setPort p x).tile j = d.tile j := rfl
@[simp] theorem Dev.ctx_setPort (d : Dev) (p : Nat) (x : FabPort) (j : Nat) : (d.setPort p x).ctx j = d.ctx j := rfl
@[simp] theorem Dev.host_setPort (d : Dev) (p : Nat) (x : FabPort) (j : Nat) : (d.setPort p x).host j = d.host j := rfl
@[simp] theorem Dev.die_setPort (d : Dev) (p : Nat) (x : FabPort) (j : Nat) : (d.setPort p x).die j = d.die j := rfl
@[simp] theorem Dev.module_setPort (d : Dev) (p : Nat) (x : FabPort) (j l : Nat) : (d.setPort p x).module j l = d.module j l := rfl
@[simp] theorem Dev.stack_setPort (d : Dev) (p : Nat) (x : FabPort) (j : Nat) : (d.setPort p x).stack j = d.stack j := rfl
@[simp] theorem Dev.req_setPort (d : Dev) (p : Nat) (x : FabPort) (j : Nat) : (d.setPort p x).req j = d.req j := rfl
@[simp] theorem Dev.cairn_setPort (d : Dev) (p : Nat) (x : FabPort) (j l : Nat) : (d.setPort p x).cairn j l = d.cairn j l := rfl
@[simp] theorem Dev.diePower_setPort (d : Dev) (p : Nat) (x : FabPort) (j : Nat) : (d.setPort p x).diePower j = d.diePower j := rfl
@[simp] theorem Dev.now_setPort (d : Dev) (p : Nat) (x : FabPort) : (d.setPort p x).now = d.now := rfl

@[simp] theorem Dev.reg_setHost (d : Dev) (p : Nat) (x : HostPort) (j : Nat) : (d.setHost p x).reg j = d.reg j := rfl
@[simp] theorem Dev.rf_setHost (d : Dev) (p : Nat) (x : HostPort) (j hj lj : Nat) : (d.setHost p x).rf j hj lj = d.rf j hj lj := rfl
@[simp] theorem Dev.rb_setHost (d : Dev) (p : Nat) (x : HostPort) (j i_ : Nat) : (d.setHost p x).rb j i_ = d.rb j i_ := rfl
@[simp] theorem Dev.reg64_setHost (d : Dev) (p : Nat) (x : HostPort) (j : Nat) : (d.setHost p x).reg64 j = d.reg64 j := rfl
@[simp] theorem Dev.count_setHost (d : Dev) (p : Nat) (x : HostPort) (j : Nat) : (d.setHost p x).count j = d.count j := rfl
@[simp] theorem Dev.tile_setHost (d : Dev) (p : Nat) (x : HostPort) (j : Nat) : (d.setHost p x).tile j = d.tile j := rfl
@[simp] theorem Dev.ctx_setHost (d : Dev) (p : Nat) (x : HostPort) (j : Nat) : (d.setHost p x).ctx j = d.ctx j := rfl
@[simp] theorem Dev.port_setHost (d : Dev) (p : Nat) (x : HostPort) (j : Nat) : (d.setHost p x).port j = d.port j := rfl
@[simp] theorem Dev.die_setHost (d : Dev) (p : Nat) (x : HostPort) (j : Nat) : (d.setHost p x).die j = d.die j := rfl
@[simp] theorem Dev.module_setHost (d : Dev) (p : Nat) (x : HostPort) (j l : Nat) : (d.setHost p x).module j l = d.module j l := rfl
@[simp] theorem Dev.stack_setHost (d : Dev) (p : Nat) (x : HostPort) (j : Nat) : (d.setHost p x).stack j = d.stack j := rfl
@[simp] theorem Dev.req_setHost (d : Dev) (p : Nat) (x : HostPort) (j : Nat) : (d.setHost p x).req j = d.req j := rfl
@[simp] theorem Dev.cairn_setHost (d : Dev) (p : Nat) (x : HostPort) (j l : Nat) : (d.setHost p x).cairn j l = d.cairn j l := rfl
@[simp] theorem Dev.diePower_setHost (d : Dev) (p : Nat) (x : HostPort) (j : Nat) : (d.setHost p x).diePower j = d.diePower j := rfl
@[simp] theorem Dev.now_setHost (d : Dev) (p : Nat) (x : HostPort) : (d.setHost p x).now = d.now := rfl

@[simp] theorem Dev.reg_setCairn (d : Dev) (c n : Nat) (x : Cairn) (j : Nat) : (d.setCairn c n x).reg j = d.reg j := rfl
@[simp] theorem Dev.rf_setCairn (d : Dev) (c n : Nat) (x : Cairn) (j hj lj : Nat) : (d.setCairn c n x).rf j hj lj = d.rf j hj lj := rfl
@[simp] theorem Dev.rb_setCairn (d : Dev) (c n : Nat) (x : Cairn) (j i_ : Nat) : (d.setCairn c n x).rb j i_ = d.rb j i_ := rfl
@[simp] theorem Dev.reg64_setCairn (d : Dev) (c n : Nat) (x : Cairn) (j : Nat) : (d.setCairn c n x).reg64 j = d.reg64 j := rfl
@[simp] theorem Dev.count_setCairn (d : Dev) (c n : Nat) (x : Cairn) (j : Nat) : (d.setCairn c n x).count j = d.count j := rfl
@[simp] theorem Dev.tile_setCairn (d : Dev) (c n : Nat) (x : Cairn) (j : Nat) : (d.setCairn c n x).tile j = d.tile j := rfl
@[simp] theorem Dev.ctx_setCairn (d : Dev) (c n : Nat) (x : Cairn) (j : Nat) : (d.setCairn c n x).ctx j = d.ctx j := rfl
@[simp] theorem Dev.port_setCairn (d : Dev) (c n : Nat) (x : Cairn) (j : Nat) : (d.setCairn c n x).port j = d.port j := rfl
@[simp] theorem Dev.host_setCairn (d : Dev) (c n : Nat) (x : Cairn) (j : Nat) : (d.setCairn c n x).host j = d.host j := rfl
@[simp] theorem Dev.die_setCairn (d : Dev) (c n : Nat) (x : Cairn) (j : Nat) : (d.setCairn c n x).die j = d.die j := rfl
@[simp] theorem Dev.module_setCairn (d : Dev) (c n : Nat) (x : Cairn) (j l : Nat) : (d.setCairn c n x).module j l = d.module j l := rfl
@[simp] theorem Dev.stack_setCairn (d : Dev) (c n : Nat) (x : Cairn) (j : Nat) : (d.setCairn c n x).stack j = d.stack j := rfl
@[simp] theorem Dev.req_setCairn (d : Dev) (c n : Nat) (x : Cairn) (j : Nat) : (d.setCairn c n x).req j = d.req j := rfl
@[simp] theorem Dev.diePower_setCairn (d : Dev) (c n : Nat) (x : Cairn) (j : Nat) : (d.setCairn c n x).diePower j = d.diePower j := rfl
@[simp] theorem Dev.now_setCairn (d : Dev) (c n : Nat) (x : Cairn) : (d.setCairn c n x).now = d.now := rfl

@[simp] theorem Dev.reg_setReq (d : Dev) (i : Nat) (x : ReqState) (j : Nat) : (d.setReq i x).reg j = d.reg j := rfl
@[simp] theorem Dev.rf_setReq (d : Dev) (i : Nat) (x : ReqState) (j hj lj : Nat) : (d.setReq i x).rf j hj lj = d.rf j hj lj := rfl
@[simp] theorem Dev.rb_setReq (d : Dev) (i : Nat) (x : ReqState) (j i_ : Nat) : (d.setReq i x).rb j i_ = d.rb j i_ := rfl
@[simp] theorem Dev.reg64_setReq (d : Dev) (i : Nat) (x : ReqState) (j : Nat) : (d.setReq i x).reg64 j = d.reg64 j := rfl
@[simp] theorem Dev.count_setReq (d : Dev) (i : Nat) (x : ReqState) (j : Nat) : (d.setReq i x).count j = d.count j := rfl
@[simp] theorem Dev.tile_setReq (d : Dev) (i : Nat) (x : ReqState) (j : Nat) : (d.setReq i x).tile j = d.tile j := rfl
@[simp] theorem Dev.ctx_setReq (d : Dev) (i : Nat) (x : ReqState) (j : Nat) : (d.setReq i x).ctx j = d.ctx j := rfl
@[simp] theorem Dev.port_setReq (d : Dev) (i : Nat) (x : ReqState) (j : Nat) : (d.setReq i x).port j = d.port j := rfl
@[simp] theorem Dev.host_setReq (d : Dev) (i : Nat) (x : ReqState) (j : Nat) : (d.setReq i x).host j = d.host j := rfl
@[simp] theorem Dev.die_setReq (d : Dev) (i : Nat) (x : ReqState) (j : Nat) : (d.setReq i x).die j = d.die j := rfl
@[simp] theorem Dev.module_setReq (d : Dev) (i : Nat) (x : ReqState) (j l : Nat) : (d.setReq i x).module j l = d.module j l := rfl
@[simp] theorem Dev.stack_setReq (d : Dev) (i : Nat) (x : ReqState) (j : Nat) : (d.setReq i x).stack j = d.stack j := rfl
@[simp] theorem Dev.cairn_setReq (d : Dev) (i : Nat) (x : ReqState) (j l : Nat) : (d.setReq i x).cairn j l = d.cairn j l := rfl
@[simp] theorem Dev.diePower_setReq (d : Dev) (i : Nat) (x : ReqState) (j : Nat) : (d.setReq i x).diePower j = d.diePower j := rfl
@[simp] theorem Dev.now_setReq (d : Dev) (i : Nat) (x : ReqState) : (d.setReq i x).now = d.now := rfl

@[simp] theorem Dev.reg_setStack (d : Dev) (i : Nat) (x : Stack) (j : Nat) : (d.setStack i x).reg j = d.reg j := rfl
@[simp] theorem Dev.rf_setStack (d : Dev) (i : Nat) (x : Stack) (j hj lj : Nat) : (d.setStack i x).rf j hj lj = d.rf j hj lj := rfl
@[simp] theorem Dev.rb_setStack (d : Dev) (i : Nat) (x : Stack) (j i_ : Nat) : (d.setStack i x).rb j i_ = d.rb j i_ := rfl
@[simp] theorem Dev.reg64_setStack (d : Dev) (i : Nat) (x : Stack) (j : Nat) : (d.setStack i x).reg64 j = d.reg64 j := rfl
@[simp] theorem Dev.count_setStack (d : Dev) (i : Nat) (x : Stack) (j : Nat) : (d.setStack i x).count j = d.count j := rfl
@[simp] theorem Dev.tile_setStack (d : Dev) (i : Nat) (x : Stack) (j : Nat) : (d.setStack i x).tile j = d.tile j := rfl
@[simp] theorem Dev.ctx_setStack (d : Dev) (i : Nat) (x : Stack) (j : Nat) : (d.setStack i x).ctx j = d.ctx j := rfl
@[simp] theorem Dev.port_setStack (d : Dev) (i : Nat) (x : Stack) (j : Nat) : (d.setStack i x).port j = d.port j := rfl
@[simp] theorem Dev.host_setStack (d : Dev) (i : Nat) (x : Stack) (j : Nat) : (d.setStack i x).host j = d.host j := rfl
@[simp] theorem Dev.die_setStack (d : Dev) (i : Nat) (x : Stack) (j : Nat) : (d.setStack i x).die j = d.die j := rfl
@[simp] theorem Dev.module_setStack (d : Dev) (i : Nat) (x : Stack) (j l : Nat) : (d.setStack i x).module j l = d.module j l := rfl
@[simp] theorem Dev.req_setStack (d : Dev) (i : Nat) (x : Stack) (j : Nat) : (d.setStack i x).req j = d.req j := rfl
@[simp] theorem Dev.cairn_setStack (d : Dev) (i : Nat) (x : Stack) (j l : Nat) : (d.setStack i x).cairn j l = d.cairn j l := rfl
@[simp] theorem Dev.diePower_setStack (d : Dev) (i : Nat) (x : Stack) (j : Nat) : (d.setStack i x).diePower j = d.diePower j := rfl
@[simp] theorem Dev.now_setStack (d : Dev) (i : Nat) (x : Stack) : (d.setStack i x).now = d.now := rfl

@[simp] theorem Dev.reg_setDiePower (d : Dev) (i : Nat) (x : DiePower) (j : Nat) : (d.setDiePower i x).reg j = d.reg j := rfl
@[simp] theorem Dev.rf_setDiePower (d : Dev) (i : Nat) (x : DiePower) (j hj lj : Nat) : (d.setDiePower i x).rf j hj lj = d.rf j hj lj := rfl
@[simp] theorem Dev.rb_setDiePower (d : Dev) (i : Nat) (x : DiePower) (j i_ : Nat) : (d.setDiePower i x).rb j i_ = d.rb j i_ := rfl
@[simp] theorem Dev.reg64_setDiePower (d : Dev) (i : Nat) (x : DiePower) (j : Nat) : (d.setDiePower i x).reg64 j = d.reg64 j := rfl
@[simp] theorem Dev.count_setDiePower (d : Dev) (i : Nat) (x : DiePower) (j : Nat) : (d.setDiePower i x).count j = d.count j := rfl
@[simp] theorem Dev.tile_setDiePower (d : Dev) (i : Nat) (x : DiePower) (j : Nat) : (d.setDiePower i x).tile j = d.tile j := rfl
@[simp] theorem Dev.ctx_setDiePower (d : Dev) (i : Nat) (x : DiePower) (j : Nat) : (d.setDiePower i x).ctx j = d.ctx j := rfl
@[simp] theorem Dev.port_setDiePower (d : Dev) (i : Nat) (x : DiePower) (j : Nat) : (d.setDiePower i x).port j = d.port j := rfl
@[simp] theorem Dev.host_setDiePower (d : Dev) (i : Nat) (x : DiePower) (j : Nat) : (d.setDiePower i x).host j = d.host j := rfl
@[simp] theorem Dev.die_setDiePower (d : Dev) (i : Nat) (x : DiePower) (j : Nat) : (d.setDiePower i x).die j = d.die j := rfl
@[simp] theorem Dev.module_setDiePower (d : Dev) (i : Nat) (x : DiePower) (j l : Nat) : (d.setDiePower i x).module j l = d.module j l := rfl
@[simp] theorem Dev.stack_setDiePower (d : Dev) (i : Nat) (x : DiePower) (j : Nat) : (d.setDiePower i x).stack j = d.stack j := rfl
@[simp] theorem Dev.req_setDiePower (d : Dev) (i : Nat) (x : DiePower) (j : Nat) : (d.setDiePower i x).req j = d.req j := rfl
@[simp] theorem Dev.cairn_setDiePower (d : Dev) (i : Nat) (x : DiePower) (j l : Nat) : (d.setDiePower i x).cairn j l = d.cairn j l := rfl
@[simp] theorem Dev.now_setDiePower (d : Dev) (i : Nat) (x : DiePower) : (d.setDiePower i x).now = d.now := rfl

@[simp] theorem Dev.reg_poke (d : Dev) (a : Nat) (b : Byte) (j : Nat) : (d.poke a b).reg j = d.reg j := rfl
@[simp] theorem Dev.rf_poke (d : Dev) (a : Nat) (b : Byte) (j hj lj : Nat) : (d.poke a b).rf j hj lj = d.rf j hj lj := rfl
@[simp] theorem Dev.rb_poke (d : Dev) (a : Nat) (b : Byte) (j i_ : Nat) : (d.poke a b).rb j i_ = d.rb j i_ := rfl
@[simp] theorem Dev.reg64_poke (d : Dev) (a : Nat) (b : Byte) (j : Nat) : (d.poke a b).reg64 j = d.reg64 j := rfl
@[simp] theorem Dev.count_poke (d : Dev) (a : Nat) (b : Byte) (j : Nat) : (d.poke a b).count j = d.count j := rfl
@[simp] theorem Dev.tile_poke (d : Dev) (a : Nat) (b : Byte) (j : Nat) : (d.poke a b).tile j = d.tile j := rfl
@[simp] theorem Dev.ctx_poke (d : Dev) (a : Nat) (b : Byte) (j : Nat) : (d.poke a b).ctx j = d.ctx j := rfl
@[simp] theorem Dev.port_poke (d : Dev) (a : Nat) (b : Byte) (j : Nat) : (d.poke a b).port j = d.port j := rfl
@[simp] theorem Dev.host_poke (d : Dev) (a : Nat) (b : Byte) (j : Nat) : (d.poke a b).host j = d.host j := rfl
@[simp] theorem Dev.die_poke (d : Dev) (a : Nat) (b : Byte) (j : Nat) : (d.poke a b).die j = d.die j := rfl
@[simp] theorem Dev.module_poke (d : Dev) (a : Nat) (b : Byte) (j l : Nat) : (d.poke a b).module j l = d.module j l := rfl
@[simp] theorem Dev.stack_poke (d : Dev) (a : Nat) (b : Byte) (j : Nat) : (d.poke a b).stack j = d.stack j := rfl
@[simp] theorem Dev.req_poke (d : Dev) (a : Nat) (b : Byte) (j : Nat) : (d.poke a b).req j = d.req j := rfl
@[simp] theorem Dev.cairn_poke (d : Dev) (a : Nat) (b : Byte) (j l : Nat) : (d.poke a b).cairn j l = d.cairn j l := rfl
@[simp] theorem Dev.diePower_poke (d : Dev) (a : Nat) (b : Byte) (j : Nat) : (d.poke a b).diePower j = d.diePower j := rfl
@[simp] theorem Dev.now_poke (d : Dev) (a : Nat) (b : Byte) : (d.poke a b).now = d.now := rfl

@[simp] theorem Dev.reg_pokeN (d : Dev) (a : Nat) (bs : List Byte) (j : Nat) : (d.pokeN a bs).reg j = d.reg j := rfl
@[simp] theorem Dev.rf_pokeN (d : Dev) (a : Nat) (bs : List Byte) (j hj lj : Nat) : (d.pokeN a bs).rf j hj lj = d.rf j hj lj := rfl
@[simp] theorem Dev.rb_pokeN (d : Dev) (a : Nat) (bs : List Byte) (j i_ : Nat) : (d.pokeN a bs).rb j i_ = d.rb j i_ := rfl
@[simp] theorem Dev.reg64_pokeN (d : Dev) (a : Nat) (bs : List Byte) (j : Nat) : (d.pokeN a bs).reg64 j = d.reg64 j := rfl
@[simp] theorem Dev.count_pokeN (d : Dev) (a : Nat) (bs : List Byte) (j : Nat) : (d.pokeN a bs).count j = d.count j := rfl
@[simp] theorem Dev.tile_pokeN (d : Dev) (a : Nat) (bs : List Byte) (j : Nat) : (d.pokeN a bs).tile j = d.tile j := rfl
@[simp] theorem Dev.ctx_pokeN (d : Dev) (a : Nat) (bs : List Byte) (j : Nat) : (d.pokeN a bs).ctx j = d.ctx j := rfl
@[simp] theorem Dev.port_pokeN (d : Dev) (a : Nat) (bs : List Byte) (j : Nat) : (d.pokeN a bs).port j = d.port j := rfl
@[simp] theorem Dev.host_pokeN (d : Dev) (a : Nat) (bs : List Byte) (j : Nat) : (d.pokeN a bs).host j = d.host j := rfl
@[simp] theorem Dev.die_pokeN (d : Dev) (a : Nat) (bs : List Byte) (j : Nat) : (d.pokeN a bs).die j = d.die j := rfl
@[simp] theorem Dev.module_pokeN (d : Dev) (a : Nat) (bs : List Byte) (j l : Nat) : (d.pokeN a bs).module j l = d.module j l := rfl
@[simp] theorem Dev.stack_pokeN (d : Dev) (a : Nat) (bs : List Byte) (j : Nat) : (d.pokeN a bs).stack j = d.stack j := rfl
@[simp] theorem Dev.req_pokeN (d : Dev) (a : Nat) (bs : List Byte) (j : Nat) : (d.pokeN a bs).req j = d.req j := rfl
@[simp] theorem Dev.cairn_pokeN (d : Dev) (a : Nat) (bs : List Byte) (j l : Nat) : (d.pokeN a bs).cairn j l = d.cairn j l := rfl
@[simp] theorem Dev.diePower_pokeN (d : Dev) (a : Nat) (bs : List Byte) (j : Nat) : (d.pokeN a bs).diePower j = d.diePower j := rfl
@[simp] theorem Dev.now_pokeN (d : Dev) (a : Nat) (bs : List Byte) : (d.pokeN a bs).now = d.now := rfl

@[simp] theorem Dev.reg_pokeLE (d : Dev) (a n v : Nat) (j : Nat) : (d.pokeLE a n v).reg j = d.reg j := rfl
@[simp] theorem Dev.rf_pokeLE (d : Dev) (a n v : Nat) (j hj lj : Nat) : (d.pokeLE a n v).rf j hj lj = d.rf j hj lj := rfl
@[simp] theorem Dev.rb_pokeLE (d : Dev) (a n v : Nat) (j i_ : Nat) : (d.pokeLE a n v).rb j i_ = d.rb j i_ := rfl
@[simp] theorem Dev.reg64_pokeLE (d : Dev) (a n v : Nat) (j : Nat) : (d.pokeLE a n v).reg64 j = d.reg64 j := rfl
@[simp] theorem Dev.count_pokeLE (d : Dev) (a n v : Nat) (j : Nat) : (d.pokeLE a n v).count j = d.count j := rfl
@[simp] theorem Dev.tile_pokeLE (d : Dev) (a n v : Nat) (j : Nat) : (d.pokeLE a n v).tile j = d.tile j := rfl
@[simp] theorem Dev.ctx_pokeLE (d : Dev) (a n v : Nat) (j : Nat) : (d.pokeLE a n v).ctx j = d.ctx j := rfl
@[simp] theorem Dev.port_pokeLE (d : Dev) (a n v : Nat) (j : Nat) : (d.pokeLE a n v).port j = d.port j := rfl
@[simp] theorem Dev.host_pokeLE (d : Dev) (a n v : Nat) (j : Nat) : (d.pokeLE a n v).host j = d.host j := rfl
@[simp] theorem Dev.die_pokeLE (d : Dev) (a n v : Nat) (j : Nat) : (d.pokeLE a n v).die j = d.die j := rfl
@[simp] theorem Dev.module_pokeLE (d : Dev) (a n v : Nat) (j l : Nat) : (d.pokeLE a n v).module j l = d.module j l := rfl
@[simp] theorem Dev.stack_pokeLE (d : Dev) (a n v : Nat) (j : Nat) : (d.pokeLE a n v).stack j = d.stack j := rfl
@[simp] theorem Dev.req_pokeLE (d : Dev) (a n v : Nat) (j : Nat) : (d.pokeLE a n v).req j = d.req j := rfl
@[simp] theorem Dev.cairn_pokeLE (d : Dev) (a n v : Nat) (j l : Nat) : (d.pokeLE a n v).cairn j l = d.cairn j l := rfl
@[simp] theorem Dev.diePower_pokeLE (d : Dev) (a n v : Nat) (j : Nat) : (d.pokeLE a n v).diePower j = d.diePower j := rfl
@[simp] theorem Dev.now_pokeLE (d : Dev) (a n v : Nat) : (d.pokeLE a n v).now = d.now := rfl

@[simp] theorem Dev.reg_wipe (d : Dev) (a n : Nat) (j : Nat) : (d.wipe a n).reg j = d.reg j := rfl
@[simp] theorem Dev.rf_wipe (d : Dev) (a n : Nat) (j hj lj : Nat) : (d.wipe a n).rf j hj lj = d.rf j hj lj := rfl
@[simp] theorem Dev.rb_wipe (d : Dev) (a n : Nat) (j i_ : Nat) : (d.wipe a n).rb j i_ = d.rb j i_ := rfl
@[simp] theorem Dev.reg64_wipe (d : Dev) (a n : Nat) (j : Nat) : (d.wipe a n).reg64 j = d.reg64 j := rfl
@[simp] theorem Dev.count_wipe (d : Dev) (a n : Nat) (j : Nat) : (d.wipe a n).count j = d.count j := rfl
@[simp] theorem Dev.tile_wipe (d : Dev) (a n : Nat) (j : Nat) : (d.wipe a n).tile j = d.tile j := rfl
@[simp] theorem Dev.ctx_wipe (d : Dev) (a n : Nat) (j : Nat) : (d.wipe a n).ctx j = d.ctx j := rfl
@[simp] theorem Dev.port_wipe (d : Dev) (a n : Nat) (j : Nat) : (d.wipe a n).port j = d.port j := rfl
@[simp] theorem Dev.host_wipe (d : Dev) (a n : Nat) (j : Nat) : (d.wipe a n).host j = d.host j := rfl
@[simp] theorem Dev.die_wipe (d : Dev) (a n : Nat) (j : Nat) : (d.wipe a n).die j = d.die j := rfl
@[simp] theorem Dev.module_wipe (d : Dev) (a n : Nat) (j l : Nat) : (d.wipe a n).module j l = d.module j l := rfl
@[simp] theorem Dev.stack_wipe (d : Dev) (a n : Nat) (j : Nat) : (d.wipe a n).stack j = d.stack j := rfl
@[simp] theorem Dev.req_wipe (d : Dev) (a n : Nat) (j : Nat) : (d.wipe a n).req j = d.req j := rfl
@[simp] theorem Dev.cairn_wipe (d : Dev) (a n : Nat) (j l : Nat) : (d.wipe a n).cairn j l = d.cairn j l := rfl
@[simp] theorem Dev.diePower_wipe (d : Dev) (a n : Nat) (j : Nat) : (d.wipe a n).diePower j = d.diePower j := rfl
@[simp] theorem Dev.now_wipe (d : Dev) (a n : Nat) : (d.wipe a n).now = d.now := rfl

@[simp] theorem Dev.reg_emit (d : Dev) (o : Out) (j : Nat) : (d.emit o).reg j = d.reg j := rfl
@[simp] theorem Dev.rf_emit (d : Dev) (o : Out) (j hj lj : Nat) : (d.emit o).rf j hj lj = d.rf j hj lj := rfl
@[simp] theorem Dev.rb_emit (d : Dev) (o : Out) (j i_ : Nat) : (d.emit o).rb j i_ = d.rb j i_ := rfl
@[simp] theorem Dev.reg64_emit (d : Dev) (o : Out) (j : Nat) : (d.emit o).reg64 j = d.reg64 j := rfl
@[simp] theorem Dev.count_emit (d : Dev) (o : Out) (j : Nat) : (d.emit o).count j = d.count j := rfl
@[simp] theorem Dev.tile_emit (d : Dev) (o : Out) (j : Nat) : (d.emit o).tile j = d.tile j := rfl
@[simp] theorem Dev.ctx_emit (d : Dev) (o : Out) (j : Nat) : (d.emit o).ctx j = d.ctx j := rfl
@[simp] theorem Dev.port_emit (d : Dev) (o : Out) (j : Nat) : (d.emit o).port j = d.port j := rfl
@[simp] theorem Dev.host_emit (d : Dev) (o : Out) (j : Nat) : (d.emit o).host j = d.host j := rfl
@[simp] theorem Dev.die_emit (d : Dev) (o : Out) (j : Nat) : (d.emit o).die j = d.die j := rfl
@[simp] theorem Dev.module_emit (d : Dev) (o : Out) (j l : Nat) : (d.emit o).module j l = d.module j l := rfl
@[simp] theorem Dev.stack_emit (d : Dev) (o : Out) (j : Nat) : (d.emit o).stack j = d.stack j := rfl
@[simp] theorem Dev.req_emit (d : Dev) (o : Out) (j : Nat) : (d.emit o).req j = d.req j := rfl
@[simp] theorem Dev.cairn_emit (d : Dev) (o : Out) (j l : Nat) : (d.emit o).cairn j l = d.cairn j l := rfl
@[simp] theorem Dev.diePower_emit (d : Dev) (o : Out) (j : Nat) : (d.emit o).diePower j = d.diePower j := rfl
@[simp] theorem Dev.now_emit (d : Dev) (o : Out) : (d.emit o).now = d.now := rfl

@[simp] theorem Dev.reg_begin (s : State) (j : Nat) : s.begin.reg j = s.dev.reg j := rfl
@[simp] theorem Dev.reg_commit (s : State) (d : Dev) (j : Nat) : (s.commit d).dev.reg j = d.reg j := rfl
@[simp] theorem Dev.rf_begin (s : State) (j hj lj : Nat) : s.begin.rf j hj lj = s.dev.rf j hj lj := rfl
@[simp] theorem Dev.rf_commit (s : State) (d : Dev) (j hj lj : Nat) : (s.commit d).dev.rf j hj lj = d.rf j hj lj := rfl
@[simp] theorem Dev.rb_begin (s : State) (j i_ : Nat) : s.begin.rb j i_ = s.dev.rb j i_ := rfl
@[simp] theorem Dev.rb_commit (s : State) (d : Dev) (j i_ : Nat) : (s.commit d).dev.rb j i_ = d.rb j i_ := rfl
@[simp] theorem Dev.reg64_begin (s : State) (j : Nat) : s.begin.reg64 j = s.dev.reg64 j := rfl
@[simp] theorem Dev.reg64_commit (s : State) (d : Dev) (j : Nat) : (s.commit d).dev.reg64 j = d.reg64 j := rfl
@[simp] theorem Dev.count_begin (s : State) (j : Nat) : s.begin.count j = s.dev.count j := rfl
@[simp] theorem Dev.count_commit (s : State) (d : Dev) (j : Nat) : (s.commit d).dev.count j = d.count j := rfl
@[simp] theorem Dev.tile_begin (s : State) (j : Nat) : s.begin.tile j = s.dev.tile j := rfl
@[simp] theorem Dev.tile_commit (s : State) (d : Dev) (j : Nat) : (s.commit d).dev.tile j = d.tile j := rfl
@[simp] theorem Dev.ctx_begin (s : State) (j : Nat) : s.begin.ctx j = s.dev.ctx j := rfl
@[simp] theorem Dev.ctx_commit (s : State) (d : Dev) (j : Nat) : (s.commit d).dev.ctx j = d.ctx j := rfl
@[simp] theorem Dev.port_begin (s : State) (j : Nat) : s.begin.port j = s.dev.port j := rfl
@[simp] theorem Dev.port_commit (s : State) (d : Dev) (j : Nat) : (s.commit d).dev.port j = d.port j := rfl
@[simp] theorem Dev.host_begin (s : State) (j : Nat) : s.begin.host j = s.dev.host j := rfl
@[simp] theorem Dev.host_commit (s : State) (d : Dev) (j : Nat) : (s.commit d).dev.host j = d.host j := rfl
@[simp] theorem Dev.die_begin (s : State) (j : Nat) : s.begin.die j = s.dev.die j := rfl
@[simp] theorem Dev.die_commit (s : State) (d : Dev) (j : Nat) : (s.commit d).dev.die j = d.die j := rfl
@[simp] theorem Dev.module_begin (s : State) (j l : Nat) : s.begin.module j l = s.dev.module j l := rfl
@[simp] theorem Dev.module_commit (s : State) (d : Dev) (j l : Nat) : (s.commit d).dev.module j l = d.module j l := rfl
@[simp] theorem Dev.stack_begin (s : State) (j : Nat) : s.begin.stack j = s.dev.stack j := rfl
@[simp] theorem Dev.stack_commit (s : State) (d : Dev) (j : Nat) : (s.commit d).dev.stack j = d.stack j := rfl
@[simp] theorem Dev.req_begin (s : State) (j : Nat) : s.begin.req j = s.dev.req j := rfl
@[simp] theorem Dev.req_commit (s : State) (d : Dev) (j : Nat) : (s.commit d).dev.req j = d.req j := rfl
@[simp] theorem Dev.cairn_begin (s : State) (j l : Nat) : s.begin.cairn j l = s.dev.cairn j l := rfl
@[simp] theorem Dev.cairn_commit (s : State) (d : Dev) (j l : Nat) : (s.commit d).dev.cairn j l = d.cairn j l := rfl
@[simp] theorem Dev.diePower_begin (s : State) (j : Nat) : s.begin.diePower j = s.dev.diePower j := rfl
@[simp] theorem Dev.diePower_commit (s : State) (d : Dev) (j : Nat) : (s.commit d).dev.diePower j = d.diePower j := rfl
@[simp] theorem Dev.now_begin (s : State) : s.begin.now = s.dev.now := rfl
@[simp] theorem Dev.now_commit (s : State) (d : Dev) : (s.commit d).dev.now = d.now := rfl

@[simp] theorem Dev.bumpIf_regs (d : Dev) (b : Bool) (k : Nat) : (d.bumpIf b k).regs = d.regs := by cases b <;> rfl
@[simp] theorem Dev.bumpIf_reqs (d : Dev) (b : Bool) (k : Nat) : (d.bumpIf b k).reqs = d.reqs := by cases b <;> rfl
@[simp] theorem Dev.bumpIf_fuses (d : Dev) (b : Bool) (k : Nat) : (d.bumpIf b k).fuses = d.fuses := by cases b <;> rfl
@[simp] theorem Dev.bumpIf_bringUp (d : Dev) (b : Bool) (k : Nat) : (d.bumpIf b k).bringUp = d.bringUp := by cases b <;> rfl
@[simp] theorem Dev.bumpIf_outcome (d : Dev) (b : Bool) (k : Nat) : (d.bumpIf b k).outcome = d.outcome := by cases b <;> rfl
@[simp] theorem Dev.bumpIf_role (d : Dev) (b : Bool) (k : Nat) : (d.bumpIf b k).role = d.role := by cases b <;> rfl
@[simp] theorem Dev.bumpIf_iaPresent (d : Dev) (b : Bool) (k : Nat) : (d.bumpIf b k).iaPresent = d.iaPresent := by cases b <;> rfl
@[simp] theorem Dev.bumpIf_ibPresent (d : Dev) (b : Bool) (k : Nat) : (d.bumpIf b k).ibPresent = d.ibPresent := by cases b <;> rfl
@[simp] theorem Dev.bumpIf_fenced (d : Dev) (b : Bool) (k : Nat) : (d.bumpIf b k).fenced = d.fenced := by cases b <;> rfl
@[simp] theorem Dev.bumpIf_fenceCause (d : Dev) (b : Bool) (k : Nat) : (d.bumpIf b k).fenceCause = d.fenceCause := by cases b <;> rfl
@[simp] theorem Dev.bumpIf_idModeNow (d : Dev) (b : Bool) (k : Nat) : (d.bumpIf b k).idModeNow = d.idModeNow := by cases b <;> rfl
@[simp] theorem Dev.bumpIf_idModeNext (d : Dev) (b : Bool) (k : Nat) : (d.bumpIf b k).idModeNext = d.idModeNext := by cases b <;> rfl
@[simp] theorem Dev.bumpIf_negGen (d : Dev) (b : Bool) (k : Nat) : (d.bumpIf b k).negGen = d.negGen := by cases b <;> rfl
@[simp] theorem Dev.bumpIf_iodGen (d : Dev) (b : Bool) (k : Nat) : (d.bumpIf b k).iodGen = d.iodGen := by cases b <;> rfl
@[simp] theorem Dev.bumpIf_cmpGen (d : Dev) (b : Bool) (k : Nat) : (d.bumpIf b k).cmpGen = d.cmpGen := by cases b <;> rfl
@[simp] theorem Dev.bumpIf_negCaps (d : Dev) (b : Bool) (k : Nat) : (d.bumpIf b k).negCaps = d.negCaps := by cases b <;> rfl
@[simp] theorem Dev.bumpIf_dies (d : Dev) (b : Bool) (k : Nat) : (d.bumpIf b k).dies = d.dies := by cases b <;> rfl
@[simp] theorem Dev.bumpIf_modules (d : Dev) (b : Bool) (k : Nat) : (d.bumpIf b k).modules = d.modules := by cases b <;> rfl
@[simp] theorem Dev.bumpIf_ctlModule (d : Dev) (b : Bool) (k : Nat) : (d.bumpIf b k).ctlModule = d.ctlModule := by cases b <;> rfl
@[simp] theorem Dev.bumpIf_stopped (d : Dev) (b : Bool) (k : Nat) : (d.bumpIf b k).stopped = d.stopped := by cases b <;> rfl
@[simp] theorem Dev.bumpIf_onAlternate (d : Dev) (b : Bool) (k : Nat) : (d.bumpIf b k).onAlternate = d.onAlternate := by cases b <;> rfl
@[simp] theorem Dev.bumpIf_tiles (d : Dev) (b : Bool) (k : Nat) : (d.bumpIf b k).tiles = d.tiles := by cases b <;> rfl
@[simp] theorem Dev.bumpIf_hbm (d : Dev) (b : Bool) (k : Nat) : (d.bumpIf b k).hbm = d.hbm := by cases b <;> rfl
@[simp] theorem Dev.bumpIf_pages (d : Dev) (b : Bool) (k : Nat) : (d.bumpIf b k).pages = d.pages := by cases b <;> rfl
@[simp] theorem Dev.bumpIf_badBursts (d : Dev) (b : Bool) (k : Nat) : (d.bumpIf b k).badBursts = d.badBursts := by cases b <;> rfl
@[simp] theorem Dev.bumpIf_strata (d : Dev) (b : Bool) (k : Nat) : (d.bumpIf b k).strata = d.strata := by cases b <;> rfl
@[simp] theorem Dev.bumpIf_ports (d : Dev) (b : Bool) (k : Nat) : (d.bumpIf b k).ports = d.ports := by cases b <;> rfl
@[simp] theorem Dev.bumpIf_nextTag (d : Dev) (b : Bool) (k : Nat) : (d.bumpIf b k).nextTag = d.nextTag := by cases b <;> rfl
@[simp] theorem Dev.bumpIf_nextBulk (d : Dev) (b : Bool) (k : Nat) : (d.bumpIf b k).nextBulk = d.nextBulk := by cases b <;> rfl
@[simp] theorem Dev.bumpIf_tags (d : Dev) (b : Bool) (k : Nat) : (d.bumpIf b k).tags = d.tags := by cases b <;> rfl
@[simp] theorem Dev.bumpIf_localOut (d : Dev) (b : Bool) (k : Nat) : (d.bumpIf b k).localOut = d.localOut := by cases b <;> rfl
@[simp] theorem Dev.bumpIf_inbox (d : Dev) (b : Bool) (k : Nat) : (d.bumpIf b k).inbox = d.inbox := by cases b <;> rfl
@[simp] theorem Dev.bumpIf_inGroups (d : Dev) (b : Bool) (k : Nat) : (d.bumpIf b k).inGroups = d.inGroups := by cases b <;> rfl
@[simp] theorem Dev.bumpIf_outGroups (d : Dev) (b : Bool) (k : Nat) : (d.bumpIf b k).outGroups = d.outGroups := by cases b <;> rfl
@[simp] theorem Dev.bumpIf_pushes (d : Dev) (b : Bool) (k : Nat) : (d.bumpIf b k).pushes = d.pushes := by cases b <;> rfl
@[simp] theorem Dev.bumpIf_bridges (d : Dev) (b : Bool) (k : Nat) : (d.bumpIf b k).bridges = d.bridges := by cases b <;> rfl
@[simp] theorem Dev.bumpIf_lode (d : Dev) (b : Bool) (k : Nat) : (d.bumpIf b k).lode = d.lode := by cases b <;> rfl
@[simp] theorem Dev.bumpIf_cairns (d : Dev) (b : Bool) (k : Nat) : (d.bumpIf b k).cairns = d.cairns := by cases b <;> rfl
@[simp] theorem Dev.bumpIf_openings (d : Dev) (b : Bool) (k : Nat) : (d.bumpIf b k).openings = d.openings := by cases b <;> rfl
@[simp] theorem Dev.bumpIf_repeats (d : Dev) (b : Bool) (k : Nat) : (d.bumpIf b k).repeats = d.repeats := by cases b <;> rfl
@[simp] theorem Dev.bumpIf_hosts (d : Dev) (b : Bool) (k : Nat) : (d.bumpIf b k).hosts = d.hosts := by cases b <;> rfl
@[simp] theorem Dev.bumpIf_admin (d : Dev) (b : Bool) (k : Nat) : (d.bumpIf b k).admin = d.admin := by cases b <;> rfl
@[simp] theorem Dev.bumpIf_ctxs (d : Dev) (b : Bool) (k : Nat) : (d.bumpIf b k).ctxs = d.ctxs := by cases b <;> rfl
@[simp] theorem Dev.bumpIf_pkgEvents (d : Dev) (b : Bool) (k : Nat) : (d.bumpIf b k).pkgEvents = d.pkgEvents := by cases b <;> rfl
@[simp] theorem Dev.bumpIf_directory (d : Dev) (b : Bool) (k : Nat) : (d.bumpIf b k).directory = d.directory := by cases b <;> rfl
@[simp] theorem Dev.bumpIf_waiting (d : Dev) (b : Bool) (k : Nat) : (d.bumpIf b k).waiting = d.waiting := by cases b <;> rfl
@[simp] theorem Dev.bumpIf_snoops (d : Dev) (b : Bool) (k : Nat) : (d.bumpIf b k).snoops = d.snoops := by cases b <;> rfl
@[simp] theorem Dev.bumpIf_ras (d : Dev) (b : Bool) (k : Nat) : (d.bumpIf b k).ras = d.ras := by cases b <;> rfl
@[simp] theorem Dev.bumpIf_sec (d : Dev) (b : Bool) (k : Nat) : (d.bumpIf b k).sec = d.sec := by cases b <;> rfl
@[simp] theorem Dev.bumpIf_pwr (d : Dev) (b : Bool) (k : Nat) : (d.bumpIf b k).pwr = d.pwr := by cases b <;> rfl
@[simp] theorem Dev.bumpIf_free (d : Dev) (b : Bool) (k : Nat) : (d.bumpIf b k).free = d.free := by cases b <;> rfl
@[simp] theorem Dev.bumpIf_stores (d : Dev) (b : Bool) (k : Nat) : (d.bumpIf b k).stores = d.stores := by cases b <;> rfl
@[simp] theorem Dev.bumpIf_wipes (d : Dev) (b : Bool) (k : Nat) : (d.bumpIf b k).wipes = d.wipes := by cases b <;> rfl
@[simp] theorem Dev.bumpIf_out (d : Dev) (b : Bool) (k : Nat) : (d.bumpIf b k).out = d.out := by cases b <;> rfl

@[simp] theorem Dev.takeFree_regs (d : Dev) : (d.takeFree.2).regs = d.regs := rfl
@[simp] theorem Dev.takeFree_counters (d : Dev) : (d.takeFree.2).counters = d.counters := rfl
@[simp] theorem Dev.takeFree_reqs (d : Dev) : (d.takeFree.2).reqs = d.reqs := rfl
@[simp] theorem Dev.takeFree_fuses (d : Dev) : (d.takeFree.2).fuses = d.fuses := rfl
@[simp] theorem Dev.takeFree_bringUp (d : Dev) : (d.takeFree.2).bringUp = d.bringUp := rfl
@[simp] theorem Dev.takeFree_outcome (d : Dev) : (d.takeFree.2).outcome = d.outcome := rfl
@[simp] theorem Dev.takeFree_role (d : Dev) : (d.takeFree.2).role = d.role := rfl
@[simp] theorem Dev.takeFree_iaPresent (d : Dev) : (d.takeFree.2).iaPresent = d.iaPresent := rfl
@[simp] theorem Dev.takeFree_ibPresent (d : Dev) : (d.takeFree.2).ibPresent = d.ibPresent := rfl
@[simp] theorem Dev.takeFree_fenced (d : Dev) : (d.takeFree.2).fenced = d.fenced := rfl
@[simp] theorem Dev.takeFree_fenceCause (d : Dev) : (d.takeFree.2).fenceCause = d.fenceCause := rfl
@[simp] theorem Dev.takeFree_idModeNow (d : Dev) : (d.takeFree.2).idModeNow = d.idModeNow := rfl
@[simp] theorem Dev.takeFree_idModeNext (d : Dev) : (d.takeFree.2).idModeNext = d.idModeNext := rfl
@[simp] theorem Dev.takeFree_negGen (d : Dev) : (d.takeFree.2).negGen = d.negGen := rfl
@[simp] theorem Dev.takeFree_iodGen (d : Dev) : (d.takeFree.2).iodGen = d.iodGen := rfl
@[simp] theorem Dev.takeFree_cmpGen (d : Dev) : (d.takeFree.2).cmpGen = d.cmpGen := rfl
@[simp] theorem Dev.takeFree_negCaps (d : Dev) : (d.takeFree.2).negCaps = d.negCaps := rfl
@[simp] theorem Dev.takeFree_dies (d : Dev) : (d.takeFree.2).dies = d.dies := rfl
@[simp] theorem Dev.takeFree_modules (d : Dev) : (d.takeFree.2).modules = d.modules := rfl
@[simp] theorem Dev.takeFree_ctlModule (d : Dev) : (d.takeFree.2).ctlModule = d.ctlModule := rfl
@[simp] theorem Dev.takeFree_stopped (d : Dev) : (d.takeFree.2).stopped = d.stopped := rfl
@[simp] theorem Dev.takeFree_onAlternate (d : Dev) : (d.takeFree.2).onAlternate = d.onAlternate := rfl
@[simp] theorem Dev.takeFree_tiles (d : Dev) : (d.takeFree.2).tiles = d.tiles := rfl
@[simp] theorem Dev.takeFree_hbm (d : Dev) : (d.takeFree.2).hbm = d.hbm := rfl
@[simp] theorem Dev.takeFree_pages (d : Dev) : (d.takeFree.2).pages = d.pages := rfl
@[simp] theorem Dev.takeFree_badBursts (d : Dev) : (d.takeFree.2).badBursts = d.badBursts := rfl
@[simp] theorem Dev.takeFree_strata (d : Dev) : (d.takeFree.2).strata = d.strata := rfl
@[simp] theorem Dev.takeFree_ports (d : Dev) : (d.takeFree.2).ports = d.ports := rfl
@[simp] theorem Dev.takeFree_nextTag (d : Dev) : (d.takeFree.2).nextTag = d.nextTag := rfl
@[simp] theorem Dev.takeFree_nextBulk (d : Dev) : (d.takeFree.2).nextBulk = d.nextBulk := rfl
@[simp] theorem Dev.takeFree_tags (d : Dev) : (d.takeFree.2).tags = d.tags := rfl
@[simp] theorem Dev.takeFree_localOut (d : Dev) : (d.takeFree.2).localOut = d.localOut := rfl
@[simp] theorem Dev.takeFree_inbox (d : Dev) : (d.takeFree.2).inbox = d.inbox := rfl
@[simp] theorem Dev.takeFree_inGroups (d : Dev) : (d.takeFree.2).inGroups = d.inGroups := rfl
@[simp] theorem Dev.takeFree_outGroups (d : Dev) : (d.takeFree.2).outGroups = d.outGroups := rfl
@[simp] theorem Dev.takeFree_pushes (d : Dev) : (d.takeFree.2).pushes = d.pushes := rfl
@[simp] theorem Dev.takeFree_bridges (d : Dev) : (d.takeFree.2).bridges = d.bridges := rfl
@[simp] theorem Dev.takeFree_lode (d : Dev) : (d.takeFree.2).lode = d.lode := rfl
@[simp] theorem Dev.takeFree_cairns (d : Dev) : (d.takeFree.2).cairns = d.cairns := rfl
@[simp] theorem Dev.takeFree_openings (d : Dev) : (d.takeFree.2).openings = d.openings := rfl
@[simp] theorem Dev.takeFree_repeats (d : Dev) : (d.takeFree.2).repeats = d.repeats := rfl
@[simp] theorem Dev.takeFree_hosts (d : Dev) : (d.takeFree.2).hosts = d.hosts := rfl
@[simp] theorem Dev.takeFree_admin (d : Dev) : (d.takeFree.2).admin = d.admin := rfl
@[simp] theorem Dev.takeFree_ctxs (d : Dev) : (d.takeFree.2).ctxs = d.ctxs := rfl
@[simp] theorem Dev.takeFree_pkgEvents (d : Dev) : (d.takeFree.2).pkgEvents = d.pkgEvents := rfl
@[simp] theorem Dev.takeFree_directory (d : Dev) : (d.takeFree.2).directory = d.directory := rfl
@[simp] theorem Dev.takeFree_waiting (d : Dev) : (d.takeFree.2).waiting = d.waiting := rfl
@[simp] theorem Dev.takeFree_snoops (d : Dev) : (d.takeFree.2).snoops = d.snoops := rfl
@[simp] theorem Dev.takeFree_ras (d : Dev) : (d.takeFree.2).ras = d.ras := rfl
@[simp] theorem Dev.takeFree_sec (d : Dev) : (d.takeFree.2).sec = d.sec := rfl
@[simp] theorem Dev.takeFree_pwr (d : Dev) : (d.takeFree.2).pwr = d.pwr := rfl
@[simp] theorem Dev.takeFree_stores (d : Dev) : (d.takeFree.2).stores = d.stores := rfl
@[simp] theorem Dev.takeFree_wipes (d : Dev) : (d.takeFree.2).wipes = d.wipes := rfl
@[simp] theorem Dev.takeFree_out (d : Dev) : (d.takeFree.2).out = d.out := rfl

@[simp] theorem State.begin_regs (s : State) : s.begin.regs = s.dev.regs := rfl
@[simp] theorem State.begin_counters (s : State) : s.begin.counters = s.dev.counters := rfl
@[simp] theorem State.begin_reqs (s : State) : s.begin.reqs = s.dev.reqs := rfl
@[simp] theorem State.begin_fuses (s : State) : s.begin.fuses = s.dev.fuses := rfl
@[simp] theorem State.begin_bringUp (s : State) : s.begin.bringUp = s.dev.bringUp := rfl
@[simp] theorem State.begin_outcome (s : State) : s.begin.outcome = s.dev.outcome := rfl
@[simp] theorem State.begin_role (s : State) : s.begin.role = s.dev.role := rfl
@[simp] theorem State.begin_iaPresent (s : State) : s.begin.iaPresent = s.dev.iaPresent := rfl
@[simp] theorem State.begin_ibPresent (s : State) : s.begin.ibPresent = s.dev.ibPresent := rfl
@[simp] theorem State.begin_fenced (s : State) : s.begin.fenced = s.dev.fenced := rfl
@[simp] theorem State.begin_fenceCause (s : State) : s.begin.fenceCause = s.dev.fenceCause := rfl
@[simp] theorem State.begin_idModeNow (s : State) : s.begin.idModeNow = s.dev.idModeNow := rfl
@[simp] theorem State.begin_idModeNext (s : State) : s.begin.idModeNext = s.dev.idModeNext := rfl
@[simp] theorem State.begin_negGen (s : State) : s.begin.negGen = s.dev.negGen := rfl
@[simp] theorem State.begin_iodGen (s : State) : s.begin.iodGen = s.dev.iodGen := rfl
@[simp] theorem State.begin_cmpGen (s : State) : s.begin.cmpGen = s.dev.cmpGen := rfl
@[simp] theorem State.begin_negCaps (s : State) : s.begin.negCaps = s.dev.negCaps := rfl
@[simp] theorem State.begin_dies (s : State) : s.begin.dies = s.dev.dies := rfl
@[simp] theorem State.begin_modules (s : State) : s.begin.modules = s.dev.modules := rfl
@[simp] theorem State.begin_ctlModule (s : State) : s.begin.ctlModule = s.dev.ctlModule := rfl
@[simp] theorem State.begin_stopped (s : State) : s.begin.stopped = s.dev.stopped := rfl
@[simp] theorem State.begin_onAlternate (s : State) : s.begin.onAlternate = s.dev.onAlternate := rfl
@[simp] theorem State.begin_tiles (s : State) : s.begin.tiles = s.dev.tiles := rfl
@[simp] theorem State.begin_hbm (s : State) : s.begin.hbm = s.dev.hbm := rfl
@[simp] theorem State.begin_pages (s : State) : s.begin.pages = s.dev.pages := rfl
@[simp] theorem State.begin_badBursts (s : State) : s.begin.badBursts = s.dev.badBursts := rfl
@[simp] theorem State.begin_strata (s : State) : s.begin.strata = s.dev.strata := rfl
@[simp] theorem State.begin_ports (s : State) : s.begin.ports = s.dev.ports := rfl
@[simp] theorem State.begin_nextTag (s : State) : s.begin.nextTag = s.dev.nextTag := rfl
@[simp] theorem State.begin_nextBulk (s : State) : s.begin.nextBulk = s.dev.nextBulk := rfl
@[simp] theorem State.begin_tags (s : State) : s.begin.tags = s.dev.tags := rfl
@[simp] theorem State.begin_localOut (s : State) : s.begin.localOut = s.dev.localOut := rfl
@[simp] theorem State.begin_inbox (s : State) : s.begin.inbox = s.dev.inbox := rfl
@[simp] theorem State.begin_inGroups (s : State) : s.begin.inGroups = s.dev.inGroups := rfl
@[simp] theorem State.begin_outGroups (s : State) : s.begin.outGroups = s.dev.outGroups := rfl
@[simp] theorem State.begin_pushes (s : State) : s.begin.pushes = s.dev.pushes := rfl
@[simp] theorem State.begin_bridges (s : State) : s.begin.bridges = s.dev.bridges := rfl
@[simp] theorem State.begin_lode (s : State) : s.begin.lode = s.dev.lode := rfl
@[simp] theorem State.begin_cairns (s : State) : s.begin.cairns = s.dev.cairns := rfl
@[simp] theorem State.begin_openings (s : State) : s.begin.openings = s.dev.openings := rfl
@[simp] theorem State.begin_repeats (s : State) : s.begin.repeats = s.dev.repeats := rfl
@[simp] theorem State.begin_hosts (s : State) : s.begin.hosts = s.dev.hosts := rfl
@[simp] theorem State.begin_admin (s : State) : s.begin.admin = s.dev.admin := rfl
@[simp] theorem State.begin_ctxs (s : State) : s.begin.ctxs = s.dev.ctxs := rfl
@[simp] theorem State.begin_pkgEvents (s : State) : s.begin.pkgEvents = s.dev.pkgEvents := rfl
@[simp] theorem State.begin_directory (s : State) : s.begin.directory = s.dev.directory := rfl
@[simp] theorem State.begin_waiting (s : State) : s.begin.waiting = s.dev.waiting := rfl
@[simp] theorem State.begin_snoops (s : State) : s.begin.snoops = s.dev.snoops := rfl
@[simp] theorem State.begin_ras (s : State) : s.begin.ras = s.dev.ras := rfl
@[simp] theorem State.begin_sec (s : State) : s.begin.sec = s.dev.sec := rfl
@[simp] theorem State.begin_pwr (s : State) : s.begin.pwr = s.dev.pwr := rfl
@[simp] theorem State.begin_free (s : State) : s.begin.free = s.dev.free := rfl

@[simp] theorem State.commit_regs (s : State) (d : Dev) : (s.commit d).dev.regs = d.regs := rfl
@[simp] theorem State.commit_counters (s : State) (d : Dev) : (s.commit d).dev.counters = d.counters := rfl
@[simp] theorem State.commit_reqs (s : State) (d : Dev) : (s.commit d).dev.reqs = d.reqs := rfl
@[simp] theorem State.commit_fuses (s : State) (d : Dev) : (s.commit d).dev.fuses = d.fuses := rfl
@[simp] theorem State.commit_bringUp (s : State) (d : Dev) : (s.commit d).dev.bringUp = d.bringUp := rfl
@[simp] theorem State.commit_outcome (s : State) (d : Dev) : (s.commit d).dev.outcome = d.outcome := rfl
@[simp] theorem State.commit_role (s : State) (d : Dev) : (s.commit d).dev.role = d.role := rfl
@[simp] theorem State.commit_iaPresent (s : State) (d : Dev) : (s.commit d).dev.iaPresent = d.iaPresent := rfl
@[simp] theorem State.commit_ibPresent (s : State) (d : Dev) : (s.commit d).dev.ibPresent = d.ibPresent := rfl
@[simp] theorem State.commit_fenced (s : State) (d : Dev) : (s.commit d).dev.fenced = d.fenced := rfl
@[simp] theorem State.commit_fenceCause (s : State) (d : Dev) : (s.commit d).dev.fenceCause = d.fenceCause := rfl
@[simp] theorem State.commit_idModeNow (s : State) (d : Dev) : (s.commit d).dev.idModeNow = d.idModeNow := rfl
@[simp] theorem State.commit_idModeNext (s : State) (d : Dev) : (s.commit d).dev.idModeNext = d.idModeNext := rfl
@[simp] theorem State.commit_negGen (s : State) (d : Dev) : (s.commit d).dev.negGen = d.negGen := rfl
@[simp] theorem State.commit_iodGen (s : State) (d : Dev) : (s.commit d).dev.iodGen = d.iodGen := rfl
@[simp] theorem State.commit_cmpGen (s : State) (d : Dev) : (s.commit d).dev.cmpGen = d.cmpGen := rfl
@[simp] theorem State.commit_negCaps (s : State) (d : Dev) : (s.commit d).dev.negCaps = d.negCaps := rfl
@[simp] theorem State.commit_dies (s : State) (d : Dev) : (s.commit d).dev.dies = d.dies := rfl
@[simp] theorem State.commit_modules (s : State) (d : Dev) : (s.commit d).dev.modules = d.modules := rfl
@[simp] theorem State.commit_ctlModule (s : State) (d : Dev) : (s.commit d).dev.ctlModule = d.ctlModule := rfl
@[simp] theorem State.commit_stopped (s : State) (d : Dev) : (s.commit d).dev.stopped = d.stopped := rfl
@[simp] theorem State.commit_onAlternate (s : State) (d : Dev) : (s.commit d).dev.onAlternate = d.onAlternate := rfl
@[simp] theorem State.commit_tiles (s : State) (d : Dev) : (s.commit d).dev.tiles = d.tiles := rfl
@[simp] theorem State.commit_hbm (s : State) (d : Dev) : (s.commit d).dev.hbm = d.hbm := rfl
@[simp] theorem State.commit_pages (s : State) (d : Dev) : (s.commit d).dev.pages = d.pages := rfl
@[simp] theorem State.commit_badBursts (s : State) (d : Dev) : (s.commit d).dev.badBursts = d.badBursts := rfl
@[simp] theorem State.commit_strata (s : State) (d : Dev) : (s.commit d).dev.strata = d.strata := rfl
@[simp] theorem State.commit_ports (s : State) (d : Dev) : (s.commit d).dev.ports = d.ports := rfl
@[simp] theorem State.commit_nextTag (s : State) (d : Dev) : (s.commit d).dev.nextTag = d.nextTag := rfl
@[simp] theorem State.commit_nextBulk (s : State) (d : Dev) : (s.commit d).dev.nextBulk = d.nextBulk := rfl
@[simp] theorem State.commit_tags (s : State) (d : Dev) : (s.commit d).dev.tags = d.tags := rfl
@[simp] theorem State.commit_localOut (s : State) (d : Dev) : (s.commit d).dev.localOut = d.localOut := rfl
@[simp] theorem State.commit_inbox (s : State) (d : Dev) : (s.commit d).dev.inbox = d.inbox := rfl
@[simp] theorem State.commit_inGroups (s : State) (d : Dev) : (s.commit d).dev.inGroups = d.inGroups := rfl
@[simp] theorem State.commit_outGroups (s : State) (d : Dev) : (s.commit d).dev.outGroups = d.outGroups := rfl
@[simp] theorem State.commit_pushes (s : State) (d : Dev) : (s.commit d).dev.pushes = d.pushes := rfl
@[simp] theorem State.commit_bridges (s : State) (d : Dev) : (s.commit d).dev.bridges = d.bridges := rfl
@[simp] theorem State.commit_lode (s : State) (d : Dev) : (s.commit d).dev.lode = d.lode := rfl
@[simp] theorem State.commit_cairns (s : State) (d : Dev) : (s.commit d).dev.cairns = d.cairns := rfl
@[simp] theorem State.commit_openings (s : State) (d : Dev) : (s.commit d).dev.openings = d.openings := rfl
@[simp] theorem State.commit_repeats (s : State) (d : Dev) : (s.commit d).dev.repeats = d.repeats := rfl
@[simp] theorem State.commit_hosts (s : State) (d : Dev) : (s.commit d).dev.hosts = d.hosts := rfl
@[simp] theorem State.commit_admin (s : State) (d : Dev) : (s.commit d).dev.admin = d.admin := rfl
@[simp] theorem State.commit_ctxs (s : State) (d : Dev) : (s.commit d).dev.ctxs = d.ctxs := rfl
@[simp] theorem State.commit_pkgEvents (s : State) (d : Dev) : (s.commit d).dev.pkgEvents = d.pkgEvents := rfl
@[simp] theorem State.commit_directory (s : State) (d : Dev) : (s.commit d).dev.directory = d.directory := rfl
@[simp] theorem State.commit_waiting (s : State) (d : Dev) : (s.commit d).dev.waiting = d.waiting := rfl
@[simp] theorem State.commit_snoops (s : State) (d : Dev) : (s.commit d).dev.snoops = d.snoops := rfl
@[simp] theorem State.commit_ras (s : State) (d : Dev) : (s.commit d).dev.ras = d.ras := rfl
@[simp] theorem State.commit_sec (s : State) (d : Dev) : (s.commit d).dev.sec = d.sec := rfl
@[simp] theorem State.commit_pwr (s : State) (d : Dev) : (s.commit d).dev.pwr = d.pwr := rfl
@[simp] theorem State.commit_free (s : State) (d : Dev) : (s.commit d).dev.free = d.free := rfl
@[simp] theorem State.commit_out (s : State) (d : Dev) : (s.commit d).dev.out = d.out := rfl

@[simp] theorem State.begin_stores (s : State) : s.begin.stores = [] := rfl
@[simp] theorem State.begin_wipes (s : State) : s.begin.wipes = [] := rfl
@[simp] theorem State.begin_out (s : State) : s.begin.out = [] := rfl
@[simp] theorem State.commit_stores (s : State) (d : Dev) : (s.commit d).dev.stores = [] := rfl
@[simp] theorem State.commit_wipes (s : State) (d : Dev) : (s.commit d).dev.wipes = [] := rfl
@[simp] theorem State.commit_pending (s : State) (d : Dev) : (s.commit d).pending = s.pending := rfl

/-- A command that stores and wipes nothing leaves every byte of memory. -/
@[simp] theorem State.commit_mem (s : State) (d : Dev) (h : d.stores = []) (h' : d.wipes = []) : (s.commit d).mem = s.mem := by
  simp [State.commit, h, h', Memory.write, Memory.wipe]

/-- A command that stores nothing changes the device only. -/
theorem State.commit_quiet (s : State) (d : Dev) (h : d.stores = []) (h' : d.wipes = []) :
    s.commit d = { s with dev := d } := by
  obtain ⟨m, e, p⟩ := s
  cases d
  simp_all [State.commit, Memory.write, Memory.wipe]

/-! Tables. -/

theorem mfind_mset {α : Type} (m : Map α) (k j : Nat) (v : α) :
    mfind (mset m k v) j = if k = j then some v else mfind m j := by
  induction m with
  | nil => simp [mset, mfind]
  | cons p r ih =>
    obtain ⟨a, b⟩ := p
    simp only [mset]
    split
    · simp [mfind]
    · split
      · subst_vars; simp only [mfind]; split <;> simp_all
      · simp only [mfind, ih]; split
        · next h => subst h; split <;> simp_all
        · rfl

theorem mget_mset {α : Type} (e : α) (m : Map α) (k j : Nat) (v : α) :
    mget e (mset m k v) j = if k = j then v else mget e m j := by
  simp only [mget, mfind_mset]; split <;> rfl

@[simp] theorem mget_mset_same {α : Type} (e : α) (m : Map α) (k : Nat) (v : α) : mget e (mset m k v) k = v := by
  simp [mget_mset]

theorem mget_mset_other {α : Type} (e : α) (m : Map α) {k j : Nat} (v : α) (h : k ≠ j) :
    mget e (mset m k v) j = mget e m j := by simp [mget_mset, h]

theorem mfind_mdel {α : Type} (m : Map α) (k j : Nat) : mfind (mdel m k) j = if k = j then none else mfind m j := by
  induction m with
  | nil => simp [mdel, mfind]
  | cons p r ih =>
    obtain ⟨a, b⟩ := p
    simp only [mdel]
    split
    · subst_vars; rw [ih]; simp only [mfind]; split <;> simp_all
    · simp only [mfind, ih]; split
      · next h => subst h; split <;> simp_all
      · rfl

/-! Registers, counters and units after an update. -/

theorem Dev.reg_setReg (d : Dev) (k j : Nat) (v : BitVec 32) : (d.setReg k v).reg j = if k = j then v else d.reg j := by
  simp only [Dev.reg, Dev.setReg, mget_mset]

@[simp] theorem Dev.reg_setReg_same (d : Dev) (k : Nat) (v : BitVec 32) : (d.setReg k v).reg k = v := by simp [Dev.reg_setReg]

theorem Dev.count_bumpN (d : Dev) (k j n : Nat) :
    (d.bumpN k n).count j = if k = j then d.count k + BitVec.ofNat 48 n else d.count j := by
  simp only [Dev.count, Dev.bumpN, mget_mset]

@[simp] theorem Dev.count_bump_same (d : Dev) (k : Nat) : (d.bump k).count k = d.count k + 1 := by
  simp [Dev.bump, Dev.count_bumpN]

theorem Dev.tile_setTile (d : Dev) (t u : Nat) (x : Tile) : (d.setTile t x).tile u = if t = u then x else d.tile u := by
  simp only [Dev.tile, Dev.setTile, mget_mset]
@[simp] theorem Dev.tile_setTile_same (d : Dev) (t : Nat) (x : Tile) : (d.setTile t x).tile t = x := by simp [Dev.tile_setTile]

theorem Dev.ctx_setCtx (d : Dev) (c e : Nat) (x : Ctx) : (d.setCtx c x).ctx e = if c = e then x else d.ctx e := by
  simp only [Dev.ctx, Dev.setCtx, mget_mset]
@[simp] theorem Dev.ctx_setCtx_same (d : Dev) (c : Nat) (x : Ctx) : (d.setCtx c x).ctx c = x := by simp [Dev.ctx_setCtx]

theorem Dev.port_setPort (d : Dev) (p q : Nat) (x : FabPort) : (d.setPort p x).port q = if p = q then x else d.port q := by
  simp only [Dev.port, Dev.setPort, mget_mset]
@[simp] theorem Dev.port_setPort_same (d : Dev) (p : Nat) (x : FabPort) : (d.setPort p x).port p = x := by simp [Dev.port_setPort]

theorem Dev.host_setHost (d : Dev) (p q : Nat) (x : HostPort) : (d.setHost p x).host q = if p = q then x else d.host q := by
  simp only [Dev.host, Dev.setHost, mget_mset]
@[simp] theorem Dev.host_setHost_same (d : Dev) (p : Nat) (x : HostPort) : (d.setHost p x).host p = x := by simp [Dev.host_setHost]

theorem Dev.die_setDie (d : Dev) (i j : Nat) (x : Die) : (d.setDie i x).die j = if i = j then x else d.die j := by
  simp only [Dev.die, Dev.setDie, mget_mset]
@[simp] theorem Dev.die_setDie_same (d : Dev) (i : Nat) (x : Die) : (d.setDie i x).die i = x := by simp [Dev.die_setDie]

theorem Dev.stack_setStack (d : Dev) (i j : Nat) (x : Stack) : (d.setStack i x).stack j = if i = j then x else d.stack j := by
  simp only [Dev.stack, Dev.setStack, mget_mset]
@[simp] theorem Dev.stack_setStack_same (d : Dev) (i : Nat) (x : Stack) : (d.setStack i x).stack i = x := by
  simp [Dev.stack_setStack]

theorem Dev.req_setReq (d : Dev) (i j : Nat) (x : ReqState) : (d.setReq i x).req j = if i = j then x else d.req j := by
  simp only [Dev.req, Dev.setReq, mget_mset]
@[simp] theorem Dev.req_setReq_same (d : Dev) (i : Nat) (x : ReqState) : (d.setReq i x).req i = x := by simp [Dev.req_setReq]

theorem Dev.cairn_setCairn (d : Dev) (c n : Nat) (x : Cairn) : (d.setCairn c n x).cairn c n = x := by
  simp [Dev.cairn, Dev.setCairn]
theorem Dev.module_setModule (d : Dev) (n i : Nat) (x : D2dModule) : (d.setModule n i x).module n i = x := by
  simp [Dev.module, Dev.setModule]
theorem Dev.diePower_setDiePower (d : Dev) (i j : Nat) (x : DiePower) :
    (d.setDiePower i x).diePower j = if i = j then x else d.diePower j := by
  simp only [Dev.diePower, Dev.setDiePower, mget_mset]


end Sys2Proof.Machine
end

