-- ==== Sys2Proof/Laws/Memory.lean ====
section
/-! SUPPORT. Memory: every operation keeps the canonical form, and what a byte reads after it. -/

namespace Sys2Proof.Machine

/-! Reading. -/

theorem mget_mput (m : Mem) (a b : Nat) (x : Byte) : mget 0 (mput m a x) b = if a = b then x else mget 0 m b := by
  unfold mput
  split
  · next h => subst h; simp only [mget, mfind_mdel]; split <;> rfl
  · exact mget_mset 0 m a b x

theorem mfind_filter {α : Type} (m : Map α) (p : Nat → Bool) (a : Nat) :
    mfind (m.filter (fun c => p c.1)) a = if p a then mfind m a else none := by
  induction m with
  | nil => simp [mfind]
  | cons c r ih =>
    obtain ⟨k, v⟩ := c
    by_cases hk : p k = true
    · rw [List.filter_cons_of_pos (by simpa using hk)]
      simp only [mfind, ih]
      by_cases h : k = a
      · subst h; simp [hk]
      · simp [h]
    · rw [List.filter_cons_of_neg (by simpa using hk), ih]
      simp only [mfind]
      by_cases h : k = a
      · subst h; simp [hk]
      · simp [h]

theorem mget_wipe (m : Mem) (l : List (Nat × Nat)) (a : Nat) :
    mget 0 (Memory.wipe m l) a = if inRanges l a then 0 else mget 0 m a := by
  unfold Memory.wipe
  split
  · next h => simp [List.isEmpty_iff.mp h, inRanges]
  · have := mfind_filter m (fun k => !inRanges l k) a
    simp only [mget, this]
    cases inRanges l a <;> simp

theorem mget_write (m : Mem) (l : List (Nat × Byte)) (a : Nat) :
    mget 0 (Memory.write m l) a = (storedByte l a).getD (mget 0 m a) := by
  induction l with
  | nil => simp [Memory.write, storedByte]
  | cons c r ih =>
    obtain ⟨k, x⟩ := c
    simp only [Memory.write, storedByte, mget_mput, ih]
    split <;> simp

/-- After a command, a byte of memory is what the command last saw there. -/
theorem State.read_commit (s : State) (d : Dev) (a : Nat) : (s.commit d).read a = peek s.mem d a := by
  show mget 0 (Memory.write (Memory.wipe s.mem d.wipes) d.stores) a = _
  rw [mget_write, mget_wipe]; rfl

/-- What the running command sees after one of its own writes. -/
theorem peek_poke (m : Mem) (d : Dev) (a b : Nat) (x : Byte) : peek m (d.poke a x) b = if a = b then x else peek m d b := by
  unfold peek Dev.poke
  simp only [storedByte]
  split <;> simp

/-! The canonical form. -/

theorem Memory.sortedFrom_mono {lo lo' : Nat} (h : lo' ≤ lo) (m : Mem) (hs : Memory.sortedFrom lo m = true) :
    Memory.sortedFrom lo' m = true := by
  cases m with
  | nil => rfl
  | cons c r =>
    obtain ⟨k, v⟩ := c
    simp only [Memory.sortedFrom, Bool.and_eq_true, decide_eq_true_eq] at hs ⊢
    exact ⟨le_trans h hs.1, hs.2⟩

theorem Memory.sortedFrom_mset (m : Mem) (k : Nat) (v : Byte) (lo : Nat) (hlo : lo ≤ k) (h : Memory.sortedFrom lo m = true) :
    Memory.sortedFrom lo (mset m k v) = true := by
  induction m generalizing lo with
  | nil => simp [mset, Memory.sortedFrom, hlo]
  | cons c r ih =>
    obtain ⟨a, b⟩ := c
    simp only [Memory.sortedFrom, Bool.and_eq_true, decide_eq_true_eq] at h
    simp only [mset]
    split
    · next hk => simp [Memory.sortedFrom, hlo, h.2]; omega
    · split
      · next _ he => subst he; simp [Memory.sortedFrom, hlo, h.2]
      · next hk he =>
        simp only [Memory.sortedFrom, Bool.and_eq_true, decide_eq_true_eq]
        exact ⟨h.1, ih (a + 1) (by omega) h.2⟩

theorem Memory.sortedFrom_mdel (m : Mem) (k : Nat) (lo : Nat) (h : Memory.sortedFrom lo m = true) :
    Memory.sortedFrom lo (mdel m k) = true := by
  induction m generalizing lo with
  | nil => rfl
  | cons c r ih =>
    obtain ⟨a, b⟩ := c
    simp only [Memory.sortedFrom, Bool.and_eq_true, decide_eq_true_eq] at h
    simp only [mdel]
    split
    · exact Memory.sortedFrom_mono (by omega) _ (ih (a + 1) h.2)
    · simp only [Memory.sortedFrom, Bool.and_eq_true, decide_eq_true_eq]
      exact ⟨h.1, ih (a + 1) h.2⟩

theorem Memory.sortedFrom_filter (m : Mem) (p : Nat × Byte → Bool) (lo : Nat) (h : Memory.sortedFrom lo m = true) :
    Memory.sortedFrom lo (m.filter p) = true := by
  induction m generalizing lo with
  | nil => rfl
  | cons c r ih =>
    obtain ⟨a, b⟩ := c
    simp only [Memory.sortedFrom, Bool.and_eq_true, decide_eq_true_eq] at h
    by_cases hp : p (a, b) = true
    · rw [List.filter_cons_of_pos hp]
      simp only [Memory.sortedFrom, Bool.and_eq_true, decide_eq_true_eq]
      exact ⟨h.1, ih (a + 1) h.2⟩
    · rw [List.filter_cons_of_neg hp]
      exact Memory.sortedFrom_mono (by omega) _ (ih (a + 1) h.2)

theorem all_mset (m : Mem) (k : Nat) (v : Byte) (hv : v ≠ 0) (h : m.all (fun c => c.2 != 0) = true) :
    (mset m k v).all (fun c => c.2 != 0) = true := by
  induction m with
  | nil => simpa [mset] using hv
  | cons c r ih =>
    obtain ⟨a, b⟩ := c
    simp only [List.all_cons, Bool.and_eq_true] at h
    simp only [mset]
    split
    · simp only [List.all_cons, h.1, h.2, Bool.and_true]; simpa using hv
    · split
      · simp only [List.all_cons, h.2, Bool.and_true]; simpa using hv
      · simp only [List.all_cons, h.1, ih h.2, Bool.and_self]

theorem all_mdel (m : Mem) (k : Nat) (h : m.all (fun c => c.2 != 0) = true) : (mdel m k).all (fun c => c.2 != 0) = true := by
  induction m with
  | nil => rfl
  | cons c r ih =>
    obtain ⟨a, b⟩ := c
    simp only [List.all_cons, Bool.and_eq_true] at h
    simp only [mdel]
    split
    · exact ih h.2
    · simp only [List.all_cons, h.1, ih h.2, Bool.and_self]

theorem Memory.wf_mput (m : Mem) (a : Nat) (b : Byte) (h : Memory.wf m = true) : Memory.wf (mput m a b) = true := by
  simp only [Memory.wf, Bool.and_eq_true] at h ⊢
  unfold mput
  split
  · exact ⟨Memory.sortedFrom_mdel m a 0 h.1, all_mdel m a h.2⟩
  · next hb => exact ⟨Memory.sortedFrom_mset m a b 0 (Nat.zero_le a) h.1, all_mset m a b hb h.2⟩

theorem Memory.wf_wipe (m : Mem) (l : List (Nat × Nat)) (h : Memory.wf m = true) : Memory.wf (Memory.wipe m l) = true := by
  unfold Memory.wipe
  split
  · exact h
  · simp only [Memory.wf, Bool.and_eq_true] at h ⊢
    refine ⟨Memory.sortedFrom_filter m _ 0 h.1, ?_⟩
    rw [List.all_eq_true] at h ⊢
    exact fun c hc => h.2 c (List.mem_of_mem_filter hc)

theorem Memory.wf_write (m : Mem) (l : List (Nat × Byte)) (h : Memory.wf m = true) : Memory.wf (Memory.write m l) = true := by
  induction l with
  | nil => exact h
  | cons c r ih => exact Memory.wf_mput _ c.1 c.2 ih

/-- The end of a command keeps memory canonical. -/
theorem State.commit_wf (s : State) (d : Dev) (h : Memory.wf s.mem = true) : Memory.wf (s.commit d).mem = true :=
  Memory.wf_write _ _ (Memory.wf_wipe _ _ h)

theorem State.reset_wf : Memory.wf State.reset.mem = true := rfl

end Sys2Proof.Machine
end

