-- ==== Sys2Proof/Laws/Access.lean ====
section
/-! SUPPORT. What a register write can do: it is not heard, absent, not permitted, ignored for its reserved bits, or it has its
effect (R407, R409, R411, R417). -/

namespace Sys2Proof.Machine

theorem changesRsv_begin (s : State) (k : Nat) (v : BitVec 32) : s.begin.changesRsv k v = s.dev.changesRsv k v := rfl
theorem mayAsk_begin (s : State) (r : Requester) : s.begin.mayAsk r = s.dev.mayAsk r := by cases r <;> rfl
theorem lost_begin (s : State) (i : Nat) : s.begin.lost i = s.dev.lost i := rfl
theorem breakGuard_none (d : Dev) (r : Requester) (h : (d.req (reqIndex r)).pending = none) : d.breakGuard r = d := by
  simp [Dev.breakGuard, h]

/-- A write that is heard, permitted and leaves RSV bits alone has its effect and is answered with its status. -/
theorem State.runReg_accepted (s : State) (r : Requester) (k : Nat) (v : BitVec 32) (perm : Dev → Bool)
    (x : Mem → Dev → Dev × Nat) (hask : s.dev.mayAsk r = true) (hpend : (s.dev.req (reqIndex r)).pending = none)
    (hlost : s.dev.lost 4 = false ∨ 0x10000000 ≤ k) (hrsv : s.dev.changesRsv k v = false) (hperm : perm s.begin = true) :
    s.runReg r k v perm x = .next (s.commit ((x s.mem s.begin).1.answer r (x s.mem s.begin).2)) := by
  have hl : (s.begin.lost 4 && decide (k < 0x10000000)) = false := by
    rcases hlost with h | h
    · simp [lost_begin, h]
    · simp; omega
  have hb : s.begin.breakGuard r = s.begin := breakGuard_none _ _ (by simpa using hpend)
  simp only [State.runReg, State.run, Dev.regFront, hrsv, Bool.and_false, mayAsk_begin, hask, hb, hl, hperm, changesRsv_begin]
  simp

/-- A write that is heard and not permitted counts in DEV_REG_REFUSED and is answered ACCESS (R417). -/
theorem State.runReg_refused (s : State) (r : Requester) (k : Nat) (v : BitVec 32) (perm : Dev → Bool)
    (x : Mem → Dev → Dev × Nat) (hask : s.dev.mayAsk r = true) (hpend : (s.dev.req (reqIndex r)).pending = none)
    (hlost : s.dev.lost 4 = false ∨ 0x10000000 ≤ k) (hp : perm s.dev = false) (hperm : perm s.begin = false) :
    s.runReg r k v perm x = .next (s.commit (s.begin.regRefuse r)) := by
  have hl : (s.begin.lost 4 && decide (k < 0x10000000)) = false := by
    rcases hlost with h | h
    · simp [lost_begin, h]
    · simp; omega
  have hb : s.begin.breakGuard r = s.begin := breakGuard_none _ _ (by simpa using hpend)
  simp only [State.runReg, State.run, Dev.regFront, hp, mayAsk_begin, hask, hb, hl, hperm]
  simp

end Sys2Proof.Machine
end

