-- ==== Sys2Proof/Laws/Bits.lean ====
section
/-! SUPPORT. Bit fields of numbers and words, and little-endian bytes: what is written to a field is read back, and the other fields
stay. -/

namespace Sys2Proof.Machine

/-- A number with a field replaced, by quotient and remainder. -/
theorem setFld_eq (v hi lo x : Nat) :
    setFld v hi lo x = 2 ^ lo * (2 ^ (hi + 1 - lo) * (v / 2 ^ lo / 2 ^ (hi + 1 - lo)) + x % 2 ^ (hi + 1 - lo)) + v % 2 ^ lo := by
  unfold setFld fld
  rw [Nat.shiftRight_eq_div_pow]
  generalize hp : 2 ^ lo = p
  generalize hq : 2 ^ (hi + 1 - lo) = q
  have h1 := Nat.div_add_mod v p
  have h2 := Nat.div_add_mod (v / p) q
  generalize v / p % q = f at *
  generalize v % p = r at *
  generalize x % q = y
  have h3 : v = p * (q * (v / p / q)) + f * p + r := by
    rw [← h1]; conv_lhs => rw [← h2]
    rw [h1]; ring
  generalize v / p / q = w at *
  subst h3
  have : p * (q * w) + f * p + r - f * p = p * (q * w) + r := by omega
  rw [this]; ring

theorem fld_setFld (v hi lo x : Nat) : fld (setFld v hi lo x) hi lo = x % 2 ^ (hi + 1 - lo) := by
  rw [setFld_eq, fld, Nat.shiftRight_eq_div_pow]
  have hp : 0 < 2 ^ lo := Nat.two_pow_pos lo
  rw [Nat.mul_add_div hp, Nat.div_eq_of_lt (Nat.mod_lt _ hp), Nat.add_zero, Nat.mul_add_mod, Nat.mod_mod]

theorem fb_lt {w : Nat} (v : BitVec w) (hi lo : Nat) : fb v hi lo < 2 ^ (hi + 1 - lo) := Nat.mod_lt _ (Nat.two_pow_pos _)

/-- A field of a number replaced stays below 2^w where the field lies below bit w. -/
theorem setFld_lt (v hi lo x w : Nat) (hv : v < 2 ^ w) (hlo : lo ≤ hi + 1) (hw : hi + 1 ≤ w) : setFld v hi lo x < 2 ^ w := by
  rw [setFld_eq]
  generalize hn : hi + 1 - lo = n
  have hx : x % 2 ^ n < 2 ^ n := Nat.mod_lt _ (Nat.two_pow_pos _)
  have hr : v % 2 ^ lo < 2 ^ lo := Nat.mod_lt _ (Nat.two_pow_pos _)
  have he : 2 ^ w = 2 ^ lo * (2 ^ n * 2 ^ (w - (hi + 1))) := by
    rw [← pow_add, ← pow_add]; congr 1; omega
  have hk : v / 2 ^ lo / 2 ^ n < 2 ^ (w - (hi + 1)) := by
    rw [Nat.div_div_eq_div_mul, Nat.div_lt_iff_lt_mul (by positivity)]
    calc v < 2 ^ w := hv
      _ = 2 ^ (w - (hi + 1)) * (2 ^ lo * 2 ^ n) := by rw [he]; ring
  generalize v / 2 ^ lo / 2 ^ n = a at *
  generalize x % 2 ^ n = y at *
  generalize v % 2 ^ lo = r at *
  generalize 2 ^ (w - (hi + 1)) = c at *
  generalize 2 ^ n = q at *
  generalize 2 ^ lo = p at *
  rw [he]
  have h1 : q * a + y + 1 ≤ q * c := by nlinarith
  have h2 : p * (q * a + y) + p ≤ p * (q * c) := by nlinarith
  omega

theorem fb_ofNat_setFld (w v hi lo x : Nat) (hv : v < 2 ^ w) (hlo : lo ≤ hi + 1) (hw : hi + 1 ≤ w) :
    fb (BitVec.ofNat w (setFld v hi lo x)) hi lo = x % 2 ^ (hi + 1 - lo) := by
  unfold fb
  rw [BitVec.toNat_ofNat, Nat.mod_eq_of_lt (setFld_lt v hi lo x w hv hlo hw), fld_setFld]

/-- Bits above a field that is replaced stay. -/
theorem fld_setFld_above (v hi lo x hi' lo' : Nat) (hlo : lo ≤ hi + 1) (h : hi + 1 ≤ lo') :
    fld (setFld v hi lo x) hi' lo' = fld v hi' lo' := by
  rw [setFld_eq]
  unfold fld
  rw [Nat.shiftRight_eq_div_pow, Nat.shiftRight_eq_div_pow]
  congr 1
  generalize hn : hi + 1 - lo = n
  have e : 2 ^ lo' = 2 ^ lo * (2 ^ n * 2 ^ (lo' - (hi + 1))) := by rw [← pow_add, ← pow_add]; congr 1; omega
  rw [e, ← Nat.div_div_eq_div_mul, ← Nat.div_div_eq_div_mul, ← Nat.div_div_eq_div_mul, ← Nat.div_div_eq_div_mul]
  congr 1
  have hp : 0 < 2 ^ lo := Nat.two_pow_pos lo
  have hq : 0 < 2 ^ n := Nat.two_pow_pos n
  rw [Nat.mul_add_div hp, Nat.div_eq_of_lt (Nat.mod_lt _ hp), Nat.add_zero, Nat.mul_add_div hq,
    Nat.div_eq_of_lt (Nat.mod_lt _ hq), Nat.add_zero]

/-! Bytes. -/

theorem toLE_length (n v : Nat) : (toLE n v).length = n := by
  induction n generalizing v with
  | zero => rfl
  | succ n ih => simp [toLE, ih]

theorem leOf_toLE (n v : Nat) : leOf (toLE n v) = v % 256 ^ n := by
  induction n generalizing v with
  | zero => simp [toLE, leOf, Nat.mod_one]
  | succ n ih =>
    simp only [toLE, leOf, ih, BitVec.toNat_ofNat]
    have e : 256 ^ (n + 1) = 256 * 256 ^ n := by ring
    rw [e, Nat.mod_mul]

theorem leOf_lt (bs : List Byte) : leOf bs < 256 ^ bs.length := by
  induction bs with
  | nil => simp [leOf]
  | cons b r ih =>
    simp only [leOf, List.length_cons, pow_succ]
    have := b.isLt
    omega

end Sys2Proof.Machine
end

