-- ==== Sys2Proof/Laws/Events.lean ====
section
/-! SUPPORT. What sending to a host and writing an event record leave as they were: everything but counters, host ports, TAGs,
event rings and outputs. -/

namespace Sys2Proof.Machine

/-- A device without what events and host requests touch. -/
def Dev.sansEvents (d : Dev) : Dev := { d with counters := [], hosts := [], tags := [], ctxs := [], pkgEvents := {}, out := [] }

/-- A context without its event ring. -/
def Ctx.sansEvents (x : Ctx) : Ctx := { x with evt := {} }

theorem each_sansEvents {α : Type} (l : List α) (f : Dev → α → Dev) (h : ∀ d a, (f d a).sansEvents = d.sansEvents) (d : Dev) :
    (d.each l f).sansEvents = d.sansEvents := by
  induction l generalizing d with
  | nil => rfl
  | cons a r ih => exact (ih (f d a)).trans (h d a)

theorem each_ctxSans {α : Type} (l : List α) (f : Dev → α → Dev) (j : Nat)
    (h : ∀ d a, ((f d a).ctx j).sansEvents = (d.ctx j).sansEvents) (d : Dev) :
    ((d.each l f).ctx j).sansEvents = (d.ctx j).sansEvents := by
  induction l generalizing d with
  | nil => rfl
  | cons a r ih => exact (ih (f d a)).trans (h d a)

theorem sendHost_sansEvents (d : Dev) (p : Nat) (k : HPacket) : (d.sendHost p k).sansEvents = d.sansEvents := by
  unfold Dev.sendHost; split <;> rfl

theorem ctxs_sendHost (d : Dev) (p : Nat) (k : HPacket) : (d.sendHost p k).ctxs = d.ctxs := by
  unfold Dev.sendHost; split <;> rfl

theorem hostRequest_sansEvents (d : Dev) (p : Nat) (k : HPacket) (t : Tag) :
    (d.hostRequest p k t).sansEvents = d.sansEvents := by
  simp only [Dev.hostRequest]
  split
  · rfl
  · split
    · rfl
    · rw [sendHost_sansEvents]; rfl

theorem ctxs_hostRequest (d : Dev) (p : Nat) (k : HPacket) (t : Tag) : (d.hostRequest p k t).ctxs = d.ctxs := by
  simp only [Dev.hostRequest]
  split
  · rfl
  · split
    · rfl
    · rw [ctxs_sendHost]

theorem setEventRing_sansEvents (d : Dev) (c : Nat) (r : EventRing) : (d.setEventRing c r).sansEvents = d.sansEvents := by
  unfold Dev.setEventRing; split <;> rfl

theorem setEventRing_ctx (d : Dev) (c j : Nat) (r : EventRing) :
    ((d.setEventRing c r).ctx j).sansEvents = (d.ctx j).sansEvents := by
  unfold Dev.setEventRing
  split
  · rfl
  · rw [Dev.ctx_setCtx]; split
    · next h => subst h; rfl
    · rfl

theorem ringPut_sansEvents (d : Dev) (c : Nat) (e : Event) : (d.ringPut c e).sansEvents = d.sansEvents := by
  simp only [Dev.ringPut]
  split
  · exact setEventRing_sansEvents _ _ _
  · exact (hostRequest_sansEvents _ _ _ _).trans (setEventRing_sansEvents _ _ _)

theorem ringPut_ctx (d : Dev) (c j : Nat) (e : Event) : ((d.ringPut c e).ctx j).sansEvents = (d.ctx j).sansEvents := by
  simp only [Dev.ringPut]
  split
  · exact setEventRing_ctx _ _ _ _
  · simp only [Dev.hwr, Dev.ctx, ctxs_hostRequest]; exact setEventRing_ctx _ _ _ _

theorem emit_sansEvents (d : Dev) (o : Out) : (d.emit o).sansEvents = d.sansEvents := rfl
theorem emit_ctx_sans (d : Dev) (o : Out) (j : Nat) : ((d.emit o).ctx j) = d.ctx j := rfl

theorem emitPut_sansEvents (d : Dev) (o : Out) (c : Nat) (e : Event) : ((d.emit o).ringPut c e).sansEvents = d.sansEvents := by
  rw [ringPut_sansEvents, emit_sansEvents]

theorem emitPut_ctx (d : Dev) (o : Out) (c j : Nat) (e : Event) :
    (((d.emit o).ringPut c e).ctx j).sansEvents = (d.ctx j).sansEvents := by
  rw [ringPut_ctx, emit_ctx_sans]

theorem event_sansEvents (d : Dev) (cs : List Nat) (code sev d0 d1 unit : Nat) :
    (d.event cs code sev d0 d1 unit).sansEvents = d.sansEvents := by
  unfold Dev.event
  extract_lets bound pkg e d' c0
  have h : d'.sansEvents = d.sansEvents := each_sansEvents bound _ (fun d a => emitPut_sansEvents d _ a _) d
  split
  · exact (emitPut_sansEvents d' _ _ _).trans h
  · exact h

theorem event_ctx (d : Dev) (cs : List Nat) (code sev d0 d1 unit j : Nat) :
    ((d.event cs code sev d0 d1 unit).ctx j).sansEvents = (d.ctx j).sansEvents := by
  unfold Dev.event
  extract_lets bound pkg e d' c0
  have h : (d'.ctx j).sansEvents = (d.ctx j).sansEvents := each_ctxSans bound _ j (fun d a => emitPut_ctx d _ a j _) d
  split
  · exact (emitPut_ctx d' _ _ j _).trans h
  · exact h

theorem sansEvents_fields {d e : Dev} (h : d.sansEvents = e.sansEvents) :
    d.regs = e.regs ∧ d.reqs = e.reqs ∧ d.fuses = e.fuses ∧ d.bringUp = e.bringUp ∧ d.outcome = e.outcome ∧ d.role = e.role ∧ d.iaPresent = e.iaPresent ∧ d.ibPresent = e.ibPresent ∧ d.fenced = e.fenced ∧ d.fenceCause = e.fenceCause ∧ d.idModeNow = e.idModeNow ∧ d.idModeNext = e.idModeNext ∧ d.negGen = e.negGen ∧ d.iodGen = e.iodGen ∧ d.cmpGen = e.cmpGen ∧ d.negCaps = e.negCaps ∧ d.dies = e.dies ∧ d.modules = e.modules ∧ d.ctlModule = e.ctlModule ∧ d.stopped = e.stopped ∧ d.onAlternate = e.onAlternate ∧ d.tiles = e.tiles ∧ d.hbm = e.hbm ∧ d.pages = e.pages ∧ d.badBursts = e.badBursts ∧ d.strata = e.strata ∧ d.ports = e.ports ∧ d.nextTag = e.nextTag ∧ d.nextBulk = e.nextBulk ∧ d.localOut = e.localOut ∧ d.inbox = e.inbox ∧ d.inGroups = e.inGroups ∧ d.outGroups = e.outGroups ∧ d.pushes = e.pushes ∧ d.bridges = e.bridges ∧ d.lode = e.lode ∧ d.cairns = e.cairns ∧ d.openings = e.openings ∧ d.repeats = e.repeats ∧ d.admin = e.admin ∧ d.directory = e.directory ∧ d.waiting = e.waiting ∧ d.snoops = e.snoops ∧ d.ras = e.ras ∧ d.sec = e.sec ∧ d.pwr = e.pwr ∧ d.free = e.free ∧ d.stores = e.stores ∧ d.wipes = e.wipes := by
  simp only [Dev.sansEvents, Dev.mk.injEq] at h
  simp only [h, and_self]

theorem sansEvents_reads {d e : Dev} (h : d.sansEvents = e.sansEvents) :
    (∀ q0, d.reg q0 = e.reg q0) ∧ (∀ q0 q1 q2, d.rf q0 q1 q2 = e.rf q0 q1 q2) ∧ (∀ q0 q1, d.rb q0 q1 = e.rb q0 q1) ∧ (∀ q0, d.tile q0 = e.tile q0) ∧ (∀ q0, d.die q0 = e.die q0) ∧ (∀ q0, d.port q0 = e.port q0) ∧ (∀ q0, d.stack q0 = e.stack q0) ∧ (∀ q0, d.req q0 = e.req q0) ∧ (∀ q0, d.lost q0 = e.lost q0) ∧ (∀ q0 q1, d.module q0 q1 = e.module q0 q1) ∧ (∀ q0 q1, d.cairn q0 q1 = e.cairn q0 q1) ∧ (d.now = e.now) := by
  simp only [Dev.sansEvents, Dev.mk.injEq] at h
  simp only [Dev.rf, Dev.rb, Dev.reg, Dev.tile, Dev.die, Dev.port, Dev.stack, Dev.req, Dev.lost, Dev.keptDown, Dev.module, Dev.cairn, Dev.now, h,
    implies_true, and_self]

theorem ctxSans_fields {x y : Ctx} (h : x.sansEvents = y.sansEvents) :
    x.state = y.state ∧ x.gen = y.gen ∧ x.tileMask = y.tileMask ∧ x.hostMask = y.hostMask ∧ x.initPhase = y.initPhase ∧ x.port = y.port ∧ x.hostId = y.hostId ∧ x.tdCause = y.tdCause ∧ x.phase = y.phase ∧ x.switch = y.switch ∧ x.changing = y.changing ∧ x.runs = y.runs ∧ x.runNext = y.runNext ∧ x.lines = y.lines ∧ x.cplValid = y.cplValid ∧ x.shareBase = y.shareBase ∧ x.shareCarry = y.shareCarry ∧ x.shareSpan = y.shareSpan ∧ x.collClosed = y.collClosed ∧ x.collDone = y.collDone ∧ x.collFail = y.collFail ∧ x.pipe = y.pipe ∧ x.prot = y.prot ∧ x.log = y.log ∧ x.window = y.window := by
  simp only [Ctx.sansEvents, Ctx.mk.injEq] at h
  simp only [h, and_self]


@[simp] theorem Dev.sendHost_fields (d : Dev) (p : Nat) (k : HPacket) :
      (d.sendHost p k).regs = d.regs ∧
      (d.sendHost p k).reqs = d.reqs ∧
      (d.sendHost p k).fuses = d.fuses ∧
      (d.sendHost p k).bringUp = d.bringUp ∧
      (d.sendHost p k).outcome = d.outcome ∧
      (d.sendHost p k).role = d.role ∧
      (d.sendHost p k).iaPresent = d.iaPresent ∧
      (d.sendHost p k).ibPresent = d.ibPresent ∧
      (d.sendHost p k).fenced = d.fenced ∧
      (d.sendHost p k).fenceCause = d.fenceCause ∧
      (d.sendHost p k).idModeNow = d.idModeNow ∧
      (d.sendHost p k).idModeNext = d.idModeNext ∧
      (d.sendHost p k).negGen = d.negGen ∧
      (d.sendHost p k).iodGen = d.iodGen ∧
      (d.sendHost p k).cmpGen = d.cmpGen ∧
      (d.sendHost p k).negCaps = d.negCaps ∧
      (d.sendHost p k).dies = d.dies ∧
      (d.sendHost p k).modules = d.modules ∧
      (d.sendHost p k).ctlModule = d.ctlModule ∧
      (d.sendHost p k).stopped = d.stopped ∧
      (d.sendHost p k).onAlternate = d.onAlternate ∧
      (d.sendHost p k).tiles = d.tiles ∧
      (d.sendHost p k).hbm = d.hbm ∧
      (d.sendHost p k).pages = d.pages ∧
      (d.sendHost p k).badBursts = d.badBursts ∧
      (d.sendHost p k).strata = d.strata ∧
      (d.sendHost p k).ports = d.ports ∧
      (d.sendHost p k).nextTag = d.nextTag ∧
      (d.sendHost p k).nextBulk = d.nextBulk ∧
      (d.sendHost p k).localOut = d.localOut ∧
      (d.sendHost p k).inbox = d.inbox ∧
      (d.sendHost p k).inGroups = d.inGroups ∧
      (d.sendHost p k).outGroups = d.outGroups ∧
      (d.sendHost p k).pushes = d.pushes ∧
      (d.sendHost p k).bridges = d.bridges ∧
      (d.sendHost p k).lode = d.lode ∧
      (d.sendHost p k).cairns = d.cairns ∧
      (d.sendHost p k).openings = d.openings ∧
      (d.sendHost p k).repeats = d.repeats ∧
      (d.sendHost p k).admin = d.admin ∧
      (d.sendHost p k).directory = d.directory ∧
      (d.sendHost p k).waiting = d.waiting ∧
      (d.sendHost p k).snoops = d.snoops ∧
      (d.sendHost p k).ras = d.ras ∧
      (d.sendHost p k).sec = d.sec ∧
      (d.sendHost p k).pwr = d.pwr ∧
      (d.sendHost p k).free = d.free ∧
      (d.sendHost p k).stores = d.stores ∧
      (d.sendHost p k).wipes = d.wipes :=
  sansEvents_fields (sendHost_sansEvents d p k)
@[simp] theorem Dev.sendHost_reads (d : Dev) (p : Nat) (k : HPacket) :
      (∀ q0, (d.sendHost p k).reg q0 = d.reg q0) ∧
      (∀ q0 q1 q2, (d.sendHost p k).rf q0 q1 q2 = d.rf q0 q1 q2) ∧
      (∀ q0 q1, (d.sendHost p k).rb q0 q1 = d.rb q0 q1) ∧
      (∀ q0, (d.sendHost p k).tile q0 = d.tile q0) ∧
      (∀ q0, (d.sendHost p k).die q0 = d.die q0) ∧
      (∀ q0, (d.sendHost p k).port q0 = d.port q0) ∧
      (∀ q0, (d.sendHost p k).stack q0 = d.stack q0) ∧
      (∀ q0, (d.sendHost p k).req q0 = d.req q0) ∧
      (∀ q0, (d.sendHost p k).lost q0 = d.lost q0) ∧
      (∀ q0 q1, (d.sendHost p k).module q0 q1 = d.module q0 q1) ∧
      (∀ q0 q1, (d.sendHost p k).cairn q0 q1 = d.cairn q0 q1) ∧
      ((d.sendHost p k).now = d.now) :=
  sansEvents_reads (sendHost_sansEvents d p k)
@[simp] theorem Dev.sendHost_ctxs (d : Dev) (p : Nat) (k : HPacket) : (d.sendHost p k).ctxs = d.ctxs := ctxs_sendHost d p k
@[simp] theorem Dev.ctx_sendHost (d : Dev) (p : Nat) (k : HPacket) (q : Nat) : (d.sendHost p k).ctx q = d.ctx q := congrArg (fun m => mget Ctx.reset m q) (ctxs_sendHost d p k)
@[simp] theorem Dev.hostRequest_fields (d : Dev) (p : Nat) (k : HPacket) (t : Tag) :
      (d.hostRequest p k t).regs = d.regs ∧
      (d.hostRequest p k t).reqs = d.reqs ∧
      (d.hostRequest p k t).fuses = d.fuses ∧
      (d.hostRequest p k t).bringUp = d.bringUp ∧
      (d.hostRequest p k t).outcome = d.outcome ∧
      (d.hostRequest p k t).role = d.role ∧
      (d.hostRequest p k t).iaPresent = d.iaPresent ∧
      (d.hostRequest p k t).ibPresent = d.ibPresent ∧
      (d.hostRequest p k t).fenced = d.fenced ∧
      (d.hostRequest p k t).fenceCause = d.fenceCause ∧
      (d.hostRequest p k t).idModeNow = d.idModeNow ∧
      (d.hostRequest p k t).idModeNext = d.idModeNext ∧
      (d.hostRequest p k t).negGen = d.negGen ∧
      (d.hostRequest p k t).iodGen = d.iodGen ∧
      (d.hostRequest p k t).cmpGen = d.cmpGen ∧
      (d.hostRequest p k t).negCaps = d.negCaps ∧
      (d.hostRequest p k t).dies = d.dies ∧
      (d.hostRequest p k t).modules = d.modules ∧
      (d.hostRequest p k t).ctlModule = d.ctlModule ∧
      (d.hostRequest p k t).stopped = d.stopped ∧
      (d.hostRequest p k t).onAlternate = d.onAlternate ∧
      (d.hostRequest p k t).tiles = d.tiles ∧
      (d.hostRequest p k t).hbm = d.hbm ∧
      (d.hostRequest p k t).pages = d.pages ∧
      (d.hostRequest p k t).badBursts = d.badBursts ∧
      (d.hostRequest p k t).strata = d.strata ∧
      (d.hostRequest p k t).ports = d.ports ∧
      (d.hostRequest p k t).nextTag = d.nextTag ∧
      (d.hostRequest p k t).nextBulk = d.nextBulk ∧
      (d.hostRequest p k t).localOut = d.localOut ∧
      (d.hostRequest p k t).inbox = d.inbox ∧
      (d.hostRequest p k t).inGroups = d.inGroups ∧
      (d.hostRequest p k t).outGroups = d.outGroups ∧
      (d.hostRequest p k t).pushes = d.pushes ∧
      (d.hostRequest p k t).bridges = d.bridges ∧
      (d.hostRequest p k t).lode = d.lode ∧
      (d.hostRequest p k t).cairns = d.cairns ∧
      (d.hostRequest p k t).openings = d.openings ∧
      (d.hostRequest p k t).repeats = d.repeats ∧
      (d.hostRequest p k t).admin = d.admin ∧
      (d.hostRequest p k t).directory = d.directory ∧
      (d.hostRequest p k t).waiting = d.waiting ∧
      (d.hostRequest p k t).snoops = d.snoops ∧
      (d.hostRequest p k t).ras = d.ras ∧
      (d.hostRequest p k t).sec = d.sec ∧
      (d.hostRequest p k t).pwr = d.pwr ∧
      (d.hostRequest p k t).free = d.free ∧
      (d.hostRequest p k t).stores = d.stores ∧
      (d.hostRequest p k t).wipes = d.wipes :=
  sansEvents_fields (hostRequest_sansEvents d p k t)
@[simp] theorem Dev.hostRequest_reads (d : Dev) (p : Nat) (k : HPacket) (t : Tag) :
      (∀ q0, (d.hostRequest p k t).reg q0 = d.reg q0) ∧
      (∀ q0 q1 q2, (d.hostRequest p k t).rf q0 q1 q2 = d.rf q0 q1 q2) ∧
      (∀ q0 q1, (d.hostRequest p k t).rb q0 q1 = d.rb q0 q1) ∧
      (∀ q0, (d.hostRequest p k t).tile q0 = d.tile q0) ∧
      (∀ q0, (d.hostRequest p k t).die q0 = d.die q0) ∧
      (∀ q0, (d.hostRequest p k t).port q0 = d.port q0) ∧
      (∀ q0, (d.hostRequest p k t).stack q0 = d.stack q0) ∧
      (∀ q0, (d.hostRequest p k t).req q0 = d.req q0) ∧
      (∀ q0, (d.hostRequest p k t).lost q0 = d.lost q0) ∧
      (∀ q0 q1, (d.hostRequest p k t).module q0 q1 = d.module q0 q1) ∧
      (∀ q0 q1, (d.hostRequest p k t).cairn q0 q1 = d.cairn q0 q1) ∧
      ((d.hostRequest p k t).now = d.now) :=
  sansEvents_reads (hostRequest_sansEvents d p k t)
@[simp] theorem Dev.hostRequest_ctxs (d : Dev) (p : Nat) (k : HPacket) (t : Tag) : (d.hostRequest p k t).ctxs = d.ctxs := ctxs_hostRequest d _ _ _
@[simp] theorem Dev.ctx_hostRequest (d : Dev) (p : Nat) (k : HPacket) (t : Tag) (q : Nat) : (d.hostRequest p k t).ctx q = d.ctx q := congrArg (fun m => mget Ctx.reset m q) (ctxs_hostRequest d _ _ _)
@[simp] theorem Dev.hwr_fields (d : Dev) (p c a : Nat) (bs : List Byte) (u : Purpose) (x y : Nat) :
      (d.hwr p c a bs u x y).regs = d.regs ∧
      (d.hwr p c a bs u x y).reqs = d.reqs ∧
      (d.hwr p c a bs u x y).fuses = d.fuses ∧
      (d.hwr p c a bs u x y).bringUp = d.bringUp ∧
      (d.hwr p c a bs u x y).outcome = d.outcome ∧
      (d.hwr p c a bs u x y).role = d.role ∧
      (d.hwr p c a bs u x y).iaPresent = d.iaPresent ∧
      (d.hwr p c a bs u x y).ibPresent = d.ibPresent ∧
      (d.hwr p c a bs u x y).fenced = d.fenced ∧
      (d.hwr p c a bs u x y).fenceCause = d.fenceCause ∧
      (d.hwr p c a bs u x y).idModeNow = d.idModeNow ∧
      (d.hwr p c a bs u x y).idModeNext = d.idModeNext ∧
      (d.hwr p c a bs u x y).negGen = d.negGen ∧
      (d.hwr p c a bs u x y).iodGen = d.iodGen ∧
      (d.hwr p c a bs u x y).cmpGen = d.cmpGen ∧
      (d.hwr p c a bs u x y).negCaps = d.negCaps ∧
      (d.hwr p c a bs u x y).dies = d.dies ∧
      (d.hwr p c a bs u x y).modules = d.modules ∧
      (d.hwr p c a bs u x y).ctlModule = d.ctlModule ∧
      (d.hwr p c a bs u x y).stopped = d.stopped ∧
      (d.hwr p c a bs u x y).onAlternate = d.onAlternate ∧
      (d.hwr p c a bs u x y).tiles = d.tiles ∧
      (d.hwr p c a bs u x y).hbm = d.hbm ∧
      (d.hwr p c a bs u x y).pages = d.pages ∧
      (d.hwr p c a bs u x y).badBursts = d.badBursts ∧
      (d.hwr p c a bs u x y).strata = d.strata ∧
      (d.hwr p c a bs u x y).ports = d.ports ∧
      (d.hwr p c a bs u x y).nextTag = d.nextTag ∧
      (d.hwr p c a bs u x y).nextBulk = d.nextBulk ∧
      (d.hwr p c a bs u x y).localOut = d.localOut ∧
      (d.hwr p c a bs u x y).inbox = d.inbox ∧
      (d.hwr p c a bs u x y).inGroups = d.inGroups ∧
      (d.hwr p c a bs u x y).outGroups = d.outGroups ∧
      (d.hwr p c a bs u x y).pushes = d.pushes ∧
      (d.hwr p c a bs u x y).bridges = d.bridges ∧
      (d.hwr p c a bs u x y).lode = d.lode ∧
      (d.hwr p c a bs u x y).cairns = d.cairns ∧
      (d.hwr p c a bs u x y).openings = d.openings ∧
      (d.hwr p c a bs u x y).repeats = d.repeats ∧
      (d.hwr p c a bs u x y).admin = d.admin ∧
      (d.hwr p c a bs u x y).directory = d.directory ∧
      (d.hwr p c a bs u x y).waiting = d.waiting ∧
      (d.hwr p c a bs u x y).snoops = d.snoops ∧
      (d.hwr p c a bs u x y).ras = d.ras ∧
      (d.hwr p c a bs u x y).sec = d.sec ∧
      (d.hwr p c a bs u x y).pwr = d.pwr ∧
      (d.hwr p c a bs u x y).free = d.free ∧
      (d.hwr p c a bs u x y).stores = d.stores ∧
      (d.hwr p c a bs u x y).wipes = d.wipes :=
  sansEvents_fields (hostRequest_sansEvents d p _ _)
@[simp] theorem Dev.hwr_reads (d : Dev) (p c a : Nat) (bs : List Byte) (u : Purpose) (x y : Nat) :
      (∀ q0, (d.hwr p c a bs u x y).reg q0 = d.reg q0) ∧
      (∀ q0 q1 q2, (d.hwr p c a bs u x y).rf q0 q1 q2 = d.rf q0 q1 q2) ∧
      (∀ q0 q1, (d.hwr p c a bs u x y).rb q0 q1 = d.rb q0 q1) ∧
      (∀ q0, (d.hwr p c a bs u x y).tile q0 = d.tile q0) ∧
      (∀ q0, (d.hwr p c a bs u x y).die q0 = d.die q0) ∧
      (∀ q0, (d.hwr p c a bs u x y).port q0 = d.port q0) ∧
      (∀ q0, (d.hwr p c a bs u x y).stack q0 = d.stack q0) ∧
      (∀ q0, (d.hwr p c a bs u x y).req q0 = d.req q0) ∧
      (∀ q0, (d.hwr p c a bs u x y).lost q0 = d.lost q0) ∧
      (∀ q0 q1, (d.hwr p c a bs u x y).module q0 q1 = d.module q0 q1) ∧
      (∀ q0 q1, (d.hwr p c a bs u x y).cairn q0 q1 = d.cairn q0 q1) ∧
      ((d.hwr p c a bs u x y).now = d.now) :=
  sansEvents_reads (hostRequest_sansEvents d p _ _)
@[simp] theorem Dev.hwr_ctxs (d : Dev) (p c a : Nat) (bs : List Byte) (u : Purpose) (x y : Nat) : (d.hwr p c a bs u x y).ctxs = d.ctxs := ctxs_hostRequest d _ _ _
@[simp] theorem Dev.ctx_hwr (d : Dev) (p c a : Nat) (bs : List Byte) (u : Purpose) (x y : Nat) (q : Nat) : (d.hwr p c a bs u x y).ctx q = d.ctx q := congrArg (fun m => mget Ctx.reset m q) (ctxs_hostRequest d _ _ _)
@[simp] theorem Dev.hrd_fields (d : Dev) (p c o a n : Nat) (u : Purpose) (x y : Nat) :
      (d.hrd p c o a n u x y).regs = d.regs ∧
      (d.hrd p c o a n u x y).reqs = d.reqs ∧
      (d.hrd p c o a n u x y).fuses = d.fuses ∧
      (d.hrd p c o a n u x y).bringUp = d.bringUp ∧
      (d.hrd p c o a n u x y).outcome = d.outcome ∧
      (d.hrd p c o a n u x y).role = d.role ∧
      (d.hrd p c o a n u x y).iaPresent = d.iaPresent ∧
      (d.hrd p c o a n u x y).ibPresent = d.ibPresent ∧
      (d.hrd p c o a n u x y).fenced = d.fenced ∧
      (d.hrd p c o a n u x y).fenceCause = d.fenceCause ∧
      (d.hrd p c o a n u x y).idModeNow = d.idModeNow ∧
      (d.hrd p c o a n u x y).idModeNext = d.idModeNext ∧
      (d.hrd p c o a n u x y).negGen = d.negGen ∧
      (d.hrd p c o a n u x y).iodGen = d.iodGen ∧
      (d.hrd p c o a n u x y).cmpGen = d.cmpGen ∧
      (d.hrd p c o a n u x y).negCaps = d.negCaps ∧
      (d.hrd p c o a n u x y).dies = d.dies ∧
      (d.hrd p c o a n u x y).modules = d.modules ∧
      (d.hrd p c o a n u x y).ctlModule = d.ctlModule ∧
      (d.hrd p c o a n u x y).stopped = d.stopped ∧
      (d.hrd p c o a n u x y).onAlternate = d.onAlternate ∧
      (d.hrd p c o a n u x y).tiles = d.tiles ∧
      (d.hrd p c o a n u x y).hbm = d.hbm ∧
      (d.hrd p c o a n u x y).pages = d.pages ∧
      (d.hrd p c o a n u x y).badBursts = d.badBursts ∧
      (d.hrd p c o a n u x y).strata = d.strata ∧
      (d.hrd p c o a n u x y).ports = d.ports ∧
      (d.hrd p c o a n u x y).nextTag = d.nextTag ∧
      (d.hrd p c o a n u x y).nextBulk = d.nextBulk ∧
      (d.hrd p c o a n u x y).localOut = d.localOut ∧
      (d.hrd p c o a n u x y).inbox = d.inbox ∧
      (d.hrd p c o a n u x y).inGroups = d.inGroups ∧
      (d.hrd p c o a n u x y).outGroups = d.outGroups ∧
      (d.hrd p c o a n u x y).pushes = d.pushes ∧
      (d.hrd p c o a n u x y).bridges = d.bridges ∧
      (d.hrd p c o a n u x y).lode = d.lode ∧
      (d.hrd p c o a n u x y).cairns = d.cairns ∧
      (d.hrd p c o a n u x y).openings = d.openings ∧
      (d.hrd p c o a n u x y).repeats = d.repeats ∧
      (d.hrd p c o a n u x y).admin = d.admin ∧
      (d.hrd p c o a n u x y).directory = d.directory ∧
      (d.hrd p c o a n u x y).waiting = d.waiting ∧
      (d.hrd p c o a n u x y).snoops = d.snoops ∧
      (d.hrd p c o a n u x y).ras = d.ras ∧
      (d.hrd p c o a n u x y).sec = d.sec ∧
      (d.hrd p c o a n u x y).pwr = d.pwr ∧
      (d.hrd p c o a n u x y).free = d.free ∧
      (d.hrd p c o a n u x y).stores = d.stores ∧
      (d.hrd p c o a n u x y).wipes = d.wipes :=
  sansEvents_fields (hostRequest_sansEvents d p _ _)
@[simp] theorem Dev.hrd_reads (d : Dev) (p c o a n : Nat) (u : Purpose) (x y : Nat) :
      (∀ q0, (d.hrd p c o a n u x y).reg q0 = d.reg q0) ∧
      (∀ q0 q1 q2, (d.hrd p c o a n u x y).rf q0 q1 q2 = d.rf q0 q1 q2) ∧
      (∀ q0 q1, (d.hrd p c o a n u x y).rb q0 q1 = d.rb q0 q1) ∧
      (∀ q0, (d.hrd p c o a n u x y).tile q0 = d.tile q0) ∧
      (∀ q0, (d.hrd p c o a n u x y).die q0 = d.die q0) ∧
      (∀ q0, (d.hrd p c o a n u x y).port q0 = d.port q0) ∧
      (∀ q0, (d.hrd p c o a n u x y).stack q0 = d.stack q0) ∧
      (∀ q0, (d.hrd p c o a n u x y).req q0 = d.req q0) ∧
      (∀ q0, (d.hrd p c o a n u x y).lost q0 = d.lost q0) ∧
      (∀ q0 q1, (d.hrd p c o a n u x y).module q0 q1 = d.module q0 q1) ∧
      (∀ q0 q1, (d.hrd p c o a n u x y).cairn q0 q1 = d.cairn q0 q1) ∧
      ((d.hrd p c o a n u x y).now = d.now) :=
  sansEvents_reads (hostRequest_sansEvents d p _ _)
@[simp] theorem Dev.hrd_ctxs (d : Dev) (p c o a n : Nat) (u : Purpose) (x y : Nat) : (d.hrd p c o a n u x y).ctxs = d.ctxs := ctxs_hostRequest d _ _ _
@[simp] theorem Dev.ctx_hrd (d : Dev) (p c o a n : Nat) (u : Purpose) (x y : Nat) (q : Nat) : (d.hrd p c o a n u x y).ctx q = d.ctx q := congrArg (fun m => mget Ctx.reset m q) (ctxs_hostRequest d _ _ _)
@[simp] theorem Dev.event_fields (d : Dev) (cs : List Nat) (code sev d0 d1 unit : Nat) :
      (d.event cs code sev d0 d1 unit).regs = d.regs ∧
      (d.event cs code sev d0 d1 unit).reqs = d.reqs ∧
      (d.event cs code sev d0 d1 unit).fuses = d.fuses ∧
      (d.event cs code sev d0 d1 unit).bringUp = d.bringUp ∧
      (d.event cs code sev d0 d1 unit).outcome = d.outcome ∧
      (d.event cs code sev d0 d1 unit).role = d.role ∧
      (d.event cs code sev d0 d1 unit).iaPresent = d.iaPresent ∧
      (d.event cs code sev d0 d1 unit).ibPresent = d.ibPresent ∧
      (d.event cs code sev d0 d1 unit).fenced = d.fenced ∧
      (d.event cs code sev d0 d1 unit).fenceCause = d.fenceCause ∧
      (d.event cs code sev d0 d1 unit).idModeNow = d.idModeNow ∧
      (d.event cs code sev d0 d1 unit).idModeNext = d.idModeNext ∧
      (d.event cs code sev d0 d1 unit).negGen = d.negGen ∧
      (d.event cs code sev d0 d1 unit).iodGen = d.iodGen ∧
      (d.event cs code sev d0 d1 unit).cmpGen = d.cmpGen ∧
      (d.event cs code sev d0 d1 unit).negCaps = d.negCaps ∧
      (d.event cs code sev d0 d1 unit).dies = d.dies ∧
      (d.event cs code sev d0 d1 unit).modules = d.modules ∧
      (d.event cs code sev d0 d1 unit).ctlModule = d.ctlModule ∧
      (d.event cs code sev d0 d1 unit).stopped = d.stopped ∧
      (d.event cs code sev d0 d1 unit).onAlternate = d.onAlternate ∧
      (d.event cs code sev d0 d1 unit).tiles = d.tiles ∧
      (d.event cs code sev d0 d1 unit).hbm = d.hbm ∧
      (d.event cs code sev d0 d1 unit).pages = d.pages ∧
      (d.event cs code sev d0 d1 unit).badBursts = d.badBursts ∧
      (d.event cs code sev d0 d1 unit).strata = d.strata ∧
      (d.event cs code sev d0 d1 unit).ports = d.ports ∧
      (d.event cs code sev d0 d1 unit).nextTag = d.nextTag ∧
      (d.event cs code sev d0 d1 unit).nextBulk = d.nextBulk ∧
      (d.event cs code sev d0 d1 unit).localOut = d.localOut ∧
      (d.event cs code sev d0 d1 unit).inbox = d.inbox ∧
      (d.event cs code sev d0 d1 unit).inGroups = d.inGroups ∧
      (d.event cs code sev d0 d1 unit).outGroups = d.outGroups ∧
      (d.event cs code sev d0 d1 unit).pushes = d.pushes ∧
      (d.event cs code sev d0 d1 unit).bridges = d.bridges ∧
      (d.event cs code sev d0 d1 unit).lode = d.lode ∧
      (d.event cs code sev d0 d1 unit).cairns = d.cairns ∧
      (d.event cs code sev d0 d1 unit).openings = d.openings ∧
      (d.event cs code sev d0 d1 unit).repeats = d.repeats ∧
      (d.event cs code sev d0 d1 unit).admin = d.admin ∧
      (d.event cs code sev d0 d1 unit).directory = d.directory ∧
      (d.event cs code sev d0 d1 unit).waiting = d.waiting ∧
      (d.event cs code sev d0 d1 unit).snoops = d.snoops ∧
      (d.event cs code sev d0 d1 unit).ras = d.ras ∧
      (d.event cs code sev d0 d1 unit).sec = d.sec ∧
      (d.event cs code sev d0 d1 unit).pwr = d.pwr ∧
      (d.event cs code sev d0 d1 unit).free = d.free ∧
      (d.event cs code sev d0 d1 unit).stores = d.stores ∧
      (d.event cs code sev d0 d1 unit).wipes = d.wipes :=
  sansEvents_fields (event_sansEvents d cs code sev d0 d1 unit)
@[simp] theorem Dev.event_reads (d : Dev) (cs : List Nat) (code sev d0 d1 unit : Nat) :
      (∀ q0, (d.event cs code sev d0 d1 unit).reg q0 = d.reg q0) ∧
      (∀ q0 q1 q2, (d.event cs code sev d0 d1 unit).rf q0 q1 q2 = d.rf q0 q1 q2) ∧
      (∀ q0 q1, (d.event cs code sev d0 d1 unit).rb q0 q1 = d.rb q0 q1) ∧
      (∀ q0, (d.event cs code sev d0 d1 unit).tile q0 = d.tile q0) ∧
      (∀ q0, (d.event cs code sev d0 d1 unit).die q0 = d.die q0) ∧
      (∀ q0, (d.event cs code sev d0 d1 unit).port q0 = d.port q0) ∧
      (∀ q0, (d.event cs code sev d0 d1 unit).stack q0 = d.stack q0) ∧
      (∀ q0, (d.event cs code sev d0 d1 unit).req q0 = d.req q0) ∧
      (∀ q0, (d.event cs code sev d0 d1 unit).lost q0 = d.lost q0) ∧
      (∀ q0 q1, (d.event cs code sev d0 d1 unit).module q0 q1 = d.module q0 q1) ∧
      (∀ q0 q1, (d.event cs code sev d0 d1 unit).cairn q0 q1 = d.cairn q0 q1) ∧
      ((d.event cs code sev d0 d1 unit).now = d.now) :=
  sansEvents_reads (event_sansEvents d cs code sev d0 d1 unit)
@[simp] theorem Ctx.event_fields (d : Dev) (cs : List Nat) (code sev d0 d1 unit : Nat) (j : Nat) :
      ((d.event cs code sev d0 d1 unit).ctx j).state = (d.ctx j).state ∧
      ((d.event cs code sev d0 d1 unit).ctx j).gen = (d.ctx j).gen ∧
      ((d.event cs code sev d0 d1 unit).ctx j).tileMask = (d.ctx j).tileMask ∧
      ((d.event cs code sev d0 d1 unit).ctx j).hostMask = (d.ctx j).hostMask ∧
      ((d.event cs code sev d0 d1 unit).ctx j).initPhase = (d.ctx j).initPhase ∧
      ((d.event cs code sev d0 d1 unit).ctx j).port = (d.ctx j).port ∧
      ((d.event cs code sev d0 d1 unit).ctx j).hostId = (d.ctx j).hostId ∧
      ((d.event cs code sev d0 d1 unit).ctx j).tdCause = (d.ctx j).tdCause ∧
      ((d.event cs code sev d0 d1 unit).ctx j).phase = (d.ctx j).phase ∧
      ((d.event cs code sev d0 d1 unit).ctx j).switch = (d.ctx j).switch ∧
      ((d.event cs code sev d0 d1 unit).ctx j).changing = (d.ctx j).changing ∧
      ((d.event cs code sev d0 d1 unit).ctx j).runs = (d.ctx j).runs ∧
      ((d.event cs code sev d0 d1 unit).ctx j).runNext = (d.ctx j).runNext ∧
      ((d.event cs code sev d0 d1 unit).ctx j).lines = (d.ctx j).lines ∧
      ((d.event cs code sev d0 d1 unit).ctx j).cplValid = (d.ctx j).cplValid ∧
      ((d.event cs code sev d0 d1 unit).ctx j).shareBase = (d.ctx j).shareBase ∧
      ((d.event cs code sev d0 d1 unit).ctx j).shareCarry = (d.ctx j).shareCarry ∧
      ((d.event cs code sev d0 d1 unit).ctx j).shareSpan = (d.ctx j).shareSpan ∧
      ((d.event cs code sev d0 d1 unit).ctx j).collClosed = (d.ctx j).collClosed ∧
      ((d.event cs code sev d0 d1 unit).ctx j).collDone = (d.ctx j).collDone ∧
      ((d.event cs code sev d0 d1 unit).ctx j).collFail = (d.ctx j).collFail ∧
      ((d.event cs code sev d0 d1 unit).ctx j).pipe = (d.ctx j).pipe ∧
      ((d.event cs code sev d0 d1 unit).ctx j).prot = (d.ctx j).prot ∧
      ((d.event cs code sev d0 d1 unit).ctx j).log = (d.ctx j).log ∧
      ((d.event cs code sev d0 d1 unit).ctx j).window = (d.ctx j).window :=
  ctxSans_fields (event_ctx d cs code sev d0 d1 unit j)
@[simp] theorem Dev.tileEvent_fields (d : Dev) (n code sev d0 d1 : Nat) :
      (d.tileEvent n code sev d0 d1).regs = d.regs ∧
      (d.tileEvent n code sev d0 d1).reqs = d.reqs ∧
      (d.tileEvent n code sev d0 d1).fuses = d.fuses ∧
      (d.tileEvent n code sev d0 d1).bringUp = d.bringUp ∧
      (d.tileEvent n code sev d0 d1).outcome = d.outcome ∧
      (d.tileEvent n code sev d0 d1).role = d.role ∧
      (d.tileEvent n code sev d0 d1).iaPresent = d.iaPresent ∧
      (d.tileEvent n code sev d0 d1).ibPresent = d.ibPresent ∧
      (d.tileEvent n code sev d0 d1).fenced = d.fenced ∧
      (d.tileEvent n code sev d0 d1).fenceCause = d.fenceCause ∧
      (d.tileEvent n code sev d0 d1).idModeNow = d.idModeNow ∧
      (d.tileEvent n code sev d0 d1).idModeNext = d.idModeNext ∧
      (d.tileEvent n code sev d0 d1).negGen = d.negGen ∧
      (d.tileEvent n code sev d0 d1).iodGen = d.iodGen ∧
      (d.tileEvent n code sev d0 d1).cmpGen = d.cmpGen ∧
      (d.tileEvent n code sev d0 d1).negCaps = d.negCaps ∧
      (d.tileEvent n code sev d0 d1).dies = d.dies ∧
      (d.tileEvent n code sev d0 d1).modules = d.modules ∧
      (d.tileEvent n code sev d0 d1).ctlModule = d.ctlModule ∧
      (d.tileEvent n code sev d0 d1).stopped = d.stopped ∧
      (d.tileEvent n code sev d0 d1).onAlternate = d.onAlternate ∧
      (d.tileEvent n code sev d0 d1).tiles = d.tiles ∧
      (d.tileEvent n code sev d0 d1).hbm = d.hbm ∧
      (d.tileEvent n code sev d0 d1).pages = d.pages ∧
      (d.tileEvent n code sev d0 d1).badBursts = d.badBursts ∧
      (d.tileEvent n code sev d0 d1).strata = d.strata ∧
      (d.tileEvent n code sev d0 d1).ports = d.ports ∧
      (d.tileEvent n code sev d0 d1).nextTag = d.nextTag ∧
      (d.tileEvent n code sev d0 d1).nextBulk = d.nextBulk ∧
      (d.tileEvent n code sev d0 d1).localOut = d.localOut ∧
      (d.tileEvent n code sev d0 d1).inbox = d.inbox ∧
      (d.tileEvent n code sev d0 d1).inGroups = d.inGroups ∧
      (d.tileEvent n code sev d0 d1).outGroups = d.outGroups ∧
      (d.tileEvent n code sev d0 d1).pushes = d.pushes ∧
      (d.tileEvent n code sev d0 d1).bridges = d.bridges ∧
      (d.tileEvent n code sev d0 d1).lode = d.lode ∧
      (d.tileEvent n code sev d0 d1).cairns = d.cairns ∧
      (d.tileEvent n code sev d0 d1).openings = d.openings ∧
      (d.tileEvent n code sev d0 d1).repeats = d.repeats ∧
      (d.tileEvent n code sev d0 d1).admin = d.admin ∧
      (d.tileEvent n code sev d0 d1).directory = d.directory ∧
      (d.tileEvent n code sev d0 d1).waiting = d.waiting ∧
      (d.tileEvent n code sev d0 d1).snoops = d.snoops ∧
      (d.tileEvent n code sev d0 d1).ras = d.ras ∧
      (d.tileEvent n code sev d0 d1).sec = d.sec ∧
      (d.tileEvent n code sev d0 d1).pwr = d.pwr ∧
      (d.tileEvent n code sev d0 d1).free = d.free ∧
      (d.tileEvent n code sev d0 d1).stores = d.stores ∧
      (d.tileEvent n code sev d0 d1).wipes = d.wipes :=
  sansEvents_fields (event_sansEvents d (d.ownerOf n).toList code sev d0 d1 n)
@[simp] theorem Dev.tileEvent_reads (d : Dev) (n code sev d0 d1 : Nat) :
      (∀ q0, (d.tileEvent n code sev d0 d1).reg q0 = d.reg q0) ∧
      (∀ q0 q1 q2, (d.tileEvent n code sev d0 d1).rf q0 q1 q2 = d.rf q0 q1 q2) ∧
      (∀ q0 q1, (d.tileEvent n code sev d0 d1).rb q0 q1 = d.rb q0 q1) ∧
      (∀ q0, (d.tileEvent n code sev d0 d1).tile q0 = d.tile q0) ∧
      (∀ q0, (d.tileEvent n code sev d0 d1).die q0 = d.die q0) ∧
      (∀ q0, (d.tileEvent n code sev d0 d1).port q0 = d.port q0) ∧
      (∀ q0, (d.tileEvent n code sev d0 d1).stack q0 = d.stack q0) ∧
      (∀ q0, (d.tileEvent n code sev d0 d1).req q0 = d.req q0) ∧
      (∀ q0, (d.tileEvent n code sev d0 d1).lost q0 = d.lost q0) ∧
      (∀ q0 q1, (d.tileEvent n code sev d0 d1).module q0 q1 = d.module q0 q1) ∧
      (∀ q0 q1, (d.tileEvent n code sev d0 d1).cairn q0 q1 = d.cairn q0 q1) ∧
      ((d.tileEvent n code sev d0 d1).now = d.now) :=
  sansEvents_reads (event_sansEvents d (d.ownerOf n).toList code sev d0 d1 n)
@[simp] theorem Ctx.tileEvent_fields (d : Dev) (n code sev d0 d1 : Nat) (j : Nat) :
      ((d.tileEvent n code sev d0 d1).ctx j).state = (d.ctx j).state ∧
      ((d.tileEvent n code sev d0 d1).ctx j).gen = (d.ctx j).gen ∧
      ((d.tileEvent n code sev d0 d1).ctx j).tileMask = (d.ctx j).tileMask ∧
      ((d.tileEvent n code sev d0 d1).ctx j).hostMask = (d.ctx j).hostMask ∧
      ((d.tileEvent n code sev d0 d1).ctx j).initPhase = (d.ctx j).initPhase ∧
      ((d.tileEvent n code sev d0 d1).ctx j).port = (d.ctx j).port ∧
      ((d.tileEvent n code sev d0 d1).ctx j).hostId = (d.ctx j).hostId ∧
      ((d.tileEvent n code sev d0 d1).ctx j).tdCause = (d.ctx j).tdCause ∧
      ((d.tileEvent n code sev d0 d1).ctx j).phase = (d.ctx j).phase ∧
      ((d.tileEvent n code sev d0 d1).ctx j).switch = (d.ctx j).switch ∧
      ((d.tileEvent n code sev d0 d1).ctx j).changing = (d.ctx j).changing ∧
      ((d.tileEvent n code sev d0 d1).ctx j).runs = (d.ctx j).runs ∧
      ((d.tileEvent n code sev d0 d1).ctx j).runNext = (d.ctx j).runNext ∧
      ((d.tileEvent n code sev d0 d1).ctx j).lines = (d.ctx j).lines ∧
      ((d.tileEvent n code sev d0 d1).ctx j).cplValid = (d.ctx j).cplValid ∧
      ((d.tileEvent n code sev d0 d1).ctx j).shareBase = (d.ctx j).shareBase ∧
      ((d.tileEvent n code sev d0 d1).ctx j).shareCarry = (d.ctx j).shareCarry ∧
      ((d.tileEvent n code sev d0 d1).ctx j).shareSpan = (d.ctx j).shareSpan ∧
      ((d.tileEvent n code sev d0 d1).ctx j).collClosed = (d.ctx j).collClosed ∧
      ((d.tileEvent n code sev d0 d1).ctx j).collDone = (d.ctx j).collDone ∧
      ((d.tileEvent n code sev d0 d1).ctx j).collFail = (d.ctx j).collFail ∧
      ((d.tileEvent n code sev d0 d1).ctx j).pipe = (d.ctx j).pipe ∧
      ((d.tileEvent n code sev d0 d1).ctx j).prot = (d.ctx j).prot ∧
      ((d.tileEvent n code sev d0 d1).ctx j).log = (d.ctx j).log ∧
      ((d.tileEvent n code sev d0 d1).ctx j).window = (d.ctx j).window :=
  ctxSans_fields (event_ctx d (d.ownerOf n).toList code sev d0 d1 n j)
@[simp] theorem Dev.dieEvent_fields (d : Dev) (i code sev d0 d1 : Nat) :
      (d.dieEvent i code sev d0 d1).regs = d.regs ∧
      (d.dieEvent i code sev d0 d1).reqs = d.reqs ∧
      (d.dieEvent i code sev d0 d1).fuses = d.fuses ∧
      (d.dieEvent i code sev d0 d1).bringUp = d.bringUp ∧
      (d.dieEvent i code sev d0 d1).outcome = d.outcome ∧
      (d.dieEvent i code sev d0 d1).role = d.role ∧
      (d.dieEvent i code sev d0 d1).iaPresent = d.iaPresent ∧
      (d.dieEvent i code sev d0 d1).ibPresent = d.ibPresent ∧
      (d.dieEvent i code sev d0 d1).fenced = d.fenced ∧
      (d.dieEvent i code sev d0 d1).fenceCause = d.fenceCause ∧
      (d.dieEvent i code sev d0 d1).idModeNow = d.idModeNow ∧
      (d.dieEvent i code sev d0 d1).idModeNext = d.idModeNext ∧
      (d.dieEvent i code sev d0 d1).negGen = d.negGen ∧
      (d.dieEvent i code sev d0 d1).iodGen = d.iodGen ∧
      (d.dieEvent i code sev d0 d1).cmpGen = d.cmpGen ∧
      (d.dieEvent i code sev d0 d1).negCaps = d.negCaps ∧
      (d.dieEvent i code sev d0 d1).dies = d.dies ∧
      (d.dieEvent i code sev d0 d1).modules = d.modules ∧
      (d.dieEvent i code sev d0 d1).ctlModule = d.ctlModule ∧
      (d.dieEvent i code sev d0 d1).stopped = d.stopped ∧
      (d.dieEvent i code sev d0 d1).onAlternate = d.onAlternate ∧
      (d.dieEvent i code sev d0 d1).tiles = d.tiles ∧
      (d.dieEvent i code sev d0 d1).hbm = d.hbm ∧
      (d.dieEvent i code sev d0 d1).pages = d.pages ∧
      (d.dieEvent i code sev d0 d1).badBursts = d.badBursts ∧
      (d.dieEvent i code sev d0 d1).strata = d.strata ∧
      (d.dieEvent i code sev d0 d1).ports = d.ports ∧
      (d.dieEvent i code sev d0 d1).nextTag = d.nextTag ∧
      (d.dieEvent i code sev d0 d1).nextBulk = d.nextBulk ∧
      (d.dieEvent i code sev d0 d1).localOut = d.localOut ∧
      (d.dieEvent i code sev d0 d1).inbox = d.inbox ∧
      (d.dieEvent i code sev d0 d1).inGroups = d.inGroups ∧
      (d.dieEvent i code sev d0 d1).outGroups = d.outGroups ∧
      (d.dieEvent i code sev d0 d1).pushes = d.pushes ∧
      (d.dieEvent i code sev d0 d1).bridges = d.bridges ∧
      (d.dieEvent i code sev d0 d1).lode = d.lode ∧
      (d.dieEvent i code sev d0 d1).cairns = d.cairns ∧
      (d.dieEvent i code sev d0 d1).openings = d.openings ∧
      (d.dieEvent i code sev d0 d1).repeats = d.repeats ∧
      (d.dieEvent i code sev d0 d1).admin = d.admin ∧
      (d.dieEvent i code sev d0 d1).directory = d.directory ∧
      (d.dieEvent i code sev d0 d1).waiting = d.waiting ∧
      (d.dieEvent i code sev d0 d1).snoops = d.snoops ∧
      (d.dieEvent i code sev d0 d1).ras = d.ras ∧
      (d.dieEvent i code sev d0 d1).sec = d.sec ∧
      (d.dieEvent i code sev d0 d1).pwr = d.pwr ∧
      (d.dieEvent i code sev d0 d1).free = d.free ∧
      (d.dieEvent i code sev d0 d1).stores = d.stores ∧
      (d.dieEvent i code sev d0 d1).wipes = d.wipes :=
  sansEvents_fields (event_sansEvents d [] code sev d0 d1 (0x40 + i))
@[simp] theorem Dev.dieEvent_reads (d : Dev) (i code sev d0 d1 : Nat) :
      (∀ q0, (d.dieEvent i code sev d0 d1).reg q0 = d.reg q0) ∧
      (∀ q0 q1 q2, (d.dieEvent i code sev d0 d1).rf q0 q1 q2 = d.rf q0 q1 q2) ∧
      (∀ q0 q1, (d.dieEvent i code sev d0 d1).rb q0 q1 = d.rb q0 q1) ∧
      (∀ q0, (d.dieEvent i code sev d0 d1).tile q0 = d.tile q0) ∧
      (∀ q0, (d.dieEvent i code sev d0 d1).die q0 = d.die q0) ∧
      (∀ q0, (d.dieEvent i code sev d0 d1).port q0 = d.port q0) ∧
      (∀ q0, (d.dieEvent i code sev d0 d1).stack q0 = d.stack q0) ∧
      (∀ q0, (d.dieEvent i code sev d0 d1).req q0 = d.req q0) ∧
      (∀ q0, (d.dieEvent i code sev d0 d1).lost q0 = d.lost q0) ∧
      (∀ q0 q1, (d.dieEvent i code sev d0 d1).module q0 q1 = d.module q0 q1) ∧
      (∀ q0 q1, (d.dieEvent i code sev d0 d1).cairn q0 q1 = d.cairn q0 q1) ∧
      ((d.dieEvent i code sev d0 d1).now = d.now) :=
  sansEvents_reads (event_sansEvents d [] code sev d0 d1 (0x40 + i))
@[simp] theorem Ctx.dieEvent_fields (d : Dev) (i code sev d0 d1 : Nat) (j : Nat) :
      ((d.dieEvent i code sev d0 d1).ctx j).state = (d.ctx j).state ∧
      ((d.dieEvent i code sev d0 d1).ctx j).gen = (d.ctx j).gen ∧
      ((d.dieEvent i code sev d0 d1).ctx j).tileMask = (d.ctx j).tileMask ∧
      ((d.dieEvent i code sev d0 d1).ctx j).hostMask = (d.ctx j).hostMask ∧
      ((d.dieEvent i code sev d0 d1).ctx j).initPhase = (d.ctx j).initPhase ∧
      ((d.dieEvent i code sev d0 d1).ctx j).port = (d.ctx j).port ∧
      ((d.dieEvent i code sev d0 d1).ctx j).hostId = (d.ctx j).hostId ∧
      ((d.dieEvent i code sev d0 d1).ctx j).tdCause = (d.ctx j).tdCause ∧
      ((d.dieEvent i code sev d0 d1).ctx j).phase = (d.ctx j).phase ∧
      ((d.dieEvent i code sev d0 d1).ctx j).switch = (d.ctx j).switch ∧
      ((d.dieEvent i code sev d0 d1).ctx j).changing = (d.ctx j).changing ∧
      ((d.dieEvent i code sev d0 d1).ctx j).runs = (d.ctx j).runs ∧
      ((d.dieEvent i code sev d0 d1).ctx j).runNext = (d.ctx j).runNext ∧
      ((d.dieEvent i code sev d0 d1).ctx j).lines = (d.ctx j).lines ∧
      ((d.dieEvent i code sev d0 d1).ctx j).cplValid = (d.ctx j).cplValid ∧
      ((d.dieEvent i code sev d0 d1).ctx j).shareBase = (d.ctx j).shareBase ∧
      ((d.dieEvent i code sev d0 d1).ctx j).shareCarry = (d.ctx j).shareCarry ∧
      ((d.dieEvent i code sev d0 d1).ctx j).shareSpan = (d.ctx j).shareSpan ∧
      ((d.dieEvent i code sev d0 d1).ctx j).collClosed = (d.ctx j).collClosed ∧
      ((d.dieEvent i code sev d0 d1).ctx j).collDone = (d.ctx j).collDone ∧
      ((d.dieEvent i code sev d0 d1).ctx j).collFail = (d.ctx j).collFail ∧
      ((d.dieEvent i code sev d0 d1).ctx j).pipe = (d.ctx j).pipe ∧
      ((d.dieEvent i code sev d0 d1).ctx j).prot = (d.ctx j).prot ∧
      ((d.dieEvent i code sev d0 d1).ctx j).log = (d.ctx j).log ∧
      ((d.dieEvent i code sev d0 d1).ctx j).window = (d.ctx j).window :=
  ctxSans_fields (event_ctx d [] code sev d0 d1 (0x40 + i) j)
@[simp] theorem Dev.pkgEvent_fields (d : Dev) (code sev d0 d1 : Nat) :
      (d.pkgEvent code sev d0 d1).regs = d.regs ∧
      (d.pkgEvent code sev d0 d1).reqs = d.reqs ∧
      (d.pkgEvent code sev d0 d1).fuses = d.fuses ∧
      (d.pkgEvent code sev d0 d1).bringUp = d.bringUp ∧
      (d.pkgEvent code sev d0 d1).outcome = d.outcome ∧
      (d.pkgEvent code sev d0 d1).role = d.role ∧
      (d.pkgEvent code sev d0 d1).iaPresent = d.iaPresent ∧
      (d.pkgEvent code sev d0 d1).ibPresent = d.ibPresent ∧
      (d.pkgEvent code sev d0 d1).fenced = d.fenced ∧
      (d.pkgEvent code sev d0 d1).fenceCause = d.fenceCause ∧
      (d.pkgEvent code sev d0 d1).idModeNow = d.idModeNow ∧
      (d.pkgEvent code sev d0 d1).idModeNext = d.idModeNext ∧
      (d.pkgEvent code sev d0 d1).negGen = d.negGen ∧
      (d.pkgEvent code sev d0 d1).iodGen = d.iodGen ∧
      (d.pkgEvent code sev d0 d1).cmpGen = d.cmpGen ∧
      (d.pkgEvent code sev d0 d1).negCaps = d.negCaps ∧
      (d.pkgEvent code sev d0 d1).dies = d.dies ∧
      (d.pkgEvent code sev d0 d1).modules = d.modules ∧
      (d.pkgEvent code sev d0 d1).ctlModule = d.ctlModule ∧
      (d.pkgEvent code sev d0 d1).stopped = d.stopped ∧
      (d.pkgEvent code sev d0 d1).onAlternate = d.onAlternate ∧
      (d.pkgEvent code sev d0 d1).tiles = d.tiles ∧
      (d.pkgEvent code sev d0 d1).hbm = d.hbm ∧
      (d.pkgEvent code sev d0 d1).pages = d.pages ∧
      (d.pkgEvent code sev d0 d1).badBursts = d.badBursts ∧
      (d.pkgEvent code sev d0 d1).strata = d.strata ∧
      (d.pkgEvent code sev d0 d1).ports = d.ports ∧
      (d.pkgEvent code sev d0 d1).nextTag = d.nextTag ∧
      (d.pkgEvent code sev d0 d1).nextBulk = d.nextBulk ∧
      (d.pkgEvent code sev d0 d1).localOut = d.localOut ∧
      (d.pkgEvent code sev d0 d1).inbox = d.inbox ∧
      (d.pkgEvent code sev d0 d1).inGroups = d.inGroups ∧
      (d.pkgEvent code sev d0 d1).outGroups = d.outGroups ∧
      (d.pkgEvent code sev d0 d1).pushes = d.pushes ∧
      (d.pkgEvent code sev d0 d1).bridges = d.bridges ∧
      (d.pkgEvent code sev d0 d1).lode = d.lode ∧
      (d.pkgEvent code sev d0 d1).cairns = d.cairns ∧
      (d.pkgEvent code sev d0 d1).openings = d.openings ∧
      (d.pkgEvent code sev d0 d1).repeats = d.repeats ∧
      (d.pkgEvent code sev d0 d1).admin = d.admin ∧
      (d.pkgEvent code sev d0 d1).directory = d.directory ∧
      (d.pkgEvent code sev d0 d1).waiting = d.waiting ∧
      (d.pkgEvent code sev d0 d1).snoops = d.snoops ∧
      (d.pkgEvent code sev d0 d1).ras = d.ras ∧
      (d.pkgEvent code sev d0 d1).sec = d.sec ∧
      (d.pkgEvent code sev d0 d1).pwr = d.pwr ∧
      (d.pkgEvent code sev d0 d1).free = d.free ∧
      (d.pkgEvent code sev d0 d1).stores = d.stores ∧
      (d.pkgEvent code sev d0 d1).wipes = d.wipes :=
  sansEvents_fields (event_sansEvents d [] code sev d0 d1 0)
@[simp] theorem Dev.pkgEvent_reads (d : Dev) (code sev d0 d1 : Nat) :
      (∀ q0, (d.pkgEvent code sev d0 d1).reg q0 = d.reg q0) ∧
      (∀ q0 q1 q2, (d.pkgEvent code sev d0 d1).rf q0 q1 q2 = d.rf q0 q1 q2) ∧
      (∀ q0 q1, (d.pkgEvent code sev d0 d1).rb q0 q1 = d.rb q0 q1) ∧
      (∀ q0, (d.pkgEvent code sev d0 d1).tile q0 = d.tile q0) ∧
      (∀ q0, (d.pkgEvent code sev d0 d1).die q0 = d.die q0) ∧
      (∀ q0, (d.pkgEvent code sev d0 d1).port q0 = d.port q0) ∧
      (∀ q0, (d.pkgEvent code sev d0 d1).stack q0 = d.stack q0) ∧
      (∀ q0, (d.pkgEvent code sev d0 d1).req q0 = d.req q0) ∧
      (∀ q0, (d.pkgEvent code sev d0 d1).lost q0 = d.lost q0) ∧
      (∀ q0 q1, (d.pkgEvent code sev d0 d1).module q0 q1 = d.module q0 q1) ∧
      (∀ q0 q1, (d.pkgEvent code sev d0 d1).cairn q0 q1 = d.cairn q0 q1) ∧
      ((d.pkgEvent code sev d0 d1).now = d.now) :=
  sansEvents_reads (event_sansEvents d [] code sev d0 d1 0)
@[simp] theorem Ctx.pkgEvent_fields (d : Dev) (code sev d0 d1 : Nat) (j : Nat) :
      ((d.pkgEvent code sev d0 d1).ctx j).state = (d.ctx j).state ∧
      ((d.pkgEvent code sev d0 d1).ctx j).gen = (d.ctx j).gen ∧
      ((d.pkgEvent code sev d0 d1).ctx j).tileMask = (d.ctx j).tileMask ∧
      ((d.pkgEvent code sev d0 d1).ctx j).hostMask = (d.ctx j).hostMask ∧
      ((d.pkgEvent code sev d0 d1).ctx j).initPhase = (d.ctx j).initPhase ∧
      ((d.pkgEvent code sev d0 d1).ctx j).port = (d.ctx j).port ∧
      ((d.pkgEvent code sev d0 d1).ctx j).hostId = (d.ctx j).hostId ∧
      ((d.pkgEvent code sev d0 d1).ctx j).tdCause = (d.ctx j).tdCause ∧
      ((d.pkgEvent code sev d0 d1).ctx j).phase = (d.ctx j).phase ∧
      ((d.pkgEvent code sev d0 d1).ctx j).switch = (d.ctx j).switch ∧
      ((d.pkgEvent code sev d0 d1).ctx j).changing = (d.ctx j).changing ∧
      ((d.pkgEvent code sev d0 d1).ctx j).runs = (d.ctx j).runs ∧
      ((d.pkgEvent code sev d0 d1).ctx j).runNext = (d.ctx j).runNext ∧
      ((d.pkgEvent code sev d0 d1).ctx j).lines = (d.ctx j).lines ∧
      ((d.pkgEvent code sev d0 d1).ctx j).cplValid = (d.ctx j).cplValid ∧
      ((d.pkgEvent code sev d0 d1).ctx j).shareBase = (d.ctx j).shareBase ∧
      ((d.pkgEvent code sev d0 d1).ctx j).shareCarry = (d.ctx j).shareCarry ∧
      ((d.pkgEvent code sev d0 d1).ctx j).shareSpan = (d.ctx j).shareSpan ∧
      ((d.pkgEvent code sev d0 d1).ctx j).collClosed = (d.ctx j).collClosed ∧
      ((d.pkgEvent code sev d0 d1).ctx j).collDone = (d.ctx j).collDone ∧
      ((d.pkgEvent code sev d0 d1).ctx j).collFail = (d.ctx j).collFail ∧
      ((d.pkgEvent code sev d0 d1).ctx j).pipe = (d.ctx j).pipe ∧
      ((d.pkgEvent code sev d0 d1).ctx j).prot = (d.ctx j).prot ∧
      ((d.pkgEvent code sev d0 d1).ctx j).log = (d.ctx j).log ∧
      ((d.pkgEvent code sev d0 d1).ctx j).window = (d.ctx j).window :=
  ctxSans_fields (event_ctx d [] code sev d0 d1 0 j)

end Sys2Proof.Machine
end

