-- ==== Sys2Proof/Laws/Exec.lean ====
section
/-! SUPPORT. The meaning of each command by name, so that a proof about one command never unfolds `exec`; one step. -/

namespace Sys2Proof.Machine

@[simp] theorem exec_coldStart (o : BringUpOutcome) (s : State) : exec (.coldStart o) s = execColdStart o s := rfl
@[simp] theorem exec_pkgResetLow (s : State) : exec (.pkgResetLow) s = execPkgResetLow s := rfl
@[simp] theorem exec_mirrorWaitExpiry (s : State) : exec (.mirrorWaitExpiry) s = execMirrorWaitExpiry s := rfl
@[simp] theorem exec_d2dCellReceive (m : D2dId) (atHigh : Bool) (cell : BitVec 640) (s : State) : exec (.d2dCellReceive m atHigh cell) s = execD2dCellReceive m atHigh cell s := rfl
@[simp] theorem exec_d2dCellSend (m : D2dId) (fromHigh : Bool) (q : CellRequest) (s : State) : exec (.d2dCellSend m fromHigh q) s = execD2dCellSend m fromHigh q s := rfl
@[simp] theorem exec_d2dLaneParityError (m : D2dId) (up : Bool) (lane : Fin 68) (lockLost : Bool) (s : State) : exec (.d2dLaneParityError m up lane lockLost) s = execD2dLaneParityError m up lane lockLost s := rfl
@[simp] theorem exec_d2dHeartbeatTimeout (link : Fin 8) (d : Fin 6) (s : State) : exec (.d2dHeartbeatTimeout link d) s = execD2dHeartbeatTimeout link d s := rfl
@[simp] theorem exec_d2dForwardedClockLoss (link : Fin 8) (d : Fin 6) (s : State) : exec (.d2dForwardedClockLoss link d) s = execD2dForwardedClockLoss link d s := rfl
@[simp] theorem exec_refClockInterrupt (d : Fin 6) (s : State) : exec (.refClockInterrupt d) s = execRefClockInterrupt d s := rfl
@[simp] theorem exec_refClockRestore (d : Fin 6) (ns : BitVec 32) (s : State) : exec (.refClockRestore d ns) s = execRefClockRestore d ns s := rfl
@[simp] theorem exec_clockLost (d : Fin 6) (s : State) : exec (.clockLost d) s = execClockLost d s := rfl
@[simp] theorem exec_pllLockLoss (d : Fin 6) (s : State) : exec (.pllLockLoss d) s = execPllLockLoss d s := rfl
@[simp] theorem exec_descLoadB (t : Fin 64) (s : State) : exec (.descLoadB t) s = execDescLoadB t s := rfl
@[simp] theorem exec_descPass (t : Fin 64) (s : State) : exec (.descPass t) s = execDescPass t s := rfl
@[simp] theorem exec_descOutput (t : Fin 64) (s : State) : exec (.descOutput t) s = execDescOutput t s := rfl
@[simp] theorem exec_descNop (t : Fin 64) (s : State) : exec (.descNop t) s = execDescNop t s := rfl
@[simp] theorem exec_bankLoadComplete (t : Fin 64) (e : WordErrors) (s : State) : exec (.bankLoadComplete t e) s = execBankLoadComplete t e s := rfl
@[simp] theorem exec_blockBroadcast (t : Fin 64) (e : WordErrors) (s : State) : exec (.blockBroadcast t e) s = execBlockBroadcast t e s := rfl
@[simp] theorem exec_setWrite (t : Fin 64) (s : State) : exec (.setWrite t) s = execSetWrite t s := rfl
@[simp] theorem exec_residueMismatch (t : Fin 64) (block : Nat) (dpus : List (Fin 32 × Fin 32)) (s : State) : exec (.residueMismatch t block dpus) s = execResidueMismatch t block dpus s := rfl
@[simp] theorem exec_residueReplayFail (t : Fin 64) (block : Nat) (dpus : List (Fin 32 × Fin 32)) (s : State) : exec (.residueReplayFail t block dpus) s = execResidueReplayFail t block dpus s := rfl
@[simp] theorem exec_setDrain (t : Fin 64) (s : State) : exec (.setDrain t) s = execSetDrain t s := rfl
@[simp] theorem exec_setDrainComplete (t : Fin 64) (s : State) : exec (.setDrainComplete t) s = execSetDrainComplete t s := rfl
@[simp] theorem exec_tileColForceWrite (r : Requester) (t : Fin 64) (v : BitVec 32) (s : State) : exec (.tileColForceWrite r t v) s = execTileColForceWrite r t v s := rfl
@[simp] theorem exec_keeperDummyBroadcast (t : Fin 64) (s : State) : exec (.keeperDummyBroadcast t) s = execKeeperDummyBroadcast t s := rfl
@[simp] theorem exec_keeperFillMaxExpiry (t : Fin 64) (s : State) : exec (.keeperFillMaxExpiry t) s = execKeeperFillMaxExpiry t s := rfl
@[simp] theorem exec_keeperRampIntervalEnd (t : Fin 64) (s : State) : exec (.keeperRampIntervalEnd t) s = execKeeperRampIntervalEnd t s := rfl
@[simp] theorem exec_tileKeeperWrite (r : Requester) (q : Fin 4) (v : BitVec 32) (s : State) : exec (.tileKeeperWrite r q v) s = execTileKeeperWrite r q v s := rfl
@[simp] theorem exec_tileConvCtrlWrite (r : Requester) (c : Fin 64) (t : Fin 64) (v : BitVec 32) (s : State) : exec (.tileConvCtrlWrite r c t v) s = execTileConvCtrlWrite r c t v s := rfl
@[simp] theorem exec_vecNop (t : Fin 64) (s : State) : exec (.vecNop t) s = execVecNop t s := rfl
@[simp] theorem exec_vecLd (t : Fin 64) (e : WordErrors) (s : State) : exec (.vecLd t e) s = execVecLd t e s := rfl
@[simp] theorem exec_vecSt (t : Fin 64) (s : State) : exec (.vecSt t) s = execVecSt t s := rfl
@[simp] theorem exec_vecLayout (t : Fin 64) (s : State) : exec (.vecLayout t) s = execVecLayout t s := rfl
@[simp] theorem exec_vecKey (t : Fin 64) (s : State) : exec (.vecKey t) s = execVecKey t s := rfl
@[simp] theorem exec_vecSig (t : Fin 64) (s : State) : exec (.vecSig t) s = execVecSig t s := rfl
@[simp] theorem exec_vecWait (t : Fin 64) (s : State) : exec (.vecWait t) s = execVecWait t s := rfl
@[simp] theorem exec_vecAdd (t : Fin 64) (s : State) : exec (.vecAdd t) s = execVecAdd t s := rfl
@[simp] theorem exec_vecSub (t : Fin 64) (s : State) : exec (.vecSub t) s = execVecSub t s := rfl
@[simp] theorem exec_vecMul (t : Fin 64) (s : State) : exec (.vecMul t) s = execVecMul t s := rfl
@[simp] theorem exec_vecFma (t : Fin 64) (s : State) : exec (.vecFma t) s = execVecFma t s := rfl
@[simp] theorem exec_vecMax (t : Fin 64) (s : State) : exec (.vecMax t) s = execVecMax t s := rfl
@[simp] theorem exec_vecMin (t : Fin 64) (s : State) : exec (.vecMin t) s = execVecMin t s := rfl
@[simp] theorem exec_vecSel (t : Fin 64) (s : State) : exec (.vecSel t) s = execVecSel t s := rfl
@[simp] theorem exec_vecCmplt (t : Fin 64) (s : State) : exec (.vecCmplt t) s = execVecCmplt t s := rfl
@[simp] theorem exec_vecExp2 (t : Fin 64) (s : State) : exec (.vecExp2 t) s = execVecExp2 t s := rfl
@[simp] theorem exec_vecLog2 (t : Fin 64) (s : State) : exec (.vecLog2 t) s = execVecLog2 t s := rfl
@[simp] theorem exec_vecRcp (t : Fin 64) (s : State) : exec (.vecRcp t) s = execVecRcp t s := rfl
@[simp] theorem exec_vecRsqrt (t : Fin 64) (s : State) : exec (.vecRsqrt t) s = execVecRsqrt t s := rfl
@[simp] theorem exec_vecRsum (t : Fin 64) (s : State) : exec (.vecRsum t) s = execVecRsum t s := rfl
@[simp] theorem exec_vecRssq (t : Fin 64) (s : State) : exec (.vecRssq t) s = execVecRssq t s := rfl
@[simp] theorem exec_vecRmax (t : Fin 64) (s : State) : exec (.vecRmax t) s = execVecRmax t s := rfl
@[simp] theorem exec_vecRfin (t : Fin 64) (s : State) : exec (.vecRfin t) s = execVecRfin t s := rfl
@[simp] theorem exec_vecBcast (t : Fin 64) (s : State) : exec (.vecBcast t) s = execVecBcast t s := rfl
@[simp] theorem exec_vecTpose (t : Fin 64) (s : State) : exec (.vecTpose t) s = execVecTpose t s := rfl
@[simp] theorem exec_vecGord (t : Fin 64) (s : State) : exec (.vecGord t) s = execVecGord t s := rfl
@[simp] theorem exec_vecGadv (t : Fin 64) (s : State) : exec (.vecGadv t) s = execVecGadv t s := rfl
@[simp] theorem exec_ctxShareConsWrite (r : Requester) (c : Fin 64) (v : BitVec 32) (s : State) : exec (.ctxShareConsWrite r c v) s = execCtxShareConsWrite r c v s := rfl
@[simp] theorem exec_strataLoad (r : Requester) (mgmtBus : Bool) (s : State) : exec (.strataLoad r mgmtBus) s = execStrataLoad r mgmtBus s := rfl
@[simp] theorem exec_strataDiscard (r : Requester) (s : State) : exec (.strataDiscard r) s = execStrataDiscard r s := rfl
@[simp] theorem exec_strataActivate (r : Requester) (s : State) : exec (.strataActivate r) s = execStrataActivate r s := rfl
@[simp] theorem exec_strataRevert (r : Requester) (s : State) : exec (.strataRevert r) s = execStrataRevert r s := rfl
@[simp] theorem exec_strataGroupApply (r : Requester) (s : State) : exec (.strataGroupApply r) s = execStrataGroupApply r s := rfl
@[simp] theorem exec_strataFwCommit (r : Requester) (s : State) : exec (.strataFwCommit r) s = execStrataFwCommit r s := rfl
@[simp] theorem exec_strataCancel (r : Requester) (s : State) : exec (.strataCancel r) s = execStrataCancel r s := rfl
@[simp] theorem exec_strataFetchComplete (img : Option (List Byte)) (s : State) : exec (.strataFetchComplete img) s = execStrataFetchComplete img s := rfl
@[simp] theorem exec_strataValidationComplete (s : State) : exec (.strataValidationComplete) s = execStrataValidationComplete s := rfl
@[simp] theorem exec_activationSwap (bad : Option (BitVec 40)) (s : State) : exec (.activationSwap bad) s = execActivationSwap bad s := rfl
@[simp] theorem exec_firmwareLoad (kind : Fin 5) (s : State) : exec (.firmwareLoad kind) s = execFirmwareLoad kind s := rfl
@[simp] theorem exec_shadowLoadComplete (c : Fin 64) (s : State) : exec (.shadowLoadComplete c) s = execShadowLoadComplete c s := rfl
@[simp] theorem exec_phaseSwap (c : Fin 64) (s : State) : exec (.phaseSwap c) s = execPhaseSwap c s := rfl
@[simp] theorem exec_phaseSwitchLate (c : Fin 64) (s : State) : exec (.phaseSwitchLate c) s = execPhaseSwitchLate c s := rfl
@[simp] theorem exec_hbmRead (c : Fin 64) (off : BitVec 40) (err : BitVec 304) (s : State) : exec (.hbmRead c off err) s = execHbmRead c off err s := rfl
@[simp] theorem exec_hbmWrite (c : Fin 64) (off : BitVec 40) (data : List Byte) (err : BitVec 304) (s : State) : exec (.hbmWrite c off data err) s = execHbmWrite c off data err s := rfl
@[simp] theorem exec_gatherComplete (t : Fin 64) (n : BitVec 32) (s : State) : exec (.gatherComplete t n) s = execGatherComplete t n s := rfl
@[simp] theorem exec_scratchpadScrub (t : Fin 64) (row : Fin 8192) (e : WordErrors) (s : State) : exec (.scratchpadScrub t row e) s = execScratchpadScrub t row e s := rfl
@[simp] theorem exec_scratchpadClearComplete (t : Fin 64) (s : State) : exec (.scratchpadClearComplete t) s = execScratchpadClearComplete t s := rfl
@[simp] theorem exec_moverWake (t : Fin 64) (s : State) : exec (.moverWake t) s = execMoverWake t s := rfl
@[simp] theorem exec_moveCopy (t : Fin 64) (s : State) : exec (.moveCopy t) s = execMoveCopy t s := rfl
@[simp] theorem exec_moveFill (t : Fin 64) (s : State) : exec (.moveFill t) s = execMoveFill t s := rfl
@[simp] theorem exec_moveGather (t : Fin 64) (s : State) : exec (.moveGather t) s = execMoveGather t s := rfl
@[simp] theorem exec_moveEntryComplete (t : Fin 64) (n : BitVec 32) (s : State) : exec (.moveEntryComplete t n) s = execMoveEntryComplete t n s := rfl
@[simp] theorem exec_softRepair (off : BitVec 40) (resource : Bool) (s : State) : exec (.softRepair off resource) s = execSoftRepair off resource s := rfl
@[simp] theorem exec_hbmScrub (off : BitVec 40) (err : BitVec 304) (s : State) : exec (.hbmScrub off err) s = execHbmScrub off err s := rfl
@[simp] theorem exec_memRetireForceWrite (r : Requester) (q : Fin 4) (v : BitVec 32) (s : State) : exec (.memRetireForceWrite r q v) s = execMemRetireForceWrite r q v s := rfl
@[simp] theorem exec_pageZeroed (page : Fin 524288) (s : State) : exec (.pageZeroed page) s = execPageZeroed page s := rfl
@[simp] theorem exec_codewordReceive (p : Fin 8) (o : FecOutcome) (s : State) : exec (.codewordReceive p o) s = execCodewordReceive p o s := rfl
@[simp] theorem exec_flitAckTimeout (p : Fin 8) (s : State) : exec (.flitAckTimeout p) s = execFlitAckTimeout p s := rfl
@[simp] theorem exec_tsParam (p : Fin 8) (body : BitVec 512) (s : State) : exec (.tsParam p body) s = execTsParam p body s := rfl
@[simp] theorem exec_tsRtt (p : Fin 8) (body : BitVec 512) (recv : BitVec 64) (s : State) : exec (.tsRtt p body recv) s = execTsRtt p body recv s := rfl
@[simp] theorem exec_laneSwap (p : Fin 8) (body : BitVec 512) (s : State) : exec (.laneSwap p body) s = execLaneSwap p body s := rfl
@[simp] theorem exec_narrow (p : Fin 8) (body : BitVec 512) (s : State) : exec (.narrow p body) s = execNarrow p body s := rfl
@[simp] theorem exec_creditInit (p : Fin 8) (body : BitVec 512) (s : State) : exec (.creditInit p body) s = execCreditInit p body s := rfl
@[simp] theorem exec_linkRetrain (p : Fin 8) (body : BitVec 512) (s : State) : exec (.linkRetrain p body) s = execLinkRetrain p body s := rfl
@[simp] theorem exec_keyReady (p : Fin 8) (body : BitVec 512) (s : State) : exec (.keyReady p body) s = execKeyReady p body s := rfl
@[simp] theorem exec_linkDown (p : Fin 8) (body : BitVec 512) (s : State) : exec (.linkDown p body) s = execLinkDown p body s := rfl
@[simp] theorem exec_portEnable (p : Fin 8) (s : State) : exec (.portEnable p) s = execPortEnable p s := rfl
@[simp] theorem exec_portRetryTimer (p : Fin 8) (s : State) : exec (.portRetryTimer p) s = execPortRetryTimer p s := rfl
@[simp] theorem exec_portStateTimeout (p : Fin 8) (s : State) : exec (.portStateTimeout p) s = execPortStateTimeout p s := rfl
@[simp] theorem exec_pmaTrainDone (p : Fin 8) (rxLanes : BitVec 18) (txLanes : BitVec 18) (s : State) : exec (.pmaTrainDone p rxLanes txLanes) s = execPmaTrainDone p rxLanes txLanes s := rfl
@[simp] theorem exec_laneLockDone (p : Fin 8) (reversed : Bool) (s : State) : exec (.laneLockDone p reversed) s = execLaneLockDone p reversed s := rfl
@[simp] theorem exec_laneLockLoss (p : Fin 8) (lane : Fin 18) (s : State) : exec (.laneLockLoss p lane) s = execLaneLockLoss p lane s := rfl
@[simp] theorem exec_laneSetChange (p : Fin 8) (s : State) : exec (.laneSetChange p) s = execLaneSetChange p s := rfl
@[simp] theorem exec_codewordLockLoss (p : Fin 8) (s : State) : exec (.codewordLockLoss p) s = execCodewordLockLoss p s := rfl
@[simp] theorem exec_flitCtrExhausted (p : Fin 8) (s : State) : exec (.flitCtrExhausted p) s = execFlitCtrExhausted p s := rfl
@[simp] theorem exec_packetRoute (inPort : Option (Fin 8)) (k : Packet) (s : State) : exec (.packetRoute inPort k) s = execPacketRoute inPort k s := rfl
@[simp] theorem exec_fabRd (k : Packet) (s : State) : exec (.fabRd k) s = execFabRd k s := rfl
@[simp] theorem exec_fabWr (k : Packet) (s : State) : exec (.fabWr k) s = execFabWr k s := rfl
@[simp] theorem exec_atomAdd32 (k : Packet) (s : State) : exec (.atomAdd32 k) s = execAtomAdd32 k s := rfl
@[simp] theorem exec_atomAdd64 (k : Packet) (s : State) : exec (.atomAdd64 k) s = execAtomAdd64 k s := rfl
@[simp] theorem exec_atomSwap64 (k : Packet) (s : State) : exec (.atomSwap64 k) s = execAtomSwap64 k s := rfl
@[simp] theorem exec_atomCas64 (k : Packet) (s : State) : exec (.atomCas64 k) s = execAtomCas64 k s := rfl
@[simp] theorem exec_atomAnd64 (k : Packet) (s : State) : exec (.atomAnd64 k) s = execAtomAnd64 k s := rfl
@[simp] theorem exec_atomOr64 (k : Packet) (s : State) : exec (.atomOr64 k) s = execAtomOr64 k s := rfl
@[simp] theorem exec_atomMaxu64 (k : Packet) (s : State) : exec (.atomMaxu64 k) s = execAtomMaxu64 k s := rfl
@[simp] theorem exec_atomGadd128 (k : Packet) (s : State) : exec (.atomGadd128 k) s = execAtomGadd128 k s := rfl
@[simp] theorem exec_fabBwr (k : Packet) (s : State) : exec (.fabBwr k) s = execFabBwr k s := rfl
@[simp] theorem exec_fabBget (k : Packet) (s : State) : exec (.fabBget k) s = execFabBget k s := rfl
@[simp] theorem exec_rdRsp (k : Packet) (s : State) : exec (.rdRsp k) s = execRdRsp k s := rfl
@[simp] theorem exec_wrAck (k : Packet) (s : State) : exec (.wrAck k) s = execWrAck k s := rfl
@[simp] theorem exec_atomRsp (k : Packet) (s : State) : exec (.atomRsp k) s = execAtomRsp k s := rfl
@[simp] theorem exec_bwAck (k : Packet) (s : State) : exec (.bwAck k) s = execBwAck k s := rfl
@[simp] theorem exec_bgetDone (k : Packet) (s : State) : exec (.bgetDone k) s = execBgetDone k s := rfl
@[simp] theorem exec_wprobe (k : Packet) (s : State) : exec (.wprobe k) s = execWprobe k s := rfl
@[simp] theorem exec_wprobeRsp (k : Packet) (s : State) : exec (.wprobeRsp k) s = execWprobeRsp k s := rfl
@[simp] theorem exec_fabRequestTimeout (tag : BitVec 16) (s : State) : exec (.fabRequestTimeout tag) s = execFabRequestTimeout tag s := rfl
@[simp] theorem exec_tagReserveExpiry (tag : BitVec 16) (s : State) : exec (.tagReserveExpiry tag) s = execTagReserveExpiry tag s := rfl
@[simp] theorem exec_bwrGroupRetry (bulk : BitVec 16) (s : State) : exec (.bwrGroupRetry bulk) s = execBwrGroupRetry bulk s := rfl
@[simp] theorem exec_barrierCheck (c : Fin 64) (slot : Fin 64) (s : State) : exec (.barrierCheck c slot) s = execBarrierCheck c slot s := rfl
@[simp] theorem exec_bridgeCell (b : Fin 32) (cell : BitVec 512) (last : Bool) (s : State) : exec (.bridgeCell b cell last) s = execBridgeCell b cell last s := rfl
@[simp] theorem exec_bridgeConsPoll (b : Fin 32) (s : State) : exec (.bridgeConsPoll b) s = execBridgeConsPoll b s := rfl
@[simp] theorem exec_fabPortRetrain (r : Requester) (p : Fin 8) (s : State) : exec (.fabPortRetrain r p) s = execFabPortRetrain r p s := rfl
@[simp] theorem exec_fabPortDisable (r : Requester) (p : Fin 8) (s : State) : exec (.fabPortDisable r p) s = execFabPortDisable r p s := rfl
@[simp] theorem exec_fabPortEnable (r : Requester) (p : Fin 8) (s : State) : exec (.fabPortEnable r p) s = execFabPortEnable r p s := rfl
@[simp] theorem exec_fabNodeWrite (r : Requester) (v : BitVec 32) (s : State) : exec (.fabNodeWrite r v) s = execFabNodeWrite r v s := rfl
@[simp] theorem exec_fabTorusWrite (r : Requester) (v : BitVec 32) (s : State) : exec (.fabTorusWrite r v) s = execFabTorusWrite r v s := rfl
@[simp] theorem exec_lodestoneTick (s : State) : exec (.lodestoneTick) s = execLodestoneTick s := rfl
@[simp] theorem exec_sourceClaim (s : State) : exec (.sourceClaim) s = execSourceClaim s := rfl
@[simp] theorem exec_parentSilenceTimeout (s : State) : exec (.parentSilenceTimeout) s = execParentSilenceTimeout s := rfl
@[simp] theorem exec_holdoverInvalidEnd (s : State) : exec (.holdoverInvalidEnd) s = execHoldoverInvalidEnd s := rfl
@[simp] theorem exec_lodeRebase (s : State) : exec (.lodeRebase) s = execLodeRebase s := rfl
@[simp] theorem exec_lodeResync (r : Requester) (s : State) : exec (.lodeResync r) s = execLodeResync r s := rfl
@[simp] theorem exec_lodeRebaseAny (r : Requester) (s : State) : exec (.lodeRebaseAny r) s = execLodeRebaseAny r s := rfl
@[simp] theorem exec_lodeCtrlWrite (r : Requester) (v : BitVec 32) (s : State) : exec (.lodeCtrlWrite r v) s = execLodeCtrlWrite r v s := rfl
@[simp] theorem exec_cairnArm (r : Requester) (c : Fin 64) (slot : Fin 64) (v : BitVec 32) (s : State) : exec (.cairnArm r c slot v) s = execCairnArm r c slot v s := rfl
@[simp] theorem exec_cairnCancel (r : Requester) (c : Fin 64) (slot : Fin 64) (s : State) : exec (.cairnCancel r c slot) s = execCairnCancel r c slot s := rfl
@[simp] theorem exec_healthWindowEnd (c : Fin 64) (s : State) : exec (.healthWindowEnd c) s = execHealthWindowEnd c s := rfl
@[simp] theorem exec_readyPoll (c : Fin 64) (id : BitVec 16) (s : State) : exec (.readyPoll c id) s = execReadyPoll c id s := rfl
@[simp] theorem exec_bucketScanComplete (c : Fin 64) (id : BitVec 16) (s : State) : exec (.bucketScanComplete c id) s = execBucketScanComplete c id s := rfl
@[simp] theorem exec_bucketClose (c : Fin 64) (id : BitVec 16) (s : State) : exec (.bucketClose c id) s = execBucketClose c id s := rfl
@[simp] theorem exec_collReport (k : Packet) (s : State) : exec (.collReport k) s = execCollReport k s := rfl
@[simp] theorem exec_collClose (k : Packet) (s : State) : exec (.collClose k) s = execCollClose k s := rfl
@[simp] theorem exec_collData (k : Packet) (s : State) : exec (.collData k) s = execCollData k s := rfl
@[simp] theorem exec_collResult (k : Packet) (s : State) : exec (.collResult k) s = execCollResult k s := rfl
@[simp] theorem exec_collShardDone (k : Packet) (s : State) : exec (.collShardDone k) s = execCollShardDone k s := rfl
@[simp] theorem exec_collResend (k : Packet) (s : State) : exec (.collResend k) s = execCollResend k s := rfl
@[simp] theorem exec_collGo (k : Packet) (s : State) : exec (.collGo k) s = execCollGo k s := rfl
@[simp] theorem exec_collPdone (k : Packet) (s : State) : exec (.collPdone k) s = execCollPdone k s := rfl
@[simp] theorem exec_collAbort (k : Packet) (s : State) : exec (.collAbort k) s = execCollAbort k s := rfl
@[simp] theorem exec_tokxCount (k : Packet) (s : State) : exec (.tokxCount k) s = execTokxCount k s := rfl
@[simp] theorem exec_tokxOffset (k : Packet) (s : State) : exec (.tokxOffset k) s = execTokxOffset k s := rfl
@[simp] theorem exec_tokxDone (k : Packet) (s : State) : exec (.tokxDone k) s = execTokxDone k s := rfl
@[simp] theorem exec_tokxUseStart (c : Fin 64) (id : BitVec 16) (s : State) : exec (.tokxUseStart c id) s = execTokxUseStart c id s := rfl
@[simp] theorem exec_permuteRoundReadComplete (c : Fin 64) (id : BitVec 16) (s : State) : exec (.permuteRoundReadComplete c id) s = execPermuteRoundReadComplete c id s := rfl
@[simp] theorem exec_resendTimer (c : Fin 64) (id : BitVec 16) (s : State) : exec (.resendTimer c id) s = execResendTimer c id s := rfl
@[simp] theorem exec_dataLimitExpiry (c : Fin 64) (id : BitVec 16) (s : State) : exec (.dataLimitExpiry c id) s = execDataLimitExpiry c id s := rfl
@[simp] theorem exec_wordFree (c : Fin 64) (id : BitVec 16) (seq : BitVec 16) (s : State) : exec (.wordFree c id seq) s = execWordFree c id seq s := rfl
@[simp] theorem exec_controlPacketRepeat (s : State) : exec (.controlPacketRepeat) s = execControlPacketRepeat s := rfl
@[simp] theorem exec_ringPoll (c : Fin 64) (vs : Fin 8) (s : State) : exec (.ringPoll c vs) s = execRingPoll c vs s := rfl
@[simp] theorem exec_forwardItem (c : Fin 64) (vs : Fin 8) (s : State) : exec (.forwardItem c vs) s = execForwardItem c vs s := rfl
@[simp] theorem exec_backwardItem (c : Fin 64) (vs : Fin 8) (s : State) : exec (.backwardItem c vs) s = execBackwardItem c vs s := rfl
@[simp] theorem exec_recomputeItem (c : Fin 64) (vs : Fin 8) (s : State) : exec (.recomputeItem c vs) s = execRecomputeItem c vs s := rfl
@[simp] theorem exec_updateItem (c : Fin 64) (vs : Fin 8) (s : State) : exec (.updateItem c vs) s = execUpdateItem c vs s := rfl
@[simp] theorem exec_mirrorItem (c : Fin 64) (vs : Fin 8) (s : State) : exec (.mirrorItem c vs) s = execMirrorItem c vs s := rfl
@[simp] theorem exec_itemDone (c : Fin 64) (vs : Fin 8) (unit : Fin 3) (s : State) : exec (.itemDone c vs unit) s = execItemDone c vs unit s := rfl
@[simp] theorem exec_outputDelivery (c : Fin 64) (vs : Fin 8) (bwd : Bool) (s : State) : exec (.outputDelivery c vs bwd) s = execOutputDelivery c vs bwd s := rfl
@[simp] theorem exec_versionRetire (c : Fin 64) (vs : Fin 8) (s : State) : exec (.versionRetire c vs) s = execVersionRetire c vs s := rfl
@[simp] theorem exec_pipeEnable (r : Requester) (c : Fin 64) (v : BitVec 32) (s : State) : exec (.pipeEnable r c v) s = execPipeEnable r c v s := rfl
@[simp] theorem exec_pipeFlush (r : Requester) (c : Fin 64) (s : State) : exec (.pipeFlush r c) s = execPipeFlush r c s := rfl
@[simp] theorem exec_pipeRetireNow (r : Requester) (c : Fin 64) (s : State) : exec (.pipeRetireNow r c) s = execPipeRetireNow r c s := rfl
@[simp] theorem exec_pequaFlitReceive (p : Fin 4) (f : FlitIn) (s : State) : exec (.pequaFlitReceive p f) s = execPequaFlitReceive p f s := rfl
@[simp] theorem exec_pequaAckTimeout (p : Fin 4) (s : State) : exec (.pequaAckTimeout p) s = execPequaAckTimeout p s := rfl
@[simp] theorem exec_pequaParam (p : Fin 4) (hostId : BitVec 64) (cohReq : Bool) (tags : BitVec 16) (s : State) : exec (.pequaParam p hostId cohReq tags) s = execPequaParam p hostId cohReq tags s := rfl
@[simp] theorem exec_pequaCreditInit (p : Fin 4) (req snp rsp : BitVec 16) (s : State) : exec (.pequaCreditInit p req snp rsp) s = execPequaCreditInit p req snp rsp s := rfl
@[simp] theorem exec_pequaDown (p : Fin 4) (reason : BitVec 8) (s : State) : exec (.pequaDown p reason) s = execPequaDown p reason s := rfl
@[simp] theorem exec_pequaPhyTrainDone (p : Fin 4) (lanes : Fin 17) (rate : BitVec 2) (s : State) : exec (.pequaPhyTrainDone p lanes rate) s = execPequaPhyTrainDone p lanes rate s := rfl
@[simp] theorem exec_pequaStateTimeout (p : Fin 4) (s : State) : exec (.pequaStateTimeout p) s = execPequaStateTimeout p s := rfl
@[simp] theorem exec_pequaRetryTimer (p : Fin 4) (s : State) : exec (.pequaRetryTimer p) s = execPequaRetryTimer p s := rfl
@[simp] theorem exec_pequaLinkLoss (p : Fin 4) (s : State) : exec (.pequaLinkLoss p) s = execPequaLinkLoss p s := rfl
@[simp] theorem exec_drd (p : Fin 4) (k : HPacket) (s : State) : exec (.drd p k) s = execDrd p k s := rfl
@[simp] theorem exec_dwr (p : Fin 4) (k : HPacket) (s : State) : exec (.dwr p k) s = execDwr p k s := rfl
@[simp] theorem exec_drdS (p : Fin 4) (k : HPacket) (s : State) : exec (.drdS p k) s = execDrdS p k s := rfl
@[simp] theorem exec_drdE (p : Fin 4) (k : HPacket) (s : State) : exec (.drdE p k) s = execDrdE p k s := rfl
@[simp] theorem exec_devict (p : Fin 4) (k : HPacket) (s : State) : exec (.devict p k) s = execDevict p k s := rfl
@[simp] theorem exec_rrd (p : Fin 4) (k : HPacket) (s : State) : exec (.rrd p k) s = execRrd p k s := rfl
@[simp] theorem exec_rwr (p : Fin 4) (k : HPacket) (s : State) : exec (.rwr p k) s = execRwr p k s := rfl
@[simp] theorem exec_hsrsp (p : Fin 4) (k : HPacket) (s : State) : exec (.hsrsp p k) s = execHsrsp p k s := rfl
@[simp] theorem exec_hsnpI (p : Fin 4) (k : HPacket) (s : State) : exec (.hsnpI p k) s = execHsnpI p k s := rfl
@[simp] theorem exec_hsnpS (p : Fin 4) (k : HPacket) (s : State) : exec (.hsnpS p k) s = execHsnpS p k s := rfl
@[simp] theorem exec_hdata (p : Fin 4) (k : HPacket) (s : State) : exec (.hdata p k) s = execHdata p k s := rfl
@[simp] theorem exec_hcmp (p : Fin 4) (k : HPacket) (s : State) : exec (.hcmp p k) s = execHcmp p k s := rfl
@[simp] theorem exec_dsnpTimeout (p : Fin 4) (s : State) : exec (.dsnpTimeout p) s = execDsnpTimeout p s := rfl
@[simp] theorem exec_watchPoll (c : Fin 64) (line : Fin 64) (s : State) : exec (.watchPoll c line) s = execWatchPoll c line s := rfl
@[simp] theorem exec_runLineReacquire (c : Fin 64) (line : Fin 64) (s : State) : exec (.runLineReacquire c line) s = execRunLineReacquire c line s := rfl
@[simp] theorem exec_run (c : Fin 64) (seq : BitVec 32) (s : State) : exec (.run c seq) s = execRun c seq s := rfl
@[simp] theorem exec_copy (c : Fin 64) (seq : BitVec 32) (s : State) : exec (.copy c seq) s = execCopy c seq s := rfl
@[simp] theorem exec_abort (c : Fin 64) (seq : BitVec 32) (s : State) : exec (.abort c seq) s = execAbort c seq s := rfl
@[simp] theorem exec_fence (c : Fin 64) (seq : BitVec 32) (s : State) : exec (.fence c seq) s = execFence c seq s := rfl
@[simp] theorem exec_runNop (c : Fin 64) (seq : BitVec 32) (s : State) : exec (.runNop c seq) s = execRunNop c seq s := rfl
@[simp] theorem exec_runComplete (c : Fin 64) (seq : BitVec 32) (s : State) : exec (.runComplete c seq) s = execRunComplete c seq s := rfl
@[simp] theorem exec_copyComplete (c : Fin 64) (seq : BitVec 32) (s : State) : exec (.copyComplete c seq) s = execCopyComplete c seq s := rfl
@[simp] theorem exec_runDeadline (c : Fin 64) (seq : BitVec 32) (s : State) : exec (.runDeadline c seq) s = execRunDeadline c seq s := rfl
@[simp] theorem exec_ctxCplConsWrite (r : Requester) (c : Fin 64) (v : BitVec 32) (s : State) : exec (.ctxCplConsWrite r c v) s = execCtxCplConsWrite r c v s := rfl
@[simp] theorem exec_ctxCplEnable (r : Requester) (c : Fin 64) (v : BitVec 32) (s : State) : exec (.ctxCplEnable r c v) s = execCtxCplEnable r c v s := rfl
@[simp] theorem exec_ctxEvtConsWrite (r : Requester) (c : Fin 64) (v : BitVec 32) (s : State) : exec (.ctxEvtConsWrite r c v) s = execCtxEvtConsWrite r c v s := rfl
@[simp] theorem exec_devHpBindWrite (r : Requester) (p : Fin 4) (v : BitVec 32) (s : State) : exec (.devHpBindWrite r p v) s = execDevHpBindWrite r p v s := rfl
@[simp] theorem exec_lossLimitExpiry (p : Fin 4) (s : State) : exec (.lossLimitExpiry p) s = execLossLimitExpiry p s := rfl
@[simp] theorem exec_ctxTeardown (r : Requester) (c : Fin 64) (s : State) : exec (.ctxTeardown r c) s = execCtxTeardown r c s := rfl
@[simp] theorem exec_quarantineEnd (c : Fin 64) (s : State) : exec (.quarantineEnd c) s = execQuarantineEnd c s := rfl
@[simp] theorem exec_devHpRetrain (r : Requester) (p : Fin 4) (s : State) : exec (.devHpRetrain r p) s = execDevHpRetrain r p s := rfl
@[simp] theorem exec_devHpDisable (r : Requester) (p : Fin 4) (s : State) : exec (.devHpDisable r p) s = execDevHpDisable r p s := rfl
@[simp] theorem exec_devHpEnable (r : Requester) (p : Fin 4) (s : State) : exec (.devHpEnable r p) s = execDevHpEnable r p s := rfl
@[simp] theorem exec_bucketLeak (cls : Fin 7) (unit : BitVec 32) (s : State) : exec (.bucketLeak cls unit) s = execBucketLeak cls unit s := rfl
@[simp] theorem exec_rasLbCfgWrite (r : Requester) (cls : Fin 7) (v : BitVec 32) (s : State) : exec (.rasLbCfgWrite r cls v) s = execRasLbCfgWrite r cls v s := rfl
@[simp] theorem exec_healthScore (s : State) : exec (.healthScore) s = execHealthScore s := rfl
@[simp] theorem exec_secureNow (r : Requester) (s : State) : exec (.secureNow r) s = execSecureNow r s := rfl
@[simp] theorem exec_waitGraphSample (s : State) : exec (.waitGraphSample) s = execWaitGraphSample s := rfl
@[simp] theorem exec_wprobePeriod (u : Fin 284) (s : State) : exec (.wprobePeriod u) s = execWprobePeriod u s := rfl
@[simp] theorem exec_sampleCutoff (t : Fin 64) (s : State) : exec (.sampleCutoff t) s = execSampleCutoff t s := rfl
@[simp] theorem exec_sampleComplete (s : State) : exec (.sampleComplete) s = execSampleComplete s := rfl
@[simp] theorem exec_sampleRelease (r : Requester) (s : State) : exec (.sampleRelease r) s = execSampleRelease r s := rfl
@[simp] theorem exec_contextReset (r : Requester) (c : Fin 64) (s : State) : exec (.contextReset r c) s = execContextReset r c s := rfl
@[simp] theorem exec_computeReset (r : Requester) (s : State) : exec (.computeReset r) s = execComputeReset r s := rfl
@[simp] theorem exec_fullRecovery (r : Requester) (o : BringUpOutcome) (s : State) : exec (.fullRecovery r o) s = execFullRecovery r o s := rfl
@[simp] theorem exec_recoverNLow (o : BringUpOutcome) (s : State) : exec (.recoverNLow o) s = execRecoverNLow o s := rfl
@[simp] theorem exec_protEnable (r : Requester) (c : Fin 64) (s : State) : exec (.protEnable r c) s = execProtEnable r c s := rfl
@[simp] theorem exec_secure (r : Requester) (c : Fin 64) (s : State) : exec (.secure r c) s = execSecure r c s := rfl
@[simp] theorem exec_secureReread (c : Fin 64) (entry : Fin 4096) (s : State) : exec (.secureReread c entry) s = execSecureReread c entry s := rfl
@[simp] theorem exec_restore (r : Requester) (c : Fin 64) (s : State) : exec (.restore r c) s = execRestore r c s := rfl
@[simp] theorem exec_apply (r : Requester) (c : Fin 64) (s : State) : exec (.apply r c) s = execApply r c s := rfl
@[simp] theorem exec_protResync (r : Requester) (c : Fin 64) (s : State) : exec (.protResync r c) s = execProtResync r c s := rfl
@[simp] theorem exec_promote (r : Requester) (c : Fin 64) (s : State) : exec (.promote r c) s = execPromote r c s := rfl
@[simp] theorem exec_fetch (r : Requester) (c : Fin 64) (s : State) : exec (.fetch r c) s = execFetch r c s := rfl
@[simp] theorem exec_demote (r : Requester) (c : Fin 64) (s : State) : exec (.demote r c) s = execDemote r c s := rfl
@[simp] theorem exec_retainWrite (c : Fin 64) (s : State) : exec (.retainWrite c) s = execRetainWrite c s := rfl
@[simp] theorem exec_slotCopy (c : Fin 64) (entry : Fin 4096) (s : State) : exec (.slotCopy c entry) s = execSlotCopy c entry s := rfl
@[simp] theorem exec_digestComplete (c : Fin 64) (entry : Fin 4096) (s : State) : exec (.digestComplete c entry) s = execDigestComplete c entry s := rfl
@[simp] theorem exec_logAppend (c : Fin 64) (s : State) : exec (.logAppend c) s = execLogAppend c s := rfl
@[simp] theorem exec_ctxLogProdWrite (r : Requester) (c : Fin 64) (v : BitVec 32) (s : State) : exec (.ctxLogProdWrite r c v) s = execCtxLogProdWrite r c v s := rfl
@[simp] theorem exec_registerWrite (r : Requester) (c : Fin 64) (addr : BitVec 39) (v : BitVec 32) (s : State) : exec (.registerWrite r c addr v) s = execRegisterWrite r c addr v s := rfl
@[simp] theorem exec_guardedWriteFirst (r : Requester) (c : Fin 64) (addr : BitVec 39) (v : BitVec 32) (s : State) : exec (.guardedWriteFirst r c addr v) s = execGuardedWriteFirst r c addr v s := rfl
@[simp] theorem exec_guardedWriteSecond (r : Requester) (c : Fin 64) (addr : BitVec 39) (v : BitVec 32) (s : State) : exec (.guardedWriteSecond r c addr v) s = execGuardedWriteSecond r c addr v s := rfl
@[simp] theorem exec_guardTimeout (r : Requester) (s : State) : exec (.guardTimeout r) s = execGuardTimeout r s := rfl
@[simp] theorem exec_counterLowRead (r : Requester) (c : Fin 64) (addr : BitVec 39) (s : State) : exec (.counterLowRead r c addr) s = execCounterLowRead r c addr s := rfl
@[simp] theorem exec_indDataAccess (r : Requester) (window : Option (Fin 64)) (w : Option (BitVec 32)) (s : State) : exec (.indDataAccess r window w) s = execIndDataAccess r window w s := rfl
@[simp] theorem exec_devAdminWrite (r : Requester) (v : BitVec 32) (s : State) : exec (.devAdminWrite r v) s = execDevAdminWrite r v s := rfl
@[simp] theorem exec_devEvtConsWrite (r : Requester) (v : BitVec 32) (s : State) : exec (.devEvtConsWrite r v) s = execDevEvtConsWrite r v s := rfl
@[simp] theorem exec_bundleReceived (bytes : List Byte) (s : State) : exec (.bundleReceived bytes) s = execBundleReceived bytes s := rfl
@[simp] theorem exec_bundleVerified (o : StackOutcome) (s : State) : exec (.bundleVerified o) s = execBundleVerified o s := rfl
@[simp] theorem exec_rsaKeyReady (s : State) : exec (.rsaKeyReady) s = execRsaKeyReady s := rfl
@[simp] theorem exec_getVersion (ch : Fin 6) (msg : List Byte) (s : State) : exec (.getVersion ch msg) s = execGetVersion ch msg s := rfl
@[simp] theorem exec_getCapabilities (ch : Fin 6) (msg : List Byte) (s : State) : exec (.getCapabilities ch msg) s = execGetCapabilities ch msg s := rfl
@[simp] theorem exec_negotiateAlgorithms (ch : Fin 6) (msg : List Byte) (s : State) : exec (.negotiateAlgorithms ch msg) s = execNegotiateAlgorithms ch msg s := rfl
@[simp] theorem exec_getDigests (ch : Fin 6) (msg : List Byte) (s : State) : exec (.getDigests ch msg) s = execGetDigests ch msg s := rfl
@[simp] theorem exec_getCertificate (ch : Fin 6) (msg : List Byte) (s : State) : exec (.getCertificate ch msg) s = execGetCertificate ch msg s := rfl
@[simp] theorem exec_setCertificate (ch : Fin 6) (msg : List Byte) (s : State) : exec (.setCertificate ch msg) s = execSetCertificate ch msg s := rfl
@[simp] theorem exec_challenge (ch : Fin 6) (msg : List Byte) (s : State) : exec (.challenge ch msg) s = execChallenge ch msg s := rfl
@[simp] theorem exec_getMeasurements (ch : Fin 6) (msg : List Byte) (s : State) : exec (.getMeasurements ch msg) s = execGetMeasurements ch msg s := rfl
@[simp] theorem exec_keyExchange (ch : Fin 6) (msg : List Byte) (s : State) : exec (.keyExchange ch msg) s = execKeyExchange ch msg s := rfl
@[simp] theorem exec_finish (ch : Fin 6) (msg : List Byte) (s : State) : exec (.finish ch msg) s = execFinish ch msg s := rfl
@[simp] theorem exec_endSession (ch : Fin 6) (msg : List Byte) (s : State) : exec (.endSession ch msg) s = execEndSession ch msg s := rfl
@[simp] theorem exec_quote (ch : Fin 6) (nonce : BitVec 256) (s : State) : exec (.quote ch nonce) s = execQuote ch nonce s := rfl
@[simp] theorem exec_secMboxSend (r : Requester) (m : Fin 5) (s : State) : exec (.secMboxSend r m) s = execSecMboxSend r m s := rfl
@[simp] theorem exec_secMboxAbandon (r : Requester) (m : Fin 5) (s : State) : exec (.secMboxAbandon r m) s = execSecMboxAbandon r m s := rfl
@[simp] theorem exec_linkKeyRecord (session : Fin 8) (record : BitVec 768) (s : State) : exec (.linkKeyRecord session record) s = execLinkKeyRecord session record s := rfl
@[simp] theorem exec_unlockNonceRead (s : State) : exec (.unlockNonceRead) s = execUnlockNonceRead s := rfl
@[simp] theorem exec_unlockRecord (record : BitVec 512) (sig : List Byte) (s : State) : exec (.unlockRecord record sig) s = execUnlockRecord record sig s := rfl
@[simp] theorem exec_tapIdcode (d : Fin 6) (s : State) : exec (.tapIdcode d) s = execTapIdcode d s := rfl
@[simp] theorem exec_tapSamplePreload (d : Fin 6) (s : State) : exec (.tapSamplePreload d) s = execTapSamplePreload d s := rfl
@[simp] theorem exec_tapExtest (d : Fin 6) (s : State) : exec (.tapExtest d) s = execTapExtest d s := rfl
@[simp] theorem exec_tapClamp (d : Fin 6) (s : State) : exec (.tapClamp d) s = execTapClamp d s := rfl
@[simp] theorem exec_tapHighz (d : Fin 6) (s : State) : exec (.tapHighz d) s = execTapHighz d s := rfl
@[simp] theorem exec_tapIjtagAccess (d : Fin 6) (s : State) : exec (.tapIjtagAccess d) s = execTapIjtagAccess d s := rfl
@[simp] theorem exec_tapUnlock (d : Fin 6) (s : State) : exec (.tapUnlock d) s = execTapUnlock d s := rfl
@[simp] theorem exec_tapBypass (d : Fin 6) (s : State) : exec (.tapBypass d) s = execTapBypass d s := rfl
@[simp] theorem exec_pwrQuiesce (r : Requester) (s : State) : exec (.pwrQuiesce r) s = execPwrQuiesce r s := rfl
@[simp] theorem exec_pwrForward (r : Requester) (s : State) : exec (.pwrForward r) s = execPwrForward r s := rfl
@[simp] theorem exec_pwrRun (r : Requester) (s : State) : exec (.pwrRun r) s = execPwrRun r s := rfl
@[simp] theorem exec_pwrBootGo (r : Requester) (s : State) : exec (.pwrBootGo r) s = execPwrBootGo r s := rfl
@[simp] theorem exec_bootWindowExpiry (s : State) : exec (.bootWindowExpiry) s = execBootWindowExpiry s := rfl
@[simp] theorem exec_dvfsLevelReqWrite (r : Requester) (q : Fin 4) (v : BitVec 32) (s : State) : exec (.dvfsLevelReqWrite r q v) s = execDvfsLevelReqWrite r q v s := rfl
@[simp] theorem exec_dvfsStep (q : Fin 4) (mv : BitVec 10) (s : State) : exec (.dvfsStep q mv) s = execDvfsStep q mv s := rfl
@[simp] theorem exec_limitLoop (watts : BitVec 12) (s : State) : exec (.limitLoop watts) s = execLimitLoop watts s := rfl
@[simp] theorem exec_pwrCapAssert (s : State) : exec (.pwrCapAssert) s = execPwrCapAssert s := rfl
@[simp] theorem exec_pwrCapDeassert (s : State) : exec (.pwrCapDeassert) s = execPwrCapDeassert s := rfl
@[simp] theorem exec_thermalSample (temps : Temps) (s : State) : exec (.thermalSample temps) s = execThermalSample temps s := rfl
@[simp] theorem exec_thermalLevelStep (s : State) : exec (.thermalLevelStep) s = execThermalLevelStep s := rfl
@[simp] theorem exec_signalDetect (p : Fin 8) (lanes : BitVec 18) (s : State) : exec (.signalDetect p lanes) s = execSignalDetect p lanes s := rfl
@[simp] theorem exec_codewordLockRegained (p : Fin 8) (s : State) : exec (.codewordLockRegained p) s = execCodewordLockRegained p s := rfl
@[simp] theorem exec_l0Regained (p : Fin 4) (s : State) : exec (.l0Regained p) s = execL0Regained p s := rfl
@[simp] theorem exec_mirrorSidebandUp (o : MirrorOutcome) (s : State) : exec (.mirrorSidebandUp o) s = execMirrorSidebandUp o s := rfl
@[simp] theorem exec_emptyBroadcastSlot (t : Fin 64) (s : State) : exec (.emptyBroadcastSlot t) s = execEmptyBroadcastSlot t s := rfl
@[simp] theorem exec_codewordSend (p : Fin 8) (s : State) : exec (.codewordSend p) s = execCodewordSend p s := rfl
@[simp] theorem exec_pequaFlitSend (p : Fin 4) (s : State) : exec (.pequaFlitSend p) s = execPequaFlitSend p s := rfl
@[simp] theorem exec_tapReset (s : State) : exec (.tapReset) s = execTapReset s := rfl
@[simp] theorem exec_slotCopyEnd (c : Fin 64) (entry : Fin 4096) (s : State) : exec (.slotCopyEnd c entry) s = execSlotCopyEnd c entry s := rfl
@[simp] theorem exec_updateSumComplete (c : Fin 64) (vs : Fin 8) (shard : Fin 1024) (s : State) : exec (.updateSumComplete c vs shard) s = execUpdateSumComplete c vs shard s := rfl

/-- A step takes the command at the front of the queue. -/
theorem step_front (s : State) (c : Instr) (rest : List Instr) (h : s.pending = c :: rest) :
    step s = exec c { s with pending := rest } := by simp [step, h]

theorem State.run_eq (s : State) (x : Effect) : s.run x = .next (s.commit (x s.mem s.begin)) := rfl

end Sys2Proof.Machine
end

