-- ==== Sys2Proof/WellFormed.lean ====
section
/-! DEFINITION. Well-formed commands. Unit numbers are bounded by their types; what is left is the lengths of the lists a
command carries. -/

namespace Sys2Proof

/-- A fabric packet carries DLEN data bytes, 0 to 256 (Table 7.10, R221). -/
def Packet.wf (k : Packet) : Bool := decide (k.data.length = (k.hdr >>> 34).toNat % 512 ∧ k.data.length ≤ 256)

/-- A Pequa packet carries LEN data bytes, 0 to 256, but for a read request, which asks for them (Tables 11.5 and 11.6, R331). -/
def HPacket.wf (k : HPacket) : Bool :=
  decide (k.data.length ≤ 256 ∧ ((k.hdr >>> 81).toNat % 512 = k.data.length ∨
    (k.data = [] ∧ (k.hdr >>> 122).toNat % 64 ∈ [1, 3, 4, 6, 0x10, 0x12, 0x13])))

/-- Well-formedness of a command. -/
def Instr.wf : Instr → Bool
  | .hbmWrite _ off data _ => decide (1 ≤ data.length ∧ data.length + off.toNat % 32 ≤ 32)
  | .residueMismatch _ _ dpus => decide (1 ≤ dpus.length ∧ dpus.length ≤ 1024)
  | .residueReplayFail _ _ dpus => decide (1 ≤ dpus.length ∧ dpus.length ≤ 1024)
  | .bundleReceived bytes => decide (1 ≤ bytes.length ∧ bytes.length ≤ 4194304)
  | .unlockRecord _ sig => decide (sig.length = 8192)
  | .packetRoute _ k => k.wf
  | .fabRd k | .fabWr k | .atomAdd32 k | .atomAdd64 k
  | .atomSwap64 k | .atomCas64 k | .atomAnd64 k | .atomOr64 k
  | .atomMaxu64 k | .atomGadd128 k | .fabBwr k | .fabBget k
  | .rdRsp k | .wrAck k | .atomRsp k | .bwAck k
  | .bgetDone k | .wprobe k | .wprobeRsp k | .collReport k
  | .collClose k | .collData k | .collResult k | .collShardDone k
  | .collResend k | .collGo k | .collPdone k | .collAbort k
  | .tokxCount k | .tokxOffset k | .tokxDone k => k.wf
  | .drd _ k | .dwr _ k | .drdS _ k | .drdE _ k
  | .devict _ k | .rrd _ k | .rwr _ k | .hsrsp _ k
  | .hsnpI _ k | .hsnpS _ k | .hdata _ k | .hcmp _ k => k.wf
  | _ => true

end Sys2Proof
end

