-- ==== Sys2Proof/Tests/Slice0.lean ====
section
/-! SUPPORT. Witnesses: for every statement with hypotheses, states and operands that meet all of them together, clause by clause; and
small tests against the spec's own tables. -/

namespace Sys2Proof.Tests
open Sys2Proof.Machine Sys2Proof.Claims
set_option maxRecDepth 100000
set_option Elab.async false

/-- A die's identity record with its CHECK (Table 1.7): type, generation, capabilities. -/
def dieRec (ty gen caps : Nat) : BitVec 256 :=
  let b := ty * 2 ^ 120 + gen * 2 ^ 128 + gen * 2 ^ 144 + caps * 2 ^ 160
  BitVec.ofNat 256 (b + crc32 (toLE 24 b) * 2 ^ 192)

/-- A package identity record with its CHECK (Table 1.8). -/
def pkgRec (serial : Nat) : BitVec 128 := BitVec.ofNat 128 (serial + crc32 (toLE 14 serial) % 65536 * 2 ^ 112)

/-- Fuses of a package whose records hold; its dies stand where R10 puts them. -/
def fuses : Fuses :=
  { dieId := #v[dieRec 1 1 0x3FF, dieRec 1 1 0x3FF, dieRec 1 1 0x3FF, dieRec 1 1 0x3FF, dieRec 2 1 0x3FF, dieRec 2 1 0x3FF],
    pkgIdA := pkgRec 5, pkgIdB := pkgRec 5, halfId := #v[false, false, true, true, false, true],
    posId := #v[false, true, true, false, false, true], revoke := 0, banks := [], uds := 0,
    keyHash := #v[0, 0, 0, 0, 0, 0, 0, 0], vOffset := #v[0, 0, 0, 0] }

/-- A device that has started up: no work, no context. -/
def up : Dev :=
  { fuses := fuses, bringUp := .done, role := .ready, iaPresent := true, ibPresent := true, negCaps := 0x3FF, negGen := 1,
    dies := (List.range 6).map (fun i => (i, { locked := true })), hbm := (List.range 16).map (fun i => (i, { state := 2 })),
    modules := (List.range 8).flatMap (fun l => [(16 * l, { inService := true }), (16 * l + 1, { inService := true })]),
    sec := { state := .running }, pwr := { phase := 5 } }

/-- A state with nothing in memory and no command waiting. -/
def st (d : Dev) : State := { mem := [], dev := d, pending := [] }

/-- A state whose memory holds bytes from an address. -/
def stm (d : Dev) (a : Nat) (bs : List Byte) : State := { mem := Memory.write [] ((cellsAt a bs).reverse), dev := d, pending := [] }

/-- Little-endian words. -/
def le (n : Nat) (l : List Nat) : List Byte := (l.map (toLE n)).flatten

/-- The register an address names. -/
def regOf (k : Nat) : RegDef := (regAt k).getD ⟨"", .pkg, 0, [], .word, []⟩

/-- `up` with the four host ports ACTIVE. -/
def hosted : Dev := { up with hosts := (List.range 4).map (fun p => (p, { state := .active, tags := 64 })) }

/-- `hosted` with context 1 bound to port 1, which owns tiles 0 to 15. -/
def owned : Dev := { hosted with ctxs := [(1, { state := .bound, port := 1, tileMask := 0xFFFF, hostMask := 15 })] }

/-- The scratchpad of tile 3. -/
def scr3 : Nat := 0x010006000000

/-- A plane of `n` descriptors and `v` vector instructions, from scratchpad address 0. -/
def plane (n v : Nat) : BitVec 512 := BitVec.ofNat 512 (n * 2 ^ 288 + v * 2 ^ 352)

/-- `up` with tile 3 as `x`. -/
def tiled (x : Tile) : Dev := { up with tiles := [(3, x)] }

/-- LOAD_B of an INT8 block of pair 8 x 8 into bank 0, a PASS of one block over it that zeroes and drains set 0, an OUTPUT. -/
def descB : BitVec 128 := BitVec.ofNat 128 (1 * 2 ^ 124 + 1 * 2 ^ 121 + 6 * 2 ^ 117 + 2 ^ 116 + 32 * 2 ^ 97)
def descP : BitVec 128 := BitVec.ofNat 128 (2 * 2 ^ 124 + 1 * 2 ^ 121 + 6 * 2 ^ 117 + 2 ^ 116 + 16 * 2 ^ 97 + 2 ^ 51 + 2 ^ 50 + 2 ^ 49)
def descO : BitVec 128 := BitVec.ofNat 128 (3 * 2 ^ 124 + 2 ^ 120 + 64 * 2 ^ 100)

/-- A tile whose plane has one descriptor, bank 0 loaded. -/
def arrayTile : Tile :=
  { plane := some (plane 1 0), bank0 := { valid := true, desc := descB, codes := toLE 2048 0x0102, loads := 1 },
    outputs := [(1, { desc := descO, addr := 0 })], outputCount := 1 }

/-- A block of results 1 in flight. -/
def block1 (v : BitVec 128) : Block :=
  { desc := v, index := 0, output := 1, loadDesc := descB, bankLoads := 1, results := List.replicate 1024 { zero := false, sum := 1 } }

/-- A vector instruction: OP, TYPE and the fields below, of VD V4, VA V2, VB V3, VC V5. -/
def vIns (op ty x : Nat) : BitVec 64 :=
  BitVec.ofNat 64 (op * 2 ^ 56 + 4 * 2 ^ 51 + 2 * 2 ^ 46 + 3 * 2 ^ 41 + 5 * 2 ^ 36 + ty * 2 ^ 34 + x)

/-- A tile whose plane has one vector instruction; a few lanes hold numbers. -/
def vTile : Tile :=
  { plane := some (plane 0 1), vregs := [(2, 0x3F8000004000000040400000), (3, 0x40400000BF8000003F000000), (5, 0x3F80000000000000)] }

/-- Tile 3 about to run an instruction. -/
def vec (x : Tile) (v : BitVec 64) : State := stm (tiled x) scr3 (toLE 8 v.toNat)

/-- A state whose memory holds bytes at some addresses. -/
def sto (d : Dev) (l : List (Nat × List Byte)) : State :=
  { mem := Memory.write [] ((l.flatMap (fun p => cellsAt p.1 p.2)).reverse), dev := d, pending := [] }

/-- The parts of an image that commands read, in area `q`: header of a kind, a FIRMWARE section of kind 1 at 0x1000, a TILE section of
tile 3 at width 32 at 0x2000 with one payload record of 4 bytes for scratchpad address 32. -/
def imageIn (q kind : Nat) : List (Nat × List Byte) :=
  [(areaBase q, toLE 16 (kind * 2 ^ 88 + 2 * 2 ^ 112)),
   (areaBase q + 256, toLE 32 (9 + 1 * 2 ^ 16 + 7 * 2 ^ 144 + 0x1000 * 2 ^ 160 + 68 * 2 ^ 192)
      ++ toLE 32 (4 + 3 * 2 ^ 16 + 32 * 2 ^ 24 + 0x2000 * 2 ^ 160)),
   (areaBase q + 0x1004, toLE 4 4), (areaBase q + 0x1040, toLE 4 0x11223344),
   (areaBase q + 0x2004, toLE 2 1), (areaBase q + 0x2040, toLE 64 (plane 2 0).toNat), (areaBase q + 0x2080, toLE 64 (plane 3 0).toNat),
   (areaBase q + 0x2240, toLE 8 (1 + 4 * 2 ^ 32)), (areaBase q + 0x2260, toLE 4 0x55667788)]

/-- Registers set in a device. -/
def withRegs (d : Dev) (l : List (Nat × BitVec 32)) : Dev := l.foldl (fun d p => d.setReg p.1 p.2) d

/-- A mover entry: OP, PRIO 1, LEN, source and destination. -/
def moveE (op len src dst : Nat) : BitVec 512 :=
  BitVec.ofNat 512 (src * 2 ^ 448 + dst * 2 ^ 384 + len * 2 ^ 352 + op * 2 ^ 252 + 2 ^ 250 + 2 ^ 248 + 3 * 2 ^ 244)

/-- Tile 3 whose mover ring (at 0, two slots) holds an entry in slot 0. -/
def moving (x : Tile) (e : BitVec 512) (l : List (Nat × List Byte)) : State :=
  sto (withRegs (tiled x) [(Reg.fabNode, 0x80000005), (Reg.tileMoveCtrl 3, 0x80100000)]) ((scr3 + 2048, toLE 64 e.toNat) :: l)

/-- A gather of one slice of 32 bytes: table at 0x100000, list at 0x1000, destination 0x2000 of tile 3. -/
def gather1 : BitVec 256 :=
  BitVec.ofNat 256 (256 * 2 ^ 216 + 32 * 2 ^ 196 + 64 * 2 ^ 156 + 1 * 2 ^ 140 + 128 * 2 ^ 120 + 1 * 2 ^ 96 + 0x4000 * 2 ^ 62)

/-- Node 5 of a torus of 4 x 4 x 4. -/
def net : Dev := withRegs up [(Reg.fabNode, 0x80000005), (Reg.fabTorus, 0x030303)]

/-- `net` with port `p` as `x`. -/
def netPort (p : Nat) (x : FabPort) : Dev := { net with ports := [(p, x)] }

/-- A global address of node 5. -/
def at5 (a : Nat) : Nat := 5 * 2 ^ 41 + a

/-- A packet from node 9 to node 5 with TAG 33 and a right ECRC; `f` adds to its header. -/
def pkt (op ctx addr arg : Nat) (data : List Byte) (f : Nat) : Packet :=
  let k : Packet := { hdr := BitVec.ofNat 256 (arg * 2 ^ 160 + addr * 2 ^ 119 + 9 * 2 ^ 96 + 5 * 2 ^ 73 + 33 * 2 ^ 57 + ctx * 2 ^ 43
    + data.length * 2 ^ 34 + op * 2 ^ 28 + f), data := data }
  k.withField 255 224 k.ecrc

/-- `net` with memory at 0x1000. -/
def netMem : State := stm net 0x1000 (le 4 [0x11111111, 0x22222222, 0x33333333, 0x44444444, 5, 6, 7, 8])

/-- `net` with request TAG 33 outstanding. -/
def tagged (u : Purpose) (op : Nat) : Dev := { net with tags := [{ tag := 33, port := fabricPort, ctx := 0, gen := 0, purpose := u, op := op, a := 3, b := 4, c := 0x1000 }] }

/-- That request. -/
def tag33 (u : Purpose) (op : Nat) : Tag := { tag := 33, port := fabricPort, ctx := 0, gen := 0, purpose := u, op := op, a := 3, b := 4, c := 0x1000 }

/-- A bucket of 100 elements in 2 chunks: SRC 0x10000, DST 0x20000, ready array 0x30000, record 0x31000, MASK 0x32000. -/
def bktDesc (root : Nat) : BitVec 1024 :=
  BitVec.ofNat 1024 (0x10000 * 2 ^ 960 + 0x20000 * 2 ^ 896 + 0x30000 * 2 ^ 832 + 0x31000 * 2 ^ 768 + 0x32000 * 2 ^ 704 + 100 * 2 ^ 103
    + 2 ^ 86 + root * 2 ^ 54 + 5 * 2 ^ 46 + 2 * 2 ^ 39 + 3 * 2 ^ 33 + 1)

/-- An opening of context 0 under SEQ 9, as rank `self` of nodes 5, 9 and 7. -/
def opening (kind : Nat) (desc : BitVec 1024) (self : Nat) : Opening :=
  { ctx := 0, id := 5, kind := kind, desc := desc, seq := 9, groupVer := 1, selfRank := self, members := [5, 9, 7] }
def bkt (root self : Nat) : Opening := opening 1 (bktDesc root) self

/-- A token exchange without entries: rows 0x11000, RECV 0x12000, tags 0x13000, ready array 0x14000, record 0x15000. -/
def exchange : Opening :=
  opening 2 (BitVec.ofNat 1024 (0x10000 * 2 ^ 960 + 0x11000 * 2 ^ 896 + 0x12000 * 2 ^ 832 + 0x13000 * 2 ^ 768 + 0x16000 * 2 ^ 704
    + 0x17000 * 2 ^ 640 + 0x14000 * 2 ^ 576 + 0x15000 * 2 ^ 512 + 32 * 2 ^ 92 + 1 * 2 ^ 65 + 4 * 2 ^ 39 + 1 * 2 ^ 16 + 2 * 2 ^ 4 + 2)) 0

/-- A re-shard of one round with one OUT and one IN piece. -/
def reshard : Opening :=
  opening 3 (BitVec.ofNat 1024 (0x10000 * 2 ^ 960 + 0x11000 * 2 ^ 896 + 0x12000 * 2 ^ 832 + 1 * 2 ^ 108 + 1 * 2 ^ 88 + 3)) 0

/-- The package with one opening and bytes in memory. -/
def opened (o : Opening) (l : List (Nat × List Byte)) : State := sto { net with openings := [o], lode := { count := 100000000 } } l

/-- A packet of the opening from a rank: TYPE, INDEX, SEQ, the auxiliary field, data. -/
def collPkt (op ty index seq rank aux : Nat) (data : List Byte) : Packet :=
  pkt op 0 (rank * 2 ^ 25 + aux) (index * 2 ^ 36 + seq * 2 ^ 20 + 5 * 2 ^ 4 + ty) data 0

/-- A bucket whose CLOSE has come with status COMPLETE. -/
def closed (o : Opening) : Opening := { o with close := some { expcode := 130, status := 1, pop := 3, lt := 7 }, mask := 7 :: List.replicate 255 0, closeLt := 7 }

/-- A SHARD_DONE of a rank. -/
def done (r : Nat) : ShardDone := { rank := r, status := 1, ssqC := 0, ssqR := 0, nonfinite := 0, resInf := 0 }

/-- The piece of the re-shard. -/
def pieceBits : Nat := 1 * 2 ^ 228 + 256 * 2 ^ 198 + 0x21000 * 2 ^ 64 + 0x20000

/-- A stage table whose stage 0 has FLAGS (1 VALID, 2 FIRST, 4 LAST), its units on tiles 0, 1 and 2, rings at 0x100000 and 0x110000. -/
def stageTable (flags : Nat) : List Byte :=
  let f : List (Nat × Nat) := [(1, 1), (2, flags), (4, 1), (12, 2), (20, 4), (28, 0), (32, 32), (36, 64), (40, 128), (44, 64), (48, 64), (52, 4),
    (54, 4), (56, 0x100000), (64, 0x110000), (72, if flags < 4 then 9 * 2 ^ 41 + 0x100000 else 0), (80, 4), (82, 4),
    (88, if flags % 4 = 1 then 7 * 2 ^ 41 + 0x100000 else 0), (96, 0x120000), (104, 0x121000), (112, 256), (116, 3), (120, 0x140000), (128, 1)]
  toLE 2 1 ++ toLE 1 1 ++ toLE 5 0 ++ toLE 8 0x130000 ++ toLE 48 0 ++ toLE 256 ((f.map (fun p => p.2 * 2 ^ (8 * p.1))).sum) ++ toLE 1792 0

/-- A shard list with one local shard: its ledger at 0x51000 says STEP 3 is current, its record lies at 0x52000. -/
def shardMem : List (Nat × List Byte) :=
  [(0x140000, toLE 64 (at5 0x51000 * 2 ^ 448 + 32 * 2 ^ 256)), (0x51000, toLE 32 ((3 * 2 ^ 32 + 7) * 2 ^ 128 + 0x52000 * 2 ^ 87))]

/-- Context 0 with that table, its pipeline in a state, stage 0 as given. -/
def piped (flags : Nat) (p : PipeState) (x : Stage) (l : List (Nat × List Byte)) : State :=
  sto { net with ctxs := [(0, { state := .free, tileMask := 0xFF, pipe := { state := p, table := stageTable flags, stages := [(0, x)] } })],
                 lode := { count := 100000000 } } (shardMem ++ l)

/-- The same with some tiles. -/
def pipedT (flags : Nat) (p : PipeState) (x : Stage) (ts : Map Tile) (l : List (Nat × List Byte)) : State :=
  let s := piped flags p x l
  { s with dev := { s.dev with tiles := ts } }

/-- A record of micro-batch 5 of step 3 at VSTEP 3 with a STASH_KIND, and the tag of shard 0, in forward slot 0. -/
def slot0 (kind : Nat) : List (Nat × List Byte) :=
  [(0x100100, toLE 32 (3 * 2 ^ 96 + 3 * 2 ^ 64 + 5 * 2 ^ 48 + kind * 2 ^ 9)), (0x100200, toLE 8 (3 * 2 ^ 32 + 7))]

/-- An item of micro-batch 5 in slot 0. -/
def item (k : ItemKind) (started : Bool) : Item :=
  { kind := k, slot := 0, mb := 5, step := 3, stash := (0, 0x121000, 0), gathers := [], tags := [], binds := [(0, at5 0x52000)], owners := [(0, false)],
    started := started, sums := [] }

/-- A protection table at 0x150000 with one MIRROR entry of stage 0 at a VSTEP, gradient and retained block of step 4. -/
def mirrorMem (vstep : Nat) : List (Nat × List Byte) :=
  [(0x150000, toLE 4 (1 + 1 * 2 ^ 16)), (0x150080, toLE 4 4),
   (0x150100, toLE 64 (0x52000 + 0x80 * 2 ^ (8 * 46) + vstep * 2 ^ (8 * 52) + 4 * 2 ^ (8 * 56)))]
def mirrored (vstep : Nat) (x : Stage) : State :=
  let s := piped 7 .running x (mirrorMem vstep)
  { s with dev := withRegs s.dev [(Reg.ctxProtBaseLo 0, 0x150000)] }

/-- `up` with host port `p` as `x`. -/
def atPort (p : Nat) (x : HostPort) : Dev := { up with hosts := [(p, x)] }

/-- A packet of a host: OPC, class, TAG 9, CTX, GEN 0, LEN and address. -/
def hpk (opc cls c len a : Nat) (data : List Byte) : HPacket := { hdr := hpHdr opc cls 9 0 c 0 len 0 a, data := data }

/-- `owned` with port 1 coherent; context 1 owns page 1, its coherent range, and watches 4 lines from host address 0x1000. -/
def coh : Dev :=
  withRegs { owned with hosts := [(1, { state := .active, tags := 64, cohReq := true })], pages := [(1, 0x4001)] }
    [(Reg.devHpCtrl 1, 0x2000000A), (Reg.ctxHcoh 1, 0x80100001), (Reg.ctxRunBaseLo 1, 0x1000), (Reg.ctxRunCtrl 1, 0x80000004),
     (Reg.ctxCplCtrl 1, 0x80000004)]

/-- `coh` with something in the context. -/
def cohC (f : Ctx → Ctx) : Dev := coh.setCtx 1 (f (coh.ctx 1))

/-- `owned` with the same lines. -/
def polled : Dev := withRegs { owned with pages := [(1, 0x4001)] } [(Reg.devHpCtrl 1, 0xA), (Reg.ctxRunBaseLo 1, 0x1000), (Reg.ctxRunCtrl 1, 0x80000004)]

/-- `coh` whose port 1 caches the first line of the range. -/
def cached (excl : Bool) : Dev := { coh with directory := [(0x8000, { exclusive := excl, sharers := 2, age := 0 })] }

/-- TAG 9 of port 1, for a purpose. -/
def tag9 (u : Purpose) (op a b : Nat) : Tag :=
  { tag := 9, port := 1, ctx := 1, gen := 0, purpose := u, op := op, a := a, b := b, c := 64, addr := 0x1000, sent := some (hpk op 0 1 64 0x1000 []) }

/-- An answer under TAG 9: OPC, GRANT and data. -/
def ans (opc grant : Nat) (data : List Byte) : HPacket := { hdr := hpHdr opc 2 9 0 1 0 data.length grant 0, data := data }

/-- A run record: SEQ, OP, FLAGS and the words of Table 11.7. -/
def runRec (seq op flags deadline w16 w24 w32 : Nat) : BitVec 512 :=
  BitVec.ofNat 512 (seq + op * 2 ^ 32 + flags * 2 ^ 40 + deadline * 2 ^ 64 + w16 * 2 ^ 128 + w24 * 2 ^ 192 + w32 * 2 ^ 256)

/-- A run of SEQ 4. -/
def run4 (op flags w16 w24 w32 : Nat) (st : RunState) : Run := { seq := 4, record := runRec 4 op flags 0 w16 w24 w32, state := st }

/-- Context 1 with some runs. -/
def withRuns (l : List Run) : State := st (cohC (fun x => { x with runs := l }))

/-- Context 1 with some runs, on tiles whose semaphore 4 is set. -/
def withSem (l : List Run) : State := st { cohC (fun x => { x with runs := l }) with tiles := [(1, { sems := 0x10 }), (2, { sems := 0x10 })] }

/-- Fault handling with something in it, at count 100,000,000. -/
def rased (x : Ras) : Dev := { owned with ras := x, lode := { count := 100000000 } }

/-- The vector sequencers of tiles 1 and 2 wait for each other's semaphore 5, and have done so for `n` samples. -/
def hung (n : Nat) : State :=
  sto { owned with tiles := [(1, { vTile with vecWaiting := true, semSetter := [(5, 9)] }), (2, { vTile with vecWaiting := true, semSetter := [(5, 5)] })],
                   ras := { waits := [(5, { word := waitWord { kind := 1, unit := 9 } 1, same := n }), (9, { word := waitWord { kind := 1, unit := 5 } 1, same := n })] } }
    [(scrBase 1, toLE 8 (vIns 6 0 5).toNat), (scrBase 2, toLE 8 (vIns 6 0 5).toNat)]

/-- Unit 5 waits for unit 17 of node 9, and has done so for 8 samples. -/
def remote : Dev := { net with ras := { waits := [(5, { word := waitWord { kind := 2, node := 9, unit := 17 } 1, same := 8, probed := true })] } }

/-- Tiles 1 and 2 copy a window of 4 KiB each. -/
def sampling (l : List Nat) : Dev :=
  withRegs (rased { samples := l.map (fun t => (t, ({ copying := true } : Sample))) }) [(Reg.rasSampleWin 1 0, 1), (Reg.rasSampleWin 2 0, 1)]

/-- A bring-up with everything trained. -/
def good : BringUpOutcome :=
  { idMode := true, trained := #v[3, 3, 3, 3, 3, 3, 3, 3], half := #v[0, 0, 0, 0, 0, 0, 0, 0], sideband := false, exchange := true, colsBad := [],
    colsFused := [], sparesFused := [], selfTest := true, hbmTrain := ⟨0xFFFF, 0⟩ }

/-- A protection table at 0x150000 whose entry 0 is of a record at 0x52000: its bytes 40 on as given. -/
def table (b : Nat) : List (Nat × List Byte) :=
  [(0x150000, toLE 4 (1 + 1 * 2 ^ 16)),
   (0x150100, toLE 64 (0x52000 + (9 * 2 ^ 41 + 0x52000) * 2 ^ 64 + (9 * 2 ^ 41 + 0x150100) * 2 ^ 128 + 0x60000 * 2 ^ 192 + 0x70000 * 2 ^ 256 + b * 2 ^ 320))]

/-- Context 0 with that table, its pipeline as given, CTX_PROT_CTRL and what protection holds. -/
def guarded (p : PipeState) (on : Bool) (x : Prot) (lg : Log) (b : Nat) : State :=
  sto { withRegs net [(Reg.ctxProtBaseLo 0, 0x150000), (Reg.ctxProtCtrl 0, if on then 0x80000000 else 0), (Reg.ctxProtArg 0, 4)] with
        ctxs := [(0, { state := .free, tileMask := 0xFF, pipe := { state := p }, prot := x, log := lg })] } (table b)

/-- Obsidian runs, channel `ch` is connected at version 1.3, and Obsidian holds what `f` adds. -/
def obsidian (ch : Nat) (f : Sec → Sec) : Dev :=
  { hosted with sec := f { state := .running, spdm := [(ch, { version := true, inUse := 0x13, capabilities := true, algorithms := true })] } }

/-- The same without a valid package identity. -/
def anonymous (ch : Nat) : Dev := { obsidian ch id with fuses := { fuses with pkgIdA := 0 } }

/-- Mailbox `m` holds an SPDM message, and may be answered with up to 8,192 bytes. -/
def mailed (m : Nat) (msg : List Byte) (f : Sec → Sec) : Dev :=
  withRegs (obsidian m (fun x => f { x with mailboxes := [(m, { want := msg.length + 1, request := bytesOf [5] ++ msg })] })) [(Reg.secMboxLen m, 0x20000000), (Reg.secMboxCtrl m, 0x10000000)]

/-- A session of a channel. -/
def session (n ch : Nat) (ready : Bool) : Session := { number := n, channel := ch, id := 7, ready := ready, mayKey := true }


/-- A list of known-bad words that is empty for every tile of the map is empty for every tile. -/
theorem badWords_none (l : Map Tile) (h : l.all (fun x => x.2.badWords.isEmpty) = true) (j : Nat) : (mget {} l j).badWords = [] := by
  induction l with
  | nil => rfl
  | cons x r ih =>
    simp only [List.all_cons, Bool.and_eq_true] at h
    by_cases hx : x.1 = j
    · simpa [mget, mfind, hx, List.isEmpty_iff] using h.1
    · simpa [mget, mfind, hx] using ih h.2

theorem noBad {s : State} (h : s.dev.badBursts = [] ∧ s.dev.tiles.all (fun x => x.2.badWords.isEmpty) = true) : NoBad s :=
  ⟨h.1, badWords_none _ h.2⟩

theorem reaches {s : State} {c a n : Nat} (h : (n ≠ 0 ∧ inMemory a n = true ∧ s.dev.pwr.state = .run ∧ s.dev.lost (memDie a) = false ∧
    s.dev.admits c a n = true) ∧ (isHbm a = true → s.dev.hbmServes a = true) ∧ s.dev.mustWait a n = false ∧ s.dev.directory = [] ∧
    s.dev.badBursts = [] ∧ s.dev.tiles.all (fun x => x.2.badWords.isEmpty) = true) : Reaches s c a n :=
  ⟨h.1.1, h.1.2.1, h.1.2.2.1, h.1.2.2.2.1, h.1.2.2.2.2, h.2.1, h.2.2.1, h.2.2.2.1, noBad h.2.2.2.2⟩

theorem engineReaches {s : State} {c a n : Nat} (h : Reaches s c a n) (h' : isHbm a = true ∧ isHbm (a + n - 1) = true) : EngineReaches s c a n :=
  ⟨h, h'⟩

theorem pairs {α β : Type} {l : List α} {f : α → List β} {P : α → β → Prop} (h : ∀ c ∈ l, ∀ t ∈ f c, P c t) : ∀ c t, c ∈ l → t ∈ f c → P c t :=
  fun c t hc ht => h c hc t ht


theorem witness_StepRunsFrontCommand : (∃ (s : State) (c : Instr) (rest : List Instr), s.pending = c :: rest) ∧ (∃ s : State, s.pending = []) :=
  ⟨⟨{ st up with pending := [.tapReset, .guardTimeout .mgmt] }, .tapReset, [.guardTimeout .mgmt], rfl⟩, ⟨st up, rfl⟩⟩

theorem witness_StepKeepsSound : ∃ (s t : State), s.Sound ∧ step s = .next t ∧ s.pending ≠ [] :=
  ⟨{ stm up 0x40 [1, 0, 2] with pending := [.tapReset] }, _, by unfold State.Sound Memory.wf; decide, rfl, by decide⟩

theorem witness_CommandsKeepTheQueue : (∃ (i : Instr) (s t : State), exec i s = .next t ∧ s.pending ≠ []) ∧
    (∃ (i : Instr) (s : State), (∀ p k, i ≠ .rwr p k) ∧ s.dev.sec.testLock = true) :=
  ⟨⟨.tapReset, { st up with pending := [.tapReset] }, _, rfl, by decide⟩, ⟨.tapReset, st up, (by intro p k h; cases h), rfl⟩⟩
theorem witness_HbmReadsWhatWasWritten :
  (∃ (s : State) (c : Fin 64) (off : BitVec 40) (bs : List Byte), off.toNat % 32 = 0 ∧ bs.length = 32 ∧ s.dev.hbmServes off.toNat = true ∧ s.dev.lost (memDie off.toNat) = false ∧ s.dev.admits c off.toNat 32 = true ∧ s.dev.directory = [] ∧ s.dev.zeroingIn off.toNat 32 = false ∧ s.dev.badBursts = []) :=
  ⟨st up, 0, 64, le 4 [1, 2, 3, 4, 5, 6, 7, 8], by decide +kernel⟩

theorem witness_BarredWritesChangeNothing :
  (∃ (s : State) (r : Requester) (c : Fin 64) (a : BitVec 39) (x : RegDef), Names r c a.toNat x ∧ x.kind ≠ .pair ∧ x.name ≠ "STRATA_CTRL" ∧ s.dev.mayAsk r = true ∧ (s.dev.req (reqIndex r)).pending = none ∧ s.dev.mayWriteReg r 0 a.toNat x = false) ∧
  (∃ (s : State) (r : Requester) (c : Fin 64) (a : BitVec 39) (x : RegDef), Names r c a.toNat x ∧ x.kind = .pair ∧ (x.place a.toNat).2 = 0 ∧ x.name ≠ "STRATA_CTRL" ∧ s.dev.mayAsk r = true ∧ (s.dev.req (reqIndex r)).pending = none ∧ s.dev.mayWriteReg r 0 a.toNat x = false) ∧
  (∃ (s : State) (p : Fin 4) (c : Fin 64) (a : BitVec 39) (x : RegDef), a.toNat % 4 = 0 ∧ a.toNat < 0x500000 ∧ regAt a.toNat = some x ∧ x.kind ≠ .pair ∧ c.val ≠ windowCtx a.toNat ∧ s.dev.mayAsk (.host p) = true ∧ (s.dev.req p).pending = none) ∧
  (∃ (s : State) (r : Requester) (a : BitVec 39), s.dev.mayAsk r = true ∧ (s.dev.req (reqIndex r)).pending = none ∧ (a.toNat % 4 ≠ 0 ∨ 0x500000 ≤ a.toNat ∨ regAt a.toNat = none)) ∧
  (∃ (s : State) (r : Requester) (c : Fin 64) (a : BitVec 39) (x : RegDef), Names r c a.toNat x ∧ latches x a.toNat = true ∧ s.dev.mayAsk r = true ∧ (s.dev.req (reqIndex r)).pending = none ∧ s.dev.mayReadReg r 0 a.toNat x = false) ∧
  (∃ (s : State) (p : Fin 4), s.dev.mayAsk (.host p) = true ∧ (s.dev.req p).pending = none ∧ s.dev.lost 4 = false) ∧
  (∃ (s : State) (r : Requester), s.dev.mayAsk r = true ∧ (s.dev.req (reqIndex r)).pending = none ∧ s.dev.lost 4 = false ∧ s.dev.ctx0OrAdmin r = false) ∧
  (∃ (s : State) (r : Requester) (c : Fin 64) (a : BitVec 39) (v : BitVec 32) (x : RegDef), Names r c a.toNat x ∧ x.kind = .word ∧ s.dev.mayAsk r = true ∧ (s.dev.req (reqIndex r)).pending = none ∧ s.dev.writeBarred r 0 a.toNat x = false ∧ s.dev.lost 4 = false ∧ s.dev.changesRsv a.toNat v = true ∧ s.dev.sec.testLock = true) ∧
  (∃ (s : State) (r : Requester) (c : Fin 64) (a : BitVec 39) (v : BitVec 32) (x : RegDef), Names r c a.toNat x ∧ x.kind = .word ∧ s.dev.mayAsk r = true ∧ (s.dev.req (reqIndex r)).pending = none ∧ s.dev.writeBarred r 0 a.toNat x = false ∧ s.dev.lost 4 = false ∧ s.dev.changesRsv a.toNat v = true ∧ s.dev.sec.testLock = false) :=
  ⟨⟨st owned, .host 2, 1, BitVec.ofNat 39 (Reg.ctxCairnArg 1 0), regOf (Reg.ctxCairnArg 1 0), by unfold Names; decide +kernel⟩,
  ⟨st owned, .host 2, 1, BitVec.ofNat 39 (Reg.ctxRngSeedLo 1), regOf (Reg.ctxRngSeedLo 1), by unfold Names; decide +kernel⟩,
  ⟨st owned, 1, 2, BitVec.ofNat 39 (Reg.ctxCairnArg 1 0), regOf (Reg.ctxCairnArg 1 0), by decide +kernel⟩,
  ⟨st owned, .mgmt, 0x203, by decide +kernel⟩,
  ⟨st owned, .host 2, 1, BitVec.ofNat 39 (Reg.ctxEvtLost 1), regOf (Reg.ctxEvtLost 1), by unfold Names; decide +kernel⟩,
  ⟨st owned, 0, by decide +kernel⟩,
  ⟨st owned, .host 0, by decide +kernel⟩,
  ⟨st up, .mgmt, 0, 0x210, 1, regOf 0x210, by unfold Names; decide +kernel⟩,
  ⟨st { up with sec := { up.sec with testLock := false } }, .mgmt, 0, 0x210, 1, regOf 0x210, by unfold Names; decide +kernel⟩⟩

theorem witness_GuardedPairsCommitOrFail :
  (∃ (s : State) (r : Requester) (c : Fin 64) (a : BitVec 39) (x : RegDef), NamesPair s r c a.toNat x) ∧
  (∃ (s : State) (r : Requester) (c : Fin 64) (a : BitVec 39) (v : BitVec 32) (w : BitVec 32) (x : RegDef) (b : Nat), b + 4 = a.toNat ∧ NamesPair s r c b x ∧ ctxMatches r c a.toNat = true ∧ a.toNat < 0x500000 ∧ (s.dev.req (reqIndex r)).pending = some (b, w) ∧ v ≠ ~~~w) ∧
  (∃ (s : State) (r : Requester) (c : Fin 64) (a : BitVec 39) (x : RegDef) (b : Nat), b + 4 = a.toNat ∧ NamesPair s r c b x ∧ ctxMatches r c a.toNat = true ∧ a.toNat < 0x500000 ∧ (s.dev.req (reqIndex r)).pending = none ∧ (s.dev.req (reqIndex r)).failed ≠ some b) ∧
  (∃ (s : State) (r : Requester) (c : Fin 64) (v : BitVec 32), s.dev.mayAsk r = true ∧ ctxMatches r c (Reg.ctxRngSeedLo c) = true ∧ s.dev.lost 4 = false ∧ (s.dev.req (reqIndex r)).pending = some (Reg.ctxRngSeedLo c, v) ∧ s.dev.mayWriteCtx r c = true) ∧
  (∃ (s : State) (r : Requester) (c : Fin 64), s.dev.mayAsk r = true ∧ s.dev.lost 4 = false ∧ s.dev.mayWriteCtx r c = true ∧ (s.dev.req (reqIndex r)).pending = none) ∧
  (∃ (s : State) (r : Requester) (b : Nat) (v : BitVec 32), (s.dev.req (reqIndex r)).pending = some (b, v)) ∧
  (∃ (s : State) (r : Requester), (s.dev.req (reqIndex r)).pending = none) :=
  ⟨⟨st up, .mgmt, 0, 0x200, regOf 0x200, by unfold NamesPair Names; decide +kernel⟩,
  ⟨st { up with reqs := [(4, { pending := some (0x200, 3) })] }, .mgmt, 0, 0x204, 3, 3, regOf 0x200, 0x200, by unfold NamesPair Names; decide +kernel⟩,
  ⟨st up, .mgmt, 0, 0x204, regOf 0x200, 0x200, by unfold NamesPair Names; decide +kernel⟩,
  ⟨st { owned with reqs := [(1, { pending := some (Reg.ctxRngSeedLo 1, 9) })] }, .host 1, 1, 9, by decide +kernel⟩,
  ⟨st owned, .host 1, 1, by decide +kernel⟩,
  ⟨st { up with reqs := [(4, { pending := some (0x200, 3) })] }, .mgmt, 0x200, 3, by decide +kernel⟩,
  ⟨st up, .mgmt, by decide +kernel⟩⟩

theorem witness_RegistersAreRead :
  (∃ (s : State) (r : Requester) (c : Fin 64) (a : BitVec 39) (x : RegDef), NamesCounter s r c a.toNat x ∧ s.dev.mayAsk r = true ∧ (s.dev.req (reqIndex r)).pending = none) ∧
  (∃ (s : State) (p : Fin 4) (k : HPacket) (x : RegDef), (s.dev.host p).up = true ∧ k.opc = 6 ∧ s.dev.regBehind p k = false ∧ k.len = 8 ∧ k.addr % 8 = 0 ∧ NamesCounter s (.host p) k.ctx k.addr x) ∧
  (∃ (s : State) (p : Fin 4) (k : HPacket) (x : RegDef) (v : BitVec 32), (s.dev.host p).up = true ∧ k.opc = 6 ∧ s.dev.regBehind p k = false ∧ k.len = 4 ∧ Names (.host p) k.ctx k.addr x ∧ s.dev.mayReadReg (.host p) 0 k.addr x = true ∧ x.space ≠ .tile ∧ mfind (s.dev.req p).latches k.addr = some v) ∧
  (∃ (s : State) (p : Fin 4) (k : HPacket), (s.dev.host p).up = true ∧ k.opc = 6 ∧ s.dev.regBehind p k = false ∧ (0x500000 ≤ k.addr ∨ regAt k.addr = none)) ∧
  (∃ (s : State) (r : Requester) (x : RegDef) (k : Nat), s.dev.mayAsk r = true ∧ (s.dev.req (reqIndex r)).pending = none ∧ s.dev.indTarget r 64 = .inl (x, k) ∧ s.dev.mayReadReg r 65 k x = true ∧ x.kind = .word ∧ latches x k = false ∧ x.name ≠ "LODE_NOW_LO" ∧ x.name ≠ "LODE_PHASE" ∧ (x.space = .tile → (s.dev.tile (keyBlock k)).state ≠ .retired) ∧ mfind (s.dev.req (reqIndex r)).latches (k + 2 ^ 32 * 65) = none) ∧
  (∃ (s : State) (r : Requester) (st : Nat), s.dev.mayAsk r = true ∧ (s.dev.req (reqIndex r)).pending = none ∧ s.dev.indTarget r 64 = .inr st ∧ st ≠ 2) :=
  ⟨⟨st { up with counters := [(0x408, 0x123456789)] }, .mgmt, 0, BitVec.ofNat 39 Reg.devRegRefused, regOf Reg.devRegRefused, by unfold NamesCounter Names; decide +kernel⟩,
  ⟨st { owned with counters := [(Reg.ctxEvtLost 1, 0x123456789)] }, 1, { hdr := hpHdr 6 0 5 0 1 0 8 0 (Reg.ctxEvtLost 1), data := [] }, regOf (Reg.ctxEvtLost 1), by unfold NamesCounter Names; decide +kernel⟩,
  ⟨st { owned with reqs := [(1, { latches := [(Reg.ctxEvtLost 1 + 4, 5)] })] }, 1, { hdr := hpHdr 6 0 5 0 1 0 4 0 (Reg.ctxEvtLost 1 + 4), data := [] }, regOf (Reg.ctxEvtLost 1), 5, by unfold Names; decide +kernel⟩,
  ⟨st owned, 1, { hdr := hpHdr 6 0 5 0 1 0 4 0 0x500000, data := [] }, by decide +kernel⟩,
  ⟨st { up with reqs := [(4, { indAddr := [(64, 0x05000208)] })] }, .mgmt, regOf (Reg.tileShareMapLo 5), Reg.tileShareMapLo 5, by decide +kernel⟩,
  ⟨st { up with reqs := [(4, { indAddr := [(64, 0x46000000)] })] }, .mgmt, 1, by decide +kernel⟩⟩

theorem witness_RegistersAreWritten :
  (∃ (s : State) (r : Requester) (c : Fin 64) (n : Fin 64), s.dev.mayAsk r = true ∧ (s.dev.req (reqIndex r)).pending = none ∧ s.dev.lost 4 = false ∧ s.dev.mayWriteCtx r c = true ∧ (s.dev.cairn c n).state ≠ .armed) ∧
  (∃ (s : State) (r : Requester) (c : Fin 64) (n : Fin 64), s.dev.mayAsk r = true ∧ (s.dev.req (reqIndex r)).pending = none ∧ s.dev.lost 4 = false ∧ s.dev.mayWriteCtx r c = true ∧ (s.dev.cairn c n).state = .armed) ∧
  (∃ (s : State) (p : Fin 4) (c : Fin 64) (n : Fin 64) (k : HPacket), (s.dev.host p).up = true ∧ k.opc = 7 ∧ s.dev.regBehind p k = false ∧ k.ctx = c.val ∧ k.addr = Reg.ctxCairnArg c n ∧ k.data.length = 4 ∧ k.len = 4 ∧ (s.dev.req p).pending = none ∧ s.dev.lost 4 = false ∧ s.dev.mayWriteCtx (.host p) c = true ∧ (s.dev.cairn c n).state ≠ .armed) ∧
  (∃ (s : State) (r : Requester) (v : BitVec 32), Heard s r Reg.devAdmin v ∧ isCtx0 r = true) ∧
  (∃ (s : State) (r : Requester) (v : BitVec 32) (l : List Nat), Heard s r Reg.devEvtCons v ∧ s.dev.ctx0OrAdmin r = true ∧ seqRange (s.dev.reg Reg.devEvtCons) v (s.dev.eventRingAt 64).size = some l ∧ (∀ n, n ∈ l → n ∈ s.dev.pkgEvents.valid)) ∧
  (∃ (s : State) (r : Requester) (v : BitVec 32), Heard s r Reg.devEvtCons v ∧ s.dev.ctx0OrAdmin r = true ∧ (∀ l, seqRange (s.dev.reg Reg.devEvtCons) v (s.dev.eventRingAt 64).size = some l → ∃ n, n ∈ l ∧ ¬ n ∈ s.dev.pkgEvents.valid)) ∧
  (∃ (s : State) (r : Requester) (t : Fin 64) (x : RegDef), s.dev.mayAsk r = true ∧ (s.dev.req (reqIndex r)).pending = none ∧ isCtx0 r = true ∧ s.dev.indTarget r 64 = .inl (x, Reg.tileShareMapLo t) ∧ (s.dev.tile t).state ≠ .retired) :=
  ⟨⟨st owned, .host 1, 1, 63, by decide +kernel⟩,
  ⟨st { owned with cairns := [(64 + 63, { state := .armed })] }, .host 1, 1, 63, by decide +kernel⟩,
  ⟨st owned, 1, 1, 5, { hdr := hpHdr 7 0 5 0 1 0 4 0 (Reg.ctxCairnArg 1 5), data := [1, 2, 3, 4] }, by decide +kernel⟩,
  ⟨st up, .mgmt, 10, by unfold Heard; decide +kernel⟩,
  ⟨st { up with pkgEvents := { next := 2, valid := [0, 1] }, regs := [(Reg.devEvtCtrl, 0x80000004)] }, .mgmt, 2, [0, 1], by unfold Heard; decide +kernel⟩,
  ⟨st up, .mgmt, 2, by unfold Heard; decide +kernel⟩,
  ⟨st { up with reqs := [(4, { indAddr := [(64, 0x05000208)] })] }, .mgmt, 5, regOf (Reg.tileShareMapLo 5), by decide +kernel⟩⟩

theorem witness_StartUpBeginsAndWaitsForTheMirror :
  (∃ (s : State) (o : BringUpOutcome), s.dev.bringUp = .off ∧ s.dev.fuses.half 4 ≠ s.dev.fuses.half 5 ∧ o.sideband = false) ∧
  (∃ (s : State), s.dev.bringUp = .off ∧ s.dev.fuses.half 4 = s.dev.fuses.half 5) ∧
  (∃ (s : State) (o : BringUpOutcome) (x : MirrorOutcome), s.dev.bringUp = .waitMirror ∧ s.dev.outcome = some o ∧ s.dev.idModeNow = true ∧ o.exchange = false ∧ x.exchange = false) ∧
  (∃ (s : State), s.dev.bringUp = .waitMirror ∧ s.dev.outcome.isSome = true ∧ s.dev.serving 7 = [] ∧ s.dev.fuses.dieNumber 0 ≠ 0) :=
  ⟨⟨st { fuses := fuses }, { idMode := true, trained := #v[3, 3, 3, 3, 3, 3, 3, 3], half := #v[0, 0, 0, 0, 0, 0, 0, 0], sideband := false, exchange := true, colsBad := [], colsFused := [], sparesFused := [], selfTest := true, hbmTrain := ⟨0xFFFF, 0⟩ }, by decide +kernel⟩,
  ⟨st { fuses := { fuses with halfId := #v[false, false, true, true, true, true] } }, by decide +kernel⟩,
  ⟨st { fuses := fuses, bringUp := .waitMirror, outcome := some { idMode := true, trained := #v[3, 3, 3, 3, 3, 3, 3, 3], half := #v[0, 0, 0, 0, 0, 0, 0, 0], sideband := false, exchange := false, colsBad := [], colsFused := [], sparesFused := [], selfTest := true, hbmTrain := ⟨0xFFFF, 0⟩ }, idModeNow := true }, { idMode := true, trained := #v[3, 3, 3, 3, 3, 3, 3, 3], half := #v[0, 0, 0, 0, 0, 0, 0, 0], sideband := false, exchange := false, colsBad := [], colsFused := [], sparesFused := [], selfTest := true, hbmTrain := ⟨0xFFFF, 0⟩ }, { trained := 3, half := 0, exchange := false }, by decide +kernel⟩,
  ⟨st { fuses := { fuses with posId := #v[true, true, true, false, false, true] }, bringUp := .waitMirror, outcome := some { idMode := true, trained := #v[3, 3, 3, 3, 3, 3, 3, 3], half := #v[0, 0, 0, 0, 0, 0, 0, 0], sideband := false, exchange := true, colsBad := [], colsFused := [], sparesFused := [], selfTest := true, hbmTrain := ⟨0xFFFF, 0⟩ } }, by decide +kernel⟩⟩

theorem witness_DieToDieCellsKeepTheirOrder :
  (∃ (s : State) (x : D2dId) (high : Bool) (q : CellRequest), s.dev.cellsPass x.link x.module = true ∧ ((s.dev.module x.link x.module).endAt high).toReplay = 0 ∧ s.dev.maySend x.link x.module high q = true ∧ q.cls ≠ 0) ∧
  (∃ (s : State) (x : D2dId) (high : Bool) (cell : BitVec 640), s.dev.cellsPass x.link x.module = true ∧ cellCrcOk cell = true ∧ cellClass cell = 3 ∧ linkCarries x.link 3 = true ∧ s.dev.open_ = true ∧ cellSeq cell = (((s.dev.module x.link x.module).endAt high).rxSeq + 1).toNat) ∧
  (∃ (s : State) (x : D2dId) (high : Bool) (cell : BitVec 640), s.dev.cellsPass x.link x.module = true ∧ cellCrcOk cell = false ∧ ((s.dev.module x.link x.module).endAt high).discarding = false) ∧
  (∃ (s : State) (x : D2dId) (up : Bool) (lane : Fin 68) (b : Bucket), (s.dev.module x.link x.module).inService = true ∧ mfind s.dev.ras.buckets (bucketKey 4 (d2dLaneUnit x.link x.module lane (if up then (linkEnds x.link).2 else (linkEnds x.link).1))) = some b ∧ b.level + 1 < s.dev.lbN 4) :=
  ⟨⟨st up, ⟨3, 1⟩, true, { cls := 3, stream := 0, ctx := 1, last := true, err := false, payload := 77 }, by decide +kernel⟩,
  ⟨st up, ⟨3, 1⟩, false, makeCell { cls := 3, stream := 0, ctx := 1, last := true, err := false, payload := 77 } 0 0 0 0, by decide +kernel⟩,
  ⟨st up, ⟨7, 0⟩, false, 5, by decide +kernel⟩,
  ⟨st { up with ras := { up.ras with buckets := [(bucketKey 4 (d2dLaneUnit 3 1 67 4), { level := 1 })] } }, ⟨3, 1⟩, true, 67, { level := 1 }, by decide +kernel⟩⟩

theorem witness_ClocksAndDiesAreLostAndHeld :
  (∃ (s : State) (i : Fin 6), s.dev.clocked i = true) ∧
  (∃ (s : State) (i : Fin 6) (ns : BitVec 32), (s.dev.die i).holdover = true ∧ ns.toNat ≤ 10000) ∧
  (∃ (s : State) (i : Fin 6), (s.dev.die i).holdover = true ∧ s.dev.ras.resets = []) ∧
  (∃ (s : State) (i : Fin 6), s.dev.clocked i = true ∧ s.dev.ras.resets = []) ∧
  (∃ (s : State) (n : Fin 8) (i : Fin 6), s.dev.open_ = true ∧ (linksOf i).contains n.val = true ∧ s.dev.serving n ≠ [] ∧ (s.dev.die i).absent = false ∧ s.dev.lost (otherEnd n i) = false ∧ s.dev.ras.resets = []) ∧
  (∃ (s : State) (n : Fin 8) (i : Fin 6), s.dev.pwr.state ≠ .forward ∧ s.dev.open_ = true ∧ (linksOf i).contains n.val = true ∧ s.dev.serving n ≠ [] ∧ (s.dev.die i).absent = false ∧ s.dev.lost (otherEnd n i) = false ∧ s.dev.ras.resets = []) :=
  ⟨⟨st up, 5, by decide +kernel⟩,
  ⟨st { up with dies := [(4, { locked := true, holdover := true })] }, 4, 10000, by decide +kernel⟩,
  ⟨st { up with dies := [(2, { locked := true, holdover := true })] }, 2, by decide +kernel⟩,
  ⟨st up, 1, by decide +kernel⟩,
  ⟨st up, 1, 2, by decide +kernel⟩,
  ⟨st up, 7, 5, by decide +kernel⟩⟩

theorem witness_PowerStatesFollowTheirCommands :
  (∃ (s : State) (r : Requester), Heard s r Reg.pwrCtrl (cmdWord s Reg.pwrCtrl 1) ∧ s.dev.ctx0OrAdmin r = true ∧ s.dev.pwr.state = .run ∧ s.dev.pwrIdle = true) ∧
  (∃ (s : State) (r : Requester), Heard s r Reg.pwrCtrl (cmdWord s Reg.pwrCtrl 2) ∧ s.dev.ctx0OrAdmin r = true ∧ s.dev.pwr.state = .quiesce) ∧
  (∃ (s : State) (r : Requester), Heard s r Reg.pwrCtrl (cmdWord s Reg.pwrCtrl 3) ∧ s.dev.ctx0OrAdmin r = true ∧ s.dev.pwr.state = .quiesce) :=
  ⟨⟨st up, .mgmt, by unfold Heard; decide +kernel⟩,
  ⟨st { up with pwr := { up.pwr with state := .quiesce } }, .i3c, by unfold Heard; decide +kernel⟩,
  ⟨st { up with pwr := { up.pwr with state := .quiesce } }, .mgmt, by unfold Heard; decide +kernel⟩⟩

theorem witness_PowerLimitsMoveLevels :
  (∃ (s : State) (r : Requester) (q : Fin 4) (v : BitVec 32), Heard s r (Reg.pwrDvfsCtrl q) v ∧ s.dev.ctx0OrAdmin r = true ∧ fb v 3 0 ≤ 8) ∧
  (∃ (s : State) (r : Requester) (q : Fin 4) (v : BitVec 32), Heard s r (Reg.pwrDvfsCtrl q) v ∧ s.dev.ctx0OrAdmin r = true ∧ 8 < fb v 3 0) ∧
  (∃ (s : State) (q : Fin 4) (mv : BitVec 10), s.dev.pwr.state = .run ∧ s.dev.lost q = false ∧ s.dev.bringUp ≠ .off ∧ s.dev.pipesEmpty q = true ∧ (s.dev.diePower q).level < s.dev.effectiveLevel q ∧ s.dev.setPoint q (s.dev.effectiveLevel q) ≤ mv.toNat) ∧
  (∃ (s : State) (w : BitVec 12), s.dev.rb Reg.pwrLimit 31 = true ∧ s.dev.rf Reg.pwrLimit 11 0 < w.toNat) ∧
  (∃ (s : State), s.dev.pwr.capLow = false) ∧
  (∃ (s : State), s.dev.pwr.capLow = true ∧ s.dev.pwr.savedLimit.length = 4) ∧
  (∃ (s : State) (x : Temps), s.dev.bringUp ≠ .off ∧ tempsTrip x = false) ∧
  (∃ (s : State) (x : Temps), s.dev.bringUp = .done ∧ tempsTrip x = true ∧ s.dev.pwr.state ≠ .tripped) ∧
  (∃ (s : State) (x : Temps), s.dev.pwr.temps = some x ∧ tempsThrottle x 0 = true) :=
  ⟨⟨st up, .mgmt, 3, 8, by unfold Heard; decide +kernel⟩,
  ⟨st up, .mgmt, 0, 9, by unfold Heard; decide +kernel⟩,
  ⟨st { up with regs := [(Reg.pwrDvfsCtrl 2, 8)], pwr := { up.pwr with dies := [(2, { level := 7, limit := 8, thermal := 8 })] } }, 2, 1023, by decide +kernel⟩,
  ⟨st up, 3601, by decide +kernel⟩,
  ⟨st up, by decide +kernel⟩,
  ⟨st { up with pwr := { up.pwr with capLow := true, savedLimit := [8, 7, 6, 5] } }, by decide +kernel⟩,
  ⟨st up, { compute := #v[100, 20, 20, 20], io := #v[20, 20], hbm := #v[20, 20, 20, 20, 20, 20, 20, 20, 20, 20, 20, 20, 20, 20, 20, 104] }, by decide +kernel⟩,
  ⟨st up, { compute := #v[115, 20, 20, 20], io := #v[20, 20], hbm := #v[20, 20, 20, 20, 20, 20, 20, 20, 20, 20, 20, 20, 20, 20, 20, 20] }, by decide +kernel⟩,
  ⟨st { up with pwr := { up.pwr with temps := some { compute := #v[100, 20, 20, 20], io := #v[20, 20], hbm := #v[20, 20, 20, 20, 20, 20, 20, 20, 20, 20, 20, 20, 20, 20, 20, 20] } } }, { compute := #v[100, 20, 20, 20], io := #v[20, 20], hbm := #v[20, 20, 20, 20, 20, 20, 20, 20, 20, 20, 20, 20, 20, 20, 20, 20] }, by decide +kernel⟩⟩

theorem witness_StartUpWindowEnds :
  (∃ (s : State), s.dev.bringUp = .window) ∧
  (∃ (s : State) (r : Requester), Heard s r Reg.pwrBootCtrl (cmdWord s Reg.pwrBootCtrl 1) ∧ s.dev.ctx0OrAdmin r = true ∧ s.dev.bringUp = .window) :=
  ⟨⟨st { up with bringUp := .window, pwr := { phase := 3 } }, by decide +kernel⟩,
  ⟨st { up with bringUp := .window, pwr := { phase := 3 } }, .mgmt, by unfold Heard; decide +kernel⟩⟩

theorem witness_ArrayDescriptorsAreTakenInTurn :
  (∃ (s : State) (t : Fin 64) (a : Nat) (v : BitVec 128), s.begin.descDue s.mem t (· == 1) = some (a, v) ∧ (s.dev.tile t).loader = none ∧ loadOk v (s.dev.tile t).width = true) ∧
  (∃ (s : State) (t : Fin 64) (a : Nat) (v : BitVec 128), s.begin.descDue s.mem t (· == 2) = some (a, v) ∧ (s.dev.tile t).passes.length < 2 ∧ (s.dev.tile t).descTaken.passOk v = true) ∧
  (∃ (s : State) (t : Fin 64) (a : Nat) (v : BitVec 128), s.begin.descDue s.mem t (· == 3) = some (a, v) ∧ outputOk v (s.dev.reg (Reg.tileConvCtrl t)).toNat = true) ∧
  (∃ (s : State) (t : Fin 64) (a : Nat) (v : BitVec 128), s.begin.descDue s.mem t (fun op => op == 0 || 4 ≤ op) = some (a, v) ∧ fb v 127 124 = 0) ∧
  (∃ (s : State) (t : Fin 64) (a : Nat) (v : BitVec 128), s.begin.descDue s.mem t (· == 1) = some (a, v) ∧ (s.dev.tile t).loader = none ∧ loadOk v (s.dev.tile t).width = false ∧ s.dev.ownerOf t = none) ∧
  (∃ (s : State) (t : Fin 64) (a : Nat) (v : BitVec 128), s.begin.descDue s.mem t (fun op => op == 0 || 4 ≤ op) = some (a, v) ∧ 4 ≤ fb v 127 124 ∧ s.dev.ownerOf t = none) :=
  ⟨⟨stm (tiled arrayTile) scr3 (toLE 16 descB.toNat), 3, 0, descB, by decide +kernel⟩,
  ⟨stm (tiled arrayTile) scr3 (toLE 16 descP.toNat), 3, 0, descP, by decide +kernel⟩,
  ⟨stm (tiled arrayTile) scr3 (toLE 16 descO.toNat), 3, 0, descO, by decide +kernel⟩,
  ⟨stm (tiled arrayTile) scr3 (toLE 16 1), 3, 0, 1, by decide +kernel⟩,
  ⟨stm (tiled arrayTile) scr3 (toLE 16 (descB.toNat + 2 * 2 ^ 121)), 3, 0, BitVec.ofNat 128 (descB.toNat + 2 * 2 ^ 121), by decide +kernel⟩,
  ⟨stm (tiled arrayTile) scr3 (toLE 16 (4 * 2 ^ 124)), 3, 0, BitVec.ofNat 128 (4 * 2 ^ 124), by decide +kernel⟩⟩

theorem witness_ArrayPipelineAdvances :
  (∃ (s : State) (t : Fin 64) (l : Loader), (s.dev.tile t).loader = some l ∧ s.dev.tileRuns t = true ∧ (s.dev.tile t).loadStalled l = false ∧ (s.dev.tile t).badWords = []) ∧
  (∃ (s : State) (t : Fin 64) (p : Pass), (s.dev.tile t).passes.head? = some p ∧ s.dev.tileRuns t = true ∧ (s.dev.tile t).holds p = .no ∧ (s.dev.tile t).pipe.length < 6 ∧ (s.dev.tile t).badWords = []) ∧
  (∃ (s : State) (t : Fin 64), s.dev.tclk t = true ∧ (s.dev.tile t).state ≠ .retired ∧ (s.dev.tile t).passes = []) ∧
  (∃ (s : State) (t : Fin 64) (b : Block) (rest : List Block), (s.dev.tile t).pipe = b :: rest ∧ s.dev.tileRuns t = true ∧ dDrain b.desc = false) ∧
  (∃ (s : State) (t : Fin 64) (b : Block) (rest : List Block) (o : Output), (s.dev.tile t).pipe = b :: rest ∧ s.dev.tileRuns t = true ∧ dDrain b.desc = true ∧ mfind (s.dev.tile t).outputs b.output = some o) ∧
  (∃ (s : State) (t : Fin 64) (n : Nat) (a : Nat) (o : Output) (r : Drained) (bs : List Byte), s.dev.tileRuns t = true ∧ (s.dev.tile t).drainNext = some n ∧ (s.dev.tile t).chPending = none ∧ mfind (s.dev.tile t).outputs ((s.dev.tile t).set n).output = some o ∧ r = drainSet (s.dev.tile t) ((s.dev.tile t).set n) (oFmt o.desc) (s.dev.reg (Reg.tileConvCtrl t)).toNat ∧ drainOk (s.dev.tile t) ((s.dev.tile t).set n) o.desc (s.dev.reg (Reg.tileConvCtrl t)).toNat ((s.dev.tile t).set n).order r = true ∧ bs = packCodes (codeWidth (oFmt o.desc)) r.codes ∧ a = scrBase t + oAddr o.desc + ((s.dev.tile t).set n).order * roundUp bs.length 256 ∧ oStream o.desc = false ∧ r.scales = [] ∧ (s.dev.tile t).badWords = []) ∧
  (∃ (s : State) (t : Fin 64) (p : Nat × AccSet), s.dev.tclk t = true ∧ (s.dev.tile t).sets.find? (fun p => p.2.drain == .draining) = some p) :=
  ⟨⟨stm (tiled { arrayTile with loader := some { desc := descB, before := 0 } }) (scr3 + 8192) (toLE 64 77), 3, { desc := descB, before := 0 }, by decide +kernel⟩,
  ⟨stm (tiled { arrayTile with passes := [{ desc := descP, output := 1 }] }) (scr3 + 4096) (toLE 64 77), 3, { desc := descP, output := 1 }, by decide +kernel⟩,
  ⟨st (tiled { arrayTile with keeper := { state := .run, history := 7 } }), 3, by decide +kernel⟩,
  ⟨st (tiled { arrayTile with pipe := [block1 (descP &&& ~~~(1#128 <<< 50))] }), 3, block1 (descP &&& ~~~(1#128 <<< 50)), [], by decide +kernel⟩,
  ⟨st (tiled { arrayTile with pipe := [block1 descP] }), 3, block1 descP, [], { desc := descO, addr := 0 }, by decide +kernel⟩,
  ⟨st (tiled { arrayTile with sets := [(0, { values := [(0, 5), (33, 0xFFFFFFFE)], vtype := some true, drain := .pending, output := 1 })] }), 3, 0, scr3 + 0x4000, { desc := descO, addr := 0 }, drainSet { arrayTile with sets := [(0, { values := [(0, 5), (33, 0xFFFFFFFE)], vtype := some true, drain := .pending, output := 1 })] } { values := [(0, 5), (33, 0xFFFFFFFE)], vtype := some true, drain := .pending, output := 1 } 1 0, packCodes (codeWidth 1) (drainSet { arrayTile with sets := [(0, { values := [(0, 5), (33, 0xFFFFFFFE)], vtype := some true, drain := .pending, output := 1 })] } { values := [(0, 5), (33, 0xFFFFFFFE)], vtype := some true, drain := .pending, output := 1 } 1 0).codes, by decide +kernel⟩,
  ⟨st (tiled { arrayTile with sets := [(2, { drain := .draining })] }), 3, (2, { drain := .draining }), by decide +kernel⟩⟩

theorem witness_ResidueFailuresReplayAndNarrow :
  (∃ (s : State) (t : Fin 64) (n : Nat) (dpus : List (Fin 32 × Fin 32)) (b : Block), (s.dev.tile t).pipe[n]? = some b ∧ s.dev.tileRuns t = true ∧ b.replayed = false ∧ (s.dev.tile t).clocked dpus ≠ [] ∧ ((s.begin.each ((s.dev.tile t).clocked dpus) (fun d p => d.bump (Reg.tileColResidue t p.2))).chargeBlock s.mem t ((s.dev.tile t).clocked dpus) false).2 = false) ∧
  (∃ (s : State) (t : Fin 64) (n : Nat) (col : Fin 32) (b : Block), (s.dev.tile t).pipe[n]? = some b ∧ s.dev.tileRuns t = true ∧ b.replayed = true ∧ (s.dev.tile t).bypass.getLsbD col = false ∧ 24 < (s.dev.tile t).width ∧ s.dev.ras.resets = [] ∧ s.dev.ownerOf t = none) ∧
  (∃ (s : State) (r : Requester) (t : Fin 64) (v : BitVec 32), Heard s r (Reg.tileColForce t) v ∧ isCtx0 r = true ∧ s.dev.lost (dieOf t) = false ∧ (s.dev.tile t).state ≠ .retired ∧ s.dev.strata.activated = false ∧ popcount ((s.dev.tile t).bypass ||| v).toNat 32 ≤ 8) :=
  ⟨⟨st (tiled { arrayTile with pipe := [block1 descP, block1 descP] }), 3, 1, [(4, 5)], block1 descP, by decide +kernel⟩,
  ⟨st (tiled { arrayTile with state := .running, pipe := [{ block1 descP with replayed := true }] }), 3, 0, 5, { block1 descP with replayed := true }, by decide +kernel⟩,
  ⟨st (tiled arrayTile), .mgmt, 3, 0x81, by unfold Heard; decide +kernel⟩⟩

theorem witness_KeeperAndConversionControl :
  (∃ (s : State) (t : Fin 64), s.dev.tclk t = true ∧ (s.dev.tile t).state ≠ .retired ∧ (s.dev.tile t).keeper.dummyDue = true) ∧
  (∃ (s : State) (t : Fin 64), s.dev.tclk t = true ∧ (s.dev.tile t).state ≠ .retired ∧ (s.dev.tile t).keeper.state = .fill ∧ (s.dev.tile t).keeper.fillMax < (s.dev.tile t).keeper.gap) ∧
  (∃ (s : State) (t : Fin 64), s.dev.tclk t = true ∧ (s.dev.tile t).state ≠ .retired ∧ (s.dev.tile t).keeper.state = .decay ∧ (s.dev.tile t).keeper.interval ≤ (s.dev.tile t).keeper.clock) ∧
  (∃ (s : State) (t : Fin 64), s.dev.tclk t = true ∧ (s.dev.tile t).state ≠ .retired ∧ (s.dev.tile t).keeper.state = .ramp ∧ (s.dev.tile t).keeper.interval ≤ (s.dev.tile t).keeper.clock) ∧
  (∃ (s : State) (r : Requester) (q : Fin 4) (v : BitVec 32), Heard s r (Reg.tileKeeper q) v ∧ isCtx0 r = true ∧ s.dev.lost q = false) ∧
  (∃ (s : State) (r : Requester) (c : Fin 64) (t : Fin 64) (v : BitVec 32), Heard s r (Reg.tileConvCtrl t) v ∧ s.dev.mayWriteTile r c t = true ∧ s.dev.lost (dieOf t) = false ∧ (s.dev.tile t).state ≠ .retired) :=
  ⟨⟨st (tiled { keeper := { state := .fill, acc := 70, level := 9 } }), 3, by decide +kernel⟩,
  ⟨st (tiled { keeper := { state := .fill, dummies := 5, gap := 2000 } }), 3, by decide +kernel⟩,
  ⟨st (tiled { keeper := { state := .decay, level := 60, clock := 3000 } }), 3, by decide +kernel⟩,
  ⟨st (tiled { keeper := { state := .ramp, level := 60, clock := 3000 } }), 3, by decide +kernel⟩,
  ⟨st up, .mgmt, 2, 0x81000801, by unfold Heard; decide +kernel⟩,
  ⟨st { owned with tiles := [(3, arrayTile)] }, .host 1, 1, 3, 0x30, by unfold Heard; decide +kernel⟩⟩

theorem witness_LaneArithmeticIsLaneWise :
  (∃ (s : State) (t : Fin 64) (a : Nat) (v : BitVec 64), s.begin.vecDue s.mem t (· == 0x08) = some (a, v) ∧ vType v ≠ 3) ∧
  (∃ (s : State) (t : Fin 64) (a : Nat) (v : BitVec 64), s.begin.vecDue s.mem t (· == 0x09) = some (a, v) ∧ vType v ≠ 3) ∧
  (∃ (s : State) (t : Fin 64) (a : Nat) (v : BitVec 64), s.begin.vecDue s.mem t (· == 0x0A) = some (a, v) ∧ vType v ≠ 3) ∧
  (∃ (s : State) (t : Fin 64) (a : Nat) (v : BitVec 64), s.begin.vecDue s.mem t (· == 0x0B) = some (a, v) ∧ vType v ≠ 3) ∧
  (∃ (s : State) (t : Fin 64) (a : Nat) (v : BitVec 64), s.begin.vecDue s.mem t (· == 0x0C) = some (a, v) ∧ vType v ≠ 3) ∧
  (∃ (s : State) (t : Fin 64) (a : Nat) (v : BitVec 64), s.begin.vecDue s.mem t (· == 0x0D) = some (a, v) ∧ vType v ≠ 3) ∧
  (∃ (s : State) (t : Fin 64) (a : Nat) (v : BitVec 64), s.begin.vecDue s.mem t (· == 0x0E) = some (a, v) ∧ vType v ≠ 3) ∧
  (∃ (s : State) (t : Fin 64) (a : Nat) (v : BitVec 64), s.begin.vecDue s.mem t (· == 0x0F) = some (a, v) ∧ vType v ≠ 3) ∧
  (∃ (b : Nat), b < 2 ^ 32) ∧
  (∃ (s : State) (t : Fin 64) (a : Nat) (v : BitVec 64), s.begin.vecDue s.mem t (· == 0x08) = some (a, v) ∧ vType v = 3 ∧ s.dev.ownerOf t = none) :=
  ⟨⟨vec (vTile) (vIns 8 2 0), 3, 0, vIns 8 2 0, by decide +kernel⟩,
  ⟨vec (vTile) (vIns 9 0 0), 3, 0, vIns 9 0 0, by decide +kernel⟩,
  ⟨vec (vTile) (vIns 10 1 0), 3, 0, vIns 10 1 0, by decide +kernel⟩,
  ⟨vec (vTile) (vIns 11 2 0), 3, 0, vIns 11 2 0, by decide +kernel⟩,
  ⟨vec (vTile) (vIns 12 0 0), 3, 0, vIns 12 0 0, by decide +kernel⟩,
  ⟨vec (vTile) (vIns 13 1 0), 3, 0, vIns 13 1 0, by decide +kernel⟩,
  ⟨vec (vTile) (vIns 14 2 0), 3, 0, vIns 14 2 0, by decide +kernel⟩,
  ⟨vec (vTile) (vIns 15 0 0), 3, 0, vIns 15 0 0, by decide +kernel⟩,
  ⟨7, by decide +kernel⟩,
  ⟨vec (vTile) (vIns 8 3 0), 3, 0, vIns 8 3 0, by decide +kernel⟩⟩

theorem witness_SpecialFunctionsRoundEachLaneOnce :
  (∃ (s : State) (t : Fin 64) (a : Nat) (v : BitVec 64), s.begin.vecDue s.mem t (· == 0x10) = some (a, v) ∧ vType v < 2) ∧
  (∃ (s : State) (t : Fin 64) (a : Nat) (v : BitVec 64), s.begin.vecDue s.mem t (· == 0x11) = some (a, v) ∧ vType v < 2) ∧
  (∃ (s : State) (t : Fin 64) (a : Nat) (v : BitVec 64), s.begin.vecDue s.mem t (· == 0x12) = some (a, v) ∧ vType v < 2) ∧
  (∃ (s : State) (t : Fin 64) (a : Nat) (v : BitVec 64), s.begin.vecDue s.mem t (· == 0x13) = some (a, v) ∧ vType v < 2) ∧
  (∃ (s : State) (t : Fin 64) (a : Nat) (v : BitVec 64), s.begin.vecDue s.mem t (· == 0x10) = some (a, v) ∧ vType v = 2 ∧ s.dev.ownerOf t = none) :=
  ⟨⟨vec (vTile) (vIns 16 1 0), 3, 0, vIns 16 1 0, by decide +kernel⟩,
  ⟨vec (vTile) (vIns 17 0 0), 3, 0, vIns 17 0 0, by decide +kernel⟩,
  ⟨vec (vTile) (vIns 18 1 0), 3, 0, vIns 18 1 0, by decide +kernel⟩,
  ⟨vec (vTile) (vIns 19 0 0), 3, 0, vIns 19 0 0, by decide +kernel⟩,
  ⟨vec (vTile) (vIns 16 2 0), 3, 0, vIns 16 2 0, by decide +kernel⟩⟩

theorem witness_RowsAndTransposes :
  (∃ (s : State) (t : Fin 64) (a : Nat) (v : BitVec 64), s.begin.vecDue s.mem t (· == 0x18) = some (a, v) ∧ vType v ≠ 3 ∧ rowCount v ≤ laneCount (vType v) ∧ (s.dev.tile t).rowKind ≠ some true) ∧
  (∃ (s : State) (t : Fin 64) (a : Nat) (v : BitVec 64), s.begin.vecDue s.mem t (· == 0x19) = some (a, v) ∧ vType v ≠ 3 ∧ rowCount v ≤ laneCount (vType v) ∧ (s.dev.tile t).rowKind ≠ some true) ∧
  (∃ (s : State) (t : Fin 64) (a : Nat) (v : BitVec 64), s.begin.vecDue s.mem t (· == 0x1A) = some (a, v) ∧ vType v ≠ 3 ∧ rowCount v ≤ laneCount (vType v) ∧ (s.dev.tile t).rowKind ≠ some false) ∧
  (∃ (s : State) (t : Fin 64) (a : Nat) (v : BitVec 64), s.begin.vecDue s.mem t (· == 0x1B) = some (a, v) ∧ vType v ≠ 3 ∧ (s.dev.tile t).rowKind ≠ some (vAddr v % 2 == 0)) ∧
  (∃ (s : State) (t : Fin 64) (a : Nat) (v : BitVec 64), s.begin.vecDue s.mem t (· == 0x1C) = some (a, v) ∧ vType v ≠ 3 ∧ vAddr v * 32 + 4 ≤ scrSize ∧ (s.dev.tile t).badWords = []) ∧
  (∃ (s : State) (t : Fin 64) (a : Nat) (v : BitVec 64), s.begin.vecDue s.mem t (· == 0x1D) = some (a, v) ∧ vType v ≠ 3 ∧ vVd v % 2 = 0 ∧ vVa v ≠ 31) :=
  ⟨⟨vec (vTile) (vIns 24 0 9), 3, 0, vIns 24 0 9, by decide +kernel⟩,
  ⟨vec (vTile) (vIns 25 1 0), 3, 0, vIns 25 1 0, by decide +kernel⟩,
  ⟨vec (vTile) (vIns 26 0 0), 3, 0, vIns 26 0 0, by decide +kernel⟩,
  ⟨vec ({ vTile with rowKind := some false, rowStack := [(9, 0x40400000)] }) (vIns 27 0 0), 3, 0, vIns 27 0 0, by decide +kernel⟩,
  ⟨vec (vTile) (vIns 28 1 0), 3, 0, vIns 28 1 0, by decide +kernel⟩,
  ⟨vec (vTile) (vIns 29 0 0), 3, 0, vIns 29 0 0, by decide +kernel⟩⟩

theorem witness_StripsSemaphoresAndOrder :
  (∃ (s : State) (t : Fin 64) (a : Nat) (v : BitVec 64), s.begin.vecDue s.mem t (fun op => op == 0 || !vOpListed op) = some (a, v) ∧ vOp v = 0 ∧ vType v ≠ 3) ∧
  (∃ (s : State) (t : Fin 64) (a : Nat) (v : BitVec 64), s.begin.vecDue s.mem t (fun op => op == 0 || !vOpListed op) = some (a, v) ∧ vOpListed (vOp v) = false ∧ s.dev.ownerOf t = none) ∧
  (∃ (s : State) (t : Fin 64) (a : Nat) (v : BitVec 64), s.begin.vecDue s.mem t (· == 1) = some (a, v) ∧ vType v ≠ 3 ∧ stripOk (s.dev.tile t) v = true ∧ (s.dev.tile t).badWords = []) ∧
  (∃ (s : State) (t : Fin 64) (a : Nat) (v : BitVec 64), s.begin.vecDue s.mem t (· == 2) = some (a, v) ∧ vType v ≠ 3 ∧ stripOk (s.dev.tile t) v = true ∧ srOk v = true ∧ vScale v = 0 ∧ (s.dev.tile t).badWords = [] ∧ fb (s.dev.tile t).layout 31 0 = 0) ∧
  (∃ (s : State) (t : Fin 64) (a : Nat) (v : BitVec 64), s.begin.vecDue s.mem t (· == 3) = some (a, v) ∧ vType v ≠ 3 ∧ vAddr v * 32 + 16 ≤ scrSize ∧ (s.dev.tile t).badWords = []) ∧
  (∃ (s : State) (t : Fin 64) (a : Nat) (v : BitVec 64), s.begin.vecDue s.mem t (· == 4) = some (a, v) ∧ vType v ≠ 3 ∧ vAddr v * 32 + 16 ≤ scrSize ∧ (s.dev.tile t).badWords = []) ∧
  (∃ (s : State) (t : Fin 64) (a : Nat) (v : BitVec 64), s.begin.vecDue s.mem t (· == 5) = some (a, v) ∧ vType v ≠ 3) ∧
  (∃ (s : State) (t : Fin 64) (a : Nat) (v : BitVec 64), s.begin.vecDue s.mem t (· == 6) = some (a, v) ∧ vType v ≠ 3 ∧ (s.dev.tile t).sem (vAddr v % 16) = true) ∧
  (∃ (s : State) (t : Fin 64) (a : Nat) (v : BitVec 64), s.begin.vecDue s.mem t (· == 6) = some (a, v) ∧ vType v ≠ 3 ∧ (s.dev.tile t).sem (vAddr v % 16) = false) ∧
  (∃ (s : State) (t : Fin 64) (a : Nat) (v : BitVec 64), s.begin.vecDue s.mem t (· == 0x20) = some (a, v) ∧ vType v ≠ 3 ∧ vAddr v * 32 + 2 ≤ scrSize ∧ (s.dev.tile t).badWords = [] ∧ peekLE s.mem s.begin (scrBase t + vAddr v * 32) 2 = (s.dev.tile t).mbId.toNat) ∧
  (∃ (s : State) (t : Fin 64) (a : Nat) (v : BitVec 64), s.begin.vecDue s.mem t (· == 0x20) = some (a, v) ∧ vType v ≠ 3 ∧ vAddr v * 32 + 2 ≤ scrSize ∧ (s.dev.tile t).badWords = [] ∧ peekLE s.mem s.begin (scrBase t + vAddr v * 32) 2 ≠ (s.dev.tile t).mbId.toNat) ∧
  (∃ (s : State) (t : Fin 64) (a : Nat) (v : BitVec 64), s.begin.vecDue s.mem t (· == 0x21) = some (a, v) ∧ vType v ≠ 3 ∧ vAddr v * 32 + 2 ≤ scrSize ∧ (s.dev.tile t).badWords = []) :=
  ⟨⟨vec (vTile) (vIns 0 0 0), 3, 0, vIns 0 0 0, by decide +kernel⟩,
  ⟨vec (vTile) (vIns 7 0 0), 3, 0, vIns 7 0 0, by decide +kernel⟩,
  ⟨vec (vTile) (vIns 1 0 (8)), 3, 0, vIns 1 0 (8), by decide +kernel⟩,
  ⟨vec (vTile) (vIns 2 0 (64)), 3, 0, vIns 2 0 (64), by decide +kernel⟩,
  ⟨vec (vTile) (vIns 3 0 8), 3, 0, vIns 3 0 8, by decide +kernel⟩,
  ⟨vec (vTile) (vIns 4 0 0), 3, 0, vIns 4 0 0, by decide +kernel⟩,
  ⟨vec (vTile) (vIns 5 0 5), 3, 0, vIns 5 0 5, by decide +kernel⟩,
  ⟨vec ({ vTile with sems := 0x21 }) (vIns 6 0 5), 3, 0, vIns 6 0 5, by decide +kernel⟩,
  ⟨vec (vTile) (vIns 6 0 5), 3, 0, vIns 6 0 5, by decide +kernel⟩,
  ⟨vec (vTile) (vIns 32 0 1), 3, 0, vIns 32 0 1, by decide +kernel⟩,
  ⟨vec ({ vTile with mbId := 5 }) (vIns 32 0 1), 3, 0, vIns 32 0 1, by decide +kernel⟩,
  ⟨vec ({ vTile with mbId := 0xFFFF }) (vIns 33 0 1), 3, 0, vIns 33 0 1, by decide +kernel⟩⟩

theorem witness_StrataCommandsAreTakenOrRefused :
  (∃ (s : State) (r : Requester), Heard s r Reg.strataCtrl (BitVec.ofNat 32 (setFld (strataWord s.dev 1).toNat 4 4 1)) ∧ s.dev.ctx0OrAdmin r = true ∧ s.dev.strata.inState ≠ .fetching ∧ s.dev.strata.inState ≠ .validating ∧ s.dev.incomingHeld = false ∧ (∀ q, q < 4 → s.dev.quarterOut q = false) ∧ s.dev.strata.cur < 4 ∧ s.dev.strata.prev < 4 ∧ s.dev.strata.inc < 4) ∧
  (∃ (s : State) (r : Requester) (b : Bool), Heard s r Reg.strataCtrl (BitVec.ofNat 32 (setFld (strataWord s.dev 1).toNat 4 4 (if b then 1 else 0))) ∧ (s.dev.strata.inState = .fetching ∨ s.dev.ctx0OrAdmin r = false)) ∧
  (∃ (s : State) (r : Requester), Heard s r Reg.strataCtrl (strataWord s.dev 2) ∧ s.dev.ctx0OrAdmin r = true ∧ s.dev.incomingHeld = false) ∧
  (∃ (s : State) (r : Requester) (n : Nat), Heard s r Reg.strataCtrl (strataWord s.dev (1 + 2)) ∧ s.dev.ctx0OrAdmin r = true ∧ s.dev.freeCairn = some n ∧ s.dev.strata.armed = 0 ∧ s.dev.strata.activating = none ∧ s.begin.actionOk s.mem 1 = true ∧ s.dev.now < s.dev.reg64 Reg.strataArmLtLo) ∧
  (∃ (s : State) (r : Requester) (n : Nat), Heard s r Reg.strataCtrl (strataWord s.dev (2 + 2)) ∧ s.dev.ctx0OrAdmin r = true ∧ s.dev.freeCairn = some n ∧ s.dev.strata.armed = 0 ∧ s.dev.strata.activating = none ∧ s.begin.actionOk s.mem 2 = true ∧ s.dev.now < s.dev.reg64 Reg.strataArmLtLo) ∧
  (∃ (s : State) (r : Requester) (n : Nat), Heard s r Reg.strataCtrl (strataWord s.dev (3 + 2)) ∧ s.dev.ctx0OrAdmin r = true ∧ s.dev.freeCairn = some n ∧ s.dev.strata.armed = 0 ∧ s.dev.strata.activating = none ∧ s.begin.actionOk s.mem 3 = true ∧ s.dev.now < s.dev.reg64 Reg.strataArmLtLo) ∧
  (∃ (s : State) (r : Requester), Heard s r Reg.strataCtrl (strataWord s.dev 3) ∧ s.dev.strata.armed ≠ 0) ∧
  (∃ (s : State) (r : Requester), Heard s r Reg.strataCtrl (strataWord s.dev 4) ∧ s.dev.strata.armed ≠ 0) ∧
  (∃ (s : State) (r : Requester), Heard s r Reg.strataCtrl (strataWord s.dev 5) ∧ s.dev.strata.armed ≠ 0) ∧
  (∃ (s : State) (r : Requester) (k : Nat) (dig : BitVec 512) (svn : BitVec 16), Heard s r Reg.strataCtrl (strataWord s.dev 6) ∧ s.dev.ctx0OrAdmin r = true ∧ s.dev.strata.firmware = [(k, dig, svn)] ∧ s.dev.arb k < svn.toNat ∧ (mget [] s.dev.fuses.banks k).length < 32) ∧
  (∃ (s : State) (r : Requester), Heard s r Reg.strataCtrl (strataWord s.dev 7) ∧ s.dev.ctx0OrAdmin r = true ∧ s.dev.strata.armed ≠ 0 ∧ (s.dev.cairn 0 s.dev.strata.armedSlot).state = .armed ∧ (s.dev.cairn 0 s.dev.strata.armedSlot).action = 0x10) ∧
  (∃ (s : State) (r : Requester), Heard s r Reg.strataCtrl (strataWord s.dev 7) ∧ s.dev.strata.armed = 0) :=
  ⟨⟨st up, .mgmt, by unfold Heard; decide +kernel⟩,
  ⟨st { up with strata := { inState := .fetching } }, .mgmt, false, by unfold Heard; decide +kernel⟩,
  ⟨st { up with strata := { inState := .fetching, genIn := 5 } }, .mgmt, by unfold Heard; decide +kernel⟩,
  ⟨sto { up with strata := { inState := .valid, activated := true }, regs := [(Reg.strataArmLtLo, 5000)] } (imageIn 2 1), .mgmt, 0, by unfold Heard; decide +kernel⟩,
  ⟨sto { up with strata := { prevValid := true }, regs := [(Reg.strataArmLtLo, 5000)] } (imageIn 1 1), .mgmt, 0, by unfold Heard; decide +kernel⟩,
  ⟨sto { up with strata := { inState := .valid }, regs := [(Reg.strataArmLtLo, 5000)] } (imageIn 2 2), .mgmt, 0, by unfold Heard; decide +kernel⟩,
  ⟨st { up with strata := { armed := 1 } }, .mgmt, by unfold Heard; decide +kernel⟩,
  ⟨st { up with strata := { armed := 1 } }, .mgmt, by unfold Heard; decide +kernel⟩,
  ⟨st { up with strata := { armed := 1 } }, .mgmt, by unfold Heard; decide +kernel⟩,
  ⟨st { up with strata := { firmware := [(1, 77, 9)] } }, .mgmt, 1, 77, 9, by unfold Heard; decide +kernel⟩,
  ⟨st { up with strata := { armed := 1, armedSlot := 4 }, cairns := [(4, { state := .armed, action := 0x10, lt := 99 })] }, .mgmt, by unfold Heard; decide +kernel⟩,
  ⟨st up, .mgmt, by unfold Heard; decide +kernel⟩⟩

theorem witness_StrataImagesAreCheckedAndSwapped :
  (∃ (s : State) (r : Requester) (len : Nat), s.dev.strata.inState = .fetching ∧ s.dev.strata.fetch = some (r, true, len)) ∧
  (∃ (s : State) (r : Requester) (bs : List Byte), s.dev.strata.inState = .fetching ∧ s.dev.strata.fetch = some (r, true, bs.length) ∧ bs.length ≤ 2 ^ 28) ∧
  (∃ (s : State) (code : Nat), s.dev.strata.inState = .validating ∧ s.dev.lost 4 = false ∧ s.begin.contentResult (s.begin.incReader s.mem) = code) ∧
  (∃ (s : State) (a : Activation) (bad : Option (BitVec 40)), s.dev.strata.activating = some a ∧ a.revert = false ∧ (∀ c t, c ∈ a.changed → t ∈ s.dev.tilesOf c → s.dev.leftOut t = true ∨ s.dev.phaseEnd t = true) ∧ s.dev.badImage s.dev.strata.inc bad = none) ∧
  (∃ (s : State) (a : Activation) (bad : Option (BitVec 40)), s.dev.strata.activating = some a ∧ a.revert = true ∧ (∀ c t, c ∈ a.changed → t ∈ s.dev.tilesOf c → s.dev.leftOut t = true ∨ s.dev.phaseEnd t = true) ∧ s.dev.badImage s.dev.strata.prev bad = none) ∧
  (∃ (s : State) (k : Fin 5) (x : Section), (k.val + 1) ∈ s.dev.strata.toLoad ∧ s.dev.mayLoadFirmware (k.val + 1) = true ∧ (sectionsOf (s.begin.curReader s.mem) 9).find? (fun y => y.index == k.val + 1) = some x) :=
  ⟨⟨st { up with strata := { inState := .fetching, fetch := some (.mgmt, true, 50) } }, .mgmt, 50, by decide +kernel⟩,
  ⟨st { up with strata := { inState := .fetching, fetch := some (.mgmt, true, 3) } }, .mgmt, [1, 2, 3], by decide +kernel⟩,
  ⟨sto { up with strata := { inState := .validating } } (imageIn 2 1), 8, by decide +kernel⟩,
  ⟨sto { up with strata := { curValid := true, inState := .valid, genIn := 6, genCur := 4, activating := some { revert := false, lt := 9, changed := [1] } }, ctxs := [(1, { tileMask := 8 })] } (imageIn 0 1 ++ imageIn 2 1), { revert := false, lt := 9, changed := [1] }, none, by decide +kernel, by decide +kernel, pairs (by decide +kernel), by decide +kernel⟩,
  ⟨sto { up with strata := { curValid := true, prevValid := true, genPrev := 3, genCur := 4, activating := some { revert := true, lt := 9, changed := [1] } }, ctxs := [(1, { tileMask := 8 })] } (imageIn 0 1 ++ imageIn 1 1), { revert := true, lt := 9, changed := [1] }, none, by decide +kernel, by decide +kernel, pairs (by decide +kernel), by decide +kernel⟩,
  ⟨sto { up with strata := { curValid := true, toLoad := [1] } } (imageIn 0 1), 0, { type := 9, index := 1, width := 0, svn := 7, off := 0x1000, len := 68, crc := 0, rsv := 0 }, by decide +kernel⟩⟩

theorem witness_PhasesSwitchAndSharesAreAcknowledged :
  (∃ (s : State) (c : Fin 64) (w : Switch), (s.dev.ctx c).switch = some w ∧ w.shadowReady = false ∧ s.dev.strata.curValid = true) ∧
  (∃ (s : State) (c : Fin 64) (w : Switch) (n : BitVec 64), (s.dev.ctx c).switch = some w ∧ w.taken = some n ∧ w.shadowReady = true ∧ (∀ t, t ∈ s.dev.tilesOf c → s.dev.leftOut t = true ∨ s.dev.phaseEnd t = true) ∧ (∀ v, v ∈ s.begin.liveRoutes s.mem → s.dev.routeCtx v = some c.val → routeStays v w.target = false → s.begin.routeDrained s.mem v = true)) ∧
  (∃ (s : State) (c : Fin 64) (w : Switch) (n : BitVec 64), (s.dev.ctx c).switch = some w ∧ w.taken = some n ∧ w.late = false ∧ 2000 / (4 * s.dev.lode.tick) ≤ (s.dev.lode.count - n).toNat) ∧
  (∃ (s : State) (r : Requester) (c : Fin 64) (v : BitVec 32), Heard s r (Reg.ctxShareCons c) v ∧ s.dev.mayWriteCtx r c = true) :=
  ⟨⟨sto { up with strata := { curValid := true }, ctxs := [(1, { tileMask := 8, switch := some { target := 1, shadowReady := false, taken := none, late := false } })] } (imageIn 0 1), 1, { target := 1, shadowReady := false, taken := none, late := false }, by decide +kernel⟩,
  ⟨sto { up with strata := { curValid := true }, ctxs := [(1, { tileMask := 8, switch := some { target := 1, shadowReady := true, taken := some 7, late := false } })] } (imageIn 0 1), 1, { target := 1, shadowReady := true, taken := some 7, late := false }, 7, by decide +kernel⟩,
  ⟨st { up with lode := { count := 500000 }, ctxs := [(1, { tileMask := 8, switch := some { target := 1, shadowReady := true, taken := some 7, late := false } })] }, 1, { target := 1, shadowReady := true, taken := some 7, late := false }, 7, by decide +kernel⟩,
  ⟨st { owned with regs := [(Reg.ctxShareProd 1, 5)] }, .host 1, 1, 3, by unfold Heard; decide +kernel⟩⟩

theorem witness_HbmAccessesAndRepairs :
  (∃ (s : State) (c : Fin 64) (off : BitVec 40), s.dev.hbmServes (off.toNat / 32 * 32) = true ∧ s.dev.lost (memDie (off.toNat / 32 * 32)) = false ∧ s.dev.admits c (off.toNat / 32 * 32) 32 = true ∧ s.dev.directory = [] ∧ s.dev.zeroingIn (off.toNat / 32 * 32) 32 = false ∧ s.dev.badBursts = []) ∧
  (∃ (s : State) (c : Fin 64) (off : BitVec 40), s.dev.hbmServes (off.toNat / 32 * 32) = true ∧ s.dev.lost (memDie (off.toNat / 32 * 32)) = false ∧ s.dev.admits c (off.toNat / 32 * 32) 32 = false) ∧
  (∃ (s : State) (c : Fin 64) (off : BitVec 40) (bs : List Byte), off.toNat % 32 = 0 ∧ bs.length = 32 ∧ s.dev.hbmServes off.toNat = true ∧ s.dev.lost (memDie off.toNat) = false ∧ s.dev.admits c off.toNat 32 = true ∧ s.dev.directory = [] ∧ s.dev.zeroingIn off.toNat 32 = false) ∧
  (∃ (s : State) (c : Fin 64) (off : BitVec 40) (bs : List Byte), 0 < bs.length ∧ bs.length < 32 ∧ off.toNat % 32 + bs.length ≤ 32 ∧ s.dev.hbmServes (off.toNat / 32 * 32) = true ∧ s.dev.lost (memDie off.toNat) = false ∧ s.dev.admits c off.toNat bs.length = true ∧ s.dev.directory = [] ∧ s.dev.zeroingIn (off.toNat / 32 * 32) 32 = false ∧ s.dev.badBursts = []) ∧
  (∃ (s : State) (off : BitVec 40), s.dev.hbmServes (off.toNat / 32 * 32) = true ∧ s.dev.lost (off.toNat / 32 * 32 / 2 ^ 38) = false ∧ s.dev.rb (Reg.memScrubCtrl (off.toNat / 32 * 32 / 2 ^ 38)) 31 = true ∧ s.dev.badBursts = []) ∧
  (∃ (s : State) (off : BitVec 40), (s.dev.stack (s.dev.placeOf off.toNat).stack).due.contains (hbmRowUnit (s.dev.placeOf off.toNat)) = true ∧ s.dev.badBursts = []) ∧
  (∃ (s : State) (off : BitVec 40), (s.dev.stack (s.dev.placeOf off.toNat).stack).due.contains (hbmRowUnit (s.dev.placeOf off.toNat)) = true ∧ s.dev.badBursts = []) ∧
  (∃ (s : State) (r : Requester) (q : Fin 4) (v : BitVec 32), Heard s r (Reg.memRetireForce q) v ∧ isCtx0 r = true ∧ s.dev.lost q = false) ∧
  (∃ (s : State) (pg : Fin 524288), pageZeroing (s.dev.page pg) = true ∧ (s.dev.page pg).getLsbD 12 = false) :=
  ⟨⟨stm up 0x1000 (le 8 [1, 2, 3, 4]), 0, 0x1005, by decide +kernel⟩,
  ⟨st up, 1, 0x1005, by decide +kernel⟩,
  ⟨st { up with badBursts := [0x80] }, 0, 0x1000, toLE 32 (2 ^ 250 + 77), by decide +kernel⟩,
  ⟨stm up 0x1000 (le 8 [1, 2, 3, 4]), 0, 0x1005, toLE 7 0x11223344556677, by decide +kernel⟩,
  ⟨st { up with regs := [(Reg.memScrubCtrl 0, 0x80000000)] }, 0x1000, by decide +kernel⟩,
  ⟨st { up with hbm := [(0, { state := 2, due := [0] })] }, 0, by decide +kernel⟩,
  ⟨st { up with hbm := [(0, { state := 2, due := [0] })] }, 0, by decide +kernel⟩,
  ⟨st { up with pages := [(131077, 0x4001)] }, .mgmt, 1, 5, by unfold Heard; decide +kernel⟩,
  ⟨stm { up with pages := [(5, 0x6000)], badBursts := [5 * 65536, 9] } (5 * 2 ^ 21 + 64) (le 8 [1, 2]), 5, by decide +kernel⟩⟩

theorem witness_ScratchpadsMoversAndGather :
  (∃ (s : State) (t : Fin 64), s.dev.tclk t = true ∧ (s.dev.tile t).state ≠ .retired ∧ (s.dev.tile t).clearing = false ∧ (s.dev.tile t).badWords = []) ∧
  (∃ (s : State) (t : Fin 64) (row : Fin 8192) (w : Nat), s.dev.tclk t = true ∧ (s.dev.tile t).state ≠ .retired ∧ (s.dev.tile t).clearing = false ∧ (s.dev.tile t).badWords = [] ∧ w / 512 = row ∧ s.dev.ownerOf t = none) ∧
  (∃ (s : State) (t : Fin 64) (row : Fin 8192) (w : Nat), s.dev.tclk t = true ∧ (s.dev.tile t).state ≠ .retired ∧ (s.dev.tile t).clearing = false ∧ (s.dev.tile t).badWords = [] ∧ w / 512 = row ∧ s.dev.ownerOf t = none) ∧
  (∃ (s : State) (t : Fin 64) (prod : Nat), s.dev.tileRuns t = true ∧ (s.dev.tile t).moverAwake = true ∧ s.dev.rb (Reg.tileMoveCtrl t) 31 = true ∧ (s.dev.tile t).stopped = false ∧ (s.dev.tile t).moverStopped = false ∧ prod = peekLE s.mem s.begin (scrBase t + s.dev.rf (Reg.tileMoveCtrl t) 19 0 * 32) 4 ∧ (prod + 2 ^ 32 - (s.dev.reg (Reg.tileMoveCons t)).toNat) % 2 ^ 32 ≤ s.dev.ringSlots t) ∧
  (∃ (s : State) (t : Fin 64) (e : BitVec 512), s.dev.moverReady t = true ∧ e = BitVec.ofNat 512 (peekLE s.mem s.begin (scrBase t + s.dev.moveEntryAt t) 64) ∧ moveOp e = 0 ∧ moveFence e = false ∧ movePrio e ≠ 0 ∧ 1 ≤ moveLen e ∧ moveLen e ≤ 2 ^ 30 ∧ moveRows e = 1 ∧ s.dev.isLocal (moveSrc e) = true ∧ s.dev.isLocal (moveDst e) = true ∧ inMemory (gOffset (moveSrc e)) (moveLen e) = true ∧ inMemory (gOffset (moveDst e)) (moveLen e) = true ∧ s.dev.lost (memDie (gOffset (moveSrc e))) = false ∧ s.dev.lost (memDie (gOffset (moveDst e))) = false ∧ s.dev.admits (s.dev.moverCtx t) (gOffset (moveSrc e)) (moveLen e) = true ∧ s.dev.admits (s.dev.moverCtx t) (gOffset (moveDst e)) (moveLen e) = true ∧ s.dev.mustWait (gOffset (moveSrc e)) (moveLen e) = false ∧ s.dev.mustWait (gOffset (moveDst e)) (moveLen e) = false ∧ s.dev.directory = [] ∧ s.dev.badBursts = [] ∧ (∀ j, (s.dev.tile j).badWords = [])) ∧
  (∃ (s : State) (t : Fin 64) (e : BitVec 512), s.dev.moverReady t = true ∧ e = BitVec.ofNat 512 (peekLE s.mem s.begin (scrBase t + s.dev.moveEntryAt t) 64) ∧ moveOp e = 1 ∧ moveFence e = false ∧ movePrio e ≠ 0 ∧ 1 ≤ moveLen e ∧ moveLen e ≤ 2 ^ 30 ∧ moveRows e = 1 ∧ s.dev.isLocal (moveDst e) = true ∧ inMemory (gOffset (moveDst e)) (moveLen e) = true ∧ s.dev.lost (memDie (gOffset (moveDst e))) = false ∧ s.dev.admits (s.dev.moverCtx t) (gOffset (moveDst e)) (moveLen e) = true ∧ s.dev.mustWait (gOffset (moveDst e)) (moveLen e) = false ∧ s.dev.directory = [] ∧ s.dev.badBursts = [] ∧ (∀ j, (s.dev.tile j).badWords = [])) ∧
  (∃ (s : State) (t : Fin 64) (e : BitVec 512), s.dev.moverReady t = true ∧ e = BitVec.ofNat 512 (peekLE s.mem s.begin (scrBase t + s.dev.moveEntryAt t) 64) ∧ moveOp e = 2 ∧ moveFence e = false ∧ (s.dev.tile t).badWords = []) ∧
  (∃ (s : State) (t : Fin 64) (n : BitVec 32) (e : MoveEntry), (s.dev.tile t).moves.find? (fun e => e.number == n) = some e ∧ e.done = false ∧ e.error = 0 ∧ moveOp e.entry ≠ 2 ∧ s.dev.tclk t = true ∧ s.dev.outstanding .mover t n.toNat = false) ∧
  (∃ (s : State) (t : Fin 64) (n : BitVec 32) (e : MoveEntry) (g : BitVec 256) (start : Nat) (a : Nat), (s.dev.tile t).moves.find? (fun e => e.number == n) = some e ∧ e.done = false ∧ e.error = 0 ∧ moveOp e.entry = 2 ∧ s.dev.tclk t = true ∧ (s.dev.tile t).clearing = false ∧ g = BitVec.ofNat 256 (peekLE s.mem s.begin (scrBase t + moveSrc e.entry % 0x2000000) 32) ∧ gatherOk g = true ∧ gCount g = 1 ∧ s.dev.badBursts = [] ∧ (∀ j, (s.dev.tile j).badWords = []) ∧ start = peekLE s.mem s.begin (scrBase t + gList g) 4 * gRowBytes g + gColOff g ∧ start % 65536 + gColBytes g ≤ 65536 ∧ s.begin.gatherPlace s.mem (s.dev.moverCtx t) g (start, gColBytes g) = (s.begin, some a)) :=
  ⟨⟨st (tiled {}), 3, by decide +kernel⟩,
  ⟨st (tiled {}), 3, 5, 2600, by decide +kernel⟩,
  ⟨st (tiled {}), 3, 5, 2600, by decide +kernel⟩,
  ⟨sto (withRegs (tiled { moverAwake := true }) [(Reg.tileMoveCtrl 3, 0x80100000)]) [(scr3, [1])], 3, 1, by decide +kernel⟩,
  ⟨moving { moveProd := 1 } (moveE 0 10 (at5 0x1000) (at5 0x2000)) [(0x1000, le 4 [7, 8, 9])], 3, moveE 0 10 (at5 0x1000) (at5 0x2000), by decide +kernel, by decide +kernel, by decide +kernel, by decide +kernel, by decide +kernel, by decide +kernel, by decide +kernel, by decide +kernel, by decide +kernel, by decide +kernel, by decide +kernel, by decide +kernel, by decide +kernel, by decide +kernel, by decide +kernel, by decide +kernel, by decide +kernel, by decide +kernel, by decide +kernel, by decide +kernel, badWords_none _ (by decide +kernel)⟩,
  ⟨moving { moveProd := 1 } (moveE 1 10 0 (at5 0x1002)) [(0x1000, le 4 [0x77777777, 8, 9, 5])], 3, moveE 1 10 0 (at5 0x1002), by decide +kernel, by decide +kernel, by decide +kernel, by decide +kernel, by decide +kernel, by decide +kernel, by decide +kernel, by decide +kernel, by decide +kernel, by decide +kernel, by decide +kernel, by decide +kernel, by decide +kernel, by decide +kernel, by decide +kernel, badWords_none _ (by decide +kernel)⟩,
  ⟨moving { moveProd := 1 } (moveE 2 0 0x400 0) [], 3, moveE 2 0 0x400 0, by decide +kernel⟩,
  ⟨moving { moves := [{ number := 4, entry := moveE 0 10 0 64 }, { number := 5, entry := moveE 0 10 0 64, done := true }] } 0 [], 3, 4, { number := 4, entry := moveE 0 10 0 64 }, by decide +kernel⟩,
  ⟨moving { moves := [{ number := 4, entry := moveE 2 0 0x400 0 }] } 0 [(scr3 + 0x400, toLE 32 gather1.toNat), (scr3 + 0x1000, le 4 [2]), (0x100000, le 4 [0x80000002]), (0x20080, le 4 [1, 2, 3, 4, 5, 6, 7, 8])], 3, 4, { number := 4, entry := moveE 2 0 0x400 0 }, gather1, 128, 0x20080, by decide +kernel, by decide +kernel, by decide +kernel, by decide +kernel, by decide +kernel, by decide +kernel, by decide +kernel, by decide +kernel, by decide +kernel, by decide +kernel, badWords_none _ (by decide +kernel), by decide +kernel⟩⟩

theorem witness_FabricPortsTrain :
  (∃ (s : State) (p : Fin 8), (s.dev.port p).state = .down ∧ (s.dev.port p).failures = 0 ∧ s.dev.portMayTrain p = true) ∧
  (∃ (s : State) (p : Fin 8), (s.dev.port p).state = .down ∧ 1 ≤ (s.dev.port p).failures ∧ s.dev.portMayTrain p = true) ∧
  (∃ (s : State) (p : Fin 8) (lanes : BitVec 18), (s.dev.port p).state = .detect ∧ 8 ≤ laneTotal lanes) ∧
  (∃ (s : State) (p : Fin 8), (s.dev.port p).state = .pmaTrain) ∧
  (∃ (s : State) (p : Fin 8), (s.dev.port p).state = .laneLock ∧ 8 ≤ laneTotal (s.dev.port p).rxService ∧ 8 ≤ laneTotal (s.dev.port p).txService) ∧
  (∃ (s : State) (p : Fin 8), (s.dev.port p).state = .laneLock ∧ laneTotal (s.dev.port p).rxService < 8 ∧ (s.dev.port p).queues = []) ∧
  (∃ (s : State) (p : Fin 8) (body : BitVec 512), (s.dev.port p).state = .param ∧ p.val % 4 = 3 ∧ s.dev.nodeValid = true ∧ fld (msg body 0 4) 22 0 ≠ 0x7FFFFF ∧ s.dev.rb (Reg.fabPortCtrl p) 2 = false ∧ (msg body 12 1).testBit 0 = false) ∧
  (∃ (s : State) (p : Fin 8) (body : BitVec 512), (s.dev.port p).state = .param ∧ p.val % 4 ≠ 3 ∧ s.dev.nodeValid = true ∧ fld (msg body 0 4) 22 0 ≠ 0x7FFFFF ∧ msg body 4 1 ≠ oppositePort p) ∧
  (∃ (s : State) (p : Fin 8) (body : BitVec 512), (s.dev.port p).state = .rtt ∧ msg body 8 8 = 0) ∧
  (∃ (s : State) (p : Fin 8) (body : BitVec 512), (s.dev.port p).state = .rtt ∧ msg body 8 8 ≠ 0 ∧ s.dev.initiates p = false ∧ (s.dev.port p).creditsIn = true) ∧
  (∃ (s : State) (p : Fin 8), (s.dev.port p).state = .rtt ∧ (s.dev.port p).rttCount < 16) ∧
  (∃ (s : State) (p : Fin 8), (s.dev.port p).queues = [] ∧ (s.dev.port p).state = .pmaTrain) :=
  ⟨⟨st net, 2, by decide +kernel⟩,
  ⟨st (netPort 2 { failures := 3 }), 2, by decide +kernel⟩,
  ⟨st (netPort 2 { state := .detect }), 2, 0xFF, by decide +kernel⟩,
  ⟨st (netPort 2 { state := .pmaTrain }), 2, by decide +kernel⟩,
  ⟨st (netPort 2 { state := .laneLock, rxService := 0x3FFFF, txService := 0xFFFF }), 2, by decide +kernel⟩,
  ⟨st (netPort 2 { state := .laneLock, rxService := 0x7F, txService := 0xFFFF }), 2, by decide +kernel⟩,
  ⟨st (netPort 3 { state := .param }), 3, 9, by decide +kernel⟩,
  ⟨st (netPort 2 { state := .param }), 2, 9, by decide +kernel⟩,
  ⟨st (netPort 2 { state := .rtt }), 2, 77, by decide +kernel⟩,
  ⟨st (netPort 2 { state := .rtt, peerNode := 3, creditsIn := true, failures := 2 }), 2, BitVec.ofNat 512 (9 * 2 ^ 64 + 300 * 2 ^ 128), by decide +kernel⟩,
  ⟨st (netPort 2 { state := .rtt }), 2, by decide +kernel⟩,
  ⟨st (netPort 2 { state := .pmaTrain }), 2, by decide +kernel⟩⟩

theorem witness_FabricPortsRun :
  (∃ (s : State) (p : Fin 8), (s.dev.port p).state.locked = true ∧ ((s.begin.bumpPort p Reg.fabFecUncorr).charge 6 p false [] 0).2 = false) ∧
  (∃ (s : State) (p : Fin 8) (bits : BitVec 5140), (s.dev.port p).state = .repair ∧ fb bits 19 18 = 1) ∧
  (∃ (s : State) (p : Fin 8), ((s.dev.port p).state = .laneLock ∨ ((s.dev.port p).state = .rtt ∧ (s.dev.port p).linkQueue = []))) ∧
  (∃ (s : State) (p : Fin 8), (s.dev.port p).state = .param ∧ (s.dev.port p).linkQueue = []) ∧
  (∃ (s : State) (p : Fin 8), (s.dev.port p).state = .active ∧ (s.dev.port p).tickDue = true) ∧
  (∃ (s : State) (p : Fin 8), (s.dev.port p).state.carries = true ∧ (s.dev.port p).unacked ≠ [] ∧ (s.dev.port p).queues = []) ∧
  (∃ (s : State) (p : Fin 8), (s.dev.port p).state.locked = true ∧ (s.dev.port p).queues = []) ∧
  (∃ (s : State) (p : Fin 8), (s.dev.port p).state.carries = true) ∧
  (∃ (s : State) (p : Fin 8), (s.dev.port p).state.carries = true ∧ (s.dev.port p).encOn = true ∧ 2 ^ 48 - 1 ≤ (s.dev.port p).txCtr ∧ (s.dev.port p).queues = []) ∧
  (∃ (s : State) (p : Fin 8) (body : BitVec 512) (old : Nat), (s.dev.port p).state.carries = true ∧ old < 18 ∧ msg body 1 1 < 18 ∧ (lanesOf (s.dev.port p).txUse)[msg body 0 1]? = some old) ∧
  (∃ (s : State) (p : Fin 8) (body : BitVec 512), (s.dev.port p).state.carries = true ∧ laneTotal (BitVec.ofNat 18 (msg body 0 4)) = 8) ∧
  (∃ (s : State) (p : Fin 8) (body : BitVec 512), (s.dev.port p).state.carries = true ∧ laneTotal (BitVec.ofNat 18 (msg body 0 4)) ≠ 8) ∧
  (∃ (s : State) (p : Fin 8) (lane : Fin 18), (s.dev.port p).state.carries = true ∧ (s.dev.port p).rxService.getLsbD lane = true ∧ (s.dev.port p).rxUse.getLsbD lane = false) ∧
  (∃ (s : State) (p : Fin 8) (c : LaneChange) (r : List LaneChange), (s.dev.port p).state.carries = true ∧ (s.dev.port p).changes = c :: r) ∧
  (∃ (s : State) (p : Fin 8), (s.dev.port p).state = .repair) :=
  ⟨⟨st (netPort 2 { state := .active }), 2, by decide +kernel⟩,
  ⟨st (netPort 2 { state := .repair }), 2, BitVec.ofNat 5140 (5 + 1 * 2 ^ 18 + 0x7F * 2 ^ 116), by decide +kernel⟩,
  ⟨st (netPort 2 { state := .laneLock }), 2, by decide +kernel⟩,
  ⟨st (netPort 2 { state := .param }), 2, by decide +kernel⟩,
  ⟨st (netPort 2 { state := .active, tickDue := true }), 2, by decide +kernel⟩,
  ⟨st (netPort 2 { state := .active, unacked := [5] }), 2, by decide +kernel⟩,
  ⟨st (netPort 2 { state := .active, unacked := [5] }), 2, by decide +kernel⟩,
  ⟨st (netPort 2 { state := .active }), 2, by decide +kernel⟩,
  ⟨st (netPort 2 { state := .active, encOn := true, txCtr := 2 ^ 48 - 1, keys0 := some ⟨1, 2, 3, 4⟩ }), 2, by decide +kernel⟩,
  ⟨st (netPort 2 { state := .active, txService := 0x3FFFF, txUse := 0xFFFF }), 2, BitVec.ofNat 512 (3 + 16 * 256), 3, by decide +kernel⟩,
  ⟨st (netPort 2 { state := .active }), 2, BitVec.ofNat 512 (0xFF00 + 77 * 2 ^ 32), by decide +kernel⟩,
  ⟨st (netPort 2 { state := .active }), 2, BitVec.ofNat 512 (0x7F00 + 77 * 2 ^ 32), by decide +kernel⟩,
  ⟨st (netPort 2 { state := .active, rxService := 0x3FFFF, rxUse := 0xFFFF }), 2, 17, by decide +kernel⟩,
  ⟨st (netPort 2 { state := .active, changes := [{ atCw := 4, lanes := 0xFF, narrow := true, logical := 0, newPhys := 0, rx := true }] }), 2, { atCw := 4, lanes := 0xFF, narrow := true, logical := 0, newPhys := 0, rx := true }, [], by decide +kernel⟩,
  ⟨st (netPort 2 { state := .repair, repairing := [{ atCw := 4, lanes := 0xFF, narrow := true, logical := 0, newPhys := 0, rx := true }] }), 2, by decide +kernel⟩⟩

theorem witness_PortCommandsAndRouting :
  (∃ (s : State) (r : Requester) (p : Fin 8), Heard s r (Reg.fabPortCtrl p) (s.dev.portCtrlWith p 1) ∧ isCtx0 r = true ∧ (s.dev.port p).state.locked = true ∧ (s.dev.port p).queues = []) ∧
  (∃ (s : State) (r : Requester) (p : Fin 8), Heard s r (Reg.fabPortCtrl p) (s.dev.portCtrlWith p 2) ∧ isCtx0 r = true ∧ (s.dev.port p).state ≠ .failed ∧ (s.dev.port p).state ≠ .disabled ∧ (s.dev.port p).queues = []) ∧
  (∃ (s : State) (r : Requester) (p : Fin 8), Heard s r (Reg.fabPortCtrl p) (s.dev.portCtrlWith p 3) ∧ isCtx0 r = true ∧ (s.dev.port p).state = .disabled) ∧
  (∃ (s : State) (r : Requester) (v : BitVec 32), Heard s r Reg.fabNode v ∧ isCtx0 r = true) ∧
  (∃ (s : State) (r : Requester) (v : BitVec 32), Heard s r Reg.fabTorus v ∧ isCtx0 r = true) ∧
  (∃ (s : State) (k : Packet), k.dst = s.dev.node ∧ (k.opc = opWR ∨ k.opc = opRD ∨ k.opc = opBWR) ∧ k.hops < 255) ∧
  (∃ (s : State) (k : Packet), k.dst ≠ s.dev.node ∧ k.hops = 254) :=
  ⟨⟨st (netPort 2 { state := .active }), .mgmt, 2, by unfold Heard; decide +kernel⟩,
  ⟨st (netPort 2 { state := .active }), .mgmt, 2, by unfold Heard; decide +kernel⟩,
  ⟨st (netPort 2 { state := .disabled, failures := 3 }), .mgmt, 2, by unfold Heard; decide +kernel⟩,
  ⟨st (netPort 2 { state := .miswired }), .mgmt, 0x80000009, by unfold Heard; decide +kernel⟩,
  ⟨st net, .mgmt, 0x040404, by unfold Heard; decide +kernel⟩,
  ⟨st { net with localOut := [net.makePacket opWR 5 0 64 0 [1, 2]] }, net.makePacket opWR 5 0 64 0 [1, 2], by decide +kernel⟩,
  ⟨st net, (net.makePacket opWR 7 0 64 0 [1, 2]).withField 19 12 254, by decide +kernel⟩⟩

theorem witness_FabricRequestsArePerformedAndAnswered :
  (∃ (s : State) (k : Packet), k.opc = opRD ∧ k.ecrcOk = true ∧ inBlock k.addr (k.arg % 512) = true ∧ Reaches s k.ctx k.addr (k.arg % 512) ∧ k.src ≠ s.dev.node) ∧
  (∃ (s : State) (k : Packet), k.opc = opWR ∧ k.ecrcOk = true ∧ inBlock k.addr k.data.length = true ∧ Reaches s k.ctx k.addr k.data.length ∧ k.src ≠ s.dev.node) ∧
  (∃ (s : State) (k : Packet), k.opc = opBWR ∧ k.ecrcOk = true ∧ inBlock k.addr k.data.length = true ∧ Reaches s k.ctx k.addr k.data.length ∧ k.src ≠ s.dev.node ∧ s.dev.inGroups = [] ∧ k.last = true ∧ fld k.arg 19 16 = 0) ∧
  (∃ (s : State) (k : Packet), k.opc = opBWR ∧ k.ecrcOk = true ∧ inBlock k.addr k.data.length = true ∧ Reaches s k.ctx k.addr k.data.length ∧ s.dev.inGroups = [] ∧ k.last = false) ∧
  (∃ (s : State) (k : Packet), k.opc = opBWR ∧ k.ecrcOk = true ∧ s.dev.groupFits k = false ∧ k.src ≠ s.dev.node) ∧
  (∃ (s : State) (k : Packet), k.opc = opBGET ∧ k.ecrcOk = true ∧ 1 ≤ leOf (k.data.take 4) ∧ leOf (k.data.take 4) ≤ 2 ^ 30 ∧ Reaches s k.ctx k.addr (leOf (k.data.take 4))) ∧
  (∃ (s : State) (k : Packet), k.opc = opRD ∧ k.ecrcOk = false ∧ k.src ≠ s.dev.node) ∧
  (∃ (s : State) (k : Packet), k.opc = opWR ∧ k.ecrcOk = true ∧ inBlock k.addr k.data.length = true ∧ inMemory k.addr k.data.length = true ∧ s.dev.pwr.state = .run ∧ s.dev.lost (memDie k.addr) = false ∧ s.dev.admits k.ctx k.addr k.data.length = false ∧ k.src ≠ s.dev.node) :=
  ⟨⟨netMem, pkt opRD 0 0x1004 8 [] 0, by decide +kernel, by decide +kernel, by decide +kernel, reaches (by decide +kernel), by decide +kernel⟩,
  ⟨netMem, pkt opWR 0 0x1003 0 [9, 8, 7] 0, by decide +kernel, by decide +kernel, by decide +kernel, reaches (by decide +kernel), by decide +kernel⟩,
  ⟨netMem, pkt opBWR 0 0x1003 5 [9, 8, 7] 16, by decide +kernel, by decide +kernel, by decide +kernel, reaches (by decide +kernel), by decide +kernel⟩,
  ⟨netMem, pkt opBWR 0 0x1003 5 [9, 8, 7] 0, by decide +kernel, by decide +kernel, by decide +kernel, reaches (by decide +kernel), by decide +kernel⟩,
  ⟨st { net with inGroups := List.replicate 4096 { src := 3, bulk := 9, die := groupDie 0x1003, segs := [], last := none, status := 0, failAt := 0 } }, pkt opBWR 0 0x1003 5 [9, 8, 7] 0, by decide +kernel⟩,
  ⟨netMem, pkt opBGET 0 0x1000 (at5 0x4000) (le 4 [16, 0]) 0, by decide +kernel, by decide +kernel, by decide +kernel, by decide +kernel, reaches (by decide +kernel)⟩,
  ⟨netMem, (pkt opRD 0 0x1004 8 [] 0).withField 255 224 0, by decide +kernel⟩,
  ⟨netMem, pkt opWR 1 0x1003 0 [9, 8, 7] 0, by decide +kernel⟩⟩

theorem witness_AtomicsReplaceAndReturnTheOldValue :
  (∃ (s : State) (k : Packet), k.opc = opATOM ∧ k.arg % 16 = 0 ∧ k.ecrcOk = true ∧ isHbm k.addr = true ∧ k.addr % aopWidth 0 = 0 ∧ k.data.length = aopData 0 ∧ Reaches s k.ctx k.addr (aopWidth 0) ∧ k.src ≠ s.dev.node) ∧
  (∃ (s : State) (k : Packet), k.opc = opATOM ∧ k.arg % 16 = 1 ∧ k.ecrcOk = true ∧ isHbm k.addr = true ∧ k.addr % aopWidth 1 = 0 ∧ k.data.length = aopData 1 ∧ Reaches s k.ctx k.addr (aopWidth 1) ∧ k.src ≠ s.dev.node) ∧
  (∃ (s : State) (k : Packet), k.opc = opATOM ∧ k.arg % 16 = 2 ∧ k.ecrcOk = true ∧ isHbm k.addr = true ∧ k.addr % aopWidth 2 = 0 ∧ k.data.length = aopData 2 ∧ Reaches s k.ctx k.addr (aopWidth 2) ∧ k.src ≠ s.dev.node) ∧
  (∃ (s : State) (k : Packet), k.opc = opATOM ∧ k.arg % 16 = 3 ∧ k.ecrcOk = true ∧ isHbm k.addr = true ∧ k.addr % aopWidth 3 = 0 ∧ k.data.length = aopData 3 ∧ Reaches s k.ctx k.addr (aopWidth 3) ∧ k.src ≠ s.dev.node) ∧
  (∃ (s : State) (k : Packet), k.opc = opATOM ∧ k.arg % 16 = 4 ∧ k.ecrcOk = true ∧ isHbm k.addr = true ∧ k.addr % aopWidth 4 = 0 ∧ k.data.length = aopData 4 ∧ Reaches s k.ctx k.addr (aopWidth 4) ∧ k.src ≠ s.dev.node) ∧
  (∃ (s : State) (k : Packet), k.opc = opATOM ∧ k.arg % 16 = 5 ∧ k.ecrcOk = true ∧ isHbm k.addr = true ∧ k.addr % aopWidth 5 = 0 ∧ k.data.length = aopData 5 ∧ Reaches s k.ctx k.addr (aopWidth 5) ∧ k.src ≠ s.dev.node) ∧
  (∃ (s : State) (k : Packet), k.opc = opATOM ∧ k.arg % 16 = 6 ∧ k.ecrcOk = true ∧ isHbm k.addr = true ∧ k.addr % aopWidth 6 = 0 ∧ k.data.length = aopData 6 ∧ Reaches s k.ctx k.addr (aopWidth 6) ∧ k.src ≠ s.dev.node) ∧
  (∃ (s : State) (k : Packet), k.opc = opATOM ∧ k.arg % 16 = 7 ∧ k.ecrcOk = true ∧ isHbm k.addr = true ∧ k.addr % 16 = 0 ∧ k.data.length = 16 ∧ Reaches s k.ctx k.addr 16 ∧ k.src ≠ s.dev.node) :=
  ⟨⟨netMem, pkt opATOM 0 0x1000 0 (le 4 [0xFFFFFFFF]) 0, by decide +kernel, by decide +kernel, by decide +kernel, by decide +kernel, by decide +kernel, by decide +kernel, reaches (by decide +kernel), by decide +kernel⟩,
  ⟨netMem, pkt opATOM 0 0x1000 1 (le 8 [0xFFFFFFFFFFFFFFFF]) 0, by decide +kernel, by decide +kernel, by decide +kernel, by decide +kernel, by decide +kernel, by decide +kernel, reaches (by decide +kernel), by decide +kernel⟩,
  ⟨netMem, pkt opATOM 0 0x1000 2 (le 8 [77]) 0, by decide +kernel, by decide +kernel, by decide +kernel, by decide +kernel, by decide +kernel, by decide +kernel, reaches (by decide +kernel), by decide +kernel⟩,
  ⟨netMem, pkt opATOM 0 0x1000 3 (le 8 [0x2222222211111111, 5]) 0, by decide +kernel, by decide +kernel, by decide +kernel, by decide +kernel, by decide +kernel, by decide +kernel, reaches (by decide +kernel), by decide +kernel⟩,
  ⟨netMem, pkt opATOM 0 0x1000 4 (le 8 [0xFF]) 0, by decide +kernel, by decide +kernel, by decide +kernel, by decide +kernel, by decide +kernel, by decide +kernel, reaches (by decide +kernel), by decide +kernel⟩,
  ⟨netMem, pkt opATOM 0 0x1000 5 (le 8 [0xFF]) 0, by decide +kernel, by decide +kernel, by decide +kernel, by decide +kernel, by decide +kernel, by decide +kernel, reaches (by decide +kernel), by decide +kernel⟩,
  ⟨netMem, pkt opATOM 0 0x1000 6 (le 8 [0xFF]) 0, by decide +kernel, by decide +kernel, by decide +kernel, by decide +kernel, by decide +kernel, by decide +kernel, reaches (by decide +kernel), by decide +kernel⟩,
  ⟨netMem, pkt opATOM 0 0x1000 7 (le 16 [2 ^ 127 - 1]) 0, by decide +kernel, by decide +kernel, by decide +kernel, by decide +kernel, by decide +kernel, by decide +kernel, reaches (by decide +kernel), by decide +kernel⟩⟩

theorem witness_ResponsesSettleRequests :
  (∃ (s : State) (k : Packet) (t : Tag), k.opc = opRDRSP ∧ k.ecrcOk = true ∧ s.dev.answered k = some t ∧ t.reserved = false ∧ k.gen = s.dev.genOf t.ctx ∧ k.status = 0 ∧ t.purpose = .mover ∧ t.op = opRD ∧ k.data ≠ [] ∧ s.dev.mustWait t.c k.data.length = false ∧ s.dev.directory = [] ∧ NoBad s ∧ (s.dev.tile t.a).moves.any (fun e => e.number == BitVec.ofNat 32 t.b && e.error == 0) = true) ∧
  (∃ (s : State) (k : Packet) (t : Tag), k.opc = opWRACK ∧ k.ecrcOk = true ∧ s.dev.answered k = some t ∧ t.reserved = false ∧ k.gen = s.dev.genOf t.ctx ∧ k.status = 0 ∧ t.purpose = .mover ∧ t.op ≠ opRD) ∧
  (∃ (s : State) (k : Packet) (t : Tag), k.opc = opATOMRSP ∧ k.ecrcOk = true ∧ s.dev.answered k = some t ∧ t.reserved = false ∧ k.gen = s.dev.genOf t.ctx ∧ k.status = 0 ∧ t.purpose = .mover ∧ t.op ≠ opRD) ∧
  (∃ (s : State) (k : Packet) (t : Tag), k.opc = opBWACK ∧ k.ecrcOk = true ∧ s.dev.answered k = some t ∧ t.reserved = false ∧ k.gen = s.dev.genOf t.ctx ∧ k.status = 0 ∧ t.purpose = .mover ∧ t.op ≠ opRD) ∧
  (∃ (s : State) (k : Packet) (t : Tag), k.opc = opBGETDONE ∧ k.ecrcOk = true ∧ s.dev.answered k = some t ∧ t.reserved = false ∧ k.gen = s.dev.genOf t.ctx ∧ k.status = 0 ∧ t.purpose = .mover ∧ t.op ≠ opRD) ∧
  (∃ (s : State) (k : Packet) (t : Tag), k.opc = opWPROBERSP ∧ k.ecrcOk = true ∧ s.dev.answered k = some t ∧ t.reserved = false ∧ k.gen = s.dev.genOf t.ctx ∧ k.status = 0 ∧ t.purpose = .probe ∧ t.op ≠ opRD) ∧
  (∃ (s : State) (k : Packet), k.opc = opRDRSP ∧ k.ecrcOk = true ∧ s.dev.answered k = none) ∧
  (∃ (s : State) (k : Packet), k.opc = opWRACK ∧ k.ecrcOk = true ∧ s.dev.answered k = none) ∧
  (∃ (s : State) (k : Packet), k.opc = opATOMRSP ∧ k.ecrcOk = true ∧ s.dev.answered k = none) ∧
  (∃ (s : State) (k : Packet), k.opc = opBWACK ∧ k.ecrcOk = true ∧ s.dev.answered k = none) ∧
  (∃ (s : State) (k : Packet), k.opc = opBGETDONE ∧ k.ecrcOk = true ∧ s.dev.answered k = none) ∧
  (∃ (s : State) (k : Packet), k.opc = opWPROBERSP ∧ k.ecrcOk = true ∧ s.dev.answered k = none) ∧
  (∃ (k : Packet), k.opc = opRDRSP ∧ k.ecrcOk = false) ∧
  (∃ (s : State) (k : Packet) (t : Tag), k.opc = opBWACK ∧ k.ecrcOk = true ∧ s.dev.answered k = some t ∧ t.reserved = false ∧ k.gen = s.dev.genOf t.ctx ∧ k.status = 8) ∧
  (∃ (s : State) (n : BitVec 16) (t : Tag), s.dev.tags.find? (fun t => t.port == fabricPort && t.tag == n.toNat && !t.reserved) = some t ∧ t.purpose = .probe) ∧
  (∃ (s : State) (n : BitVec 16) (t : Tag), s.dev.tags.find? (fun t => t.port == fabricPort && t.tag == n.toNat && !t.reserved) = some t ∧ t.purpose = .mover ∧ (s.dev.tile t.a).moves.any (fun e => e.number == BitVec.ofNat 32 t.b && e.error == 0) = true ∧ s.dev.ownerOf t.a = none) ∧
  (∃ (s : State) (n : BitVec 16) (t : Tag), s.dev.tags.find? (fun t => t.port == fabricPort && t.tag == n.toNat && t.reserved) = some t) ∧
  (∃ (s : State) (b : BitVec 16) (g : OutGroup), s.dev.outGroups.find? (fun g => g.bulk == b && g.busy) = some g ∧ (∀ k, k ∈ g.pkts → k.dst ≠ s.dev.node)) :=
  ⟨⟨stm { tagged .mover opRD with tiles := [(3, { moves := [{ number := 4, entry := 0 }] })] } 0x1000 [1, 2, 3, 4, 5], pkt opRDRSP 0 0 0 [9, 8, 7] 0, tag33 .mover opRD, by decide +kernel, by decide +kernel, by decide +kernel, by decide +kernel, by decide +kernel, by decide +kernel, by decide +kernel, by decide +kernel, by decide +kernel, by decide +kernel, by decide +kernel, noBad (by decide +kernel), by decide +kernel⟩,
  ⟨st (tagged .mover opWR), pkt opWRACK 0 0 0 [] 0, tag33 .mover opWR, by decide +kernel⟩,
  ⟨st (tagged .mover opATOM), pkt opATOMRSP 0 0 0 [] 0, tag33 .mover opATOM, by decide +kernel⟩,
  ⟨st (tagged .mover opBWR), pkt opBWACK 0 0 0 [] 0, tag33 .mover opBWR, by decide +kernel⟩,
  ⟨st (tagged .mover opBGET), pkt opBGETDONE 0 0 0 [] 0, tag33 .mover opBGET, by decide +kernel⟩,
  ⟨st (tagged .probe opWPROBE), pkt opWPROBERSP 0 0 0 [] 0, tag33 .probe opWPROBE, by decide +kernel⟩,
  ⟨st net, pkt opRDRSP 0 0 0 [] 0, by decide +kernel⟩,
  ⟨st net, pkt opWRACK 0 0 0 [] 0, by decide +kernel⟩,
  ⟨st net, pkt opATOMRSP 0 0 0 [] 0, by decide +kernel⟩,
  ⟨st net, pkt opBWACK 0 0 0 [] 0, by decide +kernel⟩,
  ⟨st net, pkt opBGETDONE 0 0 0 [] 0, by decide +kernel⟩,
  ⟨st net, pkt opWPROBERSP 0 0 0 [] 0, by decide +kernel⟩,
  ⟨(pkt opRDRSP 0 0 0 [1] 0).withField 255 224 0, by decide +kernel⟩,
  ⟨st { tagged .mover opBWR with outGroups := [{ bulk := 5, pkts := [net.makePacket opBWR 9 0 64 5 [1]], tag := tag33 .mover opBWR }] }, pkt opBWACK 0 0 0 [] (8 * 64), tag33 .mover opBWR, by decide +kernel⟩,
  ⟨st (tagged .probe opWPROBE), 33, tag33 .probe opWPROBE, by decide +kernel⟩,
  ⟨st { tagged .mover opBWR with tiles := [(3, { moves := [{ number := 4, entry := 0 }] })] }, 33, tag33 .mover opBWR, by decide +kernel⟩,
  ⟨st { net with tags := [{ tag33 .mover opBWR with reserved := true }] }, 33, { tag33 .mover opBWR with reserved := true }, by decide +kernel⟩,
  ⟨st { tagged .mover opBWR with outGroups := [{ bulk := 5, pkts := [net.makePacket opBWR 9 0 64 5 [1]], busy := true, tag := tag33 .mover opBWR }] }, 5, { bulk := 5, pkts := [net.makePacket opBWR 9 0 64 5 [1]], busy := true, tag := tag33 .mover opBWR }, by decide +kernel⟩⟩

theorem witness_BridgesGatherCells :
  (∃ (s : State) (b : Fin 32), (s.dev.bridge b).route.isSome = true ∧ s.dev.lost (4 + b / 16) = false ∧ (s.dev.bridge b).stopped = false ∧ (s.dev.bridge b).room = true ∧ ((s.dev.bridge b).prod + 64) % 4096 ≠ 0) ∧
  (∃ (s : State) (b : Fin 32), (s.dev.bridge b).route.isSome = true ∧ s.dev.lost (4 + b / 16) = false ∧ (s.dev.bridge b).stopped = false ∧ (s.dev.bridge b).room = true) ∧
  (∃ (s : State) (b : Fin 32), (s.dev.bridge b).route.isSome = true ∧ s.dev.lost (4 + b / 16) = false ∧ (s.dev.bridge b).stopped = false ∧ (s.dev.bridge b).room = false) ∧
  (∃ (s : State) (b : Fin 32), (s.dev.bridge b).route.isSome = true ∧ s.dev.lost (4 + b / 16) = false ∧ (s.dev.bridge b).stopped = false ∧ (s.dev.bridge b).needCons = true ∧ s.dev.outstanding .bridgeCons b 0 = false) :=
  ⟨⟨st { net with bridges := [(7, { route := some 5, ring := 0x4000, bytes := 8192 })] }, 7, by decide +kernel⟩,
  ⟨st { net with bridges := [(7, { route := some 5, ring := 0x4000, bytes := 8192 })] }, 7, by decide +kernel⟩,
  ⟨st { net with bridges := [(7, { route := some 5, ring := 0x4000, bytes := 8192, prod := 8192 })] }, 7, by decide +kernel⟩,
  ⟨st { net with bridges := [(7, { route := some 5, ring := 0x4000, bytes := 8192, prod := 8192, needCons := true })] }, 7, by decide +kernel⟩⟩

theorem witness_LodestoneKeepsTime :
  (∃ (s : State), s.dev.bringUp ≠ .off ∧ s.dev.lode.rebase = none ∧ s.dev.cairns = [] ∧ (∀ p, p ∈ s.dev.ctxs → p.2.pipe.state ≠ .running ∧ p.2.log.known = false)) ∧
  (∃ (s : State) (n : BitVec 64) (ph : BitVec 18), s.dev.bringUp ≠ .off ∧ s.dev.lode.rebase = some (n, ph) ∧ s.dev.cairns = [] ∧ (∀ p, p ∈ s.dev.ctxs → p.2.pipe.state ≠ .running ∧ p.2.log.known = false)) ∧
  (∃ (s : State), s.dev.rb Reg.lodeCtrl 31 = true ∧ s.dev.rf Reg.lodeCtrl 11 0 ≤ s.dev.lode.silent ∧ (s.dev.lode.state = .freeRun ∨ s.dev.lode.state = .holdover)) ∧
  (∃ (s : State), 8 ≤ s.dev.lode.parentSilent ∧ s.dev.lode.hasParent = true) ∧
  (∃ (s : State) (p : Nat), s.dev.lode.state = .holdover ∧ s.dev.lode.invalid = 0 ∧ s.dev.bestParent = some p) ∧
  (∃ (s : State) (r : Requester), Heard s r Reg.lodeCtrl (lodeWord s.dev 1) ∧ isCtx0 r = true ∧ s.dev.rf Reg.lodeCtrl 23 12 % 64 = 0 ∧ s.dev.rf Reg.lodeCtrl 23 12 ≠ 0 ∧ 8 ≤ s.dev.rf Reg.lodeCtrl 11 0 ∧ s.dev.lode.state ≠ .source ∧ s.dev.bestParent = none) ∧
  (∃ (s : State) (r : Requester), Heard s r Reg.lodeCtrl (lodeWord s.dev 2) ∧ isCtx0 r = true ∧ s.dev.rf Reg.lodeCtrl 23 12 % 64 = 0 ∧ s.dev.rf Reg.lodeCtrl 23 12 ≠ 0 ∧ 8 ≤ s.dev.rf Reg.lodeCtrl 11 0) ∧
  (∃ (s : State) (r : Requester) (v : BitVec 32), Heard s r Reg.lodeCtrl v ∧ isCtx0 r = true) :=
  ⟨⟨st owned, by decide +kernel⟩,
  ⟨st { owned with lode := { rebase := some (77, 5) } }, 77, 5, by decide +kernel⟩,
  ⟨st { withRegs net [(Reg.lodeCtrl, 0x80100008)] with lode := { silent := 9 } }, by decide +kernel⟩,
  ⟨st { net with lode := { state := .locked, upPort := some 2, parentSilent := 8 } }, by decide +kernel⟩,
  ⟨st { netPort 2 { state := .active, heardSrc := 1, heardHops := 2, heardValid := true, heardTick := true, heardCount := 99 } with lode := { state := .holdover } }, 2, by decide +kernel⟩,
  ⟨st (withRegs net [(Reg.lodeCtrl, 0x00100008)]), .mgmt, by unfold Heard; decide +kernel⟩,
  ⟨st (withRegs net [(Reg.lodeCtrl, 0x00100008)]), .mgmt, by unfold Heard; decide +kernel⟩,
  ⟨st (withRegs net [(Reg.lodeCtrl, 0x00100008)]), .mgmt, 0x80100009, by unfold Heard; decide +kernel⟩⟩

theorem witness_CairnsAreArmedTakenAndCancelled :
  (∃ (s : State) (r : Requester) (c : Fin 64) (n : Fin 64) (v : BitVec 32), Heard s r (Reg.ctxCairnCtrl c n) (BitVec.ofNat 32 (setFld v.toNat 31 30 1)) ∧ s.dev.mayWriteCtx r c = true ∧ (s.dev.cairn c n).state ≠ .armed ∧ (s.dev.cairn c n).barrierAt = none ∧ fb v 7 0 ≠ 1 ∧ s.begin.armRefused s.mem c (s.dev.reg64 (Reg.ctxCairnLtLo c n)) (s.dev.reg (Reg.ctxCairnArg c n)).toNat (fb v 7 0) = false ∧ s.dev.now < s.dev.reg64 (Reg.ctxCairnLtLo c n)) ∧
  (∃ (s : State) (r : Requester) (c : Fin 64) (n : Fin 64) (v : BitVec 32), Heard s r (Reg.ctxCairnCtrl c n) (BitVec.ofNat 32 (setFld v.toNat 31 30 1)) ∧ s.dev.mayWriteCtx r c = true ∧ (s.dev.cairn c n).state ≠ .armed ∧ (s.dev.cairn c n).barrierAt = none ∧ argOk (fb v 7 0) (s.dev.reg (Reg.ctxCairnArg c n)).toNat = false) ∧
  (∃ (s : State) (r : Requester) (c : Fin 64) (n : Fin 64), Heard s r (Reg.ctxCairnCtrl c n) (BitVec.ofNat 32 (setFld (s.dev.reg (Reg.ctxCairnCtrl c n)).toNat 31 30 2)) ∧ s.dev.mayWriteCtx r c = true ∧ (s.dev.cairn c n).state = .armed) ∧
  (∃ (s : State) (c : Fin 64) (n : Fin 64) (x : Cairn), s.dev.bringUp ≠ .off ∧ s.dev.lode.rebase = none ∧ s.dev.cairns = [(64 * c.val + n.val, x)] ∧ x.state = .armed ∧ x.action = 9 ∧ x.lt.toNat = s.dev.lode.count.toNat + 1 ∧ (∀ p, p ∈ s.dev.ctxs → p.2.pipe.state ≠ .running ∧ p.2.log.known = false) ∧ x.late = false) ∧
  (∃ (s : State) (c : Fin 64) (n : Fin 64) (x : BitVec 64), (s.dev.cairn c n).barrierAt = some x ∧ x.toNat ≤ s.dev.now ∧ (s.dev.cairn c n).barrierTags = []) ∧
  (∃ (s : State) (c : Fin 64) (n : Fin 64) (x : BitVec 64), (s.dev.cairn c n).barrierAt = some x ∧ x.toNat ≤ s.dev.now ∧ (s.dev.cairn c n).barrierTags ≠ []) ∧
  (∃ (s : State) (c : Fin 64) (e : BitVec 64) (peak : Nat) (n : Nat), (s.dev.ctx c).window = some (e, peak, n) ∧ e.toNat ≤ s.dev.now) :=
  ⟨⟨st (withRegs owned [(Reg.ctxCairnLtLo 1 4, 5000), (Reg.ctxCairnArg 1 4, 77)]), .host 1, 1, 4, 0x305, by unfold Heard; decide +kernel⟩,
  ⟨st (withRegs owned [(Reg.ctxCairnLtLo 1 4, 5000), (Reg.ctxCairnArg 1 4, 9)]), .host 1, 1, 4, 0x301, by unfold Heard; decide +kernel⟩,
  ⟨st { owned with cairns := [(68, { state := .armed, lt := 99 })] }, .host 1, 1, 4, by unfold Heard; decide +kernel⟩,
  ⟨st { owned with cairns := [(68, { state := .armed, lt := 100, action := 9 })], lode := { count := 99 } }, 1, 4, { state := .armed, lt := 100, action := 9 }, by decide +kernel⟩,
  ⟨st { owned with cairns := [(68, { state := .taken, barrierAt := some 90 })], lode := { count := 99 } }, 1, 4, 90, by decide +kernel⟩,
  ⟨st { owned with cairns := [(68, { state := .taken, barrierAt := some 90, barrierTags := [5] })], lode := { count := 99 } }, 1, 4, 90, by decide +kernel⟩,
  ⟨st { owned with ctxs := [(1, { state := .bound, port := 1, tileMask := 0xFFFF, hostMask := 15, window := some (90, 4, 5) })], lode := { count := 99 } }, 1, 90, 4, 5, by decide +kernel⟩⟩

theorem witness_CancelAppliesToAnArmedSlot :
  (∃ (s : State) (r : Requester) (c : Fin 64) (n : Fin 64), Heard s r (Reg.ctxCairnCtrl c n) (BitVec.ofNat 32 (setFld (s.dev.reg (Reg.ctxCairnCtrl c n)).toNat 31 30 2)) ∧ s.dev.mayWriteCtx r c = true) ∧
  (∃ (s : State) (c : Fin 64) (n : Fin 64) (x : Cairn), s.dev.bringUp ≠ .off ∧ s.dev.lode.rebase = none ∧ s.dev.cairns = [(64 * c.val + n.val, x)] ∧ x.state = .cancelled ∧ (∀ p, p ∈ s.dev.ctxs → p.2.pipe.state ≠ .running ∧ p.2.log.known = false)) :=
  ⟨⟨st { owned with cairns := [(68, { state := .taken, lt := 99, result := 1 })] }, .host 1, 1, 4, by unfold Heard; decide +kernel⟩,
  ⟨st { owned with cairns := [(68, { state := .cancelled, lt := 1, result := 5 })] }, 1, 4, { state := .cancelled, lt := 1, result := 5 }, by decide +kernel⟩⟩

theorem witness_BucketsAreReportedClosedAndReduced :
  (∃ (s : State) (c : Fin 64) (id : BitVec 16) (o : Opening), s.dev.openOf c id.toNat = some o ∧ o.kind = 1 ∧ descKind o.desc = 1 ∧ o.ready = false ∧ EngineReaches s c (bReady o.desc) (8 * bParts o.desc)) ∧
  (∃ (s : State) (c : Fin 64) (id : BitVec 16) (o : Opening), s.dev.openOf c id.toNat = some o ∧ o.kind = 1 ∧ o.ready = true ∧ o.reported = false ∧ o.deadline = false ∧ o.selfRank ≠ bRoot o.desc ∧ EngineReaches s c (bSrc o.desc) (4 * bElements o.desc) ∧ (o.members.getD (bRoot o.desc) 0).toNat ≠ s.dev.node) ∧
  (∃ (s : State) (c : Fin 64) (id : BitVec 16) (o : Opening), s.dev.openings = [o] ∧ s.dev.openOf c id.toNat = some o ∧ o.kind = 1 ∧ o.selfRank = bRoot o.desc ∧ o.rootClosed = false ∧ s.dev.closeDue o = true ∧ o.reports = [] ∧ o.recorded = false ∧ o.shardSent = false ∧ NoBad s) ∧
  (∃ (s : State) (k : Packet) (o : Opening), Finds s k opCOLL 1 o o.seq.toNat ∧ o.kind = 1 ∧ o.selfRank = bRoot o.desc ∧ o.rootClosed = false ∧ s.dev.closeDue o = false ∧ o.reports.any (fun x => x.rank == kRank k) = false ∧ o.late.contains (kRank k) = false ∧ o.reports.length + 1 ≠ o.count) ∧
  (∃ (s : State) (k : Packet) (o : Opening), Finds s k opCOLL 1 o o.seq.toNat ∧ o.kind = 1 ∧ o.selfRank = bRoot o.desc ∧ o.rootClosed = true ∧ o.reports.any (fun x => x.rank == kRank k) = false ∧ o.late.contains (kRank k) = false) ∧
  (∃ (s : State) (k : Packet), k.opc = opCOLL ∧ kType k = 1 ∧ k.ecrcOk = true ∧ s.dev.openOf k.ctx (kId k) = none) ∧
  (∃ (s : State) (k : Packet) (o : Opening), Finds s k opCOLL 2 o o.seq.toNat ∧ o.kind = 1 ∧ mfind o.segs (kIndex k) = none ∧ o.rootClosed = false ∧ fld (kAux k) 12 9 ≠ 1 ∧ o.children = [] ∧ kIndex k ≠ 32 ∧ mfind o.segs 32 = none) ∧
  (∃ (s : State) (k : Packet) (o : Opening), s.dev.openings = [o] ∧ Finds s k opCOLL 2 o o.seq.toNat ∧ o.kind = 1 ∧ o.recorded = false ∧ mfind o.segs (kIndex k) = none ∧ o.rootClosed = false ∧ o.shardSent = false ∧ o.close = none ∧ 2 ≤ fld (kAux k) 12 9 ∧ o.children = [] ∧ kIndex k = 32 ∧ (List.range o.segCount).all (fun j => (mfind (mset o.segs 32 k.data) j).isSome) = true ∧ (∀ j, j < o.segCount → (mget [] (mset o.segs 32 k.data) j).length = 256) ∧ NoBad s) ∧
  (∃ (s : State) (k : Packet) (o : Opening), Finds s k opCOLL 3 o o.seq.toNat ∧ o.kind = 1 ∧ o.own.1 ≤ kIndex k ∧ kIndex k < o.own.2 ∧ o.receipts.contains (kRank k * 2 ^ 18 + kIndex k) = false ∧ o.shardSent = false ∧ o.close = none ∧ o.hasWords = true) ∧
  (∃ (s : State) (k : Packet) (o : Opening), Finds s k opCOLL 4 o o.seq.toNat ∧ o.kind = 1 ∧ o.complete = true ∧ kIndex k < o.chunks ∧ o.results.contains (kIndex k) = false ∧ o.shards = [] ∧ o.recorded = false ∧ EngineReaches s k.ctx (bDst o.desc + 256 * kIndex k) (k.data.take (4 * o.chunkSize (kIndex k))).length) ∧
  (∃ (s : State) (k : Packet) (o : Opening), s.dev.openings = [o] ∧ Finds s k opCOLL 5 o o.seq.toNat ∧ o.kind = 1 ∧ o.complete = true ∧ o.shards.any (fun s => s.rank == kRank k && s.status == 1) = false ∧ o.recorded = false ∧ kAux k % 16 = 1 ∧ NoBad s ∧ (List.range o.chunks).all o.results.contains = true ∧ (∀ r, r < o.count → r ≠ kRank k → o.shards.any (fun s => s.rank == r && s.status == 1) = true)) ∧
  (∃ (s : State) (k : Packet) (o : Opening), s.dev.openings = [o] ∧ o.ctx = k.ctx ∧ o.id = kId k ∧ o.seq.toNat = kSeq k ∧ k.opc = opCOLL ∧ kType k = 6 ∧ k.ecrcOk = true ∧ o.kind = 1 ∧ o.ended = false ∧ kRank k < o.count ∧ o.complete = true ∧ kAux k = 2 ∧ o.inMask o.selfRank = true ∧ kIndex k < o.chunks ∧ o.ownerOf (kIndex k) = kRank k ∧ (o.members.getD (kRank k) 0).toNat ≠ s.dev.node ∧ EngineReaches s o.ctx (bSrc o.desc + 256 * kIndex k) (4 * o.chunkSize (kIndex k))) ∧
  (∃ (s : State) (c : Fin 64) (id : BitVec 16) (o : Opening), s.dev.openings = [o] ∧ s.dev.openOf c id.toNat = some o ∧ o.kind = 1 ∧ o.complete = true ∧ o.shardSent = true ∧ o.lastResult.toNat + s.dev.rf (Reg.ctxCollCtrl c) 26 19 ≤ s.dev.now) ∧
  (∃ (s : State) (c : Fin 64) (id : BitVec 16) (o : Opening), s.dev.openings = [o] ∧ s.dev.openOf c id.toNat = some o ∧ o.kind = 1 ∧ o.complete = true ∧ o.closeLt.toNat + s.dev.rf (Reg.ctxCollCtrl c) 18 3 ≤ s.dev.now ∧ o.recorded = false ∧ NoBad s) ∧
  (∃ (s : State) (c : Fin 64) (id : BitVec 16) (seq : BitVec 16) (o : Opening), s.dev.openings = [o] ∧ o.ctx = c.val ∧ o.id = id.toNat ∧ o.seq = seq ∧ o.hasWords = true ∧ o.shardSent = true ∧ o.shardSentLt.toNat + s.dev.rf (Reg.ctxCollCtrl c) 18 3 ≤ s.dev.now) ∧
  (∃ (s : State) (r : Repeat), s.dev.repeats = [r] ∧ r.at_.toNat ≤ s.dev.now ∧ 1 < r.left) ∧
  (∃ (s : State) (r : Repeat), s.dev.repeats = [r] ∧ r.at_.toNat ≤ s.dev.now ∧ r.left ≤ 1) :=
  ⟨⟨opened (bkt 0 0) [(0x30000, le 8 [1, 1])], 0, 5, bkt 0 0, by decide +kernel, by decide +kernel, by decide +kernel, by decide +kernel, engineReaches (reaches (by decide +kernel)) (by decide +kernel)⟩,
  ⟨opened { bkt 1 0 with ready := true } [(0x10000, le 4 [0x3F800000, 0x40000000, 0xC0400000])], 0, 5, { bkt 1 0 with ready := true }, by decide +kernel, by decide +kernel, by decide +kernel, by decide +kernel, by decide +kernel, by decide +kernel, engineReaches (reaches (by decide +kernel)) (by decide +kernel), by decide +kernel⟩,
  ⟨opened { bkt 0 0 with deadline := true } [(0x31000, le 4 [5, 6]), (0x40000, [1])], 0, 5, { bkt 0 0 with deadline := true }, by decide +kernel, by decide +kernel, by decide +kernel, by decide +kernel, by decide +kernel, by decide +kernel, by decide +kernel, by decide +kernel, by decide +kernel, noBad (by decide +kernel)⟩,
  ⟨opened (bkt 0 0) [], collPkt opCOLL 1 0 9 1 (100 + 512) [], bkt 0 0, by unfold Finds; decide +kernel⟩,
  ⟨opened { bkt 0 0 with rootClosed := true } [], collPkt opCOLL 1 0 9 1 (100 + 512) [], { bkt 0 0 with rootClosed := true }, by unfold Finds; decide +kernel⟩,
  ⟨st net, collPkt opCOLL 1 0 9 1 100 [], by decide +kernel⟩,
  ⟨opened (bkt 0 1) [], collPkt opCOLL 2 0 9 0 (2 * 512) (toLE 256 7), bkt 0 1, by unfold Finds; decide +kernel⟩,
  ⟨opened { bkt 0 1 with segs := [(0, toLE 256 7)] } [], collPkt opCOLL 2 32 9 0 (2 * 512) (toLE 256 3), { bkt 0 1 with segs := [(0, toLE 256 7)] }, by decide +kernel, by unfold Finds; decide +kernel, by decide +kernel, by decide +kernel, by decide +kernel, by decide +kernel, by decide +kernel, by decide +kernel, by decide +kernel, by decide +kernel, by decide +kernel, by decide +kernel, by decide +kernel, noBad (by decide +kernel)⟩,
  ⟨opened { bkt 0 1 with hasWords := true, allocated := 64 } [], collPkt opCOLL 3 0 9 2 130 (le 4 [0x3F800000, 0x40000000, 0xC0400000]), { bkt 0 1 with hasWords := true, allocated := 64 }, by unfold Finds; decide +kernel⟩,
  ⟨opened (closed (bkt 0 1)) [], collPkt opCOLL 4 1 9 2 0 (toLE 144 77), closed (bkt 0 1), by unfold Finds; decide +kernel, by decide +kernel, by decide +kernel, by decide +kernel, by decide +kernel, by decide +kernel, by decide +kernel, engineReaches (reaches (by decide +kernel)) (by decide +kernel)⟩,
  ⟨opened { closed (bkt 0 1) with results := [0, 1], shards := [done 0, done 1] } [], collPkt opCOLL 5 0 9 2 1 (toLE 88 0), { closed (bkt 0 1) with results := [0, 1], shards := [done 0, done 1] }, by decide +kernel, by unfold Finds; decide +kernel, by decide +kernel, by decide +kernel, by decide +kernel, by decide +kernel, by decide +kernel, noBad (by decide +kernel), by decide +kernel⟩,
  ⟨opened (closed (bkt 0 1)) [(0x10100, le 4 [0x3F800000, 0x40000000, 0xC0400000])], collPkt opCOLL 6 1 9 2 2 [], closed (bkt 0 1), by decide +kernel, by decide +kernel, by decide +kernel, by decide +kernel, by decide +kernel, by decide +kernel, by decide +kernel, by decide +kernel, by decide +kernel, by decide +kernel, by decide +kernel, by decide +kernel, by decide +kernel, by decide +kernel, by decide +kernel, by decide +kernel, engineReaches (reaches (by decide +kernel)) (by decide +kernel)⟩,
  ⟨opened { closed (bkt 0 1) with shardSent := true } [], 0, 5, { closed (bkt 0 1) with shardSent := true }, by decide +kernel⟩,
  ⟨opened (closed (bkt 0 1)) [], 0, 5, closed (bkt 0 1), by decide +kernel, by decide +kernel, by decide +kernel, by decide +kernel, by decide +kernel, by decide +kernel, noBad (by decide +kernel)⟩,
  ⟨opened { closed (bkt 0 1) with shardSent := true, hasWords := true, allocated := 64, ended := true } [], 0, 5, 9, { closed (bkt 0 1) with shardSent := true, hasWords := true, allocated := 64, ended := true }, by decide +kernel⟩,
  ⟨st { net with repeats := [{ pkt := collPkt opCOLL 1 0 9 1 100 [], at_ := 5, left := 2 }], lode := { count := 5 } }, { pkt := collPkt opCOLL 1 0 9 1 100 [], at_ := 5, left := 2 }, by decide +kernel⟩,
  ⟨st { net with repeats := [{ pkt := collPkt opCOLL 1 0 9 1 100 [], at_ := 5, left := 1 }], lode := { count := 5 } }, { pkt := collPkt opCOLL 1 0 9 1 100 [], at_ := 5, left := 1 }, by decide +kernel⟩⟩

theorem witness_ExchangesAreCountedPlacedAndEnded :
  (∃ (s : State) (k : Packet) (o : Opening) (n : Nat), k.opc = opTOKX ∧ kType k = 1 ∧ k.ecrcOk = true ∧ s.dev.openOf k.ctx (kId k) = some o ∧ o.kind = 2 ∧ n = (kSeq k + 65536 - o.seq.toNat) % 65536 ∧ n < xUses o.desc ∧ o.use ≤ n ∧ kRank k < o.count ∧ o.begun = false ∧ o.counts.any (fun y => y.use == n && y.rank == kRank k) = false) ∧
  (∃ (s : State) (k : Packet) (o : Opening), k.opc = opTOKX ∧ kType k = 1 ∧ k.ecrcOk = true ∧ s.dev.openOf k.ctx (kId k) = some o ∧ o.kind = 2 ∧ (kSeq k + 65536 - o.seq.toNat) % 65536 < o.use) ∧
  (∃ (s : State) (k : Packet) (o : Opening), Finds s k opTOKX 2 o o.useSeq ∧ o.kind = 2 ∧ o.begun = true ∧ kIndex k = 0 ∧ mfind o.recvBase (kRank k) = none ∧ o.doneSent = false ∧ o.rowsTo.contains (kRank k) = false) ∧
  (∃ (s : State) (k : Packet) (o : Opening), Finds s k opTOKX 2 o o.useSeq ∧ o.kind = 2 ∧ o.begun = true ∧ kIndex k ≠ 0 ∧ mfind o.offsets (kRank k) = none ∧ o.doneSent = false ∧ o.rowsTo.contains (kRank k) = false) ∧
  (∃ (s : State) (k : Packet) (o : Opening), Finds s k opTOKX 3 o o.useSeq ∧ o.kind = 2 ∧ o.dones.contains (o.use * 65536 + kRank k) = false ∧ o.doneSent = false ∧ o.ackFailed = true) ∧
  (∃ (s : State) (k : Packet) (o : Opening), s.dev.openings = [o] ∧ Finds s k opTOKX 3 o o.useSeq ∧ o.kind = 2 ∧ o.begun = true ∧ o.dones.contains (o.use * 65536 + kRank k) = false ∧ o.doneSent = true ∧ NoBad s ∧ (∀ r, r < o.count → r ≠ kRank k → o.dones.contains (o.use * 65536 + r) = true)) ∧
  (∃ (s : State) (c : Fin 64) (id : BitVec 16) (o : Opening), s.dev.openOf c id.toNat = some o ∧ o.kind = 2 ∧ o.ready = true ∧ o.begun = false ∧ xCombine o.desc = false ∧ xEntries o.desc = 0 ∧ o.counts = [] ∧ 2 ≤ o.count ∧ o.offsetsSent = false) ∧
  (∃ (s : State) (k : Packet) (o : Opening), Finds s k opCOLL 7 o o.seq.toNat ∧ o.kind = 3 ∧ o.goes.contains (kIndex k * 65536 + kRank k) = false ∧ o.readDone = false ∧ o.written = false) ∧
  (∃ (s : State) (k : Packet) (o : Opening), Finds s k opCOLL 8 o o.seq.toNat ∧ o.kind = 3 ∧ o.pdones.contains (kIndex k * 65536 + kRank k) = false ∧ o.round < pRounds o.desc) ∧
  (∃ (s : State) (k : Packet) (o : Opening), s.dev.openings = [o] ∧ Finds s k opCOLL 9 o o.seq.toNat ∧ o.kind = 3 ∧ NoBad s) ∧
  (∃ (s : State) (k : Packet) (o : Opening), s.dev.openings = [o] ∧ Finds s k opCOLL 9 o o.seq.toNat ∧ o.kind = 1 ∧ o.recorded = false ∧ NoBad s) ∧
  (∃ (s : State) (c : Fin 64) (id : BitVec 16) (o : Opening) (p : Piece) (i : Nat), s.dev.openOf c id.toNat = some o ∧ o.kind = 3 ∧ o.readDone = false ∧ o.written = false ∧ o.round < pRounds o.desc ∧ ((outPieces s.mem s.begin o.desc).zipIdx).filter (fun p => p.1.round == o.round) = [(p, i)] ∧ EngineReaches s c p.src p.len ∧ p.peer ≠ o.selfRank ∧ o.goes.contains (o.round * 65536 + p.peer) = false) :=
  ⟨⟨opened exchange [], collPkt opTOKX 1 0 10 2 0 (toLE 140 (5 + 3 * 2 ^ 16)), exchange, 1, by decide +kernel⟩,
  ⟨opened { exchange with use := 1 } [], collPkt opTOKX 1 0 9 2 0 (toLE 140 5), { exchange with use := 1 }, by decide +kernel⟩,
  ⟨opened { exchange with begun := true } [], collPkt opTOKX 2 0 9 2 0 (toLE 256 (5 + 3 * 2 ^ 32)), { exchange with begun := true }, by unfold Finds; decide +kernel⟩,
  ⟨opened { exchange with begun := true } [], collPkt opTOKX 2 1 9 2 0 (toLE 8 77), { exchange with begun := true }, by unfold Finds; decide +kernel⟩,
  ⟨opened { exchange with begun := true, ackFailed := true } [], collPkt opTOKX 3 0 9 2 0 [], { exchange with begun := true, ackFailed := true }, by unfold Finds; decide +kernel⟩,
  ⟨opened { exchange with begun := true, doneSent := true, dones := [0, 1] } [], collPkt opTOKX 3 0 9 2 0 [], { exchange with begun := true, doneSent := true, dones := [0, 1] }, by decide +kernel, by unfold Finds; decide +kernel, by decide +kernel, by decide +kernel, by decide +kernel, by decide +kernel, noBad (by decide +kernel), by decide +kernel⟩,
  ⟨opened { exchange with ready := true } [], 0, 5, { exchange with ready := true }, by decide +kernel⟩,
  ⟨opened reshard [], collPkt opCOLL 7 0 9 2 0 [], reshard, by unfold Finds; decide +kernel⟩,
  ⟨opened reshard [], collPkt opCOLL 8 0 9 2 0 [], reshard, by unfold Finds; decide +kernel⟩,
  ⟨opened reshard [], collPkt opCOLL 9 0 9 2 5 [], reshard, by decide +kernel, by unfold Finds; decide +kernel, by decide +kernel, noBad (by decide +kernel)⟩,
  ⟨opened (bkt 0 1) [], collPkt opCOLL 9 0 9 2 5 [], bkt 0 1, by decide +kernel, by unfold Finds; decide +kernel, by decide +kernel, by decide +kernel, noBad (by decide +kernel)⟩,
  ⟨opened reshard [(0x10000, toLE 32 pieceBits), (0x11000, toLE 32 (pieceBits + 2 ^ 228)), (0x20000, [1, 2, 3])], 0, 5, reshard, pieceOf pieceBits, 0, by decide +kernel, by decide +kernel, by decide +kernel, by decide +kernel, by decide +kernel, by decide +kernel, engineReaches (reaches (by decide +kernel)) (by decide +kernel), by decide +kernel⟩⟩

theorem witness_ItemsAreDispatched :
  (∃ (s : State) (c : Fin 64) (v : Fin 8), (s.dev.ctx c).pipe.state = .running ∧ (s.dev.ctx c).validStage v = true ∧ (s.dev.ctx c).isFirst v = false ∧ EngineReaches s c ((s.dev.ctx c).fwdRing v) 32 ∧ EngineReaches s c ((s.dev.ctx c).bwdRing v) 32) ∧
  (∃ (s : State) (c : Fin 64) (v : Fin 8) (n : Nat) (p : Nat × Nat × Nat), ((s.dev.ctx c).stage v).fwdItem = none ∧ (s.dev.ctx c).mayDispatch v = true ∧ ((s.dev.ctx c).stage v).fwdOut = none ∧ ((s.dev.ctx c).stage v).gateClosed = false ∧ s.begin.recomputeReady s.mem c v = none ∧ s.dev.nextForward c v = some n ∧ s.begin.forwardBinds s.mem c v n = true ∧ s.dev.engineMay c ((s.dev.ctx c).fwdSlotAt v n) ((s.dev.ctx c).fwdSlotSize v) = true ∧ s.begin.stashPlace s.mem c v false = some p ∧ p.1 = skSlot ∧ NoBad s) ∧
  (∃ (s : State) (c : Fin 64) (v : Fin 8) (n : Nat) (p : Nat × Nat × Nat), ((s.dev.ctx c).stage v).fwdItem = none ∧ (s.dev.ctx c).mayDispatch v = true ∧ ((s.dev.ctx c).stage v).fwdOut = none ∧ s.begin.recomputeReady s.mem c v = some (n, p) ∧ rRestarted (s.begin.slotRec s.mem c v n) = false ∧ p.1 = skSlot ∧ NoBad s) ∧
  (∃ (s : State) (c : Fin 64) (v : Fin 8) (n : Nat), ((s.dev.ctx c).stage v).bwdItem = none ∧ (s.dev.ctx c).mayDispatch v = true ∧ ((s.dev.ctx c).stage v).bwdOut = none ∧ s.begin.backwardReady s.mem c v = some n ∧ NoBad s) ∧
  (∃ (s : State) (c : Fin 64) (v : Fin 8) (k : ItemKind) (t : BitVec 32) (q : List (ItemKind × BitVec 32)), ((s.dev.ctx c).stage v).updItem = none ∧ ((s.dev.ctx c).stage v).queue = (k, t) :: q ∧ (k = .update ∨ k = .apply) ∧ (s.dev.ctx c).mayDispatch v = true ∧ s.begin.updateReady s.mem c v = true ∧ (s.dev.protOn c = true → s.begin.retained s.mem c t.toNat = true) ∧ NoBad s) ∧
  (∃ (s : State) (c : Fin 64) (v : Fin 8) (t : BitVec 32) (q : List (ItemKind × BitVec 32)), ((s.dev.ctx c).stage v).updItem = none ∧ ((s.dev.ctx c).stage v).queue = (.mirror, t) :: q ∧ (s.dev.ctx c).mayDispatch v = true ∧ (s.begin.mirrorsOf s.mem c v).all (fun i => decide (t.toNat ≤ eVstep (s.begin.entry s.mem c i))) = false ∧ s.begin.mirrorReady s.mem c v t.toNat = true ∧ NoBad s) ∧
  (∃ (s : State) (c : Fin 64) (v : Fin 8) (t : BitVec 32) (q : List (ItemKind × BitVec 32)), ((s.dev.ctx c).stage v).updItem = none ∧ ((s.dev.ctx c).stage v).queue = (.mirror, t) :: q ∧ (s.dev.ctx c).mayDispatch v = true ∧ s.dev.protCmd c ≠ 5 ∧ (s.begin.mirrorsOf s.mem c v).all (fun i => decide (t.toNat ≤ eVstep (s.begin.entry s.mem c i))) = true) ∧
  (∃ (s : State) (c : Fin 64) (v : Fin 8) (x : Item), ((s.dev.ctx c).stage v).item 0 = some x ∧ x.kind ∈ [.forward] ∧ x.kind.unit = 0 ∧ x.gathers = [] ∧ x.started = false ∧ s.dev.unitRuns c v 0 = true ∧ NoBad s ∧ ((s.begin.itemInput s.mem c v x).2 = 0 ∨ EngineReaches s c (s.begin.itemInput s.mem c v x).1 (s.begin.itemInput s.mem c v x).2)) ∧
  (∃ (s : State) (c : Fin 64) (v : Fin 8) (x : Item), ((s.dev.ctx c).stage v).item 0 = some x ∧ x.kind ∈ [.recompute] ∧ x.kind.unit = 0 ∧ x.gathers = [] ∧ x.started = false ∧ s.dev.unitRuns c v 0 = true ∧ NoBad s ∧ ((s.begin.itemInput s.mem c v x).2 = 0 ∨ EngineReaches s c (s.begin.itemInput s.mem c v x).1 (s.begin.itemInput s.mem c v x).2)) ∧
  (∃ (s : State) (c : Fin 64) (v : Fin 8) (x : Item), ((s.dev.ctx c).stage v).item 1 = some x ∧ x.kind ∈ [.backward] ∧ x.kind.unit = 1 ∧ x.gathers = [] ∧ x.started = false ∧ s.dev.unitRuns c v 1 = true ∧ NoBad s ∧ ((s.begin.itemInput s.mem c v x).2 = 0 ∨ EngineReaches s c (s.begin.itemInput s.mem c v x).1 (s.begin.itemInput s.mem c v x).2)) ∧
  (∃ (s : State) (c : Fin 64) (v : Fin 8) (x : Item), ((s.dev.ctx c).stage v).item 2 = some x ∧ x.kind ∈ ([.update, .apply]) ∧ x.kind.unit = 2 ∧ x.gathers = [] ∧ x.started = false ∧ s.dev.unitRuns c v 2 = true ∧ NoBad s ∧ ((s.begin.itemInput s.mem c v x).2 = 0 ∨ EngineReaches s c (s.begin.itemInput s.mem c v x).1 (s.begin.itemInput s.mem c v x).2)) ∧
  (∃ (s : State) (c : Fin 64) (v : Fin 8) (x : Item), ((s.dev.ctx c).stage v).item 2 = some x ∧ x.kind ∈ [.mirror] ∧ x.kind.unit = 2 ∧ x.gathers = [] ∧ x.started = false ∧ s.dev.unitRuns c v 2 = true ∧ NoBad s ∧ ((s.begin.itemInput s.mem c v x).2 = 0 ∨ EngineReaches s c (s.begin.itemInput s.mem c v x).1 (s.begin.itemInput s.mem c v x).2)) :=
  ⟨⟨piped 1 .running {} [(0x100000, [3]), (0x110000, [2])], 0, 0, by decide +kernel, by decide +kernel, by decide +kernel, engineReaches (reaches (by decide +kernel)) (by decide +kernel), engineReaches (reaches (by decide +kernel)) (by decide +kernel)⟩,
  ⟨piped 7 .running { fwdProd := 1 } (slot0 3), 0, 0, 0, (0, 0x121000, 0), by decide +kernel, by decide +kernel, by decide +kernel, by decide +kernel, by decide +kernel, by decide +kernel, by decide +kernel, by decide +kernel, by decide +kernel, by decide +kernel, noBad (by decide +kernel)⟩,
  ⟨piped 7 .running { fwdProd := 1, fwdNext := 1 } (slot0 2), 0, 0, 0, (0, 0x121000, 0), by decide +kernel, by decide +kernel, by decide +kernel, by decide +kernel, by decide +kernel, by decide +kernel, noBad (by decide +kernel)⟩,
  ⟨piped 7 .running { fwdProd := 1, fwdNext := 1, bwdProd := 1 } (slot0 0 ++ [(0x110100, toLE 32 (5 * 2 ^ 48))]), 0, 0, 0, by decide +kernel, by decide +kernel, by decide +kernel, by decide +kernel, noBad (by decide +kernel)⟩,
  ⟨piped 7 .running { queue := [(.update, 4), (.mirror, 4)] } [], 0, 0, .update, 4, [(.mirror, 4)], by decide +kernel, by decide +kernel, by decide +kernel, by decide +kernel, by decide +kernel, by decide +kernel, noBad (by decide +kernel)⟩,
  ⟨mirrored 3 { queue := [(.mirror, 4)] }, 0, 0, 4, [], by decide +kernel, by decide +kernel, by decide +kernel, by decide +kernel, by decide +kernel, noBad (by decide +kernel)⟩,
  ⟨mirrored 9 { queue := [(.mirror, 4)] }, 0, 0, 4, [], by decide +kernel⟩,
  ⟨piped 7 .running { fwdItem := some (item .forward false) } (slot0 0), 0, 0, item .forward false, by decide +kernel, by decide +kernel, by decide +kernel, by decide +kernel, by decide +kernel, by decide +kernel, noBad (by decide +kernel), .inr (engineReaches (reaches (by decide +kernel)) (by decide +kernel))⟩,
  ⟨piped 7 .running { fwdItem := some (item .recompute false) } (slot0 0), 0, 0, item .recompute false, by decide +kernel, by decide +kernel, by decide +kernel, by decide +kernel, by decide +kernel, by decide +kernel, noBad (by decide +kernel), .inr (engineReaches (reaches (by decide +kernel)) (by decide +kernel))⟩,
  ⟨piped 7 .running { bwdItem := some (item .backward false) } (slot0 0), 0, 0, item .backward false, by decide +kernel, by decide +kernel, by decide +kernel, by decide +kernel, by decide +kernel, by decide +kernel, noBad (by decide +kernel), .inr (engineReaches (reaches (by decide +kernel)) (by decide +kernel))⟩,
  ⟨piped 7 .running { updItem := some (item .update false) } (slot0 0), 0, 0, item .update false, by decide +kernel, by decide +kernel, by decide +kernel, by decide +kernel, by decide +kernel, by decide +kernel, noBad (by decide +kernel), .inl (by decide +kernel)⟩,
  ⟨piped 7 .running { updItem := some (item .mirror false) } (slot0 0), 0, 0, item .mirror false, by decide +kernel, by decide +kernel, by decide +kernel, by decide +kernel, by decide +kernel, by decide +kernel, noBad (by decide +kernel), .inl (by decide +kernel)⟩⟩

theorem witness_ItemsEndAndPipelinesRunAndStop :
  (∃ (s : State) (c : Fin 64) (v : Fin 8) (i : Item), ((s.dev.ctx c).stage v).fwdItem = some i ∧ i.kind = .forward ∧ (s.dev.ctx c).pipe.state = .running ∧ i.started = true ∧ i.sums = [] ∧ (s.dev.tile (leadTile ((s.dev.ctx c).unitMask v 0))).sem 15 = true) ∧
  (∃ (s : State) (c : Fin 64) (v : Fin 8) (i : Item), ((s.dev.ctx c).stage v).fwdItem = some i ∧ i.kind = .recompute ∧ (s.dev.ctx c).pipe.state = .running ∧ i.started = true ∧ i.sums = [] ∧ (s.dev.tile (leadTile ((s.dev.ctx c).unitMask v 0))).sem 15 = true ∧ NoBad s) ∧
  (∃ (s : State) (c : Fin 64) (v : Fin 8) (i : Item), ((s.dev.ctx c).stage v).bwdItem = some i ∧ (s.dev.ctx c).pipe.state = .running ∧ i.started = true ∧ i.sums = [] ∧ (s.dev.tile (leadTile ((s.dev.ctx c).unitMask v 1))).sem 15 = true ∧ i.owners = [(v.val, false)] ∧ ((s.dev.ctx c).stage v).retireNow = false ∧ NoBad s) ∧
  (∃ (s : State) (c : Fin 64) (v : Fin 8) (i : Item), ((s.dev.ctx c).stage v).updItem = some i ∧ i.kind = .update ∧ s.dev.protOn c = false ∧ (s.dev.ctx c).pipe.state = .running ∧ i.started = true ∧ i.sums = [] ∧ (s.dev.tile (leadTile ((s.dev.ctx c).unitMask v 2))).sem 15 = true) ∧
  (∃ (s : State) (c : Fin 64) (v : Fin 8) (k : Fin 1024) (i : Item), ((s.dev.ctx c).stage v).updItem = some i ∧ i.kind = .update ∧ i.sums = [k.val] ∧ (s.dev.ctx c).pipe.state = .running ∧ ((s.dev.ctx c).stage v).retireNow = false ∧ NoBad s) ∧
  (∃ (s : State) (c : Fin 64) (v : Fin 8) (o : Delivery), ((s.dev.ctx c).stage v).fwdOut = some o ∧ o.phase = 0 ∧ o.target = 1 ∧ (s.dev.ctx c).pipe.state = .running ∧ s.dev.deliveries c < 4 ∧ slotsFrom (s.begin.ringProd s.mem ((s.dev.ctx c).bwdRing v)) (s.begin.ringCons s.mem ((s.dev.ctx c).bwdRing v)) < (s.dev.ctx c).bwdSlots v ∧ EngineReaches s c ((s.dev.ctx c).bwdSlotAt v (s.begin.ringProd s.mem ((s.dev.ctx c).bwdRing v)) + 256) ((s.dev.ctx c).outBytes v) ∧ EngineReaches s c ((s.dev.ctx c).bwdSlotAt v (s.begin.ringProd s.mem ((s.dev.ctx c).bwdRing v))) 32 ∧ EngineReaches s c ((s.dev.ctx c).bwdRing v) 4) ∧
  (∃ (s : State) (c : Fin 64) (v : Fin 8), ((s.dev.ctx c).stage v).prevLive = true ∧ ((s.dev.ctx c).stage v).prevRefs = 0 ∧ s.dev.rf (Reg.ctxPipeCtrl c) 19 0 ≤ (s.dev.lode.count - ((s.dev.ctx c).stage v).prevIdleLt).toNat ∧ NoBad s) ∧
  (∃ (s : State) (c : Fin 64) (v : Fin 8), ((s.dev.ctx c).stage v).prevRefs ≠ 0) ∧
  (∃ (s : State) (r : Requester) (c : Fin 64) (v : BitVec 32) (b : Nat), Heard s r (Reg.ctxPipeCtrl c) v ∧ s.dev.mayWriteCtx r c = true ∧ fb v 30 28 = 0 ∧ s.dev.rb (Reg.ctxPipeCtrl c) 31 = false ∧ v.getLsbD 31 = true ∧ b = s.dev.reg64 (Reg.ctxPipeBaseLo c) % 2 ^ 41 / 256 * 256 ∧ EngineReaches s c b 2112 ∧ s.begin.tableFault s.mem { s.dev.ctx c with pipe := { (s.dev.ctx c).pipe with table := peekN s.mem s.begin b 2112 } } c = none) ∧
  (∃ (s : State) (r : Requester) (c : Fin 64) (v : BitVec 32) (b : Nat) (e : Nat), Heard s r (Reg.ctxPipeCtrl c) v ∧ s.dev.mayWriteCtx r c = true ∧ fb v 30 28 = 0 ∧ s.dev.rb (Reg.ctxPipeCtrl c) 31 = false ∧ v.getLsbD 31 = true ∧ b = s.dev.reg64 (Reg.ctxPipeBaseLo c) % 2 ^ 41 / 256 * 256 ∧ EngineReaches s c b 2112 ∧ s.begin.tableFault s.mem { s.dev.ctx c with pipe := { (s.dev.ctx c).pipe with table := peekN s.mem s.begin b 2112 } } c = some e) ∧
  (∃ (s : State) (r : Requester) (c : Fin 64) (v : BitVec 32), Heard s r (Reg.ctxPipeCtrl c) v ∧ s.dev.mayWriteCtx r c = true ∧ fb v 30 28 = 0 ∧ s.dev.rb (Reg.ctxPipeCtrl c) 31 = true ∧ v.getLsbD 31 = false) ∧
  (∃ (s : State) (r : Requester) (c : Fin 64), Heard s r (Reg.ctxPipeCtrl c) (s.dev.pipeCmd c 1) ∧ s.dev.mayWriteCtx r c = true ∧ (s.dev.ctx c).pipe.state = .stopped ∧ NoBad s) ∧
  (∃ (s : State) (r : Requester) (c : Fin 64), Heard s r (Reg.ctxPipeCtrl c) (s.dev.pipeCmd c 2) ∧ s.dev.mayWriteCtx r c = true ∧ NoBad s) :=
  ⟨⟨pipedT 5 .running { fwdItem := some (item .forward true) } [(0, { sems := 0x8000 })] (slot0 0), 0, 0, item .forward true, by decide +kernel⟩,
  ⟨pipedT 5 .running { fwdItem := some (item .recompute true) } [(0, { sems := 0x8000 })] (slot0 2), 0, 0, item .recompute true, by decide +kernel, by decide +kernel, by decide +kernel, by decide +kernel, by decide +kernel, by decide +kernel, noBad (by decide +kernel)⟩,
  ⟨pipedT 5 .running { bwdItem := some (item .backward true), curRefs := 2, fwdNext := 1 } [(1, { sems := 0x8000 })] (slot0 0), 0, 0, item .backward true, by decide +kernel, by decide +kernel, by decide +kernel, by decide +kernel, by decide +kernel, by decide +kernel, by decide +kernel, noBad (by decide +kernel)⟩,
  ⟨pipedT 5 .running { updItem := some (item .update true) } [(2, { sems := 0x8000 })] (slot0 0), 0, 0, item .update true, by decide +kernel⟩,
  ⟨piped 5 .running { updItem := some { item .update true with sums := [0] }, curStep := 2, curRefs := 1 } (slot0 0), 0, 0, 0, { item .update true with sums := [0] }, by decide +kernel, by decide +kernel, by decide +kernel, by decide +kernel, by decide +kernel, noBad (by decide +kernel)⟩,
  ⟨piped 5 .running { fwdOut := some { target := 1, rec_ := 77 } } [(0x10000000400, [1, 2, 3])], 0, 0, { target := 1, rec_ := 77 }, by decide +kernel, by decide +kernel, by decide +kernel, by decide +kernel, by decide +kernel, by decide +kernel, engineReaches (reaches (by decide +kernel)) (by decide +kernel), engineReaches (reaches (by decide +kernel)) (by decide +kernel), engineReaches (reaches (by decide +kernel)) (by decide +kernel)⟩,
  ⟨piped 5 .running { prevLive := true } [], 0, 0, by decide +kernel, by decide +kernel, by decide +kernel, noBad (by decide +kernel)⟩,
  ⟨piped 5 .running { prevLive := true, prevRefs := 2 } [], 0, 0, by decide +kernel⟩,
  ⟨(let s := piped 7 .off {} [(0x160000, stageTable 7)]; { s with dev := withRegs s.dev [(Reg.ctxPipeBaseLo 0, 0x160000)] }), .mgmt, 0, net.reg (Reg.ctxPipeCtrl 0) ||| 0x80000000, 0x160000, by unfold Heard; decide +kernel, by decide +kernel, by decide +kernel, by decide +kernel, by decide +kernel, by decide +kernel, engineReaches (reaches (by decide +kernel)) (by decide +kernel), by decide +kernel⟩,
  ⟨(let s := piped 7 .off {} [(0x160000, [7])]; { s with dev := withRegs s.dev [(Reg.ctxPipeBaseLo 0, 0x160000)] }), .mgmt, 0, net.reg (Reg.ctxPipeCtrl 0) ||| 0x80000000, 0x160000, 0, by unfold Heard; decide +kernel, by decide +kernel, by decide +kernel, by decide +kernel, by decide +kernel, by decide +kernel, engineReaches (reaches (by decide +kernel)) (by decide +kernel), by decide +kernel⟩,
  ⟨(let s := piped 7 .running {} []; { s with dev := withRegs s.dev [(Reg.ctxPipeCtrl 0, net.reg (Reg.ctxPipeCtrl 0) ||| 0x80000000)] }), .mgmt, 0, net.reg (Reg.ctxPipeCtrl 0), by unfold Heard; decide +kernel⟩,
  ⟨piped 7 .stopped { curRefs := 2, prevRefs := 1, prevLive := true, stashUsed := [1], fwdOut := some { target := 1, rec_ := 77 } } [], .mgmt, 0, by unfold Heard; decide +kernel, by decide +kernel, by decide +kernel, noBad (by decide +kernel)⟩,
  ⟨piped 7 .running { prevLive := true, prevRefs := 1 } [], .mgmt, 0, by unfold Heard; decide +kernel, by decide +kernel, noBad (by decide +kernel)⟩⟩

theorem witness_PequaPortsTrainRunAndGoDown :
  (∃ (s : State) (p : Fin 4) (f : FlitIn), (s.dev.host p).state = .active ∧ f.crcOk = true ∧ fb f.bits 75 74 = 0 ∧ f.bits.getLsbD 119 = false ∧ f.bits.getLsbD 118 = false ∧ fb f.bits 143 132 = ((s.dev.host p).rxSeq + 1).toNat) ∧
  (∃ (s : State) (p : Fin 4) (f : FlitIn), (s.dev.host p).state = .active ∧ f.crcOk = false) ∧
  (∃ (s : State) (p : Fin 4), (s.dev.host p).state = .param ∧ (s.dev.host p).owed = []) ∧
  (∃ (s : State) (p : Fin 4) (k : HPacket), (s.dev.host p).state = .active ∧ (s.dev.host p).ctrlQueue = [] ∧ (s.dev.host p).toReplay = 0 ∧ (s.dev.host p).txUnits = [] ∧ (s.dev.host p).tx = [k] ∧ k.units ≤ mget 0 (s.dev.host p).credits k.cls ∧ k.cls < 3 ∧ (hpUnits k).length ≤ 14 ∧ (s.dev.host p).unacked.length < 1024) ∧
  (∃ (s : State) (p : Fin 4), (s.dev.host p).state = .active ∧ (s.dev.host p).unacked ≠ []) ∧
  (∃ (s : State) (p : Fin 4) (h : BitVec 64) (n : BitVec 16), (s.dev.host p).state = .param ∧ h ≠ 0 ∧ n ≠ 0 ∧ n.toNat ≤ 4096 ∧ ((s.dev.host p).lastHostId = 0 ∨ (s.dev.host p).lastHostId = h)) ∧
  (∃ (s : State) (p : Fin 4) (h : BitVec 64) (n : BitVec 16), (s.dev.host p).state = .param ∧ h ≠ 0 ∧ n ≠ 0 ∧ n.toNat ≤ 4096 ∧ (s.dev.host p).lastHostId ≠ 0 ∧ (s.dev.host p).lastHostId ≠ h) ∧
  (∃ (s : State) (p : Fin 4), (s.dev.host p).state = .credit ∧ (∀ x, x < 64 → (s.dev.ctx x).state = .teardown → (s.dev.ctx x).port ≠ p.val)) ∧
  (∃ (s : State) (p : Fin 4) (n : Fin 17), (s.dev.host p).state = .phyTrain ∧ 4 ≤ n.val) ∧
  (∃ (s : State) (p : Fin 4) (n : Fin 17), (s.dev.host p).state = .phyTrain ∧ n.val < 4) ∧
  (∃ (s : State) (p : Fin 4), (s.dev.host p).state = .down ∧ s.dev.hostMayTrain p = true) ∧
  (∃ (s : State) (p : Fin 4), (s.dev.host p).state = .retrain) ∧
  (∃ (s : State) (p : Fin 4), (s.dev.host p).state = .active) ∧
  (∃ (s : State) (p : Fin 4), ((s.dev.host p).state = .param ∨ (s.dev.host p).state = .credit ∨ (s.dev.host p).state = .retrain ∨ (s.dev.host p).state = .phyTrain)) ∧
  (∃ (s : State) (p : Fin 4), ((s.dev.host p).state = .active ∨ (s.dev.host p).state = .retrain)) ∧
  (∃ (s : State) (r : Requester) (p : Fin 4), Heard s r (Reg.devHpCtrl p) (s.dev.hpCtrlWith p 1) ∧ isCtx0 r = true ∧ (s.dev.host p).state = .active ∧ 1 ≤ s.dev.rf (Reg.devHpCtrl p) 11 0 ∧ s.dev.rf (Reg.devHpCtrl p) 11 0 ≤ 3600) ∧
  (∃ (s : State) (r : Requester) (p : Fin 4), Heard s r (Reg.devHpCtrl p) (s.dev.hpCtrlWith p 2) ∧ isCtx0 r = true ∧ (s.dev.host p).state ≠ .disabled ∧ (s.dev.host p).state ≠ .failed ∧ 1 ≤ s.dev.rf (Reg.devHpCtrl p) 11 0 ∧ s.dev.rf (Reg.devHpCtrl p) 11 0 ≤ 3600) ∧
  (∃ (s : State) (r : Requester) (p : Fin 4), Heard s r (Reg.devHpCtrl p) (s.dev.hpCtrlWith p 3) ∧ isCtx0 r = true ∧ (s.dev.host p).state = .disabled ∧ 1 ≤ s.dev.rf (Reg.devHpCtrl p) 11 0 ∧ s.dev.rf (Reg.devHpCtrl p) 11 0 ≤ 3600) :=
  ⟨⟨st owned, 1, { bits := BitVec.ofNat 2048 ((hpk 1 0 1 32 0x40 []).hdr.toNat * 2 ^ 144), crcOk := true }, by decide +kernel⟩,
  ⟨st owned, 1, { bits := 0, crcOk := false }, by decide +kernel⟩,
  ⟨st (atPort 2 { state := .param }), 2, by decide +kernel⟩,
  ⟨st (atPort 2 { state := .active, tx := [hpk 0x11 0 1 32 0x40 (List.replicate 32 7)], credits := [(0, 40)] }), 2, hpk 0x11 0 1 32 0x40 (List.replicate 32 7), by decide +kernel⟩,
  ⟨st (atPort 2 { state := .active, unacked := [5] }), 2, by decide +kernel⟩,
  ⟨st (atPort 2 { state := .param }), 2, 77, 64, by decide +kernel⟩,
  ⟨st { owned with hosts := [(1, { state := .param, lastHostId := 76 })], admin := 2 }, 1, 77, 64, by decide +kernel⟩,
  ⟨st (atPort 2 { state := .credit }), 2, by decide +kernel⟩,
  ⟨st (atPort 2 { state := .phyTrain }), 2, 8, by decide +kernel⟩,
  ⟨st (atPort 2 { state := .phyTrain }), 2, 3, by decide +kernel⟩,
  ⟨st up, 2, by decide +kernel⟩,
  ⟨st (atPort 2 { state := .retrain, unacked := [5, 6], nakCount := 3 }), 2, by decide +kernel⟩,
  ⟨st (atPort 2 { state := .active, unacked := [5], tx := [hpk 1 0 1 32 0x40 []] }), 2, by decide +kernel⟩,
  ⟨st (atPort 2 { state := .retrain, unacked := [5] }), 2, by decide +kernel⟩,
  ⟨st (atPort 2 { state := .active, unacked := [5], rx := [hpk 1 0 1 32 0x40 []] }), 2, by decide +kernel⟩,
  ⟨st hosted, .mgmt, 1, by unfold Heard; decide +kernel⟩,
  ⟨st owned, .mgmt, 1, by unfold Heard; decide +kernel⟩,
  ⟨st (atPort 2 { state := .disabled }), .mgmt, 2, by unfold Heard; decide +kernel⟩⟩

theorem witness_HostMemoryRequestsArePerformed :
  (∃ (s : State) (p : Fin 4) (k : HPacket), HostMay s p k 1 ∧ inBlock (k.addr % 2 ^ 41) k.len = true ∧ Reaches s k.ctx (k.addr % 2 ^ 41) k.len) ∧
  (∃ (s : State) (p : Fin 4) (k : HPacket), (s.dev.host p).up = true ∧ k.opc = 1 ∧ s.dev.hostBehind p k = false ∧ s.dev.boundTo k.ctx p = false) ∧
  (∃ (s : State) (p : Fin 4) (k : HPacket), HostMay s p k 2 ∧ inBlock (k.addr % 2 ^ 41) k.len = true ∧ k.data.length = k.len ∧ Reaches s k.ctx (k.addr % 2 ^ 41) k.len) ∧
  (∃ (s : State) (p : Fin 4) (k : HPacket) (a : Nat), HostMay s p k 3 ∧ a = k.addr % 2 ^ 41 ∧ s.dev.coherent p = true ∧ (s.dev.host p).cohFenced = false ∧ a % 64 = 0 ∧ k.len = 64 ∧ s.dev.inCohRange k.ctx a = true ∧ Reaches s k.ctx a 64) ∧
  (∃ (s : State) (p : Fin 4) (k : HPacket) (a : Nat), HostMay s p k 4 ∧ a = k.addr % 2 ^ 41 ∧ s.dev.coherent p = true ∧ (s.dev.host p).cohFenced = false ∧ a % 64 = 0 ∧ k.len = 64 ∧ s.dev.inCohRange k.ctx a = true ∧ Reaches s k.ctx a 64) ∧
  (∃ (s : State) (p : Fin 4) (k : HPacket), HostMay s p k 3 ∧ s.dev.coherent p = false) ∧
  (∃ (s : State) (p : Fin 4) (k : HPacket) (a : Nat) (e : DirEntry), HostMay s p k 5 ∧ a = k.addr % 2 ^ 41 ∧ s.dev.coherent p = true ∧ (s.dev.host p).cohFenced = false ∧ s.dev.inCohRange k.ctx a = true ∧ a % 64 = 0 ∧ k.len = 0 ∧ s.dev.directory = [(a / 64, e)] ∧ e.sharers = BitVec.ofNat 4 (2 ^ p.val)) ∧
  (∃ (s : State) (p : Fin 4) (k : HPacket) (a : Nat) (e : DirEntry), HostMay s p k 5 ∧ a = k.addr % 2 ^ 41 ∧ s.dev.coherent p = true ∧ (s.dev.host p).cohFenced = false ∧ s.dev.inCohRange k.ctx a = true ∧ a % 64 = 0 ∧ k.len = 64 ∧ k.data.length = 64 ∧ isHbm a = true ∧ NoBad s ∧ s.dev.directory = [(a / 64, e)] ∧ e.sharers = BitVec.ofNat 4 (2 ^ p.val)) ∧
  (∃ (s : State) (p : Fin 4) (k : HPacket) (x : Snoop) (e : DirEntry), (s.dev.host p).up = true ∧ k.opc = 0x0A ∧ s.dev.snoops = [x] ∧ x.port = p.val ∧ x.tag = k.tag ∧ x.inval = true ∧ k.data.length = 64 ∧ isHbm (64 * x.line) = true ∧ NoBad s ∧ s.dev.waiting = [] ∧ s.dev.directory = [(x.line, e)] ∧ e.sharers = BitVec.ofNat 4 (2 ^ p.val) ∧ (∀ c, c < 64 → (s.dev.ctx c).state ≠ .teardown)) ∧
  (∃ (s : State) (p : Fin 4) (k : HPacket) (c : Nat) (i : Nat), (s.dev.host p).up = true ∧ k.opc = 0x15 ∧ s.dev.linesAt p k.addr = [(c, i)]) ∧
  (∃ (s : State) (p : Fin 4) (k : HPacket) (c : Nat) (i : Nat), (s.dev.host p).up = true ∧ k.opc = 0x16 ∧ s.dev.linesAt p k.addr = [(c, i)]) ∧
  (∃ (s : State) (p : Fin 4), s.dev.snoops.any (fun x => x.port == p.val) = true ∧ s.dev.waiting = [] ∧ (∀ c, c < 64 → (s.dev.ctx c).state ≠ .teardown)) :=
  ⟨⟨stm { polled with hosts := owned.hosts } 0x200040 (le 4 [1,2,3,4,5,6,7,8]), 1, hpk 1 0 1 32 0x200040 [], by unfold HostMay; decide +kernel, by decide +kernel, reaches (by decide +kernel)⟩,
  ⟨st hosted, 1, hpk 1 0 1 32 0x200040 [], by decide +kernel⟩,
  ⟨st polled, 1, hpk 2 0 1 32 0x200040 (List.replicate 32 7), by unfold HostMay; decide +kernel, by decide +kernel, by decide +kernel, reaches (by decide +kernel)⟩,
  ⟨stm coh 0x200040 (le 4 [1,2,3,4,5,6,7,8]), 1, hpk 3 0 1 64 0x200040 [], 0x200040, by unfold HostMay; decide +kernel, by decide +kernel, by decide +kernel, by decide +kernel, by decide +kernel, by decide +kernel, by decide +kernel, reaches (by decide +kernel)⟩,
  ⟨stm coh 0x200040 (le 4 [1,2,3,4,5,6,7,8]), 1, hpk 4 0 1 64 0x200040 [], 0x200040, by unfold HostMay; decide +kernel, by decide +kernel, by decide +kernel, by decide +kernel, by decide +kernel, by decide +kernel, by decide +kernel, reaches (by decide +kernel)⟩,
  ⟨st polled, 1, hpk 3 0 1 64 0x200040 [], by unfold HostMay; decide +kernel⟩,
  ⟨st (cached true), 1, hpk 5 0 1 0 0x200000 [], 0x200000, { exclusive := true, sharers := 2, age := 0 }, by unfold HostMay; decide +kernel⟩,
  ⟨st (cached true), 1, hpk 5 0 1 64 0x200000 (List.replicate 64 9), 0x200000, { exclusive := true, sharers := 2, age := 0 }, by unfold HostMay; decide +kernel, by decide +kernel, by decide +kernel, by decide +kernel, by decide +kernel, by decide +kernel, by decide +kernel, by decide +kernel, by decide +kernel, noBad (by decide +kernel), by decide +kernel⟩,
  ⟨st { cached true with snoops := [{ port := 1, tag := 9, line := 0x8000, inval := true }] }, 1, ans 0x0A 0 (List.replicate 64 3), { port := 1, tag := 9, line := 0x8000, inval := true }, { exclusive := true, sharers := 2, age := 0 }, by decide +kernel, by decide +kernel, by decide +kernel, by decide +kernel, by decide +kernel, by decide +kernel, by decide +kernel, by decide +kernel, noBad (by decide +kernel), by decide +kernel⟩,
  ⟨st (cohC (fun x => { x with lines := [(2, { held := true, dirty := true, data := 5 })] })), 1, hpk 0x15 1 1 0 0x1080 [], 1, 2, by decide +kernel⟩,
  ⟨st (cohC (fun x => { x with lines := [(2, { held := true, dirty := true, data := 5 })] })), 1, hpk 0x16 1 1 0 0x1080 [], 1, 2, by decide +kernel⟩,
  ⟨st { cached true with snoops := [{ port := 1, tag := 9, line := 0x8000, inval := true }] }, 1, by decide +kernel⟩⟩

theorem witness_WatchedLinesBringRunRecords :
  (∃ (s : State) (c : Fin 64) (l : Fin 64) (n : Nat), s.dev.runOn? c = true ∧ l.val < s.dev.runLines c ∧ s.dev.coherent (s.dev.ctx c).port = false ∧ (s.dev.host (s.dev.ctx c).port).up = true ∧ (s.dev.watched c l).taking = false ∧ s.dev.freeHostTag (s.dev.ctx c).port = some n ∧ n < 4096) ∧
  (∃ (s : State) (c : Fin 64) (l : Fin 64) (n : Nat), s.dev.runOn? c = true ∧ l.val < s.dev.runLines c ∧ s.dev.coherent (s.dev.ctx c).port = true ∧ (s.dev.host (s.dev.ctx c).port).up = true ∧ (s.dev.watched c l).held = false ∧ (s.dev.watched c l).taking = false ∧ s.dev.freeHostTag (s.dev.ctx c).port = some n ∧ n < 4096) ∧
  (∃ (s : State) (c : Fin 64) (l : Fin 64), (s.dev.watched c l).held = true ∧ (s.dev.watched c l).shared = false) ∧
  (∃ (s : State) (p : Fin 4) (k : HPacket) (t : Tag) (l : Nat), (s.dev.host p).up = true ∧ k.opc = 0x18 ∧ s.dev.hostAnswered p k = some t ∧ t.reserved = false ∧ k.gen = s.dev.genOf t.ctx ∧ k.status = 0 ∧ t.purpose = .runLine ∧ t.b = l ∧ (s.dev.ctx t.a).port = p.val ∧ s.dev.coherent p = true ∧ k.grant = 2 ∧ s.dev.runOn? t.a = true ∧ l < s.dev.runLines t.a ∧ (s.dev.ctx t.a).runNext.toNat % s.dev.runLines t.a = l ∧ fb (BitVec.ofNat 512 (leOf k.data)) 31 0 ≠ (s.dev.ctx t.a).runNext.toNat ∧ (s.dev.host p).waiting = []) ∧
  (∃ (s : State) (p : Fin 4) (k : HPacket) (t : Tag) (l : Nat) (x : Run), (s.dev.host p).up = true ∧ k.opc = 0x18 ∧ s.dev.hostAnswered p k = some t ∧ t.reserved = false ∧ k.gen = s.dev.genOf t.ctx ∧ k.status = 0 ∧ t.purpose = .runLine ∧ t.b = l ∧ (s.dev.ctx t.a).port = p.val ∧ s.dev.coherent p = true ∧ k.grant = 2 ∧ s.dev.runOn? t.a = true ∧ l < s.dev.runLines t.a ∧ (s.dev.ctx t.a).runNext.toNat % s.dev.runLines t.a = l ∧ x = { seq := (s.dev.ctx t.a).runNext, record := BitVec.ofNat 512 (leOf k.data) } ∧ fb x.record 31 0 = x.seq.toNat ∧ fb x.record 63 56 = 0 ∧ s.dev.cplFree t.a x.seq = true ∧ s.dev.refuses t.a x = false ∧ (x.seq + 1).toNat % s.dev.runLines t.a ≠ l ∧ (s.dev.watched t.a ((x.seq + 1).toNat % s.dev.runLines t.a)).held = false) ∧
  (∃ (s : State) (p : Fin 4) (k : HPacket), (s.dev.host p).up = true ∧ k.opc = 0x18 ∧ s.dev.hostAnswered p k = none) ∧
  (∃ (s : State) (p : Fin 4) (k : HPacket), (s.dev.host p).up = true ∧ k.opc = 0x19 ∧ s.dev.hostAnswered p k = none) ∧
  (∃ (s : State) (p : Fin 4) (k : HPacket) (t : Tag), (s.dev.host p).up = true ∧ k.opc = 0x19 ∧ s.dev.hostAnswered p k = some t ∧ t.reserved = false ∧ k.gen = s.dev.genOf t.ctx ∧ k.status = 0 ∧ t.purpose = .evtValid ∧ (s.dev.host p).waiting = []) ∧
  (∃ (s : State) (p : Fin 4) (k : HPacket) (t : Tag), (s.dev.host p).up = true ∧ k.opc = 0x19 ∧ s.dev.hostAnswered p k = some t ∧ t.reserved = true) ∧
  (∃ (s : State) (p : Fin 4) (k : HPacket) (t : Tag) (y : Run), (s.dev.host p).up = true ∧ k.opc = 0x19 ∧ s.dev.hostAnswered p k = some t ∧ t.reserved = false ∧ k.gen = s.dev.genOf t.ctx ∧ k.status = 0 ∧ t.purpose = .cplBody ∧ s.dev.findRun t.a (BitVec.ofNat 32 t.b) = some y ∧ y.state = .ending ∧ y.evt = false ∧ s.dev.tags.any (fun z => z.purpose == .copyWrite) = false) :=
  ⟨⟨st polled, 1, 2, 0, by decide +kernel⟩,
  ⟨st coh, 1, 2, 0, by decide +kernel⟩,
  ⟨st (cohC (fun x => { x with lines := [(2, { held := true, data := 5 })] })), 1, 2, by decide +kernel⟩,
  ⟨st { cohC (fun x => { x with lines := [(0, { taking := true })] }) with tags := [tag9 .runLine 0x13 1 0] }, 1, ans 0x18 2 (List.replicate 64 7), tag9 .runLine 0x13 1 0, 0, by decide +kernel⟩,
  ⟨st { cohC (fun x => { x with lines := [(0, { taking := true })] }) with tags := [tag9 .runLine 0x13 1 0] }, 1, ans 0x18 2 (List.replicate 64 0), tag9 .runLine 0x13 1 0, 0, { seq := 0, record := 0 }, by decide +kernel⟩,
  ⟨st coh, 1, ans 0x18 2 (List.replicate 64 7), by decide +kernel⟩,
  ⟨st coh, 1, ans 0x19 0 [], by decide +kernel⟩,
  ⟨st { coh with tags := [tag9 .evtValid 0x11 1 0] }, 1, ans 0x19 0 [], tag9 .evtValid 0x11 1 0, by decide +kernel⟩,
  ⟨st { coh with tags := [{ tag9 .evtValid 0x11 1 0 with reserved := true }] }, 1, ans 0x19 0 [], { tag9 .evtValid 0x11 1 0 with reserved := true }, by decide +kernel⟩,
  ⟨st { cohC (fun x => { x with runs := [{ seq := 4, record := 0, state := .ending, bodySent := true }] }) with tags := [tag9 .cplBody 0x11 1 4] }, 1, ans 0x19 0 [], tag9 .cplBody 0x11 1 4, { seq := 4, record := 0, state := .ending, bodySent := true }, by decide +kernel⟩⟩

theorem witness_RunsStartAndComplete :
  (∃ (s : State) (c : Fin 64) (q : BitVec 32) (x : Run), s.dev.findRun c q = some x ∧ x.op = 1 ∧ s.dev.mayStart c x = true ∧ (maskTiles x.tileMask).find? (fun t => s.dev.lost (dieOf t)) = none ∧ x.inBytes = 0) ∧
  (∃ (s : State) (c : Fin 64) (q : BitVec 32) (x : Run), s.dev.findRun c q = some x ∧ x.op = 2 ∧ s.dev.mayStart c x = true ∧ x.toHost = false ∧ x.issued < x.length) ∧
  (∃ (s : State) (c : Fin 64) (q : BitVec 32) (x : Run), s.dev.findRun c q = some x ∧ x.op = 0 ∧ s.dev.mayStart c x = true) ∧
  (∃ (s : State) (c : Fin 64) (q : BitVec 32) (x : Run), s.dev.findRun c q = some x ∧ x.op = 4 ∧ s.dev.mayStart c x = true ∧ earlier (s.dev.ctx c).runs q = []) ∧
  (∃ (s : State) (c : Fin 64) (q : BitVec 32) (x : Run), s.dev.findRun c q = some x ∧ x.op = 4 ∧ s.dev.mayStart c x = true ∧ earlier (s.dev.ctx c).runs q ≠ []) ∧
  (∃ (s : State) (c : Fin 64) (q : BitVec 32) (x : Run), s.dev.findRun c q = some x ∧ x.op = 1 ∧ x.state = .running ∧ x.started = true ∧ (s.dev.tile (leadTile x.tileMask)).sem x.doneSem = true) ∧
  (∃ (s : State) (c : Fin 64) (q : BitVec 32) (x : Run), s.dev.findRun c q = some x ∧ x.op = 2 ∧ x.state = .running ∧ x.length ≤ x.moved ∧ s.dev.copyOut c q = false) ∧
  (∃ (s : State) (c : Fin 64) (q : BitVec 32) (x : Run), s.dev.findRun c q = some x ∧ x.op = 3 ∧ x.state = .waiting ∧ s.dev.bound c = true ∧ (earlier (s.dev.ctx c).runs q).find? (fun y => y.seq == BitVec.ofNat 32 x.target) = none) ∧
  (∃ (s : State) (c : Fin 64) (q : BitVec 32) (x : Run) (y : Run), s.dev.findRun c q = some x ∧ x.op = 3 ∧ x.state = .waiting ∧ s.dev.bound c = true ∧ (earlier (s.dev.ctx c).runs q).find? (fun y => y.seq == BitVec.ofNat 32 x.target) = some y ∧ y.state = .waiting) ∧
  (∃ (s : State) (c : Fin 64) (q : BitVec 32) (x : Run), s.dev.findRun c q = some x ∧ x.deadlineEn = true ∧ x.deadline ≤ s.dev.now ∧ x.state ≠ .ending) ∧
  (∃ (s : State) (c : Fin 64) (q : BitVec 32) (x : Run), s.dev.findRun c q = some x ∧ x.deadlineEn = false) :=
  ⟨⟨withRuns [(run4 1 0 6 (3 + 4 * 2 ^ 8) 0 .waiting)], 1, 4, (run4 1 0 6 (3 + 4 * 2 ^ 8) 0 .waiting), by decide +kernel⟩,
  ⟨withRuns [(run4 2 0 0x5000 0x200000 512 .waiting)], 1, 4, (run4 2 0 0x5000 0x200000 512 .waiting), by decide +kernel⟩,
  ⟨withRuns [(run4 0 0 0 0 0 .waiting)], 1, 4, (run4 0 0 0 0 0 .waiting), by decide +kernel⟩,
  ⟨withRuns [(run4 4 0 0 0 0 .waiting)], 1, 4, (run4 4 0 0 0 0 .waiting), by decide +kernel⟩,
  ⟨withRuns [{ seq := 3, record := runRec 3 1 0 0 6 0 0, state := .running }, (run4 4 0 0 0 0 .waiting)], 1, 4, (run4 4 0 0 0 0 .waiting), by decide +kernel⟩,
  ⟨withSem [{ run4 1 0 6 (3 + 4 * 2 ^ 8) 0 .running with started := true }], 1, 4, { run4 1 0 6 (3 + 4 * 2 ^ 8) 0 .running with started := true }, by decide +kernel⟩,
  ⟨withRuns [{ run4 2 0 0x5000 0x200000 512 .running with moved := 512, issued := 512 }], 1, 4, { run4 2 0 0x5000 0x200000 512 .running with moved := 512, issued := 512 }, by decide +kernel⟩,
  ⟨withRuns [(run4 3 0 3 0 0 .waiting)], 1, 4, (run4 3 0 3 0 0 .waiting), by decide +kernel⟩,
  ⟨withRuns [{ seq := 3, record := runRec 3 1 0 0 6 0 0 }, (run4 3 0 3 0 0 .waiting)], 1, 4, (run4 3 0 3 0 0 .waiting), { seq := 3, record := runRec 3 1 0 0 6 0 0 }, by decide +kernel⟩,
  ⟨withRuns [(run4 1 2 6 0 0 .running)], 1, 4, (run4 1 2 6 0 0 .running), by decide +kernel⟩,
  ⟨withRuns [(run4 1 0 6 0 0 .running)], 1, 4, (run4 1 0 6 0 0 .running), by decide +kernel⟩⟩

theorem witness_RingsAndContextsAreBoundAndTornDown :
  (∃ (s : State) (r : Requester) (c : Fin 64) (v : BitVec 32), Heard s r (Reg.ctxCplCtrl c) v ∧ s.dev.mayWriteCtx r c = true ∧ s.dev.rb (Reg.ctxCplCtrl c) 31 = false ∧ v.getLsbD 31 = true ∧ 4 ≤ fb v 4 0 ∧ fb v 4 0 ≤ 16 ∧ s.dev.bound c = true ∧ (s.dev.watched c ((s.dev.ctx c).runNext.toNat % s.dev.runLines c)).held = false) ∧
  (∃ (s : State) (r : Requester) (c : Fin 64) (v : BitVec 32), Heard s r (Reg.ctxCplCtrl c) v ∧ s.dev.mayWriteCtx r c = true ∧ 16 < fb v 4 0) ∧
  (∃ (s : State) (r : Requester) (c : Fin 64) (v : BitVec 32) (l : List Nat), Heard s r (Reg.ctxCplCons c) v ∧ s.dev.mayWriteCtx r c = true ∧ seqRange (s.dev.reg (Reg.ctxCplCons c)) v (2 ^ s.dev.rf (Reg.ctxCplCtrl c) 4 0) = some l ∧ (∀ x, x ∈ l → x ∈ (s.dev.ctx c).cplValid) ∧ (s.dev.watched c ((s.dev.ctx c).runNext.toNat % s.dev.runLines c)).held = false) ∧
  (∃ (s : State) (r : Requester) (c : Fin 64) (v : BitVec 32) (l : List Nat) (x : Nat), Heard s r (Reg.ctxCplCons c) v ∧ s.dev.mayWriteCtx r c = true ∧ seqRange (s.dev.reg (Reg.ctxCplCons c)) v (2 ^ s.dev.rf (Reg.ctxCplCtrl c) 4 0) = some l ∧ x ∈ l ∧ ¬ x ∈ (s.dev.ctx c).cplValid) ∧
  (∃ (s : State) (r : Requester) (c : Fin 64) (v : BitVec 32) (l : List Nat), Heard s r (Reg.ctxEvtCons c) v ∧ s.dev.mayWriteCtx r c = true ∧ seqRange (s.dev.reg (Reg.ctxEvtCons c)) v (2 ^ s.dev.rf (Reg.ctxEvtCtrl c) 4 0) = some l ∧ (∀ x, x ∈ l → x ∈ (s.dev.ctx c).evt.valid)) ∧
  (∃ (s : State) (q : Fin 4) (p : Fin 4) (v : BitVec 32) (c : Nat), Heard s (.host q) (Reg.devHpBind p) v ∧ c = fb v 5 0 ∧ c ≠ 0 ∧ (s.dev.ctx c).state = .free ∧ (s.dev.ctx c).hostMask.getLsbD p.val = true ∧ q = p) ∧
  (∃ (s : State) (q : Fin 4) (p : Fin 4) (v : BitVec 32) (n : Nat), Heard s (.host q) (Reg.devHpBind p) v ∧ n = s.dev.bindResult p q (fb v 5 0) ∧ n ≠ 0) ∧
  (∃ (s : State) (p : Fin 4), (s.dev.host p).state ≠ .active) ∧
  (∃ (s : State) (p : Fin 4), (s.dev.host p).state = .active) ∧
  (∃ (s : State) (r : Requester) (c : Fin 64), Heard s r (Reg.ctxCtrl c) (s.dev.teardownCmd c) ∧ s.dev.mayWriteCtx r c = true ∧ s.dev.bound c = true) ∧
  (∃ (s : State) (c : Fin 64), (s.dev.ctx c).state = .quarantine ∧ s.dev.hasTags c = false) ∧
  (∃ (s : State) (c : Fin 64), s.dev.hasTags c = true) :=
  ⟨⟨st polled, .mgmt, 1, 0x80000005, by unfold Heard; decide +kernel⟩,
  ⟨st coh, .mgmt, 1, 0x80000011, by unfold Heard; decide +kernel⟩,
  ⟨st (cohC (fun x => { x with cplValid := [0, 1, 2] })), .mgmt, 1, 2, [0, 1], by unfold Heard; decide +kernel⟩,
  ⟨st (cohC (fun x => { x with cplValid := [0] })), .mgmt, 1, 2, [0, 1], 1, by unfold Heard; decide +kernel⟩,
  ⟨(let s := st (cohC (fun x => { x with evt := { x.evt with valid := [0, 1, 2] } })); { s with dev := withRegs s.dev [(Reg.ctxEvtCtrl 1, 0x80000004)] }), .mgmt, 1, 2, [0, 1], by unfold Heard; decide +kernel⟩,
  ⟨st { hosted with ctxs := [(5, { state := .free, hostMask := 15, tileMask := 0xFF })] }, 2, 2, 5, 5, by unfold Heard; decide +kernel⟩,
  ⟨st { hosted with ctxs := [(5, { state := .free, hostMask := 1, tileMask := 0xFF })] }, 2, 2, 5, 1, by unfold Heard; decide +kernel⟩,
  ⟨st (let d := owned; { d with hosts := [] }), 1, by decide +kernel⟩,
  ⟨st owned, 1, by decide +kernel⟩,
  ⟨st owned, .mgmt, 1, by unfold Heard; decide +kernel⟩,
  ⟨st (withRegs { hosted with ctxs := [(1, { state := .quarantine, port := 1, tileMask := 0xFFFF, hostMask := 15 })] } [(Reg.ctxEvtCtrl 1, 0x80000004), (Reg.ctxEvtCtrl 2, 0x80000004)]), 1, by decide +kernel⟩,
  ⟨st { coh with tags := [tag9 .evtValid 0x11 1 0] }, 1, by decide +kernel⟩⟩

theorem witness_ScoresWaitsAndProbes :
  (∃ (s : State) (k : Fin 7) (n : BitVec 32) (b : Bucket), mfind s.dev.ras.buckets (bucketKey k n.toNat) = some b ∧ s.dev.lbLeak k ≤ (s.dev.lode.count - b.clock).toNat ∧ (s.dev.lode.count - b.clock).toNat < 2 ^ 63) ∧
  (∃ (s : State) (k : Fin 7) (n : BitVec 32) (b : Bucket), mfind s.dev.ras.buckets (bucketKey k n.toNat) = some b ∧ (s.dev.lode.count - b.clock).toNat < s.dev.lbLeak k) ∧
  (∃ (s : State) (r : Requester) (k : Fin 7) (v : BitVec 32), Heard s r (Reg.rasLbCfg k) v ∧ s.dev.ctx0OrAdmin r = true ∧ 1 ≤ fb v 31 24 ∧ fb v 31 24 ≤ fb v 23 0) ∧
  (∃ (s : State) (r : Requester) (k : Fin 7) (v : BitVec 32), Heard s r (Reg.rasLbCfg k) v ∧ s.dev.ctx0OrAdmin r = true ∧ fb v 23 0 < fb v 31 24) ∧
  (∃ (s : State), (s.dev.ras.armed = false ∨ s.dev.riskScore < s.dev.rf Reg.rasHealthCtrl 31 24) ∧ s.dev.riskScore < s.dev.rf Reg.rasHealthCtrl 23 16) ∧
  (∃ (s : State), s.dev.ras.armed = true ∧ s.dev.rf Reg.rasHealthCtrl 31 24 ≤ s.dev.riskScore ∧ s.dev.ras.resets = []) ∧
  (∃ (s : State) (r : Requester), Heard s r Reg.rasHealthCtrl (s.dev.regWith Reg.rasHealthCtrl 1 0 1) ∧ s.dev.ctx0OrAdmin r = true ∧ 1 ≤ s.dev.rf Reg.rasHealthCtrl 31 24 ∧ s.dev.rf Reg.rasHealthCtrl 31 24 ≤ s.dev.rf Reg.rasHealthCtrl 23 16 ∧ s.dev.rf Reg.rasHealthCtrl 15 8 < s.dev.rf Reg.rasHealthCtrl 31 24) ∧
  (∃ (s : State), s.dev.lost 4 = false ∧ s.dev.rf Reg.rasHangCtrl 31 30 = 0) ∧
  (∃ (s : State), s.dev.lost 4 = false ∧ (∀ x, x < waitUnits → (s.begin.waitOn s.mem x).kind = 0)) ∧
  (∃ (s : State) (x : Nat) (l : List Nat), s.dev.lost 4 = false ∧ s.dev.rf Reg.rasHangCtrl 31 30 = 0 ∧ ((List.range waitUnits).filterMap (fun u => ((sampled s).cycleAt u).map (fun l => (u, l)))).filter (fun c => (sampled s).stood c.2 = 8) = [(x, l)]) ∧
  (∃ (s : State) (x : Fin 284) (n : Nat) (t : Nat), s.dev.lost 4 = false ∧ s.dev.rb Reg.rasHangCtrl 29 = true ∧ (s.dev.unitWait x).probed = true ∧ s.dev.remoteEnd x = some (n, t)) ∧
  (∃ (s : State) (k : Packet), k.opc = opWPROBE ∧ k.ecrcOk = true ∧ k.src ≠ s.dev.node ∧ s.dev.lost 4 = false ∧ k.data.length = 32 ∧ leOf ((k.data.drop 11).take 1) = 0 ∧ s.dev.remoteEnd (leOf ((k.data.drop 12).take 2) % 512) = none) ∧
  (∃ (s : State) (k : Packet), k.opc = opWPROBE ∧ k.ecrcOk = true ∧ k.src ≠ s.dev.node ∧ s.dev.lost 4 = false ∧ k.data.length = 32 ∧ leOf ((k.data.drop 11).take 1) = 1 ∧ leOf ((k.data.drop 0).take 4) % 2 ^ 23 = s.dev.node ∧ wKind (s.dev.unitWait (leOf ((k.data.drop 4).take 2) % 512)).word ≠ 0 ∧ wSerial (s.dev.unitWait (leOf ((k.data.drop 4).take 2) % 512)).word = leOf ((k.data.drop 6).take 2) ∧ s.dev.rf Reg.rasHangCtrl 31 30 = 0) :=
  ⟨⟨st (rased { buckets := [(bucketKey 0 5, { level := 3 })] }), 0, 5, { level := 3 }, by decide +kernel⟩,
  ⟨st (rased { buckets := [(bucketKey 0 5, { level := 3, clock := 100000000 })] }), 0, 5, { level := 3, clock := 100000000 }, by decide +kernel⟩,
  ⟨st up, .mgmt, 2, 0x04000400, by unfold Heard; decide +kernel⟩,
  ⟨st up, .mgmt, 2, 0x04000003, by unfold Heard; decide +kernel⟩,
  ⟨st (rased { score := 3 }), by decide +kernel⟩,
  ⟨st (rased { lasting := List.replicate 9 99999999, linkEvents := List.replicate 9 99999999 }), by decide +kernel⟩,
  ⟨st (rased {}), .mgmt, by unfold Heard; decide +kernel⟩,
  ⟨(let s := hung 2; { s with dev := withRegs s.dev [(Reg.rasHangCtrl, 100)] }), by decide +kernel⟩,
  ⟨st (rased {}), by decide +kernel⟩,
  ⟨(let s := hung 7; { s with dev := withRegs s.dev [(Reg.rasHangCtrl, 100)] }), 5, [5, 9], by decide +kernel⟩,
  ⟨st (withRegs remote [(Reg.rasHangCtrl, 0x20000064)]), 5, 9, 17, by decide +kernel⟩,
  ⟨st net, pkt opWPROBE 0 0 0 (probeData 9 17 1 1 0 0 5) 0, by decide +kernel⟩,
  ⟨st (withRegs remote [(Reg.rasHangCtrl, 0x20000064)]), pkt opWPROBE 0 0 0 (probeData 5 5 1 1 0 1 5) 0, by decide +kernel⟩⟩

theorem witness_ResetsClearAndSamplesAreTaken :
  (∃ (s : State) (r : Requester) (c : Fin 64), Heard s r Reg.rasResetCtrl (BitVec.ofNat 32 (2 ^ 30 + c.val)) ∧ s.dev.ctx0OrAdmin r = true ∧ c ≠ 0 ∧ s.dev.bound c = true ∧ s.dev.ras.resets = [] ∧ SomeTile s (s.dev.tilesOf c) ∧ s.dev.rb Reg.rasSampleCtrl 31 = false) ∧
  (∃ (s : State) (r : Requester) (c : Fin 64), Heard s r Reg.rasResetCtrl (BitVec.ofNat 32 (2 ^ 30 + c.val)) ∧ s.dev.ctx0OrAdmin r = true ∧ s.dev.bound c = false) ∧
  (∃ (s : State) (r : Requester), Heard s r Reg.rasResetCtrl (s.dev.regWith Reg.rasResetCtrl 31 30 2) ∧ s.dev.ctx0OrAdmin r = true ∧ s.dev.ras.resets.any (fun x => x.scope != 1) = false ∧ SomeTile s (List.range 64) ∧ s.dev.rb Reg.rasSampleCtrl 31 = false) ∧
  (∃ (s : State) (r : Requester), Heard s r Reg.rasResetCtrl (s.dev.regWith Reg.rasResetCtrl 31 30 2) ∧ s.dev.ctx0OrAdmin r = true ∧ s.dev.ras.resets.any (fun x => x.scope != 1) = true) ∧
  (∃ (s : State) (r : Requester), Heard s r Reg.rasResetCtrl (s.dev.regWith Reg.rasResetCtrl 31 30 3) ∧ s.dev.ctx0OrAdmin r = true ∧ s.dev.lost 4 = false ∧ s.dev.bringUp = .done ∧ s.dev.pwr.state ≠ .tripped ∧ s.dev.ras.resets = [] ∧ SomeTile s (List.range 64) ∧ s.dev.rb Reg.rasSampleCtrl 31 = false) ∧
  (∃ (s : State), s.dev.lost 4 = false ∧ s.dev.bringUp = .done ∧ s.dev.pwr.state ≠ .tripped ∧ s.dev.ras.resets = [] ∧ SomeTile s (List.range 64) ∧ s.dev.rb Reg.rasSampleCtrl 31 = false) ∧
  (∃ (s : State), s.dev.bringUp ≠ .done) ∧
  (∃ (s : State) (t : Fin 64) (j : Fin 64), s.dev.copying t = true ∧ s.dev.copying j = true ∧ j ≠ t) ∧
  (∃ (s : State) (t : Nat), (List.range 64).filter s.dev.copying = [t] ∧ s.dev.ras.resets = []) ∧
  (∃ (s : State) (r : Requester), Heard s r Reg.rasSampleCtrl (s.dev.regWith Reg.rasSampleCtrl 1 0 1) ∧ s.dev.ctx0OrAdmin r = true) ∧
  (∃ (s : State) (t : Fin 64), (s.dev.tile t).clearing = true ∧ s.dev.ownerOf t = none ∧ s.dev.ras.resets = []) ∧
  (∃ (s : State) (t : Fin 64), (s.dev.tile t).clearing = false) :=
  ⟨⟨st (withRegs (rased {}) [(Reg.rasSampleCtrl, 0)]), .mgmt, 1, by unfold Heard; decide +kernel, by decide +kernel, by decide +kernel, by decide +kernel, by decide +kernel, ⟨0, by decide +kernel⟩, by decide +kernel⟩,
  ⟨st (rased {}), .mgmt, 2, by unfold Heard; decide +kernel⟩,
  ⟨st (withRegs (rased {}) [(Reg.rasSampleCtrl, 0)]), .mgmt, by unfold Heard; decide +kernel, by decide +kernel, by decide +kernel, ⟨0, by decide +kernel⟩, by decide +kernel⟩,
  ⟨st (rased { resets := [{ scope := 2, ctxs := [], t0 := 5, sampling := false, outcome := none }] }), .mgmt, by unfold Heard; decide +kernel⟩,
  ⟨st (withRegs (rased {}) [(Reg.rasSampleCtrl, 0)]), .mgmt, by unfold Heard; decide +kernel, by decide +kernel, by decide +kernel, by decide +kernel, by decide +kernel, by decide +kernel, ⟨0, by decide +kernel⟩, by decide +kernel⟩,
  ⟨st (withRegs (rased {}) [(Reg.rasSampleCtrl, 0)]), by decide +kernel, by decide +kernel, by decide +kernel, by decide +kernel, ⟨0, by decide +kernel⟩, by decide +kernel⟩,
  ⟨st { fuses := fuses }, by decide +kernel⟩,
  ⟨st (sampling [1, 2]), 1, 2, by decide +kernel⟩,
  ⟨st (sampling [1]), 1, by decide +kernel⟩,
  ⟨st (sampling [1]), .mgmt, by unfold Heard; decide +kernel⟩,
  ⟨st (tiled { clearing := true }), 3, by decide +kernel⟩,
  ⟨st up, 3, by decide +kernel⟩⟩

theorem witness_ProtectionCommandsAreTakenOrRefused :
  (∃ (s : State) (r : Requester) (c : Fin 64), Heard s r (Reg.ctxProtCtrl c) 0x80000000 ∧ s.dev.mayWriteCtx r c = true ∧ s.dev.protOn c = false ∧ (s.dev.ctx c).pipe.state = .off ∧ s.begin.protTableOk s.mem c = true ∧ s.begin.logRemote s.mem c = 0 ∧ NoBad s) ∧
  (∃ (s : State) (r : Requester) (c : Fin 64), Heard s r (Reg.ctxProtCtrl c) 0x80000000 ∧ s.dev.mayWriteCtx r c = true ∧ s.dev.protOn c = false ∧ (s.dev.ctx c).pipe.state = .off ∧ s.begin.protTableOk s.mem c = false) ∧
  (∃ (s : State) (r : Requester) (c : Fin 64), ProtHeard s r c 1 ∧ s.begin.flushEnded s.mem c = false) ∧
  (∃ (s : State) (r : Requester) (c : Fin 64), ProtHeard s r c 1 ∧ s.begin.flushEnded s.mem c = true) ∧
  (∃ (s : State) (r : Requester) (c : Fin 64) (l : List Nat), ProtHeard s r c 2 ∧ l = (s.begin.entryList s.mem c).filter (fun i => s.begin.flag s.mem c i fTORN && !eMirror (s.begin.entry s.mem c i)) ∧ NoBad s) ∧
  (∃ (s : State) (r : Requester) (c : Fin 64) (l : List Nat), ProtHeard s r c 3 ∧ l = (s.begin.entryList s.mem c).filter (fun i => !eMirror (s.begin.entry s.mem c i) && eVstep (s.begin.entry s.mem c i) + 1 == (s.dev.reg (Reg.ctxProtArg c)).toNat) ∧ l ≠ []) ∧
  (∃ (s : State) (r : Requester) (c : Fin 64) (l : List Nat), ProtHeard s r c 4 ∧ l = s.begin.mirrorsOf s.mem c (s.dev.rf (Reg.ctxProtArg c) 2 0)) ∧
  (∃ (s : State) (r : Requester) (c : Fin 64), ProtHeard s r c 5 ∧ (∀ v, v < 8 → (s.begin.mirrorsOf s.mem c v).all (fun i => eVstep (s.begin.entry s.mem c i) == (s.dev.reg (Reg.ctxProtArg c)).toNat) = true) ∧ s.dev.noneLeft c .mirror = true ∧ (∀ i, i < s.begin.protEntries s.mem c → EngineReaches s c (s.dev.entryAt c i + 46) 1 ∧ EngineReaches s c (s.dev.entryAt c i + 48) 2)) ∧
  (∃ (s : State) (r : Requester) (c : Fin 64), ProtHeard s r c 6) ∧
  (∃ (s : State) (r : Requester) (c : Fin 64), ProtHeard s r c 7) ∧
  (∃ (s : State) (r : Requester) (c : Fin 64), Heard s r (Reg.ctxProtCtrl c) (s.dev.protCmdWord c 1) ∧ s.dev.mayWriteCtx r c = true ∧ s.dev.protOn c = true ∧ s.begin.protAccepts s.mem c 1 = false) ∧
  (∃ (s : State) (r : Requester) (c : Fin 64), Heard s r (Reg.ctxProtCtrl c) (s.dev.protCmdWord c 2) ∧ s.dev.mayWriteCtx r c = true ∧ s.dev.protOn c = true ∧ s.begin.protAccepts s.mem c 2 = false) ∧
  (∃ (s : State) (r : Requester) (c : Fin 64), Heard s r (Reg.ctxProtCtrl c) (s.dev.protCmdWord c 3) ∧ s.dev.mayWriteCtx r c = true ∧ s.dev.protOn c = true ∧ s.begin.protAccepts s.mem c 3 = false) ∧
  (∃ (s : State) (r : Requester) (c : Fin 64), Heard s r (Reg.ctxProtCtrl c) (s.dev.protCmdWord c 4) ∧ s.dev.mayWriteCtx r c = true ∧ s.dev.protOn c = true ∧ s.begin.protAccepts s.mem c 4 = false) ∧
  (∃ (s : State) (r : Requester) (c : Fin 64), Heard s r (Reg.ctxProtCtrl c) (s.dev.protCmdWord c 5) ∧ s.dev.mayWriteCtx r c = true ∧ s.dev.protOn c = true ∧ s.begin.protAccepts s.mem c 5 = false) ∧
  (∃ (s : State) (r : Requester) (c : Fin 64), Heard s r (Reg.ctxProtCtrl c) (s.dev.protCmdWord c 6) ∧ s.dev.mayWriteCtx r c = true ∧ s.dev.protOn c = true ∧ s.begin.protAccepts s.mem c 6 = false) ∧
  (∃ (s : State) (r : Requester) (c : Fin 64), Heard s r (Reg.ctxProtCtrl c) (s.dev.protCmdWord c 7) ∧ s.dev.mayWriteCtx r c = true ∧ s.dev.protOn c = true ∧ s.begin.protAccepts s.mem c 7 = false) :=
  ⟨⟨guarded .off false {} {} 0x0, .mgmt, 0, by unfold Heard; decide +kernel, by decide +kernel, by decide +kernel, by decide +kernel, by decide +kernel, by decide +kernel, noBad (by decide +kernel)⟩,
  ⟨guarded .off false {} {} 0x4, .mgmt, 0, by unfold Heard; decide +kernel⟩,
  ⟨guarded .off true {} {} 0x400000000000000000, .mgmt, 0, by unfold ProtHeard Heard; decide +kernel⟩,
  ⟨guarded .off true {} {} 0x0, .mgmt, 0, by unfold ProtHeard Heard; decide +kernel⟩,
  ⟨guarded .stopped true {} {} 0x10000000000000000, .mgmt, 0, [0], by unfold ProtHeard Heard; decide +kernel, by decide +kernel, noBad (by decide +kernel)⟩,
  ⟨guarded .running true {} {} 0x3000000000000000000000000, .mgmt, 0, [0], by unfold ProtHeard Heard; decide +kernel⟩,
  ⟨guarded .running true {} {} 0x84000000000000, .mgmt, 0, [0], by unfold ProtHeard Heard; decide +kernel⟩,
  ⟨guarded .stopped true {} {} 0x4000000000080000000000000, .mgmt, 0, by unfold ProtHeard Heard; decide +kernel, by decide +kernel, by decide +kernel, fun i hi => by obtain rfl : i = 0 := Nat.lt_one_iff.mp (lt_of_lt_of_eq hi (by decide +kernel)); exact ⟨engineReaches (reaches (by decide +kernel)) (by decide +kernel), engineReaches (reaches (by decide +kernel)) (by decide +kernel)⟩⟩,
  ⟨guarded .stopped true {} {} 0x0, .mgmt, 0, by unfold ProtHeard Heard; decide +kernel⟩,
  ⟨guarded .stopped true {} {} 0x0, .mgmt, 0, by unfold ProtHeard Heard; decide +kernel⟩,
  ⟨guarded .running true { fault := true } {} 0x0, .mgmt, 0, by unfold Heard; decide +kernel⟩,
  ⟨guarded .running true { fault := false } {} 0x0, .mgmt, 0, by unfold Heard; decide +kernel⟩,
  ⟨guarded .off true { fault := false } {} 0x0, .mgmt, 0, by unfold Heard; decide +kernel⟩,
  ⟨guarded .running true { fault := true } {} 0x0, .mgmt, 0, by unfold Heard; decide +kernel⟩,
  ⟨guarded .running true { fault := false } {} 0x0, .mgmt, 0, by unfold Heard; decide +kernel⟩,
  ⟨guarded .running true { fault := false } {} 0x0, .mgmt, 0, by unfold Heard; decide +kernel⟩,
  ⟨guarded .running true { fault := false } {} 0x0, .mgmt, 0, by unfold Heard; decide +kernel⟩⟩

theorem witness_CopiesDigestsAndLogsAdvance :
  (∃ (s : State) (c : Fin 64) (i : Fin 4096), s.dev.protCmd c = 1 ∧ (s.dev.ctx c).prot.flushed = true ∧ (s.dev.ctx c).prot.reread.contains i.val = true) ∧
  (∃ (s : State) (c : Fin 64) (r : Retain) (l : List Retain), s.dev.protOn c = true ∧ (s.dev.ctx c).prot.retain = r :: l ∧ (∀ v, v < 8 → s.dev.mirrorPending c v (fun g => decide (g + 2 ≤ r.step.toNat)) = false) ∧ (s.dev.ctx c).collDone = 0 ∧ EngineReaches s c (s.dev.retainAt c r.step.toNat) 64) ∧
  (∃ (s : State) (c : Fin 64) (i : Fin 4096) (q : SlotCopy), (s.dev.ctx c).prot.slotCopies.find? (fun q => q.entry == i.val) = some q ∧ q.running = false ∧ (s.begin.bucketDone s.mem c (eBucket (s.begin.entry s.mem c i))).2 = true ∧ s.dev.mirrorPending c (eVs (s.begin.entry s.mem c i)) (fun g => g % 2 == q.step.toNat % 2) = false) ∧
  (∃ (s : State) (c : Fin 64) (i : Fin 4096) (q : SlotCopy) (x : Nat) (j : Nat) (n : Nat), (s.dev.ctx c).prot.slotCopies.find? (fun q => q.entry == i.val && q.running) = some q ∧ x = s.begin.entry s.mem c i ∧ j = q.step.toNat % 2 ∧ n = eGbytes x ∧ EngineReaches s c (eGsrc x) n ∧ EngineReaches s c (eSlot x j) n ∧ EngineReaches s c (s.dev.entryAt c i + 56 + 4 * j) 4 ∧ (eSlot x j + n ≤ s.dev.entryAt c i + 56 + 4 * j ∨ s.dev.entryAt c i + 60 + 4 * j ≤ eSlot x j) ∧ s.dev.protCmd c ≠ 1) ∧
  (∃ (s : State) (c : Fin 64) (i : Fin 4096) (x : Nat), s.dev.protOn c = true ∧ (s.begin.entryList s.mem c).contains i.val = true ∧ x = s.begin.entry s.mem c i ∧ eFlag x fDIGBUSY = true ∧ s.dev.protCmd c ≠ 1 ∧ EngineReaches s c (s.dev.entryAt c i + 64) 4 ∧ EngineReaches s c (s.dev.entryAt c i + 68) 4 ∧ EngineReaches s c (s.dev.entryAt c i + 48) 2 ∧ (eRec x + shardBytes (s.begin.header s.mem (eRec x)) ≤ s.dev.entryAt c i ∨ s.dev.entryAt c i + 128 ≤ eRec x) ∧ (eRec x + 64 ≤ s.dev.entryAt c i ∨ s.dev.entryAt c i + 128 ≤ eRec x)) ∧
  (∃ (s : State) (c : Fin 64) (bs : List Byte) (t : BitVec 32) (n : Nat), s.dev.protOn c = true ∧ (s.dev.ctx c).log.known = true ∧ (s.dev.ctx c).log.busy = none ∧ s.begin.logNext s.mem c = some (bs, t, n, false) ∧ leOf (bs.take 2) = 0 ∧ s.dev.protCmd c ≠ 1) ∧
  (∃ (s : State) (c : Fin 64) (bs : List Byte) (t : BitVec 32) (n : Nat) (z : Nat) (w : Bool), s.dev.protOn c = true ∧ (s.dev.ctx c).log.known = true ∧ (s.dev.ctx c).log.busy = none ∧ s.begin.logNext s.mem c = some (bs, t, n, w) ∧ leOf (bs.take 2) ≠ 0 ∧ (s.dev.ctx c).log.room bs.length = some (0, z)) ∧
  (∃ (s : State) (r : Requester) (c : Fin 64) (v : BitVec 32), Heard s r (Reg.ctxLogProd c) v ∧ s.dev.mayWriteCtx r c = true ∧ (s.dev.protOn c = true → (v - (s.dev.ctx c).log.shipped).toNat ≤ s.begin.logLocalBytes s.mem c)) ∧
  (∃ (s : State) (r : Requester) (c : Fin 64) (v : BitVec 32), Heard s r (Reg.ctxLogProd c) v ∧ s.dev.mayWriteCtx r c = true ∧ s.dev.protOn c = true ∧ s.begin.logLocalBytes s.mem c < (v - (s.dev.ctx c).log.shipped).toNat) :=
  ⟨⟨guarded .running true { cmd := some (1, 0), flushed := true, todo := [0], reread := [0, 2] } {} 0x0, 0, 0, by decide +kernel⟩,
  ⟨guarded .running true { retain := [{ step := 4, seed := 77, hyper := [1, 2, 3, 4, 5, 6, 7, 8] }] } {} 0x0, 0, { step := 4, seed := 77, hyper := [1, 2, 3, 4, 5, 6, 7, 8] }, [], by decide +kernel, by decide +kernel, by decide +kernel, by decide +kernel, engineReaches (reaches (by decide +kernel)) (by decide +kernel)⟩,
  ⟨(let s := guarded .running true { slotCopies := [{ entry := 0, step := 4, running := false }] } {} 0x80000000000000; { s with dev := s.dev.setCtx 0 { s.dev.ctx 0 with collDone := 1 } }), 0, 0, { entry := 0, step := 4, running := false }, by decide +kernel⟩,
  ⟨guarded .running true { slotCopies := [{ entry := 0, step := 5, running := true }] } {} 0x80000000000040, 0, 0, { entry := 0, step := 5, running := true }, (let s := guarded .running true {} {} 0x80000000000040; s.begin.entry s.mem 0 0), 1, 64, by decide +kernel, by decide +kernel, by decide +kernel, by decide +kernel, engineReaches (reaches (by decide +kernel)) (by decide +kernel), engineReaches (reaches (by decide +kernel)) (by decide +kernel), engineReaches (reaches (by decide +kernel)) (by decide +kernel), by decide +kernel⟩,
  ⟨guarded .running true {} {} 0x400000000000000000, 0, 0, (let s := guarded .running true {} {} 0x400000000000000000; s.begin.entry s.mem 0 0), by decide +kernel, by decide +kernel, by decide +kernel, by decide +kernel, by decide +kernel, engineReaches (reaches (by decide +kernel)) (by decide +kernel), engineReaches (reaches (by decide +kernel)) (by decide +kernel), engineReaches (reaches (by decide +kernel)) (by decide +kernel), by decide +kernel⟩,
  ⟨(let s := guarded .running true {} { known := true, size := 0x10000 } 0; { s with mem := Memory.write s.mem ((cellsAt 0x150018 (toLE 8 0x160000) ++ cellsAt 0x150020 (toLE 4 0x10000)).reverse), dev := withRegs s.dev [(Reg.ctxLogProd 0, 32)] }), 0, toLE 32 0, 0, 32, by decide +kernel⟩,
  ⟨guarded .running true {} { known := true, size := 0x10000, pending := [{ vs := 0, mb := 5, bytes := logHeader 1 0 4 5 0 0 0 }] } 0, 0, logHeader 1 0 4 5 0 0 0, 4, 0, 32, true, by decide +kernel⟩,
  ⟨guarded .running false {} {} 0, .mgmt, 0, 64, by unfold Heard; decide +kernel⟩,
  ⟨guarded .running true {} {} 0, .mgmt, 0, 64, by unfold Heard; decide +kernel⟩⟩

theorem witness_BundlesAndUnlockRecordsAreChecked :
  (∃ (s : State), s.dev.sec.state = .waitBundle ∧ s.dev.bringUp = .waitBundle) ∧
  (∃ (s : State), s.dev.sec.state = .verifying) ∧
  (∃ (s : State) (code : Nat), s.dev.sec.state = .verifying ∧ s.dev.bringUp = .verifying ∧ code = s.dev.bundleResult s.dev.sec.bundle) ∧
  (∃ (s : State), s.dev.bringUp ≠ .off ∧ s.dev.sec.state ≠ .failed ∧ s.dev.sec.state ≠ .selfTest ∧ pkgIdOk s.dev.fuses.pkgIdA = true) ∧
  (∃ (s : State), pkgIdOk s.dev.fuses.pkgIdA = false) ∧
  (∃ (s : State), mget 0 s.dev.sec.tap 4 = 0x20 ∧ s.dev.sec.state = .running ∧ s.dev.lost 4 = false) ∧
  (∃ (s : State) (n : BitVec 256), mget 0 s.dev.sec.tap 4 = 0x20 ∧ s.dev.sec.state = .running ∧ s.dev.lost 4 = false ∧ s.dev.sec.nonce = some n) ∧
  (∃ (s : State), mget 0 s.dev.sec.tap 4 ≠ 0x20) :=
  ⟨⟨st { fuses := fuses, bringUp := .waitBundle, sec := { state := .waitBundle } }, by decide +kernel⟩,
  ⟨st { fuses := fuses, bringUp := .verifying, sec := { state := .verifying } }, by decide +kernel⟩,
  ⟨st { fuses := fuses, bringUp := .verifying, sec := { state := .verifying, bundle := List.replicate 300 0 } }, (let d : Dev := { fuses := fuses, bringUp := .verifying, sec := { state := .verifying, bundle := List.replicate 300 0 } }; d.bundleResult (List.replicate 300 0)), by decide +kernel⟩,
  ⟨st up, by decide +kernel⟩,
  ⟨st { fuses := { fuses with pkgIdA := 0 } }, by decide +kernel⟩,
  ⟨st { up with sec := { state := .running, tap := [(4, 0x20)] } }, by decide +kernel⟩,
  ⟨st { up with sec := { state := .running, tap := [(4, 0x20)], nonce := some 5 } }, 5, by decide +kernel⟩,
  ⟨st up, by decide +kernel⟩⟩

theorem witness_SpdmRequestsAreAnswered :
  (∃ (s : State) (ch : Fin 6) (msg : List Byte) (x : Bool), Asks s ch msg 0x84 x) ∧
  (∃ (s : State) (ch : Fin 6) (msg : List Byte) (x : Bool) (v : Nat), Asks s ch msg 0xE1 x ∧ (v = 0x12 ∨ v = 0x13) ∧ (msg.getD 0 0).toNat = v ∧ (s.dev.spdm ch).version = true) ∧
  (∃ (s : State) (ch : Fin 6) (msg : List Byte) (x : Bool) (v : Nat) (body : List Byte), Asks s ch msg 0xE3 x ∧ 32 ≤ msg.length ∧ (v = 0x12 ∨ v = 0x13) ∧ (msg.getD 0 0).toNat = v ∧ (s.dev.spdm ch).version = true ∧ (s.dev.spdm ch).capabilities = true ∧ (s.dev.spdm ch).inUse = v ∧ body = bytesOf [(msg.getD 6 0).toNat &&& 1, (msg.getD 7 0).toNat &&& 2] ++ toLE 4 (if (msg.getD 6 0).toNat &&& 1 = 1 then 8 else 0) ++ toLE 4 (leOf ((msg.drop 8).take 4) &&& 0x40) ++ toLE 4 (leOf ((msg.drop 12).take 4) &&& 4) ++ bytesOf (List.replicate 16 0) ++ ((algStructs (msg.getD 2 0).toNat (msg.drop 32)).map (fun a => bytesOf [a.1, 0x20] ++ toLE 2 a.2)).flatten) ∧
  (∃ (s : State) (ch : Fin 6) (msg : List Byte) (x : Bool) (v : Nat), Asks s ch msg 0x81 x ∧ Connected s ch msg v) ∧
  (∃ (s : State) (ch : Fin 6) (msg : List Byte) (x : Bool) (v : Nat) (o : Nat) (n : Nat) (c : List Byte), Asks s ch msg 0x82 x ∧ Connected s ch msg v ∧ 8 ≤ msg.length ∧ o = leOf ((msg.drop 4).take 2) ∧ n = min (min (leOf ((msg.drop 6).take 2)) 8184) (c.length - o) ∧ mfind s.dev.sec.certs ((msg.getD 2 0).toNat % 16) = some c ∧ o < c.length) ∧
  (∃ (s : State) (ch : Fin 6) (msg : List Byte) (x : Bool) (v : Nat) (k : Nat), Asks s ch msg 0xEE x ∧ Connected s ch msg v ∧ k = (msg.getD 2 0).toNat % 16 ∧ k < 2 ∧ s.dev.keyReady k = true ∧ msg.length ≤ 32772) ∧
  (∃ (s : State) (ch : Fin 6) (msg : List Byte) (x : Bool) (v : Nat) (k : Nat), Asks s ch msg 0xEE x ∧ Connected s ch msg v ∧ k = (msg.getD 2 0).toNat % 16 ∧ k < 2 ∧ s.dev.keyReady k = false) ∧
  (∃ (s : State) (ch : Fin 6) (msg : List Byte) (x : Bool) (v : Nat) (c : List Byte), Asks s ch msg 0x83 x ∧ Connected s ch msg v ∧ (msg.getD 2 0).toNat = 0 ∧ 36 ≤ msg.length ∧ mfind s.dev.sec.certs 0 = some c ∧ s.dev.sec.rsaReady = true) ∧
  (∃ (s : State) (ch : Fin 6) (msg : List Byte) (x : Bool) (v : Nat) (c : List Byte), Asks s ch msg 0x83 x ∧ Connected s ch msg v ∧ (msg.getD 2 0).toNat = 0 ∧ 36 ≤ msg.length ∧ mfind s.dev.sec.certs 0 = some c ∧ s.dev.sec.rsaReady = false) ∧
  (∃ (s : State) (ch : Fin 6) (msg : List Byte) (x : Bool) (v : Nat) (i : Nat) (bs : List Byte), Asks s ch msg 0xE0 x ∧ (v = 0x12 ∨ v = 0x13) ∧ (msg.getD 0 0).toNat = v ∧ s.dev.spdm ch = { version := true, inUse := v, capabilities := true, algorithms := true } ∧ wantsSignature msg = false ∧ i = (msg.getD 3 0).toNat ∧ (i ≤ 11 ∨ i = 255) ∧ bs = ((measured i).map (s.begin.measurementBlock s.mem)).flatten) ∧
  (∃ (s : State) (ch : Fin 6) (msg : List Byte) (x : Bool) (v : Nat) (i : Nat) (bs : List Byte), Asks s ch msg 0xE0 x ∧ Connected s ch msg v ∧ wantsSignature msg = true ∧ i = (msg.getD 3 0).toNat ∧ (i ≤ 11 ∨ i = 255) ∧ bs = ((measured i).map (s.begin.measurementBlock s.mem)).flatten ∧ (msg.getD 36 0).toNat % 16 = 0 ∧ 37 ≤ msg.length ∧ s.dev.sec.rsaReady = true) ∧
  (∃ (s : State) (ch : Fin 6) (msg : List Byte) (x : Bool) (v : Nat) (i : Nat), Asks s ch msg 0xE4 x ∧ Connected s ch msg v ∧ (msg.getD 3 0).toNat = 0 ∧ 138 ≤ msg.length ∧ s.dev.sec.rsaReady = true ∧ s.dev.freeSession = some i) ∧
  (∃ (s : State) (ch : Fin 6) (msg : List Byte) (x : Bool) (v : Nat), Asks s ch msg 0xE4 x ∧ Connected s ch msg v ∧ (msg.getD 3 0).toNat = 0 ∧ 138 ≤ msg.length ∧ s.dev.sec.rsaReady = true ∧ s.dev.freeSession = none) ∧
  (∃ (s : State) (ch : Fin 6) (msg : List Byte) (x : Bool) (v : Nat) (z : Session), Asks s ch msg 0xE5 x ∧ Connected s ch msg v ∧ s.dev.sessionOf ch false = some z) ∧
  (∃ (s : State) (ch : Fin 6) (msg : List Byte) (x : Bool) (v : Nat) (z : Session), Asks s ch msg 0xEC x ∧ Connected s ch msg v ∧ s.dev.sessionOf ch true = some z) :=
  ⟨⟨st (mailed 1 (bytesOf [16, 132, 0, 0]) id), 1, bytesOf [16, 132, 0, 0], false, by unfold Asks; decide +kernel⟩,
  ⟨st (obsidian 5 (fun x => { x with spdm := [(5, { version := true })] })), 5, bytesOf [19, 225, 0, 0], false, 0x13, by unfold Asks; decide +kernel⟩,
  ⟨st (obsidian 5 (fun x => { x with spdm := [(5, { version := true, inUse := 0x13, capabilities := true })] })), 5, (bytesOf [19, 227, 0, 0, 32, 0, 1, 2, 64, 0, 0, 0, 4, 0, 0, 0] ++ List.replicate 16 0), false, 0x13, (bytesOf [1, 2] ++ toLE 4 8 ++ toLE 4 0x40 ++ toLE 4 4 ++ bytesOf (List.replicate 16 0)), by unfold Asks; decide +kernel⟩,
  ⟨st (mailed 4 (bytesOf [19, 129, 0, 0]) (fun x => { x with certs := [(0, bytesOf [1, 2])] })), 4, bytesOf [19, 129, 0, 0], false, 0x13, by unfold Asks Connected; decide +kernel⟩,
  ⟨st (obsidian 5 (fun x => { x with certs := [(0, bytesOf [1, 2, 3, 4, 5])] })), 5, bytesOf [19, 130, 0, 0, 1, 0, 3, 0], false, 0x13, 1, 3, bytesOf [1, 2, 3, 4, 5], by unfold Asks Connected; decide +kernel⟩,
  ⟨st (obsidian 5 (fun x => { x with mldsaReady := true })), 5, bytesOf [19, 238, 1, 0, 7], false, 0x13, 1, by unfold Asks Connected; decide +kernel⟩,
  ⟨st (obsidian 5 id), 5, bytesOf [19, 238, 1, 0, 7], false, 0x13, 1, by unfold Asks Connected; decide +kernel⟩,
  ⟨st (obsidian 5 (fun x => { x with certs := [(0, bytesOf [1, 2])], rsaReady := true })), 5, (bytesOf [19, 131, 0, 0] ++ List.replicate 40 0), false, 0x13, bytesOf [1, 2], by unfold Asks Connected; decide +kernel⟩,
  ⟨st (obsidian 5 (fun x => { x with certs := [(0, bytesOf [1, 2])] })), 5, (bytesOf [19, 131, 0, 0] ++ List.replicate 40 0), false, 0x13, bytesOf [1, 2], by unfold Asks Connected; decide +kernel⟩,
  ⟨st (obsidian 5 id), 5, (bytesOf [19, 224, 0, 11] ++ List.replicate 8 0), false, 0x13, 11, (((measured 11).map ((st (obsidian 5 id)).begin.measurementBlock [])).flatten), by unfold Asks; decide +kernel⟩,
  ⟨st (obsidian 5 (fun x => { x with rsaReady := true })), 5, (bytesOf [19, 224, 1, 10] ++ List.replicate 41 0), false, 0x13, 10, (((measured 10).map ((st (obsidian 5 (fun x => { x with rsaReady := true }))).begin.measurementBlock [])).flatten), by unfold Asks Connected; decide +kernel⟩,
  ⟨st (mailed 1 ((bytesOf [19, 228, 0, 0] ++ List.replicate 134 0)) (fun x => { x with rsaReady := true, certs := [(0, bytesOf [1, 2])] })), 1, (bytesOf [19, 228, 0, 0] ++ List.replicate 134 0), false, 0x13, 0, by unfold Asks Connected; decide +kernel⟩,
  ⟨st (obsidian 5 (fun x => { x with rsaReady := true, sessions := (List.range 8).map (fun i => session i 1 true) })), 5, (bytesOf [19, 228, 0, 0] ++ List.replicate 134 0), false, 0x13, by unfold Asks Connected; decide +kernel⟩,
  ⟨st (obsidian 5 (fun x => { x with sessions := [session 2 5 false] })), 5, (bytesOf [19, 229, 0, 0] ++ List.replicate 64 0), false, 0x13, session 2 5 false, by unfold Asks Connected; decide +kernel⟩,
  ⟨st (obsidian 5 (fun x => { x with sessions := [session 2 5 true, session 3 1 true] })), 5, bytesOf [19, 236, 0, 0], false, 0x13, session 2 5 true, by unfold Asks Connected; decide +kernel⟩⟩

theorem witness_WithoutIdentityFourRequestsAreAnswered :
  (∃ (s : State) (ch : Fin 6) (msg : List Byte) (x : Bool), Asks s ch msg 0x81 x ∧ pkgIdOk s.dev.fuses.pkgIdA = false) ∧
  (∃ (s : State) (ch : Fin 6) (msg : List Byte) (x : Bool), Asks s ch msg 0x82 x ∧ pkgIdOk s.dev.fuses.pkgIdA = false) ∧
  (∃ (s : State) (ch : Fin 6) (msg : List Byte) (x : Bool), Asks s ch msg 0xEE x ∧ pkgIdOk s.dev.fuses.pkgIdA = false) ∧
  (∃ (s : State) (ch : Fin 6) (msg : List Byte) (x : Bool), Asks s ch msg 0x83 x ∧ pkgIdOk s.dev.fuses.pkgIdA = false) ∧
  (∃ (s : State) (ch : Fin 6) (msg : List Byte) (x : Bool), Asks s ch msg 0xE4 x ∧ pkgIdOk s.dev.fuses.pkgIdA = false) ∧
  (∃ (s : State) (ch : Fin 6) (msg : List Byte) (x : Bool), Asks s ch msg 0xE5 x ∧ pkgIdOk s.dev.fuses.pkgIdA = false) ∧
  (∃ (s : State) (ch : Fin 6) (msg : List Byte) (x : Bool), Asks s ch msg 0xEC x ∧ pkgIdOk s.dev.fuses.pkgIdA = false) ∧
  (∃ (s : State) (ch : Fin 6) (msg : List Byte) (x : Bool), Asks s ch msg 0xE0 x ∧ pkgIdOk s.dev.fuses.pkgIdA = false ∧ wantsSignature msg = true) ∧
  (∃ (s : State) (ch : Fin 6) (n : BitVec 256), s.dev.sec.state = .running ∧ s.dev.lost 4 = false ∧ pkgIdOk s.dev.fuses.pkgIdA = false ∧ (ch.val = 5 ∨ ((s.dev.mailbox ch).want = 36 ∧ (s.dev.mailbox ch).writing = false ∧ (s.dev.mailbox ch).request = quoteRequest n))) ∧
  (∃ (s : State), pkgIdOk s.dev.fuses.pkgIdA = false) ∧
  (∃ (s : State) (ch : Fin 6) (msg : List Byte) (x : Bool), Asks s ch msg 0x84 x ∧ pkgIdOk s.dev.fuses.pkgIdA = false) ∧
  (∃ (s : State) (ch : Fin 6) (msg : List Byte) (x : Bool) (v : Nat), Asks s ch msg 0xE1 x ∧ pkgIdOk s.dev.fuses.pkgIdA = false ∧ (v = 0x12 ∨ v = 0x13) ∧ (msg.getD 0 0).toNat = v ∧ (s.dev.spdm ch).version = true) ∧
  (∃ (s : State) (ch : Fin 6) (msg : List Byte) (x : Bool) (v : Nat), Asks s ch msg 0xE3 x ∧ pkgIdOk s.dev.fuses.pkgIdA = false ∧ 32 ≤ msg.length ∧ (v = 0x12 ∨ v = 0x13) ∧ (msg.getD 0 0).toNat = v ∧ (s.dev.spdm ch).version = true ∧ (s.dev.spdm ch).capabilities = true ∧ (s.dev.spdm ch).inUse = v) ∧
  (∃ (s : State) (ch : Fin 6) (msg : List Byte) (x : Bool) (v : Nat), Asks s ch msg 0xE0 x ∧ pkgIdOk s.dev.fuses.pkgIdA = false ∧ (v = 0x12 ∨ v = 0x13) ∧ (msg.getD 0 0).toNat = v ∧ s.dev.spdm ch = { version := true, inUse := v, capabilities := true, algorithms := true } ∧ wantsSignature msg = false ∧ ((msg.getD 3 0).toNat ≤ 11 ∨ (msg.getD 3 0).toNat = 255)) :=
  ⟨⟨st (anonymous 5), 5, bytesOf [19, 129, 0, 0], false, by unfold Asks; decide +kernel⟩,
  ⟨st (anonymous 5), 5, bytesOf [19, 130, 0, 0], false, by unfold Asks; decide +kernel⟩,
  ⟨st (anonymous 5), 5, bytesOf [19, 238, 0, 0], false, by unfold Asks; decide +kernel⟩,
  ⟨st (anonymous 5), 5, bytesOf [19, 131, 0, 0], false, by unfold Asks; decide +kernel⟩,
  ⟨st (anonymous 5), 5, bytesOf [19, 228, 0, 0], false, by unfold Asks; decide +kernel⟩,
  ⟨st (anonymous 5), 5, bytesOf [19, 229, 0, 0], false, by unfold Asks; decide +kernel⟩,
  ⟨st (anonymous 5), 5, bytesOf [19, 236, 0, 0], false, by unfold Asks; decide +kernel⟩,
  ⟨st (anonymous 5), 5, bytesOf [19, 224, 1, 0], false, by unfold Asks; decide +kernel⟩,
  ⟨st (anonymous 5), 5, 77, by decide +kernel⟩,
  ⟨st (anonymous 5), by decide +kernel⟩,
  ⟨st (anonymous 5), 5, bytesOf [16, 132, 0, 0], false, by unfold Asks; decide +kernel⟩,
  ⟨st (anonymous 5), 5, bytesOf [19, 225, 0, 0], false, 0x13, by unfold Asks; decide +kernel⟩,
  ⟨st (anonymous 5), 5, (bytesOf [19, 227, 0, 0, 32, 0, 1, 2, 64, 0, 0, 0, 4, 0, 0, 0] ++ List.replicate 16 0), false, 0x13, by unfold Asks; decide +kernel⟩,
  ⟨st (anonymous 5), 5, (bytesOf [19, 224, 0, 11] ++ List.replicate 8 0), false, 0x13, by unfold Asks; decide +kernel⟩⟩

theorem witness_QuotesMailboxesAndLinkKeys :
  (∃ (s : State) (ch : Fin 6) (n : BitVec 256) (dg : List Byte), s.dev.sec.state = .running ∧ s.dev.lost 4 = false ∧ pkgIdOk s.dev.fuses.pkgIdA = true ∧ (ch.val = 5 ∨ ((s.dev.mailbox ch).want = 36 ∧ (s.dev.mailbox ch).writing = false ∧ (s.dev.mailbox ch).request = quoteRequest n)) ∧ dg = sha512 (toLE 32 n.toNat ++ ((List.range 11).map (fun i => s.begin.measurementDigest s.mem (i + 1))).flatten)) ∧
  (∃ (s : State), s.dev.sec.state = .running ∧ s.dev.lost 4 = false ∧ pkgIdOk s.dev.fuses.pkgIdA = false) ∧
  (∃ (s : State) (r : Requester) (m : Fin 5), Heard s r (Reg.secMboxCtrl m) (mboxWord s.dev m 1) ∧ mayMailbox r m = true ∧ s.dev.rf (Reg.secMboxCtrl m) 29 28 = 1) ∧
  (∃ (s : State) (r : Requester) (m : Fin 4), Heard s r (Reg.secMboxCtrl m) (mboxWord s.dev m 1) ∧ mayMailbox r m = true ∧ s.dev.rf (Reg.secMboxCtrl m) 29 28 ≠ 1 ∧ s.dev.rf (Reg.secMboxLen m) 15 0 ≠ 0) ∧
  (∃ (s : State) (r : Requester) (bs : List Byte), Heard s r (Reg.secMboxCtrl 4) (mboxWord s.dev 4 1) ∧ mayMailbox r 4 = true ∧ s.dev.rf (Reg.secMboxCtrl 4) 29 28 ≠ 1 ∧ bs = peekN s.mem s.begin (sramBase + s.dev.mboxReq 4) (s.dev.rf (Reg.secMboxLen 4) 15 0) ∧ bs ≠ [] ∧ s.dev.mboxReq 4 + bs.length ≤ 0x800000 ∧ ((bs.headD 0).toNat = 5 ∨ (bs.headD 0).toNat = 6 ∨ ((bs.headD 0).toNat = 0x80 ∧ bs.length = 36))) ∧
  (∃ (s : State) (r : Requester) (m : Fin 5), Heard s r (Reg.secMboxCtrl m) (mboxWord s.dev m 2) ∧ mayMailbox r m = true ∧ s.dev.rf (Reg.secMboxCtrl m) 29 28 = 1 ∧ (s.dev.mailbox m).writing = false) ∧
  (∃ (s : State) (r : Requester) (m : Fin 5), Heard s r (Reg.secMboxCtrl m) (mboxWord s.dev m 2) ∧ mayMailbox r m = true ∧ s.dev.rf (Reg.secMboxCtrl m) 29 28 = 1 ∧ (s.dev.mailbox m).writing = true) ∧
  (∃ (s : State) (k : Fin 8) (p : Fin 8) (rec : BitVec 768) (z : Session) (key : LinkKey), s.dev.sec.state = .running ∧ s.dev.lost 4 = false ∧ s.dev.sec.sessions.find? (fun x => x.number == k.val) = some z ∧ z.ready = true ∧ z.mayKey = true ∧ fb rec 7 0 = p.val ∧ fb rec 31 8 = 0 ∧ fb rec 767 608 = 0 ∧ s.dev.lost (portDie p) = false ∧ key = { keyTx := BitVec.ofNat 256 (fb rec 287 32), saltTx := BitVec.ofNat 32 (fb rec 319 288), keyRx := BitVec.ofNat 256 (fb rec 575 320), saltRx := BitVec.ofNat 32 (fb rec 607 576) }) :=
  ⟨⟨st (withRegs (obsidian 5 (fun x => { x with mailboxes := [(1, { want := 36, request := quoteRequest 77 })] })) [(Reg.secMboxLen 1, 0x20000000)]), 1, 77, (let s := st (withRegs (obsidian 5 (fun x => { x with mailboxes := [(1, { want := 36, request := quoteRequest 77 })] })) [(Reg.secMboxLen 1, 0x20000000)]); sha512 (toLE 32 (77#256).toNat ++ ((List.range 11).map (fun i => s.begin.measurementDigest s.mem (i + 1))).flatten)), by decide +kernel, by decide +kernel, by decide +kernel, by decide +kernel, rfl⟩,
  ⟨st (anonymous 5), by decide +kernel⟩,
  ⟨st (withRegs (obsidian 5 id) [(Reg.secMboxCtrl 1, 0x10000000)]), .host 1, 1, by unfold Heard; decide +kernel⟩,
  ⟨st (withRegs (obsidian 5 id) [(Reg.secMboxLen 1, 0x20000024), (Reg.secMboxReqLo 1, 0x5000)]), .host 1, 1, by unfold Heard; decide +kernel⟩,
  ⟨(let s := stm (obsidian 5 id) (sramBase + 0x100) (bytesOf [5, 0x10, 0x84, 0, 0]); { s with dev := withRegs s.dev [(Reg.secMboxLen 4, 0x20000005), (Reg.secMboxReqLo 4, 0x100)] }), .mgmt, bytesOf [5, 0x10, 0x84, 0, 0], by unfold Heard; decide +kernel⟩,
  ⟨st { withRegs (obsidian 5 (fun x => { x with mailboxes := [(1, { want := 36 })] })) [(Reg.secMboxCtrl 1, 0x10000000)] with tags := [{ tag9 .mailbox 0x10 1 0 with ctx := 0 }] }, .host 1, 1, by unfold Heard; decide +kernel⟩,
  ⟨st (withRegs (obsidian 5 (fun x => { x with mailboxes := [(1, { want := 36, writing := true })] })) [(Reg.secMboxCtrl 1, 0x10000000)]), .host 1, 1, by unfold Heard; decide +kernel⟩,
  ⟨st { obsidian 5 (fun x => { x with sessions := [session 2 5 true] }) with ports := [(3, { state := .active })] }, 2, 3, BitVec.ofNat 768 (3 + 77 * 2 ^ 32 + 5 * 2 ^ 288 + 78 * 2 ^ 320 + 6 * 2 ^ 576), session 2 5 true, { keyTx := 77, saltTx := 5, keyRx := 78, saltRx := 6 }, by decide +kernel⟩⟩

theorem witness_TapInstructionsAreSelected :
  (∃ (s : State), s.dev.sec.testLock = true) ∧
  (∃ (s : State), s.dev.sec.testLock = false) ∧
  (∃ (i : Fin 6), i ≠ 4) :=
  ⟨⟨st up, by decide +kernel⟩,
  ⟨st { up with sec := { state := .running, testLock := false } }, by decide +kernel⟩,
  ⟨2, by decide +kernel⟩⟩

theorem witness_CellsAndHeadersAreReadAsBuilt :
  (∃ (seq : Nat) (ack : Nat) (cs : Nat) (cc : Nat), seq < 2 ^ 16 ∧ ack < 2 ^ 16 ∧ cs < 2 ^ 12 ∧ cc < 2 ^ 4) ∧
  (∃ (opc : Nat) (cls : Nat) (tag : Nat) (st : Nat) (ctx : Nat) (gen : Nat) (len : Nat) (grant : Nat) (addr : Nat) (bs : List Byte) (k : HPacket), opc < 64 ∧ cls < 4 ∧ tag < 4096 ∧ st < 16 ∧ ctx < 64 ∧ gen < 256 ∧ len < 512 ∧ grant < 4 ∧ addr < 2 ^ 64 ∧ k = { hdr := hpHdr opc cls tag st ctx gen len grant addr, data := bs }) :=
  ⟨⟨65535, 4660, 4095, 15, by decide +kernel⟩,
  ⟨63, 3, 4095, 15, 63, 255, 511, 3, 0xFFFFFFFFFFFFFFFF, [1], { hdr := hpHdr 63 3 4095 15 63 255 511 3 0xFFFFFFFFFFFFFFFF, data := [1] }, by decide +kernel⟩⟩

theorem witness_CodesConvertToThemselves :
  (∃ (f : Fmt) (c : Nat), f ∈ [fp32, bf16, fp16, e4m3, e5m2, e2m1] ∧ c < 2 ^ f.width ∧ f.decode c ≠ .nan) ∧
  (∃ (sg : Bool) (w : Nat) (n : Nat) (c : Nat), intOf n = some (sg, w) ∧ c < 2 ^ w) :=
  ⟨⟨e4m3, 0x7E, by decide +kernel⟩,
  ⟨true, 8, 6, 0x80, by decide +kernel⟩⟩

theorem witness_BlockScalesAreE8M0 :
  (∃ (c : Nat), c < 255) ∧
  (∃ (c : Nat), c < 255) :=
  ⟨⟨254, by decide +kernel⟩,
  ⟨0, by decide +kernel⟩⟩

theorem witness_NonOwnersChangeNothingInAWindow :
  (∃ (s : State) (p : Fin 4) (a : BitVec 39), 0x100000 ≤ a.toNat ∧ a.toNat < 0x500000 ∧ s.dev.isOwner (.host p) (keyCtx a.toNat) = false ∧ s.dev.sec.testLock = true) :=
  ⟨st coh, 2, 0x110018, by decide +kernel⟩


/-! The spec's worked examples. -/

/-- Table 3.12: the code and the event of 60,000, 62,000 and 70,000 in E5M2 and FP16 under both INF_MODE settings. -/
theorem test_convert_table_3_12 :
    [60000, 62000, 70000].map (fun n => (convertF e5m2 false false .nearest (.ofInt n)).1) = [0x7B, 0x7B, 0x7B] ∧
    [60000, 62000, 70000].map (fun n => (convertF e5m2 true false .nearest (.ofInt n)).1) = [0x7B, 0x7C, 0x7C] ∧
    [60000, 62000, 70000].map (fun n => convertF fp16 false false .nearest (.ofInt n)) = [(0x7B53, .none), (0x7B92, .none), (0x7BFF, .over)] ∧
    [60000, 62000, 70000].map (fun n => convertF fp16 true false .nearest (.ofInt n)) = [(0x7B53, .none), (0x7B92, .none), (0x7C00, .over)] := by
  decide +kernel

/-- Chapter 3's E4M3 MX32 block: the FP32 values nearest -3.3, 0.0123, 0.00001 and 0.000005. -/
theorem test_forge_e4m3 :
    forge 3 (fun _ => .nearest) ([0xC0533333, 0x3C4985F0, 0x3727C5AC, 0x36A7C5AC].map fp32.decode) =
      (0x78, [(0xFD, .none), (0x3D, .none), (0x01, .sub), (0x00, .flush)]) := by decide +kernel

/-- Chapter 3, step 6: with amax 3.9 the element saturates at 448. -/
theorem test_forge_saturates :
    forge 3 (fun _ => .nearest) [fp32.decode 0xC079999A] = (0x78, [(0xFE, .over)]) := by decide +kernel

/-- Chapter 3's rescaling example: 92, -92 and 127, the last saturated. -/
theorem test_rescale_int8 :
    [53760, -133632, 100064].map (fun acc : Int => convertI true 8 (.ofInt (chanShift { mult := 2 ^ 30, wsum := -312, shift := 40 }
      (chanProduct 128 { mult := 2 ^ 30, wsum := -312, shift := 40 } acc)))) = [(92, .none), (256 - 92, .none), (127, .over)] := by decide +kernel

/-- Chapter 4's stochastic rounding of 1.28125 to E4M3. -/
theorem test_stochastic :
    (convertF e4m3 false true (.stochastic 0x3FFF) (.fin false 41 (-5))).1 = 0x3B ∧
    (convertF e4m3 false true (.stochastic 0x4000) (.fin false 41 (-5))).1 = 0x3A := by decide +kernel

/-- Chapter 2's block with one rounding: 1 + 2^-24 + 2^-24. -/
theorem test_block_rounds_once :
    writeFloat true 0 (dpuFloat [.fin false 1 0, .fin false 1 (-12), .fin false 1 (-12)] [.fin false 1 0, .fin false 1 (-12), .fin false 1 (-12)])
      = 0x3F800001 := by decide +kernel

/-- Chapter 9's element: words of the three contributions and the result of their sum divided by 3. -/
theorem test_reduction_example :
    [Val.fin false 3 0, .fin false 5 (-104), .fin true 3 0].map (quantise 1) = [some (3 * 2 ^ 103), some 3, some (-(3 * 2 ^ 103))] ∧
    gridResult 1 3 3 = 0x0C000000 ∧ gridResult 1 1 3 = 0x0CC00000 := by decide +kernel

/-- Chapter 2's restart from IDLE: in the ramp's first interval the array broadcasts 16 real blocks and no seventeenth. -/
theorem test_keeper_ramp :
    (({ state := .ramp, level := 8, issued := 15, config := 0x800F0801 } : Keeper).mayIssue = true) ∧
    (({ state := .ramp, level := 8, issued := 16, config := 0x800F0801 } : Keeper).mayIssue = false) := by decide +kernel

/-- Chapter 14's guarded write, step 4: the first half of RAS_RESET_CTRL alone starts nothing and waits for the second. -/
theorem test_guarded_first : ∃ t : State, exec (.guardedWriteFirst (.host 0) 0 0x6068 0x80000000) (st { hosted with admin := 1 }) = .next t ∧
    t.dev.ras.resets = [] ∧ (t.dev.req 0).pending = some (0x6068, 0x80000000) := ⟨_, rfl, by decide +kernel⟩

/-- Chapter 12's column 17 of T05: at N = 3 the third level is lasting, and its bucket goes. -/
theorem test_leaky_bucket :
    let d : Dev := { up with ras := { up.ras with buckets := [(bucketKey 0 (columnUnit 5 17), { age := 0, level := 2, clock := 0 })] } }
    d.lbLeak 0 = 349526 ∧ (d.charge 0 (columnUnit 5 17) false [] 5).2 = true ∧
      (up.charge 0 (columnUnit 5 17) false [] 5).2 = false := by decide +kernel

/-! Well-formedness: each check refuses. -/

theorem test_wf_hbmWrite : (Instr.hbmWrite 0 30 [1, 2, 3] 0).wf = false ∧ (Instr.hbmWrite 0 30 [1, 2] 0).wf = true ∧
    (Instr.hbmWrite 0 30 [] 0).wf = false := by decide
theorem test_wf_residue : (Instr.residueMismatch 0 0 []).wf = false ∧ (Instr.residueReplayFail 0 0 []).wf = false ∧
    (Instr.residueMismatch 0 0 [(0, 0)]).wf = true := by decide
theorem test_wf_bundle : (Instr.bundleReceived []).wf = false ∧ (Instr.unlockRecord 0 []).wf = false := by decide
theorem test_wf_packet : (Instr.fabWr ⟨2 ^ 34, []⟩).wf = false ∧ (Instr.fabWr ⟨2 ^ 34, [7]⟩).wf = true ∧
    (Instr.packetRoute (some 0) ⟨2 ^ 34, []⟩).wf = false := by decide
theorem test_wf_pequa : (Instr.dwr 0 ⟨2 ^ 81, []⟩).wf = false ∧ (Instr.dwr 0 ⟨2 ^ 81, [7]⟩).wf = true := by decide

end Sys2Proof.Tests
end

section
/-! Number formats (chapter 3): how an E8M0 block scale acts on a value. -/

namespace Sys2Proof.Machine

@[simp] theorem Val.scale_fin (s : Bool) (m : Nat) (e k : Int) : (Val.fin s m e).scale k = .fin s m (e + k) := rfl
@[simp] theorem Val.scale_inf (s : Bool) (k : Int) : (Val.inf s).scale k = .inf s := rfl
@[simp] theorem Val.scale_nan (k : Int) : Val.nan.scale k = .nan := rfl

/-- The one code of E8M0 that is no power of two (R82, R83). -/
@[simp] theorem underBlockScale_255 (v : Val) : underBlockScale v 255 = .nan := if_pos rfl

/-- Below 0xFF the code is an exponent with bias 127 (R82). -/
theorem underBlockScale_of_lt {c : Nat} (hc : c < 255) (v : Val) : underBlockScale v c = v.scale ((c : Int) - 127) :=
  if_neg hc.ne

/-- Settles O59, by the two kinds of code: below 0xFF the scale adds to the exponent of a finite value and keeps an infinity and NaN
(R82, R88), and 0xFF makes every value NaN (R83). -/
theorem blockScalesAreE8M0 : Obligations.BlockScalesAreE8M0 := by
  refine ⟨fun s m e c hc => ?finite, underBlockScale_255, fun s c hc => ⟨?infinity, ?nan⟩⟩
  case finite => rw [underBlockScale_of_lt hc, Val.scale_fin]
  case infinity => rw [underBlockScale_of_lt hc, Val.scale_inf]
  case nan => rw [underBlockScale_of_lt hc, Val.scale_nan]

end Sys2Proof.Machine
end

section
/-! Cairn slots (R257, R262, R265): a slot that ends without a record, and CMD CANCEL on an ARMED slot and on any other. -/

namespace Sys2Proof.Machine

open Sys2Proof.Claims (Heard Ends)

/-- A device without what a cancelled action takes along: a context's pending switch and the filed strata action. -/
def Dev.sansActions (d : Dev) : Dev := { d with ctxs := [], strata := {} }

theorem sansActions_fields {d e : Dev} (h : d.sansActions = e.sansActions) :
    d.cairns = e.cairns ∧ d.counters = e.counters ∧ d.stores = e.stores ∧ d.wipes = e.wipes := by
  simp only [Dev.sansActions, Dev.mk.injEq] at h
  simp only [h, and_self]

/-- A slot that ends with a result of no record. -/
def Cairn.ended (x : Cairn) (st : CairnState) (r : Nat) : Cairn := { x with state := st, result := BitVec.ofNat 4 r, late := false }

/-- A result without a record ends the slot and changes nothing else (R265). -/
theorem cairnSet_of_unrecorded (d : Dev) (c n : Nat) (st : CairnState) {r : Nat} (hr : alwaysRecords r = false) :
    d.cairnSet c n st r false = d.setCairn c n ((d.cairn c n).ended st r) := by
  have hcount : (r == 3 || r == 4) = false := by
    simp only [alwaysRecords, Bool.or_eq_false_iff] at hr ⊢
    tauto
  simp [Dev.cairnSet, Cairn.ended, hr, hcount, Dev.bumpIf]

/-- An ARMED slot is cancelled: the slot ends, and only what its action had filed goes with it (R154, R162). -/
theorem cairnCancel_of_armed (d : Dev) (c n : Nat) {r : Nat} (hr : alwaysRecords r = false) (h : (d.cairn c n).state = .armed) :
    (d.cairnCancel c n r).sansActions = (d.setCairn c n ((d.cairn c n).ended .cancelled r)).sansActions := by
  unfold Dev.cairnCancel
  extract_lets x d' act ctx d'' strata
  have harmed : ¬ (x.state != .armed) = true := by simp [x, h]
  rw [if_neg harmed]
  have hswitch : d''.sansActions = d'.sansActions := by
    unfold d''
    split
    · split
      · split <;> rfl
      · rfl
    · rfl
  calc _ = d''.sansActions := by split <;> rfl
    _ = d'.sansActions := hswitch
    _ = _ := congrArg Dev.sansActions (cairnSet_of_unrecorded d c n .cancelled hr)

/-- CMD CANCEL is written to an ARMED slot: it is cancelled with RESULT CANCELLED. -/
theorem cairnCtrlWrite_cancel_of_armed (m : Mem) (d : Dev) (c n : Nat) (v : BitVec 32) (hv : fb v 31 30 = 2)
    (h : (d.cairn c n).state = .armed) :
    d.cairnCtrlWrite m c n v = (d.setRf (Reg.ctxCairnCtrl c n) 31 30 2).cairnCancel c n 5 := by
  simp [Dev.cairnCtrlWrite, hv, h]

/-- CMD CANCEL is written to a slot that is not ARMED: only the fields that the word carries are taken. -/
theorem cairnCtrlWrite_cancel_of_not_armed (m : Mem) (d : Dev) (c n : Nat) (v : BitVec 32) (hv : fb v 31 30 = 2)
    (h : (d.cairn c n).state ≠ .armed) :
    d.cairnCtrlWrite m c n v = (d.putReg (Reg.ctxCairnCtrl c n) v).setCairn c n
      { d.cairn c n with action := BitVec.ofNat 8 (fb v 7 0), policy := v.getLsbD 8, evt := v.getLsbD 9 } := by
  simp [Dev.cairnCtrlWrite, hv, h]

/-- What a written CMD CANCEL can do: it changes its own slot, and whether and how that slot ends depends on its being ARMED. -/
theorem cairnCtrlWrite_cancel_cases (m : Mem) (d : Dev) (c n : Nat) (v : BitVec 32) (hv : fb v 31 30 = 2) :
    ∃ x : Cairn, (d.cairnCtrlWrite m c n v).cairns = mset d.cairns (64 * c + n) x ∧
      ((d.cairn c n).state = .armed → x.state = .cancelled ∧ x.result = 5) ∧
      ((d.cairn c n).state ≠ .armed → x.state = (d.cairn c n).state ∧ x.result = (d.cairn c n).result) ∧
      (d.cairnCtrlWrite m c n v).counters = d.counters ∧ (d.cairnCtrlWrite m c n v).stores = d.stores ∧
      (d.cairnCtrlWrite m c n v).wipes = d.wipes := by
  by_cases h : (d.cairn c n).state = .armed
  case pos =>
    have hcancel := cairnCancel_of_armed (d.setRf (Reg.ctxCairnCtrl c n) 31 30 2) c n (r := 5) rfl h
    obtain ⟨hcairns, hrest⟩ := sansActions_fields hcancel
    rw [cairnCtrlWrite_cancel_of_armed m d c n v hv h]
    exact ⟨_, hcairns, fun _ => ⟨rfl, rfl⟩, fun hn => absurd h hn, hrest⟩
  case neg =>
    rw [cairnCtrlWrite_cancel_of_not_armed m d c n v hv h]
    exact ⟨_, rfl, fun ha => absurd ha h, fun _ => ⟨rfl, rfl⟩, rfl, rfl, rfl⟩

/-- A slot of a device whose list has been written at that slot. -/
theorem cairn_of_cairns_mset {d : Dev} {l : Map Cairn} {c n : Nat} {x : Cairn} (h : d.cairns = mset l (64 * c + n) x) :
    d.cairn c n = x := by
  rw [Dev.cairn, h, mget_mset_same]

/-- Whether a context window may be written does not depend on what the running command has collected. -/
theorem mayWriteCtx_begin (s : State) (r : Requester) (c : Nat) : s.begin.mayWriteCtx r c = s.dev.mayWriteCtx r c := rfl

/-- A CAIRN_CANCEL that is heard and permitted writes a word whose CMD is CANCEL and is answered OK. -/
theorem exec_cairnCancel_accepted (s : State) (r : Requester) (c n : Fin 64)
    (hheard : Heard s r (Reg.ctxCairnCtrl c n) (BitVec.ofNat 32 (setFld (s.dev.reg (Reg.ctxCairnCtrl c n)).toNat 31 30 2)))
    (hmay : s.dev.mayWriteCtx r c = true) :
    ∃ v : BitVec 32, fb v 31 30 = 2 ∧
      exec (.cairnCancel r c n) s = .next (s.commit ((s.begin.cairnCtrlWrite s.mem c n v).answer r stOK)) := by
  obtain ⟨hask, hpend, hlost, hrsv⟩ := hheard
  have hcmd := fb_ofNat_setFld 32 _ 31 30 2 (s.dev.reg (Reg.ctxCairnCtrl c n)).isLt (by decide) (by decide)
  refine ⟨_, hcmd, ?_⟩
  rw [exec_cairnCancel, execCairnCancel]
  exact State.runReg_accepted s r _ _ _ _ hask hpend hlost hrsv ((mayWriteCtx_begin s r c).trans hmay)

/-- A command that writes one slot, stores nothing and is answered. -/
theorem ends_of_slot_written {i : Instr} {s : State} {d : Dev} {r : Requester} {st c n : Nat} {x : Cairn}
    (hexec : exec i s = .next (s.commit (d.answer r st))) (hcairns : d.cairns = mset s.dev.cairns (64 * c + n) x)
    (hcounters : d.counters = s.dev.counters) (hstores : d.stores = []) (hwipes : d.wipes = []) :
    Ends i s (fun u => u.dev.cairn c n = x ∧ (∀ j, j ≠ 64 * c + n → mfind u.dev.cairns j = mfind s.dev.cairns j) ∧
      u.mem = s.mem ∧ u.dev.counters = s.dev.counters) := by
  have hlist : (s.commit (d.answer r st)).dev.cairns = mset s.dev.cairns (64 * c + n) x := hcairns
  refine ⟨_, hexec, rfl, cairn_of_cairns_mset hlist, fun j hj => ?_, State.commit_mem s _ hstores hwipes, hcounters⟩
  rw [hlist, mfind_mset, if_neg hj.symm]

end Sys2Proof.Machine
end

section
/-! The tick edge (R246, R260) of a package where nothing is due: what it leaves as it was. -/

namespace Sys2Proof.Machine

/-- A device without what the time base and an event of the package touch at an edge; the count and the phase stay in. -/
def Dev.sansTick (d : Dev) : Dev :=
  { d with counters := [], hosts := [], tags := [], pkgEvents := {}, out := [], ports := [], bringUp := .off, pwr := {}, ras := {},
           lode := { count := d.lode.count, phase := d.lode.phase } }

theorem sansTick_fields {d e : Dev} (h : d.sansTick = e.sansTick) :
    d.cairns = e.cairns ∧ d.ctxs = e.ctxs ∧ d.lode.count = e.lode.count ∧ d.stores = e.stores ∧ d.wipes = e.wipes := by
  simp only [Dev.sansTick, Dev.mk.injEq, Lode.mk.injEq] at h
  simp only [h, and_self]

/-- What only an event of the package has touched. -/
theorem sansTick_of_sansEvents {d e : Dev} (h : d.sansEvents = e.sansEvents) (hctxs : d.ctxs = e.ctxs) : d.sansTick = e.sansTick := by
  simp only [Dev.sansEvents, Dev.mk.injEq] at h
  simp only [Dev.sansTick, h, hctxs]

/-- The package ring is no context's. -/
theorem ctxs_ringPut_package (d : Dev) (e : Event) : (d.ringPut 64 e).ctxs = d.ctxs := by
  simp only [Dev.ringPut]
  split
  · rfl
  · rw [Dev.hwr_ctxs]; rfl

/-- An event that concerns no context changes none. -/
theorem ctxs_event_package (d : Dev) (code sev d0 d1 unit : Nat) : (d.event [] code sev d0 d1 unit).ctxs = d.ctxs := by
  unfold Dev.event
  extract_lets bound pkg e d' c0
  split
  · exact ctxs_ringPut_package _ _
  · rfl

theorem event_package_sansTick (d : Dev) (code sev d0 d1 unit : Nat) : (d.event [] code sev d0 d1 unit).sansTick = d.sansTick :=
  sansTick_of_sansEvents (event_sansEvents d [] code sev d0 d1 unit) (ctxs_event_package d code sev d0 d1 unit)

theorem toHoldover_sansTick (d : Dev) : d.toHoldover.sansTick = d.sansTick := event_package_sansTick _ _ _ _ _ _

/-- The time base at an edge (R247, R249, R251, R253). -/
theorem edge_sansTick (d : Dev) : d.edge.sansTick = d.sansTick := by
  unfold Dev.edge
  extract_lets l l' d' d'' d'''
  have hclaim : d''.sansTick = d'.sansTick := by
    unfold d''
    split
    · exact toHoldover_sansTick d'
    · rfl
  calc _ = d'''.sansTick := by
        split
        · split <;> rfl
        · rfl
    _ = d''.sansTick := rfl
    _ = d'.sansTick := hclaim

theorem startDone_sansTick (d : Dev) : d.startDone.sansTick = d.sansTick := by
  unfold Dev.startDone
  extract_lets late
  split
  · exact event_package_sansTick _ _ _ _ _ _
  · rfl

/-- No slot that is not ARMED is taken (R260). -/
theorem takeCairns_of_none_armed (d : Dev) (m : Mem) (a b : Nat) (rebase : Bool) (h : ∀ p ∈ d.cairns, p.2.state ≠ .armed) :
    d.takeCairns m a b rebase = d := by
  have hdue : d.cairns.filter (fun x => x.2.state == .armed && (x.2.late || (a < x.2.lt.toNat && x.2.lt.toNat ≤ b))) = [] :=
    List.filter_eq_nil_iff.mpr (fun p hp => by simp [h p hp])
  simp only [Dev.takeCairns, hdue]
  rfl

theorem pipeTick_of_none_running (d : Dev) (m : Mem) (h : ∀ p ∈ d.ctxs, p.2.pipe.state ≠ .running) : d.pipeTick m = d := by
  have hrun : d.ctxs.filter (fun p => p.2.pipe.state == .running) = [] :=
    List.filter_eq_nil_iff.mpr (fun p hp => by simp [h p hp])
  rw [Dev.pipeTick, hrun]
  rfl

theorem logTick_of_none_known (d : Dev) (m : Mem) (h : ∀ p ∈ d.ctxs, p.2.log.known = false) : d.logTick m = d := by
  have hlog : d.ctxs.filter (fun p => p.2.log.known) = [] := List.filter_eq_nil_iff.mpr (fun p hp => by simp [h p hp])
  rw [Dev.logTick, hlog]
  rfl

/-- The count rises by one, and its phase starts anew (R246). -/
def Dev.nextCount (d : Dev) : Dev := { d with lode := { d.lode with count := d.lode.count + 1, phase := 0 } }

/-- An edge with no slot ARMED, no pipeline running and no log: the time base alone. -/
theorem tickEdge_of_idle (d : Dev) (m : Mem) (hup : d.bringUp ≠ .off) (hrebase : d.lode.rebase = none)
    (harmed : ∀ p ∈ d.cairns, p.2.state ≠ .armed) (hctx : ∀ p ∈ d.ctxs, p.2.pipe.state ≠ .running ∧ p.2.log.known = false) :
    (d.tickEdge m).sansTick = d.nextCount.sansTick := by
  have hoff : ¬ (d.bringUp == .off) = true := by simpa using hup
  obtain ⟨-, hctxs, -⟩ := sansTick_fields (edge_sansTick d.nextCount)
  have hctx' : ∀ p ∈ d.nextCount.edge.ctxs, p.2.pipe.state ≠ .running ∧ p.2.log.known = false := by rw [hctxs]; exact hctx
  have htake : d.nextCount.takeCairns m d.now d.nextCount.now false = d.nextCount := takeCairns_of_none_armed _ m _ _ _ harmed
  have htick : d.tickEdge m = d.nextCount.edge.startDone := by
    rw [Dev.tickEdge, if_neg hoff, hrebase]
    change (((d.nextCount.takeCairns m d.now d.nextCount.now false).edge.pipeTick m).logTick m).startDone = _
    rw [htake, pipeTick_of_none_running _ m (fun p hp => (hctx' p hp).1), logTick_of_none_known _ m (fun p hp => (hctx' p hp).2)]
  rw [htick, startDone_sansTick, edge_sansTick]

end Sys2Proof.Machine
end

section
/-! CMD CANCEL (R262) and the count of a slot it has cancelled. -/

namespace Sys2Proof.Machine

open Sys2Proof.Claims (Heard Ends)

/-- A heard CAIRN_CANCEL ends its slot when the slot is ARMED and is ignored otherwise. -/
theorem cairnCancel_ends (s : State) (r : Requester) (c n : Fin 64)
    (hheard : Heard s r (Reg.ctxCairnCtrl c n) (BitVec.ofNat 32 (setFld (s.dev.reg (Reg.ctxCairnCtrl c n)).toNat 31 30 2)))
    (hmay : s.dev.mayWriteCtx r c = true) :
    Ends (.cairnCancel r c n) s (fun u =>
      ((s.dev.cairn c n).state = .armed → (u.dev.cairn c n).state = .cancelled ∧ (u.dev.cairn c n).result = 5) ∧
      ((s.dev.cairn c n).state ≠ .armed → (u.dev.cairn c n).state = (s.dev.cairn c n).state ∧ (u.dev.cairn c n).result = (s.dev.cairn c n).result) ∧
      (∀ j, j ≠ 64 * c.val + n.val → mfind u.dev.cairns j = mfind s.dev.cairns j) ∧ u.mem = s.mem ∧ u.dev.counters = s.dev.counters) := by
  obtain ⟨v, hcmd, hexec⟩ := exec_cairnCancel_accepted s r c n hheard hmay
  obtain ⟨x, hcairns, harmed, hother, hcounters, hstores, hwipes⟩ := cairnCtrlWrite_cancel_cases s.mem s.begin c n v hcmd
  obtain ⟨u, hnext, hpending, hslot, hframe⟩ := ends_of_slot_written hexec hcairns hcounters hstores hwipes
  refine ⟨u, hnext, hpending, ?armed, ?notArmed, hframe⟩
  case armed => rw [hslot]; exact harmed
  case notArmed => rw [hslot]; exact hother

/-- A slot that is CANCELLED stays so at an edge, its count among them. -/
theorem lodestoneTick_keeps_cancelled (s : State) (c n : Fin 64) (x : Cairn) (hup : s.dev.bringUp ≠ .off)
    (hrebase : s.dev.lode.rebase = none) (hslots : s.dev.cairns = [(64 * c.val + n.val, x)]) (hx : x.state = .cancelled)
    (hctx : ∀ p, p ∈ s.dev.ctxs → p.2.pipe.state ≠ .running ∧ p.2.log.known = false) :
    Ends .lodestoneTick s (fun u => (u.dev.cairn c n).state = .cancelled ∧ u.dev.lode.count = s.dev.lode.count + 1 ∧ u.mem = s.mem) := by
  have hnone : ∀ p ∈ s.begin.cairns, p.2.state ≠ .armed := by
    simp [hslots, hx]
  obtain ⟨hcairns, -, hcount, hstores, hwipes⟩ := sansTick_fields (tickEdge_of_idle s.begin s.mem hup hrebase hnone hctx)
  refine ⟨_, State.run_eq s xLodestoneTick, rfl, ?slot, hcount, State.commit_mem s _ hstores hwipes⟩
  case slot =>
    have hslot : (s.begin.tickEdge s.mem).cairn c n = x := cairn_of_cairns_mset (l := []) (hcairns.trans hslots)
    exact hslot ▸ hx

/-- Settles O38: a heard CANCEL is followed through the write of the slot's CTRL word, ARMED or not, and at an edge no slot is due but
an ARMED one. -/
theorem cancelAppliesToAnArmedSlot : Obligations.CancelAppliesToAnArmedSlot :=
  ⟨cairnCancel_ends, lodestoneTick_keeps_cancelled⟩

end Sys2Proof.Machine
end

section
/-! Register fields beside a field that is written, and memory after a run of bytes is stored. -/

namespace Sys2Proof.Machine

/-- Bits below a field that is replaced stay. -/
theorem fld_setFld_below (v hi lo x hi' lo' : Nat) (h : hi' + 1 ≤ lo) : fld (setFld v hi lo x) hi' lo' = fld v hi' lo' := by
  rw [setFld_eq]
  refine Nat.eq_of_testBit_eq fun i => ?_
  simp only [fld, Nat.testBit_mod_two_pow, Nat.testBit_shiftRight, Nat.testBit_two_pow_mul_add _ (Nat.mod_lt v (Nat.two_pow_pos lo))]
  by_cases hi : i < hi' + 1 - lo'
  case pos =>
    have hbelow : lo' + i < lo := by omega
    simp [hbelow]
  case neg => simp [hi]

/-- The word of a register after one of its fields is written. -/
theorem toNat_reg_setRf (d : Dev) (k x : Nat) {hi lo : Nat} (hlo : lo ≤ hi + 1) (hhi : hi + 1 ≤ 32) :
    ((d.setRf k hi lo x).reg k).toNat = setFld (d.reg k).toNat hi lo x := by
  rw [Dev.setRf, Dev.setRegN, Dev.reg_setReg_same, BitVec.toNat_ofNat,
    Nat.mod_eq_of_lt (setFld_lt _ hi lo x 32 (d.reg k).isLt hlo hhi)]

theorem rf_setRf_same (d : Dev) (k x : Nat) {hi lo : Nat} (hlo : lo ≤ hi + 1) (hhi : hi + 1 ≤ 32) :
    (d.setRf k hi lo x).rf k hi lo = x % 2 ^ (hi + 1 - lo) := by
  rw [Dev.rf, fb, toNat_reg_setRf d k x hlo hhi, fld_setFld]

theorem rf_setRf_above (d : Dev) (k x : Nat) {hi lo hi' lo' : Nat} (hlo : lo ≤ hi + 1) (hhi : hi + 1 ≤ 32) (h : hi + 1 ≤ lo') :
    (d.setRf k hi lo x).rf k hi' lo' = d.rf k hi' lo' := by
  rw [Dev.rf, fb, toNat_reg_setRf d k x hlo hhi, fld_setFld_above _ _ _ _ _ _ hlo h]; rfl

theorem rf_setRf_below (d : Dev) (k x : Nat) {hi lo hi' lo' : Nat} (hlo : lo ≤ hi + 1) (hhi : hi + 1 ≤ 32) (h : hi' + 1 ≤ lo) :
    (d.setRf k hi lo x).rf k hi' lo' = d.rf k hi' lo' := by
  rw [Dev.rf, fb, toNat_reg_setRf d k x hlo hhi, fld_setFld_below _ _ _ _ _ _ h]; rfl

/-- A run of bytes is stored from its first byte on. -/
theorem pokeN_cons (d : Dev) (a : Nat) (b : Byte) (bs : List Byte) : d.pokeN a (b :: bs) = (d.poke a b).pokeN (a + 1) bs := by
  simp [Dev.pokeN, Dev.poke, cellsAt]

/-- What the running command sees after it has stored a run of bytes. -/
theorem peek_pokeN (m : Mem) (d : Dev) (a y : Nat) (bs : List Byte) :
    peek m (d.pokeN a bs) y = if a ≤ y ∧ y < a + bs.length then bs.getD (y - a) 0 else peek m d y := by
  induction bs generalizing d a with
  | nil => rw [if_neg (by simp)]; rfl
  | cons b bs ih =>
    rw [pokeN_cons, ih, peek_poke, List.length_cons]
    rcases lt_trichotomy a y with hlt | rfl | hgt
    · have hsub : y - a = (y - (a + 1)) + 1 := by omega
      rw [if_neg hlt.ne, hsub, List.getD_cons_succ]
      exact if_congr (by omega) rfl rfl
    · simp
    · rw [if_neg (by omega), if_neg hgt.ne', if_neg (by omega)]

/-- Before it has stored or wiped anything, a command sees memory as it was. -/
theorem peek_of_unwritten (s : State) {d : Dev} (hstores : d.stores = []) (hwipes : d.wipes = []) (a : Nat) :
    peek s.mem d a = s.read a := by
  rw [peek, hstores, hwipes]; rfl

end Sys2Proof.Machine
end

section
/-! The answer of a SEC mailbox (R445): where its bytes go, and what it leaves as it was. -/

namespace Sys2Proof.Machine

open Sys2Proof.Claims (MailboxGets)

/-- A device without what an answer touches: the mailboxes with their registers and buffers, the host ports, outputs and free values. -/
def Dev.sansAnswer (d : Dev) : Dev :=
  { d with regs := [], stores := [], hosts := [], tags := [], out := [], free := 0, sec := { d.sec with mailboxes := [] } }

/-- What an answer leaves of Obsidian: all but its mailboxes. -/
def Sec.SameButMailboxes (x y : Sec) : Prop := x.spdm = y.spdm ∧ x.certs = y.certs ∧ x.sessions = y.sessions ∧ x.keys = y.keys

theorem sansAnswer_fields {d e : Dev} (h : d.sansAnswer = e.sansAnswer) :
    d.sec.SameButMailboxes e.sec ∧ d.counters = e.counters ∧ d.tiles = e.tiles ∧ d.ctxs = e.ctxs ∧ d.strata = e.strata ∧
      d.ports = e.ports := by
  simp only [Dev.sansAnswer, Dev.mk.injEq, Sec.mk.injEq] at h
  simp only [Sec.SameButMailboxes, h, and_self]

theorem hostRequest_sansAnswer (d : Dev) (p : Nat) (k : HPacket) (t : Tag) : (d.hostRequest p k t).sansAnswer = d.sansAnswer := by
  have hsend : ∀ (e : Dev) (k : HPacket), (e.sendHost p k).sansAnswer = e.sansAnswer := fun e k => by
    unfold Dev.sendHost; split <;> rfl
  unfold Dev.hostRequest
  extract_lets wait
  split
  · rfl
  · split
    · rfl
    · exact hsend _ _

theorem mboxPut_sansAnswer (d : Dev) (m : Nat) : (d.mboxPut m).sansAnswer = d.sansAnswer := hostRequest_sansAnswer _ _ _ _

/-- A part of a response that is sent to a host changes neither Obsidian's state nor memory. -/
theorem mboxPut_keeps (d : Dev) (m : Nat) : (d.mboxPut m).sec = d.sec ∧ (d.mboxPut m).stores = d.stores ∧ (d.mboxPut m).wipes = d.wipes := by
  have h : (d.mboxPut m).sansEvents = d.sansEvents := hostRequest_sansEvents _ _ _ _
  simp only [Dev.sansEvents, Dev.mk.injEq] at h
  simp only [h, and_self]

theorem mboxDone_sansAnswer (d : Dev) (m : Nat) : (d.mboxDone m).sansAnswer = d.sansAnswer := by
  unfold Dev.mboxDone
  extract_lets x
  split <;> rfl

theorem mboxReply_sansAnswer (d : Dev) (m : Nat) (bs : List Byte) : (d.mboxReply m bs).sansAnswer = d.sansAnswer := by
  unfold Dev.mboxReply
  extract_lets x d'
  split
  · rfl
  · split
    · exact mboxPut_sansAnswer d' m
    · split
      · rfl
      · exact mboxDone_sansAnswer _ m

/-- A request that ends in an error: STATE is ERROR, ERR its code. -/
theorem mailboxError_ctrl (d : Dev) (m err : Nat) :
    (d.mailboxError m err).rf (Reg.secMboxCtrl m) 29 28 = 3 ∧ (d.mailboxError m err).rf (Reg.secMboxCtrl m) 21 14 = err % 2 ^ 8 := by
  unfold Dev.mailboxError
  constructor
  · exact (rf_setRf_above _ _ _ (by decide) (by decide) (by decide)).trans (rf_setRf_same _ _ _ (by decide) (by decide))
  · exact rf_setRf_same _ _ _ (by decide) (by decide)

/-- A response that stands in the buffer and is not abandoned: STATE is DONE, RSP_LEN its length. -/
theorem mboxDone_ctrl (d : Dev) (m : Nat) (h : (d.mailbox m).abandoned = false) :
    (d.mboxDone m).rf (Reg.secMboxCtrl m) 29 28 = 2 ∧
      (d.mboxDone m).rf (Reg.secMboxCtrl m) 13 0 = (d.mailbox m).response.length % 2 ^ 14 := by
  simp only [Dev.mboxDone, h]
  constructor
  · exact rf_setRf_same _ _ _ (by decide) (by decide)
  · exact (rf_setRf_below _ _ _ (by decide) (by decide) (by decide)).trans (rf_setRf_same _ _ _ (by decide) (by decide))

theorem mboxDone_stores (d : Dev) (m : Nat) : (d.mboxDone m).stores = d.stores ∧ (d.mboxDone m).wipes = d.wipes := by
  unfold Dev.mboxDone
  extract_lets x
  split <;> exact ⟨rfl, rfl⟩

/-- A mailbox that has its response. -/
def Dev.withResponse (d : Dev) (m : Nat) (bs : List Byte) : Dev :=
  d.setMailbox m { d.mailbox m with response := bs, sent := 0, writing := true }

@[simp] theorem mailbox_setMailbox_same (d : Dev) (m : Nat) (x : Mailbox) : (d.setMailbox m x).mailbox m = x := mget_mset_same _ _ _ _

/-- A response longer than RSP_MAX is the error LEN. -/
theorem mboxReply_of_long {d : Dev} {m : Nat} {bs : List Byte} (h : d.rf (Reg.secMboxLen m) 31 16 < bs.length) :
    d.mboxReply m bs = d.mailboxError m 2 := if_pos h

theorem mboxReply_of_host {d : Dev} {m : Nat} {bs : List Byte} (h : bs.length ≤ d.rf (Reg.secMboxLen m) 31 16) (hm : m < 4) :
    d.mboxReply m bs = (d.withResponse m bs).mboxPut m := (if_neg h.not_gt).trans (if_pos hm)

theorem mboxReply_of_sram {d : Dev} {bs : List Byte} (h : bs.length ≤ d.rf (Reg.secMboxLen 4) 31 16)
    (hin : d.mboxRsp 4 + bs.length ≤ 0x800000) :
    d.mboxReply 4 bs = ((d.withResponse 4 bs).pokeN (sramBase + d.mboxRsp 4) bs).mboxDone 4 := by
  have hin' : ¬ (!inSram (d.mboxRsp 4) bs.length) = true := by simpa [inSram] using hin
  exact (if_neg h.not_gt).trans ((if_neg (by decide)).trans (if_neg hin'))

/-- The response of context 0's mailbox, not abandoned, is DONE with its length. -/
theorem mboxReply_sram_ctrl {d : Dev} {bs : List Byte} (h : bs.length ≤ d.rf (Reg.secMboxLen 4) 31 16)
    (hin : d.mboxRsp 4 + bs.length ≤ 0x800000) (habandoned : (d.mailbox 4).abandoned = false) :
    (d.mboxReply 4 bs).rf (Reg.secMboxCtrl 4) 29 28 = 2 ∧ (d.mboxReply 4 bs).rf (Reg.secMboxCtrl 4) 13 0 = bs.length % 2 ^ 14 := by
  have hbox : ((d.withResponse 4 bs).pokeN (sramBase + d.mboxRsp 4) bs).mailbox 4 =
      { d.mailbox 4 with response := bs, sent := 0, writing := true } := mailbox_setMailbox_same d 4 _
  have hctrl := mboxDone_ctrl ((d.withResponse 4 bs).pokeN (sramBase + d.mboxRsp 4) bs) 4 (by rw [hbox]; exact habandoned)
  rw [hbox] at hctrl
  rw [mboxReply_of_sram h hin]
  exact hctrl

/-- The response of context 0's mailbox stands in its buffer, and the rest of memory is as it was. -/
theorem read_commit_mboxReply_sram (s : State) {d : Dev} {bs : List Byte} (h : bs.length ≤ d.rf (Reg.secMboxLen 4) 31 16)
    (hin : d.mboxRsp 4 + bs.length ≤ 0x800000) (hstores : d.stores = []) (hwipes : d.wipes = []) (y : Nat) :
    (s.commit (d.mboxReply 4 bs)).read y = if sramBase + d.mboxRsp 4 ≤ y ∧ y < sramBase + d.mboxRsp 4 + bs.length
      then bs.getD (y - (sramBase + d.mboxRsp 4)) 0 else s.read y := by
  obtain ⟨hst, hwi⟩ := mboxDone_stores ((d.withResponse 4 bs).pokeN (sramBase + d.mboxRsp 4) bs) 4
  rw [mboxReply_of_sram h hin, State.read_commit, peek, hst, hwi, ← peek, peek_pokeN]
  exact if_congr Iff.rfl rfl (peek_of_unwritten s (d := d.withResponse 4 bs) hstores hwipes y)

/-- A command that answers mailbox `m`, its registers and buffers still as before, answers as R445 says. -/
theorem mailboxGets_of_mboxReply (s : State) (d : Dev) (m : Nat) (bs : List Byte) (hregs : d.regs = s.dev.regs)
    (hboxes : d.sec.mailboxes = s.dev.sec.mailboxes) (hstores : d.stores = []) (hwipes : d.wipes = []) :
    MailboxGets s (s.commit (d.mboxReply m bs)) m bs := by
  have hreg : ∀ k, d.reg k = s.dev.reg k := fun k => by rw [Dev.reg, hregs]; rfl
  have hlen : d.rf (Reg.secMboxLen m) 31 16 = s.dev.rf (Reg.secMboxLen m) 31 16 := by rw [Dev.rf, hreg]; rfl
  have hrsp : d.mboxRsp m = s.dev.mboxRsp m := by simp only [Dev.mboxRsp, Dev.reg64, hreg]
  have hbox : d.mailbox m = s.dev.mailbox m := by rw [Dev.mailbox, hboxes]; rfl
  rw [MailboxGets, ← hlen]
  refine ⟨fun hlong => ?long, fun hfits hm => ?host, fun hfits hm hin habandoned => ?sram⟩
  case long =>
    rw [mboxReply_of_long hlong]
    obtain ⟨hstate, herr⟩ := mailboxError_ctrl d m 2
    rw [Dev.rf_commit, Dev.rf_commit]
    exact ⟨hstate, herr, State.commit_mem s _ hstores hwipes⟩
  case host =>
    rw [mboxReply_of_host hfits hm]
    obtain ⟨hsec, hst, hwi⟩ := mboxPut_keeps (d.withResponse m bs) m
    refine ⟨?_, State.commit_mem s _ (hst.trans hstores) (hwi.trans hwipes)⟩
    rw [Dev.mailbox, State.commit_sec, hsec, ← hbox]
    exact mailbox_setMailbox_same d m _
  case sram =>
    subst hm
    rw [← hrsp] at hin ⊢
    rw [← hbox] at habandoned
    have hread := read_commit_mboxReply_sram s hfits hin hstores hwipes
    refine ⟨fun i hi => ?holds, fun y hy => ?frame, ?ctrl⟩
    case holds => rw [hread, if_pos (by omega), Nat.add_sub_cancel_left]
    case frame => rw [hread, if_neg (by omega)]
    case ctrl => rw [Dev.rf_commit, Dev.rf_commit]; exact mboxReply_sram_ctrl hfits hin habandoned

end Sys2Proof.Machine
end

section
/-! SPDM requests (R441, R442): when a request is barred, when it is admitted, and how its answer leaves the package. -/

namespace Sys2Proof.Machine

open Sys2Proof.Claims (Asks Says Replies SameSpdm Barred)

/-- A device without what a request changes before it is answered: connections, certificates, sessions and free values. -/
def Dev.sansSpdm (d : Dev) : Dev := { d with free := 0, sec := { d.sec with spdm := [], certs := [], sessions := [] } }

theorem sansSpdm_fields {d e : Dev} (h : d.sansSpdm = e.sansSpdm) :
    d.regs = e.regs ∧ d.sec.mailboxes = e.sec.mailboxes ∧ d.stores = e.stores ∧ d.wipes = e.wipes ∧ d.out = e.out := by
  simp only [Dev.sansSpdm, Dev.mk.injEq, Sec.mk.injEq] at h
  simp only [h, and_self]

theorem sansSpdm_frame {d e : Dev} (h : d.sansSpdm = e.sansSpdm) :
    d.sec.keys = e.sec.keys ∧ d.counters = e.counters ∧ d.tiles = e.tiles ∧ d.ctxs = e.ctxs ∧ d.strata = e.strata ∧ d.ports = e.ports := by
  simp only [Dev.sansSpdm, Dev.mk.injEq, Sec.mk.injEq] at h
  simp only [h, and_self]

/-! The answer. -/

/-- A secured answer draws a free value to be sealed with. -/
def Dev.drawIf (d : Dev) (x : Bool) : Dev := if x then d.takeFree.2 else d

theorem drawIf_keeps (d : Dev) (x : Bool) : (d.drawIf x).regs = d.regs ∧ (d.drawIf x).sec = d.sec ∧ (d.drawIf x).stores = d.stores ∧
    (d.drawIf x).wipes = d.wipes ∧ (d.drawIf x).sansAnswer = d.sansAnswer := by
  cases x <;> exact ⟨rfl, rfl, rfl, rfl, rfl⟩

/-- In a mailbox the answer stands behind its type byte, sealed if the request was secured. -/
theorem spdmAnswer_mailbox (d : Dev) {ch : Nat} (h : ch ≠ 5) (x : Bool) (bs : List Byte) :
    d.spdmAnswer ch x bs = ((d.bump Reg.secSpdmMsgs).drawIf x).mboxReply ch
      (if x then bytesOf [6] ++ Config.sealed (d.bump Reg.secSpdmMsgs).takeFree.1 bs else bytesOf [5] ++ bs) := by
  cases x with
  | false => simp only [Dev.spdmAnswer, if_neg h, Dev.drawIf, Bool.false_eq_true, if_false]
  | true => simp only [Dev.spdmAnswer, if_neg h, Dev.drawIf, if_true]

theorem spdmAnswer_sansAnswer (d : Dev) (ch : Nat) (x : Bool) (bs : List Byte) :
    (d.spdmAnswer ch x bs).sansAnswer = (d.bump Reg.secSpdmMsgs).sansAnswer := by
  by_cases h : ch = 5
  · subst h; rfl
  · obtain ⟨-, -, -, -, hdraw⟩ := drawIf_keeps (d.bump Reg.secSpdmMsgs) x
    rw [spdmAnswer_mailbox d h, mboxReply_sansAnswer, hdraw]

/-- An answer of a device that has changed only what requests change reaches its requester. -/
theorem says_of_spdmAnswer (s : State) {d : Dev} (hframe : d.sansSpdm = s.begin.sansSpdm) (ch : Nat) (x : Bool) (bs : List Byte) :
    Says s (s.commit (d.spdmAnswer ch x bs)) ch x bs := by
  obtain ⟨hregs, hboxes, hstores, hwipes, hout⟩ := sansSpdm_fields hframe
  refine ⟨fun hbus => ?bus, fun hbox => ⟨(d.bump Reg.secSpdmMsgs).takeFree.1, ?mailbox⟩⟩
  case bus =>
    subst hbus
    exact ⟨congrArg (· ++ [Out.spdm 5 bs]) hout, State.commit_mem s _ hstores hwipes⟩
  case mailbox =>
    obtain ⟨hr, hs, hst, hwi, -⟩ := drawIf_keeps (d.bump Reg.secSpdmMsgs) x
    rw [spdmAnswer_mailbox d (by omega)]
    exact mailboxGets_of_mboxReply s _ ch _ (hr.trans hregs) (by rw [hs]; exact hboxes) (hst.trans hstores) (hwi.trans hwipes)

/-- A command that answers a request keeps everything `Replies` names, and of Obsidian what the request has made of it. -/
theorem replies_of_spdmAnswer {i : Instr} {s : State} {ch : Fin 6} {x : Bool} {bs : List Byte} {P : Sec → Prop} {d : Dev}
    (hexec : exec i s = .next (s.commit (d.spdmAnswer ch x bs))) (hframe : d.sansSpdm = s.begin.sansSpdm)
    (hP : ∀ y : Sec, y.SameButMailboxes d.sec → P y) : Replies i s ch x bs P := by
  obtain ⟨hsec, hcounters, htiles, hctxs, hstrata, hports⟩ := sansAnswer_fields (spdmAnswer_sansAnswer d ch x bs)
  obtain ⟨hkeys, hcounters', htiles', hctxs', hstrata', hports'⟩ := sansSpdm_frame hframe
  refine ⟨_, hexec, rfl, says_of_spdmAnswer s hframe ch x bs, hP _ hsec, ?count, ?keys, htiles.trans htiles', hctxs.trans hctxs',
    hstrata.trans hstrata', hports.trans hports'⟩
  case count =>
    rw [Dev.count_commit, Dev.count, hcounters, ← Dev.count, Dev.count_bump_same, Dev.count, hcounters']; rfl
  case keys =>
    obtain ⟨-, -, -, hkept⟩ := hsec
    exact hkept.trans hkeys

/-! The request. -/

/-- Obsidian that runs with IA there answers (Table 15.7). -/
theorem obsidian_begin {s : State} (hrun : s.dev.sec.state = .running) (hlost : s.dev.lost 4 = false) : s.begin.obsidian = true := by
  simp [Dev.obsidian, hrun, lost_begin, hlost]

/-- The type byte of a message tells whether it is secured. -/
theorem mboxMessage_secured_eq_none {d : Dev} {m : Nat} {msg : List Byte} (h : d.mboxMessage m false = some msg) :
    d.mboxMessage m true = none := by
  simp only [Dev.mboxMessage] at h ⊢
  split at h
  · cases h
  · next hthere =>
    rw [if_neg hthere]
    cases hreq : (d.mailbox m).request with
    | nil => rfl
    | cons ty r =>
      have hplain : ty.toNat = 5 := by
        by_contra hne
        simp [hreq, hne] at h
      simp [hplain]

/-- A message is secured or plain, and the management bus carries no secured one. -/
theorem messageDue_secured_eq {d : Dev} {ch : Nat} {msg : List Byte} {x : Bool} (h : d.messageDue ch msg x = true) :
    d.messageDue ch msg true = x := by
  cases x with
  | true => exact h
  | false =>
    unfold Dev.messageDue at h ⊢
    split at h
    · next hbus => rw [if_pos hbus]; rfl
    · next hbox => rw [if_neg hbox, mboxMessage_secured_eq_none (beq_iff_eq.mp h)]; rfl

/-- A request that waits is taken as it came, secured or not, and nothing makes it ignored. -/
theorem taken_of_asks {s : State} {ch : Fin 6} {msg : List Byte} {code : Nat} {x : Bool} (h : Asks s ch msg code x) :
    s.begin.messageDue ch msg true = x ∧ (!s.begin.obsidian || (msg.getD 1 0).toNat != code || decide (msg.length < 4) ||
      !(x || s.begin.messageDue ch msg false)) = false := by
  obtain ⟨hrun, hlost, rfl, hlen, hdue⟩ := h
  have hbegin : s.begin.messageDue ch msg x = true := hdue
  have hobsidian := obsidian_begin hrun hlost
  have hthere : (x || s.begin.messageDue ch msg false) = true := by
    cases x with
    | false => exact hbegin
    | true => rfl
  exact ⟨messageDue_secured_eq hbegin, by simp [hobsidian, hthere, hlen]⟩

/-- Without a package identity a request that is not open is answered Unspecified, whatever the connection (R441). -/
theorem spdmRequest_of_barred {s : State} {ch : Fin 6} {msg : List Byte} {code : Nat} {x : Bool} (h : Asks s ch msg code x)
    (hid : pkgIdOk s.dev.fuses.pkgIdA = false) (f : Dev → Nat → Dev × List Byte) :
    s.begin.spdmRequest ch msg code false f = s.begin.spdmAnswer ch x (bytesOf [(msg.getD 0 0).toNat, 0x7F, 5, 0]) := by
  obtain ⟨hsecured, htaken⟩ := taken_of_asks h
  have hbarred : (!pkgIdOk s.begin.fuses.pkgIdA && !false) = true := by simp [hid]
  simp only [Dev.spdmRequest, hsecured, htaken, hbarred, if_true, Bool.false_eq_true, if_false]
  rfl

/-- The connection of channel `ch` has come far enough for a request `code` in version `ver` (R442). -/
def Dev.admitsRequest (d : Dev) (ch code ver : Nat) : Prop :=
  code = 0x84 ∨ ((ver = 0x12 ∨ ver = 0x13) ∧ (d.spdm ch).version = true ∧
    (code = 0xE1 ∨ ((d.spdm ch).capabilities = true ∧ (d.spdm ch).inUse = ver ∧ (code = 0xE3 ∨ (d.spdm ch).algorithms = true))))

/-- An open request that the connection admits is answered with what the request asks for. -/
theorem spdmRequest_of_admitted {s : State} {ch : Fin 6} {msg : List Byte} {code : Nat} {x : Bool} (h : Asks s ch msg code x)
    (hadmits : s.dev.admitsRequest ch code (msg.getD 0 0).toNat) (f : Dev → Nat → Dev × List Byte) :
    s.begin.spdmRequest ch msg code true f =
      (f s.begin (msg.getD 0 0).toNat).1.spdmAnswer ch x (f s.begin (msg.getD 0 0).toNat).2 := by
  obtain ⟨hsecured, htaken⟩ := taken_of_asks h
  have hspdm : s.begin.spdm ch = s.dev.spdm ch := rfl
  simp only [Dev.spdmRequest, hsecured, htaken, hspdm, Bool.false_eq_true, if_false, Bool.not_true, Bool.and_false]
  generalize (msg.getD 0 0).toNat = ver at hadmits ⊢
  have hsupported : (ver = 0x12 ∨ ver = 0x13) → (ver != 0x12 && ver != 0x13) = false := by rintro (rfl | rfl) <;> rfl
  rcases hadmits with rfl | ⟨hver, hversion, rfl | ⟨hcap, rfl, rfl | halg⟩⟩
  · simp
  · simp [hsupported hver, hversion]
  · simp [hsupported hver, hversion, hcap]
  · simp [Bool.and_assoc, hsupported hver, hversion, hcap, halg]

/-- A request that is not open answers Unspecified without a package identity and changes nothing of Obsidian's. -/
theorem replies_of_barred {i : Instr} {s : State} {ch : Fin 6} {msg : List Byte} {code : Nat} {x : Bool}
    {f : Dev → Nat → Dev × List Byte} (hasks : Asks s ch msg code x) (hid : pkgIdOk s.dev.fuses.pkgIdA = false)
    (hexec : exec i s = .next (s.commit (s.begin.spdmRequest ch msg code false f))) :
    Replies i s ch x (bytesOf [(msg.getD 0 0).toNat, 0x7F, 5, 0]) (SameSpdm s.dev.sec) := by
  rw [spdmRequest_of_barred hasks hid f] at hexec
  exact replies_of_spdmAnswer hexec rfl fun _ ⟨hspdm, hcerts, hsessions, _⟩ => ⟨hspdm, hcerts, hsessions⟩

/-- A command that is such a request, whatever its message, is barred. -/
theorem barred_of_spdmRequest {i : Fin 6 → List Byte → Instr} {code : Nat} (hexec : ∀ (s : State) (ch : Fin 6) (msg : List Byte),
    ∃ f, exec (i ch msg) s = .next (s.commit (s.begin.spdmRequest ch msg code false f))) : Barred i code := by
  intro s ch msg x hasks hid
  obtain ⟨f, hf⟩ := hexec s ch msg
  exact replies_of_barred hasks hid hf

/-- An open request that the connection admits is answered, and of Obsidian stays what the request has made of it. -/
theorem replies_of_admitted {i : Instr} {s : State} {ch : Fin 6} {msg : List Byte} {code : Nat} {x : Bool}
    {f : Dev → Nat → Dev × List Byte} {bs : List Byte} {P : Sec → Prop} {d : Dev} (hasks : Asks s ch msg code x)
    (hadmits : s.dev.admitsRequest ch code (msg.getD 0 0).toNat)
    (hexec : exec i s = .next (s.commit (s.begin.spdmRequest ch msg code true f)))
    (hanswer : f s.begin (msg.getD 0 0).toNat = (d, bs)) (hframe : d.sansSpdm = s.begin.sansSpdm)
    (hP : ∀ y : Sec, y.SameButMailboxes d.sec → P y) : Replies i s ch x bs P := by
  rw [spdmRequest_of_admitted hasks hadmits f, hanswer] at hexec
  exact replies_of_spdmAnswer hexec hframe hP

end Sys2Proof.Machine
end

section
/-! A package without a valid identity (R441): the requests it bars, the four it answers, QUOTE, and its keys. -/

namespace Sys2Proof.Machine

open Sys2Proof.Claims (Quiet Ends Asks Replies SameSpdm MailboxGets)

/-- GET_VERSION opens a new connection on its channel. -/
theorem getVersion_replies (s : State) (ch : Fin 6) (msg : List Byte) (x : Bool) (hasks : Asks s ch msg 0x84 x) :
    Replies (.getVersion ch msg) s ch x (bytesOf [0x10, 0x04, 0, 0, 0, 2, 0, 0x12, 0, 0x13])
      (fun y => (mget {} y.spdm ch).version = true) := by
  refine replies_of_admitted hasks (.inl rfl) rfl rfl rfl fun y ⟨hspdm, _⟩ => ?_
  rw [hspdm]
  exact congrArg Spdm.version (mget_mset_same {} s.dev.sec.spdm ch { version := true })

theorem getCapabilities_replies (s : State) (ch : Fin 6) (msg : List Byte) (x : Bool) (v : Nat) (hasks : Asks s ch msg 0xE1 x)
    (hv : v = 0x12 ∨ v = 0x13) (hmsg : (msg.getD 0 0).toNat = v) (hversion : (s.dev.spdm ch).version = true) :
    ∃ bs, Replies (.getCapabilities ch msg) s ch x (bytesOf [v, 0x61] ++ bs) (fun _ => True) := by
  subst hmsg
  exact ⟨_, replies_of_admitted hasks (.inr ⟨hv, hversion, .inl rfl⟩) rfl rfl rfl fun _ _ => trivial⟩

theorem negotiateAlgorithms_replies (s : State) (ch : Fin 6) (msg : List Byte) (x : Bool) (v : Nat) (hasks : Asks s ch msg 0xE3 x)
    (hlen : 32 ≤ msg.length) (hv : v = 0x12 ∨ v = 0x13) (hmsg : (msg.getD 0 0).toNat = v) (hversion : (s.dev.spdm ch).version = true)
    (hcap : (s.dev.spdm ch).capabilities = true) (huse : (s.dev.spdm ch).inUse = v) :
    ∃ bs, Replies (.negotiateAlgorithms ch msg) s ch x (bytesOf [v, 0x63] ++ bs) (fun _ => True) := by
  subst hmsg
  exact ⟨_, replies_of_admitted hasks (.inr ⟨hv, hversion, .inr ⟨hcap, huse, .inl rfl⟩⟩) rfl (if_neg hlen.not_gt) rfl fun _ _ => trivial⟩

/-- GET_MEASUREMENTS is an SPDM request, open where no signature is asked for; an unsigned one of an index that exists draws a nonce
(R443). -/
theorem exec_getMeasurements_request (s : State) (ch : Fin 6) (msg : List Byte) : ∃ f : Dev → Nat → Dev × List Byte,
    exec (.getMeasurements ch msg) s = .next (s.commit (s.begin.spdmRequest ch msg 0xE0 (!wantsSignature msg) f)) ∧
      (∀ ver, wantsSignature msg = false → ((msg.getD 3 0).toNat ≤ 11 ∨ (msg.getD 3 0).toNat = 255) →
        ∃ bs, f s.begin ver = (s.begin.nonce.2, bytesOf [ver, 0x60] ++ bs)) := by
  refine ⟨_, rfl, fun ver hunsigned hindex => ?_⟩
  have hknown : (decide (11 < (msg.getD 3 0).toNat) && (msg.getD 3 0).toNat != 255) = false := by
    generalize (msg.getD 3 0).toNat = i at hindex
    rcases hindex with h | h <;> simp [h]
  simp only [hunsigned, hknown, Bool.false_and, Bool.false_eq_true, if_false]
  exact ⟨_, rfl⟩

/-- A signed GET_MEASUREMENTS is no open request. -/
theorem getMeasurements_signed_barred (s : State) (ch : Fin 6) (msg : List Byte) (x : Bool) (hasks : Asks s ch msg 0xE0 x)
    (hid : pkgIdOk s.dev.fuses.pkgIdA = false) (hsigned : wantsSignature msg = true) :
    Replies (.getMeasurements ch msg) s ch x (bytesOf [(msg.getD 0 0).toNat, 0x7F, 5, 0]) (SameSpdm s.dev.sec) := by
  obtain ⟨f, hexec, -⟩ := exec_getMeasurements_request s ch msg
  rw [hsigned] at hexec
  exact replies_of_barred hasks hid hexec

theorem getMeasurements_unsigned_replies (s : State) (ch : Fin 6) (msg : List Byte) (x : Bool) (v : Nat) (hasks : Asks s ch msg 0xE0 x)
    (hv : v = 0x12 ∨ v = 0x13) (hmsg : (msg.getD 0 0).toNat = v)
    (hspdm : s.dev.spdm ch = { version := true, inUse := v, capabilities := true, algorithms := true })
    (hunsigned : wantsSignature msg = false) (hindex : (msg.getD 3 0).toNat ≤ 11 ∨ (msg.getD 3 0).toNat = 255) :
    ∃ bs, Replies (.getMeasurements ch msg) s ch x (bytesOf [v, 0x60] ++ bs) (fun _ => True) := by
  obtain ⟨f, hexec, hf⟩ := exec_getMeasurements_request s ch msg
  obtain ⟨bs, hanswer⟩ := hf (msg.getD 0 0).toNat hunsigned hindex
  rw [hunsigned] at hexec
  subst hmsg
  have hadmits : s.dev.admitsRequest ch 0xE0 (msg.getD 0 0).toNat := by
    rw [Dev.admitsRequest, hspdm]
    exact .inr ⟨hv, rfl, .inr ⟨rfl, rfl, .inr rfl⟩⟩
  exact ⟨bs, replies_of_admitted hasks hadmits hexec hanswer rfl fun _ _ => trivial⟩

/-- A QUOTE that is due is answered with the error Unspecified without a package identity, on the bus or in its mailbox. -/
theorem xQuote_unidentified (s : State) (ch : Nat) (n : BitVec 256) (hrun : s.dev.sec.state = .running) (hlost : s.dev.lost 4 = false)
    (hid : pkgIdOk s.dev.fuses.pkgIdA = false)
    (hdue : ch = 5 ∨ ((s.dev.mailbox ch).want = 36 ∧ (s.dev.mailbox ch).writing = false ∧ (s.dev.mailbox ch).request = quoteRequest n)) :
    xQuote ch n s.mem s.begin = if ch = 5 then (s.begin.takeFree.2.bump Reg.secSpdmMsgs).emit (.spdm ch (bytesOf [0x13, 0x7F, 5, 0]))
      else (s.begin.takeFree.2.bump Reg.secSpdmMsgs).mboxReply ch (bytesOf [0x13, 0x7F, 5, 0]) := by
  have hbox : s.begin.mailbox ch = s.dev.mailbox ch := rfl
  have hobsidian := obsidian_begin hrun hlost
  have htaken : (!s.begin.obsidian || !(ch == 5 || (s.begin.mailbox ch).want == 36 && !(s.begin.mailbox ch).writing &&
      (s.begin.mailbox ch).request == quoteRequest n)) = false := by
    rcases hdue with rfl | ⟨hwant, hwriting, hrequest⟩
    · simp [hobsidian]
    · simp [hobsidian, hbox, hwant, hwriting, hrequest]
  have hresp : (!pkgIdOk s.begin.takeFree.2.fuses.pkgIdA) = true := by simp [hid]
  simp only [xQuote, htaken, hresp, Bool.false_eq_true, if_false, if_true]
  rfl

theorem quote_unidentified (s : State) (ch : Fin 6) (n : BitVec 256) (hrun : s.dev.sec.state = .running) (hlost : s.dev.lost 4 = false)
    (hid : pkgIdOk s.dev.fuses.pkgIdA = false)
    (hdue : ch.val = 5 ∨ ((s.dev.mailbox ch).want = 36 ∧ (s.dev.mailbox ch).writing = false ∧ (s.dev.mailbox ch).request = quoteRequest n)) :
    Ends (.quote ch n) s (fun u => (ch.val = 5 → u.dev.out = [.spdm 5 (bytesOf [0x13, 0x7F, 5, 0])] ∧ u.mem = s.mem) ∧
      (ch.val < 5 → MailboxGets s u ch (bytesOf [0x13, 0x7F, 5, 0])) ∧ SameSpdm s.dev.sec u.dev.sec) := by
  have hquote := xQuote_unidentified s ch n hrun hlost hid hdue
  rw [Ends, exec_quote, execQuote, State.run_eq, hquote]
  by_cases hbus : ch.val = 5
  case pos =>
    rw [if_pos hbus]
    exact ⟨_, rfl, rfl, fun _ => ⟨congrArg (fun c => [Out.spdm c _]) hbus, State.commit_mem s _ rfl rfl⟩, fun h => absurd hbus h.ne, rfl, rfl, rfl⟩
  case neg =>
    rw [if_neg hbus]
    obtain ⟨⟨hspdm, hcerts, hsessions, -⟩, -⟩ :=
      sansAnswer_fields (mboxReply_sansAnswer (s.begin.takeFree.2.bump Reg.secSpdmMsgs) ch (bytesOf [0x13, 0x7F, 5, 0]))
    exact ⟨_, rfl, rfl, fun h => absurd h hbus, fun _ => mailboxGets_of_mboxReply s _ ch _ rfl rfl rfl rfl, hspdm, hcerts, hsessions⟩

/-- Without a valid package identity RSA_KEY_READY is ignored (R441). -/
theorem rsaKeyReady_unidentified (s : State) (hid : pkgIdOk s.dev.fuses.pkgIdA = false) : Quiet .rsaKeyReady s s.begin := by
  have hignored : xRsaKeyReady s.mem s.begin = s.begin := if_pos (by simp [hid])
  rw [Quiet, exec_rsaKeyReady, execRsaKeyReady, State.run_eq, hignored, State.commit_quiet s _ rfl rfl]

/-- Settles O54: a request that is not open is barred before the connection is looked at (R441), an open one is answered as the connection
has it (R442, with the layouts of log entry 80), and no key becomes ready. -/
theorem withoutIdentityFourRequestsAreAnswered : Obligations.WithoutIdentityFourRequestsAreAnswered :=
  ⟨barred_of_spdmRequest fun _ _ _ => ⟨_, rfl⟩, barred_of_spdmRequest fun _ _ _ => ⟨_, rfl⟩, barred_of_spdmRequest fun _ _ _ => ⟨_, rfl⟩,
    barred_of_spdmRequest fun _ _ _ => ⟨_, rfl⟩, barred_of_spdmRequest fun _ _ _ => ⟨_, rfl⟩, barred_of_spdmRequest fun _ _ _ => ⟨_, rfl⟩,
    barred_of_spdmRequest fun _ _ _ => ⟨_, rfl⟩, getMeasurements_signed_barred, quote_unidentified, rsaKeyReady_unidentified,
    fun s ch msg x hasks _ => getVersion_replies s ch msg x hasks,
    fun s ch msg x v hasks _ => getCapabilities_replies s ch msg x v hasks,
    fun s ch msg x v hasks _ => negotiateAlgorithms_replies s ch msg x v hasks,
    fun s ch msg x v hasks _ => getMeasurements_unsigned_replies s ch msg x v hasks⟩

end Sys2Proof.Machine
end

section
/-! What a command can come to: it ends with some device, or it is the refusal of R409. The queue, the end of a command and the refusal
are read off the command's definition once; every statement about all commands rests on it. -/

namespace Sys2Proof.Machine

/-- The command ends with some device, or the test lock is released and it is refused (R409). -/
def State.Concludes (s : State) (o : Host.Outcome State Fault Refusal) : Prop :=
  (∃ d, o = .next (s.commit d)) ∨ (s.dev.sec.testLock = false ∧ o = .refused .testControl)

theorem State.run_concludes (s : State) (x : Effect) : s.Concludes (s.run x) := .inl ⟨_, rfl⟩

theorem State.runReg_concludes (s : State) (r : Requester) (k : Nat) (v : BitVec 32) (perm : Dev → Bool) (x : Mem → Dev → Dev × Nat) :
    s.Concludes (s.runReg r k v perm x) := by
  unfold State.runReg
  split
  · next h =>
    simp only [Bool.and_eq_true, Bool.not_eq_true', and_assoc] at h
    exact .inr ⟨h.1, rfl⟩
  · exact s.run_concludes _

theorem State.protWrite_concludes (s : State) (r : Requester) (c : Nat) (w : Dev → BitVec 32) : s.Concludes (s.protWrite r c w) :=
  s.runReg_concludes _ _ _ _ _

theorem State.access_concludes (s : State) (x : Mem → Dev → Option Dev)
    (h : s.dev.sec.testLock = true → (x s.mem s.begin).isSome = true) : s.Concludes (s.access x) := by
  unfold State.access
  cases hx : x s.mem s.begin with
  | some d => exact .inl ⟨d, rfl⟩
  | none =>
    refine .inr ⟨?_, rfl⟩
    by_contra hlock
    simpa [hx] using h (by simpa using hlock)

/-- A register access ends with some device or is refused. -/
theorem State.access_cases (s : State) (x : Mem → Dev → Option Dev) :
    (∃ d, s.access x = .next (s.commit d)) ∨ s.access x = .refused .testControl := by
  unfold State.access
  cases x s.mem s.begin with
  | some d => exact .inl ⟨d, rfl⟩
  | none => exact .inr rfl

/-! What a register access leaves of Obsidian before it has its effect, and that it completes behind the engaged lock. -/

@[simp] theorem Dev.guardFault_sec (d : Dev) (r : Requester) : (d.guardFault r).sec = d.sec := rfl
@[simp] theorem Dev.setPending_sec (d : Dev) (r : Requester) (p : Option (Nat × BitVec 32)) : (d.setPending r p).sec = d.sec := rfl

@[simp] theorem Dev.breakGuard_sec (d : Dev) (r : Requester) : (d.breakGuard r).sec = d.sec := by
  unfold Dev.breakGuard
  split <;> rfl

theorem Dev.strataRefuse_sec (d : Dev) (c : Nat) : (d.strataRefuse c).1.sec = d.sec := by
  simp [Dev.strataRefuse]

theorem Dev.refuseWrite_sec (d : Dev) (x : RegDef) (v : BitVec 32) : (d.refuseWrite x v).1.sec = d.sec := by
  unfold Dev.refuseWrite
  split
  · exact d.strataRefuse_sec _
  · rfl

theorem Dev.guardFirst_sec (d : Dev) (r : Requester) (via a : Nat) (x : RegDef) (v : BitVec 32) :
    (d.guardFirst r via a x v).1.sec = d.sec := by
  simp only [Dev.guardFirst]
  split
  · exact (Dev.refuseWrite_sec _ _ _).trans (d.breakGuard_sec r)
  · simp

theorem isSome_ite {α : Type} {c : Prop} [Decidable c] {x : α} {y : Option α} (h : y.isSome = true) :
    (if c then some x else y).isSome = true := by
  split
  · rfl
  · exact h

theorem Dev.commitReg_isSome (d : Dev) (m : Mem) (r : Requester) (x : RegDef) (k : Nat) (v : BitVec 32)
    (h : d.sec.testLock = true) : (d.commitReg m r x k v).isSome = true := by
  rw [Dev.commitReg, if_pos h]
  refine isSome_ite ?_
  split <;> rfl

theorem Dev.guardSecond_isSome (d : Dev) (m : Mem) (r : Requester) (via a : Nat) (x : RegDef) (v : BitVec 32)
    (h : d.sec.testLock = true) : (d.guardSecond m r via a x v).isSome = true := by
  simp only [Dev.guardSecond]
  split
  · rfl
  · split
    · split <;> rfl
    · split
      · rfl
      · split
        · rfl
        · exact Dev.commitReg_isSome _ _ _ _ _ _ (by simpa using h)

theorem Dev.writeWord_isSome (d : Dev) (m : Mem) (r : Requester) (via k : Nat) (x : RegDef) (v : BitVec 32)
    (h : d.sec.testLock = true) : (d.writeWord m r via k x v).isSome = true := by
  unfold Dev.writeWord
  split
  · split
    · rfl
    · exact d.guardSecond_isSome m r via (k - 4) x v h
  · simp only
    split
    · rfl
    · split
      · rfl
      · exact Dev.commitReg_isSome _ _ _ _ _ _ (by simpa using h)

theorem Dev.indWrite_isSome (d : Dev) (m : Mem) (r : Requester) (w : Nat) (v : BitVec 32) (h : d.sec.testLock = true) :
    (d.indWrite m r w v).isSome = true := by
  unfold Dev.indWrite
  split
  · rfl
  · simpa using d.writeWord_isSome m r _ _ _ v h

/-- One word is written, ignored or refused with a status while the test lock is engaged. -/
theorem Dev.directWrite_isSome (d : Dev) (m : Mem) (r : Requester) (k : Nat) (v : BitVec 32) (h : d.sec.testLock = true) :
    (d.directWrite m r k v).isSome = true := by
  unfold Dev.directWrite
  split
  · rfl
  · split
    · split
      · exact d.indWrite_isSome m r _ v h
      · rfl
    · split
      · simp only
        split
        · rfl
        · split
          · rw [if_pos (by simpa using h)]; rfl
          · rfl
      · exact d.writeWord_isSome m r 0 k _ v h

/-- The registers that are written in pairs are no IND register (R411, R419). -/
theorem pair_no_ind : ∀ x ∈ regTable, x.kind = .pair → isIndData x = false ∧ isIndAddr x = false := by decide +kernel

theorem mem_regTable_of_regAt {k : Nat} {x : RegDef} (h : regAt k = some x) : x ∈ regTable := by
  unfold regAt at h
  exact List.mem_of_find?_eq_some h

/-- An address where a guarded pair begins. -/
theorem pairWord_eq_some {a n : Nat} (h : pairWord a = some n) :
    a < 0x500000 ∧ a % 4 = 0 ∧ ∃ x, regAt a = some x ∧ x.kind = .pair ∧ (x.place a).2 = n := by
  unfold pairWord at h
  split at h
  · cases h
  · next hin =>
    simp only [Bool.or_eq_true, decide_eq_true_eq, bne_iff_ne, not_or, not_le, not_not] at hin
    split at h
    · next x hx =>
      split at h
      · next hk => exact ⟨hin.1, hin.2, x, hx, by simpa using hk, Option.some.inj h⟩
      · cases h
    · cases h

/-- The first word of a guarded pair changes nothing of Obsidian. -/
theorem Dev.directWrite_pair (d : Dev) (m : Mem) (r : Requester) (a : Nat) (v : BitVec 32) (h : pairWord a = some 0) :
    ∃ x, regAt a = some x ∧ x.kind = .pair ∧ d.directWrite m r a v = some (d.guardFirst r 0 a x v) := by
  obtain ⟨-, -, x, hx, hkind, hplace⟩ := pairWord_eq_some h
  obtain ⟨hdata, haddr⟩ := pair_no_ind x (mem_regTable_of_regAt hx) hkind
  refine ⟨x, hx, hkind, ?_⟩
  simp [Dev.directWrite, hx, hdata, haddr, Dev.writeWord, hkind, hplace]

theorem Dev.access_one_isSome (d : Dev) (m : Mem) (r : Requester) (c a : Nat) (v : BitVec 32) (h : d.sec.testLock = true) :
    (d.access m r c a [v]).isSome = true := by
  unfold Dev.access
  cases accessAt a (4 * [v].length) with
  | none => rfl
  | some x =>
    simp only
    split
    · exact Dev.directWrite_isSome _ _ _ _ _ h
    · rfl

/-- The 8-byte write of a guarded pair completes behind the engaged lock. -/
theorem Dev.access_pair_isSome (d : Dev) (m : Mem) (r : Requester) (c a : Nat) (v w : BitVec 32) (hpair : pairWord a = some 0)
    (h : d.sec.testLock = true) : (d.access m r c a [v, w]).isSome = true := by
  obtain ⟨x, -, -, hfirst⟩ := d.directWrite_pair m r a v hpair
  have hlock := (congrArg Sec.testLock (d.guardFirst_sec r 0 a x v)).trans h
  unfold Dev.access
  cases accessAt a (4 * [v, w].length) with
  | none => rfl
  | some y =>
    simp only [hfirst]
    refine isSome_ite (isSome_ite ?_)
    rw [Option.isSome_map]
    exact Dev.directWrite_isSome _ _ _ _ _ hlock

theorem xWrite_isSome_of_access {m : Mem} {d : Dev} {r : Requester} {c a : Nat} {vs : List (BitVec 32)}
    (h : (d.access m r c a vs).isSome = true) : (xWrite r c a vs m d).isSome = true := by
  unfold xWrite
  split
  · rfl
  · simpa using h

theorem execRegisterWrite_concludes (r : Requester) (c : Fin 64) (a : BitVec 39) (v : BitVec 32) (s : State) :
    s.Concludes (execRegisterWrite r c a v s) := by
  refine s.access_concludes _ fun h => ?_
  split
  · next hpair => exact xWrite_isSome_of_access (Dev.access_pair_isSome _ _ _ _ _ _ _ hpair h)
  · exact xWrite_isSome_of_access (Dev.access_one_isSome _ _ _ _ _ _ h)

theorem execGuardedWriteFirst_concludes (r : Requester) (c : Fin 64) (a : BitVec 39) (v : BitVec 32) (s : State) :
    s.Concludes (execGuardedWriteFirst r c a v s) := by
  refine s.access_concludes _ fun h => ?_
  split
  · exact xWrite_isSome_of_access (Dev.access_one_isSome _ _ _ _ _ _ h)
  · rfl

theorem execGuardedWriteSecond_concludes (r : Requester) (c : Fin 64) (a : BitVec 39) (v : BitVec 32) (s : State) :
    s.Concludes (execGuardedWriteSecond r c a v s) := by
  refine s.access_concludes _ fun h => ?_
  split
  · exact xWrite_isSome_of_access (Dev.access_one_isSome _ _ _ _ _ _ h)
  · rfl

theorem execIndDataAccess_concludes (r : Requester) (w : Option (Fin 64)) (v : Option (BitVec 32)) (s : State) :
    s.Concludes (execIndDataAccess r w v s) := by
  refine s.access_concludes _ fun h => ?_
  cases v with
  | none => rfl
  | some v => exact xWrite_isSome_of_access (Dev.access_one_isSome _ _ _ _ _ _ h)

/-- Every command but the low reset pin and RWR ends with some device or is the refusal of R409. -/
theorem exec_concludes (i : Instr) (s : State) (hreset : i ≠ .pkgResetLow) (hrwr : ∀ p k, i ≠ .rwr p k) : s.Concludes (exec i s) := by
  unfold exec
  cases i
  case pkgResetLow => exact absurd rfl hreset
  case rwr p k => exact absurd rfl (hrwr p k)
  case registerWrite r c a v => exact execRegisterWrite_concludes r c a v s
  case guardedWriteFirst r c a v => exact execGuardedWriteFirst_concludes r c a v s
  case guardedWriteSecond r c a v => exact execGuardedWriteSecond_concludes r c a v s
  case indDataAccess r w v => exact execIndDataAccess_concludes r w v s
  case protEnable | secure | restore | apply | protResync | promote | fetch | demote => exact s.protWrite_concludes _ _ _
  case tileColForceWrite | tileKeeperWrite | tileConvCtrlWrite | memRetireForceWrite | fabPortRetrain | fabPortDisable | fabPortEnable
      | fabNodeWrite | fabTorusWrite | pipeEnable | pipeFlush | pipeRetireNow | ctxLogProdWrite | ctxCplConsWrite | ctxCplEnable | ctxEvtConsWrite | devHpBindWrite | ctxTeardown
      | devHpRetrain | devHpDisable | devHpEnable | ctxShareConsWrite | rasLbCfgWrite | secureNow | sampleRelease | contextReset
      | computeReset | strataDiscard | strataActivate | strataRevert | strataGroupApply | strataFwCommit | strataCancel
      | lodeResync | lodeRebaseAny | lodeCtrlWrite | pwrQuiesce | pwrForward | pwrRun | pwrBootGo
      | dvfsLevelReqWrite | secMboxSend | secMboxAbandon | fullRecovery | devAdminWrite | devEvtConsWrite =>
    exact s.runReg_concludes _ _ _ _ _
  case strataLoad | cairnArm | cairnCancel =>
    simp only [execStrataLoad, execCairnArm, execCairnCancel]
    exact s.runReg_concludes _ _ _ _ _
  all_goals exact s.run_concludes _

/-- Every command ends with some device, is the low reset pin, or is the refusal of R409. -/
theorem exec_cases (i : Instr) (s : State) :
    (∃ d, exec i s = .next (s.commit d)) ∨ i = .pkgResetLow ∨ exec i s = .refused .testControl := by
  by_cases hreset : i = .pkgResetLow
  case pos => exact .inr (.inl hreset)
  case neg =>
    by_cases hrwr : ∃ p k, i = .rwr p k
    case pos =>
      obtain ⟨p, k, rfl⟩ := hrwr
      exact (s.access_cases (xRwr p k)).imp_right .inr
    case neg =>
      rcases exec_concludes i s hreset (fun p k h => hrwr ⟨p, k, h⟩) with h | ⟨-, h⟩
      · exact .inl h
      · exact .inr (.inr h)

/-- The next state of a command: the end of the command on some device, or the cold-start state. -/
theorem exec_next_cases {i : Instr} {s t : State} (h : exec i s = .next t) :
    (∃ d, t = s.commit d) ∨ exec .pkgResetLow s = .next t := by
  rcases exec_cases i s with ⟨d, hd⟩ | rfl | href
  · rw [hd] at h; cases h; exact .inl ⟨d, rfl⟩
  · exact .inr h
  · rw [href] at h; cases h

/-- The low reset pin answers the cold-start state with the fuses and the queue as they were (R412, R460). -/
theorem execPkgResetLow_eq (s : State) : ∃ d : Dev, d.stores = [] ∧ d.wipes = [] ∧
    exec .pkgResetLow s = .next { mem := [], dev := d, pending := s.pending } := ⟨_, rfl, rfl, rfl⟩

/-- The end of a command leaves the device without stores or wipes. -/
theorem State.commit_sound (s : State) (d : Dev) (h : Memory.wf s.mem = true) : (s.commit d).Sound :=
  ⟨s.commit_wf d h, rfl, rfl⟩

/-- A command that answers a next state keeps the queue and the soundness of the state. -/
theorem exec_keeps {i : Instr} {s t : State} (h : exec i s = .next t) :
    t.pending = s.pending ∧ (Memory.wf s.mem = true → t.Sound) := by
  rcases exec_next_cases h with ⟨d, rfl⟩ | hreset
  · exact ⟨rfl, s.commit_sound d⟩
  · obtain ⟨d, hstores, hwipes, hd⟩ := execPkgResetLow_eq s
    rw [hd] at hreset; cases hreset
    exact ⟨rfl, fun _ => ⟨rfl, hstores, hwipes⟩⟩

/-- Settles O3: a step runs the front command on the same memory, and a command's end writes its wipes and stores into canonical memory
and leaves none behind (log entry 2). -/
theorem stepKeepsSound : Obligations.StepKeepsSound := by
  intro s t hs hstep
  cases hq : s.pending with
  | nil =>
    rw [step, hq] at hstep
    cases hstep
    exact hs
  | cons c rest =>
    rw [step_front s c rest hq] at hstep
    obtain ⟨-, hsound⟩ := exec_keeps hstep
    exact hsound hs.1

/-- Settles O4: every command's result is its end on the same queue, the cold start, or the refusal of a write to live test controls,
which the released lock alone can bring about (R409; the refusal is log entry 98's). -/
theorem commandsKeepTheQueue : Obligations.CommandsKeepTheQueue := by
  refine ⟨fun i s t h => (exec_keeps h).1, fun i s hrwr hlock => ?behindTheLock, fun i s => ?always⟩
  case behindTheLock =>
    by_cases hreset : i = .pkgResetLow
    case pos => exact hreset ▸ ⟨_, rfl⟩
    case neg =>
      rcases exec_concludes i s hreset hrwr with ⟨d, hd⟩ | ⟨hreleased, -⟩
      · exact ⟨_, hd⟩
      · rw [hlock] at hreleased; cases hreleased
  case always =>
    rcases exec_cases i s with ⟨d, hd⟩ | rfl | href
    · exact .inl ⟨_, hd⟩
    · exact .inl ⟨_, rfl⟩
    · exact .inr href

/-- Settles O1: both clauses are the two arms of `step` (log entry 1). -/
theorem stepRunsFrontCommand : Obligations.StepRunsFrontCommand := by
  refine ⟨fun c rest s hq => step_front s c rest hq, fun s hq => ?idle⟩
  case idle => rw [step, hq]

/-- Settles O2: the reset state lists no word, counter, context, port or byte, and an unlisted one reads its reset value (log entry 2). -/
theorem resetStateIsSound : Obligations.ResetStateIsSound :=
  ⟨fun _ => rfl, fun _ => rfl, rfl, rfl, rfl, fun _ => rfl, rfl, rfl, rfl, fun _ => rfl, fun _ => ⟨rfl, rfl⟩, rfl, fun _ => rfl,
    rfl, rfl, rfl⟩

end Sys2Proof.Machine
end

section
/-! One word through the front of the register map (R407, R411, R415 to R417): what a register access does before it has an effect. -/

namespace Sys2Proof.Machine

open Sys2Proof.Claims (Quiet Ends OnlyReq Names NamesPair)

/-! The requester's own copies. -/

theorem Dev.breakGuard_eq (d : Dev) (r : Requester) :
    d.breakGuard r = if (d.req (reqIndex r)).pending.isSome then d.guardFault r else d := rfl

/-- A dropped half changes the requester's own copies alone. -/
theorem Dev.breakGuard_reqs (d : Dev) (r : Requester) : ∃ l, d.breakGuard r = { d with reqs := l } := by
  unfold Dev.breakGuard
  split
  · exact ⟨_, rfl⟩
  · exact ⟨d.reqs, rfl⟩

theorem Dev.writeBarred_breakGuard (d : Dev) (r : Requester) (via k : Nat) (x : RegDef) :
    (d.breakGuard r).writeBarred r via k x = d.writeBarred r via k x := by
  unfold Dev.breakGuard
  split <;> rfl

theorem Dev.writeBarred_begin (s : State) (r : Requester) (via k : Nat) (x : RegDef) :
    s.begin.writeBarred r via k x = s.dev.writeBarred r via k x := rfl

/-- Once a pair's first word is held, the requester's own copies are as they were, but for the failure of the half it drops. -/
theorem Dev.req_breakGuard (d : Dev) (r : Requester) :
    (d.breakGuard r).req (reqIndex r) = if (d.req (reqIndex r)).pending.isSome
      then { d.req (reqIndex r) with pending := none, failed := (d.req (reqIndex r)).pending.map (·.1), guardFaults := (d.req (reqIndex r)).guardFaults + 1 }
      else d.req (reqIndex r) := by
  rw [Dev.breakGuard_eq]
  split
  · exact Dev.req_setReq_same _ _ _
  · rfl

theorem Dev.req_breakGuard_other (d : Dev) (r : Requester) {j : Nat} (h : j ≠ reqIndex r) : (d.breakGuard r).req j = d.req j := by
  rw [Dev.breakGuard_eq]
  split
  · exact mget_mset_other _ _ _ h.symm
  · rfl

/-- A word that is neither the first nor the second of a pair. -/
theorem pairWord_eq_none {a : Nat} {x : RegDef} (hx : regAt a = some x) (hkind : x.kind ≠ .pair) : pairWord a = none := by
  unfold pairWord
  split
  · rfl
  · simp [hx, hkind]

theorem pairWord_eq_place {a : Nat} {x : RegDef} (hx : regAt a = some x) (hkind : x.kind = .pair) (ha : a % 4 = 0) (hin : a < 0x500000) :
    pairWord a = some (x.place a).2 := by
  unfold pairWord
  rw [if_neg (by simp [ha]; omega)]
  simp [hx, hkind]

/-! One word. -/

theorem accessAt_word {a : Nat} {x : RegDef} (hx : regAt a = some x) (ha : a % 4 = 0) (hin : a < 0x500000) : accessAt a 4 = some x := by
  unfold accessAt
  rw [if_neg (by omega)]
  simp [hx, ha]

/-- A word whose window the request names is written directly. -/
theorem Dev.access_one (d : Dev) (m : Mem) {r : Requester} {c a : Nat} {x : RegDef} (v : BitVec 32) (hx : regAt a = some x)
    (ha : a % 4 = 0) (hin : a < 0x500000) (hctx : ctxMatches r c a = true) : d.access m r c a [v] = d.directWrite m r a v := by
  have hat : accessAt a (4 * [v].length) = some x := accessAt_word hx ha hin
  unfold Dev.access
  rw [hat]
  simp [hctx]

/-- A word of another window is refused (R415, R417). -/
theorem Dev.access_one_mismatched (d : Dev) (m : Mem) {r : Requester} {c a : Nat} {x : RegDef} (v : BitVec 32) (hx : regAt a = some x)
    (ha : a % 4 = 0) (hin : a < 0x500000) (hctx : ctxMatches r c a = false) :
    d.access m r c a [v] = some ((d.breakGuard r).noteRefused stACCESS, stACCESS) := by
  have hat : accessAt a (4 * [v].length) = some x := accessAt_word hx ha hin
  unfold Dev.access
  rw [hat]
  simp [hctx]

theorem accessAt_eq_none {a : Nat} (h : a % 4 ≠ 0 ∨ 0x500000 ≤ a ∨ regAt a = none) : accessAt a 4 = none := by
  unfold accessAt
  rcases h with h | h | h
  · split
    · rfl
    · cases regAt a <;> simp [h]
  · rw [if_pos h]
  · split
    · rfl
    · rw [h]

/-- A word of no register is answered ADDR (R407). -/
theorem Dev.access_one_absent (d : Dev) (m : Mem) (r : Requester) (c : Nat) {a : Nat} (v : BitVec 32)
    (h : a % 4 ≠ 0 ∨ 0x500000 ≤ a ∨ regAt a = none) : d.access m r c a [v] = some (d.breakGuard r, stADDR) := by
  have hat : accessAt a (4 * [v].length) = none := accessAt_eq_none h
  unfold Dev.access
  rw [hat]

/-- A word that is none of the IND pairs' is written as the register it belongs to. -/
theorem Dev.directWrite_word (d : Dev) (m : Mem) (r : Requester) {a : Nat} {x : RegDef} (v : BitVec 32) (hx : regAt a = some x)
    (hdata : isIndData x = false) (haddr : isIndAddr x = false) : d.directWrite m r a v = d.writeWord m r 0 a x v := by
  simp [Dev.directWrite, hx, hdata, haddr]

/-- A write that the requester may not make is refused (R417). -/
theorem Dev.writeWord_barred (d : Dev) (m : Mem) (r : Requester) (via k : Nat) {x : RegDef} (v : BitVec 32) (hkind : x.kind ≠ .pair)
    (hbar : d.writeBarred r via k x = true) : d.writeWord m r via k x v = some ((d.breakGuard r).refuseWrite x v) := by
  unfold Dev.writeWord
  cases hk : x.kind with
  | pair => exact absurd hk hkind
  | word => simp [Dev.writeBarred_breakGuard, hbar]
  | counter => simp [Dev.writeBarred_breakGuard, hbar]

/-- A permitted write of a word commits. -/
theorem Dev.writeWord_permitted (d : Dev) (m : Mem) (r : Requester) (via k : Nat) {x : RegDef} (v : BitVec 32) (hkind : x.kind = .word)
    (hbar : d.writeBarred r via k x = false) : d.writeWord m r via k x v = (d.breakGuard r).commitReg m r x k v := by
  simp [Dev.writeWord, hkind, Dev.writeBarred_breakGuard, hbar]

theorem Dev.refuseWrite_of_ne (d : Dev) {x : RegDef} (v : BitVec 32) (h : x.name ≠ "STRATA_CTRL") :
    d.refuseWrite x v = (d.bump Reg.devRegRefused, stACCESS) := if_neg (by simpa using h)

theorem writeBarred_of_not_may {d : Dev} {r : Requester} {via k : Nat} {x : RegDef} (h : d.mayWriteReg r via k x = false) :
    d.writeBarred r via k x = true := by simp [Dev.writeBarred, h]

theorem Dev.noteRefused_access (d : Dev) : d.noteRefused stACCESS = d.bump Reg.devRegRefused := rfl

/-! The end of an access as a command. -/

theorem xWrite_heard {m : Mem} {d : Dev} {r : Requester} {c a : Nat} {vs : List (BitVec 32)} (hask : d.mayAsk r = true) :
    xWrite r c a vs m d = (d.access m r c a vs).map (fun y => y.1.answer r y.2) := by
  simp [xWrite, hask]

theorem breakGuard_begin_none {s : State} {r : Requester} (h : (s.dev.req (reqIndex r)).pending = none) : s.begin.breakGuard r = s.begin :=
  breakGuard_none _ _ h

/-- A register access that neither stores nor wipes leaves memory and the queue. -/
theorem access_quiet {s : State} {x : Mem → Dev → Option Dev} {d : Dev} (h : x s.mem s.begin = some d) (hstores : d.stores = [])
    (hwipes : d.wipes = []) : s.access x = .next { s with dev := d } := by
  rw [State.access, h]
  exact congrArg _ (s.commit_quiet d hstores hwipes)

/-- REGISTER_WRITE of a word. -/
theorem execRegisterWrite_word {s : State} {r : Requester} {c : Fin 64} {a : BitVec 39} {v : BitVec 32} (hpair : pairWord a.toNat = none)
    (hask : s.dev.mayAsk r = true) {y : Dev × Nat} (h : s.begin.access s.mem r c a.toNat [v] = some y) (hstores : y.1.stores = [])
    (hwipes : y.1.wipes = []) : exec (.registerWrite r c a v) s = .next { s with dev := y.1.answer r y.2 } := by
  have hx : (fun m d => xWrite r c.val a.toNat (if pairWord a.toNat = some 0 then [v, ~~~v] else [v]) m d) s.mem s.begin
      = some (y.1.answer r y.2) := by
    simp only [hpair, reduceCtorEq, if_false]
    rw [xWrite_heard (by rwa [mayAsk_begin]), h]
    rfl
  exact access_quiet hx hstores hwipes

end Sys2Proof.Machine
end

section
/-! Writes and reads that are barred or ignored (R407, R409, R415 to R417). -/

namespace Sys2Proof.Machine

open Sys2Proof.Claims (Quiet Ends OnlyReq Names NamesPair)

/-- What the requester is shown of a refusal. -/
def Dev.refusal (d : Dev) (r : Requester) : Dev := (d.bump Reg.devRegRefused).emit (.regDone r 2)

/-- Where no half is pending, a refused word is counted and answered ACCESS. -/
theorem registerWrite_barred {s : State} {r : Requester} {c : Fin 64} {a : BitVec 39} (v : BitVec 32) {x : RegDef} (hn : Names r c a.toNat x)
    (hkind : x.kind ≠ .pair) (hname : x.name ≠ "STRATA_CTRL") (hask : s.dev.mayAsk r = true)
    (hpend : (s.dev.req (reqIndex r)).pending = none) (hmay : s.dev.mayWriteReg r 0 a.toNat x = false) :
    Quiet (.registerWrite r c a v) s (s.begin.refusal r) := by
  obtain ⟨ha, hin, hx, hdata, haddr, hctx⟩ := hn
  have hbar : s.begin.writeBarred r 0 a.toNat x = true := writeBarred_of_not_may hmay
  refine execRegisterWrite_word (y := (s.begin.bump Reg.devRegRefused, stACCESS)) (pairWord_eq_none hx hkind) hask ?_ rfl rfl
  rw [Dev.access_one _ _ _ hx ha hin hctx, Dev.directWrite_word _ _ _ _ hx hdata haddr, Dev.writeWord_barred _ _ _ _ _ _ hkind hbar,
    breakGuard_begin_none hpend, Dev.refuseWrite_of_ne _ _ hname]

theorem registerWrite_mismatched {s : State} {p : Fin 4} {c : Fin 64} {a : BitVec 39} (v : BitVec 32) {x : RegDef} (ha : a.toNat % 4 = 0)
    (hin : a.toNat < 0x500000) (hx : regAt a.toNat = some x) (hkind : x.kind ≠ .pair) (hctx : c.val ≠ windowCtx a.toNat)
    (hask : s.dev.mayAsk (.host p) = true) (hpend : (s.dev.req p).pending = none) :
    Quiet (.registerWrite (.host p) c a v) s (s.begin.refusal (.host p)) := by
  have hmatch : ctxMatches (.host p) c a.toNat = false := by simp [ctxMatches, isCtx0, hctx]
  refine execRegisterWrite_word (y := (s.begin.bump Reg.devRegRefused, stACCESS)) (pairWord_eq_none hx hkind) hask ?_ rfl rfl
  rw [Dev.access_one_mismatched _ _ _ hx ha hin hmatch, breakGuard_begin_none hpend]
  rfl

theorem pairWord_absent {a : Nat} (h : a % 4 ≠ 0 ∨ 0x500000 ≤ a ∨ regAt a = none) : pairWord a = none := by
  unfold pairWord
  rcases h with h | h | h
  · rw [if_pos (by simp [h])]
  · rw [if_pos (by simp [h])]
  · rw [h]; split <;> rfl

theorem registerWrite_absent {s : State} {r : Requester} (c : Fin 64) {a : BitVec 39} (v : BitVec 32) (hask : s.dev.mayAsk r = true)
    (hpend : (s.dev.req (reqIndex r)).pending = none) (h : a.toNat % 4 ≠ 0 ∨ 0x500000 ≤ a.toNat ∨ regAt a.toNat = none) :
    Quiet (.registerWrite r c a v) s (s.begin.emit (.regDone r 1)) := by
  refine execRegisterWrite_word (y := (s.begin, stADDR)) (pairWord_absent h) hask ?_ rfl rfl
  rw [Dev.access_one_absent _ _ _ _ _ h, breakGuard_begin_none hpend]

/-- A guarded write at the word of a pair that it is for is a write of that word. -/
theorem guardedAccess_eq {s : State} {r : Requester} {c a n : Nat} {v : BitVec 32} {y : Dev × Nat} (hpair : pairWord a = some n)
    (hask : s.dev.mayAsk r = true) (h : s.begin.access s.mem r c a [v] = some y) :
    s.access (fun m d => if pairWord a = some n then xWrite r c a [v] m d else some d) = .next (s.commit (y.1.answer r y.2)) := by
  simp [State.access, hpair, xWrite_heard (m := s.mem) (d := s.begin) (by rwa [mayAsk_begin]), h]

/-- GUARDED_WRITE_FIRST at a pair's first word. -/
theorem execGuardedWriteFirst_pair {s : State} {r : Requester} {c : Fin 64} {a : BitVec 39} {v : BitVec 32} {x : RegDef}
    (hn : Names r c a.toNat x) (hkind : x.kind = .pair) (hplace : (x.place a.toNat).2 = 0) (hask : s.dev.mayAsk r = true) :
    exec (.guardedWriteFirst r c a v) s =
      .next (s.commit ((s.begin.guardFirst r 0 a.toNat x v).1.answer r (s.begin.guardFirst r 0 a.toNat x v).2)) := by
  obtain ⟨ha, hin, hx, hdata, haddr, hctx⟩ := hn
  refine guardedAccess_eq (by rw [pairWord_eq_place hx hkind ha hin, hplace]) hask ?_
  rw [Dev.access_one _ _ _ hx ha hin hctx, Dev.directWrite_word _ _ _ _ hx hdata haddr]
  simp [Dev.writeWord, hkind, hplace]

theorem guardedWriteFirst_barred {s : State} {r : Requester} {c : Fin 64} {a : BitVec 39} (v : BitVec 32) {x : RegDef} (hn : Names r c a.toNat x)
    (hkind : x.kind = .pair) (hplace : (x.place a.toNat).2 = 0) (hname : x.name ≠ "STRATA_CTRL") (hask : s.dev.mayAsk r = true)
    (hpend : (s.dev.req (reqIndex r)).pending = none) (hmay : s.dev.mayWriteReg r 0 a.toNat x = false) :
    Quiet (.guardedWriteFirst r c a v) s (s.begin.refusal r) := by
  have hbar : s.begin.writeBarred r 0 a.toNat x = true := writeBarred_of_not_may hmay
  have hguard : s.begin.guardFirst r 0 a.toNat x v = (s.begin.bump Reg.devRegRefused, stACCESS) := by
    simp [Dev.guardFirst, breakGuard_begin_none hpend, hbar, Dev.refuseWrite_of_ne _ _ hname]
  rw [Quiet, execGuardedWriteFirst_pair hn hkind hplace hask, hguard]
  exact congrArg _ (s.commit_quiet _ rfl rfl)

theorem isLatchWord_eq {a : Nat} {x : RegDef} (hx : regAt a = some x) (ha : a % 4 = 0) (hin : a < 0x500000) : isLatchWord a = latches x a := by
  simp [isLatchWord, hx, ha, hin]

theorem xRead_heard {m : Mem} {d : Dev} {r : Requester} {c a n : Nat} (hask : d.mayAsk r = true) :
    xRead r c a n m d = (d.readAccess m r c a n).1.emit
      (.regRead r (BitVec.ofNat 64 (d.readAccess m r c a n).2.2) (BitVec.ofNat 8 (d.readAccess m r c a n).2.1)) := by
  simp [xRead, hask]

/-- A word whose window the request names is read directly. -/
theorem Dev.readAccess_word (d : Dev) (m : Mem) {r : Requester} {c a : Nat} {x : RegDef} (hx : regAt a = some x) (ha : a % 4 = 0)
    (hin : a < 0x500000) (hctx : ctxMatches r c a = true) :
    d.readAccess m r c a 4 = ((d.directRead m r a).1, (d.directRead m r a).2.1, (d.directRead m r a).2.2.toNat) := by
  simp [Dev.readAccess, accessAt_word hx ha hin, hctx]

theorem counterLowRead_barred {s : State} {r : Requester} {c : Fin 64} {a : BitVec 39} {x : RegDef} (hn : Names r c a.toNat x)
    (hlatch : latches x a.toNat = true) (hask : s.dev.mayAsk r = true) (hpend : (s.dev.req (reqIndex r)).pending = none)
    (hmay : s.dev.mayReadReg r 0 a.toNat x = false) :
    Quiet (.counterLowRead r c a) s ((s.begin.bump Reg.devRegRefused).emit (.regRead r 0 2)) := by
  obtain ⟨ha, hin, hx, -, -, hctx⟩ := hn
  have hmay' : s.begin.mayReadReg r 0 a.toNat x = false := hmay
  have hread : s.begin.directRead s.mem r a.toNat = (s.begin.bump Reg.devRegRefused, stACCESS, 0) := by
    simp [Dev.directRead, hx, hmay', breakGuard_begin_none hpend, Dev.noteRefused_access]
  rw [Quiet, exec, execCounterLowRead, State.run_eq]
  rw [if_pos (by rw [isLatchWord_eq hx ha hin, hlatch]), xRead_heard (by rwa [mayAsk_begin]), Dev.readAccess_word _ _ hx ha hin hctx, hread]
  exact congrArg _ (s.commit_quiet _ rfl rfl)

theorem devAdminWrite_host {s : State} {p : Fin 4} (v : BitVec 32) (hask : s.dev.mayAsk (.host p) = true) (hpend : (s.dev.req p).pending = none)
    (hlost : s.dev.lost 4 = false) : Quiet (.devAdminWrite (.host p) v) s (s.begin.refusal (.host p)) := by
  have h := s.runReg_refused (.host p) Reg.devAdmin v (fun _ => isCtx0 (.host p))
    (fun _ d => ({ d with admin := BitVec.ofNat 4 v.toNat }, stOK)) hask hpend (.inl hlost) rfl rfl
  exact h.trans (congrArg _ (s.commit_quiet _ rfl rfl))

theorem devEvtConsWrite_barred {s : State} {r : Requester} (v : BitVec 32) (hask : s.dev.mayAsk r = true)
    (hpend : (s.dev.req (reqIndex r)).pending = none) (hlost : s.dev.lost 4 = false) (hmay : s.dev.ctx0OrAdmin r = false) :
    Quiet (.devEvtConsWrite r v) s (s.begin.refusal r) := by
  have h := s.runReg_refused r Reg.devEvtCons v (fun d => d.ctx0OrAdmin r) (fun _ d => (d.evtConsWrite 64 Reg.devEvtCons v, stOK))
    hask hpend (.inl hlost) hmay hmay
  exact h.trans (congrArg _ (s.commit_quiet _ rfl rfl))

/-- A permitted write that changes RSV bits: ignored and counted behind the lock, else it has no meaning (R409). -/
theorem Dev.commitReg_rsv (d : Dev) (m : Mem) (r : Requester) (x : RegDef) (k : Nat) (v : BitVec 32) (hlost : d.lost 4 = false)
    (hrsv : d.changesRsv k v = true) :
    d.commitReg m r x k v = if d.sec.testLock then some (d.rsvFault r, stOK) else none := by
  simp [Dev.commitReg, hlost, hrsv]

/-- A permitted word is committed as it is where no half is pending. -/
theorem Dev.access_permitted {s : State} {r : Requester} {c a : Nat} {x : RegDef} (v : BitVec 32) (hn : Names r c a x) (hkind : x.kind = .word)
    (hpend : (s.dev.req (reqIndex r)).pending = none) (hbar : s.dev.writeBarred r 0 a x = false) :
    s.begin.access s.mem r c a [v] = s.begin.commitReg s.mem r x a v := by
  obtain ⟨ha, hin, hx, hdata, haddr, hctx⟩ := hn
  rw [Dev.access_one _ _ _ hx ha hin hctx, Dev.directWrite_word _ _ _ _ hx hdata haddr,
    Dev.writeWord_permitted _ _ _ _ _ _ hkind (by rwa [Dev.writeBarred_begin]), breakGuard_begin_none hpend]

theorem registerWrite_rsv {s : State} {r : Requester} {c : Fin 64} {a : BitVec 39} {v : BitVec 32} {x : RegDef} (hn : Names r c a.toNat x)
    (hkind : x.kind = .word) (hask : s.dev.mayAsk r = true) (hpend : (s.dev.req (reqIndex r)).pending = none)
    (hbar : s.dev.writeBarred r 0 a.toNat x = false) (hlost : s.dev.lost 4 = false) (hrsv : s.dev.changesRsv a.toNat v = true)
    (hlock : s.dev.sec.testLock = true) :
    Ends (.registerWrite r c a v) s (fun u => OnlyReq s u r ∧ u.dev.out = [.regDone r 0] ∧
      u.dev.req (reqIndex r) = { s.dev.req (reqIndex r) with rsvFaults := (s.dev.req (reqIndex r)).rsvFaults + 1 }) := by
  have haccess : s.begin.access s.mem r c a.toNat [v] = some (s.begin.rsvFault r, stOK) := by
    rw [Dev.access_permitted v hn hkind hpend hbar, Dev.commitReg_rsv s.begin s.mem r x a.toNat v hlost hrsv]
    exact if_pos hlock
  obtain ⟨ha, hin, hx, -⟩ := hn
  refine ⟨_, execRegisterWrite_word (pairWord_eq_none hx (by simp [hkind])) hask haccess rfl rfl, rfl, ⟨rfl, fun j hj => ?_, rfl⟩, rfl, ?_⟩
  · exact mget_mset_other _ _ _ hj.symm
  · exact mget_mset_same _ _ _ _

theorem registerWrite_rsv_unlocked {s : State} {r : Requester} {c : Fin 64} {a : BitVec 39} {v : BitVec 32} {x : RegDef}
    (hn : Names r c a.toNat x) (hkind : x.kind = .word) (hask : s.dev.mayAsk r = true) (hpend : (s.dev.req (reqIndex r)).pending = none)
    (hbar : s.dev.writeBarred r 0 a.toNat x = false) (hlost : s.dev.lost 4 = false) (hrsv : s.dev.changesRsv a.toNat v = true)
    (hlock : s.dev.sec.testLock = false) : exec (.registerWrite r c a v) s = .refused .testControl := by
  have haccess : s.begin.access s.mem r c a.toNat [v] = none := by
    rw [Dev.access_permitted v hn hkind hpend hbar, Dev.commitReg_rsv s.begin s.mem r x a.toNat v hlost hrsv]
    simp [hlock]
  obtain ⟨ha, hin, hx, -⟩ := hn
  have hpair := pairWord_eq_none hx (by simp [hkind])
  rw [exec, execRegisterWrite, State.access, xWrite_heard (by rwa [mayAsk_begin])]
  simp [hpair, haccess]

/-- Settles O6: each request is followed to the word it names. One that names another window, no register, or a word its requester may not
touch ends before any effect; a permitted one that changes RSV bits ends at the requester's fault counter or, with the lock released, in
the model's refusal (R407, R415 to R417; log entries 86 and 98 for the statuses and for the refusal). -/
theorem barredWritesChangeNothing : Obligations.BarredWritesChangeNothing :=
  ⟨fun _ _ _ _ v _ hn hkind hname hask hpend hmay => registerWrite_barred v hn hkind hname hask hpend hmay,
    fun _ _ _ _ v _ hn hkind hplace hname hask hpend hmay => guardedWriteFirst_barred v hn hkind hplace hname hask hpend hmay,
    fun _ _ _ _ v _ ha hin hx hkind hctx hask hpend => registerWrite_mismatched v ha hin hx hkind hctx hask hpend,
    fun _ _ c _ v hask hpend h => registerWrite_absent c v hask hpend h,
    fun _ _ _ _ _ hn hlatch hask hpend hmay => counterLowRead_barred hn hlatch hask hpend hmay,
    fun _ _ v hask hpend hlost => devAdminWrite_host v hask hpend hlost,
    fun _ _ v hask hpend hlost hmay => devEvtConsWrite_barred v hask hpend hlost hmay,
    fun _ _ _ _ _ _ hn hkind hask hpend hbar hlost hrsv hlock => registerWrite_rsv hn hkind hask hpend hbar hlost hrsv hlock,
    fun _ _ _ _ _ _ hn hkind hask hpend hbar hlost hrsv hlock => registerWrite_rsv_unlocked hn hkind hask hpend hbar hlost hrsv hlock⟩

end Sys2Proof.Machine
end

section
/-! The windows of contexts (R415), and the two halves of a guarded pair (R411). -/

namespace Sys2Proof.Machine

open Sys2Proof.Claims (Quiet Ends OnlyReq Names NamesPair)

/-! Where a word of a context's window lies. -/

theorem keySpaces_ctx {c o : Nat} (hc : c < 64) (ho : o < 0x10000) : keySpaces (ctxWindow c + o) = ([.ctx], o) := by
  have hoff : (ctxWindow c + o - 0x100000) % 0x10000 = o := by unfold ctxWindow; omega
  unfold keySpaces
  rw [if_neg (by unfold ctxWindow; omega), if_pos (by unfold ctxWindow; omega), hoff]

theorem keyCtx_ctx {c o : Nat} (ho : o < 0x10000) : keyCtx (ctxWindow c + o) = c := by
  unfold keyCtx ctxWindow
  omega

theorem windowCtx_ctx {c o : Nat} (ho : o < 0x10000) : windowCtx (ctxWindow c + o) = c := by
  unfold windowCtx
  rw [if_neg (by unfold ctxWindow; omega), keyCtx_ctx ho]

/-- A context's window holds the registers of the context space, at the same offsets for every context. -/
theorem regAt_ctx {c o : Nat} (hc : c < 64) (ho : o < 0x10000) :
    regAt (ctxWindow c + o) = regTable.find? (fun r => r.holds [.ctx] o) := by
  rw [regAt, keySpaces_ctx hc ho]

theorem ctxMatches_ctx (r : Requester) {c o : Nat} (ho : o < 0x10000) : ctxMatches r c (ctxWindow c + o) = true := by
  simp [ctxMatches, windowCtx_ctx ho]

theorem RegDef.place_ctx (x : RegDef) {c o : Nat} (hc : c < 64) (ho : o < 0x10000) :
    x.place (ctxWindow c + o) = dimsIndex x.dims (o - x.off) := by
  rw [RegDef.place, keySpaces_ctx hc ho]

theorem ctxWindow_lt {c o : Nat} (hc : c < 64) (ho : o < 0x10000) : ctxWindow c + o < 0x500000 := by
  unfold ctxWindow
  omega

theorem toNat_ctxWindow {c o : Nat} (hc : c < 64) (ho : o < 0x10000) : (BitVec.ofNat 39 (ctxWindow c + o)).toNat = ctxWindow c + o := by
  have := ctxWindow_lt hc ho
  rw [BitVec.toNat_ofNat, Nat.mod_eq_of_lt (by omega)]

theorem ctxWindow_mod (c o n : Nat) (hn : 0x10000 % n = 0) : (ctxWindow c + o) % n = o % n := by
  obtain ⟨q, hq⟩ := Nat.dvd_of_mod_eq_zero hn
  have hw : ctxWindow c + o = o + n * (q * (c + 16)) := by
    rw [ctxWindow, ← Nat.mul_assoc, ← hq]
    omega
  rw [hw, Nat.add_mul_mod_self_left]

/-! Words without reserved bits. -/

theorem changesRsv_of_mask_zero {k : Nat} (h : rsvMask k = 0) (d : Dev) (v : BitVec 32) : d.changesRsv k v = false := by
  simp [Dev.changesRsv, h]

/-- A word all of whose bits are RW or RWG takes the value written. -/
theorem putReg_of_full {k : Nat} (h : writeMask k = 2 ^ 32 - 1) (d : Dev) (v : BitVec 32) : d.putReg k v = d.setReg k v := by
  have hall : BitVec.ofNat 32 (2 ^ 32 - 1) = BitVec.allOnes 32 := by decide
  simp only [Dev.putReg, h, hall, BitVec.not_allOnes, BitVec.and_zero, BitVec.zero_or, BitVec.and_allOnes]

/-- A permitted write whose reserved bits stay has its effect where IA is there. -/
theorem Dev.commitReg_accepted (d : Dev) (m : Mem) (r : Requester) (x : RegDef) (k : Nat) (v : BitVec 32) (hlost : d.lost 4 = false)
    (hrsv : d.changesRsv k v = false) : d.commitReg m r x k v = some (d.regWrite m r x k v) := by
  simp [Dev.commitReg, hlost, hrsv]

/-! The halves of a pair. -/

theorem Dev.req_setPending (d : Dev) (r : Requester) (p : Option (Nat × BitVec 32)) :
    (d.setPending r p).req (reqIndex r) = { d.req (reqIndex r) with pending := p, failed := none } := Dev.req_setReq_same _ _ _

@[simp] theorem Dev.setPending_counters (d : Dev) (r : Requester) (p : Option (Nat × BitVec 32)) : (d.setPending r p).counters = d.counters := rfl

theorem Dev.req_setPending_other (d : Dev) (r : Requester) (p : Option (Nat × BitVec 32)) {j : Nat} (h : j ≠ reqIndex r) :
    (d.setPending r p).req j = d.req j := mget_mset_other _ _ _ h.symm

theorem Dev.req_guardFault (d : Dev) (r : Requester) : (d.guardFault r).req (reqIndex r) =
    { d.req (reqIndex r) with pending := none, failed := (d.req (reqIndex r)).pending.map (·.1), guardFaults := (d.req (reqIndex r)).guardFaults + 1 } :=
  Dev.req_setReq_same _ _ _

theorem Dev.req_guardFault_other (d : Dev) (r : Requester) {j : Nat} (h : j ≠ reqIndex r) : (d.guardFault r).req j = d.req j :=
  mget_mset_other _ _ _ h.symm

/-- The first half of a permitted pair is held. -/
theorem Dev.guardFirst_permitted (d : Dev) (r : Requester) {via a : Nat} {x : RegDef} (v : BitVec 32) (hbar : d.writeBarred r via a x = false) :
    d.guardFirst r via a x v = ((d.breakGuard r).setPending r (some (a, v)), stOK) := by
  simp [Dev.guardFirst, Dev.writeBarred_breakGuard, hbar]

/-- The complement at the second half commits the value held (R411). -/
theorem Dev.guardSecond_commits (d : Dev) (m : Mem) {r : Requester} {via a : Nat} {x : RegDef} {w : BitVec 32}
    (hbar : d.writeBarred r via a x = false) (hpend : (d.req (reqIndex r)).pending = some (a, w)) :
    d.guardSecond m r via a x (~~~w) = (d.setPending r none).commitReg m r x a w := by
  simp [Dev.guardSecond, hbar, hpend]

/-- Another value at the second half drops the one held. -/
theorem Dev.guardSecond_differs (d : Dev) (m : Mem) {r : Requester} {via a : Nat} {x : RegDef} {v w : BitVec 32}
    (hbar : d.writeBarred r via a x = false) (hpend : (d.req (reqIndex r)).pending = some (a, w)) (hv : v ≠ ~~~w) :
    d.guardSecond m r via a x v = some ((d.guardFault r).setPending r none, stACCESS) := by
  simp [Dev.guardSecond, hbar, hpend, hv]

/-- A second half without a first is a failure, but for one whose failure is counted already. -/
theorem Dev.guardSecond_alone (d : Dev) (m : Mem) {r : Requester} {via a : Nat} {x : RegDef} (v : BitVec 32)
    (hbar : d.writeBarred r via a x = false) (hpend : (d.req (reqIndex r)).pending = none) (hfailed : (d.req (reqIndex r)).failed ≠ some a) :
    d.guardSecond m r via a x v = some (d.guardFault r, stACCESS) := by
  simp [Dev.guardSecond, hbar, hpend, hfailed]

/-- GUARDED_WRITE_SECOND at a pair's second word, of the pair that begins at `b`. -/
theorem execGuardedWriteSecond_pair {s : State} {r : Requester} {c : Fin 64} {a : BitVec 39} {v : BitVec 32} {x : RegDef} {b : Nat}
    (hab : b + 4 = a.toNat) (hb : b % 4 = 0) (hin : a.toNat < 0x500000) (hx : regAt a.toNat = some x) (hkind : x.kind = .pair)
    (hplace : (x.place a.toNat).2 = 4) (hctx : ctxMatches r c a.toNat = true) (hask : s.dev.mayAsk r = true) {y : Dev × Nat}
    (hy : s.begin.guardSecond s.mem r 0 b x v = some y) :
    exec (.guardedWriteSecond r c a v) s = .next (s.commit (y.1.answer r y.2)) := by
  obtain ⟨hdata, haddr⟩ := pair_no_ind x (mem_regTable_of_regAt hx) hkind
  have ha : a.toNat % 4 = 0 := by omega
  refine guardedAccess_eq (by rw [pairWord_eq_place hx hkind ha hin, hplace]) hask ?_
  rw [Dev.access_one _ _ _ hx ha hin hctx, Dev.directWrite_word _ _ _ _ hx hdata haddr]
  have hsub : a.toNat - 4 = b := by omega
  simp [Dev.writeWord, hkind, hplace, hsub, hy]

/-- A command that changes the requester's own copies alone. -/
theorem onlyReq_of_reqs {s : State} {r : Requester} {d : Dev} {l : Map ReqState} {o : Out} {q : ReqState} (hd : d = { s.begin with reqs := l })
    (hq : d.req (reqIndex r) = q) (hother : ∀ j, j ≠ reqIndex r → d.req j = s.dev.req j) :
    OnlyReq s (s.commit (d.emit o)) r ∧ (s.commit (d.emit o)).dev.out = [o] ∧ (s.commit (d.emit o)).dev.req (reqIndex r) = q := by
  subst hd
  exact ⟨⟨s.commit_mem _ rfl rfl, hother, rfl⟩, rfl, hq⟩

theorem guardedWriteFirst_held {s : State} {r : Requester} {c : Fin 64} {a : BitVec 39} (v : BitVec 32) {x : RegDef}
    (h : NamesPair s r c a.toNat x) :
    Ends (.guardedWriteFirst r c a v) s (fun u => OnlyReq s u r ∧ u.dev.out = [.regDone r 0] ∧
      u.dev.req (reqIndex r) = { s.dev.req (reqIndex r) with pending := some (a.toNat, v), failed := none, guardFaults := (s.dev.req (reqIndex r)).guardFaults + (if (s.dev.req (reqIndex r)).pending.isSome then 1 else 0) }) := by
  obtain ⟨hn, -, hkind, hplace, -, hask, hbar⟩ := h
  have hfirst := Dev.guardFirst_permitted s.begin r v hbar
  refine ⟨_, execGuardedWriteFirst_pair hn hkind hplace hask, rfl, ?_⟩
  rw [hfirst]
  obtain ⟨l, hl⟩ := Dev.breakGuard_reqs s.begin r
  refine onlyReq_of_reqs (by rw [hl]; rfl) ?copy fun j hj => ?other
  case copy =>
    rw [Dev.req_setPending, Dev.req_breakGuard]
    by_cases hp : (s.dev.req (reqIndex r)).pending.isSome = true
    · simp [hp]
    · simp [hp]
  case other => rw [Dev.req_setPending_other _ _ _ hj, Dev.req_breakGuard_other _ _ hj, Dev.req_begin]

theorem guardedWriteSecond_differs {s : State} {r : Requester} {c : Fin 64} {a : BitVec 39} {v w : BitVec 32} {x : RegDef} {b : Nat}
    (hab : b + 4 = a.toNat) (h : NamesPair s r c b x) (hctx : ctxMatches r c a.toNat = true) (hin : a.toNat < 0x500000)
    (hpend : (s.dev.req (reqIndex r)).pending = some (b, w)) (hv : v ≠ ~~~w) :
    Ends (.guardedWriteSecond r c a v) s (fun u => OnlyReq s u r ∧ u.dev.out = [.regDone r 2] ∧
      u.dev.req (reqIndex r) = { s.dev.req (reqIndex r) with pending := none, failed := none, guardFaults := (s.dev.req (reqIndex r)).guardFaults + 1 }) := by
  obtain ⟨⟨hb, -⟩, hx, hkind, -, hplace, hask, hbar⟩ := h
  rw [hab] at hx hplace
  refine ⟨_, execGuardedWriteSecond_pair hab hb hin hx hkind hplace hctx hask (Dev.guardSecond_differs s.begin s.mem hbar hpend hv), rfl, ?_⟩
  refine onlyReq_of_reqs rfl ?copy fun j hj => ?other
  case copy => rw [Dev.req_setPending, Dev.req_guardFault, Dev.req_begin]
  case other => rw [Dev.req_setPending_other _ _ _ hj, Dev.req_guardFault_other _ _ hj, Dev.req_begin]

theorem guardedWriteSecond_alone {s : State} {r : Requester} {c : Fin 64} {a : BitVec 39} (v : BitVec 32) {x : RegDef} {b : Nat}
    (hab : b + 4 = a.toNat) (h : NamesPair s r c b x) (hctx : ctxMatches r c a.toNat = true) (hin : a.toNat < 0x500000)
    (hpend : (s.dev.req (reqIndex r)).pending = none) (hfailed : (s.dev.req (reqIndex r)).failed ≠ some b) :
    Ends (.guardedWriteSecond r c a v) s (fun u => OnlyReq s u r ∧ u.dev.out = [.regDone r 2] ∧
      u.dev.req (reqIndex r) = { s.dev.req (reqIndex r) with failed := none, guardFaults := (s.dev.req (reqIndex r)).guardFaults + 1 }) := by
  obtain ⟨⟨hb, -⟩, hx, hkind, -, hplace, hask, hbar⟩ := h
  rw [hab] at hx hplace
  refine ⟨_, execGuardedWriteSecond_pair hab hb hin hx hkind hplace hctx hask (Dev.guardSecond_alone s.begin s.mem v hbar hpend hfailed), rfl, ?_⟩
  refine onlyReq_of_reqs rfl ?copy fun j hj => ?other
  case copy => rw [Dev.req_guardFault, Dev.req_begin]; simp [hpend]
  case other => rw [Dev.req_guardFault_other _ _ hj, Dev.req_begin]

theorem guardTimeout_pending {s : State} {r : Requester} {b : Nat} {v : BitVec 32} (hpend : (s.dev.req (reqIndex r)).pending = some (b, v)) :
    Ends (.guardTimeout r) s (fun u => OnlyReq s u r ∧ u.dev.out = [] ∧
      u.dev.req (reqIndex r) = { s.dev.req (reqIndex r) with pending := none, failed := some b, guardFaults := (s.dev.req (reqIndex r)).guardFaults + 1 }) := by
  have hbreak : s.begin.breakGuard r = s.begin.guardFault r := by rw [Dev.breakGuard_eq, Dev.req_begin, hpend]; rfl
  have hexec : exec (.guardTimeout r) s = .next (s.commit (s.begin.guardFault r)) := by
    rw [← hbreak]; rfl
  refine ⟨_, hexec, rfl, ⟨s.commit_mem _ rfl rfl, fun j hj => ?_, rfl⟩, rfl, ?_⟩
  · exact Dev.req_guardFault_other s.begin r hj
  · rw [Dev.req_commit, Dev.req_guardFault, Dev.req_begin, hpend]; rfl

theorem guardTimeout_idle {s : State} {r : Requester} (hpend : (s.dev.req (reqIndex r)).pending = none) : Quiet (.guardTimeout r) s s.begin := by
  rw [Quiet, exec, execGuardTimeout, State.run_eq, breakGuard_begin_none hpend]
  exact congrArg _ (s.commit_quiet _ rfl rfl)

/-! The keyed generator's seed: a guarded pair of each context (R411, Table 4.11). -/

/-- CTX_RNG_SEED_LO. -/
def rngSeedLo : RegDef := ⟨"CTX_RNG_SEED_LO", .ctx, 0x100, [], .pair, [⟨"SEED_LO", 31, 0, .rwg, 0⟩]⟩

/-- CTX_RNG_SEED_HI. -/
def rngSeedHi : RegDef := ⟨"CTX_RNG_SEED_HI", .ctx, 0x108, [], .pair, [⟨"SEED_HI", 31, 0, .rwg, 0⟩]⟩

theorem rngSeed_found : regTable.find? (fun r => r.holds [.ctx] 0x100) = some rngSeedLo ∧
    regTable.find? (fun r => r.holds [.ctx] 0x104) = some rngSeedLo ∧ regTable.find? (fun r => r.holds [.ctx] 0x108) = some rngSeedHi ∧
    regTable.find? (fun r => r.holds [.ctx] 0x10c) = some rngSeedHi := by decide +kernel

theorem regAt_rngSeedLo {c : Nat} (hc : c < 64) : regAt (ctxWindow c + 0x100) = some rngSeedLo := by
  rw [regAt_ctx hc (by decide)]; exact rngSeed_found.1

theorem regAt_rngSeedLo_second {c : Nat} (hc : c < 64) : regAt (ctxWindow c + 0x104) = some rngSeedLo := by
  rw [regAt_ctx hc (by decide)]; exact rngSeed_found.2.1

theorem regAt_rngSeedHi {c : Nat} (hc : c < 64) : regAt (ctxWindow c + 0x108) = some rngSeedHi := by
  rw [regAt_ctx hc (by decide)]; exact rngSeed_found.2.2.1

theorem regAt_rngSeedHi_second {c : Nat} (hc : c < 64) : regAt (ctxWindow c + 0x10c) = some rngSeedHi := by
  rw [regAt_ctx hc (by decide)]; exact rngSeed_found.2.2.2

/-- A seed word, all of it RWG, takes the value committed. -/
theorem commitReg_rngSeed (d : Dev) (m : Mem) (r : Requester) {c : Nat} (hc : c < 64) {o : Nat} {x : RegDef}
    (ho : (o = 0x100 ∧ x = rngSeedLo) ∨ (o = 0x108 ∧ x = rngSeedHi)) (v : BitVec 32) (hlost : d.lost 4 = false) :
    d.commitReg m r x (ctxWindow c + o) v = some (d.setReg (ctxWindow c + o) v, stOK) := by
  have hregs : regAt (ctxWindow c + o) = some x ∧ x.fields.length = 1 ∧ rsvMask (ctxWindow c + o) = 0 ∧ writeMask (ctxWindow c + o) = 2 ^ 32 - 1 := by
    rcases ho with ⟨rfl, rfl⟩ | ⟨rfl, rfl⟩
    · simp only [rsvMask, writeMask, regAt_rngSeedLo hc]; exact ⟨trivial, rfl, rfl, rfl⟩
    · simp only [rsvMask, writeMask, regAt_rngSeedHi hc]; exact ⟨trivial, rfl, rfl, rfl⟩
  obtain ⟨-, -, hrsv, hmask⟩ := hregs
  rw [Dev.commitReg_accepted d m r _ _ v hlost (changesRsv_of_mask_zero hrsv d v)]
  have hput := putReg_of_full hmask d v
  rcases ho with ⟨-, rfl⟩ | ⟨-, rfl⟩
  · rw [← hput]; rfl
  · rw [← hput]; rfl

theorem writeBarred_rngSeed {d : Dev} {r : Requester} {c o : Nat} (ho : o < 0x10000) {x : RegDef} (hx : x = rngSeedLo ∨ x = rngSeedHi)
    (hmay : d.mayWriteCtx r c = true) : d.writeBarred r 0 (ctxWindow c + o) x = false := by
  have hkey := keyCtx_ctx (c := c) ho
  rcases hx with rfl | rfl
  · simp [Dev.writeBarred, Dev.mayWriteReg, rngSeedLo, hkey, hmay]
  · simp [Dev.writeBarred, Dev.mayWriteReg, rngSeedHi, hkey, hmay]

/-- The complement of the seed's lower half commits it. -/
theorem guardedWriteSecond_rngSeedLo {s : State} {r : Requester} {c : Fin 64} {v : BitVec 32} (hask : s.dev.mayAsk r = true)
    (hlost : s.dev.lost 4 = false) (hpend : (s.dev.req (reqIndex r)).pending = some (Reg.ctxRngSeedLo c, v)) (hmay : s.dev.mayWriteCtx r c = true) :
    Ends (.guardedWriteSecond r c (BitVec.ofNat 39 (Reg.ctxRngSeedLo c + 4)) (~~~v)) s (fun u => u.dev.reg (Reg.ctxRngSeedLo c) = v ∧
      (∀ k, k ≠ Reg.ctxRngSeedLo c → u.dev.reg k = s.dev.reg k) ∧ (u.dev.req (reqIndex r)).pending = none ∧
      (u.dev.req (reqIndex r)).guardFaults = (s.dev.req (reqIndex r)).guardFaults ∧ u.dev.out = [.regDone r 0] ∧ u.mem = s.mem ∧
      u.dev.tiles = s.dev.tiles ∧ u.dev.ctxs = s.dev.ctxs ∧ u.dev.counters = s.dev.counters) := by
  have hnat : (BitVec.ofNat 39 (Reg.ctxRngSeedLo c + 4)).toNat = ctxWindow c + 0x104 := toNat_ctxWindow c.isLt (o := 0x104) (by decide)
  have hx : regAt (BitVec.ofNat 39 (Reg.ctxRngSeedLo c + 4)).toNat = some rngSeedLo := by rw [hnat]; exact regAt_rngSeedLo_second c.isLt
  have hsecond : s.begin.guardSecond s.mem r 0 (Reg.ctxRngSeedLo c) rngSeedLo (~~~v) =
      some ((s.begin.setPending r none).setReg (Reg.ctxRngSeedLo c) v, stOK) := by
    have hbar : s.begin.writeBarred r 0 (Reg.ctxRngSeedLo c) rngSeedLo = false := writeBarred_rngSeed (by decide) (.inl rfl) hmay
    rw [Dev.guardSecond_commits s.begin s.mem hbar hpend]
    exact commitReg_rngSeed _ _ _ c.isLt (.inl ⟨rfl, rfl⟩) v hlost
  refine ⟨_, execGuardedWriteSecond_pair (b := Reg.ctxRngSeedLo c) hnat.symm ?aligned ?inside hx rfl ?place ?window hask hsecond, rfl, ?value, ?others, ?_⟩
  case aligned => exact ctxWindow_mod c 0x100 4 (by decide)
  case inside => rw [hnat]; exact ctxWindow_lt c.isLt (by decide)
  case place => rw [hnat, RegDef.place_ctx _ c.isLt (by decide)]; rfl
  case window => rw [hnat]; exact ctxMatches_ctx r (by decide)
  case value => exact Dev.reg_setReg_same _ _ _
  case others => exact fun k hk => mget_mset_other _ _ _ hk.symm
  refine ⟨?_, ?_, rfl, s.commit_mem _ rfl rfl, rfl, rfl, rfl⟩
  · exact congrArg ReqState.pending (Dev.req_setPending s.begin r none)
  · have hreq := Dev.req_setPending s.begin r none
    exact (congrArg ReqState.guardFaults hreq :)

/-- Where the first word of a request counts no refusal, the second's count stands. -/
theorem refusedOnce_of_same {a b : Dev} (h : b.counters = a.counters) (d : Dev) : refusedOnce a b d = d := by
  simp [refusedOnce, Dev.count, h]

/-- The 8-byte write of a permitted pair holds its first half, then commits it (R408, R411). -/
theorem Dev.access_pair_commits (d : Dev) (m : Mem) {r : Requester} {c a : Nat} {x : RegDef} {v : BitVec 32} {e : Dev} (hx : regAt a = some x)
    (hx' : regAt (a + 4) = some x) (hkind : x.kind = .pair) (hplace : (x.place a).2 = 0) (hplace' : (x.place (a + 4)).2 = 4) (ha : a % 8 = 0)
    (hin : a < 0x500000) (hctx : ctxMatches r c a = true) (hbar : ∀ k, k = a ∨ k = a + 4 → d.writeBarred r 0 k x = false)
    (hpend : (d.req (reqIndex r)).pending = none)
    (hcommit : ((d.setPending r (some (a, v))).setPending r none).commitReg m r x a v = some (e, stOK)) :
    d.access m r c a [v, ~~~v] = some (e, stOK) := by
  obtain ⟨hdata, haddr⟩ := pair_no_ind x (mem_regTable_of_regAt hx) hkind
  have hat : accessAt a (4 * [v, ~~~v].length) = some x := by
    unfold accessAt
    rw [if_neg (by omega), hx]
    simp [hdata, ha, hx']
  have hfirst : d.directWrite m r a v = some (d.setPending r (some (a, v)), stOK) := by
    rw [Dev.directWrite_word _ _ _ _ hx hdata haddr]
    simp [Dev.writeWord, hkind, hplace, Dev.guardFirst_permitted d r v (hbar a (.inl rfl)), breakGuard_none d r hpend]
  have hheld : ((d.setPending r (some (a, v))).req (reqIndex r)).pending = some (a, v) :=
    congrArg ReqState.pending (Dev.req_setPending d r (some (a, v)))
  have hsecond : (d.setPending r (some (a, v))).directWrite m r (a + 4) (~~~v) = some (e, stOK) := by
    rw [Dev.directWrite_word _ _ _ _ hx' hdata haddr]
    simp only [Dev.writeWord, hkind, hplace', Nat.add_sub_cancel]
    exact (Dev.guardSecond_commits (d.setPending r (some (a, v))) m (hbar a (.inl rfl)) hheld).trans hcommit
  unfold Dev.access
  rw [hat]
  simp [hctx, hdata, hx, hx', hbar a (.inl rfl), hbar (a + 4) (.inr rfl), hfirst, hsecond, refusedOnce_of_same (d.setPending_counters r _)]

/-- REGISTER_WRITE at the first word of a pair is the 8-byte write of the value and its complement. -/
theorem execRegisterWrite_pair {s : State} {r : Requester} {c : Fin 64} {a : BitVec 39} {v : BitVec 32} (hpair : pairWord a.toNat = some 0)
    (hask : s.dev.mayAsk r = true) {y : Dev × Nat} (h : s.begin.access s.mem r c a.toNat [v, ~~~v] = some y) :
    exec (.registerWrite r c a v) s = .next (s.commit (y.1.answer r y.2)) := by
  rw [exec, execRegisterWrite, State.access, if_pos hpair, xWrite_heard (by rwa [mayAsk_begin]), h]
  rfl

/-- REGISTER_WRITE at the first word of the seed's upper half is the whole pair. -/
theorem registerWrite_rngSeedHi {s : State} {r : Requester} {c : Fin 64} (v : BitVec 32) (hask : s.dev.mayAsk r = true)
    (hlost : s.dev.lost 4 = false) (hmay : s.dev.mayWriteCtx r c = true) (hpend : (s.dev.req (reqIndex r)).pending = none) :
    Ends (.registerWrite r c (BitVec.ofNat 39 (Reg.ctxRngSeedHi c)) v) s (fun u => u.dev.reg (Reg.ctxRngSeedHi c) = v ∧
      (∀ k, k ≠ Reg.ctxRngSeedHi c → u.dev.reg k = s.dev.reg k) ∧ (u.dev.req (reqIndex r)).pending = none ∧ u.dev.out = [.regDone r 0] ∧ u.mem = s.mem ∧
      u.dev.tiles = s.dev.tiles ∧ u.dev.ctxs = s.dev.ctxs ∧ u.dev.counters = s.dev.counters) := by
  have hnat : (BitVec.ofNat 39 (Reg.ctxRngSeedHi c)).toNat = ctxWindow c + 0x108 := toNat_ctxWindow c.isLt (by decide)
  have hplace : (rngSeedHi.place (ctxWindow c + 0x108)).2 = 0 := by rw [RegDef.place_ctx _ c.isLt (by decide)]; rfl
  have hplace' : (rngSeedHi.place (ctxWindow c + 0x10c)).2 = 4 := by rw [RegDef.place_ctx _ c.isLt (by decide)]; rfl
  have hin : ctxWindow c + 0x108 < 0x500000 := ctxWindow_lt c.isLt (by decide)
  have haccess : s.begin.access s.mem r c (ctxWindow c + 0x108) [v, ~~~v] =
      some (((s.begin.setPending r (some (ctxWindow c + 0x108, v))).setPending r none).setReg (ctxWindow c + 0x108) v, stOK) := by
    refine Dev.access_pair_commits _ _ (regAt_rngSeedHi c.isLt) (regAt_rngSeedHi_second c.isLt) rfl hplace hplace' (ctxWindow_mod c 0x108 8 (by decide))
      hin (ctxMatches_ctx r (by decide)) ?_ hpend (commitReg_rngSeed _ _ _ c.isLt (.inr ⟨rfl, rfl⟩) v hlost)
    rintro k (rfl | rfl)
    · exact writeBarred_rngSeed (by decide) (.inr rfl) hmay
    · exact writeBarred_rngSeed (o := 0x10c) (by decide) (.inr rfl) hmay
  have hpair : pairWord (ctxWindow c + 0x108) = some 0 := by
    rw [pairWord_eq_place (regAt_rngSeedHi c.isLt) rfl (ctxWindow_mod c 0x108 4 (by decide)) hin, hplace]
  rw [← hnat] at hpair
  have hexec := execRegisterWrite_pair hpair hask ((congrArg (fun a => s.begin.access s.mem r c a [v, ~~~v]) hnat).trans haccess)
  refine ⟨_, hexec, rfl, Dev.reg_setReg_same _ _ _, fun k hk => mget_mset_other _ _ _ hk.symm, ?_, rfl, s.commit_mem _ rfl rfl, rfl, rfl, rfl⟩
  exact congrArg ReqState.pending (Dev.req_setPending (s.begin.setPending r _) r none)

/-- Settles O7: a first half is held, a second half is matched against what is held, and either side's failure is the requester's one guard
fault (R411; log entry 86 for the bookkeeping of a failed half, log entry 88 for REGISTER_WRITE as a whole pair). -/
theorem guardedPairsCommitOrFail : Obligations.GuardedPairsCommitOrFail :=
  ⟨fun _ _ _ _ v _ h => guardedWriteFirst_held v h,
    fun _ _ _ _ _ _ _ _ hab h hctx hin hpend hv => guardedWriteSecond_differs hab h hctx hin hpend hv,
    fun _ _ _ _ v _ _ hab h hctx hin hpend hfailed => guardedWriteSecond_alone v hab h hctx hin hpend hfailed,
    fun _ _ _ _ hask _ hlost hpend hmay => guardedWriteSecond_rngSeedLo hask hlost hpend hmay,
    fun _ _ _ v hask hlost hmay hpend => registerWrite_rngSeedHi v hask hlost hmay hpend,
    fun _ _ _ _ hpend => guardTimeout_pending hpend, fun _ _ hpend => guardTimeout_idle hpend⟩

end Sys2Proof.Machine
end

section
/-! Noninterference of windows (R415 to R417, R420): what a host port that does not own a context can do by a register write to the
context's window. -/

namespace Sys2Proof.Machine

open Sys2Proof.Claims (Ends)

/-- A device without the requesters' own copies, the counters and the outputs. -/
def Dev.sansOwn (d : Dev) : Dev := { d with reqs := [], counters := [], out := [] }

/-- From `d` to `e` nothing has changed but requester `j`'s own copies, DEV_REG_REFUSED and the outputs. -/
def OwnOnly (j : Nat) (d e : Dev) : Prop :=
  e.sansOwn = d.sansOwn ∧ (∀ k, k ≠ Reg.devRegRefused → e.count k = d.count k) ∧ ∀ i, i ≠ j → e.req i = d.req i

theorem OwnOnly.refl (j : Nat) (d : Dev) : OwnOnly j d d := ⟨rfl, fun _ _ => rfl, fun _ _ => rfl⟩

theorem OwnOnly.trans {j : Nat} {a b c : Dev} (h : OwnOnly j a b) (h' : OwnOnly j b c) : OwnOnly j a c := by
  obtain ⟨hdev, hcount, hreq⟩ := h
  obtain ⟨hdev', hcount', hreq'⟩ := h'
  exact ⟨hdev'.trans hdev, fun k hk => (hcount' k hk).trans (hcount k hk), fun i hi => (hreq' i hi).trans (hreq i hi)⟩

theorem OwnOnly.setReq (j : Nat) (d : Dev) (q : ReqState) : OwnOnly j d (d.setReq j q) :=
  ⟨rfl, fun _ _ => rfl, fun _ hi => mget_mset_other _ _ _ hi.symm⟩

theorem OwnOnly.bump_refused (j : Nat) (d : Dev) : OwnOnly j d (d.bump Reg.devRegRefused) :=
  ⟨rfl, fun _ hk => mget_mset_other _ _ _ hk.symm, fun _ _ => rfl⟩

theorem OwnOnly.noteRefused (j : Nat) (d : Dev) : OwnOnly j d (d.noteRefused stACCESS) := OwnOnly.bump_refused j d

theorem OwnOnly.answer (j : Nat) (d : Dev) (r : Requester) (st : Nat) : OwnOnly j d (d.answer r st) :=
  ⟨rfl, fun _ _ => rfl, fun _ _ => rfl⟩

theorem OwnOnly.breakGuard (d : Dev) (r : Requester) : OwnOnly (reqIndex r) d (d.breakGuard r) := by
  rw [Dev.breakGuard_eq]
  split
  · exact OwnOnly.setReq _ _ _
  · exact OwnOnly.refl _ _

theorem OwnOnly.refuseWrite (j : Nat) (d : Dev) {x : RegDef} (v : BitVec 32) (h : x.name ≠ "STRATA_CTRL") :
    OwnOnly j d (d.refuseWrite x v).1 := by
  rw [Dev.refuseWrite_of_ne d v h]
  exact OwnOnly.bump_refused j d

theorem OwnOnly.advance (d : Dev) (r : Requester) (w : Nat) : OwnOnly (reqIndex r) d (d.advance r w) := OwnOnly.setReq _ _ _

theorem OwnOnly.refusedOnce (j : Nat) (a b d : Dev) : OwnOnly j d (refusedOnce a b d) := by
  unfold Machine.refusedOnce
  split
  · exact OwnOnly.refl j d
  · exact ⟨rfl, fun _ hk => mget_mset_other _ _ _ hk.symm, fun _ _ => rfl⟩

theorem OwnOnly.ite {j : Nat} {d e e' : Dev} {P : Prop} [Decidable P] (h : OwnOnly j d e) (h' : OwnOnly j d e') :
    OwnOnly j d (if P then e else e') := by
  split
  · exact h
  · exact h'

/-- A barred word, first or second of a pair or none, is refused. -/
theorem ownOnly_writeWord_barred {d : Dev} (m : Mem) {r : Requester} {via k : Nat} {x : RegDef} (v : BitVec 32)
    (hbar : d.writeBarred r via k x = true) (hsecond : (x.place k).2 ≠ 0 → d.writeBarred r via (k - 4) x = true)
    (hname : x.name ≠ "STRATA_CTRL") : ∃ y, d.writeWord m r via k x v = some y ∧ OwnOnly (reqIndex r) d y.1 := by
  by_cases hkind : x.kind = .pair
  case neg => exact ⟨_, d.writeWord_barred m r via k v hkind hbar, (OwnOnly.breakGuard d r).trans (OwnOnly.refuseWrite _ _ _ hname)⟩
  case pos =>
    simp only [Dev.writeWord, hkind]
    by_cases hfirst : (x.place k).2 = 0
    case pos =>
      refine ⟨_, if_pos hfirst, ?_⟩
      simp only [Dev.guardFirst, Dev.writeBarred_breakGuard, hbar, if_true]
      exact (OwnOnly.breakGuard d r).trans (OwnOnly.refuseWrite _ _ _ hname)
    case neg =>
      simp only [if_neg hfirst, Dev.guardSecond, hsecond hfirst, if_true]
      refine ⟨_, rfl, OwnOnly.trans ?_ ((OwnOnly.setReq _ _ _).trans (OwnOnly.refuseWrite _ _ _ hname))⟩
      exact OwnOnly.ite (OwnOnly.refl _ d) (OwnOnly.breakGuard d r)

/-! Which registers a window holds, and which its IND pair reaches. -/

theorem regAt_space {k : Nat} {x : RegDef} (h : regAt k = some x) : x.space ∈ (keySpaces k).1 := by
  unfold regAt at h
  have hholds := List.find?_some h
  simp only [RegDef.holds, Bool.and_eq_true, List.contains_iff_mem] at hholds
  exact hholds.1.1

theorem strataCtrl_space : ∀ x ∈ regTable, x.name = "STRATA_CTRL" → x.space = .pkg := by decide +kernel

/-- A register of a context's window. -/
theorem regAt_window {a : Nat} {x : RegDef} (hlo : 0x100000 ≤ a) (hhi : a < 0x500000) (hx : regAt a = some x) :
    x.space = .ctx ∧ x.name ≠ "STRATA_CTRL" := by
  have hspace : x.space = .ctx := by
    have h := regAt_space hx
    unfold keySpaces at h
    rw [if_neg (by omega), if_pos hhi] at h
    simpa using h
  exact ⟨hspace, fun h => by simpa [hspace] using strataCtrl_space x (mem_regTable_of_regAt hx) h⟩

/-- The spaces behind the IND pairs are the tiles' and the dies'. -/
theorem keySpaces_indirect {k : Nat} (hk : 0x10000000 ≤ k) : ∀ sp ∈ (keySpaces k).1, sp ∈ [.tile, .cdie, .iodie, .die] := by
  have hpkg : ¬ k < 0x100000 := by omega
  have hctx : ¬ k < 0x500000 := by omega
  simp only [keySpaces, if_neg hpkg, if_neg hctx, if_neg hk.not_gt]
  split_ifs <;> simp

/-- A register that an IND pair reaches is a tile's or a die's. -/
theorem regAt_indirect {k : Nat} {x : RegDef} (hk : 0x10000000 ≤ k) (hx : regAt k = some x) :
    x.space ≠ .pkg ∧ x.space ≠ .ctx ∧ x.name ≠ "STRATA_CTRL" := by
  have hspace := keySpaces_indirect hk x.space (regAt_space hx)
  have hpkg : x.space ≠ .pkg := fun h => by simp [h] at hspace
  exact ⟨hpkg, fun h => by simp [h] at hspace, fun h => hpkg (strataCtrl_space x (mem_regTable_of_regAt hx) h)⟩

theorem indTarget_reaches {d : Dev} {r : Requester} {w k : Nat} {x : RegDef} (h : d.indTarget r w = .inl (x, k)) :
    0x10000000 ≤ k ∧ regAt k = some x := by
  simp only [Dev.indTarget] at h
  split at h
  · cases h
  · split at h
    · cases h
    · split at h
      · cases h
      · split at h
        · next y hy =>
          split at h
          · cases h
            exact ⟨by unfold indBlock; omega, hy⟩
          · cases h
        · cases h

/-- A host port may write no tile through the IND pair of a window that it does not own, and no die through any (R420). -/
theorem writeBarred_indirect {d : Dev} {p : Fin 4} {w : Nat} {x : RegDef} (hw : w < 64) (hown : d.isOwner (.host p) w = false)
    (hspace : x.space ≠ .pkg ∧ x.space ≠ .ctx) (k : Nat) : d.writeBarred (.host p) (w + 1) k x = true := by
  refine writeBarred_of_not_may ?_
  have hvia : w + 1 ≠ 65 := by omega
  unfold Dev.mayWriteReg
  cases hs : x.space with
  | pkg => exact absurd hs hspace.1
  | ctx => exact absurd hs hspace.2
  | tile => simp [hvia, isCtx0, Dev.mayWriteTile, hown]
  | cdie | iodie | die => simp; omega

theorem ownOnly_indWrite {d : Dev} (m : Mem) {p : Fin 4} {w : Nat} (v : BitVec 32) (hw : w < 64) (hown : d.isOwner (.host p) w = false) :
    ∃ y, d.indWrite m (.host p) w v = some y ∧ OwnOnly p d y.1 := by
  unfold Dev.indWrite
  split
  · next st _ =>
    refine ⟨_, rfl, (OwnOnly.breakGuard d (.host p)).trans (OwnOnly.trans ?_ (OwnOnly.advance _ (.host p) w))⟩
    unfold Dev.noteRefused Dev.bumpIf
    split
    · exact OwnOnly.bump_refused _ _
    · exact OwnOnly.refl _ _
  · next x k htarget =>
    obtain ⟨hk, hx⟩ := indTarget_reaches htarget
    obtain ⟨hpkg, hctx, hname⟩ := regAt_indirect hk hx
    obtain ⟨y, hy, hframe⟩ := ownOnly_writeWord_barred (d := d) m (r := .host p) (via := w + 1) (k := k) v
      (writeBarred_indirect hw hown ⟨hpkg, hctx⟩ k)
      (fun _ => writeBarred_indirect hw hown ⟨hpkg, hctx⟩ (k - 4)) hname
    exact ⟨_, by rw [hy]; rfl, hframe.trans (OwnOnly.advance _ (.host p) w)⟩

/-- A host port may write no word of a window that it does not own but the window's IND_ADDR, its own copy (Table 14.4). -/
theorem writeBarred_window {d : Dev} {p : Fin 4} {k : Nat} {x : RegDef} (hspace : x.space = .ctx) (hname : x.name ≠ "CTX_IND_ADDR")
    (hown : d.isOwner (.host p) (keyCtx k) = false) : d.writeBarred (.host p) 0 k x = true := by
  refine writeBarred_of_not_may ?_
  simp [Dev.mayWriteReg, hspace, hname, Dev.mayWriteCtx, isCtx0, hown]

theorem dimsIndex_zero : ∀ l : List (Nat × Nat), (dimsIndex l 0).2 = 0
  | [] => rfl
  | (_, s) :: l => by simp [dimsIndex, dimsIndex_zero l]

/-- The second word of a pair of a window lies behind a word of the same window. -/
theorem keyCtx_second {a : Nat} {x : RegDef} (hlo : 0x100000 ≤ a) (hhi : a < 0x500000) (ha : a % 4 = 0)
    (hsecond : (x.place a).2 ≠ 0) : keyCtx (a - 4) = keyCtx a := by
  have hspaces : keySpaces a = ([.ctx], (a - 0x100000) % 0x10000) := by
    unfold keySpaces
    rw [if_neg (by omega), if_pos hhi]
  have hoff : (a - 0x100000) % 0x10000 ≠ 0 := by
    intro hzero
    refine hsecond ?_
    rw [RegDef.place, hspaces, hzero, Nat.zero_sub, dimsIndex_zero]
  unfold keyCtx
  omega

/-- A word written to a window by a host port that does not own it. -/
theorem ownOnly_directWrite {d : Dev} (m : Mem) {p : Fin 4} {a : Nat} (v : BitVec 32) (hlo : 0x100000 ≤ a) (hhi : a < 0x500000)
    (ha : a % 4 = 0) (hown : d.isOwner (.host p) (keyCtx a) = false) (hlock : d.sec.testLock = true) :
    ∃ y, d.directWrite m (.host p) a v = some y ∧ OwnOnly p d y.1 := by
  have hwindow : indWindow a = keyCtx a := by unfold indWindow; rw [if_neg (by omega)]
  have hw : indWindow a < 64 := by rw [hwindow]; unfold keyCtx; omega
  unfold Dev.directWrite
  split
  · exact ⟨_, rfl, OwnOnly.breakGuard d (.host p)⟩
  · next x hx =>
    obtain ⟨hspace, hname⟩ := regAt_window hlo hhi hx
    split
    · split
      · exact ownOnly_indWrite m v hw (by rwa [hwindow])
      · exact ⟨_, rfl, (OwnOnly.breakGuard d (.host p)).trans (OwnOnly.noteRefused _ _)⟩
    · split
      · simp only [Dev.breakGuard_sec, hlock, if_true]
        split
        · exact ⟨_, rfl, (OwnOnly.breakGuard d (.host p)).trans (OwnOnly.noteRefused _ _)⟩
        · split
          · exact ⟨_, rfl, (OwnOnly.breakGuard d (.host p)).trans (OwnOnly.setReq _ _ _)⟩
          · exact ⟨_, rfl, (OwnOnly.breakGuard d (.host p)).trans (OwnOnly.setReq _ _ _)⟩
      · next haddr =>
        have hnot : x.name ≠ "CTX_IND_ADDR" := fun h => haddr (by simp [isIndAddr, h])
        exact ownOnly_writeWord_barred m v (writeBarred_window hspace hnot hown)
          (fun hsecond => writeBarred_window hspace hnot (by rwa [keyCtx_second hlo hhi ha hsecond])) hname

/-- A 4-byte write to a window by a host port that does not own it. -/
theorem ownOnly_access_one {d : Dev} (m : Mem) {p : Fin 4} (c : Nat) {a : Nat} (v : BitVec 32) (hlo : 0x100000 ≤ a) (hhi : a < 0x500000)
    (hown : d.isOwner (.host p) (keyCtx a) = false) (hlock : d.sec.testLock = true) :
    ∃ y, d.access m (.host p) c a [v] = some y ∧ OwnOnly p d y.1 := by
  by_cases ha : a % 4 = 0
  case neg => exact ⟨_, d.access_one_absent m (.host p) c v (.inl ha), OwnOnly.breakGuard d (.host p)⟩
  case pos =>
    cases hx : regAt a with
    | none => exact ⟨_, d.access_one_absent m (.host p) c v (.inr (.inr hx)), OwnOnly.breakGuard d (.host p)⟩
    | some x =>
      cases hctx : ctxMatches (.host p) c a with
      | false => exact ⟨_, d.access_one_mismatched m v hx ha hhi hctx, (OwnOnly.breakGuard d (.host p)).trans (OwnOnly.noteRefused _ _)⟩
      | true =>
        rw [d.access_one m v hx ha hhi hctx]
        exact ownOnly_directWrite m v hlo hhi ha hown hlock

theorem accessAt_regAt {a n : Nat} {x : RegDef} (h : accessAt a n = some x) : regAt a = some x := by
  unfold accessAt at h
  split at h
  · cases h
  · cases hx : regAt a with
    | none => rw [hx] at h; cases h
    | some y =>
      rw [hx] at h
      simp only at h
      split_ifs at h <;> exact h

/-- An 8-byte write of a guarded pair of a window by a host port that does not own it is refused whole. -/
theorem ownOnly_access_pair {d : Dev} (m : Mem) {p : Fin 4} (c : Nat) {a : Nat} (v w : BitVec 32) (hlo : 0x100000 ≤ a) (hhi : a < 0x500000)
    (hpair : pairWord a = some 0) (hown : d.isOwner (.host p) (keyCtx a) = false) :
    ∃ y, d.access m (.host p) c a [v, w] = some y ∧ OwnOnly p d y.1 := by
  obtain ⟨-, -, x, hx, hkind, -⟩ := pairWord_eq_some hpair
  obtain ⟨hspace, hname⟩ := regAt_window hlo hhi hx
  obtain ⟨hdata, haddr⟩ := pair_no_ind x (mem_regTable_of_regAt hx) hkind
  have hnot : x.name ≠ "CTX_IND_ADDR" := fun h => by simp [isIndAddr, h] at haddr
  have hbar : d.writeBarred (.host p) 0 a x = true := writeBarred_window hspace hnot hown
  unfold Dev.access
  cases hat : accessAt a (4 * [v, w].length) with
  | none => exact ⟨_, rfl, OwnOnly.breakGuard d (.host p)⟩
  | some z =>
    have hz : z = x := by
      have hmem := accessAt_regAt hat
      rw [hx] at hmem
      exact (Option.some.inj hmem).symm
    subst hz
    simp only [hx, hdata, hbar]
    split
    · exact ⟨_, rfl, (OwnOnly.breakGuard d (.host p)).trans (OwnOnly.noteRefused _ _)⟩
    · exact ⟨_, rfl, (OwnOnly.breakGuard d (.host p)).trans (OwnOnly.refuseWrite _ _ _ hname)⟩

/-- A host port's REGISTER_WRITE to a window that it does not own. -/
theorem ownOnly_xWrite {d : Dev} (m : Mem) {p : Fin 4} (c : Nat) {a : Nat} (v : BitVec 32) (hlo : 0x100000 ≤ a) (hhi : a < 0x500000)
    (hown : d.isOwner (.host p) (keyCtx a) = false) (hlock : d.sec.testLock = true) :
    ∃ e, xWrite (.host p) c a (if pairWord a = some 0 then [v, ~~~v] else [v]) m d = some e ∧ OwnOnly p d e := by
  cases hask : d.mayAsk (.host p) with
  | false => exact ⟨d, by simp [xWrite, hask], OwnOnly.refl p d⟩
  | true =>
    rw [xWrite_heard hask]
    have haccess : ∃ y, d.access m (.host p) c a (if pairWord a = some 0 then [v, ~~~v] else [v]) = some y ∧ OwnOnly p d y.1 := by
      split
      · next hpair => exact ownOnly_access_pair m c v _ hlo hhi hpair hown
      · exact ownOnly_access_one m c v hlo hhi hown hlock
    obtain ⟨y, hy, hframe⟩ := haccess
    exact ⟨_, by rw [hy]; rfl, hframe.trans (OwnOnly.answer p _ (.host p) y.2)⟩

/-- What is left equal, written out. -/
theorem OwnOnly.eq_with {j : Nat} {d e : Dev} (h : OwnOnly j d e) : e = { d with reqs := e.reqs, counters := e.counters, out := e.out } := by
  have hsame := h.1
  rcases d with ⟨⟩
  rcases e with ⟨⟩
  simpa [Dev.sansOwn] using hsame

/-- Settles O60 (the premise of the lock is log entry 98's: with the lock released the model refuses what would change RSV bits): each
way a register write of a host port can go in a window that the port does not own drops or holds a copy of its own, or counts a refusal. -/
theorem nonOwnersChangeNothingInAWindow : Obligations.NonOwnersChangeNothingInAWindow := by
  intro s p c a v hlo hhi hown hlock
  obtain ⟨e, he, hframe⟩ := ownOnly_xWrite (d := s.begin) s.mem c.val v hlo hhi hown hlock
  have hstores : e.sansOwn.stores = s.begin.sansOwn.stores := by rw [hframe.1]
  have hwipes : e.sansOwn.wipes = s.begin.sansOwn.wipes := by rw [hframe.1]
  refine ⟨_, access_quiet he hstores hwipes, rfl, rfl, hframe.2.1, hframe.2.2, hframe.eq_with⟩

end Sys2Proof.Machine
end

section
/-! Bytes read and written through one command after another: what a command sees of memory, and how a run of bytes is read back. -/

namespace Sys2Proof.Machine

open Sys2Proof.Claims (Ends Quiet)

/-! The end of a command that runs as an effect. -/

theorem quiet_of_run {i : Instr} {s : State} {x : Effect} {d : Dev} (hexec : exec i s = s.run x) (hd : x s.mem s.begin = d)
    (hstores : d.stores = []) (hwipes : d.wipes = []) : Quiet i s d := by
  rw [Quiet, hexec, State.run_eq, hd]
  exact congrArg _ (s.commit_quiet d hstores hwipes)

theorem ends_of_run {i : Instr} {s : State} {x : Effect} {d : Dev} {P : State → Prop} (hexec : exec i s = s.run x)
    (hd : x s.mem s.begin = d) (hP : P (s.commit d)) : Ends i s P :=
  ⟨s.commit d, by rw [hexec, State.run_eq, hd], rfl, hP⟩

theorem ends_of_quiet {i : Instr} {s : State} {d : Dev} {P : State → Prop} (h : Quiet i s d) (hP : P { s with dev := d }) : Ends i s P :=
  ⟨_, h, rfl, hP⟩

/-! Runs of bytes. -/

theorem peekN_length (m : Mem) (d : Dev) (a n : Nat) : (peekN m d a n).length = n := by
  induction n generalizing a with
  | zero => rfl
  | succ n ih => rw [peekN, List.length_cons, ih]

/-- A run of bytes reads as the bytes at its addresses. -/
theorem peekN_eq_map (m : Mem) (d : Dev) (a n : Nat) : peekN m d a n = (List.range n).map (fun i => peek m d (a + i)) := by
  induction n generalizing a with
  | zero => rfl
  | succ n ih =>
    rw [peekN, ih, List.range_succ_eq_map, List.map_cons, List.map_map]
    simp [Function.comp_def, Nat.add_assoc, Nat.add_comm 1]

/-- A run of bytes that stand in memory one by one. -/
theorem peekN_eq_of_getD {m : Mem} {d : Dev} {a : Nat} {bs : List Byte} (h : ∀ i, i < bs.length → peek m d (a + i) = bs.getD i 0) :
    peekN m d a bs.length = bs := by
  rw [peekN_eq_map]
  refine List.ext_getElem (by simp) fun i hi hi' => ?_
  rw [List.getElem_map, List.getElem_range, h i hi', List.getD_eq_getElem _ _ hi']

/-- A number taken apart into as many bytes as it was read from. -/
theorem toLE_leOf (bs : List Byte) : toLE bs.length (leOf bs) = bs := by
  induction bs with
  | nil => rfl
  | cons b bs ih =>
    have hbyte : BitVec.ofNat 8 (b.toNat + 256 * leOf bs) = b := by
      apply BitVec.eq_of_toNat_eq
      rw [BitVec.toNat_ofNat]
      omega
    have hrest : (b.toNat + 256 * leOf bs) / 256 = leOf bs := by omega
    rw [leOf, List.length_cons, toLE, hbyte, hrest, ih]

/-! The HBM burst (R177, R192, R194). -/

theorem burstDecode_zero : burstDecode 0#304 = .clean := by decide +kernel

theorem residualError_zero : residualError 0#304 = 0#256 := by
  rw [residualError, burstDecode_zero]
  rfl

/-- Without an error a burst reads as it stands. -/
theorem overlay_zero (bs : List Byte) : overlay bs 0#256 = bs := by
  rw [overlay]
  simp [toLE_leOf]

theorem Dev.burstRead_zero {d : Dev} (hbad : d.badBursts = []) (a : Nat) : d.burstRead a 0#304 = (d, .clean) := by
  simp [Dev.burstRead, hbad, burstDecode_zero]

/-- No access waits for a host when no host holds a line. -/
theorem Dev.cohBlocked_of_no_line {d : Dev} (h : d.directory = []) (a n : Nat) (write : Bool) : d.cohBlocked a n write = (d, false) := by
  have hsnoops : d.snoopsFor a n write none = [] := by simp [Dev.snoopsFor, h]
  have hwait : d.cohWait a n write none = (d, []) := by
    rw [Dev.cohWait, hsnoops]
    split <;> rfl
  rw [Dev.cohBlocked, hwait]
  rfl

/-- An access that R177 admits. -/
theorem Dev.accessCheck_admitted {d : Dev} {c a n : Nat} (hin : inMemory a n = true) (hbelow : a < 0x018000000000)
    (hlost : d.lost (memDie a) = false) (hmay : d.admits c a n = true) : d.accessCheck c a n = (d, none) := by
  unfold Dev.accessCheck
  rw [if_neg (by simp; omega), if_neg (by simp [hin]), if_neg (by simp [hlost]), if_pos hmay]

/-- A write to HBM where no burst is known to be bad. -/
theorem Dev.store_hbm {d : Dev} (m : Mem) {a : Nat} (bs : List Byte) (ha : isHbm a = true) (hbad : d.badBursts = []) :
    d.store m a bs = (d.pokeN a bs, none) := by
  have hplace : scrPlace a = none := by
    rw [isHbm, decide_eq_true_eq] at ha
    exact if_neg (by simp; omega)
  simp [Dev.store, hplace, hbad]

/-- A context may access the burst at `off` now, and no host nor the zeroing of a page holds it up. -/
structure BurstOpen (d : Dev) (c off : Nat) : Prop where
  aligned : off % 32 = 0
  hbm : isHbm off = true
  serves : d.hbmServes off = true
  present : d.lost (memDie off) = false
  admitted : d.admits c off 32 = true
  shared : d.directory = []
  zeroed : d.zeroingIn off 32 = false
  good : d.badBursts = []

namespace BurstOpen

variable {d : Dev} {c off : Nat}

theorem start (h : BurstOpen d c off) : off / 32 * 32 = off := by
  have := h.aligned
  omega

theorem check (h : BurstOpen d c off) : d.accessCheck c off 32 = (d, none) := by
  have hbelow := h.hbm
  rw [isHbm, decide_eq_true_eq] at hbelow
  have haligned := h.aligned
  refine Dev.accessCheck_admitted ?_ (by omega) h.present h.admitted
  rw [inMemory, Bool.or_eq_true, decide_eq_true_eq]
  exact .inl (by omega)

/-- A whole burst is written as it is. -/
theorem write (h : BurstOpen d c off) (m : Mem) {bs : List Byte} (hlen : bs.length = 32) (e : BitVec 304) :
    xHbmWrite c off bs e m d = d.pokeN off bs := by
  simp [xHbmWrite, h.start, hlen, h.aligned, h.hbm, h.serves, h.check, Dev.cohBlocked_of_no_line h.shared, h.zeroed,
    Dev.store_hbm m bs h.hbm h.good]

/-- A burst reads as it stands. -/
theorem read (h : BurstOpen d c off) (m : Mem) : xHbmRead c off 0 m d = d.emit (.readData (peekN m d off 32)) := by
  simp [xHbmRead, h.start, h.hbm, h.serves, h.check, Dev.cohBlocked_of_no_line h.shared, h.zeroed, Dev.burstRead_zero h.good,
    residualError_zero, overlay_zero]

end BurstOpen

/-- An offset of 40 bits lies in HBM (Table 6.1). -/
theorem isHbm_offset (off : BitVec 40) : isHbm off.toNat = true := by
  rw [isHbm, decide_eq_true_eq]
  exact off.isLt

/-- The next command begins with the device as it was before a store. -/
theorem begin_commit_pokeN (s : State) (a : Nat) (bs : List Byte) : (s.commit (s.begin.pokeN a bs)).begin = s.begin := by
  simp only [State.begin, State.commit, Dev.pokeN]

/-- Settles O5: the write leaves the burst as open to the context as it was, each of its 32 bytes reads as written, and a read with no
error gives the burst as it stands. -/
theorem hbmReadsWhatWasWritten : Obligations.HbmReadsWhatWasWritten := by
  intro s c off bs e haligned hlen hserves hpresent hadmits hshared hzeroed hgood
  have hhbm : isHbm off.toNat = true := isHbm_offset off
  have hopen : BurstOpen s.begin c off.toNat := ⟨haligned, hhbm, hserves, hpresent, hadmits, hshared, hzeroed, hgood⟩
  have hopen' : BurstOpen (s.commit (s.begin.pokeN off.toNat bs)).begin c off.toNat := by rwa [begin_commit_pokeN]
  set t := s.commit (s.begin.pokeN off.toNat bs) with ht
  have hwrite : exec (.hbmWrite c off bs e) s = .next t := by
    rw [exec_hbmWrite, execHbmWrite, State.run_eq, hopen.write s.mem hlen e]
  have hbytes : peekN t.mem t.begin off.toNat 32 = bs := by
    rw [← hlen]
    refine peekN_eq_of_getD fun i hi => ?_
    rw [peek_of_unwritten t rfl rfl, ht, State.read_commit, peek_pokeN, if_pos ⟨by omega, by omega⟩, Nat.add_sub_cancel_left]
  have hread : Quiet (.hbmRead c off 0) t (t.begin.emit (.readData bs)) := by
    refine quiet_of_run (x := xHbmRead c.val off.toNat 0) rfl ?_ rfl rfl
    exact (hopen'.read t.mem).trans (by rw [hbytes])
  exact ⟨t, _, hwrite, hread, rfl, rfl⟩

end Sys2Proof.Machine
end

section
/-! Words packed of fields (Tables 1.3 and 11.5): a field is read as it was packed. -/

namespace Sys2Proof.Machine

/-- Fields, width and value, packed from the lowest up, in base `b`. -/
def packed (b : Nat) : List (Nat × Nat) → Nat
  | [] => 0
  | (w, x) :: r => x + b ^ w * packed b r

/-- Each field holds its value. -/
def FieldsFit (l : List (Nat × Nat)) : Prop := ∀ p ∈ l, p.2 < 2 ^ p.1

theorem fieldsFit_nil : FieldsFit [] := by simp [FieldsFit]

theorem fieldsFit_cons {w x : Nat} {l : List (Nat × Nat)} : FieldsFit ((w, x) :: l) ↔ x < 2 ^ w ∧ FieldsFit l := by simp [FieldsFit]

theorem fld_eq_div_mod (v hi lo : Nat) : fld v hi lo = v / 2 ^ lo % 2 ^ (hi + 1 - lo) := by rw [fld, Nat.shiftRight_eq_div_pow]

theorem packed_lt {l : List (Nat × Nat)} (hfit : FieldsFit l) : packed 2 l < 2 ^ (l.map Prod.fst).sum := by
  induction l with
  | nil => simp [packed]
  | cons p l ih =>
    obtain ⟨w, x⟩ := p
    obtain ⟨hx, hl⟩ := fieldsFit_cons.mp hfit
    have hrest := ih hl
    calc packed 2 ((w, x) :: l) < 2 ^ w * 1 + 2 ^ w * packed 2 l := by simp only [packed]; omega
      _ = 2 ^ w * (packed 2 l + 1) := by ring
      _ ≤ 2 ^ w * 2 ^ (l.map Prod.fst).sum := Nat.mul_le_mul_left _ hrest
      _ = 2 ^ (((w, x) :: l).map Prod.fst).sum := by rw [List.map_cons, List.sum_cons, pow_add]

/-- The part of a packed word above its first `i` fields. -/
theorem packed_div {l : List (Nat × Nat)} (hfit : FieldsFit l) (i : Nat) :
    packed 2 l / 2 ^ ((l.take i).map Prod.fst).sum = packed 2 (l.drop i) := by
  induction i generalizing l with
  | zero => simp
  | succ i ih =>
    cases l with
    | nil => simp [packed]
    | cons p l =>
      obtain ⟨w, x⟩ := p
      obtain ⟨hx, hl⟩ := fieldsFit_cons.mp hfit
      rw [List.take_succ_cons, List.map_cons, List.sum_cons, pow_add, ← Nat.div_div_eq_div_mul, packed,
        Nat.add_mul_div_left _ _ (Nat.two_pow_pos w), Nat.div_eq_of_lt hx, Nat.zero_add, ih hl, List.drop_succ_cons]

/-- Field `i` of a packed word, at the bits where it was packed. -/
theorem fld_packed {l : List (Nat × Nat)} (hfit : FieldsFit l) {i w x hi lo : Nat} (hfield : l[i]? = some (w, x))
    (hlo : ((l.take i).map Prod.fst).sum = lo) (hhi : hi + 1 = lo + w) : fld (packed 2 l) hi lo = x := by
  obtain ⟨hi', hget⟩ := List.getElem?_eq_some_iff.mp hfield
  have hx : x < 2 ^ w := by simpa [hget] using hfit _ (List.getElem_mem hi')
  have hwidth : hi + 1 - lo = w := by omega
  rw [fld_eq_div_mod, ← hlo, packed_div hfit, List.drop_eq_getElem_cons hi', hget, hlo, hwidth, packed, Nat.add_mul_mod_self_left,
    Nat.mod_eq_of_lt hx]

/-- The same for a word of `n` bits whose fields fill it. -/
theorem fb_packed {n : Nat} {l : List (Nat × Nat)} (hfit : FieldsFit l) (hn : (l.map Prod.fst).sum = n) {i w x hi lo : Nat}
    (hfield : l[i]? = some (w, x)) (hlo : ((l.take i).map Prod.fst).sum = lo) (hhi : hi + 1 = lo + w) :
    fb (BitVec.ofNat n (packed 2 l)) hi lo = x := by
  rw [fb, BitVec.toNat_ofNat, Nat.mod_eq_of_lt (hn ▸ packed_lt hfit), fld_packed hfit hfield hlo hhi]

/-- A bit of a word as a field of one bit. -/
theorem getLsbD_eq_fb {n : Nat} (v : BitVec n) (i : Nat) : v.getLsbD i = (fb v i i == 1) := by
  rw [fb, fld_eq_div_mod, Nat.add_sub_cancel_left, pow_one]
  simp only [BitVec.getLsbD, Nat.testBit_eq_decide_div_mod_eq]
  rfl

/-! CRC-32. -/

theorem crcBit_lt (n : Nat) {c : Nat} (h : c < 2 ^ 32) : crcBit n c < 2 ^ 32 := by
  induction n generalizing c with
  | zero => exact h
  | succ n ih =>
    rw [crcBit]
    refine ih ?_
    split
    · exact Nat.xor_lt_two_pow (by omega) (by decide)
    · omega

theorem crc32_lt (bs : List Byte) : crc32 bs < 2 ^ 32 := by
  have hfold : ∀ (c : Nat), c < 2 ^ 32 → bs.foldl crcByte c < 2 ^ 32 := by
    induction bs with
    | nil => exact fun c h => h
    | cons b bs ih =>
      refine fun c h => ih _ (crcBit_lt 8 (Nat.xor_lt_two_pow h ?_))
      have := b.isLt
      omega
  exact Nat.xor_lt_two_pow (hfold _ (by decide)) (by decide)

/-! The cell (Table 1.3). -/

/-- The fields of a cell above its CRC, lowest first; bits [567:544] are reserved. -/
def cellFields (q : CellRequest) (seq ack cs cc : Nat) : List (Nat × Nat) :=
  [(512, q.payload.toNat), (24, 0), (1, q.err.toNat), (1, q.last.toNat), (6, q.ctx.toNat), (4, cc % 16), (12, cs % 4096), (16, ack % 65536),
    (16, seq % 65536), (12, q.stream.toNat), (4, q.cls.toNat)]

theorem cellFields_fit (q : CellRequest) (seq ack cs cc : Nat) : FieldsFit (cellFields q seq ack cs cc) := by
  simp only [cellFields, fieldsFit_cons]
  refine ⟨q.payload.isLt, by decide, ?_, ?_, q.ctx.isLt, by omega, by omega, by omega, by omega, q.stream.isLt, q.cls.isLt, fieldsFit_nil⟩
  · cases q.err <;> decide
  · cases q.last <;> decide

/-- The fields of a cell with its CRC-32 (R14). -/
def cellWord (q : CellRequest) (seq ack cs cc : Nat) : List (Nat × Nat) :=
  (32, crc32 (toLE 76 (packed 2 (cellFields q seq ack cs cc)))) :: cellFields q seq ack cs cc

theorem cellWord_fit (q : CellRequest) (seq ack cs cc : Nat) : FieldsFit (cellWord q seq ack cs cc) :=
  fieldsFit_cons.mpr ⟨crc32_lt _, cellFields_fit q seq ack cs cc⟩

/-- The sum of a cell's fields at their bits, in any base. -/
theorem packed_cellFields (b cls stream seq ack cs cc ctx last err payload : Nat) :
    cls * b ^ 636 + stream * b ^ 624 + seq * b ^ 608 + ack * b ^ 592 + cs * b ^ 580 + cc * b ^ 576 + ctx * b ^ 570 + last * b ^ 569
      + err * b ^ 568 + payload * b ^ 32
      = b ^ 32 * packed b [(512, payload), (24, 0), (1, err), (1, last), (6, ctx), (4, cc), (12, cs), (16, ack), (16, seq), (12, stream), (4, cls)] := by
  simp only [packed]
  ring

theorem ite_two_pow (p : Bool) (x : Nat) : (if p then x else 0) = p.toNat * x := by cases p <;> simp

theorem makeCell_eq_packed (q : CellRequest) (seq ack cs cc : Nat) :
    makeCell q seq ack cs cc = BitVec.ofNat 640 (packed 2 (cellWord q seq ack cs cc)) := by
  have hbody := packed_cellFields 2 q.cls.toNat q.stream.toNat (seq % 65536) (ack % 65536) (cs % 4096) (cc % 16) q.ctx.toNat q.last.toNat
    q.err.toNat q.payload.toNat
  change _ = 2 ^ 32 * packed 2 (cellFields q seq ack cs cc) at hbody
  simp only [makeCell, ite_two_pow, hbody, Nat.mul_div_cancel_left _ (Nat.two_pow_pos 32), cellWord]
  rw [packed, Nat.add_comm]

/-- A field of a cell at the bits of Table 1.3. -/
theorem fb_makeCell (q : CellRequest) (seq ack cs cc : Nat) {i w x hi lo : Nat} (hfield : (cellWord q seq ack cs cc)[i]? = some (w, x))
    (hlo : (((cellWord q seq ack cs cc).take i).map Prod.fst).sum = lo) (hhi : hi + 1 = lo + w) :
    fb (makeCell q seq ack cs cc) hi lo = x := by
  rw [makeCell_eq_packed]
  exact fb_packed (cellWord_fit q seq ack cs cc) rfl hfield hlo hhi

/-- Bits [639:32] of a cell are all that its CRC covers. -/
theorem fb_makeCell_body (q : CellRequest) (seq ack cs cc : Nat) :
    fb (makeCell q seq ack cs cc) 639 32 = packed 2 (cellFields q seq ack cs cc) := by
  have hword : packed 2 (cellWord q seq ack cs cc) < 2 ^ 640 := packed_lt (cellWord_fit q seq ack cs cc)
  have hbody : packed 2 (cellFields q seq ack cs cc) < 2 ^ 608 := packed_lt (cellFields_fit q seq ack cs cc)
  rw [makeCell_eq_packed, fb, BitVec.toNat_ofNat, Nat.mod_eq_of_lt hword, fld_eq_div_mod]
  have hdiv := packed_div (cellWord_fit q seq ack cs cc) 1
  change packed 2 (cellWord q seq ack cs cc) / 2 ^ 32 = packed 2 (cellFields q seq ack cs cc) at hdiv
  rw [hdiv]
  exact Nat.mod_eq_of_lt hbody

/-- A cell is read as it was built. -/
theorem makeCell_read (q : CellRequest) (seq ack cs cc : Nat) (hseq : seq < 2 ^ 16) (hack : ack < 2 ^ 16) (hcs : cs < 2 ^ 12) (hcc : cc < 2 ^ 4) :
    cellRequest (makeCell q seq ack cs cc) = q ∧ cellSeq (makeCell q seq ack cs cc) = seq ∧ cellAck (makeCell q seq ack cs cc) = ack ∧
    fb (makeCell q seq ack cs cc) 591 580 = cs ∧ fb (makeCell q seq ack cs cc) 579 576 = cc ∧ cellCrcOk (makeCell q seq ack cs cc) = true := by
  have hfield := @fb_makeCell q seq ack cs cc
  refine ⟨?request, ?seq, ?ack, ?stream, ?count, ?crc⟩
  case request =>
    have hcls : fb (makeCell q seq ack cs cc) 639 636 = q.cls.toNat := hfield (i := 11) rfl rfl rfl
    have hstream : fb (makeCell q seq ack cs cc) 635 624 = q.stream.toNat := hfield (i := 10) rfl rfl rfl
    have hctx : fb (makeCell q seq ack cs cc) 575 570 = q.ctx.toNat := hfield (i := 5) rfl rfl rfl
    have hlast : fb (makeCell q seq ack cs cc) 569 569 = q.last.toNat := hfield (i := 4) rfl rfl rfl
    have herr : fb (makeCell q seq ack cs cc) 568 568 = q.err.toNat := hfield (i := 3) rfl rfl rfl
    have hpayload : fb (makeCell q seq ack cs cc) 543 32 = q.payload.toNat := hfield (i := 1) rfl rfl rfl
    have hbit : ∀ b : Bool, (b.toNat == 1) = b := by decide
    rw [cellRequest, getLsbD_eq_fb, getLsbD_eq_fb, hlast, herr, hbit, hbit]
    simp [cellClass, cellStream, hcls, hstream, hctx, hpayload]
  case seq => exact (hfield (i := 9) rfl rfl rfl).trans (Nat.mod_eq_of_lt hseq)
  case ack => exact (hfield (i := 8) rfl rfl rfl).trans (Nat.mod_eq_of_lt hack)
  case stream => exact (hfield (i := 7) rfl rfl rfl).trans (Nat.mod_eq_of_lt hcs)
  case count => exact (hfield (i := 6) rfl rfl rfl).trans (Nat.mod_eq_of_lt hcc)
  case crc =>
    have hcrc : fb (makeCell q seq ack cs cc) 31 0 = crc32 (toLE 76 (packed 2 (cellFields q seq ack cs cc))) := hfield (i := 0) rfl rfl rfl
    rw [cellCrcOk, cellCrc, fb_makeCell_body, hcrc, beq_self_eq_true]

/-! The Pequa header (Table 11.5). -/

/-- The fields of a header, lowest first; bits [78:64] are reserved. -/
def headerFields (opc cls tag st ctx gen len grant addr : Nat) : List (Nat × Nat) :=
  [(64, addr), (15, 0), (2, grant), (9, len), (8, gen), (6, ctx), (4, st), (12, tag), (2, cls), (6, opc)]

theorem headerFields_fit {opc cls tag st ctx gen len grant addr : Nat} (hopc : opc < 64) (hcls : cls < 4) (htag : tag < 4096) (hst : st < 16)
    (hctx : ctx < 64) (hgen : gen < 256) (hlen : len < 512) (hgrant : grant < 4) (haddr : addr < 2 ^ 64) :
    FieldsFit (headerFields opc cls tag st ctx gen len grant addr) := by
  simp only [headerFields, fieldsFit_cons]
  exact ⟨haddr, by decide, hgrant, hlen, hgen, hctx, hst, htag, hcls, hopc, fieldsFit_nil⟩

theorem packed_headerFields (b opc cls tag st ctx gen len grant addr : Nat) :
    opc * b ^ 122 + cls * b ^ 120 + tag * b ^ 108 + st * b ^ 104 + ctx * b ^ 98 + gen * b ^ 90 + len * b ^ 81 + grant * b ^ 79 + addr
      = packed b (headerFields opc cls tag st ctx gen len grant addr) := by
  simp only [headerFields, packed]
  ring

theorem hpHdr_eq_packed {opc cls tag st ctx gen len grant addr : Nat} (hopc : opc < 64) (hcls : cls < 4) (htag : tag < 4096) (hst : st < 16)
    (hctx : ctx < 64) (hgen : gen < 256) (hlen : len < 512) (hgrant : grant < 4) (haddr : addr < 2 ^ 64) :
    hpHdr opc cls tag st ctx gen len grant addr = BitVec.ofNat 128 (packed 2 (headerFields opc cls tag st ctx gen len grant addr)) := by
  rw [hpHdr, ← packed_headerFields, Nat.mod_eq_of_lt hopc, Nat.mod_eq_of_lt hcls, Nat.mod_eq_of_lt htag, Nat.mod_eq_of_lt hst,
    Nat.mod_eq_of_lt hctx, Nat.mod_eq_of_lt hgen, Nat.mod_eq_of_lt hlen, Nat.mod_eq_of_lt hgrant, Nat.mod_eq_of_lt haddr]

/-- Settles O57 (the CRC's parameters are the model's choice, log entry 94): both words are packed of fields that fit, and a packed field
is read at the bits where it was packed. -/
theorem cellsAndHeadersAreReadAsBuilt : Obligations.CellsAndHeadersAreReadAsBuilt := by
  refine ⟨makeCell_read, ?header⟩
  case header =>
    intro opc cls tag st ctx gen len grant addr bs hopc hcls htag hst hctx hgen hlen hgrant haddr k hk
    have hfield : ∀ {i w x hi lo : Nat}, (headerFields opc cls tag st ctx gen len grant addr)[i]? = some (w, x) →
        (((headerFields opc cls tag st ctx gen len grant addr).take i).map Prod.fst).sum = lo → hi + 1 = lo + w → fb k.hdr hi lo = x := by
      intro i w x hi lo hx hlo hhi
      rw [hk, hpHdr_eq_packed hopc hcls htag hst hctx hgen hlen hgrant haddr]
      exact fb_packed (headerFields_fit hopc hcls htag hst hctx hgen hlen hgrant haddr) rfl hx hlo hhi
    exact ⟨hfield (i := 9) rfl rfl rfl, hfield (i := 8) rfl rfl rfl, hfield (i := 7) rfl rfl rfl, hfield (i := 6) rfl rfl rfl,
      hfield (i := 5) rfl rfl rfl, hfield (i := 4) rfl rfl rfl, hfield (i := 3) rfl rfl rfl, hfield (i := 2) rfl rfl rfl,
      hfield (i := 0) rfl rfl rfl⟩

end Sys2Proof.Machine
end

section
/-! Conversion of a value that the destination format holds (R79, R89 to R92, R474). -/

namespace Sys2Proof.Machine

/-! Floating-point codes. -/

/-- The exponent field of a code. -/
def Fmt.expField (f : Fmt) (c : Nat) : Nat := fld c (f.expo + f.mant - 1) f.mant

/-- A code is made of its sign, its exponent field and its mantissa. -/
theorem Fmt.code_eq {f : Fmt} {c : Nat} (hexpo : 0 < f.expo) (hc : c < 2 ^ f.width) :
    c = f.signCode (c.testBit (f.expo + f.mant)) (f.expField c * 2 ^ f.mant + c % 2 ^ f.mant) := by
  have hfield : f.expField c = c / 2 ^ f.mant % 2 ^ f.expo := by
    rw [Fmt.expField, fld_eq_div_mod]
    congr 2
    omega
  have htop : c / 2 ^ f.mant / 2 ^ f.expo < 2 := by
    rw [Nat.div_div_eq_div_mul, Nat.div_lt_iff_lt_mul (by positivity), ← pow_add]
    calc c < 2 ^ f.width := hc
      _ = 2 * 2 ^ (f.mant + f.expo) := by rw [Fmt.width, show 1 + f.expo + f.mant = f.mant + f.expo + 1 by omega, pow_succ, mul_comm]
  have hsign : c.testBit (f.expo + f.mant) = decide (c / 2 ^ f.mant / 2 ^ f.expo % 2 = 1) := by
    rw [Nat.testBit_eq_decide_div_mod_eq, Nat.div_div_eq_div_mul, ← pow_add, Nat.add_comm]
  have hlow := Nat.div_add_mod c (2 ^ f.mant)
  have hhigh := Nat.div_add_mod (c / 2 ^ f.mant) (2 ^ f.expo)
  rw [hfield, hsign, Fmt.signCode]
  generalize c % 2 ^ f.mant = m at *
  generalize c / 2 ^ f.mant = a at *
  generalize a % 2 ^ f.expo = x at *
  generalize a / 2 ^ f.expo = t at *
  have hsum : c = t * 2 ^ (f.expo + f.mant) + (x * 2 ^ f.mant + m) := by rw [← hlow, ← hhigh, pow_add]; ring
  split
  · next h =>
    have ht : t = 1 := by rw [decide_eq_true_eq] at h; omega
    rw [hsum, ht]; omega
  · next h =>
    have ht : t = 0 := by rw [decide_eq_true_eq] at h; omega
    rw [hsum, ht]; omega

/-- What a finite code holds: sign, significand and exponent of its unit, subnormal or normal (R79). -/
theorem Fmt.decode_fin {f : Fmt} {c m : Nat} {s : Bool} {e : Int} (h : f.decode c = .fin s m e) :
    s = c.testBit (f.expo + f.mant) ∧ f.isNan (f.expField c) (c % 2 ^ f.mant) = false ∧ (f.hasInf && f.expField c == 2 ^ f.expo - 1) = false ∧
    ((f.expField c = 0 ∧ m = c % 2 ^ f.mant ∧ e = 1 - (f.bias : Int) - f.mant) ∨
     (f.expField c ≠ 0 ∧ m = 2 ^ f.mant + c % 2 ^ f.mant ∧ e = (f.expField c : Int) - f.bias - f.mant)) := by
  simp only [Fmt.decode] at h
  change (if f.isNan (f.expField c) _ then _ else if f.hasInf && f.expField c == _ then _ else if f.expField c = 0 then
    Val.fin _ _ _ else Val.fin _ _ _) = _ at h
  split at h
  · cases h
  · next hnan =>
    split at h
    · cases h
    · next hinf =>
      refine ⟨?_, by simpa using hnan, by simpa using hinf, ?_⟩
      · split at h <;> cases h <;> rfl
      · split at h
        · next hzero => cases h; exact .inl ⟨hzero, rfl, rfl⟩
        · next hnz => cases h; exact .inr ⟨hnz, rfl, rfl⟩

/-- The code of an infinity (Table 3.3). -/
theorem Fmt.decode_inf {f : Fmt} {c : Nat} {s : Bool} (h : f.decode c = .inf s) :
    s = c.testBit (f.expo + f.mant) ∧ f.hasInf = true ∧ f.expField c = 2 ^ f.expo - 1 ∧ c % 2 ^ f.mant = 0 := by
  simp only [Fmt.decode] at h
  change (if f.isNan (f.expField c) _ then _ else if f.hasInf && f.expField c == _ then _ else if f.expField c = 0 then
    Val.fin _ _ _ else Val.fin _ _ _) = _ at h
  split at h
  · cases h
  · next hnan =>
    split at h
    · next hinf =>
      cases h
      simp only [Bool.and_eq_true, beq_iff_eq] at hinf
      obtain ⟨hhas, hexp⟩ := hinf
      refine ⟨rfl, hhas, hexp, ?_⟩
      simpa [Fmt.isNan, hhas, hexp] using hnan
    · split at h <;> cases h

/-- A significand and exponent of a unit that the format holds: subnormal, or with the leading bit set (R79). -/
def Fmt.HoldsMag (f : Fmt) (m : Nat) (e : Int) : Prop :=
  (m < 2 ^ f.mant ∧ e = 1 - (f.bias : Int) - f.mant) ∨ (2 ^ f.mant ≤ m ∧ m < 2 ^ (f.mant + 1) ∧ 1 - (f.bias : Int) - f.mant ≤ e)

/-- A magnitude that the format holds is rounded to itself, in whatever way (R89, R92). -/
theorem roundMag_of_holds {f : Fmt} {m : Nat} {e : Int} (hm : m ≠ 0) (h : f.HoldsMag m e) (r : Rounding) : roundMag f r m e = (m, e) := by
  have hunit : max (log2Floor m e - f.mant) (1 - (f.bias : Int) - f.mant) = e := by
    unfold log2Floor
    rcases h with ⟨hsub, he⟩ | ⟨hlead, htop, he⟩
    · have hlog : m.log2 < f.mant := (Nat.log2_lt hm).mpr hsub
      omega
    · have hlog : m.log2 = f.mant := by
        have hlt : m.log2 < f.mant + 1 := (Nat.log2_lt hm).mpr htop
        have hge : f.mant ≤ m.log2 := (Nat.le_log2 hm).mpr hlead
        omega
      omega
  rw [roundMag, hunit]
  simp

/-- The finite code that holds a magnitude. -/
theorem Fmt.encodeMag_decode {f : Fmt} {c m : Nat} {s : Bool} {e : Int} (h : f.decode c = .fin s m e) :
    f.HoldsMag m e ∧ f.encodeMag m e = f.expField c * 2 ^ f.mant + c % 2 ^ f.mant := by
  have hlow : c % 2 ^ f.mant < 2 ^ f.mant := Nat.mod_lt _ (Nat.two_pow_pos _)
  have hdouble : 2 ^ (f.mant + 1) = 2 * 2 ^ f.mant := by rw [pow_succ, mul_comm]
  obtain ⟨-, -, -, ⟨hzero, rfl, rfl⟩ | ⟨hnz, rfl, rfl⟩⟩ := f.decode_fin h
  · refine ⟨.inl ⟨hlow, rfl⟩, ?_⟩
    rw [Fmt.encodeMag, if_neg (by omega)]
    simp [hlow, hzero]
  · refine ⟨.inr ⟨by omega, by omega, by omega⟩, ?_⟩
    have hexp : (((f.expField c : Int) - f.bias - f.mant) + f.mant + f.bias).toNat = f.expField c := by omega
    rw [Fmt.encodeMag, if_neg (by omega)]
    simp only [hexp]
    rw [if_neg (by omega), Nat.add_sub_cancel_left]

/-- A significand and an exponent no larger than another's make no larger magnitude. -/
theorem magLt_of_le {m mm : Nat} {e me : Int} (he : e ≤ me) (h : m ≤ mm ∨ e < me ∧ m ≤ 2 * mm) : magLt mm me m e = false := by
  rw [magLt, if_pos he, decide_eq_false_iff_not, not_lt]
  rcases h with h | ⟨hlt, h⟩
  · exact h.trans (Nat.le_mul_of_pos_right _ (Nat.two_pow_pos _))
  · obtain ⟨k, hk⟩ : ∃ k, (me - e).toNat = k + 1 := ⟨(me - e).toNat - 1, by omega⟩
    calc m ≤ 2 * mm := h
      _ ≤ 2 * mm * 2 ^ k := Nat.le_mul_of_pos_right _ (Nat.two_pow_pos _)
      _ = mm * 2 ^ (me - e).toNat := by rw [hk, pow_succ]; ring

/-- Magnitude of MAXF (Table 3.3). -/
def Fmt.maxMag (f : Fmt) : Nat × Int := match f.decode f.maxf with | .fin _ a b => (a, b) | _ => (0, 0)

/-- No finite code holds more than MAXF, in a format whose MAXF has the highest exponent and mantissa bits all set. -/
theorem Fmt.le_maxMag {f : Fmt} {c m top : Nat} {s : Bool} {e : Int} (h : f.decode c = .fin s m e) (hne : top ≠ 0)
    (hmax : f.maxMag = (2 ^ (f.mant + 1) - 1, (top : Int) - f.bias - f.mant)) (htop : f.expField c ≤ top) :
    magLt f.maxMag.1 f.maxMag.2 m e = false := by
  have hlow : c % 2 ^ f.mant < 2 ^ f.mant := Nat.mod_lt _ (Nat.two_pow_pos _)
  have hdouble : 2 ^ (f.mant + 1) = 2 * 2 ^ f.mant := by rw [pow_succ, mul_comm]
  rw [hmax]
  obtain ⟨-, -, -, ⟨hzero, rfl, rfl⟩ | ⟨hnz, rfl, rfl⟩⟩ := f.decode_fin h
  · exact magLt_of_le (by simp only; omega) (.inl (by simp only; omega))
  · exact magLt_of_le (by simp only; omega) (.inl (by simp only; omega))

/-- The floating-point formats (Table 3.2). -/
def floatFormats : List Fmt := [fp32, bf16, fp16, e4m3, e5m2, e2m1]

theorem expField_lt {f : Fmt} (hexpo : 0 < f.expo) (c : Nat) : f.expField c < 2 ^ f.expo := by
  have hwidth : f.expo + f.mant - 1 + 1 - f.mant = f.expo := by omega
  rw [Fmt.expField, fld, hwidth]
  exact Nat.mod_lt _ (Nat.two_pow_pos _)

/-- A format with infinities keeps its highest exponent for them. -/
theorem Fmt.le_maxMag_of_hasInf {f : Fmt} {c m : Nat} {s : Bool} {e : Int} (h : f.decode c = .fin s m e) (hinf : f.hasInf = true) (hexpo : 1 < f.expo)
    (hmax : f.maxMag = (2 ^ (f.mant + 1) - 1, ((2 ^ f.expo - 2 : Nat) : Int) - f.bias - f.mant)) : magLt f.maxMag.1 f.maxMag.2 m e = false := by
  have hfour : 2 ^ 2 ≤ 2 ^ f.expo := Nat.pow_le_pow_right (by decide) hexpo
  refine f.le_maxMag h (by omega) hmax ?_
  have hlt := expField_lt (f := f) (by omega) c
  have hne : f.expField c ≠ 2 ^ f.expo - 1 := by
    obtain ⟨-, -, hnoInf, -⟩ := f.decode_fin h
    simpa [hinf] using hnoInf
  omega

/-- E4M3 has no infinity; its highest exponent with all mantissa bits set is NaN (Table 3.3). -/
theorem le_maxMag_e4m3 {c m : Nat} {s : Bool} {e : Int} (h : e4m3.decode c = .fin s m e) : magLt e4m3.maxMag.1 e4m3.maxMag.2 m e = false := by
  have hlow : c % 2 ^ 3 < 2 ^ 3 := Nat.mod_lt _ (Nat.two_pow_pos _)
  have hlt : e4m3.expField c < 2 ^ 4 := expField_lt (by decide) c
  have hmax : e4m3.maxMag = (14, 5) := by decide +kernel
  rw [hmax]
  obtain ⟨-, hnan, -, ⟨hzero, hm, he⟩ | ⟨hnz, hm, he⟩⟩ := e4m3.decode_fin h
  · change m = c % 2 ^ 3 at hm
    change e = 1 - 7 - 3 at he
    exact magLt_of_le (by simp only; omega) (.inl (by simp only; omega))
  · change m = 2 ^ 3 + c % 2 ^ 3 at hm
    change e = (e4m3.expField c : Int) - 7 - 3 at he
    have htop : ¬ (e4m3.expField c = 15 ∧ c % 2 ^ 3 = 7) := by
      rintro ⟨hexp, hmant⟩
      have hisNan : e4m3.isNan (e4m3.expField c) (c % 2 ^ 3) = true := by rw [hexp, hmant]; rfl
      exact absurd (hisNan.symm.trans hnan) (by decide)
    exact magLt_of_le (by simp only; omega) (by simp only; omega)

/-- No finite code holds more than MAXF (Table 3.3). -/
theorem le_maxMag_of_mem {f : Fmt} (hf : f ∈ floatFormats) {c m : Nat} {s : Bool} {e : Int} (h : f.decode c = .fin s m e) :
    magLt f.maxMag.1 f.maxMag.2 m e = false := by
  simp only [floatFormats, List.mem_cons, List.not_mem_nil, or_false] at hf
  rcases hf with rfl | rfl | rfl | rfl | rfl | rfl
  · exact fp32.le_maxMag_of_hasInf h rfl (by decide) (by decide +kernel)
  · exact bf16.le_maxMag_of_hasInf h rfl (by decide) (by decide +kernel)
  · exact fp16.le_maxMag_of_hasInf h rfl (by decide) (by decide +kernel)
  · exact le_maxMag_e4m3 h
  · exact e5m2.le_maxMag_of_hasInf h rfl (by decide) (by decide +kernel)
  · exact e2m1.le_maxMag (top := 3) h (by decide) (by decide +kernel) (Nat.le_of_lt_succ (expField_lt (f := e2m1) (by decide) c))

/-- A finite nonzero magnitude that is held and is no more than MAXF gets its own code and neither overflows nor is flushed. -/
theorem convertF_of_holds {f : Fmt} {m : Nat} {e : Int} (hm : m ≠ 0) (hholds : f.HoldsMag m e) (hle : magLt f.maxMag.1 f.maxMag.2 m e = false)
    (infMode s : Bool) (r : Rounding) :
    (convertF f infMode false r (.fin s m e)).1 = f.signCode s (f.encodeMag m e) ∧
    (convertF f infMode false r (.fin s m e)).2 ≠ .over ∧ (convertF f infMode false r (.fin s m e)).2 ≠ .flush := by
  have hconvert : convertF f infMode false r (.fin s m e) = if f.width = 32 then (f.signCode s (f.encodeMag m e), .none)
      else (f.signCode s (f.encodeMag m e), if m = 0 then .flush else if f.encodeMag m e < 2 ^ f.mant then .sub else .none) := by
    simp only [convertF, if_neg hm, roundMag_of_holds hm hholds r]
    change (if f.width = 32 then (if magLt f.maxMag.1 f.maxMag.2 m e then _ else _, _) else if magLt f.maxMag.1 f.maxMag.2 m e then _ else _) = _
    simp only [hle]
    rfl
  rw [hconvert, if_neg hm]
  split_ifs <;> simp

/-- A code that is no NaN converts to itself. -/
theorem convertF_decode {f : Fmt} (hf : f ∈ floatFormats) (infMode : Bool) (r : Rounding) {c : Nat} (hc : c < 2 ^ f.width)
    (hnan : f.decode c ≠ .nan) :
    (convertF f infMode false r (f.decode c)).1 = c ∧ (convertF f infMode false r (f.decode c)).2 ≠ .over ∧
    (convertF f infMode false r (f.decode c)).2 ≠ .flush := by
  have hexpo : ∀ g ∈ floatFormats, 0 < g.expo := by decide
  have hcode := f.code_eq (hexpo f hf) hc
  cases hv : f.decode c with
  | nan => exact absurd hv hnan
  | inf s =>
    obtain ⟨rfl, hinf, hexp, hmant⟩ := f.decode_inf hv
    rw [hexp, hmant, Nat.add_zero] at hcode
    simp only [convertF, if_pos hinf]
    exact ⟨hcode.symm, by simp, by simp⟩
  | fin s m e =>
    obtain ⟨hholds, hencode⟩ := f.encodeMag_decode hv
    obtain ⟨rfl, -⟩ := f.decode_fin hv
    rw [← hencode] at hcode
    by_cases hm : m = 0
    case pos =>
      have hmag : f.encodeMag m e = 0 := by subst hm; simp [Fmt.encodeMag]
      rw [hmag] at hcode
      simp only [convertF, if_pos hm]
      exact ⟨hcode.symm, by simp, by simp⟩
    case neg =>
      obtain ⟨hsame, hevent⟩ := convertF_of_holds hm hholds (le_maxMag_of_mem hf hv) infMode (c.testBit (f.expo + f.mant)) r
      exact ⟨hsame.trans hcode.symm, hevent⟩

/-! Integers. -/

/-- An integer is no fraction: it rounds to itself. -/
theorem toInt_ofInt (x : Int) : Val.toInt (decide (x < 0)) x.natAbs 0 = x := by
  simp only [Val.toInt, le_refl, if_true, Int.toNat_zero, pow_zero, mul_one]
  split
  · next h => rw [decide_eq_true_eq] at h; omega
  · next h => rw [decide_eq_true_eq] at h; omega

/-- An integer that the destination holds is neither rounded nor saturated (R474). -/
theorem convertI_ofInt {sg : Bool} {w : Nat} {x : Int} (hlo : intMin sg w ≤ x) (hhi : x ≤ intMax sg w) :
    convertI sg w (.ofInt x) = (unsigned w x, .none) := by
  have hclamp : max (intMin sg w) (min (intMax sg w) x) = x := by rw [min_eq_right hhi, max_eq_right hlo]
  simp only [convertI, Val.ofInt, toInt_ofInt, hclamp, beq_self_eq_true, if_true]

theorem convertI_decodeCode {sg : Bool} {w n c : Nat} (hn : intOf n = some (sg, w)) (hc : c < 2 ^ w) :
    convertI sg w (decodeCode n sg c) = (c, .none) := by
  have hformats : (n, sg, w) ∈ [(6, true, 8), (7, false, 8), (8, true, 4), (9, false, 4), (10, true, 32)] := by
    unfold intOf at hn
    split at hn <;> simp_all
  simp only [List.mem_cons, Prod.mk.injEq, List.not_mem_nil, or_false] at hformats
  have hconvert : ∀ x : Int, decodeCode n sg c = .ofInt x → intMin sg w ≤ x → x ≤ intMax sg w → unsigned w x = c →
      convertI sg w (decodeCode n sg c) = (c, .none) := by
    intro x hx hlo hhi hpattern
    rw [hx, convertI_ofInt hlo hhi, hpattern]
  rcases hformats with ⟨rfl, rfl, rfl⟩ | ⟨rfl, rfl, rfl⟩ | ⟨rfl, rfl, rfl⟩ | ⟨rfl, rfl, rfl⟩ | ⟨rfl, rfl, rfl⟩
  all_goals
    refine hconvert _ rfl ?_ ?_ ?_
    all_goals
      simp only [signed, intMin, intMax, unsigned, codeWidth] at *
      norm_num at *
      try split_ifs
      all_goals omega

/-- Settles O58: a code's value lies in the format with the unit it is written in, so that rounding leaves it (R89, R92), and none lies
above MAXF; an integer in range is neither rounded nor saturated (R474). -/
theorem codesConvertToThemselves : Obligations.CodesConvertToThemselves :=
  ⟨fun _ infMode r _ hf hc hnan => convertF_decode hf infMode r hc hnan, fun _ _ _ _ hn hc => convertI_decodeCode hn hc⟩

end Sys2Proof.Machine
end

section
/-! Work done for each of a list of units, and the end of a register command. -/

namespace Sys2Proof.Machine

open Sys2Proof.Claims (Ends Quiet Heard)

/-! A step for each of a list. -/

@[simp] theorem Dev.each_nil {α : Type} (d : Dev) (f : Dev → α → Dev) : d.each [] f = d := rfl

@[simp] theorem Dev.each_cons {α : Type} (d : Dev) (a : α) (l : List α) (f : Dev → α → Dev) : d.each (a :: l) f = (f d a).each l f := rfl

/-- What each step leaves, all of them leave. -/
theorem Dev.each_frame {α β : Type} (g : Dev → β) (l : List α) {f : Dev → α → Dev} (h : ∀ d a, g (f d a) = g d) (d : Dev) :
    g (d.each l f) = g d := by
  induction l generalizing d with
  | nil => rfl
  | cons a l ih => rw [Dev.each_cons, ih, h]

/-- What holds after each step holds after all of them. -/
theorem Dev.each_invariant {α : Type} {P : Dev → Prop} {l : List α} {f : Dev → α → Dev} (h : ∀ d, ∀ a ∈ l, P d → P (f d a)) {d : Dev} (hd : P d) :
    P (d.each l f) := by
  induction l generalizing d with
  | nil => exact hd
  | cons a l ih =>
    exact ih (fun e b hb => h e b (List.mem_cons_of_mem a hb)) (h d a List.mem_cons_self hd)

/-- Where each step updates its own unit, every unit of the list is updated once. -/
theorem Dev.each_update {β : Type} (get : Dev → Nat → β) (u : Nat → β → β) {l : List Nat} {f : Dev → Nat → Dev} (hl : l.Nodup)
    (h : ∀ d a i, get (f d a) i = if a = i then u i (get d i) else get d i) (d : Dev) (i : Nat) :
    get (d.each l f) i = if i ∈ l then u i (get d i) else get d i := by
  induction l generalizing d with
  | nil => simp
  | cons a l ih =>
    obtain ⟨ha, hl⟩ := List.nodup_cons.mp hl
    rw [Dev.each_cons, ih hl, h]
    by_cases hai : a = i
    case pos => subst hai; simp [ha]
    case neg => simp [hai, Ne.symm hai]

theorem Dev.each_range_update {β : Type} (get : Dev → Nat → β) (u : Nat → β → β) {n : Nat} {f : Dev → Nat → Dev}
    (h : ∀ d a i, get (f d a) i = if a = i then u i (get d i) else get d i) (d : Dev) {i : Nat} (hi : i < n) :
    get (d.each (List.range n) f) i = u i (get d i) := by
  rw [Dev.each_update get u List.nodup_range h, if_pos (List.mem_range.mpr hi)]

/-! The end of a register command. -/

/-- A named register's write that is heard and permitted, with neither store nor wipe. -/
theorem quiet_of_heard {i : Instr} {s : State} {r : Requester} {k : Nat} {v : BitVec 32} {perm : Dev → Bool} {x : Mem → Dev → Dev × Nat}
    {d : Dev} {st : Nat} (hexec : exec i s = s.runReg r k v perm x) (hheard : Heard s r k v) (hperm : perm s.begin = true)
    (hx : x s.mem s.begin = (d, st)) (hstores : d.stores = []) (hwipes : d.wipes = []) : Quiet i s (d.answer r st) := by
  obtain ⟨hask, hpend, hlost, hrsv⟩ := hheard
  rw [Quiet, hexec, s.runReg_accepted r k v perm x hask hpend hlost hrsv hperm, hx]
  exact congrArg _ (s.commit_quiet _ hstores hwipes)

/-- The same where the command stores or wipes. -/
theorem ends_of_heard {i : Instr} {s : State} {r : Requester} {k : Nat} {v : BitVec 32} {perm : Dev → Bool} {x : Mem → Dev → Dev × Nat}
    {d : Dev} {st : Nat} {P : State → Prop} (hexec : exec i s = s.runReg r k v perm x) (hheard : Heard s r k v) (hperm : perm s.begin = true)
    (hx : x s.mem s.begin = (d, st)) (hP : P (s.commit (d.answer r st))) : Ends i s P := by
  obtain ⟨hask, hpend, hlost, hrsv⟩ := hheard
  exact ⟨s.commit (d.answer r st), by rw [hexec, s.runReg_accepted r k v perm x hask hpend hlost hrsv hperm, hx], rfl, hP⟩

/-- A command's code in bits [31:30] of a word. -/
theorem fb_cmd (v : BitVec 32) {cmd : Nat} (hcmd : cmd < 4) : fb (BitVec.ofNat 32 (setFld v.toNat 31 30 cmd)) 31 30 = cmd := by
  rw [fb_ofNat_setFld 32 _ 31 30 cmd v.isLt (by decide) (by decide)]
  exact Nat.mod_eq_of_lt hcmd

end Sys2Proof.Machine
end

section
/-! The test access port (R449, R450). -/

namespace Sys2Proof.Machine

open Sys2Proof.Claims (Ends Quiet Selects)

/-- A selection is shown on the die it is made on. -/
theorem selectTap_begin (s : State) (i code : Nat) :
    s.begin.selectTap i code = { s.begin with sec := { s.dev.sec with tap := mset s.dev.sec.tap i (BitVec.ofNat 8 code) },
                                              out := [.tdr i (BitVec.ofNat 8 code)] } := rfl

theorem selects_of_run {c : Instr} {s : State} {x : Effect} {i : Fin 6} {code : Nat} (hexec : exec c s = s.run x)
    (hx : x s.mem s.begin = s.begin.selectTap i code) : Selects c s i (BitVec.ofNat 8 code) :=
  quiet_of_run hexec (hx.trans (selectTap_begin s i code)) rfl rfl

/-- With the test lock engaged an instruction that it locks selects BYPASS. -/
theorem selects_of_engaged {c : Instr} {s : State} {x : Effect} {i : Fin 6} {code : Nat} (hlock : s.dev.sec.testLock = true)
    (hexec : exec c s = s.run x) (hx : x s.mem s.begin = s.begin.selectLocked i code) : Selects c s i 0xFF :=
  selects_of_run hexec (hx.trans (by rw [Dev.selectLocked, if_pos (show s.begin.sec.testLock = true from hlock)]))

/-- With the test lock released it selects its own code. -/
theorem selects_of_released {c : Instr} {s : State} {x : Effect} {i : Fin 6} {code : Nat} (hlock : s.dev.sec.testLock = false)
    (hexec : exec c s = s.run x) (hx : x s.mem s.begin = s.begin.selectLocked i code) : Selects c s i (BitVec.ofNat 8 code) := by
  have hreleased : ¬ s.begin.sec.testLock = true := by rw [show s.begin.sec.testLock = false from hlock]; decide
  exact selects_of_run hexec (hx.trans (by rw [Dev.selectLocked, if_neg hreleased]))

/-- A device without what a selection touches. -/
def Dev.sansTap (d : Dev) : Dev := { d with sec := { d.sec with tap := [] }, out := [] }

theorem sansTap_fields {d e : Dev} (h : d.sansTap = e.sansTap) :
    d.regs = e.regs ∧ d.counters = e.counters ∧ d.tiles = e.tiles ∧ ({ d.sec with tap := [] } : Sec) = { e.sec with tap := [] } ∧
      d.stores = e.stores ∧ d.wipes = e.wipes := by
  simp only [Dev.sansTap, Dev.mk.injEq] at h
  simp only [h, and_self]

theorem xTapReset_sansTap (m : Mem) (d : Dev) : (xTapReset m d).sansTap = d.sansTap :=
  Dev.each_frame (f := fun d i => d.selectTap i 0x01) Dev.sansTap _ (fun _ _ => rfl) d

/-- A reset selects IDCODE on each die. -/
theorem xTapReset_tap (m : Mem) (d : Dev) {i : Nat} (hi : i < 6) : mget 0 (xTapReset m d).sec.tap i = 1 :=
  Dev.each_range_update (f := fun d i => d.selectTap i 0x01) (fun d i => mget 0 d.sec.tap i) (fun _ _ => 1)
    (fun d a i => mget_mset 0 d.sec.tap a i 1) d hi

/-- Settles O56 (that a reset selects IDCODE on every die is log entry 82's): a selection writes its die's instruction and shows it, and
a locked instruction's code depends on the lock. -/
theorem tapInstructionsAreSelected : Obligations.TapInstructionsAreSelected := by
  refine ⟨fun s i => ?idcode, fun s i => ⟨?_, ?_, ?_⟩, fun s i hlock => ⟨?_, ?_, ?_⟩, fun s i hlock => ⟨?_, ?_, ?_⟩, fun s => ?_,
    fun s i hi => ?other, fun s => ?reset⟩
  case idcode => exact quiet_of_run (x := xTapIdcode i) rfl (by rw [xTapIdcode, selectTap_begin]; rfl) rfl rfl
  case reset =>
    obtain ⟨hregs, hcounters, htiles, hsec, hstores, hwipes⟩ := sansTap_fields (xTapReset_sansTap s.mem s.begin)
    refine ends_of_run (x := xTapReset) rfl rfl
      ⟨fun i hi => xTapReset_tap s.mem s.begin hi, State.commit_mem s _ hstores hwipes, hregs, hcounters, ?_, htiles⟩
    exact congrArg (fun x : Sec => { x with tap := (xTapReset s.mem s.begin).sec.tap }) hsec
  case other =>
    have hne : i.val ≠ 4 := fun h => hi (Fin.ext h)
    exact selects_of_run (x := xTapUnlock i) (code := 0xFF) rfl (by rw [xTapUnlock, if_neg hne])
  · exact selects_of_run (x := xTapSamplePreload i) rfl rfl
  · exact selects_of_run (x := xTapIjtagAccess i) rfl rfl
  · exact selects_of_run (x := xTapBypass i) rfl rfl
  · exact selects_of_engaged (x := xTapExtest i) hlock rfl rfl
  · exact selects_of_engaged (x := xTapClamp i) hlock rfl rfl
  · exact selects_of_engaged (x := xTapHighz i) hlock rfl rfl
  · exact selects_of_released (x := xTapExtest i) hlock rfl rfl
  · exact selects_of_released (x := xTapClamp i) hlock rfl rfl
  · exact selects_of_released (x := xTapHighz i) hlock rfl rfl
  · exact selects_of_run (x := xTapUnlock 4) (code := 0x20) rfl rfl

end Sys2Proof.Machine
end

section
/-! Power states, levels and limits, and the end of the start-up window (chapter 16). -/

namespace Sys2Proof.Machine

open Sys2Proof.Claims (Ends Quiet Heard cmdWord)

/-! Power states (R466, R467). -/

/-- A device without what a change of the power state touches. -/
def Dev.sansPower (d : Dev) : Dev := { d with regs := [], dies := [], pwr := {}, out := [] }

theorem sansPower_fields {d e : Dev} (h : d.sansPower = e.sansPower) :
    d.tiles = e.tiles ∧ d.ctxs = e.ctxs ∧ d.counters = e.counters ∧ d.stores = e.stores ∧ d.wipes = e.wipes := by
  simp only [Dev.sansPower, Dev.mk.injEq] at h
  simp only [h, and_self]

/-- TCLK of one die stops. -/
def Dev.stopDie (d : Dev) (st : PowerState) (mv q : Nat) : Dev :=
  (d.setDie q { d.die q with tclkStopped := true, locked := (d.die q).locked && st != .forward }).avs q mv

theorem stopTclk_eq (d : Dev) (st : PowerState) (mv : Nat → Nat) :
    d.stopTclk st mv = ({ d with pwr := { d.pwr with state := st } } : Dev).each (List.range 4) (fun d q => d.stopDie st (mv q) q) := rfl

theorem stopTclk_sansPower (d : Dev) (st : PowerState) (mv : Nat → Nat) : (d.stopTclk st mv).sansPower = d.sansPower :=
  (Dev.each_frame Dev.sansPower _ (fun _ _ => by rfl) _).trans rfl

theorem stopTclk_state (d : Dev) (st : PowerState) (mv : Nat → Nat) : (d.stopTclk st mv).pwr.state = st :=
  Dev.each_frame (f := fun d q => d.stopDie st (mv q) q) (fun d => d.pwr.state) _ (fun _ _ => by rfl) _

theorem stopTclk_die (d : Dev) (st : PowerState) (mv : Nat → Nat) {q : Nat} (hq : q < 4) :
    (d.stopTclk st mv).die q = { d.die q with tclkStopped := true, locked := (d.die q).locked && st != .forward } := by
  refine Dev.each_range_update (f := fun d q => d.stopDie st (mv q) q) Dev.die
    (fun _ x => { x with tclkStopped := true, locked := x.locked && st != .forward }) (fun e a i => ?_) _ hq
  change (e.setDie a _).die i = _
  rw [Dev.die_setDie]
  split
  · next h => rw [h]
  · rfl

/-- An accepted command of PWR_CTRL. -/
theorem pwrCtrlWrite_of_ok {d e : Dev} {v : BitVec 32} {cmd : Nat} (hv : fb v 31 30 = cmd) (h : d.pwrCommand cmd = (e, stOK)) :
    d.pwrCtrlWrite v = (e.putReg Reg.pwrCtrl v, stOK) := by
  simp [Dev.pwrCtrlWrite, hv, h]

/-- A heard and accepted command of PWR_CTRL: of the device only its word, the power state and the dies can differ. -/
theorem ends_of_pwrCtrl {i : Instr} {s : State} {r : Requester} (cmd : Nat) {e : Dev} {P : State → Prop} (hcmd : cmd < 4)
    (hexec : exec i s = s.runReg r Reg.pwrCtrl (pwrWord s.dev Reg.pwrCtrl cmd) (fun d => d.ctx0OrAdmin r)
      (fun _ d => d.pwrCtrlWrite (pwrWord d Reg.pwrCtrl cmd)))
    (hheard : Heard s r Reg.pwrCtrl (cmdWord s Reg.pwrCtrl cmd)) (hmay : s.dev.ctx0OrAdmin r = true)
    (hcommand : s.begin.pwrCommand cmd = (e, stOK)) (hkeeps : e.sansPower = s.begin.sansPower)
    (hP : ∀ u : State, u.dev.pwr = e.pwr → (∀ q, u.dev.die q = e.die q) → u.mem = s.mem → u.dev.tiles = s.dev.tiles → u.dev.ctxs = s.dev.ctxs →
      u.dev.counters = s.dev.counters → P u) : Ends i s P := by
  obtain ⟨htiles, hctxs, hcounters, hstores, hwipes⟩ := sansPower_fields hkeeps
  have hquiet : Quiet i s ((e.putReg Reg.pwrCtrl (pwrWord s.begin Reg.pwrCtrl cmd)).answer r stOK) :=
    quiet_of_heard hexec hheard hmay (pwrCtrlWrite_of_ok (fb_cmd _ hcmd) hcommand) hstores hwipes
  exact ends_of_quiet hquiet (hP _ rfl (fun _ => rfl) rfl htiles hctxs hcounters)

theorem pwrIdle_begin (s : State) : s.begin.pwrIdle = s.dev.pwrIdle := rfl

theorem powerRun_sansPower (d : Dev) : d.powerRun.sansPower = d.sansPower := by
  unfold Dev.powerRun
  split
  · exact (Dev.each_frame Dev.sansPower _ (fun _ _ => by rfl) _).trans rfl
  · rfl

theorem pwrCommand_run_of_quiesce {d : Dev} (h : d.pwr.state = .quiesce) :
    d.pwrCommand 3 = (d.powerRun.each (List.range 4) (fun d q => d.avs q (d.setPoint q (d.diePower q).level)), stOK) := by
  simp [Dev.pwrCommand, h]

theorem powerRun_of_quiesce {d : Dev} (h : d.pwr.state = .quiesce) : d.powerRun.pwr.state = .run ∧
    ∀ q, q < 4 → (d.powerRun.die q).tclkStopped = false := by
  have hrun : d.powerRun = ({ d with pwr := { d.pwr with state := .run } } : Dev).each (List.range 4)
      (fun d q => d.setDie q { d.die q with tclkStopped := false, locked := !d.lost q }) := by simp [Dev.powerRun, h]
  rw [hrun]
  refine ⟨Dev.each_frame (fun d => d.pwr.state) _ (fun _ _ => by rfl) _, fun q hq => ?_⟩
  refine Dev.each_range_update (fun d q => (d.die q).tclkStopped) (fun _ _ => false) (fun e a i => ?_) _ hq
  rw [Dev.die_setDie]
  split <;> rfl

/-- Settles O13: a command that is accepted sets the state and the clocks of the four compute dies, and nothing else but its own word. -/
theorem powerStatesFollowTheirCommands : Obligations.PowerStatesFollowTheirCommands := by
  refine ⟨fun s r hheard hmay hstate hidle => ?quiesce, fun s r hheard hmay hstate => ?forward, fun s r hheard hmay hstate => ?run⟩
  case quiesce =>
    have hcommand : s.begin.pwrCommand 1 = (s.begin.stopTclk .quiesce (fun q => s.begin.setPoint q 0), stOK) := by
      simp [Dev.pwrCommand, hstate, pwrIdle_begin, hidle]
    refine ends_of_pwrCtrl 1 (by decide) rfl hheard hmay hcommand (stopTclk_sansPower _ _ _)
      fun u hpwr hdies hmem htiles hctxs hcounters => ⟨?_, fun q hq => ?_, hmem, htiles, hctxs, hcounters⟩
    · rw [hpwr, stopTclk_state]
    · rw [hdies, stopTclk_die _ _ _ hq]
  case forward =>
    have hcommand : s.begin.pwrCommand 2 = (s.begin.stopTclk .forward (fun _ => 500), stOK) := by
      simp [Dev.pwrCommand, hstate]
    refine ends_of_pwrCtrl 2 (by decide) rfl hheard hmay hcommand (stopTclk_sansPower _ _ _)
      fun u hpwr hdies hmem htiles hctxs hcounters => ⟨?_, fun q hq => ?_, hmem, htiles, hctxs, hcounters⟩
    · rw [hpwr, stopTclk_state]
    · rw [hdies, stopTclk_die _ _ _ hq]
      exact ⟨rfl, Bool.and_false _⟩
  case run =>
    obtain ⟨hrun, hclocks⟩ := powerRun_of_quiesce (d := s.begin) hstate
    have hkeeps : (s.begin.powerRun.each (List.range 4) (fun d q => d.avs q (d.setPoint q (d.diePower q).level))).sansPower
        = s.begin.sansPower := (Dev.each_frame Dev.sansPower _ (fun _ _ => by rfl) _).trans (powerRun_sansPower _)
    refine ends_of_pwrCtrl 3 (by decide) rfl hheard hmay (pwrCommand_run_of_quiesce hstate) hkeeps
      fun u hpwr hdies hmem htiles hctxs _ => ⟨?_, fun q hq => ?_, hmem, htiles, hctxs⟩
    · rw [hpwr]
      exact (Dev.each_frame (fun d => d.pwr.state) _ (fun _ _ => by rfl) _).trans hrun
    · rw [hdies]
      exact (Dev.each_frame (fun d => (d.die q).tclkStopped) _ (fun _ _ => by rfl) _).trans (hclocks q hq)

/-! The start-up window (Tables 16.8 and 16.9). -/

theorem toLinks_of_window {d : Dev} (h : d.bringUp = .window) :
    d.toLinks = { d with bringUp := .links, pwr := { d.pwr with phase := 4, linksAt := d.lode.count, goHeld := false } } := by
  simp [Dev.toLinks, h]

/-- Settles O15: GO and the expiry both end the window by the same step. -/
theorem startUpWindowEnds : Obligations.StartUpWindowEnds := by
  refine ⟨fun s hwindow => ?expiry, fun s r hheard hmay hwindow => ?go⟩
  case expiry => exact quiet_of_run (x := xBootWindowExpiry) rfl (toLinks_of_window (d := s.begin) hwindow) rfl rfl
  case go =>
    have hlinks := toLinks_of_window (d := s.begin) hwindow
    have hwrite : s.begin.bootCtrlWrite (pwrWord s.begin Reg.pwrBootCtrl 1)
        = (s.begin.toLinks.putReg Reg.pwrBootCtrl (pwrWord s.begin Reg.pwrBootCtrl 1), stOK) := by
      have hcmd : fb (pwrWord s.begin Reg.pwrBootCtrl 1) 31 30 = 1 := fb_cmd _ (by decide)
      simp [Dev.bootCtrlWrite, hcmd, Dev.bootGo, hwindow]
    rw [hlinks] at hwrite
    have hquiet := quiet_of_heard (i := .pwrBootGo r) (x := fun _ d => d.bootCtrlWrite (pwrWord d Reg.pwrBootCtrl 1))
      (perm := fun d => d.ctx0OrAdmin r) rfl hheard hmay hwrite rfl rfl
    exact ends_of_quiet hquiet ⟨rfl, rfl, rfl, rfl, rfl, rfl⟩

end Sys2Proof.Machine
end

section
/-! Tile-clock levels, the limit loop and temperature (R463 to R465, R468, R470). -/

namespace Sys2Proof.Machine

open Sys2Proof.Claims (Ends Quiet Heard)

/-- A device without its power management. -/
def Dev.sansPwr (d : Dev) : Dev := { d with pwr := {} }

theorem sansPwr_fields {d e : Dev} (h : d.sansPwr = e.sansPwr) :
    d.regs = e.regs ∧ d.tiles = e.tiles ∧ d.counters = e.counters ∧ d.stores = e.stores ∧ d.wipes = e.wipes := by
  simp only [Dev.sansPwr, Dev.mk.injEq] at h
  simp only [h, and_self]

/-- The limit of each die is set by a rule. -/
theorem diePower_eachLimit (d : Dev) (f : Nat → Nat) {q : Nat} (hq : q < 4) :
    (d.eachLimit f).diePower q = { d.diePower q with limit := f (d.diePower q).limit } := by
  refine Dev.each_range_update (f := fun d q => d.setDiePower q { d.diePower q with limit := f (d.diePower q).limit }) Dev.diePower
    (fun _ x => { x with limit := f x.limit }) (fun e a i => ?_) d hq
  rw [Dev.diePower_setDiePower]
  split
  · next h => rw [h]
  · rfl

theorem eachLimit_sansPwr (d : Dev) (f : Nat → Nat) : (d.eachLimit f).sansPwr = d.sansPwr :=
  Dev.each_frame Dev.sansPwr _ (fun _ _ => by rfl) d

theorem eachLimit_pwr (d : Dev) (f : Nat → Nat) : ({ (d.eachLimit f).pwr with dies := [] } : Pwr) = { d.pwr with dies := [] } :=
  Dev.each_frame (fun d => ({ d.pwr with dies := [] } : Pwr)) _ (fun _ _ => by rfl) d

/-- The loop at a power above its limit (R464). -/
theorem xLimitLoop_above {m : Mem} {d : Dev} {w : BitVec 12} (hon : d.rb Reg.pwrLimit 31 = true) (hover : d.rf Reg.pwrLimit 11 0 < w.toNat) :
    xLimitLoop w m d = ({ d with pwr := { d.pwr with watts := w, lowRuns := 0 } } : Dev).eachLimit (· - 1) := by
  unfold xLimitLoop
  refine (if_neg ?_).trans (if_pos ?_)
  · change ¬ (!d.rb Reg.pwrLimit 31) = true
    simp [hon]
  · exact hover

theorem limitLoop_above (s : State) (w : BitVec 12) (hon : s.dev.rb Reg.pwrLimit 31 = true) (hover : s.dev.rf Reg.pwrLimit 11 0 < w.toNat) :
    Ends (.limitLoop w) s (fun t => (∀ q, q < 4 → (t.dev.diePower q).limit = (s.dev.diePower q).limit - 1) ∧ t.dev.pwr.lowRuns = 0 ∧
      t.dev.pwr.watts = w ∧ t.mem = s.mem ∧ t.dev.regs = s.dev.regs ∧ t.dev.counters = s.dev.counters) := by
  have heffect := xLimitLoop_above (m := s.mem) (d := s.begin) hon hover
  generalize hd : ({ s.begin with pwr := { s.begin.pwr with watts := w, lowRuns := 0 } } : Dev) = d at heffect
  obtain ⟨hregs, -, hcounters, hstores, hwipes⟩ := sansPwr_fields (eachLimit_sansPwr d (· - 1))
  have hpwr := eachLimit_pwr d (· - 1)
  have hlimit : ∀ q, q < 4 → ((d.eachLimit (· - 1)).diePower q).limit = (s.dev.diePower q).limit - 1 := by
    intro q hq
    rw [diePower_eachLimit d _ hq, ← hd]
    rfl
  subst hd
  refine ends_of_run (x := xLimitLoop w) rfl heffect ⟨hlimit, ?_, ?_, State.commit_mem s _ hstores hwipes, hregs, hcounters⟩
  · exact congrArg Pwr.lowRuns hpwr
  · exact congrArg Pwr.watts hpwr

/-! The fast cap (R465). -/

/-- The limits that a cap has put away. -/
def Dev.restoreLimits (d : Dev) (saved : List Nat) : Dev :=
  d.each (List.range 4) (fun d q => d.setDiePower q { d.diePower q with limit := saved.getD q (d.diePower q).limit })

theorem restoreLimits_limit (d : Dev) {saved : List Nat} (hlen : saved.length = 4) {q : Nat} (hq : q < 4) :
    ((d.restoreLimits saved).diePower q).limit = saved.getD q 0 := by
  have hrestored : ((d.restoreLimits saved).diePower q).limit = saved.getD q (d.diePower q).limit := by
    refine Dev.each_range_update (f := fun d q => d.setDiePower q { d.diePower q with limit := saved.getD q (d.diePower q).limit })
      (fun d q => (d.diePower q).limit) (fun q x => saved.getD q x) (fun e a i => ?_) d hq
    rw [Dev.diePower_setDiePower]
    split
    · next h => rw [h]
    · rfl
  rw [hrestored, List.getD_eq_getElem _ _ (by omega), List.getD_eq_getElem _ _ (by omega)]

theorem xPwrCapDeassert_low {m : Mem} {d : Dev} (hlow : d.pwr.capLow = true) :
    xPwrCapDeassert m d = ({ d with pwr := { d.pwr with capLow := false, savedLimit := [] } } : Dev).restoreLimits d.pwr.savedLimit := by
  simp [xPwrCapDeassert, hlow, Dev.restoreLimits]

theorem pwrCapDeassert_low (s : State) (hlow : s.dev.pwr.capLow = true) (hlen : s.dev.pwr.savedLimit.length = 4) :
    Ends .pwrCapDeassert s (fun t => t.dev.pwr.capLow = false ∧
      (∀ q, q < 4 → (t.dev.diePower q).limit = s.dev.pwr.savedLimit.getD q 0) ∧ t.mem = s.mem ∧ t.dev.regs = s.dev.regs ∧
      t.dev.counters = s.dev.counters) := by
  have heffect := xPwrCapDeassert_low (m := s.mem) (d := s.begin) hlow
  have hframe : ∀ d : Dev, (d.restoreLimits s.begin.pwr.savedLimit).sansPwr = d.sansPwr :=
    fun d => Dev.each_frame Dev.sansPwr _ (fun _ _ => by rfl) d
  have hcap : ∀ d : Dev, (d.restoreLimits s.begin.pwr.savedLimit).pwr.capLow = d.pwr.capLow :=
    fun d => Dev.each_frame (fun d => d.pwr.capLow) _ (fun _ _ => by rfl) d
  obtain ⟨hregs, -, hcounters, hstores, hwipes⟩ := sansPwr_fields (hframe { s.begin with pwr := { s.begin.pwr with capLow := false, savedLimit := [] } })
  exact ends_of_run (x := xPwrCapDeassert) rfl heffect
    ⟨hcap _, fun q hq => restoreLimits_limit _ hlen hq, State.commit_mem s _ hstores hwipes, hregs, hcounters⟩

/-! Levels (R463). -/

/-- A device whose regulator reads back a voltage. -/
theorem effectiveLevel_setMv (d : Dev) (q i : Nat) (mv : BitVec 10) :
    (d.setDiePower q { d.diePower q with mv := mv }).effectiveLevel i = d.effectiveLevel i := by
  by_cases h : q = i
  case pos => subst h; simp only [Dev.effectiveLevel, Dev.diePower_setDiePower, if_true]; rfl
  case neg => simp only [Dev.effectiveLevel, Dev.diePower_setDiePower, if_neg h]; rfl

/-- A step up: the voltage has been read back and the pipelines are empty. -/
theorem xDvfsStep_up {m : Mem} {d : Dev} {q mv : Nat} (hrun : d.pwr.state = .run) (hlost : d.lost q = false) (hup : d.bringUp ≠ .off)
    (hempty : d.pipesEmpty q = true) (hlow : (d.diePower q).level < d.effectiveLevel q) (hmv : d.setPoint q (d.effectiveLevel q) ≤ mv) :
    xDvfsStep q mv m d = (d.setDiePower q { d.diePower q with mv := BitVec.ofNat 10 mv }).setLevel q (d.effectiveLevel q) := by
  unfold xDvfsStep
  extract_lets y d' l x
  have hl : l = d.effectiveLevel q := effectiveLevel_setMv d q q _
  have hx : x.level = (d.diePower q).level := by simp only [x, d', y, Dev.diePower_setDiePower, if_true]
  have hgo : ¬ (d'.pwr.state != .run || d'.lost q || d'.bringUp == .off || l == x.level) = true := by
    rw [hl, hx]
    change ¬ (d.pwr.state != .run || d.lost q || d.bringUp == .off || d.effectiveLevel q == (d.diePower q).level) = true
    simp [hrun, hlost, hup]
    omega
  have hempty' : d'.pipesEmpty q = true := hempty
  have hpoint : ¬ mv < d'.setPoint q l := by rw [hl]; exact not_lt.mpr hmv
  rw [if_neg hgo, hl, if_pos (by rw [hx]; exact hlow), ← hl, if_neg hpoint, if_pos hempty']

theorem dvfsStep_up (s : State) (q : Fin 4) (mv : BitVec 10) (hrun : s.dev.pwr.state = .run) (hlost : s.dev.lost q = false)
    (hup : s.dev.bringUp ≠ .off) (hempty : s.dev.pipesEmpty q = true) (hlow : (s.dev.diePower q).level < s.dev.effectiveLevel q)
    (hmv : s.dev.setPoint q (s.dev.effectiveLevel q) ≤ mv.toNat) :
    Ends (.dvfsStep q mv) s (fun t => (t.dev.diePower q).level = s.dev.effectiveLevel q ∧ (t.dev.diePower q).mv = mv ∧
      t.dev.count Reg.pwrDvfsSteps = s.dev.count Reg.pwrDvfsSteps + 1 ∧ t.mem = s.mem ∧ t.dev.regs = s.dev.regs ∧
      t.dev.tiles = s.dev.tiles) := by
  have heffect := xDvfsStep_up (m := s.mem) (d := s.begin) hrun hlost hup hempty hlow hmv
  generalize hl : s.begin.effectiveLevel q = l at heffect
  refine ends_of_run (x := xDvfsStep q mv.toNat) rfl heffect
    ⟨?level, ?voltage, ?steps, State.commit_mem s _ (by simp [Dev.setLevel]) (by simp [Dev.setLevel]), ?regs, ?tiles⟩
  case level =>
    change s.dev.effectiveLevel q = l at hl
    simpa [Dev.setLevel, Dev.diePower_setDiePower] using hl.symm
  all_goals simp [Dev.setLevel, Dev.diePower_setDiePower]

/-! Temperature (R468, R470). -/

theorem trip_sans (d : Dev) : d.trip.regs = d.regs ∧ d.trip.tiles = d.tiles ∧ d.trip.stores = d.stores ∧ d.trip.wipes = d.wipes ∧
    d.trip.bringUp = (if d.bringUp == .done then BringUp.done else .stopped) ∧ d.trip.pwr = { d.pwr with state := .tripped } :=
  ⟨Dev.each_frame Dev.regs _ (fun _ _ => by rfl) _, Dev.each_frame Dev.tiles _ (fun _ _ => by rfl) _,
    Dev.each_frame Dev.stores _ (fun _ _ => by rfl) _, Dev.each_frame Dev.wipes _ (fun _ _ => by rfl) _,
    Dev.each_frame Dev.bringUp _ (fun _ _ => by rfl) _, Dev.each_frame Dev.pwr _ (fun _ _ => by rfl) _⟩

theorem trip_die (d : Dev) {i : Nat} (hi : i < 6) : (d.trip.die i).tclkStopped = true := by
  refine Dev.each_range_update (f := fun d i => d.setDie i { d.die i with tclkStopped := true })
    (fun d i => (d.die i).tclkStopped) (fun _ _ => true) (fun e a i => ?_) _ hi
  rw [Dev.die_setDie]
  split <;> rfl

/-- One die's thermal level after a millisecond. -/
def Dev.thermalDie (d : Dev) (t : Temps) (q : Nat) : Dev :=
  if tempsThrottle t q then d.setDiePower q { d.diePower q with thermal := (d.diePower q).thermal - 1 }
  else if tempsCool t q then d.setDiePower q { d.diePower q with thermal := min 8 ((d.diePower q).thermal + 1) }
  else d

theorem xThermalLevelStep_some {m : Mem} {d : Dev} {t : Temps} (h : d.pwr.temps = some t) :
    xThermalLevelStep m d = (d.each (List.range 4) (fun d q => d.thermalDie t q)).bumpIf
      (d.each (List.range 4) (fun d q => d.thermalDie t q)).throttled Reg.pwrThrottleMs := by
  unfold xThermalLevelStep
  rw [h]
  rfl

theorem thermalDie_sansPwr (d : Dev) (t : Temps) (q : Nat) : (d.thermalDie t q).sansPwr = d.sansPwr := by
  unfold Dev.thermalDie
  split_ifs <;> rfl

theorem thermalDie_other (d : Dev) (t : Temps) {q i : Nat} (h : q ≠ i) : (d.thermalDie t q).diePower i = d.diePower i := by
  unfold Dev.thermalDie
  split_ifs <;> simp [Dev.diePower_setDiePower, h]

theorem thermalLevelStep_throttled (s : State) (x : Temps) (htemps : s.dev.pwr.temps = some x) (hthrottle : tempsThrottle x 0 = true) :
    Ends .thermalLevelStep s (fun t => (t.dev.diePower 0).thermal = (s.dev.diePower 0).thermal - 1 ∧ t.mem = s.mem ∧
      t.dev.regs = s.dev.regs ∧ t.dev.tiles = s.dev.tiles) := by
  have heffect := xThermalLevelStep_some (m := s.mem) (d := s.begin) htemps
  have hframe := Dev.each_frame (f := fun d q => d.thermalDie x q) Dev.sansPwr (List.range 4) (fun d q => thermalDie_sansPwr d x q) s.begin
  have hdie : ((s.begin.each (List.range 4) (fun d q => d.thermalDie x q)).diePower 0).thermal = (s.dev.diePower 0).thermal - 1 := by
    have hfirst : (s.begin.thermalDie x 0).diePower 0 = { s.dev.diePower 0 with thermal := (s.dev.diePower 0).thermal - 1 } := by
      simp [Dev.thermalDie, hthrottle, Dev.diePower_setDiePower]
    rw [show List.range 4 = [0, 1, 2, 3] from rfl]
    simp only [Dev.each_cons, Dev.each_nil]
    rw [thermalDie_other _ _ (by decide), thermalDie_other _ _ (by decide), thermalDie_other _ _ (by decide), hfirst]
  obtain ⟨hregs, htiles, -, hstores, hwipes⟩ := sansPwr_fields hframe
  refine ends_of_run (x := xThermalLevelStep) rfl heffect ⟨?_, State.commit_mem s _ ?_ ?_, ?_, ?_⟩
  · rw [Dev.bumpIf]; split <;> exact hdie
  · exact (Dev.bumpIf_stores _ _ _).trans hstores
  · exact (Dev.bumpIf_wipes _ _ _).trans hwipes
  · exact (Dev.bumpIf_regs _ _ _).trans hregs
  · exact (Dev.bumpIf_tiles _ _ _).trans htiles

/-- Settles O14: each command sets its own level, limit or state, and the limits and levels of the dies follow die by die. -/
theorem powerLimitsMoveLevels : Obligations.PowerLimitsMoveLevels := by
  refine ⟨fun s r q v hheard hmay hlevel => ?level, fun s r q v hheard hmay hlevel => ?tooHigh, dvfsStep_up, limitLoop_above,
    fun s hhigh => ?cap, pwrCapDeassert_low, fun s x hup hcool => ?sample, fun s x hdone htrip hstate => ?trip, thermalLevelStep_throttled⟩
  case level =>
    exact quiet_of_heard (i := .dvfsLevelReqWrite r q v) (x := fun _ d => (d.dvfsWrite q.val v, stOK)) (perm := fun d => d.ctx0OrAdmin r)
      rfl hheard hmay (by simp [Dev.dvfsWrite, hlevel]) rfl rfl
  case tooHigh =>
    exact quiet_of_heard (i := .dvfsLevelReqWrite r q v) (x := fun _ d => (d.dvfsWrite q.val v, stOK)) (perm := fun d => d.ctx0OrAdmin r)
      rfl hheard hmay (by simp [Dev.dvfsWrite, hlevel]) rfl rfl
  case cap =>
    refine quiet_of_run (x := xPwrCapAssert) rfl ?_ rfl rfl
    simp only [xPwrCapAssert]
    rw [if_neg (by simp [hhigh])]
    rfl
  case sample =>
    refine quiet_of_run (x := xThermalSample x) rfl ?_ rfl rfl
    simp only [xThermalSample]
    rw [if_neg (by simp [hup]), if_neg (by simp [hcool])]
    rfl
  case trip =>
    have heffect : xThermalSample x s.mem s.begin = ({ s.begin with pwr := { s.begin.pwr with temps := some x } } : Dev).trip := by
      simp only [xThermalSample]
      rw [if_neg (by simp [hdone]), if_pos (by simp [htrip, hstate])]
    obtain ⟨hregs, htiles, hstores, hwipes, hbringUp, hpwr⟩ := trip_sans { s.begin with pwr := { s.begin.pwr with temps := some x } }
    refine ends_of_run (x := xThermalSample x) rfl heffect
      ⟨congrArg Pwr.state hpwr, hbringUp.trans ?_, fun i hi => trip_die _ hi, State.commit_mem s _ hstores hwipes, hregs, htiles⟩
    simp [hdone]

end Sys2Proof.Machine
end

section
/-! Counters and owners beside an event record (R344, R352), and the end of a tile's work where no context owns it. -/

namespace Sys2Proof.Machine

/-! The counters that an event can count in. -/

theorem Dev.count_hwr (d : Dev) (p c a : Nat) (bs : List Byte) (u : Purpose) (x y k : Nat) : (d.hwr p c a bs u x y).count k = d.count k := by
  have h : (d.hwr p c a bs u x y).counters = d.counters := by
    have hsend : ∀ (e : Dev) (k : HPacket), (e.sendHost p k).counters = e.counters := fun e k => by
      unfold Dev.sendHost; split <;> rfl
    unfold Dev.hwr Dev.hostRequest
    extract_lets _ wait
    split
    · rfl
    · split
      · rfl
      · exact hsend _ _
  rw [Dev.count, h]
  rfl

theorem Dev.count_setEventRing (d : Dev) (c : Nat) (r : EventRing) (k : Nat) : (d.setEventRing c r).count k = d.count k := by
  unfold Dev.setEventRing
  split <;> rfl

theorem Dev.count_bump_other (d : Dev) {j k : Nat} (h : j ≠ k) : (d.bump j).count k = d.count k := by
  rw [Dev.bump, Dev.count_bumpN, if_neg h]

theorem Dev.count_ringPut (d : Dev) (c : Nat) (e : Event) {k : Nat} (hpkg : Reg.devEvtLost ≠ k) (hctx : Reg.ctxEvtLost c ≠ k) :
    (d.ringPut c e).count k = d.count k := by
  unfold Dev.ringPut
  extract_lets r at_ used n d'
  split
  · rw [Dev.count_bump_other _ (by split <;> assumption), Dev.count_setEventRing]
  · rw [Dev.count_hwr, Dev.count_setEventRing]

/-- An event counts only in the counters of records withheld (R344). -/
theorem Dev.count_event (d : Dev) (cs : List Nat) (code sev d0 d1 unit : Nat) {k : Nat} (hpkg : Reg.devEvtLost ≠ k)
    (hctx : ∀ c ∈ cs, Reg.ctxEvtLost c ≠ k) (h64 : Reg.ctxEvtLost 64 ≠ k) : (d.event cs code sev d0 d1 unit).count k = d.count k := by
  have hput : ∀ (d : Dev) (o : Out) (c : Nat) (e : Event), Reg.ctxEvtLost c ≠ k → ((d.emit o).ringPut c e).count k = d.count k :=
    fun d o c e hc => Dev.count_ringPut _ c e hpkg hc
  unfold Dev.event
  extract_lets bound pkg e d' c0
  have hrings : d'.count k = d.count k :=
    Dev.each_invariant (P := fun x => x.count k = d.count k)
      (fun x c hc hx => (hput x _ c _ (hctx c (List.mem_of_mem_filter hc))).trans hx) rfl
  split
  · exact (hput _ _ _ _ h64).trans hrings
  · exact hrings

/-- A counter of a tile or a die is no counter of withheld records. -/
theorem Dev.count_event_of_le (d : Dev) (cs : List Nat) (code sev d0 d1 unit : Nat) {k : Nat} (hk : 0x10000000 ≤ k) (hcs : ∀ c ∈ cs, c < 64) :
    (d.event cs code sev d0 d1 unit).count k = d.count k := by
  refine d.count_event cs code sev d0 d1 unit ?_ (fun c hc => ?_) ?_
  · unfold Reg.devEvtLost; omega
  · have := hcs c hc
    unfold Reg.ctxEvtLost ctxWindow; omega
  · unfold Reg.ctxEvtLost ctxWindow; omega

/-! Owners. -/

/-- The owner of a tile is a matter of the contexts' tile masks. -/
theorem Dev.ownerOf_congr {d e : Dev} (h : ∀ c, (e.ctx c).tileMask = (d.ctx c).tileMask) (t : Nat) : e.ownerOf t = d.ownerOf t := by
  unfold Dev.ownerOf
  simp only [h]

@[simp] theorem Dev.ownerOf_event (d : Dev) (cs : List Nat) (code sev d0 d1 unit t : Nat) :
    (d.event cs code sev d0 d1 unit).ownerOf t = d.ownerOf t := Dev.ownerOf_congr (by simp) t

@[simp] theorem Dev.ownerOf_tileEvent (d : Dev) (n code sev d0 d1 t : Nat) : (d.tileEvent n code sev d0 d1).ownerOf t = d.ownerOf t :=
  Dev.ownerOf_event _ _ _ _ _ _ _ _

@[simp] theorem Dev.ownerOf_setTile (d : Dev) (n : Nat) (x : Tile) (t : Nat) : (d.setTile n x).ownerOf t = d.ownerOf t := rfl

@[simp] theorem Dev.ownerOf_bump (d : Dev) (k t : Nat) : (d.bump k).ownerOf t = d.ownerOf t := rfl

theorem Dev.ownerOf_lt {d : Dev} {t c : Nat} (h : c ∈ (d.ownerOf t).toList) : c < 64 := by
  rw [Option.mem_toList] at h
  exact List.mem_range.mp (List.mem_of_find?_eq_some h)

/-- An event of a tile counts only in the counters of records withheld. -/
theorem Dev.count_tileEvent_of_le (d : Dev) (n code sev d0 d1 : Nat) {k : Nat} (hk : 0x10000000 ≤ k) :
    (d.tileEvent n code sev d0 d1).count k = d.count k := d.count_event_of_le _ _ _ _ _ _ hk (fun _ h => Dev.ownerOf_lt h)

/-! The end of a tile's work where no context owns it (R477). -/

/-- A tile whose work has ended. -/
def Tile.workEnded (x : Tile) : Tile := { x with stopped := true, vecWaiting := false, moverStopped := true }

theorem tileError_of_unowned {d : Dev} (m : Mem) {t : Nat} (h : d.ownerOf t = none) (code d0 d1 : Nat) :
    d.tileError m t code d0 d1 true
      = (d.setTile t (d.tile t).workEnded).tileEvent t code (if code == 0x0106 then 3 else 2) d0 d1 := by
  unfold Dev.tileError Dev.tileErrorAt
  extract_lets x d' d''
  have hd'' : d'' = (d.setTile t (d.tile t).workEnded).tileEvent t code (if code == 0x0106 then 3 else 2) d0 d1 := if_pos rfl
  have howner : d''.ownerOf t = none := by rw [hd'']; simpa using h
  rw [howner]
  exact hd''

end Sys2Proof.Machine
end

section
/-! The sequencer's descriptors (R44, R46, R48, R51, R478). -/

namespace Sys2Proof.Machine

open Sys2Proof.Claims (Ends Quiet)

theorem descTaken_frame (x : Tile) : ∃ i p, x.descTaken = { x with descIdx := i, descPass := p } := by
  unfold Tile.descTaken
  dsimp only
  cases x.plane <;>
  · dsimp only
    split
    · exact ⟨_, _, rfl⟩
    · exact ⟨_, _, rfl⟩

theorem descTaken_passOk (x : Tile) (v : BitVec 128) : x.descTaken.passOk v = x.passOk v := by
  obtain ⟨i, p, h⟩ := descTaken_frame x
  rw [h]
  rfl

@[simp] theorem descTaken_fields (x : Tile) : x.descTaken.passes = x.passes ∧ x.descTaken.loader = x.loader ∧ x.descTaken.outputs = x.outputs ∧
    x.descTaken.outputCount = x.outputCount ∧ x.descTaken.chPending = x.chPending := by
  obtain ⟨i, p, h⟩ := descTaken_frame x
  rw [h]
  exact ⟨rfl, rfl, rfl, rfl, rfl⟩

/-- A tile with one more OUTPUT. -/
def Tile.withOutput (x : Tile) (v : BitVec 128) (a : Nat) : Tile :=
  { x with outputs := mset x.outputs (x.outputCount + 1) { desc := v, addr := a }, outputCount := x.outputCount + 1,
           chPending := if oChLoad v then some v else x.chPending }

/-- A descriptor of a tile that no context owns is rejected. -/
theorem ends_of_rejected {i : Instr} {s : State} {x : Effect} {t : Fin 64} {a : Nat} (hexec : exec i s = s.run x)
    (hx : x s.mem s.begin = (s.begin.setTile t (s.dev.tile t).descTaken).descReject s.mem t a) (howner : s.dev.ownerOf t = none) :
    Ends i s (fun u => ((u.dev.tile t).stopped = true ∧ (u.dev.tile t).loader = (s.dev.tile t).loader) ∧
      u.dev.count (Reg.tileDescReject t) = s.dev.count (Reg.tileDescReject t) + 1 ∧ u.mem = s.mem ∧ u.dev.regs = s.dev.regs) := by
  have hunowned : ((s.begin.setTile t (s.dev.tile t).descTaken).bump (Reg.tileDescReject t)).ownerOf t = none := howner
  rw [Dev.descReject, tileError_of_unowned _ hunowned] at hx
  refine ends_of_run hexec hx ⟨⟨?_, ?_⟩, ?_, State.commit_mem s _ ?_ ?_, ?_⟩
  case refine_3 =>
    rw [Dev.count_commit, Dev.count_tileEvent_of_le _ _ _ _ _ _ (by unfold Reg.tileDescReject indBlock; omega)]
    simp
  all_goals simp [Tile.workEnded]

/-- Settles O16 (that NOP takes the reserved OP values is the model's choice, log entry 11): the sequencer takes the descriptor, then
holds it, or drops it, or rejects it. -/
theorem arrayDescriptorsAreTakenInTurn : Obligations.ArrayDescriptorsAreTakenInTurn := by
  refine ⟨fun s t a v hdue hfree hok => ?load, fun s t a v hdue hroom hok => ?pass, fun s t a v hdue hok => ?output,
    fun s t a v hdue hop => ?nop, fun s t a v hdue hfree hbad howner => ?badLoad, fun s t a v hdue hop howner => ?reserved⟩
  case load =>
    refine quiet_of_run (x := xDescLoadB t) rfl ?_ rfl rfl
    simp [xDescLoadB, hdue, hfree, hok]
  case pass =>
    refine quiet_of_run (x := xDescPass t) rfl ?_ rfl rfl
    rw [descTaken_passOk] at hok
    simp [xDescPass, hdue, hok, not_le.mpr hroom]
  case output =>
    have htaken : xDescOutput t s.mem s.begin = (s.begin.setTile t (s.dev.tile t).descTaken).setTile t
        ((s.dev.tile t).descTaken.withOutput v a) := by
      simp [xDescOutput, hdue, hok, Tile.withOutput]
    refine ends_of_run (x := xDescOutput t) rfl htaken
      ⟨?_, ?_, ?_, fun h => ?_, fun h => ?_, State.commit_mem s _ (by simp) (by simp), by simp, by simp, fun j hj => ?_⟩
    case refine_6 => simp [Dev.tile_setTile, Ne.symm hj]
    all_goals simp [Tile.withOutput, mfind_mset, *]
  case nop =>
    refine quiet_of_run (x := xDescNop t) rfl ?_ rfl rfl
    simp [xDescNop, hdue, hop]
  case badLoad =>
    obtain ⟨u, hnext, hpending, ⟨hstopped, hloader⟩, hrest⟩ := ends_of_rejected (i := .descLoadB t) (x := xDescLoadB t) (t := t) (a := a) rfl
      (by simp [xDescLoadB, hdue, hfree, hbad]) howner
    exact ⟨u, hnext, hpending, hstopped, hloader.trans hfree, hrest⟩
  case reserved =>
    have hop' : fb v 127 124 ≠ 0 := by omega
    obtain ⟨u, hnext, hpending, ⟨hstopped, -⟩, hrest⟩ := ends_of_rejected (i := .descNop t) (x := xDescNop t) (t := t) (a := a) rfl
      (by simp [xDescNop, hdue, hop']) howner
    exact ⟨u, hnext, hpending, hstopped, hrest⟩

end Sys2Proof.Machine
end

section
/-! Which words of the register map take which bits: the registers of a tile, of a die and of the package (Tables 14.2 and 14.7), and the
fields of a word after a write. -/

namespace Sys2Proof.Machine

/-- A tile's block holds the registers of the tile space, at the same offsets for every tile. -/
theorem regAt_tile {t o : Nat} (ht : t < 64) (ho : o < 0x10000) : regAt (indBlock t + o) = regTable.find? (fun r => r.holds [.tile] o) := by
  have hblock : (indBlock t + o - 0x10000000) / 0x10000 = t := by unfold indBlock; omega
  have hoff : (indBlock t + o - 0x10000000) % 0x10000 = o := by unfold indBlock; omega
  have hpkg : ¬ indBlock t + o < 0x100000 := by unfold indBlock; omega
  have hctx : ¬ indBlock t + o < 0x500000 := by unfold indBlock; omega
  have hnone : ¬ indBlock t + o < 0x10000000 := by unfold indBlock; omega
  simp only [regAt, keySpaces, if_neg hpkg, if_neg hctx, if_neg hnone, hblock, hoff]
  rw [if_pos (show t < 0x40 from ht)]

/-- The registers of the package stand below the windows. -/
theorem regAt_pkg {k : Nat} (hk : k < 0x100000) : regAt k = regTable.find? (fun r => r.holds [.pkg] k) := by
  simp only [regAt, keySpaces, if_pos hk]

/-- The bits that a write changes of the word at an offset of a space. -/
def spaceMask (sp : List RegSpace) (o : Nat) : Nat :=
  match regTable.find? (fun r => r.holds sp o) with
  | some r => (r.fields.filter (fun f => f.access == .rw || f.access == .rwg)).foldl (fun a f => a + (2 ^ (f.hi + 1 - f.lo) - 1) * 2 ^ f.lo) 0
  | none => 0

theorem writeMask_tile {t o : Nat} (ht : t < 64) (ho : o < 0x10000) : writeMask (indBlock t + o) = spaceMask [.tile] o := by
  rw [writeMask, regAt_tile ht ho]
  rfl

theorem writeMask_ctx {c o : Nat} (hc : c < 64) (ho : o < 0x10000) : writeMask (ctxWindow c + o) = spaceMask [.ctx] o := by
  rw [writeMask, regAt_ctx hc ho]
  rfl

theorem writeMask_pkg {k : Nat} (hk : k < 0x100000) : writeMask k = spaceMask [.pkg] k := by
  rw [writeMask, regAt_pkg hk]
  rfl

/-- A bit of the word after a write (R408). -/
theorem getLsbD_putReg (d : Dev) (k : Nat) (v : BitVec 32) {i : Nat} (hi : i < 32) :
    ((d.putReg k v).reg k).getLsbD i = if (writeMask k).testBit i then v.getLsbD i else (d.reg k).getLsbD i := by
  rw [Dev.putReg, Dev.reg_setReg_same]
  simp only [BitVec.getLsbD_or, BitVec.getLsbD_and, BitVec.getLsbD_not, BitVec.getLsbD_ofNat, hi, decide_true, Bool.true_and]
  cases (writeMask k).testBit i <;> simp

/-- A field's bits, one by one. -/
theorem fb_eq_of_bits {v w : BitVec 32} {hi lo : Nat} (h : ∀ i, lo ≤ i → i ≤ hi → v.getLsbD i = w.getLsbD i) : fb v hi lo = fb w hi lo := by
  refine Nat.eq_of_testBit_eq fun i => ?_
  simp only [fb, fld, Nat.testBit_mod_two_pow, Nat.testBit_shiftRight]
  by_cases hi' : i < hi + 1 - lo
  case pos => simp only [hi', decide_true, Bool.true_and]; exact h (lo + i) (by omega) (by omega)
  case neg => simp [hi']

/-- A field all of whose bits are RW or RWG takes the value written. -/
theorem rf_putReg {k hi lo mask : Nat} (hhi : hi < 32) (hmask : writeMask k = mask) (hbits : ∀ i, i < 32 → lo ≤ i → i ≤ hi → mask.testBit i = true)
    (d : Dev) (v : BitVec 32) : (d.putReg k v).rf k hi lo = fb v hi lo :=
  fb_eq_of_bits fun i hlo hi' => by
    rw [getLsbD_putReg d k v (by omega), hmask, hbits i (by omega) hlo hi', if_pos rfl]

/-- A field none of whose bits is RW or RWG stays. -/
theorem rf_putReg_kept {k hi lo mask : Nat} (hhi : hi < 32) (hmask : writeMask k = mask)
    (hbits : ∀ i, i < 32 → lo ≤ i → i ≤ hi → mask.testBit i = false) (d : Dev) (v : BitVec 32) : (d.putReg k v).rf k hi lo = d.rf k hi lo :=
  fb_eq_of_bits fun i hlo hi' => by
    rw [getLsbD_putReg d k v (by omega), hmask, hbits i (by omega) hlo hi', if_neg (by simp)]

/-! Words of a block (R419). -/

theorem tileWord_of_live {d : Dev} {t : Nat} (hlost : d.lost (dieOf t) = false) (hlive : (d.tile t).state ≠ .retired) (x : Dev → Dev) :
    d.tileWord t x = (x d, stOK) := by
  simp [Dev.tileWord, hlost, hlive]

theorem dieWord_of_present {d : Dev} {q : Nat} (hlost : d.lost q = false) (x : Dev → Dev) : d.dieWord q x = (x d, stOK) := by
  simp [Dev.dieWord, hlost]

end Sys2Proof.Machine
end

section
/-! The keeper and TILE_CONV_CTRL (R72, R73, R103, R104). -/

namespace Sys2Proof.Machine

open Sys2Proof.Claims (Ends Quiet Heard)

@[simp] theorem Keeper.enter_level (k : Keeper) (c : BitVec 32) (s : KeeperState) : (k.enter c s).level = k.level := by
  unfold Keeper.enter
  dsimp only
  split_ifs <;> rfl

theorem Keeper.enter_run (k : Keeper) (c : BitVec 32) : (k.enter c .run).state = .run := by
  cases hon : Keeper.enabled c <;> simp [Keeper.enter, hon]

theorem Keeper.enter_decay {k : Keeper} {c : BitVec 32} (hon : Keeper.enabled c = true) (hlevel : k.level ≠ 0) : (k.enter c .decay).state = .decay := by
  simp [Keeper.enter, hon, hlevel]

/-- FILL turns to DECAY at the level of its dummies (Table 2.6). -/
theorem Keeper.toDecay_of_fill {k : Keeper} {c : BitVec 32} (hfill : k.state = .fill) (hon : Keeper.enabled c = true) (hdummies : k.dummies ≠ 0) :
    (k.toDecay c).state = .decay ∧ (k.toDecay c).level = k.dummies := by
  have hfill' : (k.state == .fill) = true := by simp [hfill]
  simp only [Keeper.toDecay, hfill', if_true]
  exact ⟨Keeper.enter_decay hon hdummies, Keeper.enter_level _ _ _⟩

theorem Keeper.intervalEnd_of_decay {k : Keeper} (c : BitVec 32) (hdecay : k.state = .decay) : (k.intervalEnd c).level = k.level - k.step ∧
    (k.step < k.level → (k.intervalEnd c).state = .decay) := by
  have hdecay' : (k.state == .decay) = true := by simp [hdecay]
  simp only [Keeper.intervalEnd, hdecay', if_true]
  split
  · next hzero => exact ⟨Keeper.enter_level _ _ _, fun hlt => absurd hzero (by omega)⟩
  · exact ⟨rfl, fun _ => hdecay⟩

theorem Keeper.intervalEnd_of_ramp {k : Keeper} (c : BitVec 32) (hramp : k.state = .ramp) : (k.intervalEnd c).level = min 64 (k.level + k.step) ∧
    (64 ≤ k.level + k.step → (k.intervalEnd c).state = .run) ∧ (k.level + k.step < 64 → (k.intervalEnd c).state = .ramp) := by
  have hramp' : ¬ (k.state == .decay) = true := by simp [hramp]
  simp only [Keeper.intervalEnd, if_neg hramp']
  split
  · next hfull => exact ⟨Keeper.enter_level _ _ _, fun _ => Keeper.enter_run _ _, fun hlt => absurd hfull (by omega)⟩
  · next hfull => exact ⟨rfl, fun hge => absurd (min_eq_left hge) hfull, fun _ => hramp⟩

theorem xKeeperRampIntervalEnd_due {m : Mem} {d : Dev} {t : Nat} (hclk : d.tclk t = true) (hlive : (d.tile t).state ≠ .retired)
    (hdue : (d.tile t).keeper.intervalDue = true) :
    xKeeperRampIntervalEnd t m d = d.setTile t { d.tile t with keeper := (d.tile t).keeper.intervalEnd (d.keeperReg t) } := by
  simp [xKeeperRampIntervalEnd, hclk, hlive, hdue]

/-- DST_SCALE is a writable field of TILE_CONV_CTRL (Table 3.8). -/
theorem writeMask_tileConvCtrl (t : Fin 64) : writeMask (Reg.tileConvCtrl t) = 0x31 := by
  have hmask : spaceMask [.tile] 0x10 = 0x31 := by decide +kernel
  rw [← hmask]
  exact writeMask_tile t.isLt (by decide)

/-- Settles O19: the keeper's rules are those of Table 2.6, followed state by state; a written word is checked, then taken. -/
theorem keeperAndConversionControl : Obligations.KeeperAndConversionControl := by
  refine ⟨fun s t hclk hlive hdue => ?dummy, fun s t hclk hlive hfill hgap => ⟨?fillMax, ?toDecay⟩,
    fun s t hclk hlive hdecay hdue => ⟨?interval, Keeper.intervalEnd_of_decay _ hdecay⟩, fun s t hclk hlive hramp hdue => ?ramp,
    fun s r q v hheard hctx0 hlost => ⟨fun hout => ?outOfRange, fun hin => ?inRange⟩,
    fun s r c t v hheard hmay hlost hlive => ⟨?conv, ?scale⟩⟩
  case dummy =>
    have heffect : xKeeperDummyBroadcast t s.mem s.begin
        = (s.begin.setTile t { s.dev.tile t with keeper := (s.dev.tile t).keeper.dummy }).bump (Reg.tileDummy t) := by
      simp [xKeeperDummyBroadcast, show s.begin.tclk t = true from hclk, hlive, hdue]
    refine ends_of_run (x := xKeeperDummyBroadcast t) rfl heffect
      ⟨?_, ?_, ?_, ?_, ?_, fun k hk => ?_, State.commit_mem s _ (by simp) (by simp), by simp⟩
    case refine_6 => simp [Dev.count_bump_other _ (Ne.symm hk)]
    all_goals simp [Keeper.dummy]
  case fillMax =>
    refine quiet_of_run (x := xKeeperFillMaxExpiry t) rfl ?_ rfl rfl
    simp [xKeeperFillMaxExpiry, show s.begin.tclk t = true from hclk, hlive, Keeper.fillMaxDue, hfill, hgap]
    rfl
  case toDecay => exact Keeper.toDecay_of_fill hfill
  case interval =>
    exact quiet_of_run (x := xKeeperRampIntervalEnd t) rfl
      (xKeeperRampIntervalEnd_due (d := s.begin) hclk hlive (by simp [Keeper.intervalDue, hdecay, hdue])) rfl rfl
  case ramp =>
    have heffect := xKeeperRampIntervalEnd_due (m := s.mem) (d := s.begin) hclk hlive (by simp [Keeper.intervalDue, hramp, hdue])
    obtain ⟨hlevel, hrun, hstay⟩ := Keeper.intervalEnd_of_ramp (s.begin.keeperReg t) hramp
    refine ends_of_run (x := xKeeperRampIntervalEnd t) rfl heffect ⟨?_, ?_, ?_, State.commit_mem s _ (by simp) (by simp), by simp, by simp⟩
    all_goals simp only [Dev.tile_commit, Dev.tile_setTile_same]
    · exact hlevel
    · exact hrun
    · exact hstay
  case outOfRange =>
    exact quiet_of_heard (i := .tileKeeperWrite r q v) (x := fun _ d => d.dieWord q.val (fun d => d.keeperWrite q.val v)) (perm := fun _ => isCtx0 r)
      rfl hheard hctx0 ((dieWord_of_present (d := s.begin) hlost _).trans (by rw [Dev.keeperWrite, if_pos (by simpa [or_assoc] using hout)])) rfl rfl
  case inRange =>
    exact quiet_of_heard (i := .tileKeeperWrite r q v) (x := fun _ d => d.dieWord q.val (fun d => d.keeperWrite q.val v)) (perm := fun _ => isCtx0 r)
      rfl hheard hctx0 ((dieWord_of_present (d := s.begin) hlost _).trans (by rw [Dev.keeperWrite, if_neg (by simp [hin])])) rfl rfl
  case conv =>
    exact quiet_of_heard (i := .tileConvCtrlWrite r c t v) (x := fun _ d => d.tileWord t.val (fun d => d.putReg (Reg.tileConvCtrl t.val) v))
      (perm := fun d => d.mayWriteTile r c.val t.val) rfl hheard hmay (tileWord_of_live (d := s.begin) hlost hlive _) rfl rfl
  case scale => exact rf_putReg (by decide) (writeMask_tileConvCtrl t) (by decide) s.begin v

end Sys2Proof.Machine
end

section
/-! Stores that no uncorrectable unit holds up (R186, R194), reads without error, and what stands in memory after a command. -/

namespace Sys2Proof.Machine

open Sys2Proof.Claims (Ends Quiet Holds SameMemBut SameMem)

/-- A read of words none of which is bad and none of which is found bad. -/
theorem scrRead_clean {d : Dev} {t : Nat} (h : (d.tile t).badWords = []) (m : Mem) (r : List (Nat × Nat)) : d.scrRead m t r ⟨[], []⟩ = (d, none) := by
  simp [Dev.scrRead, h]

theorem badWithin_of_none {x : Tile} (h : x.badWords = []) (a n : Nat) : x.badWithin a n = [] := by simp [Tile.badWithin, h]

/-- A store where no unit that it touches is bad. -/
theorem store_of_good {d : Dev} (m : Mem) {a : Nat} {bs : List Byte}
    (hscr : ∀ t o, scrPlace a = some (t, o) → (d.tile t).badWithin o bs.length = [])
    (hhbm : scrPlace a = none → d.badBursts.filter (fun b => 32 * b < a + bs.length && a < 32 * b + 32) = []) :
    d.store m a bs = (d.pokeN a bs, none) := by
  unfold Dev.store
  dsimp only
  cases hplace : scrPlace a with
  | none => simp only [hhbm hplace, List.isEmpty_nil, if_true]
  | some p =>
    obtain ⟨t, o⟩ := p
    simp only [hscr t o hplace, List.isEmpty_nil, if_true]

/-- The tile of a scratchpad address (Table 6.1). -/
theorem scrPlace_scrBase {t o : Nat} (ht : t < 64) (ho : o < 0x2000000) : scrPlace (scrBase t + o) = some (t, o) := by
  have htile : (scrBase t + o - 0x010000000000) / 0x2000000 = t := by unfold scrBase; omega
  have hoff : (scrBase t + o - 0x010000000000) % 0x2000000 = o := by unfold scrBase; omega
  have hin : (0x010000000000 ≤ scrBase t + o && scrBase t + o < 0x010080000000) = true := by unfold scrBase; simp; omega
  simp only [scrPlace, hin, if_true, htile, hoff]

/-- A store into a tile's scratchpad with no bad word, up to its end. -/
theorem store_scratchpad {d : Dev} (m : Mem) {t o : Nat} {bs : List Byte} (ht : t < 64) (hgood : (d.tile t).badWords = [])
    (hend : o < 0x2000000 ∨ o = 0x2000000 ∧ bs = []) : d.store m (scrBase t + o) bs = (d.pokeN (scrBase t + o) bs, none) := by
  rcases hend with ho | ⟨rfl, rfl⟩
  · refine store_of_good m (fun t' o' h => ?_) (fun h => ?_)
    · rw [scrPlace_scrBase ht ho] at h
      cases h
      exact badWithin_of_none hgood _ _
    · rw [scrPlace_scrBase ht ho] at h
      cases h
  · refine store_of_good m (fun t' o' h => ?_) (fun h => ?_)
    · have hzero : o' = 0 := by
        unfold scrPlace at h
        split at h
        · cases h; unfold scrBase; omega
        · cases h
      subst hzero
      simp [Tile.badWithin]
    · refine List.filter_eq_nil_iff.mpr fun b _ => ?_
      unfold scrBase
      simp
      omega

/-- What the running command sees depends on what it has collected alone. -/
theorem peek_congr {d e : Dev} (hstores : d.stores = e.stores) (hwipes : d.wipes = e.wipes) (m : Mem) (a : Nat) : peek m d a = peek m e a := by
  rw [peek, hstores, hwipes]
  rfl

/-- A command whose only stores are one run of bytes. -/
theorem read_commit_of_pokeN (s : State) {d : Dev} {a : Nat} {bs : List Byte} (hstores : d.stores = (s.begin.pokeN a bs).stores) (hwipes : d.wipes = [])
    (y : Nat) : (s.commit d).read y = if a ≤ y ∧ y < a + bs.length then bs.getD (y - a) 0 else s.read y := by
  rw [State.read_commit, peek_congr (e := s.begin.pokeN a bs) hstores hwipes, peek_pokeN, peek_of_unwritten s rfl rfl]

theorem holds_of_pokeN (s : State) {d : Dev} {a : Nat} {bs : List Byte} (hstores : d.stores = (s.begin.pokeN a bs).stores) (hwipes : d.wipes = []) :
    Holds (s.commit d) a bs ∧ SameMemBut s (s.commit d) a bs.length := by
  refine ⟨fun i hi => ?_, fun x hx => ?_⟩
  · rw [read_commit_of_pokeN s hstores hwipes, if_pos ⟨by omega, by omega⟩, Nat.add_sub_cancel_left]
  · rw [read_commit_of_pokeN s hstores hwipes, if_neg (by omega)]

end Sys2Proof.Machine
end

section
/-! The array pipeline (R43, R45, R46, R49, R50, R54, R65, R66). -/

namespace Sys2Proof.Machine

open Sys2Proof.Claims (Ends Quiet Holds SameMemBut)

@[simp] theorem Tile.bank_setBank_same (x : Tile) (b : Bool) (v : Bank) : (x.setBank b v).bank b = v := by cases b <;> rfl

@[simp] theorem Tile.bank_setBank_other (x : Tile) (b : Bool) (v : Bank) : (x.setBank b v).bank (!b) = x.bank (!b) := by cases b <;> rfl

@[simp] theorem Tile.setBank_sets (x : Tile) (b : Bool) (v : Bank) : (x.setBank b v).sets = x.sets := by cases b <;> rfl

theorem Tile.set_setSet_same (x : Tile) (n : Nat) (v : AccSet) : (x.setSet n v).set n = v := mget_mset_same _ _ _ _

/-- A tile whose loader is done. -/
def Tile.withoutLoader (x : Tile) : Tile := { x with loader := none }

@[simp] theorem Tile.withoutLoader_fields (x : Tile) : x.withoutLoader.loader = none ∧ x.withoutLoader.sets = x.sets ∧ ∀ b, x.withoutLoader.bank b = x.bank b :=
  ⟨rfl, rfl, fun b => by cases b <;> rfl⟩

/-- What a bank holds once a held LOAD_B has been read. -/
def Bank.loaded (b : Bank) (desc : BitVec 128) (bytes : List Byte × List Byte) : Bank :=
  { valid := true, desc := desc, codes := bytes.1, scales := bytes.2, loads := b.loads + 1 }

theorem xBankLoadComplete_clean {m : Mem} {d : Dev} {t : Nat} {l : Loader} (hload : (d.tile t).loader = some l) (hruns : d.tileRuns t = true)
    (hfree : (d.tile t).loadStalled l = false) (hgood : (d.tile t).badWords = []) :
    xBankLoadComplete t ⟨[], []⟩ m d = d.setTile t
      ((d.tile t).setBank (dBank l.desc) (((d.tile t).bank (dBank l.desc)).loaded l.desc (readB m d t l.desc))).withoutLoader := by
  simp [xBankLoadComplete, hload, hruns, hfree, scrRead_clean hgood, Bank.loaded, Tile.withoutLoader]

/-- The block that a pass broadcasts next. -/
def Dev.nextBlock (d : Dev) (m : Mem) (t : Nat) (p : Pass) : Block :=
  let b := (d.tile t).bank (dBank p.desc)
  { desc := p.desc, index := p.next, output := p.output, loadDesc := b.desc, bankLoads := b.loads,
    results := blockResults m d t p.desc p.next b.desc b.codes b.scales }

theorem xBlockBroadcast_clean {m : Mem} {d : Dev} {t : Nat} {p : Pass} (hpass : (d.tile t).passes.head? = some p) (hruns : d.tileRuns t = true)
    (hfree : (d.tile t).holds p = .no) (hroom : (d.tile t).pipe.length < 6) (hgood : (d.tile t).badWords = []) :
    xBlockBroadcast t ⟨[], []⟩ m d = (d.setTile t { ((d.tile t).passAdvance p) with
      pipe := (d.tile t).pipe ++ [d.nextBlock m t p], keeper := (d.tile t).keeper.real (d.keeperReg t) }).bump (Reg.tileBlocks t) := by
  simp [xBlockBroadcast, hpass, hruns, hfree, not_le.mpr hroom, scrRead_clean hgood, Dev.nextBlock]

@[simp] theorem Tile.passAdvance_sets (x : Tile) (p : Pass) : (x.passAdvance p).sets = x.sets := by
  unfold Tile.passAdvance
  split <;> rfl

theorem Tile.passAdvance_passes (x : Tile) (p : Pass) : (x.passAdvance p).passes
    = if p.next + 1 < dCount p.desc then { p with next := p.next + 1 } :: x.passes.drop 1 else x.passes.drop 1 := by
  unfold Tile.passAdvance
  split <;> rfl

/-- Without a pass no load is stalled by one. -/
theorem loadStalled_of_no_pass {x : Tile} (h : x.passes = []) (l : Loader) : x.loadStalled l = false := by simp [Tile.loadStalled, h]

theorem xEmptyBroadcastSlot_idle {m : Mem} {d : Dev} {t : Nat} (hclk : d.tclk t = true) (hlive : (d.tile t).state ≠ .retired)
    (hpasses : (d.tile t).passes = []) :
    xEmptyBroadcastSlot t m d = (d.setTile t { d.tile t with keeper := (d.tile t).keeper.idleTick (d.keeperReg t) }).bump (Reg.tileFeedStall t) := by
  have hstalled : (match (d.tile t).loader with | some l => (d.tile t).loadStalled l | none => false) = false := by
    cases (d.tile t).loader with
    | none => rfl
    | some l => exact loadStalled_of_no_pass hpasses l
  simp only [xEmptyBroadcastSlot]
  rw [if_neg (by simp [hclk, hlive])]
  simp only [hpasses, List.head?_nil]
  exact (congrArg (fun b => Dev.bumpIf _ b _) hstalled).trans rfl

theorem packCodes_of_bytes {w : Nat} (h : w ≠ 4) (a : Nat) (l : List Nat) : packCodes w (a :: l) = toLE (w / 8) a ++ packCodes w l := by
  cases l <;> exact if_neg h

theorem packCodes_one_nibble (a : Nat) : packCodes 4 [a] = [BitVec.ofNat 8 (a % 16)] := if_pos rfl

theorem packCodes_two_nibbles (a b : Nat) (l : List Nat) : packCodes 4 (a :: b :: l) = BitVec.ofNat 8 (a % 16 + 16 * (b % 16)) :: packCodes 4 l := if_pos rfl

/-- Two codes of 4 bits to a byte. -/
theorem packCodes_nibbles_length : (l : List Nat) → (packCodes 4 l).length = (l.length + 1) / 2
  | [] => rfl
  | [a] => by rw [packCodes_one_nibble, List.length_singleton, List.length_singleton]
  | a :: b :: l => by
    rw [packCodes_two_nibbles, List.length_cons, packCodes_nibbles_length l, List.length_cons, List.length_cons]
    omega

/-- Codes of whole bytes. -/
theorem packCodes_bytes_length {w : Nat} (h : w ≠ 4) (l : List Nat) : (packCodes w l).length = l.length * (w / 8) := by
  induction l with
  | nil => rw [List.length_nil, Nat.zero_mul]; rfl
  | cons a l ih => rw [packCodes_of_bytes h, List.length_append, toLE_length, ih, List.length_cons, Nat.succ_mul, Nat.add_comm]

/-- The bytes that the codes of a format fill (Table 3.1). -/
theorem packCodes_length (fmt : Nat) (l : List Nat) : (packCodes (codeWidth fmt) l).length = ceilDiv (l.length * codeWidth fmt) 8 := by
  by_cases h : codeWidth fmt = 4
  · rw [h, packCodes_nibbles_length]
    unfold ceilDiv
    omega
  · rw [packCodes_bytes_length h]
    have hwhole : codeWidth fmt = 8 * (codeWidth fmt / 8) := by
      unfold codeWidth at h ⊢
      split <;> simp at h ⊢
    generalize codeWidth fmt / 8 = k at hwhole
    rw [hwhole, Nat.mul_left_comm]
    unfold ceilDiv
    omega

@[simp] theorem countShare_frame (d : Dev) (t fmt kind : Nat) (evs : List Event3) : (d.countShare t fmt kind evs).regs = d.regs ∧
    (d.countShare t fmt kind evs).tiles = d.tiles ∧ (∀ j, (d.countShare t fmt kind evs).tile j = d.tile j) ∧
    (d.countShare t fmt kind evs).stores = d.stores ∧ (d.countShare t fmt kind evs).wipes = d.wipes := by
  unfold Dev.countShare
  split <;> simp

/-- The codes that a drain writes end within the scratchpad (R93). -/
theorem drainEnd_of_ok {x : Tile} {a : AccSet} {v : BitVec 128} {cc n : Nat} {r : Drained} {bs : List Byte} (hok : drainOk x a v cc n r = true)
    (hbs : bs = packCodes (codeWidth (oFmt v)) r.codes) (hscr : oStream v = false) (hscales : r.scales = []) :
    oAddr v + n * roundUp bs.length 256 < 0x2000000 ∨ oAddr v + n * roundUp bs.length 256 = 0x2000000 ∧ bs = [] := by
  have hlen : bs.length = ceilDiv (r.codes.length * codeWidth (oFmt v)) 8 := hbs ▸ packCodes_length _ _
  have hroom : oAddr v + n * roundUp bs.length 256 + bs.length ≤ scrSize := by
    rw [hlen]
    simp only [drainOk, hscr, hscales, List.isEmpty_nil, Bool.false_or, Bool.true_or, Bool.and_true, Bool.and_eq_true] at hok
    exact of_decide_eq_true hok.2
  rw [scrSize] at hroom
  rcases Nat.lt_or_ge (oAddr v + n * roundUp bs.length 256) 0x2000000 with h | h
  · exact .inl h
  · exact .inr ⟨by omega, List.eq_nil_of_length_eq_zero (by omega)⟩

/-- What a drain has done before it stores: the set locked, and its elements counted (R66, R94, R130). -/
def Dev.drainCounted (d : Dev) (t n fmt : Nat) (r : Drained) : Dev :=
  let a := (d.tile t).set n
  let e := ((d.setTile t ((d.tile t).setSet n { a with drain := .draining })).bumpN (Reg.tileSticky t)
    ((setKeys (d.tile t).width).filter (mget false a.sticky)).length).bumpN (Reg.tileIntSat t)
    ((setKeys (d.tile t).width).filter (mget false a.saturated)).length
  e.countShare t fmt (e.shareMap t fmt) r.events

theorem Dev.drainCounted_tile (d : Dev) (t n fmt : Nat) (r : Drained) (j : Nat) : (d.drainCounted t n fmt r).tile j
    = if t = j then (d.tile t).setSet n { (d.tile t).set n with drain := .draining } else d.tile j := by
  simp only [Dev.drainCounted, (countShare_frame _ _ _ _ _).2.2.1, Dev.tile_bumpN, Dev.tile_setTile]

theorem Dev.drainCounted_frame (d : Dev) (t n fmt : Nat) (r : Drained) : (d.drainCounted t n fmt r).regs = d.regs ∧
    (d.drainCounted t n fmt r).stores = d.stores ∧ (d.drainCounted t n fmt r).wipes = d.wipes := by
  simp [Dev.drainCounted]

/-- A set drains into scratchpad under its OUTPUT in one run of bytes (R66). -/
theorem drain_to_scratchpad {d : Dev} (m : Mem) {t n : Nat} {o : Output} {r : Drained} {bs : List Byte} (ht : t < 64)
    (hch : (d.tile t).chPending = none) (hout : mfind (d.tile t).outputs ((d.tile t).set n).output = some o)
    (hr : r = drainSet (d.tile t) ((d.tile t).set n) (oFmt o.desc) (d.reg (Reg.tileConvCtrl t)).toNat)
    (hok : drainOk (d.tile t) ((d.tile t).set n) o.desc (d.reg (Reg.tileConvCtrl t)).toNat ((d.tile t).set n).order r = true)
    (hbs : bs = packCodes (codeWidth (oFmt o.desc)) r.codes) (hscr : oStream o.desc = false) (hscales : r.scales = [])
    (hgood : (d.tile t).badWords = []) : d.drain m t n
      = (d.drainCounted t n (oFmt o.desc) r).pokeN (scrBase t + oAddr o.desc + ((d.tile t).set n).order * roundUp bs.length 256) bs := by
  have hload : d.loadChannel m t = (d, none) := by simp only [Dev.loadChannel, hch]
  have hstore := store_scratchpad m ht (d := d.drainCounted t n (oFmt o.desc) r) (by rw [Dev.drainCounted_tile, if_pos rfl]; exact hgood)
    (drainEnd_of_ok hok hbs hscr hscales)
  subst hr
  subst hbs
  unfold Dev.drain
  simp only [hout, hload]
  rw [if_neg (by rw [hok]; exact Bool.false_ne_true), if_neg (by rw [hscr]; exact Bool.false_ne_true), hscales, ← Dev.drainCounted, Nat.add_assoc, hstore]
  rfl

/-- Settles O17. -/
theorem arrayPipelineAdvances : Obligations.ArrayPipelineAdvances := by
  refine ⟨fun s t l hload hruns hfree hgood => ?load, fun s t p hpass hruns hfree hroom hgood => ?broadcast,
    fun s t hclk hlive hpasses => ?empty, fun s t b rest hpipe hruns hdrain => ?write, fun s t b rest o hpipe hruns hdrain hout => ?pending,
    fun s t n a o r bs hruns hnext hch hout hr hok hbs ha hscr hscales hgood => ?drain, fun s t p hclk hfind => ?complete⟩
  case load =>
    refine ends_of_run (x := xBankLoadComplete t ⟨[], []⟩) rfl (xBankLoadComplete_clean (d := s.begin) hload hruns hfree hgood)
      ⟨?_, ?_, ?_, ?_, ?_, ?_, ?_, State.commit_mem s _ (by simp) (by simp), by simp, by simp⟩
    all_goals simp [Bank.loaded]
  case broadcast =>
    refine ends_of_run (x := xBlockBroadcast t ⟨[], []⟩) rfl (xBlockBroadcast_clean (d := s.begin) hpass hruns hfree hroom hgood)
      ⟨?_, fun h => ?_, fun h => ?_, ?_, ?_, State.commit_mem s _ (by simp) (by simp), by simp⟩
    · simp [Dev.nextBlock]
    · simp [Tile.passAdvance_passes, h]
    · simp [Tile.passAdvance_passes, not_lt.mpr h]
    · simp
    · simp
  case empty =>
    refine ends_of_run (x := xEmptyBroadcastSlot t) rfl (xEmptyBroadcastSlot_idle (d := s.begin) hclk hlive hpasses)
      ⟨?_, ?_, ?_, ?_, State.commit_mem s _ (by simp) (by simp), by simp⟩
    all_goals simp
    exact congrArg _ rfl
  case write =>
    refine quiet_of_run (x := xSetWrite t) rfl ?_ rfl rfl
    simp [xSetWrite, hpipe, show s.begin.tileRuns t = true from hruns, hdrain]
  case pending =>
    have heffect : xSetWrite t s.mem s.begin = s.begin.setTile t (({ s.dev.tile t with pipe := rest, outputs := mset (s.dev.tile t).outputs b.output { o with governed := o.governed + 1 } } : Tile).setSet (dFirst b.desc + b.index)
        { ((s.dev.tile t).set (dFirst b.desc + b.index)).write b.desc (s.dev.tile t).width b.results with drain := .pending, output := b.output, order := o.governed }) := by
      simp [xSetWrite, hpipe, show s.begin.tileRuns t = true from hruns, hdrain, hout]
    refine ends_of_run (x := xSetWrite t) rfl heffect ⟨?_, ?_, ?_, State.commit_mem s _ (by simp) (by simp), by simp, by simp⟩
    · rw [Dev.tile_commit, Dev.tile_setTile_same, Tile.set_setSet_same]
    · simp [Tile.setSet, mfind_mset]
    · simp [Tile.setSet]
  case drain =>
    subst ha
    have heffect : xSetDrain t s.mem s.begin = (s.begin.drainCounted t n (oFmt o.desc) r).pokeN
        (scrBase t + oAddr o.desc + ((s.dev.tile t).set n).order * roundUp bs.length 256) bs := by
      have hrest := drain_to_scratchpad (d := s.begin) s.mem t.isLt hch hout hr hok hbs hscr hscales hgood
      simp [xSetDrain, show s.begin.tileRuns t = true from hruns, hnext]
      exact hrest
    obtain ⟨hregs, hstores, hwipes⟩ := Dev.drainCounted_frame s.begin t n (oFmt o.desc) r
    have hmem := holds_of_pokeN s (a := scrBase t + oAddr o.desc + ((s.dev.tile t).set n).order * roundUp bs.length 256) (bs := bs)
      (d := (s.begin.drainCounted t n (oFmt o.desc) r).pokeN (scrBase t + oAddr o.desc + ((s.dev.tile t).set n).order * roundUp bs.length 256) bs)
      (by simp only [Dev.pokeN, hstores]) hwipes
    refine ends_of_run (x := xSetDrain t) rfl heffect ⟨hmem.1, hmem.2, ?_, ?_, ?_, fun j hj => ?_⟩
    · simp [Dev.drainCounted_tile, Tile.set_setSet_same]
    · simp [Dev.drainCounted_tile, Tile.setSet]
    · simp [hregs]
    · simp [Dev.drainCounted_tile, Ne.symm hj]
  case complete =>
    refine quiet_of_run (x := xSetDrainComplete t) rfl ?_ rfl rfl
    simp [xSetDrainComplete, show s.begin.tclk t = true from hclk, hfind]

end Sys2Proof.Machine
end

section
/-! Degradation noted (R377), and the leaky buckets of an array (R353, R355). -/

namespace Sys2Proof.Machine

/-- What noting degradation can do: nothing, or RAS_DEGRADED, DEV_ROLE.STATE and one package event (R377). -/
theorem Dev.noteDegraded_cases (d : Dev) :
    d.noteDegraded = d ∨ ∃ x r, d.noteDegraded = ({ d with ras := { d.ras with degraded := x }, role := r } : Dev).pkgEvent 0x0B0B 2 d.degradedWord 0 := by
  unfold Dev.noteDegraded
  extract_lets w x d' bad e
  split
  · exact .inl rfl
  · refine .inr ⟨BitVec.ofNat 32 w, e.role, ?_⟩
    have h : e = { d with ras := { d.ras with degraded := BitVec.ofNat 32 w }, role := e.role } := by
      unfold e
      split <;> rfl
    exact congrArg (fun e : Dev => e.pkgEvent 0x0B0B 2 w 0) h

@[simp] theorem Dev.noteDegraded_fields (d : Dev) : d.noteDegraded.regs = d.regs ∧ d.noteDegraded.tiles = d.tiles ∧ d.noteDegraded.stores = d.stores ∧
    d.noteDegraded.wipes = d.wipes ∧ (∀ j, d.noteDegraded.tile j = d.tile j) ∧ (∀ k, d.noteDegraded.reg k = d.reg k) ∧
    d.noteDegraded.ras.resets = d.ras.resets := by
  rcases d.noteDegraded_cases with h | ⟨x, r, h⟩
  · simp only [h, implies_true, and_self]
  · rw [h]
    simp only [Dev.pkgEvent_fields, Dev.pkgEvent_reads, true_and, and_true]
    exact ⟨fun _ => rfl, fun _ => rfl⟩

theorem Dev.count_noteDegraded_of_le (d : Dev) {k : Nat} (hk : 0x10000000 ≤ k) : d.noteDegraded.count k = d.count k := by
  rcases d.noteDegraded_cases with h | ⟨x, r, h⟩
  · rw [h]
  · rw [h]
    exact Dev.count_event_of_le _ _ _ _ _ _ _ hk (fun _ hc => absurd hc (List.not_mem_nil))

/-- The reliability records exchanged. -/
def Dev.withRas (d : Dev) (x : Ras) : Dev := { d with ras := x }

@[simp] theorem Dev.withRas_fields (d : Dev) (x : Ras) : (d.withRas x).ras = x ∧ (d.withRas x).regs = d.regs ∧ (d.withRas x).counters = d.counters ∧
    (d.withRas x).tiles = d.tiles ∧ (d.withRas x).ctxs = d.ctxs ∧ (d.withRas x).stores = d.stores ∧ (d.withRas x).wipes = d.wipes ∧
    (∀ j, (d.withRas x).tile j = d.tile j) ∧ (∀ k, (d.withRas x).reg k = d.reg k) ∧ (∀ k, (d.withRas x).count k = d.count k) ∧
    (∀ t, (d.withRas x).ownerOf t = d.ownerOf t) ∧ (∀ j, (d.withRas x).ctx j = d.ctx j) :=
  ⟨rfl, rfl, rfl, rfl, rfl, rfl, rfl, fun _ => rfl, fun _ => rfl, fun _ => rfl, fun _ => rfl, fun _ => rfl⟩

/-- A bucket that belongs to no table needs no room made for it (R354). -/
theorem Dev.bucketRoom_of_no_table {cls unit : Nat} (h : bucketTable cls unit = none) (d : Dev) : d.bucketRoom cls unit = d := by
  unfold Dev.bucketRoom
  rw [h]

/-- An event on a bucket that stays below its limit changes the bucket alone (R353). -/
theorem Dev.charge_below {d : Dev} {cls unit : Nat} (htable : bucketTable cls unit = none) {unc : Bool} {cs : List Nat} {u : Nat}
    (h : (d.charge cls unit unc cs u).2 = false) : ∃ x, (d.charge cls unit unc cs u).1 = d.withRas x := by
  simp only [Dev.charge, Dev.bucketRoom_of_no_table htable, ite_self] at h ⊢
  generalize (if unc = true then d.lbN cls else _) = level at h ⊢
  by_cases hfull : d.lbN cls ≤ level
  · rw [if_pos hfull] at h
    cases h
  · rw [if_neg hfull]
    exact ⟨_, rfl⟩

/-- An uncorrectable event brings the bucket to its limit: the fault is lasting (R353, R355). -/
theorem Dev.charge_uncorrectable {d : Dev} {cls unit : Nat} (htable : bucketTable cls unit = none) (cs : List Nat) (u : Nat) :
    ∃ x, d.charge cls unit true cs u = (((d.withRas x).bump (Reg.rasLasting cls)).event cs 0x0B01 1 cls unit u, true) ∧
      x.resets = d.ras.resets := by
  simp only [Dev.charge, Dev.bucketRoom_of_no_table htable, ite_self, if_true, Nat.le_refl]
  exact ⟨_, rfl, rfl⟩

/-- One step of charging a block's mismatches. -/
def Dev.chargeStep (m : Mem) (t cls : Nat) (unc : Bool) (cs : List Nat) (act : Dev → Mem → Nat → Nat → Dev) (y : Dev × Bool) (i : Nat) : Dev × Bool :=
  let (e, lasting) := y.1.charge cls (columnUnit t i) unc cs t
  (if lasting then act e m t i else e, y.2 || lasting)

/-- Charges none of which makes a fault lasting change the buckets alone. -/
theorem chargeSteps_below {m : Mem} {t cls : Nat} (htable : ∀ i, bucketTable cls (columnUnit t i) = none) {unc : Bool} {cs : List Nat}
    {act : Dev → Mem → Nat → Nat → Dev} {l : List Nat} {y : Dev × Bool} (h : (l.foldl (Dev.chargeStep m t cls unc cs act) y).2 = false) :
    y.2 = false ∧ ∃ x, (l.foldl (Dev.chargeStep m t cls unc cs act) y).1 = y.1.withRas x := by
  induction l generalizing y with
  | nil => exact ⟨h, y.1.ras, rfl⟩
  | cons i l ih =>
    rw [List.foldl_cons] at h ⊢
    obtain ⟨hstep, x, hx⟩ := ih h
    have hboth : y.2 = false ∧ (y.1.charge cls (columnUnit t i) unc cs t).2 = false := Bool.or_eq_false_iff.mp hstep
    obtain ⟨x', hx'⟩ := Dev.charge_below (htable i) hboth.2
    have hfirst : (Dev.chargeStep m t cls unc cs act y i).1 = y.1.withRas x' := by
      simp only [Dev.chargeStep, hboth.2, Bool.false_eq_true, if_false, hx']
    exact ⟨hboth.1, x, by rw [hx, hfirst]; rfl⟩

/-- A block's mismatches that make no fault lasting change the buckets alone (R355). -/
theorem Dev.chargeBlock_below {d : Dev} {m : Mem} {t : Nat} {l : List (Nat × Nat)} {unc : Bool} (h : (d.chargeBlock m t l unc).2 = false) :
    ∃ x, (d.chargeBlock m t l unc).1 = d.withRas x := by
  obtain ⟨y, hy⟩ : ∃ y, y = (lineRows l).foldl (Dev.chargeStep m t 1 false (d.ownerOf t).toList Dev.rowLasting) (d, false) := ⟨_, rfl⟩
  have hall : d.chargeBlock m t l unc = (dpuCols (l.filter (fun p => !(lineRows l).contains p.1))).foldl
      (Dev.chargeStep m t 0 unc (d.ownerOf t).toList Dev.columnLasting) y := hy ▸ rfl
  rw [hall] at h ⊢
  obtain ⟨hrows, x, hx⟩ := chargeSteps_below (fun i => rfl) h
  obtain ⟨-, x', hx'⟩ := chargeSteps_below (fun i => rfl) (hy ▸ hrows)
  exact ⟨x, by rw [hx, hy, hx']; rfl⟩

/-- The lasting fault of one column (R353, R355). -/
theorem Dev.chargeBlock_one (d : Dev) (m : Mem) (t row col : Nat) : ∃ x, (d.chargeBlock m t [(row, col)] true).1
    = (((d.withRas x).bump (Reg.rasLasting 0)).event (d.ownerOf t).toList 0x0B01 1 0 (columnUnit t col) t).columnLasting m t col ∧
      x.resets = d.ras.resets := by
  obtain ⟨x, hx, hresets⟩ := d.charge_uncorrectable (cls := 0) (unit := columnUnit t col) rfl (d.ownerOf t).toList t
  refine ⟨x, ?_, hresets⟩
  have hrows : lineRows [(row, col)] = [] := by simp [lineRows, dpuCols]
  have hcols : dpuCols [(row, col)] = [col] := by simp [dpuCols]
  unfold Dev.chargeBlock
  simp only [hrows, List.foldl_nil, List.contains_nil, Bool.not_false, List.filter_true, hcols, List.foldl_cons, hx, if_true]

end Sys2Proof.Machine
end

section
/-! Residues (R58, R59, R68, R69, R71). -/

namespace Sys2Proof.Machine

open Sys2Proof.Claims (Ends Quiet Heard)

theorem Dev.each_bump_fields {α : Type} (d : Dev) (l : List α) (key : α → Nat) : (d.each l (fun d p => d.bump (key p))).regs = d.regs ∧
    (d.each l (fun d p => d.bump (key p))).tiles = d.tiles ∧ (d.each l (fun d p => d.bump (key p))).ctxs = d.ctxs ∧
    (d.each l (fun d p => d.bump (key p))).stores = d.stores ∧ (d.each l (fun d p => d.bump (key p))).wipes = d.wipes :=
  ⟨Dev.each_frame Dev.regs l (fun _ _ => by rfl) d, Dev.each_frame Dev.tiles l (fun _ _ => by rfl) d, Dev.each_frame Dev.ctxs l (fun _ _ => by rfl) d,
    Dev.each_frame Dev.stores l (fun _ _ => by rfl) d, Dev.each_frame Dev.wipes l (fun _ _ => by rfl) d⟩

theorem Dev.count_each_bump_other {α : Type} (d : Dev) (l : List α) {key : α → Nat} {k : Nat} (h : ∀ a, key a ≠ k) :
    (d.each l (fun d p => d.bump (key p))).count k = d.count k :=
  Dev.each_frame (fun d => d.count k) l (fun d a => by exact Dev.count_bump_other d (h a)) d

/-- A tile with the pipeline's blocks from `n` on broadcast again (R58). -/
def Dev.replayedFrom (d : Dev) (m : Mem) (t n : Nat) : Tile :=
  let y := d.tile t
  let again := (y.pipe.drop n).map (d.replayed m t)
  { y with pipe := y.pipe.take n ++ again, keeper := again.foldl (fun (k : Keeper) _ => k.real (d.keeperReg t)) y.keeper }

/-- A mismatch that makes no fault lasting broadcasts the block and the younger ones again (R58). -/
theorem xResidueMismatch_replayed {m : Mem} {d e : Dev} {t n : Nat} {dpus : List (Fin 32 × Fin 32)} {b : Block} (hblock : (d.tile t).pipe[n]? = some b)
    (hruns : d.tileRuns t = true) (hfirst : b.replayed = false) (hsome : (d.tile t).clocked dpus ≠ [])
    (he : e = (d.each ((d.tile t).clocked dpus) (fun d p => d.bump (Reg.tileColResidue t p.2))))
    (hbelow : (e.chargeBlock m t ((d.tile t).clocked dpus) false).2 = false) : ∃ x, xResidueMismatch t n dpus m d
      = ((((e.withRas x).setTile t ((e.withRas x).replayedFrom m t n)).bump (Reg.tileResidueReplay t)).bumpN (Reg.tileBlocks t)
          (((e.withRas x).tile t).pipe.drop n).length) := by
  obtain ⟨x, hx⟩ := Dev.chargeBlock_below hbelow
  refine ⟨x, ?_⟩
  have hpair : e.chargeBlock m t ((d.tile t).clocked dpus) false = (e.withRas x, false) := Prod.ext hx hbelow
  unfold xResidueMismatch
  have hclocked : ((d.tile t).clocked dpus).isEmpty = false := by simpa using hsome
  simp only [hblock, hruns, hfirst, hclocked, ← he, hpair, Bool.not_true, Bool.or_false, Bool.false_and, Bool.false_eq_true,
    if_false, List.length_map]
  rfl

theorem Dev.replayedFrom_tile (d : Dev) (m : Mem) (t n : Nat) : (d.replayedFrom m t n).sets = (d.tile t).sets ∧
    (d.replayedFrom m t n).passes = (d.tile t).passes ∧
    (d.replayedFrom m t n).pipe = (d.tile t).pipe.take n ++ ((d.tile t).pipe.drop n).map (d.replayed m t) := ⟨rfl, rfl, rfl⟩

/-- One DPU that is clocked. -/
theorem clocked_one {x : Tile} {row col : Fin 32} (h : x.bypass.getLsbD col = false) : x.clocked [(row, col)] = [(row.val, col.val)] := by
  have hin : [(row, col)].filter (fun p => !x.bypass.getLsbD p.2.val) = [(row, col)] := by rw [List.filter_cons_of_pos (by rw [h]; rfl), List.filter_nil]
  rw [Tile.clocked, hin]
  rfl

/-- A tile whose work a second mismatch has ended (R59): set `n` marked, its blocks from the failing one on dropped. -/
def Tile.replayFailed (x : Tile) (block n : Nat) : Tile :=
  let x := { x with pipe := x.pipe.take block, passes := [], loader := x.loader.map (fun (y : Loader) => { y with before := 0 }) }
  x.setSet n { x.set n with marked := true }

/-- The tile that is left once column `col` is out of service (Table 2.5). -/
def Tile.without (x : Tile) (col : Nat) : Tile :=
  { x.zeroed with bypass := x.bypass ||| BitVec.ofNat 32 (2 ^ col), narrowed := true, state := .halted }

/-- A command about tile `t`: `e` differs from `d` in that tile, which is now `x`, in no store and in no register, and counts in no counter of a tile or die. -/
def Dev.OnlyTile (d e : Dev) (t : Nat) (x : Tile) : Prop :=
  e.tile t = x ∧ (∀ j, j ≠ t → e.tile j = d.tile j) ∧ e.regs = d.regs ∧ e.stores = d.stores ∧ e.wipes = d.wipes ∧ ∀ k, 0x10000000 ≤ k → e.count k = d.count k

/-- A column goes out of service where eight have not yet gone (R68, Table 2.5). -/
theorem narrowTile_unowned {d : Dev} (m : Mem) {t col : Nat} (hlive : (d.tile t).state ≠ .retired) (hin : (d.tile t).bypass.getLsbD col = false)
    (hwide : 24 < (d.tile t).width) (howner : d.ownerOf t = none) : d.OnlyTile (d.narrowTile m t col) t ((d.tile t).without col).workEnded := by
  have hown : (d.setTile t ((d.tile t).without col)).ownerOf t = none := howner
  have herror := tileError_of_unowned m hown 0x0102 col ((d.tile t).without col).width
  rw [Dev.tile_setTile_same] at herror
  have hnarrow : d.narrowTile m t col = (((d.setTile t ((d.tile t).without col)).setTile t ((d.tile t).without col).workEnded).tileEvent t 0x0102 2 col
      ((d.tile t).without col).width).noteDegraded := by
    unfold Dev.narrowTile
    rw [if_neg (by simpa [hlive] using hin), if_neg (by simpa using hwide)]
    exact congrArg Dev.noteDegraded herror
  rw [hnarrow]
  refine ⟨by simp, fun j hj => ?_, by simp, by simp, by simp, fun k hk => ?_⟩
  · simp [Dev.tile_setTile, Ne.symm hj]
  · rw [Dev.count_noteDegraded_of_le _ hk, Dev.count_tileEvent_of_le _ _ _ _ _ _ hk]
    rfl

/-- A failed replay of one column's DPU, in a tile that no context owns and no reset covers, takes the column out at once (R59, R353, R355,
Table 2.5). -/
theorem xResidueReplayFail_one {m : Mem} {d : Dev} {t n : Nat} {row col : Fin 32} {b : Block} (hblock : (d.tile t).pipe[n]? = some b)
    (hruns : d.tileRuns t = true) (hagain : b.replayed = true) (hin : (d.tile t).bypass.getLsbD col = false) (hwide : 24 < (d.tile t).width)
    (hresets : d.ras.resets = []) (howner : d.ownerOf t = none) :
    ((d.bump (Reg.tileResidueUc t)).bump (Reg.tileColResidue t col)).OnlyTile (xResidueReplayFail t n [(row, col)] m d) t
      (((d.tile t).replayFailed n (dFirst b.desc + b.index)).workEnded.without col).workEnded := by
  obtain ⟨y, hy⟩ : ∃ y, y = (d.tile t).replayFailed n (dFirst b.desc + b.index) := ⟨_, rfl⟩
  obtain ⟨d1, hd1⟩ : ∃ d1, d1 = ((d.setTile t y).bump (Reg.tileResidueUc t)).bump (Reg.tileColResidue t col) := ⟨_, rfl⟩
  obtain ⟨d2, hd2⟩ : ∃ d2, d2 = (d1.setTile t y.workEnded).tileEvent t 0x0103 2 y.markedSets (2 ^ col.val) := ⟨_, rfl⟩
  have hown : d1.ownerOf t = none := by rw [hd1]; exact howner
  have herror : d1.tileError m t 0x0103 y.markedSets (2 ^ col.val) true = d2 := by
    rw [tileError_of_unowned m hown, hd2]
    simp [hd1]
  have heffect : xResidueReplayFail t n [(row, col)] m d = (d2.chargeBlock m t [(row.val, col.val)] true).1 := by
    have hcols : (dpuCols [(row.val, col.val)]).foldl (fun a c => a + 2 ^ c) 0 = 2 ^ col.val := by simp [dpuCols]
    unfold xResidueReplayFail
    simp only [hblock, hruns, hagain, clocked_one hin, Bool.not_true, List.isEmpty_cons, Bool.or_false, Bool.false_eq_true, if_false, hcols]
    rw [← herror, hd1, hy]
    rfl
  obtain ⟨x, hx, hxresets⟩ := d2.chargeBlock_one m t row col
  obtain ⟨d3, hd3⟩ : ∃ d3, d3 = ((d2.withRas x).bump (Reg.rasLasting 0)).event (d2.ownerOf t).toList 0x0B01 1 0 (columnUnit t col) t := ⟨_, rfl⟩
  have htile : d3.tile t = y.workEnded := by rw [hd3, hd2]; simp
  have hcovers : d3.resetCovers 0 (columnUnit t col) = false := by
    have : d3.ras.resets = [] := by rw [hd3]; simp [hxresets, hd2, hd1, hresets]
    rw [Dev.resetCovers, this]
    rfl
  have hlive : (d.tile t).state ≠ .retired := by
    intro h
    simp [Dev.tileRuns, h] at hruns
  rw [heffect, hx, ← hd3, Dev.columnLasting, if_neg (by rw [hcovers]; exact Bool.false_ne_true)]
  obtain ⟨hnow, hothers, hregs, hstores, hwipes, hcounts⟩ := narrowTile_unowned (d := d3) m (t := t) (col := col) (by rw [htile, hy]; exact hlive)
    (by rw [htile, hy]; exact hin) (by rw [htile, hy]; exact hwide) (by rw [hd3, hd2]; simpa using hown)
  refine ⟨by rw [hnow, htile, hy], fun j hj => ?_, ?_, ?_, ?_, fun k hk => ?_⟩
  · rw [hothers j hj, hd3, hd2, hd1]
    simp [Dev.tile_setTile, Ne.symm hj]
  · rw [hregs, hd3, hd2, hd1]; simp
  · rw [hstores, hd3, hd2, hd1]; simp
  · rw [hwipes, hd3, hd2, hd1]; simp
  · rw [hcounts k hk, hd3, Dev.count_event_of_le _ _ _ _ _ _ _ hk (fun _ => Dev.ownerOf_lt), Dev.count_bump_other _ (by unfold Reg.rasLasting; omega),
      (Dev.withRas_fields _ _).2.2.2.2.2.2.2.2.2.1, hd2, Dev.count_tileEvent_of_le _ _ _ _ _ _ hk, hd1]
    rfl

/-- TILE_COL_FORCE is written whole (Table 2.12). -/
theorem writeMask_tileColForce (t : Fin 64) : writeMask (Reg.tileColForce t) = 2 ^ 32 - 1 := by
  have hmask : spaceMask [.tile] 0x8 = 2 ^ 32 - 1 := by decide +kernel
  rw [← hmask]
  exact writeMask_tile t.isLt (by decide)

theorem or_and_not {w : Nat} (b v : BitVec w) : b ||| (v &&& ~~~b) = b ||| v := by
  refine BitVec.eq_of_getLsbD_eq fun i hi => ?_
  simp only [BitVec.getLsbD_or, BitVec.getLsbD_and, BitVec.getLsbD_not, hi, decide_true, Bool.true_and]
  cases b.getLsbD i <;> simp

@[simp] theorem Dev.putReg_fields (d : Dev) (k : Nat) (v : BitVec 32) : (d.putReg k v).tiles = d.tiles ∧ (d.putReg k v).stores = d.stores ∧
    (d.putReg k v).wipes = d.wipes ∧ (d.putReg k v).strata = d.strata ∧ ∀ j, (d.putReg k v).tile j = d.tile j :=
  ⟨rfl, rfl, rfl, rfl, fun _ => rfl⟩

/-- A tile with columns `fresh` forced out (R71). -/
def Tile.forcedOut (x : Tile) (fresh : BitVec 32) : Tile := { x with bypass := x.bypass ||| fresh, forced := x.forced ||| fresh }

theorem Tile.forcedOut_none (x : Tile) : x.forcedOut 0 = x := by simp [Tile.forcedOut]

/-- Inside the start-up window columns go out of service at the write itself (R71). -/
theorem colForce_in_window {d : Dev} (m : Mem) {t : Nat} {v : BitVec 32} (hwindow : d.strata.activated = false)
    (hfew : popcount ((d.tile t).bypass ||| v).toNat 32 ≤ 8) : (d.colForce m t v).tile t = (d.tile t).forcedOut (v &&& ~~~(d.tile t).bypass) ∧
    (∀ j, j ≠ t → (d.colForce m t v).tile j = d.tile j) ∧ (d.colForce m t v).regs = (d.putReg (Reg.tileColForce t) v).regs ∧
    (d.colForce m t v).stores = d.stores ∧ (d.colForce m t v).wipes = d.wipes := by
  have hunion := or_and_not (d.tile t).bypass v
  rw [← hunion] at hfew
  unfold Dev.colForce
  extract_lets e x fresh e' x'
  by_cases hnone : fresh = 0
  · rw [if_pos hnone, show v &&& ~~~(d.tile t).bypass = 0 from hnone, Tile.forcedOut_none]
    exact ⟨rfl, fun _ _ => rfl, rfl, rfl, rfl⟩
  · have hx' : x' = { x with forced := x.forced ||| fresh } := Dev.tile_setTile_same _ _ _
    have hopen : (!e'.strata.activated) = true := by rw [show e'.strata = d.strata from rfl, hwindow]; rfl
    have hshort : ¬ 8 < popcount (x'.bypass ||| fresh).toNat 32 := by rw [hx']; exact Nat.not_lt.mpr hfew
    rw [if_neg hnone, if_pos hopen, if_neg hshort]
    simp only [Dev.noteDegraded_fields, Dev.tile_setTile_same]
    refine ⟨by rw [hx']; rfl, fun j hj => ?_, rfl, rfl, rfl⟩
    simp [e', e, Dev.tile_setTile, Ne.symm hj]

/-- Settles O18. The column goes out of service at the failed replay itself by R353, R355 and Table 12.2, to which R59 sends the reader. -/
theorem residueFailuresReplayAndNarrow : Obligations.ResidueFailuresReplayAndNarrow := by
  refine ⟨fun s t n dpus b hblock hruns hfirst hsome hbelow => ?replay, fun s t n row col b hblock hruns hagain hin hwide hresets howner => ?fail,
    fun s r t v hheard hctx0 hlost hlive hwindow hfew => ?force⟩
  case replay =>
    obtain ⟨e, he⟩ : ∃ e, e = s.begin.each ((s.begin.tile t).clocked dpus) (fun d p => d.bump (Reg.tileColResidue t p.2)) := ⟨_, rfl⟩
    obtain ⟨x, hx⟩ := xResidueMismatch_replayed (d := s.begin) hblock hruns hfirst hsome he (by rw [he]; exact hbelow)
    obtain ⟨hregs, htiles, -, hstores, hwipes⟩ := Dev.each_bump_fields s.begin ((s.begin.tile t).clocked dpus) (fun p => Reg.tileColResidue t p.2)
    rw [← he] at hregs htiles hstores hwipes
    have htile : ∀ j, e.tile j = s.dev.tile j := fun j => by rw [Dev.tile, htiles]; rfl
    have hlen : n < (s.dev.tile t).pipe.length := (List.getElem?_eq_some_iff.mp hblock).1
    refine ends_of_run (x := xResidueMismatch t n dpus) rfl hx
      ⟨?_, ?_, fun y hy => ?_, ?_, ?_, ?_, ?_, State.commit_mem s _ (by simp [hstores]) (by simp [hwipes]), by simp [hregs], fun j hj => ?_⟩
    · simp [Dev.replayedFrom_tile, htile, hlen.le]
    · simp [Dev.replayedFrom_tile, htile]
      omega
    · simp only [Dev.tile_commit, Dev.tile_bump, Dev.tile_bumpN, Dev.tile_setTile_same, Dev.replayedFrom_tile, Dev.withRas_fields, htile] at hy
      rw [List.drop_left' (by simp [hlen.le])] at hy
      obtain ⟨z, -, rfl⟩ := List.mem_map.mp hy
      rfl
    · simp [Dev.replayedFrom_tile, htile]
    · simp [Dev.replayedFrom_tile, htile]
    · have hother : Reg.tileBlocks t ≠ Reg.tileResidueReplay t := by unfold Reg.tileBlocks Reg.tileResidueReplay; omega
      have hkept : e.count (Reg.tileResidueReplay t) = s.dev.count (Reg.tileResidueReplay t) :=
        he ▸ Dev.count_each_bump_other s.begin _ (fun p => by unfold Reg.tileColResidue Reg.tileResidueReplay; omega)
      simp [Dev.count_bumpN, hother, hkept]
    · have hother : Reg.tileResidueReplay t ≠ Reg.tileBlocks t := by unfold Reg.tileBlocks Reg.tileResidueReplay; omega
      have hkept : e.count (Reg.tileBlocks t) = s.dev.count (Reg.tileBlocks t) :=
        he ▸ Dev.count_each_bump_other s.begin _ (fun p => by unfold Reg.tileColResidue Reg.tileBlocks; omega)
      simp [Dev.count_bumpN, Dev.count_bump_other _ hother, hkept, htile]
    · simp [Dev.tile_setTile, Ne.symm hj, htile]
  case fail =>
    obtain ⟨hnow, hothers, hregs, hstores, hwipes, hcounts⟩ := xResidueReplayFail_one (m := s.mem) (d := s.begin) hblock hruns hagain hin hwide hresets howner
    refine ends_of_run (x := xResidueReplayFail t n [(row, col)]) rfl rfl
      ⟨?_, ?_, ?_, ?_, ?_, ?_, ?_, ?_, State.commit_mem s _ hstores hwipes, by simp [hregs], fun j hj => ?_⟩
    case refine_7 =>
      rw [Dev.count_commit, hcounts _ (by unfold Reg.tileResidueUc indBlock; omega),
        Dev.count_bump_other _ (by unfold Reg.tileResidueUc Reg.tileColResidue; omega), Dev.count_bump_same]
      rfl
    case refine_8 =>
      rw [Dev.count_commit, hcounts _ (by unfold Reg.tileColResidue indBlock; omega), Dev.count_bump_same,
        Dev.count_bump_other _ (by unfold Reg.tileResidueUc Reg.tileColResidue; omega)]
      rfl
    case refine_9 => simp [hothers j hj]
    all_goals rw [Dev.tile_commit, hnow]; rfl
  case force =>
    obtain ⟨hnow, hothers, hregs, hstores, hwipes⟩ := colForce_in_window (d := s.begin) s.mem hwindow hfew
    have hwords : ∀ k, (s.commit ((s.begin.colForce s.mem t v).answer r stOK)).dev.reg k = if Reg.tileColForce t = k then v else s.dev.reg k := fun k => by
      rw [putReg_of_full (writeMask_tileColForce t)] at hregs
      rw [show s.dev.reg k = s.begin.reg k from rfl, ← Dev.reg_setReg, Dev.reg, Dev.reg]
      exact congrArg (fun m => mget (resetWord k) m k) hregs
    refine ends_of_heard (i := .tileColForceWrite r t v) (x := fun m d => d.tileWord t.val (fun d => d.colForce m t.val v)) (perm := fun _ => isCtx0 r)
      rfl hheard hctx0 (tileWord_of_live (d := s.begin) hlost hlive _) ⟨?_, ?_, ?_, ?_, ?_, State.commit_mem s _ hstores hwipes,
        fun j hj => ?_, fun k hk => ?_⟩
    case refine_6 => simp [Dev.answer, hothers j hj]
    case refine_5 => rw [hwords, if_pos rfl]
    case refine_7 => rw [hwords, if_neg (Ne.symm hk)]
    all_goals simp [Dev.answer, hnow, Tile.forcedOut, or_and_not]

end Sys2Proof.Machine
end

section
/-! A host's own guard counter is read after the read itself has broken the pair pending (R410, R411). -/

namespace Sys2Proof.Machine

open Sys2Proof.Claims (NamesCounter Names HostAnswers)
open Sys2Proof.Tests (st hosted regOf)

/-- Host port 0 has the first half of a guarded pair pending. -/
def pendingHost : State := st { hosted with reqs := [(0, { pending := some (Reg.ctxRngSeedLo 1, 0) })] }

/-- An 8-byte read of DEV_GUARD_FAULT by the host on port 0, in context 0. -/
def guardFaultRead : HPacket := { hdr := hpHdr 6 0 5 0 0 0 8 0 0x7010, data := [] }

/-- What the host gets: 1, the failure that its own read has caused (R411). -/
theorem guardFaultRead_data : ((xRrd 0 guardFaultRead pendingHost.mem pendingHost.begin).host 0).tx.map HPacket.data = [toLE 8 1] := by decide +kernel

theorem guardFaultRead_before : (pendingHost.dev.host 0).tx = [] ∧ pendingHost.dev.counterAt (.host 0) (regOf 0x7010) guardFaultRead.addr = 0 := by decide +kernel

/-- Refutes O8: an 8-byte read of DEV_GUARD_FAULT by a host with half a guarded pair pending. The read itself breaks the pair (R411, log entry
86), so that the counter read is one more than it stood. -/
theorem not_registersAreRead : ¬ Obligations.RegistersAreRead := by
  intro h
  obtain ⟨-, hcounter, -⟩ := h
  obtain ⟨u, hexec, -, ⟨a, htx, -, -, -, -, -, hdata⟩, -⟩ := hcounter pendingHost 0 guardFaultRead (regOf 0x7010)
    (by decide +kernel) (by decide +kernel) (by decide +kernel) (by decide +kernel) (by decide +kernel) (by unfold NamesCounter Names; decide +kernel)
  obtain ⟨hbefore, hstood⟩ := guardFaultRead_before
  have hu : u = pendingHost.commit (xRrd 0 guardFaultRead pendingHost.mem pendingHost.begin) := by
    injection hexec.symm
  have hread := guardFaultRead_data
  change (u.dev.host 0).tx = (pendingHost.dev.host 0).tx ++ [a] at htx
  rw [← Dev.host_commit, ← hu, htx, hbefore, List.nil_append, List.map_singleton, hdata, hstood] at hread
  exact absurd hread (by decide)

end Sys2Proof.Machine
end

section
/-! Register words that are taken or held (R262, R331, R408, R419, R426). -/

namespace Sys2Proof.Machine

open Sys2Proof.Claims (Ends Quiet Heard Names HostAnswers)

/-! A slot's argument (Table 8.7). -/

/-- CTX_CAIRN_ARG. -/
def cairnArg : RegDef := ⟨"CTX_CAIRN_ARG", .ctx, 0x1008, [(64, 32)], .word, [⟨"ARG", 31, 0, .rw, 0⟩]⟩

theorem cairnArg_found : ∀ n : Fin 64, regTable.find? (fun r => r.holds [.ctx] (0x1008 + 32 * n)) = some cairnArg := by decide +kernel

theorem ctxCairnArg_eq (c n : Nat) : Reg.ctxCairnArg c n = ctxWindow c + (0x1008 + 32 * n) := by
  unfold Reg.ctxCairnArg
  omega

theorem regAt_cairnArg (c n : Fin 64) : regAt (Reg.ctxCairnArg c n) = some cairnArg := by
  rw [ctxCairnArg_eq, regAt_ctx c.isLt (by omega)]
  exact cairnArg_found n

theorem place_cairnArg (c n : Fin 64) : cairnArg.place (Reg.ctxCairnArg c n) = ([n.val], 0) := by
  rw [ctxCairnArg_eq, RegDef.place_ctx _ c.isLt (by omega)]
  simp [cairnArg, dimsIndex]

theorem keyCtx_cairnArg (c n : Fin 64) : keyCtx (Reg.ctxCairnArg c n) = c := by
  rw [ctxCairnArg_eq, keyCtx_ctx (by omega)]

theorem names_cairnArg (r : Requester) (c n : Fin 64) : Names r c (Reg.ctxCairnArg c n) cairnArg := by
  refine ⟨?_, ?_, regAt_cairnArg c n, by decide, by decide, ?_⟩
  · rw [ctxCairnArg_eq, ctxWindow_mod _ _ _ (by decide)]; omega
  · rw [ctxCairnArg_eq]; exact ctxWindow_lt c.isLt (by omega)
  · rw [ctxCairnArg_eq]; exact ctxMatches_ctx r (by omega)

theorem writeBarred_cairnArg {d : Dev} {r : Requester} {c : Fin 64} (n : Fin 64) (hmay : d.mayWriteCtx r c = true) :
    d.writeBarred r 0 (Reg.ctxCairnArg c n) cairnArg = false := by
  simp [Dev.writeBarred, Dev.mayWriteReg, cairnArg, keyCtx_cairnArg, hmay]

/-- What a write of a slot's argument leaves (R262). -/
def Dev.cairnArgWritten (d : Dev) (c n : Nat) (v : BitVec 32) : Dev :=
  if (d.cairn c n).state != .armed then d.setReg (Reg.ctxCairnArg c n) v else d

theorem Dev.cairnArgWritten_of_armed {d : Dev} {c n : Nat} (v : BitVec 32) (h : (d.cairn c n).state = .armed) : d.cairnArgWritten c n v = d :=
  if_neg (by simp [h])

theorem Dev.cairnArgWritten_of_free {d : Dev} {c n : Nat} (v : BitVec 32) (h : (d.cairn c n).state ≠ .armed) :
    d.cairnArgWritten c n v = d.setReg (Reg.ctxCairnArg c n) v := if_pos (by simpa using h)

theorem Dev.cairnArgWritten_collected (d : Dev) (c n : Nat) (v : BitVec 32) : (d.cairnArgWritten c n v).stores = d.stores ∧
    (d.cairnArgWritten c n v).wipes = d.wipes := by
  unfold Dev.cairnArgWritten
  split <;> exact ⟨rfl, rfl⟩

/-- A slot's argument is taken but while the slot is armed (R262). -/
theorem commitReg_cairnArg (d : Dev) (m : Mem) (r : Requester) (c n : Fin 64) (v : BitVec 32) (hlost : d.lost 4 = false) :
    d.commitReg m r cairnArg (Reg.ctxCairnArg c n) v
      = some (d.cairnArgWritten c n v, stOK) := by
  have hmasks : rsvMask (Reg.ctxCairnArg c n) = 0 ∧ writeMask (Reg.ctxCairnArg c n) = 2 ^ 32 - 1 := by
    simp only [rsvMask, writeMask, regAt_cairnArg]; exact ⟨rfl, rfl⟩
  obtain ⟨hrsv, hmask⟩ := hmasks
  rw [Dev.commitReg_accepted d m r _ _ v hlost (changesRsv_of_mask_zero hrsv d v), Dev.cairnArgWritten, ← putReg_of_full hmask d v]
  have hwrite : d.regWrite m r cairnArg (Reg.ctxCairnArg c n) v = (d.ctxRegWrite m c "CTX_CAIRN_ARG" n (Reg.ctxCairnArg c n) v, stOK) := by
    unfold Dev.regWrite
    rw [place_cairnArg, keyCtx_cairnArg]
    rfl
  rw [hwrite]
  rfl

/-- The word written by a requester that may. -/
theorem access_cairnArg {d : Dev} (m : Mem) {r : Requester} {c n : Fin 64} (v : BitVec 32) (hpend : (d.req (reqIndex r)).pending = none)
    (hlost : d.lost 4 = false) (hmay : d.mayWriteCtx r c = true) :
    d.access m r c (Reg.ctxCairnArg c n) [v] = some (d.cairnArgWritten c n v, stOK) := by
  obtain ⟨ha, hin, hx, hdata, haddr, hctx⟩ := names_cairnArg r c n
  rw [Dev.access_one _ _ _ hx ha hin hctx, Dev.directWrite_word _ _ _ _ hx hdata haddr,
    Dev.writeWord_permitted _ _ _ _ _ _ rfl (writeBarred_cairnArg n hmay), breakGuard_none _ _ hpend, commitReg_cairnArg _ _ _ _ _ _ hlost]

theorem registerWrite_cairnArg {s : State} {r : Requester} {c n : Fin 64} (v : BitVec 32) (hask : s.dev.mayAsk r = true)
    (hpend : (s.dev.req (reqIndex r)).pending = none) (hlost : s.dev.lost 4 = false) (hmay : s.dev.mayWriteCtx r c = true) :
    Quiet (.registerWrite r c (BitVec.ofNat 39 (Reg.ctxCairnArg c n)) v) s ((s.begin.cairnArgWritten c n v).emit (.regDone r 0)) := by
  have hnat : (BitVec.ofNat 39 (Reg.ctxCairnArg c n)).toNat = Reg.ctxCairnArg c n := by
    rw [ctxCairnArg_eq]; exact toNat_ctxWindow c.isLt (by omega)
  have hpair : pairWord (BitVec.ofNat 39 (Reg.ctxCairnArg c n)).toNat = none := by
    rw [hnat]; exact pairWord_eq_none (regAt_cairnArg c n) (by decide)
  refine execRegisterWrite_word (y := (_, stOK)) hpair hask (by rw [hnat]; exact access_cairnArg s.mem v hpend hlost hmay) ?_ ?_
  · exact (Dev.cairnArgWritten_collected _ _ _ _).1
  · exact (Dev.cairnArgWritten_collected _ _ _ _).2

/-! An RWR that is performed (R331). -/

/-- The host ports and the TAG table exchanged: all that a package request or a host packet taken changes. -/
def Dev.withTraffic (d : Dev) (tags : List Tag) (hosts : Map HostPort) : Dev := { d with tags := tags, hosts := hosts }

@[simp] theorem Dev.withTraffic_fields (d : Dev) (tags : List Tag) (hosts : Map HostPort) : (d.withTraffic tags hosts).regs = d.regs ∧
    (d.withTraffic tags hosts).counters = d.counters ∧ (d.withTraffic tags hosts).reqs = d.reqs ∧ (d.withTraffic tags hosts).tiles = d.tiles ∧
    (d.withTraffic tags hosts).ctxs = d.ctxs ∧ (d.withTraffic tags hosts).cairns = d.cairns ∧ (d.withTraffic tags hosts).pkgEvents = d.pkgEvents ∧
    (d.withTraffic tags hosts).stores = d.stores ∧ (d.withTraffic tags hosts).wipes = d.wipes ∧ (d.withTraffic tags hosts).out = d.out ∧
    (d.withTraffic tags hosts).hosts = hosts ∧ (d.withTraffic tags hosts).tags = tags ∧ ∀ k, (d.withTraffic tags hosts).reg k = d.reg k :=
  ⟨rfl, rfl, rfl, rfl, rfl, rfl, rfl, rfl, rfl, rfl, rfl, rfl, fun _ => rfl⟩

theorem Dev.sendHost_traffic (d : Dev) (p : Nat) (k : HPacket) : ∃ l, d.sendHost p k = d.withTraffic d.tags l := by
  unfold Dev.sendHost
  split
  · exact ⟨_, rfl⟩
  · exact ⟨d.hosts, rfl⟩

theorem Dev.hostRequest_traffic (d : Dev) (p : Nat) (k : HPacket) (t : Tag) : ∃ g l, d.hostRequest p k t = d.withTraffic g l := by
  unfold Dev.hostRequest
  extract_lets wait
  split
  · exact ⟨_, _, rfl⟩
  · split
    · exact ⟨_, _, rfl⟩
    · exact (Dev.sendHost_traffic _ _ _).elim fun l h => ⟨_, l, h⟩

theorem Dev.hwr_traffic (d : Dev) (p c a : Nat) (bs : List Byte) (u : Purpose) (x y : Nat) : ∃ g l, d.hwr p c a bs u x y = d.withTraffic g l :=
  Dev.hostRequest_traffic _ _ _ _

theorem Dev.each_traffic {α : Type} {f : Dev → α → Dev} (h : ∀ d a, ∃ g l, f d a = d.withTraffic g l) (l : List α) (d : Dev) :
    ∃ g k, d.each l f = d.withTraffic g k :=
  Dev.each_invariant (P := fun e => ∃ g k, e = d.withTraffic g k)
    (fun e a _ ⟨g, k, he⟩ => by obtain ⟨g', k', hf⟩ := h e a; exact ⟨g', k', by rw [hf, he]; rfl⟩) ⟨d.tags, d.hosts, rfl⟩

theorem Dev.takenHost_traffic (d : Dev) (p : Nat) (k : HPacket) : ∃ l, d.takenHost p k = d.withTraffic d.tags l := by
  unfold Dev.takenHost Dev.returnUnits
  dsimp only
  split
  · exact ⟨_, rfl⟩
  · exact ⟨d.hosts, rfl⟩

@[simp] theorem Dev.takenHost_port (d : Dev) (p : Nat) (k : HPacket) : ((d.takenHost p k).host p).tx = (d.host p).tx ∧
    ((d.takenHost p k).host p).up = (d.host p).up := by
  unfold Dev.takenHost Dev.returnUnits
  dsimp only
  split
  · simp [HostPort.up]
  · exact ⟨rfl, rfl⟩

/-- The fields of a header that is built of fields that fit (Table 11.5). -/
theorem hpHdr_read {opc cls tag status ctx gen len grant addr : Nat} (bs : List Byte) (hopc : opc < 64) (hcls : cls < 4) (htag : tag < 4096)
    (hst : status < 16) (hctx : ctx < 64) (hgen : gen < 256) (hlen : len < 512) (hgrant : grant < 4) (haddr : addr < 2 ^ 64) {k : HPacket}
    (hk : k = { hdr := hpHdr opc cls tag status ctx gen len grant addr, data := bs }) : k.opc = opc ∧ k.cls = cls ∧ k.tag = tag ∧
    k.status = status ∧ k.ctx = ctx ∧ k.gen = gen ∧ k.len = len ∧ k.grant = grant ∧ k.addr = addr :=
  cellsAndHeadersAreReadAsBuilt.2 opc cls tag status ctx gen len grant addr bs hopc hcls htag hst hctx hgen hlen hgrant haddr k (by rw [hk])

/-- An answer to a host's request on a port that is up. -/
theorem hostAnswers_hostAnswer {s : State} {d : Dev} {p : Nat} (k : HPacket) {st grant : Nat} {data : List Byte} (hup : (d.host p).up = true)
    (htx : (d.host p).tx = (s.dev.host p).tx) (hst : st < 16) (hgrant : grant < 4) (hlen : data.length < 512) :
    HostAnswers s (s.commit (d.hostAnswer p k st grant data)) p k (if isReadOpc k.opc then 0x0B else 0x0C) st data := by
  obtain ⟨a, ha⟩ : ∃ a : HPacket, a = { hdr := hpHdr (if isReadOpc k.opc then 0x0B else 0x0C) 2 k.tag st k.ctx k.gen data.length grant 0, data := data } :=
    ⟨_, rfl⟩
  obtain ⟨hopc, -, htag, hstatus, hctx, hgen, -⟩ := hpHdr_read data (by split <;> decide) (by decide) (fb_lt k.hdr 119 108) hst (fb_lt k.hdr 103 98)
    (fb_lt k.hdr 97 90) hlen hgrant (by decide) ha
  refine ⟨a, ?_, hopc, htag, hstatus, hctx, hgen, by rw [ha]⟩
  rw [Dev.host_commit, Dev.hostAnswer, Dev.sendHost, if_pos hup, Dev.host_setHost_same, ha, htx]

/-- A register write of one word by a host (R407): performed, then answered. -/
theorem xRwr_word {m : Mem} {d : Dev} {p : Fin 4} {k : HPacket} (hup : (d.host p).up = true) (hopc : k.opc = 7) (hbehind : d.regBehind p k = false)
    (hdata : k.data.length = 4) (hlen : k.len = 4) : xRwr p k m d =
      ((d.takenHost p k).access m (.host p) k.ctx k.addr [BitVec.ofNat 32 (leOf k.data)]).map (fun y => y.1.hostAnswer p k y.2 0 []) := by
  have hwords : hostWords k = [BitVec.ofNat 32 (leOf k.data)] := by simp [hostWords, hdata, List.take_of_length_le]
  simp [xRwr, hup, hopc, hbehind, hdata, hlen, hwords]

theorem rwr_cairnArg {s : State} {p : Fin 4} {c n : Fin 64} {k : HPacket} (hup : (s.dev.host p).up = true) (hopc : k.opc = 7)
    (hbehind : s.dev.regBehind p k = false) (hctx : k.ctx = c.val) (haddr : k.addr = Reg.ctxCairnArg c n) (hdata : k.data.length = 4)
    (hlen : k.len = 4) (hpend : (s.dev.req p).pending = none) (hlost : s.dev.lost 4 = false) (hmay : s.dev.mayWriteCtx (.host p) c = true)
    (hfree : (s.dev.cairn c n).state ≠ .armed) : ∃ e l, exec (.rwr p k) s = .next (s.commit (e.hostAnswer p k stOK 0 [])) ∧
      e = (s.begin.withTraffic s.begin.tags l).setReg (Reg.ctxCairnArg c n) (BitVec.ofNat 32 (leOf k.data)) ∧ (e.host p).up = true ∧
      (e.host p).tx = (s.dev.host p).tx := by
  obtain ⟨l, hl⟩ := s.begin.takenHost_traffic p k
  obtain ⟨htx, hstays⟩ := s.begin.takenHost_port p k
  rw [hl] at htx hstays
  refine ⟨_, l, ?_, rfl, hstays.trans hup, htx⟩
  have haccess : (s.begin.withTraffic s.begin.tags l).access s.mem (.host p) c (Reg.ctxCairnArg c n) [BitVec.ofNat 32 (leOf k.data)] = _ :=
    access_cairnArg s.mem _ hpend hlost hmay
  rw [Dev.cairnArgWritten_of_free (d := s.begin.withTraffic s.begin.tags l) _ hfree] at haccess
  rw [exec, execRwr, State.access, xRwr_word (d := s.begin) hup hopc hbehind hdata hlen, hctx, haddr, hl]
  rw [haccess]
  rfl

/-! CONS of the package's event ring (R426). -/

@[simp] theorem Dev.setEventRing_package (d : Dev) (e : EventRing) : (d.setEventRing 64 e).pkgEvents = e ∧ (d.setEventRing 64 e).regs = d.regs ∧
    (d.setEventRing 64 e).counters = d.counters ∧ (d.setEventRing 64 e).tiles = d.tiles ∧ (d.setEventRing 64 e).stores = d.stores ∧
    (d.setEventRing 64 e).wipes = d.wipes ∧ ∀ k, (d.setEventRing 64 e).reg k = d.reg k :=
  ⟨rfl, rfl, rfl, rfl, rfl, rfl, fun _ => rfl⟩

/-- The event ring with the slots `l` free again. -/
def EventRing.without (e : EventRing) (l : List Nat) : EventRing := { e with valid := e.valid.filter (fun s => !l.contains s) }

theorem Dev.evtConsWrite_passes {d : Dev} {v : BitVec 32} {l : List Nat} (hl : seqRange (d.reg Reg.devEvtCons) v (d.eventRingAt 64).size = some l)
    (hvalid : ∀ n, n ∈ l → n ∈ d.pkgEvents.valid) : ∃ g k, d.evtConsWrite 64 Reg.devEvtCons v
      = ((d.withTraffic g k).setEventRing 64 (d.pkgEvents.without l)).setReg Reg.devEvtCons v := by
  obtain ⟨g, k, hsend⟩ := Dev.each_traffic (f := fun e s => e.hwr (d.eventRingAt 64).port 0 ((d.eventRingAt 64).base + s % (d.eventRingAt 64).size * 32 + 3) [0] .evtClear 64 s)
    (fun e s => e.hwr_traffic _ _ _ _ _ _ _) l d
  refine ⟨g, k, ?_⟩
  have hall : l.any (fun s => !(d.eventRing 64).valid.contains s) = false := by
    refine List.any_eq_false.mpr fun n hn => ?_
    simpa [Dev.eventRing] using hvalid n hn
  simp only [Dev.evtConsWrite, hl, hall, Bool.false_eq_true, if_false, if_true, hsend]
  rfl

theorem Dev.evtConsWrite_held {d : Dev} {v : BitVec 32} (h : ∀ l, seqRange (d.reg Reg.devEvtCons) v (d.eventRingAt 64).size = some l →
    ∃ n, n ∈ l ∧ ¬ n ∈ d.pkgEvents.valid) : d.evtConsWrite 64 Reg.devEvtCons v = d := by
  cases hl : seqRange (d.reg Reg.devEvtCons) v (d.eventRingAt 64).size with
  | none => simp only [Dev.evtConsWrite, hl]
  | some l =>
    obtain ⟨n, hn, hout⟩ := h l hl
    have hany : l.any (fun s => !(d.eventRing 64).valid.contains s) = true := List.any_eq_true.mpr ⟨n, hn, by simpa [Dev.eventRing] using hout⟩
    simp only [Dev.evtConsWrite, hl, hany, if_true]

/-! A word of a tile through the requester block's pair (R419). -/

/-- IND_DATA of the requester block. -/
def indData : RegDef := (regAt Reg.indData).getD ⟨"", .pkg, 0, [], .word, []⟩

theorem indData_names (r : Requester) : regAt Reg.indData = some indData ∧ isIndData indData = true ∧ Reg.indData % 4 = 0 ∧ Reg.indData < 0x100000 ∧
    ctxMatches r (windowCtx Reg.indData) Reg.indData = true := by
  refine ⟨by decide +kernel, by decide +kernel, by decide, by decide, ?_⟩
  simp [ctxMatches]

/-- A word written through the requester block's pair. -/
theorem access_indData {d : Dev} (m : Mem) (r : Requester) (v : BitVec 32) :
    d.access m r (windowCtx Reg.indData) Reg.indData [v] = d.indWrite m r 64 v := by
  obtain ⟨hx, hdata, ha, hin, hctx⟩ := indData_names r
  rw [Dev.access_one _ _ _ hx ha (by omega) hctx, Dev.directWrite, hx]
  simp [hdata, hin, indWindow]

/-- TILE_SHARE_MAP_LO. -/
def shareMapLo : RegDef := ⟨"TILE_SHARE_MAP_LO", .tile, 0x208, [], .word, [⟨"KIND_0_7", 31, 0, .rw, 290592085⟩]⟩

theorem regAt_tileShareMapLo (t : Fin 64) : regAt (Reg.tileShareMapLo t) = some shareMapLo := by
  have hfound : regTable.find? (fun r => r.holds [.tile] 0x208) = some shareMapLo := by decide +kernel
  exact (regAt_tile t.isLt (by decide)).trans hfound

/-- What the target of a pair says of the pair (R420, R421). -/
theorem indTarget_inl {d : Dev} {r : Requester} {w k : Nat} {x : RegDef} (h : d.indTarget r w = .inl (x, k)) :
    regAt k = some x ∧ k = indBlock (fb (d.indAddr r w) 31 24) + fb (d.indAddr r w) 15 0 ∧ d.dieSilent (fb (d.indAddr r w) 31 24) = false := by
  unfold Dev.indTarget at h
  dsimp only at h
  split at h
  · cases h
  split at h
  · cases h
  split at h
  · cases h
  · next hsilent =>
    split at h
    · next y hy =>
      split at h
      · injection h with h
        injection h with hx hk
        subst hx hk
        exact ⟨hy, rfl, by simpa using hsilent⟩
      · cases h
    · cases h

theorem indWrite_tileShareMapLo {d : Dev} (m : Mem) {r : Requester} {t : Fin 64} (v : BitVec 32) {x : RegDef} (hpend : (d.req (reqIndex r)).pending = none)
    (hctx0 : isCtx0 r = true) (htarget : d.indTarget r 64 = .inl (x, Reg.tileShareMapLo t)) (hlive : (d.tile t).state ≠ .retired) :
    d.indWrite m r 64 v = some ((d.setReg (Reg.tileShareMapLo t) v).advance r 64, stOK) := by
  obtain ⟨hx, hkey, hsilent⟩ := indTarget_inl htarget
  have hshare : x = shareMapLo := by rw [regAt_tileShareMapLo] at hx; injection hx with hx; exact hx.symm
  have hlost : d.lost (dieOf t) = false := by
    have hblock : fb (d.indAddr r 64) 31 24 = t := by
      have := fb_lt (d.indAddr r 64) 15 0
      unfold Reg.tileShareMapLo indBlock at hkey
      omega
    rw [hblock, Dev.dieSilent, blockDie, if_pos t.isLt] at hsilent
    exact (Bool.or_eq_false_iff.mp hsilent).1
  have hmasks : rsvMask (Reg.tileShareMapLo t) = 0 ∧ writeMask (Reg.tileShareMapLo t) = 2 ^ 32 - 1 := by
    simp only [rsvMask, writeMask, regAt_tileShareMapLo]; exact ⟨rfl, rfl⟩
  have hblock : keyBlock (Reg.tileShareMapLo t) = t := by unfold keyBlock Reg.tileShareMapLo indBlock; omega
  have hbar : d.writeBarred r 65 (Reg.tileShareMapLo t) shareMapLo = false := by
    simp [Dev.writeBarred, Dev.mayWriteReg, shareMapLo, hctx0]
  have hcommit : d.commitReg m r shareMapLo (Reg.tileShareMapLo t) v = some (d.setReg (Reg.tileShareMapLo t) v, stOK) := by
    have hregion : ¬ Reg.tileShareMapLo t < 0x10000000 := by unfold Reg.tileShareMapLo indBlock; omega
    have hwrite : d.regWrite m r shareMapLo (Reg.tileShareMapLo t) v = d.tileWord t (fun d => d.putReg (Reg.tileShareMapLo t) v) := by
      unfold Dev.regWrite
      rw [hblock]
      rfl
    rw [Dev.commitReg, if_neg (by simp [hregion]), changesRsv_of_mask_zero hmasks.1, if_neg Bool.false_ne_true, hwrite, tileWord_of_live hlost hlive,
      putReg_of_full hmasks.2]
  rw [hshare] at htarget
  rw [Dev.indWrite, htarget]
  dsimp only
  rw [Dev.writeWord_permitted _ _ _ _ _ _ rfl hbar, breakGuard_none _ _ hpend, hcommit]
  rfl

/-- Settles O9: each word's own rule, reached through the accesses that carry it. -/
theorem registersAreWritten : Obligations.RegistersAreWritten := by
  refine ⟨fun s r c n v hask hpend hlost hmay hfree => ?free, fun s r c n v hask hpend hlost hmay harmed => ?armed,
    fun s p c n k hup hopc hbehind hctx haddr hdata hlen hpend hlost hmay hfree => ?host, fun s r v hheard hctx0 => ?admin,
    fun s r v l hheard hmay hl hvalid => ?passes, fun s r v hheard hmay hheld => ?held, fun s r t v x hask hpend hctx0 htarget hlive => ?indirect⟩
  case free =>
    have hexec := registerWrite_cairnArg (n := n) v hask hpend hlost hmay
    rw [Dev.cairnArgWritten_of_free (d := s.begin) v hfree] at hexec
    refine ends_of_quiet hexec ⟨?_, fun k hk => ?_, rfl, rfl, rfl, rfl, rfl, rfl, rfl⟩
    · exact Dev.reg_setReg_same _ _ _
    · exact (Dev.reg_setReg _ _ _ _).trans (if_neg (Ne.symm hk))
  case armed =>
    have hexec := registerWrite_cairnArg (n := n) v hask hpend hlost hmay
    rwa [Dev.cairnArgWritten_of_armed (d := s.begin) v harmed] at hexec
  case host =>
    obtain ⟨e, l, hexec, he, hupe, htx⟩ := rwr_cairnArg hup hopc hbehind hctx haddr hdata hlen hpend hlost hmay hfree
    have hanswers := hostAnswers_hostAnswer (s := s) k (st := stOK) (grant := 0) (data := []) hupe htx (by decide) (by decide) (by decide)
    rw [hopc] at hanswers
    obtain ⟨l', hl'⟩ := e.sendHost_traffic p { hdr := hpHdr 0x0C 2 k.tag stOK k.ctx k.gen 0 0 0, data := [] }
    have hsend : e.hostAnswer p k stOK 0 [] = e.withTraffic e.tags l' := by
      rw [← hl', Dev.hostAnswer, hopc]; rfl
    refine ⟨_, hexec, rfl, hanswers, ?_⟩
    rw [hsend, he]
    refine ⟨by simp, fun j hj => by simp [Dev.reg_setReg, Ne.symm hj], s.commit_mem _ (by simp) (by simp), by simp, by simp, by simp, by simp⟩
  case admin => exact quiet_of_heard (i := .devAdminWrite r v) (perm := fun _ => isCtx0 r) rfl hheard hctx0 rfl rfl rfl
  case passes =>
    obtain ⟨g, k, heffect⟩ := Dev.evtConsWrite_passes (d := s.begin) hl hvalid
    refine ends_of_heard (i := .devEvtConsWrite r v) (x := fun _ d => (d.evtConsWrite 64 Reg.devEvtCons v, stOK)) (perm := fun d => d.ctx0OrAdmin r)
      (d := ((s.begin.withTraffic g k).setEventRing 64 (s.begin.pkgEvents.without l)).setReg Reg.devEvtCons v) rfl hheard hmay
      (Prod.ext heffect rfl) ⟨?_, fun n => ?_, ?_, fun k hk => ?_, s.commit_mem _ (by simp [Dev.answer]) (by simp [Dev.answer]), ?_, ?_⟩
    case refine_4 => simp [Dev.answer, Dev.reg_setReg, Ne.symm hk]
    all_goals simp [Dev.answer, EventRing.without]
  case held =>
    exact quiet_of_heard (i := .devEvtConsWrite r v) (x := fun _ d => (d.evtConsWrite 64 Reg.devEvtCons v, stOK)) (perm := fun d => d.ctx0OrAdmin r) rfl hheard hmay
      (Prod.ext (Dev.evtConsWrite_held (d := s.begin) hheld) rfl) rfl rfl
  case indirect =>
    have haccess : xIndData r none (some v) s.mem s.begin = some (((s.begin.setReg (Reg.tileShareMapLo t) v).advance r 64).answer r stOK) := by
      have hwrite := access_indData (d := s.begin) s.mem r v
      rw [indWrite_tileShareMapLo (d := s.begin) s.mem v hpend hctx0 htarget hlive] at hwrite
      exact (xWrite_heard (by rwa [mayAsk_begin])).trans (by rw [hwrite]; rfl)
    refine ends_of_quiet (access_quiet haccess rfl rfl) ⟨Dev.reg_setReg_same _ _ _, fun k hk => (Dev.reg_setReg _ _ _ _).trans (if_neg (Ne.symm hk)), ?_, rfl, rfl, rfl, rfl⟩
    exact Dev.req_setReq_same _ _ _

end Sys2Proof.Machine
end

section
/-! The modules of the sideband link (R16, R26, Table 1.2). -/

namespace Sys2Proof.Machine

open Sys2Proof.Tests (st fuses)

/-- A package that waits for its mirror, in DISCOVER mode. -/
def waitingForMirror : State :=
  st { fuses := fuses, bringUp := .waitMirror, idModeNow := true,
       outcome := some { idMode := true, trained := #v[3, 3, 3, 3, 3, 3, 3, 3], half := #v[0, 0, 0, 0, 0, 0, 0, 0], sideband := false,
                         exchange := false, colsBad := [], colsFused := [], sparesFused := [], selfTest := true, hbmTrain := ⟨0xFFFF, 0⟩ } }

/-- Link 7 trains; the outcome names a module 5, which that link does not have (its modules are 0 to 3, Table 1.2). -/
def moduleFiveTrains : MirrorOutcome := { trained := 32, half := 0, exchange := false }

theorem moduleFive_absent : ((xMirrorSidebandUp moduleFiveTrains waitingForMirror.mem waitingForMirror.begin).module 7 5).inService = false := by
  decide +kernel

/-- Refutes O10: the clause on the mirror's sideband speaks of modules 0 to 15, but link 7 has four (Table 1.2). With bit 5 of the outcome set,
module 5 does not enter service. -/
theorem not_startUpBeginsAndWaitsForTheMirror : ¬ Obligations.StartUpBeginsAndWaitsForTheMirror := by
  intro h
  obtain ⟨-, -, hsideband, -⟩ := h
  obtain ⟨u, hexec, -, -, -, hmodules, -⟩ := hsideband waitingForMirror _ moduleFiveTrains rfl rfl rfl rfl rfl
  have hu : u = waitingForMirror.commit (xMirrorSidebandUp moduleFiveTrains waitingForMirror.mem waitingForMirror.begin) := by injection hexec.symm
  have hin : (u.dev.module 7 5).inService = true := (hmodules 5 (by decide) (by decide) (by decide +kernel)).1
  rw [hu, Dev.module_commit, moduleFive_absent] at hin
  exact Bool.false_ne_true hin

end Sys2Proof.Machine
end

section
/-! The generation of the image in INCOMING (R153, R157). -/

namespace Sys2Proof.Machine

open Sys2Proof.Tests (st fuses)

/-- An image is being validated; the area of INCOMING reads 0, and the generation noted before is 7. -/
def validatingGenerationSeven : State := st { fuses := fuses, strata := { inState := .validating, genIn := 7 } }

theorem validation_notes_generation :
    (xStrataValidationComplete validatingGenerationSeven.mem validatingGenerationSeven.begin).strata.genIn = 0 := by
  decide +kernel

theorem validation_fails :
    validatingGenerationSeven.begin.contentResult (validatingGenerationSeven.begin.incReader validatingGenerationSeven.mem) ≠ 0 := by
  decide +kernel

/-- Refutes O25: the end of a validation also notes the generation that the image's header gives (R157), so the record is not the old one
with INCOMING's state, the result and the fetch changed. Here the header reads generation 0 and 7 stood before. -/
theorem not_strataImagesAreCheckedAndSwapped : ¬ Obligations.StrataImagesAreCheckedAndSwapped := by
  intro h
  obtain ⟨-, -, hvalidation, -⟩ := h
  obtain ⟨u, hexec, -, -, hfailed, -⟩ := hvalidation validatingGenerationSeven _ rfl (by decide +kernel) rfl
  have hu : u = validatingGenerationSeven.commit (xStrataValidationComplete validatingGenerationSeven.mem validatingGenerationSeven.begin) := by
    injection hexec.symm
  have hkept : u.dev.strata.genIn = 7 := congrArg Strata.genIn (hfailed validation_fails).1
  rw [hu, State.commit_strata, validation_notes_generation] at hkept
  exact absurd hkept (by decide)

end Sys2Proof.Machine
end

section
/-! Cells between dies, and the buckets of their lanes (R14, R15, R357; log entry 83). -/

namespace Sys2Proof.Machine

open Sys2Proof.Claims

/-! The two ends of a module. -/

@[simp] theorem D2dModule.endAt_withEnd_same (x : D2dModule) (high : Bool) (e : D2dEnd) : (x.withEnd high e).endAt high = e := by
  cases high <;> rfl

@[simp] theorem D2dModule.endAt_not_withEnd (x : D2dModule) (high : Bool) (e : D2dEnd) : (x.withEnd high e).endAt (!high) = x.endAt (!high) := by
  cases high <;> rfl

@[simp] theorem D2dModule.endAt_withEnd_not (x : D2dModule) (high : Bool) (e : D2dEnd) : (x.withEnd (!high) e).endAt high = x.endAt high := by
  cases high <;> rfl

/-- Credits that go back change only what the end owes. -/
theorem D2dEnd.takeCredit_fields (e : D2dEnd) :
    e.takeCredit.2.2.unacked = e.unacked ∧ e.takeCredit.2.2.txSeq = e.txSeq ∧ e.takeCredit.2.2.rxSeq = e.rxSeq := by
  unfold D2dEnd.takeCredit
  split
  · exact ⟨rfl, rfl, rfl⟩
  · split <;> exact ⟨rfl, rfl, rfl⟩

/-! One lemma per thing that can happen to a cell. -/

/-- A new cell that is not IDLE goes out, takes a SEQ and stays in the replay buffer (R15). -/
theorem Dev.sendCell_counted (d : Dev) (n m : Nat) (high : Bool) {q : CellRequest} (hcls : q.cls ≠ 0) :
    ∃ e : D2dEnd, d.sendCell n m high q = (d.setModule n m ((d.module n m).withEnd high e)).emit
        (.d2dCell n m high (makeCell q ((d.module n m).endAt high).txSeq.toNat ((d.module n m).endAt high).rxSeq.toNat
          ((d.module n m).endAt high).takeCredit.1 ((d.module n m).endAt high).takeCredit.2.1)) ∧
      e.unacked = ((d.module n m).endAt high).unacked ++ [makeCell q ((d.module n m).endAt high).txSeq.toNat
        ((d.module n m).endAt high).rxSeq.toNat ((d.module n m).endAt high).takeCredit.1 ((d.module n m).endAt high).takeCredit.2.1] ∧
      e.txSeq = ((d.module n m).endAt high).txSeq + 1 ∧ e.rxSeq = ((d.module n m).endAt high).rxSeq := by
  obtain ⟨hunacked, htx, hrx⟩ := ((d.module n m).endAt high).takeCredit_fields
  have hidle : (q.cls == 0) = false := beq_eq_false_iff_ne.mpr hcls
  simp only [Dev.sendCell, hidle, Bool.false_eq_true, if_false, hunacked, htx, hrx]
  generalize makeCell q _ _ _ _ = cell
  exact ⟨_, rfl, rfl, rfl, rfl⟩

/-- A cell in order that is not CTL is delivered, and its SEQ is the last one accepted (R15). -/
theorem Dev.acceptCell_plain (d : Dev) (m : Mem) (n i : Nat) (high : Bool) {cell : BitVec 640} (hcls : cellClass cell ≠ 1) :
    ∃ e : D2dEnd, d.acceptCell m n i high cell = (d.setModule n i ((d.module n i).withEnd high e)).emit (.d2dDelivered n i high cell) ∧
      e.rxSeq = BitVec.ofNat 16 (cellSeq cell) ∧ e.discarding = false := by
  simp only [Dev.acceptCell, bne_iff_ne, ne_eq, hcls, not_false_eq_true, if_true]
  exact ⟨_, rfl, rfl, rfl⟩

/-- What a receiving end that starts to discard makes of the module (R15): the far end replays all it has not had acknowledged. -/
def D2dModule.refused (x : D2dModule) (high : Bool) : D2dModule :=
  (x.withEnd high { x.endAt high with discarding := true }).withEnd (!high)
    { x.endAt (!high) with toReplay := (x.endAt (!high)).unacked.length }

theorem Dev.refuseCell_first (d : Dev) (n m : Nat) (high : Bool) (h : ((d.module n m).endAt high).discarding = false) :
    d.refuseCell n m high = d.setModule n m ((d.module n m).refused high) := by
  simp only [Dev.refuseCell, h, Bool.false_eq_true, if_false]
  rfl

theorem D2dModule.refused_ends (x : D2dModule) (high : Bool) :
    (x.refused high).endAt high = { x.endAt high with discarding := true } ∧
      (x.refused high).endAt (!high) = { x.endAt (!high) with toReplay := (x.endAt (!high)).unacked.length } := by
  cases high <;> exact ⟨rfl, rfl⟩

/-- An event on a bucket below its limit raises its level by 1 (R353, R357). -/
theorem Dev.charge_raises {d : Dev} {cls unit : Nat} {b : Bucket} (hbucket : mfind d.ras.buckets (bucketKey cls unit) = some b)
    (hbelow : b.level + 1 < d.lbN cls) (cs : List Nat) (u : Nat) :
    ∃ x : Ras, d.charge cls unit false cs u = (d.withRas x, false) ∧
      ∃ b', mfind x.buckets (bucketKey cls unit) = some b' ∧ b'.level = b.level + 1 := by
  have hread : ∀ e, mget e d.ras.buckets (bucketKey cls unit) = b := fun e => by rw [mget, hbucket, Option.getD_some]
  have hlow : ¬ d.lbN cls ≤ b.level + 1 := Nat.not_le.mpr hbelow
  simp only [Dev.charge, hbucket, Option.isNone_some, Bool.false_eq_true, if_false, hread, hlow]
  exact ⟨_, rfl, { b with level := b.level + 1, clock := if b.level = 0 then d.lode.count else b.clock }, by rw [mfind_mset, if_pos rfl], rfl⟩

/-- Only a module has changed, and something was shown outside. -/
theorem commit_setModule_emit (s : State) (n i : Nat) (x : D2dModule) (o : Out) :
    (s.commit ((s.begin.setModule n i x).emit o)).dev.out = [o] ∧ (s.commit ((s.begin.setModule n i x).emit o)).dev.module n i = x ∧
      (s.commit ((s.begin.setModule n i x).emit o)).mem = s.mem ∧ (s.commit ((s.begin.setModule n i x).emit o)).dev.regs = s.dev.regs ∧
      (s.commit ((s.begin.setModule n i x).emit o)).dev.counters = s.dev.counters ∧
      (s.commit ((s.begin.setModule n i x).emit o)).dev.tiles = s.dev.tiles :=
  ⟨rfl, by simp [Dev.module_setModule], State.commit_mem s _ rfl rfl, by simp, by simp, by simp⟩

theorem cell_send {s : State} {x : D2dId} {high : Bool} {q : CellRequest} (hpass : s.dev.cellsPass x.link x.module = true)
    (hreplay : ((s.dev.module x.link x.module).endAt high).toReplay = 0) (hmay : s.dev.maySend x.link x.module high q = true) (hcls : q.cls ≠ 0) :
    Ends (.d2dCellSend x high q) s (fun t =>
      let e := (s.dev.module x.link x.module).endAt high
      let cell := makeCell q e.txSeq.toNat e.rxSeq.toNat e.takeCredit.1 e.takeCredit.2.1
      let e' := (t.dev.module x.link x.module).endAt high
      t.dev.out = [.d2dCell x.link x.module high cell] ∧ e'.unacked = e.unacked ++ [cell] ∧ e'.txSeq = e.txSeq + 1 ∧ e'.rxSeq = e.rxSeq ∧
      (t.dev.module x.link x.module).endAt (!high) = (s.dev.module x.link x.module).endAt (!high) ∧
      t.mem = s.mem ∧ t.dev.regs = s.dev.regs ∧ t.dev.counters = s.dev.counters ∧ t.dev.tiles = s.dev.tiles) := by
  obtain ⟨e, hsend, hunacked, htx, hrx⟩ := s.begin.sendCell_counted x.link x.module high hcls
  refine ends_of_run (x := xD2dCellSend x.link x.module high q) rfl (d := s.begin.sendCell x.link x.module high q) ?_ ?_
  · have hpass' : s.begin.cellsPass x.link x.module = true := hpass
    have hreplay' : ((s.begin.module x.link x.module).endAt high).toReplay = 0 := hreplay
    have hmay' : s.begin.maySend x.link x.module high q = true := hmay
    rw [xD2dCellSend, hpass', hreplay', hmay', Bool.not_true, if_neg Bool.false_ne_true, if_neg (Nat.lt_irrefl 0), if_pos rfl]
  · rw [hsend]
    rw [Dev.module_begin] at hunacked htx hrx ⊢
    dsimp only
    generalize makeCell q _ _ _ _ = cell at hunacked ⊢
    obtain ⟨hout, hmodule, hframe⟩ := commit_setModule_emit s x.link x.module ((s.dev.module x.link x.module).withEnd high e)
      (.d2dCell x.link x.module high cell)
    rw [hmodule, D2dModule.endAt_withEnd_same, D2dModule.endAt_not_withEnd]
    exact ⟨hout, hunacked, htx, hrx, rfl, hframe⟩

theorem cell_received {s : State} {x : D2dId} {high : Bool} {cell : BitVec 640} (hpass : s.dev.cellsPass x.link x.module = true)
    (hcrc : cellCrcOk cell = true) (hcls : cellClass cell = 3) (hcarries : linkCarries x.link 3 = true) (hopen : s.dev.open_ = true)
    (hseq : cellSeq cell = (((s.dev.module x.link x.module).endAt high).rxSeq + 1).toNat) :
    Ends (.d2dCellReceive x high cell) s (fun t =>
      t.dev.out = [.d2dDelivered x.link x.module high cell] ∧
      ((t.dev.module x.link x.module).endAt high).rxSeq = BitVec.ofNat 16 (cellSeq cell) ∧
      ((t.dev.module x.link x.module).endAt high).discarding = false ∧
      (t.dev.module x.link x.module).endAt (!high) = (s.dev.module x.link x.module).endAt (!high) ∧
      t.mem = s.mem ∧ t.dev.regs = s.dev.regs ∧ t.dev.counters = s.dev.counters ∧ t.dev.tiles = s.dev.tiles) := by
  have hplain : cellClass cell ≠ 1 := by omega
  obtain ⟨e, haccept, hrx, hdiscarding⟩ := s.begin.acceptCell_plain s.mem x.link x.module high hplain
  refine ends_of_run (x := xD2dCellReceive x.link x.module high cell) rfl (d := s.begin.acceptCell s.mem x.link x.module high cell) ?_ ?_
  · have hpass' : s.begin.cellsPass x.link x.module = true := hpass
    have hopen' : s.begin.open_ = true := hopen
    have hseq' : cellSeq cell = (((s.begin.module x.link x.module).endAt high).rxSeq + 1).toNat := hseq
    simp [xD2dCellReceive, hpass', hcrc, hcls, hcarries, hopen', hseq']
  · rw [haccept, Dev.module_begin]
    obtain ⟨hout, hmodule, hframe⟩ := commit_setModule_emit s x.link x.module ((s.dev.module x.link x.module).withEnd high e)
      (.d2dDelivered x.link x.module high cell)
    rw [hmodule, D2dModule.endAt_withEnd_same, D2dModule.endAt_not_withEnd]
    exact ⟨hout, hrx, hdiscarding, rfl, hframe⟩

theorem cell_refused {s : State} {x : D2dId} {high : Bool} {cell : BitVec 640} (hpass : s.dev.cellsPass x.link x.module = true)
    (hcrc : cellCrcOk cell = false) (hdiscarding : ((s.dev.module x.link x.module).endAt high).discarding = false) :
    Ends (.d2dCellReceive x high cell) s (fun t =>
      ((t.dev.module x.link x.module).endAt high).discarding = true ∧
      ((t.dev.module x.link x.module).endAt high).rxSeq = ((s.dev.module x.link x.module).endAt high).rxSeq ∧
      ((t.dev.module x.link x.module).endAt (!high)).toReplay = ((s.dev.module x.link x.module).endAt (!high)).unacked.length ∧
      t.dev.out = [] ∧ t.mem = s.mem ∧ t.dev.regs = s.dev.regs ∧ t.dev.counters = s.dev.counters ∧ t.dev.tiles = s.dev.tiles) := by
  obtain ⟨hhere, hfar⟩ := (s.dev.module x.link x.module).refused_ends high
  refine ends_of_run (x := xD2dCellReceive x.link x.module high cell) rfl
    (d := s.begin.setModule x.link x.module ((s.dev.module x.link x.module).refused high)) ?_ ?_
  · have hpass' : s.begin.cellsPass x.link x.module = true := hpass
    rw [← Dev.module_begin s, ← s.begin.refuseCell_first x.link x.module high hdiscarding]
    simp [xD2dCellReceive, hpass', hcrc]
  · simp only [Dev.module_commit, Dev.module_setModule, hhere, hfar]
    exact ⟨trivial, trivial, trivial, rfl, State.commit_mem s _ rfl rfl, rfl, rfl, rfl⟩

theorem lane_charged {s : State} {x : D2dId} {up : Bool} {lane : Fin 68} {b : Bucket} (hservice : (s.dev.module x.link x.module).inService = true)
    (hbucket : mfind s.dev.ras.buckets (bucketKey 4 (d2dLaneUnit x.link x.module lane (if up then (linkEnds x.link).2 else (linkEnds x.link).1))) = some b)
    (hbelow : b.level + 1 < s.dev.lbN 4) :
    Ends (.d2dLaneParityError x up lane false) s (fun t =>
      (∃ b', mfind t.dev.ras.buckets (bucketKey 4 (d2dLaneUnit x.link x.module lane (if up then (linkEnds x.link).2 else (linkEnds x.link).1)))
          = some b' ∧ b'.level = b.level + 1) ∧
      t.dev.modules = s.dev.modules ∧ t.mem = s.mem ∧ t.dev.regs = s.dev.regs ∧ t.dev.counters = s.dev.counters) := by
  obtain ⟨r, hcharge, b', hb', hlevel⟩ := Dev.charge_raises (d := s.begin) hbucket hbelow (s.begin.linkCtxs s.mem x.link) 0
  refine ends_of_run (x := xD2dLaneParityError x.link x.module up lane false) rfl (d := s.begin.withRas r) ?_ ?_
  · have hservice' : (s.begin.module x.link x.module).inService = true := hservice
    unfold xD2dLaneParityError
    rw [hservice', Bool.not_true, if_neg Bool.false_ne_true]
    dsimp only
    rw [hcharge, Bool.not_false, if_pos rfl]
  · exact ⟨⟨b', hb', hlevel⟩, by simp [Dev.withRas], State.commit_mem s _ (by simp) (by simp), by simp, by simp⟩

/-- Settles O11, a lemma for each thing that can happen to a cell and one for a bucket below its limit. The cell's content (log entry 5) and
the bucket of a die-to-die lane (log entry 83) are the model's reading. -/
theorem dieToDieCellsKeepTheirOrder : Obligations.DieToDieCellsKeepTheirOrder :=
  ⟨fun _ _ _ _ hpass hreplay hmay hcls => cell_send hpass hreplay hmay hcls,
    fun _ _ _ _ hpass hcrc hcls hcarries hopen hseq => cell_received hpass hcrc hcls hcarries hopen hseq,
    fun _ _ _ _ hpass hcrc hdiscarding => cell_refused hpass hcrc hdiscarding,
    fun _ _ _ _ _ hservice hbucket hbelow => lane_charged hservice hbucket hbelow⟩

end Sys2Proof.Machine
end

section
/-! Commands of STRATA_CTRL (R152 to R154, R157). -/

namespace Sys2Proof.Machine

open Sys2Proof.Claims (Ends Quiet Heard StrataRefused StrataArms)

/-- A register word is written: all that is no register stays. -/
@[simp] theorem Dev.putReg_others (d : Dev) (k : Nat) (v : BitVec 32) : (d.putReg k v).counters = d.counters ∧ (d.putReg k v).ctxs = d.ctxs ∧
    (d.putReg k v).cairns = d.cairns ∧ (d.putReg k v).fuses = d.fuses ∧ (d.putReg k v).hosts = d.hosts ∧ (d.putReg k v).ports = d.ports ∧
    (d.putReg k v).tags = d.tags ∧ (d.putReg k v).lode = d.lode ∧ (d.putReg k v).sec = d.sec ∧ (d.putReg k v).ras = d.ras ∧
    (d.putReg k v).pages = d.pages ∧ (d.putReg k v).modules = d.modules ∧ (∀ j, (d.putReg k v).count j = d.count j) ∧
    (∀ j, (d.putReg k v).ctx j = d.ctx j) ∧ (∀ c n, (d.putReg k v).cairn c n = d.cairn c n) ∧ (∀ j, (d.putReg k v).host j = d.host j) ∧
    (∀ j, (d.putReg k v).port j = d.port j) ∧ (∀ q, (d.putReg k v).page q = d.page q) ∧ (∀ q, (d.putReg k v).arb q = d.arb q) :=
  ⟨rfl, rfl, rfl, rfl, rfl, rfl, rfl, rfl, rfl, rfl, rfl, rfl, fun _ => rfl, fun _ => rfl, fun _ _ => rfl, fun _ => rfl, fun _ => rfl,
    fun _ => rfl, fun _ => rfl⟩

/-! The word of a command. -/

theorem strataWord_eq (d : Dev) (cmd : Nat) : (strataWord d cmd).toNat = setFld (d.reg Reg.strataCtrl).toNat 3 0 cmd := by
  rw [strataWord, BitVec.toNat_ofNat, Nat.mod_eq_of_lt (setFld_lt _ 3 0 cmd 32 (d.reg Reg.strataCtrl).isLt (by decide) (by decide))]

theorem fb_strataWord (d : Dev) {cmd : Nat} (hcmd : cmd < 16) : fb (strataWord d cmd) 3 0 = cmd := by
  rw [strataWord, fb_ofNat_setFld 32 _ 3 0 cmd (d.reg Reg.strataCtrl).isLt (by decide) (by decide)]
  exact Nat.mod_eq_of_lt hcmd

/-- The word of LOAD with its source in bit 4. -/
def loadWord (d : Dev) (b : Bool) : BitVec 32 := BitVec.ofNat 32 (setFld (strataWord d 1).toNat 4 4 (if b then 1 else 0))

theorem loadWord_eq (d : Dev) (b : Bool) : (loadWord d b).toNat = setFld (strataWord d 1).toNat 4 4 (if b then 1 else 0) := by
  rw [loadWord, BitVec.toNat_ofNat, Nat.mod_eq_of_lt (setFld_lt _ 4 4 _ 32 (strataWord d 1).isLt (by decide) (by decide))]

theorem fb_loadWord (d : Dev) (b : Bool) : fb (loadWord d b) 3 0 = 1 := by
  rw [fb, loadWord_eq, fld_setFld_below _ 4 4 _ 3 0 (by decide)]
  exact fb_strataWord d (by decide)

theorem source_loadWord (d : Dev) : (loadWord d true).getLsbD 4 = true := by
  have h : fb (loadWord d true) 4 4 = 1 := by
    rw [loadWord, fb_ofNat_setFld 32 _ 4 4 _ (strataWord d 1).isLt (by decide) (by decide)]
    rfl
  rw [getLsbD_eq_fb, h]
  rfl

/-! The register's write, once what the command does is known. -/

/-- What a permitted command of STRATA_CTRL does, before the word itself is written. -/
def Dev.strataCommand (d : Dev) (m : Mem) (r : Requester) (v : BitVec 32) (cmd : Nat) : Dev × Nat :=
  match cmd with
  | 0 => (d, stOK)
  | 1 => d.strataLoad r (v.getLsbD 4)
  | 2 => d.strataDiscard
  | 3 => d.strataArm m 1
  | 4 => d.strataArm m 2
  | 5 => d.strataArm m 3
  | 6 => (d.fwCommit, stOK)
  | 7 => d.strataCancel
  | _ => d.strataRefuse cmd

theorem strataCtrlWrite_eq (d : Dev) (m : Mem) (r : Requester) {v : BitVec 32} {cmd : Nat} (hcmd : fb v 3 0 = cmd) :
    d.strataCtrlWrite m r v = (let y := if !d.ctx0OrAdmin r then d.strataRefuse cmd else d.strataCommand m r v cmd
      if y.2 = stOK then (y.1.putReg Reg.strataCtrl v, stOK) else y) := by
  subst hcmd
  rfl

theorem strataCtrlWrite_of_ok {d e : Dev} {m : Mem} {r : Requester} {v : BitVec 32} {cmd : Nat} (hcmd : fb v 3 0 = cmd)
    (hmay : d.ctx0OrAdmin r = true) (h : d.strataCommand m r v cmd = (e, stOK)) :
    d.strataCtrlWrite m r v = (e.putReg Reg.strataCtrl v, stOK) := by
  rw [strataCtrlWrite_eq d m r hcmd, hmay, Bool.not_true, if_neg Bool.false_ne_true, h]
  exact if_pos rfl

theorem strataRefuse_status (d : Dev) (cmd : Nat) : (d.strataRefuse cmd).2 ≠ stOK := by
  show stACCESS ≠ stOK
  decide

theorem strataCtrlWrite_of_refused {d : Dev} {m : Mem} {r : Requester} {v : BitVec 32} {cmd : Nat} (hcmd : fb v 3 0 = cmd)
    (h : d.ctx0OrAdmin r = true → d.strataCommand m r v cmd = d.strataRefuse cmd) : d.strataCtrlWrite m r v = d.strataRefuse cmd := by
  rw [strataCtrlWrite_eq d m r hcmd]
  have hy : (if (!d.ctx0OrAdmin r) = true then d.strataRefuse cmd else d.strataCommand m r v cmd) = d.strataRefuse cmd := by
    cases hmay : d.ctx0OrAdmin r with
    | false => rfl
    | true => exact h hmay
  rw [hy]
  exact if_neg (strataRefuse_status d cmd)

/-- A refused command is counted in both counters, and recorded. -/
theorem strataRefused_of_write {i : Instr} {s : State} {r : Requester} {v : BitVec 32} {cmd : Nat} {x : Mem → Dev → Dev × Nat}
    (hexec : exec i s = s.runReg r Reg.strataCtrl v (fun _ => true) x) (hheard : Heard s r Reg.strataCtrl v)
    (hx : x s.mem s.begin = s.begin.strataRefuse cmd) : StrataRefused i s := by
  refine ends_of_heard hexec hheard rfl (hx.trans rfl) ⟨?_, ?_, ?_, ?_, ?_, ?_, ?_⟩
  · simp [Dev.answer]
  · have hevent := ((s.begin.bump Reg.devRegRefused).bump Reg.strataCmdRefused).count_event [] 0x0A04 1 cmd 0 0 (k := Reg.strataCmdRefused)
      (by decide) (by simp) (by decide)
    rw [Dev.count_bump_same, Dev.count_bump_other _ (by decide)] at hevent
    exact hevent
  · have hevent := ((s.begin.bump Reg.devRegRefused).bump Reg.strataCmdRefused).count_event [] 0x0A04 1 cmd 0 0 (k := Reg.devRegRefused)
      (by decide) (by simp) (by decide)
    rw [Dev.count_bump_other _ (by decide), Dev.count_bump_same] at hevent
    exact hevent
  · exact State.commit_mem s _ (by simp [Dev.answer]) (by simp [Dev.answer])
  · simp [Dev.answer]
  · simp [Dev.answer]
  · simp [Dev.answer]

/-! LOAD and DISCARD (R153). -/

theorem areasIn_of_all {d : Dev} (h : ∀ q, q < 4 → d.quarterOut q = false) : d.areasIn.length = 4 := by
  have hall : d.areasIn = List.range 4 := by
    refine List.filter_eq_self.mpr fun q hq => ?_
    rw [h q (List.mem_range.mp hq)]
    rfl
  rw [hall]
  rfl

theorem standIn_of_all {d : Dev} (h : d.quarterOut 0 = false ∧ d.quarterOut 1 = false ∧ d.quarterOut 2 = false ∧ d.quarterOut 3 = false)
    (hcur : d.strata.cur < 4) (hprev : d.strata.prev < 4) (hinc : d.strata.inc < 4) : d.standIn = d := by
  obtain ⟨h0, h1, h2, h3⟩ := h
  have hin : ∀ q, q < 4 → d.quarterOut q = false := fun q hq => by
    rcases q with _ | _ | _ | _ | q
    · exact h0
    · exact h1
    · exact h2
    · exact h3
    · omega
  unfold Dev.standIn
  simp only [hin _ hcur, hin _ hprev, hin _ hinc, Bool.false_eq_true, if_false, ite_self]

/-- The configuration as a LOAD from the management bus leaves it. -/
def Strata.loading (x : Strata) (r : Requester) (len : Nat) : Strata :=
  { x with inState := .fetching, genIn := 0, fetched := 0, fetch := some (r, true, len) }

/-- A device whose configuration is `x`. -/
def Dev.withStrata (d : Dev) (x : Strata) : Dev := { d with strata := x }

/-- What is not fetched from a host needs no request. -/
theorem strataNext_bus {d : Dev} {r : Requester} {len : Nat} (h : d.strata.fetch = some (r, true, len)) : d.strataNext = d := by
  unfold Dev.strataNext
  rw [h]
  cases r <;> rfl

theorem strataLoad_bus {d : Dev} {r : Requester} (hfetching : d.strata.inState ≠ .fetching) (hvalidating : d.strata.inState ≠ .validating)
    (hheld : d.incomingHeld = false) (hareas : ∀ q, q < 4 → d.quarterOut q = false) (hcur : d.strata.cur < 4) (hprev : d.strata.prev < 4)
    (hinc : d.strata.inc < 4) :
    d.strataLoad r true = ((d.bump Reg.strataLoads).withStrata (d.strata.loading r (d.reg Reg.strataSrcLen).toNat), stOK) := by
  have hstand := standIn_of_all ⟨hareas 0 (by decide), hareas 1 (by decide), hareas 2 (by decide), hareas 3 (by decide)⟩ hcur hprev hinc
  unfold Dev.strataLoad
  rw [if_neg (by simp [hfetching, hvalidating, hheld, areasIn_of_all hareas]), hstand]
  exact Prod.ext (strataNext_bus rfl) rfl

@[simp] theorem withStrata_fields (d : Dev) (x : Strata) : (d.withStrata x).strata = x ∧ (d.withStrata x).regs = d.regs ∧
    (d.withStrata x).counters = d.counters ∧ (d.withStrata x).tiles = d.tiles ∧ (d.withStrata x).ctxs = d.ctxs ∧
    (d.withStrata x).cairns = d.cairns ∧ (d.withStrata x).fuses = d.fuses ∧ (d.withStrata x).stores = d.stores ∧
    (d.withStrata x).wipes = d.wipes ∧ (∀ k, (d.withStrata x).count k = d.count k) ∧ (∀ k, (d.withStrata x).reg64 k = d.reg64 k) ∧
    (∀ c n, (d.withStrata x).cairn c n = d.cairn c n) ∧ (∀ c, (d.withStrata x).ctx c = d.ctx c) ∧ (d.withStrata x).now = d.now :=
  ⟨rfl, rfl, rfl, rfl, rfl, rfl, rfl, rfl, rfl, fun _ => rfl, fun _ => rfl, fun _ _ => rfl, fun _ => rfl, rfl⟩

theorem load_accepted {s : State} {r : Requester} (hheard : Heard s r Reg.strataCtrl (loadWord s.dev true)) (hmay : s.dev.ctx0OrAdmin r = true)
    (hfetching : s.dev.strata.inState ≠ .fetching) (hvalidating : s.dev.strata.inState ≠ .validating) (hheld : s.dev.incomingHeld = false)
    (hareas : ∀ q, q < 4 → s.dev.quarterOut q = false) (hcur : s.dev.strata.cur < 4) (hprev : s.dev.strata.prev < 4) (hinc : s.dev.strata.inc < 4) :
    Ends (.strataLoad r true) s (fun u => u.dev.strata.inState = .fetching ∧ u.dev.strata.genIn = 0 ∧ u.dev.strata.fetched = 0 ∧
      u.dev.strata.fetch = some (r, true, (s.dev.reg Reg.strataSrcLen).toNat) ∧
      u.dev.strata.cur = s.dev.strata.cur ∧ u.dev.strata.inc = s.dev.strata.inc ∧ u.dev.strata.armed = s.dev.strata.armed ∧
      u.dev.count Reg.strataLoads = s.dev.count Reg.strataLoads + 1 ∧ u.mem = s.mem ∧ u.dev.tiles = s.dev.tiles) := by
  have hload := strataLoad_bus (d := s.begin) (r := r) hfetching hvalidating hheld hareas hcur hprev hinc
  have hwrite : s.begin.strataCtrlWrite s.mem r (loadWord s.dev true) = (((s.begin.bump Reg.strataLoads).withStrata
      (s.begin.strata.loading r (s.begin.reg Reg.strataSrcLen).toNat)).putReg Reg.strataCtrl (loadWord s.dev true), stOK) :=
    strataCtrlWrite_of_ok (fb_loadWord s.dev true) hmay (by rw [Dev.strataCommand, source_loadWord]; exact hload)
  refine ends_of_heard (i := .strataLoad r true) (x := fun m d => d.strataCtrlWrite m r (loadWord s.dev true)) (perm := fun _ => true)
    rfl hheard rfl hwrite ⟨?_, ?_, ?_, ?_, ?_, ?_, ?_, ?_, State.commit_mem s _ ?_ ?_, ?_⟩
  all_goals simp [Dev.answer, Strata.loading]

/-- A LOAD is refused while an image is fetched, and to a requester that may not ask. -/
theorem load_refused {s : State} {r : Requester} {b : Bool} (hheard : Heard s r Reg.strataCtrl (loadWord s.dev b))
    (h : s.dev.strata.inState = .fetching ∨ s.dev.ctx0OrAdmin r = false) : StrataRefused (.strataLoad r b) s := by
  refine strataRefused_of_write (x := fun m d => d.strataCtrlWrite m r (loadWord s.dev b)) (cmd := 1) rfl hheard
    (strataCtrlWrite_of_refused (fb_loadWord s.dev b) fun hmay => ?_)
  have hmay' : s.dev.ctx0OrAdmin r = true := hmay
  have hfetching : s.begin.strata.inState = .fetching := by simpa [hmay'] using h
  rw [Dev.strataCommand, Dev.strataLoad, hfetching]
  exact if_pos rfl

/-- The requests of a fetch are given up: of the device only the TAGs, the groups under way and the host ports can differ. -/
theorem strataQuit_fields (d : Dev) : d.strataQuit.strata = d.strata ∧ d.strataQuit.tiles = d.tiles ∧ d.strataQuit.stores = d.stores ∧
    d.strataQuit.wipes = d.wipes := by
  have h : (fun d : Dev => (d.strata, d.tiles, d.stores, d.wipes)) d.strataQuit = (d.strata, d.tiles, d.stores, d.wipes) := by
    unfold Dev.strataQuit
    exact Dev.each_frame (fun d : Dev => (d.strata, d.tiles, d.stores, d.wipes)) (List.range 4)
      (fun e p => by dsimp only; split <;> rfl) (d.retireTags fun t => t.purpose == .strata)
  simpa only [Prod.mk.injEq] using h

/-- The configuration once INCOMING is given up. -/
def Strata.discarded (x : Strata) : Strata :=
  { x with inState := .empty, genIn := 0, fetch := none,
           valResult := if x.inState == .fetching || x.inState == .validating then 0x14 else x.valResult }

theorem strataDiscard_eq {d : Dev} (hheld : d.incomingHeld = false) : ∃ e : Dev, d.strataDiscard = (e, stOK) ∧ e.strata = d.strata.discarded ∧
    e.tiles = d.tiles ∧ e.stores = d.stores ∧ e.wipes = d.wipes := by
  obtain ⟨hstrata, htiles, hstores, hwipes⟩ := strataQuit_fields d
  have hquit : d.strataDiscard = ((if d.strata.inState == .fetching || d.strata.inState == .validating
      then (d.strataQuit.withStrata d.strata.discarded).pkgEvent 0x0A01 2 0x14 0 else d.strataQuit.withStrata d.strata.discarded), stOK) := by
    rw [Dev.strataDiscard, hheld, if_neg Bool.false_ne_true]
    simp only [Dev.setStrata, hstrata]
    rfl
  refine ⟨_, hquit, ?_, ?_, ?_, ?_⟩
  all_goals split <;> simp [Dev.pkgEvent, htiles, hstores, hwipes]

theorem discard_accepted {s : State} {r : Requester} (hheard : Heard s r Reg.strataCtrl (strataWord s.dev 2)) (hmay : s.dev.ctx0OrAdmin r = true)
    (hheld : s.dev.incomingHeld = false) :
    Ends (.strataDiscard r) s (fun u => u.dev.strata.inState = .empty ∧ u.dev.strata.genIn = 0 ∧ u.dev.strata.fetch = none ∧
      (s.dev.strata.inState = .fetching ∨ s.dev.strata.inState = .validating → u.dev.strata.valResult = 0x14) ∧
      u.dev.strata.cur = s.dev.strata.cur ∧ u.mem = s.mem ∧ u.dev.tiles = s.dev.tiles) := by
  obtain ⟨e, hdiscard, hstrata, htiles, hstores, hwipes⟩ := strataDiscard_eq (d := s.begin) hheld
  refine ends_of_heard (i := .strataDiscard r) (x := fun m d => d.strataCtrlWrite m r (strataWord d 2)) (perm := fun _ => true) rfl hheard rfl
    (strataCtrlWrite_of_ok (fb_strataWord s.begin (by decide)) hmay hdiscard) ?_
  have hall : ((e.putReg Reg.strataCtrl (strataWord s.begin 2)).answer r stOK).strata = s.dev.strata.discarded := by
    simp [Dev.answer, hstrata]
  rw [State.commit_strata, hall]
  refine ⟨rfl, rfl, rfl, fun hbusy => ?_, rfl, State.commit_mem s _ ?_ ?_, ?_⟩
  · rcases hbusy with h | h <;> simp [Strata.discarded, h]
  · simp [Dev.answer, hstores]
  · simp [Dev.answer, hwipes]
  · simp [Dev.answer, htiles]

/-! The armed actions (R154). -/

/-- The slot of an action at its count. -/
def armedSlotOf (lt action : Nat) : Cairn :=
  { lt := BitVec.ofNat 64 lt, arg := BitVec.ofNat 32 0, action := BitVec.ofNat 8 action, policy := true, evt := false, state := .armed, late := false }

theorem armCairn_future {d : Dev} {c n lt action : Nat} (h : d.now < lt) :
    d.armCairn c n lt 0 action true false = d.setCairn c n (armedSlotOf lt action) := by
  have hpast : decide (lt ≤ d.now) = false := decide_eq_false (by omega)
  simp only [Dev.armCairn, hpast, Bool.false_and, Bool.false_eq_true, if_false]
  rfl

/-- The device with an action of STRATA_CTRL filed in slot `n` of context 0 at STRATA_ARM_LT. -/
def Dev.filed (d : Dev) (action n : Nat) : Dev :=
  (((d.withStrata { d.strata with armed := action, armedSlot := n }).setReg64 (Reg.ctxCairnLtLo 0 n) (d.reg64 Reg.strataArmLtLo)).setRegN
    (Reg.ctxCairnArg 0 n) 0).setCairn 0 n (armedSlotOf (d.reg64 Reg.strataArmLtLo) (0x0F + action))

theorem Dev.filed_fields (d : Dev) (action n : Nat) : (d.filed action n).strata = { d.strata with armed := action, armedSlot := n } ∧
    (d.filed action n).cairn 0 n = armedSlotOf (d.reg64 Reg.strataArmLtLo) (0x0F + action) ∧ (d.filed action n).tiles = d.tiles ∧
    (d.filed action n).ctxs = d.ctxs ∧ (d.filed action n).counters = d.counters ∧ (d.filed action n).stores = d.stores ∧
    (d.filed action n).wipes = d.wipes := by
  unfold Dev.filed
  refine ⟨?_, Dev.cairn_setCairn _ _ _ _, ?_, ?_, ?_, ?_, ?_⟩
  all_goals simp

theorem strataArm_accepted {d : Dev} {m : Mem} {action n : Nat} (hfree : d.freeCairn = some n) (harmed : d.strata.armed = 0)
    (hactivating : d.strata.activating = none) (hok : d.actionOk m action = true) (hfuture : d.now < d.reg64 Reg.strataArmLtLo) :
    d.strataArm m action = (d.filed action n, stOK) := by
  have hrefuse : (d.strata.armed != 0 || d.strata.activating.isSome || !d.actionOk m action) = false := by
    rw [harmed, hactivating, hok]
    rfl
  unfold Dev.strataArm
  rw [hfree]
  dsimp only
  rw [hrefuse, if_neg Bool.false_ne_true]
  exact Prod.ext (armCairn_future hfuture) rfl

theorem strataArm_refused {d : Dev} {m : Mem} {action : Nat} (harmed : d.strata.armed ≠ 0) :
    d.strataArm m action = d.strataRefuse (action + 2) := by
  unfold Dev.strataArm
  split
  · rfl
  · rw [if_pos (by simp [harmed])]

theorem freeCairn_begin (s : State) : s.begin.freeCairn = s.dev.freeCairn := by
  unfold Dev.freeCairn
  simp only [Dev.cairn_begin]

/-- A heard and accepted command of STRATA_CTRL that stores nothing. -/
theorem ends_of_strataCommand {i : Instr} {s : State} {r : Requester} {cmd : Nat} {e : Dev} {P : State → Prop} (hcmd : cmd < 16)
    (hexec : exec i s = s.runReg r Reg.strataCtrl (strataWord s.dev cmd) (fun _ => true) (fun m d => d.strataCtrlWrite m r (strataWord d cmd)))
    (hheard : Heard s r Reg.strataCtrl (strataWord s.dev cmd)) (hmay : s.dev.ctx0OrAdmin r = true)
    (hcommand : s.begin.strataCommand s.mem r (strataWord s.begin cmd) cmd = (e, stOK)) (hstores : e.stores = []) (hwipes : e.wipes = [])
    (hP : ∀ u : State, u.dev.strata = e.strata → (∀ c n, u.dev.cairn c n = e.cairn c n) → u.mem = s.mem → u.dev.tiles = e.tiles →
      u.dev.ctxs = e.ctxs → u.dev.counters = e.counters → P u) : Ends i s P :=
  ends_of_heard hexec hheard rfl (strataCtrlWrite_of_ok (fb_strataWord s.begin hcmd) hmay hcommand)
    (hP _ rfl (fun _ _ => rfl) (State.commit_mem s _ hstores hwipes) rfl rfl rfl)

/-- A command that arms an action. -/
theorem strataArms_of_command {i : Requester → Instr} {action : Nat} (haction : action + 2 < 16)
    (hexec : ∀ r s, exec (i r) s = s.runReg r Reg.strataCtrl (strataWord s.dev (action + 2)) (fun _ => true)
      (fun m d => d.strataCtrlWrite m r (strataWord d (action + 2))))
    (hcommand : ∀ (d : Dev) m r v, d.strataCommand m r v (action + 2) = d.strataArm m action) : StrataArms i action := by
  intro s r n hheard hmay hfree harmed hactivating hok hfuture
  have harm := strataArm_accepted (d := s.begin) (m := s.mem) ((freeCairn_begin s).trans hfree) harmed hactivating hok hfuture
  obtain ⟨hstrata, hslot, htiles, hctxs, hcounters, hstores, hwipes⟩ := s.begin.filed_fields action n
  refine ends_of_strataCommand haction (hexec r s) hheard hmay ((hcommand _ _ _ _).trans harm) hstores hwipes
    fun u hu hcairn hmem ht hc hn => ⟨hu.trans hstrata, ?_, ?_, ?_, hmem, ht.trans htiles, hc.trans hctxs, hn.trans hcounters⟩
  all_goals rw [hcairn, hslot]
  all_goals rfl

/-- The same command is refused while an action is armed. -/
theorem strataArm_refuses {i : Requester → Instr} {action : Nat} (haction : action + 2 < 16)
    (hexec : ∀ r s, exec (i r) s = s.runReg r Reg.strataCtrl (strataWord s.dev (action + 2)) (fun _ => true)
      (fun m d => d.strataCtrlWrite m r (strataWord d (action + 2))))
    (hcommand : ∀ (d : Dev) m r v, d.strataCommand m r v (action + 2) = d.strataArm m action) {s : State} {r : Requester}
    (hheard : Heard s r Reg.strataCtrl (strataWord s.dev (action + 2))) (harmed : s.dev.strata.armed ≠ 0) : StrataRefused (i r) s :=
  strataRefused_of_write (hexec r s) hheard (strataCtrlWrite_of_refused (fb_strataWord s.begin haction)
    fun _ => (hcommand _ _ _ _).trans (strataArm_refused (d := s.begin) harmed))

/-! FW_COMMIT and CANCEL (R154, R157). -/

theorem fwCommit_one {d : Dev} {k : Nat} {dig : BitVec 512} {svn : BitVec 16} (hfirmware : d.strata.firmware = [(k, dig, svn)])
    (hnewer : d.arb k < svn.toNat) (hroom : (mget [] d.fuses.banks k).length < 32) :
    d.fwCommit = { d with fuses := { d.fuses with banks := mset d.fuses.banks k (mget [] d.fuses.banks k ++ [svn]) } } := by
  unfold Dev.fwCommit
  rw [hfirmware, Dev.each_cons, Dev.each_nil]
  dsimp only
  rw [if_pos (by simp [hnewer, hroom])]

theorem fw_committed {s : State} {r : Requester} {k : Nat} {dig : BitVec 512} {svn : BitVec 16}
    (hheard : Heard s r Reg.strataCtrl (strataWord s.dev 6)) (hmay : s.dev.ctx0OrAdmin r = true)
    (hfirmware : s.dev.strata.firmware = [(k, dig, svn)]) (hnewer : s.dev.arb k < svn.toNat) (hroom : (mget [] s.dev.fuses.banks k).length < 32) :
    Ends (.strataFwCommit r) s (fun u => u.dev.arb k = svn.toNat ∧ (∀ j, j ≠ k → u.dev.arb j = s.dev.arb j) ∧
      u.dev.strata = s.dev.strata ∧ u.mem = s.mem ∧ u.dev.counters = s.dev.counters) := by
  have hcommit := fwCommit_one (d := s.begin) hfirmware hnewer hroom
  refine ends_of_heard (i := .strataFwCommit r) (x := fun m d => d.strataCtrlWrite m r (strataWord d 6)) (perm := fun _ => true) rfl hheard rfl
    (strataCtrlWrite_of_ok (fb_strataWord s.begin (by decide)) hmay (Prod.ext hcommit rfl)) ⟨?_, fun j hj => ?_, ?_, State.commit_mem s _ ?_ ?_, ?_⟩
  · simp [Dev.arb, Dev.answer]
  · simp [Dev.arb, Dev.answer, mget_mset_other _ _ _ (Ne.symm hj)]
  all_goals simp [Dev.answer]

theorem cairnCancel_filed {d : Dev} {n : Nat} (hstate : (d.cairn 0 n).state = .armed) (haction : (d.cairn 0 n).action = 0x10) :
    d.cairnCancel 0 n 5 = (d.setCairn 0 n { d.cairn 0 n with state := .cancelled, result := 5, late := false }).withStrata
      { d.strata with armed := 0 } := by
  simp [Dev.cairnCancel, Dev.cairnSet, hstate, haction, alwaysRecords, Dev.bumpIf]
  rfl

theorem cancel_accepted {s : State} {r : Requester} (hheard : Heard s r Reg.strataCtrl (strataWord s.dev 7)) (hmay : s.dev.ctx0OrAdmin r = true)
    (harmed : s.dev.strata.armed ≠ 0) (hstate : (s.dev.cairn 0 s.dev.strata.armedSlot).state = .armed)
    (haction : (s.dev.cairn 0 s.dev.strata.armedSlot).action = 0x10) :
    Ends (.strataCancel r) s (fun u => u.dev.strata = { s.dev.strata with armed := 0 } ∧
      (u.dev.cairn 0 s.dev.strata.armedSlot).state = .cancelled ∧ (u.dev.cairn 0 s.dev.strata.armedSlot).result = 5 ∧
      u.mem = s.mem ∧ u.dev.tiles = s.dev.tiles ∧ u.dev.ctxs = s.dev.ctxs) := by
  have hcancel : s.begin.strataCancel = ((s.begin.setCairn 0 s.dev.strata.armedSlot { s.begin.cairn 0 s.dev.strata.armedSlot with
      state := .cancelled, result := 5, late := false }).withStrata { s.begin.strata with armed := 0 }, stOK) := by
    rw [Dev.strataCancel, if_neg (show s.begin.strata.armed ≠ 0 from harmed)]
    exact Prod.ext (cairnCancel_filed (d := s.begin) hstate haction) rfl
  refine ends_of_heard (i := .strataCancel r) (x := fun m d => d.strataCtrlWrite m r (strataWord d 7)) (perm := fun _ => true) rfl hheard rfl
    (strataCtrlWrite_of_ok (fb_strataWord s.begin (by decide)) hmay hcancel) ⟨?_, ?_, ?_, State.commit_mem s _ ?_ ?_, ?_, ?_⟩
  all_goals simp [Dev.answer, Dev.cairn_setCairn]

theorem cancel_refused {s : State} {r : Requester} (hheard : Heard s r Reg.strataCtrl (strataWord s.dev 7)) (harmed : s.dev.strata.armed = 0) :
    StrataRefused (.strataCancel r) s :=
  strataRefused_of_write (x := fun m d => d.strataCtrlWrite m r (strataWord d 7)) rfl hheard
    (strataCtrlWrite_of_refused (fb_strataWord s.begin (by decide)) fun _ => if_pos (show s.begin.strata.armed = 0 from harmed))

/-- Settles O24: the word's field gives back the command, and each command is one of a few updates, or the refusal. -/
theorem strataCommandsAreTakenOrRefused : Obligations.StrataCommandsAreTakenOrRefused :=
  ⟨fun _ _ hheard hmay hfetching hvalidating hheld hareas hcur hprev hinc =>
      load_accepted hheard hmay hfetching hvalidating hheld hareas hcur hprev hinc,
    fun _ _ _ hheard h => load_refused hheard h,
    fun _ _ hheard hmay hheld => discard_accepted hheard hmay hheld,
    strataArms_of_command (by decide) (fun _ _ => rfl) (fun _ _ _ _ => rfl),
    strataArms_of_command (by decide) (fun _ _ => rfl) (fun _ _ _ _ => rfl),
    strataArms_of_command (by decide) (fun _ _ => rfl) (fun _ _ _ _ => rfl),
    fun _ _ hheard harmed => strataArm_refuses (i := .strataActivate) (action := 1) (by decide) (fun _ _ => rfl) (fun _ _ _ _ => rfl) hheard harmed,
    fun _ _ hheard harmed => strataArm_refuses (i := .strataRevert) (action := 2) (by decide) (fun _ _ => rfl) (fun _ _ _ _ => rfl) hheard harmed,
    fun _ _ hheard harmed => strataArm_refuses (i := .strataGroupApply) (action := 3) (by decide) (fun _ _ => rfl) (fun _ _ _ _ => rfl) hheard harmed,
    fun _ _ _ _ _ hheard hmay hfirmware hnewer hroom => fw_committed hheard hmay hfirmware hnewer hroom,
    fun _ _ hheard hmay harmed hstate haction => cancel_accepted hheard hmay harmed hstate haction,
    fun _ _ hheard harmed => cancel_refused hheard harmed⟩

end Sys2Proof.Machine
end

section
/-! Phase switches and the acknowledgement of shares (R132, R161 to R164). -/

namespace Sys2Proof.Machine

open Sys2Proof.Claims (Ends Quiet Heard)

theorem Dev.tilesOf_nodup (d : Dev) (c : Nat) : (d.tilesOf c).Nodup := List.nodup_range.filter _

/-! Shadow planes. -/

/-- The plane that a tile's section of image `r` gives for a phase, if the image has one of the tile's width. -/
def shadowOf (r : Reader) (t target : Nat) (x : Tile) : Tile :=
  match tileSection r t x.width with
  | some z => { x with shadow := some (sectionPlane r z target) }
  | none => x

/-- One tile's shadow plane is loaded. -/
def Dev.loadShadow (r : Reader) (target : Nat) (d : Dev) (t : Nat) : Dev :=
  match tileSection r t (d.tile t).width with
  | some z => d.setTile t { d.tile t with shadow := some (sectionPlane r z target) }
  | none => d

theorem tile_loadShadow (r : Reader) (target : Nat) (d : Dev) (t i : Nat) :
    (Dev.loadShadow r target d t).tile i = if t = i then shadowOf r i target (d.tile i) else d.tile i := by
  unfold Dev.loadShadow shadowOf
  by_cases h : t = i
  · subst h
    rw [if_pos rfl]
    split <;> simp
  · rw [if_neg h]
    split
    · rw [Dev.tile_setTile, if_neg h]
    · rfl

theorem loadShadow_frame {β : Type} (g : Dev → β) (hset : ∀ d t x, g (Dev.setTile d t x) = g d) (r : Reader) (target : Nat) (d : Dev) (t : Nat) :
    g (Dev.loadShadow r target d t) = g d := by
  unfold Dev.loadShadow
  split
  · exact hset _ _ _
  · rfl

/-- The device with the shadow planes of context `c` loaded for the switch `w`. -/
def Dev.shadowed (d : Dev) (m : Mem) (c : Nat) (w : Switch) : Dev :=
  (d.each ((d.tilesOf c).filter (fun t => !d.leftOut t)) (Dev.loadShadow (d.curReader m) w.target)).setCtx c
    { d.ctx c with switch := some { w with shadowReady := true } }

theorem xShadowLoadComplete_eq {d : Dev} (m : Mem) {c : Nat} {w : Switch} (hswitch : (d.ctx c).switch = some w) (hready : w.shadowReady = false)
    (hvalid : d.strata.curValid = true) : xShadowLoadComplete c m d = d.shadowed m c w := by
  have hctx : (d.each ((d.tilesOf c).filter (fun t => !d.leftOut t)) (Dev.loadShadow (d.curReader m) w.target)).ctx c = d.ctx c :=
    Dev.each_frame (fun e => e.ctx c) _ (fun e t => loadShadow_frame (fun e => e.ctx c) (fun _ _ _ => rfl) _ _ e t) d
  unfold xShadowLoadComplete Dev.shadowed
  rw [hswitch]
  dsimp only
  rw [hready, hvalid]
  show (d.each ((d.tilesOf c).filter (fun t => !d.leftOut t)) (Dev.loadShadow (d.curReader m) w.target)).setCtx c
    { (d.each ((d.tilesOf c).filter (fun t => !d.leftOut t)) (Dev.loadShadow (d.curReader m) w.target)).ctx c with
      switch := some { w with shadowReady := true } } = _
  rw [hctx]

theorem tile_shadowed (d : Dev) (m : Mem) (c : Nat) (w : Switch) (t : Nat) : (d.shadowed m c w).tile t =
    if t ∈ d.tilesOf c ∧ d.leftOut t = false then shadowOf (d.curReader m) t w.target (d.tile t) else d.tile t := by
  have h := Dev.each_update Dev.tile (fun i x => shadowOf (d.curReader m) i w.target x) ((d.tilesOf_nodup c).filter (fun t => !d.leftOut t))
    (fun e a i => tile_loadShadow (d.curReader m) w.target e a i) d t
  simp only [List.mem_filter, Bool.not_eq_true'] at h
  exact h

theorem shadowed_fields (d : Dev) (m : Mem) (c : Nat) (w : Switch) : (d.shadowed m c w).regs = d.regs ∧ (d.shadowed m c w).counters = d.counters ∧
    (d.shadowed m c w).stores = d.stores ∧ (d.shadowed m c w).wipes = d.wipes := by
  have h := Dev.each_frame (fun d : Dev => (d.regs, d.counters, d.stores, d.wipes)) ((d.tilesOf c).filter (fun t => !d.leftOut t))
    (fun e t => loadShadow_frame (fun d : Dev => (d.regs, d.counters, d.stores, d.wipes)) (fun _ _ _ => rfl) (d.curReader m) w.target e t) d
  simp only [Prod.mk.injEq] at h
  exact h

theorem shadow_loaded {s : State} {c : Fin 64} {w : Switch} (hswitch : (s.dev.ctx c).switch = some w) (hready : w.shadowReady = false)
    (hvalid : s.dev.strata.curValid = true) :
    Ends (.shadowLoadComplete c) s (fun u => (u.dev.ctx c).switch = some { w with shadowReady := true } ∧
      (u.dev.ctx c).phase = (s.dev.ctx c).phase ∧
      (∀ t x, t ∈ s.dev.tilesOf c → s.dev.leftOut t = false → tileSection (s.begin.curReader s.mem) t (s.dev.tile t).width = some x →
        (u.dev.tile t).shadow = some (sectionPlane (s.begin.curReader s.mem) x w.target) ∧ (u.dev.tile t).plane = (s.dev.tile t).plane) ∧
      (∀ t, ¬ t ∈ s.dev.tilesOf c → u.dev.tile t = s.dev.tile t) ∧ u.mem = s.mem ∧ u.dev.regs = s.dev.regs ∧
      u.dev.counters = s.dev.counters) := by
  have heffect := xShadowLoadComplete_eq (d := s.begin) s.mem hswitch hready hvalid
  obtain ⟨hregs, hcounters, hstores, hwipes⟩ := shadowed_fields s.begin s.mem c w
  have htile := tile_shadowed s.begin s.mem c w
  have hctx : (s.begin.shadowed s.mem c w).ctx c = { s.begin.ctx c with switch := some { w with shadowReady := true } } := Dev.ctx_setCtx_same _ _ _
  have hswitch' := congrArg Ctx.switch hctx
  have hphase := congrArg Ctx.phase hctx
  refine ends_of_quiet (quiet_of_run (x := xShadowLoadComplete c.val) rfl heffect hstores hwipes)
    ⟨hswitch', hphase, fun t x hmem hin hsection => ?_, fun t hout => ?_, rfl, hregs, hcounters⟩
  · have hthis := (htile t).trans (if_pos ⟨hmem, hin⟩)
    have hplane : shadowOf (s.begin.curReader s.mem) t w.target (s.begin.tile t) =
        { s.begin.tile t with shadow := some (sectionPlane (s.begin.curReader s.mem) x w.target) } := by
      rw [shadowOf, show tileSection (s.begin.curReader s.mem) t (s.begin.tile t).width = some x from hsection]
    rw [hplane] at hthis
    have hshadow := congrArg Tile.shadow hthis
    have hkept := congrArg Tile.plane hthis
    exact ⟨hshadow, hkept⟩
  · exact (htile t).trans (if_neg fun h => hout h.1)

/-! The swap (R163). -/

/-- What a swap leaves of the device besides tiles, registers and memory. -/
def Dev.ofSwap (d : Dev) : Strata × Map Ctx × Map (BitVec 48) := (d.strata, d.ctxs, d.counters)

theorem loadRecords_frame {β : Type} (g : Dev → β) (hpoke : ∀ d a bs, g (Dev.pokeN d a bs) = g d) (r : Reader) (t n o : Nat) (d : Dev) :
    g (loadRecords r t n o d) = g d := by
  induction n generalizing o d with
  | zero => rfl
  | succ n ih =>
    rw [loadRecords]
    rw [ih, hpoke]

theorem activatePlane_ofSwap (d : Dev) (t : Nat) (p : BitVec 512) : (d.activatePlane t p).ofSwap = d.ofSwap := rfl

theorem tile_activatePlane_other (d : Dev) {t j : Nat} (h : t ≠ j) (p : BitVec 512) : (d.activatePlane t p).tile j = d.tile j := by
  show mget Tile.reset (mset d.tiles t _) j = mget Tile.reset d.tiles j
  exact mget_mset_other _ _ _ h

theorem loadTile_frame {β : Type} (g : Dev → β) (hpoke : ∀ d a bs, g (Dev.pokeN d a bs) = g d) {t : Nat}
    (hplane : ∀ d p, g (Dev.activatePlane d t p) = g d) (d : Dev) (r : Reader) (phase : Nat) : g (d.loadTile r t phase) = g d := by
  unfold Dev.loadTile
  split
  · rfl
  · split
    · rfl
    · rw [hplane]
      exact loadRecords_frame g hpoke _ _ _ _ _

theorem swapTile_frame {β : Type} (g : Dev → β) (hpoke : ∀ d a bs, g (Dev.pokeN d a bs) = g d) {t : Nat}
    (hplane : ∀ d p, g (Dev.activatePlane d t p) = g d) (d : Dev) (m : Mem) (target : Nat) : g (d.swapTile m t target) = g d := by
  unfold Dev.swapTile
  dsimp only
  split
  · rfl
  · split
    · split
      · exact loadTile_frame g hpoke hplane _ _ _
      · exact hplane _ _
    · exact loadTile_frame g hpoke hplane _ _ _

/-- Routes that are loaded change links, bridges and credit limits. -/
theorem loadRoutes_fields (d : Dev) (m : Mem) (cs : List Nat) : (d.loadRoutes m cs).strata = d.strata ∧ (d.loadRoutes m cs).ctxs = d.ctxs ∧
    (d.loadRoutes m cs).counters = d.counters ∧ (d.loadRoutes m cs).tiles = d.tiles := by
  have h : (fun d : Dev => (d.strata, d.ctxs, d.counters, d.tiles)) (d.loadRoutes m cs) = (d.strata, d.ctxs, d.counters, d.tiles) := by
    unfold Dev.loadRoutes
    exact Dev.each_frame (fun d : Dev => (d.strata, d.ctxs, d.counters, d.tiles)) _ (fun e v => by
      split
      · rfl
      · split <;> rfl) _
  simpa only [Prod.mk.injEq] using h

/-- The device after the tiles of context `c` have swapped to phase `target`, before the switch is recorded. -/
def Dev.swapped (d : Dev) (m : Mem) (c target : Nat) : Dev :=
  let e := d.each (d.tilesOf c) (fun d t => d.swapTile m t target)
  ((e.setCtx c { e.ctx c with phase := target, switch := none }).loadRoutes m [c]).bump Reg.strataSwitches

theorem xPhaseSwap_eq {d : Dev} {m : Mem} {c : Nat} {w : Switch} {n : BitVec 64} (hswitch : (d.ctx c).switch = some w) (htaken : w.taken = some n)
    (hready : w.shadowReady = true) (htiles : ∀ t, t ∈ d.tilesOf c → d.leftOut t = true ∨ d.phaseEnd t = true)
    (hroutes : ∀ v, v ∈ d.liveRoutes m → d.routeCtx v = some c → routeStays v w.target = false → d.routeDrained m v = true) :
    ∃ l, xPhaseSwap c m d = if w.late then ((d.swapped m c w.target).event [c] 0x0A09 0 c w.target 0).event [c] 0x0A0A 1 c l 0
      else (d.swapped m c w.target).event [c] 0x0A09 0 c w.target 0 := by
  have hall : (d.tilesOf c).all (fun t => d.leftOut t || d.phaseEnd t) = true := by
    simpa only [List.all_eq_true, Bool.or_eq_true] using htiles
  have hdrained : ((d.liveRoutes m).filter (fun v => d.routeCtx v == some c && !routeStays v w.target)).all (d.routeDrained m) = true := by
    simp only [List.all_eq_true, List.mem_filter, Bool.and_eq_true, beq_iff_eq, Bool.not_eq_true']
    exact fun v hv => hroutes v hv.1 hv.2.1 hv.2.2
  unfold xPhaseSwap
  rw [hswitch]
  dsimp only
  rw [htaken]
  dsimp only
  rw [hready, hall, hdrained]
  exact ⟨_, rfl⟩

theorem swapped_fields (d : Dev) (m : Mem) (c target : Nat) : (d.swapped m c target).strata = d.strata ∧
    ((d.swapped m c target).ctx c).phase = target ∧ ((d.swapped m c target).ctx c).switch = none ∧
    (d.swapped m c target).count Reg.strataSwitches = d.count Reg.strataSwitches + 1 ∧
    ∀ t, ¬ t ∈ d.tilesOf c → (d.swapped m c target).tile t = d.tile t := by
  obtain ⟨e, he⟩ : ∃ e, e = d.each (d.tilesOf c) (fun d t => d.swapTile m t target) := ⟨_, rfl⟩
  have hframe : e.ofSwap = d.ofSwap := he ▸ Dev.each_frame Dev.ofSwap _
    (fun e t => swapTile_frame Dev.ofSwap (fun _ _ _ => rfl) (fun _ _ => rfl) e m target) d
  simp only [Dev.ofSwap, Prod.mk.injEq] at hframe
  obtain ⟨hstrata, -, hcounters⟩ := hframe
  obtain ⟨f, hf⟩ : ∃ f, f = (e.setCtx c { e.ctx c with phase := target, switch := none }).loadRoutes m [c] := ⟨_, rfl⟩
  have hswapped : d.swapped m c target = f.bump Reg.strataSwitches := by rw [hf, he]; rfl
  obtain ⟨hfstrata, hfctxs, hfcounters, hftiles⟩ := loadRoutes_fields (e.setCtx c { e.ctx c with phase := target, switch := none }) m [c]
  rw [← hf] at hfstrata hfctxs hfcounters hftiles
  have hctx : f.ctx c = { e.ctx c with phase := target, switch := none } := by
    show mget Ctx.reset f.ctxs c = _
    rw [hfctxs]
    exact mget_mset_same _ _ _ _
  have hcount : f.count Reg.strataSwitches = d.count Reg.strataSwitches := by
    show mget 0 f.counters _ = mget 0 d.counters _
    rw [hfcounters, ← hcounters]
    rfl
  rw [hswapped]
  refine ⟨hfstrata.trans hstrata, by rw [Dev.ctx_bump, hctx], by rw [Dev.ctx_bump, hctx], by rw [Dev.count_bump_same, hcount], fun t hout => ?_⟩
  show mget Tile.reset f.tiles t = d.tile t
  rw [hftiles]
  show e.tile t = d.tile t
  rw [he]
  refine Dev.each_invariant (P := fun x => x.tile t = d.tile t) (fun x a ha hx => ?_) rfl
  have hne : a ≠ t := fun h => hout (h ▸ ha)
  exact (swapTile_frame (fun x => x.tile t) (fun _ _ _ => rfl) (fun e p => tile_activatePlane_other e hne p) x m target).trans hx

/-- Events of a context leave its phase and switch, and the count of switches. -/
theorem switch_event (d : Dev) {c : Nat} (hc : c < 64) (code sev d0 d1 unit : Nat) : ((d.event [c] code sev d0 d1 unit).ctx c).phase = (d.ctx c).phase ∧
    ((d.event [c] code sev d0 d1 unit).ctx c).switch = (d.ctx c).switch ∧
    (d.event [c] code sev d0 d1 unit).count Reg.strataSwitches = d.count Reg.strataSwitches ∧
    (d.event [c] code sev d0 d1 unit).strata = d.strata ∧ ∀ t, (d.event [c] code sev d0 d1 unit).tile t = d.tile t := by
  refine ⟨by simp, by simp, d.count_event [c] code sev d0 d1 unit (by decide) (fun x hx => ?_) (by decide), by simp, by simp⟩
  have hx : x = c := by simpa using hx
  subst hx
  unfold Reg.ctxEvtLost Reg.strataSwitches ctxWindow
  omega

theorem phase_swapped {s : State} {c : Fin 64} {w : Switch} {n : BitVec 64} (hswitch : (s.dev.ctx c).switch = some w) (htaken : w.taken = some n)
    (hready : w.shadowReady = true) (htiles : ∀ t, t ∈ s.dev.tilesOf c → s.dev.leftOut t = true ∨ s.dev.phaseEnd t = true)
    (hroutes : ∀ v, v ∈ s.begin.liveRoutes s.mem → s.dev.routeCtx v = some c.val → routeStays v w.target = false →
      s.begin.routeDrained s.mem v = true) :
    Ends (.phaseSwap c) s (fun u => (u.dev.ctx c).phase = w.target ∧ (u.dev.ctx c).switch = none ∧
      u.dev.count Reg.strataSwitches = s.dev.count Reg.strataSwitches + 1 ∧ u.dev.strata = s.dev.strata ∧
      (∀ t, ¬ t ∈ s.dev.tilesOf c → u.dev.tile t = s.dev.tile t)) := by
  obtain ⟨l, heffect⟩ := xPhaseSwap_eq (d := s.begin) hswitch htaken hready htiles hroutes
  obtain ⟨hstrata, hphase, hnone, hcount, htile⟩ := swapped_fields s.begin s.mem c w.target
  refine ends_of_run (x := xPhaseSwap c.val) rfl heffect ?_
  rw [Dev.ctx_commit, Dev.count_commit, State.commit_strata]
  simp only [Dev.tile_commit]
  have hc := c.isLt
  split
  all_goals simp only [switch_event _ hc]
  all_goals exact ⟨hphase, hnone, hcount, hstrata, htile⟩

/-! Lateness and CONS. -/

theorem phase_late {s : State} {c : Fin 64} {w : Switch} {n : BitVec 64} (hswitch : (s.dev.ctx c).switch = some w) (htaken : w.taken = some n)
    (hlate : w.late = false) (hover : 2000 / (4 * s.dev.lode.tick) ≤ (s.dev.lode.count - n).toNat) :
    Quiet (.phaseSwitchLate c) s ((s.begin.setCtx c { s.dev.ctx c with switch := some { w with late := true } }).bump Reg.strataSwitchLate) := by
  refine quiet_of_run (x := xPhaseSwitchLate c.val) rfl ?_ rfl rfl
  have hswitch' : (s.begin.ctx c).switch = some w := hswitch
  have hover' : ¬ (s.begin.lode.count - n).toNat < 2000 / (4 * s.begin.lode.tick) := Nat.not_lt.mpr hover
  unfold xPhaseSwitchLate
  rw [hswitch']
  dsimp only
  rw [htaken]
  dsimp only
  rw [hlate, Bool.false_or, decide_eq_false hover', if_neg Bool.false_ne_true]
  rfl

/-- Settles O26: a swap is followed field by field through its tiles and routes; CONS is compared with PROD modulo 65,536. -/
theorem phasesSwitchAndSharesAreAcknowledged : Obligations.PhasesSwitchAndSharesAreAcknowledged := by
  refine ⟨fun s c w hswitch hready hvalid => shadow_loaded hswitch hready hvalid,
    fun s c w n hswitch htaken hready htiles hroutes => phase_swapped hswitch htaken hready htiles hroutes,
    fun s c w n hswitch htaken hlate hover => phase_late hswitch htaken hlate hover, fun s r c v hheard hmay => ⟨fun hbeyond => ?_, fun hwithin => ?_⟩⟩
  · exact quiet_of_heard (x := fun _ d => (d.shareCons c.val v, stOK)) (perm := fun d => d.mayWriteCtx r c.val) rfl hheard hmay
      (Prod.ext (if_pos hbeyond) rfl) rfl rfl
  · exact quiet_of_heard (x := fun _ d => (d.shareCons c.val v, stOK)) (perm := fun d => d.mayWriteCtx r c.val) rfl hheard hmay
      (Prod.ext (if_neg (Nat.not_lt.mpr hwithin)) rfl) rfl rfl

end Sys2Proof.Machine
end

section
/-! HBM accesses, the patrol scrub and repairs (R177, R192 to R199). -/

namespace Sys2Proof.Machine

open Sys2Proof.Claims (Ends Quiet Heard Holds SameMemBut)

/-! Accesses of a burst. -/

theorem burst_inMemory (off : BitVec 40) : inMemory (off.toNat / 32 * 32) 32 = true ∧ isHbm (off.toNat / 32 * 32) = true ∧
    off.toNat / 32 * 32 < 0x018000000000 := by
  have hoff := off.isLt
  refine ⟨?_, ?_, by omega⟩
  · rw [inMemory, Bool.or_eq_true, decide_eq_true_eq]
    exact .inl (by omega)
  · rw [isHbm, decide_eq_true_eq]
    omega

theorem hbm_read {s : State} {c : Fin 64} {off : BitVec 40} (hserves : s.dev.hbmServes (off.toNat / 32 * 32) = true)
    (hpresent : s.dev.lost (memDie (off.toNat / 32 * 32)) = false) (hmay : s.dev.admits c (off.toNat / 32 * 32) 32 = true)
    (hshared : s.dev.directory = []) (hzeroed : s.dev.zeroingIn (off.toNat / 32 * 32) 32 = false) (hgood : s.dev.badBursts = []) :
    Quiet (.hbmRead c off 0) s (s.begin.emit (.readData ((List.range 32).map (fun i => s.read (off.toNat / 32 * 32 + i))))) := by
  obtain ⟨hin, hhbm, hbelow⟩ := burst_inMemory off
  have hbytes : peekN s.mem s.begin (off.toNat / 32 * 32) 32 = (List.range 32).map (fun i => s.read (off.toNat / 32 * 32 + i)) := by
    rw [peekN_eq_map]
    exact List.map_congr_left fun i _ => peek_of_unwritten s rfl rfl _
  have hserves' : s.begin.hbmServes (off.toNat / 32 * 32) = true := hserves
  have hcheck : s.begin.accessCheck c (off.toNat / 32 * 32) 32 = (s.begin, none) := Dev.accessCheck_admitted hin hbelow hpresent hmay
  have hzeroed' : s.begin.zeroingIn (off.toNat / 32 * 32) 32 = false := hzeroed
  rw [← hbytes]
  refine quiet_of_run (x := xHbmRead c.val off.toNat 0) rfl ?_ rfl rfl
  simp [xHbmRead, hhbm, hserves', hcheck, Dev.cohBlocked_of_no_line (d := s.begin) hshared, hzeroed', Dev.burstRead_zero (d := s.begin) hgood,
    residualError_zero, overlay_zero]

/-- An access that R177 does not allow is counted at the die that holds the address, and recorded for the context. -/
theorem Dev.accessCheck_violation {d : Dev} {c a n : Nat} (hin : inMemory a n = true) (hbelow : a < 0x018000000000)
    (hlost : d.lost (memDie a) = false) (hmay : d.admits c a n = false) :
    d.accessCheck c a n = ((d.bump (Reg.memAccessViol (memDie a))).event [c] 0x0302 2 a c 0, some 0x0302) := by
  unfold Dev.accessCheck
  rw [if_neg (by simp; omega), if_neg (by simp [hin]), if_neg (by simp [hlost]), if_neg (by simp [hmay])]

theorem memAccessViol_ge (q : Nat) : 0x10000000 ≤ Reg.memAccessViol q := by
  unfold Reg.memAccessViol dieBlock indBlock
  omega

theorem hbm_read_refused {s : State} {c : Fin 64} {off : BitVec 40} {e : BitVec 304} (hserves : s.dev.hbmServes (off.toNat / 32 * 32) = true)
    (hpresent : s.dev.lost (memDie (off.toNat / 32 * 32)) = false) (hmay : s.dev.admits c (off.toNat / 32 * 32) 32 = false) :
    Ends (.hbmRead c off e) s (fun u => .error 0x0302 off.toNat ∈ u.dev.out ∧
      u.dev.count (Reg.memAccessViol (memDie (off.toNat / 32 * 32))) = s.dev.count (Reg.memAccessViol (memDie (off.toNat / 32 * 32))) + 1 ∧
      u.mem = s.mem ∧ u.dev.regs = s.dev.regs ∧ u.dev.tiles = s.dev.tiles) := by
  obtain ⟨hin, hhbm, hbelow⟩ := burst_inMemory off
  have hserves' : s.begin.hbmServes (off.toNat / 32 * 32) = true := hserves
  have hcheck := Dev.accessCheck_violation (d := s.begin) hin hbelow hpresent hmay
  obtain ⟨f, hf⟩ : ∃ f, f = (s.begin.bump (Reg.memAccessViol (memDie (off.toNat / 32 * 32)))).event [c.val] 0x0302 2 (off.toNat / 32 * 32) c.val 0 :=
    ⟨_, rfl⟩
  rw [← hf] at hcheck
  have hcount : f.count (Reg.memAccessViol (memDie (off.toNat / 32 * 32))) = s.dev.count (Reg.memAccessViol (memDie (off.toNat / 32 * 32))) + 1 := by
    rw [hf, Dev.count_event_of_le _ _ _ _ _ _ _ (memAccessViol_ge _) (by simp [c.isLt]), Dev.count_bump_same, Dev.count_begin]
  refine ends_of_run (x := xHbmRead c.val off.toNat e) rfl (d := f.emit (.error 0x0302 off.toNat)) ?_
    ⟨List.mem_append.mpr (.inr (List.mem_singleton.mpr rfl)), hcount, State.commit_mem s _ ?_ ?_, ?_, ?_⟩
  · simp only [xHbmRead, hhbm, hserves', hcheck]
    rfl
  all_goals simp [hf]

/-- A whole burst that is written clears what was known to be wrong with it (R194). -/
theorem Dev.store_burst (d : Dev) (m : Mem) {a : Nat} {bs : List Byte} (ha : isHbm a = true) (haligned : a % 32 = 0) (hlen : bs.length = 32) :
    ∃ l, d.store m a bs = ({ d.pokeN a bs with badBursts := l }, none) ∧ ¬ (a / 32) ∈ l := by
  have hplace : scrPlace a = none := by
    rw [isHbm, decide_eq_true_eq] at ha
    exact if_neg (by simp; omega)
  obtain ⟨bad, hbad⟩ : ∃ bad, bad = d.badBursts.filter (fun b => decide (32 * b < a + bs.length) && decide (a < 32 * b + 32)) := ⟨_, rfl⟩
  have honly : ∀ b ∈ bad, b = a / 32 := fun b hb => by
    rw [hbad, List.mem_filter, Bool.and_eq_true, decide_eq_true_eq, decide_eq_true_eq] at hb
    omega
  have hthis : (a / 32) ∈ d.badBursts → (a / 32) ∈ bad := fun hmem => by
    rw [hbad, List.mem_filter, Bool.and_eq_true, decide_eq_true_eq, decide_eq_true_eq]
    exact ⟨hmem, by omega, by omega⟩
  have hcovered : ∀ b ∈ bad, (decide (a ≤ 32 * b) && decide (32 * b + 32 ≤ a + bs.length)) = true := fun b hb => by
    rw [honly b hb, Bool.and_eq_true, decide_eq_true_eq, decide_eq_true_eq]
    omega
  unfold Dev.store
  rw [hplace]
  dsimp only
  rw [← hbad]
  cases hempty : bad.isEmpty with
  | true =>
    refine ⟨d.badBursts, if_pos rfl, fun hmem => ?_⟩
    rw [List.isEmpty_iff.mp hempty] at hthis
    exact List.not_mem_nil (hthis hmem)
  | false =>
    have hpart : bad.filter (fun b => !(decide (a ≤ 32 * b) && decide (32 * b + 32 ≤ a + bs.length))) = [] :=
      List.filter_eq_nil_iff.mpr fun b hb => by rw [hcovered b hb]; simp
    have hkept : goodBytes (bad.map (fun b => (32 * b, 32))) a bs.length (cellsAt a bs) = cellsAt a bs := by
      refine List.filter_eq_self.mpr fun x _ => ?_
      rw [Bool.not_eq_true', List.any_map, List.any_eq_false]
      intro b hb
      simp only [Function.comp_apply, hcovered b hb]
      simp
    rw [if_neg Bool.false_ne_true, hpart, hkept]
    refine ⟨d.badBursts.filter (fun b => !bad.contains b || [].contains b), rfl, fun hmem => ?_⟩
    rw [List.mem_filter] at hmem
    simp [hthis hmem.1] at hmem

theorem hbm_write {s : State} {c : Fin 64} {off : BitVec 40} {bs : List Byte} {e : BitVec 304} (haligned : off.toNat % 32 = 0)
    (hlen : bs.length = 32) (hserves : s.dev.hbmServes off.toNat = true) (hpresent : s.dev.lost (memDie off.toNat) = false)
    (hmay : s.dev.admits c off.toNat 32 = true) (hshared : s.dev.directory = []) (hzeroed : s.dev.zeroingIn off.toNat 32 = false) :
    Ends (.hbmWrite c off bs e) s (fun u => Holds u off.toNat bs ∧ SameMemBut s u off.toNat 32 ∧ ¬ (off.toNat / 32) ∈ u.dev.badBursts ∧
      u.dev.regs = s.dev.regs ∧ u.dev.counters = s.dev.counters ∧ u.dev.tiles = s.dev.tiles) := by
  have hstart : off.toNat / 32 * 32 = off.toNat := by omega
  obtain ⟨hin, hhbm, hbelow⟩ := burst_inMemory off
  rw [hstart] at hin hhbm hbelow
  have hserves' : s.begin.hbmServes off.toNat = true := hserves
  have hzeroed' : s.begin.zeroingIn off.toNat 32 = false := hzeroed
  have hcheck : s.begin.accessCheck c off.toNat 32 = (s.begin, none) := Dev.accessCheck_admitted hin hbelow hpresent hmay
  obtain ⟨l, hstore, hclean⟩ := s.begin.store_burst s.mem hhbm haligned hlen
  refine ends_of_run (x := xHbmWrite c.val off.toNat bs e) rfl (d := { s.begin.pokeN off.toNat bs with badBursts := l }) ?_ ?_
  · simp [xHbmWrite, hstart, hlen, haligned, hhbm, hserves', hcheck, Dev.cohBlocked_of_no_line (d := s.begin) hshared, hzeroed', hstore]
  · obtain ⟨hholds, hsame⟩ := holds_of_pokeN s (d := { s.begin.pokeN off.toNat bs with badBursts := l }) (a := off.toNat) (bs := bs) rfl rfl
    exact ⟨hholds, hlen ▸ hsame, hclean, by simp, by simp, by simp⟩

/-- A burst put back as it stands, and then part of it written. -/
theorem read_part_of_burst (s : State) {off : Nat} {bs : List Byte} (hwithin : off % 32 + bs.length ≤ 32) (y : Nat) :
    (s.commit ((s.begin.pokeN (off / 32 * 32) (peekN s.mem s.begin (off / 32 * 32) 32)).pokeN off bs)).read y =
      if off ≤ y ∧ y < off + bs.length then bs.getD (y - off) 0 else s.read y := by
  rw [State.read_commit, peek_pokeN, peek_pokeN, peek_of_unwritten s rfl rfl, peekN_length]
  by_cases hy : off ≤ y ∧ y < off + bs.length
  · rw [if_pos hy, if_pos hy]
  · rw [if_neg hy, if_neg hy, ite_eq_right_iff]
    intro hburst
    rw [peekN_eq_map, List.getD_eq_getElem _ _ (by simp; omega), List.getElem_map, List.getElem_range, peek_of_unwritten s rfl rfl,
      Nat.add_sub_cancel' hburst.1]

/-- A write of part of a burst, read without error, puts back what the rest of the burst holds (R194). -/
theorem hbm_write_part {s : State} {c : Fin 64} {off : BitVec 40} {bs : List Byte} (hsome : 0 < bs.length) (hpart : bs.length < 32)
    (hwithin : off.toNat % 32 + bs.length ≤ 32) (hserves : s.dev.hbmServes (off.toNat / 32 * 32) = true)
    (hpresent : s.dev.lost (memDie off.toNat) = false) (hmay : s.dev.admits c off.toNat bs.length = true) (hshared : s.dev.directory = [])
    (hzeroed : s.dev.zeroingIn (off.toNat / 32 * 32) 32 = false) (hgood : s.dev.badBursts = []) :
    Ends (.hbmWrite c off bs 0) s (fun u => Holds u off.toNat bs ∧ SameMemBut s u off.toNat bs.length ∧
      u.dev.regs = s.dev.regs ∧ u.dev.counters = s.dev.counters ∧ u.dev.tiles = s.dev.tiles) := by
  obtain ⟨-, hhbm, -⟩ := burst_inMemory off
  have hoff := off.isLt
  have hin : inMemory off.toNat bs.length = true := by
    rw [inMemory, Bool.or_eq_true, decide_eq_true_eq]
    exact .inl (by omega)
  have hserves' : s.begin.hbmServes (off.toNat / 32 * 32) = true := hserves
  have hzeroed' : s.begin.zeroingIn (off.toNat / 32 * 32) 32 = false := hzeroed
  have hcheck : s.begin.accessCheck c off.toNat bs.length = (s.begin, none) := Dev.accessCheck_admitted hin (by omega) hpresent hmay
  have hempty : ¬ bs.length = 0 := by omega
  have hfull : ¬ bs.length = 32 := by omega
  have hbeyond : ¬ 32 < off.toNat % 32 + bs.length := by omega
  refine ends_of_run (x := xHbmWrite c.val off.toNat bs 0) rfl
    (d := (s.begin.pokeN (off.toNat / 32 * 32) (peekN s.mem s.begin (off.toNat / 32 * 32) 32)).pokeN off.toNat bs) ?_ ?_
  · simp [xHbmWrite, hempty, hbeyond, hfull, hhbm, hserves', hcheck, Dev.cohBlocked_of_no_line (d := s.begin) hshared,
      hzeroed', Dev.burstRead_zero (d := s.begin) hgood, residualError_zero, overlay_zero]
  · have hread := read_part_of_burst s (off := off.toNat) hwithin
    refine ⟨fun i hi => ?_, fun y hy => ?_, by simp, by simp, by simp⟩
    · rw [hread, if_pos ⟨Nat.le_add_right _ _, Nat.add_lt_add_left hi _⟩, Nat.add_sub_cancel_left]
    · rw [hread, if_neg fun h => hy.elim (fun hlow => absurd h.1 (Nat.not_le.mpr hlow)) (fun hhigh => absurd h.2 (Nat.not_lt.mpr hhigh))]

/-- A patrol read without error only counts the passes (R198; log entry 26). -/
theorem hbm_scrub {s : State} {off : BitVec 40} (hserves : s.dev.hbmServes (off.toNat / 32 * 32) = true)
    (hpresent : s.dev.lost (off.toNat / 32 * 32 / 2 ^ 38) = false) (hon : s.dev.rb (Reg.memScrubCtrl (off.toNat / 32 * 32 / 2 ^ 38)) 31 = true)
    (hgood : s.dev.badBursts = []) :
    Quiet (.hbmScrub off 0) s (s.begin.bumpIf (lastOfPass (s.dev.placeOf (off.toNat / 32 * 32)))
      (Reg.memScrubPasses ((s.dev.placeOf (off.toNat / 32 * 32)).stack / 4) ((s.dev.placeOf (off.toNat / 32 * 32)).stack % 4))) := by
  obtain ⟨-, hhbm, -⟩ := burst_inMemory off
  have hserves' : s.begin.hbmServes (off.toNat / 32 * 32) = true := hserves
  have hpresent' : s.begin.lost (off.toNat / 32 * 32 / 2 ^ 38) = false := hpresent
  have hon' : s.begin.rb (Reg.memScrubCtrl (off.toNat / 32 * 32 / 2 ^ 38)) 31 = true := hon
  refine quiet_of_run (x := xHbmScrub off.toNat 0) rfl ?_ ?_ ?_
  · have hread : s.begin.burstRead (off.toNat / 32 * 32) 0 = (s.begin, .clean) := Dev.burstRead_zero (d := s.begin) hgood _
    unfold xHbmScrub
    dsimp only
    rw [hhbm, hserves', hpresent', hon', hread]
    rfl
  · simp
  · simp

/-! Repairs (R195 to R197). -/

/-- A row that is up for soft repair, with nothing of its page known to be bad. -/
theorem xSoftRepair_due {d : Dev} (m : Mem) {off : BitVec 40} {resource : Bool}
    (hdue : (d.stack (d.placeOf off.toNat).stack).due.contains (hbmRowUnit (d.placeOf off.toNat)) = true) (hgood : d.badBursts = []) :
    xSoftRepair off.toNat resource m d = (let st := { d.stack (d.placeOf off.toNat).stack with
        due := (d.stack (d.placeOf off.toNat).stack).due.filter (· != hbmRowUnit (d.placeOf off.toNat)) }
      if resource then ((d.setStack (d.placeOf off.toNat).stack { st with soft := st.soft ++ [hbmRowUnit (d.placeOf off.toNat)] }).bump
          (Reg.memPprSoft ((d.placeOf off.toNat).stack / 4) ((d.placeOf off.toNat).stack % 4))).event (d.pageCtx off.toNat) 0x0309 1 off.toNat 0 0
      else ((d.setStack (d.placeOf off.toNat).stack st).exhausted 3 (hbmRowUnit (d.placeOf off.toNat)) (d.pageCtx off.toNat) 0).pendRetire
        (off.toNat / 2 ^ 21)) := by
  unfold xSoftRepair
  rw [isHbm_offset off, Bool.not_true, if_neg Bool.false_ne_true]
  dsimp only
  rw [hdue, hgood, List.any_nil, Bool.and_false, Bool.not_true, Bool.or_false, if_neg Bool.false_ne_true]
  rfl

theorem row_repaired {s : State} {off : BitVec 40}
    (hdue : (s.dev.stack (s.dev.placeOf off.toNat).stack).due.contains (hbmRowUnit (s.dev.placeOf off.toNat)) = true) (hgood : s.dev.badBursts = []) :
    Ends (.softRepair off true) s (fun u => hbmRowUnit (s.dev.placeOf off.toNat) ∈ (u.dev.stack (s.dev.placeOf off.toNat).stack).soft ∧
      ¬ hbmRowUnit (s.dev.placeOf off.toNat) ∈ (u.dev.stack (s.dev.placeOf off.toNat).stack).due ∧
      u.dev.pages = s.dev.pages ∧ u.mem = s.mem ∧ u.dev.regs = s.dev.regs) := by
  refine ends_of_run (x := xSoftRepair off.toNat true) rfl (xSoftRepair_due (d := s.begin) s.mem hdue hgood) ?_
  have hplace : s.begin.placeOf off.toNat = s.dev.placeOf off.toNat := rfl
  rw [hplace]
  generalize s.dev.placeOf off.toNat = p
  dsimp only
  rw [if_pos rfl]
  refine ⟨?_, ?_, ?_, State.commit_mem s _ ?_ ?_, ?_⟩
  all_goals simp

theorem row_unrepaired {s : State} {off : BitVec 40}
    (hdue : (s.dev.stack (s.dev.placeOf off.toNat).stack).due.contains (hbmRowUnit (s.dev.placeOf off.toNat)) = true) (hgood : s.dev.badBursts = []) :
    Ends (.softRepair off false) s (fun u => u.dev.page (off.toNat / 2 ^ 21) = s.dev.page (off.toNat / 2 ^ 21) ||| 0x1000 ∧
      (u.dev.stack (s.dev.placeOf off.toNat).stack).soft = (s.dev.stack (s.dev.placeOf off.toNat).stack).soft ∧ u.mem = s.mem ∧
      u.dev.regs = s.dev.regs) := by
  refine ends_of_run (x := xSoftRepair off.toNat false) rfl (xSoftRepair_due (d := s.begin) s.mem hdue hgood) ?_
  have hplace : s.begin.placeOf off.toNat = s.dev.placeOf off.toNat := rfl
  rw [hplace]
  generalize s.dev.placeOf off.toNat = p
  dsimp only
  rw [if_neg Bool.false_ne_true]
  obtain ⟨e, he⟩ : ∃ e, e = (s.begin.setStack p.stack { s.begin.stack p.stack with
    due := (s.begin.stack p.stack).due.filter (· != hbmRowUnit p) }).exhausted 3 (hbmRowUnit p) (s.begin.pageCtx off.toNat) 0 := ⟨_, rfl⟩
  have hpages : e.pages = s.dev.pages := by simp [he, Dev.exhausted]
  have hpage : e.page (off.toNat / 2 ^ 21) = s.dev.page (off.toNat / 2 ^ 21) := by
    show mget _ e.pages _ = _
    rw [hpages]
    rfl
  rw [← he]
  refine ⟨?_, ?_, State.commit_mem s _ ?_ ?_, ?_⟩
  · show mget _ (mset e.pages _ _) _ = _
    rw [mget_mset_same, hpage]
  · show (e.stack p.stack).soft = _
    simp [he, Dev.exhausted]
  all_goals simp [he, Dev.exhausted, Dev.pendRetire]

/-! Retirement on request, and the end of zeroing (R197, R199). -/

/-- The device with the entry of one page replaced. -/
def Dev.withPage (d : Dev) (pg : Nat) (x : BitVec 16) : Dev := { d with pages := mset d.pages pg x }

theorem page_withPage (d : Dev) (pg : Nat) (x : BitVec 16) : (d.withPage pg x).page pg = x := mget_mset_same _ _ _ _

/-- The words that context 0 writes of a die that is there, where the write has a single effect on the device. -/
theorem page_retire_later {s : State} {r : Requester} {q : Fin 4} {v : BitVec 32} (hheard : Heard s r (Reg.memRetireForce q) v)
    (hctx0 : isCtx0 r = true) (hpresent : s.dev.lost q = false) (howned : pageState (s.dev.page (q * 131072 + fb v 16 0)) = 1) :
    Ends (.memRetireForceWrite r q v) s (fun u => u.dev.page (q * 131072 + fb v 16 0) = s.dev.page (q * 131072 + fb v 16 0) ||| 0x1000 ∧
      u.mem = s.mem ∧ u.dev.counters = s.dev.counters) := by
  have hforce : s.begin.retireForce q.val v = (s.begin.putReg (Reg.memRetireForce q.val) v).withPage (q.val * 131072 + fb v 16 0)
      (s.dev.page (q.val * 131072 + fb v 16 0) ||| 0x1000) := by
    have howned' : pageState ((s.begin.putReg (Reg.memRetireForce q.val) v).page (q.val * 131072 + fb v 16 0)) = 1 := howned
    unfold Dev.retireForce
    dsimp only
    rw [howned']
    rfl
  have hquiet := quiet_of_heard (i := .memRetireForceWrite r q v) (x := fun _ d => d.dieWord q.val (fun d => d.retireForce q.val v))
    (perm := fun _ => isCtx0 r) rfl hheard hctx0 ((dieWord_of_present (d := s.begin) hpresent _).trans (Prod.ext hforce rfl)) rfl rfl
  exact ends_of_quiet hquiet ⟨page_withPage _ _ _, rfl, rfl⟩

theorem retirePage_room {d : Dev} {q pg : Nat} (hq : pg / 131072 = q) (hroom : d.retiredIn q < 4096) :
    d.retirePage pg = (d.withPage pg 0xC000).event [] 0x030A 1 (pg * 2 ^ 21) 0 0 := by
  unfold Dev.retirePage
  dsimp only
  rw [hq, if_neg (Nat.not_le.mpr hroom)]
  rfl

theorem fb_lt_two_pow {w : Nat} (v : BitVec w) (hi lo : Nat) : fb v hi lo < 2 ^ (hi + 1 - lo) := Nat.mod_lt _ (Nat.two_pow_pos _)

theorem page_retired {s : State} {r : Requester} {q : Fin 4} {v : BitVec 32} (hheard : Heard s r (Reg.memRetireForce q) v)
    (hctx0 : isCtx0 r = true) (hpresent : s.dev.lost q = false) (hfree : pageState (s.dev.page (q * 131072 + fb v 16 0)) = 0)
    (hidle : pageZeroing (s.dev.page (q * 131072 + fb v 16 0)) = false) (hroom : s.dev.retiredIn q < 4096) :
    Ends (.memRetireForceWrite r q v) s (fun u => u.dev.page (q * 131072 + fb v 16 0) = 0xC000 ∧ u.mem = s.mem) := by
  have hpg : (q.val * 131072 + fb v 16 0) / 131072 = q.val := by
    have := fb_lt_two_pow v 16 0
    omega
  obtain ⟨e, he⟩ : ∃ e, e = s.begin.putReg (Reg.memRetireForce q.val) v := ⟨_, rfl⟩
  have hfree' : pageState (e.page (q.val * 131072 + fb v 16 0)) = 0 := he ▸ hfree
  have hidle' : pageZeroing (e.page (q.val * 131072 + fb v 16 0)) = false := he ▸ hidle
  have hforce : s.begin.retireForce q.val v = (e.withPage (q.val * 131072 + fb v 16 0) 0xC000).event [] 0x030A 1
      ((q.val * 131072 + fb v 16 0) * 2 ^ 21) 0 0 := by
    rw [← retirePage_room hpg (show e.retiredIn q.val < 4096 from he ▸ hroom)]
    unfold Dev.retireForce
    dsimp only
    rw [← he, hfree', hidle']
    rfl
  obtain ⟨f, hf⟩ : ∃ f, f = (e.withPage (q.val * 131072 + fb v 16 0) 0xC000).event [] 0x030A 1 ((q.val * 131072 + fb v 16 0) * 2 ^ 21) 0 0 := ⟨_, rfl⟩
  have hpages : f.pages = (e.withPage (q.val * 131072 + fb v 16 0) 0xC000).pages := by rw [hf]; simp
  have hstores : f.stores = e.stores := by rw [hf]; simp [Dev.withPage]
  have hwipes : f.wipes = e.wipes := by rw [hf]; simp [Dev.withPage]
  rw [← hf] at hforce
  refine ends_of_heard (i := .memRetireForceWrite r q v) (x := fun _ d => d.dieWord q.val (fun d => d.retireForce q.val v))
    (perm := fun _ => isCtx0 r) rfl hheard hctx0 ((dieWord_of_present (d := s.begin) hpresent _).trans (Prod.ext hforce rfl)) ⟨?_, ?_⟩
  · show mget _ f.pages _ = _
    rw [hpages]
    exact page_withPage _ _ _
  · exact State.commit_mem s _ (hstores.trans (by rw [he]; rfl)) (hwipes.trans (by rw [he]; rfl))

theorem pageZeroing_cleared (e : BitVec 16) : pageZeroing (e &&& ~~~(0x2000 : BitVec 16)) = false := by
  simp [pageZeroing]

theorem pageState_cleared (e : BitVec 16) : pageState (e &&& ~~~(0x2000 : BitVec 16)) = pageState e := by
  refine Nat.eq_of_testBit_eq fun i => ?_
  simp only [pageState, fb, fld, Nat.testBit_mod_two_pow, Nat.testBit_shiftRight, BitVec.testBit_toNat, BitVec.getLsbD_and]
  rcases i with _ | _ | i
  · simp
  · simp
  · have hbeyond : ¬ i + 1 + 1 < 15 + 1 - 14 := by omega
    rw [decide_eq_false hbeyond, Bool.false_and, Bool.false_and]

/-- The device with a page's bytes zeroed, and its entry no longer ZEROING. -/
def Dev.zeroed (d : Dev) (pg : Nat) : Dev :=
  { (d.wipe (pg * 2 ^ 21) (2 ^ 21)).bumpN (Reg.memZeroBytes (pg / 131072)) (2 ^ 21) with
    badBursts := d.badBursts.filter (fun b => b / 65536 != pg), pages := mset d.pages pg (d.page pg &&& ~~~(0x2000 : BitVec 16)) }

theorem xPageZeroed_eq {d : Dev} (m : Mem) {pg : Nat} (hzeroing : pageZeroing (d.page pg) = true) (hstays : (d.page pg).getLsbD 12 = false) :
    xPageZeroed pg m d = d.zeroed pg := by
  unfold xPageZeroed
  dsimp only
  rw [hzeroing, hstays, Bool.and_false, Bool.not_true, if_neg Bool.false_ne_true, if_neg Bool.false_ne_true]
  rfl

/-- A command that only zeroes one range. -/
theorem read_commit_of_wipe (s : State) {d : Dev} {a n : Nat} (hstores : d.stores = []) (hwipes : d.wipes = [(a, n)]) (y : Nat) :
    (s.commit d).read y = if a ≤ y ∧ y < a + n then 0 else s.read y := by
  rw [State.read_commit, peek, hstores, hwipes, State.read]
  simp only [storedByte, Option.getD_none, inRanges, List.any_cons, List.any_nil, Bool.or_false, Bool.and_eq_true, decide_eq_true_eq]

theorem zeroed_wipes {d : Dev} (hstores : d.stores = []) (hwipes : d.wipes = []) (pg : Nat) :
    (d.zeroed pg).stores = [] ∧ (d.zeroed pg).wipes = [(pg * 2 ^ 21, 2 ^ 21)] := by
  constructor
  · show d.stores.filter _ = []
    rw [hstores, List.filter_nil]
  · show (pg * 2 ^ 21, 2 ^ 21) :: d.wipes = _
    rw [hwipes]

theorem page_zeroed {s : State} {pg : Fin 524288} (hzeroing : pageZeroing (s.dev.page pg) = true) (hstays : (s.dev.page pg).getLsbD 12 = false) :
    Ends (.pageZeroed pg) s (fun u => (∀ a : Nat, pg * 2 ^ 21 ≤ a → a < (pg + 1) * 2 ^ 21 → u.read a = 0) ∧ SameMemBut s u (pg * 2 ^ 21) (2 ^ 21) ∧
      pageZeroing (u.dev.page pg) = false ∧ pageState (u.dev.page pg) = pageState (s.dev.page pg) ∧
      (∀ b, b ∈ u.dev.badBursts → b / 65536 ≠ pg.val) ∧
      u.dev.count (Reg.memZeroBytes (pg / 131072)) = s.dev.count (Reg.memZeroBytes (pg / 131072)) + 2097152 ∧ u.dev.regs = s.dev.regs) := by
  have hpage : (s.begin.zeroed pg).page pg = s.dev.page pg &&& ~~~(0x2000 : BitVec 16) := mget_mset_same _ _ _ _
  have hcount : (s.begin.zeroed pg).count (Reg.memZeroBytes (pg / 131072)) = s.dev.count (Reg.memZeroBytes (pg / 131072)) + 2097152 := by
    have hwiped : (s.begin.wipe (pg * 2 ^ 21) (2 ^ 21)).count (Reg.memZeroBytes (pg / 131072)) = s.dev.count (Reg.memZeroBytes (pg / 131072)) := by
      simp
    exact (Dev.count_bumpN _ _ _ _).trans ((if_pos rfl).trans (by rw [hwiped]; rfl))
  obtain ⟨hstores, hwipes⟩ := zeroed_wipes (d := s.begin) rfl rfl pg
  have hread := read_commit_of_wipe s hstores hwipes
  refine ends_of_run (x := xPageZeroed pg.val) rfl (xPageZeroed_eq (d := s.begin) s.mem hzeroing hstays)
    ⟨fun a hlow hhigh => ?_, fun a ha => ?_, ?_, ?_, fun b hb => ?_, hcount, rfl⟩
  · rw [hread, if_pos ⟨hlow, by omega⟩]
  · rw [hread, if_neg (by omega)]
  · exact (congrArg pageZeroing hpage).trans (pageZeroing_cleared _)
  · exact (congrArg pageState hpage).trans (pageState_cleared _)
  · exact by simpa using (List.mem_filter.mp hb).2

/-- Settles O27, a lemma for each access and each repair. -/
theorem hbmAccessesAndRepairs : Obligations.HbmAccessesAndRepairs :=
  ⟨fun _ _ _ hserves hpresent hmay hshared hzeroed hgood => hbm_read hserves hpresent hmay hshared hzeroed hgood,
    fun _ _ _ _ hserves hpresent hmay => hbm_read_refused hserves hpresent hmay,
    fun _ _ _ _ _ haligned hlen hserves hpresent hmay hshared hzeroed => hbm_write haligned hlen hserves hpresent hmay hshared hzeroed,
    fun _ _ _ _ hsome hpart hwithin hserves hpresent hmay hshared hzeroed hgood =>
      hbm_write_part hsome hpart hwithin hserves hpresent hmay hshared hzeroed hgood,
    fun _ _ hserves hpresent hon hgood => hbm_scrub hserves hpresent hon hgood,
    fun _ _ hdue hgood => row_repaired hdue hgood, fun _ _ hdue hgood => row_unrepaired hdue hgood,
    fun _ _ _ _ hheard hctx0 hpresent => ⟨fun howned => page_retire_later hheard hctx0 hpresent howned,
      fun hfree hidle hroom => page_retired hheard hctx0 hpresent hfree hidle hroom⟩,
    fun _ _ hzeroing hstays => page_zeroed hzeroing hstays⟩

end Sys2Proof.Machine
end

section
/-! The time base (R246 to R254). -/

namespace Sys2Proof.Machine

open Sys2Proof.Claims (Ends Quiet Heard)

/-! Counters at an edge. -/

/-- A counter that no event of the package touches. -/
def FreeOfEvents (k : Nat) : Prop := Reg.devEvtLost ≠ k ∧ Reg.ctxEvtLost 64 ≠ k

theorem Dev.count_event_package (d : Dev) (code sev d0 d1 unit : Nat) {k : Nat} (hk : FreeOfEvents k) :
    (d.event [] code sev d0 d1 unit).count k = d.count k :=
  d.count_event [] code sev d0 d1 unit hk.1 (fun _ h => absurd h List.not_mem_nil) hk.2

theorem toHoldover_count (d : Dev) {k : Nat} (hk : FreeOfEvents k) (hhold : Reg.lodeHoldovers ≠ k) : d.toHoldover.count k = d.count k := by
  unfold Dev.toHoldover
  extract_lets former d'
  rw [Dev.count_event_package _ _ _ _ _ _ hk, Dev.count_bump_other _ hhold]
  rfl

/-- The lode as an edge leaves it before anything is lost. -/
def Dev.ticked (d : Dev) : Dev :=
  { d with lode := { d.lode with
      silent := d.lode.silent + 1, invalid := d.lode.invalid - 1, tick := d.rf Reg.lodeCtrl 23 12,
      parentSilent := if d.lode.hasParent then d.lode.parentSilent + 1 else 0,
      lockedTicks := if d.lode.state == .locked then d.lode.lockedTicks + 1 else 0 } }

/-- A source that has given up its claim is in HOLDOVER. -/
def Dev.claimed (d : Dev) : Dev := if d.lode.state == .source && !d.rb Reg.lodeCtrl 31 then d.toHoldover else d

/-- An edge touches the ports and the time base's claim. -/
theorem edge_frame {β : Type} (g : Dev → β) (hports : ∀ (d : Dev) l, g { d with ports := l } = g d) (d : Dev) :
    g d.edge = g d.ticked.claimed := by
  unfold Dev.edge
  extract_lets l l' d' d'' d'''
  have h : g d''' = g d'' := hports d'' _
  refine Eq.trans ?_ h
  split
  · split
    · exact hports d''' _
    · rfl
  · rfl

theorem claimed_count (d : Dev) {k : Nat} (hk : FreeOfEvents k) (hhold : Reg.lodeHoldovers ≠ k) : d.claimed.count k = d.count k := by
  unfold Dev.claimed
  split
  · exact toHoldover_count d hk hhold
  · rfl

theorem edge_count (d : Dev) {k : Nat} (hk : FreeOfEvents k) (hhold : Reg.lodeHoldovers ≠ k) : d.edge.count k = d.count k :=
  (edge_frame (fun e => e.count k) (fun _ _ => rfl) d).trans (claimed_count d.ticked hk hhold)

theorem claimed_tick (d : Dev) : d.claimed.lode.tick = d.lode.tick := by
  unfold Dev.claimed Dev.toHoldover
  split
  · simp [Lode.leave]
  · rfl

theorem claimed_rebase {d : Dev} (h : d.lode.rebase = none) : d.claimed.lode.rebase = none := by
  unfold Dev.claimed Dev.toHoldover
  split
  · simp [Lode.leave]
  · exact h

theorem edge_tick (d : Dev) : d.edge.lode.tick = d.rf Reg.lodeCtrl 23 12 :=
  (edge_frame (fun e => e.lode.tick) (fun _ _ => rfl) d).trans (claimed_tick d.ticked)

theorem edge_rebase {d : Dev} (h : d.lode.rebase = none) : d.edge.lode.rebase = none :=
  (edge_frame (fun e => e.lode.rebase) (fun _ _ => rfl) d).trans (claimed_rebase (d := d.ticked) h)

theorem Dev.event_lode (d : Dev) (cs : List Nat) (code sev d0 d1 unit : Nat) : (d.event cs code sev d0 d1 unit).lode = d.lode := by simp

theorem startDone_lode (d : Dev) : d.startDone.lode = d.lode := by
  unfold Dev.startDone
  extract_lets late
  split
  · exact Dev.event_lode _ _ _ _ _ _ _
  · rfl

theorem startDone_count (d : Dev) {k : Nat} (hk : FreeOfEvents k) : d.startDone.count k = d.count k := by
  unfold Dev.startDone
  extract_lets late
  split
  · exact Dev.count_event_package _ _ _ _ _ _ hk
  · rfl

/-- What the sansTick of an edge still says of the units it leaves alone. -/
theorem sansTick_units {d e : Dev} (h : d.sansTick = e.sansTick) :
    d.tiles = e.tiles ∧ d.modules = e.modules ∧ d.pages = e.pages ∧ d.regs = e.regs ∧ d.lode.phase = e.lode.phase := by
  simp only [Dev.sansTick, Dev.mk.injEq, Lode.mk.injEq] at h
  simp only [h, and_self]

/-- No context has a pipeline that runs or a log that is known. -/
def Dev.ctxsIdle (d : Dev) : Prop := ∀ p, p ∈ d.ctxs → p.2.pipe.state ≠ .running ∧ p.2.log.known = false

/-- The rest of an edge once its slots have been taken. -/
theorem edge_rest {d : Dev} (m : Mem) (h : d.ctxsIdle) : ((d.edge.pipeTick m).logTick m).startDone = d.edge.startDone := by
  obtain ⟨-, hctxs, -⟩ := sansTick_fields (edge_sansTick d)
  have hidle : d.edge.ctxsIdle := by
    unfold Dev.ctxsIdle
    rw [hctxs]
    exact h
  rw [pipeTick_of_none_running _ m (fun p hp => (hidle p hp).1), logTick_of_none_known _ m (fun p hp => (hidle p hp).2)]

/-- The two parts of an edge that stand after the slots. -/
def Dev.edgeEnd (d : Dev) : Dev := d.edge.startDone

theorem edgeEnd_sansTick (d : Dev) : d.edgeEnd.sansTick = d.sansTick := (startDone_sansTick _).trans (edge_sansTick d)

theorem edgeEnd_tick (d : Dev) : d.edgeEnd.lode.tick = d.rf Reg.lodeCtrl 23 12 := by
  rw [Dev.edgeEnd, startDone_lode, edge_tick]

theorem edgeEnd_rebase {d : Dev} (h : d.lode.rebase = none) : d.edgeEnd.lode.rebase = none := by
  rw [Dev.edgeEnd, startDone_lode, edge_rebase h]

theorem edgeEnd_count (d : Dev) {k : Nat} (hk : FreeOfEvents k) (hhold : Reg.lodeHoldovers ≠ k) : d.edgeEnd.count k = d.count k :=
  (startDone_count _ hk).trans (edge_count d hk hhold)

/-- An edge that is no re-base. -/
theorem tickEdge_plain {d : Dev} (m : Mem) (hup : d.bringUp ≠ .off) (hrebase : d.lode.rebase = none)
    (hidle : (d.nextCount.takeCairns m d.now d.nextCount.now false).ctxsIdle) :
    d.tickEdge m = (d.nextCount.takeCairns m d.now d.nextCount.now false).edgeEnd := by
  have hoff : ¬ (d.bringUp == .off) = true := by simpa using hup
  rw [Dev.tickEdge, if_neg hoff, hrebase]
  exact edge_rest m hidle

theorem takeCairns_of_none {d : Dev} (m : Mem) (a b : Nat) (rebase : Bool) (h : d.cairns = []) : d.takeCairns m a b rebase = d :=
  takeCairns_of_none_armed d m a b rebase (by simp [h])

theorem tick_plain {s : State} (hup : s.dev.bringUp ≠ .off) (hrebase : s.dev.lode.rebase = none) (hcairns : s.dev.cairns = [])
    (hidle : ∀ p, p ∈ s.dev.ctxs → p.2.pipe.state ≠ .running ∧ p.2.log.known = false) :
    Ends .lodestoneTick s (fun u => u.dev.lode.count = s.dev.lode.count + 1 ∧ u.dev.lode.phase = 0 ∧ u.dev.lode.tick = s.dev.rf Reg.lodeCtrl 23 12 ∧
      u.mem = s.mem ∧ u.dev.tiles = s.dev.tiles ∧ u.dev.modules = s.dev.modules ∧ u.dev.pages = s.dev.pages) := by
  have htake : s.begin.nextCount.takeCairns s.mem s.begin.now s.begin.nextCount.now false = s.begin.nextCount :=
    takeCairns_of_none _ _ _ _ hcairns
  have hx : xLodestoneTick s.mem s.begin = s.begin.nextCount.edgeEnd := by
    rw [xLodestoneTick, tickEdge_plain (d := s.begin) s.mem hup hrebase (by rw [htake]; exact hidle), htake]
  have hsans := edgeEnd_sansTick s.begin.nextCount
  obtain ⟨-, -, hcount, hstores, hwipes⟩ := sansTick_fields hsans
  obtain ⟨htiles, hmodules, hpages, -, hphase⟩ := sansTick_units hsans
  exact ends_of_run rfl hx ⟨hcount, hphase, edgeEnd_tick _, State.commit_mem s _ hstores hwipes, htiles, hmodules, hpages⟩

/-! A re-base (R254). -/

/-- The count and the phase are the parent's. -/
def Dev.rebased (d : Dev) (n : BitVec 64) (ph : BitVec 18) : Dev :=
  (({ d with lode := { d.lode with count := n, phase := ph, rebase := none, rebased := d.lode.rebased || decide (d.lode.exchanges < 8) } }).bump
    Reg.lodeRebases).event [] 0x0601 1 n.toNat 0 0

theorem rebased_fields (d : Dev) (n : BitVec 64) (ph : BitVec 18) : (d.rebased n ph).cairns = d.cairns ∧ (d.rebased n ph).ctxs = d.ctxs ∧
    (d.rebased n ph).lode.count = n ∧ (d.rebased n ph).lode.phase = ph ∧ (d.rebased n ph).lode.rebase = none ∧
    (d.rebased n ph).stores = d.stores ∧ (d.rebased n ph).wipes = d.wipes ∧ (d.rebased n ph).tiles = d.tiles ∧
    (d.rebased n ph).count Reg.lodeRebases = d.count Reg.lodeRebases + 1 := by
  refine ⟨by simp [Dev.rebased], ctxs_event_package _ _ _ _ _ _, by simp [Dev.rebased], by simp [Dev.rebased], by simp [Dev.rebased],
    by simp [Dev.rebased], by simp [Dev.rebased], by simp [Dev.rebased], ?_⟩
  rw [Dev.rebased, Dev.count_event_package _ _ _ _ _ _ (by unfold FreeOfEvents; decide), Dev.bump, Dev.count_bumpN, if_pos rfl]
  rfl

theorem rebaseNow_of_no_cairns {d : Dev} (m : Mem) (n : BitVec 64) (ph : BitVec 18) (h : d.cairns = []) : d.rebaseNow m n ph = d.rebased n ph := by
  have hcairns : (d.rebased n ph).cairns = [] := (rebased_fields d n ph).1.trans h
  unfold Dev.rebaseNow
  extract_lets a l d'
  change (if n.toNat < a then (d.rebased n ph).cairnsResetAll else (d.rebased n ph).takeCairns m a n.toNat true) = d.rebased n ph
  split
  · rw [Dev.cairnsResetAll, hcairns]; rfl
  · exact takeCairns_of_none m _ _ _ hcairns

theorem tick_rebase {s : State} {n : BitVec 64} {ph : BitVec 18} (hup : s.dev.bringUp ≠ .off) (hrebase : s.dev.lode.rebase = some (n, ph))
    (hcairns : s.dev.cairns = []) (hidle : ∀ p, p ∈ s.dev.ctxs → p.2.pipe.state ≠ .running ∧ p.2.log.known = false) :
    Ends .lodeRebase s (fun u => u.dev.lode.count = n ∧ u.dev.lode.phase = ph ∧ u.dev.lode.rebase = none ∧
      u.dev.count Reg.lodeRebases = s.dev.count Reg.lodeRebases + 1 ∧ u.mem = s.mem ∧ u.dev.tiles = s.dev.tiles) := by
  obtain ⟨-, hctxs, hcount, hphase, hnone, hst, hwi, hti, hrebases⟩ := rebased_fields s.begin n ph
  have hx : xLodeRebase s.mem s.begin = (s.begin.rebased n ph).edgeEnd := by
    have hsome : s.begin.lode.rebase = some (n, ph) := hrebase
    have hoff : ¬ (s.begin.bringUp == .off) = true := by simpa using hup
    rw [xLodeRebase, hsome, Option.isSome_some, if_pos rfl, Dev.tickEdge, if_neg hoff, hsome]
    change (((s.begin.rebaseNow s.mem n ph).edge.pipeTick s.mem).logTick s.mem).startDone = _
    rw [rebaseNow_of_no_cairns (d := s.begin) s.mem n ph hcairns]
    exact edge_rest s.mem (by unfold Dev.ctxsIdle; rw [hctxs]; exact hidle)
  have hsans := edgeEnd_sansTick (s.begin.rebased n ph)
  obtain ⟨-, -, hcount', hstores, hwipes⟩ := sansTick_fields hsans
  obtain ⟨htiles, -, -, -, hphase'⟩ := sansTick_units hsans
  have hrebased : (s.begin.rebased n ph).edgeEnd.lode.rebase = none := edgeEnd_rebase hnone
  have hcounter : (s.begin.rebased n ph).edgeEnd.count Reg.lodeRebases = s.dev.count Reg.lodeRebases + 1 := by
    rw [edgeEnd_count _ (by unfold FreeOfEvents; decide) (by decide), hrebases, Dev.count_begin]
  exact ends_of_run rfl hx ⟨hcount'.trans hcount, hphase'.trans hphase, hrebased, hcounter,
    State.commit_mem s _ (hstores.trans hst) (hwipes.trans hwi), htiles.trans hti⟩

/-! The source and the parent (R249 to R251). -/

theorem source_claimed {s : State} (hclaim : s.dev.rb Reg.lodeCtrl 31 = true) (hsilent : s.dev.rf Reg.lodeCtrl 11 0 ≤ s.dev.lode.silent)
    (hstate : s.dev.lode.state = .freeRun ∨ s.dev.lode.state = .holdover) :
    Ends .sourceClaim s (fun u => u.dev.lode.state = .source ∧ u.dev.lode.src.toNat = s.dev.node ∧ u.dev.lode.hops = 0 ∧
      u.dev.lode.upPort = none ∧ u.dev.lode.count = s.dev.lode.count ∧ u.mem = s.mem ∧ u.dev.regs = s.dev.regs ∧ u.dev.ports = s.dev.ports ∧
      u.dev.counters = s.dev.counters) := by
  have hx : xSourceClaim s.mem s.begin
      = { s.begin with lode := { s.begin.lode.leave .source with src := BitVec.ofNat 23 s.begin.node } } := by
    refine if_pos ?_
    have hc : s.begin.rb Reg.lodeCtrl 31 = true := hclaim
    have hsi : s.begin.rf Reg.lodeCtrl 11 0 ≤ s.begin.lode.silent := hsilent
    have hst : s.begin.lode.state = .freeRun ∨ s.begin.lode.state = .holdover := hstate
    simp only [hc, hsi, Bool.true_and, decide_true, Bool.or_eq_true, beq_iff_eq]
    exact hst
  have hnode : s.dev.node < 2 ^ 23 := fb_lt_two_pow _ _ _
  exact ends_of_run rfl hx ⟨rfl, (BitVec.toNat_ofNat _ _).trans (Nat.mod_eq_of_lt hnode), rfl, rfl, rfl, State.commit_mem s _ rfl rfl, rfl, rfl, rfl⟩

theorem parent_lost {s : State} (hsilent : 8 ≤ s.dev.lode.parentSilent) (hparent : s.dev.lode.hasParent = true) :
    Ends .parentSilenceTimeout s (fun u => u.dev.lode.state = .holdover ∧ u.dev.lode.upPort = none ∧ u.dev.lode.invalid = 8 ∧
      u.dev.lode.count = s.dev.lode.count ∧ u.dev.count Reg.lodeHoldovers = s.dev.count Reg.lodeHoldovers + 1 ∧ u.mem = s.mem ∧
      u.dev.regs = s.dev.regs) := by
  have hx : xParentSilenceTimeout s.mem s.begin = s.begin.toHoldover := by
    have hs : 8 ≤ s.begin.lode.parentSilent := hsilent
    have hp : s.begin.lode.hasParent = true := hparent
    rw [xParentSilenceTimeout, if_pos hs, Dev.loseParent, if_pos hp]
  have hlode : s.begin.toHoldover.lode = { s.begin.lode.leave .holdover with invalid := 8 } := by simp [Dev.toHoldover]
  have hcount : s.begin.toHoldover.count Reg.lodeHoldovers = s.dev.count Reg.lodeHoldovers + 1 := by
    unfold Dev.toHoldover
    extract_lets former d'
    rw [Dev.count_event_package _ _ _ _ _ _ (by unfold FreeOfEvents; decide), Dev.bump, Dev.count_bumpN, if_pos rfl]
    rfl
  have hsans := toHoldover_sansTick s.begin
  obtain ⟨-, -, hc, hstores, hwipes⟩ := sansTick_fields hsans
  obtain ⟨-, -, -, hregs, -⟩ := sansTick_units hsans
  refine ends_of_run rfl hx ⟨?_, ?_, ?_, hc, hcount, State.commit_mem s _ hstores hwipes, hregs⟩
  · exact congrArg Lode.state hlode
  · exact congrArg Lode.upPort hlode
  · exact congrArg Lode.invalid hlode

/-! A parent is taken (R250, R254). -/

/-- What taking port `p` as the parent comes to: ACQUIRE, or CONFLICT; each re-base ahead and the free value aside. -/
theorem acquire_cases (d : Dev) (p : Nat) :
    ((d.acquire p).lode.state = .acquire ∧ (d.acquire p).lode.upPort = some p ∧ (d.acquire p).lode.src = (d.port p).heardSrc ∧
        (d.acquire p).lode.hops = (d.port p).heardHops.toNat + 1 ∨ (d.acquire p).lode.state = .conflict) ∧
      (d.acquire p).count Reg.lodeParentChanges = d.count Reg.lodeParentChanges + 1 ∧ (d.acquire p).regs = d.regs ∧
      (d.acquire p).stores = d.stores ∧ (d.acquire p).wipes = d.wipes := by
  have hbump : ∀ e : Dev, e.count Reg.lodeParentChanges = d.count Reg.lodeParentChanges →
      (e.bump Reg.lodeParentChanges).count Reg.lodeParentChanges = d.count Reg.lodeParentChanges + 1 := fun e he => by
    rw [Dev.bump, Dev.count_bumpN, if_pos rfl, he]; rfl
  unfold Dev.acquire Dev.stamp Dev.toConflict
  dsimp only
  split
  · exact ⟨.inl ⟨rfl, rfl, rfl, rfl⟩, hbump _ rfl, rfl, rfl, rfl⟩
  · split
    · exact ⟨.inl ⟨rfl, rfl, rfl, rfl⟩, hbump _ rfl, rfl, rfl, rfl⟩
    · refine ⟨.inr (by simp [Lode.leave]), ?_, by simp [Dev.takeFree], by simp [Dev.takeFree], by simp [Dev.takeFree]⟩
      rw [Dev.count_event_package _ _ _ _ _ _ (by unfold FreeOfEvents; decide)]
      exact hbump _ rfl

theorem holdover_ended {s : State} {p : Nat} (hstate : s.dev.lode.state = .holdover) (hinvalid : s.dev.lode.invalid = 0)
    (hbest : s.dev.bestParent = some p) :
    Ends .holdoverInvalidEnd s (fun u => (u.dev.lode.state = .acquire ∧ u.dev.lode.upPort = some p ∧ u.dev.lode.src = (s.dev.port p).heardSrc ∧
        u.dev.lode.hops = (s.dev.port p).heardHops.toNat + 1 ∨ u.dev.lode.state = .conflict) ∧
      u.dev.count Reg.lodeParentChanges = s.dev.count Reg.lodeParentChanges + 1 ∧ u.mem = s.mem ∧ u.dev.regs = s.dev.regs) := by
  have hx : xHoldoverInvalidEnd s.mem s.begin = s.begin.acquire p := by
    have hst : s.begin.lode.state = .holdover := hstate
    have hin : s.begin.lode.invalid = 0 := hinvalid
    have hb : s.begin.bestParent = some p := hbest
    rw [xHoldoverInvalidEnd, Dev.seekParent, hst, hin, hb]
    rfl
  obtain ⟨hcases, hcount, hregs, hstores, hwipes⟩ := acquire_cases s.begin p
  exact ends_of_run rfl hx ⟨hcases, hcount, State.commit_mem s _ hstores hwipes, hregs⟩

/-! The control register (R247, R249, R254). -/

theorem lodeWord_eq (d : Dev) (cmd : Nat) : (lodeWord d cmd).toNat = setFld (d.reg Reg.lodeCtrl).toNat 30 29 cmd := by
  rw [lodeWord, BitVec.toNat_ofNat, Nat.mod_eq_of_lt (setFld_lt _ 30 29 cmd 32 (d.reg Reg.lodeCtrl).isLt (by decide) (by decide))]

theorem fb_lodeWord_cmd (d : Dev) {cmd : Nat} (hcmd : cmd < 4) : fb (lodeWord d cmd) 30 29 = cmd := by
  rw [lodeWord, fb_ofNat_setFld 32 _ 30 29 cmd (d.reg Reg.lodeCtrl).isLt (by decide) (by decide)]
  exact Nat.mod_eq_of_lt hcmd

theorem fb_lodeWord_below (d : Dev) (cmd : Nat) {hi lo : Nat} (h : hi < 29) : fb (lodeWord d cmd) hi lo = d.rf Reg.lodeCtrl hi lo := by
  rw [fb, lodeWord_eq, fld_setFld_below _ 30 29 cmd hi lo (by omega)]
  rfl

/-- TICK and CLAIM_WAIT as R247 and R249 ask. -/
structure LodeFields (v : BitVec 32) : Prop where
  tick : fb v 23 12 % 64 = 0
  some_tick : fb v 23 12 ≠ 0
  wait : 8 ≤ fb v 11 0

/-- What CMD of an accepted word does. -/
def Dev.lodeCommand (d : Dev) (cmd : Nat) : Dev :=
  match cmd with
  | 1 => d.resync
  | 2 => d.allowRebase
  | _ => d

theorem lodeCtrlWrite_accepted {d : Dev} {v : BitVec 32} (h : LodeFields v) (hcmd : fb v 30 29 ≠ 3)
    (hsame : fb v 23 12 = d.rf Reg.lodeCtrl 23 12) : d.lodeCtrlWrite v = (d.putReg Reg.lodeCtrl v).lodeCommand (fb v 30 29) := by
  obtain ⟨htick, hsome, hwait⟩ := h
  have hfirst : ¬ (fb v 30 29 = 3 || fb v 23 12 % 64 != 0 || fb v 23 12 = 0 || fb v 11 0 < 8) = true := by
    simp [hcmd, htick, hsome, hwait]
  have hsecond : ¬ (fb v 23 12 != d.rf Reg.lodeCtrl 23 12 && (d.lode.state != .freeRun || d.anyArmed)) = true := by simp [hsame]
  unfold Dev.lodeCtrlWrite
  extract_lets tick cmd d'
  rw [if_neg hfirst, if_neg hsecond]
  rfl

theorem lodeCtrlWrite_ignored {d : Dev} {v : BitVec 32}
    (h : fb v 30 29 = 3 ∨ fb v 23 12 % 64 ≠ 0 ∨ fb v 23 12 = 0 ∨ fb v 11 0 < 8 ∨ (fb v 23 12 ≠ d.rf Reg.lodeCtrl 23 12 ∧ d.lode.state ≠ .freeRun)) :
    d.lodeCtrlWrite v = d := by
  unfold Dev.lodeCtrlWrite
  extract_lets tick cmd d'
  split
  · rfl
  next hfirst =>
    simp only [Bool.or_eq_true, decide_eq_true_eq, bne_iff_ne, not_or] at hfirst
    obtain ⟨⟨⟨hcmd, htick⟩, hsome⟩, hwait⟩ := hfirst
    have hlast : fb v 23 12 ≠ d.rf Reg.lodeCtrl 23 12 ∧ d.lode.state ≠ .freeRun := by
      rcases h with h | h | h | h | h
      · exact absurd h hcmd
      · exact absurd h htick
      · exact absurd h hsome
      · exact absurd h hwait
      · exact h
    refine if_pos ?_
    simp [tick, hlast.1, hlast.2]

theorem resync_of_no_parent {d : Dev} (hstate : d.lode.state ≠ .source) (hbest : d.bestParent = none) :
    d.resync = { d with lode := { d.lode.leave .freeRun with invalid := 0 } } := by
  rw [Dev.resync, if_neg (by simpa using hstate), Dev.seekParent]
  have hb : ({ d with lode := { d.lode.leave .freeRun with invalid := 0 } } : Dev).bestParent = none := hbest
  rw [hb]
  exact ite_self _

/-- A command of LODE_CTRL that ends with the time base at `l`. -/
theorem ends_of_lodeCommand {i : Instr} {s : State} {r : Requester} {cmd : Nat} {l : Lode} {P : State → Prop} (hcmd : cmd < 3)
    (hexec : exec i s = s.runReg r Reg.lodeCtrl (lodeWord s.dev cmd) (fun _ => isCtx0 r) (fun _ d => (d.lodeCtrlWrite (lodeWord d cmd), stOK)))
    (hheard : Heard s r Reg.lodeCtrl (lodeWord s.dev cmd)) (hctx : isCtx0 r = true) (htick : s.dev.rf Reg.lodeCtrl 23 12 % 64 = 0)
    (hsome : s.dev.rf Reg.lodeCtrl 23 12 ≠ 0) (hwait : 8 ≤ s.dev.rf Reg.lodeCtrl 11 0)
    (hl : ∀ d : Dev, d.lode = s.dev.lode → d.bestParent = s.dev.bestParent → d.lodeCommand cmd = { d with lode := l })
    (hP : ∀ u : State, u.dev.lode = l → u.mem = s.mem → u.dev.counters = s.dev.counters → u.dev.tiles = s.dev.tiles → P u) : Ends i s P := by
  have hfields : LodeFields (lodeWord s.dev cmd) := by
    refine ⟨?_, ?_, ?_⟩ <;> rw [fb_lodeWord_below _ _ (by decide)] <;> assumption
  have hfb := fb_lodeWord_cmd s.dev (cmd := cmd) (by omega)
  have hwrite : s.begin.lodeCtrlWrite (lodeWord s.begin cmd)
      = { s.begin.putReg Reg.lodeCtrl (lodeWord s.dev cmd) with lode := l } := by
    have h := lodeCtrlWrite_accepted (d := s.begin) hfields (by omega) (fb_lodeWord_below _ _ (by decide))
    rw [hfb, hl (s.begin.putReg Reg.lodeCtrl (lodeWord s.dev cmd)) rfl rfl] at h
    exact h
  obtain ⟨f, hf⟩ : ∃ f, f = ({ s.begin.putReg Reg.lodeCtrl (lodeWord s.dev cmd) with lode := l } : Dev) := ⟨_, rfl⟩
  have hx : (s.begin.lodeCtrlWrite (lodeWord s.begin cmd), stOK) = (f, stOK) := Prod.ext (hwrite.trans hf.symm) rfl
  refine ends_of_heard (perm := fun _ => isCtx0 r) hexec hheard hctx hx (hP _ ?_ ?_ ?_ ?_)
  · rw [hf]; simp [Dev.answer]
  · exact State.commit_mem s _ (by rw [hf]; simp [Dev.answer]) (by rw [hf]; simp [Dev.answer])
  · rw [hf]; simp [Dev.answer]
  · rw [hf]; simp [Dev.answer]

theorem lode_resynced {s : State} {r : Requester} (hheard : Heard s r Reg.lodeCtrl (lodeWord s.dev 1)) (hctx : isCtx0 r = true)
    (htick : s.dev.rf Reg.lodeCtrl 23 12 % 64 = 0) (hsome : s.dev.rf Reg.lodeCtrl 23 12 ≠ 0) (hwait : 8 ≤ s.dev.rf Reg.lodeCtrl 11 0)
    (hstate : s.dev.lode.state ≠ .source) (hbest : s.dev.bestParent = none) :
    Ends (.lodeResync r) s (fun u => u.dev.lode = { s.dev.lode.leave .freeRun with invalid := 0 } ∧ u.mem = s.mem ∧ u.dev.counters = s.dev.counters ∧
      u.dev.tiles = s.dev.tiles) := by
  refine ends_of_lodeCommand (cmd := 1) (by decide) rfl hheard hctx htick hsome hwait (fun d hd hb => ?_)
    (fun u hlode hmem hcounters htiles => ⟨hlode, hmem, hcounters, htiles⟩)
  rw [← hd]
  exact resync_of_no_parent (hd ▸ hstate) (hb.trans hbest)

theorem rebase_allowed {s : State} {r : Requester} (hheard : Heard s r Reg.lodeCtrl (lodeWord s.dev 2)) (hctx : isCtx0 r = true)
    (htick : s.dev.rf Reg.lodeCtrl 23 12 % 64 = 0) (hsome : s.dev.rf Reg.lodeCtrl 23 12 ≠ 0) (hwait : 8 ≤ s.dev.rf Reg.lodeCtrl 11 0)
    (hstate : s.dev.lode.state ≠ .conflict) :
    Ends (.lodeRebaseAny r) s (fun u => u.dev.lode = { s.dev.lode with rebaseAny := true } ∧ u.mem = s.mem ∧
      u.dev.counters = s.dev.counters ∧ u.dev.tiles = s.dev.tiles) := by
  refine ends_of_lodeCommand (cmd := 2) (by decide) rfl hheard hctx htick hsome hwait (fun d hd hb => ?_)
    (fun u hlode hmem hcounters htiles => ⟨hlode, hmem, hcounters, htiles⟩)
  rw [← hd]
  have hno : ¬ (({ d with lode := { d.lode with rebaseAny := true } } : Dev).lode.state == .conflict) = true := by
    simpa [hd] using hstate
  exact if_neg hno

theorem conflict_left {s : State} {r : Requester} (hheard : Heard s r Reg.lodeCtrl (lodeWord s.dev 2)) (hctx : isCtx0 r = true)
    (htick : s.dev.rf Reg.lodeCtrl 23 12 % 64 = 0) (hsome : s.dev.rf Reg.lodeCtrl 23 12 ≠ 0) (hwait : 8 ≤ s.dev.rf Reg.lodeCtrl 11 0)
    (hstate : s.dev.lode.state = .conflict) (hbest : s.dev.bestParent = none) :
    Ends (.lodeRebaseAny r) s (fun u => u.dev.lode.state = .freeRun ∧ u.dev.lode.rebaseAny = true ∧ u.mem = s.mem) := by
  refine ends_of_lodeCommand (cmd := 2) (l := { ({ s.dev.lode with rebaseAny := true } : Lode).leave .freeRun with invalid := 0 }) (by decide) rfl
    hheard hctx htick hsome hwait (fun d hd hb => ?_) (fun u hlode hmem hcounters htiles => ⟨by rw [hlode]; rfl, by rw [hlode]; rfl, hmem⟩)
  rw [← hd]
  have hyes : (({ d with lode := { d.lode with rebaseAny := true } } : Dev).lode.state == .conflict) = true := by simp [hd, hstate]
  refine (if_pos hyes).trans ?_
  exact resync_of_no_parent (d := { d with lode := { d.lode with rebaseAny := true } })
    (by simp [hd, hstate]) (hb.trans hbest)

theorem lode_written {s : State} {r : Requester} {v : BitVec 32} (hheard : Heard s r Reg.lodeCtrl v) (hctx : isCtx0 r = true) :
    ((fb v 30 29 = 3 ∨ fb v 23 12 % 64 ≠ 0 ∨ fb v 23 12 = 0 ∨ fb v 11 0 < 8 ∨ (fb v 23 12 ≠ s.dev.rf Reg.lodeCtrl 23 12 ∧ s.dev.lode.state ≠ .freeRun)) →
      Quiet (.lodeCtrlWrite r v) s (s.begin.answer r stOK)) ∧
    ((fb v 30 29 = 0 ∧ fb v 23 12 % 64 = 0 ∧ fb v 23 12 ≠ 0 ∧ 8 ≤ fb v 11 0 ∧ fb v 23 12 = s.dev.rf Reg.lodeCtrl 23 12) →
      Quiet (.lodeCtrlWrite r v) s ((s.begin.putReg Reg.lodeCtrl v).answer r stOK)) := by
  refine ⟨fun h => ?_, fun ⟨hcmd, htick, hsome, hwait, hsame⟩ => ?_⟩
  · exact quiet_of_heard (x := fun _ d => (d.lodeCtrlWrite v, stOK)) (perm := fun _ => isCtx0 r) rfl hheard hctx
      (Prod.ext (lodeCtrlWrite_ignored (d := s.begin) h) rfl) rfl rfl
  · have hwrite := lodeCtrlWrite_accepted (d := s.begin) ⟨htick, hsome, hwait⟩ (by omega) hsame
    rw [hcmd] at hwrite
    exact quiet_of_heard (x := fun _ d => (d.lodeCtrlWrite v, stOK)) (perm := fun _ => isCtx0 r) rfl hheard hctx (Prod.ext hwrite rfl) rfl rfl

/-- Settles O36, a lemma for each thing the time base does. -/
theorem lodestoneKeepsTime : Obligations.LodestoneKeepsTime :=
  ⟨fun _ hup hrebase hcairns hidle => tick_plain hup hrebase hcairns hidle,
   fun _ _ _ hup hrebase hcairns hidle => tick_rebase hup hrebase hcairns hidle,
   fun _ hclaim hsilent hstate => source_claimed hclaim hsilent hstate,
   fun _ hsilent hparent => parent_lost hsilent hparent,
   fun _ _ hstate hinvalid hbest => holdover_ended hstate hinvalid hbest,
   fun _ _ hheard hctx htick hsome hwait hstate hbest => lode_resynced hheard hctx htick hsome hwait hstate hbest,
   fun _ _ hheard hctx htick hsome hwait => ⟨fun hstate => rebase_allowed hheard hctx htick hsome hwait hstate,
     fun hstate hbest => conflict_left hheard hctx htick hsome hwait hstate hbest⟩,
   fun _ _ _ hheard hctx => lode_written hheard hctx⟩

end Sys2Proof.Machine
end

section
/-! Cairn slots (R257 to R264) and the end of a health window (R362). -/

namespace Sys2Proof.Machine

open Sys2Proof.Claims (Ends Quiet Heard)

/-! A slot that ends with a result. -/

/-- A counter that no event, of whatever contexts, touches, and that no dropped slot does. -/
def FreeOfSlots (k : Nat) : Prop := Reg.devEvtLost ≠ k ∧ (∀ c, c ≤ 64 → Reg.ctxEvtLost c ≠ k) ∧ Reg.lodeCairnDropped ≠ k

theorem freeOfSlots_of_below {k : Nat} (hk : k < 0x100000) (hevt : Reg.devEvtLost ≠ k) (hdrop : Reg.lodeCairnDropped ≠ k) : FreeOfSlots k :=
  ⟨hevt, fun c _ => by unfold Reg.ctxEvtLost ctxWindow; omega, hdrop⟩

theorem FreeOfSlots.events {k : Nat} (h : FreeOfSlots k) : FreeOfEvents k := ⟨h.1, h.2.1 64 (Nat.le_refl _)⟩

theorem Dev.count_event_of_free (d : Dev) {cs : List Nat} (hcs : ∀ c ∈ cs, c < 64) (code sev d0 d1 unit : Nat) {k : Nat} (hk : FreeOfSlots k) :
    (d.event cs code sev d0 d1 unit).count k = d.count k :=
  d.count_event cs code sev d0 d1 unit hk.1 (fun c hc => hk.2.1 c (hcs c hc).le) (hk.2.1 64 (Nat.le_refl _))

/-- The slot with its result, before anything is counted or recorded. -/
def Dev.slotEnded (d : Dev) (c n : Nat) (st : CairnState) (r : Nat) : Dev := d.setCairn c n ((d.cairn c n).ended st r)

theorem cairn_slotEnded (d : Dev) (c n : Nat) (st : CairnState) (r : Nat) : (d.slotEnded c n st r).cairn c n = (d.cairn c n).ended st r :=
  Dev.cairn_setCairn _ _ _ _

theorem cairnSet_eq (d : Dev) (c n : Nat) (st : CairnState) (r : Nat) (evt : Bool) :
    d.cairnSet c n st r evt = (let e := (d.slotEnded c n st r).bumpIf (r == 3 || r == 4) Reg.lodeCairnDropped
      if alwaysRecords r || (evt && (d.cairn c n).evt) then e.cairnRecord c n r else e) := rfl

/-- What the end of a slot leaves: a reading that neither events nor counters touch. -/
theorem cairnSet_frame {β : Type} (g : Dev → β) (hbump : ∀ (d : Dev) k, g (d.bump k) = g d)
    (hevent : ∀ (d : Dev) cs code sev d0 d1 unit, g (d.event cs code sev d0 d1 unit) = g d) (d : Dev) (c n : Nat) (st : CairnState) (r : Nat)
    (evt : Bool) : g (d.cairnSet c n st r evt) = g (d.slotEnded c n st r) := by
  rw [cairnSet_eq]
  have hcount : ∀ b k, g ((d.slotEnded c n st r).bumpIf b k) = g (d.slotEnded c n st r) := fun b k => by
    cases b with
    | false => rfl
    | true => exact hbump _ _
  dsimp only
  split
  · exact (hevent _ _ _ _ _ _ _).trans (hcount _ _)
  · exact hcount _ _

theorem cairn_cairnSet (d : Dev) (c n : Nat) (st : CairnState) (r : Nat) (evt : Bool) :
    (d.cairnSet c n st r evt).cairn c n = (d.cairn c n).ended st r :=
  (cairnSet_frame (fun e => e.cairn c n) (fun _ _ => by rfl) (fun _ _ _ _ _ _ _ => by simp) d c n st r evt).trans (cairn_slotEnded d c n st r)

theorem cairnSet_fields (d : Dev) (c n : Nat) (st : CairnState) (r : Nat) (evt : Bool) : (d.cairnSet c n st r evt).regs = d.regs ∧
    (d.cairnSet c n st r evt).tiles = d.tiles ∧ (d.cairnSet c n st r evt).stores = d.stores ∧ (d.cairnSet c n st r evt).wipes = d.wipes ∧
    (d.cairnSet c n st r evt).lode = d.lode ∧ (d.cairnSet c n st r evt).bringUp = d.bringUp := by
  have h := cairnSet_frame (fun e => (e.regs, e.tiles, e.stores, e.wipes, e.lode, e.bringUp)) (fun _ _ => rfl) (fun _ _ _ _ _ _ _ => by simp) d c n st r evt
  simp only [Prod.mk.injEq] at h
  exact h

theorem count_cairnSet (d : Dev) {c : Nat} (hc : c < 64) (n : Nat) (st : CairnState) (r : Nat) (evt : Bool) {k : Nat} (hk : FreeOfSlots k) :
    (d.cairnSet c n st r evt).count k = d.count k := by
  rw [cairnSet_eq]
  have hcount : ∀ b, ((d.slotEnded c n st r).bumpIf b Reg.lodeCairnDropped).count k = d.count k := fun b => by
    cases b with
    | false => rfl
    | true => exact Dev.count_bump_other _ hk.2.2
  dsimp only
  split
  · exact (Dev.count_event_of_free _ (by simpa using hc) _ _ _ _ _ hk).trans (hcount _)
  · exact hcount _

/-! The word that a command writes. -/

/-- The fields of a slot that its word carries stay when CMD is replaced. -/
theorem cairnWord_fields (v : BitVec 32) {cmd : Nat} (hcmd : cmd < 4) :
    fb (BitVec.ofNat 32 (setFld v.toNat 31 30 cmd)) 31 30 = cmd ∧ fb (BitVec.ofNat 32 (setFld v.toNat 31 30 cmd)) 7 0 = fb v 7 0 ∧
      (BitVec.ofNat 32 (setFld v.toNat 31 30 cmd)).getLsbD 8 = v.getLsbD 8 ∧ (BitVec.ofNat 32 (setFld v.toNat 31 30 cmd)).getLsbD 9 = v.getLsbD 9 := by
  have hlow : ∀ hi lo, hi < 30 → fb (BitVec.ofNat 32 (setFld v.toNat 31 30 cmd)) hi lo = fb v hi lo := fun hi lo h => by
    rw [fb, BitVec.toNat_ofNat, Nat.mod_eq_of_lt (setFld_lt _ 31 30 cmd 32 v.isLt (by decide) (by decide)),
      fld_setFld_below _ 31 30 cmd hi lo (by omega)]
    rfl
  refine ⟨fb_cmd v hcmd, hlow 7 0 (by decide), ?_, ?_⟩
  · rw [getLsbD_eq_fb, getLsbD_eq_fb, hlow 8 8 (by decide)]
  · rw [getLsbD_eq_fb, getLsbD_eq_fb, hlow 9 9 (by decide)]

/-- A word whose CMD is ARM is written to a slot that may be armed. -/
theorem cairnCtrlWrite_arm {d : Dev} (m : Mem) {c n : Nat} {v : BitVec 32} (hv : fb v 31 30 = 1) (hstate : (d.cairn c n).state ≠ .armed)
    (hbarrier : (d.cairn c n).barrierAt = none) :
    d.cairnCtrlWrite m c n v = (d.putReg (Reg.ctxCairnCtrl c n) v).cairnArm m c n v := by
  simp [Dev.cairnCtrlWrite, hv, hstate, hbarrier]

/-- The registers of a slot beside its control word. -/
theorem slot_regs (d : Dev) (c n : Nat) (v : BitVec 32) :
    (d.putReg (Reg.ctxCairnCtrl c n) v).reg64 (Reg.ctxCairnLtLo c n) = d.reg64 (Reg.ctxCairnLtLo c n) ∧
      (d.putReg (Reg.ctxCairnCtrl c n) v).reg (Reg.ctxCairnArg c n) = d.reg (Reg.ctxCairnArg c n) := by
  have hother : ∀ k, Reg.ctxCairnCtrl c n ≠ k → (d.putReg (Reg.ctxCairnCtrl c n) v).reg k = d.reg k := fun k hk => mget_mset_other _ _ _ hk
  refine ⟨?_, hother _ (by unfold Reg.ctxCairnCtrl Reg.ctxCairnArg; omega)⟩
  rw [Dev.reg64, Dev.reg64, hother _ (by unfold Reg.ctxCairnCtrl Reg.ctxCairnLtLo; omega), hother _ (by unfold Reg.ctxCairnCtrl Reg.ctxCairnLtLo; omega)]

theorem armRefused_putReg (d : Dev) (m : Mem) (k : Nat) (v : BitVec 32) (c n arg action : Nat) :
    (d.putReg k v).armRefused m c n arg action = d.armRefused m c n arg action := by
  have hreader : (d.putReg k v).curReader m = d.curReader m := by
    have hread : ∀ q, areaReader m (d.putReg k v) q = areaReader m d q := fun q => by
      funext off n
      simp only [areaReader, peekLE, peekN_eq_map, peek_congr (d := d.putReg k v) (e := d) rfl rfl]
    simp only [Dev.curReader, hread]
    rfl
  unfold Dev.armRefused
  rw [hreader]
  rfl

/-- The slot that ARM makes. -/
def armedSlot (lt arg action : Nat) (v : BitVec 32) : Cairn :=
  { lt := BitVec.ofNat 64 lt, arg := BitVec.ofNat 32 arg, action := BitVec.ofNat 8 action, policy := v.getLsbD 8, evt := v.getLsbD 9, state := .armed }

theorem cairnArm_future {d : Dev} {m : Mem} {c n : Nat} {v : BitVec 32} (haction : fb v 7 0 ≠ 1)
    (hrefused : d.armRefused m c (d.reg64 (Reg.ctxCairnLtLo c n)) (d.reg (Reg.ctxCairnArg c n)).toNat (fb v 7 0) = false)
    (hfuture : d.now < d.reg64 (Reg.ctxCairnLtLo c n)) :
    d.cairnArm m c n v = d.setCairn c n (armedSlot (d.reg64 (Reg.ctxCairnLtLo c n)) (d.reg (Reg.ctxCairnArg c n)).toNat (fb v 7 0) v) := by
  have hpast : decide (d.reg64 (Reg.ctxCairnLtLo c n) ≤ d.now) = false := decide_eq_false (by omega)
  have haction' : (fb v 7 0 == 1) = false := by simpa using haction
  unfold Dev.cairnArm
  extract_lets lt arg action d'
  rw [if_neg (by rw [hrefused]; exact Bool.false_ne_true), if_neg (by simp [action, haction'])]
  simp only [d', Dev.armCairn, lt, hpast, Bool.false_and, Bool.false_eq_true, if_false]
  rfl

/-- The word of an ARM. -/
def armWord (v : BitVec 32) : BitVec 32 := BitVec.ofNat 32 (setFld v.toNat 31 30 1)

theorem slot_armed {s : State} {r : Requester} {c n : Fin 64} {v : BitVec 32} (hheard : Heard s r (Reg.ctxCairnCtrl c n) (BitVec.ofNat 32 (setFld v.toNat 31 30 1)))
    (hmay : s.dev.mayWriteCtx r c = true) (hstate : (s.dev.cairn c n).state ≠ .armed) (hbarrier : (s.dev.cairn c n).barrierAt = none)
    (haction : fb v 7 0 ≠ 1)
    (hrefused : s.begin.armRefused s.mem c (s.dev.reg64 (Reg.ctxCairnLtLo c n)) (s.dev.reg (Reg.ctxCairnArg c n)).toNat (fb v 7 0) = false)
    (hfuture : s.dev.now < s.dev.reg64 (Reg.ctxCairnLtLo c n)) :
    Ends (.cairnArm r c n v) s (fun u => u.dev.cairn c n = { lt := BitVec.ofNat 64 (s.dev.reg64 (Reg.ctxCairnLtLo c n)), arg := s.dev.reg (Reg.ctxCairnArg c n), action := BitVec.ofNat 8 (fb v 7 0), policy := v.getLsbD 8, evt := v.getLsbD 9, state := .armed } ∧
      u.mem = s.mem ∧ u.dev.ctxs = s.dev.ctxs ∧ u.dev.counters = s.dev.counters ∧ u.dev.tiles = s.dev.tiles) := by
  obtain ⟨hcmd, hact, hpolicy, hevt⟩ := cairnWord_fields v (cmd := 1) (by decide)
  obtain ⟨hlt, harg⟩ := slot_regs s.begin c n (armWord v)
  obtain ⟨f, hf⟩ : ∃ f, f = (s.begin.putReg (Reg.ctxCairnCtrl c n) (armWord v)).setCairn c n
    (armedSlot (s.dev.reg64 (Reg.ctxCairnLtLo c n)) (s.dev.reg (Reg.ctxCairnArg c n)).toNat (fb v 7 0) v) := ⟨_, rfl⟩
  have hslot : armedSlot (s.dev.reg64 (Reg.ctxCairnLtLo c n)) (s.dev.reg (Reg.ctxCairnArg c n)).toNat (fb v 7 0) (armWord v)
      = armedSlot (s.dev.reg64 (Reg.ctxCairnLtLo c n)) (s.dev.reg (Reg.ctxCairnArg c n)).toNat (fb v 7 0) v := by
    rw [armedSlot, armedSlot, armWord, hpolicy, hevt]
  have hwrite : s.begin.cairnCtrlWrite s.mem c n (armWord v) = f := by
    rw [armWord] at hlt harg ⊢
    rw [cairnCtrlWrite_arm (d := s.begin) s.mem hcmd hstate hbarrier, cairnArm_future (by rw [hact]; exact haction), hlt, harg, hf]
    · rw [hact]
      exact congrArg _ hslot
    · rw [hlt, harg, armRefused_putReg, hact]
      exact hrefused
    · rw [hlt]
      exact hfuture
  refine ends_of_heard (x := fun m d => (d.cairnCtrlWrite m c n (armWord v), stOK)) (perm := fun d => d.mayWriteCtx r c) rfl hheard
    ((mayWriteCtx_begin s r c).trans hmay) (Prod.ext hwrite rfl) ⟨?_, State.commit_mem s _ ?_ ?_, ?_, ?_, ?_⟩
  · have h : f.cairn c n = armedSlot (s.dev.reg64 (Reg.ctxCairnLtLo c n)) (s.dev.reg (Reg.ctxCairnArg c n)).toNat (fb v 7 0) v := by
      rw [hf, Dev.cairn_setCairn]
    simp only [Dev.cairn_commit, Dev.answer, Dev.cairn_emit, h, armedSlot, BitVec.ofNat_toNat, BitVec.setWidth_eq]
  all_goals simp [Dev.answer, hf]

/-- The slot of an ARM that is refused. -/
theorem cairnArm_refused {d : Dev} {m : Mem} {c n : Nat} {v : BitVec 32} (h : argOk (fb v 7 0) (d.reg (Reg.ctxCairnArg c n)).toNat = false) :
    ∃ e : Dev, d.cairnArm m c n v = e.cairnSet c n .cancelled 0xB false ∧ e.tiles = d.tiles ∧ e.stores = d.stores ∧ e.wipes = d.wipes := by
  unfold Dev.cairnArm
  extract_lets lt arg action d'
  have hrefused : d.armRefused m c lt arg action = true := by simp [Dev.armRefused, arg, action, h]
  rw [if_pos hrefused]
  exact ⟨_, rfl, rfl, rfl, rfl⟩

theorem arm_refused {s : State} {r : Requester} {c n : Fin 64} {v : BitVec 32} (hheard : Heard s r (Reg.ctxCairnCtrl c n) (BitVec.ofNat 32 (setFld v.toNat 31 30 1)))
    (hmay : s.dev.mayWriteCtx r c = true) (hstate : (s.dev.cairn c n).state ≠ .armed) (hbarrier : (s.dev.cairn c n).barrierAt = none)
    (harg : argOk (fb v 7 0) (s.dev.reg (Reg.ctxCairnArg c n)).toNat = false) :
    Ends (.cairnArm r c n v) s (fun u => (u.dev.cairn c n).state = .cancelled ∧ (u.dev.cairn c n).result = 0xB ∧ u.mem = s.mem ∧
      u.dev.tiles = s.dev.tiles) := by
  obtain ⟨hcmd, hact, -, -⟩ := cairnWord_fields v (cmd := 1) (by decide)
  obtain ⟨-, hreg⟩ := slot_regs s.begin c n (armWord v)
  obtain ⟨e, he, htiles, hst, hwi⟩ := cairnArm_refused (d := s.begin.putReg (Reg.ctxCairnCtrl c n) (armWord v)) (m := s.mem) (c := c) (n := n)
    (v := armWord v) (by rw [hreg, armWord, hact]; exact harg)
  obtain ⟨f, hf⟩ : ∃ f, f = e.cairnSet c n .cancelled 0xB false := ⟨_, rfl⟩
  obtain ⟨-, hti, hstores, hwipes, -⟩ := cairnSet_fields e c n .cancelled 0xB false
  have hcairn : f.cairn c n = (e.cairn c n).ended .cancelled 0xB := by rw [hf, cairn_cairnSet]
  have hwrite : s.begin.cairnCtrlWrite s.mem c n (armWord v) = f := by
    rw [armWord] at he ⊢
    rw [cairnCtrlWrite_arm (d := s.begin) s.mem hcmd hstate hbarrier, he, hf]
  refine ends_of_heard (x := fun m d => (d.cairnCtrlWrite m c n (armWord v), stOK)) (perm := fun d => d.mayWriteCtx r c) rfl hheard
    ((mayWriteCtx_begin s r c).trans hmay) (Prod.ext hwrite rfl) ⟨?_, ?_, State.commit_mem s _ ?_ ?_, ?_⟩
  · simp [Dev.answer, hcairn, Cairn.ended]
  · simp [Dev.answer, hcairn, Cairn.ended]
  · simp [Dev.answer, hf, hstores, hst]
  · simp [Dev.answer, hf, hwipes, hwi]
  · simp [Dev.answer, hf, hti, htiles]

/-! CANCEL of an ARMED slot (R262). -/

/-- A cancelled slot, and what its action takes along. -/
theorem cairnCancel_frame {β : Type} (g : Dev → β) (hctxs : ∀ (d : Dev) c x, g (d.setCtx c x) = g d)
    (hstrata : ∀ (d : Dev) x, g { d with strata := x } = g d) {d : Dev} {c n r : Nat} (hr : alwaysRecords r = false)
    (h : (d.cairn c n).state = .armed) : g (d.cairnCancel c n r) = g (d.slotEnded c n .cancelled r) := by
  unfold Dev.cairnCancel
  extract_lets x d' act ctx d'' strata
  rw [if_neg (by simp [x, h])]
  have hd' : d' = d.slotEnded c n .cancelled r := cairnSet_of_unrecorded d c n .cancelled hr
  have hswitch : g d'' = g d' := by
    unfold d''
    split
    · split
      · split
        · exact hctxs _ _ _
        · rfl
      · rfl
    · rfl
  rw [← hd', ← hswitch]
  split
  · exact hstrata _ _
  · rfl

theorem slot_cancelled {s : State} {r : Requester} {c n : Fin 64}
    (hheard : Heard s r (Reg.ctxCairnCtrl c n) (BitVec.ofNat 32 (setFld (s.dev.reg (Reg.ctxCairnCtrl c n)).toNat 31 30 2)))
    (hmay : s.dev.mayWriteCtx r c = true) (hstate : (s.dev.cairn c n).state = .armed) :
    Ends (.cairnCancel r c n) s (fun u => (u.dev.cairn c n).state = .cancelled ∧ (u.dev.cairn c n).result = 5 ∧
      (u.dev.cairn c n).lt = (s.dev.cairn c n).lt ∧ u.mem = s.mem ∧ u.dev.counters = s.dev.counters ∧ u.dev.tiles = s.dev.tiles) := by
  obtain ⟨v, hcmd, hexec⟩ := exec_cairnCancel_accepted s r c n hheard hmay
  have hwrite := cairnCtrlWrite_cancel_of_armed s.mem s.begin c n v hcmd hstate
  obtain ⟨e, he⟩ : ∃ e, e = s.begin.setRf (Reg.ctxCairnCtrl c n) 31 30 2 := ⟨_, rfl⟩
  rw [← he] at hwrite
  have harmed : (e.cairn c n).state = .armed := by rw [he]; exact hstate
  have hframe := cairnCancel_frame (fun d => (d.cairn c n, d.counters, d.tiles, d.stores, d.wipes)) (fun _ _ _ => rfl) (fun _ _ => rfl) (r := 5) rfl harmed
  simp only [Prod.mk.injEq, cairn_slotEnded] at hframe
  obtain ⟨hcairn, hcounters, htiles, hstores, hwipes⟩ := hframe
  rw [← hwrite] at hcairn hcounters htiles hstores hwipes
  refine ⟨_, hexec, rfl, ?_, ?_, ?_, State.commit_mem s _ ?_ ?_, ?_, ?_⟩
  · simp [Dev.answer, hcairn, Cairn.ended]
  · simp [Dev.answer, hcairn, Cairn.ended]
  · simp [Dev.answer, hcairn, Cairn.ended, he]
  · simp [Dev.answer, hstores, he, Dev.slotEnded]
  · simp [Dev.answer, hwipes, he, Dev.slotEnded]
  · simp [Dev.answer, hcounters, he, Dev.slotEnded]
  · simp [Dev.answer, htiles, he, Dev.slotEnded]

/-! A slot is taken at its count (R260). -/

theorem mem_mset {α : Type} {l : Map α} {k : Nat} {v : α} {p : Nat × α} (h : p ∈ mset l k v) : p = (k, v) ∨ p ∈ l := by
  induction l with
  | nil => exact .inl (List.mem_singleton.mp h)
  | cons a l ih =>
    obtain ⟨j, x⟩ := a
    unfold mset at h
    split at h
    · exact (List.mem_cons.mp h).imp_right id
    · split at h
      · exact (List.mem_cons.mp h).imp_right (List.mem_cons_of_mem _)
      · rcases List.mem_cons.mp h with h | h
        · exact .inr (h ▸ List.mem_cons_self)
        · exact (ih h).imp_right (List.mem_cons_of_mem _)

theorem mget_mem_or {α : Type} (e : α) (l : Map α) (k : Nat) : (k, mget e l k) ∈ l ∨ mget e l k = e := by
  induction l with
  | nil => exact .inr rfl
  | cons a l ih =>
    obtain ⟨j, x⟩ := a
    unfold mget mfind
    by_cases h : j = k
    · rw [if_pos h]
      exact .inl (h ▸ List.mem_cons_self)
    · rw [if_neg h]
      exact ih.imp_left (List.mem_cons_of_mem _)

theorem Dev.ctx_idle {d : Dev} (h : d.ctxsIdle) (c : Nat) : (d.ctx c).pipe.state ≠ .running ∧ (d.ctx c).log.known = false := by
  rcases mget_mem_or Ctx.reset d.ctxs c with hmem | hdefault
  · exact h _ hmem
  · rw [Dev.ctx, hdefault]
    exact ⟨by decide, rfl⟩

theorem ctxsIdle_setEventRing {d : Dev} (h : d.ctxsIdle) (c : Nat) (r : EventRing) : (d.setEventRing c r).ctxsIdle := by
  unfold Dev.setEventRing
  split
  · exact h
  · intro p hp
    rcases mem_mset hp with hp | hp
    · rw [hp]
      exact Dev.ctx_idle h c
    · exact h p hp

theorem ctxsIdle_ringPut {d : Dev} (h : d.ctxsIdle) (c : Nat) (e : Event) : (d.ringPut c e).ctxsIdle := by
  unfold Dev.ringPut
  extract_lets r at_ used n d'
  split
  · exact ctxsIdle_setEventRing h _ _
  · unfold Dev.ctxsIdle
    rw [Dev.hwr_ctxs]
    exact ctxsIdle_setEventRing h _ _

/-- An event starts no pipeline and makes no log known. -/
theorem ctxsIdle_event {d : Dev} (h : d.ctxsIdle) (cs : List Nat) (code sev d0 d1 unit : Nat) : (d.event cs code sev d0 d1 unit).ctxsIdle := by
  unfold Dev.event
  extract_lets bound pkg e d' c0
  have hrings : d'.ctxsIdle := Dev.each_invariant (P := Dev.ctxsIdle) (fun x c _ hx => ctxsIdle_ringPut (d := x.emit _) hx c _) h
  split
  · exact ctxsIdle_ringPut (d := d'.emit _) hrings _ _
  · exact hrings

theorem ctxsIdle_cairnSet {d : Dev} (h : d.ctxsIdle) (c n : Nat) (st : CairnState) (r : Nat) (evt : Bool) : (d.cairnSet c n st r evt).ctxsIdle := by
  rw [cairnSet_eq]
  have hcount : ∀ b k, ((d.slotEnded c n st r).bumpIf b k).ctxsIdle := fun b k => by cases b <;> exact h
  dsimp only
  split
  · exact ctxsIdle_event (hcount _ _) _ _ _ _ _ _
  · exact hcount _ _

/-- A slot of a MARK (action 9) taken on time. -/
def Dev.marked (d : Dev) (c n : Nat) : Dev :=
  let e := (d.bump Reg.lodeCairnTaken).cairnSet c n .taken 1 true
  e.event [c] 0x0620 0 (e.cairn c n).lt.toNat (e.cairn c n).arg.toNat 0

theorem cairnTake_mark {d : Dev} (m : Mem) {c n : Nat} (hstate : (d.cairn c n).state = .armed) (haction : (d.cairn c n).action = 9) :
    d.cairnTake m c n false = d.marked c n := by
  obtain ⟨e, he⟩ : ∃ e, e = (d.bump Reg.lodeCairnTaken).cairnSet c n .taken 1 true := ⟨_, rfl⟩
  have hact : (e.cairn c n).action = 9 := by
    rw [he, cairn_cairnSet]
    exact haction
  have hmarked : e.cairnAction m c n = e.event [c] 0x0620 0 (e.cairn c n).lt.toNat (e.cairn c n).arg.toNat 0 := by
    unfold Dev.cairnAction
    extract_lets x lt arg
    have hx : x.action.toNat = 9 := congrArg BitVec.toNat hact
    rw [hx]
    rfl
  rw [Dev.cairnTake, if_neg (by simp [hstate])]
  change ((d.bump Reg.lodeCairnTaken).cairnSet c n .taken 1 true).cairnAction m c n = _
  rw [← he, hmarked, he]
  rfl

theorem marked_fields (d : Dev) {c : Nat} (hc : c < 64) (n : Nat) : (d.marked c n).cairn c n = (d.cairn c n).ended .taken 1 ∧
    (d.marked c n).lode = d.lode ∧ (d.marked c n).stores = d.stores ∧ (d.marked c n).wipes = d.wipes ∧
    (d.marked c n).count Reg.lodeCairnTaken = d.count Reg.lodeCairnTaken + 1 := by
  obtain ⟨-, -, hstores, hwipes, hlode, -⟩ := cairnSet_fields (d.bump Reg.lodeCairnTaken) c n .taken 1 true
  have hfree : FreeOfSlots Reg.lodeCairnTaken := freeOfSlots_of_below (by decide) (by decide) (by decide)
  have hcount := count_cairnSet (d.bump Reg.lodeCairnTaken) hc n .taken 1 true hfree
  rw [Dev.bump, Dev.count_bumpN, if_pos rfl] at hcount
  unfold Dev.marked
  obtain ⟨e, he⟩ : ∃ e, e = (d.bump Reg.lodeCairnTaken).cairnSet c n .taken 1 true := ⟨_, rfl⟩
  have hcairn : e.cairn c n = (d.cairn c n).ended .taken 1 := by rw [he, cairn_cairnSet]; rfl
  rw [← he] at hstores hwipes hlode ⊢
  refine ⟨by simp [hcairn], by simp [hlode], by simp [hstores], by simp [hwipes], ?_⟩
  dsimp only
  rw [Dev.count_event_of_free e (by simpa using hc) _ _ _ _ _ hfree, he]
  exact hcount

/-- The only slot, ARMED and due at an edge that is no re-base. -/
theorem takeCairns_single {d : Dev} (m : Mem) {a b k : Nat} {x : Cairn} (hcairns : d.cairns = [(k, x)]) (hstate : x.state = .armed)
    (hlate : x.late = false) (hpast : a < x.lt.toNat) (hdue : x.lt.toNat ≤ b) :
    d.takeCairns m a b false = d.cairnTake m (k / 64) (k % 64) false := by
  have hsorted : sortSlots (d.cairns.filter (fun y => y.2.state == .armed && (y.2.late || (a < y.2.lt.toNat && y.2.lt.toNat ≤ b)))) = [(k, x)] := by
    rw [hcairns, List.filter_cons_of_pos (by simp [hstate, hpast, hdue]), List.filter_nil]
    rfl
  unfold Dev.takeCairns
  extract_lets due
  rw [hsorted, Dev.each_cons, Dev.each_nil]
  dsimp only
  rw [hlate]
  rfl

theorem slot_taken {s : State} {c n : Fin 64} {x : Cairn} (hup : s.dev.bringUp ≠ .off) (hrebase : s.dev.lode.rebase = none)
    (hcairns : s.dev.cairns = [(64 * c.val + n.val, x)]) (hstate : x.state = .armed) (haction : x.action = 9)
    (hdue : x.lt.toNat = s.dev.lode.count.toNat + 1)
    (hidle : ∀ p, p ∈ s.dev.ctxs → p.2.pipe.state ≠ .running ∧ p.2.log.known = false) (hlate : x.late = false) :
    Ends .lodestoneTick s (fun u => (u.dev.cairn c n).state = .taken ∧ (u.dev.cairn c n).result = 1 ∧
      u.dev.count Reg.lodeCairnTaken = s.dev.count Reg.lodeCairnTaken + 1 ∧ u.dev.lode.count = x.lt ∧ u.mem = s.mem) := by
  have hnext : s.begin.nextCount.now = x.lt.toNat := by
    have hlt := x.lt.isLt
    change (s.dev.lode.count + 1).toNat = _
    rw [BitVec.toNat_add, hdue]
    exact Nat.mod_eq_of_lt (hdue ▸ hlt)
  have hslot : s.begin.nextCount.cairn c n = x := cairn_of_cairns_mset (l := []) hcairns
  have hplace : (64 * c.val + n.val) / 64 = c.val ∧ (64 * c.val + n.val) % 64 = n.val := by omega
  have hpast : s.begin.now < x.lt.toNat := by
    rw [hdue]
    exact Nat.lt_succ_self _
  have htake : s.begin.nextCount.takeCairns s.mem s.begin.now s.begin.nextCount.now false = s.begin.nextCount.marked c n := by
    rw [takeCairns_single (d := s.begin.nextCount) s.mem hcairns hstate hlate hpast hnext.ge, hplace.1, hplace.2]
    exact cairnTake_mark s.mem (by rw [hslot]; exact hstate) (by rw [hslot]; exact haction)
  have hmidle : (s.begin.nextCount.marked c n).ctxsIdle :=
    ctxsIdle_event (ctxsIdle_cairnSet (d := s.begin.nextCount.bump Reg.lodeCairnTaken) hidle _ _ _ _ _) _ _ _ _ _ _
  have hx : xLodestoneTick s.mem s.begin = (s.begin.nextCount.marked c n).edgeEnd := by
    rw [xLodestoneTick, tickEdge_plain (d := s.begin) s.mem hup hrebase (by rw [htake]; exact hmidle), htake]
  obtain ⟨hcairn, hlode, hst, hwi, hcounter⟩ := marked_fields s.begin.nextCount c.isLt n
  obtain ⟨hcairns', -, hcount, hstores, hwipes⟩ := sansTick_fields (edgeEnd_sansTick (s.begin.nextCount.marked c n))
  have hslot' : (s.begin.nextCount.marked c n).edgeEnd.cairn c n = x.ended .taken 1 := by
    rw [← hslot, ← hcairn, Dev.cairn, hcairns']
    rfl
  have hcounter' : (s.begin.nextCount.marked c n).edgeEnd.count Reg.lodeCairnTaken = s.dev.count Reg.lodeCairnTaken + 1 := by
    rw [edgeEnd_count _ (by unfold FreeOfEvents; decide) (by decide), hcounter]
    rfl
  have hlt : (s.begin.nextCount.marked c n).edgeEnd.lode.count = x.lt := by
    rw [hcount, hlode]
    exact BitVec.eq_of_toNat_eq hnext
  have hstored := hstores.trans hst
  have hwiped := hwipes.trans hwi
  generalize (s.begin.nextCount.marked c n).edgeEnd = g at hx hslot' hcounter' hlt hstored hwiped
  refine ends_of_run rfl hx ⟨?_, ?_, hcounter', hlt, State.commit_mem s _ hstored hwiped⟩
  · rw [Dev.cairn_commit, hslot']
    rfl
  · rw [Dev.cairn_commit, hslot']
    rfl

/-! The barrier's check (R264, R241). -/

/-- A slot whose barrier is no longer pending. -/
def Cairn.checked (x : Cairn) : Cairn := { x with barrierAt := none, barrierTags := [] }

theorem xBarrierCheck_due {d : Dev} (m : Mem) {c n : Nat} {x : BitVec 64} (hat : (d.cairn c n).barrierAt = some x) (hdue : x.toNat ≤ d.now) :
    xBarrierCheck c n m d = (((d.setCairn c n (d.cairn c n).checked).bumpIf (!(d.cairn c n).barrierTags.isEmpty) Reg.fabBarrierMiss).cairnSet c n .taken
      (if (d.cairn c n).barrierTags.isEmpty then 9 else 10) true) := by
  simp only [xBarrierCheck, hat]
  exact if_neg (Nat.not_lt.mpr hdue)

theorem barrier_fields (s : State) (c n : Fin 64) (b : Bool) (r : Nat) :
    let d := ((s.begin.setCairn c n (s.dev.cairn c n).checked).bumpIf b Reg.fabBarrierMiss).cairnSet c n .taken r true
    d.cairn c n = (s.dev.cairn c n).checked.ended .taken r ∧ d.regs = s.dev.regs ∧ d.stores = [] ∧ d.wipes = [] ∧
      d.count Reg.fabBarrierMiss = s.dev.count Reg.fabBarrierMiss + (if b then 1 else 0) := by
  intro d
  obtain ⟨hregs, -, hstores, hwipes, -⟩ := cairnSet_fields ((s.begin.setCairn c n (s.dev.cairn c n).checked).bumpIf b Reg.fabBarrierMiss) c n .taken r true
  have hfree : FreeOfSlots Reg.fabBarrierMiss := freeOfSlots_of_below (by decide) (by decide) (by decide)
  refine ⟨?_, hregs.trans ?_, hstores.trans ?_, hwipes.trans ?_, (count_cairnSet _ c.isLt n .taken r true hfree).trans ?_⟩
  · rw [show d.cairn c n = _ from cairn_cairnSet _ _ _ _ _ _]
    have h : ((s.begin.setCairn c n (s.dev.cairn c n).checked).bumpIf b Reg.fabBarrierMiss).cairn c n = (s.dev.cairn c n).checked := by
      cases b <;> exact Dev.cairn_setCairn _ _ _ _
    rw [h]
  · cases b <;> rfl
  · cases b <;> rfl
  · cases b <;> rfl
  · cases b with
    | false => exact (BitVec.add_zero _).symm
    | true => exact (Dev.count_bumpN _ _ _ _).trans (if_pos rfl)

theorem barrier_met {s : State} {c n : Fin 64} {x : BitVec 64} (hat : (s.dev.cairn c n).barrierAt = some x) (hdue : x.toNat ≤ s.dev.now)
    (htags : (s.dev.cairn c n).barrierTags = []) :
    Ends (.barrierCheck c n) s (fun u => (u.dev.cairn c n).result = 9 ∧ (u.dev.cairn c n).barrierAt = none ∧ (u.dev.cairn c n).state = .taken ∧
      u.dev.count Reg.fabBarrierMiss = s.dev.count Reg.fabBarrierMiss ∧ u.mem = s.mem ∧ u.dev.regs = s.dev.regs) := by
  have hx := xBarrierCheck_due (d := s.begin) s.mem (c := c) (n := n) hat hdue
  have htags' : (s.begin.cairn c n).barrierTags = [] := htags
  rw [htags'] at hx
  obtain ⟨hcairn, hregs, hstores, hwipes, hcount⟩ := barrier_fields s c n false 9
  refine ends_of_run rfl hx ⟨?_, ?_, ?_, ?_, State.commit_mem s _ hstores hwipes, hregs⟩
  · exact congrArg Cairn.result hcairn
  · exact congrArg Cairn.barrierAt hcairn
  · exact congrArg Cairn.state hcairn
  · exact hcount.trans (BitVec.add_zero _)

theorem barrier_missed {s : State} {c n : Fin 64} {x : BitVec 64} (hat : (s.dev.cairn c n).barrierAt = some x) (hdue : x.toNat ≤ s.dev.now)
    (htags : (s.dev.cairn c n).barrierTags ≠ []) :
    Ends (.barrierCheck c n) s (fun u => (u.dev.cairn c n).result = 10 ∧ (u.dev.cairn c n).barrierAt = none ∧
      u.dev.count Reg.fabBarrierMiss = s.dev.count Reg.fabBarrierMiss + 1 ∧ u.mem = s.mem ∧ u.dev.regs = s.dev.regs) := by
  have hx := xBarrierCheck_due (d := s.begin) s.mem (c := c) (n := n) hat hdue
  have htags' : (s.begin.cairn c n).barrierTags.isEmpty = false := List.isEmpty_eq_false_iff.mpr htags
  rw [htags'] at hx
  obtain ⟨hcairn, hregs, hstores, hwipes, hcount⟩ := barrier_fields s c n true 10
  refine ends_of_run rfl hx ⟨?_, ?_, ?_, State.commit_mem s _ hstores hwipes, hregs⟩
  · exact congrArg Cairn.result hcairn
  · exact congrArg Cairn.barrierAt hcairn
  · exact hcount

/-! The end of a health window (R362). -/

theorem window_ended {s : State} {c : Fin 64} {e : BitVec 64} {peak n : Nat} (hwindow : (s.dev.ctx c).window = some (e, peak, n))
    (hdue : e.toNat ≤ s.dev.now) :
    Ends (.healthWindowEnd c) s (fun u => (u.dev.ctx c).window = none ∧ u.mem = s.mem ∧ u.dev.regs = s.dev.regs ∧ u.dev.tiles = s.dev.tiles) := by
  have hw : (s.begin.ctx c).window = some (e, peak, n) := hwindow
  have hd : e.toNat ≤ s.begin.now := hdue
  obtain ⟨f, hf⟩ : ∃ f, f = s.begin.setCtx c { s.begin.ctx c with window := none } := ⟨_, rfl⟩
  have hx : xHealthWindowEnd c s.mem s.begin = f.event [c.val] 0x0B05 0 peak (s.begin.lastingTotal - n) 0 := by
    simp only [xHealthWindowEnd, Dev.windowEnds, hw, hd, if_true, hf]
  have hctx : (f.ctx c).window = none := by simp [hf]
  refine ends_of_run rfl hx ⟨?_, State.commit_mem s _ ?_ ?_, ?_, ?_⟩
  · simp [hctx]
  all_goals simp [hf]

/-- Settles O37, a lemma for each thing that happens to a slot and one for a window. -/
theorem cairnsAreArmedTakenAndCancelled : Obligations.CairnsAreArmedTakenAndCancelled :=
  ⟨fun _ _ _ _ _ hheard hmay hstate hbarrier haction hrefused hfuture => slot_armed hheard hmay hstate hbarrier haction hrefused hfuture,
   fun _ _ _ _ _ hheard hmay hstate hbarrier harg => arm_refused hheard hmay hstate hbarrier harg,
   fun _ _ _ _ hheard hmay hstate => slot_cancelled hheard hmay hstate,
   fun _ _ _ _ hup hrebase hcairns hstate haction hdue hidle hlate => slot_taken hup hrebase hcairns hstate haction hdue hidle hlate,
   fun _ _ _ _ hat hdue htags => barrier_met hat hdue htags,
   fun _ _ _ _ hat hdue htags => barrier_missed hat hdue htags,
   fun _ _ _ _ _ hwindow hdue => window_ended hwindow hdue⟩

end Sys2Proof.Machine
end

section
/-! Port training (R211 to R215, R217, R219, R230). -/

namespace Sys2Proof.Machine

open Sys2Proof.Claims (Ends Quiet PortFrame TakesDown)

/-! What the commands of a port leave as it was. -/

/-- What no command of a port touches: registers, tiles, modules, pages, and what has been stored. -/
def Dev.beside (d : Dev) := (d.regs, d.tiles, d.modules, d.pages, d.stores, d.wipes)

/-- The ports and all that is beside them. -/
def Dev.withPorts (d : Dev) := (d.ports, d.beside)

theorem event_withPorts (d : Dev) (cs : List Nat) (code sev d0 d1 unit : Nat) : (d.event cs code sev d0 d1 unit).withPorts = d.withPorts := by
  simp [Dev.withPorts, Dev.beside]

theorem noteDegraded_withPorts (d : Dev) : d.noteDegraded.withPorts = d.withPorts := by
  rcases d.noteDegraded_cases with h | ⟨x, r, h⟩
  · rw [h]
  · rw [h]
    exact event_withPorts _ _ _ _ _ _ _

theorem loseParent_withPorts (d : Dev) : d.loseParent.withPorts = d.withPorts := by
  unfold Dev.loseParent
  split
  · exact event_withPorts _ _ _ _ _ _ _
  · rfl

/-- From `d` to `e` the device has changed at fabric port `p`, which is `x` now, and in what is not beside the ports. -/
structure PortBecomes (d e : Dev) (p : Nat) (x : FabPort) : Prop where
  beside : e.beside = d.beside
  port : ∀ q, e.port q = if q = p then x else d.port q

theorem PortBecomes.same {d e : Dev} {p : Nat} {x : FabPort} (h : PortBecomes d e p x) : e.port p = x := (h.port p).trans (if_pos rfl)

theorem PortBecomes.other {d e : Dev} {p : Nat} {x : FabPort} (h : PortBecomes d e p x) {q : Nat} (hq : q ≠ p) : e.port q = d.port q :=
  (h.port q).trans (if_neg hq)

theorem portBecomes_refl (d : Dev) (p : Nat) : PortBecomes d d p (d.port p) := ⟨rfl, fun q => by split <;> simp_all⟩

theorem port_setPort (d : Dev) (p q : Nat) (x : FabPort) : (d.setPort p x).port q = if q = p then x else d.port q := by
  split
  next h => rw [h]; exact mget_mset_same _ _ _ _
  next h => exact mget_mset_other _ _ _ (Ne.symm h)

theorem PortBecomes.setPort {d e : Dev} {p : Nat} {x : FabPort} (h : PortBecomes d e p x) (y : FabPort) : PortBecomes d (e.setPort p y) p y := by
  refine ⟨h.beside, fun q => ?_⟩
  rw [port_setPort]
  split
  · rfl
  next hq => exact h.other hq

theorem portBecomes_setPort (d : Dev) (p : Nat) (x : FabPort) : PortBecomes d (d.setPort p x) p x := (portBecomes_refl d p).setPort x

/-- A step that keeps the ports and what is beside them. -/
theorem PortBecomes.step {d e f : Dev} {p : Nat} {x : FabPort} (h : PortBecomes d e p x) (hf : f.withPorts = e.withPorts) : PortBecomes d f p x := by
  obtain ⟨hports, hbeside⟩ := Prod.mk.inj hf
  refine ⟨hbeside.trans h.beside, fun q => ?_⟩
  rw [← h.port q, Dev.port, hports]
  rfl

theorem PortBecomes.trans {d e f : Dev} {p : Nat} {x y : FabPort} (h : PortBecomes d e p x) (hf : PortBecomes e f p y) : PortBecomes d f p y := by
  refine ⟨hf.beside.trans h.beside, fun q => ?_⟩
  rw [hf.port q]
  split
  · rfl
  next hq => exact h.other hq

/-- A command that changes port `p`. -/
theorem PortBecomes.frame {s : State} {d : Dev} {p : Fin 8} {x : FabPort} (h : PortBecomes s.begin d p x) : PortFrame s (s.commit d) p := by
  obtain ⟨hregs, htiles, hmodules, hpages, hstores, hwipes⟩ : d.regs = s.dev.regs ∧ d.tiles = s.dev.tiles ∧ d.modules = s.dev.modules ∧
      d.pages = s.dev.pages ∧ d.stores = [] ∧ d.wipes = [] := by
    have hb := h.beside
    simp only [Dev.beside, Prod.mk.injEq] at hb
    exact hb
  exact ⟨fun q hq => h.other hq, State.commit_mem s _ hstores hwipes, hregs, htiles, hmodules, hpages⟩

theorem ends_of_port {i : Instr} {s : State} {x : Effect} {d : Dev} {p : Fin 8} {y : FabPort} {P : State → Prop} (hexec : exec i s = s.run x)
    (hd : x s.mem s.begin = d) (h : PortBecomes s.begin d p y) (hP : ∀ u : State, u.dev.port p = y → PortFrame s u p → P u) : Ends i s P :=
  ends_of_run hexec hd (hP _ ((Dev.port_commit s d p).trans h.same) h.frame)

/-! A port that stops. -/

theorem stopPort_becomes {d : Dev} {p : Nat} (h : (d.port p).queues = []) (st : PortState) (f : Nat) :
    PortBecomes d (d.stopPort p st f) p ((d.port p).stoppedAs st f) := by
  have hqueued : (d.port p).queued = [] := by rw [FabPort.queued, h]; rfl
  unfold Dev.stopPort
  extract_lets x d' d'' d'''
  have hd'' : d'' = d' := by
    unfold d''
    rw [hqueued]
    rfl
  have hd''' : d'''.withPorts = d'.withPorts := by
    unfold d'''
    rw [hd'']
    split
    · exact loseParent_withPorts _
    · rfl
  exact (portBecomes_setPort d p _).step ((noteDegraded_withPorts _).trans hd''')

theorem portDown_becomes {d : Dev} {p : Nat} (h : (d.port p).queues = []) (reason : Nat) (failed : Bool) :
    PortBecomes d (d.portDown p reason failed) p ((d.port p).stoppedAs .down (if failed then (d.port p).failures + 1 else 0)) := by
  have hstop := stopPort_becomes h .down (if failed then (d.port p).failures + 1 else 0)
  unfold Dev.portDown
  extract_lets x f
  split
  · exact hstop.step (event_withPorts _ _ _ _ _ _ _)
  · exact hstop

theorem takesDown_of_portDown {i : Instr} {s : State} {x : Effect} {p : Fin 8} {reason : Nat} {failed : Bool} (hexec : exec i s = s.run x)
    (hx : x s.mem s.begin = s.begin.portDown p reason failed) (h : (s.dev.port p).queues = []) :
    TakesDown i s p (if failed then (s.dev.port p).failures + 1 else 0) :=
  ends_of_port hexec hx (portDown_becomes (d := s.begin) h reason failed) (fun u hport hframe => ⟨hport, by rw [hport]; rfl, hframe⟩)

/-! Training (R211 to R215). -/

theorem enterDetect_becomes (d : Dev) (p : Nat) :
    PortBecomes d (d.enterDetect p) p { d.port p with state := .detect, detects := (d.port p).detects + 1 } := by
  unfold Dev.enterDetect
  extract_lets x d'
  split
  · exact (portBecomes_setPort d p _).step rfl
  · exact portBecomes_setPort d p _

theorem detect_entered {i : Instr} {s : State} {x : Effect} {p : Fin 8} (hexec : exec i s = s.run x) (hx : x s.mem s.begin = s.begin.enterDetect p) :
    Ends i s (fun u => u.dev.port p = { s.dev.port p with state := .detect, detects := (s.dev.port p).detects + 1 } ∧ PortFrame s u p) :=
  ends_of_port hexec hx (enterDetect_becomes s.begin p) (fun _ hport hframe => ⟨hport, hframe⟩)

theorem lock_failed {s : State} {p : Fin 8} {b : Bool} (hstate : (s.dev.port p).state = .laneLock) (hlanes : laneTotal (s.dev.port p).rxService < 8)
    (hqueues : (s.dev.port p).queues = []) : Ends (.laneLockDone p b) s (fun u => (u.dev.port p).state = .failed ∧ PortFrame s u p) := by
  have hx : xLaneLockDone p b s.mem s.begin = s.begin.stopPort p .failed (s.dev.port p).failures := by
    have hst : (s.begin.port p).state = .laneLock := hstate
    have hla : laneTotal (s.begin.port p).rxService < 8 := hlanes
    simp only [xLaneLockDone, hst, hla, decide_true, Bool.true_or, if_true]
    rfl
  exact ends_of_port rfl hx (stopPort_becomes (d := s.begin) hqueues _ _) (fun u hport hframe => ⟨by rw [hport]; rfl, hframe⟩)

theorem lock_done {s : State} {p : Fin 8} {b : Bool} (hstate : (s.dev.port p).state = .laneLock) (hrx : 8 ≤ laneTotal (s.dev.port p).rxService)
    (htx : 8 ≤ laneTotal (s.dev.port p).txService) :
    Quiet (.laneLockDone p b) s (s.begin.setPort p { s.dev.port p with state := .param, reversed := b, rxUse := chosenLanes (s.dev.port p).rxService, txUse := chosenLanes (s.dev.port p).txService }) := by
  refine quiet_of_run (x := xLaneLockDone p b) rfl ?_ rfl rfl
  have hst : (s.begin.port p).state = .laneLock := hstate
  have hr : ¬ laneTotal (s.begin.port p).rxService < 8 := Nat.not_lt.mpr hrx
  have ht : ¬ laneTotal (s.begin.port p).txService < 8 := Nat.not_lt.mpr htx
  simp only [xLaneLockDone, hst, hr, ht, decide_false, Bool.or_false, Bool.false_eq_true, if_false]
  rfl

/-! PARAM (R212). -/

/-- What TS_PARAM says of the far end. -/
def FabPort.withPeer (x : FabPort) (body : BitVec 512) : FabPort :=
  { x with peerNode := BitVec.ofNat 23 (fld (msg body 0 4) 22 0), peerPort := BitVec.ofNat 3 (msg body 4 1),
           peerEncReq := (msg body 12 1).testBit 0, peerKeyReady := (msg body 12 1).testBit 1 }

/-- A port that enters RTT without encryption. -/
def FabPort.inRtt (x : FabPort) (body : BitVec 512) : FabPort :=
  { x.withPeer body with state := .rtt, peerEncReq := false, rttCount := 0, rttSent := none, creditsIn := false, encWait := false, encOn := false, txPhase := false,
                         rxPhase := false }

theorem xTsParam_plain {d : Dev} (m : Mem) {p : Nat} {body : BitVec 512} (hstate : (d.port p).state = .param) (hspur : p % 4 = 3)
    (hvalid : d.nodeValid = true) (hnode : fld (msg body 0 4) 22 0 ≠ 0x7FFFFF) (hown : d.rb (Reg.fabPortCtrl p) 2 = false)
    (hpeer : (msg body 12 1).testBit 0 = false) :
    xTsParam p body m d = (let e := d.setPort p ((d.port p).inRtt body)
      let e := (e.sendLink p 4 (e.freeUnits p)).noteDegraded
      if e.initiates p then e.sendLink p 1 (rttBytes 0 0) else e) := by
  unfold xTsParam
  simp only [hstate, hspur, hvalid, hnode, hown, hpeer, beq_self_eq_true, Bool.true_or, Bool.not_true, Bool.false_eq_true, if_false, Bool.or_false,
    Bool.false_and, decide_false, Bool.and_false]
  rfl

theorem sendLink_becomes {d e : Dev} {p : Nat} {x : FabPort} (h : PortBecomes d e p x) (sub : Nat) (bytes : List Byte) :
    PortBecomes d (e.sendLink p sub bytes) p { x with linkQueue := x.linkQueue ++ [(BitVec.ofNat 4 sub, bytes)] } := by
  unfold Dev.sendLink
  rw [h.same]
  exact h.setPort _

theorem noteDegraded_node (d : Dev) : d.noteDegraded.node = d.node := by
  rw [Dev.node, Dev.rf, d.noteDegraded_fields.2.2.2.2.2.1 _]
  rfl

theorem freeUnits_setPort (d : Dev) (p : Nat) {x : FabPort} (h : x.rx = (d.port p).rx) : (d.setPort p x).freeUnits p = d.freeUnits p := by
  have hrx : ((d.setPort p x).port p).rx = (d.port p).rx := by rw [port_setPort, if_pos rfl, h]
  simp only [Dev.freeUnits, hrx]
  rfl

theorem param_taken {s : State} {p : Fin 8} {body : BitVec 512} (hstate : (s.dev.port p).state = .param) (hspur : p.val % 4 = 3)
    (hvalid : s.dev.nodeValid = true) (hnode : fld (msg body 0 4) 22 0 ≠ 0x7FFFFF) (hown : s.dev.rb (Reg.fabPortCtrl p) 2 = false)
    (hpeer : (msg body 12 1).testBit 0 = false) :
    Ends (.tsParam p body) s (fun u => (u.dev.port p).state = .rtt ∧ (u.dev.port p).peerNode.toNat = fld (msg body 0 4) 22 0 ∧
      (u.dev.port p).rttCount = 0 ∧ (u.dev.port p).creditsIn = false ∧ (u.dev.port p).encOn = false ∧
      (s.dev.node < fld (msg body 0 4) 22 0 →
        (u.dev.port p).linkQueue = (s.dev.port p).linkQueue ++ [(4, s.dev.freeUnits p), (1, rttBytes 0 0)]) ∧
      (fld (msg body 0 4) 22 0 ≤ s.dev.node → (u.dev.port p).linkQueue = (s.dev.port p).linkQueue ++ [(4, s.dev.freeUnits p)]) ∧ PortFrame s u p) := by
  have hx := xTsParam_plain (d := s.begin) s.mem hstate hspur hvalid hnode hown hpeer
  have hfree : (s.begin.setPort p ((s.begin.port p).inRtt body)).freeUnits p = s.dev.freeUnits p := freeUnits_setPort s.begin p rfl
  dsimp only at hx
  rw [hfree] at hx
  have hqueue := sendLink_becomes (portBecomes_setPort s.begin p ((s.begin.port p).inRtt body)) 4 (s.dev.freeUnits p)
  have hnoted := hqueue.step (noteDegraded_withPorts _)
  have hpeerNode : (BitVec.ofNat 23 (fld (msg body 0 4) 22 0)).toNat = fld (msg body 0 4) 22 0 := by
    rw [BitVec.toNat_ofNat]
    exact Nat.mod_eq_of_lt (Nat.mod_lt _ (Nat.two_pow_pos 23))
  have hown' : ((s.begin.setPort p ((s.begin.port p).inRtt body)).sendLink p 4 (s.dev.freeUnits p)).noteDegraded.node = s.dev.node := noteDegraded_node _
  have hinitiates : ((s.begin.setPort p ((s.begin.port p).inRtt body)).sendLink p 4 (s.dev.freeUnits p)).noteDegraded.initiates p
      = decide (s.dev.node < fld (msg body 0 4) 22 0) := by
    rw [Dev.initiates, hown', hnoted.same, ← hpeerNode]
    rfl
  rw [hinitiates] at hx
  by_cases hlower : s.dev.node < fld (msg body 0 4) 22 0
  · rw [if_pos (decide_eq_true hlower)] at hx
    refine ends_of_port rfl hx (sendLink_becomes hnoted 1 (rttBytes 0 0)) (fun u hport hframe => ?_)
    rw [hport]
    refine ⟨rfl, hpeerNode, rfl, rfl, rfl, fun _ => ?_, fun h => absurd hlower (Nat.not_lt.mpr h), hframe⟩
    exact List.append_assoc _ _ _
  · rw [if_neg (by simpa using hlower)] at hx
    refine ends_of_port rfl hx hnoted (fun u hport hframe => ?_)
    rw [hport]
    exact ⟨rfl, hpeerNode, rfl, rfl, rfl, fun h => absurd h hlower, fun _ => rfl, hframe⟩

theorem param_miswired {s : State} {p : Fin 8} {body : BitVec 512} (hstate : (s.dev.port p).state = .param) (htorus : p.val % 4 ≠ 3)
    (hvalid : s.dev.nodeValid = true) (hnode : fld (msg body 0 4) 22 0 ≠ 0x7FFFFF) (hport : msg body 4 1 ≠ oppositePort p) :
    Ends (.tsParam p body) s (fun u => (u.dev.port p).state = .miswired ∧ PortFrame s u p) := by
  have hx : xTsParam p body s.mem s.begin
      = ((s.begin.setPort p { (s.begin.port p).withPeer body with state := .miswired }).event [] 0x0511 2 p (fld (msg body 0 4) 22 0) 0).noteDegraded := by
    have hst : (s.begin.port p).state = .param := hstate
    have hva : s.begin.nodeValid = true := hvalid
    have hthree : (p.val % 4 == 3) = false := by simpa using htorus
    have hopp : (msg body 4 1 == oppositePort p) = false := by simpa using hport
    unfold xTsParam
    simp only [hst, hthree, hva, hopp, hnode, beq_self_eq_true, Bool.true_or, Bool.not_true, Bool.false_eq_true, if_false, Bool.or_false,
      Bool.false_and, decide_false, Bool.not_false, if_true]
    rfl
  exact ends_of_port rfl hx (((portBecomes_setPort _ _ _).step (event_withPorts _ _ _ _ _ _ _)).step (noteDegraded_withPorts _))
    (fun u hport hframe => ⟨by rw [hport], hframe⟩)

/-! RTT and CREDIT_INIT (R213, R230). -/

theorem rtt_answered {s : State} {p : Fin 8} {body : BitVec 512} {recv : BitVec 64} (hstate : (s.dev.port p).state = .rtt) (hsend : msg body 8 8 = 0) :
    Ends (.tsRtt p body recv) s (fun u => u.dev.port p = { s.dev.port p with rttCount := (s.dev.port p).rttCount + 1, linkQueue := (s.dev.port p).linkQueue ++ [(1, rttBytes (msg body 0 8) recv.toNat)] } ∧ PortFrame s u p) := by
  have hx : xTsRtt p body recv.toNat s.mem s.begin
      = (s.begin.setPort p { s.begin.port p with rttCount := (s.begin.port p).rttCount + 1 }).sendLink p 1 (rttBytes (msg body 0 8) recv.toNat) := by
    have hst : (s.begin.port p).state = .rtt := hstate
    unfold xTsRtt
    simp only [hst, hsend, beq_self_eq_true, Bool.true_or, Bool.not_true, Bool.false_eq_true, if_false, if_true]
  exact ends_of_port rfl hx (sendLink_becomes (portBecomes_setPort _ _ _) _ _) (fun _ hport hframe => ⟨hport, hframe⟩)

/-- RTT ends once its exchanges are done and the credits have come. -/
theorem rttDone_active {d : Dev} {p : Nat} (hstate : (d.port p).state = .rtt) (hcredits : (d.port p).creditsIn = true)
    (hcount : (if d.initiates p then 16 else 17) ≤ (d.port p).rttCount) :
    d.rttDone p = (d.setPort p { d.port p with state := .active, failures := 0, heardTick := false }).noteDegraded := by
  refine if_pos ?_
  rw [hstate, hcredits, decide_eq_true hcount]
  rfl

theorem rttDone_early {d : Dev} {p : Nat} (hcount : (d.port p).rttCount < 16) : d.rttDone p = d := by
  refine if_neg ?_
  have h : ¬ (if d.initiates p then 16 else 17) ≤ (d.port p).rttCount := by split <;> omega
  rw [decide_eq_false h, Bool.and_false]
  exact Bool.false_ne_true

theorem rtt_final {s : State} {p : Fin 8} {body : BitVec 512} {recv : BitVec 64} (hstate : (s.dev.port p).state = .rtt) (hsend : msg body 8 8 ≠ 0)
    (hanswers : s.dev.initiates p = false) (hcredits : (s.dev.port p).creditsIn = true) :
    Ends (.tsRtt p body recv) s (fun u => (u.dev.port p).state = .active ∧ (u.dev.port p).rtt = BitVec.ofNat 24 (msg body 16 8) ∧
      (u.dev.port p).failures = 0 ∧ PortFrame s u p) := by
  obtain ⟨y, hy⟩ : ∃ y : FabPort, y = { s.begin.port p with rtt := BitVec.ofNat 24 (msg body 16 8), rttCount := 17 } := ⟨_, rfl⟩
  have hx : xTsRtt p body recv.toNat s.mem s.begin = (s.begin.setPort p y).rttDone p := by
    have hst : (s.begin.port p).state = .rtt := hstate
    have han : s.begin.initiates p = false := hanswers
    unfold xTsRtt
    simp only [hst, hsend, han, hy, beq_self_eq_true, Bool.true_or, Bool.not_true, Bool.not_false, Bool.and_true, Bool.false_eq_true, if_false, if_true]
  have hport : (s.begin.setPort p y).port p = y := (portBecomes_setPort _ _ _).same
  have hdone := rttDone_active (d := s.begin.setPort p y) (p := p) (by rw [hport, hy]; exact hstate) (by rw [hport, hy]; exact hcredits)
    (by rw [hport, hy]; split <;> simp)
  rw [hdone, hport] at hx
  refine ends_of_port rfl hx (((portBecomes_setPort s.begin p y).setPort _).step (noteDegraded_withPorts _)) (fun u hu hframe => ?_)
  rw [hu, hy]
  exact ⟨rfl, rfl, rfl, hframe⟩

/-- The credits of a CREDIT_INIT. -/
def creditsOf (body : BitVec 512) (l : List Nat) : Map Nat :=
  l.foldl (fun m v => mset (mset m (2 * v) (msg body (4 * v) 2)) (2 * v + 1) (msg body (4 * v + 2) 2)) []

theorem mget_creditsOf (body : BitVec 512) (n : Nat) {v : Nat} (hv : v < n) :
    mget 0 (creditsOf body (List.range n)) (2 * v) = msg body (4 * v) 2 ∧ mget 0 (creditsOf body (List.range n)) (2 * v + 1) = msg body (4 * v + 2) 2 := by
  induction n with
  | zero => exact absurd hv (Nat.not_lt_zero v)
  | succ n ih =>
    rw [creditsOf, List.range_succ, List.foldl_append]
    change mget 0 (mset (mset (creditsOf body (List.range n)) _ _) _ _) _ = _ ∧ mget 0 (mset (mset (creditsOf body (List.range n)) _ _) _ _) _ = _
    rcases Nat.lt_succ_iff_lt_or_eq.mp hv with h | rfl
    · rw [mget_mset_other _ _ _ (by omega), mget_mset_other _ _ _ (by omega), mget_mset_other _ _ _ (by omega), mget_mset_other _ _ _ (by omega)]
      exact ih h
    · rw [mget_mset_other _ _ _ (by omega), mget_mset_same, mget_mset_same]
      exact ⟨rfl, rfl⟩

/-- A port to which the far end has told its credits. -/
def FabPort.credited (x : FabPort) (cs : Map Nat) : FabPort := { x with credits := cs, creditsIn := true }

theorem credited_rttDone {d : Dev} {p : Nat} (cs : Map Nat) (hcount : (d.port p).rttCount < 16) :
    (d.setPort p ((d.port p).credited cs)).rttDone p = d.setPort p ((d.port p).credited cs) := by
  have hport : (d.setPort p ((d.port p).credited cs)).port p = (d.port p).credited cs := (portBecomes_setPort _ _ _).same
  exact rttDone_early (by rw [hport]; exact hcount)

theorem xCreditInit_early {d : Dev} (m : Mem) {p : Nat} (body : BitVec 512) (hstate : (d.port p).state = .rtt) (hcount : (d.port p).rttCount < 16) :
    xCreditInit p body m d = d.setPort p ((d.port p).credited (creditsOf body (List.range 8))) := by
  refine (if_neg (by simp [hstate])).trans ?_
  exact credited_rttDone (creditsOf body (List.range 8)) hcount

theorem credits_in {s : State} {p : Fin 8} {body : BitVec 512} (hstate : (s.dev.port p).state = .rtt) (hcount : (s.dev.port p).rttCount < 16) :
    Ends (.creditInit p body) s (fun u => (u.dev.port p).state = .rtt ∧ (u.dev.port p).creditsIn = true ∧
      (∀ v, v < 8 → mget 0 (u.dev.port p).credits (2 * v) = msg body (4 * v) 2 ∧ mget 0 (u.dev.port p).credits (2 * v + 1) = msg body (4 * v + 2) 2) ∧
      PortFrame s u p) := by
  have hx := xCreditInit_early (d := s.begin) s.mem body hstate hcount
  have hcredits := fun v => mget_creditsOf body 8 (v := v)
  generalize creditsOf body (List.range 8) = cs at hx hcredits
  refine ends_of_port rfl hx (portBecomes_setPort _ _ _) (fun u hu hframe => ?_)
  rw [hu]
  exact ⟨hstate, rfl, hcredits, hframe⟩

/-- Settles O29, a lemma for each event of Table 7.7; the order of the exchanges and of CREDIT_INIT is log entry 38's. -/
theorem fabricPortsTrain : Obligations.FabricPortsTrain := by
  refine ⟨fun s p hstate hfail hmay => detect_entered (x := xPortEnable p) rfl ?_, fun s p hstate hfail hmay => detect_entered (x := xPortRetryTimer p) rfl ?_,
    fun s p lanes hstate hlanes => quiet_of_run (x := xSignalDetect p lanes) rfl ?_ rfl rfl,
    fun s p rx tx hstate => quiet_of_run (x := xPmaTrainDone p rx tx) rfl ?_ rfl rfl,
    fun _ _ _ hstate hrx htx => lock_done hstate hrx htx, fun _ _ _ hstate hlanes hqueues => lock_failed hstate hlanes hqueues,
    fun _ _ _ hstate hspur hvalid hnode hown hpeer => param_taken hstate hspur hvalid hnode hown hpeer,
    fun _ _ _ hstate htorus hvalid hnode hport => param_miswired hstate htorus hvalid hnode hport,
    fun _ _ _ _ hstate hsend => rtt_answered hstate hsend,
    fun _ _ _ _ hstate hsend hanswers hcredits => rtt_final hstate hsend hanswers hcredits,
    fun _ _ _ hstate hcount => credits_in hstate hcount,
    fun s p hqueues hstate => takesDown_of_portDown (x := xPortStateTimeout p) (reason := 0) (failed := true) rfl ?_ hqueues⟩
  · have hst : (s.begin.port p).state = .down := hstate
    have hfa : (s.begin.port p).failures = 0 := hfail
    have hma : s.begin.portMayTrain p = true := hmay
    simp only [xPortEnable, hst, hfa, hma]
    rfl
  · have hst : (s.begin.port p).state = .down := hstate
    have hfa : 1 ≤ (s.begin.port p).failures := hfail
    have hma : s.begin.portMayTrain p = true := hmay
    simp only [xPortRetryTimer, hst, hfa, hma]
    rfl
  · have hst : (s.begin.port p).state = .detect := hstate
    simp only [xSignalDetect, hst, hlanes]
    rfl
  · have hst : (s.begin.port p).state = .pmaTrain := hstate
    simp only [xPmaTrainDone, hst]
    rfl
  · have hst : (s.begin.port p).state = .pmaTrain := hstate
    simp only [xPortStateTimeout, hst]

end Sys2Proof.Machine
end

section
/-! Ports in service (R205, R208 to R210, R214 to R217, R243, R245). -/

namespace Sys2Proof.Machine

open Sys2Proof.Claims (Ends Quiet PortFrame TakesDown)

/-! What is shown outside stays shown. -/

theorem ringPut_out (d : Dev) (c : Nat) (e : Event) : (d.ringPut c e).out = d.out := by
  have hring : ∀ (d : Dev) (r : EventRing), (d.setEventRing c r).out = d.out := fun d r => by
    unfold Dev.setEventRing
    split <;> rfl
  unfold Dev.ringPut
  extract_lets r at_ used n d'
  split
  · exact hring d _
  · obtain ⟨g, l, h⟩ := d'.hwr_traffic at_.port (if c = 64 then 0 else c) (at_.base + n % at_.size * 32 + 8) (eventBody e r.withheld) .evtBody c n
    rw [h]
    exact hring d _

theorem event_out (d : Dev) (cs : List Nat) (code sev d0 d1 unit : Nat) {o : Out} (ho : o ∈ d.out) : o ∈ (d.event cs code sev d0 d1 unit).out := by
  have hput : ∀ (d : Dev) (o' : Out) (c : Nat) (e : Event), o ∈ d.out → o ∈ ((d.emit o').ringPut c e).out := fun d o' c e h => by
    rw [ringPut_out]
    exact List.mem_append_left _ h
  unfold Dev.event
  extract_lets bound pkg e d' c0
  have hrings : o ∈ d'.out := Dev.each_invariant (P := fun x => o ∈ x.out) (fun x c _ hx => hput x _ c _ hx) ho
  split
  · exact hput _ _ _ _ hrings
  · exact hrings

theorem noteDegraded_out (d : Dev) {o : Out} (ho : o ∈ d.out) : o ∈ d.noteDegraded.out := by
  rcases d.noteDegraded_cases with h | ⟨x, r, h⟩
  · rw [h]
    exact ho
  · rw [h]
    exact event_out _ _ _ _ _ _ _ ho

theorem loseParent_out (d : Dev) {o : Out} (ho : o ∈ d.out) : o ∈ d.loseParent.out := by
  unfold Dev.loseParent
  split
  · exact event_out _ _ _ _ _ _ _ ho
  · exact ho

theorem stopPort_out {d : Dev} {p : Nat} (h : (d.port p).queues = []) (st : PortState) (f : Nat) {o : Out} (ho : o ∈ d.out) :
    o ∈ (d.stopPort p st f).out := by
  have hqueued : (d.port p).queued = [] := by rw [FabPort.queued, h]; rfl
  unfold Dev.stopPort
  extract_lets x d' d'' d'''
  have hd'' : d'' = d' := by
    unfold d''
    rw [hqueued]
    rfl
  refine noteDegraded_out _ ?_
  unfold d'''
  rw [hd'']
  split
  · exact loseParent_out _ ho
  · exact ho

theorem portDown_out {d : Dev} {p : Nat} (h : (d.port p).queues = []) (reason : Nat) (failed : Bool) {o : Out} (ho : o ∈ d.out) :
    o ∈ (d.portDown p reason failed).out := by
  unfold Dev.portDown
  extract_lets x f
  split
  · exact event_out _ _ _ _ _ _ _ (stopPort_out h _ _ ho)
  · exact stopPort_out h _ _ ho

/-! Codewords received (R205, R209). -/

theorem locked_of_carries {st : PortState} (h : st.carries = true) : st.locked = true := by
  cases st with
  | active | repair => rfl
  | _ => cases h

theorem codeword_lost {s : State} {p : Fin 8} (hlocked : (s.dev.port p).state.locked = true)
    (hbucket : ((s.begin.bumpPort p Reg.fabFecUncorr).charge 6 p false [] 0).2 = false) :
    Ends (.codewordReceive p .uncorrectable) s (fun u => u.dev.port p = s.dev.port p ∧
      u.dev.count (Reg.fabFecUncorr (portDie p) (p % 4)) = s.dev.count (Reg.fabFecUncorr (portDie p) (p % 4)) + 1 ∧ PortFrame s u p) := by
  obtain ⟨x, hx⟩ := Dev.charge_below rfl hbucket
  have heffect : xCodewordReceive p .uncorrectable s.mem s.begin = (s.begin.bumpPort p Reg.fabFecUncorr).withRas x := by
    have hlo : (s.begin.port p).state.locked = true := hlocked
    have hlost : s.begin.codewordLost p = (s.begin.bumpPort p Reg.fabFecUncorr).withRas x := by
      obtain ⟨y, hy⟩ : ∃ y, y = (s.begin.bumpPort p Reg.fabFecUncorr).charge 6 p false [] 0 := ⟨_, rfl⟩
      rw [← hy] at hbucket hx
      simp only [Dev.codewordLost, ← hy, hbucket]
      exact hx
    rw [← hlost]
    exact if_neg (by rw [hlo]; exact Bool.false_ne_true)
  have hbecomes : PortBecomes s.begin ((s.begin.bumpPort p Reg.fabFecUncorr).withRas x) p (s.begin.port p) := (portBecomes_refl _ _).step rfl
  have hcount : ((s.begin.bumpPort p Reg.fabFecUncorr).withRas x).count (Reg.fabFecUncorr (portDie p) (p % 4))
      = s.dev.count (Reg.fabFecUncorr (portDie p) (p % 4)) + 1 := (Dev.count_bumpN _ _ _ _).trans (if_pos rfl)
  exact ends_of_run rfl heffect ⟨(Dev.port_commit _ _ _).trans hbecomes.same, hcount, hbecomes.frame⟩

theorem fb_fb {w : Nat} (v : BitVec w) {hi lo hi' lo' : Nat} (h : lo + hi' ≤ hi) : fld (fb v hi lo) hi' lo' = fb v (lo + hi') (lo + lo') := by
  rw [fb, fld, fld, fb, fld]
  refine Nat.eq_of_testBit_eq fun i => ?_
  simp only [Nat.testBit_mod_two_pow, Nat.testBit_shiftRight]
  by_cases hlow : i < hi' + 1 - lo'
  · have h1 : i < lo + hi' + 1 - (lo + lo') := by omega
    have h2 : lo' + i < hi + 1 - lo := by omega
    simp only [hlow, h1, h2, decide_true, Bool.true_and]
    rw [Nat.add_assoc]
  · have h1 : ¬ i < lo + hi' + 1 - (lo + lo') := by omega
    simp only [hlow, h1, decide_false, Bool.false_and]

/-- What an IDLE block says of a port in REPAIR. -/
def FabPort.heardIdle (x : FabPort) (bits : BitVec 5140) : FabPort :=
  { x with rxCw := BitVec.ofNat 14 (fb bits 13 0), peerPorts := BitVec.ofNat 8 (fb bits 123 116), peerNeigh := BitVec.ofNat 48 (fb bits 171 124) }

theorem takeIdle_repair {d : Dev} {p : Nat} (body : Nat) (h : (d.port p).state = .repair) : d.takeIdle p body
    = d.setPort p { d.port p with peerPorts := BitVec.ofNat 8 (fld body 103 96), peerNeigh := BitVec.ofNat 48 (fld body 151 104) } := by
  unfold Dev.takeIdle
  extract_lets x d'
  rw [if_neg (by simp [x, h, PortState.carries]), if_neg (by simp [x, h])]

theorem idle_received {s : State} {p : Fin 8} {bits : BitVec 5140} (hstate : (s.dev.port p).state = .repair) (hblock : fb bits 19 18 = 1) :
    Ends (.codewordReceive p (.data bits [])) s (fun u => u.dev.port p = { s.dev.port p with rxCw := BitVec.ofNat 14 (fb bits 13 0), peerPorts := BitVec.ofNat 8 (fb bits 123 116), peerNeigh := BitVec.ofNat 48 (fb bits 171 124) } ∧
      PortFrame s u p ∧ u.dev.counters = s.dev.counters) := by
  have htype : fld (fb bits 19 0) 19 18 = 1 := (fb_fb bits (by decide)).trans hblock
  obtain ⟨e, he⟩ : ∃ e, e = s.begin.setPort p { s.begin.port p with rxCw := BitVec.ofNat 14 (fb bits 13 0) } := ⟨_, rfl⟩
  have hport : e.port p = { s.begin.port p with rxCw := BitVec.ofNat 14 (fb bits 13 0) } := by rw [he, port_setPort, if_pos rfl]
  have hx : xCodewordReceive p (.data bits []) s.mem s.begin = e.setPort p { e.port p with peerPorts := BitVec.ofNat 8 (fb bits 123 116), peerNeigh := BitVec.ofNat 48 (fb bits 171 124) } := by
    have hidle := takeIdle_repair (d := e) (p := p) (fb bits 5139 20) (by rw [hport]; exact hstate)
    rw [fb_fb bits (by decide), fb_fb bits (by decide)] at hidle
    have hcw : fld (fb bits 19 0) 13 0 = fb bits 13 0 := fb_fb bits (by decide)
    rw [← hcw] at he
    have hlo : ¬ (!(s.begin.port p).state.locked) = true := by
      have hst : (s.begin.port p).state = .repair := hstate
      rw [hst]
      decide
    unfold xCodewordReceive
    rw [if_neg hlo]
    dsimp only
    rw [← he, htype]
    exact hidle
  have hbecomes : PortBecomes s.begin (e.setPort p { e.port p with peerPorts := BitVec.ofNat 8 (fb bits 123 116), peerNeigh := BitVec.ofNat 48 (fb bits 171 124) }) p
      ((s.dev.port p).heardIdle bits) := by
    rw [hport, he]
    exact (portBecomes_setPort _ _ _).setPort _
  have hcounters : (e.setPort p { e.port p with peerPorts := BitVec.ofNat 8 (fb bits 123 116), peerNeigh := BitVec.ofNat 48 (fb bits 171 124) }).counters
      = s.dev.counters := by rw [he]; rfl
  exact ends_of_run rfl hx ⟨(Dev.port_commit _ _ _).trans hbecomes.same, hbecomes.frame, hcounters⟩

/-! Codewords sent (R206, R209, R210). -/

/-- A port that has sent one more codeword of type `bt`. -/
def FabPort.sent (x : FabPort) (bt : Nat) : FabPort :=
  { x with cwSeq := x.cwSeq + 1, sinceIdle := if bt = 1 then 0 else x.sinceIdle + 1, sinceLink := if bt = 2 then 0 else x.sinceLink + 1 }

theorem sendBlock_eq (d : Dev) (p bt sub body : Nat) :
    d.sendBlock p bt sub body = (d.setPort p ((d.port p).sent bt)).emit (.codeword p (blockBits bt sub (d.port p).cwSeq.toNat body)) := rfl

theorem sendBlock_becomes {d e : Dev} {p : Nat} {x : FabPort} (h : PortBecomes d e p x) (bt sub body : Nat) :
    PortBecomes d (e.sendBlock p bt sub body) p (x.sent bt) := by
  rw [sendBlock_eq, h.same]
  exact (h.setPort (x.sent bt)).step rfl

/-- An IDLE block does not say whether a tick is due. -/
theorem idleBody_congr {d e : Dev} (hstate : ∀ q, (e.port q).state = (d.port q).state) (hpeer : ∀ q, (e.port q).peerPorts = (d.port q).peerPorts)
    (hregs : e.regs = d.regs) (hlode : e.lode = d.lode) : e.idleBody = d.idleBody := by
  have hown : e.ownPorts = d.ownPorts := by
    have hactive : e.portActive = d.portActive := funext fun q => by rw [Dev.portActive, Dev.portActive, hstate]
    rw [Dev.ownPorts, Dev.ownPorts, hactive]
  have hnode : e.node = d.node := by
    rw [Dev.node, Dev.rf, Dev.reg, hregs]
    rfl
  have hnow : e.now = d.now := by
    rw [Dev.now, hlode]
    rfl
  simp only [Dev.idleBody, hown, hnode, hnow, hlode, hpeer]

/-- A port on which the tick has been marked. -/
def FabPort.ticked (x : FabPort) : FabPort := { x with state := .active, tickDue := false }

theorem idleBody_ticked {d : Dev} {p : Nat} (hstate : (d.port p).state = .active) : (d.setPort p (d.port p).ticked).idleBody = d.idleBody := by
  have hbecomes := portBecomes_setPort d p (d.port p).ticked
  refine idleBody_congr (fun q => ?_) (fun q => ?_) rfl rfl
  · rw [hbecomes.port]
    split
    next h => rw [h]; exact hstate.symm
    · rfl
  · rw [hbecomes.port]
    split
    next h => rw [h]; rfl
    · rfl

theorem xCodewordSend_tick {d : Dev} (m : Mem) {p : Nat} (hstate : (d.port p).state = .active) (hdue : (d.port p).tickDue = true) :
    xCodewordSend p m d = (d.setPort p (d.port p).ticked).sendBlock p 1 0 d.idleBody := by
  rw [← idleBody_ticked hstate]
  unfold xCodewordSend
  extract_lets x idle
  rw [show x.state = .active from hstate]
  exact if_pos hdue

theorem sendBlock_shows (d : Dev) (p bt sub body : Nat) : (d.sendBlock p bt sub body).counters = d.counters ∧
    (d.sendBlock p bt sub body).out = d.out ++ [.codeword p (blockBits bt sub (d.port p).cwSeq.toNat body)] := ⟨rfl, rfl⟩

theorem idle_sent {s : State} {p : Fin 8} (hstate : (s.dev.port p).state = .active) (hdue : (s.dev.port p).tickDue = true) :
    Ends (.codewordSend p) s (fun u => (u.dev.port p).tickDue = false ∧ (u.dev.port p).sinceIdle = 0 ∧
      (u.dev.port p).cwSeq = (s.dev.port p).cwSeq + 1 ∧
      u.dev.out = [.codeword p (blockBits 1 0 (s.dev.port p).cwSeq.toNat s.dev.idleBody)] ∧ PortFrame s u p ∧ u.dev.counters = s.dev.counters) := by
  have hx := xCodewordSend_tick (d := s.begin) s.mem hstate hdue
  have hbecomes := portBecomes_setPort s.begin p (s.begin.port p).ticked
  have hsent := sendBlock_becomes hbecomes 1 0 s.begin.idleBody
  obtain ⟨hcounters, hout⟩ := sendBlock_shows (s.begin.setPort p (s.begin.port p).ticked) p 1 0 s.begin.idleBody
  have hcw : ((s.begin.setPort p (s.begin.port p).ticked).port p).cwSeq = (s.dev.port p).cwSeq := by
    rw [hbecomes.same]
    rfl
  rw [hcw, Dev.setPort_out] at hout
  rw [Dev.setPort_counters] at hcounters
  have hport := hsent.same
  generalize (s.begin.setPort p (s.begin.port p).ticked).sendBlock p 1 0 s.begin.idleBody = e at hx hsent hcounters hout hport
  refine ends_of_run rfl hx ⟨?_, ?_, ?_, hout, hsent.frame, hcounters⟩
  all_goals rw [Dev.port_commit, hport]; rfl

theorem training_sent {s : State} {p : Fin 8} :
    ((s.dev.port p).state = .laneLock ∨ ((s.dev.port p).state = .rtt ∧ (s.dev.port p).linkQueue = []) →
      Quiet (.codewordSend p) s (s.begin.sendBlock p 1 0 s.dev.idleBody)) ∧
    ((s.dev.port p).state = .param → (s.dev.port p).linkQueue = [] →
      Quiet (.codewordSend p) s (s.begin.sendBlock p 2 0 (leOf (s.dev.paramBytes p)))) := by
  refine ⟨fun h => quiet_of_run (x := xCodewordSend p) rfl ?_ rfl rfl, fun hstate hqueue => quiet_of_run (x := xCodewordSend p) rfl ?_ rfl rfl⟩
  · rcases h with hstate | ⟨hstate, hqueue⟩
    · have hst : (s.begin.port p).state = .laneLock := hstate
      unfold xCodewordSend
      extract_lets x idle
      rw [show x.state = .laneLock from hst]
      rfl
    · have hst : (s.begin.port p).state = .rtt := hstate
      have hq : (s.begin.port p).linkQueue.isEmpty = true := List.isEmpty_iff.mpr hqueue
      unfold xCodewordSend
      extract_lets x idle
      rw [show x.state = .rtt from hst]
      exact if_pos hq
  · have hst : (s.begin.port p).state = .param := hstate
    have hq : (s.begin.port p).linkQueue.isEmpty = true := List.isEmpty_iff.mpr hqueue
    unfold xCodewordSend
    extract_lets x idle
    rw [show x.state = .param from hst]
    exact if_pos hq

/-! A port that goes DOWN (R208, R217, R243). -/

theorem retrain_becomes {d : Dev} {p : Nat} (hlocked : (d.port p).state.locked = true) (h : (d.port p).queues = []) (reason : Nat) :
    PortBecomes d (d.retrain p reason) p (((d.port p).sent 2).stoppedAs .down 0) := by
  have hsent := sendBlock_becomes (portBecomes_refl d p) 2 5 reason
  have hdown := portDown_becomes (d := d.sendBlock p 2 5 reason) (p := p) (by rw [hsent.same]; exact h) reason false
  rw [hsent.same] at hdown
  unfold Dev.retrain
  rw [if_pos hlocked]
  exact hsent.trans hdown

theorem acks_missing {s : State} {p : Fin 8} (hcarries : (s.dev.port p).state.carries = true) (hunacked : (s.dev.port p).unacked ≠ [])
    (hqueues : (s.dev.port p).queues = []) :
    Ends (.flitAckTimeout p) s (fun u => (u.dev.port p).state = .down ∧ (u.dev.port p).failures = 0 ∧ (u.dev.port p).unacked = [] ∧
      .codeword p (blockBits 2 5 (s.dev.port p).cwSeq.toNat 1) ∈ u.dev.out ∧ PortFrame s u p) := by
  have hlocked := locked_of_carries hcarries
  have hx : xFlitAckTimeout p s.mem s.begin = s.begin.retrain p rReplay := by
    have hc : (s.begin.port p).state.carries = true := hcarries
    have hu : (s.begin.port p).unacked.isEmpty = false := List.isEmpty_eq_false_iff.mpr hunacked
    refine if_pos ?_
    rw [hc, hu]
    rfl
  have hbecomes := retrain_becomes (d := s.begin) hlocked hqueues rReplay
  have hout : .codeword p (blockBits 2 5 (s.dev.port p).cwSeq.toNat 1) ∈ (s.begin.retrain p rReplay).out := by
    have hsent := sendBlock_becomes (portBecomes_refl s.begin p) 2 5 rReplay
    unfold Dev.retrain
    rw [if_pos (show (s.begin.port p).state.locked = true from hlocked)]
    exact portDown_out (by rw [hsent.same]; exact hqueues) _ _ (List.mem_singleton.mpr rfl)
  have hport : (s.commit (s.begin.retrain p rReplay)).dev.port p = _ := (Dev.port_commit _ _ _).trans hbecomes.same
  generalize s.begin.retrain p rReplay = e at hx hbecomes hout hport
  refine ends_of_run rfl hx ⟨?_, ?_, ?_, hout, hbecomes.frame⟩
  all_goals rw [hport]; rfl

theorem taken_down {s : State} {p : Fin 8} {body : BitVec 512} (hlocked : (s.dev.port p).state.locked = true) (hqueues : (s.dev.port p).queues = []) :
    TakesDown (.linkRetrain p body) s p 0 ∧ TakesDown (.linkDown p body) s p ((s.dev.port p).failures + 1) ∧
    TakesDown (.codewordLockLoss p) s p ((s.dev.port p).failures + 1) := by
  have hlo : (s.begin.port p).state.locked = true := hlocked
  exact ⟨takesDown_of_portDown (x := xLinkRetrain p body) (failed := false) rfl (if_pos hlo) hqueues,
    takesDown_of_portDown (x := xLinkDown p body) (failed := true) rfl (if_pos hlo) hqueues,
    takesDown_of_portDown (x := xCodewordLockLoss p) (failed := true) rfl (if_pos hlo) hqueues⟩

theorem counter_exhausted {s : State} {p : Fin 8} (hcarries : (s.dev.port p).state.carries = true) (hon : (s.dev.port p).encOn = true)
    (hcounter : 2 ^ 48 - 1 ≤ (s.dev.port p).txCtr) (hqueues : (s.dev.port p).queues = []) :
    Ends (.flitCtrExhausted p) s (fun u => (u.dev.port p).state = .down ∧ (u.dev.port p).keys0 = none ∧ (u.dev.port p).keys1 = none ∧
      (u.dev.port p).failures = (s.dev.port p).failures + 1 ∧ PortFrame s u p) := by
  have hx : xFlitCtrExhausted p s.mem s.begin
      = ((s.begin.event [] 0x0517 2 p 0 0).sendBlock p 2 7 rKeyExpired).portDown p rKeyExpired true := by
    have hc : (s.begin.port p).state.carries = true := hcarries
    have ho : (s.begin.port p).encOn = true := hon
    have hco : 2 ^ 48 - 1 ≤ (s.begin.port p).txCtr := hcounter
    refine if_pos ?_
    rw [hc, ho, decide_eq_true hco]
    rfl
  have hsent := sendBlock_becomes ((portBecomes_refl s.begin p).step (event_withPorts _ [] 0x0517 2 p 0 0)) 2 7 rKeyExpired
  have hdown := portDown_becomes (d := (s.begin.event [] 0x0517 2 p 0 0).sendBlock p 2 7 rKeyExpired) (p := p) (by rw [hsent.same]; exact hqueues)
    rKeyExpired true
  rw [hsent.same] at hdown
  have hkeep : (!(((s.begin.port p).sent 2).state == .active || ((s.begin.port p).sent 2).state == .repair)) = false := by
    rw [Bool.not_eq_false']
    exact hcarries
  refine ends_of_port rfl hx (hsent.trans hdown) (fun u hport hframe => ?_)
  rw [hport]
  refine ⟨rfl, ?_, ?_, rfl, hframe⟩
  · exact if_neg (by rw [hkeep]; exact Bool.false_ne_true)
  · exact if_neg (by rw [hkeep]; exact Bool.false_ne_true)

/-! Lanes (R214 to R216, Table 7.8). -/

theorem testBit_foldl_lanes (l : List Nat) (a j : Nat) : (l.foldl (fun a i => a ||| 2 ^ i) a).testBit j = (a.testBit j || l.contains j) := by
  induction l generalizing a with
  | nil => simp
  | cons i l ih =>
    rw [List.foldl_cons, ih, Nat.testBit_or, Nat.testBit_two_pow, List.contains_cons, Bool.or_assoc]
    congr 2
    rw [Bool.eq_iff_iff, decide_eq_true_iff, beq_iff_eq, eq_comm]

theorem getLsbD_laneSet (l : List Nat) (j : Nat) : (laneSet l).getLsbD j = (decide (j < 18) && l.contains j) := by
  rw [laneSet, BitVec.getLsbD_ofNat, testBit_foldl_lanes, Nat.zero_testBit, Bool.false_or]

theorem mem_lanesOf {v : BitVec 18} {j : Nat} : j ∈ lanesOf v ↔ j < 18 ∧ v.getLsbD j = true := by
  rw [lanesOf, List.mem_filter, List.mem_range]

/-- The lanes of a set but one. -/
theorem getLsbD_without (v : BitVec 18) (old j : Nat) :
    (laneSet ((lanesOf v).filter (· != old))).getLsbD j = (decide (j < 18) && v.getLsbD j && j != old) := by
  rw [getLsbD_laneSet]
  by_cases hj : j < 18
  · rw [decide_eq_true hj, Bool.true_and, Bool.true_and, Bool.eq_iff_iff, List.contains_iff_mem, List.mem_filter, mem_lanesOf, Bool.and_eq_true]
    tauto
  · rw [decide_eq_false hj]
    rfl

theorem swap_scheduled {s : State} {p : Fin 8} {body : BitVec 512} {old : Nat} (hcarries : (s.dev.port p).state.carries = true) (hold : old < 18)
    (hnew : msg body 1 1 < 18) (hlane : (lanesOf (s.dev.port p).txUse)[msg body 0 1]? = some old) :
    Ends (.laneSwap p body) s (fun u => (u.dev.port p).changes.length = (s.dev.port p).changes.length + 1 ∧
      (u.dev.port p).txUse = (s.dev.port p).txUse ∧ (u.dev.port p).txService.getLsbD old = false ∧
      (u.dev.port p).state = (s.dev.port p).state ∧ PortFrame s u p ∧ u.dev.counters = s.dev.counters) := by
  have hold' : (lanesOf (s.begin.port p).txUse).getD (msg body 0 1) 18 = old := by
    rw [List.getD_eq_getElem?_getD]
    exact (congrArg (fun o => Option.getD o 18) hlane)
  obtain ⟨c, hx⟩ : ∃ c : LaneChange, xLaneSwap p body s.mem s.begin = s.begin.setPort p { s.begin.port p with
      txService := laneSet ((lanesOf (s.begin.port p).txService).filter (· != old)), changes := (s.begin.port p).changes ++ [c] } := by
    have hc : (s.begin.port p).state.carries = true := hcarries
    unfold xLaneSwap
    extract_lets x o new lanes
    have ho : o = old := hold'
    rw [if_neg (by simp only [x, hc, ho, new]; simp; omega), ho]
    exact ⟨_, rfl⟩
  have hbecomes := portBecomes_setPort s.begin p { s.begin.port p with
      txService := laneSet ((lanesOf (s.begin.port p).txService).filter (· != old)), changes := (s.begin.port p).changes ++ [c] }
  refine ends_of_run rfl hx ⟨?_, ?_, ?_, ?_, hbecomes.frame, rfl⟩
  all_goals rw [Dev.port_commit, hbecomes.same]
  · exact List.length_append
  · rfl
  · rw [getLsbD_without, bne_self_eq_false, Bool.and_false]
  · rfl

theorem narrow_taken {s : State} {p : Fin 8} {body : BitVec 512} (hcarries : (s.dev.port p).state.carries = true)
    (height : laneTotal (BitVec.ofNat 18 (msg body 0 4)) = 8) :
    Quiet (.narrow p body) s (s.begin.setPort p { s.dev.port p with changes := (s.dev.port p).changes ++ [{ atCw := BitVec.ofNat 14 (msg body 4 2), lanes := BitVec.ofNat 18 (msg body 0 4), narrow := true, logical := 0, newPhys := 0, rx := false }] }) := by
  refine quiet_of_run (x := xNarrow p body) rfl (if_neg ?_) rfl rfl
  have hc : (s.begin.port p).state.carries = true := hcarries
  rw [hc, height]
  decide

theorem narrow_ignored {s : State} {p : Fin 8} {body : BitVec 512} (hnot : laneTotal (BitVec.ofNat 18 (msg body 0 4)) ≠ 8) :
    Quiet (.narrow p body) s s.begin := by
  refine quiet_of_run (x := xNarrow p body) rfl (if_pos ?_) rfl rfl
  rw [bne_iff_ne.mpr hnot, Bool.or_true]

theorem spare_lost {s : State} {p : Fin 8} {lane : Fin 18} (hcarries : (s.dev.port p).state.carries = true)
    (hservice : (s.dev.port p).rxService.getLsbD lane = true) (hspare : (s.dev.port p).rxUse.getLsbD lane = false) :
    Ends (.laneLockLoss p lane) s (fun u => (u.dev.port p).rxService.getLsbD lane = false ∧
      (∀ j, j < 18 → j ≠ lane.val → (u.dev.port p).rxService.getLsbD j = (s.dev.port p).rxService.getLsbD j) ∧
      (u.dev.port p).rxUse = (s.dev.port p).rxUse ∧ (u.dev.port p).state = (s.dev.port p).state ∧ PortFrame s u p) := by
  obtain ⟨x, hcharge, -⟩ := s.begin.charge_uncorrectable (cls := 5) (unit := fabLaneUnit p lane) rfl [] 0
  obtain ⟨e, he⟩ : ∃ e, e = ((s.begin.withRas x).bump (Reg.rasLasting 5)).event [] 0x0B01 1 5 (fabLaneUnit p lane) 0 := ⟨_, rfl⟩
  have hkept : PortBecomes s.begin e p (s.begin.port p) := by
    rw [he]
    exact (portBecomes_refl s.begin p).step ((event_withPorts _ _ _ _ _ _ _).trans rfl)
  obtain ⟨y, hy⟩ : ∃ y : FabPort, y = { s.begin.port p with rxService := laneSet ((lanesOf (s.begin.port p).rxService).filter (· != lane.val)) } := ⟨_, rfl⟩
  have hx : xLaneLockLoss p lane s.mem s.begin = (e.setPort p y).noteDegraded := by
    have hc : (s.begin.port p).state.carries = true := hcarries
    have hse : (s.begin.port p).rxService.getLsbD lane = true := hservice
    have hsp : (s.begin.port p).rxUse.getLsbD lane = false := hspare
    have hout : e.laneOut p lane = (e.setPort p y).noteDegraded := by
      unfold Dev.laneOut
      rw [hkept.same]
      extract_lets z service spares at_ z'
      rw [if_neg (by rw [hse, hc]; decide), if_pos (by rw [show z'.rxUse.getLsbD lane = false from hsp]; decide), hy]
    have hlane : s.begin.chargeLane p lane true = e.laneOut p lane := by
      unfold Dev.chargeLane
      rw [hcharge, he]
      rfl
    rw [← hout, ← hlane]
    refine if_pos ?_
    rw [hc, hse]
    rfl
  refine ends_of_port rfl hx ((hkept.setPort y).step (noteDegraded_withPorts _)) (fun u hport hframe => ?_)
  rw [hport, hy]
  refine ⟨?_, fun j hj hne => ?_, rfl, rfl, hframe⟩
  · rw [getLsbD_without, bne_self_eq_false, Bool.and_false]
  · rw [getLsbD_without, decide_eq_true hj, bne_iff_ne.mpr hne, Bool.true_and, Bool.and_true]
    rfl

theorem lanes_changed {s : State} {p : Fin 8} {c : LaneChange} {r : List LaneChange} (hcarries : (s.dev.port p).state.carries = true)
    (hchanges : (s.dev.port p).changes = c :: r) :
    Ends (.laneSetChange p) s (fun u => (u.dev.port p).state = .repair ∧ (u.dev.port p).changes = r ∧
      (u.dev.port p).repairing = (s.dev.port p).repairing ++ [c] ∧
      (c.rx = true → (u.dev.port p).rxUse = c.lanes ∧ (u.dev.port p).txUse = (s.dev.port p).txUse) ∧
      (c.rx = false → (u.dev.port p).txUse = c.lanes ∧ (u.dev.port p).rxUse = (s.dev.port p).rxUse) ∧
      PortFrame s u p ∧ u.dev.counters = s.dev.counters) := by
  obtain ⟨x, hx⟩ : ∃ x : FabPort, x = { s.begin.port p with state := .repair, changes := r, repairing := (s.begin.port p).repairing ++ [c] } := ⟨_, rfl⟩
  have heffect : xLaneSetChange p s.mem s.begin = s.begin.setPort p (if c.rx then { x with rxUse := c.lanes } else { x with txUse := c.lanes }) := by
    have hc : (s.begin.port p).state.carries = true := hcarries
    have hch : (s.begin.port p).changes = c :: r := hchanges
    unfold xLaneSetChange
    extract_lets z
    rw [show z.changes = c :: r from hch, hx]
    exact if_neg (by rw [hc]; decide)
  have hbecomes := portBecomes_setPort s.begin p (if c.rx then { x with rxUse := c.lanes } else { x with txUse := c.lanes })
  refine ends_of_run rfl heffect ⟨?_, ?_, ?_, fun hrx => ?_, fun hrx => ?_, hbecomes.frame, rfl⟩
  all_goals rw [Dev.port_commit, hbecomes.same]
  · split <;> rw [hx]
  · split <;> rw [hx]
  · split <;> rw [hx] <;> rfl
  · rw [if_pos hrx, hx]
    exact ⟨rfl, rfl⟩
  · rw [if_neg (by rw [hrx]; exact Bool.false_ne_true), hx]
    exact ⟨rfl, rfl⟩

/-- One lane change is counted and recorded. -/
def Dev.changeCounted (p : Nat) (d : Dev) (c : LaneChange) : Dev :=
  let d := d.bumpPort p Reg.fabLaneSwaps
  if c.narrow then d.event [] 0x0514 2 p 0 0 else d.event [] 0x0513 1 p (c.logical + c.newPhys * 256) 0

theorem dieCounter_ge (i q : Nat) : 0x10000000 ≤ Reg.fabLaneSwaps i q := by
  unfold Reg.fabLaneSwaps dieBlock indBlock
  omega

theorem changeCounted_count (p : Nat) (d : Dev) (c : LaneChange) :
    (d.changeCounted p c).count (Reg.fabLaneSwaps (portDie p) (p % 4)) = d.count (Reg.fabLaneSwaps (portDie p) (p % 4)) + 1 := by
  have hbump : (d.bumpPort p Reg.fabLaneSwaps).count (Reg.fabLaneSwaps (portDie p) (p % 4)) = d.count (Reg.fabLaneSwaps (portDie p) (p % 4)) + 1 :=
    (Dev.count_bumpN _ _ _ _).trans (if_pos rfl)
  unfold Dev.changeCounted
  extract_lets d'
  split
  · exact (Dev.count_event_of_le _ _ _ _ _ _ _ (dieCounter_ge _ _) (fun _ h => absurd h List.not_mem_nil)).trans hbump
  · exact (Dev.count_event_of_le _ _ _ _ _ _ _ (dieCounter_ge _ _) (fun _ h => absurd h List.not_mem_nil)).trans hbump

theorem changeCounted_withPorts (p : Nat) (d : Dev) (c : LaneChange) : (d.changeCounted p c).withPorts = d.withPorts := by
  unfold Dev.changeCounted
  extract_lets d'
  split
  · exact event_withPorts _ _ _ _ _ _ _
  · exact event_withPorts _ _ _ _ _ _ _

theorem changesCounted_count (p : Nat) (l : List LaneChange) (d : Dev) :
    (d.each l (Dev.changeCounted p)).count (Reg.fabLaneSwaps (portDie p) (p % 4))
      = d.count (Reg.fabLaneSwaps (portDie p) (p % 4)) + BitVec.ofNat 48 l.length := by
  induction l generalizing d with
  | nil => exact (BitVec.add_zero _).symm
  | cons c l ih =>
    rw [Dev.each_cons, ih, changeCounted_count, List.length_cons, BitVec.add_assoc, BitVec.ofNat_add, BitVec.add_comm 1]
    rfl

theorem noteDegraded_count (d : Dev) {k : Nat} (hk : FreeOfEvents k) : d.noteDegraded.count k = d.count k := by
  rcases d.noteDegraded_cases with h | ⟨x, r, h⟩
  · rw [h]
  · rw [h]
    exact Dev.count_event_package _ _ _ _ _ _ hk

theorem freeOfEvents_of_ge {k : Nat} (hk : 0x10000000 ≤ k) : FreeOfEvents k := by
  refine ⟨?_, ?_⟩
  · unfold Reg.devEvtLost; omega
  · unfold Reg.ctxEvtLost ctxWindow; omega

theorem lock_regained {s : State} {p : Fin 8} (hstate : (s.dev.port p).state = .repair) :
    Ends (.codewordLockRegained p) s (fun u => u.dev.port p = { s.dev.port p with state := .active, repairing := [] } ∧
      u.dev.count (Reg.fabLaneSwaps (portDie p) (p % 4)) = s.dev.count (Reg.fabLaneSwaps (portDie p) (p % 4)) +
        BitVec.ofNat 48 (s.dev.port p).repairing.length ∧ PortFrame s u p) := by
  obtain ⟨y, hy⟩ : ∃ y : FabPort, y = { s.begin.port p with state := .active, repairing := [] } := ⟨_, rfl⟩
  have hx : xCodewordLockRegained p s.mem s.begin
      = ((s.begin.setPort p y).each (s.dev.port p).repairing (Dev.changeCounted p)).noteDegraded := by
    have hst : (s.begin.port p).state = .repair := hstate
    rw [hy]
    exact if_neg (by rw [hst]; decide)
  have hcounted : ((s.begin.setPort p y).each (s.dev.port p).repairing (Dev.changeCounted p)).withPorts = (s.begin.setPort p y).withPorts :=
    Dev.each_frame Dev.withPorts _ (changeCounted_withPorts p) _
  have hbecomes := ((portBecomes_setPort s.begin p y).step hcounted).step (noteDegraded_withPorts _)
  have hcount : ((s.begin.setPort p y).each (s.dev.port p).repairing (Dev.changeCounted p)).noteDegraded.count (Reg.fabLaneSwaps (portDie p) (p % 4))
      = s.dev.count (Reg.fabLaneSwaps (portDie p) (p % 4)) + BitVec.ofNat 48 (s.dev.port p).repairing.length := by
    rw [noteDegraded_count _ (freeOfEvents_of_ge (dieCounter_ge _ _)), changesCounted_count]
    rfl
  have hport : (s.commit ((s.begin.setPort p y).each (s.dev.port p).repairing (Dev.changeCounted p)).noteDegraded).dev.port p = y :=
    (Dev.port_commit _ _ _).trans hbecomes.same
  exact ends_of_run rfl hx ⟨hport.trans hy, hcount, hbecomes.frame⟩

theorem key_ready {s : State} {p : Fin 8} {body : BitVec 512} (hcarries : (s.dev.port p).state.carries = true) :
    Quiet (.keyReady p body) s (s.begin.setPort p { s.dev.port p with keyReady := some (body.getLsbD 0) }) :=
  quiet_of_run (x := xKeyReady p body) rfl (if_pos hcarries) rfl rfl

/-- Settles O30, a lemma for each event of a port in service; what a codeword and a flit must meet to be taken is log entry 36's. -/
theorem fabricPortsRun : Obligations.FabricPortsRun :=
  ⟨fun _ _ hlocked hbucket => codeword_lost hlocked hbucket, fun _ _ _ hstate hblock => idle_received hstate hblock,
   fun _ _ h => training_sent.1 h, fun _ _ hstate hqueue => training_sent.2 hstate hqueue, fun _ _ hstate hdue => idle_sent hstate hdue,
   fun _ _ hcarries hunacked hqueues => acks_missing hcarries hunacked hqueues, fun _ _ _ hlocked hqueues => taken_down hlocked hqueues,
   fun _ _ _ hcarries => key_ready hcarries,
   fun _ _ hcarries hon hcounter hqueues => counter_exhausted hcarries hon hcounter hqueues,
   fun _ _ _ _ hcarries hold hnew hlane => swap_scheduled hcarries hold hnew hlane,
   fun _ _ _ hcarries height => narrow_taken hcarries height, fun _ _ _ _ hnot => narrow_ignored hnot,
   fun _ _ _ hcarries hservice hspare => spare_lost hcarries hservice hspare,
   fun _ _ _ _ hcarries hchanges => lanes_changed hcarries hchanges, fun _ _ hstate => lock_regained hstate⟩

end Sys2Proof.Machine
end

section
/-! Fabric packets (R220 to R223): the fields of a header that is made, rewritten and answered, and what handing a packet to the router
changes. -/

namespace Sys2Proof.Machine

open Sys2Proof.Claims (Answers)

/-! Fields of a header. -/

/-- A field of a header beside the one that is replaced. -/
theorem withField_other (k : Packet) {hi lo : Nat} (x : Nat) {hi' lo' : Nat} (hlo : lo ≤ hi + 1) (hhi : hi + 1 ≤ 256)
    (h : hi + 1 ≤ lo' ∨ hi' + 1 ≤ lo) : fb (k.withField hi lo x).hdr hi' lo' = fb k.hdr hi' lo' := by
  have hword : (k.withField hi lo x).hdr.toNat = setFld k.hdr.toNat hi lo x := by
    rw [Packet.withField, BitVec.toNat_ofNat, Nat.mod_eq_of_lt (setFld_lt _ hi lo x 256 k.hdr.isLt hlo hhi)]
  rw [fb, fb, hword]
  rcases h with h | h
  · exact fld_setFld_above _ _ _ _ _ _ hlo h
  · exact fld_setFld_below _ _ _ _ _ _ h

theorem withField_same (k : Packet) {hi lo : Nat} (x : Nat) (hlo : lo ≤ hi + 1) (hhi : hi + 1 ≤ 256) :
    fb (k.withField hi lo x).hdr hi lo = x % 2 ^ (hi + 1 - lo) := fb_ofNat_setFld 256 _ hi lo x k.hdr.isLt hlo hhi

/-- The fields that a router and an answer read. -/
structure PacketReads (k : Packet) (op dst src tag gen ctx status : Nat) (data : List Byte) : Prop where
  opc : k.opc = op
  dst : k.dst = dst
  src : k.src = src
  tag : k.tag = tag
  gen : k.gen = gen
  ctx : k.ctx = ctx
  status : k.status = status
  data : k.data = data

theorem data_withField (k : Packet) (hi lo x : Nat) : (k.withField hi lo x).data = k.data := rfl

theorem withField_fits (k : Packet) {hi lo x : Nat} (hlo : lo ≤ hi + 1) (hhi : hi + 1 ≤ 256) (hx : x < 2 ^ (hi + 1 - lo)) :
    fb (k.withField hi lo x).hdr hi lo = x := (withField_same k x hlo hhi).trans (Nat.mod_eq_of_lt hx)

section
variable (k : Packet) {hi lo : Nat} (x : Nat) (hlo : lo ≤ hi + 1) (hhi : hi + 1 ≤ 256)
include hlo hhi

theorem opc_withField (h : hi + 1 ≤ 28 ∨ 34 ≤ lo) : (k.withField hi lo x).opc = k.opc := by
  rw [Packet.opc, Packet.opc, withField_other k x hlo hhi (by omega)]

theorem dst_withField (h : hi + 1 ≤ 73 ∨ 96 ≤ lo) : (k.withField hi lo x).dst = k.dst := by
  rw [Packet.dst, Packet.dst, withField_other k x hlo hhi (by omega)]

theorem src_withField (h : hi + 1 ≤ 96 ∨ 119 ≤ lo) : (k.withField hi lo x).src = k.src := by
  rw [Packet.src, Packet.src, withField_other k x hlo hhi (by omega)]

theorem tag_withField (h : hi + 1 ≤ 57 ∨ 73 ≤ lo) : (k.withField hi lo x).tag = k.tag := by
  rw [Packet.tag, Packet.tag, withField_other k x hlo hhi (by omega)]

theorem gen_withField (h : hi + 1 ≤ 49 ∨ 57 ≤ lo) : (k.withField hi lo x).gen = k.gen := by
  rw [Packet.gen, Packet.gen, withField_other k x hlo hhi (by omega)]

theorem ctx_withField (h : hi + 1 ≤ 43 ∨ 49 ≤ lo) : (k.withField hi lo x).ctx = k.ctx := by
  rw [Packet.ctx, Packet.ctx, withField_other k x hlo hhi (by omega)]

theorem status_withField (h : hi + 1 ≤ 6 ∨ 10 ≤ lo) : (k.withField hi lo x).status = k.status := by
  rw [Packet.status, Packet.status, withField_other k x hlo hhi (by omega)]

end

/-- The check of a packet is written into its header. -/
theorem PacketReads.withEcrc {k : Packet} {op dst src tag gen ctx status : Nat} {data : List Byte} (h : PacketReads k op dst src tag gen ctx status data)
    (x : Nat) : PacketReads (k.withField 255 224 x) op dst src tag gen ctx status data where
  opc := (opc_withField k x (by decide) (by decide) (.inr (by decide))).trans h.opc
  dst := (dst_withField k x (by decide) (by decide) (.inr (by decide))).trans h.dst
  src := (src_withField k x (by decide) (by decide) (.inr (by decide))).trans h.src
  tag := (tag_withField k x (by decide) (by decide) (.inr (by decide))).trans h.tag
  gen := (gen_withField k x (by decide) (by decide) (.inr (by decide))).trans h.gen
  ctx := (ctx_withField k x (by decide) (by decide) (.inr (by decide))).trans h.ctx
  status := (status_withField k x (by decide) (by decide) (.inr (by decide))).trans h.status
  data := (data_withField k _ _ _).trans h.data

theorem PacketReads.withTag {k : Packet} {op dst src tag gen ctx status : Nat} {data : List Byte} (h : PacketReads k op dst src tag gen ctx status data)
    {n : Nat} (hn : n < 2 ^ 16) : PacketReads (k.withField 72 57 n) op dst src n gen ctx status data where
  opc := (opc_withField k n (by decide) (by decide) (.inr (by decide))).trans h.opc
  dst := (dst_withField k n (by decide) (by decide) (.inl (by decide))).trans h.dst
  src := (src_withField k n (by decide) (by decide) (.inl (by decide))).trans h.src
  tag := withField_fits k (by decide) (by decide) (by simpa using hn)
  gen := (gen_withField k n (by decide) (by decide) (.inr (by decide))).trans h.gen
  ctx := (ctx_withField k n (by decide) (by decide) (.inr (by decide))).trans h.ctx
  status := (status_withField k n (by decide) (by decide) (.inr (by decide))).trans h.status
  data := (data_withField k _ _ _).trans h.data

theorem PacketReads.withGen {k : Packet} {op dst src tag gen ctx status : Nat} {data : List Byte} (h : PacketReads k op dst src tag gen ctx status data)
    {n : Nat} (hn : n < 2 ^ 8) : PacketReads (k.withField 56 49 n) op dst src tag n ctx status data where
  opc := (opc_withField k n (by decide) (by decide) (.inr (by decide))).trans h.opc
  dst := (dst_withField k n (by decide) (by decide) (.inl (by decide))).trans h.dst
  src := (src_withField k n (by decide) (by decide) (.inl (by decide))).trans h.src
  tag := (tag_withField k n (by decide) (by decide) (.inl (by decide))).trans h.tag
  gen := withField_fits k (by decide) (by decide) (by simpa using hn)
  ctx := (ctx_withField k n (by decide) (by decide) (.inr (by decide))).trans h.ctx
  status := (status_withField k n (by decide) (by decide) (.inr (by decide))).trans h.status
  data := (data_withField k _ _ _).trans h.data

theorem PacketReads.withStatus {k : Packet} {op dst src tag gen ctx status : Nat} {data : List Byte} (h : PacketReads k op dst src tag gen ctx status data)
    {n : Nat} (hn : n < 2 ^ 4) : PacketReads (k.withField 9 6 n) op dst src tag gen ctx n data where
  opc := (opc_withField k n (by decide) (by decide) (.inl (by decide))).trans h.opc
  dst := (dst_withField k n (by decide) (by decide) (.inl (by decide))).trans h.dst
  src := (src_withField k n (by decide) (by decide) (.inl (by decide))).trans h.src
  tag := (tag_withField k n (by decide) (by decide) (.inl (by decide))).trans h.tag
  gen := (gen_withField k n (by decide) (by decide) (.inl (by decide))).trans h.gen
  ctx := (ctx_withField k n (by decide) (by decide) (.inl (by decide))).trans h.ctx
  status := withField_fits k (by decide) (by decide) (by simpa using hn)
  data := (data_withField k _ _ _).trans h.data

/-! A packet of this package. -/

/-- The fields of a header of this package, from the lowest up (Table 7.10). -/
def fabFields (d : Dev) (op dst ctx addr arg len : Nat) : List (Nat × Nat) :=
  [(20, 0), (5, if opAdaptive op && d.rb Reg.fabCtrl 31 then 1 else 0), (3, vcOf op false), (6, op % 64), (9, len % 512), (6, ctx % 64),
   (8, d.genOf ctx), (16, 0), (23, dst % 2 ^ 23), (23, d.node), (41, addr % 2 ^ 41), (64, arg % 2 ^ 64), (32, 0)]

theorem fabFields_fit (d : Dev) (op dst ctx addr arg len : Nat) : FieldsFit (fabFields d op dst ctx addr arg len) := by
  have hvc : vcOf op false < 2 ^ 3 := by
    unfold vcOf
    split <;> split <;> decide
  have hrmode : (if (opAdaptive op && d.rb Reg.fabCtrl 31) = true then 1 else 0) < 2 ^ 5 := by split <;> decide
  simp only [fabFields, fieldsFit_cons]
  exact ⟨by decide, hrmode, hvc, Nat.mod_lt _ (by decide), Nat.mod_lt _ (by decide), Nat.mod_lt _ (by decide), Nat.mod_lt _ (by decide), by decide,
    Nat.mod_lt _ (by decide), fb_lt_two_pow _ _ _, Nat.mod_lt _ (by decide), Nat.mod_lt _ (by decide), by decide, fieldsFit_nil⟩

theorem makePacket_hdr (d : Dev) (op dst ctx addr arg : Nat) (data : List Byte) :
    (d.makePacket op dst ctx addr arg data).hdr = BitVec.ofNat 256 (packed 2 (fabFields d op dst ctx addr arg data.length)) := by
  refine congrArg (BitVec.ofNat 256) ?_
  have hrmode : (if (opAdaptive op && d.rb Reg.fabCtrl 31) = true then 2 ^ 20 else 0) = 2 ^ 20 * (if (opAdaptive op && d.rb Reg.fabCtrl 31) = true then 1 else 0) := by
    split <;> rfl
  rw [hrmode]
  simp only [fabFields, packed]
  ring

theorem makePacket_field (d : Dev) (op dst ctx addr arg : Nat) (data : List Byte) {i w x hi lo : Nat}
    (hfield : (fabFields d op dst ctx addr arg data.length)[i]? = some (w, x))
    (hlo : (((fabFields d op dst ctx addr arg data.length).take i).map Prod.fst).sum = lo) (hhi : hi + 1 = lo + w) :
    fb (d.makePacket op dst ctx addr arg data).hdr hi lo = x := by
  rw [makePacket_hdr]
  have hwidth : ((fabFields d op dst ctx addr arg data.length).map Prod.fst).sum = 256 := by simp [fabFields]
  exact fb_packed (fabFields_fit d op dst ctx addr arg data.length) hwidth hfield hlo hhi

theorem makePacket_reads (d : Dev) {op dst ctx : Nat} (addr arg : Nat) (data : List Byte) (hop : op < 64) (hdst : dst < 2 ^ 23) (hctx : ctx < 64) :
    PacketReads (d.makePacket op dst ctx addr arg data) op dst d.node 0 (d.genOf ctx) ctx 0 data where
  opc := by rw [Packet.opc, makePacket_field d op dst ctx addr arg data (hi := 33) (lo := 28) (i := 3) (w := 6) (x := op % 64) rfl rfl rfl, Nat.mod_eq_of_lt hop]
  dst := by rw [Packet.dst, makePacket_field d op dst ctx addr arg data (hi := 95) (lo := 73) (i := 8) (w := 23) (x := dst % 2 ^ 23) rfl rfl rfl, Nat.mod_eq_of_lt hdst]
  src := by rw [Packet.src, makePacket_field d op dst ctx addr arg data (hi := 118) (lo := 96) (i := 9) (w := 23) (x := d.node) rfl rfl rfl]
  tag := by rw [Packet.tag, makePacket_field d op dst ctx addr arg data (hi := 72) (lo := 57) (i := 7) (w := 16) (x := 0) rfl rfl rfl]
  gen := by rw [Packet.gen, makePacket_field d op dst ctx addr arg data (hi := 56) (lo := 49) (i := 6) (w := 8) (x := d.genOf ctx) rfl rfl rfl]
  ctx := by rw [Packet.ctx, makePacket_field d op dst ctx addr arg data (hi := 48) (lo := 43) (i := 5) (w := 6) (x := ctx % 64) rfl rfl rfl, Nat.mod_eq_of_lt hctx]
  status := by
    have hlow : fb (d.makePacket op dst ctx addr arg data).hdr 19 0 = 0 := makePacket_field d op dst ctx addr arg data (i := 0) (w := 20) rfl rfl rfl
    have hsub : fld (fb (d.makePacket op dst ctx addr arg data).hdr 19 0) 9 6 = fb (d.makePacket op dst ctx addr arg data).hdr 9 6 := fb_fb _ (by decide)
    rw [Packet.status, ← hsub, hlow]
    rfl
  data := rfl

/-! Handing a packet to the router (R239). -/

/-- The packets sent and delivered exchanged: all that handing over a packet changes. -/
def Dev.withPackets (d : Dev) (sent delivered : List Packet) : Dev := { d with localOut := sent, inbox := delivered }

@[simp] theorem withPackets_fields (d : Dev) (sent delivered : List Packet) : (d.withPackets sent delivered).localOut = sent ∧
    (d.withPackets sent delivered).inbox = delivered ∧ (d.withPackets sent delivered).regs = d.regs ∧
    (d.withPackets sent delivered).counters = d.counters ∧ (d.withPackets sent delivered).tiles = d.tiles ∧
    (d.withPackets sent delivered).ctxs = d.ctxs ∧ (d.withPackets sent delivered).tags = d.tags ∧ (d.withPackets sent delivered).ras = d.ras ∧
    (d.withPackets sent delivered).outGroups = d.outGroups ∧ (d.withPackets sent delivered).inGroups = d.inGroups ∧
    (d.withPackets sent delivered).pushes = d.pushes ∧ (d.withPackets sent delivered).bridges = d.bridges ∧
    (d.withPackets sent delivered).ports = d.ports ∧ (d.withPackets sent delivered).stores = d.stores ∧
    (d.withPackets sent delivered).wipes = d.wipes ∧ (∀ k, (d.withPackets sent delivered).count k = d.count k) ∧
    (∀ t, (d.withPackets sent delivered).tile t = d.tile t) ∧ (d.withPackets sent delivered).node = d.node :=
  ⟨rfl, rfl, rfl, rfl, rfl, rfl, rfl, rfl, rfl, rfl, rfl, rfl, rfl, rfl, rfl, fun _ => rfl, fun _ => rfl, rfl⟩

theorem sendPacket_here {d : Dev} {k : Packet} (h : k.dst = d.node) :
    d.sendPacket k = d.withPackets d.localOut (d.inbox ++ [k.withField 255 224 k.ecrc]) := by
  have hdst : (k.withField 255 224 k.ecrc).dst = d.node := (dst_withField k _ (by decide) (by decide) (.inr (by decide))).trans h
  exact if_pos (beq_iff_eq.mpr hdst)

theorem sendPacket_away {d : Dev} {k : Packet} (h : k.dst ≠ d.node) :
    d.sendPacket k = d.withPackets (d.localOut ++ [k.withField 255 224 k.ecrc]) d.inbox := by
  have hdst : (k.withField 255 224 k.ecrc).dst ≠ d.node := fun hsame =>
    h ((dst_withField k _ (by decide) (by decide) (.inr (by decide))).symm.trans hsame)
  exact if_neg (by simpa using hdst)

/-- A packet goes to exactly one of the two lists. -/
theorem sendPacket_packets (d : Dev) (k : Packet) : ∃ l i, d.sendPacket k = d.withPackets l i ∧
    l.length + i.length = d.localOut.length + d.inbox.length + 1 ∧ i.length ≤ d.inbox.length + 1 := by
  by_cases h : k.dst = d.node
  · refine ⟨_, _, sendPacket_here h, ?_, ?_⟩ <;> simp <;> omega
  · refine ⟨_, _, sendPacket_away h, ?_, ?_⟩ <;> simp <;> omega

/-! Answers (R222, R223). -/

/-- The answer to a request. -/
def Dev.answerTo (d : Dev) (k : Packet) (op status addr arg : Nat) (data : List Byte) : Packet :=
  (((d.makePacket op k.src k.ctx addr arg data).withField 72 57 k.tag).withField 56 49 k.gen).withField 9 6 status

theorem respond_eq (d : Dev) (k : Packet) (op status addr arg : Nat) (data : List Byte) :
    d.respond k op status addr arg data = d.sendPacket (d.answerTo k op status addr arg data) := rfl

theorem answerTo_reads (d : Dev) (k : Packet) {op status : Nat} (addr arg : Nat) (data : List Byte) (hop : op < 64) (hstatus : status < 16) :
    PacketReads (d.answerTo k op status addr arg data) op k.src d.node k.tag k.gen k.ctx status data :=
  (((makePacket_reads d addr arg data hop (fb_lt_two_pow _ _ _) (fb_lt_two_pow _ _ _)).withTag (fb_lt_two_pow _ _ _)).withGen
    (fb_lt_two_pow _ _ _)).withStatus hstatus

/-- Another node's request is answered with one packet. -/
theorem respond_away {d : Dev} {k : Packet} {op status : Nat} (addr arg : Nat) (data : List Byte) (hop : op < 64) (hstatus : status < 16)
    (haway : k.src ≠ d.node) : ∃ p : Packet, d.respond k op status addr arg data = d.withPackets (d.localOut ++ [p]) d.inbox ∧
      PacketReads p op k.src d.node k.tag k.gen k.ctx status data := by
  have hreads := answerTo_reads d k addr arg data hop hstatus
  refine ⟨_, ?_, hreads.withEcrc (d.answerTo k op status addr arg data).ecrc⟩
  rw [respond_eq]
  exact sendPacket_away (by rw [hreads.dst]; exact haway)

/-- The answer to another node's request, once it is the only packet sent and the request has been taken. -/
theorem answers_of_respond {s : State} {d : Dev} {k : Packet} {op status : Nat} (addr arg : Nat) {data : List Byte} (hop : op < 64) (hstatus : status < 16)
    (haway : k.src ≠ s.dev.node) (hnode : d.node = s.dev.node) (hsent : d.localOut = s.dev.localOut) (hinbox : d.inbox = removeOne k s.dev.inbox) :
    Answers s (s.commit (d.respond k op status addr arg data)) k op status data := by
  obtain ⟨p, hp, hreads⟩ := respond_away (d := d) addr arg data hop hstatus (by rw [hnode]; exact haway)
  refine ⟨p, ?_, hreads.opc, hreads.dst, hreads.src.trans hnode, hreads.tag, hreads.gen, hreads.ctx, hreads.status, hreads.data, ?_⟩
  · rw [hp, State.commit_localOut, (withPackets_fields _ _ _).1, hsent]
  · rw [hp, State.commit_inbox, (withPackets_fields _ _ _).2.1, hinbox]

/-- An answer, failing or not, changes the packets alone. -/
theorem answerFail_packets (d : Dev) (k : Packet) (status addr : Nat) : ∃ l i, d.answerFail k status addr = d.withPackets l i ∧
    i.length ≤ d.inbox.length + 1 := by
  have hrespond : ∀ op a x data, ∃ l i, d.respond k op status a x data = d.withPackets l i ∧ i.length ≤ d.inbox.length + 1 := fun op a x data => by
    obtain ⟨l, i, h, -, hi⟩ := sendPacket_packets d (d.answerTo k op status a x data)
    exact ⟨l, i, h, hi⟩
  unfold Dev.answerFail
  split
  · exact hrespond _ _ _ _
  · split
    · exact hrespond _ _ _ _
    · exact ⟨d.localOut, d.inbox, rfl, Nat.le_succ _⟩

end Sys2Proof.Machine
end

section
/-! Commands of a fabric port, FAB_NODE and FAB_TORUS, and routing (R219, R233, R236, R245). -/

namespace Sys2Proof.Machine

open Sys2Proof.Claims (Ends Quiet Heard)

/-! CMD of FAB_PORT_CTRL (R245). -/

theorem fb_portCtrlWith (d : Dev) (p : Nat) {cmd : Nat} (hcmd : cmd < 4) : fb (d.portCtrlWith p cmd) 1 0 = cmd := by
  have hlow : ∀ v : BitVec 32, fb v 1 0 = (v.setWidth 2).toNat := fun v => by
    rw [fb, fld_eq_div_mod, BitVec.toNat_setWidth, pow_zero, Nat.div_one]
  have hmask : (4294967292 : BitVec 32).setWidth 2 = 0#2 := by decide
  rw [hlow, Dev.portCtrlWith, BitVec.setWidth_or, BitVec.setWidth_and, hmask, BitVec.and_zero, BitVec.zero_or, BitVec.toNat_setWidth, BitVec.toNat_ofNat]
  omega

/-- A permitted command of FAB_PORT_CTRL that ends with the port at `y`. -/
theorem ends_of_portCommand {i : Instr} {s : State} {r : Requester} {p : Fin 8} {cmd : Nat} {y : FabPort} {P : State → Prop} (hcmd : cmd < 4)
    (hexec : exec i s = s.runReg r (Reg.fabPortCtrl p) (s.dev.portCtrlWith p cmd) (fun _ => isCtx0 r)
      (fun _ d => (d.portCtrlWrite p (d.portCtrlWith p cmd), stOK)))
    (hheard : Heard s r (Reg.fabPortCtrl p) (s.dev.portCtrlWith p cmd)) (hctx : isCtx0 r = true) {e : Dev}
    (he : (s.begin.putReg (Reg.fabPortCtrl p) (s.dev.portCtrlWith p cmd)).portCommand p cmd = e)
    (hbecomes : PortBecomes (s.begin.putReg (Reg.fabPortCtrl p) (s.dev.portCtrlWith p cmd)) e p y)
    (hP : ∀ u : State, u.dev.port p = y → (∀ q, q ≠ p.val → u.dev.port q = s.dev.port q) → u.mem = s.mem → u.dev.tiles = s.dev.tiles →
      u.dev.counters = e.counters → P u) : Ends i s P := by
  have hwrite : s.begin.portCtrlWrite p (s.begin.portCtrlWith p cmd) = e := by
    rw [← he, Dev.portCtrlWrite, fb_portCtrlWith s.begin p hcmd]
    rfl
  obtain ⟨-, htiles, -, -, hstores, hwipes⟩ : e.regs = (s.begin.putReg (Reg.fabPortCtrl p) (s.dev.portCtrlWith p cmd)).regs ∧ e.tiles = s.dev.tiles ∧
      e.modules = s.dev.modules ∧ e.pages = s.dev.pages ∧ e.stores = [] ∧ e.wipes = [] := by
    have hb := hbecomes.beside
    simp only [Dev.beside, Prod.mk.injEq] at hb
    exact hb
  refine ends_of_heard (x := fun _ d => (d.portCtrlWrite p (d.portCtrlWith p cmd), stOK)) (perm := fun _ => isCtx0 r) hexec hheard hctx
    (Prod.ext hwrite rfl) (hP _ ?_ (fun q hq => ?_) (State.commit_mem s _ ?_ ?_) ?_ ?_)
  · simpa [Dev.answer] using hbecomes.same
  · have hother := hbecomes.other hq
    simpa [Dev.answer] using hother
  all_goals simp [Dev.answer, htiles, hstores, hwipes]

theorem port_retrained {s : State} {r : Requester} {p : Fin 8} (hheard : Heard s r (Reg.fabPortCtrl p) (s.dev.portCtrlWith p 1)) (hctx : isCtx0 r = true)
    (hlocked : (s.dev.port p).state.locked = true) (hqueues : (s.dev.port p).queues = []) :
    Ends (.fabPortRetrain r p) s (fun u => (u.dev.port p).state = .down ∧ (u.dev.port p).failures = 0 ∧
      (∀ q, q ≠ p.val → u.dev.port q = s.dev.port q) ∧ u.mem = s.mem ∧ u.dev.tiles = s.dev.tiles) := by
  obtain ⟨d, hd⟩ : ∃ d, d = s.begin.putReg (Reg.fabPortCtrl p) (s.dev.portCtrlWith p 1) := ⟨_, rfl⟩
  have hport : d.port p = s.dev.port p := by rw [hd]; rfl
  have hcommand : d.portCommand p 1 = d.retrain p rCommand := by
    refine if_neg ?_
    rw [hport]
    intro h
    revert h hlocked
    cases (s.dev.port p).state <;> decide
  have hbecomes := retrain_becomes (d := d) (p := p) (by rw [hport]; exact hlocked) (by rw [hport]; exact hqueues) rCommand
  subst hd
  exact ends_of_portCommand (by decide) rfl hheard hctx hcommand hbecomes
    (fun u hu hothers hmem htiles _ => ⟨by rw [hu]; rfl, by rw [hu]; rfl, hothers, hmem, htiles⟩)

theorem port_disabled {s : State} {r : Requester} {p : Fin 8} (hheard : Heard s r (Reg.fabPortCtrl p) (s.dev.portCtrlWith p 2)) (hctx : isCtx0 r = true)
    (hfailed : (s.dev.port p).state ≠ .failed) (hon : (s.dev.port p).state ≠ .disabled) (hqueues : (s.dev.port p).queues = []) :
    Ends (.fabPortDisable r p) s (fun u => (u.dev.port p).state = .disabled ∧ (∀ q, q ≠ p.val → u.dev.port q = s.dev.port q) ∧
      u.mem = s.mem ∧ u.dev.tiles = s.dev.tiles) := by
  obtain ⟨d, hd⟩ : ∃ d, d = s.begin.putReg (Reg.fabPortCtrl p) (s.dev.portCtrlWith p 2) := ⟨_, rfl⟩
  have hport : d.port p = s.dev.port p := by rw [hd]; rfl
  obtain ⟨e, y, hcommand, hbecomes, hstate⟩ : ∃ e y, d.portCommand p 2 = e ∧ PortBecomes d e p y ∧ y.state = .disabled := by
    obtain ⟨f, z, hf, hz, hsend⟩ : ∃ f z, (if (d.port p).state.locked then d.sendBlock p 2 7 rDisabled else d) = f ∧ z.queues = [] ∧ PortBecomes d f p z := by
      split
      · exact ⟨_, _, rfl, by rw [hport]; exact hqueues, sendBlock_becomes (portBecomes_refl d p) 2 7 rDisabled⟩
      · exact ⟨_, _, rfl, by rw [hport]; exact hqueues, portBecomes_refl d p⟩
    have hstop := hsend.trans (stopPort_becomes (d := f) (p := p) (by rw [hsend.same]; exact hz) .disabled 0)
    rw [hsend.same] at hstop
    have heq : d.portCommand p 2 = if (d.port p).state.carries then (f.stopPort p .disabled 0).event [] 0x0515 2 p rDisabled 0 else f.stopPort p .disabled 0 := by
      rw [← hf]
      exact if_neg (by rw [hport]; simpa using ⟨hfailed, hon⟩)
    rw [heq]
    split
    · exact ⟨_, _, rfl, hstop.step (event_withPorts _ _ _ _ _ _ _), rfl⟩
    · exact ⟨_, _, rfl, hstop, rfl⟩
  subst hd
  exact ends_of_portCommand (by decide) rfl hheard hctx hcommand hbecomes
    (fun u hu hothers hmem htiles _ => ⟨by rw [hu]; exact hstate, hothers, hmem, htiles⟩)

theorem port_enabled {s : State} {r : Requester} {p : Fin 8} (hheard : Heard s r (Reg.fabPortCtrl p) (s.dev.portCtrlWith p 3)) (hctx : isCtx0 r = true)
    (hstate : (s.dev.port p).state = .disabled) :
    Ends (.fabPortEnable r p) s (fun u => u.dev.port p = { s.dev.port p with state := .down, failures := 0 } ∧
      (∀ q, q ≠ p.val → u.dev.port q = s.dev.port q) ∧ u.mem = s.mem ∧ u.dev.tiles = s.dev.tiles ∧ u.dev.counters = s.dev.counters) := by
  obtain ⟨d, hd⟩ : ∃ d, d = s.begin.putReg (Reg.fabPortCtrl p) (s.dev.portCtrlWith p 3) := ⟨_, rfl⟩
  have hport : d.port p = s.dev.port p := by rw [hd]; rfl
  have hcounters : d.counters = s.dev.counters := by rw [hd]; rfl
  have hcommand : d.portCommand p 3 = d.setPort p { d.port p with state := .down, failures := 0 } := if_pos (by rw [hport, hstate]; decide)
  have hbecomes := portBecomes_setPort d p { d.port p with state := .down, failures := 0 }
  subst hd
  exact ends_of_portCommand (by decide) rfl hheard hctx hcommand hbecomes
    (fun u hu hothers hmem htiles hcount => ⟨hu.trans (by rw [hport]), hothers, hmem, htiles, hcount.trans hcounters⟩)

/-! FAB_NODE and FAB_TORUS (R219). -/

/-- What a new node ID or torus asks of a port. -/
def FabPort.rerun (x : FabPort) : FabPort := if x.state == .miswired then { x with state := .param } else x

theorem rerunParam_port (d : Dev) {q : Nat} (hq : q < 8) : d.rerunParam.port q = (d.port q).rerun := by
  have hports : ∀ e : Dev, e.noteDegraded.port q = e.port q := fun e => by
    have h := (Prod.mk.inj (noteDegraded_withPorts e)).1
    rw [Dev.port, Dev.port, h]
  rw [Dev.rerunParam, hports]
  refine Dev.each_range_update Dev.port (fun _ x => x.rerun) (fun e a i => ?_) d hq
  unfold FabPort.rerun
  split
  · rw [port_setPort]
    split
    next h => rw [if_pos h.symm, h, if_pos ‹_›]
    next h => rw [if_neg (Ne.symm h)]
  next hnot =>
    split
    next h => rw [← h, if_neg hnot]
    · rfl

theorem rerunParam_beside (d : Dev) : d.rerunParam.beside = d.beside := by
  have hnote : ∀ e : Dev, e.noteDegraded.beside = e.beside := fun e => (Prod.mk.inj (noteDegraded_withPorts e)).2
  rw [Dev.rerunParam, hnote]
  refine Dev.each_frame Dev.beside _ (fun e a => ?_) d
  split <;> rfl

/-- A permitted write of FAB_NODE or FAB_TORUS with every port away from RTT. -/
theorem ends_of_rerun {i : Instr} {s : State} {r : Requester} {k : Nat} {v : BitVec 32} {x : Dev → Dev} {P : State → Prop}
    (hexec : exec i s = s.runReg r k v (fun _ => isCtx0 r) (fun _ d => (x d, stOK))) (hheard : Heard s r k v) (hctx : isCtx0 r = true)
    (hx : x s.begin = (s.begin.putReg k v).rerunParam)
    (hP : ∀ u : State, (∀ j, u.dev.reg j = (s.begin.putReg k v).reg j) → (∀ q, q < 8 → u.dev.port q = (s.dev.port q).rerun) → u.mem = s.mem → P u) :
    Ends i s P := by
  obtain ⟨e, he⟩ : ∃ e, e = (s.begin.putReg k v).rerunParam := ⟨_, rfl⟩
  obtain ⟨hregs, -, -, -, hstores, hwipes⟩ : e.regs = (s.begin.putReg k v).regs ∧ e.tiles = s.dev.tiles ∧
      e.modules = s.dev.modules ∧ e.pages = s.dev.pages ∧ e.stores = [] ∧ e.wipes = [] := by
    have hb := rerunParam_beside (s.begin.putReg k v)
    rw [← he] at hb
    simp only [Dev.beside, Prod.mk.injEq] at hb
    exact hb
  have hports : ∀ q, q < 8 → e.port q = (s.dev.port q).rerun := fun q hq => by
    rw [he, rerunParam_port _ hq]
    rfl
  refine ends_of_heard (x := fun _ d => (x d, stOK)) (perm := fun _ => isCtx0 r) hexec hheard hctx (d := e) (Prod.ext (hx.trans he.symm) rfl)
    (hP _ (fun j => ?_) (fun q hq => ?_) (State.commit_mem s _ ?_ ?_))
  · have hj : e.reg j = (s.begin.putReg k v).reg j := by rw [Dev.reg, hregs]; rfl
    simpa [Dev.answer] using hj
  · simpa [Dev.answer] using hports q hq
  all_goals simp [Dev.answer, hstores, hwipes]

theorem rf_of_reg {d e : Dev} {k hi lo : Nat} (h : d.reg k = e.reg k) : d.rf k hi lo = e.rf k hi lo := by rw [Dev.rf, Dev.rf, h]

theorem writeMask_fabNode : writeMask Reg.fabNode = 0x807FFFFF := by
  have h : spaceMask [.pkg] Reg.fabNode = 0x807FFFFF := by decide +kernel
  exact (writeMask_pkg (by decide)).trans h

theorem writeMask_fabTorus : writeMask Reg.fabTorus = 0x7FFFFF := by
  have h : spaceMask [.pkg] Reg.fabTorus = 0x7FFFFF := by decide +kernel
  exact (writeMask_pkg (by decide)).trans h

theorem node_written {s : State} {r : Requester} {v : BitVec 32} (hheard : Heard s r Reg.fabNode v) (hctx : isCtx0 r = true) :
    (s.dev.anyPortUp = true → Quiet (.fabNodeWrite r v) s (s.begin.answer r stOK)) ∧
    (s.dev.anyPortUp = false → Ends (.fabNodeWrite r v) s (fun u => u.dev.node = fb v 22 0 ∧ u.dev.nodeValid = v.getLsbD 31 ∧
      (∀ q, q < 8 → (s.dev.port q).state ≠ .miswired → u.dev.port q = s.dev.port q) ∧
      (∀ q, q < 8 → (s.dev.port q).state = .miswired → (u.dev.port q).state = .param) ∧ u.mem = s.mem)) := by
  refine ⟨fun hup => ?_, fun hdown => ?_⟩
  · exact quiet_of_heard (x := fun _ d => (d.nodeWrite v, stOK)) (perm := fun _ => isCtx0 r) rfl hheard hctx (Prod.ext (if_pos hup) rfl) rfl rfl
  · have hnot : ¬ s.begin.anyPortUp = true := by
      intro h
      exact Bool.false_ne_true (hdown.symm.trans h)
    refine ends_of_rerun rfl hheard hctx (if_neg hnot) (fun u hreg hport hmem => ⟨?_, ?_, fun q hq hst => ?_, fun q hq hst => ?_, hmem⟩)
    · rw [Dev.node, rf_of_reg (hreg Reg.fabNode)]
      exact rf_putReg (by decide) writeMask_fabNode (by decide) s.begin v
    · rw [Dev.nodeValid, Dev.rb, hreg, getLsbD_putReg _ _ _ (by decide), writeMask_fabNode]
      rfl
    · rw [hport q hq]
      exact if_neg (by simpa using hst)
    · rw [hport q hq, FabPort.rerun, if_pos (by simpa using hst)]

theorem torus_written {s : State} {r : Requester} {v : BitVec 32} (hheard : Heard s r Reg.fabTorus v) (hctx : isCtx0 r = true) :
    ((s.dev.anyPortUp = true ∨ 200 < (fb v 7 0 + 1) / 2 + (fb v 15 8 + 1) / 2 + (fb v 22 16 + 1) / 2) →
      Quiet (.fabTorusWrite r v) s (s.begin.answer r stOK)) ∧
    (s.dev.anyPortUp = false → (fb v 7 0 + 1) / 2 + (fb v 15 8 + 1) / 2 + (fb v 22 16 + 1) / 2 ≤ 200 →
      Ends (.fabTorusWrite r v) s (fun u => u.dev.torusSize 0 = fb v 7 0 + 1 ∧ u.dev.torusSize 1 = fb v 15 8 + 1 ∧
        u.dev.torusSize 2 = fb v 22 16 + 1 ∧ u.mem = s.mem)) := by
  refine ⟨fun h => ?_, fun hdown hsize => ?_⟩
  · have hbar : (s.begin.anyPortUp || decide (200 < (fb v 7 0 + 1) / 2 + (fb v 15 8 + 1) / 2 + (fb v 22 16 + 1) / 2)) = true := by
      rw [Bool.or_eq_true, decide_eq_true_eq]
      exact h
    exact quiet_of_heard (x := fun _ d => (d.torusWrite v, stOK)) (perm := fun _ => isCtx0 r) rfl hheard hctx (Prod.ext (if_pos hbar) rfl) rfl rfl
  · have hbar : ¬ (s.begin.anyPortUp || decide (200 < (fb v 7 0 + 1) / 2 + (fb v 15 8 + 1) / 2 + (fb v 22 16 + 1) / 2)) = true := by
      rw [Bool.or_eq_true, decide_eq_true_eq]
      rintro (h | h)
      · exact Bool.false_ne_true (hdown.symm.trans h)
      · exact absurd h (Nat.not_lt.mpr hsize)
    have hfield : ∀ {hi lo : Nat}, hi < 32 → (∀ i, i < 32 → lo ≤ i → i ≤ hi → Nat.testBit 0x7FFFFF i = true) →
        (s.begin.putReg Reg.fabTorus v).rf Reg.fabTorus hi lo = fb v hi lo := fun hhi hbits => rf_putReg hhi writeMask_fabTorus hbits s.begin v
    refine ends_of_rerun rfl hheard hctx (if_neg hbar) (fun u hreg _ hmem => ⟨?_, ?_, ?_, hmem⟩)
    · exact congrArg (· + 1) ((rf_of_reg (hreg Reg.fabTorus)).trans (hfield (by decide) (by decide)))
    · exact congrArg (· + 1) ((rf_of_reg (hreg Reg.fabTorus)).trans (hfield (by decide) (by decide)))
    · exact congrArg (· + 1) ((rf_of_reg (hreg Reg.fabTorus)).trans (hfield (by decide) (by decide)))

/-! Routing (R233, R236). -/

/-- A packet with one more hop. -/
def hopped (k : Packet) : Packet := k.withField 19 12 (min 255 (k.hops + 1))

theorem hopped_dst (k : Packet) : (hopped k).dst = k.dst := dst_withField k _ (by decide) (by decide) (.inl (by decide))

theorem hopped_opc (k : Packet) : (hopped k).opc = k.opc := opc_withField k _ (by decide) (by decide) (.inl (by decide))

theorem hopped_hops (k : Packet) : (hopped k).hops = min 255 (k.hops + 1) := by
  rw [hopped, Packet.hops, withField_same k _ (by decide) (by decide)]
  omega

/-- A read, a write or a bulk segment for this node is delivered. -/
theorem route_delivered {d : Dev} {k : Packet} (hdst : k.dst = d.node) (hop : k.opc = opWR ∨ k.opc = opRD ∨ k.opc = opBWR) :
    d.route none k = { d with inbox := d.inbox ++ [hopped k] } := by
  have hmod : ¬ (reservedRequest (hopped k).opc || ((hopped k).opc == opATOM && 8 ≤ (hopped k).arg % 16)) = true ∧
      ¬ (15 ≤ (hopped k).opc || (hopped k).opc = 0) = true := by
    rw [hopped_opc]
    rcases hop with h | h | h <;> rw [h] <;> exact ⟨by simp [reservedRequest, opWR, opRD, opBWR, opATOM], by decide⟩
  have hdst' : ((hopped k).dst == d.node) = true := by rw [hopped_dst, hdst, beq_self_eq_true]
  exact (if_pos hdst').trans ((if_neg hmod.1).trans (if_neg hmod.2))

theorem packet_delivered {s : State} {k : Packet} (hdst : k.dst = s.dev.node) (hop : k.opc = opWR ∨ k.opc = opRD ∨ k.opc = opBWR) (hhops : k.hops < 255) :
    Quiet (.packetRoute none k) s { s.begin with localOut := removeOne k s.dev.localOut, inbox := s.dev.inbox ++ [k.withField 19 12 (k.hops + 1)] } := by
  have hroute := route_delivered (d := { s.begin with localOut := removeOne k s.begin.localOut }) hdst hop
  have hnext : hopped k = k.withField 19 12 (k.hops + 1) := by rw [hopped, Nat.min_eq_right (by omega)]
  rw [hnext] at hroute
  exact quiet_of_run (x := xPacketRoute none k) rfl hroute rfl rfl

/-- A packet of another node's that has travelled too far is counted and discarded. -/
theorem route_discarded {d : Dev} {p : Nat} {k : Packet} (hdst : k.dst ≠ d.node) (hhops : k.hops = 254) :
    ∃ k', d.route (some p) k = (d.bump Reg.fabFwdPkts).discard k' 10 := by
  obtain ⟨k', hk', hdst', hhops'⟩ : ∃ k', (if (some p == some 3 || some p == some 7) = true then (hopped k).withField 24 22 0 else hopped k) = k' ∧
      k'.dst = k.dst ∧ k'.hops = 255 := by
    have hh : (hopped k).hops = 255 := by rw [hopped_hops, hhops]; rfl
    split
    · refine ⟨_, rfl, (dst_withField _ _ (by decide) (by decide) (.inl (by decide))).trans (hopped_dst k), ?_⟩
      rw [Packet.hops, withField_other _ _ (by decide) (by decide) (.inr (by decide))]
      exact hh
    · exact ⟨_, rfl, hopped_dst k, hh⟩
  refine ⟨k', ?_⟩
  have hroute : d.route (some p) k = if (k'.dst == d.node) = true then
      (if (reservedRequest k'.opc || (k'.opc == opATOM && 8 ≤ k'.arg % 16)) = true then
        (if k'.ecrcOk = true then d.answerFail k' 4 0 else (d.bump Reg.fabEcrcErr).answerFail k' 9 0)
      else if (15 ≤ k'.opc || k'.opc = 0) = true then d
      else { d with inbox := d.inbox ++ [k'] })
    else if k'.hops = 255 then (d.bump Reg.fabFwdPkts).discard k' 10
    else if (d.bump Reg.fabFwdPkts).inTorus k'.dst = true then (d.bump Reg.fabFwdPkts).torusRoute (some p) k'.dst k'
    else (d.bump Reg.fabFwdPkts).spurRoute (some p) k' := by
    rw [← hk']
    rfl
  rw [hroute, if_neg (by rw [hdst']; simpa using hdst), if_pos hhops']

theorem leaveBuffer_withPackets (d : Dev) (p : Nat) (k : Packet) : (d.leaveBuffer p k).inbox = d.inbox ∧ (d.leaveBuffer p k).regs = d.regs ∧
    (d.leaveBuffer p k).counters = d.counters ∧ (d.leaveBuffer p k).tiles = d.tiles ∧ (d.leaveBuffer p k).stores = d.stores ∧
    (d.leaveBuffer p k).wipes = d.wipes := by
  unfold Dev.leaveBuffer
  extract_lets x key
  split
  · exact ⟨rfl, rfl, rfl, rfl, rfl, rfl⟩
  · exact ⟨rfl, rfl, rfl, rfl, rfl, rfl⟩

theorem packet_discarded {s : State} {p : Fin 8} {k : Packet} (hdst : k.dst ≠ s.dev.node) (hhops : k.hops = 254) :
    Ends (.packetRoute (some p) k) s (fun u => u.dev.count Reg.fabUnreach = s.dev.count Reg.fabUnreach + 1 ∧
      u.dev.count Reg.fabFwdPkts = s.dev.count Reg.fabFwdPkts + 1 ∧ u.dev.inbox.length ≤ s.dev.inbox.length + 1 ∧ u.mem = s.mem ∧
      u.dev.regs = s.dev.regs ∧ u.dev.tiles = s.dev.tiles) := by
  obtain ⟨hinbox, hregs, hcounters, htiles, hstores, hwipes⟩ := leaveBuffer_withPackets s.begin p k
  obtain ⟨e, he⟩ : ∃ e, e = s.begin.leaveBuffer p k := ⟨_, rfl⟩
  rw [← he] at hinbox hregs hcounters htiles hstores hwipes
  have hnode : e.node = s.dev.node := by
    rw [Dev.node, Dev.rf, Dev.reg, hregs]
    rfl
  obtain ⟨k', hroute⟩ := route_discarded (d := e) (p := p) (k := k) (by rw [hnode]; exact hdst) hhops
  obtain ⟨l, i, hfail, hlength⟩ := answerFail_packets ((e.bump Reg.fabFwdPkts).bump Reg.fabUnreach) k' 10 0
  have hx : xPacketRoute (some p.val) k s.mem s.begin = ((e.bump Reg.fabFwdPkts).bump Reg.fabUnreach).withPackets l i := by
    rw [← hfail]
    change (s.begin.leaveBuffer p k).route (some p.val) k = _
    rw [← he, hroute]
    rfl
  have hcount : ∀ j, e.count j = s.dev.count j := fun j => by
    rw [Dev.count, hcounters]
    rfl
  refine ends_of_run (x := xPacketRoute (some p.val) k) rfl hx ⟨?_, ?_, ?_, State.commit_mem s _ hstores hwipes, hregs, htiles⟩
  · change (((e.bump Reg.fabFwdPkts).bump Reg.fabUnreach).count Reg.fabUnreach) = _
    rw [Dev.bump, Dev.count_bumpN, if_pos rfl, Dev.count_bump_other _ (by decide), hcount]
    rfl
  · change (((e.bump Reg.fabFwdPkts).bump Reg.fabUnreach).count Reg.fabFwdPkts) = _
    rw [Dev.count_bump_other _ (by decide), Dev.bump, Dev.count_bumpN, if_pos rfl, hcount]
    rfl
  · have hlen : e.inbox.length = s.dev.inbox.length := congrArg List.length hinbox
    exact hlen ▸ hlength

/-- Settles O31, a lemma for each command of a port and each way a packet goes. -/
theorem portCommandsAndRouting : Obligations.PortCommandsAndRouting :=
  ⟨fun _ _ _ hheard hctx hlocked hqueues => port_retrained hheard hctx hlocked hqueues,
   fun _ _ _ hheard hctx hfailed hon hqueues => port_disabled hheard hctx hfailed hon hqueues,
   fun _ _ _ hheard hctx hstate => port_enabled hheard hctx hstate, fun _ _ _ hheard hctx => node_written hheard hctx,
   fun _ _ _ hheard hctx => torus_written hheard hctx, fun _ _ hdst hop hhops => packet_delivered hdst hop hhops,
   fun _ _ _ hdst hhops => packet_discarded hdst hhops⟩

end Sys2Proof.Machine
end

section
/-! What a fabric request meets where nothing stands in its way: the checks let it through, and the bytes it reads and writes are memory's
(R177, R194, R220, R224, R334). -/

namespace Sys2Proof.Machine

open Sys2Proof.Claims (Ends Quiet Holds SameMemBut NoBad Reaches Answers AtomDoes)

/-! Bytes of memory without a bad unit. -/

theorem load_good {d : Dev} (hbursts : d.badBursts = []) (hwords : ∀ j, (d.tile j).badWords = []) (m : Mem) (a n : Nat) :
    d.load m a n = (d, .inl (peekN m d a n)) := by
  have hbad : d.badAt a n = none := by
    unfold Dev.badAt
    rw [hbursts]
    cases scrPlace a with
    | none => rfl
    | some p => simp [badWithin_of_none (hwords p.1)]
  rw [Dev.load, hbad]

theorem store_good {d : Dev} (hbursts : d.badBursts = []) (hwords : ∀ j, (d.tile j).badWords = []) (m : Mem) (a : Nat) (bs : List Byte) :
    d.store m a bs = (d.pokeN a bs, none) :=
  store_of_good m (fun t _ _ => badWithin_of_none (hwords t) _ _) (fun _ => by simp [hbursts])

/-! The counters alone exchanged. -/

def Dev.withCounters (d : Dev) (c : Map (BitVec 48)) : Dev := { d with counters := c }

@[simp] theorem withCounters_fields (d : Dev) (c : Map (BitVec 48)) : (d.withCounters c).regs = d.regs ∧ (d.withCounters c).tiles = d.tiles ∧
    (d.withCounters c).localOut = d.localOut ∧ (d.withCounters c).inbox = d.inbox ∧ (d.withCounters c).stores = d.stores ∧
    (d.withCounters c).wipes = d.wipes ∧ (d.withCounters c).badBursts = d.badBursts ∧ (∀ t, (d.withCounters c).tile t = d.tile t) ∧
    (d.withCounters c).node = d.node ∧ (d.withCounters c).tags = d.tags :=
  ⟨rfl, rfl, rfl, rfl, rfl, rfl, rfl, fun _ => rfl, rfl, rfl⟩

/-- Counting the bursts of a read changes counters alone (R181). -/
theorem quarry_eq (d : Dev) (a n : Nat) : ∃ c, d.quarry a n = d.withCounters c := by
  unfold Dev.quarry
  split
  · refine Dev.each_invariant (P := fun e => ∃ c, e = d.withCounters c) (fun e i _ he => ?_) ⟨d.counters, rfl⟩
    obtain ⟨c, rfl⟩ := he
    exact ⟨_, rfl⟩
  · exact ⟨d.counters, rfl⟩

/-! The gate of a request (R177, R199, R220, R334, R467). -/

theorem below_of_inMemory {a n : Nat} (hn : n ≠ 0) (hin : inMemory a n = true) : a < 0x018000000000 := by
  rw [inMemory, Bool.or_eq_true, Bool.and_eq_true, decide_eq_true_eq, decide_eq_true_eq, decide_eq_true_eq] at hin
  omega

theorem cohWait_of_no_line {d : Dev} (h : d.directory = []) (a n : Nat) (write : Bool) (except : Option Nat) : d.cohWait a n write except = (d, []) := by
  have hsnoops : d.snoopsFor a n write except = [] := by simp [Dev.snoopsFor, h]
  rw [Dev.cohWait, hsnoops]
  split <;> rfl

/-- The gate lets a request through to memory that it reaches. -/
theorem gate_go {s : State} {c a n : Nat} (h : Reaches s c a n) (acc : HeldAccess) (write : Bool) (except : Option Nat) :
    s.begin.gate acc c a n write except = (s.begin, .go) := by
  obtain ⟨hn, hin, hrun, hlost, hmay, hserves, hwait, hshared, -⟩ := h
  have hbelow := below_of_inMemory hn hin
  have hcheck : s.begin.accessCheck c a n = (s.begin, none) := Dev.accessCheck_admitted hin hbelow hlost hmay
  have hserved : (isHbm a && !s.begin.hbmServes a) = false := by
    have hserves' : isHbm a = true → s.begin.hbmServes a = true := hserves
    cases hhbm : isHbm a with
    | false => rfl
    | true => rw [hserves' hhbm]; rfl
  have hwait' : s.begin.mustWait a n = false := hwait
  unfold Dev.gate
  rw [if_neg (by omega), if_neg (by simp [hn, hin]), if_neg (by simp [hrun]), if_neg (by simp [hrun]), hcheck]
  dsimp only
  rw [if_neg (by simp [hserved]), if_neg (by simp [hwait']), cohWait_of_no_line (d := s.begin) hshared]
  rfl

/-- A read that reaches its memory gives the bytes that stand there. -/
theorem read_reached {s : State} (hgood : NoBad s) (k : Packet) (a n : Nat) : ∃ c,
    ((s.begin.taken k).quarry a n).load s.mem a n = ((s.begin.taken k).withCounters c, .inl (peekN s.mem s.begin a n)) := by
  obtain ⟨hbursts, hwords⟩ := hgood
  obtain ⟨c, hc⟩ := quarry_eq (s.begin.taken k) a n
  refine ⟨c, ?_⟩
  rw [hc, load_good (d := (s.begin.taken k).withCounters c) hbursts hwords]
  refine congrArg (fun bs => ((s.begin.taken k).withCounters c, Sum.inl bs)) ?_
  rw [peekN_eq_map, peekN_eq_map]
  exact List.map_congr_left fun i _ => peek_congr rfl rfl _ _

/-- A request with the right check is performed by its opcode (R221). -/
theorem checked_ok {d : Dev} {k : Packet} (h : k.ecrcOk = true) (f : Dev → Dev) : d.checked k f = f d := if_pos h

end Sys2Proof.Machine
end

section
/-! Atomics (R225). -/

namespace Sys2Proof.Machine

open Sys2Proof.Claims (Ends Quiet Holds SameMemBut NoBad Reaches Answers AtomDoes)

/-- What an atomic makes of its target. -/
def Dev.atomResult (m : Mem) (d : Dev) (k : Packet) : Nat × Bool :=
  aopResult (k.arg % 16) (peekLE m d k.addr (aopWidth (k.arg % 16))) (leOf (k.data.take (if k.arg % 16 = 3 then 8 else 16))) (leOf (k.data.drop 8))

/-- An atomic that reaches its target replaces it and answers with the old value. -/
theorem serveAtom_reached {s : State} {k : Packet} (hhbm : isHbm k.addr = true) (haligned : k.addr % aopWidth (k.arg % 16) = 0)
    (hlen : k.data.length = aopData (k.arg % 16)) (hreach : Reaches s k.ctx k.addr (aopWidth (k.arg % 16))) : ∃ c,
    s.begin.serveAtom s.mem k = ((((s.begin.taken k).withCounters c).pokeLE k.addr (aopWidth (k.arg % 16)) (Dev.atomResult s.mem s.begin k).1).respond
      k opATOMRSP (if (Dev.atomResult s.mem s.begin k).2 then 7 else 0) 0 0 (peekN s.mem s.begin k.addr (aopWidth (k.arg % 16)))) := by
  have hnever : ¬ (0x010000000000 ≤ k.addr && k.addr < 0x010080000000) = true := by
    rw [isHbm, decide_eq_true_eq] at hhbm
    simp; omega
  obtain ⟨-, -, -, -, -, -, -, -, hgood⟩ := id hreach
  obtain ⟨c, hload⟩ := read_reached hgood k k.addr (aopWidth (k.arg % 16))
  refine ⟨c, ?_⟩
  unfold Dev.serveAtom
  dsimp only
  rw [if_neg hnever, if_neg (by simp [haligned, hlen]), gate_go hreach]
  dsimp only
  rw [hload]
  rfl

/-- Every atomic, by its operation. -/
theorem ends_of_atom {i : Packet → Instr} {aop : Nat} {s : State} {k : Packet} (hexec : exec (i k) s = s.run (xAtom aop k)) (hop : k.opc = opATOM)
    (haop : k.arg % 16 = aop) (hecrc : k.ecrcOk = true) (hhbm : isHbm k.addr = true) (haligned : k.addr % aopWidth aop = 0)
    (hlen : k.data.length = aopData aop) (hreach : Reaches s k.ctx k.addr (aopWidth aop)) (haway : k.src ≠ s.dev.node) :
    Ends (i k) s (fun u => Holds u k.addr (toLE (aopWidth aop) (Dev.atomResult s.mem s.begin k).1) ∧ SameMemBut s u k.addr (aopWidth aop) ∧
      Answers s u k opATOMRSP (if (Dev.atomResult s.mem s.begin k).2 then 7 else 0) (peekN s.mem s.begin k.addr (aopWidth aop)) ∧
      u.dev.regs = s.dev.regs ∧ u.dev.tiles = s.dev.tiles) := by
  subst haop
  obtain ⟨c, hserve⟩ := serveAtom_reached hhbm haligned hlen hreach
  have hrun : xAtom (k.arg % 16) k s.mem s.begin = s.begin.serveAtom s.mem k := by
    rw [xAtom, if_pos (by simp [hop]), Dev.serveFab, checked_ok hecrc, hop]
    rfl
  generalize Dev.atomResult s.mem s.begin k = r at hserve ⊢
  obtain ⟨e, he⟩ : ∃ e, e = ((s.begin.taken k).withCounters c).pokeLE k.addr (aopWidth (k.arg % 16)) r.1 := ⟨_, rfl⟩
  rw [← he] at hserve
  have hstatus : (if r.2 then 7 else 0) < 16 := by split <;> decide
  obtain ⟨l, p, hp, -, -⟩ := sendPacket_packets e (e.answerTo k opATOMRSP (if r.2 then 7 else 0) 0 0 (peekN s.mem s.begin k.addr (aopWidth (k.arg % 16))))
  have hanswers := answers_of_respond (s := s) (d := e) (k := k) (op := opATOMRSP) (status := if r.2 then 7 else 0) 0 0
    (data := peekN s.mem s.begin k.addr (aopWidth (k.arg % 16))) (by decide) hstatus haway (by rw [he]; rfl) (by rw [he]; rfl) (by rw [he]; rfl)
  refine ends_of_run hexec (hrun.trans hserve) ?_
  rw [respond_eq, hp] at hanswers ⊢
  obtain ⟨hholds, hsame⟩ := holds_of_pokeN s (d := e.withPackets l p) (a := k.addr) (bs := toLE (aopWidth (k.arg % 16)) r.1) (by rw [he]; rfl) (by rw [he]; rfl)
  rw [toLE_length] at hsame
  exact ⟨hholds, hsame, hanswers, by rw [State.commit_regs, he]; rfl, by rw [State.commit_tiles, he]; rfl⟩

/-- An atomic that never overflows. -/
theorem atomDoes_of {i : Packet → Instr} {aop : Nat} {f : Nat → Nat → Nat → Nat} (hexec : ∀ k s, exec (i k) s = s.run (xAtom aop k))
    (hf : ∀ o x y, aopResult aop o x y = (f o x y, false)) : AtomDoes i aop f := by
  intro s k hop haop hecrc hhbm haligned hlen hreach haway
  have h := ends_of_atom (hexec k s) hop haop hecrc hhbm haligned hlen hreach haway
  rw [Dev.atomResult, haop, hf] at h
  exact h

/-- The pattern of a sum of two patterns read as signed numbers is their sum as plain numbers. -/
theorem unsigned_add_signed (o x : Nat) : unsigned 128 (signed 128 o + signed 128 x) = (o + x) % 2 ^ 128 := by
  have hsigned : ∀ v : Nat, signed 128 v % 2 ^ 128 = ((v % 2 ^ 128 : Nat) : Int) := fun v => by
    unfold signed
    split <;> omega
  have ho := hsigned o
  have hx := hsigned x
  unfold unsigned
  omega

/-- Every ATOM but GADD128 wraps or replaces; GADD128 reports signed overflow beside the wrapped sum. -/
theorem atomGadd128_does {s : State} {k : Packet} (hop : k.opc = opATOM) (haop : k.arg % 16 = 7) (hecrc : k.ecrcOk = true) (hhbm : isHbm k.addr = true)
    (haligned : k.addr % 16 = 0) (hlen : k.data.length = 16) (hreach : Reaches s k.ctx k.addr 16) (haway : k.src ≠ s.dev.node) :
    Ends (.atomGadd128 k) s (fun u =>
      Holds u k.addr (toLE 16 ((peekLE s.mem s.begin k.addr 16 + leOf k.data) % 2 ^ 128)) ∧ SameMemBut s u k.addr 16 ∧
      Answers s u k opATOMRSP (if signed 128 (peekLE s.mem s.begin k.addr 16) + signed 128 (leOf k.data) < -(2 ^ 127) ∨
        2 ^ 127 ≤ signed 128 (peekLE s.mem s.begin k.addr 16) + signed 128 (leOf k.data) then 7 else 0) (peekN s.mem s.begin k.addr 16) ∧
      u.dev.regs = s.dev.regs ∧ u.dev.tiles = s.dev.tiles) := by
  have h := ends_of_atom (i := .atomGadd128) (aop := 7) rfl hop haop hecrc hhbm haligned hlen hreach haway
  have htake : k.data.take 16 = k.data := List.take_of_length_le hlen.le
  have hwidth : aopWidth 7 = 16 := rfl
  rw [Dev.atomResult, haop, hwidth, if_neg (by decide), htake] at h
  generalize peekLE s.mem s.begin k.addr 16 = o at h ⊢
  generalize leOf k.data = x at h ⊢
  have hresult : ∀ y, aopResult 7 o x y = ((o + x) % 2 ^ 128,
      (decide (signed 128 o + signed 128 x < -(2 ^ 127)) || decide (2 ^ 127 ≤ signed 128 o + signed 128 x))) := fun y => by
    rw [← unsigned_add_signed]
    rfl
  rw [hresult] at h
  simpa only [Bool.or_eq_true, decide_eq_true_eq] using h

/-- Settles O33: nothing stands in the way of an atomic that reaches its target, so its one store is the model's own function of the old
value and the operand, and the old value goes back. -/
theorem atomicsReplaceAndReturnTheOldValue : Obligations.AtomicsReplaceAndReturnTheOldValue :=
  ⟨atomDoes_of (fun _ _ => rfl) (fun _ _ _ => rfl), atomDoes_of (fun _ _ => rfl) (fun _ _ _ => rfl), atomDoes_of (fun _ _ => rfl) (fun _ _ _ => rfl),
    atomDoes_of (fun _ _ => rfl) (fun _ _ _ => rfl), atomDoes_of (fun _ _ => rfl) (fun _ _ _ => rfl), atomDoes_of (fun _ _ => rfl) (fun _ _ _ => rfl),
    atomDoes_of (fun _ _ => rfl) (fun _ _ _ => rfl),
    fun _ _ hop haop hecrc hhbm haligned hlen hreach haway => atomGadd128_does hop haop hecrc hhbm haligned hlen hreach haway⟩

end Sys2Proof.Machine
end

section
/-! Fabric requests at this node (R177, R221 to R224, R226): reads, writes, and the groups and pushes that they begin. -/

namespace Sys2Proof.Machine

open Sys2Proof.Claims (Ends Quiet Holds SameMemBut NoBad Reaches Answers)

theorem node_of_regs {d e : Dev} (h : e.regs = d.regs) : e.node = d.node := by
  unfold Dev.node Dev.rf Dev.reg
  rw [h]

/-- A command that ends in the answer to a request of another node. -/
theorem ends_of_answer {i : Instr} {s : State} {x : Effect} {e : Dev} {k : Packet} {op status addr arg : Nat} {data : List Byte} {Q : State → Prop}
    (hexec : exec i s = s.run x) (hx : x s.mem s.begin = e.respond k op status addr arg data) (hop : op < 64) (hstatus : status < 16)
    (haway : k.src ≠ s.dev.node) (hregs : e.regs = s.dev.regs) (hsent : e.localOut = s.dev.localOut) (hinbox : e.inbox = removeOne k s.dev.inbox)
    (hQ : ∀ l p, Q (s.commit (e.withPackets l p))) : Ends i s (fun u => Answers s u k op status data ∧ Q u) := by
  refine ends_of_run hexec hx ⟨answers_of_respond addr arg hop hstatus haway (node_of_regs hregs) hsent hinbox, ?_⟩
  obtain ⟨l, p, hp, -, -⟩ := sendPacket_packets e (e.answerTo k op status addr arg data)
  rw [respond_eq, hp]
  exact hQ l p

/-- A command that ends in one write and the answer to a request of another node. -/
theorem ends_of_answered_write {i : Instr} {s : State} {x : Effect} {e : Dev} {k : Packet} {op status addr arg a : Nat} {data bs : List Byte} {Q : State → Prop}
    (hexec : exec i s = s.run x) (hx : x s.mem s.begin = e.respond k op status addr arg data) (hop : op < 64) (hstatus : status < 16)
    (haway : k.src ≠ s.dev.node) (hregs : e.regs = s.dev.regs) (hsent : e.localOut = s.dev.localOut) (hinbox : e.inbox = removeOne k s.dev.inbox)
    (hstores : e.stores = (s.begin.pokeN a bs).stores) (hwipes : e.wipes = []) (hQ : ∀ l p, Q (s.commit (e.withPackets l p))) :
    Ends i s (fun u => Holds u a bs ∧ SameMemBut s u a bs.length ∧ Answers s u k op status data ∧ Q u) := by
  obtain ⟨t, hrun, hpending, hanswers, hmem, hq⟩ := ends_of_answer (Q := fun u => (Holds u a bs ∧ SameMemBut s u a bs.length) ∧ Q u) hexec hx hop hstatus haway
    hregs hsent hinbox fun l p => ⟨holds_of_pokeN s (d := e.withPackets l p) hstores hwipes, hQ l p⟩
  exact ⟨t, hrun, hpending, hmem.1, hmem.2, hanswers, hq⟩

/-! A write wakes the mover whose ring it touches (R190). -/

def Dev.withTiles (d : Dev) (l : Map Tile) : Dev := { d with tiles := l }

@[simp] theorem withTiles_fields (d : Dev) (l : Map Tile) : (d.withTiles l).regs = d.regs ∧ (d.withTiles l).counters = d.counters ∧
    (d.withTiles l).badBursts = d.badBursts ∧ (d.withTiles l).localOut = d.localOut ∧ (d.withTiles l).inbox = d.inbox ∧
    (d.withTiles l).inGroups = d.inGroups ∧ (d.withTiles l).stores = d.stores ∧ (d.withTiles l).wipes = d.wipes ∧ (d.withTiles l).node = d.node :=
  ⟨rfl, rfl, rfl, rfl, rfl, rfl, rfl, rfl, rfl⟩

@[simp] theorem taken_fields (d : Dev) (k : Packet) : (d.taken k).regs = d.regs ∧ (d.taken k).counters = d.counters ∧ (d.taken k).tiles = d.tiles ∧
    (d.taken k).localOut = d.localOut ∧ (d.taken k).inbox = removeOne k d.inbox ∧ (d.taken k).inGroups = d.inGroups ∧ (d.taken k).stores = d.stores ∧
    (d.taken k).wipes = d.wipes ∧ (d.taken k).tags = d.tags := ⟨rfl, rfl, rfl, rfl, rfl, rfl, rfl, rfl, rfl⟩

theorem wakeMover_eq (d : Dev) (a n : Nat) : ∃ l, d.wakeMover a n = d.withTiles l ∧ ∀ j, ((d.withTiles l).tile j).badWords = (d.tile j).badWords := by
  unfold Dev.wakeMover
  cases scrPlace a with
  | none => exact ⟨d.tiles, rfl, fun _ => rfl⟩
  | some p =>
    dsimp only
    split
    · refine ⟨(d.setTile p.1 { d.tile p.1 with moverAwake := true }).tiles, rfl, fun j => ?_⟩
      change ((d.setTile p.1 { d.tile p.1 with moverAwake := true }).tile j).badWords = _
      by_cases hj : p.1 = j
      · subst hj; rw [Dev.tile_setTile_same]
      · rw [Dev.tile_setTile, if_neg hj]
    · exact ⟨d.tiles, rfl, fun _ => rfl⟩

/-- A write that reaches its memory is performed there. -/
theorem write_reached {d : Dev} (hbursts : d.badBursts = []) (hwords : ∀ j, (d.tile j).badWords = []) (m : Mem) (a : Nat) (bs : List Byte) : ∃ l,
    (d.wakeMover a bs.length).store m a bs = ((d.withTiles l).pokeN a bs, none) := by
  obtain ⟨l, hl, hkeep⟩ := wakeMover_eq d a bs.length
  exact ⟨l, by rw [hl, store_good (d := d.withTiles l) hbursts (fun j => (hkeep j).trans (hwords j))]⟩

/-! RD and WR (R224). -/

theorem fabRd_run {s : State} {k : Packet} (hop : k.opc = opRD) (hecrc : k.ecrcOk = true) : xFab opRD k s.mem s.begin = s.begin.serveRd s.mem k := by
  rw [xFab, if_pos hop, Dev.serveFab, checked_ok hecrc, if_pos hop]

theorem fabWr_run {s : State} {k : Packet} (hop : k.opc = opWR) (hecrc : k.ecrcOk = true) : xFab opWR k s.mem s.begin = s.begin.serveWr s.mem k := by
  rw [xFab, if_pos hop, Dev.serveFab, checked_ok hecrc, if_neg (by rw [hop]; decide), if_pos hop]

theorem fabRd_answers {s : State} {k : Packet} (hop : k.opc = opRD) (hecrc : k.ecrcOk = true) (hblock : inBlock k.addr (k.arg % 512) = true)
    (hreach : Reaches s k.ctx k.addr (k.arg % 512)) (haway : k.src ≠ s.dev.node) :
    Ends (.fabRd k) s (fun u => Answers s u k opRDRSP 0 ((List.range (k.arg % 512)).map (fun i => s.read (k.addr + i))) ∧ u.mem = s.mem ∧
      u.dev.regs = s.dev.regs ∧ u.dev.tiles = s.dev.tiles) := by
  have hbytes : peekN s.mem s.begin k.addr (k.arg % 512) = (List.range (k.arg % 512)).map (fun i => s.read (k.addr + i)) := by
    rw [peekN_eq_map]
    exact List.map_congr_left fun i _ => peek_of_unwritten s rfl rfl _
  obtain ⟨-, -, -, -, -, -, -, -, hgood⟩ := id hreach
  obtain ⟨c, hload⟩ := read_reached hgood k k.addr (k.arg % 512)
  have hserve : s.begin.serveRd s.mem k = ((s.begin.taken k).withCounters c).respond k opRDRSP 0 0 0 (peekN s.mem s.begin k.addr (k.arg % 512)) := by
    unfold Dev.serveRd
    dsimp only
    rw [if_neg (by simp [hblock]), gate_go hreach]
    dsimp only
    rw [hload]
  rw [← hbytes]
  exact ends_of_answer (x := xFab opRD k) rfl ((fabRd_run hop hecrc).trans hserve) (by decide) (by decide) haway rfl rfl rfl
    fun l p => ⟨State.commit_mem s _ rfl rfl, by rw [State.commit_regs]; rfl, by rw [State.commit_tiles]; rfl⟩

theorem fabWr_writes {s : State} {k : Packet} (hop : k.opc = opWR) (hecrc : k.ecrcOk = true) (hblock : inBlock k.addr k.data.length = true)
    (hreach : Reaches s k.ctx k.addr k.data.length) (haway : k.src ≠ s.dev.node) :
    Ends (.fabWr k) s (fun u => Holds u k.addr k.data ∧ SameMemBut s u k.addr k.data.length ∧ Answers s u k opWRACK 0 [] ∧
      u.dev.regs = s.dev.regs ∧ u.dev.counters = s.dev.counters) := by
  obtain ⟨-, -, -, -, -, -, -, -, hbursts, hwords⟩ := id hreach
  obtain ⟨w, hstore⟩ := write_reached (d := s.begin.taken k) hbursts hwords s.mem k.addr k.data
  have hserve : s.begin.serveWr s.mem k = (((s.begin.taken k).withTiles w).pokeN k.addr k.data).respond k opWRACK 0 0 0 [] := by
    unfold Dev.serveWr
    dsimp only
    rw [if_neg (by simp [hblock]), gate_go hreach]
    dsimp only
    rw [hstore]
  obtain ⟨e, he⟩ : ∃ e, e = ((s.begin.taken k).withTiles w).pokeN k.addr k.data := ⟨_, rfl⟩
  rw [← he] at hserve
  exact ends_of_answered_write (x := xFab opWR k) rfl ((fabWr_run hop hecrc).trans hserve) (by decide) (by decide) haway (by simp [he]) (by simp [he])
    (by simp [he]) (by rw [he]; rfl) (by simp [he]) fun l p => ⟨by simp [he], by simp [he]⟩

/-- The failing answer of a read and of a write. -/
theorem answerFail_rd {d : Dev} {k : Packet} (hop : k.opc = opRD) (status addr : Nat) : d.answerFail k status addr = d.respond k opRDRSP status addr 0 [] := by
  have hrsp : respOf k.opc = some opRDRSP := by rw [hop]; rfl
  rw [Dev.answerFail, hrsp]
  dsimp only
  rw [if_neg (by rw [hop]; decide)]

theorem answerFail_wr {d : Dev} {k : Packet} (hop : k.opc = opWR) (status addr : Nat) : d.answerFail k status addr = d.respond k opWRACK status addr 0 [] := by
  have hrsp : respOf k.opc = some opWRACK := by rw [hop]; rfl
  rw [Dev.answerFail, hrsp]
  dsimp only
  rw [if_neg (by rw [hop]; decide)]

/-- A request with a wrong check is counted and answered ECRC (R221). -/
theorem fabRd_wrong_check {s : State} {k : Packet} (hop : k.opc = opRD) (hecrc : k.ecrcOk = false) (haway : k.src ≠ s.dev.node) :
    Ends (.fabRd k) s (fun u => Answers s u k opRDRSP 9 [] ∧ u.dev.count Reg.fabEcrcErr = s.dev.count Reg.fabEcrcErr + 1 ∧ u.mem = s.mem ∧
      u.dev.regs = s.dev.regs) := by
  have hrun : xFab opRD k s.mem s.begin = ((s.begin.taken k).bump Reg.fabEcrcErr).respond k opRDRSP 9 0 0 [] := by
    rw [xFab, if_pos hop, Dev.serveFab, Dev.checked, if_neg (by simp [hecrc]), answerFail_rd hop]
  exact ends_of_answer (x := xFab opRD k) rfl hrun (by decide) (by decide) haway rfl rfl rfl
    fun l p => ⟨by rw [Dev.count_commit, (withPackets_fields _ _ _).2.2.2.2.2.2.2.2.2.2.2.2.2.2.2.1, Dev.count_bump_same]; rfl, State.commit_mem s _ rfl rfl,
      by rw [State.commit_regs]; rfl⟩

/-- A write under a context that may not reach its memory is counted, recorded and answered (R177). -/
theorem fabWr_refused {s : State} {k : Packet} (hop : k.opc = opWR) (hecrc : k.ecrcOk = true) (hblock : inBlock k.addr k.data.length = true)
    (hin : inMemory k.addr k.data.length = true) (hrun : s.dev.pwr.state = .run) (hlost : s.dev.lost (memDie k.addr) = false)
    (hmay : s.dev.admits k.ctx k.addr k.data.length = false) (haway : k.src ≠ s.dev.node) :
    Ends (.fabWr k) s (fun u => Answers s u k opWRACK 2 [] ∧ u.mem = s.mem ∧ u.dev.regs = s.dev.regs ∧ u.dev.tiles = s.dev.tiles ∧
      u.dev.count (Reg.memAccessViol (memDie k.addr)) = s.dev.count (Reg.memAccessViol (memDie k.addr)) + 1) := by
  have hlen : k.data.length ≠ 0 := fun h => by simp [inBlock, h] at hblock
  have hbelow := below_of_inMemory hlen hin
  have hctx : k.ctx < 64 := fb_lt_two_pow _ _ _
  have hcheck := Dev.accessCheck_violation (d := s.begin) hin hbelow hlost hmay
  obtain ⟨f, hf⟩ : ∃ f, f = (s.begin.bump (Reg.memAccessViol (memDie k.addr))).event [k.ctx] 0x0302 2 k.addr k.ctx 0 := ⟨_, rfl⟩
  rw [← hf] at hcheck
  have hcount : f.count (Reg.memAccessViol (memDie k.addr)) = s.dev.count (Reg.memAccessViol (memDie k.addr)) + 1 := by
    rw [hf, Dev.count_event_of_le _ _ _ _ _ _ _ (memAccessViol_ge _) (by simp [hctx]), Dev.count_bump_same, Dev.count_begin]
  have hgate : s.begin.gate (.fabric k) k.ctx k.addr k.data.length true none = (f, .fail 2 k.addr) := by
    unfold Dev.gate
    rw [if_neg (by omega), if_neg (by simp [hlen, hin]), if_neg (by simp [hrun]), if_neg (by simp [hrun]), hcheck]
    rfl
  have hserve : s.begin.serveWr s.mem k = (f.taken k).respond k opWRACK 2 k.addr 0 [] := by
    unfold Dev.serveWr
    dsimp only
    rw [if_neg (by simp [hblock]), hgate]
    exact answerFail_wr hop 2 k.addr
  have hregs : f.regs = s.dev.regs := by simp [hf]
  have htiles : f.tiles = s.dev.tiles := by simp [hf]
  have hstores : f.stores = [] := by simp [hf]
  have hwipes : f.wipes = [] := by simp [hf]
  have hsent : f.localOut = s.dev.localOut := by simp [hf]
  have hinbox : (f.taken k).inbox = removeOne k s.dev.inbox := congrArg (removeOne k) (by simp [hf])
  exact ends_of_answer (x := xFab opWR k) rfl ((fabWr_run hop hecrc).trans hserve) (by decide) (by decide) haway hregs hsent hinbox
    fun l p => ⟨State.commit_mem s _ hstores hwipes, by rw [State.commit_regs]; exact hregs, by rw [State.commit_tiles]; exact htiles,
      by rw [Dev.count_commit]; exact hcount⟩

end Sys2Proof.Machine
end

section
/-! Bulk groups at this node (R226). -/

namespace Sys2Proof.Machine

open Sys2Proof.Claims (Ends Quiet Holds SameMemBut NoBad Reaches Answers)

def Dev.withGroups (d : Dev) (l : List InGroup) : Dev := { d with inGroups := l }

@[simp] theorem withGroups_fields (d : Dev) (l : List InGroup) : (d.withGroups l).regs = d.regs ∧ (d.withGroups l).localOut = d.localOut ∧
    (d.withGroups l).inbox = d.inbox ∧ (d.withGroups l).inGroups = l ∧ (d.withGroups l).stores = d.stores ∧ (d.withGroups l).wipes = d.wipes :=
  ⟨rfl, rfl, rfl, rfl, rfl, rfl⟩

/-- The only segment of a group settles it. -/
theorem segmentDone_only {d : Dev} {k : Packet} (hnone : d.inGroups = []) (hlast : k.last = true) (hfirst : fld k.arg 19 16 = 0) :
    d.segmentDone k 0 0 = ((d.taken k).withGroups []).respond k opBWACK 0 0 (k.arg % 65536) [] := by
  unfold Dev.segmentDone
  simp [hnone, hlast, hfirst, Dev.withGroups]

/-- The first segment of a longer group opens it. -/
theorem segmentDone_first {d : Dev} {k : Packet} (hnone : d.inGroups = []) (hlast : k.last = false) :
    ∃ g, d.segmentDone k 0 0 = (d.taken k).withGroups [g] := by
  unfold Dev.segmentDone
  exact ⟨_, by simp [hnone, hlast, Dev.withGroups]; rfl⟩

theorem fabBwr_run {s : State} {k : Packet} (hop : k.opc = opBWR) (hecrc : k.ecrcOk = true) : xFab opBWR k s.mem s.begin = s.begin.serveBwr s.mem k := by
  rw [xFab, if_pos hop, Dev.serveFab, checked_ok hecrc, if_neg (by rw [hop]; decide), if_neg (by rw [hop]; decide), if_neg (by rw [hop]; decide), if_pos hop]

/-- A segment that reaches its memory is written there. -/
theorem serveBwr_reached {s : State} {k : Packet} (hblock : inBlock k.addr k.data.length = true) (hreach : Reaches s k.ctx k.addr k.data.length)
    (hnone : s.dev.inGroups = []) : ∃ w, s.begin.serveBwr s.mem k = ((s.begin.withTiles w).pokeN k.addr k.data).segmentDone k 0 0 := by
  obtain ⟨-, -, -, -, -, -, -, -, hbursts, hwords⟩ := id hreach
  obtain ⟨w, hstore⟩ := write_reached (d := s.begin) hbursts hwords s.mem k.addr k.data
  have hfits : s.begin.groupFits k = true := by
    have hnone' : s.begin.inGroups = [] := hnone
    rw [Dev.groupFits, hnone']
    rfl
  refine ⟨w, ?_⟩
  unfold Dev.serveBwr
  dsimp only
  rw [if_neg (by simp [hfits]), if_neg (by simp [hblock]), gate_go hreach]
  dsimp only
  rw [hstore]

theorem fabBwr_only {s : State} {k : Packet} (hop : k.opc = opBWR) (hecrc : k.ecrcOk = true) (hblock : inBlock k.addr k.data.length = true)
    (hreach : Reaches s k.ctx k.addr k.data.length) (haway : k.src ≠ s.dev.node) (hnone : s.dev.inGroups = []) (hlast : k.last = true)
    (hfirst : fld k.arg 19 16 = 0) :
    Ends (.fabBwr k) s (fun u => Holds u k.addr k.data ∧ SameMemBut s u k.addr k.data.length ∧ Answers s u k opBWACK 0 [] ∧
      u.dev.inGroups = [] ∧ u.dev.regs = s.dev.regs) := by
  obtain ⟨w, hserve⟩ := serveBwr_reached hblock hreach hnone
  rw [segmentDone_only (d := (s.begin.withTiles w).pokeN k.addr k.data) hnone hlast hfirst] at hserve
  obtain ⟨e, he⟩ : ∃ e, e = (((s.begin.withTiles w).pokeN k.addr k.data).taken k).withGroups [] := ⟨_, rfl⟩
  rw [← he] at hserve
  exact ends_of_answered_write (x := xFab opBWR k) rfl ((fabBwr_run hop hecrc).trans hserve) (by decide) (by decide) haway (by simp [he]) (by simp [he])
    (by simp [he]) (by rw [he]; rfl) (by simp [he]) fun l p => ⟨by simp [he], by simp [he]⟩

theorem fabBwr_opens {s : State} {k : Packet} (hop : k.opc = opBWR) (hecrc : k.ecrcOk = true) (hblock : inBlock k.addr k.data.length = true)
    (hreach : Reaches s k.ctx k.addr k.data.length) (hnone : s.dev.inGroups = []) (hlast : k.last = false) :
    Ends (.fabBwr k) s (fun u => Holds u k.addr k.data ∧ SameMemBut s u k.addr k.data.length ∧ u.dev.localOut = s.dev.localOut ∧
      u.dev.inGroups.length = 1 ∧ u.dev.regs = s.dev.regs) := by
  obtain ⟨w, hserve⟩ := serveBwr_reached hblock hreach hnone
  obtain ⟨g, hg⟩ := segmentDone_first (d := (s.begin.withTiles w).pokeN k.addr k.data) hnone hlast
  obtain ⟨e, he⟩ : ∃ e, e = (((s.begin.withTiles w).pokeN k.addr k.data).taken k).withGroups [g] := ⟨_, rfl⟩
  rw [← he] at hg
  obtain ⟨hholds, hsame⟩ := holds_of_pokeN s (d := e) (a := k.addr) (bs := k.data) (by rw [he]; rfl) (by simp [he])
  refine ends_of_run (x := xFab opBWR k) rfl ((fabBwr_run hop hecrc).trans (hserve.trans hg)) ⟨hholds, hsame, ?_, ?_, ?_⟩
  all_goals simp [he]

/-- A segment that finds the table full is answered BUSY. -/
theorem fabBwr_busy {s : State} {k : Packet} (hop : k.opc = opBWR) (hecrc : k.ecrcOk = true) (hfull : s.dev.groupFits k = false)
    (haway : k.src ≠ s.dev.node) :
    Ends (.fabBwr k) s (fun u => Answers s u k opBWACK 8 [] ∧ u.mem = s.mem ∧ u.dev.inGroups = s.dev.inGroups ∧ u.dev.regs = s.dev.regs ∧
      u.dev.counters = s.dev.counters) := by
  have hfull' : s.begin.groupFits k = false := hfull
  have hserve : s.begin.serveBwr s.mem k = (s.begin.taken k).respond k opBWACK 8 0 (k.arg % 65536) [] := by
    unfold Dev.serveBwr
    exact if_pos (by simp [hfull'])
  exact ends_of_answer (x := xFab opBWR k) rfl ((fabBwr_run hop hecrc).trans hserve) (by decide) (by decide) haway rfl rfl rfl
    fun l p => ⟨State.commit_mem s _ rfl rfl, by rw [State.commit_inGroups]; rfl, by rw [State.commit_regs]; rfl, by rw [State.commit_counters]; rfl⟩

end Sys2Proof.Machine
end

section
/-! Requests that this package sends (R226, R227): what issuing one changes. -/

namespace Sys2Proof.Machine

open Sys2Proof.Claims (Ends Quiet Holds SameMemBut NoBad Reaches Answers)

/-- What the issue of requests may change. -/
structure Traffic where
  tags : List Tag
  nextTag : Nat
  nextBulk : Nat
  outGroups : List OutGroup
  sent : List Packet
  delivered : List Packet

def Dev.traffic (d : Dev) : Traffic := ⟨d.tags, d.nextTag, d.nextBulk, d.outGroups, d.localOut, d.inbox⟩

def Dev.withRequests (d : Dev) (x : Traffic) : Dev :=
  { d with tags := x.tags, nextTag := x.nextTag, nextBulk := x.nextBulk, outGroups := x.outGroups, localOut := x.sent, inbox := x.delivered }

/-- Device `e` is `d` after the requests `l` have been issued. -/
structure Issues (d e : Dev) (l : List Tag) : Prop where
  frame : e = d.withRequests e.traffic
  tags : e.tags = d.tags ++ l

theorem issues_refl (d : Dev) : Issues d d [] := ⟨rfl, (List.append_nil _).symm⟩

theorem Issues.trans {d e f : Dev} {l l' : List Tag} (h : Issues d e l) (h' : Issues e f l') : Issues d f (l ++ l') := by
  refine ⟨?_, by rw [h'.tags, h.tags, List.append_assoc]⟩
  rw [h'.frame]
  rw [h.frame]
  rfl

theorem Issues.fields {d e : Dev} {l : List Tag} (h : Issues d e l) : e.regs = d.regs ∧ e.counters = d.counters ∧ e.tiles = d.tiles ∧
    e.ctxs = d.ctxs ∧ e.stores = d.stores ∧ e.wipes = d.wipes ∧ e.pushes = d.pushes ∧ e.bridges = d.bridges ∧ e.ras = d.ras ∧ e.inGroups = d.inGroups := by
  rw [h.frame]
  exact ⟨rfl, rfl, rfl, rfl, rfl, rfl, rfl, rfl, rfl, rfl⟩

/-- A tag that serves `u` with its first numbers. -/
structure Serves (t : Tag) (u : Purpose) (a b : Nat) : Prop where
  purpose : t.purpose = u
  a : t.a = a
  b : t.b = b
  live : t.reserved = false

theorem fabRequest_issues (d : Dev) (k : Packet) (t : Tag) {u : Purpose} {a b : Nat} (h : Serves t u a b) : ∃ t', Issues d (d.fabRequest k t) [t'] ∧
    Serves t' u a b ∧ (d.fabRequest k t).outGroups = d.outGroups ∧ (d.fabRequest k t).nextBulk = d.nextBulk ∧
    (d.fabRequest k t).localOut.length + (d.fabRequest k t).inbox.length = d.localOut.length + d.inbox.length + 1 := by
  unfold Dev.fabRequest
  extract_lets n t' e
  obtain ⟨l, p, hp, hlen, -⟩ := sendPacket_packets e (k.withField 72 57 n)
  rw [hp]
  exact ⟨t', ⟨rfl, rfl⟩, ⟨h.purpose, h.a, h.b, h.live⟩, rfl, rfl, hlen⟩

theorem newTag_serves (u : Purpose) (a b c addr : Nat) : Serves (newTag u a b c addr) u a b := ⟨rfl, rfl, rfl, rfl⟩

/-- A bulk group is one request. -/
theorem bulkGroup_issues (d : Dev) (c g : Nat) (bs : List Byte) (u : Purpose) (a b e : Nat) : ∃ t, Issues d (d.bulkGroup c g bs u a b e) [t] ∧
    Serves t u a b ∧ (d.bulkGroup c g bs u a b e).outGroups.length = d.outGroups.length + 1 := by
  unfold Dev.bulkGroup
  extract_lets id segs n mk pkts pre t grp f
  have hsend : ∃ l p, f.each pkts (fun d k => d.sendPacket k) = f.withPackets l p :=
    Dev.each_invariant (P := fun x => ∃ l p, x = f.withPackets l p) (fun x k _ hx => by
      obtain ⟨l, p, rfl⟩ := hx
      obtain ⟨l', p', h, -, -⟩ := sendPacket_packets (f.withPackets l p) k
      exact ⟨l', p', h⟩) ⟨f.localOut, f.inbox, rfl⟩
  obtain ⟨l, p, hp⟩ := hsend
  rw [hp]
  exact ⟨t, ⟨rfl, rfl⟩, ⟨rfl, rfl, rfl, rfl⟩, by rw [(withPackets_fields f l p).2.2.2.2.2.2.2.2.1]; exact List.length_append⟩

/-- A write at a global address is at least one request. -/
theorem fabWrite_issues (d : Dev) (c g : Nat) {bs : List Byte} (hbs : bs ≠ []) (u : Purpose) (a b e : Nat) : ∃ l, Issues d (d.fabWrite c g bs u a b e) l ∧
    l ≠ [] ∧ ∀ t ∈ l, Serves t u a b := by
  unfold Dev.fabWrite
  rw [if_neg (by simpa using hbs)]
  extract_lets head f
  have hgroups : ∀ (ps : List (Nat × List Byte)) (f : Dev), ∃ l, Issues f (f.each ps (fun d p => d.bulkGroup c (g + head + p.1) p.2 u a b e)) l ∧
      l.length = ps.length ∧ ∀ t ∈ l, Serves t u a b := fun ps => by
    induction ps with
    | nil => exact fun f => ⟨[], issues_refl f, rfl, by simp⟩
    | cons p ps ih =>
      intro f
      obtain ⟨t, ht, hserves, -⟩ := bulkGroup_issues f c (g + head + p.1) p.2 u a b e
      obtain ⟨l, hl, hlen, hall⟩ := ih (f.bulkGroup c (g + head + p.1) p.2 u a b e)
      exact ⟨[t] ++ l, ht.trans hl, by simp [hlen], by simpa using ⟨hserves, hall⟩⟩
  obtain ⟨l, hl, hlen, hall⟩ := hgroups (splitAtBlocks 4096 (bs.length / 4096 + 2) 0 (bs.drop head)) f
  by_cases hhead : head = 0
  · have hf : f = d := if_pos hhead
    rw [hf] at hl ⊢
    refine ⟨l, hl, fun hnil => ?_, hall⟩
    rw [hnil, hhead] at hlen
    simp [splitAtBlocks, hbs] at hlen
  · have hf : f = d.fabWr c g (bs.take head) u a b e := if_neg hhead
    obtain ⟨t, ht, hserves, -⟩ := fabRequest_issues d ((d.makePacket opWR (gNode g) c (gOffset g) 0 (bs.take head)).withField 3 2 2) (newTag u a b e g)
      (newTag_serves u a b e g)
    rw [hf] at hl ⊢
    exact ⟨[t] ++ l, Issues.trans ht hl, by simp, by simpa using ⟨hserves, hall⟩⟩

/-! BGET (R226). -/

theorem fabBget_run {s : State} {k : Packet} (hop : k.opc = opBGET) (hecrc : k.ecrcOk = true) :
    xFab opBGET k s.mem s.begin = s.begin.serveBget s.mem k := by
  rw [xFab, if_pos hop, Dev.serveFab, checked_ok hecrc, if_neg (by rw [hop]; decide), if_neg (by rw [hop]; decide), if_neg (by rw [hop]; decide),
    if_neg (by rw [hop]; decide), if_pos hop]

/-- One more push in the list. -/
def Dev.withPush (d : Dev) (x : Push) : Dev := { d with pushes := d.pushes ++ [x] }

theorem fabBget_pushes {s : State} {k : Packet} (hop : k.opc = opBGET) (hecrc : k.ecrcOk = true) (hmin : 1 ≤ leOf (k.data.take 4))
    (hmax : leOf (k.data.take 4) ≤ 2 ^ 30) (hreach : Reaches s k.ctx k.addr (leOf (k.data.take 4))) :
    Ends (.fabBget k) s (fun u => (∃ x : Push, u.dev.pushes = s.dev.pushes ++ [x] ∧ x.hdr = k.hdr ∧
        (∃ t, t ∈ u.dev.tags ∧ t.purpose = .bgetPush ∧ t.a = x.id ∧ t.reserved = false)) ∧
      s.dev.tags.length < u.dev.tags.length ∧ u.mem = s.mem ∧ u.dev.regs = s.dev.regs ∧ u.dev.tiles = s.dev.tiles) := by
  obtain ⟨-, -, -, -, -, -, -, -, hbursts, hwords⟩ := id hreach
  have hload := load_good (d := s.begin.taken k) hbursts hwords s.mem k.addr (leOf (k.data.take 4))
  obtain ⟨bs, hbs⟩ : ∃ bs, bs = peekN s.mem (s.begin.taken k) k.addr (leOf (k.data.take 4)) := ⟨_, rfl⟩
  obtain ⟨f, hf⟩ : ∃ f, f = (s.begin.taken k).withPush { id := (s.begin.taken k).freePush, hdr := k.hdr } := ⟨_, rfl⟩
  have hserve : s.begin.serveBget s.mem k = f.fabWrite k.ctx k.arg bs .bgetPush (s.begin.taken k).freePush 0 0 := by
    unfold Dev.serveBget
    dsimp only
    rw [if_neg (by simp; omega), gate_go hreach]
    dsimp only
    rw [hload, ← hbs, hf]
    rfl
  have hsome : bs ≠ [] := fun h => by
    have hlen := congrArg List.length hbs
    rw [h, peekN_length, List.length_nil] at hlen
    omega
  obtain ⟨l, hissues, hl, hserves⟩ := fabWrite_issues f k.ctx k.arg hsome .bgetPush (s.begin.taken k).freePush 0 0
  obtain ⟨e, he⟩ : ∃ e, e = f.fabWrite k.ctx k.arg bs .bgetPush (s.begin.taken k).freePush 0 0 := ⟨_, rfl⟩
  rw [← he] at hserve hissues
  obtain ⟨hregs, -, htiles, -, hstores, hwipes, hpushes, -⟩ := hissues.fields
  obtain ⟨t, ht⟩ := List.exists_mem_of_ne_nil l hl
  have htags : e.tags = s.dev.tags ++ l := by rw [hissues.tags, hf]; rfl
  refine ends_of_run (x := xFab opBGET k) rfl ((fabBget_run hop hecrc).trans hserve)
    ⟨⟨{ id := (s.begin.taken k).freePush, hdr := k.hdr }, ?_, rfl, t, ?_, (hserves t ht).purpose, (hserves t ht).a, (hserves t ht).live⟩, ?_, ?_, ?_, ?_⟩
  · rw [State.commit_pushes, hpushes, hf]; rfl
  · rw [State.commit_tags, htags]; exact List.mem_append_right _ ht
  · rw [State.commit_tags, htags, List.length_append]
    exact Nat.lt_add_of_pos_right (List.length_pos_iff.mpr hl)
  · exact State.commit_mem s _ (by rw [hstores, hf]; rfl) (by rw [hwipes, hf]; rfl)
  · rw [State.commit_regs, hregs, hf]; rfl
  · rw [State.commit_tiles, htiles, hf]; rfl

/-- Settles O32: each request passes the gate or is refused there, and what it stores and answers is read off its own operation. That a
full table answers BUSY for each segment is the model's choice (log entry 42). -/
theorem fabricRequestsArePerformedAndAnswered : Obligations.FabricRequestsArePerformedAndAnswered :=
  ⟨fun _ _ hop hecrc hblock hreach haway => fabRd_answers hop hecrc hblock hreach haway,
    fun _ _ hop hecrc hblock hreach haway => fabWr_writes hop hecrc hblock hreach haway,
    fun _ _ hop hecrc hblock hreach haway hnone hlast hfirst => fabBwr_only hop hecrc hblock hreach haway hnone hlast hfirst,
    fun _ _ hop hecrc hblock hreach hnone hlast => fabBwr_opens hop hecrc hblock hreach hnone hlast,
    fun _ _ hop hecrc hfull haway => fabBwr_busy hop hecrc hfull haway,
    fun _ _ hop hecrc hmin hmax hreach => fabBget_pushes hop hecrc hmin hmax hreach,
    fun _ _ hop hecrc haway => fabRd_wrong_check hop hecrc haway,
    fun _ _ hop hecrc hblock hin hrun hlost hmay haway => fabWr_refused hop hecrc hblock hin hrun hlost hmay haway⟩

end Sys2Proof.Machine
end

section
/-! Responses settle requests (R221, R222, R226, R227, R240). -/

namespace Sys2Proof.Machine

open Sys2Proof.Claims (Ends Quiet Holds SameMemBut NoBad Settles DropsStale)

/-- A response that answers no request. -/
theorem xResponse_stale {op : Nat} {k : Packet} {m : Mem} {d : Dev} (hop : k.opc = op) (hecrc : k.ecrcOk = true) (hnone : d.answered k = none) :
    xResponse op k m d = (d.taken k).dropStale k.ctx := by
  unfold xResponse
  rw [if_neg (by simp [hop]), if_neg (by simp [hecrc]), hnone]

/-- A good response to a request whose destination is ready ends the request. -/
theorem xResponse_ok {op : Nat} {k : Packet} {m : Mem} {d : Dev} {t : Tag} (hop : k.opc = op) (hecrc : k.ecrcOk = true) (hfound : d.answered k = some t)
    (hlive : t.reserved = false) (hgen : k.gen = d.genOf t.ctx) (hstatus : k.status = 0) (hready : d.moverWaits t k.data.length = (d, false)) :
    xResponse op k m d = ((d.taken k).settle t).fabEnded m t (.ok k.data) 0 false := by
  unfold xResponse
  rw [if_neg (by simp [hop]), if_neg (by simp [hecrc]), hfound]
  dsimp only
  rw [if_neg (by simp [hlive, hgen]), if_neg (by simp [hstatus]), if_pos hstatus, hready, if_pos hstatus, hstatus]
  rfl

/-- The request that a settled response answered is gone. -/
theorem mem_settle (d : Dev) (t : Tag) (x : Tag) : x ∈ (d.settle t).tags ↔ x ∈ d.tags ∧ ¬ (x.port = t.port ∧ x.tag = t.tag) := by
  have htags : (d.settle t).tags = d.tags.filter (fun x => !(x.port == t.port && x.tag == t.tag)) := rfl
  rw [htags, List.mem_filter]
  simp only [Bool.not_eq_true', Bool.and_eq_false_iff, beq_eq_false_iff_ne, ne_eq, not_and_or]

theorem settle_fields (d : Dev) (t : Tag) : (d.settle t).regs = d.regs ∧ (d.settle t).counters = d.counters ∧ (d.settle t).tiles = d.tiles ∧
    (d.settle t).badBursts = d.badBursts ∧ (d.settle t).stores = d.stores ∧ (d.settle t).wipes = d.wipes :=
  ⟨rfl, rfl, rfl, rfl, rfl, rfl⟩

/-- The response of a mover's write, atomic or push, and that of a wait probe, carry nothing. -/
theorem fabEnded_plain {d : Dev} {m : Mem} {t : Tag} (hpurpose : t.purpose = .mover ∧ t.op ≠ opRD ∨ t.purpose = .probe) (bs : List Byte) (status : Nat) :
    d.fabEnded m t (.ok bs) status false = d := by
  rcases hpurpose with ⟨hmover, hop⟩ | hprobe
  · unfold Dev.fabEnded
    rw [hmover]
    unfold Dev.moverEnded
    extract_lets n live
    cases live with
    | false => rfl
    | true =>
      rw [if_neg (by decide)]
      exact if_pos (by simp [hop])
  · unfold Dev.fabEnded Dev.pipeEnded
    rw [hprobe]

theorem settles_of {i : Packet → Instr} {rsp : Nat} {u : Purpose} (hexec : ∀ k s, exec (i k) s = s.run (xResponse rsp k)) (hu : u = .mover ∨ u = .probe) :
    Settles i rsp u := by
  intro s k t hop hecrc hfound hlive hgen hstatus hpurpose hread
  have hplain : t.purpose = .mover ∧ t.op ≠ opRD ∨ t.purpose = .probe := by
    rcases hu with rfl | rfl
    · exact .inl ⟨hpurpose, hread⟩
    · exact .inr hpurpose
  have hready : s.begin.moverWaits t k.data.length = (s.begin, false) := if_neg (by simp [hread])
  refine ⟨quiet_of_run (hexec k s) ?_ rfl rfl, fun x => mem_settle (s.begin.taken k) t x⟩
  rw [xResponse_ok (d := s.begin) hop hecrc hfound hlive hgen hstatus hready, fabEnded_plain hplain]

theorem dropsStale_of {i : Packet → Instr} {rsp : Nat} (hexec : ∀ k s, exec (i k) s = s.run (xResponse rsp k)) : DropsStale i rsp := by
  intro s k hop hecrc hnone
  have hnone' : s.begin.answered k = none := hnone
  refine quiet_of_run (hexec k s) ?_ rfl rfl
  exact xResponse_stale hop hecrc hnone'

theorem fabEnded_read {d : Dev} {m : Mem} {t : Tag} (hpurpose : t.purpose = .mover) (hread : t.op = opRD) (hbursts : d.badBursts = [])
    (hwords : ∀ j, (d.tile j).badWords = []) (hentry : (d.tile t.a).moves.any (fun e => e.number == BitVec.ofNat 32 t.b && e.error == 0) = true)
    (bs : List Byte) : ∃ w, d.fabEnded m t (.ok bs) 0 false = (d.withTiles w).pokeN t.c bs := by
  obtain ⟨w, hstore⟩ := write_reached hbursts hwords m t.c bs
  refine ⟨w, ?_⟩
  unfold Dev.fabEnded
  rw [hpurpose]
  unfold Dev.moverEnded
  extract_lets n live
  have hfresh : live = true := hentry
  rw [hfresh, if_neg (by decide)]
  dsimp only
  rw [if_neg (by simp [hread]), hstore]

/-- What a mover reads goes where its request names (R191, R240). -/
theorem rdRsp_moves {s : State} {k : Packet} {t : Tag} (hop : k.opc = opRDRSP) (hecrc : k.ecrcOk = true) (hfound : s.dev.answered k = some t)
    (hlive : t.reserved = false) (hgen : k.gen = s.dev.genOf t.ctx) (hstatus : k.status = 0) (hpurpose : t.purpose = .mover) (hread : t.op = opRD)
    (hwait : s.dev.mustWait t.c k.data.length = false) (hshared : s.dev.directory = []) (hgood : NoBad s)
    (hentry : (s.dev.tile t.a).moves.any (fun e => e.number == BitVec.ofNat 32 t.b && e.error == 0) = true) :
    Ends (.rdRsp k) s (fun u => Holds u t.c k.data ∧ SameMemBut s u t.c k.data.length ∧ (∀ x, x ∈ u.dev.tags → x.port = t.port → x.tag ≠ t.tag) ∧
      u.dev.regs = s.dev.regs ∧ u.dev.counters = s.dev.counters) := by
  obtain ⟨hbursts, hwords⟩ := hgood
  have hready : s.begin.moverWaits t k.data.length = (s.begin, false) := by
    have hwait' : s.begin.mustWait t.c k.data.length = false := hwait
    unfold Dev.moverWaits
    split
    · rw [if_neg (by simp [hwait'])]
      exact Dev.cohBlocked_of_no_line (d := s.begin) hshared _ _ _
    · rfl
  have hrun := xResponse_ok (m := s.mem) (d := s.begin) hop hecrc hfound hlive hgen hstatus hready
  obtain ⟨hsregs, hscounters, hstiles, hsbursts, hsstores, hswipes⟩ := settle_fields (s.begin.taken k) t
  have hstags := mem_settle (s.begin.taken k) t
  generalize (s.begin.taken k).settle t = f at hrun hsregs hscounters hstiles hsbursts hsstores hswipes hstags
  have htile : ∀ j, f.tile j = s.dev.tile j := fun j => congrArg (fun l => mget ({} : Tile) l j) hstiles
  obtain ⟨w, hended⟩ := fabEnded_read (d := f) (m := s.mem) hpurpose hread (hsbursts.trans hbursts) (fun j => by rw [htile, hwords]) (by rw [htile, hentry]) k.data
  rw [hended] at hrun
  obtain ⟨hholds, hsame⟩ := holds_of_pokeN s (d := (f.withTiles w).pokeN t.c k.data) (a := t.c) (bs := k.data)
    (congrArg ((cellsAt t.c k.data).reverse ++ ·) hsstores) hswipes
  refine ends_of_run (x := xResponse opRDRSP k) rfl hrun
    ⟨hholds, hsame, fun x hx hport htag => ((hstags x).mp ?_).2 ⟨hport, htag⟩, by simp [hsregs], by simp [hscounters]⟩
  rw [State.commit_tags] at hx
  exact hx

/-- A response with a wrong check is counted and dropped (R221). -/
theorem rdRsp_wrong_check {s : State} {k : Packet} (hop : k.opc = opRDRSP) (hecrc : k.ecrcOk = false) :
    Quiet (.rdRsp k) s ((s.begin.taken k).bump Reg.fabEcrcErr) := by
  refine quiet_of_run (x := xResponse opRDRSP k) rfl ?_ rfl rfl
  unfold xResponse
  rw [if_neg (by simp [hop]), if_pos (by simp [hecrc])]

/-- The groups of a tag marked to be sent again. -/
def Dev.withBusy (d : Dev) (n : Nat) : Dev :=
  { d with outGroups := d.outGroups.map (fun g => if g.tag.tag == n then { g with busy := true } else g) }

@[simp] theorem withBusy_fields (d : Dev) (n : Nat) : (d.withBusy n).tags = d.tags ∧ (d.withBusy n).regs = d.regs ∧ (d.withBusy n).counters = d.counters ∧
    (d.withBusy n).stores = d.stores ∧ (d.withBusy n).wipes = d.wipes := ⟨rfl, rfl, rfl, rfl, rfl⟩

theorem bwAck_busy {s : State} {k : Packet} {t : Tag} (hop : k.opc = opBWACK) (hecrc : k.ecrcOk = true) (hfound : s.dev.answered k = some t)
    (hlive : t.reserved = false) (hgen : k.gen = s.dev.genOf t.ctx) (hstatus : k.status = 8) :
    Ends (.bwAck k) s (fun u => u.dev.tags = s.dev.tags ∧ (∀ g, g ∈ u.dev.outGroups → g.tag.tag = t.tag → g.busy = true) ∧
      u.dev.outGroups.length = s.dev.outGroups.length ∧ u.mem = s.mem ∧ u.dev.regs = s.dev.regs ∧ u.dev.counters = s.dev.counters) := by
  have hfound' : s.begin.answered k = some t := hfound
  have hgen' : k.gen = s.begin.genOf t.ctx := hgen
  obtain ⟨e, he⟩ : ∃ e, e = (s.begin.taken k).withBusy t.tag := ⟨_, rfl⟩
  have hrun : xResponse opBWACK k s.mem s.begin = e := by
    unfold xResponse
    rw [if_neg (by simp [hop]), if_neg (by simp [hecrc]), hfound', he]
    dsimp only
    rw [if_neg (by simp [hlive, hgen']), if_pos (by simp [hop, hstatus])]
    rfl
  have hgroups : e.outGroups = s.dev.outGroups.map (fun g => if g.tag.tag == t.tag then { g with busy := true } else g) := by rw [he]; rfl
  refine ends_of_run (x := xResponse opBWACK k) rfl hrun ⟨by simp [he], fun g hg htag => ?_, ?_, State.commit_mem s _ (by simp [he]) (by simp [he]), by simp [he],
    by simp [he]⟩
  · rw [State.commit_outGroups, hgroups, List.mem_map] at hg
    obtain ⟨g', -, rfl⟩ := hg
    split
    case isTrue => rfl
    case isFalse h =>
      rw [if_neg h] at htag
      exact absurd (beq_iff_eq.mpr htag) h
  · rw [State.commit_outGroups, hgroups, List.length_map]

/-! Timeouts (R227). -/

/-- Every request of the fabric under TAG `n` retired, and its timeout counted. -/
def Dev.timedOut (d : Dev) (n : Nat) : Dev := (d.retireTags (fun x => x.port == fabricPort && x.tag == n)).bump Reg.fabTimeout

theorem timedOut_tags (d : Dev) (n : Nat) :
    (d.timedOut n).tags = d.tags.map (fun t => if t.port == fabricPort && t.tag == n then { t with reserved := true } else t) := rfl

theorem timedOut_fields (d : Dev) (n : Nat) : (d.timedOut n).regs = d.regs ∧ (d.timedOut n).tiles = d.tiles ∧ (d.timedOut n).stores = d.stores ∧
    (d.timedOut n).wipes = d.wipes ∧ (d.timedOut n).count Reg.fabTimeout = d.count Reg.fabTimeout + 1 :=
  ⟨rfl, rfl, rfl, rfl, Dev.count_bump_same _ _⟩

theorem xFabRequestTimeout_found {m : Mem} {d : Dev} {n : Nat} {t : Tag}
    (hfound : d.tags.find? (fun t => t.port == fabricPort && t.tag == n && !t.reserved) = some t) :
    xFabRequestTimeout n m d = (d.timedOut n).fabEnded m t (.failed 0x0510 t.addr.toNat) 0 true := by
  rw [xFabRequestTimeout, hfound]
  rfl

theorem timeout_probe {s : State} {n : BitVec 16} {t : Tag}
    (hfound : s.dev.tags.find? (fun t => t.port == fabricPort && t.tag == n.toNat && !t.reserved) = some t) (hpurpose : t.purpose = .probe) :
    Ends (.fabRequestTimeout n) s (fun u => u.dev.count Reg.fabTimeout = s.dev.count Reg.fabTimeout + 1 ∧
      (∀ x, x ∈ u.dev.tags → x.port = fabricPort → x.tag = n.toNat → x.reserved = true) ∧ u.dev.tags.length = s.dev.tags.length ∧
      u.mem = s.mem ∧ u.dev.regs = s.dev.regs ∧ u.dev.tiles = s.dev.tiles) := by
  have hended : (s.begin.timedOut n.toNat).fabEnded s.mem t (.failed 0x0510 t.addr.toNat) 0 true = s.begin.timedOut n.toNat := by
    unfold Dev.fabEnded Dev.pipeEnded
    rw [hpurpose]
  obtain ⟨e, he⟩ : ∃ e, e = s.begin.timedOut n.toNat := ⟨_, rfl⟩
  have htags := timedOut_tags s.begin n.toNat
  obtain ⟨hregs, htiles, hstores, hwipes, hcount⟩ := timedOut_fields s.begin n.toNat
  have hrun := (xFabRequestTimeout_found (m := s.mem) (d := s.begin) hfound).trans hended
  rw [← he] at hrun htags hregs htiles hstores hwipes hcount
  refine ends_of_run (x := xFabRequestTimeout n.toNat) rfl hrun ⟨?_, fun x hx hport htag => ?_, ?_, State.commit_mem s _ hstores hwipes, ?_, ?_⟩
  · rw [Dev.count_commit, hcount, Dev.count_begin]
  · rw [State.commit_tags, htags, List.mem_map] at hx
    obtain ⟨y, -, rfl⟩ := hx
    split
    case isTrue => rfl
    case isFalse h =>
      rw [if_neg h] at hport htag
      exact absurd (by simp [hport, htag]) h
  · rw [State.commit_tags, htags, List.length_map]; rfl
  · rw [State.commit_regs, hregs]; rfl
  · rw [State.commit_tiles, htiles]; rfl

/-- A mover entry that fails on a tile of no context ends the tile's work and does no more. -/
theorem moveFail_of_unowned {d : Dev} (m : Mem) {t : Nat} (h : d.ownerOf t = none) (number : BitVec 32) (code addr : Nat) :
    ∃ l, d.moveFail m t number code addr false = d.withTiles l ∧ ((d.withTiles l).tile t).stopped = true ∧ ((d.withTiles l).tile t).moverStopped = true := by
  unfold Dev.moveFail Dev.tileErrorAt
  extract_lets slot x d1 y d2 d3
  have howner : d3.ownerOf t = none := h
  rw [howner]
  have htile : d2.tile t = y.workEnded := Dev.tile_setTile_same _ _ _
  refine ⟨d2.tiles, rfl, ?_, ?_⟩
  · exact congrArg Tile.stopped htile
  · exact congrArg Tile.moverStopped htile

theorem timeout_mover {s : State} {n : BitVec 16} {t : Tag}
    (hfound : s.dev.tags.find? (fun t => t.port == fabricPort && t.tag == n.toNat && !t.reserved) = some t) (hpurpose : t.purpose = .mover)
    (hentry : (s.dev.tile t.a).moves.any (fun e => e.number == BitVec.ofNat 32 t.b && e.error == 0) = true) (howner : s.dev.ownerOf t.a = none) :
    Ends (.fabRequestTimeout n) s (fun u => (u.dev.tile t.a).stopped = true ∧ (u.dev.tile t.a).moverStopped = true ∧
      u.dev.count Reg.fabTimeout = s.dev.count Reg.fabTimeout + 1 ∧ u.mem = s.mem ∧ u.dev.regs = s.dev.regs) := by
  obtain ⟨l, hl, hstopped, hmover⟩ := moveFail_of_unowned (d := s.begin.timedOut n.toNat) s.mem howner (BitVec.ofNat 32 t.b) 0x0510 t.addr.toNat
  have hended : (s.begin.timedOut n.toNat).fabEnded s.mem t (.failed 0x0510 t.addr.toNat) 0 true = (s.begin.timedOut n.toNat).withTiles l := by
    unfold Dev.fabEnded
    rw [hpurpose]
    unfold Dev.moverEnded
    extract_lets k live
    have hfresh : live = true := hentry
    rw [hfresh]
    exact hl
  obtain ⟨hregs, htiles, hstores, hwipes, hcount⟩ := timedOut_fields s.begin n.toNat
  have hrun := (xFabRequestTimeout_found (m := s.mem) (d := s.begin) hfound).trans hended
  generalize s.begin.timedOut n.toNat = e at hrun hregs htiles hstores hwipes hcount hstopped hmover
  refine ends_of_run (x := xFabRequestTimeout n.toNat) rfl hrun ⟨hstopped, hmover, ?_, State.commit_mem s _ hstores hwipes, ?_⟩
  · rw [Dev.count_commit]; exact hcount
  · rw [State.commit_regs]; exact hregs

def Dev.withCairns (d : Dev) (l : Map Cairn) : Dev := { d with cairns := l }

theorem tagReserve_expires {s : State} {n : BitVec 16} {t : Tag}
    (hfound : s.dev.tags.find? (fun t => t.port == fabricPort && t.tag == n.toNat && t.reserved) = some t) :
    Ends (.tagReserveExpiry n) s (fun u => (∀ x, x ∈ u.dev.tags ↔ x ∈ s.dev.tags ∧ ¬ (x.port = fabricPort ∧ x.tag = n.toNat)) ∧
      u.mem = s.mem ∧ u.dev.regs = s.dev.regs ∧ u.dev.tiles = s.dev.tiles ∧ u.dev.counters = s.dev.counters) := by
  have hnamed := List.find?_some hfound
  simp only [Bool.and_eq_true, beq_iff_eq] at hnamed
  obtain ⟨⟨hport, htag⟩, -⟩ := hnamed
  have hfound' : s.begin.tags.find? (fun t => t.port == fabricPort && t.tag == n.toNat && t.reserved) = some t := hfound
  obtain ⟨e, he⟩ : ∃ e, e = xTagReserveExpiry n.toNat s.mem s.begin := ⟨_, rfl⟩
  have hrun : e = (s.begin.releaseTag t).withCairns e.cairns := by
    rw [he, xTagReserveExpiry, hfound']
    rfl
  generalize e.cairns = c at hrun
  have htags : e.tags = s.dev.tags.filter (fun x => !(x.port == t.port && x.tag == t.tag)) := by rw [hrun]; rfl
  refine ends_of_run (x := xTagReserveExpiry n.toNat) rfl he.symm ⟨fun x => ?_, State.commit_mem s _ (by rw [hrun]; rfl) (by rw [hrun]; rfl), ?_, ?_, ?_⟩
  · rw [State.commit_tags, htags, List.mem_filter, hport, htag]
    simp only [Bool.not_eq_true', Bool.and_eq_false_iff, beq_eq_false_iff_ne, ne_eq, not_and_or]
  · rw [State.commit_regs, hrun]; rfl
  · rw [State.commit_tiles, hrun]; rfl
  · rw [State.commit_counters, hrun]; rfl

/-- The groups of a bulk number no longer wait to be sent again. -/
def Dev.withoutBusy (d : Dev) (b : BitVec 16) : Dev :=
  { d with outGroups := d.outGroups.map (fun x => if x.bulk == b && x.busy then { x with busy := false } else x) }

/-- Packets for other nodes leave in their order. -/
theorem each_sendPacket_away (d : Dev) (ks : List Packet) (haway : ∀ k ∈ ks, k.dst ≠ d.node) :
    d.each ks (fun d k => d.sendPacket k) = d.withPackets (d.localOut ++ ks.map (fun k => k.withField 255 224 k.ecrc)) d.inbox := by
  induction ks generalizing d with
  | nil => rw [List.map_nil, List.append_nil]; rfl
  | cons k ks ih =>
    rw [Dev.each_cons, sendPacket_away (haway k List.mem_cons_self),
      ih (d.withPackets (d.localOut ++ [k.withField 255 224 k.ecrc]) d.inbox) (fun x hx => haway x (List.mem_cons_of_mem _ hx)), List.map_cons,
      (withPackets_fields _ _ _).1, (withPackets_fields _ _ _).2.1, List.append_assoc]
    rfl

theorem group_retried {s : State} {b : BitVec 16} {g : OutGroup} (hfound : s.dev.outGroups.find? (fun g => g.bulk == b && g.busy) = some g)
    (haway : ∀ k, k ∈ g.pkts → k.dst ≠ s.dev.node) :
    Ends (.bwrGroupRetry b) s (fun u => u.dev.localOut = s.dev.localOut ++ g.pkts.map (fun k => k.withField 255 224 k.ecrc) ∧
      (∀ x, x ∈ u.dev.outGroups → x.bulk = b → x.busy = false) ∧ u.dev.tags = s.dev.tags ∧ u.mem = s.mem ∧ u.dev.regs = s.dev.regs) := by
  have hfound' : s.begin.outGroups.find? (fun g => g.bulk == b && g.busy) = some g := hfound
  obtain ⟨l, hl⟩ : ∃ l, l = s.dev.localOut ++ g.pkts.map (fun k => k.withField 255 224 k.ecrc) := ⟨_, rfl⟩
  have hrun : xBwrGroupRetry b s.mem s.begin = (s.begin.withoutBusy b).withPackets l s.dev.inbox := by
    rw [xBwrGroupRetry, hfound', hl]
    exact each_sendPacket_away (s.begin.withoutBusy b) g.pkts haway
  have hgroups : (s.begin.withoutBusy b).outGroups = s.dev.outGroups.map (fun x => if x.bulk == b && x.busy then { x with busy := false } else x) := rfl
  refine ends_of_run (x := xBwrGroupRetry b) rfl hrun ⟨?_, fun x hx hb => ?_, ?_, State.commit_mem s _ rfl rfl, ?_⟩
  · rw [State.commit_localOut, ← hl]; rfl
  · rw [State.commit_outGroups, (withPackets_fields _ _ _).2.2.2.2.2.2.2.2.1, hgroups, List.mem_map] at hx
    obtain ⟨y, -, rfl⟩ := hx
    split
    case isTrue => rfl
    case isFalse h =>
      rw [if_neg h] at hb
      simpa [hb] using h
  · rw [State.commit_tags]; rfl
  · rw [State.commit_regs]; rfl

/-- Settles O34: a response finds its request by TAG and opcode (log entry 90, the model's choice), and is dropped, kept for a retry, or
settles it; the mover's own atomics and pushes of log entry 92 carry nothing further. -/
theorem responsesSettleRequests : Obligations.ResponsesSettleRequests :=
  ⟨fun _ _ _ hop hecrc hfound hlive hgen hstatus hpurpose hread _ hwait hshared hgood hentry =>
      rdRsp_moves hop hecrc hfound hlive hgen hstatus hpurpose hread hwait hshared hgood hentry,
    settles_of (fun _ _ => rfl) (.inl rfl), settles_of (fun _ _ => rfl) (.inl rfl), settles_of (fun _ _ => rfl) (.inl rfl),
    settles_of (fun _ _ => rfl) (.inl rfl), settles_of (fun _ _ => rfl) (.inr rfl), dropsStale_of (fun _ _ => rfl), dropsStale_of (fun _ _ => rfl),
    dropsStale_of (fun _ _ => rfl), dropsStale_of (fun _ _ => rfl), dropsStale_of (fun _ _ => rfl), dropsStale_of (fun _ _ => rfl),
    fun _ _ hop hecrc => rdRsp_wrong_check hop hecrc,
    fun _ _ _ hop hecrc hfound hlive hgen hstatus => bwAck_busy hop hecrc hfound hlive hgen hstatus,
    fun _ _ _ hfound hpurpose => timeout_probe hfound hpurpose,
    fun _ _ _ hfound hpurpose hentry howner => timeout_mover hfound hpurpose hentry howner,
    fun _ _ _ hfound => tagReserve_expires hfound,
    fun _ _ _ hfound haway => group_retried hfound haway⟩

end Sys2Proof.Machine
end

section
/-! Stream bridges gather cells (R244). -/

namespace Sys2Proof.Machine

open Sys2Proof.Claims (Ends Quiet Holds SameMemBut NoBad)

theorem Dev.bridge_setBridge_same (d : Dev) (b : Nat) (x : Bridge) : (d.setBridge b x).bridge b = x := mget_mset_same _ _ _ _

theorem Dev.bridge_setBridge_other (d : Dev) {b j : Nat} (x : Bridge) (h : j ≠ b) : (d.setBridge b x).bridge j = d.bridge j := mget_mset_other _ _ _ h.symm

/-- The modules of the die-to-die links exchanged: all that a credit for a cell changes. -/
def Dev.withModules (d : Dev) (l : Map D2dModule) : Dev := { d with modules := l }

theorem bridgeCredit_eq (d : Dev) (m : Mem) (b : Nat) : ∃ l, d.bridgeCredit m b = d.withModules l := by
  unfold Dev.bridgeCredit
  split
  · exact ⟨d.modules, rfl⟩
  · split
    · exact ⟨d.modules, rfl⟩
    · extract_lets high s
      split
      · exact ⟨d.modules, rfl⟩
      · exact ⟨_, rfl⟩

/-- A bridge that carries a route on a die in reach, and has not stopped. -/
structure Carries (d : Dev) (b : Nat) : Prop where
  routed : (d.bridge b).route.isSome = true
  present : d.lost (4 + b / 16) = false
  live : (d.bridge b).stopped = false

/-- The bridge with one more cell. -/
def Bridge.gathered (x : Bridge) (cell : BitVec 512) : Bridge := { x with cells := x.cells ++ [cell], prod := x.prod + 64 }

theorem xBridgeCell_room {d : Dev} {b : Nat} (h : Carries d b) (hroom : (d.bridge b).room = true) (m : Mem) (cell : BitVec 512) (last : Bool) : ∃ l,
    xBridgeCell b cell last m d =
      if last then ((d.setBridge b ((d.bridge b).gathered cell)).withModules l).bridgeFlush b (roundUp ((d.bridge b).prod + 64) 256 - ((d.bridge b).prod + 64))
      else if ((d.bridge b).prod + 64) % 4096 = 0 then ((d.setBridge b ((d.bridge b).gathered cell)).withModules l).bridgeFlush b 0
      else (d.setBridge b ((d.bridge b).gathered cell)).withModules l := by
  obtain ⟨l, hl⟩ := bridgeCredit_eq (d.setBridge b ((d.bridge b).gathered cell)) m b
  refine ⟨l, ?_⟩
  have hroute : (d.bridge b).route.isNone = false := by rw [← Option.not_isSome, h.routed]; rfl
  unfold xBridgeCell
  extract_lets x
  rw [if_neg (by simp [x, hroute, h.present]), if_neg (by simp [x, h.live]), if_neg (by simp [x, hroom])]
  rw [← hl]
  rfl

theorem xBridgeCell_full {d : Dev} {b : Nat} (h : Carries d b) (hroom : (d.bridge b).room = false) (m : Mem) (cell : BitVec 512) (last : Bool) :
    xBridgeCell b cell last m d = d.setBridge b { d.bridge b with needCons := true } := by
  have hroute : (d.bridge b).route.isNone = false := by rw [← Option.not_isSome, h.routed]; rfl
  unfold xBridgeCell
  extract_lets x
  rw [if_neg (by simp [x, hroute, h.present]), if_neg (by simp [x, h.live]), if_pos (by simp [x, hroom])]

theorem bridge_gathers {s : State} {b : Fin 32} {cell : BitVec 512} (h : Carries s.dev b) (hroom : (s.dev.bridge b).room = true)
    (hopen : ((s.dev.bridge b).prod + 64) % 4096 ≠ 0) :
    Ends (.bridgeCell b cell false) s (fun u => u.dev.bridge b = { s.dev.bridge b with cells := (s.dev.bridge b).cells ++ [cell], prod := (s.dev.bridge b).prod + 64 } ∧
      (∀ j, j ≠ b.val → u.dev.bridge j = s.dev.bridge j) ∧ u.dev.localOut = s.dev.localOut ∧ u.dev.tags = s.dev.tags ∧ u.mem = s.mem ∧
      u.dev.regs = s.dev.regs ∧ u.dev.counters = s.dev.counters) := by
  have hbegin : Carries s.begin b := ⟨h.routed, h.present, h.live⟩
  obtain ⟨l, hrun⟩ := xBridgeCell_room (d := s.begin) hbegin hroom s.mem cell false
  have hopen' : ¬ ((s.begin.bridge b).prod + 64) % 4096 = 0 := hopen
  rw [if_neg (by decide), if_neg hopen'] at hrun
  refine ends_of_run (x := xBridgeCell b.val cell false) rfl hrun ⟨?_, fun j hj => ?_, ?_, ?_, State.commit_mem s _ rfl rfl, ?_, ?_⟩
  · exact Dev.bridge_setBridge_same s.begin b ((s.begin.bridge b).gathered cell)
  · exact Dev.bridge_setBridge_other s.begin _ hj
  · rw [State.commit_localOut]; rfl
  · rw [State.commit_tags]; rfl
  · rw [State.commit_regs]; rfl
  · rw [State.commit_counters]; rfl

/-- A flush empties the bridge into one more group. -/
theorem bridgeFlush_issues (d : Dev) (b gap : Nat) : ∃ (e : Dev) (t : Tag) (c : Map (BitVec 48)),
    Issues (d.setBridge b { d.bridge b with cells := [], prod := (d.bridge b).prod + gap }) e [t] ∧ e.outGroups.length = d.outGroups.length + 1 ∧
      d.bridgeFlush b gap = e.withCounters c := by
  unfold Dev.bridgeFlush
  extract_lets x bs f
  obtain ⟨t, ht, -, hgroups⟩ := bulkGroup_issues f x.ctx (x.place x.sent) bs .bridgeData b 0 x.sent
  exact ⟨f.bulkGroup x.ctx (x.place x.sent) bs .bridgeData b 0 x.sent, t, _, ht, hgroups, rfl⟩

theorem bridge_sends {s : State} {b : Fin 32} {cell : BitVec 512} (h : Carries s.dev b) (hroom : (s.dev.bridge b).room = true) :
    Ends (.bridgeCell b cell true) s (fun u => (u.dev.bridge b).cells = [] ∧ (u.dev.bridge b).prod = roundUp ((s.dev.bridge b).prod + 64) 256 ∧
      u.dev.outGroups.length = s.dev.outGroups.length + 1 ∧ u.dev.tags.length = s.dev.tags.length + 1 ∧ u.mem = s.mem ∧ u.dev.regs = s.dev.regs) := by
  have hbegin : Carries s.begin b := ⟨h.routed, h.present, h.live⟩
  obtain ⟨l, hrun⟩ := xBridgeCell_room (d := s.begin) hbegin hroom s.mem cell true
  rw [if_pos rfl] at hrun
  obtain ⟨f, hf⟩ : ∃ f, f = (s.begin.setBridge b ((s.begin.bridge b).gathered cell)).withModules l := ⟨_, rfl⟩
  have hbridge : f.bridge b = (s.dev.bridge b).gathered cell := by
    rw [hf]
    exact Dev.bridge_setBridge_same s.begin b _
  have hfregs : f.regs = s.dev.regs := by rw [hf]; rfl
  have hfgroups : f.outGroups = s.dev.outGroups := by rw [hf]; rfl
  have hftags : f.tags = s.dev.tags := by rw [hf]; rfl
  have hfstores : f.stores = [] := by rw [hf]; rfl
  have hfwipes : f.wipes = [] := by rw [hf]; rfl
  rw [← hf] at hrun
  have hround : (s.dev.bridge b).prod + 64 ≤ roundUp ((s.dev.bridge b).prod + 64) 256 := by unfold roundUp ceilDiv; omega
  obtain ⟨gap, hgap⟩ : ∃ gap, gap = roundUp ((s.begin.bridge b).prod + 64) 256 - ((s.begin.bridge b).prod + 64) := ⟨_, rfl⟩
  have hend : (s.dev.bridge b).prod + 64 + gap = roundUp ((s.dev.bridge b).prod + 64) 256 := by
    rw [hgap]
    exact Nat.add_sub_cancel' hround
  rw [← hgap] at hrun
  obtain ⟨e, t, c, hissues, hgroups, hflush⟩ := bridgeFlush_issues f b gap
  obtain ⟨hregs, -, -, -, hstores, hwipes, -, hbridges, -⟩ := hissues.fields
  have hnow : e.bridge b = { f.bridge b with cells := [], prod := (f.bridge b).prod + gap } := by
    rw [Dev.bridge, hbridges]
    exact Dev.bridge_setBridge_same f b _
  refine ends_of_run (x := xBridgeCell b.val cell true) rfl (hrun.trans hflush) ⟨?_, ?_, ?_, ?_, ?_, ?_⟩
  · exact congrArg Bridge.cells hnow
  · refine (congrArg Bridge.prod hnow).trans ?_
    rw [hbridge]
    exact hend
  · rw [State.commit_outGroups]
    exact hgroups.trans (by rw [hfgroups])
  · rw [State.commit_tags]
    exact (congrArg List.length hissues.tags).trans (by rw [List.length_append]; exact congrArg (· + 1) (congrArg List.length hftags))
  · exact State.commit_mem s _ (hstores.trans hfstores) (hwipes.trans hfwipes)
  · rw [State.commit_regs]
    exact hregs.trans hfregs

theorem bridge_waits {s : State} {b : Fin 32} {cell : BitVec 512} {last : Bool} (h : Carries s.dev b) (hroom : (s.dev.bridge b).room = false) :
    Quiet (.bridgeCell b cell last) s (s.begin.setBridge b { s.dev.bridge b with needCons := true }) :=
  quiet_of_run (x := xBridgeCell b.val cell last) rfl (xBridgeCell_full (d := s.begin) ⟨h.routed, h.present, h.live⟩ hroom s.mem cell last) rfl rfl

/-- The reader's CONS is asked for with one request. -/
theorem bridge_polls {s : State} {b : Fin 32} (h : Carries s.dev b) (hneed : (s.dev.bridge b).needCons = true)
    (hidle : s.dev.outstanding .bridgeCons b 0 = false) :
    Ends (.bridgeConsPoll b) s (fun u => u.dev.outstanding .bridgeCons b 0 = true ∧ u.dev.tags.length = s.dev.tags.length + 1 ∧
      u.dev.localOut.length + u.dev.inbox.length = s.dev.localOut.length + s.dev.inbox.length + 1 ∧ u.dev.bridges = s.dev.bridges ∧
      u.mem = s.mem ∧ u.dev.regs = s.dev.regs ∧ u.dev.counters = s.dev.counters) := by
  have hbegin : Carries s.begin b := ⟨h.routed, h.present, h.live⟩
  have hroute : (s.begin.bridge b).route.isNone = false := by rw [← Option.not_isSome, hbegin.routed]; rfl
  have hneed' : (s.begin.bridge b).needCons = true := hneed
  have hidle' : s.begin.outstanding .bridgeCons b 0 = false := hidle
  obtain ⟨k, hk⟩ : ∃ k, k = s.begin.makePacket opRD (gNode ((s.begin.bridge b).ring.toNat + 8)) (s.begin.bridge b).ctx
    (gOffset ((s.begin.bridge b).ring.toNat + 8)) 8 [] := ⟨_, rfl⟩
  have hrun : xBridgeConsPoll b s.mem s.begin = s.begin.fabRequest k (newTag .bridgeCons b 0 0 ((s.begin.bridge b).ring.toNat + 8)) := by
    unfold xBridgeConsPoll
    extract_lets x
    rw [if_neg (by simp only [x, hroute, hbegin.present, hbegin.live, hneed', hidle']; decide), hk]
    rfl
  obtain ⟨t, hissues, hserves, -, -, hlen⟩ := fabRequest_issues s.begin k _ (newTag_serves .bridgeCons b 0 0 ((s.begin.bridge b).ring.toNat + 8))
  generalize s.begin.fabRequest k (newTag .bridgeCons b 0 0 ((s.begin.bridge b).ring.toNat + 8)) = e at hrun hissues hlen
  obtain ⟨hregs, hcounters, -, -, hstores, hwipes, -, hbridges, -⟩ := hissues.fields
  have htags : e.tags = s.dev.tags ++ [t] := hissues.tags
  refine ends_of_run (x := xBridgeConsPoll b.val) rfl hrun ⟨?_, ?_, ?_, ?_, State.commit_mem s _ hstores hwipes, ?_, ?_⟩
  · have hout : (s.commit e).dev.tags = s.dev.tags ++ [t] := (State.commit_tags _ _).trans htags
    rw [Dev.outstanding, hout, List.any_append, Bool.or_eq_true]
    exact .inr (by simp [hserves.purpose, hserves.a, hserves.b, hserves.live])
  · rw [State.commit_tags, htags, List.length_append]; rfl
  · rw [State.commit_localOut, State.commit_inbox]; exact hlen
  · rw [State.commit_bridges]; exact hbridges
  · rw [State.commit_regs]; exact hregs
  · rw [State.commit_counters]; exact hcounters

/-- Settles O35: a cell is gathered, sent as one group at LAST, or waits for CONS. The bound of 4 KiB on a group and how PROD follows the
groups are the model's choice (log entry 91). -/
theorem bridgesGatherCells : Obligations.BridgesGatherCells :=
  ⟨fun _ _ _ hrouted hpresent hlive hroom hopen => bridge_gathers ⟨hrouted, hpresent, hlive⟩ hroom hopen,
    fun _ _ _ hrouted hpresent hlive hroom => bridge_sends ⟨hrouted, hpresent, hlive⟩ hroom,
    fun _ _ _ _ hrouted hpresent hlive hroom => bridge_waits ⟨hrouted, hpresent, hlive⟩ hroom,
    fun _ _ hrouted hpresent hlive hneed hidle => bridge_polls ⟨hrouted, hpresent, hlive⟩ hneed hidle⟩

end Sys2Proof.Machine
end

section
/-! Secure boot and the test lock (R434, R436, R438, R441, R451). -/

namespace Sys2Proof.Machine

open Sys2Proof.Claims (Ends Quiet)

/-! A bundle that passes (Tables 15.2 and 16.8). -/

theorem noteDegraded_boot (d : Dev) : d.noteDegraded.sec = d.sec ∧ d.noteDegraded.bringUp = d.bringUp ∧ d.noteDegraded.pwr = d.pwr ∧
    d.noteDegraded.fuses = d.fuses ∧ d.noteDegraded.ctxs = d.ctxs := by
  rcases d.noteDegraded_cases with h | ⟨x, r, h⟩
  · simp only [h, and_self]
  · rw [h]
    refine ⟨by simp [Dev.pkgEvent], by simp [Dev.pkgEvent], by simp [Dev.pkgEvent], by simp [Dev.pkgEvent], ?_⟩
    exact ctxs_event_package _ _ _ _ _ _

/-- What the training of the stacks leaves alone. -/
def Dev.besideStacks (d : Dev) : Dev := { d with hbm := [] }

theorem trainStacks_beside (d : Dev) (o : StackOutcome) : (d.trainStacks o).besideStacks = d.besideStacks := by
  unfold Dev.trainStacks
  refine Dev.each_frame Dev.besideStacks _ (fun d i => ?_) d
  dsimp only
  split
  · rfl
  · split <;> rfl

theorem fields_of_besideStacks {d e : Dev} (h : e.besideStacks = d.besideStacks) : e.sec = d.sec ∧ e.bringUp = d.bringUp ∧ e.pwr = d.pwr ∧
    e.fuses = d.fuses ∧ e.ctxs = d.ctxs ∧ e.tiles = d.tiles ∧ e.stores = d.stores ∧ e.wipes = d.wipes :=
  ⟨congrArg (fun d => d.sec) h, congrArg (fun d => d.bringUp) h, congrArg (fun d => d.pwr) h, congrArg (fun d => d.fuses) h, congrArg (fun d => d.ctxs) h,
    congrArg (fun d => d.tiles) h, congrArg (fun d => d.stores) h, congrArg (fun d => d.wipes) h⟩

/-- Step 5 of the start-up: the keys, the firmware and the fuses of an accepted bundle, before the stacks are trained. -/
def Dev.bundleAccepted (d : Dev) : Dev :=
  let r := listReader d.sec.bundle
  let keys := d.fuses.acceptedKeys r
  { d with
    fuses := d.fuses.blowRevoke keys r, bringUp := .window, pwr := { d.pwr with phase := 3 }
    sec := { d.sec with state := .running, bundleResult := 0, keys := keys, bundle := [], bundleDigest := BitVec.ofNat 512 (digestNum (imageDigest r)) }
    strata := { d.strata with firmware := (sectionsOf r 9).foldl (fun f x => mset f x.index (fwDigest r x, BitVec.ofNat 16 x.svn)) [] } }

theorem bundleTaken_eq (d : Dev) (o : StackOutcome) :
    d.bundleTaken o = if d.pwr.goHeld then ((d.bundleAccepted.trainStacks o).noteDegraded).toLinks else (d.bundleAccepted.trainStacks o).noteDegraded := by
  obtain ⟨-, -, hpwr, -⟩ := noteDegraded_boot (d.bundleAccepted.trainStacks o)
  obtain ⟨-, -, hpwr', -⟩ := fields_of_besideStacks (trainStacks_beside d.bundleAccepted o)
  have hheld : ((d.bundleAccepted.trainStacks o).noteDegraded).pwr.goHeld = d.pwr.goHeld := by rw [hpwr, hpwr']; rfl
  rw [← hheld]
  rfl

/-- Revoked keys stay revoked (R433). -/
theorem blowRevoke_keeps (f : Fuses) (keys : Map (List Byte)) (r : Reader) {i : Nat} (hi : i < 8) (h : f.revoke.getLsbD i = true) :
    (f.blowRevoke keys r).revoke.getLsbD i = true := by
  unfold Fuses.blowRevoke
  split
  · exact h
  · extract_lets want kept v
    split
    · exact h
    · have hbit : f.revoke.toNat.testBit i = true := h
      rw [BitVec.getLsbD_ofNat, Nat.testBit_or, hbit, decide_eq_true hi]
      rfl

/-- What is told of a state after an accepted bundle. -/
structure Booted (d e : Dev) : Prop where
  state : e.sec.state = .running
  result : e.sec.bundleResult = 0
  keys : e.sec.keys = d.fuses.acceptedKeys (listReader d.sec.bundle)
  bringUp : e.bringUp = if d.pwr.goHeld then .links else .window
  phase : e.pwr.phase = if d.pwr.goHeld then 4 else 3
  revoked : ∀ i, i < 8 → d.fuses.revoke.getLsbD i = true → e.fuses.revoke.getLsbD i = true
  tiles : e.tiles = d.tiles
  ctxs : e.ctxs = d.ctxs
  stores : e.stores = d.stores
  wipes : e.wipes = d.wipes

theorem bundleTaken_boots (d : Dev) (o : StackOutcome) : Booted d (d.bundleTaken o) := by
  obtain ⟨hsec, hup, hpwr, hfuses, hctxs⟩ := noteDegraded_boot (d.bundleAccepted.trainStacks o)
  obtain ⟨-, htiles, hstores, hwipes, -⟩ := Dev.noteDegraded_fields (d.bundleAccepted.trainStacks o)
  obtain ⟨hsec', hup', hpwr', hfuses', hctxs', htiles', hstores', hwipes'⟩ := fields_of_besideStacks (trainStacks_beside d.bundleAccepted o)
  rw [bundleTaken_eq]
  generalize (d.bundleAccepted.trainStacks o).noteDegraded = e at hsec hup hpwr hfuses hctxs htiles hstores hwipes ⊢
  rw [hsec'] at hsec
  rw [hup'] at hup
  rw [hpwr'] at hpwr
  rw [hfuses'] at hfuses
  rw [hctxs'] at hctxs
  rw [htiles'] at htiles
  rw [hstores'] at hstores
  rw [hwipes'] at hwipes
  have hrevoked : ∀ i, i < 8 → d.fuses.revoke.getLsbD i = true → e.fuses.revoke.getLsbD i = true := fun i hi h => by
    rw [hfuses]
    exact blowRevoke_keeps _ _ _ hi h
  by_cases hheld : d.pwr.goHeld = true
  · have hlinks : e.toLinks = { e with bringUp := .links, pwr := { e.pwr with phase := 4, linksAt := e.lode.count, goHeld := false } } :=
      if_pos (by rw [hup]; rfl)
    rw [if_pos hheld, hlinks]
    exact ⟨congrArg Sec.state hsec, congrArg Sec.bundleResult hsec, congrArg Sec.keys hsec, (if_pos hheld).symm, (if_pos hheld).symm, hrevoked, htiles, hctxs,
      hstores, hwipes⟩
  · rw [if_neg hheld]
    exact ⟨congrArg Sec.state hsec, congrArg Sec.bundleResult hsec, congrArg Sec.keys hsec, hup.trans (if_neg hheld).symm,
      (congrArg Pwr.phase hpwr).trans (if_neg hheld).symm, hrevoked, htiles, hctxs, hstores, hwipes⟩

/-! A bundle that fails. -/

/-- Obsidian waits for another bundle, after the one it has failed with `code` (R436). -/
def Dev.bundleFailed (d : Dev) (code : Nat) : Dev :=
  { d with bringUp := .waitBundle, sec := { d.sec with state := .waitBundle, bundle := [], bundleResult := BitVec.ofNat 8 code } }

theorem xBundleVerified_fails {m : Mem} {d : Dev} (hstate : d.sec.state = .verifying) (hup : d.bringUp = .verifying) (o : StackOutcome)
    (hcode : d.bundleResult d.sec.bundle ≠ 0) : xBundleVerified o m d = (d.bundleFailed (d.bundleResult d.sec.bundle)).bump Reg.secSigFail := by
  unfold xBundleVerified
  rw [if_neg (by simp [hstate, hup])]
  exact if_neg hcode

theorem xBundleVerified_holds {m : Mem} {d : Dev} (hstate : d.sec.state = .verifying) (hup : d.bringUp = .verifying) (o : StackOutcome)
    (hcode : d.bundleResult d.sec.bundle = 0) : xBundleVerified o m d = d.bundleTaken o := by
  unfold xBundleVerified
  rw [if_neg (by simp [hstate, hup])]
  exact if_pos hcode

theorem bundle_verified {s : State} {o : StackOutcome} {code : Nat} (hstate : s.dev.sec.state = .verifying) (hup : s.dev.bringUp = .verifying)
    (hcode : code = s.dev.bundleResult s.dev.sec.bundle) :
    Ends (.bundleVerified o) s (fun u => u.mem = s.mem ∧ u.dev.tiles = s.dev.tiles ∧ u.dev.ctxs = s.dev.ctxs ∧
      (code ≠ 0 → u.dev.sec = { s.dev.sec with state := .waitBundle, bundle := [], bundleResult := BitVec.ofNat 8 code } ∧
        u.dev.bringUp = .waitBundle ∧ u.dev.count Reg.secSigFail = s.dev.count Reg.secSigFail + 1 ∧ u.dev.fuses = s.dev.fuses ∧
        u.dev.regs = s.dev.regs ∧ u.dev.strata = s.dev.strata ∧ u.dev.hbm = s.dev.hbm) ∧
      (code = 0 → u.dev.sec.state = .running ∧ u.dev.sec.bundleResult = 0 ∧
        u.dev.sec.keys = s.dev.fuses.acceptedKeys (listReader s.dev.sec.bundle) ∧ u.dev.bringUp = (if s.dev.pwr.goHeld then .links else .window) ∧
        u.dev.pwr.phase = (if s.dev.pwr.goHeld then 4 else 3) ∧
        (∀ i, i < 8 → s.dev.fuses.revoke.getLsbD i = true → u.dev.fuses.revoke.getLsbD i = true))) := by
  have hresult : s.begin.bundleResult s.begin.sec.bundle = code := hcode.symm
  by_cases hzero : code = 0
  · have hrun := xBundleVerified_holds (m := s.mem) (d := s.begin) hstate hup o (hresult.trans hzero)
    have hboots := bundleTaken_boots s.begin o
    generalize s.begin.bundleTaken o = e at hrun hboots
    refine ends_of_run (x := xBundleVerified o) rfl hrun ⟨State.commit_mem s _ hboots.stores hboots.wipes, ?_, ?_, fun h => absurd hzero h,
      fun _ => ⟨?_, ?_, ?_, ?_, ?_, fun i hi h => ?_⟩⟩
    · rw [State.commit_tiles]; exact hboots.tiles
    · rw [State.commit_ctxs]; exact hboots.ctxs
    · rw [State.commit_sec]; exact hboots.state
    · rw [State.commit_sec]; exact hboots.result
    · rw [State.commit_sec]; exact hboots.keys
    · rw [State.commit_bringUp]; exact hboots.bringUp
    · rw [State.commit_pwr]; exact hboots.phase
    · rw [State.commit_fuses]; exact hboots.revoked i hi h
  · have hrun := xBundleVerified_fails (m := s.mem) (d := s.begin) hstate hup o (by rw [hresult]; exact hzero)
    rw [hresult] at hrun
    refine ends_of_run (x := xBundleVerified o) rfl hrun ⟨State.commit_mem s _ rfl rfl, ?_, ?_, fun _ => ⟨?_, ?_, ?_, ?_, ?_, ?_, ?_⟩, fun h => absurd h hzero⟩
    · rw [State.commit_tiles]; rfl
    · rw [State.commit_ctxs]; rfl
    · rw [State.commit_sec]; rfl
    · rw [State.commit_bringUp]; rfl
    · rw [Dev.count_commit, Dev.count_bump_same]; rfl
    · rw [State.commit_fuses]; rfl
    · rw [State.commit_regs]; rfl
    · rw [State.commit_strata]; rfl
    · rw [State.commit_hbm]; rfl

/-! Test access (R451). -/

theorem unlockSelected_of {d : Dev} (htap : mget 0 d.sec.tap 4 = 0x20) (hstate : d.sec.state = .running) (hpresent : d.lost 4 = false) :
    d.unlockSelected = true := by
  have htap' : (mget 0 d.sec.tap 4 == 0x20) = true := beq_iff_eq.mpr htap
  rw [Dev.unlockSelected, htap', Dev.obsidian, hstate, hpresent]
  rfl

theorem unlock_record {s : State} {r : BitVec 512} {sig : List Byte} {n : BitVec 256} (htap : mget 0 s.dev.sec.tap 4 = 0x20)
    (hstate : s.dev.sec.state = .running) (hpresent : s.dev.lost 4 = false) (hnonce : s.dev.sec.nonce = some n) :
    Quiet (.unlockRecord r sig) s (if s.dev.unlockOk r sig n then
      { s.begin with sec := { s.dev.sec with unlockPending := true }, counters := mset s.dev.counters Reg.secUnlocks (s.dev.count Reg.secUnlocks + 1) }
      else s.begin) := by
  have hselected := unlockSelected_of (d := s.begin) htap hstate hpresent
  have hnonce' : s.begin.sec.nonce = some n := hnonce
  have hok : s.begin.unlockOk r sig n = s.dev.unlockOk r sig n := rfl
  have hrun : xUnlockRecord r sig s.mem s.begin =
      if s.dev.unlockOk r sig n then (s.begin.setSec (fun s => { s with unlockPending := true })).bump Reg.secUnlocks else s.begin := by
    unfold xUnlockRecord
    rw [if_neg (by simp [hselected]), hnonce', ← hok]
  by_cases h : s.dev.unlockOk r sig n = true
  · rw [if_pos h] at hrun ⊢
    exact quiet_of_run (x := xUnlockRecord r sig) rfl hrun rfl rfl
  · rw [if_neg h] at hrun ⊢
    exact quiet_of_run (x := xUnlockRecord r sig) rfl hrun rfl rfl

/-- Settles O52: a bundle is kept or discarded by its result, and a failing one counts (R436); an unlock record counts with its nonce. -/
theorem bundlesAndUnlockRecordsAreChecked : Obligations.BundlesAndUnlockRecordsAreChecked := by
  refine ⟨fun s bs hstate hup => ?take, fun s bs hstate => ?busy, fun s o code hstate hup hcode => bundle_verified hstate hup hcode,
    fun s hup hfailed htest hid => ?ready, fun s hid => ?barred, fun s htap hstate hpresent => ?nonce,
    fun s r sig n htap hstate hpresent hnonce => unlock_record htap hstate hpresent hnonce, fun s r sig htap => ?other⟩
  case take =>
    refine quiet_of_run (x := xBundleReceived bs) rfl ?_ rfl rfl
    exact if_neg (by simp [hstate, hup])
  case busy =>
    refine quiet_of_run (x := xBundleReceived bs) rfl ?_ rfl rfl
    exact if_pos (by simp [hstate])
  case ready =>
    refine quiet_of_run (x := xRsaKeyReady) rfl ?_ rfl rfl
    exact if_neg (by simp [hup, hfailed, htest, hid])
  case barred =>
    refine quiet_of_run (x := xRsaKeyReady) rfl ?_ rfl rfl
    exact if_pos (by simp [hid])
  case nonce =>
    have hselected := unlockSelected_of (d := s.begin) htap hstate hpresent
    refine quiet_of_run (x := xUnlockNonceRead) rfl ?_ rfl rfl
    unfold xUnlockNonceRead
    rw [if_neg (by simp [hselected])]
    rfl
  case other =>
    have hselected : s.begin.unlockSelected = false := by
      have htap' : (mget 0 s.begin.sec.tap 4 == 0x20) = false := beq_eq_false_iff_ne.mpr htap
      rw [Dev.unlockSelected, htap', Bool.false_and]
    refine ⟨quiet_of_run (x := xUnlockRecord r sig) rfl (if_pos (by simp [hselected])) rfl rfl, quiet_of_run (x := xUnlockNonceRead) rfl (if_pos (by simp [hselected])) rfl rfl⟩

end Sys2Proof.Machine
end

section
/-! Runs of a context: what starting and ending one changes (R341, R342). -/

namespace Sys2Proof.Machine

open Sys2Proof.Claims (Ends Quiet Completes)

theorem mset_mset {α : Type} (m : Map α) (k : Nat) (v w : α) : mset (mset m k v) k w = mset m k w := by
  induction m with
  | nil => simp [mset]
  | cons p m ih =>
    obtain ⟨j, u⟩ := p
    by_cases hlt : k < j
    · simp [mset, hlt]
    · by_cases heq : k = j
      · simp [mset, heq]
      · simp [mset, hlt, heq, ih]

/-- The runs of context `c` exchanged. -/
def Dev.withRuns (d : Dev) (c : Nat) (l : List Run) : Dev := d.setCtx c { d.ctx c with runs := l }

@[simp] theorem withRuns_fields (d : Dev) (c : Nat) (l : List Run) : (d.withRuns c l).regs = d.regs ∧ (d.withRuns c l).counters = d.counters ∧
    (d.withRuns c l).tiles = d.tiles ∧ (d.withRuns c l).tags = d.tags ∧ (d.withRuns c l).hosts = d.hosts ∧ (d.withRuns c l).lode = d.lode ∧
    (d.withRuns c l).stores = d.stores ∧ (d.withRuns c l).wipes = d.wipes ∧ (∀ t, (d.withRuns c l).tile t = d.tile t) :=
  ⟨rfl, rfl, rfl, rfl, rfl, rfl, rfl, rfl, fun _ => rfl⟩

@[simp] theorem runs_withRuns (d : Dev) (c : Nat) (l : List Run) : ((d.withRuns c l).ctx c).runs = l :=
  congrArg Ctx.runs (Dev.ctx_setCtx_same d c { d.ctx c with runs := l })

@[simp] theorem withRuns_withRuns (d : Dev) (c : Nat) (l l' : List Run) : (d.withRuns c l).withRuns c l' = d.withRuns c l' := by
  unfold Dev.withRuns
  rw [Dev.ctx_setCtx_same]
  exact congrArg (fun m => { d with ctxs := m }) (mset_mset _ _ _ _)

theorem tile_runs (d : Dev) (c : Nat) (l : List Run) (g : List Tag) (h : Map HostPort) (t : Nat) : ((d.withRuns c l).withTraffic g h).tile t = d.tile t := rfl

theorem withTraffic_withRuns (d : Dev) (c : Nat) (l : List Run) (g g' : List Tag) (h h' : Map HostPort) :
    ((d.withTraffic g h).withRuns c l).withTraffic g' h' = (d.withRuns c l).withTraffic g' h' := rfl

/-- A list of runs with `x` in the place of the runs of its number. -/
def replaced (l : List Run) (x : Run) : List Run := l.map (fun y => if y.seq == x.seq then x else y)

theorem putRun_eq (d : Dev) (c : Nat) (x : Run) : d.putRun c x = d.withRuns c (replaced (d.ctx c).runs x) := rfl

/-- The run of a number. -/
def runOf (l : List Run) (q : BitVec 32) : Option Run := l.find? (fun x => x.seq == q)

theorem seq_of_runOf {l : List Run} {q : BitVec 32} {x : Run} (h : runOf l q = some x) : x.seq = q := by
  simpa using List.find?_some h

theorem runOf_replaced_same {l : List Run} {q : BitVec 32} {x y : Run} (h : runOf l q = some x) (hy : y.seq = q) : runOf (replaced l y) q = some y := by
  induction l with
  | nil => cases h
  | cons z l ih =>
    by_cases hz : z.seq = q
    · simp [runOf, replaced, hz, hy]
    · have htail : runOf l q = some x := by simpa [runOf, hz] using h
      have := ih htail
      simpa [runOf, replaced, hz, hy] using this

theorem runOf_replaced_other {l : List Run} {q : BitVec 32} {y : Run} (hy : y.seq ≠ q) : runOf (replaced l y) q = runOf l q := by
  induction l with
  | nil => rfl
  | cons z l ih =>
    by_cases hz : z.seq = y.seq
    · simpa [runOf, replaced, hz, hy] using ih
    · by_cases hq : z.seq = q
      · have hqy : q ≠ y.seq := hy.symm
        simp [runOf, replaced, hq, hqy]
      · simpa [runOf, replaced, hz, hq] using ih

theorem earlier_replaced {l : List Run} {q : BitVec 32} {y : Run} (hy : y.seq = q) : earlier (replaced l y) q = earlier l q := by
  induction l with
  | nil => rfl
  | cons z l ih =>
    by_cases hz : z.seq = q
    · simp [earlier, replaced, hz, hy]
    · have htail : earlier (replaced l y) q = earlier l q := ih
      simpa [earlier, replaced, hz, hy] using htail

/-- A run that has started at `now`. -/
def Run.begun (x : Run) (now : BitVec 64) : Run := { x with state := .running, startLt := now }

/-- A run that has ended at `now`. -/
def Run.endedAs (x : Run) (status code unit detail addr : Nat) (now : BitVec 64) : Run :=
  { x with state := .ending, status := BitVec.ofNat 8 status, code := BitVec.ofNat 16 code, unit := BitVec.ofNat 8 unit, detail := BitVec.ofNat 32 detail,
           addr := BitVec.ofNat 64 addr, endLt := now, bodySent := true }

theorem runOf_begun {l : List Run} {q : BitVec 32} {x : Run} (h : runOf l q = some x) (now : BitVec 64) :
    runOf (replaced l (x.begun now)) q = some (x.begun now) := runOf_replaced_same (y := x.begun now) h (seq_of_runOf (x := x) h)

theorem earlier_begun {l : List Run} {q : BitVec 32} {x : Run} (h : runOf l q = some x) (now : BitVec 64) :
    earlier (replaced l (x.begun now)) q = earlier l q := earlier_replaced (y := x.begun now) (seq_of_runOf (x := x) h)

theorem startRun_eq (d : Dev) (c : Nat) (x : Run) : d.startRun c x = d.withRuns c (replaced (d.ctx c).runs (x.begun d.lode.count)) := rfl

/-- A run that has not ended ends: bytes 8 to 63 of its completion are sent. -/
theorem endRun_ends {d : Dev} {c : Nat} {q : BitVec 32} {x : Run} (hfound : runOf (d.ctx c).runs q = some x) (hopen : x.state ≠ .ending)
    (status code unit detail addr : Nat) : ∃ g h, d.endRun c q status code unit detail addr =
      (d.withRuns c (replaced (d.ctx c).runs (x.endedAs status code unit detail addr d.lode.count))).withTraffic g h := by
  have hfound' : d.findRun c q = some x := hfound
  obtain ⟨g, h, hsend⟩ := (d.withRuns c (replaced (d.ctx c).runs (x.endedAs status code unit detail addr d.lode.count))).hwr_traffic
    ((d.withRuns c (replaced (d.ctx c).runs (x.endedAs status code unit detail addr d.lode.count))).ctx c).port c
    ((d.withRuns c (replaced (d.ctx c).runs (x.endedAs status code unit detail addr d.lode.count))).cplSlot c q + 8)
    ((d.withRuns c (replaced (d.ctx c).runs (x.endedAs status code unit detail addr d.lode.count))).cplBody c (x.endedAs status code unit detail addr d.lode.count))
    .cplBody c q.toNat
  refine ⟨g, h, ?_⟩
  rw [← hsend, Dev.endRun, hfound']
  dsimp only
  rw [if_neg (by simpa using hopen)]
  rfl

/-- A run that starts and ends at once. -/
theorem endRun_startRun {d : Dev} {c : Nat} {q : BitVec 32} {x : Run} (hfound : runOf (d.ctx c).runs q = some x) (status : Nat) : ∃ g h,
    (d.startRun c x).endRun c q status 0 0 0 0 =
      (d.withRuns c (replaced (replaced (d.ctx c).runs (x.begun d.lode.count)) ((x.begun d.lode.count).endedAs status 0 0 0 0 d.lode.count))).withTraffic g h := by
  have hnow : runOf ((d.startRun c x).ctx c).runs q = some (x.begun d.lode.count) := by
    rw [startRun_eq, runs_withRuns]
    exact runOf_begun hfound _
  obtain ⟨g, h, hend⟩ := endRun_ends hnow (by simp [Run.begun]) status 0 0 0 0
  refine ⟨g, h, ?_⟩
  rw [hend, startRun_eq, runs_withRuns, withRuns_withRuns]
  rfl

theorem runOf_ended {l : List Run} {q : BitVec 32} {x : Run} (hfound : runOf l q = some x) (status code unit detail addr : Nat) (now : BitVec 64) :
    runOf (replaced l (x.endedAs status code unit detail addr now)) q = some (x.endedAs status code unit detail addr now) :=
  runOf_replaced_same (y := x.endedAs status code unit detail addr now) hfound (seq_of_runOf (x := x) hfound)

theorem runOf_begun_ended {l : List Run} {q : BitVec 32} {x : Run} (hfound : runOf l q = some x) (status : Nat) (now : BitVec 64) :
    runOf (replaced (replaced l (x.begun now)) ((x.begun now).endedAs status 0 0 0 0 now)) q = some ((x.begun now).endedAs status 0 0 0 0 now) :=
  runOf_ended (runOf_begun hfound now) status 0 0 0 0 now

/-- A run has ended in the state that a command leaves. -/
theorem completes_of {s : State} {e d : Dev} {c : Nat} {l : List Run} {g : List Tag} {h : Map HostPort} {q : BitVec 32} {x : Run} {status code unit detail addr : Nat}
    (he : e = (d.withRuns c l).withTraffic g h) (hrun : runOf l q = some (x.endedAs status code unit detail addr s.dev.lode.count)) :
    Completes s (s.commit e) c q status := by
  refine ⟨x.endedAs status code unit detail addr s.dev.lode.count, ?_, rfl, rfl, rfl, rfl⟩
  have hruns : (e.ctx c).runs = l := by
    rw [he]
    exact runs_withRuns d c l
  rw [Dev.findRun, Dev.ctx_commit, hruns]
  exact hrun

/-- A command that changes runs and requests to hosts alone. -/
structure RunsOnly (s : State) (e : Dev) : Prop where
  regs : e.regs = s.dev.regs
  counters : e.counters = s.dev.counters
  tiles : e.tiles = s.dev.tiles
  stores : e.stores = []
  wipes : e.wipes = []

theorem runsOnly_of {s : State} {e : Dev} {c : Nat} {l : List Run} {g : List Tag} {h : Map HostPort} (he : e = (s.begin.withRuns c l).withTraffic g h) :
    RunsOnly s e := by
  obtain ⟨hregs, hcounters, htiles, -, -, -, hstores, hwipes, -⟩ := withRuns_fields s.begin c l
  rw [he]
  generalize s.begin.withRuns c l = d at *
  exact ⟨hregs, hcounters, htiles, hstores, hwipes⟩

theorem RunsOnly.same {s : State} {e : Dev} (h : RunsOnly s e) : (s.commit e).mem = s.mem ∧ (s.commit e).dev.regs = s.dev.regs ∧
    (s.commit e).dev.counters = s.dev.counters ∧ (s.commit e).dev.tiles = s.dev.tiles :=
  ⟨State.commit_mem s _ h.stores h.wipes, (State.commit_regs _ _).trans h.regs, (State.commit_counters _ _).trans h.counters,
    (State.commit_tiles _ _).trans h.tiles⟩

/-- A command that ends one run. -/
theorem ends_of_completion {i : Instr} {s : State} {x : Effect} {c : Nat} {l : List Run} {g : List Tag} {h : Map HostPort} {q : BitVec 32} {y : Run}
    {status code unit detail addr : Nat} (hexec : exec i s = s.run x) (hx : x s.mem s.begin = (s.begin.withRuns c l).withTraffic g h)
    (hrun : runOf l q = some (y.endedAs status code unit detail addr s.dev.lode.count)) :
    Ends i s (fun u => Completes s u c q status ∧ u.mem = s.mem ∧ u.dev.regs = s.dev.regs ∧ u.dev.counters = s.dev.counters ∧ u.dev.tiles = s.dev.tiles) :=
  ends_of_run hexec hx ⟨completes_of rfl hrun, (runsOnly_of rfl).same⟩

/-- What a record that may start shows of itself. -/
theorem mayStart_waits {d : Dev} {c : Nat} {x : Run} (h : d.mayStart c x = true) : x.state = .waiting ∧ d.bound c = true := by
  simp only [Dev.mayStart, Bool.and_eq_true, beq_iff_eq] at h
  exact ⟨h.1.1.1.2, h.1.1.1.1.1⟩

end Sys2Proof.Machine
end

section
/-! Runs start and complete (R341, R345, R348). -/

namespace Sys2Proof.Machine

open Sys2Proof.Claims (Ends Quiet Completes)

variable {s : State} {c : Fin 64} {q : BitVec 32} {x : Run}

/-- START_SEM reaches the tiles of the mask that are in service, and no other. -/
theorem setStart_tiles (d : Dev) (c : Nat) (x : Run) (hsem : x.startSem < 16) : ∃ l,
    d.setStart c x = (d.withRuns c (replaced (d.ctx c).runs { x with started := true })).withTiles l ∧
    (∀ t, t ∈ maskTiles x.tileMask → (d.tile t).state ≠ .retired → ((d.withTiles l).tile t).sem x.startSem = true) ∧
    (∀ t, ¬ t ∈ maskTiles x.tileMask → (d.withTiles l).tile t = d.tile t) := by
  obtain ⟨e, he⟩ : ∃ e, e = d.withRuns c (replaced (d.ctx c).runs { x with started := true }) := ⟨_, rfl⟩
  have htile : ∀ t, e.tile t = d.tile t := fun t => by rw [he]; rfl
  have hset : d.setStart c x = e.each ((maskTiles x.tileMask).filter (fun t => (e.tile t).state != .retired)) (fun d t => d.setSem t x.startSem (0x10C + (d.ctx c).port)) := by
    rw [he]; rfl
  have hbit : ∀ v : BitVec 16, (v ||| BitVec.ofNat 16 (2 ^ x.startSem)).getLsbD x.startSem = true := fun v => by
    rw [BitVec.getLsbD_or, BitVec.getLsbD_ofNat, Nat.testBit_two_pow_self, decide_eq_true hsem, Bool.and_true, Bool.or_true]
  have hkeeps : ∀ v w : BitVec 16, v.getLsbD x.startSem = true → (v ||| w).getLsbD x.startSem = true := fun v w h => by rw [BitVec.getLsbD_or, h, Bool.true_or]
  have hall : ∀ (ts : List Nat) (e : Dev), ∃ l, e.each ts (fun d t => d.setSem t x.startSem (0x10C + (d.ctx c).port)) = e.withTiles l ∧
      (∀ t, t ∈ ts ∨ (e.tile t).sem x.startSem = true → ((e.withTiles l).tile t).sem x.startSem = true) ∧ (∀ t, ¬ t ∈ ts → (e.withTiles l).tile t = e.tile t) := fun ts => by
    induction ts with
    | nil => exact fun e => ⟨e.tiles, rfl, fun t h => h.resolve_left List.not_mem_nil, fun _ _ => rfl⟩
    | cons a ts ih =>
      intro e
      obtain ⟨l, hl, hon, hoff⟩ := ih (e.setSem a x.startSem (0x10C + (e.ctx c).port))
      have hfirst : ((e.setSem a x.startSem (0x10C + (e.ctx c).port)).tile a).sem x.startSem = true := by
        rw [Dev.setSem, Dev.tile_setTile_same]
        exact hbit _
      have hother : ∀ t, t ≠ a → (e.setSem a x.startSem (0x10C + (e.ctx c).port)).tile t = e.tile t := fun t ht => by
        rw [Dev.setSem, Dev.tile_setTile, if_neg (Ne.symm ht)]
      refine ⟨l, by rw [Dev.each_cons, hl]; rfl, fun t ht => hon t ?_, fun t ht => ?_⟩
      · by_cases hta : t = a
        · exact .inr (hta ▸ hfirst)
        · rw [hother t hta]
          exact ht.imp_left fun h => (List.mem_cons.mp h).resolve_left hta
      · rw [List.mem_cons, not_or] at ht
        exact (hoff t ht.2).trans (hother t ht.1)
  obtain ⟨l, hl, hon, hoff⟩ := hall ((maskTiles x.tileMask).filter (fun t => (e.tile t).state != .retired)) e
  refine ⟨l, by rw [hset, hl, he], fun t ht hlive => hon t (.inl ?_), fun t ht => (hoff t fun h => ht (List.mem_of_mem_filter h)).trans (htile t)⟩
  rw [List.mem_filter, htile]
  exact ⟨ht, by simpa using hlive⟩

theorem run_starts (hfound : s.dev.findRun c q = some x) (hop : x.op = 1) (hmay : s.dev.mayStart c x = true)
    (hpresent : (maskTiles x.tileMask).find? (fun t => s.dev.lost (dieOf t)) = none) (hinput : x.inBytes = 0) :
    Ends (.run c q) s (fun u => u.dev.findRun c q = some { x with state := .running, startLt := s.dev.lode.count, started := true } ∧
      (∀ t, t ∈ maskTiles x.tileMask → (s.dev.tile t).state ≠ .retired → (u.dev.tile t).sem x.startSem = true) ∧
      (∀ t, ¬ t ∈ maskTiles x.tileMask → u.dev.tile t = s.dev.tile t) ∧ u.mem = s.mem ∧ u.dev.regs = s.dev.regs ∧ u.dev.counters = s.dev.counters ∧
      u.dev.tags = s.dev.tags) := by
  have hrunOf : runOf (s.dev.ctx c).runs q = some x := hfound
  have hseq := seq_of_runOf hrunOf
  have hfound' : s.begin.findRun c q = some x := hfound
  have hmay' : s.begin.mayStart c x = true := hmay
  obtain ⟨l, hstart, hon, hoff⟩ := setStart_tiles (s.begin.startRun c x) c (x.begun s.dev.lode.count) (fb_lt_two_pow _ _ _)
  have hrun : xRun c q s.mem s.begin = (s.begin.startRun c x).setStart c (x.begun s.dev.lode.count) := by
    unfold xRun
    rw [hfound']
    dsimp only
    rw [if_neg (by simp [hop, hmay'])]
    have hpresent' : (maskTiles x.tileMask).find? (fun t => (s.begin.startRun c x).lost (dieOf t)) = none := hpresent
    have hinput' : Run.inBytes { x with state := .running, startLt := (s.begin.startRun c x).lode.count } = 0 := hinput
    split
    next h => exact absurd (hpresent'.symm.trans h) (by simp)
    next h => exact if_pos hinput'
  obtain ⟨e, he⟩ : ∃ e, e = (s.begin.withRuns c (replaced (replaced (s.dev.ctx c).runs (x.begun s.dev.lode.count)) { x.begun s.dev.lode.count with started := true })).withTiles l :=
    ⟨_, rfl⟩
  have hend : xRun c q s.mem s.begin = e := by
    rw [hrun, hstart, he, startRun_eq, runs_withRuns, withRuns_withRuns]
    rfl
  refine ends_of_run (x := xRun c q) rfl hend ⟨?_, fun t ht hlive => ?_, fun t ht => ?_, State.commit_mem s _ (by rw [he]; rfl) (by rw [he]; rfl), ?_, ?_, ?_⟩
  · have hruns : (e.ctx c).runs = replaced (replaced (s.dev.ctx c).runs (x.begun s.dev.lode.count)) { x.begun s.dev.lode.count with started := true } := by
      rw [he]
      exact runs_withRuns s.begin c _
    rw [Dev.findRun, Dev.ctx_commit, hruns]
    exact runOf_replaced_same (runOf_replaced_same hrunOf hseq) hseq
  · have htile : (s.commit e).dev.tile t = ((s.begin.startRun c x).withTiles l).tile t := by rw [he]; rfl
    rw [htile]
    exact hon t ht hlive
  · have htile : (s.commit e).dev.tile t = ((s.begin.startRun c x).withTiles l).tile t := by rw [he]; rfl
    rw [htile]
    exact hoff t ht
  · rw [State.commit_regs, he]; rfl
  · rw [State.commit_counters, he]; rfl
  · rw [State.commit_tags, he]; rfl

theorem copy_reads (hfound : s.dev.findRun c q = some x) (hop : x.op = 2) (hmay : s.dev.mayStart c x = true) (hlocal : x.toHost = false)
    (hmore : x.issued < x.length) :
    Ends (.copy c q) s (fun u => u.dev.findRun c q = some { x with state := .running, startLt := s.dev.lode.count, issued := x.issued + pieceAt (x.hostAddr + x.issued) (x.length - x.issued) } ∧
      u.mem = s.mem ∧ u.dev.regs = s.dev.regs ∧ u.dev.counters = s.dev.counters ∧ u.dev.tiles = s.dev.tiles) := by
  have hrunOf : runOf (s.dev.ctx c).runs q = some x := hfound
  have hseq := seq_of_runOf hrunOf
  have hfound' : s.begin.findRun c q = some x := hfound
  have hmay' : s.begin.mayStart c x = true := hmay
  obtain ⟨y, hy⟩ : ∃ y : Run, y = { x with state := .running, startLt := s.dev.lode.count, issued := x.issued + pieceAt (x.hostAddr + x.issued) (x.length - x.issued) } :=
    ⟨_, rfl⟩
  obtain ⟨l, hl⟩ : ∃ l, l = replaced (replaced (s.dev.ctx c).runs (x.begun s.dev.lode.count)) y := ⟨_, rfl⟩
  obtain ⟨g, h, hsend⟩ := (s.begin.withRuns c l).hostRequest_traffic ((s.begin.startRun c x).ctx c).port
    { hdr := hpHdr opcHRD 0 0 0 c ((s.begin.withRuns c l).genOf c) (pieceAt (x.hostAddr + x.issued) (x.length - x.issued)) 0 (x.hostAddr + x.issued), data := [] }
    { tag := 0, port := ((s.begin.startRun c x).ctx c).port, ctx := c, gen := BitVec.ofNat 8 ((s.begin.withRuns c l).genOf c), purpose := .copyRead, a := 0, b := x.seq.toNat,
      c := pieceAt (x.hostAddr + x.issued) (x.length - x.issued), addr := BitVec.ofNat 64 (x.hostAddr + x.issued) }
  have hput : (s.begin.startRun c x).putRun c y = s.begin.withRuns c l := by
    rw [putRun_eq, startRun_eq, runs_withRuns, withRuns_withRuns, hl]
    rfl
  have hrun : xCopy c q s.mem s.begin = (s.begin.withRuns c l).withTraffic g h := by
    rw [← hsend, ← hput, hy]
    unfold xCopy
    rw [hfound']
    dsimp only
    rw [if_neg (by simp [hop]), if_pos hmay']
    unfold Dev.copyNext
    extract_lets a n p z
    have hmore' : ¬ Run.length { x with state := .running, startLt := s.begin.lode.count } ≤ x.issued := Nat.not_le.mpr hmore
    have hlocal' : (!Run.toHost { x with state := .running, startLt := s.begin.lode.count }) = true := congrArg (!·) hlocal
    rw [if_neg hmore', if_pos hlocal']
    rfl
  obtain ⟨hmem, hregs, hcounters, htiles⟩ := (runsOnly_of (s := s) (c := c) (l := l) (g := g) (h := h) rfl).same
  refine ends_of_run (x := xCopy c q) rfl hrun ⟨?_, hmem, hregs, hcounters, htiles⟩
  have hruns : (((s.begin.withRuns c l).withTraffic g h).ctx c).runs = l := runs_withRuns s.begin c l
  rw [Dev.findRun, Dev.ctx_commit, hruns, hl, ← hy]
  exact runOf_replaced_same (runOf_replaced_same hrunOf hseq) (by rw [hy]; exact hseq)

theorem nop_completes (hfound : s.dev.findRun c q = some x) (hop : x.op = 0) (hmay : s.dev.mayStart c x = true) :
    Ends (.runNop c q) s (fun u => Completes s u c q 0 ∧ u.mem = s.mem ∧ u.dev.regs = s.dev.regs ∧ u.dev.counters = s.dev.counters ∧
      u.dev.tiles = s.dev.tiles) := by
  have hrunOf : runOf (s.begin.ctx c).runs q = some x := hfound
  have hfound' : s.begin.findRun c q = some x := hfound
  have hmay' : s.begin.mayStart c x = true := hmay
  obtain ⟨g, h, hend⟩ := endRun_startRun hrunOf 0
  refine ends_of_completion (g := g) (h := h) (x := xRunNop c q) rfl ?_ (runOf_begun_ended hrunOf 0 _)
  rw [xRunNop, hfound']
  dsimp only
  rw [if_pos (by simp [hop, hmay']), hend]
  rfl

theorem fence_completes (hfound : s.dev.findRun c q = some x) (hop : x.op = 4) (hmay : s.dev.mayStart c x = true)
    (halone : earlier (s.dev.ctx c).runs q = []) :
    Ends (.fence c q) s (fun u => Completes s u c q 0 ∧ u.mem = s.mem ∧ u.dev.regs = s.dev.regs ∧ u.dev.counters = s.dev.counters ∧
      u.dev.tiles = s.dev.tiles) := by
  have hrunOf : runOf (s.begin.ctx c).runs q = some x := hfound
  have hfound' : s.begin.findRun c q = some x := hfound
  have hmay' : s.begin.mayStart c x = true := hmay
  obtain ⟨-, hbound⟩ := mayStart_waits hmay
  have hbound' : (s.begin.startRun c x).bound c = true := by
    rw [startRun_eq, Dev.bound, Dev.withRuns, Dev.ctx_setCtx_same]
    exact hbound
  have halone' : earlier ((s.begin.startRun c x).ctx c).runs q = [] := by
    rw [startRun_eq, runs_withRuns]
    exact (earlier_begun hrunOf _).trans halone
  obtain ⟨g, h, hend⟩ := endRun_startRun hrunOf 0
  refine ends_of_completion (g := g) (h := h) (x := xFence c q) rfl ?_ (runOf_begun_ended hrunOf 0 _)
  rw [xFence, hfound']
  dsimp only
  rw [if_neg (by simp [hop]), if_pos hmay', if_pos (by simp [hmay', hbound', halone']), hend]
  rfl

theorem fence_waits (hfound : s.dev.findRun c q = some x) (hop : x.op = 4) (hmay : s.dev.mayStart c x = true)
    (hbehind : earlier (s.dev.ctx c).runs q ≠ []) :
    Ends (.fence c q) s (fun u => u.dev.findRun c q = some { x with state := .running, startLt := s.dev.lode.count } ∧ u.dev.tags = s.dev.tags ∧ u.mem = s.mem ∧
      u.dev.regs = s.dev.regs ∧ u.dev.counters = s.dev.counters ∧ u.dev.tiles = s.dev.tiles) := by
  have hrunOf : runOf (s.begin.ctx c).runs q = some x := hfound
  have hfound' : s.begin.findRun c q = some x := hfound
  have hmay' : s.begin.mayStart c x = true := hmay
  have hbehind' : earlier ((s.begin.startRun c x).ctx c).runs q ≠ [] := by
    rw [startRun_eq, runs_withRuns]
    rw [earlier_begun hrunOf]
    exact hbehind
  have hrun : xFence c q s.mem s.begin = s.begin.withRuns c (replaced (s.begin.ctx c).runs (x.begun s.dev.lode.count)) := by
    rw [xFence, hfound']
    dsimp only
    rw [if_neg (by simp [hop]), if_pos hmay', if_neg (by simp [hbehind'])]
    rfl
  refine ends_of_run (x := xFence c q) rfl hrun ⟨?_, ?_, State.commit_mem s _ rfl rfl, ?_, ?_, ?_⟩
  · rw [Dev.findRun, Dev.ctx_commit, runs_withRuns]
    exact runOf_begun hrunOf _
  · rw [State.commit_tags]; rfl
  · rw [State.commit_regs]; rfl
  · rw [State.commit_counters]; rfl
  · rw [State.commit_tiles]; rfl

/-- A semaphore that the package clears is clear, and no other tile changes. -/
theorem clearSem_tiles (d : Dev) (t n : Nat) : ((d.clearSem t n).tile t).sem n = false ∧ ∀ j, j ≠ t → (d.clearSem t n).tile j = d.tile j := by
  refine ⟨?_, fun j hj => by rw [Dev.clearSem, Dev.tile_setTile, if_neg (Ne.symm hj)]⟩
  rw [Dev.clearSem, Dev.tile_setTile_same]
  by_cases h16 : n < 16
  · rw [Tile.sem, BitVec.getLsbD_and, BitVec.getLsbD_not, BitVec.getLsbD_ofNat, Nat.testBit_two_pow_self, decide_eq_true h16, Bool.and_self, Bool.not_true,
      Bool.and_false, Bool.and_false]
  · rw [Tile.sem, BitVec.getLsbD_of_ge _ _ (Nat.not_lt.mp h16)]

theorem run_completes (hfound : s.dev.findRun c q = some x) (hop : x.op = 1) (hstate : x.state = .running) (hstarted : x.started = true)
    (hdone : (s.dev.tile (leadTile x.tileMask)).sem x.doneSem = true) :
    Ends (.runComplete c q) s (fun u => Completes s u c q 0 ∧ (u.dev.tile (leadTile x.tileMask)).sem x.doneSem = false ∧
      (∀ t, t ≠ leadTile x.tileMask → u.dev.tile t = s.dev.tile t) ∧ u.mem = s.mem ∧ u.dev.regs = s.dev.regs ∧ u.dev.counters = s.dev.counters) := by
  have hfound' : s.begin.findRun c q = some x := hfound
  have hdone' : (s.begin.tile (leadTile x.tileMask)).sem x.doneSem = true := hdone
  have hrun : xRunComplete c q s.mem s.begin = (s.begin.clearSem (leadTile x.tileMask) x.doneSem).endRun c q 0 0 0 0 0 := by
    rw [xRunComplete, hfound']
    dsimp only
    rw [if_pos (by simp only [hop, hstate, hstarted, hdone']; decide)]
  obtain ⟨hcleared, hothers⟩ := clearSem_tiles s.begin (leadTile x.tileMask) x.doneSem
  obtain ⟨e, he⟩ : ∃ e, e = s.begin.clearSem (leadTile x.tileMask) x.doneSem := ⟨_, rfl⟩
  have hrunOf : runOf (e.ctx c).runs q = some x := by rw [he]; exact hfound
  have hlode : e.lode.count = s.dev.lode.count := by rw [he]; rfl
  have hregs : e.regs = s.dev.regs := by rw [he]; rfl
  have hcounters : e.counters = s.dev.counters := by rw [he]; rfl
  have hstores : e.stores = [] := by rw [he]; rfl
  have hwipes : e.wipes = [] := by rw [he]; rfl
  rw [← he] at hrun hcleared hothers
  obtain ⟨g, h, hend⟩ := endRun_ends hrunOf (by simp [hstate]) 0 0 0 0 0
  rw [hlode] at hend
  refine ends_of_run (x := xRunComplete c q) rfl (hrun.trans hend) ⟨completes_of rfl (runOf_ended hrunOf 0 0 0 0 0 _), ?_, fun t ht => ?_,
    State.commit_mem s _ hstores hwipes, ?_, ?_⟩
  · rw [Dev.tile_commit, tile_runs]
    exact hcleared
  · rw [Dev.tile_commit, tile_runs]
    exact hothers t ht
  · rw [State.commit_regs]
    exact hregs
  · rw [State.commit_counters]
    exact hcounters

theorem copy_completes (hfound : s.dev.findRun c q = some x) (hop : x.op = 2) (hstate : x.state = .running) (hmoved : x.length ≤ x.moved)
    (hout : s.dev.copyOut c q = false) :
    Ends (.copyComplete c q) s (fun u => Completes s u c q 0 ∧ u.mem = s.mem ∧ u.dev.regs = s.dev.regs ∧ u.dev.counters = s.dev.counters ∧
      u.dev.tiles = s.dev.tiles) := by
  have hrunOf : runOf (s.begin.ctx c).runs q = some x := hfound
  have hfound' : s.begin.findRun c q = some x := hfound
  have hout' : s.begin.copyOut c q = false := hout
  obtain ⟨g, h, hend⟩ := endRun_ends hrunOf (by simp [hstate]) 0 0 0 0 0
  refine ends_of_completion (g := g) (h := h) (x := xCopyComplete c q) rfl ?_ (runOf_ended hrunOf 0 0 0 0 0 _)
  rw [xCopyComplete, hfound']
  dsimp only
  rw [if_pos (by simp [hop, hstate, hmoved, hout']), hend]
  rfl

theorem earlier_startRun (hfound : s.dev.findRun c q = some x) : earlier ((s.begin.startRun c x).ctx c).runs q = earlier (s.dev.ctx c).runs q := by
  rw [startRun_eq, runs_withRuns]
  exact earlier_begun hfound _

theorem abort_misses (hfound : s.dev.findRun c q = some x) (hop : x.op = 3) (hstate : x.state = .waiting) (hbound : s.dev.bound c = true)
    (hnone : (earlier (s.dev.ctx c).runs q).find? (fun y => y.seq == BitVec.ofNat 32 x.target) = none) :
    Ends (.abort c q) s (fun u => Completes s u c q 2 ∧ u.mem = s.mem ∧ u.dev.regs = s.dev.regs ∧ u.dev.counters = s.dev.counters ∧
      u.dev.tiles = s.dev.tiles) := by
  have hrunOf : runOf (s.begin.ctx c).runs q = some x := hfound
  have hfound' : s.begin.findRun c q = some x := hfound
  have hbound' : s.begin.bound c = true := hbound
  have hrun : xAbort c q s.mem s.begin = (s.begin.startRun c x).endRun c q 2 0 0 0 0 := by
    unfold xAbort
    rw [hfound']
    dsimp only
    rw [if_neg (by simp [hop, hstate, hbound']), earlier_startRun hfound, hnone]
  obtain ⟨g, h, hend⟩ := endRun_startRun hrunOf 2
  exact ends_of_completion (x := xAbort c q) rfl (hrun.trans hend) (runOf_begun_ended hrunOf 2 _)

/-- A run found before another has another number. -/
theorem seq_of_earlier {l : List Run} {q : BitVec 32} {y : Run} (h : y ∈ earlier l q) : y.seq ≠ q := by
  have := List.mem_takeWhile_imp h
  simpa using this

/-- The first run of a number, when it stands before another. -/
theorem runOf_of_earlier {l : List Run} {p q : BitVec 32} {y : Run} (h : (earlier l q).find? (fun y => y.seq == p) = some y) : runOf l p = some y := by
  have happ : l = earlier l q ++ l.dropWhile (fun y => y.seq != q) := (List.takeWhile_append_dropWhile).symm
  rw [runOf, happ, List.find?_append, h]
  rfl

theorem abort_takes {y : Run} (hfound : s.dev.findRun c q = some x) (hop : x.op = 3) (hstate : x.state = .waiting) (hbound : s.dev.bound c = true)
    (htarget : (earlier (s.dev.ctx c).runs q).find? (fun y => y.seq == BitVec.ofNat 32 x.target) = some y) (hwaits : y.state = .waiting) :
    Ends (.abort c q) s (fun u => Completes s u c q 0 ∧ Completes s u c (BitVec.ofNat 32 x.target) 1 ∧ u.mem = s.mem ∧ u.dev.regs = s.dev.regs ∧
      u.dev.counters = s.dev.counters ∧ u.dev.tiles = s.dev.tiles) := by
  have hrunOf : runOf (s.begin.ctx c).runs q = some x := hfound
  have hseq := seq_of_runOf hrunOf
  have hother : runOf (s.begin.ctx c).runs (BitVec.ofNat 32 x.target) = some y := runOf_of_earlier htarget
  have hyseq := seq_of_runOf hother
  have hne : BitVec.ofNat 32 x.target ≠ q := hyseq ▸ seq_of_earlier (List.mem_of_find?_eq_some htarget)
  have hfound' : s.begin.findRun c q = some x := hfound
  have hbound' : s.begin.bound c = true := hbound
  have hrun : xAbort c q s.mem s.begin = ((s.begin.startRun c x).endRun c (BitVec.ofNat 32 x.target) 1 0 0 0 0).endRun c q 0 0 0 0 0 := by
    unfold xAbort
    rw [hfound']
    dsimp only
    rw [if_neg (by simp [hop, hstate, hbound']), earlier_startRun hfound, htarget]
    dsimp only
    rw [if_neg (by simp [hwaits]), if_neg (by simp [hwaits]), if_neg (by simp [hwaits])]
  obtain ⟨l, hl⟩ : ∃ l, l = replaced (s.begin.ctx c).runs (x.begun s.dev.lode.count) := ⟨_, rfl⟩
  have hstarted : s.begin.startRun c x = s.begin.withRuns c l := by rw [hl]; rfl
  have hthis : runOf l q = some (x.begun s.dev.lode.count) := by rw [hl]; exact runOf_begun hrunOf _
  have hthat : runOf l (BitVec.ofNat 32 x.target) = some y := by
    rw [hl, runOf_replaced_other (y := x.begun s.dev.lode.count) (fun h => hne (h.symm.trans hseq))]
    exact hother
  have hthat' : runOf ((s.begin.withRuns c l).ctx c).runs (BitVec.ofNat 32 x.target) = some y := by rw [runs_withRuns]; exact hthat
  obtain ⟨g, h, hfirst⟩ := endRun_ends hthat' (by simp [hwaits]) 1 0 0 0 0
  rw [runs_withRuns, withRuns_withRuns] at hfirst
  have hthis' : runOf (((s.begin.withRuns c (replaced l (y.endedAs 1 0 0 0 0 (s.begin.withRuns c l).lode.count))).withTraffic g h).ctx c).runs q = some (x.begun s.dev.lode.count) := by
    have hruns : (((s.begin.withRuns c (replaced l (y.endedAs 1 0 0 0 0 (s.begin.withRuns c l).lode.count))).withTraffic g h).ctx c).runs =
      replaced l (y.endedAs 1 0 0 0 0 (s.begin.withRuns c l).lode.count) := runs_withRuns s.begin c _
    rw [hruns, runOf_replaced_other (y := y.endedAs 1 0 0 0 0 (s.begin.withRuns c l).lode.count) (fun h => hne (hyseq.symm.trans h))]
    exact hthis
  obtain ⟨g', h', hsecond⟩ := endRun_ends hthis' (by simp [Run.begun]) 0 0 0 0 0
  rw [hstarted, hfirst, hsecond] at hrun
  obtain ⟨l', hl'⟩ : ∃ l', l' = replaced (replaced l (y.endedAs 1 0 0 0 0 s.dev.lode.count)) ((x.begun s.dev.lode.count).endedAs 0 0 0 0 0 s.dev.lode.count) := ⟨_, rfl⟩
  have hdone : xAbort c q s.mem s.begin = (s.begin.withRuns c l').withTraffic g' h' := by
    rw [hrun, hl']
    have hruns : (((s.begin.withRuns c (replaced l (y.endedAs 1 0 0 0 0 (s.begin.withRuns c l).lode.count))).withTraffic g h).ctx c).runs =
      replaced l (y.endedAs 1 0 0 0 0 (s.begin.withRuns c l).lode.count) := runs_withRuns s.begin c _
    rw [hruns, withTraffic_withRuns, withRuns_withRuns]
    rfl
  have hthisEnds : runOf l' q = some ((x.begun s.dev.lode.count).endedAs 0 0 0 0 0 s.dev.lode.count) := by
    rw [hl']
    exact runOf_ended ((runOf_replaced_other (y := y.endedAs 1 0 0 0 0 s.dev.lode.count) (fun h => hne (hyseq.symm.trans h))).trans hthis) 0 0 0 0 0 _
  have hthatEnds : runOf l' (BitVec.ofNat 32 x.target) = some (y.endedAs 1 0 0 0 0 s.dev.lode.count) := by
    rw [hl', runOf_replaced_other (y := (x.begun s.dev.lode.count).endedAs 0 0 0 0 0 s.dev.lode.count) (fun h => hne (h.symm.trans hseq))]
    exact runOf_ended hthat 1 0 0 0 0 _
  exact ends_of_run (x := xAbort c q) rfl hdone ⟨completes_of rfl hthisEnds, completes_of rfl hthatEnds, (runsOnly_of rfl).same⟩

def Dev.withOutGroups (d : Dev) (l : List OutGroup) : Dev := { d with outGroups := l }

@[simp] theorem withOutGroups_fields (d : Dev) (l : List OutGroup) : (d.withOutGroups l).regs = d.regs ∧ (d.withOutGroups l).counters = d.counters ∧
    (d.withOutGroups l).tiles = d.tiles ∧ (d.withOutGroups l).stores = d.stores ∧ (d.withOutGroups l).wipes = d.wipes := ⟨rfl, rfl, rfl, rfl, rfl⟩

/-- A run's reads are given up, and it ends (R348). -/
theorem stopRun_ends {d : Dev} {c : Nat} {q : BitVec 32} {x : Run} (hfound : runOf (d.ctx c).runs q = some x) (hopen : x.state ≠ .ending)
    (status : Nat) : ∃ g h o, d.stopRun c q status 0 0 0 0 =
      ((d.withOutGroups o).withRuns c (replaced (d.ctx c).runs (x.endedAs status 0 0 0 0 d.lode.count))).withTraffic g h := by
  unfold Dev.stopRun
  extract_lets mine d1 d2
  have hd2 : ∃ g h o, d2 = (d.withOutGroups o).withTraffic g h := by
    refine Dev.each_invariant (P := fun e => ∃ g h o, e = (d.withOutGroups o).withTraffic g h) (fun e p _ he => ?_) ⟨d1.tags, d1.hosts, d1.outGroups, rfl⟩
    obtain ⟨g, h, o, rfl⟩ := he
    dsimp only
    split
    · exact ⟨_, _, o, rfl⟩
    · exact ⟨g, h, o, rfl⟩
  obtain ⟨g, h, o, hd2⟩ := hd2
  have hfound' : runOf (d2.ctx c).runs q = some x := by rw [hd2]; exact hfound
  obtain ⟨g', h', hend⟩ := endRun_ends hfound' hopen status 0 0 0 0
  exact ⟨g', h', o, by rw [hend, hd2]; rfl⟩

theorem xRunDeadline_due (hfound : s.dev.findRun c q = some x) (hen : x.deadlineEn = true) (hdue : x.deadline ≤ s.dev.now) (hopen : x.state ≠ .ending) :
    ∃ (l : List Run) (y : Run) (g : List Tag) (h : Map HostPort) (o : List OutGroup), xRunDeadline c q s.mem s.begin = ((s.begin.withOutGroups o).withRuns c l).withTraffic g h ∧
      runOf l q = some (y.endedAs 4 0 0 0 0 s.dev.lode.count) := by
  have hrunOf : runOf (s.begin.ctx c).runs q = some x := hfound
  have hfound' : s.begin.findRun c q = some x := hfound
  have hdue' : x.deadline ≤ s.begin.now := hdue
  have hrun : xRunDeadline c q s.mem s.begin =
      (if x.op == 2 && x.toHost && x.state == .running then s.begin.putRun c { x with moved := x.issued } else s.begin).stopRun c q 4 0 0 0 0 := by
    rw [xRunDeadline, hfound']
    dsimp only
    rw [if_pos (by simp [hen, hdue, hopen])]
  rw [hrun]
  by_cases hout : (x.op == 2 && x.toHost && x.state == .running) = true
  · have hmoved : runOf (replaced (s.begin.ctx c).runs { x with moved := x.issued }) q = some { x with moved := x.issued } :=
      runOf_replaced_same (y := { x with moved := x.issued }) hrunOf (seq_of_runOf (x := x) hrunOf)
    have hmoved' : runOf ((s.begin.putRun c { x with moved := x.issued }).ctx c).runs q = some { x with moved := x.issued } := by
      rw [putRun_eq, runs_withRuns]
      exact hmoved
    obtain ⟨g, h, o, hend⟩ := stopRun_ends hmoved' hopen 4
    refine ⟨replaced (replaced (s.begin.ctx c).runs { x with moved := x.issued }) (Run.endedAs { x with moved := x.issued } 4 0 0 0 0 s.dev.lode.count),
      { x with moved := x.issued }, g, h, o, ?_, runOf_ended hmoved 4 0 0 0 0 _⟩
    rw [if_pos hout, hend, putRun_eq, runs_withRuns]
    exact congrArg (fun d : Dev => d.withTraffic g h) (withRuns_withRuns (s.begin.withOutGroups o) c _ _)
  · obtain ⟨g, h, o, hend⟩ := stopRun_ends hrunOf hopen 4
    exact ⟨replaced (s.begin.ctx c).runs (x.endedAs 4 0 0 0 0 s.dev.lode.count), x, g, h, o, by rw [if_neg hout, hend]; rfl, runOf_ended hrunOf 4 0 0 0 0 _⟩

theorem deadline_ends (hfound : s.dev.findRun c q = some x) (hen : x.deadlineEn = true) (hdue : x.deadline ≤ s.dev.now) (hopen : x.state ≠ .ending) :
    Ends (.runDeadline c q) s (fun u => Completes s u c q 4 ∧ u.mem = s.mem ∧ u.dev.regs = s.dev.regs ∧ u.dev.counters = s.dev.counters ∧
      u.dev.tiles = s.dev.tiles) := by
  obtain ⟨l, y, g, h, o, hrun, hended⟩ := xRunDeadline_due hfound hen hdue hopen
  have honly : RunsOnly s (((s.begin.withOutGroups o).withRuns c l).withTraffic g h) :=
    ⟨by simp, by simp, by simp, by simp, by simp⟩
  exact ends_of_run (x := xRunDeadline c q) rfl hrun ⟨completes_of rfl hended, honly.same⟩

end Sys2Proof.Machine
end

section
namespace Sys2Proof.Machine

open Sys2Proof.Claims (Ends Quiet Completes)

/-- Settles O46: a run that starts, ends or is stopped has its own record replaced in its context's list, and bytes 8 to 63 of a
completion sent. How records, completions and deadlines are read is the model's choice (log entry 67). -/
theorem runsStartAndComplete : Obligations.RunsStartAndComplete := by
  refine ⟨fun _ _ _ _ hfound hop hmay hpresent hinput => run_starts hfound hop hmay hpresent hinput,
    fun _ _ _ _ hfound hop hmay hlocal hmore => copy_reads hfound hop hmay hlocal hmore,
    fun _ _ _ _ hfound hop hmay => nop_completes hfound hop hmay,
    fun _ _ _ _ hfound hop hmay halone => fence_completes hfound hop hmay halone,
    fun _ _ _ _ hfound hop hmay hbehind => fence_waits hfound hop hmay hbehind,
    fun _ _ _ _ hfound hop hstate hstarted hdone => run_completes hfound hop hstate hstarted hdone,
    fun _ _ _ _ hfound hop hstate hmoved hout => copy_completes hfound hop hstate hmoved hout,
    fun _ _ _ _ hfound hop hstate hbound hnone => abort_misses hfound hop hstate hbound hnone,
    fun _ _ _ _ _ hfound hop hstate hbound htarget hwaits => abort_takes hfound hop hstate hbound htarget hwaits,
    fun _ _ _ _ hfound hen hdue hopen => deadline_ends hfound hen hdue hopen,
    fun s c q x hfound hoff => ?off⟩
  have hfound' : s.begin.findRun c q = some x := hfound
  refine quiet_of_run (x := xRunDeadline c q) rfl ?_ rfl rfl
  rw [xRunDeadline, hfound']
  dsimp only
  rw [if_neg (by simp [hoff])]

end Sys2Proof.Machine
end


section
/-! SPDM requests of a package with an identity (R441 to R443; the layouts are the model's choice, log entries 70 and 80): what each is
answered with. -/

namespace Sys2Proof.Machine

open Sys2Proof.Claims (Asks Replies SameSpdm Connected measured)

/-- With a package identity a request that the connection admits is answered with what the request asks for, open or not. -/
theorem spdmRequest_of_identified {s : State} {ch : Fin 6} {msg : List Byte} {code : Nat} {x : Bool} (h : Asks s ch msg code x)
    (hid : pkgIdOk s.dev.fuses.pkgIdA = true) (hadmits : s.dev.admitsRequest ch code (msg.getD 0 0).toNat) (o : Bool)
    (f : Dev → Nat → Dev × List Byte) :
    s.begin.spdmRequest ch msg code o f = s.begin.spdmRequest ch msg code true f := by
  have hopen : ∀ p : Bool, (!pkgIdOk s.begin.fuses.pkgIdA && p) = false := fun p => by
    have : pkgIdOk s.begin.fuses.pkgIdA = true := hid
    rw [this]; rfl
  simp only [Dev.spdmRequest, hopen]

/-- A request whose meaning is `f` and which a made connection admits replies with what `f` answers. -/
theorem replies_of_connected {i : Instr} {s : State} {ch : Fin 6} {msg : List Byte} {code v : Nat} {x o : Bool}
    {f : Dev → Nat → Dev × List Byte} {bs : List Byte} {P : Sec → Prop} {d : Dev} (hasks : Asks s ch msg code x)
    (hconn : Connected s ch msg v) (hexec : exec i s = .next (s.commit (s.begin.spdmRequest ch msg code o f)))
    (hanswer : f s.begin v = (d, bs)) (hframe : d.sansSpdm = s.begin.sansSpdm)
    (hP : ∀ y : Sec, y.SameButMailboxes d.sec → P y) : Replies i s ch x bs P := by
  obtain ⟨hid, hv, rfl, hspdm⟩ := hconn
  have hadmits : s.dev.admitsRequest ch code (msg.getD 0 0).toNat := by
    rw [Dev.admitsRequest, hspdm]
    exact .inr ⟨hv, rfl, .inr ⟨rfl, rfl, .inr rfl⟩⟩
  rw [spdmRequest_of_identified hasks hid hadmits] at hexec
  exact replies_of_admitted hasks hadmits hexec hanswer hframe hP

/-- A request that changes neither connections, certificates nor sessions. -/
theorem sameSpdm_of_kept {s : State} {a : Sec} (h : a.spdm = s.dev.sec.spdm ∧ a.certs = s.dev.sec.certs ∧ a.sessions = s.dev.sec.sessions)
    (y : Sec) (hy : y.SameButMailboxes a) : SameSpdm s.dev.sec y := by
  obtain ⟨hspdm, hcerts, hsessions, -⟩ := hy
  obtain ⟨hspdm', hcerts', hsessions'⟩ := h
  exact ⟨hspdm.trans hspdm', hcerts.trans hcerts', hsessions.trans hsessions'⟩

/-- The device with certificate chains `l`. -/
def Dev.withCerts (d : Dev) (l : Map (List Byte)) : Dev := d.setSec fun y => { y with certs := l }

/-- The device with sessions `l`. -/
def Dev.withSessions (d : Dev) (l : List Session) : Dev := d.setSec fun y => { y with sessions := l }

@[simp] theorem Dev.withCerts_fields (d : Dev) (l : Map (List Byte)) : (d.withCerts l).sansSpdm = d.sansSpdm ∧
    (d.withCerts l).sec.spdm = d.sec.spdm ∧ (d.withCerts l).sec.certs = l ∧ (d.withCerts l).sec.sessions = d.sec.sessions :=
  ⟨rfl, rfl, rfl, rfl⟩

@[simp] theorem Dev.withSessions_fields (d : Dev) (l : List Session) : (d.withSessions l).sansSpdm = d.sansSpdm ∧
    (d.withSessions l).sec.spdm = d.sec.spdm ∧ (d.withSessions l).sec.certs = d.sec.certs ∧ (d.withSessions l).sec.sessions = l :=
  ⟨rfl, rfl, rfl, rfl⟩

theorem Dev.setSec_certs (d : Dev) (k : Nat) (c : List Byte) :
    d.setSec (fun y => { y with certs := mset y.certs k c }) = d.withCerts (mset d.sec.certs k c) := rfl

theorem Dev.setSec_sessions (d : Dev) (f : List Session → List Session) :
    d.setSec (fun y => { y with sessions := f y.sessions }) = d.withSessions (f d.sec.sessions) := rfl

/-- What the connection of a state that begins a command is. -/
theorem sec_begin_fields (s : State) : s.begin.sec = s.dev.sec := rfl

/-! The connection. -/

theorem getVersion_opens (s : State) (ch : Fin 6) (msg : List Byte) (x : Bool) (hasks : Asks s ch msg 0x84 x) :
    Replies (.getVersion ch msg) s ch x (bytesOf [0x10, 0x04, 0, 0, 0, 2, 0, 0x12, 0, 0x13]) (fun y =>
      mget {} y.spdm ch = { version := true } ∧ y.certs = s.dev.sec.certs ∧ y.sessions = s.dev.sec.sessions) := by
  refine replies_of_admitted hasks (.inl rfl) rfl rfl rfl fun y ⟨hspdm, hcerts, hsessions, _⟩ => ⟨?_, hcerts, hsessions⟩
  rw [hspdm]
  exact mget_mset_same {} s.dev.sec.spdm ch _

theorem getCapabilities_answers (s : State) (ch : Fin 6) (msg : List Byte) (x : Bool) (v : Nat) (hasks : Asks s ch msg 0xE1 x)
    (hv : v = 0x12 ∨ v = 0x13) (hmsg : (msg.getD 0 0).toNat = v) (hversion : (s.dev.spdm ch).version = true) :
    Replies (.getCapabilities ch msg) s ch x (bytesOf [v, 0x61, 0, 0, 0, 17, 0, 0] ++ toLE 4 0x802F6 ++ toLE 4 8192 ++ toLE 4 8192) (fun y =>
      mget {} y.spdm ch = { version := true, inUse := v, capabilities := true } ∧ y.certs = s.dev.sec.certs ∧
        y.sessions = s.dev.sec.sessions) := by
  subst hmsg
  refine replies_of_admitted hasks (.inr ⟨hv, hversion, .inl rfl⟩) rfl rfl rfl
    fun y ⟨hspdm, hcerts, hsessions, _⟩ => ⟨?_, hcerts, hsessions⟩
  rw [hspdm]
  exact mget_mset_same {} s.dev.sec.spdm ch _

theorem algStructs_length (n : Nat) (l : List Byte) : (algStructs n l).length = n := by
  induction n generalizing l with
  | zero => rfl
  | succ n ih => exact congrArg (· + 1) (ih (l.drop 4))

/-- Each algorithm structure takes 4 bytes of the answer. -/
theorem algBytes_length (l : List (Nat × Nat)) :
    ((l.map (fun a => bytesOf [a.1, 0x20] ++ toLE 2 a.2)).flatten).length = 4 * l.length := by
  induction l with
  | nil => rfl
  | cons a l ih =>
    rw [List.map_cons, List.flatten_cons, List.length_append, ih, List.length_append, toLE_length, List.length_cons]
    change 2 + 2 + 4 * l.length = _
    omega

/-- The part of ALGORITHMS behind its length. -/
def algorithmsBody (msg : List Byte) : List Byte :=
  bytesOf [(msg.getD 6 0).toNat &&& 1, (msg.getD 7 0).toNat &&& 2] ++ toLE 4 (if (msg.getD 6 0).toNat &&& 1 = 1 then 8 else 0)
    ++ toLE 4 (leOf ((msg.drop 8).take 4) &&& 0x40) ++ toLE 4 (leOf ((msg.drop 12).take 4) &&& 4) ++ bytesOf (List.replicate 16 0)
    ++ ((algStructs (msg.getD 2 0).toNat (msg.drop 32)).map (fun a => bytesOf [a.1, 0x20] ++ toLE 2 a.2)).flatten

theorem algorithmsBody_length (msg : List Byte) : 6 + (algorithmsBody msg).length = 36 + 4 * (msg.getD 2 0).toNat := by
  rw [algorithmsBody]
  simp only [List.length_append, algBytes_length, algStructs_length, toLE_length]
  change 6 + (2 + 4 + 4 + 4 + 16 + 4 * (msg.getD 2 0).toNat) = _
  omega

theorem negotiateAlgorithms_answers (s : State) (ch : Fin 6) (msg : List Byte) (x : Bool) (v : Nat) (body : List Byte)
    (hasks : Asks s ch msg 0xE3 x) (hlen : 32 ≤ msg.length) (hv : v = 0x12 ∨ v = 0x13) (hmsg : (msg.getD 0 0).toNat = v)
    (hversion : (s.dev.spdm ch).version = true) (hcap : (s.dev.spdm ch).capabilities = true) (huse : (s.dev.spdm ch).inUse = v)
    (hbody : body = algorithmsBody msg) :
    Replies (.negotiateAlgorithms ch msg) s ch x
      (bytesOf [v, 0x63, (msg.getD 2 0).toNat, 0] ++ toLE 2 (36 + 4 * (msg.getD 2 0).toNat) ++ body) (fun y =>
      mget {} y.spdm ch = { version := true, inUse := v, capabilities := true, algorithms := true } ∧ y.certs = s.dev.sec.certs ∧
        y.sessions = s.dev.sec.sessions) := by
  subst hmsg
  have hspdm' : { s.dev.spdm ch with algorithms := true } =
      ({ version := true, inUse := (msg.getD 0 0).toNat, capabilities := true, algorithms := true } : Spdm) := by
    obtain ⟨a, b, c, e, h⟩ : ∃ a b c e, s.dev.spdm ch = ({ version := a, inUse := b, capabilities := c, algorithms := e } : Spdm) :=
      ⟨_, _, _, _, rfl⟩
    rw [h] at hversion hcap huse ⊢
    subst hversion hcap huse
    rfl
  rw [hbody, ← algorithmsBody_length]
  refine replies_of_admitted (d := s.begin.setSpdm ch { s.dev.spdm ch with algorithms := true }) hasks
    (.inr ⟨hv, hversion, .inr ⟨hcap, huse, .inl rfl⟩⟩) rfl ?answer rfl
    fun y ⟨hspdm, hcerts, hsessions, _⟩ => ⟨?_, hcerts, hsessions⟩
  case answer =>
    rw [if_neg hlen.not_gt]
    dsimp only
    rw [algStructs_length]
    rfl
  · rw [hspdm, ← hspdm']
    exact mget_mset_same {} s.dev.sec.spdm ch _

/-! Certificates. -/

theorem getDigests_answers (s : State) (ch : Fin 6) (msg : List Byte) (x : Bool) (v : Nat) (hasks : Asks s ch msg 0x81 x)
    (hconn : Connected s ch msg v) :
    Replies (.getDigests ch msg) s ch x (bytesOf [v, 1, if v = 0x13 then 3 else 0, s.dev.certMask] ++
      (s.dev.sec.certs.map (fun (c : Nat × List Byte) => sha512 c.2)).flatten) (SameSpdm s.dev.sec) :=
  replies_of_connected hasks hconn rfl rfl rfl (sameSpdm_of_kept ⟨rfl, rfl, rfl⟩)

theorem getCertificate_answers (s : State) (ch : Fin 6) (msg : List Byte) (x : Bool) (v o n : Nat) (c : List Byte)
    (hasks : Asks s ch msg 0x82 x) (hconn : Connected s ch msg v) (hlen : 8 ≤ msg.length) (ho : o = leOf ((msg.drop 4).take 2))
    (hn : n = min (min (leOf ((msg.drop 6).take 2)) 8184) (c.length - o))
    (hc : mfind s.dev.sec.certs ((msg.getD 2 0).toNat % 16) = some c) (hin : o < c.length) :
    Replies (.getCertificate ch msg) s ch x
      (bytesOf [v, 2, (msg.getD 2 0).toNat % 16, 0] ++ toLE 2 n ++ toLE 2 (c.length - o - n) ++ (c.drop o).take n)
      (SameSpdm s.dev.sec) := by
  refine replies_of_connected hasks hconn rfl ?answer rfl (sameSpdm_of_kept ⟨rfl, rfl, rfl⟩)
  have hpart : ((c.drop o).take (min (leOf ((msg.drop 6).take 2)) 8184)).length = n := by
    rw [hn, List.length_take, List.length_drop]
  have htake : (c.drop o).take (min (leOf ((msg.drop 6).take 2)) 8184) = (c.drop o).take n := by
    rw [hn, ← List.length_drop, ← List.take_eq_take_min]
  have hc' : mfind s.begin.sec.certs ((msg.getD 2 0).toNat % 16) = some c := hc
  have hgood : ¬ (decide (msg.length < 8) || decide (c.length ≤ o)) = true := by
    simp only [Bool.or_eq_true, decide_eq_true_eq]
    omega
  simp only [hc', ← ho]
  rw [if_neg hgood, hpart, htake]

/-- A chain for a slot whose key is ready is taken where its leaf holds that key. -/
theorem setCertificate_answers (s : State) (ch : Fin 6) (msg : List Byte) (x : Bool) (v k : Nat) (hasks : Asks s ch msg 0xEE x)
    (hconn : Connected s ch msg v) (hk : k = (msg.getD 2 0).toNat % 16) (hslot : k < 2) (hready : s.dev.keyReady k = true)
    (hlen : msg.length ≤ 32772) :
    Replies (.setCertificate ch msg) s ch x
      (if Config.leafKey (msg.drop 4) = s.dev.identityKey k then bytesOf [v, 0x6E, k, 0] else bytesOf [v, 0x7F, 1, 0]) (fun y =>
      y.certs = (if Config.leafKey (msg.drop 4) = s.dev.identityKey k then mset s.dev.sec.certs k (msg.drop 4) else s.dev.sec.certs) ∧
      y.spdm = s.dev.sec.spdm ∧ y.sessions = s.dev.sec.sessions) := by
  have hready' : ¬ (!s.begin.keyReady k) = true := by
    have : s.begin.keyReady k = true := hready
    simp [this]
  have hkey : s.begin.identityKey k = s.dev.identityKey k := rfl
  have hshort : (msg.drop 4).length ≤ 32768 := by rw [List.length_drop]; omega
  have hlow : ¬ 1 < k := by omega
  by_cases hleaf : Config.leafKey (msg.drop 4) = s.dev.identityKey k
  case pos =>
    rw [if_pos hleaf, if_pos hleaf]
    refine replies_of_connected (d := s.begin.withCerts (mset s.dev.sec.certs k (msg.drop 4))) hasks hconn rfl
      ?answer (by simp) fun y ⟨hspdm, hcerts, hsessions, _⟩ => ⟨hcerts, hspdm, hsessions⟩
    have hgood : ¬ (decide (32768 < (msg.drop 4).length) || Config.leafKey (msg.drop 4) != s.begin.identityKey k) = true := by
      rw [hkey, hleaf]
      simpa using hlen
    simp only [← hk]
    rw [if_neg hlow, if_neg hready', if_neg hgood, Dev.setSec_certs, sec_begin_fields]
  case neg =>
    rw [if_neg hleaf, if_neg hleaf]
    refine replies_of_connected (d := s.begin) hasks hconn rfl
      ?refused rfl fun y ⟨hspdm, hcerts, hsessions, _⟩ => ⟨hcerts, hspdm, hsessions⟩
    have hbad : (decide (32768 < (msg.drop 4).length) || Config.leafKey (msg.drop 4) != s.begin.identityKey k) = true := by
      rw [hkey]
      simp [hleaf]
    simp only [← hk]
    rw [if_neg hlow, if_neg hready', if_pos hbad]
    rfl

theorem setCertificate_notReady (s : State) (ch : Fin 6) (msg : List Byte) (x : Bool) (v k : Nat) (hasks : Asks s ch msg 0xEE x)
    (hconn : Connected s ch msg v) (hk : k = (msg.getD 2 0).toNat % 16) (hslot : k < 2) (hready : s.dev.keyReady k = false) :
    Replies (.setCertificate ch msg) s ch x (notReady v 0xEE) (SameSpdm s.dev.sec) := by
  have hready' : (!s.begin.keyReady k) = true := by
    have : s.begin.keyReady k = false := hready
    simp [this]
  refine replies_of_connected (d := s.begin) hasks hconn rfl ?answer rfl (sameSpdm_of_kept ⟨rfl, rfl, rfl⟩)
  have hlow : ¬ 1 < k := by omega
  simp only [← hk]
  rw [if_neg hlow, if_pos hready']

/-! Challenges and measurements. -/

/-- Free values that have been drawn. -/
def Dev.drawn (d : Dev) (n : Nat) : Dev := { d with free := d.free + n }

theorem Dev.nonce_eq (d : Dev) : d.nonce = (Config.random d.free, d.drawn 1) := rfl

theorem Dev.signature_eq (d : Dev) : d.signature = (toLE 512 (Config.rsaSignature d.free).toNat, d.drawn 1) := rfl

theorem Dev.takeFree_eq (d : Dev) : d.takeFree = (d.free, d.drawn 1) := rfl

@[simp] theorem Dev.drawn_fields (d : Dev) (n : Nat) : (d.drawn n).free = d.free + n ∧ (d.drawn n).sec = d.sec ∧
    (d.drawn n).sansSpdm = d.sansSpdm ∧ (d.drawn n).certMask = d.certMask ∧ (d.drawn n).chainHash = d.chainHash ∧
    (d.drawn n).admin = d.admin := ⟨rfl, rfl, rfl, rfl, rfl, rfl⟩

theorem curReader_drawn (d : Dev) (n : Nat) (m : Mem) : (d.drawn n).curReader m = d.curReader m := by
  have harea : areaReader m (d.drawn n) d.strata.cur = areaReader m d d.strata.cur := by
    funext off k
    simp only [areaReader, peekLE, peekN_eq_map]
    rfl
  exact congrArg (fun r => if d.strata.curValid then r else fun _ _ => 0) harea

/-- What measurements read does not change with the values drawn. -/
theorem Dev.measured_drawn (d : Dev) (n : Nat) (m : Mem) : (d.drawn n).strata = d.strata ∧ (∀ k, (d.drawn n).arb k = d.arb k) ∧
    (d.drawn n).curReader m = d.curReader m ∧ (d.drawn n).genWord = d.genWord ∧ (d.drawn n).identStatus = d.identStatus ∧
    (d.drawn n).testBits = d.testBits ∧ (d.drawn n).negCaps = d.negCaps ∧ (d.drawn n).fuses = d.fuses ∧
    (d.drawn n).idModeNow = d.idModeNow ∧ (d.drawn n).sec = d.sec :=
  ⟨rfl, fun _ => rfl, curReader_drawn d n m, rfl, rfl, rfl, rfl, rfl, rfl, rfl⟩

theorem Dev.measurement_drawn (d : Dev) (n : Nat) (m : Mem) (i : Nat) : (d.drawn n).measurement m i = d.measurement m i := by
  simp only [Dev.measurement, Dev.measured_drawn d n m]

@[simp] theorem Dev.measurementSummary_drawn (d : Dev) (n : Nat) (m : Mem) (t : Nat) :
    (d.drawn n).measurementSummary m t = d.measurementSummary m t := by
  simp only [Dev.measurementSummary, Dev.measurementBlock, Dev.measurement_drawn]

/-- Which CHALLENGE is valid: slot 0, whole, with a chain to sign for. -/
theorem challenge_valid {s : State} {msg : List Byte} {c : List Byte} (hslot : (msg.getD 2 0).toNat = 0) (hlen : 36 ≤ msg.length)
    (hc : mfind s.dev.sec.certs 0 = some c) :
    ¬ ((msg.getD 2 0).toNat != 0 || decide (msg.length < 36) || (mfind s.begin.sec.certs 0).isNone) = true := by
  have hc' : mfind s.begin.sec.certs 0 = some c := hc
  rw [hc', hslot]
  simp only [bne_self_eq_false, Option.isNone_some, Bool.false_or, Bool.or_false, decide_eq_true_eq]
  omega

theorem challenge_answers (s : State) (ch : Fin 6) (msg : List Byte) (x : Bool) (v : Nat) (c : List Byte) (hasks : Asks s ch msg 0x83 x)
    (hconn : Connected s ch msg v) (hslot : (msg.getD 2 0).toNat = 0) (hlen : 36 ≤ msg.length) (hc : mfind s.dev.sec.certs 0 = some c)
    (hready : s.dev.sec.rsaReady = true) :
    Replies (.challenge ch msg) s ch x (bytesOf [v, 3, 0, s.dev.certMask] ++ sha512 c ++ toLE 32 (Config.random s.dev.free).toNat ++
      s.begin.measurementSummary s.mem (msg.getD 3 0).toNat ++ toLE 2 0 ++ reqContext v (msg.drop 36) ++
      toLE 512 (Config.rsaSignature (s.dev.free + 1)).toNat) (SameSpdm s.dev.sec) := by
  have hready' : ¬ (!s.begin.sec.rsaReady) = true := by simp [hready]
  have hhash : s.begin.chainHash = sha512 c := congrArg sha512 (show mget [] s.dev.sec.certs 0 = c by rw [mget, hc]; rfl)
  have hmask : s.begin.certMask = s.dev.certMask := rfl
  have hfree : s.begin.free = s.dev.free := rfl
  refine replies_of_connected (d := (s.begin.drawn 1).drawn 1) hasks hconn rfl ?answer (by simp)
    (sameSpdm_of_kept (by simp [State.begin]))
  dsimp only
  rw [if_neg (challenge_valid hslot hlen hc), if_neg hready']
  simp only [Dev.nonce_eq, Dev.signature_eq, Dev.drawn_fields, Dev.measurementSummary_drawn, hhash, hmask, hfree]

theorem challenge_notReady (s : State) (ch : Fin 6) (msg : List Byte) (x : Bool) (v : Nat) (c : List Byte) (hasks : Asks s ch msg 0x83 x)
    (hconn : Connected s ch msg v) (hslot : (msg.getD 2 0).toNat = 0) (hlen : 36 ≤ msg.length) (hc : mfind s.dev.sec.certs 0 = some c)
    (hready : s.dev.sec.rsaReady = false) : Replies (.challenge ch msg) s ch x (notReady v 0x83) (SameSpdm s.dev.sec) := by
  have hready' : (!s.begin.sec.rsaReady) = true := by simp [hready]
  refine replies_of_connected (d := s.begin) hasks hconn rfl ?answer rfl (sameSpdm_of_kept ⟨rfl, rfl, rfl⟩)
  dsimp only
  rw [if_neg (challenge_valid hslot hlen hc), if_pos hready']

/-- MEASUREMENTS up to its nonce. -/
def measurementsHead (v i : Nat) (bs : List Byte) : List Byte :=
  bytesOf [v, 0x60, if i = 0 then 11 else 0, 0, (measured i).length] ++ toLE 3 bs.length ++ bs

/-- GET_MEASUREMENTS of an index there is draws a nonce, and a signature where one is asked for. -/
theorem exec_getMeasurements_known (s : State) (ch : Fin 6) (msg : List Byte) (v i : Nat) (bs : List Byte)
    (hi : i = (msg.getD 3 0).toNat) (hindex : i ≤ 11 ∨ i = 255) (hbs : bs = ((measured i).map (s.begin.measurementBlock s.mem)).flatten) :
    ∃ f : Dev → Nat → Dev × List Byte,
      exec (.getMeasurements ch msg) s = .next (s.commit (s.begin.spdmRequest ch msg 0xE0 (!wantsSignature msg) f)) ∧
      (wantsSignature msg = false → f s.begin v = (s.begin.drawn 1, measurementsHead v i bs ++
        toLE 32 (Config.random s.dev.free).toNat ++ toLE 2 0 ++ reqContext v (msg.drop 4))) ∧
      (wantsSignature msg = true → (msg.getD 36 0).toNat % 16 = 0 → 37 ≤ msg.length → s.dev.sec.rsaReady = true →
        f s.begin v = ((s.begin.drawn 1).drawn 1, measurementsHead v i bs ++ toLE 32 (Config.random s.dev.free).toNat ++ toLE 2 0 ++
          reqContext v (msg.drop 37) ++ toLE 512 (Config.rsaSignature (s.dev.free + 1)).toNat)) := by
  have hknown : ¬ (decide (11 < i) && i != 255) = true := by
    rcases hindex with h | h <;> simp [h]
  subst hbs
  refine ⟨_, rfl, fun hunsigned => ?unsigned, fun hsigned hslot hlen hready => ?signed⟩
  case unsigned =>
    simp only [hunsigned, ← hi, Bool.false_and, Bool.false_eq_true, if_false]
    rw [if_neg hknown]
    simp only [Dev.nonce_eq]
    rfl
  case signed =>
    have hwhole : ((msg.getD 36 0).toNat % 16 != 0 || decide (msg.length < 37)) = false := by
      simp only [hslot, bne_self_eq_false, Bool.false_or, decide_eq_false_iff_not]
      omega
    have hready' : s.begin.sec.rsaReady = true := hready
    simp only [hsigned, hwhole, hready', ← hi, Bool.true_and, Bool.not_true, Bool.false_eq_true, if_false, if_true]
    rw [if_neg hknown]
    simp only [Dev.nonce_eq, Dev.signature_eq]
    rfl

theorem getMeasurements_unsigned_answers (s : State) (ch : Fin 6) (msg : List Byte) (x : Bool) (v i : Nat) (bs : List Byte)
    (hasks : Asks s ch msg 0xE0 x) (hv : v = 0x12 ∨ v = 0x13) (hmsg : (msg.getD 0 0).toNat = v)
    (hspdm : s.dev.spdm ch = { version := true, inUse := v, capabilities := true, algorithms := true })
    (hunsigned : wantsSignature msg = false) (hi : i = (msg.getD 3 0).toNat) (hindex : i ≤ 11 ∨ i = 255)
    (hbs : bs = ((measured i).map (s.begin.measurementBlock s.mem)).flatten) :
    Replies (.getMeasurements ch msg) s ch x (bytesOf [v, 0x60, if i = 0 then 11 else 0, 0, (measured i).length] ++ toLE 3 bs.length ++ bs ++
      toLE 32 (Config.random s.dev.free).toNat ++ toLE 2 0 ++ reqContext v (msg.drop 4)) (SameSpdm s.dev.sec) := by
  obtain ⟨f, hexec, hanswer, -⟩ := exec_getMeasurements_known s ch msg v i bs hi hindex hbs
  rw [hunsigned] at hexec
  subst hmsg
  have hadmits : s.dev.admitsRequest ch 0xE0 (msg.getD 0 0).toNat := by
    rw [Dev.admitsRequest, hspdm]
    exact .inr ⟨hv, rfl, .inr ⟨rfl, rfl, .inr rfl⟩⟩
  exact replies_of_admitted hasks hadmits hexec (hanswer hunsigned) (by simp) (sameSpdm_of_kept (by simp [State.begin]))

theorem getMeasurements_signed_answers (s : State) (ch : Fin 6) (msg : List Byte) (x : Bool) (v i : Nat) (bs : List Byte)
    (hasks : Asks s ch msg 0xE0 x) (hconn : Connected s ch msg v) (hsigned : wantsSignature msg = true) (hi : i = (msg.getD 3 0).toNat)
    (hindex : i ≤ 11 ∨ i = 255) (hbs : bs = ((measured i).map (s.begin.measurementBlock s.mem)).flatten)
    (hslot : (msg.getD 36 0).toNat % 16 = 0) (hlen : 37 ≤ msg.length) (hready : s.dev.sec.rsaReady = true) :
    Replies (.getMeasurements ch msg) s ch x (bytesOf [v, 0x60, if i = 0 then 11 else 0, 0, (measured i).length] ++ toLE 3 bs.length ++ bs ++
      toLE 32 (Config.random s.dev.free).toNat ++ toLE 2 0 ++ reqContext v (msg.drop 37) ++
      toLE 512 (Config.rsaSignature (s.dev.free + 1)).toNat) (SameSpdm s.dev.sec) := by
  obtain ⟨f, hexec, -, hanswer⟩ := exec_getMeasurements_known s ch msg v i bs hi hindex hbs
  exact replies_of_connected hasks hconn hexec (hanswer hsigned hslot hlen hready) (by simp)
    (sameSpdm_of_kept (by simp [State.begin]))

/-! Sessions. -/

/-- A KEY_EXCHANGE that asks for no mutual authentication, whole, with the key ready. -/
theorem keyExchange_valid {s : State} {msg : List Byte} (hparam : (msg.getD 3 0).toNat = 0) (hlen : 138 ≤ msg.length)
    (hready : s.dev.sec.rsaReady = true) :
    ¬ ((msg.getD 3 0).toNat != 0 || decide (msg.length < 138)) = true ∧ ¬ (!s.begin.sec.rsaReady) = true := by
  have hready' : s.begin.sec.rsaReady = true := hready
  simp only [hparam, hready', bne_self_eq_false, Bool.false_or, decide_eq_true_eq, Bool.not_true, Bool.false_eq_true, not_false_eq_true,
    and_true]
  omega

/-- The session that a KEY_EXCHANGE opens, numbered `i`. -/
def openedSession (s : State) (ch : Nat) (msg : List Byte) (i : Nat) : Session :=
  { number := i, channel := ch, ready := false, mayKey := ch == 4 || (ch < 4 && s.dev.admin.getLsbD ch),
    id := BitVec.ofNat 32 (leOf ((msg.drop 4).take 2) + (Config.sessionId (s.dev.free + 2)).toNat * 65536) }

/-- The device with one more session, its random values drawn. -/
def Dev.opened (d : Dev) (z : Session) : Dev :=
  (((d.drawn 1).drawn 1).drawn 1).withSessions (d.sec.sessions ++ [z])

theorem opened_fields (d : Dev) (z : Session) : (d.opened z).sansSpdm = d.sansSpdm ∧ (d.opened z).sec.spdm = d.sec.spdm ∧
    (d.opened z).sec.certs = d.sec.certs ∧ (d.opened z).sec.sessions = d.sec.sessions ++ [z] := by simp [Dev.opened]

theorem openedSession_mayKey (s : State) (ch : Nat) (msg : List Byte) (i : Nat) :
    (openedSession s ch msg i).mayKey = true ↔ ch = 4 ∨ (ch < 4 ∧ s.dev.admin.getLsbD ch = true) := by
  simp [openedSession]

/-- What KEY_EXCHANGE answers behind its header. -/
def exchangeBytes (s : State) (msg : List Byte) : List Byte :=
  toLE 2 (Config.sessionId (s.dev.free + 2)).toNat ++ (bytesOf [0, 0] ++ (toLE 32 (Config.random s.dev.free).toNat ++
    (toLE 96 (Config.exchangeData (s.dev.free + 2)).toNat ++ (s.begin.measurementSummary s.mem (msg.getD 2 0).toNat ++ (toLE 2 0 ++
      (toLE 512 (Config.rsaSignature (s.dev.free + 1)).toNat ++ toLE 64 (Config.verifyData (s.dev.free + 2)).toNat))))))

theorem keyExchange_opens (s : State) (ch : Fin 6) (msg : List Byte) (x : Bool) (v i : Nat) (hasks : Asks s ch msg 0xE4 x)
    (hconn : Connected s ch msg v) (hparam : (msg.getD 3 0).toNat = 0) (hlen : 138 ≤ msg.length) (hready : s.dev.sec.rsaReady = true)
    (hfree : s.dev.freeSession = some i) :
    ∃ bs, Replies (.keyExchange ch msg) s ch x (bytesOf [v, 0x64, 0, 0] ++ bs) (fun y => y.certs = s.dev.sec.certs ∧
      y.spdm = s.dev.sec.spdm ∧ ∃ z : Session, y.sessions = s.dev.sec.sessions ++ [z] ∧ z.number = i ∧ z.channel = ch ∧ z.ready = false ∧
        (z.mayKey = true ↔ ch.val = 4 ∨ (ch.val < 4 ∧ s.dev.admin.getLsbD ch = true))) := by
  obtain ⟨hvalid, hready'⟩ := keyExchange_valid (s := s) hparam hlen hready
  have hfree' : s.begin.freeSession = some i := hfree
  obtain ⟨f, hexec, hf⟩ : ∃ f, exec (.keyExchange ch msg) s = .next (s.commit (s.begin.spdmRequest ch msg 0xE4 false f)) ∧
      f s.begin v = (s.begin.opened (openedSession s ch msg i), bytesOf [v, 0x64, 0, 0] ++ exchangeBytes s msg) := by
    refine ⟨_, rfl, ?_⟩
    dsimp only
    rw [if_neg hvalid, if_neg hready', hfree']
    simp only [Dev.nonce_eq, Dev.signature_eq, Dev.takeFree_eq, Dev.setSec_sessions, Dev.drawn_fields, Dev.measurementSummary_drawn,
      List.append_assoc]
    rfl
  obtain ⟨hframe, hspdm', hcerts', hsessions'⟩ := opened_fields s.begin (openedSession s ch msg i)
  exact ⟨_, replies_of_connected hasks hconn hexec hf hframe fun y ⟨hspdm, hcerts, hsessions, _⟩ =>
    ⟨hcerts.trans hcerts', hspdm.trans hspdm', _, hsessions.trans hsessions', rfl, rfl, rfl, openedSession_mayKey s ch msg i⟩⟩

theorem keyExchange_busy (s : State) (ch : Fin 6) (msg : List Byte) (x : Bool) (v : Nat) (hasks : Asks s ch msg 0xE4 x)
    (hconn : Connected s ch msg v) (hparam : (msg.getD 3 0).toNat = 0) (hlen : 138 ≤ msg.length) (hready : s.dev.sec.rsaReady = true)
    (hfree : s.dev.freeSession = none) :
    Replies (.keyExchange ch msg) s ch x (bytesOf [v, 0x7F, 3, 0]) (SameSpdm s.dev.sec) := by
  obtain ⟨hvalid, hready'⟩ := keyExchange_valid (s := s) hparam hlen hready
  have hfree' : s.begin.freeSession = none := hfree
  refine replies_of_connected (d := s.begin) hasks hconn rfl ?answer rfl (sameSpdm_of_kept ⟨rfl, rfl, rfl⟩)
  dsimp only
  rw [if_neg hvalid, if_neg hready', hfree']
  rfl

theorem mem_sessions_dropped (d : Dev) (i : Nat) (w : Session) :
    w ∈ (d.dropSession i).sec.sessions ↔ w ∈ d.sec.sessions ∧ w.number ≠ i := by
  change w ∈ d.sec.sessions.filter _ ↔ _
  rw [List.mem_filter, bne_iff_ne]

theorem dropSession_fields (d : Dev) (i : Nat) : (d.dropSession i).sansSpdm = d.sansSpdm ∧ (d.dropSession i).sec.spdm = d.sec.spdm ∧
    (d.dropSession i).sec.certs = d.sec.certs := ⟨rfl, rfl, rfl⟩

/-- A session once FINISH of number `i` has held. -/
def finished (i : Nat) (w : Session) : Session := if w.number == i then { w with ready := true } else w

theorem finish_answers (s : State) (ch : Fin 6) (msg : List Byte) (x : Bool) (v : Nat) (z : Session) (hasks : Asks s ch msg 0xE5 x)
    (hconn : Connected s ch msg v) (hz : s.dev.sessionOf ch false = some z) :
    Replies (.finish ch msg) s ch x (if Config.finishHolds s.dev.free msg then bytesOf [v, 0x65, 0, 0] else bytesOf [v, 0x7F, 6, 0]) (fun y =>
      y.certs = s.dev.sec.certs ∧ y.spdm = s.dev.sec.spdm ∧
      (Config.finishHolds s.dev.free msg = true →
        y.sessions = s.dev.sec.sessions.map (fun w => if w.number = z.number then { w with ready := true } else w)) ∧
      (Config.finishHolds s.dev.free msg = false → ∀ w, w ∈ y.sessions ↔ w ∈ s.dev.sec.sessions ∧ w.number ≠ z.number)) := by
  have hz' : s.begin.sessionOf ch false = some z := hz
  cases hholds : Config.finishHolds s.dev.free msg with
  | true =>
    refine replies_of_connected (d := (s.begin.drawn 1).withSessions (s.dev.sec.sessions.map fun w => finished z.number w)) hasks hconn rfl
      ?answer (by simp) fun y ⟨hspdm, hcerts, hsessions, _⟩ => ⟨hcerts, hspdm, fun _ => hsessions.trans ?_, fun h => nomatch h⟩
    case answer =>
      dsimp only
      rw [hz']
      exact if_pos (c := Config.finishHolds s.dev.free msg = true) hholds
    · simp [finished]
  | false =>
    refine replies_of_connected (d := (s.begin.drawn 1).dropSession z.number) hasks hconn rfl
      ?refused (by simp [dropSession_fields]) fun y ⟨hspdm, hcerts, hsessions, _⟩ => ⟨hcerts.trans ?_, hspdm.trans ?_, (fun h => nomatch h), fun _ w => ?_⟩
    case refused =>
      dsimp only
      rw [hz']
      exact if_neg (c := Config.finishHolds s.dev.free msg = true) (by rw [hholds]; decide)
    · simp [dropSession_fields, sec_begin_fields]
    · simp [dropSession_fields, sec_begin_fields]
    · rw [hsessions, mem_sessions_dropped]
      rfl

theorem endSession_answers (s : State) (ch : Fin 6) (msg : List Byte) (x : Bool) (v : Nat) (z : Session) (hasks : Asks s ch msg 0xEC x)
    (hconn : Connected s ch msg v) (hz : s.dev.sessionOf ch true = some z) :
    Replies (.endSession ch msg) s ch x (bytesOf [v, 0x6C, 0, 0]) (fun y => y.certs = s.dev.sec.certs ∧ y.spdm = s.dev.sec.spdm ∧
      (∀ w, w ∈ y.sessions ↔ w ∈ s.dev.sec.sessions ∧ w.number ≠ z.number)) := by
  have hz' : s.begin.sessionOf ch true = some z := hz
  refine replies_of_connected (d := s.begin.dropSession z.number) hasks hconn rfl ?answer (dropSession_fields _ _).1
    fun y ⟨hspdm, hcerts, hsessions, _⟩ => ⟨hcerts, hspdm, fun w => ?_⟩
  case answer => rw [hz']
  · rw [hsessions]
    exact mem_sessions_dropped _ _ w

/-- Settles O53: a request is answered with what its meaning computes on the made connection, and an answer touches nothing of Obsidian's
but its mailboxes. The message and response layouts, and what a connection keeps, are the model's choice (log entries 70 and 80). -/
theorem spdmRequestsAreAnswered : Obligations.SpdmRequestsAreAnswered :=
  ⟨getVersion_opens, getCapabilities_answers, negotiateAlgorithms_answers, getDigests_answers, getCertificate_answers, setCertificate_answers,
    setCertificate_notReady, challenge_answers, challenge_notReady, getMeasurements_unsigned_answers, getMeasurements_signed_answers,
    keyExchange_opens, keyExchange_busy, finish_answers, endSession_answers⟩

end Sys2Proof.Machine
end


section
/-! The SEC mailboxes, QUOTE and link keys (R243, R445 to R447; the contents of a quote are the model's choice, log entries 80 and 81). -/

namespace Sys2Proof.Machine

open Sys2Proof.Claims (Ends Heard MailboxGets SameSpdm)

/-! QUOTE. -/

/-- What QUOTE answers with an identity. -/
def quoteBytes (s : State) (dg : List Byte) : List Byte :=
  bytesOf [0x80, if s.dev.sec.mldsaReady then 0 else 1, 0, 0] ++ dg ++ toLE 4627 (Config.mldsaSignature s.dev.free dg).toNat ++ bytesOf [0]

/-- The digest that QUOTE signs. -/
def quoteDigest (s : State) (n : BitVec 256) : List Byte :=
  sha512 (toLE 32 n.toNat ++ ((List.range 11).map (fun i => s.begin.measurementDigest s.mem (i + 1))).flatten)

/-- A QUOTE that is due is answered with its quote, on the bus or in its mailbox. -/
theorem xQuote_identified (s : State) (ch : Nat) (n : BitVec 256) (hrun : s.dev.sec.state = .running) (hlost : s.dev.lost 4 = false)
    (hid : pkgIdOk s.dev.fuses.pkgIdA = true)
    (hdue : ch = 5 ∨ ((s.dev.mailbox ch).want = 36 ∧ (s.dev.mailbox ch).writing = false ∧ (s.dev.mailbox ch).request = quoteRequest n)) :
    xQuote ch n s.mem s.begin = if ch = 5 then ((s.begin.drawn 1).bump Reg.secSpdmMsgs).emit (.spdm ch (quoteBytes s (quoteDigest s n)))
      else ((s.begin.drawn 1).bump Reg.secSpdmMsgs).mboxReply ch (quoteBytes s (quoteDigest s n)) := by
  have hbox : s.begin.mailbox ch = s.dev.mailbox ch := rfl
  have hobsidian := obsidian_begin hrun hlost
  have htaken : (!s.begin.obsidian || !(ch == 5 || (s.begin.mailbox ch).want == 36 && !(s.begin.mailbox ch).writing &&
      (s.begin.mailbox ch).request == quoteRequest n)) = false := by
    rcases hdue with rfl | ⟨hwant, hwriting, hrequest⟩
    · simp [hobsidian]
    · simp [hobsidian, hbox, hwant, hwriting, hrequest]
  have hresp : ¬ (!pkgIdOk s.begin.takeFree.2.fuses.pkgIdA) = true := by simp [hid]
  simp only [xQuote, htaken, hresp, Bool.false_eq_true, if_false]
  rfl

theorem quote_identified (s : State) (ch : Fin 6) (n : BitVec 256) (dg : List Byte) (hrun : s.dev.sec.state = .running)
    (hlost : s.dev.lost 4 = false) (hid : pkgIdOk s.dev.fuses.pkgIdA = true)
    (hdue : ch.val = 5 ∨ ((s.dev.mailbox ch).want = 36 ∧ (s.dev.mailbox ch).writing = false ∧ (s.dev.mailbox ch).request = quoteRequest n))
    (hdg : dg = quoteDigest s n) :
    Ends (.quote ch n) s (fun u => u.dev.count Reg.secSpdmMsgs = s.dev.count Reg.secSpdmMsgs + 1 ∧
      (ch.val = 5 → u.dev.out = [.spdm 5 (quoteBytes s dg)] ∧ u.mem = s.mem) ∧ (ch.val < 5 → MailboxGets s u ch (quoteBytes s dg)) ∧
      SameSpdm s.dev.sec u.dev.sec ∧ u.dev.tiles = s.dev.tiles ∧ u.dev.ctxs = s.dev.ctxs) := by
  have hquote := xQuote_identified s ch n hrun hlost hid hdue
  rw [← hdg] at hquote
  generalize quoteBytes s dg = bs at hquote ⊢
  rw [Ends, exec_quote, execQuote, State.run_eq, hquote]
  have hcount : ((s.begin.drawn 1).bump Reg.secSpdmMsgs).count Reg.secSpdmMsgs = s.dev.count Reg.secSpdmMsgs + 1 := by
    rw [Dev.count_bump_same]; rfl
  by_cases hbus : ch.val = 5
  case pos =>
    have hrest : ((s.begin.drawn 1).bump Reg.secSpdmMsgs).out = [] ∧ SameSpdm s.dev.sec ((s.begin.drawn 1).bump Reg.secSpdmMsgs).sec ∧
        ((s.begin.drawn 1).bump Reg.secSpdmMsgs).stores = [] ∧ ((s.begin.drawn 1).bump Reg.secSpdmMsgs).wipes = [] ∧
        ((s.begin.drawn 1).bump Reg.secSpdmMsgs).tiles = s.dev.tiles ∧ ((s.begin.drawn 1).bump Reg.secSpdmMsgs).ctxs = s.dev.ctxs :=
      ⟨rfl, ⟨rfl, rfl, rfl⟩, rfl, rfl, rfl, rfl⟩
    generalize (s.begin.drawn 1).bump Reg.secSpdmMsgs = d at hcount hrest ⊢
    obtain ⟨hout, hsec, hstores, hwipes, htiles, hctxs⟩ := hrest
    rw [if_pos hbus, hbus]
    refine ⟨_, rfl, rfl, hcount, fun _ => ⟨?_, State.commit_mem s _ hstores hwipes⟩, fun h => absurd h (by decide), hsec, htiles, hctxs⟩
    rw [State.commit_out, Dev.emit, hout]
    rfl
  case neg =>
    rw [if_neg hbus]
    obtain ⟨⟨hspdm, hcerts, hsessions, -⟩, hcounters, htiles, hctxs, -⟩ :=
      sansAnswer_fields (mboxReply_sansAnswer ((s.begin.drawn 1).bump Reg.secSpdmMsgs) ch bs)
    refine ⟨_, rfl, rfl, ?count, fun h => absurd h hbus, fun _ => mailboxGets_of_mboxReply s _ ch _ rfl rfl rfl rfl,
      ⟨hspdm, hcerts, hsessions⟩, htiles, hctxs⟩
    case count => rw [Dev.count_commit, Dev.count, hcounters]; exact hcount

theorem quote_barred (s : State) (n : BitVec 256) (hrun : s.dev.sec.state = .running) (hlost : s.dev.lost 4 = false)
    (hid : pkgIdOk s.dev.fuses.pkgIdA = false) :
    Ends (.quote 5 n) s (fun u => u.dev.out = [.spdm 5 (bytesOf [0x13, 0x7F, 5, 0])] ∧ u.dev.sec = s.dev.sec ∧ u.mem = s.mem) := by
  have hquote := xQuote_unidentified s 5 n hrun hlost hid (.inl rfl)
  rw [if_pos rfl] at hquote
  exact ends_of_run (x := xQuote 5 n) rfl hquote ⟨rfl, rfl, State.commit_mem s _ rfl rfl⟩

/-! SEND (R445). -/

theorem fb_mboxWord (d : Dev) (m : Nat) {cmd : Nat} (hcmd : cmd < 4) : fb (mboxWord d m cmd) 31 30 = cmd := fb_cmd _ hcmd

/-- A mailbox that has taken a request of `n` bytes: STATE is BUSY, ERR and RSP_LEN are 0. -/
def Dev.mboxBusy (d : Dev) (m n : Nat) : Dev :=
  (((d.setRf (Reg.secMboxCtrl m) 29 28 1).setRf (Reg.secMboxCtrl m) 21 14 0).setRf (Reg.secMboxCtrl m) 13 0 0).setMailbox m { want := n }

theorem mboxBusy_fields (d : Dev) (m n : Nat) : (d.mboxBusy m n).counters = d.counters ∧ (d.mboxBusy m n).tiles = d.tiles ∧
    (d.mboxBusy m n).hosts = d.hosts ∧ (d.mboxBusy m n).tags = d.tags ∧ (d.mboxBusy m n).stores = d.stores ∧
    (d.mboxBusy m n).wipes = d.wipes ∧ SameSpdm d.sec (d.mboxBusy m n).sec := ⟨rfl, rfl, rfl, rfl, rfl, rfl, rfl, rfl, rfl⟩

theorem mailbox_mboxBusy (d : Dev) (m n : Nat) : (d.mboxBusy m n).mailbox m = { want := n } := mailbox_setMailbox_same _ _ _

theorem reg_setRf_other (d : Dev) {k j : Nat} (hi lo x : Nat) (h : k ≠ j) : (d.setRf k hi lo x).reg j = d.reg j := by
  rw [Dev.setRf, Dev.setRegN, Dev.reg_setReg, if_neg h]

theorem reg_setMailbox (d : Dev) (m : Nat) (x : Mailbox) (j : Nat) : (d.setMailbox m x).reg j = d.reg j := rfl

theorem reg_mboxBusy (d : Dev) (m n : Nat) {j : Nat} (h : Reg.secMboxCtrl m ≠ j) : (d.mboxBusy m n).reg j = d.reg j := by
  unfold Dev.mboxBusy
  generalize Reg.secMboxCtrl m = k at h ⊢
  rw [reg_setMailbox, reg_setRf_other _ _ _ _ h, reg_setRf_other _ _ _ _ h, reg_setRf_other _ _ _ _ h]

/-- A taken request leaves the addresses of the buffers. -/
theorem mboxReq_mboxBusy (d : Dev) (m n : Nat) : (d.mboxBusy m n).mboxReq m = d.mboxReq m := by
  have hlo : Reg.secMboxCtrl m ≠ Reg.secMboxReqLo m := by simp only [Reg.secMboxCtrl, Reg.secMboxReqLo]; omega
  have hhi : Reg.secMboxCtrl m ≠ Reg.secMboxReqLo m + 4 := by simp only [Reg.secMboxCtrl, Reg.secMboxReqLo]; omega
  rw [Dev.mboxReq, Dev.mboxReq, Dev.reg64, Dev.reg64, reg_mboxBusy d m n hlo, reg_mboxBusy d m n hhi]

theorem mboxSend_busy {d : Dev} {m : Nat} (mem : Mem) (h : d.rf (Reg.secMboxCtrl m) 29 28 = 1) :
    d.mboxSend mem m = (d.bump Reg.devRegRefused, stACCESS) := if_pos h

theorem mboxSend_host {d : Dev} {m n : Nat} (mem : Mem) (h : d.rf (Reg.secMboxCtrl m) 29 28 ≠ 1) (hn : n = d.rf (Reg.secMboxLen m) 15 0)
    (hsome : n ≠ 0) (hm : m < 4) : d.mboxSend mem m = ((d.mboxBusy m n).mboxFetch m, stOK) := by
  subst hn
  exact (if_neg h).trans ((if_neg hsome).trans (if_pos hm))

theorem mboxSend_sram {d : Dev} {n : Nat} (mem : Mem) (h : d.rf (Reg.secMboxCtrl 4) 29 28 ≠ 1) (hn : n = d.rf (Reg.secMboxLen 4) 15 0)
    (hsome : n ≠ 0) (hin : d.mboxReq 4 + n ≤ 0x800000) : d.mboxSend mem 4 =
      (((d.mboxBusy 4 n).setMailbox 4 { want := n, request := peekN mem (d.mboxBusy 4 n) (sramBase + d.mboxReq 4) n }).mboxArrived 4, stOK) := by
  have hin' : ¬ (!inSram ((d.mboxBusy 4 n).mboxReq 4) n) = true := by
    rw [mboxReq_mboxBusy]
    simpa [inSram] using hin
  rw [← mboxReq_mboxBusy d 4 n]
  subst hn
  exact (if_neg h).trans ((if_neg hsome).trans ((if_neg (by decide)).trans (if_neg hin')))

/-- A whole request of a known type, of the right length for QUOTE, stays as it came. -/
theorem mboxArrived_known {d : Dev} {m : Nat} {bs : List Byte} (hreq : (d.mailbox m).request = bs)
    (hty : (bs.headD 0).toNat = 5 ∨ (bs.headD 0).toNat = 6 ∨ ((bs.headD 0).toNat = 0x80 ∧ bs.length = 36)) : d.mboxArrived m = d := by
  unfold Dev.mboxArrived
  rw [hreq]
  extract_lets q ty
  have hknown : ¬ (ty != 0x05 && ty != 0x06 && ty != 0x80) = true := by
    rcases hty with h | h | ⟨h, -⟩ <;> simp [q, ty, h]
  have hlength : ¬ (ty == 0x80 && bs.length != 36) = true := by
    rcases hty with h | h | ⟨h, hlen⟩
    · simp [q, ty, h]
    · simp [q, ty, h]
    · simp [q, hlen]
  rw [if_neg hknown, if_neg hlength]

/-- A tag in a header leaves opcode and address. -/
theorem withTag_reads (k : HPacket) (n : Nat) : (⟨withTag k.hdr n, k.data⟩ : HPacket).opc = k.opc ∧
    (⟨withTag k.hdr n, k.data⟩ : HPacket).addr = k.addr := by
  have hword : (withTag k.hdr n).toNat = setFld k.hdr.toNat 119 108 n := by
    rw [withTag, BitVec.toNat_ofNat, Nat.mod_eq_of_lt (setFld_lt _ 119 108 n 128 k.hdr.isLt (by decide) (by decide))]
  simp only [HPacket.opc, HPacket.addr, fb, hword]
  exact ⟨fld_setFld_above _ _ _ _ _ _ (by decide) (by decide), fld_setFld_below _ _ _ _ _ _ (by decide)⟩

theorem host_setHost_same (d : Dev) (p : Nat) (x : HostPort) : (d.setHost p x).host p = x := mget_mset_same _ _ _ _

/-- A request to a host is queued or waits, with its opcode and address. -/
theorem hostRequest_queues (d : Dev) (p : Nat) (k : HPacket) (t : Tag) : ∃ k' : HPacket, k'.opc = k.opc ∧ k'.addr = k.addr ∧
    (k' ∈ ((d.hostRequest p k t).host p).tx ∨ ∃ t', (k', t') ∈ ((d.hostRequest p k t).host p).waiting) := by
  have hwaits : ∃ t', (k, t') ∈ ((d.setHost p { d.host p with waiting := (d.host p).waiting ++ [(k, t)] }).host p).waiting :=
    ⟨t, by rw [host_setHost_same]; simp⟩
  unfold Dev.hostRequest
  extract_lets wait
  split
  · exact ⟨k, rfl, rfl, .inr hwaits⟩
  · next hup =>
    split
    · exact ⟨k, rfl, rfl, .inr hwaits⟩
    · next n hn =>
      obtain ⟨hopc, haddr⟩ := withTag_reads k n
      refine ⟨⟨withTag k.hdr n, k.data⟩, hopc, haddr, .inl ?_⟩
      extract_lets k' e
      have hsend : e.sendHost p k' = e.setHost p { e.host p with tx := (e.host p).tx ++ [k'] } := if_pos (show (d.host p).up = true by simpa using hup)
      rw [hsend, host_setHost_same]
      simp [k']

theorem reg64_lt (d : Dev) (k : Nat) : d.reg64 k < 2 ^ 64 := by
  have hlo := (d.reg k).isLt
  have hhi := (d.reg (k + 4)).isLt
  simp only [Dev.reg64]
  omega

theorem mboxReq_begin (s : State) (m : Nat) : s.begin.mboxReq m = s.dev.mboxReq m := by
  have hreg : ∀ k, s.begin.reg k = s.dev.reg k := fun _ => rfl
  simp only [Dev.mboxReq, Dev.reg64, hreg]

theorem mboxReq_lt (d : Dev) (m : Nat) : d.mboxReq m < 2 ^ 64 := reg64_lt d _

/-- A read of host memory is queued or waits. -/
theorem hrd_queues (d : Dev) (p opc a len : Nat) (u : Purpose) (x y : Nat) (hopc : opc < 64) (ha : a < 2 ^ 64) (hlen : len < 512) :
    ∃ k : HPacket, k.opc = opc ∧ k.addr = a ∧ (k ∈ ((d.hrd p 0 opc a len u x y).host p).tx ∨
      ∃ t, (k, t) ∈ ((d.hrd p 0 opc a len u x y).host p).waiting) := by
  have hgen : d.genOf 0 < 256 := Nat.mod_lt _ (by decide)
  obtain ⟨hkopc, -, -, -, -, -, -, -, hkaddr⟩ := hpHdr_read (cls := 0) (tag := 0) (status := 0) (ctx := 0) (grant := 0) [] hopc (by decide) (by decide)
    (by decide) (by decide) hgen hlen (by decide) ha rfl
  obtain ⟨k, hkopc', hkaddr', hk⟩ := hostRequest_queues d p { hdr := hpHdr opc 0 0 0 0 (d.genOf 0) len 0 a, data := [] }
    { tag := 0, port := p, ctx := 0, gen := BitVec.ofNat 8 (d.genOf 0), purpose := u, a := x, b := y, c := len,
      addr := BitVec.ofNat 64 a }
  exact ⟨k, hkopc'.trans hkopc, hkaddr'.trans hkaddr, hk⟩

theorem mboxFetch_eq (d : Dev) (m : Nat) {x : Mailbox} {a : Nat} (hx : d.mailbox m = x) (ha : d.mboxReq m + x.request.length = a) :
    d.mboxFetch m = d.hrd m 0 opcHRD a (min (x.want - x.request.length) (256 - a % 256)) .mailbox m 0 := by
  subst hx ha
  rfl

/-- The first part of a request is asked of the host. -/
theorem mboxFetch_asks (d : Dev) (m n : Nat) (hbox : d.mailbox m = { want := n }) : ∃ k : HPacket, k.opc = opcHRD ∧ k.addr = d.mboxReq m ∧
    (k ∈ ((d.mboxFetch m).host m).tx ∨ ∃ t, (k, t) ∈ ((d.mboxFetch m).host m).waiting) := by
  have hpart : ∀ w a : Nat, min w (256 - a % 256) < 512 := fun w a => by omega
  have hlt := mboxReq_lt d m
  have hstart : d.mboxReq m + ({ want := n } : Mailbox).request.length = d.mboxReq m := Nat.add_zero _
  rw [mboxFetch_eq d m hbox hstart]
  generalize d.mboxReq m = a at hlt ⊢
  exact hrd_queues d m opcHRD a _ .mailbox m 0 (by decide) hlt (hpart _ a)

/-- A write of CMD SEND or ABANDON is what the command does, and then the word's RW bits. -/
theorem mboxCtrlWrite_ok {d e : Dev} {mem : Mem} {m : Nat} {v : BitVec 32} (h : (fb v 31 30 = 1 ∧ d.mboxSend mem m = (e, stOK)) ∨
    (fb v 31 30 = 2 ∧ d.mboxAbandon m = e)) : d.mboxCtrlWrite mem m v = (e.putReg (Reg.secMboxCtrl m) v, stOK) := by
  unfold Dev.mboxCtrlWrite
  rcases h with ⟨hcmd, he⟩ | ⟨hcmd, he⟩
  · rw [hcmd]
    simp only [he, if_true]
  · rw [hcmd]
    simp only [he, if_true]

theorem writeMask_secMboxCtrl (m : Fin 5) : writeMask (Reg.secMboxCtrl m) = 3 * 2 ^ 30 := by
  have hmask : ∀ m : Fin 5, spaceMask [.pkg] (Reg.secMboxCtrl m) = 3 * 2 ^ 30 := by decide +kernel
  rw [writeMask_pkg (by simp only [Reg.secMboxCtrl]; omega), hmask]

/-- A write of SEC_MBOX_CTRL leaves STATE and ERR. -/
theorem rf_putReg_secMboxCtrl (d : Dev) (m : Fin 5) (v : BitVec 32) {hi lo : Nat} (hhi : hi < 30) :
    (d.putReg (Reg.secMboxCtrl m) v).rf (Reg.secMboxCtrl m) hi lo = d.rf (Reg.secMboxCtrl m) hi lo :=
  rf_putReg_kept (by omega) (writeMask_secMboxCtrl m) (fun i _ _ hi' => by
    have hlow : i < 30 := by omega
    have : Nat.testBit (3 * 2 ^ 30) i = false := by
      rw [Nat.mul_comm, Nat.testBit_two_pow_mul]
      simp [hlow]
    exact this) d v

/-- The states in which a mailbox command that is carried out ends. -/
theorem ends_of_mailbox {i : Instr} {s : State} {r : Requester} {m cmd : Nat} {e : Dev} {P : State → Prop} (hm : m < 5)
    (hexec : exec i s = s.runReg r (Reg.secMboxCtrl m) (mboxWord s.dev m cmd) (fun _ => mayMailbox r m)
      (fun mem d => d.mboxCtrlWrite mem m (mboxWord d m cmd)))
    (hheard : Heard s r (Reg.secMboxCtrl m) (mboxWord s.dev m cmd)) (hmay : mayMailbox r m = true)
    (he : (cmd = 1 ∧ s.begin.mboxSend s.mem m = (e, stOK)) ∨ (cmd = 2 ∧ s.begin.mboxAbandon m = e)) (hstores : e.stores = [])
    (hwipes : e.wipes = [])
    (hP : ∀ u : State, u.dev.sec = e.sec → u.dev.hosts = e.hosts → u.dev.tags = e.tags → u.dev.tiles = e.tiles →
      u.dev.counters = e.counters → u.mem = s.mem →
      (∀ hi lo, hi < 30 → u.dev.rf (Reg.secMboxCtrl m) hi lo = e.rf (Reg.secMboxCtrl m) hi lo) → P u) : Ends i s P := by
  refine ends_of_heard (x := fun mem d => d.mboxCtrlWrite mem m (mboxWord d m cmd)) (perm := fun _ => mayMailbox r m) hexec hheard hmay
    (d := e.putReg (Reg.secMboxCtrl m) (mboxWord s.dev m cmd)) (st := stOK) ?write
    (hP _ rfl rfl rfl rfl rfl (State.commit_mem s _ hstores hwipes) fun hi lo h => ?field)
  case write =>
    refine mboxCtrlWrite_ok ?_
    rcases he with ⟨rfl, he⟩ | ⟨rfl, he⟩
    · exact .inl ⟨fb_mboxWord _ _ (by decide), he⟩
    · exact .inr ⟨fb_mboxWord _ _ (by decide), he⟩
  case field => exact (Dev.rf_commit s _ _ _ _).trans (rf_putReg_secMboxCtrl e ⟨m, hm⟩ _ h)

theorem peekN_congr {d e : Dev} (hstores : d.stores = e.stores) (hwipes : d.wipes = e.wipes) (m : Mem) (a n : Nat) :
    peekN m d a n = peekN m e a n := by
  simp only [peekN_eq_map, peek_congr hstores hwipes]

theorem secMboxSend_refused (s : State) (r : Requester) (m : Fin 5) (hheard : Heard s r (Reg.secMboxCtrl m) (mboxWord s.dev m 1))
    (hmay : mayMailbox r m = true) (hbusy : s.dev.rf (Reg.secMboxCtrl m) 29 28 = 1) :
    Ends (.secMboxSend r m) s (fun u => u.dev.count Reg.devRegRefused = s.dev.count Reg.devRegRefused + 1 ∧ u.dev.sec = s.dev.sec ∧
      u.dev.regs = s.dev.regs ∧ u.mem = s.mem ∧ u.dev.hosts = s.dev.hosts) := by
  have hwrite : s.begin.mboxCtrlWrite s.mem m (mboxWord s.begin m 1) = (s.begin.bump Reg.devRegRefused, stACCESS) := by
    unfold Dev.mboxCtrlWrite
    rw [fb_mboxWord _ _ (by decide)]
    simp only [mboxSend_busy (d := s.begin) s.mem hbusy]
    rfl
  exact ends_of_heard (x := fun mem d => d.mboxCtrlWrite mem m (mboxWord d m 1)) (perm := fun _ => mayMailbox r m) rfl hheard hmay hwrite
    ⟨Dev.count_bump_same s.begin _, rfl, rfl, State.commit_mem s _ rfl rfl, rfl⟩

theorem secMboxSend_fetches (s : State) (r : Requester) (m : Fin 4) (hheard : Heard s r (Reg.secMboxCtrl m) (mboxWord s.dev m 1))
    (hmay : mayMailbox r m = true) (hidle : s.dev.rf (Reg.secMboxCtrl m) 29 28 ≠ 1) (hsome : s.dev.rf (Reg.secMboxLen m) 15 0 ≠ 0) :
    Ends (.secMboxSend r ⟨m.val, by omega⟩) s (fun u => u.dev.mailbox m = { want := s.dev.rf (Reg.secMboxLen m) 15 0 } ∧
      SameSpdm s.dev.sec u.dev.sec ∧
      (∃ k : HPacket, k.opc = opcHRD ∧ k.addr = s.dev.mboxReq m % 2 ^ 64 ∧ (k ∈ (u.dev.host m).tx ∨ ∃ t, (k, t) ∈ (u.dev.host m).waiting)) ∧
      u.mem = s.mem ∧ u.dev.tiles = s.dev.tiles ∧ u.dev.counters = s.dev.counters) := by
  obtain ⟨n, hn⟩ : ∃ n, n = s.dev.rf (Reg.secMboxLen m) 15 0 := ⟨_, rfl⟩
  have hsend := mboxSend_host (d := s.begin) s.mem hidle hn (hn ▸ hsome) m.isLt
  obtain ⟨g, h, htraffic⟩ : ∃ g h, (s.begin.mboxBusy m n).mboxFetch m = (s.begin.mboxBusy m n).withTraffic g h := Dev.hostRequest_traffic _ _ _ _
  obtain ⟨k, hopc, haddr, hk⟩ := mboxFetch_asks (s.begin.mboxBusy m n) m n (mailbox_mboxBusy _ _ _)
  obtain ⟨hcounters, htiles, -, -, hstores, hwipes, hsame⟩ := mboxBusy_fields s.begin m n
  have hbox := mailbox_mboxBusy s.begin m n
  rw [mboxReq_mboxBusy, mboxReq_begin] at haddr
  have haddr' : k.addr = s.dev.mboxReq m % 2 ^ 64 := haddr.trans (Nat.mod_eq_of_lt (mboxReq_lt s.dev m)).symm
  rw [htraffic] at hk hsend
  rw [← hn]
  obtain ⟨d, hd⟩ : ∃ d, d = s.begin.mboxBusy m n := ⟨_, rfl⟩
  rw [← hd] at hsend hk hcounters htiles hstores hwipes hsame hbox
  refine ends_of_mailbox (m := m) (cmd := 1) (by omega) rfl hheard hmay (.inl ⟨rfl, hsend⟩) hstores hwipes
    fun u usec uhosts _ utiles ucounters umem _ => ⟨?box, ?same, ⟨k, hopc, haddr', ?sent⟩, umem, utiles.trans htiles, ucounters.trans hcounters⟩
  case box => rw [Dev.mailbox, usec]; exact hbox
  case same => rw [usec]; exact hsame
  case sent => rw [Dev.host, uhosts]; exact hk

theorem secMboxSend_sram (s : State) (r : Requester) (bs : List Byte) (hheard : Heard s r (Reg.secMboxCtrl 4) (mboxWord s.dev 4 1))
    (hmay : mayMailbox r 4 = true) (hidle : s.dev.rf (Reg.secMboxCtrl 4) 29 28 ≠ 1)
    (hbs : bs = peekN s.mem s.begin (sramBase + s.dev.mboxReq 4) (s.dev.rf (Reg.secMboxLen 4) 15 0)) (hsome : bs ≠ [])
    (hin : s.dev.mboxReq 4 + bs.length ≤ 0x800000)
    (hty : (bs.headD 0).toNat = 5 ∨ (bs.headD 0).toNat = 6 ∨ ((bs.headD 0).toNat = 0x80 ∧ bs.length = 36)) :
    Ends (.secMboxSend r 4) s (fun u => u.dev.mailbox 4 = { want := bs.length, request := bs } ∧ SameSpdm s.dev.sec u.dev.sec ∧ u.mem = s.mem ∧
      u.dev.tiles = s.dev.tiles ∧ u.dev.counters = s.dev.counters ∧ u.dev.hosts = s.dev.hosts) := by
  have hlen : bs.length = s.begin.rf (Reg.secMboxLen 4) 15 0 := by rw [hbs, peekN_length]; rfl
  have hnonzero : bs.length ≠ 0 := fun h => hsome (List.eq_nil_of_length_eq_zero h)
  obtain ⟨hcounters, htiles, hhosts, -, hstores, hwipes, hsame⟩ := mboxBusy_fields s.begin 4 bs.length
  have hread : peekN s.mem (s.begin.mboxBusy 4 bs.length) (sramBase + s.begin.mboxReq 4) bs.length = bs := by
    rw [mboxReq_begin, peekN_congr (e := s.begin) hstores hwipes, hlen]
    exact hbs.symm
  have hsend := mboxSend_sram (d := s.begin) s.mem hidle hlen hnonzero (by rw [mboxReq_begin]; exact hin)
  rw [hread, mboxArrived_known (by rw [mailbox_setMailbox_same]) hty] at hsend
  obtain ⟨d, hd⟩ : ∃ d, d = s.begin.mboxBusy 4 bs.length := ⟨_, rfl⟩
  rw [← hd] at hsend hcounters htiles hhosts hstores hwipes hsame
  refine ends_of_mailbox (m := 4) (cmd := 1) (by decide) rfl hheard hmay (.inl ⟨rfl, hsend⟩) hstores hwipes
    fun u usec uhosts _ utiles ucounters umem _ => ⟨?box, ?same, umem, utiles.trans htiles, ucounters.trans hcounters, uhosts.trans hhosts⟩
  case box => rw [Dev.mailbox, usec]; exact mailbox_setMailbox_same _ 4 _
  case same => rw [usec]; exact hsame

/-! ABANDON (R445). -/

/-- The device with a mailbox's outstanding requests given up, where it is a host's. -/
def Dev.mboxGivenUp (d : Dev) (m : Nat) : Dev := if m < 4 then d.mboxQuit m else d

theorem mboxGivenUp_fields (d : Dev) (m : Nat) : (d.mboxGivenUp m).counters = d.counters ∧ (d.mboxGivenUp m).tiles = d.tiles ∧
    (d.mboxGivenUp m).stores = d.stores ∧ (d.mboxGivenUp m).wipes = d.wipes ∧ (d.mboxGivenUp m).sec = d.sec := by
  unfold Dev.mboxGivenUp
  split <;> exact ⟨rfl, rfl, rfl, rfl, rfl⟩

/-- No request of an abandoned mailbox stays out. -/
theorem reserved_of_mboxGivenUp {d : Dev} {m : Nat} (hm : m < 4) {t : Tag} (ht : t ∈ (d.mboxGivenUp m).tags) (hp : t.purpose = .mailbox)
    (ha : t.a = m) : t.reserved = true := by
  rw [Dev.mboxGivenUp, if_pos hm] at ht
  obtain ⟨t', -, rfl⟩ : ∃ t', t' ∈ d.tags ∧ (if t'.purpose == .mailbox && t'.a == m then { t' with reserved := true } else t') = t :=
    List.mem_map.mp ht
  split
  · rfl
  · next h =>
    rw [if_neg h] at hp ha
    exact absurd (by simp [hp, ha]) h

theorem mailboxError_fields (d : Dev) (m err : Nat) : (d.mailboxError m err).counters = d.counters ∧ (d.mailboxError m err).tiles = d.tiles ∧
    (d.mailboxError m err).stores = d.stores ∧ (d.mailboxError m err).wipes = d.wipes ∧ (d.mailboxError m err).tags = d.tags ∧
    SameSpdm d.sec (d.mailboxError m err).sec := ⟨rfl, rfl, rfl, rfl, rfl, rfl, rfl, rfl⟩

theorem mailbox_mailboxError (d : Dev) (m err : Nat) : (d.mailboxError m err).mailbox m = {} := by
  change (mfind (mdel d.sec.mailboxes m) m).getD {} = {}
  rw [mfind_mdel]
  simp

theorem secMboxAbandon_quits (s : State) (r : Requester) (m : Fin 5) (hheard : Heard s r (Reg.secMboxCtrl m) (mboxWord s.dev m 2))
    (hmay : mayMailbox r m = true) (hbusy : s.dev.rf (Reg.secMboxCtrl m) 29 28 = 1) (hwriting : (s.dev.mailbox m).writing = false) :
    Ends (.secMboxAbandon r m) s (fun u => u.dev.mailbox m = {} ∧ u.dev.rf (Reg.secMboxCtrl m) 29 28 = 3 ∧
      u.dev.rf (Reg.secMboxCtrl m) 21 14 = 4 ∧ SameSpdm s.dev.sec u.dev.sec ∧
      (m.val < 4 → ∀ t : Tag, t ∈ u.dev.tags → t.purpose = .mailbox → t.a = m.val → t.reserved = true) ∧ u.mem = s.mem ∧
      u.dev.tiles = s.dev.tiles ∧ u.dev.counters = s.dev.counters) := by
  have hwriting' : ¬ (s.begin.mailbox m).writing = true := by
    have : (s.begin.mailbox m).writing = false := hwriting
    simp [this]
  have habandon : s.begin.mboxAbandon m = (s.begin.mboxGivenUp m).mailboxError m 4 :=
    (if_neg (by simpa using hbusy)).trans (if_neg hwriting')
  obtain ⟨hcounters, htiles, hstores, hwipes, hsec⟩ := mboxGivenUp_fields s.begin m
  have hreserved := fun hm t => reserved_of_mboxGivenUp (d := s.begin) (m := m) (t := t) hm
  generalize s.begin.mboxGivenUp m = d at *
  obtain ⟨hcounters', htiles', hstores', hwipes', htags', hsame⟩ := mailboxError_fields d m 4
  obtain ⟨hstate, herr⟩ := mailboxError_ctrl d m 4
  have hbox := mailbox_mailboxError d m 4
  generalize d.mailboxError m 4 = e at *
  refine ends_of_mailbox (m := m) (cmd := 2) m.isLt rfl hheard hmay (.inr ⟨rfl, habandon⟩) (hstores'.trans hstores) (hwipes'.trans hwipes)
    fun u usec _ utags utiles ucounters umem urf => ⟨?box, (urf _ _ (by decide)).trans hstate, (urf _ _ (by decide)).trans herr, ?same,
      fun hm t ht => hreserved hm t ((utags.trans htags') ▸ ht), umem, utiles.trans (htiles'.trans htiles),
      ucounters.trans (hcounters'.trans hcounters)⟩
  case box => rw [Dev.mailbox, usec]; exact hbox
  case same => rw [usec, ← show d.sec = s.dev.sec from hsec]; exact hsame

theorem secMboxAbandon_waits (s : State) (r : Requester) (m : Fin 5) (hheard : Heard s r (Reg.secMboxCtrl m) (mboxWord s.dev m 2))
    (hmay : mayMailbox r m = true) (hbusy : s.dev.rf (Reg.secMboxCtrl m) 29 28 = 1) (hwriting : (s.dev.mailbox m).writing = true) :
    Ends (.secMboxAbandon r m) s (fun u => u.dev.mailbox m = { s.dev.mailbox m with abandoned := true } ∧ SameSpdm s.dev.sec u.dev.sec ∧
      u.mem = s.mem ∧ u.dev.tags = s.dev.tags ∧ u.dev.counters = s.dev.counters) := by
  have habandon : s.begin.mboxAbandon m = s.begin.setMailbox m { s.dev.mailbox m with abandoned := true } :=
    (if_neg (by simpa using hbusy)).trans (if_pos hwriting)
  refine ends_of_mailbox (m := m) (cmd := 2) m.isLt rfl hheard hmay (.inr ⟨rfl, habandon⟩) rfl rfl
    fun u usec _ utags _ ucounters umem _ => ⟨?box, ?same, umem, utags, ucounters⟩
  case box => rw [Dev.mailbox, usec]; exact mailbox_setMailbox_same s.begin m _
  case same => rw [usec]; exact ⟨rfl, rfl, rfl⟩

/-! Link keys (R243, R447). -/

/-- A port with a new key in its idle slot. -/
def FabPort.keyed (x : FabPort) (key : LinkKey) : FabPort :=
  if x.idleSlot then { x with keys1 := some key, rxCtr1 := 0 } else { x with keys0 := some key, rxCtr0 := 0 }

/-- A port that also tells its far end of the key, where it may. -/
def FabPort.keyTold (x : FabPort) (key : LinkKey) : FabPort :=
  if x.state.locked then
    { x.keyed key with linkQueue := (x.keyed key).linkQueue ++ [(BitVec.ofNat 4 6, bytesOf [if x.idleSlot then 1 else 0])] }
  else x.keyed key

theorem keyed_fields (x : FabPort) (key : LinkKey) : (x.keyed key).state = x.state ∧ (x.keyed key).linkQueue = x.linkQueue ∧
    (x.idleSlot = true → (x.keyed key).keys1 = some key ∧ (x.keyed key).keys0 = x.keys0) ∧
    (x.idleSlot = false → (x.keyed key).keys0 = some key ∧ (x.keyed key).keys1 = x.keys1) := by
  unfold FabPort.keyed
  cases x.idleSlot
  · exact ⟨rfl, rfl, (nomatch ·), fun _ => ⟨rfl, rfl⟩⟩
  · exact ⟨rfl, rfl, fun _ => ⟨rfl, rfl⟩, (nomatch ·)⟩

theorem keyTold_fields (x : FabPort) (key : LinkKey) : (x.keyTold key).state = x.state ∧ (x.keyTold key).keys0 = (x.keyed key).keys0 ∧
    (x.keyTold key).keys1 = (x.keyed key).keys1 ∧
    (x.state.locked = true → (x.keyTold key).linkQueue = x.linkQueue ++ [(6, bytesOf [if x.idleSlot then 1 else 0])]) := by
  obtain ⟨hstate, hqueue, -⟩ := keyed_fields x key
  unfold FabPort.keyTold
  cases x.state.locked
  · exact ⟨hstate, rfl, rfl, (nomatch ·)⟩
  · exact ⟨hstate, rfl, rfl, fun _ => congrArg (· ++ _) hqueue⟩

/-- The device with a key kept at a port, and KEY_READY for its slot sent where `told`. -/
def Dev.keyTaken (d : Dev) (p : Nat) (key : LinkKey) (slot told : Bool) : Dev :=
  if told then (d.setPort p ((d.port p).keyed key)).sendLink p 6 (bytesOf [if slot then 1 else 0]) else d.setPort p ((d.port p).keyed key)

theorem xLinkKeyRecord_kept {s : State} {k p : Fin 8} {rec : BitVec 768} {z : Session} (hrun : s.dev.sec.state = .running)
    (hlost : s.dev.lost 4 = false) (hz : s.dev.sec.sessions.find? (fun x => x.number == k.val) = some z) (hready : z.ready = true)
    (hmay : z.mayKey = true) (hp : fb rec 7 0 = p.val) (hrsv : fb rec 31 8 = 0) (hrsv' : fb rec 767 608 = 0)
    (hdie : s.dev.lost (portDie p) = false) {key : LinkKey} (hkey : key = { keyTx := BitVec.ofNat 256 (fb rec 287 32), saltTx := BitVec.ofNat 32 (fb rec 319 288), keyRx := BitVec.ofNat 256 (fb rec 575 320), saltRx := BitVec.ofNat 32 (fb rec 607 576) }) :
    ∃ e, xLinkKeyRecord k rec s.mem s.begin = e.bump Reg.secLinkKeys ∧ PortBecomes s.begin e p ((s.dev.port p).keyTold key) ∧
      e = s.begin.keyTaken p key (s.dev.port p).idleSlot (s.dev.port p).state.locked := by
  have hz' : s.begin.sec.sessions.find? (fun x => x.number == k.val) = some z := hz
  have hobsidian := obsidian_begin hrun hlost
  have hdie' : s.begin.lost (portDie p) = false := hdie
  have hp8 : decide (8 ≤ p.val) = false := by simp
  have hvalid : (!s.begin.obsidian || !(z.ready && z.mayKey) || decide (8 ≤ p.val) || fb rec 31 8 != 0 || fb rec 767 608 != 0 ||
      s.begin.lost (portDie p)) = false := by
    rw [hobsidian, hready, hmay, hp8, hrsv, hrsv', hdie']
    rfl
  have hbecomes : PortBecomes s.begin (s.begin.setPort p ((s.dev.port p).keyed key)) p ((s.dev.port p).keyed key) :=
    (portBecomes_refl s.begin p).setPort _
  refine ⟨s.begin.keyTaken p key (s.dev.port p).idleSlot (s.dev.port p).state.locked, ?_, ?_, rfl⟩
  · simp only [xLinkKeyRecord, hz', hp, hvalid, Bool.false_eq_true, if_false]
    rw [hkey]
    rfl
  · unfold FabPort.keyTold Dev.keyTaken
    split
    · exact sendLink_becomes hbecomes 6 _
    · exact hbecomes

theorem linkKeyRecord_kept (s : State) (k : Fin 8) (p : Fin 8) (rec : BitVec 768) (z : Session) (key : LinkKey)
    (hrun : s.dev.sec.state = .running) (hlost : s.dev.lost 4 = false)
    (hz : s.dev.sec.sessions.find? (fun x => x.number == k.val) = some z) (hready : z.ready = true) (hmay : z.mayKey = true)
    (hp : fb rec 7 0 = p.val) (hrsv : fb rec 31 8 = 0) (hrsv' : fb rec 767 608 = 0) (hdie : s.dev.lost (portDie p) = false)
    (hkey : key = { keyTx := BitVec.ofNat 256 (fb rec 287 32), saltTx := BitVec.ofNat 32 (fb rec 319 288), keyRx := BitVec.ofNat 256 (fb rec 575 320), saltRx := BitVec.ofNat 32 (fb rec 607 576) }) :
    Ends (.linkKeyRecord k rec) s (fun u => u.dev.count Reg.secLinkKeys = s.dev.count Reg.secLinkKeys + 1 ∧
      ((s.dev.port p).idleSlot = true → (u.dev.port p).keys1 = some key ∧ (u.dev.port p).keys0 = (s.dev.port p).keys0) ∧
      ((s.dev.port p).idleSlot = false → (u.dev.port p).keys0 = some key ∧ (u.dev.port p).keys1 = (s.dev.port p).keys1) ∧
      ((s.dev.port p).state.locked = true → (u.dev.port p).linkQueue = (s.dev.port p).linkQueue ++ [(6, bytesOf [if (s.dev.port p).idleSlot then 1 else 0])]) ∧
      (u.dev.port p).state = (s.dev.port p).state ∧ (∀ q : Nat, q ≠ p.val → u.dev.port q = s.dev.port q) ∧ u.dev.regs = s.dev.regs ∧ u.dev.sec = s.dev.sec ∧
      u.mem = s.mem ∧ u.dev.tiles = s.dev.tiles) := by
  obtain ⟨e, hx, he, hebig⟩ := xLinkKeyRecord_kept hrun hlost hz hready hmay hp hrsv hrsv' hdie hkey
  obtain ⟨hstate, hkeys0, hkeys1, hqueue⟩ := keyTold_fields (s.dev.port p) key
  obtain ⟨-, -, hslot1, hslot0⟩ := keyed_fields (s.dev.port p) key
  have hport : (s.commit (e.bump Reg.secLinkKeys)).dev.port p = (s.dev.port p).keyTold key := he.same
  refine ends_of_run (x := xLinkKeyRecord k rec) rfl hx ?_
  have hregs : e.regs = s.dev.regs ∧ e.tiles = s.dev.tiles ∧ e.stores = [] ∧ e.wipes = [] ∧ e.sec = s.dev.sec ∧ e.counters = s.dev.counters := by
    rw [hebig, Dev.keyTaken]
    split <;> exact ⟨rfl, rfl, rfl, rfl, rfl, rfl⟩
  obtain ⟨hregs, htiles, hstores, hwipes, hsec, hcounters⟩ := hregs
  rw [hport, hkeys0, hkeys1, hstate]
  refine ⟨?count, hslot1, hslot0, hqueue, rfl, fun q hq => he.other hq, hregs, hsec, State.commit_mem s _ hstores hwipes, htiles⟩
  case count =>
    rw [Dev.count_commit, Dev.count_bump_same, Dev.count, hcounters]
    rfl

/-- Settles O55: what QUOTE signs is computed, a mailbox request is taken, fetched, abandoned or refused by its STATE, and a key goes to the
idle slot. The contents of quotes and mailbox answers are the model's choice (log entries 80 and 81). -/
theorem quotesMailboxesAndLinkKeys : Obligations.QuotesMailboxesAndLinkKeys :=
  ⟨quote_identified, quote_barred, secMboxSend_refused, secMboxSend_fetches, secMboxSend_sram, secMboxAbandon_quits, secMboxAbandon_waits,
    linkKeyRecord_kept⟩

end Sys2Proof.Machine
end


section
/-! Host memory requests (R332 to R335): what is answered, what a write changes, and what the directory becomes. -/

namespace Sys2Proof.Machine

open Sys2Proof.Claims (Ends Quiet Holds SameMemBut NoBad Reaches HostAnswers HostMay)

/-! The traffic exchanged leaves the rest as it is. -/

@[simp] theorem withTraffic_reads (d : Dev) (g : List Tag) (l : Map HostPort) : (d.withTraffic g l).directory = d.directory ∧
    (d.withTraffic g l).snoops = d.snoops ∧ (d.withTraffic g l).waiting = d.waiting ∧ (d.withTraffic g l).badBursts = d.badBursts ∧
    (∀ t, (d.withTraffic g l).tile t = d.tile t) ∧ (∀ c, (d.withTraffic g l).ctx c = d.ctx c) ∧
    (∀ c i, (d.withTraffic g l).watched c i = d.watched c i) ∧ (d.withTraffic g l).pages = d.pages :=
  ⟨rfl, rfl, rfl, rfl, fun _ => rfl, fun _ => rfl, fun _ _ => rfl, rfl⟩

/-- A command that ends in a packet to a host whose port is up. -/
theorem ends_of_sendHost {i : Instr} {s : State} {x : Effect} {e : Dev} {p : Nat} {k a : HPacket} {opc st : Nat} {data : List Byte} {Q : State → Prop}
    (hexec : exec i s = s.run x) (hx : x s.mem s.begin = e.sendHost p a) (hup : (e.host p).up = true) (htx : (e.host p).tx = (s.dev.host p).tx)
    (hopc : a.opc = opc) (htag : a.tag = k.tag) (hst : a.status = st) (hctx : a.ctx = k.ctx) (hgen : a.gen = k.gen) (hdata : a.data = data)
    (hQ : ∀ l, Q (s.commit (e.withTraffic e.tags l))) : Ends i s (fun u => HostAnswers s u p k opc st data ∧ Q u) := by
  refine ends_of_run hexec hx ⟨⟨a, ?_, hopc, htag, hst, hctx, hgen, hdata⟩, ?_⟩
  · rw [Dev.host_commit, Dev.sendHost, if_pos hup, Dev.host_setHost_same, htx]
  · obtain ⟨l, hl⟩ := Dev.sendHost_traffic e p a
    rw [hl]
    exact hQ l

/-- A command that ends in the answer to a request of a host (Table 11.6). -/
theorem ends_of_hostAnswer {i : Instr} {s : State} {x : Effect} {e : Dev} {p : Nat} {k : HPacket} {opc st grant : Nat} {data : List Byte}
    {Q : State → Prop} (hexec : exec i s = s.run x) (hx : x s.mem s.begin = e.hostAnswer p k st grant data) (hup : (e.host p).up = true)
    (htx : (e.host p).tx = (s.dev.host p).tx) (hopc : (if isReadOpc k.opc then 0x0B else 0x0C) = opc) (hst : st < 16) (hgrant : grant < 4)
    (hlen : data.length < 512) (hQ : ∀ l, Q (s.commit (e.withTraffic e.tags l))) : Ends i s (fun u => HostAnswers s u p k opc st data ∧ Q u) := by
  obtain ⟨a, ha⟩ : ∃ a : HPacket, a = { hdr := hpHdr opc 2 k.tag st k.ctx k.gen data.length grant 0, data := data } := ⟨_, rfl⟩
  obtain ⟨hopc', -, htag, hstatus, hctx, hgen, -⟩ := hpHdr_read data (by rw [← hopc]; split <;> decide) (by decide) (fb_lt k.hdr 119 108) hst
    (fb_lt k.hdr 103 98) (fb_lt k.hdr 97 90) hlen hgrant (by decide) ha
  refine ends_of_sendHost hexec (hx.trans ?_) hup htx hopc' htag hstatus hctx hgen (by rw [ha]) hQ
  rw [Dev.hostAnswer, hopc, ha]

/-! The directory alone exchanged. -/

def Dev.withDirectory (d : Dev) (l : Map DirEntry) : Dev := { d with directory := l }

@[simp] theorem withDirectory_fields (d : Dev) (l : Map DirEntry) : (d.withDirectory l).directory = l ∧ (d.withDirectory l).regs = d.regs ∧
    (d.withDirectory l).counters = d.counters ∧ (d.withDirectory l).tiles = d.tiles ∧ (d.withDirectory l).tags = d.tags ∧
    (d.withDirectory l).hosts = d.hosts ∧ (d.withDirectory l).stores = d.stores ∧ (d.withDirectory l).wipes = d.wipes ∧
    (d.withDirectory l).snoops = d.snoops ∧ (d.withDirectory l).waiting = d.waiting ∧ (d.withDirectory l).ctxs = d.ctxs ∧
    (∀ p, (d.withDirectory l).host p = d.host p) ∧ (∀ c, (d.withDirectory l).ctx c = d.ctx c) :=
  ⟨rfl, rfl, rfl, rfl, rfl, rfl, rfl, rfl, rfl, rfl, rfl, fun _ => rfl, fun _ => rfl⟩

/-! A request that may be performed now (R332, R333). -/

theorem hostRequest_run {s : State} {p : Nat} {k : HPacket} {op : Nat} (hup : (s.dev.host p).up = true) (hopc : k.opc = op)
    (hbehind : s.dev.hostBehind p k = false) : xHostRequest op p k s.mem s.begin = s.begin.serveHost s.mem p k := by
  have hup' : (s.begin.host p).up = true := hup
  have hbehind' : s.begin.hostBehind p k = false := hbehind
  rw [xHostRequest, if_neg (by rw [hup', hbehind', hopc]; simp)]

/-- The device once a host's packet has left its receive buffer. -/
theorem takenHost_begin (s : State) (p : Nat) (k : HPacket) : ∃ e l, e = s.begin.takenHost p k ∧ e = s.begin.withTraffic s.dev.tags l ∧
    (e.host p).tx = (s.dev.host p).tx ∧ (e.host p).up = (s.dev.host p).up := by
  obtain ⟨l, hl⟩ := s.begin.takenHost_traffic p k
  obtain ⟨htx, hup⟩ := s.begin.takenHost_port p k
  exact ⟨_, l, rfl, hl, htx, hup⟩

/-- Bytes read where no unit is bad, the bursts counted. -/
theorem read_good {d : Dev} (hbursts : d.badBursts = []) (hwords : ∀ j, (d.tile j).badWords = []) (m : Mem) (a n : Nat) : ∃ c,
    (d.quarry a n).load m a n = (d.withCounters c, .inl (peekN m d a n)) := by
  obtain ⟨c, hc⟩ := quarry_eq d a n
  refine ⟨c, ?_⟩
  rw [hc, load_good (d := d.withCounters c) hbursts hwords]
  exact congrArg (fun bs => (d.withCounters c, Sum.inl bs)) (peekN_congr (d := d.withCounters c) (e := d) rfl rfl _ _ _)

/-! DRD and DWR. -/

theorem drd_reads (s : State) (p : Fin 4) (k : HPacket) (hmay : HostMay s p k 1) (hblock : inBlock (k.addr % 2 ^ 41) k.len = true)
    (hreach : Reaches s k.ctx (k.addr % 2 ^ 41) k.len) :
    Ends (.drd p k) s (fun u => HostAnswers s u p k 0x0B 0 (peekN s.mem s.begin (k.addr % 2 ^ 41) k.len) ∧ u.mem = s.mem ∧ u.dev.regs = s.dev.regs ∧
      u.dev.tiles = s.dev.tiles ∧ u.dev.directory = s.dev.directory) := by
  obtain ⟨hup, hopc, hbehind, hbound⟩ := hmay
  obtain ⟨-, -, -, -, -, -, -, -, hbursts, hwords⟩ := id hreach
  obtain ⟨e, l, he, htraffic, htx, hport⟩ := takenHost_begin s p k
  obtain ⟨c, hload⟩ := read_good (d := e) (by rw [htraffic]; exact hbursts) (fun j => by rw [htraffic]; exact hwords j) s.mem (k.addr % 2 ^ 41) k.len
  have hbound' : s.begin.boundTo k.ctx p = true := hbound
  have hserve : xHostRequest 1 p k s.mem s.begin = (e.withCounters c).hostAnswer p k stOK 0 (peekN s.mem e (k.addr % 2 ^ 41) k.len) := by
    rw [hostRequest_run hup hopc hbehind, Dev.serveHost, if_pos hopc]
    unfold Dev.hostRead
    dsimp only
    rw [if_neg (by simp [hbound']), if_neg (by rw [hblock]; decide), gate_go hreach]
    dsimp only
    rw [← he, hload]
  have hbytes : peekN s.mem e (k.addr % 2 ^ 41) k.len = peekN s.mem s.begin (k.addr % 2 ^ 41) k.len := by
    rw [htraffic]
    exact peekN_congr (d := s.begin.withTraffic s.dev.tags l) (e := s.begin) rfl rfl _ _ _
  have hlen : k.len ≤ 256 := by
    rw [inBlock, Bool.and_eq_true, Bool.and_eq_true, decide_eq_true_eq, decide_eq_true_eq] at hblock
    exact hblock.1.2
  rw [hbytes] at hserve
  refine ends_of_hostAnswer (x := xHostRequest 1 p k) rfl hserve (hport.trans hup) htx (by rw [hopc]; rfl) (by decide) (by decide)
    (by rw [peekN_length]; omega) fun l' => ?_
  rw [htraffic]
  exact ⟨State.commit_mem s _ rfl rfl, by simp, by rw [State.commit_tiles]; rfl, rfl⟩

theorem drd_closed (s : State) (p : Fin 4) (k : HPacket) (hup : (s.dev.host p).up = true) (hopc : k.opc = 1) (hbehind : s.dev.hostBehind p k = false)
    (hbound : s.dev.boundTo k.ctx p = false) :
    Ends (.drd p k) s (fun u => HostAnswers s u p k 0x0B 5 [] ∧ u.mem = s.mem ∧ u.dev.regs = s.dev.regs ∧ u.dev.tiles = s.dev.tiles ∧
      u.dev.counters = s.dev.counters) := by
  obtain ⟨e, l, he, htraffic, htx, hport⟩ := takenHost_begin s p k
  have hbound' : s.begin.boundTo k.ctx p = false := hbound
  have hserve : xHostRequest 1 p k s.mem s.begin = e.hostAnswer p k stCLOSED 0 [] := by
    rw [hostRequest_run hup hopc hbehind, Dev.serveHost, if_pos hopc]
    unfold Dev.hostRead
    dsimp only
    rw [if_pos (by simp [hbound']), he]
  refine ends_of_hostAnswer (x := xHostRequest 1 p k) rfl hserve (hport.trans hup) htx (by rw [hopc]; rfl) (by decide) (by decide) (by decide) fun l' => ?_
  rw [htraffic]
  exact ⟨State.commit_mem s _ rfl rfl, by simp, by simp, by simp⟩

/-- A command that ends in one write and the answer to a request of a host. -/
theorem ends_of_hostWrite {i : Instr} {s : State} {x : Effect} {e : Dev} {p : Nat} {k : HPacket} {opc st a : Nat} {bs : List Byte} {Q : State → Prop}
    (hexec : exec i s = s.run x) (hx : x s.mem s.begin = e.hostAnswer p k st 0 []) (hup : (e.host p).up = true)
    (htx : (e.host p).tx = (s.dev.host p).tx) (hopc : (if isReadOpc k.opc then 0x0B else 0x0C) = opc) (hst : st < 16)
    (hstores : e.stores = (s.begin.pokeN a bs).stores) (hwipes : e.wipes = []) (hQ : ∀ l, Q (s.commit (e.withTraffic e.tags l))) :
    Ends i s (fun u => HostAnswers s u p k opc st [] ∧ Holds u a bs ∧ SameMemBut s u a bs.length ∧ Q u) := by
  obtain ⟨t, hrun, hpending, hanswers, hmem, hq⟩ := ends_of_hostAnswer (Q := fun u => (Holds u a bs ∧ SameMemBut s u a bs.length) ∧ Q u) hexec hx hup htx
    hopc hst (by decide) (by decide) fun l => ⟨holds_of_pokeN s (d := e.withTraffic e.tags l) hstores hwipes, hQ l⟩
  exact ⟨t, hrun, hpending, hanswers, hmem.1, hmem.2, hq⟩

theorem dwr_writes (s : State) (p : Fin 4) (k : HPacket) (hmay : HostMay s p k 2) (hblock : inBlock (k.addr % 2 ^ 41) k.len = true)
    (hlen : k.data.length = k.len) (hreach : Reaches s k.ctx (k.addr % 2 ^ 41) k.len) :
    Ends (.dwr p k) s (fun u => HostAnswers s u p k 0x0C 0 [] ∧ Holds u (k.addr % 2 ^ 41) k.data ∧ SameMemBut s u (k.addr % 2 ^ 41) k.len ∧
      u.dev.regs = s.dev.regs ∧ u.dev.counters = s.dev.counters ∧ u.dev.directory = s.dev.directory) := by
  obtain ⟨hup, hopc, hbehind, hbound⟩ := hmay
  obtain ⟨-, -, -, -, -, -, -, -, hbursts, hwords⟩ := id hreach
  obtain ⟨e, l, he, htraffic, htx, hport⟩ := takenHost_begin s p k
  obtain ⟨w, hstore⟩ := write_reached (d := e) (by rw [htraffic]; exact hbursts) (fun j => by rw [htraffic]; exact hwords j) s.mem (k.addr % 2 ^ 41) k.data
  have hbound' : s.begin.boundTo k.ctx p = true := hbound
  have hserve : xHostRequest 2 p k s.mem s.begin = ((e.withTiles w).pokeN (k.addr % 2 ^ 41) k.data).hostAnswer p k 0 0 [] := by
    rw [hostRequest_run hup hopc hbehind, Dev.serveHost, if_neg (by rw [hopc]; decide), if_pos hopc]
    unfold Dev.hostWrite
    dsimp only
    rw [if_neg (by simp [hbound']), if_neg (by rw [hblock, hlen]; simp), gate_go hreach]
    dsimp only
    rw [← he, ← hlen, hstore]
    rfl
  have hpoked : ((e.withTiles w).pokeN (k.addr % 2 ^ 41) k.data).host p = e.host p := by
    rw [Dev.host, Dev.pokeN_hosts]
    rfl
  rw [← hlen]
  refine ends_of_hostWrite (x := xHostRequest 2 p k) rfl hserve (by rw [hpoked]; exact hport.trans hup) (by rw [hpoked]; exact htx) (by rw [hopc]; rfl)
    (by decide) (by rw [htraffic]; rfl) (by rw [htraffic]; simp) fun l' => ?_
  rw [htraffic]
  refine ⟨by simp, by simp, ?_⟩
  rw [State.commit_directory, (withTraffic_reads _ _ _).1, Dev.pokeN_directory]
  rfl

/-! Grants (R334). -/

theorem evictLine_empty {d : Dev} (h : d.directory = []) (l : Nat) : d.evictLine l = (d, []) := by
  have hnone : d.evictFor l = none := by simp [Dev.evictFor, h]
  rw [Dev.evictLine, hnone]

/-- The entry of a line that port `p` alone is granted. -/
def soleEntry (p : Nat) (exclusive : Bool) : DirEntry := { exclusive := exclusive, sharers := BitVec.ofNat 4 (2 ^ p), age := 1 }

theorem grantLine_empty {d : Dev} (h : d.directory = []) (p l : Nat) (exclusive : Bool) :
    d.grantLine p l exclusive = d.withDirectory [(l, soleEntry p exclusive)] := by
  unfold Dev.grantLine
  rw [h]
  cases exclusive <;> simp [mget, mfind, mset, soleEntry, Dev.withDirectory]

/-- DRD_S or DRD_E of a line no host holds. -/
theorem hostGrant_run {s : State} {p : Nat} {k : HPacket} {a : Nat} {exclusive : Bool} (hbound : s.dev.boundTo k.ctx p = true) (ha : a = k.addr % 2 ^ 41)
    (hcoherent : s.dev.coherent p = true) (hfence : (s.dev.host p).cohFenced = false) (halign : a % 64 = 0) (hlen : k.len = 64)
    (hrange : s.dev.inCohRange k.ctx a = true) (hreach : Reaches s k.ctx a 64) {e : Dev} {l : Map HostPort} (he : e = s.begin.takenHost p k)
    (htraffic : e = s.begin.withTraffic s.dev.tags l) : ∃ c, s.begin.hostGrant s.mem p k exclusive =
      ((e.withCounters c).withDirectory [(a / 64, soleEntry p exclusive)]).hostAnswer p k stOK (if exclusive then 2 else 1) (peekN s.mem s.begin a 64) := by
  obtain ⟨-, -, -, -, -, -, -, hempty, hbursts, hwords⟩ := id hreach
  have hdir : e.directory = [] := by rw [htraffic]; exact hempty
  obtain ⟨c, hload⟩ := read_good (d := e) (by rw [htraffic]; exact hbursts) (fun j => by rw [htraffic]; exact hwords j) s.mem a 64
  have hbytes : peekN s.mem e a 64 = peekN s.mem s.begin a 64 := by
    rw [htraffic]
    exact peekN_congr (d := s.begin.withTraffic s.dev.tags l) (e := s.begin) rfl rfl _ _ _
  have hbound' : s.begin.boundTo k.ctx p = true := hbound
  have hcoherent' : s.begin.coherent p = true := hcoherent
  have hfence' : (s.begin.host p).cohFenced = false := hfence
  have hrange' : s.begin.inCohRange k.ctx a = true := hrange
  refine ⟨c, ?_⟩
  unfold Dev.hostGrant
  dsimp only
  rw [← ha, if_neg (by simp [hbound']), if_neg (by rw [hcoherent', hfence']; decide), if_neg (by simp [halign, hlen]), if_neg (by simp [hrange']), gate_go hreach]
  dsimp only
  rw [← he, evictLine_empty hdir]
  dsimp only
  rw [if_neg (by simp), hload, hbytes]
  dsimp only
  rw [grantLine_empty (d := e.withCounters c) hdir]

/-- The reply to DRD_S (`3`) or DRD_E (`4`): the line, and an entry for the port alone. -/
theorem grant_ends {s : State} {i : Instr} {p : Fin 4} {k : HPacket} {a op : Nat} {exclusive : Bool} (hexec : exec i s = s.run (xHostRequest op p k))
    (hread : isReadOpc op = true) (hmay : HostMay s p k op) (hserve : s.begin.serveHost s.mem p k = s.begin.hostGrant s.mem p k exclusive)
    (ha : a = k.addr % 2 ^ 41)
    (hcoherent : s.dev.coherent p = true) (hfence : (s.dev.host p).cohFenced = false) (halign : a % 64 = 0) (hlen : k.len = 64)
    (hrange : s.dev.inCohRange k.ctx a = true) (hreach : Reaches s k.ctx a 64) :
    Ends i s (fun u => HostAnswers s u p k 0x0B 0 (peekN s.mem s.begin a 64) ∧
      (∃ e : DirEntry, u.dev.directory = [(a / 64, e)] ∧ e.exclusive = exclusive ∧ e.sharers = BitVec.ofNat 4 (2 ^ p.val)) ∧ u.mem = s.mem ∧
      u.dev.regs = s.dev.regs ∧ u.dev.tiles = s.dev.tiles) := by
  obtain ⟨hup, hopc, hbehind, hbound⟩ := hmay
  obtain ⟨e, l, he, htraffic, htx, hport⟩ := takenHost_begin s p k
  obtain ⟨c, hgrant⟩ := hostGrant_run (exclusive := exclusive) hbound ha hcoherent hfence halign hlen hrange hreach he htraffic
  have hrest : e.stores = [] ∧ e.wipes = [] ∧ e.regs = s.dev.regs ∧ e.tiles = s.dev.tiles := by rw [htraffic]; exact ⟨rfl, rfl, rfl, rfl⟩
  obtain ⟨hstores, hwipes, hregs, htiles⟩ := hrest
  have hlen' : (peekN s.mem s.begin a 64).length < 512 := by rw [peekN_length]; decide
  generalize peekN s.mem s.begin a 64 = bs at hgrant hlen' ⊢
  refine ends_of_hostAnswer hexec ((hostRequest_run hup hopc hbehind).trans (hserve.trans hgrant)) (hport.trans hup) htx (by rw [hopc, hread]; rfl)
    (by decide) (by cases exclusive <;> decide) hlen' fun l' => ?_
  exact ⟨⟨soleEntry p exclusive, by simp, rfl, rfl⟩, State.commit_mem s _ (by simp [hstores]) (by simp [hwipes]), by simp [hregs], by simp [htiles]⟩

theorem drdS_incoherent (s : State) (p : Fin 4) (k : HPacket) (hmay : HostMay s p k 3) (hcoherent : s.dev.coherent p = false) :
    Ends (.drdS p k) s (fun u => HostAnswers s u p k 0x0B 6 [] ∧ u.dev.directory = s.dev.directory ∧ u.mem = s.mem ∧ u.dev.regs = s.dev.regs ∧
      u.dev.counters = s.dev.counters) := by
  obtain ⟨hup, hopc, hbehind, hbound⟩ := hmay
  obtain ⟨e, l, he, htraffic, htx, hport⟩ := takenHost_begin s p k
  have hbound' : s.begin.boundTo k.ctx p = true := hbound
  have hcoherent' : s.begin.coherent p = false := hcoherent
  have hserve : xHostRequest 3 p k s.mem s.begin = e.hostAnswer p k stNOTCOH 0 [] := by
    rw [hostRequest_run hup hopc hbehind, Dev.serveHost, if_neg (by rw [hopc]; decide), if_neg (by rw [hopc]; decide), if_pos hopc]
    unfold Dev.hostGrant
    dsimp only
    rw [if_neg (by simp [hbound']), if_pos (by simp [hcoherent']), he]
  refine ends_of_hostAnswer (x := xHostRequest 3 p k) rfl hserve (hport.trans hup) htx (by rw [hopc]; rfl) (by decide) (by decide) (by decide) fun l' => ?_
  rw [htraffic]
  exact ⟨by simp, State.commit_mem s _ rfl rfl, by simp, by simp⟩

/-! DEVICT. -/

theorem soleSharer (p : Fin 4) : (BitVec.ofNat 4 (2 ^ p.val)).getLsbD p = true ∧ BitVec.ofNat 4 (2 ^ p.val) &&& ~~~(BitVec.ofNat 4 (2 ^ p.val)) = 0 := by
  revert p; decide

/-- The line of the directory's one entry, whose only sharer goes. -/
theorem dropSharer_sole {d : Dev} {p : Fin 4} {l : Nat} {e : DirEntry} (hdir : d.directory = [(l, e)]) (he : e.sharers = BitVec.ofNat 4 (2 ^ p.val)) :
    d.dropSharer p l = d.withDirectory [] := by
  have hfind : mfind d.directory l = some e := by rw [hdir]; simp [mfind]
  unfold Dev.dropSharer
  rw [hfind]
  dsimp only
  rw [he, if_pos (soleSharer p).2, hdir, mdel, if_pos rfl]
  rfl

/-- DEVICT of the directory's one line by its only sharer. -/
theorem hostEvict_run {s : State} {p : Fin 4} {k : HPacket} {a : Nat} {x : DirEntry} (hbound : s.dev.boundTo k.ctx p = true) (ha : a = k.addr % 2 ^ 41)
    (hcoherent : s.dev.coherent p = true) (hfence : (s.dev.host p).cohFenced = false) (hrange : s.dev.inCohRange k.ctx a = true) (halign : a % 64 = 0)
    (hlen : k.len = 0 ∨ (k.len = 64 ∧ k.data.length = 64)) (hdir : s.dev.directory = [(a / 64, x)]) (hsole : x.sharers = BitVec.ofNat 4 (2 ^ p.val))
    {e e' : Dev} {l : Map HostPort} (he : e = s.begin.takenHost p k) (htraffic : e = s.begin.withTraffic s.dev.tags l)
    (he' : (if k.len = 64 then (e.store s.mem a k.data).1 else e) = e') (hdir' : e'.directory = e.directory) :
    s.begin.hostEvict s.mem p k = (e'.withDirectory []).hostAnswer p k stOK 0 [] := by
  have hcoherent' : e.coherent p = true := by
    rw [Dev.coherent, Bool.and_eq_true] at hcoherent ⊢
    refine ⟨by rw [htraffic]; exact hcoherent.1, ?_⟩
    rw [he]
    unfold Dev.takenHost Dev.returnUnits
    dsimp only
    split
    · rw [Dev.host_setHost_same, Dev.host_setHost_same]; exact hcoherent.2
    · exact hcoherent.2
  have hfence' : (e.host p).cohFenced = false := by
    rw [he]
    unfold Dev.takenHost Dev.returnUnits
    dsimp only
    split
    · rw [Dev.host_setHost_same, Dev.host_setHost_same]; exact hfence
    · exact hfence
  have hbound' : e.boundTo k.ctx p = true := by rw [htraffic]; exact hbound
  have hrange' : e.inCohRange k.ctx a = true := by rw [htraffic]; exact hrange
  have hdirE : e.directory = [(a / 64, x)] := by rw [htraffic]; exact hdir
  have hmine : x.sharers.getLsbD p = true := by
    rw [hsole]
    exact (soleSharer p).1
  have hlen' : (k.len = 0 || (k.len = 64 && k.data.length = 64)) = true := by
    rcases hlen with h | ⟨h, h'⟩
    · simp [h]
    · simp [h, h']
  unfold Dev.hostEvict
  dsimp only
  rw [← he, ← ha, if_neg (by simp [hbound']), if_neg (by simp [hcoherent', hfence', hrange']), if_neg (by simp only [halign, hlen']; decide)]
  rw [hdirE, mfind, if_pos rfl]
  dsimp only
  simp only [hmine, if_true, Bool.true_and, decide_eq_true_eq]
  rw [he', dropSharer_sole (hdir'.trans hdirE) hsole]

theorem devict_clean (s : State) (p : Fin 4) (k : HPacket) (a : Nat) (x : DirEntry) (hmay : HostMay s p k 5) (ha : a = k.addr % 2 ^ 41)
    (hcoherent : s.dev.coherent p = true) (hfence : (s.dev.host p).cohFenced = false) (hrange : s.dev.inCohRange k.ctx a = true) (halign : a % 64 = 0)
    (hlen : k.len = 0) (hdir : s.dev.directory = [(a / 64, x)]) (hsole : x.sharers = BitVec.ofNat 4 (2 ^ p.val)) :
    Ends (.devict p k) s (fun u => HostAnswers s u p k 0x0C 0 [] ∧ u.dev.directory = [] ∧ u.mem = s.mem ∧ u.dev.regs = s.dev.regs ∧
      u.dev.counters = s.dev.counters) := by
  obtain ⟨hup, hopc, hbehind, hbound⟩ := hmay
  obtain ⟨e, l, he, htraffic, htx, hport⟩ := takenHost_begin s p k
  have hevict := hostEvict_run hbound ha hcoherent hfence hrange halign (.inl hlen) hdir hsole he htraffic (if_neg (by omega)) rfl
  have hserve : xHostRequest 5 p k s.mem s.begin = (e.withDirectory []).hostAnswer p k stOK 0 [] := by
    rw [hostRequest_run hup hopc hbehind, ← hevict, Dev.serveHost]
    simp [hopc]
  refine ends_of_hostAnswer (x := xHostRequest 5 p k) rfl hserve (hport.trans hup) htx (by rw [hopc]; rfl) (by decide) (by decide) (by decide) fun l' => ?_
  rw [htraffic]
  exact ⟨by simp, State.commit_mem s _ (by simp) (by simp), by simp, by simp⟩

theorem devict_dirty (s : State) (p : Fin 4) (k : HPacket) (a : Nat) (x : DirEntry) (hmay : HostMay s p k 5) (ha : a = k.addr % 2 ^ 41)
    (hcoherent : s.dev.coherent p = true) (hfence : (s.dev.host p).cohFenced = false) (hrange : s.dev.inCohRange k.ctx a = true) (halign : a % 64 = 0)
    (hlen : k.len = 64) (hdata : k.data.length = 64) (hgood : NoBad s) (hdir : s.dev.directory = [(a / 64, x)])
    (hsole : x.sharers = BitVec.ofNat 4 (2 ^ p.val)) :
    Ends (.devict p k) s (fun u => HostAnswers s u p k 0x0C 0 [] ∧ u.dev.directory = [] ∧ Holds u a k.data ∧ SameMemBut s u a 64 ∧
      u.dev.regs = s.dev.regs ∧ u.dev.counters = s.dev.counters) := by
  obtain ⟨hup, hopc, hbehind, hbound⟩ := hmay
  obtain ⟨hbursts, hwords⟩ := hgood
  obtain ⟨e, l, he, htraffic, htx, hport⟩ := takenHost_begin s p k
  have hstore := store_good (d := e) (by rw [htraffic]; exact hbursts) (fun j => by rw [htraffic]; exact hwords j) s.mem a k.data
  have hevict := hostEvict_run (e' := e.pokeN a k.data) hbound ha hcoherent hfence hrange halign (.inr ⟨hlen, hdata⟩) hdir hsole he htraffic
    (by rw [if_pos hlen, hstore]) (Dev.pokeN_directory _ _ _)
  have hserve : xHostRequest 5 p k s.mem s.begin = ((e.pokeN a k.data).withDirectory []).hostAnswer p k stOK 0 [] := by
    rw [hostRequest_run hup hopc hbehind, ← hevict, Dev.serveHost]
    simp [hopc]
  have hpoked : ((e.pokeN a k.data).withDirectory []).host p = e.host p := by
    rw [(withDirectory_fields _ _).2.2.2.2.2.2.2.2.2.2.2.1, Dev.host, Dev.pokeN_hosts]
    rfl
  have hstores : ((e.pokeN a k.data).withDirectory []).stores = (s.begin.pokeN a k.data).stores := by rw [htraffic]; rfl
  have hrest : e.wipes = [] ∧ e.regs = s.dev.regs ∧ e.counters = s.dev.counters := by rw [htraffic]; exact ⟨rfl, rfl, rfl⟩
  obtain ⟨hwipes, hregs, hcounters⟩ := hrest
  obtain ⟨t, hrun, hpending, hanswers, hholds, hsame, hempty, hregs, hcounters⟩ := ends_of_hostWrite (i := .devict p k) (x := xHostRequest 5 p k)
    (Q := fun u => u.dev.directory = [] ∧ u.dev.regs = s.dev.regs ∧ u.dev.counters = s.dev.counters) (opc := 0x0C) (a := a) (bs := k.data) rfl hserve
    (by rw [hpoked]; exact hport.trans hup) (by rw [hpoked]; exact htx) (by rw [hopc]; rfl) (by decide) hstores (by simp [hwipes])
    (fun l' => by simp [hregs, hcounters])
  exact ⟨t, hrun, hpending, hanswers, hempty, hholds, hdata ▸ hsame, hregs, hcounters⟩

end Sys2Proof.Machine
end


section
/-! Snoops (R334, R335): the answer of a host, snoops of the host, and a snoop that stays unanswered. -/

namespace Sys2Proof.Machine

open Sys2Proof.Claims (Ends Quiet Holds SameMemBut NoBad HostAnswers HostMay)

/-! Package requests and events change of a host port its queues of packets and requests alone. -/

/-- A host port but for the packets queued and the requests that wait. -/
def HostPort.face (x : HostPort) : HostPort := { x with tx := [], waiting := [] }

theorem face_setHost {d : Dev} {p : Nat} {x : HostPort} (h : x.face = (d.host p).face) (q : Nat) : ((d.setHost p x).host q).face = (d.host q).face := by
  rw [Dev.host_setHost]
  split
  case isTrue hq => rw [h, hq]
  case isFalse => rfl

theorem face_sendHost (d : Dev) (p : Nat) (k : HPacket) (q : Nat) : ((d.sendHost p k).host q).face = (d.host q).face := by
  unfold Dev.sendHost
  split
  · refine face_setHost ?_ q
    rfl
  · rfl

theorem face_hostRequest (d : Dev) (p : Nat) (k : HPacket) (t : Tag) (q : Nat) : ((d.hostRequest p k t).host q).face = (d.host q).face := by
  unfold Dev.hostRequest
  extract_lets x wait
  have hwait : (wait.host q).face = (d.host q).face := by
    refine face_setHost ?_ q
    rfl
  split
  · exact hwait
  · split
    · exact hwait
    · exact face_sendHost _ _ _ _

theorem face_hwr (d : Dev) (p c a : Nat) (bs : List Byte) (u : Purpose) (x y q : Nat) : ((d.hwr p c a bs u x y).host q).face = (d.host q).face :=
  face_hostRequest _ _ _ _ _

theorem hosts_setEventRing (d : Dev) (c : Nat) (r : EventRing) : (d.setEventRing c r).hosts = d.hosts := by
  unfold Dev.setEventRing
  split <;> rfl

theorem face_ringPut (d : Dev) (c : Nat) (e : Event) (q : Nat) : ((d.ringPut c e).host q).face = (d.host q).face := by
  have hring : ∀ r, ((d.setEventRing c r).host q).face = (d.host q).face := fun r => by rw [Dev.host, hosts_setEventRing]; rfl
  unfold Dev.ringPut
  extract_lets r at_ used n d'
  split
  · exact hring _
  · exact (face_hwr _ _ _ _ _ _ _ _ _).trans (hring _)

theorem face_event (d : Dev) (cs : List Nat) (code sev d0 d1 unit q : Nat) : ((d.event cs code sev d0 d1 unit).host q).face = (d.host q).face := by
  unfold Dev.event
  extract_lets bound pkg e d' c0
  have hrings : (d'.host q).face = (d.host q).face := Dev.each_invariant (P := fun x => (x.host q).face = (d.host q).face)
    (fun x c _ hx => (face_ringPut (x.emit (.event (some c) (e c))) c (e c) q).trans hx) rfl
  split
  · exact (face_ringPut (d'.emit (.event none (e c0))) 64 (e c0) q).trans hrings
  · exact hrings

/-! HSRSP: a snoop is answered with the line's data. -/

theorem teardownsGoOn_none {d : Dev} (h : ∀ c, c < 64 → (d.ctx c).state ≠ .teardown) : d.teardownsGoOn = d := by
  have hnone : (List.range 64).filter (fun c => (d.ctx c).state == .teardown) = [] :=
    List.filter_eq_nil_iff.mpr fun c hc => by simpa using h c (List.mem_range.mp hc)
  rw [Dev.teardownsGoOn, hnone]
  rfl

theorem release_none {d : Dev} (h : d.waiting = []) (m : Mem) (gone : Nat × Nat → Bool) : d.release m gone = d := by
  unfold Dev.release
  rw [h]
  exact congrArg (fun w => ({ d with waiting := w } : Dev)) h.symm

/-- The snoops alone exchanged. -/
def Dev.withSnoops (d : Dev) (l : List Snoop) : Dev := { d with snoops := l }

@[simp] theorem withSnoops_fields (d : Dev) (l : List Snoop) : (d.withSnoops l).snoops = l ∧ (d.withSnoops l).directory = d.directory ∧
    (d.withSnoops l).regs = d.regs ∧ (d.withSnoops l).counters = d.counters ∧ (d.withSnoops l).tiles = d.tiles ∧ (d.withSnoops l).stores = d.stores ∧
    (d.withSnoops l).wipes = d.wipes ∧ (d.withSnoops l).waiting = d.waiting ∧ (d.withSnoops l).ctxs = d.ctxs ∧
    (d.withSnoops l).badBursts = d.badBursts ∧ (∀ c, (d.withSnoops l).ctx c = d.ctx c) ∧ (∀ p, (d.withSnoops l).host p = d.host p) ∧
    (∀ t, (d.withSnoops l).tile t = d.tile t) :=
  ⟨rfl, rfl, rfl, rfl, rfl, rfl, rfl, rfl, rfl, rfl, fun _ => rfl, fun _ => rfl, fun _ => rfl⟩

/-- The one snoop unanswered is answered with data: the line is written, and the directory's one entry goes with its only sharer. -/
theorem snoopDone_sole {d : Dev} {m : Mem} {x : Snoop} {p : Fin 4} {e : DirEntry} {bs : List Byte} (hsnoops : d.snoops = [x]) (hport : x.port = p.val)
    (hinval : x.inval = true) (hlen : bs.length = 64) (hbursts : d.badBursts = []) (hwords : ∀ j, (d.tile j).badWords = [])
    (hwaiting : d.waiting = []) (hdir : d.directory = [(x.line, e)]) (hsole : e.sharers = BitVec.ofNat 4 (2 ^ p.val)) :
    d.snoopDone m x bs = ((d.withSnoops []).pokeN (64 * x.line) bs).withDirectory [] := by
  have hgone : d.snoops.filter (fun y => y != x) = [] := by simp [hsnoops]
  have hstore := store_good (d := d.withSnoops []) hbursts hwords m (64 * x.line) bs
  unfold Dev.snoopDone
  rw [hgone]
  dsimp only
  rw [if_pos hlen, if_pos hinval, Nat.mul_comm x.line 64, hport]
  have hpoked : ((d.withSnoops []).store m (64 * x.line) bs).1 = (d.withSnoops []).pokeN (64 * x.line) bs := by rw [hstore]
  have hdrop := dropSharer_sole (d := (d.withSnoops []).pokeN (64 * x.line) bs) (p := p) (l := x.line) (e := e)
    (by rw [Dev.pokeN_directory]; exact hdir) hsole
  change ((((d.withSnoops []).store m (64 * x.line) bs).1).dropSharer p x.line).release m _ = _
  rw [hpoked, hdrop]
  exact release_none (by simp [hwaiting]) _ _

theorem hsrsp_writes (s : State) (p : Fin 4) (k : HPacket) (x : Snoop) (e : DirEntry) (hup : (s.dev.host p).up = true) (hopc : k.opc = 0x0A)
    (hsnoops : s.dev.snoops = [x]) (hport : x.port = p.val) (htag : x.tag = k.tag) (hinval : x.inval = true) (hlen : k.data.length = 64)
    (hgood : NoBad s) (hwaiting : s.dev.waiting = []) (hdir : s.dev.directory = [(x.line, e)]) (hsole : e.sharers = BitVec.ofNat 4 (2 ^ p.val))
    (hnone : ∀ c, c < 64 → (s.dev.ctx c).state ≠ .teardown) :
    Ends (.hsrsp p k) s (fun u => u.dev.snoops = [] ∧ u.dev.directory = [] ∧ Holds u (64 * x.line) k.data ∧ SameMemBut s u (64 * x.line) 64 ∧
      u.dev.regs = s.dev.regs ∧ u.dev.counters = s.dev.counters ∧ u.dev.tiles = s.dev.tiles) := by
  obtain ⟨hbursts, hwords⟩ := hgood
  obtain ⟨d, l, hd, htraffic, -, -⟩ := takenHost_begin s p k
  have hfields : d.snoops = [x] ∧ d.badBursts = [] ∧ (∀ j, (d.tile j).badWords = []) ∧ d.waiting = [] ∧ d.directory = [(x.line, e)] ∧
      (∀ c, d.ctx c = s.dev.ctx c) ∧ d.regs = s.dev.regs ∧ d.counters = s.dev.counters ∧ d.tiles = s.dev.tiles ∧ d.stores = [] ∧ d.wipes = [] := by
    rw [htraffic]
    exact ⟨hsnoops, hbursts, hwords, hwaiting, hdir, fun _ => rfl, rfl, rfl, rfl, rfl, rfl⟩
  obtain ⟨hsnoops', hbursts', hwords', hwaiting', hdir', hctx, hregs, hcounters, htiles, hstores, hwipes⟩ := hfields
  have hdone := snoopDone_sole (m := s.mem) (bs := k.data) hsnoops' hport hinval hlen hbursts' hwords' hwaiting' hdir' hsole
  have hfound : d.snoops.find? (fun y => y.port == p.val && y.tag == k.tag) = some x := by simp [hsnoops', hport, htag]
  obtain ⟨v, hv⟩ : ∃ v, v = ((d.withSnoops []).pokeN (64 * x.line) k.data).withDirectory [] := ⟨_, rfl⟩
  have hquiet : v.teardownsGoOn = v := teardownsGoOn_none fun c hc => by
    rw [hv, (withDirectory_fields _ _).2.2.2.2.2.2.2.2.2.2.2.2, Dev.ctx, Dev.pokeN_ctxs]
    change (d.ctx c).state ≠ _
    rw [hctx]
    exact hnone c hc
  have hrun : xHsrsp p k s.mem s.begin = v := by
    have hup' : (s.begin.host p).up = true := hup
    rw [xHsrsp, if_neg (by rw [hup', hopc]; decide), ← hd]
    dsimp only
    rw [hfound]
    dsimp only
    rw [hdone, ← hv, hquiet]
  have hpoked : v.stores = (s.begin.pokeN (64 * x.line) k.data).stores ∧ v.wipes = [] := by
    rw [hv, htraffic]
    exact ⟨rfl, by simp⟩
  obtain ⟨hholds, hsame⟩ := holds_of_pokeN s hpoked.1 hpoked.2
  refine ends_of_run (x := xHsrsp p k) rfl hrun ⟨?_, ?_, hholds, hlen ▸ hsame, ?_, ?_, ?_⟩ <;> rw [hv]
  · rw [State.commit_snoops, (withDirectory_fields _ _).2.2.2.2.2.2.2.2.1, Dev.pokeN_snoops]; rfl
  · simp
  · simp [hregs]
  · simp [hcounters]
  · simp [htiles]

/-! HSNP_I and HSNP_S (R335). -/

theorem watched_setWatched_same (d : Dev) (c i : Nat) (w : Watched) : (d.setWatched c i w).watched c i = w := by
  rw [Dev.watched, Dev.setWatched, Dev.ctx_setCtx_same]
  exact mget_mset_same _ _ _ _

@[simp] theorem setWatched_fields (d : Dev) (c i : Nat) (w : Watched) : (d.setWatched c i w).regs = d.regs ∧ (d.setWatched c i w).counters = d.counters ∧
    (d.setWatched c i w).tiles = d.tiles ∧ (d.setWatched c i w).stores = d.stores ∧ (d.setWatched c i w).wipes = d.wipes ∧
    (d.setWatched c i w).tags = d.tags ∧ (d.setWatched c i w).hosts = d.hosts ∧ (∀ p, (d.setWatched c i w).host p = d.host p) :=
  ⟨rfl, rfl, rfl, rfl, rfl, rfl, rfl, fun _ => rfl⟩

/-- What a snoop of the host makes of a watched line. -/
def Watched.snooped (w : Watched) (inval : Bool) : Watched := if inval then { taking := w.taking } else { w with shared := true, dirty := false }

theorem hostSnoop_ends {i : Instr} {s : State} {p : Fin 4} {k : HPacket} {c l : Nat} {inval : Bool} (hexec : exec i s = s.run (xHostSnoop p k inval))
    (hup : (s.dev.host p).up = true) (hopc : k.opc = if inval then 0x15 else 0x16) (hlines : s.dev.linesAt p k.addr = [(c, l)]) :
    Ends i s (fun u => HostAnswers s u p k 0x17 0 (if (s.dev.watched c l).dirty then toLE 64 (s.dev.watched c l).data.toNat else []) ∧
      u.dev.watched c l = (s.dev.watched c l).snooped inval ∧ u.mem = s.mem ∧ u.dev.regs = s.dev.regs ∧ u.dev.counters = s.dev.counters) := by
  obtain ⟨d, g, hd, htraffic, htx, hport⟩ := takenHost_begin s p k
  have hlines' : d.linesAt p k.addr = [(c, l)] := by rw [htraffic]; exact hlines
  have hwatched : d.watched c l = s.dev.watched c l := by rw [htraffic]; rfl
  obtain ⟨bs, hbs⟩ : ∃ bs, bs = (if (s.dev.watched c l).dirty then toLE 64 (s.dev.watched c l).data.toNat else []) := ⟨_, rfl⟩
  have hlen : bs.length < 512 := by
    rw [hbs]
    split
    · rw [toLE_length]; decide
    · decide
  obtain ⟨a, ha⟩ : ∃ a : HPacket, a = { hdr := hpHdr 0x17 2 k.tag stOK k.ctx k.gen bs.length 0 k.addr, data := bs } := ⟨_, rfl⟩
  obtain ⟨haopc, -, hatag, hast, hactx, hagen, -⟩ := hpHdr_read bs (by decide) (by decide) (fb_lt k.hdr 119 108) (by decide) (fb_lt k.hdr 103 98)
    (fb_lt k.hdr 97 90) hlen (by decide) (fb_lt k.hdr 63 0) ha
  have hrun : xHostSnoop p k inval s.mem s.begin = (d.setWatched c l ((s.dev.watched c l).snooped inval)).sendHost p a := by
    have hup' : (s.begin.host p).up = true := hup
    unfold xHostSnoop
    rw [if_neg (by rw [hup', hopc]; simp), ← hd]
    dsimp only
    rw [hlines', ha, hbs]
    cases hdirty : (s.dev.watched c l).dirty <;> simp [hwatched, hdirty, Watched.snooped, Dev.each_cons, Dev.each_nil]
  rw [← hbs]
  have hrest : d.stores = [] ∧ d.wipes = [] ∧ d.regs = s.dev.regs ∧ d.counters = s.dev.counters := by rw [htraffic]; exact ⟨rfl, rfl, rfl, rfl⟩
  obtain ⟨hstores, hwipes, hregs, hcounters⟩ := hrest
  refine ends_of_sendHost hexec hrun (by simpa using hport.trans hup) (by simpa using htx) haopc hatag hast hactx hagen (by rw [ha]) fun l' => ?_
  exact ⟨watched_setWatched_same d _ _ _, State.commit_mem s _ (by simp [hstores]) (by simp [hwipes]), by simp [hregs], by simp [hcounters]⟩

/-! DSNP_TIMEOUT (R335). -/

theorem mfind_dropSharer_sharers {d : Dev} {p : Fin 4} {l : Nat} {e : DirEntry} (h : mfind (d.dropSharer p l).directory l = some e) :
    e.sharers.getLsbD p = false := by
  unfold Dev.dropSharer at h
  split at h
  case h_1 hnone => rw [hnone] at h; cases h
  case h_2 x hx =>
    dsimp only at h
    split at h
    · rw [mfind_mdel, if_pos rfl] at h
      cases h
    · rw [mfind_mset, if_pos rfl] at h
      cases h
      simp only [BitVec.getLsbD_and, BitVec.getLsbD_not, (soleSharer p).1, Bool.not_true, Bool.and_false]

theorem mfind_dropSharer_other {d : Dev} {p l j : Nat} (h : l ≠ j) : mfind (d.dropSharer p l).directory j = mfind d.directory j := by
  unfold Dev.dropSharer
  split
  · rfl
  · dsimp only
    split
    · rw [mfind_mdel, if_neg h]
    · rw [mfind_mset, if_neg h]

/-- No entry of the lines listed has the port among its sharers once it is dropped from each. -/
theorem dropSharers_clear (p : Fin 4) (ls : List Nat) (d : Dev) (l : Nat) (e : DirEntry) (h : mfind (d.each ls (fun d l => d.dropSharer p l)).directory l = some e)
    (hl : l ∈ ls ∨ ∀ x, mfind d.directory l = some x → x.sharers.getLsbD p = false) : e.sharers.getLsbD p = false := by
  induction ls generalizing d with
  | nil =>
    rcases hl with hl | hl
    · cases hl
    · exact hl e h
  | cons j ls ih =>
    rw [Dev.each_cons] at h
    refine ih _ h ?_
    by_cases hj : j = l
    · subst hj
      exact .inr fun x hx => mfind_dropSharer_sharers hx
    · rcases hl with hl | hl
      · exact .inl ((List.mem_cons.mp hl).resolve_left (Ne.symm hj))
      · refine .inr fun x hx => hl x ?_
        rwa [mfind_dropSharer_other hj] at hx

theorem mem_keys_of_mfind {α : Type} {m : Map α} {k : Nat} {x : α} (h : mfind m k = some x) : k ∈ m.map (·.1) := by
  induction m with
  | nil => cases h
  | cons y m ih =>
    rw [mfind] at h
    split at h
    case isTrue hk => rw [List.map_cons, hk]; exact List.mem_cons_self
    case isFalse => exact List.mem_cons_of_mem _ (ih h)

theorem dropSharer_eq (d : Dev) (p l : Nat) : ∃ g, d.dropSharer p l = d.withDirectory g := by
  unfold Dev.dropSharer
  split
  · exact ⟨d.directory, rfl⟩
  · exact ⟨_, rfl⟩

/-- A port is dropped from the directory, and its snoops with it; nothing waits for them. -/
theorem dropPort_idle {d : Dev} (hwaiting : d.waiting = []) (m : Mem) (p : Fin 4) : ∃ g, d.dropPort m p = (d.withDirectory g).withSnoops (d.snoops.filter (fun x => x.port != p.val)) ∧
    ∀ l e, mfind g l = some e → e.sharers.getLsbD p = false := by
  obtain ⟨g, hg⟩ : ∃ g, d.each (d.directory.map (·.1)) (fun d l => d.dropSharer p l) = d.withDirectory g :=
    Dev.each_invariant (P := fun x => ∃ g, x = d.withDirectory g)
      (fun x l _ ⟨g, hx⟩ => by obtain ⟨g', h'⟩ := dropSharer_eq x p l; exact ⟨g', by rw [h', hx]; rfl⟩) ⟨d.directory, rfl⟩
  refine ⟨g, ?_, fun l e he => ?_⟩
  · unfold Dev.dropPort
    rw [hg]
    exact release_none (d := (d.withDirectory g).withSnoops (d.snoops.filter (fun x => x.port != p.val))) hwaiting _ _
  · have hdir : (d.each (d.directory.map (·.1)) (fun d l => d.dropSharer p l)).directory = g := by rw [hg]; rfl
    rw [← hdir] at he
    by_cases hl : l ∈ d.directory.map (·.1)
    · exact dropSharers_clear p _ d l e he (.inl hl)
    · exact dropSharers_clear p _ d l e he (.inr fun x hx => absurd (mem_keys_of_mfind hx) hl)

theorem dsnpTimeout_drops (s : State) (p : Fin 4) (hany : s.dev.snoops.any (fun x => x.port == p.val) = true) (hwaiting : s.dev.waiting = [])
    (hnone : ∀ c, c < 64 → (s.dev.ctx c).state ≠ .teardown) :
    Ends (.dsnpTimeout p) s (fun u => (u.dev.host p).cohFenced = true ∧ (∀ x, x ∈ u.dev.snoops → x.port ≠ p.val) ∧
      (∀ l e, mfind u.dev.directory l = some e → e.sharers.getLsbD p.val = false) ∧ u.mem = s.mem ∧ u.dev.regs = s.dev.regs ∧
      u.dev.tiles = s.dev.tiles) := by
  obtain ⟨d, hd⟩ : ∃ d, d = (s.begin.setHost p { s.begin.host p with cohFenced := true }).event [] 0x0902 2 p 0 0 := ⟨_, rfl⟩
  have hface : (d.host p).face = ({ s.begin.host p with cohFenced := true } : HostPort).face := by
    rw [hd, face_event, Dev.host_setHost_same]
  have hfenced : (d.host p).cohFenced = true := congrArg (fun x : HostPort => x.cohFenced) hface
  have hctxs : d.ctxs = s.dev.ctxs := by rw [hd, ctxs_event_package]; rfl
  have hfields : d.waiting = [] ∧ d.stores = [] ∧ d.wipes = [] ∧ d.regs = s.dev.regs ∧ d.tiles = s.dev.tiles := by
    rw [hd]
    simp only [Dev.event_fields]
    exact ⟨hwaiting, rfl, rfl, rfl, rfl⟩
  obtain ⟨hwaiting', hstores, hwipes, hregs, htiles⟩ := hfields
  obtain ⟨g, hdrop, hclear⟩ := dropPort_idle hwaiting' s.mem p
  have hquiet : (d.dropPort s.mem p).teardownsGoOn = d.dropPort s.mem p := teardownsGoOn_none fun c hc => by
    rw [hdrop, (withSnoops_fields _ _).2.2.2.2.2.2.2.2.2.2.1, (withDirectory_fields _ _).2.2.2.2.2.2.2.2.2.2.2.2, Dev.ctx, hctxs]
    exact hnone c hc
  have hany' : s.begin.snoops.any (fun x => x.port == p.val) = true := hany
  have hrun : xDsnpTimeout p s.mem s.begin = (d.withDirectory g).withSnoops (d.snoops.filter (fun x => x.port != p.val)) := by
    rw [xDsnpTimeout, if_neg (by rw [hany']; decide)]
    dsimp only
    rw [← hd, hquiet, hdrop]
  refine ends_of_run (x := xDsnpTimeout p) rfl hrun ⟨?_, fun x hx => ?_, fun l e he => hclear l e ?_, State.commit_mem s _ (by simp [hstores]) (by simp [hwipes]),
    by simp [hregs], by simp [htiles]⟩
  · simpa using hfenced
  · rw [State.commit_snoops, (withSnoops_fields _ _).1, List.mem_filter] at hx
    simpa using hx.2
  · rw [State.commit_directory, (withSnoops_fields _ _).2.1, (withDirectory_fields _ _).1] at he
    exact he

/-- Settles O44. -/
theorem hostMemoryRequestsArePerformed : Obligations.HostMemoryRequestsArePerformed :=
  ⟨drd_reads, drd_closed, dwr_writes,
    fun s p k a hmay ha hcoherent hfence halign hlen hrange hreach => grant_ends (i := .drdS p k) (exclusive := false) rfl rfl hmay
      (by rw [Dev.serveHost, hmay.2.1]; rfl) ha hcoherent hfence halign hlen hrange hreach,
    fun s p k a hmay ha hcoherent hfence halign hlen hrange hreach => grant_ends (i := .drdE p k) (exclusive := true) rfl rfl hmay
      (by rw [Dev.serveHost, hmay.2.1]; rfl) ha hcoherent hfence halign hlen hrange hreach,
    drdS_incoherent,
    fun s p k a e hmay ha hcoherent hfence hrange halign hlen hdir hsole => devict_clean s p k a e hmay ha hcoherent hfence hrange halign hlen hdir hsole,
    fun s p k a e hmay ha hcoherent hfence hrange halign hlen hdata _ hgood hdir hsole =>
      devict_dirty s p k a e hmay ha hcoherent hfence hrange halign hlen hdata hgood hdir hsole,
    fun s p k x e hup hopc hsnoops hport htag hinval hlen _ hgood hwaiting hdir hsole hnone =>
      hsrsp_writes s p k x e hup hopc hsnoops hport htag hinval hlen hgood hwaiting hdir hsole hnone,
    fun s p k c l hup hopc hlines => hostSnoop_ends (i := .hsnpI p k) (inval := true) rfl hup hopc hlines,
    fun s p k c l hup hopc hlines => hostSnoop_ends (i := .hsnpS p k) (inval := false) rfl hup hopc hlines,
    dsnpTimeout_drops⟩

end Sys2Proof.Machine
end


section
/-! Watched lines and host responses (R335, R339, R340, R347). -/

namespace Sys2Proof.Machine

open Sys2Proof.Claims (Ends Quiet AsksLine)

/-! A line is asked for. -/

/-- A request on a port that is up and has a free TAG goes out under it. -/
theorem hostRequest_sends {d : Dev} {p n : Nat} {k : HPacket} (t : Tag) (hup : (d.host p).up = true) (hfree : d.freeHostTag p = some n) :
    d.hostRequest p k t = ({ d with tags := d.tags ++ [{ t with tag := n, port := p, sent := some { k with hdr := withTag k.hdr n } }] } : Dev).sendHost p
      { k with hdr := withTag k.hdr n } := by
  unfold Dev.hostRequest
  dsimp only
  rw [if_neg (by rw [hup]; decide), hfree]

/-- The tag of a header is the one put into it, and the length stays. -/
theorem withTag_tag (k : HPacket) {n : Nat} (hn : n < 4096) : (⟨withTag k.hdr n, k.data⟩ : HPacket).tag = n ∧
    (⟨withTag k.hdr n, k.data⟩ : HPacket).len = k.len := by
  have hword : (withTag k.hdr n).toNat = setFld k.hdr.toNat 119 108 n := by
    rw [withTag, BitVec.toNat_ofNat, Nat.mod_eq_of_lt (setFld_lt _ 119 108 n 128 k.hdr.isLt (by decide) (by decide))]
  refine ⟨?_, ?_⟩
  · have h : fb (withTag k.hdr n) 119 108 = n % 2 ^ (119 + 1 - 108) := fb_ofNat_setFld 128 k.hdr.toNat 119 108 n k.hdr.isLt (by decide) (by decide)
    exact h.trans (Nat.mod_eq_of_lt hn)
  · simp only [HPacket.len, fb, hword]
    exact fld_setFld_below _ _ _ _ _ _ (by decide)

/-- Line `l` of context `c` is taken on a port that is up and has a free TAG. -/
theorem takeLine_asks {i : Instr} {s : State} {x : Effect} {c l : Fin 64} {p opc n : Nat} (hexec : exec i s = s.run x)
    (hx : x s.mem s.begin = s.begin.takeLine c l) (hp : (s.dev.ctx c).port = p) (hopc : (if s.dev.coherent p then opcHRDE else opcHRD) = opc)
    (hup : (s.dev.host p).up = true) (hfree : s.dev.freeHostTag p = some n) (hn : n < 4096) : Ends i s (fun u => AsksLine s u c l p opc n) := by
  obtain ⟨d, hd⟩ : ∃ d, d = s.begin.setWatched c l { s.begin.watched c l with taking := true } := ⟨_, rfl⟩
  have hup' : (d.host p).up = true := by rw [hd]; exact hup
  have hfree' : d.freeHostTag p = some n := by rw [hd]; exact hfree
  have hcoherent : d.coherent p = s.dev.coherent p := by rw [hd]; rfl
  have hline : d.lineAddr c l = s.dev.lineAddr c l := by rw [hd]; rfl
  have hrest : d.tags = s.dev.tags ∧ d.stores = [] ∧ d.wipes = [] ∧ d.regs = s.dev.regs ∧ d.counters = s.dev.counters ∧ d.tiles = s.dev.tiles ∧
      (d.host p).tx = (s.dev.host p).tx ∧ d.watched c l = { s.begin.watched c l with taking := true } := by
    rw [hd]
    exact ⟨rfl, rfl, rfl, rfl, rfl, rfl, rfl, watched_setWatched_same _ _ _ _⟩
  obtain ⟨htags, hstores, hwipes, hregs, hcounters, htiles, htx, hwatched⟩ := hrest
  obtain ⟨k, hk⟩ : ∃ k : HPacket, k = { hdr := hpHdr opc 0 0 0 c (d.genOf c) 64 0 (s.dev.lineAddr c l), data := [] } := ⟨_, rfl⟩
  obtain ⟨t, ht⟩ : ∃ t : Tag, t = { tag := 0, port := p, ctx := c.val, gen := BitVec.ofNat 8 (d.genOf c), purpose := .runLine, a := c.val, b := l.val, c := 64,
                                    addr := BitVec.ofNat 64 (s.dev.lineAddr c l) } := ⟨_, rfl⟩
  obtain ⟨k', hk'⟩ : ∃ k' : HPacket, k' = { k with hdr := withTag k.hdr n } := ⟨_, rfl⟩
  obtain ⟨e, he⟩ : ∃ e, e = ({ d with tags := d.tags ++ [{ t with tag := n, port := p, sent := some k' }] } : Dev) := ⟨_, rfl⟩
  have hrun : x s.mem s.begin = e.sendHost p k' := by
    have hport : (s.begin.ctx c).port = p := hp
    rw [hx, Dev.takeLine]
    dsimp only
    rw [hport, ← hd, hcoherent, hline, hopc, he, hk', ht, hk]
    exact hostRequest_sends _ hup' hfree'
  have hsent : hpHdr opc 0 0 0 c (d.genOf c) 64 0 (s.dev.lineAddr c l) = hpHdr opc 0 0 0 c (d.genOf c) 64 0 (s.dev.lineAddr c l % 2 ^ 64) := by
    simp [hpHdr]
  have hbuilt : k = { hdr := hpHdr opc 0 0 0 c (d.genOf c) 64 0 (s.dev.lineAddr c l % 2 ^ 64), data := [] } := by rw [hk, hsent]
  obtain ⟨hkopc, -, -, -, -, -, hklen, -, hkaddr⟩ := hpHdr_read [] (by rw [← hopc]; split <;> decide) (by decide) (by decide) (by decide) c.isLt
    (Nat.mod_lt _ (by decide)) (by decide) (by decide) (Nat.mod_lt _ (by decide)) hbuilt
  obtain ⟨htag, hlen⟩ := withTag_tag k hn
  obtain ⟨hopc', haddr⟩ := withTag_reads k n
  rw [← hk'] at htag hlen hopc' haddr
  obtain ⟨g, hg⟩ := Dev.sendHost_traffic e p k'
  have hrest : e.tags = s.dev.tags ++ [{ t with tag := n, port := p, sent := some k' }] ∧ e.stores = [] ∧ e.wipes = [] ∧ e.regs = s.dev.regs ∧
      e.counters = s.dev.counters ∧ e.tiles = s.dev.tiles ∧ (e.host p).tx = (s.dev.host p).tx ∧ (e.host p).up = true ∧
      e.watched c l = { s.begin.watched c l with taking := true } := by
    rw [he]
    exact ⟨by rw [← htags], hstores, hwipes, hregs, hcounters, htiles, htx, hup', hwatched⟩
  obtain ⟨htags', hstores', hwipes', hregs', hcounters', htiles', htx', hport', hwatched'⟩ := hrest
  refine ends_of_run hexec hrun ⟨?_, ⟨{ t with tag := n, port := p, sent := some k' }, ?_, rfl, rfl, by rw [ht], by rw [ht], by rw [ht]⟩,
    ⟨k', ?_, hopc'.trans hkopc, htag, hlen.trans hklen, haddr.trans hkaddr⟩, ?_, ?_, ?_, ?_⟩
  case refine_3 => rw [Dev.host_commit, Dev.sendHost, if_pos hport', Dev.host_setHost_same, htx']
  all_goals rw [hg]
  · change (e.watched c l).taking = true
    rw [hwatched']
  · simpa using htags'
  · exact State.commit_mem s _ (by simp [hstores']) (by simp [hwipes'])
  · simp [hregs']
  · simp [hcounters']
  · simp [htiles']

theorem watchPoll_asks (s : State) (c l : Fin 64) (n : Nat) (hon : s.dev.runOn? c = true) (hl : l.val < s.dev.runLines c)
    (hcoherent : s.dev.coherent (s.dev.ctx c).port = false) (hup : (s.dev.host (s.dev.ctx c).port).up = true)
    (htaking : (s.dev.watched c l).taking = false) (hfree : s.dev.freeHostTag (s.dev.ctx c).port = some n) (hn : n < 4096) :
    Ends (.watchPoll c l) s (fun u => AsksLine s u c l (s.dev.ctx c).port 0x10 n) := by
  have htaken : (s.begin.runOn? c && decide (l.val < s.begin.runLines c) && !s.begin.coherent (s.begin.ctx c).port && (s.begin.host (s.begin.ctx c).port).up &&
      !(s.begin.watched c l).taking) = true := by
    change (s.dev.runOn? c && decide (l.val < s.dev.runLines c) && !s.dev.coherent (s.dev.ctx c).port && (s.dev.host (s.dev.ctx c).port).up &&
      !(s.dev.watched c l).taking) = true
    simp [hon, hl, hcoherent, hup, htaking]
  exact takeLine_asks (x := xWatchPoll c l) rfl (if_pos htaken) rfl (by rw [hcoherent]; rfl) hup hfree hn

theorem runLineReacquire_asks (s : State) (c l : Fin 64) (n : Nat) (hon : s.dev.runOn? c = true) (hl : l.val < s.dev.runLines c)
    (hcoherent : s.dev.coherent (s.dev.ctx c).port = true) (hup : (s.dev.host (s.dev.ctx c).port).up = true) (hheld : (s.dev.watched c l).held = false)
    (htaking : (s.dev.watched c l).taking = false) (hfree : s.dev.freeHostTag (s.dev.ctx c).port = some n) (hn : n < 4096) :
    Ends (.runLineReacquire c l) s (fun u => AsksLine s u c l (s.dev.ctx c).port 0x13 n) := by
  have htaken : (s.begin.runOn? c && decide (l.val < s.begin.runLines c) && s.begin.coherent (s.begin.ctx c).port &&
      (!(s.begin.watched c l).held || (s.begin.watched c l).shared) && !(s.begin.watched c l).taking) = true := by
    change (s.dev.runOn? c && decide (l.val < s.dev.runLines c) && s.dev.coherent (s.dev.ctx c).port &&
      (!(s.dev.watched c l).held || (s.dev.watched c l).shared) && !(s.dev.watched c l).taking) = true
    simp [hon, hl, hcoherent, hheld, htaking]
  exact takeLine_asks (x := xRunLineReacquire c l) rfl (if_pos htaken) rfl (by rw [hcoherent]; rfl) hup hfree hn

theorem runLineReacquire_held (s : State) (c l : Fin 64) (hheld : (s.dev.watched c l).held = true) (hshared : (s.dev.watched c l).shared = false) :
    Quiet (.runLineReacquire c l) s s.begin := by
  have hleft : ¬ (s.begin.runOn? c && decide (l.val < s.begin.runLines c) && s.begin.coherent (s.begin.ctx c).port &&
      (!(s.begin.watched c l).held || (s.begin.watched c l).shared) && !(s.begin.watched c l).taking) = true := by
    change ¬ (s.begin.runOn? c && decide (l.val < s.begin.runLines c) && s.begin.coherent (s.begin.ctx c).port &&
      (!(s.dev.watched c l).held || (s.dev.watched c l).shared) && !(s.begin.watched c l).taking) = true
    simp [hheld, hshared]
  exact quiet_of_run (x := xRunLineReacquire c l) rfl (if_neg hleft) rfl rfl

/-! A response is matched to its request (R347). -/

theorem hostRetry_traffic (d : Dev) (p : Nat) : ∃ g l, d.hostRetry p = d.withTraffic g l := by
  unfold Dev.hostRetry
  extract_lets w x e
  obtain ⟨g, l, h⟩ := Dev.each_traffic (f := fun d x => d.hostRequest p x.1 x.2) (fun d x => Dev.hostRequest_traffic d p x.1 x.2) w e
  exact ⟨g, l, h⟩

/-- No request waits: the port's list stays empty and no TAG is taken. -/
theorem hostRetry_idle {d : Dev} {p : Nat} (h : (d.host p).waiting = []) : ∃ l, d.hostRetry p = d.withTraffic d.tags l := by
  unfold Dev.hostRetry
  rw [h]
  exact ⟨_, rfl⟩

theorem cohReq_takenHost (d : Dev) (p q : Nat) (k : HPacket) : ((d.takenHost p k).host q).cohReq = (d.host q).cohReq := by
  unfold Dev.takenHost Dev.returnUnits
  dsimp only
  split
  · by_cases h : p = q
    · subst h
      simp
    · simp [Dev.host_setHost, h]
  · rfl

theorem coherent_takenHost (d : Dev) (p q : Nat) (k : HPacket) : (d.takenHost p k).coherent q = d.coherent q := by
  have hreq := cohReq_takenHost d p q k
  obtain ⟨l, hl⟩ := d.takenHost_traffic p k
  unfold Dev.coherent
  rw [hreq, hl]
  rfl

theorem waiting_takenHost (d : Dev) (p : Nat) (k : HPacket) : ((d.takenHost p k).host p).waiting = (d.host p).waiting := by
  unfold Dev.takenHost Dev.returnUnits
  dsimp only
  split
  · rw [Dev.host_setHost_same, Dev.host_setHost_same]
  · rfl

/-- The device once a host's response has left its receive buffer and its TAG is free. -/
def Dev.settled (d : Dev) (p : Nat) (k : HPacket) (t : Tag) : Dev := (d.takenHost p k).releaseTag t

theorem settled_begin (s : State) (p : Nat) (k : HPacket) (t : Tag) : ∃ e l, e = s.begin.settled p k t ∧
    e = s.begin.withTraffic (s.dev.tags.filter (fun x => !(x.port == t.port && x.tag == t.tag))) l ∧ (∀ q, e.coherent q = s.dev.coherent q) ∧
    (e.host p).waiting = (s.dev.host p).waiting := by
  obtain ⟨l, hl⟩ := s.begin.takenHost_traffic p k
  have htags : (s.begin.takenHost p k).tags = s.dev.tags := by rw [hl]; rfl
  refine ⟨_, l, rfl, ?_, fun q => coherent_takenHost s.begin p q k, waiting_takenHost s.begin p k⟩
  rw [Dev.settled, Dev.releaseTag, htags, hl]
  rfl

/-- No TAG of a settled request is left. -/
theorem not_mem_released {l : List Tag} {t x : Tag} (hx : x ∈ l.filter (fun x => !(x.port == t.port && x.tag == t.tag))) (hport : x.port = t.port) :
    x.tag ≠ t.tag := by
  have h := (List.mem_filter.mp hx).2
  intro htag
  simp [hport, htag] at h

/-- A response in order that is taken at once: its request is settled, and what waited on the port goes out. -/
theorem hostResponse_run {s : State} {p op : Nat} {k : HPacket} {t : Tag} (hup : (s.dev.host p).up = true) (hopc : k.opc = op)
    (hanswered : s.dev.hostAnswered p k = some t) (hreserved : t.reserved = false) (hgen : k.gen = s.dev.genOf t.ctx) (hstatus : k.status = 0)
    (hpurpose : t.purpose ≠ .copyRead) : xHostResponse op p k s.mem s.begin = ((s.begin.settled p k t).hostPerformed s.mem t k).hostRetry p := by
  have hup' : (s.begin.host p).up = true := hup
  have hanswered' : s.begin.hostAnswered p k = some t := hanswered
  have hgen' : k.gen = s.begin.genOf t.ctx := hgen
  have hnow : s.begin.copyWaits s.mem t k = (s.begin, false) := by
    rw [Dev.copyWaits, if_neg (by simpa using fun h => absurd h hpurpose)]
  unfold xHostResponse
  rw [if_neg (by rw [hopc, hup']; simp), hanswered']
  dsimp only
  rw [if_neg (by rw [hreserved]; decide), if_neg (by simpa using hgen'), hnow]
  dsimp only
  rw [if_neg (by decide), if_pos hstatus]
  rfl

theorem hostResponse_stale {s : State} {p op : Nat} {k : HPacket} {i : Instr} (hexec : exec i s = s.run (xHostResponse op p k))
    (hup : (s.dev.host p).up = true) (hopc : k.opc = op) (hanswered : s.dev.hostAnswered p k = none) :
    Quiet i s ((s.begin.takenHost p k).bump (Reg.ctxStaleDrop k.ctx)) := by
  have hup' : (s.begin.host p).up = true := hup
  have hanswered' : s.begin.hostAnswered p k = none := hanswered
  obtain ⟨l, hl⟩ := s.begin.takenHost_traffic p k
  refine quiet_of_run (x := xHostResponse op p k) hexec ?_ ?_ ?_
  · unfold xHostResponse
    rw [if_neg (by rw [hopc, hup']; simp), hanswered']
  · rw [hl]; rfl
  · rw [hl]; rfl

theorem hcmp_retired (s : State) (p : Fin 4) (k : HPacket) (t : Tag) (hup : (s.dev.host p).up = true) (hopc : k.opc = 0x19)
    (hanswered : s.dev.hostAnswered p k = some t) (hreserved : t.reserved = true) :
    Ends (.hcmp p k) s (fun u => u.dev.count (Reg.ctxStaleDrop k.ctx) = s.dev.count (Reg.ctxStaleDrop k.ctx) + 1 ∧ u.dev.ctxs = s.dev.ctxs ∧
      u.mem = s.mem ∧ u.dev.regs = s.dev.regs ∧ u.dev.tiles = s.dev.tiles) := by
  obtain ⟨e, l, he, htraffic, -, -⟩ := settled_begin s p k t
  obtain ⟨g, h, hretry⟩ := hostRetry_traffic (e.bump (Reg.ctxStaleDrop k.ctx)) p
  have hup' : (s.begin.host p).up = true := hup
  have hanswered' : s.begin.hostAnswered p k = some t := hanswered
  have hrun : xHostResponse 0x19 p k s.mem s.begin = (e.bump (Reg.ctxStaleDrop k.ctx)).withTraffic g h := by
    unfold xHostResponse
    rw [if_neg (by rw [hopc, hup']; simp), hanswered']
    dsimp only
    rw [if_pos hreserved, ← hretry, he]
    rfl
  have hrest : e.ctxs = s.dev.ctxs ∧ e.stores = [] ∧ e.wipes = [] ∧ e.regs = s.dev.regs ∧ e.tiles = s.dev.tiles ∧
      e.count (Reg.ctxStaleDrop k.ctx) = s.dev.count (Reg.ctxStaleDrop k.ctx) := by rw [htraffic]; exact ⟨rfl, rfl, rfl, rfl, rfl, rfl⟩
  obtain ⟨hctxs, hstores, hwipes, hregs, htiles, hcount⟩ := hrest
  refine ends_of_run (x := xHostResponse 0x19 p k) rfl hrun ⟨?_, hctxs, State.commit_mem s _ hstores hwipes, hregs, htiles⟩
  rw [Dev.count_commit, ← hcount]
  exact Dev.count_bump_same e _

theorem hcmp_eventValid (s : State) (p : Fin 4) (k : HPacket) (t : Tag) (hup : (s.dev.host p).up = true) (hopc : k.opc = 0x19)
    (hanswered : s.dev.hostAnswered p k = some t) (hreserved : t.reserved = false) (hgen : k.gen = s.dev.genOf t.ctx) (hstatus : k.status = 0)
    (hpurpose : t.purpose = .evtValid) (hwaiting : (s.dev.host p).waiting = []) :
    Ends (.hcmp p k) s (fun u => (∀ x, x ∈ u.dev.tags → x.port = t.port → x.tag ≠ t.tag) ∧ u.dev.ctxs = s.dev.ctxs ∧ u.mem = s.mem ∧
      u.dev.regs = s.dev.regs ∧ u.dev.counters = s.dev.counters ∧ u.dev.tiles = s.dev.tiles) := by
  obtain ⟨e, l, he, htraffic, -, hwaiting'⟩ := settled_begin s p k t
  obtain ⟨h, hretry⟩ := hostRetry_idle (hwaiting'.trans hwaiting)
  have hperformed : e.hostPerformed s.mem t k = e := by rw [Dev.hostPerformed, hpurpose]
  have hrun : xHostResponse 0x19 p k s.mem s.begin = e.withTraffic e.tags h := by
    rw [hostResponse_run hup hopc hanswered hreserved hgen hstatus (by rw [hpurpose]; decide), ← he, hperformed, hretry]
  have hrest : e.tags = s.dev.tags.filter (fun x => !(x.port == t.port && x.tag == t.tag)) ∧ e.ctxs = s.dev.ctxs ∧ e.stores = [] ∧ e.wipes = [] ∧
      e.regs = s.dev.regs ∧ e.counters = s.dev.counters ∧ e.tiles = s.dev.tiles := by rw [htraffic]; exact ⟨rfl, rfl, rfl, rfl, rfl, rfl, rfl⟩
  obtain ⟨htags, hctxs, hstores, hwipes, hregs, hcounters, htiles⟩ := hrest
  refine ends_of_run (x := xHostResponse 0x19 p k) rfl hrun ⟨fun x hx hport => not_mem_released (htags ▸ hx) hport, hctxs, State.commit_mem s _ hstores hwipes,
    hregs, hcounters, htiles⟩

end Sys2Proof.Machine
end


section
/-! What a watched line brings (R339, R340), and the end of a completion (R342). -/

namespace Sys2Proof.Machine

open Sys2Proof.Claims (Ends Quiet)

/-! A watched line of one context alone changes. -/

theorem ctx_setWatched (d : Dev) (c i : Nat) (w : Watched) : (d.setWatched c i w).ctx c = { d.ctx c with lines := mset (d.ctx c).lines i w } :=
  Dev.ctx_setCtx_same _ _ _

theorem watched_setWatched_other (d : Dev) (c : Nat) {i j : Nat} (w : Watched) (h : i ≠ j) : (d.setWatched c i w).watched c j = d.watched c j := by
  rw [Dev.watched, ctx_setWatched]
  exact mget_mset_other _ _ _ h

/-- What a context's records are accepted by: its state and its control words. -/
theorem runOn_setWatched (d : Dev) (c i : Nat) (w : Watched) : (d.setWatched c i w).runOn? c = d.runOn? c ∧
    (d.setWatched c i w).runLines c = d.runLines c := by
  refine ⟨?_, rfl⟩
  unfold Dev.runOn? Dev.bound
  rw [ctx_setWatched]
  rfl

/-- Records are accepted only while the line of the next one holds it. -/
theorem acceptFrom_other {d : Dev} {c l : Nat} (n : Nat) (hl : (d.ctx c).runNext.toNat % d.runLines c = l)
    (hother : fb (d.watched c l).data 31 0 ≠ (d.ctx c).runNext.toNat) : acceptFrom c n d = d := by
  cases n with
  | zero => rfl
  | succ n =>
    have hleft : d.acceptLine c l = (d, false) := by
      unfold Dev.acceptLine
      dsimp only
      rw [if_pos (by simp [hother])]
    unfold acceptFrom
    rw [hl]
    dsimp only
    split
    · rw [hleft]
      rfl
    · rfl

theorem acceptFrom_unheld {d : Dev} {c l : Nat} (n : Nat) (hl : (d.ctx c).runNext.toNat % d.runLines c = l) (hheld : (d.watched c l).held = false) :
    acceptFrom c n d = d := by
  cases n with
  | zero => rfl
  | succ n =>
    unfold acceptFrom
    rw [hl]
    dsimp only
    rw [if_neg (by simp [hheld])]

/-- The line of a port that is coherent comes with its next record unposted: it is held. -/
theorem hdata_holds (s : State) (p : Fin 4) (k : HPacket) (t : Tag) (l : Nat) (hup : (s.dev.host p).up = true) (hopc : k.opc = 0x18)
    (hanswered : s.dev.hostAnswered p k = some t) (hreserved : t.reserved = false) (hgen : k.gen = s.dev.genOf t.ctx) (hstatus : k.status = 0)
    (hpurpose : t.purpose = .runLine) (hb : t.b = l) (hport : (s.dev.ctx t.a).port = p.val) (hcoherent : s.dev.coherent p = true) (hgrant : k.grant = 2)
    (hon : s.dev.runOn? t.a = true) (hl : l < s.dev.runLines t.a) (hnext : (s.dev.ctx t.a).runNext.toNat % s.dev.runLines t.a = l)
    (hother : fb (BitVec.ofNat 512 (leOf k.data)) 31 0 ≠ (s.dev.ctx t.a).runNext.toNat) (hwaiting : (s.dev.host p).waiting = []) :
    Ends (.hdata p k) s (fun u => u.dev.watched t.a l = { held := true, data := BitVec.ofNat 512 (leOf k.data) } ∧
      (u.dev.ctx t.a).runs = (s.dev.ctx t.a).runs ∧ (u.dev.ctx t.a).runNext = (s.dev.ctx t.a).runNext ∧ (∀ x, x ∈ u.dev.tags → x.port = t.port → x.tag ≠ t.tag) ∧
      u.mem = s.mem ∧ u.dev.regs = s.dev.regs ∧ u.dev.counters = s.dev.counters ∧ u.dev.tiles = s.dev.tiles) := by
  obtain ⟨w, hw⟩ : ∃ w : Watched, w = { held := true, data := BitVec.ofNat 512 (leOf k.data) } := ⟨_, rfl⟩
  obtain ⟨e, g, he, htraffic, hcoh, hwaiting'⟩ := settled_begin s p k t
  have hrest : e.tags = s.dev.tags.filter (fun x => !(x.port == t.port && x.tag == t.tag)) ∧ e.ctx t.a = s.dev.ctx t.a ∧ e.stores = [] ∧ e.wipes = [] ∧
      e.regs = s.dev.regs ∧ e.counters = s.dev.counters ∧ e.tiles = s.dev.tiles ∧ e.runOn? t.a = true ∧ e.runLines t.a = s.dev.runLines t.a := by
    rw [htraffic]
    exact ⟨rfl, rfl, rfl, rfl, rfl, rfl, rfl, hon, rfl⟩
  obtain ⟨htags, hctx, hstores, hwipes, hregs, hcounters, htiles, hon', hlines⟩ := hrest
  obtain ⟨hon'', hlines'⟩ := runOn_setWatched e t.a l w
  have hwatched := watched_setWatched_same e t.a l w
  have hctx' := ctx_setWatched e t.a l w
  have haccept : (e.setWatched t.a l w).acceptRecords t.a = e.setWatched t.a l w := acceptFrom_other 64 (l := l)
    (by rw [hctx', hctx, hlines', hlines]; exact hnext) (by rw [hwatched, hctx', hctx, hw]; exact hother)
  have hperformed : e.hostPerformed s.mem t k = e.setWatched t.a l w := by
    rw [Dev.hostPerformed, hpurpose]
    dsimp only
    rw [hctx, hport, hcoh, hcoherent, if_neg (by simp [hgrant]), hb, Dev.lineData, ← hw, if_neg (by rw [hon'', hlines', hon', hlines]; simp; omega), if_pos rfl, haccept]
  obtain ⟨h, hretry⟩ := hostRetry_idle (d := e.setWatched t.a l w) (p := p) (hwaiting'.trans hwaiting)
  have hrun : xHostResponse 0x18 p k s.mem s.begin = (e.setWatched t.a l w).withTraffic (e.setWatched t.a l w).tags h := by
    rw [hostResponse_run hup hopc hanswered hreserved hgen hstatus (by rw [hpurpose]; decide), ← he, hperformed, hretry]
  refine ends_of_run (x := xHostResponse 0x18 p k) rfl hrun ⟨hwatched.trans hw, ?_, ?_, fun x hx hp => not_mem_released (htags ▸ hx) hp,
    State.commit_mem s _ hstores hwipes, hregs, hcounters, htiles⟩
  · change ((e.setWatched t.a l w).ctx t.a).runs = _
    rw [hctx', hctx]
  · change ((e.setWatched t.a l w).ctx t.a).runNext = _
    rw [hctx', hctx]

/-! A record is accepted (R340). -/

/-- What a record is judged by: the registers, the pages, and the tiles and the pipeline of its context. -/
theorem refuses_congr {d e : Dev} {c : Nat} (x : Run) (hregs : d.regs = e.regs) (hpages : d.pages = e.pages) (htiles : (d.ctx c).tileMask = (e.ctx c).tileMask)
    (hpipe : (d.ctx c).pipe = (e.ctx c).pipe) : d.refuses c x = e.refuses c x := by
  have hlocal : ∀ g, d.copyLocal g = e.copyLocal g := fun g => by
    unfold Dev.copyLocal Dev.isLocal Dev.node Dev.rf Dev.reg
    rw [hregs]
  have hreach : ∀ a n, d.mayReach c a n = e.mayReach c a n := fun a n => by
    unfold Dev.mayReach Dev.admits Dev.page
    rw [hpages, htiles]
  unfold Dev.refuses
  rw [htiles, hpipe, hlocal]
  simp only [hreach]

/-- Record `x`, which line `i` holds, is accepted: the line says so, and the record waits its turn. -/
def Dev.accepted (d : Dev) (c i : Nat) (x : Run) : Dev :=
  (d.setWatched c i { d.watched c i with data := BitVec.ofNat 512 (setFld (d.watched c i).data.toNat 63 56 1), dirty := true }).setCtx c
    { (d.setWatched c i { d.watched c i with data := BitVec.ofNat 512 (setFld (d.watched c i).data.toNat 63 56 1), dirty := true }).ctx c with
      runs := (d.ctx c).runs ++ [x], runNext := x.seq + 1 }

theorem ctx_accepted (d : Dev) (c i : Nat) (x : Run) : ((d.accepted c i x).ctx c).runs = (d.ctx c).runs ++ [x] ∧
    ((d.accepted c i x).ctx c).runNext = x.seq + 1 ∧
    (d.accepted c i x).watched c i = { d.watched c i with data := BitVec.ofNat 512 (setFld (d.watched c i).data.toNat 63 56 1), dirty := true } ∧
    (∀ j, i ≠ j → (d.accepted c i x).watched c j = d.watched c j) := by
  refine ⟨by rw [Dev.accepted, Dev.ctx_setCtx_same], by rw [Dev.accepted, Dev.ctx_setCtx_same], ?_, fun j hj => ?_⟩
  · rw [Dev.watched, Dev.accepted, Dev.ctx_setCtx_same]
    exact watched_setWatched_same d c i _
  · rw [Dev.watched, Dev.accepted, Dev.ctx_setCtx_same]
    exact watched_setWatched_other d c _ hj

@[simp] theorem accepted_fields (d : Dev) (c i : Nat) (x : Run) : (d.accepted c i x).regs = d.regs ∧ (d.accepted c i x).counters = d.counters ∧
    (d.accepted c i x).tiles = d.tiles ∧ (d.accepted c i x).stores = d.stores ∧ (d.accepted c i x).wipes = d.wipes ∧ (d.accepted c i x).hosts = d.hosts ∧
    (d.accepted c i x).runLines c = d.runLines c := ⟨rfl, rfl, rfl, rfl, rfl, rfl, rfl⟩

theorem acceptLine_accepts {d : Dev} {c i : Nat} {x : Run} (hx : x = { seq := (d.ctx c).runNext, record := (d.watched c i).data })
    (hheld : (d.watched c i).held = true) (hseq : fb x.record 31 0 = x.seq.toNat) (hposted : fb x.record 63 56 = 0) (hfree : d.cplFree c x.seq = true)
    (hgood : d.refuses c x = false) : d.acceptLine c i = (d.accepted c i x, true) := by
  have hrecord : x.record = (d.watched c i).data := by rw [hx]
  have hnext : x.seq = (d.ctx c).runNext := by rw [hx]
  rw [hrecord] at hseq hposted
  rw [hnext] at hseq hfree
  have hcheck : ¬ (fb (d.watched c i).data 31 0 != (d.ctx c).runNext.toNat || fb (d.watched c i).data 63 56 != 0 || !d.cplFree c (d.ctx c).runNext) = true := by
    simp [hseq, hposted, hfree]
  have hwritten : d.writeState c i 1 = d.setWatched c i { d.watched c i with data := BitVec.ofNat 512 (setFld (d.watched c i).data.toNat 63 56 1), dirty := true } := by
    unfold Dev.writeState
    dsimp only
    rw [if_pos hheld, hheld]
  unfold Dev.acceptLine
  dsimp only
  rw [if_neg hcheck, ← hx, hgood, if_neg (by decide), if_neg (by decide), hwritten, Dev.accepted, hnext, ctx_setWatched]

theorem acceptRecords_one {d : Dev} {c l : Nat} {x : Run} (hx : x = { seq := (d.ctx c).runNext, record := (d.watched c l).data })
    (hheld : (d.watched c l).held = true) (hon : d.runOn? c = true) (hl : (d.ctx c).runNext.toNat % d.runLines c = l)
    (hseq : fb x.record 31 0 = x.seq.toNat) (hposted : fb x.record 63 56 = 0) (hfree : d.cplFree c x.seq = true) (hgood : d.refuses c x = false)
    (hother : (x.seq + 1).toNat % d.runLines c ≠ l) (hnext : (d.watched c ((x.seq + 1).toNat % d.runLines c)).held = false) :
    d.acceptRecords c = d.accepted c l x := by
  obtain ⟨-, hrunNext, -, hwatched⟩ := ctx_accepted d c l x
  have hlines : (d.accepted c l x).runLines c = d.runLines c := rfl
  have hstop : acceptFrom c 63 (d.accepted c l x) = d.accepted c l x := acceptFrom_unheld 63 (by rw [hrunNext, hlines])
    (by rw [hwatched _ (Ne.symm hother)]; exact hnext)
  unfold Dev.acceptRecords
  rw [show (64 : Nat) = 63 + 1 from rfl]
  unfold acceptFrom
  rw [hl]
  dsimp only
  rw [if_pos (by rw [hon, hheld]; rfl), acceptLine_accepts hx hheld hseq hposted hfree hgood]
  dsimp only
  rw [if_pos rfl, hstop]

theorem hdata_accepts (s : State) (p : Fin 4) (k : HPacket) (t : Tag) (l : Nat) (x : Run) (hup : (s.dev.host p).up = true) (hopc : k.opc = 0x18)
    (hanswered : s.dev.hostAnswered p k = some t) (hreserved : t.reserved = false) (hgen : k.gen = s.dev.genOf t.ctx) (hstatus : k.status = 0)
    (hpurpose : t.purpose = .runLine) (hb : t.b = l) (hport : (s.dev.ctx t.a).port = p.val) (hcoherent : s.dev.coherent p = true) (hgrant : k.grant = 2)
    (hon : s.dev.runOn? t.a = true) (hl : l < s.dev.runLines t.a) (hline : (s.dev.ctx t.a).runNext.toNat % s.dev.runLines t.a = l)
    (hx : x = { seq := (s.dev.ctx t.a).runNext, record := BitVec.ofNat 512 (leOf k.data) }) (hseq : fb x.record 31 0 = x.seq.toNat)
    (hposted : fb x.record 63 56 = 0) (hfree : s.dev.cplFree t.a x.seq = true) (hgood : s.dev.refuses t.a x = false)
    (hother : (x.seq + 1).toNat % s.dev.runLines t.a ≠ l) (hnext : (s.dev.watched t.a ((x.seq + 1).toNat % s.dev.runLines t.a)).held = false) :
    Ends (.hdata p k) s (fun u => (u.dev.ctx t.a).runs = (s.dev.ctx t.a).runs ++ [x] ∧ (u.dev.ctx t.a).runNext = x.seq + 1 ∧
      fb (u.dev.watched t.a l).data 63 56 = 1 ∧ (u.dev.watched t.a l).dirty = true ∧ u.mem = s.mem ∧ u.dev.regs = s.dev.regs ∧
      u.dev.counters = s.dev.counters ∧ u.dev.tiles = s.dev.tiles) := by
  obtain ⟨w, hw⟩ : ∃ w : Watched, w = { held := true, data := BitVec.ofNat 512 (leOf k.data) } := ⟨_, rfl⟩
  obtain ⟨e, g, he, htraffic, hcoh, -⟩ := settled_begin s p k t
  have hrest : e.ctx t.a = s.dev.ctx t.a ∧ e.stores = [] ∧ e.wipes = [] ∧ e.regs = s.dev.regs ∧ e.counters = s.dev.counters ∧ e.tiles = s.dev.tiles ∧
      e.runOn? t.a = true ∧ e.runLines t.a = s.dev.runLines t.a ∧ e.pages = s.dev.pages ∧ (∀ j, e.watched t.a j = s.dev.watched t.a j) ∧
      e.cplFree t.a x.seq = true := by
    rw [htraffic]
    exact ⟨rfl, rfl, rfl, rfl, rfl, rfl, hon, rfl, rfl, fun _ => rfl, hfree⟩
  obtain ⟨hctx, hstores, hwipes, hregs, hcounters, htiles, hon', hlines, hpages, hwatch, hfree'⟩ := hrest
  obtain ⟨hon'', hlines'⟩ := runOn_setWatched e t.a l w
  have hwatched := watched_setWatched_same e t.a l w
  have hctx' := ctx_setWatched e t.a l w
  obtain ⟨d, hd⟩ : ∃ d, d = e.setWatched t.a l w := ⟨_, rfl⟩
  rw [← hd] at hon'' hlines' hwatched hctx'
  have hrefuse : d.refuses t.a x = false := by
    rw [refuses_congr (e := s.dev) x (by rw [hd]; exact hregs) (by rw [hd]; exact hpages) (by rw [hctx', hctx]) (by rw [hctx', hctx])]
    exact hgood
  have haccept : d.acceptRecords t.a = d.accepted t.a l x := acceptRecords_one (by rw [hx, hctx', hctx, hwatched, hw]) (by rw [hwatched, hw]) (hon''.trans hon')
    (by rw [hctx', hctx, hlines', hlines]; exact hline) hseq hposted (by rw [hd]; exact hfree') hrefuse (by rw [hlines', hlines]; exact hother)
    (by rw [hlines', hlines, hd, watched_setWatched_other _ _ _ (Ne.symm hother), hwatch]; exact hnext)
  have hperformed : e.hostPerformed s.mem t k = d.accepted t.a l x := by
    rw [Dev.hostPerformed, hpurpose]
    dsimp only
    rw [hctx, hport, hcoh, hcoherent, if_neg (by simp [hgrant]), hb, Dev.lineData, ← hw, ← hd, if_neg (by rw [hon'', hlines', hon', hlines]; simp; omega), if_pos rfl, haccept]
  obtain ⟨g', h, hretry⟩ := hostRetry_traffic (d.accepted t.a l x) p
  have hrun : xHostResponse 0x18 p k s.mem s.begin = (d.accepted t.a l x).withTraffic g' h := by
    rw [hostResponse_run hup hopc hanswered hreserved hgen hstatus (by rw [hpurpose]; decide), ← he, hperformed, hretry]
  obtain ⟨hruns, hrunNext, hline', -⟩ := ctx_accepted d t.a l x
  have hrest' : d.stores = [] ∧ d.wipes = [] ∧ d.regs = s.dev.regs ∧ d.counters = s.dev.counters ∧ d.tiles = s.dev.tiles := by
    rw [hd]
    exact ⟨hstores, hwipes, hregs, hcounters, htiles⟩
  obtain ⟨hstores', hwipes', hregs', hcounters', htiles'⟩ := hrest'
  have hruns' : ((d.accepted t.a l x).ctx t.a).runs = (s.dev.ctx t.a).runs ++ [x] := by rw [hruns, hctx', hctx]
  have hbound : (d.watched t.a l).data.toNat < 2 ^ 512 := (d.watched t.a l).data.isLt
  have hline'' : fb ((d.accepted t.a l x).watched t.a l).data 63 56 = 1 ∧ ((d.accepted t.a l x).watched t.a l).dirty = true := by
    rw [hline']
    exact ⟨fb_ofNat_setFld 512 _ 63 56 1 hbound (by decide) (by decide), rfl⟩
  have hfields := accepted_fields d t.a l x
  rw [hstores', hwipes', hregs', hcounters', htiles'] at hfields
  generalize d.accepted t.a l x = v at hrun hruns' hrunNext hline'' hfields
  obtain ⟨hregs, hcounters, htiles, hstores, hwipes, -⟩ := hfields
  exact ends_of_run (x := xHostResponse 0x18 p k) rfl hrun ⟨hruns', hrunNext, hline''.1, hline''.2, State.commit_mem s _ hstores hwipes, hregs, hcounters, htiles⟩

/-! The completion of a run whose bytes 8 to 63 are written (R342). -/

/-- Run `q` of context `c` has completed: it is gone, and its slot is valid. -/
def Dev.completed (d : Dev) (c : Nat) (q : BitVec 32) (l : List Run) : Dev :=
  (d.setCtx c { d.ctx c with runs := l.filter (fun y => y.seq != q), cplValid := q.toNat :: (d.ctx c).cplValid }).bump (Reg.ctxRunsDone c)

@[simp] theorem completed_fields (d : Dev) (c : Nat) (q : BitVec 32) (l : List Run) : (d.completed c q l).regs = d.regs ∧ (d.completed c q l).tiles = d.tiles ∧
    (d.completed c q l).stores = d.stores ∧ (d.completed c q l).wipes = d.wipes ∧
    (d.completed c q l).count (Reg.ctxRunsDone c) = d.count (Reg.ctxRunsDone c) + 1 ∧
    ((d.completed c q l).ctx c).runs = l.filter (fun y => y.seq != q) ∧ ((d.completed c q l).ctx c).cplValid = q.toNat :: (d.ctx c).cplValid := by
  refine ⟨rfl, rfl, rfl, rfl, Dev.count_bump_same _ _, ?_, ?_⟩
  · exact congrArg Ctx.runs (Dev.ctx_setCtx_same _ _ _)
  · exact congrArg Ctx.cplValid (Dev.ctx_setCtx_same _ _ _)

theorem cplFinish_completes {d : Dev} {c : Nat} {q : BitVec 32} {x : Run} (hfound : d.findRun c q = some x) (hstate : x.state = .ending)
    (hbody : x.bodyDone = true) (hevt : x.evt = false) (hnone : ∀ t ∈ d.tags, t.purpose ≠ .copyWrite) : ∃ g h,
    d.cplFinish c q = (d.completed c q (d.ctx c).runs).withTraffic g h := by
  have hdone : (x.state == .ending && x.bodyDone && !(d.tags.any (fun t => t.purpose == .copyWrite && t.ctx == c && t.b == q.toNat && !t.reserved))) = true := by
    have hany : d.tags.any (fun t => t.purpose == .copyWrite && t.ctx == c && t.b == q.toNat && !t.reserved) = false :=
      List.any_eq_false.mpr fun t ht => by simp [hnone t ht]
    rw [hstate, hbody, hany]
    rfl
  have hdropped : ((d.dropRun c q).setCtx c { (d.dropRun c q).ctx c with cplValid := q.toNat :: ((d.dropRun c q).ctx c).cplValid }).bump (Reg.ctxRunsDone c)
      = d.completed c q (d.ctx c).runs := by
    unfold Dev.completed Dev.dropRun
    rw [Dev.ctx_setCtx_same]
    exact congrArg (fun m => ({ d with ctxs := m } : Dev).bump (Reg.ctxRunsDone c)) (mset_mset _ _ _ _)
  unfold Dev.cplFinish
  rw [hfound]
  dsimp only
  rw [if_pos hdone, hdropped, if_neg (by simp [hevt])]
  exact Dev.hwr_traffic _ _ _ _ _ _ _ _

theorem hcmp_completes (s : State) (p : Fin 4) (k : HPacket) (t : Tag) (y : Run) (hup : (s.dev.host p).up = true) (hopc : k.opc = 0x19)
    (hanswered : s.dev.hostAnswered p k = some t) (hreserved : t.reserved = false) (hgen : k.gen = s.dev.genOf t.ctx) (hstatus : k.status = 0)
    (hpurpose : t.purpose = .cplBody) (hfound : s.dev.findRun t.a (BitVec.ofNat 32 t.b) = some y) (hstate : y.state = .ending) (hevt : y.evt = false)
    (hnone : s.dev.tags.any (fun z => z.purpose == .copyWrite) = false) :
    Ends (.hcmp p k) s (fun u => u.dev.findRun t.a (BitVec.ofNat 32 t.b) = none ∧ (t.b % 2 ^ 32) ∈ (u.dev.ctx t.a).cplValid ∧
      u.dev.count (Reg.ctxRunsDone t.a) = s.dev.count (Reg.ctxRunsDone t.a) + 1 ∧ u.mem = s.mem ∧ u.dev.regs = s.dev.regs ∧ u.dev.tiles = s.dev.tiles) := by
  obtain ⟨q, hq⟩ : ∃ q, q = BitVec.ofNat 32 t.b := ⟨_, rfl⟩
  obtain ⟨z, hz⟩ : ∃ z : Run, z = { y with bodyDone := true } := ⟨_, rfl⟩
  obtain ⟨e, g, he, htraffic, -, -⟩ := settled_begin s p k t
  have hrest : e.ctx t.a = s.dev.ctx t.a ∧ e.stores = [] ∧ e.wipes = [] ∧ e.regs = s.dev.regs ∧ e.tiles = s.dev.tiles ∧
      e.count (Reg.ctxRunsDone t.a) = s.dev.count (Reg.ctxRunsDone t.a) ∧
      e.tags = s.dev.tags.filter (fun x => !(x.port == t.port && x.tag == t.tag)) := by
    rw [htraffic]
    exact ⟨rfl, rfl, rfl, rfl, rfl, rfl, rfl⟩
  obtain ⟨hctx, hstores, hwipes, hregs, htiles, hcount, htags⟩ := hrest
  rw [← hq] at hfound ⊢
  have hfound' : runOf (e.ctx t.a).runs q = some y := by rw [hctx]; exact hfound
  obtain ⟨d, hd⟩ : ∃ d, d = e.withRuns t.a (replaced (e.ctx t.a).runs z) := ⟨_, rfl⟩
  have hput : d.findRun t.a q = some z := by
    rw [hd, Dev.findRun, runs_withRuns]
    exact runOf_replaced_same hfound' (by rw [hz]; exact seq_of_runOf (x := y) hfound')
  have hfields : d.stores = [] ∧ d.wipes = [] ∧ d.regs = s.dev.regs ∧ d.tiles = s.dev.tiles ∧ d.tags = e.tags ∧
      d.count (Reg.ctxRunsDone t.a) = s.dev.count (Reg.ctxRunsDone t.a) := by
    rw [hd]
    exact ⟨hstores, hwipes, hregs, htiles, rfl, hcount⟩
  obtain ⟨hstores', hwipes', hregs', htiles', htags', hcount'⟩ := hfields
  obtain ⟨g', h', hfinish⟩ := cplFinish_completes hput (by rw [hz]; exact hstate) (by rw [hz]) (by rw [hz]; exact hevt) (fun x hx => by
    have hx' : x ∈ s.dev.tags := by
      rw [htags', htags] at hx
      exact (List.mem_filter.mp hx).1
    simpa using List.any_eq_false.mp hnone x hx')
  have hperformed : e.hostPerformed s.mem t k = (d.completed t.a q (d.ctx t.a).runs).withTraffic g' h' := by
    rw [Dev.hostPerformed, hpurpose]
    dsimp only
    rw [← hq, Dev.cplBodyDone, Dev.findRun]
    have hfound'' : (e.ctx t.a).runs.find? (fun x => x.seq == q) = some y := hfound'
    rw [hfound'']
    dsimp only
    rw [putRun_eq, ← hz, ← hd, hfinish]
  obtain ⟨g'', h'', hretry⟩ := hostRetry_traffic ((d.completed t.a q (d.ctx t.a).runs).withTraffic g' h') p
  have hrun : xHostResponse 0x19 p k s.mem s.begin = (d.completed t.a q (d.ctx t.a).runs).withTraffic g'' h'' := by
    rw [hostResponse_run hup hopc hanswered hreserved hgen hstatus (by rw [hpurpose]; decide), ← he, hperformed, hretry]
    rfl
  have hcompleted := completed_fields d t.a q (d.ctx t.a).runs
  rw [hregs', htiles', hstores', hwipes', hcount'] at hcompleted
  generalize d.completed t.a q (d.ctx t.a).runs = v at hrun hcompleted
  obtain ⟨hregs, htiles, hstores, hwipes, hcount, hruns, hvalid⟩ := hcompleted
  refine ends_of_run (x := xHostResponse 0x19 p k) rfl hrun ⟨?_, ?_, hcount, State.commit_mem s _ hstores hwipes, hregs, htiles⟩
  · change (v.ctx t.a).runs.find? (fun x => x.seq == q) = none
    rw [hruns]
    exact List.find?_eq_none.mpr fun x hx => by simpa using (List.mem_filter.mp hx).2
  · change _ ∈ (v.ctx t.a).cplValid
    rw [hvalid, hq, BitVec.toNat_ofNat]
    exact List.mem_cons_self

/-- Settles O45. -/
theorem watchedLinesBringRunRecords : Obligations.WatchedLinesBringRunRecords :=
  ⟨watchPoll_asks, runLineReacquire_asks, runLineReacquire_held, hdata_holds, hdata_accepts,
    fun _ _ _ hup hopc hanswered => hostResponse_stale (i := .hdata _ _) rfl hup hopc hanswered,
    fun _ _ _ hup hopc hanswered => hostResponse_stale (i := .hcmp _ _) rfl hup hopc hanswered,
    hcmp_eventValid, hcmp_retired, hcmp_completes⟩

end Sys2Proof.Machine
end

section
/-! What a running command leaves as it was while it does no more than record events, send packets and requests, snoop hosts, take free
values and write memory in a region: the layer under the proofs of commands that end something. -/

namespace Sys2Proof.Machine

open Sys2Proof.Claims (Ends Quiet Holds SameMemBut NoBad)

/-- A device without what snoops, packets and free values touch, and without its stores. -/
def Dev.sansPackets (d : Dev) : Dev :=
  { d with snoops := [], free := 0, localOut := [], inbox := [], repeats := [], outGroups := [], nextTag := 0, nextBulk := 0, stores := [] }

/-- A device without what traffic of all kinds touches. -/
def Dev.sansTraffic (d : Dev) : Dev := d.sansEvents.sansPackets

/-- A counter that counts no event withheld, no snoop and no access refused. -/
def Steady (k : Nat) : Prop :=
  Reg.devEvtLost ≠ k ∧ (∀ c, c ≤ 64 → Reg.ctxEvtLost c ≠ k) ∧ (∀ p, Reg.devHpSnoops p ≠ k) ∧ ∀ i, Reg.memAccessViol i ≠ k

/-- From `d` to `e` nothing has happened but traffic and events, and memory is written in `r` alone. -/
structure Calm (r : Nat → Prop) (d e : Dev) : Prop where
  part : e.sansTraffic = d.sansTraffic
  ctx : ∀ c, (e.ctx c).sansEvents = (d.ctx c).sansEvents
  face : ∀ p, (e.host p).face = (d.host p).face
  count : ∀ k, Steady k → e.count k = d.count k
  stores : (∀ a, ¬ r a) → e.stores = d.stores
  mem : ∀ m a, ¬ r a → peek m e a = peek m d a

variable {r : Nat → Prop} {d e f : Dev}

theorem Calm.refl (r : Nat → Prop) (d : Dev) : Calm r d d := ⟨rfl, fun _ => rfl, fun _ => rfl, fun _ _ => rfl, fun _ => rfl, fun _ _ _ => rfl⟩

theorem Calm.trans (h : Calm r d e) (h' : Calm r e f) : Calm r d f :=
  ⟨h'.part.trans h.part, fun c => (h'.ctx c).trans (h.ctx c), fun p => (h'.face p).trans (h.face p), fun k hk => (h'.count k hk).trans (h.count k hk),
    fun hr => (h'.stores hr).trans (h.stores hr), fun m a ha => (h'.mem m a ha).trans (h.mem m a ha)⟩

theorem Calm.each {α : Type} {l : List α} {g : Dev → α → Dev} (h : ∀ d, ∀ x ∈ l, Calm r d (g d x)) (d : Dev) : Calm r d (d.each l g) :=
  Dev.each_invariant (P := Calm r d) (fun e x hx he => he.trans (h e x hx)) (Calm.refl r d)

/-- What keeps stores and wipes keeps what memory reads. -/
theorem Calm.of_stores (part : e.sansTraffic = d.sansTraffic) (ctx : ∀ c, (e.ctx c).sansEvents = (d.ctx c).sansEvents)
    (face : ∀ p, (e.host p).face = (d.host p).face) (count : ∀ k, Steady k → e.count k = d.count k) (stores : e.stores = d.stores) : Calm r d e :=
  ⟨part, ctx, face, count, fun _ => stores, fun m a _ => peek_congr stores (congrArg (a₁ := e.sansTraffic) (a₂ := d.sansTraffic) Dev.wipes part) m a⟩

theorem Calm.fields (h : Calm r d e) : e.regs = d.regs ∧ e.tiles = d.tiles ∧ e.badBursts = d.badBursts ∧ e.openings = d.openings ∧ e.wipes = d.wipes ∧
    e.lode = d.lode ∧ e.cairns = d.cairns ∧ e.directory = d.directory ∧ e.ras = d.ras ∧ e.dies = d.dies ∧ e.pwr = d.pwr ∧ e.pages = d.pages := by
  have hpart := h.part
  simp only [Dev.sansTraffic, Dev.sansPackets, Dev.sansEvents, Dev.mk.injEq] at hpart
  simp only [hpart, and_self]

theorem Calm.tile (h : Calm r d e) (t : Nat) : e.tile t = d.tile t := by
  unfold Dev.tile
  rw [h.fields.2.1]

/-! Updates that calm steps do not see. -/

/-- The openings alone exchanged. -/
def Dev.withOpenings (d : Dev) (l : List Opening) : Dev := { d with openings := l }

@[simp] theorem withOpenings_fields (d : Dev) (l : List Opening) : (d.withOpenings l).openings = l ∧ (d.withOpenings l).regs = d.regs ∧
    (d.withOpenings l).counters = d.counters ∧ (d.withOpenings l).tiles = d.tiles ∧ (d.withOpenings l).ctxs = d.ctxs ∧
    (d.withOpenings l).stores = d.stores ∧ (d.withOpenings l).wipes = d.wipes ∧ (d.withOpenings l).badBursts = d.badBursts ∧
    (d.withOpenings l).lode = d.lode ∧ (d.withOpenings l).repeats = d.repeats ∧ (d.withOpenings l).localOut = d.localOut ∧
    (∀ c, (d.withOpenings l).ctx c = d.ctx c) ∧ (∀ t, (d.withOpenings l).tile t = d.tile t) ∧ (∀ k, (d.withOpenings l).count k = d.count k) ∧
    (d.withOpenings l).now = d.now ∧ (d.withOpenings l).node = d.node :=
  ⟨rfl, rfl, rfl, rfl, rfl, rfl, rfl, rfl, rfl, rfl, rfl, fun _ => rfl, fun _ => rfl, fun _ => rfl, rfl, rfl⟩

theorem Calm.withOpenings (h : Calm r d e) (l : List Opening) : Calm r (d.withOpenings l) (e.withOpenings l) where
  part := congrArg (fun x => { x with openings := l }) h.part
  ctx := h.ctx
  face := h.face
  count := h.count
  stores := h.stores
  mem := h.mem

theorem Calm.bumpN (h : Calm r d e) (k n : Nat) : Calm r (d.bumpN k n) (e.bumpN k n) where
  part := h.part
  ctx := h.ctx
  face := h.face
  count j hj := by rw [Dev.count_bumpN, Dev.count_bumpN, h.count j hj]; split <;> simp_all [h.count]
  stores := h.stores
  mem := h.mem

theorem Calm.setCtx (h : Calm r d e) (c : Nat) {x y : Ctx} (hxy : y.sansEvents = x.sansEvents) : Calm r (d.setCtx c x) (e.setCtx c y) where
  part := h.part
  ctx j := by rw [Dev.ctx_setCtx, Dev.ctx_setCtx]; split <;> [exact hxy; exact h.ctx j]
  face := h.face
  count := h.count
  stores := h.stores
  mem := h.mem

/-! Traffic and events. -/

theorem calm_withTraffic {g : List Tag} {l : Map HostPort} (hface : ∀ p, ((d.withTraffic g l).host p).face = (d.host p).face) :
    Calm r d (d.withTraffic g l) := .of_stores rfl (fun _ => rfl) hface (fun _ _ => rfl) rfl

theorem calm_sendHost (r : Nat → Prop) (d : Dev) (p : Nat) (k : HPacket) : Calm r d (d.sendHost p k) := by
  obtain ⟨l, h⟩ := d.sendHost_traffic p k
  rw [h]
  exact calm_withTraffic fun q => h ▸ face_sendHost d p k q

theorem calm_hostRequest (r : Nat → Prop) (d : Dev) (p : Nat) (k : HPacket) (t : Tag) : Calm r d (d.hostRequest p k t) := by
  obtain ⟨g, l, h⟩ := d.hostRequest_traffic p k t
  rw [h]
  exact calm_withTraffic fun q => h ▸ face_hostRequest d p k t q

theorem calm_hwr (r : Nat → Prop) (d : Dev) (p c a : Nat) (bs : List Byte) (u : Purpose) (x y : Nat) : Calm r d (d.hwr p c a bs u x y) :=
  calm_hostRequest r d p _ _

theorem calm_event (r : Nat → Prop) (d : Dev) {cs : List Nat} (code sev d0 d1 unit : Nat) (hcs : ∀ c ∈ cs, c < 64) :
    Calm r d (d.event cs code sev d0 d1 unit) :=
  .of_stores (congrArg Dev.sansPackets (event_sansEvents d cs code sev d0 d1 unit)) (event_ctx d cs code sev d0 d1 unit)
    (face_event d cs code sev d0 d1 unit)
    (fun _ hk => d.count_event cs code sev d0 d1 unit hk.1 (fun c hc => hk.2.1 c (hcs c hc).le) (hk.2.1 64 (Nat.le_refl _))) (by simp)

theorem calm_takeFree (r : Nat → Prop) (d : Dev) : Calm r d d.takeFree.2 := .of_stores rfl (fun _ => rfl) (fun _ => rfl) (fun _ _ => rfl) rfl

theorem calm_bump (r : Nat → Prop) (d : Dev) {k : Nat} (hk : ∀ j, Steady j → k ≠ j) : Calm r d (d.bump k) :=
  .of_stores rfl (fun _ => rfl) (fun _ => rfl) (fun j hj => Dev.count_bump_other d (hk j hj)) rfl

theorem calm_retireTags (r : Nat → Prop) (d : Dev) (f : Tag → Bool) : Calm r d (d.retireTags f) :=
  .of_stores rfl (fun _ => rfl) (fun _ => rfl) (fun _ _ => rfl) rfl

theorem calm_sendPacket (r : Nat → Prop) (d : Dev) (k : Packet) : Calm r d (d.sendPacket k) := by
  obtain ⟨l, i, h, -⟩ := sendPacket_packets d k
  rw [h]
  exact .of_stores rfl (fun _ => rfl) (fun _ => rfl) (fun _ _ => rfl) rfl

theorem calm_taken (r : Nat → Prop) (d : Dev) (k : Packet) : Calm r d (d.taken k) :=
  .of_stores rfl (fun _ => rfl) (fun _ => rfl) (fun _ _ => rfl) rfl

theorem calm_control (r : Nat → Prop) (d : Dev) (o : Opening) (op seq k ty index aux : Nat) (data : List Byte) :
    Calm r d (d.control o op seq k ty index aux data) :=
  .trans (e := { d with repeats := d.repeats ++ [({ pkt := d.collPacket o op seq k ty index aux data, at_ := d.lode.count + 1, left := 2 } : Repeat)] })
    (.of_stores rfl (fun _ => rfl) (fun _ => rfl) (fun _ _ => rfl) rfl) (calm_sendPacket r _ _)

theorem calm_sendSnoop (r : Nat → Prop) (d : Dev) (p line : Nat) (inval : Bool) : Calm r d (d.sendSnoop p line inval) := by
  unfold Dev.sendSnoop
  split
  · exact .refl r d
  · extract_lets t k d'
    have hsnoops : Calm r d d' := .of_stores rfl (fun _ => rfl) (fun _ => rfl) (fun _ _ => rfl) rfl
    exact (hsnoops.trans (calm_bump r d' fun _ hj => hj.2.2.1 p)).trans (calm_sendHost r _ _ _)

theorem calm_cohWait (r : Nat → Prop) (d : Dev) (a n : Nat) (write : Bool) (except : Option Nat) : Calm r d (d.cohWait a n write except).1 := by
  unfold Dev.cohWait
  split
  · exact .refl r d
  · exact Calm.each (fun d x _ => calm_sendSnoop r d _ _ _) d

theorem calm_accessCheck (r : Nat → Prop) (d : Dev) {c : Nat} (hc : c < 64) (a n : Nat) : Calm r d (d.accessCheck c a n).1 := by
  have hviol : ∀ i x, Calm r d ((d.bump (Reg.memAccessViol i)).event [c] 0x0302 2 a x 0) := fun i x =>
    (calm_bump r d fun _ hj => hj.2.2.2 i).trans (calm_event r _ _ _ _ _ _ (by simpa using hc))
  unfold Dev.accessCheck
  split
  · exact hviol 0 c
  split
  · exact .refl r d
  split
  · exact .refl r d
  split
  · exact .refl r d
  · exact hviol _ c

theorem calm_pokeN (d : Dev) {a : Nat} {bs : List Byte} (h : ∀ i, i < bs.length → r (a + i)) : Calm r d (d.pokeN a bs) where
  part := rfl
  ctx _ := rfl
  face _ := rfl
  count _ _ := rfl
  stores hr := by
    cases bs with
    | nil => rfl
    | cons b bs => exact absurd (h 0 (by simp)) (hr _)
  mem m x hx := by
    rw [peek_pokeN, if_neg]
    rintro ⟨hlo, hhi⟩
    exact hx (by simpa [Nat.add_sub_cancel' hlo] using h (x - a) (by omega))

/-- A write of an engine: what it does to memory lies in its range. -/
theorem calm_engineWrite (d : Dev) (m : Mem) {c a : Nat} {bs : List Byte} (hc : c < 64) (hbursts : d.badBursts = [])
    (hwords : ∀ t, (d.tile t).badWords = []) (h : ∀ i, i < bs.length → r (a + i)) : Calm r d (d.engineWrite m c a bs) := by
  have hcheck := calm_accessCheck r d hc a bs.length
  unfold Dev.engineWrite
  split
  · exact .refl r d
  dsimp only
  split
  · exact hcheck
  · have hwait := hcheck.trans (calm_cohWait r (d.accessCheck c a bs.length).1 a bs.length true none)
    rw [store_good (hwait.fields.2.2.1.trans hbursts) (fun t => (congrArg Tile.badWords (hwait.tile t)).trans (hwords t))]
    exact hwait.trans (calm_pokeN _ h)

/-- What the state after a command has of a device that is calm but for `r`. -/
theorem commit_of_calm {s : State} (h : Calm r d e) (hstores : d.stores = []) (hwipes : d.wipes = []) :
    (∀ a, ¬ r a → (s.commit e).read a = s.read a) ∧ ((∀ a, ¬ r a) → (s.commit e).mem = s.mem) := by
  refine ⟨fun a ha => ?_, fun hr => ?_⟩
  · rw [State.read_commit, h.mem s.mem a ha, peek_of_unwritten s hstores hwipes]
  · exact State.commit_mem s _ ((h.stores hr).trans hstores) (h.fields.2.2.2.2.1.trans hwipes)

end Sys2Proof.Machine
end

section
/-! Openings and what their packets and ends do to the device (R269, R274, R280, R283, R288, R289). -/

namespace Sys2Proof.Machine

open Sys2Proof.Claims (Ends Quiet Holds SameMemBut NoBad Reaches EngineReaches BucketMem IsPacketOf Finds)

/-! Openings found and replaced. -/

theorem putOpening_eq (d : Dev) (o : Opening) : d.putOpening o = d.withOpenings (d.openings.map (fun x => if x.same o then o else x)) := rfl

theorem putOpening_only {d : Dev} {o x : Opening} (h : d.openings = [x]) (hsame : x.same o = true) : d.putOpening o = d.withOpenings [o] := by
  rw [putOpening_eq, h, List.map_cons, if_pos hsame, List.map_nil]

theorem openOf_reads {d : Dev} {c id : Nat} {o : Opening} (h : d.openOf c id = some o) : o.ctx = c ∧ o.id = id ∧ o.ended = false := by
  have hsome := List.find?_some h
  simp only [Bool.and_eq_true, beq_iff_eq, Bool.not_eq_true'] at hsome
  exact ⟨hsome.1.1, hsome.1.2, hsome.2⟩

/-- An opening that is found can be exchanged for one under the same key. -/
theorem openOf_putOpening {d : Dev} {c id : Nat} {o x : Opening} (h : d.openOf c id = some o) (hsame : o.same x = true) (hopen : x.ended = false) :
    (d.putOpening x).openOf c id = some x := by
  obtain ⟨hctx, hid, -⟩ := openOf_reads h
  simp only [Opening.same, Bool.and_eq_true, beq_iff_eq] at hsame
  have hx : (x.ctx == c && x.id == id && !x.ended) = true := by simp [← hsame.1.1, ← hsame.1.2, hctx, hid, hopen]
  rw [Dev.openOf, putOpening_eq, (withOpenings_fields _ _).1]
  rw [Dev.openOf] at h
  generalize d.openings = l at h
  induction l with
  | nil => exact absurd h (by simp)
  | cons a l ih =>
    rw [List.map_cons]
    by_cases ha : a.same x = true
    · rw [if_pos ha, List.find?_cons_of_pos (p := fun y : Opening => y.ctx == c && y.id == id && !y.ended) hx]
    · rw [if_neg ha]
      have hkey : ¬ (a.ctx == c && a.id == id && !a.ended) = true := fun hmatch => by
        rw [List.find?_cons_of_pos (p := fun y : Opening => y.ctx == c && y.id == id && !y.ended) hmatch] at h
        obtain rfl := Option.some.inj h
        exact ha (by simp [Opening.same, hsame])
      rw [List.find?_cons_of_neg (p := fun y : Opening => y.ctx == c && y.id == id && !y.ended) hkey] at h ⊢
      exact ih h

/-- Of two openings put under one key the later stands. -/
theorem putOpening_putOpening (d : Dev) {x y : Opening} (h : x.same y = true) : (d.putOpening x).putOpening y = d.putOpening y := by
  simp only [Opening.same, Bool.and_eq_true, beq_iff_eq] at h
  have hmap : (d.openings.map (fun a => if a.same x then x else a)).map (fun a => if a.same y then y else a) =
      d.openings.map (fun a => if a.same y then y else a) := by
    rw [List.map_map]
    refine List.map_congr_left fun a _ => ?_
    simp only [Function.comp]
    by_cases ha : a.same x = true
    · have hay : a.same y = true := by simpa [Opening.same, h] using ha
      rw [if_pos ha, if_pos hay, if_pos (by simp [Opening.same, h])]
    · rw [if_neg ha]
  exact congrArg d.withOpenings hmap

theorem openOf_only {d : Dev} {c id : Nat} {o x : Opening} (h : d.openOf c id = some o) (honly : d.openings = [x]) : x = o := by
  rw [Dev.openOf, honly] at h
  exact List.mem_singleton.mp (List.mem_of_find?_eq_some h) ▸ rfl

theorem same_refl (o : Opening) : o.same o = true := by simp [Opening.same]

/-! A collective packet that reaches its opening (R288). -/

theorem collTake_found {s : State} {k : Packet} {op ty seq : Nat} {o : Opening} (h : Finds s k op ty o seq)
    (hseq : (if o.kind = 2 then o.useSeq else o.seq.toNat) = seq) (f : Dev → Opening → Dev) : s.begin.collTake k op ty f = f s.begin o := by
  obtain ⟨hop, hty, hecrc, hopen, hkseq, hrank⟩ := h
  have hopen' : s.begin.openOf k.ctx (kId k) = some o := hopen
  rw [Dev.collTake, if_neg (by simp [hop, hty]), checked_ok hecrc, hopen']
  exact if_pos (by simp [hseq, hkseq, hrank])

theorem collTake_stale {s : State} {k : Packet} {op ty : Nat} (hop : k.opc = op) (hty : kType k = ty) (hecrc : k.ecrcOk = true)
    (hnone : s.dev.openOf k.ctx (kId k) = none) (f : Dev → Opening → Dev) :
    s.begin.collTake k op ty f = (s.begin.taken k).bump Reg.collStaleDrop := by
  have hnone' : s.begin.openOf k.ctx (kId k) = none := hnone
  rw [Dev.collTake, if_neg (by simp [hop, hty]), checked_ok hecrc, hnone']

/-! Memory of an engine (R177). -/

theorem engineRead_of {d : Dev} {c a n : Nat} (hn : n ≠ 0) (htop : isHbm (a + n - 1) = true) (hin : inMemory a n = true)
    (hlost : d.lost (memDie a) = false) (hmay : d.admits c a n = true) (hwait : d.mustWait a n = false) (hdir : d.directory = [])
    (hbursts : d.badBursts = []) (hwords : ∀ t, (d.tile t).badWords = []) (m : Mem) : d.engineRead m c a n = (d, some (peekN m d a n)) := by
  have hcheck : d.accessCheck c a n = (d, none) := Dev.accessCheck_admitted hin (below_of_inMemory hn hin) hlost hmay
  unfold Dev.engineRead
  rw [if_neg hn, if_neg (by simp [htop]), hcheck]
  dsimp only
  rw [if_neg (by simp [hwait]), Dev.cohBlocked_of_no_line hdir]
  dsimp only
  rw [if_neg (by simp), load_good hbursts hwords]

/-- A range an engine reaches as the command begins is read as it stands there. -/
theorem engineRead_reached {s : State} {c a n : Nat} (h : EngineReaches s c a n) : s.begin.engineRead s.mem c a n = (s.begin, some (peekN s.mem s.begin a n)) := by
  obtain ⟨⟨hn, hin, -, hlost, hmay, -, hwait, hdir, hbursts, hwords⟩, -, htop⟩ := h
  exact engineRead_of (d := s.begin) hn htop hin hlost hmay hwait hdir hbursts hwords s.mem

/-- Counting bursts first, or taking the packet, does not change what is read. -/
theorem engineRead_counted {s : State} {c a n : Nat} (h : EngineReaches s c a n) (l : Map (BitVec 48)) :
    (s.begin.withCounters l).engineRead s.mem c a n = (s.begin.withCounters l, some (peekN s.mem s.begin a n)) := by
  obtain ⟨⟨hn, hin, -, hlost, hmay, -, hwait, hdir, hbursts, hwords⟩, -, htop⟩ := h
  rw [engineRead_of (d := s.begin.withCounters l) hn htop hin hlost hmay hwait hdir hbursts hwords s.mem,
    peekN_congr (d := s.begin.withCounters l) (e := s.begin) rfl rfl]

theorem engineRead_taken {s : State} {c a n : Nat} (h : EngineReaches s c a n) (k : Packet) :
    (s.begin.taken k).engineRead s.mem c a n = (s.begin.taken k, some (peekN s.mem s.begin a n)) := by
  obtain ⟨⟨hn, hin, -, hlost, hmay, -, hwait, hdir, hbursts, hwords⟩, -, htop⟩ := h
  rw [engineRead_of (d := s.begin.taken k) hn htop hin hlost hmay hwait hdir hbursts hwords s.mem,
    peekN_congr (d := s.begin.taken k) (e := s.begin) rfl rfl]

/-- A write of an engine to a range that it reaches, the packet that brought it taken. -/
theorem engineWrite_taken {s : State} {c a : Nat} {bs : List Byte} (h : EngineReaches s c a bs.length) (k : Packet) :
    (s.begin.taken k).engineWrite s.mem c a bs = (s.begin.taken k).pokeN a bs := by
  obtain ⟨⟨hn, hin, -, hlost, hmay, -, hwait, hdir, hbursts, hwords⟩, -, htop⟩ := h
  have hcheck : (s.begin.taken k).accessCheck c a bs.length = (s.begin.taken k, none) :=
    Dev.accessCheck_admitted hin (below_of_inMemory hn hin) hlost hmay
  have hne : bs.isEmpty = false := by
    cases bs with
    | nil => exact absurd rfl hn
    | cons b bs => rfl
  unfold Dev.engineWrite
  rw [if_neg (by simp [htop, hne]), hcheck]
  dsimp only
  rw [if_neg (by simp), cohWait_of_no_line (d := s.begin.taken k) hdir]
  dsimp only
  rw [store_good (d := s.begin.taken k) hbursts hwords]

/-! Packets of an opening (R288, R289). -/

theorem collPacket_reads (d : Dev) (o : Opening) {op seq k ty index aux : Nat} {data : List Byte} (hop : op < 64) (hty : ty < 16) (v : Nat) :
    IsPacketOf o ((d.collPacket o op seq k ty index aux data).withField 255 224 v) op k ty index data ∧
    kAux ((d.collPacket o op seq k ty index aux data).withField 255 224 v) = aux % 2 ^ 25 := by
  have hdst : ((o.members.getD k 0).toNat) < 2 ^ 23 := (o.members.getD k 0).isLt
  have harg : ((d.collPacket o op seq k ty index aux data).withField 255 224 v).arg =
      (index % 2 ^ 18 * 2 ^ 36 + seq % 65536 * 2 ^ 20 + o.id % 65536 * 2 ^ 4 + ty) % 2 ^ 64 := by
    rw [Packet.arg, withField_other _ _ (by decide) (by decide) (.inr (by decide))]
    exact makePacket_field d op _ _ _ _ data (hi := 223) (lo := 160) (i := 11) (w := 64) rfl rfl rfl
  have haddr : ((d.collPacket o op seq k ty index aux data).withField 255 224 v).addr = (o.selfRank * 2 ^ 25 + aux % 2 ^ 25) % 2 ^ 41 := by
    rw [Packet.addr, withField_other _ _ (by decide) (by decide) (.inr (by decide))]
    exact makePacket_field d op _ _ _ _ data (hi := 159) (lo := 119) (i := 10) (w := 41) rfl rfl rfl
  refine ⟨⟨?opc, ?dst, ?ty, ?index, ?id, rfl⟩, ?aux⟩
  case opc =>
    rw [opc_withField _ _ (by decide) (by decide) (.inr (by decide)), Packet.opc, Dev.collPacket,
      makePacket_field d op _ _ _ _ data (hi := 33) (lo := 28) (i := 3) (w := 6) (x := op % 64) rfl rfl rfl, Nat.mod_eq_of_lt hop]
  case dst =>
    rw [dst_withField _ _ (by decide) (by decide) (.inr (by decide)), Packet.dst, Dev.collPacket,
      makePacket_field d op _ _ _ _ data (hi := 95) (lo := 73) (i := 8) (w := 23) (x := _ % 2 ^ 23) rfl rfl rfl, Nat.mod_eq_of_lt hdst]
  case ty => rw [kType, harg, fld_eq_div_mod]; omega
  case index => rw [kIndex, harg, fld_eq_div_mod]; omega
  case id => rw [kId, harg, fld_eq_div_mod]; omega
  case aux => rw [kAux, haddr, fld_eq_div_mod]; omega

/-- Packets alone have gone out from `d` to `e`, `n` of them to be repeated. -/
def Chats (d e : Dev) (n : Nat) : Prop :=
  ∃ l i q, e = ({ d with repeats := q } : Dev).withPackets l i ∧ q.length = d.repeats.length + n

theorem chats_refl (d : Dev) : Chats d d 0 := ⟨_, _, _, rfl, rfl⟩

theorem Chats.trans {d e f : Dev} {n k : Nat} (h : Chats d e n) (h' : Chats e f k) : Chats d f (n + k) := by
  obtain ⟨l, i, q, rfl, hq⟩ := h
  obtain ⟨l', i', q', rfl, hq'⟩ := h'
  exact ⟨l', i', q', rfl, by rw [hq']; exact (congrArg (· + k) hq).trans (Nat.add_assoc _ _ _)⟩

theorem chats_control (d : Dev) (o : Opening) (op seq k ty index aux : Nat) (data : List Byte) : Chats d (d.control o op seq k ty index aux data) 1 := by
  rw [Dev.control, Dev.sendControl]
  obtain ⟨l, i, h, -⟩ := sendPacket_packets
    { d with repeats := d.repeats ++ [({ pkt := d.collPacket o op seq k ty index aux data, at_ := d.lode.count + 1, left := 2 } : Repeat)] }
    (d.collPacket o op seq k ty index aux data)
  exact ⟨l, i, _, h, by simp⟩

/-- A control packet, or none, for each rank of a list. -/
theorem chats_each {l : List Nat} {f : Dev → Nat → Dev} (p : Nat → Bool) (h : ∀ d x, Chats d (f d x) (if p x then 1 else 0)) (d : Dev) :
    Chats d (d.each l f) (l.filter p).length := by
  induction l generalizing d with
  | nil => exact chats_refl d
  | cons a l ih =>
    rw [Dev.each_cons]
    have htwo := (h d a).trans (ih (f d a))
    by_cases hp : p a = true
    · rw [if_pos hp] at htwo
      rw [List.filter_cons_of_pos hp, List.length_cons, Nat.add_comm]
      exact htwo
    · rw [if_neg hp, Nat.zero_add] at htwo
      rwa [List.filter_cons_of_neg hp]

theorem Chats.fields {d e : Dev} {n : Nat} (h : Chats d e n) : e.openings = d.openings ∧ e.regs = d.regs ∧ e.counters = d.counters ∧ e.ctxs = d.ctxs ∧
    e.tiles = d.tiles ∧ e.stores = d.stores ∧ e.wipes = d.wipes ∧ e.lode = d.lode ∧ e.repeats.length = d.repeats.length + n ∧
    e.badBursts = d.badBursts := by
  obtain ⟨l, i, q, rfl, hq⟩ := h
  exact ⟨rfl, rfl, rfl, rfl, rfl, rfl, rfl, rfl, hq, rfl⟩

/-! How a bucket ends (R274, R280, R283). -/

/-- Where the record, the ready array and MASK of a bucket lie. -/
def bucketPlaces (o : Opening) (a : Nat) : Prop :=
  (bRec o.desc ≤ a ∧ a < bRec o.desc + 128) ∨ (bReady o.desc ≤ a ∧ a < bReady o.desc + 8 * bParts o.desc) ∨
  (bMask o.desc ≤ a ∧ a < bMask o.desc + 256 * o.segCount)

theorem bucketMem_of_calm {s : State} {d e : Dev} {o : Opening} (h : Calm (bucketPlaces o) d e) (hstores : d.stores = []) (hwipes : d.wipes = []) :
    BucketMem s (s.commit e) o := fun a hrec hready hmask =>
  (commit_of_calm h hstores hwipes).1 a (by rintro (hin | hin | hin) <;> omega)

theorem calm_bucketRecord (r : Nat → Prop) (d : Dev) (o : Opening) (status : Nat) : Calm r d (d.bucketRecord o status).1 := calm_takeFree r d

theorem calm_collEvent (r : Nat → Prop) (d : Dev) {o : Opening} (hctx : o.ctx < 64) (status : Nat) : Calm r d (d.collEvent o status) := by
  unfold Dev.collEvent
  split
  · exact calm_event r d _ _ _ _ _ (by simpa using hctx)
  · exact .refl r d

variable {d : Dev} {m : Mem} {o : Opening} {status : Nat}

/-- The record and the ready array are written. -/
def Dev.recordWritten (d : Dev) (m : Mem) (o : Opening) (status : Nat) : Dev :=
  ((d.bucketRecord o status).1.engineWrite m o.ctx (bRec o.desc) (toLE 128 (d.bucketRecord o status).2)).engineWrite m o.ctx (bReady o.desc)
    (List.replicate (8 * bParts o.desc) 0)

theorem calm_recordWritten (d : Dev) (m : Mem) {o : Opening} (hctx : o.ctx < 64) (status : Nat) (hbursts : d.badBursts = [])
    (hwords : ∀ t, (d.tile t).badWords = []) : Calm (bucketPlaces o) d (d.recordWritten m o status) := by
  have hrecord : Calm (bucketPlaces o) d ((d.bucketRecord o status).1.engineWrite m o.ctx (bRec o.desc) (toLE 128 (d.bucketRecord o status).2)) :=
    (calm_bucketRecord _ d o status).trans (calm_engineWrite _ m hctx hbursts hwords fun i hi => .inl (by rw [toLE_length] at hi; omega))
  refine hrecord.trans (calm_engineWrite _ m hctx (hrecord.fields.2.2.1.trans hbursts) (fun t => (congrArg Tile.badWords (hrecord.tile t)).trans (hwords t))
    fun i hi => .inr (.inl ?_))
  rw [List.length_replicate] at hi
  omega

theorem bucketEnds_eq (hrecorded : o.recorded = false) (hfails : status ≠ 1) :
    d.bucketEnds m o status = (((d.recordWritten m o status).putOpening { o with recorded := true }).bump Reg.collIncomplete).collEvent o status := by
  unfold Dev.bucketEnds
  rw [if_neg (by simp [hrecorded])]
  dsimp only
  rw [if_neg hfails]
  rfl

/-- A bucket that does not complete: its record is written, and it is counted. -/
theorem calm_bucketEnds_fails (hctx : o.ctx < 64) (hrecorded : o.recorded = false) (hfails : status ≠ 1) (hbursts : d.badBursts = [])
    (hwords : ∀ t, (d.tile t).badWords = []) :
    Calm (bucketPlaces o) ((d.putOpening { o with recorded := true }).bump Reg.collIncomplete) (d.bucketEnds m o status) := by
  have hwritten := calm_recordWritten d m hctx status hbursts hwords
  rw [bucketEnds_eq hrecorded hfails, putOpening_eq, putOpening_eq, hwritten.fields.2.2.2.1]
  exact ((hwritten.withOpenings _).bumpN _ 1).trans (calm_collEvent _ _ hctx status)

/-- What stands of a bucket after its end: the words of a shard that was sent. -/
def Opening.remains (x : Opening) : List Opening := if x.shardSent && x.hasWords then [{ x with ended := true }] else []

theorem remains_ended (x : Opening) : ∀ y ∈ x.remains, y.ended = true := by
  unfold Opening.remains
  split <;> simp

theorem closeOpening_only {x : Opening} (honly : d.openings = [x]) (hsame : x.same o = true) (hkind : x.kind = 1) :
    d.closeOpening o = d.withOpenings x.remains := by
  have hput : ∀ y : Opening, x.same y = true → d.putOpening y = d.withOpenings [y] := fun y hy => putOpening_only honly hy
  unfold Dev.closeOpening
  rw [honly, List.find?_cons_of_pos (p := fun y : Opening => y.same o) hsame]
  dsimp only
  by_cases hsent : x.shardSent = true
  · rw [if_pos hsent, hput _ (by simp [Opening.same])]
    refine congrArg d.withOpenings ?_
    cases hwords : x.hasWords <;> simp [Opening.remains, Opening.same, hwords, hsent, hkind]
  · rw [if_neg hsent, hput _ (by simp [Opening.same])]
    refine congrArg d.withOpenings ?_
    simp [Opening.remains, Opening.same, hsent, hkind]

/-- The only opening, a bucket, ends with a status other than COMPLETE. -/
theorem calm_endBucket_fails (honly : d.openings = [o]) (hkind : o.kind = 1) (hctx : o.ctx < 64) (hrecorded : o.recorded = false) (hfails : status ≠ 1)
    (hbursts : d.badBursts = []) (hwords : ∀ t, (d.tile t).badWords = []) :
    Calm (bucketPlaces o) ((d.withOpenings { o with recorded := true }.remains).bump Reg.collIncomplete) (d.endBucket m o status) := by
  have hends := calm_bucketEnds_fails (m := m) hctx hrecorded hfails hbursts hwords
  rw [putOpening_only honly (x := o) (by simp [Opening.same])] at hends
  rw [Dev.endBucket, closeOpening_only hends.fields.2.2.2.1 (by simp [Opening.same]) hkind]
  exact hends.withOpenings _

end Sys2Proof.Machine
end

section
/-! Reduction buckets: readiness, reports, CLOSE, DATA, RESULT, the repeats and a word's release (R271 to R274, R280 to R282, R289). -/

namespace Sys2Proof.Machine

open Sys2Proof.Claims (Ends Quiet Holds SameMemBut NoBad Reaches EngineReaches BucketMem IsPacketOf Finds)

/-! Readiness and the report (R271 to R273). -/

theorem readyPoll_polls (s : State) (c : Fin 64) (id : BitVec 16) (o : Opening) (hopen : s.dev.openOf c id.toNat = some o) (hkind : o.kind = 1)
    (hdesc : descKind o.desc = 1) (hready : o.ready = false) (hreach : EngineReaches s c (bReady o.desc) (8 * bParts o.desc)) :
    Ends (.readyPoll c id) s (fun u => u.dev.openings = (if (chunk 8 (bParts o.desc) (peekN s.mem s.begin (bReady o.desc) (8 * bParts o.desc))).all
        (fun e => leOf e != 0) then (s.dev.putOpening { o with ready := true }).openings else s.dev.openings) ∧
      u.mem = s.mem ∧ u.dev.regs = s.dev.regs ∧ u.dev.tiles = s.dev.tiles ∧ u.dev.ctxs = s.dev.ctxs) := by
  have hopen' : s.begin.openOf c.val id.toNat = some o := hopen
  have hat : descReady o.desc = bReady o.desc := if_pos hdesc
  have hparts : descParts o.desc = bParts o.desc := if_pos hdesc
  obtain ⟨l, hl⟩ := quarry_eq s.begin (bReady o.desc) (8 * bParts o.desc)
  have hpoll : xReadyPoll c.val id.toNat s.mem s.begin =
      if (chunk 8 (bParts o.desc) (peekN s.mem s.begin (bReady o.desc) (8 * bParts o.desc))).all (fun e => leOf e != 0) then
        (s.begin.withCounters l).putOpening { o with ready := true } else s.begin.withCounters l := by
    rw [xReadyPoll, hopen']
    dsimp only
    rw [if_neg (by simp [hready, hkind]), hat, hparts, hl, engineRead_counted hreach l]
  refine ends_of_run rfl hpoll ?_
  split
  · exact ⟨rfl, State.commit_mem s _ rfl rfl, rfl, rfl, rfl⟩
  · exact ⟨rfl, State.commit_mem s _ rfl rfl, rfl, rfl, rfl⟩

theorem collPacket_dst (d : Dev) (o : Opening) (op seq k ty index aux : Nat) (data : List Byte) :
    (d.collPacket o op seq k ty index aux data).dst = (o.members.getD k 0).toNat := by
  rw [Packet.dst, Dev.collPacket, makePacket_field d op _ _ _ _ data (hi := 95) (lo := 73) (i := 8) (w := 23) (x := _ % 2 ^ 23) rfl rfl rfl,
    Nat.mod_eq_of_lt (o.members.getD k 0).isLt]

/-- A control packet to a rank on another node. -/
theorem control_away {d : Dev} {o : Opening} {op k ty : Nat} (hop : op < 64) (hty : ty < 16) (haway : (o.members.getD k 0).toNat ≠ d.node)
    (seq index aux : Nat) (data : List Byte) : ∃ (p : Packet) (q : List Repeat),
      d.control o op seq k ty index aux data = ({ d with repeats := q } : Dev).withPackets (d.localOut ++ [p]) d.inbox ∧
      q.length = d.repeats.length + 1 ∧ IsPacketOf o p op k ty index data ∧ kAux p = aux % 2 ^ 25 := by
  obtain ⟨hreads, haux⟩ := collPacket_reads d o (seq := seq) (k := k) (index := index) (aux := aux) (data := data) hop hty
    (d.collPacket o op seq k ty index aux data).ecrc
  refine ⟨_, _, sendPacket_away (d := { d with repeats := d.repeats ++ [_] }) ?_, by simp, hreads, haux⟩
  rw [collPacket_dst]
  exact haway

theorem bucketScan_reports (s : State) (c : Fin 64) (id : BitVec 16) (o : Opening) (hopen : s.dev.openOf c id.toNat = some o) (hkind : o.kind = 1)
    (hready : o.ready = true) (hreported : o.reported = false) (hdeadline : o.deadline = false) (hroot : o.selfRank ≠ bRoot o.desc)
    (hreach : EngineReaches s c (bSrc o.desc) (4 * bElements o.desc)) (haway : (o.members.getD (bRoot o.desc) 0).toNat ≠ s.dev.node) :
    Ends (.bucketScanComplete c id) s (fun u => u.dev.openings = (s.dev.putOpening { o with reported := true }).openings ∧
      (∃ k : Packet, u.dev.localOut = s.dev.localOut ++ [k] ∧ IsPacketOf o k opCOLL (bRoot o.desc) 1 0 [] ∧
        kAux k % 512 = (scanOf (fp32s (peekN s.mem s.begin (bSrc o.desc) (4 * bElements o.desc)))).1 % 512 ∧
        u.dev.repeats.length = s.dev.repeats.length + 1) ∧ u.mem = s.mem ∧ u.dev.regs = s.dev.regs ∧ u.dev.counters = s.dev.counters) := by
  have hopen' : s.begin.openOf c.val id.toNat = some o := hopen
  obtain ⟨scan, hscan⟩ : ∃ v, v = scanOf (fp32s (peekN s.mem s.begin (bSrc o.desc) (4 * bElements o.desc))) := ⟨_, rfl⟩
  obtain ⟨x, hx⟩ : ∃ x : Opening, x = { o with reported := true } := ⟨_, rfl⟩
  have hbeyond : (o.selfRank == bRoot o.desc) = false := by simpa using hroot
  have hfields : x.members = o.members ∧ x.id = o.id := by rw [hx]; exact ⟨rfl, rfl⟩
  have heffect : xBucketScanComplete c.val id.toNat s.mem s.begin =
      (s.begin.putOpening x).control x opCOLL o.seq.toNat (bRoot o.desc) 1 0 (scan.1 + if scan.2 then 2 ^ 9 else 0) [] := by
    rw [xBucketScanComplete, hopen']
    dsimp only
    rw [if_neg (by simp [hkind, hready, hreported]), engineRead_reached hreach]
    dsimp only
    rw [if_neg (by simp [hdeadline]), if_neg (by simp [hbeyond]), hx, hscan]
  rw [← hx]
  clear hx
  obtain ⟨p, q, hcontrol, hq, ⟨hopc, hdst, hty, hindex, hid, hdata⟩, haux⟩ := control_away (d := s.begin.putOpening x) (o := x) (op := opCOLL)
    (k := bRoot o.desc) (ty := 1) (by decide) (by decide) (by rw [hfields.1]; exact haway) o.seq.toNat 0 (scan.1 + if scan.2 then 2 ^ 9 else 0) []
  rw [hfields.1] at hdst
  rw [hfields.2] at hid
  have haux' : kAux p % 512 = scan.1 % 512 := by
    rw [haux]
    split <;> omega
  rw [hscan] at haux'
  have hrun := heffect.trans hcontrol
  obtain ⟨e, he⟩ : ∃ e, e = ({ s.begin.putOpening x with repeats := q } : Dev).withPackets ((s.begin.putOpening x).localOut ++ [p]) (s.begin.putOpening x).inbox :=
    ⟨_, rfl⟩
  rw [← he] at hrun
  have hends : e.openings = (s.dev.putOpening x).openings ∧ e.localOut = s.dev.localOut ++ [p] ∧ e.repeats = q ∧ e.stores = [] ∧ e.wipes = [] ∧
      e.regs = s.dev.regs ∧ e.counters = s.dev.counters := by
    rw [he]
    exact ⟨rfl, rfl, rfl, rfl, rfl, rfl, rfl⟩
  obtain ⟨hopenings, hsent, hrepeats, hstores, hwipes, hregs, hcounters⟩ := hends
  exact ends_of_run (x := xBucketScanComplete c.val id.toNat) rfl hrun ⟨hopenings, ⟨p, hsent, ⟨hopc, hdst, hty, hindex, hid, hdata⟩, haux', hrepeats ▸ hq⟩,
    State.commit_mem s _ hstores hwipes, hregs, hcounters⟩

theorem collReport_inTime (s : State) (k : Packet) (o : Opening) (h : Finds s k opCOLL 1 o o.seq.toNat) (hkind : o.kind = 1)
    (hroot : o.selfRank = bRoot o.desc) (hclosed : o.rootClosed = false) (hdue : s.dev.closeDue o = false)
    (hnew : o.reports.any (fun x => x.rank == kRank k) = false) (hlate : o.late.contains (kRank k) = false) (hmore : o.reports.length + 1 ≠ o.count) :
    Quiet (.collReport k) s ((s.begin.taken k).putOpening { o with reports := o.reports ++
      [{ rank := kRank k, expcode := kAux k % 512, nonfin := (kAux k).testBit 9 }] }) := by
  have hdue' : (s.begin.taken k).closeDue o = false := hdue
  refine quiet_of_run (x := xCollReport k) rfl ?_ rfl rfl
  rw [xCollReport, collTake_found h (by simp [hkind])]
  dsimp only
  rw [if_pos (by simp [hkind, hroot]), Dev.takeReport, if_neg (by simp only [hnew, hlate]; decide), if_neg (by simp [hclosed, hdue'])]
  exact if_neg (by rw [List.length_append]; exact hmore)

theorem collReport_late (s : State) (k : Packet) (o : Opening) (h : Finds s k opCOLL 1 o o.seq.toNat) (hkind : o.kind = 1)
    (hroot : o.selfRank = bRoot o.desc) (hclosed : o.rootClosed = true)
    (hnew : o.reports.any (fun x => x.rank == kRank k) = false) (hlate : o.late.contains (kRank k) = false) :
    Quiet (.collReport k) s (((s.begin.taken k).putOpening { o with late := kRank k :: o.late }).bump Reg.collReportsLate) := by
  refine quiet_of_run (x := xCollReport k) rfl ?_ rfl rfl
  rw [xCollReport, collTake_found h (by simp [hkind])]
  dsimp only
  rw [if_pos (by simp [hkind, hroot]), Dev.takeReport, if_neg (by simp only [hnew, hlate]; decide), if_pos (by simp [hclosed])]

theorem collReport_stale (s : State) (k : Packet) (hop : k.opc = opCOLL) (hty : kType k = 1) (hecrc : k.ecrcOk = true)
    (hnone : s.dev.openOf k.ctx (kId k) = none) : Quiet (.collReport k) s ((s.begin.taken k).bump Reg.collStaleDrop) :=
  quiet_of_run (x := xCollReport k) rfl (collTake_stale hop hty hecrc hnone _) rfl rfl

/-! CLOSE (R273, R274). -/

/-- What a command that has taken its packet finds under the key of its opening. -/
theorem openOf_taken {s : State} {k : Packet} {op ty seq : Nat} {o : Opening} (h : Finds s k op ty o seq) :
    (s.begin.taken k).openOf o.ctx o.id = some o := by
  obtain ⟨-, -, -, hopen, -, -⟩ := h
  obtain ⟨hctx, hid, -⟩ := openOf_reads hopen
  rw [hctx, hid]
  exact hopen

theorem collClose_segment (s : State) (k : Packet) (o : Opening) (h : Finds s k opCOLL 2 o o.seq.toNat) (hkind : o.kind = 1)
    (hnew : mfind o.segs (kIndex k) = none) (hclosed : o.rootClosed = false) (hstatus : fld (kAux k) 12 9 ≠ 1) (hleaf : o.children = [])
    (hindex : kIndex k ≠ 32) (hmore : mfind o.segs 32 = none) :
    Quiet (.collClose k) s ((s.begin.taken k).putOpening { o with segs := mset o.segs (kIndex k) k.data }) := by
  have hleaf' : ({ o with segs := mset o.segs (kIndex k) k.data } : Opening).children = [] := hleaf
  refine quiet_of_run (x := xCollClose k) rfl ?_ rfl rfl
  rw [xCollClose, collTake_found h (by simp [hkind])]
  dsimp only
  rw [if_neg (by simp [hkind, hnew, hclosed]), if_neg hstatus]
  dsimp only
  rw [if_neg (by simp), openOf_taken h]
  dsimp only
  rw [hleaf', mfind_mset, if_neg hindex, hmore]
  rfl

/-! DATA (R276, R279, R280). -/

/-- One element of a chunk quantised onto the own words. -/
def Opening.addTerm (eb : Int) (i : Nat) (o : Opening) (x : Val × Nat) : Opening :=
  let e := 64 * i + x.2
  match quantise eb x.1 with
  | none => { o with nans := if o.nans.contains e then o.nans else e :: o.nans }
  | some q => { o with words := mset o.words e (signed 128 (unsigned 128 (mget 0 o.words e + q))),
                       sqs := mset o.sqs e (mget 0 o.sqs e + q.natAbs ^ 2) }

theorem accumulate_eq (o : Opening) (k i code : Nat) (vs : List Val) : o.accumulate k i code vs =
    ((vs.take (o.chunkSize i)).zipIdx).foldl (Opening.addTerm (gridExp code) i) { o with receipts := (k * 2 ^ 18 + i) :: o.receipts } := rfl

/-- The words, their squares and what is not a number exchanged: all that terms change. -/
def Opening.withTerms (o : Opening) (w : Map Int) (q : Map Nat) (n : List Nat) : Opening := { o with words := w, sqs := q, nans := n }

theorem addTerm_terms (eb : Int) (i : Nat) (o : Opening) (x : Val × Nat) : ∃ w q n, o.addTerm eb i x = o.withTerms w q n ∧
    (∀ e, e ≠ 64 * i + x.2 → mget 0 w e = mget 0 o.words e) ∧
    ∀ v, quantise eb x.1 = some v → mget 0 w (64 * i + x.2) = signed 128 (unsigned 128 (mget 0 o.words (64 * i + x.2) + v)) := by
  unfold Opening.addTerm
  cases hq : quantise eb x.1 with
  | none => exact ⟨o.words, o.sqs, _, rfl, fun _ _ => rfl, fun v hv => absurd hv (by simp)⟩
  | some v =>
    refine ⟨_, _, o.nans, rfl, fun e he => mget_mset_other _ _ _ (Ne.symm he), fun v' hv => ?_⟩
    obtain rfl := Option.some.inj hv
    exact mget_mset_same _ _ _ _

theorem foldl_addTerm (eb : Int) (i : Nat) (l : List Val) (k : Nat) (o : Opening) : ∃ w q n,
    (l.zipIdx k).foldl (Opening.addTerm eb i) o = o.withTerms w q n ∧
    (∀ e, (e < 64 * i + k ∨ 64 * i + k + l.length ≤ e) → mget 0 w e = mget 0 o.words e) ∧
    ∀ j v x, l[j]? = some x → quantise eb x = some v →
      mget 0 w (64 * i + k + j) = signed 128 (unsigned 128 (mget 0 o.words (64 * i + k + j) + v)) := by
  induction l generalizing k o with
  | nil => exact ⟨o.words, o.sqs, o.nans, rfl, fun _ _ => rfl, fun j v x hx => absurd hx (by simp)⟩
  | cons a l ih =>
    obtain ⟨w, q, n, hstep, hother, hsame⟩ := addTerm_terms eb i o (a, k)
    obtain ⟨w', q', n', hrest, hother', hsame'⟩ := ih (k + 1) (o.withTerms w q n)
    refine ⟨w', q', n', ?_, fun e he => ?_, fun j v x hx hv => ?_⟩
    · rw [List.zipIdx_cons, List.foldl_cons, hstep, hrest]
      rfl
    · rw [List.length_cons] at he
      rw [hother' e (by omega)]
      exact hother e (by simp only; omega)
    · cases j with
      | zero =>
        obtain rfl : a = x := by simpa using hx
        rw [Nat.add_zero, hother' _ (by omega)]
        exact hsame v hv
      | succ j =>
        have htail := hsame' j v x (by simpa using hx) hv
        have hword : mget 0 (o.withTerms w q n).words (64 * i + (k + 1) + j) = mget 0 o.words (64 * i + (k + 1) + j) := hother _ (by simp only; omega)
        rw [hword] at htail
        rw [show 64 * i + k + (j + 1) = 64 * i + (k + 1) + j by omega]
        exact htail

theorem chunk_getElem? {α : Type} {n k j : Nat} (l : List α) (h : j < k) : (chunk n k l)[j]? = some ((l.drop (n * j)).take n) := by
  induction k generalizing j l with
  | zero => omega
  | succ k ih =>
    cases j with
    | zero => simp [chunk]
    | succ j => rw [chunk, List.getElem?_cons_succ, ih (l.drop n) (by omega), List.drop_drop, Nat.mul_succ, Nat.add_comm]

theorem fp32s_getElem? {bs : List Byte} {j : Nat} (h : 4 * j + 4 ≤ bs.length) : (fp32s bs)[j]? = some (fp32.decode (leOf ((bs.drop (4 * j)).take 4))) := by
  rw [fp32s, List.getElem?_map, List.getElem?_map, chunk_getElem? bs (by omega)]
  rfl

theorem accumulate_terms (o : Opening) (k i code : Nat) (bs : List Byte) : ∃ w q n,
    o.accumulate k i code (fp32s bs) = ({ o with receipts := (k * 2 ^ 18 + i) :: o.receipts } : Opening).withTerms w q n ∧
    (∀ e, (e < 64 * i ∨ 64 * i + 64 ≤ e) → mget 0 w e = mget 0 o.words e) ∧
    ∀ j v, j < o.chunkSize i → 4 * j + 4 ≤ bs.length → quantise (gridExp code) (fp32.decode (leOf ((bs.drop (4 * j)).take 4))) = some v →
      mget 0 w (64 * i + j) = signed 128 (unsigned 128 (mget 0 o.words (64 * i + j) + v)) := by
  obtain ⟨w, q, n, hfold, hother, hsame⟩ := foldl_addTerm (gridExp code) i ((fp32s bs).take (o.chunkSize i)) 0
    { o with receipts := (k * 2 ^ 18 + i) :: o.receipts }
  have hsize : o.chunkSize i ≤ 64 := Nat.min_le_left _ _
  refine ⟨w, q, n, hfold, fun e he => hother e ?_, fun j v hj hlen hv => ?_⟩
  · rw [List.length_take]
    omega
  · exact hsame j v _ (by rw [List.getElem?_take_of_lt hj, fp32s_getElem? hlen]) hv

/-- The count of the last DATA exchanged. -/
def Opening.withLastData (o : Opening) (t : BitVec 64) : Opening := { o with lastData := t }

theorem collData_run {s : State} {k : Packet} {o x : Opening} (h : Finds s k opCOLL 3 o o.seq.toNat) (hkind : o.kind = 1) (hlow : o.own.1 ≤ kIndex k)
    (hhigh : kIndex k < o.own.2) (hnew : o.receipts.contains (kRank k * 2 ^ 18 + kIndex k) = false) (hsent : o.shardSent = false) (hclose : o.close = none)
    (hhas : o.hasWords = true) (hx : x = (o.accumulate (kRank k) (kIndex k) (kAux k % 512) (fp32s k.data)).withLastData s.dev.lode.count)
    (hput : ((s.begin.taken k).putOpening x).openOf o.ctx o.id = some x) (hnoclose : x.close = none) :
    xCollData k s.mem s.begin = (s.begin.taken k).putOpening x := by
  obtain ⟨-, -, -, hopen, -, -⟩ := id h
  obtain ⟨hctx, hid, -⟩ := openOf_reads hopen
  have hopen' : s.begin.openOf o.ctx o.id = some o := by rw [hctx, hid]; exact hopen
  have halloc : s.begin.allocate o.ctx o.id = (s.begin, true) := by
    rw [Dev.allocate, hopen']
    exact if_pos hhas
  have hstops : ((s.begin.taken k).putOpening x).tryConvert s.mem o.ctx o.id = (s.begin.taken k).putOpening x := by
    rw [Dev.tryConvert, hput]
    dsimp only
    rw [hnoclose]
  rw [xCollData, collTake_found h (by simp [hkind])]
  dsimp only
  rw [if_neg (by simp only [hkind, hnew, hsent, hclose]; simp; omega), halloc]
  dsimp only
  rw [if_neg (by simp), openOf_taken h]
  subst hx
  exact hstops

theorem putOpening_fields (d : Dev) (x : Opening) : (d.putOpening x).stores = d.stores ∧ (d.putOpening x).wipes = d.wipes ∧
    (d.putOpening x).regs = d.regs ∧ (d.putOpening x).counters = d.counters ∧ (d.putOpening x).ctxs = d.ctxs ∧ (d.putOpening x).tiles = d.tiles :=
  ⟨rfl, rfl, rfl, rfl, rfl, rfl⟩

/-- Putting an opening back changes the openings alone. -/
theorem putTaken_fields (s : State) (k : Packet) (x : Opening) : ((s.begin.taken k).putOpening x).stores = [] ∧
    ((s.begin.taken k).putOpening x).wipes = [] ∧ ((s.begin.taken k).putOpening x).regs = s.dev.regs ∧
    ((s.begin.taken k).putOpening x).counters = s.dev.counters ∧ ((s.begin.taken k).putOpening x).ctxs = s.dev.ctxs ∧
    ((s.begin.taken k).putOpening x).tiles = s.dev.tiles ∧ ((s.begin.taken k).putOpening x).openings = (s.dev.putOpening x).openings := by
  obtain ⟨hstores, hwipes, hregs, hcounters, hctxs, htiles⟩ := putOpening_fields (s.begin.taken k) x
  obtain ⟨hregs', hcounters', htiles', -⟩ := taken_fields s.begin k
  exact ⟨hstores, hwipes, hregs.trans hregs', hcounters.trans hcounters', hctxs, htiles.trans htiles', rfl⟩

theorem collData_adds (s : State) (k : Packet) (o : Opening) (h : Finds s k opCOLL 3 o o.seq.toNat) (hkind : o.kind = 1) (hlow : o.own.1 ≤ kIndex k)
    (hhigh : kIndex k < o.own.2) (hnew : o.receipts.contains (kRank k * 2 ^ 18 + kIndex k) = false) (hsent : o.shardSent = false) (hclose : o.close = none)
    (hhas : o.hasWords = true) :
    Ends (.collData k) s (fun u => ∃ x, u.dev.openOf k.ctx (kId k) = some x ∧ x.receipts = (kRank k * 2 ^ 18 + kIndex k) :: o.receipts ∧
      x.lastData = s.dev.lode.count ∧
      (∀ j q, j < o.chunkSize (kIndex k) → 4 * j + 4 ≤ k.data.length →
        quantise (gridExp (kAux k % 512)) (fp32.decode (leOf ((k.data.drop (4 * j)).take 4))) = some q →
        mget 0 x.words (64 * kIndex k + j) = signed 128 (unsigned 128 (mget 0 o.words (64 * kIndex k + j) + q))) ∧
      (∀ e, (e < 64 * kIndex k ∨ 64 * kIndex k + 64 ≤ e) → mget 0 x.words e = mget 0 o.words e) ∧
      u.mem = s.mem ∧ u.dev.regs = s.dev.regs ∧ u.dev.counters = s.dev.counters ∧ u.dev.ctxs = s.dev.ctxs ∧ u.dev.tiles = s.dev.tiles) := by
  obtain ⟨-, -, -, hopen, -, -⟩ := id h
  obtain ⟨hctx, hid, hended⟩ := openOf_reads hopen
  obtain ⟨w, q, n, hterms, hother, hsame⟩ := accumulate_terms o (kRank k) (kIndex k) (kAux k % 512) k.data
  obtain ⟨x, hx⟩ : ∃ x, x = (o.accumulate (kRank k) (kIndex k) (kAux k % 512) (fp32s k.data)).withLastData s.dev.lode.count := ⟨_, rfl⟩
  have hfields : o.same x = true ∧ x.ended = false ∧ x.close = none ∧ x.receipts = (kRank k * 2 ^ 18 + kIndex k) :: o.receipts ∧ x.words = w ∧
      x.lastData = s.dev.lode.count := by
    rw [hx, hterms]
    exact ⟨same_refl o, hended, hclose, rfl, rfl, rfl⟩
  obtain ⟨hkey, hstill, hnoclose, hreceipts, hwords, hlast⟩ := hfields
  have hput : ((s.begin.taken k).putOpening x).openOf o.ctx o.id = some x := openOf_putOpening (openOf_taken h) hkey hstill
  have hrun := collData_run h hkind hlow hhigh hnew hsent hclose hhas hx hput hnoclose
  obtain ⟨hstores, hwipes, hregs, hcounters, hctxs, htiles, -⟩ := putTaken_fields s k x
  rw [hctx, hid] at hput
  generalize (s.begin.taken k).putOpening x = e at hrun hput hstores hwipes hregs hcounters hctxs htiles
  exact ends_of_run (x := xCollData k) rfl hrun ⟨x, hput, hreceipts, hlast, hwords ▸ hsame, hwords ▸ hother, State.commit_mem s _ hstores hwipes, hregs,
    hcounters, hctxs, htiles⟩

/-! RESULT and the repeats (R281, R282, R289). -/

/-- A RESULT chunk held, and when it came. -/
def Opening.withResult (o : Opening) (i : Nat) (t : BitVec 64) : Opening := { o with results := i :: o.results, lastResult := t }

theorem collResult_run {s : State} {k : Packet} {o : Opening} {bs : List Byte} (h : Finds s k opCOLL 4 o o.seq.toNat) (hkind : o.kind = 1)
    (hcomplete : o.complete = true) (hindex : kIndex k < o.chunks) (hnew : o.results.contains (kIndex k) = false) (hshards : o.shards = [])
    (hrecorded : o.recorded = false) (hbs : k.data.take (4 * o.chunkSize (kIndex k)) = bs)
    (hreach : EngineReaches s k.ctx (bDst o.desc + 256 * kIndex k) bs.length) :
    xCollResult k s.mem s.begin =
      ((s.begin.taken k).pokeN (bDst o.desc + 256 * kIndex k) bs).putOpening (o.withResult (kIndex k) s.dev.lode.count) := by
  obtain ⟨-, -, -, hopen, -, hrank⟩ := id h
  obtain ⟨hctx, hid, hended⟩ := openOf_reads hopen
  have hreach' : EngineReaches s o.ctx (bDst o.desc + 256 * kIndex k) bs.length := by rw [hctx]; exact hreach
  have hput : (((s.begin.taken k).pokeN (bDst o.desc + 256 * kIndex k) bs).putOpening (o.withResult (kIndex k) s.dev.lode.count)).openOf o.ctx o.id =
      some (o.withResult (kIndex k) s.dev.lode.count) := openOf_putOpening (o := o) (openOf_taken h) (same_refl o) hended
  have hpartial : (o.withResult (kIndex k) s.dev.lode.count).whole = false := by
    have hnone : (List.range o.count).all (fun r => o.shards.any (fun s => s.rank == r && s.status == 1)) = false := by
      rw [List.all_eq_false]
      exact ⟨kRank k, List.mem_range.mpr hrank, by simp [hshards]⟩
    exact (congrArg _ hnone).trans (Bool.and_false _)
  have htake : (s.begin.taken k).takeResult s.mem o (kIndex k) bs =
      ((s.begin.taken k).pokeN (bDst o.desc + 256 * kIndex k) bs).putOpening (o.withResult (kIndex k) s.dev.lode.count) := by
    rw [Dev.takeResult, if_neg (by simp [hrecorded]), engineWrite_taken hreach' k]
    rfl
  rw [xCollResult, collTake_found h (by simp [hkind])]
  dsimp only
  rw [if_neg (by simp only [hkind, hcomplete, hnew]; simp; omega), hbs, htake, Dev.tryComplete, hput]
  exact if_neg (by simp [hpartial])

theorem collResult_stores (s : State) (k : Packet) (o : Opening) (h : Finds s k opCOLL 4 o o.seq.toNat) (hkind : o.kind = 1) (hcomplete : o.complete = true)
    (hindex : kIndex k < o.chunks) (hnew : o.results.contains (kIndex k) = false) (hshards : o.shards = []) (hrecorded : o.recorded = false)
    (hreach : EngineReaches s k.ctx (bDst o.desc + 256 * kIndex k) (k.data.take (4 * o.chunkSize (kIndex k))).length) :
    Ends (.collResult k) s (fun u => Holds u (bDst o.desc + 256 * kIndex k) (k.data.take (4 * o.chunkSize (kIndex k))) ∧
      SameMemBut s u (bDst o.desc + 256 * kIndex k) (k.data.take (4 * o.chunkSize (kIndex k))).length ∧
      u.dev.openings = (s.dev.putOpening { o with results := kIndex k :: o.results, lastResult := s.dev.lode.count }).openings ∧
      u.dev.regs = s.dev.regs ∧ u.dev.counters = s.dev.counters ∧ u.dev.ctxs = s.dev.ctxs) := by
  change Ends (.collResult k) s (fun u => _ ∧ _ ∧ u.dev.openings = (s.dev.putOpening (o.withResult (kIndex k) s.dev.lode.count)).openings ∧ _)
  generalize hbs : k.data.take (4 * o.chunkSize (kIndex k)) = bs at hreach ⊢
  have hrun := collResult_run h hkind hcomplete hindex hnew hshards hrecorded hbs hreach
  generalize o.withResult (kIndex k) s.dev.lode.count = x at hrun ⊢
  generalize bDst o.desc + 256 * kIndex k = a at hrun ⊢
  obtain ⟨e, he⟩ : ∃ e, e = ((s.begin.taken k).pokeN a bs).putOpening x := ⟨_, rfl⟩
  have hfields : e.openings = (s.dev.putOpening x).openings ∧ e.regs = s.dev.regs ∧ e.counters = s.dev.counters ∧ e.ctxs = s.dev.ctxs ∧
      e.stores = (s.begin.pokeN a bs).stores ∧ e.wipes = [] := by
    rw [he]
    obtain ⟨hstores, hwipes, hregs, hcounters, hctxs, -⟩ := putOpening_fields ((s.begin.taken k).pokeN a bs) x
    obtain ⟨hregs', hcounters', -⟩ := taken_fields s.begin k
    exact ⟨rfl, hregs.trans hregs', hcounters.trans hcounters', hctxs, hstores, hwipes⟩
  obtain ⟨hopenings, hregs, hcounters, hctxs, hstores, hwipes⟩ := hfields
  have hholds := holds_of_pokeN s hstores hwipes
  exact ends_of_run (x := xCollResult k) rfl (hrun.trans he.symm) ⟨hholds.1, hholds.2, hopenings, hregs, hcounters, hctxs⟩

/-- The control packets waiting to be sent again exchanged. -/
def Dev.withRepeats (d : Dev) (l : List Repeat) : Dev := { d with repeats := l }

theorem sendPacket_stores (d : Dev) (k : Packet) : (d.sendPacket k).stores = d.stores ∧ (d.sendPacket k).wipes = d.wipes := by
  obtain ⟨l, i, hsend, -⟩ := sendPacket_packets d k
  rw [hsend]
  exact ⟨rfl, rfl⟩

theorem controlPacketRepeat_run {d : Dev} {k : Repeat} (honly : d.repeats = [k]) (hdue : k.at_.toNat ≤ d.now) (m : Mem) :
    xControlPacketRepeat m d =
      (d.withRepeats (if 1 < k.left then [{ k with at_ := k.at_ + 1, left := k.left - 1 }] else [])).sendPacket k.pkt := by
  have hnow : d.repeats.filter (fun x => decide (x.at_.toNat ≤ d.now)) = [k] := by simp [honly, hdue]
  have hpast : d.repeats.filter (fun x => decide (d.now < x.at_.toNat)) = [] := by simp [honly, Nat.not_lt.mpr hdue]
  rw [xControlPacketRepeat]
  rw [hnow, hpast, Dev.each_cons, Dev.each_nil]
  by_cases hleft : 1 < k.left
  · rw [if_pos hleft, List.filter_cons_of_pos (by simpa using hleft)]
    rfl
  · rw [if_neg hleft, List.filter_cons_of_neg (by simpa using hleft)]
    rfl

theorem controlPacketRepeat_again (s : State) (k : Repeat) (honly : s.dev.repeats = [k]) (hdue : k.at_.toNat ≤ s.dev.now) (hleft : 1 < k.left) :
    Quiet .controlPacketRepeat s (({ s.begin with repeats := [{ k with at_ := k.at_ + 1, left := k.left - 1 }] }).sendPacket k.pkt) := by
  have hrun := controlPacketRepeat_run (d := s.begin) honly hdue s.mem
  rw [if_pos hleft] at hrun
  exact quiet_of_run (x := xControlPacketRepeat) rfl hrun (sendPacket_stores _ _).1 (sendPacket_stores _ _).2

theorem controlPacketRepeat_last (s : State) (k : Repeat) (honly : s.dev.repeats = [k]) (hdue : k.at_.toNat ≤ s.dev.now) (hleft : k.left ≤ 1) :
    Quiet .controlPacketRepeat s (({ s.begin with repeats := [] }).sendPacket k.pkt) := by
  have hrun := controlPacketRepeat_run (d := s.begin) honly hdue s.mem
  rw [if_neg (Nat.not_lt.mpr hleft)] at hrun
  exact quiet_of_run (x := xControlPacketRepeat) rfl hrun (sendPacket_stores _ _).1 (sendPacket_stores _ _).2

end Sys2Proof.Machine
end

section
/-! Reduction buckets: how they close and end (R273, R274, R280 to R283). -/

namespace Sys2Proof.Machine

open Sys2Proof.Claims (Ends Quiet Holds SameMemBut NoBad Reaches EngineReaches BucketMem IsPacketOf Finds)

variable {r : Nat → Prop} {d e : Dev} {m : Mem} {o : Opening}

/-! The only opening, a bucket, closes with a status other than COMPLETE. -/

/-- The bucket `o` is gone, its close status `v` kept, and it is counted. -/
def Dev.bucketFailed (d : Dev) (o : Opening) (v : Nat) : Dev :=
  ((d.withOpenings []).setCtx o.ctx { d.ctx o.ctx with collFail := mset (d.ctx o.ctx).collFail (bStepBit o.desc) v }).bump Reg.collIncomplete

theorem Calm.collFail (h : Calm r d e) (c b v : Nat) :
    ({ e.ctx c with collFail := mset (e.ctx c).collFail b v } : Ctx).sansEvents = ({ d.ctx c with collFail := mset (d.ctx c).collFail b v } : Ctx).sansEvents :=
  congrArg (fun x : Ctx => { x with collFail := mset x.collFail b v }) (h.ctx c)

theorem Calm.bucketFailed (h : Calm r d e) (o : Opening) (v : Nat) : Calm r (d.bucketFailed o v) (e.bucketFailed o v) :=
  ((h.withOpenings []).setCtx o.ctx (h.collFail o.ctx (bStepBit o.desc) v)).bumpN _ 1

/-- The close held of an opening. -/
def Opening.withClose (o : Opening) (k : Close) (mask : List Byte) (t : BitVec 64) : Opening :=
  { o with close := some k, mask := mask, closeLt := t, lastData := t, lastResult := t }

theorem holdClose_fails_eq {k : Close} (mask : List Byte) (hrecorded : o.recorded = false) (hstatus : k.status ≠ 1) :
    d.holdClose m o k mask =
      (((d.engineWrite m o.ctx (bMask o.desc) mask).putOpening (o.withClose k mask (d.engineWrite m o.ctx (bMask o.desc) mask).lode.count)).setCtx o.ctx
        { (d.engineWrite m o.ctx (bMask o.desc) mask).ctx o.ctx with
          collFail := mset ((d.engineWrite m o.ctx (bMask o.desc) mask).ctx o.ctx).collFail (bStepBit o.desc) k.status }).endBucket m
        (o.withClose k mask (d.engineWrite m o.ctx (bMask o.desc) mask).lode.count) k.status := by
  unfold Dev.holdClose
  refine (if_pos (by simpa using hstatus)).trans (congrArg (fun x : Dev => x.endBucket m _ k.status) ?_)
  exact if_neg (by simp [hrecorded])

theorem calm_holdClose_fails {k : Close} {mask : List Byte} (honly : d.openings = [o]) (hkind : o.kind = 1) (hctx : o.ctx < 64)
    (hrecorded : o.recorded = false) (hsent : o.shardSent = false) (hstatus : k.status ≠ 1) (hmask : mask.length = 256 * o.segCount)
    (hbursts : d.badBursts = []) (hwords : ∀ t, (d.tile t).badWords = []) :
    Calm (bucketPlaces o) (d.bucketFailed o k.status) (d.holdClose m o k mask) := by
  have hwrite : Calm (bucketPlaces o) d (d.engineWrite m o.ctx (bMask o.desc) mask) :=
    calm_engineWrite d m hctx hbursts hwords fun i hi => .inr (.inr (by omega))
  rw [holdClose_fails_eq mask hrecorded hstatus]
  generalize d.engineWrite m o.ctx (bMask o.desc) mask = d1 at hwrite
  obtain ⟨x, hx⟩ : ∃ x, x = o.withClose k mask d1.lode.count := ⟨_, rfl⟩
  have hfields : x.recorded = false ∧ x.ctx = o.ctx ∧ x.kind = 1 ∧ x.shardSent = false ∧ o.same x = true ∧ bucketPlaces x = bucketPlaces o := by
    rw [hx]
    exact ⟨hrecorded, rfl, hkind, hsent, same_refl o, rfl⟩
  rw [← hx]
  clear hx
  obtain ⟨hxrec, hxctx, hxkind, hxsent, hsame, hplaces⟩ := hfields
  rw [putOpening_only (hwrite.fields.2.2.2.1.trans honly) hsame]
  have hends := calm_endBucket_fails (d := (d1.withOpenings [x]).setCtx o.ctx
      { d1.ctx o.ctx with collFail := mset (d1.ctx o.ctx).collFail (bStepBit o.desc) k.status })
    (o := x) (m := m) (status := k.status) rfl hxkind (hxctx ▸ hctx) hxrec hstatus (hwrite.fields.2.2.1.trans hbursts)
    (fun t => (congrArg Tile.badWords (hwrite.tile t)).trans (hwords t))
  have hgone : ({ x with recorded := true } : Opening).remains = [] := if_neg (by simp [hxsent])
  rw [hgone, hplaces] at hends
  exact (hwrite.bucketFailed o k.status).trans hends

theorem maskSegment_length (ranks : List Nat) (i : Nat) : (maskSegment ranks i).length = 256 := by simp [maskSegment]

theorem flatten_length {α : Type} {l : List Nat} {f : Nat → List α} {n : Nat} (h : ∀ j ∈ l, (f j).length = n) : ((l.map f).flatten).length = n * l.length := by
  induction l with
  | nil => rfl
  | cons a l ih =>
    rw [List.map_cons, List.flatten_cons, List.length_append, h a (List.mem_cons_self ..), ih fun j hj => h j (List.mem_cons_of_mem _ hj), List.length_cons]
    ring

/-- The root's opening once it has closed without a report. -/
def Opening.closedEmpty (o : Opening) : Opening := { o with rootClosed := true, exclNonfin := 0 }

theorem calm_rootClose_empty (honly : d.openings = [o]) (hkind : o.kind = 1) (hctx : o.ctx < 64) (hreports : o.reports = [])
    (hrecorded : o.recorded = false) (hsent : o.shardSent = false) (hbursts : d.badBursts = []) (hwords : ∀ t, (d.tile t).badWords = []) :
    Calm (bucketPlaces o) (d.bucketFailed o 2) (d.rootClose m o) := by
  unfold Dev.rootClose
  extract_lets x kept ranks p code status y d1 segs d2
  have hkept : kept = [] := by simp [kept, hreports]
  have hp : p = 0 := by simp [p, ranks, hkept]
  have hstatus : status = 2 := by simp [status, hreports, hp]
  have hy : y = o.closedEmpty := by simp [y, hreports, hp, Opening.closedEmpty]
  have hput : d1 = d.withOpenings [y] := putOpening_only honly (by simp [Opening.same, y])
  have hsends : Calm (bucketPlaces o) d1 d2 := Calm.each (fun d k _ => Calm.each (fun d x _ => calm_control _ d _ _ _ _ _ _ _ _) d) d1
  have hmask : (((List.range y.segCount).map (maskSegment ranks)).flatten).length = 256 * y.segCount := by
    rw [flatten_length fun j _ => maskSegment_length _ j, List.length_range]
  have hy' : y.kind = 1 ∧ y.ctx < 64 ∧ y.recorded = false ∧ y.shardSent = false := by
    rw [hy]
    exact ⟨hkind, hctx, hrecorded, hsent⟩
  obtain ⟨hykind, hyctx, hyrec, hysent⟩ := hy'
  have hheld := calm_holdClose_fails (d := d2) (o := y) (m := m) (k := { expcode := code, status := status, pop := p, lt := d2.lode.count })
    (mask := ((List.range y.segCount).map (maskSegment ranks)).flatten)
    (by rw [hsends.fields.2.2.2.1, hput]; rfl) hykind hyctx hyrec hysent (by simp [hstatus]) hmask
    (by rw [hsends.fields.2.2.1, hput]; exact hbursts) (fun t => by rw [hsends.tile t, hput]; exact hwords t)
  have hplaces : bucketPlaces y = bucketPlaces o := by rw [hy]; rfl
  rw [hplaces] at hheld
  refine Calm.trans ?_ hheld
  have hbefore := hsends.bucketFailed y status
  have hfailed : d1.bucketFailed y status = d.bucketFailed o 2 := by
    rw [hput, hy, hstatus]
    rfl
  rwa [hfailed] at hbefore

theorem steady_collIncomplete : Steady Reg.collIncomplete :=
  ⟨by decide, fun c _ => by unfold Reg.ctxEvtLost Reg.collIncomplete ctxWindow; omega, fun p => by unfold Reg.devHpSnoops Reg.collIncomplete; omega,
    fun i => by unfold Reg.memAccessViol Reg.collIncomplete dieBlock indBlock; omega⟩

/-- What a command that ends so leaves. -/
theorem ends_of_bucketFailed {i : Instr} {s : State} {f : Effect} {v : Nat} (hexec : exec i s = s.run f) (hv : f s.mem s.begin = e)
    (h : Calm (bucketPlaces o) (d.bucketFailed o v) e) (hfields : d.regs = s.dev.regs ∧ d.tiles = s.dev.tiles ∧ d.counters = s.dev.counters ∧
      d.stores = [] ∧ d.wipes = []) :
    Ends i s (fun u => u.dev.openings = [] ∧ mget 0 (u.dev.ctx o.ctx).collFail (bStepBit o.desc) = v ∧
      u.dev.count Reg.collIncomplete = s.dev.count Reg.collIncomplete + 1 ∧ BucketMem s u o ∧ u.dev.regs = s.dev.regs ∧ u.dev.tiles = s.dev.tiles) := by
  obtain ⟨hregs, htiles, hcounters, hstores, hwipes⟩ := hfields
  obtain ⟨hr, ht, -, ho, -⟩ := h.fields
  have hfail : (e.ctx o.ctx).collFail = mset (d.ctx o.ctx).collFail (bStepBit o.desc) v := by
    have hkeep := congrArg Ctx.collFail (h.ctx o.ctx)
    have hset : ((d.bucketFailed o v).ctx o.ctx).collFail = mset (d.ctx o.ctx).collFail (bStepBit o.desc) v :=
      congrArg Ctx.collFail (Dev.ctx_setCtx_same (d.withOpenings []) o.ctx _)
    exact hkeep.trans hset
  have hcount : e.count Reg.collIncomplete = s.dev.count Reg.collIncomplete + 1 := by
    rw [h.count Reg.collIncomplete steady_collIncomplete, Dev.bucketFailed, Dev.count_bump_same, Dev.count, Dev.count]
    exact congrArg (fun l => mget 0 l Reg.collIncomplete + 1) hcounters
  refine ends_of_run hexec hv ⟨ho, ?_, hcount, bucketMem_of_calm h hstores hwipes, hr.trans hregs, ht.trans htiles⟩
  exact (congrArg (fun l => mget 0 l (bStepBit o.desc)) hfail).trans (mget_mset_same _ _ _ _)

theorem bucketClose_incomplete (s : State) (c : Fin 64) (id : BitVec 16) (o : Opening) (honly : s.dev.openings = [o])
    (hopen : s.dev.openOf c id.toNat = some o) (hkind : o.kind = 1) (hroot : o.selfRank = bRoot o.desc) (hclosed : o.rootClosed = false)
    (hdue : s.dev.closeDue o = true) (hreports : o.reports = []) (hrecorded : o.recorded = false) (hsent : o.shardSent = false) (hgood : NoBad s) :
    Ends (.bucketClose c id) s (fun u => u.dev.openings = [] ∧ mget 0 (u.dev.ctx c).collFail (bStepBit o.desc) = 2 ∧
      u.dev.count Reg.collIncomplete = s.dev.count Reg.collIncomplete + 1 ∧ BucketMem s u o ∧ u.dev.regs = s.dev.regs ∧ u.dev.tiles = s.dev.tiles) := by
  obtain ⟨hbursts, hwords⟩ := hgood
  have hopen' : s.begin.openOf c.val id.toNat = some o := hopen
  have hdue' : s.begin.closeDue o = true := hdue
  obtain ⟨hctx, -, -⟩ := openOf_reads hopen
  have hrun : xBucketClose c.val id.toNat s.mem s.begin = s.begin.rootClose s.mem o := by
    rw [xBucketClose, hopen']
    exact if_pos (by simp [hkind, hroot, hclosed, hdue'])
  have hcalm := calm_rootClose_empty (d := s.begin) (m := s.mem) honly hkind (by rw [hctx]; exact c.isLt) hreports hrecorded hsent hbursts hwords
  have hends := ends_of_bucketFailed (i := .bucketClose c id) (f := xBucketClose c.val id.toNat) rfl hrun hcalm ⟨rfl, rfl, rfl, rfl, rfl⟩
  rw [hctx] at hends
  exact hends

theorem collClose_fails (s : State) (k : Packet) (o : Opening) (honly : s.dev.openings = [o]) (h : Finds s k opCOLL 2 o o.seq.toNat) (hkind : o.kind = 1)
    (hrecorded : o.recorded = false) (hnew : mfind o.segs (kIndex k) = none) (hclosed : o.rootClosed = false) (hsent : o.shardSent = false)
    (hclose : o.close = none) (hstatus : 2 ≤ fld (kAux k) 12 9) (hleaf : o.children = []) (hindex : kIndex k = 32)
    (hall : (List.range o.segCount).all (fun j => (mfind (mset o.segs 32 k.data) j).isSome) = true)
    (hlens : ∀ j, j < o.segCount → (mget [] (mset o.segs 32 k.data) j).length = 256) (hgood : NoBad s) :
    Ends (.collClose k) s (fun u => u.dev.openings = [] ∧ mget 0 (u.dev.ctx o.ctx).collFail (bStepBit o.desc) = fld (kAux k) 12 9 ∧
      u.dev.count Reg.collIncomplete = s.dev.count Reg.collIncomplete + 1 ∧ BucketMem s u o ∧ u.dev.regs = s.dev.regs ∧ u.dev.tiles = s.dev.tiles) := by
  obtain ⟨hbursts, hwords⟩ := hgood
  obtain ⟨-, -, -, hopen, -, -⟩ := id h
  obtain ⟨hctx, hid, hended⟩ := openOf_reads hopen
  obtain ⟨x, hx⟩ : ∃ x : Opening, x = { o with segs := mset o.segs 32 k.data } := ⟨_, rfl⟩
  have hfields : o.same x = true ∧ x.kind = 1 ∧ x.ctx = o.ctx ∧ x.recorded = false ∧ x.shardSent = false ∧ x.close = none ∧ x.children = [] ∧
      x.segs = mset o.segs 32 k.data ∧ x.segCount = o.segCount ∧ bucketPlaces x = bucketPlaces o ∧ x.desc = o.desc := by
    rw [hx]
    exact ⟨same_refl o, hkind, rfl, hrecorded, hsent, hclose, hleaf, rfl, rfl, rfl, rfl⟩
  obtain ⟨hsame, hxkind, hxctx, hxrec, hxsent, hxclose, hxleaf, hxsegs, hxcount, hplaces, hdesc⟩ := hfields
  obtain ⟨mask, hmask⟩ : ∃ l, l = ((List.range x.segCount).map (fun j => mget [] x.segs j)).flatten := ⟨_, rfl⟩
  have hlen : mask.length = 256 * x.segCount := by
    rw [hmask, flatten_length (n := 256) fun j hj => ?_, List.length_range]
    rw [hxsegs]
    exact hlens j (hxcount ▸ List.mem_range.mp hj)
  have hrun : xCollClose k s.mem s.begin = ((s.begin.taken k).withOpenings [x]).holdClose s.mem x
      { expcode := kAux k % 512, status := fld (kAux k) 12 9, pop := leOf (k.data.take 4), lt := 0 } mask := by
    have hput : (s.begin.taken k).putOpening x = (s.begin.taken k).withOpenings [x] := putOpening_only honly hsame
    rw [xCollClose, collTake_found h (by simp [hkind])]
    dsimp only
    rw [if_neg (by simp [hkind, hnew, hclosed]), if_neg (show ¬ fld (kAux k) 12 9 = 1 by omega)]
    dsimp only
    rw [if_neg (by simp), openOf_taken h]
    dsimp only
    have hlast : mfind (mset o.segs 32 k.data) 32 = some k.data := by rw [mfind_mset, if_pos rfl]
    have hwhole : (o.close.isSome || !(List.range x.segCount).all (fun j => (mfind (mset o.segs 32 k.data) j).isSome)) = false := by
      rw [hxcount, hall, hclose]
      rfl
    rw [hindex, hlast]
    dsimp only
    subst hx
    rw [hxleaf, Dev.each_nil, hput, hmask]
    exact if_neg (by rw [hwhole]; decide)
  have hcalm := calm_holdClose_fails (d := (s.begin.taken k).withOpenings [x]) (o := x) (m := s.mem)
    (k := { expcode := kAux k % 512, status := fld (kAux k) 12 9, pop := leOf (k.data.take 4), lt := 0 }) (mask := mask) rfl hxkind
    (by rw [hxctx, hctx]; exact fb_lt_two_pow _ _ _) hxrec hxsent (by simp only; omega) hlen hbursts hwords
  have hfailed : ((s.begin.taken k).withOpenings [x]).bucketFailed x (fld (kAux k) 12 9) = (s.begin.taken k).bucketFailed o (fld (kAux k) 12 9) := by
    rw [Dev.bucketFailed, Dev.bucketFailed, hxctx, hdesc]
    rfl
  rw [hplaces, hfailed] at hcalm
  obtain ⟨hregs, hcounters, htiles, -, -, -, hstores, hwipes, -⟩ := taken_fields s.begin k
  exact ends_of_bucketFailed (i := .collClose k) (f := xCollClose k) rfl hrun hcalm ⟨hregs, htiles, hcounters, hstores, hwipes⟩

/-! The limit of the data pass (R281). -/

/-- The opening of an owner that gives up its shard. -/
def Opening.gaveUp (o : Opening) (t : BitVec 64) : Opening := if o.shardSent then o else { o with shardSent := true, shardSentLt := t }

theorem gaveUp_fields (o : Opening) (t : BitVec 64) : o.same (o.gaveUp t) = true ∧ (o.gaveUp t).kind = o.kind ∧ (o.gaveUp t).ctx = o.ctx ∧
    (o.gaveUp t).recorded = o.recorded ∧ (o.gaveUp t).ended = o.ended ∧ bucketPlaces (o.gaveUp t) = bucketPlaces o := by
  unfold Opening.gaveUp
  split
  · exact ⟨same_refl o, rfl, rfl, rfl, rfl, rfl⟩
  · exact ⟨same_refl o, rfl, rfl, rfl, rfl, rfl⟩

theorem calm_sendShardDone (r : Nat → Prop) (d : Dev) (o : Opening) (x : ShardDone) : Calm r d (d.sendShardDone o x) :=
  Calm.each (fun d k _ => calm_control r d _ _ _ _ _ _ _ _) d

/-- Every opening of a list has ended. -/
theorem openOf_ended {d : Dev} {l : List Opening} (h : d.openings = l) (hl : ∀ y ∈ l, y.ended = true) (c id : Nat) : d.openOf c id = none := by
  rw [Dev.openOf, h, List.find?_eq_none]
  intro y hy
  simp [hl y hy]

theorem dataLimit_run {d : Dev} {m : Mem} {c id : Nat} {o : Opening} (honly : d.openings = [o]) (hopen : d.openOf c id = some o) (hkind : o.kind = 1)
    (hcomplete : o.complete = true) (hdue : o.closeLt.toNat + d.rf (Reg.ctxCollCtrl c) 18 3 ≤ d.now) :
    ∃ e, xDataLimitExpiry c id m d = e.endBucket m (o.gaveUp d.lode.count) 5 ∧
      ∀ r, Calm r (d.withOpenings [o.gaveUp d.lode.count]) e := by
  obtain ⟨hctx, hid, hended⟩ := openOf_reads hopen
  have hstay : d = d.withOpenings [o] := by rw [← honly]; rfl
  by_cases hsent : o.shardSent = true
  · refine ⟨d, ?_, fun r => ?_⟩
    · have hgave : o.gaveUp d.lode.count = o := if_pos hsent
      unfold xDataLimitExpiry
      rw [hopen, hgave]
      dsimp only
      rw [if_pos hkind, if_neg (by simp only [hcomplete]; simp; omega), if_pos hsent, hopen]
    · have hgave : o.gaveUp d.lode.count = o := if_pos hsent
      rw [hgave, ← hstay]
      exact .refl r d
  · obtain ⟨x, hx⟩ : ∃ x, x = o.gaveUp d.lode.count := ⟨_, rfl⟩
    have hgave : x = { o with shardSent := true, shardSentLt := d.lode.count } := hx.trans (if_neg hsent)
    obtain ⟨hsame, -, hxctx, -, hxended, -⟩ := gaveUp_fields o d.lode.count
    rw [← hx] at hsame hxctx hxended ⊢
    obtain ⟨w, hw⟩ : ∃ w : ShardDone, w = { rank := o.selfRank, status := 5, ssqC := 0, ssqR := 0, nonfinite := 0, resInf := 0 } := ⟨_, rfl⟩
    have hput : d.putOpening x = d.withOpenings [x] := putOpening_only honly hsame
    have hcalm : ∀ r, Calm r (d.withOpenings [x]) ((d.withOpenings [x]).sendShardDone o w) := fun r => calm_sendShardDone r _ _ _
    have hfound : ((d.withOpenings [x]).sendShardDone o w).openOf c id = some x := by
      rw [Dev.openOf, (hcalm fun _ => True).fields.2.2.2.1, (withOpenings_fields _ _).1]
      simp only [Opening.same, Bool.and_eq_true, beq_iff_eq] at hsame
      exact List.find?_cons_of_pos (p := fun y : Opening => y.ctx == c && y.id == id && !y.ended) (by simp [hxctx, hctx, ← hsame.1.2, hid, hxended, hended])
    refine ⟨(d.withOpenings [x]).sendShardDone o w, ?_, hcalm⟩
    unfold xDataLimitExpiry
    rw [hopen]
    dsimp only
    rw [if_pos hkind, if_neg (by simp only [hcomplete]; simp; omega), if_neg hsent, ← hgave, ← hw, hput, hfound]

/-- What a command leaves that ends a bucket incomplete. -/
theorem ends_of_bucketCounted {i : Instr} {s : State} {f : Effect} {l : List Opening} {c id : Nat} (hexec : exec i s = s.run f) (hv : f s.mem s.begin = e)
    (h : Calm (bucketPlaces o) ((d.withOpenings l).bumpN Reg.collIncomplete 1) e) (hl : ∀ y ∈ l, y.ended = true)
    (hfields : d.regs = s.dev.regs ∧ d.tiles = s.dev.tiles ∧ d.counters = s.dev.counters ∧ d.stores = [] ∧ d.wipes = []) :
    Ends i s (fun u => u.dev.openOf c id = none ∧ u.dev.count Reg.collIncomplete = s.dev.count Reg.collIncomplete + 1 ∧ BucketMem s u o ∧
      u.dev.regs = s.dev.regs ∧ u.dev.tiles = s.dev.tiles) := by
  obtain ⟨hregs, htiles, hcounters, hstores, hwipes⟩ := hfields
  obtain ⟨hr, ht, -, ho, -⟩ := h.fields
  refine ends_of_run hexec hv ⟨openOf_ended (d := (s.commit e).dev) ho hl c id, ?_, bucketMem_of_calm h hstores hwipes, hr.trans hregs, ht.trans htiles⟩
  refine (h.count _ steady_collIncomplete).trans ((Dev.count_bump_same _ _).trans ?_)
  exact congrArg (fun l => mget 0 l Reg.collIncomplete + 1) hcounters

theorem dataLimit_ends (s : State) (c : Fin 64) (id : BitVec 16) (o : Opening) (honly : s.dev.openings = [o])
    (hopen : s.dev.openOf c id.toNat = some o) (hkind : o.kind = 1) (hcomplete : o.complete = true)
    (hdue : o.closeLt.toNat + s.dev.rf (Reg.ctxCollCtrl c) 18 3 ≤ s.dev.now) (hrecorded : o.recorded = false) (hgood : NoBad s) :
    Ends (.dataLimitExpiry c id) s (fun u => u.dev.openOf c id.toNat = none ∧
      u.dev.count Reg.collIncomplete = s.dev.count Reg.collIncomplete + 1 ∧ BucketMem s u o ∧ u.dev.regs = s.dev.regs ∧ u.dev.tiles = s.dev.tiles) := by
  obtain ⟨hbursts, hwords⟩ := hgood
  obtain ⟨hctx, -, -⟩ := openOf_reads hopen
  obtain ⟨e, hrun, hcalm⟩ := dataLimit_run (d := s.begin) (m := s.mem) honly hopen hkind hcomplete hdue
  obtain ⟨-, hkind', hctx', hrecorded', -, hplaces⟩ := gaveUp_fields o s.begin.lode.count
  generalize o.gaveUp s.begin.lode.count = x at hrun hcalm hkind' hctx' hrecorded' hplaces
  have hbefore := hcalm (bucketPlaces o)
  have hends := calm_endBucket_fails (d := e) (o := x) (m := s.mem) (status := 5) hbefore.fields.2.2.2.1 (hkind'.trans hkind)
    (by rw [hctx', hctx]; exact c.isLt) (hrecorded'.trans hrecorded) (by decide) (hbefore.fields.2.2.1.trans hbursts)
    (fun t => (congrArg Tile.badWords (hbefore.tile t)).trans (hwords t))
  rw [hplaces] at hends
  have hcalm' := ((hbefore.withOpenings ({ x with recorded := true } : Opening).remains).bumpN Reg.collIncomplete 1).trans hends
  have hleft := remains_ended { x with recorded := true }
  generalize ({ x with recorded := true } : Opening).remains = l at hcalm' hleft
  exact ends_of_bucketCounted (d := s.begin) rfl hrun hcalm' hleft ⟨rfl, rfl, rfl, rfl, rfl⟩

end Sys2Proof.Machine
end

section
/-! Reduction buckets: completion, resends and a word's release (R280 to R283). -/

namespace Sys2Proof.Machine

open Sys2Proof.Claims (Ends Quiet Holds SameMemBut NoBad Reaches EngineReaches BucketMem IsPacketOf Finds)

variable {r : Nat → Prop} {d e : Dev} {m : Mem} {o : Opening}

/-! A bucket completes (R283). -/

theorem Calm.withTiles (h : Calm r d e) (l : Map Tile) : Calm r (d.withTiles l) (e.withTiles l) where
  part := congrArg (fun x => { x with tiles := l }) h.part
  ctx := h.ctx
  face := h.face
  count := h.count
  stores := h.stores
  mem := h.mem

theorem notify_tiles (d : Dev) (c tiles sem : Nat) : ∃ l, d.notify c tiles sem = d.withTiles l :=
  Dev.each_invariant (P := fun e => ∃ l, e = d.withTiles l) (fun e t _ he => by
    obtain ⟨l, rfl⟩ := he
    exact ⟨_, rfl⟩) ⟨d.tiles, rfl⟩

/-- The step bit of a bucket set among those done. -/
def Ctx.withDone (x : Ctx) (b : Nat) : Ctx := { x with collDone := x.collDone ||| BitVec.ofNat 64 (2 ^ b) }

theorem bucketEnds_complete_eq (hrecorded : o.recorded = false) : d.bucketEnds m o 1 =
    (((((d.recordWritten m o 1).putOpening { o with recorded := true }).setCtx o.ctx (((d.recordWritten m o 1).ctx o.ctx).withDone (bStepBit o.desc))).notify
      o.ctx (descTiles o.desc) (descSem o.desc)).bumpN Reg.collNonfinite ((o.shards.map (·.nonfinite)).sum)).collEvent o 1 := by
  unfold Dev.bucketEnds
  rw [if_neg (by simp [hrecorded])]
  dsimp only
  rw [if_pos rfl]
  rfl

theorem calm_bucketEnds_complete (hctx : o.ctx < 64) (hrecorded : o.recorded = false) (hbursts : d.badBursts = [])
    (hwords : ∀ t, (d.tile t).badWords = []) : ∃ l n,
    Calm (bucketPlaces o) ((((d.putOpening { o with recorded := true }).setCtx o.ctx ((d.ctx o.ctx).withDone (bStepBit o.desc))).withTiles l).bumpN
      Reg.collNonfinite n) (d.bucketEnds m o 1) := by
  have hwritten := calm_recordWritten d m hctx 1 hbursts hwords
  rw [bucketEnds_complete_eq hrecorded, putOpening_eq, putOpening_eq, hwritten.fields.2.2.2.1]
  generalize d.recordWritten m o 1 = d1 at hwritten
  generalize d.openings.map (fun x => if x.same { o with recorded := true } then { o with recorded := true } else x) = q
  obtain ⟨l, hl⟩ := notify_tiles ((d1.withOpenings q).setCtx o.ctx ((d1.ctx o.ctx).withDone (bStepBit o.desc))) o.ctx (descTiles o.desc) (descSem o.desc)
  refine ⟨l, (o.shards.map (·.nonfinite)).sum, ?_⟩
  have hdone : ((d1.ctx o.ctx).withDone (bStepBit o.desc)).sansEvents = ((d.ctx o.ctx).withDone (bStepBit o.desc)).sansEvents :=
    congrArg (fun x : Ctx => x.withDone (bStepBit o.desc)) (hwritten.ctx o.ctx)
  have hstep := ((((hwritten.withOpenings q).setCtx o.ctx hdone).withTiles l).bumpN Reg.collNonfinite ((o.shards.map (·.nonfinite)).sum)).trans
    (calm_collEvent (o := o) _ _ hctx 1)
  rw [← hl] at hstep
  exact hstep

theorem calm_endBucket_complete (honly : d.openings = [o]) (hkind : o.kind = 1) (hctx : o.ctx < 64) (hrecorded : o.recorded = false)
    (hbursts : d.badBursts = []) (hwords : ∀ t, (d.tile t).badWords = []) : ∃ l n q, (∀ y ∈ q, y.ended = true) ∧
    Calm (bucketPlaces o) ((((d.withOpenings q).setCtx o.ctx ((d.ctx o.ctx).withDone (bStepBit o.desc))).withTiles l).bumpN Reg.collNonfinite n)
      (d.endBucket m o 1) := by
  obtain ⟨l, n, hends⟩ := calm_bucketEnds_complete (m := m) hctx hrecorded hbursts hwords
  refine ⟨l, n, ({ o with recorded := true } : Opening).remains, remains_ended _, ?_⟩
  rw [putOpening_only honly (o := { o with recorded := true }) (x := o) (same_refl o)] at hends
  have hclosed : d.endBucket m o 1 = (d.bucketEnds m o 1).withOpenings ({ o with recorded := true } : Opening).remains :=
    closeOpening_only hends.fields.2.2.2.1 (same_refl o) hkind
  rw [hclosed]
  exact hends.withOpenings _

/-- The openings, the tiles and what is done of a context exchanged, and counted. -/
def Dev.bucketCompleted (d : Dev) (q : List Opening) (c : Nat) (y : Ctx) (l : Map Tile) (n : Nat) : Dev :=
  (((d.withOpenings q).setCtx c y).withTiles l).bumpN Reg.collNonfinite n

theorem bucketCompleted_fields (d : Dev) (q : List Opening) (c : Nat) (y : Ctx) (l : Map Tile) (n : Nat) : (d.bucketCompleted q c y l n).regs = d.regs ∧
    (d.bucketCompleted q c y l n).openings = q ∧ (d.bucketCompleted q c y l n).stores = d.stores ∧ (d.bucketCompleted q c y l n).wipes = d.wipes ∧
    (d.bucketCompleted q c y l n).ctx c = y ∧ (d.bucketCompleted q c y l n).count Reg.collIncomplete = d.count Reg.collIncomplete := by
  refine ⟨rfl, rfl, rfl, rfl, Dev.ctx_setCtx_same _ _ _, ?_⟩
  rw [Dev.bucketCompleted, Dev.count_bumpN, if_neg (by decide)]
  rfl

/-- A SHARD_DONE held, and when it came. -/
def Opening.withShard (o : Opening) (x : ShardDone) (t : BitVec 64) : Opening :=
  { o with shards := o.shards.filter (fun y => y.rank != x.rank) ++ [x], lastResult := t }

theorem withShard_whole {x : ShardDone} {t : BitVec 64} (hcomplete : o.complete = true) (hresults : (List.range o.chunks).all o.results.contains = true)
    (hstatus : x.status = 1) (hothers : ∀ k, k < o.count → k ≠ x.rank → o.shards.any (fun y => y.rank == k && y.status == 1) = true) :
    (o.withShard x t).whole = true := by
  have hall : (List.range o.count).all (fun k => (o.shards.filter (fun y => y.rank != x.rank) ++ [x]).any (fun y => y.rank == k && y.status == 1)) = true := by
    rw [List.all_eq_true]
    intro k hk
    by_cases hkx : k = x.rank
    · simp [hkx, hstatus]
    · obtain ⟨y, hy, hmatch⟩ := List.any_eq_true.mp (hothers k (List.mem_range.mp hk) hkx)
      have hrank : y.rank = k := by
        simp only [Bool.and_eq_true, beq_iff_eq] at hmatch
        exact hmatch.1
      exact List.any_eq_true.mpr ⟨y, List.mem_append_left _ (List.mem_filter.mpr ⟨hy, by simpa [hrank] using hkx⟩), hmatch⟩
  have hfirst : (o.complete && (List.range o.chunks).all o.results.contains) = true := by rw [hcomplete, hresults]; rfl
  exact (congrArg₂ and hfirst hall).trans rfl

theorem collShardDone_run {s : State} {k : Packet} (honly : s.dev.openings = [o]) (h : Finds s k opCOLL 5 o o.seq.toNat) (hkind : o.kind = 1)
    (hcomplete : o.complete = true) (hnew : o.shards.any (fun s => s.rank == kRank k && s.status == 1) = false) (hstatus : kAux k % 16 = 1)
    (hresults : (List.range o.chunks).all o.results.contains = true)
    (hothers : ∀ r, r < o.count → r ≠ kRank k → o.shards.any (fun s => s.rank == r && s.status == 1) = true) :
    ∃ x : Opening, xCollShardDone k s.mem s.begin = ((s.begin.taken k).withOpenings [x]).endBucket s.mem x 1 ∧ x.kind = 1 ∧ x.ctx = o.ctx ∧
      x.recorded = o.recorded ∧ bucketPlaces x = bucketPlaces o ∧ x.desc = o.desc := by
  obtain ⟨-, -, -, hopen, -, -⟩ := id h
  obtain ⟨hctx, hid, hended⟩ := openOf_reads hopen
  obtain ⟨w, hw⟩ : ∃ w : ShardDone, w = { rank := kRank k, status := kAux k % 16, ssqC := leOf ((k.data.drop 0).take 40), ssqR := leOf ((k.data.drop 40).take 40), nonfinite := leOf ((k.data.drop 80).take 4), resInf := leOf ((k.data.drop 84).take 4) } :=
    ⟨_, rfl⟩
  have hrank : w.rank = kRank k := by rw [hw]
  have hwhole : (o.withShard w s.dev.lode.count).whole = true := withShard_whole hcomplete hresults (by rw [hw]; exact hstatus) (by rw [hrank]; exact hothers)
  have hput : (s.begin.taken k).putOpening (o.withShard w s.dev.lode.count) = (s.begin.taken k).withOpenings [o.withShard w s.dev.lode.count] :=
    putOpening_only honly (same_refl o)
  have hfound : ((s.begin.taken k).putOpening (o.withShard w s.dev.lode.count)).openOf o.ctx o.id = some (o.withShard w s.dev.lode.count) :=
    openOf_putOpening (openOf_taken h) (same_refl o) hended
  refine ⟨o.withShard w s.dev.lode.count, ?_, hkind, rfl, rfl, rfl, rfl⟩
  have htake : (s.begin.taken k).takeShardDone o w = (s.begin.taken k).putOpening (o.withShard w s.dev.lode.count) := rfl
  rw [xCollShardDone, collTake_found h (by simp [hkind])]
  dsimp only
  rw [if_neg (by simp only [hkind, hcomplete, hnew]; decide), ← hw, htake, Dev.tryComplete, hfound]
  dsimp only
  rw [if_pos hwhole, hput]

theorem collShardDone_completes (s : State) (k : Packet) (o : Opening) (honly : s.dev.openings = [o]) (h : Finds s k opCOLL 5 o o.seq.toNat)
    (hkind : o.kind = 1) (hcomplete : o.complete = true) (hnew : o.shards.any (fun s => s.rank == kRank k && s.status == 1) = false)
    (hrecorded : o.recorded = false) (hstatus : kAux k % 16 = 1) (hgood : NoBad s) (hresults : (List.range o.chunks).all o.results.contains = true)
    (hothers : ∀ r, r < o.count → r ≠ kRank k → o.shards.any (fun s => s.rank == r && s.status == 1) = true) :
    Ends (.collShardDone k) s (fun u => (u.dev.ctx k.ctx).collDone.getLsbD (bStepBit o.desc) = true ∧ u.dev.openOf k.ctx (kId k) = none ∧
      u.dev.count Reg.collIncomplete = s.dev.count Reg.collIncomplete ∧ BucketMem s u o ∧ u.dev.regs = s.dev.regs) := by
  obtain ⟨hbursts, hwords⟩ := hgood
  obtain ⟨-, -, -, hopen, -, -⟩ := id h
  obtain ⟨hctx, hid, hended⟩ := openOf_reads hopen
  have hlt : k.ctx < 64 := fb_lt_two_pow _ _ _
  obtain ⟨x, hrun, hxkind, hxctx, hxrec, hplaces, hdesc⟩ := collShardDone_run honly h hkind hcomplete hnew hstatus hresults hothers
  obtain ⟨l, n, q, hq, hcalm⟩ := calm_endBucket_complete (d := (s.begin.taken k).withOpenings [x]) (o := x) (m := s.mem) rfl hxkind
    (by rw [hxctx, hctx]; exact hlt) (hxrec.trans hrecorded) hbursts hwords
  rw [hplaces, hdesc, hxctx, hctx] at hcalm
  generalize ((s.begin.taken k).withOpenings [x]).endBucket s.mem x 1 = v at hrun hcalm
  obtain ⟨d1, hd1⟩ : ∃ d1, d1 = (s.begin.taken k).withOpenings [x] := ⟨_, rfl⟩
  have hfirst : d1.regs = s.dev.regs ∧ d1.stores = [] ∧ d1.wipes = [] ∧ d1.count Reg.collIncomplete = s.dev.count Reg.collIncomplete := by
    obtain ⟨hregs, hcounters, -, -, -, -, hstores, hwipes, -⟩ := taken_fields s.begin k
    rw [hd1]
    exact ⟨hregs, hstores, hwipes, congrArg (fun l => mget 0 l Reg.collIncomplete) hcounters⟩
  rw [← hd1] at hcalm
  clear hd1
  obtain ⟨hregs, hopenings, hstores, hwipes, hdone, hcount⟩ := bucketCompleted_fields d1 q k.ctx ((d1.ctx k.ctx).withDone (bStepBit o.desc)) l n
  rw [hfirst.1] at hregs
  rw [hfirst.2.1] at hstores
  rw [hfirst.2.2.1] at hwipes
  rw [hfirst.2.2.2] at hcount
  obtain ⟨d0, hd0⟩ : ∃ d0, d0 = d1.bucketCompleted q k.ctx ((d1.ctx k.ctx).withDone (bStepBit o.desc)) l n := ⟨_, rfl⟩
  replace hcalm : Calm (bucketPlaces o) d0 v := hd0 ▸ hcalm
  rw [← hd0] at hregs hopenings hstores hwipes hdone hcount
  obtain ⟨hr, -, -, ho, -⟩ := hcalm.fields
  have hbit : bStepBit o.desc < 64 := fb_lt_two_pow _ _ _
  have hset : (v.ctx k.ctx).collDone.getLsbD (bStepBit o.desc) = true := by
    have hkeep : (v.ctx k.ctx).collDone = (d0.ctx k.ctx).collDone := by
      have hsame := congrArg Ctx.collDone (hcalm.ctx k.ctx)
      exact hsame
    rw [hkeep, hdone, Ctx.withDone, BitVec.getLsbD_or, BitVec.getLsbD_ofNat, Nat.testBit_two_pow_self]
    simp [hbit]
  exact ends_of_run (x := xCollShardDone k) rfl hrun ⟨hset, openOf_ended (d := (s.commit v).dev) (ho.trans hopenings) hq _ _,
    (hcalm.count _ steady_collIncomplete).trans hcount, bucketMem_of_calm hcalm hstores hwipes, hr.trans hregs⟩

/-! RESEND (R281). -/

theorem collResend_run {s : State} {k : Packet} (honly : s.dev.openings = [o]) (hctx : o.ctx = k.ctx) (hid : o.id = kId k) (hseq : o.seq.toNat = kSeq k)
    (hop : k.opc = opCOLL) (hty : kType k = 6) (hecrc : k.ecrcOk = true) (hkind : o.kind = 1) (hended : o.ended = false) (hrank : kRank k < o.count)
    (hcomplete : o.complete = true) (haux : kAux k = 2) (hmask : o.inMask o.selfRank = true) (hindex : kIndex k < o.chunks)
    (howner : o.ownerOf (kIndex k) = kRank k)
    (hreach : EngineReaches s o.ctx (bSrc o.desc + 256 * kIndex k) (4 * o.chunkSize (kIndex k))) : ∃ code,
      xCollResend k s.mem s.begin = ((s.begin.taken k).sendPacket ((s.begin.taken k).collPacket o opCOLL o.seq.toNat (kRank k) 3 (kIndex k) code
        (peekN s.mem s.begin (bSrc o.desc + 256 * kIndex k) (4 * o.chunkSize (kIndex k))))).bump Reg.collResends := by
  have hfound : (s.begin.taken k).openings.find? (fun o => o.ctx == k.ctx && o.id == kId k && o.seq.toNat == kSeq k && o.kind == 1 &&
      (!o.ended || o.hasWords) && kRank k < o.count) = some o := by
    have honly' : (s.begin.taken k).openings = [o] := honly
    rw [honly']
    exact List.find?_cons_of_pos (by simp [hctx, hid, hseq, hkind, hended, hrank])
  obtain ⟨c, hclose, hstatus⟩ : ∃ c, o.close = some c ∧ c.status = 1 := by
    rw [Opening.complete] at hcomplete
    cases hc : o.close with
    | none => rw [hc] at hcomplete; exact absurd hcomplete (by decide)
    | some c => rw [hc] at hcomplete; exact ⟨c, rfl, by simpa using hcomplete⟩
  refine ⟨c.expcode, ?_⟩
  have hrange : (List.range (fld 2 18 1)).map (· + kIndex k) = [kIndex k] := by
    rw [show fld 2 18 1 = 1 by decide]
    simp
  have hsend : (s.begin.taken k).sendChunk s.mem o c.expcode (kIndex k) = (s.begin.taken k).sendPacket ((s.begin.taken k).collPacket o opCOLL
      o.seq.toNat (kRank k) 3 (kIndex k) c.expcode (peekN s.mem s.begin (bSrc o.desc + 256 * kIndex k) (4 * o.chunkSize (kIndex k)))) := by
    rw [Dev.sendChunk, engineRead_taken hreach, howner]
  unfold xCollResend
  rw [if_neg (by simp [hop, hty]), checked_ok hecrc]
  dsimp only
  rw [hfound]
  dsimp only
  rw [hclose]
  dsimp only
  rw [if_neg (by simp [hstatus]), haux, if_pos (by decide), if_neg (by simp [hended, hmask]), hrange,
    List.filter_cons_of_pos (by simp [hindex, howner]), List.filter_nil, Dev.each_cons, Dev.each_nil, hsend]

theorem collResend_sends (s : State) (k : Packet) (o : Opening) (honly : s.dev.openings = [o]) (hctx : o.ctx = k.ctx) (hid : o.id = kId k)
    (hseq : o.seq.toNat = kSeq k) (hop : k.opc = opCOLL) (hty : kType k = 6) (hecrc : k.ecrcOk = true) (hkind : o.kind = 1) (hended : o.ended = false)
    (hrank : kRank k < o.count) (hcomplete : o.complete = true) (haux : kAux k = 2) (hmask : o.inMask o.selfRank = true) (hindex : kIndex k < o.chunks)
    (howner : o.ownerOf (kIndex k) = kRank k) (haway : (o.members.getD (kRank k) 0).toNat ≠ s.dev.node)
    (hreach : EngineReaches s o.ctx (bSrc o.desc + 256 * kIndex k) (4 * o.chunkSize (kIndex k))) :
    Ends (.collResend k) s (fun u => ∃ p : Packet, u.dev.localOut = s.dev.localOut ++ [p] ∧
      IsPacketOf o p opCOLL (kRank k) 3 (kIndex k) (peekN s.mem s.begin (bSrc o.desc + 256 * kIndex k) (4 * o.chunkSize (kIndex k))) ∧
      u.dev.openings = s.dev.openings ∧ u.dev.count Reg.collResends = s.dev.count Reg.collResends + 1 ∧ u.mem = s.mem ∧ u.dev.regs = s.dev.regs) := by
  obtain ⟨code, hrun⟩ := collResend_run honly hctx hid hseq hop hty hecrc hkind hended hrank hcomplete haux hmask hindex howner hreach
  generalize peekN s.mem s.begin (bSrc o.desc + 256 * kIndex k) (4 * o.chunkSize (kIndex k)) = bs at hrun
  obtain ⟨p, hp⟩ : ∃ p, p = (s.begin.taken k).collPacket o opCOLL o.seq.toNat (kRank k) 3 (kIndex k) code bs := ⟨_, rfl⟩
  have hreads := (collPacket_reads (s.begin.taken k) o (op := opCOLL) (seq := o.seq.toNat) (k := kRank k) (ty := 3) (index := kIndex k) (aux := code) (data := bs)
    (by decide) (by decide) p.ecrc).1
  have hdst : p.dst ≠ (s.begin.taken k).node := by
    rw [hp, collPacket_dst]
    exact haway
  rw [← hp] at hrun hreads
  rw [sendPacket_away hdst] at hrun
  obtain ⟨hregs, hcounters, -, hsent, -, -, hstores, hwipes, -⟩ := taken_fields s.begin k
  have hopenings : (s.begin.taken k).openings = s.dev.openings := rfl
  generalize s.begin.taken k = d at hrun hregs hcounters hsent hstores hwipes hopenings
  refine ends_of_run (x := xCollResend k) rfl hrun ⟨_, congrArg (· ++ [p.withField 255 224 p.ecrc]) hsent, hreads, hopenings, ?_, State.commit_mem s _ hstores hwipes, hregs⟩
  refine (Dev.count_bump_same (d.withPackets (d.localOut ++ [p.withField 255 224 p.ecrc]) d.inbox) Reg.collResends).trans ?_
  exact congrArg (fun l => mget 0 l Reg.collResends + 1) hcounters

/-! RESEND_TIMER (R281). -/

theorem firstRun_nil : firstRun [] = none := rfl

theorem firstRun_cons (a : Nat) (l : List Nat) : ∃ p, firstRun (a :: l) = some p := ⟨_, rfl⟩

/-- What asks an owner again for what is missing of it. -/
def Dev.askOwner (d : Dev) (o : Opening) (k : Nat) : Dev :=
  let miss := ((List.range (o.shardAt (k + 1) - o.shardAt k)).map (· + o.shardAt k)).filter (fun i => !o.results.contains i)
  match firstRun miss with
  | some (a, n) => d.control o opCOLL o.seq.toNat k 6 a (2 * n + 1) []
  | none => if o.shards.any (fun s => s.rank == k) then d else d.control o opCOLL o.seq.toNat k 6 (o.shardAt k) 1 []

/-- Something is missing of an owner. -/
def Opening.misses (o : Opening) (k : Nat) : Bool :=
  (List.range (o.shardAt (k + 1) - o.shardAt k)).any (fun i => !o.results.contains (i + o.shardAt k)) || !o.shards.any (fun s => s.rank == k)

theorem chats_askOwner (d : Dev) (o : Opening) (k : Nat) : Chats d (d.askOwner o k) (if o.misses k then 1 else 0) := by
  unfold Dev.askOwner Opening.misses
  extract_lets miss
  cases hmiss : miss with
  | cons a l =>
    have hany : (List.range (o.shardAt (k + 1) - o.shardAt k)).any (fun i => !o.results.contains (i + o.shardAt k)) = true := by
      have ha : a ∈ miss := by rw [hmiss]; exact List.mem_cons_self ..
      obtain ⟨hin, hnot⟩ := List.mem_filter.mp ha
      obtain ⟨i, hi, rfl⟩ := List.mem_map.mp hin
      exact List.any_eq_true.mpr ⟨i, hi, hnot⟩
    obtain ⟨p, hp⟩ := firstRun_cons a l
    rw [hany, hp]
    exact chats_control d o _ _ _ _ _ _ _
  | nil =>
    have hnone : (List.range (o.shardAt (k + 1) - o.shardAt k)).any (fun i => !o.results.contains (i + o.shardAt k)) = false := by
      rw [Bool.eq_false_iff]
      intro hany
      obtain ⟨i, hi, hnot⟩ := List.any_eq_true.mp hany
      have hin : i + o.shardAt k ∈ miss := List.mem_filter.mpr ⟨List.mem_map.mpr ⟨i, hi, rfl⟩, hnot⟩
      rw [hmiss] at hin
      exact absurd hin (List.not_mem_nil)
    rw [firstRun_nil, hnone]
    dsimp only
    by_cases hheld : (o.shards.any (fun s => s.rank == k)) = true
    · rw [if_pos hheld, hheld]
      exact chats_refl d
    · rw [if_neg hheld, Bool.eq_false_iff.mpr hheld]
      exact chats_control d o _ _ _ _ _ _ _

/-- The count of the last RESULT exchanged. -/
def Opening.withLastResult (o : Opening) (t : BitVec 64) : Opening := { o with lastResult := t }

theorem resendTimer_run {c id : Nat} (hopen : d.openOf c id = some o) (hkind : o.kind = 1) (hcomplete : o.complete = true) (hsent : o.shardSent = true)
    (hdue : o.lastResult.toNat + d.rf (Reg.ctxCollCtrl c) 26 19 ≤ d.now) (m : Mem) :
    xResendTimer c id m d = (d.each o.others (fun d k => d.askOwner o k)).putOpening (o.withLastResult d.lode.count) := by
  obtain ⟨hopenings, -, -, -, -, -, -, hlode, -, -⟩ := (chats_each o.misses (fun d k => chats_askOwner d o k) d (l := o.others)).fields
  have hfound : (d.each o.others (fun d k => d.askOwner o k)).openOf c id = some o := by
    rw [Dev.openOf, hopenings]
    exact hopen
  unfold xResendTimer
  rw [hopen]
  dsimp only
  rw [if_neg (by simp [hkind, hcomplete])]
  simp only [hsent, Bool.true_or, if_true]
  rw [if_neg (by omega)]
  erw [hfound]
  rw [← hlode]
  rfl

theorem resendTimer_asks (s : State) (c : Fin 64) (id : BitVec 16) (o : Opening) (honly : s.dev.openings = [o])
    (hopen : s.dev.openOf c id.toNat = some o) (hkind : o.kind = 1) (hcomplete : o.complete = true) (hsent : o.shardSent = true)
    (hdue : o.lastResult.toNat + s.dev.rf (Reg.ctxCollCtrl c) 26 19 ≤ s.dev.now) :
    Ends (.resendTimer c id) s (fun u => u.dev.openings = [{ o with lastResult := s.dev.lode.count }] ∧
      u.dev.repeats.length = s.dev.repeats.length + (o.others.filter (fun r => (List.range (o.shardAt (r + 1) - o.shardAt r)).any
        (fun i => !o.results.contains (i + o.shardAt r)) || !o.shards.any (fun s => s.rank == r))).length ∧
      u.mem = s.mem ∧ u.dev.regs = s.dev.regs ∧ u.dev.counters = s.dev.counters) := by
  have hrun := resendTimer_run (d := s.begin) hopen hkind hcomplete hsent hdue s.mem
  obtain ⟨hopenings, hregs, hcounters, -, -, hstores, hwipes, -, hrepeats, -⟩ :=
    (chats_each o.misses (fun d k => chats_askOwner d o k) s.begin (l := o.others)).fields
  generalize s.begin.each o.others (fun d k => d.askOwner o k) = e at hrun hopenings hregs hcounters hstores hwipes hrepeats
  rw [putOpening_only (o := o.withLastResult s.begin.lode.count) (hopenings.trans honly) (same_refl o)] at hrun
  exact ends_of_run (x := xResendTimer c.val id.toNat) rfl hrun ⟨rfl, hrepeats, State.commit_mem s _ hstores hwipes, hregs, hcounters⟩

/-! WORD_FREE (R280). -/

/-- The words of a shard given back. -/
def Opening.withoutWords (o : Opening) : Opening := { o with hasWords := false, allocated := 0, words := [], sqs := [] }

/-- What stands of an opening whose words are free. -/
def Opening.freed (o : Opening) : List Opening := if o.ended && o.kind != 2 then [] else [o.withoutWords]

theorem dropOpening_freed (d : Dev) (o : Opening) : (d.withOpenings [o.withoutWords]).dropOpening o.withoutWords = d.withOpenings o.freed := by
  refine congrArg d.withOpenings ?_
  have hkeep : (!(o.withoutWords.same o.withoutWords && o.withoutWords.ended && !o.withoutWords.hasWords && o.withoutWords.kind != 2)) =
      !(o.ended && o.kind != 2) := by
    rw [same_refl]
    change (!(true && o.ended && !false && o.kind != 2)) = _
    rw [Bool.true_and, Bool.not_false, Bool.and_true]
  unfold Opening.freed
  by_cases hgone : (o.ended && o.kind != 2) = true
  · rw [if_pos hgone]
    exact List.filter_cons_of_neg (by rw [hkeep, hgone]; decide)
  · rw [if_neg hgone]
    exact List.filter_cons_of_pos (by rw [hkeep, Bool.eq_false_iff.mpr hgone]; rfl)

theorem wordFree_run {c id : Nat} {seq : BitVec 16} (honly : d.openings = [o]) (hctx : o.ctx = c) (hid : o.id = id) (hseq : o.seq = seq)
    (hhas : o.hasWords = true) (hsent : o.shardSent = true) (hdue : o.shardSentLt.toNat + d.rf (Reg.ctxCollCtrl c) 18 3 ≤ d.now) (m : Mem) :
    xWordFree c id seq m d = d.withOpenings o.freed := by
  have hfound : d.openings.find? (fun o => o.ctx == c && o.id == id && o.seq == seq && o.hasWords && o.shardSent) = some o := by
    rw [honly]
    exact List.find?_cons_of_pos (by simp [hctx, hid, hseq, hhas, hsent])
  have hput : d.putOpening o.withoutWords = d.withOpenings [o.withoutWords] := putOpening_only honly (same_refl o)
  have hnone : (o.freed).filter (fun x => x.kind == 1 && !x.ended && x.complete && !x.hasWords && !x.shardSent) = [] := by
    unfold Opening.freed
    split
    · rfl
    · exact List.filter_cons_of_neg (by simp [Opening.withoutWords, hsent])
  unfold xWordFree
  rw [hfound]
  dsimp only
  rw [if_neg (by omega)]
  change Dev.each ((d.putOpening o.withoutWords).dropOpening o.withoutWords)
    ((((d.putOpening o.withoutWords).dropOpening o.withoutWords).openings).filter _) _ = _
  rw [hput, dropOpening_freed, (withOpenings_fields _ _).1, hnone, Dev.each_nil]

theorem wordFree_frees (s : State) (c : Fin 64) (id seq : BitVec 16) (o : Opening) (honly : s.dev.openings = [o]) (hctx : o.ctx = c.val)
    (hid : o.id = id.toNat) (hseq : o.seq = seq) (hhas : o.hasWords = true) (hsent : o.shardSent = true)
    (hdue : o.shardSentLt.toNat + s.dev.rf (Reg.ctxCollCtrl c) 18 3 ≤ s.dev.now) :
    Ends (.wordFree c id seq) s (fun u => u.dev.wordsUsed = 0 ∧ (o.ended = true → o.kind ≠ 2 → u.dev.openings = []) ∧
      (o.ended = false → u.dev.openings = [{ o with hasWords := false, allocated := 0, words := [], sqs := [] }]) ∧
      u.mem = s.mem ∧ u.dev.regs = s.dev.regs ∧ u.dev.counters = s.dev.counters ∧ u.dev.ctxs = s.dev.ctxs) := by
  have hrun := wordFree_run (d := s.begin) (m := s.mem) honly hctx hid hseq hhas hsent hdue
  have hfreed : (o.freed.map (·.allocated)).sum = 0 := by
    unfold Opening.freed
    split <;> rfl
  have hgone : o.ended = true → o.kind ≠ 2 → o.freed = [] := fun hended hkind => if_pos (by simp [hended, hkind])
  have hstays : o.ended = false → o.freed = [o.withoutWords] := fun hended => if_neg (by simp [hended])
  change Ends _ s (fun u => _ ∧ _ ∧ (_ → u.dev.openings = [o.withoutWords]) ∧ _)
  generalize o.freed = l at hrun hfreed hgone hstays
  generalize o.withoutWords = x at hstays ⊢
  obtain ⟨hopenings, hregs, hcounters, -, hctxs, hstores, hwipes, -⟩ := withOpenings_fields s.begin l
  generalize s.begin.withOpenings l = e at hrun hopenings hregs hcounters hctxs hstores hwipes
  subst hopenings
  exact ends_of_run (x := xWordFree c.val id.toNat seq) rfl hrun ⟨hfreed, hgone, hstays, State.commit_mem s _ hstores hwipes, hregs, hcounters, hctxs⟩

/-- Settles O39: each step of a reduction bucket, from the poll of its ready array to the release of its words, by the command that
takes it (R271 to R274, R280 to R283, R289). -/
theorem bucketsAreReportedClosedAndReduced : Obligations.BucketsAreReportedClosedAndReduced :=
  ⟨readyPoll_polls, bucketScan_reports, bucketClose_incomplete, collReport_inTime, collReport_late, collReport_stale, collClose_segment, collClose_fails,
    collData_adds, collResult_stores, collShardDone_completes,
    fun s k o honly hctx hid hseq hop hty hecrc hkind hended hrank hcomplete haux hmask hindex howner haway hreach =>
      collResend_sends s k o honly hctx hid hseq hop hty hecrc hkind hended hrank hcomplete haux hmask hindex howner haway hreach,
    resendTimer_asks, dataLimit_ends, wordFree_frees, controlPacketRepeat_again, controlPacketRepeat_last⟩

end Sys2Proof.Machine
end

section
/-! Token exchanges and re-shards (R290 to R296). -/

namespace Sys2Proof.Machine

open Sys2Proof.Claims (Ends Quiet Holds SameMemBut NoBad Reaches EngineReaches BucketMem IsPacketOf Finds)

variable {r : Nat → Prop} {d e : Dev} {m : Mem} {o : Opening}

/-! COUNT (R291). -/

/-- The counts held of an opening exchanged. -/
def Opening.withCounts (o : Opening) (l : List CountIn) : Opening := { o with counts := l }

theorem countsHeld_unbegun {c id : Nat} (hopen : d.openOf c id = some o) (hbegun : o.begun = false) (m : Mem) : d.countsHeld m c id = d := by
  rw [Dev.countsHeld, hopen]
  exact if_pos (by simp [hbegun])

/-- The COUNT a packet brings. -/
def countIn (k : Packet) (u : Nat) : CountIn :=
  { use := u, rank := kRank k, counts := (List.range 64).map (fun s => leOf ((k.data.drop (2 * s)).take 2)),
    ret := BitVec.ofNat 64 (leOf ((k.data.drop 128).take 8)), crc := BitVec.ofNat 32 (leOf ((k.data.drop 136).take 4)) }

theorem countIn_reads (k : Packet) (u : Nat) : (countIn k u).use = u ∧ (countIn k u).rank = kRank k ∧
    (∀ j, j < 64 → (countIn k u).counts.getD j 0 = leOf ((k.data.drop (2 * j)).take 2)) ∧ (countIn k u).ret.toNat = leOf ((k.data.drop 128).take 8) := by
  refine ⟨rfl, rfl, fun j hj => ?_, ?_⟩
  · simp [countIn, List.getD_eq_getElem?_getD, hj]
  · have hlt : leOf ((k.data.drop 128).take 8) < 2 ^ 64 := by
      refine lt_of_lt_of_le (leOf_lt _) ?_
      rw [List.length_take]
      exact (Nat.pow_le_pow_right (n := 256) (by decide) (Nat.min_le_left 8 _)).trans (by decide)
    exact Nat.mod_eq_of_lt hlt

theorem tokxCount_run {s : State} {k : Packet} {n : Nat} (hop : k.opc = opTOKX) (hty : kType k = 1) (hecrc : k.ecrcOk = true)
    (hopen : s.dev.openOf k.ctx (kId k) = some o) (hkind : o.kind = 2) (hn : n = (kSeq k + 65536 - o.seq.toNat) % 65536) (huses : n < xUses o.desc)
    (huse : o.use ≤ n) (hrank : kRank k < o.count) (hbegun : o.begun = false) (hnew : o.counts.any (fun y => y.use == n && y.rank == kRank k) = false) :
    xTokxCount k s.mem s.begin = (s.begin.taken k).putOpening (o.withCounts (o.counts ++ [countIn k n])) := by
  obtain ⟨hctx, hid, hended⟩ := openOf_reads hopen
  have hopen' : (s.begin.taken k).openOf k.ctx (kId k) = some o := hopen
  have hput : ((s.begin.taken k).putOpening (o.withCounts (o.counts ++ [countIn k n]))).openOf o.ctx o.id =
      some (o.withCounts (o.counts ++ [countIn k n])) := openOf_putOpening (o := o) (by rw [hctx, hid]; exact hopen') (same_refl o) hended
  unfold xTokxCount
  rw [if_neg (by simp [hop, hty]), checked_ok hecrc]
  dsimp only
  rw [hopen']
  dsimp only
  rw [← hn, if_neg (by simp [hkind]; omega), if_neg (by rw [hnew]; decide)]
  exact countsHeld_unbegun hput hbegun s.mem

theorem tokxCount_held (s : State) (k : Packet) (o : Opening) (n : Nat) (hop : k.opc = opTOKX) (hty : kType k = 1) (hecrc : k.ecrcOk = true)
    (hopen : s.dev.openOf k.ctx (kId k) = some o) (hkind : o.kind = 2) (hn : n = (kSeq k + 65536 - o.seq.toNat) % 65536) (huses : n < xUses o.desc)
    (huse : o.use ≤ n) (hrank : kRank k < o.count) (hbegun : o.begun = false) (hnew : o.counts.any (fun y => y.use == n && y.rank == kRank k) = false) :
    Ends (.tokxCount k) s (fun u => ∃ y : CountIn, u.dev.openings = (s.dev.putOpening { o with counts := o.counts ++ [y] }).openings ∧ y.use = n ∧
      y.rank = kRank k ∧ (∀ j, j < 64 → y.counts.getD j 0 = leOf ((k.data.drop (2 * j)).take 2)) ∧ y.ret.toNat = leOf ((k.data.drop 128).take 8) ∧
      u.mem = s.mem ∧ u.dev.regs = s.dev.regs ∧ u.dev.counters = s.dev.counters) := by
  have hrun := tokxCount_run hop hty hecrc hopen hkind hn huses huse hrank hbegun hnew
  obtain ⟨huse', hrank', hcounts, hret⟩ := countIn_reads k n
  obtain ⟨hstores, hwipes, hregs, hcounters, -, -, hopenings⟩ := putTaken_fields s k (o.withCounts (o.counts ++ [countIn k n]))
  generalize (s.begin.taken k).putOpening (o.withCounts (o.counts ++ [countIn k n])) = e at hrun hstores hwipes hregs hcounters hopenings
  exact ends_of_run (x := xTokxCount k) rfl hrun ⟨countIn k n, hopenings, huse', hrank', hcounts, hret, State.commit_mem s _ hstores hwipes, hregs, hcounters⟩

theorem tokxCount_stale (s : State) (k : Packet) (o : Opening) (hop : k.opc = opTOKX) (hty : kType k = 1) (hecrc : k.ecrcOk = true)
    (hopen : s.dev.openOf k.ctx (kId k) = some o) (hkind : o.kind = 2) (hpast : (kSeq k + 65536 - o.seq.toNat) % 65536 < o.use) :
    Quiet (.tokxCount k) s ((s.begin.taken k).bump Reg.collStaleDrop) := by
  have hopen' : (s.begin.taken k).openOf k.ctx (kId k) = some o := hopen
  refine quiet_of_run (x := xTokxCount k) rfl ?_ rfl rfl
  unfold xTokxCount
  rw [if_neg (by simp [hop, hty]), checked_ok hecrc]
  dsimp only
  rw [hopen']
  exact if_pos (by simp [hkind]; omega)

/-! OFFSET and DONE (R291, R292). -/

/-- A use whose DONE has not been sent, with rows still owed to a rank, or a group not written, does not advance. -/
theorem tokxAdvance_stays {c id : Nat} (hopen : d.openOf c id = some o) (hsent : o.doneSent = false)
    (howed : (o.ackFailed || !((List.range o.count).all o.rowsTo.contains)) = true) (m : Mem) : d.tokxAdvance m c id = d := by
  rw [Dev.tokxAdvance, hopen]
  dsimp only
  split
  · rfl
  · have hstill : (o.doneSent || o.ackFailed || !((List.range o.count).all o.rowsTo.contains) || d.outstanding .tokx c id) = true := by
      rw [hsent, Bool.false_or, howed, Bool.true_or]
    rw [if_pos hstill, hopen]
    exact if_neg (by simp [hsent])

theorem rows_owed {k : Nat} (hrank : k < o.count) (hnew : o.rowsTo.contains k = false) : (o.ackFailed || !((List.range o.count).all o.rowsTo.contains)) = true := by
  have hsome : (List.range o.count).all o.rowsTo.contains = false := List.all_eq_false.mpr ⟨k, List.mem_range.mpr hrank, by rw [hnew]; decide⟩
  rw [hsome, Bool.not_false, Bool.or_true]

theorem sendRows_unplaced {k : Nat} (h : mfind o.offsets k = none ∨ mfind o.recvBase k = none) (m : Mem) : d.sendRows m o k = d := by
  unfold Dev.sendRows
  rcases h with h | h
  · rw [h]
  · rw [h]
    cases mfind o.offsets k <;> rfl

theorem tokxOffset_run {s : State} {k : Packet} {x : Opening} (h : Finds s k opTOKX 2 o o.useSeq) (hkind : o.kind = 2) (hbegun : o.begun = true)
    (hsent : o.doneSent = false) (hnew : o.rowsTo.contains (kRank k) = false)
    (hx : (if kIndex k = 0 then { o with offsets := mset o.offsets (kRank k) ((List.range 64).map (fun s => leOf ((k.data.drop (4 * s)).take 4))) }
      else { o with recvBase := mset o.recvBase (kRank k) (leOf (k.data.take 8) % 2 ^ 41) }) = x)
    (hfields : o.same x = true ∧ x.ended = o.ended ∧ x.doneSent = o.doneSent ∧ x.count = o.count ∧ x.rowsTo = o.rowsTo)
    (hunplaced : mfind x.offsets (kRank k) = none ∨ mfind x.recvBase (kRank k) = none) :
    xTokxOffset k s.mem s.begin = (s.begin.taken k).putOpening x := by
  obtain ⟨hop, hty, hecrc, hopen, hkseq, hrank⟩ := id h
  obtain ⟨hctx, hid, hended⟩ := openOf_reads hopen
  obtain ⟨hsame, hxended, hxsent, hxcount, hxrows⟩ := hfields
  have hput : ((s.begin.taken k).putOpening x).openOf o.ctx o.id = some x := openOf_putOpening (openOf_taken h) hsame (hxended.trans hended)
  have hkeys : x.ctx = o.ctx ∧ x.id = o.id := by
    simp only [Opening.same, Bool.and_eq_true, beq_iff_eq] at hsame
    exact ⟨hsame.1.1.symm, hsame.1.2.symm⟩
  rw [xTokxOffset, collTake_found h (by simp [hkind])]
  dsimp only
  rw [if_neg (by simp [hkind, hbegun]), hx, sendRows_unplaced hunplaced, hkeys.1, hkeys.2]
  exact tokxAdvance_stays hput (hxsent.trans hsent) (rows_owed (by rw [hxcount]; exact hrank) (by rw [hxrows]; exact hnew)) s.mem

theorem putTaken_quiet {i : Instr} {s : State} {k : Packet} {x : Opening} {f : Effect} (hexec : exec i s = s.run f)
    (hrun : f s.mem s.begin = (s.begin.taken k).putOpening x) : Quiet i s ((s.begin.taken k).putOpening x) := by
  obtain ⟨hstores, hwipes, -⟩ := putTaken_fields s k x
  exact quiet_of_run hexec hrun hstores hwipes

theorem tokxOffset_offsets (s : State) (k : Packet) (o : Opening) (h : Finds s k opTOKX 2 o o.useSeq) (hkind : o.kind = 2) (hbegun : o.begun = true)
    (hindex : kIndex k = 0) (hbase : mfind o.recvBase (kRank k) = none) (hsent : o.doneSent = false) (hnew : o.rowsTo.contains (kRank k) = false) :
    Quiet (.tokxOffset k) s ((s.begin.taken k).putOpening
      { o with offsets := mset o.offsets (kRank k) ((List.range 64).map (fun j => leOf ((k.data.drop (4 * j)).take 4))) }) :=
  putTaken_quiet rfl (tokxOffset_run h hkind hbegun hsent hnew (if_pos hindex) ⟨same_refl o, rfl, rfl, rfl, rfl⟩ (.inr hbase))

theorem tokxOffset_base (s : State) (k : Packet) (o : Opening) (h : Finds s k opTOKX 2 o o.useSeq) (hkind : o.kind = 2) (hbegun : o.begun = true)
    (hindex : kIndex k ≠ 0) (hoffsets : mfind o.offsets (kRank k) = none) (hsent : o.doneSent = false) (hnew : o.rowsTo.contains (kRank k) = false) :
    Quiet (.tokxOffset k) s ((s.begin.taken k).putOpening { o with recvBase := mset o.recvBase (kRank k) (leOf (k.data.take 8) % 2 ^ 41) }) :=
  putTaken_quiet rfl (tokxOffset_run h hkind hbegun hsent hnew (if_neg hindex) ⟨same_refl o, rfl, rfl, rfl, rfl⟩ (.inl hoffsets))

/-- The ranks whose DONE is held exchanged. -/
def Opening.withDones (o : Opening) (l : List Nat) : Opening := { o with dones := l }

theorem tokxDone_take {s : State} {k : Packet} (h : Finds s k opTOKX 3 o o.useSeq) (hkind : o.kind = 2)
    (hnew : o.dones.contains (o.use * 65536 + kRank k) = false) :
    xTokxDone k s.mem s.begin = ((s.begin.taken k).putOpening (o.withDones ((o.use * 65536 + kRank k) :: o.dones))).tokxAdvance s.mem o.ctx o.id ∧
    ((s.begin.taken k).putOpening (o.withDones ((o.use * 65536 + kRank k) :: o.dones))).openOf o.ctx o.id =
      some (o.withDones ((o.use * 65536 + kRank k) :: o.dones)) := by
  obtain ⟨-, -, -, hopen, -, -⟩ := id h
  obtain ⟨-, -, hended⟩ := openOf_reads hopen
  refine ⟨?_, openOf_putOpening (o := o) (openOf_taken h) (same_refl o) hended⟩
  rw [xTokxDone, collTake_found h (by simp [hkind])]
  exact if_neg (by rw [hkind, hnew]; decide)

theorem tokxDone_held (s : State) (k : Packet) (o : Opening) (h : Finds s k opTOKX 3 o o.useSeq) (hkind : o.kind = 2)
    (hnew : o.dones.contains (o.use * 65536 + kRank k) = false) (hsent : o.doneSent = false) (hfailed : o.ackFailed = true) :
    Quiet (.tokxDone k) s ((s.begin.taken k).putOpening { o with dones := (o.use * 65536 + kRank k) :: o.dones }) := by
  obtain ⟨hrun, hput⟩ := tokxDone_take h hkind hnew
  refine putTaken_quiet (f := xTokxDone k) rfl (hrun.trans (tokxAdvance_stays hput hsent ?_ s.mem))
  exact (congrArg (· || _) hfailed).trans (Bool.true_or _)

/-! How a use of an exchange, or a re-shard, ends (R290, R292, R296, R297). -/

/-- Where the record of a use, and the ready array of an exchange, lie. -/
def usePlaces (o : Opening) (a : Nat) : Prop :=
  (descRec o.desc ≤ a ∧ a < descRec o.desc + 32) ∨ (o.kind = 2 ∧ xReady o.desc ≤ a ∧ a < xReady o.desc + 8 * xParts o.desc)

/-- An opening after a use of it. -/
def Opening.afterUse (o : Opening) (status : Nat) : Opening :=
  { o with use := if o.kind != 2 || xUses o.desc ≤ o.use + 1 then o.use else o.use + 1, ended := o.kind != 2 || xUses o.desc ≤ o.use + 1,
           begun := false, ready := false, offsetsSent := false, offsets := [], recvBase := [], rowsTo := [], doneSent := false,
           ackFailed := false, sent := 0, dropped := 0,
           pastUses := if o.kind = 2 && status = 1 then mset o.pastUses o.use (xEntries o.desc - o.dropped) else o.pastUses, staged := [] }

theorem afterUse_fields (o : Opening) (status : Nat) : o.same (o.afterUse status) = true ∧ (o.afterUse status).begun = false ∧
    (o.afterUse status).dropped = 0 ∧ ((o.afterUse status).use = o.use + 1 ∨ (o.afterUse status).ended = true) ∧
    (o.afterUse status).hasWords = o.hasWords ∧ (o.afterUse status).kind = o.kind ∧ (o.kind ≠ 2 → (o.afterUse status).ended = true) := by
  refine ⟨same_refl o, rfl, rfl, ?_, rfl, rfl, fun hkind => by simp [Opening.afterUse, hkind]⟩
  by_cases hlast : (o.kind != 2 || decide (xUses o.desc ≤ o.use + 1)) = true
  · exact .inr hlast
  · exact .inl (if_neg hlast)

/-- The record of a use is written. -/
def Dev.useWritten (d : Dev) (m : Mem) (o : Opening) (status received : Nat) : Dev :=
  (d.retireTags (fun t => (t.purpose == .tokx || t.purpose == .permute) && t.a == o.ctx && t.b == o.id && !t.reserved)).engineWrite m o.ctx
    (descRec o.desc) (toLE 32 ((d.retireTags (fun t => (t.purpose == .tokx || t.purpose == .permute) && t.a == o.ctx && t.b == o.id && !t.reserved)).exchangeRecord
      o status received))

/-- The ready array of an exchange is cleared, and the event goes out. -/
def Dev.useSignalled (d : Dev) (m : Mem) (o : Opening) (status : Nat) : Dev :=
  (if o.kind = 2 then d.engineWrite m o.ctx (xReady o.desc) (List.replicate (8 * xParts o.desc) 0) else d).collEvent o status

theorem endUse_eq (d : Dev) (m : Mem) (o : Opening) (status received : Nat) : d.endUse m o status received =
    ((((if status = 1 then (d.useWritten m o status received).notify o.ctx (descTiles o.desc) (descSem o.desc)
      else (d.useWritten m o status received).bump Reg.collIncomplete).useSignalled m o status).putOpening (o.afterUse status))).dropOpening o := rfl

theorem calm_useWritten (d : Dev) (m : Mem) {o : Opening} (hctx : o.ctx < 64) (status received : Nat) (hbursts : d.badBursts = [])
    (hwords : ∀ t, (d.tile t).badWords = []) : Calm (usePlaces o) d (d.useWritten m o status received) :=
  (calm_retireTags _ d _).trans (calm_engineWrite _ m hctx hbursts hwords fun i hi => .inl (by rw [toLE_length] at hi; omega))

theorem calm_useSignalled (d : Dev) (m : Mem) {o : Opening} (hctx : o.ctx < 64) (status : Nat) (hbursts : d.badBursts = [])
    (hwords : ∀ t, (d.tile t).badWords = []) : Calm (usePlaces o) d (d.useSignalled m o status) := by
  unfold Dev.useSignalled
  refine Calm.trans ?_ (calm_collEvent _ _ hctx status)
  split
  case isTrue hkind =>
    refine calm_engineWrite d m hctx hbursts hwords fun i hi => .inr ⟨hkind, ?_⟩
    rw [List.length_replicate] at hi
    omega
  case isFalse => exact .refl _ d

/-- What stands of the only opening after a use of it. -/
def Opening.leftOfUse (o : Opening) (status : Nat) : List Opening :=
  if (o.afterUse status).ended && !o.hasWords && o.kind != 2 then [] else [o.afterUse status]

theorem dropUse_only (honly : d.openings = [o]) (status : Nat) : (d.putOpening (o.afterUse status)).dropOpening o = d.withOpenings (o.leftOfUse status) := by
  obtain ⟨hsame, -, -, -, hhas, hkind, -⟩ := afterUse_fields o status
  have hback : (o.afterUse status).same o = true := by
    simp only [Opening.same, Bool.and_eq_true, beq_iff_eq] at hsame ⊢
    exact ⟨⟨hsame.1.1.symm, hsame.1.2.symm⟩, hsame.2.symm⟩
  rw [putOpening_only honly hsame]
  refine congrArg d.withOpenings ?_
  have hkeep : (!((o.afterUse status).same o && (o.afterUse status).ended && !(o.afterUse status).hasWords && (o.afterUse status).kind != 2)) =
      !((o.afterUse status).ended && !o.hasWords && o.kind != 2) := by rw [hback, hhas, hkind, Bool.true_and]
  unfold Opening.leftOfUse
  by_cases hgone : ((o.afterUse status).ended && !o.hasWords && o.kind != 2) = true
  · rw [if_pos hgone]
    exact List.filter_cons_of_neg (by rw [hkeep, hgone]; decide)
  · rw [if_neg hgone]
    exact List.filter_cons_of_pos (by rw [hkeep, Bool.eq_false_iff.mpr hgone]; rfl)

theorem mem_leftOfUse {status : Nat} {x : Opening} (h : x ∈ o.leftOfUse status) : x = o.afterUse status := by
  unfold Opening.leftOfUse at h
  split at h
  · exact absurd h (List.not_mem_nil)
  · exact List.mem_singleton.mp h

/-- The only opening's use ends with a status other than COMPLETE. -/
theorem calm_endUse_fails {status received : Nat} (honly : d.openings = [o]) (hctx : o.ctx < 64) (hfails : status ≠ 1) (hbursts : d.badBursts = [])
    (hwords : ∀ t, (d.tile t).badWords = []) :
    Calm (usePlaces o) ((d.withOpenings (o.leftOfUse status)).bumpN Reg.collIncomplete 1) (d.endUse m o status received) := by
  have hwritten := calm_useWritten d m hctx status received hbursts hwords
  rw [endUse_eq, if_neg hfails]
  generalize d.useWritten m o status received = d1 at hwritten
  have hsignalled := calm_useSignalled (d1.bump Reg.collIncomplete) m hctx status (hwritten.fields.2.2.1.trans hbursts)
    (fun t => (congrArg Tile.badWords (hwritten.tile t)).trans (hwords t))
  have hboth := (hwritten.bumpN Reg.collIncomplete 1).trans hsignalled
  rw [dropUse_only (hboth.fields.2.2.2.1.trans honly)]
  exact hboth.withOpenings _

theorem setSem_badWords (d : Dev) (t n u j : Nat) : ((d.setSem t n u).tile j).badWords = (d.tile j).badWords := by
  unfold Dev.setSem
  rw [Dev.tile_setTile]
  split
  case isTrue hj => rw [← hj]
  case isFalse => rfl

theorem notify_badWords (d : Dev) (c tiles sem j : Nat) : ((d.notify c tiles sem).tile j).badWords = (d.tile j).badWords :=
  Dev.each_frame (fun d : Dev => (d.tile j).badWords) _ (fun d t => setSem_badWords d t sem _ j) d

/-- The only opening's use is complete. -/
theorem calm_endUse_complete {received : Nat} (honly : d.openings = [o]) (hctx : o.ctx < 64) (hbursts : d.badBursts = [])
    (hwords : ∀ t, (d.tile t).badWords = []) : ∃ l,
    Calm (usePlaces o) ((d.withOpenings (o.leftOfUse 1)).withTiles l) (d.endUse m o 1 received) := by
  have hwritten := calm_useWritten d m hctx 1 received hbursts hwords
  rw [endUse_eq, if_pos rfl]
  generalize d.useWritten m o 1 received = d1 at hwritten
  obtain ⟨l, hl⟩ := notify_tiles d1 o.ctx (descTiles o.desc) (descSem o.desc)
  have hwords' : ∀ t, ((d1.withTiles l).tile t).badWords = [] := fun t => by
    rw [← hl, notify_badWords]
    exact (congrArg Tile.badWords (hwritten.tile t)).trans (hwords t)
  have hsignalled := calm_useSignalled (d1.withTiles l) m hctx 1 (hwritten.fields.2.2.1.trans hbursts) hwords'
  have hboth := (hwritten.withTiles l).trans hsignalled
  refine ⟨l, ?_⟩
  rw [hl, dropUse_only (hboth.fields.2.2.2.1.trans honly)]
  exact hboth.withOpenings _

end Sys2Proof.Machine
end

section
/-! Token exchanges and re-shards: DONE and ABORT, the start of a use, and the rounds of a re-shard (R290 to R296). -/

namespace Sys2Proof.Machine

open Sys2Proof.Claims (Ends Quiet Holds SameMemBut NoBad Reaches EngineReaches BucketMem IsPacketOf Finds)

variable {r : Nat → Prop} {d e : Dev} {m : Mem} {o : Opening}

/-! DONE of the last rank ends a use (R292). -/

theorem tokxDone_endUse {s : State} {k : Packet} (honly : s.dev.openings = [o]) (h : Finds s k opTOKX 3 o o.useSeq) (hkind : o.kind = 2)
    (hbegun : o.begun = true) (hnew : o.dones.contains (o.use * 65536 + kRank k) = false) (hsent : o.doneSent = true)
    (hothers : ∀ r, r < o.count → r ≠ kRank k → o.dones.contains (o.use * 65536 + r) = true) :
    ∃ (x : Opening) (n : Nat), xTokxDone k s.mem s.begin = ((s.begin.taken k).withOpenings [x]).endUse s.mem x 1 n ∧ x.ctx = o.ctx ∧ x.use = o.use ∧
      usePlaces x = usePlaces o := by
  obtain ⟨hrun, hput⟩ := tokxDone_take h hkind hnew
  refine ⟨o.withDones ((o.use * 65536 + kRank k) :: o.dones),
    ((s.begin.taken k).withOpenings [o.withDones ((o.use * 65536 + kRank k) :: o.dones)]).received (o.withDones ((o.use * 65536 + kRank k) :: o.dones)),
    ?_, rfl, rfl, rfl⟩
  have hkeep : (s.begin.taken k).putOpening (o.withDones ((o.use * 65536 + kRank k) :: o.dones)) =
      (s.begin.taken k).withOpenings [o.withDones ((o.use * 65536 + kRank k) :: o.dones)] := putOpening_only honly (same_refl o)
  have hall : (List.range o.count).all (fun r => (o.withDones ((o.use * 65536 + kRank k) :: o.dones)).dones.contains (o.use * 65536 + r)) = true := by
    rw [List.all_eq_true]
    intro r hr
    by_cases hrk : r = kRank k
    · simp [Opening.withDones, hrk]
    · have hheld := hothers r (List.mem_range.mp hr) hrk
      simp only [Opening.withDones, List.contains_cons, hheld, Bool.or_true]
  have hdone : ((o.withDones ((o.use * 65536 + kRank k) :: o.dones)).doneSent &&
      (List.range o.count).all (fun r => (o.withDones ((o.use * 65536 + kRank k) :: o.dones)).dones.contains (o.use * 65536 + r))) = true :=
    (congrArg₂ and hsent hall).trans rfl
  rw [hkeep] at hput hrun
  generalize hx : o.withDones ((o.use * 65536 + kRank k) :: o.dones) = x at hput hrun hdone
  have hfields : x.kind = 2 ∧ x.begun = true ∧ x.doneSent = true ∧ x.count = o.count ∧ x.use = o.use := by
    rw [← hx]
    exact ⟨hkind, hbegun, hsent, rfl, rfl⟩
  obtain ⟨hxkind, hxbegun, hxsent, hxcount, hxuse⟩ := hfields
  rw [← hxcount, ← hxuse] at hdone
  rw [hrun, Dev.tokxAdvance, hput]
  dsimp only
  rw [if_neg (by simp [hxkind, hxbegun]), if_pos (by simp [hxsent]), hput]
  exact if_pos hdone

theorem tokxDone_ends (s : State) (k : Packet) (o : Opening) (honly : s.dev.openings = [o]) (h : Finds s k opTOKX 3 o o.useSeq) (hkind : o.kind = 2)
    (hbegun : o.begun = true) (hnew : o.dones.contains (o.use * 65536 + kRank k) = false) (hsent : o.doneSent = true) (hgood : NoBad s)
    (hothers : ∀ r, r < o.count → r ≠ kRank k → o.dones.contains (o.use * 65536 + r) = true) :
    Ends (.tokxDone k) s (fun u => (∀ x, x ∈ u.dev.openings → x.begun = false ∧ x.dropped = 0 ∧ (x.use = o.use + 1 ∨ x.ended = true)) ∧
      u.dev.count Reg.collIncomplete = s.dev.count Reg.collIncomplete ∧ u.dev.regs = s.dev.regs ∧
      (∀ a, (a < descRec o.desc ∨ descRec o.desc + 32 ≤ a) → (a < xReady o.desc ∨ xReady o.desc + 8 * xParts o.desc ≤ a) → u.read a = s.read a)) := by
  obtain ⟨hbursts, hwords⟩ := hgood
  obtain ⟨-, -, -, hopen, -, -⟩ := id h
  obtain ⟨hctx, -, -⟩ := openOf_reads hopen
  obtain ⟨x, n, hrun, hxctx, hxuse, hplaces⟩ := tokxDone_endUse honly h hkind hbegun hnew hsent hothers
  obtain ⟨l, hcalm⟩ := calm_endUse_complete (d := (s.begin.taken k).withOpenings [x]) (o := x) (m := s.mem) (received := n) rfl
    (by rw [hxctx, hctx]; exact fb_lt_two_pow _ _ _) hbursts hwords
  rw [hplaces] at hcalm
  generalize ((s.begin.taken k).withOpenings [x]).endUse s.mem x 1 n = v at hrun hcalm
  have hleft : ∀ y ∈ x.leftOfUse 1, y.begun = false ∧ y.dropped = 0 ∧ (y.use = o.use + 1 ∨ y.ended = true) := fun y hy => by
    obtain ⟨-, hb, hd, hu, -⟩ := afterUse_fields x 1
    rw [mem_leftOfUse hy, ← hxuse]
    exact ⟨hb, hd, hu⟩
  generalize x.leftOfUse 1 = q at hcalm hleft
  obtain ⟨hregs, hcounters, -, -, -, -, hstores, hwipes, -⟩ := taken_fields s.begin k
  generalize s.begin.taken k = d at hcalm hregs hcounters hstores hwipes
  obtain ⟨hr, -, -, ho, -⟩ := hcalm.fields
  have hread := (commit_of_calm (s := s) hcalm hstores hwipes).1
  refine ends_of_run (x := xTokxDone k) rfl hrun ⟨fun y hy => hleft y (by rw [show (s.commit v).dev.openings = q from ho] at hy; exact hy), ?_, hr.trans hregs,
    fun a hrec hready => hread a ?_⟩
  · exact (hcalm.count _ steady_collIncomplete).trans (congrArg (fun l => mget 0 l Reg.collIncomplete) hcounters)
  · rintro (hin | ⟨-, hin⟩) <;> omega

/-! ABORT (R291, R295). -/

/-- The status that an ABORT carries; PEER_ABORT for one Table 9.6 has not. -/
def abortStatus (k : Packet) : Nat := if 2 ≤ kAux k % 16 && kAux k % 16 ≤ 0xA then kAux k % 16 else 0xA

theorem abortStatus_fails (k : Packet) : abortStatus k ≠ 1 := by
  unfold abortStatus
  split
  case isTrue h =>
    rw [Bool.and_eq_true, decide_eq_true_eq] at h
    omega
  case isFalse => decide

theorem collAbort_run {s : State} {k : Packet} (h : Finds s k opCOLL 9 o o.seq.toNat) (hkind : o.kind ≠ 2) : xCollAbort k s.mem s.begin =
    if o.kind = 1 then (s.begin.taken k).endBucket s.mem o (abortStatus k) else (s.begin.taken k).endUse s.mem o (abortStatus k) 0 := by
  rw [xCollAbort, collTake_found h (by simp [hkind])]
  rfl

theorem collAbort_bucket (s : State) (k : Packet) (o : Opening) (honly : s.dev.openings = [o]) (h : Finds s k opCOLL 9 o o.seq.toNat) (hkind : o.kind = 1)
    (hrecorded : o.recorded = false) (hgood : NoBad s) :
    Ends (.collAbort k) s (fun u => u.dev.openOf k.ctx (kId k) = none ∧ u.dev.count Reg.collIncomplete = s.dev.count Reg.collIncomplete + 1 ∧
      BucketMem s u o ∧ u.dev.regs = s.dev.regs ∧ u.dev.tiles = s.dev.tiles) := by
  obtain ⟨hbursts, hwords⟩ := hgood
  obtain ⟨-, -, -, hopen, -, -⟩ := id h
  obtain ⟨hctx, -, -⟩ := openOf_reads hopen
  have hrun := (collAbort_run h (by rw [hkind]; decide)).trans (if_pos hkind)
  have hcalm := calm_endBucket_fails (d := s.begin.taken k) (m := s.mem) (o := o) honly hkind (by rw [hctx]; exact fb_lt_two_pow _ _ _) hrecorded
    (abortStatus_fails k) hbursts hwords
  obtain ⟨hregs, hcounters, htiles, -, -, -, hstores, hwipes, -⟩ := taken_fields s.begin k
  exact ends_of_bucketCounted (f := xCollAbort k) rfl hrun hcalm (remains_ended _) ⟨hregs, htiles, hcounters, hstores, hwipes⟩

theorem collAbort_reshard (s : State) (k : Packet) (o : Opening) (honly : s.dev.openings = [o]) (h : Finds s k opCOLL 9 o o.seq.toNat) (hkind : o.kind = 3)
    (hgood : NoBad s) :
    Ends (.collAbort k) s (fun u => u.dev.openings = (if o.hasWords then u.dev.openings else []) ∧ u.dev.openOf k.ctx (kId k) = none ∧
      u.dev.count Reg.collIncomplete = s.dev.count Reg.collIncomplete + 1 ∧ SameMemBut s u (descRec o.desc) 32 ∧ u.dev.regs = s.dev.regs ∧
      u.dev.tiles = s.dev.tiles) := by
  obtain ⟨hbursts, hwords⟩ := hgood
  obtain ⟨-, -, -, hopen, -, -⟩ := id h
  obtain ⟨hctx, -, -⟩ := openOf_reads hopen
  have hrun := (collAbort_run h (by rw [hkind]; decide)).trans (if_neg (by rw [hkind]; decide))
  have hcalm := calm_endUse_fails (d := s.begin.taken k) (m := s.mem) (o := o) (received := 0) honly (by rw [hctx]; exact fb_lt_two_pow _ _ _)
    (abortStatus_fails k) hbursts hwords
  obtain ⟨-, -, -, -, -, -, hends⟩ := afterUse_fields o (abortStatus k)
  have hended : (o.afterUse (abortStatus k)).ended = true := hends (by rw [hkind]; decide)
  have hleft : ∀ y ∈ o.leftOfUse (abortStatus k), y.ended = true := fun y hy => by rw [mem_leftOfUse hy, hended]
  have hgone : o.leftOfUse (abortStatus k) = if o.hasWords then o.leftOfUse (abortStatus k) else [] := by
    cases hhas : o.hasWords with
    | true => rfl
    | false => exact if_pos (by simp [hended, hhas, hkind])
  generalize o.leftOfUse (abortStatus k) = q at hcalm hleft hgone
  obtain ⟨hregs, hcounters, htiles, -, -, -, hstores, hwipes, -⟩ := taken_fields s.begin k
  generalize (s.begin.taken k).endUse s.mem o (abortStatus k) 0 = v at hrun hcalm
  generalize s.begin.taken k = d at hcalm hregs hcounters htiles hstores hwipes
  obtain ⟨hr, ht, -, ho, -⟩ := hcalm.fields
  have hread := (commit_of_calm (s := s) hcalm hstores hwipes).1
  have hopenings : v.openings = q := ho
  have hfinal : v.openings = if o.hasWords then v.openings else [] := by rw [hopenings]; exact hgone
  refine ends_of_run (x := xCollAbort k) rfl hrun ⟨hfinal, openOf_ended (d := (s.commit v).dev) hopenings hleft _ _, ?_, fun a hout => hread a ?_,
    hr.trans hregs, ht.trans htiles⟩
  · refine (hcalm.count _ steady_collIncomplete).trans ((Dev.count_bump_same _ _).trans ?_)
    exact congrArg (fun l => mget 0 l Reg.collIncomplete + 1) hcounters
  · rintro (hin | ⟨htwo, -⟩)
    · omega
    · omega

/-! The start of a use (R290, R291). -/

/-- The opening of a use that has begun. -/
def Opening.begunAt (o : Opening) (t : BitVec 64) : Opening := { o with begun := true, useLt := t }

/-- The own COUNT of a use that routes nothing. -/
def emptyCount (o : Opening) (crc : Nat) : CountIn :=
  { use := o.use, rank := o.selfRank, counts := List.replicate 64 0, ret := BitVec.ofNat 64 (xRet o.desc), crc := BitVec.ofNat 32 crc }

theorem emptyCount_ret (o : Opening) (crc : Nat) : (emptyCount o crc).ret.toNat = xRet o.desc := by
  have hlt : xRet o.desc < 2 ^ 64 := (Nat.mod_lt _ (by decide)).trans (by decide)
  exact Nat.mod_eq_of_lt hlt

theorem placementCrc_congr (m : Mem) (hstores : d.stores = e.stores) (hwipes : d.wipes = e.wipes) (x : Desc) : placementCrc m d x = placementCrc m e x := by
  rw [placementCrc, placementCrc, peekN_congr hstores hwipes]

theorem countsHeld_waits {c id : Nat} {y : CountIn} (hopen : d.openOf c id = some o) (hcounts : o.counts = [y]) (huse : y.use = o.use)
    (hrank : y.rank = o.selfRank) (hcrc : y.crc.toNat = placementCrc m d o.desc) (hoffsets : o.offsetsSent = false) (hcount : 2 ≤ o.count) :
    d.countsHeld m c id = d := by
  have hmine : o.counts.filter (fun y => y.use == o.use) = [y] := by simp [hcounts, huse]
  have hmore : (List.range o.count).all (fun r => [y].any (fun y => y.rank == r)) = false := by
    rw [List.all_eq_false]
    by_cases hzero : o.selfRank = 0
    · exact ⟨1, List.mem_range.mpr (by omega), by simp [hrank, hzero]⟩
    · exact ⟨0, List.mem_range.mpr (by omega), by simp [hrank, hzero]⟩
  rw [Dev.countsHeld, hopen]
  dsimp only
  split
  · rfl
  · rw [hmine, if_neg (by simp [hcrc]), if_pos (by rw [hmore, hoffsets]; rfl)]

theorem entriesFor_nil (k s : Nat) : entriesFor [] k s = [] := rfl

/-- The COUNT of a use that routes nothing, sent to the other ranks. -/
def Dev.sendCounts (d : Dev) (o : Opening) (crc : Nat) : Dev :=
  d.each o.others (fun d k => d.control o opTOKX o.useSeq k 1 0 0
    ((((List.range 64).map (fun _ => 0)).map (toLE 2)).flatten ++ toLE 8 (xRet o.desc) ++ toLE 4 crc))

theorem chats_sendCounts (d : Dev) (o : Opening) (crc : Nat) : Chats d (d.sendCounts o crc) o.others.length := by
  have hall : o.others.filter (fun _ => true) = o.others := List.filter_true _
  have heach := chats_each (l := o.others) (fun _ => true)
    (fun d k => chats_control d o opTOKX o.useSeq k 1 0 0 ((((List.range 64).map (fun _ => 0)).map (toLE 2)).flatten ++ toLE 8 (xRet o.desc) ++ toLE 4 crc)) d
  rwa [hall] at heach

theorem tokxUseStart_run {c id : Nat} {x : Opening} (hopen : d.openOf c id = some o) (hkind : o.kind = 2) (hready : o.ready = true)
    (hbegun : o.begun = false) (hcombine : xCombine o.desc = false) (hentries : xEntries o.desc = 0) (hcounts : o.counts = [])
    (hx : o.begunAt d.lode.count = x) :
    xTokxUseStart c id m d = (((((d.putOpening x).bump Reg.collOpenings).sendCounts x (placementCrc m ((d.putOpening x).bump Reg.collOpenings) o.desc)).putOpening
      (x.withCounts [emptyCount o (placementCrc m ((d.putOpening x).bump Reg.collOpenings) o.desc)])).countsHeld m c id) := by
  unfold xTokxUseStart
  rw [hopen]
  dsimp only
  rw [if_neg (by simp [hkind, hready, hbegun])]
  have hroutes : ∀ e, routeList m e o.desc = [] := fun e => by simp [routeList, hentries]
  rw [if_neg (by simp [hcombine])]
  simp only [hroutes, List.zipIdx_nil, List.map_nil, List.any_nil, entriesFor_nil, List.length_nil, Bool.false_or]
  refine (if_neg (by simp)).trans ?_
  have honly : ∀ y, o.counts ++ [y] = [y] := fun y => by rw [hcounts]; rfl
  rw [honly]
  subst hx
  rfl

theorem tokxUseStart_counts (s : State) (c : Fin 64) (id : BitVec 16) (o : Opening) (hopen : s.dev.openOf c id.toNat = some o) (hkind : o.kind = 2)
    (hready : o.ready = true) (hbegun : o.begun = false) (hcombine : xCombine o.desc = false) (hentries : xEntries o.desc = 0) (hcounts : o.counts = [])
    (hcount : 2 ≤ o.count) (hoffsets : o.offsetsSent = false) :
    Ends (.tokxUseStart c id) s (fun u => (∃ y : CountIn, u.dev.openings =
        (s.dev.putOpening { o with begun := true, useLt := s.dev.lode.count, counts := [y] }).openings ∧
        y.use = o.use ∧ y.rank = o.selfRank ∧ y.counts = List.replicate 64 0 ∧ y.ret.toNat = xRet o.desc) ∧
      u.dev.count Reg.collOpenings = s.dev.count Reg.collOpenings + 1 ∧ u.dev.repeats.length = s.dev.repeats.length + o.others.length ∧
      u.mem = s.mem ∧ u.dev.regs = s.dev.regs ∧ u.dev.ctxs = s.dev.ctxs) := by
  obtain ⟨hctx, hid, hended⟩ := openOf_reads hopen
  have hopen' : s.begin.openOf c.val id.toNat = some o := hopen
  obtain ⟨x, hx⟩ : ∃ x, o.begunAt s.begin.lode.count = x := ⟨_, rfl⟩
  have hrun := tokxUseStart_run (m := s.mem) hopen' hkind hready hbegun hcombine hentries hcounts hx
  obtain ⟨crc, hcrc⟩ : ∃ v, v = placementCrc s.mem ((s.begin.putOpening x).bump Reg.collOpenings) o.desc := ⟨_, rfl⟩
  rw [← hcrc] at hrun
  obtain ⟨y, hy⟩ : ∃ y, y = emptyCount o crc := ⟨_, rfl⟩
  have hyreads : y.use = o.use ∧ y.rank = o.selfRank ∧ y.counts = List.replicate 64 0 ∧ y.ret.toNat = xRet o.desc ∧ y.crc.toNat = crc := by
    rw [hy]
    refine ⟨rfl, rfl, rfl, emptyCount_ret o crc, ?_⟩
    have hlt : crc < 2 ^ 32 := by rw [hcrc]; exact crc32_lt _
    exact Nat.mod_eq_of_lt hlt
  obtain ⟨hyuse, hyrank, hycounts, hyret, hycrc⟩ := hyreads
  rw [← hy] at hrun
  have hfields : o.same x = true ∧ x.same (x.withCounts [y]) = true ∧ (x.withCounts [y]).ended = false ∧ (x.withCounts [y]).use = o.use ∧
      (x.withCounts [y]).selfRank = o.selfRank ∧ (x.withCounts [y]).offsetsSent = false ∧ (x.withCounts [y]).count = o.count ∧
      (x.withCounts [y]).desc = o.desc ∧ x.others = o.others ∧
      x.withCounts [y] = { o with begun := true, useLt := s.dev.lode.count, counts := [y] } ∧ x.ended = false := by
    rw [← hx]
    exact ⟨same_refl o, same_refl o, hended, rfl, rfl, hoffsets, rfl, rfl, rfl, rfl, hended⟩
  obtain ⟨hsame, hsame', hxended, hxuse, hxself, hxoffsets, hxcount, hxdesc, hothers, hfinal, hxopen⟩ := hfields
  have hchats := chats_sendCounts ((s.begin.putOpening x).bump Reg.collOpenings) x crc
  obtain ⟨hopenings, hregs, hcounters, hctxs, -, hstores, hwipes, -, hrepeats, -⟩ := hchats.fields
  obtain ⟨hpstores, hpwipes, hpregs, -, hpctxs, -⟩ := putOpening_fields s.begin x
  have hbumped : ((s.begin.putOpening x).bump Reg.collOpenings).openings = (s.begin.putOpening x).openings ∧
      ((s.begin.putOpening x).bump Reg.collOpenings).repeats = s.dev.repeats ∧ ((s.begin.putOpening x).bump Reg.collOpenings).stores = [] ∧
      ((s.begin.putOpening x).bump Reg.collOpenings).wipes = [] ∧ ((s.begin.putOpening x).bump Reg.collOpenings).regs = s.dev.regs ∧
      ((s.begin.putOpening x).bump Reg.collOpenings).ctxs = s.dev.ctxs :=
    ⟨rfl, rfl, hpstores, hpwipes, hpregs, hpctxs⟩
  obtain ⟨hbopenings, hbrepeats, hbstores, hbwipes, hbregs, hbctxs⟩ := hbumped
  have hbcount : ((s.begin.putOpening x).bump Reg.collOpenings).count Reg.collOpenings = s.dev.count Reg.collOpenings + 1 := Dev.count_bump_same _ _
  generalize (s.begin.putOpening x).bump Reg.collOpenings = d1 at hrun hcrc hopenings hregs hcounters hctxs hstores hwipes hrepeats hbopenings hbrepeats hbstores hbwipes hbregs hbctxs hbcount
  generalize d1.sendCounts x crc = d2 at hrun hopenings hregs hcounters hctxs hstores hwipes hrepeats
  have hopenings' : d2.openings = (s.begin.putOpening x).openings := hopenings.trans hbopenings
  have hputs : (d2.putOpening (x.withCounts [y])).openings = (s.dev.putOpening (x.withCounts [y])).openings := by
    have htwice := congrArg Dev.openings (putOpening_putOpening s.begin hsame')
    rw [putOpening_eq, hopenings']
    exact htwice
  have hfound : (d2.putOpening (x.withCounts [y])).openOf c.val id.toNat = some (x.withCounts [y]) := by
    have hfirst : d2.openOf c.val id.toNat = some x := by
      rw [Dev.openOf, hopenings']
      exact openOf_putOpening hopen' hsame hxopen
    exact openOf_putOpening hfirst hsame' hxended
  have hcrc' : y.crc.toNat = placementCrc s.mem (d2.putOpening (x.withCounts [y])) (x.withCounts [y]).desc := by
    rw [hycrc, hcrc, hxdesc]
    exact placementCrc_congr (d := d1) (e := d2.putOpening (x.withCounts [y])) s.mem hstores.symm hwipes.symm o.desc
  rw [countsHeld_waits hfound rfl (hyuse.trans hxuse.symm) (hyrank.trans hxself.symm) hcrc' hxoffsets (by rw [hxcount]; exact hcount)] at hrun
  obtain ⟨hestores, hewipes, heregs, hecounters, hectxs, -⟩ := putOpening_fields d2 (x.withCounts [y])
  have herepeats : (d2.putOpening (x.withCounts [y])).repeats = d2.repeats := rfl
  generalize d2.putOpening (x.withCounts [y]) = e at hrun hputs hestores hewipes heregs hecounters hectxs herepeats
  refine ends_of_run (x := xTokxUseStart c.val id.toNat) rfl hrun ⟨⟨y, hputs.trans (by rw [hfinal]), hyuse, hyrank, hycounts, hyret⟩, ?_, ?_,
    State.commit_mem s _ (hestores.trans (hstores.trans hbstores)) (hewipes.trans (hwipes.trans hbwipes)), heregs.trans (hregs.trans hbregs),
    hectxs.trans (hctxs.trans hbctxs)⟩
  · refine Eq.trans ?_ hbcount
    exact congrArg (fun l => mget 0 l Reg.collOpenings) (hecounters.trans hcounters)
  · change e.repeats.length = _
    rw [herepeats, hrepeats, hbrepeats, hothers]

/-! Rounds of a re-shard (R296). -/

/-- A re-shard whose round has been neither read nor written does not advance. -/
theorem permuteAdvance_waits {c id : Nat} (hopen : d.openOf c id = some o) (hwritten : o.written = false)
    (hwaits : (o.written || !o.readDone || !((peersOf (outPieces m d o.desc) o.round o.selfRank).all (fun p => o.goes.contains (o.round * 65536 + p)))) = true) :
    d.permuteAdvance m c id = d := by
  rw [Dev.permuteAdvance, hopen]
  dsimp only
  by_cases hkind : o.kind = 3
  · rw [if_neg (by simp [hkind]), if_pos hwaits, hopen]
    exact if_neg (by simp [hwritten])
  · exact if_pos (by simp [hkind])

theorem collGo_held (s : State) (k : Packet) (o : Opening) (h : Finds s k opCOLL 7 o o.seq.toNat) (hkind : o.kind = 3)
    (hnew : o.goes.contains (kIndex k * 65536 + kRank k) = false) (hread : o.readDone = false) (hwritten : o.written = false) :
    Quiet (.collGo k) s ((s.begin.taken k).putOpening { o with goes := (kIndex k * 65536 + kRank k) :: o.goes }) := by
  obtain ⟨-, -, -, hopen, -, -⟩ := id h
  obtain ⟨-, -, hended⟩ := openOf_reads hopen
  have hput := openOf_putOpening (x := { o with goes := (kIndex k * 65536 + kRank k) :: o.goes }) (openOf_taken h) (same_refl o) hended
  refine putTaken_quiet (f := xCollGo k) rfl ?_
  rw [xCollGo, collTake_found h (by simp [hkind])]
  dsimp only
  rw [if_neg (by rw [hkind, hnew]; decide)]
  exact permuteAdvance_waits hput hwritten ((congrArg (fun b => _ || !b || _) hread).trans (by simp))

theorem collPdone_held (s : State) (k : Packet) (o : Opening) (h : Finds s k opCOLL 8 o o.seq.toNat) (hkind : o.kind = 3)
    (hnew : o.pdones.contains (kIndex k * 65536 + kRank k) = false) (hround : o.round < pRounds o.desc) :
    Quiet (.collPdone k) s ((s.begin.taken k).putOpening { o with pdones := (kIndex k * 65536 + kRank k) :: o.pdones }) := by
  obtain ⟨-, -, -, hopen, -, -⟩ := id h
  obtain ⟨-, -, hended⟩ := openOf_reads hopen
  have hput := openOf_putOpening (x := { o with pdones := (kIndex k * 65536 + kRank k) :: o.pdones }) (openOf_taken h) (same_refl o) hended
  refine putTaken_quiet (f := xCollPdone k) rfl ?_
  rw [xCollPdone, collTake_found h (by simp [hkind])]
  dsimp only
  rw [if_neg (by rw [hkind, hnew]; decide), Dev.permuteDone, hput]
  exact if_neg (by simp [hkind]; omega)

/-- The bytes of a round read, by piece. -/
def Opening.roundRead (o : Opening) (l : Map (List Byte)) : Opening := { o with readDone := true, staged := l }

/-- GO to the ranks of a list. -/
def Dev.sendGo (d : Dev) (o : Opening) (l : List Nat) : Dev := d.each l (fun d k => d.control o opCOLL o.seq.toNat k 7 o.round 0 [])

theorem chats_sendGo (d : Dev) (o : Opening) (l : List Nat) : Chats d (d.sendGo o l) l.length := by
  have heach := chats_each (l := l) (fun _ => true) (fun d k => chats_control d o opCOLL o.seq.toNat k 7 o.round 0 []) d
  have hall : l.filter (fun _ => true) = l := List.filter_true _
  rwa [hall] at heach

theorem pieces_congr (m : Mem) (hstores : d.stores = e.stores) (hwipes : d.wipes = e.wipes) (a n : Nat) : d.pieces m a n = e.pieces m a n := by
  simp only [Dev.pieces, peekLE, peekN_congr hstores hwipes]

theorem peersOf_mem {l : List Piece} {p : Piece} {i k self : Nat} (h : (l.zipIdx).filter (fun p => p.1.round == k) = [(p, i)]) (hself : p.peer ≠ self) :
    p.peer ∈ peersOf l k self := by
  have hin : (p, i) ∈ (l.zipIdx).filter (fun p => p.1.round == k) := by rw [h]; exact List.mem_singleton.mpr rfl
  obtain ⟨hmem, hround⟩ := List.mem_filter.mp hin
  have hp : p ∈ l := (List.mem_zipIdx' hmem).2 ▸ List.getElem_mem _
  refine List.mem_filter.mpr ⟨List.mem_dedup.mpr (List.mem_map.mpr ⟨p, List.mem_filter.mpr ⟨hp, hround⟩, rfl⟩), by simpa using hself⟩

theorem permuteRound_run {c id : Nat} {x : Opening} {p : Piece} {i : Nat} {bs : List Byte} (hopen : d.openOf c id = some o) (hkind : o.kind = 3)
    (hread : o.readDone = false) (hround : o.round < pRounds o.desc)
    (hmine : ((outPieces m d o.desc).zipIdx).filter (fun p => p.1.round == o.round) = [(p, i)]) (hbs : d.engineRead m c p.src p.len = (d, some bs))
    (hx : o.roundRead [(i, bs)] = x) :
    xPermuteRoundReadComplete c id m d =
      (((d.putOpening x).sendGo x (peersOf (inPieces m (d.putOpening x) x.desc) x.round x.selfRank))).permuteAdvance m c id := by
  unfold xPermuteRoundReadComplete
  rw [hopen]
  dsimp only
  rw [if_neg (by simp [hkind, hread]; omega), hmine]
  simp only [List.foldl_cons, List.foldl_nil, hbs, Option.map_some]
  subst hx
  rfl

theorem permuteRound_reads (s : State) (c : Fin 64) (id : BitVec 16) (o : Opening) (p : Piece) (i : Nat) (hopen : s.dev.openOf c id.toNat = some o)
    (hkind : o.kind = 3) (hread : o.readDone = false) (hwritten : o.written = false) (hround : o.round < pRounds o.desc)
    (hmine : ((outPieces s.mem s.begin o.desc).zipIdx).filter (fun p => p.1.round == o.round) = [(p, i)]) (hreach : EngineReaches s c p.src p.len)
    (hpeer : p.peer ≠ o.selfRank) (hgo : o.goes.contains (o.round * 65536 + p.peer) = false) :
    Ends (.permuteRoundReadComplete c id) s (fun u =>
      u.dev.openings = (s.dev.putOpening { o with readDone := true, staged := [(i, peekN s.mem s.begin p.src p.len)] }).openings ∧
      u.dev.repeats.length = s.dev.repeats.length + (peersOf (inPieces s.mem s.begin o.desc) o.round o.selfRank).length ∧ u.mem = s.mem ∧
      u.dev.regs = s.dev.regs ∧ u.dev.counters = s.dev.counters ∧ u.dev.ctxs = s.dev.ctxs) := by
  obtain ⟨hctx, hid, hended⟩ := openOf_reads hopen
  have hopen' : s.begin.openOf c.val id.toNat = some o := hopen
  obtain ⟨bs, hbs⟩ : ∃ bs, bs = peekN s.mem s.begin p.src p.len := ⟨_, rfl⟩
  obtain ⟨x, hx⟩ : ∃ x, o.roundRead [(i, bs)] = x := ⟨_, rfl⟩
  have hrun := permuteRound_run (m := s.mem) hopen' hkind hread hround hmine (by rw [hbs]; exact engineRead_reached hreach) hx
  have hfields : o.same x = true ∧ x.ended = false ∧ x.written = false ∧ x.desc = o.desc ∧ x.round = o.round ∧ x.selfRank = o.selfRank ∧ x.goes = o.goes ∧
      x = { o with readDone := true, staged := [(i, peekN s.mem s.begin p.src p.len)] } := by
    rw [← hx, ← hbs]
    exact ⟨same_refl o, hended, hwritten, rfl, rfl, rfl, rfl, rfl⟩
  obtain ⟨hsame, hxended, hxwritten, hxdesc, hxround, hxself, hxgoes, hfinal⟩ := hfields
  rw [hxdesc, hxround, hxself] at hrun
  obtain ⟨hpstores, hpwipes, hpregs, hpcounters, hpctxs, -⟩ := putOpening_fields s.begin x
  have hins : inPieces s.mem (s.begin.putOpening x) o.desc = inPieces s.mem s.begin o.desc :=
    pieces_congr (d := s.begin.putOpening x) (e := s.begin) s.mem hpstores hpwipes _ _
  rw [hins] at hrun
  have hfound := openOf_putOpening hopen' hsame hxended
  have hprepeats : (s.begin.putOpening x).repeats = s.dev.repeats := rfl
  have hpopenings : (s.begin.putOpening x).openings = (s.dev.putOpening x).openings := rfl
  obtain ⟨l, hl⟩ : ∃ l, l = peersOf (inPieces s.mem s.begin o.desc) o.round o.selfRank := ⟨_, rfl⟩
  rw [← hl] at hrun ⊢
  obtain ⟨hopenings, hregs, hcounters, hctxs, -, hstores, hwipes, -, hrepeats, -⟩ := (chats_sendGo (s.begin.putOpening x) x l).fields
  generalize hd1 : s.begin.putOpening x = d1 at hrun hopenings hregs hcounters hctxs hstores hwipes hrepeats hpstores hpwipes hpregs hpcounters hpctxs hfound hprepeats hpopenings
  generalize d1.sendGo x l = e at hrun hopenings hregs hcounters hctxs hstores hwipes hrepeats
  have hopene : e.openOf c.val id.toNat = some x := by
    rw [Dev.openOf, hopenings]
    exact hfound
  have houts : outPieces s.mem e x.desc = outPieces s.mem s.begin o.desc := by
    rw [hxdesc]
    exact pieces_congr (d := e) (e := s.begin) s.mem (hstores.trans hpstores) (hwipes.trans hpwipes) _ _
  have hstill : (x.written || !x.readDone || !((peersOf (outPieces s.mem e x.desc) x.round x.selfRank).all
      (fun q => x.goes.contains (x.round * 65536 + q)))) = true := by
    have hnot : (peersOf (outPieces s.mem e x.desc) x.round x.selfRank).all (fun q => x.goes.contains (x.round * 65536 + q)) = false := by
      rw [houts, hxround, hxself, hxgoes, List.all_eq_false]
      exact ⟨p.peer, peersOf_mem hmine hpeer, by rw [hgo]; decide⟩
    rw [hnot, Bool.not_false, Bool.or_true]
  rw [permuteAdvance_waits hopene hxwritten hstill] at hrun
  refine ends_of_run (x := xPermuteRoundReadComplete c.val id.toNat) rfl hrun ⟨(hopenings.trans hpopenings).trans (by rw [hfinal]), ?_,
    State.commit_mem s _ (hstores.trans hpstores) (hwipes.trans hpwipes), hregs.trans hpregs, hcounters.trans hpcounters, hctxs.trans hpctxs⟩
  change e.repeats.length = _
  rw [hrepeats, hprepeats]

/-- Settles O40: COUNT, OFFSET and DONE are held for their use, a use begins, GO and PDONE are held, a round's sources are read, and an ABORT
ends what it names (R290 to R296). That a COUNT of a later use is held, and that an ABORT with a status Table 9.6 does not have ends with
PEER_ABORT, are the model's choices (log entry 48). -/
theorem exchangesAreCountedPlacedAndEnded : Obligations.ExchangesAreCountedPlacedAndEnded :=
  ⟨tokxCount_held, tokxCount_stale, tokxOffset_offsets, tokxOffset_base, tokxDone_held, tokxDone_ends, tokxUseStart_counts, collGo_held, collPdone_held,
    collAbort_reshard, collAbort_bucket, permuteRound_reads⟩

end Sys2Proof.Machine
end

section
/-! The vector sequencer takes an instruction (R105, R111): what it changes, and what it leaves. -/

namespace Sys2Proof.Machine

open Sys2Proof.Claims (Ends Quiet VecFrame LanesBecome VecRejected)

/-- Taking an instruction moves the sequencer and ends its wait, no more. -/
theorem Tile.vecTaken_fields (x : Tile) : x.vecTaken.vregs = x.vregs ∧ x.vecTaken.sets = x.sets ∧ x.vecTaken.pipe = x.pipe ∧
    x.vecTaken.rowStack = x.rowStack ∧ x.vecTaken.rowKind = x.rowKind ∧ x.vecTaken.badWords = x.badWords ∧ x.vecTaken.layout = x.layout ∧
    x.vecTaken.key = x.key ∧ x.vecTaken.mbId = x.mbId ∧ x.vecTaken.sems = x.sems ∧ x.vecTaken.updKey = x.updKey := by
  unfold Tile.vecTaken
  extract_lets n y
  split <;> exact ⟨rfl, rfl, rfl, rfl, rfl, rfl, rfl, rfl, rfl, rfl, rfl⟩

theorem Tile.vecTaken_lanes (x : Tile) (ty r : Nat) : x.vecTaken.lanes ty r = x.lanes ty r := by
  rw [Tile.lanes, Tile.vreg, x.vecTaken_fields.1]
  rfl

/-- A tile whose sequencer has taken an instruction and counted it. -/
def Dev.vecBegun (d : Dev) (t : Nat) : Dev := (d.setTile t (d.tile t).vecTaken).bump (Reg.tileVecInstr t)

theorem Dev.vecBegun_fields (d : Dev) (t : Nat) : (d.vecBegun t).tile t = (d.tile t).vecTaken ∧ (∀ j, j ≠ t → (d.vecBegun t).tile j = d.tile j) ∧
    (d.vecBegun t).regs = d.regs ∧ (d.vecBegun t).stores = d.stores ∧ (d.vecBegun t).wipes = d.wipes ∧
    (d.vecBegun t).count (Reg.tileVecInstr t) = d.count (Reg.tileVecInstr t) + 1 ∧
    ∀ k, k ≠ Reg.tileVecInstr t → (d.vecBegun t).count k = d.count k := by
  refine ⟨?_, fun j hj => ?_, rfl, rfl, rfl, ?_, fun k hk => ?_⟩
  · rw [Dev.vecBegun, Dev.tile_bump, Dev.tile_setTile_same]
  · rw [Dev.vecBegun, Dev.tile_bump, Dev.tile_setTile, if_neg (Ne.symm hj)]
  · rw [Dev.vecBegun, Dev.count_bump_same]
    rfl
  · rw [Dev.vecBegun, Dev.count_bump_other _ (Ne.symm hk)]
    rfl

theorem vecFront_takes {d : Dev} {m : Mem} {t op a : Nat} {v : BitVec 64} {ok : Tile → BitVec 64 → Bool} (x : Mem → Nat → BitVec 64 → Dev → Dev)
    (hdue : d.vecDue m t (· == op) = some (a, v)) (hty : vType v ≠ 3) (hok : ok (d.tile t) v = true) :
    vecFront op ok x t m d = x m t v (d.vecBegun t) := by
  unfold vecFront
  rw [hdue]
  dsimp only
  rw [hok, Bool.and_true, if_pos (bne_iff_ne.mpr hty)]
  rfl

theorem vecFront_rejects {d : Dev} {m : Mem} {t op a : Nat} {v : BitVec 64} {ok : Tile → BitVec 64 → Bool} (x : Mem → Nat → BitVec 64 → Dev → Dev)
    (hdue : d.vecDue m t (· == op) = some (a, v)) (hbad : vType v = 3 ∨ ok (d.tile t) v = false) :
    vecFront op ok x t m d = (d.setTile t (d.tile t).vecTaken).vecReject m t a := by
  have hnot : (vType v != 3 && ok (d.tile t) v) = false := by
    rcases hbad with h | h
    · rw [h]; rfl
    · rw [h, Bool.and_false]
  unfold vecFront
  rw [hdue]
  dsimp only
  rw [hnot, if_neg Bool.false_ne_true]

/-- What an instruction may set of its tile without the sequencer or the array moving. -/
def VecTileOf (x y : Tile) : Prop := y.vecIdx = x.vecIdx ∧ y.vecPass = x.vecPass ∧ y.sets = x.sets ∧ y.pipe = x.pipe

/-- A counted instruction that has set its tile to `y`, and bumped none but the counters `ks`. -/
theorem vecFrame_of {s : State} {t : Fin 64} {y : Tile} (d : Dev) (ks : List Nat) (hy : VecTileOf (s.dev.tile t).vecTaken y)
    (htile : ∀ j, d.tile j = if t.val = j then y else s.dev.tile j) (hregs : d.regs = s.dev.regs) (hstores : d.stores = []) (hwipes : d.wipes = [])
    (hinstr : d.count (Reg.tileVecInstr t) = s.dev.count (Reg.tileVecInstr t) + 1)
    (hother : ∀ k, k ≠ Reg.tileVecInstr t → ¬ k ∈ ks → d.count k = s.dev.count k) : VecFrame s (s.commit d) t ks := by
  obtain ⟨hidx, hpass, hsets, hpipe⟩ := hy
  have hown : d.tile t = y := by rw [htile, if_pos rfl]
  obtain ⟨-, hsets', hpipe', -⟩ := (s.dev.tile t).vecTaken_fields
  refine ⟨hinstr, hother, s.commit_mem d hstores hwipes, hregs, fun j hj => ?_, ?_, ?_, ?_, ?_⟩
  · rw [Dev.tile_commit, htile, if_neg (Ne.symm hj)]
  · rw [Dev.tile_commit, hown, hidx]
  · rw [Dev.tile_commit, hown, hpass]
  · rw [Dev.tile_commit, hown, hsets, hsets']
  · rw [Dev.tile_commit, hown, hpipe, hpipe']

theorem vecFrame_setTile (s : State) (t : Fin 64) {y : Tile} (hy : VecTileOf (s.dev.tile t).vecTaken y) :
    VecFrame s (s.commit ((s.begin.vecBegun t).setTile t y)) t [] := by
  obtain ⟨-, htiles, hregs, hstores, hwipes, hinstr, hother⟩ := s.begin.vecBegun_fields t
  refine vecFrame_of _ [] hy (fun j => ?_) hregs hstores hwipes hinstr (fun k hk _ => hother k hk)
  rw [Dev.tile_setTile]
  split
  case isTrue => rfl
  case isFalse h => exact htiles j (Ne.symm h)

/-- A rejected instruction of a tile without an owner (R111, R477). -/
theorem vecRejected_of {i : Instr} {s : State} {t : Fin 64} {x : Effect} {a : Nat} (hexec : exec i s = s.run x) (hfree : s.dev.ownerOf t = none)
    (hx : x s.mem s.begin = (s.begin.setTile t (s.begin.tile t).vecTaken).vecReject s.mem t a) : VecRejected i s t := by
  have hown : (((s.begin.setTile t (s.begin.tile t).vecTaken).bump (Reg.tileVecReject t)).ownerOf t) = none := by
    rw [Dev.ownerOf_bump, Dev.ownerOf_setTile]
    exact hfree
  rw [Dev.vecReject, tileError_of_unowned s.mem hown] at hx
  refine ends_of_run hexec hx ⟨?_, ?_, ?_, ?_, State.commit_mem s _ (by simp) (by simp), by simp⟩
  · simp [Tile.workEnded]
  · simp [Tile.workEnded, (s.dev.tile t).vecTaken_fields.1]
  · rw [Dev.count_commit, Dev.count_tileEvent_of_le _ _ _ _ _ _ (by unfold Reg.tileVecReject indBlock; omega)]
    exact Dev.count_bump_same _ _
  · rw [Dev.count_commit, Dev.count_tileEvent_of_le _ _ _ _ _ _ (by unfold Reg.tileVecInstr indBlock; omega)]
    exact Dev.count_bump_other _ (by unfold Reg.tileVecReject Reg.tileVecInstr; omega)

/-! Words of one width within a number: a register's lanes read back as they were put (R107). -/

theorem splitWords_length (w n v : Nat) : (splitWords w n v).length = n := by
  induction n generalizing v with
  | zero => rfl
  | succ n ih => rw [splitWords, List.length_cons, ih]

theorem joinWords_lt (w : Nat) (l : List Nat) : joinWords w l < 2 ^ (w * l.length) := by
  induction l with
  | nil => exact Nat.one_pos
  | cons a l ih =>
    have ha : a % 2 ^ w < 2 ^ w := Nat.mod_lt _ (Nat.two_pow_pos w)
    have hl : 2 ^ w * (joinWords w l + 1) ≤ 2 ^ w * 2 ^ (w * l.length) := Nat.mul_le_mul_left _ ih
    rw [joinWords, List.length_cons, Nat.mul_succ, Nat.add_comm, Nat.pow_add, Nat.mul_comm (2 ^ (w * l.length))]
    rw [Nat.mul_succ] at hl
    omega

theorem splitWords_joinWords (w : Nat) (l : List Nat) : splitWords w l.length (joinWords w l) = l.map (· % 2 ^ w) := by
  induction l with
  | nil => rfl
  | cons a l ih =>
    have ha : a % 2 ^ w < 2 ^ w := Nat.mod_lt _ (Nat.two_pow_pos w)
    rw [joinWords, List.length_cons, splitWords, Nat.add_mul_mod_self_left, Nat.mod_mod, Nat.add_mul_div_left _ _ (Nat.two_pow_pos w),
      Nat.div_eq_of_lt ha, Nat.zero_add, ih, List.map_cons]

theorem laneBits (ty : Nat) : laneWidth ty * laneCount ty = 16384 := by
  unfold laneWidth laneCount
  split <;> rfl

theorem Tile.lanes_length (x : Tile) (ty r : Nat) : (x.lanes ty r).length = laneCount ty := splitWords_length _ _ _

theorem Tile.lanes_setLanes (x : Tile) (ty r : Nat) {l : List Nat} (hlen : l.length = laneCount ty) :
    (x.setLanes ty r l).lanes ty r = l.map (· % 2 ^ laneWidth ty) := by
  have hfits : joinWords (laneWidth ty) l < 2 ^ 16384 := by
    have h := joinWords_lt (laneWidth ty) l
    rwa [hlen, laneBits] at h
  rw [Tile.lanes, Tile.setLanes, Tile.vreg, mget_mset_same, BitVec.toNat_ofNat, Nat.mod_eq_of_lt hfits, ← hlen, splitWords_joinWords]

theorem Tile.vreg_setLanes_other (x : Tile) (ty : Nat) {r q : Nat} (h : r ≠ q) (l : List Nat) : (x.setLanes ty r l).vreg q = x.vreg q :=
  mget_mset_other _ _ _ h

theorem Tile.setLanes_keeps (x : Tile) (ty r : Nat) (l : List Nat) : VecTileOf x (x.setLanes ty r l) := ⟨rfl, rfl, rfl, rfl⟩

/-- Lanes written to VD of a tile that has taken the instruction. -/
theorem lanesBecome_of {s u : State} {t : Fin 64} {v : BitVec 64} {l : List Nat} (hlen : l.length = laneCount (vType v))
    (hvregs : (u.dev.tile t).vregs = ((s.dev.tile t).vecTaken.setLanes (vType v) (vVd v) l).vregs) : LanesBecome s u t v l := by
  have hread : ∀ r, (u.dev.tile t).vreg r = ((s.dev.tile t).vecTaken.setLanes (vType v) (vVd v) l).vreg r := fun r =>
    congrArg (fun g => mget 0 g r) hvregs
  refine ⟨?_, fun r hr => ?_⟩
  · rw [Tile.lanes, hread]
    exact Tile.lanes_setLanes _ _ _ hlen
  · rw [hread, Tile.vreg_setLanes_other _ _ (Ne.symm hr), Tile.vreg, (s.dev.tile t).vecTaken_fields.1, Tile.vreg]

end Sys2Proof.Machine
end

section
/-! Lane arithmetic and special functions (R107, R108). -/

namespace Sys2Proof.Machine

open Sys2Proof.Claims (Ends Quiet VecFrame LanesBecome VecRejected LaneWise2 LaneWise3 SpecialLanes)

theorem vecTile_takes {d : Dev} {m : Mem} {t op a : Nat} {v : BitVec 64} {ok : Tile → BitVec 64 → Bool} (f : BitVec 64 → Tile → Tile)
    (hdue : d.vecDue m t (· == op) = some (a, v)) (hty : vType v ≠ 3) (hok : ok (d.tile t) v = true) :
    vecTile op ok f t m d = (d.vecBegun t).setTile t (f v (d.tile t).vecTaken) := by
  rw [vecTile, vecFront_takes _ hdue hty hok, (d.vecBegun_fields t).1]

/-- An instruction that writes lanes of VD to its tile alone. -/
theorem ends_of_lanes {i : Instr} {s : State} {t : Fin 64} {op a : Nat} {v : BitVec 64} {ok : Tile → BitVec 64 → Bool} {f : BitVec 64 → Tile → Tile}
    {l : List Nat} (hexec : exec i s = s.run (vecTile op ok f t)) (hdue : s.begin.vecDue s.mem t (· == op) = some (a, v)) (hty : vType v ≠ 3)
    (hok : ok (s.dev.tile t) v = true) (hlen : l.length = laneCount (vType v))
    (hf : f v (s.dev.tile t).vecTaken = (s.dev.tile t).vecTaken.setLanes (vType v) (vVd v) l) :
    Ends i s (fun u => VecFrame s u t [] ∧ (u.dev.tile t).rowStack = (s.dev.tile t).rowStack ∧ LanesBecome s u t v l) := by
  refine ends_of_run hexec (vecTile_takes (d := s.begin) f hdue hty hok) ?_
  have htile : ((s.begin.vecBegun t).setTile t (f v (s.begin.tile t).vecTaken)).tile t = (s.dev.tile t).vecTaken.setLanes (vType v) (vVd v) l :=
    (Dev.tile_setTile_same _ _ _).trans hf
  refine ⟨vecFrame_setTile s t (y := f v (s.begin.tile t).vecTaken) ?_, ?_, lanesBecome_of hlen ?_⟩
  · rw [show f v (s.begin.tile t).vecTaken = _ from hf]
    exact Tile.setLanes_keeps _ _ _ _
  · rw [Dev.tile_commit, htile]
    exact (s.dev.tile t).vecTaken_fields.2.2.2.1
  · rw [Dev.tile_commit, htile]

theorem laneWise2_of {i : Fin 64 → Instr} {op : Nat} {f : Nat → Nat → Nat → Nat}
    (hexec : ∀ t s, exec (i t) s = s.run (vecTile op vecAny (lane2 f) t)) : LaneWise2 i op f := fun s t _ v hdue hty => by
  refine ends_of_lanes (hexec t s) hdue hty rfl ?_ ?_
  · rw [List.length_zipWith, Tile.lanes_length, Tile.lanes_length, Nat.min_self]
  · simp only [lane2, Tile.vecTaken_lanes]

theorem laneWise3_of {i : Fin 64 → Instr} {op : Nat} {f : Nat → Nat → Nat → Nat → Nat}
    (hexec : ∀ t s, exec (i t) s = s.run (vecTile op vecAny (lane3 f) t)) : LaneWise3 i op f := fun s t _ v hdue hty => by
  refine ends_of_lanes (hexec t s) hdue hty rfl ?_ ?_
  · rw [List.length_zipWith, List.length_zip, Tile.lanes_length, Tile.lanes_length, Tile.lanes_length, Nat.min_self, Nat.min_self]
  · simp only [lane3, Tile.vecTaken_lanes]

/-- A difference of words, as INT32 lanes keep it (R107). -/
theorem laneSub_int32 (a : Nat) {b : Nat} (hb : b < 2 ^ 32) : laneSub 2 a b = (a + 2 ^ 32 - b) % 2 ^ 32 := by
  have hle : b ≤ a + 2 ^ 32 := by omega
  have hcast : ((a + 2 ^ 32 - b : Nat) : Int) = (a : Int) - b + 2 ^ 32 := by
    rw [Nat.cast_sub hle]
    push_cast
    ring
  rw [laneSub, if_pos rfl, unsigned]
  omega

theorem vecAdd_rejected (s : State) (t : Fin 64) (a : Nat) (v : BitVec 64) (hdue : s.begin.vecDue s.mem t (· == 0x08) = some (a, v))
    (hty : vType v = 3) (hfree : s.dev.ownerOf t = none) : VecRejected (.vecAdd t) s t :=
  vecRejected_of (x := vecTile 0x08 vecAny (lane2 laneAdd) t) rfl hfree (vecFront_rejects _ hdue (.inl hty))

/-- Settles O20. -/
theorem laneArithmeticIsLaneWise : Obligations.LaneArithmeticIsLaneWise :=
  ⟨laneWise2_of fun _ _ => rfl, laneWise2_of fun _ _ => rfl, laneWise2_of fun _ _ => rfl, laneWise3_of fun _ _ => rfl,
    laneWise2_of fun _ _ => rfl, laneWise2_of fun _ _ => rfl, laneWise3_of fun _ _ => rfl, laneWise2_of fun _ _ => rfl,
    fun _ _ => if_pos rfl, fun a _ hb => laneSub_int32 a hb, fun _ _ => if_pos rfl, fun _ _ _ => if_pos rfl, vecAdd_rejected⟩

/-! Special functions (R108). -/

theorem specialLanes_of {i : Fin 64 → Instr} {op : Nat} {f : Val → Val} (hexec : ∀ t s, exec (i t) s = s.run (vecSpecial op f t)) :
    SpecialLanes i op f := fun s t a v hdue hty => by
  have hnot3 : vType v ≠ 3 := by omega
  have hok : (vType v != 2) = true := bne_iff_ne.mpr (by omega)
  obtain ⟨htaken, htiles, hregs, hstores, hwipes, hinstr, hother⟩ := s.begin.vecBegun_fields t
  have hnew : lane1 f v (s.dev.tile t).vecTaken = (s.dev.tile t).vecTaken.setLanes (vType v) (vVd v)
      (((s.dev.tile t).lanes (vType v) (vVa v)).map (fun c => toLane (vType v) (f (laneVal (vType v) c)))) := by
    simp only [lane1, Tile.vecTaken_lanes]
  have heffect : vecSpecial op f t s.mem s.begin
      = ((s.begin.vecBegun t).setTile t (lane1 f v (s.begin.tile t).vecTaken)).bump (Reg.tileSfuResults t) := by
    rw [vecSpecial, vecFront_takes _ hdue hnot3 hok, htaken]
  have hne : Reg.tileSfuResults t ≠ Reg.tileVecInstr t := by unfold Reg.tileSfuResults Reg.tileVecInstr; omega
  have htile : ∀ j, (((s.begin.vecBegun t).setTile t (lane1 f v (s.begin.tile t).vecTaken)).bump (Reg.tileSfuResults t)).tile j
      = if t.val = j then lane1 f v (s.dev.tile t).vecTaken else s.dev.tile j := fun j => by
    rw [Dev.tile_bump, Dev.tile_setTile]
    split
    case isTrue => rfl
    case isFalse h => exact htiles j (Ne.symm h)
  have hown := (htile t).trans (if_pos rfl)
  refine ends_of_run (hexec t s) heffect ⟨vecFrame_of _ _ (hnew ▸ Tile.setLanes_keeps _ _ _ _) htile hregs hstores hwipes ?_ fun k hk hks => ?_, ?_, ?_,
    lanesBecome_of ?_ ?_⟩
  · rw [Dev.count_bump_other _ hne]
    exact hinstr
  · rw [Dev.count_bump_other _ (Ne.symm (a := k) (fun h => hks (List.mem_singleton.mpr h)))]
    exact hother k hk
  · rw [Dev.tile_commit, hown, hnew]
    exact (s.dev.tile t).vecTaken_fields.2.2.2.1
  · rw [Dev.count_commit, Dev.count_bump_same]
    exact congrArg (· + 1) (hother _ hne)
  · rw [List.length_map, Tile.lanes_length]
  · rw [Dev.tile_commit, hown, hnew]

theorem vecExp2_rejected (s : State) (t : Fin 64) (a : Nat) (v : BitVec 64) (hdue : s.begin.vecDue s.mem t (· == 0x10) = some (a, v))
    (hty : vType v = 2) (hfree : s.dev.ownerOf t = none) : VecRejected (.vecExp2 t) s t :=
  vecRejected_of (x := vecSpecial 0x10 exp2Val t) rfl hfree (vecFront_rejects (ok := fun _ v => vType v != 2) _ hdue (.inr (by simp [hty])))

/-- Settles O21. How exp2Val, log2Val, rcpVal and rsqrtVal approach the exact value before the one rounding to TYPE is the model's choice (log
entry 22). -/
theorem specialFunctionsRoundEachLaneOnce : Obligations.SpecialFunctionsRoundEachLaneOnce :=
  ⟨specialLanes_of fun _ _ => rfl, specialLanes_of fun _ _ => rfl, specialLanes_of fun _ _ => rfl, specialLanes_of fun _ _ => rfl, vecExp2_rejected⟩

end Sys2Proof.Machine
end

section
/-! Row reductions and whole-register moves (R107, R109, R112). -/

namespace Sys2Proof.Machine

open Sys2Proof.Claims (Ends Quiet VecFrame LanesBecome)

theorem Tile.vecTaken_rowEnter (mx square : Bool) (v : BitVec 64) (x : Tile) : (rowEnter mx square v x.vecTaken).rowStack = (rowEnter mx square v x).rowStack := by
  simp only [rowEnter, Tile.vecTaken_lanes, x.vecTaken_fields.2.2.2.1]

/-- A strip entered into the row accumulator (R109). -/
theorem ends_of_rowEnter {i : Instr} {s : State} {t : Fin 64} {op a : Nat} {v : BitVec 64} {mx square : Bool}
    (hexec : exec i s = s.run (vecTile op (rowOk mx) (rowEnter mx square) t)) (hdue : s.begin.vecDue s.mem t (· == op) = some (a, v))
    (hty : vType v ≠ 3) (hcount : rowCount v ≤ laneCount (vType v)) (hkind : (s.dev.tile t).rowKind ≠ some (!mx)) :
    Ends i s (fun u => VecFrame s u t [] ∧ (u.dev.tile t).vregs = (s.dev.tile t).vregs ∧ (u.dev.tile t).rowKind = some mx ∧
      (u.dev.tile t).rowStack = (rowEnter mx square v (s.dev.tile t)).rowStack) := by
  have hok : rowOk mx (s.dev.tile t) v = true := by
    rw [rowOk, decide_eq_true hcount, Bool.true_and]
    exact bne_iff_ne.mpr hkind
  refine ends_of_run hexec (vecTile_takes (d := s.begin) _ hdue hty hok)
    ⟨vecFrame_setTile s t (y := rowEnter mx square v (s.begin.tile t).vecTaken) ⟨rfl, rfl, rfl, rfl⟩, ?_, ?_, ?_⟩
  all_goals rw [Dev.tile_commit, Dev.tile_setTile_same]
  · exact (s.dev.tile t).vecTaken_fields.1
  · rfl
  · exact (s.dev.tile t).vecTaken_rowEnter mx square v

/-- A tile that has its row's result in every lane of VD, and no row begun (R109). -/
def Tile.rowEnded (x : Tile) (v : BitVec 64) (l : List Nat) : Tile := { x.setLanes (vType v) (vVd v) l with rowStack := [], rowKind := none }

theorem vecRfin_ends (s : State) (t : Fin 64) (a : Nat) (v : BitVec 64) (hdue : s.begin.vecDue s.mem t (· == 0x1B) = some (a, v)) (hty : vType v ≠ 3)
    (hkind : (s.dev.tile t).rowKind ≠ some (vAddr v % 2 == 0)) :
    Ends (.vecRfin t) s (fun u => VecFrame s u t [] ∧ (u.dev.tile t).rowStack = [] ∧ (u.dev.tile t).rowKind = none ∧
      LanesBecome s u t v (List.replicate (laneCount (vType v))
        (toLane (vType v) (fp32.decode (rowResult (vAddr v % 2 == 1) (s.dev.tile t).rowStack))))) := by
  obtain ⟨-, -, -, hstack, -⟩ := (s.dev.tile t).vecTaken_fields
  have heffect : xVecRfin t s.mem s.begin = (s.begin.vecBegun t).setTile t ((s.dev.tile t).vecTaken.rowEnded v
      (List.replicate (laneCount (vType v)) (toLane (vType v) (fp32.decode (rowResult (vAddr v % 2 == 1) (s.dev.tile t).rowStack))))) := by
    rw [← hstack]
    exact vecTile_takes (d := s.begin) _ hdue hty (bne_iff_ne.mpr hkind)
  refine ends_of_run (x := xVecRfin t) rfl heffect ⟨vecFrame_setTile s t ⟨rfl, rfl, rfl, rfl⟩, ?_, ?_, lanesBecome_of (List.length_replicate ..) ?_⟩
  all_goals rw [Dev.tile_commit, Dev.tile_setTile_same]
  all_goals rfl

/-- What an instruction reads in the scratchpad is what stood there before it. -/
theorem peekLE_vecBegun (d : Dev) (t : Nat) (m : Mem) (a n : Nat) : peekLE m (d.vecBegun t) a n = peekLE m d a n := by
  rw [peekLE, peekN_congr (d := d.vecBegun t) (e := d) rfl rfl, peekLE]

theorem vecBegun_clean {d : Dev} {t : Nat} (h : (d.tile t).badWords = []) : ((d.vecBegun t).tile t).badWords = [] := by
  rw [(d.vecBegun_fields t).1, (d.tile t).vecTaken_fields.2.2.2.2.2.1, h]

theorem vecBcast_ends (s : State) (t : Fin 64) (a : Nat) (v : BitVec 64) (hdue : s.begin.vecDue s.mem t (· == 0x1C) = some (a, v)) (hty : vType v ≠ 3)
    (hroom : vAddr v * 32 + 4 ≤ scrSize) (hgood : (s.dev.tile t).badWords = []) :
    Ends (.vecBcast t) s (fun u => VecFrame s u t [] ∧ LanesBecome s u t v (List.replicate (laneCount (vType v))
      (if vType v = 1 then toLane 1 (fp32.decode (peekLE s.mem s.begin (scrBase t + vAddr v * 32) 4))
       else peekLE s.mem s.begin (scrBase t + vAddr v * 32) 4))) := by
  have heffect : xVecBcast t s.mem s.begin = (s.begin.vecBegun t).setTile t ((s.dev.tile t).vecTaken.setLanes (vType v) (vVd v)
      (List.replicate (laneCount (vType v)) (if vType v = 1 then toLane 1 (fp32.decode (peekLE s.mem s.begin (scrBase t + vAddr v * 32) 4))
       else peekLE s.mem s.begin (scrBase t + vAddr v * 32) 4))) := by
    refine (vecFront_takes (d := s.begin) (ok := fun _ v => vAddr v * 32 + 4 ≤ scrSize) _ hdue hty (decide_eq_true hroom)).trans ?_
    rw [scrRead_clean (vecBegun_clean (d := s.begin) hgood)]
    dsimp only
    rw [peekLE_vecBegun, (s.begin.vecBegun_fields t).1]
    rfl
  refine ends_of_run (x := xVecBcast t) rfl heffect ⟨vecFrame_setTile s t ⟨rfl, rfl, rfl, rfl⟩, lanesBecome_of (List.length_replicate ..) ?_⟩
  rw [Dev.tile_commit, Dev.tile_setTile_same]

/-! The transpose of a pair (R112). -/

/-- An element of a list made of pieces of one length. -/
theorem getElem?_flatMap_range {α : Type} {f : Nat → List α} {n k : Nat} (hlen : ∀ a, (f a).length = k) {i j : Nat} (hi : i < n) (hj : j < k) :
    ((List.range n).flatMap f)[k * i + j]? = (f i)[j]? := by
  induction n with
  | zero => omega
  | succ n ih =>
    have hfirst : ((List.range n).flatMap f).length = k * n := by
      rw [List.flatMap, flatten_length (fun a _ => hlen a), List.length_range]
    rw [List.range_succ, List.flatMap_append, List.flatMap_singleton]
    rcases Nat.lt_or_ge i n with h | h
    · have hle : k * (i + 1) ≤ k * n := Nat.mul_le_mul_left _ h
      rw [Nat.mul_succ] at hle
      rw [List.getElem?_append_left (by omega), ih h]
    · obtain rfl : i = n := by omega
      rw [List.getElem?_append_right (by omega), hfirst, Nat.add_sub_cancel_left]

theorem chunk_length {α : Type} (n k : Nat) (l : List α) : (chunk n k l).length = k := by
  induction k generalizing l with
  | zero => rfl
  | succ k ih => rw [chunk, List.length_cons, ih]

theorem transpose32_length (l : List Nat) : (transpose32 l).length = 1024 := by
  rw [transpose32, List.flatMap, flatten_length (n := 32) fun a _ => by rw [List.length_map, chunk_length], List.length_range]

theorem transpose32_getD (l : List Nat) {i j : Nat} (hi : i < 32) (hj : j < 32) : (transpose32 l).getD (32 * i + j) 0 = l.getD (32 * j + i) 0 := by
  rw [List.getD_eq_getElem?_getD, transpose32, getElem?_flatMap_range (fun a => by rw [List.length_map, chunk_length]) hi hj, List.getElem?_map,
    chunk_getElem? l hj, Option.map_some, Option.getD_some, List.getD_eq_getElem?_getD, List.getElem?_take_of_lt hi, List.getElem?_drop,
    List.getD_eq_getElem?_getD]

theorem splitWords_lt {w n v c : Nat} (h : c ∈ splitWords w n v) : c < 2 ^ w := by
  induction n generalizing v with
  | zero => cases h
  | succ n ih =>
    rcases List.mem_cons.mp h with rfl | h
    · exact Nat.mod_lt _ (Nat.two_pow_pos w)
    · exact ih h

theorem pairLanes_getD_lt (x : Tile) (r k : Nat) : (pairLanes x r).getD k 0 < 2 ^ 32 := by
  rw [List.getD_eq_getElem?_getD]
  cases h : (pairLanes x r)[k]? with
  | none => exact Nat.two_pow_pos 32
  | some c =>
    rcases List.mem_append.mp (List.mem_of_getElem? h) with h | h
    · exact splitWords_lt h
    · exact splitWords_lt h

/-- A tile with a pair of registers written. -/
def Tile.setPair (x : Tile) (r : Nat) (l : List Nat) : Tile := (x.setLanes 0 r (l.take 512)).setLanes 0 (r + 1) (l.drop 512)

theorem Tile.pairLanes_setPair (x : Tile) (r : Nat) {l : List Nat} (hlen : l.length = 1024) : pairLanes (x.setPair r l) r = l.map (· % 2 ^ 32) := by
  have hlow : (x.setPair r l).lanes 0 r = (l.take 512).map (· % 2 ^ 32) := by
    rw [Tile.lanes, Tile.setPair, Tile.vreg_setLanes_other _ _ (by omega)]
    exact Tile.lanes_setLanes x 0 r (by rw [List.length_take, hlen]; rfl)
  have hhigh : (x.setPair r l).lanes 0 (r + 1) = (l.drop 512).map (· % 2 ^ 32) :=
    Tile.lanes_setLanes _ 0 (r + 1) (by rw [List.length_drop, hlen]; rfl)
  rw [pairLanes, hlow, hhigh, ← List.map_append, List.take_append_drop]

theorem vecTpose_ends (s : State) (t : Fin 64) (a : Nat) (v : BitVec 64) (hdue : s.begin.vecDue s.mem t (· == 0x1D) = some (a, v)) (hty : vType v ≠ 3)
    (hvd : vVd v % 2 = 0) (hva : vVa v ≠ 31) :
    Ends (.vecTpose t) s (fun u => VecFrame s u t [] ∧
      (∀ i j, i < 32 → j < 32 → (pairLanes (u.dev.tile t) (vVd v)).getD (32 * i + j) 0 = (pairLanes (s.dev.tile t) (vVa v)).getD (32 * j + i) 0) ∧
      (∀ r, r ≠ vVd v → r ≠ vVd v + 1 → (u.dev.tile t).vreg r = (s.dev.tile t).vreg r)) := by
  have hpair : pairLanes (s.dev.tile t).vecTaken (vVa v) = pairLanes (s.dev.tile t) (vVa v) := by simp only [pairLanes, Tile.vecTaken_lanes]
  have heffect : xVecTpose t s.mem s.begin
      = (s.begin.vecBegun t).setTile t ((s.dev.tile t).vecTaken.setPair (vVd v) (transpose32 (pairLanes (s.dev.tile t) (vVa v)))) := by
    rw [← hpair]
    exact vecTile_takes (d := s.begin) _ hdue hty (by rw [hvd, beq_self_eq_true, Bool.true_and]; exact bne_iff_ne.mpr hva)
  refine ends_of_run (x := xVecTpose t) rfl heffect ⟨vecFrame_setTile s t ⟨rfl, rfl, rfl, rfl⟩, fun i j hi hj => ?_, fun r hr hr' => ?_⟩
  all_goals rw [Dev.tile_commit, Dev.tile_setTile_same]
  · rw [Tile.pairLanes_setPair _ _ (transpose32_length _), List.getD_eq_getElem?_getD, List.getElem?_map]
    have helem := transpose32_getD (pairLanes (s.dev.tile t) (vVa v)) hi hj
    rw [List.getD_eq_getElem?_getD] at helem
    have hlt := pairLanes_getD_lt (s.dev.tile t) (vVa v) (32 * j + i)
    rw [← helem] at hlt ⊢
    cases hget : (transpose32 (pairLanes (s.dev.tile t) (vVa v)))[32 * i + j]? with
    | none => rfl
    | some c =>
      rw [hget] at hlt
      exact Nat.mod_eq_of_lt hlt
  · rw [Tile.setPair, Tile.vreg_setLanes_other _ _ (Ne.symm hr'), Tile.vreg_setLanes_other _ _ (Ne.symm hr), Tile.vreg, (s.dev.tile t).vecTaken_fields.1,
      Tile.vreg]

/-- Settles O22. -/
theorem rowsAndTransposes : Obligations.RowsAndTransposes :=
  ⟨fun _ _ _ _ hdue hty hcount hkind => ends_of_rowEnter (mx := false) (square := false) rfl hdue hty hcount hkind,
    fun _ _ _ _ hdue hty hcount hkind => ends_of_rowEnter (mx := false) (square := true) rfl hdue hty hcount hkind,
    fun _ _ _ _ hdue hty hcount hkind => ends_of_rowEnter (mx := true) (square := false) rfl hdue hty hcount hkind, vecRfin_ends, vecBcast_ends, vecTpose_ends⟩

end Sys2Proof.Machine
end

section
/-! The vector engine's stores: pieces of bytes one after another in a scratchpad (R106, R186). -/

namespace Sys2Proof.Machine

open Sys2Proof.Claims (Ends Quiet Holds SameMemBut)

/-- From `d` to `e` only bytes `bs` were written at `a`, and movers woken. -/
structure Writes (d e : Dev) (a : Nat) (bs : List Byte) : Prop where
  regs : e.regs = d.regs
  counters : e.counters = d.counters
  stores : e.stores = (d.pokeN a bs).stores
  wipes : e.wipes = d.wipes
  tile : ∀ j, ∃ b, e.tile j = { d.tile j with moverAwake := b }

theorem cellsAt_append (a : Nat) (b c : List Byte) : cellsAt a (b ++ c) = cellsAt a b ++ cellsAt (a + b.length) c := by
  induction b generalizing a with
  | nil => rfl
  | cons x b ih =>
    rw [List.cons_append, cellsAt, ih, cellsAt, List.cons_append, List.length_cons]
    congr 3
    omega

theorem Writes.refl (d : Dev) (a : Nat) : Writes d d a [] := ⟨rfl, rfl, rfl, rfl, fun j => ⟨(d.tile j).moverAwake, rfl⟩⟩

theorem Writes.trans {d e f : Dev} {a : Nat} {b c : List Byte} (h : Writes d e a b) (g : Writes e f (a + b.length) c) : Writes d f a (b ++ c) := by
  refine ⟨g.regs.trans h.regs, g.counters.trans h.counters, ?_, g.wipes.trans h.wipes, fun j => ?_⟩
  · rw [g.stores, Dev.pokeN, h.stores, Dev.pokeN, Dev.pokeN, cellsAt_append, List.reverse_append, List.append_assoc]
  · obtain ⟨x, hx⟩ := h.tile j
    obtain ⟨y, hy⟩ := g.tile j
    exact ⟨y, by rw [hy, hx]⟩

theorem writes_wakeMover (d : Dev) (a : Nat) (bs : List Byte) (x n : Nat) : Writes d ((d.pokeN a bs).wakeMover x n) a bs := by
  have hpoke : Writes d (d.pokeN a bs) a bs := ⟨rfl, rfl, rfl, rfl, fun j => ⟨(d.tile j).moverAwake, rfl⟩⟩
  unfold Dev.wakeMover
  split
  case h_1 => exact hpoke
  case h_2 t o hplace =>
    dsimp only
    split
    case isFalse => exact hpoke
    case isTrue =>
      refine ⟨rfl, rfl, rfl, rfl, fun j => ?_⟩
      rw [Dev.tile_setTile]
      split
      case isTrue h => exact ⟨true, by rw [h]; rfl⟩
      case isFalse => exact ⟨(d.tile j).moverAwake, rfl⟩

theorem Writes.badWords {d e : Dev} {a : Nat} {bs : List Byte} (h : Writes d e a bs) (j : Nat) : (e.tile j).badWords = (d.tile j).badWords := by
  obtain ⟨b, hb⟩ := h.tile j
  rw [hb]

theorem Writes.vregs {d e : Dev} {a : Nat} {bs : List Byte} (h : Writes d e a bs) (j : Nat) : (e.tile j).vregs = (d.tile j).vregs := by
  obtain ⟨b, hb⟩ := h.tile j
  rw [hb]

/-- Pieces of bytes that lie one after another from `o`. -/
def Abut : Nat → List (Nat × List Byte) → Prop
  | _, [] => True
  | o, p :: r => p.1 = o ∧ p.2 ≠ [] ∧ Abut (o + p.2.length) r

theorem foldl_first {α β : Type} {g : α → β → α} {y z : α} {p : β} (h : g y p = z) (ps : List β) : (p :: ps).foldl g y = ps.foldl g z := by
  rw [List.foldl_cons, h]

theorem storeAll_cons {d e : Dev} {m : Mem} {t : Nat} {p : Nat × List Byte} (h : d.store m (scrBase t + p.1) p.2 = (e, none)) (ps : List (Nat × List Byte)) :
    d.storeAll m t (p :: ps) = (e.wakeMover (scrBase t + p.1) p.2.length).storeAll m t ps := by
  unfold Dev.storeAll
  refine foldl_first ?_ ps
  beta_reduce
  generalize hx : (d, (none : Option (Nat × Nat))).1.store m (scrBase t + p.1) p.2 = x
  obtain rfl : x = (e, none) := hx.symm.trans h
  rfl

/-- Pieces that lie one after another within a scratchpad without a bad word are written as one run. -/
theorem storeAll_writes {t : Nat} (ht : t < 64) (m : Mem) {o : Nat} {ps : List (Nat × List Byte)} (habut : Abut o ps)
    (hroom : o + (ps.flatMap (·.2)).length ≤ 0x2000000) {d : Dev} (hgood : (d.tile t).badWords = []) :
    ∃ e, d.storeAll m t ps = (e, none) ∧ Writes d e (scrBase t + o) (ps.flatMap (·.2)) := by
  induction ps generalizing o d with
  | nil => exact ⟨d, rfl, Writes.refl d _⟩
  | cons p ps ih =>
    obtain ⟨hat, hnonempty, hrest⟩ := habut
    have hpos := List.length_pos_iff.mpr hnonempty
    rw [List.flatMap_cons, List.length_append] at hroom
    have hstore := store_scratchpad m (d := d) (bs := p.2) ht hgood (.inl (show o < 0x2000000 by omega))
    have hw := writes_wakeMover d (scrBase t + o) p.2 (scrBase t + o) p.2.length
    obtain ⟨e, he, hwrites⟩ := ih hrest (by omega) ((hw.badWords t).trans hgood)
    refine ⟨e, ?_, ?_⟩
    · rw [storeAll_cons (e := d.pokeN (scrBase t + o) p.2) (by rw [hat]; exact hstore), hat]
      exact he
    · rw [List.flatMap_cons]
      rw [← Nat.add_assoc] at hwrites
      exact hw.trans hwrites

/-- A command that has written one run of bytes after leaving memory alone. -/
theorem writes_holds (s : State) {d e : Dev} {a : Nat} {bs : List Byte} (h : Writes d e a bs) (hstores : d.stores = []) (hwipes : d.wipes = []) :
    Holds (s.commit e) a bs ∧ SameMemBut s (s.commit e) a bs.length := by
  refine holds_of_pokeN s ?_ (h.wipes.trans hwipes)
  rw [h.stores, Dev.pokeN, hstores]
  rfl

end Sys2Proof.Machine
end

section
/-! Strips, descriptors, semaphores and the order word (R106, R112, R121, R127). -/

namespace Sys2Proof.Machine

open Sys2Proof.Claims (Ends Quiet Holds SameMemBut VecFrame LanesBecome VecRejected)

/-- The tile that has taken an instruction, and nothing else has changed of it but its descriptors, semaphores or registers. -/
theorem vecFrame_begun (s : State) (t : Fin 64) : VecFrame s (s.commit (s.begin.vecBegun t)) t [] := by
  obtain ⟨htaken, htiles, hregs, hstores, hwipes, hinstr, hother⟩ := s.begin.vecBegun_fields t
  refine vecFrame_of _ [] (y := (s.dev.tile t).vecTaken) ⟨rfl, rfl, rfl, rfl⟩ (fun j => ?_) hregs hstores hwipes hinstr (fun k hk _ => hother k hk)
  split
  case isTrue h => rw [← h]; exact htaken
  case isFalse h => exact htiles j (Ne.symm h)

theorem vregs_begun (s : State) (t : Fin 64) : ((s.commit (s.begin.vecBegun t)).dev.tile t).vregs = (s.dev.tile t).vregs := by
  rw [Dev.tile_commit, (s.begin.vecBegun_fields t).1]
  exact (s.dev.tile t).vecTaken_fields.1

theorem vecNop_ends (s : State) (t : Fin 64) (a : Nat) (v : BitVec 64)
    (hdue : s.begin.vecDue s.mem t (fun op => op == 0 || !vOpListed op) = some (a, v)) (hop : vOp v = 0) (hty : vType v ≠ 3) :
    Ends (.vecNop t) s (fun u => VecFrame s u t [] ∧ (u.dev.tile t).vregs = (s.dev.tile t).vregs) := by
  refine ends_of_run (x := xVecNop t) (d := s.begin.vecBegun t) rfl ?_ ⟨vecFrame_begun s t, vregs_begun s t⟩
  unfold xVecNop
  rw [hdue]
  dsimp only
  rw [if_pos (by rw [hop]; simpa using hty)]
  rfl

theorem vecNop_rejects (s : State) (t : Fin 64) (a : Nat) (v : BitVec 64)
    (hdue : s.begin.vecDue s.mem t (fun op => op == 0 || !vOpListed op) = some (a, v)) (hop : vOpListed (vOp v) = false)
    (hfree : s.dev.ownerOf t = none) : VecRejected (.vecNop t) s t := by
  have hne : vOp v ≠ 0 := fun h => by rw [h] at hop; exact absurd hop (by decide)
  refine vecRejected_of (x := xVecNop t) (a := a) rfl hfree ?_
  unfold xVecNop
  rw [hdue]
  dsimp only
  rw [if_neg (by simp [hne])]

/-! LD (R106). -/

theorem flatMap_length {α β : Type} {l : List α} {f : α → List β} {n : Nat} (h : ∀ x ∈ l, (f x).length = n) : (l.flatMap f).length = n * l.length := by
  induction l with
  | nil => rfl
  | cons a l ih =>
    rw [List.flatMap_cons, List.length_append, h a (List.mem_cons_self ..), ih fun x hx => h x (List.mem_cons_of_mem _ hx), List.length_cons, Nat.mul_succ,
      Nat.add_comm]

/-- A line holds 32 codes, in as many bytes as the format makes them (Table 3.1). -/
theorem unpackCodes_line {fmt : Nat} (h : fmt ≤ 10) {bs : List Byte} (hlen : bs.length = lineBytes fmt) : (unpackCodes (codeWidth fmt) bs).length = 32 := by
  have hwidth : codeWidth fmt = 4 ∨ codeWidth fmt = 8 ∨ codeWidth fmt = 16 ∨ codeWidth fmt = 32 := by interval_cases fmt <;> decide
  unfold lineBytes at hlen
  unfold unpackCodes
  rcases hwidth with hw | hw | hw | hw <;> rw [hw] at hlen ⊢
  · rw [if_pos rfl, flatMap_length (n := 2) fun _ _ => rfl, hlen]
  all_goals
    rw [if_neg (by decide), List.length_map, chunk_length, hlen]

theorem lineBytes_pos {fmt : Nat} (h : fmt ≤ 10) : 0 < lineBytes fmt := by interval_cases fmt <;> decide

theorem stripLines_count (ty : Nat) : 32 * stripLines ty = laneCount ty := by
  unfold stripLines laneCount
  split <;> rfl

theorem loadLanes_length (m : Mem) (d : Dev) (t : Nat) {v : BitVec 64} (hfmt : vFmt v ≤ 10) : (loadLanes m d t v).length = laneCount (vType v) := by
  unfold loadLanes
  extract_lets x read lines scales sg
  have hlines : lines.length = stripLines (vType v) := by
    rw [List.length_map, Tile.codeRanges, List.length_map, List.length_range]
  rw [flatMap_length (n := 32) fun p hp => ?_, List.length_zipIdx, hlines, stripLines_count]
  rw [List.length_map, List.length_zipIdx]
  obtain ⟨r, hr, hline⟩ := List.mem_map.mp (List.fst_mem_of_mem_zipIdx hp)
  rw [← hline]
  refine unpackCodes_line hfmt ?_
  obtain ⟨i, -, rfl⟩ := List.mem_map.mp hr
  exact peekN_length _ _ _ _

/-- Taking an instruction leaves the strip's layout. -/
theorem Tile.vecTaken_ranges (x : Tile) (v : BitVec 64) : x.vecTaken.codeRanges v = x.codeRanges v ∧ x.vecTaken.scaleRanges v = x.scaleRanges v := by
  obtain ⟨-, -, -, -, -, -, hlayout, -⟩ := x.vecTaken_fields
  simp only [Tile.codeRanges, Tile.scaleRanges, Tile.codeStride, Tile.scaleBase, Tile.scaleStride, hlayout, and_self]

theorem loadLanes_vecBegun (m : Mem) (d : Dev) (t : Nat) (v : BitVec 64) : loadLanes m (d.vecBegun t) t v = loadLanes m d t v := by
  have hpeek : ∀ a n, peekN m (d.vecBegun t) a n = peekN m d a n := peekN_congr (d := d.vecBegun t) (e := d) rfl rfl m
  simp only [loadLanes, (d.vecBegun_fields t).1, hpeek, (Tile.vecTaken_ranges _ _).1, (Tile.vecTaken_ranges _ _).2]

theorem vecLd_ends (s : State) (t : Fin 64) (a : Nat) (v : BitVec 64) (hdue : s.begin.vecDue s.mem t (· == 1) = some (a, v)) (hty : vType v ≠ 3)
    (hok : stripOk (s.dev.tile t) v = true) (hgood : (s.dev.tile t).badWords = []) :
    Ends (.vecLd t ⟨[], []⟩) s (fun u => VecFrame s u t [] ∧ LanesBecome s u t v (loadLanes s.mem s.begin t v)) := by
  have hfmt : vFmt v ≤ 10 := by
    simp only [stripOk, Bool.and_eq_true, decide_eq_true_eq] at hok
    exact hok.1.1.1.1.1
  have heffect : xVecLd t ⟨[], []⟩ s.mem s.begin
      = (s.begin.vecBegun t).setTile t ((s.dev.tile t).vecTaken.setLanes (vType v) (vVd v) (loadLanes s.mem s.begin t v)) := by
    refine (vecFront_takes (d := s.begin) (ok := stripOk) _ hdue hty hok).trans ?_
    dsimp only
    rw [scrRead_clean (vecBegun_clean (d := s.begin) hgood)]
    dsimp only
    rw [loadLanes_vecBegun, (s.begin.vecBegun_fields t).1]
    rfl
  refine ends_of_run (x := xVecLd t ⟨[], []⟩) rfl heffect ⟨vecFrame_setTile s t ⟨rfl, rfl, rfl, rfl⟩, lanesBecome_of (loadLanes_length _ _ _ hfmt) ?_⟩
  rw [Dev.tile_commit, Dev.tile_setTile_same]

/-! Descriptors. -/

theorem vecDescriptor_takes {s : State} {t : Fin 64} {op a : Nat} {v : BitVec 64} (f : Tile → BitVec 128 → Tile)
    (hdue : s.begin.vecDue s.mem t (· == op) = some (a, v)) (hty : vType v ≠ 3) (hroom : vAddr v * 32 + 16 ≤ scrSize)
    (hgood : (s.dev.tile t).badWords = []) : vecDescriptor op f t s.mem s.begin
      = (s.begin.vecBegun t).setTile t (f (s.dev.tile t).vecTaken (BitVec.ofNat 128 (peekLE s.mem s.begin (scrBase t + vAddr v * 32) 16))) := by
  refine (vecFront_takes (d := s.begin) (ok := fun _ v => vAddr v * 32 + 16 ≤ scrSize) _ hdue hty (decide_eq_true hroom)).trans ?_
  rw [scrRead_clean (vecBegun_clean (d := s.begin) hgood)]
  dsimp only
  rw [peekLE_vecBegun, (s.begin.vecBegun_fields t).1]
  rfl

theorem vecLayout_ends (s : State) (t : Fin 64) (a : Nat) (v : BitVec 64) (hdue : s.begin.vecDue s.mem t (· == 3) = some (a, v)) (hty : vType v ≠ 3)
    (hroom : vAddr v * 32 + 16 ≤ scrSize) (hgood : (s.dev.tile t).badWords = []) :
    Ends (.vecLayout t) s (fun u => VecFrame s u t [] ∧ (u.dev.tile t).vregs = (s.dev.tile t).vregs ∧
      (u.dev.tile t).key = (s.dev.tile t).key ∧
      (u.dev.tile t).layout = BitVec.ofNat 128 (peekLE s.mem s.begin (scrBase t + vAddr v * 32) 16)) := by
  refine ends_of_run (x := xVecLayout t) rfl (vecDescriptor_takes _ hdue hty hroom hgood) ⟨vecFrame_setTile s t ⟨rfl, rfl, rfl, rfl⟩, ?_, ?_, ?_⟩
  all_goals rw [Dev.tile_commit, Dev.tile_setTile_same]
  · exact (s.dev.tile t).vecTaken_fields.1
  · exact (s.dev.tile t).vecTaken_fields.2.2.2.2.2.2.2.1

theorem vecKey_ends (s : State) (t : Fin 64) (a : Nat) (v : BitVec 64) (hdue : s.begin.vecDue s.mem t (· == 4) = some (a, v)) (hty : vType v ≠ 3)
    (hroom : vAddr v * 32 + 16 ≤ scrSize) (hgood : (s.dev.tile t).badWords = []) :
    Ends (.vecKey t) s (fun u => VecFrame s u t [] ∧ (u.dev.tile t).vregs = (s.dev.tile t).vregs ∧
      (u.dev.tile t).layout = (s.dev.tile t).layout ∧
      (u.dev.tile t).key = BitVec.ofNat 128 (peekLE s.mem s.begin (scrBase t + vAddr v * 32) 16)) := by
  refine ends_of_run (x := xVecKey t) rfl (vecDescriptor_takes _ hdue hty hroom hgood) ⟨vecFrame_setTile s t ⟨rfl, rfl, rfl, rfl⟩, ?_, ?_, ?_⟩
  all_goals rw [Dev.tile_commit, Dev.tile_setTile_same]
  · exact (s.dev.tile t).vecTaken_fields.1
  · exact (s.dev.tile t).vecTaken_fields.2.2.2.2.2.2.1

/-! Semaphores (R106). -/

theorem semBit {n k : Nat} (hn : n < 16) : (BitVec.ofNat 16 (2 ^ k)).getLsbD n = (n == k) := by
  rw [BitVec.getLsbD_ofNat, decide_eq_true hn, Bool.true_and, Nat.testBit_two_pow]
  by_cases h : k = n
  · rw [decide_eq_true h, h, beq_self_eq_true]
  · rw [decide_eq_false h, beq_eq_false_iff_ne.mpr (Ne.symm h)]

theorem vecSig_ends (s : State) (t : Fin 64) (a : Nat) (v : BitVec 64) (hdue : s.begin.vecDue s.mem t (· == 5) = some (a, v)) (hty : vType v ≠ 3) :
    Ends (.vecSig t) s (fun u => VecFrame s u t [] ∧ (u.dev.tile t).vregs = (s.dev.tile t).vregs ∧
      (∀ n, n < 16 → (u.dev.tile t).sem n = ((s.dev.tile t).sem n || n == vAddr v % 16))) := by
  obtain ⟨hvregs, -, -, -, -, -, -, -, -, hsems, -⟩ := (s.dev.tile t).vecTaken_fields
  refine ends_of_run (x := xVecSig t) rfl (vecFront_takes (d := s.begin) (ok := vecAny) _ hdue hty rfl) ?_
  rw [Dev.setSem, (s.begin.vecBegun_fields t).1]
  refine ⟨vecFrame_setTile s t ⟨rfl, rfl, rfl, rfl⟩, ?_, fun n hn => ?_⟩
  all_goals rw [Dev.tile_commit, Dev.tile_setTile_same]
  · exact hvregs
  · rw [Tile.sem, BitVec.getLsbD_or, semBit hn, show (s.begin.tile t).vecTaken.sems = _ from hsems, Tile.sem]

theorem vecWait_ends (s : State) (t : Fin 64) (a : Nat) (v : BitVec 64) (hdue : s.begin.vecDue s.mem t (· == 6) = some (a, v)) (hty : vType v ≠ 3)
    (hset : (s.dev.tile t).sem (vAddr v % 16) = true) :
    Ends (.vecWait t) s (fun u => VecFrame s u t [] ∧ (u.dev.tile t).vregs = (s.dev.tile t).vregs ∧
      (∀ n, n < 16 → (u.dev.tile t).sem n = ((s.dev.tile t).sem n && n != vAddr v % 16))) := by
  obtain ⟨hvregs, -, -, -, -, -, -, -, -, hsems, -⟩ := (s.dev.tile t).vecTaken_fields
  have hset' : (s.begin.tile t).sem (vAddr v % 16) = true := hset
  have heffect : xVecWait t s.mem s.begin = (s.begin.vecBegun t).clearSem t (vAddr v % 16) := by
    unfold xVecWait
    rw [hdue]
    dsimp only
    rw [if_neg hty, if_pos hset']
    rfl
  refine ends_of_run (x := xVecWait t) rfl heffect ?_
  rw [Dev.clearSem, (s.begin.vecBegun_fields t).1]
  refine ⟨vecFrame_setTile s t ⟨rfl, rfl, rfl, rfl⟩, ?_, fun n hn => ?_⟩
  all_goals rw [Dev.tile_commit, Dev.tile_setTile_same]
  · exact hvregs
  · rw [Tile.sem, BitVec.getLsbD_and, BitVec.getLsbD_not, semBit hn, decide_eq_true hn, Bool.true_and, show (s.begin.tile t).vecTaken.sems = _ from hsems,
      Tile.sem]
    rfl

theorem vecWait_waits (s : State) (t : Fin 64) (a : Nat) (v : BitVec 64) (hdue : s.begin.vecDue s.mem t (· == 6) = some (a, v)) (hty : vType v ≠ 3)
    (hclear : (s.dev.tile t).sem (vAddr v % 16) = false) : Quiet (.vecWait t) s (s.begin.setTile t { s.dev.tile t with vecWaiting := true }) := by
  have hclear' : ¬ (s.begin.tile t).sem (vAddr v % 16) = true := by rw [show (s.begin.tile t).sem _ = _ from hclear]; exact Bool.false_ne_true
  refine quiet_of_run (x := xVecWait t) rfl ?_ rfl rfl
  unfold xVecWait
  rw [hdue]
  dsimp only
  rw [if_neg hty, if_neg hclear']
  rfl

/-! The order word (R121). -/

/-- GORD reads the order word. -/
theorem xVecGord_reads {s : State} {t : Fin 64} {a : Nat} {v : BitVec 64} (hdue : s.begin.vecDue s.mem t (· == 0x20) = some (a, v)) (hty : vType v ≠ 3)
    (hroom : vAddr v * 32 + 2 ≤ scrSize) (hgood : (s.dev.tile t).badWords = []) : xVecGord t s.mem s.begin
      = if peekLE s.mem s.begin (scrBase t + vAddr v * 32) 2 = (s.dev.tile t).mbId.toNat then s.begin.vecBegun t
        else (s.begin.setTile t { s.dev.tile t with vecWaiting := true }).bump (Reg.tileVecOrderWait t) := by
  have hgo : ¬ (decide (vType v = 3) || decide (scrSize < vAddr v * 32 + 2)) = true := by
    simp only [Bool.or_eq_true, decide_eq_true_eq]
    omega
  unfold xVecGord
  rw [hdue]
  dsimp only
  rw [if_neg hgo, scrRead_clean (d := s.begin) hgood]
  rfl

theorem vecGord_ends (s : State) (t : Fin 64) (a : Nat) (v : BitVec 64) (hdue : s.begin.vecDue s.mem t (· == 0x20) = some (a, v)) (hty : vType v ≠ 3)
    (hroom : vAddr v * 32 + 2 ≤ scrSize) (hgood : (s.dev.tile t).badWords = [])
    (hturn : peekLE s.mem s.begin (scrBase t + vAddr v * 32) 2 = (s.dev.tile t).mbId.toNat) :
    Ends (.vecGord t) s (fun u => VecFrame s u t [] ∧ (u.dev.tile t).vregs = (s.dev.tile t).vregs) :=
  ends_of_run (x := xVecGord t) rfl ((xVecGord_reads hdue hty hroom hgood).trans (if_pos hturn)) ⟨vecFrame_begun s t, vregs_begun s t⟩

theorem vecGord_waits (s : State) (t : Fin 64) (a : Nat) (v : BitVec 64) (hdue : s.begin.vecDue s.mem t (· == 0x20) = some (a, v)) (hty : vType v ≠ 3)
    (hroom : vAddr v * 32 + 2 ≤ scrSize) (hgood : (s.dev.tile t).badWords = [])
    (hturn : peekLE s.mem s.begin (scrBase t + vAddr v * 32) 2 ≠ (s.dev.tile t).mbId.toNat) :
    Quiet (.vecGord t) s ((s.begin.setTile t { s.dev.tile t with vecWaiting := true }).bump (Reg.tileVecOrderWait t)) :=
  quiet_of_run (x := xVecGord t) rfl ((xVecGord_reads hdue hty hroom hgood).trans (if_neg hturn)) rfl rfl

/-- A tile whose GADV is the last to have written the order word. -/
def Tile.orders (x : Tile) (a u : Nat) : Tile := { x with gadvUnit := mset x.gadvUnit a u }

theorem vecGadv_ends (s : State) (t : Fin 64) (a : Nat) (v : BitVec 64) (hdue : s.begin.vecDue s.mem t (· == 0x21) = some (a, v)) (hty : vType v ≠ 3)
    (hroom : vAddr v * 32 + 2 ≤ scrSize) (hgood : (s.dev.tile t).badWords = []) :
    Ends (.vecGadv t) s (fun u => Holds u (scrBase t + vAddr v * 32) (toLE 2 (((s.dev.tile t).mbId.toNat + 1) % 65536)) ∧
      SameMemBut s u (scrBase t + vAddr v * 32) 2 ∧ (u.dev.tile t).vregs = (s.dev.tile t).vregs ∧ u.dev.regs = s.dev.regs ∧
      u.dev.count (Reg.tileVecInstr t) = s.dev.count (Reg.tileVecInstr t) + 1) := by
  obtain ⟨hvregs, -, -, -, -, hbad, -, -, hmb, -⟩ := (s.dev.tile t).vecTaken_fields
  obtain ⟨htaken, -, hregs, hstores, hwipes, hinstr, -⟩ := s.begin.vecBegun_fields t
  obtain ⟨d, hd⟩ : ∃ d, d = (s.begin.vecBegun t).setTile t ((s.dev.tile t).vecTaken.orders (vAddr v * 32) (4 * t + 1)) := ⟨_, rfl⟩
  have htile : d.tile t = (s.dev.tile t).vecTaken.orders (vAddr v * 32) (4 * t + 1) := by rw [hd, Dev.tile_setTile_same]
  have hlen : (toLE 2 (((s.dev.tile t).mbId.toNat + 1) % 65536)).length = 2 := toLE_length _ _
  obtain ⟨e, he, hw⟩ := storeAll_writes t.isLt s.mem (o := vAddr v * 32) (ps := [(vAddr v * 32, toLE 2 (((s.dev.tile t).mbId.toNat + 1) % 65536))])
    (d := d) ⟨rfl, List.ne_nil_of_length_pos (by rw [hlen]; decide), trivial⟩ (by rw [List.flatMap_singleton, hlen]; exact hroom)
    (by rw [htile]; exact hbad.trans hgood)
  rw [List.flatMap_singleton] at hw
  have heffect : xVecGadv t s.mem s.begin = e := by
    refine (vecFront_takes (d := s.begin) (ok := fun _ v => vAddr v * 32 + 2 ≤ scrSize) _ hdue hty (decide_eq_true hroom)).trans ?_
    beta_reduce
    extract_lets x d'
    have hx : x = (s.dev.tile t).vecTaken := htaken
    have hd' : d' = d := by rw [hd, ← hx]; rfl
    generalize hall : d'.storeAll s.mem t _ = y
    rw [hd', hx, hmb] at hall
    obtain rfl : y = (e, none) := hall.symm.trans he
    rfl
  have hmem := writes_holds s hw (by rw [hd]; exact hstores) (by rw [hd]; exact hwipes)
  rw [hlen] at hmem
  refine ends_of_run (x := xVecGadv t) rfl heffect ⟨hmem.1, hmem.2, ?_, ?_, ?_⟩
  · rw [Dev.tile_commit, hw.vregs, htile]
    exact hvregs
  · rw [State.commit_regs, hw.regs, hd]
    exact hregs
  · rw [Dev.count_commit, Dev.count, hw.counters, hd]
    exact hinstr

/-! ST (R106). -/

/-- Pieces of one length at one stride abut. -/
theorem abut_strided {α : Type} {f : α → List Byte} {o w : Nat} (hw : 0 < w) {l : List α} (hlen : ∀ x ∈ l, (f x).length = w) (k : Nat) :
    Abut (o + k * w) ((((List.range' k l.length).map (fun i => (o + i * w, w))).zip l).map (fun p => (p.1.1, f p.2))) := by
  induction l generalizing k with
  | nil => exact trivial
  | cons x l ih =>
    have hx := hlen x (List.mem_cons_self ..)
    rw [List.length_cons, List.range'_succ]
    refine ⟨rfl, List.ne_nil_of_length_pos (by rw [hx]; exact hw), ?_⟩
    have hrest := ih (fun y hy => hlen y (List.mem_cons_of_mem _ hy)) (k + 1)
    rw [Nat.succ_mul, ← Nat.add_assoc] at hrest
    rw [hx]
    exact hrest

theorem flatMap_strided {α : Type} {f : α → List Byte} {g : Nat → Nat × Nat} {l : List α} (k : Nat) :
    ((((List.range' k l.length).map g).zip l).map (fun p => (p.1.1, f p.2))).flatMap (·.2) = l.flatMap f := by
  induction l generalizing k with
  | nil => rfl
  | cons x l ih =>
    rw [List.length_cons, List.range'_succ, List.map_cons, List.zip_cons_cons, List.map_cons, List.flatMap_cons, ih, List.flatMap_cons]

/-- What an ST writes does not depend on the instruction having been taken. -/
theorem stLines_vecBegun (d : Dev) (t : Nat) (v : BitVec 64) : (d.vecBegun t).stLines t v = d.stLines t v := by
  obtain ⟨-, -, -, -, -, -, -, hkey, -, -, hupd⟩ := (d.tile t).vecTaken_fields
  have hgen : (d.vecBegun t).genKey t = d.genKey t := by
    rw [Dev.genKey, (d.vecBegun_fields t).1, hupd]
    rfl
  simp only [Dev.stLines, Dev.stRounding, hgen, (d.vecBegun_fields t).1, hkey, Tile.vecTaken_lanes]

theorem mem_chunk_length {α : Type} {n k : Nat} {l c : List α} (hl : l.length = n * k) (hc : c ∈ chunk n k l) : c.length = n := by
  obtain ⟨j, hj, rfl⟩ := List.mem_iff_getElem.mp hc
  rw [chunk_length] at hj
  have hget := chunk_getElem? l hj (n := n)
  rw [List.getElem?_eq_getElem (by rwa [chunk_length]), Option.some.injEq] at hget
  have hle : n * (j + 1) ≤ n * k := Nat.mul_le_mul_left _ hj
  rw [Nat.mul_succ] at hle
  rw [hget, List.length_take, List.length_drop, hl]
  omega

/-- An ST without scales writes a line of 32 codes for each line of its strip, and no scale. -/
theorem stLines_unscaled {d : Dev} {t : Nat} {v : BitVec 64} (hscale : vScale v = 0) : (d.stLines t v).length = stripLines (vType v) ∧
    ∀ x ∈ d.stLines t v, x.codes.length = 32 := by
  unfold Dev.stLines
  extract_lets x vals r
  refine ⟨by rw [List.length_map, List.length_zipIdx, chunk_length], fun y hy => ?_⟩
  obtain ⟨p, hp, rfl⟩ := List.mem_map.mp hy
  have hvals : vals.length = 32 * stripLines (vType v) := by rw [List.length_map, Tile.lanes_length, stripLines_count]
  have hline := mem_chunk_length hvals (List.fst_mem_of_mem_zipIdx hp)
  rw [stLine, if_pos hscale]
  dsimp only
  rw [List.length_map, List.length_map, List.length_zipIdx, hline]

theorem packCodes_line {fmt : Nat} {l : List Nat} (hlen : l.length = 32) : (packCodes (codeWidth fmt) l).length = lineBytes fmt := by
  have hwhole : 32 * codeWidth fmt = 8 * (4 * codeWidth fmt) := by ring
  rw [packCodes_length, hlen, lineBytes, hwhole]
  unfold ceilDiv
  omega

theorem count_countShare (d : Dev) (t fmt kind : Nat) (evs : List Event3) {k : Nat} (hk : ∀ i, Reg.tileShare t i ≠ k) :
    (d.countShare t fmt kind evs).count k = d.count k := by
  unfold Dev.countShare
  split
  case h_1 => rfl
  case h_2 g hg => simp only [Dev.count_bumpN, hk, if_false]

/-- A tile before its ST writes: the elements counted (R130). -/
def Dev.stCounted (d : Dev) (t : Nat) (v : BitVec 64) : Dev :=
  if stCounts v then (d.vecBegun t).countShare t (vFmt v) (vKind v) ((d.stLines t v).flatMap (·.events)) else d.vecBegun t

theorem stCounted_fields (d : Dev) (t : Nat) (v : BitVec 64) : (d.stCounted t v).tile t = (d.tile t).vecTaken ∧ (d.stCounted t v).regs = d.regs ∧
    (d.stCounted t v).stores = d.stores ∧ (d.stCounted t v).wipes = d.wipes ∧
    (d.stCounted t v).count (Reg.tileVecInstr t) = d.count (Reg.tileVecInstr t) + 1 := by
  obtain ⟨htaken, -, hregs, hstores, hwipes, hinstr, -⟩ := d.vecBegun_fields t
  unfold Dev.stCounted
  split
  case isTrue =>
    obtain ⟨hregs', -, htile', hstores', hwipes'⟩ := countShare_frame (d.vecBegun t) t (vFmt v) (vKind v) ((d.stLines t v).flatMap (·.events))
    refine ⟨(htile' t).trans htaken, hregs'.trans hregs, hstores'.trans hstores, hwipes'.trans hwipes, ?_⟩
    rw [count_countShare _ _ _ _ _ fun i => by unfold Reg.tileShare Reg.tileVecInstr; omega]
    exact hinstr
  case isFalse => exact ⟨htaken, hregs, hstores, hwipes, hinstr⟩

/-- The pieces that an ST without scales writes. -/
def Dev.stPieces (d : Dev) (t : Nat) (v : BitVec 64) : List (Nat × List Byte) :=
  (((d.tile t).codeRanges v).zip (d.stLines t v)).map (fun p => (p.1.1, packCodes (codeWidth (vFmt v)) p.2.codes))

theorem stPieces_run {d : Dev} {t : Nat} {v : BitVec 64} (hfmt : vFmt v ≤ 10) (hscale : vScale v = 0) (hstride : fb (d.tile t).layout 31 0 = 0) :
    Abut (vAddr v * 32) (d.stPieces t v) ∧
    (d.stPieces t v).flatMap (·.2) = (d.stLines t v).flatMap (fun l => packCodes (codeWidth (vFmt v)) l.codes) := by
  obtain ⟨hlines, hcodes⟩ := stLines_unscaled (d := d) (t := t) hscale
  have hranges : (d.tile t).codeRanges v = (List.range' 0 (d.stLines t v).length).map (fun i => (vAddr v * 32 + i * lineBytes (vFmt v), lineBytes (vFmt v))) := by
    rw [Tile.codeRanges, Tile.codeStride, if_pos hstride, hlines, List.range_eq_range']
  rw [Dev.stPieces, hranges]
  refine ⟨?_, flatMap_strided (f := fun x : Drained => packCodes (codeWidth (vFmt v)) x.codes) 0⟩
  have h := abut_strided (o := vAddr v * 32) (f := fun x : Drained => packCodes (codeWidth (vFmt v)) x.codes) (lineBytes_pos hfmt)
    (fun x hx => packCodes_line (hcodes x hx)) 0
  rwa [Nat.zero_mul, Nat.add_zero] at h

theorem vecSt_ends (s : State) (t : Fin 64) (a : Nat) (v : BitVec 64) (hdue : s.begin.vecDue s.mem t (· == 2) = some (a, v)) (hty : vType v ≠ 3)
    (hok : stripOk (s.dev.tile t) v = true) (hsr : srOk v = true) (hscale : vScale v = 0) (hgood : (s.dev.tile t).badWords = [])
    (hstride : fb (s.dev.tile t).layout 31 0 = 0) :
    Ends (.vecSt t) s (fun u =>
      Holds u (scrBase t + vAddr v * 32) ((s.dev.stLines t v).flatMap (fun l => packCodes (codeWidth (vFmt v)) l.codes)) ∧
      SameMemBut s u (scrBase t + vAddr v * 32) (stripLines (vType v) * lineBytes (vFmt v)) ∧
      (u.dev.tile t).vregs = (s.dev.tile t).vregs ∧ u.dev.regs = s.dev.regs ∧
      u.dev.count (Reg.tileVecInstr t) = s.dev.count (Reg.tileVecInstr t) + 1) := by
  obtain ⟨hvregs, -, -, -, -, hbad, -⟩ := (s.dev.tile t).vecTaken_fields
  obtain ⟨htile, hregs, hstores, hwipes, hinstr⟩ := stCounted_fields s.begin t v
  obtain ⟨hlines, hcodes⟩ := stLines_unscaled (d := s.begin) (t := t) hscale
  have hfits := hok
  simp only [stripOk, Bool.and_eq_true, decide_eq_true_eq, Tile.codeStride, hstride, if_true] at hfits
  obtain ⟨⟨⟨⟨⟨hfmt, -⟩, -⟩, -⟩, hroom⟩, -⟩ := hfits
  obtain ⟨habut, hrun⟩ := stPieces_run (d := s.begin) (t := t) hfmt hscale hstride
  have hlen : ((s.begin.stPieces t v).flatMap (·.2)).length = stripLines (vType v) * lineBytes (vFmt v) := by
    rw [hrun, flatMap_length (n := lineBytes (vFmt v)) fun x hx => packCodes_line (hcodes x hx), hlines, Nat.mul_comm]
  have hpos : 0 < stripLines (vType v) := by have := stripLines_count (vType v); unfold laneCount at this; split at this <;> omega
  have hend : (stripLines (vType v) - 1) * lineBytes (vFmt v) + lineBytes (vFmt v) = stripLines (vType v) * lineBytes (vFmt v) := by
    rw [← Nat.succ_mul, Nat.succ_eq_add_one, Nat.sub_add_cancel hpos]
  obtain ⟨e, he, hw⟩ := storeAll_writes t.isLt s.mem habut (by rw [hlen]; rw [scrSize] at hroom; omega) (d := s.begin.stCounted t v)
    (by rw [htile]; exact hbad.trans hgood)
  have heffect : xVecSt t s.mem s.begin = e := by
    refine (vecFront_takes (d := s.begin) (ok := fun x v => stripOk x v && srOk v) _ hdue hty (by rw [hsr, Bool.and_true]; exact hok)).trans ?_
    beta_reduce
    extract_lets x lines codes scales d'
    have hx : x = (s.begin.tile t).vecTaken := (s.begin.vecBegun_fields t).1
    have hlines' : lines = s.begin.stLines t v := stLines_vecBegun _ _ _
    have hcodes' : codes ++ scales = s.begin.stPieces t v := by
      have hnone : scales = [] := by
        show List.map _ ((x.scaleRanges v).zip lines) = []
        rw [Tile.scaleRanges, if_pos hscale]
        rfl
      rw [hnone, List.append_nil, Dev.stPieces, ← hlines', ← (Tile.vecTaken_ranges (s.begin.tile t) v).1, ← hx]
    have hd' : d' = s.begin.stCounted t v := by rw [Dev.stCounted, ← hlines']
    generalize hall : d'.storeAll s.mem t _ = y
    rw [hd', hcodes'] at hall
    obtain rfl : y = (e, none) := hall.symm.trans he
    rfl
  have hmem := writes_holds s hw hstores hwipes
  rw [hlen, hrun] at hmem
  refine ends_of_run (x := xVecSt t) rfl heffect ⟨hmem.1, hmem.2, ?_, ?_, ?_⟩
  · rw [Dev.tile_commit, hw.vregs, htile]
    exact hvregs
  · rw [State.commit_regs, hw.regs]
    exact hregs
  · rw [Dev.count_commit, Dev.count, hw.counters]
    exact hinstr

/-- Settles O23. That a reserved OP is rejected in VEC_NOP's place is the model's choice (log entry 11), and that an order wait counts once for each GORD
that waits is log entry 23's. -/
theorem stripsSemaphoresAndOrder : Obligations.StripsSemaphoresAndOrder :=
  ⟨vecNop_ends, vecNop_rejects, vecLd_ends, vecSt_ends, vecLayout_ends, vecKey_ends, vecSig_ends, vecWait_ends, vecWait_waits, vecGord_ends, vecGord_waits,
    vecGadv_ends⟩

end Sys2Proof.Machine
end

section
/-! Scratchpad words that fail their check (R186, R187), and the mover's wake (R190). -/

namespace Sys2Proof.Machine

open Sys2Proof.Claims (Ends Quiet)

/-- What charging a scratchpad row leaves of a tile that no context owns, whatever its action: every tile's bad words, memory, who owns a tile, and the
counters of tiles and dies. -/
structure KeepsWords (d e : Dev) : Prop where
  words : ∀ j, (e.tile j).badWords = (d.tile j).badWords
  stores : e.stores = d.stores
  wipes : e.wipes = d.wipes
  owner : ∀ t, e.ownerOf t = d.ownerOf t
  count : ∀ k, 0x10000000 ≤ k → e.count k = d.count k

theorem KeepsWords.refl (d : Dev) : KeepsWords d d := ⟨fun _ => rfl, rfl, rfl, fun _ => rfl, fun _ _ => rfl⟩

theorem KeepsWords.trans {d e f : Dev} (h : KeepsWords d e) (g : KeepsWords e f) : KeepsWords d f :=
  ⟨fun j => (g.words j).trans (h.words j), g.stores.trans h.stores, g.wipes.trans h.wipes, fun t => (g.owner t).trans (h.owner t),
    fun k hk => (g.count k hk).trans (h.count k hk)⟩

theorem keepsWords_withRas (d : Dev) (x : Ras) : KeepsWords d (d.withRas x) := ⟨fun _ => rfl, rfl, rfl, fun _ => rfl, fun _ _ => rfl⟩

theorem keepsWords_bump (d : Dev) {k : Nat} (hk : k < 0x10000000) : KeepsWords d (d.bump k) :=
  ⟨fun _ => rfl, rfl, rfl, fun _ => rfl, fun _ hj => Dev.count_bump_other _ (by omega)⟩

theorem keepsWords_event (d : Dev) {cs : List Nat} (hcs : ∀ c ∈ cs, c < 64) (code sev d0 d1 unit : Nat) :
    KeepsWords d (d.event cs code sev d0 d1 unit) :=
  ⟨fun j => by simp, by simp, by simp, fun t => Dev.ownerOf_event _ _ _ _ _ _ _ _, fun _ hk => d.count_event_of_le _ _ _ _ _ _ hk hcs⟩

theorem keepsWords_setTile {d : Dev} {t : Nat} {x : Tile} (h : x.badWords = (d.tile t).badWords) : KeepsWords d (d.setTile t x) := by
  refine ⟨fun j => ?_, rfl, rfl, fun _ => rfl, fun _ _ => rfl⟩
  rw [Dev.tile_setTile]
  split
  case isTrue hj => rw [h, hj]
  case isFalse => rfl

theorem keepsWords_tileEvent (d : Dev) (t code sev d0 d1 : Nat) : KeepsWords d (d.tileEvent t code sev d0 d1) :=
  keepsWords_event d (fun _ h => Dev.ownerOf_lt h) _ _ _ _ _

theorem keepsWords_noteDegraded (d : Dev) : KeepsWords d d.noteDegraded := by
  rcases d.noteDegraded_cases with h | ⟨x, r, h⟩
  · rw [h]; exact .refl d
  · rw [h]
    have hfirst : KeepsWords d { d with ras := { d.ras with degraded := x }, role := r } := ⟨fun _ => rfl, rfl, rfl, fun _ => rfl, fun _ _ => rfl⟩
    exact hfirst.trans (keepsWords_event _ (fun _ hc => absurd hc List.not_mem_nil) _ _ _ _ _)

theorem keepsWords_bucketRoom (d : Dev) (cls unit : Nat) : KeepsWords d (d.bucketRoom cls unit) := by
  unfold Dev.bucketRoom
  split
  case h_1 => exact .refl d
  case h_2 g size hg =>
    dsimp only
    split
    case isTrue => exact .refl d
    case isFalse =>
      split
      case h_1 => exact .refl d
      case h_2 k hk => exact (keepsWords_withRas d _).trans (keepsWords_bump _ (by unfold Reg.rasLbEvict; omega))

theorem keepsWords_charge (d : Dev) {cls : Nat} (hcls : cls < 6) (unit : Nat) (unc : Bool) {cs : List Nat} (hcs : ∀ c ∈ cs, c < 64) (u : Nat) :
    KeepsWords d (d.charge cls unit unc cs u).1 := by
  unfold Dev.charge
  extract_lets k d' b n l clock
  have hroom : KeepsWords d d' := by
    unfold d'
    split
    case isTrue => exact keepsWords_bucketRoom d _ _
    case isFalse => exact .refl d
  split
  case isTrue =>
    exact hroom.trans ((keepsWords_withRas d' _).trans ((keepsWords_bump _ (by unfold Reg.rasLasting; omega)).trans (keepsWords_event _ hcs _ _ _ _ _)))
  case isFalse => exact hroom.trans (keepsWords_withRas d' _)

theorem keepsWords_tileError {d : Dev} (m : Mem) {t : Nat} (hfree : d.ownerOf t = none) (code d0 d1 : Nat) :
    KeepsWords d (d.tileError m t code d0 d1 true) := by
  rw [tileError_of_unowned m hfree]
  exact (keepsWords_setTile (by rfl)).trans (keepsWords_tileEvent _ _ _ _ _ _)

theorem keepsWords_retireTile {d : Dev} (m : Mem) {t : Nat} (hfree : d.ownerOf t = none) (d0 : Nat) : KeepsWords d (d.retireTile m t d0) := by
  unfold Dev.retireTile
  split
  case isTrue => exact .refl d
  case isFalse =>
    extract_lets e x f
    have hreset : KeepsWords d e := (keepsWords_setTile (d := d) (t := t) (x := (d.tile t).afterReset) rfl).trans ⟨fun _ => rfl, rfl, rfl, fun _ => rfl, fun _ _ => rfl⟩
    have hretired : KeepsWords d f := hreset.trans (keepsWords_setTile rfl)
    exact hretired.trans ((keepsWords_tileError m ((hretired.owner t).trans hfree) _ _ _).trans (keepsWords_noteDegraded _))

theorem keepsWords_spareRow {d : Dev} (m : Mem) {t : Nat} (hfree : d.ownerOf t = none) (bank row : Nat) : KeepsWords d (d.spareRow m t bank row) := by
  unfold Dev.spareRow
  extract_lets x
  split
  case isTrue => exact (keepsWords_setTile (by rfl)).trans (keepsWords_tileEvent _ _ _ _ _ _)
  case isFalse =>
    have hexhausted : KeepsWords d (d.exhausted 2 (scrRowUnit t bank row) (d.ownerOf t).toList t) :=
      keepsWords_event d (fun _ h => Dev.ownerOf_lt h) _ _ _ _ _
    exact hexhausted.trans (keepsWords_retireTile m ((hexhausted.owner t).trans hfree) _)

theorem keepsWords_chargeRow {d : Dev} (m : Mem) {t : Nat} (hfree : d.ownerOf t = none) (w : Nat) (unc : Bool) : KeepsWords d (d.chargeRow m t w unc) := by
  have hcharge := keepsWords_charge d (cls := 2) (by decide) (scrRowUnit t (wordBank w) (wordRow w)) unc (cs := (d.ownerOf t).toList)
    (fun _ h => Dev.ownerOf_lt h) t
  unfold Dev.chargeRow
  dsimp only
  split
  case isTrue => exact hcharge
  case isFalse =>
    split
    case isTrue => exact hcharge.trans (keepsWords_withRas _ _)
    case isFalse => exact hcharge.trans (keepsWords_spareRow m ((hcharge.owner t).trans hfree) _ _)

/-! The patrol scrub of a scratchpad row (R186). -/

theorem xScratchpadScrub_reads {d : Dev} (m : Mem) {t row : Nat} (hclk : d.tclk t = true) (hlive : (d.tile t).state ≠ .retired)
    (hclear : (d.tile t).clearing = false) (e : WordErrors) : xScratchpadScrub t row e m d = (d.scrRead m t [(row * 4096, 4096)] e).1 := by
  unfold xScratchpadScrub
  dsimp only
  rw [if_neg (by simp [hclk, hlive, hclear])]

/-- A word of a row lies within the row's bytes. -/
theorem wordInRow {row w : Nat} (h : w / 512 = row) :
    ([(row * 4096, 4096)].any fun p => decide (8 * w < p.1 + p.2) && decide (p.1 < 8 * w + 8)) = true := by
  rw [List.any_cons, List.any_nil, Bool.or_false, Bool.and_eq_true, decide_eq_true_eq, decide_eq_true_eq]
  constructor <;> dsimp only <;> omega

theorem scrRead_corrects {d : Dev} (m : Mem) {t row w : Nat} (hgood : (d.tile t).badWords = []) (hrow : w / 512 = row) :
    (d.scrRead m t [(row * 4096, 4096)] ⟨[w], []⟩).1 = d.wordCorrected m t w := by
  unfold Dev.scrRead
  simp only [hgood, List.filter_nil, List.append_nil, List.dedup_nil, List.contains_nil, Bool.not_false, Bool.and_true]
  rw [List.filter_cons_of_pos (p := fun w => [(row * 4096, 4096)].any fun p => decide (8 * w < p.1 + p.2) && decide (p.1 < 8 * w + 8)) (wordInRow hrow), List.filter_nil, (List.nodup_singleton w).dedup, Dev.each_nil, Dev.each_cons, Dev.each_nil]

theorem scrRead_fails {d : Dev} (m : Mem) {t row w : Nat} (hgood : (d.tile t).badWords = []) (hrow : w / 512 = row) :
    (d.scrRead m t [(row * 4096, 4096)] ⟨[], [w]⟩).1 = d.wordBad m t w := by
  unfold Dev.scrRead
  simp only [hgood, List.filter_nil, List.append_nil, List.dedup_nil]
  rw [List.filter_cons_of_pos (p := fun w => [(row * 4096, 4096)].any fun p => decide (8 * w < p.1 + p.2) && decide (p.1 < 8 * w + 8)) (wordInRow hrow), List.filter_nil, (List.nodup_singleton w).dedup, Dev.each_nil, Dev.each_cons, Dev.each_nil]

theorem scrub_clean (s : State) (t : Fin 64) (row : Fin 8192) (hclk : s.dev.tclk t = true) (hlive : (s.dev.tile t).state ≠ .retired)
    (hclear : (s.dev.tile t).clearing = false) (hgood : (s.dev.tile t).badWords = []) : Quiet (.scratchpadScrub t row ⟨[], []⟩) s s.begin := by
  refine quiet_of_run (x := xScratchpadScrub t row ⟨[], []⟩) rfl ?_ rfl rfl
  rw [xScratchpadScrub_reads (d := s.begin) s.mem hclk hlive hclear, scrRead_clean (d := s.begin) hgood]

/-- A word corrected in a tile without an owner. -/
theorem wordCorrected_unowned {d : Dev} (m : Mem) {t : Nat} (hfree : d.ownerOf t = none) (w : Nat) :
    (d.wordCorrected m t w).count (Reg.tileScrCe t) = d.count (Reg.tileScrCe t) + 1 ∧
    (d.wordCorrected m t w).count (Reg.tileScrUe t) = d.count (Reg.tileScrUe t) ∧
    ((d.wordCorrected m t w).tile t).badWords = (d.tile t).badWords ∧ (d.wordCorrected m t w).stores = d.stores ∧
    (d.wordCorrected m t w).wipes = d.wipes := by
  have hkeeps := keepsWords_chargeRow (d := d.bump (Reg.tileScrCe t)) m (t := t) hfree w false
  refine ⟨?_, ?_, hkeeps.words t, hkeeps.stores, hkeeps.wipes⟩
  · exact (hkeeps.count _ (by unfold Reg.tileScrCe indBlock; omega)).trans (Dev.count_bump_same _ _)
  · exact (hkeeps.count _ (by unfold Reg.tileScrUe indBlock; omega)).trans (Dev.count_bump_other _ (by unfold Reg.tileScrCe Reg.tileScrUe; omega))

/-- A tile with one more word without data. -/
def Tile.withBadWord (x : Tile) (w : Nat) : Tile := { x with badWords := if x.badWords.contains w then x.badWords else w :: x.badWords }

/-- A word found without data in a tile without an owner. -/
theorem wordBad_unowned {d : Dev} (m : Mem) {t : Nat} (hfree : d.ownerOf t = none) (w : Nat) :
    (d.wordBad m t w).count (Reg.tileScrUe t) = d.count (Reg.tileScrUe t) + 1 ∧ (d.wordBad m t w).count (Reg.tileScrCe t) = d.count (Reg.tileScrCe t) ∧
    ((d.wordBad m t w).tile t).badWords = ((d.tile t).withBadWord w).badWords ∧ (d.wordBad m t w).stores = d.stores ∧
    (d.wordBad m t w).wipes = d.wipes := by
  have hevent := keepsWords_tileEvent ((d.setTile t ((d.tile t).withBadWord w)).bump (Reg.tileScrUe t)) t 0x0303 2 (8 * w) 0
  have hkeeps := hevent.trans (keepsWords_chargeRow m ((hevent.owner t).trans hfree) w true)
  refine ⟨?_, ?_, (hkeeps.words t).trans ?_, hkeeps.stores, hkeeps.wipes⟩
  · exact (hkeeps.count _ (by unfold Reg.tileScrUe indBlock; omega)).trans (Dev.count_bump_same _ _)
  · exact (hkeeps.count _ (by unfold Reg.tileScrCe indBlock; omega)).trans (Dev.count_bump_other _ (by unfold Reg.tileScrCe Reg.tileScrUe; omega))
  · rw [Dev.tile_bump, Dev.tile_setTile_same]

theorem scrub_corrects (s : State) (t : Fin 64) (row : Fin 8192) (w : Nat) (hclk : s.dev.tclk t = true) (hlive : (s.dev.tile t).state ≠ .retired)
    (hclear : (s.dev.tile t).clearing = false) (hgood : (s.dev.tile t).badWords = []) (hrow : w / 512 = row) (hfree : s.dev.ownerOf t = none) :
    Ends (.scratchpadScrub t row ⟨[w], []⟩) s (fun u => u.dev.count (Reg.tileScrCe t) = s.dev.count (Reg.tileScrCe t) + 1 ∧
      u.dev.count (Reg.tileScrUe t) = s.dev.count (Reg.tileScrUe t) ∧ (u.dev.tile t).badWords = [] ∧ u.mem = s.mem) := by
  obtain ⟨hce, hue, hwords, hstores, hwipes⟩ := wordCorrected_unowned (d := s.begin) s.mem (t := t) hfree w
  refine ends_of_run (x := xScratchpadScrub t row ⟨[w], []⟩) rfl
    ((xScratchpadScrub_reads (d := s.begin) s.mem hclk hlive hclear _).trans (scrRead_corrects (d := s.begin) s.mem hgood hrow)) ⟨?_, ?_, ?_, ?_⟩
  · rw [Dev.count_commit]; exact hce
  · rw [Dev.count_commit]; exact hue
  · rw [Dev.tile_commit]; exact hwords.trans hgood
  · exact s.commit_mem _ hstores hwipes

theorem scrub_fails (s : State) (t : Fin 64) (row : Fin 8192) (w : Nat) (hclk : s.dev.tclk t = true) (hlive : (s.dev.tile t).state ≠ .retired)
    (hclear : (s.dev.tile t).clearing = false) (hgood : (s.dev.tile t).badWords = []) (hrow : w / 512 = row) (hfree : s.dev.ownerOf t = none) :
    Ends (.scratchpadScrub t row ⟨[], [w]⟩) s (fun u => u.dev.count (Reg.tileScrUe t) = s.dev.count (Reg.tileScrUe t) + 1 ∧
      u.dev.count (Reg.tileScrCe t) = s.dev.count (Reg.tileScrCe t) ∧ (u.dev.tile t).badWords = [w] ∧ u.mem = s.mem) := by
  obtain ⟨hue, hce, hwords, hstores, hwipes⟩ := wordBad_unowned (d := s.begin) s.mem (t := t) hfree w
  have hnew : ((s.dev.tile t).withBadWord w).badWords = [w] := by
    rw [Tile.withBadWord, hgood]
    rfl
  refine ends_of_run (x := xScratchpadScrub t row ⟨[], [w]⟩) rfl
    ((xScratchpadScrub_reads (d := s.begin) s.mem hclk hlive hclear _).trans (scrRead_fails (d := s.begin) s.mem hgood hrow)) ⟨?_, ?_, ?_, ?_⟩
  · rw [Dev.count_commit]; exact hue
  · rw [Dev.count_commit]; exact hce
  · rw [Dev.tile_commit]; exact hwords.trans hnew
  · exact s.commit_mem _ hstores hwipes

/-! The mover's wake (R190). -/

/-- A tile whose mover has read PROD. -/
def Tile.moverPolled (x : Tile) (prod : Nat) : Tile := { x with moverAwake := false, moveProd := BitVec.ofNat 32 prod }

theorem setTile_setTile (d : Dev) (t : Nat) (x y : Tile) : (d.setTile t x).setTile t y = d.setTile t y := by
  simp only [Dev.setTile, mset_mset]

theorem moverWake_ends (s : State) (t : Fin 64) (prod : Nat) (hruns : s.dev.tileRuns t = true) (hawake : (s.dev.tile t).moverAwake = true)
    (hen : s.dev.rb (Reg.tileMoveCtrl t) 31 = true) (hwork : (s.dev.tile t).stopped = false) (hgoes : (s.dev.tile t).moverStopped = false)
    (hprod : prod = peekLE s.mem s.begin (scrBase t + s.dev.rf (Reg.tileMoveCtrl t) 19 0 * 32) 4)
    (hfits : (prod + 2 ^ 32 - (s.dev.reg (Reg.tileMoveCons t)).toNat) % 2 ^ 32 ≤ s.dev.ringSlots t) :
    Ends (.moverWake t) s (fun u => u.dev.tile t = { s.dev.tile t with moverAwake := false, moveProd := BitVec.ofNat 32 prod } ∧
      (∀ j, j ≠ t.val → u.dev.tile j = s.dev.tile j) ∧ u.mem = s.mem ∧ u.dev.regs = s.dev.regs ∧ u.dev.counters = s.dev.counters) := by
  have heffect : xMoverWake t s.mem s.begin = s.begin.setTile t ((s.dev.tile t).moverPolled prod) := by
    unfold xMoverWake
    extract_lets x d base prod' cons y
    have hy : y = { s.dev.tile t with moverAwake := false } := Dev.tile_setTile_same _ _ _
    have hprod' : prod' = prod := by
      rw [hprod]
      unfold prod' peekLE
      rw [peekN_congr (d := d) (e := s.begin) rfl rfl]
      rfl
    have hfits' : ¬ 2 ^ d.rf (Reg.tileMoveCtrl t) 23 20 < (prod + 2 ^ 32 - cons) % 2 ^ 32 := Nat.not_lt.mpr hfits
    rw [if_neg (by
        have hruns' : s.begin.tileRuns t = true := hruns
        have hawake' : x.moverAwake = true := hawake
        have hen' : s.begin.rb (Reg.tileMoveCtrl t) 31 = true := hen
        simp [hruns', hawake', hen']),
      if_neg (by
        have hwork' : x.stopped = false := hwork
        have hgoes' : x.moverStopped = false := hgoes
        simp [hwork', hgoes']), hprod', if_neg hfits']
    rw [hy, setTile_setTile]
    rfl
  refine ends_of_run (x := xMoverWake t) rfl heffect ⟨?_, fun j hj => ?_, State.commit_mem s _ rfl rfl, rfl, rfl⟩
  · rw [Dev.tile_commit, Dev.tile_setTile_same]
    rfl
  · rw [Dev.tile_commit, Dev.tile_setTile, if_neg (Ne.symm hj)]
    rfl

end Sys2Proof.Machine
end

section
/-! The mover's entries (R190, R191). -/

namespace Sys2Proof.Machine

open Sys2Proof.Claims (Ends Quiet SameMemBut)

/-- A tile whose mover has started its next entry. -/
def Tile.moveBegun (x : Tile) (e : BitVec 512) : Tile :=
  { x with moveNext := x.moveNext + 1, moves := x.moves ++ [{ number := x.moveNext, entry := e }] }

/-- The fields that R191 asks of an entry. -/
def MoveFields (e : BitVec 512) : Prop := moveOp e = 2 ∨ movePrio e ≠ 0 ∧ 1 ≤ moveLen e ∧ moveLen e ≤ 2 ^ 30

theorem moveTake_starts {d : Dev} {m : Mem} {t op : Nat} {e : BitVec 512} (hready : d.moverReady t = true)
    (he : e = BitVec.ofNat 512 (peekLE m d (scrBase t + d.moveEntryAt t) 64)) (hop : moveOp e = op) (hknown : op < 3) (hfence : moveFence e = false)
    (hfields : MoveFields e) (hgood : (d.tile t).badWords = []) :
    d.moveTake m t op = (d.setTile t ((d.tile t).moveBegun e), some ((d.tile t).moveNext, e)) := by
  have hreject : (decide (3 ≤ moveOp e) || (op != 2 && decide (movePrio e = 0)) || (op != 2 && (decide (moveLen e = 0) || decide (2 ^ 30 < moveLen e)))) = false := by
    rcases hfields with h | ⟨hprio, hlow, hhigh⟩
    · simp [← hop, h]
    · simp [hop, hprio]
      omega
  unfold Dev.moveTake
  dsimp only
  rw [if_neg (by simp [hready]), ← he, if_neg (by simp [hop]), if_neg (by simp [hfence]), scrRead_clean hgood]
  dsimp only
  rw [hreject, if_neg Bool.false_ne_true]
  rfl

theorem moveRowList_one {e : BitVec 512} (h : moveRows e = 1) : moveRowList e = [(moveSrc e, moveDst e)] := by
  have hsrc : moveSrc e < 2 ^ 64 := fb_lt_two_pow e 511 448
  have hdst : moveDst e < 2 ^ 64 := fb_lt_two_pow e 447 384
  rw [moveRowList, h]
  simp only [List.range_one, List.map_cons, List.map_nil, Nat.zero_mul, Nat.add_zero, Nat.mod_eq_of_lt hsrc, Nat.mod_eq_of_lt hdst]

/-- One end of a row in this package's memory, which context `c` may reach. -/
structure RowEnd (d : Dev) (c g n : Nat) : Prop where
  here : d.isLocal g = true
  inMem : inMemory (gOffset g) n = true
  up : d.lost (memDie (gOffset g)) = false
  may : d.admits c (gOffset g) n = true

theorem localAt_here {d : Dev} {g : Nat} (h : d.isLocal g = true) : d.localAt g = some (gOffset g) := if_pos h

theorem below_control {a n : Nat} (hn : 1 ≤ n) (h : inMemory a n = true) : a < 0x018000000000 := by
  unfold inMemory at h
  simp only [Bool.or_eq_true, Bool.and_eq_true, decide_eq_true_eq] at h
  omega

theorem rowCheck_passes {d : Dev} {c g n : Nat} (hn : 1 ≤ n) (h : RowEnd d c g n) : d.rowCheck c g n = (d, none) := by
  unfold Dev.rowCheck
  rw [localAt_here h.here]
  dsimp only
  rw [Dev.accessCheck_admitted h.inMem (below_control hn h.inMem) h.up h.may]
  rfl

theorem rowsWait_copy {d : Dev} {c n : Nat} {r : Nat × Nat} (hdir : d.directory = []) (hsrc : RowEnd d c r.1 n) (hdst : RowEnd d c r.2 n)
    (hsrcFree : d.mustWait (gOffset r.1) n = false) (hdstFree : d.mustWait (gOffset r.2) n = false) :
    d.rowsWait [r] n true = (d, false) := by
  unfold Dev.rowsWait
  simp [localAt_here hsrc.here, localAt_here hdst.here, hsrc.inMem, hdst.inMem, Dev.cohBlocked_of_no_line hdir, hsrcFree, hdstFree]

theorem rowsWait_fill {d : Dev} {c n : Nat} {r : Nat × Nat} (hdir : d.directory = []) (hdst : RowEnd d c r.2 n)
    (hdstFree : d.mustWait (gOffset r.2) n = false) :
    d.rowsWait [r] n false = (d, false) := by
  unfold Dev.rowsWait
  simp [localAt_here hdst.here, hdst.inMem, Dev.cohBlocked_of_no_line hdir, hdstFree]

/-! Reads and writes where every unit delivers its data. -/

theorem badUnits_none {d : Dev} (hbursts : d.badBursts = []) (hwords : ∀ j, (d.tile j).badWords = []) (a n : Nat) : d.badUnits a n = [] := by
  unfold Dev.badUnits
  split
  · rw [hbursts]
    rfl
  · rw [badWithin_of_none (hwords _)]
    rfl

theorem zipIdx_map_some {α : Type} (l : List α) (k : Nat) : (l.zipIdx k).map (fun x => some x.1) = l.map some := by
  induction l generalizing k with
  | nil => rfl
  | cons a l ih => rw [List.zipIdx_cons, List.map_cons, ih, List.map_cons]

theorem loadSparse_good {d : Dev} (hbursts : d.badBursts = []) (hwords : ∀ j, (d.tile j).badWords = []) (m : Mem) (a n : Nat) :
    d.loadSparse m a n = (d, (peekN m d a n).map some, none) := by
  unfold Dev.loadSparse
  rw [badUnits_none hbursts hwords]
  dsimp only
  rw [Dev.each_nil, List.head?_nil]
  simp only [List.any_nil, Bool.false_eq_true, if_false, zipIdx_map_some]
  rfl

theorem runsFrom_started (i : Nat) (l r : List Byte) (k : Nat) : runsFrom i (l.map some) (some (k, r)) = [(k, r.reverse ++ l)] := by
  induction l generalizing i r with
  | nil => rw [List.map_nil, runsFrom, List.append_nil]
  | cons b l ih => rw [List.map_cons, runsFrom, ih, List.reverse_cons, List.append_assoc, List.singleton_append]

/-- Bytes that are all there make one run. -/
theorem runsFrom_whole {l : List Byte} (h : l ≠ []) : runsFrom 0 (l.map some) none = [(0, l)] := by
  cases l with
  | nil => exact absurd rfl h
  | cons b l => rw [List.map_cons, runsFrom, runsFrom_started]; rfl

theorem storeSparse_good {d : Dev} (hbursts : d.badBursts = []) (hwords : ∀ j, (d.tile j).badWords = []) (m : Mem) (a : Nat) {bs : List Byte}
    (hbs : bs ≠ []) : d.storeSparse m a (bs.map some) = (d.pokeN a bs, none) := by
  unfold Dev.storeSparse
  rw [runsFrom_whole hbs]
  refine (foldl_first ?_ []).trans (List.foldl_nil ..)
  beta_reduce
  generalize hx : (d, (none : Option (Nat × Nat))).1.store m _ _ = x
  obtain rfl : x = (d.pokeN a bs, none) := hx.symm.trans (store_good hbursts hwords m a bs)
  rfl

/-- A mover woken, and then bytes written. -/
theorem writes_after_wake (d : Dev) (a n : Nat) (bs : List Byte) : Writes d ((d.wakeMover a n).pokeN a bs) a bs := by
  have hwake : Writes d (d.wakeMover a n) a [] := writes_wakeMover d a [] a n
  exact hwake.trans ⟨rfl, rfl, rfl, rfl, fun j => ⟨((d.wakeMover a n).tile j).moverAwake, rfl⟩⟩

theorem Writes.moves {d e : Dev} {a : Nat} {bs : List Byte} (h : Writes d e a bs) (j : Nat) : (e.tile j).moves = (d.tile j).moves ∧
    (e.tile j).moveNext = (d.tile j).moveNext := by
  obtain ⟨b, hb⟩ := h.tile j
  exact ⟨by rw [hb], by rw [hb]⟩

theorem wakeMover_bursts (d : Dev) (a n : Nat) : (d.wakeMover a n).badBursts = d.badBursts := by
  obtain ⟨l, hl, -⟩ := wakeMover_eq d a n
  rw [hl, (withTiles_fields d l).2.2.1]

theorem wakeMover_words (d : Dev) (a n j : Nat) : ((d.wakeMover a n).tile j).badWords = (d.tile j).badWords := (writes_wakeMover d a [] a n).badWords j

/-! The two kinds of row (R191). -/

theorem copyRow_here {d : Dev} {c n : Nat} {r : Nat × Nat} (m : Mem) (t : Nat) (number : BitVec 32) (hn : 1 ≤ n) (hsrc : RowEnd d c r.1 n)
    (hdst : RowEnd d c r.2 n) (hbursts : d.badBursts = []) (hwords : ∀ j, (d.tile j).badWords = []) :
    ∃ e, d.copyRow m c t number n r = (e, none) ∧ Writes (d.bumpN (Reg.tileMoveBytes t) n) e (gOffset r.2) (peekN m d (gOffset r.1) n) := by
  have hpeek : peekN m (d.bumpN (Reg.tileMoveBytes t) n) (gOffset r.1) n = peekN m d (gOffset r.1) n := peekN_congr (d := d.bumpN _ n) (e := d) rfl rfl _ _ _
  refine ⟨_, ?_, writes_after_wake (d.bumpN (Reg.tileMoveBytes t) n) (gOffset r.2) n (peekN m d (gOffset r.1) n)⟩
  have hsrc' : (d.bumpN (Reg.tileMoveBytes t) n).localAt r.1 = some (gOffset r.1) := localAt_here hsrc.here
  have hdst' : (d.bumpN (Reg.tileMoveBytes t) n).localAt r.2 = some (gOffset r.2) := localAt_here hdst.here
  unfold Dev.copyRow
  rw [rowCheck_passes hn hsrc]
  dsimp only [Option.isSome_none]
  rw [if_neg Bool.false_ne_true, rowCheck_passes hn hdst]
  dsimp only
  rw [hsrc', hdst']
  dsimp only
  rw [loadSparse_good (d := d.bumpN (Reg.tileMoveBytes t) n) hbursts hwords, hpeek]
  dsimp only
  rw [storeSparse_good (d := (d.bumpN (Reg.tileMoveBytes t) n).wakeMover (gOffset r.2) n) ((wakeMover_bursts _ _ _).trans hbursts)
    (fun j => (wakeMover_words _ _ _ j).trans (hwords j)) m _ (List.ne_nil_of_length_pos (by rw [peekN_length]; exact hn))]

theorem fillRow_here {d : Dev} {c n : Nat} {r : Nat × Nat} (m : Mem) (t : Nat) (number : BitVec 32) (hn : 1 ≤ n) (hdst : RowEnd d c r.2 n)
    (hbursts : d.badBursts = []) (hwords : ∀ j, (d.tile j).badWords = []) :
    ∃ e, d.fillRow m c t number n r = (e, none) ∧ Writes (d.bumpN (Reg.tileMoveBytes t) n) e (gOffset r.2) (List.replicate n 0) := by
  refine ⟨_, ?_, writes_after_wake (d.bumpN (Reg.tileMoveBytes t) n) (gOffset r.2) n (List.replicate n 0)⟩
  have hdst' : (d.bumpN (Reg.tileMoveBytes t) n).localAt r.2 = some (gOffset r.2) := localAt_here hdst.here
  unfold Dev.fillRow
  rw [rowCheck_passes hn hdst]
  dsimp only
  rw [hdst']
  exact store_good (d := (d.bumpN (Reg.tileMoveBytes t) n).wakeMover (gOffset r.2) n) ((wakeMover_bursts _ _ _).trans hbursts)
    (fun j => (wakeMover_words _ _ _ j).trans (hwords j)) m _ _

theorem overRows_one {f : Dev → Nat × Nat → Dev × Option (Nat × Nat)} {d e : Dev} {r : Nat × Nat} (h : f d r = (e, none)) :
    Dev.overRows f [r] d = (e, none) := by
  rw [Dev.overRows, h]
  rfl

/-- What an entry that has moved its bytes leaves (R191). -/
theorem entry_moved {s : State} {t : Fin 64} {e : BitVec 512} {n a : Nat} {bs : List Byte} {d : Dev}
    (hw : Writes ((s.begin.setTile t ((s.begin.tile t).moveBegun e)).bumpN (Reg.tileMoveBytes t) n) d a bs) :
    (∀ i, i < bs.length → (s.commit d).read (a + i) = bs.getD i 0) ∧ SameMemBut s (s.commit d) a bs.length ∧
    ((s.commit d).dev.tile t).moves = (s.dev.tile t).moves ++ [{ number := (s.dev.tile t).moveNext, entry := e }] ∧
    ((s.commit d).dev.tile t).moveNext = (s.dev.tile t).moveNext + 1 ∧
    (s.commit d).dev.count (Reg.tileMoveBytes t) = s.dev.count (Reg.tileMoveBytes t) + BitVec.ofNat 48 n ∧ (s.commit d).dev.regs = s.dev.regs := by
  obtain ⟨hholds, hsame⟩ := writes_holds s hw rfl rfl
  obtain ⟨hmoves, hnext⟩ := hw.moves t
  rw [Dev.tile_bumpN, Dev.tile_setTile_same] at hmoves hnext
  refine ⟨hholds, hsame, ?_, ?_, ?_, ?_⟩
  · rw [Dev.tile_commit]; exact hmoves
  · rw [Dev.tile_commit]; exact hnext
  · rw [Dev.count_commit, Dev.count, hw.counters]
    exact (Dev.count_bumpN _ _ _ _).trans (if_pos rfl)
  · rw [State.commit_regs]; exact hw.regs

theorem peekN_getD (m : Mem) (d : Dev) (a : Nat) {n i : Nat} (h : i < n) : (peekN m d a n).getD i 0 = peek m d (a + i) := by
  rw [peekN_eq_map, List.getD_eq_getElem?_getD, List.getElem?_map, List.getElem?_range h, Option.map_some, Option.getD_some]

/-- A tile's device once its next entry has started. -/
def Dev.moveStarted (d : Dev) (t : Nat) (e : BitVec 512) : Dev := d.setTile t ((d.tile t).moveBegun e)

theorem moveStarted_words {d : Dev} (h : ∀ j, (d.tile j).badWords = []) (t : Nat) (e : BitVec 512) (j : Nat) : ((d.moveStarted t e).tile j).badWords = [] := by
  rw [Dev.moveStarted, Dev.tile_setTile]
  split
  case isTrue => exact h t
  case isFalse => exact h j

theorem RowEnd.started {d : Dev} {c g n : Nat} (h : RowEnd d c g n) (t : Nat) (e : BitVec 512) : RowEnd (d.moveStarted t e) c g n :=
  ⟨h.here, h.inMem, h.up, h.may⟩

theorem moveCopy_ends (s : State) (t : Fin 64) (e : BitVec 512) (hready : s.dev.moverReady t = true)
    (he : e = BitVec.ofNat 512 (peekLE s.mem s.begin (scrBase t + s.dev.moveEntryAt t) 64)) (hop : moveOp e = 0) (hfence : moveFence e = false)
    (hprio : movePrio e ≠ 0) (hlow : 1 ≤ moveLen e) (hhigh : moveLen e ≤ 2 ^ 30) (hrows : moveRows e = 1)
    (hsrc : RowEnd s.begin (s.begin.moverCtx t) (moveSrc e) (moveLen e)) (hdst : RowEnd s.begin (s.begin.moverCtx t) (moveDst e) (moveLen e))
    (hsrcFree : s.begin.mustWait (gOffset (moveSrc e)) (moveLen e) = false) (hdstFree : s.begin.mustWait (gOffset (moveDst e)) (moveLen e) = false)
    (hdir : s.dev.directory = []) (hbursts : s.dev.badBursts = []) (hwords : ∀ j, (s.begin.tile j).badWords = []) :
    Ends (.moveCopy t) s (fun u => (∀ i, i < moveLen e → u.read (gOffset (moveDst e) + i) = s.read (gOffset (moveSrc e) + i)) ∧
      SameMemBut s u (gOffset (moveDst e)) (moveLen e) ∧
      (u.dev.tile t).moves = (s.dev.tile t).moves ++ [{ number := (s.dev.tile t).moveNext, entry := e }] ∧
      (u.dev.tile t).moveNext = (s.dev.tile t).moveNext + 1 ∧
      u.dev.count (Reg.tileMoveBytes t) = s.dev.count (Reg.tileMoveBytes t) + BitVec.ofNat 48 (moveLen e) ∧ u.dev.regs = s.dev.regs) := by
  obtain ⟨d, hcopy, hw⟩ := copyRow_here (d := s.begin.moveStarted t e) (r := (moveSrc e, moveDst e)) s.mem t (s.begin.tile t).moveNext hlow (hsrc.started t e)
    (hdst.started t e) hbursts (moveStarted_words hwords t e)
  have htake := moveTake_starts (d := s.begin) hready he hop (by decide) hfence (.inr ⟨hprio, hlow, hhigh⟩) (hwords t)
  have heffect : xMoveCopy t s.mem s.begin = d := by
    unfold xMoveCopy
    rw [htake]
    dsimp only
    rw [moveRowList_one hrows, rowsWait_copy (d := s.begin) hdir hsrc hdst hsrcFree hdstFree]
    dsimp only
    rw [if_neg Bool.false_ne_true, overRows_one (e := d) hcopy]
  obtain ⟨hholds, hsame, hmoves, hnext, hcount, hregs⟩ := entry_moved hw
  rw [peekN_length] at hholds hsame
  refine ends_of_run (x := xMoveCopy t) rfl heffect ⟨fun i hi => ?_, hsame, hmoves, hnext, hcount, hregs⟩
  rw [hholds i hi, peekN_getD _ _ _ hi, peek_congr (d := s.begin.moveStarted t e) (e := s.begin) rfl rfl, peek_of_unwritten s rfl rfl]

theorem moveFill_ends (s : State) (t : Fin 64) (e : BitVec 512) (hready : s.dev.moverReady t = true)
    (he : e = BitVec.ofNat 512 (peekLE s.mem s.begin (scrBase t + s.dev.moveEntryAt t) 64)) (hop : moveOp e = 1) (hfence : moveFence e = false)
    (hprio : movePrio e ≠ 0) (hlow : 1 ≤ moveLen e) (hhigh : moveLen e ≤ 2 ^ 30) (hrows : moveRows e = 1)
    (hdst : RowEnd s.begin (s.begin.moverCtx t) (moveDst e) (moveLen e)) (hdstFree : s.begin.mustWait (gOffset (moveDst e)) (moveLen e) = false)
    (hdir : s.dev.directory = []) (hbursts : s.dev.badBursts = []) (hwords : ∀ j, (s.begin.tile j).badWords = []) :
    Ends (.moveFill t) s (fun u => (∀ i, i < moveLen e → u.read (gOffset (moveDst e) + i) = 0) ∧
      SameMemBut s u (gOffset (moveDst e)) (moveLen e) ∧
      (u.dev.tile t).moves = (s.dev.tile t).moves ++ [{ number := (s.dev.tile t).moveNext, entry := e }] ∧
      u.dev.count (Reg.tileMoveBytes t) = s.dev.count (Reg.tileMoveBytes t) + BitVec.ofNat 48 (moveLen e) ∧ u.dev.regs = s.dev.regs) := by
  obtain ⟨d, hfill, hw⟩ := fillRow_here (d := s.begin.moveStarted t e) (r := (moveSrc e, moveDst e)) s.mem t (s.begin.tile t).moveNext hlow
    (hdst.started t e) hbursts (moveStarted_words hwords t e)
  have htake := moveTake_starts (d := s.begin) hready he hop (by decide) hfence (.inr ⟨hprio, hlow, hhigh⟩) (hwords t)
  have heffect : xMoveFill t s.mem s.begin = d := by
    unfold xMoveFill
    rw [htake]
    dsimp only
    rw [moveRowList_one hrows, rowsWait_fill (d := s.begin) hdir hdst hdstFree]
    dsimp only
    rw [if_neg Bool.false_ne_true, overRows_one (e := d) hfill]
  obtain ⟨hholds, hsame, hmoves, -, hcount, hregs⟩ := entry_moved hw
  rw [List.length_replicate] at hholds hsame
  refine ends_of_run (x := xMoveFill t) rfl heffect ⟨fun i hi => ?_, hsame, hmoves, hcount, hregs⟩
  rw [hholds i hi, List.getD_eq_getElem?_getD, List.getElem?_replicate, if_pos hi, Option.getD_some]

theorem moveGather_starts (s : State) (t : Fin 64) (e : BitVec 512) (hready : s.dev.moverReady t = true)
    (he : e = BitVec.ofNat 512 (peekLE s.mem s.begin (scrBase t + s.dev.moveEntryAt t) 64)) (hop : moveOp e = 2) (hfence : moveFence e = false)
    (hgood : (s.dev.tile t).badWords = []) : Quiet (.moveGather t) s (s.begin.setTile t ((s.dev.tile t).moveBegun e)) :=
  quiet_of_run (x := xMoveGather t) rfl (congrArg Prod.fst (moveTake_starts (d := s.begin) hready he hop (by decide) hfence (.inl hop) hgood)) rfl rfl

end Sys2Proof.Machine
end

section
/-! The end of a mover's entry, and the gather engine (R182, R183, R191). -/

namespace Sys2Proof.Machine

open Sys2Proof.Claims (Ends Quiet SameMemBut)

/-- A tile's entries with number `n` marked done. -/
def Tile.movesDone (x : Tile) (n : BitVec 32) : List MoveEntry := x.moves.map (fun y => if y.number == n then { y with done := true } else y)

/-- A tile from which the completed entries at the front have gone. -/
def Tile.movesLeft (x : Tile) (n : BitVec 32) : Tile := { x with moves := (x.movesDone n).drop ((x.movesDone n).takeWhile (·.done)).length }

theorem drop_takeWhile_length {α : Type} (p : α → Bool) (l : List α) : l.drop (l.takeWhile p).length = l.dropWhile p := by
  have h := List.takeWhile_append_dropWhile (p := p) (l := l)
  exact (congrArg (List.drop (l.takeWhile p).length) h.symm).trans (List.drop_left)

/-- CONS moved over the completed entries. -/
def Dev.movesRetired (d : Dev) (t : Nat) (n : BitVec 32) : Dev :=
  (d.setTile t ((d.tile t).movesLeft n)).setRegN (Reg.tileMoveCons t)
    (((d.reg (Reg.tileMoveCons t)).toNat + (((d.tile t).movesDone n).takeWhile (·.done)).length) % 2 ^ 32)

theorem moveFinish_eq {d : Dev} {t : Nat} {n : BitVec 32} {e : MoveEntry} (hfind : (d.tile t).moves.find? (fun e => e.number == n) = some e) :
    d.moveFinish t n = if moveSemEn e.entry then (d.movesRetired t n).setSem t (moveSem e.entry) (4 * t + 2) else d.movesRetired t n := by
  unfold Dev.moveFinish
  dsimp only
  rw [hfind]
  rfl

theorem movesRetired_fields (d : Dev) (t : Nat) (n : BitVec 32) : (d.movesRetired t n).tile t = (d.tile t).movesLeft n ∧
    (d.movesRetired t n).stores = d.stores ∧ (d.movesRetired t n).wipes = d.wipes ∧ (d.movesRetired t n).counters = d.counters ∧
    (∀ k, k ≠ Reg.tileMoveCons t → (d.movesRetired t n).reg k = d.reg k) ∧ ((d.movesRetired t n).reg (Reg.tileMoveCons t)).toNat
      = ((d.reg (Reg.tileMoveCons t)).toNat + (((d.tile t).movesDone n).takeWhile (·.done)).length) % 2 ^ 32 := by
  refine ⟨?_, rfl, rfl, rfl, fun k hk => ?_, ?_⟩
  · exact Dev.tile_setTile_same _ _ _
  · rw [Dev.movesRetired, Dev.setRegN, Dev.reg_setReg, if_neg (Ne.symm hk)]
    rfl
  · rw [Dev.movesRetired, Dev.setRegN, Dev.reg_setReg_same, BitVec.toNat_ofNat, Nat.mod_mod]

/-- What the end of an entry leaves (R191). -/
theorem moveFinish_ends {d : Dev} {t : Nat} {n : BitVec 32} {e : MoveEntry} (hfind : (d.tile t).moves.find? (fun e => e.number == n) = some e) :
    ((d.moveFinish t n).tile t).moves = ((d.tile t).movesDone n).dropWhile (·.done) ∧ (d.moveFinish t n).regs = (d.movesRetired t n).regs ∧
    (moveSemEn e.entry = true → ((d.moveFinish t n).tile t).sem (moveSem e.entry) = true) ∧ (d.moveFinish t n).stores = d.stores ∧
    (d.moveFinish t n).wipes = d.wipes ∧ (d.moveFinish t n).counters = d.counters := by
  obtain ⟨htile, hstores, hwipes, hcounters, -, -⟩ := movesRetired_fields d t n
  have hmoves : ((d.movesRetired t n).tile t).moves = ((d.tile t).movesDone n).dropWhile (·.done) := by
    rw [htile]
    exact drop_takeWhile_length _ _
  rw [moveFinish_eq hfind]
  by_cases hsem : moveSemEn e.entry = true
  · have hlt : moveSem e.entry < 16 := fb_lt_two_pow e.entry 247 244
    rw [if_pos hsem]
    refine ⟨?_, rfl, fun _ => ?_, hstores, hwipes, hcounters⟩
    · rw [Dev.setSem, Dev.tile_setTile_same]
      exact hmoves
    · rw [Dev.setSem, Dev.tile_setTile_same, Tile.sem, BitVec.getLsbD_or, semBit hlt, beq_self_eq_true, Bool.or_true]
  · rw [if_neg hsem]
    exact ⟨hmoves, rfl, fun h => absurd h hsem, hstores, hwipes, hcounters⟩

theorem moveEntryComplete_ends (s : State) (t : Fin 64) (n : BitVec 32) (e : MoveEntry)
    (hfind : (s.dev.tile t).moves.find? (fun e => e.number == n) = some e) (hdone : e.done = false) (herror : e.error = 0) (hop : moveOp e.entry ≠ 2)
    (hclk : s.dev.tclk t = true) (hidle : s.dev.outstanding .mover t n.toNat = false) :
    Ends (.moveEntryComplete t n) s (fun u =>
      (u.dev.tile t).moves = ((s.dev.tile t).moves.map (fun y => if y.number == n then { y with done := true } else y)).dropWhile (·.done) ∧
      (u.dev.reg (Reg.tileMoveCons t)).toNat = ((s.dev.reg (Reg.tileMoveCons t)).toNat +
        (((s.dev.tile t).moves.map (fun y => if y.number == n then { y with done := true } else y)).takeWhile (·.done)).length) % 2 ^ 32 ∧
      (moveSemEn e.entry = true → (u.dev.tile t).sem (moveSem e.entry) = true) ∧ u.mem = s.mem ∧ u.dev.counters = s.dev.counters ∧
      (∀ k, k ≠ Reg.tileMoveCons t → u.dev.reg k = s.dev.reg k)) := by
  have hfind' : (s.begin.tile t).moves.find? (fun e => e.number == n) = some e := hfind
  have hclk' : s.begin.tclk t = true := hclk
  have hidle' : s.begin.outstanding .mover t n.toNat = false := hidle
  obtain ⟨hmoves, hregs, hsem, hstores, hwipes, hcounters⟩ := moveFinish_ends (d := s.begin) hfind'
  obtain ⟨-, -, -, -, hkept, hcons⟩ := movesRetired_fields s.begin t n
  have hreg : ∀ k, (s.begin.moveFinish t n).reg k = (s.begin.movesRetired t n).reg k := fun k => congrArg (fun g => mget (resetWord k) g k) hregs
  refine ends_of_run (x := xMoveEntryComplete t n) (d := s.begin.moveFinish t n) rfl ?_
    ⟨?_, ?_, fun h => ?_, s.commit_mem _ hstores hwipes, ?_, fun k hk => ?_⟩
  · unfold xMoveEntryComplete
    rw [hfind']
    dsimp only
    rw [if_neg (by simp [hdone, herror, hop, hclk', hidle'])]
  · rw [Dev.tile_commit]; exact hmoves
  · rw [Dev.reg_commit, hreg]; exact hcons
  · rw [Dev.tile_commit]; exact hsem h
  · rw [State.commit_counters]; exact hcounters
  · rw [Dev.reg_commit, hreg]; exact hkept k hk

/-! The gather engine (R182, R183). -/

theorem gatherOk_fields {g : BitVec 256} (h : gatherOk g = true) : 1 ≤ gColBytes g ∧ gSlice g (gCount g - 1) + gColBytes g ≤ 0x2000000 := by
  simp only [gatherOk, Bool.and_eq_true, decide_eq_true_eq] at h
  exact ⟨h.1.1.1.1.1.1.1.1.1.1, h.2⟩

/-- A slice that crosses no page boundary is one piece. -/
theorem pagePieces_one {x n k : Nat} (hn : 1 ≤ n) (h : x % 65536 + n ≤ 65536) : pagePieces (k + 2) x n = [(x, n)] := by
  have hmin : min n (65536 - x % 65536) = n := Nat.min_eq_left (by omega)
  rw [pagePieces, if_neg (by omega)]
  dsimp only
  rw [hmin, Nat.sub_self, pagePieces, if_pos rfl]

theorem gatherPlaces_one {m : Mem} {c a : Nat} {g : BitVec 256} {p : Nat × Nat} {d : Dev} (h : d.gatherPlace m c g p = (d, some a)) :
    Dev.gatherPlaces m c g [p] d = (d, some [(p.1, a, p.2)]) := by
  rw [Dev.gatherPlaces, h]
  rfl

/-- Bytes that the engine has fetched, written to the scratchpad. -/
theorem gatherSlice_one {d : Dev} {m : Mem} {c t a : Nat} {g : BitVec 256} {i pos : Nat} (hcol : 1 ≤ gColBytes g)
    (hpage : (pos * gRowBytes g + gColOff g) % 65536 + gColBytes g ≤ 65536)
    (hplace : d.gatherPlace m c g (pos * gRowBytes g + gColOff g, gColBytes g) = (d, some a))
    (hbursts : d.badBursts = []) (hwords : ∀ j, (d.tile j).badWords = []) :
    ∃ x e, d.gatherSlice m c t g i pos = (e, false, none) ∧ Writes (d.withCounters x) e (scrBase t + gSlice g i) (peekN m d a (gColBytes g)) := by
  obtain ⟨x, hx⟩ := quarry_eq d a (gColBytes g)
  obtain ⟨b, hb⟩ : ∃ b, b = scrBase t + gSlice g i + (pos * gRowBytes g + gColOff g - (pos * gRowBytes g + gColOff g)) := ⟨_, rfl⟩
  have hpeek : peekN m (d.withCounters x) a (gColBytes g) = peekN m d a (gColBytes g) := peekN_congr (d := d.withCounters x) (e := d) rfl rfl _ _ _
  have hat : b = scrBase t + gSlice g i := by rw [hb, Nat.sub_self, Nat.add_zero]
  have hload := loadSparse_good (d := d.withCounters x) hbursts hwords m a (gColBytes g)
  have hstore := storeSparse_good (d := (d.withCounters x).wakeMover b (gColBytes g)) ((wakeMover_bursts _ _ _).trans hbursts)
    (fun j => (wakeMover_words _ _ _ j).trans (hwords j)) m b (bs := peekN m d a (gColBytes g))
    (List.ne_nil_of_length_pos (by rw [peekN_length]; exact hcol))
  refine ⟨x, ((d.withCounters x).wakeMover b (gColBytes g)).pokeN b (peekN m d a (gColBytes g)), ?_, ?_⟩
  · unfold Dev.gatherSlice
    dsimp only
    rw [pagePieces_one hcol hpage, gatherPlaces_one hplace]
    dsimp only
    rw [List.foldl_cons, List.foldl_nil]
    dsimp only
    rw [hx, hload]
    dsimp only
    rw [← hb, hpeek, hstore]
  · rw [← hat]
    exact writes_after_wake (d.withCounters x) b _ _

theorem gatherAll_one {m : Mem} {c t : Nat} {g : BitVec 256} {p : Nat × Nat} {d e : Dev} (h : d.gatherSlice m c t g p.1 p.2 = (e, false, none)) :
    Dev.gatherAll m c t g [p] d = (e, none, none) := by
  rw [Dev.gatherAll, h]
  rfl

theorem gatherComplete_ends (s : State) (t : Fin 64) (n : BitVec 32) (e : MoveEntry) (g : BitVec 256) (start a : Nat)
    (hfind : (s.dev.tile t).moves.find? (fun e => e.number == n) = some e) (hdone : e.done = false) (herror : e.error = 0) (hop : moveOp e.entry = 2)
    (hclk : s.dev.tclk t = true) (hclear : (s.dev.tile t).clearing = false)
    (hg : g = BitVec.ofNat 256 (peekLE s.mem s.begin (scrBase t + moveSrc e.entry % 0x2000000) 32))
    (hok : gatherOk g = true) (hcount : gCount g = 1) (hbursts : s.dev.badBursts = []) (hwords : ∀ j, (s.begin.tile j).badWords = [])
    (hstart : start = peekLE s.mem s.begin (scrBase t + gList g) 4 * gRowBytes g + gColOff g) (hpage : start % 65536 + gColBytes g ≤ 65536)
    (hplace : s.begin.gatherPlace s.mem (s.begin.moverCtx t) g (start, gColBytes g) = (s.begin, some a)) :
    Ends (.gatherComplete t n) s (fun u => (∀ i, i < gColBytes g → u.read (scrBase t + gDstAddr g + i) = s.read (a + i)) ∧
      SameMemBut s u (scrBase t + gDstAddr g) (gColBytes g) ∧
      (∀ y, y ∈ (u.dev.tile t).moves → y.number = n → y.done = true)) := by
  obtain ⟨hcol, -⟩ := gatherOk_fields hok
  have hfind' : (s.begin.tile t).moves.find? (fun e => e.number == n) = some e := hfind
  have hclk' : s.begin.tclk t = true := hclk
  have hdst : gSlice g 0 = gDstAddr g := by rw [gSlice, Nat.zero_mul, Nat.add_zero]
  rw [hstart] at hpage hplace
  obtain ⟨x, d, hslice, hw⟩ := gatherSlice_one (t := t) (i := 0) hcol hpage hplace hbursts hwords
  rw [hdst] at hw
  have hfind'' : (d.tile t).moves.find? (fun e => e.number == n) = some e := by rw [(hw.moves t).1]; exact hfind
  obtain ⟨hmoves, -, -, hstores, hwipes, -⟩ := moveFinish_ends hfind''
  have heffect : xGatherComplete t n s.mem s.begin = d.moveFinish t n := by
    unfold xGatherComplete
    rw [hfind']
    dsimp only
    rw [if_neg (by simp [hdone, herror, hop, hclk', hclear]), ← hg, scrRead_clean (hwords t)]
    dsimp only
    rw [if_neg (by simp [hok]), hcount]
    simp only [List.range_one, List.map_cons, List.map_nil, Nat.mul_zero, Nat.add_zero]
    rw [gatherAll_one (p := (0, peekLE s.mem s.begin (scrBase t + gList g) 4)) hslice]
  obtain ⟨hholds, hsame⟩ := holds_of_pokeN s (d := d.moveFinish t n) (hstores.trans hw.stores) (hwipes.trans hw.wipes)
  rw [peekN_length] at hsame
  refine ends_of_run (x := xGatherComplete t n) rfl heffect ⟨fun i hi => ?_, hsame, fun y hy hnum => ?_⟩
  · rw [hholds i (by rw [peekN_length]; exact hi), peekN_getD _ _ _ hi, peek_of_unwritten s rfl rfl]
  · rw [Dev.tile_commit, hmoves] at hy
    obtain ⟨z, -, rfl⟩ := List.mem_map.mp ((List.dropWhile_suffix _).subset hy)
    split at hnum
    case isTrue h => rw [if_pos h]
    case isFalse h => exact absurd (beq_iff_eq.mpr hnum) h

/-- Settles O28. -/
theorem scratchpadsMoversAndGather : Obligations.ScratchpadsMoversAndGather :=
  ⟨scrub_clean, scrub_corrects, scrub_fails, moverWake_ends,
    fun s t e hready he hop hfence hprio hlow hhigh hrows hsrc hdst hinSrc hinDst hupSrc hupDst hmaySrc hmayDst hfreeSrc hfreeDst hdir hbursts hwords =>
      moveCopy_ends s t e hready he hop hfence hprio hlow hhigh hrows ⟨hsrc, hinSrc, hupSrc, hmaySrc⟩ ⟨hdst, hinDst, hupDst, hmayDst⟩ hfreeSrc hfreeDst hdir
        hbursts hwords,
    fun s t e hready he hop hfence hprio hlow hhigh hrows hdst hinDst hupDst hmayDst hfreeDst hdir hbursts hwords =>
      moveFill_ends s t e hready he hop hfence hprio hlow hhigh hrows ⟨hdst, hinDst, hupDst, hmayDst⟩ hfreeDst hdir hbursts hwords,
    moveGather_starts, moveEntryComplete_ends,
    fun s t n e g start a hfind hdone herror hop hclk hclear hg hok hcount hbursts hwords hstart hpage hplace =>
      gatherComplete_ends s t n e g start a hfind hdone herror hop hclk hclear hg hok hcount hbursts hwords hstart hpage hplace⟩

end Sys2Proof.Machine
end

section
/-! Fields of what lies in memory, and an engine's writes to HBM of its context. -/

namespace Sys2Proof.Machine

open Sys2Proof.Claims (EngineReaches)

theorem leOf_drop (bs : List Byte) (k : Nat) : leOf (bs.drop k) = leOf bs / 256 ^ k := by
  induction k generalizing bs with
  | zero => rw [List.drop_zero, pow_zero, Nat.div_one]
  | succ k ih =>
    cases bs with
    | nil => rw [List.drop_nil, leOf, Nat.zero_div]
    | cons b bs =>
      have hb : b.toNat < 256 := b.isLt
      rw [List.drop_succ_cons, ih, leOf, pow_succ', ← Nat.div_div_eq_div_mul, Nat.add_mul_div_left _ _ (by decide), Nat.div_eq_of_lt hb, Nat.zero_add]

theorem leOf_take (bs : List Byte) (k : Nat) : leOf (bs.take k) = leOf bs % 256 ^ k := by
  induction k generalizing bs with
  | zero => rw [List.take_zero, pow_zero, Nat.mod_one, leOf]
  | succ k ih =>
    cases bs with
    | nil => rw [List.take_nil, leOf, Nat.zero_mod]
    | cons b bs =>
      have hb : b.toNat < 256 := b.isLt
      rw [List.take_succ_cons, leOf, ih, leOf, pow_succ', Nat.mod_mul, Nat.add_mul_mod_self_left, Nat.mod_eq_of_lt hb, Nat.add_mul_div_left _ _ (by decide),
        Nat.div_eq_of_lt hb, Nat.zero_add]

/-- A field of a number is the number of its bytes. -/
theorem pe_leOf (bs : List Byte) (off : Nat) {n : Nat} (hn : 0 < n) : pe (leOf bs) off n = leOf ((bs.drop off).take n) := by
  have hwidth : 8 * (off + n) - 1 + 1 - 8 * off = 8 * n := by omega
  rw [pe, fld_eq_div_mod, hwidth, leOf_take, leOf_drop, Nat.pow_mul, Nat.pow_mul]

theorem peekN_slice (m : Mem) (d : Dev) (a : Nat) {off n k : Nat} (h : off + n ≤ k) : ((peekN m d a k).drop off).take n = peekN m d (a + off) n := by
  refine List.ext_getElem? fun i => ?_
  by_cases hi : i < n
  · rw [List.getElem?_take_of_lt hi, List.getElem?_drop, peekN_eq_map, peekN_eq_map, List.getElem?_map, List.getElem?_map, List.getElem?_range (by omega),
      List.getElem?_range hi, Option.map_some, Option.map_some, Nat.add_assoc]
  · rw [List.getElem?_eq_none (by rw [List.length_take]; omega), List.getElem?_eq_none (by rw [peekN_length]; omega)]

/-- A field of an entry is what stands at its bytes. -/
theorem pe_peekLE (m : Mem) (d : Dev) (a : Nat) {off n k : Nat} (hn : 0 < n) (h : off + n ≤ k) : pe (peekLE m d a k) off n = peekLE m d (a + off) n := by
  rw [peekLE, pe_leOf _ _ hn, peekN_slice m d a h, peekLE]

/-- Bytes that a write does not touch. -/
theorem peekN_pokeN_apart (m : Mem) (d : Dev) {a x n : Nat} {bs : List Byte} (h : a + n ≤ x ∨ x + bs.length ≤ a) :
    peekN m (d.pokeN x bs) a n = peekN m d a n := by
  rw [peekN_eq_map, peekN_eq_map]
  refine List.map_congr_left fun i hi => ?_
  rw [peek_pokeN, if_neg (by have := List.mem_range.mp hi; omega)]

theorem peekLE_pokeN_apart (m : Mem) (d : Dev) {a x n : Nat} {bs : List Byte} (h : a + n ≤ x ∨ x + bs.length ≤ a) :
    peekLE m (d.pokeN x bs) a n = peekLE m d a n := by
  rw [peekLE, peekN_pokeN_apart m d h, peekLE]

/-- An engine of context `c` can write [a, a + n) of HBM as it stands (R177, R194, R334). -/
structure EngineCan (d : Dev) (c a n : Nat) : Prop where
  some : n ≠ 0
  inMem : inMemory a n = true
  low : isHbm a = true
  top : isHbm (a + n - 1) = true
  up : d.lost (memDie a) = false
  may : c = 0 ∨ (pagesOf a n).all (fun p => pageState (d.page p) == 1 && pageOwner (d.page p) == c) = true
  line : d.directory = []
  bursts : d.badBursts = []
  words : ∀ j, (d.tile j).badWords = []

theorem engineCan_of {s : State} {c a n : Nat} (h : EngineReaches s c a n) : EngineCan s.begin c a n := by
  obtain ⟨⟨hn, hin, -, hlost, hmay, -, -, hdir, hbursts, hwords⟩, hlow, htop⟩ := h
  refine ⟨hn, hin, hlow, htop, hlost, ?_, hdir, hbursts, hwords⟩
  rw [Dev.admits, Bool.or_eq_true, beq_iff_eq, if_pos hlow] at hmay
  exact hmay

theorem engineWrite_can {d : Dev} {c a n : Nat} {bs : List Byte} (h : EngineCan d c a n) (hlen : bs.length = n) (m : Mem) :
    d.engineWrite m c a bs = d.pokeN a bs := by
  subst hlen
  have hmay : d.admits c a bs.length = true := by
    rw [Dev.admits, Bool.or_eq_true, beq_iff_eq, if_pos h.low]
    exact h.may
  have hcheck : d.accessCheck c a bs.length = (d, none) := Dev.accessCheck_admitted h.inMem (below_of_inMemory h.some h.inMem) h.up hmay
  have hne : bs.isEmpty = false := by
    rw [List.isEmpty_eq_false_iff]
    exact List.ne_nil_of_length_pos (Nat.pos_of_ne_zero h.some)
  unfold Dev.engineWrite
  rw [if_neg (by simp [h.top, hne]), hcheck]
  dsimp only
  rw [if_neg (by simp), cohWait_of_no_line h.line]
  dsimp only
  rw [store_good h.bursts h.words]

theorem EngineCan.pokeN {d : Dev} {c a n : Nat} (h : EngineCan d c a n) (x : Nat) (bs : List Byte) : EngineCan (d.pokeN x bs) c a n :=
  ⟨h.some, h.inMem, h.low, h.top, h.up, h.may, h.line, h.bursts, h.words⟩

theorem updProt_reads (d : Dev) (c : Nat) (f : Prot → Prot) : ((d.updProt c f).ctx c).prot = f (d.ctx c).prot ∧ (d.updProt c f).regs = d.regs ∧
    (d.updProt c f).counters = d.counters ∧ (d.updProt c f).tiles = d.tiles ∧ (d.updProt c f).stores = d.stores ∧ (d.updProt c f).wipes = d.wipes ∧
    (d.updProt c f).tags = d.tags ∧ ((d.updProt c f).ctx c).pipe = (d.ctx c).pipe ∧ ((d.updProt c f).ctx c).log = (d.ctx c).log ∧
    ((d.updProt c f).ctx c).collDone = (d.ctx c).collDone := by
  have h : (d.updProt c f).ctx c = { d.ctx c with prot := f (d.ctx c).prot } := Dev.ctx_setCtx_same _ _ _
  rw [h]
  exact ⟨rfl, rfl, rfl, rfl, rfl, rfl, rfl, rfl, rfl, rfl⟩

theorem updLog_reads (d : Dev) (c : Nat) (f : Log → Log) : ((d.updLog c f).ctx c).log = f (d.ctx c).log ∧ (d.updLog c f).regs = d.regs ∧
    (d.updLog c f).counters = d.counters ∧ (d.updLog c f).tiles = d.tiles ∧ (d.updLog c f).stores = d.stores ∧ (d.updLog c f).wipes = d.wipes ∧
    (d.updLog c f).tags = d.tags ∧ ((d.updLog c f).ctx c).prot = (d.ctx c).prot := by
  have h : (d.updLog c f).ctx c = { d.ctx c with log := f (d.ctx c).log } := Dev.ctx_setCtx_same _ _ _
  rw [h]
  exact ⟨rfl, rfl, rfl, rfl, rfl, rfl, rfl, rfl⟩

end Sys2Proof.Machine
end

section
/-! Copies, digests and the input log (R385, R387 to R389, R393, R394). -/

namespace Sys2Proof.Machine

open Sys2Proof.Claims (Ends Holds SameMemBut EngineReaches Heard)

/-- A context has no SECURE whose flush is still to end. -/
theorem secureAdvance_idle {d : Dev} {c : Nat} (h : d.protCmd c ≠ 1 ∨ (d.ctx c).prot.flushed = true) (m : Mem) : d.secureAdvance m c = d := by
  unfold Dev.secureAdvance
  rw [if_pos]
  rcases h with h | h
  · simp [h]
  · simp [h]

/-- The tag that a request takes. -/
def Dev.requestTag (d : Dev) (k : Packet) (t : Tag) : Tag :=
  { t with tag := d.freeFabTag, port := fabricPort, op := k.opc, ctx := k.ctx, gen := BitVec.ofNat 8 k.gen }

theorem fabRequest_tags (d : Dev) (k : Packet) (t : Tag) : (d.fabRequest k t).tags = d.tags ++ [d.requestTag k t] := by
  unfold Dev.fabRequest
  extract_lets n t' e
  obtain ⟨l, p, hp, -⟩ := sendPacket_packets e (k.withField 72 57 n)
  rw [hp]
  rfl

/-- A read of a peer is one request (R221). -/
theorem fabRead_issues (d : Dev) (c g n : Nat) (u : Purpose) (a b e : Nat) : ∃ t : Tag, Issues d (d.fabRead c g n u a b e) [t] ∧ Serves t u a b ∧
    t.op = opRD := by
  obtain ⟨t, ht, hserves, -⟩ := fabRequest_issues d (d.makePacket opRD (gNode g) c (gOffset g) n []) (newTag u a b e g) (newTag_serves u a b e g)
  refine ⟨t, ht, hserves, ?_⟩
  have htag := List.append_cancel_left (ht.tags.symm.trans (fabRequest_tags d _ _))
  rw [List.cons.injEq] at htag
  rw [htag.1]
  show (d.makePacket opRD (gNode g) c (gOffset g) n []).opc = opRD
  rw [Packet.opc, makePacket_field d opRD _ c _ n [] (hi := 33) (lo := 28) (i := 3) (w := 6) (x := opRD % 64) rfl rfl rfl]
  rfl

theorem secureReread_ends (s : State) (c : Fin 64) (i : Fin 4096) (hcmd : s.dev.protCmd c = 1) (hflushed : (s.dev.ctx c).prot.flushed = true)
    (hmem : (s.dev.ctx c).prot.reread.contains i.val = true) :
    Ends (.secureReread c i) s (fun u => (u.dev.ctx c).prot = { (s.dev.ctx c).prot with reread := (s.dev.ctx c).prot.reread.filter (· != i.val) } ∧
      (∃ t : Tag, u.dev.tags = s.dev.tags ++ [t] ∧ t.purpose = .secureRead ∧ t.a = c.val ∧ t.b = i.val ∧ t.op = opRD) ∧ u.mem = s.mem ∧
      u.dev.regs = s.dev.regs ∧ u.dev.counters = s.dev.counters ∧ u.dev.tiles = s.dev.tiles) := by
  have hflushed' : (s.begin.ctx c).prot.flushed = true := hflushed
  have hmem' : (s.begin.ctx c).prot.reread.contains i.val = true := hmem
  obtain ⟨d, hd⟩ : ∃ d, d = s.begin.updProt c (fun p => { p with reread := p.reread.filter (· != i.val) }) := ⟨_, rfl⟩
  obtain ⟨hprot, hregs, hcounters, htiles, hstores, hwipes, htags, -⟩ := hd ▸ updProt_reads s.begin c (fun p => { p with reread := p.reread.filter (· != i.val) })
  obtain ⟨t, ht, hserves, hop⟩ := fabRead_issues d c (ePeerEnt (d.entry s.mem c i)) 128 .secureRead c i 0
  obtain ⟨hregs', hcounters', htiles', hctxs', hstores', hwipes', -⟩ := ht.fields
  have heffect : xSecureReread c i s.mem s.begin = d.peerRead s.mem c i .secureRead := by
    unfold xSecureReread
    rw [secureAdvance_idle (.inr hflushed')]
    dsimp only
    rw [if_pos hmem', ← hd]
  refine ends_of_run (x := xSecureReread c i) rfl heffect ⟨?_, ⟨t, ?_, hserves.purpose, hserves.a, hserves.b, hop⟩, ?_, ?_, ?_, ?_⟩
  · rw [Dev.ctx_commit, Dev.peerRead, Dev.ctx, hctxs']; exact hprot
  · rw [State.commit_tags, Dev.peerRead, ht.tags, htags]; rfl
  · exact s.commit_mem _ (hstores'.trans hstores) (hwipes'.trans hwipes)
  · rw [State.commit_regs, Dev.peerRead, hregs', hregs]; rfl
  · rw [State.commit_counters, Dev.peerRead, hcounters', hcounters]; rfl
  · rw [State.commit_tiles, Dev.peerRead, htiles', htiles]; rfl

/-! RETAIN (R385). -/

theorem fillNorm_waits {d : Dev} {c : Nat} (h : (d.ctx c).collDone = 0) (m : Mem) : d.fillNorm m c = d := by
  unfold Dev.fillNorm Dev.bucketDone
  dsimp only
  rw [h, if_pos (by simp)]

/-- The block that RETAIN keeps of a step (Table 13.2). -/
def Retain.block (r : Retain) : Nat := r.step.toNat + r.seed.toNat * 2 ^ 128 + leOf (r.hyper.flatMap (fun h => toLE 4 h.toNat)) * 2 ^ 192

theorem retainWrite_ends (s : State) (c : Fin 64) (r : Retain) (l : List Retain) (hon : s.dev.protOn c = true) (hretain : (s.dev.ctx c).prot.retain = r :: l)
    (hpending : ∀ v, v < 8 → s.dev.mirrorPending c v (fun g => decide (g + 2 ≤ r.step.toNat)) = false) (hdone : (s.dev.ctx c).collDone = 0)
    (hreach : EngineReaches s c (s.dev.retainAt c r.step.toNat) 64) :
    Ends (.retainWrite c) s (fun u => Holds u (s.dev.retainAt c r.step.toNat)
        (toLE 64 (r.step.toNat + r.seed.toNat * 2 ^ 128 + leOf (r.hyper.flatMap (fun h => toLE 4 h.toNat)) * 2 ^ 192)) ∧
      SameMemBut s u (s.dev.retainAt c r.step.toNat) 64 ∧
      (u.dev.ctx c).prot = { (s.dev.ctx c).prot with retain := l, normWait := (s.dev.ctx c).prot.normWait ++ [r.step] } ∧
      u.dev.regs = s.dev.regs ∧ u.dev.counters = s.dev.counters ∧ u.dev.tiles = s.dev.tiles) := by
  have hlen : (toLE 64 r.block).length = 64 := toLE_length _ _
  obtain ⟨e, he⟩ : ∃ e, e = s.begin.pokeN (s.dev.retainAt c r.step.toNat) (toLE 64 r.block) := ⟨_, rfl⟩
  obtain ⟨d, hd⟩ : ∃ d, d = e.updProt c (fun p => { p with retain := l, normWait := p.normWait ++ [r.step] }) := ⟨_, rfl⟩
  obtain ⟨hprot, hregs, hcounters, htiles, hstores, hwipes, -, -, -, hcoll⟩ :=
    hd ▸ updProt_reads e c (fun p => { p with retain := l, normWait := p.normWait ++ [r.step] })
  have hwrite : s.begin.engineWrite s.mem c (s.begin.retainAt c r.step.toNat) (toLE 64 r.block) = e :=
    (engineWrite_can (engineCan_of hreach) hlen s.mem).trans he.symm
  have heffect : xRetainWrite c s.mem s.begin = d := by
    have hon' : s.begin.protOn c = true := hon
    have hretain' : (s.begin.ctx c).prot.retain = r :: l := hretain
    have hnone : (List.range 8).any (fun v => s.begin.mirrorPending c v (fun g => decide (g + 2 ≤ r.step.toNat))) = false := by
      rw [List.any_eq_false]
      exact fun v hv h => Bool.false_ne_true ((hpending v (List.mem_range.mp hv)).symm.trans h)
    unfold xRetainWrite
    rw [if_neg (by simp [hon']), hretain']
    dsimp only
    rw [hnone, if_neg Bool.false_ne_true, ← Retain.block, hwrite, ← hd, fillNorm_waits]
    rw [hcoll, he]
    exact hdone
  obtain ⟨hholds, hsame⟩ := holds_of_pokeN s (d := d) (hstores.trans (congrArg Dev.stores he)) (hwipes.trans (congrArg Dev.wipes he))
  rw [hlen] at hsame
  refine ends_of_run (x := xRetainWrite c) rfl heffect ⟨hholds, hsame, ?_, ?_, ?_, ?_⟩
  · rw [Dev.ctx_commit, hprot, he]; rfl
  · rw [State.commit_regs, hregs, he]; rfl
  · rw [State.commit_counters, hcounters, he]; rfl
  · rw [State.commit_tiles, htiles, he]; rfl

/-! Slot copies (R387). -/

/-- Copies of which `q` has started. -/
def startCopy (q : SlotCopy) (l : List SlotCopy) : List SlotCopy := l.map (fun r => if r == q then { r with running := true } else r)

theorem startCopy_started {q : SlotCopy} {l : List SlotCopy} (hmem : q ∈ l) (hwaits : q.running = false) :
    ({ q with running := true } : SlotCopy) ∈ startCopy q l ∧ ¬ q ∈ startCopy q l ∧ (startCopy q l).length = l.length := by
  refine ⟨List.mem_map.mpr ⟨q, hmem, if_pos (beq_self_eq_true q)⟩, fun h => ?_, List.length_map _⟩
  obtain ⟨r, -, hr⟩ := List.mem_map.mp h
  split at hr
  case isTrue =>
    have hrunning := congrArg SlotCopy.running hr
    rw [hwaits] at hrunning
    cases hrunning
  case isFalse hne => exact hne (beq_iff_eq.mpr hr)

theorem slotCopy_starts (s : State) (c : Fin 64) (i : Fin 4096) (q : SlotCopy)
    (hfind : (s.dev.ctx c).prot.slotCopies.find? (fun q => q.entry == i.val) = some q) (hwaits : q.running = false)
    (hbucket : (s.begin.bucketDone s.mem c (eBucket (s.begin.entry s.mem c i))).2 = true)
    (hmirror : s.dev.mirrorPending c (eVs (s.begin.entry s.mem c i)) (fun g => g % 2 == q.step.toNat % 2) = false) :
    Ends (.slotCopy c i) s (fun u => ({ q with running := true } : SlotCopy) ∈ (u.dev.ctx c).prot.slotCopies ∧ ¬ q ∈ (u.dev.ctx c).prot.slotCopies ∧
      (u.dev.ctx c).prot.slotCopies.length = (s.dev.ctx c).prot.slotCopies.length ∧ u.mem = s.mem ∧ u.dev.regs = s.dev.regs ∧
      u.dev.counters = s.dev.counters ∧ u.dev.tiles = s.dev.tiles) := by
  have hfind' : (s.begin.ctx c).prot.slotCopies.find? (fun q => q.entry == i.val) = some q := hfind
  have hmirror' : s.begin.mirrorPending c (eVs (s.begin.entry s.mem c i)) (fun g => g % 2 == q.step.toNat % 2) = false := hmirror
  obtain ⟨hprot, hregs, hcounters, htiles, hstores, hwipes, -⟩ := updProt_reads s.begin c (fun p => { p with slotCopies := startCopy q p.slotCopies })
  obtain ⟨hnew, hold, hlen⟩ := startCopy_started (List.mem_of_find?_eq_some hfind) hwaits
  have hcopies := congrArg Prot.slotCopies hprot
  refine ends_of_run (x := xSlotCopy c i) (d := s.begin.updProt c (fun p => { p with slotCopies := startCopy q p.slotCopies })) rfl ?_
    ⟨?_, ?_, ?_, s.commit_mem _ hstores hwipes, ?_, ?_, ?_⟩
  · unfold xSlotCopy
    rw [hfind']
    dsimp only
    rw [if_neg (by simp [hwaits, hbucket, hmirror'])]
    rfl
  · rw [Dev.ctx_commit, hcopies]; exact hnew
  · rw [Dev.ctx_commit, hcopies]; exact hold
  · rw [Dev.ctx_commit, hcopies]; exact hlen
  · rw [State.commit_regs]; exact hregs
  · rw [State.commit_counters]; exact hcounters
  · rw [State.commit_tiles]; exact htiles

/-- Two runs of bytes written one after the other, apart from each other. -/
theorem holds_of_two (s : State) {d : Dev} {a b : Nat} {bs cs : List Byte} (hstores : d.stores = ((s.begin.pokeN a bs).pokeN b cs).stores)
    (hwipes : d.wipes = []) (hapart : a + bs.length ≤ b ∨ b + cs.length ≤ a) : Holds (s.commit d) a bs ∧ Holds (s.commit d) b cs ∧
    ∀ x, (x < a ∨ a + bs.length ≤ x) → (x < b ∨ b + cs.length ≤ x) → (s.commit d).read x = s.read x := by
  have hread : ∀ x, (s.commit d).read x = peek s.mem ((s.begin.pokeN a bs).pokeN b cs) x := fun x => by
    rw [State.read_commit, peek_congr (e := (s.begin.pokeN a bs).pokeN b cs) hstores hwipes]
  refine ⟨fun i hi => ?_, fun i hi => ?_, fun x hx hx' => ?_⟩
  · rw [hread, peek_pokeN, if_neg (by omega), peek_pokeN, if_pos ⟨by omega, by omega⟩, Nat.add_sub_cancel_left]
  · rw [hread, peek_pokeN, if_pos ⟨by omega, by omega⟩, Nat.add_sub_cancel_left]
  · rw [hread, peek_pokeN, if_neg (by omega), peek_pokeN, if_neg (by omega), peek_of_unwritten s rfl rfl]

theorem protCmd_congr {d e : Dev} {c : Nat} (h : (d.ctx c).prot.cmd = (e.ctx c).prot.cmd) : d.protCmd c = e.protCmd c := by
  unfold Dev.protCmd
  rw [h]

/-- A slot copied: its bytes, its step, the count, and the copy gone from the list (R387). -/
def Dev.slotCopied (d : Dev) (c : Nat) (q : SlotCopy) (a : Nat) (bs : List Byte) (b : Nat) : Dev :=
  ((((d.pokeN a bs).pokeN b (toLE 4 q.step.toNat)).bump (Reg.ctxProtSlotCopies c)).updProt c (fun p => { p with slotCopies := removeOne q p.slotCopies }))

theorem slotCopied_fields (d : Dev) (c : Nat) (q : SlotCopy) (a : Nat) (bs : List Byte) (b : Nat) :
    (d.slotCopied c q a bs b).stores = ((d.pokeN a bs).pokeN b (toLE 4 q.step.toNat)).stores ∧ (d.slotCopied c q a bs b).wipes = d.wipes ∧
    (d.slotCopied c q a bs b).count (Reg.ctxProtSlotCopies c) = d.count (Reg.ctxProtSlotCopies c) + 1 ∧
    ((d.slotCopied c q a bs b).ctx c).prot.slotCopies = removeOne q (d.ctx c).prot.slotCopies ∧ (d.slotCopied c q a bs b).regs = d.regs ∧
    (d.slotCopied c q a bs b).tiles = d.tiles ∧ (d.slotCopied c q a bs b).protCmd c = d.protCmd c := by
  obtain ⟨e, he⟩ : ∃ e, e = ((d.pokeN a bs).pokeN b (toLE 4 q.step.toNat)).bump (Reg.ctxProtSlotCopies c) := ⟨_, rfl⟩
  obtain ⟨hprot, hregs, hcounters, htiles, hstores, hwipes, -⟩ := updProt_reads e c (fun p => { p with slotCopies := removeOne q p.slotCopies })
  have hcount : e.count (Reg.ctxProtSlotCopies c) = d.count (Reg.ctxProtSlotCopies c) + 1 := by rw [he, Dev.count_bump_same]; rfl
  rw [Dev.slotCopied, ← he]
  refine ⟨hstores.trans (by rw [he]; rfl), hwipes.trans (by rw [he]; rfl), ?_, ?_, hregs.trans (by rw [he]; rfl), htiles.trans (by rw [he]; rfl),
    protCmd_congr ?_⟩
  · rw [← hcount, Dev.count, Dev.count, hcounters]
  · rw [hprot, he]; rfl
  · rw [hprot, he]; rfl

theorem slotCopyEnd_ends (s : State) (c : Fin 64) (i : Fin 4096) (q : SlotCopy) (x j n : Nat)
    (hfind : (s.dev.ctx c).prot.slotCopies.find? (fun q => q.entry == i.val && q.running) = some q)
    (hx : x = s.begin.entry s.mem c i) (hj : j = q.step.toNat % 2) (hn : n = eGbytes x) (hsrc : EngineReaches s c (eGsrc x) n)
    (hslot : EngineReaches s c (eSlot x j) n) (hstep : EngineReaches s c (s.dev.entryAt c i + 56 + 4 * j) 4)
    (hapart : eSlot x j + n ≤ s.dev.entryAt c i + 56 + 4 * j ∨ s.dev.entryAt c i + 60 + 4 * j ≤ eSlot x j) (hcmd : s.dev.protCmd c ≠ 1) :
    Ends (.slotCopyEnd c i) s (fun u => Holds u (eSlot x j) (peekN s.mem s.begin (eGsrc x) n) ∧
      Holds u (s.dev.entryAt c i + 56 + 4 * j) (toLE 4 q.step.toNat) ∧
      (∀ a, (a < eSlot x j ∨ eSlot x j + n ≤ a) → (a < s.dev.entryAt c i + 56 + 4 * j ∨ s.dev.entryAt c i + 60 + 4 * j ≤ a) → u.read a = s.read a) ∧
      u.dev.count (Reg.ctxProtSlotCopies c) = s.dev.count (Reg.ctxProtSlotCopies c) + 1 ∧
      (u.dev.ctx c).prot.slotCopies = removeOne q (s.dev.ctx c).prot.slotCopies ∧ u.dev.regs = s.dev.regs ∧ u.dev.tiles = s.dev.tiles) := by
  have hfind' : (s.begin.ctx c).prot.slotCopies.find? (fun q => q.entry == i.val && q.running) = some q := hfind
  have hbytes : (peekN s.mem s.begin (eGsrc x) n).length = n := peekN_length _ _ _ _
  have hfour : (toLE 4 q.step.toNat).length = 4 := toLE_length _ _
  obtain ⟨hstores, hwipes, hcount, hcopies, hregs, htiles, hcmd'⟩ :=
    slotCopied_fields s.begin c q (eSlot x j) (peekN s.mem s.begin (eGsrc x) n) (s.dev.entryAt c i + (56 + 4 * j))
  have hwrite : s.begin.engineWrite s.mem c (eSlot x j) (peekN s.mem s.begin (eGsrc x) n) = s.begin.pokeN (eSlot x j) (peekN s.mem s.begin (eGsrc x) n) :=
    engineWrite_can (engineCan_of hslot) hbytes s.mem
  have hset : (s.begin.pokeN (eSlot x j) (peekN s.mem s.begin (eGsrc x) n)).setEntry s.mem c i (56 + 4 * j) q.step.toNat
      = (s.begin.pokeN (eSlot x j) (peekN s.mem s.begin (eGsrc x) n)).pokeN (s.dev.entryAt c i + (56 + 4 * j)) (toLE 4 q.step.toNat) := by
    rw [Nat.add_assoc] at hstep
    exact engineWrite_can ((engineCan_of hstep).pokeN _ _) hfour s.mem
  have heffect : xSlotCopyEnd c i s.mem s.begin = s.begin.slotCopied c q (eSlot x j) (peekN s.mem s.begin (eGsrc x) n) (s.dev.entryAt c i + (56 + 4 * j)) := by
    unfold xSlotCopyEnd
    rw [hfind']
    dsimp only
    rw [← hx, ← hj, ← hn, engineRead_reached hsrc]
    dsimp only
    rw [hwrite, hset]
    exact secureAdvance_idle (.inl (fun h => hcmd (hcmd'.symm.trans h))) s.mem
  obtain ⟨hcopied, hstepped, hsame⟩ := holds_of_two s (a := eSlot x j) (b := s.dev.entryAt c i + (56 + 4 * j))
    (bs := peekN s.mem s.begin (eGsrc x) n) (cs := toLE 4 q.step.toNat) hstores hwipes (by rw [hbytes, hfour]; omega)
  rw [hbytes, hfour] at hsame
  refine ends_of_run (x := xSlotCopyEnd c i) rfl heffect ⟨hcopied, by rw [Nat.add_assoc]; exact hstepped, fun a ha ha' => hsame a ha (by omega), ?_, ?_, ?_, ?_⟩
  · rw [Dev.count_commit]; exact hcount
  · rw [Dev.ctx_commit]; exact hcopies
  · rw [State.commit_regs]; exact hregs
  · rw [State.commit_tiles]; exact htiles

end Sys2Proof.Machine
end

section
/-! Digests (R388), the appends of the log engine (R393, R394), and CTX_LOG_PROD. -/

namespace Sys2Proof.Machine

open Sys2Proof.Claims (Ends Holds SameMemBut EngineReaches Heard)

/-! Where a record's arrays lie (Table 10.5). -/

theorem le_roundUp {n u : Nat} (hu : 0 < u) : n ≤ roundUp n u := by
  unfold roundUp ceilDiv
  have h := Nat.div_add_mod (n + u - 1) u
  have hm := Nat.mod_lt (n + u - 1) hu
  rw [Nat.mul_comm] at h
  omega

/-- Offsets of arrays of the given sizes, each from the next multiple of 256. -/
def packArrays : Nat → List Nat → List (Nat × Nat)
  | _, [] => []
  | a, n :: l => (a, n) :: packArrays (a + roundUp n 256) l

theorem foldl_packArrays (sizes : List Nat) (a : Nat) (l : List (Nat × Nat)) :
    (sizes.foldl (fun (a : Nat × List (Nat × Nat)) n => (a.1 + roundUp n 256, a.2 ++ [(a.1, n)])) (a, l)).2 = l ++ packArrays a sizes := by
  induction sizes generalizing a l with
  | nil => rw [List.foldl_nil, packArrays, List.append_nil]
  | cons n sizes ih => rw [List.foldl_cons, ih, packArrays, List.append_assoc, List.singleton_append]

/-- Every array but the last ends before the last does, and none begins before the first. -/
theorem packArrays_bounds {a : Nat} {l : List Nat} {i j : Nat} (hij : i ≤ j) (hj : j < l.length) (k : Nat × Nat) :
    a ≤ ((packArrays a l).getD i k).1 ∧
    ((packArrays a l).getD i k).1 + ((packArrays a l).getD i k).2 ≤ ((packArrays a l).getD j k).1 + ((packArrays a l).getD j k).2 := by
  induction l generalizing a i j with
  | nil => exact absurd hj (Nat.not_lt_zero _)
  | cons n l ih =>
    have hround := le_roundUp (n := n) (u := 256) (by decide)
    rw [List.length_cons] at hj
    cases i with
    | zero =>
      cases j with
      | zero => exact ⟨le_refl _, le_refl _⟩
      | succ j =>
        have h := (ih (a := a + roundUp n 256) (Nat.zero_le j) (by omega)).2
        have hfirst := (ih (a := a + roundUp n 256) (le_refl j) (by omega)).1
        rw [packArrays]
        simp only [List.getD_cons_zero, List.getD_cons_succ]
        exact ⟨le_refl _, by omega⟩
    | succ i =>
      cases j with
      | zero => omega
      | succ j =>
        obtain ⟨hlow, hhigh⟩ := ih (a := a + roundUp n 256) (i := i) (j := j) (by omega) (by omega)
        rw [packArrays]
        simp only [List.getD_cons_succ]
        exact ⟨by omega, hhigh⟩

/-- The arrays of a record lie within its bytes. -/
theorem shardArray_within (h : Nat) {i : Nat} (hi : i ≤ 8) : 256 ≤ (shardArray h i).1 ∧ (shardArray h i).1 + (shardArray h i).2 ≤ shardBytes h := by
  unfold shardBytes shardArray shardArrays
  extract_lets ks ns bs w kp np mom sizes
  rw [foldl_packArrays, List.nil_append]
  exact packArrays_bounds hi (by show 8 < 9; decide) _

/-- A digest does not change with bytes that lie outside the record. -/
theorem digestOf_pokeN (m : Mem) (d : Dev) {rec_ x : Nat} {bs : List Byte} (hhead : rec_ + 64 ≤ x ∨ x + bs.length ≤ rec_)
    (hbody : rec_ + shardBytes (d.header m rec_) ≤ x ∨ x + bs.length ≤ rec_) : (d.pokeN x bs).digestOf m rec_ = d.digestOf m rec_ := by
  have hheader : (d.pokeN x bs).header m rec_ = d.header m rec_ := peekLE_pokeN_apart m d hhead
  unfold Dev.digestOf
  rw [hheader]
  dsimp only
  refine congrArg crc32 (List.flatMap_congr fun i hi => ?_)
  have hwithin := shardArray_within (d.header m rec_) (i := i) (by have := List.mem_range.mp hi; omega)
  exact peekN_pokeN_apart m d (by omega)

/-! DIGEST_COMPLETE (R388). -/

/-- A flag cleared that was set. -/
theorem setFlag_clears {d : Dev} {m : Mem} {c i f : Nat} (h : (eFlags (d.entry m c i)).testBit f = true) :
    d.setFlag m c i f false = d.engineWrite m c (d.entryAt c i + 48) (toLE 2 (setFld (eFlags (d.entry m c i)) f f 0)) := by
  unfold Dev.setFlag
  dsimp only
  rw [h, if_neg (by decide)]
  simp

theorem entryAt_pokeN (d : Dev) (a : Nat) (bs : List Byte) (c i : Nat) : (d.pokeN a bs).entryAt c i = d.entryAt c i := rfl

theorem protCmd_pokeN (d : Dev) (a : Nat) (bs : List Byte) (c : Nat) : (d.pokeN a bs).protCmd c = d.protCmd c := rfl

/-- An entry whose digest has moved on. -/
def Dev.digested (d : Dev) (at_ old new flags : Nat) : Dev :=
  ((d.pokeN (at_ + 68) (toLE 4 old)).pokeN (at_ + 64) (toLE 4 new)).pokeN (at_ + 48) (toLE 2 flags)

theorem digested_fields (d : Dev) (at_ old new flags c : Nat) : (d.digested at_ old new flags).protCmd c = d.protCmd c ∧
    (d.digested at_ old new flags).regs = d.regs ∧ (d.digested at_ old new flags).counters = d.counters ∧
    (d.digested at_ old new flags).tiles = d.tiles := by
  simp only [Dev.digested, protCmd_pokeN, Dev.pokeN_regs, Dev.pokeN_counters, Dev.pokeN_tiles, and_self]

theorem digested_holds (s : State) (at_ old new flags : Nat) : Holds (s.commit (s.begin.digested at_ old new flags)) (at_ + 68) (toLE 4 old) ∧
    Holds (s.commit (s.begin.digested at_ old new flags)) (at_ + 64) (toLE 4 new) ∧
    Holds (s.commit (s.begin.digested at_ old new flags)) (at_ + 48) (toLE 2 flags) ∧
    (∀ a, (a < at_ + 48 ∨ at_ + 50 ≤ a) → (a < at_ + 64 ∨ at_ + 72 ≤ a) → (s.commit (s.begin.digested at_ old new flags)).read a = s.read a) := by
  have hread : ∀ x, (s.commit (s.begin.digested at_ old new flags)).read x = if at_ + 48 ≤ x ∧ x < at_ + 48 + 2 then (toLE 2 flags).getD (x - (at_ + 48)) 0
      else if at_ + 64 ≤ x ∧ x < at_ + 64 + 4 then (toLE 4 new).getD (x - (at_ + 64)) 0
      else if at_ + 68 ≤ x ∧ x < at_ + 68 + 4 then (toLE 4 old).getD (x - (at_ + 68)) 0 else s.read x := fun x => by
    rw [State.read_commit, Dev.digested, peek_pokeN, peek_pokeN, peek_pokeN, toLE_length, toLE_length, toLE_length, peek_of_unwritten s rfl rfl]
  refine ⟨fun i hi => ?_, fun i hi => ?_, fun i hi => ?_, fun a ha ha' => ?_⟩
  · rw [toLE_length] at hi
    rw [hread, if_neg (by omega), if_neg (by omega), if_pos (by omega), Nat.add_sub_cancel_left]
  · rw [toLE_length] at hi
    rw [hread, if_neg (by omega), if_pos (by omega), Nat.add_sub_cancel_left]
  · rw [toLE_length] at hi
    rw [hread, if_pos (by omega), Nat.add_sub_cancel_left]
  · rw [hread, if_neg (by omega), if_neg (by omega), if_neg (by omega)]

theorem digestComplete_ends (s : State) (c : Fin 64) (i : Fin 4096) (x : Nat) (hon : s.dev.protOn c = true)
    (hlisted : (s.begin.entryList s.mem c).contains i.val = true) (hx : x = s.begin.entry s.mem c i) (hbusy : eFlag x fDIGBUSY = true)
    (hcmd : s.dev.protCmd c ≠ 1) (hcur : EngineReaches s c (s.dev.entryAt c i + 64) 4) (hprev : EngineReaches s c (s.dev.entryAt c i + 68) 4)
    (hflags : EngineReaches s c (s.dev.entryAt c i + 48) 2)
    (hbody : eRec x + shardBytes (s.begin.header s.mem (eRec x)) ≤ s.dev.entryAt c i ∨ s.dev.entryAt c i + 128 ≤ eRec x)
    (hhead : eRec x + 64 ≤ s.dev.entryAt c i ∨ s.dev.entryAt c i + 128 ≤ eRec x) :
    Ends (.digestComplete c i) s (fun u => Holds u (s.dev.entryAt c i + 68) (toLE 4 (eCurDig x)) ∧
      Holds u (s.dev.entryAt c i + 64) (toLE 4 (s.begin.digestOf s.mem (eRec x))) ∧
      Holds u (s.dev.entryAt c i + 48) (toLE 2 (setFld (eFlags x) 6 6 0)) ∧
      (∀ a, (a < s.dev.entryAt c i + 48 ∨ s.dev.entryAt c i + 50 ≤ a) → (a < s.dev.entryAt c i + 64 ∨ s.dev.entryAt c i + 72 ≤ a) → u.read a = s.read a) ∧
      u.dev.regs = s.dev.regs ∧ u.dev.counters = s.dev.counters ∧ u.dev.tiles = s.dev.tiles) := by
  have hon' : s.begin.protOn c = true := hon
  have hflag : s.begin.flag s.mem c i fDIGBUSY = true := by rw [Dev.flag, ← hx]; exact hbusy
  obtain ⟨d1, hd1⟩ : ∃ d1, d1 = s.begin.pokeN (s.dev.entryAt c i + 68) (toLE 4 (eCurDig x)) := ⟨_, rfl⟩
  obtain ⟨d2, hd2⟩ : ∃ d2, d2 = d1.pokeN (s.dev.entryAt c i + 64) (toLE 4 (s.begin.digestOf s.mem (eRec x))) := ⟨_, rfl⟩
  have hfirst : s.begin.setEntry s.mem c i 68 (eCurDig x) = d1 := (engineWrite_can (engineCan_of hprev) (toLE_length _ _) s.mem).trans hd1.symm
  have hdigest : d1.digestOf s.mem (eRec x) = s.begin.digestOf s.mem (eRec x) := by
    rw [hd1]
    exact digestOf_pokeN s.mem s.begin (by rw [toLE_length]; omega) (by rw [toLE_length]; omega)
  have hsecond : d1.setEntry s.mem c i 64 (s.begin.digestOf s.mem (eRec x)) = d2 := by
    have hat1 : d1.entryAt c i = s.dev.entryAt c i := by rw [hd1, entryAt_pokeN]; rfl
    have hcan : EngineCan d1 c (s.dev.entryAt c i + 64) 4 := by rw [hd1]; exact (engineCan_of hcur).pokeN _ _
    rw [hd2, Dev.setEntry, hat1]
    exact engineWrite_can hcan (toLE_length _ _) s.mem
  have hat : d2.entryAt c i = s.dev.entryAt c i := by rw [hd2, entryAt_pokeN, hd1, entryAt_pokeN]; rfl
  have hstill : eFlags (d2.entry s.mem c i) = eFlags x := by
    rw [hx, eFlags, eFlags, Dev.entry, Dev.entry, pe_peekLE _ _ _ (by decide) (by decide), pe_peekLE _ _ _ (by decide) (by decide), hat, hd2,
      peekLE_pokeN_apart _ _ (by rw [toLE_length]; omega), hd1, peekLE_pokeN_apart _ _ (by rw [toLE_length]; omega)]
    rfl
  have hthird : d2.setFlag s.mem c i fDIGBUSY false = s.begin.digested (s.dev.entryAt c i) (eCurDig x) (s.begin.digestOf s.mem (eRec x)) (setFld (eFlags x) 6 6 0) := by
    have hcan : EngineCan d2 c (s.dev.entryAt c i + 48) 2 := by rw [hd2, hd1]; exact ((engineCan_of hflags).pokeN _ _).pokeN _ _
    rw [setFlag_clears (by rw [hstill]; exact hbusy), hstill, hat, Dev.digested, ← hd1, ← hd2]
    exact engineWrite_can hcan (toLE_length _ _) s.mem
  obtain ⟨hcmd', hregs, hcounters, htiles⟩ := digested_fields s.begin (s.dev.entryAt c i) (eCurDig x) (s.begin.digestOf s.mem (eRec x)) (setFld (eFlags x) 6 6 0) c
  have heffect : xDigestComplete c i s.mem s.begin
      = s.begin.digested (s.dev.entryAt c i) (eCurDig x) (s.begin.digestOf s.mem (eRec x)) (setFld (eFlags x) 6 6 0) := by
    unfold xDigestComplete
    rw [if_neg (by simp only [hon', hlisted, hflag]; decide)]
    dsimp only
    rw [← hx, hfirst, hdigest, hsecond, hthird]
    exact secureAdvance_idle (.inl (fun h => hcmd (hcmd'.symm.trans h))) s.mem
  obtain ⟨hold, hnew, hflags', hsame⟩ := digested_holds s (s.dev.entryAt c i) (eCurDig x) (s.begin.digestOf s.mem (eRec x)) (setFld (eFlags x) 6 6 0)
  refine ends_of_run (x := xDigestComplete c i) rfl heffect ⟨hold, hnew, hflags', hsame, ?_, ?_, ?_⟩
  · rw [State.commit_regs]; exact hregs
  · rw [State.commit_counters]; exact hcounters
  · rw [State.commit_tiles]; exact htiles

/-! The input log. -/

/-- A staged PAD record passed over (R393). -/
def Dev.logPassed (d : Dev) (c : Nat) (n : BitVec 32) : Dev := (d.updLog c (fun l => { l with shipped := n })).setReg (Reg.ctxLogShipped c) n

theorem logPassed_fields (d : Dev) (c : Nat) (n : BitVec 32) : ((d.logPassed c n).ctx c).log = { (d.ctx c).log with shipped := n } ∧
    (d.logPassed c n).reg (Reg.ctxLogShipped c) = n ∧ (d.logPassed c n).stores = d.stores ∧ (d.logPassed c n).wipes = d.wipes ∧
    (d.logPassed c n).tags = d.tags ∧ (d.logPassed c n).counters = d.counters ∧ (d.logPassed c n).tiles = d.tiles ∧
    (d.logPassed c n).protCmd c = d.protCmd c := by
  obtain ⟨hlog, -, hcounters, htiles, hstores, hwipes, htags, hprot⟩ := updLog_reads d c (fun l => { l with shipped := n })
  exact ⟨hlog, Dev.reg_setReg_same _ _ _, hstores, hwipes, htags, hcounters, htiles, protCmd_congr (congrArg Prot.cmd hprot)⟩

theorem logAppend_passes (s : State) (c : Fin 64) (bs : List Byte) (t : BitVec 32) (n : Nat) (hon : s.dev.protOn c = true)
    (hknown : (s.dev.ctx c).log.known = true) (hidle : (s.dev.ctx c).log.busy = none) (hnext : s.begin.logNext s.mem c = some (bs, t, n, false))
    (hpad : leOf (bs.take 2) = 0) (hcmd : s.dev.protCmd c ≠ 1) :
    Ends (.logAppend c) s (fun u => (u.dev.ctx c).log = { (s.dev.ctx c).log with shipped := (s.dev.ctx c).log.shipped + BitVec.ofNat 32 n } ∧
      u.dev.reg (Reg.ctxLogShipped c) = (s.dev.ctx c).log.shipped + BitVec.ofNat 32 n ∧ u.mem = s.mem ∧ u.dev.tags = s.dev.tags ∧
      u.dev.counters = s.dev.counters ∧ u.dev.tiles = s.dev.tiles) := by
  have hon' : s.begin.protOn c = true := hon
  have hknown' : (s.begin.ctx c).log.known = true := hknown
  have hidle' : (s.begin.ctx c).log.busy = none := hidle
  obtain ⟨hlog, hreg, hstores, hwipes, htags, hcounters, htiles, hcmd'⟩ := logPassed_fields s.begin c ((s.dev.ctx c).log.shipped + BitVec.ofNat 32 n)
  have heffect : xLogAppend c s.mem s.begin = s.begin.logPassed c ((s.dev.ctx c).log.shipped + BitVec.ofNat 32 n) := by
    unfold xLogAppend
    rw [if_neg (by simp only [hon', hknown', hidle']; decide), hnext]
    dsimp only
    rw [if_pos (by simp [hpad])]
    exact secureAdvance_idle (.inl (fun h => hcmd (hcmd'.symm.trans h))) s.mem
  refine ends_of_run (x := xLogAppend c) rfl heffect ⟨?_, ?_, s.commit_mem _ hstores hwipes, ?_, ?_, ?_⟩
  · rw [Dev.ctx_commit]; exact hlog
  · rw [Dev.reg_commit]; exact hreg
  · rw [State.commit_tags]; exact htags
  · rw [State.commit_counters]; exact hcounters
  · rw [State.commit_tiles]; exact htiles

/-- What a write of at least no byte issues. -/
theorem fabWrite_fields (d : Dev) (c g : Nat) (bs : List Byte) (u : Purpose) (a b e : Nat) : ∃ l, Issues d (d.fabWrite c g bs u a b e) l := by
  by_cases hbs : bs = []
  · subst hbs
    exact ⟨[], issues_refl d⟩
  · obtain ⟨l, hl, -⟩ := fabWrite_issues d c g hbs u a b e
    exact ⟨l, hl⟩

theorem logAppend_begins (s : State) (c : Fin 64) (bs : List Byte) (t : BitVec 32) (n z : Nat) (w : Bool) (hon : s.dev.protOn c = true)
    (hknown : (s.dev.ctx c).log.known = true) (hidle : (s.dev.ctx c).log.busy = none) (hnext : s.begin.logNext s.mem c = some (bs, t, n, w))
    (hkind : leOf (bs.take 2) ≠ 0) (hroom : (s.dev.ctx c).log.room bs.length = some (0, z)) :
    Ends (.logAppend c) s (fun u => (u.dev.ctx c).log = { (s.dev.ctx c).log with busy := some { size := z, records := [(bs.length, some t)], staged := n, dropped := w, header := false, failed := false } } ∧
      u.mem = s.mem ∧ u.dev.regs = s.dev.regs ∧ u.dev.counters = s.dev.counters ∧ u.dev.tiles = s.dev.tiles) := by
  have hon' : s.begin.protOn c = true := hon
  have hknown' : (s.begin.ctx c).log.known = true := hknown
  have hidle' : (s.begin.ctx c).log.busy = none := hidle
  have hroom' : (s.begin.ctx c).log.room bs.length = some (0, z) := hroom
  obtain ⟨d, hd⟩ : ∃ d, d = s.begin.updLog c (fun l => { l with busy := some { size := z, records := [(bs.length, some t)], staged := n, dropped := w, header := false, failed := false } }) := ⟨_, rfl⟩
  obtain ⟨hlog, hregs, hcounters, htiles, hstores, hwipes, -⟩ := hd ▸ updLog_reads s.begin c (fun l => { l with busy := some { size := z, records := [(bs.length, some t)], staged := n, dropped := w, header := false, failed := false } })
  obtain ⟨tags, hissues⟩ := fabWrite_fields d c (s.begin.logRemote s.mem c + 4096 + ((s.begin.ctx c).log.tail + 0) % max 1 (s.begin.ctx c).log.size)
    (stampRecord bs ((s.begin.ctx c).log.nextSeq + 0)) .logRecord c 0 0
  obtain ⟨hregs', hcounters', htiles', hctxs', hstores', hwipes', -⟩ := hissues.fields
  have heffect : xLogAppend c s.mem s.begin = d.fabWrite c (s.begin.logRemote s.mem c + 4096 + ((s.begin.ctx c).log.tail + 0) % max 1 (s.begin.ctx c).log.size)
      (stampRecord bs ((s.begin.ctx c).log.nextSeq + 0)) .logRecord c 0 0 := by
    unfold xLogAppend
    rw [if_neg (by simp only [hon', hknown', hidle']; decide), hnext]
    dsimp only
    rw [if_neg (by simp [hkind]), hroom']
    dsimp only
    simp only [if_true, List.nil_append]
    rw [← hd]
    rfl
  refine ends_of_run (x := xLogAppend c) rfl heffect ⟨?_, s.commit_mem _ (hstores'.trans hstores) (hwipes'.trans hwipes), ?_, ?_, ?_⟩
  · rw [Dev.ctx_commit, Dev.ctx, hctxs']; exact hlog
  · rw [State.commit_regs]; exact hregs'.trans hregs
  · rw [State.commit_counters]; exact hcounters'.trans hcounters
  · rw [State.commit_tiles]; exact htiles'.trans htiles

theorem ctxLogProd_taken (s : State) (r : Requester) (c : Fin 64) (v : BitVec 32) (hheard : Heard s r (Reg.ctxLogProd c) v) (hmay : s.dev.mayWriteCtx r c = true)
    (hfits : s.dev.protOn c = true → (v - (s.dev.ctx c).log.shipped).toNat ≤ s.begin.logLocalBytes s.mem c) :
    Ends (.ctxLogProdWrite r c v) s (fun u => u.dev.regs = (s.dev.putReg (Reg.ctxLogProd c) v).regs ∧ u.mem = s.mem ∧ u.dev.ctxs = s.dev.ctxs ∧
      u.dev.counters = s.dev.counters ∧ u.dev.tiles = s.dev.tiles) := by
  have hwrite : s.begin.logProdWrite s.mem c v = s.begin.putReg (Reg.ctxLogProd c) v := by
    unfold Dev.logProdWrite
    dsimp only
    rw [if_neg]
    rw [Bool.and_eq_true, decide_eq_true_eq]
    exact fun ⟨hon, hfar⟩ => absurd (hfits hon) (Nat.not_le.mpr hfar)
  exact ends_of_quiet (quiet_of_heard (d := s.begin.putReg (Reg.ctxLogProd c) v) (x := fun m d => (d.logProdWrite m c v, stOK)) rfl (perm := fun d => d.mayWriteCtx r c) hheard hmay (congrArg (·, stOK) hwrite) rfl rfl)
    ⟨rfl, rfl, rfl, rfl, rfl⟩

theorem ctxLogProd_ignored (s : State) (r : Requester) (c : Fin 64) (v : BitVec 32) (hheard : Heard s r (Reg.ctxLogProd c) v)
    (hmay : s.dev.mayWriteCtx r c = true) (hon : s.dev.protOn c = true)
    (hfar : s.begin.logLocalBytes s.mem c < (v - (s.dev.ctx c).log.shipped).toNat) :
    Ends (.ctxLogProdWrite r c v) s (fun u => u.dev.regs = s.dev.regs ∧ u.mem = s.mem ∧ u.dev.ctxs = s.dev.ctxs ∧ u.dev.counters = s.dev.counters) := by
  have hwrite : s.begin.logProdWrite s.mem c v = s.begin := by
    unfold Dev.logProdWrite
    dsimp only
    rw [if_pos]
    rw [Bool.and_eq_true, decide_eq_true_eq]
    exact ⟨hon, hfar⟩
  exact ends_of_quiet (quiet_of_heard (d := s.begin) (x := fun m d => (d.logProdWrite m c v, stOK)) rfl (perm := fun d => d.mayWriteCtx r c) hheard hmay (congrArg (·, stOK) hwrite) rfl rfl) ⟨rfl, rfl, rfl, rfl⟩

/-- Settles O51. When the oldest slot copy starts, and that an append takes its place in the log as it begins, is the model's choice (log entry 56). -/
theorem copiesDigestsAndLogsAdvance : Obligations.CopiesDigestsAndLogsAdvance :=
  ⟨secureReread_ends, retainWrite_ends, slotCopy_starts, slotCopyEnd_ends, digestComplete_ends, logAppend_passes, logAppend_begins, ctxLogProd_taken,
    ctxLogProd_ignored⟩

end Sys2Proof.Machine
end

section
/-! The protection table as devices see it that differ in neither memory nor its base, and what commands of CTX_PROT_CTRL start with. -/

namespace Sys2Proof.Machine

open Sys2Proof.Claims (Ends Heard ProtHeard ProtRefused)

/-- Devices that show the same protection table of context `c`: memory and the table's base are the same. -/
structure SameTable (c : Nat) (d e : Dev) : Prop where
  stores : e.stores = d.stores
  wipes : e.wipes = d.wipes
  base : e.reg64 (Reg.ctxProtBaseLo c) = d.reg64 (Reg.ctxProtBaseLo c)

section
variable {c : Nat} {d e : Dev}

theorem SameTable.peekN (h : SameTable c d e) (m : Mem) (a n : Nat) : peekN m e a n = peekN m d a n := peekN_congr h.stores h.wipes m a n

theorem SameTable.peekLE (h : SameTable c d e) (m : Mem) (a n : Nat) : peekLE m e a n = peekLE m d a n := congrArg leOf (h.peekN m a n)

theorem SameTable.protBase (h : SameTable c d e) : e.protBase c = d.protBase c := by rw [Dev.protBase, h.base, Dev.protBase]

theorem SameTable.protField (h : SameTable c d e) (m : Mem) (off n : Nat) : e.protField m c off n = d.protField m c off n := by
  rw [Dev.protField, h.protBase, h.peekLE, Dev.protField]

theorem SameTable.entryAt (h : SameTable c d e) (i : Nat) : e.entryAt c i = d.entryAt c i := by rw [Dev.entryAt, h.protBase, Dev.entryAt]

theorem SameTable.entry (h : SameTable c d e) (m : Mem) (i : Nat) : e.entry m c i = d.entry m c i := by rw [Dev.entry, h.entryAt, h.peekLE, Dev.entry]

theorem SameTable.flag (h : SameTable c d e) (m : Mem) (i f : Nat) : e.flag m c i f = d.flag m c i f := by rw [Dev.flag, h.entry, Dev.flag]

theorem SameTable.entryList (h : SameTable c d e) (m : Mem) : e.entryList m c = d.entryList m c := by
  rw [Dev.entryList, Dev.protEntries, h.protField, Dev.entryList, Dev.protEntries]

theorem SameTable.mirrorsOf (h : SameTable c d e) (m : Mem) (v : Nat) : e.mirrorsOf m c v = d.mirrorsOf m c v := by
  simp only [Dev.mirrorsOf, h.entryList, h.entry]

theorem SameTable.header (h : SameTable c d e) (m : Mem) (r : Nat) : e.header m r = d.header m r := h.peekLE m r 64

end

/-! The register after an accepted command (R405). -/

/-- CTX_PROT_CTRL with ENABLE and a command. -/
def Dev.protNoted (d : Dev) (c cmd : Nat) : Dev := d.setRegN (Reg.ctxProtCtrl c) (setFld (setFld 0 30 27 cmd) 31 31 1)

theorem protNoted_fields (d : Dev) (c cmd : Nat) : (d.protNoted c cmd).ctxs = d.ctxs ∧ (d.protNoted c cmd).tags = d.tags ∧
    (d.protNoted c cmd).tiles = d.tiles ∧ (d.protNoted c cmd).counters = d.counters ∧ (d.protNoted c cmd).stores = d.stores ∧
    (d.protNoted c cmd).wipes = d.wipes ∧ (∀ x, (d.protNoted c cmd).ctx x = d.ctx x) :=
  ⟨rfl, rfl, rfl, rfl, rfl, rfl, fun _ => rfl⟩

theorem reg_protNoted (d : Dev) (c cmd : Nat) {k : Nat} (h : Reg.ctxProtCtrl c ≠ k) : (d.protNoted c cmd).reg k = d.reg k := by
  rw [Dev.protNoted, Dev.setRegN, Dev.reg_setReg, if_neg h]

theorem ctxProtCtrl_apart (c : Nat) : Reg.ctxProtCtrl c ≠ Reg.ctxProtBaseLo c ∧ Reg.ctxProtCtrl c ≠ Reg.ctxProtBaseLo c + 4 ∧
    Reg.ctxProtCtrl c ≠ Reg.ctxProtArg c ∧ Reg.ctxProtCtrl c ≠ Reg.ctxLogProd c ∧ Reg.ctxProtCtrl c ≠ Reg.ctxProtStatus c := by
  unfold Reg.ctxProtCtrl Reg.ctxProtBaseLo Reg.ctxProtArg Reg.ctxLogProd Reg.ctxProtStatus
  omega

theorem ctxProtStatus_apart (c : Nat) : Reg.ctxProtStatus c ≠ Reg.ctxProtBaseLo c ∧ Reg.ctxProtStatus c ≠ Reg.ctxProtBaseLo c + 4 ∧
    Reg.ctxProtStatus c ≠ Reg.ctxProtArg c ∧ Reg.ctxProtStatus c ≠ Reg.ctxLogProd c ∧ Reg.ctxProtStatus c ≠ Reg.ctxProtCtrl c := by
  unfold Reg.ctxProtCtrl Reg.ctxProtBaseLo Reg.ctxProtArg Reg.ctxLogProd Reg.ctxProtStatus
  omega

theorem sameTable_protNoted (d : Dev) (c cmd : Nat) : SameTable c d (d.protNoted c cmd) := by
  obtain ⟨hlo, hhi, -⟩ := ctxProtCtrl_apart c
  exact ⟨rfl, rfl, by rw [Dev.reg64, reg_protNoted d c cmd hlo, reg_protNoted d c cmd hhi, Dev.reg64]⟩

theorem protOn_protNoted (d : Dev) (c cmd : Nat) : (d.protNoted c cmd).protOn c = true := by
  rw [Dev.protOn, Dev.rb, Dev.protNoted, Dev.setRegN, Dev.reg_setReg_same, BitVec.getLsbD_ofNat]
  have hbit : fld (setFld (setFld 0 30 27 cmd) 31 31 1) 31 31 = 1 := fld_setFld _ _ _ _
  have htest := congrArg (fun x => x.testBit 0) hbit
  simpa [fld, Nat.testBit_mod_two_pow, Nat.testBit_shiftRight] using htest

/-- A command is accepted or not as it was before the register took it. -/
theorem protAccepts_protNoted {d : Dev} {c : Nat} (hon : d.protOn c = true) (m : Mem) (n cmd : Nat) :
    (d.protNoted c n).protAccepts m c cmd = d.protAccepts m c cmd := by
  have hsame := sameTable_protNoted d c n
  unfold Dev.protAccepts
  simp only [hsame.entryList, hsame.entry, hsame.flag, protOn_protNoted, hon, (protNoted_fields d c n).2.2.2.2.2.2]

theorem fb_protCmdWord (d : Dev) (c : Nat) {cmd : Nat} (hcmd : cmd < 16) : fb (d.protCmdWord c cmd) 30 27 = cmd := by
  rw [Dev.protCmdWord, fb_ofNat_setFld 32 _ 30 27 cmd (d.reg _).isLt (by decide) (by decide)]
  exact Nat.mod_eq_of_lt hcmd

theorem getLsbD_protCmdWord (d : Dev) (c cmd : Nat) : (d.protCmdWord c cmd).getLsbD 31 = d.protOn c := by
  have hfld : fld (setFld (d.reg (Reg.ctxProtCtrl c)).toNat 30 27 cmd) 31 31 = fld (d.reg (Reg.ctxProtCtrl c)).toNat 31 31 :=
    fld_setFld_above _ _ _ _ _ _ (by decide) (by decide)
  have htest := congrArg (fun x => x.testBit 0) hfld
  rw [Dev.protCmdWord, BitVec.getLsbD_ofNat, Dev.protOn, Dev.rb, BitVec.getLsbD]
  simpa [fld, Nat.testBit_mod_two_pow, Nat.testBit_shiftRight] using htest

theorem protCtrlWrite_command {d : Dev} {c cmd : Nat} (hon : d.protOn c = true) (hcmd : cmd < 16) (m : Mem) :
    d.protCtrlWrite m c (d.protCmdWord c cmd) = (d.protNoted c cmd).protCommand m c cmd := by
  unfold Dev.protCtrlWrite
  simp only [fb_protCmdWord d c hcmd, getLsbD_protCmdWord, hon, Bool.true_or, Bool.and_self, Bool.not_true, Bool.and_false, Bool.false_and, if_true,
    Bool.false_eq_true, if_false]
  rfl

theorem protOn_of_accepts {d : Dev} {m : Mem} {c cmd : Nat} (h : d.protAccepts m c cmd = true) : d.protOn c = true ∧ (d.ctx c).prot.cmd = none := by
  simp only [Dev.protAccepts, Bool.and_eq_true, Option.isNone_iff_eq_none] at h
  exact ⟨h.1.1.1, h.1.2⟩

/-- The end of an accepted command of CTX_PROT_CTRL. -/
theorem ends_of_protHeard {i : Instr} {s : State} {r : Requester} {c : Fin 64} {cmd : Nat} {P : State → Prop} {d : Dev}
    (hexec : exec i s = s.protWrite r c (fun d => d.protCmdWord c cmd)) (h : ProtHeard s r c cmd) (hcmd : cmd < 16)
    (hd : ∀ e, e = s.begin.protNoted c cmd → e.protAccepts s.mem c cmd = true → e.protCommand s.mem c cmd = d) (hP : P (s.commit (d.answer r stOK))) :
    Ends i s P := by
  obtain ⟨hheard, hmay, haccepts⟩ := h
  have hon := (protOn_of_accepts haccepts).1
  refine ends_of_heard (perm := fun d => d.mayWriteCtx r c) (d := d) (st := stOK) hexec hheard hmay ?_ hP
  dsimp only
  rw [protCtrlWrite_command hon hcmd, hd _ rfl ((protAccepts_protNoted hon s.mem cmd cmd).trans haccepts)]

/-! The start of each command. -/

section
variable {d : Dev} {m : Mem} {c : Nat}

theorem protCommand_secure (h : d.protAccepts m c 1 = true) : d.protCommand m c 1 = d.secureStart m c := by
  unfold Dev.protCommand
  rw [if_neg (by decide), if_neg (by simp [h])]
  rfl

theorem protCommand_restore (h : d.protAccepts m c 2 = true) : d.protCommand m c 2 = d.restoreStart m c := by
  unfold Dev.protCommand
  rw [if_neg (by decide), if_neg (by simp [h])]
  rfl

theorem protCommand_apply (h : d.protAccepts m c 3 = true) : d.protCommand m c 3 = d.applyStart m c := by
  unfold Dev.protCommand
  rw [if_neg (by decide), if_neg (by simp [h])]
  rfl

theorem protCommand_resync (h : d.protAccepts m c 4 = true) : d.protCommand m c 4 = d.resyncStart m c := by
  unfold Dev.protCommand
  rw [if_neg (by decide), if_neg (by simp [h])]
  rfl

theorem protCommand_promote (h : d.protAccepts m c 5 = true) : d.protCommand m c 5 = d.promoteStart m c := by
  unfold Dev.protCommand
  rw [if_neg (by decide), if_neg (by simp [h])]
  rfl

theorem protCommand_fetch {cmd : Nat} (hcmd : cmd = 6 ∨ cmd = 7) (h : d.protAccepts m c cmd = true) : d.protCommand m c cmd = d.fetchStart m c cmd := by
  unfold Dev.protCommand
  rcases hcmd with rfl | rfl
  · rw [if_neg (by decide), if_neg (by simp [h])]
    rfl
  · rw [if_neg (by decide), if_neg (by simp [h])]
    rfl

theorem protCommand_refused {cmd : Nat} (hcmd : cmd ≠ 0) (h : d.protAccepts m c cmd = false) : d.protCommand m c cmd = d.setResult c resREFUSED := by
  unfold Dev.protCommand
  rw [if_neg hcmd, if_pos (by simp [h])]

end

theorem setResult_reads (d : Dev) (c r : Nat) : ((d.setResult c r).ctx c).prot = { (d.ctx c).prot with result := BitVec.ofNat 8 r } ∧
    (d.setResult c r).counters = d.counters ∧ (d.setResult c r).tiles = d.tiles ∧ (d.setResult c r).stores = d.stores ∧
    (d.setResult c r).wipes = d.wipes ∧ (d.setResult c r).tags = d.tags ∧ ((d.setResult c r).ctx c).pipe = (d.ctx c).pipe ∧
    ((d.setResult c r).ctx c).log = (d.ctx c).log ∧ (∀ k, Reg.ctxProtStatus c ≠ k → (d.setResult c r).reg k = d.reg k) ∧
    (d.setResult c r).rf (Reg.ctxProtStatus c) 23 16 = r % 256 := by
  obtain ⟨hprot, hregs, hcounters, htiles, hstores, hwipes, htags, hpipe, hlog, -⟩ :=
    updProt_reads (d.setRf (Reg.ctxProtStatus c) 23 16 r) c (fun p => { p with result := BitVec.ofNat 8 r })
  refine ⟨hprot, hcounters, htiles, hstores, hwipes, htags, hpipe, hlog, fun k hk => ?_, ?_⟩
  · rw [Dev.reg, Dev.setResult, hregs]
    exact reg_setRf_other d 23 16 r hk
  · rw [Dev.rf, Dev.reg, Dev.setResult, hregs]
    exact rf_setRf_same d _ r (by decide) (by decide)

/-- An accepted command with RESULT OK, and what it notes. -/
def Dev.protBegun (d : Dev) (c : Nat) (f : Prot → Prot) : Dev := (d.setResult c resOK).updProt c f

theorem protBegun_reads (d : Dev) (c : Nat) (f : Prot → Prot) : ((d.protBegun c f).ctx c).prot = f { (d.ctx c).prot with result := 0 } ∧
    (d.protBegun c f).counters = d.counters ∧ (d.protBegun c f).tiles = d.tiles ∧ (d.protBegun c f).stores = d.stores ∧
    (d.protBegun c f).wipes = d.wipes ∧ (d.protBegun c f).tags = d.tags ∧ ((d.protBegun c f).ctx c).pipe = (d.ctx c).pipe ∧
    SameTable c d (d.protBegun c f) := by
  obtain ⟨hprot, hcounters, htiles, hstores, hwipes, htags, hpipe, -, hreg, -⟩ := setResult_reads d c resOK
  obtain ⟨hprot', hregs', hcounters', htiles', hstores', hwipes', htags', hpipe', -⟩ := updProt_reads (d.setResult c resOK) c f
  obtain ⟨hlo, hhi, -⟩ := ctxProtStatus_apart c
  refine ⟨hprot'.trans (congrArg f hprot), hcounters'.trans hcounters, htiles'.trans htiles, hstores'.trans hstores, hwipes'.trans hwipes,
    htags'.trans htags, hpipe'.trans hpipe, hstores'.trans hstores, hwipes'.trans hwipes, ?_⟩
  have hsame : ∀ k, Reg.ctxProtStatus c ≠ k → (d.protBegun c f).reg k = d.reg k := fun k hk => by
    rw [Dev.reg, Dev.protBegun, hregs']
    exact hreg k hk
  rw [Dev.reg64, hsame _ hlo, hsame _ hhi, Dev.reg64]

/-- Each counterpart is read with one request (R221). -/
theorem peerReads_issue (m : Mem) (c : Nat) (u : Purpose) (l : List Nat) (d : Dev) :
    ∃ ts, Issues d (d.each l (fun d i => d.peerRead m c i u)) ts ∧ ts.length = l.length := by
  induction l generalizing d with
  | nil => exact ⟨[], issues_refl d, rfl⟩
  | cons i l ih =>
    obtain ⟨t, ht, -⟩ := fabRead_issues d c (ePeerEnt (d.entry m c i)) 128 u c i 0
    obtain ⟨ts, hts, hlen⟩ := ih (d.peerRead m c i u)
    exact ⟨[t] ++ ts, ht.trans hts, by simp [hlen, Nat.add_comm]⟩

theorem endCmd_reads (d : Dev) (c : Nat) : ((d.endCmd c).ctx c).prot = { (d.ctx c).prot with cmd := none, flushed := false, todo := [], reread := [], peers := [], unreachable := false, peerRetain := none } ∧
    (d.endCmd c).regs = d.regs ∧ (d.endCmd c).counters = d.counters ∧ (d.endCmd c).tiles = d.tiles ∧ (d.endCmd c).stores = d.stores ∧
    (d.endCmd c).wipes = d.wipes ∧ (d.endCmd c).tags = d.tags ∧ ((d.endCmd c).ctx c).pipe = (d.ctx c).pipe := by
  obtain ⟨hprot, hregs, hcounters, htiles, hstores, hwipes, htags, hpipe, -⟩ :=
    updProt_reads d c (fun p => { p with cmd := none, flushed := false, todo := [], reread := [], peers := [], unreachable := false, peerRetain := none })
  exact ⟨hprot, hregs, hcounters, htiles, hstores, hwipes, htags, hpipe⟩

theorem prot_of_ctxs {d e : Dev} (h : e.ctxs = d.ctxs) (c : Nat) : (e.ctx c).prot = (d.ctx c).prot ∧ (e.ctx c).pipe = (d.ctx c).pipe := by
  rw [Dev.ctx, h]
  exact ⟨rfl, rfl⟩

/-! The copy commands: RESYNC, FETCH and DEMOTE read each counterpart of a list. -/

/-- What a device has of `d` when a command has noted `p` and read the counterparts of the entries in `l`. -/
structure ReadsPeers (d e : Dev) (c : Nat) (p : Prot) (l : List Nat) : Prop where
  busy : l ≠ [] → (e.ctx c).prot.cmd = p.cmd
  idle : l = [] → (e.ctx c).prot.cmd = none
  todo : (e.ctx c).prot.todo = l
  result : (e.ctx c).prot.result = 0
  pipe : (e.ctx c).pipe = (d.ctx c).pipe
  tags : e.tags.length = d.tags.length + l.length
  stores : e.stores = d.stores
  wipes : e.wipes = d.wipes
  tiles : e.tiles = d.tiles
  counters : e.counters = d.counters

theorem copyStart_reads (d : Dev) (m : Mem) (c : Nat) (f : Prot → Prot) (u : Purpose) {l : List Nat} {p : Prot}
    (hf : f { (d.ctx c).prot with result := 0 } = p) (htodo : p.todo = l) (hresult : p.result = 0) :
    ReadsPeers d (((d.protBegun c f).each l (fun d i => d.peerRead m c i u)).copyEnds c) c p l := by
  obtain ⟨hprot, hcounters, htiles, hstores, hwipes, htags, hpipe, -⟩ := protBegun_reads d c f
  obtain ⟨ts, hissues, hlen⟩ := peerReads_issue m c u l (d.protBegun c f)
  obtain ⟨-, hcounters', htiles', hctxs', hstores', hwipes', -⟩ := hissues.fields
  obtain ⟨e, he⟩ : ∃ e, e = (d.protBegun c f).each l (fun d i => d.peerRead m c i u) := ⟨_, rfl⟩
  rw [← he] at hissues hcounters' htiles' hctxs' hstores' hwipes' ⊢
  obtain ⟨hprot', hpipe'⟩ := prot_of_ctxs hctxs' c
  have hp : (e.ctx c).prot = p := hprot'.trans (hprot.trans hf)
  have hlength : e.tags.length = d.tags.length + l.length := by rw [hissues.tags, List.length_append, htags, hlen]
  unfold Dev.copyEnds
  cases l with
  | nil =>
    obtain ⟨hend, -, hcounters'', htiles'', hstores'', hwipes'', htags'', hpipe''⟩ := endCmd_reads e c
    rw [if_pos (by rw [hp, htodo]; rfl)]
    exact ⟨fun h => absurd rfl h, fun _ => by rw [hend], by rw [hend], by rw [hend, hp]; exact hresult, hpipe''.trans (hpipe'.trans hpipe),
      (congrArg List.length htags'').trans hlength, hstores''.trans (hstores'.trans hstores), hwipes''.trans (hwipes'.trans hwipes),
      htiles''.trans (htiles'.trans htiles), hcounters''.trans (hcounters'.trans hcounters)⟩
  | cons i l =>
    rw [if_neg (by rw [hp, htodo]; exact Bool.false_ne_true)]
    exact ⟨fun _ => congrArg Prot.cmd hp, fun h => absurd h (List.cons_ne_nil i l), (congrArg Prot.todo hp).trans htodo, (congrArg Prot.result hp).trans hresult,
      hpipe'.trans hpipe, hlength, hstores'.trans hstores, hwipes'.trans hwipes, htiles'.trans htiles, hcounters'.trans hcounters⟩

theorem protResync_ends (s : State) (r : Requester) (c : Fin 64) (l : List Nat) (h : ProtHeard s r c 4)
    (hl : l = s.begin.mirrorsOf s.mem c (s.dev.rf (Reg.ctxProtArg c) 2 0)) :
    Ends (.protResync r c) s (fun u => (u.dev.ctx c).prot.todo = l ∧ (u.dev.ctx c).prot.result = 0 ∧ (l = [] → (u.dev.ctx c).prot.cmd = none) ∧
      (l ≠ [] → (u.dev.ctx c).prot.cmd = some (4, BitVec.ofNat 32 (s.dev.rf (Reg.ctxProtArg c) 2 0))) ∧
      u.dev.tags.length = s.dev.tags.length + l.length ∧ u.mem = s.mem ∧ u.dev.tiles = s.dev.tiles ∧ u.dev.counters = s.dev.counters) := by
  obtain ⟨e, he⟩ : ∃ e, e = s.begin.protNoted c 4 := ⟨_, rfl⟩
  obtain ⟨v, hv⟩ : ∃ v, v = s.dev.rf (Reg.ctxProtArg c) 2 0 := ⟨_, rfl⟩
  have hsame : SameTable c s.begin e := he ▸ sameTable_protNoted _ _ _
  have harg : e.rf (Reg.ctxProtArg c) 2 0 = v := by
    rw [Dev.rf, he, reg_protNoted _ _ _ (ctxProtCtrl_apart c).2.2.1, hv]
    rfl
  obtain ⟨hctxs, htags, htiles, hcounters, hstores, hwipes, -⟩ := he ▸ protNoted_fields s.begin c 4
  obtain ⟨g, hg⟩ : ∃ g : Dev, g = ((e.protBegun c (fun p => { p with cmd := some (4, BitVec.ofNat 32 v), todo := l, peers := [] })).each l
    (fun d i => d.peerRead s.mem c i .resyncRead)).copyEnds c := ⟨_, rfl⟩
  have hreads := copyStart_reads e s.mem c (fun p => { p with cmd := some (4, BitVec.ofNat 32 v), todo := l, peers := [] }) .resyncRead rfl rfl rfl
  rw [← hg] at hreads
  rw [← hv]
  refine ends_of_protHeard rfl h (by decide) (d := g) (fun e' he' haccepts => ?_)
    ⟨hreads.todo, hreads.result, hreads.idle, hreads.busy, hreads.tags.trans (by rw [htags]; rfl),
      s.commit_mem _ (hreads.stores.trans hstores) (hreads.wipes.trans hwipes), hreads.tiles.trans htiles, hreads.counters.trans hcounters⟩
  rw [← he] at he'
  rw [he', protCommand_resync (he' ▸ haccepts)]
  unfold Dev.resyncStart
  dsimp only
  rw [harg, hg, hsame.mirrorsOf, hv, ← hl]
  rfl

theorem fetchStart_ends {i : Instr} {s : State} {r : Requester} {c : Fin 64} {cmd : Nat} (hexec : exec i s = s.protWrite r c (fun d => d.protCmdWord c cmd))
    (hcmd : cmd = 6 ∨ cmd = 7) (h : ProtHeard s r c cmd) :
    Ends i s (fun u => (u.dev.ctx c).prot.todo = s.begin.entryList s.mem c ∧ (u.dev.ctx c).prot.result = 0 ∧
      (s.begin.entryList s.mem c ≠ [] → (u.dev.ctx c).prot.cmd = some (cmd, 0)) ∧
      u.dev.tags.length = s.dev.tags.length + (s.begin.entryList s.mem c).length ∧ u.mem = s.mem ∧ u.dev.tiles = s.dev.tiles ∧
      u.dev.counters = s.dev.counters) := by
  obtain ⟨e, he⟩ : ∃ e, e = s.begin.protNoted c cmd := ⟨_, rfl⟩
  obtain ⟨l, hl⟩ : ∃ l, l = s.begin.entryList s.mem c := ⟨_, rfl⟩
  have hsame : SameTable c s.begin e := he ▸ sameTable_protNoted _ _ _
  obtain ⟨hctxs, htags, htiles, hcounters, hstores, hwipes, -⟩ := he ▸ protNoted_fields s.begin c cmd
  obtain ⟨g, hg⟩ : ∃ g : Dev, g = ((e.protBegun c (fun p => { p with cmd := some (cmd, 0), todo := l, peers := [], flushed := false })).each l
    (fun d i => d.peerRead s.mem c i .fetchRead)).copyEnds c := ⟨_, rfl⟩
  have hreads := copyStart_reads e s.mem c (fun p => { p with cmd := some (cmd, 0), todo := l, peers := [], flushed := false }) .fetchRead rfl rfl rfl
  rw [← hg] at hreads
  rw [← hl]
  refine ends_of_protHeard hexec h (by omega) (d := g) (fun e' he' haccepts => ?_)
    ⟨hreads.todo, hreads.result, hreads.busy, hreads.tags.trans (by rw [htags]; rfl),
      s.commit_mem _ (hreads.stores.trans hstores) (hreads.wipes.trans hwipes), hreads.tiles.trans htiles, hreads.counters.trans hcounters⟩
  rw [← he] at he'
  rw [he', protCommand_fetch hcmd (he' ▸ haccepts)]
  unfold Dev.fetchStart
  dsimp only
  rw [hg, hsame.entryList, ← hl]
  rfl

/-! APPLY (R399). -/

theorem apply_ends (s : State) (r : Requester) (c : Fin 64) (l : List Nat) (h : ProtHeard s r c 3)
    (hl : l = (s.begin.entryList s.mem c).filter (fun i => !eMirror (s.begin.entry s.mem c i) &&
      eVstep (s.begin.entry s.mem c i) + 1 == (s.dev.reg (Reg.ctxProtArg c)).toNat)) (hne : l ≠ []) :
    Ends (.apply r c) s (fun u => (u.dev.ctx c).prot.todo = l ∧ (u.dev.ctx c).prot.cmd = some (3, s.dev.reg (Reg.ctxProtArg c)) ∧
      (u.dev.ctx c).prot.result = 0 ∧ u.dev.tags.length = s.dev.tags.length + 1 + l.length ∧ u.mem = s.mem ∧ u.dev.tiles = s.dev.tiles ∧
      u.dev.counters = s.dev.counters ∧ (u.dev.ctx c).pipe = (s.dev.ctx c).pipe) := by
  obtain ⟨e, he⟩ : ∃ e, e = s.begin.protNoted c 3 := ⟨_, rfl⟩
  obtain ⟨t, ht⟩ : ∃ t, t = s.dev.reg (Reg.ctxProtArg c) := ⟨_, rfl⟩
  have hsame : SameTable c s.begin e := he ▸ sameTable_protNoted _ _ _
  have harg : e.reg (Reg.ctxProtArg c) = t := by
    rw [he, reg_protNoted _ _ _ (ctxProtCtrl_apart c).2.2.1, ht]
    rfl
  obtain ⟨hctxs, htags, htiles, hcounters, hstores, hwipes, -⟩ := he ▸ protNoted_fields s.begin c 3
  obtain ⟨hprot₀, hpipe₀⟩ := prot_of_ctxs (d := s.begin) (e := e) hctxs c
  obtain ⟨f, hf⟩ : ∃ f : Dev, f = e.protBegun c (fun p => { p with cmd := some (3, t), todo := l, peers := [], peerRetain := none, applyGrad := [] }) := ⟨_, rfl⟩
  obtain ⟨hprot, hcounters₁, htiles₁, hstores₁, hwipes₁, htags₁, hpipe₁, -⟩ := hf ▸ protBegun_reads e c _
  obtain ⟨g, hissued, -⟩ := fabRead_issues f c (f.peerTable s.mem c + 128 + 64 * (t.toNat % 2)) 64 .applyRead c 0 0
  obtain ⟨ts, hissues, hlen⟩ := peerReads_issue s.mem c .applySlots l (f.fabRead c (f.peerTable s.mem c + 128 + 64 * (t.toNat % 2)) 64 .applyRead c 0 0)
  have hall := hissued.trans hissues
  obtain ⟨-, hcounters₂, htiles₂, hctxs₂, hstores₂, hwipes₂, -⟩ := hall.fields
  obtain ⟨z, hz⟩ : ∃ z : Dev, z = (f.fabRead c (f.peerTable s.mem c + 128 + 64 * (t.toNat % 2)) 64 .applyRead c 0 0).each l
    (fun d i => d.peerRead s.mem c i .applySlots) := ⟨_, rfl⟩
  rw [← hz] at hall hcounters₂ htiles₂ hctxs₂ hstores₂ hwipes₂
  obtain ⟨hprot₂, hpipe₂⟩ := prot_of_ctxs hctxs₂ c
  have htags₂ : z.tags.length = s.dev.tags.length + 1 + l.length := by
    rw [hall.tags, List.length_append, List.length_append, hlen, htags₁, htags, List.length_singleton, Nat.add_assoc]
    rfl
  rw [← ht]
  refine ends_of_protHeard rfl h (by decide)
    (d := z) (fun e' he' haccepts => ?_)
    ⟨congrArg Prot.todo (hprot₂.trans hprot), congrArg Prot.cmd (hprot₂.trans hprot), congrArg Prot.result (hprot₂.trans hprot), htags₂,
      s.commit_mem _ (hstores₂.trans (hstores₁.trans hstores)) (hwipes₂.trans (hwipes₁.trans hwipes)), htiles₂.trans (htiles₁.trans htiles),
      hcounters₂.trans (hcounters₁.trans hcounters), hpipe₂.trans (hpipe₁.trans hpipe₀)⟩
  rw [← he] at he'
  rw [he', protCommand_apply (he' ▸ haccepts)]
  unfold Dev.applyStart
  have hfilter : (e.entryList s.mem c).filter (fun i => !eMirror (e.entry s.mem c i) && eVstep (e.entry s.mem c i) + 1 == t.toNat) = l := by
    simp only [hsame.entryList, hsame.entry]
    exact (hl.trans (by rw [ht])).symm
  dsimp only
  rw [harg, hfilter, BitVec.ofNat_toNat, BitVec.setWidth_eq, if_neg (by simpa using hne), hz, hf]
  rfl

/-! Refusals (R405). -/

theorem protRefused_of {i : Requester → Fin 64 → Instr} {cmd : Nat} (hexec : ∀ s r c, exec (i r c) s = s.protWrite r c.val (fun d => d.protCmdWord c.val cmd))
    (hcmd : cmd ≠ 0 ∧ cmd < 16) : ProtRefused i cmd := by
  intro s r c hheard hmay hon hrefused
  have hon' : s.begin.protOn c = true := hon
  obtain ⟨e, he⟩ : ∃ e, e = s.begin.protNoted c cmd := ⟨_, rfl⟩
  obtain ⟨hctxs, htags, htiles, hcounters, hstores, hwipes, -⟩ := he ▸ protNoted_fields s.begin c cmd
  obtain ⟨hprot₀, hpipe₀⟩ := prot_of_ctxs (d := s.begin) (e := e) hctxs c
  obtain ⟨hprot, hcounters', htiles', hstores', hwipes', htags', hpipe, -, -, hresult⟩ := setResult_reads e c resREFUSED
  refine ends_of_heard (perm := fun d => d.mayWriteCtx r c) (d := e.setResult c resREFUSED) (st := stOK) (hexec s r c) hheard hmay ?_
    ⟨hprot.trans (by rw [hprot₀]; rfl), hresult, hpipe.trans hpipe₀, s.commit_mem _ (hstores'.trans hstores) (hwipes'.trans hwipes), htiles'.trans htiles,
      hcounters'.trans hcounters, htags'.trans htags⟩
  dsimp only
  rw [protCtrlWrite_command hon' hcmd.2, protCommand_refused hcmd.1 ((protAccepts_protNoted hon' s.mem cmd cmd).trans hrefused), he]

end Sys2Proof.Machine
end

section
/-! SECURE and ENABLE of a protection table that fails (R383, R389). -/

namespace Sys2Proof.Machine

open Sys2Proof.Claims (Ends Heard ProtHeard)

theorem protCmd_none {d : Dev} {c : Nat} (h : (d.ctx c).prot.cmd = none) : d.protCmd c = 0 := by
  unfold Dev.protCmd
  rw [h]

theorem protCmd_some {d : Dev} {c k : Nat} {a : BitVec 32} (h : (d.ctx c).prot.cmd = some (k, a)) : d.protCmd c = k := by
  unfold Dev.protCmd
  rw [h]

/-- A SECURE that has been noted. -/
def Dev.secureNoted (d : Dev) (c : Nat) : Dev :=
  d.updProt c (fun p => { p with cmd := some (1, 0), flushed := false, todo := [], reread := [] })

theorem secureNoted_reads (d : Dev) (c : Nat) : ((d.secureNoted c).ctx c).prot = { (d.ctx c).prot with cmd := some (1, 0), flushed := false, todo := [], reread := [] } ∧
    (d.secureNoted c).regs = d.regs ∧ (d.secureNoted c).counters = d.counters ∧ (d.secureNoted c).tiles = d.tiles ∧
    (d.secureNoted c).stores = d.stores ∧ (d.secureNoted c).wipes = d.wipes ∧ (d.secureNoted c).tags = d.tags ∧
    ((d.secureNoted c).ctx c).log = (d.ctx c).log := by
  obtain ⟨hprot, hregs, hcounters, htiles, hstores, hwipes, htags, -, hlog, -⟩ :=
    updProt_reads d c (fun p => { p with cmd := some (1, 0), flushed := false, todo := [], reread := [] })
  exact ⟨hprot, hregs, hcounters, htiles, hstores, hwipes, htags, hlog⟩

theorem sameTable_of_regs {c : Nat} {d e : Dev} (hregs : e.regs = d.regs) (hstores : e.stores = d.stores) (hwipes : e.wipes = d.wipes) : SameTable c d e :=
  ⟨hstores, hwipes, by rw [Dev.reg64, Dev.reg, Dev.reg, hregs]; rfl⟩

theorem SameTable.trans {c : Nat} {d e f : Dev} (h : SameTable c d e) (h' : SameTable c e f) : SameTable c d f :=
  ⟨h'.stores.trans h.stores, h'.wipes.trans h.wipes, h'.base.trans h.base⟩

/-- Whether a flush has ended depends on the log, the slot copies and the entries. -/
theorem SameTable.flushEnded {c : Nat} {d e : Dev} (h : SameTable c d e) (hshipped : (e.ctx c).log.shipped = (d.ctx c).log.shipped)
    (hprod : e.reg (Reg.ctxLogProd c) = d.reg (Reg.ctxLogProd c)) (hcopies : (e.ctx c).prot.slotCopies = (d.ctx c).prot.slotCopies) (m : Mem) :
    e.flushEnded m c = d.flushEnded m c := by
  unfold Dev.flushEnded
  simp only [hshipped, hprod, hcopies, h.entryList, h.flag]

/-- SECURE as it starts, with the flush as the state before shows it. -/
theorem secureStart_begun {d e : Dev} {m : Mem} {c : Nat} (he : e = d.protNoted c 1) (hidle : (d.ctx c).prot.cmd = none) :
    e.secureStart m c = if d.flushEnded m c then
      (((e.secureNoted c).updProt c (fun p => { p with flushed := true, todo := d.entryList m c })).each (d.entryList m c)
        (fun d i => d.peerRead m c i .secureRead)).secureEnds m c else e.secureNoted c := by
  have hcmd : (e.ctx c).prot.cmd = none := by rw [he]; exact hidle
  obtain ⟨hprot, hregs, -, -, hstores, hwipes, -, hlog⟩ := secureNoted_reads e c
  have hsame : SameTable c d (e.secureNoted c) := (he ▸ sameTable_protNoted d c 1).trans (sameTable_of_regs hregs hstores hwipes)
  have hflush : (e.secureNoted c).flushEnded m c = d.flushEnded m c := by
    refine hsame.flushEnded (by rw [hlog, he]; rfl) ?_ (by rw [hprot, he]; rfl) m
    rw [Dev.reg, hregs, he]
    exact reg_protNoted d c 1 (ctxProtCtrl_apart c).2.2.2.1
  unfold Dev.secureStart
  rw [protCmd_none hcmd, if_neg (by decide)]
  show (e.secureNoted c).secureAdvance m c = _
  unfold Dev.secureAdvance
  rw [protCmd_some (congrArg Prot.cmd hprot), congrArg Prot.flushed hprot, hflush, hsame.entryList]
  cases d.flushEnded m c <;> rfl

theorem secure_waits (s : State) (r : Requester) (c : Fin 64) (h : ProtHeard s r c 1) (hflush : s.begin.flushEnded s.mem c = false) :
    Ends (.secure r c) s (fun u => (u.dev.ctx c).prot = { (s.dev.ctx c).prot with cmd := some (1, 0), flushed := false, todo := [], reread := [] } ∧
      u.mem = s.mem ∧ u.dev.tags = s.dev.tags ∧ u.dev.tiles = s.dev.tiles ∧ u.dev.counters = s.dev.counters) := by
  obtain ⟨e, he⟩ : ∃ e, e = s.begin.protNoted c 1 := ⟨_, rfl⟩
  obtain ⟨hctxs, htags, htiles, hcounters, hstores, hwipes, -⟩ := he ▸ protNoted_fields s.begin c 1
  obtain ⟨hprot, -, hcounters', htiles', hstores', hwipes', htags', -⟩ := secureNoted_reads e c
  refine ends_of_protHeard rfl h (by decide) (d := e.secureNoted c) (fun e' he' haccepts => ?_)
    ⟨hprot.trans (by rw [(prot_of_ctxs (d := s.begin) hctxs c).1]; rfl), s.commit_mem _ (hstores'.trans hstores) (hwipes'.trans hwipes),
      htags'.trans htags, htiles'.trans htiles, hcounters'.trans hcounters⟩
  rw [← he] at he'
  rw [he', protCommand_secure (he' ▸ haccepts), secureStart_begun he (protOn_of_accepts h.2.2).2, hflush, if_neg Bool.false_ne_true]

/-- What SECURE leaves when it has asked for every counterpart. -/
theorem secureEnds_reads {d : Dev} {m : Mem} {c : Nat} {l : List Nat} (htodo : (d.ctx c).prot.todo = l) (hentries : d.entryList m c = l)
    (hcmd : (d.ctx c).prot.cmd = some (1, 0)) (hflushed : (d.ctx c).prot.flushed = true) (hstores : d.stores = []) (hwipes : d.wipes = []) :
    (l = [] → ((d.secureEnds m c).ctx c).prot.cmd = none ∧ ((d.secureEnds m c).ctx c).prot.result = 0) ∧
      (l ≠ [] → ((d.secureEnds m c).ctx c).prot.cmd = some (1, 0) ∧ ((d.secureEnds m c).ctx c).prot.flushed = true) ∧
      ((d.secureEnds m c).ctx c).prot.todo = l ∧ (d.secureEnds m c).tags = d.tags ∧ (d.secureEnds m c).stores = [] ∧ (d.secureEnds m c).wipes = [] ∧
      (d.secureEnds m c).tiles = d.tiles ∧ (d.secureEnds m c).counters = d.counters := by
  cases l with
  | nil =>
    obtain ⟨hprot, hcounters, htiles, hstores', hwipes', htags, -⟩ := setResult_reads d c resOK
    obtain ⟨hprot', -, hcounters', htiles', hstores'', hwipes'', htags', -⟩ := endCmd_reads (d.setResult c resOK) c
    have hends : d.secureEnds m c = (d.setResult c resOK).endCmd c := by
      unfold Dev.secureEnds
      rw [if_neg (by rw [htodo]; decide), hentries]
      rfl
    rw [hends]
    exact ⟨fun _ => ⟨by rw [hprot'], by rw [hprot', hprot]; rfl⟩, fun h => absurd rfl h, by rw [hprot'], htags'.trans htags,
      hstores''.trans (hstores'.trans hstores), hwipes''.trans (hwipes'.trans hwipes), htiles'.trans htiles, hcounters'.trans hcounters⟩
  | cons i l =>
    have hends : d.secureEnds m c = d := by
      unfold Dev.secureEnds
      rw [if_pos (by rw [htodo]; rfl)]
    rw [hends]
    exact ⟨fun h => absurd h (List.cons_ne_nil i l), fun _ => ⟨hcmd, hflushed⟩, htodo, rfl, hstores, hwipes, rfl, rfl⟩

theorem secure_reads (s : State) (r : Requester) (c : Fin 64) (h : ProtHeard s r c 1) (hflush : s.begin.flushEnded s.mem c = true) :
    Ends (.secure r c) s (fun u => (s.begin.entryList s.mem c = [] → (u.dev.ctx c).prot.cmd = none ∧ (u.dev.ctx c).prot.result = 0) ∧
      (s.begin.entryList s.mem c ≠ [] → (u.dev.ctx c).prot.cmd = some (1, 0) ∧ (u.dev.ctx c).prot.flushed = true) ∧
      (u.dev.ctx c).prot.todo = s.begin.entryList s.mem c ∧ u.dev.tags.length = s.dev.tags.length + (s.begin.entryList s.mem c).length ∧
      u.mem = s.mem ∧ u.dev.tiles = s.dev.tiles ∧ u.dev.counters = s.dev.counters) := by
  obtain ⟨e, he⟩ : ∃ e, e = s.begin.protNoted c 1 := ⟨_, rfl⟩
  obtain ⟨l, hl⟩ : ∃ l, l = s.begin.entryList s.mem c := ⟨_, rfl⟩
  obtain ⟨hctxs, htags, htiles, hcounters, hstores, hwipes, -⟩ := he ▸ protNoted_fields s.begin c 1
  obtain ⟨hprot₁, hregs₁, hcounters₁, htiles₁, hstores₁, hwipes₁, htags₁, -⟩ := secureNoted_reads e c
  obtain ⟨f, hf⟩ : ∃ f, f = (e.secureNoted c).updProt c (fun p => { p with flushed := true, todo := l }) := ⟨_, rfl⟩
  obtain ⟨hprot₂, hregs₂, hcounters₂, htiles₂, hstores₂, hwipes₂, htags₂, -⟩ :=
    hf ▸ updProt_reads (e.secureNoted c) c (fun p => { p with flushed := true, todo := l })
  obtain ⟨ts, hissues, hlen⟩ := peerReads_issue s.mem c .secureRead l f
  obtain ⟨g, hg⟩ : ∃ g : Dev, g = f.each l (fun d i => d.peerRead s.mem c i .secureRead) := ⟨_, rfl⟩
  rw [← hg] at hissues
  obtain ⟨hregs₃, hcounters₃, htiles₃, hctxs₃, hstores₃, hwipes₃, -⟩ := hissues.fields
  have hprot : (g.ctx c).prot = { (e.ctx c).prot with cmd := some (1, 0), flushed := true, todo := l, reread := [] } := by
    rw [(prot_of_ctxs hctxs₃ c).1, hprot₂, hprot₁]
  have hgstores : g.stores = [] := hstores₃.trans (hstores₂.trans (hstores₁.trans hstores))
  have hgwipes : g.wipes = [] := hwipes₃.trans (hwipes₂.trans (hwipes₁.trans hwipes))
  have hsame : SameTable c s.begin g := (he ▸ sameTable_protNoted s.begin c 1).trans
    (sameTable_of_regs (hregs₃.trans (hregs₂.trans hregs₁)) (hgstores.trans hstores.symm) (hgwipes.trans hwipes.symm))
  have hgtags : g.tags.length = s.dev.tags.length + l.length := by
    rw [hissues.tags, List.length_append, hlen, htags₂, htags₁, htags]
    rfl
  obtain ⟨z, hz⟩ : ∃ z, z = g.secureEnds s.mem c := ⟨_, rfl⟩
  obtain ⟨hnil, hcons, htodo, htags₄, hstores₄, hwipes₄, htiles₄, hcounters₄⟩ :=
    hz ▸ secureEnds_reads (congrArg Prot.todo hprot) ((hsame.entryList s.mem).trans hl.symm) (congrArg Prot.cmd hprot) (congrArg Prot.flushed hprot) hgstores hgwipes
  rw [← hl]
  refine ends_of_protHeard rfl h (by decide) (d := z) (fun e' he' haccepts => ?_)
    ⟨hnil, hcons, htodo, (congrArg List.length htags₄).trans hgtags, s.commit_mem _ hstores₄ hwipes₄,
      htiles₄.trans (htiles₃.trans (htiles₂.trans (htiles₁.trans htiles))), hcounters₄.trans (hcounters₃.trans (hcounters₂.trans (hcounters₁.trans hcounters)))⟩
  rw [← he] at he'
  rw [he', protCommand_secure (he' ▸ haccepts), secureStart_begun he (protOn_of_accepts h.2.2).2, hflush, if_pos rfl, ← hl, hz, hg, hf]

/-! ENABLE (R383). -/

theorem isLocal_protNoted (d : Dev) (c n g : Nat) : (d.protNoted c n).isLocal g = d.isLocal g := by
  have hne : Reg.ctxProtCtrl c ≠ Reg.fabNode := by unfold Reg.ctxProtCtrl ctxWindow Reg.fabNode; omega
  rw [Dev.isLocal, Dev.node, Dev.rf, reg_protNoted d c n hne, Dev.isLocal, Dev.node, Dev.rf]

theorem ownsCovered_protNoted (d : Dev) (m : Mem) (c n : Nat) : (d.protNoted c n).ownsCovered m c = d.ownsCovered m c := by
  have hsame := sameTable_protNoted d c n
  have htensors : (d.protNoted c n).partnerTensors m c = d.partnerTensors m c := rfl
  have hctx : (d.protNoted c n).ctx c = d.ctx c := rfl
  have hshard : ∀ v i, (d.protNoted c n).shardEntry m c v i = d.shardEntry m c v i := fun _ _ => rfl
  have hledger : ∀ x, (d.protNoted c n).ledger m x = d.ledger m x := fun _ => rfl
  have hshards : ∀ v, (d.protNoted c n).shards c v = d.shards c v := fun _ => rfl
  simp only [Dev.ownsCovered, Dev.ownedShards, Dev.localShards, Dev.ownsOf, htensors, hctx, hshard, hledger, hshards, isLocal_protNoted, hsame.entry,
    hsame.entryList, hsame.header]

/-- The table is valid or not as it was before the register took ENABLE. -/
theorem protTableOk_protNoted (d : Dev) (m : Mem) (c n : Nat) : (d.protNoted c n).protTableOk m c = d.protTableOk m c := by
  have hsame := sameTable_protNoted d c n
  have hspan : ∀ a k, (d.protNoted c n).spanOk c a k = d.spanOk c a k := fun _ _ => rfl
  have hctx : (d.protNoted c n).ctx c = d.ctx c := rfl
  simp only [Dev.protTableOk, Dev.protEntries, Dev.upbAddr, Dev.logLocalBytes, Dev.logLocal, Dev.entryOk, hsame.protField, hsame.protBase, hsame.entryList,
    hsame.entry, hsame.header, hsame.mirrorsOf, hspan, hctx, ownsCovered_protNoted] <;> rfl

theorem protCtrlWrite_enables {d : Dev} {c : Nat} (hoff : d.protOn c = false) (hstate : (d.ctx c).pipe.state = .off) (m : Mem) :
    d.protCtrlWrite m c 0x80000000 = (d.protNoted c 0).protStart m c := by
  have hcmd : fb (0x80000000 : BitVec 32) 30 27 = 0 := by decide
  have hbit : (0x80000000 : BitVec 32).getLsbD 31 = true := by decide
  have hnone : ∀ e : Dev, e.protCommand m c 0 = e := fun e => by unfold Dev.protCommand; rw [if_pos rfl]
  unfold Dev.protCtrlWrite
  simp only [hoff, hstate, hcmd, hbit, hnone, beq_self_eq_true, Bool.false_or, Bool.true_or, Bool.and_self, Bool.not_false, if_true]
  rw [← Dev.protNoted]

/-- The end of ENABLE. -/
theorem ends_of_enable {s : State} {r : Requester} {c : Fin 64} {P : State → Prop} {d : Dev} (hheard : Heard s r (Reg.ctxProtCtrl c) 0x80000000)
    (hmay : s.dev.mayWriteCtx r c = true) (hoff : s.dev.protOn c = false) (hstate : (s.dev.ctx c).pipe.state = .off)
    (hd : (s.begin.protNoted c 0).protStart s.mem c = d) (hP : P (s.commit (d.answer r stOK))) : Ends (.protEnable r c) s P := by
  refine ends_of_heard (perm := fun d => d.mayWriteCtx r c) (d := d) (st := stOK) rfl hheard hmay ?_ hP
  dsimp only
  rw [protCtrlWrite_enables (d := s.begin) hoff hstate, hd]

theorem protEnable_fails (s : State) (r : Requester) (c : Fin 64) (hheard : Heard s r (Reg.ctxProtCtrl c) 0x80000000) (hmay : s.dev.mayWriteCtx r c = true)
    (hoff : s.dev.protOn c = false) (hstate : (s.dev.ctx c).pipe.state = .off) (htable : s.begin.protTableOk s.mem c = false) :
    Ends (.protEnable r c) s (fun u => (u.dev.ctx c).prot = { (s.dev.ctx c).prot with fault := true, result := 2 } ∧
      u.dev.rf (Reg.ctxProtStatus c) 23 16 = 2 ∧ u.mem = s.mem ∧ u.dev.tiles = s.dev.tiles ∧ u.dev.counters = s.dev.counters) := by
  obtain ⟨e, he⟩ : ∃ e, e = s.begin.protNoted c 0 := ⟨_, rfl⟩
  obtain ⟨hctxs, htags, htiles, hcounters, hstores, hwipes, -⟩ := he ▸ protNoted_fields s.begin c 0
  obtain ⟨hprot₁, hregs₁, hcounters₁, htiles₁, hstores₁, hwipes₁, -⟩ := updProt_reads e c (fun p => { p with fault := true })
  obtain ⟨f, hf⟩ : ∃ f, f = e.updProt c (fun p => { p with fault := true }) := ⟨_, rfl⟩
  rw [← hf] at hprot₁ hregs₁ hcounters₁ htiles₁ hstores₁ hwipes₁
  obtain ⟨hprot, hcounters₂, htiles₂, hstores₂, hwipes₂, -, -, -, -, hresult⟩ := setResult_reads f c resTABLE
  refine ends_of_enable (d := f.setResult c resTABLE) hheard hmay hoff hstate ?_
    ⟨hprot.trans (by rw [hprot₁, (prot_of_ctxs (d := s.begin) hctxs c).1]; rfl), hresult,
      s.commit_mem _ (hstores₂.trans (hstores₁.trans hstores)) (hwipes₂.trans (hwipes₁.trans hwipes)), htiles₂.trans (htiles₁.trans htiles),
      hcounters₂.trans (hcounters₁.trans hcounters)⟩
  unfold Dev.protStart
  rw [protTableOk_protNoted, htable, ← he, hf]
  rfl

end Sys2Proof.Machine
end

section
/-! What the stage controller's and protection's work leaves as it was: a relation that goes beyond calm steps, for it allows stages to change,
and tiles, registers and counters that are named. -/

namespace Sys2Proof.Machine

/-- What work may touch: bytes of memory, tiles, counters, stages of contexts, and whether registers. -/
structure Area where
  mem : Nat → Prop
  tile : Nat → Prop
  counts : Nat → Prop
  stage : Nat → Nat → Prop
  regs : Prop

/-- A context without what work changes: its event ring, its stages and its log. -/
def Ctx.sansWork (x : Ctx) : Ctx := { x with evt := {}, pipe := { x.pipe with stages := [] }, log := {} }

/-- From `d` to `e` work has been done within `w`. -/
structure Works (w : Area) (d e : Dev) : Prop where
  tiles : (∀ j, ¬ w.tile j) → e.tiles = d.tiles
  tile : ∀ j, ¬ w.tile j → e.tile j = d.tile j
  words : ∀ j, (e.tile j).badWords = (d.tile j).badWords
  bursts : e.badBursts = d.badBursts
  regs : ¬ w.regs → e.regs = d.regs
  count : ∀ k, Steady k → ¬ w.counts k → e.count k = d.count k
  stores : (∀ a, ¬ w.mem a) → e.stores = d.stores
  mem : ∀ m a, ¬ w.mem a → peek m e a = peek m d a
  wipes : e.wipes = d.wipes
  lode : e.lode = d.lode
  ctx : ∀ c, (e.ctx c).sansWork = (d.ctx c).sansWork
  stage : ∀ c v, ¬ w.stage c v → (e.ctx c).stage v = (d.ctx c).stage v

/-- No unit of memory is known to be uncorrectable. -/
structure Clean (d : Dev) : Prop where
  bursts : d.badBursts = []
  words : ∀ j, (d.tile j).badWords = []

section
variable {w : Area} {d e f : Dev}

theorem Works.refl (w : Area) (d : Dev) : Works w d d :=
  ⟨fun _ => rfl, fun _ _ => rfl, fun _ => rfl, rfl, fun _ => rfl, fun _ _ _ => rfl, fun _ => rfl, fun _ _ _ => rfl, rfl, rfl, fun _ => rfl,
    fun _ _ _ => rfl⟩

theorem Works.trans (h : Works w d e) (h' : Works w e f) : Works w d f :=
  ⟨fun ht => (h'.tiles ht).trans (h.tiles ht), fun j hj => (h'.tile j hj).trans (h.tile j hj), fun j => (h'.words j).trans (h.words j),
    h'.bursts.trans h.bursts, fun hr => (h'.regs hr).trans (h.regs hr), fun k hk hc => (h'.count k hk hc).trans (h.count k hk hc),
    fun hs => (h'.stores hs).trans (h.stores hs), fun m a ha => (h'.mem m a ha).trans (h.mem m a ha), h'.wipes.trans h.wipes, h'.lode.trans h.lode,
    fun c => (h'.ctx c).trans (h.ctx c), fun c v hv => (h'.stage c v hv).trans (h.stage c v hv)⟩

theorem Works.clean (h : Works w d e) (hd : Clean d) : Clean e := ⟨h.bursts.trans hd.bursts, fun j => (h.words j).trans (hd.words j)⟩

theorem works_of_calm (h : Calm w.mem d e) : Works w d e := by
  obtain ⟨hregs, htiles, hbursts, -, hwipes, hlode, -⟩ := h.fields
  refine ⟨fun _ => htiles, fun j _ => h.tile j, fun j => by rw [h.tile j], hbursts, fun _ => hregs, fun k hk _ => h.count k hk, h.stores, h.mem, hwipes,
    hlode, fun c => ?_, fun c v _ => ?_⟩
  case refine_2 =>
    exact congrArg (a₁ := (e.ctx c).sansEvents) (a₂ := (d.ctx c).sansEvents) (fun x => x.stage v) (h.ctx c)
  exact congrArg (fun x : Ctx => { x with pipe := { x.pipe with stages := [] }, log := {} }) (h.ctx c)

/-- One step more. -/
theorem Works.step (hd : Clean d) (h : Works w d e) (h' : Clean e → Works w e f) : Works w d f := h.trans (h' (h.clean hd))

theorem Works.next (hd : Clean d) (h : Works w d e) (h' : Works w d e → Clean e → Works w e f) : Works w d f := h.trans (h' h (h.clean hd))

/-- A step that is taken or not. -/
theorem Works.orStep {p : Prop} [Decidable p] (hd : Clean d) (h : Works w d e) (h' : Works w d e → Clean e → Works w e f) :
    Works w d (if p then f else e) := by
  split
  · exact Works.next hd h h'
  · exact h

/-- Work done for each of a list. -/
theorem Works.each {α : Type} {l : List α} {g : Dev → α → Dev} (h : ∀ e, Works w d e → Clean e → ∀ x ∈ l, Works w e (g e x)) (hd : Clean d) :
    Works w d (d.each l g) :=
  Dev.each_invariant (P := Works w d) (fun e x hx he => he.trans (h e he (he.clean hd) x hx)) (Works.refl w d)

theorem sansWork_fields {x y : Ctx} (h : y.sansWork = x.sansWork) : y.prot = x.prot ∧ y.pipe.state = x.pipe.state ∧ y.pipe.table = x.pipe.table ∧
    y.phase = x.phase ∧ y.switch = x.switch ∧ y.changing = x.changing ∧ y.tileMask = x.tileMask :=
  ⟨congrArg (a₁ := y.sansWork) (a₂ := x.sansWork) Ctx.prot h, congrArg (a₁ := y.sansWork) (a₂ := x.sansWork) (fun z => z.pipe.state) h,
    congrArg (a₁ := y.sansWork) (a₂ := x.sansWork) (fun z => z.pipe.table) h, congrArg (a₁ := y.sansWork) (a₂ := x.sansWork) Ctx.phase h,
    congrArg (a₁ := y.sansWork) (a₂ := x.sansWork) Ctx.switch h, congrArg (a₁ := y.sansWork) (a₂ := x.sansWork) Ctx.changing h,
    congrArg (a₁ := y.sansWork) (a₂ := x.sansWork) Ctx.tileMask h⟩

/-! Single steps. -/

theorem works_engineWrite (m : Mem) {c a : Nat} {bs : List Byte} (hd : Clean d) (hc : c < 64) (h : ∀ i, i < bs.length → w.mem (a + i)) :
    Works w d (d.engineWrite m c a bs) :=
  works_of_calm (calm_engineWrite d m hc hd.bursts hd.words h)

theorem works_setCtx (c : Nat) {x : Ctx} (h : x.sansWork = (d.ctx c).sansWork) (hstage : ∀ v, ¬ w.stage c v → x.stage v = (d.ctx c).stage v) :
    Works w d (d.setCtx c x) where
  tiles _ := rfl
  tile _ _ := rfl
  words _ := rfl
  bursts := rfl
  regs _ := rfl
  count _ _ _ := rfl
  stores _ := rfl
  mem _ _ _ := rfl
  wipes := rfl
  lode := rfl
  ctx j := by
    rw [Dev.ctx_setCtx]
    split
    case isTrue hj => rw [h, hj]
    case isFalse => rfl
  stage j v hv := by
    rw [Dev.ctx_setCtx]
    split
    case isTrue hj =>
      subst hj
      exact hstage v hv
    case isFalse => rfl

theorem works_setStage {c v : Nat} (x : Stage) (h : w.stage c v) : Works w d (d.setStage c v x) :=
  works_setCtx c rfl fun u hu => by
    have huv : v ≠ u := fun huv => hu (huv ▸ h)
    exact mget_mset_other _ _ _ huv

theorem works_updStage {c v : Nat} (g : Stage → Stage) (h : w.stage c v) : Works w d (d.updStage c v g) := works_setStage _ h

theorem works_updLog (c : Nat) (g : Log → Log) : Works w d (d.updLog c g) := works_setCtx c rfl fun _ _ => rfl

theorem works_setReg {k : Nat} {v : BitVec 32} (h : w.regs) : Works w d (d.setReg k v) :=
  ⟨fun _ => rfl, fun _ _ => rfl, fun _ => rfl, rfl, fun hr => absurd h hr, fun _ _ _ => rfl, fun _ => rfl, fun _ _ _ => rfl, rfl, rfl, fun _ => rfl,
    fun _ _ _ => rfl⟩

theorem works_bumpN {k n : Nat} (h : w.counts k) : Works w d (d.bumpN k n) where
  tiles _ := rfl
  tile _ _ := rfl
  words _ := rfl
  bursts := rfl
  regs _ := rfl
  count j _ hj := by
    rw [Dev.count_bumpN, if_neg]
    exact fun hjk => hj (hjk ▸ h)
  stores _ := rfl
  mem _ _ _ := rfl
  wipes := rfl
  lode := rfl
  ctx _ := rfl
  stage _ _ _ := rfl

theorem works_bump {k : Nat} (h : w.counts k) : Works w d (d.bump k) := works_bumpN h

theorem works_setTile {t : Nat} {x : Tile} (h : w.tile t) (hwords : x.badWords = (d.tile t).badWords) : Works w d (d.setTile t x) where
  tiles ht := absurd h (ht t)
  tile j hj := by
    rw [Dev.tile_setTile, if_neg]
    exact fun hjt => hj (hjt ▸ h)
  words j := by
    rw [Dev.tile_setTile]
    split
    case isTrue hj => rw [hwords, hj]
    case isFalse => rfl
  bursts := rfl
  regs _ := rfl
  count _ _ _ := rfl
  stores _ := rfl
  mem _ _ _ := rfl
  wipes := rfl
  lode := rfl
  ctx _ := rfl
  stage _ _ _ := rfl

theorem works_pokeN {a : Nat} {bs : List Byte} (h : ∀ i, i < bs.length → w.mem (a + i)) : Works w d (d.pokeN a bs) := works_of_calm (calm_pokeN d h)

theorem scrStore_eq : @Dev.scrStore = fun d m t a bs => (d.store m (scrBase t + a) bs).1 := rfl

theorem scrStore_good (hd : Clean d) (m : Mem) (t a : Nat) (bs : List Byte) : d.scrStore m t a bs = d.pokeN (scrBase t + a) bs := by
  rw [scrStore_eq]
  beta_reduce
  rw [store_good hd.bursts hd.words]

theorem works_scrStore (m : Mem) {t a : Nat} {bs : List Byte} (hd : Clean d) (h : ∀ i, i < bs.length → w.mem (scrBase t + a + i)) :
    Works w d (d.scrStore m t a bs) := by
  rw [scrStore_good hd]
  exact works_pokeN h

theorem calm_issues {r : Nat → Prop} {l : List Tag} (h : Issues d e l) : Calm r d e := by
  rw [h.frame]
  exact .of_stores rfl (fun _ => rfl) (fun _ => rfl) (fun _ _ => rfl) rfl

theorem works_issues {l : List Tag} (h : Issues d e l) : Works w d e := works_of_calm (calm_issues h)

theorem works_fabRead (c g n : Nat) (u : Purpose) (a b x : Nat) : Works w d (d.fabRead c g n u a b x) :=
  let ⟨_, h, _⟩ := fabRead_issues d c g n u a b x
  works_issues h

theorem works_fabWr (c g : Nat) (bs : List Byte) (u : Purpose) (a b x : Nat) : Works w d (d.fabWr c g bs u a b x) :=
  let ⟨_, h, _⟩ := fabRequest_issues d _ (newTag u a b x g) (newTag_serves u a b x g)
  works_issues h

/-- What may touch less has touched no more. -/
theorem Works.mono {w' : Area} (h : Works w d e) (hmem : ∀ a, w.mem a → w'.mem a) (htile : ∀ j, w.tile j → w'.tile j) (hcounts : ∀ k, w.counts k → w'.counts k)
    (hstage : ∀ c v, w.stage c v → w'.stage c v) (hregs : w.regs → w'.regs) : Works w' d e :=
  ⟨fun ht => h.tiles fun j hj => ht j (htile j hj), fun j hj => h.tile j fun hj' => hj (htile j hj'), h.words, h.bursts,
    fun hr => h.regs fun hr' => hr (hregs hr'), fun k hk hc => h.count k hk fun hc' => hc (hcounts k hc'),
    fun hs => h.stores fun a ha => hs a (hmem a ha), fun m a ha => h.mem m a fun ha' => ha (hmem a ha'), h.wipes, h.lode, h.ctx,
    fun c v hv => h.stage c v fun hv' => hv (hstage c v hv')⟩

/-! Entries of the protection table, records and ledgers. -/

/-- A flag set or cleared; those that are counted where they are set need their counters. -/
theorem works_setFlag (m : Mem) {c i k : Nat} {b : Bool} (hd : Clean d) (hc : c < 64) (hmem : ∀ j, j < 2 → w.mem (d.entryAt c i + 48 + j))
    (hcounts : b = true → k = fSTALE ∨ k = fVERIFYFAIL → ∀ j, w.counts j) : Works w d (d.setFlag m c i k b) := by
  have hlen : ∀ v, (toLE 2 v).length = 2 := toLE_length 2
  unfold Dev.setFlag
  extract_lets v d₁ d₂
  split
  · exact .refl w d
  · have h₁ : Works w d d₁ := by
      unfold d₁
      split
      case isTrue h =>
        rw [Bool.and_eq_true, decide_eq_true_eq] at h
        exact works_bump (hcounts h.1 (.inl h.2) _)
      case isFalse => exact .refl w d
    have h₂ : Works w d₁ d₂ := by
      unfold d₂
      split
      case isTrue h =>
        rw [Bool.and_eq_true, decide_eq_true_eq] at h
        exact works_bump (hcounts h.1 (.inr h.2) _)
      case isFalse => exact .refl w d₁
    have hat : d₂.entryAt c i = d.entryAt c i := by
      unfold d₂ d₁
      split <;> split <;> rfl
    have h := h₁.trans h₂
    refine h.trans (works_engineWrite m (h.clean hd) hc fun j hj => ?_)
    rw [hat]
    exact hmem j (hlen _ ▸ hj)

theorem entryAt_of_regs (h : e.regs = d.regs) (c i : Nat) : e.entryAt c i = d.entryAt c i := by
  rw [Dev.entryAt, Dev.protBase, Dev.reg64, Dev.reg, Dev.reg, h]
  rfl

theorem works_setFlags (m : Mem) {c i : Nat} {ks : List Nat} {b : Bool} (hd : Clean d) (hc : c < 64) (hmem : ∀ a, w.mem a)
    (hcounts : ∀ k ∈ ks, b = true → k = fSTALE ∨ k = fVERIFYFAIL → ∀ j, w.counts j) : Works w d (d.setFlags m c i ks b) :=
  Works.each (fun _ _ he k hk => works_setFlag m he hc (fun _ _ => hmem _) (hcounts k hk)) hd

theorem works_newVstep (m : Mem) {c i t : Nat} (hd : Clean d) (hc : c < 64) (hmem : ∀ a, w.mem a) : Works w d (d.newVstep m c i t) := by
  have h : Works w d (d.setEntry m c i 52 t) := works_engineWrite m hd hc fun _ _ => hmem _
  exact h.trans (works_setFlag m (h.clean hd) hc (fun _ _ => hmem _) (fun _ hk => absurd hk (by decide)))

theorem works_putLedger (m : Mem) {c x y : Nat} (hd : Clean d) (hc : c < 64) (hmem : ∀ a, w.mem a) : Works w d (d.putLedger m c x y) :=
  works_engineWrite m hd hc fun _ _ => hmem _

theorem works_finishRecord (m : Mem) {c r t sum : Nat} {flip : Bool} (hd : Clean d) (hc : c < 64) (hmem : ∀ a, w.mem a) :
    Works w d (d.finishRecord m c r t sum flip) :=
  works_engineWrite m hd hc fun _ _ => hmem _

theorem works_finishLedger (m : Mem) {c x t sum : Nat} (hd : Clean d) (hc : c < 64) (hmem : ∀ a, w.mem a) : Works w d (d.finishLedger m c x t sum) :=
  works_putLedger m hd hc hmem

theorem works_retireVersion (m : Mem) {c v : Nat} (hd : Clean d) (hc : c < 64) (hmem : ∀ a, w.mem a) (hstage : w.stage c v) : Works w d (d.retireVersion m c v) := by
  have h : Works w d (d.updStage c v (fun s => { s with prevLive := false, retireNow := false })) := works_updStage _ hstage
  refine h.trans (Works.each (fun e _ he i _ => ?_) (h.clean hd))
  dsimp only
  split
  · exact works_putLedger m he hc hmem
  · exact .refl w e

theorem works_retireDue (m : Mem) {c v : Nat} (hd : Clean d) (hc : c < 64) (hmem : ∀ a, w.mem a) (hstage : w.stage c v) : Works w d (d.retireDue m c v) := by
  unfold Dev.retireDue
  dsimp only
  split
  · exact works_retireVersion m hd hc hmem hstage
  · exact .refl w d

theorem works_stepVersion (m : Mem) {c v : Nat} {t : BitVec 32} (hd : Clean d) (hc : c < 64) (hmem : ∀ a, w.mem a) (hstage : w.stage c v)
    (hregs : w.regs) (hcount : w.counts (Reg.ctxPipeUpdates c v)) : Works w d (d.stepVersion m c v t) := by
  unfold Dev.stepVersion
  extract_lets d₁ x d₂
  have h : Works w d (d₂.bump (Reg.ctxPipeUpdates c v)) :=
    (((works_updStage _ hstage).trans (works_setReg hregs)).trans (works_setReg hregs)).trans (works_bump hcount)
  exact h.trans (works_retireDue m (h.clean hd) hc hmem hstage)

end

end Sys2Proof.Machine
end

section
/-! RESTORE, PROMOTE and ENABLE of a valid table (R383, R398, R400). -/

namespace Sys2Proof.Machine

open Sys2Proof.Claims (Ends Heard ProtHeard NoBad)

/-- The area of work that may touch all but tiles. -/
def Area.butTiles : Area := ⟨fun _ => True, fun _ => False, fun _ => True, fun _ _ => True, True⟩

theorem clean_begin {s : State} (h : NoBad s) : Clean s.begin := ⟨h.1, h.2⟩

theorem works_completeWritten (m : Mem) {c : Nat} (hc : c < 64) (v : Nat) {d : Dev} (hd : Clean d) : Works .butTiles d (d.completeWritten m c v) := by
  have hmem : ∀ a, Area.butTiles.mem a := fun _ => trivial
  have hcounts : ∀ j, Area.butTiles.counts j := fun _ => trivial
  unfold Dev.completeWritten
  dsimp only
  split
  · exact .refl _ d
  · refine Works.step hd (Works.step hd (Works.each (fun e _ he k _ => ?_) hd) fun he => Works.each (fun f _ hf i _ => ?_) he)
      fun he => works_stepVersion m he hc hmem trivial trivial (hcounts _)
    · split
      · exact .refl _ e
      · exact Works.step he (works_finishRecord m he hc hmem) fun hf => works_finishLedger m hf hc hmem
    · exact Works.step hf (works_newVstep m hf hc hmem) fun hg => works_setFlags m hg hc hmem fun _ _ _ _ => hcounts

theorem restore_ends (s : State) (r : Requester) (c : Fin 64) (l : List Nat) (h : ProtHeard s r c 2)
    (hl : l = (s.begin.entryList s.mem c).filter (fun i => s.begin.flag s.mem c i fTORN && !eMirror (s.begin.entry s.mem c i))) (hgood : NoBad s) :
    Ends (.restore r c) s (fun u => (u.dev.ctx c).prot.todo = l ∧ (u.dev.ctx c).prot.result = 0 ∧ (l ≠ [] → (u.dev.ctx c).prot.cmd = some (2, 0)) ∧
      (l = [] → (u.dev.ctx c).prot.cmd = none) ∧ (u.dev.ctx c).pipe.state = (s.dev.ctx c).pipe.state ∧ u.dev.tiles = s.dev.tiles) := by
  obtain ⟨e, he⟩ : ∃ e, e = s.begin.protNoted c 2 := ⟨_, rfl⟩
  have hsame : SameTable c s.begin e := he ▸ sameTable_protNoted _ _ _
  obtain ⟨hctxs, -, htiles, -⟩ := he ▸ protNoted_fields s.begin c 2
  have hclean : Clean e := he ▸ ⟨(clean_begin hgood).bursts, (clean_begin hgood).words⟩
  obtain ⟨f, hf⟩ : ∃ f, f = e.protBegun c (fun p => { p with cmd := some (2, 0), todo := l }) := ⟨_, rfl⟩
  obtain ⟨hprot₁, -, htiles₁, -, -, -, hpipe₁, -⟩ := hf ▸ protBegun_reads e c (fun p => { p with cmd := some (2, 0), todo := l })
  have hclean₁ : Clean f := by
    refine ⟨?_, fun j => ?_⟩
    · rw [hf]; exact hclean.bursts
    · rw [Dev.tile, htiles₁]; exact hclean.words j
  obtain ⟨g, hg⟩ : ∃ g, g = (f.each (f.ctx c).stageList (fun d v => d.completeWritten s.mem c v)).each l (fun d i => d.peerRead s.mem c i .restoreRead) := ⟨_, rfl⟩
  have hworks : Works .butTiles f g := by
    rw [hg]
    exact Works.step hclean₁ (Works.each (fun x _ hx v _ => works_completeWritten s.mem c.isLt v hx) hclean₁) fun hx =>
      Works.each (fun y _ _ i _ => works_fabRead _ _ _ _ _ _ _) hx
  obtain ⟨hprot₂, hstate₂, -⟩ := sansWork_fields (hworks.ctx c)
  have hprot : (g.ctx c).prot = { (e.ctx c).prot with result := 0, cmd := some (2, 0), todo := l } := hprot₂.trans hprot₁
  have hstate : (g.ctx c).pipe.state = (s.dev.ctx c).pipe.state :=
    hstate₂.trans ((congrArg Pipe.state hpipe₁).trans (congrArg Pipe.state (prot_of_ctxs (d := s.begin) hctxs c).2))
  have hgtiles : g.tiles = s.dev.tiles := (hworks.tiles fun _ h => h).trans (htiles₁.trans htiles)
  have heffect : ∀ e', e' = s.begin.protNoted c 2 → e'.protAccepts s.mem c 2 = true → e'.protCommand s.mem c 2 = g.restoreEnds c := fun e' he' haccepts => by
    rw [← he] at he'
    have hfilter : (e.entryList s.mem c).filter (fun i => e.flag s.mem c i fTORN && !eMirror (e.entry s.mem c i)) = l := by
      simp only [hsame.entryList, hsame.entry, hsame.flag]
      exact hl.symm
    rw [he', protCommand_restore (he' ▸ haccepts)]
    unfold Dev.restoreStart
    dsimp only
    rw [hfilter, hg, hf]
    rfl
  cases l with
  | nil =>
    obtain ⟨hend, -, -, htiles₃, -, -, -, hpipe₃⟩ := endCmd_reads g c
    have hends : g.restoreEnds c = g.endCmd c := by rw [Dev.restoreEnds, hprot]; rfl
    rw [hends] at heffect
    exact ends_of_protHeard rfl h (by decide) heffect ⟨by rw [Dev.ctx_commit]; exact congrArg Prot.todo hend, (congrArg Prot.result hend).trans (congrArg Prot.result hprot),
      fun h => absurd rfl h, fun _ => congrArg Prot.cmd hend, (congrArg Pipe.state hpipe₃).trans hstate, htiles₃.trans hgtiles⟩
  | cons i l =>
    have hends : g.restoreEnds c = g := by rw [Dev.restoreEnds, hprot]; rfl
    rw [hends] at heffect
    exact ends_of_protHeard rfl h (by decide) heffect ⟨congrArg Prot.todo hprot, congrArg Prot.result hprot, fun _ => congrArg Prot.cmd hprot,
      fun h => absurd h (List.cons_ne_nil i l), hstate, hgtiles⟩

/-! ENABLE of a valid table. -/

/-- The bytes of a table's entries. -/
def entryBytes (b n a : Nat) : Prop := b + 256 ≤ a ∧ a < b + 256 + 128 * n

/-- Entries as ENABLE leaves them are written within their bytes alone. -/
theorem calm_enableEntry (m : Mem) {c i n : Nat} (hc : c < 64) {d : Dev} (hd : Clean d) (hi : i < n) (k : Nat) :
    Calm (entryBytes (d.protBase c) n) d ((d.setEntry m c i 52 k).engineWrite m c (d.entryAt c i + 48) (toLE 2 0)) := by
  have hwithin : ∀ off size, off + size ≤ 128 → ∀ j, j < size → entryBytes (d.protBase c) n (d.entryAt c i + off + j) := fun off size hoff j hj => by
    rw [Dev.entryAt]
    exact ⟨by omega, by omega⟩
  have hfirst : Calm (entryBytes (d.protBase c) n) d (d.setEntry m c i 52 k) :=
    calm_engineWrite d m hc hd.bursts hd.words fun j hj => hwithin 52 4 (by decide) j (toLE_length 4 _ ▸ hj)
  refine hfirst.trans (calm_engineWrite _ m hc (hfirst.fields.2.2.1.trans hd.bursts) (fun t => by rw [hfirst.tile t]; exact hd.words t) fun j hj => ?_)
  exact hwithin 48 2 (by decide) j (toLE_length 2 _ ▸ hj)

theorem protEnable_ends (s : State) (r : Requester) (c : Fin 64) (hheard : Heard s r (Reg.ctxProtCtrl c) 0x80000000) (hmay : s.dev.mayWriteCtx r c = true)
    (hoff : s.dev.protOn c = false) (hstate : (s.dev.ctx c).pipe.state = .off) (htable : s.begin.protTableOk s.mem c = true)
    (hremote : s.begin.logRemote s.mem c = 0) (hgood : NoBad s) :
    Ends (.protEnable r c) s (fun u => u.dev.protOn c = true ∧ (u.dev.ctx c).prot = { (s.dev.ctx c).prot with fault := false } ∧
      (∀ a, (a < s.dev.entryAt c 0 ∨ s.dev.entryAt c (s.begin.protEntries s.mem c) ≤ a) → u.read a = s.read a) ∧
      u.dev.tiles = s.dev.tiles ∧ (u.dev.ctx c).pipe = (s.dev.ctx c).pipe) := by
  obtain ⟨e, he⟩ : ∃ e, e = s.begin.protNoted c 0 := ⟨_, rfl⟩
  have hsame : SameTable c s.begin e := he ▸ sameTable_protNoted _ _ _
  have hon : e.protOn c = true := he ▸ protOn_protNoted s.begin c 0
  obtain ⟨hctxs, -, htiles, -, hstores, hwipes, -⟩ := he ▸ protNoted_fields s.begin c 0
  obtain ⟨f, hf⟩ : ∃ f, f = e.updProt c (fun p => { p with fault := false }) := ⟨_, rfl⟩
  obtain ⟨hprot₁, hregs₁, -, htiles₁, hstores₁, hwipes₁, -, hpipe₁, -⟩ := hf ▸ updProt_reads e c (fun p => { p with fault := false })
  have hsame₁ : SameTable c s.begin f := hsame.trans (sameTable_of_regs hregs₁ hstores₁ hwipes₁)
  have hclean : Clean f := by
    refine ⟨?_, fun j => ?_⟩
    · rw [hf, he]; exact (clean_begin hgood).bursts
    · rw [Dev.tile, htiles₁, htiles]; exact (clean_begin hgood).words j
  obtain ⟨n, hn⟩ : ∃ n, n = s.begin.protEntries s.mem c := ⟨_, rfl⟩
  obtain ⟨g, hg⟩ : ∃ g, g = f.each (f.entryList s.mem c) (fun d i =>
    (d.setEntry s.mem c i 52 (hStep (d.header s.mem (eRec (d.entry s.mem c i))))).engineWrite s.mem c (d.entryAt c i + 48) (toLE 2 0)) := ⟨_, rfl⟩
  have hcalm : Calm (entryBytes (f.protBase c) n) f g := by
    rw [hg]
    refine Dev.each_invariant (P := Calm (entryBytes (f.protBase c) n) f) (fun x i hi hx => ?_) (.refl _ f)
    have hbase : x.protBase c = f.protBase c := by rw [Dev.protBase, Dev.reg64, Dev.reg, Dev.reg, hx.fields.1]; rfl
    have hclean' : Clean x := ⟨hx.fields.2.2.1.trans hclean.bursts, fun t => by rw [hx.tile t]; exact hclean.words t⟩
    have hin : i < n := by
      rw [hsame₁.entryList, Dev.entryList, ← hn, List.mem_range] at hi
      omega
    refine hx.trans ?_
    rw [← hbase]
    exact calm_enableEntry s.mem c.isLt hclean' hin _
  have hbase : f.protBase c = s.dev.protBase c := hsame₁.protBase
  have hremote' : g.logRemote s.mem c = 0 := by
    have hgbase : g.protBase c = f.protBase c := by rw [Dev.protBase, Dev.reg64, Dev.reg, Dev.reg, hcalm.fields.1]; rfl
    have hpeek : peekN s.mem g (f.protBase c + 16) 8 = peekN s.mem f (f.protBase c + 16) 8 := by
      rw [peekN_eq_map, peekN_eq_map]
      refine List.map_congr_left fun j hj => hcalm.mem s.mem _ fun hin => ?_
      have := List.mem_range.mp hj
      obtain ⟨hlow, -⟩ := hin
      omega
    rw [Dev.logRemote, Dev.protField, hgbase, Sys2Proof.Machine.peekLE, hpeek, ← Sys2Proof.Machine.peekLE, ← Dev.protField, hsame₁.protField]
    exact hremote
  have heffect : (s.begin.protNoted c 0).protStart s.mem c = g := by
    unfold Dev.protStart
    rw [protTableOk_protNoted, htable, ← he, ← hf]
    dsimp only
    rw [← hg, hremote']
    rfl
  have hctx := hcalm.ctx c
  obtain ⟨hread, -⟩ := commit_of_calm (s := s) hcalm (hstores₁.trans hstores) (hwipes₁.trans hwipes)
  refine ends_of_enable (d := g) hheard hmay hoff hstate heffect ⟨?_, ?_, fun a ha => hread a fun hin => ?_, ?_, ?_⟩
  · show g.protOn c = true
    rw [Dev.protOn, Dev.rb, Dev.reg, hcalm.fields.1, hregs₁]
    exact hon
  · exact (congrArg (a₁ := (g.ctx c).sansEvents) (a₂ := (f.ctx c).sansEvents) Ctx.prot hctx).trans
      (hprot₁.trans (by rw [(prot_of_ctxs (d := s.begin) hctxs c).1]; rfl))
  · obtain ⟨hlow, hhigh⟩ := hin
    rw [hbase] at hlow hhigh
    rw [Dev.entryAt, Dev.entryAt, ← hn] at ha
    omega
  · exact hcalm.fields.2.1.trans (htiles₁.trans htiles)
  · exact (congrArg (a₁ := (g.ctx c).sansEvents) (a₂ := (f.ctx c).sansEvents) Ctx.pipe hctx).trans
      (hpipe₁.trans (prot_of_ctxs (d := s.begin) hctxs c).2)

end Sys2Proof.Machine
end

section
/-! PROMOTE (R400): the mirrors of every stage become OWN. -/

namespace Sys2Proof.Machine

open Sys2Proof.Claims (Ends ProtHeard EngineReaches)

/-- A device with other stores. -/
def Dev.withStores (d : Dev) (l : List (Nat × Byte)) : Dev := { d with stores := l }

theorem withStores_fields (d : Dev) (l : List (Nat × Byte)) : (d.withStores l).regs = d.regs ∧ (d.withStores l).ctxs = d.ctxs ∧
    (d.withStores l).tiles = d.tiles ∧ (d.withStores l).wipes = d.wipes ∧ (∀ c, (d.withStores l).ctx c = d.ctx c) ∧
    (∀ c i, (d.withStores l).entryAt c i = d.entryAt c i) ∧ (∀ c, (d.withStores l).protBase c = d.protBase c) :=
  ⟨rfl, rfl, rfl, rfl, fun _ => rfl, fun _ _ => rfl, fun _ => rfl⟩

theorem pokeN_withStores (d : Dev) (a : Nat) (bs : List Byte) : d.pokeN a bs = d.withStores (d.pokeN a bs).stores := rfl

/-- Entries of a table at `b` of which none has moved but to OWN. -/
structure Promotes (b n : Nat) (d e : Dev) : Prop where
  frame : e = d.withStores e.stores
  far : ∀ m a, (∀ i, i < n → a ≠ b + 128 * i + 46 ∧ a ≠ b + 128 * i + 48 ∧ a ≠ b + 128 * i + 49) → peek m e a = peek m d a
  own : ∀ m i, i < n → peek m e (b + 128 * i + 46) = peek m d (b + 128 * i + 46) ∨ (peek m e (b + 128 * i + 46)).getLsbD 7 = false

section
variable {b n : Nat} {d e f : Dev}

theorem Promotes.refl (b n : Nat) (d : Dev) : Promotes b n d d := ⟨rfl, fun _ _ _ => rfl, fun _ _ _ => .inl rfl⟩

theorem Promotes.trans (h : Promotes b n d e) (h' : Promotes b n e f) : Promotes b n d f := by
  refine ⟨?_, fun m a ha => (h'.far m a ha).trans (h.far m a ha), fun m i hi => ?_⟩
  · calc f = e.withStores f.stores := h'.frame
      _ = (d.withStores e.stores).withStores f.stores := congrArg (fun x : Dev => x.withStores f.stores) h.frame
      _ = d.withStores f.stores := rfl
  · rcases h'.own m i hi with h₁ | h₁
    · rw [h₁]
      exact h.own m i hi
    · exact .inr h₁

theorem Promotes.keeps (h : Promotes b n d e) (m : Mem) {i : Nat} (hi : i < n) (hown : (peek m d (b + 128 * i + 46)).getLsbD 7 = false) :
    (peek m e (b + 128 * i + 46)).getLsbD 7 = false := by
  rcases h.own m i hi with h | h
  · rw [h]; exact hown
  · exact h

/-- The engines of `c` can write what PROMOTE writes of each entry. -/
def PromoteCan (d : Dev) (c n : Nat) : Prop := ∀ i, i < n → EngineCan d c (d.entryAt c i + 46) 1 ∧ EngineCan d c (d.entryAt c i + 48) 2

theorem EngineCan.withStores {c a k : Nat} (h : EngineCan d c a k) (l : List (Nat × Byte)) : EngineCan (d.withStores l) c a k :=
  ⟨h.some, h.inMem, h.low, h.top, h.up, h.may, h.line, h.bursts, h.words⟩

theorem PromoteCan.promotes {c : Nat} (h : PromoteCan d c n) (hp : Promotes b n d e) : PromoteCan e c n := fun i hi => by
  obtain ⟨h46, h48⟩ := h i hi
  rw [hp.frame]
  exact ⟨h46.withStores _, h48.withStores _⟩

theorem promotes_pokeN {x : Nat} {bs : List Byte} (hfar : ∀ a, x ≤ a → a < x + bs.length → ∃ i, i < n ∧ (a = b + 128 * i + 46 ∨ a = b + 128 * i + 48 ∨ a = b + 128 * i + 49))
    (hown : ∀ i, i < n → x ≤ b + 128 * i + 46 → b + 128 * i + 46 < x + bs.length → (bs.getD (b + 128 * i + 46 - x) 0).getLsbD 7 = false) :
    Promotes b n d (d.pokeN x bs) := by
  refine ⟨pokeN_withStores d x bs, fun m a ha => ?_, fun m i hi => ?_⟩
  · rw [peek_pokeN, if_neg]
    rintro ⟨hlo, hhi⟩
    obtain ⟨i, hi, hat⟩ := hfar a hlo hhi
    obtain ⟨h46, h48, h49⟩ := ha i hi
    rcases hat with h | h | h
    · exact h46 h
    · exact h48 h
    · exact h49 h
  · rw [peek_pokeN]
    split
    case isTrue h => exact .inr (hown i hi h.1 h.2)
    case isFalse => exact .inl rfl

/-! What of an entry decides. -/

theorem peekLE_one (m : Mem) (d : Dev) (a : Nat) : peekLE m d a 1 = (peek m d a).toNat := by
  simp [peekLE, peekN_eq_map, leOf]

theorem eMirror_entry (m : Mem) (d : Dev) (c i : Nat) : eMirror (d.entry m c i) = (peek m d (d.entryAt c i + 46)).getLsbD 7 := by
  rw [eMirror, Dev.entry, pe_peekLE _ _ _ (by decide) (by decide), peekLE_one]
  rfl

theorem eVs_entry (m : Mem) (d : Dev) (c i : Nat) : eVs (d.entry m c i) = (peek m d (d.entryAt c i + 46)).toNat % 8 := by
  rw [eVs, Dev.entry, pe_peekLE _ _ _ (by decide) (by decide), peekLE_one]

theorem eVstep_entry (m : Mem) (d : Dev) (c i : Nat) : eVstep (d.entry m c i) = peekLE m d (d.entryAt c i + 52) 4 := by
  rw [eVstep, Dev.entry, pe_peekLE _ _ _ (by decide) (by decide)]

theorem Promotes.entryAt (h : Promotes b n d e) (c i : Nat) : e.entryAt c i = d.entryAt c i := by
  rw [h.frame]
  exact (withStores_fields d _).2.2.2.2.2.1 c i

/-- Where the entries of a table lie. -/
theorem entryAt_eq (d : Dev) (c i : Nat) : d.entryAt c i = d.entryAt c 0 + 128 * i := by
  rw [Dev.entryAt, Dev.entryAt, Nat.mul_zero, Nat.add_zero]

theorem Promotes.entryList {c : Nat} (h : Promotes (d.entryAt c 0) n d e) (m : Mem) : e.entryList m c = d.entryList m c := by
  have hbase : e.protBase c = d.protBase c := by
    rw [h.frame]
    exact (withStores_fields d _).2.2.2.2.2.2 c
  have hpeek : peekN m e (d.protBase c + 2) 2 = peekN m d (d.protBase c + 2) 2 := by
    rw [peekN_eq_map, peekN_eq_map]
    refine List.map_congr_left fun j hj => h.far m _ fun i _ => ?_
    have := List.mem_range.mp hj
    rw [Dev.entryAt]
    omega
  rw [Dev.entryList, Dev.protEntries, Dev.protField, hbase, peekLE, hpeek, ← peekLE, ← Dev.protField, ← Dev.protEntries, ← Dev.entryList]

theorem Promotes.eVstep {c : Nat} (h : Promotes (d.entryAt c 0) n d e) (m : Mem) (i : Nat) : eVstep (e.entry m c i) = eVstep (d.entry m c i) := by
  rw [eVstep_entry, eVstep_entry, h.entryAt, peekLE, peekLE, peekN_eq_map, peekN_eq_map]
  refine congrArg leOf (List.map_congr_left fun j hj => h.far m _ fun k _ => ?_)
  have := List.mem_range.mp hj
  rw [entryAt_eq d c i]
  omega

/-! One entry, and one stage. -/

theorem bit_cleared (v : Nat) : (BitVec.ofNat 8 (setFld v 7 7 0)).getLsbD 7 = false := by
  have hfld : fld (setFld v 7 7 0) 7 7 = 0 := fld_setFld v 7 7 0
  have htest := congrArg (fun x => x.testBit 0) hfld
  rw [BitVec.getLsbD_ofNat]
  simpa [fld, Nat.testBit_mod_two_pow, Nat.testBit_shiftRight] using htest

theorem toLE_one (v : Nat) : toLE 1 v = [BitVec.ofNat 8 v] := rfl

/-- A flag of an entry set. -/
theorem setFlag_promotes (m : Mem) {c i k : Nat} {v : Bool} (hcan : PromoteCan d c n) (hi : i < n) (hk : k ≠ fSTALE ∧ k ≠ fVERIFYFAIL) :
    Promotes (d.entryAt c 0) n d (d.setFlag m c i k v) := by
  unfold Dev.setFlag
  extract_lets x d₁ d₂
  have hsame : d₂ = d := by
    simp [d₂, d₁, hk.1, hk.2]
  split
  · exact .refl _ n d
  · have hlen : ∀ y, (toLE 2 y).length = 2 := toLE_length 2
    rw [hsame, engineWrite_can (hcan i hi).2 (hlen _), entryAt_eq d c i]
    refine promotes_pokeN (fun a hlo hhi => ⟨i, hi, ?_⟩) (fun j hj hlo hhi => ?_)
    · rw [hlen] at hhi
      omega
    · rw [hlen] at hhi
      omega

/-- MIRROR of an entry cleared, and its flags set (R400). -/
def Dev.promoteEntry (d : Dev) (m : Mem) (c i : Nat) : Dev :=
  (d.engineWrite m c (d.entryAt c i + 46) (toLE 1 (setFld (pe (d.entry m c i) 46 1) 7 7 0))).setFlags m c i [fPROMOTED, fEXPOSED] true

theorem promoteEntry_promotes (m : Mem) {c i : Nat} (hcan : PromoteCan d c n) (hi : i < n) : Promotes (d.entryAt c 0) n d (d.promoteEntry m c i) ∧
    ∀ m', (peek m' (d.promoteEntry m c i) (d.entryAt c i + 46)).getLsbD 7 = false := by
  obtain ⟨v, hv⟩ : ∃ v, v = BitVec.ofNat 8 (setFld (pe (d.entry m c i) 46 1) 7 7 0) := ⟨_, rfl⟩
  have hbit : v.getLsbD 7 = false := hv ▸ bit_cleared _
  obtain ⟨e, he⟩ : ∃ e, e = d.pokeN (d.entryAt c i + 46) [v] := ⟨_, rfl⟩
  have hwrite : d.promoteEntry m c i = (e.setFlag m c i fPROMOTED true).setFlag m c i fEXPOSED true := by
    unfold Dev.promoteEntry
    rw [engineWrite_can (hcan i hi).1 (toLE_length 1 _), toLE_one, ← hv, ← he]
    rfl
  have hfirst : Promotes (d.entryAt c 0) n d e := by
    rw [he, entryAt_eq d c i]
    refine promotes_pokeN (fun a hlo hhi => ⟨i, hi, ?_⟩) (fun j hj hlo hhi => ?_)
    · rw [List.length_singleton] at hhi
      omega
    · rw [List.length_singleton] at hhi
      have hji : j = i := by omega
      rw [hji, Nat.sub_self]
      exact hbit
  have hcan₁ := hcan.promotes hfirst
  have hsecond : Promotes (d.entryAt c 0) n e (e.setFlag m c i fPROMOTED true) := by
    rw [← hfirst.entryAt c 0]
    exact setFlag_promotes m hcan₁ hi (by decide)
  have hcan₂ := hcan₁.promotes hsecond
  have hthird : Promotes (d.entryAt c 0) n (e.setFlag m c i fPROMOTED true) (d.promoteEntry m c i) := by
    rw [hwrite, ← hfirst.entryAt c 0, ← hsecond.entryAt c 0]
    exact setFlag_promotes m hcan₂ hi (by decide)
  refine ⟨hfirst.trans (hsecond.trans hthird), fun m' => ?_⟩
  have hpoke : peek m' e (d.entryAt c 0 + 128 * i + 46) = v := by
    rw [he, entryAt_eq d c i, peek_pokeN, if_pos ⟨by omega, by simp⟩, Nat.sub_self]
    rfl
  rw [entryAt_eq d c i]
  exact (hsecond.trans hthird).keeps m' hi (by rw [hpoke]; exact hbit)

/-- Each entry of a list promoted. -/
theorem promoteEntries_promote (m : Mem) {c : Nat} {l : List Nat} (hl : ∀ i ∈ l, i < n) (hcan : PromoteCan d c n) :
    Promotes (d.entryAt c 0) n d (d.each l (fun d i => d.promoteEntry m c i)) ∧
    ∀ m', ∀ i ∈ l, (peek m' (d.each l (fun d i => d.promoteEntry m c i)) (d.entryAt c i + 46)).getLsbD 7 = false := by
  induction l generalizing d with
  | nil => exact ⟨.refl _ n d, fun _ _ h => absurd h List.not_mem_nil⟩
  | cons i l ih =>
    obtain ⟨hstep, hown⟩ := promoteEntry_promotes m hcan (hl i List.mem_cons_self)
    obtain ⟨hrest, howns⟩ := ih (fun j hj => hl j (List.mem_cons_of_mem i hj)) (hcan.promotes hstep)
    rw [Dev.each_cons]
    rw [hstep.entryAt] at hrest
    refine ⟨hstep.trans hrest, fun m' j hj => ?_⟩
    rcases List.mem_cons.mp hj with rfl | hj
    · have hj := hown m'
      rw [entryAt_eq d c j] at hj ⊢
      exact hrest.keeps m' (hl j List.mem_cons_self) hj
    · have h := howns m' j hj
      rw [hstep.entryAt] at h
      exact h

/-- A stage whose mirrors have all reached `t` has none left. -/
theorem promoteStage_promotes (m : Mem) {c v t : Nat} (h : Promotes (d.entryAt c 0) n d e) (hcan : PromoteCan d c n) (hn : ∀ i ∈ d.entryList m c, i < n)
    (hall : ∀ i ∈ d.mirrorsOf m c v, eVstep (d.entry m c i) = t) :
    Promotes (d.entryAt c 0) n e (e.promoteStage m c v t) ∧
    ∀ i ∈ d.mirrorsOf m c v, (peek m (e.promoteStage m c v t) (d.entryAt c i + 46)).getLsbD 7 = false := by
  have hcan' := hcan.promotes h
  have hmirror : ∀ i ∈ d.mirrorsOf m c v, i ∈ e.mirrorsOf m c v ∨ (peek m e (d.entryAt c i + 46)).getLsbD 7 = false := fun i hi => by
    obtain ⟨hin, hwhat⟩ := List.mem_filter.mp hi
    rw [entryAt_eq d c i]
    rcases h.own m i (hn i hin) with hown | hown
    · refine .inl (List.mem_filter.mpr ⟨h.entryList m ▸ hin, ?_⟩)
      rw [eMirror_entry, eVs_entry, h.entryAt, entryAt_eq d c i, hown, ← entryAt_eq d c i, ← eMirror_entry, ← eVs_entry]
      exact hwhat
    · exact .inr hown
  have hback : ∀ i ∈ e.mirrorsOf m c v, i ∈ d.mirrorsOf m c v := fun i hi => by
    obtain ⟨hin, hwhat⟩ := List.mem_filter.mp hi
    have hin' : i ∈ d.entryList m c := h.entryList m ▸ hin
    refine List.mem_filter.mpr ⟨hin', ?_⟩
    rw [eMirror_entry, eVs_entry, h.entryAt, entryAt_eq d c i] at hwhat
    rw [eMirror_entry, eVs_entry, entryAt_eq d c i]
    rcases h.own m i (hn i hin') with hown | hown
    · rw [← hown]
      exact hwhat
    · rw [hown] at hwhat
      exact absurd hwhat Bool.false_ne_true
  unfold Dev.promoteStage
  dsimp only
  split
  case isTrue hskip =>
    refine ⟨.refl _ n e, fun i hi => ?_⟩
    rcases hmirror i hi with hin | hown
    · exfalso
      have hreached : (e.mirrorsOf m c v).all (fun i => eVstep (e.entry m c i) == t) = true := by
        rw [List.all_eq_true]
        intro j hj
        rw [h.eVstep, beq_iff_eq]
        exact hall j (hback j hj)
      rw [hreached, Bool.not_true, Bool.or_false, List.isEmpty_iff] at hskip
      rw [hskip] at hin
      exact List.not_mem_nil hin
    · exact hown
  case isFalse =>
    obtain ⟨hpromotes, howns⟩ := promoteEntries_promote m (l := e.mirrorsOf m c v) (fun i hi => hn i (List.mem_filter.mp (hback i hi)).1) hcan'
    rw [h.entryAt] at hpromotes
    refine ⟨hpromotes, fun i hi => ?_⟩
    rcases hmirror i hi with hin | hown
    · have hdone := howns m i hin
      rw [h.entryAt] at hdone
      exact hdone
    · rw [entryAt_eq d c i] at hown ⊢
      exact hpromotes.keeps m (hn i (List.mem_filter.mp hi).1) hown

/-- Stages promoted one after another. -/
theorem promoteStages_promote (m : Mem) {c t : Nat} {vs : List Nat} (h : Promotes (d.entryAt c 0) n d e) (hcan : PromoteCan d c n)
    (hn : ∀ i ∈ d.entryList m c, i < n) (hall : ∀ v ∈ vs, ∀ i ∈ d.mirrorsOf m c v, eVstep (d.entry m c i) = t) :
    Promotes (d.entryAt c 0) n e (e.each vs (fun d v => d.promoteStage m c v t)) ∧
    ∀ v ∈ vs, ∀ i ∈ d.mirrorsOf m c v, (peek m (e.each vs (fun d v => d.promoteStage m c v t)) (d.entryAt c i + 46)).getLsbD 7 = false := by
  induction vs generalizing e with
  | nil => exact ⟨.refl _ n e, fun _ h => absurd h List.not_mem_nil⟩
  | cons v vs ih =>
    obtain ⟨hstep, hown⟩ := promoteStage_promotes m h hcan hn (hall v List.mem_cons_self)
    obtain ⟨hrest, howns⟩ := ih (h.trans hstep) (fun u hu => hall u (List.mem_cons_of_mem v hu))
    rw [Dev.each_cons]
    refine ⟨hstep.trans hrest, fun u hu i hi => ?_⟩
    rcases List.mem_cons.mp hu with rfl | hu
    · have hone := hown i hi
      rw [entryAt_eq d c i] at hone ⊢
      exact hrest.keeps m (hn i (List.mem_filter.mp hi).1) hone
    · exact howns u hu i hi

end

end Sys2Proof.Machine
end

section
/-! PROMOTE (R400), and the protection commands together. -/

namespace Sys2Proof.Machine

open Sys2Proof.Claims (Ends ProtHeard EngineReaches)

theorem noneLeft_congr {d e : Dev} {c : Nat} (h : (e.ctx c).pipe = (d.ctx c).pipe) (k : ItemKind) : e.noneLeft c k = d.noneLeft c k := by
  have hvalid : (e.ctx c).validStage = (d.ctx c).validStage := by
    funext v
    rw [Ctx.validStage, Ctx.vsMask, h, Ctx.validStage, Ctx.vsMask]
  simp only [Dev.noneLeft, Ctx.stageList, hvalid, Ctx.stage, h]

theorem EngineCan.protBegun {d : Dev} {c a n : Nat} (h : EngineCan d c a n) (x cmd : Nat) (f : Prot → Prot) :
    EngineCan ((d.protNoted x cmd).protBegun x f) c a n :=
  ⟨h.some, h.inMem, h.low, h.top, h.up, h.may, h.line, h.bursts, h.words⟩

/-- PROMOTE as it starts when every mirror has reached the step it names. -/
theorem promoteStart_reached {d f : Dev} {m : Mem} {c : Nat} {t : BitVec 32} (harg : d.reg (Reg.ctxProtArg c) = t)
    (hf : f = d.protBegun c (fun p => { p with cmd := some (5, t) }))
    (hall : ∀ v, v < 8 → (f.mirrorsOf m c v).all (fun i => eVstep (f.entry m c i) == t.toNat) = true) (hnone : f.noneLeft c .mirror = true) :
    d.promoteStart m c = (f.each (List.range 8) (fun d v => d.promoteStage m c v t.toNat)).endCmd c := by
  have hcmd : (f.ctx c).prot.cmd = some (5, t) := by
    have hprot := (protBegun_reads d c (fun p => { p with cmd := some (5, t) })).1
    rw [← hf] at hprot
    exact congrArg Prot.cmd hprot
  have harg' : f.protArg c = t.toNat := by
    unfold Dev.protArg
    rw [hcmd]
  have hends : f.promoteEnds m c = (f.each (List.range 8) (fun d v => d.promoteStage m c v t.toNat)).endCmd c := by
    unfold Dev.promoteEnds
    rw [protCmd_some hcmd, hnone, if_neg (by decide), harg']
  unfold Dev.promoteStart
  extract_lets t' d₁ d₂
  have hd₁ : d₁ = f := by rw [hf]; unfold d₁ t'; rw [harg]; rfl
  have hd₂ : d₂ = f := by
    refine Dev.each_invariant (P := (· = f)) (fun e v hv he => ?_) hd₁
    dsimp only
    rw [he, if_pos]
    unfold t'
    rw [harg, hall v (List.mem_range.mp hv), Bool.or_true]
  rw [hd₂, hends]

theorem promote_ends (s : State) (r : Requester) (c : Fin 64) (h : ProtHeard s r c 5)
    (hall : ∀ v, v < 8 → (s.begin.mirrorsOf s.mem c v).all (fun i => eVstep (s.begin.entry s.mem c i) == (s.dev.reg (Reg.ctxProtArg c)).toNat) = true)
    (hnone : s.dev.noneLeft c .mirror = true)
    (hreach : ∀ i, i < s.begin.protEntries s.mem c → EngineReaches s c (s.dev.entryAt c i + 46) 1 ∧ EngineReaches s c (s.dev.entryAt c i + 48) 2) :
    Ends (.promote r c) s (fun u => (u.dev.ctx c).prot.cmd = none ∧ (u.dev.ctx c).prot.result = 0 ∧
      (∀ v i, v < 8 → i ∈ s.begin.mirrorsOf s.mem c v → (u.read (s.dev.entryAt c i + 46)).getLsbD 7 = false) ∧
      (∀ a, (a < s.dev.entryAt c 0 ∨ s.dev.entryAt c (s.begin.protEntries s.mem c) ≤ a) → u.read a = s.read a) ∧ u.dev.tiles = s.dev.tiles) := by
  obtain ⟨n, hn⟩ : ∃ n, n = s.begin.protEntries s.mem c := ⟨_, rfl⟩
  obtain ⟨t, ht⟩ : ∃ t, t = s.dev.reg (Reg.ctxProtArg c) := ⟨_, rfl⟩
  obtain ⟨e, he⟩ : ∃ e, e = s.begin.protNoted c 5 := ⟨_, rfl⟩
  have hsame : SameTable c s.begin e := he ▸ sameTable_protNoted _ _ _
  obtain ⟨hctxs, -, htiles, -, hstores, hwipes, -⟩ := he ▸ protNoted_fields s.begin c 5
  obtain ⟨f, hf⟩ : ∃ f, f = e.protBegun c (fun p => { p with cmd := some (5, t) }) := ⟨_, rfl⟩
  obtain ⟨hprot₁, -, htiles₁, hstores₁, hwipes₁, -, hpipe₁, hsame₁⟩ := hf ▸ protBegun_reads e c (fun p => { p with cmd := some (5, t) })
  have hshown : SameTable c s.begin f := hsame.trans hsame₁
  have hcan : PromoteCan f c n := fun i hi => by
    obtain ⟨h46, h48⟩ := hreach i (hn ▸ hi)
    rw [hshown.entryAt, hf, he]
    exact ⟨(engineCan_of h46).protBegun _ _ _, (engineCan_of h48).protBegun _ _ _⟩
  have hlist : ∀ i ∈ f.entryList s.mem c, i < n := fun i hi => by
    rw [hshown.entryList, Dev.entryList, ← hn, List.mem_range] at hi
    omega
  have hreached : ∀ v, v < 8 → (f.mirrorsOf s.mem c v).all (fun i => eVstep (f.entry s.mem c i) == t.toNat) = true := fun v hv => by
    simp only [hshown.mirrorsOf, hshown.entry, ht]
    exact hall v hv
  have hnone' : f.noneLeft c .mirror = true :=
    (noneLeft_congr (hpipe₁.trans (prot_of_ctxs (d := s.begin) hctxs c).2) _).trans hnone
  obtain ⟨g, hg⟩ : ∃ g, g = f.each (List.range 8) (fun d v => d.promoteStage s.mem c v t.toNat) := ⟨_, rfl⟩
  obtain ⟨hpromotes, howns⟩ := hg ▸ promoteStages_promote (vs := List.range 8) (t := t.toNat) s.mem (.refl _ n f) hcan hlist
    (fun v hv i hi => beq_iff_eq.mp (List.all_eq_true.mp (hreached v (List.mem_range.mp hv)) i hi))
  obtain ⟨hend, -, -, htiles₃, hstores₃, hwipes₃, -⟩ := endCmd_reads g c
  obtain ⟨-, hctxs₂, htiles₂, -⟩ := withStores_fields f g.stores
  rw [← hpromotes.frame] at hctxs₂ htiles₂
  have hread : ∀ a, (s.commit ((g.endCmd c).answer r stOK)).read a = peek s.mem g a := fun a => by
    rw [State.read_commit]
    exact peek_congr hstores₃ hwipes₃ s.mem a
  have hbase : f.entryAt c 0 = s.dev.entryAt c 0 := hshown.entryAt 0
  refine ends_of_protHeard rfl h (by decide) (d := g.endCmd c) (fun e' he' haccepts => ?_)
    ⟨congrArg Prot.cmd hend, (congrArg Prot.result hend).trans (congrArg Prot.result ((prot_of_ctxs hctxs₂ c).1.trans hprot₁)), fun v i hv hi => ?_,
      fun a ha => ?_, htiles₃.trans (htiles₂.trans (htiles₁.trans htiles))⟩
  · rw [← he] at he'
    have harg : e.reg (Reg.ctxProtArg c) = t := by
      rw [he, reg_protNoted _ _ _ (ctxProtCtrl_apart c).2.2.1, ht]
      rfl
    rw [he', protCommand_promote (he' ▸ haccepts), promoteStart_reached harg hf hreached hnone', hg]
  · rw [hread]
    have hdone := howns v (List.mem_range.mpr hv) i (by rw [hshown.mirrorsOf]; exact hi)
    rw [hshown.entryAt] at hdone
    exact hdone
  · rw [hread, hpromotes.far s.mem a fun i hi => ?_]
    · exact peek_of_unwritten s (hstores₁.trans hstores) (hwipes₁.trans hwipes) a
    · rw [hbase]
      rw [← hn, entryAt_eq s.dev c n] at ha
      omega

/-- Settles O50, command by command: the register takes the command, then each reads or writes the table's entries as its rule says. -/
theorem protectionCommandsAreTakenOrRefused : Obligations.ProtectionCommandsAreTakenOrRefused :=
  ⟨protEnable_ends, protEnable_fails, secure_waits, secure_reads, restore_ends, apply_ends, protResync_ends, promote_ends,
    fun _ _ _ h => fetchStart_ends rfl (.inl rfl) h, fun _ _ _ h => fetchStart_ends rfl (.inr rfl) h,
    protRefused_of (fun _ _ _ => rfl) (by decide), protRefused_of (fun _ _ _ => rfl) (by decide), protRefused_of (fun _ _ _ => rfl) (by decide),
    protRefused_of (fun _ _ _ => rfl) (by decide), protRefused_of (fun _ _ _ => rfl) (by decide), protRefused_of (fun _ _ _ => rfl) (by decide),
    protRefused_of (fun _ _ _ => rfl) (by decide)⟩

end Sys2Proof.Machine
end

section
/-! Stages and items of the stage controller: what an item that starts leaves (Table 10.7). -/

namespace Sys2Proof.Machine

open Sys2Proof.Claims (NoBad)

/-! Stages. -/

theorem stage_setStage (d : Dev) (c v w : Nat) (x : Stage) : ((d.setStage c v x).ctx c).stage w = if v = w then x else (d.ctx c).stage w := by
  rw [Dev.setStage, Dev.ctx_setCtx_same]
  exact mget_mset _ _ _ _ _

@[simp] theorem stage_setStage_same (d : Dev) (c v : Nat) (x : Stage) : ((d.setStage c v x).ctx c).stage v = x := by rw [stage_setStage, if_pos rfl]

@[simp] theorem stage_updStage_same (d : Dev) (c v : Nat) (g : Stage → Stage) : ((d.updStage c v g).ctx c).stage v = g ((d.ctx c).stage v) :=
  stage_setStage_same d c v _

theorem stage_updStage_other (d : Dev) (c : Nat) {v w : Nat} (g : Stage → Stage) (h : v ≠ w) :
    ((d.updStage c v g).ctx c).stage w = (d.ctx c).stage w := by
  rw [Dev.updStage, stage_setStage, if_neg h]

theorem setStage_fields (d : Dev) (c v : Nat) (x : Stage) : (d.setStage c v x).regs = d.regs ∧ (d.setStage c v x).counters = d.counters ∧
    (d.setStage c v x).tiles = d.tiles ∧ (d.setStage c v x).stores = d.stores ∧ (d.setStage c v x).wipes = d.wipes ∧
    (d.setStage c v x).tags = d.tags ∧ ((d.setStage c v x).ctx c).pipe.state = (d.ctx c).pipe.state ∧
    ((d.setStage c v x).ctx c).pipe.table = (d.ctx c).pipe.table := by
  have h : (d.setStage c v x).ctx c = { d.ctx c with pipe := { (d.ctx c).pipe with stages := mset (d.ctx c).pipe.stages v x } } := Dev.ctx_setCtx_same _ _ _
  rw [h]
  exact ⟨rfl, rfl, rfl, rfl, rfl, rfl, rfl, rfl⟩

/-- A stage with an item of its unit. -/
def Stage.withItem (s : Stage) (i : Item) : Stage :=
  match i.kind.unit with
  | 0 => { s with fwdItem := some i }
  | 1 => { s with bwdItem := some i }
  | _ => { s with updItem := some i }

theorem putItem_eq (d : Dev) (c v : Nat) (i : Item) : d.putItem c v i = d.setStage c v (((d.ctx c).stage v).withItem i) := rfl

theorem withItem_forward (s : Stage) {i : Item} (h : i.kind.unit = 0) : s.withItem i = { s with fwdItem := some i } := by
  unfold Stage.withItem
  rw [h]
  rfl

theorem withItem_backward (s : Stage) {i : Item} (h : i.kind.unit = 1) : s.withItem i = { s with bwdItem := some i } := by
  unfold Stage.withItem
  rw [h]
  rfl

theorem withItem_update (s : Stage) {i : Item} (h : i.kind.unit = 2) : s.withItem i = { s with updItem := some i } := by
  unfold Stage.withItem
  rw [h]
  rfl

theorem unit_lt (k : ItemKind) : k.unit = 0 ∨ k.unit = 1 ∨ k.unit = 2 := by
  cases k <;> decide

theorem withItem_twice (s : Stage) {i j : Item} (h : i.kind.unit = j.kind.unit) : (s.withItem i).withItem j = s.withItem j := by
  rcases unit_lt j.kind with hj | hj | hj
  · rw [withItem_forward _ hj, withItem_forward _ (h.trans hj), withItem_forward _ hj]
  · rw [withItem_backward _ hj, withItem_backward _ (h.trans hj), withItem_backward _ hj]
  · rw [withItem_update _ hj, withItem_update _ (h.trans hj), withItem_update _ hj]

theorem withItem_item (s : Stage) (i : Item) : (s.withItem i).item i.kind.unit = some i := by
  rcases unit_lt i.kind with h | h | h
  · rw [withItem_forward _ h, h]; rfl
  · rw [withItem_backward _ h, h]; rfl
  · rw [withItem_update _ h, h]; rfl

/-! What of a context depends on its stage table. -/

theorem table_reads {x y : Ctx} (h : y.pipe.table = x.pipe.table) : (∀ v u, y.unitMask v u = x.unitMask v u) ∧
    (∀ v n, y.fwdSlotAt v n = x.fwdSlotAt v n) ∧ (∀ v n, y.bwdSlotAt v n = x.bwdSlotAt v n) ∧ (∀ v, y.fwdSlotSize v = x.fwdSlotSize v) ∧
    (∀ v, y.shardCount v = x.shardCount v) ∧ (∀ v, y.shardList v = x.shardList v) ∧ y.validStage = x.validStage ∧ y.stageList = x.stageList ∧
    (∀ v, y.bwdRing v = x.bwdRing v) ∧ (∀ v, y.fwdRing v = x.fwdRing v) ∧ (∀ v, y.isFirst v = x.isFirst v) := by
  have hfield : ∀ v off n, y.stageField v off n = x.stageField v off n := fun v off n => by rw [Ctx.stageField, h, Ctx.stageField]
  have hvalid : y.validStage = x.validStage := by
    funext v
    rw [Ctx.validStage, Ctx.vsMask, h, Ctx.validStage, Ctx.vsMask]
  refine ⟨fun v u => hfield v _ _, fun v n => ?_, fun v n => ?_, fun v => ?_, fun v => hfield v _ _, fun v => ?_, hvalid, ?_, fun v => ?_, fun v => ?_, fun v => ?_⟩
  · simp only [Ctx.fwdSlotAt, Ctx.fwdRing, Ctx.loc, Ctx.fwdSlots, Ctx.fwdSlotSize, Ctx.tagBytes, Ctx.shardCount, Ctx.inBytes, hfield]
  · simp only [Ctx.bwdSlotAt, Ctx.bwdRing, Ctx.loc, Ctx.bwdSlots, Ctx.bwdSlotSize, Ctx.outBytes, hfield]
  · simp only [Ctx.fwdSlotSize, Ctx.tagBytes, Ctx.shardCount, Ctx.inBytes, hfield]
  · simp only [Ctx.shardList, Ctx.loc, hfield]
  · rw [Ctx.stageList, hvalid, Ctx.stageList]
  · simp only [Ctx.bwdRing, Ctx.loc, hfield]
  · simp only [Ctx.fwdRing, Ctx.loc, hfield]
  · simp only [Ctx.isFirst, hfield]

section
variable {w : Area} {d e : Dev}

theorem Works.table (h : Works w d e) (c : Nat) : (e.ctx c).pipe.table = (d.ctx c).pipe.table := (sansWork_fields (h.ctx c)).2.2.1

theorem Works.unitTiles (h : Works w d e) (c v u : Nat) : e.unitTiles c v u = d.unitTiles c v u := by
  rw [Dev.unitTiles, (table_reads (h.table c)).1, Dev.unitTiles]

/-- Calm steps leave the stages. -/
theorem Calm.pipe {r : Nat → Prop} (h : Calm r d e) (c : Nat) : (e.ctx c).pipe = (d.ctx c).pipe :=
  congrArg (a₁ := (e.ctx c).sansEvents) (a₂ := (d.ctx c).sansEvents) Ctx.pipe (h.ctx c)

theorem Calm.stage {r : Nat → Prop} (h : Calm r d e) (c v : Nat) : (e.ctx c).stage v = (d.ctx c).stage v := by
  rw [Ctx.stage, h.pipe, Ctx.stage]

theorem stage_of_ctxs (h : e.ctxs = d.ctxs) (c v : Nat) : (e.ctx c).stage v = (d.ctx c).stage v := by rw [Dev.ctx, h]; rfl

/-! The input of an item. -/

/-- A read of an engine writes nothing. -/
theorem calm_engineRead (r : Nat → Prop) (hd : Clean d) (m : Mem) {c a n : Nat} (hc : c < 64) : Calm r d (d.engineRead m c a n).1 := by
  have hcheck := calm_accessCheck r d hc a n
  unfold Dev.engineRead
  split
  · exact .refl r d
  split
  · exact .refl r d
  dsimp only
  split
  · exact hcheck
  · have hwait : Calm r d ((d.accessCheck c a n).1.cohBlocked a n false).1 := hcheck.trans (calm_cohWait r _ a n false none)
    split
    · exact hwait
    · rw [load_good (hwait.fields.2.2.1.trans hd.bursts) (fun t => (congrArg Tile.badWords (hwait.tile t)).trans (hd.words t))]
      exact hwait

theorem isHbm_scratch (t a : Nat) : isHbm (scrBase t + a) = false := by
  unfold isHbm scrBase
  exact decide_eq_false (by omega)

/-! The tiles of a unit start. -/

/-- A tile takes its work block, the number of its micro-batch and START. -/
def Dev.startTile (d : Dev) (m : Mem) (t a : Nat) (bs : List Byte) (mb : BitVec 16) : Dev :=
  let d := d.scrStore m t a bs
  (d.setTile t { d.tile t with mbId := mb }).setSem t 14 0x108

theorem sem_set (x : BitVec 16) : (x ||| BitVec.ofNat 16 (2 ^ 14)).getLsbD 14 = true := by
  rw [BitVec.getLsbD_or, BitVec.getLsbD_ofNat, Nat.testBit_two_pow_self]
  simp

theorem startTile_eq (hd : Clean d) (m : Mem) (t a : Nat) (bs : List Byte) (mb : BitVec 16) :
    d.startTile m t a bs mb = ((d.pokeN (scrBase t + a) bs).setTile t { d.tile t with mbId := mb }).setSem t 14 0x108 := by
  unfold Dev.startTile
  rw [scrStore_good hd]
  rfl

/-- A started tile of a device, and the device. -/
theorem startTile_reads (hd : Clean d) (m : Mem) (t a : Nat) (bs : List Byte) (mb : BitVec 16) :
    ((d.startTile m t a bs mb).tile t).mbId = mb ∧ ((d.startTile m t a bs mb).tile t).sem 14 = true ∧
    (∀ j, t ≠ j → (d.startTile m t a bs mb).tile j = d.tile j) ∧ (d.startTile m t a bs mb).counters = d.counters ∧
    (d.startTile m t a bs mb).ctxs = d.ctxs ∧ (d.startTile m t a bs mb).regs = d.regs ∧
    ((d.startTile m t a bs mb).tile t).badWords = (d.tile t).badWords := by
  obtain ⟨e, he⟩ : ∃ e, e = (d.pokeN (scrBase t + a) bs).setTile t { d.tile t with mbId := mb } := ⟨_, rfl⟩
  have htile : e.tile t = { d.tile t with mbId := mb } := by rw [he, Dev.tile_setTile_same]
  have hother : ∀ j, t ≠ j → e.tile j = d.tile j := fun j hj => by rw [he, Dev.tile_setTile, if_neg hj]; rfl
  have hfields : e.counters = d.counters ∧ e.ctxs = d.ctxs ∧ e.regs = d.regs := by rw [he]; exact ⟨rfl, rfl, rfl⟩
  rw [startTile_eq hd, ← he, Dev.setSem, Dev.tile_setTile_same, htile]
  exact ⟨rfl, sem_set _, fun j hj => by rw [Dev.tile_setTile, if_neg hj, hother j hj], hfields.1, hfields.2.1, hfields.2.2, rfl⟩

theorem startTile_works (m : Mem) {t a : Nat} {bs : List Byte} {mb : BitVec 16} (hd : Clean d) (hmem : ∀ x, isHbm x = false → w.mem x) (ht : w.tile t) :
    Works w d (d.startTile m t a bs mb) := by
  rw [startTile_eq hd]
  have hpoke : Works w d (d.pokeN (scrBase t + a) bs) := works_pokeN fun i _ => hmem _ (by rw [Nat.add_assoc]; exact isHbm_scratch t _)
  refine (hpoke.trans (works_setTile ht ?_)).trans (works_setTile ht ?_)
  · rfl
  · rw [Dev.tile_setTile_same]

/-- The tiles of a list started one after another. -/
theorem startTiles_read (m : Mem) (a : Nat) (bs : List Byte) (mb : BitVec 16) {l : List Nat} (hd : Clean d) :
    (∀ j ∈ l, ((d.each l (fun d t => d.startTile m t a bs mb)).tile j).mbId = mb ∧ ((d.each l (fun d t => d.startTile m t a bs mb)).tile j).sem 14 = true) ∧
    (∀ j, ¬ j ∈ l → (d.each l (fun d t => d.startTile m t a bs mb)).tile j = d.tile j) ∧
    (d.each l (fun d t => d.startTile m t a bs mb)).counters = d.counters ∧ (d.each l (fun d t => d.startTile m t a bs mb)).ctxs = d.ctxs ∧
    (d.each l (fun d t => d.startTile m t a bs mb)).regs = d.regs := by
  induction l generalizing d with
  | nil => exact ⟨fun j h => absurd h List.not_mem_nil, fun _ _ => rfl, rfl, rfl, rfl⟩
  | cons t l ih =>
    obtain ⟨hmb, hsem, hother, hcounters, hctxs, hregs, hwords⟩ := startTile_reads hd m t a bs mb
    have hclean : Clean (d.startTile m t a bs mb) :=
      (startTile_works (w := ⟨fun _ => True, fun _ => True, fun _ => True, fun _ _ => True, True⟩) m hd (fun _ _ => trivial) trivial).clean hd
    obtain ⟨hin, hout, hcounters', hctxs', hregs'⟩ := ih hclean
    rw [Dev.each_cons]
    refine ⟨fun j hj => ?_, fun j hj => ?_, hcounters'.trans hcounters, hctxs'.trans hctxs, hregs'.trans hregs⟩
    · by_cases hjl : j ∈ l
      case pos => exact hin j hjl
      case neg =>
        obtain rfl : j = t := (List.mem_cons.mp hj).resolve_right hjl
        rw [hout j hjl]
        exact ⟨hmb, hsem⟩
    · rw [hout j (fun h => hj (List.mem_cons_of_mem t h)), hother j (fun h => hj (h ▸ List.mem_cons_self))]

/-! An item starts. -/

/-- An item whose input has been read. -/
def Dev.startedItem (d : Dev) (m : Mem) (c v : Nat) (i : Item) (x : Ctx) (bs : List Byte) : Dev :=
  let ts := d.unitTiles c v i.kind.unit
  let d := d.scrStore m (leadTile (x.unitMask v i.kind.unit)) (x.inAddr v) bs
  let b := d.workBlock m c v i
  (d.each ts (fun d t => d.startTile m t (x.workAddr v) b i.mb)).putItem c v { i with started := true }

/-- An item waits, or its input is read and it starts. -/
theorem startItem_cases (d : Dev) (m : Mem) (c v : Nat) (i : Item) : d.startItem m c v i = d ∨
    d.startItem m c v i = (d.engineRead m c (d.itemInput m c v i).1 (d.itemInput m c v i).2).1 ∨
    ∃ bs, d.startItem m c v i = (d.engineRead m c (d.itemInput m c v i).1 (d.itemInput m c v i).2).1.startedItem m c v i (d.ctx c) bs := by
  unfold Dev.startItem
  dsimp only
  split
  · exact .inl rfl
  · split
    case h_1 => exact .inr (.inl rfl)
    case h_2 bs _ => exact .inr (.inr ⟨bs, rfl⟩)

theorem startedItem_works (m : Mem) {c v : Nat} {i : Item} {x : Ctx} {bs : List Byte} (hd : Clean d) (hmem : ∀ a, isHbm a = false → w.mem a)
    (htile : ∀ j ∈ d.unitTiles c v i.kind.unit, w.tile j) (hstage : w.stage c v) : Works w d (d.startedItem m c v i x bs) := by
  unfold Dev.startedItem
  dsimp only
  refine Works.step hd (Works.step hd (works_scrStore m hd fun k _ => hmem _ (by rw [Nat.add_assoc]; exact isHbm_scratch _ _)) fun he =>
    Works.each (fun f _ hf t ht => startTile_works m hf hmem (htile t ht)) he) fun _ => works_updStage _ hstage

theorem startItem_works (m : Mem) {c v : Nat} {i : Item} (hc : c < 64) (hd : Clean d) (hmem : ∀ a, isHbm a = false → w.mem a)
    (htile : ∀ j ∈ d.unitTiles c v i.kind.unit, w.tile j) (hstage : w.stage c v) : Works w d (d.startItem m c v i) := by
  have hread : Works w d (d.engineRead m c (d.itemInput m c v i).1 (d.itemInput m c v i).2).1 := works_of_calm (calm_engineRead _ hd m hc)
  rcases startItem_cases d m c v i with h | h | ⟨bs, h⟩
  · rw [h]; exact .refl w d
  · rw [h]; exact hread
  · rw [h]
    refine Works.step hd hread fun he => startedItem_works m he hmem ?_ hstage
    rw [hread.unitTiles]
    exact htile

theorem startedItem_stage (m : Mem) {c v : Nat} {i : Item} {x : Ctx} {bs : List Byte} (hd : Clean d) :
    ((d.startedItem m c v i x bs).ctx c).stage v = ((d.ctx c).stage v).withItem { i with started := true } := by
  unfold Dev.startedItem
  extract_lets ts e b
  have hclean : Clean e := by
    unfold e
    rw [scrStore_good hd]
    exact ⟨hd.bursts, hd.words⟩
  obtain ⟨-, -, -, hctxs, -⟩ := startTiles_read m (x.workAddr v) b i.mb (l := ts) hclean
  rw [putItem_eq, stage_setStage_same, stage_of_ctxs hctxs]
  unfold e
  rw [scrStore_good hd]
  rfl

/-- An item that starts, or waits, stands in its stage. -/
theorem startItem_stage (m : Mem) {c v : Nat} {i : Item} (hc : c < 64) (hd : Clean d) (hitem : ((d.ctx c).stage v).withItem i = (d.ctx c).stage v) :
    ∃ b, ((d.startItem m c v i).ctx c).stage v = ((d.ctx c).stage v).withItem { i with started := b } := by
  have hread := calm_engineRead Area.butTiles.mem hd m (a := (d.itemInput m c v i).1) (n := (d.itemInput m c v i).2) hc
  rcases startItem_cases d m c v i with h | h | ⟨bs, h⟩
  · exact ⟨i.started, by rw [h]; exact hitem.symm⟩
  · exact ⟨i.started, by rw [h, hread.stage]; exact hitem.symm⟩
  · refine ⟨true, ?_⟩
    rw [h, startedItem_stage m ((works_of_calm (w := .butTiles) hread).clean hd), hread.stage]

/-- The reads of the gathers of an item. -/
theorem gatherReads_issue (m : Mem) (c v u : Nat) (l : List Gather) (d : Dev) :
    ∃ ts, Issues d (d.each l (fun d g => d.gatherRead m c v u g.shard .gatherLedger)) ts := by
  induction l generalizing d with
  | nil => exact ⟨[], issues_refl d⟩
  | cons g l ih =>
    obtain ⟨t, ht, -⟩ := fabRead_issues d c (sLedger (d.shardEntry m c v g.shard)) 32 .gatherLedger (gatherKey v u) g.shard 0
    obtain ⟨ts, hts⟩ := ih (d.gatherRead m c v u g.shard .gatherLedger)
    exact ⟨[t] ++ ts, ht.trans hts⟩

theorem beginItem_works (m : Mem) {c v : Nat} {i : Item} (hc : c < 64) (hd : Clean d) (hmem : ∀ a, isHbm a = false → w.mem a)
    (htile : ∀ j ∈ d.unitTiles c v i.kind.unit, w.tile j) (hstage : w.stage c v) : Works w d (d.beginItem m c v i) := by
  unfold Dev.beginItem
  extract_lets e f
  have he : Works w d e := works_updStage _ hstage
  obtain ⟨ts, hissues⟩ := gatherReads_issue m c v i.kind.unit i.gathers e
  have hf : Works w d f := he.trans (works_issues hissues)
  refine Works.step hd hf fun hclean => startItem_works m hc hclean hmem ?_ hstage
  rw [hf.unitTiles]
  exact htile

theorem beginItem_stage (m : Mem) {c v : Nat} {i : Item} (hc : c < 64) (hd : Clean d) :
    ∃ b, ((d.beginItem m c v i).ctx c).stage v = ((d.ctx c).stage v).withItem { i with started := b } := by
  unfold Dev.beginItem
  extract_lets e f
  have he : Works .butTiles d e := works_updStage _ trivial
  obtain ⟨ts, hissues⟩ := gatherReads_issue m c v i.kind.unit i.gathers e
  have hf : Works .butTiles d f := he.trans (works_issues hissues)
  have hstage : (f.ctx c).stage v = ((d.ctx c).stage v).withItem i := by
    rw [stage_of_ctxs hissues.fields.2.2.2.1]
    exact stage_setStage_same d c v _
  obtain ⟨b, hb⟩ := startItem_stage m (v := v) (i := i) hc (hf.clean hd)
    (by rw [hstage, withItem_twice _ rfl])
  exact ⟨b, by rw [hb, hstage]; exact withItem_twice _ (i := i) (j := { i with started := b }) rfl⟩

end

end Sys2Proof.Machine
end

section
/-! Items dispatched again, a ring poll, and what the dispatch of an item writes (R304, R308, R309, R315, R316, R324). -/

namespace Sys2Proof.Machine

open Sys2Proof.Claims (Ends Quiet NoBad EngineReaches DispatchesAgain)

/-! Dispatch again (R324). -/

theorem item_withItem {s : Stage} {u : Nat} {i : Item} (h : s.item u = some i) (hu : i.kind.unit = u) : s.withItem i = s := by
  subst hu
  rcases unit_lt i.kind with hk | hk | hk
  · rw [withItem_forward _ hk, ← h, hk]; rfl
  · rw [withItem_backward _ hk, ← h, hk]; rfl
  · rw [withItem_update _ hk, ← h, hk]; rfl

/-- What has been read as the input of an item that starts now. -/
theorem startItem_starts {d : Dev} {m : Mem} {c v : Nat} {i : Item} {bs : List Byte} (hstarted : i.started = false) (hgathers : i.gathers = [])
    (hruns : d.unitRuns c v i.kind.unit = true) (hread : d.engineRead m c (d.itemInput m c v i).1 (d.itemInput m c v i).2 = (d, some bs)) :
    d.startItem m c v i = d.startedItem m c v i (d.ctx c) bs := by
  unfold Dev.startItem
  rw [if_neg (by simp [hstarted, hgathers, hruns])]
  dsimp only
  rw [hread]
  rfl

theorem startedItem_reads (m : Mem) {c v : Nat} {i : Item} {bs : List Byte} {d : Dev} (hd : Clean d) :
    (∀ j ∈ d.unitTiles c v i.kind.unit, ((d.startedItem m c v i (d.ctx c) bs).tile j).mbId = i.mb ∧ ((d.startedItem m c v i (d.ctx c) bs).tile j).sem 14 = true) ∧
    (∀ j, ¬ j ∈ d.unitTiles c v i.kind.unit → (d.startedItem m c v i (d.ctx c) bs).tile j = d.tile j) ∧
    (d.startedItem m c v i (d.ctx c) bs).counters = d.counters ∧ (d.startedItem m c v i (d.ctx c) bs).regs = d.regs := by
  unfold Dev.startedItem
  extract_lets ts e b
  have he : e = d.pokeN (scrBase (leadTile ((d.ctx c).unitMask v i.kind.unit)) + (d.ctx c).inAddr v) bs := scrStore_good hd m _ _ _
  have hclean : Clean e := by rw [he]; exact ⟨hd.bursts, hd.words⟩
  obtain ⟨hin, hout, hcounters, -, hregs⟩ := startTiles_read m ((d.ctx c).workAddr v) b i.mb (l := ts) hclean
  have htile : ∀ j, e.tile j = d.tile j := fun j => by rw [he]; rfl
  rw [putItem_eq]
  refine ⟨hin, fun j hj => (hout j hj).trans (htile j), hcounters.trans ?_, hregs.trans ?_⟩
  · rw [he]; rfl
  · rw [he]; rfl

/-- HBM reads as before where work has kept to scratchpads. -/
theorem read_hbm_of_works {w : Area} {s : State} {d : Dev} (h : Works w s.begin d) {a : Nat} (ha : ¬ w.mem a) : (s.commit d).read a = s.read a := by
  rw [State.read_commit, h.mem s.mem a ha, peek_of_unwritten s rfl rfl]

theorem dispatchesAgain_of {i : Fin 64 → Fin 8 → Instr} {u : Nat} {ks : List ItemKind} {x : Nat → Nat → Effect}
    (hexec : ∀ s c v, exec (i c v) s = s.run (x c.val v.val))
    (hx : ∀ (m : Mem) (d : Dev) (c v : Nat) (y : Item), ((d.ctx c).stage v).item u = some y → y.kind ∈ ks → x c v m d = d.startItem m c v y) :
    DispatchesAgain i u ks := by
  intro s c v y hitem hkind hunit hgathers hstarted hruns hgood hinput
  have hclean := clean_begin hgood
  subst hunit
  obtain ⟨bs, hread⟩ : ∃ bs, s.begin.engineRead s.mem c (s.begin.itemInput s.mem c v y).1 (s.begin.itemInput s.mem c v y).2 = (s.begin, some bs) := by
    rcases hinput with hempty | hreach
    · refine ⟨[], ?_⟩
      unfold Dev.engineRead
      rw [if_pos hempty]
    · exact ⟨_, engineRead_reached hreach⟩
  have heffect : x c v s.mem s.begin = s.begin.startedItem s.mem c v y (s.begin.ctx c) bs :=
    (hx s.mem s.begin c v y hitem hkind).trans (startItem_starts hstarted hgathers hruns hread)
  obtain ⟨hin, hout, hcounters, hregs⟩ := startedItem_reads (c := c) (v := v) (i := y) (bs := bs) s.mem hclean
  have hworks : Works ⟨fun a => isHbm a = false, fun j => j ∈ s.begin.unitTiles c v y.kind.unit, fun _ => True, fun _ _ => True, False⟩ s.begin
      (s.begin.startedItem s.mem c v y (s.begin.ctx c) bs) := startedItem_works s.mem hclean (fun _ h => h) (fun _ h => h) trivial
  have hstage := startedItem_stage (c := c) (v := v) (i := y) (x := s.begin.ctx c) (bs := bs) s.mem hclean
  refine ends_of_run (x := x c v) (hexec s c v) heffect ⟨?_, ?_, ?_, fun a ha => read_hbm_of_works hworks ?_, ?_, ?_⟩
  · rw [Dev.ctx_commit, hstage]
    exact withItem_item _ { y with started := true }
  · exact hin
  · exact hout
  · exact fun h => Bool.noConfusion (ha.symm.trans h)
  · exact hregs
  · exact hcounters

theorem xForwardItem_again (m : Mem) (d : Dev) (c v : Nat) (y : Item) (h : ((d.ctx c).stage v).item 0 = some y) (hk : y.kind ∈ [ItemKind.forward]) :
    xForwardItem c v m d = d.startItem m c v y := by
  have hitem : ((d.ctx c).stage v).fwdItem = some y := h
  have hkind : y.kind = ItemKind.forward := by simpa using hk
  unfold xForwardItem
  simp only [hitem, hkind, beq_self_eq_true, if_true]

theorem xRecomputeItem_again (m : Mem) (d : Dev) (c v : Nat) (y : Item) (h : ((d.ctx c).stage v).item 0 = some y) (hk : y.kind ∈ [ItemKind.recompute]) :
    xRecomputeItem c v m d = d.startItem m c v y := by
  have hitem : ((d.ctx c).stage v).fwdItem = some y := h
  have hkind : y.kind = ItemKind.recompute := by simpa using hk
  unfold xRecomputeItem
  simp only [hitem, hkind, beq_self_eq_true, if_true]

theorem xBackwardItem_again (m : Mem) (d : Dev) (c v : Nat) (y : Item) (h : ((d.ctx c).stage v).item 1 = some y) :
    xBackwardItem c v m d = d.startItem m c v y := by
  have hitem : ((d.ctx c).stage v).bwdItem = some y := h
  unfold xBackwardItem
  simp only [hitem]

theorem xUpdateItem_again (m : Mem) (d : Dev) (c v : Nat) (y : Item) (h : ((d.ctx c).stage v).item 2 = some y)
    (hk : y.kind ∈ [ItemKind.update, ItemKind.apply]) : xUpdateItem c v m d = d.startItem m c v y := by
  have hitem : ((d.ctx c).stage v).updItem = some y := h
  have hother : (y.kind != ItemKind.mirror) = true := by
    rcases List.mem_pair.mp hk with h | h <;> rw [h] <;> rfl
  unfold xUpdateItem
  simp only [hitem, hother, if_true]

theorem xMirrorItem_again (m : Mem) (d : Dev) (c v : Nat) (y : Item) (h : ((d.ctx c).stage v).item 2 = some y) (hk : y.kind ∈ [ItemKind.mirror]) :
    xMirrorItem c v m d = d.startItem m c v y := by
  have hitem : ((d.ctx c).stage v).updItem = some y := h
  have hkind : y.kind = ItemKind.mirror := by simpa using hk
  unfold xMirrorItem
  simp only [hitem, hkind, beq_self_eq_true, if_true]

/-! RING_POLL (R304). -/

theorem ringPoll_ends (s : State) (c : Fin 64) (v : Fin 8) (hstate : (s.dev.ctx c).pipe.state = .running) (hvalid : (s.dev.ctx c).validStage v = true)
    (hfirst : (s.dev.ctx c).isFirst v = false) (hfwd : EngineReaches s c ((s.dev.ctx c).fwdRing v) 32) (hbwd : EngineReaches s c ((s.dev.ctx c).bwdRing v) 32) :
    Ends (.ringPoll c v) s (fun u => (u.dev.ctx c).stage v = { (s.dev.ctx c).stage v with fwdProd := BitVec.ofNat 32 (s.begin.ringProd s.mem ((s.dev.ctx c).fwdRing v)), bwdProd := BitVec.ofNat 32 (s.begin.ringProd s.mem ((s.dev.ctx c).bwdRing v)) } ∧
      (∀ w, w ≠ v.val → (u.dev.ctx c).stage w = (s.dev.ctx c).stage w) ∧ u.mem = s.mem ∧ u.dev.regs = s.dev.regs ∧ u.dev.counters = s.dev.counters ∧
      u.dev.tiles = s.dev.tiles) := by
  have hprod : ∀ ring, leOf ((peekN s.mem s.begin ring 32).take 4) = s.begin.ringProd s.mem ring := fun ring => by
    have hslice := peekN_slice s.mem s.begin ring (off := 0) (n := 4) (k := 32) (by decide)
    rw [List.drop_zero, Nat.add_zero] at hslice
    rw [hslice]
    rfl
  obtain ⟨y, hy⟩ : ∃ y : Stage, y = { (s.dev.ctx c).stage v with fwdProd := BitVec.ofNat 32 (s.begin.ringProd s.mem ((s.dev.ctx c).fwdRing v)), bwdProd := BitVec.ofNat 32 (s.begin.ringProd s.mem ((s.dev.ctx c).bwdRing v)) } := ⟨_, rfl⟩
  have heffect : xRingPoll c v s.mem s.begin = s.begin.setStage c v y := by
    have hstate' : (s.begin.ctx c).pipe.state = .running := hstate
    have hvalid' : (s.begin.ctx c).validStage v = true := hvalid
    have hfirst' : (s.begin.ctx c).isFirst v = false := hfirst
    have hread : s.begin.engineRead s.mem c ((s.begin.ctx c).fwdRing v) 32 = (s.begin, some (peekN s.mem s.begin ((s.begin.ctx c).fwdRing v) 32)) :=
      engineRead_reached hfwd
    have hread' : s.begin.engineRead s.mem c ((s.begin.ctx c).bwdRing v) 32 = (s.begin, some (peekN s.mem s.begin ((s.begin.ctx c).bwdRing v) 32)) :=
      engineRead_reached hbwd
    unfold xRingPoll
    dsimp only
    rw [if_neg (by rw [hstate', hvalid']; decide), hread]
    dsimp only
    rw [hread']
    dsimp only
    rw [hfirst', if_neg Bool.false_ne_true, hprod, hprod, hy]
    rfl
  obtain ⟨hregs, hcounters, htiles, hstores, hwipes, -⟩ := setStage_fields s.begin c v y
  rw [← hy]
  refine ends_of_run (x := xRingPoll c v) rfl heffect ⟨?_, fun w hw => ?_, s.commit_mem _ hstores hwipes, hregs, hcounters, htiles⟩
  · rw [Dev.ctx_commit, stage_setStage_same]
  · rw [Dev.ctx_commit, stage_setStage, if_neg (Ne.symm hw)]
    rfl

/-! MIRROR items that need nothing (R386). -/

theorem mirrorItem_past (s : State) (c : Fin 64) (v : Fin 8) (t : BitVec 32) (q : List (ItemKind × BitVec 32))
    (hitem : ((s.dev.ctx c).stage v).updItem = none) (hqueue : ((s.dev.ctx c).stage v).queue = (.mirror, t) :: q)
    (hmay : (s.dev.ctx c).mayDispatch v = true) (hcmd : s.dev.protCmd c ≠ 5)
    (hall : (s.begin.mirrorsOf s.mem c v).all (fun i => decide (t.toNat ≤ eVstep (s.begin.entry s.mem c i))) = true) :
    Quiet (.mirrorItem c v) s (s.begin.setStage c v { (s.dev.ctx c).stage v with queue := q }) := by
  obtain ⟨d, hd⟩ : ∃ d, d = s.begin.setStage c v { (s.dev.ctx c).stage v with queue := q } := ⟨_, rfl⟩
  obtain ⟨hregs, -, -, hstores, hwipes, -⟩ := setStage_fields s.begin c v { (s.dev.ctx c).stage v with queue := q }
  rw [← hd] at hregs hstores hwipes ⊢
  have hsame : SameTable c s.begin d := sameTable_of_regs hregs hstores hwipes
  have hcmd' : d.protCmd c ≠ 5 := by
    rw [protCmd_congr (d := d) (e := s.begin)]
    · exact hcmd
    · rw [hd, Dev.setStage, Dev.ctx_setCtx_same]
  have heffect : xMirrorItem c v s.mem s.begin = d := by
    have hitem' : ((s.begin.ctx c).stage v).updItem = none := hitem
    have hqueue' : ((s.begin.ctx c).stage v).queue = (.mirror, t) :: q := hqueue
    have hmay' : (s.begin.ctx c).mayDispatch v = true := hmay
    have hrest : s.begin.updStage c v (fun s => { s with queue := q }) = d := hd.symm
    unfold xMirrorItem
    dsimp only
    rw [hitem', hqueue']
    dsimp only
    rw [hmay', if_neg (by simp), hrest, if_pos (by simp only [hsame.entry]; exact hall)]
    unfold Dev.promoteEnds
    rw [if_pos (by simp [hcmd'])]
  exact quiet_of_run (x := xMirrorItem c v) rfl heffect hstores hwipes

end Sys2Proof.Machine
end

section
/-! FORWARD, RECOMPUTE and BACKWARD items that are dispatched (R308, R311, R315, R316). -/

namespace Sys2Proof.Machine

open Sys2Proof.Claims (Ends NoBad)

/-! Records of the forward ring. -/

section
variable {w : Area} {d e : Dev}

theorem Works.fwdSlotAt (h : Works w d e) (c v n : Nat) : (e.ctx c).fwdSlotAt v n = (d.ctx c).fwdSlotAt v n := (table_reads (h.table c)).2.1 v n

theorem works_putRec (m : Mem) {c v n r : Nat} (hd : Clean d) (hc : c < 64)
    (hmem : ∀ i, i < 32 → w.mem ((d.ctx c).fwdSlotAt v n + i)) : Works w d (d.putRec m c v n r) :=
  works_engineWrite m hd hc fun i hi => hmem i (toLE_length 32 r ▸ hi)

theorem works_putTag (m : Mem) {c v n k t : Nat} (hd : Clean d) (hc : c < 64) (hrec : ∀ i, i < 32 → w.mem ((d.ctx c).fwdSlotAt v n + i))
    (htag : ∀ i, i < 8 → w.mem ((d.ctx c).fwdSlotAt v n + 256 + 8 * k + i)) : Works w d (d.putTag m c v n k t) := by
  have hfirst : Works w d (d.engineWrite m c ((d.ctx c).fwdSlotAt v n + 256 + 8 * k) (toLE 8 t)) :=
    works_engineWrite m hd hc fun i hi => htag i (toLE_length 8 t ▸ hi)
  unfold Dev.putTag
  dsimp only
  split
  · refine Works.step hd hfirst fun he => works_putRec m he hc ?_
    rw [hfirst.fwdSlotAt]
    exact hrec
  · exact hfirst

end

theorem slotRec_setStage (m : Mem) (d : Dev) (c v n u : Nat) (x : Stage) : (d.setStage c u x).slotRec m c v n = d.slotRec m c v n := by
  obtain ⟨-, -, -, hstores, hwipes, -, -, htable⟩ := setStage_fields d c u x
  rw [Dev.slotRec, (table_reads htable).2.1, peekLE, peekN_congr hstores hwipes, Dev.slotRec, peekLE]

theorem takeStash_slot {d : Dev} {c v : Nat} {p : Nat × Nat × Nat} (h : p.1 = skSlot) (m : Mem) : d.takeStash m c v p =
    d.setStage c v { (d.ctx c).stage v with stashUsed := (p.2.1 - (d.ctx c).stashBase v) / roundUp ((d.ctx c).stashBytes v) 256 :: ((d.ctx c).stage v).stashUsed } := by
  unfold Dev.takeStash
  dsimp only
  rw [if_pos h]

/-- Work of an item that is dispatched to a unit keeps to its tiles, its stage, scratchpads and HBM where `r` allows it. -/
def dispatchArea (d : Dev) (c v u : Nat) (r : Nat → Prop) : Area :=
  ⟨fun a => isHbm a = false ∨ r a, fun j => j ∈ d.unitTiles c v u, fun _ => True, fun _ _ => True, False⟩

/-! RECOMPUTE (R316). -/

/-- A RECOMPUTE item that begins takes its stash first. -/
theorem xRecomputeItem_begins {m : Mem} {d : Dev} {c v n : Nat} {p : Nat × Nat × Nat} (hitem : ((d.ctx c).stage v).fwdItem = none)
    (hmay : (d.ctx c).mayDispatch v = true) (hout : ((d.ctx c).stage v).fwdOut = none) (hready : d.recomputeReady m c v = some (n, p))
    (hrest : rRestarted (d.slotRec m c v n) = false) : ∃ i : Item, xRecomputeItem c v m d = (d.takeStash m c v p).beginItem m c v i ∧
      i.kind = .recompute ∧ i.slot = n ∧ i.stash = p ∧ i.mb = BitVec.ofNat 16 (rMb ((d.takeStash m c v p).slotRec m c v n)) := by
  unfold xRecomputeItem
  simp only [hitem, hmay, hout, hready, hrest, Option.isSome_none, Bool.not_true, Bool.or_self, Bool.false_eq_true, if_false]
  exact ⟨_, rfl, rfl, rfl, rfl, rfl⟩

theorem recomputeItem_ends (s : State) (c : Fin 64) (v : Fin 8) (n : Nat) (p : Nat × Nat × Nat) (hitem : ((s.dev.ctx c).stage v).fwdItem = none)
    (hmay : (s.dev.ctx c).mayDispatch v = true) (hout : ((s.dev.ctx c).stage v).fwdOut = none) (hready : s.begin.recomputeReady s.mem c v = some (n, p))
    (hrest : rRestarted (s.begin.slotRec s.mem c v n) = false) (hslot : p.1 = skSlot) (hgood : NoBad s) :
    Ends (.recomputeItem c v) s (fun u => (∃ i : Item, ((u.dev.ctx c).stage v).fwdItem = some i ∧ i.kind = .recompute ∧ i.slot = n ∧ i.stash = p ∧
        i.mb = BitVec.ofNat 16 (rMb (s.begin.slotRec s.mem c v n))) ∧ ((u.dev.ctx c).stage v).curRefs = ((s.dev.ctx c).stage v).curRefs ∧
      (∀ a, isHbm a = true → u.read a = s.read a) ∧ (∀ j, ¬ j ∈ s.dev.unitTiles c v 0 → u.dev.tile j = s.dev.tile j) ∧ u.dev.regs = s.dev.regs) := by
  obtain ⟨i, heffect, hkind, hislot, histash, himb⟩ := xRecomputeItem_begins (d := s.begin) hitem hmay hout hready hrest
  obtain ⟨e, he⟩ : ∃ e, e = s.begin.takeStash s.mem c v p := ⟨_, rfl⟩
  have htake : e = _ := he.trans (takeStash_slot hslot s.mem)
  have hstash : Works (dispatchArea s.begin c v 0 fun _ => False) s.begin e := by rw [htake]; exact works_setStage _ trivial
  have hunit : i.kind.unit = 0 := by rw [hkind]; rfl
  have hclean := hstash.clean (clean_begin hgood)
  have hworks : Works (dispatchArea s.begin c v 0 fun _ => False) s.begin (e.beginItem s.mem c v i) :=
    hstash.trans (beginItem_works s.mem c.isLt hclean (fun _ h => .inl h) (by rw [hstash.unitTiles, hunit]; exact fun _ h => h) trivial)
  obtain ⟨b, hb⟩ := beginItem_stage (v := v) (i := i) s.mem c.isLt hclean
  rw [withItem_forward _ (i := { i with started := b }) hunit] at hb
  rw [← he] at heffect himb
  refine ends_of_run (x := xRecomputeItem c v) rfl heffect ⟨⟨{ i with started := b }, ?_, hkind, hislot, histash, ?_⟩, ?_, fun a ha => read_hbm_of_works hworks ?_,
    fun j hj => hworks.tile j hj, hworks.regs id⟩
  · rw [Dev.ctx_commit, hb]
  · rw [himb, htake, slotRec_setStage]
  · rw [Dev.ctx_commit, hb, htake, stage_setStage_same]
    rfl
  · rintro (h | h)
    · exact Bool.noConfusion (ha.symm.trans h)
    · exact h

/-! FORWARD (R308, R311, R315). -/

theorem mem_localShards {m : Mem} {d : Dev} {c v i : Nat} (h : i ∈ d.localShards m c v) : i < (d.ctx c).shardCount v :=
  List.mem_range.mp (List.mem_filter.mp h).1

/-- A stage in its list of owners takes one reference. -/
theorem ownersRefs (m : Mem) (d : Dev) (c v : Nat) :
    ((d.each (d.ownersOf m c v) (fun d w => d.updStage c w (fun s => { s with curRefs := s.curRefs + 1 }))).ctx c).stage v
      = { (d.ctx c).stage v with curRefs := ((d.ctx c).stage v).curRefs + 1 } := by
  have hupdate := Dev.each_update (fun d w => (d.ctx c).stage w) (fun _ x => { x with curRefs := x.curRefs + 1 }) (l := d.ownersOf m c v)
    (f := fun d w => d.updStage c w (fun s => { s with curRefs := s.curRefs + 1 })) (List.nodup_dedup _) (fun e u j => by
      rw [Dev.updStage, stage_setStage]
      split
      case isTrue h => rw [h]
      case isFalse => rfl) d v
  have hmem : v ∈ d.ownersOf m c v := List.mem_dedup.mpr List.mem_cons_self
  rw [if_pos hmem] at hupdate
  exact hupdate

theorem rMb_recWithStash (d : Dev) (r : Nat) (p : Nat × Nat × Nat) : rMb (d.recWithStash r p) = rMb r := by
  rw [rMb, Dev.recWithStash, fld_setFld_above _ _ _ _ _ _ (by decide) (by decide), fld_setFld_above _ _ _ _ _ _ (by decide) (by decide),
    fld_setFld_below _ _ _ _ _ _ (by decide), rMb]

/-- The bytes of a forward slot. -/
def slotBytes (x : Ctx) (v n a : Nat) : Prop := x.fwdSlotAt v n ≤ a ∧ a < x.fwdSlotAt v n + x.fwdSlotSize v

theorem slotBytes_rec (x : Ctx) (v n : Nat) {i : Nat} (h : i < 32) : slotBytes x v n (x.fwdSlotAt v n + i) := by
  unfold slotBytes Ctx.fwdSlotSize
  omega

theorem slotBytes_tag (x : Ctx) (v n : Nat) {k i : Nat} (hk : k < x.shardCount v) (h : i < 8) : slotBytes x v n (x.fwdSlotAt v n + 256 + 8 * k + i) := by
  have hround := le_roundUp (n := 8 * x.shardCount v) (u := 256) (by decide)
  unfold slotBytes Ctx.fwdSlotSize Ctx.tagBytes
  omega

/-- A FORWARD item that begins: its stash is taken, its record and tags written, references and the next slot counted. -/
theorem xForwardItem_begins {m : Mem} {d : Dev} {c v n : Nat} {p : Nat × Nat × Nat} (hitem : ((d.ctx c).stage v).fwdItem = none)
    (hmay : (d.ctx c).mayDispatch v = true) (hout : ((d.ctx c).stage v).fwdOut = none) (hgate : ((d.ctx c).stage v).gateClosed = false)
    (hready : d.recomputeReady m c v = none) (hnext : d.nextForward c v = some n) (hbinds : d.forwardBinds m c v n = true)
    (hengine : d.engineMay c ((d.ctx c).fwdSlotAt v n) ((d.ctx c).fwdSlotSize v) = true) (hstash : d.stashPlace m c v false = some p) (hslot : p.1 = skSlot)
    (hc : c < 64) (hd : Clean d) : ∃ (e : Dev) (i : Item), xForwardItem c v m d = e.beginItem m c v i ∧ i.kind = .forward ∧ i.slot = n ∧ i.stash = p ∧
      i.mb = BitVec.ofNat 16 (rMb (d.slotRec m c v n)) ∧ Works (dispatchArea d c v 0 (slotBytes (d.ctx c) v n)) d e ∧
      ((e.ctx c).stage v).fwdNext = BitVec.ofNat 32 (n + 1) ∧ ((e.ctx c).stage v).curRefs = ((d.ctx c).stage v).curRefs + 1 := by
  have htake : d.forwardStash m c v n = (d.takeStash m c v p, p) := by
    unfold Dev.forwardStash
    simp only [hstash]
  unfold xForwardItem
  simp only [hitem, hmay, hout, hgate, hready, hnext, hbinds, hengine, htake, Option.isSome_none, Bool.not_true, Bool.or_self, Bool.false_eq_true, if_false]
  obtain ⟨d₁, hd₁⟩ : ∃ d₁, d₁ = d.takeStash m c v p := ⟨_, rfl⟩
  have heq₁ : d₁ = _ := hd₁.trans (takeStash_slot hslot m)
  rw [← hd₁]
  obtain ⟨r, hr⟩ : ∃ r, r = setFld (setFld (d₁.recWithStash (d₁.slotRec m c v n) p) 15 13 v) 12 11 0 := ⟨_, rfl⟩
  rw [← hr]
  obtain ⟨d₂, hd₂⟩ : ∃ d₂, d₂ = (d₁.putRec m c v n r).each (d₁.localShards m c v)
    (fun d i => d.putTag m c v n i (lCurTag (d.ledger m (d.shardEntry m c v i)))) := ⟨_, rfl⟩
  rw [← hd₂]
  have hmb : rMb r = rMb (d.slotRec m c v n) := by
    rw [hr, rMb, fld_setFld_above _ _ _ _ _ _ (by decide) (by decide), fld_setFld_above _ _ _ _ _ _ (by decide) (by decide), ← rMb, rMb_recWithStash, heq₁,
      slotRec_setStage]
  have hworks₁ : Works (dispatchArea d c v 0 (slotBytes (d.ctx c) v n)) d d₁ := by rw [heq₁]; exact works_setStage _ trivial
  have hclean₁ := hworks₁.clean hd
  have hslots : ∀ {x : Dev}, Works (dispatchArea d c v 0 (slotBytes (d.ctx c) v n)) d x → ∀ i, i < 32 →
      (dispatchArea d c v 0 (slotBytes (d.ctx c) v n)).mem ((x.ctx c).fwdSlotAt v n + i) := fun hx i hi => by
    rw [hx.fwdSlotAt]
    exact .inr (slotBytes_rec _ v n hi)
  have hrec : Works ⟨(dispatchArea d c v 0 (slotBytes (d.ctx c) v n)).mem, fun _ => False, fun _ => False, fun _ _ => False, False⟩ d₁ (d₁.putRec m c v n r) :=
    works_putRec m hclean₁ hc (hslots hworks₁)
  have htags : Works ⟨(dispatchArea d c v 0 (slotBytes (d.ctx c) v n)).mem, fun _ => False, fun _ => False, fun _ _ => False, False⟩ d₁ d₂ := by
    rw [hd₂]
    refine Works.step hclean₁ hrec fun he => Works.each (fun x hx hxc i hi => ?_) he
    have hat : (x.ctx c).fwdSlotAt v n = (d.ctx c).fwdSlotAt v n := (hrec.trans hx).fwdSlotAt c v n |>.trans (hworks₁.fwdSlotAt c v n)
    have hcount : i < (d.ctx c).shardCount v := (table_reads (hworks₁.table c)).2.2.2.2.1 v ▸ mem_localShards hi
    refine works_putTag m hxc hc (fun j hj => ?_) (fun j hj => ?_)
    · rw [hat]; exact .inr (slotBytes_rec _ v n hj)
    · rw [hat]; exact .inr (slotBytes_tag _ v n hcount hj)
  have hworks₂ : Works (dispatchArea d c v 0 (slotBytes (d.ctx c) v n)) d d₂ :=
    hworks₁.trans (htags.mono (fun _ h => h) (fun _ h => h.elim) (fun _ h => h.elim) (fun _ _ h => h.elim) id)
  obtain ⟨d₃, hd₃⟩ : ∃ d₃, d₃ = d₂.each (d₂.ownersOf m c v) (fun d w => d.updStage c w (fun s => { s with curRefs := s.curRefs + 1 })) := ⟨_, rfl⟩
  have hrefs : (d₃.ctx c).stage v = { (d₂.ctx c).stage v with curRefs := ((d₂.ctx c).stage v).curRefs + 1 } := by rw [hd₃]; exact ownersRefs m d₂ c v
  have hworks₃ : Works (dispatchArea d c v 0 (slotBytes (d.ctx c) v n)) d d₃ := by
    rw [hd₃]
    exact Works.step hd hworks₂ fun he => Works.each (fun x _ _ u _ => works_updStage _ trivial) he
  rw [← hd₃]
  refine ⟨_, _, rfl, rfl, rfl, rfl, by rw [hmb], hworks₃.trans (works_updStage _ trivial), ?_, ?_⟩
  · rw [stage_updStage_same]
  · rw [stage_updStage_same, hrefs, htags.stage c v id, heq₁, stage_setStage_same]

theorem forwardItem_ends (s : State) (c : Fin 64) (v : Fin 8) (n : Nat) (p : Nat × Nat × Nat) (hitem : ((s.dev.ctx c).stage v).fwdItem = none)
    (hmay : (s.dev.ctx c).mayDispatch v = true) (hout : ((s.dev.ctx c).stage v).fwdOut = none) (hgate : ((s.dev.ctx c).stage v).gateClosed = false)
    (hready : s.begin.recomputeReady s.mem c v = none) (hnext : s.dev.nextForward c v = some n) (hbinds : s.begin.forwardBinds s.mem c v n = true)
    (hengine : s.dev.engineMay c ((s.dev.ctx c).fwdSlotAt v n) ((s.dev.ctx c).fwdSlotSize v) = true)
    (hstash : s.begin.stashPlace s.mem c v false = some p) (hslot : p.1 = skSlot) (hgood : NoBad s) :
    Ends (.forwardItem c v) s (fun u => (∃ i : Item, ((u.dev.ctx c).stage v).fwdItem = some i ∧ i.kind = .forward ∧ i.slot = n ∧ i.stash = p ∧
        i.mb = BitVec.ofNat 16 (rMb (s.begin.slotRec s.mem c v n))) ∧ ((u.dev.ctx c).stage v).fwdNext = BitVec.ofNat 32 (n + 1) ∧
      ((u.dev.ctx c).stage v).curRefs = ((s.dev.ctx c).stage v).curRefs + 1 ∧
      (∀ a, isHbm a = true → (a < (s.dev.ctx c).fwdSlotAt v n ∨ (s.dev.ctx c).fwdSlotAt v n + (s.dev.ctx c).fwdSlotSize v ≤ a) → u.read a = s.read a) ∧
      (∀ j, ¬ j ∈ s.dev.unitTiles c v 0 → u.dev.tile j = s.dev.tile j) ∧ u.dev.regs = s.dev.regs) := by
  obtain ⟨e, i, heffect, hkind, hislot, histash, himb, hbegun, hfwd, hrefs⟩ :=
    xForwardItem_begins (d := s.begin) hitem hmay hout hgate hready hnext hbinds hengine hstash hslot c.isLt (clean_begin hgood)
  have hunit : i.kind.unit = 0 := by rw [hkind]; rfl
  have hclean := hbegun.clean (clean_begin hgood)
  have hworks := hbegun.trans (beginItem_works (i := i) s.mem c.isLt hclean (fun _ h => .inl h) (by rw [hbegun.unitTiles, hunit]; exact fun _ h => h) trivial)
  obtain ⟨b, hb⟩ := beginItem_stage (v := v) (i := i) s.mem c.isLt hclean
  rw [withItem_forward _ (i := { i with started := b }) hunit] at hb
  refine ends_of_run (x := xForwardItem c v) rfl heffect ⟨⟨{ i with started := b }, ?_, hkind, hislot, histash, himb⟩, ?_, ?_,
    fun a ha hout => read_hbm_of_works hworks ?_, fun j hj => hworks.tile j hj, hworks.regs id⟩
  · rw [Dev.ctx_commit, hb]
  · rw [Dev.ctx_commit, hb]; exact hfwd
  · rw [Dev.ctx_commit, hb]; exact hrefs
  · rintro (h | ⟨hlo, hhi⟩)
    · exact Bool.noConfusion (ha.symm.trans h)
    · rcases hout with h | h
      · exact absurd hlo (Nat.not_le.mpr h)
      · exact absurd hhi (Nat.not_lt.mpr h)

/-! BACKWARD (R308, R311). -/

/-- What a BACKWARD item notes before it begins: in the record that it takes a previous version, and for the first of its step the order word of
its tiles. -/
def Dev.backwardNoted (d : Dev) (m : Mem) (c v n : Nat) (prevs : List Nat) : Dev :=
  let r := d.slotRec m c v n
  let e := d.bumpN (Reg.ctxPipePrevUsed c v) prevs.length
  let e := if prevs.isEmpty then e else e.putRec m c v n (setFld r 6 6 1)
  if ((d.ctx c).stage v).orderStep != some (BitVec.ofNat 32 (rStep r)) then
    let e := e.updStage c v (fun s => { s with orderStep := some (BitVec.ofNat 32 (rStep r)) })
    e.each (e.unitTiles c v 1) (fun e t => e.scrStore m t ((d.ctx c).orderAddr v) (toLE 2 (rMb r)))
  else e

theorem xBackwardItem_begins {m : Mem} {d : Dev} {c v n : Nat} (hitem : ((d.ctx c).stage v).bwdItem = none)
    (hmay : (d.ctx c).mayDispatch v = true) (hout : ((d.ctx c).stage v).bwdOut = none) (hready : d.backwardReady m c v = some n) :
    ∃ (l : List Nat) (i : Item), xBackwardItem c v m d = (d.backwardNoted m c v n l).beginItem m c v i ∧ i.kind = .backward ∧ i.slot = n ∧
      i.mb = BitVec.ofNat 16 (rMb (d.slotRec m c v n)) := by
  unfold xBackwardItem
  simp only [hitem, hmay, hout, hready, Option.isSome_none, Bool.not_true, Bool.or_self, Bool.false_eq_true, if_false]
  exact ⟨_, _, rfl, rfl, rfl, rfl⟩

/-- The bytes of a record of the forward ring. -/
def recBytes (x : Ctx) (v n a : Nat) : Prop := x.fwdSlotAt v n ≤ a ∧ a < x.fwdSlotAt v n + 32

theorem backwardNoted_works (m : Mem) {d : Dev} {c : Nat} (v n : Nat) (l : List Nat) (hc : c < 64) (hd : Clean d) :
    Works (dispatchArea d c v 1 (recBytes (d.ctx c) v n)) d (d.backwardNoted m c v n l) ∧
    (((d.backwardNoted m c v n l).ctx c).stage v).orderStep = some (BitVec.ofNat 32 (rStep (d.slotRec m c v n))) := by
  unfold Dev.backwardNoted
  extract_lets r e₁ e₂ e₃
  have hkept : Works ⟨(dispatchArea d c v 1 (recBytes (d.ctx c) v n)).mem, fun _ => False, fun _ => True, fun _ _ => False, False⟩ d e₂ := by
    have hbump : Works ⟨(dispatchArea d c v 1 (recBytes (d.ctx c) v n)).mem, fun _ => False, fun _ => True, fun _ _ => False, False⟩ d e₁ :=
      works_bumpN trivial
    unfold e₂
    split
    · exact hbump
    · refine Works.step hd hbump fun he => works_putRec m he hc fun i hi => .inr ⟨?_, ?_⟩
      · exact Nat.le_add_right _ _
      · exact Nat.add_lt_add_left hi _
  have hworks : Works (dispatchArea d c v 1 (recBytes (d.ctx c) v n)) d e₂ :=
    hkept.mono (fun _ h => h) (fun _ h => h.elim) (fun _ _ => trivial) (fun _ _ h => h.elim) id
  split
  case isTrue =>
    have hnoted : Works (dispatchArea d c v 1 (recBytes (d.ctx c) v n)) d e₃ := hworks.trans (works_updStage _ trivial)
    have hstored : Works ⟨(dispatchArea d c v 1 (recBytes (d.ctx c) v n)).mem, fun _ => False, fun _ => True, fun _ _ => False, False⟩ e₃
        (e₃.each (e₃.unitTiles c v 1) (fun e t => e.scrStore m t ((d.ctx c).orderAddr v) (toLE 2 (rMb r)))) :=
      Works.each (fun x _ hx t _ => works_scrStore m hx fun i _ => .inl (by rw [Nat.add_assoc]; exact isHbm_scratch _ _)) (hnoted.clean hd)
    refine ⟨hnoted.trans (hstored.mono (fun _ h => h) (fun _ h => h.elim) (fun _ _ => trivial) (fun _ _ h => h.elim) id), ?_⟩
    rw [hstored.stage c v id]
    unfold e₃
    rw [stage_updStage_same]
  case isFalse hsame =>
    refine ⟨hworks, ?_⟩
    rw [hkept.stage c v id]
    simpa using hsame

theorem backwardItem_ends (s : State) (c : Fin 64) (v : Fin 8) (n : Nat) (hitem : ((s.dev.ctx c).stage v).bwdItem = none)
    (hmay : (s.dev.ctx c).mayDispatch v = true) (hout : ((s.dev.ctx c).stage v).bwdOut = none) (hready : s.begin.backwardReady s.mem c v = some n)
    (hgood : NoBad s) :
    Ends (.backwardItem c v) s (fun u => (∃ i : Item, ((u.dev.ctx c).stage v).bwdItem = some i ∧ i.kind = .backward ∧ i.slot = n ∧
        i.mb = BitVec.ofNat 16 (rMb (s.begin.slotRec s.mem c v n))) ∧
      ((u.dev.ctx c).stage v).orderStep = some (BitVec.ofNat 32 (rStep (s.begin.slotRec s.mem c v n))) ∧
      (∀ a, isHbm a = true → (a < (s.dev.ctx c).fwdSlotAt v n ∨ (s.dev.ctx c).fwdSlotAt v n + 32 ≤ a) → u.read a = s.read a) ∧
      (∀ j, ¬ j ∈ s.dev.unitTiles c v 1 → u.dev.tile j = s.dev.tile j) ∧ u.dev.regs = s.dev.regs) := by
  obtain ⟨l, i, heffect, hkind, hislot, himb⟩ := xBackwardItem_begins (d := s.begin) hitem hmay hout hready
  obtain ⟨e, he⟩ : ∃ e, e = s.begin.backwardNoted s.mem c v n l := ⟨_, rfl⟩
  obtain ⟨hbegun, horder⟩ := he ▸ backwardNoted_works s.mem v n l c.isLt (clean_begin hgood)
  rw [← he] at heffect
  have hunit : i.kind.unit = 1 := by rw [hkind]; rfl
  have hclean := hbegun.clean (clean_begin hgood)
  have hworks := hbegun.trans (beginItem_works (i := i) s.mem c.isLt hclean (fun _ h => .inl h) (by rw [hbegun.unitTiles, hunit]; exact fun _ h => h) trivial)
  obtain ⟨b, hb⟩ := beginItem_stage (v := v) (i := i) s.mem c.isLt hclean
  rw [withItem_backward _ (i := { i with started := b }) hunit] at hb
  refine ends_of_run (x := xBackwardItem c v) rfl heffect ⟨⟨{ i with started := b }, ?_, hkind, hislot, himb⟩, ?_,
    fun a ha hout => read_hbm_of_works hworks ?_, fun j hj => hworks.tile j hj, hworks.regs id⟩
  · rw [Dev.ctx_commit, hb]
  · rw [Dev.ctx_commit, hb]; exact horder
  · rintro (h | ⟨hlo, hhi⟩)
    · exact Bool.noConfusion (ha.symm.trans h)
    · rcases hout with h | h
      · exact absurd hlo (Nat.not_le.mpr h)
      · exact absurd hhi (Nat.not_lt.mpr h)

end Sys2Proof.Machine
end

section
/-! UPDATE, APPLY and MIRROR items that are dispatched (R317, R384, R386), and the dispatch of items as a whole. -/

namespace Sys2Proof.Machine

open Sys2Proof.Claims (Ends NoBad)

/-- Work of an item of the update unit: its tiles, scratchpads and HBM where `r` allows it, but no stage. -/
def updateArea (d : Dev) (c v : Nat) (r : Nat → Prop) : Area :=
  ⟨fun a => isHbm a = false ∨ r a, fun j => j ∈ d.unitTiles c v 2, fun _ => True, fun _ _ => False, False⟩

theorem badWords_withUpdKey (x : Tile) (k : Option (BitVec 64 × BitVec 32)) : ({ x with updKey := k } : Tile).badWords = x.badWords := rfl

/-- The update block is written to the tiles of the update unit. -/
theorem works_putUpdateBlock {w : Area} {d : Dev} (m : Mem) {c v t item : Nat} {grads : List Nat} (hd : Clean d) (hmem : ∀ a, isHbm a = false → w.mem a)
    (htile : ∀ j ∈ d.unitTiles c v 2, w.tile j) : Works w d (d.putUpdateBlock m c v t item grads) := by
  unfold Dev.putUpdateBlock
  simp only
  refine Works.each (fun e _ he x hx => ?_) hd
  exact Works.step he (works_scrStore m he fun i _ => hmem _ (by rw [Nat.add_assoc]; exact isHbm_scratch _ _)) fun _ => works_setTile (htile x hx) (badWords_withUpdKey _ _)

/-- A stage whose oldest queued item has been taken. -/
def Dev.dequeued (d : Dev) (c v : Nat) (q : List (ItemKind × BitVec 32)) : Dev := d.updStage c v (fun s => { s with queue := q })

theorem dequeued_fields (d : Dev) (c v : Nat) (q : List (ItemKind × BitVec 32)) : (d.dequeued c v q).regs = d.regs ∧ (d.dequeued c v q).tiles = d.tiles ∧
    (d.dequeued c v q).stores = d.stores ∧ (d.dequeued c v q).wipes = d.wipes ∧
    ((d.dequeued c v q).ctx c).stage v = { (d.ctx c).stage v with queue := q } ∧ ((d.dequeued c v q).ctx c).prot = (d.ctx c).prot := by
  obtain ⟨hregs, -, htiles, hstores, hwipes, -⟩ := setStage_fields d c v { (d.ctx c).stage v with queue := q }
  refine ⟨hregs, htiles, hstores, hwipes, stage_updStage_same d c v _, ?_⟩
  rw [Dev.dequeued, Dev.updStage, Dev.setStage, Dev.ctx_setCtx_same]

theorem dequeued_works {w : Area} (d : Dev) {c v : Nat} (q : List (ItemKind × BitVec 32)) (h : w.stage c v) : Works w d (d.dequeued c v q) :=
  works_updStage _ h

theorem xUpdateItem_begins {m : Mem} {d : Dev} {c v : Nat} {k : ItemKind} {t : BitVec 32} {q : List (ItemKind × BitVec 32)}
    (hitem : ((d.ctx c).stage v).updItem = none) (hqueue : ((d.ctx c).stage v).queue = (k, t) :: q) (hk : (k == ItemKind.mirror) = false)
    (hmay : (d.ctx c).mayDispatch v = true) (hready : d.updateReady m c v = true) (hretained : (d.protOn c && !d.retained m c t.toNat) = false)
    (hc : c < 64) (hd : Clean d) : ∃ (e : Dev) (i : Item), xUpdateItem c v m d = e.beginItem m c v i ∧ i.kind = k ∧ i.step = t ∧
      Works (updateArea d c v fun _ => d.ownedShards m c v ≠ []) (d.dequeued c v q) e := by
  have hrest : d.updStage c v (fun s => { s with queue := q }) = d.dequeued c v q := rfl
  have hworks : Works .butTiles d (d.dequeued c v q) := dequeued_works d q trivial
  have hclean := hworks.clean hd
  have htiles : ∀ {x : Dev}, Works (updateArea d c v fun _ => d.ownedShards m c v ≠ []) (d.dequeued c v q) x →
      ∀ j ∈ x.unitTiles c v 2, (updateArea d c v fun _ => d.ownedShards m c v ≠ []).tile j := fun hx j hj => by
    rw [hx.unitTiles, hworks.unitTiles] at hj
    exact hj
  unfold xUpdateItem
  simp only [hitem, hqueue, hk, hmay, hready, hretained, Bool.not_true, Bool.or_self, Bool.false_eq_true, if_false, hrest]
  refine ⟨_, _, rfl, rfl, rfl, Works.orStep hclean (Works.each (fun x hx hxc i hi => ?_) hclean) fun he hec =>
    works_putUpdateBlock m hec (fun _ h => .inl h) (htiles he)⟩
  · have hany : ∀ a, (updateArea d c v fun _ => d.ownedShards m c v ≠ []).mem a := fun a => .inr (List.ne_nil_of_mem hi)
    split
    · split
      · exact Works.step hxc (Works.step hxc (works_putLedger m hxc hc hany) fun h => works_engineWrite m h hc fun _ _ => hany _) fun h =>
          works_setFlag m h hc (fun _ _ => hany _) fun _ _ _ => trivial
      · exact Works.step hxc (works_putLedger m hxc hc hany) fun h => works_engineWrite m h hc fun _ _ => hany _
    · exact works_putLedger m hxc hc hany

/-- What the dispatch of an item of the update unit leaves. -/
theorem ends_of_updateBegins {i : Instr} {s : State} {c : Fin 64} {v : Fin 8} {k : ItemKind} {t : BitVec 32} {q : List (ItemKind × BitVec 32)}
    {x : Effect} {r : Nat → Prop} (hexec : exec i s = s.run x) (hk : k.unit = 2) (hgood : NoBad s)
    (hbegins : ∃ (e : Dev) (j : Item), x s.mem s.begin = e.beginItem s.mem c v j ∧ j.kind = k ∧ j.step = t ∧
      Works (updateArea s.begin c v r) (s.begin.dequeued c v q) e) :
    Ends i s (fun u => (∃ i : Item, ((u.dev.ctx c).stage v).updItem = some i ∧ i.kind = k ∧ i.step = t) ∧
      ((u.dev.ctx c).stage v).queue = q ∧ (∀ a, isHbm a = true → ¬ r a → u.read a = s.read a) ∧
      (∀ j, ¬ j ∈ s.dev.unitTiles c v 2 → u.dev.tile j = s.dev.tile j) ∧ u.dev.regs = s.dev.regs) := by
  obtain ⟨e, j, heffect, hkind, hstep, hwork⟩ := hbegins
  have hunit : j.kind.unit = 2 := by rw [hkind, hk]
  have hwide : Works (dispatchArea s.begin c v 2 r) s.begin e :=
    (dequeued_works s.begin q trivial).trans (hwork.mono (fun _ h => h) (fun _ h => h) (fun _ h => h) (fun _ _ h => h.elim) id)
  have hclean := hwide.clean (clean_begin hgood)
  have hworks := hwide.trans (beginItem_works (i := j) s.mem c.isLt hclean (fun _ h => .inl h) (by rw [hwide.unitTiles, hunit]; exact fun _ h => h) trivial)
  obtain ⟨b, hb⟩ := beginItem_stage (v := v) (i := j) s.mem c.isLt hclean
  rw [withItem_update _ (i := { j with started := b }) hunit, hwork.stage c v id, (dequeued_fields s.begin c v q).2.2.2.2.1] at hb
  refine ends_of_run (x := x) hexec heffect ⟨⟨{ j with started := b }, ?_, hkind, hstep⟩, ?_, fun a ha hr => read_hbm_of_works hworks ?_,
    fun j hj => hworks.tile j hj, hworks.regs id⟩
  · rw [Dev.ctx_commit, hb]
  · rw [Dev.ctx_commit, hb]
  · rintro (h | h)
    · exact Bool.noConfusion (ha.symm.trans h)
    · exact hr h

theorem ends_imp {i : Instr} {s : State} {P Q : State → Prop} (h : Ends i s P) (hPQ : ∀ u, P u → Q u) : Ends i s Q :=
  let ⟨t, hexec, hpending, hP⟩ := h
  ⟨t, hexec, hpending, hPQ t hP⟩

theorem updateItem_ends (s : State) (c : Fin 64) (v : Fin 8) (k : ItemKind) (t : BitVec 32) (q : List (ItemKind × BitVec 32))
    (hitem : ((s.dev.ctx c).stage v).updItem = none) (hqueue : ((s.dev.ctx c).stage v).queue = (k, t) :: q) (hk : k = .update ∨ k = .apply)
    (hmay : (s.dev.ctx c).mayDispatch v = true) (hready : s.begin.updateReady s.mem c v = true)
    (hretained : s.dev.protOn c = true → s.begin.retained s.mem c t.toNat = true) (hgood : NoBad s) :
    Ends (.updateItem c v) s (fun u => (∃ i : Item, ((u.dev.ctx c).stage v).updItem = some i ∧ i.kind = k ∧ i.step = t) ∧
      ((u.dev.ctx c).stage v).queue = q ∧ (s.begin.ownedShards s.mem c v = [] → ∀ a, isHbm a = true → u.read a = s.read a) ∧
      (∀ j, ¬ j ∈ s.dev.unitTiles c v 2 → u.dev.tile j = s.dev.tile j) ∧ u.dev.regs = s.dev.regs) := by
  have hother : (k == ItemKind.mirror) = false ∧ k.unit = 2 := by rcases hk with rfl | rfl <;> decide
  have hheld : (s.begin.protOn c && !s.begin.retained s.mem c t.toNat) = false := by
    cases hon : s.begin.protOn c with
    | false => rfl
    | true => rw [hretained hon]; rfl
  refine ends_imp (ends_of_updateBegins (i := .updateItem c v) (c := c) (v := v) (x := xUpdateItem c v) rfl hother.2 hgood
    (xUpdateItem_begins (d := s.begin) hitem hqueue hother.1 hmay hready hheld c.isLt (clean_begin hgood))) ?_
  rintro u ⟨hstarted, hrest, hread, htiles, hregs⟩
  exact ⟨hstarted, hrest, fun hnone a ha => hread a ha fun h => h hnone, htiles, hregs⟩

/-! MIRROR (R386). -/

theorem mirrorReady_dequeued (m : Mem) (d : Dev) (c v : Nat) (q : List (ItemKind × BitVec 32)) (g : Nat) :
    (d.dequeued c v q).mirrorReady m c v g = d.mirrorReady m c v g := by
  obtain ⟨hregs, -, hstores, hwipes, -, hprot⟩ := dequeued_fields d c v q
  have hsame : SameTable c d (d.dequeued c v q) := sameTable_of_regs hregs hstores hwipes
  have hretain : (d.dequeued c v q).retainStep m c g = d.retainStep m c g := by
    rw [Dev.retainStep, Dev.retainAt, hsame.protBase, hsame.peekLE, Dev.retainStep, Dev.retainAt]
  simp only [Dev.mirrorReady, Dev.retained, hsame.mirrorsOf, hsame.entry, hretain, hprot]

theorem xMirrorItem_begins {m : Mem} {d : Dev} {c v : Nat} {t : BitVec 32} {q : List (ItemKind × BitVec 32)}
    (hitem : ((d.ctx c).stage v).updItem = none) (hqueue : ((d.ctx c).stage v).queue = (.mirror, t) :: q) (hmay : (d.ctx c).mayDispatch v = true)
    (hbehind : (d.mirrorsOf m c v).all (fun i => decide (t.toNat ≤ eVstep (d.entry m c i))) = false) (hready : d.mirrorReady m c v t.toNat = true)
    (hc : c < 64) (hd : Clean d) : ∃ (e : Dev) (i : Item), xMirrorItem c v m d = e.beginItem m c v i ∧ i.kind = .mirror ∧ i.step = t ∧
      Works (updateArea d c v fun _ => True) (d.dequeued c v q) e := by
  have hrest : d.updStage c v (fun s => { s with queue := q }) = d.dequeued c v q := rfl
  obtain ⟨hregs, -, hstores, hwipes, -⟩ := dequeued_fields d c v q
  have hsame : SameTable c d (d.dequeued c v q) := sameTable_of_regs hregs hstores hwipes
  have hworks : Works .butTiles d (d.dequeued c v q) := dequeued_works d q trivial
  have hclean := hworks.clean hd
  unfold xMirrorItem
  simp only [hitem, hqueue, hmay, hrest, hsame.entry, hbehind, mirrorReady_dequeued, hready, bne_self_eq_false, Bool.true_or, Bool.not_true, Bool.or_self,
    Bool.false_eq_true, if_false, if_true]
  refine ⟨_, _, rfl, rfl, rfl, Works.next hclean (Works.each (fun x _ hxc i _ => ?_) hclean) fun he hec => works_putUpdateBlock m hec (fun _ h => .inl h) ?_⟩
  · exact works_setFlag m hxc hc (fun _ _ => .inr trivial) fun _ _ _ => trivial
  · rw [he.unitTiles, hworks.unitTiles]
    exact fun _ h => h

theorem mirrorItem_ends (s : State) (c : Fin 64) (v : Fin 8) (t : BitVec 32) (q : List (ItemKind × BitVec 32))
    (hitem : ((s.dev.ctx c).stage v).updItem = none) (hqueue : ((s.dev.ctx c).stage v).queue = (.mirror, t) :: q)
    (hmay : (s.dev.ctx c).mayDispatch v = true)
    (hbehind : (s.begin.mirrorsOf s.mem c v).all (fun i => decide (t.toNat ≤ eVstep (s.begin.entry s.mem c i))) = false)
    (hready : s.begin.mirrorReady s.mem c v t.toNat = true) (hgood : NoBad s) :
    Ends (.mirrorItem c v) s (fun u => (∃ i : Item, ((u.dev.ctx c).stage v).updItem = some i ∧ i.kind = .mirror ∧ i.step = t) ∧
      ((u.dev.ctx c).stage v).queue = q ∧ (∀ j, ¬ j ∈ s.dev.unitTiles c v 2 → u.dev.tile j = s.dev.tile j) ∧ u.dev.regs = s.dev.regs) := by
  refine ends_imp (ends_of_updateBegins (i := .mirrorItem c v) (c := c) (v := v) (x := xMirrorItem c v) rfl (by decide) hgood
    (xMirrorItem_begins (d := s.begin) hitem hqueue hmay hbehind hready c.isLt (clean_begin hgood))) ?_
  rintro u ⟨hstarted, hrest, -, htiles, hregs⟩
  exact ⟨hstarted, hrest, htiles, hregs⟩

/-- Settles O41, kind of item by kind: each takes what it needs, then input, work block and START reach the tiles of its unit. -/
theorem itemsAreDispatched : Obligations.ItemsAreDispatched :=
  ⟨ringPoll_ends, forwardItem_ends, recomputeItem_ends, backwardItem_ends, updateItem_ends, mirrorItem_ends, mirrorItem_past,
    dispatchesAgain_of (fun _ _ _ => rfl) xForwardItem_again, dispatchesAgain_of (fun _ _ _ => rfl) xRecomputeItem_again,
    dispatchesAgain_of (fun _ _ _ => rfl) fun m d c v y h _ => xBackwardItem_again m d c v y h, dispatchesAgain_of (fun _ _ _ => rfl) xUpdateItem_again,
    dispatchesAgain_of (fun _ _ _ => rfl) xMirrorItem_again⟩

end Sys2Proof.Machine
end

section
/-! Items that end (R309, R313, R317). -/

namespace Sys2Proof.Machine

open Sys2Proof.Claims (Ends Quiet NoBad SameMemBut)

theorem steady_recomputes (c : Nat) (v : Fin 8) : Steady (Reg.ctxPipeRecomputes c v) :=
  ⟨by unfold Reg.devEvtLost Reg.ctxPipeRecomputes ctxWindow; omega, fun x _ => by unfold Reg.ctxEvtLost Reg.ctxPipeRecomputes ctxWindow; omega,
    fun p => by unfold Reg.devHpSnoops Reg.ctxPipeRecomputes ctxWindow; omega,
    fun i => by unfold Reg.memAccessViol Reg.ctxPipeRecomputes dieBlock indBlock ctxWindow; omega⟩

theorem steady_updates (c : Nat) (v : Fin 8) : Steady (Reg.ctxPipeUpdates c v) :=
  ⟨by unfold Reg.devEvtLost Reg.ctxPipeUpdates ctxWindow; omega, fun x _ => by unfold Reg.ctxEvtLost Reg.ctxPipeUpdates ctxWindow; omega,
    fun p => by unfold Reg.devHpSnoops Reg.ctxPipeUpdates ctxWindow; omega,
    fun i => by unfold Reg.memAccessViol Reg.ctxPipeUpdates dieBlock indBlock ctxWindow; omega⟩

/-! DONE of an item (R309). -/

theorem clearSem_fields (d : Dev) (t n : Nat) : (d.clearSem t n).regs = d.regs ∧ (d.clearSem t n).counters = d.counters ∧
    (d.clearSem t n).stores = d.stores ∧ (d.clearSem t n).wipes = d.wipes ∧ (d.clearSem t n).ctxs = d.ctxs ∧
    (d.clearSem t n).badBursts = d.badBursts ∧ (∀ j, ((d.clearSem t n).tile j).badWords = (d.tile j).badWords) ∧
    (∀ j, ((d.clearSem t n).tile j).updKey = (d.tile j).updKey) := by
  refine ⟨rfl, rfl, rfl, rfl, rfl, rfl, fun j => ?_, fun j => ?_⟩
  all_goals
    rw [Dev.clearSem, Dev.tile_setTile]
    split
    case isTrue h => rw [← h]
    case isFalse => rfl

theorem updStage_fields (d : Dev) (c v : Nat) (g : Stage → Stage) : (d.updStage c v g).regs = d.regs ∧ (d.updStage c v g).counters = d.counters ∧
    (d.updStage c v g).tiles = d.tiles ∧ (d.updStage c v g).stores = d.stores ∧ (d.updStage c v g).wipes = d.wipes :=
  ⟨rfl, rfl, rfl, rfl, rfl⟩

/-- DONE is taken of the lead tile, and the item ends as its unit says. -/
theorem xItemDone_ends {m : Mem} {d : Dev} {c v u : Nat} {i : Item} (hitem : ((d.ctx c).stage v).item u = some i) (hstate : (d.ctx c).pipe.state = .running)
    (hstarted : i.started = true) (hsums : i.sums = []) (hdone : (d.tile (leadTile ((d.ctx c).unitMask v u))).sem 15 = true) :
    xItemDone c v u m d = if u = 0 then (d.clearSem (leadTile ((d.ctx c).unitMask v u)) 15).forwardDone m c v i
      else if u = 1 then (d.clearSem (leadTile ((d.ctx c).unitMask v u)) 15).backwardDone m c v i
      else (d.clearSem (leadTile ((d.ctx c).unitMask v u)) 15).updateDone m c v i := by
  have hoff : (PipeState.running == PipeState.off) = false := by decide
  have hfault : (PipeState.running == PipeState.fault) = false := by decide
  unfold xItemDone
  simp only [hitem, hstate, hstarted, hsums, hdone, hoff, hfault, List.isEmpty_nil, Bool.not_true, Bool.or_self, Bool.false_eq_true, if_false]

/-- The record of an output carries on MB_ID and STEP. -/
theorem outRecord_reads (r : Nat) {kind vs : Nat} (hkind : kind < 4) (hvs : vs < 8) :
    rMb (outRecord r kind vs).toNat = rMb r ∧ rStep (outRecord r kind vs).toNat = rStep r := by
  have hmb : rMb r < 2 ^ 16 := Nat.mod_lt _ (by decide)
  have hvstep : rVstep r < 2 ^ 32 := Nat.mod_lt _ (by decide)
  have hstep : rStep r < 2 ^ 32 := Nat.mod_lt _ (by decide)
  obtain ⟨f, hf, hfirst⟩ : ∃ f, f = (if rFirst r then 2 ^ 8 else 0) ∧ f ≤ 2 ^ 8 := ⟨_, rfl, by split <;> decide⟩
  obtain ⟨x, hx⟩ : ∃ x, x = vs * 2 ^ 13 + kind * 2 ^ 11 + skNone * 2 ^ 9 + f := ⟨_, rfl⟩
  have hlow : x < 2 ^ 48 := by
    unfold skNone at hx
    omega
  have hsum : (outRecord r kind vs).toNat = rStep r * 2 ^ 96 + rVstep r * 2 ^ 64 + rMb r * 2 ^ 48 + x := by
    rw [outRecord, BitVec.toNat_ofNat, ← hf, Nat.mod_eq_of_lt (by omega)]
    omega
  generalize rMb r = a at *
  generalize rVstep r = b at *
  generalize rStep r = e at *
  rw [hsum]
  unfold rMb rStep
  rw [fld_eq_div_mod, fld_eq_div_mod]
  omega

theorem stageOfRing_lt {d : Dev} {c g : Nat} {bwd : Bool} {v : Nat} (hv : v < 8) : (d.stageOfRing c g bwd).getD v < 8 := by
  unfold Dev.stageOfRing
  dsimp only
  split
  · cases hfind : (d.ctx c).stageList.find? (fun v => (if bwd then (d.ctx c).bwdRing v else (d.ctx c).fwdRing v) == gOffset g) with
    | none => exact hv
    | some w =>
      have hmem := List.mem_of_find?_eq_some hfind
      exact List.mem_range.mp (List.mem_filter.mp hmem).1
  · exact hv

theorem setOut_eq (d : Dev) (c v : Nat) (bwd : Bool) (o : Option Delivery) :
    d.setOut c v bwd o = d.setStage c v (if bwd then { (d.ctx c).stage v with bwdOut := o } else { (d.ctx c).stage v with fwdOut := o }) := rfl

theorem itemDone_forward (s : State) (c : Fin 64) (v : Fin 8) (i : Item) (hitem : ((s.dev.ctx c).stage v).fwdItem = some i) (hkind : i.kind = .forward)
    (hstate : (s.dev.ctx c).pipe.state = .running) (hstarted : i.started = true) (hsums : i.sums = [])
    (hdone : (s.dev.tile (leadTile ((s.dev.ctx c).unitMask v 0))).sem 15 = true) :
    Ends (.itemDone c v 0) s (fun u => ((u.dev.ctx c).stage v).fwdItem = none ∧
      (∃ o : Delivery, ((u.dev.ctx c).stage v).fwdOut = some o ∧ o.phase = 0 ∧ o.target = (if (s.dev.ctx c).isLast v then 1 else 0) ∧
        rMb o.rec_.toNat = rMb (s.begin.slotRec s.mem c v i.slot) ∧ rStep o.rec_.toNat = rStep (s.begin.slotRec s.mem c v i.slot)) ∧
      (u.dev.tile (leadTile ((s.dev.ctx c).unitMask v 0))).sem 15 = false ∧
      (∀ j, j ≠ leadTile ((s.dev.ctx c).unitMask v 0) → u.dev.tile j = s.dev.tile j) ∧ u.mem = s.mem ∧ u.dev.regs = s.dev.regs ∧
      u.dev.counters = s.dev.counters) := by
  obtain ⟨t, ht⟩ : ∃ t, t = leadTile ((s.dev.ctx c).unitMask v 0) := ⟨_, rfl⟩
  obtain ⟨d, hd⟩ : ∃ d, d = s.begin.clearSem t 15 := ⟨_, rfl⟩
  obtain ⟨hregs, hcounters, hstores, hwipes, hctxs, -⟩ := hd ▸ clearSem_fields s.begin t 15
  obtain ⟨hsem, hother⟩ := hd ▸ clearSem_tiles s.begin t 15
  have hctx : ∀ x, d.ctx x = s.dev.ctx x := fun x => by rw [Dev.ctx, hctxs]; rfl
  have hrec : (d.updStage c v (fun s => { s with fwdItem := none })).slotRec s.mem c v i.slot = s.begin.slotRec s.mem c v i.slot := by
    rw [Dev.updStage, slotRec_setStage, Dev.slotRec, peekLE, peekN_congr (d := d) (e := s.begin) hstores hwipes, hctx]
    rfl
  obtain ⟨o, ho, htarget, hphase, hmb, hstep⟩ : ∃ o : Delivery, d.forwardDone s.mem c v i
      = (d.updStage c v (fun s => { s with fwdItem := none })).setOut c v false (some o) ∧ o.target = (if (s.dev.ctx c).isLast v then 1 else 0) ∧ o.phase = 0 ∧
      rMb o.rec_.toNat = rMb (s.begin.slotRec s.mem c v i.slot) ∧ rStep o.rec_.toNat = rStep (s.begin.slotRec s.mem c v i.slot) := by
    have hnot : (i.kind == ItemKind.recompute) = false := by rw [hkind]; rfl
    unfold Dev.forwardDone
    simp only [hnot, hrec, Bool.false_eq_true, if_false, hctx]
    refine ⟨_, rfl, rfl, rfl, (outRecord_reads _ ?_ ?_).1, (outRecord_reads _ ?_ ?_).2⟩
    all_goals
      split
      · first | decide | exact v.isLt
      · first | decide | exact stageOfRing_lt v.isLt
  have heffect : xItemDone c v 0 s.mem s.begin = d.forwardDone s.mem c v i :=
    (xItemDone_ends (d := s.begin) (u := 0) hitem hstate hstarted hsums hdone).trans (by rw [if_pos rfl, hd, ht]; rfl)
  obtain ⟨e, he⟩ : ∃ e, e = d.updStage c v (fun s => { s with fwdItem := none }) := ⟨_, rfl⟩
  obtain ⟨hregs₁, hcounters₁, htiles₁, hstores₁, hwipes₁⟩ := updStage_fields d c v (fun s => { s with fwdItem := none })
  rw [← he] at hregs₁ hcounters₁ htiles₁ hstores₁ hwipes₁
  rw [← he, setOut_eq, if_neg Bool.false_ne_true] at ho
  obtain ⟨hregs₂, hcounters₂, htiles₂, hstores₂, hwipes₂, -⟩ := setStage_fields e c v { (e.ctx c).stage v with fwdOut := some o }
  have hstage : ((e.setStage c v { (e.ctx c).stage v with fwdOut := some o }).ctx c).stage v
      = { (s.dev.ctx c).stage v with fwdItem := none, fwdOut := some o } := by
    rw [stage_setStage_same, he, stage_updStage_same, hctx]
  have htile : ∀ j, (e.setStage c v { (e.ctx c).stage v with fwdOut := some o }).tile j = d.tile j := fun j => by
    rw [Dev.tile, Dev.tile, htiles₂, htiles₁]
  rw [← ht]
  refine ends_of_run (x := xItemDone c v 0) rfl (heffect.trans ho) ⟨by rw [Dev.ctx_commit, hstage], ⟨o, by rw [Dev.ctx_commit, hstage], hphase, htarget, hmb, hstep⟩, ?_,
    fun j hj => (htile j).trans (hother j hj), s.commit_mem _ (hstores₂.trans (hstores₁.trans hstores)) (hwipes₂.trans (hwipes₁.trans hwipes)),
    hregs₂.trans (hregs₁.trans hregs), hcounters₂.trans (hcounters₁.trans hcounters)⟩
  exact (congrArg (Tile.sem · 15) (htile t)).trans hsem

/-! A RECOMPUTE item. -/

theorem works_clearSem {w : Area} {d : Dev} {t n : Nat} (h : w.tile t) : Works w d (d.clearSem t n) := works_setTile h rfl

/-- The area of DONE: the lead tile, and memory and stages where `r` and `g` allow it. -/
def doneArea (t : Nat) (r : Nat → Prop) (g : Nat → Nat → Prop) : Area := ⟨r, fun j => j = t, fun _ => True, g, False⟩

theorem itemDone_recompute (s : State) (c : Fin 64) (v : Fin 8) (i : Item) (hitem : ((s.dev.ctx c).stage v).fwdItem = some i) (hkind : i.kind = .recompute)
    (hstate : (s.dev.ctx c).pipe.state = .running) (hstarted : i.started = true) (hsums : i.sums = [])
    (hdone : (s.dev.tile (leadTile ((s.dev.ctx c).unitMask v 0))).sem 15 = true) (hgood : NoBad s) :
    Ends (.itemDone c v 0) s (fun u => ((u.dev.ctx c).stage v).fwdItem = none ∧ ((u.dev.ctx c).stage v).fwdOut = ((s.dev.ctx c).stage v).fwdOut ∧
      u.dev.count (Reg.ctxPipeRecomputes c v) = s.dev.count (Reg.ctxPipeRecomputes c v) + 1 ∧
      SameMemBut s u ((s.dev.ctx c).fwdSlotAt v i.slot) 32 ∧ u.dev.regs = s.dev.regs) := by
  obtain ⟨t, ht⟩ : ∃ t, t = leadTile ((s.dev.ctx c).unitMask v 0) := ⟨_, rfl⟩
  obtain ⟨d, hd⟩ : ∃ d, d = s.begin.clearSem t 15 := ⟨_, rfl⟩
  have hclear : Works (doneArea t (recBytes (s.dev.ctx c) v i.slot) fun _ _ => True) s.begin d := hd ▸ works_clearSem rfl
  obtain ⟨-, hcounters, -, -, hctxs, -⟩ := hd ▸ clearSem_fields s.begin t 15
  obtain ⟨e, he⟩ : ∃ e, e = d.updStage c v (fun s => { s with fwdItem := none }) := ⟨_, rfl⟩
  have hworks : Works (doneArea t (recBytes (s.dev.ctx c) v i.slot) fun _ _ => True) s.begin e := hclear.trans (he ▸ works_updStage _ trivial)
  obtain ⟨f, hf⟩ : ∃ f, f = e.putRec s.mem c v i.slot (setFld (e.recWithStash (e.slotRec s.mem c v i.slot) i.stash) 5 5 1) := ⟨_, rfl⟩
  have hput : Works ⟨recBytes (s.dev.ctx c) v i.slot, fun _ => False, fun _ => False, fun _ _ => False, False⟩ e f := by
    rw [hf]
    refine works_putRec s.mem (hworks.clean (clean_begin hgood)) c.isLt fun k hk => ?_
    rw [hworks.fwdSlotAt]
    exact ⟨Nat.le_add_right _ _, Nat.add_lt_add_left hk _⟩
  have heffect : xItemDone c v 0 s.mem s.begin = f.bump (Reg.ctxPipeRecomputes c v) := by
    refine (xItemDone_ends (d := s.begin) (u := 0) hitem hstate hstarted hsums hdone).trans ?_
    have hyes : (i.kind == ItemKind.recompute) = true := by rw [hkind]; rfl
    rw [if_pos rfl]
    show (s.begin.clearSem (leadTile ((s.dev.ctx c).unitMask v 0)) 15).forwardDone s.mem c v i = _
    rw [← ht, ← hd]
    unfold Dev.forwardDone
    simp only [hyes, if_true]
    rw [← he, ← hf]
  have hall : Works (doneArea t (recBytes (s.dev.ctx c) v i.slot) fun _ _ => True) s.begin (f.bump (Reg.ctxPipeRecomputes c v)) :=
    (hworks.trans (hput.mono (fun _ h => h) (fun _ h => h.elim) (fun _ h => h.elim) (fun _ _ h => h.elim) id)).trans (works_bump trivial)
  have hstage : ((f.bump (Reg.ctxPipeRecomputes c v)).ctx c).stage v = { (s.dev.ctx c).stage v with fwdItem := none } := by
    have hkept : (f.ctx c).stage v = (e.ctx c).stage v := hput.stage c v id
    refine hkept.trans ?_
    rw [he, stage_updStage_same, Dev.ctx, hctxs]
    rfl
  refine ends_of_run (x := xItemDone c v 0) rfl heffect ⟨by rw [Dev.ctx_commit, hstage], by rw [Dev.ctx_commit, hstage], ?_, fun a ha => ?_, hall.regs id⟩
  · show (f.bump _).count _ = _
    rw [Dev.count_bump_same, hput.count _ (steady_recomputes c v) id, he]
    exact congrArg (fun l => mget 0 l (Reg.ctxPipeRecomputes c v) + 1) hcounters
  · refine read_hbm_of_works hall fun h => ?_
    obtain ⟨hlo, hhi⟩ := h
    omega

/-! An UPDATE item without protection. -/

theorem clearKeys_reads (d : Dev) (l : List Nat) :
    (∀ j ∈ l, ((d.each l (fun d t => d.setTile t { d.tile t with updKey := none })).tile j).updKey = none) ∧
    (d.each l (fun d t => d.setTile t { d.tile t with updKey := none })).regs = d.regs ∧
    (d.each l (fun d t => d.setTile t { d.tile t with updKey := none })).counters = d.counters ∧
    (d.each l (fun d t => d.setTile t { d.tile t with updKey := none })).ctxs = d.ctxs ∧
    (d.each l (fun d t => d.setTile t { d.tile t with updKey := none })).stores = d.stores ∧
    (d.each l (fun d t => d.setTile t { d.tile t with updKey := none })).wipes = d.wipes := by
  induction l generalizing d with
  | nil => exact ⟨fun _ h => absurd h List.not_mem_nil, rfl, rfl, rfl, rfl, rfl⟩
  | cons t l ih =>
    obtain ⟨hkeys, hregs, hcounters, hctxs, hstores, hwipes⟩ := ih (d.setTile t { d.tile t with updKey := none })
    rw [Dev.each_cons]
    refine ⟨fun j hj => ?_, hregs, hcounters, hctxs, hstores, hwipes⟩
    by_cases hjl : j ∈ l
    case pos => exact hkeys j hjl
    case neg =>
      obtain rfl : j = t := (List.mem_cons.mp hj).resolve_right hjl
      refine Dev.each_invariant (P := fun e => (e.tile j).updKey = none) (fun e x _ he => ?_) ?_
      · rw [Dev.tile_setTile]
        split
        · rfl
        · exact he
      · rw [Dev.tile_setTile_same]

theorem itemDone_update (s : State) (c : Fin 64) (v : Fin 8) (i : Item) (hitem : ((s.dev.ctx c).stage v).updItem = some i) (hkind : i.kind = .update)
    (hon : s.dev.protOn c = false) (hstate : (s.dev.ctx c).pipe.state = .running) (hstarted : i.started = true) (hsums : i.sums = [])
    (hdone : (s.dev.tile (leadTile ((s.dev.ctx c).unitMask v 2))).sem 15 = true) :
    Ends (.itemDone c v 2) s (fun u => ((u.dev.ctx c).stage v).updItem = some { i with sums := i.binds.map (·.1) } ∧
      (∀ j, j ∈ s.dev.unitTiles c v 2 → (u.dev.tile j).updKey = none) ∧ u.mem = s.mem ∧ u.dev.regs = s.dev.regs ∧ u.dev.counters = s.dev.counters) := by
  obtain ⟨t, ht⟩ : ∃ t, t = leadTile ((s.dev.ctx c).unitMask v 2) := ⟨_, rfl⟩
  obtain ⟨d, hd⟩ : ∃ d, d = s.begin.clearSem t 15 := ⟨_, rfl⟩
  obtain ⟨hregs, hcounters, hstores, hwipes, hctxs, -⟩ := hd ▸ clearSem_fields s.begin t 15
  have htiles : d.unitTiles c v 2 = s.dev.unitTiles c v 2 := by rw [Dev.unitTiles, Dev.ctx, hctxs]; rfl
  obtain ⟨e, he⟩ : ∃ e, e = d.each (d.unitTiles c v 2) (fun d t => d.setTile t { d.tile t with updKey := none }) := ⟨_, rfl⟩
  obtain ⟨hkeys, hregs₁, hcounters₁, hctxs₁, hstores₁, hwipes₁⟩ := he ▸ clearKeys_reads d (d.unitTiles c v 2)
  have hoff : e.protOn c = false := by
    rw [Dev.protOn, Dev.rb, Dev.reg, hregs₁, hregs]
    exact hon
  have heffect : xItemDone c v 2 s.mem s.begin = e.updStage c v (fun s => { s with updItem := some { i with sums := i.binds.map (·.1) } }) := by
    refine (xItemDone_ends (d := s.begin) (u := 2) hitem hstate hstarted hsums hdone).trans ?_
    have hnot : (i.kind == ItemKind.mirror) = false := by rw [hkind]; rfl
    rw [if_neg (by decide), if_neg (by decide)]
    show (s.begin.clearSem (leadTile ((s.dev.ctx c).unitMask v 2)) 15).updateDone s.mem c v i = _
    rw [← ht, ← hd]
    unfold Dev.updateDone
    simp only [hnot, Bool.false_eq_true, if_false]
    rw [← he, hoff]
    rfl
  obtain ⟨hregs₂, hcounters₂, htiles₂, hstores₂, hwipes₂, -⟩ :=
    setStage_fields e c v { (e.ctx c).stage v with updItem := some { i with sums := i.binds.map (·.1) } }
  refine ends_of_run (x := xItemDone c v 2) rfl heffect ⟨?_, fun j hj => ?_, s.commit_mem _ (hstores₂.trans (hstores₁.trans hstores)) (hwipes₂.trans (hwipes₁.trans hwipes)),
    hregs₂.trans (hregs₁.trans hregs), hcounters₂.trans (hcounters₁.trans hcounters)⟩
  · rw [Dev.ctx_commit, stage_updStage_same]
  · have hj' := hkeys j (by rw [htiles]; exact hj)
    rw [Dev.tile] at hj' ⊢
    rw [State.commit_tiles, Dev.updStage, htiles₂]
    exact hj'

end Sys2Proof.Machine
end

section
/-! Slots and stashes that are freed, and BACKWARD items that end (R306, R313, R315). -/

namespace Sys2Proof.Machine

open Sys2Proof.Claims (Ends NoBad)

/-- Any memory, counter or stage, but no tile and no register. -/
def Area.stages : Area := ⟨fun _ => True, fun _ => False, fun _ => True, fun _ _ => True, False⟩

/-- Any memory and counter, but of the stages only `v` of context `c`. -/
def Area.oneStage (c v : Nat) : Area := ⟨fun _ => True, fun _ => False, fun _ => True, fun x w => x = c ∧ w = v, False⟩

theorem Works.ofOneStage {c v : Nat} {d e : Dev} (h : Works (.oneStage c v) d e) : Works .stages d e :=
  h.mono (fun _ => id) (fun _ => id) (fun _ => id) (fun _ _ _ => trivial) id

/-- Calm steps that may write anywhere. -/
abbrev Dev.CalmTo (d e : Dev) : Prop := Calm (fun _ => True) d e

section
variable {d e : Dev} {c : Nat}

theorem Calm.clean {r : Nat → Prop} (h : Calm r d e) (hd : Clean d) : Clean e :=
  (works_of_calm (w := ⟨r, fun _ => False, fun _ => False, fun _ _ => False, False⟩) h).clean hd

theorem calm_write (m : Mem) (hc : c < 64) (hd : Clean d) (a : Nat) (bs : List Byte) : d.CalmTo (d.engineWrite m c a bs) :=
  calm_engineWrite d m hc hd.bursts hd.words fun _ _ => trivial

theorem calm_fabWr (c g : Nat) (bs : List Byte) (u : Purpose) (a b x : Nat) : d.CalmTo (d.fabWr c g bs u a b x) :=
  let ⟨_, h, _⟩ := fabRequest_issues d _ (newTag u a b x g) (newTag_serves u a b x g)
  calm_issues h

/-- Calm steps for each of a list. -/
theorem calm_each {α : Type} {l : List α} {g : Dev → α → Dev} (h : ∀ e, Clean e → ∀ x ∈ l, e.CalmTo (g e x)) (hd : Clean d) : d.CalmTo (d.each l g) :=
  Dev.each_invariant (P := d.CalmTo) (fun e x hx he => he.trans (h e (he.clean hd) x hx)) (.refl _ d)

theorem calm_setCons (m : Mem) (hc : c < 64) (hd : Clean d) (v ring n : Nat) : d.CalmTo (d.setCons m c v ring n) := by
  have h := calm_write m hc hd (ring + 8) (toLE 4 n)
  unfold Dev.setCons
  dsimp only
  split
  · exact h
  · split
    · exact h.trans (calm_write m hc (h.clean hd) _ _)
    · exact h.trans (calm_fabWr _ _ _ _ _ _ _)

theorem calm_screeMark (m : Mem) (hc : c < 64) (hd : Clean d) (base k n : Nat) (used : Bool) : d.CalmTo (d.screeMark m c base k n used) :=
  calm_each (fun e he _ _ => calm_write m hc he _ _) hd

theorem calm_screeFree (m : Mem) (hc : c < 64) (hd : Clean d) (off n : Nat) : d.CalmTo (d.screeFree m c off n) := by
  unfold Dev.screeFree
  split
  · exact .refl _ d
  · exact calm_screeMark m hc hd _ _ _ _

theorem works_stage (x : Stage) (v : Nat) : Works (.oneStage c v) d (d.setStage c v x) := works_setStage x ⟨rfl, rfl⟩

/-- A stash that is freed changes its stage's list of places, or its count of blocks. -/
theorem freeStash_frees (m : Mem) (hc : c < 64) (hd : Clean d) (v : Nat) (p : Nat × Nat × Nat) : Works (.oneStage c v) d (d.freeStash m c v p) ∧
    ∃ u b, ((d.freeStash m c v p).ctx c).stage v = { (d.ctx c).stage v with stashUsed := u, screeBlocks := b } := by
  unfold Dev.freeStash
  extract_lets x s
  split
  · exact ⟨works_stage _ v, _, _, stage_setStage_same _ _ _ _⟩
  · split
    · have hset : Works (.oneStage c v) d (d.setStage c v { s with screeBlocks := s.screeBlocks - p.2.2 }) := works_stage _ v
      have hfree := calm_screeFree m hc (hset.clean hd) p.2.1 p.2.2
      exact ⟨hset.trans (works_of_calm hfree), _, _, (hfree.stage c v).trans (stage_setStage_same _ _ _ _)⟩
    · exact ⟨.refl _ d, _, _, rfl⟩

theorem freeSlots_frees (m : Mem) (hc : c < 64) (v k : Nat) (hd : Clean d) : Works (.oneStage c v) d (d.freeSlots m c v k) ∧
    ∃ l, ((d.freeSlots m c v k).ctx c).stage v = { (d.ctx c).stage v with fwdDone := l } := by
  induction k generalizing d with
  | zero => exact ⟨.refl _ d, _, rfl⟩
  | succ k ih =>
    unfold Dev.freeSlots
    extract_lets x n s f
    split
    · have hset : Works (.oneStage c v) d f := works_stage _ v
      have hcons := calm_setCons m hc (hset.clean hd) v (x.fwdRing v) ((n + 1) % 2 ^ 32)
      obtain ⟨hworks, l, hl⟩ := ih (hcons.clean (hset.clean hd))
      refine ⟨(hset.trans (works_of_calm hcons)).trans hworks, l, hl.trans ?_⟩
      rw [hcons.stage, stage_setStage_same]
    · exact ⟨.refl _ d, _, rfl⟩

theorem doneSlot_frees (m : Mem) (hc : c < 64) (v n : Nat) (hd : Clean d) : Works (.oneStage c v) d (d.doneSlot m c v n) ∧
    ∃ l, ((d.doneSlot m c v n).ctx c).stage v = { (d.ctx c).stage v with fwdDone := l } := by
  have hset : Works (.oneStage c v) d (d.setStage c v { (d.ctx c).stage v with fwdDone := n :: ((d.ctx c).stage v).fwdDone }) := works_stage _ v
  obtain ⟨hworks, l, hl⟩ := freeSlots_frees m hc v 1025 (hset.clean hd)
  refine ⟨hset.trans hworks, l, hl.trans ?_⟩
  rw [stage_setStage_same]

theorem stage_updLog (d : Dev) (c v : Nat) (g : Log → Log) : ((d.updLog c g).ctx c).stage v = (d.ctx c).stage v := by
  rw [Dev.updLog, Dev.ctx_setCtx_same]
  rfl

theorem discardDropped_works (v : Nat) (mb : BitVec 16) : Works (.oneStage c v) d (d.discardDropped c v mb) ∧
    ((d.discardDropped c v mb).ctx c).stage v = (d.ctx c).stage v := by
  unfold Dev.discardDropped
  extract_lets l busy drop f
  have hlog : Works (.oneStage c v) d f := works_updLog c _
  unfold Dev.bumpIf
  split
  · exact ⟨hlog.trans (works_bump trivial), (stage_of_ctxs (d := f) rfl c v).trans (stage_updLog d c v _)⟩
  · exact ⟨hlog, stage_updLog d c v _⟩

theorem retireDue_kept {v : Nat} (h : ((d.ctx c).stage v).retireNow = false) (m : Mem) : d.retireDue m c v = d := by
  unfold Dev.retireDue
  dsimp only
  rw [if_neg (by simp [h])]

/-- What a BACKWARD item that used only the stage's current version leaves: its own references and slots are freed. -/
theorem backwardDone_leaves (m : Mem) {v : Nat} {i : Item} (hc : c < 64) (hd : Clean d) (howners : i.owners = [(v, false)])
    (hretire : ((d.ctx c).stage v).retireNow = false) : Works (.oneStage c v) d (d.backwardDone m c v i) ∧
    (((d.backwardDone m c v i).ctx c).stage v).bwdItem = none ∧ (((d.backwardDone m c v i).ctx c).stage v).curRefs = ((d.ctx c).stage v).curRefs - 1 ∧
    ((d.ctx c).isFirst v = true → (((d.backwardDone m c v i).ctx c).stage v).bwdOut = ((d.ctx c).stage v).bwdOut) ∧
    ((d.ctx c).isFirst v = false → ∃ o : Delivery, (((d.backwardDone m c v i).ctx c).stage v).bwdOut = some o ∧ o.target = 2 ∧ o.phase = 0) := by
  unfold Dev.backwardDone
  extract_lets x r d₁ d₂ d₃ d₄ d₅ n d₆
  have hw₁ : Works (.oneStage c v) d d₁ := works_stage _ v
  have hs₁ : (d₁.ctx c).stage v = { (d.ctx c).stage v with bwdItem := none } := stage_updStage_same d c v _
  have h₂ : d₂ = d₁.updStage c v (fun s => { s with curRefs := s.curRefs - 1 }) := by
    unfold d₂
    rw [howners, Dev.each_cons, Dev.each_nil]
    exact retireDue_kept (by rw [stage_updStage_same, if_neg Bool.false_ne_true, hs₁]; exact hretire) m
  have hw₂ : Works (.oneStage c v) d d₂ := hw₁.trans (h₂ ▸ works_stage _ v)
  have hs₂ : (d₂.ctx c).stage v = { (d.ctx c).stage v with bwdItem := none, curRefs := ((d.ctx c).stage v).curRefs - 1 } := by
    rw [h₂, stage_updStage_same, hs₁]
  obtain ⟨hw₃, hs₃⟩ : Works (.oneStage c v) d₂ d₃ ∧ (d₃.ctx c).stage v = (d₂.ctx c).stage v := discardDropped_works v i.mb
  have hc₃ := (hw₂.trans hw₃).clean hd
  obtain ⟨hw₄, u, b, hs₄⟩ : Works (.oneStage c v) d₃ d₄ ∧ ∃ u b, (d₄.ctx c).stage v = { (d₃.ctx c).stage v with stashUsed := u, screeBlocks := b } :=
    freeStash_frees m hc hc₃ v _
  obtain ⟨hw₅, l, hs₅⟩ : Works (.oneStage c v) d₄ d₅ ∧ ∃ l, (d₅.ctx c).stage v = { (d₄.ctx c).stage v with fwdDone := l } :=
    doneSlot_frees m hc v i.slot (hw₄.clean hc₃)
  have hcons : d₅.CalmTo d₆ := calm_setCons m hc (hw₅.clean (hw₄.clean hc₃)) v _ _
  have hw : Works (.oneStage c v) d d₆ := (((hw₂.trans hw₃).trans hw₄).trans hw₅).trans (works_of_calm hcons)
  have hs : (d₆.ctx c).stage v = { (d.ctx c).stage v with bwdItem := none, curRefs := ((d.ctx c).stage v).curRefs - 1, stashUsed := u, screeBlocks := b, fwdDone := l } := by
    rw [hcons.stage, hs₅, hs₄, hs₃, hs₂]
  clear_value d₆
  cases hfirst : x.isFirst v with
  | true =>
    rw [if_pos rfl, hs]
    exact ⟨hw, rfl, rfl, fun _ => rfl, fun h => Bool.noConfusion h⟩
  | false =>
    rw [if_neg Bool.false_ne_true, setOut_eq, if_pos rfl, stage_setStage_same, hs]
    exact ⟨hw.trans (works_stage _ v), rfl, rfl, fun h => Bool.noConfusion h, fun _ => ⟨_, rfl, rfl, rfl⟩⟩

end

theorem itemDone_backward (s : State) (c : Fin 64) (v : Fin 8) (i : Item) (hitem : ((s.dev.ctx c).stage v).bwdItem = some i)
    (hstate : (s.dev.ctx c).pipe.state = .running) (hstarted : i.started = true) (hsums : i.sums = [])
    (hdone : (s.dev.tile (leadTile ((s.dev.ctx c).unitMask v 1))).sem 15 = true) (howners : i.owners = [(v.val, false)])
    (hretire : ((s.dev.ctx c).stage v).retireNow = false) (hgood : NoBad s) :
    Ends (.itemDone c v 1) s (fun u => ((u.dev.ctx c).stage v).bwdItem = none ∧ ((u.dev.ctx c).stage v).curRefs = ((s.dev.ctx c).stage v).curRefs - 1 ∧
      ((s.dev.ctx c).isFirst v = true → ((u.dev.ctx c).stage v).bwdOut = ((s.dev.ctx c).stage v).bwdOut) ∧
      ((s.dev.ctx c).isFirst v = false → ∃ o : Delivery, ((u.dev.ctx c).stage v).bwdOut = some o ∧ o.target = 2 ∧ o.phase = 0) ∧
      (u.dev.tile (leadTile ((s.dev.ctx c).unitMask v 1))).sem 15 = false ∧ u.dev.regs = s.dev.regs) := by
  obtain ⟨t, ht⟩ : ∃ t, t = leadTile ((s.dev.ctx c).unitMask v 1) := ⟨_, rfl⟩
  obtain ⟨d, hd⟩ : ∃ d, d = s.begin.clearSem t 15 := ⟨_, rfl⟩
  have hclean : Clean d := hd ▸ (works_clearSem (w := doneArea t (fun _ => True) fun _ _ => True) rfl).clean (clean_begin hgood)
  obtain ⟨hregs, -, -, -, hctxs, -⟩ := clearSem_fields s.begin t 15
  obtain ⟨hsem, -⟩ := clearSem_tiles s.begin t 15
  rw [← hd] at hregs hctxs hsem
  have hctx : d.ctx c = s.dev.ctx c := by rw [Dev.ctx, hctxs]; rfl
  obtain ⟨hworks, hbwd, hrefs, hfirst, hother⟩ := backwardDone_leaves s.mem c.isLt hclean howners (by rw [hctx]; exact hretire)
  rw [hctx] at hrefs hfirst hother
  have heffect : xItemDone c v 1 s.mem s.begin = d.backwardDone s.mem c v i :=
    (xItemDone_ends (d := s.begin) (u := 1) hitem hstate hstarted hsums hdone).trans (by rw [if_neg (by decide), if_pos rfl, hd, ht]; rfl)
  rw [← ht]
  refine ends_of_run (x := xItemDone c v 1) rfl heffect ⟨?_, ?_, ?_, ?_, ?_, (hworks.regs id).trans hregs⟩
  case refine_5 => exact (congrArg (Tile.sem · 15) (hworks.tile t id)).trans hsem
  all_goals rw [Dev.ctx_commit]
  · exact hbwd
  · exact hrefs
  · exact hfirst
  · exact hother

end Sys2Proof.Machine
end

section
/-! Updates that end, versions that retire, and the control word of a pipeline (R314, R317, R322, R323). -/

namespace Sys2Proof.Machine

open Sys2Proof.Claims (Ends Quiet Heard NoBad)

/-! UPDATE_SUM_COMPLETE (R317 step 5). -/

/-- Any memory, and nothing else. -/
def Area.memory : Area := ⟨fun _ => True, fun _ => False, fun _ => False, fun _ _ => False, False⟩

section
variable {d e : Dev} {c : Nat}

theorem works_sumDone (m : Mem) (hc : c < 64) (hd : Clean d) (v k : Nat) (i : Item) : Works .memory d (d.sumDone m c v k i) := by
  have hmem : ∀ a, Area.memory.mem a := fun _ => trivial
  unfold Dev.sumDone
  extract_lets t z e r sum d₁ d₂
  have h₁ : Works .memory d d₁ := works_finishRecord m hd hc hmem
  have h₂ : Works .memory d d₂ := by
    unfold d₂
    split
    · exact h₁
    · exact h₁.trans (works_finishLedger m (h₁.clean hd) hc hmem)
  cases e with
  | none => exact h₂
  | some e =>
    have h₃ : Works .memory d (d₂.newVstep m c e t) := h₂.trans (works_newVstep m (h₂.clean hd) hc hmem)
    exact h₃.trans (works_setFlags m (h₃.clean hd) hc hmem fun _ _ h => Bool.noConfusion h)

/-- The last record of an UPDATE: the stage steps its version. -/
theorem xUpdateSumComplete_last {m : Mem} {v k : Nat} {i : Item} (hitem : ((d.ctx c).stage v).updItem = some i) (hkind : i.kind = .update)
    (hsums : i.sums = [k]) (hstate : (d.ctx c).pipe.state = .running) :
    xUpdateSumComplete c v k m d = ((d.sumDone m c v k i).updStage c v (fun s => { s with updItem := none })).stepVersion m c v i.step := by
  have hoff : (PipeState.running == PipeState.off) = false := by decide
  have hfault : (PipeState.running == PipeState.fault) = false := by decide
  have hmirror : (ItemKind.update == ItemKind.mirror) = false := by decide
  have happly : (ItemKind.update == ItemKind.apply) = false := by decide
  unfold xUpdateSumComplete
  simp only [hitem, hstate, hsums, hkind, hoff, hfault, hmirror, happly, List.contains_cons, BEq.rfl, Bool.true_or, Bool.not_true, Bool.or_self,
    Bool.false_eq_true, if_false, List.filter_cons, bne_self_eq_false, List.filter_nil, List.isEmpty_nil, Bool.false_and]

theorem ctxPipe_apart (c v : Nat) : Reg.ctxPipeCurStep c v ≠ Reg.ctxPipePrevStep c v ∧ Reg.ctxPipePrevStep c v ≠ Reg.ctxPipeCurStep c v := by
  unfold Reg.ctxPipeCurStep Reg.ctxPipePrevStep
  omega

/-- A stage whose version has stepped to `t`. -/
def Stage.stepped (s : Stage) (t : BitVec 32) (now : BitVec 64) : Stage :=
  { s with prevStep := s.curStep, prevRefs := s.curRefs, curStep := t, curRefs := 0, prevLive := true, prevIdleLt := now }

/-- A new version becomes current, and the one before it is kept for its references. -/
theorem stepVersion_leaves (m : Mem) (v : Nat) (t : BitVec 32) (h : ((d.ctx c).stage v).retireNow = false) :
    ((d.stepVersion m c v t).ctx c).stage v = ((d.ctx c).stage v).stepped t d.lode.count ∧
    (d.stepVersion m c v t).count (Reg.ctxPipeUpdates c v) = d.count (Reg.ctxPipeUpdates c v) + 1 ∧
    (d.stepVersion m c v t).reg (Reg.ctxPipeCurStep c v) = t ∧ (d.stepVersion m c v t).tiles = d.tiles := by
  unfold Dev.stepVersion
  extract_lets d₁ x d₂
  have hstage : (d₁.ctx c).stage v = ((d.ctx c).stage v).stepped t d.lode.count := stage_updStage_same d c v _
  have hstage₂ : ((d₂.bump (Reg.ctxPipeUpdates c v)).ctx c).stage v = (d₁.ctx c).stage v := rfl
  rw [retireDue_kept (by rw [hstage₂, hstage]; exact h)]
  refine ⟨hstage₂.trans hstage, Dev.count_bump_same d₂ _, ?_, rfl⟩
  have hreg : (d₂.bump (Reg.ctxPipeUpdates c v)).reg (Reg.ctxPipeCurStep c v) = d₂.reg (Reg.ctxPipeCurStep c v) := rfl
  have hcur : x.curStep = t := congrArg Stage.curStep hstage
  rw [hreg, Dev.reg_setReg, if_neg (ctxPipe_apart c v).2, Dev.reg_setReg_same, hcur]

end

theorem updateSumComplete_ends (s : State) (c : Fin 64) (v : Fin 8) (k : Fin 1024) (i : Item) (hitem : ((s.dev.ctx c).stage v).updItem = some i)
    (hkind : i.kind = .update) (hsums : i.sums = [k.val]) (hstate : (s.dev.ctx c).pipe.state = .running)
    (hretire : ((s.dev.ctx c).stage v).retireNow = false) (hgood : NoBad s) :
    Ends (.updateSumComplete c v k) s (fun u => ((u.dev.ctx c).stage v).updItem = none ∧ ((u.dev.ctx c).stage v).curStep = i.step ∧
      ((u.dev.ctx c).stage v).prevStep = ((s.dev.ctx c).stage v).curStep ∧ ((u.dev.ctx c).stage v).prevRefs = ((s.dev.ctx c).stage v).curRefs ∧
      ((u.dev.ctx c).stage v).curRefs = 0 ∧ ((u.dev.ctx c).stage v).prevLive = true ∧
      u.dev.count (Reg.ctxPipeUpdates c v) = s.dev.count (Reg.ctxPipeUpdates c v) + 1 ∧ u.dev.reg (Reg.ctxPipeCurStep c v) = i.step ∧
      u.dev.tiles = s.dev.tiles) := by
  obtain ⟨d, hd⟩ : ∃ d, d = (s.begin.sumDone s.mem c v k i).updStage c v (fun s => { s with updItem := none }) := ⟨_, rfl⟩
  have hsum := works_sumDone s.mem c.isLt (clean_begin hgood) v.val k.val i
  have hstage : (d.ctx c).stage v = { (s.dev.ctx c).stage v with updItem := none } := by
    rw [hd, stage_updStage_same, hsum.stage _ _ id]
    rfl
  have hcount : d.count (Reg.ctxPipeUpdates c v) = s.dev.count (Reg.ctxPipeUpdates c v) := by
    rw [hd]
    exact hsum.count _ (steady_updates c v) id
  have htiles : d.tiles = s.dev.tiles := by
    rw [hd]
    exact hsum.tiles fun _ h => h
  obtain ⟨hstep, hupdates, hreg, htiles'⟩ := stepVersion_leaves (d := d) (c := c) s.mem v.val i.step (by rw [hstage]; exact hretire)
  have heffect : xUpdateSumComplete c v k s.mem s.begin = d.stepVersion s.mem c v i.step :=
    (xUpdateSumComplete_last (d := s.begin) hitem hkind hsums hstate).trans (by rw [hd])
  refine ends_of_run (x := xUpdateSumComplete c v k) rfl heffect ⟨?_, ?_, ?_, ?_, ?_, ?_, hupdates.trans (by rw [hcount]), hreg, htiles'.trans htiles⟩
  all_goals
    rw [Dev.ctx_commit, hstep, hstage]
    rfl

/-! Versions that retire (R314). -/

section
variable {d e : Dev} {c : Nat}

/-- The shards of a stage that it owns, where the table and memory are as before. -/
theorem ownedShards_congr {d e : Dev} (hregs : e.regs = d.regs) (htable : (e.ctx c).pipe.table = (d.ctx c).pipe.table) (hstores : e.stores = d.stores)
    (hwipes : e.wipes = d.wipes) (m : Mem) (v : Nat) : e.ownedShards m c v = d.ownedShards m c v := by
  obtain ⟨-, -, -, -, hcount, hlist, -⟩ := table_reads htable
  have hentry : ∀ i, e.shardEntry m c v i = d.shardEntry m c v i := fun i => by
    rw [Dev.shardEntry, hlist, peekLE, peekN_congr hstores hwipes, Dev.shardEntry, peekLE]
  have hledger : ∀ x, e.ledger m x = d.ledger m x := fun x => by
    rw [Dev.ledger, peekLE, peekN_congr hstores hwipes, Dev.ledger, peekLE]
  have hlocal : ∀ g, e.isLocal g = d.isLocal g := fun g => by
    rw [Dev.isLocal, Dev.node, Dev.rf, Dev.reg, hregs]
    rfl
  simp only [Dev.ownedShards, Dev.localShards, Dev.shards, hcount, hentry, hledger, hlocal]

/-- A version that retires: the stage says so, and so do the ledgers of the shards it owns. -/
theorem retireVersion_leaves (m : Mem) (hc : c < 64) (hd : Clean d) (v : Nat) : Works (.oneStage c v) d (d.retireVersion m c v) ∧
    ((d.retireVersion m c v).ctx c).stage v = { (d.ctx c).stage v with prevLive := false, retireNow := false } ∧
    (d.ownedShards m c v = [] → (d.retireVersion m c v).stores = d.stores) := by
  have hset : Works (.oneStage c v) d (d.updStage c v (fun s => { s with prevLive := false, retireNow := false })) := works_stage _ v
  have howned : (d.updStage c v (fun s => { s with prevLive := false, retireNow := false })).ownedShards m c v = d.ownedShards m c v := by
    obtain ⟨hregs, -, -, hstores, hwipes⟩ := updStage_fields d c v (fun s => { s with prevLive := false, retireNow := false })
    exact ownedShards_congr hregs (hset.table c) hstores hwipes m v
  have hcalm : (d.updStage c v (fun s => { s with prevLive := false, retireNow := false })).CalmTo (d.retireVersion m c v) := by
    refine calm_each (fun e he i _ => ?_) (hset.clean hd)
    dsimp only
    split
    · exact calm_write m hc he _ _
    · exact .refl _ e
  refine ⟨hset.trans (works_of_calm hcalm), ?_, fun hnone => ?_⟩
  · rw [hcalm.stage, stage_updStage_same]
  · unfold Dev.retireVersion
    dsimp only
    rw [howned, hnone]
    rfl

/-- What is done for each stage of a list at itself alone. -/
theorem each_stages {R : Stage → Stage → Prop} {f : Dev → Nat → Dev} {l : List Nat} (hl : l.Nodup)
    (hf : ∀ e, Clean e → ∀ v, Works (.oneStage c v) e (f e v) ∧ R ((e.ctx c).stage v) (((f e v).ctx c).stage v)) (hd : Clean d) :
    Works .stages d (d.each l f) ∧ ∀ v ∈ l, R ((d.ctx c).stage v) (((d.each l f).ctx c).stage v) := by
  refine ⟨Works.each (fun e _ he v _ => (hf e he v).1.ofOneStage) hd, ?_⟩
  induction l generalizing d with
  | nil => exact fun _ h => absurd h List.not_mem_nil
  | cons w l ih =>
    obtain ⟨hw, hrest⟩ := List.nodup_cons.mp hl
    obtain ⟨hworks, hR⟩ := hf d hd w
    have hclean := hworks.clean hd
    intro v hv
    rw [Dev.each_cons]
    rcases List.mem_cons.mp hv with rfl | hvl
    · have hkeeps : Works ⟨fun _ => True, fun _ => False, fun _ => True, fun _ u => u ≠ v, False⟩ (f d v) ((f d v).each l f) :=
        Works.each (fun e _ he u hu => (hf e he u).1.mono (fun _ => id) (fun _ => id) (fun _ => id)
          (fun _ z hz hzv => hw (hzv ▸ hz.2 ▸ hu)) id) hclean
      rw [hkeeps.stage c v fun h => h rfl]
      exact hR
    · have hwv : v ≠ w := fun h => hw (h ▸ hvl)
      have hother := hworks.stage c v fun h => hwv h.2
      exact hother ▸ ih hrest hclean v hvl

theorem stageList_nodup (x : Ctx) : x.stageList.Nodup := List.nodup_range.filter _

/-- A version that is told to retire does so without references, or when they have fallen. -/
theorem retireNow_leaves (m : Mem) (hc : c < 64) (hd : Clean d) : Works .stages d (d.retireNow m c) ∧
    ∀ v ∈ (d.ctx c).stageList, ((d.ctx c).stage v).prevLive = true →
      (((d.ctx c).stage v).prevRefs = 0 → (((d.retireNow m c).ctx c).stage v).prevLive = false) ∧
      (((d.ctx c).stage v).prevRefs ≠ 0 → ((d.retireNow m c).ctx c).stage v = { (d.ctx c).stage v with retireNow := true }) := by
  refine each_stages (R := fun x y => x.prevLive = true → (x.prevRefs = 0 → y.prevLive = false) ∧ (x.prevRefs ≠ 0 → y = { x with retireNow := true }))
    (stageList_nodup _) (fun e he v => ?_) hd
  dsimp only
  split
  case isTrue h => exact ⟨.refl _ e, fun hlive => by rw [hlive] at h; exact Bool.noConfusion h⟩
  case isFalse =>
    split
    case isTrue hrefs =>
      obtain ⟨hworks, hstage, -⟩ := retireVersion_leaves m hc he v
      exact ⟨hworks, fun _ => ⟨fun _ => by rw [hstage], fun h => absurd hrefs h⟩⟩
    case isFalse hrefs => exact ⟨works_stage _ v, fun _ => ⟨fun h => absurd h hrefs, fun _ => stage_updStage_same e c v _⟩⟩

end

theorem versionRetire_ends (s : State) (c : Fin 64) (v : Fin 8) (hlive : ((s.dev.ctx c).stage v).prevLive = true)
    (hrefs : ((s.dev.ctx c).stage v).prevRefs = 0)
    (hhold : s.dev.rf (Reg.ctxPipeCtrl c) 19 0 ≤ (s.dev.lode.count - ((s.dev.ctx c).stage v).prevIdleLt).toNat) (hgood : NoBad s) :
    Ends (.versionRetire c v) s (fun u => (u.dev.ctx c).stage v = { (s.dev.ctx c).stage v with prevLive := false, retireNow := false } ∧
      (s.begin.ownedShards s.mem c v = [] → u.mem = s.mem) ∧ u.dev.regs = s.dev.regs ∧ u.dev.tiles = s.dev.tiles) := by
  obtain ⟨hworks, hstage, hstores⟩ := retireVersion_leaves (c := c) s.mem c.isLt (clean_begin hgood) v.val
  have heffect : xVersionRetire c v s.mem s.begin = s.begin.retireVersion s.mem c v := by
    unfold xVersionRetire
    dsimp only
    refine if_pos ?_
    rw [Bool.and_eq_true, Bool.and_eq_true, decide_eq_true_eq, decide_eq_true_eq]
    exact ⟨⟨hlive, hrefs⟩, hhold⟩
  refine ends_of_run (x := xVersionRetire c v) rfl heffect ⟨?_, fun hnone => s.commit_mem _ (hstores hnone) hworks.wipes, hworks.regs id, hworks.tiles fun _ => id⟩
  rw [Dev.ctx_commit, hstage]
  rfl

theorem versionRetire_held (s : State) (c : Fin 64) (v : Fin 8) (hrefs : ((s.dev.ctx c).stage v).prevRefs ≠ 0) : Quiet (.versionRetire c v) s s.begin := by
  refine quiet_of_run (x := xVersionRetire c v) rfl ?_ rfl rfl
  unfold xVersionRetire
  dsimp only
  refine if_neg ?_
  rw [Bool.and_eq_true, Bool.and_eq_true, decide_eq_true_eq]
  exact fun h => hrefs h.1.2

/-! The control word (R322, R325). -/

theorem fb_pipeCmd (d : Dev) (c : Nat) {cmd : Nat} (hcmd : cmd < 8) : fb (d.pipeCmd c cmd) 30 28 = cmd := by
  rw [Dev.pipeCmd, fb_ofNat_setFld 32 _ 30 28 cmd (d.reg _).isLt (by decide) (by decide)]
  exact Nat.mod_eq_of_lt hcmd

theorem getLsbD_pipeCmd (d : Dev) (c cmd : Nat) : (d.pipeCmd c cmd).getLsbD 31 = d.rb (Reg.ctxPipeCtrl c) 31 := by
  have hfld : fld (setFld (d.reg (Reg.ctxPipeCtrl c)).toNat 30 28 cmd) 31 31 = fld (d.reg (Reg.ctxPipeCtrl c)).toNat 31 31 :=
    fld_setFld_above _ _ _ _ _ _ (by decide) (by decide)
  have htest := congrArg (fun x => x.testBit 0) hfld
  rw [Dev.pipeCmd, BitVec.getLsbD_ofNat, Dev.rb, BitVec.getLsbD]
  simpa [fld, Nat.testBit_mod_two_pow, Nat.testBit_shiftRight] using htest

section
variable {d : Dev} {c : Nat} {v : BitVec 32}

/-- A write that leaves ENABLE as it stands does its CMD. -/
theorem pipeCtrlWrite_retire (m : Mem) : d.pipeCtrlWrite m c (d.pipeCmd c 2) = (d.putReg (Reg.ctxPipeCtrl c) (d.pipeCmd c 2)).retireNow m c := by
  unfold Dev.pipeCtrlWrite
  simp only [fb_pipeCmd d c (show 2 < 8 by decide), getLsbD_pipeCmd, Bool.not_and_self, Bool.and_not_self, Bool.false_eq_true, if_false, if_true,
    show ¬ (3 ≤ 2) by decide, show ¬ (2 = 1) by decide, decide_false, Bool.false_and]

theorem pipeCtrlWrite_flush (m : Mem) (hstate : (d.ctx c).pipe.state = .stopped) :
    d.pipeCtrlWrite m c (d.pipeCmd c 1) = (d.putReg (Reg.ctxPipeCtrl c) (d.pipeCmd c 1)).pipeFlush m c := by
  have hstopped : (PipeState.stopped == PipeState.stopped) = true := by decide
  unfold Dev.pipeCtrlWrite
  simp only [fb_pipeCmd d c (show 1 < 8 by decide), getLsbD_pipeCmd, Bool.not_and_self, Bool.and_not_self, Bool.false_eq_true, if_false, if_true,
    show ¬ (3 ≤ 1) by decide, decide_true, Bool.true_and, hstate, hstopped, Bool.or_true]

theorem pipeCtrlWrite_disable (m : Mem) (hcmd : fb v 30 28 = 0) (hwas : d.rb (Reg.ctxPipeCtrl c) 31 = true) (hnow : v.getLsbD 31 = false) :
    d.pipeCtrlWrite m c v = (d.putReg (Reg.ctxPipeCtrl c) v).setCtx c { d.ctx c with pipe := { (d.ctx c).pipe with state := .stopped } } := by
  unfold Dev.pipeCtrlWrite
  simp only [hcmd, hwas, hnow, Bool.not_true, Bool.not_false, Bool.and_self, Bool.false_and, Bool.false_eq_true, if_false, if_true, show ¬ (3 ≤ 0) by decide,
    show ¬ (0 = 1) by decide, show ¬ (0 = 2) by decide, decide_false]
  rfl

theorem pipeCtrlWrite_enable (m : Mem) (hcmd : fb v 30 28 = 0) (hwas : d.rb (Reg.ctxPipeCtrl c) 31 = false) (hnow : v.getLsbD 31 = true) :
    d.pipeCtrlWrite m c v = (d.putReg (Reg.ctxPipeCtrl c) v).pipeStart m c := by
  unfold Dev.pipeCtrlWrite
  simp only [hcmd, hwas, hnow, Bool.not_false, Bool.and_self, Bool.false_and, Bool.false_eq_true, if_false, if_true, show ¬ (3 ≤ 0) by decide,
    show ¬ (0 = 1) by decide, show ¬ (0 = 2) by decide, decide_false]

end

theorem pipeDisable_ends (s : State) (r : Requester) (c : Fin 64) (v : BitVec 32) (hheard : Heard s r (Reg.ctxPipeCtrl c) v)
    (hmay : s.dev.mayWriteCtx r c = true) (hcmd : fb v 30 28 = 0) (hwas : s.dev.rb (Reg.ctxPipeCtrl c) 31 = true) (hnow : v.getLsbD 31 = false) :
    Ends (.pipeEnable r c v) s (fun u => (u.dev.ctx c).pipe = { (s.dev.ctx c).pipe with state := .stopped } ∧ u.mem = s.mem ∧
      u.dev.tiles = s.dev.tiles ∧ u.dev.counters = s.dev.counters) := by
  refine ends_of_heard (perm := fun d => d.mayWriteCtx r c) (x := fun m d => (d.pipeCtrlWrite m c v, stOK)) rfl hheard hmay
    (congrArg (·, stOK) (pipeCtrlWrite_disable (d := s.begin) s.mem hcmd hwas hnow)) ⟨?_, s.commit_mem _ rfl rfl, rfl, rfl⟩
  exact congrArg Ctx.pipe (Dev.ctx_setCtx_same (s.begin.putReg (Reg.ctxPipeCtrl c) v) c _)

theorem pipeRetireNow_ends (s : State) (r : Requester) (c : Fin 64) (hheard : Heard s r (Reg.ctxPipeCtrl c) (s.dev.pipeCmd c 2))
    (hmay : s.dev.mayWriteCtx r c = true) (hgood : NoBad s) :
    Ends (.pipeRetireNow r c) s (fun u =>
      (∀ v, v ∈ (s.dev.ctx c).stageList → ((s.dev.ctx c).stage v).prevLive = true →
        (((s.dev.ctx c).stage v).prevRefs = 0 → ((u.dev.ctx c).stage v).prevLive = false) ∧
        (((s.dev.ctx c).stage v).prevRefs ≠ 0 → (u.dev.ctx c).stage v = { (s.dev.ctx c).stage v with retireNow := true })) ∧
      (u.dev.ctx c).pipe.state = (s.dev.ctx c).pipe.state ∧ u.dev.tiles = s.dev.tiles) := by
  obtain ⟨d, hd⟩ : ∃ d, d = s.begin.putReg (Reg.ctxPipeCtrl c) (s.begin.pipeCmd c 2) := ⟨_, rfl⟩
  have hclean : Clean d := hd ▸ ⟨(clean_begin hgood).bursts, (clean_begin hgood).words⟩
  have hctx : d.ctx c = s.dev.ctx c := by rw [hd]; rfl
  have htiles : d.tiles = s.dev.tiles := by rw [hd]; rfl
  obtain ⟨hworks, hstages⟩ := retireNow_leaves (d := d) s.mem c.isLt hclean
  rw [hctx] at hstages
  refine ends_of_heard (perm := fun d => d.mayWriteCtx r c) (x := fun m d => (d.pipeCtrlWrite m c (d.pipeCmd c 2), stOK)) (d := d.retireNow s.mem c) (st := stOK) rfl
    hheard hmay ?_ ⟨?_, ?_, (hworks.tiles fun _ => id).trans htiles⟩
  · exact congrArg (·, stOK) ((pipeCtrlWrite_retire (d := s.begin) s.mem).trans (by rw [hd]))
  · exact hstages
  · exact (sansWork_fields (hworks.ctx c)).2.1.trans (by rw [hctx])

end Sys2Proof.Machine
end

section
/-! FLUSH and the delivery of an output within the package (R307, R323). -/

namespace Sys2Proof.Machine

open Sys2Proof.Claims (Ends Heard NoBad EngineReaches Holds)

/-! FLUSH (R323). -/

/-- A stage that holds nothing. -/
def Stage.empty (s : Stage) : Prop := s.curRefs = 0 ∧ s.prevRefs = 0 ∧ s.prevLive = false ∧ s.stashUsed = [] ∧ s.fwdOut = none

section
variable {d e : Dev} {c : Nat}

theorem flushStage_empties (m : Mem) (hc : c < 64) (hd : Clean d) (v : Nat) : Works (.oneStage c v) d (d.flushStage m c v) ∧
    (((d.flushStage m c v).ctx c).stage v).empty := by
  unfold Dev.flushStage
  extract_lets x held d₁ fp bp d₂ d₃ d₄ d₅
  have h₁ : Works (.oneStage c v) d d₁ := Works.each (fun e _ he n _ => (freeStash_frees m hc he v _).1) hd
  have h₂ : d₁.CalmTo d₂ := calm_setCons m hc (h₁.clean hd) v _ fp
  have h₃ : d₂.CalmTo d₃ := calm_setCons m hc (h₂.clean (h₁.clean hd)) v _ bp
  have h₄ : Works (.oneStage c v) d d₄ := ((h₁.trans (works_of_calm h₂)).trans (works_of_calm h₃)).trans (works_stage _ v)
  have hs₄ : (d₄.ctx c).stage v = _ := stage_updStage_same d₃ c v _
  have h₅ : Works (.oneStage c v) d d₅ ∧ ((d₅.ctx c).stage v).empty := by
    unfold d₅
    split
    case isTrue =>
      obtain ⟨hworks, hstage, -⟩ := retireVersion_leaves m hc (h₄.clean hd) v
      refine ⟨h₄.trans hworks, ?_⟩
      rw [hstage, hs₄]
      exact ⟨rfl, rfl, rfl, rfl, rfl⟩
    case isFalse hlive =>
      rw [Bool.not_eq_true] at hlive
      refine ⟨h₄, ?_, ?_, hlive, ?_, ?_⟩ <;> rw [hs₄]
  have hcalm : d₅.CalmTo (d₅.each (d₅.ownedShards m c v) (fun d i =>
      let z := d.shardEntry m c v i
      d.putLedger m c z (setFld (d.ledger m z) 6 6 0))) := calm_each (fun e he _ _ => calm_write m hc he _ _) (h₅.1.clean hd)
  refine ⟨h₅.1.trans (works_of_calm hcalm), ?_⟩
  rw [hcalm.stage]
  exact h₅.2

theorem pipeFlush_empties (m : Mem) (hc : c < 64) (hd : Clean d) : Works .stages d (d.pipeFlush m c) ∧
    ∀ v ∈ (d.ctx c).stageList, (((d.pipeFlush m c).ctx c).stage v).empty := by
  obtain ⟨hworks, hstages⟩ := each_stages (R := fun _ y => y.empty) (stageList_nodup (d.ctx c)) (fun e he v => flushStage_empties m hc he v) hd
  unfold Dev.pipeFlush
  extract_lets e n busy keep
  have hlog : Works .stages e (e.updLog c (fun l => { l with pending := l.pending.take keep })) := works_updLog c _
  refine ⟨(hworks.trans hlog).trans (works_bumpN trivial), fun v hv => ?_⟩
  have hstage : (((e.updLog c (fun l => { l with pending := l.pending.take keep })).bumpN (Reg.ctxLogDiscarded c) (n - keep)).ctx c).stage v = (e.ctx c).stage v :=
    (stage_of_ctxs (d := e.updLog c (fun l => { l with pending := l.pending.take keep })) rfl c v).trans (stage_updLog e c v _)
  rw [hstage]
  exact hstages v hv

end

theorem pipeFlush_ends (s : State) (r : Requester) (c : Fin 64) (hheard : Heard s r (Reg.ctxPipeCtrl c) (s.dev.pipeCmd c 1))
    (hmay : s.dev.mayWriteCtx r c = true) (hstate : (s.dev.ctx c).pipe.state = .stopped) (hgood : NoBad s) :
    Ends (.pipeFlush r c) s (fun u => (u.dev.ctx c).pipe.state = .stopped ∧
      (∀ v, v ∈ (s.dev.ctx c).stageList → ((u.dev.ctx c).stage v).curRefs = 0 ∧ ((u.dev.ctx c).stage v).prevRefs = 0 ∧
        ((u.dev.ctx c).stage v).prevLive = false ∧ ((u.dev.ctx c).stage v).stashUsed = [] ∧ ((u.dev.ctx c).stage v).fwdOut = none) ∧
      u.dev.tiles = s.dev.tiles) := by
  obtain ⟨d, hd⟩ : ∃ d, d = s.begin.putReg (Reg.ctxPipeCtrl c) (s.begin.pipeCmd c 1) := ⟨_, rfl⟩
  have hclean : Clean d := hd ▸ ⟨(clean_begin hgood).bursts, (clean_begin hgood).words⟩
  have hctx : d.ctx c = s.dev.ctx c := by rw [hd]; rfl
  have htiles : d.tiles = s.dev.tiles := by rw [hd]; rfl
  obtain ⟨hworks, hstages⟩ := pipeFlush_empties (d := d) s.mem c.isLt hclean
  rw [hctx] at hstages
  refine ends_of_heard (perm := fun d => d.mayWriteCtx r c) (x := fun m d => (d.pipeCtrlWrite m c (d.pipeCmd c 1), stOK)) (d := d.pipeFlush s.mem c) (st := stOK) rfl
    hheard hmay ?_ ⟨?_, hstages, (hworks.tiles fun _ => id).trans htiles⟩
  · exact congrArg (·, stOK) ((pipeCtrlWrite_flush (d := s.begin) s.mem hstate).trans (by rw [hd]))
  · exact (sansWork_fields (hworks.ctx c)).2.1.trans (by rw [hctx]; exact hstate)

/-! Delivery to the own backward ring (R307). -/

theorem gOffset_here (d : Dev) {a : Nat} (h : a < 2 ^ 41) : gOffset (d.here a) = a := by
  unfold gOffset Dev.here
  omega

theorem isLocal_here (d : Dev) {a : Nat} (h : a < 2 ^ 41) : d.isLocal (d.here a) = true := by
  have hnode : d.node < 2 ^ 23 := by
    unfold Dev.node
    exact fb_lt_two_pow _ 22 0
  rw [Dev.isLocal, beq_iff_eq]
  unfold gNode Dev.here
  omega

theorem slotAt_here (d : Dev) (x : Ctx) (v n : Nat) : d.here (x.bwdRing v) + 256 + n % x.bwdSlots v * x.bwdSlotSize v = d.here (x.bwdSlotAt v n) := by
  unfold Dev.here Ctx.bwdSlotAt
  omega

theorem low_of_isHbm {a : Nat} (h : isHbm a = true) : a < 2 ^ 41 := by
  unfold isHbm at h
  rw [decide_eq_true_eq] at h
  omega

/-- The writes of a delivery to slot `x` of the ring at `r`: payload `p`, record `q` and PROD `w`. -/
def Dev.delivered (d : Dev) (x r : Nat) (p q w : List Byte) : Dev := ((d.pokeN (x + 256) p).pokeN x q).pokeN r w

theorem delivered_fields (d : Dev) (x r : Nat) (p q w : List Byte) : (d.delivered x r p q w).regs = d.regs ∧
    (d.delivered x r p q w).counters = d.counters ∧ (d.delivered x r p q w).tiles = d.tiles ∧ (d.delivered x r p q w).wipes = d.wipes :=
  ⟨rfl, rfl, rfl, rfl⟩

/-- The three writes lie apart, so each is read as it was made. -/
theorem holds_of_delivered (s : State) {d : Dev} {x r : Nat} {p q w : List Byte} (hstores : d.stores = (s.begin.delivered x r p q w).stores)
    (hwipes : d.wipes = []) (hq : q.length = 32) (hw : w.length = 4) (hr : r + 256 ≤ x) : Holds (s.commit d) (x + 256) p ∧ Holds (s.commit d) x q ∧
    Holds (s.commit d) r w ∧ ∀ a, (a < r ∨ r + 4 ≤ a) → (a < x ∨ x + 256 + p.length ≤ a) → (s.commit d).read a = s.read a := by
  have hread : ∀ a, (s.commit d).read a = if r ≤ a ∧ a < r + 4 then w.getD (a - r) 0 else if x ≤ a ∧ a < x + 32 then q.getD (a - x) 0
      else if x + 256 ≤ a ∧ a < x + 256 + p.length then p.getD (a - (x + 256)) 0 else s.read a := fun a => by
    rw [State.read_commit, peek_congr (e := s.begin.delivered x r p q w) hstores hwipes, Dev.delivered, peek_pokeN, peek_pokeN, peek_pokeN, hq, hw,
      peek_of_unwritten s rfl rfl]
  refine ⟨fun i hi => ?_, fun i hi => ?_, fun i hi => ?_, fun a ha ha' => ?_⟩
  · rw [hread, if_neg (by omega), if_neg (by omega), if_pos (by omega), Nat.add_sub_cancel_left]
  · rw [hread, if_neg (by omega), if_pos (by omega), Nat.add_sub_cancel_left]
  · rw [hread, if_pos (by omega), Nat.add_sub_cancel_left]
  · rw [hread, if_neg (by omega), if_neg (by omega), if_neg (by omega)]

section
variable {d : Dev} {c v : Nat} {o : Delivery}

theorem outPayload_length (m : Mem) (d : Dev) (c v : Nat) : (d.outPayload m c v false).length = (d.ctx c).outBytes v := peekN_length _ _ _ _

/-- The ring an output of a LAST stage goes to is that of the own backward pass. -/
theorem targetOf_own (m : Mem) (d : Dev) (c v : Nat) : (d.targetOf m c v 1).ring = d.here ((d.ctx c).bwdRing v) ∧ (d.targetOf m c v 1).head = 256 ∧
    (d.targetOf m c v 1).sent = d.ringProd m ((d.ctx c).bwdRing v) ∧ (d.targetOf m c v 1).cons = d.ringCons m ((d.ctx c).bwdRing v) ∧
    (d.targetOf m c v 1).slots = (d.ctx c).bwdSlots v ∧ ∀ n, (d.targetOf m c v 1).slotAt n = d.here ((d.ctx c).bwdSlotAt v n) :=
  ⟨rfl, rfl, rfl, rfl, rfl, fun n => slotAt_here d (d.ctx c) v n⟩

/-- A delivery to the own backward ring is made at once. -/
theorem deliver_own (m : Mem) {n x r : Nat} (htarget : o.target = 1) (hr : r = (d.ctx c).bwdRing v) (hn : n = d.ringProd m r) (hx : x = (d.ctx c).bwdSlotAt v n)
    (hpay : EngineCan d c (x + 256) ((d.ctx c).outBytes v)) (hrec : EngineCan d c x 32) (hring : EngineCan d c r 4) :
    d.deliver m c v false o = (d.delivered x r (d.outPayload m c v false) (toLE 32 o.rec_.toNat) (toLE 4 ((n + 1) % 2 ^ 32))).deliveredOut c v false
      { o with slot := n } := by
  obtain ⟨hthere, hhead, hsent, -, -, hslot⟩ := targetOf_own m d c v
  rw [← hr] at hthere hsent
  rw [← hn] at hsent
  have hslot' := hslot n
  rw [← hx] at hslot'
  unfold Dev.deliver
  rw [htarget]
  dsimp only
  rw [hsent, hslot', hthere, hhead, gOffset_here d (low_of_isHbm hrec.low), gOffset_here d (low_of_isHbm hring.low),
    isLocal_here d (low_of_isHbm hring.low), if_pos rfl, engineWrite_can hpay (outPayload_length m d c v), engineWrite_can (hrec.pokeN _ _) (toLE_length _ _),
    engineWrite_can ((hring.pokeN _ _).pokeN _ _) (toLE_length _ _)]
  rfl

theorem deliveredOut_fields (d : Dev) (c v : Nat) {o : Delivery} (htarget : o.target = 1) : (((d.deliveredOut c v false o).ctx c).stage v).fwdOut = none ∧
    (d.deliveredOut c v false o).regs = d.regs ∧ (d.deliveredOut c v false o).counters = d.counters ∧ (d.deliveredOut c v false o).tiles = d.tiles ∧
    (d.deliveredOut c v false o).stores = d.stores ∧ (d.deliveredOut c v false o).wipes = d.wipes := by
  refine ⟨?_, rfl, rfl, rfl, rfl, rfl⟩
  unfold Dev.deliveredOut
  dsimp only
  rw [stage_updStage_same, htarget, setOut_eq, stage_setStage_same]
  rfl

/-- An output that waits, with room at its target and few deliveries on the way, goes. -/
theorem xOutputDelivery_goes {m : Mem} (hout : ((d.ctx c).stage v).fwdOut = some o) (hphase : o.phase = 0) (hstate : (d.ctx c).pipe.state = .running)
    (hfew : d.deliveries c < 4) (hcredit : (d.targetOf m c v o.target).credit = true) : xOutputDelivery c v false m d = d.deliver m c v false o := by
  have hout' : ((d.ctx c).stage v).out false = some o := hout
  have hoff : (PipeState.running == PipeState.off) = false := by decide
  have hfault : (PipeState.running == PipeState.fault) = false := by decide
  unfold xOutputDelivery
  simp only [hout', hphase, hstate, hcredit, hoff, hfault, bne_self_eq_false, decide_eq_false (Nat.not_le.mpr hfew), Bool.not_true, Bool.or_self,
    Bool.false_eq_true, if_false]

end

theorem outputDelivery_own (s : State) (c : Fin 64) (v : Fin 8) (o : Delivery) (hout : ((s.dev.ctx c).stage v).fwdOut = some o) (hphase : o.phase = 0)
    (htarget : o.target = 1) (hstate : (s.dev.ctx c).pipe.state = .running) (hfew : s.dev.deliveries c < 4)
    (hcredit : slotsFrom (s.begin.ringProd s.mem ((s.dev.ctx c).bwdRing v)) (s.begin.ringCons s.mem ((s.dev.ctx c).bwdRing v)) < (s.dev.ctx c).bwdSlots v)
    (hpay : EngineReaches s c ((s.dev.ctx c).bwdSlotAt v (s.begin.ringProd s.mem ((s.dev.ctx c).bwdRing v)) + 256) ((s.dev.ctx c).outBytes v))
    (hrec : EngineReaches s c ((s.dev.ctx c).bwdSlotAt v (s.begin.ringProd s.mem ((s.dev.ctx c).bwdRing v))) 32)
    (hring : EngineReaches s c ((s.dev.ctx c).bwdRing v) 4) :
    Ends (.outputDelivery c v false) s (fun u => ((u.dev.ctx c).stage v).fwdOut = none ∧
      Holds u ((s.dev.ctx c).bwdSlotAt v (s.begin.ringProd s.mem ((s.dev.ctx c).bwdRing v)) + 256) (s.begin.outPayload s.mem c v false) ∧
      Holds u ((s.dev.ctx c).bwdSlotAt v (s.begin.ringProd s.mem ((s.dev.ctx c).bwdRing v))) (toLE 32 o.rec_.toNat) ∧
      Holds u ((s.dev.ctx c).bwdRing v) (toLE 4 ((s.begin.ringProd s.mem ((s.dev.ctx c).bwdRing v) + 1) % 2 ^ 32)) ∧
      (∀ a, (a < (s.dev.ctx c).bwdRing v ∨ (s.dev.ctx c).bwdRing v + 4 ≤ a) →
        (a < (s.dev.ctx c).bwdSlotAt v (s.begin.ringProd s.mem ((s.dev.ctx c).bwdRing v)) ∨
          (s.dev.ctx c).bwdSlotAt v (s.begin.ringProd s.mem ((s.dev.ctx c).bwdRing v)) + 256 + (s.dev.ctx c).outBytes v ≤ a) → u.read a = s.read a) ∧
      u.dev.regs = s.dev.regs ∧ u.dev.counters = s.dev.counters ∧ u.dev.tiles = s.dev.tiles) := by
  obtain ⟨r, hr⟩ : ∃ r, r = (s.dev.ctx c).bwdRing v := ⟨_, rfl⟩
  obtain ⟨n, hn⟩ : ∃ n, n = s.begin.ringProd s.mem r := ⟨_, rfl⟩
  obtain ⟨x, hx⟩ : ∃ x, x = (s.dev.ctx c).bwdSlotAt v n := ⟨_, rfl⟩
  simp only [← hr, ← hn, ← hx] at hcredit hpay hrec hring ⊢
  have hroom : (s.begin.targetOf s.mem c v o.target).credit = true := by
    obtain ⟨-, -, hsent, hcons, hslots, -⟩ := targetOf_own s.mem s.begin c v
    rw [htarget, Target.credit, hsent, hcons, hslots]
    have hbegin : (s.begin.ctx c).bwdRing v = r := hr.symm
    rw [hbegin, ← hn]
    exact decide_eq_true hcredit
  obtain ⟨p, hp⟩ : ∃ p, p = s.begin.outPayload s.mem c v false := ⟨_, rfl⟩
  obtain ⟨e, he⟩ : ∃ e, e = s.begin.delivered x r p (toLE 32 o.rec_.toNat) (toLE 4 ((n + 1) % 2 ^ 32)) := ⟨_, rfl⟩
  have hlen : p.length = (s.dev.ctx c).outBytes v := hp ▸ outPayload_length s.mem s.begin c v
  have heffect : xOutputDelivery c v false s.mem s.begin = e.deliveredOut c v false { o with slot := n } := by
    rw [xOutputDelivery_goes (d := s.begin) hout hphase hstate hfew hroom,
      deliver_own (d := s.begin) s.mem htarget hr hn hx (engineCan_of hpay) (engineCan_of hrec) (engineCan_of hring), he, hp]
  obtain ⟨hnone, hregs, hcounters, htiles, hstores, hwipes⟩ := deliveredOut_fields e c v (o := { o with slot := n }) htarget
  obtain ⟨hregs', hcounters', htiles', hwipes'⟩ := delivered_fields s.begin x r p (toLE 32 o.rec_.toNat) (toLE 4 ((n + 1) % 2 ^ 32))
  rw [← he] at hregs' hcounters' htiles' hwipes'
  have hapart : r + 256 ≤ x := by
    rw [hx, hr]
    unfold Ctx.bwdSlotAt
    omega
  obtain ⟨hpay', hrec', hring', hother⟩ := holds_of_delivered s (d := e.deliveredOut c v false { o with slot := n }) (hstores.trans (by rw [he]))
    (hwipes.trans hwipes') (toLE_length _ _) (toLE_length _ _) hapart
  rw [hlen] at hother
  rw [← hp]
  refine ends_of_run (x := xOutputDelivery c v false) rfl heffect ⟨?_, hpay', hrec', hring', hother,
    hregs.trans hregs', hcounters.trans hcounters', htiles.trans htiles'⟩
  rw [Dev.ctx_commit]
  exact hnone

end Sys2Proof.Machine
end

section
/-! A pipeline that is enabled (R322). -/

namespace Sys2Proof.Machine

open Sys2Proof.Claims (Ends Heard NoBad EngineReaches)

/-- `d` with the register words `l`. -/
def Dev.withRegs (d : Dev) (l : Map (BitVec 32)) : Dev := { d with regs := l }

theorem putReg_withRegs (d : Dev) (k : Nat) (v : BitVec 32) : d.putReg k v = d.withRegs (d.putReg k v).regs := rfl

theorem withRegs_fields (d : Dev) (l : Map (BitVec 32)) : (d.withRegs l).ctxs = d.ctxs ∧ (d.withRegs l).tiles = d.tiles ∧
    (d.withRegs l).counters = d.counters ∧ (d.withRegs l).stores = d.stores ∧ (d.withRegs l).wipes = d.wipes :=
  ⟨rfl, rfl, rfl, rfl, rfl⟩

/-- Registers play no part in what an engine reaches. -/
theorem engineRead_withRegs {s : State} {c a n : Nat} (h : EngineReaches s c a n) (l : Map (BitVec 32)) :
    (s.begin.withRegs l).engineRead s.mem c a n = (s.begin.withRegs l, some (peekN s.mem s.begin a n)) := by
  obtain ⟨⟨hn, hin, -, hlost, hmay, -, hwait, hdir, hbursts, hwords⟩, -, htop⟩ := h
  rw [engineRead_of (d := s.begin.withRegs l) hn htop hin hlost hmay hwait hdir hbursts hwords s.mem, peekN_congr (d := s.begin.withRegs l) (e := s.begin) rfl rfl]

theorem engineMay_withRegs {s : State} {c a n : Nat} (h : EngineReaches s c a n) (l : Map (BitVec 32)) : (s.begin.withRegs l).engineMay c a n = true := by
  obtain ⟨⟨-, -, -, -, hmay, -⟩, hlow, htop⟩ := h
  have hadmits : (s.begin.withRegs l).admits c a n = true := hmay
  rw [Dev.engineMay, hlow, htop, hadmits]
  simp

theorem tableFault_withRegs (m : Mem) (d : Dev) (l : Map (BitVec 32)) (x : Ctx) (c : Nat) (h : (d.withRegs l).node = d.node) :
    (d.withRegs l).tableFault m x c = d.tableFault m x c := by
  have hlocal : ∀ g, (d.withRegs l).isLocal g = d.isLocal g := fun g => by rw [Dev.isLocal, h, Dev.isLocal]
  have hspan : ∀ a n, (d.withRegs l).spanOk c a n = d.spanOk c a n := fun _ _ => rfl
  have hpeek : ∀ a n, peekLE m (d.withRegs l) a n = peekLE m d a n := fun a n => by rw [peekLE, peekN_congr (d := d.withRegs l) (e := d) rfl rfl, peekLE]
  simp only [Dev.tableFault, Dev.stageOk, hlocal, hspan, hpeek]

/-- CTX_PIPE_CTRL is none of the words that the table's place and the node are read of. -/
theorem ctxPipeCtrl_apart (c : Nat) : Reg.ctxPipeCtrl c ≠ Reg.ctxPipeBaseLo c ∧ Reg.ctxPipeCtrl c ≠ Reg.ctxPipeBaseLo c + 4 ∧ Reg.ctxPipeCtrl c ≠ Reg.fabNode := by
  unfold Reg.ctxPipeCtrl Reg.ctxPipeBaseLo Reg.fabNode ctxWindow
  omega

theorem reg_putReg_other (d : Dev) {k j : Nat} (v : BitVec 32) (h : k ≠ j) : (d.putReg k v).reg j = d.reg j := by
  rw [Dev.putReg, Dev.reg_setReg, if_neg h]

theorem pipeBase_putReg (d : Dev) (c : Nat) (v : BitVec 32) : (d.putReg (Reg.ctxPipeCtrl c) v).reg64 (Reg.ctxPipeBaseLo c) = d.reg64 (Reg.ctxPipeBaseLo c) ∧
    (d.putReg (Reg.ctxPipeCtrl c) v).node = d.node := by
  obtain ⟨hlow, hhigh, hnode⟩ := ctxPipeCtrl_apart c
  rw [Dev.reg64, reg_putReg_other d v hlow, reg_putReg_other d v hhigh, Dev.node, Dev.rf, reg_putReg_other d v hnode]
  exact ⟨rfl, rfl⟩

/-- A context whose stage table is `t`. -/
def Ctx.withTable (x : Ctx) (t : List Byte) : Ctx := { x with pipe := { x.pipe with table := t } }

/-- A context whose pipeline is in state `p`. -/
def Ctx.withPipeState (x : Ctx) (p : PipeState) : Ctx := { x with pipe := { x.pipe with state := p } }

/-- What validation finds of the table of an enabled pipeline. -/
theorem pipeStart_finds {s : State} {c : Nat} {b : Nat} (v : BitVec 32) (hb : b = s.dev.reg64 (Reg.ctxPipeBaseLo c) % 2 ^ 41 / 256 * 256)
    (hreach : EngineReaches s c b 2112) {d : Dev} (hd : d = s.begin.putReg (Reg.ctxPipeCtrl c) v) :
    d.reg64 (Reg.ctxPipeBaseLo c) % 2 ^ 41 / 256 * 256 = b ∧ d.engineMay c b 2112 = true ∧
    d.engineRead s.mem c b 2112 = (d, some (peekN s.mem s.begin b 2112)) ∧
    d.tableFault s.mem ((d.ctx c).withTable (peekN s.mem s.begin b 2112)) c =
      s.begin.tableFault s.mem ((s.dev.ctx c).withTable (peekN s.mem s.begin b 2112)) c := by
  obtain ⟨hbase, hnode⟩ := pipeBase_putReg s.begin c v
  obtain ⟨l, hl⟩ : ∃ l, l = (s.begin.putReg (Reg.ctxPipeCtrl c) v).regs := ⟨_, rfl⟩
  have hwith : d = s.begin.withRegs l := by rw [hd, hl]; exact putReg_withRegs _ _ _
  have hplace : d.reg64 (Reg.ctxPipeBaseLo c) % 2 ^ 41 / 256 * 256 = b := by rw [hd, hbase]; exact hb.symm
  refine ⟨hplace, ?_⟩
  rw [hwith]
  exact ⟨engineMay_withRegs hreach l, engineRead_withRegs hreach l, tableFault_withRegs s.mem s.begin l _ c (by rw [← hwith, hd]; exact hnode)⟩

section
variable {d : Dev} {m : Mem} {c b : Nat} {t : List Byte}

/-- An invalid table: the pipeline is in FAULT. -/
theorem pipeStart_fault {n : Nat} (hb : d.reg64 (Reg.ctxPipeBaseLo c) % 2 ^ 41 / 256 * 256 = b) (hmay : d.engineMay c b 2112 = true)
    (hread : d.engineRead m c b 2112 = (d, some t)) (hfault : d.tableFault m ((d.ctx c).withTable t) c = some n) :
    d.pipeStart m c = (d.setCtx c ((d.ctx c).withPipeState .fault)).event [c] 0x0803 2 n 0 0 := by
  have hfault' : d.tableFault m { d.ctx c with pipe := { (d.ctx c).pipe with table := t } } c = some n := hfault
  obtain ⟨f, hf⟩ : ∃ f, f = @Dev.pipeStart := ⟨_, rfl⟩
  rw [← hf]
  delta Dev.pipeStart at hf
  subst hf
  beta_reduce
  rw [hb]
  simp only [hmay, hread, if_true, Option.getD_some, Option.isNone_some, Bool.false_eq_true, if_false, hfault']
  rfl

/-- A valid table: the pipeline runs, and every stage starts as its rings and ledgers show it. -/
theorem pipeStart_runs (hb : d.reg64 (Reg.ctxPipeBaseLo c) % 2 ^ 41 / 256 * 256 = b) (hmay : d.engineMay c b 2112 = true)
    (hread : d.engineRead m c b 2112 = (d, some t)) (hvalid : d.tableFault m ((d.ctx c).withTable t) c = none) :
    ∃ (f : Dev → Nat → Stage) (l : List Nat), d.pipeStart m c =
      (((d.setCtx c (((d.ctx c).withTable t).withPipeState .running)).setRf (Reg.ctxPipeStatus c) 7 0 ((d.ctx c).withTable t).vsMask).setRegN
        (Reg.ctxPipeDiverged c) 0xFFFFFFFF).each l (fun d v =>
          ((d.setStage c v (f d v)).setReg (Reg.ctxPipeCurStep c v) (f d v).curStep).setReg (Reg.ctxPipePrevStep c v) (f d v).prevStep) := by
  have hvalid' : d.tableFault m { d.ctx c with pipe := { (d.ctx c).pipe with table := t } } c = none := hvalid
  obtain ⟨f, hf⟩ : ∃ f, f = @Dev.pipeStart := ⟨_, rfl⟩
  rw [← hf]
  delta Dev.pipeStart at hf
  subst hf
  beta_reduce
  rw [hb]
  simp only [hmay, hread, if_true, Option.getD_some, Option.isNone_some, Bool.false_eq_true, if_false, hvalid']
  exact ⟨_, _, rfl⟩

/-- What the start of single stages leaves of a pipeline that runs. -/
structure PipeStands (c : Nat) (d e : Dev) : Prop where
  state : (e.ctx c).pipe.state = (d.ctx c).pipe.state
  table : (e.ctx c).pipe.table = (d.ctx c).pipe.table
  status : e.reg (Reg.ctxPipeStatus c) = d.reg (Reg.ctxPipeStatus c)
  diverged : e.reg (Reg.ctxPipeDiverged c) = d.reg (Reg.ctxPipeDiverged c)
  stores : e.stores = d.stores
  wipes : e.wipes = d.wipes
  tiles : e.tiles = d.tiles
  counters : e.counters = d.counters

theorem stageStarts_stands (f : Dev → Nat → Stage) (l : List Nat) : PipeStands c d (d.each l (fun d v =>
    ((d.setStage c v (f d v)).setReg (Reg.ctxPipeCurStep c v) (f d v).curStep).setReg (Reg.ctxPipePrevStep c v) (f d v).prevStep)) := by
  refine Dev.each_invariant (P := PipeStands c d) (fun e v _ h => ?_) ⟨rfl, rfl, rfl, rfl, rfl, rfl, rfl, rfl⟩
  obtain ⟨hregs, hcounters, htiles, hstores, hwipes, -, hstate, htable⟩ := setStage_fields e c v (f e v)
  have hreg : ∀ {k}, Reg.ctxPipeCurStep c v ≠ k → Reg.ctxPipePrevStep c v ≠ k →
      (((e.setStage c v (f e v)).setReg (Reg.ctxPipeCurStep c v) (f e v).curStep).setReg (Reg.ctxPipePrevStep c v) (f e v).prevStep).reg k = e.reg k := fun hcur hprev => by
    rw [Dev.reg_setReg, if_neg hprev, Dev.reg_setReg, if_neg hcur, Dev.reg, hregs, Dev.reg]
  refine ⟨hstate.trans h.state, htable.trans h.table, (hreg ?_ ?_).trans h.status, (hreg ?_ ?_).trans h.diverged, hstores.trans h.stores, hwipes.trans h.wipes,
    htiles.trans h.tiles, hcounters.trans h.counters⟩
  all_goals
    simp only [Reg.ctxPipeCurStep, Reg.ctxPipePrevStep, Reg.ctxPipeStatus, Reg.ctxPipeDiverged]
    omega

end

theorem pipeEnable_fault (s : State) (r : Requester) (c : Fin 64) (v : BitVec 32) (b e : Nat) (hheard : Heard s r (Reg.ctxPipeCtrl c) v)
    (hmay : s.dev.mayWriteCtx r c = true) (hcmd : fb v 30 28 = 0) (hwas : s.dev.rb (Reg.ctxPipeCtrl c) 31 = false) (hnow : v.getLsbD 31 = true)
    (hb : b = s.dev.reg64 (Reg.ctxPipeBaseLo c) % 2 ^ 41 / 256 * 256) (hreach : EngineReaches s c b 2112)
    (hfault : s.begin.tableFault s.mem { s.dev.ctx c with pipe := { (s.dev.ctx c).pipe with table := peekN s.mem s.begin b 2112 } } c = some e) :
    Ends (.pipeEnable r c v) s (fun u => (u.dev.ctx c).pipe.state = .fault ∧ (u.dev.ctx c).pipe.stages = (s.dev.ctx c).pipe.stages ∧ u.mem = s.mem ∧
      u.dev.tiles = s.dev.tiles) := by
  obtain ⟨d, hd⟩ : ∃ d, d = s.begin.putReg (Reg.ctxPipeCtrl c) v := ⟨_, rfl⟩
  obtain ⟨hplace, hmay', hread, htable⟩ := pipeStart_finds v hb hreach hd
  obtain ⟨e', he'⟩ : ∃ e', e' = d.pipeStart s.mem c := ⟨_, rfl⟩
  have heffect : s.begin.pipeCtrlWrite s.mem c v = e' := by
    rw [pipeCtrlWrite_enable (d := s.begin) s.mem hcmd hwas hnow, he', hd]
  have hstart := he'.trans <| pipeStart_fault hplace hmay' hread (htable.trans hfault)
  have hctx : d.ctx c = s.dev.ctx c := by rw [hd]; rfl
  have hcalm := calm_event (fun _ => False) (d.setCtx c ((d.ctx c).withPipeState .fault)) (cs := [c.val]) 0x0803 2 e 0 0 (by simp [c.isLt])
  rw [← hstart] at hcalm
  have hpipe := hcalm.pipe c.val
  rw [Dev.ctx_setCtx_same, hctx] at hpipe
  have hstages : (e'.ctx c).pipe.stages = (s.dev.ctx c).pipe.stages := by rw [hpipe]; rfl
  obtain ⟨-, htiles, -, -, hwipes, -⟩ := hcalm.fields
  refine ends_of_heard (perm := fun d => d.mayWriteCtx r c) (x := fun m d => (d.pipeCtrlWrite m c v, stOK)) (d := e') (st := stOK) rfl hheard hmay
    (congrArg (·, stOK) heffect) ⟨congrArg Pipe.state hpipe, hstages,
      s.commit_mem _ ((hcalm.stores fun _ => id).trans ?_) (hwipes.trans ?_), htiles.trans ?_⟩
  all_goals rw [hd]; rfl

theorem pipeEnable_runs (s : State) (r : Requester) (c : Fin 64) (v : BitVec 32) (b : Nat) (hheard : Heard s r (Reg.ctxPipeCtrl c) v)
    (hmay : s.dev.mayWriteCtx r c = true) (hcmd : fb v 30 28 = 0) (hwas : s.dev.rb (Reg.ctxPipeCtrl c) 31 = false) (hnow : v.getLsbD 31 = true)
    (hb : b = s.dev.reg64 (Reg.ctxPipeBaseLo c) % 2 ^ 41 / 256 * 256) (hreach : EngineReaches s c b 2112)
    (hvalid : s.begin.tableFault s.mem { s.dev.ctx c with pipe := { (s.dev.ctx c).pipe with table := peekN s.mem s.begin b 2112 } } c = none) :
    Ends (.pipeEnable r c v) s (fun u => (u.dev.ctx c).pipe.state = .running ∧ (u.dev.ctx c).pipe.table = peekN s.mem s.begin b 2112 ∧
      u.dev.rf (Reg.ctxPipeStatus c) 7 0 = (u.dev.ctx c).vsMask % 256 ∧ u.dev.reg (Reg.ctxPipeDiverged c) = 0xFFFFFFFF ∧ u.mem = s.mem ∧
      u.dev.tiles = s.dev.tiles ∧ u.dev.counters = s.dev.counters) := by
  obtain ⟨d, hd⟩ : ∃ d, d = s.begin.putReg (Reg.ctxPipeCtrl c) v := ⟨_, rfl⟩
  obtain ⟨hplace, hmay', hread, htable⟩ := pipeStart_finds v hb hreach hd
  obtain ⟨f, l, hstart⟩ := pipeStart_runs hplace hmay' hread (htable.trans hvalid)
  obtain ⟨e, he⟩ : ∃ e, e = d.pipeStart s.mem c := ⟨_, rfl⟩
  have heffect : s.begin.pipeCtrlWrite s.mem c v = e := by
    rw [pipeCtrlWrite_enable (d := s.begin) s.mem hcmd hwas hnow, he, hd]
  obtain ⟨x, hx⟩ : ∃ x, x = ((d.ctx c).withTable (peekN s.mem s.begin b 2112)).withPipeState .running := ⟨_, rfl⟩
  obtain ⟨g, hg⟩ : ∃ g, g = ((d.setCtx c x).setRf (Reg.ctxPipeStatus c) 7 0 ((d.ctx c).withTable (peekN s.mem s.begin b 2112)).vsMask).setRegN (Reg.ctxPipeDiverged c) 0xFFFFFFFF := ⟨_, rfl⟩
  rw [← hx, ← hg, ← he] at hstart
  have hstands : PipeStands c g e := hstart ▸ stageStarts_stands f l
  have hctx : g.ctx c = x := by rw [hg]; exact Dev.ctx_setCtx_same d c x
  have hstatus : g.rf (Reg.ctxPipeStatus c) 7 0 = x.vsMask % 256 := by
    have happart : Reg.ctxPipeDiverged c ≠ Reg.ctxPipeStatus c := by
      unfold Reg.ctxPipeDiverged Reg.ctxPipeStatus
      omega
    have hreg : g.reg (Reg.ctxPipeStatus c) = ((d.setCtx c x).setRf (Reg.ctxPipeStatus c) 7 0 ((d.ctx c).withTable (peekN s.mem s.begin b 2112)).vsMask).reg
        (Reg.ctxPipeStatus c) := by
      rw [hg, Dev.setRegN, Dev.reg_setReg, if_neg happart]
    rw [Dev.rf, hreg]
    refine (rf_setRf_same (d.setCtx c x) (Reg.ctxPipeStatus c) _ (by decide) (by decide)).trans ?_
    rw [hx]
    rfl
  refine ends_of_heard (perm := fun d => d.mayWriteCtx r c) (x := fun m d => (d.pipeCtrlWrite m c v, stOK)) (d := e) (st := stOK) rfl hheard hmay
    (congrArg (·, stOK) heffect) ⟨hstands.state.trans ?_, hstands.table.trans ?_, ?_,
      hstands.diverged.trans ?_, s.commit_mem _ (hstands.stores.trans ?_) (hstands.wipes.trans ?_), hstands.tiles.trans ?_, hstands.counters.trans ?_⟩
  case refine_3 =>
    have hmask : (e.ctx c).vsMask = x.vsMask := by rw [Ctx.vsMask, hstands.table, hctx, Ctx.vsMask]
    have hrf : e.rf (Reg.ctxPipeStatus c) 7 0 = (e.ctx c).vsMask % 256 := by
      rw [hmask, Dev.rf, hstands.status]
      exact hstatus
    exact hrf
  case refine_4 => rw [hg, Dev.setRegN, Dev.reg_setReg_same]; rfl
  case refine_1 => rw [hctx, hx]; rfl
  case refine_2 => rw [hctx, hx]; rfl
  all_goals rw [hg, hd]; rfl

/-- Settles O42, clause by clause: items end as their unit says, outputs and versions go on, and the control word starts and stops a pipeline. What the
items leave in rings and records at their end, and what FLUSH and a reset leave, is the model's choice (log entry 53). -/
theorem itemsEndAndPipelinesRunAndStop : Obligations.ItemsEndAndPipelinesRunAndStop :=
  ⟨itemDone_forward, itemDone_recompute, itemDone_backward, itemDone_update, updateSumComplete_ends, outputDelivery_own, versionRetire_ends, versionRetire_held,
    pipeEnable_runs, pipeEnable_fault, pipeDisable_ends, pipeFlush_ends, pipeRetireNow_ends⟩

end Sys2Proof.Machine
end

section
/-! Leaky buckets, the risk score and "secure now" (R353, R356, R360, R361, R379). -/

namespace Sys2Proof.Machine

open Sys2Proof.Claims (Ends Quiet Heard)

/-! Leaky buckets. -/

/-- `d` with its buckets exchanged. -/
def Dev.withBuckets (d : Dev) (l : Map Bucket) : Dev := d.withRas { d.ras with buckets := l }

theorem withBuckets_fields (d : Dev) (l : Map Bucket) : (d.withBuckets l).ras.buckets = l ∧ (d.withBuckets l).regs = d.regs ∧
    (d.withBuckets l).counters = d.counters ∧ (d.withBuckets l).tiles = d.tiles ∧ (d.withBuckets l).stores = d.stores ∧
    (d.withBuckets l).wipes = d.wipes :=
  ⟨rfl, rfl, rfl, rfl, rfl, rfl⟩

theorem xBucketLeak_due {d : Dev} {k n : Nat} {b : Bucket} (m : Mem) (hbucket : mfind d.ras.buckets (bucketKey k n) = some b)
    (hdue : d.lbLeak k ≤ (d.lode.count - b.clock).toNat) (hpast : (d.lode.count - b.clock).toNat < 2 ^ 63) :
    xBucketLeak k n m d = d.withBuckets (if b.level ≤ 1 then mdel d.ras.buckets (bucketKey k n)
      else mset d.ras.buckets (bucketKey k n) { b with level := b.level - 1, clock := b.clock + BitVec.ofNat 64 (d.lbLeak k) }) := by
  unfold xBucketLeak
  simp only [hbucket, decide_eq_true hdue, decide_eq_true hpast, Bool.and_self, if_true]
  rfl

theorem bucketLeak_due (s : State) (k : Fin 7) (n : BitVec 32) (b : Bucket) (hbucket : mfind s.dev.ras.buckets (bucketKey k n.toNat) = some b)
    (hdue : s.dev.lbLeak k ≤ (s.dev.lode.count - b.clock).toNat) (hpast : (s.dev.lode.count - b.clock).toNat < 2 ^ 63) :
    Ends (.bucketLeak k n) s (fun u => (b.level ≤ 1 → mfind u.dev.ras.buckets (bucketKey k n.toNat) = none) ∧
      (1 < b.level → mfind u.dev.ras.buckets (bucketKey k n.toNat) = some { b with level := b.level - 1, clock := b.clock + BitVec.ofNat 64 (s.dev.lbLeak k) }) ∧
      (∀ j, j ≠ bucketKey k n.toNat → mfind u.dev.ras.buckets j = mfind s.dev.ras.buckets j) ∧ u.mem = s.mem ∧ u.dev.regs = s.dev.regs ∧
      u.dev.counters = s.dev.counters ∧ u.dev.tiles = s.dev.tiles) := by
  obtain ⟨l, hl⟩ : ∃ l, l = if b.level ≤ 1 then mdel s.dev.ras.buckets (bucketKey k n.toNat)
    else mset s.dev.ras.buckets (bucketKey k n.toNat) { b with level := b.level - 1, clock := b.clock + BitVec.ofNat 64 (s.dev.lbLeak k) } := ⟨_, rfl⟩
  have heffect : xBucketLeak k n.toNat s.mem s.begin = s.begin.withBuckets l :=
    (xBucketLeak_due (d := s.begin) s.mem hbucket hdue hpast).trans (by rw [hl]; rfl)
  obtain ⟨hbuckets, hregs, hcounters, htiles, hstores, hwipes⟩ := withBuckets_fields s.begin l
  refine ends_of_run (x := xBucketLeak k n.toNat) rfl heffect ⟨fun hlast => ?_, fun hmore => ?_, fun j hj => ?_, s.commit_mem _ hstores hwipes, hregs, hcounters, htiles⟩
  all_goals rw [State.commit_ras, hbuckets, hl]
  · rw [if_pos hlast, mfind_mdel, if_pos rfl]
  · rw [if_neg (by omega), mfind_mset, if_pos rfl]
  · split
    · rw [mfind_mdel, if_neg (Ne.symm hj)]
    · rw [mfind_mset, if_neg (Ne.symm hj)]

theorem bucketLeak_early (s : State) (k : Fin 7) (n : BitVec 32) (b : Bucket) (hbucket : mfind s.dev.ras.buckets (bucketKey k n.toNat) = some b)
    (hearly : (s.dev.lode.count - b.clock).toNat < s.dev.lbLeak k) : Quiet (.bucketLeak k n) s s.begin := by
  refine quiet_of_run (x := xBucketLeak k n.toNat) rfl ?_ rfl rfl
  have hbucket' : mfind s.begin.ras.buckets (bucketKey k n.toNat) = some b := hbucket
  have hnot : ¬ s.begin.lbLeak k ≤ (s.begin.lode.count - b.clock).toNat := Nat.not_le.mpr hearly
  unfold xBucketLeak
  simp only [hbucket', decide_eq_false hnot, Bool.false_and, Bool.false_eq_true, if_false]

/-! RAS_LB_CFG (R356). -/

theorem rasLbCfgWrite_taken (s : State) (r : Requester) (k : Fin 7) (v : BitVec 32) (hheard : Heard s r (Reg.rasLbCfg k) v)
    (hmay : s.dev.ctx0OrAdmin r = true) (hsome : 1 ≤ fb v 31 24) (hfits : fb v 31 24 ≤ fb v 23 0) :
    Ends (.rasLbCfgWrite r k v) s (fun u => u.dev.regs = (s.dev.putReg (Reg.rasLbCfg k) v).regs ∧ u.dev.ras = s.dev.ras ∧ u.mem = s.mem ∧
      u.dev.counters = s.dev.counters ∧ u.dev.tiles = s.dev.tiles) := by
  have hwrite : s.begin.lbCfgWrite k v = s.begin.putReg (Reg.rasLbCfg k) v := by
    refine if_neg ?_
    rw [Bool.or_eq_true, decide_eq_true_eq, decide_eq_true_eq]
    omega
  obtain ⟨e, he⟩ : ∃ e, e = s.begin.putReg (Reg.rasLbCfg k) v := ⟨_, rfl⟩
  have hfields : e.regs = (s.dev.putReg (Reg.rasLbCfg k) v).regs ∧ e.ras = s.dev.ras ∧ e.stores = [] ∧ e.wipes = [] ∧ e.counters = s.dev.counters ∧
      e.tiles = s.dev.tiles := by
    rw [he]
    exact ⟨rfl, rfl, rfl, rfl, rfl, rfl⟩
  obtain ⟨hregs, hras, hstores, hwipes, hcounters, htiles⟩ := hfields
  exact ends_of_heard (perm := fun d => d.ctx0OrAdmin r) (x := fun _ d => (d.lbCfgWrite k v, stOK)) (d := e) (st := stOK) rfl hheard hmay
    (congrArg (·, stOK) (hwrite.trans he.symm)) ⟨hregs, hras, s.commit_mem _ hstores hwipes, hcounters, htiles⟩

theorem rasLbCfgWrite_ignored (s : State) (r : Requester) (k : Fin 7) (v : BitVec 32) (hheard : Heard s r (Reg.rasLbCfg k) v)
    (hmay : s.dev.ctx0OrAdmin r = true) (hshort : fb v 23 0 < fb v 31 24) :
    Ends (.rasLbCfgWrite r k v) s (fun u => u.dev.regs = s.dev.regs ∧ u.dev.ras = s.dev.ras ∧ u.mem = s.mem ∧ u.dev.counters = s.dev.counters) := by
  have hwrite : s.begin.lbCfgWrite k v = s.begin := by
    refine if_pos ?_
    rw [Bool.or_eq_true, decide_eq_true_eq, decide_eq_true_eq]
    exact .inr hshort
  obtain ⟨e, he⟩ : ∃ e, e = s.begin := ⟨_, rfl⟩
  have hfields : e.regs = s.dev.regs ∧ e.ras = s.dev.ras ∧ e.stores = [] ∧ e.wipes = [] ∧ e.counters = s.dev.counters := by
    rw [he]
    exact ⟨rfl, rfl, rfl, rfl, rfl⟩
  obtain ⟨hregs, hras, hstores, hwipes, hcounters⟩ := hfields
  exact ends_of_heard (perm := fun d => d.ctx0OrAdmin r) (x := fun _ d => (d.lbCfgWrite k v, stOK)) (d := e) (st := stOK) rfl hheard hmay
    (congrArg (·, stOK) (hwrite.trans he.symm)) ⟨hregs, hras, s.commit_mem _ hstores hwipes, hcounters⟩

/-! "Secure now" (R361). -/

/-- What the securing of contexts leaves: tiles, counters and the reliability block. -/
structure Secures (d e : Dev) : Prop where
  tiles : e.tiles = d.tiles
  counters : e.counters = d.counters
  ras : e.ras = d.ras

section
variable {d e f : Dev}

theorem Secures.refl (d : Dev) : Secures d d := ⟨rfl, rfl, rfl⟩

theorem Secures.trans (h : Secures d e) (h' : Secures e f) : Secures d f := ⟨h'.tiles.trans h.tiles, h'.counters.trans h.counters, h'.ras.trans h.ras⟩

theorem secures_updProt (c : Nat) (g : Prot → Prot) : Secures d (d.updProt c g) := ⟨rfl, rfl, rfl⟩

theorem secures_peerRead (m : Mem) (c i : Nat) (u : Purpose) : Secures d (d.peerRead m c i u) := by
  obtain ⟨t, ht, -⟩ := fabRead_issues d c (ePeerEnt (d.entry m c i)) 128 u c i 0
  obtain ⟨-, hcounters, htiles, -, -, -, -, -, hras, -⟩ := ht.fields
  exact ⟨htiles, hcounters, hras⟩

theorem secures_secureEnds (m : Mem) (c : Nat) : Secures d (d.secureEnds m c) := by
  unfold Dev.secureEnds
  split
  · exact .refl d
  · exact ⟨rfl, rfl, rfl⟩

theorem secures_secureAdvance (m : Mem) (c : Nat) : Secures d (d.secureAdvance m c) := by
  unfold Dev.secureAdvance
  split
  · exact .refl d
  · refine Secures.trans ?_ (secures_secureEnds m c)
    exact Dev.each_invariant (P := Secures d) (fun e i _ he => he.trans (secures_peerRead m c i _)) (secures_updProt c _)

theorem secures_secureAll (m : Mem) : Secures d (d.secureAll m) := by
  refine Dev.each_invariant (P := Secures d) (fun e p _ he => ?_) (.refl d)
  split
  · refine he.trans ?_
    unfold Dev.secureStart
    split
    · exact .refl e
    · exact (secures_updProt _ _).trans (secures_secureAdvance m _)
  · exact he

/-- "Secure now" is counted once; during a larger reset it stays due. -/
theorem issueSecureNow_leaves (m : Mem) (d : Dev) : (d.issueSecureNow m).tiles = d.tiles ∧
    (d.issueSecureNow m).count Reg.rasSecureNow = d.count Reg.rasSecureNow + 1 ∧ (d.issueSecureNow m).ras.score = d.ras.score ∧
    (d.issueSecureNow m).ras.armed = d.ras.armed ∧ (d.ras.resets.any (fun x => x.scope != 1) = true → (d.issueSecureNow m).ras.secureDue = true) := by
  obtain ⟨e, he⟩ : ∃ e, e = (d.event [] 0x0B03 2 d.ras.score 0 0).bump Reg.rasSecureNow := ⟨_, rfl⟩
  have htiles : e.tiles = d.tiles := by
    have hevent : (d.event [] 0x0B03 2 d.ras.score 0 0).tiles = d.tiles := by simp
    rw [he]
    exact hevent
  have hras : e.ras = d.ras := by
    have hevent : (d.event [] 0x0B03 2 d.ras.score 0 0).ras = d.ras := by simp
    rw [he]
    exact hevent
  have hcount : e.count Reg.rasSecureNow = d.count Reg.rasSecureNow + 1 := by
    rw [he, Dev.count_bump_same, d.count_event_package _ _ _ _ _ ⟨by decide, by decide⟩]
  have heq : d.issueSecureNow m = if e.ras.resets.any (fun r => r.scope != 1) then e.withRas { e.ras with secureDue := true } else e.secureAll m := by
    rw [he]
    rfl
  rw [heq, hras]
  split
  case isTrue hlarge => exact ⟨htiles, hcount, rfl, rfl, fun _ => rfl⟩
  case isFalse hnone =>
    obtain ⟨htiles', hcounters', hras'⟩ := secures_secureAll (d := e) m
    refine ⟨htiles'.trans htiles, ?_, by rw [hras', hras], by rw [hras', hras], fun h => absurd h hnone⟩
    rw [← hcount, Dev.count, hcounters']
    rfl

end

/-! HEALTH_SCORE (R360). -/

/-- `d` with its contexts and its reliability block exchanged. -/
def Dev.withScore (d : Dev) (x : Ras) (l : Map Ctx) : Dev := { d with ras := x, ctxs := l }

theorem withScore_fields (d : Dev) (x : Ras) (l : Map Ctx) : (d.withScore x l).ras = x ∧ (d.withScore x l).regs = d.regs ∧
    (d.withScore x l).counters = d.counters ∧ (d.withScore x l).tiles = d.tiles ∧ (d.withScore x l).stores = d.stores ∧
    (d.withScore x l).wipes = d.wipes :=
  ⟨rfl, rfl, rfl, rfl, rfl, rfl⟩

/-- The score reaches the threshold while armed. -/
def Dev.fires (d : Dev) : Bool := d.ras.armed && d.rf Reg.rasHealthCtrl 31 24 ≤ d.riskScore

/-- The score rises to the critical one. -/
def Dev.turnsCritical (d : Dev) : Bool := d.rf Reg.rasHealthCtrl 23 16 ≤ d.riskScore && d.ras.score < d.rf Reg.rasHealthCtrl 23 16

/-- The reliability block with a new score. -/
def Dev.scoredRas (d : Dev) : Ras :=
  { d.ras with score := d.riskScore, critical := d.rf Reg.rasHealthCtrl 23 16 ≤ d.riskScore,
               armed := if d.fires then false else d.ras.armed || d.riskScore < d.rf Reg.rasHealthCtrl 31 24 - d.rf Reg.rasHealthCtrl 15 8,
               lasting := d.recent d.ras.lasting, linkEvents := d.recent d.ras.linkEvents }

/-- A new score: secure now at the threshold, once until the score has fallen, and at each rise to the critical one. -/
theorem xHealthScore_eq (m : Mem) (d : Dev) : ∃ l : Map Ctx, xHealthScore m d =
    if d.fires || d.turnsCritical
    then (if d.turnsCritical then (d.withScore d.scoredRas l).event [] 0x0B04 3 d.riskScore 0 0 else d.withScore d.scoredRas l).issueSecureNow m
    else if d.turnsCritical then (d.withScore d.scoredRas l).event [] 0x0B04 3 d.riskScore 0 0 else d.withScore d.scoredRas l :=
  ⟨_, rfl⟩

theorem healthScore_below (s : State) (hquiet : s.dev.ras.armed = false ∨ s.dev.riskScore < s.dev.rf Reg.rasHealthCtrl 31 24)
    (hcrit : s.dev.riskScore < s.dev.rf Reg.rasHealthCtrl 23 16) :
    Ends .healthScore s (fun u => u.dev.ras.score = s.dev.riskScore ∧ u.dev.ras.critical = false ∧
      (u.dev.ras.armed = true ↔ s.dev.ras.armed = true ∨ s.dev.riskScore < s.dev.rf Reg.rasHealthCtrl 31 24 - s.dev.rf Reg.rasHealthCtrl 15 8) ∧
      u.mem = s.mem ∧ u.dev.regs = s.dev.regs ∧ u.dev.counters = s.dev.counters ∧ u.dev.tiles = s.dev.tiles) := by
  obtain ⟨l, heffect⟩ := xHealthScore_eq s.mem s.begin
  obtain ⟨x, hx⟩ : ∃ x, x = s.begin.scoredRas := ⟨_, rfl⟩
  have hfires : s.begin.fires = false := by
    rw [Dev.fires, Bool.and_eq_false_iff, decide_eq_false_iff_not, Nat.not_le]
    exact hquiet
  have hbelow : decide (s.begin.rf Reg.rasHealthCtrl 23 16 ≤ s.begin.riskScore) = false := decide_eq_false (Nat.not_le.mpr hcrit)
  have hcritical : s.begin.turnsCritical = false := by rw [Dev.turnsCritical, hbelow, Bool.false_and]
  rw [hfires, hcritical, Bool.or_self, if_neg Bool.false_ne_true, if_neg Bool.false_ne_true, ← hx] at heffect
  obtain ⟨hras, hregs, hcounters, htiles, hstores, hwipes⟩ := withScore_fields s.begin x l
  refine ends_of_run (x := xHealthScore) rfl heffect ⟨?_, ?_, ?_, s.commit_mem _ hstores hwipes, hregs, hcounters, htiles⟩
  all_goals rw [State.commit_ras, hras, hx, Dev.scoredRas]
  · rfl
  · exact hbelow
  · dsimp only
    rw [hfires, if_neg Bool.false_ne_true, Bool.or_eq_true, decide_eq_true_eq]
    rfl

theorem healthScore_fires (s : State) (harmed : s.dev.ras.armed = true) (habove : s.dev.rf Reg.rasHealthCtrl 31 24 ≤ s.dev.riskScore)
    (_ : s.dev.ras.resets = []) :
    Ends .healthScore s (fun u => u.dev.ras.score = s.dev.riskScore ∧ u.dev.ras.armed = false ∧
      u.dev.count Reg.rasSecureNow = s.dev.count Reg.rasSecureNow + 1 ∧ u.dev.tiles = s.dev.tiles) := by
  obtain ⟨l, heffect⟩ := xHealthScore_eq s.mem s.begin
  obtain ⟨x, hx⟩ : ∃ x, x = s.begin.scoredRas := ⟨_, rfl⟩
  have hfires : s.begin.fires = true := by
    rw [Dev.fires, Bool.and_eq_true, decide_eq_true_eq]
    exact ⟨harmed, habove⟩
  have hscore : x.score = s.dev.riskScore := by rw [hx]; rfl
  have hunarmed : x.armed = false := by
    rw [hx, Dev.scoredRas]
    dsimp only
    rw [hfires, if_pos rfl]
  obtain ⟨e, he⟩ : ∃ e, e = if s.begin.turnsCritical then (s.begin.withScore x l).event [] 0x0B04 3 s.begin.riskScore 0 0 else s.begin.withScore x l := ⟨_, rfl⟩
  rw [hfires, Bool.true_or, if_pos rfl, ← hx, ← he] at heffect
  obtain ⟨hras, -, hcounters, htiles, -⟩ := withScore_fields s.begin x l
  obtain ⟨d, hd⟩ : ∃ d, d = s.begin.withScore x l := ⟨_, rfl⟩
  rw [← hd] at hras hcounters htiles he
  have hevent : e.ras = d.ras ∧ e.tiles = d.tiles ∧ e.count Reg.rasSecureNow = d.count Reg.rasSecureNow := by
    rw [he]
    split
    · exact ⟨by simp, by simp, Dev.count_event_package _ _ _ _ _ _ ⟨by decide, by decide⟩⟩
    · exact ⟨rfl, rfl, rfl⟩
  obtain ⟨hras', htiles', hcount'⟩ := hevent
  obtain ⟨htiles'', hcount'', hscore'', harmed'', -⟩ := issueSecureNow_leaves s.mem e
  have hcount : d.count Reg.rasSecureNow = s.dev.count Reg.rasSecureNow := congrArg (mget 0 · Reg.rasSecureNow) hcounters
  exact ends_of_run (x := xHealthScore) rfl heffect ⟨hscore''.trans (by rw [hras', hras, hscore]), harmed''.trans (by rw [hras', hras, hunarmed]),
    hcount''.trans (by rw [hcount', hcount]), htiles''.trans (htiles'.trans htiles)⟩

theorem fb_regWith_above (d : Dev) (k : Nat) {hi lo hi' lo' x : Nat} (hlo : lo ≤ hi + 1) (hhi : hi + 1 ≤ 32) (h : hi + 1 ≤ lo') :
    fb (d.regWith k hi lo x) hi' lo' = d.rf k hi' lo' := by
  rw [fb, Dev.regWith, BitVec.toNat_ofNat, Nat.mod_eq_of_lt (setFld_lt _ hi lo x 32 (d.reg k).isLt hlo hhi), fld_setFld_above _ _ _ _ _ _ hlo h]
  rfl

theorem secureNow_ends (s : State) (r : Requester) (hheard : Heard s r Reg.rasHealthCtrl (s.dev.regWith Reg.rasHealthCtrl 1 0 1))
    (hmay : s.dev.ctx0OrAdmin r = true) (hsome : 1 ≤ s.dev.rf Reg.rasHealthCtrl 31 24)
    (hcrit : s.dev.rf Reg.rasHealthCtrl 31 24 ≤ s.dev.rf Reg.rasHealthCtrl 23 16) (hhyst : s.dev.rf Reg.rasHealthCtrl 15 8 < s.dev.rf Reg.rasHealthCtrl 31 24) :
    Ends (.secureNow r) s (fun u => u.dev.count Reg.rasSecureNow = s.dev.count Reg.rasSecureNow + 1 ∧ u.dev.ras.score = s.dev.ras.score ∧
      (s.dev.ras.resets.any (fun x => x.scope != 1) = true → u.dev.ras.secureDue = true) ∧ u.dev.tiles = s.dev.tiles) := by
  obtain ⟨v, hv⟩ : ∃ v, v = s.begin.regWith Reg.rasHealthCtrl 1 0 1 := ⟨_, rfl⟩
  obtain ⟨e, he⟩ : ∃ e, e = s.begin.putReg Reg.rasHealthCtrl v := ⟨_, rfl⟩
  have hcmd : fb v 1 0 = 1 := by rw [hv, Dev.regWith, fb_ofNat_setFld 32 _ 1 0 1 (s.begin.reg _).isLt (by decide) (by decide)]; rfl
  have hfield : ∀ {hi lo}, 2 ≤ lo → fb v hi lo = s.dev.rf Reg.rasHealthCtrl hi lo := fun h => by
    rw [hv, fb_regWith_above _ _ (by decide) (by decide) h]
    rfl
  have hwrite : s.begin.healthCtrlWrite s.mem v = e.issueSecureNow s.mem := by
    unfold Dev.healthCtrlWrite
    rw [hfield (by decide), hfield (by decide), hfield (by decide), hcmd, if_neg, if_pos rfl, he]
    simp only [Bool.or_eq_true, decide_eq_true_eq]
    omega
  obtain ⟨htiles, hcount, hscore, -, hdue⟩ := issueSecureNow_leaves s.mem e
  have hfields : e.ras = s.dev.ras ∧ e.count Reg.rasSecureNow = s.dev.count Reg.rasSecureNow ∧ e.tiles = s.dev.tiles := by
    rw [he]
    exact ⟨rfl, rfl, rfl⟩
  obtain ⟨hras, hcount', htiles'⟩ := hfields
  rw [hras] at hscore hdue
  obtain ⟨f, hf⟩ : ∃ f, f = e.issueSecureNow s.mem := ⟨_, rfl⟩
  rw [← hf] at htiles hcount hscore hdue hwrite
  refine ends_of_heard (perm := fun d => d.ctx0OrAdmin r) (x := fun m d => (d.healthCtrlWrite m (d.regWith Reg.rasHealthCtrl 1 0 1), stOK)) (d := f)
    (st := stOK) rfl hheard hmay ?_ ⟨hcount.trans (by rw [hcount']), hscore, hdue, htiles.trans htiles'⟩
  rw [← hv, hwrite]

end Sys2Proof.Machine
end

section
/-! The wait graph and its probes (R363 to R368). -/

namespace Sys2Proof.Machine

open Sys2Proof.Claims (Ends Answers sampled)

/-! Samples. -/

theorem mfind_append {α : Type} (m l : Map α) (k : Nat) : mfind (m ++ l) k = (mfind m k).or (mfind l k) := by
  induction m with
  | nil => rfl
  | cons p r ih =>
    obtain ⟨a, b⟩ := p
    rw [List.cons_append, mfind, mfind]
    split
    · rfl
    · exact ih

theorem mfind_map_range {α : Type} (f : Nat → α) (n u : Nat) : mfind ((List.range n).map (fun u => (u, f u))) u = if u < n then some (f u) else none := by
  induction n with
  | zero => rfl
  | succ n ih =>
    rw [List.range_succ, List.map_append, mfind_append, ih, List.map_singleton, mfind]
    rcases Nat.lt_trichotomy u n with h | h | h
    · rw [if_pos h, if_neg (by omega), if_pos (by omega)]
      rfl
    · rw [if_neg (by omega), if_pos h.symm, if_pos (by omega), h]
      rfl
    · rw [if_neg (by omega), if_neg (by omega), if_neg (by omega)]
      rfl

/-- What the acts on a sample leave: the waits themselves, registers, tiles, memory, the count of hangs. -/
structure SameWaits (d e : Dev) : Prop where
  word : ∀ x, (e.unitWait x).word = (d.unitWait x).word
  same : ∀ x, (e.unitWait x).same = (d.unitWait x).same
  regs : e.regs = d.regs
  tiles : e.tiles = d.tiles
  stores : e.stores = d.stores
  wipes : e.wipes = d.wipes

section
variable {d e f : Dev}

theorem SameWaits.refl (d : Dev) : SameWaits d d := ⟨fun _ => rfl, fun _ => rfl, rfl, rfl, rfl, rfl⟩

theorem SameWaits.trans (h : SameWaits d e) (h' : SameWaits e f) : SameWaits d f :=
  ⟨fun x => (h'.word x).trans (h.word x), fun x => (h'.same x).trans (h.same x), h'.regs.trans h.regs, h'.tiles.trans h.tiles, h'.stores.trans h.stores,
    h'.wipes.trans h.wipes⟩

theorem sameWaits_of_ras (hras : e.ras.waits = d.ras.waits) (hregs : e.regs = d.regs) (htiles : e.tiles = d.tiles) (hstores : e.stores = d.stores)
    (hwipes : e.wipes = d.wipes) : SameWaits d e := by
  have hunit : ∀ x, e.unitWait x = d.unitWait x := fun x => by rw [Dev.unitWait, hras, Dev.unitWait]
  exact ⟨fun x => by rw [hunit], fun x => by rw [hunit], hregs, htiles, hstores, hwipes⟩

theorem SameWaits.stood (h : SameWaits d e) (l : List Nat) : e.stood l = d.stood l := by
  simp only [Dev.stood, h.same]

theorem sameWaits_event (cs : List Nat) (code sev d0 d1 unit : Nat) : SameWaits d (d.event cs code sev d0 d1 unit) :=
  sameWaits_of_ras (by simp) (by simp) (by simp) (by simp) (by simp)

theorem sameWaits_bump (k : Nat) : SameWaits d (d.bump k) := sameWaits_of_ras rfl rfl rfl rfl rfl

theorem sameWaits_issues {l : List Tag} (h : Issues d e l) : SameWaits d e := by
  obtain ⟨hregs, -, htiles, -, hstores, hwipes, -, -, hras, -⟩ := h.fields
  exact sameWaits_of_ras (by rw [hras]) hregs htiles hstores hwipes

/-- A unit's wait with other marks. -/
theorem sameWaits_mark (u : Nat) (x : UnitWait) (y : Ras) (hword : x.word = (d.unitWait u).word) (hsame : x.same = (d.unitWait u).same)
    (hy : y.waits = mset d.ras.waits u x) : SameWaits d (d.withRas y) := by
  have hunit : ∀ j, (d.withRas y).unitWait j = if u = j then x else d.unitWait j := fun j => by
    rw [Dev.unitWait, (Dev.withRas_fields d y).1, hy, mget_mset]
    rfl
  refine ⟨fun j => ?_, fun j => ?_, rfl, rfl, rfl, rfl⟩
  all_goals
    rw [hunit]
    split
    case isTrue h => subst h; assumption
    case isFalse => rfl

/-! Stalls, probes and hangs. -/

/-- `d` with unit `u` marked as stalled. -/
def Dev.stalling (d : Dev) (u : Nat) : Dev := d.withRas { d.ras with waits := mset d.ras.waits u { d.unitWait u with stalled := true } }

theorem stallCheck_cases (d : Dev) (u : Nat) : d.stallCheck u = d ∨ ∃ (cs : List Nat) (w x t : Nat),
    d.stallCheck u = ((d.stalling u).event cs 0x0B08 1 w x t).bump Reg.rasStalls := by
  unfold Dev.stallCheck
  extract_lets x
  split
  · exact .inl rfl
  · rcases d.chain u with ⟨l, v⟩
    cases v with
    | some v => exact .inl rfl
    | none =>
      dsimp only
      split
      · exact .inr ⟨_, _, _, _, rfl⟩
      · exact .inl rfl

theorem count_event_hangs (d : Dev) (cs : List Nat) (code sev d0 d1 unit : Nat) : (d.event cs code sev d0 d1 unit).count Reg.rasHangs = d.count Reg.rasHangs := by
  refine d.count_event cs code sev d0 d1 unit (by decide) (fun c _ => ?_) (by decide)
  unfold Reg.ctxEvtLost ctxWindow Reg.rasHangs
  omega

theorem sameWaits_stallCheck (u : Nat) : SameWaits d (d.stallCheck u) := by
  rcases stallCheck_cases d u with h | ⟨cs, w, x, t, h⟩
  · rw [h]
    exact .refl d
  · rw [h]
    exact ((sameWaits_mark u { d.unitWait u with stalled := true } _ rfl rfl rfl).trans (sameWaits_event _ _ _ _ _ _)).trans (sameWaits_bump _)

theorem hangs_stallCheck (u : Nat) : (d.stallCheck u).count Reg.rasHangs = d.count Reg.rasHangs := by
  rcases stallCheck_cases d u with h | ⟨cs, w, x, t, h⟩
  · rw [h]
  · rw [h, Dev.count_bump_other _ (by decide), count_event_hangs]
    rfl

theorem sendProbe_issues (d : Dev) (n : Nat) (data : List Byte) : ∃ t : Tag, Issues d (d.sendProbe n data) [t] ∧ t.purpose = .probe ∧ t.op = opWPROBE := by
  obtain ⟨t, ht, hserves, -⟩ := fabRequest_issues d (d.makePacket opWPROBE n 0 0 0 data) (newTag .probe 0 0 0 (n * 2 ^ 41)) (newTag_serves .probe 0 0 0 (n * 2 ^ 41))
  refine ⟨t, ht, hserves.purpose, ?_⟩
  have htag := List.append_cancel_left (ht.tags.symm.trans (fabRequest_tags d _ _))
  rw [List.cons.injEq] at htag
  rw [htag.1]
  exact makePacket_field d opWPROBE n 0 0 0 data (hi := 33) (lo := 28) (i := 3) (w := 6) (x := opWPROBE % 64) rfl rfl rfl

/-- `d` after the number of a probe along the chain of unit `u` has been taken. -/
def Dev.probing (d : Dev) (u : Nat) : Dev :=
  d.withRas { d.ras with probeId := d.ras.probeId + 1, waits := mset d.ras.waits u { d.unitWait u with probed := true } }

theorem probeFrom_sends {u n t : Nat} (h : d.remoteEnd u = some (n, t)) : ∃ data, d.probeFrom u = (d.probing u).sendProbe n data := by
  unfold Dev.probeFrom
  rw [h]
  exact ⟨_, rfl⟩

theorem sameWaits_probing (u : Nat) : SameWaits d (d.probing u) :=
  sameWaits_mark u { d.unitWait u with probed := true } _ rfl rfl rfl

theorem sameWaits_probeFrom (u : Nat) : SameWaits d (d.probeFrom u) := by
  cases h : d.remoteEnd u with
  | none =>
    unfold Dev.probeFrom
    rw [h]
    exact .refl d
  | some p =>
    obtain ⟨data, hdata⟩ := probeFrom_sends h
    obtain ⟨_, ht, -⟩ := sendProbe_issues (d.probing u) p.1 data
    rw [hdata]
    exact (sameWaits_probing u).trans (sameWaits_issues ht)

theorem hangs_probeFrom (u : Nat) : (d.probeFrom u).count Reg.rasHangs = d.count Reg.rasHangs := by
  cases h : d.remoteEnd u with
  | none =>
    unfold Dev.probeFrom
    rw [h]
  | some p =>
    obtain ⟨data, hdata⟩ := probeFrom_sends h
    obtain ⟨_, ht, -⟩ := sendProbe_issues (d.probing u) p.1 data
    rw [hdata, Dev.count, ht.fields.2.1]
    rfl

theorem sameWaits_each {α : Type} {l : List α} {g : Dev → α → Dev} (h : ∀ e x, SameWaits e (g e x)) : SameWaits d (d.each l g) :=
  Dev.each_invariant (P := SameWaits d) (fun e x _ he => he.trans (h e x)) (.refl d)

theorem hangAction_none (h : d.rf Reg.rasHangCtrl 31 30 = 0) (m : Mem) (l : List Nat) : d.hangAction m l = d := by
  unfold Dev.hangAction
  dsimp only
  rw [h]
  rfl

/-- A hang that is only reported (R366). -/
def Dev.hangSeen (d : Dev) (u : Nat) (l : List Nat) : Dev :=
  ((d.withRas { d.ras with localCycle := some u }).event (d.unitOwners l) 0x0B06 3 (d.unitWait u).word.toNat l.length (tileOfUnit u)).bump Reg.rasHangs

theorem reportHang_seen {m : Mem} (h : d.rf Reg.rasHangCtrl 31 30 = 0) (u : Nat) (l : List Nat) : d.reportHang m u l = d.hangSeen u l := by
  have haction : (d.hangSeen u l).rf Reg.rasHangCtrl 31 30 = 0 := by
    rw [← h, Dev.rf, Dev.rf]
    have hreg : (d.hangSeen u l).reg Reg.rasHangCtrl = d.reg Reg.rasHangCtrl := by
      show ((d.withRas { d.ras with localCycle := some u }).event (d.unitOwners l) 0x0B06 3 (d.unitWait u).word.toNat l.length (tileOfUnit u)).reg _ = _
      simp
    rw [hreg]
  exact hangAction_none haction m l

theorem sameWaits_hangSeen (u : Nat) (l : List Nat) : SameWaits d (d.hangSeen u l) :=
  ((sameWaits_of_ras (d := d) (e := d.withRas { d.ras with localCycle := some u }) rfl rfl rfl rfl rfl).trans (sameWaits_event _ _ _ _ _ _)).trans
    (sameWaits_bump _)

theorem hangSeen_counts (u : Nat) (l : List Nat) : (d.hangSeen u l).count Reg.rasHangs = d.count Reg.rasHangs + 1 ∧
    (d.hangSeen u l).ras.localCycle = some u := by
  refine ⟨?_, ?_⟩
  · rw [Dev.hangSeen, Dev.count_bump_same, count_event_hangs]
    rfl
  · show ((d.withRas { d.ras with localCycle := some u }).event (d.unitOwners l) 0x0B06 3 (d.unitWait u).word.toNat l.length (tileOfUnit u)).ras.localCycle = _
    simp

/-! A sample as a whole. -/

/-- `d` with every unit's wait sampled once more. -/
def Dev.sampledBy (d : Dev) (m : Mem) : Dev :=
  d.withRas { d.ras with waits := (List.range waitUnits).map (fun u => (u, (d.unitWait u).next (d.waitOn m u))) }

/-- The local cycles, each at its lowest unit. -/
def Dev.localCycles (d : Dev) : List (Nat × List Nat) := (List.range waitUnits).filterMap (fun u => (d.cycleAt u).map (fun l => (u, l)))

/-- `d` with the cycles that have stood noted. -/
def Dev.cyclesNoted (d : Dev) : Dev :=
  d.withRas { d.ras with localCycle := ((d.localCycles.filter (fun c => 8 ≤ d.stood c.2)).map (·.1)).head?,
                         remoteCycle := d.ras.remoteCycle.bind (fun u => if (d.unitWait u).same < 8 then none else some u) }

/-- The probes of a sample. -/
def Dev.probesSent (d : Dev) : Dev :=
  if d.rb Reg.rasHangCtrl 29 then d.each (List.range waitUnits) (fun d u => if (d.unitWait u).probed then d else d.probeFrom u) else d

/-- What precedes the report of hangs. -/
def Dev.checkedSample (d : Dev) : Dev := (d.cyclesNoted.each (List.range waitUnits) (fun d u => d.stallCheck u)).probesSent

theorem xWaitGraphSample_eq (m : Mem) (h : d.lost 4 = false) : xWaitGraphSample m d =
    (d.sampledBy m).checkedSample.each ((d.sampledBy m).localCycles.filter (fun c => (d.sampledBy m).checkedSample.stood c.2 = 8))
      (fun d c => d.reportHang m c.1 c.2) := by
  have hnoted : ∀ e : Dev, e.cyclesNoted = e.withRas { e.ras with localCycle := ((e.localCycles.filter (fun c => 8 ≤ e.stood c.2)).map (·.1)).head?, remoteCycle := match e.ras.remoteCycle with | some u => if (e.unitWait u).same < 8 then none else some u | none => none } := fun e => by
    unfold Dev.cyclesNoted
    cases e.ras.remoteCycle <;> rfl
  unfold xWaitGraphSample Dev.checkedSample
  rw [if_neg (by simp [h]), hnoted]
  rfl

theorem sameWaits_checkedSample (d : Dev) : SameWaits d d.checkedSample ∧ d.checkedSample.count Reg.rasHangs = d.count Reg.rasHangs := by
  have hnoted : SameWaits d d.cyclesNoted := sameWaits_of_ras rfl rfl rfl rfl rfl
  obtain ⟨e, he⟩ : ∃ e, e = d.cyclesNoted.each (List.range waitUnits) (fun d u => d.stallCheck u) := ⟨_, rfl⟩
  have hstall : SameWaits d e := hnoted.trans (he ▸ sameWaits_each fun _ u => sameWaits_stallCheck u)
  have hhangs : e.count Reg.rasHangs = d.count Reg.rasHangs := by
    rw [he]
    exact Dev.each_invariant (P := fun e => e.count Reg.rasHangs = d.count Reg.rasHangs) (fun e u _ h => (hangs_stallCheck u).trans h) rfl
  unfold Dev.checkedSample Dev.probesSent
  rw [← he]
  split
  · refine ⟨hstall.trans (sameWaits_each fun f u => ?_),
      Dev.each_invariant (P := fun e => e.count Reg.rasHangs = d.count Reg.rasHangs) (fun f u _ h => ?_) hhangs⟩
    · split
      · exact .refl f
      · exact sameWaits_probeFrom u
    · split
      · exact h
      · exact (hangs_probeFrom u).trans h
  · exact ⟨hstall, hhangs⟩

end

theorem sampled_eq (s : State) : sampled s = s.begin.sampledBy s.mem := rfl

/-- Reports alone leave the sample as it was taken. -/
theorem waitGraphSample_keeps (s : State) (hup : s.dev.lost 4 = false) (haction : s.dev.rf Reg.rasHangCtrl 31 30 = 0) :
    Ends .waitGraphSample s (fun u => (∀ x, x < waitUnits → (u.dev.unitWait x).word = ((sampled s).unitWait x).word ∧
        (u.dev.unitWait x).same = ((sampled s).unitWait x).same) ∧ u.mem = s.mem ∧ u.dev.regs = s.dev.regs ∧ u.dev.tiles = s.dev.tiles) := by
  have heffect := xWaitGraphSample_eq (d := s.begin) s.mem hup
  obtain ⟨d, hd⟩ : ∃ d, d = s.begin.sampledBy s.mem := ⟨_, rfl⟩
  obtain ⟨hchecked, -⟩ := sameWaits_checkedSample d
  have hfields : d.regs = s.dev.regs ∧ d.tiles = s.dev.tiles ∧ d.stores = [] ∧ d.wipes = [] := by
    rw [hd]
    exact ⟨rfl, rfl, rfl, rfl⟩
  obtain ⟨hregs, htiles, hstores, hwipes⟩ := hfields
  rw [← hd] at heffect
  obtain ⟨e, he⟩ : ∃ e, e = d.checkedSample.each (d.localCycles.filter (fun c => d.checkedSample.stood c.2 = 8)) (fun d c => d.reportHang s.mem c.1 c.2) := ⟨_, rfl⟩
  have hall : SameWaits d e := by
    rw [he]
    refine Dev.each_invariant (P := SameWaits d) (fun f c _ hf => ?_) hchecked
    have hzero : f.rf Reg.rasHangCtrl 31 30 = 0 := by
      rw [← haction, Dev.rf, Dev.rf, Dev.reg, Dev.reg, hf.regs, hregs]
    rw [reportHang_seen hzero]
    exact hf.trans (sameWaits_hangSeen _ _)
  rw [← he] at heffect
  rw [sampled_eq, ← hd]
  exact ends_of_run (x := xWaitGraphSample) rfl heffect ⟨fun x _ => ⟨hall.word x, hall.same x⟩, s.commit_mem _ (hall.stores.trans hstores) (hall.wipes.trans hwipes),
    hall.regs.trans hregs, hall.tiles.trans htiles⟩

theorem waitGraphSample_hangs (s : State) (x : Nat) (l : List Nat) (hup : s.dev.lost 4 = false) (haction : s.dev.rf Reg.rasHangCtrl 31 30 = 0)
    (honly : ((List.range waitUnits).filterMap (fun u => ((sampled s).cycleAt u).map (fun l => (u, l)))).filter (fun c => (sampled s).stood c.2 = 8) = [(x, l)]) :
    Ends .waitGraphSample s (fun u => u.dev.count Reg.rasHangs = s.dev.count Reg.rasHangs + 1 ∧ u.dev.ras.localCycle = some x) := by
  have heffect := xWaitGraphSample_eq (d := s.begin) s.mem hup
  obtain ⟨d, hd⟩ : ∃ d, d = s.begin.sampledBy s.mem := ⟨_, rfl⟩
  obtain ⟨hchecked, hhangs⟩ := sameWaits_checkedSample d
  have hfields : d.regs = s.dev.regs ∧ d.count Reg.rasHangs = s.dev.count Reg.rasHangs := by
    rw [hd]
    exact ⟨rfl, rfl⟩
  obtain ⟨hregs, hcount⟩ := hfields
  rw [sampled_eq, ← hd] at honly
  rw [← hd] at heffect
  have hone : d.localCycles.filter (fun c => d.checkedSample.stood c.2 = 8) = [(x, l)] := by
    rw [← honly]
    simp only [hchecked.stood]
    rfl
  have hzero : d.checkedSample.rf Reg.rasHangCtrl 31 30 = 0 := by
    rw [← haction, Dev.rf, Dev.rf, Dev.reg, Dev.reg, hchecked.regs, hregs]
  obtain ⟨hseen, hcycle⟩ := hangSeen_counts (d := d.checkedSample) x l
  rw [hone, Dev.each_cons, Dev.each_nil, reportHang_seen hzero] at heffect
  obtain ⟨e, he⟩ : ∃ e, e = d.checkedSample.hangSeen x l := ⟨_, rfl⟩
  rw [← he] at heffect hseen hcycle
  exact ends_of_run (x := xWaitGraphSample) rfl heffect ⟨hseen.trans (by rw [hhangs, hcount]), hcycle⟩

end Sys2Proof.Machine
end

section
/-! A wait graph without waits, and what a probe is answered with (R365, R368). -/

namespace Sys2Proof.Machine

open Sys2Proof.Claims (Ends Answers sampled)

/-- No unit of `d` waits. -/
def Dev.noneWaits (d : Dev) : Prop := ∀ u, wKind (d.unitWait u).word = 0 ∧ (d.unitWait u).same = 0

section
variable {d e : Dev}

theorem wKind_noWait (n : Nat) : wKind (waitWord noWait n) = 0 := by
  have hlow : n % 2 ^ 16 * 2 ^ 32 < 2 ^ 61 := by omega
  have hword : (waitWord noWait n).toNat = n % 2 ^ 16 * 2 ^ 32 := by
    rw [waitWord, BitVec.toNat_ofNat]
    show (0 * 2 ^ 61 + n % 2 ^ 16 * 2 ^ 32 + 0 * 2 ^ 9 + 0) % 2 ^ 64 = _
    omega
  rw [wKind, fb, hword, fld_eq_div_mod, Nat.div_eq_of_lt hlow]
  rfl

theorem noneWaits_sampledBy {m : Mem} (h : ∀ x, x < waitUnits → (d.waitOn m x).kind = 0) : (d.sampledBy m).noneWaits := fun u => by
  have hunit : (d.sampledBy m).unitWait u = if u < waitUnits then (d.unitWait u).next (d.waitOn m u) else {} := by
    show mget {} ((List.range waitUnits).map (fun u => (u, (d.unitWait u).next (d.waitOn m u)))) u = _
    rw [mget, mfind_map_range]
    split <;> rfl
  rw [hunit]
  split
  case isTrue hu =>
    rw [UnitWait.next, if_pos (h u hu)]
    exact ⟨wKind_noWait _, rfl⟩
  case isFalse => exact ⟨by decide, rfl⟩

theorem SameWaits.noneWaits (h : SameWaits d e) (hd : d.noneWaits) : e.noneWaits := fun u => by
  rw [h.word, h.same]
  exact hd u

theorem chain_noneWaits (h : d.noneWaits) (u : Nat) : d.chain u = ([u], none) := by
  unfold Dev.chain chainFrom
  rw [if_neg (by simp), if_neg (by rw [(h u).1]; decide)]
  rfl

theorem localCycles_noneWaits (h : d.noneWaits) : d.localCycles = [] := by
  refine List.filterMap_eq_nil_iff.mpr fun u _ => ?_
  rw [Dev.cycleAt, chain_noneWaits h]
  rfl

theorem stallCheck_noneWaits (h : d.noneWaits) (u : Nat) : d.stallCheck u = d := by
  unfold Dev.stallCheck
  dsimp only
  rw [(h u).1, if_pos (by simp)]

theorem probeFrom_noneWaits (h : d.noneWaits) (u : Nat) : d.probeFrom u = d := by
  have hend : d.remoteEnd u = none := by
    unfold Dev.remoteEnd
    rw [chain_noneWaits h]
    dsimp only
    rw [show ([u] : List Nat).getLastD u = u from rfl, (h u).1]
    rfl
  unfold Dev.probeFrom
  rw [hend]

/-- `d` without cycles. -/
def Dev.noCycles (d : Dev) : Dev := d.withRas { d.ras with localCycle := none, remoteCycle := none }

theorem checkedSample_noneWaits (h : d.noneWaits) : d.checkedSample = d.noCycles := by
  have hnoted : d.cyclesNoted = d.noCycles := by
    have hremote : (d.ras.remoteCycle.bind (fun u => if (d.unitWait u).same < 8 then none else some u)) = none := by
      cases d.ras.remoteCycle with
      | none => rfl
      | some u =>
        rw [Option.bind_some, if_pos (by rw [(h u).2]; decide)]
    rw [Dev.cyclesNoted, localCycles_noneWaits h, hremote]
    rfl
  have hnone : d.noCycles.noneWaits := (sameWaits_of_ras (d := d) (e := d.noCycles) rfl rfl rfl rfl rfl).noneWaits h
  have hstall : d.noCycles.each (List.range waitUnits) (fun d u => d.stallCheck u) = d.noCycles :=
    Dev.each_invariant (P := fun e => e = d.noCycles) (fun e u _ he => by rw [he]; exact stallCheck_noneWaits hnone u) rfl
  have hprobe : d.noCycles.each (List.range waitUnits) (fun d u => if (d.unitWait u).probed then d else d.probeFrom u) = d.noCycles :=
    Dev.each_invariant (P := fun e => e = d.noCycles) (fun e u _ he => by
      rw [he]
      split
      · rfl
      · exact probeFrom_noneWaits hnone u) rfl
  rw [Dev.checkedSample, hnoted, hstall, Dev.probesSent, hprobe, ite_self]

end

theorem waitGraphSample_idle (s : State) (hup : s.dev.lost 4 = false) (hnone : ∀ x, x < waitUnits → (s.begin.waitOn s.mem x).kind = 0) :
    Ends .waitGraphSample s (fun u => u.dev.ras.localCycle = none ∧ u.dev.ras.remoteCycle = none ∧ (∀ x, x < waitUnits → (u.dev.unitWait x).same = 0) ∧
      u.mem = s.mem ∧ u.dev.counters = s.dev.counters ∧ u.dev.tags = s.dev.tags) := by
  have heffect := xWaitGraphSample_eq (d := s.begin) s.mem hup
  obtain ⟨d, hd⟩ : ∃ d, d = s.begin.sampledBy s.mem := ⟨_, rfl⟩
  have hwaits : d.noneWaits := hd ▸ noneWaits_sampledBy hnone
  have hfields : d.stores = [] ∧ d.wipes = [] ∧ d.counters = s.dev.counters ∧ d.tags = s.dev.tags := by
    rw [hd]
    exact ⟨rfl, rfl, rfl, rfl⟩
  obtain ⟨hstores, hwipes, hcounters, htags⟩ := hfields
  rw [← hd, localCycles_noneWaits hwaits, checkedSample_noneWaits hwaits, List.filter_nil, Dev.each_nil] at heffect
  exact ends_of_run (x := xWaitGraphSample) rfl heffect ⟨rfl, rfl, fun x _ => (hwaits x).2, s.commit_mem _ hstores hwipes, hcounters, htags⟩

/-! Probes. -/

theorem remoteEnd_of_waits {d e : Dev} (h : e.ras.waits = d.ras.waits) (u : Nat) : e.remoteEnd u = d.remoteEnd u := by
  have hunit : e.unitWait = d.unitWait := funext fun u => by rw [Dev.unitWait, h, Dev.unitWait]
  unfold Dev.remoteEnd Dev.chain Dev.stood
  rw [hunit]

theorem xWprobePeriod_probes {d : Dev} {x : Nat} (m : Mem) (hup : d.lost 4 = false) (hon : d.rb Reg.rasHangCtrl 29 = true)
    (hprobed : (d.unitWait x).probed = true) : xWprobePeriod x m d = d.probeFrom x := by
  have h : (!d.lost 4 && d.rb Reg.rasHangCtrl 29 && (d.unitWait x).probed) = true := by rw [hup, hon, hprobed]; rfl
  exact if_pos h

theorem wprobePeriod_ends (s : State) (x : Fin 284) (n t : Nat) (hup : s.dev.lost 4 = false) (hon : s.dev.rb Reg.rasHangCtrl 29 = true)
    (hprobed : (s.dev.unitWait x).probed = true) (hend : s.dev.remoteEnd x = some (n, t)) :
    Ends (.wprobePeriod x) s (fun u => u.dev.ras.probeId = s.dev.ras.probeId + 1 ∧
      (∃ g : Tag, u.dev.tags = s.dev.tags ++ [g] ∧ g.purpose = .probe ∧ g.op = opWPROBE) ∧ u.mem = s.mem ∧ u.dev.regs = s.dev.regs ∧
      u.dev.counters = s.dev.counters ∧ u.dev.tiles = s.dev.tiles) := by
  obtain ⟨data, hdata⟩ := probeFrom_sends ((remoteEnd_of_waits (d := s.dev) (e := s.begin) rfl x).trans hend)
  obtain ⟨d, hd⟩ : ∃ d, d = s.begin.probing x := ⟨_, rfl⟩
  rw [← hd] at hdata
  obtain ⟨g, hg, hpurpose, hop⟩ := sendProbe_issues d n data
  obtain ⟨hregs, hcounters, htiles, -, hstores, hwipes, -, -, hras, -⟩ := hg.fields
  have hfields : d.regs = s.dev.regs ∧ d.counters = s.dev.counters ∧ d.tiles = s.dev.tiles ∧ d.stores = [] ∧ d.wipes = [] ∧ d.tags = s.dev.tags ∧
      d.ras.probeId = s.dev.ras.probeId + 1 := by
    rw [hd]
    exact ⟨rfl, rfl, rfl, rfl, rfl, rfl, rfl⟩
  obtain ⟨hregs', hcounters', htiles', hstores', hwipes', htags', hid⟩ := hfields
  have heffect : xWprobePeriod x s.mem s.begin = d.sendProbe n data := (xWprobePeriod_probes (d := s.begin) s.mem hup hon hprobed).trans hdata
  obtain ⟨e, he⟩ : ∃ e, e = d.sendProbe n data := ⟨_, rfl⟩
  have htags := hg.tags.trans (by rw [htags'])
  rw [← he] at hregs hcounters htiles hstores hwipes hras htags heffect
  exact ends_of_run (x := xWprobePeriod x) rfl heffect ⟨(congrArg Ras.probeId hras).trans hid, ⟨g, htags, hpurpose, hop⟩,
    s.commit_mem _ (hstores.trans hstores') (hwipes.trans hwipes'), hregs.trans hregs', hcounters.trans hcounters', htiles.trans htiles'⟩

/-- A probe is acknowledged, before anything else is done with it. -/
def Dev.probeTaken (d : Dev) (k : Packet) : Dev := (d.taken k).respond k opWPROBERSP 0 0 0 []

theorem taken_keeps (d : Dev) (k : Packet) : (d.taken k).ras = d.ras ∧ (d.taken k).tags = d.tags ∧ (d.taken k).stores = d.stores ∧
    (d.taken k).wipes = d.wipes ∧ (d.taken k).regs = d.regs ∧ (d.taken k).counters = d.counters ∧ (d.taken k).tiles = d.tiles ∧
    (d.taken k).lost 4 = d.lost 4 ∧ (d.taken k).node = d.node :=
  ⟨rfl, rfl, rfl, rfl, rfl, rfl, rfl, rfl, rfl⟩

theorem lost_withPackets (d : Dev) (l i : List Packet) (n : Nat) : (d.withPackets l i).lost n = d.lost n := rfl

/-- The acknowledgement of another node's probe is the packet that it sends. -/
theorem probeTaken_leaves {d : Dev} {k : Packet} (haway : k.src ≠ d.node) : (d.probeTaken k).ras = d.ras ∧ (d.probeTaken k).tags = d.tags ∧
    (d.probeTaken k).stores = d.stores ∧ (d.probeTaken k).wipes = d.wipes ∧ (d.probeTaken k).regs = d.regs ∧
    (d.probeTaken k).counters = d.counters ∧ (d.probeTaken k).tiles = d.tiles ∧ (d.probeTaken k).lost 4 = d.lost 4 := by
  obtain ⟨hras, htags, hstores, hwipes, hregs, hcounters, htiles, hlost, hnode⟩ := taken_keeps d k
  obtain ⟨e, he⟩ : ∃ e, e = d.taken k := ⟨_, rfl⟩
  rw [← he] at hras htags hstores hwipes hregs hcounters htiles hlost hnode
  obtain ⟨p, hp, -⟩ := respond_away (d := e) (op := opWPROBERSP) (status := 0) 0 0 [] (by decide) (by decide) (hnode ▸ haway)
  rw [Dev.probeTaken, ← he, hp]
  exact ⟨hras, htags, hstores, hwipes, hregs, hcounters, htiles, (lost_withPackets _ _ _ _).trans hlost⟩

theorem probeTaken_answers {s : State} {k : Packet} (haway : k.src ≠ s.dev.node) : Answers s (s.commit (s.begin.probeTaken k)) k opWPROBERSP 0 [] :=
  answers_of_respond 0 0 (by decide) (by decide) haway rfl rfl rfl

theorem wprobe_ends_chain (s : State) (k : Packet) (hop : k.opc = opWPROBE) (hecrc : k.ecrcOk = true) (haway : k.src ≠ s.dev.node) (hup : s.dev.lost 4 = false)
    (hlen : k.data.length = 32) (hkind : leOf ((k.data.drop 11).take 1) = 0)
    (hend : s.dev.remoteEnd (leOf ((k.data.drop 12).take 2) % 512) = none) :
    Ends (.wprobe k) s (fun u => Answers s u k opWPROBERSP 0 [] ∧ u.dev.ras = s.dev.ras ∧ u.dev.tags = s.dev.tags ∧ u.mem = s.mem ∧
      u.dev.regs = s.dev.regs ∧ u.dev.counters = s.dev.counters) := by
  have hanswers := probeTaken_answers haway
  obtain ⟨hras, htags, hstores, hwipes, hregs, hcounters, -, hlost⟩ := probeTaken_leaves (d := s.begin) haway
  obtain ⟨d, hd⟩ : ∃ d, d = s.begin.probeTaken k := ⟨_, rfl⟩
  rw [← hd] at hanswers hras htags hstores hwipes hregs hcounters hlost
  have hlost' : d.lost 4 = false := hlost.trans hup
  have hend' : d.remoteEnd (leOf ((k.data.drop 12).take 2) % 512) = none := (remoteEnd_of_waits (d := s.dev) (congrArg Ras.waits hras) _).trans hend
  have heffect : xWprobe k s.mem s.begin = d := by
    unfold xWprobe
    rw [hop, checked_ok hecrc, if_neg (by simp)]
    extract_lets e w node unit path target
    have he : e = d := hd.symm
    have hpath : w 11 1 = 0 := hkind
    have htarget : d.remoteEnd target = none := hend'
    clear_value e target path unit node w
    subst he
    rw [if_neg (by simp [hlost', hlen]), if_neg (by rw [hpath]; decide), htarget]
    exact ite_self _
  exact ends_of_run (x := xWprobe k) rfl heffect ⟨hanswers, hras, htags, s.commit_mem _ hstores hwipes, hregs, hcounters⟩

/-- `d` with a cycle across packages noted that unit `x` began. -/
def Dev.cycleNoted (d : Dev) (x : Nat) : Dev := d.withRas { d.ras with remoteCycle := some x }

/-- A hang across packages that is only reported. -/
def Dev.remoteHang (d : Dev) (x p q : Nat) : Dev :=
  ((d.cycleNoted x).event ((d.cycleNoted x).unitOwners ((d.cycleNoted x).chain x).1) 0x0B07 3 p q (tileOfUnit x)).bump Reg.rasHangs

theorem remoteHang_leaves (d : Dev) (x p q : Nat) : (d.remoteHang x p q).ras.remoteCycle = some x ∧
    (d.remoteHang x p q).count Reg.rasHangs = d.count Reg.rasHangs + 1 ∧ (d.remoteHang x p q).localOut = d.localOut ∧
    (d.remoteHang x p q).inbox = d.inbox ∧ (d.remoteHang x p q).stores = d.stores ∧ (d.remoteHang x p q).wipes = d.wipes ∧
    (d.remoteHang x p q).regs = d.regs ∧ (d.remoteHang x p q).tiles = d.tiles := by
  obtain ⟨f, hf⟩ : ∃ f, f = d.cycleNoted x := ⟨_, rfl⟩
  obtain ⟨e, he⟩ : ∃ e, e = f.event (f.unitOwners (f.chain x).1) 0x0B07 3 p q (tileOfUnit x) := ⟨_, rfl⟩
  have hnoted : f.ras.remoteCycle = some x ∧ f.localOut = d.localOut ∧ f.inbox = d.inbox ∧ f.stores = d.stores ∧ f.wipes = d.wipes ∧ f.regs = d.regs ∧
      f.tiles = d.tiles ∧ f.count Reg.rasHangs = d.count Reg.rasHangs := by
    rw [hf]
    exact ⟨rfl, rfl, rfl, rfl, rfl, rfl, rfl, rfl⟩
  have hfields : e.ras.remoteCycle = some x ∧ e.localOut = d.localOut ∧ e.inbox = d.inbox ∧ e.stores = d.stores ∧ e.wipes = d.wipes ∧ e.regs = d.regs ∧
      e.tiles = d.tiles ∧ e.count Reg.rasHangs = d.count Reg.rasHangs := by
    rw [he, count_event_hangs]
    simpa using hnoted
  obtain ⟨hras, hsent, hinbox, hstores, hwipes, hregs, htiles, hcount⟩ := hfields
  rw [Dev.remoteHang, ← hf, ← he, Dev.count_bump_same, hcount]
  exact ⟨hras, rfl, hsent, hinbox, hstores, hwipes, hregs, htiles⟩

theorem wprobe_cycle (s : State) (k : Packet) (hop : k.opc = opWPROBE) (hecrc : k.ecrcOk = true) (haway : k.src ≠ s.dev.node) (hup : s.dev.lost 4 = false)
    (hlen : k.data.length = 32) (hkind : leOf ((k.data.drop 11).take 1) = 1) (hnode : leOf ((k.data.drop 0).take 4) % 2 ^ 23 = s.dev.node)
    (hwaits : wKind (s.dev.unitWait (leOf ((k.data.drop 4).take 2) % 512)).word ≠ 0)
    (hserial : wSerial (s.dev.unitWait (leOf ((k.data.drop 4).take 2) % 512)).word = leOf ((k.data.drop 6).take 2))
    (haction : s.dev.rf Reg.rasHangCtrl 31 30 = 0) :
    Ends (.wprobe k) s (fun u => Answers s u k opWPROBERSP 0 [] ∧ u.dev.ras.remoteCycle = some (leOf ((k.data.drop 4).take 2) % 512) ∧
      u.dev.count Reg.rasHangs = s.dev.count Reg.rasHangs + 1 ∧ u.mem = s.mem ∧ u.dev.regs = s.dev.regs ∧ u.dev.tiles = s.dev.tiles) := by
  have hanswers := probeTaken_answers haway
  obtain ⟨hras, -, hstores, hwipes, hregs, hcounters, htiles, hlost⟩ := probeTaken_leaves (d := s.begin) haway
  obtain ⟨d, hd⟩ : ∃ d, d = s.begin.probeTaken k := ⟨_, rfl⟩
  rw [← hd] at hanswers hras hstores hwipes hregs hcounters htiles hlost
  obtain ⟨x, hx⟩ : ∃ x, x = leOf ((k.data.drop 4).take 2) % 512 := ⟨_, rfl⟩
  rw [← hx] at hwaits hserial ⊢
  have hunit : d.unitWait x = s.dev.unitWait x := by
    rw [Dev.unitWait, hras, Dev.unitWait]
    rfl
  have hnode' : d.node = s.dev.node := by rw [Dev.node, Dev.rf, Dev.reg, hregs]; rfl
  have hlost' : d.lost 4 = false := hlost.trans hup
  have hzero : ∀ p q, (d.remoteHang x p q).rf Reg.rasHangCtrl 31 30 = 0 := fun p q => by
    rw [← haction, Dev.rf, Dev.rf, Dev.reg, Dev.reg, (remoteHang_leaves d x p q).2.2.2.2.2.2.1, hregs]
    rfl
  obtain ⟨p, q, heffect⟩ : ∃ p q, xWprobe k s.mem s.begin = d.remoteHang x p q := by
    unfold xWprobe
    rw [hop, checked_ok hecrc, if_neg (by simp)]
    extract_lets e w node unit path target
    have he : e = d := hd.symm
    have hpath : w 11 1 = 1 := hkind
    have hhere : node = d.node := hnode.trans hnode'.symm
    have hx' : unit = x := hx.symm
    have hserial' : wSerial (d.unitWait unit).word = w 6 2 := by rw [hx', hunit]; exact hserial
    have hwaits' : wKind (d.unitWait unit).word ≠ 0 := by rw [hx', hunit]; exact hwaits
    clear_value e target path unit node w
    subst he hx'
    refine ⟨node + unit * 2 ^ 32, path, ?_⟩
    rw [if_neg (by simp [hlost', hlen]), if_pos hpath]
    rw [if_pos (by simp only [hhere, decide_true, Bool.true_and, Bool.and_eq_true, bne_iff_ne, decide_eq_true_eq]; exact ⟨hwaits', hserial'⟩)]
    exact hangAction_none (hzero _ _) _ _
  obtain ⟨hcycle, hcount, hsent, hinbox, hstores', hwipes', hregs', htiles'⟩ := remoteHang_leaves d x p q
  obtain ⟨f, hf⟩ : ∃ f, f = d.remoteHang x p q := ⟨_, rfl⟩
  rw [← hf] at heffect hcycle hcount hsent hinbox hstores' hwipes' hregs' htiles'
  have hcount' : d.count Reg.rasHangs = s.dev.count Reg.rasHangs := congrArg (mget 0 · Reg.rasHangs) hcounters
  obtain ⟨y, hy, hreads⟩ := hanswers
  refine ends_of_run (x := xWprobe k) rfl heffect ⟨⟨y, ?_, ?_⟩, hcycle, hcount.trans (by rw [hcount']), s.commit_mem _ (hstores'.trans hstores) (hwipes'.trans hwipes),
    hregs'.trans hregs, htiles'.trans htiles⟩
  · rw [State.commit_localOut, hsent]
    exact hy
  · rw [State.commit_inbox, hinbox]
    exact hreads

/-- Settles O48, clause by clause: buckets leak by the Lodestone's count, the score secures once at its threshold, and a sample of the wait graph or a
probe reports the cycles that have stood. -/
theorem scoresWaitsAndProbes : Obligations.ScoresWaitsAndProbes :=
  ⟨bucketLeak_due, bucketLeak_early, rasLbCfgWrite_taken, rasLbCfgWrite_ignored, healthScore_below, healthScore_fires, secureNow_ends, waitGraphSample_keeps,
    waitGraphSample_idle, waitGraphSample_hangs, wprobePeriod_ends, wprobe_ends_chain, wprobe_cycle⟩

end Sys2Proof.Machine
end

section
/-! What stays of the dies when one is lost (R22, R38, Table 12.13): their own records, the fuses and the stacks. -/

namespace Sys2Proof.Machine

open Sys2Proof.Claims (Ends Quiet)

/-- What the loss of a die leaves: the fuses, the stacks, the records of the dies, and the resets under way. -/
def Dev.bodies (d : Dev) : Fuses × Map Stack × Map Die × List ResetRun := (d.fuses, d.hbm, d.dies, d.ras.resets)

section
variable (d : Dev)

@[simp] theorem bodies_event (cs : List Nat) (code sev d0 d1 unit : Nat) : (d.event cs code sev d0 d1 unit).bodies = d.bodies := by
  simp only [Dev.bodies, Dev.event_fields]

@[simp] theorem bodies_hwr (p c a : Nat) (bs : List Byte) (u : Purpose) (x y : Nat) : (d.hwr p c a bs u x y).bodies = d.bodies := by
  simp only [Dev.bodies, Dev.hwr_fields]

@[simp] theorem bodies_pkgEvent (code sev d0 d1 : Nat) : (d.pkgEvent code sev d0 d1).bodies = d.bodies := bodies_event ..
@[simp] theorem bodies_tileEvent (t code sev d0 d1 : Nat) : (d.tileEvent t code sev d0 d1).bodies = d.bodies := bodies_event ..
@[simp] theorem bodies_dieEvent (i code sev d0 d1 : Nat) : (d.dieEvent i code sev d0 d1).bodies = d.bodies := bodies_event ..
@[simp] theorem bodies_bump (k : Nat) : (d.bump k).bodies = d.bodies := rfl
@[simp] theorem bodies_bumpN (k n : Nat) : (d.bumpN k n).bodies = d.bodies := rfl
@[simp] theorem bodies_setCtx (c : Nat) (x : Ctx) : (d.setCtx c x).bodies = d.bodies := rfl
@[simp] theorem bodies_setTile (t : Nat) (x : Tile) : (d.setTile t x).bodies = d.bodies := rfl
@[simp] theorem bodies_setHost (p : Nat) (x : HostPort) : (d.setHost p x).bodies = d.bodies := rfl
@[simp] theorem bodies_setPort (p : Nat) (x : FabPort) : (d.setPort p x).bodies = d.bodies := rfl
@[simp] theorem bodies_setModule (n i : Nat) (x : D2dModule) : (d.setModule n i x).bodies = d.bodies := rfl
@[simp] theorem bodies_setRf (k hi lo x : Nat) : (d.setRf k hi lo x).bodies = d.bodies := rfl
@[simp] theorem bodies_setStage (c v : Nat) (x : Stage) : (d.setStage c v x).bodies = d.bodies := rfl
@[simp] theorem bodies_emit (o : Out) : (d.emit o).bodies = d.bodies := rfl
@[simp] theorem bodies_retireTags (f : Tag → Bool) : (d.retireTags f).bodies = d.bodies := rfl
@[simp] theorem bodies_noteLink : d.noteLink.bodies = d.bodies := rfl
@[simp] theorem bodies_loadLimits (m : Mem) : (d.loadLimits m).bodies = d.bodies := rfl
@[simp] theorem bodies_enginesLost (i : Nat) : (d.enginesLost i).bodies = d.bodies := rfl
@[simp] theorem bodies_cutSample (m : Mem) (t : Nat) : (d.cutSample m t).bodies = d.bodies := rfl
@[simp] theorem bodies_activatePlane (t : Nat) (p : BitVec 512) : (d.activatePlane t p).bodies = d.bodies := rfl
@[simp] theorem bodies_mailboxError (m err : Nat) : (d.mailboxError m err).bodies = d.bodies := rfl
@[simp] theorem bodies_dropRun (c : Nat) (seq : BitVec 32) : (d.dropRun c seq).bodies = d.bodies := rfl

/-- Steps that leave the bodies leave them together. -/
theorem bodies_each {α : Type} {l : List α} {f : Dev → α → Dev} (h : ∀ d a, (f d a).bodies = d.bodies) : (d.each l f).bodies = d.bodies :=
  Dev.each_frame Dev.bodies l h d

@[simp] theorem bodies_noteDegraded : d.noteDegraded.bodies = d.bodies := by
  rcases d.noteDegraded_cases with h | ⟨x, r, h⟩
  · rw [h]
  · rw [h, bodies_pkgEvent]
    rfl

@[simp] theorem bodies_breakGuard (r : Requester) : (d.breakGuard r).bodies = d.bodies := by
  unfold Dev.breakGuard
  split <;> rfl

/-! Runs and tiles. -/

@[simp] theorem bodies_endRun (c : Nat) (seq : BitVec 32) (status code unit detail addr : Nat) :
    (d.endRun c seq status code unit detail addr).bodies = d.bodies := by
  unfold Dev.endRun
  split
  · rfl
  · split
    · rfl
    · exact bodies_hwr ..

@[simp] theorem bodies_stopRun (c : Nat) (seq : BitVec 32) (status code unit detail addr : Nat) :
    (d.stopRun c seq status code unit detail addr).bodies = d.bodies := by
  refine (bodies_endRun ..).trans ((bodies_each _ fun d p => ?_).trans (bodies_retireTags ..))
  dsimp only
  split <;> rfl

@[simp] theorem bodies_runsOnDie (i c : Nat) : (d.runsOnDie i c).bodies = d.bodies := bodies_each _ fun _ _ => bodies_stopRun ..

@[simp] theorem bodies_cplFinish (c : Nat) (seq : BitVec 32) : (d.cplFinish c seq).bodies = d.bodies := by
  unfold Dev.cplFinish
  split
  · rfl
  · split
    · dsimp only
      split <;> simp
    · rfl

theorem bodies_loadRecords (r : Reader) (t n : Nat) (o : Nat) (d : Dev) : (loadRecords r t n o d).bodies = d.bodies := by
  induction n generalizing o d with
  | zero => rfl
  | succ n ih => exact ih ..

theorem bodies_loadPayload (r : Reader) (s : Section) (t : Nat) : (loadPayload r s t d).bodies = d.bodies := bodies_loadRecords ..

@[simp] theorem bodies_loadTile (r : Reader) (t phase : Nat) : (d.loadTile r t phase).bodies = d.bodies := by
  unfold Dev.loadTile
  split
  · rfl
  · split
    · rfl
    · rw [bodies_activatePlane, bodies_loadPayload]

@[simp] theorem bodies_reloadTiles (m : Mem) (ts : List Nat) (phase : Nat) : (d.reloadTiles m ts phase).bodies = d.bodies := by
  unfold Dev.reloadTiles
  split
  · exact bodies_each _ fun _ _ => bodies_loadTile ..
  · rfl

@[simp] theorem bodies_unitFault (m : Mem) (c t : Nat) (halted : Bool) : (d.unitFault m c t halted).bodies = d.bodies := by
  unfold Dev.unitFault
  dsimp only
  split
  · rfl
  · split
    · split
      · rfl
      · split <;> simp
    · split <;> simp

@[simp] theorem bodies_tileErrorAt (m : Mem) (t code d0 d1 : Nat) (record : Bool) (detail addr : Nat) :
    (d.tileErrorAt m t code d0 d1 record detail addr).bodies = d.bodies := by
  unfold Dev.tileErrorAt
  extract_lets x e f
  have hf : f.bodies = d.bodies := by
    unfold f
    split <;> simp [e]
  split
  · exact hf
  · rw [bodies_unitFault]
    split
    · rw [bodies_endRun, hf]
    · exact hf

/-! Links, ports and packets. -/

@[simp] theorem bodies_noRoute (m : Mem) (v : Nat) : (d.noRoute m v).bodies = d.bodies := by
  unfold Dev.noRoute
  split
  · exact bodies_tileErrorAt ..
  · rfl

@[simp] theorem bodies_reroute (m : Mem) (n : Nat) : (d.reroute m n).bodies = d.bodies := by
  refine (bodies_loadLimits ..).trans (bodies_each _ fun d v => ?_)
  split
  · rfl
  · exact bodies_noRoute ..

@[simp] theorem bodies_linkLost (m : Mem) (n : Nat) : (d.linkLost m n).bodies = d.bodies := by
  unfold Dev.linkLost
  extract_lets mods e
  have he : e.bodies = d.bodies := bodies_each _ fun d i => by
    dsimp only
    rw [bodies_noteLink, bodies_each _ fun _ _ => bodies_emit ..]
    rfl
  split
  · exact he
  · rw [bodies_reroute]
    exact he

@[simp] theorem bodies_sendPacket (k : Packet) : (d.sendPacket k).bodies = d.bodies := by
  unfold Dev.sendPacket
  dsimp only
  split <;> rfl

@[simp] theorem bodies_answerFail (k : Packet) (status addr : Nat) : (d.answerFail k status addr).bodies = d.bodies := by
  unfold Dev.answerFail
  split
  · exact bodies_sendPacket ..
  · split
    · exact bodies_sendPacket ..
    · rfl

@[simp] theorem bodies_discard (k : Packet) (status : Nat) : (d.discard k status).bodies = d.bodies := bodies_answerFail ..
@[simp] theorem bodies_enqueue (p : Nat) (adaptive : Bool) (k : Packet) : (d.enqueue p adaptive k).bodies = d.bodies := rfl

@[simp] theorem bodies_hopOrDetour (dim : Nat) (plus : Bool) (k : Packet) : (d.hopOrDetour dim plus k).bodies = d.bodies := by
  unfold Dev.hopOrDetour
  dsimp only
  split
  · rfl
  · split <;> simp

@[simp] theorem bodies_torusRoute (inPort : Option Nat) (dst : Nat) (k : Packet) : (d.torusRoute inPort dst k).bodies = d.bodies := by
  unfold Dev.torusRoute
  dsimp only
  split
  · simp
  · split
    · simp
    · split <;> simp

@[simp] theorem bodies_spurRoute (inPort : Option Nat) (k : Packet) : (d.spurRoute inPort k).bodies = d.bodies := by
  unfold Dev.spurRoute
  split
  · simp
  · dsimp only
    split
    · split <;> simp
    · split
      · simp
      · split <;> simp

@[simp] theorem bodies_bumpIf (b : Bool) (k : Nat) : (d.bumpIf b k).bodies = d.bodies := by
  unfold Dev.bumpIf
  split <;> rfl

@[simp] theorem bodies_route (inPort : Option Nat) (k : Packet) : (d.route inPort k).bodies = d.bodies := by
  unfold Dev.route
  extract_lets k1 k2 e
  split
  · split
    · split <;> simp
    · split <;> rfl
  · split
    · simp [e]
    · split <;> simp [e]

@[simp] theorem bodies_loseParent : d.loseParent.bodies = d.bodies := by
  unfold Dev.loseParent
  split
  · exact bodies_event ..
  · rfl

@[simp] theorem bodies_stopPort (p : Nat) (st : PortState) (failures : Nat) : (d.stopPort p st failures).bodies = d.bodies := by
  unfold Dev.stopPort
  extract_lets x e f g
  have hf : f.bodies = d.bodies := bodies_each _ fun _ _ => bodies_route ..
  have hg : g.bodies = d.bodies := by
    unfold g
    split
    · rw [bodies_loseParent, hf]
    · exact hf
  rw [bodies_noteDegraded, hg]

@[simp] theorem bodies_portDown (p reason : Nat) (failed : Bool) : (d.portDown p reason failed).bodies = d.bodies := by
  unfold Dev.portDown
  dsimp only
  split <;> simp

@[simp] theorem bodies_strataFail (code : Nat) : (d.strataFail code).bodies = d.bodies := bodies_pkgEvent ..

@[simp] theorem bodies_linkDownError (t : Tag) : (d.linkDownError t).bodies = d.bodies := by
  unfold Dev.linkDownError
  split
  · rfl
  · split
    · split
      · split <;> rfl
      · rfl
    · split
      · simp
      · split
        · simp
        · split
          · simp
          · split <;> simp

@[simp] theorem bodies_hostDown (p : Nat) (st : HostState) : (d.hostDown p st).bodies = d.bodies := by
  unfold Dev.hostDown
  extract_lets x was tags e f g h i j
  have hh : h.bodies = d.bodies := (bodies_each _ fun _ _ => bodies_linkDownError ..).trans (bodies_breakGuard ..)
  have hi : i.bodies = d.bodies := (bodies_each _ fun _ _ => bodies_each _ fun _ _ => bodies_cplFinish ..).trans hh
  have hj : j.bodies = d.bodies := by
    unfold j
    split
    · rw [bodies_event, hi]
    · exact hi
  rw [bodies_noteDegraded, hj]

/-! The loss. -/

@[simp] theorem bodies_pipeOnDie (i c : Nat) : (d.pipeOnDie i c).bodies = d.bodies := by
  unfold Dev.pipeOnDie
  dsimp only
  split
  · rfl
  · split <;> simp

@[simp] theorem bodies_ioDieLost (i : Nat) : (d.ioDieLost i).bodies = d.bodies := by
  unfold Dev.ioDieLost
  extract_lets h e f g
  have he : e.bodies = d.bodies := bodies_each _ fun d p => by
    split <;> simp
  have hf : f.bodies = d.bodies := (bodies_each _ fun d p => by dsimp only; split <;> simp).trans he
  have hleaves : ∀ (y : Dev) (l : List InGroup), ({ y with inGroups := l } : Dev).bodies = y.bodies := fun _ _ => rfl
  have hg : g.bodies = d.bodies := (hleaves f _).trans hf
  split
  · exact hg
  · refine (bodies_each _ fun d c => ?_).trans hg
    dsimp only
    split <;> simp

end

/-- No reset is under way: a sample that ends ends none. -/
theorem bodies_sampleDone {d : Dev} (hresets : d.ras.resets = []) (m : Mem) : (d.sampleDone m).bodies = d.bodies := by
  unfold Dev.sampleDone
  rw [hresets]
  exact bodies_event ..

theorem bodies_resets {d e : Dev} (h : e.bodies = d.bodies) : e.ras.resets = d.ras.resets := congrArg (fun x => x.2.2.2) h

theorem bodies_computeDieLost {d : Dev} (hresets : d.ras.resets = []) (m : Mem) (i : Nat) : (d.computeDieLost m i).bodies = d.bodies := by
  unfold Dev.computeDieLost
  extract_lets ts e f copies g
  have he : e.bodies = d.bodies := bodies_each _ fun d c => by rw [bodies_pipeOnDie, bodies_runsOnDie]
  have hf : f.bodies = d.bodies := (bodies_each _ fun d t => by split <;> rfl).trans he
  have hg : g.bodies = d.bodies := (bodies_each _ fun _ _ => bodies_cutSample ..).trans hf
  split
  · exact hg
  · rw [bodies_sampleDone ((bodies_resets hg).trans hresets), hg]

theorem endResets_none {d : Dev} (h : d.ras.resets = []) (m : Mem) : d.endResets m = d := by
  unfold Dev.endResets
  rw [h]
  rfl

theorem recoveryGoes_none {d : Dev} (h : d.ras.resets = []) (m : Mem) : d.recoveryGoes m = d := by
  unfold Dev.recoveryGoes
  rw [h]
  rfl

theorem bodies_dieLost {d : Dev} (hresets : d.ras.resets = []) (m : Mem) (i : Nat) : (d.dieLost m i).bodies = d.bodies := by
  unfold Dev.dieLost
  extract_lets e f g
  have he : e.bodies = d.bodies := bodies_each _ fun _ _ => bodies_linkLost ..
  have hf : f.bodies = d.bodies := by
    unfold f
    split
    · rw [bodies_computeDieLost ((bodies_resets he).trans hresets), he]
    · rw [bodies_ioDieLost, he]
  have hg : g.bodies = d.bodies := by rw [bodies_noteDegraded, bodies_enginesLost, hf]
  have hnone := (bodies_resets hg).trans hresets
  rw [endResets_none hnone, recoveryGoes_none hnone, hg]

/-- A die that is lost has the record given, and the rest stays. -/
theorem bodies_loseDie {d : Dev} (hresets : d.ras.resets = []) (m : Mem) (i code : Nat) (f : Die → Die) :
    (d.loseDie m i code f).bodies = (d.setDie i (f (d.die i))).bodies := by
  unfold Dev.loseDie
  extract_lets was e
  have he : e.bodies = (d.setDie i (f (d.die i))).bodies := bodies_dieEvent ..
  split
  · rw [bodies_noteDegraded, he]
  · rw [bodies_dieLost ((bodies_resets he).trans hresets), he]

/-! The commands. -/

/-- A command that marks die `i` lost by `f` leaves that record, the fuses and the stacks. -/
theorem ends_of_loseDie {c : Instr} {s : State} {x : Effect} {i code : Nat} {f : Die → Die} {P : Die → Prop} (hexec : exec c s = s.run x)
    (heffect : x s.mem s.begin = s.begin.loseDie s.mem i code f) (hresets : s.dev.ras.resets = []) (hP : P (f (s.dev.die i))) :
    Ends c s (fun t => P (t.dev.die i) ∧ t.dev.fuses = s.dev.fuses ∧ t.dev.hbm = s.dev.hbm) := by
  have hbodies := bodies_loseDie (d := s.begin) hresets s.mem i code f
  obtain ⟨e, he⟩ : ∃ e, e = s.begin.loseDie s.mem i code f := ⟨_, rfl⟩
  rw [← he] at heffect hbodies
  have hdies : e.dies = mset s.dev.dies i (f (s.dev.die i)) := congrArg (·.2.2.1) hbodies
  have hdie : e.die i = f (s.dev.die i) := by rw [Dev.die, hdies, mget_mset_same]
  refine ends_of_run hexec heffect ⟨?_, congrArg (·.1) hbodies, congrArg (·.2.1) hbodies⟩
  rw [← hdie] at hP
  exact hP

theorem refClockInterrupt_holds (s : State) (i : Fin 6) (h : s.dev.clocked i = true) :
    Quiet (.refClockInterrupt i) s (s.begin.setDie i { s.dev.die i with holdover := true }) :=
  quiet_of_run (x := xRefClockInterrupt i) rfl (if_pos h) rfl rfl

theorem refClockRestore_ends (s : State) (i : Fin 6) (ns : BitVec 32) (hheld : (s.dev.die i).holdover = true) (hns : ns.toNat ≤ 10000) :
    Ends (.refClockRestore i ns) s (fun t => t.dev.die i = { s.dev.die i with holdover := false } ∧
      t.mem = s.mem ∧ t.dev.regs = s.dev.regs ∧ t.dev.tiles = s.dev.tiles ∧ t.dev.modules = s.dev.modules) := by
  obtain ⟨x, hx⟩ : ∃ x, x = { s.dev.die i with holdover := false } := ⟨_, rfl⟩
  rw [← hx]
  have heffect : xRefClockRestore i ns.toNat s.mem s.begin = (s.begin.setDie i x).dieEvent i 0x0407 1 i ns.toNat := by
    rw [hx]
    exact if_neg (by simp only [Bool.or_eq_true, Bool.not_eq_true', decide_eq_true_eq]; show ¬ ((s.dev.die i).holdover = false ∨ _); simp [hheld, hns])
  obtain ⟨e, he⟩ : ∃ e, e = (s.begin.setDie i x).dieEvent i 0x0407 1 i ns.toNat := ⟨_, rfl⟩
  have hbodies := bodies_dieEvent (s.begin.setDie i x) i 0x0407 1 i ns.toNat
  rw [← he] at heffect hbodies
  have hdies : e.dies = mset s.dev.dies i x := congrArg (·.2.2.1) hbodies
  have hdie : e.die i = x := by rw [Dev.die, hdies, mget_mset_same]
  have hleaves : e.stores = [] ∧ e.wipes = [] ∧ e.regs = s.dev.regs ∧ e.tiles = s.dev.tiles ∧ e.modules = s.dev.modules := by
    rw [he, Dev.dieEvent]
    simp only [Dev.event_fields]
    exact ⟨rfl, rfl, rfl, rfl, rfl⟩
  obtain ⟨hstores, hwipes, hregs, htiles, hmodules⟩ := hleaves
  exact ends_of_run (x := xRefClockRestore i ns.toNat) rfl heffect ⟨hdie, s.commit_mem _ hstores hwipes, hregs, htiles, hmodules⟩

/-- A die whose clock is lost. -/
theorem clockLost_ends {c : Instr} {s : State} {x : Effect} {i : Nat} (hexec : exec c s = s.run x)
    (heffect : x s.mem s.begin = s.begin.loseDie s.mem i 0x0408 clockLostDie) (hresets : s.dev.ras.resets = []) :
    Ends c s (fun t => (t.dev.die i).clockLost = true ∧ (t.dev.die i).locked = false ∧ (t.dev.die i).holdover = false ∧
      t.dev.fuses = s.dev.fuses ∧ t.dev.hbm = s.dev.hbm) :=
  ends_imp (ends_of_loseDie (P := fun x => x.clockLost = true ∧ x.locked = false ∧ x.holdover = false) hexec heffect hresets ⟨rfl, rfl, rfl⟩)
    fun _ ⟨⟨hlost, hlocked, hheld⟩, hfuses, hhbm⟩ => ⟨hlost, hlocked, hheld, hfuses, hhbm⟩

theorem pllLockLoss_ends (s : State) (i : Fin 6) (h : s.dev.clocked i = true) (hresets : s.dev.ras.resets = []) :
    Ends (.pllLockLoss i) s (fun t => (t.dev.die i).clockLost = true ∧ (t.dev.die i).locked = false ∧ t.dev.fuses = s.dev.fuses ∧ t.dev.hbm = s.dev.hbm) :=
  ends_imp (clockLost_ends (x := xPllLockLoss i) rfl (if_pos h) hresets)
    fun _ ⟨hlost, hlocked, _, hfuses, hhbm⟩ => ⟨hlost, hlocked, hfuses, hhbm⟩

/-- A neighbour that answers no more is absent. -/
theorem declareAbsent_ends {c : Instr} {s : State} {x : Effect} {n i : Nat} (hexec : exec c s = s.run x)
    (heffect : x s.mem s.begin = s.begin.declareAbsent s.mem n i) (hopen : s.dev.open_ = true) (hlink : (linksOf i).contains n = true)
    (hserving : s.dev.serving n ≠ []) (hhere : (s.dev.die i).absent = false) (hother : s.dev.lost (otherEnd n i) = false) (hresets : s.dev.ras.resets = []) :
    Ends c s (fun t => (t.dev.die i).absent = true ∧ t.dev.fuses = s.dev.fuses ∧ t.dev.hbm = s.dev.hbm) := by
  have habsent : s.begin.declareAbsent s.mem n i = s.begin.loseDie s.mem i 0x0401 (fun x => { x with absent := true }) := by
    refine if_neg ?_
    have hopen' : s.begin.open_ = true := hopen
    have hserving' : (s.begin.serving n).isEmpty = false := List.isEmpty_eq_false_iff.mpr hserving
    have hhere' : (s.begin.die i).absent = false := hhere
    have hother' : s.begin.lost (otherEnd n i) = false := hother
    rw [hopen', hlink, hserving', hhere', hother']
    decide
  exact ends_of_loseDie (P := fun x => x.absent = true) hexec (heffect.trans habsent) hresets rfl

theorem d2dForwardedClockLoss_ends (s : State) (n : Fin 8) (i : Fin 6) (hpower : s.dev.pwr.state ≠ .forward) (hopen : s.dev.open_ = true)
    (hlink : (linksOf i).contains n.val = true) (hserving : s.dev.serving n ≠ []) (hhere : (s.dev.die i).absent = false)
    (hother : s.dev.lost (otherEnd n i) = false) (hresets : s.dev.ras.resets = []) :
    Ends (.d2dForwardedClockLoss n i) s (fun t => (t.dev.die i).absent = true ∧ t.dev.fuses = s.dev.fuses ∧ t.dev.hbm = s.dev.hbm) := by
  have hpower' : (s.begin.pwr.state == .forward && n.val != 7) = false := by
    rw [Bool.and_eq_false_iff]
    exact .inl (beq_false_of_ne hpower)
  exact declareAbsent_ends (x := xD2dForwardedClockLoss n i) rfl (if_neg (by rw [hpower']; decide)) hopen hlink hserving hhere hother hresets

/-- Settles O12: holdover begins and ends on the die alone, and a die that loses its clock or stays silent keeps that record while the package's
fuses and stacks stay. -/
theorem clocksAndDiesAreLostAndHeld : Obligations.ClocksAndDiesAreLostAndHeld :=
  ⟨refClockInterrupt_holds, refClockRestore_ends, fun _ i hheld hresets => clockLost_ends (x := xClockLost i) rfl (if_pos hheld) hresets,
    pllLockLoss_ends, fun _ n i => declareAbsent_ends (x := xD2dHeartbeatTimeout n i) rfl rfl, d2dForwardedClockLoss_ends⟩

end Sys2Proof.Machine
end

section
/-! What stands while a context's work ends (Tables 11.11, 12.10): engines write, runs stop and requests are retired, and nothing else of the package
moves. -/

namespace Sys2Proof.Machine

/-- A context but for its work, its events and its input log. -/
def Ctx.core (x : Ctx) : Ctx := { x with runs := [], evt := {}, pipe := {}, switch := none, window := none, log := {} }

/-- The bytes stored outside HBM. -/
def Dev.scratch (d : Dev) : List (Nat × Byte) := d.stores.filter (fun x => !isHbm x.1)

/-- What stands of the package itself. -/
def Dev.ground (d : Dev) : Map (BitVec 32) × Map Tile × List ResetRun × Map Sample × Map Die × Bool × Lode × BringUp × Pwr × BitVec 4 × List (Nat × Nat) ×
    List (Nat × Byte) :=
  (d.regs, d.tiles, d.ras.resets, d.ras.samples, d.dies, d.fenced, d.lode, d.bringUp, d.pwr, d.admin, d.wipes, d.scratch)

/-- What stands: every context's core, every host port's face, and the ground. -/
def Dev.standing (d : Dev) :=
  ((fun c => (d.ctx c).core : Nat → Ctx), (fun p => (d.host p).face : Nat → HostPort), d.ground)

theorem standing_eq {d e : Dev} (hctx : ∀ c, (e.ctx c).core = (d.ctx c).core) (hhost : ∀ p, (e.host p).face = (d.host p).face) (hground : e.ground = d.ground) :
    e.standing = d.standing := by
  rw [Dev.standing, Dev.standing, hground, funext hctx, funext hhost]

section
variable {d e : Dev}

theorem core_of_standing (h : e.standing = d.standing) (c : Nat) : (e.ctx c).core = (d.ctx c).core := congrFun (congrArg (·.1) h) c

theorem face_of_standing (h : e.standing = d.standing) (p : Nat) : (e.host p).face = (d.host p).face := congrFun (congrArg (·.2.1) h) p

theorem ground_of_standing (h : e.standing = d.standing) : e.ground = d.ground := congrArg (·.2.2) h

theorem ground_fields (h : e.ground = d.ground) : e.regs = d.regs ∧ e.tiles = d.tiles ∧ e.ras.resets = d.ras.resets ∧ e.ras.samples = d.ras.samples ∧
    e.dies = d.dies ∧ e.fenced = d.fenced ∧ e.lode = d.lode ∧ e.bringUp = d.bringUp ∧ e.pwr = d.pwr ∧ e.admin = d.admin ∧ e.wipes = d.wipes ∧
    e.scratch = d.scratch := by
  simpa only [Dev.ground, Prod.mk.injEq] using h

theorem core_fields {x y : Ctx} (h : y.core = x.core) : y.state = x.state ∧ y.gen = x.gen ∧ y.port = x.port ∧ y.tdCause = x.tdCause ∧
    y.tileMask = x.tileMask ∧ y.lines = x.lines ∧ y.prot = x.prot := by
  simp only [Ctx.core, Ctx.mk.injEq] at h
  simp only [h, and_self]

theorem face_fields {x y : HostPort} (h : y.face = x.face) : y.state = x.state ∧ y.hostId = x.hostId := by
  simp only [HostPort.face, HostPort.mk.injEq] at h
  simp only [h, and_self]

end

/-! Single updates. -/

section
variable (d : Dev)

theorem core_of_sansEvents {x y : Ctx} (h : y.sansEvents = x.sansEvents) : y.core = x.core :=
  congrArg (a₁ := y.sansEvents) (a₂ := x.sansEvents) Ctx.core h

theorem standing_setCtx {d : Dev} {c : Nat} {x : Ctx} (h : x.core = (d.ctx c).core) : (d.setCtx c x).standing = d.standing :=
  standing_eq (fun j => by
    rw [Dev.ctx_setCtx]
    split
    case isTrue hj => rw [h, hj]
    case isFalse => rfl) (fun _ => rfl) rfl

theorem standing_setHost {d : Dev} {p : Nat} {x : HostPort} (h : x.face = (d.host p).face) : (d.setHost p x).standing = d.standing :=
  standing_eq (fun _ => rfl) (face_setHost h) rfl

@[simp] theorem standing_event (cs : List Nat) (code sev d0 d1 unit : Nat) : (d.event cs code sev d0 d1 unit).standing = d.standing :=
  standing_eq (fun c => core_of_sansEvents (event_ctx d cs code sev d0 d1 unit c)) (face_event d cs code sev d0 d1 unit) (by
    simp only [Dev.ground, Dev.scratch, Dev.event_fields])

@[simp] theorem standing_hostRequest (p : Nat) (k : HPacket) (t : Tag) : (d.hostRequest p k t).standing = d.standing :=
  standing_eq (fun c => by rw [Dev.ctx, ctxs_hostRequest]; rfl) (face_hostRequest d p k t) (by
    simp only [Dev.ground, Dev.scratch, Dev.hostRequest_fields])

@[simp] theorem standing_hwr (p c a : Nat) (bs : List Byte) (u : Purpose) (x y : Nat) : (d.hwr p c a bs u x y).standing = d.standing := standing_hostRequest ..

@[simp] theorem standing_sendHost (p : Nat) (k : HPacket) : (d.sendHost p k).standing = d.standing := by
  unfold Dev.sendHost
  split
  · exact standing_setHost rfl
  · rfl

@[simp] theorem standing_bump (k : Nat) : (d.bump k).standing = d.standing := rfl
@[simp] theorem standing_bumpN (k n : Nat) : (d.bumpN k n).standing = d.standing := rfl
@[simp] theorem standing_retireTags (f : Tag → Bool) : (d.retireTags f).standing = d.standing := rfl
@[simp] theorem standing_setCairn (c i : Nat) (x : Cairn) : (d.setCairn c i x).standing = d.standing := rfl
@[simp] theorem standing_setStack (i : Nat) (x : Stack) : (d.setStack i x).standing = d.standing := rfl
@[simp] theorem standing_collReset (c : Nat) : (d.collReset c).standing = d.standing := rfl
@[simp] theorem standing_bridgesReset (c : Nat) : (d.bridgesReset c).standing = d.standing := rfl
@[simp] theorem standing_setStage (c v : Nat) (x : Stage) : (d.setStage c v x).standing = d.standing := standing_setCtx rfl
@[simp] theorem standing_updStage (c v : Nat) (g : Stage → Stage) : (d.updStage c v g).standing = d.standing := standing_setCtx rfl
@[simp] theorem standing_updLog (c : Nat) (g : Log → Log) : (d.updLog c g).standing = d.standing := standing_setCtx rfl
@[simp] theorem standing_putRun (c : Nat) (x : Run) : (d.putRun c x).standing = d.standing := standing_setCtx rfl

/-- Steps under which all stands, one after another. -/
theorem standing_each {α : Type} {l : List α} {f : Dev → α → Dev} (h : ∀ d a, (f d a).standing = d.standing) : (d.each l f).standing = d.standing :=
  Dev.each_frame Dev.standing l h d

@[simp] theorem standing_bumpIf (b : Bool) (k : Nat) : (d.bumpIf b k).standing = d.standing := by
  unfold Dev.bumpIf
  split <;> rfl

/-! Writes of engines. -/

@[simp] theorem standing_sendSnoop (p line : Nat) (inval : Bool) : (d.sendSnoop p line inval).standing = d.standing := by
  unfold Dev.sendSnoop
  split
  · rfl
  · exact standing_sendHost ..

@[simp] theorem standing_cohWait (a n : Nat) (write : Bool) (except : Option Nat) : (d.cohWait a n write except).1.standing = d.standing := by
  unfold Dev.cohWait
  split
  · rfl
  · exact standing_each _ fun _ _ => standing_sendSnoop ..

@[simp] theorem standing_accessCheck (c a n : Nat) : (d.accessCheck c a n).1.standing = d.standing := by
  unfold Dev.accessCheck
  split
  · exact standing_event ..
  split
  · rfl
  split
  · rfl
  split
  · rfl
  · exact standing_event ..

@[simp] theorem standing_bucketRoom (cls unit : Nat) : (d.bucketRoom cls unit).standing = d.standing := by
  unfold Dev.bucketRoom
  split
  · rfl
  · dsimp only
    split
    · rfl
    · split <;> rfl

@[simp] theorem standing_charge (cls unit : Nat) (unc : Bool) (cs : List Nat) (u : Nat) : (d.charge cls unit unc cs u).1.standing = d.standing := by
  unfold Dev.charge
  extract_lets k e b n l clock f
  have he : e.standing = d.standing := by
    unfold e
    split
    · exact standing_bucketRoom ..
    · rfl
  have hras : ∀ (x : Map Bucket) (y : Nat) (z : List (BitVec 64)),
      ({ e with ras := { e.ras with buckets := x, nextAge := y, lasting := z } } : Dev).standing = e.standing := fun _ _ _ => rfl
  split
  · rw [standing_event, standing_bump]
    exact (hras _ _ _).trans he
  · exact (hras _ _ e.ras.lasting).trans he

@[simp] theorem standing_chargeHbm (off : Nat) (unc : Bool) : (d.chargeHbm off unc).standing = d.standing := by
  unfold Dev.chargeHbm
  extract_lets p u
  have h := standing_charge d 3 u unc (d.pageCtx off) 0
  generalize d.charge 3 u unc (d.pageCtx off) 0 = x at h ⊢
  obtain ⟨e, lasting⟩ := x
  dsimp only at h ⊢
  split
  · exact h
  · exact h

@[simp] theorem standing_burstBad (off : Nat) : (d.burstBad off).standing = d.standing := by
  unfold Dev.burstBad
  dsimp only
  rw [standing_chargeHbm, standing_event, standing_bump]
  rfl

theorem scrPlace_hbm {a : Nat} (h : isHbm a = true) : scrPlace a = none := by
  unfold isHbm at h
  rw [decide_eq_true_eq] at h
  exact if_neg (by simp only [Bool.and_eq_true, decide_eq_true_eq]; omega)

theorem isHbm_below {a b : Nat} (h : isHbm b = true) (hab : a ≤ b) : isHbm a = true := by
  unfold isHbm at h ⊢
  rw [decide_eq_true_eq] at h ⊢
  omega

theorem cellsAt_hbm {a : Nat} {bs : List Byte} (h : isHbm (a + bs.length - 1) = true) : ∀ x ∈ cellsAt a bs, isHbm x.1 = true := by
  induction bs generalizing a with
  | nil => exact fun x hx => absurd hx (List.not_mem_nil)
  | cons b bs ih =>
    rw [List.length_cons] at h
    intro x hx
    rcases List.mem_cons.mp hx with rfl | hx
    · exact isHbm_below h (by omega)
    · cases bs with
      | nil => exact absurd hx (List.not_mem_nil)
      | cons b' bs => exact ih (by rw [List.length_cons] at h ⊢; rwa [show a + 1 + (bs.length + 1) - 1 = a + (bs.length + 1 + 1) - 1 by omega]) x hx

theorem scratch_append {d : Dev} {l : List (Nat × Byte)} (h : ∀ x ∈ l, isHbm x.1 = true) :
    (l.reverse ++ d.stores).filter (fun x => !isHbm x.1) = d.scratch := by
  rw [List.filter_append, List.filter_eq_nil_iff.mpr fun x hx => by simp [h x (List.mem_reverse.mp hx)]]
  rfl

/-- A store that ends in HBM. -/
theorem standing_store (m : Mem) {a : Nat} {bs : List Byte} (h : isHbm (a + bs.length - 1) = true) (hne : bs ≠ []) : (d.store m a bs).1.standing = d.standing := by
  have hlen : 0 < bs.length := List.length_pos_iff.mpr hne
  have hstores : ∀ (x : List Nat) (l : List (Nat × Byte)), (∀ y ∈ l, isHbm y.1 = true) →
      ({ d with badBursts := x, stores := l.reverse ++ d.stores } : Dev).standing = d.standing := fun x l hl =>
    standing_eq (fun _ => rfl) (fun _ => rfl) (by
      simp only [Dev.ground, Prod.mk.injEq, true_and]
      exact scratch_append hl)
  unfold Dev.store
  rw [scrPlace_hbm (isHbm_below h (by omega))]
  dsimp only
  split
  · exact hstores d.badBursts _ (cellsAt_hbm h)
  · refine (standing_each _ fun _ _ => standing_burstBad ..).trans (hstores _ _ fun y hy => ?_)
    exact cellsAt_hbm h y (List.mem_filter.mp hy).1

@[simp] theorem standing_engineWrite (m : Mem) (c a : Nat) (bs : List Byte) : (d.engineWrite m c a bs).standing = d.standing := by
  unfold Dev.engineWrite
  split
  · rfl
  case isFalse hok =>
    rw [Bool.or_eq_true, Bool.not_eq_true'] at hok
    have hend : isHbm (a + bs.length - 1) = true := by
      rw [← Bool.not_eq_false]
      exact fun h => hok (.inr h)
    have hne : bs ≠ [] := fun h => hok (.inl (by rw [h]; rfl))
    have hcheck := standing_accessCheck d c a bs.length
    generalize d.accessCheck c a bs.length = x at hcheck ⊢
    obtain ⟨e, err⟩ := x
    dsimp only at hcheck ⊢
    split
    · exact hcheck
    · rw [standing_store _ _ hend hne, standing_cohWait]
      exact hcheck

@[simp] theorem standing_setFlag (m : Mem) (c i k : Nat) (b : Bool) : (d.setFlag m c i k b).standing = d.standing := by
  unfold Dev.setFlag
  extract_lets v e f
  have he : e.standing = d.standing := by
    unfold e
    split <;> rfl
  have hf : f.standing = d.standing := by
    unfold f
    split
    · exact he
    · exact he
  split
  · rfl
  · rw [standing_engineWrite, hf]

@[simp] theorem standing_screeClear (m : Mem) (c : Nat) : (d.screeClear m c).standing = d.standing := standing_each _ fun _ _ => standing_engineWrite ..

@[simp] theorem standing_putRec (m : Mem) (c v n r : Nat) : (d.putRec m c v n r).standing = d.standing := standing_engineWrite ..

/-! The end of a context's services. -/

@[simp] theorem standing_pipeReset (m : Mem) (c : Nat) : (d.pipeReset m c).standing = d.standing := by
  unfold Dev.pipeReset
  extract_lets x e f y
  have hf : f.standing = d.standing := standing_each _ fun d v => by
    dsimp only
    rw [standing_updStage]
    refine standing_each _ fun d n => ?_
    split
    · exact standing_putRec ..
    · rfl
  split
  · exact standing_screeClear ..
  · rw [standing_screeClear, ← hf]
    refine standing_setCtx ?_
    rfl

@[simp] theorem standing_cairnSet (c i : Nat) (st : CairnState) (r : Nat) (evt : Bool) : (d.cairnSet c i st r evt).standing = d.standing := by
  unfold Dev.cairnSet
  dsimp only
  split
  · unfold Dev.cairnRecord
    dsimp only
    rw [standing_event, standing_bumpIf, standing_setCairn]
  · rw [standing_bumpIf, standing_setCairn]

@[simp] theorem standing_cairnCancel (c i r : Nat) : (d.cairnCancel c i r).standing = d.standing := by
  unfold Dev.cairnCancel
  dsimp only
  have he := standing_cairnSet d c i .cancelled r false
  split
  · rfl
  · generalize d.cairnSet c i .cancelled r false = e at he ⊢
    rw [← he]
    have hswitch : ∀ x : Option Switch, (e.setCtx c { e.ctx c with switch := x }).standing = e.standing := fun _ => standing_setCtx rfl
    split
    · split
      · split
        · split
          · exact hswitch none
          · rfl
        · rfl
      · rfl
    · split
      · split
        · split
          · exact hswitch none
          · rfl
        · rfl
      · rfl

@[simp] theorem standing_cairnsReset (c : Nat) : (d.cairnsReset c).standing = d.standing := standing_each _ fun d i => by
  dsimp only
  split
  · rfl
  · exact standing_cairnCancel ..

@[simp] theorem standing_endServices (m : Mem) (c : Nat) : (d.endServices m c).standing = d.standing := by
  unfold Dev.endServices
  extract_lets e
  have he : e.standing = d.standing := by rw [standing_bridgesReset, standing_collReset, standing_cairnsReset, standing_pipeReset]
  rw [← he]
  refine standing_setCtx ?_
  rfl

/-! Runs stop and requests are retired. -/

@[simp] theorem standing_endRun (c : Nat) (seq : BitVec 32) (status code unit detail addr : Nat) :
    (d.endRun c seq status code unit detail addr).standing = d.standing := by
  unfold Dev.endRun
  split
  · rfl
  · split
    · rfl
    · dsimp only
      rw [standing_hwr, standing_putRun]

@[simp] theorem standing_stopRun (c : Nat) (seq : BitVec 32) (status code unit detail addr : Nat) :
    (d.stopRun c seq status code unit detail addr).standing = d.standing := by
  refine (standing_endRun ..).trans ((standing_each _ fun d p => ?_).trans (standing_retireTags ..))
  dsimp only
  split
  · exact standing_setHost rfl
  · rfl

@[simp] theorem standing_renewHost (c : Nat) (keep : Bool) : (d.renewHost c keep).standing = d.standing := by
  refine (standing_each _ fun d t => ?_).trans ((standing_each _ fun d p => ?_).trans (standing_retireTags ..))
  · split
    · exact standing_hostRequest ..
    · rfl
  · dsimp only
    split
    · rfl
    · exact standing_setHost rfl

end

/-- A context's generation advanced. -/
def Dev.withGen (d : Dev) (c : Nat) : Dev := d.setCtx c { d.ctx c with gen := (d.ctx c).gen + 1 }

theorem standing_nextGen (d : Dev) (c : Nat) (keep : Bool) : (d.nextGen c keep).standing = (d.withGen c).standing := by
  unfold Dev.nextGen
  dsimp only
  rw [standing_renewHost]
  rfl

end Sys2Proof.Machine
end

section
/-! The teardown of a context (R346, Table 11.11): what becomes of it, and that no other context and no port changes. -/

namespace Sys2Proof.Machine

open Sys2Proof.Claims (Ends Heard)

/-- From `d` to `e` the core of context `c` has become as `g` says; the other cores and the host ports stand. -/
structure Recores (c : Nat) (g : Ctx → Ctx) (d e : Dev) : Prop where
  core : ∀ x, (e.ctx x).core = if x = c then g (d.ctx x).core else (d.ctx x).core
  face : ∀ p, (e.host p).face = (d.host p).face

section
variable {c : Nat} {g k : Ctx → Ctx} {d e f : Dev}

theorem recores_of_standing (h : e.standing = d.standing) : Recores c id d e :=
  ⟨fun x => by rw [core_of_standing h]; split <;> rfl, face_of_standing h⟩

theorem recores_refl (c : Nat) (d : Dev) : Recores c id d d := recores_of_standing rfl

theorem Recores.trans (h : Recores c g d e) (h' : Recores c k e f) : Recores c (k ∘ g) d f where
  core x := by
    rw [h'.core, h.core]
    split <;> rfl
  face p := (h'.face p).trans (h.face p)

/-- Steps that move no core leave what has become of it. -/
theorem Recores.next (h : Recores c g d e) (h' : Recores c id e f) : Recores c g d f := h.trans h'

theorem Recores.of_eq (h : Recores c g d e) (hctx : ∀ x, f.ctx x = e.ctx x) (hhost : ∀ p, f.host p = e.host p) : Recores c g d f :=
  ⟨fun x => by rw [hctx, h.core], fun p => by rw [hhost, h.face]⟩

theorem recores_setCtx {x : Ctx} (h : x.core = g (d.ctx c).core) : Recores c g d (d.setCtx c x) where
  core j := by
    rw [Dev.ctx_setCtx]
    by_cases hj : j = c
    case pos => subst hj; rw [if_pos rfl, if_pos rfl, h]
    case neg => rw [if_neg (Ne.symm hj), if_neg hj]
  face _ := rfl

theorem recores_each {α : Type} {l : List α} {f : Dev → α → Dev} (h : ∀ d a, Recores c id d (f d a)) (d : Dev) : Recores c id d (d.each l f) :=
  Dev.each_invariant (P := Recores c id d) (fun e a _ he => he.next (h e a)) (recores_refl c d)

theorem recores_resetTile (t : Nat) : Recores c id d (d.resetTile t) := (recores_refl c d).of_eq (fun _ => rfl) fun _ => rfl

theorem recores_resetTiles (ts : List Nat) : Recores c id d (d.resetTiles ts) :=
  recores_each (fun d t => by
    dsimp only
    exact (recores_refl c d).of_eq (fun _ => rfl) fun _ => rfl) d

theorem recores_beginClear (ts : List Nat) : Recores c id d (d.beginClear ts) :=
  recores_each (fun d t => by
    dsimp only
    exact (recores_refl c d).of_eq (fun _ => rfl) fun _ => rfl) d

end

/-! The steps of a teardown, by what they do to the context. -/

/-- The context is being torn down. -/
def Ctx.torn (cause : Nat) (x : Ctx) : Ctx := { x with state := .teardown, tdCause := cause }
/-- The context's protection is gone. -/
def Ctx.unprotected (x : Ctx) : Ctx := { x with prot := {}, log := {} }
def Ctx.advanced (x : Ctx) : Ctx := { x with gen := x.gen + 1 }
def Ctx.unwatched (x : Ctx) : Ctx := { x with lines := [] }
def Ctx.quarantined (x : Ctx) : Ctx := { x with state := .quarantine }

section
variable {c : Nat} {d : Dev}

theorem recores_nextGen (keep : Bool) : Recores c Ctx.advanced d (d.nextGen c keep) := by
  have hstands := standing_nextGen d c keep
  have hgen : Recores c Ctx.advanced d (d.withGen c) := recores_setCtx rfl
  exact hgen.next (recores_of_standing hstands)

theorem recores_evictLines : Recores c Ctx.unwatched d (d.evictLines c) := by
  unfold Dev.evictLines
  extract_lets p base e
  have he : Recores c id d e := recores_of_standing (by
    unfold e
    split
    · rfl
    · exact standing_each _ fun _ _ => standing_hostRequest ..)
  have hlines : Recores c Ctx.unwatched e (e.setCtx c (e.ctx c).unwatched) := recores_setCtx rfl
  exact he.trans hlines

theorem recores_teardownStep4 : ∃ g, (g = id ∨ g = Ctx.quarantined) ∧ Recores c g d (d.teardownStep4 c) := by
  unfold Dev.teardownStep4
  split
  · exact ⟨id, .inl rfl, recores_refl c d⟩
  · extract_lets e
    have he : Recores c id d e := (recores_beginClear _).of_eq (fun _ => rfl) fun _ => rfl
    have hstate : Recores c Ctx.quarantined e (e.setCtx c (e.ctx c).quarantined) := recores_setCtx rfl
    exact ⟨_, .inr rfl, he.trans hstate⟩

/-- What a context is once its teardown has run: torn down, or already in quarantine. -/
def Ctx.tornDown (cause : Nat) (x : Ctx) : Ctx := (x.torn cause).unprotected.advanced.unwatched

theorem recores_teardown (hbound : d.bound c = true) (m : Mem) (cause : Nat) :
    ∃ g, (g = id ∨ g = Ctx.quarantined) ∧ Recores c (g ∘ Ctx.tornDown cause) d (d.teardown m c cause) := by
  unfold Dev.teardown
  rw [if_neg (by simp [hbound])]
  extract_lets p up x1 d1 d2 d3 x4 d4 x5 d5 d6 r d7
  have h1 : Recores c (Ctx.torn cause) d d1 := recores_setCtx rfl
  have h2 : Recores c (Ctx.torn cause) d d2 := h1.next (recores_of_standing (standing_event ..))
  have h3 : Recores c (Ctx.torn cause) d d3 := h2.next ((recores_of_standing (standing_endServices ..)).next (recores_resetTiles _))
  have h4 : Recores c (Ctx.unprotected ∘ Ctx.torn cause) d d4 := h3.trans (recores_setCtx rfl)
  have h5 : Recores c (Ctx.unprotected ∘ Ctx.torn cause) d d5 := h4.next (recores_of_standing (by
    unfold d5
    split
    · exact standing_each _ fun _ _ => standing_stopRun ..
    · exact standing_setCtx (x := { d4.ctx c with runs := [] }) rfl))
  have h6 : Recores c (Ctx.tornDown cause) d d6 := (h5.trans (recores_nextGen up)).trans recores_evictLines
  have h7 : Recores c (Ctx.tornDown cause) d d7 := h6.next (recores_of_standing (standing_each _ fun _ _ => standing_sendSnoop ..))
  obtain ⟨g, hg, h8⟩ := recores_teardownStep4 (c := c) (d := d7)
  exact ⟨g, hg, h7.trans h8⟩

/-- The context's state after its teardown, and what it holds no more. -/
theorem teardown_ends (hbound : d.bound c = true) (m : Mem) (cause : Nat) :
    (((d.teardown m c cause).ctx c).state = .teardown ∨ ((d.teardown m c cause).ctx c).state = .quarantine) ∧
    ((d.teardown m c cause).ctx c).gen = (d.ctx c).gen + 1 ∧ ((d.teardown m c cause).ctx c).tdCause = cause ∧
    ((d.teardown m c cause).ctx c).lines = [] ∧ ((d.teardown m c cause).ctx c).prot = {} := by
  obtain ⟨g, hg, h⟩ := recores_teardown hbound m cause
  have hcore := h.core c
  rw [if_pos rfl] at hcore
  rcases hg with rfl | rfl
  · obtain ⟨hstate, hgen, -, hcause, -, hlines, hprot⟩ := core_fields (x := (d.ctx c).tornDown cause) hcore
    exact ⟨.inl hstate, hgen, hcause, hlines, hprot⟩
  · obtain ⟨hstate, hgen, -, hcause, -, hlines, hprot⟩ := core_fields (x := ((d.ctx c).tornDown cause).quarantined) hcore
    exact ⟨.inr hstate, hgen, hcause, hlines, hprot⟩

theorem teardown_others {x : Nat} (hx : x ≠ c) (m : Mem) (cause : Nat) : ((d.teardown m c cause).ctx x).core = (d.ctx x).core := by
  cases hbound : d.bound c
  case false => rw [Dev.teardown, if_pos (by simp [hbound])]
  case true =>
    obtain ⟨g, -, h⟩ := recores_teardown hbound m cause
    rw [h.core, if_neg hx]

theorem teardown_faces (m : Mem) (cause p : Nat) : ((d.teardown m c cause).host p).face = (d.host p).face := by
  cases hbound : d.bound c
  case false => rw [Dev.teardown, if_pos (by simp [hbound])]
  case true =>
    obtain ⟨g, -, h⟩ := recores_teardown hbound m cause
    exact h.face p

end

/-- The contexts of a list are torn down, one after another. -/
theorem teardowns_end (m : Mem) (cause : Nat) {l : List Nat} (hl : l.Nodup) {d : Dev} (hbound : ∀ c ∈ l, d.bound c = true) :
    (∀ c ∈ l, ((d.each l (fun d c => d.teardown m c cause)).ctx c).state = .teardown ∨ ((d.each l (fun d c => d.teardown m c cause)).ctx c).state = .quarantine) ∧
    (∀ c, c ∉ l → ((d.each l (fun d c => d.teardown m c cause)).ctx c).core = (d.ctx c).core) ∧
    ∀ p, ((d.each l (fun d c => d.teardown m c cause)).host p).face = (d.host p).face := by
  induction l generalizing d with
  | nil => exact ⟨fun _ hc => absurd hc (List.not_mem_nil), fun _ _ => rfl, fun _ => rfl⟩
  | cons a l ih =>
    obtain ⟨ha, hl⟩ := List.nodup_cons.mp hl
    have hkept : ∀ c, c ≠ a → ((d.teardown m a cause).ctx c).core = (d.ctx c).core := fun c hc => teardown_others hc m cause
    have hbound' : ∀ c ∈ l, (d.teardown m a cause).bound c = true := fun c hc => by
      have hne : c ≠ a := fun h => ha (h ▸ hc)
      rw [Dev.bound, (core_fields (hkept c hne)).1]
      exact hbound c (List.mem_cons_of_mem _ hc)
    obtain ⟨hends, hothers, hfaces⟩ := ih hl hbound'
    simp only [Dev.each_cons]
    refine ⟨fun c hc => ?_, fun c hc => ?_, fun p => (hfaces p).trans (teardown_faces m cause p)⟩
    · rcases List.mem_cons.mp hc with rfl | hc
      · obtain ⟨hstate, -⟩ := teardown_ends (hbound c List.mem_cons_self) m cause
        rw [(core_fields (hothers c ha)).1]
        exact hstate
      · exact hends c hc
    · rw [List.mem_cons, not_or] at hc
      rw [hothers c hc.2, hkept c hc.1]

/-- The contexts bound to a port. -/
def Dev.boundList (d : Dev) (p : Nat) : List Nat := (List.range 64).filter (fun c => d.boundTo c p)

theorem mem_boundList {d : Dev} {p c : Nat} : c ∈ d.boundList p ↔ c < 64 ∧ d.boundTo c p = true := by
  rw [Dev.boundList, List.mem_filter, List.mem_range]

theorem boundList_bound {d : Dev} {p : Nat} : ∀ c ∈ d.boundList p, d.bound c = true := fun c hc => by
  have h := (mem_boundList.mp hc).2
  rw [Dev.boundTo, Bool.and_eq_true] at h
  exact h.1

theorem boundList_nodup (d : Dev) (p : Nat) : (d.boundList p).Nodup := List.nodup_range.filter _

/-! The commands. -/

theorem lossLimitExpiry_tears (s : State) (p : Fin 4) (hstate : (s.dev.host p).state ≠ .active) :
    Ends (.lossLimitExpiry p) s (fun u => (∀ c, c < 64 → s.dev.boundTo c p = true → (u.dev.ctx c).state = .teardown ∨ (u.dev.ctx c).state = .quarantine) ∧
      (∀ c, c < 64 → s.dev.boundTo c p = false → (u.dev.ctx c).state = (s.dev.ctx c).state) ∧ (u.dev.host p).state = (s.dev.host p).state) := by
  have heffect : xLossLimitExpiry p s.mem s.begin = s.begin.each (s.begin.boundList p) (fun d c => d.teardown s.mem c 1) :=
    if_neg (by simpa using hstate)
  obtain ⟨hends, hothers, hfaces⟩ := teardowns_end s.mem 1 (boundList_nodup s.begin p) boundList_bound
  obtain ⟨e, he⟩ : ∃ e, e = s.begin.each (s.begin.boundList p) (fun d c => d.teardown s.mem c 1) := ⟨_, rfl⟩
  rw [← he] at heffect hends hothers hfaces
  refine ends_of_run (x := xLossLimitExpiry p) rfl heffect ⟨fun c hc hto => hends c (mem_boundList.mpr ⟨hc, hto⟩), fun c _ hto => ?_,
    (face_fields (hfaces p)).1⟩
  exact (core_fields (hothers c fun h => by
    have hto' := (mem_boundList.mp h).2
    exact absurd (hto'.symm.trans hto) (by decide))).1

theorem ctxTeardown_tears (s : State) (r : Requester) (c : Fin 64) (hheard : Heard s r (Reg.ctxCtrl c) (s.dev.teardownCmd c))
    (hmay : s.dev.mayWriteCtx r c = true) (hbound : s.dev.bound c = true) :
    Ends (.ctxTeardown r c) s (fun u => ((u.dev.ctx c).state = .teardown ∨ (u.dev.ctx c).state = .quarantine) ∧ (u.dev.ctx c).gen = (s.dev.ctx c).gen + 1 ∧
      (u.dev.ctx c).tdCause = 0 ∧ (u.dev.ctx c).lines = [] ∧ (u.dev.ctx c).prot = {} ∧
      (∀ x : Nat, x ≠ c.val → (u.dev.ctx x).state = (s.dev.ctx x).state)) := by
  obtain ⟨d, hd⟩ : ∃ d, d = s.begin.putReg (Reg.ctxCtrl c) (s.begin.teardownCmd c) := ⟨_, rfl⟩
  have hctx : ∀ x, d.ctx x = s.dev.ctx x := fun x => by rw [hd]; rfl
  have hbound' : d.bound c = true := by rw [Dev.bound, hctx]; exact hbound
  have hcmd : fb (s.begin.teardownCmd c) 31 30 = 1 := fb_cmd (s.begin.reg (Reg.ctxCtrl c)) (cmd := 1) (by decide)
  have heffect : s.begin.ctxCtrlWrite s.mem c (s.begin.teardownCmd c) = d.teardown s.mem c 0 := by
    rw [Dev.ctxCtrlWrite, hcmd, ← hd]
    exact (if_neg (by decide)).trans (if_pos rfl)
  obtain ⟨hstate, hgen, hcause, hlines, hprot⟩ := teardown_ends hbound' s.mem 0
  have hothers : ∀ x, x ≠ c.val → ((d.teardown s.mem c 0).ctx x).state = (s.dev.ctx x).state := fun x hx =>
    (core_fields (teardown_others hx s.mem 0)).1.trans (by rw [hctx])
  rw [hctx] at hgen
  obtain ⟨e, he⟩ : ∃ e, e = d.teardown s.mem c 0 := ⟨_, rfl⟩
  rw [← he] at heffect hstate hgen hcause hlines hprot hothers
  exact ends_of_heard (perm := fun d => d.mayWriteCtx r c.val) (x := fun m d => (d.ctxCtrlWrite m c.val (d.teardownCmd c.val), stOK)) (d := e) (st := stOK)
    rfl hheard hmay (by rw [heffect]) ⟨hstate, hgen, hcause, hlines, hprot, hothers⟩

end Sys2Proof.Machine
end

section
/-! Rings are consumed, contexts bound and released (R337, R342, R344, R346). -/

namespace Sys2Proof.Machine

open Sys2Proof.Claims (Ends Quiet Heard)

/-! The completion ring. -/

/-- A ring register written, and the completion records of a context that are valid exchanged. -/
def Dev.withCpl (d : Dev) (c k : Nat) (v : BitVec 32) (l : List Nat) : Dev := (d.setReg k v).setCtx c { d.ctx c with cplValid := l }

theorem withCpl_fields (d : Dev) (c k : Nat) (v : BitVec 32) (l : List Nat) (g : List Tag) (h : Map HostPort) :
    ((d.withCpl c k v l).withTraffic g h).reg k = v ∧ ((d.withCpl c k v l).withTraffic g h).ctx c = { d.ctx c with cplValid := l } ∧
    ((d.withCpl c k v l).withTraffic g h).counters = d.counters ∧ ((d.withCpl c k v l).withTraffic g h).tiles = d.tiles ∧
    ((d.withCpl c k v l).withTraffic g h).stores = d.stores ∧ ((d.withCpl c k v l).withTraffic g h).wipes = d.wipes ∧
    ∀ j, k ≠ j → ((d.withCpl c k v l).withTraffic g h).reg j = d.reg j :=
  ⟨Dev.reg_setReg_same d k v, Dev.ctx_setCtx_same .., rfl, rfl, rfl, rfl, fun j hj => (Dev.reg_setReg d k j v).trans (if_neg hj)⟩

/-- The line of the next run record does not hold it: nothing is accepted. -/
theorem acceptRecords_withCpl {d : Dev} {c k : Nat} (hk : k ≠ Reg.ctxRunCtrl c) (hheld : (d.watched c ((d.ctx c).runNext.toNat % d.runLines c)).held = false)
    (v : BitVec 32) (l : List Nat) (g : List Tag) (h : Map HostPort) :
    ((d.withCpl c k v l).withTraffic g h).acceptRecords c = (d.withCpl c k v l).withTraffic g h := by
  obtain ⟨-, hctx, -, -, -, -, hreg⟩ := withCpl_fields d c k v l g h
  have hlines : ((d.withCpl c k v l).withTraffic g h).runLines c = d.runLines c := by rw [Dev.runLines, Dev.rf, hreg _ hk]; rfl
  refine acceptFrom_unheld 64 (l := (d.ctx c).runNext.toNat % d.runLines c) (by rw [hctx, hlines]) ?_
  rw [Dev.watched, hctx]
  exact hheld

/-- The records are written, and nothing but traffic follows. -/
theorem ends_of_withCpl {i : Instr} {s : State} {r : Requester} {c k : Nat} {v w : BitVec 32} {l : List Nat} {perm : Dev → Bool} {x : Mem → Dev → Dev × Nat}
    {g : List Tag} {h : Map HostPort} (hexec : exec i s = s.runReg r k v perm x) (hheard : Heard s r k v) (hperm : perm s.begin = true)
    (hx : x s.mem s.begin = ((s.begin.withCpl c k w l).withTraffic g h, stOK)) :
    Ends i s (fun u => u.dev.reg k = w ∧ (u.dev.ctx c).cplValid = l ∧ (u.dev.ctx c).runs = (s.dev.ctx c).runs ∧ u.mem = s.mem ∧
      u.dev.counters = s.dev.counters ∧ u.dev.tiles = s.dev.tiles) := by
  obtain ⟨hreg, hctx, hcounters, htiles, hstores, hwipes, -⟩ := withCpl_fields s.begin c k w l g h
  obtain ⟨e, he⟩ : ∃ e, e = (s.begin.withCpl c k w l).withTraffic g h := ⟨_, rfl⟩
  rw [← he] at hx hreg hctx hcounters htiles hstores hwipes
  exact ends_of_heard (d := e) (st := stOK) hexec hheard hperm hx
    ⟨hreg, congrArg (·.cplValid) hctx, congrArg (·.runs) hctx, s.commit_mem _ hstores hwipes, hcounters, htiles⟩

section
variable {old v : BitVec 32}

theorem ringCtrl_enabled (hoff : old.getLsbD 31 = false) (hlow : 4 ≤ fb v 4 0) (hhigh : fb v 4 0 ≤ 16) :
    (ringCtrl old v).getLsbD 31 = v.getLsbD 31 ∧ fb (ringCtrl old v) 4 0 = fb v 4 0 := by
  have hnew : ringCtrl old v = BitVec.ofNat 32 (setFld (setFld old.toNat 31 31 (fb v 31 31)) 4 0 (fb v 4 0)) := by
    rw [ringCtrl, if_neg (by simp only [Bool.or_eq_true, decide_eq_true_eq]; omega), if_neg (by rw [hoff]; decide)]
  have hin : setFld old.toNat 31 31 (fb v 31 31) < 2 ^ 32 := setFld_lt _ _ _ _ 32 old.isLt (by decide) (by decide)
  rw [hnew]
  refine ⟨?_, (fb_ofNat_setFld 32 _ 4 0 _ hin (by decide) (by decide)).trans (Nat.mod_eq_of_lt (fb_lt_two_pow v 4 0))⟩
  rw [getLsbD_eq_fb, getLsbD_eq_fb v, fb, BitVec.toNat_ofNat, Nat.mod_eq_of_lt (setFld_lt _ _ _ _ 32 hin (by decide) (by decide)),
    fld_setFld_above _ 4 0 _ 31 31 (by decide) (by decide), fld_setFld, Nat.mod_eq_of_lt (fb_lt_two_pow v 31 31)]

theorem ringCtrl_refused (hhigh : 16 < fb v 4 0) : ringCtrl old v = old :=
  if_pos (by simp only [Bool.or_eq_true, decide_eq_true_eq]; exact .inr hhigh)

end

theorem initRing_traffic (d : Dev) (p c base size bytes at_ : Nat) (u : Purpose) (a : Nat) : ∃ g h, d.initRing p c base size bytes at_ u a = d.withTraffic g h :=
  Dev.each_traffic (fun d _ => d.hwr_traffic ..) _ d

theorem ctxCplEnable_enables (s : State) (r : Requester) (c : Fin 64) (v : BitVec 32) (hheard : Heard s r (Reg.ctxCplCtrl c) v)
    (hmay : s.dev.mayWriteCtx r c = true) (hoff : s.dev.rb (Reg.ctxCplCtrl c) 31 = false) (hon : v.getLsbD 31 = true) (hlow : 4 ≤ fb v 4 0)
    (hhigh : fb v 4 0 ≤ 16) (hbound : s.dev.bound c = true)
    (hheld : (s.dev.watched c ((s.dev.ctx c).runNext.toNat % s.dev.runLines c)).held = false) :
    Ends (.ctxCplEnable r c v) s (fun u => u.dev.rb (Reg.ctxCplCtrl c) 31 = true ∧ u.dev.rf (Reg.ctxCplCtrl c) 4 0 = fb v 4 0 ∧
      (u.dev.ctx c).cplValid = [] ∧ (u.dev.ctx c).runs = (s.dev.ctx c).runs ∧ u.mem = s.mem ∧ u.dev.counters = s.dev.counters ∧ u.dev.tiles = s.dev.tiles) := by
  obtain ⟨hbit, hsize⟩ := ringCtrl_enabled (old := s.begin.reg (Reg.ctxCplCtrl c)) (v := v) hoff hlow hhigh
  obtain ⟨g, h, heffect⟩ : ∃ g h, s.begin.cplCtrlWrite c v = (s.begin.withCpl c (Reg.ctxCplCtrl c) (ringCtrl (s.begin.reg (Reg.ctxCplCtrl c)) v) []).withTraffic g h := by
    unfold Dev.cplCtrlWrite
    extract_lets old new d1 x d2
    have hold : old.getLsbD 31 = false := hoff
    have hnew : new.getLsbD 31 = true := hbit.trans hon
    have hbound' : d1.bound c = true := hbound
    rw [if_pos (by rw [hnew, hold, hbound']; rfl)]
    obtain ⟨g, h, hsent⟩ := initRing_traffic d2 (d2.ctx c).port c (d2.reg64 (Reg.ctxCplBaseLo c) / 64 * 64) (2 ^ fb new 4 0) 64 0 .cplInit c
    rw [hsent]
    refine ⟨g, h, acceptRecords_withCpl (d := s.begin) ?_ hheld _ _ _ _⟩
    unfold Reg.ctxCplCtrl Reg.ctxRunCtrl
    omega
  refine ends_imp (ends_of_withCpl (i := .ctxCplEnable r c v) (perm := fun d => d.mayWriteCtx r c.val) (x := fun _ d => (d.cplCtrlWrite c.val v, stOK)) rfl hheard hmay
    (Prod.ext heffect rfl)) fun u ⟨hreg, hvalid, hruns, hmem, hcounters, htiles⟩ => ⟨?_, ?_, hvalid, hruns, hmem, hcounters, htiles⟩
  · rw [Dev.rb, hreg, hbit, hon]
  · rw [Dev.rf, hreg, hsize]

theorem ctxCplEnable_refused (s : State) (r : Requester) (c : Fin 64) (v : BitVec 32) (hheard : Heard s r (Reg.ctxCplCtrl c) v)
    (hmay : s.dev.mayWriteCtx r c = true) (hhigh : 16 < fb v 4 0) :
    Ends (.ctxCplEnable r c v) s (fun u => u.dev.reg (Reg.ctxCplCtrl c) = s.dev.reg (Reg.ctxCplCtrl c) ∧ u.dev.ctxs = s.dev.ctxs ∧ u.mem = s.mem ∧
      u.dev.counters = s.dev.counters) := by
  have heffect : s.begin.cplCtrlWrite c v = s.begin.setReg (Reg.ctxCplCtrl c) (s.begin.reg (Reg.ctxCplCtrl c)) := by
    unfold Dev.cplCtrlWrite
    dsimp only
    rw [ringCtrl_refused hhigh, if_neg (by simp)]
  obtain ⟨e, he⟩ : ∃ e, e = s.begin.setReg (Reg.ctxCplCtrl c) (s.begin.reg (Reg.ctxCplCtrl c)) := ⟨_, rfl⟩
  rw [← he] at heffect
  have hreg : e.reg (Reg.ctxCplCtrl c) = s.dev.reg (Reg.ctxCplCtrl c) := by rw [he, Dev.reg_setReg_same]; rfl
  have hleaves : e.ctxs = s.dev.ctxs ∧ e.stores = [] ∧ e.wipes = [] ∧ e.counters = s.dev.counters := by rw [he]; exact ⟨rfl, rfl, rfl, rfl⟩
  obtain ⟨hctxs, hstores, hwipes, hcounters⟩ := hleaves
  exact ends_of_heard (i := .ctxCplEnable r c v) (perm := fun d => d.mayWriteCtx r c.val) (x := fun _ d => (d.cplCtrlWrite c.val v, stOK)) (d := e) (st := stOK)
    rfl hheard hmay (Prod.ext heffect rfl) ⟨hreg, hctxs, s.commit_mem _ hstores hwipes, hcounters⟩

theorem ctxCplConsWrite_consumes (s : State) (r : Requester) (c : Fin 64) (v : BitVec 32) (l : List Nat) (hheard : Heard s r (Reg.ctxCplCons c) v)
    (hmay : s.dev.mayWriteCtx r c = true) (hrange : seqRange (s.dev.reg (Reg.ctxCplCons c)) v (2 ^ s.dev.rf (Reg.ctxCplCtrl c) 4 0) = some l)
    (hvalid : ∀ x, x ∈ l → x ∈ (s.dev.ctx c).cplValid)
    (hheld : (s.dev.watched c ((s.dev.ctx c).runNext.toNat % s.dev.runLines c)).held = false) :
    Ends (.ctxCplConsWrite r c v) s (fun u => u.dev.reg (Reg.ctxCplCons c) = v ∧
      (u.dev.ctx c).cplValid = (s.dev.ctx c).cplValid.filter (fun x => !l.contains x) ∧ (u.dev.ctx c).runs = (s.dev.ctx c).runs ∧ u.mem = s.mem ∧
      u.dev.counters = s.dev.counters ∧ u.dev.tiles = s.dev.tiles) := by
  obtain ⟨g, h, heffect⟩ : ∃ g h, s.begin.cplConsWrite c v =
      (s.begin.withCpl c (Reg.ctxCplCons c) v ((s.dev.ctx c).cplValid.filter (fun x => !l.contains x))).withTraffic g h := by
    have hall : l.any (fun n => !(s.begin.ctx c).cplValid.contains n) = false :=
      List.any_eq_false.mpr fun n hn => by rw [Bool.not_eq_true', Bool.not_eq_false]; exact List.contains_iff_mem.mpr (hvalid n hn)
    obtain ⟨g, h, hsent⟩ := Dev.each_traffic (f := fun d n => d.hwr (d.ctx c).port c (d.cplSlot c (BitVec.ofNat 32 n) + 4) [0] .cplClear c n)
      (fun d _ => d.hwr_traffic ..) l s.begin
    refine ⟨g, h, ?_⟩
    have hrange' : seqRange (s.begin.reg (Reg.ctxCplCons c)) v (2 ^ s.begin.rf (Reg.ctxCplCtrl c) 4 0) = some l := hrange
    unfold Dev.cplConsWrite
    simp only [hrange', hall, Bool.false_eq_true, if_false, hsent]
    refine acceptRecords_withCpl (d := s.begin) ?_ hheld _ _ _ _
    unfold Reg.ctxCplCons Reg.ctxRunCtrl
    omega
  exact ends_of_withCpl (i := .ctxCplConsWrite r c v) (perm := fun d => d.mayWriteCtx r c.val) (x := fun _ d => (d.cplConsWrite c.val v, stOK)) rfl hheard hmay
    (Prod.ext heffect rfl)

theorem ctxCplConsWrite_held (s : State) (r : Requester) (c : Fin 64) (v : BitVec 32) (l : List Nat) (x : Nat) (hheard : Heard s r (Reg.ctxCplCons c) v)
    (hmay : s.dev.mayWriteCtx r c = true) (hrange : seqRange (s.dev.reg (Reg.ctxCplCons c)) v (2 ^ s.dev.rf (Reg.ctxCplCtrl c) 4 0) = some l)
    (hx : x ∈ l) (hgone : ¬ x ∈ (s.dev.ctx c).cplValid) :
    Ends (.ctxCplConsWrite r c v) s (fun u => u.dev.regs = s.dev.regs ∧ u.dev.ctxs = s.dev.ctxs ∧ u.dev.tags = s.dev.tags ∧ u.mem = s.mem ∧
      u.dev.counters = s.dev.counters) := by
  have heffect : s.begin.cplConsWrite c v = s.begin := by
    have hrange' : seqRange (s.begin.reg (Reg.ctxCplCons c)) v (2 ^ s.begin.rf (Reg.ctxCplCtrl c) 4 0) = some l := hrange
    have hany : l.any (fun n => !(s.begin.ctx c).cplValid.contains n) = true :=
      List.any_eq_true.mpr ⟨x, hx, by rw [Bool.not_eq_true', ← Bool.not_eq_true]; exact fun h => hgone (List.contains_iff_mem.mp h)⟩
    unfold Dev.cplConsWrite
    simp only [hrange', hany, if_true]
  have hleaves : s.begin.regs = s.dev.regs ∧ s.begin.ctxs = s.dev.ctxs ∧ s.begin.tags = s.dev.tags ∧ s.begin.stores = [] ∧ s.begin.wipes = [] ∧
      s.begin.counters = s.dev.counters := ⟨rfl, rfl, rfl, rfl, rfl, rfl⟩
  obtain ⟨hregs, hctxs, htags, hstores, hwipes, hcounters⟩ := hleaves
  obtain ⟨e, he⟩ : ∃ e, s.begin.cplConsWrite c v = e := ⟨_, rfl⟩
  rw [← heffect, he] at hregs hctxs htags hstores hwipes hcounters
  exact ends_of_heard (i := .ctxCplConsWrite r c v) (perm := fun d => d.mayWriteCtx r c.val) (x := fun _ d => (d.cplConsWrite c.val v, stOK)) (d := e)
    (st := stOK) rfl hheard hmay (Prod.ext he rfl) ⟨hregs, hctxs, htags, s.commit_mem _ hstores hwipes, hcounters⟩

/-! The event ring of a context. -/

/-- An event ring register written, and the records of the context's ring exchanged. -/
def Dev.withEvt (d : Dev) (c k : Nat) (v : BitVec 32) (x : EventRing) : Dev := (d.setCtx c { d.ctx c with evt := x }).setReg k v

theorem ctxEvtConsWrite_consumes (s : State) (r : Requester) (c : Fin 64) (v : BitVec 32) (l : List Nat) (hheard : Heard s r (Reg.ctxEvtCons c) v)
    (hmay : s.dev.mayWriteCtx r c = true) (hrange : seqRange (s.dev.reg (Reg.ctxEvtCons c)) v (2 ^ s.dev.rf (Reg.ctxEvtCtrl c) 4 0) = some l)
    (hvalid : ∀ x, x ∈ l → x ∈ (s.dev.ctx c).evt.valid) :
    Ends (.ctxEvtConsWrite r c v) s (fun u => u.dev.reg (Reg.ctxEvtCons c) = v ∧
      (u.dev.ctx c).evt.valid = (s.dev.ctx c).evt.valid.filter (fun x => !l.contains x) ∧ (u.dev.ctx c).evt.next = (s.dev.ctx c).evt.next ∧ u.mem = s.mem ∧
      u.dev.counters = s.dev.counters ∧ u.dev.tiles = s.dev.tiles) := by
  have hc : c.val ≠ 64 := by omega
  obtain ⟨g, h, heffect⟩ : ∃ g h, s.begin.evtConsWrite c (Reg.ctxEvtCons c) v =
      (s.begin.withEvt c (Reg.ctxEvtCons c) v ((s.dev.ctx c).evt.without l)).withTraffic g h := by
    have hall : l.any (fun n => !(s.begin.ctx c).evt.valid.contains n) = false :=
      List.any_eq_false.mpr fun n hn => by rw [Bool.not_eq_true', Bool.not_eq_false]; exact List.contains_iff_mem.mpr (hvalid n hn)
    obtain ⟨a, ha⟩ : ∃ a, a = s.begin.eventRingAt c := ⟨_, rfl⟩
    have hsize : a.size = 2 ^ s.dev.rf (Reg.ctxEvtCtrl c) 4 0 := by rw [ha, Dev.eventRingAt, if_neg hc]; rfl
    have hring : s.begin.eventRing c = (s.begin.ctx c).evt := if_neg hc
    obtain ⟨g, h, hsent⟩ := Dev.each_traffic (f := fun d n => d.hwr a.port c (a.base + n % a.size * 32 + 3) [0] .evtClear c n)
      (fun d _ => d.hwr_traffic ..) l s.begin
    refine ⟨g, h, ?_⟩
    have hring' : (s.begin.withTraffic g h).eventRing c = (s.begin.ctx c).evt := if_neg hc
    have hrange' : seqRange (s.begin.reg (Reg.ctxEvtCons c)) v a.size = some l := by rw [hsize]; exact hrange
    unfold Dev.evtConsWrite
    simp only [← ha, hrange', hring, hall, Bool.false_eq_true, if_false, if_neg hc, hsent, hring', Dev.setEventRing]
    rfl
  have hctx : ((s.begin.withEvt c (Reg.ctxEvtCons c) v ((s.dev.ctx c).evt.without l)).withTraffic g h).ctx c = { s.dev.ctx c with evt := (s.dev.ctx c).evt.without l } :=
    Dev.ctx_setCtx_same s.begin c { s.dev.ctx c with evt := (s.dev.ctx c).evt.without l }
  have hreg : ((s.begin.withEvt c (Reg.ctxEvtCons c) v ((s.dev.ctx c).evt.without l)).withTraffic g h).reg (Reg.ctxEvtCons c) = v :=
    Dev.reg_setReg_same (s.begin.setCtx c { s.begin.ctx c with evt := (s.dev.ctx c).evt.without l }) _ v
  have hleaves : ∀ (d : Dev) (k : Nat) (x : EventRing), ((d.withEvt c k v x).withTraffic g h).stores = d.stores ∧ ((d.withEvt c k v x).withTraffic g h).wipes = d.wipes ∧
      ((d.withEvt c k v x).withTraffic g h).counters = d.counters ∧ ((d.withEvt c k v x).withTraffic g h).tiles = d.tiles := fun _ _ _ => ⟨rfl, rfl, rfl, rfl⟩
  obtain ⟨hstores, hwipes, hcounters, htiles⟩ := hleaves s.begin (Reg.ctxEvtCons c) ((s.dev.ctx c).evt.without l)
  obtain ⟨e, he⟩ : ∃ e, e = (s.begin.withEvt c (Reg.ctxEvtCons c) v ((s.dev.ctx c).evt.without l)).withTraffic g h := ⟨_, rfl⟩
  rw [← he] at heffect hctx hreg hstores hwipes hcounters htiles
  exact ends_of_heard (i := .ctxEvtConsWrite r c v) (perm := fun d => d.mayWriteCtx r c.val)
    (x := fun _ d => (d.evtConsWrite c.val (Reg.ctxEvtCons c.val) v, stOK)) (d := e) (st := stOK) rfl hheard hmay (Prod.ext heffect rfl)
    ⟨hreg, congrArg (·.evt.valid) hctx, congrArg (·.evt.next) hctx, s.commit_mem _ hstores hwipes, hcounters, htiles⟩

end Sys2Proof.Machine
end

section
/-! Contexts are bound (R337) and released from quarantine (R346, R347, R412). -/

namespace Sys2Proof.Machine

open Sys2Proof.Claims (Ends Quiet Heard)

/-! A bind. -/

/-- The page table exchanged. -/
def Dev.withPageTable (d : Dev) (l : Map (BitVec 16)) : Dev := { d with pages := l }

theorem withPageTable_leaves (d : Dev) (l : Map (BitVec 16)) : (d.withPageTable l).ctxs = d.ctxs ∧ (d.withPageTable l).regs = d.regs ∧
    (d.withPageTable l).stores = d.stores ∧ (d.withPageTable l).wipes = d.wipes ∧ (d.withPageTable l).counters = d.counters ∧
    (d.withPageTable l).tiles = d.tiles := ⟨rfl, rfl, rfl, rfl, rfl, rfl⟩

theorem ownPages_pages (d : Dev) (m : Mem) (c : Nat) : ∃ l, d.ownPages m c = d.withPageTable l := by
  refine Dev.each_invariant (P := fun e => ∃ l, e = d.withPageTable l) (fun e region _ he => ?_) ⟨d.pages, rfl⟩
  refine Dev.each_invariant (P := fun e => ∃ l, e = d.withPageTable l) (fun f pg _ ⟨l, hf⟩ => ?_) he
  split
  · exact ⟨l, hf⟩
  · exact ⟨_, by rw [hf]; rfl⟩

/-- A context bound to port `p` of a host. -/
def Ctx.boundAs (x : Ctx) (p : Nat) (id : BitVec 64) : Ctx := { x with state := .bound, port := p, hostId := id }

/-- The three rings of a context off. -/
def Dev.ringsOff (d : Dev) (c : Nat) : Dev :=
  ((d.setRf (Reg.ctxRunCtrl c) 31 31 0).setRf (Reg.ctxCplCtrl c) 31 31 0).setRf (Reg.ctxEvtCtrl c) 31 31 0

section
variable (d : Dev)

theorem rb_setRf_off (k : Nat) : (d.setRf k 31 31 0).rb k 31 = false := by
  have h := rf_setRf_same d k 0 (hi := 31) (lo := 31) (by decide) (by decide)
  rw [Dev.rb, getLsbD_eq_fb]
  rw [Dev.rf] at h
  rw [h]
  rfl

theorem bindCtx_eq (m : Mem) (p c : Nat) : d.bindCtx m p c = ((d.setCtx c ((d.ctx c).boundAs p (d.host p).hostId)).ringsOff c).ownPages m c := by
  unfold Dev.bindCtx Dev.ringsOff Ctx.boundAs
  rfl

theorem rb_of_reg {e : Dev} {k : Nat} (h : e.reg k = d.reg k) (i : Nat) : e.rb k i = d.rb k i := by rw [Dev.rb, h]; rfl

theorem ringsOff_rings (c : Nat) : (d.ringsOff c).rb (Reg.ctxRunCtrl c) 31 = false ∧ (d.ringsOff c).rb (Reg.ctxCplCtrl c) 31 = false ∧
    (d.ringsOff c).rb (Reg.ctxEvtCtrl c) 31 = false := by
  have hrun : Reg.ctxCplCtrl c ≠ Reg.ctxRunCtrl c := by unfold Reg.ctxCplCtrl Reg.ctxRunCtrl; omega
  have hrun' : Reg.ctxEvtCtrl c ≠ Reg.ctxRunCtrl c := by unfold Reg.ctxEvtCtrl Reg.ctxRunCtrl; omega
  have hcpl : Reg.ctxEvtCtrl c ≠ Reg.ctxCplCtrl c := by unfold Reg.ctxEvtCtrl Reg.ctxCplCtrl; omega
  refine ⟨?_, ?_, rb_setRf_off _ _⟩
  · rw [Dev.ringsOff, rb_of_reg _ (reg_setRf_other _ 31 31 0 hrun'), rb_of_reg _ (reg_setRf_other _ 31 31 0 hrun)]
    exact rb_setRf_off _ _
  · rw [Dev.ringsOff, rb_of_reg _ (reg_setRf_other _ 31 31 0 hcpl)]
    exact rb_setRf_off _ _

theorem ringsOff_leaves (c : Nat) : (d.ringsOff c).ctxs = d.ctxs ∧ (d.ringsOff c).stores = d.stores ∧ (d.ringsOff c).wipes = d.wipes ∧
    (d.ringsOff c).counters = d.counters ∧ (d.ringsOff c).tiles = d.tiles := ⟨rfl, rfl, rfl, rfl, rfl⟩

theorem ringsOff_devHpBind {c p : Nat} (hp : p < 4) : (d.ringsOff c).reg (Reg.devHpBind p) = d.reg (Reg.devHpBind p) := by
  have hkeys : Reg.ctxRunCtrl c ≠ Reg.devHpBind p ∧ Reg.ctxCplCtrl c ≠ Reg.devHpBind p ∧ Reg.ctxEvtCtrl c ≠ Reg.devHpBind p := by
    unfold Reg.ctxRunCtrl Reg.ctxCplCtrl Reg.ctxEvtCtrl Reg.devHpBind ctxWindow
    omega
  obtain ⟨hrun, hcpl, hevt⟩ := hkeys
  rw [Dev.ringsOff, reg_setRf_other _ _ _ _ hevt, reg_setRf_other _ _ _ _ hcpl, reg_setRf_other _ _ _ _ hrun]

/-- The result of a bind, and the context it names, in DEV_HP_BIND. -/
def Dev.bindNoted (p n c : Nat) : Dev := (d.setRf (Reg.devHpBind p) 15 8 n).setRf (Reg.devHpBind p) 5 0 c

theorem bindNoted_reads {p n c : Nat} (hn : n < 256) (hc : c < 64) : (d.bindNoted p n c).rf (Reg.devHpBind p) 15 8 = n ∧
    (d.bindNoted p n c).rf (Reg.devHpBind p) 5 0 = c := by
  constructor
  · rw [Dev.bindNoted, rf_setRf_above _ _ _ (by decide) (by decide) (by decide), rf_setRf_same _ _ _ (by decide) (by decide)]
    exact Nat.mod_eq_of_lt hn
  · rw [Dev.bindNoted, rf_setRf_same _ _ _ (by decide) (by decide)]
    exact Nat.mod_eq_of_lt hc

theorem bindNoted_leaves (p n c : Nat) : (d.bindNoted p n c).ctxs = d.ctxs ∧ (d.bindNoted p n c).hosts = d.hosts ∧ (d.bindNoted p n c).stores = d.stores ∧
    (d.bindNoted p n c).wipes = d.wipes ∧ (d.bindNoted p n c).counters = d.counters ∧ (d.bindNoted p n c).tiles = d.tiles := ⟨rfl, rfl, rfl, rfl, rfl, rfl⟩

/-- What a bind leaves. -/
theorem bindCtx_leaves (m : Mem) {p c : Nat} (hp : p < 4) : (d.bindCtx m p c).ctx c = (d.ctx c).boundAs p (d.host p).hostId ∧
    (d.bindCtx m p c).reg (Reg.devHpBind p) = d.reg (Reg.devHpBind p) ∧ (d.bindCtx m p c).rb (Reg.ctxRunCtrl c) 31 = false ∧
    (d.bindCtx m p c).rb (Reg.ctxCplCtrl c) 31 = false ∧ (d.bindCtx m p c).rb (Reg.ctxEvtCtrl c) 31 = false ∧
    (∀ x, x ≠ c → (d.bindCtx m p c).ctx x = d.ctx x) ∧ (d.bindCtx m p c).stores = d.stores ∧ (d.bindCtx m p c).wipes = d.wipes ∧
    (d.bindCtx m p c).counters = d.counters ∧ (d.bindCtx m p c).tiles = d.tiles := by
  rw [bindCtx_eq]
  obtain ⟨e, he⟩ : ∃ e, e = d.setCtx c ((d.ctx c).boundAs p (d.host p).hostId) := ⟨_, rfl⟩
  rw [← he]
  have hctxs : e.ctx c = (d.ctx c).boundAs p (d.host p).hostId ∧ (∀ x, x ≠ c → e.ctx x = d.ctx x) := by
    rw [he]
    exact ⟨Dev.ctx_setCtx_same .., fun x hx => (Dev.ctx_setCtx ..).trans (if_neg (Ne.symm hx))⟩
  have hleaves : e.regs = d.regs ∧ e.stores = d.stores ∧ e.wipes = d.wipes ∧ e.counters = d.counters ∧ e.tiles = d.tiles := by
    rw [he]
    exact ⟨rfl, rfl, rfl, rfl, rfl⟩
  obtain ⟨hregs, hstores, hwipes, hcounters, htiles⟩ := hleaves
  obtain ⟨hctxs', hstores', hwipes', hcounters', htiles'⟩ := ringsOff_leaves e c
  obtain ⟨hrun, hcpl, hevt⟩ := ringsOff_rings e c
  have hport := ringsOff_devHpBind e (c := c) hp
  obtain ⟨f, hf⟩ : ∃ f, f = e.ringsOff c := ⟨_, rfl⟩
  rw [← hf] at hctxs' hstores' hwipes' hcounters' htiles' hrun hcpl hevt hport ⊢
  obtain ⟨l, hpages⟩ := ownPages_pages f m c
  rw [hpages]
  obtain ⟨hctxs'', hregs'', hstores'', hwipes'', hcounters'', htiles''⟩ := withPageTable_leaves f l
  obtain ⟨g, hg⟩ : ∃ g, g = f.withPageTable l := ⟨_, rfl⟩
  rw [← hg] at hctxs'' hregs'' hstores'' hwipes'' hcounters'' htiles'' ⊢
  have hctx : ∀ x, g.ctx x = e.ctx x := fun x => by rw [Dev.ctx, hctxs'', hctxs']; rfl
  have hreg : ∀ k, g.reg k = f.reg k := fun k => by rw [Dev.reg, hregs'']; rfl
  have hport' : e.reg (Reg.devHpBind p) = d.reg (Reg.devHpBind p) := by rw [Dev.reg, hregs]; rfl
  exact ⟨(hctx c).trans hctxs.1, (hreg _).trans (hport.trans hport'), (rb_of_reg f (hreg _) 31).trans hrun, (rb_of_reg f (hreg _) 31).trans hcpl,
    (rb_of_reg f (hreg _) 31).trans hevt, fun x hx => (hctx x).trans (hctxs.2 x hx), hstores''.trans (hstores'.trans hstores),
    hwipes''.trans (hwipes'.trans hwipes), hcounters''.trans (hcounters'.trans hcounters), htiles''.trans (htiles'.trans htiles)⟩

end

theorem devHpBindWrite_binds (s : State) (q p : Fin 4) (v : BitVec 32) (c : Nat) (hheard : Heard s (.host q) (Reg.devHpBind p) v) (hc : c = fb v 5 0)
    (hne : c ≠ 0) (hfree : (s.dev.ctx c).state = .free) (hmask : (s.dev.ctx c).hostMask.getLsbD p.val = true) (hq : q = p) :
    Ends (.devHpBindWrite (.host q) p v) s (fun u => (u.dev.ctx c).state = .bound ∧ (u.dev.ctx c).port = p.val ∧ (u.dev.ctx c).hostId = (s.dev.host p).hostId ∧
      u.dev.rf (Reg.devHpBind p) 15 8 = 0 ∧ u.dev.rf (Reg.devHpBind p) 5 0 = c ∧ u.dev.rb (Reg.ctxRunCtrl c) 31 = false ∧
      u.dev.rb (Reg.ctxCplCtrl c) 31 = false ∧ u.dev.rb (Reg.ctxEvtCtrl c) 31 = false ∧
      (∀ x : Nat, x ≠ c → u.dev.ctx x = s.dev.ctx x) ∧ u.mem = s.mem ∧ u.dev.counters = s.dev.counters ∧ u.dev.tiles = s.dev.tiles) := by
  subst hq
  have hlow : c < 64 := hc ▸ fb_lt_two_pow v 5 0
  have hresult : s.begin.bindResult q q c = 0 := by
    have hfree' : (s.begin.ctx c).state = .free := hfree
    have hmask' : (s.begin.ctx c).hostMask.getLsbD q.val = true := hmask
    unfold Dev.bindResult
    rw [hfree', hmask', if_neg (by simp [hne]), if_neg (by decide), if_neg (by decide), if_neg (by simp)]
  obtain ⟨d, hd⟩ : ∃ d, d = s.begin.bindNoted q 0 c := ⟨_, rfl⟩
  have heffect : s.begin.bindWrite s.mem q q v = d.bindCtx s.mem q c := by
    unfold Dev.bindWrite
    dsimp only
    rw [← hc, hresult, if_pos rfl, hd]
    rfl
  obtain ⟨hctxs, hhosts, hstores, hwipes, hcounters, htiles⟩ := bindNoted_leaves s.begin q 0 c
  obtain ⟨hcode, hnamed⟩ := bindNoted_reads s.begin (p := q) (n := 0) (by decide) hlow
  obtain ⟨hctx, hreg, hrun, hcpl, hevt, hothers, hstores', hwipes', hcounters', htiles'⟩ := bindCtx_leaves d s.mem (p := q) (c := c) q.isLt
  rw [← hd] at hctxs hhosts hstores hwipes hcounters htiles hcode hnamed
  have hctx' : ∀ x, d.ctx x = s.dev.ctx x := fun x => by rw [Dev.ctx, hctxs]; rfl
  have hhost : d.host q = s.dev.host q := by rw [Dev.host, hhosts]; rfl
  obtain ⟨e, he⟩ : ∃ e, e = d.bindCtx s.mem q c := ⟨_, rfl⟩
  rw [← he] at heffect hctx hreg hrun hcpl hevt hothers hstores' hwipes' hcounters' htiles'
  rw [hctx', hhost] at hctx
  have hcode' : e.rf (Reg.devHpBind q) 15 8 = 0 := by rw [Dev.rf, hreg]; exact hcode
  have hnamed' : e.rf (Reg.devHpBind q) 5 0 = c := by rw [Dev.rf, hreg]; exact hnamed
  exact ends_of_heard (i := .devHpBindWrite (.host q) q v) (perm := fun _ => !isCtx0 (.host q)) (x := fun m d => (d.bindWrite m q.val (reqIndex (.host q)) v, stOK))
    (d := e) (st := stOK) rfl hheard rfl (Prod.ext heffect rfl)
    ⟨congrArg (·.state) hctx, congrArg (·.port) hctx, congrArg (·.hostId) hctx, hcode', hnamed', hrun, hcpl, hevt, fun x hx => (hothers x hx).trans (hctx' x),
      s.commit_mem _ (hstores'.trans hstores) (hwipes'.trans hwipes), hcounters'.trans hcounters, htiles'.trans htiles⟩

theorem bindResult_lt (d : Dev) (p q c : Nat) : d.bindResult p q c < 256 := by
  unfold Dev.bindResult
  split
  · decide
  split
  · decide
  split
  · decide
  split <;> decide

theorem devHpBindWrite_refused (s : State) (q p : Fin 4) (v : BitVec 32) (n : Nat) (hheard : Heard s (.host q) (Reg.devHpBind p) v)
    (hn : n = s.dev.bindResult p q (fb v 5 0)) (hne : n ≠ 0) :
    Ends (.devHpBindWrite (.host q) p v) s (fun u => u.dev.rf (Reg.devHpBind p) 15 8 = n ∧ u.dev.ctxs = s.dev.ctxs ∧ u.dev.pages = s.dev.pages ∧ u.mem = s.mem ∧
      u.dev.counters = s.dev.counters ∧ u.dev.tiles = s.dev.tiles) := by
  obtain ⟨e, he⟩ : ∃ e, e = s.begin.setRf (Reg.devHpBind p) 15 8 n := ⟨_, rfl⟩
  have hresult : s.begin.bindResult p q (fb v 5 0) = n := hn.symm
  have heffect : s.begin.bindWrite s.mem p q v = e := by
    unfold Dev.bindWrite
    dsimp only
    rw [hresult, if_neg hne, he]
  have hcode : e.rf (Reg.devHpBind p) 15 8 = n := by
    rw [he, rf_setRf_same _ _ _ (by decide) (by decide)]
    exact Nat.mod_eq_of_lt (hn ▸ bindResult_lt ..)
  have hleaves : e.ctxs = s.dev.ctxs ∧ e.pages = s.dev.pages ∧ e.stores = [] ∧ e.wipes = [] ∧ e.counters = s.dev.counters ∧ e.tiles = s.dev.tiles := by
    rw [he]
    exact ⟨rfl, rfl, rfl, rfl, rfl, rfl⟩
  obtain ⟨hctxs, hpages, hstores, hwipes, hcounters, htiles⟩ := hleaves
  exact ends_of_heard (i := .devHpBindWrite (.host q) p v) (perm := fun _ => !isCtx0 (.host q)) (x := fun m d => (d.bindWrite m p.val (reqIndex (.host q)) v, stOK))
    (d := e) (st := stOK) rfl hheard rfl (Prod.ext heffect rfl) ⟨hcode, hctxs, hpages, s.commit_mem _ hstores hwipes, hcounters, htiles⟩

/-! The end of a quarantine. -/

/-- Context `c` released: its window at reset, its state free. -/
def Dev.releasedCtx (d : Dev) (c : Nat) : Dev := (d.resetWindow c).setCtx c (d.ctx c).freed

theorem releasedCtx_leaves (d : Dev) (c : Nat) : (d.releasedCtx c).ctx c = (d.ctx c).freed ∧
    (∀ k, mfind (d.releasedCtx c).regs k = if ctxWindow c ≤ k ∧ k < ctxWindow c + 0x10000 then none else mfind d.regs k) ∧
    (d.releasedCtx c).stores = d.stores ∧ (d.releasedCtx c).wipes = d.wipes ∧ (d.releasedCtx c).tiles = d.tiles := by
  refine ⟨Dev.ctx_setCtx_same .., fun k => ?_, rfl, rfl, rfl⟩
  refine (mfind_filter d.regs (fun j => !(ctxWindow c ≤ j && j < ctxWindow c + 0x10000)) k).trans ?_
  by_cases hk : ctxWindow c ≤ k ∧ k < ctxWindow c + 0x10000
  · rw [if_pos hk, if_neg (by simp [hk])]
  · rw [if_neg hk, if_pos (by rw [Bool.not_eq_true', Bool.and_eq_false_iff, decide_eq_false_iff_not, decide_eq_false_iff_not]; omega)]

theorem quarantineEnd_frees (s : State) (c : Fin 64) (hstate : (s.dev.ctx c).state = .quarantine) (hidle : s.dev.hasTags c = false) :
    Ends (.quarantineEnd c) s (fun u => u.dev.ctx c = (s.dev.ctx c).freed ∧ (u.dev.ctx c).state = .free ∧
      (∀ k, ctxWindow c ≤ k → k < ctxWindow c + 0x10000 → mfind u.dev.regs k = none) ∧
      (∀ k, (k < ctxWindow c ∨ ctxWindow c + 0x10000 ≤ k) → mfind u.dev.regs k = mfind s.dev.regs k) ∧ u.mem = s.mem ∧ u.dev.tiles = s.dev.tiles) := by
  have heffect : xQuarantineEnd c s.mem s.begin = (s.begin.releasedCtx c).event [] 0x0905 0 c 0 0 := by
    have hstate' : (s.begin.ctx c).state = .quarantine := hstate
    have hidle' : s.begin.hasTags c = false := hidle
    unfold xQuarantineEnd
    rw [hstate', hidle', if_neg (by decide)]
    rfl
  obtain ⟨hctx, hregs, hstores, hwipes, htiles⟩ := releasedCtx_leaves s.begin c
  obtain ⟨d, hd⟩ : ∃ d, d = s.begin.releasedCtx c := ⟨_, rfl⟩
  rw [← hd] at heffect hctx hregs hstores hwipes htiles
  have hctxs := ctxs_event_package d 0x0905 0 c 0 0
  have hfields : (d.event [] 0x0905 0 c 0 0).regs = d.regs ∧ (d.event [] 0x0905 0 c 0 0).stores = d.stores ∧ (d.event [] 0x0905 0 c 0 0).wipes = d.wipes ∧
      (d.event [] 0x0905 0 c 0 0).tiles = d.tiles := by simp only [Dev.event_fields, and_self]
  obtain ⟨hregs', hstores', hwipes', htiles'⟩ := hfields
  obtain ⟨e, he⟩ : ∃ e, e = d.event [] 0x0905 0 c 0 0 := ⟨_, rfl⟩
  rw [← he] at heffect hctxs hregs' hstores' hwipes' htiles'
  have hctx' : e.ctx c = (s.dev.ctx c).freed := by rw [Dev.ctx, hctxs]; exact hctx
  have hregs'' : ∀ k, mfind e.regs k = if ctxWindow c ≤ k ∧ k < ctxWindow c + 0x10000 then none else mfind s.dev.regs k := fun k => by rw [hregs']; exact hregs k
  exact ends_of_run (x := xQuarantineEnd c) rfl heffect ⟨hctx', congrArg (·.state) hctx', fun k hlo hhi => (hregs'' k).trans (if_pos ⟨hlo, hhi⟩),
    fun k hk => (hregs'' k).trans (if_neg (by omega)), s.commit_mem _ (hstores'.trans hstores) (hwipes'.trans hwipes), htiles'.trans htiles⟩

theorem quarantineEnd_waits (s : State) (c : Fin 64) (htags : s.dev.hasTags c = true) : Quiet (.quarantineEnd c) s s.begin :=
  quiet_of_run (x := xQuarantineEnd c) rfl (if_pos (by
    have htags' : s.begin.hasTags c = true := htags
    rw [htags', Bool.or_true])) rfl rfl

theorem lossLimitExpiry_back (s : State) (p : Fin 4) (hactive : (s.dev.host p).state = .active) : Quiet (.lossLimitExpiry p) s s.begin :=
  quiet_of_run (x := xLossLimitExpiry p) rfl (if_pos (by
    have hactive' : (s.begin.host p).state = .active := hactive
    rw [hactive']
    decide)) rfl rfl

/-- Settles O47 (the codes of a bind and the order of their checks are the model's choice, log entry 65): rings are consumed over records that are valid, a bind answers
its code, and a teardown ends in quarantine until no TAG is left. -/
theorem ringsAndContextsAreBoundAndTornDown : Obligations.RingsAndContextsAreBoundAndTornDown :=
  ⟨ctxCplEnable_enables, ctxCplEnable_refused, ctxCplConsWrite_consumes, ctxCplConsWrite_held, ctxEvtConsWrite_consumes, devHpBindWrite_binds,
    devHpBindWrite_refused, lossLimitExpiry_tears, lossLimitExpiry_back, ctxTeardown_tears, quarantineEnd_frees, quarantineEnd_waits⟩

end Sys2Proof.Machine
end

section
/-! Core samples (R369 to R372), and the commands that reset nothing. -/

namespace Sys2Proof.Machine

open Sys2Proof.Claims (Ends Quiet Heard Holds SameMemBut)

/-! A tile's copy ends. -/

/-- The bytes of a tile's first `n` sample rows. -/
def sampleBytes (m : Mem) (d : Dev) (t n : Nat) : List Byte :=
  (((sampleRows (d.sampleWindows t)).take n).map (fun a => peekN m d (scrBase t + a) 64)).flatten

theorem sampleBytes_length (m : Mem) (d : Dev) (t n : Nat) : (sampleBytes m d t n).length = 64 * ((sampleRows (d.sampleWindows t)).take n).length := by
  unfold sampleBytes
  induction (sampleRows (d.sampleWindows t)).take n with
  | nil => rfl
  | cons a l ih => rw [List.map_cons, List.flatten_cons, List.length_append, peekN_length, ih, List.length_cons]; omega

section
variable (d : Dev) (m : Mem) (t n : Nat) (st : BitVec 2)

theorem sampleEnd_leaves : (d.sampleEnd m t n st).stores = (d.pokeN (sampleSlot t) (sampleBytes m d t n)).stores ∧ (d.sampleEnd m t n st).wipes = d.wipes ∧
    (d.sampleEnd m t n st).regs = d.regs ∧ (d.sampleEnd m t n st).tiles = d.tiles ∧ (d.sampleEnd m t n st).counters = d.counters ∧
    (d.sampleEnd m t n st).ras.resets = d.ras.resets := ⟨rfl, rfl, rfl, rfl, rfl, rfl⟩

theorem sampleEnd_sample : (mget {} (d.sampleEnd m t n st).ras.samples t).state = st ∧ (mget {} (d.sampleEnd m t n st).ras.samples t).copying = false ∧
    (mget {} (d.sampleEnd m t n st).ras.samples t).rows = ((sampleRows (d.sampleWindows t)).take n).length ∧
    (mget {} (d.sampleEnd m t n st).ras.samples t).lt = d.lode.count := by
  obtain ⟨x, hx⟩ : ∃ x, (d.sampleEnd m t n st).ras.samples = mset d.ras.samples t x ∧ x.state = st ∧ x.copying = false ∧
      x.rows = ((sampleRows (d.sampleWindows t)).take n).length ∧ x.lt = d.lode.count := ⟨_, rfl, rfl, rfl, rfl, rfl⟩
  rw [hx.1, mget_mset_same]
  exact hx.2

theorem sampleEnd_others {i : Nat} (h : i ≠ t) : mget {} (d.sampleEnd m t n st).ras.samples i = mget {} d.ras.samples i :=
  mget_mset_other _ _ _ (Ne.symm h)

end

/-- Another tile copies: nothing goes on. -/
theorem copiesOver_waits {d : Dev} {j : Nat} (hj : j < 64) (hcopies : d.copying j = true) (m : Mem) : d.copiesOver m = d :=
  if_pos (List.any_eq_true.mpr ⟨j, List.mem_range.mpr hj, hcopies⟩)

theorem sampleCutoff_cuts (s : State) (t j : Fin 64) (ht : s.dev.copying t = true) (hj : s.dev.copying j = true) (hne : j ≠ t) :
    Ends (.sampleCutoff t) s (fun u => (mget {} u.dev.ras.samples t).state = 2 ∧ u.dev.copying t = false ∧
      (∀ i : Nat, i ≠ t.val → mget {} u.dev.ras.samples i = mget {} s.dev.ras.samples i) ∧
      SameMemBut s u (sampleSlot t) (64 * (sampleRows (s.dev.sampleWindows t)).length) ∧ u.dev.regs = s.dev.regs ∧ u.dev.tiles = s.dev.tiles ∧
      u.dev.counters = s.dev.counters) := by
  obtain ⟨d, hd⟩ : ∃ d, d = s.begin.takeFree.2 := ⟨_, rfl⟩
  obtain ⟨n, hcut⟩ : ∃ n, s.begin.cutSample s.mem t = d.sampleEnd s.mem t n 2 := ⟨_, by rw [hd]; rfl⟩
  have hbase : d.regs = s.dev.regs ∧ d.tiles = s.dev.tiles ∧ d.counters = s.dev.counters ∧ d.stores = [] ∧ d.wipes = [] ∧ d.ras = s.dev.ras ∧
      d.sampleWindows t = s.dev.sampleWindows t := by rw [hd]; exact ⟨rfl, rfl, rfl, rfl, rfl, rfl, rfl⟩
  obtain ⟨hregs, htiles, hcounters, hstores, hwipes, hras, hwindows⟩ := hbase
  obtain ⟨hstores', hwipes', hregs', htiles', hcounters', -⟩ := sampleEnd_leaves d s.mem t n 2
  obtain ⟨hstate, hcopying, -⟩ := sampleEnd_sample d s.mem t n 2
  have hothers : ∀ i : Nat, i ≠ t.val → mget {} (d.sampleEnd s.mem t n 2).ras.samples i = mget {} s.dev.ras.samples i := fun i hi => by
    rw [sampleEnd_others _ _ _ _ _ hi, hras]
  have hlen : (sampleBytes s.mem d t n).length ≤ 64 * (sampleRows (s.dev.sampleWindows t)).length := by
    rw [sampleBytes_length, hwindows, List.length_take]
    omega
  obtain ⟨e, he⟩ : ∃ e, e = d.sampleEnd s.mem t n 2 := ⟨_, rfl⟩
  have hother : e.copying j = true := by
    rw [Dev.copying, he, hothers j (fun h => hne (Fin.ext h))]
    exact hj
  rw [← he] at hcut hstores' hwipes' hregs' htiles' hcounters' hstate hcopying hothers
  have heffect : xSampleCutoff t s.mem s.begin = e := by
    unfold xSampleCutoff
    rw [if_pos (show s.begin.copying t = true from ht), hcut, copiesOver_waits j.isLt hother]
  obtain ⟨-, hsame⟩ := holds_of_pokeN s (d := e) (a := sampleSlot t) (bs := sampleBytes s.mem d t n)
    (by rw [hstores', Dev.pokeN, Dev.pokeN, hstores]; rfl) (hwipes'.trans hwipes)
  exact ends_of_run (x := xSampleCutoff t) rfl heffect ⟨hstate, hcopying, hothers, fun x hx => hsame x (by omega), hregs'.trans hregs, htiles'.trans htiles,
    hcounters'.trans hcounters⟩

theorem sampleDone_none {d : Dev} (hresets : d.ras.resets = []) (m : Mem) :
    ∃ x y k, d.sampleDone m = (d.event [] 0x0B09 1 x y 0).bumpN Reg.rasSamplesPartial k := by
  unfold Dev.sampleDone
  rw [hresets]
  exact ⟨_, _, _, rfl⟩

/-- The last copy is over and no reset waits for it: SAMPLE_TAKEN, and nothing else. -/
theorem copiesOver_leaves {d : Dev} (hresets : d.ras.resets = []) (m : Mem) : (d.copiesOver m).ras.samples = d.ras.samples ∧
    (d.copiesOver m).stores = d.stores ∧ (d.copiesOver m).wipes = d.wipes ∧ (d.copiesOver m).regs = d.regs ∧ (d.copiesOver m).tiles = d.tiles := by
  unfold Dev.copiesOver
  split
  · exact ⟨rfl, rfl, rfl, rfl, rfl⟩
  · obtain ⟨x, y, k, hdone⟩ := sampleDone_none hresets m
    have hfields : (d.event [] 0x0B09 1 x y 0).ras = d.ras ∧ (d.event [] 0x0B09 1 x y 0).stores = d.stores ∧ (d.event [] 0x0B09 1 x y 0).wipes = d.wipes ∧
        (d.event [] 0x0B09 1 x y 0).regs = d.regs ∧ (d.event [] 0x0B09 1 x y 0).tiles = d.tiles := by simp only [Dev.event_fields, and_self]
    obtain ⟨e, he⟩ : ∃ e, e = d.event [] 0x0B09 1 x y 0 := ⟨_, rfl⟩
    rw [← he] at hdone hfields
    obtain ⟨hras, hstores, hwipes, hregs, htiles⟩ := hfields
    have hnone : (e.bumpN Reg.rasSamplesPartial k).ras.resets = [] := by
      show e.ras.resets = []
      rw [hras, hresets]
    rw [hdone, Dev.resetsGoOn, endResets_none hnone, recoveryGoes_none hnone]
    exact ⟨congrArg (·.samples) hras, hstores, hwipes, hregs, htiles⟩

theorem sampleComplete_ends (s : State) (t : Nat) (hone : (List.range 64).filter s.dev.copying = [t]) (hresets : s.dev.ras.resets = []) :
    Ends .sampleComplete s (fun u => (mget {} u.dev.ras.samples t).state = 1 ∧ u.dev.copying t = false ∧
      (mget {} u.dev.ras.samples t).rows = (sampleRows (s.dev.sampleWindows t)).length ∧ (mget {} u.dev.ras.samples t).lt = s.dev.lode.count ∧
      Holds u (sampleSlot t) (((sampleRows (s.dev.sampleWindows t)).map (fun a => peekN s.mem s.begin (scrBase t + a) 64)).flatten) ∧
      SameMemBut s u (sampleSlot t) (64 * (sampleRows (s.dev.sampleWindows t)).length) ∧ u.dev.regs = s.dev.regs ∧ u.dev.tiles = s.dev.tiles) := by
  obtain ⟨n, hn⟩ : ∃ n, n = (sampleRows (s.dev.sampleWindows t)).length := ⟨_, rfl⟩
  obtain ⟨e, he⟩ : ∃ e, e = s.begin.sampleEnd s.mem t n 1 := ⟨_, rfl⟩
  obtain ⟨hstores, hwipes, hregs, htiles, -, hnone⟩ := sampleEnd_leaves s.begin s.mem t n 1
  obtain ⟨hstate, hcopying, hrows, hlt⟩ := sampleEnd_sample s.begin s.mem t n 1
  rw [← he] at hstores hwipes hregs htiles hnone hstate hcopying hrows hlt
  have htake : (sampleRows (s.begin.sampleWindows t)).take n = sampleRows (s.dev.sampleWindows t) := by
    rw [hn]
    exact List.take_length
  have heffect : xSampleComplete s.mem s.begin = e.copiesOver s.mem := by
    unfold xSampleComplete
    have hone' : (List.range 64).filter s.begin.copying = [t] := hone
    rw [hone']
    dsimp only [List.isEmpty_cons]
    rw [if_neg (by decide), Dev.each_cons, Dev.each_nil, he, hn]
    rfl
  obtain ⟨hsamples, hstores', hwipes', hregs', htiles'⟩ := copiesOver_leaves (hnone.trans hresets) s.mem
  obtain ⟨f, hf⟩ : ∃ f, f = e.copiesOver s.mem := ⟨_, rfl⟩
  rw [← hf] at heffect hsamples hstores' hwipes' hregs' htiles'
  have hbytes : sampleBytes s.mem s.begin t n = ((sampleRows (s.dev.sampleWindows t)).map (fun a => peekN s.mem s.begin (scrBase t + a) 64)).flatten := by
    rw [sampleBytes, htake]
  obtain ⟨hholds, hsame⟩ := holds_of_pokeN s (d := f) (hstores'.trans hstores) (hwipes'.trans hwipes)
  rw [sampleBytes_length, htake] at hsame
  rw [hbytes] at hholds
  refine ends_of_run (x := xSampleComplete) rfl heffect ⟨?_, ?_, ?_, ?_, hholds, hsame, hregs'.trans hregs, htiles'.trans htiles⟩
  · show (mget {} f.ras.samples t).state = 1
    rw [hsamples, hstate]
  · show (mget {} f.ras.samples t).copying = false
    rw [hsamples, hcopying]
  · show (mget {} f.ras.samples t).rows = _
    rw [hsamples, hrows, htake]
  · show (mget {} f.ras.samples t).lt = _
    rw [hsamples, hlt]
    rfl

theorem sampleRelease_frees (s : State) (r : Requester) (hheard : Heard s r Reg.rasSampleCtrl (s.dev.regWith Reg.rasSampleCtrl 1 0 1))
    (hmay : s.dev.ctx0OrAdmin r = true) :
    Ends (.sampleRelease r) s (fun u => u.dev.ras = { s.dev.ras with samples := s.dev.ras.samples.filter (fun (x : Nat × Sample) => x.2.copying) } ∧ u.mem = s.mem ∧
      u.dev.tiles = s.dev.tiles ∧ u.dev.counters = s.dev.counters) := by
  obtain ⟨d, hd⟩ : ∃ d, d = s.begin.putReg Reg.rasSampleCtrl (s.begin.regWith Reg.rasSampleCtrl 1 0 1) := ⟨_, rfl⟩
  have hcmd : fb (s.begin.regWith Reg.rasSampleCtrl 1 0 1) 1 0 = 1 := fb_ofNat_setFld 32 _ 1 0 1 (s.begin.reg Reg.rasSampleCtrl).isLt (by decide) (by decide)
  have hbase : d.ras = s.dev.ras ∧ d.tiles = s.dev.tiles ∧ d.counters = s.dev.counters ∧ d.stores = [] ∧ d.wipes = [] := by
    rw [hd]
    exact ⟨rfl, rfl, rfl, rfl, rfl⟩
  obtain ⟨hras, htiles, hcounters, hstores, hwipes⟩ := hbase
  have heffect : s.begin.sampleCtrlWrite (s.begin.regWith Reg.rasSampleCtrl 1 0 1) = d.sampleRelease := by
    unfold Dev.sampleCtrlWrite
    rw [hcmd, if_neg (by decide), ← hd]
    rfl
  have hleaves : ∀ d : Dev, d.sampleRelease.ras = { d.ras with samples := d.ras.samples.filter (fun (x : Nat × Sample) => x.2.copying) } ∧
      d.sampleRelease.stores = d.stores ∧ d.sampleRelease.wipes = d.wipes ∧ d.sampleRelease.tiles = d.tiles ∧ d.sampleRelease.counters = d.counters :=
    fun _ => ⟨rfl, rfl, rfl, rfl, rfl⟩
  obtain ⟨hras', hstores', hwipes', htiles', hcounters'⟩ := hleaves d
  obtain ⟨e, he⟩ : ∃ e, e = d.sampleRelease := ⟨_, rfl⟩
  rw [← he] at heffect hras' hstores' hwipes' htiles' hcounters'
  rw [hras] at hras'
  exact ends_of_heard (i := .sampleRelease r) (perm := fun d => d.ctx0OrAdmin r)
    (x := fun _ d => (d.sampleCtrlWrite (d.regWith Reg.rasSampleCtrl 1 0 1), stOK)) (d := e) (st := stOK) rfl hheard hmay (Prod.ext heffect rfl)
    ⟨hras', s.commit_mem _ (hstores'.trans hstores) (hwipes'.trans hwipes), htiles'.trans htiles, hcounters'.trans hcounters⟩

/-! The end of a clear. -/

theorem scratchpadClearComplete_ends (s : State) (t : Fin 64) (hclearing : (s.dev.tile t).clearing = true) (howner : s.dev.ownerOf t = none)
    (hresets : s.dev.ras.resets = []) :
    Quiet (.scratchpadClearComplete t) s (s.begin.setTile t { s.dev.tile t with clearing := false }) := by
  refine quiet_of_run (x := xScratchpadClearComplete t) rfl ?_ rfl rfl
  obtain ⟨e, he⟩ : ∃ e, e = s.begin.setTile t { s.begin.tile t with clearing := false } := ⟨_, rfl⟩
  have howner' : e.ownerOf t = none := by rw [he]; exact howner
  have hresets' : e.ras.resets = [] := by rw [he]; exact hresets
  have hclearing' : (s.begin.tile t).clearing = true := hclearing
  unfold xScratchpadClearComplete
  rw [hclearing', if_neg (by decide), ← he]
  dsimp only
  rw [howner']
  dsimp only
  rw [Dev.resetsGoOn, endResets_none hresets', recoveryGoes_none hresets', he]
  rfl

theorem scratchpadClearComplete_none (s : State) (t : Fin 64) (hclearing : (s.dev.tile t).clearing = false) :
    Quiet (.scratchpadClearComplete t) s s.begin :=
  quiet_of_run (x := xScratchpadClearComplete t) rfl (if_pos (by
    have hclearing' : (s.begin.tile t).clearing = false := hclearing
    rw [hclearing']
    rfl)) rfl rfl

/-! Commands that find nothing to reset. -/

/-- The write of RAS_RESET_CTRL alone. -/
theorem ends_of_resetCtrl {i : Instr} {s : State} {r : Requester} {v : BitVec 32} {x : Mem → Dev → Dev × Nat}
    (hexec : exec i s = s.runReg r Reg.rasResetCtrl v (fun d => d.ctx0OrAdmin r) x) (hheard : Heard s r Reg.rasResetCtrl v) (hmay : s.dev.ctx0OrAdmin r = true)
    {w : BitVec 32} (hx : x s.mem s.begin = (s.begin.putReg Reg.rasResetCtrl w, stOK)) :
    Ends i s (fun u => u.dev.ctxs = s.dev.ctxs ∧ u.dev.ras = s.dev.ras ∧ u.dev.tiles = s.dev.tiles ∧ u.mem = s.mem ∧ u.dev.counters = s.dev.counters) := by
  obtain ⟨e, he⟩ : ∃ e, e = s.begin.putReg Reg.rasResetCtrl w := ⟨_, rfl⟩
  have hleaves : e.ctxs = s.dev.ctxs ∧ e.ras = s.dev.ras ∧ e.tiles = s.dev.tiles ∧ e.stores = [] ∧ e.wipes = [] ∧ e.counters = s.dev.counters := by
    rw [he]
    exact ⟨rfl, rfl, rfl, rfl, rfl, rfl⟩
  obtain ⟨hctxs, hras, htiles, hstores, hwipes, hcounters⟩ := hleaves
  rw [← he] at hx
  exact ends_of_heard (d := e) (st := stOK) hexec hheard hmay hx ⟨hctxs, hras, htiles, s.commit_mem _ hstores hwipes, hcounters⟩

theorem contextReset_unbound (s : State) (r : Requester) (c : Fin 64) (hheard : Heard s r Reg.rasResetCtrl (BitVec.ofNat 32 (2 ^ 30 + c.val)))
    (hmay : s.dev.ctx0OrAdmin r = true) (hfree : s.dev.bound c = false) :
    Ends (.contextReset r c) s (fun u => u.dev.ctxs = s.dev.ctxs ∧ u.dev.ras = s.dev.ras ∧ u.dev.tiles = s.dev.tiles ∧ u.mem = s.mem ∧
      u.dev.counters = s.dev.counters) := by
  obtain ⟨d, hd⟩ : ∃ d, d = s.begin.putReg Reg.rasResetCtrl (BitVec.ofNat 32 (2 ^ 30 + c.val)) := ⟨_, rfl⟩
  have hfree' : d.bound c = false := by rw [hd]; exact hfree
  have heffect : d.resetCommand s.mem 1 c = d := if_neg (by rw [hfree', Bool.and_false]; decide)
  exact ends_of_resetCtrl (i := .contextReset r c)
    (x := fun m d => ((d.putReg Reg.rasResetCtrl (BitVec.ofNat 32 (2 ^ 30 + c.val))).resetCommand m 1 c.val, stOK)) rfl hheard hmay
    (w := BitVec.ofNat 32 (2 ^ 30 + c.val)) (by rw [← hd, heffect])

theorem computeReset_running (s : State) (r : Requester) (hheard : Heard s r Reg.rasResetCtrl (s.dev.regWith Reg.rasResetCtrl 31 30 2))
    (hmay : s.dev.ctx0OrAdmin r = true) (hrunning : s.dev.ras.resets.any (fun x => x.scope != 1) = true) :
    Ends (.computeReset r) s (fun u => u.dev.ras = s.dev.ras ∧ u.dev.ctxs = s.dev.ctxs ∧ u.dev.tiles = s.dev.tiles ∧ u.mem = s.mem) := by
  obtain ⟨d, hd⟩ : ∃ d, d = s.begin.putReg Reg.rasResetCtrl (s.begin.regWith Reg.rasResetCtrl 31 30 2) := ⟨_, rfl⟩
  have hrunning' : d.ras.resets.any (fun x => x.scope != 1) = true := by rw [hd]; exact hrunning
  have heffect : d.resetCommand s.mem 2 0 = d := if_pos hrunning'
  exact ends_imp (ends_of_resetCtrl (i := .computeReset r)
    (x := fun m d => ((d.putReg Reg.rasResetCtrl (d.regWith Reg.rasResetCtrl 31 30 2)).resetCommand m 2 0, stOK)) rfl hheard hmay
    (w := s.begin.regWith Reg.rasResetCtrl 31 30 2) (by rw [← hd, heffect]))
    fun u ⟨hctxs, hras, htiles, hmem, _⟩ => ⟨hras, hctxs, htiles, hmem⟩

theorem recoverNLow_early (s : State) (o : BringUpOutcome) (hstart : s.dev.bringUp ≠ .done) : Quiet (.recoverNLow o) s s.begin :=
  quiet_of_run (x := xRecoverNLow o) rfl (if_pos (by
    have hstart' : (s.begin.bringUp != .done) = true := bne_iff_ne.mpr hstart
    rw [hstart', Bool.or_true, Bool.true_or, Bool.true_or])) rfl rfl

end Sys2Proof.Machine
end

section
/-! What a reset does to contexts and tiles (R74, R188, R374, Tables 12.10 and 12.11). -/

namespace Sys2Proof.Machine

/-! A context but for its work and its protection. -/

/-- A context's core without the commands of its protection. -/
def Ctx.seat (x : Ctx) : Ctx := { x.core with prot := {} }

/-- What stands of the package but for its tiles and their registers. -/
def Dev.bearing (d : Dev) : List ResetRun × Map Sample × Map Die × Bool × Lode × BringUp × Pwr × List (Nat × Nat) × List (Nat × Byte) × BitVec 32 :=
  (d.ras.resets, d.ras.samples, d.dies, d.fenced, d.lode, d.bringUp, d.pwr, d.wipes, d.scratch, d.reg Reg.rasSampleCtrl)

/-- From `d` to `e` the contexts of `cs` have advanced their generations, and tiles have kept their states. -/
structure Retains (cs : List Nat) (d e : Dev) : Prop where
  gen : ∀ x, (e.ctx x).gen = if x ∈ cs then (d.ctx x).gen + 1 else (d.ctx x).gen
  state : ∀ x, (e.ctx x).state = (d.ctx x).state
  mask : ∀ x, (e.ctx x).tileMask = (d.ctx x).tileMask
  tile : ∀ t, (e.tile t).state = (d.tile t).state
  bearing : e.bearing = d.bearing

section
variable {d e f : Dev} {cs ks : List Nat}

theorem bearing_fields (h : e.bearing = d.bearing) : e.ras.resets = d.ras.resets ∧ e.ras.samples = d.ras.samples ∧ e.dies = d.dies ∧ e.fenced = d.fenced ∧
    e.lode = d.lode ∧ e.bringUp = d.bringUp ∧ e.pwr = d.pwr ∧ e.wipes = d.wipes ∧ e.scratch = d.scratch ∧ e.reg Reg.rasSampleCtrl = d.reg Reg.rasSampleCtrl := by
  simpa only [Dev.bearing, Prod.mk.injEq] using h

theorem bearing_of_ground (h : e.ground = d.ground) : e.bearing = d.bearing := by
  obtain ⟨hregs, -, hresets, hsamples, hdies, hfenced, hlode, hbringUp, hpwr, -, hwipes, hscratch⟩ := ground_fields h
  simp only [Dev.bearing, Dev.reg, hregs, hresets, hsamples, hdies, hfenced, hlode, hbringUp, hpwr, hwipes, hscratch]

theorem lost_of_bearing (h : e.bearing = d.bearing) (i : Nat) : e.lost i = d.lost i := by
  obtain ⟨-, -, hdies, hfenced, -⟩ := bearing_fields h
  rw [Dev.lost, Dev.keptDown, Dev.die, hdies, hfenced]
  rfl

theorem seat_fields {x y : Ctx} (h : y.seat = x.seat) : y.state = x.state ∧ y.gen = x.gen ∧ y.tileMask = x.tileMask := by
  simp only [Ctx.seat, Ctx.core, Ctx.mk.injEq] at h
  simp only [h, and_self]

theorem Retains.refl (d : Dev) : Retains [] d d := ⟨fun _ => rfl, fun _ => rfl, fun _ => rfl, fun _ => rfl, rfl⟩

theorem retains_of_seats (hseat : ∀ c, (e.ctx c).seat = (d.ctx c).seat) (hground : e.ground = d.ground) : Retains [] d e where
  gen c := (seat_fields (hseat c)).2.1
  state c := (seat_fields (hseat c)).1
  mask c := (seat_fields (hseat c)).2.2
  tile t := by
    obtain ⟨-, htiles, -⟩ := ground_fields hground
    rw [Dev.tile, htiles]
    rfl
  bearing := bearing_of_ground hground

theorem seat_of_core {x y : Ctx} (h : y.core = x.core) : y.seat = x.seat := congrArg (fun z : Ctx => { z with prot := {} }) h

theorem retains_of_standing (h : e.standing = d.standing) : Retains [] d e :=
  retains_of_seats (fun c => seat_of_core (core_of_standing h c)) (ground_of_standing h)

/-- One after another: no context is reset twice. -/
theorem Retains.trans (h : Retains cs d e) (h' : Retains ks e f) (hdisj : ∀ x ∈ ks, x ∉ cs) : Retains (cs ++ ks) d f where
  gen x := by
    rw [h'.gen, h.gen]
    by_cases hk : x ∈ ks
    · rw [if_pos hk, if_neg (hdisj x hk), if_pos (List.mem_append_right _ hk)]
    · by_cases hc : x ∈ cs
      · rw [if_neg hk, if_pos hc, if_pos (List.mem_append_left _ hc)]
      · rw [if_neg hk, if_neg hc, if_neg (by rw [List.mem_append]; exact fun h => h.elim hc hk)]
  state x := (h'.state x).trans (h.state x)
  mask x := (h'.mask x).trans (h.mask x)
  tile t := (h'.tile t).trans (h.tile t)
  bearing := h'.bearing.trans h.bearing

theorem Retains.next (h : Retains cs d e) (h' : Retains [] e f) : Retains cs d f := by
  have hall := h.trans h' fun x hx => absurd hx (List.not_mem_nil)
  rwa [List.append_nil] at hall

theorem Retains.then (h : Retains [] d e) (h' : Retains cs e f) : Retains cs d f := h.trans h' fun _ _ => List.not_mem_nil

theorem retains_each {α : Type} {l : List α} {g : Dev → α → Dev} (h : ∀ d a, Retains [] d (g d a)) (d : Dev) : Retains [] d (d.each l g) :=
  Dev.each_invariant (P := Retains [] d) (fun e a _ he => he.next (h e a)) (Retains.refl d)

end

/-! The steps of a context's reset. -/

section
variable (d : Dev) (m : Mem) (c : Nat)

theorem retains_protReset : Retains [] d (d.protReset m c) := by
  have hupd : ∀ (d : Dev) (g : Prot → Prot), Retains [] d (d.updProt c g) := fun d g => retains_of_seats (fun j => by
    rw [Dev.updProt, Dev.ctx_setCtx]
    split
    case isTrue hj => subst hj; rfl
    case isFalse => rfl) rfl
  unfold Dev.protReset
  extract_lets d1 d2
  have h1 : Retains [] d d1 := hupd d _
  have h2 : Retains [] d d2 := h1.next (retains_of_standing (standing_retireTags ..))
  split
  · exact h2
  · refine h2.next (retains_of_standing (standing_each _ fun d i => ?_))
    split
    · exact standing_setFlag ..
    · rfl

/-- A tile that is reset and stopped. -/
def Tile.resetTo (x : Tile) : Tile := { x.afterReset with stopped := true }

/-- A tile reset and stopped until it is reloaded. -/
def Dev.stopTile (d : Dev) (t : Nat) : Dev := (d.resetTile t).setTile t { (d.resetTile t).tile t with stopped := true }

theorem tile_stopTile (t i : Nat) : (d.stopTile t).tile i = if t = i then (d.tile i).resetTo else d.tile i := by
  have hreset : (d.resetTile t).tile t = (d.tile t).afterReset := Dev.tile_setTile_same d t (d.tile t).afterReset
  unfold Dev.stopTile
  rw [Dev.tile_setTile, hreset]
  split
  case isTrue ht => subst ht; rfl
  case isFalse ht => exact (Dev.tile_setTile d t i (d.tile t).afterReset).trans (if_neg ht)

theorem retains_stopTile (t : Nat) : Retains [] d (d.stopTile t) where
  gen _ := rfl
  state _ := rfl
  mask _ := rfl
  tile i := by
    rw [tile_stopTile]
    split <;> rfl
  bearing := by
    have hreg : (d.stopTile t).reg Reg.rasSampleCtrl = d.reg Reg.rasSampleCtrl := by
      refine (Dev.reg_setReg (d.setTile t (d.tile t).afterReset) (Reg.tileMoveCons t) Reg.rasSampleCtrl 0).trans (if_neg ?_)
      unfold Reg.tileMoveCons Reg.rasSampleCtrl indBlock
      omega
    rw [Dev.bearing, hreg]
    rfl

theorem resetTiles_eq (ts : List Nat) : d.resetTiles ts = d.each (ts.filter (fun t => (d.tile t).state != .retired)) (fun d t => d.stopTile t) := rfl

theorem retains_resetTiles (ts : List Nat) : Retains [] d (d.resetTiles ts) := retains_each (fun d t => retains_stopTile d t) d

theorem tile_resetTiles {ts : List Nat} (hts : ts.Nodup) (i : Nat) :
    (d.resetTiles ts).tile i = if i ∈ ts ∧ (d.tile i).state ≠ .retired then (d.tile i).resetTo else d.tile i := by
  rw [resetTiles_eq, Dev.each_update (fun d i => d.tile i) (fun _ x => x.resetTo) (hts.filter _) (fun d a i => tile_stopTile d a i) d i]
  exact if_congr (by rw [List.mem_filter, bne_iff_ne]) rfl rfl

theorem retains_withGen : Retains [c] d (d.withGen c) where
  gen x := by
    rw [Dev.withGen, Dev.ctx_setCtx]
    by_cases hx : x = c
    case pos => subst hx; rw [if_pos rfl, if_pos (List.mem_singleton.mpr rfl)]
    case neg => rw [if_neg (Ne.symm hx), if_neg (by rwa [List.mem_singleton])]
  state x := by
    rw [Dev.withGen, Dev.ctx_setCtx]
    split
    case isTrue hx => subst hx; rfl
    case isFalse => rfl
  mask x := by
    rw [Dev.withGen, Dev.ctx_setCtx]
    split
    case isTrue hx => subst hx; rfl
    case isFalse => rfl
  tile _ := rfl
  bearing := rfl

/-- The tiles after the steps that follow `resetTiles` stand. -/
theorem tile_of_standing {d e : Dev} (h : e.standing = d.standing) (t : Nat) : e.tile t = d.tile t := by
  obtain ⟨-, htiles, -⟩ := ground_fields (ground_of_standing h)
  rw [Dev.tile, htiles]
  rfl

/-- A context's reset but for its generation and its tiles: what stands after its tiles were reset. -/
theorem standing_resetCtx : (d.resetCtx m c).standing = (((((d.protReset m c).endServices m c).resetTiles (d.tilesOf c)).updLog c
    (fun l => { l with busy := none })).resetRuns c |>.withGen c).standing := by
  unfold Dev.resetCtx
  exact standing_nextGen ..

theorem retains_resetCtx : Retains [c] d (d.resetCtx m c) := by
  have h1 : Retains [] d ((d.protReset m c).endServices m c) := (retains_protReset d m c).next (retains_of_standing (standing_endServices ..))
  have h2 := h1.next (retains_resetTiles ((d.protReset m c).endServices m c) (d.tilesOf c))
  have h3 := h2.next (retains_of_standing (standing_updLog _ c (fun l => { l with busy := none })))
  have h4 := h3.next (retains_of_standing (e := Dev.resetRuns _ c) (standing_each _ fun _ _ => standing_stopRun ..))
  exact (h4.then (retains_withGen _ c)).next (retains_of_standing (standing_resetCtx d m c))

theorem tile_resetCtx (i : Nat) :
    (d.resetCtx m c).tile i = if i ∈ d.tilesOf c ∧ (d.tile i).state ≠ .retired then (d.tile i).resetTo else d.tile i := by
  have hprot : ∀ i, (d.protReset m c).tile i = d.tile i := fun i => by
    unfold Dev.protReset
    extract_lets d1 d2
    have h2 : d2.tile i = d.tile i := rfl
    split
    · exact h2
    · refine (tile_of_standing (standing_each _ fun d i => ?_) i).trans h2
      split
      · exact standing_setFlag ..
      · rfl
  have hserv : ∀ i, ((d.protReset m c).endServices m c).tile i = d.tile i := fun i => (tile_of_standing (standing_endServices ..) i).trans (hprot i)
  have hruns : ∀ d : Dev, (d.resetRuns c).tile i = d.tile i := fun d => tile_of_standing (standing_each _ fun _ _ => standing_stopRun ..) i
  have hnodup : (d.tilesOf c).Nodup := List.nodup_range.filter _
  have hgen : ∀ d : Dev, (d.withGen c).tile i = d.tile i := fun _ => rfl
  rw [tile_of_standing (standing_resetCtx d m c), hgen, hruns, tile_of_standing (standing_updLog ..), tile_resetTiles _ hnodup, hserv]

end

/-- The contexts of a list are reset, one after another. -/
theorem retains_resetCtxs (m : Mem) {l : List Nat} (hl : l.Nodup) (d : Dev) : Retains l d (d.each l (fun d c => d.resetCtx m c)) := by
  induction l generalizing d with
  | nil => exact Retains.refl d
  | cons a l ih =>
    obtain ⟨ha, hl⟩ := List.nodup_cons.mp hl
    exact (retains_resetCtx d m a).trans (ih hl (d.resetCtx m a)) fun x hx h => ha (List.mem_singleton.mp h ▸ hx)

/-! The scratchpads clear. -/

/-- The scratchpad of tile `t` reads zero: it is wiped, and nothing is stored there since. -/
def Dev.scratchZero (d : Dev) (t : Nat) : Prop := (scrBase t, 0x2000000) ∈ d.wipes ∧ ∀ x ∈ d.scratch, ¬ (scrBase t ≤ x.1 ∧ x.1 < scrBase t + 0x2000000)

theorem storedByte_none {l : List (Nat × Byte)} {a : Nat} (h : ∀ x ∈ l, x.1 ≠ a) : storedByte l a = none := by
  induction l with
  | nil => rfl
  | cons x l ih => rw [storedByte, if_neg (h x List.mem_cons_self), ih fun y hy => h y (List.mem_cons_of_mem _ hy)]

theorem peek_scratchZero {d : Dev} {t a : Nat} (h : d.scratchZero t) (ha : a < 0x2000000) (m : Mem) : peek m d (scrBase t + a) = 0 := by
  obtain ⟨hwiped, hclear⟩ := h
  have hstored : storedByte d.stores (scrBase t + a) = none := storedByte_none fun x hx heq => by
    refine hclear x (List.mem_filter.mpr ⟨hx, ?_⟩) ⟨by omega, by omega⟩
    rw [heq, isHbm_scratch]
    rfl
  have hrange : inRanges d.wipes (scrBase t + a) = true := List.any_eq_true.mpr ⟨_, hwiped, by simp only [Bool.and_eq_true, decide_eq_true_eq]; omega⟩
  rw [peek, hstored, hrange]
  rfl

/-- A tile's scratchpad begins to clear. -/
def Dev.clearTile (d : Dev) (t : Nat) : Dev := (d.setTile t { d.tile t with clearing := true, badWords := [] }).wipe (scrBase t) 0x2000000

theorem tile_clearTile (d : Dev) (t i : Nat) : (d.clearTile t).tile i = if t = i then { d.tile i with clearing := true, badWords := [] } else d.tile i := by
  refine (Dev.tile_setTile d t i _).trans ?_
  split
  case isTrue ht => subst ht; rfl
  case isFalse => rfl

theorem scratch_wipe (d : Dev) (a n : Nat) : (d.wipe a n).scratch = d.scratch.filter (fun c => !(a ≤ c.1 && c.1 < a + n)) := by
  unfold Dev.scratch
  exact List.filter_comm ..

theorem scratchZero_clearTile (d : Dev) (t : Nat) : (d.clearTile t).scratchZero t := by
  refine ⟨List.mem_cons_self, fun x hx => ?_⟩
  rw [Dev.clearTile, scratch_wipe, List.mem_filter] at hx
  have hout := hx.2
  simp only [Bool.not_eq_true', Bool.and_eq_false_iff, decide_eq_false_iff_not] at hout
  omega

theorem Dev.scratchZero.clearTile {d : Dev} {i : Nat} (h : d.scratchZero i) (t : Nat) : (d.clearTile t).scratchZero i := by
  refine ⟨List.mem_cons_of_mem _ h.1, fun x hx => ?_⟩
  rw [Dev.clearTile, scratch_wipe, List.mem_filter] at hx
  exact h.2 x hx.1

theorem scratchZero_of_ground {d e : Dev} (h : e.ground = d.ground) {t : Nat} (hd : d.scratchZero t) : e.scratchZero t := by
  obtain ⟨-, -, -, -, -, -, -, -, -, -, hwipes, hscratch⟩ := ground_fields h
  rw [Dev.scratchZero, hwipes, hscratch]
  exact hd

/-- What the beginning of some clears leaves. -/
def Dev.clearLeaves (d : Dev) := (d.ctxs, d.ras, d.dies, d.fenced, d.lode, d.bringUp, d.pwr, d.regs)

theorem clearTiles (l : List Nat) (d : Dev) : (∀ t ∈ l, (d.each l (fun d t => d.clearTile t)).scratchZero t ∧ ((d.each l (fun d t => d.clearTile t)).tile t).clearing = true) ∧
    (∀ t, t ∉ l → (d.each l (fun d t => d.clearTile t)).tile t = d.tile t) ∧
    (∀ t, ((d.each l (fun d t => d.clearTile t)).tile t).state = (d.tile t).state ∧ ((d.each l (fun d t => d.clearTile t)).tile t).stopped = (d.tile t).stopped) ∧
    ∀ t, d.scratchZero t ∧ (d.tile t).clearing = true → (d.each l (fun d t => d.clearTile t)).scratchZero t ∧ ((d.each l (fun d t => d.clearTile t)).tile t).clearing = true := by
  induction l generalizing d with
  | nil => exact ⟨fun _ h => absurd h (List.not_mem_nil), fun _ _ => rfl, fun _ => ⟨rfl, rfl⟩, fun _ h => h⟩
  | cons a l ih =>
    obtain ⟨hin, hout, hkept, hstays⟩ := ih (d.clearTile a)
    have hfirst : (d.clearTile a).scratchZero a ∧ ((d.clearTile a).tile a).clearing = true := ⟨scratchZero_clearTile d a, by rw [tile_clearTile, if_pos rfl]⟩
    simp only [Dev.each_cons]
    refine ⟨fun t ht => ?_, fun t ht => ?_, fun t => ?_, fun t ⟨hzero, hclear⟩ => hstays t ⟨hzero.clearTile a, ?_⟩⟩
    · rcases List.mem_cons.mp ht with rfl | ht
      · exact hstays t hfirst
      · exact hin t ht
    · rw [List.mem_cons, not_or] at ht
      rw [hout t ht.2, tile_clearTile, if_neg (Ne.symm ht.1)]
    · rw [(hkept t).1, (hkept t).2, tile_clearTile]
      split <;> exact ⟨rfl, rfl⟩
    · rw [tile_clearTile]
      split
      · rfl
      · exact hclear

end Sys2Proof.Machine
end

section
/-! The resets (R374, R376, Tables 12.10 to 12.12). -/

namespace Sys2Proof.Machine

open Sys2Proof.Claims (Ends Heard TilesReset SomeTile)

/-! A reset without a core sample goes on to its clears. -/

/-- The reset joined to those under way, no sample of it running. -/
def Dev.joined (d : Dev) (r : ResetRun) : Dev :=
  { d with ras := { d.ras with resets := (d.ras.resets ++ [r]).map (fun x => if x == r then { x with sampling := false } else x) } }

theorem joined_leaves (d : Dev) (r : ResetRun) : (d.joined r).ctxs = d.ctxs ∧ (d.joined r).tiles = d.tiles ∧ (d.joined r).ras.samples = d.ras.samples ∧
    (d.joined r).dies = d.dies ∧ (d.joined r).fenced = d.fenced ∧ (d.joined r).lode = d.lode ∧ (d.joined r).bringUp = d.bringUp ∧
    (d.joined r).pwr = d.pwr ∧ (∀ i, (d.joined r).lost i = d.lost i) := ⟨rfl, rfl, rfl, rfl, rfl, rfl, rfl, rfl, fun _ => rfl⟩

theorem joined_resets {d : Dev} (hnone : d.ras.resets = []) {r : ResetRun} (hr : r.sampling = false) : (d.joined r).ras.resets = [r] := by
  have hsame : ({ r with sampling := false } : ResetRun) = r := by rw [← hr]
  show (d.ras.resets ++ [r]).map _ = [r]
  rw [hnone, List.nil_append, List.map_cons, List.map_nil, if_pos (beq_self_eq_true r), hsame]

/-- The tiles of a reset whose scratchpads clear. -/
def Dev.clears (d : Dev) (r : ResetRun) : List Nat := (d.coveredTiles r).filter (fun t => (d.tile t).state != .retired && !d.lost (dieOf t))

theorem resetGoes_eq (d : Dev) (m : Mem) {r : ResetRun} (hr : r.sampling = false) :
    d.resetGoes m r false = ((d.joined r).each ((d.joined r).clears r) (fun d t => d.clearTile t)).each r.ctxs (fun d c => d.screeClear m c) := by
  have hsame : ({ r with sampling := false } : ResetRun) = r := by rw [← hr]
  unfold Dev.resetGoes
  dsimp only
  rw [hsame, if_neg (by decide)]
  rfl

/-- What follows once a reset without a sample has begun its clears. -/
structure Begun (r : ResetRun) (d e : Dev) : Prop where
  resets : e.ras.resets = [r]
  ctx : ∀ x, (e.ctx x).core = (d.ctx x).core
  cleared : ∀ t ∈ d.clears r, e.scratchZero t ∧ (e.tile t).clearing = true
  other : ∀ t, t ∉ d.clears r → e.tile t = d.tile t
  kept : ∀ t, (e.tile t).state = (d.tile t).state ∧ (e.tile t).stopped = (d.tile t).stopped
  bringUp : e.bringUp = d.bringUp

theorem resetGoes_begun {d : Dev} (hnone : d.ras.resets = []) (m : Mem) {r : ResetRun} (hr : r.sampling = false) : Begun r d (d.resetGoes m r false) := by
  rw [resetGoes_eq d m hr]
  obtain ⟨hctxs, htiles, -, -, -, -, hbringUp, -, hlost⟩ := joined_leaves d r
  have hresets := joined_resets hnone hr
  obtain ⟨e, he⟩ : ∃ e, e = d.joined r := ⟨_, rfl⟩
  rw [← he] at hctxs htiles hbringUp hlost hresets ⊢
  have hctx : ∀ x, e.ctx x = d.ctx x := fun x => by rw [Dev.ctx, hctxs]; rfl
  have htile : ∀ t, e.tile t = d.tile t := fun t => by rw [Dev.tile, htiles]; rfl
  have hcovered : e.coveredTiles r = d.coveredTiles r := by
    unfold Dev.coveredTiles Dev.tilesOf
    simp only [hctx]
  have hclears : e.clears r = d.clears r := by
    unfold Dev.clears
    simp only [hcovered, htile, hlost]
  rw [hclears]
  obtain ⟨hin, hout, hkept, -⟩ := clearTiles (d.clears r) e
  have hframe : ((e.each (d.clears r) (fun d t => d.clearTile t)).ctxs, (e.each (d.clears r) (fun d t => d.clearTile t)).ras,
      (e.each (d.clears r) (fun d t => d.clearTile t)).bringUp) = (e.ctxs, e.ras, e.bringUp) :=
    Dev.each_frame (f := fun d t => d.clearTile t) (fun d => (d.ctxs, d.ras, d.bringUp)) _ (fun _ _ => rfl) e
  simp only [Prod.mk.injEq] at hframe
  obtain ⟨hctxs', hras, hbringUp'⟩ := hframe
  obtain ⟨f, hf⟩ : ∃ f, f = e.each (d.clears r) (fun d t => d.clearTile t) := ⟨_, rfl⟩
  rw [← hf] at hin hout hkept hctxs' hras hbringUp' ⊢
  have hstands : (f.each r.ctxs (fun d c => d.screeClear m c)).standing = f.standing := standing_each f fun _ _ => standing_screeClear ..
  obtain ⟨g, hg⟩ : ∃ g, g = f.each r.ctxs (fun d c => d.screeClear m c) := ⟨_, rfl⟩
  rw [← hg] at hstands ⊢
  have hground := ground_of_standing hstands
  obtain ⟨-, -, hresets', -, -, -, -, hbringUp'', -⟩ := ground_fields hground
  have htile' := tile_of_standing hstands
  refine ⟨by rw [hresets', hras, hresets], fun x => ?_, fun t ht => ⟨scratchZero_of_ground hground (hin t ht).1, by rw [htile']; exact (hin t ht).2⟩,
    fun t ht => by rw [htile', hout t ht, htile], fun t => by rw [htile', (hkept t).1, (hkept t).2, htile]; exact ⟨rfl, rfl⟩, by rw [hbringUp'', hbringUp', hbringUp]⟩
  rw [core_of_standing hstands, Dev.ctx, hctxs']
  exact congrArg Ctx.core (hctx x)

section
variable {d e : Dev} {r : ResetRun}

theorem Begun.covered (h : Begun r d e) : e.coveredTiles r = d.coveredTiles r := by
  have hmask : ∀ x, (e.ctx x).tileMask = (d.ctx x).tileMask := fun x => (seat_fields (seat_of_core (h.ctx x))).2.2
  unfold Dev.coveredTiles Dev.tilesOf
  simp only [hmask]

theorem mem_clears {t : Nat} : t ∈ d.clears r ↔ t ∈ d.coveredTiles r ∧ (d.tile t).state ≠ .retired ∧ d.lost (dieOf t) = false := by
  unfold Dev.clears
  simp only [List.mem_filter, Bool.and_eq_true, bne_iff_ne, Bool.not_eq_true']

/-- A tile still clears: the reset does not end. -/
theorem Begun.busy (h : Begun r d e) {t : Nat} (ht : t ∈ d.clears r) : (e.coveredTiles r).any e.tileBusy = true :=
  List.any_eq_true.mpr ⟨t, h.covered ▸ (mem_clears.mp ht).1, by rw [Dev.tileBusy, (h.cleared t ht).2, Bool.or_true]⟩

theorem Begun.endResets (h : Begun r d e) {t : Nat} (ht : t ∈ d.clears r) (m : Mem) : e.endResets m = e := by
  have hbusy : (e.coveredTiles r).all (fun t => !e.tileBusy t) = false := by
    rw [← Bool.not_eq_true, List.all_eq_true]
    intro hall
    obtain ⟨t', ht', hb⟩ := List.any_eq_true.mp (h.busy ht)
    have := hall t' ht'
    rw [hb] at this
    exact absurd this (by decide)
  unfold Dev.endResets
  rw [h.resets, List.filter_cons_of_neg (by rw [hbusy, Bool.and_false]; decide)]
  rfl

/-- A full recovery waits for its clears. -/
theorem Begun.recoveryGoes (h : Begun r d e) {t : Nat} (ht : t ∈ d.clears r) (hscope : r.scope = 3) (m : Mem) : e.recoveryGoes m = e := by
  have hfind : e.ras.resets.find? (fun r => r.scope == 3) = some r := by
    rw [h.resets]
    exact List.find?_cons_of_pos (by rw [hscope]; decide)
  unfold Dev.recoveryGoes
  rw [hfind]
  dsimp only
  rw [if_pos (by rw [h.busy ht, Bool.or_true])]

end

/-! Tiles. -/

/-- The tiles `ts` have been reset on the way from `d` to `e`, and clear in `f`. -/
theorem tilesReset_of {s : State} {d e : Dev} {r : ResetRun} {ts : List Nat} (h : Begun r d e) (hcovered : ∀ t ∈ ts, t ∈ d.coveredTiles r)
    (hreset : ∀ t ∈ ts, (s.dev.tile t).state ≠ .retired → (d.tile t).stopped = true ∧ (d.tile t).state = (s.dev.tile t).state)
    (hlost : ∀ i, d.lost i = s.dev.lost i) : TilesReset s (s.commit e) ts := by
  refine ⟨fun t ht hlive => ?_, fun t ht hlive hhere => ?_⟩
  · obtain ⟨hstopped, hstate⟩ := hreset t ht hlive
    exact ⟨(h.kept t).2.trans hstopped, (h.kept t).1.trans hstate⟩
  · obtain ⟨-, hstate⟩ := hreset t ht hlive
    obtain ⟨hzero, hclearing⟩ := h.cleared t (mem_clears.mpr ⟨hcovered t ht, by rw [hstate]; exact hlive, by rw [hlost]; exact hhere⟩)
    exact ⟨hclearing, fun a ha => by rw [State.read_commit]; exact peek_scratchZero hzero ha s.mem⟩

theorem resetTo_reads (x : Tile) : x.resetTo.stopped = true ∧ x.resetTo.state = x.state := ⟨rfl, rfl⟩

/-! A context's reset. -/

/-- The reset of context `c` that begins on `d`. -/
def Dev.contextRun (d : Dev) (c : Nat) : ResetRun := { scope := 1, ctxs := [c], t0 := d.lode.count, sampling := false, outcome := none }

theorem contextRun_covered (d e : Dev) (c : Nat) : e.coveredTiles (d.contextRun c) = e.tilesOf c := by
  show [c].flatMap e.tilesOf = e.tilesOf c
  rw [List.flatMap_cons, List.flatMap_nil, List.append_nil]

theorem begun_contextReset {d : Dev} {c : Nat} (m : Mem) (hnone : d.ras.resets = []) (hsample : d.rb Reg.rasSampleCtrl 31 = false)
    {t : Nat} (ht : t ∈ d.tilesOf c) (hlive : (d.tile t).state ≠ .retired) (hhere : d.lost (dieOf t) = false) :
    Begun (d.contextRun c) (d.resetCtx m c) (d.contextReset m c) := by
  have hretains := retains_resetCtx d m c
  obtain ⟨hresets, -, -, -, hlode, -, -, -, -, hreg⟩ := bearing_fields hretains.bearing
  have hresetting : d.resetting c = false := by rw [Dev.resetting, hnone]; rfl
  have hmask : (d.resetCtx m c).tilesOf c = d.tilesOf c := by rw [Dev.tilesOf, hretains.mask]; rfl
  have hlost := lost_of_bearing hretains.bearing
  have hsample' : (d.resetCtx m c).rb Reg.rasSampleCtrl 31 = false := (rb_of_reg d hreg 31).trans hsample
  have hlive' := hretains.tile t
  obtain ⟨e, he⟩ : ∃ e, e = d.resetCtx m c := ⟨_, rfl⟩
  unfold Dev.contextReset
  rw [hresetting, if_neg (by decide)]
  dsimp only
  rw [← he] at hresets hlode hmask hlost hsample' hlive' ⊢
  rw [hsample', Bool.false_and, hlode]
  have hbegun : Begun (d.contextRun c) e (e.resetGoes m (d.contextRun c) false) := resetGoes_begun (hresets.trans hnone) m rfl
  have hclears : t ∈ e.clears (d.contextRun c) := mem_clears.mpr ⟨by rw [contextRun_covered, hmask]; exact ht, by rw [hlive']; exact hlive, by rw [hlost]; exact hhere⟩
  have hends := hbegun.endResets hclears m
  rw [Dev.contextRun] at hbegun hends
  rw [hends]
  exact hbegun

theorem contextReset_resets (s : State) (r : Requester) (c : Fin 64) (hheard : Heard s r Reg.rasResetCtrl (BitVec.ofNat 32 (2 ^ 30 + c.val)))
    (hmay : s.dev.ctx0OrAdmin r = true) (hne : c ≠ 0) (hbound : s.dev.bound c = true) (hnone : s.dev.ras.resets = [])
    (hsome : SomeTile s (s.dev.tilesOf c)) (hsample : s.dev.rb Reg.rasSampleCtrl 31 = false) :
    Ends (.contextReset r c) s (fun u => u.dev.ras.resets = [{ scope := 1, ctxs := [c.val], t0 := s.dev.lode.count, sampling := false, outcome := none }] ∧
      (u.dev.ctx c).gen = (s.dev.ctx c).gen + 1 ∧ (∀ x : Nat, x ≠ c.val → (u.dev.ctx x).gen = (s.dev.ctx x).gen) ∧ TilesReset s u (s.dev.tilesOf c) ∧
      (∀ t, ¬ t ∈ s.dev.tilesOf c → u.dev.tile t = s.dev.tile t)) := by
  obtain ⟨t, ht, hlive, hhere⟩ := hsome
  obtain ⟨d, hd⟩ : ∃ d, d = s.begin.putReg Reg.rasResetCtrl (BitVec.ofNat 32 (2 ^ 30 + c.val)) := ⟨_, rfl⟩
  have hbase : d.ras = s.dev.ras ∧ d.lode = s.dev.lode ∧ d.tilesOf c = s.dev.tilesOf c ∧ (∀ x, d.ctx x = s.dev.ctx x) ∧ (∀ x, d.tile x = s.dev.tile x) ∧
      (∀ i, d.lost i = s.dev.lost i) := by
    rw [hd]
    exact ⟨rfl, rfl, rfl, fun _ => rfl, fun _ => rfl, fun _ => rfl⟩
  obtain ⟨hras, hlode, htiles, hctx, htile, hlost⟩ := hbase
  have hsample' : d.rb Reg.rasSampleCtrl 31 = false := by
    rw [hd]
    exact (rb_of_reg s.begin ((Dev.reg_setReg s.begin _ _ _).trans (if_neg (by decide))) 31).trans hsample
  have hbound' : d.bound c = true := by rw [Dev.bound, hctx]; exact hbound
  have hne' : (c.val != 0) = true := bne_iff_ne.mpr fun h => hne (Fin.ext h)
  have heffect : d.resetCommand s.mem 1 c = d.contextReset s.mem c := if_pos (by rw [hbound', hne']; decide)
  have hbegun := begun_contextReset s.mem (d := d) (c := c) (t := t) (by rw [hras]; exact hnone) hsample' (by rw [htiles]; exact ht) (by rw [htile]; exact hlive)
    (by rw [hlost]; exact hhere)
  have hretains := retains_resetCtx d s.mem c
  have hreset := tile_resetCtx d s.mem c
  have hlost' := lost_of_bearing hretains.bearing
  obtain ⟨f, hf⟩ : ∃ f, f = d.resetCtx s.mem c := ⟨_, rfl⟩
  rw [← hf] at hbegun hretains hreset hlost'
  obtain ⟨e, he⟩ : ∃ e, e = d.contextReset s.mem c := ⟨_, rfl⟩
  rw [← he] at heffect hbegun
  have hgen : ∀ x, (e.ctx x).gen = if x = c.val then (s.dev.ctx x).gen + 1 else (s.dev.ctx x).gen := fun x => by
    rw [(core_fields (hbegun.ctx x)).2.1, hretains.gen, hctx]
    exact if_congr List.mem_singleton rfl rfl
  have hcovered : f.coveredTiles (d.contextRun c) = s.dev.tilesOf c := by
    rw [contextRun_covered, Dev.tilesOf, hretains.mask, ← htiles]
    rfl
  refine ends_of_heard (i := .contextReset r c) (perm := fun d => d.ctx0OrAdmin r)
    (x := fun m d => ((d.putReg Reg.rasResetCtrl (BitVec.ofNat 32 (2 ^ 30 + c.val))).resetCommand m 1 c.val, stOK)) (d := e) (st := stOK) rfl hheard hmay
    (by rw [← hd, heffect]) ⟨?_, ?_, fun x hx => ?_, ?_, fun i hi => ?_⟩
  · have hrun : d.contextRun c = { scope := 1, ctxs := [c.val], t0 := s.dev.lode.count, sampling := false, outcome := none } := by rw [Dev.contextRun, hlode]
    exact hbegun.resets.trans (by rw [hrun])
  · exact (hgen c).trans (if_pos rfl)
  · exact (hgen x).trans (if_neg hx)
  · refine tilesReset_of (e := e.answer r stOK) (d := f) (r := d.contextRun c) ⟨hbegun.resets, hbegun.ctx, hbegun.cleared, hbegun.other, hbegun.kept, hbegun.bringUp⟩
      (fun i hi => by rw [hcovered]; exact hi) (fun i hi hi' => ?_) fun i => (hlost' i).trans (hlost i)
    rw [hreset, if_pos ⟨by rw [htiles]; exact hi, by rw [htile]; exact hi'⟩, htile]
    exact resetTo_reads _
  · refine (hbegun.other i fun h => hi (hcovered ▸ (mem_clears.mp h).1)).trans ((hreset i).trans ?_)
    rw [if_neg (by rw [htiles]; exact fun h => hi h.1), htile]

/-! A compute reset, and steps 1 to 4 of a full recovery. -/

/-- The resets under way are taken over: no copy of theirs goes on. -/
def Dev.resetsDropped (d : Dev) : Dev :=
  { d with ras := { d.ras with resets := [], samples := d.ras.samples.map (fun (s : Nat × Sample) => if s.2.copying then (s.1, ({} : Sample)) else s) } }

theorem resetsDropped_leaves (d : Dev) : d.resetsDropped.ras.resets = [] ∧ d.resetsDropped.ctxs = d.ctxs ∧ d.resetsDropped.tiles = d.tiles ∧
    d.resetsDropped.lode = d.lode ∧ d.resetsDropped.bringUp = d.bringUp ∧ d.resetsDropped.regs = d.regs ∧ ∀ i, d.resetsDropped.lost i = d.lost i :=
  ⟨rfl, rfl, rfl, rfl, rfl, rfl, fun _ => rfl⟩

/-- The reset of every context that begins on `d`. -/
def Dev.computeRun (d : Dev) (scope : BitVec 2) (o : Option BringUpOutcome) : ResetRun :=
  { scope := scope, ctxs := d.liveCtxs, t0 := d.lode.count, sampling := false, outcome := o }

/-- Every live context and every tile reset, before the clears. -/
def Dev.allReset (d : Dev) (m : Mem) : Dev := (d.resetsDropped.each d.liveCtxs (fun d c => d.resetCtx m c)).resetTiles (List.range 64)

theorem liveCtxs_nodup (d : Dev) : d.liveCtxs.Nodup := List.nodup_range.filter _

theorem retains_allReset (d : Dev) (m : Mem) : Retains d.liveCtxs d.resetsDropped (d.allReset m) :=
  (retains_resetCtxs m (liveCtxs_nodup d) d.resetsDropped).next (retains_resetTiles _ _)

/-- The tiles are all stopped, in the states they had. -/
theorem allReset_stops (d : Dev) (m : Mem) {t : Nat} (ht : t < 64) (hlive : (d.tile t).state ≠ .retired) :
    ((d.allReset m).tile t).stopped = true ∧ ((d.allReset m).tile t).state = (d.tile t).state := by
  have hretains := retains_resetCtxs m (liveCtxs_nodup d) d.resetsDropped
  obtain ⟨e, he⟩ : ∃ e, e = d.resetsDropped.each d.liveCtxs (fun d c => d.resetCtx m c) := ⟨_, rfl⟩
  rw [← he] at hretains
  have hstate : (e.tile t).state = (d.tile t).state := hretains.tile t
  rw [Dev.allReset, ← he, tile_resetTiles e List.nodup_range, if_pos ⟨List.mem_range.mpr ht, by rw [hstate]; exact hlive⟩, ← hstate]
  exact resetTo_reads _

theorem begun_computeReset {d : Dev} (m : Mem) {scope : BitVec 2} (o : Option BringUpOutcome) (hsample : d.rb Reg.rasSampleCtrl 31 = false) :
    Begun (d.computeRun scope o) (d.allReset m) (d.computeReset m scope o) := by
  have hretains := retains_allReset d m
  obtain ⟨hnone, hctxs, -, hlode, -, hregs, -⟩ := resetsDropped_leaves d
  obtain ⟨hresets, -, -, -, hlode', -, -, -, -, hreg⟩ := bearing_fields hretains.bearing
  have hlive : (d.allReset m).liveCtxs = d.liveCtxs := by
    have hstate : ∀ x, ((d.allReset m).ctx x).state = (d.ctx x).state := fun x => (hretains.state x).trans (by rw [Dev.ctx, hctxs]; rfl)
    unfold Dev.liveCtxs
    simp only [hstate]
  have hsample' : (d.allReset m).rb Reg.rasSampleCtrl 31 = false := (rb_of_reg d (hreg.trans (by rw [Dev.reg, hregs]; rfl)) 31).trans hsample
  have hgoes : d.computeReset m scope o = (d.allReset m).resetGoes m
      { scope := scope, ctxs := (d.allReset m).liveCtxs, t0 := (d.allReset m).lode.count, sampling := false, outcome := o } ((d.allReset m).rb Reg.rasSampleCtrl 31) := rfl
  rw [hgoes, hsample', hlive, hlode', hlode]
  exact resetGoes_begun (hresets.trans hnone) m rfl

theorem computeRun_covered (d e : Dev) {scope : BitVec 2} (hscope : scope ≠ 1) (o : Option BringUpOutcome) :
    e.coveredTiles (d.computeRun scope o) = List.range 64 := if_neg (by
  show ¬ (scope == 1) = true
  rw [beq_iff_eq]
  exact hscope)

end Sys2Proof.Machine
end

section
/-! A compute reset and a full recovery begin (R374, R376, Tables 12.11 and 12.12). -/

namespace Sys2Proof.Machine

open Sys2Proof.Claims (Ends Quiet Heard TilesReset SomeTile)

/-- `d` is the device of `s` but for a register of RAS_RESET_CTRL. -/
structure ResetAsked (s : State) (d : Dev) : Prop where
  ras : d.ras = s.dev.ras
  lode : d.lode = s.dev.lode
  ctxs : d.ctxs = s.dev.ctxs
  tiles : d.tiles = s.dev.tiles
  bringUp : d.bringUp = s.dev.bringUp
  pwr : d.pwr = s.dev.pwr
  lost : ∀ i, d.lost i = s.dev.lost i
  sample : d.rb Reg.rasSampleCtrl 31 = s.dev.rb Reg.rasSampleCtrl 31

theorem resetAsked_begin (s : State) : ResetAsked s s.begin := ⟨rfl, rfl, rfl, rfl, rfl, rfl, fun _ => rfl, rfl⟩

theorem resetAsked_putReg (s : State) (v : BitVec 32) : ResetAsked s (s.begin.putReg Reg.rasResetCtrl v) :=
  ⟨rfl, rfl, rfl, rfl, rfl, rfl, fun _ => rfl, rb_of_reg s.begin ((Dev.reg_setReg s.begin _ _ _).trans (if_neg (by decide))) 31⟩

theorem Begun.stands {r : ResetRun} {d e f : Dev} (h : Begun r d e) (hf : f.standing = e.standing) : Begun r d f := by
  have hground := ground_of_standing hf
  obtain ⟨-, -, hresets, -, -, -, -, hbringUp, -⟩ := ground_fields hground
  have htile := tile_of_standing hf
  exact ⟨hresets.trans h.resets, fun x => (core_of_standing hf x).trans (h.ctx x),
    fun t ht => ⟨scratchZero_of_ground hground (h.cleared t ht).1, by rw [htile]; exact (h.cleared t ht).2⟩, fun t ht => (htile t).trans (h.other t ht),
    fun t => by rw [htile]; exact h.kept t, hbringUp.trans h.bringUp⟩

section
variable {s : State} {d e : Dev} {scope : BitVec 2} {o : Option BringUpOutcome}

/-- What a reset of every context has done once its clears have begun. -/
structure AllReset (s u : State) (scope : BitVec 2) (o : Option BringUpOutcome) : Prop where
  resets : u.dev.ras.resets = [{ scope := scope, ctxs := s.dev.liveCtxs, t0 := s.dev.lode.count, sampling := false, outcome := o }]
  gen : ∀ c, c ∈ s.dev.liveCtxs → (u.dev.ctx c).gen = (s.dev.ctx c).gen + 1
  bringUp : u.dev.bringUp = s.dev.bringUp
  tiles : TilesReset s u (List.range 64)

theorem ResetAsked.liveCtxs (h : ResetAsked s d) : d.liveCtxs = s.dev.liveCtxs := by
  have hctx : ∀ x, d.ctx x = s.dev.ctx x := fun x => by rw [Dev.ctx, h.ctxs]; rfl
  unfold Dev.liveCtxs
  simp only [hctx]

theorem ResetAsked.tile (h : ResetAsked s d) (t : Nat) : d.tile t = s.dev.tile t := by rw [Dev.tile, h.tiles]; rfl

/-- The tiles' reach after every context was reset. -/
theorem allReset_lost (d : Dev) (m : Mem) (i : Nat) : (d.allReset m).lost i = d.lost i := lost_of_bearing (retains_allReset d m).bearing i

theorem allReset_bringUp (d : Dev) (m : Mem) : (d.allReset m).bringUp = d.bringUp := by
  obtain ⟨-, -, -, -, -, hbringUp, -⟩ := bearing_fields (retains_allReset d m).bearing
  exact hbringUp

theorem allReset_of_begun (h : ResetAsked s d) (hscope : scope ≠ 1) (hbegun : Begun (d.computeRun scope o) (d.allReset s.mem) e) :
    AllReset s (s.commit e) scope o := by
  have hretains := retains_allReset d s.mem
  have hctx : ∀ x, d.resetsDropped.ctx x = s.dev.ctx x := fun x => by rw [Dev.ctx, (resetsDropped_leaves d).2.1, h.ctxs]; rfl
  have hrun : d.computeRun scope o = { scope := scope, ctxs := s.dev.liveCtxs, t0 := s.dev.lode.count, sampling := false, outcome := o } := by
    rw [Dev.computeRun, h.liveCtxs, h.lode]
  refine ⟨hbegun.resets.trans (by rw [hrun]), fun c hc => ?_, hbegun.bringUp.trans ((allReset_bringUp d s.mem).trans h.bringUp), tilesReset_of hbegun ?_ ?_ ?_⟩
  · refine (core_fields (hbegun.ctx c)).2.1.trans ?_
    rw [hretains.gen, if_pos (by rw [h.liveCtxs]; exact hc), hctx]
  · rw [computeRun_covered _ _ hscope]
    exact fun _ ht => ht
  · intro t ht hlive
    rw [← h.tile] at hlive ⊢
    exact allReset_stops d s.mem (List.mem_range.mp ht) hlive
  · exact fun i => (allReset_lost d s.mem i).trans (h.lost i)

/-- Some tile clears. -/
theorem someTile_clears (h : ResetAsked s d) (hscope : scope ≠ 1) (hsome : SomeTile s (List.range 64)) :
    ∃ t, t ∈ (d.allReset s.mem).clears (d.computeRun scope o) := by
  obtain ⟨t, ht, hlive, hhere⟩ := hsome
  refine ⟨t, mem_clears.mpr ⟨by rw [computeRun_covered _ _ hscope]; exact ht, ?_, by rw [allReset_lost, h.lost]; exact hhere⟩⟩
  rw [← h.tile] at hlive
  rw [(allReset_stops d s.mem (List.mem_range.mp ht) hlive).2]
  exact hlive

theorem allReset_computeRequest (h : ResetAsked s d) (hidle : s.dev.ras.resets.any (fun x => x.scope != 1) = false) (hsome : SomeTile s (List.range 64))
    (hsample : s.dev.rb Reg.rasSampleCtrl 31 = false) : AllReset s (s.commit (d.computeRequest s.mem)) 2 none := by
  have hbegun := begun_computeReset s.mem (scope := 2) none (h.sample.trans hsample)
  obtain ⟨t, ht⟩ := someTile_clears (scope := 2) (o := none) h (by decide) hsome
  have hends := hbegun.endResets ht s.mem
  have heffect : d.computeRequest s.mem = d.computeReset s.mem 2 none := by
    unfold Dev.computeRequest
    rw [h.ras, hidle, if_neg (by decide), hends]
  rw [heffect]
  exact allReset_of_begun h (by decide) hbegun

theorem standing_cairnsResetAll (d : Dev) : d.cairnsResetAll.standing = d.standing := standing_each _ fun d p => by
  split
  · exact standing_cairnCancel ..
  · rfl

theorem allReset_recoverRequest {o : BringUpOutcome} (h : ResetAsked s d) (hup : s.dev.lost 4 = false) (hdone : s.dev.bringUp = .done)
    (hpower : s.dev.pwr.state ≠ .tripped) (hnone : s.dev.ras.resets = []) (hsome : SomeTile s (List.range 64)) (hsample : s.dev.rb Reg.rasSampleCtrl 31 = false) :
    AllReset s (s.commit (d.recoverRequest s.mem o)) 3 (some o) := by
  have hbegun := (begun_computeReset s.mem (scope := 3) (some o) (h.sample.trans hsample)).stands (standing_cairnsResetAll _)
  obtain ⟨t, ht⟩ := someTile_clears (scope := 3) (o := some o) h (by decide) hsome
  have hgoes := hbegun.recoveryGoes ht rfl s.mem
  have heffect : d.recoverRequest s.mem o = (d.computeReset s.mem 3 (some o)).cairnsResetAll := by
    have hpower' : (s.dev.pwr.state == .tripped) = false := beq_false_of_ne hpower
    unfold Dev.recoverRequest
    rw [h.lost, hup, h.bringUp, hdone, h.pwr, hpower', h.ras, hnone, if_neg (by decide), hgoes]
  rw [heffect]
  exact allReset_of_begun h (by decide) hbegun

end

theorem AllReset.answered {s : State} {d : Dev} {scope : BitVec 2} {o : Option BringUpOutcome} (h : AllReset s (s.commit d) scope o) (r : Requester) :
    AllReset s (s.commit (d.answer r stOK)) scope o := ⟨h.resets, h.gen, h.bringUp, h.tiles⟩

theorem computeReset_resets (s : State) (r : Requester) (hheard : Heard s r Reg.rasResetCtrl (s.dev.regWith Reg.rasResetCtrl 31 30 2))
    (hmay : s.dev.ctx0OrAdmin r = true) (hidle : s.dev.ras.resets.any (fun x => x.scope != 1) = false) (hsome : SomeTile s (List.range 64))
    (hsample : s.dev.rb Reg.rasSampleCtrl 31 = false) :
    Ends (.computeReset r) s (fun u => (∃ x, u.dev.ras.resets = [x] ∧ x.scope = 2 ∧ x.ctxs = s.dev.liveCtxs ∧ x.t0 = s.dev.lode.count) ∧
      (∀ c, c ∈ s.dev.liveCtxs → (u.dev.ctx c).gen = (s.dev.ctx c).gen + 1) ∧ TilesReset s u (List.range 64)) := by
  obtain ⟨d, hd⟩ : ∃ d, d = s.begin.putReg Reg.rasResetCtrl (s.begin.regWith Reg.rasResetCtrl 31 30 2) := ⟨_, rfl⟩
  have hasked : ResetAsked s d := hd ▸ resetAsked_putReg s _
  have hall := allReset_computeRequest hasked hidle hsome hsample
  obtain ⟨e, he⟩ : ∃ e, e = d.computeRequest s.mem := ⟨_, rfl⟩
  rw [← he] at hall
  have heffect : d.resetCommand s.mem 2 0 = e := he.symm
  obtain ⟨hresets, hgen, -, htiles⟩ := hall.answered r
  exact ends_of_heard (i := .computeReset r) (perm := fun d => d.ctx0OrAdmin r)
    (x := fun m d => ((d.putReg Reg.rasResetCtrl (d.regWith Reg.rasResetCtrl 31 30 2)).resetCommand m 2 0, stOK)) (d := e) (st := stOK) rfl hheard hmay
    (by rw [← hd, heffect]) ⟨⟨_, hresets, rfl, rfl, rfl⟩, hgen, htiles⟩

theorem fullRecovery_resets (s : State) (r : Requester) (o : BringUpOutcome) (hheard : Heard s r Reg.rasResetCtrl (s.dev.regWith Reg.rasResetCtrl 31 30 3))
    (hmay : s.dev.ctx0OrAdmin r = true) (hup : s.dev.lost 4 = false) (hdone : s.dev.bringUp = .done) (hpower : s.dev.pwr.state ≠ .tripped)
    (hnone : s.dev.ras.resets = []) (hsome : SomeTile s (List.range 64)) (hsample : s.dev.rb Reg.rasSampleCtrl 31 = false) :
    Ends (.fullRecovery r o) s (fun u => (∃ x, u.dev.ras.resets = [x] ∧ x.scope = 3 ∧ x.outcome = some o ∧ x.t0 = s.dev.lode.count) ∧
      (∀ c, c ∈ s.dev.liveCtxs → (u.dev.ctx c).gen = (s.dev.ctx c).gen + 1) ∧ u.dev.bringUp = .done ∧ TilesReset s u (List.range 64)) := by
  obtain ⟨d, hd⟩ : ∃ d, d = s.begin.putReg Reg.rasResetCtrl (s.begin.regWith Reg.rasResetCtrl 31 30 3) := ⟨_, rfl⟩
  have hasked : ResetAsked s d := hd ▸ resetAsked_putReg s _
  have hall := allReset_recoverRequest (o := o) hasked hup hdone hpower hnone hsome hsample
  obtain ⟨e, he⟩ : ∃ e, e = d.recoverRequest s.mem o := ⟨_, rfl⟩
  rw [← he] at hall
  obtain ⟨hresets, hgen, hbringUp, htiles⟩ := hall.answered r
  exact ends_of_heard (i := .fullRecovery r o) (perm := fun d => d.ctx0OrAdmin r)
    (x := fun m d => ((d.putReg Reg.rasResetCtrl (d.regWith Reg.rasResetCtrl 31 30 3)).recoverRequest m o, stOK)) (d := e) (st := stOK) rfl hheard hmay
    (by rw [← hd, ← he]) ⟨⟨_, hresets, rfl, rfl, rfl⟩, hgen, hbringUp.trans hdone, htiles⟩

theorem recoverNLow_resets (s : State) (o : BringUpOutcome) (hup : s.dev.lost 4 = false) (hdone : s.dev.bringUp = .done) (hpower : s.dev.pwr.state ≠ .tripped)
    (hnone : s.dev.ras.resets = []) (hsome : SomeTile s (List.range 64)) (hsample : s.dev.rb Reg.rasSampleCtrl 31 = false) :
    Ends (.recoverNLow o) s (fun u => (∃ x, u.dev.ras.resets = [x] ∧ x.scope = 3 ∧ x.outcome = some o ∧ x.t0 = s.dev.lode.count) ∧
      (∀ c, c ∈ s.dev.liveCtxs → (u.dev.ctx c).gen = (s.dev.ctx c).gen + 1) ∧ TilesReset s u (List.range 64)) := by
  have hall := allReset_recoverRequest (o := o) (resetAsked_begin s) hup hdone hpower hnone hsome hsample
  obtain ⟨e, he⟩ : ∃ e, e = s.begin.recoverRequest s.mem o := ⟨_, rfl⟩
  rw [← he] at hall
  exact ends_of_run (x := xRecoverNLow o) rfl he.symm ⟨⟨_, hall.resets, rfl, rfl, rfl⟩, hall.gen, hall.tiles⟩

/-- Settles O49 (that a recovery asked for too early is not performed is log entry 77's choice; that SAMPLE_COMPLETE ends every copy is log entry 85's, and what a
held slot keeps log entry 63's): a reset advances the generations it covers, stops their tiles and clears their scratchpads, and a sample that ends or is released touches its own slot. -/
theorem resetsClearAndSamplesAreTaken : Obligations.ResetsClearAndSamplesAreTaken :=
  ⟨contextReset_resets, contextReset_unbound, computeReset_resets, computeReset_running, fullRecovery_resets, recoverNLow_resets, recoverNLow_early,
    sampleCutoff_cuts, sampleComplete_ends, sampleRelease_frees, scratchpadClearComplete_ends, scratchpadClearComplete_none⟩

end Sys2Proof.Machine
end

section
/-! Flits of a Pequa port (R327, R328, Table 11.2). -/

namespace Sys2Proof.Machine

open Sys2Proof.Claims (Ends Quiet Heard)

/-! A flit received. -/

theorem fld_mod {v n hi lo : Nat} (h : hi < n) : fld (v % 2 ^ n) hi lo = fld v hi lo := by
  refine Nat.eq_of_testBit_eq fun i => ?_
  simp only [fld, Nat.testBit_mod_two_pow, Nat.testBit_shiftRight]
  by_cases hi' : i < hi + 1 - lo
  · simp [hi', show lo + i < n by omega]
  · simp [hi']

/-- What receiving packets leaves of a port: its sequence numbers and acknowledgements, and its state. -/
def HostPort.order (x : HostPort) : BitVec 12 × Bool × Bool × Bool × HostState := (x.rxSeq, x.ackDue, x.nakDue, x.nakSent, x.state)

/-- From `d` to `e` port `p` has kept its order, and nothing but that port has moved. -/
structure Receives (p : Nat) (d e : Dev) : Prop where
  order : (e.host p).order = (d.host p).order
  other : ∀ q, q ≠ p → e.host q = d.host q
  leaves : e.stores = d.stores ∧ e.wipes = d.wipes ∧ e.regs = d.regs ∧ e.counters = d.counters

section
variable {p : Nat} {d e f : Dev}

theorem Receives.refl (p : Nat) (d : Dev) : Receives p d d := ⟨rfl, fun _ _ => rfl, rfl, rfl, rfl, rfl⟩

theorem Receives.trans (h : Receives p d e) (h' : Receives p e f) : Receives p d f := by
  obtain ⟨hstores, hwipes, hregs, hcounters⟩ := h.leaves
  obtain ⟨hstores', hwipes', hregs', hcounters'⟩ := h'.leaves
  exact ⟨h'.order.trans h.order, fun q hq => (h'.other q hq).trans (h.other q hq), hstores'.trans hstores, hwipes'.trans hwipes, hregs'.trans hregs,
    hcounters'.trans hcounters⟩

theorem receives_setHost {x : HostPort} (h : x.order = (d.host p).order) : Receives p d (d.setHost p x) :=
  ⟨by rw [host_setHost_same, h], fun q hq => (Dev.host_setHost d p q x).trans (if_neg (Ne.symm hq)), rfl, rfl, rfl, rfl⟩

theorem receives_sendHost (k : HPacket) : Receives p d (d.sendHost p k) := by
  unfold Dev.sendHost
  split
  · exact receives_setHost rfl
  · exact Receives.refl p d

theorem receives_hostArrive (k : HPacket) : Receives p d (d.hostArrive p k) := by
  unfold Dev.hostArrive
  split
  · exact receives_setHost rfl
  · have hunits : Receives p d (d.returnUnits p k) := receives_setHost rfl
    dsimp only
    split
    · exact hunits.trans (receives_sendHost _)
    · exact hunits

theorem order_acknowledge (x : HostPort) (n : Nat) : (x.acknowledge n).order = x.order := rfl

theorem order_credit (x : HostPort) (c n : Nat) : (x.credit c n).order = x.order := by
  unfold HostPort.credit
  split <;> rfl

/-- A header without NAK. -/
theorem receives_hostHeader {n : Nat} (hnak : n.testBit 118 = false) : Receives p d (d.hostHeader p n) := by
  unfold Dev.hostHeader
  extract_lets x y seq k e
  rw [if_neg (by rw [hnak]; decide)]
  exact receives_setHost (by rw [order_credit, order_credit, order_credit, order_acknowledge])

end

theorem pequaFlitReceive_accepts (s : State) (p : Fin 4) (f : FlitIn) (hactive : (s.dev.host p).state = .active) (hcrc : f.crcOk = true)
    (hdata : fb f.bits 75 74 = 0) (hnull : f.bits.getLsbD 119 = false) (hnak : f.bits.getLsbD 118 = false)
    (hseq : fb f.bits 143 132 = ((s.dev.host p).rxSeq + 1).toNat) :
    Ends (.pequaFlitReceive p f) s (fun u => (u.dev.host p).rxSeq = (s.dev.host p).rxSeq + 1 ∧ (u.dev.host p).ackDue = true ∧ (u.dev.host p).nakDue = false ∧
      (u.dev.host p).nakSent = false ∧ (u.dev.host p).state = .active ∧ (∀ q : Nat, q ≠ p.val → u.dev.host q = s.dev.host q) ∧ u.mem = s.mem ∧
      u.dev.regs = s.dev.regs ∧ u.dev.counters = s.dev.counters) := by
  obtain ⟨n, hn⟩ : ∃ n, n = f.bits.toNat % 2 ^ 1936 := ⟨_, rfl⟩
  have hkind : fld n 75 74 = 0 := by rw [hn, fld_mod (by decide)]; exact hdata
  have hseq' : fld n 143 132 = ((s.begin.host p).rxSeq + 1).toNat := by rw [hn, fld_mod (by decide)]; exact hseq
  have hnull' : n.testBit 119 = false := by rw [hn, Nat.testBit_mod_two_pow, show f.bits.toNat.testBit 119 = false from hnull, Bool.and_false]
  have hnak' : n.testBit 118 = false := by rw [hn, Nat.testBit_mod_two_pow, show f.bits.toNat.testBit 118 = false from hnak, Bool.and_false]
  have hactive' : (s.begin.host p).state = .active := hactive
  obtain ⟨ps, rest, heffect⟩ : ∃ ps rest, xPequaFlitReceive p f s.mem s.begin =
      ((s.begin.setHost p { s.begin.host p with rxSeq := (s.begin.host p).rxSeq + 1, nakDue := false, nakSent := false, ackDue := true, rxUnits := rest }).each
        ps (fun d k => d.hostArrive p k)).hostHeader p n := by
    unfold xPequaFlitReceive Dev.takeHostFlit
    dsimp only
    rw [← hn, hcrc, hkind, hnull', hactive', hseq', if_neg (by decide), if_neg (by decide), if_neg (by decide), if_neg (by simp)]
    exact ⟨_, _, rfl⟩
  obtain ⟨x, hx⟩ : ∃ x, x = { s.begin.host p with rxSeq := (s.begin.host p).rxSeq + 1, nakDue := false, nakSent := false, ackDue := true, rxUnits := rest } := ⟨_, rfl⟩
  have horder : x.order = ((s.dev.host p).rxSeq + 1, true, false, false, .active) := by
    rw [hx]
    exact congrArg (fun st => ((s.dev.host p).rxSeq + 1, true, false, false, st)) hactive
  have hfirst : (s.begin.setHost p x).stores = [] ∧ (s.begin.setHost p x).wipes = [] ∧ (s.begin.setHost p x).regs = s.dev.regs ∧
      (s.begin.setHost p x).counters = s.dev.counters := ⟨rfl, rfl, rfl, rfl⟩
  have hother : ∀ q : Nat, q ≠ p.val → (s.begin.setHost p x).host q = s.dev.host q := fun q hq => (Dev.host_setHost s.begin p q x).trans (if_neg (Ne.symm hq))
  have hhere : (s.begin.setHost p x).host p = x := host_setHost_same ..
  rw [← hx] at heffect
  obtain ⟨d, hd⟩ : ∃ d, d = s.begin.setHost p x := ⟨_, rfl⟩
  rw [← hd] at heffect hfirst hother hhere
  have harrive : Receives p d (d.each ps (fun d k => d.hostArrive p k)) :=
    Dev.each_invariant (P := Receives p d) (fun e k _ he => he.trans (receives_hostArrive k)) (Receives.refl p d)
  have hall := harrive.trans (receives_hostHeader hnak')
  obtain ⟨e, he⟩ : ∃ e, e = (d.each ps (fun d k => d.hostArrive p k)).hostHeader p n := ⟨_, rfl⟩
  rw [← he] at heffect hall
  have horder' : (e.host p).order = ((s.dev.host p).rxSeq + 1, true, false, false, .active) := hall.order.trans (by rw [hhere, horder])
  obtain ⟨hstores, hwipes, hregs, hcounters⟩ := hfirst
  obtain ⟨hstores', hwipes', hregs', hcounters'⟩ := hall.leaves
  exact ends_of_run (x := xPequaFlitReceive p f) rfl heffect ⟨congrArg (·.1) horder', congrArg (·.2.1) horder', congrArg (·.2.2.1) horder',
    congrArg (·.2.2.2.1) horder', congrArg (·.2.2.2.2) horder', fun q hq => (hall.other q hq).trans (hother q hq),
    s.commit_mem _ (hstores'.trans hstores) (hwipes'.trans hwipes), hregs'.trans hregs, hcounters'.trans hcounters⟩

theorem pequaFlitReceive_discards (s : State) (p : Fin 4) (f : FlitIn) (hactive : (s.dev.host p).state = .active) (hcrc : f.crcOk = false) :
    Quiet (.pequaFlitReceive p f) s (if (s.dev.host p).nakSent then s.begin else s.begin.setHost p { s.dev.host p with nakDue := true }) := by
  have hactive' : (s.begin.host p).state = .active := hactive
  have heffect : xPequaFlitReceive p f s.mem s.begin = if (s.dev.host p).nakSent then s.begin else s.begin.setHost p { s.dev.host p with nakDue := true } := by
    unfold xPequaFlitReceive Dev.takeHostFlit
    dsimp only
    rw [hcrc, hactive', if_neg (by decide), Bool.false_and, Bool.false_and, if_neg (by decide), if_neg (by decide), if_pos (by rfl)]
    rfl
  refine quiet_of_run (x := xPequaFlitReceive p f) rfl heffect ?_ ?_
  · split <;> rfl
  · split <;> rfl

/-! A flit sent. -/

theorem takeHeader_order (x : HostPort) : x.takeHeader.2.state = x.state ∧ x.takeHeader.2.tx = x.tx ∧ x.takeHeader.2.txSeq = x.txSeq ∧
    x.takeHeader.2.unacked = x.unacked ∧ x.takeHeader.2.credits = x.credits := ⟨rfl, rfl, rfl, rfl, rfl⟩

/-- Where no credit is owed the header is FACK and NAK alone. -/
theorem takeHeader_bare {x : HostPort} (howed : x.owed = []) : ∃ a, a < 2 ∧ x.takeHeader.1 = x.rxSeq.toNat * 2 ^ 120 + a * 2 ^ 118 := by
  unfold HostPort.takeHeader
  rw [howed]
  dsimp only [List.filter_nil, List.take_nil, List.zipIdx_nil, List.foldl_nil]
  cases x.nakDue && !x.nakSent
  · exact ⟨0, by decide, by simp⟩
  · exact ⟨1, by decide, by simp⟩

/-- The bits of a flit below its check are those it was built from. -/
theorem emitted_bits (d : Dev) (p f : Nat) : ∃ b : BitVec 2048, (d.emitFlit p f).out = d.out ++ [.flit p b] ∧ ∀ hi lo, hi < 1936 → fb b hi lo = fld f hi lo := by
  refine ⟨_, rfl, fun hi lo hlt => ?_⟩
  have hcheck : ∀ (b : BitVec 1936) (c : BitVec 112), (BitVec.ofNat 2048 (b.toNat + c.toNat * 2 ^ 1936)).toNat % 2 ^ 1936 = b.toNat := fun b c => by
    rw [BitVec.toNat_ofNat, Nat.mod_mod_of_dvd _ (Nat.pow_dvd_pow 2 (by decide)), Nat.add_mul_mod_self_right, Nat.mod_eq_of_lt b.isLt]
  rw [fb, ← fld_mod hlt, hcheck, BitVec.toNat_ofNat, fld_mod hlt]

theorem pequaFlitSend_param (s : State) (p : Fin 4) (hparam : (s.dev.host p).state = .param) (howed : (s.dev.host p).owed = []) :
    Ends (.pequaFlitSend p) s (fun u => (∃ b : BitVec 2048, u.dev.out = [.flit p.val b] ∧ fb b 75 74 = 2 ∧ fb b 151 144 = 1 ∧ fb b 159 152 = p.val) ∧
      (u.dev.host p).state = .param ∧ u.mem = s.mem ∧ u.dev.regs = s.dev.regs ∧ u.dev.counters = s.dev.counters) := by
  obtain ⟨a, ha, hheader⟩ := takeHeader_bare (x := s.begin.host p) howed
  obtain ⟨rest, hmsg⟩ : ∃ rest, s.begin.hostParam p = 1 :: BitVec.ofNat 8 p :: rest := ⟨_, rfl⟩
  obtain ⟨n, hn⟩ : ∃ n, n = (s.begin.host p).takeHeader.1 + 2 * 2 ^ 74 + leOf (s.begin.hostParam p) * 2 ^ 144 := ⟨_, rfl⟩
  have hword : leOf (s.begin.hostParam p) = 1 + 256 * (p.val + 256 * leOf rest) := by
    rw [hmsg, leOf, leOf, BitVec.toNat_ofNat, Nat.mod_eq_of_lt (by omega)]
    rfl
  have hbits : fld n 75 74 = 2 ∧ fld n 151 144 = 1 ∧ fld n 159 152 = p.val := by
    have hseq := (s.begin.host p).rxSeq.isLt
    have hport := p.isLt
    rw [hn, hheader, hword, fld_eq_div_mod, fld_eq_div_mod, fld_eq_div_mod]
    refine ⟨?_, ?_, ?_⟩ <;> omega
  obtain ⟨y, hy⟩ : ∃ y, y = (s.begin.host p).takeHeader.2 := ⟨_, rfl⟩
  have hstate : y.state = .param := by rw [hy]; exact hparam
  obtain ⟨b, hout, hb⟩ := emitted_bits (s.begin.setHost p y) p n
  have heffect : xPequaFlitSend p s.mem s.begin = (s.begin.setHost p y).emitFlit p n := by
    have hparam' : (s.begin.host p).state = .param := hparam
    unfold xPequaFlitSend
    dsimp only
    rw [hparam', hy, hn]
    rfl
  have hleaves : ∀ d : Dev, (d.emitFlit p n).hosts = d.hosts ∧ (d.emitFlit p n).stores = d.stores ∧ (d.emitFlit p n).wipes = d.wipes ∧
      (d.emitFlit p n).regs = d.regs ∧ (d.emitFlit p n).counters = d.counters := fun _ => ⟨rfl, rfl, rfl, rfl, rfl⟩
  have hbase : (s.begin.setHost p y).host p = y ∧ (s.begin.setHost p y).stores = [] ∧ (s.begin.setHost p y).wipes = [] ∧
      (s.begin.setHost p y).regs = s.dev.regs ∧ (s.begin.setHost p y).counters = s.dev.counters ∧ (s.begin.setHost p y).out = [] :=
    ⟨host_setHost_same .., rfl, rfl, rfl, rfl, rfl⟩
  obtain ⟨d, hd⟩ : ∃ d, d = s.begin.setHost p y := ⟨_, rfl⟩
  rw [← hd] at heffect hout hbase
  obtain ⟨hhost, hstores, hwipes, hregs, hcounters, hfirst⟩ := hbase
  obtain ⟨hhosts', hstores', hwipes', hregs', hcounters'⟩ := hleaves d
  obtain ⟨e, he⟩ : ∃ e, e = d.emitFlit p n := ⟨_, rfl⟩
  rw [← he] at heffect hout hhosts' hstores' hwipes' hregs' hcounters'
  have hstate' : (e.host p).state = .param := by
    rw [Dev.host, hhosts']
    exact (congrArg (·.state) hhost).trans hstate
  exact ends_of_run (x := xPequaFlitSend p) rfl heffect ⟨⟨b, by rw [State.commit_out, hout, hfirst]; rfl, (hb 75 74 (by decide)).trans hbits.1,
    (hb 151 144 (by decide)).trans hbits.2.1, (hb 159 152 (by decide)).trans hbits.2.2⟩, hstate', s.commit_mem _ (hstores'.trans hstores) (hwipes'.trans hwipes),
    hregs'.trans hregs, hcounters'.trans hcounters⟩

/-! A DATA flit. -/

/-- The one packet of a port is the next to be sent, if the host has units for it. -/
theorem pickTx_only {x : HostPort} {k : HPacket} (htx : x.tx = [k]) (hunits : k.units ≤ mget 0 x.credits k.cls) (hcls : k.cls < 3) : x.pickTx = some k := by
  have hcases : k.cls = 0 ∨ k.cls = 1 ∨ k.cls = 2 := by omega
  unfold HostPort.pickTx
  rcases hcases with h | h | h <;> (rw [h] at hunits; simp [htx, h, hunits])

theorem pickTx_none {x : HostPort} (htx : x.tx = []) : x.pickTx = none := by
  unfold HostPort.pickTx
  simp [htx]

/-- With no packet left the units held are sent, as far as they fit. -/
theorem fillHostUnits_rest (n : Nat) {x : HostPort} (htx : x.tx = []) (hfit : x.txUnits.length ≤ n) : (fillHostUnits n x).2 = { x with txUnits := [] } := by
  induction n generalizing x with
  | zero =>
    have hnil := List.eq_nil_of_length_eq_zero (Nat.le_zero.mp hfit)
    rw [← hnil]
    rfl
  | succ n ih =>
    unfold fillHostUnits
    cases hunits : x.txUnits with
    | nil =>
      dsimp only [List.isEmpty_nil]
      rw [if_pos rfl, pickTx_none htx]
      dsimp only
      rw [hunits]
      dsimp only
      rw [← hunits]
    | cons u r =>
      dsimp only [List.isEmpty_cons]
      rw [if_neg (by decide), hunits]
      dsimp only
      rw [hunits, List.length_cons] at hfit
      exact ih (x := { x with txUnits := r }) htx (Nat.le_of_succ_le_succ hfit)

/-- A port whose one packet has been sent whole. -/
def HostPort.drained (x : HostPort) (k : HPacket) : HostPort :=
  { x with tx := removeOne k x.tx, txUnits := [], credits := mupd 0 x.credits k.cls (· - k.units) }

theorem fillHostUnits_only {x : HostPort} {k : HPacket} (htx : x.tx = [k]) (hunits : k.units ≤ mget 0 x.credits k.cls) (hcls : k.cls < 3)
    (hempty : x.txUnits = []) (hfit : (hpUnits k).length ≤ 14) : (fillHostUnits 14 x).2 = x.drained k := by
  obtain ⟨u, r, hpacket⟩ : ∃ u r, hpUnits k = u :: r := ⟨_, _, rfl⟩
  have hgone : removeOne k x.tx = [] := by rw [htx, removeOne, if_pos rfl]
  rw [show (14 : Nat) = 13 + 1 from rfl]
  unfold fillHostUnits
  rw [hempty, pickTx_only htx hunits hcls]
  dsimp only [List.isEmpty_nil]
  rw [if_pos rfl]
  dsimp only
  rw [hpacket]
  rw [hpacket, List.length_cons] at hfit
  exact fillHostUnits_rest 13 (x := { x with tx := removeOne k x.tx, txUnits := r, credits := mupd 0 x.credits k.cls (· - k.units) }) hgone
    (Nat.le_of_succ_le_succ hfit)

theorem nextFlit_data {x : HostPort} {k : HPacket} (htx : x.tx = [k]) (hunits : k.units ≤ mget 0 x.credits k.cls) (hcls : k.cls < 3)
    (hempty : x.txUnits = []) (hfit : (hpUnits k).length ≤ 14) (hreplay : x.toReplay = 0) (hroom : x.unacked.length < 1024) :
    x.nextFlit.2.tx = [] ∧ x.nextFlit.2.txSeq = x.txSeq + 1 ∧ x.nextFlit.2.unacked.length = x.unacked.length + 1 ∧
    mget 0 x.nextFlit.2.credits k.cls = mget 0 x.credits k.cls - k.units := by
  have hgone : removeOne k x.tx = [] := by rw [htx, removeOne, if_pos rfl]
  have hpick := pickTx_only htx hunits hcls
  have hnext : x.nextFlit = x.dataFlit := by
    unfold HostPort.nextFlit
    rw [hreplay, hpick, if_neg (by decide), if_pos (by simp [hroom])]
  have hdata : ∃ (n : BitVec 1936), x.dataFlit.2 = { (x.drained k).takeHeader.2 with txSeq := (x.drained k).takeHeader.2.txSeq + 1, unacked := (x.drained k).takeHeader.2.unacked ++ [n] } := by
    have hfill := fillHostUnits_only htx hunits hcls hempty hfit
    unfold HostPort.dataFlit
    generalize fillHostUnits 14 x = y at hfill ⊢
    obtain ⟨us, y⟩ := y
    dsimp only at hfill ⊢
    rw [hfill]
    exact ⟨_, rfl⟩
  obtain ⟨n, hdata⟩ := hdata
  rw [hnext, hdata]
  obtain ⟨-, htx', hseq', hunacked', hcredits'⟩ := takeHeader_order (x.drained k)
  refine ⟨htx'.trans hgone, congrArg (· + 1) hseq', ?_, ?_⟩
  · rw [hunacked', List.length_append]
    rfl
  · show mget 0 (x.drained k).takeHeader.2.credits k.cls = _
    rw [hcredits']
    exact mget_mset_same ..

theorem pequaFlitSend_data (s : State) (p : Fin 4) (k : HPacket) (hactive : (s.dev.host p).state = .active) (hctrl : (s.dev.host p).ctrlQueue = [])
    (hreplay : (s.dev.host p).toReplay = 0) (hempty : (s.dev.host p).txUnits = []) (htx : (s.dev.host p).tx = [k])
    (hunits : k.units ≤ mget 0 (s.dev.host p).credits k.cls) (hcls : k.cls < 3) (hfit : (hpUnits k).length ≤ 14) (hroom : (s.dev.host p).unacked.length < 1024) :
    Ends (.pequaFlitSend p) s (fun u => (u.dev.host p).tx = [] ∧ (u.dev.host p).txSeq = (s.dev.host p).txSeq + 1 ∧
      (u.dev.host p).unacked.length = (s.dev.host p).unacked.length + 1 ∧
      mget 0 (u.dev.host p).credits k.cls = mget 0 (s.dev.host p).credits k.cls - k.units ∧ u.dev.out.length = 1 ∧
      (∀ q : Nat, q ≠ p.val → u.dev.host q = s.dev.host q) ∧ u.mem = s.mem ∧ u.dev.regs = s.dev.regs ∧ u.dev.counters = s.dev.counters) := by
  obtain ⟨htx', hseq, hunacked, hcredits⟩ := nextFlit_data (x := s.dev.host p) htx hunits hcls hempty hfit hreplay hroom
  obtain ⟨y, hy⟩ : ∃ y, y = (s.dev.host p).nextFlit.2 := ⟨_, rfl⟩
  obtain ⟨n, hn⟩ : ∃ n, n = (s.dev.host p).nextFlit.1 := ⟨_, rfl⟩
  rw [← hy] at htx' hseq hunacked hcredits
  have heffect : xPequaFlitSend p s.mem s.begin = (s.begin.setHost p y).emitFlit p n := by
    have hactive' : (s.begin.host p).state = .active := hactive
    have hctrl' : (s.begin.host p).ctrlQueue = [] := hctrl
    unfold xPequaFlitSend
    dsimp only
    rw [hactive']
    dsimp only
    rw [hctrl', hy, hn]
    rfl
  have hleaves : ∀ d : Dev, (d.emitFlit p n).hosts = d.hosts ∧ (d.emitFlit p n).stores = d.stores ∧ (d.emitFlit p n).wipes = d.wipes ∧
      (d.emitFlit p n).regs = d.regs ∧ (d.emitFlit p n).counters = d.counters ∧ (d.emitFlit p n).out.length = d.out.length + 1 :=
    fun d => ⟨rfl, rfl, rfl, rfl, rfl, List.length_append⟩
  have hbase : (s.begin.setHost p y).host p = y ∧ (s.begin.setHost p y).stores = [] ∧ (s.begin.setHost p y).wipes = [] ∧
      (s.begin.setHost p y).regs = s.dev.regs ∧ (s.begin.setHost p y).counters = s.dev.counters ∧ (s.begin.setHost p y).out = [] :=
    ⟨host_setHost_same .., rfl, rfl, rfl, rfl, rfl⟩
  have hother : ∀ q : Nat, q ≠ p.val → (s.begin.setHost p y).host q = s.dev.host q := fun q hq => (Dev.host_setHost s.begin p q y).trans (if_neg (Ne.symm hq))
  obtain ⟨d, hd⟩ : ∃ d, d = s.begin.setHost p y := ⟨_, rfl⟩
  rw [← hd] at heffect hbase hother
  obtain ⟨hhost, hstores, hwipes, hregs, hcounters, hfirst⟩ := hbase
  obtain ⟨hhosts', hstores', hwipes', hregs', hcounters', hout⟩ := hleaves d
  obtain ⟨e, he⟩ : ∃ e, e = d.emitFlit p n := ⟨_, rfl⟩
  rw [← he] at heffect hout hhosts' hstores' hwipes' hregs' hcounters'
  have hhost' : ∀ q, e.host q = d.host q := fun q => by rw [Dev.host, hhosts']; rfl
  have hport : e.host p = y := (hhost' p).trans hhost
  rw [← hport] at htx' hseq hunacked hcredits
  exact ends_of_run (x := xPequaFlitSend p) rfl heffect ⟨htx', hseq, hunacked, hcredits, by rw [State.commit_out, hout, hfirst]; rfl,
    fun q hq => (hhost' q).trans (hother q hq), s.commit_mem _ (hstores'.trans hstores) (hwipes'.trans hwipes), hregs'.trans hregs, hcounters'.trans hcounters⟩

end Sys2Proof.Machine
end

section
/-! Training, retraining and the commands of a Pequa port (R328, R329, R350). -/

namespace Sys2Proof.Machine

open Sys2Proof.Claims (Ends Quiet Heard)

@[simp] theorem standing_noteDegraded (d : Dev) : d.noteDegraded.standing = d.standing := by
  rcases d.noteDegraded_cases with h | ⟨x, r, h⟩
  · rw [h]
  · rw [h]
    exact standing_event ..

@[simp] theorem standing_hostRetry (d : Dev) (p : Nat) : (d.hostRetry p).standing = d.standing := by
  unfold Dev.hostRetry
  dsimp only
  refine (standing_each _ fun d x => standing_hostRequest ..).trans (standing_setHost ?_)
  rfl

/-- From `d` to `e` nothing but what stands is known, and no byte is stored. -/
structure Settles (d e : Dev) : Prop where
  standing : e.standing = d.standing
  stores : e.stores = d.stores

section
variable {d e f : Dev}

theorem Settles.refl (d : Dev) : Settles d d := ⟨rfl, rfl⟩

theorem Settles.trans (h : Settles d e) (h' : Settles e f) : Settles d f := ⟨h'.standing.trans h.standing, h'.stores.trans h.stores⟩

theorem settles_noteDegraded (d : Dev) : Settles d d.noteDegraded := ⟨standing_noteDegraded d, by simp only [Dev.noteDegraded_fields]⟩

theorem settles_hostRetry (d : Dev) (p : Nat) : Settles d (d.hostRetry p) := ⟨standing_hostRetry d p, by
  obtain ⟨g, l, h⟩ := hostRetry_traffic d p
  rw [h]
  rfl⟩

theorem Settles.reads (h : Settles d e) : e.regs = d.regs ∧ e.tiles = d.tiles ∧ e.wipes = d.wipes := by
  obtain ⟨hregs, htiles, -, -, -, -, -, -, -, -, hwipes, -⟩ := ground_fields (ground_of_standing h.standing)
  exact ⟨hregs, htiles, hwipes⟩

end

/-- A command that gives port `p` the record `x` and then settles. -/
theorem ends_of_settles {i : Instr} {s : State} {x : Effect} {p : Nat} {y : HostPort} {e : Dev} {P : HostPort → Prop} (hexec : exec i s = s.run x)
    (heffect : x s.mem s.begin = e) (hsettles : Settles (s.begin.setHost p y) e) (hP : ∀ z : HostPort, z.face = y.face → P z) :
    Ends i s (fun u => P (u.dev.host p) ∧ u.mem = s.mem ∧ u.dev.regs = s.dev.regs ∧ u.dev.tiles = s.dev.tiles) := by
  obtain ⟨hregs, htiles, hwipes⟩ := hsettles.reads
  have hface := face_of_standing hsettles.standing p
  rw [host_setHost_same] at hface
  exact ends_of_run hexec heffect ⟨hP _ hface, s.commit_mem _ (hsettles.stores.trans rfl) (hwipes.trans rfl), hregs, htiles⟩

/-! Training. -/

theorem pequaPhyTrainDone_trains (s : State) (p : Fin 4) (n : Fin 17) (r : BitVec 2) (hstate : (s.dev.host p).state = .phyTrain) (hlanes : 4 ≤ n.val) :
    Ends (.pequaPhyTrainDone p n r) s (fun u => (u.dev.host p).state = .param ∧ (u.dev.host p).rate = r ∧
      (u.dev.host p).width = (if n.val = 16 then 3 else if 8 ≤ n.val then 2 else 1) ∧ u.mem = s.mem ∧ u.dev.regs = s.dev.regs ∧ u.dev.tiles = s.dev.tiles) := by
  have hwidth : hostWidth n.val = if n.val = 16 then 3 else if 8 ≤ n.val then 2 else 1 := by
    unfold hostWidth
    rw [if_pos hlanes]
    exact if_congr (by omega) rfl rfl
  have hstate' : (s.begin.host p).state = .phyTrain := hstate
  have heffect : xPequaPhyTrainDone p n r s.mem s.begin =
      (s.begin.setHost p { s.begin.host p with state := .param, width := hostWidth n, rate := r }).noteDegraded := by
    unfold xPequaPhyTrainDone
    dsimp only
    rw [hstate', if_neg (by decide), if_neg (by omega)]
  exact ends_imp (ends_of_settles (x := xPequaPhyTrainDone p n r)
    (P := fun z => z.state = .param ∧ z.rate = r ∧ z.width = hostWidth n) rfl heffect (settles_noteDegraded _)
    fun z hz => ⟨congrArg (·.state) hz, congrArg (·.rate) hz, congrArg (·.width) hz⟩)
    fun u ⟨⟨hnow, hrate, hw⟩, hmem, hregs, htiles⟩ => ⟨hnow, hrate, hw.trans hwidth, hmem, hregs, htiles⟩

theorem pequaPhyTrainDone_fails (s : State) (p : Fin 4) (n : Fin 17) (r : BitVec 2) (hstate : (s.dev.host p).state = .phyTrain) (hlanes : n.val < 4) :
    Ends (.pequaPhyTrainDone p n r) s (fun u => (u.dev.host p).state = .failed ∧ u.mem = s.mem ∧ u.dev.regs = s.dev.regs ∧ u.dev.tiles = s.dev.tiles) := by
  have hstate' : (s.begin.host p).state = .phyTrain := hstate
  have heffect : xPequaPhyTrainDone p n r s.mem s.begin = (s.begin.setHost p { s.begin.host p with state := .failed }).noteDegraded := by
    unfold xPequaPhyTrainDone
    dsimp only
    rw [hstate', if_neg (by decide), if_pos hlanes]
  exact ends_of_settles (x := xPequaPhyTrainDone p n r) (P := fun z => z.state = .failed) rfl heffect (settles_noteDegraded _)
    fun z hz => congrArg (·.state) hz

theorem pequaCreditInit_opens (s : State) (p : Fin 4) (a b c : BitVec 16) (hstate : (s.dev.host p).state = .credit)
    (htorn : ∀ x, x < 64 → (s.dev.ctx x).state = .teardown → (s.dev.ctx x).port ≠ p.val) :
    Ends (.pequaCreditInit p a b c) s (fun u => (u.dev.host p).state = .active ∧ (u.dev.host p).credits = [(0, a.toNat), (1, b.toNat), (2, c.toNat)] ∧
      u.mem = s.mem ∧ u.dev.regs = s.dev.regs ∧ u.dev.tiles = s.dev.tiles) := by
  have hstate' : (s.begin.host p).state = .credit := hstate
  have hnone : (List.range 64).any (fun c => (s.begin.ctx c).state == .teardown && (s.begin.ctx c).port == p.val) = false :=
    List.any_eq_false.mpr fun x hx => by
      rw [Bool.and_eq_true, beq_iff_eq, beq_iff_eq]
      exact fun h => htorn x (List.mem_range.mp hx) h.1 h.2
  have heffect : xPequaCreditInit p a.toNat b.toNat c.toNat s.mem s.begin =
      (s.begin.setHost p { s.begin.host p with state := .active, credits := [(0, a.toNat), (1, b.toNat), (2, c.toNat)] }).noteDegraded.hostRetry p := by
    unfold xPequaCreditInit
    dsimp only
    rw [hstate', hnone, if_neg (by decide)]
  exact ends_imp (ends_of_settles (x := xPequaCreditInit p a.toNat b.toNat c.toNat)
    (P := fun z => z.state = .active ∧ z.credits = [(0, a.toNat), (1, b.toNat), (2, c.toNat)]) rfl heffect ((settles_noteDegraded _).trans (settles_hostRetry _ _))
    fun z hz => ⟨congrArg (·.state) hz, congrArg (·.credits) hz⟩) fun u ⟨⟨hnow, hcredits⟩, hmem, hregs, htiles⟩ => ⟨hnow, hcredits, hmem, hregs, htiles⟩

theorem pequaParam_first (s : State) (p : Fin 4) (h : BitVec 64) (coh : Bool) (n : BitVec 16) (hstate : (s.dev.host p).state = .param) (hid : h ≠ 0)
    (htags : n ≠ 0) (hmost : n.toNat ≤ 4096) (hlast : (s.dev.host p).lastHostId = 0 ∨ (s.dev.host p).lastHostId = h) :
    Quiet (.pequaParam p h coh n) s (s.begin.setHost p { s.dev.host p with state := .credit, hostId := h, lastHostId := h, cohReq := coh, cohFenced := false, tags := n.toNat, ctrlQueue := [hostCreditInit] }) := by
  have hstate' : (s.begin.host p).state = .param := hstate
  have hlast' : (s.begin.host p).lastHostId = 0 ∨ (s.begin.host p).lastHostId = h := hlast
  have htags' : n.toNat ≠ 0 := fun h0 => htags (BitVec.eq_of_toNat_eq h0)
  have hid' : (h == 0) = false := beq_false_of_ne hid
  have hsame : ((s.begin.host p).lastHostId != 0 && (s.begin.host p).lastHostId != h) = false := by
    rcases hlast' with h0 | h0
    · rw [h0, bne_self_eq_false, Bool.false_and]
    · rw [h0, bne_self_eq_false, Bool.and_false]
  refine quiet_of_run (x := xPequaParam p h coh n.toNat) rfl ?_ rfl rfl
  unfold xPequaParam
  dsimp only
  rw [hstate', hid', decide_eq_false htags', decide_eq_false (by omega : ¬ 4096 < n.toNat), if_neg (by decide), hsame, if_pos (by decide)]
  rfl

theorem pequaRetryTimer_trains (s : State) (p : Fin 4) (hstate : (s.dev.host p).state = .down) (hmay : s.dev.hostMayTrain p = true) :
    Quiet (.pequaRetryTimer p) s (s.begin.setHost p { s.dev.host p with state := .phyTrain }) := by
  have hstate' : (s.begin.host p).state = .down := hstate
  have hmay' : s.begin.hostMayTrain p = true := hmay
  refine quiet_of_run (x := xPequaRetryTimer p) rfl ?_ rfl rfl
  unfold xPequaRetryTimer
  dsimp only
  rw [hstate', hmay', if_pos (by decide)]
  rfl

/-! RETRAIN. -/

/-- What entering RETRAIN leaves. -/
theorem hostRetrain_leaves (d : Dev) (p : Nat) : (d.hostRetrain p).host p = { d.host p with state := .retrain } ∧
    (d.hostRetrain p).count (Reg.devHpRetrains p) = d.count (Reg.devHpRetrains p) + 1 ∧ (d.hostRetrain p).tags = d.tags ∧ (d.hostRetrain p).stores = d.stores ∧
    (d.hostRetrain p).wipes = d.wipes ∧ (d.hostRetrain p).regs = d.regs :=
  ⟨host_setHost_same d p { d.host p with state := .retrain }, Dev.count_bump_same (d.setHost p { d.host p with state := .retrain }) _, rfl, rfl, rfl, rfl⟩

theorem pequaAckTimeout_retrains (s : State) (p : Fin 4) (hstate : (s.dev.host p).state = .active) (hwaits : (s.dev.host p).unacked ≠ []) :
    Ends (.pequaAckTimeout p) s (fun u => (u.dev.host p).state = .retrain ∧ (u.dev.host p).unacked = (s.dev.host p).unacked ∧
      u.dev.count (Reg.devHpRetrains p) = s.dev.count (Reg.devHpRetrains p) + 1 ∧ u.dev.tags = s.dev.tags ∧ u.mem = s.mem ∧ u.dev.regs = s.dev.regs) := by
  have hstate' : (s.begin.host p).state = .active := hstate
  have hwaits' : (s.begin.host p).unacked.isEmpty = false := List.isEmpty_eq_false_iff.mpr hwaits
  have heffect : xPequaAckTimeout p s.mem s.begin = s.begin.hostRetrain p := by
    unfold xPequaAckTimeout
    dsimp only
    rw [hstate', hwaits', if_pos (by decide)]
  obtain ⟨hhost, hcount, htags, hstores, hwipes, hregs⟩ := hostRetrain_leaves s.begin p
  obtain ⟨e, he⟩ : ∃ e, e = s.begin.hostRetrain p := ⟨_, rfl⟩
  rw [← he] at heffect hhost hcount htags hstores hwipes hregs
  exact ends_of_run (x := xPequaAckTimeout p) rfl heffect
    ⟨congrArg (·.state) hhost, congrArg (·.unacked) hhost, hcount, htags, s.commit_mem _ hstores hwipes, hregs⟩

theorem l0Regained_replays (s : State) (p : Fin 4) (hstate : (s.dev.host p).state = .retrain) :
    Ends (.l0Regained p) s (fun u => (u.dev.host p).state = .active ∧ (u.dev.host p).toReplay = (s.dev.host p).unacked.length ∧
      (u.dev.host p).unacked = (s.dev.host p).unacked ∧ (u.dev.host p).nakCount = 0 ∧ u.mem = s.mem ∧ u.dev.regs = s.dev.regs ∧
      u.dev.counters = s.dev.counters) := by
  obtain ⟨y, hy⟩ : ∃ y, y = { s.begin.host p with state := .active, toReplay := (s.begin.host p).unacked.length, nakDue := false, nakSent := false, nakCount := 0 } := ⟨_, rfl⟩
  have hreads : y.state = .active ∧ y.toReplay = (s.dev.host p).unacked.length ∧ y.unacked = (s.dev.host p).unacked ∧ y.nakCount = 0 := by
    rw [hy]
    exact ⟨rfl, rfl, rfl, rfl⟩
  have hstate' : (s.begin.host p).state = .retrain := hstate
  have hface := face_of_standing (standing_hostRetry (s.begin.setHost p y) p) p
  rw [host_setHost_same] at hface
  obtain ⟨g, l, hretry⟩ := hostRetry_traffic (s.begin.setHost p y) p
  have heffect : xL0Regained p s.mem s.begin = (s.begin.setHost p y).withTraffic g l := by
    unfold xL0Regained
    dsimp only
    rw [hstate', if_pos (by decide), ← hy, hretry]
  have hleaves : ((s.begin.setHost p y).withTraffic g l).stores = [] ∧ ((s.begin.setHost p y).withTraffic g l).wipes = [] ∧
      ((s.begin.setHost p y).withTraffic g l).regs = s.dev.regs ∧ ((s.begin.setHost p y).withTraffic g l).counters = s.dev.counters := ⟨rfl, rfl, rfl, rfl⟩
  rw [hretry] at hface
  obtain ⟨e, he⟩ : ∃ e, e = (s.begin.setHost p y).withTraffic g l := ⟨_, rfl⟩
  rw [← he] at heffect hface hleaves
  obtain ⟨hstores, hwipes, hregs, hcounters⟩ := hleaves
  obtain ⟨hnow, hreplay, hunacked, hnak⟩ := hreads
  exact ends_of_run (x := xL0Regained p) rfl heffect ⟨(congrArg (·.state) hface).trans hnow, (congrArg (·.toReplay) hface).trans hreplay,
    (congrArg (·.unacked) hface).trans hunacked, (congrArg (·.nakCount) hface).trans hnak, s.commit_mem _ hstores hwipes, hregs, hcounters⟩

/-! The commands of DEV_HP_CTRL. -/

/-- LOSS_LIMIT stays as it is under a command. -/
theorem hpCtrlWith_fields (d : Dev) (p : Nat) {cmd : Nat} (hcmd : cmd < 4) : fb (d.hpCtrlWith p cmd) 11 0 = d.rf (Reg.devHpCtrl p) 11 0 ∧
    fb (d.hpCtrlWith p cmd) 31 30 = cmd := by
  refine ⟨?_, fb_cmd (d.reg (Reg.devHpCtrl p)) hcmd⟩
  rw [Dev.hpCtrlWith, fb, BitVec.toNat_ofNat, Nat.mod_eq_of_lt (setFld_lt _ _ _ _ 32 (d.reg (Reg.devHpCtrl p)).isLt (by decide) (by decide)),
    fld_setFld_below _ _ _ _ _ _ (by decide)]
  rfl

theorem hpCtrlWrite_cmd {d : Dev} {p cmd : Nat} (hcmd : cmd < 4) (hlow : 1 ≤ d.rf (Reg.devHpCtrl p) 11 0) (hhigh : d.rf (Reg.devHpCtrl p) 11 0 ≤ 3600) :
    d.hpCtrlWrite p (d.hpCtrlWith p cmd) = (d.putReg (Reg.devHpCtrl p) (d.hpCtrlWith p cmd)).hostCommand p cmd := by
  obtain ⟨hlimit, hcode⟩ := hpCtrlWith_fields d p hcmd
  unfold Dev.hpCtrlWrite
  rw [hlimit, hcode, if_neg (by simp only [Bool.or_eq_true, decide_eq_true_eq]; omega)]

theorem hostCommand_retrain {d : Dev} {p : Nat} (hstate : (d.host p).state = .active) : d.hostCommand p 1 = d.hostRetrain p := by
  simp [Dev.hostCommand, hstate]

theorem hostCommand_enable {d : Dev} {p : Nat} (hstate : (d.host p).state = .disabled) : d.hostCommand p 3 = d.setHost p { d.host p with state := .down } := by
  simp [Dev.hostCommand, hstate]

theorem devHpRetrain_retrains (s : State) (r : Requester) (p : Fin 4) (hheard : Heard s r (Reg.devHpCtrl p) (s.dev.hpCtrlWith p 1)) (hmay : isCtx0 r = true)
    (hstate : (s.dev.host p).state = .active) (hlow : 1 ≤ s.dev.rf (Reg.devHpCtrl p) 11 0) (hhigh : s.dev.rf (Reg.devHpCtrl p) 11 0 ≤ 3600) :
    Ends (.devHpRetrain r p) s (fun u => (u.dev.host p).state = .retrain ∧
      u.dev.count (Reg.devHpRetrains p) = s.dev.count (Reg.devHpRetrains p) + 1 ∧ u.dev.tags = s.dev.tags ∧ u.mem = s.mem) := by
  have hwrite := hpCtrlWrite_cmd (d := s.begin) (p := p) (cmd := 1) (by decide) hlow hhigh
  obtain ⟨d, hd⟩ : ∃ d, d = s.begin.putReg (Reg.devHpCtrl p) (s.begin.hpCtrlWith p 1) := ⟨_, rfl⟩
  have hbase : (d.host p).state = .active ∧ d.count (Reg.devHpRetrains p) = s.dev.count (Reg.devHpRetrains p) ∧ d.tags = s.dev.tags ∧ d.stores = [] ∧
      d.wipes = [] := by
    rw [hd]
    exact ⟨hstate, rfl, rfl, rfl, rfl⟩
  rw [← hd] at hwrite
  obtain ⟨hactive, hcount, htags, hstores, hwipes⟩ := hbase
  have hcmd : d.hostCommand p 1 = d.hostRetrain p := hostCommand_retrain hactive
  obtain ⟨hhost', hcount', htags', hstores', hwipes', -⟩ := hostRetrain_leaves d p
  obtain ⟨e, he⟩ : ∃ e, e = d.hostRetrain p := ⟨_, rfl⟩
  rw [← he] at hcmd hhost' hcount' htags' hstores' hwipes'
  have heffect : (s.begin.hpCtrlWrite p (s.begin.hpCtrlWith p 1), stOK) = (e, stOK) := by
    rw [hwrite, hcmd]
  exact ends_of_heard (i := .devHpRetrain r p) (perm := fun _ => isCtx0 r) (x := fun _ d => (d.hpCtrlWrite p.val (d.hpCtrlWith p.val 1), stOK)) (d := e) (st := stOK)
    rfl hheard hmay heffect ⟨congrArg (·.state) hhost', hcount'.trans (by rw [hcount]), htags'.trans htags,
      s.commit_mem _ (hstores'.trans hstores) (hwipes'.trans hwipes)⟩

theorem devHpEnable_enables (s : State) (r : Requester) (p : Fin 4) (hheard : Heard s r (Reg.devHpCtrl p) (s.dev.hpCtrlWith p 3)) (hmay : isCtx0 r = true)
    (hstate : (s.dev.host p).state = .disabled) (hlow : 1 ≤ s.dev.rf (Reg.devHpCtrl p) 11 0) (hhigh : s.dev.rf (Reg.devHpCtrl p) 11 0 ≤ 3600) :
    Ends (.devHpEnable r p) s (fun u => (u.dev.host p).state = .down ∧ (∀ q : Nat, q ≠ p.val → u.dev.host q = s.dev.host q) ∧ u.mem = s.mem ∧
      u.dev.counters = s.dev.counters ∧ u.dev.tiles = s.dev.tiles) := by
  have hwrite := hpCtrlWrite_cmd (d := s.begin) (p := p) (cmd := 3) (by decide) hlow hhigh
  obtain ⟨d, hd⟩ : ∃ d, d = s.begin.putReg (Reg.devHpCtrl p) (s.begin.hpCtrlWith p 3) := ⟨_, rfl⟩
  have hbase : (d.host p).state = .disabled ∧ (∀ q, d.host q = s.dev.host q) ∧ d.counters = s.dev.counters ∧ d.tiles = s.dev.tiles ∧ d.stores = [] ∧ d.wipes = [] := by
    rw [hd]
    exact ⟨hstate, fun _ => rfl, rfl, rfl, rfl, rfl⟩
  rw [← hd] at hwrite
  obtain ⟨hdisabled, hhosts, hcounters, htiles, hstores, hwipes⟩ := hbase
  obtain ⟨e, he⟩ : ∃ e, e = d.setHost p { d.host p with state := .down } := ⟨_, rfl⟩
  have hcmd : d.hostCommand p 3 = e := (hostCommand_enable hdisabled).trans he.symm
  have hleaves : (e.host p).state = .down ∧ (∀ q : Nat, q ≠ p.val → e.host q = d.host q) ∧ e.counters = d.counters ∧ e.tiles = d.tiles ∧ e.stores = d.stores ∧
      e.wipes = d.wipes := by
    rw [he]
    exact ⟨congrArg (·.state) (host_setHost_same d p { d.host p with state := .down }), fun q hq => (Dev.host_setHost ..).trans (if_neg (Ne.symm hq)), rfl, rfl, rfl, rfl⟩
  obtain ⟨hstate', hhosts', hcounters', htiles', hstores', hwipes'⟩ := hleaves
  have heffect : (s.begin.hpCtrlWrite p (s.begin.hpCtrlWith p 3), stOK) = (e, stOK) := by
    rw [hwrite, hcmd]
  exact ends_of_heard (i := .devHpEnable r p) (perm := fun _ => isCtx0 r) (x := fun _ d => (d.hpCtrlWrite p.val (d.hpCtrlWith p.val 3), stOK)) (d := e) (st := stOK)
    rfl hheard hmay heffect ⟨hstate', fun q hq => (hhosts' q hq).trans (hhosts q),
      s.commit_mem _ (hstores'.trans hstores) (hwipes'.trans hwipes), hcounters'.trans hcounters, htiles'.trans htiles⟩

end Sys2Proof.Machine
end

section
/-! A Pequa port goes down (R329, R347). -/

namespace Sys2Proof.Machine

open Sys2Proof.Claims (Ends Heard TakesHostDown)

/-- Port `p` carries nothing: it is not up, its flits and packets are gone, and no request is outstanding on it. -/
structure Dev.Silent (p : Nat) (d : Dev) : Prop where
  down : (d.host p).up = false
  unacked : (d.host p).unacked = []
  tx : (d.host p).tx = []
  rx : (d.host p).rx = []
  tags : ∀ t, t ∈ d.tags → t.port ≠ p

/-- From `d` to `e` no host port changes its state, no tile and no memory changes, and a silent port `p` stays silent. -/
structure Stills (p : Nat) (d e : Dev) : Prop where
  state : ∀ q, (e.host q).state = (d.host q).state
  tiles : e.tiles = d.tiles
  stores : e.stores = d.stores
  wipes : e.wipes = d.wipes
  silent : d.Silent p → e.Silent p

section
variable {p : Nat} {d e f : Dev}

theorem Stills.refl (p : Nat) (d : Dev) : Stills p d d := ⟨fun _ => rfl, rfl, rfl, rfl, id⟩

theorem Stills.trans (h : Stills p d e) (h' : Stills p e f) : Stills p d f :=
  ⟨fun q => (h'.state q).trans (h.state q), h'.tiles.trans h.tiles, h'.stores.trans h.stores, h'.wipes.trans h.wipes, h'.silent ∘ h.silent⟩

theorem stills_of_settles (h : Settles d e) (hsilent : d.Silent p → e.Silent p) : Stills p d e := by
  obtain ⟨-, htiles, hwipes⟩ := h.reads
  exact ⟨fun q => (face_fields (face_of_standing h.standing q)).1, htiles, h.stores, hwipes, hsilent⟩

/-- Only the hosts and the tags matter to a silent port. -/
theorem Dev.Silent.of_eq (hhost : e.host p = d.host p) (htags : ∀ t, t ∈ e.tags → t ∈ d.tags ∨ t.port ≠ p) (h : d.Silent p) : e.Silent p := by
  obtain ⟨hdown, hunacked, htx, hrx, hnone⟩ := h
  rw [← hhost] at hdown hunacked htx hrx
  exact ⟨hdown, hunacked, htx, hrx, fun t ht => (htags t ht).elim (hnone t) id⟩

/-- A step that touches neither a host, a tag, a tile nor memory. -/
theorem stills_of_hosts (hhosts : e.hosts = d.hosts) (htags : e.tags = d.tags) (htiles : e.tiles = d.tiles) (hstores : e.stores = d.stores)
    (hwipes : e.wipes = d.wipes) : Stills p d e := by
  have hhost : ∀ q, e.host q = d.host q := fun q => by rw [Dev.host, hhosts]; rfl
  exact ⟨fun q => congrArg (·.state) (hhost q), htiles, hstores, hwipes, fun h => h.of_eq (hhost p) fun t ht => .inl (htags ▸ ht)⟩

/-- A record whose place is kept and whose state, flits and packets are kept. -/
theorem stills_setHost {q : Nat} {x : HostPort} (hstate : x.state = (d.host q).state) (hunacked : x.unacked = (d.host q).unacked)
    (htx : x.tx = (d.host q).tx) (hrx : x.rx = (d.host q).rx) : Stills p d (d.setHost q x) := by
  have hsame : ∀ r, ((d.setHost q x).host r).state = (d.host r).state ∧ ((d.setHost q x).host r).unacked = (d.host r).unacked ∧
      ((d.setHost q x).host r).tx = (d.host r).tx ∧ ((d.setHost q x).host r).rx = (d.host r).rx := fun r => by
    rw [Dev.host_setHost]
    split
    case isTrue hr => exact hr ▸ ⟨hstate, hunacked, htx, hrx⟩
    case isFalse => exact ⟨rfl, rfl, rfl, rfl⟩
  obtain ⟨hp, hpu, hpt, hpr⟩ := hsame p
  refine ⟨fun r => (hsame r).1, rfl, rfl, rfl, fun ⟨hdown, hunacked, htx, hrx, htags⟩ => ⟨?_, hpu.trans hunacked, hpt.trans htx, hpr.trans hrx, htags⟩⟩
  rw [HostPort.up, hp]
  exact hdown

theorem stills_each {α : Type} {g : Dev → α → Dev} (l : List α) (h : ∀ d a, Stills p d (g d a)) (d : Dev) : Stills p d (d.each l g) := by
  induction l generalizing d with
  | nil => exact .refl p d
  | cons a l ih => exact (h d a).trans (ih (g d a))

end

/-! Requests and events: a port that is not up takes none. -/

section
variable (p : Nat) (d : Dev)

theorem stills_hostRequest (q : Nat) (k : HPacket) (t : Tag) : Stills p d (d.hostRequest q k t) := by
  have hwait : Stills p d (d.setHost q { d.host q with waiting := (d.host q).waiting ++ [(k, t)] }) := stills_setHost rfl rfl rfl rfl
  refine stills_of_settles ⟨standing_hostRequest d q k t, by simp only [Dev.hostRequest_fields]⟩ fun hsilent => ?_
  unfold Dev.hostRequest
  dsimp only
  split
  case isTrue => exact hwait.silent hsilent
  case isFalse hup =>
    split
    case h_1 => exact hwait.silent hsilent
    case h_2 n hn =>
      have hne : q ≠ p := fun h => hup (by rw [h, hsilent.down]; rfl)
      refine hsilent.of_eq ?_ ?_
      · unfold Dev.sendHost
        split
        · exact (Dev.host_setHost ..).trans (if_neg hne)
        · rfl
      · have htags : ∀ (d : Dev) (k : HPacket), (d.sendHost q k).tags = d.tags := fun d k => by
          unfold Dev.sendHost
          split <;> rfl
        intro x hx
        rw [htags] at hx
        rcases List.mem_append.mp hx with h | h
        · exact .inl h
        · exact .inr (by rw [List.mem_singleton.mp h]; exact hne)

theorem stills_hwr (q c a : Nat) (bs : List Byte) (u : Purpose) (x y : Nat) : Stills p d (d.hwr q c a bs u x y) := stills_hostRequest ..

theorem stills_ringPut (c : Nat) (e : Event) : Stills p d (d.ringPut c e) := by
  have hring : ∀ (d : Dev) (r : EventRing), Stills p d (d.setEventRing c r) := fun d r => by
    unfold Dev.setEventRing
    split <;> exact (stills_of_hosts rfl rfl rfl rfl rfl)
  unfold Dev.ringPut
  dsimp only
  split
  · exact (hring d _).trans (stills_of_hosts rfl rfl rfl rfl rfl)
  · exact (hring d _).trans (stills_hwr ..)

theorem stills_event (cs : List Nat) (code sev d0 d1 unit : Nat) : Stills p d (d.event cs code sev d0 d1 unit) := by
  have hput : ∀ (d : Dev) (o : Out) (c : Nat) (e : Event), Stills p d ((d.emit o).ringPut c e) := fun d o c e =>
    .trans (e := d.emit o) (stills_of_hosts rfl rfl rfl rfl rfl) (stills_ringPut ..)
  unfold Dev.event
  extract_lets bound pkg e d' c0
  have hbound : Stills p d d' := stills_each _ (fun _ _ => hput ..) d
  split
  · exact hbound.trans (hput ..)
  · exact hbound

theorem stills_noteDegraded : Stills p d d.noteDegraded := by
  rcases d.noteDegraded_cases with h | ⟨x, r, h⟩
  · rw [h]
    exact .refl p d
  · rw [h]
    exact .trans (e := ({ d with ras := { d.ras with degraded := x }, role := r } : Dev)) (stills_of_hosts rfl rfl rfl rfl rfl) (stills_event ..)

/-! The runs and the requests of a port that went down. -/

theorem stills_endRun (c : Nat) (seq : BitVec 32) (status code unit detail addr : Nat) : Stills p d (d.endRun c seq status code unit detail addr) := by
  unfold Dev.endRun
  split
  · exact .refl p d
  · split
    · exact .refl p d
    · exact .trans (e := d.putRun c _) (stills_of_hosts rfl rfl rfl rfl rfl) (stills_hwr ..)

theorem stills_retireTags (g : Tag → Bool) : Stills p d (d.retireTags g) := by
  refine ⟨fun _ => rfl, rfl, rfl, rfl, fun ⟨hdown, hunacked, htx, hrx, htags⟩ => ⟨hdown, hunacked, htx, hrx, fun t ht => ?_⟩⟩
  obtain ⟨x, hx, rfl⟩ := List.mem_map.mp ht
  split <;> exact htags x hx

theorem stills_stopRun (c : Nat) (seq : BitVec 32) (status code unit detail addr : Nat) : Stills p d (d.stopRun c seq status code unit detail addr) := by
  unfold Dev.stopRun
  extract_lets mine d1 d2
  have hretired : Stills p d d1 := stills_retireTags ..
  have hwaiting : Stills p d1 d2 := stills_each _ (fun d q => by
    dsimp only
    split
    · exact stills_setHost rfl rfl rfl rfl
    · exact .refl p d) d1
  exact (hretired.trans hwaiting).trans (stills_endRun ..)

theorem stills_cplFinish (c : Nat) (seq : BitVec 32) : Stills p d (d.cplFinish c seq) := by
  unfold Dev.cplFinish
  split
  · exact .refl p d
  · split
    · extract_lets head d1 src d2 d3 d4
      have hcounted : Stills p d d3 := stills_of_hosts rfl rfl rfl rfl rfl
      have hwritten : Stills p d d4 := hcounted.trans (stills_hwr ..)
      split
      · exact hwritten.trans (stills_event ..)
      · exact hwritten
    · exact .refl p d

theorem stills_linkDownError (t : Tag) : Stills p d (d.linkDownError t) := by
  have hwait : ∀ k : HPacket, Stills p d (d.setHost t.port { d.host t.port with waiting := (d.host t.port).waiting ++ [(k, t)] }) := fun _ =>
    stills_setHost rfl rfl rfl rfl
  have hfail : ∀ code, Stills p d (d.strataFail code) := fun code => by
    unfold Dev.strataFail
    extract_lets src d'
    have hcounted : Stills p d (d'.bump Reg.strataValFail) := stills_of_hosts rfl rfl rfl rfl rfl
    exact hcounted.trans (stills_event ..)
  have hmail : ∀ m err, Stills p d (d.mailboxError m err) := fun _ _ => (stills_of_hosts rfl rfl rfl rfl rfl)
  unfold Dev.linkDownError
  split
  · exact .refl p d
  · split
    · split
      · split
        · exact hwait _
        · exact .refl p d
      · exact .refl p d
    · split
      · exact stills_stopRun ..
      · split
        · exact hfail _
        · split
          · exact hmail ..
          · split
            · exact hmail ..
            · exact .refl p d

end

/-! Down. -/

/-- What taking port `p` down leaves. -/
structure Downed (p : Nat) (st : HostState) (d e : Dev) : Prop where
  state : (e.host p).state = st
  others : ∀ q, q ≠ p → (e.host q).state = (d.host q).state
  tiles : e.tiles = d.tiles
  stores : e.stores = d.stores
  wipes : e.wipes = d.wipes
  silent : e.Silent p

theorem Downed.stills {p : Nat} {st : HostState} {d e f : Dev} (h : Downed p st d e) (h' : Stills p e f) : Downed p st d f :=
  ⟨(h'.state p).trans h.state, fun q hq => (h'.state q).trans (h.others q hq), h'.tiles.trans h.tiles, h'.stores.trans h.stores,
    h'.wipes.trans h.wipes, h'.silent h.silent⟩

theorem hostDown_downed (d : Dev) (p : Nat) {st : HostState} (hst : st = .down ∨ st = .disabled) : Downed p st d (d.hostDown p st) := by
  unfold Dev.hostDown
  extract_lets x was tags e f g h i j
  have hx : e.host p = { state := st, cohReq := x.cohReq, cohFenced := x.cohFenced, hostId := x.hostId, lastHostId := x.lastHostId, waiting := x.waiting } :=
    host_setHost_same ..
  have hf : Downed p st d f := by
    refine ⟨congrArg (·.state) hx, fun q hq => congrArg (·.state) ((Dev.host_setHost ..).trans (if_neg (Ne.symm hq))), rfl, rfl, rfl, ?_, congrArg (·.unacked) hx,
      congrArg (·.tx) hx, congrArg (·.rx) hx, fun t ht => ?_⟩
    · refine (congrArg HostPort.up hx).trans ?_
      rcases hst with h | h <;> rw [h] <;> rfl
    · simpa using (List.mem_filter.mp ht).2
  have hg : Stills p f g := by
    unfold g Dev.breakGuard
    split
    · exact (stills_of_hosts rfl rfl rfl rfl rfl)
    · exact .refl p f
  have hh : Stills p g h := stills_each _ (fun d t => stills_linkDownError p d t) g
  have hi : Stills p h i := stills_each _ (fun d c => stills_each _ (fun d (x : Run) => stills_cplFinish p d c x.seq) d) h
  have hj : Stills p i j := by
    unfold j
    split
    · exact stills_event ..
    · exact .refl p i
  exact hf.stills ((((hg.trans hh).trans hi).trans hj).trans (stills_noteDegraded p j))

/-- A command that takes port `p` down. -/
theorem takesHostDown_of_run {i : Instr} {s : State} {p : Fin 4} {st : HostState} {x : Effect} {e : Dev} (hexec : exec i s = s.run x)
    (heffect : x s.mem s.begin = e) (h : Downed p st s.begin e) : TakesHostDown i s p st := by
  obtain ⟨hstate, hothers, htiles, hstores, hwipes, -, hunacked, htx, hrx, htags⟩ := h
  exact ends_of_run hexec heffect ⟨hstate, hunacked, htx, hrx, htags, hothers, s.commit_mem _ hstores hwipes, htiles⟩

theorem pequaDown_takes (s : State) (p : Fin 4) (x : BitVec 8) (hstate : (s.dev.host p).state = .active) : TakesHostDown (.pequaDown p x) s p .down := by
  have hstate' : (s.begin.host p).state.hasL0 = true := congrArg HostState.hasL0 hstate
  exact takesHostDown_of_run (x := xPequaDown p) rfl (if_pos hstate') (hostDown_downed _ p (.inl rfl))

theorem pequaStateTimeout_takes (s : State) (p : Fin 4)
    (hstate : (s.dev.host p).state = .param ∨ (s.dev.host p).state = .credit ∨ (s.dev.host p).state = .retrain ∨ (s.dev.host p).state = .phyTrain) :
    TakesHostDown (.pequaStateTimeout p) s p .down := by
  have hstate' : (s.begin.host p).state = .param ∨ (s.begin.host p).state = .credit ∨ (s.begin.host p).state = .retrain ∨ (s.begin.host p).state = .phyTrain := hstate
  refine takesHostDown_of_run (x := xPequaStateTimeout p) (e := s.begin.hostDown p .down) rfl ?_ (hostDown_downed _ p (.inl rfl))
  unfold xPequaStateTimeout
  rcases hstate' with h | h | h | h <;> rw [h]

theorem pequaLinkLoss_takes (s : State) (p : Fin 4) (hstate : (s.dev.host p).state = .active ∨ (s.dev.host p).state = .retrain) :
    TakesHostDown (.pequaLinkLoss p) s p .down := by
  have hstate' : (s.begin.host p).state = .active ∨ (s.begin.host p).state = .retrain := hstate
  refine takesHostDown_of_run (x := xPequaLinkLoss p) (e := s.begin.hostDown p .down) rfl ?_ (hostDown_downed _ p (.inl rfl))
  unfold xPequaLinkLoss
  rcases hstate' with h | h <;> rw [h, if_pos (by decide)]

/-- DISABLE tells the host where the link runs, and takes the port down. -/
theorem hostCommand_disable {d : Dev} {p : Nat} (hdisabled : (d.host p).state ≠ .disabled) (hfailed : (d.host p).state ≠ .failed) :
    Downed p .disabled d (d.hostCommand p 2) := by
  have hcmd : d.hostCommand p 2 = (if (d.host p).state.hasL0 then d.sendCtrl p (hostDownMsg 2) else d).hostDown p .disabled := by
    simp [Dev.hostCommand, hdisabled, hfailed]
  rw [hcmd]
  split
  case isFalse => exact hostDown_downed d p (.inr rfl)
  case isTrue =>
    obtain ⟨hstate, hothers, htiles, hstores, hwipes, hsilent⟩ := hostDown_downed (d.sendCtrl p (hostDownMsg 2)) p (.inr rfl)
    exact ⟨hstate, fun q hq => (hothers q hq).trans (congrArg (·.state) ((Dev.host_setHost ..).trans (if_neg (Ne.symm hq)))), htiles, hstores, hwipes, hsilent⟩

theorem devHpDisable_takes (s : State) (r : Requester) (p : Fin 4) (hheard : Heard s r (Reg.devHpCtrl p) (s.dev.hpCtrlWith p 2)) (hmay : isCtx0 r = true)
    (hdisabled : (s.dev.host p).state ≠ .disabled) (hfailed : (s.dev.host p).state ≠ .failed) (hlow : 1 ≤ s.dev.rf (Reg.devHpCtrl p) 11 0)
    (hhigh : s.dev.rf (Reg.devHpCtrl p) 11 0 ≤ 3600) : TakesHostDown (.devHpDisable r p) s p .disabled := by
  have hwrite := hpCtrlWrite_cmd (d := s.begin) (p := p) (cmd := 2) (by decide) hlow hhigh
  obtain ⟨d, hd⟩ : ∃ d, d = s.begin.putReg (Reg.devHpCtrl p) (s.begin.hpCtrlWith p 2) := ⟨_, rfl⟩
  have hbase : (∀ q, d.host q = s.dev.host q) ∧ d.tiles = s.dev.tiles ∧ d.stores = [] ∧ d.wipes = [] := by
    rw [hd]
    exact ⟨fun _ => rfl, rfl, rfl, rfl⟩
  rw [← hd] at hwrite
  obtain ⟨hhosts, htiles, hstores, hwipes⟩ := hbase
  have hdown : Downed p .disabled d (d.hostCommand p 2) := hostCommand_disable (by rw [hhosts]; exact hdisabled) (by rw [hhosts]; exact hfailed)
  obtain ⟨e, he⟩ : ∃ e, e = d.hostCommand p 2 := ⟨_, rfl⟩
  rw [← he] at hwrite hdown
  have heffect : (s.begin.hpCtrlWrite p (s.begin.hpCtrlWith p 2), stOK) = (e, stOK) := by
    rw [hwrite]
  obtain ⟨hstate, hothers, htiles', hstores', hwipes', -, hunacked, htx, hrx, htags⟩ := hdown
  exact ends_of_heard (i := .devHpDisable r p) (perm := fun _ => isCtx0 r) (x := fun _ d => (d.hpCtrlWrite p.val (d.hpCtrlWith p.val 2), stOK)) (d := e) (st := stOK)
    rfl hheard hmay heffect ⟨hstate, hunacked, htx, hrx, htags, fun q hq => (hothers q hq).trans (congrArg (·.state) (hhosts q)),
      s.commit_mem _ (hstores'.trans hstores) (hwipes'.trans hwipes), htiles'.trans htiles⟩

end Sys2Proof.Machine
end

section
/-! The bindings of contexts to ports and what a port belongs to stand while memory is read and written, whatever errors that brings (R331, R360). -/

namespace Sys2Proof.Machine

/-- The bindings of the contexts, the state and host of each host port, and the admin ports. -/
def Dev.owners (d : Dev) : (Nat → CtxState × Nat) × (Nat → HostState × BitVec 64) × BitVec 4 :=
  (fun c => ((d.ctx c).state, (d.ctx c).port), fun p => ((d.host p).state, (d.host p).hostId), d.admin)

theorem owners_eq {d e : Dev} (hctx : ∀ c, (e.ctx c).state = (d.ctx c).state ∧ (e.ctx c).port = (d.ctx c).port)
    (hhost : ∀ p, (e.host p).state = (d.host p).state ∧ (e.host p).hostId = (d.host p).hostId) (hadmin : e.admin = d.admin) : e.owners = d.owners := by
  simp only [Dev.owners, hctx, hhost, hadmin]

theorem owners_fields {d e : Dev} (h : e.owners = d.owners) : (∀ c, (e.ctx c).state = (d.ctx c).state ∧ (e.ctx c).port = (d.ctx c).port) ∧
    (∀ p, (e.host p).state = (d.host p).state ∧ (e.host p).hostId = (d.host p).hostId) ∧ e.admin = d.admin := by
  have hctx := fun c => congrFun (congrArg (·.1) h) c
  have hhost := fun p => congrFun (congrArg (·.2.1) h) p
  exact ⟨fun c => ⟨congrArg (·.1) (hctx c), congrArg (·.2) (hctx c)⟩, fun p => ⟨congrArg (·.1) (hhost p), congrArg (·.2) (hhost p)⟩, congrArg (·.2.2) h⟩

/-- The same contexts are bound to a port. -/
theorem boundTo_of_owners {d e : Dev} (h : e.owners = d.owners) (c p : Nat) : e.boundTo c p = d.boundTo c p := by
  obtain ⟨hctx, -, -⟩ := owners_fields h
  rw [Dev.boundTo, Dev.boundTo, Dev.bound, Dev.bound, (hctx c).1, (hctx c).2]

theorem owners_of_standing {d e : Dev} (h : e.standing = d.standing) : e.owners = d.owners := by
  obtain ⟨-, -, -, -, -, -, -, -, -, hadmin, -, -⟩ := ground_fields (ground_of_standing h)
  refine owners_eq (fun c => ?_) (fun p => face_fields (face_of_standing h p)) hadmin
  obtain ⟨hstate, -, hport, -⟩ := core_fields (core_of_standing h c)
  exact ⟨hstate, hport⟩

section
variable (d : Dev)

theorem owners_each {α : Type} {l : List α} {f : Dev → α → Dev} (h : ∀ d a, (f d a).owners = d.owners) : (d.each l f).owners = d.owners :=
  Dev.each_frame Dev.owners l h d

@[simp] theorem owners_event (cs : List Nat) (code sev d0 d1 unit : Nat) : (d.event cs code sev d0 d1 unit).owners = d.owners :=
  owners_of_standing (standing_event ..)

@[simp] theorem owners_tileEvent (t code sev d0 d1 : Nat) : (d.tileEvent t code sev d0 d1).owners = d.owners := owners_event ..
@[simp] theorem owners_exhausted (cls unit : Nat) (cs : List Nat) (u : Nat) : (d.exhausted cls unit cs u).owners = d.owners := owners_event ..
@[simp] theorem owners_sendHost (p : Nat) (k : HPacket) : (d.sendHost p k).owners = d.owners := owners_of_standing (standing_sendHost ..)
@[simp] theorem owners_sendSnoop (p line : Nat) (inval : Bool) : (d.sendSnoop p line inval).owners = d.owners := owners_of_standing (standing_sendSnoop ..)
@[simp] theorem owners_burstBad (off : Nat) : (d.burstBad off).owners = d.owners := owners_of_standing (standing_burstBad ..)
@[simp] theorem owners_noteDegraded : d.noteDegraded.owners = d.owners := owners_of_standing (standing_noteDegraded d)
@[simp] theorem owners_endRun (c : Nat) (seq : BitVec 32) (status code unit detail addr : Nat) : (d.endRun c seq status code unit detail addr).owners = d.owners :=
  owners_of_standing (standing_endRun ..)
@[simp] theorem owners_setStage (c v : Nat) (x : Stage) : (d.setStage c v x).owners = d.owners := owners_of_standing (standing_setStage ..)

@[simp] theorem owners_bump (k : Nat) : (d.bump k).owners = d.owners := rfl
@[simp] theorem owners_setTile (t : Nat) (x : Tile) : (d.setTile t x).owners = d.owners := rfl
@[simp] theorem owners_setReg (k : Nat) (v : BitVec 32) : (d.setReg k v).owners = d.owners := rfl
@[simp] theorem owners_pokeN (a : Nat) (bs : List Byte) : (d.pokeN a bs).owners = d.owners := rfl
@[simp] theorem owners_defer (cls unit : Nat) : (d.defer cls unit).owners = d.owners := rfl

/-! A tile's reload, its error and its retirement. -/

theorem owners_loadRecords (r : Reader) (t n : Nat) (o : Nat) (d : Dev) : (loadRecords r t n o d).owners = d.owners := by
  induction n generalizing o d with
  | zero => rfl
  | succ n ih => exact ih ..

@[simp] theorem owners_loadTile (r : Reader) (t phase : Nat) : (d.loadTile r t phase).owners = d.owners := by
  unfold Dev.loadTile
  split
  · rfl
  · split
    · rfl
    · have hplane : ∀ (e : Dev) (b : BitVec 512), (e.activatePlane t b).owners = e.owners := fun _ _ => rfl
      exact (hplane _ _).trans (owners_loadRecords ..)

@[simp] theorem owners_reloadTiles (m : Mem) (ts : List Nat) (phase : Nat) : (d.reloadTiles m ts phase).owners = d.owners := by
  unfold Dev.reloadTiles
  split
  · exact owners_each _ fun _ _ => owners_loadTile ..
  · rfl

@[simp] theorem owners_unitFault (m : Mem) (c t : Nat) (halted : Bool) : (d.unitFault m c t halted).owners = d.owners := by
  have hfault : ∀ (p : Pipe), (d.setCtx c { d.ctx c with pipe := p }).owners = d.owners := fun p =>
    owners_eq (fun x => by
      rw [Dev.ctx_setCtx]
      split
      case isTrue hx => exact hx ▸ ⟨rfl, rfl⟩
      case isFalse => exact ⟨rfl, rfl⟩) (fun _ => ⟨rfl, rfl⟩) rfl
  unfold Dev.unitFault
  dsimp only
  split
  · rfl
  · split
    · split
      · rfl
      · split <;> simp
    · split
      · rfl
      · rw [owners_event, hfault]

@[simp] theorem owners_tileErrorAt (m : Mem) (t code d0 d1 : Nat) (record : Bool) (detail addr : Nat) :
    (d.tileErrorAt m t code d0 d1 record detail addr).owners = d.owners := by
  unfold Dev.tileErrorAt
  extract_lets x e f
  have hf : f.owners = d.owners := by
    unfold f
    split <;> simp [e]
  split
  · exact hf
  · rw [owners_unitFault]
    split
    · rw [owners_endRun, hf]
    · exact hf

@[simp] theorem owners_retireTile (m : Mem) (t d0 : Nat) : (d.retireTile m t d0).owners = d.owners := by
  unfold Dev.retireTile
  split
  · rfl
  · dsimp only
    rw [owners_noteDegraded, Dev.tileError, owners_tileErrorAt]
    rfl

/-! A bad word, and the row it lies in. -/

@[simp] theorem owners_spareRow (m : Mem) (t bank row : Nat) : (d.spareRow m t bank row).owners = d.owners := by
  unfold Dev.spareRow
  dsimp only
  split <;> simp

@[simp] theorem owners_chargeRow (m : Mem) (t w : Nat) (unc : Bool) : (d.chargeRow m t w unc).owners = d.owners := by
  unfold Dev.chargeRow
  extract_lets u
  have h := owners_of_standing (standing_charge d 2 u unc (d.ownerOf t).toList t)
  generalize d.charge 2 u unc (d.ownerOf t).toList t = x at h ⊢
  obtain ⟨e, lasting⟩ := x
  dsimp only at h ⊢
  split
  · exact h
  · split
    · exact h
    · rw [owners_spareRow, h]

@[simp] theorem owners_wordBad (m : Mem) (t w : Nat) : (d.wordBad m t w).owners = d.owners := by
  unfold Dev.wordBad
  dsimp only
  rw [owners_chargeRow, owners_tileEvent]
  rfl

/-! Reads and writes of memory. -/

@[simp] theorem owners_load (m : Mem) (a n : Nat) : (d.load m a n).1.owners = d.owners := by
  unfold Dev.load
  split
  · rfl
  · split
    · exact owners_wordBad ..
    · exact owners_burstBad ..

@[simp] theorem owners_store (m : Mem) (a : Nat) (bs : List Byte) : (d.store m a bs).1.owners = d.owners := by
  have hburst : ∀ (x : List Nat) (y : List (Nat × Byte)), ({ d with badBursts := x, stores := y } : Dev).owners = d.owners := fun _ _ => rfl
  have hword : ∀ (t : Nat) (x : Tile) (y : List (Nat × Byte)), ({ d.setTile t x with stores := y } : Dev).owners = d.owners := fun _ _ _ => rfl
  unfold Dev.store
  dsimp only
  split
  · split
    · rfl
    · exact (owners_each _ fun _ _ => owners_burstBad ..).trans (hburst _ _)
  · split
    · rfl
    · exact (owners_each _ fun _ _ => owners_wordBad ..).trans (hword _ _ _)

@[simp] theorem owners_quarry (a n : Nat) : (d.quarry a n).owners = d.owners := by
  unfold Dev.quarry
  split
  · exact owners_each _ fun _ _ => owners_bump ..
  · rfl

@[simp] theorem owners_wakeMover (a n : Nat) : (d.wakeMover a n).owners = d.owners := by
  unfold Dev.wakeMover
  split
  · rfl
  · dsimp only
    split <;> rfl

@[simp] theorem owners_gate (acc : HeldAccess) (c a n : Nat) (write : Bool) (except : Option Nat) : (d.gate acc c a n write except).1.owners = d.owners := by
  have hheld : ∀ (e : Dev) (l : List Waiting), ({ e with waiting := l } : Dev).owners = e.owners := fun _ _ => rfl
  have hcheck := owners_of_standing (standing_accessCheck d c a n)
  unfold Dev.gate
  split
  · rfl
  split
  · rfl
  split
  · rfl
  split
  · rfl
  generalize d.accessCheck c a n = x at hcheck ⊢
  obtain ⟨e, err⟩ := x
  dsimp only at hcheck ⊢
  split
  · exact hcheck
  split
  · exact hcheck
  split
  · exact hcheck
  have hwait := owners_of_standing (standing_cohWait e a n write except)
  generalize e.cohWait a n write except = y at hwait ⊢
  obtain ⟨f, l⟩ := y
  dsimp only at hwait ⊢
  split
  · exact hwait.trans hcheck
  · exact (hheld f _).trans (hwait.trans hcheck)

end

end Sys2Proof.Machine
end

section
/-! The bindings stand while requests of hosts and of the fabric are performed and answered, and while those that waited for a port are let go on
(R224 to R226, R331, R335). -/

namespace Sys2Proof.Machine

section
variable (d : Dev)

/-! Packets. -/

@[simp] theorem owners_taken (k : Packet) : (d.taken k).owners = d.owners := rfl

@[simp] theorem owners_sendPacket (k : Packet) : (d.sendPacket k).owners = d.owners := by
  unfold Dev.sendPacket
  dsimp only
  split <;> rfl

@[simp] theorem owners_respond (k : Packet) (op status addr arg : Nat) (data : List Byte) : (d.respond k op status addr arg data).owners = d.owners :=
  owners_sendPacket ..

@[simp] theorem owners_answerFail (k : Packet) (status addr : Nat) : (d.answerFail k status addr).owners = d.owners := by
  unfold Dev.answerFail
  split
  · exact owners_respond ..
  · split
    · exact owners_respond ..
    · rfl

@[simp] theorem owners_fabRequest (k : Packet) (t : Tag) : (d.fabRequest k t).owners = d.owners := owners_sendPacket ..
@[simp] theorem owners_fabWr (c g : Nat) (bs : List Byte) (u : Purpose) (a b e : Nat) : (d.fabWr c g bs u a b e).owners = d.owners := owners_fabRequest ..

@[simp] theorem owners_bulkGroup (c g : Nat) (bs : List Byte) (u : Purpose) (a b e : Nat) : (d.bulkGroup c g bs u a b e).owners = d.owners :=
  owners_each _ fun _ _ => owners_sendPacket ..

@[simp] theorem owners_fabWrite (c g : Nat) (bs : List Byte) (u : Purpose) (a b e : Nat) : (d.fabWrite c g bs u a b e).owners = d.owners := by
  unfold Dev.fabWrite
  split
  · rfl
  · extract_lets head e'
    refine (owners_each _ fun _ _ => owners_bulkGroup ..).trans ?_
    unfold e'
    split
    · rfl
    · exact owners_fabWr ..

/-! Requests of the fabric. -/

@[simp] theorem owners_serveRd (m : Mem) (k : Packet) : (d.serveRd m k).owners = d.owners := by
  have hgate := owners_gate d (.fabric k) k.ctx k.addr (k.arg % 512) false none
  unfold Dev.serveRd
  dsimp only
  split
  · simp
  generalize d.gate (.fabric k) k.ctx k.addr (k.arg % 512) false none = x at hgate ⊢
  obtain ⟨e, g⟩ := x
  dsimp only at hgate ⊢
  split
  · exact hgate
  · exact hgate
  · rw [owners_answerFail, owners_taken, hgate]
  · split <;> simp [hgate]

@[simp] theorem owners_serveWr (m : Mem) (k : Packet) : (d.serveWr m k).owners = d.owners := by
  have hgate := owners_gate d (.fabric k) k.ctx k.addr k.data.length true none
  unfold Dev.serveWr
  dsimp only
  split
  · simp
  generalize d.gate (.fabric k) k.ctx k.addr k.data.length true none = x at hgate ⊢
  obtain ⟨e, g⟩ := x
  dsimp only at hgate ⊢
  split
  · exact hgate
  · exact hgate
  · rw [owners_answerFail, owners_taken, hgate]
  · split <;> simp [hgate]

@[simp] theorem owners_serveAtom (m : Mem) (k : Packet) : (d.serveAtom m k).owners = d.owners := by
  have hgate := owners_gate d (.fabric k) k.ctx k.addr (aopWidth (k.arg % 16)) true none
  unfold Dev.serveAtom
  dsimp only
  split
  · simp
  split
  · simp
  generalize d.gate (.fabric k) k.ctx k.addr (aopWidth (k.arg % 16)) true none = x at hgate ⊢
  obtain ⟨e, g⟩ := x
  dsimp only at hgate ⊢
  split
  · exact hgate
  · exact hgate
  · rw [owners_answerFail, owners_taken, hgate]
  · split <;> simp [hgate, Dev.pokeLE]

@[simp] theorem owners_segmentDone (k : Packet) (status off : Nat) : (d.segmentDone k status off).owners = d.owners := by
  have hgroups : ∀ (e : Dev) (l : List InGroup), ({ e with inGroups := l } : Dev).owners = e.owners := fun _ _ => rfl
  unfold Dev.segmentDone
  extract_lets bulk seg src same e old g g' rest
  split
  · exact owners_respond ..
  · split
    · split
      · exact (owners_respond ..).trans (hgroups e _)
      · exact hgroups e _
    · exact hgroups e _

@[simp] theorem owners_serveBwr (m : Mem) (k : Packet) : (d.serveBwr m k).owners = d.owners := by
  have hgate := owners_gate d (.fabric k) k.ctx k.addr k.data.length true none
  unfold Dev.serveBwr
  dsimp only
  split
  · simp
  split
  · simp
  generalize d.gate (.fabric k) k.ctx k.addr k.data.length true none = x at hgate ⊢
  obtain ⟨e, g⟩ := x
  dsimp only at hgate ⊢
  split
  · exact hgate
  · exact hgate
  · rw [owners_segmentDone, hgate]
  · split <;> simp [hgate]

@[simp] theorem owners_serveBget (m : Mem) (k : Packet) : (d.serveBget m k).owners = d.owners := by
  have hpush : ∀ (e : Dev) (l : List Push), ({ e with pushes := l } : Dev).owners = e.owners := fun _ _ => rfl
  have hgate := owners_gate d (.fabric k) k.ctx k.addr (leOf (k.data.take 4)) false none
  unfold Dev.serveBget
  dsimp only
  split
  · simp
  generalize d.gate (.fabric k) k.ctx k.addr (leOf (k.data.take 4)) false none = x at hgate ⊢
  obtain ⟨e, g⟩ := x
  dsimp only at hgate ⊢
  split
  · exact hgate
  · exact hgate
  · rw [owners_answerFail, owners_taken, hgate]
  · split <;> simp [hgate, hpush]

@[simp] theorem owners_serveFab (m : Mem) (k : Packet) : (d.serveFab m k).owners = d.owners := by
  unfold Dev.serveFab Dev.checked
  dsimp only
  split
  · split
    · exact owners_serveRd ..
    split
    · exact owners_serveWr ..
    split
    · exact owners_serveAtom ..
    split
    · exact owners_serveBwr ..
    split
    · exact owners_serveBget ..
    · rfl
  · simp

/-! Requests of a host. -/

theorem owners_setHost {d : Dev} {p : Nat} {x : HostPort} (hstate : x.state = (d.host p).state) (hid : x.hostId = (d.host p).hostId) :
    (d.setHost p x).owners = d.owners :=
  owners_eq (fun _ => ⟨rfl, rfl⟩) (fun q => by
    rw [Dev.host_setHost]
    split
    case isTrue hq => exact hq ▸ ⟨hstate, hid⟩
    case isFalse => exact ⟨rfl, rfl⟩) rfl

@[simp] theorem owners_takenHost (p : Nat) (k : HPacket) : (d.takenHost p k).owners = d.owners := by
  have hrx : ∀ l : List HPacket, (d.setHost p { d.host p with rx := l }).owners = d.owners := fun _ => owners_setHost rfl rfl
  have hunits : ∀ e : Dev, (e.returnUnits p k).owners = e.owners := fun _ => owners_setHost rfl rfl
  unfold Dev.takenHost
  dsimp only
  split
  · exact (hunits _).trans (hrx _)
  · rfl

@[simp] theorem owners_hostAnswer (p : Nat) (k : HPacket) (st grant : Nat) (data : List Byte) : (d.hostAnswer p k st grant data).owners = d.owners :=
  owners_sendHost ..

@[simp] theorem owners_dropSharer (p line : Nat) : (d.dropSharer p line).owners = d.owners := by
  unfold Dev.dropSharer
  split <;> rfl

@[simp] theorem owners_grantLine (p line : Nat) (exclusive : Bool) : (d.grantLine p line exclusive).owners = d.owners := rfl

@[simp] theorem owners_evictLine (line : Nat) : (d.evictLine line).1.owners = d.owners := by
  unfold Dev.evictLine
  split
  · rfl
  · exact owners_each _ fun _ _ => owners_sendSnoop ..

@[simp] theorem owners_hostRead (m : Mem) (p : Nat) (k : HPacket) : (d.hostRead m p k).owners = d.owners := by
  have hgate := owners_gate d (.host p k) k.ctx (k.addr % 2 ^ 41) k.len false none
  unfold Dev.hostRead
  dsimp only
  split
  · simp
  split
  · simp
  generalize d.gate (.host p k) k.ctx (k.addr % 2 ^ 41) k.len false none = x at hgate ⊢
  obtain ⟨e, g⟩ := x
  dsimp only at hgate ⊢
  split
  · exact hgate
  · rw [owners_takenHost, hgate]
  · rw [owners_hostAnswer, owners_takenHost, hgate]
  · split <;> simp [hgate]

@[simp] theorem owners_hostWrite (m : Mem) (p : Nat) (k : HPacket) : (d.hostWrite m p k).owners = d.owners := by
  have hgate := owners_gate d (.host p k) k.ctx (k.addr % 2 ^ 41) k.len true none
  unfold Dev.hostWrite
  dsimp only
  split
  · simp
  split
  · simp
  generalize d.gate (.host p k) k.ctx (k.addr % 2 ^ 41) k.len true none = x at hgate ⊢
  obtain ⟨e, g⟩ := x
  dsimp only at hgate ⊢
  split
  · exact hgate
  · rw [owners_takenHost, hgate]
  · rw [owners_hostAnswer, owners_takenHost, hgate]
  · simp [hgate]

@[simp] theorem owners_hostGrant (m : Mem) (p : Nat) (k : HPacket) (excl : Bool) : (d.hostGrant m p k excl).owners = d.owners := by
  have hheld : ∀ (e : Dev) (l : List Waiting), ({ e with waiting := l } : Dev).owners = e.owners := fun _ _ => rfl
  have hgate := owners_gate d (.host p k) k.ctx (k.addr % 2 ^ 41) 64 excl (some p)
  unfold Dev.hostGrant
  dsimp only
  split
  · simp
  split
  · simp
  split
  · simp
  split
  · simp
  generalize d.gate (.host p k) k.ctx (k.addr % 2 ^ 41) 64 excl (some p) = x at hgate ⊢
  obtain ⟨e, g⟩ := x
  dsimp only at hgate ⊢
  split
  · exact hgate
  · rw [owners_takenHost, hgate]
  · rw [owners_hostAnswer, owners_takenHost, hgate]
  · split
    · simp [hgate, hheld]
    · split <;> simp [hgate]

@[simp] theorem owners_hostEvict (m : Mem) (p : Nat) (k : HPacket) : (d.hostEvict m p k).owners = d.owners := by
  unfold Dev.hostEvict
  extract_lets a e mine f
  have he : e.owners = d.owners := owners_takenHost ..
  have hf : f.owners = d.owners := by
    unfold f
    split
    · rw [owners_store, he]
    · exact he
  split
  · rw [owners_hostAnswer, he]
  split
  · rw [owners_hostAnswer, he]
  split
  · rw [owners_hostAnswer, he]
  rw [owners_hostAnswer]
  split
  · rw [owners_dropSharer, hf]
  · exact hf

@[simp] theorem owners_serveHost (m : Mem) (p : Nat) (k : HPacket) : (d.serveHost m p k).owners = d.owners := by
  unfold Dev.serveHost
  split
  · exact owners_hostRead ..
  split
  · exact owners_hostWrite ..
  split
  · exact owners_hostGrant ..
  split
  · exact owners_hostGrant ..
  split
  · exact owners_hostEvict ..
  · rfl

/-! The requests that waited. -/

@[simp] theorem owners_release (m : Mem) (gone : Nat × Nat → Bool) : (d.release m gone).owners = d.owners := by
  have hwaiting : ∀ (l : List Waiting), ({ d with waiting := l } : Dev).owners = d.owners := fun _ => rfl
  unfold Dev.release
  refine (owners_each _ fun d x => ?_).trans (hwaiting _)
  split
  · exact owners_serveHost ..
  · exact owners_serveFab ..

@[simp] theorem owners_dropPort (m : Mem) (p : Nat) : (d.dropPort m p).owners = d.owners := by
  have hsnoops : ∀ (e : Dev) (l : List Snoop), ({ e with snoops := l } : Dev).owners = e.owners := fun _ _ => rfl
  unfold Dev.dropPort
  dsimp only
  rw [owners_release, hsnoops]
  exact owners_each _ fun _ _ => owners_dropSharer ..

end

end Sys2Proof.Machine
end

section
/-! Another host answers on a Pequa port (R331, R338): its contexts are torn down. -/

namespace Sys2Proof.Machine

open Sys2Proof.Claims (Ends)

/-! The admin ports under a teardown. -/

section
variable (d : Dev)

theorem admin_of_standing {d e : Dev} (h : e.standing = d.standing) : e.admin = d.admin := (owners_fields (owners_of_standing h)).2.2

theorem admin_each {α : Type} {l : List α} {f : Dev → α → Dev} (h : ∀ d a, (f d a).admin = d.admin) : (d.each l f).admin = d.admin :=
  Dev.each_frame Dev.admin l h d

theorem admin_evictLines (c : Nat) : (d.evictLines c).admin = d.admin := by
  unfold Dev.evictLines
  extract_lets p base e
  have he : e.admin = d.admin := by
    unfold e
    split
    · rfl
    · exact admin_each _ fun _ _ => admin_of_standing (standing_hostRequest ..)
  exact he

theorem admin_resetTiles (ts : List Nat) : (d.resetTiles ts).admin = d.admin := admin_each _ fun _ _ => rfl

theorem admin_beginClear (ts : List Nat) : (d.beginClear ts).admin = d.admin := admin_each _ fun _ _ => rfl

theorem admin_teardownStep4 (c : Nat) : (d.teardownStep4 c).admin = d.admin := by
  unfold Dev.teardownStep4
  split
  · rfl
  · exact admin_beginClear ..

theorem admin_teardown (m : Mem) (c cause : Nat) : (d.teardown m c cause).admin = d.admin := by
  unfold Dev.teardown
  split
  · rfl
  · extract_lets p up x1 d1 d2 d3 x4 d4 x5 d5 d6 r d7
    have h2 : d2.admin = d.admin := (admin_of_standing (standing_event d1 [c] 0x0904 1 c cause 0)).trans rfl
    have h3 : d3.admin = d2.admin := (admin_resetTiles ..).trans (admin_of_standing (standing_endServices d2 m c))
    have h5 : d5.admin = d4.admin := by
      unfold d5
      split
      · exact admin_each _ fun _ _ => admin_of_standing (standing_stopRun ..)
      · rfl
    have h6 : d6.admin = d5.admin := (admin_evictLines ..).trans ((admin_of_standing (standing_nextGen d5 c up)).trans rfl)
    have h7 : d7.admin = d6.admin := admin_each _ fun _ _ => admin_of_standing (standing_sendSnoop ..)
    exact (admin_teardownStep4 d7 c).trans (h7.trans (h6.trans (h5.trans (h3.trans h2))))

end

/-! The new host. -/

/-- The port's record with its new host, and the port an admin port no more. -/
def Dev.rehost (d : Dev) (p : Nat) (h : BitVec 64) (coh : Bool) (n : Nat) : Dev :=
  { d.setHost p { d.host p with state := .credit, hostId := h, lastHostId := h, cohReq := coh, cohFenced := false, tags := n, ctrlQueue := [hostCreditInit] } with
    admin := d.admin &&& ~~~(BitVec.ofNat 4 (2 ^ p)) }

theorem rehost_leaves (d : Dev) {p : Nat} (hp : p < 4) (h : BitVec 64) (coh : Bool) (n : Nat) :
    (d.rehost p h coh n).admin.getLsbD p = false ∧ ((d.rehost p h coh n).host p).hostId = h ∧ ((d.rehost p h coh n).host p).state = .credit ∧
    ∀ c, (d.rehost p h coh n).boundTo c p = d.boundTo c p := by
  have hhost : (d.rehost p h coh n).host p = { d.host p with state := .credit, hostId := h, lastHostId := h, cohReq := coh, cohFenced := false, tags := n, ctrlQueue := [hostCreditInit] } :=
    host_setHost_same ..
  have hadmin : (d.admin &&& ~~~(BitVec.ofNat 4 (2 ^ p))).getLsbD p = false := by
    rw [BitVec.getLsbD_and, BitVec.getLsbD_not, BitVec.getLsbD_ofNat, Nat.testBit_two_pow_self, decide_eq_true hp]
    exact Bool.and_false _
  exact ⟨hadmin, congrArg (·.hostId) hhost, congrArg (·.state) hhost, fun _ => rfl⟩

theorem pequaParam_another (s : State) (p : Fin 4) (h : BitVec 64) (coh : Bool) (n : BitVec 16) (hstate : (s.dev.host p).state = .param) (hid : h ≠ 0)
    (htags : n ≠ 0) (hmost : n.toNat ≤ 4096) (hhad : (s.dev.host p).lastHostId ≠ 0) (hother : (s.dev.host p).lastHostId ≠ h) :
    Ends (.pequaParam p h coh n) s (fun u => u.dev.admin.getLsbD p.val = false ∧ (u.dev.host p).hostId = h ∧ (u.dev.host p).state = .credit ∧
      (∀ c, c < 64 → s.dev.boundTo c p = true → (u.dev.ctx c).state = .teardown ∨ (u.dev.ctx c).state = .quarantine)) := by
  obtain ⟨hadmin, hhost, hcredit, hbindings⟩ := rehost_leaves s.begin p.isLt h coh n.toNat
  obtain ⟨d, hd⟩ : ∃ d, d = s.begin.rehost p h coh n.toNat := ⟨_, rfl⟩
  obtain ⟨e, he⟩ : ∃ e, e = (d.event [] 0x0903 1 p 0 0).dropPort s.mem p := ⟨_, rfl⟩
  have heffect : xPequaParam p h coh n.toNat s.mem s.begin = e.each (e.boundList p) (fun d c => d.teardown s.mem c 2) := by
    have hstate' : (s.begin.host p).state = .param := hstate
    have htags' : n.toNat ≠ 0 := fun h0 => htags (BitVec.eq_of_toNat_eq h0)
    have hid' : (h == 0) = false := beq_false_of_ne hid
    have hhad' : ((s.begin.host p).lastHostId != 0) = true := bne_iff_ne.mpr hhad
    have hother' : ((s.begin.host p).lastHostId != h) = true := bne_iff_ne.mpr hother
    unfold xPequaParam
    dsimp only
    rw [hstate', hid', decide_eq_false htags', decide_eq_false (by omega : ¬ 4096 < n.toNat), if_neg (by decide), hhad', hother', if_neg (by decide), he, hd]
    rfl
  rw [← hd] at hadmin hhost hcredit hbindings
  have howners : e.owners = d.owners := by rw [he, owners_dropPort, owners_event]
  obtain ⟨-, hhosts, hadmins⟩ := owners_fields howners
  obtain ⟨hstate', hid'⟩ := hhosts p
  obtain ⟨hends, -, hfaces⟩ := teardowns_end s.mem 2 (boundList_nodup e p) boundList_bound
  have hkept : (e.each (e.boundList p) (fun d c => d.teardown s.mem c 2)).admin = e.admin := admin_each _ fun _ _ => admin_teardown ..
  obtain ⟨f, hf⟩ : ∃ f, f = e.each (e.boundList p) (fun d c => d.teardown s.mem c 2) := ⟨_, rfl⟩
  rw [← hf] at heffect hends hfaces hkept
  obtain ⟨hstate'', hid''⟩ := face_fields (hfaces p)
  refine ends_of_run (x := xPequaParam p h coh n.toNat) rfl heffect ⟨?admin, hid''.trans (hid'.trans hhost), hstate''.trans (hstate'.trans hcredit), fun c hc hto => ?_⟩
  case admin => exact (congrArg (·.getLsbD p.val) (hkept.trans hadmins)).trans hadmin
  exact hends c (mem_boundList.mpr ⟨hc, (boundTo_of_owners howners c p).trans ((hbindings c).trans hto)⟩)

/-- Settles O43, clause by clause: what a port keeps of a flit and what it sends, what each link state waits for, and what is left of a port that went down. -/
theorem pequaPortsTrainRunAndGoDown : Obligations.PequaPortsTrainRunAndGoDown :=
  ⟨pequaFlitReceive_accepts, pequaFlitReceive_discards, pequaFlitSend_param, pequaFlitSend_data, pequaAckTimeout_retrains, pequaParam_first,
    pequaParam_another, pequaCreditInit_opens, pequaPhyTrainDone_trains, pequaPhyTrainDone_fails, pequaRetryTimer_trains, l0Regained_replays,
    pequaDown_takes, pequaStateTimeout_takes, pequaLinkLoss_takes, devHpRetrain_retrains, devHpDisable_takes, devHpEnable_enables⟩

end Sys2Proof.Machine
end
